-- ==== Sys2Proof/Word.lean ====
section
/-! DEFINITION. The word types and the index types every layer of the model shares (R14, R27, R277). -/
namespace Sys2Proof

/-- One byte of a memory, a message or a block. -/
abbrev Byte := BitVec 8

/-- A channel, IN0 to IN127. -/
abbrev Ch := Fin 128

/-- A group of 16 channels. -/
abbrev Grp := Fin 8

/-- A south port of a hub. -/
abbrev Port := Fin 8

/-- A lane number of R277: 0 to 7 N_TX, 8 N_RX, 9 to 16 S_RX, 17 to 24 S_TX. -/
abbrev Lane := Fin 25

/-- The two control paths (R482). -/
inductive Path where
  | north | can
  deriving DecidableEq, Repr

/-- What a request carries beside its body: the path it came on, its source address and its transaction id (R454). -/
structure Req where
  path : Path
  src : BitVec 16
  tid : BitVec 8
  deriving DecidableEq, Repr

/-- Where a discriminator's input lies at an instant: below its hysteresis band, inside it, at V_THR or above (R54). -/
inductive Band where
  | below | inside | above
  deriving DecidableEq, Repr

/-- The two discriminators of a channel (R53). -/
inductive Which where
  | timing | energy
  deriving DecidableEq, Repr

/-- The three ranks (R23). -/
inductive RankId where
  | a | b | s
  deriving DecidableEq, Repr

/-- A link (R309): the north link, south link k, or pass-through link j (1 to 7). -/
inductive LinkId where
  | north
  | south (k : Port)
  | pass (j : Fin 8)
  deriving DecidableEq, Repr

/-- The agents of the event block pool (R205). -/
inductive PoolAgent where
  | query | builder | replay | supervisor
  deriving DecidableEq, Repr

/-- What an agent asks of the pool controller for a block beside an allocation: its release, or its transfer to another
agent (R205). -/
inductive PoolAct where
  | release (block : BitVec 8)
  | transfer (block : BitVec 8) (to_ : PoolAgent)
  deriving DecidableEq, Repr

/-- The two supply feeds (R515). -/
inductive Feed where
  | a | b
  deriving DecidableEq, Repr

/-- How many bits of a scratchpad word are in error (R378): one, two, or three and more, which the code miscorrects or
misses. -/
inductive WordErr where
  | single | double | miscorrected | missed
  deriving DecidableEq, Repr

/-- An error that a read meets (R354, R378): the bits a rank beat reads wrong (c0 in the low 16 bits), a scratchpad word
with bits in error and what reads wrong in it, or an uncorrectable word of the write-combine buffer, by its ring address. -/
inductive Upset where
  | beat (rank : RankId) (addr : BitVec 25) (err : BitVec 96)
  | word (addr : BitVec 23) (kind : WordErr) (err : BitVec 64)
  | buffer (ring : BitVec 26) (err : BitVec 64)
  deriving DecidableEq, Repr

/-- How an NVM store ends (R505): its words are written in the order of R504, and the number counts those written. -/
inductive StoreEnd where
  | committed
  | verify
  | program (words : BitVec 13) (torn : BitVec 64)
  | cut (words : BitVec 13) (torn : BitVec 64)
  deriving DecidableEq, Repr

/-- A feed's loss (R516): where it is the last feed, the word of the newest NVM write that the power loss cuts, counted from its
first, and what that word is left with; none when no write was running (R499). -/
structure FeedLoss where
  feed : Feed
  cut : Option (BitVec 13 × BitVec 64) := none
  deriving DecidableEq, Repr

/-- A frame on the CAN bus as the port takes it (R474): an FD frame of the extended format, another frame that it acknowledges and
ignores, or one with an error, late when the port reads a dominant bit after its own error flag. -/
inductive CanKind where
  | fd | foreign | error (late : Bool)
  deriving DecidableEq, Repr

/-- A write of NV_PATCH (R512): the level of an image that passes its check, none for one that fails it, and how the write to
the NVM ends. -/
structure PatchEnd where
  level : Option (BitVec 16)
  e : StoreEnd
  deriving DecidableEq, Repr

/-- What a rank's training at boot has measured (R362, R363): the dies that fail at the stored delays or within 3 steps of
them, or in a sweep the settings at which each of the 37 delays passes, in the order of DRM_TRAIN, the command delay last. -/
inductive TrainEnd where
  | stored (failing : BitVec 6)
  | sweep (passing : List (BitVec 64))
  deriving DecidableEq, Repr

/-- What a request at the scratchpad port asks for (R374, R375): a read, a write of a whole word, or a write of fewer than
8 bytes. -/
inductive PortOp where
  | read | write | part
  deriving DecidableEq, Repr

/-- A request at the scratchpad port: its agent, 1 to 6 by the table of R373, its word, and for a write the data and the bytes
of the word that a write of fewer than 8 bytes changes (R374, R375). -/
structure PortReq where
  agent : Fin 7
  word : BitVec 20
  op : PortOp
  data : BitVec 64 := 0
  bytes : BitVec 8 := 0xFF
  deriving DecidableEq, Repr

/-- The boot step that completes, with what it found (R531). -/
inductive BootStep where
  | feeds
  /-- failed check units, whether a committed patch image passes its check, and the repair records of the fuse map -/
  | firmware (bist : BitVec 39) (patchOk : Bool) (fuse : List (BitVec 32))
  /-- banks A and B met an uncorrectable word when they were read (R507) -/
  | config (ueA ueB : Bool)
  /-- the words in which the march, and then the march over the repaired sub-arrays, found failing cells: word address and
  failing bits of its 72 -/
  | scratchpad (first second : List (BitVec 20 × BitVec 72))
  | dram (a b c : TrainEnd)
  /-- histograms of the channels, raw values of the housekeeping slices (slice 0 then 1), self-tests of the builders -/
  | calibrate (hists : List (List Nat × List Nat)) (hk : List (Int × Int)) (ok0 ok1 : Bool)
  deriving DecidableEq, Repr

/-- The protected storage that an upset strikes (R545). -/
inductive Struck where
  /-- one copy of a configuration register, or two copies, which then vote for a wrong value -/
  | register (index : BitVec 16) (sub : BitVec 8) (two : Option (BitVec 128))
  | lut (c : Ch) (walk : Bool) (p : Fin 160)
  | chain (c : Ch) (n : Fin 16)
  | fifo (g : Grp) (n : BitVec 10)
  | query (slot : Fin 4)
  /-- lane control state, clock, reset and armature control, crossing counter or network time: one voted copy -/
  | control
  /-- storage whose code corrects the upset when it is read -/
  | corrected
  deriving DecidableEq, Repr

/-- The number of a rank: 0 A, 1 B, 2 S (R389). -/
def RankId.num : RankId → Nat
  | .a => 0 | .b => 1 | .s => 2

/-- The group of a channel (R46). -/
def groupOf (c : Ch) : Grp := ⟨c.val / 16, by omega⟩

end Sys2Proof
end

