-- ==== Sys2Proof/Syntax.lean ====
section
/-! DEFINITION. The commands of the block: one constructor per row of spec/opcode_table.json, with the operands the row's
step takes from outside (a channel, a sampling edge, a received block, a host request, an error pattern). -/
namespace Sys2Proof

/-- The commands, in the table's order. Each docstring is the row's rule and summary. -/
inductive Instr where
  /-- R408. A CKIN tick (or INTOSC tick in fallback) starts a new crossing and increments the 48-bit crossing count. -/
  | crossingTick (u : List Upset) (tpSent : Bool)
  /-- R409. A tick whose crossing number is a multiple of TURN_LEN is a turn marker. -/
  | turnMarker
  /-- R92. A recognised rise of the timing discriminator starts a hit in the TDC. -/
  | timingRise (ch : Ch) (k : Fin 32) (word : BitVec 160) (rearmed : Bool)
  /-- R92. A recognised fall of the timing discriminator stops the hit in progress. -/
  | timingFall (ch : Ch) (k : Fin 32) (word : BitVec 160)
  /-- R56. An energy-discriminator rise is passed to the walk meter while the timing discriminator is high, and is otherwise discarded. -/
  | energyRise (ch : Ch) (k : Fin 32) (tap : Fin 80)
  /-- R93. When 32,760 bins elapse without a stop, the hit is produced with TOT = 0xFFF and FLG[7] set. -/
  | totSaturate (ch : Ch)
  /-- R125. The group FIFO takes one entry from its chains round-robin when it has room. -/
  | grpFifoWrite (g : Grp)
  /-- R130. A chain loss report reaches the assembler and adds to the slice's NUP, or to ASM_UNREC once the slice has closed. -/
  | lossReportArrive
  /-- R48. An input node held more than 20 mV above its trim for 10 µs sets FE_OVL and FE_OVL_SEEN. -/
  | feOverloadSet (ch : Ch)
  /-- R48. An input node back within 20 mV of its trim for 10 µs clears FE_OVL. -/
  | feOverloadClear (ch : Ch)
  /-- R59. 128 ticks after enabling, the channel's discriminators leave Held for Unknown, Low or High. -/
  | channelRelease (ch : Ch) (timing : Band) (energy : Band)
  /-- R336. A received TPULSE command is scheduled, or discarded as late or for a full scheduler. -/
  | cmdTpulse (tgt : BitVec 48)
  /-- R65. At the target tick the armed channels inject charge at phase P; the phase then steps and FE_TP_FIRED, FE_TP_LASTX and TPF update. -/
  | tpulseFire
  /-- R79. ARM in IDLE or READY discards any capture and starts FILL, and is refused in the other states. -/
  | prbArm (q : Req)
  /-- R80. ABORT returns the probe to IDLE from any state and discards a capture. -/
  | prbAbort (q : Req)
  /-- R75. After PRB_PRE samples the probe enters WAIT; in FORCED mode the completing sample triggers. -/
  | prbFillDone (k : Fin 32) (samples : List (Fin 1024))
  /-- R76. A level edge or test-pulse fire triggers the capture, and PRB_TCROSS and PRB_TPOS are recorded. -/
  | prbTrigger (k : Fin 32) (samples : List (Fin 1024))
  /-- R79. After 8,192 − PRB_PRE samples from the trigger, the capture is complete and COPY starts. -/
  | prbPostDone (samples : List (Fin 1024))
  /-- R79. The supervisor's copy to the scratchpad completes and the probe enters READY. -/
  | prbCopyDone
  /-- R103. The on-die random source injects a marked edge into a channel's delay line for calibration: k below 32 is the
  sampling period in the crossing in progress, k from 32 on period k - 32 of the crossing before. -/
  | calRandomEdge (ch : Ch) (k : Fin 64) (word : BitVec 160) (walkTap : Option (Fin 80))
  /-- R102. In AUTO mode, a histogram still below 2^16 after TDC_CAL_QUIET crossings adds the random source. -/
  | calQuietExpire (ch : Ch)
  /-- R104. Both histograms of a slot are full and the channel enters COMPUTE. -/
  | calRunComplete (ch : Ch)
  /-- R105. The supervisor computes and checks the new LUTs, which then pend for a swap or are rejected. -/
  | lutComputeDone (ch : Ch)
  /-- R109. RESTART returns accumulating channels to WAIT and restarts the schedule from channel 0. -/
  | tdcCalRestart (q : Req)
  /-- R109. ABORT does as RESTART and also discards every pending LUT. -/
  | tdcCalAbort (q : Req)
  /-- R110. A host-written LUT is checked, replaces any pending computed LUT, and swaps at the turn marker after APPLY. -/
  | tdcLutWrite (q : Req) (ch : Ch) (lut : List Byte)
  /-- R116. START begins back-to-back rate gates, restarting any gate in progress. -/
  | tdcRmStart (q : Req)
  /-- R116. STOP abandons the gate in progress and returns the rate meter to IDLE. -/
  | tdcRmStop (q : Req)
  /-- R114. At the end of a gate all counts latch into CH_RATE, the counters clear, and TDC_RM_SEQ and TDC_RM_LASTX update. -/
  | rmGateEnd
  /-- R130. An entry presented by the collector is stored in its open slice, or lost to the cap, the budget, lateness or no slice. -/
  | hitCollect (cycles : Fin 8) (ready : BitVec 8)
  /-- R136. At tick c + W the slice closes, its records move to the write-combine buffer, and its index entry is written. -/
  | sliceClose (u : List Upset)
  /-- R137. A full 64-byte granule of the write-combine buffer is written to its rank or to the scratchpad. -/
  | wcBurstDrain (u : List Upset)
  /-- R141. START in IDLE puts the assembler into RUN at a tick with a full credit. -/
  | asmStart (q : Req)
  /-- R141. STOP in RUN puts the assembler into DRAINING at a tick. -/
  | asmStop (q : Req)
  /-- R163. Rank S is ready and mapped in place of the retired rank, and the held bursts drain to it. -/
  | spareMapped
  /-- R164. The migration copies, passes over or marks LOST one old slice and lowers LB_MIGPTR. -/
  | migrationCopy (u : List Upset)
  /-- R166. At tick s the ring changes layout: LB_LOSTBELOW is set, the write-combine buffer is discarded and the write pointer restarts. -/
  | layoutSwitch
  /-- R191. A complete QUERY block is received and the query is admitted normal, thin, refused or discarded. -/
  | queryReceive (word : BitVec 112)
  /-- R194. The query engine takes the next admitted query from the queue in arrival order. -/
  | queryStart (u : List Upset)
  /-- R182. A waiting query resumes at the tick its newest window crossing becomes readable. -/
  | queryWaitEnd (u : List Upset)
  /-- R160. A slice fetch completes and its crossing is re-tested against the floors. -/
  | sliceFetchDone (slot : Fin 4) (u : List Upset)
  /-- R194. An answer is handed to the builder once the answer ahead of it has been handed over in full. -/
  | answerHandoff (svc : BitVec 16)
  /-- R205. An agent obtains the lowest free pool block, or waits. -/
  | poolAllocate (agent : PoolAgent) (acts : List (PoolAgent × PoolAct))
  /-- R213. A write of the south-port enables moves ports between OFF and CLOCK, and is refused outside the hub role. -/
  | hubPortEnWrite (q : Req) (v : BitVec 8)
  /-- R221. A leaf sub-event is paired by QID, closing older queries as skipped, or discarded as late or never forwarded. -/
  | leafSubeventArrive (k : Port) (qid : BitVec 16) (bytes : List Byte) (bufferBad : Bool)
  /-- R223. The head query's timer reaches HUB_TIMEOUT and its awaited positions close as TIMEOUT. -/
  | mergerTimeout
  /-- R237. A leaf trigger-primitive word arrives at the hub, or is discarded when after the deadline. -/
  | leafTpArrive (k : Port) (xlow : BitVec 6) (word : BitVec 16) (late : Bool)
  /-- R237. At HUB_TP_DEADLINE the cluster primitive is built from the words present, with ABS set for missing ones. -/
  | clusterTpDeadline (sent : Bool)
  /-- R241. At the end of a part the builder pair compares its outputs and checks, and releases, marks, switches or takes a unit out. -/
  | partDecision (mismatch : Bool) (fa : Bool) (fs : Bool) (u : List Upset)
  /-- R243. The taken-out unit's self-test ends and it enters COPY or RETIRED. -/
  | builderSelftestDone (unit : Fin 2) (ok : Bool)
  /-- R243. The state copy completes and the unit rejoins lockstep as STANDBY. -/
  | builderCopyDone (ok : Bool)
  /-- R242. Expert SWITCH forces a switch-over at the next part end. -/
  | bldSwitch (q : Req)
  /-- R244. Expert REJOIN starts a state copy into a retired unit. -/
  | bldRejoin (q : Req)
  /-- R244. Expert DROP takes the standby out and retires it. -/
  | bldDrop (q : Req)
  /-- R249. A compression job ends with DONE, OUTFULL or NOCTX and reports its counts. -/
  | cmpJobEnd (slot : Fin 4) (u : List Upset)
  /-- R276. A written test section is coded in the test context, or refused if malformed. -/
  | cmpTestWrite (q : Req) (bytes : List Byte) (u : List Upset)
  /-- R299. A host request moves a lane to L1, L2 or owner control. -/
  | lnPctrlWrite (q : Req) (i : Lane) (v : BitVec 8)
  /-- R298. A lane completes its exit from L2 and its receiver enters WAIT. -/
  | laneL2ExitDone (i : Lane)
  /-- R300. A lane leaves L1, and a receiver in IDLE re-enters LOCKED without a hunt. -/
  | laneL1ExitDone (i : Lane)
  /-- R286. The 65,536-UI phase scan ends, the sampling phase is set, and the receiver enters HUNT. -/
  | phaseScanDone (i : Lane) (d : Vector (Fin 4097) 16)
  /-- R287. After 4,096 transitions the early-late vote may step the phase select by one. -/
  | phaseTrackWindow (i : Lane) (early : Fin 4097) (lateVotes : Fin 4097)
  /-- R288. A margin scan starts on a locked receiver, or is refused. -/
  | lnEyeScanStart (q : Req) (i : Lane)
  /-- R288. The margin scan ends and LN_EYEW gives the open eye width. -/
  | marginScanDone (i : Lane) (agree : BitVec 16)
  /-- R311. A received 66-bit block is judged by header and BTYPE and handled, counted or discarded. -/
  | ragilBlockReceive (i : Lane) (header : BitVec 2) (payload : BitVec 64)
  /-- R290. 4,224 blocks without lock return the receiver to SCAN. -/
  | huntTimeout (i : Lane)
  /-- R291. Input below 50 mVppd for 1 µs signals loss of signal and sends the receiver to WAIT. -/
  | losAssert (i : Lane)
  /-- R291. Input above 80 mVppd for 100 ns clears loss of signal. -/
  | losClear (i : Lane)
  /-- R291. A DLL, forwarded-clock or synthesiser loss of lock is signalled. -/
  | lolAssert (i : Lane) (synth : Option (Fin 2))
  /-- R292. A transmitting lane reports a fault and sets TXFAULT. -/
  | txFault (i : Lane)
  /-- R301. A lane is put into or out of PRBS31 test mode at the next block boundary. -/
  | lnTestWrite (q : Req) (i : Lane) (v : BitVec 8)
  /-- R302. 1,024 agreeing bits put the PRBS checker in sync. -/
  | prbsSync (i : Lane) (reg : BitVec 31)
  /-- R302. 64 errors within 1,024 bits take the PRBS checker out of sync and it reloads. -/
  | prbsSyncLoss (i : Lane)
  /-- R314. In CAPS the link sends its CAPS block every 1 µs. -/
  | capsSend (l : LinkId)
  /-- R313. A received CAPS is agreed against the device's own, and may move the link to RATE or UP. -/
  | capsReceive (l : LinkId) (content : BitVec 56)
  /-- R314. A link in CAPS for RG_CAPS_TO without reaching UP returns to DOWN. -/
  | capsTimeout (l : LinkId)
  /-- R337. A south STATUS updates the RXLOCK map of the bundle lanes. -/
  | statusReceive (l : LinkId) (content : BitVec 56)
  /-- R337. A north STATUS is sent every RG_STAT_INT and on each flag change. -/
  | statusSend (l : LinkId)
  /-- R337. 20 µs without a south STATUS keeps the last RXLOCK and is counted. -/
  | statusMiss
  /-- R320. A lane eligible for 10 µs joins the bundle at the next row. -/
  | laneJoin (j : Fin 8) (scheduled : Bool)
  /-- R319. A scheduled ALIGN row is sent on every bundle lane every 16,384 slots. -/
  | alignRow (l : LinkId)
  /-- R326. A complete frame is accepted, discarded as a duplicate, or NAKed for a gap or error. -/
  | frameReceive (l : LinkId) (sof : BitVec 56) (blocks : List (BitVec 64)) (eof : Option (BitVec 56))
  /-- R326. RG_NAK_HOLD passes and the receiver may NAK again. -/
  | nakHoldExpire (l : LinkId)
  /-- R327. An ACK covering the newly accepted frames is sent within RG_ACK_INT. -/
  | ackSend (l : LinkId)
  /-- R328. An ACK moves the mark and frees acknowledged frames, or is counted as bad. -/
  | ackReceive (l : LinkId) (content : BitVec 56)
  /-- R331. A NAK moves the mark and triggers a rewind. -/
  | nakReceive (l : LinkId) (content : BitVec 56)
  /-- R331. The mark held for RG_REPLAY_TO without progress causes a rewind to the mark. -/
  | replayTimeout (l : LinkId)
  /-- R325. A frame starts once all its data lie in the replay buffer and the window has room. -/
  | frameSend (l : LinkId) (u : List Upset)
  /-- R330. The north link's replay slots change once it holds no frame. -/
  | repartition
  /-- R336. A received TURN command is scheduled or discarded as late or for a full scheduler. -/
  | cmdTurn (tgt : BitVec 48)
  /-- R410. At the TURN target tick, a target that is not a turn marker records a phase error. -/
  | turnCheck
  /-- R411. A named-form RESYNC is scheduled or discarded as late. -/
  | cmdResync (tgt : BitVec 48) (n0 : BitVec 48)
  /-- R412. An alignment-form RESYNC is timed to the nearest tick u and pends for tick u + 32. -/
  | alignResyncReceive (n0 : BitVec 48) (r : Fin 32)
  /-- R411. The crossing number becomes N0 at the target tick, resetting the floors and failing waiting queries. -/
  | resyncApply
  /-- R335. A CMD with a reserved code, or a RESYNC without a matching CONT, is discarded and counted. -/
  | cmdReserved (code : BitVec 8) (cont : Bool)
  /-- R416. A TIME message is accepted or rejected and may make a master candidate. -/
  | timeReceive (word : BitVec 168)
  /-- R417. At the tick after an accepted message the servo steps, or adjusts the rate and slew. -/
  | ntServoUpdate
  /-- R342. After 500 µs unlocked in CLOCK, the port's receive rate changes between codes 3 and 1. -/
  | southRateHunt (k : Port)
  /-- R358. An all-bank refresh falls due every tREFI and stalls the rank for tRFC. -/
  | refresh (r : RankId) (temp : BitVec 16)
  /-- R359. A serving rank idle for DRM_PD_TIMER enters power-down. -/
  | rankPowerDown (r : RankId)
  /-- R366. A read-delay verify after self-refresh passes, or retires the rank. -/
  | rankVerifyDone (r : RankId) (failing : BitVec 6)
  /-- R365. Every 4 ms the read delays are tracked and may step, mark a die or retire the rank. -/
  | delayTrack (r : RankId) (up : BitVec 12) (down : BitVec 12) (failing : BitVec 6)
  /-- R370. Every DRM_SPARE_PER the spare rank verifies and scrubs 1 MiB. -/
  | spareCheck (u : List Upset) (failing : BitVec 6) (temps : List (BitVec 16))
  /-- R368. Expert command to retire rank A, B or S, accepted only in SERVING or SPARE. -/
  | drmCtrlRetire (q : Req) (r : RankId)
  /-- R363. Expert command that makes the next boot sweep every rank. -/
  | drmSweepNextBoot (q : Req)
  /-- R378. A corrected scratchpad word is written back in the next free cycle. -/
  | spmCorrectionWriteback (cycles : List (List PortReq))
  /-- R381. A preserving march over the set range starts. -/
  | marchPreserving (q : Req)
  /-- R381. A destructive March C− over the range starts, in Parked only. -/
  | marchDestructive (q : Req)
  /-- R381. The march stops after the word in progress. -/
  | marchAbort (q : Req) (element : Fin 6) (words : BitVec 20) (fails : List (BitVec 23)) (u : List Upset)
  /-- R382. The march ends PASSED or FAILED. -/
  | marchDone (fails : List (BitVec 23)) (u : List Upset)
  /-- R383. A scrub pass over the set range starts, or is refused. -/
  | scrubStart (q : Req)
  /-- R384. A halted scrub pass continues from the next address. -/
  | scrubResume (q : Req)
  /-- R384. The scrub pass ends ABORTED. -/
  | scrubAbort (q : Req) (next : BitVec 26) (u : List Upset)
  /-- R384. An uncorrectable beat or word halts the scrub pass. -/
  | scrubHalt (address : BitVec 26) (u : List Upset)
  /-- R384. The scrub pass reaches the end of its range. -/
  | scrubDone (u : List Upset)
  /-- R386. Once a second the firmware RAM is read and corrected words are written back. -/
  | fwRamPatrol (corr : BitVec 16) (ue : List (BitVec 18 × BitVec 64))
  /-- R397. INTOSC reports ready and the domains leave reset on it. -/
  | intoscReady (straps : BitVec 9) (us : BitVec 32)
  /-- R398. Every 64 plinth periods INTOSC is counted against E_P. -/
  | plinthIntoscCount (n : BitVec 20)
  /-- R398. No INTOSC edge for 4 plinth periods is an INTOSC fault. -/
  | intoscGap
  /-- R400. A 256-cycle monitor window ends and CKIN is qualified, tracked or failed. -/
  | ckinWindowEnd (n : BitVec 16)
  /-- R400. No CKIN edge for 9.5 expected periods fails CKIN. -/
  | ckinMissingEdges
  /-- R400. The TDC PLL or core synthesiser losing lock fails CKIN. -/
  | pllLossOfLock (core : Bool)
  /-- R403. After acceptance, the PLLs and PHYs relock and service resumes. -/
  | pllLocked (us : BitVec 32)
  /-- R403. A PLL not locked 1 ms after acceptance fails CKIN again. -/
  | relockTimeout
  /-- R406. A host request gates armature nodes, refusing busy ones. -/
  | clkGateReqWrite (q : Req) (v : BitVec 32)
  /-- R413. A hub sends an alignment-form RESYNC to a leaf at the next tick-aligned slot. -/
  | leafAlignSend (k : Port)
  /-- R419. NT_HOLDOVER without an accepted message puts network time into HOLDOVER. -/
  | ntHoldoverExpire
  /-- R420. An expert write sets network time at the next tick, counted as a step. -/
  | ntSetWrite (q : Req) (ns : BitVec 64)
  /-- R421. An armed alarm fires at the first tick with NT_NOW at or past its time and starts its actions. -/
  | alarmFire (k : Fin 8)
  /-- R427. ARM arms alarm k. -/
  | ntAlArm (q : Req) (k : Fin 8)
  /-- R427. DISARM disarms alarm k. -/
  | ntAlDisarm (q : Req) (k : Fin 8)
  /-- R446. START begins a housekeeping pass, or pends one. -/
  | hkStart (q : Req)
  /-- R448. STOP abandons or finishes the conversion in progress and enters IDLE. -/
  | hkStop (q : Req)
  /-- R447. URGENT abandons the conversion in progress and converts the urgent entry. -/
  | hkUrgent (q : Req)
  /-- R437. An amplifier overload during integration restarts the conversion at a lower range. -/
  | hkRangeRestart
  /-- R439. An integration ends, the result is formed and written, and the sequencer moves on. -/
  | hkConversionEnd (x1 x2 : Int) (refLow clkfb : Bool)
  /-- R441. The spare slice's calibration passes or fails. -/
  | hkCalDone (raw : List (Int × Int))
  /-- R450. A host read of HK_RESULT marks the result read. -/
  | hkResultRead (q : Req)
  /-- R459. A received Cufel message is checked, relayed, answered as a repeat, refused, or queued for execution. -/
  | cufelReceive (p : Path)
  /-- R465. READ returns one object's value; an RC object clears in the same access. -/
  | read (q : Req) (body : List Byte)
  /-- R491. A WRITE of an object without a row of its own is checked and takes effect by its class. -/
  | writeObject (q : Req) (body : List Byte)
  /-- R468. A block-read segment opens a snapshot or returns bytes from it. -/
  | readBlock (q : Req) (body : List Byte) (u : List Upset)
  /-- R468. A block-write segment is appended, and at LAST the object is written whole. -/
  | writeBlock (q : Req) (body : List Byte) (u : List Upset) (patch : Option (BitVec 16)) (e : StoreEnd)
  /-- R504. The stored set is written to the bank not in force and committed. -/
  | store (q : Req) (u : List Upset) (e : StoreEnd)
  /-- R509. SCOPE 0x01 writes defaults into every stored object. -/
  | restoreDefaultsValues (q : Req)
  /-- R509. SCOPE 0x02 stores an empty image, so the next boot loads defaults. -/
  | restoreDefaultsImage (q : Req) (u : List Upset) (e : StoreEnd)
  /-- R509. SCOPE 0x03 does 0x01 and then 0x02. -/
  | restoreDefaultsBoth (q : Req) (u : List Upset) (e : StoreEnd)
  /-- R492. APPLY captures the pending SHADOW values for the next turn marker at least 2 ticks away. -/
  | apply (q : Req)
  /-- R470. A host HEARTBEAT is answered with the device heartbeat body. -/
  | heartbeatRequest (q : Req)
  /-- R470. Every CF_HB_PER the device sends a HEARTBEAT. -/
  | heartbeatSend
  /-- R471. A queued EVENT is sent on the selected path once it can take it. -/
  | eventSend
  /-- R466. A read of CF_CHALLENGE issues a new challenge to the reading source. -/
  | cfChallengeRead (q : Req)
  /-- R466. An unlock write opens an expert session or is refused. -/
  | cfUnlockWrite (q : Req) (v : BitVec 16) (inTime : Bool)
  /-- R466. A write to CF_LOCK ends the writer's session. -/
  | cfLockWrite (q : Req) (v : BitVec 8)
  /-- R466. An expert session idle for CF_EXPERT_TO ends. -/
  | sessionTimeout (p : Path) (src : BitVec 16)
  /-- R466. The 10 s unlock lock-out on a path ends. -/
  | lockoutExpire (p : Path)
  /-- R468. A block transfer idle for CF_BLK_TO closes. -/
  | blockTransferTimeout (p : Path) (src : BitVec 16)
  /-- R458. A cluster-id write takes effect at the next tick, and is refused in a leaf. -/
  | cfClusterIdWrite (q : Req) (v : BitVec 16)
  /-- R478. A received CAN FD Cufel frame is reassembled into a message. -/
  | canFrameReceive (kind : CanKind) (id : BitVec 29) (data : List Byte) (agree : Bool)
  /-- R478. A reassembly waiting 100 ms is discarded. -/
  | canReassemblyTimeout (node : BitVec 6)
  /-- R480. A keeper claim is received and the keeper state machine reacts. -/
  | canClaimReceive (node : BitVec 6) (serial : BitVec 64) (agree : Bool)
  /-- R480. A keeper heartbeat is received and the port becomes or stays MEMBER, or claims. -/
  | canKeeperHbReceive (node : BitVec 6) (serial : BitVec 64) (up : BitVec 32) (agree : Bool)
  /-- R479. A beacon's MS and its receipt crossing are recorded. -/
  | canBeaconReceive (node : BitVec 6) (ms : BitVec 48) (srct : BitVec 8) (agree : Bool)
  /-- R480. No keeper heard for CAN_KEEPER_TO starts a claim or makes the node a member. -/
  | canKeeperTimeout
  /-- R480. The node's claim is sent without error. -/
  | canClaimSent
  /-- R480. 5 ms after its claim with no lower node heard, the node becomes keeper. -/
  | canClaimWaitExpire
  /-- R480. An error during the node's claim counts a collision, and the third one causes a backoff. -/
  | canClaimCollision
  /-- R480. The serial-derived backoff ends and the node claims or becomes a member. -/
  | canBackoffExpire
  /-- R479. The keeper sends its heartbeat every CAN_HB_PER. -/
  | canKeeperHbSend
  /-- R479. The keeper sends its beacon every CAN_BEACON_PER. -/
  | canBeaconSend
  /-- R474. Fault confinement puts the port into bus-off. -/
  | canBusOff
  /-- R474. After 128 occurrences of 11 recessive bits the port recovers from bus-off. -/
  | canBusOffRecovery
  /-- R480. CAN_ENABLE takes the port to OFF or starts LISTEN. -/
  | canEnableWrite (q : Req) (v : BitVec 8)
  /-- R511. Daily and at boot, the bank in force is read at reduced margin. -/
  | nvMarginCheck (weak : Bool) (u : List Upset) (e : StoreEnd)
  /-- R510. A written configuration image is checked and stored for the next reset. -/
  | nvImageWrite (q : Req) (image : List Byte) (u : List Upset) (e : StoreEnd)
  /-- R512. A firmware patch image is checked and committed for the next reset. -/
  | nvPatchWrite (q : Req) (image : List Byte) (u : List Upset) (e : PatchEnd)
  /-- R515. A feed at or above 1.70 V for 10 µs becomes good, which starts a boot from Off. -/
  | feedGood (f : Feed) (vkeep : Bool)
  /-- R516. A feed below 1.62 V for 0.5 µs is lost and the device changes feed. -/
  | feedLost (f : FeedLoss)
  /-- R516. Feed A good for 10 ms makes the device return to it from feed B. -/
  | feedReturn
  /-- R520. A rail below its undervoltage level for 1 µs resets the device with cause RAIL_UV. -/
  | railUndervoltage
  /-- R527. RST_N held low for 1 µs resets the device. -/
  | rstNAssert
  /-- R527. The rising edge of RST_N starts the boot. -/
  | rstNRelease
  /-- R531. A boot runs its steps from rails to calibration. -/
  | bootStart (b : BootStep) (us : BitVec 32)
  /-- R533. At the data-ready tick the buffer, assembler, channels and builders start and data service begins. -/
  | dataReady (us : BitVec 32)
  /-- R523. PARK disables the channels and stops the assembler, which then drains towards Parked. -/
  | park (q : Req) (key : BitVec 16) (arg : BitVec 32)
  /-- R523. Once drained, the device enters Parked with ranks in self-refresh and nodes gated. -/
  | parkComplete
  /-- R523. PWR_PARK_TO passes and Parked is entered regardless, dropping queued queries. -/
  | parkTimeout
  /-- R524. UNPARK ungates, relocks and verifies, leading to a new data-ready tick. -/
  | unpark (q : Req) (key : BitVec 16) (arg : BitVec 32)
  /-- R536. REINIT re-initialises one function. -/
  | reinit (q : Req) (func : BitVec 8) (key : BitVec 16) (arg : BitVec 32)
  /-- R535. CLEAR sets a function's REC_STATUS to 0. -/
  | recClear (q : Req) (func cmd : BitVec 8) (key : BitVec 16) (arg : BitVec 32)
  /-- R535. The keyed RESET command is accepted and its response is sent. -/
  | resetCommand (q : Req) (key : BitVec 16) (arg : BitVec 32) (inTime : Bool)
  /-- R528. The commanded reset takes effect after its response is acknowledged or after 1 ms. -/
  | commandResetEffect
  /-- R535. The keyed command restarts the supervisor from ROM after the response. -/
  | supvRestartCmd (q : Req) (key : BitVec 16) (arg : BitVec 32) (inTime : Bool)
  /-- R539. PCYC_REQ_N is asserted with cause HOST. -/
  | pcycRequest (q : Req) (key : BitVec 16) (arg : BitVec 32) (inTime : Bool)
  /-- R539. PCYC_REQ_N is released. -/
  | pcycClear (q : Req) (key : BitVec 16) (arg : BitVec 32)
  /-- R529. A supervisor trap restarts it from ROM while the data path continues. -/
  | supervisorTrap (ue : Option (Bool × BitVec 23))
  /-- R529. Expiry of the supervisor watchdog restarts the supervisor from ROM. -/
  | watchdogExpire
  /-- R529. The supervisor restart completes and Cufel service resumes. -/
  | supvRestartDone
  /-- R537. A function's fault condition climbs the recovery ladder by one step. -/
  | functionFault (f : Fin 10) (c : Ch)
  /-- R537. A function fault-free for REC_QUIET has its retry and reinit counts cleared. -/
  | recQuietExpire (f : Fin 10)
  /-- R537. REC_RESET_WIN in Run without a ladder reset clears RST_LADDER. -/
  | ladderWindowExpire
  /-- R530. Every 1 ms the strap balls are compared with the sampled values. -/
  | strapCheck (straps : BitVec 9)
  /-- R551. FLT_CLEAR clears the inactive latched conditions and possibly FLT_FIRST. -/
  | fltClearWrite (q : Req) (v : BitVec 8)
  /-- R546. Every 10 ms the voted configuration is compared with the supervisor copy and restored. -/
  | tmrCompare
  /-- R554. A staged event is written to the event log ring, with folding. -/
  | logEntryWrite
  /-- R554. The host acknowledges log entries up to an LSEQ. -/
  | fltLogAckWrite (q : Req) (v : BitVec 16)
  /-- R554. An expert write zeroes the event log. -/
  | fltLogZero (q : Req)
  /-- R558. Every 24 powered hours an HOURS lifetime record is written. -/
  | lifetimeHours
  /-- R559. A rising FREEZE ball freezes the device within 2 core cycles. -/
  | freezePinRise
  /-- R559. A falling FREEZE ball releases its freeze source. -/
  | freezePinFall (us : BitVec 32)
  /-- R559. An expert freeze command is accepted and takes hold after its response. -/
  | frzCtrlFreeze (q : Req) (v : BitVec 8)
  /-- R559. The Cufel freeze takes hold once its response has been acknowledged or after 1 ms. -/
  | freezeTakeHold
  /-- R562. The EXTEST instruction drives the boundary register. -/
  | tapExtest (pins b : BitVec 129)
  /-- R562. The SAMPLE/PRELOAD instruction selects the boundary register. -/
  | tapSamplePreload (pins b : BitVec 129)
  /-- R563. The IDCODE instruction selects the identification register. -/
  | tapIdcode
  /-- R303. The IEEE 1149.6 EXTEST_PULSE instruction tests the lane pins. -/
  | tapExtestPulse (pins b : BitVec 129)
  /-- R303. The IEEE 1149.6 EXTEST_TRAIN instruction tests the lane pins. -/
  | tapExtestTrain (pins b : BitVec 129)
  /-- R565. The STATUS instruction selects the status register. -/
  | tapStatus
  /-- R559. FREEZE_I freezes the device at Update-IR. -/
  | tapFreezeI
  /-- R570. THAW releases the TAP and Cufel freeze sources. -/
  | tapThaw (us : BitVec 32)
  /-- R566. CAST circulates the frozen cast chain out on TDO. -/
  | tapCast (shifts : BitVec 32)
  /-- R568. CAST_CRC returns the CRC and bit count of the cast read-out. -/
  | tapCastCrc
  /-- R569. CAST_MEM reads one scratchpad or firmware RAM word while frozen. -/
  | tapCastMem (fw : Bool) (addr : BitVec 20) (u : List Upset)
  /-- R562. BYPASS, and every unassigned or locked code, selects the 1-bit bypass register. -/
  | tapBypass (ir : BitVec 8)
  /-- R525. TRST_N resets the TAP alone. -/
  | trstNAssert
  /-- R291. A receiver's DLL relocks or its forwarded clock returns, so LOL clears and a receiver in WAIT may go on to SCAN once LOS is also clear. -/
  | lossOfLockClear (i : Lane) (synth : Option (Fin 2))
  /-- R54. The energy discriminator's input falls below V_THR − V_HYST and the discriminator goes from High to Low. -/
  | energyFall (ch : Ch)
  /-- R55. A discriminator in Unknown sees its input leave the hysteresis band, downwards to Low or (for the energy discriminator) upwards to High, without recording an edge. -/
  | unknownStateExit (ch : Ch) (which : Which) (up : Bool)
  /-- R518. VKEEP goes away while both feeds are lost, so the plinth loses its contents and the next boot starts as POWER_ON_NOKEEP. -/
  | vkeepLost
  /-- R283. A lane's dual-clock receive buffer overflows or underflows, and the device takes the lane out of alignment and counts a loss of alignment. -/
  | receiveBufferOverflow (i : Lane)
  /-- R545. A particle upsets one protected storage element; for example, a disagreeing voted copy is rewritten in the next core cycle, or a query whose state parity fails returns to INDEX. -/
  | storageUpset (u : Struck)
  deriving DecidableEq, Repr

end Sys2Proof
end

