-- ==== Sys2Proof/Machine/Bits.lean ====
section
/-! DEFINITION. Bit fields, sign extension and byte order (R13, R14, R488). -/
namespace Sys2Proof.Machine

/-- name[hi:lo] of R13. -/
def bits (v hi lo : Nat) : Nat := (v >>> lo) % 2 ^ (hi + 1 - lo)

/-- Bit n of a word. -/
def bit (v n : Nat) : Bool := v.testBit n

/-- A flag as a number. -/
def b2n (b : Bool) : Nat := if b then 1 else 0

/-- The word with bit n set to b. -/
def setBit (v n : Nat) (b : Bool) : Nat :=
  if v.testBit n = b then v else v ^^^ 2 ^ n

/-- The word with field [hi:lo] replaced. -/
def setBits (v hi lo x : Nat) : Nat :=
  v - bits v hi lo * 2 ^ lo + (x % 2 ^ (hi + 1 - lo)) * 2 ^ lo

/-- Two's complement value of the low w bits (R488). -/
def toSigned (w v : Nat) : Int :=
  if v % 2 ^ w < 2 ^ (w - 1) then ((v % 2 ^ w : Nat) : Int) else ((v % 2 ^ w : Nat) : Int) - (2 ^ w : Nat)

/-- The w-bit two's complement word of an integer. -/
def ofSigned (w : Nat) (i : Int) : Nat := (i % ((2 ^ w : Nat) : Int)).toNat

/-- The n low bytes of a value, least significant first (R14). -/
def bytesLE : Nat → Nat → List Byte
  | 0, _ => []
  | n + 1, v => BitVec.ofNat 8 v :: bytesLE n (v / 256)

/-- The value of a byte string, least significant byte first (R14). -/
def fromLE : List Byte → Nat
  | [] => 0
  | b :: r => b.toNat + 256 * fromLE r

/-- A value clipped to at most m. -/
def clip (m v : Nat) : Nat := if v > m then m else v

/-- Saturating increment of an n-bit counter. -/
def satAdd (n v d : Nat) : Nat := clip (2 ^ n - 1) (v + d)

/-- The nearest signed value of w bits. -/
def clipSigned (w : Nat) (i : Int) : Int :=
  if i > (2 ^ (w - 1) : Nat) - 1 then (2 ^ (w - 1) : Nat) - 1
  else if i < -((2 ^ (w - 1) : Nat) : Int) then -((2 ^ (w - 1) : Nat) : Int) else i

/-- ceil(a / b). -/
def ceilDiv (a b : Nat) : Nat := (a + b - 1) / b

/-- The number of one bits among the low n bits. -/
def popcount : Nat → Nat → Nat
  | 0, _ => 0
  | n + 1, v => v % 2 + popcount n (v / 2)

/-- The numbers below n whose bit is set, ascending. -/
def bitList (n v : Nat) : List Nat := (List.range n).filter fun i => bit v i

/-- Exclusive or of two byte strings, the shorter one ending the result. -/
def xorBytes : List Byte → List Byte → List Byte
  | a :: r, b :: q => (a ^^^ b) :: xorBytes r q
  | _, _ => []

/-- A list padded at its end to a multiple of n. -/
def padTo (n : Nat) (l : List Byte) : List Byte :=
  l ++ List.replicate (ceilDiv l.length n * n - l.length) 0

/-- The list with its i-th entry replaced. -/
def setAt {α : Type} (l : List α) (i : Nat) (x : α) : List α := l.set i x

/-- A number put at its place in an ascending list. -/
def putAsc (n : Nat) : List Nat → List Nat
  | [] => [n]
  | m :: r => if n ≤ m then n :: m :: r else m :: putAsc n r

/-- A list in ascending order. -/
def ascending (l : List Nat) : List Nat := l.foldr putAsc []

end Sys2Proof.Machine
end

