-- ==== Sys2Proof/Machine/Operands.lean ====
section
/-! DEFINITION. What the commands' operands stand for: numbers as indexes of ranks, ports, lanes, contexts and channels, the
link of a lane, the bit of a feed, and an object's key in a message. -/
namespace Sys2Proof.Machine

/-- A rank number as an index. -/
def rankFin (r : Nat) : Fin 3 := ⟨r % 3, Nat.mod_lt _ (by decide)⟩

/-- A port or link number as an index. -/
def portFin (k : Nat) : Fin 8 := ⟨k % 8, Nat.mod_lt _ (by decide)⟩

/-- A lane number as an index. -/
def laneFin (i : Nat) : Fin 25 := ⟨i % 25, Nat.mod_lt _ (by decide)⟩

/-- A context number as an index. -/
def ctxFin (n : Nat) : Fin 16 := ⟨n % 16, Nat.mod_lt _ (by decide)⟩

/-- Channel i of group g. -/
def chanOf (g : Grp) (i : Nat) : Ch := ⟨16 * g.val + i % 16, by omega⟩

/-- Lane i is a receiving lane (R277). -/
def isRx (i : Nat) : Bool := decide (8 ≤ i) && decide (i ≤ 16)

/-- A link of the hub's south side. -/
def southLink : LinkId → Bool
  | .south _ => true | _ => false

/-- The link that a receiving lane serves. -/
def laneLink (i : Nat) : LinkId := if i = 8 then .north else .south (portFin (i - 9))

/-- The bit of a feed in PWR_FEEDS and PWR_SUPPLY_EVT. -/
def feedBit : Feed → Nat
  | .a => 0 | .b => 1

/-- INDEX and SUB of a key (R464). -/
def keyBytes (k : Nat) : List Byte := bytesLE 2 (k / 256) ++ bytesLE 1 (k % 256)

/-- INDEX and SUB of a body as a key; bytes that are missing count as zero. -/
def bodyKey (b : List Byte) : Nat := fromLE (b.take 2) * 256 + (b.getD 2 0).toNat

end Sys2Proof.Machine
end

