-- ==== Sys2Proof/Config.lean ====
section
/-! DEFINITION. What one part fixes (fuses, trim, firmware) and the values the spec leaves open: constants without a
body, so that no proof can lean on a value of theirs. -/
namespace Sys2Proof.Config

/-- A value that the spec leaves open, by the count of the values drawn before it. -/
opaque freeValue : Nat → Nat

/-- CF_SERIAL, from the fuse map (R484). -/
opaque serial : BitVec 64

/-- CF_SCREEN, from the fuse map (R484): 0 SLF128-A0, 1 SLF128-AQ. -/
opaque screenAQ : Bool

/-- The count E_P held in the fuse map (R398). -/
opaque fuseIntosc : Nat

/-- The south port of the hub that a leaf is wired to (R29); taken modulo 8. -/
opaque leafPort : Nat

/-- A bit of the cast chain beyond its header, by the freeze that holds it and its place (R567). -/
opaque castBit : Nat → Nat → Bool

/-- A word that CAST_MEM reads where the spec gives no content: the supervisor's own data and the ranges whose layouts it leaves
open, by the freeze that holds it, the memory (true for the firmware RAM), its loads so far, and the word address (R41, R569). -/
opaque castWord : Nat → Bool → Nat → Nat → BitVec 64

end Sys2Proof.Config
end

