-- ==== Sys2Proof/Machine/Sparse.lean ====
section
/-! DEFINITION. Sparse maps in one canonical form: addresses strictly rising and no entry equal to what an unlisted
address reads as. The memories and the object store are such lists. -/
namespace Sys2Proof.Machine

variable {α : Type}

/-- What address a reads as; an unlisted address reads as d. -/
def sget (d : α) : List (Nat × α) → Nat → α
  | [], _ => d
  | (k, v) :: r, a => if k = a then v else sget d r a

/-- An entry put at its place: before the first greater address, in place of one of the same address. -/
def sput : List (Nat × α) → Nat → α → List (Nat × α)
  | [], a, v => [(a, v)]
  | (k, w) :: r, a, v =>
    if a < k then (a, v) :: (k, w) :: r
    else if a = k then (a, v) :: r
    else (k, w) :: sput r a v

/-- The map with address a holding v; a value equal to d removes the entry. -/
def sset [DecidableEq α] (d : α) (m : List (Nat × α)) (a : Nat) (v : α) : List (Nat × α) :=
  if v = d then m.filter fun e => e.1 != a else sput m a v

/-- The addresses rise strictly from above lo. -/
def risesFrom : Option Nat → List (Nat × α) → Bool
  | _, [] => true
  | none, (k, _) :: r => risesFrom (some k) r
  | some l, (k, _) :: r => decide (l < k) && risesFrom (some k) r

/-- The canonical form, for a map whose unlisted address a reads as d a. -/
def canonical [DecidableEq α] (d : Nat → α) (m : List (Nat × α)) : Bool :=
  risesFrom none m && m.all fun e => decide (e.2 ≠ d e.1)

/-- A byte memory: an unlisted byte reads 0 (R45, R387: start-up fills every memory with zeros). -/
abbrev Memory := List (Nat × BitVec 8)

/-- The canonical form of a byte memory. -/
def Memory.wf (m : Memory) : Bool := canonical (fun _ => (0 : BitVec 8)) m

/-- One byte. -/
def memGet (m : Memory) (a : Nat) : Byte := sget 0 m a

/-- One byte written. -/
def memSet (m : Memory) (a : Nat) (b : Byte) : Memory := sset 0 m a b

/-- n bytes from address a. -/
def memRead (m : Memory) (a : Nat) : Nat → List Byte
  | 0 => []
  | n + 1 => memGet m a :: memRead m (a + 1) n

/-- A byte string written from address a upwards. -/
def memWrite (m : Memory) (a : Nat) : List Byte → Memory
  | [] => m
  | b :: r => memWrite (memSet m a b) (a + 1) r

/-- Every byte of [a, a + n) set to zero. -/
def memZero (m : Memory) (a n : Nat) : Memory := m.filter fun e => !(decide (a ≤ e.1) && decide (e.1 < a + n))

/-- The n-byte word at a, least significant byte first (R14). -/
def memWord (m : Memory) (a n : Nat) : Nat := fromLE (memRead m a n)

/-- An n-byte word written at a (R14). -/
def memPutWord (m : Memory) (a n v : Nat) : Memory := memWrite m a (bytesLE n v)

end Sys2Proof.Machine
end

