-- ==== Sys2Proof/Machine/Objects.lean ====
section
/-! DEFINITION. The object dictionary's tables (R17, R83, R85, R118, R120, R148, R149, R174, R212, R247, R248,
R276, R306, R307, R347 to R349, R389 to R391, R424 to R427, R453, R484 to R487, R514, R541, R542, R573, R574):
the key of every object, and one row per table line with its type, access, class, default, range, level and
whether STORE saves it. Keys are index * 256 + subindex. -/
namespace Sys2Proof.Machine

/-- The value types of R17. -/
inductive OType where
  | bool | u8 | u16 | u32 | u48 | u64 | i16 | i32 | q16 | q32 | bits128 | str | domain
  deriving DecidableEq, Repr

/-- The access codes of R17. -/
inductive Acc where
  | ro | rw | wo | rc | cst
  deriving DecidableEq, Repr

/-- The change classes of R17; `const` is the dash of a CST row. -/
inductive Cls where
  | live | shadow | halt | const
  deriving DecidableEq, Repr

/-- One line of an object table: it covers `count` consecutive indexes and `subs` consecutive subindexes. -/
structure ObjDesc where
  index : Nat
  count : Nat
  sub : Nat
  subs : Nat
  type : OType
  acc : Acc
  cls : Cls
  dflt : Nat
  lo : Int
  hi : Int
  expert : Bool
  stored : Bool
  deriving DecidableEq, Repr

/-- Bits of a value of the type (R465, R488); 0 for STR and DOMAIN. -/
def OType.width : OType → Nat
  | .bool => 8 | .u8 => 8 | .u16 => 16 | .u32 => 32 | .u48 => 48 | .u64 => 64 | .i16 => 16 | .i32 => 32
  | .q16 => 32 | .q32 => 64 | .bits128 => 128 | .str => 0 | .domain => 0

/-- TCODE of R465. -/
def OType.tcode : OType → Nat
  | .bool => 1 | .u8 => 2 | .u16 => 3 | .u32 => 4 | .u48 => 5 | .u64 => 6 | .i16 => 7 | .i32 => 8
  | .q16 => 9 | .q32 => 10 | .bits128 => 11 | .str => 12 | .domain => 13

/-- Bytes of a value of the type (R465). -/
def OType.bytes (t : OType) : Nat := t.width / 8

/-- The signed types. -/
def OType.signed : OType → Bool
  | .i16 => true | .i32 => true | _ => false

/-- The dictionary key of an index and a subindex. -/
def objKey (index sub : Nat) : Nat := index * 256 + sub

namespace Obj

/-- R83: EN, FASTOR, DATA as in R58 -/
def FE_ENABLE (ch : Nat) : Nat := objKey (0x2000 + ch) 0x01
/-- R83: timing threshold, 0.5 mV per code, codes 0 to 1,023; default 40.0 mV -/
def FE_THR_T (ch : Nat) : Nat := objKey (0x2000 + ch) 0x02
/-- R83: energy threshold, 4.0 mV per code; default 200 mV -/
def FE_THR_E (ch : Nat) : Nat := objKey (0x2000 + ch) 0x03
/-- R83: hysteresis 0.5 mV + 1.0 mV per code, codes 0 to 15; default 2.5 mV -/
def FE_HYST (ch : Nat) : Nat := objKey (0x2000 + ch) 0x04
/-- R83: input node level, 1.0 V / 255 per code -/
def FE_DCTRIM (ch : Nat) : Nat := objKey (0x2000 + ch) 0x05
/-- R83: GAIN and SHAPE as in R51; running while EN = 1 -/
def FE_GAIN (ch : Nat) : Nat := objKey (0x2000 + ch) 0x06
/-- R83: test-pulse arm and amplitude as below -/
def FE_TPULSE (ch : Nat) : Nat := objKey (0x2000 + ch) 0x07
/-- R85: injection instant in T_BIN after the target tick, 0 to 4,095; stepped after each fire -/
def FE_TP_PHASE : Nat := objKey 0x2200 0x01
/-- R85: added to FE_TP_PHASE after each fire, modulo 4,096; −4,095 to +4,095 -/
def FE_TP_STEP : Nat := objKey 0x2200 0x02
/-- R85: fires since reset; saturates -/
def FE_TP_FIRED : Nat := objKey 0x2200 0x03
/-- R85: crossing started by the tick of the last fire, under the numbering in force at that tick (R66) -/
def FE_TP_LASTX : Nat := objKey 0x2200 0x04
/-- R85: TPULSE commands dropped as duplicates of a target; saturates -/
def FE_TP_DUP : Nat := objKey 0x2200 0x05
/-- R85: probed channel 0 to 127; 0xFF open -/
def PRB_CH : Nat := objKey 0x2210 0x01
/-- R85: 0 LEVEL, 1 TPULSE, 2 FORCED -/
def PRB_MODE : Nat := objKey 0x2210 0x02
/-- R85: trigger level, sample code 0 to 1,023; default 64 mV -/
def PRB_LEVEL : Nat := objKey 0x2210 0x03
/-- R85: trigger hysteresis, 0 to 63 codes -/
def PRB_HYST : Nat := objKey 0x2210 0x04
/-- R85: 0 rising, 1 falling -/
def PRB_SLOPE : Nat := objKey 0x2210 0x05
/-- R85: pre-trigger samples, 1 to 8,191 -/
def PRB_PRE : Nat := objKey 0x2210 0x06
/-- R85: 0x01 ARM, 0x02 ABORT -/
def PRB_CTRL : Nat := objKey 0x2210 0x07
/-- R85: capture state as in R79 -/
def PRB_STATE : Nat := objKey 0x2210 0x08
/-- R85: crossing of the trigger position -/
def PRB_TCROSS : Nat := objKey 0x2210 0x09
/-- R85: trigger position after that tick, in 2 T_BIN, 0 to 2,047 -/
def PRB_TPOS : Nat := objKey 0x2210 0x0A
/-- R85: 8,192 words as in R77; readable in READY only -/
def PRB_DATA : Nat := objKey 0x2210 0x0B
/-- R85: 1: PRB_DATA is read through the fixed-ratio coder -/
def PRB_CODED : Nat := objKey 0x2210 0x0C
/-- R85: captures that reached READY since reset; saturates -/
def PRB_CAPTURES : Nat := objKey 0x2210 0x0D
/-- R85: bit n: channel n input overloaded now, as in R48 -/
def FE_OVL : Nat := objKey 0x2220 0x01
/-- R85: bit n: channel n overloaded at any time since last read -/
def FE_OVL_SEEN : Nat := objKey 0x2220 0x02
/-- R118: [15] DISCARD: 1 discard narrow hits; [14:8] reserved; [7:0] WIDTH 5 to 128, units of 8 T_BIN -/
def TDC_MINW (ch : Nat) : Nat := objKey (0x2000 + ch) 0x08
/-- R118: generation of the LUT in force; 1 after boot -/
def TDC_LUTGEN (ch : Nat) : Nat := objKey (0x2000 + ch) 0x09
/-- R118: hits passed to the chain, modulo 2^48 -/
def CH_HITS (ch : Nat) : Nat := objKey (0x2000 + ch) 0x0A
/-- R118: narrow hits, passed or discarded -/
def CH_NARROW (ch : Nat) : Nat := objKey (0x2000 + ch) 0x0B
/-- R118: orphan stops -/
def CH_ORPHAN (ch : Nat) : Nat := objKey (0x2000 + ch) 0x0C
/-- R118: prescaled count of the last completed gate -/
def CH_RATE (ch : Nat) : Nat := objKey (0x2000 + ch) 0x0D
/-- R118: calibration and line status as below -/
def CH_STATUS (ch : Nat) : Nat := objKey (0x2000 + ch) 0x0E
/-- R120: 160 bytes, byte p = LUT[p]; expert write as in R110 -/
def TDC_LUT (ch : Nat) : Nat := objKey (0x2100 + ch) 0x01
/-- R120: 0 OFF, 1 BOOTCAL, 2 RUN, 3 HELD -/
def TDC_STATE : Nat := objKey 0x2800 0x01
/-- R120: line overruns, all channels; saturates -/
def TDC_OVERRUN : Nat := objKey 0x2800 0x02
/-- R120: hits in progress discarded at CKIN failure; saturates -/
def TDC_HOLDLOST : Nat := objKey 0x2800 0x03
/-- R120: least TAPS over all channels -/
def TDC_TAPS_MIN : Nat := objKey 0x2800 0x04
/-- R120: greatest TAPS over all channels -/
def TDC_TAPS_MAX : Nat := objKey 0x2800 0x05
/-- R120: bit n: background calibration of channel n -/
def TDC_CAL_ENABLE : Nat := objKey 0x2810 0x01
/-- R120: 0 AUTO, 1 DARK, 2 RANDOM; other codes refused -/
def TDC_CAL_SRC : Nat := objKey 0x2810 0x02
/-- R120: bit k: starts in coarse period k qualify; expert; 0 refused -/
def TDC_CAL_CMASK : Nat := objKey 0x2810 0x03
/-- R120: 1: starts with an energy edge do not qualify -/
def TDC_CAL_EXCLE : Nat := objKey 0x2810 0x04
/-- R120: crossings before AUTO adds the random source -/
def TDC_CAL_QUIET : Nat := objKey 0x2810 0x05
/-- R120: largest accepted entry shift, 1 to 127 bins; expert -/
def TDC_CAL_SHIFTLIM : Nat := objKey 0x2810 0x06
/-- R120: 0x01 RESTART, 0x02 ABORT -/
def TDC_CAL_CTRL : Nat := objKey 0x2810 0x07
/-- R120: BATCH of the newest history entry -/
def TDC_CAL_BATCHES : Nat := objKey 0x2810 0x08
/-- R120: rejected runs; saturates -/
def TDC_CAL_REJECT : Nat := objKey 0x2810 0x09
/-- R120: largest entry shift at the last swap, in bins -/
def TDC_CAL_MAXSHIFT : Nat := objKey 0x2810 0x0A
/-- R120: 1: publish each history entry as an EVENT -/
def TDC_LUT_EVT : Nat := objKey 0x2810 0x0B
/-- R120: 256 entries of 32 bytes as in R108 -/
def TDC_LUTHIST : Nat := objKey 0x2810 0x0C
/-- R120: 0 timing rises, 1 energy rises -/
def TDC_RM_SRC : Nat := objKey 0x2820 0x01
/-- R120: k, prescaler 2^k, 0 to 8 -/
def TDC_RM_PRESC : Nat := objKey 0x2820 0x02
/-- R120: gate length, 1 to 16,777,215 crossings -/
def TDC_RM_GATE : Nat := objKey 0x2820 0x03
/-- R120: 0x01 START, 0x02 STOP -/
def TDC_RM_CTRL : Nat := objKey 0x2820 0x04
/-- R120: 0 IDLE, 1 RUN -/
def TDC_RM_STATE : Nat := objKey 0x2820 0x05
/-- R120: completed gates since START; wraps -/
def TDC_RM_SEQ : Nat := objKey 0x2820 0x06
/-- R120: crossing at whose tick the last gate ended -/
def TDC_RM_LASTX : Nat := objKey 0x2820 0x07
/-- R148: 0x01 START, 0x02 STOP (R141) -/
def ASM_CTRL : Nat := objKey 0x2900 0x01
/-- R148: 0 IDLE, 1 RUN, 2 DRAINING, 3 HELD -/
def ASM_STATE : Nat := objKey 0x2900 0x02
/-- R148: window W, 8 to 32 crossings -/
def ASM_WINDOW : Nat := objKey 0x2900 0x03
/-- R148: slice cap, 16 to 64 records -/
def ASM_CAP : Nat := objKey 0x2900 0x04
/-- R148: ingest credit now -/
def ASM_CREDIT : Nat := objKey 0x2900 0x05
/-- R148: credit added per tick; 6 in maquette mode -/
def ASM_CREDIT_RATE : Nat := objKey 0x2900 0x06
/-- R148: credit limit; 1,536 in maquette mode -/
def ASM_CREDIT_DEPTH : Nat := objKey 0x2900 0x07
/-- R148: slices closed -/
def ASM_SLICES : Nat := objKey 0x2900 0x08
/-- R148: slices for which a loss record was formed at close, stored or spilled (R136) -/
def ASM_TRUNC : Nat := objKey 0x2900 0x09
/-- R148: crossing of the newest slice counted in ASM_TRUNC -/
def ASM_LOSSX : Nat := objKey 0x2900 0x0A
/-- R148: hits whose crossing had no slice -/
def ASM_NOSLICE : Nat := objKey 0x2900 0x0B
/-- R148: chain losses reported after their slice closed -/
def ASM_UNREC : Nat := objKey 0x2900 0x0C
/-- R148: write-combine bytes held -/
def ASM_WC_FILL : Nat := objKey 0x2900 0x0D
/-- R148: highest ASM_WC_FILL since read -/
def ASM_WC_PEAK : Nat := objKey 0x2900 0x0E
/-- R148: hits discarded by spills -/
def ASM_WC_SPILL : Nat := objKey 0x2900 0x0F
/-- R148: crossing of the newest spilled slice -/
def ASM_WC_SPILLX : Nat := objKey 0x2900 0x10
/-- R148: bit g: group g reached GRP_LEVEL since read -/
def GRP_LVL_FLAG : Nat := objKey 0x2900 0x11
/-- R148: 1: one EVENT when ASM_TRUNC leaves 0 -/
def ASM_LOSS_EVT : Nat := objKey 0x2900 0x12
/-- R148: hits of open slices discarded at a CKIN failure or a thaw, and chain, FIFO and collector entries lost at a CKIN failure (R138) -/
def ASM_OPEN_LOST : Nat := objKey 0x2900 0x13
/-- R148: watch level, 1 to 15 -/
def GRP_LEVEL (g : Nat) : Nat := objKey (0x2910 + g) 0x01
/-- R148: FIFO fill now, 0 to 16 -/
def GRP_FILL (g : Nat) : Nat := objKey (0x2910 + g) 0x02
/-- R148: highest fill since read -/
def GRP_PEAK (g : Nat) : Nat := objKey (0x2910 + g) 0x03
/-- R148: upward crossings of GRP_LEVEL -/
def GRP_LVL_CNT (g : Nat) : Nat := objKey (0x2910 + g) 0x04
/-- R148: hits stored in closed slices -/
def GRP_ACCEPTED (g : Nat) : Nat := objKey (0x2910 + g) 0x05
/-- R148: hits lost at chain inputs -/
def GRP_LOSS_CHAIN (g : Nat) : Nat := objKey (0x2910 + g) 0x06
/-- R148: hits lost to the slice cap -/
def GRP_LOSS_CAP (g : Nat) : Nat := objKey (0x2910 + g) 0x07
/-- R148: hits lost to the ingest budget -/
def GRP_LOSS_BUDGET (g : Nat) : Nat := objKey (0x2910 + g) 0x08
/-- R148: late hits -/
def GRP_LATE (g : Nat) : Nat := objKey (0x2910 + g) 0x09
/-- R148: TDC clock periods with the FIFO full -/
def GRP_FULLCYC (g : Nat) : Nat := objKey (0x2910 + g) 0x0A
/-- R149: 1: one TP word per crossing (R144) -/
def TP_ENABLE : Nat := objKey 0x2930 0x01
/-- R149: newest word formed, device or cluster, sent or not (R144) -/
def TP_LAST : Nat := objKey 0x2930 0x02
/-- R149: crossing of TP_LAST -/
def TP_LASTX : Nat := objKey 0x2930 0x03
/-- R149: words sent with OVF -/
def TP_OVF_CNT : Nat := objKey 0x2930 0x04
/-- R149: words dropped for want of an aligned lane -/
def TP_DROP : Nat := objKey 0x2930 0x05
/-- R174: latency L, 64 to 1,048,575 crossings (R156) -/
def LB_LATENCY : Nat := objKey 0x3000 0x01
/-- R174: 1: maquette mode selected (R168) -/
def LB_MAQ_SEL : Nat := objKey 0x3000 0x02
/-- R174: 1: one EVENT when LB_CAPLIM_SEEN changes from 0 to 1 -/
def LB_CAP_EVT : Nat := objKey 0x3000 0x03
/-- R174: 0 OFF, 1 DUAL, 2 MIGRATE, 3 SINGLE, 4 MAQUETTE, 5 HELD -/
def LB_STATE : Nat := objKey 0x3000 0x04
/-- R174: rank mapping as in R175 -/
def LB_RANKMAP : Nat := objKey 0x3000 0x05
/-- R174: effective latency L_eff -/
def LB_LEFF : Nat := objKey 0x3000 0x06
/-- R174: newest readable crossing -/
def LB_NEWEST : Nat := objKey 0x3000 0x07
/-- R174: live floor F -/
def LB_FLOOR : Nat := objKey 0x3000 0x08
/-- R174: capacity floor CF; 0 while it does not bind (R158) -/
def LB_CAPFLOOR : Nat := objKey 0x3000 0x09
/-- R174: crossings below it that are not expired answer lost -/
def LB_LOSTBELOW : Nat := objKey 0x3000 0x0A
/-- R174: LB_NEWEST − LB_FLOOR + 1 -/
def LB_SPAN : Nat := objKey 0x3000 0x0B
/-- R174: mean bytes per slice over the last 65,536 slices -/
def LB_BPC : Nat := objKey 0x3000 0x0C
/-- R174: write pointer, ring address X -/
def LB_WPTR : Nat := objKey 0x3000 0x0D
/-- R174: absolute write position B -/
def LB_WTOTAL : Nat := objKey 0x3000 0x0E
/-- R174: CF exceeded the age floor since read -/
def LB_CAPLIM_SEEN : Nat := objKey 0x3000 0x0F
/-- R174: expired verdicts caused by capacity -/
def LB_CAPEXP : Nat := objKey 0x3000 0x10
/-- R174: fetches discarded by the test after fetch (R160) -/
def LB_POSTCHK : Nat := objKey 0x3000 0x11
/-- R174: migration copy pointer -/
def LB_MIGPTR : Nat := objKey 0x3000 0x12
/-- R174: slices copied to S -/
def LB_MIG_COPIED : Nat := objKey 0x3000 0x13
/-- R174: slices marked LOST by the migration -/
def LB_MIG_LOST : Nat := objKey 0x3000 0x14
/-- R174: layout switches since reset; saturates -/
def LB_SWITCHES : Nat := objKey 0x3000 0x15
/-- R174: slices discarded from the write-combine buffer at switches -/
def LB_DISCARD : Nat := objKey 0x3000 0x16
/-- R174: lost verdicts from uncorrectable fetches -/
def LB_FETCH_UE : Nat := objKey 0x3000 0x17
/-- R212: BUSY above this fill, 1 to 255 (R192) -/
def QRY_BUSY_LEVEL : Nat := objKey 0x3100 0x01
/-- R212: thin entries from this fill, 2 to 256 (R191) -/
def QRY_THIN_LEVEL : Nat := objKey 0x3100 0x02
/-- R212: entries occupied now -/
def QRY_FILL : Nat := objKey 0x3100 0x03
/-- R212: highest fill since read -/
def QRY_PEAK : Nat := objKey 0x3100 0x04
/-- R212: queries admitted or refused -/
def QRY_RECEIVED : Nat := objKey 0x3100 0x05
/-- R212: answers handed to the builder -/
def QRY_ANSWERED : Nat := objKey 0x3100 0x06
/-- R212: answers of kind normal -/
def QRY_NORMAL : Nat := objKey 0x3100 0x07
/-- R212: answers of kind expired -/
def QRY_EXPIRED : Nat := objKey 0x3100 0x08
/-- R212: answers of kind lost -/
def QRY_LOST : Nat := objKey 0x3100 0x09
/-- R212: answers of kind thinned -/
def QRY_THINNED : Nat := objKey 0x3100 0x0A
/-- R212: answers of kind refused-full -/
def QRY_REFUSED : Nat := objKey 0x3100 0x0B
/-- R212: future anchors (R181) -/
def QRY_FUTURE : Nat := objKey 0x3100 0x0C
/-- R212: QIDs out of sequence (R179) -/
def QRY_QIDGAP : Nat := objKey 0x3100 0x0D
/-- R212: QID of the query most recently admitted or refused (R179) -/
def QRY_LASTQID : Nat := objKey 0x3100 0x0E
/-- R212: queries that waited for a crossing -/
def QRY_WAITS : Nat := objKey 0x3100 0x0F
/-- R212: longest time from receipt to hand-off, in core cycles, of the answer to a queue entry, normal or thin, that did not wait; refused-full answers are not measured -/
def QRY_SVC_MAX : Nat := objKey 0x3100 0x10
/-- R212: SPAN answers that reached HITLIM -/
def QRY_SPANCUT : Nat := objKey 0x3100 0x11
/-- R212: 1: EVENT when BUSY sets (R192) -/
def QRY_BUSY_EVT : Nat := objKey 0x3100 0x12
/-- R212: refused queries not yet answered -/
def QRY_REFPEND : Nat := objKey 0x3100 0x13
/-- R212: queries discarded while the cluster id is 0xFFF -/
def QRY_UNADDR : Nat := objKey 0x3100 0x14
/-- R212: queries beyond a saturated refusal run -/
def QRY_REFSAT : Nat := objKey 0x3100 0x15
/-- R212: region mask r at subindex r + 1; captured at receipt (R183) -/
def QRY_REGION (n : Nat) : Nat := objKey 0x3110 (0x01 + n)
/-- R212: free blocks now -/
def POOL_FREE : Nat := objKey 0x3120 0x01
/-- R212: fewest free blocks since read; a read resets it to the present POOL_FREE (R489) -/
def POOL_MIN : Nat := objKey 0x3120 0x02
/-- R212: transfers and releases refused to a non-owner -/
def POOL_FOREIGN : Nat := objKey 0x3120 0x03
/-- R212: releases of a free block -/
def POOL_DOUBLE : Nat := objKey 0x3120 0x04
/-- R212: allocations by the query engine that waited -/
def POOL_WAITS : Nat := objKey 0x3120 0x05
/-- R212: 256 owner codes as in R208 -/
def POOL_OWNERS : Nat := objKey 0x3120 0x06
/-- R212: blocks freed at supervisor restarts -/
def POOL_RECLAIM : Nat := objKey 0x3120 0x07
/-- R247: bit k: port k enabled (R213) -/
def HUB_PORT_EN : Nat := objKey 0x3400 0x01
/-- R247: 0 merge, 1 pass-through (R234) -/
def HUB_MODE : Nat := objKey 0x3400 0x02
/-- R247: merger timeout in ns, 5,000 to 1,000,000 (R223) -/
def HUB_TIMEOUT : Nat := objKey 0x3400 0x03
/-- R247: leaf TP deadline in ns, 100 to 310 (R237) -/
def HUB_TP_DEADLINE : Nat := objKey 0x3400 0x04
/-- R247: bit k: port k in UP -/
def HUB_PORT_UP : Nat := objKey 0x3400 0x05
/-- R247: cluster events released; modulo 2^48 -/
def HUB_CEVENTS : Nat := objKey 0x3400 0x06
/-- R247: cluster primitives sent with ABS -/
def HUB_TP_ABS : Nat := objKey 0x3400 0x07
/-- R247: position 0 closed by the timer -/
def HUB_OWNLATE : Nat := objKey 0x3400 0x08
/-- R247: port state (R214) -/
def HUB_PSTATE (k : Nat) : Nat := objKey (0x3410 + k) 0x01
/-- R247: 0 none, 1 SLF128, 2 SLF32 -/
def HUB_PKIND (k : Nat) : Nat := objKey (0x3410 + k) 0x02
/-- R247: absent sub-headers for the port, any reason -/
def HUB_ABSENT (k : Nat) : Nat := objKey (0x3410 + k) 0x03
/-- R247: positions closed by the timer -/
def HUB_TIMEOUTS (k : Nat) : Nat := objKey (0x3410 + k) 0x04
/-- R247: answers discarded as late (R221) -/
def HUB_LATE (k : Nat) : Nat := objKey (0x3410 + k) 0x05
/-- R247: positions closed as skipped -/
def HUB_SKIPPED (k : Nat) : Nat := objKey (0x3410 + k) 0x06
/-- R247: answers with a QID never forwarded -/
def HUB_QIDERR (k : Nat) : Nat := objKey (0x3410 + k) 0x07
/-- R247: answers discarded as malformed (R222) -/
def HUB_MALFORMED (k : Nat) : Nat := objKey (0x3410 + k) 0x08
/-- R247: leaf TP words missing, late or of the wrong crossing -/
def HUB_TP_LATE (k : Nat) : Nat := objKey (0x3410 + k) 0x09
/-- R247: pass-through lane, 0 none or 1 to 7 (R234) -/
def HUB_PT_LANE (k : Nat) : Nat := objKey (0x3410 + k) 0x0A
/-- R247: highest port buffer fill in bytes since read -/
def HUB_BUFPEAK (k : Nat) : Nat := objKey (0x3410 + k) 0x0B
/-- R247: entries into UP since reset; saturates -/
def HUB_LINKUPS (k : Nat) : Nat := objKey (0x3410 + k) 0x0C
/-- R248: 0 OFF, 1 LOCKSTEP, 2 SINGLE, 3 REJOIN -/
def BLD_STATE : Nat := objKey 0x3430 0x01
/-- R248: active unit, 0 or 1 -/
def BLD_ACTIVE : Nat := objKey 0x3430 0x02
/-- R248: state of unit 0 (R245) -/
def BLD_UNIT0 : Nat := objKey 0x3430 0x03
/-- R248: state of unit 1 (R245) -/
def BLD_UNIT1 : Nat := objKey 0x3430 0x04
/-- R248: mismatches with no check failed -/
def BLD_MISMATCH : Nat := objKey 0x3430 0x05
/-- R248: events marked SUSPECT -/
def BLD_SUSPECT : Nat := objKey 0x3430 0x06
/-- R248: switch-overs -/
def BLD_SWITCHES : Nat := objKey 0x3430 0x07
/-- R248: switch-overs forced by repeated mismatches -/
def BLD_FORCED : Nat := objKey 0x3430 0x08
/-- R248: check failures of unit 0 -/
def BLD_CHKFAIL0 : Nat := objKey 0x3430 0x09
/-- R248: check failures of unit 1 -/
def BLD_CHKFAIL1 : Nat := objKey 0x3430 0x0A
/-- R248: decisions with both units failing their checks -/
def BLD_BOTHFAIL : Nat := objKey 0x3430 0x0B
/-- R248: completed rejoins -/
def BLD_REJOINS : Nat := objKey 0x3430 0x0C
/-- R248: 0x01 SWITCH, 0x02 REJOIN, 0x03 DROP -/
def BLD_CTRL : Nat := objKey 0x3430 0x0D
/-- R248: take-outs since reset before a unit is retired, 1 to 255 -/
def BLD_RETIRE_LIMIT : Nat := objKey 0x3430 0x0E
/-- R248: crossing of the newest switch-over -/
def BLD_LASTX : Nat := objKey 0x3430 0x0F
/-- R276: 1: COMP queries are coded (R263) -/
def CMP_ENABLE : Nat := objKey 0x3800 0x01
/-- R276: 0 OFF, 1 IDLE, 2 BUSY -/
def CMP_STATE : Nat := objKey 0x3800 0x02
/-- R276: lossless jobs ended DONE; modulo 2^48 -/
def CMP_JOBS : Nat := objKey 0x3800 0x03
/-- R276: uncoded bytes consumed -/
def CMP_IN_BYTES : Nat := objKey 0x3800 0x04
/-- R276: coded bytes produced -/
def CMP_OUT_BYTES : Nat := objKey 0x3800 0x05
/-- R276: jobs ended OUTFULL -/
def CMP_STOPS : Nat := objKey 0x3800 0x06
/-- R276: resumes refused (R252) -/
def CMP_NOCTX : Nat := objKey 0x3800 0x07
/-- R276: bit n: context n holds a suspended stream -/
def CMP_CTXVALID : Nat := objKey 0x3800 0x08
/-- R276: context changes within one agent -/
def CMP_CTXSW : Nat := objKey 0x3800 0x09
/-- R276: fixed-ratio jobs -/
def CMP_FR_JOBS : Nat := objKey 0x3800 0x0A
/-- R276: largest waveform SHIFT since read -/
def CMP_FR_SHIFTMAX : Nat := objKey 0x3800 0x0B
/-- R276: COMP queries answered uncoded -/
def CMP_UNCODED : Nat := objKey 0x3800 0x0C
/-- R276: blocks coded in set s, at subindex s + 1 -/
def CMP_BLOCKS (n : Nat) : Nat := objKey 0x3810 (0x01 + n)
/-- R276: 128 × 32-bit rates of one gate (R268) -/
def CMP_RATEHIST : Nat := objKey 0x3820 0x01
/-- R276: TDC_RM_SEQ of that gate -/
def CMP_RATEHIST_SEQ : Nat := objKey 0x3820 0x02
/-- R276: 1: read through the count coder -/
def CMP_RATEHIST_CODED : Nat := objKey 0x3820 0x03
/-- R276: running value of instance i, at subindex i + 1 -/
def CHK_RUN (n : Nat) : Nat := objKey 0x3830 (0x01 + n)
/-- R276: repeats discarded -/
def CHK_ALIVE_REP : Nat := objKey 0x3840 0x01
/-- R276: counter gaps accepted -/
def CHK_ALIVE_GAP : Nat := objKey 0x3840 0x02
/-- R276: next north-path counter -/
def CHK_ALIVE_TXN : Nat := objKey 0x3840 0x03
/-- R276: next CAN counter -/
def CHK_ALIVE_TXC : Nat := objKey 0x3840 0x04
/-- R276: bit i: instance i failed its start-up test -/
def CHK_BIST : Nat := objKey 0x3840 0x05
/-- R276: test context, 4 to 15 -/
def CMP_TEST_CTX : Nat := objKey 0x3850 0x01
/-- R276: 1: the next write starts a new stream -/
def CMP_TEST_START : Nat := objKey 0x3850 0x02
/-- R276: write: uncoded section; read: coded output (R276) -/
def CMP_TEST : Nat := objKey 0x3850 0x03
/-- R276: coded bytes of the last write -/
def CMP_TEST_LEN : Nat := objKey 0x3850 0x04
/-- R306: [3] LPLL1 on, [2] LPLL0 on, [1] LPLL1 locked, [0] LPLL0 locked; [7:4] reserved -/
def LN_SYNTH : Nat := objKey 0x4000 0x01
/-- R306: highest bundle rate offered, rate code 0 to 3 (R280); code 0 is the highest -/
def LN_RATE_MAX : Nat := objKey 0x4000 0x02
/-- R306: state of bundle lanes outside the bundle: 1 L1, 2 L2 -/
def LN_UNUSED : Nat := objKey 0x4000 0x03
/-- R306: synthesiser losses of lock outside Hold -/
def LN_SYNTH_LOL : Nat := objKey 0x4000 0x04
/-- R307: 0 transmitting, 1 receiving -/
def LN_DIR (i : Nat) : Nat := objKey (0x4010 + i) 0x01
/-- R307: 0 L0, 1 L1, 2 L2 (R298) -/
def LN_PSTATE (i : Nat) : Nat := objKey (0x4010 + i) 0x02
/-- R307: 0 AUTO, 1 L1, 2 L2 (R299) -/
def LN_PCTRL (i : Nat) : Nat := objKey (0x4010 + i) 0x03
/-- R307: RX: R289; TX: 0 OFF, 1 IDLE, 2 SEND, 6 PRBS -/
def LN_ASTATE (i : Nat) : Nat := objKey (0x4010 + i) 0x04
/-- R307: rate code in force; 0xFF in L2 -/
def LN_RATE (i : Nat) : Nat := objKey (0x4010 + i) 0x05
/-- R307: as in R308 -/
def LN_STATUS (i : Nat) : Nat := objKey (0x4010 + i) 0x06
/-- R307: 1: data inverted (R294) -/
def LN_POLINV (i : Nat) : Nat := objKey (0x4010 + i) 0x07
/-- R307: TX: swing code, 0 to 15 -/
def LN_SWING (i : Nat) : Nat := objKey (0x4010 + i) 0x08
/-- R307: TX: pre-cursor, 0 to 7 -/
def LN_FFE_PRE (i : Nat) : Nat := objKey (0x4010 + i) 0x09
/-- R307: TX: post-cursor, 0 to 15 -/
def LN_FFE_POST (i : Nat) : Nat := objKey (0x4010 + i) 0x0A
/-- R307: RX: peaking code, 0 to 15 -/
def LN_CTLE (i : Nat) : Nat := objKey (0x4010 + i) 0x0B
/-- R307: RX: phase select, 0 to 15 -/
def LN_PHASE (i : Nat) : Nat := objKey (0x4010 + i) 0x0C
/-- R307: RX: tracking steps (R287) -/
def LN_TRK_STEPS (i : Nat) : Nat := objKey (0x4010 + i) 0x0D
/-- R307: RX: eye width of the last margin scan, phase steps -/
def LN_EYEW (i : Nat) : Nat := objKey (0x4010 + i) 0x0E
/-- R307: RX: 0x01 start margin scan -/
def LN_EYE_CTRL (i : Nat) : Nat := objKey (0x4010 + i) 0x0F
/-- R307: RX: invalid headers in LOCKED -/
def LN_SH_ERR (i : Nat) : Nat := objKey (0x4010 + i) 0x10
/-- R307: RX: losses of alignment -/
def LN_ALIGN_LOSS (i : Nat) : Nat := objKey (0x4010 + i) 0x11
/-- R307: RX: LOS assertions -/
def LN_LOS_CNT (i : Nat) : Nat := objKey (0x4010 + i) 0x12
/-- R307: LOL assertions -/
def LN_LOL_CNT (i : Nat) : Nat := objKey (0x4010 + i) 0x13
/-- R307: 0 blocks, 1 PRBS31 inverted, 2 PRBS31; expert (R301) -/
def LN_TEST (i : Nat) : Nat := objKey (0x4010 + i) 0x14
/-- R307: RX: PRBS bit errors in sync -/
def LN_PRBS_ERR (i : Nat) : Nat := objKey (0x4010 + i) 0x15
/-- R307: RX: PRBS bits compared -/
def LN_PRBS_BITS (i : Nat) : Nat := objKey (0x4010 + i) 0x16
/-- R307: RX: entries into LOCKED since reset; saturates -/
def LN_LOCKS (i : Nat) : Nat := objKey (0x4010 + i) 0x17
/-- R347: 0 DOWN, 1 CAPS, 2 RATE, 3 UP (R314) -/
def RG_LSTATE : Nat := objKey 0x4400 0x01
/-- R347: 0 none, 1 Ragil 1.2, 2 Ragil 2.0 -/
def RG_VERSION : Nat := objKey 0x4400 0x02
/-- R347: agreed FEAT, bits [3:0] as CAPS [25:22] -/
def RG_FEAT : Nat := objKey 0x4400 0x03
/-- R347: agreed bundle rate code -/
def RG_RATE : Nat := objKey 0x4400 0x04
/-- R347: bit j: N_TXj may join the bundle -/
def RG_BUNDLE_REQ : Nat := objKey 0x4400 0x05
/-- R347: lanes in service (R317) -/
def RG_LANEMAP : Nat := objKey 0x4400 0x06
/-- R347: window W, 64 to 1,024 frames -/
def RG_WINDOW : Nat := objKey 0x4400 0x07
/-- R347: ACK interval, 100 to 2,000 ns -/
def RG_ACK_INT : Nat := objKey 0x4400 0x08
/-- R347: NAK hold, 500 to 20,000 ns -/
def RG_NAK_HOLD : Nat := objKey 0x4400 0x09
/-- R347: replay timeout, 2,000 to 1,000,000 ns -/
def RG_REPLAY_TO : Nat := objKey 0x4400 0x0A
/-- R347: STATUS interval, 200 to 2,000 ns -/
def RG_STAT_INT : Nat := objKey 0x4400 0x0B
/-- R347: CAPS timeout, 100 to 100,000 µs -/
def RG_CAPS_TO : Nat := objKey 0x4400 0x0C
/-- R347: next SEQ to send -/
def RG_TX_NEXT : Nat := objKey 0x4400 0x0D
/-- R347: mark, oldest held frame -/
def RG_TX_MARK : Nat := objKey 0x4400 0x0E
/-- R347: frames held -/
def RG_TX_HELD : Nat := objKey 0x4400 0x0F
/-- R347: E on N_RX -/
def RG_RX_EXP : Nat := objKey 0x4400 0x10
/-- R347: frames sent for the first time; modulo 2^48 -/
def RG_FRAMES_TX : Nat := objKey 0x4400 0x11
/-- R347: frames accepted; modulo 2^48 -/
def RG_FRAMES_RX : Nat := objKey 0x4400 0x12
/-- R347: rewinds, all causes -/
def RG_REWINDS : Nat := objKey 0x4400 0x13
/-- R347: rewinds by replay timeout -/
def RG_TIMEOUTS : Nat := objKey 0x4400 0x14
/-- R347: NAKs sent -/
def RG_NAK_TX : Nat := objKey 0x4400 0x15
/-- R347: NAKs received -/
def RG_NAK_RX : Nat := objKey 0x4400 0x16
/-- R347: duplicate frames discarded -/
def RG_DUP_RX : Nat := objKey 0x4400 0x17
/-- R347: bad frames -/
def RG_CRC_ERR : Nat := objKey 0x4400 0x18
/-- R347: blocks discarded under R311 -/
def RG_BLK_ERR : Nat := objKey 0x4400 0x19
/-- R347: frames out of sequence -/
def RG_SEQ_ERR : Nat := objKey 0x4400 0x1A
/-- R347: rows of KIND 1 -/
def RG_RESTRIPE : Nat := objKey 0x4400 0x1B
/-- R347: entries into UP; saturates -/
def RG_LINKUPS : Nat := objKey 0x4400 0x1C
/-- R347: frames discarded without acknowledgement (R316, R331) -/
def RG_LOSTFR : Nat := objKey 0x4400 0x1D
/-- R347: window-full stalls -/
def RG_STALLS : Nat := objKey 0x4400 0x1E
/-- R347: ACKs and NAKs naming no held frame -/
def RG_ACK_BAD : Nat := objKey 0x4400 0x1F
/-- R347: CAPS exchanges without agreement -/
def RG_NOAGREE : Nat := objKey 0x4400 0x20
/-- R347: QUERY blocks outside UP or before data-ready -/
def RG_RX_EARLY : Nat := objKey 0x4400 0x21
/-- R347: 20 µs periods without a south STATUS -/
def RG_STAT_MISS : Nat := objKey 0x4400 0x22
/-- R347: CAPS timeouts that returned the north link to DOWN (R314) -/
def RG_CAPS_FAIL : Nat := objKey 0x4400 0x23
/-- R348: commands scheduled, 0 to 64 -/
def RG_CMD_PEND : Nat := objKey 0x4410 0x01
/-- R348: commands that took effect at their tick; TPULSE commands dropped as duplicates (R67) excluded -/
def RG_CMD_DONE : Nat := objKey 0x4410 0x02
/-- R348: late commands (R336) -/
def RG_CMD_LATE : Nat := objKey 0x4410 0x03
/-- R348: commands refused by a full scheduler -/
def RG_CMD_FULL : Nat := objKey 0x4410 0x04
/-- R348: reserved codes; RESYNC without a matching CONT -/
def RG_CMD_BAD : Nat := objKey 0x4410 0x05
/-- R348: number of the crossing started by the tick of the newest executed command, under the numbering in force at that tick (R66) -/
def RG_CMD_LASTX : Nat := objKey 0x4410 0x06
/-- R349: link state, as RG_LSTATE -/
def RG_SSTATE (k : Nat) : Nat := objKey (0x4420 + k) 0x01
/-- R349: agreed version, as RG_VERSION -/
def RG_SVERSION (k : Nat) : Nat := objKey (0x4420 + k) 0x02
/-- R349: mark on S_TXk -/
def RG_STX_MARK (k : Nat) : Nat := objKey (0x4420 + k) 0x03
/-- R349: E on S_RXk -/
def RG_SRX_EXP (k : Nat) : Nat := objKey (0x4420 + k) 0x04
/-- R349: rewinds on S_TXk -/
def RG_SREWINDS (k : Nat) : Nat := objKey (0x4420 + k) 0x05
/-- R349: bad frames on S_RXk -/
def RG_SCRC_ERR (k : Nat) : Nat := objKey (0x4420 + k) 0x06
/-- R349: frames discarded without acknowledgement -/
def RG_SLOSTFR (k : Nat) : Nat := objKey (0x4420 + k) 0x07
/-- R349: receive rate changes in CLOCK (R342) -/
def RG_SHUNT (k : Nat) : Nat := objKey (0x4420 + k) 0x08
/-- R349: next SEQ to send on N_TXj -/
def RG_PTX_NEXT (j : Nat) : Nat := objKey (0x4430 + j) 0x01
/-- R349: mark on N_TXj -/
def RG_PTX_MARK (j : Nat) : Nat := objKey (0x4430 + j) 0x02
/-- R349: rewinds on link j -/
def RG_PREWINDS (j : Nat) : Nat := objKey (0x4430 + j) 0x03
/-- R349: frames sent for the first time; modulo 2^48 -/
def RG_PFRAMES (j : Nat) : Nat := objKey (0x4430 + j) 0x04
/-- R389: idle time before power-down, 1,000 to 1,000,000,000 ns (R359) -/
def DRM_PD_TIMER : Nat := objKey 0x5000 0x01
/-- R389: corrections per 1 ms that mark a die, 1 to 4,095; expert (R355) -/
def DRM_DIE_THR : Nat := objKey 0x5000 0x02
/-- R389: uncorrectable beats per 1 ms that retire a rank in normal mode, 1 to 255; expert (R356) -/
def DRM_UE_THR : Nat := objKey 0x5000 0x03
/-- R389: spare check period, 1,000 to 3,600,000 ms (R370) -/
def DRM_SPARE_PER : Nat := objKey 0x5000 0x04
/-- R389: 0x01, 0x02, 0x03 retire A, B, S, accepted only for a rank in SERVING or SPARE (R368); 0x10 SWEEP_NEXT_BOOT; expert; other codes refused -/
def DRM_CTRL : Nat := objKey 0x5000 0x05
/-- R389: bit r: rank r at the doubled refresh rate -/
def DRM_HOT : Nat := objKey 0x5000 0x06
/-- R389: rank state (R367) -/
def DRM_RSTATE (r : Nat) : Nat := objKey (0x5010 + r) 0x01
/-- R389: die marked failed, 0 to 5; 0xFF none -/
def DRM_DIEMARK (r : Nat) : Nat := objKey (0x5010 + r) 0x02
/-- R389: hottest die, °C -/
def DRM_TEMP (r : Nat) : Nat := objKey (0x5010 + r) 0x03
/-- R389: refreshes issued; wraps -/
def DRM_REFCNT (r : Nat) : Nat := objKey (0x5010 + r) 0x04
/-- R389: corrections attributed to die j, at subindex j + 5 -/
def DRM_CORR (r d : Nat) : Nat := objKey (0x5010 + r) (0x05 + d)
/-- R389: uncorrectable beats -/
def DRM_UE (r : Nat) : Nat := objKey (0x5010 + r) 0x0B
/-- R389: rank byte address of the newest uncorrectable beat -/
def DRM_UE_ADDR (r : Nat) : Nat := objKey (0x5010 + r) 0x0C
/-- R389: retirement cause (R368) -/
def DRM_RETIRE (r : Nat) : Nat := objKey (0x5010 + r) 0x0D
/-- R389: crossing of the retirement -/
def DRM_RETIREX (r : Nat) : Nat := objKey (0x5010 + r) 0x0E
/-- R389: 64 bytes: bytes 0–11 write delays, 12–23 read-strobe delays, 24–35 read-gate delays of lanes 0–11; byte 36 command delay; byte 37 die mark; rest reserved -/
def DRM_TRAIN (r : Nat) : Nat := objKey (0x5010 + r) 0x0F
/-- R389: 0 none, 1 stored and verified, 2 sweep -/
def DRM_TRAIN_SRC (r : Nat) : Nat := objKey (0x5010 + r) 0x10
/-- R389: delay-tracking steps (R365) -/
def DRM_TRK_STEPS (r : Nat) : Nat := objKey (0x5010 + r) 0x11
/-- R389: bursts written -/
def DRM_WRITES (r : Nat) : Nat := objKey (0x5010 + r) 0x12
/-- R389: bursts read -/
def DRM_READS (r : Nat) : Nat := objKey (0x5010 + r) 0x13
/-- R390: words corrected -/
def SPM_CORR : Nat := objKey 0x5100 0x01
/-- R390: uncorrectable words -/
def SPM_UE : Nat := objKey 0x5100 0x02
/-- R390: byte address of the newest uncorrectable word -/
def SPM_UE_ADDR : Nat := objKey 0x5100 0x03
/-- R390: write-lost outcomes (R374, R375) -/
def SPM_WLOST : Nat := objKey 0x5100 0x04
/-- R390: longest wait of agents 2 to 5, core cycles -/
def SPM_WAITMAX : Nat := objKey 0x5100 0x05
/-- R390: spare rows in use, 0 to 32 -/
def SPM_SPARE_ROWS : Nat := objKey 0x5100 0x06
/-- R390: spare column groups in use, 0 to 8 -/
def SPM_SPARE_COLS : Nat := objKey 0x5100 0x07
/-- R390: repair records ignored at this boot -/
def SPM_REPAIR_BAD : Nat := objKey 0x5100 0x08
/-- R390: words tolerated with one failing cell -/
def SPM_DEFECTS : Nat := objKey 0x5100 0x09
/-- R390: firmware RAM words corrected -/
def SPM_FW_CORR : Nat := objKey 0x5100 0x0A
/-- R390: firmware RAM uncorrectable words -/
def SPM_FW_UE : Nat := objKey 0x5100 0x0B
/-- R390: 0x01 preserving, 0x02 destructive (Parked only), 0x03 ABORT -/
def SPM_MARCH_CTRL : Nat := objKey 0x5110 0x01
/-- R390: first byte, multiple of 8 -/
def SPM_MARCH_START : Nat := objKey 0x5110 0x02
/-- R390: bytes, multiple of 8, nonzero -/
def SPM_MARCH_LEN : Nat := objKey 0x5110 0x03
/-- R390: 0 IDLE, 1 RUN, 2 PASSED, 3 FAILED -/
def SPM_MARCH_STATE : Nat := objKey 0x5110 0x04
/-- R390: words failed in the last march -/
def SPM_MARCH_FAILS : Nat := objKey 0x5110 0x05
/-- R390: first failing byte address -/
def SPM_MARCH_FADDR : Nat := objKey 0x5110 0x06
/-- R391: 0 A, 1 B, 2 S, 3 scratchpad -/
def SCB_TARGET : Nat := objKey 0x5140 0x01
/-- R391: first byte of the range (R383) -/
def SCB_START : Nat := objKey 0x5140 0x02
/-- R391: bytes in the range -/
def SCB_LEN : Nat := objKey 0x5140 0x03
/-- R391: 0x01 START, 0x02 RESUME, 0x03 ABORT -/
def SCB_CTRL : Nat := objKey 0x5140 0x04
/-- R391: 0 IDLE, 1 RUN, 2 HALTED, 3 DONE, 4 ABORTED -/
def SCB_STATE : Nat := objKey 0x5140 0x05
/-- R391: beats or words read in the pass -/
def SCB_READ : Nat := objKey 0x5140 0x06
/-- R391: corrected in the pass -/
def SCB_CORR : Nat := objKey 0x5140 0x07
/-- R391: uncorrectable in the pass -/
def SCB_UE : Nat := objKey 0x5140 0x08
/-- R391: first failing address; 0xFFFFFFFF none -/
def SCB_FIRST : Nat := objKey 0x5140 0x09
/-- R391: next address to read -/
def SCB_NEXT : Nat := objKey 0x5140 0x0A
/-- R391: passes ended DONE since reset; saturates -/
def SCB_PASSES : Nat := objKey 0x5140 0x0B
/-- R424: clock state (R404) -/
def CLK_STATE : Nat := objKey 0x5400 0x01
/-- R424: [2] M synthesiser locked, [1] C synthesiser locked, [0] TDC PLL locked; [7:3] reserved -/
def CLK_PLL_STATUS : Nat := objKey 0x5400 0x02
/-- R424: N_ref -/
def CLK_MON_REF : Nat := objKey 0x5400 0x03
/-- R424: count of the last window -/
def CLK_MON_LAST : Nat := objKey 0x5400 0x04
/-- R424: CKIN failures -/
def CLK_FAILS : Nat := objKey 0x5400 0x05
/-- R424: 0 none, 1 missing edges, 2 frequency high, 3 frequency low, 4 TDC PLL, 5 core synthesiser, 6 relock timeout -/
def CLK_FAIL_CAUSE : Nat := objKey 0x5400 0x06
/-- R424: duration of the last FALLBACK, µs -/
def CLK_HOLD_TIME : Nat := objKey 0x5400 0x07
/-- R424: INTOSC frequency in Hz, referred to CLK_FX_NOM (R397) -/
def CLK_INTOSC_MEAS : Nat := objKey 0x5400 0x08
/-- R424: INTOSC faults (R398) -/
def CLK_INTOSC_FAULTS : Nat := objKey 0x5400 0x09
/-- R424: crossing of the last failure -/
def CLK_LAST_FAILX : Nat := objKey 0x5400 0x0A
/-- R424: qualification windows with at least one CKIN edge and a count outside ±8% of their E (R400) -/
def CLK_NOM_MISMATCH : Nat := objKey 0x5400 0x0B
/-- R424: windows to accept CKIN, 4 to 1,024 -/
def CLK_QUAL : Nat := objKey 0x5400 0x0C
/-- R424: nominal fX in Hz, 45,000,000 to 55,000,000 (R393) -/
def CLK_FX_NOM : Nat := objKey 0x5400 0x0D
/-- R424: bit n: host request to gate node n; expert (R406) -/
def CLK_GATE_REQ : Nat := objKey 0x5410 0x01
/-- R424: bit n: node n gated, for any reason -/
def CLK_GATED : Nat := objKey 0x5410 0x02
/-- R424: gating requests refused -/
def CLK_REFUSED : Nat := objKey 0x5410 0x03
/-- R424: lowest busy node at the last refusal; 0xFF none -/
def CLK_REFUSED_BY : Nat := objKey 0x5410 0x04
/-- R425: crossing in progress (R408) -/
def XC_COUNT : Nat := objKey 0x5420 0x01
/-- R425: 0 UNALIGNED, 1 ALIGNED (R414) -/
def XC_STATE : Nat := objKey 0x5420 0x02
/-- R425: TURN_LEN, 1,024 to 65,535 crossings -/
def XC_TURN_LEN : Nat := objKey 0x5420 0x03
/-- R425: phase errors (R410) -/
def XC_PHASE_ERR : Nat := objKey 0x5420 0x04
/-- R425: residue of the last phase error -/
def XC_PHASE_LAST : Nat := objKey 0x5420 0x05
/-- R425: RESYNC commands applied, of either form; a count wrap is not counted (R408); saturates -/
def XC_RESYNCS : Nat := objKey 0x5420 0x06
/-- R425: new number of the last RESYNC tick -/
def XC_LAST_RSX : Nat := objKey 0x5420 0x07
/-- R425: number that tick would have had -/
def XC_LAST_OLD : Nat := objKey 0x5420 0x08
/-- R425: D in ps, −100,000 to +200,000 (R412) -/
def XC_ALIGN_DLY : Nat := objKey 0x5420 0x09
/-- R425: e − u of the last alignment, ps -/
def XC_ALIGN_RES : Nat := objKey 0x5420 0x0A
/-- R425: named-form RESYNCs received late or discarded in Hold, and alignment-form RESYNCs dropped at a CKIN failure (R411, R412) -/
def XC_RSY_LATE : Nat := objKey 0x5420 0x0B
/-- R425: count wraps; saturates -/
def XC_WRAPS : Nat := objKey 0x5420 0x0C
/-- R425: crossing started by the next turn marker -/
def XC_NEXT_TURN : Nat := objKey 0x5420 0x0D
/-- R425: alignment RESYNCs sent to leaves (R413) -/
def XC_LEAF_ALIGNS : Nat := objKey 0x5420 0x0E
/-- R425: of those, caused by TP words of the wrong crossing -/
def XC_LEAF_REALIGN : Nat := objKey 0x5420 0x0F
/-- R426: 0 FREE, 1 TRACKING, 2 HOLDOVER (R419) -/
def NT_STATE : Nat := objKey 0x5440 0x01
/-- R426: network time, ns -/
def NT_NOW : Nat := objKey 0x5440 0x02
/-- R426: fraction of a ns, latched by a read of NT_NOW -/
def NT_FRAC : Nat := objKey 0x5440 0x03
/-- R426: increment per tick, ns; 16 to 24 ns -/
def NT_INCR : Nat := objKey 0x5440 0x04
/-- R426: rate correction, units of 2^−32, clamped to ±500 ppm -/
def NT_RATE : Nat := objKey 0x5440 0x05
/-- R426: error in ns above which the servo steps, 100 to 1,000,000,000 -/
def NT_STEP_LIMIT : Nat := objKey 0x5440 0x06
/-- R426: slew, 1 to 1,000 ns/s -/
def NT_SLEW : Nat := objKey 0x5440 0x07
/-- R426: ms without a message before HOLDOVER, 1 to 60,000 -/
def NT_HOLDOVER : Nat := objKey 0x5440 0x08
/-- R426: rate gain shift g, 0 to 8 -/
def NT_GAIN : Nat := objKey 0x5440 0x09
/-- R426: current master; 0xFFFF none -/
def NT_MASTER : Nat := objKey 0x5440 0x0A
/-- R426: error of the last accepted message, ns, saturated -/
def NT_LAST_ERR : Nat := objKey 0x5440 0x0B
/-- R426: steps, NT_SET included -/
def NT_STEPS : Nat := objKey 0x5440 0x0C
/-- R426: messages accepted -/
def NT_MSGS : Nat := objKey 0x5440 0x0D
/-- R426: messages rejected (R416) -/
def NT_REJECT : Nat := objKey 0x5440 0x0E
/-- R426: messages from other masters without a change -/
def NT_FOREIGN : Nat := objKey 0x5440 0x0F
/-- R426: changes of master -/
def NT_MCHANGES : Nat := objKey 0x5440 0x10
/-- R426: sets NT at the next tick; expert (R420) -/
def NT_SET : Nat := objKey 0x5440 0x11
/-- R426: 16 capture entries of 16 bytes (R422) -/
def NT_CAPT : Nat := objKey 0x54C0 0x01
/-- R426: entries written since reset; wraps -/
def NT_CAPT_CNT : Nat := objKey 0x54C0 0x02
/-- R427: alarm time, ns -/
def NT_AL_TIME (k : Nat) : Nat := objKey (0x5480 + k) 0x01
/-- R427: period in ns; 0 one-shot, otherwise at least 20,000 -/
def NT_AL_PERIOD (k : Nat) : Nat := objKey (0x5480 + k) 0x02
/-- R427: [0] housekeeping sequence, [1] telemetry, [2] EVENT; [7:3] reserved -/
def NT_AL_ACTION (k : Nat) : Nat := objKey (0x5480 + k) 0x03
/-- R427: 0x01 ARM, 0x02 DISARM -/
def NT_AL_CTRL (k : Nat) : Nat := objKey (0x5480 + k) 0x04
/-- R427: 0 IDLE, 1 ARMED -/
def NT_AL_STATE (k : Nat) : Nat := objKey (0x5480 + k) 0x05
/-- R427: firings since reset; saturates -/
def NT_AL_FIRED (k : Nat) : Nat := objKey (0x5480 + k) 0x06
/-- R427: firings late, and periods skipped (R421) -/
def NT_AL_LATE (k : Nat) : Nat := objKey (0x5480 + k) 0x07
/-- R427: crossing of the last firing -/
def NT_AL_LASTX (k : Nat) : Nat := objKey (0x5480 + k) 0x08
/-- R453: 0x01 START, 0x02 STOP, 0x03 URGENT (R446) -/
def HK_CTRL : Nat := objKey 0x6000 0x01
/-- R453: 0 OFF, 1 IDLE, 2 RUN, 3 URG_IDLE, 4 URG_PRE -/
def HK_STATE : Nat := objKey 0x6000 0x02
/-- R453: entries in the sequence, 1 to 32 -/
def HK_SEQ_LEN : Nat := objKey 0x6000 0x03
/-- R453: 1: passes repeat until STOP -/
def HK_SEQ_LOOP : Nat := objKey 0x6000 0x04
/-- R453: 0 50 Hz, 1 60 Hz -/
def HK_MAINS : Nat := objKey 0x6000 0x05
/-- R453: 0 break-before-make, 1 SLF32 settling (R434) -/
def HK_MUX_MODE : Nat := objKey 0x6000 0x06
/-- R453: limit on|x1 − x2|, the difference between the codes of the two half-integrations, in codes, 1 to 524,287 (R440) -/
def HK_DIST_LIMIT : Nat := objKey 0x6000 0x07
/-- R453: result register (R449) -/
def HK_RESULT : Nat := objKey 0x6000 0x08
/-- R453: 1: each result sent as an EVENT (R450) -/
def HK_RES_EVT : Nat := objKey 0x6000 0x09
/-- R453: urgent entry; refused while an urgent request is in progress -/
def HK_URG_ENTRY : Nat := objKey 0x6000 0x0A
/-- R453: entry in progress; 0x3F urgent -/
def HK_SEQ_POS : Nat := objKey 0x6000 0x0B
/-- R453: passes completed; saturates -/
def HK_PASSES : Nat := objKey 0x6000 0x0C
/-- R453: results replaced unread -/
def HK_OVERRUNS : Nat := objKey 0x6000 0x0D
/-- R453: conversions abandoned by URGENT or STOP -/
def HK_ABANDONED : Nat := objKey 0x6000 0x0E
/-- R453: disturbed conversions -/
def HK_DIST_CNT : Nat := objKey 0x6000 0x0F
/-- R453: starts lost with one already pending -/
def HK_START_MISSED : Nat := objKey 0x6000 0x10
/-- R453: a START is pending (R448) -/
def HK_START_PEND : Nat := objKey 0x6000 0x11
/-- R453: conversions restarted at a lower range -/
def HK_RANGE_RETRY : Nat := objKey 0x6000 0x12
/-- R453: results with OPEN -/
def HK_OPEN_CNT : Nat := objKey 0x6000 0x13
/-- R453: slice swaps; saturates -/
def HK_SWAPS : Nat := objKey 0x6000 0x14
/-- R453: swaps deferred (R442) -/
def HK_SWAP_DEFER : Nat := objKey 0x6000 0x15
/-- R453: calibrations failed -/
def HK_CAL_FAIL : Nat := objKey 0x6000 0x16
/-- R453: serving slice -/
def HK_SLICE : Nat := objKey 0x6000 0x17
/-- R453: 64 bytes: for slice 0 then 1, ranges ×1 to ×64, an I32 offset and a Q16.16 gain each -/
def HK_CAL : Nat := objKey 0x6000 0x18
/-- R453: results written; modulo 2^48 -/
def HK_CONV : Nat := objKey 0x6000 0x19
/-- R453: entries skipped as invalid (R445) -/
def HK_INVALID : Nat := objKey 0x6000 0x1A
/-- R453: entry n at subindex n + 1 -/
def HK_ENTRY (n : Nat) : Nat := objKey 0x6010 (0x01 + n)
/-- R453: range state of entry n, 0 to 3, at subindex n + 1 -/
def HK_RANGE_NOW (n : Nat) : Nat := objKey 0x6020 (0x01 + n)
/-- R453: range state of the urgent entry -/
def HK_RANGE_URG : Nat := objKey 0x6020 0x21
/-- R484: device name -/
def CF_DEVICE : Nat := objKey 0x1000 0x01
/-- R484: vendor -/
def CF_VENDOR : Nat := objKey 0x1000 0x02
/-- R484: stepping name -/
def CF_STEPPING : Nat := objKey 0x1000 0x03
/-- R484: stepping: [7:4] letter, 1 for A; [3:0] number -/
def CF_STEP_CODE : Nat := objKey 0x1000 0x04
/-- R484: factory serial number -/
def CF_SERIAL : Nat := objKey 0x1000 0x05
/-- R484: 0 SLF128-A0, 1 SLF128-AQ -/
def CF_SCREEN : Nat := objKey 0x1000 0x06
/-- R484: dictionary version, [15:8] major, [7:0] minor -/
def CF_DICT_VER : Nat := objKey 0x1000 0x07
/-- R484: highest Cufel version -/
def CF_CUFEL_VER : Nat := objKey 0x1000 0x08
/-- R484: bit n: Cufel major version n implemented -/
def CF_CUFEL_SET : Nat := objKey 0x1000 0x09
/-- R484: highest Ragil version -/
def CF_RAGIL_MAX : Nat := objKey 0x1000 0x0A
/-- R484: [31:16] ROM version, 0x0001 in stepping A1; [15:0] patch level in force: 0 when no patch image is loaded (R512), otherwise the level that the loaded image carries, 1 to 65,535 -/
def CF_FW_VER : Nat := objKey 0x1000 0x0B
/-- R484: strapped role: 0 standalone, 1 leaf, 2 hub, 3 factory test -/
def CF_ROLE : Nat := objKey 0x1000 0x0C
/-- R484: seconds since reset -/
def CF_UPTIME : Nat := objKey 0x1000 0x0D
/-- R485: cluster id, 0x000 to 0xFFF (R458) -/
def CF_CLUSTER_ID : Nat := objKey 0x1100 0x01
/-- R485: device address in force -/
def CF_ADDR : Nat := objKey 0x1100 0x02
/-- R485: DST of EVENT and HEARTBEAT; host address or 0xFFFF -/
def CF_EVT_DEST : Nat := objKey 0x1100 0x03
/-- R485: 0 north, 1 CAN, 2 auto (R482) -/
def CF_EVT_PATH : Nat := objKey 0x1100 0x04
/-- R485: bit n: CLASS n events created; bit 0 reads 1 -/
def CF_EVT_MASK : Nat := objKey 0x1100 0x05
/-- R485: heartbeat period in ms, 0 off or 100 to 60,000 -/
def CF_HB_PER : Nat := objKey 0x1100 0x06
/-- R485: messages queued for execution -/
def CF_RX_MSGS : Nat := objKey 0x1100 0x07
/-- R485: messages discarded at steps 1, 3 and 7 -/
def CF_RX_BAD : Nat := objKey 0x1100 0x08
/-- R485: messages discarded at step 4 -/
def CF_RX_MISADDR : Nat := objKey 0x1100 0x09
/-- R485: repeats answered with a kept response -/
def CF_RESP_CACHED : Nat := objKey 0x1100 0x0A
/-- R485: next ESEQ -/
def CF_EVT_SEQ : Nat := objKey 0x1100 0x0B
/-- R485: events waiting, 0 to 64 -/
def CF_EVTQ_FILL : Nat := objKey 0x1100 0x0C
/-- R485: events dropped or displaced -/
def CF_EVT_DROP : Nat := objKey 0x1100 0x0D
/-- R485: messages relayed north from leaves; wraps -/
def CF_RELAY_NORTH : Nat := objKey 0x1100 0x0E
/-- R485: messages relayed to leaves; wraps -/
def CF_RELAY_SOUTH : Nat := objKey 0x1100 0x0F
/-- R485: messages for a port not in UP -/
def CF_RELAY_DROP : Nat := objKey 0x1100 0x10
/-- R485: requests answered VERSION -/
def CF_VER_REFUSED : Nat := objKey 0x1100 0x11
/-- R486: a new challenge for the reading source -/
def CF_CHALLENGE : Nat := objKey 0x1102 0x01
/-- R486: challenge XOR CF_KEY -/
def CF_UNLOCK : Nat := objKey 0x1102 0x02
/-- R486: 0x01 ends the writer's session -/
def CF_LOCK : Nat := objKey 0x1102 0x03
/-- R486: unlock key; expert -/
def CF_KEY : Nat := objKey 0x1102 0x04
/-- R486: session idle timeout, 10 to 3,600 s -/
def CF_EXPERT_TO : Nat := objKey 0x1102 0x05
/-- R486: sessions open, 0 to 4 -/
def CF_SESSIONS : Nat := objKey 0x1102 0x06
/-- R486: KEY_REFUSED outcomes -/
def CF_KEY_FAIL : Nat := objKey 0x1102 0x07
/-- R486: block transfer timeout, 100 to 10,000 ms -/
def CF_BLK_TO : Nat := objKey 0x1104 0x01
/-- R486: transfers open, 0 to 4 -/
def CF_BLK_OPEN : Nat := objKey 0x1104 0x02
/-- R486: transfers closed by timeout -/
def CF_BLK_ABANDON : Nat := objKey 0x1104 0x03
/-- R486: transfers abandoned with SEGMENT -/
def CF_BLK_SEGERR : Nat := objKey 0x1104 0x04
/-- R486: entry n at subindex n + 1: [23:8] index, [7:0] subindex; 0 empty; [31:24] reserved -/
def CF_TLM_LIST (n : Nat) : Nat := objKey 0x1108 (0x01 + n)
/-- R486: publications completed; wraps -/
def CF_TLM_PUBS : Nat := objKey 0x1108 0x21
/-- R486: publications not started (R472) -/
def CF_TLM_LATE : Nat := objKey 0x1108 0x22
/-- R487: 1: port active -/
def CAN_ENABLE : Nat := objKey 0x1110 0x01
/-- R487: node id from ADDR[5:0] -/
def CAN_NODE : Nat := objKey 0x1110 0x02
/-- R487: nominal rate code, 0 to 3 (R475) -/
def CAN_NBR : Nat := objKey 0x1110 0x03
/-- R487: data rate code, 0 to 4 (R475) -/
def CAN_DBR : Nat := objKey 0x1110 0x04
/-- R487: nominal sample point, 50 to 90 % -/
def CAN_SP_N : Nat := objKey 0x1110 0x05
/-- R487: data sample point, 50 to 90 % -/
def CAN_SP_D : Nat := objKey 0x1110 0x06
/-- R487: transmitter delay compensation offset, 0 to 127 CAN clock periods -/
def CAN_TDCO : Nat := objKey 0x1110 0x07
/-- R487: 1: takes part in keeper election -/
def CAN_KEEPER_EN : Nat := objKey 0x1110 0x08
/-- R487: keeper heartbeat period, 10 to 10,000 ms -/
def CAN_HB_PER : Nat := objKey 0x1110 0x09
/-- R487: beacon period, 0 off or 10 to 10,000 ms -/
def CAN_BEACON_PER : Nat := objKey 0x1110 0x0A
/-- R487: keeper timeout, 20 to 60,000 ms; at least 2 × CAN_HB_PER (R481) -/
def CAN_KEEPER_TO : Nat := objKey 0x1110 0x0B
/-- R487: DNODE of EVENT and HEARTBEAT frames, 0 to 0x3F -/
def CAN_EVT_NODE : Nat := objKey 0x1110 0x0C
/-- R487: port state (R480) -/
def CAN_STATE : Nat := objKey 0x1120 0x01
/-- R487: keeper node id; 0xFF none known -/
def CAN_KEEPER : Nat := objKey 0x1120 0x02
/-- R487: 0 none, 1 bus, 2 CKIN (R476) -/
def CAN_CLKSRC : Nat := objKey 0x1120 0x03
/-- R487: transmit error counter -/
def CAN_TEC : Nat := objKey 0x1120 0x04
/-- R487: receive error counter -/
def CAN_REC : Nat := objKey 0x1120 0x05
/-- R487: entries into bus-off -/
def CAN_BUSOFF : Nat := objKey 0x1120 0x06
/-- R487: claim collisions -/
def CAN_COLL : Nat := objKey 0x1120 0x07
/-- R487: 1: CONFLICT entered since reset -/
def CAN_CONFLICT : Nat := objKey 0x1120 0x08
/-- R487: bit n: node n heard within CAN_KEEPER_TO -/
def CAN_NODES : Nat := objKey 0x1120 0x09
/-- R487: MS of the last beacon -/
def CAN_BEACON_MS : Nat := objKey 0x1120 0x0A
/-- R487: crossing at its receipt -/
def CAN_BEACON_X : Nat := objKey 0x1120 0x0B
/-- R487: frames received without error; wraps -/
def CAN_RX_FRAMES : Nat := objKey 0x1120 0x0C
/-- R487: frames sent; wraps -/
def CAN_TX_FRAMES : Nat := objKey 0x1120 0x0D
/-- R487: Cufel messages discarded in reassembly or for a full buffer -/
def CAN_RX_DROP : Nat := objKey 0x1120 0x0E
/-- R487: frames ignored under R474 and R477 -/
def CAN_FOREIGN : Nat := objKey 0x1120 0x0F
/-- R487: entries into KEEPER -/
def CAN_ELECTIONS : Nat := objKey 0x1120 0x10
/-- R514: 0 IDLE, 1 STORING, 2 REFRESHING, 3 IMAGE_WRITE -/
def NV_STATE : Nat := objKey 0x1F00 0x01
/-- R514: bank in force: 0 A, 1 B, 0xFF none -/
def NV_BANK : Nat := objKey 0x1F00 0x02
/-- R514: generation in force; 0 none -/
def NV_GEN : Nat := objKey 0x1F00 0x03
/-- R514: R508 -/
def NV_BOOT_FLAGS : Nat := objKey 0x1F00 0x04
/-- R514: records skipped at boot -/
def NV_SKIPPED : Nat := objKey 0x1F00 0x05
/-- R514: STEP of the bank in force -/
def NV_IMG_STEP : Nat := objKey 0x1F00 0x06
/-- R514: DICT of the bank in force -/
def NV_IMG_DICT : Nat := objKey 0x1F00 0x07
/-- R514: 32 + RBYTES of the bank in force -/
def NV_IMG_BYTES : Nat := objKey 0x1F00 0x08
/-- R514: 0 none since reset; 1 to 5 as R505 -/
def NV_LAST_RESULT : Nat := objKey 0x1F00 0x09
/-- R514: stores of bank A over the life of the part -/
def NV_STORES_A : Nat := objKey 0x1F00 0x0A
/-- R514: stores of bank B over the life of the part -/
def NV_STORES_B : Nat := objKey 0x1F00 0x0B
/-- R514: refresh stores over the life of the part -/
def NV_REFRESHES : Nat := objKey 0x1F00 0x0C
/-- R514: powered hours before a refresh store, 8,760 to 87,600 (R511) -/
def NV_REFRESH_PER : Nat := objKey 0x1F00 0x0D
/-- R514: image of the bank in force; write as R510 -/
def NV_IMAGE : Nat := objKey 0x1F00 0x0E
/-- R514: 16,384 bytes, the lifetime log ring (R500) -/
def NV_LIFELOG : Nat := objKey 0x1F00 0x0F
/-- R514: SHADOW objects with a pending value (R492) -/
def NV_SHADOW_PEND : Nat := objKey 0x1F00 0x10
/-- R514: XTURN of the last APPLY -/
def NV_APPLY_X : Nat := objKey 0x1F00 0x11
/-- R514: behaviour profile, 0x00 or 0x11 (R497) -/
def COMPAT_PROFILE : Nat := objKey 0x1F10 0x01
/-- R514: profile in force -/
def COMPAT_ACTIVE : Nat := objKey 0x1F10 0x02
/-- R514: firmware patch image (R512) -/
def NV_PATCH : Nat := objKey 0x1F20 0x01
/-- R514: repair records held, 0 to 1,024 -/
def NV_REPAIRS : Nat := objKey 0x1F20 0x02
/-- R541: power state (R521) -/
def PWR_STATE : Nat := objKey 0x7000 0x01
/-- R541: degraded conditions (R522) -/
def PWR_DEGR : Nat := objKey 0x7000 0x02
/-- R541: [0] feed A good, [1] feed B good, [2] drawing from feed B, [3] VKEEP present; [7:4] reserved -/
def PWR_FEEDS : Nat := objKey 0x7000 0x03
/-- R541: 1: return to feed A (R516) -/
def PWR_FEED_RET : Nat := objKey 0x7000 0x04
/-- R541: feed changes; saturates -/
def PWR_FEED_SW : Nat := objKey 0x7000 0x05
/-- R541: supply-event latch (R519) -/
def PWR_SUPPLY_EVT : Nat := objKey 0x7000 0x06
/-- R541: 1: boot ends in Parked (R533) -/
def PWR_BOOT_PARK : Nat := objKey 0x7000 0x07
/-- R541: 1: N_RX and N_TX0 stay in L0 in Parked -/
def PWR_PARK_LINK : Nat := objKey 0x7000 0x08
/-- R541: park drain limit, 1 to 10,000 ms (R523) -/
def PWR_PARK_TO : Nat := objKey 0x7000 0x09
/-- R541: bit n: boot step n complete (R531) -/
def PWR_BOOT_STEP : Nat := objKey 0x7000 0x0A
/-- R541: µs from the start of the last boot to step 9 -/
def PWR_BOOT_TIME : Nat := objKey 0x7000 0x0B
/-- R541: 16 × U32, word n the end of step n in µs -/
def PWR_BOOT_TRACE : Nat := objKey 0x7000 0x0C
/-- R541: [8] TEST, [7:6] ROLE, [5:0] ADDR, as sampled; [15:9] reserved -/
def PWR_STRAPS : Nat := objKey 0x7000 0x0D
/-- R541: straps differ from the sampled values (R530) -/
def PWR_STRAP_CHG : Nat := objKey 0x7000 0x0E
/-- R541: cause of the latest reset (R525) -/
def RST_CAUSE : Nat := objKey 0x7010 0x01
/-- R541: resets since the plinth last lost its contents; saturates -/
def RST_COUNT : Nat := objKey 0x7010 0x02
/-- R541: supervisor restarts since reset; saturates -/
def RST_SUPV : Nat := objKey 0x7010 0x03
/-- R541: 0 none, 1 uncorrectable trap, 2 other trap, 3 watchdog, 4 command -/
def RST_SUPV_CAUSE : Nat := objKey 0x7010 0x04
/-- R541: supervisor watchdog, 10 to 1,000 ms -/
def RST_WDT : Nat := objKey 0x7010 0x05
/-- R541: [0] PCYC_REQ_N asserted; [3:1] cause: 0 none, 1 ladder, 2 NOCLOCK, 3 host; [7:4] FUNC of a ladder request -/
def RST_PCYC : Nat := objKey 0x7010 0x06
/-- R541: ladder resets within the window (R537) -/
def RST_LADDER : Nat := objKey 0x7010 0x07
/-- R542: fault-free time that clears a function's counts, 1 to 86,400 s -/
def REC_QUIET : Nat := objKey 0x7020 0x01
/-- R542: ladder resets allowed within the window, 0 to 15 -/
def REC_RESET_LIMIT : Nat := objKey 0x7020 0x02
/-- R542: window, 60 to 604,800 s -/
def REC_RESET_WIN : Nat := objKey 0x7020 0x03
/-- R542: 1: step 4 may be taken -/
def REC_PCYC_EN : Nat := objKey 0x7020 0x04
/-- R542: [31:24] FUNC, [23:20] step taken, [19:0] reserved -/
def REC_LAST : Nat := objKey 0x7020 0x05
/-- R542: ladder policy (R543) -/
def REC_POLICY (f : Nat) : Nat := objKey (0x7040 + f) 0x01
/-- R542: ladder status (R543); cleared by CLEAR -/
def REC_STATUS (f : Nat) : Nat := objKey (0x7040 + f) 0x02
/-- R573: bit n: condition n holds; [31:20] reserved -/
def FLT_ACTIVE : Nat := objKey 0x7800 0x01
/-- R573: bit n: condition n has arisen since cleared -/
def FLT_LATCHED : Nat := objKey 0x7800 0x02
/-- R573: bit n: condition n does not assert FAULT_N; NM bits ignored (R551) -/
def FLT_MASK : Nat := objKey 0x7800 0x03
/-- R573: 0x01 clears inactive latched bits -/
def FLT_CLEAR : Nat := objKey 0x7800 0x04
/-- R573: 1: FAULT_N asserted -/
def FLT_FAULTN : Nat := objKey 0x7800 0x05
/-- R573: code of the first CLASS 0 entry written since FLT_LATCHED was last left entirely at 0 by FLT_CLEAR, or since reset; 0 until such an entry (R551) -/
def FLT_FIRST : Nat := objKey 0x7800 0x06
/-- R573: code of the newest log entry -/
def FLT_LAST_CODE : Nat := objKey 0x7800 0x07
/-- R573: XC of the newest log entry -/
def FLT_LAST_X : Nat := objKey 0x7800 0x08
/-- R573: voted copies rewritten (R545) -/
def FLT_TMR_CORR : Nat := objKey 0x7800 0x09
/-- R573: registers restored from the supervisor copy (R546) -/
def FLT_TMR_DOUBLE : Nat := objKey 0x7800 0x0A
/-- R573: parity errors in LUT entries, chain and FIFO entries, and query state -/
def FLT_PARITY : Nat := objKey 0x7800 0x0B
/-- R573: 16,384 bytes, 512 entries (R553), slot order -/
def FLT_LOG : Nat := objKey 0x7810 0x01
/-- R573: next slot, 0 to 511 -/
def FLT_LOG_NEXT : Nat := objKey 0x7810 0x02
/-- R573: next LSEQ -/
def FLT_LOG_SEQ : Nat := objKey 0x7810 0x03
/-- R573: LSEQ of the newest entry the host has read (R554) -/
def FLT_LOG_ACK : Nat := objKey 0x7810 0x04
/-- R573: entries overwritten unread or dropped -/
def FLT_LOG_LOST : Nat := objKey 0x7810 0x05
/-- R573: entries written since reset; wraps -/
def FLT_LOG_CNT : Nat := objKey 0x7810 0x06
/-- R573: 0x01 zero the log; expert -/
def FLT_LOG_CTRL : Nat := objKey 0x7810 0x07
/-- R573: powered hours of the part (R558) -/
def FLT_LIFE_HOURS : Nat := objKey 0x7820 0x01
/-- R573: next lifetime slot, 0 to 511 -/
def FLT_LIFE_NEXT : Nat := objKey 0x7820 0x02
/-- R573: lifetime records written since reset; saturates -/
def FLT_LIFE_WRITES : Nat := objKey 0x7820 0x03
/-- R573: lifetime records ignored at boot for a missing last word -/
def FLT_LIFE_BAD : Nat := objKey 0x7820 0x04
/-- R573: times condition n has arisen, folded occurrences included -/
def FLT_COND_CNT (n : Nat) : Nat := objKey (0x7880 + n) 0x01
/-- R574: 0x01 freeze (R559); expert -/
def FRZ_CTRL : Nat := objKey 0x7830 0x01
/-- R574: 1: DRAM refresh continues in a freeze (R561) -/
def FRZ_REFRESH : Nat := objKey 0x7830 0x02
/-- R574: 1: the FREEZE ball freezes -/
def FRZ_PIN_EN : Nat := objKey 0x7830 0x03
/-- R574: freezes since reset; saturates -/
def FRZ_COUNT : Nat := objKey 0x7830 0x04
/-- R574: crossing in progress when the last freeze took hold -/
def FRZ_LAST_X : Nat := objKey 0x7830 0x05
/-- R574: duration of the last freeze, µs -/
def FRZ_LAST_DUR : Nat := objKey 0x7830 0x06
/-- R574: sources that held the last freeze: [0] pin, [1] Cufel, [2] TAP -/
def FRZ_SRC : Nat := objKey 0x7830 0x07
/-- R574: crossing started by the first tick after the last thaw -/
def FRZ_RESUME_X : Nat := objKey 0x7830 0x08
/-- R574: slices discarded at the last thaw -/
def FRZ_OPEN_LOST : Nat := objKey 0x7830 0x09
/-- R574: identification register (R563) -/
def FLT_TAP_IDCODE : Nat := objKey 0x7840 0x01
/-- R574: 1: locked instructions act as BYPASS (R562) -/
def FLT_TAP_LOCK : Nat := objKey 0x7840 0x02
/-- R574: locked instructions refused -/
def FLT_TAP_REFUSED : Nat := objKey 0x7840 0x03
/-- R574: instruction most recently updated -/
def FLT_TAP_LAST_IR : Nat := objKey 0x7840 0x04
/-- R574: cast chain length in bits -/
def FRZ_CAST_LEN : Nat := objKey 0x7840 0x05
/-- R574: CRC of the last full circulation (R568) -/
def FRZ_CAST_CRC : Nat := objKey 0x7840 0x06
/-- R574: full circulations since reset; saturates -/
def FRZ_CAST_CIRCS : Nat := objKey 0x7840 0x07

end Obj

/-- Object table lines of the indexes 0x1000 to 0x10FF. -/
def objRows10 : List ObjDesc := [
  ⟨0x1000, 1, 0x00, 1, .u8, .cst, .const, 13, 0, 255, false, false⟩,
  ⟨0x1000, 1, 0x01, 1, .str, .cst, .const, 0, 0, 0, false, false⟩,
  ⟨0x1000, 1, 0x02, 1, .str, .cst, .const, 0, 0, 0, false, false⟩,
  ⟨0x1000, 1, 0x03, 1, .str, .cst, .const, 0, 0, 0, false, false⟩,
  ⟨0x1000, 1, 0x04, 1, .u8, .cst, .const, 17, 0, 255, false, false⟩,
  ⟨0x1000, 1, 0x05, 1, .u64, .cst, .const, 0, 0, 18446744073709551615, false, false⟩,
  ⟨0x1000, 1, 0x06, 1, .u8, .cst, .const, 0, 0, 255, false, false⟩,
  ⟨0x1000, 1, 0x07, 1, .u16, .cst, .const, 512, 0, 65535, false, false⟩,
  ⟨0x1000, 1, 0x08, 1, .u16, .cst, .const, 512, 0, 65535, false, false⟩,
  ⟨0x1000, 1, 0x09, 1, .u16, .cst, .const, 4, 0, 65535, false, false⟩,
  ⟨0x1000, 1, 0x0A, 1, .u16, .cst, .const, 512, 0, 65535, false, false⟩,
  ⟨0x1000, 1, 0x0B, 1, .u32, .ro, .live, 0, 0, 4294967295, false, false⟩,
  ⟨0x1000, 1, 0x0C, 1, .u8, .ro, .live, 0, 0, 255, false, false⟩,
  ⟨0x1000, 1, 0x0D, 1, .u32, .ro, .live, 0, 0, 4294967295, false, false⟩]

/-- Object table lines of the indexes 0x1100 to 0x11FF, part 1. -/
def objRows11a : List ObjDesc := [
  ⟨0x1100, 1, 0x00, 1, .u8, .cst, .const, 17, 0, 255, false, false⟩,
  ⟨0x1100, 1, 0x01, 1, .u16, .rw, .live, 4095, 0, 4095, false, true⟩,
  ⟨0x1100, 1, 0x02, 1, .u16, .ro, .live, 65520, 0, 65535, false, false⟩,
  ⟨0x1100, 1, 0x03, 1, .u16, .rw, .live, 65535, 0, 65535, false, true⟩,
  ⟨0x1100, 1, 0x04, 1, .u8, .rw, .live, 2, 0, 2, false, true⟩,
  ⟨0x1100, 1, 0x05, 1, .u8, .rw, .live, 15, 0, 255, false, true⟩,
  ⟨0x1100, 1, 0x06, 1, .u16, .rw, .live, 1000, 0, 65535, false, true⟩,
  ⟨0x1100, 1, 0x07, 1, .u32, .rc, .live, 0, 0, 4294967295, false, false⟩,
  ⟨0x1100, 1, 0x08, 1, .u32, .rc, .live, 0, 0, 4294967295, false, false⟩,
  ⟨0x1100, 1, 0x09, 1, .u32, .rc, .live, 0, 0, 4294967295, false, false⟩,
  ⟨0x1100, 1, 0x0A, 1, .u32, .rc, .live, 0, 0, 4294967295, false, false⟩,
  ⟨0x1100, 1, 0x0B, 1, .u16, .ro, .live, 0, 0, 65535, false, false⟩,
  ⟨0x1100, 1, 0x0C, 1, .u8, .ro, .live, 0, 0, 255, false, false⟩,
  ⟨0x1100, 1, 0x0D, 1, .u32, .rc, .live, 0, 0, 4294967295, false, false⟩,
  ⟨0x1100, 1, 0x0E, 1, .u32, .ro, .live, 0, 0, 4294967295, false, false⟩,
  ⟨0x1100, 1, 0x0F, 1, .u32, .ro, .live, 0, 0, 4294967295, false, false⟩,
  ⟨0x1100, 1, 0x10, 1, .u32, .rc, .live, 0, 0, 4294967295, false, false⟩,
  ⟨0x1100, 1, 0x11, 1, .u32, .rc, .live, 0, 0, 4294967295, false, false⟩,
  ⟨0x1102, 1, 0x00, 1, .u8, .cst, .const, 7, 0, 255, false, false⟩,
  ⟨0x1102, 1, 0x01, 1, .u16, .ro, .live, 0, 0, 65535, false, false⟩,
  ⟨0x1102, 1, 0x02, 1, .u16, .wo, .live, 0, 0, 65535, false, false⟩,
  ⟨0x1102, 1, 0x03, 1, .u8, .wo, .live, 0, 0, 255, false, false⟩,
  ⟨0x1102, 1, 0x04, 1, .u16, .wo, .live, 0, 0, 65535, true, true⟩,
  ⟨0x1102, 1, 0x05, 1, .u16, .rw, .live, 60, 10, 3600, false, true⟩,
  ⟨0x1102, 1, 0x06, 1, .u8, .ro, .live, 0, 0, 255, false, false⟩,
  ⟨0x1102, 1, 0x07, 1, .u32, .rc, .live, 0, 0, 4294967295, false, false⟩,
  ⟨0x1104, 1, 0x00, 1, .u8, .cst, .const, 4, 0, 255, false, false⟩,
  ⟨0x1104, 1, 0x01, 1, .u16, .rw, .live, 1000, 100, 10000, false, true⟩,
  ⟨0x1104, 1, 0x02, 1, .u8, .ro, .live, 0, 0, 255, false, false⟩,
  ⟨0x1104, 1, 0x03, 1, .u32, .rc, .live, 0, 0, 4294967295, false, false⟩]

/-- Object table lines of the indexes 0x1100 to 0x11FF, part 2. -/
def objRows11b : List ObjDesc := [
  ⟨0x1104, 1, 0x04, 1, .u32, .rc, .live, 0, 0, 4294967295, false, false⟩,
  ⟨0x1108, 1, 0x00, 1, .u8, .cst, .const, 34, 0, 255, false, false⟩,
  ⟨0x1108, 1, 0x01, 32, .u32, .rw, .live, 0, 0, 4294967295, false, true⟩,
  ⟨0x1108, 1, 0x21, 1, .u32, .ro, .live, 0, 0, 4294967295, false, false⟩,
  ⟨0x1108, 1, 0x22, 1, .u32, .rc, .live, 0, 0, 4294967295, false, false⟩,
  ⟨0x1110, 1, 0x00, 1, .u8, .cst, .const, 12, 0, 255, false, false⟩,
  ⟨0x1110, 1, 0x01, 1, .bool, .rw, .live, 1, 0, 1, false, true⟩,
  ⟨0x1110, 1, 0x02, 1, .u8, .ro, .live, 0, 0, 255, false, false⟩,
  ⟨0x1110, 1, 0x03, 1, .u8, .rw, .halt, 1, 0, 3, false, true⟩,
  ⟨0x1110, 1, 0x04, 1, .u8, .rw, .halt, 2, 0, 4, false, true⟩,
  ⟨0x1110, 1, 0x05, 1, .u8, .rw, .halt, 80, 50, 90, false, true⟩,
  ⟨0x1110, 1, 0x06, 1, .u8, .rw, .halt, 75, 50, 90, false, true⟩,
  ⟨0x1110, 1, 0x07, 1, .u8, .rw, .halt, 24, 0, 127, false, true⟩,
  ⟨0x1110, 1, 0x08, 1, .bool, .rw, .live, 1, 0, 1, false, true⟩,
  ⟨0x1110, 1, 0x09, 1, .u16, .rw, .live, 100, 10, 10000, false, true⟩,
  ⟨0x1110, 1, 0x0A, 1, .u16, .rw, .live, 100, 0, 10000, false, true⟩,
  ⟨0x1110, 1, 0x0B, 1, .u16, .rw, .live, 300, 20, 60000, false, true⟩,
  ⟨0x1110, 1, 0x0C, 1, .u8, .rw, .live, 63, 0, 63, false, true⟩,
  ⟨0x1120, 1, 0x00, 1, .u8, .cst, .const, 16, 0, 255, false, false⟩,
  ⟨0x1120, 1, 0x01, 1, .u8, .ro, .live, 0, 0, 255, false, false⟩,
  ⟨0x1120, 1, 0x02, 1, .u8, .ro, .live, 255, 0, 255, false, false⟩,
  ⟨0x1120, 1, 0x03, 1, .u8, .ro, .live, 0, 0, 255, false, false⟩,
  ⟨0x1120, 1, 0x04, 1, .u8, .ro, .live, 0, 0, 255, false, false⟩,
  ⟨0x1120, 1, 0x05, 1, .u8, .ro, .live, 0, 0, 255, false, false⟩,
  ⟨0x1120, 1, 0x06, 1, .u32, .rc, .live, 0, 0, 4294967295, false, false⟩,
  ⟨0x1120, 1, 0x07, 1, .u32, .rc, .live, 0, 0, 4294967295, false, false⟩,
  ⟨0x1120, 1, 0x08, 1, .bool, .ro, .live, 0, 0, 1, false, false⟩,
  ⟨0x1120, 1, 0x09, 1, .u64, .ro, .live, 0, 0, 18446744073709551615, false, false⟩,
  ⟨0x1120, 1, 0x0A, 1, .u48, .ro, .live, 0, 0, 281474976710655, false, false⟩,
  ⟨0x1120, 1, 0x0B, 1, .u48, .ro, .live, 0, 0, 281474976710655, false, false⟩]

/-- Object table lines of the indexes 0x1100 to 0x11FF, part 3. -/
def objRows11c : List ObjDesc := [
  ⟨0x1120, 1, 0x0C, 1, .u32, .ro, .live, 0, 0, 4294967295, false, false⟩,
  ⟨0x1120, 1, 0x0D, 1, .u32, .ro, .live, 0, 0, 4294967295, false, false⟩,
  ⟨0x1120, 1, 0x0E, 1, .u32, .rc, .live, 0, 0, 4294967295, false, false⟩,
  ⟨0x1120, 1, 0x0F, 1, .u32, .rc, .live, 0, 0, 4294967295, false, false⟩,
  ⟨0x1120, 1, 0x10, 1, .u32, .rc, .live, 0, 0, 4294967295, false, false⟩]

/-- Object table lines of the indexes 0x1F00 to 0x1FFF. -/
def objRows1F : List ObjDesc := [
  ⟨0x1F00, 1, 0x00, 1, .u8, .cst, .const, 17, 0, 255, false, false⟩,
  ⟨0x1F00, 1, 0x01, 1, .u8, .ro, .live, 0, 0, 255, false, false⟩,
  ⟨0x1F00, 1, 0x02, 1, .u8, .ro, .live, 255, 0, 255, false, false⟩,
  ⟨0x1F00, 1, 0x03, 1, .u32, .ro, .live, 0, 0, 4294967295, false, false⟩,
  ⟨0x1F00, 1, 0x04, 1, .u8, .ro, .live, 0, 0, 255, false, false⟩,
  ⟨0x1F00, 1, 0x05, 1, .u16, .ro, .live, 0, 0, 65535, false, false⟩,
  ⟨0x1F00, 1, 0x06, 1, .u8, .ro, .live, 0, 0, 255, false, false⟩,
  ⟨0x1F00, 1, 0x07, 1, .u16, .ro, .live, 0, 0, 65535, false, false⟩,
  ⟨0x1F00, 1, 0x08, 1, .u16, .ro, .live, 0, 0, 65535, false, false⟩,
  ⟨0x1F00, 1, 0x09, 1, .u8, .ro, .live, 0, 0, 255, false, false⟩,
  ⟨0x1F00, 1, 0x0A, 1, .u32, .ro, .live, 0, 0, 4294967295, false, false⟩,
  ⟨0x1F00, 1, 0x0B, 1, .u32, .ro, .live, 0, 0, 4294967295, false, false⟩,
  ⟨0x1F00, 1, 0x0C, 1, .u32, .ro, .live, 0, 0, 4294967295, false, false⟩,
  ⟨0x1F00, 1, 0x0D, 1, .u32, .rw, .live, 43800, 8760, 87600, false, true⟩,
  ⟨0x1F00, 1, 0x0E, 1, .domain, .rw, .live, 0, 0, 0, true, false⟩,
  ⟨0x1F00, 1, 0x0F, 1, .domain, .ro, .live, 0, 0, 0, false, false⟩,
  ⟨0x1F00, 1, 0x10, 1, .u16, .ro, .live, 0, 0, 65535, false, false⟩,
  ⟨0x1F00, 1, 0x11, 1, .u48, .ro, .live, 0, 0, 281474976710655, false, false⟩,
  ⟨0x1F10, 1, 0x00, 1, .u8, .cst, .const, 2, 0, 255, false, false⟩,
  ⟨0x1F10, 1, 0x01, 1, .u8, .rw, .halt, 0, 0, 255, false, true⟩,
  ⟨0x1F10, 1, 0x02, 1, .u8, .ro, .live, 17, 0, 255, false, false⟩,
  ⟨0x1F20, 1, 0x00, 1, .u8, .cst, .const, 2, 0, 255, false, false⟩,
  ⟨0x1F20, 1, 0x01, 1, .domain, .wo, .live, 0, 0, 0, true, false⟩,
  ⟨0x1F20, 1, 0x02, 1, .u16, .ro, .live, 0, 0, 65535, false, false⟩]

/-- Object table lines of the indexes 0x2000 to 0x20FF. -/
def objRows20 : List ObjDesc := [
  ⟨0x2000, 128, 0x00, 1, .u8, .cst, .const, 14, 0, 255, false, false⟩,
  ⟨0x2000, 128, 0x01, 1, .u8, .rw, .live, 0, 0, 255, false, true⟩,
  ⟨0x2000, 128, 0x02, 1, .u16, .rw, .live, 80, 0, 1023, false, true⟩,
  ⟨0x2000, 128, 0x03, 1, .u8, .rw, .live, 50, 0, 255, false, true⟩,
  ⟨0x2000, 128, 0x04, 1, .u8, .rw, .live, 2, 0, 15, false, true⟩,
  ⟨0x2000, 128, 0x05, 1, .u8, .rw, .live, 0, 0, 255, false, true⟩,
  ⟨0x2000, 128, 0x06, 1, .u8, .rw, .halt, 4, 0, 255, false, true⟩,
  ⟨0x2000, 128, 0x07, 1, .u16, .rw, .live, 0, 0, 65535, false, true⟩,
  ⟨0x2000, 128, 0x08, 1, .u16, .rw, .live, 5, 0, 65535, false, true⟩,
  ⟨0x2000, 128, 0x09, 1, .u32, .ro, .live, 0, 0, 4294967295, false, false⟩,
  ⟨0x2000, 128, 0x0A, 1, .u48, .ro, .live, 0, 0, 281474976710655, false, false⟩,
  ⟨0x2000, 128, 0x0B, 1, .u32, .rc, .live, 0, 0, 4294967295, false, false⟩,
  ⟨0x2000, 128, 0x0C, 1, .u32, .rc, .live, 0, 0, 4294967295, false, false⟩,
  ⟨0x2000, 128, 0x0D, 1, .u32, .ro, .live, 0, 0, 4294967295, false, false⟩,
  ⟨0x2000, 128, 0x0E, 1, .u16, .ro, .live, 0, 0, 65535, false, false⟩]

/-- Object table lines of the indexes 0x2100 to 0x21FF. -/
def objRows21 : List ObjDesc := [
  ⟨0x2100, 128, 0x00, 1, .u8, .cst, .const, 1, 0, 255, false, false⟩,
  ⟨0x2100, 128, 0x01, 1, .domain, .rw, .shadow, 0, 0, 0, true, false⟩]

/-- Object table lines of the indexes 0x2200 to 0x22FF. -/
def objRows22 : List ObjDesc := [
  ⟨0x2200, 1, 0x00, 1, .u8, .cst, .const, 5, 0, 255, false, false⟩,
  ⟨0x2200, 1, 0x01, 1, .u16, .rw, .live, 0, 0, 4095, false, false⟩,
  ⟨0x2200, 1, 0x02, 1, .i16, .rw, .live, 0, (-4095), 4095, false, false⟩,
  ⟨0x2200, 1, 0x03, 1, .u32, .ro, .live, 0, 0, 4294967295, false, false⟩,
  ⟨0x2200, 1, 0x04, 1, .u48, .ro, .live, 0, 0, 281474976710655, false, false⟩,
  ⟨0x2200, 1, 0x05, 1, .u32, .rc, .live, 0, 0, 4294967295, false, false⟩,
  ⟨0x2210, 1, 0x00, 1, .u8, .cst, .const, 13, 0, 255, false, false⟩,
  ⟨0x2210, 1, 0x01, 1, .u8, .rw, .halt, 255, 0, 255, false, false⟩,
  ⟨0x2210, 1, 0x02, 1, .u8, .rw, .halt, 0, 0, 2, false, false⟩,
  ⟨0x2210, 1, 0x03, 1, .u16, .rw, .halt, 128, 0, 1023, false, false⟩,
  ⟨0x2210, 1, 0x04, 1, .u8, .rw, .halt, 4, 0, 63, false, false⟩,
  ⟨0x2210, 1, 0x05, 1, .bool, .rw, .halt, 0, 0, 1, false, false⟩,
  ⟨0x2210, 1, 0x06, 1, .u16, .rw, .halt, 1024, 1, 8191, false, false⟩,
  ⟨0x2210, 1, 0x07, 1, .u8, .wo, .live, 0, 0, 255, false, false⟩,
  ⟨0x2210, 1, 0x08, 1, .u8, .ro, .live, 0, 0, 255, false, false⟩,
  ⟨0x2210, 1, 0x09, 1, .u48, .ro, .live, 0, 0, 281474976710655, false, false⟩,
  ⟨0x2210, 1, 0x0A, 1, .u16, .ro, .live, 0, 0, 65535, false, false⟩,
  ⟨0x2210, 1, 0x0B, 1, .domain, .ro, .live, 0, 0, 0, false, false⟩,
  ⟨0x2210, 1, 0x0C, 1, .bool, .rw, .live, 0, 0, 1, false, false⟩,
  ⟨0x2210, 1, 0x0D, 1, .u32, .ro, .live, 0, 0, 4294967295, false, false⟩,
  ⟨0x2220, 1, 0x00, 1, .u8, .cst, .const, 2, 0, 255, false, false⟩,
  ⟨0x2220, 1, 0x01, 1, .bits128, .ro, .live, 0, 0, 340282366920938463463374607431768211455, false, false⟩,
  ⟨0x2220, 1, 0x02, 1, .bits128, .rc, .live, 0, 0, 340282366920938463463374607431768211455, false, false⟩]

/-- Object table lines of the indexes 0x2800 to 0x28FF. -/
def objRows28 : List ObjDesc := [
  ⟨0x2800, 1, 0x00, 1, .u8, .cst, .const, 5, 0, 255, false, false⟩,
  ⟨0x2800, 1, 0x01, 1, .u8, .ro, .live, 0, 0, 255, false, false⟩,
  ⟨0x2800, 1, 0x02, 1, .u32, .rc, .live, 0, 0, 4294967295, false, false⟩,
  ⟨0x2800, 1, 0x03, 1, .u32, .rc, .live, 0, 0, 4294967295, false, false⟩,
  ⟨0x2800, 1, 0x04, 1, .u8, .ro, .live, 0, 0, 255, false, false⟩,
  ⟨0x2800, 1, 0x05, 1, .u8, .ro, .live, 0, 0, 255, false, false⟩,
  ⟨0x2810, 1, 0x00, 1, .u8, .cst, .const, 12, 0, 255, false, false⟩,
  ⟨0x2810, 1, 0x01, 1, .bits128, .rw, .live, 340282366920938463463374607431768211455, 0, 340282366920938463463374607431768211455, false, true⟩,
  ⟨0x2810, 1, 0x02, 1, .u8, .rw, .live, 0, 0, 2, false, true⟩,
  ⟨0x2810, 1, 0x03, 1, .u32, .rw, .live, 4294967295, 1, 4294967295, true, true⟩,
  ⟨0x2810, 1, 0x04, 1, .bool, .rw, .live, 1, 0, 1, false, true⟩,
  ⟨0x2810, 1, 0x05, 1, .u32, .rw, .live, 1048576, 0, 4294967295, false, true⟩,
  ⟨0x2810, 1, 0x06, 1, .u8, .rw, .live, 8, 1, 127, true, true⟩,
  ⟨0x2810, 1, 0x07, 1, .u8, .wo, .live, 0, 0, 255, false, false⟩,
  ⟨0x2810, 1, 0x08, 1, .u32, .ro, .live, 0, 0, 4294967295, false, false⟩,
  ⟨0x2810, 1, 0x09, 1, .u32, .rc, .live, 0, 0, 4294967295, false, false⟩,
  ⟨0x2810, 1, 0x0A, 1, .u8, .ro, .live, 0, 0, 255, false, false⟩,
  ⟨0x2810, 1, 0x0B, 1, .bool, .rw, .live, 0, 0, 1, false, true⟩,
  ⟨0x2810, 1, 0x0C, 1, .domain, .ro, .live, 0, 0, 0, false, false⟩,
  ⟨0x2820, 1, 0x00, 1, .u8, .cst, .const, 7, 0, 255, false, false⟩,
  ⟨0x2820, 1, 0x01, 1, .u8, .rw, .halt, 0, 0, 1, false, true⟩,
  ⟨0x2820, 1, 0x02, 1, .u8, .rw, .halt, 3, 0, 8, false, true⟩,
  ⟨0x2820, 1, 0x03, 1, .u32, .rw, .halt, 50000, 1, 16777215, false, true⟩,
  ⟨0x2820, 1, 0x04, 1, .u8, .wo, .live, 0, 0, 255, false, false⟩,
  ⟨0x2820, 1, 0x05, 1, .u8, .ro, .live, 0, 0, 255, false, false⟩,
  ⟨0x2820, 1, 0x06, 1, .u32, .ro, .live, 0, 0, 4294967295, false, false⟩,
  ⟨0x2820, 1, 0x07, 1, .u48, .ro, .live, 0, 0, 281474976710655, false, false⟩]

/-- Object table lines of the indexes 0x2900 to 0x29FF, part 1. -/
def objRows29a : List ObjDesc := [
  ⟨0x2900, 1, 0x00, 1, .u8, .cst, .const, 19, 0, 255, false, false⟩,
  ⟨0x2900, 1, 0x01, 1, .u8, .wo, .live, 0, 0, 255, false, false⟩,
  ⟨0x2900, 1, 0x02, 1, .u8, .ro, .live, 0, 0, 255, false, false⟩,
  ⟨0x2900, 1, 0x03, 1, .u8, .rw, .halt, 16, 8, 32, false, true⟩,
  ⟨0x2900, 1, 0x04, 1, .u8, .rw, .shadow, 64, 16, 64, false, true⟩,
  ⟨0x2900, 1, 0x05, 1, .u16, .ro, .live, 3072, 0, 65535, false, false⟩,
  ⟨0x2900, 1, 0x06, 1, .u8, .ro, .live, 12, 0, 255, false, false⟩,
  ⟨0x2900, 1, 0x07, 1, .u16, .ro, .live, 3072, 0, 65535, false, false⟩,
  ⟨0x2900, 1, 0x08, 1, .u48, .ro, .live, 0, 0, 281474976710655, false, false⟩,
  ⟨0x2900, 1, 0x09, 1, .u32, .rc, .live, 0, 0, 4294967295, false, false⟩,
  ⟨0x2900, 1, 0x0A, 1, .u48, .ro, .live, 0, 0, 281474976710655, false, false⟩,
  ⟨0x2900, 1, 0x0B, 1, .u32, .rc, .live, 0, 0, 4294967295, false, false⟩,
  ⟨0x2900, 1, 0x0C, 1, .u32, .rc, .live, 0, 0, 4294967295, false, false⟩,
  ⟨0x2900, 1, 0x0D, 1, .u16, .ro, .live, 0, 0, 65535, false, false⟩,
  ⟨0x2900, 1, 0x0E, 1, .u16, .rc, .live, 0, 0, 65535, false, false⟩,
  ⟨0x2900, 1, 0x0F, 1, .u32, .rc, .live, 0, 0, 4294967295, false, false⟩,
  ⟨0x2900, 1, 0x10, 1, .u48, .ro, .live, 0, 0, 281474976710655, false, false⟩,
  ⟨0x2900, 1, 0x11, 1, .u8, .rc, .live, 0, 0, 255, false, false⟩,
  ⟨0x2900, 1, 0x12, 1, .bool, .rw, .live, 0, 0, 1, false, true⟩,
  ⟨0x2900, 1, 0x13, 1, .u32, .rc, .live, 0, 0, 4294967295, false, false⟩,
  ⟨0x2910, 8, 0x00, 1, .u8, .cst, .const, 10, 0, 255, false, false⟩,
  ⟨0x2910, 8, 0x01, 1, .u8, .rw, .live, 12, 1, 15, false, true⟩,
  ⟨0x2910, 8, 0x02, 1, .u8, .ro, .live, 0, 0, 255, false, false⟩,
  ⟨0x2910, 8, 0x03, 1, .u8, .rc, .live, 0, 0, 255, false, false⟩,
  ⟨0x2910, 8, 0x04, 1, .u32, .rc, .live, 0, 0, 4294967295, false, false⟩,
  ⟨0x2910, 8, 0x05, 1, .u48, .ro, .live, 0, 0, 281474976710655, false, false⟩,
  ⟨0x2910, 8, 0x06, 1, .u32, .rc, .live, 0, 0, 4294967295, false, false⟩,
  ⟨0x2910, 8, 0x07, 1, .u32, .rc, .live, 0, 0, 4294967295, false, false⟩,
  ⟨0x2910, 8, 0x08, 1, .u32, .rc, .live, 0, 0, 4294967295, false, false⟩,
  ⟨0x2910, 8, 0x09, 1, .u32, .rc, .live, 0, 0, 4294967295, false, false⟩]

/-- Object table lines of the indexes 0x2900 to 0x29FF, part 2. -/
def objRows29b : List ObjDesc := [
  ⟨0x2910, 8, 0x0A, 1, .u32, .rc, .live, 0, 0, 4294967295, false, false⟩,
  ⟨0x2930, 1, 0x00, 1, .u8, .cst, .const, 5, 0, 255, false, false⟩,
  ⟨0x2930, 1, 0x01, 1, .bool, .rw, .live, 1, 0, 1, false, true⟩,
  ⟨0x2930, 1, 0x02, 1, .u16, .ro, .live, 0, 0, 65535, false, false⟩,
  ⟨0x2930, 1, 0x03, 1, .u48, .ro, .live, 0, 0, 281474976710655, false, false⟩,
  ⟨0x2930, 1, 0x04, 1, .u32, .rc, .live, 0, 0, 4294967295, false, false⟩,
  ⟨0x2930, 1, 0x05, 1, .u32, .rc, .live, 0, 0, 4294967295, false, false⟩]

/-- Object table lines of the indexes 0x3000 to 0x30FF. -/
def objRows30 : List ObjDesc := [
  ⟨0x3000, 1, 0x00, 1, .u8, .cst, .const, 23, 0, 255, false, false⟩,
  ⟨0x3000, 1, 0x01, 1, .u32, .rw, .shadow, 1048575, 64, 1048575, false, true⟩,
  ⟨0x3000, 1, 0x02, 1, .bool, .rw, .shadow, 0, 0, 1, false, true⟩,
  ⟨0x3000, 1, 0x03, 1, .bool, .rw, .live, 0, 0, 1, false, true⟩,
  ⟨0x3000, 1, 0x04, 1, .u8, .ro, .live, 0, 0, 255, false, false⟩,
  ⟨0x3000, 1, 0x05, 1, .u8, .ro, .live, 60, 0, 255, false, false⟩,
  ⟨0x3000, 1, 0x06, 1, .u32, .ro, .live, 0, 0, 4294967295, false, false⟩,
  ⟨0x3000, 1, 0x07, 1, .u48, .ro, .live, 0, 0, 281474976710655, false, false⟩,
  ⟨0x3000, 1, 0x08, 1, .u48, .ro, .live, 0, 0, 281474976710655, false, false⟩,
  ⟨0x3000, 1, 0x09, 1, .u48, .ro, .live, 0, 0, 281474976710655, false, false⟩,
  ⟨0x3000, 1, 0x0A, 1, .u48, .ro, .live, 0, 0, 281474976710655, false, false⟩,
  ⟨0x3000, 1, 0x0B, 1, .u32, .ro, .live, 0, 0, 4294967295, false, false⟩,
  ⟨0x3000, 1, 0x0C, 1, .q16, .ro, .live, 0, 0, 4294967295, false, false⟩,
  ⟨0x3000, 1, 0x0D, 1, .u32, .ro, .live, 0, 0, 4294967295, false, false⟩,
  ⟨0x3000, 1, 0x0E, 1, .u64, .ro, .live, 0, 0, 18446744073709551615, false, false⟩,
  ⟨0x3000, 1, 0x0F, 1, .bool, .rc, .live, 0, 0, 1, false, false⟩,
  ⟨0x3000, 1, 0x10, 1, .u32, .rc, .live, 0, 0, 4294967295, false, false⟩,
  ⟨0x3000, 1, 0x11, 1, .u32, .rc, .live, 0, 0, 4294967295, false, false⟩,
  ⟨0x3000, 1, 0x12, 1, .u48, .ro, .live, 0, 0, 281474976710655, false, false⟩,
  ⟨0x3000, 1, 0x13, 1, .u32, .rc, .live, 0, 0, 4294967295, false, false⟩,
  ⟨0x3000, 1, 0x14, 1, .u32, .rc, .live, 0, 0, 4294967295, false, false⟩,
  ⟨0x3000, 1, 0x15, 1, .u32, .ro, .live, 0, 0, 4294967295, false, false⟩,
  ⟨0x3000, 1, 0x16, 1, .u32, .rc, .live, 0, 0, 4294967295, false, false⟩,
  ⟨0x3000, 1, 0x17, 1, .u32, .rc, .live, 0, 0, 4294967295, false, false⟩]

/-- Object table lines of the indexes 0x3100 to 0x31FF, part 1. -/
def objRows31a : List ObjDesc := [
  ⟨0x3100, 1, 0x00, 1, .u8, .cst, .const, 21, 0, 255, false, false⟩,
  ⟨0x3100, 1, 0x01, 1, .u16, .rw, .live, 192, 1, 255, false, true⟩,
  ⟨0x3100, 1, 0x02, 1, .u16, .rw, .live, 224, 2, 256, false, true⟩,
  ⟨0x3100, 1, 0x03, 1, .u16, .ro, .live, 0, 0, 65535, false, false⟩,
  ⟨0x3100, 1, 0x04, 1, .u16, .rc, .live, 0, 0, 65535, false, false⟩,
  ⟨0x3100, 1, 0x05, 1, .u48, .ro, .live, 0, 0, 281474976710655, false, false⟩,
  ⟨0x3100, 1, 0x06, 1, .u48, .ro, .live, 0, 0, 281474976710655, false, false⟩,
  ⟨0x3100, 1, 0x07, 1, .u32, .rc, .live, 0, 0, 4294967295, false, false⟩,
  ⟨0x3100, 1, 0x08, 1, .u32, .rc, .live, 0, 0, 4294967295, false, false⟩,
  ⟨0x3100, 1, 0x09, 1, .u32, .rc, .live, 0, 0, 4294967295, false, false⟩,
  ⟨0x3100, 1, 0x0A, 1, .u32, .rc, .live, 0, 0, 4294967295, false, false⟩,
  ⟨0x3100, 1, 0x0B, 1, .u32, .rc, .live, 0, 0, 4294967295, false, false⟩,
  ⟨0x3100, 1, 0x0C, 1, .u32, .rc, .live, 0, 0, 4294967295, false, false⟩,
  ⟨0x3100, 1, 0x0D, 1, .u32, .rc, .live, 0, 0, 4294967295, false, false⟩,
  ⟨0x3100, 1, 0x0E, 1, .u16, .ro, .live, 0, 0, 65535, false, false⟩,
  ⟨0x3100, 1, 0x0F, 1, .u32, .rc, .live, 0, 0, 4294967295, false, false⟩,
  ⟨0x3100, 1, 0x10, 1, .u16, .rc, .live, 0, 0, 65535, false, false⟩,
  ⟨0x3100, 1, 0x11, 1, .u32, .rc, .live, 0, 0, 4294967295, false, false⟩,
  ⟨0x3100, 1, 0x12, 1, .bool, .rw, .live, 0, 0, 1, false, true⟩,
  ⟨0x3100, 1, 0x13, 1, .u32, .ro, .live, 0, 0, 4294967295, false, false⟩,
  ⟨0x3100, 1, 0x14, 1, .u32, .rc, .live, 0, 0, 4294967295, false, false⟩,
  ⟨0x3100, 1, 0x15, 1, .u32, .rc, .live, 0, 0, 4294967295, false, false⟩,
  ⟨0x3110, 1, 0x00, 1, .u8, .cst, .const, 16, 0, 255, false, false⟩,
  ⟨0x3110, 1, 0x01, 16, .bits128, .rw, .live, 340282366920938463463374607431768211455, 0, 340282366920938463463374607431768211455, false, true⟩,
  ⟨0x3120, 1, 0x00, 1, .u8, .cst, .const, 7, 0, 255, false, false⟩,
  ⟨0x3120, 1, 0x01, 1, .u16, .ro, .live, 256, 0, 65535, false, false⟩,
  ⟨0x3120, 1, 0x02, 1, .u16, .rc, .live, 256, 0, 65535, false, false⟩,
  ⟨0x3120, 1, 0x03, 1, .u32, .rc, .live, 0, 0, 4294967295, false, false⟩,
  ⟨0x3120, 1, 0x04, 1, .u32, .rc, .live, 0, 0, 4294967295, false, false⟩,
  ⟨0x3120, 1, 0x05, 1, .u32, .rc, .live, 0, 0, 4294967295, false, false⟩]

/-- Object table lines of the indexes 0x3100 to 0x31FF, part 2. -/
def objRows31b : List ObjDesc := [
  ⟨0x3120, 1, 0x06, 1, .domain, .ro, .live, 0, 0, 0, false, false⟩,
  ⟨0x3120, 1, 0x07, 1, .u32, .rc, .live, 0, 0, 4294967295, false, false⟩]

/-- Object table lines of the indexes 0x3400 to 0x34FF, part 1. -/
def objRows34a : List ObjDesc := [
  ⟨0x3400, 1, 0x00, 1, .u8, .cst, .const, 8, 0, 255, false, false⟩,
  ⟨0x3400, 1, 0x01, 1, .u8, .rw, .live, 0, 0, 255, false, true⟩,
  ⟨0x3400, 1, 0x02, 1, .u8, .rw, .halt, 0, 0, 1, false, true⟩,
  ⟨0x3400, 1, 0x03, 1, .u32, .rw, .live, 20000, 5000, 1000000, false, true⟩,
  ⟨0x3400, 1, 0x04, 1, .u16, .rw, .live, 300, 100, 310, false, true⟩,
  ⟨0x3400, 1, 0x05, 1, .u8, .ro, .live, 0, 0, 255, false, false⟩,
  ⟨0x3400, 1, 0x06, 1, .u48, .ro, .live, 0, 0, 281474976710655, false, false⟩,
  ⟨0x3400, 1, 0x07, 1, .u32, .rc, .live, 0, 0, 4294967295, false, false⟩,
  ⟨0x3400, 1, 0x08, 1, .u32, .rc, .live, 0, 0, 4294967295, false, false⟩,
  ⟨0x3410, 8, 0x00, 1, .u8, .cst, .const, 12, 0, 255, false, false⟩,
  ⟨0x3410, 8, 0x01, 1, .u8, .ro, .live, 0, 0, 255, false, false⟩,
  ⟨0x3410, 8, 0x02, 1, .u8, .ro, .live, 0, 0, 255, false, false⟩,
  ⟨0x3410, 8, 0x03, 1, .u32, .rc, .live, 0, 0, 4294967295, false, false⟩,
  ⟨0x3410, 8, 0x04, 1, .u32, .rc, .live, 0, 0, 4294967295, false, false⟩,
  ⟨0x3410, 8, 0x05, 1, .u32, .rc, .live, 0, 0, 4294967295, false, false⟩,
  ⟨0x3410, 8, 0x06, 1, .u32, .rc, .live, 0, 0, 4294967295, false, false⟩,
  ⟨0x3410, 8, 0x07, 1, .u32, .rc, .live, 0, 0, 4294967295, false, false⟩,
  ⟨0x3410, 8, 0x08, 1, .u32, .rc, .live, 0, 0, 4294967295, false, false⟩,
  ⟨0x3410, 8, 0x09, 1, .u32, .rc, .live, 0, 0, 4294967295, false, false⟩,
  ⟨0x3410, 8, 0x0A, 1, .u8, .rw, .halt, 0, 0, 7, false, true⟩,
  ⟨0x3410, 8, 0x0B, 1, .u32, .rc, .live, 0, 0, 4294967295, false, false⟩,
  ⟨0x3410, 8, 0x0C, 1, .u32, .ro, .live, 0, 0, 4294967295, false, false⟩,
  ⟨0x3430, 1, 0x00, 1, .u8, .cst, .const, 15, 0, 255, false, false⟩,
  ⟨0x3430, 1, 0x01, 1, .u8, .ro, .live, 0, 0, 255, false, false⟩,
  ⟨0x3430, 1, 0x02, 1, .u8, .ro, .live, 0, 0, 255, false, false⟩,
  ⟨0x3430, 1, 0x03, 1, .u8, .ro, .live, 0, 0, 255, false, false⟩,
  ⟨0x3430, 1, 0x04, 1, .u8, .ro, .live, 0, 0, 255, false, false⟩,
  ⟨0x3430, 1, 0x05, 1, .u32, .rc, .live, 0, 0, 4294967295, false, false⟩,
  ⟨0x3430, 1, 0x06, 1, .u32, .rc, .live, 0, 0, 4294967295, false, false⟩,
  ⟨0x3430, 1, 0x07, 1, .u32, .rc, .live, 0, 0, 4294967295, false, false⟩]

/-- Object table lines of the indexes 0x3400 to 0x34FF, part 2. -/
def objRows34b : List ObjDesc := [
  ⟨0x3430, 1, 0x08, 1, .u32, .rc, .live, 0, 0, 4294967295, false, false⟩,
  ⟨0x3430, 1, 0x09, 1, .u32, .rc, .live, 0, 0, 4294967295, false, false⟩,
  ⟨0x3430, 1, 0x0A, 1, .u32, .rc, .live, 0, 0, 4294967295, false, false⟩,
  ⟨0x3430, 1, 0x0B, 1, .u32, .rc, .live, 0, 0, 4294967295, false, false⟩,
  ⟨0x3430, 1, 0x0C, 1, .u32, .rc, .live, 0, 0, 4294967295, false, false⟩,
  ⟨0x3430, 1, 0x0D, 1, .u8, .wo, .live, 0, 0, 255, true, false⟩,
  ⟨0x3430, 1, 0x0E, 1, .u8, .rw, .live, 8, 1, 255, false, true⟩,
  ⟨0x3430, 1, 0x0F, 1, .u48, .ro, .live, 0, 0, 281474976710655, false, false⟩]

/-- Object table lines of the indexes 0x3800 to 0x38FF, part 1. -/
def objRows38a : List ObjDesc := [
  ⟨0x3800, 1, 0x00, 1, .u8, .cst, .const, 12, 0, 255, false, false⟩,
  ⟨0x3800, 1, 0x01, 1, .bool, .rw, .live, 1, 0, 1, false, true⟩,
  ⟨0x3800, 1, 0x02, 1, .u8, .ro, .live, 0, 0, 255, false, false⟩,
  ⟨0x3800, 1, 0x03, 1, .u48, .ro, .live, 0, 0, 281474976710655, false, false⟩,
  ⟨0x3800, 1, 0x04, 1, .u64, .ro, .live, 0, 0, 18446744073709551615, false, false⟩,
  ⟨0x3800, 1, 0x05, 1, .u64, .ro, .live, 0, 0, 18446744073709551615, false, false⟩,
  ⟨0x3800, 1, 0x06, 1, .u32, .rc, .live, 0, 0, 4294967295, false, false⟩,
  ⟨0x3800, 1, 0x07, 1, .u32, .rc, .live, 0, 0, 4294967295, false, false⟩,
  ⟨0x3800, 1, 0x08, 1, .u16, .ro, .live, 0, 0, 65535, false, false⟩,
  ⟨0x3800, 1, 0x09, 1, .u32, .rc, .live, 0, 0, 4294967295, false, false⟩,
  ⟨0x3800, 1, 0x0A, 1, .u32, .rc, .live, 0, 0, 4294967295, false, false⟩,
  ⟨0x3800, 1, 0x0B, 1, .u8, .rc, .live, 0, 0, 255, false, false⟩,
  ⟨0x3800, 1, 0x0C, 1, .u32, .rc, .live, 0, 0, 4294967295, false, false⟩,
  ⟨0x3810, 1, 0x00, 1, .u8, .cst, .const, 4, 0, 255, false, false⟩,
  ⟨0x3810, 1, 0x01, 4, .u32, .rc, .live, 0, 0, 4294967295, false, false⟩,
  ⟨0x3820, 1, 0x00, 1, .u8, .cst, .const, 3, 0, 255, false, false⟩,
  ⟨0x3820, 1, 0x01, 1, .domain, .ro, .live, 0, 0, 0, false, false⟩,
  ⟨0x3820, 1, 0x02, 1, .u32, .ro, .live, 0, 0, 4294967295, false, false⟩,
  ⟨0x3820, 1, 0x03, 1, .bool, .rw, .live, 0, 0, 1, false, true⟩,
  ⟨0x3830, 1, 0x00, 1, .u8, .cst, .const, 39, 0, 255, false, false⟩,
  ⟨0x3830, 1, 0x01, 39, .u32, .ro, .live, 4294967295, 0, 4294967295, false, false⟩,
  ⟨0x3840, 1, 0x00, 1, .u8, .cst, .const, 5, 0, 255, false, false⟩,
  ⟨0x3840, 1, 0x01, 1, .u32, .rc, .live, 0, 0, 4294967295, false, false⟩,
  ⟨0x3840, 1, 0x02, 1, .u32, .rc, .live, 0, 0, 4294967295, false, false⟩,
  ⟨0x3840, 1, 0x03, 1, .u8, .ro, .live, 0, 0, 255, false, false⟩,
  ⟨0x3840, 1, 0x04, 1, .u8, .ro, .live, 0, 0, 255, false, false⟩,
  ⟨0x3840, 1, 0x05, 1, .u64, .ro, .live, 0, 0, 18446744073709551615, false, false⟩,
  ⟨0x3850, 1, 0x00, 1, .u8, .cst, .const, 4, 0, 255, false, false⟩,
  ⟨0x3850, 1, 0x01, 1, .u8, .rw, .live, 4, 4, 15, false, false⟩,
  ⟨0x3850, 1, 0x02, 1, .bool, .rw, .live, 1, 0, 1, false, false⟩]

/-- Object table lines of the indexes 0x3800 to 0x38FF, part 2. -/
def objRows38b : List ObjDesc := [
  ⟨0x3850, 1, 0x03, 1, .domain, .rw, .live, 0, 0, 0, false, false⟩,
  ⟨0x3850, 1, 0x04, 1, .u16, .ro, .live, 0, 0, 65535, false, false⟩]

/-- Object table lines of the indexes 0x4000 to 0x40FF. -/
def objRows40 : List ObjDesc := [
  ⟨0x4000, 1, 0x00, 1, .u8, .cst, .const, 4, 0, 255, false, false⟩,
  ⟨0x4000, 1, 0x01, 1, .u8, .ro, .live, 0, 0, 255, false, false⟩,
  ⟨0x4000, 1, 0x02, 1, .u8, .rw, .live, 0, 0, 3, false, true⟩,
  ⟨0x4000, 1, 0x03, 1, .u8, .rw, .live, 2, 1, 2, false, true⟩,
  ⟨0x4000, 1, 0x04, 1, .u32, .rc, .live, 0, 0, 4294967295, false, false⟩,
  ⟨0x4010, 25, 0x00, 1, .u8, .cst, .const, 23, 0, 255, false, false⟩,
  ⟨0x4010, 25, 0x01, 1, .u8, .cst, .const, 0, 0, 255, false, false⟩,
  ⟨0x4010, 25, 0x02, 1, .u8, .ro, .live, 2, 0, 255, false, false⟩,
  ⟨0x4010, 25, 0x03, 1, .u8, .rw, .live, 0, 0, 2, false, false⟩,
  ⟨0x4010, 25, 0x04, 1, .u8, .ro, .live, 0, 0, 255, false, false⟩,
  ⟨0x4010, 25, 0x05, 1, .u8, .ro, .live, 255, 0, 255, false, false⟩,
  ⟨0x4010, 25, 0x06, 1, .u16, .ro, .live, 0, 0, 65535, false, false⟩,
  ⟨0x4010, 25, 0x07, 1, .bool, .rw, .halt, 0, 0, 1, false, true⟩,
  ⟨0x4010, 25, 0x08, 1, .u8, .rw, .live, 10, 0, 15, false, true⟩,
  ⟨0x4010, 25, 0x09, 1, .u8, .rw, .live, 1, 0, 7, false, true⟩,
  ⟨0x4010, 25, 0x0A, 1, .u8, .rw, .live, 6, 0, 15, false, true⟩,
  ⟨0x4010, 25, 0x0B, 1, .u8, .rw, .live, 8, 0, 15, false, true⟩,
  ⟨0x4010, 25, 0x0C, 1, .u8, .ro, .live, 0, 0, 255, false, false⟩,
  ⟨0x4010, 25, 0x0D, 1, .u32, .rc, .live, 0, 0, 4294967295, false, false⟩,
  ⟨0x4010, 25, 0x0E, 1, .u8, .ro, .live, 0, 0, 255, false, false⟩,
  ⟨0x4010, 25, 0x0F, 1, .u8, .wo, .live, 0, 0, 255, false, false⟩,
  ⟨0x4010, 25, 0x10, 1, .u32, .rc, .live, 0, 0, 4294967295, false, false⟩,
  ⟨0x4010, 25, 0x11, 1, .u32, .rc, .live, 0, 0, 4294967295, false, false⟩,
  ⟨0x4010, 25, 0x12, 1, .u32, .rc, .live, 0, 0, 4294967295, false, false⟩,
  ⟨0x4010, 25, 0x13, 1, .u32, .rc, .live, 0, 0, 4294967295, false, false⟩,
  ⟨0x4010, 25, 0x14, 1, .u8, .rw, .live, 0, 0, 2, true, false⟩,
  ⟨0x4010, 25, 0x15, 1, .u32, .rc, .live, 0, 0, 4294967295, false, false⟩,
  ⟨0x4010, 25, 0x16, 1, .u64, .rc, .live, 0, 0, 18446744073709551615, false, false⟩,
  ⟨0x4010, 25, 0x17, 1, .u32, .ro, .live, 0, 0, 4294967295, false, false⟩]

/-- Object table lines of the indexes 0x4400 to 0x44FF, part 1. -/
def objRows44a : List ObjDesc := [
  ⟨0x4400, 1, 0x00, 1, .u8, .cst, .const, 35, 0, 255, false, false⟩,
  ⟨0x4400, 1, 0x01, 1, .u8, .ro, .live, 0, 0, 255, false, false⟩,
  ⟨0x4400, 1, 0x02, 1, .u8, .ro, .live, 0, 0, 255, false, false⟩,
  ⟨0x4400, 1, 0x03, 1, .u8, .ro, .live, 0, 0, 255, false, false⟩,
  ⟨0x4400, 1, 0x04, 1, .u8, .ro, .live, 3, 0, 255, false, false⟩,
  ⟨0x4400, 1, 0x05, 1, .u8, .rw, .live, 255, 0, 255, false, true⟩,
  ⟨0x4400, 1, 0x06, 1, .u8, .ro, .live, 0, 0, 255, false, false⟩,
  ⟨0x4400, 1, 0x07, 1, .u16, .rw, .live, 1024, 64, 1024, false, true⟩,
  ⟨0x4400, 1, 0x08, 1, .u16, .rw, .live, 200, 100, 2000, false, true⟩,
  ⟨0x4400, 1, 0x09, 1, .u16, .rw, .live, 2000, 500, 20000, false, true⟩,
  ⟨0x4400, 1, 0x0A, 1, .u32, .rw, .live, 20000, 2000, 1000000, false, true⟩,
  ⟨0x4400, 1, 0x0B, 1, .u16, .rw, .live, 1000, 200, 2000, false, true⟩,
  ⟨0x4400, 1, 0x0C, 1, .u32, .rw, .live, 1000, 100, 100000, false, true⟩,
  ⟨0x4400, 1, 0x0D, 1, .u16, .ro, .live, 0, 0, 65535, false, false⟩,
  ⟨0x4400, 1, 0x0E, 1, .u16, .ro, .live, 0, 0, 65535, false, false⟩,
  ⟨0x4400, 1, 0x0F, 1, .u16, .ro, .live, 0, 0, 65535, false, false⟩,
  ⟨0x4400, 1, 0x10, 1, .u16, .ro, .live, 0, 0, 65535, false, false⟩,
  ⟨0x4400, 1, 0x11, 1, .u48, .ro, .live, 0, 0, 281474976710655, false, false⟩,
  ⟨0x4400, 1, 0x12, 1, .u48, .ro, .live, 0, 0, 281474976710655, false, false⟩,
  ⟨0x4400, 1, 0x13, 1, .u32, .rc, .live, 0, 0, 4294967295, false, false⟩,
  ⟨0x4400, 1, 0x14, 1, .u32, .rc, .live, 0, 0, 4294967295, false, false⟩,
  ⟨0x4400, 1, 0x15, 1, .u32, .rc, .live, 0, 0, 4294967295, false, false⟩,
  ⟨0x4400, 1, 0x16, 1, .u32, .rc, .live, 0, 0, 4294967295, false, false⟩,
  ⟨0x4400, 1, 0x17, 1, .u32, .rc, .live, 0, 0, 4294967295, false, false⟩,
  ⟨0x4400, 1, 0x18, 1, .u32, .rc, .live, 0, 0, 4294967295, false, false⟩,
  ⟨0x4400, 1, 0x19, 1, .u32, .rc, .live, 0, 0, 4294967295, false, false⟩,
  ⟨0x4400, 1, 0x1A, 1, .u32, .rc, .live, 0, 0, 4294967295, false, false⟩,
  ⟨0x4400, 1, 0x1B, 1, .u32, .rc, .live, 0, 0, 4294967295, false, false⟩,
  ⟨0x4400, 1, 0x1C, 1, .u32, .ro, .live, 0, 0, 4294967295, false, false⟩,
  ⟨0x4400, 1, 0x1D, 1, .u32, .rc, .live, 0, 0, 4294967295, false, false⟩]

/-- Object table lines of the indexes 0x4400 to 0x44FF, part 2. -/
def objRows44b : List ObjDesc := [
  ⟨0x4400, 1, 0x1E, 1, .u32, .rc, .live, 0, 0, 4294967295, false, false⟩,
  ⟨0x4400, 1, 0x1F, 1, .u32, .rc, .live, 0, 0, 4294967295, false, false⟩,
  ⟨0x4400, 1, 0x20, 1, .u32, .rc, .live, 0, 0, 4294967295, false, false⟩,
  ⟨0x4400, 1, 0x21, 1, .u32, .rc, .live, 0, 0, 4294967295, false, false⟩,
  ⟨0x4400, 1, 0x22, 1, .u32, .rc, .live, 0, 0, 4294967295, false, false⟩,
  ⟨0x4400, 1, 0x23, 1, .u32, .rc, .live, 0, 0, 4294967295, false, false⟩,
  ⟨0x4410, 1, 0x00, 1, .u8, .cst, .const, 6, 0, 255, false, false⟩,
  ⟨0x4410, 1, 0x01, 1, .u8, .ro, .live, 0, 0, 255, false, false⟩,
  ⟨0x4410, 1, 0x02, 1, .u32, .rc, .live, 0, 0, 4294967295, false, false⟩,
  ⟨0x4410, 1, 0x03, 1, .u32, .rc, .live, 0, 0, 4294967295, false, false⟩,
  ⟨0x4410, 1, 0x04, 1, .u32, .rc, .live, 0, 0, 4294967295, false, false⟩,
  ⟨0x4410, 1, 0x05, 1, .u32, .rc, .live, 0, 0, 4294967295, false, false⟩,
  ⟨0x4410, 1, 0x06, 1, .u48, .ro, .live, 0, 0, 281474976710655, false, false⟩,
  ⟨0x4420, 8, 0x00, 1, .u8, .cst, .const, 8, 0, 255, false, false⟩,
  ⟨0x4420, 8, 0x01, 1, .u8, .ro, .live, 0, 0, 255, false, false⟩,
  ⟨0x4420, 8, 0x02, 1, .u8, .ro, .live, 0, 0, 255, false, false⟩,
  ⟨0x4420, 8, 0x03, 1, .u16, .ro, .live, 0, 0, 65535, false, false⟩,
  ⟨0x4420, 8, 0x04, 1, .u16, .ro, .live, 0, 0, 65535, false, false⟩,
  ⟨0x4420, 8, 0x05, 1, .u32, .rc, .live, 0, 0, 4294967295, false, false⟩,
  ⟨0x4420, 8, 0x06, 1, .u32, .rc, .live, 0, 0, 4294967295, false, false⟩,
  ⟨0x4420, 8, 0x07, 1, .u32, .rc, .live, 0, 0, 4294967295, false, false⟩,
  ⟨0x4420, 8, 0x08, 1, .u32, .rc, .live, 0, 0, 4294967295, false, false⟩,
  ⟨0x4431, 7, 0x00, 1, .u8, .cst, .const, 4, 0, 255, false, false⟩,
  ⟨0x4431, 7, 0x01, 1, .u16, .ro, .live, 0, 0, 65535, false, false⟩,
  ⟨0x4431, 7, 0x02, 1, .u16, .ro, .live, 0, 0, 65535, false, false⟩,
  ⟨0x4431, 7, 0x03, 1, .u32, .rc, .live, 0, 0, 4294967295, false, false⟩,
  ⟨0x4431, 7, 0x04, 1, .u48, .ro, .live, 0, 0, 281474976710655, false, false⟩]

/-- Object table lines of the indexes 0x5000 to 0x50FF. -/
def objRows50 : List ObjDesc := [
  ⟨0x5000, 1, 0x00, 1, .u8, .cst, .const, 6, 0, 255, false, false⟩,
  ⟨0x5000, 1, 0x01, 1, .u32, .rw, .live, 10000, 1000, 1000000000, false, true⟩,
  ⟨0x5000, 1, 0x02, 1, .u16, .rw, .live, 64, 1, 4095, true, true⟩,
  ⟨0x5000, 1, 0x03, 1, .u8, .rw, .live, 16, 1, 255, true, true⟩,
  ⟨0x5000, 1, 0x04, 1, .u32, .rw, .live, 60000, 1000, 3600000, false, true⟩,
  ⟨0x5000, 1, 0x05, 1, .u8, .wo, .live, 0, 0, 255, true, false⟩,
  ⟨0x5000, 1, 0x06, 1, .u8, .ro, .live, 0, 0, 255, false, false⟩,
  ⟨0x5010, 3, 0x00, 1, .u8, .cst, .const, 19, 0, 255, false, false⟩,
  ⟨0x5010, 3, 0x01, 1, .u8, .ro, .live, 0, 0, 255, false, false⟩,
  ⟨0x5010, 3, 0x02, 1, .u8, .ro, .live, 255, 0, 255, false, false⟩,
  ⟨0x5010, 3, 0x03, 1, .i16, .ro, .live, 0, (-32768), 32767, false, false⟩,
  ⟨0x5010, 3, 0x04, 1, .u32, .ro, .live, 0, 0, 4294967295, false, false⟩,
  ⟨0x5010, 3, 0x05, 6, .u32, .rc, .live, 0, 0, 4294967295, false, false⟩,
  ⟨0x5010, 3, 0x0B, 1, .u32, .rc, .live, 0, 0, 4294967295, false, false⟩,
  ⟨0x5010, 3, 0x0C, 1, .u32, .ro, .live, 0, 0, 4294967295, false, false⟩,
  ⟨0x5010, 3, 0x0D, 1, .u8, .ro, .live, 0, 0, 255, false, false⟩,
  ⟨0x5010, 3, 0x0E, 1, .u48, .ro, .live, 0, 0, 281474976710655, false, false⟩,
  ⟨0x5010, 3, 0x0F, 1, .domain, .ro, .live, 0, 0, 0, false, false⟩,
  ⟨0x5010, 3, 0x10, 1, .u8, .ro, .live, 0, 0, 255, false, false⟩,
  ⟨0x5010, 3, 0x11, 1, .u32, .rc, .live, 0, 0, 4294967295, false, false⟩,
  ⟨0x5010, 3, 0x12, 1, .u64, .ro, .live, 0, 0, 18446744073709551615, false, false⟩,
  ⟨0x5010, 3, 0x13, 1, .u64, .ro, .live, 0, 0, 18446744073709551615, false, false⟩]

/-- Object table lines of the indexes 0x5100 to 0x51FF, part 1. -/
def objRows51a : List ObjDesc := [
  ⟨0x5100, 1, 0x00, 1, .u8, .cst, .const, 11, 0, 255, false, false⟩,
  ⟨0x5100, 1, 0x01, 1, .u32, .rc, .live, 0, 0, 4294967295, false, false⟩,
  ⟨0x5100, 1, 0x02, 1, .u32, .rc, .live, 0, 0, 4294967295, false, false⟩,
  ⟨0x5100, 1, 0x03, 1, .u32, .ro, .live, 0, 0, 4294967295, false, false⟩,
  ⟨0x5100, 1, 0x04, 1, .u32, .rc, .live, 0, 0, 4294967295, false, false⟩,
  ⟨0x5100, 1, 0x05, 1, .u16, .rc, .live, 0, 0, 65535, false, false⟩,
  ⟨0x5100, 1, 0x06, 1, .u8, .ro, .live, 0, 0, 255, false, false⟩,
  ⟨0x5100, 1, 0x07, 1, .u8, .ro, .live, 0, 0, 255, false, false⟩,
  ⟨0x5100, 1, 0x08, 1, .u8, .ro, .live, 0, 0, 255, false, false⟩,
  ⟨0x5100, 1, 0x09, 1, .u16, .ro, .live, 0, 0, 65535, false, false⟩,
  ⟨0x5100, 1, 0x0A, 1, .u32, .rc, .live, 0, 0, 4294967295, false, false⟩,
  ⟨0x5100, 1, 0x0B, 1, .u32, .rc, .live, 0, 0, 4294967295, false, false⟩,
  ⟨0x5110, 1, 0x00, 1, .u8, .cst, .const, 6, 0, 255, false, false⟩,
  ⟨0x5110, 1, 0x01, 1, .u8, .wo, .live, 0, 0, 255, false, false⟩,
  ⟨0x5110, 1, 0x02, 1, .u32, .rw, .halt, 5767168, 0, 4294967295, false, false⟩,
  ⟨0x5110, 1, 0x03, 1, .u32, .rw, .halt, 65536, 0, 4294967295, false, false⟩,
  ⟨0x5110, 1, 0x04, 1, .u8, .ro, .live, 0, 0, 255, false, false⟩,
  ⟨0x5110, 1, 0x05, 1, .u32, .ro, .live, 0, 0, 4294967295, false, false⟩,
  ⟨0x5110, 1, 0x06, 1, .u32, .ro, .live, 0, 0, 4294967295, false, false⟩,
  ⟨0x5140, 1, 0x00, 1, .u8, .cst, .const, 11, 0, 255, false, false⟩,
  ⟨0x5140, 1, 0x01, 1, .u8, .rw, .halt, 3, 0, 3, false, false⟩,
  ⟨0x5140, 1, 0x02, 1, .u32, .rw, .halt, 0, 0, 4294967295, false, false⟩,
  ⟨0x5140, 1, 0x03, 1, .u32, .rw, .halt, 6291456, 0, 4294967295, false, false⟩,
  ⟨0x5140, 1, 0x04, 1, .u8, .wo, .live, 0, 0, 255, false, false⟩,
  ⟨0x5140, 1, 0x05, 1, .u8, .ro, .live, 0, 0, 255, false, false⟩,
  ⟨0x5140, 1, 0x06, 1, .u32, .ro, .live, 0, 0, 4294967295, false, false⟩,
  ⟨0x5140, 1, 0x07, 1, .u32, .ro, .live, 0, 0, 4294967295, false, false⟩,
  ⟨0x5140, 1, 0x08, 1, .u32, .ro, .live, 0, 0, 4294967295, false, false⟩,
  ⟨0x5140, 1, 0x09, 1, .u32, .ro, .live, 4294967295, 0, 4294967295, false, false⟩,
  ⟨0x5140, 1, 0x0A, 1, .u32, .ro, .live, 0, 0, 4294967295, false, false⟩]

/-- Object table lines of the indexes 0x5100 to 0x51FF, part 2. -/
def objRows51b : List ObjDesc := [
  ⟨0x5140, 1, 0x0B, 1, .u32, .ro, .live, 0, 0, 4294967295, false, false⟩]

/-- Object table lines of the indexes 0x5400 to 0x54FF, part 1. -/
def objRows54a : List ObjDesc := [
  ⟨0x5400, 1, 0x00, 1, .u8, .cst, .const, 13, 0, 255, false, false⟩,
  ⟨0x5400, 1, 0x01, 1, .u8, .ro, .live, 0, 0, 255, false, false⟩,
  ⟨0x5400, 1, 0x02, 1, .u8, .ro, .live, 0, 0, 255, false, false⟩,
  ⟨0x5400, 1, 0x03, 1, .q16, .ro, .live, 0, 0, 4294967295, false, false⟩,
  ⟨0x5400, 1, 0x04, 1, .u16, .ro, .live, 0, 0, 65535, false, false⟩,
  ⟨0x5400, 1, 0x05, 1, .u32, .rc, .live, 0, 0, 4294967295, false, false⟩,
  ⟨0x5400, 1, 0x06, 1, .u8, .ro, .live, 0, 0, 255, false, false⟩,
  ⟨0x5400, 1, 0x07, 1, .u32, .ro, .live, 0, 0, 4294967295, false, false⟩,
  ⟨0x5400, 1, 0x08, 1, .u32, .ro, .live, 0, 0, 4294967295, false, false⟩,
  ⟨0x5400, 1, 0x09, 1, .u32, .rc, .live, 0, 0, 4294967295, false, false⟩,
  ⟨0x5400, 1, 0x0A, 1, .u48, .ro, .live, 0, 0, 281474976710655, false, false⟩,
  ⟨0x5400, 1, 0x0B, 1, .u32, .rc, .live, 0, 0, 4294967295, false, false⟩,
  ⟨0x5400, 1, 0x0C, 1, .u16, .rw, .live, 16, 4, 1024, false, true⟩,
  ⟨0x5400, 1, 0x0D, 1, .u32, .rw, .live, 50000000, 45000000, 55000000, false, true⟩,
  ⟨0x5410, 1, 0x00, 1, .u8, .cst, .const, 4, 0, 255, false, false⟩,
  ⟨0x5410, 1, 0x01, 1, .u32, .rw, .live, 0, 0, 4294967295, true, false⟩,
  ⟨0x5410, 1, 0x02, 1, .u32, .ro, .live, 0, 0, 4294967295, false, false⟩,
  ⟨0x5410, 1, 0x03, 1, .u32, .rc, .live, 0, 0, 4294967295, false, false⟩,
  ⟨0x5410, 1, 0x04, 1, .u8, .ro, .live, 255, 0, 255, false, false⟩,
  ⟨0x5420, 1, 0x00, 1, .u8, .cst, .const, 15, 0, 255, false, false⟩,
  ⟨0x5420, 1, 0x01, 1, .u48, .ro, .live, 0, 0, 281474976710655, false, false⟩,
  ⟨0x5420, 1, 0x02, 1, .u8, .ro, .live, 0, 0, 255, false, false⟩,
  ⟨0x5420, 1, 0x03, 1, .u16, .rw, .shadow, 4096, 1024, 65535, false, true⟩,
  ⟨0x5420, 1, 0x04, 1, .u32, .rc, .live, 0, 0, 4294967295, false, false⟩,
  ⟨0x5420, 1, 0x05, 1, .i32, .ro, .live, 0, (-2147483648), 2147483647, false, false⟩,
  ⟨0x5420, 1, 0x06, 1, .u32, .ro, .live, 0, 0, 4294967295, false, false⟩,
  ⟨0x5420, 1, 0x07, 1, .u48, .ro, .live, 0, 0, 281474976710655, false, false⟩,
  ⟨0x5420, 1, 0x08, 1, .u48, .ro, .live, 0, 0, 281474976710655, false, false⟩,
  ⟨0x5420, 1, 0x09, 1, .i32, .rw, .live, 30000, (-100000), 200000, false, true⟩,
  ⟨0x5420, 1, 0x0A, 1, .i32, .ro, .live, 0, (-2147483648), 2147483647, false, false⟩]

/-- Object table lines of the indexes 0x5400 to 0x54FF, part 2. -/
def objRows54b : List ObjDesc := [
  ⟨0x5420, 1, 0x0B, 1, .u32, .rc, .live, 0, 0, 4294967295, false, false⟩,
  ⟨0x5420, 1, 0x0C, 1, .u32, .ro, .live, 0, 0, 4294967295, false, false⟩,
  ⟨0x5420, 1, 0x0D, 1, .u48, .ro, .live, 0, 0, 281474976710655, false, false⟩,
  ⟨0x5420, 1, 0x0E, 1, .u32, .rc, .live, 0, 0, 4294967295, false, false⟩,
  ⟨0x5420, 1, 0x0F, 1, .u32, .rc, .live, 0, 0, 4294967295, false, false⟩,
  ⟨0x5440, 1, 0x00, 1, .u8, .cst, .const, 17, 0, 255, false, false⟩,
  ⟨0x5440, 1, 0x01, 1, .u8, .ro, .live, 0, 0, 255, false, false⟩,
  ⟨0x5440, 1, 0x02, 1, .u64, .ro, .live, 0, 0, 18446744073709551615, false, false⟩,
  ⟨0x5440, 1, 0x03, 1, .u32, .ro, .live, 0, 0, 4294967295, false, false⟩,
  ⟨0x5440, 1, 0x04, 1, .q32, .rw, .live, 85899345920, 68719476736, 103079215104, false, true⟩,
  ⟨0x5440, 1, 0x05, 1, .i32, .ro, .live, 0, (-2147483648), 2147483647, false, false⟩,
  ⟨0x5440, 1, 0x06, 1, .u32, .rw, .live, 10000, 100, 1000000000, false, true⟩,
  ⟨0x5440, 1, 0x07, 1, .u16, .rw, .live, 1000, 1, 1000, false, true⟩,
  ⟨0x5440, 1, 0x08, 1, .u32, .rw, .live, 100, 1, 60000, false, true⟩,
  ⟨0x5440, 1, 0x09, 1, .u8, .rw, .live, 2, 0, 8, false, true⟩,
  ⟨0x5440, 1, 0x0A, 1, .u16, .ro, .live, 65535, 0, 65535, false, false⟩,
  ⟨0x5440, 1, 0x0B, 1, .i32, .ro, .live, 0, (-2147483648), 2147483647, false, false⟩,
  ⟨0x5440, 1, 0x0C, 1, .u32, .rc, .live, 0, 0, 4294967295, false, false⟩,
  ⟨0x5440, 1, 0x0D, 1, .u32, .rc, .live, 0, 0, 4294967295, false, false⟩,
  ⟨0x5440, 1, 0x0E, 1, .u32, .rc, .live, 0, 0, 4294967295, false, false⟩,
  ⟨0x5440, 1, 0x0F, 1, .u32, .rc, .live, 0, 0, 4294967295, false, false⟩,
  ⟨0x5440, 1, 0x10, 1, .u32, .rc, .live, 0, 0, 4294967295, false, false⟩,
  ⟨0x5440, 1, 0x11, 1, .u64, .wo, .live, 0, 0, 18446744073709551615, true, false⟩,
  ⟨0x54C0, 1, 0x00, 1, .u8, .cst, .const, 2, 0, 255, false, false⟩,
  ⟨0x54C0, 1, 0x01, 1, .domain, .ro, .live, 0, 0, 0, false, false⟩,
  ⟨0x54C0, 1, 0x02, 1, .u32, .ro, .live, 0, 0, 4294967295, false, false⟩,
  ⟨0x5480, 8, 0x00, 1, .u8, .cst, .const, 8, 0, 255, false, false⟩,
  ⟨0x5480, 8, 0x01, 1, .u64, .rw, .live, 0, 0, 18446744073709551615, false, false⟩,
  ⟨0x5480, 8, 0x02, 1, .u64, .rw, .live, 0, 0, 18446744073709551615, false, true⟩,
  ⟨0x5480, 8, 0x03, 1, .u8, .rw, .live, 0, 0, 255, false, true⟩]

/-- Object table lines of the indexes 0x5400 to 0x54FF, part 3. -/
def objRows54c : List ObjDesc := [
  ⟨0x5480, 8, 0x04, 1, .u8, .wo, .live, 0, 0, 255, false, false⟩,
  ⟨0x5480, 8, 0x05, 1, .u8, .ro, .live, 0, 0, 255, false, false⟩,
  ⟨0x5480, 8, 0x06, 1, .u32, .ro, .live, 0, 0, 4294967295, false, false⟩,
  ⟨0x5480, 8, 0x07, 1, .u32, .rc, .live, 0, 0, 4294967295, false, false⟩,
  ⟨0x5480, 8, 0x08, 1, .u48, .ro, .live, 0, 0, 281474976710655, false, false⟩]

/-- Object table lines of the indexes 0x6000 to 0x60FF, part 1. -/
def objRows60a : List ObjDesc := [
  ⟨0x6000, 1, 0x00, 1, .u8, .cst, .const, 26, 0, 255, false, false⟩,
  ⟨0x6000, 1, 0x01, 1, .u8, .wo, .live, 0, 0, 255, false, false⟩,
  ⟨0x6000, 1, 0x02, 1, .u8, .ro, .live, 0, 0, 255, false, false⟩,
  ⟨0x6000, 1, 0x03, 1, .u8, .rw, .halt, 1, 1, 32, false, true⟩,
  ⟨0x6000, 1, 0x04, 1, .bool, .rw, .halt, 0, 0, 1, false, true⟩,
  ⟨0x6000, 1, 0x05, 1, .u8, .rw, .halt, 0, 0, 1, false, true⟩,
  ⟨0x6000, 1, 0x06, 1, .u8, .rw, .halt, 0, 0, 1, false, true⟩,
  ⟨0x6000, 1, 0x07, 1, .u32, .rw, .live, 64, 1, 524287, false, true⟩,
  ⟨0x6000, 1, 0x08, 1, .u64, .ro, .live, 0, 0, 18446744073709551615, false, false⟩,
  ⟨0x6000, 1, 0x09, 1, .bool, .rw, .live, 0, 0, 1, false, true⟩,
  ⟨0x6000, 1, 0x0A, 1, .u64, .rw, .live, 1160328381792256, 0, 18446744073709551615, false, true⟩,
  ⟨0x6000, 1, 0x0B, 1, .u8, .ro, .live, 0, 0, 255, false, false⟩,
  ⟨0x6000, 1, 0x0C, 1, .u32, .ro, .live, 0, 0, 4294967295, false, false⟩,
  ⟨0x6000, 1, 0x0D, 1, .u32, .rc, .live, 0, 0, 4294967295, false, false⟩,
  ⟨0x6000, 1, 0x0E, 1, .u32, .rc, .live, 0, 0, 4294967295, false, false⟩,
  ⟨0x6000, 1, 0x0F, 1, .u32, .rc, .live, 0, 0, 4294967295, false, false⟩,
  ⟨0x6000, 1, 0x10, 1, .u32, .rc, .live, 0, 0, 4294967295, false, false⟩,
  ⟨0x6000, 1, 0x11, 1, .bool, .ro, .live, 0, 0, 1, false, false⟩,
  ⟨0x6000, 1, 0x12, 1, .u32, .rc, .live, 0, 0, 4294967295, false, false⟩,
  ⟨0x6000, 1, 0x13, 1, .u32, .rc, .live, 0, 0, 4294967295, false, false⟩,
  ⟨0x6000, 1, 0x14, 1, .u32, .ro, .live, 0, 0, 4294967295, false, false⟩,
  ⟨0x6000, 1, 0x15, 1, .u32, .rc, .live, 0, 0, 4294967295, false, false⟩,
  ⟨0x6000, 1, 0x16, 1, .u32, .rc, .live, 0, 0, 4294967295, false, false⟩,
  ⟨0x6000, 1, 0x17, 1, .u8, .ro, .live, 0, 0, 255, false, false⟩,
  ⟨0x6000, 1, 0x18, 1, .domain, .ro, .live, 0, 0, 0, false, false⟩,
  ⟨0x6000, 1, 0x19, 1, .u48, .ro, .live, 0, 0, 281474976710655, false, false⟩,
  ⟨0x6000, 1, 0x1A, 1, .u32, .rc, .live, 0, 0, 4294967295, false, false⟩,
  ⟨0x6010, 1, 0x00, 1, .u8, .cst, .const, 32, 0, 255, false, false⟩,
  ⟨0x6010, 1, 0x01, 32, .u64, .rw, .halt, 1160328381792256, 0, 18446744073709551615, false, true⟩,
  ⟨0x6020, 1, 0x00, 1, .u8, .cst, .const, 33, 0, 255, false, false⟩]

/-- Object table lines of the indexes 0x6000 to 0x60FF, part 2. -/
def objRows60b : List ObjDesc := [
  ⟨0x6020, 1, 0x01, 32, .u8, .ro, .live, 0, 0, 255, false, false⟩,
  ⟨0x6020, 1, 0x21, 1, .u8, .ro, .live, 0, 0, 255, false, false⟩]

/-- Object table lines of the indexes 0x7000 to 0x70FF, part 1. -/
def objRows70a : List ObjDesc := [
  ⟨0x7000, 1, 0x00, 1, .u8, .cst, .const, 14, 0, 255, false, false⟩,
  ⟨0x7000, 1, 0x01, 1, .u8, .ro, .live, 1, 0, 255, false, false⟩,
  ⟨0x7000, 1, 0x02, 1, .u16, .ro, .live, 0, 0, 65535, false, false⟩,
  ⟨0x7000, 1, 0x03, 1, .u8, .ro, .live, 0, 0, 255, false, false⟩,
  ⟨0x7000, 1, 0x04, 1, .bool, .rw, .live, 1, 0, 1, false, true⟩,
  ⟨0x7000, 1, 0x05, 1, .u32, .rc, .live, 0, 0, 4294967295, false, false⟩,
  ⟨0x7000, 1, 0x06, 1, .u16, .rc, .live, 0, 0, 65535, false, false⟩,
  ⟨0x7000, 1, 0x07, 1, .bool, .rw, .live, 0, 0, 1, false, true⟩,
  ⟨0x7000, 1, 0x08, 1, .bool, .rw, .live, 1, 0, 1, false, true⟩,
  ⟨0x7000, 1, 0x09, 1, .u32, .rw, .live, 100, 1, 10000, false, true⟩,
  ⟨0x7000, 1, 0x0A, 1, .u16, .ro, .live, 0, 0, 65535, false, false⟩,
  ⟨0x7000, 1, 0x0B, 1, .u32, .ro, .live, 0, 0, 4294967295, false, false⟩,
  ⟨0x7000, 1, 0x0C, 1, .domain, .ro, .live, 0, 0, 0, false, false⟩,
  ⟨0x7000, 1, 0x0D, 1, .u16, .ro, .live, 0, 0, 65535, false, false⟩,
  ⟨0x7000, 1, 0x0E, 1, .bool, .rc, .live, 0, 0, 1, false, false⟩,
  ⟨0x7010, 1, 0x00, 1, .u8, .cst, .const, 7, 0, 255, false, false⟩,
  ⟨0x7010, 1, 0x01, 1, .u8, .ro, .live, 0, 0, 255, false, false⟩,
  ⟨0x7010, 1, 0x02, 1, .u32, .ro, .live, 0, 0, 4294967295, false, false⟩,
  ⟨0x7010, 1, 0x03, 1, .u32, .ro, .live, 0, 0, 4294967295, false, false⟩,
  ⟨0x7010, 1, 0x04, 1, .u8, .ro, .live, 0, 0, 255, false, false⟩,
  ⟨0x7010, 1, 0x05, 1, .u16, .rw, .live, 100, 10, 1000, false, true⟩,
  ⟨0x7010, 1, 0x06, 1, .u8, .ro, .live, 0, 0, 255, false, false⟩,
  ⟨0x7010, 1, 0x07, 1, .u8, .ro, .live, 0, 0, 255, false, false⟩,
  ⟨0x7020, 1, 0x00, 1, .u8, .cst, .const, 5, 0, 255, false, false⟩,
  ⟨0x7020, 1, 0x01, 1, .u32, .rw, .live, 60, 1, 86400, false, true⟩,
  ⟨0x7020, 1, 0x02, 1, .u8, .rw, .live, 3, 0, 15, false, true⟩,
  ⟨0x7020, 1, 0x03, 1, .u32, .rw, .live, 3600, 60, 604800, false, true⟩,
  ⟨0x7020, 1, 0x04, 1, .bool, .rw, .live, 0, 0, 1, false, true⟩,
  ⟨0x7020, 1, 0x05, 1, .u32, .ro, .live, 0, 0, 4294967295, false, false⟩,
  ⟨0x7040, 10, 0x00, 1, .u8, .cst, .const, 2, 0, 255, false, false⟩]

/-- Object table lines of the indexes 0x7000 to 0x70FF, part 2. -/
def objRows70b : List ObjDesc := [
  ⟨0x7040, 10, 0x01, 1, .u32, .rw, .live, 0, 0, 4294967295, false, true⟩,
  ⟨0x7040, 10, 0x02, 1, .u32, .ro, .live, 0, 0, 4294967295, false, false⟩]

/-- Object table lines of the indexes 0x7800 to 0x78FF, part 1. -/
def objRows78a : List ObjDesc := [
  ⟨0x7800, 1, 0x00, 1, .u8, .cst, .const, 11, 0, 255, false, false⟩,
  ⟨0x7800, 1, 0x01, 1, .u32, .ro, .live, 0, 0, 4294967295, false, false⟩,
  ⟨0x7800, 1, 0x02, 1, .u32, .ro, .live, 0, 0, 4294967295, false, false⟩,
  ⟨0x7800, 1, 0x03, 1, .u32, .rw, .live, 0, 0, 4294967295, false, true⟩,
  ⟨0x7800, 1, 0x04, 1, .u8, .wo, .live, 0, 0, 255, false, false⟩,
  ⟨0x7800, 1, 0x05, 1, .bool, .ro, .live, 1, 0, 1, false, false⟩,
  ⟨0x7800, 1, 0x06, 1, .u16, .ro, .live, 0, 0, 65535, false, false⟩,
  ⟨0x7800, 1, 0x07, 1, .u16, .ro, .live, 0, 0, 65535, false, false⟩,
  ⟨0x7800, 1, 0x08, 1, .u48, .ro, .live, 0, 0, 281474976710655, false, false⟩,
  ⟨0x7800, 1, 0x09, 1, .u32, .rc, .live, 0, 0, 4294967295, false, false⟩,
  ⟨0x7800, 1, 0x0A, 1, .u32, .rc, .live, 0, 0, 4294967295, false, false⟩,
  ⟨0x7800, 1, 0x0B, 1, .u32, .rc, .live, 0, 0, 4294967295, false, false⟩,
  ⟨0x7810, 1, 0x00, 1, .u8, .cst, .const, 7, 0, 255, false, false⟩,
  ⟨0x7810, 1, 0x01, 1, .domain, .ro, .live, 0, 0, 0, false, false⟩,
  ⟨0x7810, 1, 0x02, 1, .u16, .ro, .live, 0, 0, 65535, false, false⟩,
  ⟨0x7810, 1, 0x03, 1, .u16, .ro, .live, 0, 0, 65535, false, false⟩,
  ⟨0x7810, 1, 0x04, 1, .u16, .rw, .live, 0, 0, 65535, false, false⟩,
  ⟨0x7810, 1, 0x05, 1, .u32, .rc, .live, 0, 0, 4294967295, false, false⟩,
  ⟨0x7810, 1, 0x06, 1, .u32, .ro, .live, 0, 0, 4294967295, false, false⟩,
  ⟨0x7810, 1, 0x07, 1, .u8, .wo, .live, 0, 0, 255, true, false⟩,
  ⟨0x7820, 1, 0x00, 1, .u8, .cst, .const, 4, 0, 255, false, false⟩,
  ⟨0x7820, 1, 0x01, 1, .u32, .ro, .live, 0, 0, 4294967295, false, false⟩,
  ⟨0x7820, 1, 0x02, 1, .u16, .ro, .live, 0, 0, 65535, false, false⟩,
  ⟨0x7820, 1, 0x03, 1, .u32, .ro, .live, 0, 0, 4294967295, false, false⟩,
  ⟨0x7820, 1, 0x04, 1, .u16, .ro, .live, 0, 0, 65535, false, false⟩,
  ⟨0x7880, 20, 0x00, 1, .u8, .cst, .const, 1, 0, 255, false, false⟩,
  ⟨0x7880, 20, 0x01, 1, .u32, .rc, .live, 0, 0, 4294967295, false, false⟩,
  ⟨0x7830, 1, 0x00, 1, .u8, .cst, .const, 9, 0, 255, false, false⟩,
  ⟨0x7830, 1, 0x01, 1, .u8, .wo, .live, 0, 0, 255, true, false⟩,
  ⟨0x7830, 1, 0x02, 1, .bool, .rw, .live, 1, 0, 1, false, true⟩]

/-- Object table lines of the indexes 0x7800 to 0x78FF, part 2. -/
def objRows78b : List ObjDesc := [
  ⟨0x7830, 1, 0x03, 1, .bool, .rw, .live, 1, 0, 1, false, true⟩,
  ⟨0x7830, 1, 0x04, 1, .u32, .ro, .live, 0, 0, 4294967295, false, false⟩,
  ⟨0x7830, 1, 0x05, 1, .u48, .ro, .live, 0, 0, 281474976710655, false, false⟩,
  ⟨0x7830, 1, 0x06, 1, .u32, .ro, .live, 0, 0, 4294967295, false, false⟩,
  ⟨0x7830, 1, 0x07, 1, .u8, .ro, .live, 0, 0, 255, false, false⟩,
  ⟨0x7830, 1, 0x08, 1, .u48, .ro, .live, 0, 0, 281474976710655, false, false⟩,
  ⟨0x7830, 1, 0x09, 1, .u8, .ro, .live, 0, 0, 255, false, false⟩,
  ⟨0x7840, 1, 0x00, 1, .u8, .cst, .const, 7, 0, 255, false, false⟩,
  ⟨0x7840, 1, 0x01, 1, .u32, .cst, .const, 353537427, 0, 4294967295, false, false⟩,
  ⟨0x7840, 1, 0x02, 1, .bool, .rw, .live, 0, 0, 1, false, true⟩,
  ⟨0x7840, 1, 0x03, 1, .u32, .rc, .live, 0, 0, 4294967295, false, false⟩,
  ⟨0x7840, 1, 0x04, 1, .u8, .ro, .live, 2, 0, 255, false, false⟩,
  ⟨0x7840, 1, 0x05, 1, .u32, .cst, .const, 1130560, 0, 4294967295, false, false⟩,
  ⟨0x7840, 1, 0x06, 1, .u32, .ro, .live, 0, 0, 4294967295, false, false⟩,
  ⟨0x7840, 1, 0x07, 1, .u32, .ro, .live, 0, 0, 4294967295, false, false⟩]

/-- The table lines of the page of 256 indexes that holds `index`. -/
def objPage (index : Nat) : List ObjDesc :=
  match index / 256 with
  | 0x10 => objRows10
  | 0x11 => objRows11a ++ objRows11b ++ objRows11c
  | 0x1F => objRows1F
  | 0x20 => objRows20
  | 0x21 => objRows21
  | 0x22 => objRows22
  | 0x28 => objRows28
  | 0x29 => objRows29a ++ objRows29b
  | 0x30 => objRows30
  | 0x31 => objRows31a ++ objRows31b
  | 0x34 => objRows34a ++ objRows34b
  | 0x38 => objRows38a ++ objRows38b
  | 0x40 => objRows40
  | 0x44 => objRows44a ++ objRows44b
  | 0x50 => objRows50
  | 0x51 => objRows51a ++ objRows51b
  | 0x54 => objRows54a ++ objRows54b ++ objRows54c
  | 0x60 => objRows60a ++ objRows60b
  | 0x70 => objRows70a ++ objRows70b
  | 0x78 => objRows78a ++ objRows78b
  | _ => []

/-- The table line of an index and a subindex; none is an absent object (R19). -/
def objFind (index sub : Nat) : Option ObjDesc :=
  (objPage index).find? fun d =>
    d.index ≤ index && index < d.index + d.count && d.sub ≤ sub && sub < d.sub + d.subs

/-- The table line of a key. -/
def objDesc (k : Nat) : Option ObjDesc := objFind (k / 256) (k % 256)

/-- REC_POLICY's default per function (R543). -/
def recPolicyDefault (f : Nat) : Nat :=
  match f with
  | 0 => 0x212 | 1 => 0x214 | 2 => 0x322 | 3 => 0x224 | 4 => 0x210
  | 5 => 0x322 | 6 => 0x224 | 7 => 0x210 | 8 => 0x221 | 9 => 0x222 | _ => 0

/-- The value a key reads at reset: the Default column of its table (R490), with the three per-occurrence defaults
(HUB_PT_LANE, REC_POLICY, LN_DIR) written out. -/
def objDefault (k : Nat) : Nat :=
  if 0x3410 ≤ k / 256 ∧ k / 256 < 0x3418 ∧ k % 256 = 0x0A then
    (if k / 256 - 0x3410 ≤ 6 then k / 256 - 0x3410 + 1 else 0)
  else if 0x7040 ≤ k / 256 ∧ k / 256 < 0x704A ∧ k % 256 = 0x01 then recPolicyDefault (k / 256 - 0x7040)
  else if 0x4010 ≤ k / 256 ∧ k / 256 < 0x4029 ∧ k % 256 = 0x01 then
    (if 8 ≤ k / 256 - 0x4010 ∧ k / 256 - 0x4010 ≤ 16 then 1 else 0)
  else match objDesc k with
    | some d => d.dflt
    | none => 0

/-- Every table line, in index order. -/
def objAll : List ObjDesc := objPage 0x1000 ++
  objPage 0x1100 ++
  objPage 0x1F00 ++
  objPage 0x2000 ++
  objPage 0x2100 ++
  objPage 0x2200 ++
  objPage 0x2800 ++
  objPage 0x2900 ++
  objPage 0x3000 ++
  objPage 0x3100 ++
  objPage 0x3400 ++
  objPage 0x3800 ++
  objPage 0x4000 ++
  objPage 0x4400 ++
  objPage 0x5000 ++
  objPage 0x5100 ++
  objPage 0x5400 ++
  objPage 0x6000 ++
  objPage 0x7000 ++
  objPage 0x7800

end Sys2Proof.Machine
end

