-- ==== Sys2Proof/Machine/State.lean ====
section
/-! DEFINITION. The state of the block: the queue of waiting commands, the object store and every structured piece of
state the spec gives the SLF128, unit by unit. -/
namespace Sys2Proof.Machine

/-- Why the machine stops with a fault. -/
inductive Fault where
  /-- An access to a byte address that the spec says does not exist: raised by no command of the table today, kept for
  the memories' own bounds. Safe: the model stops where the hardware has no defined cell. -/
  | noSuchAddress (a : Nat)
  deriving DecidableEq, Repr

/-- Why the model gives a command no meaning. -/
inductive Refusal where
  /-- The arm of a command that has no meaning yet; raised by exec's refused arms only. Safe: the model stops. -/
  | notModelled (mnemonic : String)
  deriving DecidableEq, Repr

/-! ### Channel front end, probe and TDC (chapters 02 and 03) -/

/-- The state of one discriminator (R53 to R57). -/
inductive Disc where
  | off | held | unknown | low | high
  deriving DecidableEq, Repr

/-- A hit in progress in a TDC channel (R91 to R97), with the settings of its start (R37, R107). -/
structure Hit where
  /-- free-running index of the tick that started the crossing of the start (R122) -/
  tick : Nat
  /-- coarse count of the start, K - 1 -/
  k : Nat
  /-- the start time T_S in bins after that tick -/
  toa : Nat
  /-- the energy edge's time T_E in bins after that tick, when one was recorded -/
  te : Option Nat
  /-- FLG[5] (R68) -/
  tpulse : Bool
  /-- FE_ENABLE.DATA at the start -/
  data : Bool
  /-- TDC_MINW at the start -/
  minw : Nat
  /-- the start LUT in force at the start -/
  lut : List Nat
  /-- the walk LUT in force at the start -/
  walk : List Nat
  /-- tap of the start, when the start waits for its energy verdict before it is counted for calibration (R101) -/
  calTap : Option Nat
  /-- the saturated record has been produced and the real fall is awaited (R93) -/
  saturated : Bool
  deriving DecidableEq, Repr

/-- A LUT that waits for a turn marker (R106, R110). -/
structure PendLut where
  lut : List Nat
  /-- the new walk LUT; none for a host-written LUT -/
  walk : Option (List Nat)
  taps : Nat
  /-- SRC of R108: 0 calibration, 1 host -/
  src : Nat
  /-- tick index at which the LUT was computed -/
  madeTick : Nat
  /-- the tick index from which its marker counts: an APPLY captures a host-written LUT; none before that -/
  applied : Option Nat
  deriving DecidableEq, Repr

/-- A channel's place in the calibration process (R108). -/
inductive CalState where
  | wait | accum | compute | pending
  deriving DecidableEq, Repr

/-- One entry between a TDC and the assembler: the 48-bit record and the 7-bit crossing tag (R122). -/
structure Entry where
  word : Nat
  tag : Nat
  /-- its parity has failed: the collector discards it (R545) -/
  bad : Bool := false
  deriving DecidableEq, Repr

/-- One channel: front end, TDC, chain and rate meter. -/
structure Chan where
  timing : Disc := .off
  energy : Disc := .off
  /-- tick index at which Held ends (R59) -/
  releaseAt : Option Nat := none
  /-- the channel was disabled with a hit in progress, which is being completed (R60) -/
  closing : Bool := false
  hit : Option Hit := none
  /-- injection instants of the latest fires, in bins of the free-running scale (R68) -/
  injected : List Nat := []
  /-- consecutive rejected runs (R105, R536) -/
  rejects : Nat := 0
  lut : List Nat := []
  walk : List Nat := []
  pend : Option PendLut := none
  /-- a host-written LUT that waits for APPLY (R110) -/
  host : Option PendLut := none
  /-- host-written LUTs that an APPLY has captured and that wait for their turn markers, oldest first (R110, R492) -/
  hostDue : List PendLut := []
  /-- TDC clock period, counted from tick 0, and tap of the latest recognised timing rise (R103) -/
  lastStart : Option (Nat × Nat) := none
  cal : CalState := .wait
  chain : List Entry := []
  /-- prescaler remainder and counter of the rate meter (R113) -/
  rmRem : Nat := 0
  rmCnt : Nat := 0
  deriving DecidableEq, Repr

/-- One histogram slot of the calibration accumulator (R101, R104). -/
structure Slot where
  ch : Ch
  hist : List Nat
  walk : List Nat
  count : Nat
  walkCount : Nat
  /-- AUTO has added the random source to this run (R102) -/
  random : Bool
  startTick : Nat
  /-- TDC_CAL_SRC, TDC_CAL_CMASK, TDC_CAL_EXCLE and TDC_CAL_QUIET as they stood when the run began (R491) -/
  src : Nat := 0
  cmask : Nat := 2 ^ 32 - 1
  exclE : Bool := false
  quiet : Nat := 0
  deriving DecidableEq, Repr

/-- One swap-history entry (R108). -/
structure SwapEntry where
  mask : Nat
  batch : Nat
  src : Nat
  xswap : Nat
  deriving DecidableEq, Repr

/-- The calibration accumulator (R101 to R108). -/
structure CalUnit where
  slots : List Slot := []
  /-- the channel from which the schedule looks next -/
  next : Nat := 0
  /-- the swap history, oldest first, at most 256 entries -/
  history : List SwapEntry := []
  /-- the schedule runs: data service is ready (R111) -/
  running : Bool := false
  deriving DecidableEq, Repr

/-- The fast-OR counts and flags of the crossing in progress (R62, R143). -/
structure FastOr where
  hits : Nat := 0
  energy : Nat := 0
  ovf : Bool := false
  tpf : Bool := false
  deriving DecidableEq, Repr

/-- The probe digitiser beside its objects (R72 to R81). -/
structure Probe where
  /-- the samples of the capture, oldest first -/
  samples : List Nat := []
  /-- the trigger comparator: off until the first sample after ARM (R74) -/
  comp : Disc := .off
  /-- the newest sample the comparator has seen -/
  last : Nat := 0
  /-- the newest test-pulse fire during the fill: tick index of its target, its crossing and its phase (R75) -/
  fire : Option (Nat × Nat × Nat) := none
  deriving DecidableEq, Repr

/-! ### Derandomisers and assembler (chapter 04) -/

/-- A group FIFO and its merge's round-robin pointer (R125). -/
structure Group where
  fifo : List Entry := []
  /-- channel of the group served last -/
  last : Nat := 15
  deriving DecidableEq, Repr

/-- What one crossing's place in the closing order holds (R140, R155, R170). -/
inductive SliceKind where
  /-- an open slice -/
  | slice
  /-- a crossing ticked while the assembler was not running or held: COUNT 0, TRUNC 0, LOST 1 -/
  | none
  /-- a slice discarded at a CKIN failure or a thaw: COUNT 0, TRUNC 1, LOST 1 -/
  | discarded
  deriving DecidableEq, Repr

/-- The place of one crossing between its tick and its close (R129, R132, R133). -/
structure OpenSlice where
  kind : SliceKind
  /-- free-running tick index of the crossing's tick -/
  tick : Nat
  /-- crossing number under the numbering of its tick -/
  x : Nat
  cap : Nat
  /-- stored records in acceptance order -/
  recs : List Nat
  ncap : Nat
  nbud : Nat
  nup : Nat
  deriving DecidableEq, Repr

/-- The crossing assembler (R129 to R142). -/
structure Asm where
  /-- crossings whose close is still to come, oldest first -/
  opened : List OpenSlice := []
  /-- the group from which the collector started its latest core cycle (R126) -/
  start : Nat := 0
  /-- tags of the loss reports on their way (R124), oldest first -/
  reports : List Nat := []
  /-- the assembler entered HELD from DRAINING (R140) -/
  heldDraining : Bool := false
  /-- the tick index at which a crossing last left the closing order -/
  closedTick : Option Nat := none
  /-- the tick index at which STOP took effect -/
  stopTick : Nat := 0
  /-- tick indexes, among the last 128, at which no slice was opened (R129) -/
  idle : List Nat := []
  deriving DecidableEq, Repr

/-! ### Latency buffer (chapter 05) -/

/-- A closed slice: its crossing, its absolute begin position A_c and its bytes (R157). -/
structure Closed where
  x : Nat
  a : Nat
  size : Nat
  deriving DecidableEq, Repr

/-- Why a layout switch waits: a serving rank has been lost, or an applied LB_MAQ_SEL enters or leaves maquette mode
(R166, R168). -/
inductive SwitchKind where
  | loss | enterMaq | leaveMaq
  deriving DecidableEq, Repr

/-- A layout switch that waits for its tick (R166). -/
structure PendSwitch where
  kind : SwitchKind
  /-- the tick index from which it may be taken -/
  from_ : Nat
  deriving DecidableEq, Repr

/-- The latency-buffer controller (R150 to R171). -/
structure Lb where
  /-- bytes the write-combine buffer holds, from the oldest to the newest (R137) -/
  wc : List Byte := []
  /-- number of the slices of which the buffer still holds a byte, with their remaining bytes -/
  wcSlices : List Nat := []
  /-- draining is stopped: a retirement waits for rank S (R163) -/
  drainHeld : Bool := false
  /-- closed slices at or above LB_LOSTBELOW that fit in the ring with all newer ones, oldest first (R158) -/
  closed : List Closed := []
  /-- A of the first slice closed at or above LB_LOSTBELOW since that was last set (R158) -/
  first : Option Nat := none
  /-- crossings opened at or after this tick index count for the capacity floor (R171) -/
  epoch : Nat := 0
  /-- sizes of the newest slices, newest first, at most 65,536 (R158) -/
  sizes : List Nat := []
  /-- LB_STATE before HELD (R162) -/
  before : Nat := 0
  /-- MAQUETTE was entered because no rank can serve (R168) -/
  noRank : Bool := false
  /-- the retired rank whose position the migration copies -/
  migRank : Nat := 3
  /-- absolute write position from which the bytes of that position go to S (R163) -/
  migFrom : Nat := 0
  switch : Option PendSwitch := none
  deriving DecidableEq, Repr

/-! ### Queries, answers and the event block pool (chapter 06) -/

/-- A verdict on one crossing (R159, R188, R201): stored and skipped carry COUNT and TRUNC of the index entry, stored
also its ring address. -/
inductive Verdict where
  | stored (count : Nat) (trunc : Bool) (addr : Nat)
  | expired | lost | wait
  | skipped (count : Nat) (trunc : Bool)
  deriving DecidableEq, Repr

/-- A resolved anchor (R180, R181). -/
inductive Anchor where
  | past (a : Nat)
  | future (a : Nat)
  /-- the anchor modulo 2^48 -/
  | negative (a : Nat)
  deriving DecidableEq, Repr

/-- The fields of a query that its answer rests on, as captured at receipt (R176, R183, R190, R263). -/
structure Query where
  qid : Nat
  type : Nat
  anchor : Anchor
  before : Nat
  after : Nat
  spanlen : Nat
  hitlim : Nat
  mask : Nat
  totcut : Nat
  /-- the section is to be coded: COMP with CMP_ENABLE in force -/
  comp : Bool
  cntonly : Bool
  qbusy : Bool
  /-- device address in force at receipt -/
  addr : Nat
  deriving DecidableEq, Repr

/-- The states of R196. -/
inductive QState where
  | queued | waiting | index | fetch | pack | handoff
  deriving DecidableEq, Repr

/-- One window crossing of a query in progress: its verdict, and its records once fetched. -/
structure Win where
  /-- the crossing's number, negative before crossing 0 (R182) -/
  x : Int
  verdict : Verdict
  recs : List Nat
  /-- a fetch of the slice is still to complete -/
  toFetch : Bool
  deriving DecidableEq, Repr

/-- A block of the lossless coder (R258): its set, its entries and its bytes. -/
structure CodedBlock where
  set : Nat
  entries : Nat
  bytes : List Byte
  deriving DecidableEq, Repr

/-- An answer as it lies between the query engine and the Ragil engine. -/
structure Answer where
  /-- the answer's bytes, when it takes no pool block -/
  bytes : List Byte := []
  len : Nat := 0
  blocks : List Nat := []
  /-- the end of the bytes that come from blocks, in an answer that also has others -/
  blockEnd : Nat := 0
  /-- the trailer CRC of the same answer with SUSPECT set (R202, R241) -/
  suspectCrc : Nat := 0
  deriving DecidableEq, Repr

/-- One queue entry (R189 to R196). -/
structure QEntry where
  q : Query
  thin : Bool
  st : QState := .queued
  /-- engine slot of a query in progress (R194, R250) -/
  slot : Option (Fin 4) := none
  waited : Bool := false
  /-- received under a numbering that a RESYNC has ended: the crossing that its tick would have started (R210) -/
  stale : Option Nat := none
  win : List Win := []
  /-- pool blocks still to be reserved (R207) -/
  need : Nat := 0
  blocks : List Nat := []
  postchk : Bool := false
  fetchUe : Bool := false
  spanCut : Bool := false
  /-- the sorted, uncoded section while it is being coded (R385) -/
  uncoded : List Byte := []
  /-- coded bytes written so far -/
  coded : List Byte := []
  /-- a coding job stopped with OUTFULL -/
  stopped : Bool := false
  answer : Answer := {}
  deriving DecidableEq, Repr

/-- An item of the queue: an entry, or the refusal run that follows it (R193). -/
inductive QItem where
  | entry (e : QEntry)
  | run (first len done addr : Nat)
  deriving DecidableEq, Repr

/-- The query path (R176 to R211). -/
structure QueryUnit where
  items : List QItem := []
  /-- the QID of the previous query, when continuity is checked (R179, R190, R211) -/
  lastQid : Option Nat := none
  /-- tick index at which BUSY last cleared (R192) -/
  busyClear : Option Nat := none
  /-- owner code per pool block that is not free (R205, R208) -/
  pool : List (Nat × Nat) := []
  /-- agents other than the query engine whose allocation waits for a free block (R205) -/
  poolWait : List PoolAgent := []
  deriving DecidableEq, Repr

/-! ### Hub merger and builders (chapter 07) -/

/-- What one position of a query holds in the merger (R219 to R225). -/
inductive Pos where
  | unexpected
  | awaited
  | paired (a : Answer)
  /-- an SLF32 answer: its bytes (R233) -/
  | slf32 (b : List Byte)
  | closed (reason : Nat)
  deriving DecidableEq, Repr

/-- One record of the hub merger (R219). -/
structure MRec where
  qid : Nat
  /-- the anchor of the cluster header: all ones for a query of a refusal run (R227) -/
  anchor : Nat
  type : Nat
  /-- REGION, TOTCUT, COMP, CNTONLY or SPAN fields that an SLF32 does not apply (R232, R233) -/
  filtered : Bool
  addr : Nat
  /-- positions 0 to 8 -/
  pos : List Pos
  deriving DecidableEq, Repr

/-- One south port of the hub (R214, R220). -/
structure HubPort where
  /-- bytes of the sub-event whose frames are arriving -/
  building : List Byte := []
  /-- QID of its first frame, on an SLF32 port (R233) -/
  qid : Nat := 0
  /-- bytes held in the receive buffer -/
  fill : Nat := 0
  /-- newest QID forwarded on the port (R221) -/
  newest : Nat := 0
  /-- consecutive words in time with a crossing other than the hub's (R413) -/
  tpWrong : Nat := 0
  /-- an alignment-form RESYNC is to be sent: true when TP words caused it (R413) -/
  align : Option Bool := none
  deriving DecidableEq, Repr

/-- What a part is (R239, R241): a device sub-event that is sent as the answer, a cluster trailer, another part of a
cluster event, or a frame relayed to pass-through link j with its QID. -/
inductive PartKind where
  | subEvent | trailer | other
  | relay (j : Nat) (qid : Nat)
  deriving DecidableEq, Repr

/-- A part before the builders (R239). -/
structure Part where
  a : Answer
  /-- the part starts and ends an answer -/
  first : Bool
  last : Bool
  kind : PartKind
  deriving DecidableEq, Repr

/-- A crossing whose cluster primitive waits for its deadline: its number, the device's own word, and per port the leaf
word that has arrived (R237). -/
structure TpWait where
  x : Nat
  word : Nat
  got : List (Nat × Nat)
  deriving DecidableEq, Repr

/-- The hub merger and the builder pair. -/
structure Hub where
  recs : List MRec := []
  /-- released events whose own answer is still to come (R224) -/
  ownSkip : Nat := 0
  ports : Vector HubPort 8 := Vector.replicate 8 {}
  /-- crossings whose cluster primitives wait for their deadlines, oldest first -/
  tpWait : List TpWait := []
  deriving DecidableEq, Repr

/-- The builder pair beside its objects (R239 to R245). -/
structure Builders where
  parts : List Part := []
  /-- the answer in progress has been marked (R241) -/
  suspect : Bool := false
  takeouts : List Nat := [0, 0]
  /-- tick indexes of mismatches with no check failed -/
  mismatches : List Nat := []
  /-- a SWITCH waits for a part end (R242) -/
  switch : Bool := false
  deriving DecidableEq, Repr

/-! ### Compression engine and check units (chapter 08) -/

/-- The predictor history of a stream (R254). -/
structure Hist where
  pch : Nat := 0
  ptoa : Nat := 0
  poffs : Int := -1024
  first : Bool := true
  deriving DecidableEq, Repr

/-- One compression context (R250). -/
structure Ctx where
  /-- a stream has been started in the context and not been discarded -/
  live : Bool := false
  hist : Hist := {}
  /-- records still due in the current crossing, and whether the last of them is a loss record -/
  due : Nat := 0
  lossLast : Bool := false
  /-- coded bytes of blocks that have been formed but not written out -/
  held : List Byte := []
  /-- CONSUMED and PRODUCED of the stream, in bytes -/
  consumed : Nat := 0
  produced : Nat := 0
  deriving DecidableEq, Repr

/-- The engine beside its objects. -/
structure Cmp where
  ctxs : Vector Ctx 16 := Vector.replicate 16 {}
  /-- contexts whose set is live, of the query engine and of the supervisor (R251) -/
  liveQ : Option Nat := none
  liveS : Option Nat := none
  /-- coded output of the last CMP_TEST write (R276) -/
  test : List Byte := []
  /-- rates and TDC_RM_SEQ of a gate that ended while CMP_RATEHIST was being read (R268) -/
  ratePend : Option (List Nat × Nat) := none
  deriving DecidableEq, Repr

/-! ### Lanes (chapter 09) -/

/-- One lane beside its objects (R289 to R292, R301, R302). -/
structure LaneUnit where
  los : Bool := false
  lol : Bool := false
  /-- the output monitor has seen too small a swing (R292) -/
  swing : Bool := false
  /-- validity of the latest headers in LOCKED, newest first, at most 64 -/
  window : List Bool := []
  /-- consecutive valid headers in HUNT -/
  valid : Nat := 0
  /-- the PRBS checker is in sync, and its register -/
  prbsLock : Bool := false
  prbsReg : Nat := 0
  /-- a margin scan runs -/
  scanning : Bool := false
  /-- transmit scrambler, newest of its 58 bits as bit 0: all ones when the lane leaves L2 (R285) -/
  scram : Nat := 2 ^ 58 - 1
  /-- the 58 payload bits received last, as the descrambler holds them (R285) -/
  descr : Nat := 0
  /-- generator of the test sequence of a transmitting lane (R301) -/
  gen : Nat := 2 ^ 31 - 1
  /-- block counter of a transmitting lane, from its leaving L2 (R298) -/
  blocks : Nat := 0
  deriving DecidableEq, Repr

/-! ### Links (chapter 10) -/

/-- A frame held in the replay buffer: the descriptor beside its slot (R322, R329). -/
structure Frame where
  seq : Nat
  /-- 0 ANSWER, 1 CUFEL -/
  kind : Nat
  first : Bool
  last : Bool
  /-- data blocks -/
  ndb : Nat
  crc : Nat
  /-- byte address of the slot -/
  slot : Nat
  /-- QID of the answer, carried by a Ragil 1.2 frame (R343) -/
  qid : Nat
  /-- pool blocks of the answer that this frame ends (R332) -/
  blocks : List Nat
  /-- tick index at which the frame was sent again since the latest rewind (R331) -/
  again : Option Nat
  deriving DecidableEq, Repr

/-- A link's sender (R326 to R332). -/
structure LinkTx where
  /-- next sequence number to give a new frame -/
  next : Nat := 0
  /-- frames held, the mark first -/
  held : List Frame := []
  /-- sequence number to send next: a held frame after a rewind, else next -/
  ptr : Nat := 0
  /-- a stall has been counted and still lasts (R328, R330) -/
  stalled : Bool := false
  deriving DecidableEq, Repr

/-- A frame being received (R322 to R324). -/
structure RxFrame where
  sof : Nat
  data : List Nat
  deriving DecidableEq, Repr

/-- A link's receiver (R311, R326, R327). -/
structure LinkRx where
  /-- E -/
  exp : Nat := 0
  /-- type and contents of a multi-part message in progress -/
  msg : Option (Nat × List Nat) := none
  frame : Option RxFrame := none
  /-- a NAK has been sent and RG_NAK_HOLD has not passed (R326) -/
  nakHold : Bool := false
  /-- an ACK is due (R327) -/
  ackDue : Bool := false
  deriving DecidableEq, Repr

/-- A link's CAPS exchange (R312 to R316). -/
structure CapsSide where
  /-- the partner's newest CAPS content -/
  partner : Option Nat := none
  /-- SEEN as this end sends it: 0, 1 or 2 -/
  seen : Nat := 0
  /-- a CAPS with SEEN = 2 has been sent in this exchange -/
  sentTwo : Bool := false
  /-- RES as this end sends it: the link state has been kept since the last UP -/
  res : Bool := false
  deriving DecidableEq, Repr

/-- A crossing-synchronous command in the scheduler (R336, R411). -/
structure Sched where
  /-- 1 TPULSE, 2 TURN, 3 RESYNC -/
  code : Nat
  /-- tick index of the target tick -/
  tick : Nat
  tgt : Nat
  n0 : Nat
  deriving DecidableEq, Repr

/-- What the device puts out on a link, on CAN or on a pin, in order. -/
inductive Sent where
  /-- a control message: link, BTYPE and the contents of its parts -/
  | block (l : LinkId) (btype : Nat) (parts : List Nat)
  /-- a frame: SOF content, data and EOF content (R322) -/
  | frame (l : LinkId) (sof : Nat) (data : List Byte) (eof : Nat)
  /-- an ALIGN row: link, ACNT, LANEMAP and KIND -/
  | row (l : LinkId) (acnt map kind : Nat)
  /-- a CAN FD frame in the extended format: identifier, BRS, ESI (1 from an error-passive node), data -/
  | can (id : Nat) (brs esi : Bool) (data : List Byte)
  /-- what the TAP shifts out for an instruction: the instruction, what its register had captured, and of its data register the
  number of bits and the bits, the first as bit 0 (R562) -/
  | tdo (ir captured len value : Nat)
  /-- what the boundary register drives at the output balls: their cells, by number (R564) -/
  | pins (cells : Nat)
  deriving DecidableEq, Repr

/-- A 66-bit block before it is scrambled: sync header and payload (R284). -/
structure LineBlock where
  head : Nat
  payload : Nat
  deriving DecidableEq, Repr

/-- What one link has still to put on its lanes (R318, R340): items that wait, oldest first, the remaining parts of a message
in progress, and the remaining blocks of a frame in progress. -/
structure Feed66 where
  wait : List Sent := []
  msg : List LineBlock := []
  frame : List LineBlock := []
  deriving DecidableEq, Repr

/-- The block side of the lanes (R318, R319, R340). -/
structure Line where
  /-- entries of everything put out that have been taken up by their links -/
  seen : Nat := 0
  north : Feed66 := {}
  south : Vector Feed66 8 := Vector.replicate 8 {}
  pass : Vector Feed66 8 := Vector.replicate 8 {}
  /-- what each sending lane carried in the newest block slot: lane, and its 66 bits on the line, the first as bit 0 -/
  wire : List (Nat × Nat) := []
  deriving DecidableEq, Repr

/-- The north link beside its objects. -/
structure North where
  tx : LinkTx := {}
  rx : LinkRx := {}
  caps : CapsSide := {}
  /-- the agreed lane set (R313) -/
  agreed : Nat := 0
  /-- the bundle's rate code in use (R314) -/
  rate : Nat := 3
  /-- lanes taken out of the bundle since UP (R320) -/
  removed : Nat := 0
  /-- RXLOCK of the partner's latest STATUS since UP (R317) -/
  rxlock : Option Nat := none
  /-- row count of the next ALIGN row (R319) -/
  acnt : Nat := 0
  /-- trigger-primitive words waiting for a block, newest first: crossing and word (R339) -/
  tp : List (Nat × Nat) := []
  /-- answers released by the builders, oldest first, and bytes of the first already framed -/
  answers : List Answer := []
  /-- parts of the newest answer are still to come -/
  more : Bool := false
  framed : Nat := 0
  /-- the supervisor's receive mailbox, at most 16 messages (R326, R372) -/
  mailbox : List (List Byte) := []
  /-- masks of the south and pass-through links whose slot ranges are in force (R329, R330) -/
  slotPorts : Nat := 0
  slotPass : Nat := 0
  /-- a CKIN failure has taken the lanes, and they have not returned since: answers wait in HANDOFF (R209) -/
  held : Bool := false
  deriving DecidableEq, Repr

/-- South link k beside its objects. -/
structure SouthLink where
  tx : LinkTx := {}
  rx : LinkRx := {}
  caps : CapsSide := {}
  /-- rate code of S_RXk (R280, R342) -/
  rate : Nat := 3
  deriving DecidableEq, Repr

/-- Pass-through link j: its sender and the leaf frames that wait to be re-sent: kind, first, last, QID and data (R344). -/
structure PassLink where
  tx : LinkTx := {}
  queue : List (Nat × Bool × Bool × Nat × List Byte) := []
  /-- row count of the next ALIGN row -/
  acnt : Nat := 0
  deriving DecidableEq, Repr

/-! ### Ranks, scratchpad, march and scrub (chapter 11) -/

/-- One rank's controller beside its objects (R355, R356, R358 to R361, R370). -/
structure Rank where
  /-- corrections of dies 0 to 5 in the current 1 ms interval -/
  corr : List Nat := [0, 0, 0, 0, 0, 0]
  /-- uncorrectable beats in the current 1 ms interval -/
  ue : Nat := 0
  /-- number of the current interval on the 1 ms grid -/
  interval : Nat := 0
  /-- the 37 delay registers: write, read-strobe and read-gate delays of lanes 0 to 11, command delay (R361) -/
  delays : List Byte := List.replicate 37 0
  /-- the next MiB of the spare check -/
  spareNext : Nat := 0
  /-- power-down (R359) -/
  powerDown : Bool := false
  /-- tick index from which every die has read below 90 degrees while the rank runs at the doubled rate -/
  coolFrom : Option Nat := none
  deriving DecidableEq, Repr

/-- The march engine (R381, R382). -/
structure March where
  destructive : Bool := false
  start : Nat := 0
  len : Nat := 0
  /-- the failing byte addresses of the march, in the order found -/
  fails : List Nat := []
  /-- progress at an abort: March element in progress and words it has done -/
  element : Nat := 0
  done : Nat := 0
  deriving DecidableEq, Repr

/-- A corrected scratchpad word that waits to be written back: its byte address, its content when it was read, and the bits
that a miscorrection changes in it (R378). -/
structure SpmFix where
  addr : Nat
  seen : Nat
  err : Nat
  deriving DecidableEq, Repr

/-- A request that waits at the scratchpad port (R373 to R375). -/
structure PortWait where
  agent : Nat
  word : Nat
  op : PortOp
  /-- core cycles it has waited -/
  wait : Nat
  /-- a write of fewer than 8 bytes has read its word, and is to write it -/
  merging : Bool
  /-- the data of a write, the bytes that it changes, and the word that a merging write has read (R375) -/
  data : Nat := 0
  bytes : Nat := 0xFF
  got : Nat := 0
  deriving DecidableEq, Repr

/-- The memories' working state beside their contents. -/
structure MemUnit where
  ranks : Vector Rank 3 := Vector.replicate 3 {}
  fix : List SpmFix := []
  port : List PortWait := []
  /-- what the readers of the newest core cycle have received: agent, word and value (R374) -/
  portRead : List (Nat × Nat × Nat) := []
  /-- bytes by which the 256 KiB firmware RAM differs from what its latest load and the supervisor left in it, and its loads since
  reset (R386, R387) -/
  fwRam : Memory := []
  fwLoads : Nat := 0
  march : March := {}
  /-- DRM_CTRL SWEEP_NEXT_BOOT has been written (R363) -/
  sweepNext : Bool := false
  /-- repairs in force: sub-array and row, sub-array and column group (R379) -/
  rows : List (Nat × Nat) := []
  cols : List (Nat × Nat) := []
  deriving DecidableEq, Repr

/-! ### Network time and captures (chapter 12) -/

/-- An accepted TIME message that waits for the next tick (R416, R417): times in units of 2^-32 ns. -/
structure TimeMsg where
  master : Nat
  step : Bool
  time : Nat
  own : Nat
  /-- the tick that started the crossing of its acceptance (R417) -/
  tick : Nat
  deriving DecidableEq, Repr

/-- The network-time unit beside its objects (R415 to R419). -/
structure NetTime where
  /-- network time at the latest ticks, newest first, at most 1,024 -/
  log : List Nat := []
  waiting : List TimeMsg := []
  /-- master and time of the previous accepted message -/
  prev : Option (Nat × Nat) := none
  /-- TSEQ of the last accepted message of each master -/
  seqs : List (Nat × Nat) := []
  /-- the candidates: master, TSEQ and error of its newest message, at most one entry for each master (R418) -/
  cand : List (Nat × Nat × Int) := []
  /-- tick index of the latest change of master -/
  changed : Option Nat := none
  /-- tick index of the latest accepted message -/
  accepted : Option Nat := none
  /-- slew_left in units of 2^-32 ns -/
  slew : Int := 0
  /-- the latest step: its tick index and the time before it -/
  step : Option (Nat × Nat) := none
  /-- the first message accepted after a thaw steps (R570) -/
  stepNext : Bool := false
  deriving DecidableEq, Repr

/-- One time capture (R422). -/
structure Capture where
  src : Nat
  xc : Nat
  nt : Nat
  deriving DecidableEq, Repr

/-! ### Housekeeping (chapter 13) -/

/-- An excitation output that is on: the settings it was switched on with (R431, R433). -/
structure Drive where
  /-- k of HK_EXCk; the other output is at high impedance (R429) -/
  out : Fin 2
  /-- EXCLVL: 0.25, 0.5, 1.0 or 2.0 V -/
  level : Fin 4
  sine : Bool
  freq : Nat
  deriving DecidableEq, Repr

/-- The housekeeping sequencer and converter beside their objects (R437 to R450). -/
structure Hk where
  /-- entry in progress: 0 to 31, or 63 for the urgent entry; none when nothing is being converted -/
  entry : Option Nat := none
  /-- entry at which the sequence is suspended (URG_PRE) -/
  suspended : Nat := 0
  /-- the excitation output that is on; both are at high impedance where there is none (R429, R431) -/
  exc : Option Drive := none
  /-- the burn-out current into the entry's positive input: 0 off, 1 100 nA, 2 1 uA (R435) -/
  burn : Nat := 0
  /-- HK_DIST_LIMIT when the conversion in progress started (R440, R491) -/
  limit : Nat := 0
  /-- the conversion in progress is the repeat of a disturbed one (R440) -/
  repeating : Bool := false
  /-- restarts of the conversion in progress at a lower range (R437) -/
  retries : Nat := 0
  /-- part of the conversion in progress ran while the K domain was on INTOSC (R449, R451) -/
  onInt : Bool := false
  /-- HK_RESULT holds a result that has not been read (R450) -/
  unread : Bool := false
  /-- results written by the serving slice since it began to serve (R442) -/
  served : Nat := 0
  /-- the swap that is due has been counted as deferred -/
  deferred : Bool := false
  /-- the spare has passed a calibration since it last served -/
  sparePassed : Bool := false
  /-- constants: slice 0 then 1, ranges x1 to x64: offset, and gain in units of 2^-16 (R441) -/
  consts : List (Int × Nat) := List.replicate 8 (0, 65536)
  /-- STOP was accepted during an urgent conversion (R448) -/
  stopAfter : Bool := false
  /-- slices that a re-initialisation has still to recalibrate, and whether the sequence restarts then (R536) -/
  recal : List Nat := []
  restart : Bool := false
  /-- slices whose calibration has passed in the boot in progress (R441, R446) -/
  passed : List Nat := []
  /-- consecutive failed calibrations of slice 0 and of slice 1 (R536) -/
  fails : List Nat := [0, 0]
  deriving DecidableEq, Repr

/-- The outcome a response carries (R456). -/
inductive Status where
  | ok | absentObject | readOnly | outOfRange | functionRunning | expertRequired | keyRefused | typeMismatch
  | length | segment | noResource | failed | unsupported | version | lockedOut
  deriving DecidableEq, Repr

/-! ### Cufel (chapter 14) and the event log (chapter 17) -/

/-- A Cufel message without its CRC (R454). -/
structure Msg where
  mtype : Nat
  alive : Nat
  tid : Nat
  dst : Nat
  src : Nat
  status : Nat
  resp : Bool
  body : List Byte
  deriving DecidableEq, Repr

/-- A request waiting for execution, with the path it arrived on and the device address in force at its receipt
(R458, R461). -/
structure Queued where
  path : Path
  msg : Msg
  addr : Nat
  /-- a response that only waits for its turn: of a request refused at its receipt (R459, R461) -/
  refusal : Option Msg := none
  deriving DecidableEq, Repr

/-- One entry of a path's alive table: the newest counter of a source and the last response sent to it (R274, R462). -/
structure AliveEntry where
  src : Nat
  alive : Nat
  kept : Option Msg
  /-- CAN node that its messages come from; 0x3F on the north path -/
  node : Nat := 0x3F
  deriving DecidableEq, Repr

/-- An open expert session (R466). -/
structure Session where
  path : Path
  src : Nat
  deriving DecidableEq, Repr

/-- A source's challenge (R466): used is true once an outcome has consumed it. -/
structure Challenge where
  path : Path
  src : Nat
  value : Nat
  /-- CF_KEY when the challenge was issued -/
  key : Nat
  used : Bool
  deriving DecidableEq, Repr

/-- An open block transfer (R468). -/
structure Transfer where
  path : Path
  src : Nat
  index : Nat
  sub : Nat
  write : Bool
  /-- a read's snapshot, or the bytes a write has received -/
  data : List Byte
  total : Nat
  /-- offset and length of the previous write segment -/
  prev : Option (Nat × Nat)
  /-- the staging place of a read (R372) -/
  slot : Nat := 0
  deriving DecidableEq, Repr

/-- An event waiting in the EVENT queue (R469, R471). -/
structure Event where
  seq : Nat
  cls : Nat
  code : Nat
  xc : Nat
  nt : Nat
  objIdx : Nat
  objSub : Nat
  payload : List Byte
  deriving DecidableEq, Repr

/-- What happens after a response has gone out (R528, R535, R559). -/
inductive AfterResp where
  | reset | freeze | restart
  deriving DecidableEq, Repr

/-- The Cufel server (R454 to R472). -/
structure Cufel where
  /-- requests waiting for execution, in the order their reception completed -/
  queue : List Queued := []
  /-- paths of the messages that the supervisor has still to take, in the order their reception completed (R461) -/
  order : List Path := []
  /-- a HEARTBEAT that waits for its path (R482) -/
  beat : Option (List Byte) := none
  /-- responses, events and heartbeats handed to the north path, oldest first -/
  outNorth : List Msg := []
  /-- the same for CAN -/
  outCan : List Msg := []
  /-- alive tables, most recent source first, at most 32 sources each (R274) -/
  aliveNorth : List AliveEntry := []
  aliveCan : List AliveEntry := []
  sessions : List Session := []
  challenges : List Challenge := []
  /-- consecutive KEY_REFUSED outcomes and lock-out, per path (R466) -/
  failsNorth : Nat := 0
  failsCan : Nat := 0
  lockNorth : Bool := false
  lockCan : Bool := false
  transfers : List Transfer := []
  events : List Event := []
  /-- a telemetry publication is being read: crossing and network time of its alarm's firing (R472) -/
  tlm : Option (Nat × Nat) := none
  /-- per south port, the messages waiting to be relayed to its leaf (R460) -/
  relay : List (List (List Byte)) := [[], [], [], [], [], [], [], []]
  /-- messages of the leaves waiting to be relayed north -/
  relayNorth : List (List Byte) := []
  /-- the supervisor is restarting from ROM: no Cufel service (R463, R529) -/
  down : Bool := false
  /-- a command that takes effect after its response -/
  after : Option AfterResp := none
  deriving DecidableEq, Repr

/-- An event staged for the log (R553, R554). -/
structure Staged where
  code : Nat
  cls : Nat
  unit : Nat
  xc : Nat
  nt : Nat
  /-- tick index of the event -/
  tick : Nat
  data : List Byte
  deriving DecidableEq, Repr

/-- Folding state of one code and UNIT (R555): tick index of the event of the entry written, and the occurrences folded
since. -/
structure Fold where
  code : Nat
  unit : Nat
  tick : Nat
  count : Nat
  deriving DecidableEq, Repr

/-- The event log writer's own state (R554, R555, R558). -/
structure Log where
  staging : List Staged := []
  folds : List Fold := []
  deriving DecidableEq, Repr


/-! ### The CAN FD port (chapter 14) -/

/-- A message being reassembled (R478). -/
structure Reasm where
  node : Nat
  mseq : Nat
  /-- segments received -/
  segs : Nat
  bytes : List Byte
  deriving DecidableEq, Repr

/-- The port beside its objects (R474 to R480). -/
structure Can where
  reasm : List Reasm := []
  /-- complete messages waiting for the supervisor, with the sending node, at most 8 -/
  inbox : List (Nat × List Byte) := []
  /-- the sender's message count modulo 8 -/
  mseq : Nat := 0
  /-- consecutive frames whose bit times agree, before a correction (R476) -/
  agree : Nat := 0
  busOff : Bool := false
  /-- the claim has been sent without error -/
  claimSent : Bool := false
  /-- collisions within the claim in progress -/
  collisions : Nat := 0
  /-- earlier backoffs since reset -/
  backoffs : Nat := 0
  /-- the delay of the backoff in progress, in ms -/
  delay : Nat := 0
  /-- a keeper lower than this node has been heard since the backoff began -/
  lower : Bool := false
  /-- tick index of the entry into KEEPER -/
  since : Nat := 0
  /-- nodes heard, with the tick index of the newest frame of each -/
  heard : List (Nat × Nat) := []
  deriving DecidableEq, Repr

/-! ### Freeze and TAP (chapter 17) -/

/-- The freeze control and the TAP beside their objects (R559 to R570). -/
structure Freeze where
  frozen : Bool := false
  /-- the FREEZE ball is high (R559, R598) -/
  ball : Bool := false
  /-- the three sources -/
  pin : Bool := false
  cufel : Bool := false
  tap : Bool := false
  /-- the freeze took hold with FRZ_REFRESH = 0 -/
  noref : Bool := false
  /-- sources that have held this freeze, as FRZ_SRC shows them -/
  held : Nat := 0
  /-- crossing and network time when it took hold -/
  x : Nat := 0
  nt : Nat := 0
  /-- the first tick after the thaw is still to come -/
  thawed : Bool := false
  /-- freezes since the plinth's power-up: names the frozen contents of the cast chain -/
  number : Nat := 0
  /-- CAST: place of the bit at the chain's output, bits shifted since Capture-DR, and their CRC before the final XOR -/
  pos : Nat := 0
  bits : Nat := 0
  crc : Nat := 0xFFFFFFFF
  /-- CAST_MEM: what the next Capture-DR loads -/
  memReg : Nat := 0
  castUe : Bool := false
  /-- the boundary register -/
  boundary : BitVec 129 := 0
  deriving DecidableEq, Repr

/-! ### NVM (chapter 15) -/

/-- The supervisor's NVM bookkeeping beside the NVM and its objects. -/
structure NvUnit where
  /-- powered hours at which the bank in force came into force (R511) -/
  since : Nat := 0
  /-- a refresh store that is due and waits for the NVM staging: what its channel meets, and its end (R372, R511) -/
  refresh : Option (List Upset × StoreEnd) := none
  /-- length in bytes and level of the firmware patch image written last (R512) -/
  patch : Nat × Nat := (0, 0)
  /-- the words of the newest write without a STORE: address, size and what each held before (R499) -/
  wrote : List (Nat × Nat × Nat) := []
  /-- words that a power loss has left indeterminate (R499, R500) -/
  torn : List Nat := []
  /-- powered hours at the newest HOURS record, and seconds of the hour in progress (R558) -/
  hours : Nat := 0
  seconds : Nat := 0
  deriving DecidableEq, Repr

/-- A register whose voted value differs from the supervisor's copy (R546): key, right value. -/
structure Differs where
  key : Nat
  right : Nat
  deriving DecidableEq, Repr

/-- A LUT entry whose parity fails: a conversion takes its neighbour until the supervisor reloads the LUT (R545). -/
structure LutFix where
  ch : Ch
  walk : Bool
  p : Nat
  deriving DecidableEq, Repr
/-! ### Clocks, power, reset and recovery (chapters 12 and 16) -/

/-- The clock monitor beside its objects (R393, R400, R403, R408). -/
structure Clock where
  /-- a tick has come since INTOSC became ready -/
  started : Bool := false
  /-- windows of the qualification run in progress, newest first: CLK_FX_NOM at the window's start, and its count -/
  run : List (Nat × Nat) := []
  /-- CLK_FX_NOM at the start of the window in progress -/
  fx : Nat := 50000000
  /-- CLK_FX_NOM from which the synthesiser ratios are set: the value in force at the latest acceptance of CKIN (R393) -/
  ratio : Nat := 50000000
  /-- tick index of the failure that began the fallback -/
  failTick : Option Nat := none
  /-- service resumes at the next tick -/
  resume : Bool := false
  /-- tick of the newest RESYNC, and the number that this tick would have had without it (R414) -/
  resync : Option (Nat × Nat) := none
  /-- the tick whose turn marker has been judged (R409) -/
  marker : Option Nat := none
  deriving DecidableEq, Repr

/-- What the plinth holds beside its objects (R398, R518, R539). -/
structure Plinth where
  /-- E_P; none while it is the fuse map's value -/
  ep : Option Nat := none
  /-- an INTOSC fault holds -/
  fault : Bool := false
  /-- consecutive counts within the window that ends the fault -/
  good : Nat := 0
  /-- the plinth lost its contents, and no boot has started since -/
  lost : Bool := false
  deriving DecidableEq, Repr

/-- The power unit beside its objects. -/
structure Power where
  /-- feed A has been good since the device left Off and has been lost (R516, R522) -/
  lostA : Bool := false
  /-- as lostA, of feed B (R550) -/
  lostB : Bool := false
  /-- RST_N is held low (R527) -/
  rstN : Bool := false
  /-- tick p of a park in progress (R523) -/
  parking : Option Nat := none
  /-- an UNPARK has been accepted and its data-ready tick is to come (R524) -/
  unparking : Bool := false
  /-- the nodes that the entry into Parked gated: those of its request that were not refused (R406, R523) -/
  parkGate : Nat := 0
  /-- boot step 6 found the scratchpad failed, or both builders failed their self-tests in step 8 (R534) -/
  bootStop : Bool := false
  /-- results of the builders' self-tests of boot step 8 (R245) -/
  selftest : List Bool := [true, true]
  /-- ends of boot steps 0 to 15 in us (R531) -/
  trace : List Nat := List.replicate 16 0
  /-- functions whose re-initialisation is in progress, by number (R536) -/
  reinit : List Nat := []
  /-- ladder steps that wait: function, 2 or 3 (3 for step 3 or 4), and channel or port (R537, R538) -/
  deferred : List (Nat × Nat × Ch) := []
  /-- faults of functions whose ladder steps wait for the supervisor, oldest first: function, channel or port (R40) -/
  faults : List (Nat × Ch) := []
  /-- ranks whose verify a re-initialisation of DRAM awaits; 3 is the spare check of S (R536) -/
  verifying : List Nat := []
  /-- the straps have been found different once since reset (R530) -/
  strapSeen : Bool := false
  /-- tick index at the latest reset -/
  resetTick : Nat := 0
  /-- repair records found by the boot march, and whether a rank was swept: both are written to the NVM after step 9 -/
  newRepairs : List Nat := []
  swept : Bool := false
  /-- ticks of the second of CF_UPTIME in progress -/
  second : Nat := 0
  /-- channels that a re-initialisation disables at the next tick, and those that it enables then (R536) -/
  toDisable : List Ch := []
  reenable : List Ch := []
  deriving DecidableEq, Repr
/-- What the fault conditions of R536 are judged from. -/
structure Watch where
  /-- conditions met that no ladder step has answered, oldest first: function, and channel, port, rank, slice or unit -/
  raised : List (Nat × Ch) := []
  /-- events that count towards a condition: function, port or rank, tick index -/
  events : List (Nat × Ch × Nat) := []
  /-- outages in progress: function, port, tick index of the start -/
  outages : List (Nat × Ch × Nat) := []
  /-- tick index of the latest retirement of a rank -/
  retiredAt : Option Nat := none
  deriving DecidableEq, Repr

/-- The whole state of the block. -/
structure State where
  /-- commands that wait, the first to come first -/
  pending : List Instr := []
  /-- the model's own count of the open values drawn so far -/
  free : Nat := 0
  /-- the object store: key and value of every object whose value differs from its default (R490) -/
  obj : List (Nat × Nat) := []
  /-- LIVE and accepted HALT writes that wait for the next tick, oldest first (R491, R493) -/
  livePend : List (Nat × Nat) := []
  /-- pending SHADOW values, in the order of their first write (R492) -/
  shadowPend : List (Nat × Nat) := []
  /-- captured APPLYs: the tick index from which a turn marker counts, and the values (R492) -/
  applied : List (Nat × List (Nat × Nat)) := []
  /-- the free-running tick index (R122) -/
  tick : Nat := 0
  chans : Vector Chan 128 := Vector.replicate 128 {}
  fastOr : FastOr := {}
  probe : Probe := {}
  calUnit : CalUnit := {}
  /-- tick index of the start of the rate gate in progress (R114) -/
  rmGate : Nat := 0
  /-- the rates of one gate, copied for the rate histogram (R268) -/
  rateHist : List Nat := []
  groups : Vector Group 8 := Vector.replicate 8 {}
  asm : Asm := {}
  lb : Lb := {}
  /-- the scratchpad (R371) -/
  spm : Memory := []
  /-- ranges of the scratchpad, by address and size, that hold data whose layout the spec leaves open: their bytes are not in spm
  (R250, R372) -/
  soiled : List (Nat × Nat) := []
  /-- ranks A, B and S (R23) -/
  rankMem : Vector Memory 3 := Vector.replicate 3 []
  memUnit : MemUnit := {}
  watch : Watch := {}
  query : QueryUnit := {}
  hub : Hub := {}
  bld : Builders := {}
  cmp : Cmp := {}
  lanes : Vector LaneUnit 25 := Vector.replicate 25 {}
  /-- lane synthesisers that have lost lock: bit 0 LPLL0, bit 1 LPLL1 (R278, R291) -/
  synthLost : Nat := 0
  /-- a boundary-scan test instruction holds the pins (R303) -/
  pinTest : Bool := false
  north : North := {}
  south : Vector SouthLink 8 := Vector.replicate 8 {}
  pass : Vector PassLink 8 := Vector.replicate 8 {}
  /-- the command scheduler, at most 64 commands (R336) -/
  sched : List Sched := []
  /-- a pending alignment-form RESYNC: tick index u + 32 and N0 (R412) -/
  alignPend : Option (Nat × Nat) := none
  /-- everything the device has put out, oldest first -/
  out : List Sent := []
  line : Line := {}
  clk : Clock := {}
  plinth : Plinth := {}
  power : Power := {}
  /-- the NVM (R499) -/
  nvm : Memory := []
  hk : Hk := {}
  cufel : Cufel := {}
  can : Can := {}
  log : Log := {}
  frz : Freeze := {}
  nv : NvUnit := {}
  /-- registers that differ from the supervisor's copy (R546) -/
  differs : List Differs := []
  /-- LUT entries to reload at the next turn marker (R545) -/
  lutFix : List LutFix := []
  /-- network time in units of 2^-32 ns (R415) -/
  nt : Nat := 0
  time : NetTime := {}
  /-- the newest time captures, oldest first, at most 16 (R422) -/
  capts : List Capture := []
  deriving DecidableEq, Repr

/-- The machine right after reset. -/
def State.reset : State := {}

end Sys2Proof.Machine
end

