-- ==== Sys2Proof/Machine/Ops.lean ====
section
/-! DEFINITION. The shared operations: objects and counters, open values, staged events, fault conditions, EVENTs and
the responses of the Cufel server. -/
namespace Sys2Proof.Machine

/-! ### Objects and counters (R489, R490) -/

/-- The value in force of an object. -/
def State.o (s : State) (k : Nat) : Nat := sget (objDefault k) s.obj k

/-- An object's value in force replaced. -/
def State.setO (s : State) (k v : Nat) : State := { s with obj := sset (objDefault k) s.obj k v }

/-- A 32-bit counter that saturates, increased by d. -/
def State.bumpBy (s : State) (k d : Nat) : State := s.setO k (satAdd 32 (s.o k) d)

/-- A 32-bit counter that saturates, increased by one. -/
def State.bump (s : State) (k : Nat) : State := s.bumpBy k 1

/-- A counter modulo 2^n, increased by d. -/
def State.wrapBy (s : State) (n k d : Nat) : State := s.setO k ((s.o k + d) % 2 ^ n)

/-- A highest-level tracker (R489). -/
def State.peak (s : State) (k v : Nat) : State := s.setO k (max (s.o k) v)

/-- A bit of an object's value. -/
def State.ob (s : State) (k n : Nat) : Bool := bit (s.o k) n

/-- An object's bit written. -/
def State.setOb (s : State) (k n : Nat) (b : Bool) : State := s.setO k (setBit (s.o k) n b)

/-- A BOOL object. -/
def State.flag (s : State) (k : Nat) : Bool := s.o k ≠ 0

/-- The next open value (DESIGN CHOICE, log entry 3): the state after it has been drawn. -/
def State.drawn (s : State) : State := { s with free := s.free + 1 }

/-- The open value that the state draws next. -/
def State.open (s : State) : Nat := Config.freeValue s.free

/-- The crossing in progress (R408). -/
def State.xc (s : State) : Nat := s.o Obj.XC_COUNT

/-- Network time in whole nanoseconds at the tick that started the crossing in progress (R415). -/
def State.ntNs (s : State) : Nat := s.nt / 2 ^ 32

/-- Ticks make at least us microseconds at the nominal crossing clock (R7; log entry 8). -/
def State.ticksCover (s : State) (ticks us : Nat) : Bool := decide (us * s.o Obj.CLK_FX_NOM ≤ ticks * 1000000)

/-- Ticks make at most us microseconds at the nominal crossing clock. -/
def State.ticksWithin (s : State) (ticks us : Nat) : Bool := decide (ticks * 1000000 ≤ us * s.o Obj.CLK_FX_NOM)

/-! ### Fault conditions of functions (R536) -/

/-- The fault condition of function f is met, on a unit of it. -/
def State.raiseFault (s : State) (f : Nat) (c : Ch) : State :=
  { s with watch := { s.watch with raised := s.watch.raised ++ [(f, c)] } }

/-- An event that meets the fault condition of function f when it is the n-th on a unit within us microseconds. -/
def State.noteEvent (s : State) (f : Nat) (c : Ch) (n us : Nat) : State :=
  let same (e : Nat × Ch × Nat) : Bool := e.1 == f && decide (e.2.1 = c)
  let near := s.watch.events.filter fun e => same e && s.ticksWithin (s.tick - e.2.2) us
  let rest := s.watch.events.filter fun e => !same e
  if near.length + 1 < n then { s with watch := { s.watch with events := rest ++ near ++ [(f, c, s.tick)] } }
  else ({ s with watch := { s.watch with events := rest } }).raiseFault f c

/-! ### The tick in progress (R336, R409) -/

/-- The scheduled commands whose tick is this one, in order of receipt. -/
def State.due (s : State) : List Sched := s.sched.filter fun c => c.tick == s.tick

/-- The number that the tick starts once the RESYNCs that apply at it are in (R409, R414): the alignment form after every
scheduled one; in Hold none applies. -/
def State.tickNumber (s : State) : Nat :=
  if s.o Obj.PWR_STATE = 4 then s.xc
  else
    let n := match (s.due.filter fun c => c.code == 3).getLast? with | some c => c.n0 | none => s.xc
    match s.alignPend with | some (t, n0) => if t = s.tick then n0 else n | none => n

/-! ### Power states (R521) -/

/-- The power state is Run or Degraded. -/
def State.inRun (s : State) : Bool := s.o Obj.PWR_STATE == 3 || s.o Obj.PWR_STATE == 5

/-- The device runs for the fault conditions: Run, Degraded or Hold (R550). -/
def State.inService (s : State) : Bool := s.inRun || s.o Obj.PWR_STATE == 4

/-- Tick p of a park has not been reached, or there is no park (R523). -/
def State.beforePark (s : State) : Bool :=
  match s.power.parking with | some p => decide (s.tick < p) | none => true

/-- Data service is ready: Run, Degraded or Hold, before tick p of a park (R334, R521, R523). -/
def State.dataReady (s : State) : Bool := s.inService && s.beforePark

/-! ### What runs (R399, R404, R463, R519, R527, R531, R560) -/

/-- The domains have a clock and are out of reset. -/
def State.clocked (s : State) : Bool :=
  s.o Obj.PWR_STATE != 0 && !s.power.rstN && s.o Obj.CLK_STATE != 0 && s.o Obj.CLK_STATE != 5

/-- The functional clocks run: the device is clocked and not frozen. -/
def State.awake (s : State) : Bool := s.clocked && !s.frz.frozen

/-- The supervisor serves Cufel: boot step 4 is complete, and it is not restarting (R463, R531). -/
def State.serverUp (s : State) : Bool := s.ob Obj.PWR_BOOT_STEP 4 && !s.cufel.down

/-- A request is executed: no command of a request before it is about to reset, restart or freeze the device. -/
def State.served (s : State) : Bool := s.awake && s.serverUp && s.cufel.after.isNone

/-- What happens while the functional clocks run; nothing happens otherwise. -/
def State.ifAwake (s t : State) : State := if s.awake then t else s

/-- What the supervisor does while it serves; nothing happens otherwise. -/
def State.ifServed (s t : State) : State := if s.served then t else s

/-- A waiting request is the one the command names. -/
def Queued.matches (e : Queued) (q : Req) : Bool :=
  decide (e.path = q.path) && e.msg.src == q.src.toNat && e.msg.tid == q.tid.toNat && e.refusal.isNone

/-- The request's turn has come: it is the oldest of the queue, or the queue says nothing of it (R461; log entry 12). -/
def State.myTurn (s : State) (q : Req) : Bool :=
  match s.cufel.queue with | [] => true | e :: _ => e.matches q

/-- A request is executed now. -/
def State.servedFor (s : State) (q : Req) : Bool := s.served && s.myTurn q

/-- The body of the request whose turn has come, where the queue holds it. -/
def State.queuedBody (s : State) (q : Req) : Option (List Byte) :=
  match s.cufel.queue with
  | e :: _ => if e.matches q then some e.msg.body else none
  | [] => none

/-- The body of the request is not of the length that its type requires (R456, R464). -/
def State.badLength (s : State) (q : Req) (n : Nat) : Bool := (s.queuedBody q).any fun b => b.length != n

/-- What the execution of a request does; nothing happens before its turn. -/
def State.ifRequest (s : State) (q : Req) (t : State) : State := if s.servedFor q then t else s

/-- What a task of the supervisor does; it waits while the supervisor restarts (R40). -/
def State.ifTask (s t : State) : State := if s.awake && !s.cufel.down then t else s

/-! ### Channels and groups -/

/-- One channel. -/
def State.chan (s : State) (c : Ch) : Chan := s.chans.get c

/-- One channel replaced. -/
def State.setChan (s : State) (c : Ch) (x : Chan) : State := { s with chans := s.chans.set c x }

/-- One group. -/
def State.group (s : State) (g : Grp) : Group := s.groups.get g

/-- One group replaced. -/
def State.setGroup (s : State) (g : Grp) (x : Group) : State := { s with groups := s.groups.set g x }

/-- The channels in ascending order. -/
def allCh : List Ch := List.finRange 128

/-- A map over every channel. -/
def State.mapChans (s : State) (f : Ch → Chan → Chan) : State :=
  { s with chans := Vector.ofFn fun c => f c (s.chans.get c) }

/-! ### Staged events and fault conditions (R550 to R554) -/

/-- An event is staged for the log; with the staging queue full it is dropped and counted (R554). -/
def State.stage (s : State) (code cls unit : Nat) (data : List Byte) : State :=
  if s.log.staging.length ≥ 16 then s.bump Obj.FLT_LOG_LOST
  else { s with log := { s.log with staging := s.log.staging ++
    [{ code := code, cls := cls, unit := unit, xc := s.xc, nt := s.ntNs, tick := s.tick, data := data }] } }

/-- The conditions that FLT_MASK cannot mask: the NM column of R550. -/
def nmMask : Nat := 2 ^ 0 + 2 ^ 1 + 2 ^ 7 + 2 ^ 14 + 2 ^ 19

/-- FAULT_N as R551 and R552 set it: a latched condition that is NM or clear in FLT_MASK, Boot, or Off; in Off the plinth
drives it only while VKEEP is present. -/
def State.faultNow (s : State) : Bool :=
  if s.o Obj.PWR_STATE = 0 then s.ob Obj.PWR_FEEDS 3
  else (s.o Obj.FLT_LATCHED &&& (nmMask ||| ((2 ^ 20 - 1) ^^^ (s.o Obj.FLT_MASK % 2 ^ 20)))) ≠ 0 || s.o Obj.PWR_STATE == 1

/-- FLT_FAULTN brought up to date; the ball keeps its state while the device is frozen (R560). -/
def State.refreshFaultN (s : State) : State := if s.frz.frozen then s else s.setO Obj.FLT_FAULTN (b2n s.faultNow)

/-- A condition whose active bit stays set until the condition ends arises (R550). -/
def State.arise (s : State) (n : Nat) : State :=
  (((s.setOb Obj.FLT_ACTIVE n true).setOb Obj.FLT_LATCHED n true).bump (Obj.FLT_COND_CNT n)).refreshFaultN

/-- A condition marked at once arises: only its latched bit lasts (R550). -/
def State.ariseOnce (s : State) (n : Nat) : State :=
  ((s.setOb Obj.FLT_LATCHED n true).bump (Obj.FLT_COND_CNT n)).refreshFaultN

/-- A condition ends (R550). -/
def State.ceases (s : State) (n : Nat) : State := s.setOb Obj.FLT_ACTIVE n false

/-- A condition arises only when it does not hold already. -/
def State.ariseIf (s : State) (n : Nat) : State := if s.ob Obj.FLT_ACTIVE n then s else s.arise n

/-! ### The scratchpad's open contents (R372) -/

/-- A unit writes data of an open layout to a range of the scratchpad. -/
def State.soil (s : State) (a n : Nat) : State := if s.soiled.contains (a, n) then s else { s with soiled := (a, n) :: s.soiled }

/-- What is left of a range once [a, a + n) has been set to zero. -/
def rangeLess (a n : Nat) (r : Nat × Nat) : List (Nat × Nat) :=
  let hi := r.1 + r.2
  [(r.1, min hi a - r.1), (max r.1 (a + n), hi - max r.1 (a + n))].filter fun e => decide (0 < e.2)

/-- A range of the scratchpad has been set to zero. -/
def State.unsoil (s : State) (a n : Nat) : State := { s with soiled := s.soiled.flatMap (rangeLess a n) }

/-- A word of the scratchpad holds data of an open layout. -/
def State.openWord (s : State) (a : Nat) : Bool := s.soiled.any fun r => decide (r.1 < a + 8) && decide (a < r.1 + r.2)

/-! ### EVENTs (R469, R471) -/

/-- An event offered to the EVENT queue, which lies in the scratchpad (R372): masked by its class, displacing or dropped when the
queue of 64 is full. -/
def State.event (s : State) (cls code xc nt objIdx objSub : Nat) (payload : List Byte) : State :=
  if cls ≠ 0 ∧ s.ob Obj.CF_EVT_MASK cls = false then s
  else
    let e : Event :=
      { seq := s.o Obj.CF_EVT_SEQ, cls := cls, code := code, xc := xc, nt := nt,
        objIdx := objIdx, objSub := objSub, payload := payload }
    let s := s.wrapBy 16 Obj.CF_EVT_SEQ 1
    let s := s.soil 0x5C4000 0x8000
    if s.cufel.events.length < 64 then { s with cufel := { s.cufel with events := s.cufel.events ++ [e] } }
    else
      let s := s.bump Obj.CF_EVT_DROP
      match cls, s.cufel.events.findIdx? (fun x => x.cls ≠ 0) with
      | 0, some i => { s with cufel := { s.cufel with events := s.cufel.events.eraseIdx i ++ [e] } }
      | _, _ => s

/-- A CLASS 3 record event (R469): OBJIDX and OBJSUB name the object whose record it carries. -/
def State.recordEvent (s : State) (objIdx objSub : Nat) (payload : List Byte) : State :=
  s.event 3 0 s.xc s.ntNs objIdx objSub payload

/-! ### The armature (R405, R407) -/

/-- The parent of an armature node (R405). -/
def nodeParent (n : Nat) : Nat := if n < 8 then 0 else if n < 19 then 8 else if n < 23 then 19 else 23

/-- Work that arrives at a node gated on host request ungates the node and its ancestors (R407). -/
def State.ungate (s : State) (n : Nat) : State :=
  (s.setOb Obj.CLK_GATE_REQ n false).setOb Obj.CLK_GATE_REQ (nodeParent n) false

/-! ### Responses (R456, R461, R464) -/

/-- The code of an outcome (R456). -/
def Status.code : Status → Nat
  | .ok => 0 | .absentObject => 1 | .readOnly => 2 | .outOfRange => 3 | .functionRunning => 4
  | .expertRequired => 5 | .keyRefused => 6 | .typeMismatch => 7 | .length => 8 | .segment => 9
  | .noResource => 10 | .failed => 11 | .unsupported => 12 | .version => 13 | .lockedOut => 14

/-- The transmit alive counter of a path (R273). -/
def txAlive : Path → Nat
  | .north => Obj.CHK_ALIVE_TXN | .can => Obj.CHK_ALIVE_TXC

/-- A message handed to a path takes the path's alive counter, which then advances modulo 16 (R273). -/
def State.send (s : State) (p : Path) (m : Msg) : State :=
  let m := { m with alive := s.o (txAlive p) }
  let s := s.wrapBy 4 (txAlive p) 1
  match p with
  | .north => { s with cufel := { s.cufel with outNorth := s.cufel.outNorth ++ [m] } }
  | .can => { s with cufel := { s.cufel with outCan := s.cufel.outCan ++ [m] } }

/-- The alive table of a path (R274). -/
def Cufel.table (c : Cufel) : Path → List AliveEntry
  | .north => c.aliveNorth | .can => c.aliveCan

/-- A path's alive table replaced. -/
def Cufel.setTable (c : Cufel) (t : List AliveEntry) : Path → Cufel
  | .north => { c with aliveNorth := t } | .can => { c with aliveCan := t }

/-- The source address of the response: the device address in force when the request was received (R458). -/
def State.respAddr (s : State) (q : Req) : Nat :=
  match s.cufel.queue.find? (fun e => e.matches q) with
  | some e => e.addr
  | none => s.o Obj.CF_ADDR

/-- A response goes on its path and is kept for its source (R461, R462). -/
def State.keepSend (s : State) (p : Path) (m : Msg) : State :=
  let c := s.cufel
  let c := c.setTable ((c.table p).map fun e => if e.src = m.dst then { e with kept := some m } else e) p
  { s with cufel := c }.send p m

/-- Refusals whose turn has come are sent (R459, R461). -/
def State.flushRefusals : Nat → State → State
  | 0, s => s
  | n + 1, s =>
    match s.cufel.queue with
    | e :: r =>
      match e.refusal with
      | some m => State.flushRefusals n ({ s with cufel := { s.cufel with queue := r } }.keepSend e.path m)
      | none => s
    | [] => s

/-- The response to a request: the request leaves the queue (R461, R462). -/
def State.respond (s : State) (q : Req) (mtype : Nat) (st : Status) (body : List Byte) : State :=
  let m : Msg :=
    { mtype := mtype, alive := 0, tid := q.tid.toNat, dst := q.src.toNat,
      src := s.respAddr q, status := st.code, resp := true, body := body }
  let c := { s.cufel with queue := s.cufel.queue.eraseP fun e => e.matches q }
  State.flushRefusals c.queue.length ({ s with cufel := c }.keepSend q.path m)

/-- XEFF of a LIVE write: the crossing that the first tick after execution starts (R465, R491). -/
def State.xeff (s : State) : Nat := (s.xc + 1) % 2 ^ 48

/-- The response to a WRITE; XEFF is zero unless the outcome is OK (R456, R464). -/
def State.respWrite (s : State) (q : Req) (k : Nat) (st : Status) (xeff : Nat) : State :=
  s.respond q 0x02 st (keyBytes k ++ bytesLE 6 (if st = .ok then xeff else 0))

/-- The response to a READ: INDEX, SUB, TCODE and the value; without one, no value field (R464, R465; log entry 60). -/
def State.respRead (s : State) (q : Req) (k tcode : Nat) (value : List Byte) : State :=
  s.respond q 0x01 .ok (keyBytes k ++ bytesLE 1 tcode ++ value)

/-- The source of the request holds an expert session on its path (R466, R467). -/
def State.isExpert (s : State) (q : Req) : Bool :=
  s.cufel.sessions.any fun e => decide (e.path = q.path) && e.src == q.src.toNat

/-- The common shape of a host write with a row of its own: the level check, the check of the write, its effect, and
the response with XEFF. -/
def State.hostWrite (s : State) (q : Req) (k : Nat) (expert : Bool) (check : Status) (effect : State) : State :=
  if expert && !s.isExpert q then s.respWrite q k .expertRequired 0
  else match check with
    | .ok => effect.respWrite q k .ok s.xeff
    | st => s.respWrite q k st 0

/-- A LIVE write that waits for the next tick; a later write of the same object stands (R491). -/
def State.pendLive (s : State) (k v : Nat) : State := { s with livePend := s.livePend ++ [(k, v)] }

end Sys2Proof.Machine
end

