-- ==== Sys2Proof/Machine/Crc.lean ====
section
/-! DEFINITION. The CRC-32C check units (R269 to R271). -/
namespace Sys2Proof.Machine

/-- n bit steps of a running value (R269). -/
def crcBits : Nat → Nat → Nat
  | 0, v => v
  | n + 1, v => crcBits n (if v % 2 = 1 then (v / 2) ^^^ 0x82F63B78 else v / 2)

/-- One byte into a running value. -/
def crcByte (v : Nat) (b : Byte) : Nat := crcBits 8 (v ^^^ b.toNat)

/-- Bytes into a running value, lowest address first. -/
def crcFeed (v : Nat) (l : List Byte) : Nat := l.foldl crcByte v

/-- CRC-32C of a byte string. -/
def crc32c (l : List Byte) : Nat := crcFeed 0xFFFFFFFF l ^^^ 0xFFFFFFFF

/-- A check unit is loaded with a running value and takes bytes: a stream that was suspended goes on (R270). -/
def State.checkOn (s : State) (i v : Nat) (l : List Byte) : State := s.setO (Obj.CHK_RUN i) (crcFeed v l)

/-- A check unit computes the CRC of a byte string and holds its running value (R270, R271). -/
def State.check (s : State) (i : Nat) (l : List Byte) : State := s.checkOn i 0xFFFFFFFF l

end Sys2Proof.Machine
end

