-- ==== Sys2Proof/Machine/NvmWords.lean ====
section
/-! DEFINITION. Words of the NVM (R499): writes in order, what a power loss leaves of the newest of them, and the words that
close a bank, a training copy or the patch image (R363, R501, R512). -/
namespace Sys2Proof.Machine

/-! ### Writes (R499, R500) -/

/-- Words written to a memory in order, each with its address, its size in bytes and its value: the memory, and for each word
its address, its size and what it held before. -/
def nvPuts : List (Nat × Nat × Nat) → Memory → Memory × List (Nat × Nat × Nat)
  | [], m => (m, [])
  | w :: r, m =>
    let x := nvPuts r (memPutWord m w.1 w.2.1 w.2.2)
    (x.1, (w.1, w.2.1, memWord m w.1 w.2.1) :: x.2)

/-- The device writes words to the NVM without a STORE: lifetime records, repair records and training copies (R500). -/
def State.nvWrite (s : State) (l : List (Nat × Nat × Nat)) : State :=
  let r := nvPuts l s.nvm
  { s with nvm := r.1, nv := { s.nv with wrote := r.2, torn := s.nv.torn.filter fun a => l.all fun w => w.1 != a } }

/-- A power loss cuts the newest such write in its word k: that word is left with t, and the later ones hold what they held
before (R499; DESIGN CHOICE, log entry 127). -/
def State.nvCut (s : State) (k t : Nat) : State :=
  match s.nv.wrote.drop k with
  | [] => s
  | w :: r =>
    let m := (w :: r).reverse.foldl (fun m (x : Nat × Nat × Nat) => memPutWord m x.1 x.2.1 x.2.2) s.nvm
    { s with nvm := memPutWord m w.1 w.2.1 t, nv := { s.nv with wrote := [], torn := w.1 :: s.nv.torn.filter fun a => a != w.1 } }

/-! ### Closing words (R363, R501) -/

/-- A word beside its complement (R501). -/
def withComplement (n : Nat) : Nat := (2 ^ 32 - 1 - n % 2 ^ 32) * 2 ^ 32 + n % 2 ^ 32

/-- A word whose high half complements its low half. -/
def complementOk (w : Nat) : Bool := w == withComplement (w % 2 ^ 32)

/-- The commit word when committed (R501). -/
def commitWord : Nat := 0xC3A55A3C0FF09669

/-- A byte string as words of 8 bytes from address a. -/
def wordsAt (a : Nat) (b : List Byte) : List (Nat × Nat × Nat) :=
  (List.range (ceilDiv b.length 8)).map fun i => (a + 8 * i, 8, fromLE ((b.drop (8 * i)).take 8))

/-! ### The training area (R363, R499) -/

/-- Base address of a training copy (R499). -/
def trainBase (i : Nat) : Nat := 0x10000 + 0x2000 * i

/-- What a training copy holds of one rank, in 64 bytes: the 37 delays, the die mark, and 1 when the copy holds the rank (the
places are the model's: log entry 127). -/
def trainRank : Option (List Byte × Nat) → List Byte
  | some (d, j) => (List.range 37).map (fun n => d.getD n 0) ++ bytesLE 1 j ++ bytesLE 1 1 ++ List.replicate 25 0
  | none => List.replicate 64 0

/-- A rank of a training copy, read back. -/
def rankOfTrain (b : List Byte) : Option (List Byte × Nat) :=
  if (b.getD 38 0).toNat = 1 then some (b.take 37, (b.getD 37 0).toNat) else none

/-- The data of a training copy. -/
def trainData (m : Memory) (i : Nat) : List Byte := memRead m (trainBase i) 192

/-- The words that write a training copy: data, CRC, generation, and the commit flag last (R363). -/
def trainWords (i gen : Nat) (ranks : List (Option (List Byte × Nat))) : List (Nat × Nat × Nat) :=
  let b := ranks.flatMap trainRank
  wordsAt (trainBase i) b ++ [(trainBase i + 0x1FE8, 8, withComplement (crc32c b)), (trainBase i + 0x1FF0, 8, withComplement gen),
    (trainBase i + 0x1FF8, 8, commitWord)]

/-- A training copy is valid, as R507 judges a bank: committed, with its two closing words whole and the CRC right. -/
def trainValid (m : Memory) (i : Nat) : Bool :=
  let w (off : Nat) : Nat := memWord m (trainBase i + off) 8
  w 0x1FF8 == commitWord && complementOk (w 0x1FF0) && complementOk (w 0x1FE8) && crc32c (trainData m i) == w 0x1FE8 % 2 ^ 32

/-- The generation of a training copy. -/
def trainGen (m : Memory) (i : Nat) : Nat := memWord m (trainBase i + 0x1FF0) 8 % 2 ^ 32

/-- The copy of the training area that a boot takes: the valid one with the higher generation (R363). -/
def trainCopy (m : Memory) : Option Nat :=
  if trainValid m 0 && trainValid m 1 then some (if trainGen m 0 < trainGen m 1 then 1 else 0)
  else if trainValid m 0 then some 0 else if trainValid m 1 then some 1 else none

/-- What the training area holds for the three ranks. -/
def State.trainStored (s : State) : List (Option (List Byte × Nat)) :=
  match trainCopy s.nvm with
  | some i => (List.range 3).map fun r => rankOfTrain (((trainData s.nvm i).drop (64 * r)).take 64)
  | none => [none, none, none]

/-- The words that write the other copy of the training area (R363). -/
def State.newTrain (s : State) (ranks : List (Option (List Byte × Nat))) : List (Nat × Nat × Nat) :=
  match trainCopy s.nvm with
  | some i => trainWords (1 - i) ((trainGen s.nvm i + 1) % 2 ^ 32) ranks
  | none => trainWords 0 1 ranks

/-! ### The repair area (R379, R499, R500) -/

/-- The repair records that the area has places in use for. -/
def State.repairCount (s : State) : Nat :=
  let l := s.nvm.map (·.1) ++ s.nv.torn
  let used := l.filter fun a => decide (0x18000 ≤ a) && decide (a < 0x19000)
  (used.map fun a => (a - 0x18000) / 4 + 1).foldl max 0

/-- A repair record that a power loss has left indeterminate (R500). -/
def State.repairTorn (s : State) (n : Nat) : Bool := s.nv.torn.contains (0x18000 + 4 * n)

/-- The repair records of the NVM, those left indeterminate apart (R379, R500). -/
def State.repairRecords (s : State) : List Nat :=
  ((List.range s.repairCount).filter fun n => !s.repairTorn n).map fun n => memWord s.nvm (0x18000 + 4 * n) 4

/-- How many repair records a power loss has left indeterminate (R500). -/
def State.repairsTorn (s : State) : Nat := ((List.range s.repairCount).filter s.repairTorn).length

/-- The words that write new repair records behind those there are; no place is written twice (R500). -/
def State.newRepairWords (s : State) (l : List Nat) : List (Nat × Nat × Nat) :=
  let n := s.repairCount
  ((l.take (1024 - n)).zipIdx).map fun e => (0x18000 + 4 * (n + e.2), 4, e.1)

end Sys2Proof.Machine
end

