-- ==== Sys2Proof/Machine/Ring.lean ====
section
/-! DEFINITION. The ring's layouts and the index (R150 to R156), the chip-kill code (R352 to R356), reads of ranks and
scratchpad, and the retirement of a rank with what it does to the latency buffer (R163, R166, R367 to R369). -/
namespace Sys2Proof.Machine

/-! ### Layout -/

/-- LB_STATE, or in HELD the state that a resume returns to (R162): 1 DUAL, 2 MIGRATE, 3 SINGLE, 4 MAQUETTE. -/
def State.lbMode (s : State) : Nat := if s.o Obj.LB_STATE = 5 then s.lb.before else s.o Obj.LB_STATE

/-- LB_STATE takes a new value, which HELD shows only after the resume. -/
def State.setLbMode (s : State) (m : Nat) : State :=
  if s.o Obj.LB_STATE = 5 then { s with lb := { s.lb with before := m } } else s.setO Obj.LB_STATE m

/-- Cap of a layout (R151). -/
def ringCap (mode : Nat) : Nat :=
  match mode with
  | 1 => 67108864 | 2 => 67108864 | 3 => 33554432 | 4 => 3932160 | _ => 0

/-- POS0 of LB_RANKMAP (R175). -/
def State.pos0 (s : State) : Nat := bits (s.o Obj.LB_RANKMAP) 5 4

/-- POS1 of LB_RANKMAP (R175). -/
def State.pos1 (s : State) : Nat := bits (s.o Obj.LB_RANKMAP) 3 2

/-- SPARE of LB_RANKMAP (R175). -/
def State.spareUp (s : State) : Bool := s.ob Obj.LB_RANKMAP 1

/-- LB_RANKMAP from its fields (R175). -/
def State.setMap (s : State) (p0 p1 : Nat) (spare : Bool) : State :=
  s.setO Obj.LB_RANKMAP (p0 * 16 + p1 * 4 + b2n spare * 2)

/-- Where a ring address lies (R151). -/
inductive Place where
  | rank (position : Nat) (r : Nat) (addr : Nat)
  | spm (addr : Nat)
  | nowhere
  deriving DecidableEq, Repr

/-- The place of ring address x in the layout in force (R151). -/
def State.place (s : State) (x : Nat) : Place :=
  match s.lbMode with
  | 1 | 2 =>
    let p := bits x 6 6
    .rank p (if p = 0 then s.pos0 else s.pos1) (bits x 25 7 * 64 + x % 64)
  | 3 => .rank 0 s.pos0 x
  | 4 => .spm (0x040000 + x)
  | _ => .nowhere

/-- The effective latency L_eff (R156). -/
def State.leff (s : State) : Nat :=
  match s.lbMode with
  | 0 => 0
  | 4 => min (s.o Obj.LB_LATENCY) 65535
  | _ => s.o Obj.LB_LATENCY

/-- The assembler's window W (R129). -/
def State.window (s : State) : Nat := s.o Obj.ASM_WINDOW

/-! ### The index (R153 to R155) -/

/-- The index word of R153. -/
def indexWord (addr count : Nat) (trunc lost : Bool) : Nat :=
  addr / 8 * 512 + count * 4 + b2n trunc * 2 + b2n lost

/-- The scratchpad address of crossing x's entry (R154). -/
def State.indexAddr (s : State) (x : Nat) : Nat := 4 * (if s.lbMode = 4 then x % 2 ^ 16 else x % 2 ^ 20)

/-- The index word of crossing x. -/
def State.indexOf (s : State) (x : Nat) : Nat := memWord s.spm (s.indexAddr x) 4

/-- The index entry of crossing x written (R155). -/
def State.writeEntry (s : State) (x w : Nat) : State := { s with spm := memPutWord s.spm (s.indexAddr x) 4 w }

/-- LOST of crossing x's entry set. -/
def State.markLost (s : State) (x : Nat) : State := s.writeEntry x (setBit (s.indexOf x) 0 true)

/-! ### The chip-kill code over GF(2^16) (R353, R354) -/

/-- n steps of the product of two symbols modulo 0x1100B. -/
def gfMulFrom : Nat → Nat → Nat → Nat → Nat
  | 0, _, _, acc => acc
  | n + 1, a, b, acc =>
    gfMulFrom n (if 2 * a ≥ 65536 then (2 * a) ^^^ 0x1100B else 2 * a) (b / 2) (if b % 2 = 1 then acc ^^^ a else acc)

/-- The product of two symbols. -/
def gfMul (a b : Nat) : Nat := gfMulFrom 16 a b 0

/-- alpha^j for j up to 5. -/
def alpha (j : Nat) : Nat := 2 ^ j

/-- The inverse of 0x0030. -/
def inv30 : Nat := 0x2D01

/-- Syndrome S0. -/
def syn0 (c : List Nat) : Nat := c.foldl (· ^^^ ·) 0

/-- Syndrome S1. -/
def syn1 (c : List Nat) : Nat := c.zipIdx.foldl (fun a e => a ^^^ gfMul (alpha e.2) e.1) 0

/-- The six symbols of a beat with data symbols d0 to d3 (R352, R353). -/
def encodeBeat (d : List Nat) : List Nat :=
  let p := syn0 d
  let q := syn1 d
  let c4 := gfMul (q ^^^ gfMul (alpha 5) p) inv30
  d ++ [c4, p ^^^ c4]

/-- The status of a decoded beat. -/
inductive BeatStatus where
  | clean | corrected (j : Nat) | uncorrectable
  deriving DecidableEq, Repr

/-- The decoder of R354; f is the marked die, 0xFF for none. -/
def decodeBeat (f : Nat) (c : List Nat) : BeatStatus × List Nat :=
  let s0 := syn0 c
  let s1 := syn1 c
  if f ≥ 6 then
    if s0 = 0 ∧ s1 = 0 then (.clean, c)
    else if s0 = 0 then (.uncorrectable, c)
    else match (List.range 6).find? (fun j => gfMul (alpha j) s0 == s1) with
      | some j => (.corrected j, c.modify j (· ^^^ s0))
      | none => (.uncorrectable, c)
  else if s1 = gfMul (alpha f) s0 then (.clean, c.modify f (· ^^^ s0))
  else (.uncorrectable, c)

/-- The data symbols of eight bytes. -/
def dataSymbols (b : List Byte) : List Nat := (List.range 4).map fun j => fromLE ((b.drop (2 * j)).take 2)

/-- The eight bytes of the data symbols. -/
def symbolBytes (c : List Nat) : List Byte := (c.take 4).flatMap (bytesLE 2)

/-- The symbols of an error pattern of 96 bits. -/
def errSymbols (e : Nat) : List Nat := (List.range 6).map fun j => bits e (16 * j + 15) (16 * j)

/-! ### Ranks -/

/-- One rank's controller. -/
def State.rank (s : State) (r : Nat) : Rank := s.memUnit.ranks.get (rankFin r)

/-- One rank's controller replaced. -/
def State.setRank (s : State) (r : Nat) (x : Rank) : State :=
  { s with memUnit := { s.memUnit with ranks := s.memUnit.ranks.set (rankFin r) x } }

/-- One rank's contents. -/
def State.rankData (s : State) (r : Nat) : Memory := s.rankMem.get (rankFin r)

/-- One rank's contents replaced. -/
def State.setRankData (s : State) (r : Nat) (m : Memory) : State := { s with rankMem := s.rankMem.set (rankFin r) m }

/-- DRM_RSTATE of rank r (R367). -/
def State.rstate (s : State) (r : Nat) : Nat := s.o (Obj.DRM_RSTATE r)

/-- The current interval of the fixed 1 ms grid (R355; log entry 8). -/
def State.gridMs (s : State) : Nat := s.tick * 1000 / s.o Obj.CLK_FX_NOM

/-- The rank's interval counts, cleared when a new interval has begun. -/
def State.rollRank (s : State) (r : Nat) : State :=
  let x := s.rank r
  if x.interval = s.gridMs then s
  else s.setRank r { x with corr := [0, 0, 0, 0, 0, 0], ue := 0, interval := s.gridMs }

/-- Condition 3 ends once no serving rank has a marked die (R550). -/
def State.dieCond (s : State) : State :=
  if (List.range 3).any fun r => s.rstate r == 3 && s.o (Obj.DRM_DIEMARK r) != 0xFF then s else s.ceases 3

/-- A die mark is added to the training area, when that holds the rank (R355). -/
def State.storeMark (s : State) (r j : Nat) : State :=
  match s.trainStored.getD r none with
  | some (d, _) => s.nvWrite (s.newTrain (s.trainStored.set r (some (d, j))))
  | none => s

/-- A die is marked failed: the rank goes on in erasure mode, and the mark goes into the training area (R355). -/
def State.markDie (s : State) (r j corr : Nat) : State :=
  if s.o (Obj.DRM_DIEMARK r) = 0xFF ∧ 1 ≤ s.rstate r ∧ s.rstate r ≤ 6 then
    let s := s.setO (Obj.DRM_DIEMARK r) j
    let s := (s.storeMark r j).raiseFault 7 (Fin.ofNat 128 r)
    ((s.stage 0x0301 0 r (bytesLE 1 j ++ bytesLE 2 corr)).ariseIf 3).dieCond
  else s

/-! ### Retirement (R163, R166, R367 to R369) -/

/-- The ring address of absolute write position a. -/
def State.ringAt (s : State) (a : Nat) : Nat :=
  let cap := ringCap s.lbMode
  (s.o Obj.LB_WPTR + cap - (s.o Obj.LB_WTOTAL - a) % cap) % cap

/-- The slice had a byte written to position p before now: of its 8-byte words, one is drained and lies there. -/
def State.touched (s : State) (p : Nat) (c : Closed) : Bool :=
  (List.range (c.size / 8)).any fun k =>
    decide (c.a + 8 * k < s.o Obj.LB_WTOTAL - s.lb.wc.length) && bits (s.ringAt (c.a + 8 * k)) 6 6 == p

/-- R_S of R163: one more than the newest crossing with a byte written to position p; with none, LB_LOSTBELOW. -/
def State.firstFree (s : State) (p : Nat) : Nat :=
  match s.lb.closed.reverse.find? (s.touched p) with
  | some c => c.x + 1
  | none => s.o Obj.LB_LOSTBELOW

/-- A rank that a layout can go on with: SERVING, WAKE or in self-refresh for a Hold. -/
def State.usable (s : State) (r : Nat) : Bool := s.rstate r == 3 || s.rstate r == 5 || s.rstate r == 6

/-- A switch of layout after a retirement falls due at the next tick (R166). -/
def State.switchAfterLoss (s : State) : State :=
  { s with lb := { s.lb with switch := some { kind := .loss, from_ := s.tick + 1 }, drainHeld := true } }

/-- The migration begins: S stands in for rank r (R163). -/
def State.startMigration (s : State) (r : Nat) : State :=
  let p := if s.pos0 = r then 0 else 1
  let s := (s.setO Obj.LB_MIGPTR (s.firstFree p)).setLbMode 2
  let s := (s.setO (Obj.DRM_RSTATE 2) 5).setMap s.pos0 s.pos1 false
  { s with lb := { s.lb with drainHeld := true, migRank := r, migFrom := s.o Obj.LB_WTOTAL - s.lb.wc.length } }

/-- A rank that served in the layout in force has been lost: S stands in when it can, or the layout switches. -/
def State.lostServing (s : State) (r : Nat) : State :=
  if s.lbMode = 1 ∧ s.spareUp = true ∧ s.rstate 2 = 4 ∧ s.lb.switch.isNone = true then s.startMigration r
  else s.switchAfterLoss

/-- Rank r is retired for a cause of R368; a rank already RETIRED or DOWN keeps its record. SPARE of LB_RANKMAP clears at once as
R162 says, also while LB_STATE is HELD, where R175 keeps the fields (DESIGN CHOICE, log entry 170). S fails in WAKE with a switch
of layout only while a migration is to bring it in (R166). -/
def State.retire (s : State) (r cause : Nat) : State :=
  let st := s.rstate r
  if st = 7 ∨ st = 8 then s
  else
    let s := (s.setO (Obj.DRM_RETIRE r) cause).setO (Obj.DRM_RETIREX r) s.xc
    let s : State := { s with watch := { s.watch with retiredAt := some s.tick } }
    let s := (s.stage 0x0302 0 r (bytesLE 1 cause ++ bytesLE 4 (s.o (Obj.DRM_UE_ADDR r)))).ariseIf 4
    let inRing := decide (s.lbMode = 1 ∨ s.lbMode = 2 ∨ s.lbMode = 3) && (s.pos0 == r || s.pos1 == r)
    let s :=
      if st = 4 then (s.setO (Obj.DRM_RSTATE r) 8).setMap s.pos0 s.pos1 false
      else if r = 2 ∧ s.lbMode = 2 ∧ inRing = false ∧ (st = 5 ∨ st = 6) then (s.setO (Obj.DRM_RSTATE r) 8).switchAfterLoss
      else if (st = 3 ∨ st = 6) ∧ inRing = true then (s.setO (Obj.DRM_RSTATE r) 7).lostServing r
      else s.setO (Obj.DRM_RSTATE r) 8
    s.dieCond

/-! ### Reading a rank (R354 to R356) -/

/-- A decoded beat is counted against its rank, and may mark a die or retire the rank (R355, R356). -/
def State.noteBeat (s : State) (r addr : Nat) (st : BeatStatus) : State :=
  match st with
  | .clean => s
  | .corrected j =>
    let s := (s.bump (Obj.DRM_CORR r j)).rollRank r
    let n := (s.rank r).corr.getD j 0 + 1
    let s := s.setRank r { s.rank r with corr := (s.rank r).corr.modify j (· + 1) }
    if n ≥ s.o Obj.DRM_DIE_THR then s.markDie r j n else s
  | .uncorrectable =>
    let s := ((s.bump (Obj.DRM_UE r)).setO (Obj.DRM_UE_ADDR r) addr).rollRank r
    let n := (s.rank r).ue + 1
    let s := s.setRank r { s.rank r with ue := n }
    if s.rstate r = 3 then
      if s.o (Obj.DRM_DIEMARK r) ≠ 0xFF then s.retire r 1
      else if n ≥ s.o Obj.DRM_UE_THR then s.retire r 2 else s
    else s

/-- The error that the operands give a beat of a rank. -/
def beatError (u : List Upset) (r addr : Nat) : Nat :=
  u.foldl (fun e x => match x with
    | .beat k a err => if k.num = r ∧ a.toNat / 8 = addr / 8 then e ^^^ err.toNat else e
    | _ => e) 0

/-- The eight bytes of a beat as the decoder gives them, and its status. -/
def State.decodedBeat (s : State) (r addr : Nat) (u : List Upset) : BeatStatus × List Byte :=
  let c := List.zipWith (· ^^^ ·) (encodeBeat (dataSymbols (memRead (s.rankData r) addr 8))) (errSymbols (beatError u r addr))
  let d := decodeBeat (s.o (Obj.DRM_DIEMARK r)) c
  (d.1, symbolBytes d.2)

/-- One beat read from a rank: the state, the bytes, and true when it is uncorrectable. -/
def State.readBeat (s : State) (r addr : Nat) (u : List Upset) : State × List Byte × Bool :=
  let d := s.decodedBeat r addr u
  (s.noteBeat r addr d.1, d.2, decide (d.1 = .uncorrectable))

/-- A request wakes a rank in power-down (R359). -/
def State.wakeRank (s : State) (r : Nat) : State := s.setRank r { s.rank r with powerDown := false }

/-- Bursts read from rank r are counted. -/
def State.countReads (s : State) (r n : Nat) : State := (s.wrapBy 64 (Obj.DRM_READS r) n).wakeRank r

/-- Bursts written to rank r are counted. -/
def State.countWrites (s : State) (r n : Nat) : State := (s.wrapBy 64 (Obj.DRM_WRITES r) n).wakeRank r

/-! ### Reading the scratchpad (R378, R385) -/

/-- The error that the operands give a scratchpad word, and the bits that read wrong in it. -/
def wordErr (u : List Upset) (addr : Nat) : Option (WordErr × Nat) :=
  u.findSome? fun x => match x with
    | .word a k err => if a.toNat / 8 = addr / 8 then some (k, err.toNat) else none
    | _ => none

/-- What the port says of a word: corrected, uncorrectable, or nothing (R378). -/
def wordError (u : List Upset) (addr : Nat) : Option Bool :=
  match wordErr u addr with
  | some (.single, _) | some (.miscorrected, _) => some false
  | some (.double, _) => some true
  | some (.missed, _) | none => none

/-- The bits that a word reads wrong: all of a single error are corrected (R378). -/
def wordErrBits (u : List Upset) (addr : Nat) : Nat :=
  match wordErr u addr with
  | some (.single, _) | none => 0
  | some (_, e) => e

/-- Bytes from an address on as they read, with the errors that the operands give their words. -/
def asRead (u : List Upset) (addr : Nat) (b : List Byte) : List Byte :=
  if u.isEmpty then b
  else b.zipIdx.map fun e =>
    let a := addr + e.2
    e.1 ^^^ BitVec.ofNat 8 (wordErrBits u a / 256 ^ (a % 8))

/-- A scratchpad word that reads as corrected is counted, and waits for its write-back (R378). -/
def State.fixWord (s : State) (addr : Nat) (u : List Upset) : State :=
  let a := addr / 8 * 8
  let f : SpmFix := { addr := a, seen := memWord s.spm a 8, err := wordErrBits u a }
  { s.bump Obj.SPM_CORR with memUnit := { s.memUnit with fix := s.memUnit.fix ++ [f] } }

/-- A scratchpad word read by an agent of R373: a corrected word waits for its write-back, an uncorrectable one is
counted and reported. -/
def State.noteWord (s : State) (agent addr : Nat) (u : List Upset) : State :=
  match wordError u addr with
  | none => s
  | some false => s.fixWord addr u
  | some true =>
    (((s.bump Obj.SPM_UE).setO Obj.SPM_UE_ADDR (addr / 8 * 8)).stage 0x0305 0 agent
      (bytesLE 1 0 ++ bytesLE 4 (addr / 8 * 8))).ariseOnce 6

/-- The scratchpad words that the operands name, once each. -/
def wordsNamed (u : List Upset) : List Nat :=
  (u.filterMap fun x => match x with
    | .word a _ _ => some (a.toNat / 8 * 8)
    | _ => none).dedup

/-- Those of them, in ascending order, that begin in [a, a + n). -/
def namedIn (u : List Upset) (a n : Nat) : List Nat := ascending ((wordsNamed u).filter fun w => decide (a ≤ w) && decide (w < a + n))

/-- A channel reads [a, a + n) and halts at an uncorrectable word (R385): the state, and that word. The words that read
other than right are met in ascending order. -/
def State.channelRead (s : State) (agent a n : Nat) (u : List Upset) : State × Option Nat :=
  let ws := namedIn u a n
  let bad := ws.find? fun w => wordError u w == some true
  let met := (ws.takeWhile fun w => wordError u w != some true) ++ bad.toList
  (met.foldl (fun s w => s.noteWord agent w u) s, bad)

/-- The words that n bytes at addr lie in. -/
def wordsOf (addr n : Nat) : List Nat := (List.range ((addr % 8 + n + 7) / 8)).map fun i => addr / 8 * 8 + 8 * i

/-- n bytes read from the scratchpad by an agent: the state, the bytes, and true when a word is uncorrectable. -/
def State.readSpm (s : State) (agent addr n : Nat) (u : List Upset) : State × List Byte × Bool :=
  let ws := wordsOf addr n
  (ws.foldl (fun s w => s.noteWord agent w u) s, asRead u addr (memRead s.spm addr n), ws.any fun w => wordError u w == some true)

/-! ### The write-combine buffer as part of the ring (R35, R137) -/

/-- The ring address of the buffer's oldest byte. -/
def State.wcBase (s : State) : Nat :=
  let cap := ringCap s.lbMode
  (s.o Obj.LB_WPTR + cap - s.lb.wc.length) % cap

/-- The offset of ring address x in the buffer, when the buffer holds it. -/
def State.wcOffset (s : State) (x : Nat) : Option Nat :=
  let cap := ringCap s.lbMode
  let o := (x + cap - s.wcBase) % cap
  if o < s.lb.wc.length then some o else none

/-- The error that the operands give a buffer word. -/
def bufferError (u : List Upset) (x : Nat) : Option Nat :=
  u.findSome? fun e => match e with
    | .buffer a err => if a.toNat = x then some err.toNat else none
    | _ => none

/-- The absolute write position that ring address x held last (R157). -/
def State.absAt (s : State) (x : Nat) : Nat :=
  let cap := ringCap s.lbMode
  let d := (s.o Obj.LB_WPTR + cap - x) % cap
  s.o Obj.LB_WTOTAL - (if d = 0 then cap else d)

/-- The rank that a fetch of crossing c reads for ring address x: during MIGRATE the retired rank below LB_MIGPTR, but for
bytes that the buffer still held at the retirement, which went to S (R163, R165, R172; DEDUCED, log entry 140). -/
def State.fetchRank (s : State) (c x p r : Nat) : Nat :=
  let retiredPos := if s.pos0 = s.lb.migRank ∨ s.pos0 = 2 then 0 else 1
  if s.lbMode = 2 ∧ p = retiredPos ∧ c < s.o Obj.LB_MIGPTR ∧ s.absAt x < s.lb.migFrom then s.lb.migRank else r

/-- One 8-byte word of slice c read at ring address x (R35, R165, R167). -/
def State.fetchWord (s : State) (c x : Nat) (u : List Upset) : State × List Byte × Bool :=
  match s.wcOffset x with
  | some o => (s, (s.lb.wc.drop o).take 8, (bufferError u x).isSome)
  | none =>
    match s.place x with
    | .rank p r a => s.readBeat (s.fetchRank c x p r) a u
    | .spm a => s.readSpm 2 a 8 u
    | .nowhere => (s, [], true)

/-- A slice of n words fetched from ring address x on; an uncorrectable word halts the fetch (R202). -/
def State.fetchWords (s : State) (c x : Nat) (u : List Upset) : Nat → State × List Byte × Bool
  | 0 => (s, [], false)
  | n + 1 =>
    let r := s.fetchWord c x u
    if r.2.2 then (r.1, [], true)
    else
      let q := r.1.fetchWords c ((x + 8) % ringCap s.lbMode) u n
      (q.1, r.2.1 ++ q.2.1, q.2.2)

/-- The bursts that a fetch of n words from ring address x reads from the ranks: per word that does not lie in the
buffer, its rank and burst. -/
def State.fetchBursts (s : State) (c x n : Nat) : List (Nat × Nat) :=
  ((List.range n).filterMap fun k =>
    let y := (x + 8 * k) % ringCap s.lbMode
    match s.wcOffset y, s.place y with
    | none, .rank p r a => some (s.fetchRank c y p r, a / 64)
    | _, _ => none).dedup

/-- A slice of COUNT n fetched from ring address x: its bytes, and true when a beat of it is uncorrectable. -/
def State.fetchSlice (s : State) (c x n : Nat) (u : List Upset) : State × List Byte × Bool :=
  let words := ceilDiv (6 * n) 8
  let s := (s.fetchBursts c x words).foldl (fun s b => s.countReads b.1 1) s
  s.fetchWords c x u words

end Sys2Proof.Machine
end

