-- ==== Sys2Proof/Machine/Flags.lean ====
section
/-! DEFINITION. The flag computations: the degraded conditions of R522, the power state they decide, the fault conditions
that end by themselves (R550) and FAULT_N. -/
namespace Sys2Proof.Machine

/-- The north bundle carries fewer lanes than the agreed set, in UP (R522, R550). -/
def State.bundleShort (s : State) : Bool :=
  s.o Obj.RG_LSTATE == 3 && decide (popcount 8 (s.o Obj.RG_LANEMAP) < popcount 8 s.north.agreed)

/-- The device is a hub (R1). -/
def State.isHub (s : State) : Bool := s.o Obj.CF_ROLE == 2

/-- An enabled south port is not in UP (R522). -/
def State.portMissing (s : State) : Bool :=
  s.isHub && (s.o Obj.HUB_PORT_EN &&& (0xFF ^^^ s.o Obj.HUB_PORT_UP % 256)) != 0

/-- One builder serves alone: from the take-out of a unit to lockstep (R244, R522). -/
def State.builderAlone (s : State) : Bool := s.o Obj.BLD_STATE == 2 || s.o Obj.BLD_STATE == 3

/-- A function's re-initialisation is in progress (R536). -/
def State.reiniting (s : State) (f : Nat) : State := { s with power := { s.power with reinit := s.power.reinit ++ [f] } }

/-- A function's re-initialisation is over. -/
def State.reinitOver (s : State) (f : Nat) : State :=
  { s with power := { s.power with reinit := s.power.reinit.filter (· != f) } }

/-- PWR_DEGR as R522 lays it out. -/
def State.degrNow (s : State) : Nat :=
  b2n ((List.range 3).any fun r => s.rstate r == 3 && s.o (Obj.DRM_DIEMARK r) != 0xFF)
  + 2 * b2n (decide (s.lbMode = 1 ∨ s.lbMode = 2 ∨ s.lbMode = 3) && (s.pos0 == 2 || s.pos1 == 2))
  + 4 * b2n (s.lbMode == 3)
  + 8 * b2n (s.lbMode == 4 && s.lb.noRank)
  + 16 * b2n s.builderAlone
  + 32 * b2n s.bundleShort
  + 64 * b2n s.portMissing
  + 128 * b2n s.power.lostA
  + 256 * b2n s.cufel.down
  + 512 * b2n (s.o (Obj.LN_ASTATE 8) != 4)

/-- A condition ends when its level no longer holds. -/
def State.endIf (s : State) (n : Nat) (gone : Bool) : State := if gone && s.ob Obj.FLT_ACTIVE n then s.ceases n else s

/-- An enabled port that is not in UP raises its condition (R550). -/
def State.portCond (s : State) : State :=
  if s.portMissing && !s.ob Obj.FLT_ACTIVE 12 then
    let k := (bitList 8 (s.o Obj.HUB_PORT_EN &&& (0xFF ^^^ s.o Obj.HUB_PORT_UP % 256))).headD 0
    (s.stage 0x0503 0 k (bytesLE 1 (s.o (Obj.HUB_PSTATE k)))).ariseIf 12
  else s

/-- Run against Degraded, the conditions that end by themselves, and FAULT_N, brought up to date (R522, R550
to R552). -/
def State.settle (s : State) : State :=
  let s := if s.inRun then s.setO Obj.PWR_STATE (if s.degrNow = 0 then 3 else 5) else s
  let s := s.endIf 2 (s.ob Obj.PWR_FEEDS 0 && s.ob Obj.PWR_FEEDS 1)
  let s := s.endIf 8 (s.o Obj.BLD_STATE == 1)
  let s := s.endIf 10 (!s.bundleShort)
  let s := s.endIf 11 (s.o Obj.RG_LSTATE == 3)
  let s := s.endIf 12 (!s.portMissing)
  s.portCond.dieCond.refreshFaultN

end Sys2Proof.Machine
end

