-- ==== Sys2Proof/Machine/FrontEnd.lean ====
section
/-! DEFINITION. The channel front end: discriminators, enables, fast-OR, overload and the rate meter's counting (R47 to
R63, R112, R113). -/
namespace Sys2Proof.Machine

/-! ### Field names -/

/-- The channel is enabled: FE_ENABLE.EN in force, while data service is ready and no park has begun (R58, R61, R523). -/
def State.en (s : State) (c : Ch) : Bool := s.ob (Obj.FE_ENABLE c) 0 && s.dataReady

/-- Edges of the channel count: it is enabled, and released from Held (R59, R60, R112). -/
def State.counts (s : State) (c : Ch) : Bool := s.en c && (s.chan c).releaseAt.isNone

/-- FE_ENABLE.FASTOR in force (R58). -/
def State.fastorOn (s : State) (c : Ch) : Bool := s.ob (Obj.FE_ENABLE c) 1

/-- FE_ENABLE.DATA in force (R58). -/
def State.dataOn (s : State) (c : Ch) : Bool := s.ob (Obj.FE_ENABLE c) 2

/-- The TDC converts edges: TDC_STATE is RUN (R61, R100). -/
def State.tdcRuns (s : State) : Bool := s.o Obj.TDC_STATE == 2

/-- The state a discriminator enters from its input's place at release (R55, R59). -/
def bandState : Band → Disc
  | .below => .low | .inside => .unknown | .above => .high

/-- The energy threshold lies within reach of the preamplifier: the discriminator never fires at codes 240 to 255 (R53). -/
def State.energyFires (s : State) (c : Ch) : Bool := decide (s.o (Obj.FE_THR_E c) < 240)

/-- The state the energy discriminator enters at release; out of reach, no input stands at its threshold (R53, R55). -/
def State.energyBand (s : State) (c : Ch) (e : Band) : Disc :=
  if bandState e = .high && !s.energyFires c then .unknown else bandState e

/-! ### Fast-OR (R62, R143) -/

/-- A timing rise counts in the fast-OR of its crossing. -/
def State.fastorTiming (s : State) (c : Ch) : State :=
  if s.counts c && s.fastorOn c then { s with fastOr := { s.fastOr with hits := s.fastOr.hits + 1 } } else s

/-- An energy edge passed to the walk meter counts in the fast-OR. -/
def State.fastorEnergy (s : State) (c : Ch) : State :=
  if s.counts c && s.fastorOn c then { s with fastOr := { s.fastOr with energy := s.fastOr.energy + 1 } } else s

/-- A hit was lost in the crossing in progress (R143, R145). -/
def State.lossOvf (s : State) : State := { s with fastOr := { s.fastOr with ovf := true } }

/-! ### Rate meter counting (R112 to R114) -/

/-- An edge through a channel's prescaler of 2^k into its saturating counter. -/
def Chan.meter (x : Chan) (k : Nat) : Chan :=
  if x.rmRem + 1 ≥ 2 ^ k then { x with rmRem := 0, rmCnt := satAdd 32 x.rmCnt 1 }
  else { x with rmRem := x.rmRem + 1 }

/-- A recognised edge of source src counts while gates run and the channel is enabled and released (R112). -/
def State.meterEdge (s : State) (c : Ch) (src : Nat) : State :=
  if s.o Obj.TDC_RM_STATE == 1 && s.o Obj.TDC_RM_SRC == src && s.counts c then
    s.setChan c ((s.chan c).meter (s.o Obj.TDC_RM_PRESC))
  else s

/-! ### Enable and disable (R58 to R60) -/

/-- EN changes from 0 to 1: the discriminators are Held until 128 ticks later; a hit in progress goes on (R59, R60). -/
def State.enableChan (s : State) (c : Ch) : State :=
  let x := s.chan c
  if x.closing then s.setChan c { x with releaseAt := some (s.tick + 128) }
  else s.setChan c { x with releaseAt := some (s.tick + 128), timing := .held, energy := .held }

/-- The front end of a channel powers down: both discriminators Off, the TDC idle (R60). -/
def Chan.powerDown (x : Chan) : Chan :=
  { x with timing := .off, energy := .off, hit := none, closing := false, releaseAt := none }

/-- EN changes from 1 to 0: a hit in progress is completed first (R60). -/
def State.disableChan (s : State) (c : Ch) : State :=
  let x := s.chan c
  match x.hit with
  | some h => if h.saturated then s.setChan c x.powerDown
      else s.setChan c { x with closing := true, releaseAt := none }
  | none => s.setChan c x.powerDown

/-- FE_ENABLE takes a new value at a tick (R58). -/
def State.feEnableEffect (s : State) (c : Ch) (v : Nat) : State :=
  let was := s.en c
  let s := s.setO (Obj.FE_ENABLE c) v
  if !was && s.en c then s.enableChan c
  else if was && !s.en c then s.disableChan c
  else s

/-- The end of a hit that kept a disabled channel powered: Off, or Held when it has been enabled again (R60). -/
def State.afterHit (s : State) (c : Ch) : State :=
  let x := s.chan c
  if x.closing then
    (if s.en c then s.setChan c { x with closing := false, timing := .held, energy := .held }
     else s.setChan c x.powerDown)
  else s

/-- CHANNEL_RELEASE: at the release tick the discriminators leave Held by R55, without an edge; a timing discriminator whose
saturated hit still awaits its real fall has stayed High (R60, R93). -/
def State.release (s : State) (c : Ch) (t e : Band) : State :=
  let x := s.chan c
  match x.releaseAt with
  | some r =>
    if r ≤ s.tick ∧ s.en c = true then
      s.setChan c { x with releaseAt := none, closing := false, energy := s.energyBand c e,
                           timing := if x.hit.isSome then .high else bandState t }
    else s
  | none => s

/-- UNKNOWN_STATE_EXIT: an unknown discriminator leaves its band, which is no edge (R55). -/
def State.unknownExit (s : State) (c : Ch) (w : Which) (up : Bool) : State :=
  let x := s.chan c
  let d : Disc := if up then .high else .low
  match w with
  | .timing => if x.timing = .unknown then s.setChan c { x with timing := d } else s
  | .energy => if x.energy = .unknown ∧ (up = false ∨ s.energyFires c = true) then s.setChan c { x with energy := d } else s

/-! ### Overload (R48) -/

/-- The node has stood above its trim level: FE_OVL and FE_OVL_SEEN. -/
def State.overloadSet (s : State) (c : Ch) : State :=
  (s.setOb Obj.FE_OVL c true).setOb Obj.FE_OVL_SEEN c true

/-- The node is back at its trim level: FE_OVL clears. -/
def State.overloadClear (s : State) (c : Ch) : State := s.setOb Obj.FE_OVL c false

/-! ### The commands -/

/-- FE_OVERLOAD_SET. -/
def execFeOverloadSet (c : Ch) (s : State) : Host.Outcome State Fault Refusal := .next (s.ifAwake (s.overloadSet c))

/-- FE_OVERLOAD_CLEAR. -/
def execFeOverloadClear (c : Ch) (s : State) : Host.Outcome State Fault Refusal := .next (s.ifAwake (s.overloadClear c))

/-- CHANNEL_RELEASE (R59). -/
def execChannelRelease (c : Ch) (t e : Band) (s : State) : Host.Outcome State Fault Refusal := .next (s.ifAwake (s.release c t e))

/-- UNKNOWN_STATE_EXIT (R55). -/
def execUnknownStateExit (c : Ch) (w : Which) (up : Bool) (s : State) : Host.Outcome State Fault Refusal :=
  .next (s.ifAwake (s.unknownExit c w up))

end Sys2Proof.Machine
end

