-- ==== Sys2Proof/Machine/Assembly.lean ====
section
/-! DEFINITION. The crossing assembler: collection, loss records, packing and close, credit and states (R126 to R142), and
the floors that a close and a tick move (R157, R158). -/
namespace Sys2Proof.Machine

/-! ### Floors (R158) -/

/-- The age floor t - L_eff + 1, 0 when negative. -/
def State.ageFloor (s : State) : Nat := s.xc + 1 - s.leff

/-- The capacity floor binds: the first slice since LB_LOSTBELOW was set no longer fits. -/
def State.capBinds (s : State) : Bool :=
  match s.lb.first with
  | some a => decide (s.o Obj.LB_WTOTAL - a > ringCap s.lbMode)
  | none => false

/-- The closed slices that fit in Cap together with all newer ones. -/
def State.fitting (s : State) : List Closed :=
  s.lb.closed.dropWhile fun c => decide (s.o Obj.LB_WTOTAL - c.a > ringCap s.lbMode)

/-- CF(t) while it binds: the oldest closed crossing that fits. -/
def State.capFloor (s : State) : Nat :=
  if s.capBinds then (match s.fitting with | c :: _ => c.x | [] => 0) else 0

/-- CF has exceeded the age floor: flag, and one EVENT with LB_CAP_EVT (R160). -/
def State.capLim (s : State) : State :=
  if s.capBinds && decide (s.capFloor > s.ageFloor) then
    let was := s.flag Obj.LB_CAPLIM_SEEN
    let s := s.setO Obj.LB_CAPLIM_SEEN 1
    if !was && s.flag Obj.LB_CAP_EVT then s.stage 0x0404 1 0 (bytesLE 5 s.capFloor ++ bytesLE 4 s.leff) else s
  else s

/-- The floors recomputed (R158). -/
def State.floorUpdate (s : State) : State :=
  if s.o Obj.LB_STATE = 0 then s
  else
    let s := s.capLim
    let f := max (s.o Obj.LB_FLOOR) (max s.ageFloor s.capFloor)
    let s := (s.setO Obj.LB_CAPFLOOR s.capFloor).setO Obj.LB_FLOOR f
    { s with lb := { s.lb with closed := s.fitting } }

/-! ### Layout switches (R166, R168) -/

/-- The layout that the ranks allow: A and B first, S only for one of them that cannot serve (R168, R169). -/
def State.layoutFor (_s : State) (ok : Nat → Bool) : Nat × Nat × Nat :=
  match ok 0, ok 1, ok 2 with
  | true, true, _ => (1, 0, 1)
  | true, false, true => (1, 0, 2)
  | false, true, true => (1, 2, 1)
  | true, false, false => (3, 0, 3)
  | false, true, false => (3, 1, 3)
  | false, false, true => (3, 2, 3)
  | false, false, false => (4, 3, 3)

/-- A rank that can serve (R168). -/
def State.canServe (s : State) (r : Nat) : Bool :=
  s.rstate r == 3 || s.rstate r == 6 || s.rstate r == 5 || (r == 2 && s.rstate r == 4)

/-- The ranks that a lost one leaves in the layout, S among them where it stands in. -/
def State.leftRanks (s : State) : List Nat :=
  ([s.pos0, s.pos1] ++ (if s.lbMode = 2 then [2] else [])).filter fun r => decide (r < 3) && s.usable r

/-- The layout that a switch leads to, with the ranks that can serve when it is taken: LB_STATE, POS0 and POS1; none when
maquette mode cannot be left (R166, R168). -/
def State.switchPlan (s : State) (k : SwitchKind) : Option (Nat × Nat × Nat) :=
  match k with
  | .enterMaq => some (4, 3, 3)
  | .leaveMaq => (some (s.layoutFor s.canServe)).filter fun m => decide (m.1 ≠ 4)
  | .loss =>
    match s.leftRanks with
    | [] => some (4, 3, 3)
    | r :: _ => some (if s.flag Obj.LB_MAQ_SEL then (4, 3, 3) else (3, r, 3))

/-- A pending switch is due: its tick has come, not in HELD, and no crossing has closed at this tick in the old layout. -/
def State.switchDue (s : State) (p : PendSwitch) : Bool :=
  decide (p.from_ ≤ s.tick) && decide (s.o Obj.LB_STATE ≠ 5) && decide (s.asm.closedTick ≠ some s.tick)

/-- S leaves its spare state when a layout takes it in (R168). -/
def State.wakeSpare (s : State) (p0 p1 : Nat) : State :=
  if (p0 = 2 ∨ p1 = 2) ∧ s.rstate 2 = 4 then (s.setO (Obj.DRM_RSTATE 2) 5).setMap s.pos0 s.pos1 false else s

/-- The retired ranks go DOWN once no layout reads them (R367). -/
def State.releaseRetired (s : State) : State :=
  (List.range 3).foldl (fun t r => if t.rstate r = 7 then t.setO (Obj.DRM_RSTATE r) 8 else t) s

/-- The credit follows the layout (R131, R142). It does so at a layout switch and at a start; parking leaves it as it is
(DESIGN CHOICE, log entry 141). -/
def State.creditMode (s : State) : State :=
  let maq := decide (s.lbMode = 4)
  let depth := if maq then 1536 else 3072
  ((s.setO Obj.ASM_CREDIT_RATE (if maq then 6 else 12)).setO Obj.ASM_CREDIT_DEPTH depth).setO Obj.ASM_CREDIT
    (clip depth (s.o Obj.ASM_CREDIT))

/-- Steps 1 to 7 of R166 at tick s; noRank says that no rank is left to serve. Neither LB_LOSTBELOW nor the tick from which
slices count for CF falls: a crossing that a start or a RESYNC less than W ticks ago has made lost stays lost (R171, R172;
DEDUCED, log entry 168). -/
def State.switchTo (s : State) (target p0 p1 : Nat) (noRank : Bool) : State :=
  let old := s.o Obj.LB_STATE
  let s := s.wakeSpare p0 p1
  let s := ((s.setO Obj.LB_LOSTBELOW (max (s.o Obj.LB_LOSTBELOW) (s.xc - s.window))).bump Obj.LB_SWITCHES).bumpBy Obj.LB_DISCARD s.lb.wcSlices.length
  let s := ((s.setO Obj.LB_WPTR 0).setO Obj.LB_STATE target).setMap p0 p1 s.spareUp
  let lb := { s.lb with wc := [], wcSlices := [], drainHeld := false, closed := [], first := none,
                        epoch := max s.lb.epoch (s.tick - s.window), noRank := s.lb.noRank || noRank, migRank := 3, switch := none }
  let s := ({ s with lb := lb }).releaseRetired.creditMode
  let s := s.stage 0x0303 1 0 (bytesLE 1 old ++ bytesLE 1 target ++ bytesLE 4 (s.o Obj.LB_LOSTBELOW))
  (if noRank then s.ariseIf 5 else s).settle.floorUpdate

/-- LAYOUT_SWITCH: a due switch is taken, after a loss once the single rank is ready (R166). -/
def State.layoutSwitch (s : State) : State :=
  match s.lb.switch with
  | none => s
  | some p =>
    if s.switchDue p then
      match s.switchPlan p.kind with
      | none => { s with lb := { s.lb with switch := none } }
      | some (target, p0, p1) =>
        if p.kind = .loss ∧ target = 3 ∧ s.rstate p0 ≠ 3 then s
        else s.switchTo target p0 p1 (decide (p.kind = .loss) && s.leftRanks.isEmpty)
    else s

/-! ### Collection (R126, R129, R130) -/

/-- The tick index that a 7-bit tag names (R122). -/
def State.tagTick (s : State) (tag : Nat) : Nat := s.tick - (s.tick % 128 + 128 - tag % 128) % 128

/-- The open slice of a tick replaced by its image. -/
def State.mapSlice (s : State) (t : Nat) (f : OpenSlice → OpenSlice) : State :=
  { s with asm := { s.asm with opened := s.asm.opened.map fun o => if o.tick = t ∧ o.kind = .slice then f o else o } }

/-- The place of a crossing has come to its closing tick (R31, R129). -/
def State.isDue (s : State) (o : OpenSlice) : Bool := decide (o.tick + s.window ≤ s.tick)

/-- The open slice of a tick, which accepts hits until its closing tick (R31). -/
def State.openAt (s : State) (t : Nat) : Option OpenSlice :=
  s.asm.opened.find? fun o => decide (o.tick = t) && decide (o.kind = .slice) && !s.isDue o

/-- An entry presented for an open slice: cap, then budget, then stored (R130). -/
def State.acceptEntry (s : State) (g : Grp) (o : OpenSlice) (w : Nat) : State :=
  if o.recs.length ≥ o.cap then
    ((s.mapSlice o.tick fun x => { x with ncap := x.ncap + 1 }).bump (Obj.GRP_LOSS_CAP g)).lossOvf
  else if s.o Obj.ASM_CREDIT = 0 then
    ((s.mapSlice o.tick fun x => { x with nbud := x.nbud + 1 }).bump (Obj.GRP_LOSS_BUDGET g)).lossOvf
  else
    (s.mapSlice o.tick fun x => { x with recs := x.recs ++ [w] }).setO Obj.ASM_CREDIT (s.o Obj.ASM_CREDIT - 1)

/-- An entry with a parity error is discarded at the collector and treated as a chain loss (R124, R545). -/
def State.parityLoss (s : State) (g : Grp) (tag : Nat) : State :=
  let s := (((s.bump Obj.FLT_PARITY).bump (Obj.GRP_LOSS_CHAIN g))).lossOvf
  { s with asm := { s.asm with reports := s.asm.reports ++ [tag] } }

/-- The collector presents the oldest entry of a group's FIFO; it is stored, or lost to the cap, the budget, lateness or no
slice (R129, R130). The write side sees the fill fall at once, the least delay R127 allows (DESIGN CHOICE, log entry 135). -/
def State.hitCollect (s : State) (g : Grp) : State :=
  match (s.group g).fifo with
  | [] => s
  | e :: r =>
    let s := s.setGroup g { s.group g with fifo := r }
    let t := s.tagTick e.tag
    if e.bad then s.parityLoss g e.tag
    else if t ∈ s.asm.idle then (s.bump Obj.ASM_NOSLICE).lossOvf
    else match s.openAt t with
      | some o => s.acceptEntry g o e.word
      | none => (s.bump (Obj.GRP_LATE g)).lossOvf

/-- HIT_COLLECT: one core cycle of the collector, the given number of cycles (modulo 8) after its latest one. It takes one
entry from each group that shows one on the read side, in ascending order from the start group, which advances by one at
every core cycle (R126). -/
def State.collect (s : State) (cycles ready : Nat) : State :=
  let start := (s.asm.start + cycles) % 8
  let order := (List.range 8).map fun i => (start + i) % 8
  ((order.filter (bit ready)).map portFin).foldl State.hitCollect { s with asm := { s.asm with start := start } }

/-- LOSS_REPORT_ARRIVE: the oldest report adds to the NUP of its open slice; any other one, of a slice that has closed or was
discarded, or of a crossing that had none, counts in ASM_UNREC (R130, R138; log entry 136). -/
def State.lossReport (s : State) : State :=
  match s.asm.reports with
  | [] => s
  | tag :: r =>
    let s := { s with asm := { s.asm with reports := r } }
    let t := s.tagTick tag
    match s.openAt t with
    | some _ => s.mapSlice t fun x => { x with nup := x.nup + 1 }
    | none => s.bump Obj.ASM_UNREC

/-! ### Close (R133 to R137) -/

/-- The loss record of R134. -/
def lossRecord (ncap nbud nup : Nat) : Nat :=
  clip 127 ncap * 2 ^ 41 + clip 4095 nbud * 2 ^ 29 + 0xFFF * 2 ^ 17 + clip 255 nup * 2 ^ 9 + 2 * 2 ^ 5 +
    b2n (decide (ncap > 127)) * 2 ^ 4 + b2n (decide (nbud > 4095)) * 2 ^ 3 + b2n (decide (nup > 255)) * 2 ^ 2

/-- The group of a stored record. -/
def recordGroup (w : Nat) : Nat := bits w 47 45

/-- The slice lost a hit before it closes. -/
def OpenSlice.lossy (o : OpenSlice) : Bool := decide (o.ncap + o.nbud + o.nup > 0)

/-- The newest stored hit has to make room for the loss record (R133). -/
def OpenSlice.displaces (o : OpenSlice) : Bool := o.lossy && decide (o.recs.length ≥ o.cap)

/-- The stored hits that the closed slice keeps. -/
def OpenSlice.kept (o : OpenSlice) : List Nat := if o.displaces then o.recs.dropLast else o.recs

/-- The closed slice's records, the loss record last (R133). -/
def OpenSlice.records (o : OpenSlice) : List Nat :=
  if o.lossy then o.kept ++ [lossRecord (o.ncap + b2n o.displaces) o.nbud o.nup] else o.kept

/-- The bytes of a slice: six per record, padded with zeros to a multiple of 8 (R135). -/
def packRecords (r : List Nat) : List Byte := padTo 8 (r.flatMap (bytesLE 6))

/-- The hit that a loss record displaces counts as a loss to the cap (R133). -/
def State.countDisplaced (s : State) (o : OpenSlice) : State :=
  match o.recs.getLast?, o.displaces with
  | some w, true => (s.bump (Obj.GRP_LOSS_CAP (recordGroup w))).lossOvf
  | _, _ => s

/-- ASM_TRUNC, ASM_LOSSX and, when ASM_TRUNC leaves 0 with ASM_LOSS_EVT, one EVENT (R136, R148). -/
def State.countTrunc (s : State) (o : OpenSlice) : State :=
  if o.lossy then
    let was := s.o Obj.ASM_TRUNC
    let s := (s.bump Obj.ASM_TRUNC).setO Obj.ASM_LOSSX o.x
    if was = 0 ∧ s.flag Obj.ASM_LOSS_EVT = true then s.stage 0x0402 1 0 (bytesLE 5 o.x) else s
  else s

/-- The index-pair read before the close of an even crossing: the other half is written back as it was read, and as lost when
the word is uncorrectable (R376, R385). -/
def State.pairFix (s : State) (x : Nat) (u : List Upset) : State :=
  if x % 2 = 0 then
    let r := s.readSpm 1 (s.indexAddr x) 8 u
    if r.2.2 then r.1.writeEntry (x + 1) (indexWord (s.o Obj.LB_WPTR) 0 false true)
    else r.1.writeEntry (x + 1) (fromLE (r.2.1.drop 4))
  else s

/-- A closed slice takes its place in the record that the capacity floor rests on (R157, R158, R171). -/
def State.noteClosed (s : State) (o : OpenSlice) (size : Nat) : State :=
  let lb := { s.lb with sizes := (size :: s.lb.sizes).take 65536 }
  let a := s.o Obj.LB_WTOTAL
  { s with lb := if o.tick < lb.epoch then lb
                 else { lb with closed := lb.closed ++ [{ x := o.x, a := a, size := size }],
                                first := some (lb.first.getD a) } }

/-- A spill more than 20 us after the latest retirement is an ASSEMBLY fault (R536). -/
def State.spillFault (s : State) : State :=
  if s.watch.retiredAt.any fun t => s.ticksWithin (s.tick - t) 20 then s else s.raiseFault 1 0

/-- A slice that the write-combine buffer cannot take (R137). -/
def State.spillSlice (s : State) (o : OpenSlice) : State :=
  let n := o.kept.length
  let s := s.spillFault
  let s := (s.noteClosed o 0).bumpBy Obj.ASM_WC_SPILL n
  let s := s.setO Obj.ASM_WC_SPILLX o.x
  let s := s.stage 0x0401 1 0 (bytesLE 5 o.x ++ bytesLE 4 n)
  let s := if n > 0 then s.lossOvf else s
  s.writeEntry o.x (indexWord (s.o Obj.LB_WPTR) 0 true true)

/-- A slice moves into the write-combine buffer and its index entry is written (R136, R150, R157). -/
def State.storeSlice (s : State) (o : OpenSlice) : State :=
  let b := packRecords o.records
  let p := s.o Obj.LB_WPTR
  let s := o.kept.foldl (fun s w => s.wrapBy 48 (Obj.GRP_ACCEPTED (recordGroup w)) 1) (s.noteClosed o b.length)
  let lb := { s.lb with wc := s.lb.wc ++ b, wcSlices := if b.isEmpty then s.lb.wcSlices else s.lb.wcSlices ++ [b.length] }
  let s := { s with lb := lb }
  let s := s.peak Obj.ASM_WC_PEAK s.lb.wc.length
  let s := (s.setO Obj.LB_WPTR ((p + b.length) % ringCap s.lbMode)).wrapBy 64 Obj.LB_WTOTAL b.length
  s.writeEntry o.x (indexWord p o.records.length o.lossy false)

/-- The last slice opened before the STOP has come to its closing tick in DRAINING: IDLE. A slice that a thaw discarded keeps
its place until then (R140). -/
def State.drainDone (s : State) : State :=
  if s.o Obj.ASM_STATE = 2 ∧ (s.asm.opened.all fun o => decide (o.kind = .none)) = true then s.setO Obj.ASM_STATE 0 else s

/-- One slice closed (R133 to R137). -/
def State.closeSlice (s : State) (o : OpenSlice) (u : List Upset) : State :=
  let s := { s with asm := { s.asm with opened := s.asm.opened.filter fun x => decide (x.tick ≠ o.tick) } }
  let s := ((s.countDisplaced o).wrapBy 48 Obj.ASM_SLICES 1).countTrunc o
  let s := s.pairFix o.x u
  let s := if s.lb.wc.length + (packRecords o.records).length > 32768 then s.spillSlice o else s.storeSlice o
  s.drainDone.floorUpdate

/-- The index entry of a crossing that has no slice (R140, R155, R170, R523). -/
def State.emptyEntry (s : State) (o : OpenSlice) (u : List Upset) : State :=
  let s := { s with asm := { s.asm with opened := s.asm.opened.filter fun x => decide (x.tick ≠ o.tick) } }
  ((s.pairFix o.x u).writeEntry o.x (indexWord (s.o Obj.LB_WPTR) 0 (decide (o.kind = .discarded)) true)).drainDone

/-- A crossing whose closing tick has come leaves the closing order: its slice closes, or its entry is written. A layout
switch that is due at the tick comes first (R166). -/
def State.closeCrossing (s : State) (o : OpenSlice) (u : List Upset) : State :=
  let s := s.layoutSwitch
  let s : State := { s with asm := { s.asm with closedTick := some s.tick } }
  if o.kind = .slice then s.closeSlice o u else s.emptyEntry o u

/-- The oldest crossing whose closing tick has come. -/
def State.dueSlice (s : State) : Option OpenSlice := s.asm.opened.find? s.isDue

/-- SLICE_CLOSE: at tick c + W slice c closes; a crossing without a slice has its entry written. -/
def State.sliceClose (s : State) (u : List Upset) : State :=
  match s.dueSlice with
  | some o => s.closeCrossing o u
  | none => s

/-- No crossing stays open past the crossing that its closing tick starts: what is still due closes before the next tick
(R32). -/
def State.closeDue (s : State) (u : List Upset) : State :=
  (s.asm.opened.filter s.isDue).foldl (fun t o => t.closeCrossing o u) s

/-! ### The write-combine buffer drains (R137, R350) -/

/-- The slices' remaining bytes after n bytes have left the buffer. -/
def dropSlices : List Nat → Nat → List Nat
  | [], _ => []
  | x :: r, n => if n = 0 then x :: r else if x ≤ n then dropSlices r (n - x) else (x - n) :: r

/-- The bytes of a burst as they are read from the buffer: an uncorrectable word as it reads (R385). -/
def burstBytes (u : List Upset) (x : Nat) (b : List Byte) : List Byte :=
  ((List.range 8).map fun k =>
    let w := (b.drop (8 * k)).take 8
    match bufferError u (x + 8 * k) with
    | some e => xorBytes w (bytesLE 8 e)
    | none => w).flatten

/-- The slices that own an uncorrectable word of the burst at ring address x. -/
def State.burstLost (s : State) (u : List Upset) (x : Nat) : List Closed :=
  let a := s.o Obj.LB_WTOTAL - s.lb.wc.length
  let bad := (List.range 8).filter fun k => (bufferError u (x + 8 * k)).isSome
  s.lb.closed.filter fun c => bad.any fun k => decide (c.a ≤ a + 8 * k) && decide (a + 8 * k < c.a + c.size)

/-- A burst written where its ring address lies; the state is unchanged when its rank takes no writes (R151, R152). -/
def State.writeBurst (s : State) (x : Nat) (b : List Byte) : Option State :=
  match s.place x with
  | .rank _ r a =>
    if s.rstate r = 3 then some ((s.setRankData r (memWrite (s.rankData r) a b)).countWrites r 1) else none
  | .spm a => some { s with spm := memWrite s.spm a b }
  | .nowhere => none

/-- WC_BURST_DRAIN: the oldest full granule goes to its rank, or to the scratchpad in the maquette layout. -/
def State.drainBurst (s : State) (u : List Upset) : State :=
  if s.lb.drainHeld || decide (s.o Obj.LB_STATE = 5) || decide (s.lb.wc.length < 64) then s
  else
    let x := s.wcBase
    match s.writeBurst x (burstBytes u x (s.lb.wc.take 64)) with
    | none => s
    | some t =>
      let t := (s.burstLost u x).foldl (fun t c => t.markLost c.x) t
      { t with lb := { t.lb with wc := t.lb.wc.drop 64, wcSlices := dropSlices t.lb.wcSlices 64 } }

/-! ### Ticks: credit, opening, entries without a slice (R129, R131, R140, R155, R170) -/

/-- The credit gains its increase at a tick, up to the depth; it gains nothing at the ticks of a Hold (R131). The tick that ends
a Hold, whose service has resumed, and the tick of a layout switch, which follows it, add the increase in force (DESIGN
CHOICE, log entries 137 and 138). -/
def State.creditAdd (s : State) : State :=
  if s.o Obj.ASM_STATE = 3 ∨ s.o Obj.PWR_STATE = 4 then s
  else s.setO Obj.ASM_CREDIT (clip (s.o Obj.ASM_CREDIT_DEPTH) (s.o Obj.ASM_CREDIT + s.o Obj.ASM_CREDIT_RATE))

/-- The crossing that the tick starts takes its place; in RUN its slice opens (R129, R140). -/
def State.openCrossing (s : State) : State :=
  let run := decide (s.o Obj.ASM_STATE = 1)
  let o : OpenSlice :=
    { kind := if run then .slice else .none, tick := s.tick, x := s.xc, cap := s.o Obj.ASM_CAP,
      recs := [], ncap := 0, nbud := 0, nup := 0 }
  let idle := (if run then s.asm.idle else s.asm.idle ++ [s.tick]).filter fun t => decide (s.tick < t + 128)
  { s with asm := { s.asm with opened := s.asm.opened ++ [o], idle := idle } }

/-! ### START, STOP, Hold (R140, R141) -/

/-- ASM_CTRL is judged at its execution by the assembler's state alone: START in IDLE is accepted also before data-ready, in
Parked and in a Hold (R141; DESIGN CHOICE, log entry 139). In the factory test role the data path does not start (R2). -/
def State.asmCtrlCheck (s : State) (v : Nat) : Status :=
  match v with
  | 1 => if s.o Obj.ASM_STATE = 0 ∧ s.o Obj.CF_ROLE ≠ 3 then .ok else .functionRunning
  | 2 => if s.o Obj.ASM_STATE = 1 then .ok else .functionRunning
  | _ => .outOfRange

/-- The assembler enters RUN from IDLE with a full credit (R131, R140). -/
def State.asmRun (s : State) : State :=
  (s.setO Obj.ASM_STATE 1).setO Obj.ASM_CREDIT (s.o Obj.ASM_CREDIT_DEPTH)

/-- RUN is entered at the tick that has just opened a crossing without a slice: the slice of that crossing opens. -/
def State.openNow (s : State) : State :=
  let f (o : OpenSlice) : OpenSlice := if o.tick = s.tick ∧ o.kind = .none then { o with kind := .slice, cap := s.o Obj.ASM_CAP } else o
  { s with asm := { s.asm with opened := s.asm.opened.map f, idle := s.asm.idle.filter (· != s.tick) } }

/-- ASM_CTRL takes effect at a tick (R140, R141). A STOP whose tick finds the assembler in HELD, as CKIN has failed since it was
accepted, has no effect, and the assembler returns to RUN (DESIGN CHOICE, log entry 169). -/
def State.asmCtrlEffect (s : State) (v : Nat) : State :=
  match v with
  | 1 => if s.o Obj.ASM_STATE = 0 then s.asmRun else s
  | 2 => if s.o Obj.ASM_STATE = 1 then ({ s.setO Obj.ASM_STATE 2 with asm := { s.asm with stopTick := s.tick } }).drainDone else s
  | _ => s

/-- The stored hits of the open slices. -/
def State.openHits (s : State) : Nat :=
  ((s.asm.opened.filter fun o => decide (o.kind = .slice)).map fun o => o.recs.length).sum

/-- The entries that lie in chains and FIFOs. -/
def State.pathEntries (s : State) : Nat :=
  (allCh.map fun c => (s.chan c).chain.length).sum + ((List.finRange 8).map fun g => (s.group g).fifo.length).sum

/-- Every open slice becomes a discarded crossing, its hits lost (R138, R143). -/
def State.discardOpen (s : State) : State :=
  let d (o : OpenSlice) : OpenSlice := if o.kind = .slice then { o with kind := .discarded, recs := [] } else o
  let s := if s.openHits = 0 then s else s.lossOvf
  { s.bumpBy Obj.ASM_OPEN_LOST s.openHits with asm := { s.asm with opened := s.asm.opened.map d } }

/-- A CKIN failure reaches the assembler: open slices and every entry on its way are lost and counted, and loss reports
on their way are dropped (R124, R138, R140). -/
def State.asmHold (s : State) : State :=
  let s := (s.bumpBy Obj.ASM_OPEN_LOST s.pathEntries).discardOpen
  let s := { s with groups := s.groups.map fun (g : Group) => { g with fifo := [] } }
  let s := s.mapChans fun _ x => { x with chain := [] }
  let draining := decide (s.o Obj.ASM_STATE = 2)
  let s := { s with asm := { s.asm with reports := [], heldDraining := draining } }
  if s.o Obj.ASM_STATE = 1 ∨ s.o Obj.ASM_STATE = 2 then s.setO Obj.ASM_STATE 3 else s

/-- The assembler leaves HELD at the first tick on CKIN (R140). -/
def State.asmResume (s : State) : State :=
  if s.o Obj.ASM_STATE = 3 then s.setO Obj.ASM_STATE (if s.asm.heldDraining then 0 else 1) else s

/-! ### The commands -/

/-- HIT_COLLECT. -/
def execHitCollect (cycles : Fin 8) (ready : BitVec 8) (s : State) : Host.Outcome State Fault Refusal :=
  .next (s.ifAwake (s.collect cycles ready.toNat))

/-- LOSS_REPORT_ARRIVE. -/
def execLossReportArrive (s : State) : Host.Outcome State Fault Refusal := .next (s.ifAwake s.lossReport)

/-- SLICE_CLOSE. -/
def execSliceClose (u : List Upset) (s : State) : Host.Outcome State Fault Refusal := .next (s.ifAwake (s.sliceClose u))

/-- WC_BURST_DRAIN. -/
def execWcBurstDrain (u : List Upset) (s : State) : Host.Outcome State Fault Refusal := .next (s.ifAwake (s.drainBurst u))

/-- ASM_START (R141). -/
def execAsmStart (q : Req) (s : State) : Host.Outcome State Fault Refusal :=
  .next (s.ifRequest q (s.hostWrite q Obj.ASM_CTRL false (s.asmCtrlCheck 1) (s.pendLive Obj.ASM_CTRL 1)))

/-- ASM_STOP (R141). -/
def execAsmStop (q : Req) (s : State) : Host.Outcome State Fault Refusal :=
  .next (s.ifRequest q (s.hostWrite q Obj.ASM_CTRL false (s.asmCtrlCheck 2) (s.pendLive Obj.ASM_CTRL 2)))

end Sys2Proof.Machine
end

