-- ==== Sys2Proof/Machine/Tdc.lean ====
section
/-! DEFINITION. From edges to hits: the TDC channel, the walk meter, hit completion, the chains and the group FIFOs
(R86 to R100, R121 to R125, R127). -/
namespace Sys2Proof.Machine

/-! ### The encoder (R88) -/

/-- The three-tap majority filter over the 160 taps; an end tap has itself for the neighbour it lacks (log entry 129). -/
def majority (w : Nat) : Nat :=
  let below := (w <<< 1 ||| w &&& 1) % 2 ^ 160
  let above := w >>> 1 ||| w &&& 2 ^ 159
  w &&& below ||| w &&& above ||| below &&& above

/-- The lowest tap that reads 1. -/
def lowestOne (m : Nat) : Nat := (m ^^^ (m - 1)).log2

/-- One more than the highest tap of the lowest run of ones. Transitions travel up the line, so the lowest run is the newest;
what stands above it is an older pulse or a random edge that has not left the line (log entry 162). -/
def lowRunEnd (m : Nat) : Nat := ((m + 2 ^ lowestOne m) ^^^ m).log2

/-- The position of a start: the highest tap of its run, plus one; 0 when the transition has only just entered. -/
def startTap (w : Nat) : Nat := if majority w = 0 then 0 else lowRunEnd (majority w)

/-- The lowest tap of the run of ones whose highest tap is p - 1; none where tap p - 1 reads 0. -/
def runFrom (m p : Nat) : Option Nat :=
  if bit m (p - 1) && decide (0 < p) then
    let zeros := m % 2 ^ p ^^^ (2 ^ p - 1)
    some (if zeros = 0 then 0 else zeros.log2 + 1)
  else none

/-- The position of a stop: the lowest tap of the run that begins at the start; none without a run. A word that is the start's
own, in which the start stands at p, shows that run there; in a later one the run is the lowest (log entry 162). -/
def stopTap (w : Nat) (start : Option Nat) : Option Nat :=
  let m := majority w
  match start with
  | some p => runFrom m p
  | none => if m = 0 then none else some (lowestOne m)

/-! ### Calibration counting (R101) -/

/-- The slot that a channel holds. -/
def State.slotOf (s : State) (c : Ch) : Option Slot := s.calUnit.slots.find? fun x => decide (x.ch = c)

/-- One count of a start tap in the slot that a channel holds; a full histogram counts no more. -/
def Slot.countStart (x : Slot) (tap : Nat) : Slot :=
  if x.count < 2 ^ 20 ∧ tap < 160 then { x with hist := x.hist.modify tap (· + 1), count := x.count + 1 } else x

/-- A run takes a live start of coarse count k, unless it uses the random source only (R101, R102). -/
def Slot.takes (x : Slot) (k : Nat) : Bool := x.src != 2 && bit x.cmask k

/-- A live start counts for its channel's run. -/
def State.calLive (s : State) (c : Ch) (tap : Nat) : State :=
  { s with calUnit := { s.calUnit with slots := s.calUnit.slots.map fun x => if x.ch = c then x.countStart tap else x } }

/-! ### Starts (R87 to R92) -/

/-- The fine bin of a tap; an overrun, tap 160, has bin 0 (R89, R90). -/
def fineOf (lut : List Nat) (tap : Nat) : Nat := if tap ≥ 160 then 0 else lut.getD tap 0

/-- The start lies within 64 TDC clock periods after an injection (R68; the ends included, log entry 9). -/
def inWindow (injected : List Nat) (t : Nat) : Bool := injected.any fun i => decide (i ≤ t) && decide (t ≤ i + 8192)

/-- An entry of a LUT that a conversion meets fails its parity (R545). -/
def State.lutBad (s : State) (c : Ch) (walk : Bool) (p : Nat) : Bool :=
  s.lutFix.any fun x => decide (x.ch = c) && x.walk == walk && x.p == p

/-- The entry that a conversion takes for tap p: itself, or with a parity error p - 1, and p + 1 for p = 0 (R545). -/
def State.lutTap (s : State) (c : Ch) (walk : Bool) (p : Nat) : Nat :=
  if s.lutBad c walk p then (if p = 0 then 1 else p - 1) else p

/-- A conversion that meets a parity error counts it (R545). -/
def State.lutRead (s : State) (c : Ch) (walk : Bool) (p : Nat) : State := if s.lutBad c walk p then s.bump Obj.FLT_PARITY else s

/-- A start that is converted, flagged as a test-pulse hit by the fires that its channel was armed at (R68; log entry 130):
the hit in progress with the settings of its start. Position 160 is an overrun also where a lower tap reads 0, and a start
without a position, whose word shows no run of ones, counts in the histogram as tap 0 (R89, R94, R101; DESIGN CHOICE, log
entry 163). An energy edge passed with the timing rise lies at no later time than any start time of the crossing's period, so
that its DT is 0 (R56). -/
def State.startHit (s : State) (c : Ch) (k tap : Nat) : State :=
  let x := s.chan c
  let toa := k * 128 + fineOf x.lut (s.lutTap c false tap)
  let tp := inWindow x.injected (s.tick * 4096 + toa)
  let qual := (s.slotOf c).any (·.takes k) && !tp && decide (tap < 160)
  let exclE := (s.slotOf c).any (·.exclE)
  let h : Hit :=
    { tick := s.tick, k := k, toa := toa, te := if x.energy = .high then some (k * 128) else none, tpulse := tp,
      data := s.dataOn c, minw := s.o (Obj.TDC_MINW c), lut := x.lut, walk := x.walk,
      calTap := if qual && exclE then some tap else none, saturated := false }
  let s := (s.setChan c { x with hit := some h }).lutRead c false tap
  let s := if tap ≥ 160 then (s.bump Obj.TDC_OVERRUN).setOb (Obj.CH_STATUS c) 6 true else s
  if qual && !exclE then s.calLive c tap else s

/-- TIMING_RISE: a rise from Low is recognised; it counts in the fast-OR and the rate meter and starts a hit, unless
the channel is busy or has not re-armed (R54 to R56, R62, R92, R95, R112). From Unknown it is no edge (R55). -/
def State.timingRise (s : State) (c : Ch) (k word : Nat) (rearmed : Bool) : State :=
  let x := s.chan c
  let tap := startTap word
  match x.timing with
  | .unknown => s.setChan c { x with timing := .high }
  | .low =>
    let s := s.setChan c { x with timing := .high, lastStart := some (32 * s.tick + k, tap) }
    if s.tdcRuns && s.counts c then
      let s := s.fastorTiming c
      let s := if x.energy = .high then s.fastorEnergy c else s
      let s := s.meterEdge c 0
      match x.hit with
      | some _ => s.bump (Obj.CH_ORPHAN c)
      | none => if rearmed then s.startHit c k tap else s
    else s
  | _ => s

/-! ### Completion (R91 to R97) -/

/-- The 48-bit hit record (R121). -/
def hitRecord (ch toa tot dt : Nat) (f8 f7 f6 f5 : Bool) (cseq : Nat) : Nat :=
  ch * 2 ^ 41 + toa * 2 ^ 29 + tot * 2 ^ 17 + dt * 2 ^ 9 +
    b2n f8 * 2 ^ 8 + b2n f7 * 2 ^ 7 + b2n f6 * 2 ^ 6 + b2n f5 * 2 ^ 5 + cseq % 32

/-- DT (R96): the energy edge after the start time in units of 2 bins, floored at 0; 0xFF from 255 up or with no edge. -/
def Hit.dt (h : Hit) (toa : Nat) : Nat :=
  match h.te with
  | none => 0xFF
  | some t => clip 0xFF ((t - toa) / 2)

/-- A record delivered to the channel's chain: a chain of four whose input does not move loses the new hit, which is
counted and reported to the assembler (R123, R124). -/
def State.chainPush (s : State) (c : Ch) (e : Entry) : State :=
  let x := s.chan c
  if x.chain.length < 4 then s.setChan c { x with chain := x.chain ++ [e] }
  else
    let s := (s.bump (Obj.GRP_LOSS_CHAIN (groupOf c))).lossOvf
    { s with asm := { s.asm with reports := s.asm.reports ++ [e.tag] } }

/-- A completed hit that is not discarded takes its CSEQ, increments CH_HITS and goes to the chain (R97). -/
def State.passHit (s : State) (c : Ch) (h : Hit) (toa tot : Nat) (f7 f6 : Bool) : State :=
  if h.data then
    let w := hitRecord c toa tot (h.dt toa) h.te.isSome f7 f6 h.tpulse (s.o (Obj.CH_HITS c))
    (s.wrapBy 48 (Obj.CH_HITS c) 1).chainPush c { word := w, tag := h.tick % 128 }
  else s

/-- A start that waited for its energy verdict counts for the run it came in when no energy edge came (R101). -/
def State.calVerdict (s : State) (c : Ch) (h : Hit) : State :=
  match h.calTap, h.te with
  | some t, none => if (s.slotOf c).any fun x => decide (x.startTick ≤ h.tick) then s.calLive c t else s
  | _, _ => s

/-- A hit completed by its measured stop time T_P (R92 to R94). -/
def State.completeHit (s : State) (c : Ch) (h : Hit) (stop : Nat) (unresolved : Bool) : State :=
  let tot := (stop - h.toa) / 8
  let s := s.calVerdict c h
  if tot > 4094 then s.passHit c h h.toa 0xFFF true false
  else
    let narrow := decide (tot < h.minw % 256) || decide (stop < h.toa + 2)
    if narrow || unresolved then
      let s := s.bump (Obj.CH_NARROW c)
      if bit h.minw 15 then s
      else s.passHit c h (if unresolved then h.k * 128 + 64 else h.toa) 0 false true
    else s.passHit c h h.toa tot false false

/-- The position of the channel's latest start, where TDC clock period i, counted from tick 0, is the one that sampled it. -/
def Chan.startIn (x : Chan) (i : Nat) : Option Nat :=
  match x.lastStart with
  | some (j, p) => if j = i then some p else none
  | none => none

/-- TIMING_FALL: a fall from High is recognised; it stops the hit in progress, completes a saturated one, or is an
orphan (R92, R93, R95). A word that shows no run of ones leaves the pulse unresolved: the stop lies less than 2 bins
after the start, and with both sampled by one edge the start has no position either (R94). -/
def State.timingFall (s : State) (c : Ch) (k word : Nat) : State :=
  let x := s.chan c
  match x.timing with
  | .unknown => s.setChan c { x with timing := .low }
  | .high =>
    let s := s.setChan c { x with timing := .low }
    if s.tdcRuns then
      match x.hit with
      | none => s.bump (Obj.CH_ORPHAN c)
      | some h =>
        let s := s.setChan c { x with timing := .low, hit := none }
        let s :=
          if h.saturated then s
          else
            let kp := 32 * (s.tick - h.tick) + k
            match stopTap word (x.startIn (32 * s.tick + k)) with
            | some p => (s.lutRead c false p).completeHit c h (kp * 128 + h.lut.getD (s.lutTap c false p) 0) false
            | none => s.completeHit c h h.toa (decide (kp = h.k))
        s.afterHit c
    else s
  | _ => s

/-- The saturation instant of a hit, 32,760 bins after its start, lies in the crossing in progress or before (R93). -/
def State.satDue (s : State) (h : Hit) : Bool := decide (h.toa + 32760 < 4096 * (s.tick + 1 - h.tick))

/-- TOT_SATURATE: the hit is produced with TOT = 0xFFF and FLG[7]; the channel stays busy until the real fall, or powers
down when it is being disabled (R60, R93). -/
def State.totSaturate (s : State) (c : Ch) : State :=
  let x := s.chan c
  match x.hit with
  | none => s
  | some h =>
    if h.saturated || !s.satDue h then s
    else
      let s := (s.calVerdict c h).passHit c h h.toa 0xFFF true false
      let x := s.chan c
      if x.closing && !s.en c then s.setChan c x.powerDown
      else s.setChan c { x with hit := some { h with saturated := true, calTap := none } }

/-! ### The energy discriminator and the walk meter (R56, R96) -/

/-- ENERGY_RISE: a rise from Low counts in the rate meter; while the timing discriminator is high it is passed to the
walk meter and the fast-OR, and is otherwise discarded (R56, R62, R96, R112). From Unknown it is no edge; out of reach,
the discriminator never fires (R53). -/
def State.energyRise (s : State) (c : Ch) (k tap : Nat) : State :=
  let x := s.chan c
  if !s.energyFires c then s else
  match x.energy with
  | .unknown => s.setChan c { x with energy := .high }
  | .low =>
    let s := s.setChan c { x with energy := .high }
    if s.tdcRuns then
      let s := s.meterEdge c 1
      if x.timing = .high then
        let s := s.fastorEnergy c
        match x.hit with
        | some h =>
          if h.te.isNone && !h.saturated then
            let t := (32 * (s.tick - h.tick) + k) * 128 + 2 * h.walk.getD (s.lutTap c true tap) 0
            (s.setChan c { s.chan c with hit := some { h with te := some t } }).lutRead c true tap
          else s
        | none => s
      else s
    else s
  | _ => s

/-- ENERGY_FALL: High to Low (R54). -/
def State.energyFall (s : State) (c : Ch) : State :=
  let x := s.chan c
  if x.energy = .high then s.setChan c { x with energy := .low } else s

/-! ### Group merge (R125, R127) -/

/-- The next channel of the merge that offers an entry, from the one after the channel served last. -/
def State.mergePick (s : State) (g : Grp) : Option Nat :=
  ((List.range 16).map fun i => ((s.group g).last + 1 + i) % 16).find? fun i => !(s.chan (chanOf g i)).chain.isEmpty

/-- The fill reaches GRP_LEVEL from below: counter, flag and, when the flag was clear, one EVENT (R127). -/
def State.levelReached (s : State) (g : Grp) : State :=
  let seen := s.ob Obj.GRP_LVL_FLAG g
  let s := (s.bump (Obj.GRP_LVL_CNT g)).setOb Obj.GRP_LVL_FLAG g true
  if seen then s else s.stage 0x0403 1 g (bytesLE 1 (s.o (Obj.GRP_PEAK g)))

/-- GRP_FIFO_WRITE: the FIFO takes one entry round-robin; a full FIFO takes nothing and counts the period. -/
def State.fifoWrite (s : State) (g : Grp) : State :=
  if (s.group g).fifo.length ≥ 16 then s.bump (Obj.GRP_FULLCYC g)
  else match s.mergePick g with
    | none => s
    | some i =>
      let x := s.chan (chanOf g i)
      match x.chain with
      | [] => s
      | e :: r =>
        let s := s.setChan (chanOf g i) { x with chain := r }
        let fill := (s.group g).fifo.length + 1
        let s := s.setGroup g { fifo := (s.group g).fifo ++ [e], last := i }
        let s := s.peak (Obj.GRP_PEAK g) fill
        if fill = s.o (Obj.GRP_LEVEL g) then s.levelReached g else s

/-! ### The commands -/

/-- TIMING_RISE. -/
def execTimingRise (c : Ch) (k : Fin 32) (word : BitVec 160) (rearmed : Bool) (s : State) : Host.Outcome State Fault Refusal :=
  .next (s.ifAwake (s.timingRise c k word.toNat rearmed))

/-- TIMING_FALL. -/
def execTimingFall (c : Ch) (k : Fin 32) (word : BitVec 160) (s : State) : Host.Outcome State Fault Refusal :=
  .next (s.ifAwake (s.timingFall c k word.toNat))

/-- ENERGY_RISE. -/
def execEnergyRise (c : Ch) (k : Fin 32) (tap : Fin 80) (s : State) : Host.Outcome State Fault Refusal :=
  .next (s.ifAwake (s.energyRise c k tap))

/-- ENERGY_FALL. -/
def execEnergyFall (c : Ch) (s : State) : Host.Outcome State Fault Refusal := .next (s.ifAwake (s.energyFall c))

/-- TOT_SATURATE. -/
def execTotSaturate (c : Ch) (s : State) : Host.Outcome State Fault Refusal := .next (s.ifAwake (s.totSaturate c))

/-- GRP_FIFO_WRITE. -/
def execGrpFifoWrite (g : Grp) (s : State) : Host.Outcome State Fault Refusal := .next (s.ifAwake (s.fifoWrite g))

end Sys2Proof.Machine
end

