-- ==== Sys2Proof/Machine/Calibration.lean ====
section
/-! DEFINITION. Code-density calibration: slots and schedule, LUT arithmetic and checks, swaps, the swap history and
host-written LUTs (R101 to R111, R119). -/
namespace Sys2Proof.Machine

/-! ### LUT arithmetic (the procedure before R105) -/

/-- The start LUT of a histogram whose sum is 2^m, from cumulative count acc on. -/
def lutOf (m : Nat) : Nat → List Nat → List Nat
  | _, [] => []
  | acc, h :: r => (127 - clip 127 ((64 * (2 * acc + h)) >>> m)) :: lutOf m (acc + h) r

/-- The walk LUT of a histogram whose sum is 2^mw. -/
def walkLutOf (mw : Nat) : Nat → List Nat → List Nat
  | _, [] => []
  | acc, h :: r => (63 - clip 63 ((32 * (2 * acc + h)) >>> mw)) :: walkLutOf mw (acc + h) r

/-- Taps in use: one more than the last tap with a count. -/
def tapsOf (hist : List Nat) : Nat :=
  hist.zipIdx.foldl (fun n e => if e.1 ≠ 0 then e.2 + 1 else n) 0

/-- The linear LUT and its walk LUT (R111). -/
def linearLut : List Nat := (List.range 160).map fun p => 127 - p

/-- The linear walk LUT (R111). -/
def linearWalk : List Nat := (List.range 80).map fun p => 63 - p * 64 / 52

/-- The greatest difference between the entries of two LUTs. -/
def lutShift (a b : List Nat) : Nat :=
  (List.range 160).foldl (fun m p => max m (max (a.getD p 0 - b.getD p 0) (b.getD p 0 - a.getD p 0))) 0

/-- The checks of R105 but the shift check, for a histogram of 2^m counts. -/
def lutChecks (m : Nat) (hist walk : List Nat) : Bool :=
  hist.getD 159 0 == 0 && decide (88 ≤ tapsOf hist) && hist.all (fun h => decide (h ≤ 4 * 2 ^ m / 128)) &&
    walk.getD 79 0 == 0

/-- R90: entries 0 to 127, none increasing. -/
def lutValid (l : List Nat) : Bool :=
  l.all (fun f => decide (f ≤ 127)) && (List.zip l l.tail).all fun e => decide (e.2 ≤ e.1)

/-! ### Slots and schedule -/

/-- An empty slot for a channel: the run goes by the settings that it finds (R491; log entry 164). -/
def State.newSlot (s : State) (c : Ch) : Slot :=
  { ch := c, hist := List.replicate 160 0, walk := List.replicate 80 0, count := 0, walkCount := 0,
    random := false, startTick := s.tick, src := s.o Obj.TDC_CAL_SRC, cmask := s.o Obj.TDC_CAL_CMASK,
    exclE := s.flag Obj.TDC_CAL_EXCLE, quiet := s.o Obj.TDC_CAL_QUIET }

/-- A run's start histogram takes random edges: AUTO has added the source, the run is a RANDOM one, or the channel is disabled
(R102). A change of TDC_CAL_SRC counts for the runs that begin after it (R491; log entry 164). -/
def State.usesRandom (s : State) (x : Slot) : Bool := x.random || x.src == 2 || !s.en x.ch

/-- A channel may take a slot: it waits, and its bit in TDC_CAL_ENABLE is set. -/
def State.slotEligible (s : State) (c : Ch) : Bool :=
  decide ((s.chan c).cal = .wait) && s.ob Obj.TDC_CAL_ENABLE c

/-- The next channel of the schedule, ascending from calUnit.next and starting again after 127. -/
def State.nextCal (s : State) : Option Ch :=
  (allCh.map fun i : Ch => (⟨(s.calUnit.next + i.val) % 128, Nat.mod_lt _ (by decide)⟩ : Ch)).find? s.slotEligible

/-- One free slot takes the next channel (CAL_SLOT_ASSIGN). RANDOM of CH_STATUS speaks of the start histogram, the walk
histogram being filled from the random source in every run (R104, R119; DESIGN CHOICE, log entry 165). -/
def State.assignSlot (s : State) : State :=
  if s.calUnit.running && decide (s.calUnit.slots.length < 16) then
    match s.nextCal with
    | none => s
    | some c =>
      let slot := s.newSlot c
      let s := s.setChan c { s.chan c with cal := .accum }
      let s := (s.setOb (Obj.CH_STATUS c) 1 true).setOb (Obj.CH_STATUS c) 3 (s.usesRandom slot)
      { s with calUnit := { s.calUnit with slots := s.calUnit.slots ++ [slot], next := (c.val + 1) % 128 } }
  else s

/-- Every free slot takes a channel. -/
def State.assignSlots (s : State) : State := (List.range 16).foldl (fun s _ => s.assignSlot) s

/-- A channel gives its slot up. -/
def State.dropSlot (s : State) (c : Ch) : State :=
  { s with calUnit := { s.calUnit with slots := s.calUnit.slots.filter fun x => decide (x.ch ≠ c) } }

/-- A channel returns to WAIT, its histograms discarded. -/
def State.calWait (s : State) (c : Ch) : State :=
  ((s.dropSlot c).setChan c { s.chan c with cal := .wait }).setOb (Obj.CH_STATUS c) 1 false

/-- A discriminator start arrived while the random edge was still in the line: the edge was sampled in TDC clock period j
with its transition at tap p, and the line has 160 taps, of which a period spans TAPS (R103; DEDUCED, log entry 132). -/
def State.randomMet (s : State) (c : Ch) (j p : Nat) : Bool :=
  match (s.chan c).lastStart with
  | some (i, q) => decide (j ≤ i) && decide (p + bits (s.o (Obj.CH_STATUS c)) 15 8 * (i - j) < 160 + q)
  | none => false

/-- One energy-line code in a slot's walk histogram; a full histogram counts no more (R104). -/
def Slot.countWalk (x : Slot) (w : Nat) : Slot :=
  if x.walkCount < 2 ^ 16 then { x with walk := x.walk.modify w (· + 1), walkCount := x.walkCount + 1 } else x

/-- The TDC clock period, counted from tick 0, that sampled a random edge: k below 32 names a period of the crossing in
progress, and k from 32 on period k - 32 of the crossing before. -/
def State.edgePeriod (s : State) (k : Nat) : Nat := if k < 32 then 32 * s.tick + k else 32 * (s.tick - 1) + (k - 32)

/-- CAL_RANDOM_EDGE: a marked edge, sampled in coarse period k, reaches the end of the line. It was injected only with the
timing discriminator low, and it is discarded uncounted when a start arrived behind it. It counts in the start histogram
of a run that uses the random source, when it qualifies; the walk line is calibrated from the random source in every run
(R101 to R104). -/
def State.calRandomEdge (s : State) (c : Ch) (k word : Nat) (walkTap : Option Nat) : State :=
  let tap := startTap word
  if (s.chan c).timing = .high || s.randomMet c (s.edgePeriod k) tap then s
  else
    let f (x : Slot) : Slot :=
      if x.ch = c then
        let x := if bit x.cmask (k % 32) && s.usesRandom x then x.countStart tap else x
        match walkTap with
        | some w => x.countWalk w
        | none => x
      else x
    let uses := s.calUnit.slots.any fun x => decide (x.ch = c) && s.usesRandom x
    let s : State := { s with calUnit := { s.calUnit with slots := s.calUnit.slots.map f } }
    if uses then s.setOb (Obj.CH_STATUS c) 3 true else s

/-- CAL_QUIET_EXPIRE: in AUTO a histogram below 2^16 after TDC_CAL_QUIET crossings gets the random source (R102). -/
def State.calQuiet (s : State) (c : Ch) : State :=
  match s.slotOf c with
  | some x =>
    if x.src = 0 ∧ x.count < 2 ^ 16 ∧ x.startTick + x.quiet ≤ s.tick then
      let s := s.setOb (Obj.CH_STATUS c) 3 true
      let g (y : Slot) : Slot := if y.ch = c then { y with random := true } else y
      { s with calUnit := { s.calUnit with slots := s.calUnit.slots.map g } }
    else s
  | none => s

/-- CAL_RUN_COMPLETE: both histograms are full; the channel enters COMPUTE (R104). -/
def State.calRunComplete (s : State) (c : Ch) : State :=
  match s.slotOf c with
  | some x =>
    if x.count = 2 ^ 20 ∧ x.walkCount = 2 ^ 16 ∧ (s.chan c).cal = .accum then
      (s.setChan c { s.chan c with cal := .compute }).setOb (Obj.CH_STATUS c) 1 false
    else s
  | none => s

/-- The shift check is not applied to a LUT that replaces the boot LUT or the linear LUT (R105): generation 1. -/
def State.shiftExempt (s : State) (c : Ch) : Bool := s.o (Obj.TDC_LUTGEN c) == 1 || s.ob (Obj.CH_STATUS c) 5

/-- A run of a channel has been rejected: the fourth in a row is a FRONTEND fault (R536). -/
def State.rejected (s : State) (c : Ch) : State :=
  let n := (s.chan c).rejects + 1
  if n < 4 then s.setChan c { s.chan c with rejects := n }
  else (s.setChan c { s.chan c with rejects := 0 }).raiseFault 0 c

/-- LUT_COMPUTE_DONE: the supervisor computes both LUTs and checks them; they pend for a swap or are rejected, and the
freed slot takes the next channel (R105, R106, R108). -/
def State.lutComputeDone (s : State) (c : Ch) : State :=
  match s.slotOf c with
  | some x =>
    if (s.chan c).cal = .compute then
      let lut := lutOf 20 0 x.hist
      let walk := walkLutOf 16 0 x.walk
      let pass := lutChecks 20 x.hist x.walk &&
        (s.shiftExempt c || decide (lutShift lut (s.chan c).lut ≤ s.o Obj.TDC_CAL_SHIFTLIM))
      let s := s.dropSlot c
      let s :=
        if pass then
          let p : PendLut := { lut := lut, walk := some walk, taps := tapsOf x.hist, src := 0, madeTick := s.tick, applied := some 0 }
          (s.setChan c { s.chan c with cal := .pending, pend := some p, rejects := 0 }).setOb (Obj.CH_STATUS c) 2 true
        else
          ((s.setChan c { s.chan c with cal := .wait }).rejected c).bump Obj.TDC_CAL_REJECT |>.setOb (Obj.CH_STATUS c) 4 true
      s.assignSlots
    else s
  | none => s

/-! ### Swaps at the turn marker (R106 to R108) -/

/-- A pending LUT swaps at this turn marker: computed at least 1 µs ago, or a host's captured by an APPLY at least two ticks
ago; the 1 µs is the computed LUT's alone, so that a host LUT swaps at the marker that its APPLY named (R106, R110, R492;
DEDUCED, log entry 166). -/
def State.swapReady (s : State) (p : PendLut) : Bool :=
  (p.src == 1 || s.ticksCover (s.tick - p.madeTick) 1) && match p.applied with | some t => decide (t ≤ s.tick) | none => false

/-- The computed LUT leaves its place. -/
def Chan.unpend (x : Chan) : Chan := { x with pend := none, cal := if x.cal = .pending then .wait else x.cal }

/-- A swapped LUT leaves its place: a host LUT with those captured before it, a computed one alone. -/
def Chan.swapped (x : Chan) (p : PendLut) : Chan :=
  if p.src = 1 then { x with hostDue := x.hostDue.filter fun y => decide (p.applied.getD 0 < y.applied.getD 0) } else x.unpend

/-- PENDING of CH_STATUS: a LUT of either origin waits for its turn marker (R119). -/
def Chan.pending (x : Chan) : Bool := x.pend.isSome || x.host.isSome || !x.hostDue.isEmpty

/-- One channel's swap: LUTs, generation, TAPS and the status flags that a swap clears (R106, R110, R119). -/
def State.swapChan (s : State) (c : Ch) (p : PendLut) : State :=
  let x := { (s.chan c).swapped p with lut := p.lut, walk := p.walk.getD (s.chan c).walk }
  let s := s.setChan c x
  let st := setBits (s.o (Obj.CH_STATUS c)) 15 8 p.taps
  let st := setBit (setBit (setBit (setBit (setBit st 6 false) 5 false) 4 false) 2 x.pending) 0 (p.src == 1)
  (s.setO (Obj.CH_STATUS c) st).wrapBy 32 (Obj.TDC_LUTGEN c) 1

/-- The least TAPS over the channels (R120). -/
def State.tapsMin (s : State) : Nat := allCh.foldl (fun m c => min m (bits (s.o (Obj.CH_STATUS c)) 15 8)) 255

/-- The greatest TAPS over the channels (R120). -/
def State.tapsMax (s : State) : Nat := allCh.foldl (fun m c => max m (bits (s.o (Obj.CH_STATUS c)) 15 8)) 0

/-- TDC_TAPS_MIN and TDC_TAPS_MAX brought up to date. -/
def State.tapsUpdate (s : State) : State :=
  (s.setO Obj.TDC_TAPS_MIN s.tapsMin).setO Obj.TDC_TAPS_MAX s.tapsMax

/-- The 32 bytes of a history entry (R108). -/
def SwapEntry.bytes (e : SwapEntry) : List Byte :=
  bytesLE 6 e.xswap ++ bytesLE 1 e.src ++ bytesLE 5 0 ++ bytesLE 4 e.batch ++ bytesLE 16 e.mask

/-- One history entry for the channels of one source; with TDC_LUT_EVT it is also published (R108). -/
def State.historyEntry (s : State) (src : Nat) (chans : List Ch) : State :=
  if chans.isEmpty then s
  else
    let s := s.wrapBy 32 Obj.TDC_CAL_BATCHES 1
    let e : SwapEntry :=
      { mask := (chans.map fun c => 2 ^ c.val).sum, batch := s.o Obj.TDC_CAL_BATCHES, src := src, xswap := s.tickNumber }
    let h := s.calUnit.history ++ [e]
    let s := { s with calUnit := { s.calUnit with history := h.drop (h.length - 256) } }
    if s.flag Obj.TDC_LUT_EVT then s.recordEvent 0x2810 0x0C e.bytes else s

/-- The computed LUT of a channel that is ready to swap. -/
def State.readyCal (s : State) (c : Ch) : Option PendLut := (s.chan c).pend.filter s.swapReady

/-- The host LUT of a channel that is ready to swap: of several whose markers coincide the one captured last (R492). -/
def State.readyHost (s : State) (c : Ch) : Option PendLut := ((s.chan c).hostDue.filter s.swapReady).getLast?

/-- The LUTs of one origin that are ready swap; the channels and the largest shift beside the state. -/
def State.swapAll (s : State) (ready : Ch → Option PendLut) : State × List Ch × Nat :=
  let swapping := allCh.filter fun c => (ready c).isSome
  let shift := swapping.foldl (fun m c => match ready c with | some p => max m (lutShift p.lut (s.chan c).lut) | none => m) 0
  (swapping.foldl (fun t c => match ready c with | some p => t.swapChan c p | none => t) s, swapping, shift)

/-- The third step of R36 at a turn marker: every ready LUT swaps, a computed one before a host's for the same channel (log
entry 133), with one history entry per source, and the schedule goes on. -/
def State.lutSwaps (s : State) : State :=
  let cal := s.swapAll s.readyCal
  let host := cal.1.swapAll cal.1.readyHost
  if cal.2.1.isEmpty && host.2.1.isEmpty then s
  else
    let s := (host.1.setO Obj.TDC_CAL_MAXSHIFT (clip 255 (max cal.2.2 host.2.2))).tapsUpdate
    ((s.historyEntry 0 cal.2.1).historyEntry 1 host.2.1).assignSlots

/-! ### RESTART and ABORT (R109), enable bits, Hold (R100) -/

/-- RESTART: every channel in ACCUM returns to WAIT, and the schedule starts again from channel 0. -/
def State.calRestart (s : State) : State :=
  let held := allCh.filter fun c => decide ((s.chan c).cal = .accum)
  let s := held.foldl (fun t c => t.calWait c) s
  ({ s with calUnit := { s.calUnit with next := 0 } }).assignSlots

/-- Every pending LUT is discarded. -/
def State.dropPending (s : State) : State :=
  allCh.foldl (fun t c =>
    if (t.chan c).pending then (t.setChan c { (t.chan c).unpend with host := none, hostDue := [] }).setOb (Obj.CH_STATUS c) 2 false else t) s

/-- TDC_CAL_CTRL is judged at its execution (R109). -/
def calCtrlCheck (v : Nat) : Status := if v = 1 ∨ v = 2 then .ok else .outOfRange

/-- TDC_CAL_CTRL takes effect (R109). -/
def State.calCtrlEffect (s : State) (v : Nat) : State :=
  match v with
  | 1 => s.calRestart
  | 2 => s.dropPending.calRestart
  | _ => s

/-- A cleared TDC_CAL_ENABLE bit returns a channel in ACCUM to WAIT; free slots take other channels (R108). -/
def State.calEnableEffect (s : State) (v : Nat) : State :=
  let s := s.setO Obj.TDC_CAL_ENABLE v
  let off := allCh.filter fun c => decide ((s.chan c).cal = .accum) && !bit v c
  (off.foldl (fun t c => t.calWait c) s).assignSlots

/-- A hit in progress ends without a record: a channel that it kept powered goes Off, or Held when it has been enabled again
(R60, R100). -/
def Chan.dropHit (x : Chan) : Chan :=
  if x.closing then
    (if x.releaseAt.isSome then { x with hit := none, closing := false, timing := .held, energy := .held } else x.powerDown)
  else { x with hit := none }

/-- A CKIN failure resets the T domain: hits in progress, histograms and waiting LUTs are discarded, and the LUTs in force
stay (R24, R100). -/
def State.tdcDiscard (s : State) : State :=
  let lost := (allCh.filter fun c => match (s.chan c).hit with | some h => !h.saturated | none => false).length
  let s := s.bumpBy Obj.TDC_HOLDLOST lost
  let s := s.mapChans fun _ x => { x.dropHit with pend := none, host := none, hostDue := [], cal := .wait, chain := [], lastStart := none }
  let s := allCh.foldl (fun t c => (t.setOb (Obj.CH_STATUS c) 1 false).setOb (Obj.CH_STATUS c) 2 false) s
  { s with calUnit := { s.calUnit with slots := [], running := false } }

/-- The TDC is held (R100). -/
def State.tdcHold (s : State) : State := s.tdcDiscard.setO Obj.TDC_STATE 3

/-- Calibration starts on every channel (R100, R111). -/
def State.calStart (s : State) : State :=
  ({ s.setO Obj.TDC_STATE 2 with calUnit := { s.calUnit with running := true, next := 0 } }).assignSlots

/-! ### Host-written LUTs (R110) -/

/-- A host LUT's bytes are judged by length and by R90. -/
def hostLutCheck (l : List Byte) : Status :=
  if l.length ≠ 160 then .length else if lutValid (l.map BitVec.toNat) then .ok else .outOfRange

/-- A valid host LUT replaces a computed LUT that pends, and waits for APPLY (R110). The spec gives no number of taps in use for
it: TAPS keeps the value held when it was written (DESIGN CHOICE, log entry 134). -/
def State.hostLut (s : State) (c : Ch) (l : List Byte) : State :=
  let p : PendLut :=
    { lut := l.map BitVec.toNat, walk := none, taps := bits (s.o (Obj.CH_STATUS c)) 15 8, src := 1,
      madeTick := s.tick, applied := none }
  (s.setChan c { (s.chan c).unpend with host := some p }).setOb (Obj.CH_STATUS c) 2 true

/-- Body of a block response (R468): INDEX, SUB, SFLAGS, OFFSET, TOTAL. -/
def blockBody (k flags off total : Nat) : List Byte :=
  keyBytes k ++ bytesLE 1 flags ++ bytesLE 4 off ++ bytesLE 4 total

/-- The common shape of a whole-object block write: level check, the object's own check, effect and response (R468). -/
def State.hostBlockWrite (s : State) (q : Req) (k len : Nat) (expert : Bool) (check : Status) (effect : State) : State :=
  if expert && !s.isExpert q then s.respond q 0x04 .expertRequired (blockBody k 0 0 0)
  else match check with
    | .ok => effect.respond q 0x04 .ok (blockBody k 2 len len)
    | st => s.respond q 0x04 st (blockBody k 0 0 0)

/-! ### The commands -/

/-- CAL_RANDOM_EDGE. -/
def execCalRandomEdge (c : Ch) (k : Fin 64) (word : BitVec 160) (walkTap : Option (Fin 80)) (s : State) :
    Host.Outcome State Fault Refusal :=
  .next (s.ifAwake (s.calRandomEdge c k word.toNat (walkTap.map Fin.val)))

/-- CAL_QUIET_EXPIRE. -/
def execCalQuietExpire (c : Ch) (s : State) : Host.Outcome State Fault Refusal := .next (s.ifAwake (s.calQuiet c))

/-- CAL_RUN_COMPLETE. -/
def execCalRunComplete (c : Ch) (s : State) : Host.Outcome State Fault Refusal := .next (s.ifAwake (s.calRunComplete c))

/-- LUT_COMPUTE_DONE: the supervisor's arithmetic (R40, R43). -/
def execLutComputeDone (c : Ch) (s : State) : Host.Outcome State Fault Refusal := .next (s.ifTask (s.lutComputeDone c))

/-- TDC_CAL_RESTART. -/
def execTdcCalRestart (q : Req) (s : State) : Host.Outcome State Fault Refusal :=
  .next (s.ifRequest q (s.hostWrite q Obj.TDC_CAL_CTRL false (calCtrlCheck 1) (s.pendLive Obj.TDC_CAL_CTRL 1)))

/-- TDC_CAL_ABORT. -/
def execTdcCalAbort (q : Req) (s : State) : Host.Outcome State Fault Refusal :=
  .next (s.ifRequest q (s.hostWrite q Obj.TDC_CAL_CTRL false (calCtrlCheck 2) (s.pendLive Obj.TDC_CAL_CTRL 2)))

/-- TDC_LUT_WRITE. -/
def execTdcLutWrite (q : Req) (c : Ch) (lut : List Byte) (s : State) : Host.Outcome State Fault Refusal :=
  .next (s.ifRequest q (s.hostBlockWrite q (Obj.TDC_LUT c) lut.length true (hostLutCheck lut) (s.hostLut c lut)))

end Sys2Proof.Machine
end

