-- ==== Sys2Proof/Machine/Compression.lean ====
section
/-! DEFINITION. The lossless coder of answer sections (R253 to R261), fixed-ratio coding (R264 to R267) and the test stream
(R276). -/
namespace Sys2Proof.Machine

/-! ### Entries (R253) -/

/-- The word carries the mark of a loss record (R134). -/
def isLoss (w : Nat) : Bool := bits w 28 17 == 0xFFF && bits w 8 5 == 2

/-- NREC of a marker (R201). -/
def markerNrec (w : Nat) : Nat := bits w 31 25

/-- VERD of a marker. -/
def markerVerd (w : Nat) : Nat := bits w 36 34

/-- The marker announces a loss record as the last of its records. -/
def markerLoss (w : Nat) : Bool := markerVerd w == 0 && bit w 33

/-- The structure of R253 over the entries of a section, from a stream's state on. -/
def entriesValid : Nat → Bool → List Nat → Bool
  | _, _, [] => true
  | 0, _, w :: r =>
    decide (markerNrec w ≤ 64) && !(markerLoss w && markerNrec w == 0) && entriesValid (markerNrec w) (markerLoss w) r
  | n + 1, l, w :: r => (isLoss w == (l && n == 0)) && entriesValid n l r

/-- The 48-bit words of a section. -/
def sectionWords : List Byte → List Nat
  | a :: b :: c :: d :: e :: f :: r => fromLE [a, b, c, d, e, f] :: sectionWords r
  | _ => []

/-! ### Fields (R255 to R257) -/

/-- The n low bits of a value, most significant first. -/
def bitsMSB : Nat → Nat → List Bool
  | 0, _ => []
  | n + 1, v => v.testBit n :: bitsMSB n v

/-- Channel difference modulo 128. -/
def dCh (h : Hist) (w : Nat) : Nat := (bits w 47 41 + 128 - h.pch) % 128

/-- TOA difference as a signed value. -/
def dToa (h : Hist) (w : Nat) : Int := ((bits w 40 29 + 4096 - h.ptoa + 2048) % 4096 : Nat) - 2048

/-- The coded TOT. -/
def codedT (w : Nat) : Nat := (bits w 28 17 + 1) % 4096

/-- The coded DT with FLG[8]. -/
def codedD (w : Nat) : Nat :=
  if bits w 16 9 = 0xFF then (if bit w 8 then 256 else 0) else bits w 16 9 + 1

/-- Field widths of a set: channel, TOA, T, D (R256). -/
def setWidths (s : Nat) : Nat × Nat × Nat × Nat :=
  match s with
  | 0 => (4, 6, 8, 4) | 1 => (5, 8, 10, 6) | 2 => (6, 10, 12, 8) | _ => (7, 12, 12, 9)

/-- A set holds a hit (R256). -/
def setHolds (s : Nat) (h : Hist) (w : Nat) : Bool :=
  let x := setWidths s
  (h.first || (decide (dCh h w < 2 ^ x.1) && decide (-(2 ^ (x.2.1 - 1) : Nat) ≤ dToa h w) &&
    decide (dToa h w < (2 ^ (x.2.1 - 1) : Nat)))) &&
  decide (codedT w < 2 ^ x.2.2.1) && decide (codedD w < 2 ^ x.2.2.2)

/-- The bits of a hit record in a set (R255). -/
def hitBits (s : Nat) (h : Hist) (w : Nat) : List Bool :=
  let x := setWidths s
  (if h.first then bitsMSB 7 (bits w 47 41) ++ bitsMSB 12 (bits w 40 29)
   else bitsMSB x.1 (dCh h w) ++ bitsMSB x.2.1 (ofSigned x.2.1 (dToa h w))) ++
  bitsMSB x.2.2.1 (codedT w) ++ bitsMSB x.2.2.2 (codedD w) ++ [bit w 5] ++ bitsMSB 5 (bits w 4 0)

/-- OFFS of a marker. -/
def markerOffs (w : Nat) : Int := toSigned 11 (bits w 47 37)

/-- The bits of a marker (R257). -/
def markerBits (h : Hist) (w : Nat) : List Bool :=
  (if markerOffs w = h.poffs + 1 then [true] else false :: bitsMSB 11 (bits w 47 37)) ++
  bitsMSB 3 (markerVerd w) ++ [bit w 33] ++ bitsMSB 7 (markerNrec w) ++ bitsMSB 7 (bits w 24 18)

/-- The bits of a loss record (R257). -/
def lossBits (w : Nat) : List Bool :=
  bitsMSB 7 (bits w 47 41) ++ bitsMSB 12 (bits w 40 29) ++ bitsMSB 8 (bits w 16 9) ++ [bit w 4, bit w 3, bit w 2]

/-! ### Streams -/

/-- The kinds of R253 and the stream's state after an entry. -/
inductive Kind where
  | marker | hit | loss
  deriving DecidableEq, Repr

/-- The kind of the next entry. -/
def Ctx.kind (c : Ctx) : Kind :=
  if c.due = 0 then .marker else if c.due = 1 ∧ c.lossLast = true then .loss else .hit

/-- The stream after an entry (R253, R254). -/
def Ctx.after (c : Ctx) (w : Nat) : Ctx :=
  match c.kind with
  | .marker => { c with due := markerNrec w, lossLast := markerLoss w, hist := { c.hist with poffs := markerOffs w } }
  | .hit => { c with due := c.due - 1, hist := { c.hist with pch := bits w 47 41, ptoa := bits w 40 29, first := false } }
  | .loss => { c with due := c.due - 1 }

/-- An entry fits a set. -/
def Ctx.fits (c : Ctx) (s w : Nat) : Bool :=
  match c.kind with
  | .hit => setHolds s c.hist w
  | _ => true

/-- The bits of an entry in a set. -/
def Ctx.bitsOf (c : Ctx) (s w : Nat) : List Bool :=
  match c.kind with
  | .marker => markerBits c.hist w
  | .hit => hitBits s c.hist w
  | .loss => lossBits w

/-- Every entry of a block fits a set. -/
def blockFits (s : Nat) : Ctx → List Nat → Bool
  | _, [] => true
  | c, w :: r => c.fits s w && blockFits s (c.after w) r

/-- The bits of a block's entries in a set. -/
def blockBits (s : Nat) : Ctx → List Nat → List Bool
  | _, [] => []
  | c, w :: r => c.bitsOf s w ++ blockBits s (c.after w) r

/-- The stream after a block. -/
def ctxAfter (c : Ctx) (ws : List Nat) : Ctx := ws.foldl Ctx.after c

/-- The lowest-numbered set that holds a block (R258). -/
def blockSet (c : Ctx) (ws : List Nat) : Nat := ((List.range 3).find? fun s => blockFits s c ws).getD 3

/-- Bits to bytes, bit 7 first, zero bits to the byte boundary (R258). -/
def packBits : Nat → List Bool → List Byte
  | 0, _ => []
  | n + 1, l =>
    if l.isEmpty then []
    else BitVec.ofNat 8 (((List.range 8).map fun i => b2n (l.getD i false) * 2 ^ (7 - i)).sum) :: packBits n (l.drop 8)

/-- One block of at most 32 entries: header and entries (R258, R259). -/
def codeBlock (c : Ctx) (ws : List Nat) : CodedBlock :=
  let set := blockSet c ws
  let bs := bitsMSB 16 (set * 2 ^ 14 + (ws.length - 1) * 2 ^ 9) ++ blockBits set c ws
  { set := set, entries := ws.length, bytes := packBits (bs.length / 8 + 1) bs }

/-- A job's input in blocks of 32 entries, with a bound on their number (R258). -/
def codeBlocks : Nat → Ctx → List Nat → List CodedBlock
  | 0, _, _ => []
  | n + 1, c, ws =>
    if ws.isEmpty then []
    else codeBlock c (ws.take 32) :: codeBlocks n (ctxAfter c (ws.take 32)) (ws.drop 32)

/-- A job's input as its blocks. -/
def codeJob (c : Ctx) (ws : List Nat) : List CodedBlock := codeBlocks (ws.length / 32 + 1) c ws

/-- What a job writes into an output space (R261): the bytes written, the bytes held, the blocks that it has not formed,
and the blocks that it has formed. -/
def fillSpace : Nat → List Byte → List CodedBlock → List Byte × List Byte × List CodedBlock × List CodedBlock
  | space, held, [] => (held.take space, held.drop space, [], [])
  | space, held, b :: r =>
    if held.length ≥ space then (held.take space, held.drop space, b :: r, [])
    else
      let q := fillSpace (space - held.length) b.bytes r
      (held ++ q.1, q.2.1, q.2.2.1, b :: q.2.2.2)

/-! ### The engine's objects (R250 to R252, R260) -/

/-- One context. -/
def State.ctx (s : State) (n : Nat) : Ctx := s.cmp.ctxs.get (ctxFin n)

/-- One context replaced. -/
def State.setCtx (s : State) (n : Nat) (c : Ctx) : State :=
  { s with cmp := { s.cmp with ctxs := s.cmp.ctxs.set (ctxFin n) c } }

/-- A job of an agent uses context n: a change from another context of the agent is counted, and saves that one to the scratchpad
(R250, R251). -/
def State.useCtx (s : State) (sup : Bool) (n : Nat) : State :=
  let was := if sup then s.cmp.liveS else s.cmp.liveQ
  let s := match was with
    | some m => if m = n then s else (s.bump Obj.CMP_CTXSW).soil (0x5A0000 + 256 * m) 256
    | none => s
  if sup then { s with cmp := { s.cmp with liveS := some n } } else { s with cmp := { s.cmp with liveQ := some n } }

/-- The context live for an agent. -/
def State.liveCtx (s : State) (sup : Bool) : Option Nat := if sup then s.cmp.liveS else s.cmp.liveQ

/-- A resume of context n restores it from the scratchpad when another context of the agent is live (R251): the state, and
false when a word of it is uncorrectable (R385). Contexts are read by agent 2, the query engine, or 4, the supervisor. -/
def State.restoreCtx (s : State) (sup : Bool) (n : Nat) (u : List Upset) : State × Bool :=
  if (s.liveCtx sup).any (· != n) then
    let r := s.channelRead (if sup then 4 else 2) (0x5A0000 + 256 * n) 256 u
    (r.1, r.2.isNone)
  else (s, true)

/-- The stream after a job that has formed blocks of the words ws: history and entry kinds, bytes held, and totals (R250). -/
def Ctx.job (c : Ctx) (ws : List Nat) (formed : List CodedBlock) (out held : List Byte) : Ctx :=
  let k := (formed.map (·.entries)).sum
  { ctxAfter c (ws.take k) with held := held, consumed := c.consumed + 6 * k, produced := c.produced + out.length }

/-- Blocks that a job has formed are counted (R260). -/
def State.countBlocks (s : State) (l : List CodedBlock) : State :=
  l.foldl (fun s b => (s.bump (Obj.CMP_BLOCKS b.set)).wrapBy 64 Obj.CMP_IN_BYTES (6 * b.entries)) s

/-- Bytes that a job has written are counted (R260). -/
def State.countOut (s : State) (n : Nat) : State := s.wrapBy 64 Obj.CMP_OUT_BYTES n

/-- The supervisor's streams are discarded (R252). -/
def State.dropSupStreams (s : State) : State :=
  let s := (List.range 12).foldl (fun s i => s.setCtx (4 + i) {}) s
  { s.setO Obj.CMP_CTXVALID (s.o Obj.CMP_CTXVALID % 16) with cmp := { s.cmp with liveS := none } }

/-! ### Fixed-ratio coding (R264 to R267) -/

/-- The code's seven steps for a shift: each q, and the reconstruction (R265). -/
def waveSteps (sh : Nat) : Int → List Nat → List Int
  | _, [] => []
  | r, x :: l =>
    let d : Int := (x : Int) - r
    let q : Int := if sh = 0 then d else (d + 2 ^ (sh - 1)) / 2 ^ sh
    let r' := r + q * 2 ^ sh
    let r'' := if r' < 0 then 0 else if r' > 1023 then 1023 else r'
    q :: waveSteps sh r'' l

/-- The smallest shift that keeps every step within 7 bits (R265). -/
def waveShift (g : List Nat) : Nat :=
  ((List.range 5).find? fun sh => (waveSteps sh (g.headD 0) g.tail).all fun q => decide (-64 ≤ q) && decide (q ≤ 63)).getD 5

/-- The word of one group of eight samples (R264). -/
def waveWord (g : List Nat) : Nat :=
  let sh := waveShift g
  let qs := (waveSteps sh (g.headD 0) g.tail).map (ofSigned 7)
  g.headD 0 * 2 ^ 54 + sh * 2 ^ 51 + (qs.zipIdx.map fun e => e.1 * 2 ^ (44 - 7 * e.2)).sum

/-- The groups of eight words of a capture. -/
def groups8 : Nat → List Nat → List (List Nat)
  | 0, _ => []
  | n + 1, l => if l.isEmpty then [] else l.take 8 :: groups8 n (l.drop 8)

/-- A count coded into 16 bits (R267). -/
def countCode (v : Nat) : Nat :=
  if v < 2048 then v
  else if v < 4096 then 2048 + (v - 2048)
  else
    let e := Nat.log2 v - 10
    e * 2048 + (v / 2 ^ (e - 1) - 2048)

/-! ### The test stream (R276) -/

/-- A test section is judged: length, structure, and for a continued stream the context it needs (R276). -/
def State.testCheck (s : State) (b : List Byte) : Status :=
  let c : Ctx := if s.flag Obj.CMP_TEST_START then {} else s.ctx (s.o Obj.CMP_TEST_CTX)
  if b.length % 6 ≠ 0 ∨ b.length > 3072 then .length
  else if s.o Obj.CMP_TEST_START = 0 ∧ c.live = false then .failed
  else if entriesValid c.due c.lossLast (sectionWords b) then .ok
  else .outOfRange

/-- A valid test section is coded as one job of its context (R276). -/
def State.testJob (s : State) (b : List Byte) : State :=
  let s := s.ungate 2
  let n := s.o Obj.CMP_TEST_CTX
  let c : Ctx := if s.flag Obj.CMP_TEST_START then { live := true } else s.ctx n
  let ws := sectionWords b
  let bl := codeJob c ws
  let out := bl.flatMap (·.bytes)
  let s := (((s.useCtx true n).setCtx n (c.job ws bl out [])).countBlocks bl).countOut out.length
  let s := (s.wrapBy 48 Obj.CMP_JOBS 1).setO Obj.CMP_TEST_LEN out.length
  { s with cmp := { s.cmp with test := out } }

/-- A continued test stream restores its context, which is discarded when it cannot be; without a stream in the context the
resume returns NOCTX, and is counted (R252, R385). -/
def State.testNoCtx (s : State) (b : List Byte) (u : List Upset) : State :=
  let n := s.o Obj.CMP_TEST_CTX
  let r := if s.flag Obj.CMP_TEST_START || !(s.ctx n).live then (s, true) else s.restoreCtx true n u
  let s := if r.2 then r.1 else (r.1.setCtx n {}).setOb Obj.CMP_CTXVALID n false
  if s.testCheck b = .failed then s.bump Obj.CMP_NOCTX else s

end Sys2Proof.Machine
end

