-- ==== Sys2Proof/Machine/Latency.lean ====
section
/-! DEFINITION. The latency buffer: verdicts (R159), substitution of the spare and migration (R163 to R165), layout switches
and maquette mode (R166 to R168), start-up, Hold and RESYNC (R169 to R171). -/
namespace Sys2Proof.Machine

/-! ### Verdicts (R159, R160) -/

/-- Conditions 1 to 4 and 6 of R159 for a crossing, in their order; lostIndex is true when the reading of its index word
is uncorrectable (R385). -/
def State.verdict (s : State) (c : Nat) (lostIndex : Bool) : Verdict :=
  if c < s.o Obj.LB_FLOOR then .expired
  else if c < s.o Obj.LB_LOSTBELOW then .lost
  else if c + s.window + 1 > s.xc then .wait
  else
    let w := s.indexOf c
    if lostIndex || bit w 0 then .lost else .stored (bits w 8 2) (bit w 1) (bits w 31 9 * 8)

/-- An expired verdict of a crossing that age alone would have kept is counted (R160). -/
def State.countCapExp (s : State) (c : Nat) : State :=
  if c ≥ s.ageFloor then s.bump Obj.LB_CAPEXP else s

/-! ### The spare and the migration (R163 to R165) -/

/-- SPARE_MAPPED: rank S serves in place of the retired rank, and draining resumes (R163). -/
def State.spareMapped (s : State) : State :=
  if s.o Obj.LB_STATE = 2 ∧ s.rstate 2 = 3 ∧ s.lb.switch.isNone = true ∧ (s.pos0 = s.lb.migRank ∨ s.pos1 = s.lb.migRank) then
    let s := s.setMap (if s.pos0 = s.lb.migRank then 2 else s.pos0) (if s.pos1 = s.lb.migRank then 2 else s.pos1) false
    ({ s with lb := { s.lb with drainHeld := false } }).settle
  else s

/-- The migration ends: DUAL, the retired rank goes DOWN, and an EVENT gives the counts (R164, R367). -/
def State.migrationEnd (s : State) : State :=
  let s := s.setO Obj.LB_STATE 1
  let s := if s.rstate s.lb.migRank = 7 then s.setO (Obj.DRM_RSTATE s.lb.migRank) 8 else s
  let s := { s with lb := { s.lb with migRank := 3 } }
  (s.stage 0x0304 1 0 (bytesLE 4 (s.o Obj.LB_MIG_COPIED) ++ bytesLE 4 (s.o Obj.LB_MIG_LOST))).settle

/-- The rank byte addresses of slice c's words in the migrated position that lie on the retired rank. -/
def State.migWords (s : State) (c : Nat) : List Nat :=
  let w := s.indexOf c
  let x := bits w 31 9 * 8
  (List.range (ceilDiv (6 * bits w 8 2) 8)).filterMap fun k =>
    let y := (x + 8 * k) % ringCap s.lbMode
    match s.wcOffset y, s.place y with
    | none, .rank _ r a => if r = 2 ∧ s.absAt y < s.lb.migFrom then some a else none
    | _, _ => none

/-- The words read from the retired rank in order, up to the first uncorrectable one. -/
def State.migRead (s : State) (u : List Upset) : List Nat → State × List (Nat × List Byte) × Bool
  | [] => (s, [], false)
  | a :: r =>
    let x := s.readBeat s.lb.migRank a u
    if x.2.2 then (x.1, [], true)
    else
      let q := x.1.migRead u r
      (q.1, (a, x.2.1) :: q.2.1, q.2.2)

/-- MIGRATION_COPY: the next older slice is passed over, copied to S, or marked LOST; below F the migration ends. -/
def State.migrationCopy (s : State) (u : List Upset) : State :=
  if s.o Obj.LB_STATE = 2 ∧ s.lb.drainHeld = false then
    let p := s.o Obj.LB_MIGPTR
    if p = 0 ∨ p - 1 < s.o Obj.LB_FLOOR then s.migrationEnd
    else
      let c := p - 1
      let ws := if c < s.o Obj.LB_LOSTBELOW then [] else s.migWords c
      let s := s.setO Obj.LB_MIGPTR c
      if ws.isEmpty then s
      else
        let s := s.countReads s.lb.migRank ((ws.map (· / 64)).dedup.length)
        let x := s.migRead u ws
        if x.2.2 then (x.1.markLost c).bump Obj.LB_MIG_LOST
        else
          let t := x.2.1.foldl (fun t e => t.setRankData 2 (memWrite (t.rankData 2) e.1 e.2)) x.1
          (t.countWrites 2 ((ws.map (· / 64)).dedup.length)).bump Obj.LB_MIG_COPIED
  else s

/-! ### Maquette mode (R168) -/

/-- An applied LB_MAQ_SEL asks for a layout switch at its turn marker, when the layout is not the one asked for
(R166, R168); a switch that a lost rank has called for takes LB_MAQ_SEL into account itself. A second change in one Hold puts
its own switch, or none, in the place of the one that the first made due and deferred (DESIGN CHOICE, log entry 171). -/
def State.maqSelect (s : State) (v : Nat) : State :=
  let set (p : Option PendSwitch) : State := { s with lb := { s.lb with switch := p } }
  if s.lbMode = 0 then s
  else if (s.lb.switch.map PendSwitch.kind) = some .loss then s
  else if v = 1 then set (if s.lbMode = 4 then none else some { kind := .enterMaq, from_ := s.tick })
  else if s.lbMode = 4 then
    (if (s.layoutFor s.canServe).1 = 4 then s else set (some { kind := .leaveMaq, from_ := s.tick }))
  else set none

/-! ### Start-up, Hold and RESYNC (R162, R169 to R171) -/

/-- The ranks and the layout at the data-ready tick (R169, R367); ok says which ranks passed. -/
def State.lbStart (s : State) (ok : Nat → Bool) : State :=
  let m := s.layoutFor ok
  let sel := s.flag Obj.LB_MAQ_SEL
  let used (r : Nat) : Bool := ok r && (r != 2 || m.2.1 == 2 || m.2.2 == 2)
  let s := (List.range 3).foldl (fun t r =>
    if used r then t.setO (Obj.DRM_RSTATE r) 3 else if ok r then t.setO (Obj.DRM_RSTATE r) 4 else t) s
  let spare := ok 2 && !used 2
  let s := if sel then (s.setO Obj.LB_STATE 4).setMap 3 3 spare else (s.setO Obj.LB_STATE m.1).setMap m.2.1 m.2.2 spare
  let noRank := decide (m.1 = 4)
  let s := { s with lb := { epoch := s.tick, noRank := noRank } }
  let s := ((s.setO Obj.LB_LOSTBELOW s.xc).setO Obj.LB_FLOOR s.ageFloor).setO Obj.LB_CAPFLOOR 0
  let s := ((s.setO Obj.LB_WPTR 0).setO Obj.LB_WTOTAL 0).creditMode
  (if noRank then s.ariseIf 5 else s).dieCond

/-- A CKIN failure: LB_STATE HELD, serving ranks and one in WAKE in self-refresh (R24, R162, R360, R367). -/
def State.lbHold (s : State) : State :=
  let s := if s.o Obj.LB_STATE = 0 ∨ s.o Obj.LB_STATE = 5 then s
    else { s.setO Obj.LB_STATE 5 with lb := { s.lb with before := s.o Obj.LB_STATE } }
  (List.range 3).foldl (fun t r => if t.rstate r = 3 ∨ t.rstate r = 5 then t.setO (Obj.DRM_RSTATE r) 6 else t) s

/-- The latency buffer leaves HELD at the first tick on CKIN (R162). -/
def State.lbResume (s : State) : State :=
  if s.o Obj.LB_STATE = 5 then s.setO Obj.LB_STATE s.lb.before else s

/-- A RESYNC that changes the count (R171); during a migration LB_MIGPTR does not stay above the new numbers. -/
def State.lbResync (s : State) (n0 : Nat) : State :=
  if s.o Obj.LB_STATE = 0 then s
  else
    let s := ((s.setO Obj.LB_LOSTBELOW n0).setO Obj.LB_FLOOR (n0 + 1 - s.leff)).setO Obj.LB_CAPFLOOR 0
    let s := if s.lbMode = 2 then s.setO Obj.LB_MIGPTR (min (s.o Obj.LB_MIGPTR) n0) else s
    { s with lb := { s.lb with closed := [], first := none, epoch := s.tick } }

/-! ### The commands -/

/-- SPARE_MAPPED. -/
def execSpareMapped (s : State) : Host.Outcome State Fault Refusal := .next (s.ifAwake s.spareMapped)

/-- MIGRATION_COPY. -/
def execMigrationCopy (u : List Upset) (s : State) : Host.Outcome State Fault Refusal := .next (s.ifAwake (s.migrationCopy u))

/-- LAYOUT_SWITCH. -/
def execLayoutSwitch (s : State) : Host.Outcome State Fault Refusal := .next (s.ifAwake s.layoutSwitch)

end Sys2Proof.Machine
end

