-- ==== Sys2Proof/Machine/Pool.lean ====
section
/-! DEFINITION. The event block pool (R205 to R208). -/
namespace Sys2Proof.Machine

/-- Owner codes of R208. -/
def agentCode : PoolAgent → Nat
  | .query => 1 | .builder => 2 | .replay => 3 | .supervisor => 4

/-- The owner of block b; 0 is free. -/
def State.owner (s : State) (b : Nat) : Nat := sget 0 s.query.pool b

/-- The owner of block b replaced. -/
def State.setOwner (s : State) (b o : Nat) : State := { s with query := { s.query with pool := sset 0 s.query.pool b o } }

/-- The number of free blocks. -/
def State.poolFree (s : State) : Nat := 256 - s.query.pool.length

/-- The lowest-numbered free block. -/
def State.freeBlock (s : State) : Option Nat := (List.range 256).find? fun b => s.owner b == 0

/-- Allocate: the lowest-numbered free block becomes the agent's (R205). -/
def State.allocate (s : State) (a : PoolAgent) : State × Option Nat :=
  match s.freeBlock with
  | none => (s, none)
  | some b =>
    let s := s.setOwner b (agentCode a)
    (s.setO Obj.POOL_MIN (min (s.o Obj.POOL_MIN) s.poolFree), some b)

/-- Transfer: refused and counted for a block that the issuer does not own (R205). -/
def State.transfer (s : State) (a to_ : PoolAgent) (b : Nat) : State :=
  if s.owner b = agentCode a then s.setOwner b (agentCode to_) else s.bump Obj.POOL_FOREIGN

/-- Release: of a free block a second release, of another agent's block a foreign one; both only count (R205, R206). -/
def State.release_ (s : State) (a : PoolAgent) (b : Nat) : State :=
  if s.owner b = agentCode a then s.setOwner b 0
  else if s.owner b = 0 then s.bump Obj.POOL_DOUBLE
  else s.bump Obj.POOL_FOREIGN

/-- Several blocks transferred. -/
def State.transferAll (s : State) (a to_ : PoolAgent) (bs : List Nat) : State := bs.foldl (fun s b => s.transfer a to_ b) s

/-- Several blocks released. -/
def State.releaseAll (s : State) (a : PoolAgent) (bs : List Nat) : State := bs.foldl (fun s b => s.release_ a b) s

/-- The scratchpad address of block b. -/
def blockAddr (b : Nat) : Nat := 0x400000 + 4096 * b

/-- A byte string written into pool blocks in order. -/
def State.writeBlocks (s : State) : List Nat → List Byte → State
  | [], _ => s
  | b :: r, l => ({ s with spm := memWrite s.spm (blockAddr b) (l.take 4096) }).writeBlocks r (l.drop 4096)

/-- n bytes read from pool blocks in order. -/
def State.readBlocks (s : State) : List Nat → Nat → List Byte
  | [], _ => []
  | b :: r, n => memRead s.spm (blockAddr b) (min n 4096) ++ s.readBlocks r (n - 4096)

/-- The blocks that the supervisor owns are freed at its restart and counted (R208). -/
def State.poolReclaim (s : State) : State :=
  let mine := (s.query.pool.filter fun e => e.2 == 4).map (·.1)
  (mine.foldl (fun s b => s.setOwner b 0) s).bumpBy Obj.POOL_RECLAIM mine.length

end Sys2Proof.Machine
end

