-- ==== Sys2Proof/Machine/Query.lean ====
section
/-! DEFINITION. The query path from receipt to a packed answer: admission (R176 to R193), windows and verdicts (R180 to
R188, R196), fetch and pack (R198 to R202, R207), coding of sections (R249 to R263), RESYNC and Hold (R209, R210). -/
namespace Sys2Proof.Machine

/-! ### The query word (R176, R180) -/

/-- The anchor resolved against the crossing in progress t (R180, R181). -/
def resolveAnchor (t anchor : Nat) : Anchor :=
  let d := (anchor + 2 ^ 24 - t % 2 ^ 24) % 2 ^ 24
  if d < 0x800000 then (if d = 0 then .past t else .future (t + d))
  else if t ≥ 0x1000000 - d then .past (t - (0x1000000 - d))
  else .negative (2 ^ 48 + t - (0x1000000 - d))

/-- ANCHOR as the header carries it (R181, R199). -/
def Anchor.field : Anchor → Nat
  | .past a => a % 2 ^ 48 | .future a => a % 2 ^ 48 | .negative a => a

/-- The anchor as an integer. -/
def Anchor.int : Anchor → Int
  | .past a => a | .future a => a | .negative a => (a : Int) - 2 ^ 48

/-- The anchor lies later than the present. -/
def Anchor.isFuture : Anchor → Bool
  | .future _ => true | _ => false

/-- The anchor lies before crossing 0. -/
def Anchor.isNegative : Anchor → Bool
  | .negative _ => true | _ => false

/-- A received query with what it captures at receipt (R180, R183, R190, R263). -/
def State.makeQuery (s : State) (w : Nat) (fill : Nat) : Query :=
  let type := bits w 95 94
  { qid := bits w 111 96, type := type, anchor := resolveAnchor s.xc (bits w 93 70), before := bits w 69 65,
    after := bits w 64 60, spanlen := bits w 59 50, hitlim := bits w 49 38,
    mask := if type = 1 ∨ type = 3 then s.o (Obj.QRY_REGION (bits w 37 34)) else 2 ^ 128 - 1,
    totcut := bits w 33 22, comp := bit w 21 && s.flag Obj.CMP_ENABLE && type != 2 && !bit w 20,
    cntonly := bit w 20, qbusy := decide (fill > s.o Obj.QRY_BUSY_LEVEL), addr := s.o Obj.CF_ADDR }

/-- Records are answered: not a COUNT, not count-only, not a future anchor (R178, R181, R187). -/
def Query.hasRecords (q : Query) : Bool := q.type != 2 && !q.cntonly && !q.anchor.isFuture

/-- The answer has a section: not count-only, not a future anchor. -/
def Query.hasSection (q : Query) : Bool := !q.cntonly && !q.anchor.isFuture

/-- Offsets of the first and last window crossing from the anchor (R178). -/
def Query.window (q : Query) : Int × Int :=
  if q.type = 3 then (-(q.spanlen : Int), 0) else (-(q.before : Int), (q.after : Int))

/-- The number of window crossings. -/
def Query.winCount (q : Query) : Nat := if q.type = 3 then q.spanlen + 1 else q.before + q.after + 1

/-- WIN of the header (R199). -/
def Query.winField (q : Query) : Nat := q.type * 64 + clip 63 (q.winCount - 1)

/-- The window crossings, oldest first. -/
def Query.crossings (q : Query) : List Int :=
  (List.range q.winCount).map fun i => q.anchor.int + q.window.1 + i

/-! ### Items of the queue -/

/-- The number of occupied entries (R189). -/
def QueryUnit.fill (u : QueryUnit) : Nat :=
  (u.items.filter fun x => match x with | .entry _ => true | _ => false).length

/-- Refused queries not yet answered (R193). -/
def QueryUnit.refPend (u : QueryUnit) : Nat :=
  (u.items.map fun x => match x with | .run _ len done _ => len - done | _ => 0).sum

/-- The items replaced. -/
def State.setItems (s : State) (l : List QItem) : State := { s with query := { s.query with items := l } }

/-- The entry that fulfils p first is mapped by f. -/
def mapFirst (p : QEntry → Bool) (f : QEntry → QEntry) : List QItem → List QItem
  | [] => []
  | .entry e :: r => if p e then .entry (f e) :: r else .entry e :: mapFirst p f r
  | x :: r => x :: mapFirst p f r

/-- The first entry that fulfils p. -/
def findEntry (p : QEntry → Bool) (l : List QItem) : Option QEntry :=
  l.findSome? fun x => match x with | .entry e => if p e then some e else none | _ => none

/-- BUSY: the fill stands above QRY_BUSY_LEVEL (R192). -/
def State.busy (s : State) : Bool := decide (s.query.fill > s.o Obj.QRY_BUSY_LEVEL)

/-- BUSY may have changed from what it was: it clears, or sets with an EVENT once it has been clear for 1 ms (R192). -/
def State.busyChange (s : State) (was : Bool) : State :=
  if was && !s.busy then { s with query := { s.query with busyClear := some s.tick } }
  else if !was && s.busy && s.flag Obj.QRY_BUSY_EVT then
    (match s.query.busyClear with
     | some t => if s.ticksCover (s.tick - t) 1000 then s.stage 0x0405 1 0 (bytesLE 2 s.query.fill) else s
     | none => s.stage 0x0405 1 0 (bytesLE 2 s.query.fill))
  else s

/-- The fill has changed from what it was. -/
def State.busyUpdate (s : State) (before : Nat) : State := s.busyChange (decide (before > s.o Obj.QRY_BUSY_LEVEL))

/-- A new QRY_BUSY_LEVEL takes effect. -/
def State.busyLevelEffect (s : State) (v : Nat) : State := (s.setO Obj.QRY_BUSY_LEVEL v).busyChange s.busy

/-! ### Admission (R179, R191, R193) -/

/-- QID continuity is checked against the previous query (R179). -/
def State.checkQid (s : State) (qid : Nat) : State :=
  let s := match s.query.lastQid with
    | some p => if qid = (p + 1) % 2 ^ 16 then s else s.bump Obj.QRY_QIDGAP
    | none => s
  let s := s.setO Obj.QRY_LASTQID qid
  { s with query := { s.query with lastQid := some qid } }

/-- A query received at a full queue joins the refusal run of the newest entry (R193). Where CF_ADDR has changed since the run
began a new run begins, with its own first QID and length, as each answer carries the address of its query's receipt (R190; DESIGN
CHOICE, log entry 172). -/
def State.refuse (s : State) (qid : Nat) : State :=
  let addr := s.o Obj.CF_ADDR
  match s.query.items.getLast? with
  | some (.run f len done a) =>
    if a = addr then
      (if len ≥ 2 ^ 32 - 1 then s.bump Obj.QRY_REFSAT
       else s.setItems (s.query.items.dropLast ++ [.run f (len + 1) done a]))
    else s.setItems (s.query.items ++ [.run qid 1 0 addr])
  | _ => s.setItems (s.query.items ++ [.run qid 1 0 addr])

/-- A query word admitted normal or thin, or refused (R191). A refused query is not counted in QRY_FUTURE, its answer being that
of R193 alone (R181; DESIGN CHOICE, log entry 173). -/
def State.enqueueQuery (s : State) (w : Nat) : State :=
  let fill := s.query.fill
  let q := s.makeQuery w fill
  let s := ((s.checkQid q.qid).wrapBy 48 Obj.QRY_RECEIVED 1).ungate 2
  if fill ≥ 256 then s.refuse q.qid
  else
    let thin := decide (fill ≥ s.o Obj.QRY_THIN_LEVEL)
    let s := if q.anchor.isFuture then s.bump Obj.QRY_FUTURE else s
    let s := if bit w 21 && !s.flag Obj.CMP_ENABLE then s.bump Obj.CMP_UNCODED else s
    let s := s.setItems (s.query.items ++ [.entry { q := q, thin := thin }])
    (s.peak Obj.QRY_PEAK (fill + 1)).busyUpdate fill

/-! ### Start, wait, index (R182, R194, R196, R207) -/

/-- The entry is in progress in the engine. -/
def QEntry.inProgress (e : QEntry) : Bool := e.slot.isSome

/-- The newest window crossing is readable, or the query needs none (R181, R182, R210). -/
def State.windowReady (s : State) (e : QEntry) : Bool :=
  e.q.anchor.isFuture || e.stale.isSome ||
    decide (e.q.anchor.int + e.q.window.2 + (s.window : Int) + 1 ≤ (s.xc : Int))

/-- The verdict of a window crossing when its index entry is read (R159, R182). Of a query that a RESYNC found queued, a crossing
that was not readable at the RESYNC tick got lost then, and any other is judged by R159 as its number stands now; one that
would have to wait under the new numbering is lost, as the waits have ended (R210; DEDUCED, log entry 148). -/
def State.winVerdict (s : State) (e : QEntry) (x : Int) (u : List Upset) : Verdict :=
  if x < 0 then .expired
  else
    let v := s.verdict x.toNat (wordError u (s.indexAddr x.toNat) == some true)
    match e.stale with
    | some t => if x + s.window + 1 > t then .lost else if v = .wait then .lost else v
    | none => v

/-- One window crossing as the index gives it. -/
def State.makeWin (s : State) (e : QEntry) (u : List Upset) (x : Int) : Win :=
  let v := s.winVerdict e x u
  { x := x, verdict := v, recs := [],
    toFetch := match v with | .stored n _ _ => e.q.hasRecords && n != 0 | _ => false }

/-- HITLIM of a SPAN; 0 means 4,095 (R176). -/
def Query.limit (q : Query) : Nat := if q.hitlim = 0 then 4095 else q.hitlim

/-- Blocks for the largest answer the index allows: every stored record, in a SPAN no more than its limit, and never more than
8 blocks (R188, R207). -/
def blocksFor (ws : List Win) (e : QEntry) : Nat :=
  let recs := (ws.map fun w => match w.verdict with | .stored n _ _ => if e.q.hasRecords then n else 0 | _ => 0).sum
  let recs := if e.q.type = 3 then min e.q.limit recs else recs
  min 8 (ceilDiv (24 + (if e.q.hasSection then 6 * ws.length else 0) + 6 * recs) 4096)

/-- An index reading is counted against the scratchpad, and an expired verdict caused by capacity in LB_CAPEXP. -/
def State.countIndex (s : State) (u : List Upset) (w : Win) : State :=
  if w.x < 0 then s
  else
    let s := s.noteWord 2 (s.indexAddr w.x.toNat) u
    if w.verdict = .expired then s.countCapExp w.x.toNat else s

/-- The entry of an engine slot. -/
def State.slotEntry (s : State) (n : Fin 4) : Option QEntry := findEntry (fun e => e.slot == some n) s.query.items

/-- The entry of an engine slot mapped. -/
def State.mapSlot (s : State) (n : Fin 4) (f : QEntry → QEntry) : State :=
  s.setItems (mapFirst (fun e => e.slot == some n) f s.query.items)

/-- The reservation goes on while blocks are free; an allocation that has to wait is counted (R205, R207). -/
def State.reserve (s : State) (n : Fin 4) : Nat → State
  | 0 => s
  | k + 1 =>
    match s.allocate .query with
    | (t, some b) => (t.mapSlot n fun e => { e with blocks := e.blocks ++ [b], need := e.need - 1 }).reserve n k
    | (t, none) => t.bump Obj.POOL_WAITS

/-! ### Packing (R183 to R188, R198 to R202) -/

/-- A hit record passes the region mask and the TOT cut (R183, R184). -/
def Query.passes (q : Query) (w : Nat) : Bool :=
  bit q.mask (bits w 47 41) && (q.totcut == 0 || decide (q.totcut ≤ bits w 28 17))

/-- A stable sort of hit records by channel (R186). -/
def sortByCh (l : List Nat) : List Nat := (List.range 128).flatMap fun c => l.filter fun w => bits w 47 41 == c

/-- The records answered for a stored crossing: hits that pass, then the loss record (R183 to R186). -/
def Query.select (q : Query) (recs : List Nat) (trunc : Bool) : List Nat :=
  let hits := if trunc then recs.dropLast else recs
  let kept := hits.filter q.passes
  (if q.comp then sortByCh kept else kept) ++ (if trunc then recs.drop hits.length else [])

/-- The records of a window crossing in the answer. -/
def Query.answered (q : Query) (w : Win) : List Nat :=
  match w.verdict with
  | .stored _ t _ => if q.hasRecords then q.select w.recs t else []
  | _ => []

/-- The crossing marker of R201. -/
def marker (q : Query) (w : Win) : Nat :=
  let n := (q.answered w).length
  let f := match w.verdict with
    | .stored c t _ => (0, b2n t, c) | .expired => (1, 0, 0) | .lost => (2, 0, 0) | .wait => (2, 0, 0)
    | .skipped c t => (3, b2n t, c)
  ofSigned 11 (w.x - q.anchor.int) * 2 ^ 37 + f.1 * 2 ^ 34 + f.2.1 * 2 ^ 33 + n * 2 ^ 25 + f.2.2 * 2 ^ 18

/-- The words of the uncoded section: per crossing its marker and records (R201). -/
def QEntry.sectionList (e : QEntry) : List Nat :=
  if e.q.hasSection then e.win.flatMap fun w => marker e.q w :: e.q.answered w else []

/-- NHITS (R199). -/
def QEntry.nhits (e : QEntry) : Nat :=
  if e.thin || e.q.anchor.isFuture then 0
  else if e.q.hasRecords then
    (e.win.map fun w => match w.verdict with
      | .stored _ t _ => (e.q.answered w).length - b2n t | _ => 0).sum
  else clip 65535 (e.win.map fun w => match w.verdict with | .stored c t _ => c - b2n t | _ => 0).sum

/-- Some window crossing has a verdict that fulfils p. -/
def QEntry.anyWin (e : QEntry) (p : Verdict → Bool) : Bool := e.win.any fun w => p w.verdict

/-- FLAGS of a queue entry's answer (R200). -/
def QEntry.flags (e : QEntry) (coded : Bool) : Nat :=
  b2n e.thin * 2 ^ 11
  + b2n (e.anyWin fun v => v == .expired) * 2 ^ 9
  + b2n (e.anyWin fun v => v == .lost || v == .wait) * 2 ^ 8
  + b2n (e.anyWin fun v => match v with | .stored _ t _ => t | .skipped _ t => t | _ => false) * 2 ^ 7
  + b2n e.spanCut * 2 ^ 6 + b2n coded * 2 ^ 5 + b2n e.q.cntonly * 2 ^ 4
  + b2n e.q.anchor.isFuture * 2 ^ 2 + b2n e.waited * 2 + b2n e.q.qbusy

/-- The verdict of the anchor crossing. -/
def QEntry.anchorVerdict (e : QEntry) : Verdict :=
  match e.win.find? fun w => w.x == e.q.anchor.int with
  | some w => w.verdict
  | none => .expired

/-- KIND of an entry's answer, in the order of R195: 0 normal, 1 expired, 2 lost, 3 thinned. -/
def QEntry.kind (e : QEntry) : Nat :=
  if e.thin then 3
  else if e.q.anchor.isFuture || e.q.anchor.isNegative then 1
  else match e.anchorVerdict with
    | .expired => 1 | .lost => 2 | .wait => 2 | _ => 0

/-- The 16 header bytes of R199. -/
def headerBytes (flags qid anchor addr nhits win : Nat) : List Byte :=
  bytesLE 16 (0xD0 * 2 ^ 120 + 2 * 2 ^ 116 + flags * 2 ^ 104 + qid * 2 ^ 88 + anchor * 2 ^ 40 + addr * 2 ^ 24 + nhits * 2 ^ 8 + win)

/-- The 8 trailer bytes of R202. -/
def trailerBytes (crc len kind : Nat) (postchk ue : Bool) : List Byte :=
  bytesLE 8 (crc * 2 ^ 32 + len * 2 ^ 8 + kind * 2 ^ 5 + b2n postchk * 2 ^ 4 + b2n ue * 2 ^ 3)

/-- A sub-event from its header fields, its uncoded section and the section as sent (R198). -/
def subEvent (flags qid anchor addr nhits win kind : Nat) (postchk ue : Bool) (uncoded sent : List Byte) : Answer :=
  let h := headerBytes flags qid anchor addr nhits win
  let b := h ++ padTo 8 sent ++ trailerBytes (crc32c (h ++ uncoded)) uncoded.length kind postchk ue
  { bytes := b, len := b.length,
    suspectCrc := crc32c (headerBytes (flags ||| 8) qid anchor addr nhits win ++ uncoded) }

/-- An entry's sub-event from its uncoded section and the section as sent. -/
def QEntry.subEventOf (e : QEntry) (uncoded sent : List Byte) (coded : Bool) : Answer :=
  subEvent (e.flags coded) e.q.qid e.q.anchor.field e.q.addr e.nhits e.q.winField e.kind e.postchk e.fetchUe uncoded sent

/-- The sub-event of a thin entry (R191, R198). -/
def QEntry.thinAnswer (e : QEntry) : Answer := e.subEventOf [] [] false

/-- A refused-full answer (R193): the builders alone may set SUSPECT in it. -/
def refusedAnswer (qid addr : Nat) : Answer :=
  subEvent (2 ^ 10 + 1) qid 0xFFFFFFFFFFFF addr 0 0 4 false false [] []

/-- The packed answer is written into its blocks, and the blocks left over are released (R207). -/
def State.finishAnswer (s : State) (n : Fin 4) (e : QEntry) (a : Answer) : State :=
  let k := ceilDiv a.len 4096
  let used := e.blocks.take k
  let s := (s.writeBlocks used a.bytes).releaseAll .query (e.blocks.drop k)
  let s := s.check n (a.bytes.take 16 ++ e.uncoded)
  let a := { a with bytes := [], blocks := used }
  s.mapSlot n fun e => { e with st := .handoff, blocks := used, answer := a, uncoded := [], coded := [] }

/-- QUERY_PACK: the section is formed; a section to be coded waits for its job, any other answer is complete. -/
def State.pack (s : State) (n : Fin 4) : State :=
  match s.slotEntry n with
  | none => s
  | some e =>
    let sec := e.sectionList.flatMap (bytesLE 6)
    if e.q.comp && !sec.isEmpty then s.mapSlot n fun e => { e with st := .pack, uncoded := sec, coded := [] }
    else s.finishAnswer n { e with uncoded := sec } (e.subEventOf sec sec false)

/-- Once its blocks are reserved a query fetches, or packs when nothing is to be fetched (R196). -/
def State.afterReserve (s : State) (n : Fin 4) : State :=
  match s.slotEntry n with
  | some e =>
    if e.st = .index ∧ e.need = 0 then
      (if e.win.any (·.toFetch) then s.mapSlot n fun e => { e with st := .fetch } else s.pack n)
    else s
  | none => s

/-- QUERY_INDEX: the index entries are read, the first verdicts are taken and blocks are reserved (R196, R207). -/
def State.indexQuery (s : State) (n : Fin 4) (u : List Upset) : State :=
  match s.slotEntry n with
  | none => s
  | some e =>
    let ws := if e.q.anchor.isFuture then [] else e.q.crossings.map (s.makeWin e u)
    let need := blocksFor ws e
    let s := ws.foldl (fun s w => s.countIndex u w) s
    let s := s.mapSlot n fun e => { e with st := .index, win := ws, need := need }
    (s.reserve n need).afterReserve n

/-- The lowest engine slot that no query holds. -/
def State.freeSlot (s : State) : Option (Fin 4) := (List.finRange 4).find? fun n => (s.slotEntry n).isNone

/-- QUERY_START: the oldest normal entry that has not begun takes a slot; it waits for its window or is indexed (R182,
R194, R196). -/
def State.queryStart (s : State) (u : List Upset) : State :=
  let p (e : QEntry) : Bool := decide (e.st = .queued) && !e.thin
  match s.freeSlot, findEntry p s.query.items with
  | some n, some e =>
    let s := s.setItems (mapFirst p (fun e => { e with slot := some n }) s.query.items)
    if s.windowReady e then s.indexQuery n u
    else (s.mapSlot n fun e => { e with st := .waiting, waited := true }).bump Obj.QRY_WAITS
  | _, _ => s

/-- QUERY_WAIT_END: the oldest waiting query whose newest window crossing has become readable goes on (R182). -/
def State.waitEnd (s : State) (u : List Upset) : State :=
  match (List.finRange 4).find? fun n => (s.slotEntry n).any fun e => decide (e.st = .waiting) && s.windowReady e with
  | some n => s.indexQuery n u
  | none => s

/-! ### Fetch (R160, R165, R188, R202) -/

/-- The first window crossing that is still to be fetched is mapped. -/
def mapFetch (f : Win → Win) : List Win → List Win
  | [] => []
  | w :: r => if w.toFetch then f w :: r else w :: mapFetch f r

/-- The records answered so far, the loss records included (R188). -/
def QEntry.recordCount (e : QEntry) : Nat := (e.win.map fun w => (e.q.answered w).length).sum

/-- A stored crossing becomes skipped. -/
def Win.skip (w : Win) : Win :=
  match w.verdict with
  | .stored c t _ => { w with verdict := .skipped c t, recs := [], toFetch := false }
  | _ => w

/-- A SPAN at its limit: the crossing just fetched and every newer stored one are skipped (R188). -/
def QEntry.cutSpan (e : QEntry) (x : Int) : QEntry :=
  if e.q.type = 3 ∧ e.recordCount > e.q.limit then
    { e with spanCut := true, win := e.win.map fun w => if w.x ≥ x then w.skip else w }
  else e

/-- The outcome of a completed fetch after the second test of conditions 1 and 2 (R160). -/
def State.fetchVerdict (s : State) (c : Nat) (ue : Bool) (v : Verdict) : Verdict × Bool :=
  if c < s.o Obj.LB_FLOOR then (.expired, true)
  else if c < s.o Obj.LB_LOSTBELOW then (.lost, true)
  else if ue then (.lost, false)
  else (v, false)

/-- DRAM fetches do not complete in HELD; fetches from the scratchpad go on (R170, R209). -/
def State.fetchStopped (s : State) : Bool := decide (s.o Obj.LB_STATE = 5) && decide (s.lb.before ≠ 4)

/-- SLICE_FETCH_DONE: the next fetch of the query in a slot completes, in its buffer of the query staging, and its crossing is
tested again; a halt of the fetch channel counts towards the QUERY fault (R160, R202, R372, R536). -/
def State.fetchDone (s : State) (n : Fin 4) (u : List Upset) : State :=
  match s.slotEntry n with
  | none => s
  | some e =>
    match e.st, e.win.find? (·.toFetch) with
    | .fetch, some w =>
      if s.fetchStopped then s
      else match w.verdict with
        | .stored cnt t a =>
          let c := w.x.toNat
          let r := s.fetchSlice c a cnt u
          let s := if r.2.2 then r.1.noteEvent 2 0 16 1000 else r.1
          let s := s.soil (0x580000 + 0x8000 * n.val) 0x8000
          let v := s.fetchVerdict c r.2.2 w.verdict
          let s := if v.2 then s.bump Obj.LB_POSTCHK else s
          let s := if v.1 = .expired then s.countCapExp c else s
          let ue := r.2.2 && !v.2
          let s := if ue then s.bump Obj.LB_FETCH_UE else s
          let recs := if v.1 = .stored cnt t a then (sectionWords r.2.1).take cnt else []
          let s := s.mapSlot n fun e =>
            ({ e with postchk := e.postchk || v.2, fetchUe := e.fetchUe || ue,
                      win := mapFetch (fun w => { w with verdict := v.1, recs := recs, toFetch := false }) e.win }).cutSpan w.x
          (match s.slotEntry n with
           | some e => if e.win.any (·.toFetch) then s else s.pack n
           | none => s).settle
        | _ => s
    | _, _ => s

/-! ### Coding jobs (R249, R261, R263, R385) -/

/-- The space that an answer's blocks leave for the coded section: header and trailer keep their bytes. -/
def QEntry.codeSpace (e : QEntry) : Nat := e.blocks.length * 4096 - 24 - e.coded.length

/-- A section of the query engine is being coded. -/
def State.coding (s : State) : Bool := (List.finRange 4).any fun n => (s.slotEntry n).any fun e => decide (e.st = .pack)

/-- A context that cannot be restored: the resume returns NOCTX and the section is sent uncoded, in sorted order
(R252, R263, R385). -/
def State.sendUncoded (s : State) (n : Fin 4) (e : QEntry) : State :=
  let s := ((s.bump Obj.CMP_NOCTX).bump Obj.CMP_UNCODED).setOb Obj.CMP_CTXVALID n false
  (s.setCtx n {}).finishAnswer n e (e.subEventOf e.uncoded e.uncoded false)

/-- The stream of a slot's section: a new one, or the suspended one. -/
def State.stream (s : State) (n : Fin 4) (e : QEntry) : Ctx := if e.stopped then s.ctx n else { live := true }

/-- The words of a section that its stream has not consumed. -/
def unread (e : QEntry) (c : Ctx) : List Nat := (sectionWords e.uncoded).drop (c.consumed / 6)

/-- A job of a slot's section fills the answer's space: it ends DONE, or OUTFULL with its stream suspended, the running value of
the trailer CRC after the bytes consumed, and one more block wanted (R249 to R252, R261, R270). -/
def State.codeSection (s : State) (n : Fin 4) (e : QEntry) : State :=
  let c := s.stream n e
  let ws := unread e c
  let r := fillSpace e.codeSpace c.held (codeJob c ws)
  let c' := c.job ws r.2.2.2 r.1 r.2.1
  let s := (((s.useCtx false n).setCtx n c').countBlocks r.2.2.2).countOut r.1.length
  let coded := e.coded ++ r.1
  if r.2.1.isEmpty && r.2.2.1.isEmpty then
    let s := ((s.wrapBy 48 Obj.CMP_JOBS 1).setOb Obj.CMP_CTXVALID n false).setCtx n {}
    s.finishAnswer n e (e.subEventOf e.uncoded coded true)
  else
    let s := (s.bump Obj.CMP_STOPS).setOb Obj.CMP_CTXVALID n true
    let s := s.check n ((e.subEventOf [] [] true).bytes.take 16 ++ e.uncoded.take c'.consumed)
    (s.mapSlot n fun e => { e with coded := coded, stopped := true, need := 1 }).reserve n 1

/-- CMP_JOB_END: the job of a slot's section ends DONE or OUTFULL; a resume whose context cannot be restored returns NOCTX. -/
def State.jobEnd (s : State) (n : Fin 4) (u : List Upset) : State :=
  match s.slotEntry n with
  | some e =>
    if e.st = .pack ∧ e.need = 0 then
      let r := if e.stopped then s.restoreCtx false n u else (s, true)
      if r.2 then r.1.codeSection n e else r.1.sendUncoded n e
    else s
  | none => s

/-! ### The pool's operations (R205, R206) -/

/-- A block holds an answer, which its owner transfers and releases as the answer moves on: other requests leave it alone. -/
def State.blockUsed (s : State) (b : Nat) : Bool :=
  (s.query.items.any fun x => match x with | .entry e => e.blocks.contains b | _ => false)
    || (s.bld.parts.any fun p => p.a.blocks.contains b) || (s.north.answers.any fun a => a.blocks.contains b)
    || (s.hub.recs.any fun r => r.pos.any fun p => match p with | .paired a => a.blocks.contains b | _ => false)
    || s.north.tx.held.any fun f => f.blocks.contains b

/-- A release or transfer that an agent asks for. -/
def State.poolAct (s : State) (e : PoolAgent × PoolAct) : State :=
  match e.2 with
  | .release b => if s.owner b.toNat = agentCode e.1 ∧ s.blockUsed b.toNat = true then s else s.release_ e.1 b.toNat
  | .transfer b t => if s.owner b.toNat = agentCode e.1 ∧ s.blockUsed b.toNat = true then s else s.transfer e.1 t b.toNat

/-- The allocation of an agent: the waiting one of the query engine; of another agent, which waits while no block is free. -/
def State.poolTake (s : State) (a : PoolAgent) : State :=
  match a with
  | .query =>
    (match (List.finRange 4).find? fun n => (s.slotEntry n).any fun e => decide (e.need ≠ 0) with
     | some n =>
       if s.freeBlock.isSome then
         (match s.slotEntry n with
          | some e => (s.reserve n e.need).afterReserve n
          | none => s)
       else s
     | none => s)
  | _ =>
    let rest := s.query.poolWait.filter fun x => x != a
    let r := s.allocate a
    let wait := if r.2.isSome then rest else rest ++ [a]
    { r.1 with query := { r.1.query with poolWait := wait } }

/-- The turn of agent g in a core cycle in which agent a allocates: its releases and transfers, then its allocation, or one of
its own that has waited and can go on. -/
def State.poolTurn (a : PoolAgent) (acts : List (PoolAgent × PoolAct)) (s : State) (g : PoolAgent) : State :=
  let s := (acts.filter fun e => decide (e.1 = g)).foldl State.poolAct s
  if g = a ∨ (g ∈ s.query.poolWait ∧ s.freeBlock.isSome = true) then s.poolTake g else s

/-- POOL_ALLOCATE: the operations of one core cycle in the order of R206: query engine, builder, replay buffer, supervisor (R205,
R206). -/
def State.poolAllocate (s : State) (a : PoolAgent) (acts : List (PoolAgent × PoolAct)) : State :=
  [PoolAgent.query, .builder, .replay, .supervisor].foldl (State.poolTurn a acts) s

/-! ### RESYNC (R210) -/

/-- At a RESYNC that changes the count, at a tick that would have started crossing t, every queued query's crossings belong to
the old numbering, and its waits end. -/
def State.queryResync (s : State) (t : Nat) : State :=
  let f (x : QItem) : QItem := match x with
    | .entry e => .entry { e with stale := some (e.stale.getD t) }
    | _ => x
  s.setItems (s.query.items.map f)

/-- A test section is written (R276). -/
def State.testWrite (s : State) (q : Req) (b : List Byte) (u : List Upset) : State :=
  let s := s.testNoCtx b u
  s.hostBlockWrite q Obj.CMP_TEST b.length false (s.testCheck b) (s.testJob b)

/-! ### The commands -/

/-- QUERY_START. -/
def execQueryStart (u : List Upset) (s : State) : Host.Outcome State Fault Refusal := .next (s.ifAwake (s.queryStart u))

/-- QUERY_WAIT_END. -/
def execQueryWaitEnd (u : List Upset) (s : State) : Host.Outcome State Fault Refusal := .next (s.ifAwake (s.waitEnd u))

/-- SLICE_FETCH_DONE. -/
def execSliceFetchDone (n : Fin 4) (u : List Upset) (s : State) : Host.Outcome State Fault Refusal := .next (s.ifAwake (s.fetchDone n u))

/-- POOL_ALLOCATE. -/
def execPoolAllocate (a : PoolAgent) (acts : List (PoolAgent × PoolAct)) (s : State) : Host.Outcome State Fault Refusal :=
  .next (s.ifAwake (s.poolAllocate a acts))

/-- CMP_JOB_END. -/
def execCmpJobEnd (n : Fin 4) (u : List Upset) (s : State) : Host.Outcome State Fault Refusal := .next (s.ifAwake (s.jobEnd n u))

/-- CMP_TEST_WRITE (R276). -/
def execCmpTestWrite (q : Req) (b : List Byte) (u : List Upset) (s : State) : Host.Outcome State Fault Refusal :=
  .next (s.ifRequest q (s.testWrite q b u))

end Sys2Proof.Machine
end

