-- ==== Sys2Proof/Machine/Builder.lean ====
section
/-! DEFINITION. The duplicated builders: parts, decisions, marking, take-outs, switch-over and rejoin (R239 to R245). -/
namespace Sys2Proof.Machine

/-! ### The pair (R245) -/

/-- BLD_UNIT of a unit. -/
def unitKey (n : Nat) : Nat := if n = 0 then Obj.BLD_UNIT0 else Obj.BLD_UNIT1

/-- BLD_CHKFAIL of a unit. -/
def chkfailKey (n : Nat) : Nat := if n = 0 then Obj.BLD_CHKFAIL0 else Obj.BLD_CHKFAIL1

/-- The state of a unit: 0 OFF, 1 ACTIVE, 2 STANDBY, 3 OUT, 4 COPY, 5 RETIRED. -/
def State.unit (s : State) (n : Nat) : Nat := s.o (unitKey n)

/-- The active unit. -/
def State.activeUnit (s : State) : Nat := s.o Obj.BLD_ACTIVE

/-- The other unit. -/
def State.otherUnit (s : State) : Nat := 1 - s.activeUnit

/-- Both units work in lockstep. -/
def State.lockstep (s : State) : Bool := s.o Obj.BLD_STATE == 1

/-- BLD_STATE from the units' states: LOCKSTEP with a standby, REJOIN during a copy, SINGLE otherwise; OFF stays. -/
def State.pairState (s : State) : State :=
  if s.unit 0 ≠ 1 ∧ s.unit 1 ≠ 1 then s.setO Obj.BLD_STATE 0
  else if s.unit s.otherUnit = 2 then s.setO Obj.BLD_STATE 1
  else if s.unit s.otherUnit = 4 then s.setO Obj.BLD_STATE 3
  else s.setO Obj.BLD_STATE 2

/-- A unit leaves the pair in the state given: an EVENT, and the degraded condition of a single builder (R244, R550);
a unit that enters RETIRED is a BUILDERS fault (R536). -/
def State.unitOut (s : State) (n st : Nat) : State :=
  let s := (s.setO (unitKey n) st).pairState
  let s := if st = 5 then s.raiseFault 4 (Fin.ofNat 128 n) else s
  ((s.stage 0x0406 0 n (bytesLE 1 st ++ bytesLE 4 (s.o (chkfailKey n)))).ariseIf 8).settle

/-- take_out of R241: OUT, or RETIRED once it has been taken out BLD_RETIRE_LIMIT times (R244). -/
def State.takeOut (s : State) (n : Nat) : State :=
  let k := s.bld.takeouts.getD n 0 + 1
  let s := { s with bld := { s.bld with takeouts := s.bld.takeouts.set n k } }
  s.unitOut n (if k ≥ s.o Obj.BLD_RETIRE_LIMIT then 5 else 3)

/-- switch_over of R242: the other unit becomes the active one. -/
def State.switchOver (s : State) : State :=
  let n := s.otherUnit
  let s := (s.setO (unitKey n) 1).setO Obj.BLD_ACTIVE n
  (s.bump Obj.BLD_SWITCHES).setO Obj.BLD_LASTX s.xc

/-- The active unit is taken out after the switch-over. -/
def State.takeOutActive (s : State) : State :=
  let n := s.activeUnit
  s.switchOver.takeOut n

/-! ### Marking (R241) -/

/-- n bytes of pool blocks as the builder reads them (R385). -/
def State.builderRead (s : State) (u : List Upset) : List Nat → Nat → State × List Byte
  | [], _ => (s, [])
  | b :: r, n =>
    let x := s.readSpm 3 (blockAddr b) (min n 4096) u
    let q := x.1.builderRead u r (n - 4096)
    (q.1, x.2.1 ++ q.2)

/-- The bytes of an answer as its part is framed. -/
def State.partBytes (s : State) (u : List Upset) (a : Answer) : State × List Byte :=
  if a.blocks.isEmpty then (s, a.bytes) else s.builderRead u a.blocks a.len

/-- The bytes with bit n of byte i set. -/
def setByteBit (b : List Byte) (i n : Nat) : List Byte := b.modify i fun x => BitVec.ofNat 8 (setBit x.toNat n true)

/-- The bytes with CRC in their last four (R202). -/
def putTrailerCrc (b : List Byte) (crc : Nat) : List Byte := b.take (b.length - 4) ++ bytesLE 4 crc

/-- SUSPECT set in a part: in a sub-event's FLAGS with the CRC of the header as sent, or in the cluster trailer. -/
def markPart (k : PartKind) (a : Answer) (b : List Byte) : List Byte :=
  match k with
  | .subEvent => putTrailerCrc (setByteBit b 13 3) a.suspectCrc
  | .trailer => setByteBit b 0 7
  | _ => b

/-- mark_suspect: the event is counted once, and the part that carries the mark takes it. -/
def State.markSuspect (s : State) : State :=
  if s.bld.suspect then s else { s.bump Obj.BLD_SUSPECT with bld := { s.bld with suspect := true } }

/-! ### Release (R239, R205) -/

/-- The bytes of a released part join the answer that goes north, or the queue of a pass-through link. -/
def State.handNorth (s : State) (p : Part) (b : List Byte) : State :=
  match p.kind with
  | .relay j qid =>
    let l := s.pass.get (portFin j)
    { s with pass := s.pass.set (portFin j) { l with queue := l.queue ++ [(0, p.first, p.last, qid, b)] } }
  | _ =>
    let a : Answer := { bytes := b, len := b.length, blocks := p.a.blocks, blockEnd := if p.a.blocks.isEmpty then 0 else b.length }
    let l := s.north.answers
    let join (x : Answer) : Answer :=
      { x with bytes := x.bytes ++ b, len := x.len + b.length, blocks := x.blocks ++ p.a.blocks,
               blockEnd := if p.a.blocks.isEmpty then x.blockEnd else x.len + b.length }
    let l := if p.first then l ++ [a] else match l.getLast? with
      | some x => l.dropLast ++ [join x]
      | none => [a]
    { s with north := { s.north with answers := l, more := !p.last } }

/-- The two check units of a builder over a part: its input payload and its framed output. Of a part whose check failed the
second value is open, as the failure may lie elsewhere (R240, R271; log entry 154). -/
def State.unitChecks (s : State) (n : Nat) (failed : Bool) (b : List Byte) : State :=
  let s := s.check (5 + 2 * n) b
  if failed then (s.setO (Obj.CHK_RUN (6 + 2 * n)) (s.open % 2 ^ 32)).drawn else s.check (6 + 2 * n) b

/-- A part is a relayed frame, which carries no mark (R241). -/
def PartKind.isRelay : PartKind → Bool
  | .relay _ _ => true
  | _ => false

/-- A part is released: its pool blocks go to the replay buffer, and the mark ends with the answer, or with the relayed frame. -/
def State.releasePart (s : State) (p : Part) (b : List Byte) : State :=
  let b := if s.bld.suspect then markPart p.kind p.a b else b
  let s := (s.transferAll .builder .replay p.a.blocks).handNorth p b
  if p.last || p.kind.isRelay then { s with bld := { s.bld with suspect := false } } else s

/-! ### The decision (R241, R244) -/

/-- Failed checks are counted per unit. -/
def State.countCheck (s : State) (n : Nat) (f : Bool) : State := if f then s.bump (chkfailKey n) else s

/-- Mismatches with no check failed within the 1,024 ticks before this one. -/
def State.recentMismatches (s : State) : Nat := (s.bld.mismatches.filter fun t => decide (s.tick ≤ t + 1024)).length

/-- A mismatch with no check failed: marked; the third within 1,024 ticks forces a switch-over. -/
def State.bareMismatch (s : State) : State :=
  let forced := decide (s.recentMismatches ≥ 2)
  let s := (s.bump Obj.BLD_MISMATCH).markSuspect
  let l := (s.bld.mismatches.filter fun t => decide (s.tick ≤ t + 1024)) ++ [s.tick]
  let s := { s with bld := { s.bld with mismatches := l } }
  if forced then s.takeOutActive.bump Obj.BLD_FORCED else s

/-- The pair's decision at the end of a part in lockstep. -/
def State.pairDecision (s : State) (mismatch fa fs : Bool) : State :=
  let s := (s.countCheck s.activeUnit fa).countCheck s.otherUnit fs
  match fa, fs with
  | false, false => if mismatch then s.bareMismatch else s
  | true, false => s.takeOutActive
  | false, true => s.takeOut s.otherUnit
  | true, true =>
    let s := (s.markSuspect.takeOut s.otherUnit).bump Obj.BLD_BOTHFAIL
    (s.stage 0x0407 0 0 (bytesLE 4 (s.o Obj.BLD_BOTHFAIL))).ariseOnce 9

/-- The decision of a unit that serves alone: a failed check marks the event. -/
def State.aloneDecision (s : State) (fa : Bool) : State :=
  if fa then (s.countCheck s.activeUnit true).markSuspect else s

/-- A SWITCH that waits is consumed at a part end; it acts when the pair has stayed in lockstep with the same active unit
(R242). -/
def State.forcedSwitch (s : State) (was : Nat) : State :=
  if s.bld.switch then
    let s := { s with bld := { s.bld with switch := false } }
    if s.lockstep && s.activeUnit == was then
      let n := s.activeUnit
      (s.switchOver.setO (unitKey n) 2).pairState
    else s
  else s

/-- PART_DECISION: the oldest part is decided and released. -/
def State.partDecision (s : State) (mismatch fa fs : Bool) (u : List Upset) : State :=
  match s.bld.parts with
  | [] => s
  | p :: r =>
    if s.o Obj.BLD_STATE = 0 then s
    else
      let was := s.activeUnit
      let x := ({ s with bld := { s.bld with parts := r } }).partBytes u p.a
      let both := s.lockstep
      let s := x.1.unitChecks was fa x.2
      let s := if both then s.unitChecks (1 - was) fs x.2 else s
      let s := if both then s.pairDecision mismatch fa fs else s.aloneDecision fa
      ((s.releasePart p x.2).forcedSwitch was).settle

/-! ### Self-test, copy, host commands (R242 to R244) -/

/-- BUILDER_SELFTEST_DONE: COPY, or RETIRED when the test failed (R243). -/
def State.selftestDone (s : State) (n : Nat) (ok : Bool) : State :=
  if s.unit n = 3 then (if ok then ((s.setO (unitKey n) 4).pairState).settle else s.unitOut n 5) else s

/-- The running values of a builder's check units are loaded into the other's (R243, R270). -/
def State.copyChecks (s : State) (src dst : Nat) : State :=
  (s.setO (Obj.CHK_RUN (5 + 2 * dst)) (s.o (Obj.CHK_RUN (5 + 2 * src)))).setO (Obj.CHK_RUN (6 + 2 * dst)) (s.o (Obj.CHK_RUN (6 + 2 * src)))

/-- A copy is over, and with it the re-initialisation that asked for it (R536). -/
def State.copyOver (s : State) : State := if s.unit 0 = 4 ∨ s.unit 1 = 4 then s else s.reinitOver 4

/-- BUILDER_COPY_DONE: lockstep resumes; a check failure during the copy takes the unit out again (R243, R245). -/
def State.copyDone (s : State) (ok : Bool) : State :=
  let n := s.otherUnit
  if s.unit n = 4 then
    (if ok then ((((s.copyChecks s.activeUnit n).setO (unitKey n) 2).pairState).bump Obj.BLD_REJOINS).settle
     else (s.countCheck n true).takeOut n).copyOver
  else s

/-- A SWITCH waits for a part end, or for its tick. -/
def State.switchPending (s : State) : Bool := s.bld.switch || s.livePend.any fun e => e == (Obj.BLD_CTRL, 1)

/-- Some unit is in a state. -/
def State.anyUnit (s : State) (st : Nat) : Bool := s.unit 0 == st || s.unit 1 == st

/-- BLD_CTRL is judged at its execution (R242, R244, R248). -/
def State.bldCtrlCheck (s : State) (v : Nat) : Status :=
  match v with
  | 1 => if s.lockstep && !s.switchPending then .ok else .functionRunning
  | 2 => if s.anyUnit 5 && s.anyUnit 1 then .ok else .functionRunning
  | 3 => if s.anyUnit 2 then .ok else .functionRunning
  | _ => .outOfRange

/-- BLD_CTRL takes effect at a tick. -/
def State.bldCtrlEffect (s : State) (v : Nat) : State :=
  match v with
  | 1 => { s with bld := { s.bld with switch := true } }
  | 2 => if s.unit s.otherUnit = 5 ∧ s.unit s.activeUnit = 1 then ((s.setO (unitKey s.otherUnit) 4).pairState).settle else s
  | 3 => if s.unit s.otherUnit = 2 then s.unitOut s.otherUnit 5 else s
  | _ => s

/-- The pair at data-ready, from the results of both self-tests (R245). -/
def State.builderStart (s : State) (ok0 ok1 : Bool) : State :=
  let s := match ok0, ok1 with
    | true, true => ((s.setO Obj.BLD_UNIT0 1).setO Obj.BLD_UNIT1 2).setO Obj.BLD_ACTIVE 0
    | true, false => (((s.setO Obj.BLD_UNIT0 1).setO Obj.BLD_ACTIVE 0).setO Obj.BLD_UNIT1 5)
    | false, true => (((s.setO Obj.BLD_UNIT1 1).setO Obj.BLD_ACTIVE 1).setO Obj.BLD_UNIT0 5)
    | false, false => (s.setO Obj.BLD_UNIT0 5).setO Obj.BLD_UNIT1 5
  let s := s.pairState
  match ok0, ok1 with
  | true, true => s
  | true, false => s.unitOut 1 5
  | false, true => s.unitOut 0 5
  | false, false => (((s.raiseFault 4 0).raiseFault 4 1).stage 0x0407 0 0 (bytesLE 4 (s.o Obj.BLD_BOTHFAIL))).ariseIf 9

/-! ### The commands -/

/-- PART_DECISION. -/
def execPartDecision (mismatch fa fs : Bool) (u : List Upset) (s : State) : Host.Outcome State Fault Refusal :=
  .next (s.ifAwake (s.partDecision mismatch fa fs u))

/-- BUILDER_SELFTEST_DONE. -/
def execBuilderSelftestDone (n : Fin 2) (ok : Bool) (s : State) : Host.Outcome State Fault Refusal :=
  .next (s.ifAwake (s.selftestDone n ok))

/-- BUILDER_COPY_DONE. -/
def execBuilderCopyDone (ok : Bool) (s : State) : Host.Outcome State Fault Refusal := .next (s.ifAwake (s.copyDone ok))

/-- BLD_SWITCH (R242). -/
def execBldSwitch (q : Req) (s : State) : Host.Outcome State Fault Refusal :=
  .next (s.ifRequest q (s.hostWrite q Obj.BLD_CTRL true (s.bldCtrlCheck 1) (s.pendLive Obj.BLD_CTRL 1)))

/-- BLD_REJOIN (R244). -/
def execBldRejoin (q : Req) (s : State) : Host.Outcome State Fault Refusal :=
  .next (s.ifRequest q (s.hostWrite q Obj.BLD_CTRL true (s.bldCtrlCheck 2) (s.pendLive Obj.BLD_CTRL 2)))

/-- BLD_DROP (R244). -/
def execBldDrop (q : Req) (s : State) : Host.Outcome State Fault Refusal :=
  .next (s.ifRequest q (s.hostWrite q Obj.BLD_CTRL true (s.bldCtrlCheck 3) (s.pendLive Obj.BLD_CTRL 3)))

end Sys2Proof.Machine
end

