-- ==== Sys2Proof/Machine/Scratchpad.lean ====
section
/-! DEFINITION. The scratchpad's array and its repairs (R371, R379, R380), and its port (R373 to R375, R378). -/
namespace Sys2Proof.Machine

/-! ### The array (R371) -/

/-- The sub-array of word address w. -/
def subOf (w : Nat) : Nat := w / 98304

/-- The row of word address w in its sub-array. -/
def rowOf (w : Nat) : Nat := w % 98304 / 96

/-- The column group of bit b (0 to 71) of word address w: 9 bit positions of a group of four words. -/
def cgrpOf (w b : Nat) : Nat := w % 96 / 4 * 8 + b / 9

/-- A failing cell: its word address and bit. -/
abbrev Cell := Nat × Nat

/-- The failing cells that a march has found: words with the failing bits of their 72. -/
def cellsOf (l : List (BitVec 20 × BitVec 72)) : List Cell :=
  (l.flatMap fun e => (bitList 72 e.2.toNat).map fun b => (e.1.toNat, b)).dedup

/-! ### Repairs (R379, R380) -/

/-- The repairs in force: rows and column groups, each with its sub-array. -/
structure Repairs where
  rows : List (Nat × Nat) := []
  cols : List (Nat × Nat) := []
  deriving DecidableEq, Repr

/-- Spare rows of a sub-array in use. -/
def Repairs.rowsUsed (p : Repairs) (sub : Nat) : Nat := (p.rows.filter fun e => e.1 == sub).length

/-- Spare column groups of a sub-array in use. -/
def Repairs.colsUsed (p : Repairs) (sub : Nat) : Nat := (p.cols.filter fun e => e.1 == sub).length

/-- A row takes a spare row of its sub-array, while one is free. -/
def Repairs.takeRow (p : Repairs) (e : Nat × Nat) : Repairs :=
  if p.rowsUsed e.1 < 4 ∧ e ∉ p.rows then { p with rows := p.rows ++ [e] } else p

/-- A column group takes the spare column group of its sub-array, while that is free. -/
def Repairs.takeCol (p : Repairs) (e : Nat × Nat) : Repairs :=
  if p.colsUsed e.1 < 1 then { p with cols := p.cols ++ [e] } else p

/-- One repair record is switched in; one that names a row or column group already repaired, a sub-array with no free
spare of its kind, or a column group above 191 is ignored and counted (R379; log entry 144). -/
def repairOne (x : Repairs × Nat) (r : Nat) : Repairs × Nat :=
  let p := x.1
  let row := (bits r 29 27, bits r 26 17)
  let col := (bits r 29 27, bits r 16 9)
  match bits r 31 30 with
  | 1 => if p.takeRow row = p then (p, x.2 + 1) else (p.takeRow row, x.2)
  | 2 => if 192 ≤ col.2 ∨ p.takeCol col = p then (p, x.2 + 1) else (p.takeCol col, x.2)
  | _ => x

/-- Repair records switched in, in order: the repairs in force, and the records ignored. -/
def switchIn (records : List Nat) : Repairs × Nat := records.foldl repairOne ({}, 0)

/-- Row and column group of a failing cell, each with its sub-array. -/
def cellRow (c : Cell) : Nat × Nat := (subOf c.1, rowOf c.1)

/-- See cellRow. -/
def cellCol (c : Cell) : Nat × Nat := (subOf c.1, cgrpOf c.1 c.2)

/-- The failing cells that no repair covers. -/
def Repairs.left (p : Repairs) (cs : List Cell) : List Cell := cs.filter fun c => !p.rows.contains (cellRow c) && !p.cols.contains (cellCol c)

/-- Rows with failing cells in two or more column groups. -/
def wideRows (cs : List Cell) : List (Nat × Nat) :=
  ((cs.map cellRow).dedup).filter fun r => decide (2 ≤ (((cs.filter fun c => cellRow c == r).map cellCol).dedup).length)

/-- Column groups with failing cells in two or more rows. -/
def tallCols (cs : List Cell) : List (Nat × Nat) :=
  ((cs.map cellCol).dedup).filter fun g => decide (2 ≤ (((cs.filter fun c => cellCol c == g).map cellRow).dedup).length)

/-- The repairs after the boot march, in the order of R380; within a step in the order in which the march meets the failures
(log entry 144). -/
def Repairs.repair (p : Repairs) (cs : List Cell) : Repairs :=
  let p := (wideRows (p.left cs)).foldl Repairs.takeRow p
  let p := (tallCols (p.left cs)).foldl Repairs.takeCol p
  let p := (((p.left cs).map cellRow).dedup).foldl Repairs.takeRow p
  (((p.left cs).map cellCol).dedup).foldl Repairs.takeCol p

/-- The records of the repairs that q adds to p (R379). -/
def Repairs.records (p q : Repairs) : List Nat :=
  (q.rows.drop p.rows.length).map (fun e => 2 ^ 30 + e.1 * 2 ^ 27 + e.2 * 2 ^ 17)
    ++ (q.cols.drop p.cols.length).map fun e => 2 ^ 31 + e.1 * 2 ^ 27 + e.2 * 2 ^ 9

/-- The sub-arrays that the repairs q add to, beyond p. -/
def Repairs.subs (p q : Repairs) : List Nat := ((q.rows.drop p.rows.length).map (·.1) ++ (q.cols.drop p.cols.length).map (·.1)).dedup

/-- The failing cells that stand after the repairs: of a sub-array that was repaired those of the second march, of another
those of the first (R380). -/
def standingCells (first second : List Cell) (subs : List Nat) : List Cell :=
  (first.filter fun c => !subs.contains (subOf c.1)) ++ second.filter fun c => subs.contains (subOf c.1)

/-- The words that have failing cells, each with their number. -/
def failingWords (cs : List Cell) : List (Nat × Nat) :=
  ((cs.map (·.1)).dedup).map fun w => (w, (cs.filter fun c => c.1 == w).length)

/-- Words with one failing cell are tolerated and counted; those with two or more mean that the scratchpad has failed
(R380). -/
def toleratedWords (cs : List Cell) : Nat := ((failingWords cs).filter fun e => e.2 == 1).length

/-- See toleratedWords. -/
def failedWords (cs : List Cell) : List Nat := ((failingWords cs).filter fun e => decide (2 ≤ e.2)).map (·.1)

/-- The repairs in force. -/
def State.repairsNow (s : State) : Repairs := { rows := s.memUnit.rows, cols := s.memUnit.cols }

/-- Repairs put in force: the spares in use are shown. -/
def State.setRepairs (s : State) (p : Repairs) : State :=
  (({ s with memUnit := { s.memUnit with rows := p.rows, cols := p.cols } }.setO Obj.SPM_SPARE_ROWS p.rows.length).setO
    Obj.SPM_SPARE_COLS p.cols.length)

/-! ### The port (R373 to R375) -/

/-- The order in which the port grants, lowest first: the assembler, a request of agents 2 to 5 that has waited 64 core
cycles, agents 2 to 5, and agent 6 (R373). -/
def PortWait.rank (p : PortWait) : Nat :=
  if p.agent ≤ 1 then 0
  else if p.agent = 6 then 100
  else if 64 ≤ p.wait then p.agent else 10 + p.agent

/-- The waiting request that is granted: of equals the older one. -/
def granted : List PortWait → Option PortWait
  | [] => none
  | p :: r =>
    match granted r with
    | none => some p
    | some q => if q.rank < p.rank then some q else some p

/-- The request is to write its word in this cycle: a whole word, or a merged one that has been read (R375). -/
def PortWait.writes (p : PortWait) : Bool := p.op == .write || (p.op == .part && p.merging)

/-- The requests of a cycle for the granted word that are served with it (R374): all of them, but agent 6 only when it was
granted itself (R373; log entry 145). -/
def PortWait.joins (g p : PortWait) : Bool := p.word == g.word && (p.agent != 6 || g.agent == 6)

/-- The write of the cycle: of the highest-priority agent. -/
def writer (l : List PortWait) : Option PortWait := granted ((l.filter PortWait.writes).map fun p => { p with wait := 0 })

/-- What becomes of one waiting request in a cycle that serves the requests for one word, which held `value`, and of which w
writes: the request as it waits on, and whether it is write-lost. A served read is over, and so is the write that takes effect; a merging write has
read its word; every other writer, and a merging write whose word has been written under it, is write-lost and starts anew. -/
def PortWait.after (p : PortWait) (word value : Nat) (served : Bool) (w : Option PortWait) : Option PortWait × Bool :=
  let wins := w.any fun x => x.agent == p.agent && x.op == p.op && x.word == p.word
  if served then
    if p.writes then (if wins then (none, false) else (some { p with wait := 0, merging := false }, true))
    else if p.op == .part then (some { p with merging := w.isNone, wait := 0, got := value }, w.isSome)
    else (none, false)
  else if p.merging && w.isSome && p.word == word then (some { p with wait := 0, merging := false }, true)
  else (some { p with wait := p.wait + 1 }, false)

/-- The requests of a cycle: those that wait, and the new ones. -/
def State.portRequests (s : State) (new : List PortReq) : List PortWait :=
  s.memUnit.port ++ new.map fun r =>
    { agent := r.agent.val, word := r.word.toNat, op := r.op, wait := 0, merging := false, data := r.data.toNat, bytes := r.bytes.toNat }

/-- The word that a write puts: its data, or the word it has read with its bytes merged in (R375). -/
def PortWait.put (p : PortWait) : Nat :=
  if p.op == .part then
    fromLE ((List.range 8).map fun i => BitVec.ofNat 8 ((if bit p.bytes i then p.data else p.got) / 256 ^ i))
  else p.data

/-- A corrected word is written back, unless it has been written since (R378). -/
def State.writeBack (s : State) : State :=
  match s.memUnit.fix with
  | [] => s
  | f :: r =>
    let s : State := { s with memUnit := { s.memUnit with fix := r } }
    if memWord s.spm f.addr 8 = f.seen then { s with spm := memPutWord s.spm f.addr 8 (f.seen ^^^ f.err) } else s

/-- One core cycle of the port: a grant with the accesses that combine with it, or in a free cycle a write-back. The write of the
highest-priority agent takes effect, and every reader receives the value before it (R374). -/
def State.portCycle (s : State) (new : List PortReq) : State :=
  let l := s.portRequests new
  match granted l with
  | none => s.writeBack
  | some g =>
    let w := writer (l.filter g.joins)
    let value := memWord s.spm (8 * g.word) 8
    let after := l.map fun p => p.after g.word value (g.joins p) w
    let reads := (l.filter fun p => g.joins p && p.op == .read).map fun p => (p.agent, p.word, value)
    let spm := match w with | some p => memPutWord s.spm (8 * g.word) 8 p.put | none => s.spm
    let waits := (l.filter fun p => decide (2 ≤ p.agent) && decide (p.agent ≤ 5)).map PortWait.wait
    let fix := if w.isSome then s.memUnit.fix.filter fun f => f.addr != 8 * g.word else s.memUnit.fix
    let t : State :=
      { s with spm := spm, memUnit := { s.memUnit with port := after.filterMap (fun x => x.1), fix := fix, portRead := reads } }
    ((t.bumpBy Obj.SPM_WLOST (after.filter (fun x => x.2)).length).peak Obj.SPM_WAITMAX (clip 65535 (waits.foldl max 0)))

/-- SPM_CORRECTION_WRITEBACK: core cycles of the port with the requests made in each; in the next cycle without a request
the oldest corrected word is written back (R373 to R375, R378). -/
def execSpmCorrectionWriteback (cycles : List (List PortReq)) (s : State) : Host.Outcome State Fault Refusal :=
  .next (s.ifAwake ((cycles.foldl State.portCycle s).portCycle []))

end Sys2Proof.Machine
end

