-- ==== Sys2Proof/Machine/Memories.lean ====
section
/-! DEFINITION. Ranks: refresh, power-down, verify, tracking, spare check, host retirement (R358 to R370); the march engine
(R381, R382), the scrubber (R383, R384) and the firmware RAM patrol (R386). -/
namespace Sys2Proof.Machine

/-! ### Refresh and power-down (R358, R359) -/

/-- A pass over rank S in SPARE holds it out of self-refresh for its duration (R383). -/
def State.scrubWakes (s : State) (r : Nat) : Bool :=
  r == 2 && s.rstate 2 == 4 && s.o Obj.SCB_TARGET == 2 && (s.o Obj.SCB_STATE == 1 || s.o Obj.SCB_STATE == 2)

/-- The controller refreshes the rank: it has its clock (R24), and the rank is not in self-refresh (R358, R367). -/
def State.refreshed (s : State) (r : Nat) : Bool :=
  s.o Obj.CLK_STATE == 3 && (s.rstate r == 1 || s.rstate r == 2 || s.rstate r == 3 || s.rstate r == 5 || s.rstate r == 7
    || s.scrubWakes r)

/-- The refresh rate follows the hottest die (R358). -/
def State.refreshRate (s : State) (r : Nat) (t : Int) : State :=
  if t > 95 then (s.setOb Obj.DRM_HOT r true).setRank r { s.rank r with coolFrom := none }
  else if s.ob Obj.DRM_HOT r then
    if t ≥ 90 then s.setRank r { s.rank r with coolFrom := none }
    else match (s.rank r).coolFrom with
      | none => s.setRank r { s.rank r with coolFrom := some s.tick }
      | some f => if s.ticksCover (s.tick - f) 32000 then
          (s.setOb Obj.DRM_HOT r false).setRank r { s.rank r with coolFrom := none } else s
  else s

/-- One all-bank refresh, with the temperature of the rank's hottest die. -/
def State.refreshOnce (s : State) (r temp : Nat) : State :=
  ((s.setO (Obj.DRM_TEMP r) temp).wrapBy 32 (Obj.DRM_REFCNT r) 1).refreshRate r (toSigned 16 temp)

/-- REFRESH: a rank that its controller refreshes. -/
def State.refresh (s : State) (r temp : Nat) : State := if s.refreshed r then s.refreshOnce r temp else s

/-- DRM_HOT: the hot ranks that run at the doubled rate, which is the controller's (R358). -/
def State.drmHot (s : State) : Nat := ((List.range 3).filter fun r => s.ob Obj.DRM_HOT r && s.refreshed r).foldl (fun a r => a + 2 ^ r) 0

/-- RANK_POWER_DOWN. -/
def State.rankPowerDown (s : State) (r : Nat) : State :=
  if s.rstate r = 3 ∧ s.o Obj.CLK_STATE = 3 then s.setRank r { s.rank r with powerDown := true } else s

/-! ### Verify and tracking (R360, R365, R366) -/

/-- The dies that do not work: those that fail now and the marked one. -/
def State.badDies (s : State) (r failing : Nat) : Nat :=
  if s.o (Obj.DRM_DIEMARK r) < 6 then setBit failing (s.o (Obj.DRM_DIEMARK r)) true else failing

/-- One die that fails alone is marked; with two or more the check fails (R355, R365, R366). -/
def State.judgeDies (s : State) (r failing : Nat) : State × Bool :=
  let bad := s.badDies r failing
  if popcount 6 bad ≥ 2 then (s, false)
  else match bitList 6 failing with
    | j :: _ => (s.markDie r j 0, true)
    | [] => (s, true)

/-- A rank leaves self-refresh: CKIN is accepted and locked, and a Parked device is unparking (R366, R524). -/
def State.leavesSref (s : State) : Bool := s.o Obj.CLK_STATE == 3 && (s.o Obj.PWR_STATE != 2 || s.power.unparking)

/-- A verify or spare check of a DRAM re-initialisation is over; with the last of them the re-initialisation (R536). -/
def State.verified (s : State) (r : Nat) : State :=
  let l := s.power.verifying.filter (· != r)
  let p := { s.power with verifying := l }
  { s with power := if l.isEmpty && !s.power.verifying.isEmpty then { p with reinit := p.reinit.filter (· != 7) } else p }

/-- RANK_VERIFY_DONE: a rank in WAKE or in self-refresh serves again, a serving rank under re-initialisation goes on, or
the rank is retired (R366, R367, R536). -/
def State.verifyDone (s : State) (r failing : Nat) : State :=
  if s.o Obj.CLK_STATE = 3 ∧ (s.rstate r = 5 ∨ (s.rstate r = 6 ∧ s.leavesSref = true) ∨ (s.rstate r = 3 ∧ r ∈ s.power.verifying)) then
    let d := s.judgeDies r failing
    let t := if d.2 then d.1.setO (Obj.DRM_RSTATE r) 3 else d.1.retire r 4
    (t.verified r).settle
  else s

/-- One step of the read-strobe delays: lanes in up add a step, lanes in down take one away. -/
def stepDelays (d : List Byte) (up down : Nat) : List Byte :=
  d.zipIdx.map fun e =>
    let i := e.2 - 12
    if e.2 < 12 ∨ 24 ≤ e.2 then e.1
    else if bit up i then BitVec.ofNat 8 (min 63 (e.1.toNat + 1))
    else if bit down i then BitVec.ofNat 8 (e.1.toNat - 1) else e.1

/-- DELAY_TRACK of a serving rank in Run; more than 64 steps on one rank within 1 s are a DRAM fault (R365, R536). -/
def State.delayTrack (s : State) (r up down failing : Nat) : State :=
  if s.rstate r = 3 ∧ s.inRun = true then
    let d := s.judgeDies r failing
    if d.2 then
      let t := d.1.setRank r { d.1.rank r with delays := stepDelays (d.1.rank r).delays up down }
      let n := popcount 12 (up ||| down)
      (List.range n).foldl (fun t _ => t.noteEvent 7 (Fin.ofNat 128 r) 65 1000000) (t.bumpBy (Obj.DRM_TRK_STEPS r) n)
    else (d.1.retire r 4).settle
  else s

/-! ### Passes over beats and words (R370, R384) -/

/-- The beats of a rank that the operands name, once each, in ascending order. -/
def beatsOf (u : List Upset) (r : Nat) : List Nat :=
  ascending (u.filterMap fun x => match x with
    | .beat k a _ => if k.num = r then some (a.toNat / 8 * 8) else none
    | _ => none).dedup

/-- What a pass has met: corrected and uncorrectable addresses. -/
structure Met where
  corrected : List Nat := []
  bad : List Nat := []
  deriving DecidableEq, Repr

/-- Beats decoded and counted by a pass over a rank. -/
def State.passBeats (s : State) (r : Nat) (u : List Upset) : List Nat → Met → State × Met
  | [], m => (s, m)
  | a :: l, m =>
    let d := s.decodedBeat r a u
    let s := s.noteBeat r a d.1
    match d.1 with
    | .clean => s.passBeats r u l m
    | .corrected _ => s.passBeats r u l { m with corrected := m.corrected ++ [a] }
    | .uncorrectable => s.passBeats r u l { m with bad := m.bad ++ [a] }

/-- Words read and counted by a pass over the scratchpad (agent 6). -/
def State.passWords (s : State) (u : List Upset) : List Nat → Met → State × Met
  | [], m => (s, m)
  | a :: l, m =>
    let s := s.noteWord 6 a u
    match wordError u a with
    | none => s.passWords u l m
    | some false => s.passWords u l { m with corrected := m.corrected ++ [a] }
    | some true => s.passWords u l { m with bad := m.bad ++ [a] }

/-- The bytes [lo, hi) of a memory read by a pass: 0 to 2 a rank, whose bursts are counted, 3 the scratchpad. -/
def State.passOver (s : State) (target lo hi : Nat) (u : List Upset) : State × Met :=
  if target = 3 then s.passWords u (namedIn u lo (hi - lo)) {}
  else
    let p := s.passBeats target u ((beatsOf u target).filter fun a => decide (lo ≤ a) && decide (a < hi)) {}
    let t := p.1.countReads target (ceilDiv hi 64 - lo / 64)
    (t.countWrites target ((p.2.corrected.map (· / 64)).dedup.length), p.2)

/-- SPARE_CHECK, which ungates the memory (R407): S leaves self-refresh and takes refreshes meanwhile, then verify, then the next MiB of S (R358, R370). -/
def State.spareCheck (s : State) (u : List Upset) (failing : Nat) (temps : List Nat) : State :=
  if s.rstate 2 = 4 ∧ s.o Obj.CLK_STATE = 3 then
    let s := (temps.foldl (fun t x => t.refreshOnce 2 x) (s.ungate 22)).verified 3
    let d := s.judgeDies 2 failing
    if d.2 then
      let lo := (d.1.rank 2).spareNext * 2 ^ 20
      let p := d.1.passOver 2 lo (lo + 2 ^ 20) u
      let t := p.1.setRank 2 { p.1.rank 2 with spareNext := ((p.1.rank 2).spareNext + 1) % 32, powerDown := false }
      if p.2.bad.isEmpty then t else (t.retire 2 5).settle
    else (d.1.retire 2 5).settle
  else s

/-! ### DRM_CTRL (R363, R368) -/

/-- DRM_CTRL is judged at its execution. -/
def State.drmCtrlCheck (s : State) (v : Nat) : Status :=
  if v = 0x10 then .ok
  else if 1 ≤ v ∧ v ≤ 3 then (if s.rstate (v - 1) = 3 ∨ s.rstate (v - 1) = 4 then .ok else .functionRunning)
  else .outOfRange

/-- DRM_CTRL takes effect at a tick. -/
def State.drmCtrlEffect (s : State) (v : Nat) : State :=
  if v = 0x10 then { s with memUnit := { s.memUnit with sweepNext := true } }
  else if s.drmCtrlCheck v = .ok then (s.retire (v - 1) 6).settle
  else s

/-! ### The march engine (R381, R382) -/

/-- The range of a march lies in the scratchpad, in whole words. -/
def State.marchRange (s : State) : Bool :=
  let a := s.o Obj.SPM_MARCH_START
  let n := s.o Obj.SPM_MARCH_LEN
  a % 8 == 0 && n % 8 == 0 && n != 0 && decide (a + n ≤ 0x600000)

/-- SPM_MARCH_CTRL is judged at its execution. -/
def State.marchCheck (s : State) (v : Nat) : Status :=
  let run := s.o Obj.SPM_MARCH_STATE == 1
  match v with
  | 1 => if run then .functionRunning else if s.marchRange then .ok else .outOfRange
  | 2 => if run || s.o Obj.PWR_STATE != 2 then .functionRunning else if s.marchRange then .ok else .outOfRange
  | 3 => if run then .ok else .functionRunning
  | _ => .outOfRange

/-- The words that a destructive march has written are the march's own from then on (R372, R381). -/
def State.marchClears (s : State) : State :=
  let m := s.memUnit.march
  s.unsoil m.start (if m.element = 0 then min m.len (8 * m.done) else m.len)

/-- A range of the scratchpad filled with one byte. -/
def fillSpm (m : Memory) (a n : Nat) (b : Byte) : Memory :=
  if b = 0 then memZero m a n else memWrite m a (List.replicate n b)

/-- The range as a destructive march leaves it when it stops after w words of an element (R381). -/
def State.marchStopped (s : State) : Memory :=
  let m := s.memUnit.march
  let a := m.start
  let n := m.len
  let k := min n (8 * m.done)
  let zero := memZero s.spm a n
  match m.element with
  | 0 => memZero s.spm a k
  | 1 => fillSpm zero a k 0xFF
  | 2 => fillSpm zero (a + k) (n - k) 0xFF
  | 3 => fillSpm zero (a + n - k) k 0xFF
  | 4 => fillSpm zero a (n - k) 0xFF
  | _ => zero

/-- A preserving march reads each word of [a, a + n) with correction and writes back what it read: a word that is
miscorrected, missed or uncorrectable stays as it read (R381; log entry 142). -/
def State.marchRead (s : State) (a n : Nat) (u : List Upset) : State :=
  (namedIn u a n).foldl (fun t w =>
    let t := t.noteWord 6 w u
    let t : State := { t with memUnit := { t.memUnit with fix := t.memUnit.fix.filter fun f => f.addr != w } }
    { t with spm := memPutWord t.spm w 8 (memWord t.spm w 8 ^^^ wordErrBits u w) }) s

/-- The failing words that a march has found are shown. -/
def State.marchFails (s : State) (fails : List Nat) : State :=
  let s := (s.setO Obj.SPM_MARCH_FAILS fails.length).setO Obj.SPM_MARCH_FADDR (fails.headD 0)
  { s with memUnit := { s.memUnit with march := { s.memUnit.march with fails := fails } } }

/-- SPM_MARCH_CTRL takes effect at a tick. -/
def State.marchEffect (s : State) (v : Nat) : State :=
  if s.marchCheck v ≠ .ok then s
  else if v = 3 then
    let s := if s.memUnit.march.destructive then { s.marchClears with spm := s.marchStopped } else s
    s.setO Obj.SPM_MARCH_STATE 0
  else
    let m : March := { destructive := v == 2, start := s.o Obj.SPM_MARCH_START, len := s.o Obj.SPM_MARCH_LEN }
    ({ s with memUnit := { s.memUnit with march := m } }.setO Obj.SPM_MARCH_STATE 1).marchFails []

/-- MARCH_DONE: PASSED or FAILED; a destructive march leaves its range at zero. -/
def State.marchDone (s : State) (fails : List Nat) (u : List Upset) : State :=
  if s.o Obj.SPM_MARCH_STATE = 1 then
    let m := s.memUnit.march
    let s := if m.destructive then { s.unsoil m.start m.len with spm := memZero s.spm m.start m.len } else s.marchRead m.start m.len u
    (s.marchFails fails).setO Obj.SPM_MARCH_STATE (if fails.isEmpty then 2 else 3)
  else s

/-! ### The scrubber (R383, R384) -/

/-- The size of a scrub target. -/
def targetSize (t : Nat) : Nat := if t = 3 then 0x600000 else 2 ^ 25

/-- The unit of a scrub target's range. -/
def targetUnit (t : Nat) : Nat := if t = 3 then 8 else 64

/-- The pass runs or is halted. -/
def State.scrubBusy (s : State) : Bool := s.o Obj.SCB_STATE == 1 || s.o Obj.SCB_STATE == 2

/-- SCB_CTRL is judged at its execution. -/
def State.scrubCheck (s : State) (v : Nat) : Status :=
  let t := s.o Obj.SCB_TARGET
  let a := s.o Obj.SCB_START
  let n := s.o Obj.SCB_LEN
  match v with
  | 1 =>
    if s.scrubBusy then .functionRunning
    else if t ≠ 3 ∧ (s.rstate t ≤ 2 ∨ 7 ≤ s.rstate t) then .functionRunning
    else if a % targetUnit t = 0 ∧ n % targetUnit t = 0 ∧ a + n ≤ targetSize t then .ok
    else .outOfRange
  | 2 => if s.o Obj.SCB_STATE = 2 then .ok else .functionRunning
  | 3 => if s.scrubBusy then .ok else .functionRunning
  | _ => .outOfRange

/-- SCB_CTRL takes effect at a tick. -/
def State.scrubEffect (s : State) (v : Nat) : State :=
  if s.scrubCheck v ≠ .ok then s
  else match v with
    | 1 =>
      let s := ((s.setO Obj.SCB_READ 0).setO Obj.SCB_CORR 0).setO Obj.SCB_UE 0
      ((s.setO Obj.SCB_FIRST 0xFFFFFFFF).setO Obj.SCB_NEXT (s.o Obj.SCB_START)).setO Obj.SCB_STATE 1
    | 2 => s.setO Obj.SCB_STATE 1
    | _ => s.setO Obj.SCB_STATE 4

/-- The pass may read its target: the scratchpad, or a rank that its controller serves it on. A pass over a rank that has been
retired, or is held in self-refresh, waits (R152, R367, R384; log entry 143). -/
def State.scrubReads (s : State) : Bool :=
  let t := s.o Obj.SCB_TARGET
  t == 3 || (s.o Obj.CLK_STATE == 3 && (s.rstate t == 3 || s.rstate t == 4))

/-- The end of the pass's range. -/
def State.scrubEnd (s : State) : Nat := s.o Obj.SCB_START + s.o Obj.SCB_LEN

/-- The pass reads on up to an address; the uncorrectable units that it has met. -/
def State.scrubTo (s : State) (hi : Nat) (u : List Upset) : State × List Nat :=
  let lo := s.o Obj.SCB_NEXT
  let p := s.passOver (s.o Obj.SCB_TARGET) lo hi u
  let t := (p.1.bumpBy Obj.SCB_READ ((hi - lo) / 8)).bumpBy Obj.SCB_CORR p.2.corrected.length
  (t.setO Obj.SCB_NEXT hi, p.2.bad)

/-- SCRUB_HALT: the pass has read up to an uncorrectable beat or word. -/
def State.scrubHalt (s : State) (addr : Nat) (u : List Upset) : State :=
  let a := addr / 8 * 8
  if s.o Obj.SCB_STATE = 1 ∧ s.scrubReads = true ∧ s.o Obj.SCB_NEXT ≤ a ∧ a < s.scrubEnd then
    let p := s.scrubTo (a + 8) u
    if p.2 = [a] then
      let t := p.1.bump Obj.SCB_UE
      let t := if t.o Obj.SCB_FIRST = 0xFFFFFFFF then t.setO Obj.SCB_FIRST a else t
      (t.setO Obj.SCB_STATE 2).settle
    else s
  else s

/-- SCRUB_DONE: the rest of the range holds nothing uncorrectable. -/
def State.scrubDone (s : State) (u : List Upset) : State :=
  if s.o Obj.SCB_STATE = 1 ∧ s.scrubReads = true then
    let p := s.scrubTo s.scrubEnd u
    if p.2.isEmpty then ((p.1.setO Obj.SCB_STATE 3).bump Obj.SCB_PASSES).settle else s
  else s

/-- SCRUB_ABORT: the pass has read up to an address when the request is executed. -/
def State.scrubStop (s : State) (next : Nat) (u : List Upset) : State :=
  if s.o Obj.SCB_STATE = 1 ∧ s.scrubReads = true ∧ s.o Obj.SCB_NEXT ≤ next ∧ next ≤ s.scrubEnd then (s.scrubTo next u).1 else s

/-! ### The commands -/

/-- REFRESH: it goes on in a freeze with FRZ_REFRESH = 1 (R561). -/
def execRefresh (r : RankId) (temp : BitVec 16) (s : State) : Host.Outcome State Fault Refusal :=
  .next (if s.clocked && !(s.frz.frozen && s.frz.noref) then s.refresh r.num temp.toNat else s)

/-- RANK_POWER_DOWN. -/
def execRankPowerDown (r : RankId) (s : State) : Host.Outcome State Fault Refusal := .next (s.ifAwake (s.rankPowerDown r.num))

/-- RANK_VERIFY_DONE. -/
def execRankVerifyDone (r : RankId) (failing : BitVec 6) (s : State) : Host.Outcome State Fault Refusal :=
  .next (s.ifAwake (s.verifyDone r.num failing.toNat))

/-- DELAY_TRACK. -/
def execDelayTrack (r : RankId) (up down : BitVec 12) (failing : BitVec 6) (s : State) : Host.Outcome State Fault Refusal :=
  .next (s.ifAwake (s.delayTrack r.num up.toNat down.toNat failing.toNat))

/-- SPARE_CHECK. -/
def execSpareCheck (u : List Upset) (failing : BitVec 6) (temps : List (BitVec 16)) (s : State) : Host.Outcome State Fault Refusal :=
  .next (s.ifAwake (s.spareCheck u failing.toNat (temps.map BitVec.toNat)))

/-- DRM_CTRL_RETIRE (R368). -/
def execDrmCtrlRetire (q : Req) (r : RankId) (s : State) : Host.Outcome State Fault Refusal :=
  .next (s.ifRequest q (s.hostWrite q Obj.DRM_CTRL true (s.drmCtrlCheck (r.num + 1)) (s.pendLive Obj.DRM_CTRL (r.num + 1))))

/-- DRM_SWEEP_NEXT_BOOT (R363). -/
def execDrmSweepNextBoot (q : Req) (s : State) : Host.Outcome State Fault Refusal :=
  .next (s.ifRequest q (s.hostWrite q Obj.DRM_CTRL true (s.drmCtrlCheck 0x10) (s.pendLive Obj.DRM_CTRL 0x10)))

/-- MARCH_PRESERVING (R381). -/
def execMarchPreserving (q : Req) (s : State) : Host.Outcome State Fault Refusal :=
  .next (s.ifRequest q (s.hostWrite q Obj.SPM_MARCH_CTRL false (s.marchCheck 1) (s.pendLive Obj.SPM_MARCH_CTRL 1)))

/-- MARCH_DESTRUCTIVE (R381). -/
def execMarchDestructive (q : Req) (s : State) : Host.Outcome State Fault Refusal :=
  .next (s.ifRequest q (s.hostWrite q Obj.SPM_MARCH_CTRL false (s.marchCheck 2) (s.pendLive Obj.SPM_MARCH_CTRL 2)))

/-- MARCH_ABORT (R381): where the march will have stopped, with the failures found and what a preserving one has read. -/
def execMarchAbort (q : Req) (element : Fin 6) (words : BitVec 20) (fails : List (BitVec 23)) (u : List Upset) (s : State) :
    Host.Outcome State Fault Refusal :=
  let m := s.memUnit.march
  let t := if m.destructive then s else s.marchRead m.start (min m.len (8 * words.toNat)) u
  let t := t.marchFails (fails.map BitVec.toNat)
  let t := { t with memUnit := { t.memUnit with march := { t.memUnit.march with element := element, done := words.toNat } } }
  .next (s.ifRequest q (s.hostWrite q Obj.SPM_MARCH_CTRL false (s.marchCheck 3) (t.pendLive Obj.SPM_MARCH_CTRL 3)))

/-- MARCH_DONE: the failing words in the order found. -/
def execMarchDone (fails : List (BitVec 23)) (u : List Upset) (s : State) : Host.Outcome State Fault Refusal :=
  .next (s.ifAwake (s.marchDone (fails.map BitVec.toNat) u))

/-- SCRUB_START (R383). -/
def execScrubStart (q : Req) (s : State) : Host.Outcome State Fault Refusal :=
  .next (s.ifRequest q (s.hostWrite q Obj.SCB_CTRL false (s.scrubCheck 1) (s.pendLive Obj.SCB_CTRL 1)))

/-- SCRUB_RESUME (R384). -/
def execScrubResume (q : Req) (s : State) : Host.Outcome State Fault Refusal :=
  .next (s.ifRequest q (s.hostWrite q Obj.SCB_CTRL false (s.scrubCheck 2) (s.pendLive Obj.SCB_CTRL 2)))

/-- SCRUB_ABORT (R384). -/
def execScrubAbort (q : Req) (next : BitVec 26) (u : List Upset) (s : State) : Host.Outcome State Fault Refusal :=
  .next (s.ifRequest q (s.hostWrite q Obj.SCB_CTRL false (s.scrubCheck 3) ((s.scrubStop next.toNat u).pendLive Obj.SCB_CTRL 3)))

/-- SCRUB_HALT. -/
def execScrubHalt (address : BitVec 26) (u : List Upset) (s : State) : Host.Outcome State Fault Refusal :=
  .next (s.ifAwake (s.scrubHalt address.toNat u))

/-- SCRUB_DONE. -/
def execScrubDone (u : List Upset) (s : State) : Host.Outcome State Fault Refusal := .next (s.ifAwake (s.scrubDone u))

/-- An uncorrectable word of the firmware RAM, with the bits in error: it stays as it is until the next load (R386, R550); agent 4
is the supervisor. -/
def State.fwBad (s : State) (a err : Nat) : State :=
  let s : State := { s with memUnit := { s.memUnit with fwRam := memPutWord s.memUnit.fwRam (a / 8 * 8) 8 err } }
  ((s.bump Obj.SPM_FW_UE).stage 0x0305 0 4 (bytesLE 1 1 ++ bytesLE 4 a)).ariseOnce 6

/-- FW_RAM_PATROL: words corrected and written back, which hold their content again, and uncorrectable ones (R386). -/
def execFwRamPatrol (corr : BitVec 16) (ue : List (BitVec 18 × BitVec 64)) (s : State) : Host.Outcome State Fault Refusal :=
  .next (s.ifAwake (ue.foldl (fun t e => t.fwBad e.1.toNat e.2.toNat) (s.bumpBy Obj.SPM_FW_CORR corr.toNat)))

end Sys2Proof.Machine
end

