-- ==== Sys2Proof/Machine/RateMeter.lean ====
section
/-! DEFINITION. Rate-meter gates (R112 to R116, R268). -/
namespace Sys2Proof.Machine

/-- TDC_RM_CTRL is judged at its execution (R116). -/
def State.rmCtrlCheck (s : State) (v : Nat) : Status :=
  match v with
  | 1 => .ok
  | 2 => if s.o Obj.TDC_RM_STATE = 1 then .ok else .functionRunning
  | _ => .outOfRange

/-- Every prescaler and counter cleared. -/
def State.rmClear (s : State) : State := s.mapChans fun _ x => { x with rmRem := 0, rmCnt := 0 }

/-- TDC_RM_CTRL takes effect at a tick: START begins a gate there, STOP abandons the gate (R114, R116). At the very tick that
ends a gate either abandons that gate, which is not latched first (DESIGN CHOICE, log entry 167). -/
def State.rmCtrlEffect (s : State) (v : Nat) : State :=
  match v with
  | 1 => { (s.rmClear.setO Obj.TDC_RM_SEQ 0).setO Obj.TDC_RM_STATE 1 with rmGate := s.tick }
  | 2 => s.setO Obj.TDC_RM_STATE 0
  | _ => s

/-- A READ_BLOCK of CMP_RATEHIST is in progress (R268, R468). -/
def State.rateReading (s : State) : Bool := s.cufel.transfers.any fun t => !t.write && objKey t.index t.sub == Obj.CMP_RATEHIST

/-- The copy that CMP_RATEHIST shows becomes the rates of a gate. -/
def State.rateCopy (s : State) (rates : List Nat) (seq : Nat) : State :=
  { s.setO Obj.CMP_RATEHIST_SEQ seq with rateHist := rates, cmp := { s.cmp with ratePend := none } }

/-- The rates of a gate that ended during a read replace the copy when the transfer has ended (R268). -/
def State.rateSettle (s : State) : State :=
  match s.cmp.ratePend with
  | some (r, n) => if s.rateReading then s else s.rateCopy r n
  | none => s

/-- RM_GATE_END: at the tick that ends a gate the counts latch, the counters clear (the prescalers keep their
remainders), and the rates are copied for the rate histogram unless that is being read (R113, R114, R268). -/
def State.rmGateEnd (s : State) : State :=
  if s.o Obj.TDC_RM_STATE = 1 ∧ s.rmGate + s.o Obj.TDC_RM_GATE ≤ s.tick then
    let rates := allCh.map fun c => (s.chan c).rmCnt
    let s := allCh.foldl (fun t c => t.setO (Obj.CH_RATE c) (t.chan c).rmCnt) s
    let s := s.mapChans fun _ x => { x with rmCnt := 0 }
    let s := (s.wrapBy 32 Obj.TDC_RM_SEQ 1).setO Obj.TDC_RM_LASTX s.xc
    let s := { s with rmGate := s.rmGate + s.o Obj.TDC_RM_GATE }
    if s.rateReading then { s with cmp := { s.cmp with ratePend := some (rates, s.o Obj.TDC_RM_SEQ) } }
    else s.rateCopy rates (s.o Obj.TDC_RM_SEQ)
  else s

/-- A CKIN failure abandons the gate (R115). -/
def State.rmHold (s : State) : State := s.setO Obj.TDC_RM_STATE 0

/-- TDC_RM_START. -/
def execTdcRmStart (q : Req) (s : State) : Host.Outcome State Fault Refusal :=
  .next (s.ifRequest q (s.hostWrite q Obj.TDC_RM_CTRL false (s.rmCtrlCheck 1) (s.pendLive Obj.TDC_RM_CTRL 1)))

/-- TDC_RM_STOP. -/
def execTdcRmStop (q : Req) (s : State) : Host.Outcome State Fault Refusal :=
  .next (s.ifRequest q (s.hostWrite q Obj.TDC_RM_CTRL false (s.rmCtrlCheck 2) (s.pendLive Obj.TDC_RM_CTRL 2)))

/-- RM_GATE_END. -/
def execRmGateEnd (s : State) : Host.Outcome State Fault Refusal := .next (s.ifAwake s.rmGateEnd)

end Sys2Proof.Machine
end

