-- ==== Sys2Proof/Machine/Life.lean ====
section
/-! DEFINITION. The lifetime log in the NVM (R500, R506, R558). -/
namespace Sys2Proof.Machine

/-! ### Records (R553, R558) -/

/-- NVM address of a lifetime slot (R499, R500). -/
def lifeAddr (n : Nat) : Nat := 0x14000 + 32 * (n % 512)

/-- LIFE of a lifetime record: HOURS, STA and STB (R558). -/
def State.life (s : State) : Nat :=
  s.o Obj.FLT_LIFE_HOURS % 2 ^ 24 * 2 ^ 40 + s.o Obj.NV_STORES_A % 2 ^ 20 * 2 ^ 20 + s.o Obj.NV_STORES_B % 2 ^ 20

/-- A 32-byte record: an event log entry, or with FOLD and NT as R558 uses them a lifetime record. -/
def logRecord (code cls unit lseq xc nt fold : Nat) (data : List Byte) : List Byte :=
  data.take 10 ++ List.replicate (10 - data.length) 0
    ++ bytesLE 22 (code * 2 ^ 160 + cls * 2 ^ 152 + unit % 256 * 2 ^ 144 + lseq * 2 ^ 128 + xc * 2 ^ 80 + nt * 2 ^ 16 + fold)

/-- The words of a record in the order of their writing: its last word is cleared first and written last, so that a slot whose
write was cut off holds no record (R500; DESIGN CHOICE, log entry 127). -/
def lifeWords (a : Nat) (r : List Byte) : List (Nat × Nat × Nat) := (a + 24, 8, 0) :: wordsAt a r

/-- A lifetime record is written in the next slot. -/
def State.lifeWrite (s : State) (code cls unit lseq xc : Nat) (data : List Byte) : State :=
  let n := s.o Obj.FLT_LIFE_NEXT
  let r := logRecord code cls unit lseq xc s.life (s.o Obj.NV_REFRESHES % 2 ^ 16) data
  let s := s.nvWrite (lifeWords (lifeAddr n) r)
  (s.setO Obj.FLT_LIFE_NEXT ((n + 1) % 512)).bump Obj.FLT_LIFE_WRITES

/-- A lifetime record of a code that the event log does not take; its LSEQ is not stated (log entry 3). -/
def State.lifeOnly (s : State) (code unit : Nat) (data : List Byte) : State :=
  s.drawn.lifeWrite code 1 unit (s.open % 2 ^ 16) s.xc data

/-! ### Boot (R500, R558) -/

/-- One record of the ring, as a number. -/
def lifeSlot (m : Memory) (n : Nat) : Nat := memWord m (lifeAddr n) 32

/-- The record's last word has been written. -/
def lifeWhole (r : Nat) : Bool := bits r 255 192 != 0

/-- (HOURS, STA + STB + REFR) as one number in their order. -/
def lifeTuple (r : Nat) : Nat := bits r 159 136 * 2 ^ 24 + (bits r 135 116 + bits r 115 96 + bits r 95 80)

/-- The newest record's slot: the greatest tuple, in a run of equal ones the last slot. -/
def lifeNewest (m : Memory) : Option Nat :=
  let l := (List.range 512).filter fun n => lifeWhole (lifeSlot m n)
  let top := (l.map fun n => lifeTuple (lifeSlot m n)).foldl max 0
  let same (n : Nat) : Bool := lifeWhole (lifeSlot m n) && lifeTuple (lifeSlot m n) == top
  match l.find? fun n => same n && !same ((n + 1) % 512) with
  | some n => some n
  | none => if l.isEmpty then none else some 511

/-- Powered hours and the store counts continue from the newest record. -/
def State.lifeScan (s : State) : State :=
  let bad := ((List.range 512).filter fun n => lifeSlot s.nvm n != 0 && !lifeWhole (lifeSlot s.nvm n)).length
  let s := s.setO Obj.FLT_LIFE_BAD bad
  match lifeNewest s.nvm with
  | some n =>
    let r := lifeSlot s.nvm n
    let s : State := { s with nv := { s.nv with hours := bits r 159 136 } }
    let s := (s.setO Obj.FLT_LIFE_HOURS (bits r 159 136)).setO Obj.NV_STORES_A (bits r 135 116)
    ((s.setO Obj.NV_STORES_B (bits r 115 96)).setO Obj.NV_REFRESHES (bits r 95 80)).setO Obj.FLT_LIFE_NEXT ((n + 1) % 512)
  | none => s

/-- Powered hours are counted hour by hour, in seconds of the nominal crossing clock (R558; log entry 8). -/
def State.hourTick (s : State) : State :=
  if s.nv.seconds + 1 < 3600 then { s with nv := { s.nv with seconds := s.nv.seconds + 1 } }
  else { s.bump Obj.FLT_LIFE_HOURS with nv := { s.nv with seconds := 0 } }

/-- LIFETIME_HOURS: 24 powered hours have passed since the newest HOURS record, and the count has reached them by now (R558; log
entry 84). -/
def State.lifeHours (s : State) : State :=
  let n := max (s.o Obj.FLT_LIFE_HOURS) (satAdd 32 s.nv.hours 24)
  let s : State := { s.setO Obj.FLT_LIFE_HOURS n with nv := { s.nv with hours := n } }
  s.lifeOnly 0x0207 0 (bytesLE 4 (s.o Obj.FLT_LIFE_HOURS))

/-- LIFETIME_HOURS. -/
def execLifetimeHours (s : State) : Host.Outcome State Fault Refusal := .next (s.ifAwake s.lifeHours)

end Sys2Proof.Machine
end

