-- ==== Sys2Proof/Machine/NetTime.lean ====
section
/-! DEFINITION. Network time: advance, TIME messages, the servo, masters, holdover, alarms' state and time captures (R415 to
R422), and what the device puts out on its links. -/
namespace Sys2Proof.Machine

/-! ### Output and forwarding (R216) -/

/-- Something the device puts out. -/
def State.emit (s : State) (x : Sent) : State := { s with out := s.out ++ [x] }

/-- A control message put out on a link. -/
def State.emitBlock (s : State) (l : LinkId) (btype : Nat) (parts : List Nat) : State := s.emit (.block l btype parts)

/-- The ports of a hub that are in UP (R214). -/
def State.portsUp (s : State) : List Nat :=
  if s.isHub then (List.range 8).filter fun k => s.o (Obj.HUB_PSTATE k) == 3 else []

/-- A control message forwarded on every port in UP that fulfils p (R216). -/
def State.forward (s : State) (p : Nat → Bool) (btype : Nat) (parts : List Nat) : State :=
  (s.portsUp.filter p).foldl (fun s k => s.emitBlock (.south (portFin k)) btype parts) s

/-! ### Time capture (R422) -/

/-- A time capture of the crossing in progress. -/
def State.capture (s : State) (src : Nat) : State :=
  let l := s.capts ++ [{ src := src, xc := s.xc, nt := s.ntNs }]
  { s.wrapBy 32 Obj.NT_CAPT_CNT 1 with capts := l.drop (l.length - 16) }

/-- The 16 bytes of a capture entry (R422). -/
def Capture.bytes (c : Capture) : List Byte := bytesLE 16 (c.src * 2 ^ 120 + c.xc * 2 ^ 72 + c.nt % 2 ^ 64 * 2 ^ 8)

/-! ### Advance and step (R415, R417, R420) -/

/-- NT moved by a signed amount of 2^-32 ns, modulo its 96 bits. -/
def State.moveNt (s : State) (d : Int) : State := { s with nt := ofSigned 96 ((s.nt : Int) + d) }

/-- NT_RATE as a signed value. -/
def State.ntRate (s : State) : Int := toSigned 32 (s.o Obj.NT_RATE)

/-- The slew of one tick (R417). -/
def State.corr (s : State) : Int :=
  let lim : Int := (s.o Obj.NT_SLEW * s.o Obj.NT_INCR / 1000000000 : Nat)
  max (-lim) (min lim s.time.slew)

/-- The advance at a tick (R415), the tick's entry in the log of the last 1,024 ticks (R416). -/
def State.ntAdvance (s : State) : State :=
  let inc : Int := s.o Obj.NT_INCR
  let c := s.corr
  let s := s.moveNt (inc + inc * s.ntRate / 2 ^ 32 + c)
  { s with time := { s.time with slew := s.time.slew - c, log := (s.nt :: s.time.log).take 1024 } }

/-- A step: counted, captured and logged; it ends the slew, and the log's entry of the tick in progress moves with it (R416,
R417, R420, R556). -/
def State.ntStep (s : State) (d : Int) : State :=
  let was := s.nt
  let s := (s.moveNt d).bump Obj.NT_STEPS
  let log := match s.time.log with | _ :: r => s.nt :: r | [] => []
  let s := { s with time := { s.time with slew := 0, step := some (s.tick, was), log := log } }
  (s.capture 5).stage 0x0105 1 0 (bytesLE 8 (ofSigned 64 (d / 2 ^ 32)))

/-- NT_SET takes effect at a tick (R420). -/
def State.ntSetEffect (s : State) (ns : Nat) : State := s.ntStep ((ns * 2 ^ 32 : Nat) - (s.nt : Int))

/-! ### TIME messages (R416, R418) -/

/-- Own time at XTICK, when XTICK lies within the last 1,024 crossings. -/
def State.ownTime (s : State) (x : Nat) : Option Nat :=
  s.time.log[(s.xc + 2 ^ 48 - x % 2 ^ 48) % 2 ^ 48]?

/-- A message is accepted (R416): it waits for the next tick; the first one after a thaw steps (R570). -/
def State.timeAccept (s : State) (m : TimeMsg) (tseq : Nat) : State :=
  let s := s.bump Obj.NT_MSGS
  let m := { m with step := m.step || s.time.stepNext }
  let seqs := (m.master, tseq) :: s.time.seqs.filter fun e => e.1 != m.master
  { s with time := { s.time with waiting := s.time.waiting ++ [m], seqs := seqs, accepted := some s.tick, stepNext := false } }

/-- A change of master: captured, counted and logged (R418, R556). -/
def State.masterChange (s : State) (m : Nat) : State :=
  let old := s.o Obj.NT_MASTER
  let s := (s.setO Obj.NT_MASTER m).bump Obj.NT_MCHANGES
  let s := { s with time := { s.time with cand := [], changed := some s.tick } }
  (s.capture 6).stage 0x0106 1 0 (bytesLE 2 old ++ bytesLE 2 m)

/-- No change is accepted for 1 s after a change (R418). -/
def State.masterHeld (s : State) : Bool :=
  match s.time.changed with
  | some t => !s.ticksCover (s.tick - t) 1000000
  | none => false

/-- The candidate's message before this one makes it the second of a consistent pair (R418). -/
def State.secondOf (s : State) (m : TimeMsg) (tseq : Nat) : Bool :=
  let e : Int := (m.time : Int) - m.own
  let lim : Int := s.o Obj.NT_STEP_LIMIT * 2 ^ 32
  s.time.cand.any fun c => c.1 == m.master && tseq == (c.2.1 + 1) % 256 && decide (e - c.2.2 ≤ lim) && decide (c.2.2 - e ≤ lim)

/-- A message from a master other than the current one that passes the other tests (R418): the second message of a
consistent pair makes its master the current one; any other is foreign, fails R416, and becomes its master's first. -/
def State.timeForeign (s : State) (m : TimeMsg) (tseq : Nat) : State :=
  if s.masterHeld then (s.bump Obj.NT_FOREIGN).bump Obj.NT_REJECT
  else if s.secondOf m tseq then (s.masterChange m.master).timeAccept m tseq
  else
    let e : Int := (m.time : Int) - m.own
    let cand := (m.master, tseq, e) :: s.time.cand.filter fun c => c.1 != m.master
    { (s.bump Obj.NT_FOREIGN).bump Obj.NT_REJECT with time := { s.time with cand := cand } }

/-- The master is the current one (R418). -/
def State.ownMaster (s : State) (m : Nat) : Bool := m == s.o Obj.NT_MASTER && m != 0xFFFF

/-- A message that fails a test other than the master's is rejected; of another master it is foreign too (R416, R418). -/
def State.timeReject (s : State) (m : Nat) : State :=
  (if s.ownMaster m then s else s.bump Obj.NT_FOREIGN).bump Obj.NT_REJECT

/-- TIME_RECEIVE (R338, R416, R418); a hub forwards it to its SLF128 leaves (R216, R343). -/
def State.timeReceive (s : State) (w : Nat) : State :=
  if s.o Obj.RG_LSTATE ≠ 3 then s
  else
    let s := s.forward (fun k => s.o (Obj.HUB_PKIND k) == 1) 0x66 [bits w 167 112, bits w 111 56, bits w 55 0]
    let master := bits w 167 152
    let tseq := bits w 151 144
    let fresh := s.time.seqs.all fun e => e != (master, tseq)
    match s.ownTime (bits w 135 88) with
    | some own =>
      if bit w 143 && s.o Obj.XC_STATE == 1 && fresh then
        let m : TimeMsg :=
          { master := master, step := bit w 142, time := bits w 87 24 * 2 ^ 32 + bits w 23 0 * 2 ^ 8, own := own, tick := s.tick }
        if s.ownMaster master then s.timeAccept m tseq else s.timeForeign m tseq
      else s.timeReject master
    | none => s.timeReject master

/-! ### The servo (R417, R419) -/

/-- The rate's limit of 500 ppm in units of 2^-32. -/
def rateMax : Int := 2147483

/-- The rate after a message with error e, dt after the previous one (R417); with dt zero the spec gives no quotient. -/
def State.servoRate (s : State) (e dt : Int) : Int :=
  let step : Int := if dt = 0 then toSigned 32 s.open else e * 2 ^ 32 / dt
  max (-rateMax) (min rateMax (s.ntRate + step / 2 ^ s.o Obj.NT_GAIN))

/-- The previous accepted message is of the same master and within holdover (R417). -/
def State.prevTime (s : State) (m : TimeMsg) : Option Nat :=
  match s.time.prev with
  | some (p, t) => if p = m.master ∧ s.o Obj.NT_STATE = 1 then some t else none
  | none => none

/-- One accepted message acts (R417). -/
def State.servo (s : State) (m : TimeMsg) : State :=
  let e : Int := (m.time : Int) - m.own
  let s := s.setO Obj.NT_LAST_ERR (ofSigned 32 (clipSigned 32 (e / 2 ^ 32)))
  let lim : Int := s.o Obj.NT_STEP_LIMIT * 2 ^ 32
  let s : State :=
    if m.step || s.o Obj.NT_STATE == 0 || decide (e > lim) || decide (-e > lim) then s.ntStep e
    else
      let s : State := match s.prevTime m with
        | some t =>
          let dt : Int := (m.time : Int) - t
          let r := s.servoRate e dt
          let s := if dt = 0 then s.drawn else s
          s.setO Obj.NT_RATE (ofSigned 32 r)
        | none => s
      { s with time := { s.time with slew := e } }
  let s := { s with time := { s.time with prev := some (m.master, m.time) } }
  let s := if s.o Obj.NT_STATE = 2 then s.capture 8 else s
  s.setO Obj.NT_STATE 1

/-- NT_SERVO_UPDATE: the oldest accepted message acts, from the tick after its acceptance on. -/
def State.servoUpdate (s : State) : State :=
  match s.time.waiting with
  | m :: r => if m.tick < s.tick then ({ s with time := { s.time with waiting := r } }).servo m else s
  | [] => s

/-- Every message accepted before the tick in progress acts. -/
def State.servoAll (s : State) : State := s.time.waiting.foldl (fun s _ => s.servoUpdate) s

/-- Entry into HOLDOVER (R419): captured; the rate stays and a pending slew is completed. -/
def State.ntHoldover (s : State) : State :=
  if s.o Obj.NT_STATE = 1 then (s.setO Obj.NT_STATE 2).capture 7 else s

/-- NT_HOLDOVER_EXPIRE: NT_HOLDOVER has passed without an accepted message (R419). -/
def State.holdoverExpire (s : State) : State :=
  match s.time.accepted with
  | some t => if s.ticksCover (s.tick - t) (1000 * s.o Obj.NT_HOLDOVER) then s.ntHoldover else s
  | none => s.ntHoldover

/-! ### Alarms (R421, R427) -/

/-- NT_AL_CTRL is judged at its execution (R427). -/
def alarmCtrlCheck (v : Nat) : Status := if v = 1 ∨ v = 2 then .ok else .outOfRange

/-- NT_AL_TIME, NT_AL_PERIOD and NT_AL_ACTION of an armed alarm are refused; every other object passes (R421). -/
def State.alarmSettingCheck (s : State) (k : Nat) : Status :=
  let i := k / 256 - 0x5480
  if 0x5480 ≤ k / 256 ∧ i < 8 ∧ 1 ≤ k % 256 ∧ k % 256 ≤ 3 ∧ s.o (Obj.NT_AL_STATE i) = 1 then .functionRunning else .ok

/-- NT_AL_CTRL takes effect: ARM, DISARM (R427). -/
def State.alarmCtrlEffect (s : State) (k v : Nat) : State :=
  match v with
  | 1 => s.setO (Obj.NT_AL_STATE k) 1
  | 2 => s.setO (Obj.NT_AL_STATE k) 0
  | _ => s

/-- Alarm k is armed and its time has come. -/
def State.alarmDue (s : State) (k : Nat) : Bool :=
  s.o (Obj.NT_AL_STATE k) == 1 && decide (s.o (Obj.NT_AL_TIME k) ≤ s.ntNs)

/-- The firing is late: a step at this tick or a run of INTOSC ticks passed the alarm (R421). -/
def State.alarmLate (s : State) (k : Nat) : Bool :=
  (s.o Obj.CLK_STATE == 1 || s.o Obj.CLK_STATE == 4) ||
    match s.time.step with
    | some (t, was) => t == s.tick && decide (was / 2 ^ 32 < s.o (Obj.NT_AL_TIME k))
    | none => false

/-- The alarm's own record of a firing, and its disarming or next time (R421). -/
def State.alarmAdvance (s : State) (k : Nat) : State :=
  let s := if s.alarmLate k then s.bump (Obj.NT_AL_LATE k) else s
  let s := (s.bump (Obj.NT_AL_FIRED k)).setO (Obj.NT_AL_LASTX k) s.xc
  let p := s.o (Obj.NT_AL_PERIOD k)
  if p = 0 then s.setO (Obj.NT_AL_STATE k) 0
  else
    let n := (s.ntNs - s.o (Obj.NT_AL_TIME k)) / p + 1
    (s.setO (Obj.NT_AL_TIME k) ((s.o (Obj.NT_AL_TIME k) + n * p) % 2 ^ 64)).bumpBy (Obj.NT_AL_LATE k) (n - 1)

/-! ### The commands -/

/-- TIME_RECEIVE. -/
def execTimeReceive (w : BitVec 168) (s : State) : Host.Outcome State Fault Refusal := .next (s.ifAwake (s.timeReceive w.toNat))

/-- NT_SERVO_UPDATE. -/
def execNtServoUpdate (s : State) : Host.Outcome State Fault Refusal := .next (s.ifAwake s.servoUpdate)

/-- NT_HOLDOVER_EXPIRE. -/
def execNtHoldoverExpire (s : State) : Host.Outcome State Fault Refusal := .next (s.ifAwake s.holdoverExpire)

/-- NT_SET_WRITE (R420). -/
def execNtSetWrite (q : Req) (ns : BitVec 64) (s : State) : Host.Outcome State Fault Refusal :=
  .next (s.ifRequest q (s.hostWrite q Obj.NT_SET true .ok (s.pendLive Obj.NT_SET ns.toNat)))

/-- NT_AL_ARM (R427). -/
def execNtAlArm (q : Req) (k : Fin 8) (s : State) : Host.Outcome State Fault Refusal :=
  .next (s.ifRequest q (s.hostWrite q (Obj.NT_AL_CTRL k) false (alarmCtrlCheck 1) (s.pendLive (Obj.NT_AL_CTRL k) 1)))

/-- NT_AL_DISARM (R427). -/
def execNtAlDisarm (q : Req) (k : Fin 8) (s : State) : Host.Outcome State Fault Refusal :=
  .next (s.ifRequest q (s.hostWrite q (Obj.NT_AL_CTRL k) false (alarmCtrlCheck 2) (s.pendLive (Obj.NT_AL_CTRL k) 2)))

end Sys2Proof.Machine
end

