-- ==== Sys2Proof/Machine/Probe.lean ====
section
/-! DEFINITION. The probe digitiser: trigger, capture states and capture memory (R70 to R81, R85). -/
namespace Sys2Proof.Machine

/-- The capture function counts as running: PRB_STATE 1 to 4 (R80, R85). -/
def State.prbRunning (s : State) : Bool := decide (1 ≤ s.o Obj.PRB_STATE) && decide (s.o Obj.PRB_STATE ≤ 4)

/-- PRB_CTRL is judged at its execution: ARM only in IDLE and READY, ABORT always, other codes refused (R79, R80). -/
def State.prbCtrlCheck (s : State) (v : Nat) : Status :=
  match v with
  | 1 => if s.prbRunning then .functionRunning else .ok
  | 2 => .ok
  | _ => .outOfRange

/-- PRB_CTRL takes effect: ARM discards any capture and starts FILL; ABORT returns to IDLE (R79, R80). -/
def State.prbCtrlEffect (s : State) (v : Nat) : State :=
  match v with
  | 1 => if s.prbRunning then s else { s.setO Obj.PRB_STATE 1 with probe := {} }
  | 2 => { s.setO Obj.PRB_STATE 0 with probe := {} }
  | _ => s

/-- The trigger: its position is recorded and POST begins (R76, R79). -/
def State.prbTriggerAt (s : State) (x pos : Nat) : State :=
  ((s.setO Obj.PRB_TCROSS x).setO Obj.PRB_TPOS pos).setO Obj.PRB_STATE 3

/-- Crossing and number of the sample n before sample k of the crossing in progress (R71, R76). A crossing before it is named
under the numbering now in force, also right after a RESYNC (DESIGN CHOICE, log entry 131). -/
def State.sampleBack (s : State) (k n : Nat) : Nat × Nat :=
  ((s.xc + 2 ^ 48 - (n + 31 - k) / 32) % 2 ^ 48, (k + 32 * n - n) % 32)

/-- The fraction of R76 in 1/64 sample: L - s[k-1] and s[k] - s[k-1] have one sign in either slope. -/
def prbFrac (level prev cur : Nat) : Nat :=
  clip 63 (64 * ((level : Int) - prev).natAbs / ((cur : Int) - prev).natAbs)

/-! ### The comparator of LEVEL mode (R74) -/

/-- Where a sample puts the comparator: High, Low, or inside the band, where it keeps its state. -/
def prbRegion (slope : Bool) (level hyst v : Nat) : Option Disc :=
  if slope then (if level + hyst < v then some .high else if v ≤ level then some .low else none)
  else (if level ≤ v then some .high else if v + hyst < level then some .low else none)

/-- The comparator after a sample, and whether the change is an edge; the first sample sets it by the rule of R55. -/
def prbStep (slope : Bool) (level hyst : Nat) (c : Disc) (v : Nat) : Disc × Bool :=
  let far : Disc := if slope then .high else .low
  match prbRegion slope level hyst v with
  | some d => (d, decide (c = far) && decide (d ≠ far))
  | none => (if c = .off then .unknown else c, false)

/-- The comparator follows samples, the newest kept. -/
def prbFollow (slope : Bool) (level hyst : Nat) : Disc → Nat → List Nat → Disc × Nat
  | c, last, [] => (c, last)
  | c, _, v :: r => prbFollow slope level hyst (prbStep slope level hyst c v).1 v r

/-- The comparator follows samples up to the first edge: the sample before the edge, the edge's sample, and how many
samples are left after it. -/
def prbSeek (slope : Bool) (level hyst : Nat) : Disc → Nat → List Nat → Option (Nat × Nat × Nat)
  | _, _, [] => none
  | c, last, v :: r =>
    let x := prbStep slope level hyst c v
    if x.2 then some (last, v, r.length) else prbSeek slope level hyst x.1 v r

/-- The comparator has followed a stretch of the stream. -/
def State.prbTrack (s : State) (samples : List Nat) : State :=
  let x := prbFollow (s.flag Obj.PRB_SLOPE) (s.o Obj.PRB_LEVEL) (s.o Obj.PRB_HYST) s.probe.comp s.probe.last samples
  { s with probe := { s.probe with comp := x.1, last := x.2 } }

/-- A fire whose instant lies after the fill's completing sample, number k of the crossing in progress, triggers; a capture
that no fire triggers waits (R75, R76). -/
def State.prbFilled (s : State) (k : Nat) : State :=
  match s.probe.fire with
  | some (t, x, p) => if t = s.tick ∧ 128 * k < p then s.prbTriggerAt x (p / 2) else s.setO Obj.PRB_STATE 2
  | none => s.setO Obj.PRB_STATE 2

/-- PRB_FILL_DONE: the PRB_PRE samples since ARM lie in memory and the comparator has followed them; FORCED triggers at the
completing sample, number k of the crossing in progress, TPULSE at a fire after it, and LEVEL waits (R75, R76, R79). -/
def State.prbFillDone (s : State) (k : Nat) (samples : List Nat) : State :=
  if s.o Obj.PRB_STATE = 1 ∧ samples.length = s.o Obj.PRB_PRE then
    let s := s.prbTrack samples
    match s.o Obj.PRB_MODE with
    | 2 => s.prbTriggerAt (s.sampleBack k 1).1 ((s.sampleBack k 1).2 * 64)
    | 1 => s.prbFilled k
    | _ => s.setO Obj.PRB_STATE 2
  else s

/-- PRB_TRIGGER: in LEVEL mode the comparator follows the stream that has come since, up to sample k of the crossing in
progress; the first edge triggers a waiting capture, and a stretch without one leaves it waiting (R74 to R76, R81). -/
def State.prbTrigger (s : State) (k : Nat) (samples : List Nat) : State :=
  if s.o Obj.PRB_STATE = 2 ∧ s.o Obj.PRB_MODE = 0 then
    match prbSeek (s.flag Obj.PRB_SLOPE) (s.o Obj.PRB_LEVEL) (s.o Obj.PRB_HYST) s.probe.comp s.probe.last samples with
    | some (prev, cur, left) =>
      let j := s.sampleBack k (left + 1)
      (s.prbTrack samples).prbTriggerAt j.1 (j.2 * 64 + prbFrac (s.o Obj.PRB_LEVEL) prev cur)
    | none => s.prbTrack samples
  else s

/-- A test-pulse fire triggers a capture that waits in TPULSE mode, by the number of the crossing that its tick starts; during the
fill it is kept for the fill's end, which may come before its instant (R66, R75, R76). -/
def State.prbOnFire (s : State) (phase : Nat) : State :=
  if s.o Obj.PRB_MODE = 1 then
    match s.o Obj.PRB_STATE with
    | 2 => s.prbTriggerAt s.tickNumber (phase / 2)
    | 1 => { s with probe := { s.probe with fire := some (s.tick, s.tickNumber, phase) } }
    | _ => s
  else s

/-- The 16-bit words of PRB_DATA (R77): CODE, with TRIG in the word of the trigger sample. -/
def prbWords (pre : Nat) (samples : List Nat) : List Nat :=
  samples.mapIdx fun i c => c % 1024 + (if i = pre then 2 ^ 15 else 0)

/-- PRB_POST_DONE: the capture is complete, its 8,192 samples given oldest first, and the copy starts (R72, R79). -/
def State.prbPostDone (s : State) (samples : List Nat) : State :=
  if s.o Obj.PRB_STATE = 3 then { s.setO Obj.PRB_STATE 4 with probe := { s.probe with samples := samples.take 8192 } } else s

/-- PRB_COPY_DONE: the capture lies in the scratchpad at 0x5A8000 and is readable (R76, R77, R79). -/
def State.prbCopyDone (s : State) : State :=
  if s.o Obj.PRB_STATE = 4 then
    let w := prbWords (s.o Obj.PRB_PRE) s.probe.samples
    let s := (s.setO Obj.PRB_STATE 5).bump Obj.PRB_CAPTURES
    { s with spm := memWrite s.spm 0x5A8000 (w.flatMap (bytesLE 2)) }
  else s

/-- A CKIN failure returns states 1 to 4 to IDLE; a READY capture survives (R79, R80). -/
def State.prbHold (s : State) : State := if s.prbRunning then s.setO Obj.PRB_STATE 0 else s

/-- PRB_ARM (R79, R80). -/
def execPrbArm (q : Req) (s : State) : Host.Outcome State Fault Refusal :=
  .next (s.ifRequest q (s.hostWrite q Obj.PRB_CTRL false (s.prbCtrlCheck 1) (s.pendLive Obj.PRB_CTRL 1)))

/-- PRB_ABORT (R80). -/
def execPrbAbort (q : Req) (s : State) : Host.Outcome State Fault Refusal :=
  .next (s.ifRequest q (s.hostWrite q Obj.PRB_CTRL false (s.prbCtrlCheck 2) (s.pendLive Obj.PRB_CTRL 2)))

/-- PRB_FILL_DONE. -/
def execPrbFillDone (k : Fin 32) (samples : List (Fin 1024)) (s : State) : Host.Outcome State Fault Refusal :=
  .next (s.ifAwake (s.prbFillDone k (samples.map Fin.val)))

/-- PRB_TRIGGER. -/
def execPrbTrigger (k : Fin 32) (samples : List (Fin 1024)) (s : State) : Host.Outcome State Fault Refusal :=
  .next (s.ifAwake (s.prbTrigger k (samples.map Fin.val)))

/-- PRB_POST_DONE. -/
def execPrbPostDone (samples : List (Fin 1024)) (s : State) : Host.Outcome State Fault Refusal :=
  .next (s.ifAwake (s.prbPostDone (samples.map Fin.val)))

/-- PRB_COPY_DONE: the supervisor's copy (R40, R79). -/
def execPrbCopyDone (s : State) : Host.Outcome State Fault Refusal := .next (s.ifTask s.prbCopyDone)

end Sys2Proof.Machine
end

