-- ==== Sys2Proof/Machine/Commands.lean ====
section
/-! DEFINITION. Crossing-synchronous commands: the scheduler (R335, R336), test-pulse fires (R64 to R68), turn checks (R410)
and RESYNC in both forms (R411, R412, R414). -/
namespace Sys2Proof.Machine

/-! ### Receipt (R336, R411) -/

/-- (TGT - t) modulo 2^48. -/
def State.lead (s : State) (tgt : Nat) : Nat := (tgt + 2 ^ 48 - s.xc) % 2 ^ 48

/-- A command is early enough to be scheduled. -/
def State.inLead (s : State) (tgt : Nat) : Bool := decide (2 ≤ s.lead tgt) && decide (s.lead tgt < 2 ^ 23)

/-- A command takes its place in the scheduler, or is refused by a full one. -/
def State.schedule (s : State) (code tgt n0 : Nat) : State :=
  if s.sched.length ≥ 64 then s.bump Obj.RG_CMD_FULL
  else { s with sched := s.sched ++ [{ code := code, tick := s.tick + s.lead tgt, tgt := tgt, n0 := n0 }] }

/-- A TPULSE or TURN received (R336); a hub forwards it, late or not. -/
def State.cmdReceive (s : State) (code tgt : Nat) : State :=
  if s.o Obj.RG_LSTATE ≠ 3 then s
  else
    let s := s.forward (fun _ => true) 0xA5 [code * 2 ^ 48 + tgt]
    if s.inLead tgt then s.schedule code tgt 0 else s.bump Obj.RG_CMD_LATE

/-- The blocks of a RESYNC (R335). -/
def resyncParts (tgt n0 : Nat) : List Nat := [3 * 2 ^ 48 + tgt, 3 * 2 ^ 48 + n0]

/-- A named-form RESYNC received (R411). -/
def State.cmdResync (s : State) (tgt n0 : Nat) : State :=
  if s.o Obj.RG_LSTATE ≠ 3 then s
  else
    let s := s.forward (fun _ => true) 0xA5 (resyncParts tgt n0)
    if s.inLead tgt then s.schedule 3 tgt n0 else s.bump Obj.XC_RSY_LATE

/-- A CMD with a reserved code, or a RESYNC whose CONT does not repeat its code (R335). -/
def State.cmdReserved (s : State) (code : Nat) (cont : Bool) : State :=
  if s.o Obj.RG_LSTATE ≠ 3 ∨ code = 1 ∨ code = 2 ∨ (code = 3 ∧ cont = true) then s else s.bump Obj.RG_CMD_BAD

/-- The device's own tick nearest to e, in crossings from the tick that started the crossing in progress, and e - u in
ps; r counts TDC clock periods of that crossing (R412). -/
def State.alignTick (s : State) (r : Nat) : Int × Int :=
  let fx : Int := s.o Obj.CLK_FX_NOM
  let e : Int := (2 * r - 165) * 10 ^ 12 - 64 * fx * toSigned 32 (s.o Obj.XC_ALIGN_DLY)
  let t : Int := 64 * 10 ^ 12
  let u := -((t - 2 * e) / (2 * t))
  (u, (e - u * t) / (64 * fx))

/-- ALIGN_RESYNC_RECEIVE: the tick u + 32 is to start crossing N0; a second one replaces the first (R412). -/
def State.alignReceive (s : State) (n0 r : Nat) : State :=
  if s.o Obj.RG_LSTATE ≠ 3 then s
  else
    let s := s.forward (fun _ => true) 0xA5 (resyncParts 0xFFFFFFFFFFFF n0)
    let a := s.alignTick r
    { s.setO Obj.XC_ALIGN_RES (ofSigned 32 (clipSigned 32 a.2)) with alignPend := some (((s.tick : Int) + a.1 + 32).toNat, n0) }

/-! ### Execution -/

/-- The commands of one code whose turn it is: those received before any other command of this tick (R336). -/
def State.dueCmds (s : State) (code : Nat) : List Sched := s.due.takeWhile fun c => c.code == code

/-- The commands of one code whose turn it is leave the scheduler. -/
def State.dropDue (s : State) (code : Nat) : State :=
  { s with sched := (s.sched.filter fun c => c.tick != s.tick) ++ s.due.dropWhile fun c => c.code == code }

/-- The TPULSE commands of this tick: the first of them fires for all (R67). -/
def State.tpulses (s : State) : List Sched := s.due.filter fun c => c.code == 1

/-- The TPULSE commands of this tick leave the scheduler. -/
def State.dropTpulses (s : State) : State :=
  { s with sched := s.sched.filter fun c => !(c.code == 1 && c.tick == s.tick) }

/-- A command has taken effect at its tick; the crossing is named by the numbering in force at it (R66, R348). -/
def State.cmdDone (s : State) : State := (s.bump Obj.RG_CMD_DONE).setO Obj.RG_CMD_LASTX s.tickNumber

/-- A channel injects at a fire (R64). -/
def State.armed (s : State) (c : Ch) : Bool := s.en c && s.ob (Obj.FE_TPULSE c) 8

/-- The fire's injection instants, kept while a start can still fall into their window (R65, R68). -/
def State.inject (s : State) (phase : Nat) : State :=
  let now := s.tick * 4096 + phase
  s.mapChans fun c x =>
    let l := x.injected.filter fun i => decide (s.tick * 4096 ≤ i + 8192)
    { x with injected := if s.armed c then l ++ [now] else l }

/-- TPULSE_FIRE: one fire for all TPULSE commands of this tick, once the first of them has its turn (R65 to R67, R336). -/
def State.tpulseFire (s : State) : State :=
  if (s.dueCmds 1).isEmpty || s.o Obj.PWR_STATE == 4 then s
  else
    let s := s.dropTpulses.bumpBy Obj.FE_TP_DUP (s.tpulses.length - 1)
    let p := s.o Obj.FE_TP_PHASE
    let s := (s.inject p).prbOnFire p
    let s := s.setO Obj.FE_TP_PHASE (ofSigned 12 ((p : Int) + toSigned 16 (s.o Obj.FE_TP_STEP)))
    let s := (s.bump Obj.FE_TP_FIRED).setO Obj.FE_TP_LASTX s.tickNumber
    ({ s with fastOr := { s.fastOr with tpf := true } }).cmdDone

/-- The residue of a target in -L/2 to +L/2; the exact half has two, of which the spec names none (R410). -/
def State.phaseResidue (s : State) (tgt : Nat) : Int :=
  let l := s.o Obj.XC_TURN_LEN
  let r := tgt % l
  if 2 * r < l ∨ (2 * r = l ∧ s.open % 2 = 0) then r else (r : Int) - l

/-- One TURN command is checked (R410). -/
def State.turnOne (s : State) (tgt : Nat) : State :=
  let s := s.cmdDone
  if tgt % s.o Obj.XC_TURN_LEN = 0 then s
  else
    let s := (s.bump Obj.XC_PHASE_ERR).setO Obj.XC_PHASE_LAST (ofSigned 32 (s.phaseResidue tgt))
    let s := s.drawn.capture 12
    ((s.stage 0x0104 1 0 (bytesLE 4 (s.o Obj.XC_PHASE_LAST))).ariseOnce 16).setO Obj.XC_STATE 0

/-- TURN_CHECK: the TURN commands of this tick whose turn it is are checked in order of receipt. -/
def State.turnCheck (s : State) : State :=
  if s.o Obj.PWR_STATE = 4 then s
  else (s.dueCmds 2).foldl (fun s c => s.turnOne c.tgt) (s.dropDue 2)

/-- What a change of numbering at this tick does to the latency buffer, the query path and the slice just opened (R171,
R210). -/
def State.renumber (s : State) (n0 : Nat) : State :=
  let was := s.xc
  let s := s.setO Obj.XC_COUNT n0
  let ren (o : OpenSlice) : OpenSlice := if o.tick = s.tick then { o with x := n0 } else o
  let s := { s with asm := { s.asm with opened := s.asm.opened.map ren } }
  (s.lbResync n0).queryResync was

/-- Every leaf of a hub whose count has changed is to be aligned (R413). -/
def State.alignLeaves (s : State) (byTp : Bool) (ks : List Nat) : State :=
  ks.foldl (fun s k =>
    { s with hub := { s.hub with ports := s.hub.ports.set (portFin k) { s.hub.ports.get (portFin k) with align := some byTp } } }) s

/-- One RESYNC is applied: the tick that would have started `would` starts n0 (R411, R414). -/
def State.resyncOne (s : State) (would n0 : Nat) : State :=
  let s := if n0 = s.xc then s else (s.renumber n0).alignLeaves false s.portsUp
  let s := ((s.bump Obj.XC_RESYNCS).setO Obj.XC_LAST_RSX n0).setO Obj.XC_LAST_OLD would
  let s : State := { s with clk := { s.clk with resync := some (s.tick, would) } }
  (s.setO Obj.XC_STATE 1).capture 3

/-- The number that the tick would have started without a RESYNC at it (R414). -/
def State.wouldStart (s : State) : Nat :=
  match s.clk.resync with
  | some (t, n) => if t = s.tick then n else s.xc
  | none => s.xc

/-- RESYNC_APPLY: the RESYNCs of this tick whose turn it is, in order of receipt; the alignment form after every scheduled one
(R336, R411, R412). -/
def State.resyncApply (s : State) : State :=
  if s.o Obj.PWR_STATE = 4 then s
  else
    let would := s.wouldStart
    let s := (s.dueCmds 3).foldl (fun s c => (s.resyncOne would c.n0).cmdDone) (s.dropDue 3)
    match s.alignPend with
    | some (t, n0) => if t = s.tick ∧ (s.due.all fun c => c.code != 3) = true then ({ s with alignPend := none }).resyncOne would n0 else s
    | none => s

/-- Commands whose tick passes in a Hold are discarded (R336, R411). -/
def State.cmdHoldTick (s : State) : State :=
  let due := s.sched.filter fun c => decide (c.tick ≤ s.tick)
  let n := (due.filter fun c => c.code == 3).length
  { (s.bumpBy Obj.XC_RSY_LATE n).bumpBy Obj.RG_CMD_LATE (due.length - n) with
    sched := s.sched.filter fun c => decide (s.tick < c.tick) }

/-- A CKIN failure drops a pending alignment (R412). -/
def State.alignHold (s : State) : State :=
  match s.alignPend with
  | some _ => { s.bump Obj.XC_RSY_LATE with alignPend := none }
  | none => s

/-! ### The commands -/

/-- CMD_TPULSE. -/
def execCmdTpulse (tgt : BitVec 48) (s : State) : Host.Outcome State Fault Refusal := .next (s.ifAwake (s.cmdReceive 1 tgt.toNat))

/-- CMD_TURN. -/
def execCmdTurn (tgt : BitVec 48) (s : State) : Host.Outcome State Fault Refusal := .next (s.ifAwake (s.cmdReceive 2 tgt.toNat))

/-- CMD_RESYNC, the named form: TGT all ones is the alignment form, which ALIGN_RESYNC_RECEIVE carries (R411). -/
def execCmdResync (tgt n0 : BitVec 48) (s : State) : Host.Outcome State Fault Refusal :=
  .next (s.ifAwake (if tgt = BitVec.allOnes 48 then s else s.cmdResync tgt.toNat n0.toNat))

/-- CMD_RESERVED. -/
def execCmdReserved (code : BitVec 8) (cont : Bool) (s : State) : Host.Outcome State Fault Refusal :=
  .next (s.ifAwake (s.cmdReserved code.toNat cont))

/-- ALIGN_RESYNC_RECEIVE. -/
def execAlignResyncReceive (n0 : BitVec 48) (r : Fin 32) (s : State) : Host.Outcome State Fault Refusal :=
  .next (s.ifAwake (s.alignReceive n0.toNat r))

/-- TPULSE_FIRE. -/
def execTpulseFire (s : State) : Host.Outcome State Fault Refusal := .next (s.ifAwake s.tpulseFire)

/-- TURN_CHECK. -/
def execTurnCheck (s : State) : Host.Outcome State Fault Refusal := .next (s.ifAwake s.turnCheck)

/-- RESYNC_APPLY. -/
def execResyncApply (s : State) : Host.Outcome State Fault Refusal := .next (s.ifAwake s.resyncApply)

end Sys2Proof.Machine
end

