-- ==== Sys2Proof/Machine/Endpoints.lean ====
section
/-! DEFINITION. What a link and a lane hold: senders, receivers, CAPS exchanges and what waits for the line, the entry of a
link into DOWN (R314, R316, R345) and of a lane into L2. -/
namespace Sys2Proof.Machine

/-! ### The links' own parts -/

/-- A link's sender. -/
def State.tx (s : State) : LinkId → LinkTx
  | .north => s.north.tx
  | .south k => (s.south.get k).tx
  | .pass j => (s.pass.get j).tx

/-- A link's sender replaced. -/
def State.setTx (s : State) (l : LinkId) (t : LinkTx) : State :=
  match l with
  | .north => { s with north := { s.north with tx := t } }
  | .south k => { s with south := s.south.set k { s.south.get k with tx := t } }
  | .pass j => { s with pass := s.pass.set j { s.pass.get j with tx := t } }

/-- A link's receiver; a pass-through link has none of its own. -/
def State.rx (s : State) : LinkId → LinkRx
  | .south k => (s.south.get k).rx
  | _ => s.north.rx

/-- A link's receiver replaced. -/
def State.setRx (s : State) (l : LinkId) (r : LinkRx) : State :=
  match l with
  | .south k => { s with south := s.south.set k { s.south.get k with rx := r } }
  | _ => { s with north := { s.north with rx := r } }

/-- A link's CAPS exchange. -/
def State.caps (s : State) : LinkId → CapsSide
  | .south k => (s.south.get k).caps
  | _ => s.north.caps

/-- A link's CAPS exchange replaced. -/
def State.setCaps (s : State) (l : LinkId) (c : CapsSide) : State :=
  match l with
  | .south k => { s with south := s.south.set k { s.south.get k with caps := c } }
  | _ => { s with north := { s.north with caps := c } }

/-- The object that shows a link's state; a pass-through link has that of the north link (R309). -/
def linkStateKey : LinkId → Nat
  | .south k => Obj.RG_SSTATE k
  | _ => Obj.RG_LSTATE

/-- A link's state: 0 DOWN, 1 CAPS, 2 RATE, 3 UP (R314). -/
def State.linkState (s : State) (l : LinkId) : Nat := s.o (linkStateKey l)

/-- A counter that only the north link has. -/
def State.bumpNorth (s : State) (l : LinkId) (k : Nat) : State := if l = .north then s.bump k else s

/-- The counter of a link's rewinds. -/
def rewindKey : LinkId → Nat
  | .north => Obj.RG_REWINDS
  | .south k => Obj.RG_SREWINDS k
  | .pass j => Obj.RG_PREWINDS j

/-- The counter of a link's discarded frames (R316, R330, R349). -/
def lostKey : LinkId → Nat
  | .south k => Obj.RG_SLOSTFR k
  | _ => Obj.RG_LOSTFR

/-! ### Lanes -/

/-- One lane. -/
def State.lane (s : State) (i : Nat) : LaneUnit := s.lanes.get (laneFin i)

/-- One lane replaced. -/
def State.setLane (s : State) (i : Nat) (x : LaneUnit) : State := { s with lanes := s.lanes.set (laneFin i) x }

/-- LN_PSTATE of a lane. -/
def State.pstate (s : State) (i : Nat) : Nat := s.o (Obj.LN_PSTATE i)

/-- LN_ASTATE of a lane. -/
def State.astate (s : State) (i : Nat) : Nat := s.o (Obj.LN_ASTATE i)

/-- A lane enters L2. -/
def State.laneL2 (s : State) (i : Nat) : State :=
  (((s.setO (Obj.LN_PSTATE i) 2).setO (Obj.LN_ASTATE i) 0).setO (Obj.LN_RATE i) 0xFF).setLane i {}

/-! ### Release and DOWN (R316, R332, R345) -/

/-- Frames that leave a window release the pool blocks of the answers they end. -/
def State.releaseFrames (s : State) (fs : List Frame) : State := s.releaseAll .replay (fs.flatMap (·.blocks))

/-- What a receiver keeps over a link DOWN: its sequence number (R345). -/
def LinkRx.cut (r : LinkRx) : LinkRx := { exp := r.exp }

/-- The link that an item goes out on; none for CAN and the TAP. -/
def Sent.link : Sent → Option LinkId
  | .block l _ _ | .frame l _ _ _ | .row l _ _ _ => some l
  | _ => none

/-- The links take up what has been put out since (R340). -/
def State.takeUp (s : State) : State :=
  let new (l : LinkId) : List Sent := (s.out.drop s.line.seen).filter fun x => x.link == some l
  let add (l : LinkId) (q : Feed66) : Feed66 := { q with wait := q.wait ++ new l }
  { s with line := { s.line with
      seen := s.out.length
      north := add .north s.line.north
      south := Vector.ofFn fun k => add (.south k) (s.line.south.get k)
      pass := Vector.ofFn fun j => add (.pass j) (s.line.pass.get j) } }

/-- Nothing waits for a link's lanes any longer; the north link's pass-through links end with it (R309). -/
def State.clearLine (s : State) (l : LinkId) : State :=
  let s := s.takeUp
  match l with
  | .south k => { s with line := { s.line with south := s.line.south.set k {} } }
  | .pass j => { s with line := { s.line with pass := s.line.pass.set j {} } }
  | .north => { s with line := { s.line with north := {}, pass := Vector.replicate 8 {} } }

/-- The link state has been kept since the latest UP (R312): the link is in UP, or its next CAPS would say so. -/
def State.kept (s : State) (l : LinkId) : Bool := s.linkState l == 3 || (s.caps l).res

/-- A link enters DOWN: it keeps its sequences, windows and replay contents, and a partial message or frame ends; keep is
false where the link state is given up (R316, R331, R345). -/
def State.linkDown (s : State) (l : LinkId) (keep : Bool) : State :=
  let res := keep && s.kept l
  let s := (s.setO (linkStateKey l) 0).clearLine l
  let s := s.setRx l (s.rx l).cut
  s.setCaps l { res := res }

end Sys2Proof.Machine
end

