-- ==== Sys2Proof/Machine/Hub.lean ====
section
/-! DEFINITION. The hub: south ports (R213 to R218), the merger's records, pairing and closing (R219 to R225), cluster events
(R226 to R233), receipt of queries (R189, R191, R334) and hand-off of answers (R194 to R197). -/
namespace Sys2Proof.Machine

/-! ### Ports -/

/-- One south port. -/
def State.port (s : State) (k : Nat) : HubPort := s.hub.ports.get (portFin k)

/-- One south port replaced. -/
def State.setPort (s : State) (k : Nat) (p : HubPort) : State :=
  { s with hub := { s.hub with ports := s.hub.ports.set (portFin k) p } }

/-- HUB_PSTATE of a port takes a new value, HUB_PORT_UP with it; entries into UP are counted (R214). -/
def State.setPortState (s : State) (k v : Nat) : State :=
  let was := s.o (Obj.HUB_PSTATE k)
  let s := (s.setO (Obj.HUB_PSTATE k) v).setOb Obj.HUB_PORT_UP k (v == 3)
  if v = 3 ∧ was ≠ 3 then s.bump (Obj.HUB_LINKUPS k) else s

/-- Merge mode (R234). -/
def State.mergeMode (s : State) : Bool := s.isHub && s.o Obj.HUB_MODE == 0

/-- The pass-through lane of a port. -/
def State.ptLane (s : State) (k : Nat) : Nat := s.o (Obj.HUB_PT_LANE k)

/-- The pass-through lane of a part; none for a part of an answer. -/
def Part.lane (p : Part) : Option Nat :=
  match p.kind with
  | .relay j _ => some j
  | _ => none

/-- Bytes of port k's frames that a pass-through hub has still to put into the replay buffer (R220, R234). -/
def State.passHeld (s : State) (k : Nat) : Nat :=
  if s.isHub && s.o Obj.HUB_MODE == 1 && s.ptLane k != 0 then
    ((s.bld.parts.filter fun p => p.lane == some (s.ptLane k)).map fun p => p.a.len).sum
      + ((s.pass.get (portFin (s.ptLane k))).queue.map fun e => e.2.2.2.2.length).sum
  else 0

/-- Bytes in the receive buffer of a port: paired answers, the sub-event that is arriving, and frames to be relayed (R220). -/
def State.portLevel (s : State) (k : Nat) : Nat := (s.port k).fill + (s.port k).building.length + s.passHeld k

/-- The bytes of a port's paired answers, with the buffer's highest level (R220). -/
def State.portFill (s : State) (k n : Nat) : State :=
  let s := s.setPort k { s.port k with fill := n }
  s.peak (Obj.HUB_BUFPEAK k) (s.portLevel k)

/-! ### Records (R215, R219) -/

/-- The position p of a record. -/
def MRec.at_ (r : MRec) (p : Nat) : Pos := r.pos.getD p .unexpected

/-- The position p of a record replaced. -/
def MRec.put (r : MRec) (p : Nat) (x : Pos) : MRec := { r with pos := r.pos.set p x }

/-- Every position of EXPECT is paired or closed. -/
def MRec.done (r : MRec) : Bool := r.pos.all fun x => x != .awaited

/-- The query is outstanding at a position. -/
def MRec.waits (r : MRec) (p : Nat) : Bool := r.at_ p == .awaited

/-- The records replaced. -/
def State.setRecs (s : State) (l : List MRec) : State := { s with hub := { s.hub with recs := l } }

/-- A closure is counted in HUB_ABSENT of its port (R225). -/
def State.countAbsent (s : State) (p : Nat) : State := if p = 0 then s else s.bump (Obj.HUB_ABSENT (p - 1))

/-- The record of a query at its receipt: its expected set, ports not in UP absent with LINKDOWN (R215, R219); comp is the
query's own COMP, which an SLF32 never applies (R232, R233). -/
def State.newRecord (s : State) (q : Query) (comp : Bool) (qid anchor : Nat) : State :=
  let en := s.o Obj.HUB_PORT_EN
  let up := s.portsUp
  let pos := (List.range 9).map fun p =>
    if p = 0 then Pos.awaited
    else if bit en (p - 1) then (if (p - 1) ∈ up then .awaited else .closed 1) else .unexpected
  let filtered := q.type == 1 || q.type == 3 || (q.type == 0 && (q.totcut != 0 || comp || q.cntonly))
  let s := s.setRecs (s.hub.recs ++ [{ qid := qid, anchor := anchor, type := q.type, filtered := filtered, addr := q.addr, pos := pos }])
  let down := (bitList 8 en).filter fun k => !(k ∈ up)
  down.foldl (fun s k => s.countAbsent (k + 1)) s

/-! ### The cluster event (R226 to R233) -/

/-- The sub-event length bound and its multiple of 8 (R222). -/
def lengthOk (n : Nat) : Bool := n % 8 == 0 && decide (n ≤ 32768)

/-- KIND of a sub-event, from its trailer's lowest byte (R202). -/
def trailerKind (b : List Byte) : Nat := bits ((b.getD (b.length - 8) 0).toNat) 7 5

/-- The bytes of an answer in blocks or beside them. -/
def State.answerBytes (s : State) (a : Answer) : List Byte :=
  if a.blocks.isEmpty then a.bytes else s.readBlocks a.blocks a.len

/-- KIND of the answer that a position holds. -/
def State.posKind (s : State) : Pos → Option Nat
  | .paired a => some (trailerKind (s.answerBytes a))
  | _ => none

/-- Position p is expected. -/
def Pos.expected : Pos → Bool
  | .unexpected => false | _ => true

/-- Position p contributes a part. -/
def Pos.present : Pos → Bool
  | .paired _ => true | .slf32 _ => true | _ => false

/-- Position p is closed. -/
def Pos.closed_ : Pos → Option Nat
  | .closed r => some r | _ => none

/-- CFLAGS (R228). -/
def State.cflags (s : State) (r : MRec) : Nat :=
  let anyK (k : Nat) : Bool := r.pos.any fun x => s.posKind x == some k
  b2n (r.pos.any fun x => x.closed_.isSome) * 2 ^ 11
  + b2n (r.pos.any fun x => x.closed_ == some 0) * 2 ^ 10
  + b2n (r.pos.any fun x => match x with | .slf32 _ => true | _ => false) * 2 ^ 9
  + b2n (anyK 3) * 2 ^ 8 + b2n (anyK 4) * 2 ^ 7 + b2n (anyK 1) * 2 ^ 6 + b2n (anyK 2) * 2 ^ 5
  + b2n ((r.at_ 0).closed_ == some 0) * 2 ^ 4

/-- One bit per position that fulfils f. -/
def MRec.map9 (r : MRec) (f : Pos → Bool) : Nat := ((List.range 9).map fun p => b2n (f (r.at_ p)) * 2 ^ p).sum

/-- The cluster header (R227). -/
def State.clusterHeader (s : State) (r : MRec) : List Byte :=
  bytesLE 16 (0xC0 * 2 ^ 120 + 2 * 2 ^ 116 + s.cflags r * 2 ^ 104 + r.qid * 2 ^ 88 + r.anchor * 2 ^ 40 + r.addr * 2 ^ 24
    + r.map9 Pos.expected * 2 ^ 15 + r.map9 Pos.present * 2 ^ 6)

/-- The absent sub-header of position p (R230). -/
def MRec.absent (r : MRec) (p reason : Nat) : List Byte :=
  bytesLE 16 (0xC1 * 2 ^ 120 + 2 * 2 ^ 116 + reason * 2 ^ 112 + r.qid * 2 ^ 88 + r.anchor * 2 ^ 40 + (r.addr + p) * 2 ^ 24)

/-- The SLF32 wrapper header of position p (R233). -/
def MRec.wrapper (r : MRec) (p n : Nat) : List Byte :=
  bytesLE 16 (0xC2 * 2 ^ 120 + 2 * 2 ^ 116 + b2n (r.type == 2 || r.type == 3) * 2 ^ 115 + b2n r.filtered * 2 ^ 114
    + r.qid * 2 ^ 88 + r.anchor * 2 ^ 40 + (r.addr + p) * 2 ^ 24 + n)

/-- The part of a position: PKIND, its bytes or answer, and the bytes that the trailer CRC covers (R226, R229, R231). -/
def MRec.part (r : MRec) (p : Nat) : Option (Nat × Answer × List Byte) :=
  match r.at_ p with
  | .unexpected => none
  | .awaited => none
  | .paired a => some (0, a, [])
  | .closed c => some (1, { bytes := r.absent p c, len := 16 }, r.absent p c)
  | .slf32 b =>
    let w := r.wrapper p b.length
    some (2, { bytes := w ++ padTo 8 b, len := 16 + (padTo 8 b).length }, w)

/-- The directory (R226, R229). -/
def MRec.directory (r : MRec) : List Byte :=
  padTo 8 ((List.range 9).flatMap fun p => match r.part p with
    | some x => bytesLE 4 (p * 2 ^ 28 + x.1 * 2 ^ 24 + x.2.1.len)
    | none => [])

/-- The cluster trailer (R231). -/
def clusterTrailer (crc n : Nat) : List Byte := bytesLE 8 (crc * 2 ^ 32 + n * 2 ^ 8)

/-- The bytes that the cluster trailer's CRC covers (R231). -/
def State.clusterCover (s : State) (r : MRec) : List Byte :=
  s.clusterHeader r ++ r.directory ++ ((List.range 9).filterMap r.part).flatMap fun x => x.2.2

/-- The parts of a cluster event, as they pass to the builders (R239). -/
def State.clusterParts (s : State) (r : MRec) : List Part :=
  let head := s.clusterHeader r ++ r.directory
  let ps := (List.range 9).filterMap r.part
  let crc := crc32c (s.clusterCover r)
  let n := head.length + (ps.map fun x => x.2.1.len).sum
  let t := clusterTrailer crc n
  [{ a := { bytes := head, len := head.length }, first := true, last := false, kind := .other }]
    ++ ps.map (fun x => { a := x.2.1, first := false, last := false, kind := .other })
    ++ [{ a := { bytes := t, len := 8 }, first := false, last := true, kind := .trailer }]

/-- Bytes that a released record frees in the port buffers. -/
def State.freeBuffers (s : State) (r : MRec) : State :=
  (List.range 8).foldl (fun s k => match r.at_ (k + 1) with
    | .paired a => s.portFill k ((s.port k).fill - a.len)
    | .slf32 b => s.portFill k ((s.port k).fill - b.length)
    | _ => s) s

/-- Complete records leave the merger in order; check unit 4 forms the trailer's CRC (R219, R225, R271). -/
def State.releaseRecs (s : State) : Nat → State
  | 0 => s
  | n + 1 =>
    match s.hub.recs with
    | [] => s
    | r :: l =>
      if r.done then
        let s := (s.setRecs l).wrapBy 48 Obj.HUB_CEVENTS 1
        let s := (s.check 4 (s.clusterCover r)).freeBuffers r
        ({ s with bld := { s.bld with parts := s.bld.parts ++ s.clusterParts r } }).releaseRecs n
      else s

/-- Every complete record at the head of the merger is released. -/
def State.releaseReady (s : State) : State := s.releaseRecs s.hub.recs.length

/-! ### Pairing and closing (R218, R221 to R225) -/

/-- A position of the record at place i is closed with a reason. -/
def State.closeAt (s : State) (i p reason : Nat) : State :=
  (s.setRecs (s.hub.recs.modify i fun r => r.put p (.closed reason))).countAbsent p

/-- The places of the records that wait at a position, oldest first. -/
def State.waiting (s : State) (p : Nat) : List Nat :=
  (List.range s.hub.recs.length).filter fun i => match s.hub.recs[i]? with | some r => r.waits p | none => false

/-- Every query outstanding on port k is closed with LINKDOWN (R218). -/
def State.closePort (s : State) (k : Nat) : State :=
  ((s.waiting (k + 1)).foldl (fun s i => s.closeAt i (k + 1) 1) s).releaseReady

/-- The oldest query outstanding on port k is closed with a reason (R222). -/
def State.closeOldest (s : State) (k reason : Nat) : State :=
  match s.waiting (k + 1) with
  | i :: _ => (s.closeAt i (k + 1) reason).releaseReady
  | [] => s

/-- The frames that a south or pass-through link holds are discarded and counted, as it loses its slots (R330). -/
def State.loseHeld (s : State) (l : LinkId) : State :=
  let t := s.tx l
  ((s.setTx l { t with held := [], ptr := t.next, stalled := false }).releaseFrames t.held).bumpBy (lostKey l) t.held.length

/-- A port enters OFF once its bit is 0 and nothing is outstanding on it: its link is in DOWN, its lanes are in L2, and its
newest QID stays known, as do the bytes of answers already paired (R214, R218, R220, R221, R330). -/
def State.portOff (s : State) (k : Nat) : State :=
  if !s.ob Obj.HUB_PORT_EN k && (s.waiting (k + 1)).isEmpty && s.o (Obj.HUB_PSTATE k) != 0 then
    let l : LinkId := .south (portFin k)
    let s := (s.setPortState k 0).setPort k { newest := (s.port k).newest, fill := (s.port k).fill }
    (((((s.linkDown l true).loseHeld l)).laneL2 (9 + k)).laneL2 (17 + k)).settle
  else s

/-- The port's place in a record whose QID is this one. -/
def State.findQid (s : State) (k qid : Nat) : Option Nat :=
  (s.waiting (k + 1)).find? fun i => match s.hub.recs[i]? with | some r => r.qid == qid | none => false

/-- An answer on port k is paired by its QID, closing older ones as skipped, or discarded (R221). -/
def State.pairLeaf (s : State) (k qid n : Nat) (x : Pos) : State :=
  match s.findQid k qid with
  | some i =>
    let older := (s.waiting (k + 1)).filter fun j => decide (j < i)
    let s := older.foldl (fun s j => (s.closeAt j (k + 1) 2).bump (Obj.HUB_SKIPPED k)) s
    let s := s.portFill k ((s.port k).fill + n)
    ((s.setRecs (s.hub.recs.modify i fun r => r.put (k + 1) x)).releaseReady).portOff k
  | none =>
    if ((s.port k).newest + 2 ^ 16 - qid) % 2 ^ 16 < 0x8000 then s.bump (Obj.HUB_LATE k) else s.bump (Obj.HUB_QIDERR k)

/-- QID of a sub-event's header (R199). -/
def headerQid (b : List Byte) : Nat := bits (fromLE (b.take 16)) 103 88

/-- A header that a sub-event of an SLF128 must have (R222). -/
def headerOk (b : List Byte) : Bool := bits (fromLE (b.take 16)) 127 116 == 0xD02 && decide (16 ≤ b.length)

/-- LEAF_SUBEVENT_ARRIVE: a complete sub-event on a port in UP of a merging hub; an SLF32 answer carries its QID in its
frame (R221, R222, R233). -/
def State.leafSubevent (s : State) (k qid : Nat) (b : List Byte) (bufferBad : Bool) : State :=
  if s.mergeMode && s.o (Obj.HUB_PSTATE k) == 3 then
    if bufferBad then ((s.raiseFault 3 (Fin.ofNat 128 k)).closeOldest k 4).portOff k
    else if s.o (Obj.HUB_PKIND k) = 2 then s.pairLeaf k qid b.length (.slf32 b)
    else if headerOk b && lengthOk b.length then s.pairLeaf k (headerQid b) b.length (.paired { bytes := b, len := b.length })
    else ((s.bump (Obj.HUB_MALFORMED k)).closeOldest k 3).portOff k
  else s

/-- MERGER_TIMEOUT: the head query's awaited positions close as TIMEOUT; the timers stand still in Hold (R223, R224). -/
def State.mergerTimeout (s : State) : State :=
  match s.hub.recs with
  | [] => s
  | r :: _ =>
    if s.o Obj.PWR_STATE = 4 then s
    else
      let ps := (List.range 9).filter fun p => r.waits p
      let s := ps.foldl (fun s p =>
        let s := s.closeAt 0 p 0
        if p = 0 then { s.bump Obj.HUB_OWNLATE with hub := { s.hub with ownSkip := s.hub.ownSkip + 1 } }
        else s.bump (Obj.HUB_TIMEOUTS (p - 1))) s
      (List.range 8).foldl (fun s k => s.portOff k) s.releaseReady

/-! ### Receipt of queries (R189, R191, R216, R217, R232, R334) -/

/-- The Ragil 1.2 query that an SLF32 gets (R232, R343). -/
def query12 (w : Nat) : Nat :=
  let span := bits w 95 94 == 3
  bits w 111 96 * 2 ^ 96 + bits w 93 70 * 2 ^ 72
    + (if span then min (bits w 59 50) 31 else bits w 69 65) * 2 ^ 67 + (if span then 0 else bits w 64 60) * 2 ^ 62

/-- The blocks of a query word (R334). -/
def queryParts (w : Nat) : List Nat := [bits w 111 56, bits w 55 0]

/-- A query forwarded on every port in UP (R216, R232). -/
def State.forwardQuery (s : State) (w : Nat) : State :=
  s.portsUp.foldl (fun s k =>
    let s := s.emitBlock (.south (portFin k)) 0x5A (queryParts (if s.o (Obj.HUB_PKIND k) = 2 then query12 w else w))
    s.setPort k { s.port k with newest := bits w 111 96 }) s

/-- QID and anchor of a query's cluster event: for a query of a refusal run as computed under R193, with an anchor of all
ones; none for a query beyond a saturated run. -/
def State.recordNames (s : State) (q : Query) : Option (Nat × Nat) :=
  if s.query.fill < 256 then some (q.qid, q.anchor.field)
  else match s.query.items.getLast? with
    | some (.run f len _ a) =>
      if a = s.o Obj.CF_ADDR then (if len ≥ 2 ^ 32 - 1 then none else some ((f + len) % 2 ^ 16, 2 ^ 48 - 1))
      else some (q.qid, 2 ^ 48 - 1)
    | _ => some (q.qid, 2 ^ 48 - 1)

/-- The device's cluster id (R4, R29). -/
def State.clusterId (s : State) : Nat := s.o Obj.CF_ADDR / 16

/-- A query word that arrives under Ragil 1.2 in the fields of 2.0: an ACCEPT query of its QID and window (R232, R343). -/
def query20 (w : Nat) : Nat :=
  bits w 111 96 * 2 ^ 96 + bits w 95 72 * 2 ^ 70 + bits w 71 67 * 2 ^ 65 + bits w 66 62 * 2 ^ 60

/-- The query word in the fields of R176, by the version agreed on the north link (R343). -/
def State.queryWord (s : State) (w : Nat) : Nat := if s.o Obj.RG_VERSION = 1 then query20 w else w

/-- QUERY_RECEIVE: a valid query is discarded early or unaddressed, or forwarded, recorded and admitted. -/
def State.queryReceive (s : State) (w : Nat) : State :=
  if s.o Obj.RG_LSTATE ≠ 3 || !s.dataReady then s.bump Obj.RG_RX_EARLY
  else if s.clusterId = 0xFFF then s.bump Obj.QRY_UNADDR
  else
    let s := if s.isHub then s.forwardQuery w else s
    let q := s.makeQuery w s.query.fill
    let s := match s.mergeMode, s.recordNames q with
      | true, some (qid, a) => s.newRecord q (bit w 21) qid a
      | _, _ => s
    s.enqueueQuery w

/-! ### Hand-off (R194, R195, R197, R224) -/

/-- An answer enters the builders, or in a merging hub the merger (R189, R224). -/
def State.ownAnswer (s : State) (a : Answer) : State :=
  let direct (s : State) : State :=
    { s with bld := { s.bld with parts := s.bld.parts ++ [{ a := a, first := true, last := true, kind := .subEvent }] } }
  if s.mergeMode then
    if s.hub.ownSkip > 0 then
      { s.releaseAll .builder a.blocks with hub := { s.hub with ownSkip := s.hub.ownSkip - 1 } }
    else match s.waiting 0 with
      | i :: _ => (s.setRecs (s.hub.recs.modify i fun r => r.put 0 (.paired a))).releaseReady
      | [] => direct s
  else direct s

/-- The counter of an answer kind (R195). -/
def kindKey (k : Nat) : Nat :=
  match k with
  | 0 => Obj.QRY_NORMAL | 1 => Obj.QRY_EXPIRED | 2 => Obj.QRY_LOST | 3 => Obj.QRY_THINNED | _ => Obj.QRY_REFUSED

/-- An answer of a kind has been handed over (R197). -/
def State.countAnswer (s : State) (k : Nat) : State := (s.wrapBy 48 Obj.QRY_ANSWERED 1).bump (kindKey k)

/-- The answer of a queue entry is handed over, and the entry frees. -/
def State.handEntry (s : State) (e : QEntry) (rest : List QItem) (svc : Nat) : State :=
  let fill := s.query.fill
  let a := if e.thin then e.thinAnswer else e.answer
  let s := (s.setItems rest).transferAll .query .builder a.blocks
  let s := if e.spanCut then s.bump Obj.QRY_SPANCUT else s
  let s := if e.waited then s else s.peak Obj.QRY_SVC_MAX svc
  ((s.countAnswer e.kind).ownAnswer a).busyUpdate fill

/-- One refused-full answer of a run is handed over (R193). -/
def State.handRun (s : State) (f len done a : Nat) (rest : List QItem) : State :=
  let s := s.setItems (if done + 1 < len then .run f len (done + 1) a :: rest else rest)
  (s.countAnswer 4).ownAnswer (refusedAnswer ((f + done) % 2 ^ 16) a)

/-- An answer has been handed over, so that none has been due without a handoff until now (R536). -/
def State.answered (s : State) : State :=
  { s with watch := { s.watch with outages := s.watch.outages.filter fun e => e.1 != 2 } }

/-- Answers can be handed to the builders: they are on, and neither a Hold nor lanes that have not returned stand in the way. -/
def State.buildersAccept (s : State) : Bool := s.o Obj.BLD_STATE != 0 && s.o Obj.PWR_STATE != 4 && !s.north.held

/-- ANSWER_HANDOFF: the answer at the head of the queue passes to the builders; answers wait while the device is in Hold, until
the north lanes have returned, and while the builders are off (R194, R209); svc is the time from receipt in core cycles. -/
def State.answerHandoff (s : State) (svc : Nat) : State :=
  if !s.buildersAccept then s
  else match s.query.items with
    | .entry e :: r => if e.thin || e.st == .handoff then (s.handEntry e r svc).answered else s
    | .run f len done a :: r => (s.handRun f len done a r).answered
    | [] => s

/-! ### HUB_PORT_EN (R213, R218, R234) -/

/-- Every enabled port of a pass-through hub has a lane of its own (R234). -/
def State.lanesOk (s : State) (v : Nat) : Bool :=
  (bitList 8 v).all fun k => s.ptLane k != 0 && (List.range 8).all fun j => j == k || s.ptLane j != s.ptLane k

/-- HUB_PORT_EN is judged at its execution. -/
def State.portEnCheck (s : State) (v : Nat) : Status :=
  if !s.isHub then .functionRunning
  else if s.o Obj.HUB_MODE = 1 ∧ s.lanesOk v = false then .outOfRange
  else .ok

/-- HUB_PORT_EN takes effect at a tick: a port whose bit becomes 1 leaves OFF for CLOCK; one whose bit becomes 0 enters OFF
once nothing is outstanding on it; no port of a device that is not a hub is enabled (R213, R214, R218). -/
def State.portEnEffect (s : State) (v : Nat) : State :=
  let v := if s.isHub then v else 0
  let s := s.setO Obj.HUB_PORT_EN v
  let s := (List.range 8).foldl (fun s k =>
    if bit v k then
      (if s.o (Obj.HUB_PSTATE k) = 0 then
        { s.setPortState k 1 with south := s.south.set (portFin k) { s.south.get (portFin k) with rate := 3 } } else s)
    else s.portOff k) s
  if v = 0 then s.settle else (s.ungate 3).settle

/-! ### The commands -/

/-- QUERY_RECEIVE. -/
def execQueryReceive (w : BitVec 112) (s : State) : Host.Outcome State Fault Refusal := .next (s.ifAwake (s.queryReceive (s.queryWord w.toNat)))

/-- ANSWER_HANDOFF. -/
def execAnswerHandoff (svc : BitVec 16) (s : State) : Host.Outcome State Fault Refusal := .next (s.ifAwake (s.answerHandoff svc.toNat))

/-- LEAF_SUBEVENT_ARRIVE. -/
def execLeafSubeventArrive (k : Port) (qid : BitVec 16) (b : List Byte) (bad : Bool) (s : State) :
    Host.Outcome State Fault Refusal :=
  .next (s.ifAwake (s.leafSubevent k qid.toNat b bad))

/-- MERGER_TIMEOUT. -/
def execMergerTimeout (s : State) : Host.Outcome State Fault Refusal := .next (s.ifAwake s.mergerTimeout)

/-- HUB_PORT_EN_WRITE (R213, R234). -/
def execHubPortEnWrite (q : Req) (v : BitVec 8) (s : State) : Host.Outcome State Fault Refusal :=
  .next (s.ifRequest q (s.hostWrite q Obj.HUB_PORT_EN false (s.portEnCheck v.toNat) (s.pendLive Obj.HUB_PORT_EN v.toNat)))

end Sys2Proof.Machine
end

