-- ==== Sys2Proof/Machine/Trigger.lean ====
section
/-! DEFINITION. Trigger primitives: the word of a crossing (R143 to R146), TP blocks (R339), and a hub's cluster primitive
(R235 to R237, R413). -/
namespace Sys2Proof.Machine

/-! ### The word (R143, R145) -/

/-- A trigger-primitive word from its fields (R143). -/
def tpWord (hits energy : Nat) (ovf busy tpf abs : Bool) : Nat :=
  clip 63 hits * 2 ^ 10 + clip 15 energy * 2 ^ 6 + b2n ovf * 2 ^ 5 + b2n busy * 2 ^ 4 + b2n tpf * 2 ^ 3 + b2n abs * 2 ^ 2

/-- The device primitive of the crossing that this tick ends (R143, R144). -/
def State.ownWord (s : State) : Nat :=
  tpWord s.fastOr.hits s.fastOr.energy s.fastOr.ovf s.busy s.fastOr.tpf false

/-! ### TP blocks (R144, R339) -/

/-- The contents of the waiting TP block: its words, newest first (R339). -/
def tpBlock (l : List (Nat × Nat)) : Nat :=
  let w (i : Nat) : Nat := match l[i]? with | some e => e.2 | none => 0
  let x : Nat := match l[0]? with | some e => e.1 % 64 | none => 0
  l.length * 2 ^ 54 + x * 2 ^ 48 + w 0 * 2 ^ 32 + w 1 * 2 ^ 16 + w 2

/-- The waiting TP block goes out; its words that carry OVF or ABS are counted as sent (R145, R237). -/
def State.tpFlush (s : State) : State :=
  if s.north.tp.isEmpty then s
  else
    let n (b : Nat) : Nat := (s.north.tp.filter fun e => bit e.2 b).length
    let s := (s.bumpBy Obj.TP_OVF_CNT (n 5)).bumpBy Obj.HUB_TP_ABS (n 2)
    { s.emitBlock .north 0x69 [tpBlock s.north.tp] with north := { s.north with tp := [] } }

/-- The waiting block takes the word of crossing x: it holds fewer than three words and its newest is of crossing x - 1. -/
def State.tpJoins (s : State) (x : Nat) : Bool :=
  match s.north.tp with
  | (y, _) :: _ => decide ((y + 1) % 2 ^ 48 = x) && decide (s.north.tp.length < 3) && s.o Obj.RG_VERSION != 1
  | [] => true

/-- A word is placed in a TP block, which leaves at once when sent is true (R339). -/
def State.tpPlace (s : State) (x w : Nat) (sent : Bool) : State :=
  let s := if s.tpJoins x then s else s.tpFlush
  let s := { s with north := { s.north with tp := (x, w) :: s.north.tp } }
  if sent then s.tpFlush else s

/-- A formed word is shown, and sent, not sent, or dropped for want of an aligned lane (R144 to R146, R237). -/
def State.tpSend (s : State) (x w : Nat) (sent : Bool) : State :=
  let s := (s.setO Obj.TP_LAST w).setO Obj.TP_LASTX x
  if s.o Obj.TP_ENABLE = 0 ∨ s.clusterId = 0xFFF then s
  else if s.o Obj.RG_LSTATE ≠ 3 ∨ s.o Obj.RG_LANEMAP = 0 then s.bump Obj.TP_DROP
  else s.tpPlace x w sent

/-- Words that wait for a block when no lane is left are dropped (R144). -/
def State.tpDropAll (s : State) : State :=
  { s.bumpBy Obj.TP_DROP s.north.tp.length with north := { s.north with tp := [] } }

/-- At a tick in Run or Degraded the word of crossing x, which the tick ends, is formed; a hub's waits for its deadline
(R144, R237). The fast-OR counts start again. -/
def State.tpForm (s : State) (x : Nat) (sent : Bool) : State :=
  let w := s.ownWord
  let s' := { s with fastOr := {} }
  if !s.inRun then s'
  else if s.isHub then { s' with hub := { s'.hub with tpWait := s'.hub.tpWait ++ [{ x := x, word := w, got := [] }] } }
  else s'.tpSend x w sent

/-! ### The cluster primitive (R237) -/

/-- XLOW resolved to the crossing nearest the device's own count (R339). -/
def State.resolveXlow (s : State) (xlow : Nat) : Nat :=
  let d := (xlow + 64 - s.xc % 64) % 64
  (if d < 32 then s.xc + d else s.xc + 2 ^ 48 - (64 - d)) % 2 ^ 48

/-- A leaf word that has arrived in time for crossing x. -/
def TpWait.take (t : TpWait) (k w : Nat) : TpWait :=
  if t.got.any fun e => e.1 == k then t else { t with got := t.got ++ [(k, w)] }

/-- A word in time that names none of the hub's awaited crossings: the sixteenth in a row asks for an alignment (R413). -/
def State.tpMismatch (s : State) (k : Nat) : State :=
  let n := (s.port k).tpWrong + 1
  if n ≥ 16 then s.setPort k { s.port k with tpWrong := 0, align := some true }
  else s.setPort k { s.port k with tpWrong := n }

/-- Outside Run and Degraded, in which the hub forms no word, the crossings whose deadlines have not passed are still its own
(R237, R413). -/
def State.ownCrossing (s : State) (x : Nat) : Bool :=
  !s.inRun && decide ((s.xc + 2 ^ 48 - 1 - x) % 2 ^ 48 * 1000000000 ≤ s.o Obj.HUB_TP_DEADLINE * s.o Obj.CLK_FX_NOM)

/-- LEAF_TP_ARRIVE: a leaf word is kept for its crossing, or discarded when it comes after the deadline (R237). -/
def State.leafTp (s : State) (k xlow w : Nat) (late : Bool) : State :=
  if !s.isHub || s.o (Obj.HUB_PSTATE k) != 3 || late then s
  else
    let x := s.resolveXlow xlow
    if (s.hub.tpWait.any fun t => t.x == x) || s.ownCrossing x then
      let s := s.setPort k { s.port k with tpWrong := 0 }
      { s with hub := { s.hub with tpWait := s.hub.tpWait.map fun t => if t.x = x then t.take k w else t } }
    else s.tpMismatch k

/-- The enabled ports whose word for a crossing is missing; ports not in UP count as missing (R237). -/
def State.tpMissing (s : State) (t : TpWait) : List Nat :=
  (bitList 8 (s.o Obj.HUB_PORT_EN)).filter fun k => !(s.o (Obj.HUB_PSTATE k) == 3 && t.got.any fun e => e.1 == k)

/-- The cluster primitive of R146 from the words that count. -/
def clusterWord (ws : List Nat) (abs : Bool) : Nat :=
  tpWord ((ws.map fun w => bits w 15 10).sum) ((ws.map fun w => bits w 9 6).sum) (ws.any fun w => bit w 5)
    (ws.any fun w => bit w 4) (ws.any fun w => bit w 3) abs

/-- CLUSTER_TP_DEADLINE: the primitive of the oldest crossing that waits is built and sent. -/
def State.tpDeadline (s : State) (sent : Bool) : State :=
  match s.hub.tpWait with
  | [] => s
  | t :: r =>
    let miss := s.tpMissing t
    let en := bitList 8 (s.o Obj.HUB_PORT_EN)
    let ws := t.word :: (t.got.filter fun e => e.1 ∈ en && !(e.1 ∈ miss)).map (·.2)
    let s := { s with hub := { s.hub with tpWait := r } }
    let s := miss.foldl (fun s k => s.bump (Obj.HUB_TP_LATE k)) s
    s.tpSend t.x (clusterWord ws (!miss.isEmpty)) sent

/-- LEAF_TP_ARRIVE. -/
def execLeafTpArrive (k : Port) (xlow : BitVec 6) (w : BitVec 16) (late : Bool) (s : State) :
    Host.Outcome State Fault Refusal := .next (s.ifAwake (s.leafTp k xlow.toNat w.toNat late))

/-- CLUSTER_TP_DEADLINE. -/
def execClusterTpDeadline (sent : Bool) (s : State) : Host.Outcome State Fault Refusal := .next (s.ifAwake (s.tpDeadline sent))

end Sys2Proof.Machine
end

