-- ==== Sys2Proof/Machine/Link.lean ====
section
/-! DEFINITION. Links: senders and receivers, replay slots and re-partition (R329, R330), rewinds (R331), release of frames
(R332), and entry into DOWN and UP (R314, R316, R345). -/
namespace Sys2Proof.Machine

/-! ### Slots (R329, R330) -/

/-- The bit of pass-through link j is set for every link that some port's HUB_PT_LANE names in pass-through mode. -/
def State.passWanted (s : State) : Nat :=
  if s.isHub && s.o Obj.HUB_MODE == 1 then
    ((List.range 8).filter fun j => j != 0 && (List.range 8).any fun k => s.ptLane k == j).foldl (fun m j => setBit m j true) 0
  else 0

/-- The bit of south link k is set while port k is enabled, or not yet in OFF: a range is released last (R330). -/
def State.portsWanted (s : State) : Nat :=
  if s.isHub then
    ((List.range 8).filter fun k => s.ob Obj.HUB_PORT_EN k || s.o (Obj.HUB_PSTATE k) != 0).foldl (fun m k => setBit m k true) 0
  else 0

/-- Pass-through links that exist no longer lose their held frames, what waits for them, and their slots (R330). -/
def State.passQuit (s : State) : State :=
  ((List.finRange 8).filter fun j : Fin 8 => j.val != 0 && !bit s.passWanted j.val).foldl
    (fun t j => (t.loseHeld (.pass j)).clearLine (.pass j)) s

/-- The slots that a mask of south links and one of pass-through links take from the north link. -/
def takenSlot (ports pass n : Nat) : Bool :=
  if n ≥ 512 then bit ports ((1023 - n) / 64) else if n ≥ 64 then bit pass ((575 - n) / 64) else false

/-- The north link's slots in ascending order. -/
def State.northSlots (s : State) : List Nat :=
  (List.range 1024).filter fun n => !takenSlot s.north.slotPorts s.north.slotPass n

/-- The number of slots of a link. -/
def State.share (s : State) : LinkId → Nat
  | .north => 1024 - 64 * (popcount 8 s.north.slotPorts + popcount 8 s.north.slotPass)
  | _ => 64

/-- The slot of frame n of a link. -/
def State.slotOfFrame (s : State) (l : LinkId) (n : Nat) : Nat :=
  match l with
  | .north => s.northSlots.getD (n % s.share .north) 0
  | .south k => 960 - 64 * k.val + n % 64
  | .pass j => 512 - 64 * j.val + n % 64

/-- The effective window W of a link; under Ragil 1.2 at most 256 frames (R329, R343). -/
def State.windowOf (s : State) (l : LinkId) : Nat :=
  min (min (s.o Obj.RG_WINDOW) (s.share l)) (if s.o Obj.RG_VERSION = 1 then 256 else 1024)

/-- A change of the north link's slots is due (R330). -/
def State.repartDue (s : State) : Bool :=
  s.north.slotPorts != s.portsWanted || s.north.slotPass != s.passWanted

/-- The new slot set applies (R330). -/
def State.repartition (s : State) : State :=
  { s with north := { s.north with slotPorts := s.portsWanted, slotPass := s.passWanted } }

/-- REPARTITION: it applies once the north link holds no frame. -/
def State.repartIfFree (s : State) : State :=
  if s.repartDue && (s.tx .north).held.isEmpty then s.repartition else s

/-! ### Release and rewind (R328, R331, R332) -/

/-- The sequence number that the sender sends next after frames have left: a held one, or next. -/
def LinkTx.fixPtr (t : LinkTx) : LinkTx :=
  if t.held.any fun f => f.seq == t.ptr then t
  else { t with ptr := match t.held with | f :: _ => if t.ptr = t.next then t.next else f.seq | [] => t.next }

/-- The frames before frame n leave the window; frame n too when it is included. -/
def State.freeBefore (s : State) (l : LinkId) (n : Nat) (incl : Bool) : State :=
  let t := s.tx l
  let i := (t.held.takeWhile fun f => f.seq != n).length + b2n incl
  (s.setTx l { t with held := t.held.drop i, stalled := false }.fixPtr).releaseFrames (t.held.take i)

/-- A rewind to frame n (R331). -/
def State.rewind (s : State) (l : LinkId) (n : Nat) : State :=
  let t := s.tx l
  (s.setTx l { t with ptr := n, held := t.held.map fun f => { f with again := none } }).bump (rewindKey l)

/-- A rewind to the mark, when a frame is held. -/
def State.rewindMark (s : State) (l : LinkId) : State :=
  match (s.tx l).held with
  | f :: _ => s.rewind l f.seq
  | [] => s

/-- The sender restarts at sequence number 0: every held frame is discarded and counted; a re-partition that is due applies
(R316, R330). -/
def State.restartTx (s : State) (l : LinkId) : State :=
  let t := s.tx l
  let s := ((s.setTx l {}).releaseFrames t.held).bumpBy (lostKey l) t.held.length
  if l = .north then s.repartIfFree else s

/-! ### DOWN and UP (R314, R316, R345) -/

/-- The north link enters DOWN (R314): waiting trigger-primitive words are dropped, and the fault condition of R550 arises
in Run and Degraded. -/
def State.northDown (s : State) (keep : Bool) : State :=
  if s.o Obj.RG_LSTATE = 0 then s
  else
    let was := s.o Obj.RG_LSTATE
    let s := (s.linkDown .north keep).tpDropAll
    let s := s.setO Obj.RG_LANEMAP 0
    let s : State := { s with north := { s.north with rxlock := none, removed := 0 } }
    if was = 3 ∧ s.inRun = true ∧ s.ob Obj.FLT_ACTIVE 11 = false then
      ((s.stage 0x0502 0 0 (bytesLE 1 0 ++ bytesLE 1 (s.o (Obj.LN_ASTATE 8)))).ariseIf 11).settle
    else s.settle

/-- South link k enters DOWN: a port in UP passes to DOWN, where outstanding queries close; a port in LINK returns to CLOCK
(R214, R218). What the port buffer holds of a sub-event stays, as the link may resume within it (R238). -/
def State.southDown (s : State) (k : Nat) (keep : Bool) : State :=
  let s := s.linkDown (.south (portFin k)) keep
  let s := s.setPort k { s.port k with tpWrong := 0, align := none }
  match s.o (Obj.HUB_PSTATE k) with
  | 3 =>
    let s := (s.setPortState k 4).noteEvent 3 (Fin.ofNat 128 k) 16 1000000
    let s := if s.ob Obj.HUB_PORT_EN k && !s.ob Obj.FLT_ACTIVE 12 then
      (s.stage 0x0503 0 k (bytesLE 1 4)).ariseIf 12 else s
    ((s.closePort k).portOff k).settle
  | 2 => (s.setPortState k 1).portOff k
  | _ => s

/-- Frames of a link's sender at UP: resumed at the partner's EXP when it lies in the window, or restarted (R316). -/
def State.resumeTx (s : State) (l : LinkId) (res : Bool) (exp : Nat) : State :=
  let t := s.tx l
  if res && (exp == t.next || t.held.any fun f => f.seq == exp) then
    (s.freeBefore l exp false).rewind l exp
  else s.restartTx l

end Sys2Proof.Machine
end

