-- ==== Sys2Proof/Machine/Lanes.lean ====
section
/-! DEFINITION. Lanes: power states and their sources (R298 to R300), the alignment state machine (R286 to R291), faults
(R292), test patterns (R301, R302), margin scans (R288), and what lane changes do to bundle and links (R293, R314, R317,
R320). -/
namespace Sys2Proof.Machine

/-! ### Lanes as the engine sees them -/

/-- A receiving lane is in LOCKED. -/
def State.locked (s : State) (i : Nat) : Bool := s.pstate i == 0 && s.astate i == 4

/-- The lane synthesisers are held: in CLK_STATE QUALIFY and FALLBACK, until CKIN is accepted (R278, R401, R404). -/
def State.synthHeld (s : State) : Bool := s.o Obj.CLK_STATE == 1 || s.o Obj.CLK_STATE == 4

/-- TXFAULT of a transmitting lane (R292). -/
def State.txFault (s : State) (i : Nat) : Bool := (s.lane i).lol || (s.lane i).swing || s.synthHeld

/-- A transmitting lane carries blocks: in L0 and outside a test mode, with a fault or without (R284, R298, R301). -/
def State.carries (s : State) (i : Nat) : Bool := s.pstate i == 0 && s.o (Obj.LN_TEST i) == 0

/-- A transmitting lane can be in service: in L0, without a fault and outside a test mode (R292, R301). -/
def State.sends (s : State) (i : Nat) : Bool := s.pstate i == 0 && !s.txFault i && s.o (Obj.LN_TEST i) == 0

/-- The lane is used in the role (R277). -/
def State.laneUsed (s : State) (i : Nat) : Bool :=
  match s.o Obj.CF_ROLE with
  | 0 => decide (i ≤ 8)
  | 1 => i == 0 || i == 8
  | 2 => true
  | _ => false

/-- The rate code that a lane takes on leaving L2 (R280). -/
def State.rateFor (s : State) (i : Nat) : Nat :=
  if i < 8 then s.north.rate else if 9 ≤ i ∧ i ≤ 16 then (s.south.get (portFin (i - 9))).rate else 3

/-- RXLOCK in force: of the latest STATUS since UP, and before it the lowest agreed lane alone (R317). -/
def State.rxlockNow (s : State) : Nat :=
  match s.north.rxlock with
  | some m => m
  | none => match bitList 8 s.north.agreed with | j :: _ => 2 ^ j | [] => 0

/-- A pass-through link is UP: with the north link, while its lane is in service, once its slots are its own (R292, R309,
R330, R344). -/
def State.passUp (s : State) (j : Nat) : Bool :=
  s.o Obj.RG_LSTATE == 3 && bit s.passWanted j && bit s.north.slotPass j && s.sends j && bit s.rxlockNow j

/-- LN_STATUS (R308). -/
def State.laneStatus (s : State) (i : Nat) : Nat :=
  let x := s.lane i
  let service := if i < 8 then bit (s.o Obj.RG_LANEMAP) i || s.passUp i
    else if isRx i then s.locked i else s.sends i
  b2n (!isRx i && s.laneUsed i && s.txFault i) * 2 ^ 6 + b2n (isRx i && x.prbsLock) * 2 ^ 5 + b2n (isRx i && s.astate i == 4) * 2 ^ 4
    + b2n x.lol * 2 ^ 3 + b2n (isRx i && x.los) * 2 ^ 2 + b2n (!s.laneUsed i) * 2 + b2n service

/-- S_CKOk sends fX: in the port states CLOCK, LINK, UP and DOWN while the lane clocks run; it is a static differential 0
otherwise (R214, R238, R282). -/
def State.ckoRuns (s : State) (k : Nat) : Bool :=
  s.isHub && s.o Obj.CLK_STATE == 3 && !s.pinTest && decide (1 ≤ s.o (Obj.HUB_PSTATE k)) && decide (s.o (Obj.HUB_PSTATE k) ≤ 4)

/-- N_TCK: the rate code whose bit rate divided by 8 it carries, while an N_TX lane is in L0 or L1, for N_TX0 alone in a leaf;
none while it is stopped at differential 0 (R281, R304). -/
def State.tckRate (s : State) : Option Nat :=
  ((List.range (if s.o Obj.CF_ROLE = 1 then 1 else 8)).find? fun i => s.pstate i != 2).map fun i => s.o (Obj.LN_RATE i)

/-- A synthesiser runs while a lane or clock output that it serves is in L0 or L1 (R278): LPLL0 for rate code 0 and S_CKO,
LPLL1 for the other rates. -/
def State.synthOn (s : State) (n : Nat) : Bool :=
  if n = 0 then s.tckRate == some 0 || (List.range 8).any s.ckoRuns
  else match s.tckRate with
    | some r => r != 0 || s.pstate 8 != 2 || (List.range 8).any fun k => s.pstate (17 + k) != 2
    | none => s.pstate 8 != 2 || (List.range 8).any fun k => s.pstate (17 + k) != 2

/-- LN_SYNTH (R306). -/
def State.lnSynth (s : State) : Nat :=
  let lk (n : Nat) : Bool := s.synthOn n && !bit s.synthLost n
  b2n (s.synthOn 1) * 8 + b2n (s.synthOn 0) * 4 + b2n (lk 1) * 2 + b2n (lk 0)

/-! ### Power states (R298 to R300) -/

/-- The state that the owner of a lane asks for (R214, R299, R320, R523). -/
def State.laneOwner (s : State) (i : Nat) : Nat :=
  if s.o Obj.PWR_STATE = 2 ∧ s.power.unparking = false then (if (i = 0 ∨ i = 8) ∧ s.flag Obj.PWR_PARK_LINK = true then 0 else 2)
  else if i < 8 then
    (if bit s.passWanted i then 0
     else if bit s.north.removed i then s.o Obj.LN_UNUSED
     else if i = 0 ∨ bit (s.north.agreed &&& s.o Obj.RG_BUNDLE_REQ) i = true then 0
     else s.o Obj.LN_UNUSED)
  else if i = 8 then 0
  else if s.o (Obj.HUB_PSTATE ((i - 9) % 8)) = 0 then 2 else 0

/-- The state requested for a lane, from the first source that applies (R299, R303). -/
def State.laneWant (s : State) (i : Nat) : Nat :=
  if !s.laneUsed i || s.o Obj.CLK_STATE != 3 || s.pinTest then 2
  else if s.o (Obj.LN_PCTRL i) ≠ 0 then s.o (Obj.LN_PCTRL i)
  else s.laneOwner i

/-- A lane enters L1; a receiver in LOCKED keeps its boundary (R289, R300). -/
def State.laneL1 (s : State) (i : Nat) : State :=
  let a := if isRx i then (if s.astate i = 4 then 5 else 1) else 1
  ((s.setO (Obj.LN_PSTATE i) 1).setO (Obj.LN_ASTATE i) a).setLane i
    { s.lane i with scanning := false, prbsLock := false, los := false, window := [], valid := 0 }

/-- A receiver in WAIT whose LOS and LOL are clear goes on to SCAN (R289). -/
def State.tryScan (s : State) (i : Nat) : State :=
  if s.pstate i = 0 ∧ s.astate i = 1 ∧ (s.lane i).los = false ∧ (s.lane i).lol = false then s.setO (Obj.LN_ASTATE i) 2
  else s

/-- One lane follows its request downwards at once; exits end by their own commands. -/
def State.laneFollow (s : State) (i : Nat) : State :=
  let w := s.laneWant i
  let p := s.pstate i
  if p ≠ 2 ∧ w = 2 then s.laneL2 i
  else if p = 0 ∧ w = 1 then s.laneL1 i
  else s

/-- Every lane follows its request. -/
def State.lanesFollow (s : State) : State := (List.range 25).foldl State.laneFollow s

/-! ### The bundle (R317, R319, R320) -/

/-- The lanes that meet every condition of R317. -/
def State.eligible (s : State) : Nat :=
  let m := s.north.agreed &&& s.o Obj.RG_BUNDLE_REQ &&& s.rxlockNow
  ((List.range 8).filter fun j => bit m j && s.sends j).foldl (fun a j => setBit a j true) 0

/-- An ALIGN row of a kind goes out on the north bundle (R319). -/
def State.alignRow (s : State) (kind : Nat) : State :=
  let s := s.emit (.row .north s.north.acnt (s.o Obj.RG_LANEMAP) kind)
  { s with north := { s.north with acnt := (s.north.acnt + 1) % 256 } }

/-- The fault condition and event of a short bundle (R550, R556). -/
def State.bundleEvent (s : State) (lane cause : Nat) : State :=
  if s.bundleShort && !s.ob Obj.FLT_ACTIVE 10 then
    (s.stage 0x0501 0 lane (bytesLE 1 (s.o Obj.RG_LANEMAP) ++ bytesLE 1 s.north.agreed ++ bytesLE 1 cause)).ariseIf 10
  else s

/-- Lanes that meet R317 no longer leave the map: a row of KIND 1 and a rewind to the mark; with an empty map the link
enters DOWN (R320). -/
def State.restripe (s : State) : State :=
  let gone := s.o Obj.RG_LANEMAP &&& (0xFF ^^^ s.eligible)
  if s.o Obj.RG_LSTATE ≠ 3 ∨ gone = 0 then s
  else
    let map := s.o Obj.RG_LANEMAP &&& s.eligible
    if map = 0 then s.northDown true
    else
      let j := (bitList 8 gone).headD 0
      let cause := if s.sends j then 1 else 0
      let s := (s.setO Obj.RG_LANEMAP map).bump Obj.RG_RESTRIPE
      let s : State := { s with north := { s.north with removed := s.north.removed ||| gone } }
      (((s.alignRow 1).rewindMark .north).bundleEvent j cause).settle

/-! ### Links follow lanes (R214, R293, R314) -/

/-- CAPS is entered from DOWN when the receiving lane is LOCKED and a sending lane is in L0 (R314). -/
def State.enterCaps (s : State) (l : LinkId) : State :=
  (s.setO (linkStateKey l) 1).setCaps l { res := (s.caps l).res }

/-- A lane on which the north link can send. -/
def State.northSends (s : State) : Bool :=
  (List.range 8).any fun j => (j == 0 || bit s.north.agreed j) && s.sends j

/-- The north link follows its lanes. -/
def State.northFollow (s : State) : State :=
  match s.o Obj.RG_LSTATE with
  | 0 => if s.locked 8 && s.northSends then s.enterCaps .north else s
  | 1 => if s.locked 8 && s.northSends then s else s.northDown true
  | 2 => if s.locked 8 then s else s.northDown true
  | _ => if s.locked 8 then s.restripe else s.northDown true

/-- The rate code of S_RXk. -/
def State.setSouthRate (s : State) (k r : Nat) : State :=
  { s with south := s.south.set (portFin k) { s.south.get (portFin k) with rate := r } }

/-- A port back in CLOCK receives at rate code 3, through L2 (R280, R342). -/
def State.clockRate (s : State) (k : Nat) : State :=
  if s.o (Obj.HUB_PSTATE k) = 1 ∧ (s.south.get (portFin k)).rate ≠ 3 then (s.setSouthRate k 3).laneL2 (9 + k) else s

/-- South link k and its port follow their lanes; during a rate change the receiver's loss of alignment is the link's own, but
for a Hold, in which every link enters DOWN (R314, R345). -/
def State.southFollow (s : State) (k : Nat) : State :=
  let ok := s.locked (9 + k)
  let st := s.o (Obj.RG_SSTATE k)
  let ps := s.o (Obj.HUB_PSTATE k)
  if ps = 0 then (if st = 0 then s else s.linkDown (.south (portFin k)) true)
  else if ok then
    let s := if (st = 1 ∨ st = 3) ∧ s.sends (17 + k) = false then s.southDown k true else s
    let ps := s.o (Obj.HUB_PSTATE k)
    let st := s.o (Obj.RG_SSTATE k)
    let s := if ps = 1 ∨ ps = 4 then s.setPortState k 2 else s
    if (st = 0 ∨ st = 2) ∧ ps ≠ 0 ∧ s.sends (17 + k) = true then s.enterCaps (.south (portFin k)) else s
  else if st = 2 ∧ s.o Obj.CLK_STATE = 3 then s
  else if st ≠ 0 ∨ ps = 2 ∨ ps = 3 then (s.southDown k true).clockRate k
  else s

/-- The north lanes have returned after a CKIN failure: the lanes are clocked, and every N_TX lane that is wanted in L0 is there
(R209, R403). -/
def State.northReturned (s : State) : Bool :=
  s.o Obj.CLK_STATE == 3 && (List.range 8).all fun i => s.laneWant i != 0 || s.pstate i == 0

/-- Answers wait for the north lanes no longer, once those have returned (R209). -/
def State.northHand (s : State) : State :=
  if s.north.held && s.northReturned then { s with north := { s.north with held := false } } else s

/-- Lanes, then links, then lanes again follow what has changed. -/
def State.follow (s : State) : State :=
  let s := s.lanesFollow.northFollow
  let s := if s.isHub then (List.range 8).foldl State.southFollow s else s
  s.lanesFollow.northHand.settle

/-- A transmitting lane's LN_ASTATE in L0 (R307). -/
def State.txState (s : State) (i : Nat) : Nat := if s.o (Obj.LN_TEST i) = 0 then 2 else 6

/-- A lane leaves L2 (R285, R298): entering it has left the scrambler at all ones, and a test pattern's generator too. -/
def State.leaveL2 (s : State) (i : Nat) : State :=
  let s := (s.setO (Obj.LN_PSTATE i) 0).setO (Obj.LN_RATE i) (s.rateFor i)
  let s := if isRx i then (s.setO (Obj.LN_ASTATE i) 1).tryScan i else s.setO (Obj.LN_ASTATE i) (s.txState i)
  if i = 0 ∧ s.o Obj.RG_LSTATE = 2 then s.enterCaps .north else s

/-- LANE_L2_EXIT_DONE. -/
def State.l2ExitDone (s : State) (i : Nat) : State :=
  if s.pstate i = 2 ∧ s.laneWant i ≠ 2 then (s.leaveL2 i).follow else s

/-- LANE_L1_EXIT_DONE: a receiver in IDLE is LOCKED again, its window empty; any other, and one for which a test mode has been
selected meanwhile, resumes in WAIT (R289, R300, R301). -/
def State.l1ExitDone (s : State) (i : Nat) : State :=
  if s.pstate i = 1 ∧ s.laneWant i = 0 then
    let s := s.setO (Obj.LN_PSTATE i) 0
    let s :=
      if !isRx i then s.setO (Obj.LN_ASTATE i) (s.txState i)
      else if s.astate i = 5 ∧ s.o (Obj.LN_TEST i) = 0 then (s.setO (Obj.LN_ASTATE i) 4).bump (Obj.LN_LOCKS i)
      else (s.setO (Obj.LN_ASTATE i) 1).tryScan i
    s.follow
  else s

/-! ### Alignment (R286 to R291) -/

/-- The place of the largest count, the lowest of equals. -/
def argmax (d : List Nat) : Nat :=
  (d.zipIdx.foldl (fun (b : Nat × Nat) e => if e.1 > b.1 then e else b) (d.headD 0, 0)).2

/-- PHASE_SCAN_DONE: the phase select is half a UI from the data edge; then HUNT, or PRBS when a test mode is selected
(R286, R289). -/
def State.phaseScanDone (s : State) (i : Nat) (d : List Nat) : State :=
  if isRx i && s.pstate i == 0 && s.astate i == 2 then
    let s := s.setO (Obj.LN_PHASE i) ((argmax d + 8) % 16)
    let s := s.setO (Obj.LN_ASTATE i) (if s.o (Obj.LN_TEST i) = 0 then 3 else 6)
    s.setLane i { s.lane i with valid := 0, window := [] }
  else s

/-- PHASE_TRACK_WINDOW: one step when the vote is beyond 512 either way (R287). -/
def State.phaseTrack (s : State) (i early late : Nat) : State :=
  let a := s.astate i
  if isRx i && s.pstate i == 0 && (a == 2 || a == 3 || a == 4 || a == 6) then
    if early > late + 512 then (s.setO (Obj.LN_PHASE i) ((s.o (Obj.LN_PHASE i) + 1) % 16)).bump (Obj.LN_TRK_STEPS i)
    else if late > early + 512 then (s.setO (Obj.LN_PHASE i) ((s.o (Obj.LN_PHASE i) + 15) % 16)).bump (Obj.LN_TRK_STEPS i)
    else s
  else s

/-- The receiver falls out of alignment into a state. -/
def State.laneFall (s : State) (i to_ : Nat) : State :=
  (s.setO (Obj.LN_ASTATE i) to_).setLane i { s.lane i with window := [], valid := 0, prbsLock := false, scanning := false }

/-- A loss of alignment: counted, and HUNT begins (R290). -/
def State.alignLoss (s : State) (i : Nat) : State := ((s.bump (Obj.LN_ALIGN_LOSS i)).laneFall i 3).follow

/-- HUNT_TIMEOUT: 4,224 blocks without lock (R290). -/
def State.huntTimeout (s : State) (i : Nat) : State :=
  if isRx i && s.pstate i == 0 && s.astate i == 3 then s.laneFall i 2 else s

/-- A header seen in HUNT: the 64th valid one in a row locks (R290). -/
def State.huntHeader (s : State) (i : Nat) (valid : Bool) : State :=
  let n := if valid then (s.lane i).valid + 1 else 0
  if n ≥ 64 then
    (((s.setO (Obj.LN_ASTATE i) 4).bump (Obj.LN_LOCKS i)).setLane i { s.lane i with valid := 0, window := [] }).follow
  else s.setLane i { s.lane i with valid := n }

/-- A header seen in LOCKED enters the sliding window; invalid ones are counted (R290). -/
def State.lockedHeader (s : State) (i : Nat) (valid : Bool) : State :=
  let s := if valid then s else s.bump (Obj.LN_SH_ERR i)
  s.setLane i { s.lane i with window := (valid :: (s.lane i).window).take 64 }

/-- The window holds 16 invalid headers. -/
def State.windowBad (s : State) (i : Nat) : Bool := decide (16 ≤ ((s.lane i).window.filter fun v => !v).length)

/-- RECEIVE_BUFFER_OVERFLOW: the lane leaves alignment (R283). -/
def State.rxOverflow (s : State) (i : Nat) : State :=
  if isRx i && s.pstate i == 0 && s.astate i == 4 then s.alignLoss i else s

/-- LOS_ASSERT: not acted on in L1 and L2 (R291). -/
def State.losAssert (s : State) (i : Nat) : State :=
  if isRx i && s.pstate i == 0 && !(s.lane i).los then
    let s := (s.bump (Obj.LN_LOS_CNT i)).laneFall i 1
    (s.setLane i { s.lane i with los := true }).follow
  else s

/-- LOS_CLEAR. -/
def State.losClear (s : State) (i : Nat) : State :=
  if isRx i then ((s.setLane i { s.lane i with los := false }).tryScan i).follow else s

/-- A lane signals LOL: a receiver goes to WAIT, a transmitter has a fault (R289, R291, R292). -/
def State.laneLol (s : State) (i : Nat) : State :=
  if s.pstate i = 2 ∨ (s.lane i).lol = true then s
  else
    let s := (s.bump (Obj.LN_LOL_CNT i)).setLane i { s.lane i with lol := true }
    if isRx i then s.laneFall i 1 else s

/-- A lane is served by a synthesiser: N_RX and the transmitters (R277, R278). -/
def State.servedBy (s : State) (i n : Nat) : Bool :=
  if i < 8 then (if s.o (Obj.LN_RATE i) = 0 then n == 0 else n == 1) else if isRx i then i == 8 && n == 1 else n == 1

/-- LOL_ASSERT: of one lane, or of a synthesiser with every lane it serves; a CKIN failure's are not counted (R291,
R306). -/
def State.lolAssert (s : State) (i : Nat) (synth : Option (Fin 2)) : State :=
  match synth with
  | none => (s.laneLol i).follow
  | some n =>
    if s.o Obj.CLK_STATE ≠ 3 then s
    else
      let s : State := { s.bump Obj.LN_SYNTH_LOL with synthLost := setBit s.synthLost n true }
      ((List.range 25).foldl (fun s j => if s.servedBy j n then s.laneLol j else s) s).follow

/-- A lane's LOL clears. -/
def State.laneLolClear (s : State) (i : Nat) : State := (s.setLane i { s.lane i with lol := false }).tryScan i

/-- LOSS_OF_LOCK_CLEAR: of one lane, or of a synthesiser with every lane it serves. -/
def State.lolClear (s : State) (i : Nat) (synth : Option (Fin 2)) : State :=
  match synth with
  | none => (s.laneLolClear i).follow
  | some n =>
    let s : State := { s with synthLost := setBit s.synthLost n false }
    ((List.range 25).foldl (fun s j => if s.servedBy j n then s.laneLolClear j else s) s).follow

/-- TX_FAULT: the output monitor of a sending lane sees less than half of the set swing (R292). -/
def State.txFaultSet (s : State) (i : Nat) : State :=
  if !isRx i && s.pstate i == 0 then (s.setLane i { s.lane i with swing := true }).follow else s

/-! ### Margin scan (R288) -/

/-- LN_EYE_CTRL is judged at its execution. -/
def State.eyeCheck (s : State) (i v : Nat) : Status :=
  if !isRx i then .outOfRange
  else if v ≠ 1 then .outOfRange
  else if s.pstate i = 0 ∧ (s.astate i = 4 ∨ s.astate i = 6) ∧ (s.lane i).scanning = false then .ok
  else .functionRunning

/-- A margin scan starts. -/
def State.eyeStart (s : State) (i : Nat) : State :=
  if s.eyeCheck i 1 = .ok then s.setLane i { s.lane i with scanning := true } else s

/-- The agreeing phases that adjoin phase p upwards, at most n. -/
def runUp (m : Nat) : Nat → Nat → Nat
  | 0, _ => 0
  | n + 1, p => if bit m p then 1 + runUp m n ((p + 1) % 16) else 0

/-- The agreeing phases that adjoin phase p downwards, at most n. -/
def runDown (m : Nat) : Nat → Nat → Nat
  | 0, _ => 0
  | n + 1, p => if bit m p then 1 + runDown m n ((p + 15) % 16) else 0

/-- The contiguous agreeing phases around the data sampler's (R288). -/
def eyeWidth (m p : Nat) : Nat :=
  if bit m p then (let up := runUp m 15 ((p + 1) % 16); 1 + up + runDown m (15 - up) ((p + 15) % 16)) else 0

/-- MARGIN_SCAN_DONE: bit p of m says that phase p saw no disagreement. -/
def State.marginDone (s : State) (i m : Nat) : State :=
  if (s.lane i).scanning then
    (s.setO (Obj.LN_EYEW i) (eyeWidth m (s.o (Obj.LN_PHASE i)))).setLane i { s.lane i with scanning := false }
  else s

/-! ### Test patterns (R301, R302) -/

/-- LN_TEST is judged at its execution. -/
def testModeCheck (v : Nat) : Status := if v ≤ 2 then .ok else .outOfRange

/-- LN_TEST takes effect at the next block boundary; a pattern that is sent starts from all ones (R301). -/
def State.laneTest (s : State) (i v : Nat) : State :=
  let was := s.o (Obj.LN_TEST i)
  let s := s.setO (Obj.LN_TEST i) v
  let s := if v = 0 then s else s.setLane i { s.lane i with gen := 2 ^ 31 - 1 }
  let s :=
    if s.pstate i ≠ 0 then s
    else if !isRx i then s.setO (Obj.LN_ASTATE i) (s.txState i)
    else if v = 0 then (if was = 0 then s else (s.laneFall i 1).tryScan i)
    else (s.laneFall i 1).tryScan i
  s.follow

/-- PRBS_SYNC: the checker is in sync, its register given. -/
def State.prbsSync (s : State) (i reg : Nat) : State :=
  if isRx i && s.pstate i == 0 && s.astate i == 6 then s.setLane i { s.lane i with prbsLock := true, prbsReg := reg } else s

/-- PRBS_SYNC_LOSS: the checker leaves sync and reloads. -/
def State.prbsLoss (s : State) (i : Nat) : State := s.setLane i { s.lane i with prbsLock := false }

/-- The next bit of x^31 + x^28 + 1 from a register whose bit 0 is the newest bit. -/
def prbsNext (r : Nat) : Bool := bit r 30 != bit r 27

/-- Bits compared by the checker in sync: its register runs free; the count of disagreeing bits (R302). -/
def prbsCompare (inv : Bool) : Nat → List Bool → Nat × Nat
  | r, [] => (r, 0)
  | r, b :: l =>
    let x := prbsNext r
    let q := prbsCompare inv ((2 * r + b2n x) % 2 ^ 31) l
    (q.1, q.2 + b2n (b != (x != inv)))

/-- The 66 bits of a block on the line: sync header, then payload, bit 0 first (R284). -/
def lineBits (h p : Nat) : List Bool := (List.range 2).map (bit h) ++ (List.range 64).map (bit p)

/-- One bit through the descrambler x^58 + x^39 + 1, whose register holds the bits received last, the newest as bit 0: the
register and the bit (R284). -/
def descrambleBit (r : Nat) (b : Bool) : Nat × Bool := ((2 * r + b2n b) % 2 ^ 58, b != (bit r 38 != bit r 57))

/-- One bit through the scrambler, whose register holds the bits sent last (R284). -/
def scrambleBit (r : Nat) (b : Bool) : Nat × Bool :=
  let x := b != (bit r 38 != bit r 57)
  ((2 * r + b2n x) % 2 ^ 58, x)

/-- Bits n to n + m - 1 of a payload through a register, the first as the lowest bit of the result. -/
def throughRegister (f : Nat → Bool → Nat × Bool) : Nat → Nat → Nat → Nat × Nat
  | 0, r, _ => (r, 0)
  | m + 1, r, w =>
    let x := f r (bit w 0)
    let q := throughRegister f m x.1 (w / 2)
    (q.1, b2n x.2 + 2 * q.2)

/-- A block as the line brings it to the lane: LN_POLINV inverts every bit ahead of the deserialiser (R294). -/
def State.lineIn (s : State) (i h w : Nat) : Nat × Nat :=
  if s.flag (Obj.LN_POLINV i) then (h ^^^ 3, w ^^^ (2 ^ 64 - 1)) else (h, w)

/-- A received payload is descrambled, the register taking its bits (R284, R285). -/
def State.descramble (s : State) (i w : Nat) : State × Nat :=
  let x := throughRegister descrambleBit 64 (s.lane i).descr w
  (s.setLane i { s.lane i with descr := x.1 }, x.2)

/-- 66 received bits of a lane in PRBS: compared and counted in sync (R302). -/
def State.prbsBits (s : State) (i h p : Nat) : State :=
  if (s.lane i).prbsLock then
    let r := prbsCompare (s.o (Obj.LN_TEST i) == 1) (s.lane i).prbsReg (lineBits h p)
    let s := s.setLane i { s.lane i with prbsReg := r.1 }
    let s := s.bumpBy (Obj.LN_PRBS_ERR i) r.2
    s.setO (Obj.LN_PRBS_BITS i) (satAdd 64 (s.o (Obj.LN_PRBS_BITS i)) 66)
  else s

/-! ### The host's requests (R299) -/

/-- LN_PCTRL is judged at its execution. -/
def State.pctrlCheck (s : State) (i v : Nat) : Status :=
  if !s.laneUsed i then .functionRunning else if v ≤ 2 then .ok else .outOfRange

/-- LN_PCTRL takes effect at a tick. -/
def State.pctrlEffect (s : State) (i v : Nat) : State := (s.setO (Obj.LN_PCTRL i) v).follow

/-- RG_BUNDLE_REQ takes effect: a lane admitted anew may join again (R317, R320). -/
def State.bundleReqEffect (s : State) (v : Nat) : State :=
  let new := v &&& (0xFF ^^^ s.o Obj.RG_BUNDLE_REQ)
  let s := s.setO Obj.RG_BUNDLE_REQ v
  let s : State := { s with north := { s.north with removed := s.north.removed &&& (0xFF ^^^ new) } }
  s.follow

/-! ### The commands -/

/-- LN_PCTRL_WRITE (R299). -/
def execLnPctrlWrite (q : Req) (i : Lane) (v : BitVec 8) (s : State) : Host.Outcome State Fault Refusal :=
  .next (s.ifRequest q (s.hostWrite q (Obj.LN_PCTRL i) false (s.pctrlCheck i v.toNat) (s.pendLive (Obj.LN_PCTRL i) v.toNat)))

/-- LANE_L2_EXIT_DONE. -/
def execLaneL2ExitDone (i : Lane) (s : State) : Host.Outcome State Fault Refusal := .next (s.ifAwake (s.l2ExitDone i))

/-- LANE_L1_EXIT_DONE. -/
def execLaneL1ExitDone (i : Lane) (s : State) : Host.Outcome State Fault Refusal := .next (s.ifAwake (s.l1ExitDone i))

/-- PHASE_SCAN_DONE: d holds the counts D(0) to D(15). -/
def execPhaseScanDone (i : Lane) (d : Vector (Fin 4097) 16) (s : State) : Host.Outcome State Fault Refusal :=
  .next (s.ifAwake (s.phaseScanDone i (d.toList.map Fin.val)))

/-- PHASE_TRACK_WINDOW: the early and late votes of 4,096 transitions. -/
def execPhaseTrackWindow (i : Lane) (early late : Fin 4097) (s : State) : Host.Outcome State Fault Refusal :=
  .next (s.ifAwake (s.phaseTrack i early late))

/-- LN_EYE_SCAN_START (R288). -/
def execLnEyeScanStart (q : Req) (i : Lane) (s : State) : Host.Outcome State Fault Refusal :=
  .next (s.ifRequest q (s.hostWrite q (Obj.LN_EYE_CTRL i) false (s.eyeCheck i 1) (s.pendLive (Obj.LN_EYE_CTRL i) 1)))

/-- MARGIN_SCAN_DONE. -/
def execMarginScanDone (i : Lane) (m : BitVec 16) (s : State) : Host.Outcome State Fault Refusal :=
  .next (s.ifAwake (s.marginDone i m.toNat))

/-- HUNT_TIMEOUT. -/
def execHuntTimeout (i : Lane) (s : State) : Host.Outcome State Fault Refusal := .next (s.ifAwake (s.huntTimeout i))

/-- LOS_ASSERT. -/
def execLosAssert (i : Lane) (s : State) : Host.Outcome State Fault Refusal := .next (s.ifAwake (s.losAssert i))

/-- LOS_CLEAR. -/
def execLosClear (i : Lane) (s : State) : Host.Outcome State Fault Refusal := .next (s.ifAwake (s.losClear i))

/-- LOL_ASSERT. -/
def execLolAssert (i : Lane) (n : Option (Fin 2)) (s : State) : Host.Outcome State Fault Refusal := .next (s.ifAwake (s.lolAssert i n))

/-- LOSS_OF_LOCK_CLEAR. -/
def execLossOfLockClear (i : Lane) (n : Option (Fin 2)) (s : State) : Host.Outcome State Fault Refusal := .next (s.ifAwake (s.lolClear i n))

/-- TX_FAULT. -/
def execTxFault (i : Lane) (s : State) : Host.Outcome State Fault Refusal := .next (s.ifAwake (s.txFaultSet i))

/-- LN_TEST_WRITE (R301). -/
def execLnTestWrite (q : Req) (i : Lane) (v : BitVec 8) (s : State) : Host.Outcome State Fault Refusal :=
  .next (s.ifRequest q (s.hostWrite q (Obj.LN_TEST i) true (testModeCheck v.toNat) (s.laneTest i v.toNat)))

/-- PRBS_SYNC. -/
def execPrbsSync (i : Lane) (reg : BitVec 31) (s : State) : Host.Outcome State Fault Refusal := .next (s.ifAwake (s.prbsSync i reg.toNat))

/-- PRBS_SYNC_LOSS. -/
def execPrbsSyncLoss (i : Lane) (s : State) : Host.Outcome State Fault Refusal := .next (s.ifAwake (s.prbsLoss i))

/-- RECEIVE_BUFFER_OVERFLOW. -/
def execReceiveBufferOverflow (i : Lane) (s : State) : Host.Outcome State Fault Refusal := .next (s.ifAwake (s.rxOverflow i))

end Sys2Proof.Machine
end

