-- ==== Sys2Proof/Machine/Message.lean ====
section
/-! DEFINITION. The format of a Cufel message (R454). -/
namespace Sys2Proof.Machine

/-- Header and body of a message (R454). -/
def Msg.headBody (m : Msg) : List Byte :=
  bytesLE 16 (m.mtype * 2 ^ 120 + 2 * 2 ^ 116 + m.alive * 2 ^ 112 + m.tid * 2 ^ 104 + m.dst * 2 ^ 88 + m.src * 2 ^ 72
    + m.status * 2 ^ 64 + b2n m.resp * 2 ^ 63 + m.body.length * 2 ^ 40) ++ m.body

/-- The bytes of a message: header, body, CRC (R454). -/
def Msg.bytes (m : Msg) : List Byte := m.headBody ++ bytesLE 4 (crc32c m.headBody)

/-- LEN of a message's header. -/
def msgLen (b : List Byte) : Nat := bits (fromLE (b.take 16)) 55 40

/-- CVER of a message's header. -/
def msgVer (b : List Byte) : Nat := bits (fromLE (b.take 16)) 119 116

/-- DST of a message's header. -/
def msgDst (b : List Byte) : Nat := bits (fromLE (b.take 16)) 103 88

/-- The header of a byte string is whole, and its length fits what it arrived in. -/
def msgFits (b : List Byte) : Bool := decide (20 ≤ b.length) && decide (msgLen b ≤ 492) && decide (20 + msgLen b ≤ b.length)

/-- The CRC of a message that fits agrees. -/
def msgCrcOk (b : List Byte) : Bool :=
  fromLE ((b.drop (16 + msgLen b)).take 4) == crc32c (b.take (16 + msgLen b))

/-- The fields of a message that fits. -/
def parseMsg (b : List Byte) : Msg :=
  let h := fromLE (b.take 16)
  { mtype := bits h 127 120, alive := bits h 115 112, tid := bits h 111 104, dst := bits h 103 88, src := bits h 87 72,
    status := bits h 71 64, resp := bit h 63, body := (b.drop 16).take (bits h 55 40) }

end Sys2Proof.Machine
end

