-- ==== Sys2Proof/Machine/Ragil.lean ====
section
/-! DEFINITION. The Ragil protocol above the lanes: CAPS and link-up (R312 to R316), STATUS (R337), the bundle's rows
(R319, R320), frames (R322 to R326), acknowledgements and replay (R327 to R332), and the hub's own blocks to its leaves
(R342, R413). -/
namespace Sys2Proof.Machine

/-! ### CAPS content and agreement (R312, R313) -/

/-- ROLE as CAPS gives it. -/
def State.capsRole (s : State) : Nat :=
  match s.o Obj.CF_ROLE with | 0 => 1 | 1 => 3 | 2 => 2 | _ => 1

/-- The rate code that the device offers: LN_RATE_MAX, and 3 in Parked, whose north link runs at rate code 3 (R312, R521; DESIGN
CHOICE, log entry 179). -/
def State.capsRate (s : State) : Nat :=
  if s.o Obj.PWR_STATE = 2 ∧ s.power.unparking = false then 3 else s.o Obj.LN_RATE_MAX % 4

/-- The CAPS that the device sends on a link. -/
def State.capsContent (s : State) (l : LinkId) : Nat :=
  let lanes := (if s.o Obj.CF_ROLE = 1 then 1 else 0xFF) &&& s.o Obj.RG_BUNDLE_REQ
  let clid := if southLink l then s.clusterId else 0xFFF
  3 * 2 ^ 52 + s.capsRate * 2 ^ 50 + lanes % 256 * 2 ^ 42 + clid * 2 ^ 30 + s.capsRole * 2 ^ 26 + 7 * 2 ^ 22
    + (s.rx l).exp % 4096 * 2 ^ 10 + b2n (s.caps l).res * 2 ^ 9 + (s.caps l).seen * 2 ^ 7

/-- What two CAPS agree on: version, rate code, lane set and features (R313). -/
structure Agreed where
  version : Nat
  rate : Nat
  lanes : Nat
  feat : Nat
  deriving DecidableEq, Repr

/-- The agreement of two CAPS, when there is one. -/
def agree (a b : Nat) : Option Agreed :=
  let v := bits a 53 52 &&& bits b 53 52
  let version := if bit v 1 then 2 else if bit v 0 then 1 else 0
  let feat := bits a 25 22 &&& bits b 25 22
  let feat := if version = 1 then setBit feat 0 false else feat
  let lanes := bits a 49 42 &&& bits b 49 42
  let ok := if bit feat 0 then lanes != 0 else bit lanes 0
  if version = 0 ∨ ok = false then none
  else some { version := version, rate := max (bits a 51 50) (bits b 51 50), lanes := if bit feat 0 then lanes else 1, feat := feat }

/-- A CAPS goes out. -/
def State.sendCaps (s : State) (l : LinkId) : State :=
  let s := s.emitBlock l 0x33 [s.capsContent l]
  let c := s.caps l
  s.setCaps l { c with sentTwo := c.sentTwo || c.seen == 2 }

/-- A leaf takes the cluster id that its hub sends (R29, R190, R315). -/
def State.takeClid (s : State) (id : Nat) : State :=
  if s.o Obj.CF_ROLE = 1 then
    let s := if s.clusterId = 0xFFF ∧ id ≠ 0xFFF then { s with query := { s.query with lastQid := none } } else s
    (s.setO Obj.CF_CLUSTER_ID id).setO Obj.CF_ADDR (id * 16 + s.o Obj.CF_ADDR % 16)
  else s

/-! ### RATE and UP (R314, R316) -/

/-- The agreed values of the north link are shown, and its bundle takes them. -/
def State.northAgreed (s : State) (a : Agreed) : State :=
  let s := ((s.setO Obj.RG_VERSION a.version).setO Obj.RG_FEAT a.feat).setO Obj.RG_RATE a.rate
  { s with north := { s.north with agreed := if s.isHub ∧ s.o Obj.HUB_MODE = 1 then a.lanes &&& 1 else a.lanes } }

/-- The north link enters RATE, in which it sends nothing: the bundle lanes pass through L2 to the agreed rate, and with them every other N_TX lane, as
all share N_TCK (R277, R281; DEDUCED, log entry 155). -/
def State.northRate (s : State) (a : Agreed) : State :=
  let s := (s.northAgreed a).setO Obj.RG_LSTATE 2
  let s := s.setCaps .north { res := true }
  let s : State := ({ s with north := { s.north with rate := a.rate } }).clearLine .north
  ((List.range 8).foldl (fun s i => if s.pstate i = 2 then s else s.laneL2 i) s).follow

/-- A receiver whose own CAPS had RES = 0 expects sequence number 0; the link's state is kept from here on (R312, R316). -/
def State.upReceiver (s : State) (l : LinkId) : State :=
  let s := if (s.caps l).res then s else s.setRx l { s.rx l with exp := 0 }
  s.setCaps l { s.caps l with res := true }

/-- A pass-through link resumes with the north link: from its mark, or from sequence number 0. -/
def State.resumePass (s : State) (res : Bool) : State :=
  (bitList 8 s.passWanted).foldl (fun s j =>
    if res then s.rewindMark (.pass (portFin j)) else s.restartTx (.pass (portFin j))) s

/-- The north link enters UP; the record of a bundle that starts short names its lowest missing lane (ch. 17 §9). -/
def State.northUp (s : State) (a : Agreed) (c : Nat) : State :=
  let s := ((s.northAgreed a).setO Obj.RG_LSTATE 3).bump Obj.RG_LINKUPS
  let s : State := { s with north := { s.north with removed := 0, rxlock := none } }
  let s := (s.resumeTx .north (bit c 9) (bits c 21 10)).upReceiver .north
  let s := (s.resumePass (bit c 9)).takeClid (bits c 41 30)
  let s := s.setO Obj.RG_LANEMAP s.eligible
  if s.o Obj.RG_LANEMAP = 0 then (s.northDown true).follow
  else
    let j := (bitList 8 (s.north.agreed &&& (0xFF ^^^ s.o Obj.RG_LANEMAP))).headD 0
    (s.bundleEvent j (if s.sends j then 1 else 0)).follow

/-- South link k enters RATE, in which it sends nothing: S_RXk passes through L2 to the agreed rate (R314). -/
def State.southRate (s : State) (k : Nat) (a : Agreed) : State :=
  let s := (s.setO (Obj.RG_SVERSION k) a.version).setO (Obj.RG_SSTATE k) 2
  let s := (s.setCaps (.south (portFin k)) { res := true }).clearLine (.south (portFin k))
  ((s.setSouthRate k a.rate).laneL2 (9 + k)).follow

/-- South link k enters UP, and its port with it; the hub is to align the leaf (R214, R413). -/
def State.southUp (s : State) (k : Nat) (a : Agreed) (c : Nat) : State :=
  let l : LinkId := .south (portFin k)
  let s := (s.setO (Obj.RG_SVERSION k) a.version).setO (Obj.RG_SSTATE k) 3
  let s := (s.resumeTx l (bit c 9) (bits c 21 10)).upReceiver l
  let s := (s.setO (Obj.HUB_PKIND k) (if bits c 29 26 = 4 then 2 else 1)).setPortState k 3
  (s.setPort k { s.port k with tpWrong := 0, align := some false }).follow

/-- An exchange that agrees goes on to RATE or UP; a south link stays in CAPS until its replay slots are its own (R314,
R330); an SLF32's link never passes through RATE (R342). -/
def State.capsAgreed (s : State) (l : LinkId) (a : Agreed) (c : Nat) : State :=
  match l with
  | .south k =>
    if !bit s.north.slotPorts k then s
    else if a.rate ≠ (s.south.get k).rate ∧ bits c 29 26 ≠ 4 then s.southRate k a
    else s.southUp k a c
  | _ => if a.rate ≠ s.north.rate then s.northRate a else s.northUp a c

/-- The partner's CAPS is noted: seen once, or twice with the same content; the side's own CAPS answers a change. -/
def State.capsTaken (s : State) (l : LinkId) (c : Nat) : State :=
  let cs := s.caps l
  let seen := match cs.partner with
    | some p => if bits p 55 22 = bits c 55 22 then 2 else 1
    | none => 1
  let s := s.setCaps l { cs with partner := some c, seen := seen }
  if seen = cs.seen then s else s.sendCaps l

/-- What a link has still to put on its lanes holds a CAPS (R340). -/
def State.capsWaits (s : State) (l : LinkId) : Bool :=
  let q : Feed66 := match l with | .north => s.line.north | .south k => s.line.south.get k | .pass j => s.line.pass.get j
  let isCaps (x : Sent) : Bool := match x with | .block m t _ => decide (m = l) && t == 0x33 | _ => false
  (s.out.drop s.line.seen).any isCaps || q.wait.any isCaps

/-- The device has sent SEEN = 2: its CAPS has left for the line (R314). -/
def State.capsLeft (s : State) (l : LinkId) : Bool := (s.caps l).sentTwo && !s.capsWaits l

/-- What two CAPS make of each other: the link goes on once the device has sent SEEN = 2 and received it (R314). -/
def State.capsMeet (s : State) (l : LinkId) (c : Nat) : Option Agreed → State
  | none => s.bumpNorth l Obj.RG_NOAGREE
  | some a => if s.capsLeft l && bits c 8 7 == 2 then s.capsAgreed l a c else s

/-- A CAPS received in CAPS. -/
def State.capsIn (s : State) (l : LinkId) (c : Nat) : State :=
  let s := s.capsTaken l c
  s.capsMeet l c (agree (s.capsContent l) c)

/-- A link in CAPS goes on as soon as its own SEEN = 2 has left, when the partner's has come before (R314). -/
def State.capsProceed (s : State) (l : LinkId) : State :=
  match (s.caps l).partner with
  | none => s
  | some c =>
    let a := agree (s.capsContent l) c
    if s.linkState l = 1 ∧ a.isSome then s.capsMeet l c a else s

/-- A link in UP whose partner starts a new exchange. -/
def State.capsAgain (s : State) (l : LinkId) (c : Nat) : State :=
  let s := match l with | .south k => s.southDown k true | _ => s.northDown true
  let s := match l with | .south k => if s.o (Obj.HUB_PSTATE k) = 4 then s.setPortState k 2 else s | _ => s
  ((s.enterCaps l).capsIn l c).follow

/-- A CAPS received in UP (R314, R315). -/
def State.capsUp (s : State) (l : LinkId) (c : Nat) : State :=
  let cs := s.caps l
  let same := match cs.partner with
    | some p => bits p 55 42 == bits c 55 42 && bits p 29 22 == bits c 29 22
    | none => true
  if same then (s.setCaps l { cs with partner := some c }).takeClid (bits c 41 30) else s.capsAgain l c

/-- CAPS_RECEIVE. -/
def State.capsReceive (s : State) (l : LinkId) (c : Nat) : State :=
  match l with
  | .pass _ => s
  | _ => if s.linkState l = 1 then s.capsIn l c else if s.linkState l = 3 then s.capsUp l c else s

/-- CAPS_SEND. -/
def State.capsDue (s : State) (l : LinkId) : State :=
  match l with
  | .pass _ => s
  | _ => if s.linkState l = 1 then s.sendCaps l else s

/-- A lane of the north bundle: N_TX0 or an agreed lane, and no pass-through link's (R309, R317). -/
def State.bundleLane (s : State) (i : Nat) : Bool := (i == 0 || bit s.north.agreed i) && !bit s.passWanted i

/-- CAPS_TIMEOUT: the link returns to DOWN, and its sending lanes pass through L2. -/
def State.capsTimeout (s : State) (l : LinkId) : State :=
  match l with
  | .pass _ => s
  | .south k =>
    if s.linkState l ≠ 1 then s else ((s.linkDown l (s.caps l).res).laneL2 (17 + k)).follow
  | .north =>
    if s.linkState l ≠ 1 then s
    else
      let s := (s.northDown (s.caps l).res).bump Obj.RG_CAPS_FAIL
      (((List.range 8).filter s.bundleLane).foldl (fun s i => if s.pstate i = 2 then s else s.laneL2 i) s).follow

/-! ### STATUS (R337) -/

/-- The north STATUS. -/
def State.statusContent (s : State) : Nat :=
  b2n s.busy * 2 ^ 55 + b2n (decide (s.o Obj.QRY_THIN_LEVEL ≤ s.query.fill)) * 2 ^ 54 + b2n (s.degrNow != 0) * 2 ^ 53
    + b2n (s.flag Obj.FLT_FAULTN) * 2 ^ 52 + b2n (s.o Obj.NT_STATE != 1) * 2 ^ 51 + b2n (!s.cufel.events.isEmpty) * 2 ^ 50
    + s.xc

/-- A link is in UP. -/
def State.isUp (s : State) (l : LinkId) : Bool :=
  match l with
  | .north => s.o Obj.RG_LSTATE == 3
  | .south k => s.o (Obj.RG_SSTATE k) == 3
  | .pass j => s.passUp j

/-- STATUS_SEND: north flags on the links to the back-end, RXLOCK of the leaf's lane on a south link. -/
def State.statusSend (s : State) (l : LinkId) : State :=
  if !s.isUp l then s
  else match l with
    | .south k => s.emitBlock l 0xCC [b2n (s.locked (9 + k)) * 2 ^ 48]
    | _ => s.emitBlock l 0xCC [s.statusContent]

/-- STATUS_RECEIVE: the partner's RXLOCK decides which lanes carry stream blocks (R317, R320). A leaf's flags are not used. -/
def State.statusReceive (s : State) (l : LinkId) (c : Nat) : State :=
  match l with
  | .north =>
    if s.o Obj.RG_LSTATE ≠ 3 then s
    else ({ s with north := { s.north with rxlock := some (bits c 55 48) } }).follow
  | _ => s

/-! ### Rows and joins (R319, R320) -/

/-- LANE_JOIN: an eligible lane enters the map by a row. -/
def State.laneJoin (s : State) (j : Nat) (scheduled : Bool) : State :=
  if s.o Obj.RG_LSTATE = 3 ∧ bit s.eligible j = true ∧ bit (s.o Obj.RG_LANEMAP) j = false then
    let s := s.setOb Obj.RG_LANEMAP j true
    let s : State := { s with north := { s.north with removed := setBit s.north.removed j false } }
    (s.alignRow (if scheduled then 0 else 2)).settle
  else s

/-- The north link sends ALIGN rows: in DOWN, and in UP unless it runs Ragil 1.2 (R314, R343). -/
def State.sendsRows (s : State) : Bool :=
  s.o Obj.RG_LSTATE == 0 || (s.o Obj.RG_LSTATE == 3 && s.o Obj.RG_VERSION != 1)

/-- ALIGN_ROW: a scheduled row, while a lane of the link sends. -/
def State.rowDue (s : State) (l : LinkId) : State :=
  if !s.sendsRows then s
  else match l with
  | .north => if s.northSends then s.alignRow 0 else s
  | .pass j =>
    if bit s.passWanted j && s.sends j then
      let p := s.pass.get j
      { s.emit (.row l p.acnt (2 ^ j.val) 0) with pass := s.pass.set j { p with acnt := (p.acnt + 1) % 256 } }
    else s
  | .south _ => s

/-! ### Frame contents (R322, R325) -/

/-- SOF content. -/
def sofContent (seq ndb kind : Nat) (first last : Bool) (qid : Nat) : Nat :=
  seq * 2 ^ 44 + (ndb - 1) * 2 ^ 38 + kind * 2 ^ 36 + b2n first * 2 ^ 35 + b2n last * 2 ^ 34 + qid * 2 ^ 18

/-- EOF content (R322). -/
def eofContent (crc seq : Nat) : Nat := crc * 2 ^ 24 + seq * 2 ^ 12

/-- What the CRC of a frame covers: SOF payload bytes 1 to 7, then the data blocks. -/
def frameBytes (sof : Nat) (data : List Byte) : List Byte := bytesLE 7 sof ++ data

/-! ### Frames received (R324, R326) -/

/-- The check unit of a link's received frames (R271). -/
def rxUnit : LinkId → Nat
  | .south k => 18 + k | _ => 17

/-- A NAK(E), unless the hold lasts. -/
def State.nak (s : State) (l : LinkId) (reason : Nat) : State :=
  let r := s.rx l
  if r.nakHold then s
  else
    let s := s.emitBlock l 0xC3 [r.exp * 2 ^ 44 + reason * 2 ^ 36]
    (s.setRx l { r with nakHold := true }).bumpNorth l Obj.RG_NAK_TX

/-- A bad frame: counted, and NAKed with a reason. -/
def State.badFrame (s : State) (l : LinkId) (reason : Nat) : State :=
  (s.bump (match l with | .south k => Obj.RG_SCRC_ERR k | _ => Obj.RG_CRC_ERR)).nak l reason

/-- Position p of a hub's own cluster that an address names. -/
def State.leafPort (s : State) (dst : Nat) : Option Nat :=
  if s.isHub && dst / 16 == s.clusterId && decide (1 ≤ dst % 16) && decide (dst % 16 ≤ 8) then some (dst % 16 - 1) else none

/-- Messages that wait for south port k, in its relay queue or still in the mailbox. -/
def State.relayWaiting (s : State) (k : Nat) : Nat :=
  (s.cufel.relay.getD k []).length + (s.north.mailbox.filter fun b => s.leafPort (msgDst b) == some k).length

/-- The supervisor's mailbox cannot take a CUFEL frame of the back-end or of a leaf: 16 messages wait, the supervisor restarts, boot step 4 is still to
come, or the relay queue of the message's port is full (R326, R460, R463, R531). -/
def State.mailFull (s : State) (l : LinkId) (data : List Byte) : Bool :=
  decide (16 ≤ s.north.mailbox.length + (s.cufel.queue.filter fun e => decide (e.path = .north)).length) || s.cufel.down ||
    !s.ob Obj.PWR_BOOT_STEP 4 ||
    match (if southLink l then none else s.leafPort (msgDst data)) with
    | some k => s.o (Obj.HUB_PSTATE k) == 3 && decide (4 ≤ s.relayWaiting k)
    | none => false

/-- An accepted ANSWER frame of a leaf (R221, R234, R344). -/
def State.leafFrame (s : State) (k sof : Nat) (data : List Byte) : State :=
  let first := bit sof 35
  let last := bit sof 34
  if s.mergeMode then
    let p := s.port k
    let p := { p with building := (if first then [] else p.building) ++ data, qid := if first then bits sof 33 18 else p.qid }
    let s := s.setPort k p
    let s := s.peak (Obj.HUB_BUFPEAK k) (s.portLevel k)
    if last then (s.setPort k { p with building := [] }).leafSubevent k p.qid p.building false else s
  else
    let part : Part :=
      { a := { bytes := data, len := data.length }, first := first, last := last, kind := .relay (s.ptLane k) (bits sof 33 18) }
    let s : State := { s with bld := { s.bld with parts := s.bld.parts ++ [part] } }
    s.peak (Obj.HUB_BUFPEAK k) (s.portLevel k)

/-- A leaf's message goes north: in new frames of the north link, or on the leaf's own lane (R460). -/
def State.leafMessage (s : State) (k : Nat) (data : List Byte) : State :=
  let s := s.wrapBy 32 Obj.CF_RELAY_NORTH 1
  if s.mergeMode then { s with cufel := { s.cufel with relayNorth := s.cufel.relayNorth ++ [data] } }
  else
    let j := portFin (s.ptLane k)
    let p := s.pass.get j
    let s : State := { s with pass := s.pass.set j { p with queue := p.queue ++ [(1, true, true, 0, data)] } }
    s.portFill k (s.port k).fill

/-- What a frame accepted in order brings. -/
def State.deliver (s : State) (l : LinkId) (sof : Nat) (data : List Byte) : State :=
  match l with
  | .south k => if bits sof 37 36 = 0 then s.leafFrame k sof data else s.leafMessage k data
  | _ =>
    { s with north := { s.north with mailbox := s.north.mailbox ++ [data] }, cufel := { s.cufel with order := s.cufel.order ++ [.north] } }

/-- A frame that is not bad, by its sequence number (R326). -/
def State.frameInOrder (s : State) (l : LinkId) (sof : Nat) (data : List Byte) : State :=
  let r := s.rx l
  let seq := bits sof 55 44
  let behind := (r.exp + 4096 - seq) % 4096
  if behind = 0 then
    if bits sof 37 36 = 1 ∧ s.mailFull l data = true then s.badFrame l 3
    else
      let s := s.setRx l { r with exp := (r.exp + 1) % 4096, nakHold := false, ackDue := true }
      let s := if southLink l then s else s.wrapBy 48 Obj.RG_FRAMES_RX 1
      s.deliver l sof data
  else if behind ≤ 1024 then (s.setRx l { r with ackDue := true }).bumpNorth l Obj.RG_DUP_RX
  else (s.bumpNorth l Obj.RG_SEQ_ERR).nak l 1

/-- FRAME_RECEIVE: a frame is judged (R324) and handled (R326); eof is none for an aborted frame. The reason of a bad frame
that is neither aborted, miscounted nor wrong in its CRC is open. -/
def State.frameReceive (s : State) (l : LinkId) (sof : Nat) (blocks : List Nat) (eof : Option Nat) : State :=
  match l with
  | .pass _ => s
  | _ =>
    if !s.isUp l then s
    else match eof with
      | none => s.badFrame l 2
      | some e =>
        let data := blocks.flatMap (bytesLE 8)
        let s := s.check (rxUnit l) (frameBytes sof data)
        let kind := bits sof 37 36
        if blocks.length ≠ bits sof 43 38 + 1 then s.badFrame l 2
        else if bits e 55 24 ≠ crc32c (frameBytes sof data) then s.badFrame l 0
        else if bits e 23 12 ≠ bits sof 55 44 ∨ 2 ≤ kind ∨ (kind = 0 ∧ southLink l = false) then s.drawn.badFrame l (s.open % 4)
        else s.frameInOrder l sof data

/-- NAK_HOLD_EXPIRE. -/
def State.nakHoldEnd (s : State) (l : LinkId) : State := s.setRx l { s.rx l with nakHold := false }

/-- A full port buffer holds back the acknowledgements of its leaf (R220). -/
def State.bufferFull (s : State) (l : LinkId) : Bool :=
  match l with
  | .south k => decide (65536 < s.portLevel k)
  | _ => false

/-- ACK_SEND: an ACK of everything accepted, when one is due (R327). -/
def State.ackSend (s : State) (l : LinkId) : State :=
  match l with
  | .pass _ => s
  | _ =>
    let r := s.rx l
    if s.isUp l && r.ackDue && !s.bufferFull l then
      (s.emitBlock l 0x3C [(r.exp + 4095) % 4096 * 2 ^ 44]).setRx l { r with ackDue := false }
    else s

/-! ### Acknowledgements received (R327, R328, R331) -/

/-- The link that an ACK or NAK names: none for a link that does not exist. -/
def ackLink (l : LinkId) (c : Nat) : Option LinkId :=
  match l with
  | .south k => some (.south k)
  | _ =>
    let n := bits c 43 40
    if n = 0 then some .north else if n < 8 then some (.pass (portFin n)) else none

/-- A frame of a link is held. -/
def State.holds (s : State) (l : LinkId) (n : Nat) : Bool := (s.tx l).held.any fun f => f.seq == n

/-- An ACK or NAK that names no held frame. -/
def State.ackBad (s : State) (l : LinkId) : State := if southLink l then s else s.bump Obj.RG_ACK_BAD

/-- ACK_RECEIVE. -/
def State.ackReceive (s : State) (l : LinkId) (c : Nat) : State :=
  if !s.isUp l then s
  else match ackLink l c with
    | some x =>
      let n := bits c 55 44
      if s.holds x n then
        let s := s.freeBefore x n true
        if x = .north then s.repartIfFree else s
      else s.ackBad l
    | none => s.ackBad l

/-- Frame n was sent again since the latest rewind and less than RG_NAK_HOLD ago. -/
def State.againHeld (s : State) (l : LinkId) (n : Nat) : Bool :=
  (s.tx l).held.any fun f => f.seq == n && match f.again with
    | some t => decide ((s.tick - t) * 1000000000 < s.o Obj.RG_NAK_HOLD * s.o Obj.CLK_FX_NOM)
    | none => false

/-- NAK_RECEIVE: the frames before the named one are freed, and the link rewinds to it. -/
def State.nakReceive (s : State) (l : LinkId) (c : Nat) : State :=
  if !s.isUp l then s
  else
    let s := s.bumpNorth l Obj.RG_NAK_RX
    match ackLink l c with
    | some x =>
      let n := bits c 55 44
      if s.holds x n then
        let s := s.freeBefore x n false
        if s.againHeld x n then s else s.rewind x n
      else s.ackBad l
    | none => s.ackBad l

/-- REPLAY_TIMEOUT: a rewind to the mark. -/
def State.replayTimeout (s : State) (l : LinkId) : State :=
  if s.isUp l && !(s.tx l).held.isEmpty then (s.bumpNorth l Obj.RG_TIMEOUTS).rewindMark l else s

/-! ### Frames sent (R325, R328, R329, R331) -/

/-- The check unit of a link's sent frames (R271). -/
def txUnit : LinkId → Nat
  | .north => 9 | .pass j => 9 + j | .south k => 26 + k

/-- The content of a new frame. -/
structure Load where
  kind : Nat
  first : Bool
  last : Bool
  qid : Nat
  data : List Byte
  blocks : List Nat
  deriving DecidableEq, Repr

/-- Data bytes of a full frame of a link: 64 blocks, 32 under Ragil 1.2 (R322, R343). -/
def State.roomOf (s : State) (l : LinkId) : Nat :=
  if s.o (match l with | .south k => Obj.RG_SVERSION k | _ => Obj.RG_VERSION) = 1 then 256 else 512

/-- Data bytes of a full frame of the north link. -/
def State.frameRoom (s : State) : Nat := s.roomOf .north

/-- The next Cufel message to go north, its padding included, and the state without it: the device's own first. A message
longer than a frame of the version in use is discarded, as each fills one frame (DESIGN CHOICE, log entry 153). -/
def State.takeNorthMsg (s : State) : Option (State × List Byte) :=
  let own := s.cufel.outNorth.dropWhile fun m => decide (s.frameRoom < m.bytes.length)
  let relay := s.cufel.relayNorth.dropWhile fun b => decide (s.frameRoom < b.length)
  match own, relay with
  | m :: r, _ => some (({ s with cufel := { s.cufel with outNorth := r } }).check 34 m.headBody, padTo 8 m.bytes)
  | [], b :: r => some ({ s with cufel := { s.cufel with outNorth := [], relayNorth := r } }, padTo 8 b)
  | [], [] => none

/-- The next frame's worth of the oldest answer, once it is complete or full. -/
def State.takeAnswer (s : State) : Option (State × Load) :=
  match s.north.answers with
  | [] => none
  | a :: r =>
    let open_ := r.isEmpty && s.north.more
    let left := a.len - s.north.framed
    let n := min left s.frameRoom
    if n = 0 ∨ (open_ = true ∧ left < s.frameRoom) then none
    else
      let last := !open_ && decide (left ≤ s.frameRoom)
      let done := s.north.framed + n
      let carries := decide (s.north.framed < a.blockEnd) && decide (a.blockEnd ≤ done)
      let load : Load :=
        { kind := 0, first := s.north.framed == 0, last := last,
          qid := if s.o Obj.RG_VERSION = 1 then headerQid a.bytes else 0,
          data := padTo 8 ((a.bytes.drop s.north.framed).take n), blocks := if carries then a.blocks else [] }
      some (if last then { s with north := { s.north with answers := r, framed := 0 } }
            else { s with north := { s.north with framed := done } }, load)

/-- The next new frame of a link: a CUFEL frame that waits goes before the next ANSWER frame (R325). -/
def State.takeLoad (s : State) (l : LinkId) : Option (State × Load) :=
  match l with
  | .north =>
    match s.takeNorthMsg with
    | some (s, b) => some (s, { kind := 1, first := true, last := true, qid := 0, data := b, blocks := [] })
    | none => s.takeAnswer
  | .south k =>
    match (s.cufel.relay.getD k []).dropWhile fun b => decide (s.roomOf l < b.length) with
    | b :: r => some ({ s with cufel := { s.cufel with relay := s.cufel.relay.set k r } },
        { kind := 1, first := true, last := true, qid := 0, data := padTo 8 b, blocks := [] })
    | [] => none
  | .pass j =>
    let p := s.pass.get j
    match (p.queue.find? fun e => e.1 == 1).or p.queue.head? with
    | some (kind, first, last, qid, b) => some ({ s with pass := s.pass.set j { p with queue := p.queue.erase (kind, first, last, qid, b) } },
        { kind := kind, first := first, last := last, qid := qid, data := padTo 8 b, blocks := [] })
    | none => none

/-- A frame sent for the first time is counted. -/
def State.countFrame (s : State) (l : LinkId) : State :=
  match l with
  | .north => s.wrapBy 48 Obj.RG_FRAMES_TX 1
  | .pass j => s.wrapBy 48 (Obj.RG_PFRAMES j) 1
  | .south _ => s

/-- A new frame is stored in its slot and sent. -/
def State.sendNew (s : State) (l : LinkId) (d : Load) : State :=
  let t := s.tx l
  let slot := 0x500000 + 512 * s.slotOfFrame l t.next
  let sof := sofContent t.next (d.data.length / 8) d.kind d.first d.last d.qid
  let bytes := frameBytes sof d.data
  let f : Frame :=
    { seq := t.next, kind := d.kind, first := d.first, last := d.last, ndb := d.data.length / 8, crc := crc32c bytes, slot := slot,
      qid := d.qid, blocks := d.blocks, again := none }
  let next := (t.next + 1) % 4096
  let s : State := { s with spm := memWrite s.spm slot d.data }
  let s := s.setTx l { t with next := next, ptr := next, held := t.held ++ [f], stalled := false }
  ((s.check (txUnit l) bytes).countFrame l).emit (.frame l sof d.data (eofContent f.crc f.seq))

/-- A stall of the sender is counted once while it lasts (R328, R330). -/
def State.stall (s : State) (l : LinkId) : State :=
  let t := s.tx l
  if t.stalled then s else (s.setTx l { t with stalled := true }).bumpNorth l Obj.RG_STALLS

/-- The sender starts no new frame: its window is full, or a re-partition waits for it to drain (R328, R330). -/
def State.windowFull (s : State) (l : LinkId) : Bool :=
  decide (s.windowOf l ≤ (s.tx l).held.length) || (decide (l = .north) && s.repartDue && !(s.tx l).held.isEmpty)

/-- A new frame of a link, when one waits and the window has room. -/
def State.frameNew (s : State) (l : LinkId) : State :=
  let s := if l = .north then s.repartIfFree else s
  match s.takeLoad l with
  | none => s
  | some (s', d) => if s.windowFull l then s.stall l else s'.sendNew l d

/-- A resent frame that its slot no longer holds whole: counted, and the link returns with RES = 0 (R331). -/
def State.resendFails (s : State) (l : LinkId) : State :=
  let s := s.bump (lostKey l)
  (match l with | .south k => s.southDown k false | _ => s.northDown false).follow

/-- The held frame at the send pointer is sent again from its slot, after its CRC has been computed again (R331). -/
def State.resend (s : State) (l : LinkId) (f : Frame) (u : List Upset) : State :=
  let r := s.readSpm 3 f.slot (8 * f.ndb) u
  let data := asRead u f.slot r.2.1
  let sof := sofContent f.seq f.ndb f.kind f.first f.last f.qid
  let s := r.1.check (txUnit l) (frameBytes sof data)
  if r.2.2 || crc32c (frameBytes sof data) != f.crc then s.resendFails l
  else
    let t := s.tx l
    let after := (t.held.dropWhile fun g => g.seq != f.seq).drop 1
    let t := { t with
      ptr := match after with | g :: _ => g.seq | [] => t.next
      held := t.held.map fun g => if g.seq = f.seq then { g with again := some s.tick } else g }
    (s.setTx l t).emit (.frame l sof data (eofContent f.crc f.seq))

/-- FRAME_SEND. -/
def State.frameSend (s : State) (l : LinkId) (u : List Upset) : State :=
  if !s.isUp l then s
  else
    let t := s.tx l
    match (if t.ptr = t.next then none else t.held.find? fun f => f.seq == t.ptr) with
    | some f => s.resend l f u
    | none => s.frameNew l

/-! ### The hub and its leaves (R342, R413) -/

/-- SOUTH_RATE_HUNT. -/
def State.rateHunt (s : State) (k : Nat) : State :=
  if s.isHub && s.o (Obj.HUB_PSTATE k) == 1 && !s.locked (9 + k) then
    let r := (s.south.get (portFin k)).rate
    (((s.bump (Obj.RG_SHUNT k)).setSouthRate k (if r = 3 then 1 else 3)).laneL2 (9 + k)).follow
  else s

/-- LEAF_ALIGN_SEND: the alignment-form RESYNC that a port waits for. -/
def State.leafAlign (s : State) (k : Nat) : State :=
  match (s.port k).align with
  | some byTp =>
    if s.o (Obj.HUB_PSTATE k) ≠ 3 then s
    else
      let s := s.emitBlock (.south (portFin k)) 0xA5 (resyncParts (2 ^ 48 - 1) ((s.xc + 32) % 2 ^ 48))
      let s := s.bump Obj.XC_LEAF_ALIGNS
      let s := if byTp then s.bump Obj.XC_LEAF_REALIGN else s
      s.setPort k { s.port k with align := none }
  | none => s

/-! ### The commands -/

/-- CAPS_SEND. -/
def execCapsSend (l : LinkId) (s : State) : Host.Outcome State Fault Refusal := .next (s.ifAwake (s.capsDue l))

/-- CAPS_RECEIVE. -/
def execCapsReceive (l : LinkId) (c : BitVec 56) (s : State) : Host.Outcome State Fault Refusal := .next (s.ifAwake (s.capsReceive l c.toNat))

/-- CAPS_TIMEOUT. -/
def execCapsTimeout (l : LinkId) (s : State) : Host.Outcome State Fault Refusal := .next (s.ifAwake (s.capsTimeout l))

/-- STATUS_RECEIVE. -/
def execStatusReceive (l : LinkId) (c : BitVec 56) (s : State) : Host.Outcome State Fault Refusal :=
  .next (s.ifAwake (s.statusReceive l c.toNat))

/-- STATUS_SEND. -/
def execStatusSend (l : LinkId) (s : State) : Host.Outcome State Fault Refusal := .next (s.ifAwake (s.statusSend l))

/-- STATUS_MISS: 20 us without a south STATUS (R337). -/
def execStatusMiss (s : State) : Host.Outcome State Fault Refusal :=
  .next (s.ifAwake (if s.o Obj.RG_LSTATE = 3 then s.bump Obj.RG_STAT_MISS else s))

/-- LANE_JOIN. -/
def execLaneJoin (j : Fin 8) (scheduled : Bool) (s : State) : Host.Outcome State Fault Refusal := .next (s.ifAwake (s.laneJoin j scheduled))

/-- ALIGN_ROW. -/
def execAlignRow (l : LinkId) (s : State) : Host.Outcome State Fault Refusal := .next (s.ifAwake (s.rowDue l))

/-- FRAME_RECEIVE. -/
def execFrameReceive (l : LinkId) (sof : BitVec 56) (blocks : List (BitVec 64)) (eof : Option (BitVec 56)) (s : State) :
    Host.Outcome State Fault Refusal :=
  .next (s.ifAwake (s.frameReceive l sof.toNat (blocks.map BitVec.toNat) (eof.map BitVec.toNat)))

/-- NAK_HOLD_EXPIRE. -/
def execNakHoldExpire (l : LinkId) (s : State) : Host.Outcome State Fault Refusal := .next (s.ifAwake (s.nakHoldEnd l))

/-- ACK_SEND. -/
def execAckSend (l : LinkId) (s : State) : Host.Outcome State Fault Refusal := .next (s.ifAwake (s.ackSend l))

/-- ACK_RECEIVE. -/
def execAckReceive (l : LinkId) (c : BitVec 56) (s : State) : Host.Outcome State Fault Refusal := .next (s.ifAwake (s.ackReceive l c.toNat))

/-- NAK_RECEIVE. -/
def execNakReceive (l : LinkId) (c : BitVec 56) (s : State) : Host.Outcome State Fault Refusal := .next (s.ifAwake (s.nakReceive l c.toNat))

/-- REPLAY_TIMEOUT. -/
def execReplayTimeout (l : LinkId) (s : State) : Host.Outcome State Fault Refusal := .next (s.ifAwake (s.replayTimeout l))

/-- FRAME_SEND. -/
def execFrameSend (l : LinkId) (u : List Upset) (s : State) : Host.Outcome State Fault Refusal := .next (s.ifAwake (s.frameSend l u))

/-- REPARTITION (R330). -/
def execRepartition (s : State) : Host.Outcome State Fault Refusal := .next (s.ifAwake s.repartIfFree)

/-- SOUTH_RATE_HUNT. -/
def execSouthRateHunt (k : Port) (s : State) : Host.Outcome State Fault Refusal := .next (s.ifAwake (s.rateHunt k))

/-- LEAF_ALIGN_SEND. -/
def execLeafAlignSend (k : Port) (s : State) : Host.Outcome State Fault Refusal := .next (s.ifAwake (s.leafAlign k))

end Sys2Proof.Machine
end

