-- ==== Sys2Proof/Machine/Reset.lean ====
section
/-! DEFINITION. The device reset (R525, R526), the power-cycle request (R539), how a freeze takes hold (R559), and the end of
a Hold. -/
namespace Sys2Proof.Machine

/-! ### Power-cycle request (R539) -/

/-- PCYC_REQ_N is asserted with a cause: 1 ladder, 2 NOCLOCK, 3 host. Its EVENT goes out once the supervisor runs (R539, R554). -/
def State.pcycAssert (s : State) (cause func : Nat) : State :=
  let s := (s.setO Obj.RST_PCYC (1 + cause * 2 + func * 16)).ariseIf 19
  s.stage 0x0205 0 0 (bytesLE 1 (s.o Obj.RST_PCYC))

/-- PCYC_REQ_N is released. -/
def State.pcycRelease (s : State) : State := ((s.setO Obj.RST_PCYC 0).ceases 19).refreshFaultN

/-! ### Reset (R525, R526) -/

/-- The objects that keep their values through a reset: the plinth's, and those that show the supplies (R526, R541). -/
def keptObjects : List Nat :=
  [Obj.RST_CAUSE, Obj.RST_COUNT, Obj.RST_LADDER, Obj.RST_PCYC, Obj.PWR_SUPPLY_EVT, Obj.PWR_FEEDS]

/-- Every domain but the plinth in its reset state. The plinth, the NVM with what it holds of training and repair, and the
model's own bookkeeping stay. -/
def State.cold (s : State) : State :=
  let r : State :=
    { State.reset with
      pending := s.pending
      free := s.free
      tick := s.tick
      out := s.out
      line := { seen := s.out.length }
      nvm := s.nvm
      plinth := s.plinth
      power := { lostA := s.power.lostA, lostB := s.power.lostB, rstN := s.power.rstN, resetTick := s.tick }
      frz := { number := s.frz.number, ball := s.frz.ball }
      nv := { s.nv with refresh := none, wrote := [] }
      memUnit := { sweepNext := s.memUnit.sweepNext } }
  (keptObjects.foldl (fun r k => r.setO k (s.o k)) r).lifeScan

/-- The conditions that outlast a reset: a power-cycle request, an INTOSC fault and a feed that is still lost (R526, R550; log
entry 159). -/
def State.standing (s : State) : State :=
  let s := if s.power.lostA || s.power.lostB then s.ariseIf 2 else s
  let s := if s.ob Obj.RST_PCYC 0 then s.ariseIf 19 else s
  if s.plinth.fault then s.ariseIf 1 else s

/-- A device reset with its cause. -/
def State.deviceReset (s : State) (cause : Nat) : State :=
  ((s.cold.setO Obj.RST_CAUSE cause).bump Obj.RST_COUNT).standing

/-! ### Freeze (R559 to R561) -/

/-- The three sources of R559, by their bits in FRZ_SRC (R574). -/
inductive FreezeSource where
  | pin | cufel | tap
  deriving DecidableEq, Repr

/-- Bit of a source in FRZ_SRC. -/
def sourceBit : FreezeSource → Nat
  | .pin => 0 | .cufel => 1 | .tap => 2

/-- A source holds, or no longer. -/
def Freeze.hold (f : Freeze) (b : Bool) : FreezeSource → Freeze
  | .pin => { f with pin := b } | .cufel => { f with cufel := b } | .tap => { f with tap := b }

/-- A freeze takes hold, in every power state but Off; a further source only adds itself. -/
def State.freezeBy (s : State) (x : FreezeSource) : State :=
  if s.o Obj.PWR_STATE = 0 then s
  else
    let f := { s.frz.hold true x with held := setBit s.frz.held (sourceBit x) true }
    if f.frozen then { s with frz := f }
    else
      let f := { f with frozen := true, held := 2 ^ sourceBit x, noref := !s.flag Obj.FRZ_REFRESH, x := s.xc, nt := s.ntNs,
                        number := f.number + 1, pos := 0 }
      { s.bump Obj.FRZ_COUNT with frz := f }

/-- The level of the FREEZE ball. -/
def State.ballAt (s : State) (b : Bool) : State := { s with frz := { s.frz with ball := b } }

/-- A FREEZE ball that is high freezes the device, with FRZ_PIN_EN (R559). -/
def State.freezeBall (s : State) : State := if s.frz.ball && s.flag Obj.FRZ_PIN_EN then s.freezeBy .pin else s

/-! ### Service after a Hold (R140, R162, R403, R521) -/

/-- The north link that is not UP when Run or Degraded is entered raises its condition (R550). -/
def State.northCheck (s : State) : State :=
  if s.inRun && (s.o Obj.RG_LSTATE != 3 || s.o (Obj.LN_ASTATE 8) != 4) && !s.ob Obj.FLT_ACTIVE 11 then
    ((s.stage 0x0502 0 0 (bytesLE 1 (s.o Obj.RG_LSTATE) ++ bytesLE 1 (s.o (Obj.LN_ASTATE 8)))).ariseIf 11).settle
  else s

/-- Run is entered, or Degraded. -/
def State.enterRun (s : State) : State := ((s.setO Obj.PWR_STATE 3).settle).northCheck

/-- The first tick after the PLLs have locked again: assembler, buffer and calibration resume, and Hold ends. -/
def State.resumeService (s : State) : State :=
  if s.clk.resume then
    let s : State := { s with clk := { s.clk with resume := false } }
    if s.o Obj.PWR_STATE = 4 then s.lbResume.asmResume.calStart.enterRun else s
  else s

end Sys2Proof.Machine
end

