-- ==== Sys2Proof/Machine/Clock.lean ====
section
/-! DEFINITION. Clocks: INTOSC and the plinth's watch on it (R397 to R399), the CKIN monitor (R400), failure and return
(R401 to R404), and the armature (R405 to R407). -/
namespace Sys2Proof.Machine

/-! ### INTOSC (R397, R402, R530) -/

/-- The role that the straps select (R1): 0 standalone, 1 leaf, 2 hub, 3 factory test. -/
def strapRole (v : Nat) : Nat := if bit v 8 then 3 else bits v 7 6

/-- CAN node id and role take the sampled straps. -/
def State.takeStraps (s : State) (v : Nat) : State :=
  let s := ((s.setO Obj.PWR_STRAPS v).setO Obj.CF_ROLE (strapRole v)).setO Obj.CAN_NODE (bits v 5 0)
  s.setO Obj.CF_ADDR (0xFFF0 + if strapRole v = 1 then Config.leafPort % 8 + 1 else 0)

/-- INTOSC_READY: the domains leave reset on INTOSC, the straps are sampled, and the monitor starts its first window; a
FREEZE ball held high freezes the device then (R598). -/
def State.intoscReady (s : State) (straps us : Nat) : State :=
  if s.o Obj.CLK_STATE = 0 ∧ s.power.rstN = false ∧ s.o Obj.PWR_STATE = 1 then
    let s := (s.takeStraps straps).setO Obj.CLK_STATE 1
    let s := (s.setOb Obj.PWR_BOOT_STEP 1 true).setOb Obj.PWR_BOOT_STEP 2 true
    ({ s with clk := { fx := s.o Obj.CLK_FX_NOM }, power := { s.power with trace := s.power.trace.set 2 us } }).freezeBall
  else s

/-- E_P in use. -/
def State.ep (s : State) : Nat :=
  match s.plinth.ep with
  | some e => e
  | none => Config.fuseIntosc

/-- A count within E_P times (1 plus or minus p percent). -/
def State.nearEp (s : State) (n p : Nat) : Bool :=
  decide (n * 100 ≤ s.ep * (100 + p)) && decide (s.ep * (100 - p) ≤ n * 100)

/-- CKIN is accepted (R404). -/
def State.ckinAccepted (s : State) : Bool := s.o Obj.CLK_STATE == 2 || s.o Obj.CLK_STATE == 3

/-- The X, C, S and K domains run on INTOSC (R404). -/
def State.onIntosc (s : State) : Bool := s.o Obj.CLK_STATE == 1 || s.o Obj.CLK_STATE == 4

/-- NOCLOCK: every domain is held in reset, and a power cycle is requested (R399). -/
def State.noClock (s : State) : State := ((s.cold.standing).setO Obj.CLK_STATE 5).pcycAssert 2 0

/-- An INTOSC fault (R398): counted, captured, logged; with CKIN rejected no domain has a clock. -/
def State.intoscFault (s : State) (count : Nat) : State :=
  let s := { s with plinth := { s.plinth with good := 0 } }
  if s.plinth.fault then s
  else
    let s := ({ s with plinth := { s.plinth with fault := true } }).bump Obj.CLK_INTOSC_FAULTS
    let s := ((s.capture 11).stage 0x0103 0 0 (bytesLE 4 count)).ariseIf 1
    if s.onIntosc then s.noClock else s

/-- Two good counts in a row end the fault; from NOCLOCK the device boots from the start (R398, R399). -/
def State.intoscGood (s : State) : State :=
  if s.plinth.good + 1 < 2 then { s with plinth := { s.plinth with good := s.plinth.good + 1 } }
  else
    let s := ({ s with plinth := { s.plinth with good := 0, fault := false } }).ceases 1
    if s.o Obj.CLK_STATE = 5 then s.deviceReset 7 else s

/-- CLK_INTOSC_MEAS lies within the INTOSC range of R423. -/
def State.measOk (s : State) : Bool :=
  decide (48500000 ≤ s.o Obj.CLK_INTOSC_MEAS) && decide (s.o Obj.CLK_INTOSC_MEAS ≤ 51500000)

/-- PLINTH_INTOSC_COUNT: one count over 64 plinth periods. -/
def State.plinthCount (s : State) (n : Nat) : State :=
  if s.plinth.fault then
    if s.nearEp n (if s.plinth.ep.isNone then 40 else 5) then s.intoscGood
    else { s with plinth := { s.plinth with good := 0 } }
  else if !s.nearEp n 40 then s.intoscFault n
  else if s.ckinAccepted && s.measOk then
    { s with plinth := { s.plinth with ep := some ((s.ep : Int) + ((n : Int) - s.ep) / 16).toNat } }
  else s

/-! ### CKIN failure (R401, R404, R534) -/

/-- What a CKIN failure in Boot undoes: step 5, and steps 7 and 8 from their beginning (R534). -/
def State.bootRestart (s : State) : State :=
  let s := ((s.setOb Obj.PWR_BOOT_STEP 5 false).setOb Obj.PWR_BOOT_STEP 7 false).setOb Obj.PWR_BOOT_STEP 8 false
  let s := (List.range 3).foldl (fun t r => if 1 ≤ t.rstate r ∧ t.rstate r ≤ 2 then t.setO (Obj.DRM_RSTATE r) 0 else t) s
  s.setO Obj.TDC_STATE 0

/-- The units that a CKIN failure stops (R79, R100, R115, R140, R162, R412); outside data service the TDC only discards
its pending LUTs and calibration counts. -/
def State.holdUnits (s : State) : State :=
  let s := s.asmHold
  let s := if s.o Obj.TDC_STATE = 2 then s.tdcHold else s.tdcDiscard
  let s := s.lbHold.prbHold.rmHold.alignHold
  { s with fastOr := {}, hub := { s.hub with tpWait := [] } }

/-- CKIN fails with a cause of CLK_FAIL_CAUSE: QUALIFY in Boot, else FALLBACK, on whose entry network time holds over, and
answers wait for the north lanes from then on (R209, R401, R404, R419). -/
def State.ckinFail (s : State) (cause : Nat) : State :=
  if s.plinth.fault then s.noClock
  else
    let s := ((s.bump Obj.CLK_FAILS).setO Obj.CLK_FAIL_CAUSE cause).setO Obj.CLK_LAST_FAILX s.xc
    let s := (s.capture 1).stage 0x0101 0 0 (bytesLE 1 cause ++ bytesLE 2 (s.o Obj.CLK_MON_LAST))
    let s := (s.ariseIf 0).setO Obj.CLK_PLL_STATUS 0
    let s : State := { s with clk := { s.clk with run := [], fx := s.o Obj.CLK_FX_NOM, failTick := some s.tick, resume := false }, hk := { s.hk with onInt := true } }
    if s.o Obj.PWR_STATE = 1 then (((s.setO Obj.CLK_STATE 1).holdUnits.setO Obj.XC_STATE 0).bootRestart).follow
    else
      let s := s.setO Obj.CLK_STATE 4
      let s := if s.inRun then s.setO Obj.PWR_STATE 4 else s
      let s : State := { s with north := { s.north with held := s.inService } }
      (s.holdUnits.ntHoldover.setO Obj.XC_STATE 0).follow

/-! ### The monitor (R393, R400) -/

/-- A window count within 8 percent of its E. -/
def inNominal (fx n : Nat) : Bool :=
  decide (n * 50000000 * 100 ≤ 256 * fx * 108) && decide (256 * fx * 92 ≤ n * 50000000 * 100)

/-- A window count within p percent of N_ref, which has 16 fraction bits. -/
def nearRef (r n p : Nat) : Bool := decide (n * 65536 * 100 ≤ r * (100 + p)) && decide (r * (100 - p) ≤ n * 65536 * 100)

/-- N_ref takes a value, and INTOSC is measured against it (R397). -/
def State.setNref (s : State) (r : Nat) : State :=
  (s.setO Obj.CLK_MON_REF r).setO Obj.CLK_INTOSC_MEAS (if r = 0 then 0 else clip (2 ^ 32 - 1) (s.o Obj.CLK_FX_NOM * 256 * 65536 / r))

/-- Duration of the fallback that ends, in us. -/
def State.holdTime (s : State) : Nat :=
  match s.clk.failTick with
  | some t => (s.tick - t) * 1000000 / s.o Obj.CLK_FX_NOM
  | none => 0

/-- CKIN is accepted (R400, R404). -/
def State.ckinAccept (s : State) (counts : List Nat) : State :=
  let s := s.setNref (counts.sum * 65536 / counts.length)
  let s := if s.o Obj.CLK_STATE = 4 then s.setO Obj.CLK_HOLD_TIME s.holdTime else s
  let s : State := { (s.setO Obj.CLK_STATE 2).setO Obj.CAN_CLKSRC 2 with clk := { s.clk with run := [], failTick := none, ratio := s.o Obj.CLK_FX_NOM } }
  (((s.capture 2).stage 0x0102 1 0 (bytesLE 4 (s.o Obj.CLK_HOLD_TIME))).ceases 0).refreshFaultN

/-- A window of the qualification. -/
def State.qualify (s : State) (n : Nat) : State :=
  let fx := s.clk.fx
  let setRun (s : State) (l : List (Nat × Nat)) : State := { s with clk := { s.clk with run := l, fx := s.o Obj.CLK_FX_NOM } }
  if n = 0 then setRun s []
  else if !inNominal fx n then setRun (s.bump Obj.CLK_NOM_MISMATCH) []
  else
    let l := match s.clk.run.getLast? with
      | some (f, c) => if f = fx ∧ n ≤ c + 2 ∧ c ≤ n + 2 then (fx, n) :: s.clk.run else [(fx, n)]
      | none => [(fx, n)]
    let s := setRun s l
    if l.length ≥ s.o Obj.CLK_QUAL then s.ckinAccept (l.map (·.2)) else s

/-- A window after acceptance: tracked, or a failure. -/
def State.track (s : State) (n : Nat) : State :=
  let r := s.o Obj.CLK_MON_REF
  if !nearRef r n 5 then s.ckinFail (if n * 65536 > r then 2 else 3)
  else if nearRef r n 1 then s.setNref ((r : Int) + ((n * 65536 : Nat) - (r : Int)) / 64).toNat
  else s

/-- CKIN_WINDOW_END: during an INTOSC fault the monitor does not count (R398). -/
def State.windowEnd (s : State) (n : Nat) : State :=
  if s.plinth.fault then s
  else
    let s' := s.setO Obj.CLK_MON_LAST n
    match s.o Obj.CLK_STATE with
    | 1 => s'.qualify n
    | 4 => s'.qualify n
    | 2 => s'.track n
    | 3 => s'.track n
    | _ => s

/-- CKIN_MISSING_EDGES. -/
def State.missingEdges (s : State) : State := if s.ckinAccepted then s.ckinFail 1 else s

/-- PLL_LOSS_OF_LOCK of the TDC PLL or of the core synthesiser. -/
def State.pllLoss (s : State) (core : Bool) : State :=
  if s.o Obj.CLK_STATE = 3 then s.ckinFail (if core then 5 else 4) else s

/-- RELOCK_TIMEOUT (R403). -/
def State.relockTimeout (s : State) : State := if s.o Obj.CLK_STATE = 2 then s.ckinFail 6 else s

/-- TDC_STATE reads BOOTCAL once boot step 8 may run, until it is over (R111, R531); not in the factory test role, in which the
data path does not start (R2). -/
def State.bootCal (s : State) : State :=
  if s.o Obj.CF_ROLE ≠ 3 ∧ s.o Obj.PWR_STATE = 1 ∧ s.ob Obj.PWR_BOOT_STEP 3 = true ∧ s.ob Obj.PWR_BOOT_STEP 5 = true ∧ s.ob Obj.PWR_BOOT_STEP 8 = false then
    s.setO Obj.TDC_STATE 1 else s

/-- The ranks start training (R355, R531); not in the factory test role (R2). -/
def State.startTrain (s : State) : State :=
  if s.o Obj.CF_ROLE = 3 then s
  else (List.range 3).foldl (fun t r => if t.rstate r = 0 then t.setO (Obj.DRM_RSTATE r) 1 else t) s

/-- CLK_PLL_STATUS once the PLLs that run are in lock: the TDC PLL is off in Parked (R524; log entry 179). -/
def State.pllsUp (s : State) : Nat := if s.o Obj.PWR_STATE = 2 ∧ s.power.unparking = false then 6 else 7

/-- PLL_LOCKED: in a boot step 5 ends, and the ranks start training; after a Hold service resumes at the next tick; in an unpark
the TDC PLL is in lock again (R524). -/
def State.pllLocked (s : State) (us : Nat) : State :=
  if s.o Obj.CLK_STATE = 3 ∧ s.power.unparking = true then s.setO Obj.CLK_PLL_STATUS s.pllsUp
  else if s.o Obj.CLK_STATE = 2 then
    let s := (s.setO Obj.CLK_STATE 3).setO Obj.CLK_PLL_STATUS s.pllsUp
    let s : State := { s with synthLost := 0 }
    let s : State :=
      if s.o Obj.PWR_STATE = 1 then
        let s := s.setOb Obj.PWR_BOOT_STEP 5 true
        let s : State := { s with power := { s.power with trace := s.power.trace.set 5 us } }
        s.bootCal.startTrain
      else { s with clk := { s.clk with resume := true } }
    s.follow
  else s

/-! ### The armature (R405, R406) -/

/-- The nodes. -/
def allNodes : List Nat := List.range 26

/-- A leaf node of the armature is busy (R405). In Parked every channel is treated as disabled (R523), so its EN keeps no node
busy there (log entry 157). -/
def State.leafBusy (s : State) (n : Nat) : Bool :=
  match n with
  | 1 => s.o Obj.ASM_STATE != 0 || !s.lb.wc.isEmpty
  | 2 => s.query.fill != 0 || s.coding
  | 3 => s.o Obj.HUB_PORT_EN != 0
  | 4 => s.o Obj.BLD_UNIT0 != 0 && s.o Obj.BLD_UNIT0 != 5
  | 5 => s.o Obj.BLD_UNIT1 != 0 && s.o Obj.BLD_UNIT1 != 5
  | 6 => s.o Obj.RG_LSTATE != 0 || (List.range 8).any (fun k => s.o (Obj.RG_SSTATE k) != 0) || !s.north.tx.held.isEmpty
  | 7 => s.o Obj.SCB_STATE == 1 || s.o Obj.SCB_STATE == 2 || s.o Obj.SPM_MARCH_STATE == 1
  | 17 => s.prbRunning
  | 18 => s.o Obj.TDC_STATE == 1 || allCh.any fun c => decide ((s.chan c).cal = .accum)
  | 24 => decide (2 ≤ s.o Obj.HK_STATE)
  | 25 => s.o Obj.CAN_ENABLE != 0
  | _ =>
    if 9 ≤ n ∧ n ≤ 16 then
      allCh.any (fun c => decide (c.val / 16 = n - 9) && ((s.ob (Obj.FE_ENABLE c) 0 && s.o Obj.PWR_STATE != 2) || !(s.chan c).chain.isEmpty)) ||
        !(s.group ⟨(n - 9) % 8, Nat.mod_lt _ (by decide)⟩).fifo.isEmpty
    else if 20 ≤ n ∧ n ≤ 22 then [1, 2, 3, 5, 7].contains (s.rstate (n - 20))
    else false

/-- The nodes at or below a node. -/
def subtree (n : Nat) : List Nat := if n = 0 ∨ n = 8 ∨ n = 19 ∨ n = 23 then allNodes.filter fun m => m == n || nodeParent m == n else [n]

/-- A node is busy, itself or through a node below it. -/
def State.nodeBusy (s : State) (n : Nat) : Bool := (subtree n).any s.leafBusy

/-- The nodes of a request that are refused. -/
def State.refusedNodes (s : State) (v : Nat) : List Nat := allNodes.filter fun n => bit v n && s.nodeBusy n

/-- Refused requests are counted with the lowest busy node (R406). -/
def State.noteRefused (s : State) (l : List Nat) : State :=
  if l.isEmpty then s
  else
    let busy := (l.flatMap subtree).filter s.nodeBusy
    (s.bumpBy Obj.CLK_REFUSED l.length).setO Obj.CLK_REFUSED_BY (busy.foldl min 255)

/-- A word without the bits of a list. -/
def clearBits (v : Nat) (l : List Nat) : Nat := l.foldl (fun v n => setBit v n false) v

/-- CLK_GATE_REQ takes effect: nodes that are busy by now stay ungated. -/
def State.gateEffect (s : State) (v : Nat) : State := s.setO Obj.CLK_GATE_REQ (clearBits v (s.refusedNodes v))

/-- CLK_GATE_REQ_WRITE: refused bits are cleared, and the write answers FUNCTION_RUNNING (R406). -/
def State.gateWrite (s : State) (q : Req) (v : Nat) : State :=
  if !s.isExpert q then s.respWrite q Obj.CLK_GATE_REQ .expertRequired 0
  else if v ≥ 2 ^ 26 then s.respWrite q Obj.CLK_GATE_REQ .outOfRange 0
  else
    let l := s.refusedNodes v
    let t := (s.noteRefused l).pendLive Obj.CLK_GATE_REQ (clearBits v l)
    if l.isEmpty then t.respWrite q Obj.CLK_GATE_REQ .ok s.xeff else t.respWrite q Obj.CLK_GATE_REQ .functionRunning 0

/-- The nodes that the role gates (R26). -/
def State.roleGated (s : State) : Nat := if s.isHub then 0 else 2 ^ 3

/-- The nodes whose gating the entry into Parked requests (R523). -/
def parkedNodes : Nat := ((List.range 23).filter fun n => decide (8 ≤ n) || [2, 3, 4, 5, 7].contains n).foldl (fun v n => setBit v n true) 0

/-- CLK_GATE_REQ as it stands: work that is there has cleared the bits of its nodes (R407). -/
def State.gateReq (s : State) : Nat := clearBits (s.o Obj.CLK_GATE_REQ) (s.refusedNodes (s.o Obj.CLK_GATE_REQ))

/-- CLK_GATED (R406): gated on host request, by role or for Parked; a parent's gate covers its children. -/
def State.clkGated (s : State) : Nat :=
  let own := s.gateReq ||| s.roleGated ||| (if s.o Obj.PWR_STATE = 2 ∧ s.power.unparking = false then s.power.parkGate else 0)
  (allNodes.filter fun n => bit own n || bit own (nodeParent n)).foldl (fun v n => setBit v n true) 0

/-- CMP_STATE: OFF outside service and while node 2 is gated, BUSY while a section is being coded (R276; log entry 149). -/
def State.cmpState (s : State) : Nat :=
  if !s.inService || bit s.clkGated 2 then 0 else if s.coding then 2 else 1

/-! ### The commands -/

/-- INTOSC_READY: TEST, ROLE and ADDR as sampled, and the time since the start of the boot. -/
def execIntoscReady (straps : BitVec 9) (us : BitVec 32) (s : State) : Host.Outcome State Fault Refusal :=
  .next (s.intoscReady straps.toNat us.toNat)

/-- INTOSC runs while a feed is present, and the plinth judges it then (R397, R398). -/
def State.intoscRuns (s : State) : Bool := s.o Obj.PWR_STATE != 0

/-- PLINTH_INTOSC_COUNT. -/
def execPlinthIntoscCount (n : BitVec 20) (s : State) : Host.Outcome State Fault Refusal :=
  .next (if s.intoscRuns then s.plinthCount n.toNat else s)

/-- INTOSC_GAP. -/
def execIntoscGap (s : State) : Host.Outcome State Fault Refusal := .next (if s.intoscRuns then s.intoscFault 0 else s)

/-- CKIN_WINDOW_END. -/
def execCkinWindowEnd (n : BitVec 16) (s : State) : Host.Outcome State Fault Refusal := .next (s.ifAwake (s.windowEnd n.toNat))

/-- CKIN_MISSING_EDGES. -/
def execCkinMissingEdges (s : State) : Host.Outcome State Fault Refusal := .next (s.ifAwake s.missingEdges)

/-- PLL_LOSS_OF_LOCK. -/
def execPllLossOfLock (core : Bool) (s : State) : Host.Outcome State Fault Refusal := .next (s.ifAwake (s.pllLoss core))

/-- PLL_LOCKED: us is the time since the start of a boot. -/
def execPllLocked (us : BitVec 32) (s : State) : Host.Outcome State Fault Refusal := .next (s.ifAwake (s.pllLocked us.toNat))

/-- RELOCK_TIMEOUT. -/
def execRelockTimeout (s : State) : Host.Outcome State Fault Refusal := .next (s.ifAwake s.relockTimeout)

/-- CLK_GATE_REQ_WRITE. -/
def execClkGateReqWrite (q : Req) (v : BitVec 32) (s : State) : Host.Outcome State Fault Refusal := .next (s.ifRequest q (s.gateWrite q v.toNat))

end Sys2Proof.Machine
end

