-- ==== Sys2Proof/Machine/Housekeeping.lean ====
section
/-! DEFINITION. Housekeeping measurement: entries, sequencer, auto-ranging, the disturbance check, the two slices and the
result register (R428 to R451). The modulator's count of each half is an operand, from its mid count and on the scale of
R439; the serving slice's constants turn it into the code (R438). -/
namespace Sys2Proof.Machine

/-! ### Entries (R443 to R445) -/

/-- The checks of R444 under a value of HK_MUX_MODE. -/
def hkEntryValid (mux v : Nat) : Bool :=
  let mode := bits v 62 60
  let tval := bits v 30 24
  decide (mode ≤ 4) && decide (bits v 36 34 ≤ 4) && bits v 33 32 != 3 && bits v 11 0 == 0
    && (if bit v 31 then decide (1 ≤ tval ∧ tval ≤ 100) else decide (1 ≤ tval ∧ tval ≤ 16))
    && decide (bits v 23 14 ≤ if mux = 0 then 100 else 1000)
    && (mode != 3 || decide (bits v 59 56 ≤ 7)) && (mode != 4 || decide (bits v 59 56 ≤ 11))
    && (mode != 0 || bits v 59 56 != bits v 55 52)
    && (!(mode == 2 || mode == 3) || decide (125 ≤ bits v 47 37 ∧ bits v 47 37 ≤ 2000))

/-- The key of entry m; 63 is the urgent entry. -/
def hkEntryKey (m : Nat) : Nat := if m = 63 then Obj.HK_URG_ENTRY else Obj.HK_ENTRY m

/-- The key of the range state of entry m (R437). -/
def hkRangeKey (m : Nat) : Nat := if m = 63 then Obj.HK_RANGE_URG else Obj.HK_RANGE_NOW m

/-- The range at which entry m converts: fixed, or the range state in auto-ranging (R436, R437). -/
def State.hkRange (s : State) (m : Nat) : Nat :=
  if bits (s.o (hkEntryKey m)) 36 34 ≤ 3 then bits (s.o (hkEntryKey m)) 36 34 else s.o (hkRangeKey m)

/-- An entry of the sequence or the urgent entry is written: its range state becomes x1 (R437). -/
def State.hkEntryEffect (s : State) (m v : Nat) : State := (s.setO (hkEntryKey m) v).setO (hkRangeKey m) 0

/-- The urgent entry is being converted (R446). -/
def State.hkUrgent (s : State) : Bool := s.o Obj.HK_STATE == 3 || s.o Obj.HK_STATE == 4

/-- The sequencer counts as running (R446). -/
def State.hkRunning (s : State) : Bool := decide (2 ≤ s.o Obj.HK_STATE)

/-! ### The sequencer (R446 to R448) -/

/-- The excitation of an entry: MODE 2 and 3 drive output EXCSEL at EXCLVL and hold the other at high impedance; MODE 0, 1
and 4 drive none (R429, R431). An entry that follows with the same output and settings finds it on, as the break of the one
is the end of the other. -/
def hkDrive (v : Nat) : Option Drive :=
  let mode := bits v 62 60
  if mode = 2 ∨ mode = 3 then
    some { out := Fin.ofNat 2 (bits v 51 51), level := Fin.ofNat 4 (bits v 50 49), sine := bit v 48, freq := bits v 47 37 }
  else none

/-- The burn-out current of an entry; MODE 4 ignores BO (R435). -/
def hkBurn (v : Nat) : Nat := if bits v 62 60 = 4 then 0 else bits v 33 32

/-- The conversion of entry m begins with its break, which switches its excitation; the burn-out current flows from its make
phase to the end of the integration, and HK_DIST_LIMIT is the value of its start (R429, R435, R491). -/
def State.hkBegin (s : State) (m : Nat) : State :=
  let v := s.o (hkEntryKey m)
  { s.setO Obj.HK_SEQ_POS m with
    hk := { s.hk with entry := some m, exc := hkDrive v, burn := hkBurn v, limit := s.o Obj.HK_DIST_LIMIT, repeating := false,
                      retries := 0, onInt := s.onIntosc } }

/-- Nothing is being converted: both excitation outputs are at high impedance, and no burn-out current flows. -/
def State.hkStill (s : State) : State :=
  { s with hk := { s.hk with entry := none, exc := none, burn := 0, repeating := false, retries := 0 } }

/-- From entry m on, entries with EN = 0 are skipped, invalid ones skipped and counted (R445): the state and the entry
found below HK_SEQ_LEN. -/
def State.hkSeek : Nat → State → Nat → State × Option Nat
  | 0, s, _ => (s, none)
  | n + 1, s, m =>
    if s.o Obj.HK_SEQ_LEN ≤ m then (s, none)
    else if !s.ob (Obj.HK_ENTRY m) 63 then State.hkSeek n s (m + 1)
    else if hkEntryValid (s.o Obj.HK_MUX_MODE) (s.o (Obj.HK_ENTRY m)) then (s, some m)
    else State.hkSeek n (s.bump Obj.HK_INVALID) (m + 1)

/-- RUN goes on at entry m; past the last entry the pass is complete, and a new pass follows on HK_SEQ_LOOP or a pending
START. A repeated pass that finds no entry to convert repeats at no stated rate: HK_PASSES is then an open value (log
entry 3). -/
def State.hkRun : Nat → State → Nat → State
  | 0, s, _ => s
  | n + 1, s, m =>
    let s := s.setO Obj.HK_STATE 2
    match s.hkSeek 32 m with
    | (s, some e) => s.hkBegin e
    | (s, none) =>
      let s := s.bump Obj.HK_PASSES
      if s.flag Obj.HK_SEQ_LOOP then
        if m = 0 then ((s.setO Obj.HK_PASSES (s.open % 2 ^ 32)).drawn).hkStill else State.hkRun n s 0
      else if s.flag Obj.HK_START_PEND then State.hkRun n (s.setO Obj.HK_START_PEND 0) 0
      else (s.setO Obj.HK_STATE 1).hkStill

/-- A pass begins at entry 0. -/
def State.hkPass (s : State) : State := s.hkRun 4 0

/-- The conversion in progress is abandoned and counted (R447, R448). -/
def State.hkAbandon (s : State) : State :=
  match s.hk.entry with
  | some _ => (s.bump Obj.HK_ABANDONED).hkStill
  | none => s

/-- START, from the host or a time alarm; the sequencer's node is ungated by the work (R407, R446, R448). -/
def State.hkStart (s : State) : State :=
  match s.o Obj.HK_STATE with
  | 0 => s
  | 1 => (s.ungate 24).hkPass
  | _ => if s.flag Obj.HK_START_PEND then s.bump Obj.HK_START_MISSED else s.setO Obj.HK_START_PEND 1

/-- An URGENT has been accepted and waits for its tick (R442). -/
def State.hkUrgentPending (s : State) : Bool := s.livePend.contains (Obj.HK_CTRL, 3)

/-- The slices swap when a swap is due and nothing defers it; a swap due but deferred is counted once (R442). -/
def State.hkSwap (s : State) : State :=
  if s.hk.served < 64 then s
  else if s.hkUrgent || s.hkUrgentPending || !s.hk.sparePassed || s.cufel.down then
    if s.hk.deferred then s else { s.bump Obj.HK_SWAP_DEFER with hk := { s.hk with deferred := true } }
  else
    { (s.setO Obj.HK_SLICE (1 - s.o Obj.HK_SLICE)).bump Obj.HK_SWAPS with
      hk := { s.hk with served := 0, deferred := false, sparePassed := false } }

/-- STOP (R448; STOP during an urgent conversion, log entry 61). -/
def State.hkStop (s : State) : State :=
  match s.o Obj.HK_STATE with
  | 2 => ((s.hkAbandon.setO Obj.HK_START_PEND 0).setO Obj.HK_STATE 1).hkStill.hkSwap
  | 3 | 4 => { s.setO Obj.HK_START_PEND 0 with hk := { s.hk with stopAfter := true } }
  | _ => s

/-- URGENT (R447). -/
def State.hkUrgentStart (s : State) : State :=
  match s.o Obj.HK_STATE with
  | 1 => ((s.ungate 24).setO Obj.HK_STATE 3).hkBegin 63
  | 2 =>
    let m := s.hk.entry.getD 0
    let t := s.hkAbandon
    ({ t with hk := { t.hk with suspended := m } }.setO Obj.HK_STATE 4).hkBegin 63
  | _ => s

/-- HK_CTRL is judged at its execution (R445 to R448); OFF refuses every code (log entry 158). -/
def State.hkCtrlCheck (s : State) (v : Nat) : Status :=
  let st := s.o Obj.HK_STATE
  match v with
  | 1 => if st = 0 then .functionRunning else .ok
  | 2 => if st ≤ 1 then .functionRunning else .ok
  | 3 =>
    if st ≠ 1 ∧ st ≠ 2 then .functionRunning
    else if hkEntryValid (s.o Obj.HK_MUX_MODE) (s.o Obj.HK_URG_ENTRY) then .ok else .outOfRange
  | _ => .functionRunning

/-- HK_CTRL takes effect. -/
def State.hkCtrlEffect (s : State) (v : Nat) : State :=
  match v with
  | 1 => s.hkStart
  | 2 => s.hkStop
  | 3 => s.hkUrgentStart
  | _ => s

/-! ### Results (R437, R439, R440, R449, R450) -/

/-- A modulator count under a slice's constants, rounded to a code; which way a half is rounded is an open bit (R438, R439, R441;
log entries 3, 177). -/
def hkCode (c : Int × Nat) (raw : Int) (up : Nat) : Int :=
  let p := (raw - c.1) * c.2
  if p % 65536 = 32768 then p / 65536 + (up % 2 : Nat) else (p + 32768) / 65536

/-- A count that its constants put half-way between two codes. -/
def hkHalf (c : Int × Nat) (raw : Int) : Bool := (raw - c.1) * c.2 % 65536 == 32768

/-- The constants of the serving slice at a range (R441). -/
def State.hkServing (s : State) (r : Nat) : Int × Nat := s.hk.consts.getD (4 * s.o Obj.HK_SLICE + r) (0, 65536)

/-- A code limited to 20 bits without -524,288 (R439). -/
def hkClip (x : Int) : Int := if x > 524287 then 524287 else if x < -524287 then -524287 else x

/-- HK_RESULT is read (R450). -/
def State.hkMarkRead (s : State) : State := { s with hk := { s.hk with unread := false } }

/-- A result word (R449). -/
def hkWord (seq entry range slice code : Nat) (overrun dist rep opn ovl ranged fb : Bool) : Nat :=
  seq * 2 ^ 48 + entry * 2 ^ 42 + range * 2 ^ 40 + slice * 2 ^ 39 + b2n overrun * 2 ^ 38 + b2n dist * 2 ^ 37
    + b2n rep * 2 ^ 36 + b2n opn * 2 ^ 35 + b2n ovl * 2 ^ 34 + b2n ranged * 2 ^ 33 + b2n fb * 2 ^ 32 + code

/-- The result is written to the register, and handed to the Cufel server as an EVENT when HK_RES_EVT is 1 and the server
can take it (R450). -/
def State.hkWrite (s : State) (w : Nat) : State :=
  let s := if s.hk.unread then s.bump Obj.HK_OVERRUNS else s
  let s := ((s.setO Obj.HK_RESULT w).wrapBy 48 Obj.HK_CONV 1)
  let s : State := { s with hk := { s.hk with unread := true, served := s.hk.served + 1 } }
  if s.flag Obj.HK_RES_EVT && !s.cufel.down then
    let t := s.recordEvent 0x6000 0x08 (bytesLE 8 w)
    if s.cufel.events.length < t.cufel.events.length then t.hkMarkRead else t
  else s

/-- The range state after a result (R437). -/
def State.hkMoveRange (s : State) (m : Nat) (code : Int) (stuck : Bool) : State :=
  if bits (s.o (hkEntryKey m)) 36 34 ≠ 4 then s
  else
    let r := s.o (hkRangeKey m)
    if code.natAbs > 498073 ∧ 0 < r then s.setO (hkRangeKey m) (r - 1)
    else if code.natAbs < 104857 ∧ r < 3 ∧ !stuck then s.setO (hkRangeKey m) (r + 1)
    else s

/-- The sequencer moves on after a result of entry m (R446 to R448). -/
def State.hkNext (s : State) (m : Nat) : State :=
  match s.o Obj.HK_STATE with
  | 2 => (s.hkStill.hkSwap).hkRun 4 (m + 1)
  | 3 =>
    let s := (({ s with hk := { s.hk with stopAfter := false } }.hkStill).setO Obj.HK_STATE 1).hkSwap
    if s.flag Obj.HK_START_PEND then (s.setO Obj.HK_START_PEND 0).hkPass else s
  | 4 =>
    let stop := s.hk.stopAfter
    let s : State := { s with hk := { s.hk with stopAfter := false } }
    let s := (s.hkStill.setO Obj.HK_STATE (if stop then 1 else 2)).hkSwap
    if stop then s else s.hkRun 4 s.hk.suspended
  | _ => s

/-- The end of the integration of entry m, with the modulator's count of each half, and whether the ratiometric
reference was below 50 mV; fb says that a fallback that has ended overlapped the integration and not the connection phases
alone. An auto-ranged input beyond full scale above x1 is clipped without a flag: beyond 105 percent it restarts (R437).
One overloaded half, or a negative overload with BO on, reads as overload (log entry 158). Without the disturbance check the
first count is that of the whole integration. The result is the mean of the limited codes; a mean with an odd sum is an open
value between them (log entry 3). -/
def State.hkEnd (s : State) (m : Nat) (raw1 raw2 : Int) (refLow fb : Bool) : State :=
  let v := s.o (hkEntryKey m)
  let clkfb := s.onIntosc || (fb && s.hk.onInt)
  let mode := bits v 62 60
  let dchk := bit v 13
  let bo := hkBurn v != 0
  let r := s.hkRange m
  let c := s.hkServing r
  let raw2 := if dchk then raw2 else raw1
  let x1 := hkCode c raw1 s.open
  let x2 := hkCode c raw2 (if raw2 = raw1 then s.open else s.open / 2)
  let s := if hkHalf c raw1 || hkHalf c raw2 then s.drawn else s
  let dist := dchk && decide ((hkClip x1 - hkClip x2).natAbs > s.hk.limit)
  let s := if dist then s.bump Obj.HK_DIST_CNT else s
  if dist && bit v 12 && !s.hk.repeating then
    { s with hk := { s.hk with repeating := true, retries := 0, onInt := s.onIntosc, limit := s.o Obj.HK_DIST_LIMIT } }
  else
    let high := decide (x1 > 524287) || decide (x2 > 524287)
    let low := decide (x1 < -524287) || decide (x2 < -524287)
    let low' := refLow && (mode == 2 || mode == 3)
    let opn := low' || (high && bo && (r == 0 || bits v 36 34 != 4))
    let ovl := !opn && (high || low) && (r == 0 || bits v 36 34 != 4)
    let sum := hkClip x1 + hkClip x2
    let odd := sum % 2 = 1 ∧ !(opn || ovl)
    let code : Int := if opn || (ovl && high) then 524287 else if ovl then -524287
      else if odd then (sum + (s.open % 2 : Nat)) / 2 else sum / 2
    let s := if odd then s.drawn else s
    let s := if opn then s.bump Obj.HK_OPEN_CNT else s
    let w := hkWord ((bits (s.o Obj.HK_RESULT) 63 48 + 1) % 2 ^ 16) m r (s.o Obj.HK_SLICE) (ofSigned 20 code)
      s.hk.unread dist s.hk.repeating opn ovl (s.hk.retries != 0) clkfb
    ((s.hkWrite w).hkMoveRange m code (opn || ovl)).hkNext m

/-! ### Calibration of the spare (R441, R442) -/

/-- Offset and gain of one range from raw_zero and raw_ref, both counted from the modulator's mid count: the 16 fraction
bits of a gain that has more are an open value (log entry 3). -/
def hkConst (zero ref : Int) (up : Nat) : Int × Nat :=
  let d := (ref - zero).toNat
  (zero, 393216 * 65536 / d + (if 393216 * 65536 % d = 0 then 0 else up % 2))

/-- One range passes: gain within 1 percent of 1, offset within 2,048 codes. -/
def hkConstOk (zero ref : Int) : Bool :=
  decide (0 < ref - zero) && decide (99 * (ref - zero) ≤ 39321600) && decide (39321600 ≤ 101 * (ref - zero))
    && decide (zero.natAbs ≤ 2048)

/-- Constants of a slice from four pairs of raw values, when they pass. -/
def State.hkConsts (s : State) (slice : Nat) (raw : List (Int × Int)) : Option State :=
  if raw.length = 4 ∧ raw.all (fun e => hkConstOk e.1 e.2) then
    let l := raw.map fun e => hkConst e.1 e.2 s.open
    some { s.drawn with hk := { s.hk with consts := if slice = 0 then l ++ s.hk.consts.drop 4 else s.hk.consts.take 4 ++ l } }
  else none

/-- A calibration of slice n ends: it passes and its constants take effect, or it is counted as failed, and the
eighth failure in a row is a HOUSEKEEPING fault (R441, R536). -/
def State.hkSliceCal (s : State) (n : Nat) (raw : List (Int × Int)) : State × Bool :=
  match s.hkConsts n raw with
  | some t => ({ t with hk := { t.hk with fails := t.hk.fails.set n 0 } }, true)
  | none =>
    let t := s.bump Obj.HK_CAL_FAIL
    let k := t.hk.fails.getD n 0 + 1
    let t : State := { t with hk := { t.hk with fails := t.hk.fails.set n k } }
    (if k % 8 = 0 then t.raiseFault 8 (Fin.ofNat 128 n) else t, false)

/-- A slice of a re-initialisation has been calibrated; after both, a sequence that ran starts again (R536). -/
def State.hkRecal (s : State) (n : Nat) (rest : List Nat) (raw : List (Int × Int)) : State :=
  match s.hkSliceCal n raw with
  | (t, false) => t
  | (t, true) =>
    let t : State := { t with hk := { t.hk with recal := rest, sparePassed := true } }
    if rest.isEmpty then
      let u : State := { t with hk := { t.hk with restart := false }, power := { t.power with reinit := t.power.reinit.filter (· != 8) } }
      if t.hk.restart && u.o Obj.HK_STATE == 1 then u.hkStart else u
    else t

/-- A calibration of the spare ends, or of a slice under re-initialisation. -/
def State.hkCalDone (s : State) (raw : List (Int × Int)) : State :=
  match s.hk.recal with
  | n :: r => s.hkRecal n r raw
  | [] =>
  match s.hkSliceCal (1 - s.o Obj.HK_SLICE) raw with
  | (t, true) =>
    let t : State := { t with hk := { t.hk with sparePassed := true } }
    if t.hk.entry.isNone then t.hkSwap else t
  | (t, false) => t

/-- HK_CAL as it reads: both slices' offsets and gains (R441, R453). -/
def State.hkCalBytes (s : State) : List Byte :=
  s.hk.consts.flatMap fun e => bytesLE 4 (ofSigned 32 e.1) ++ bytesLE 4 e.2

/-! ### The commands -/

/-- HK_START. -/
def execHkStart (q : Req) (s : State) : Host.Outcome State Fault Refusal :=
  .next (s.ifRequest q (s.hostWrite q Obj.HK_CTRL false (s.hkCtrlCheck 1) (s.pendLive Obj.HK_CTRL 1)))

/-- HK_STOP. -/
def execHkStop (q : Req) (s : State) : Host.Outcome State Fault Refusal :=
  .next (s.ifRequest q (s.hostWrite q Obj.HK_CTRL false (s.hkCtrlCheck 2) (s.pendLive Obj.HK_CTRL 2)))

/-- HK_URGENT. -/
def execHkUrgent (q : Req) (s : State) : Host.Outcome State Fault Refusal :=
  .next (s.ifRequest q (s.hostWrite q Obj.HK_CTRL false (s.hkCtrlCheck 3) (s.pendLive Obj.HK_CTRL 3)))

/-- HK_RANGE_RESTART: in auto-ranging above x1, at most three times in one conversion (R437). -/
def execHkRangeRestart (s : State) : Host.Outcome State Fault Refusal :=
  .next (s.ifAwake (match s.hk.entry with
    | some m =>
      if bits (s.o (hkEntryKey m)) 36 34 = 4 ∧ 0 < s.o (hkRangeKey m) ∧ s.hk.retries < 3 then
        let s := (s.setO (hkRangeKey m) (s.o (hkRangeKey m) - 1)).bump Obj.HK_RANGE_RETRY
        { s with hk := { s.hk with retries := s.hk.retries + 1 } }
      else s
    | none => s))

/-- HK_CONVERSION_END. -/
def execHkConversionEnd (raw1 raw2 : Int) (refLow clkfb : Bool) (s : State) : Host.Outcome State Fault Refusal :=
  .next (s.ifAwake (match s.hk.entry with
    | some m => s.hkEnd m raw1 raw2 refLow clkfb
    | none => s))

/-- HK_CAL_DONE: the spare is calibrated while the sequencer is on and the supervisor is available (R442). -/
def execHkCalDone (raw : List (Int × Int)) (s : State) : Host.Outcome State Fault Refusal :=
  .next (s.ifAwake (if s.o Obj.HK_STATE = 0 ∨ s.cufel.down then s else s.hkCalDone raw))

/-- HK_RESULT_READ: the response carries the result, which then counts as read (R450). -/
def execHkResultRead (q : Req) (s : State) : Host.Outcome State Fault Refusal :=
  .next (s.ifRequest q (s.hkMarkRead.respRead q Obj.HK_RESULT 6 (bytesLE 8 (s.o Obj.HK_RESULT))))

end Sys2Proof.Machine
end

