-- ==== Sys2Proof/Machine/Cufel.lean ====
section
/-! DEFINITION. The Cufel server: checks on receipt, repeats, relay, events, heartbeats, sessions and keys (R454 to R473,
R482). -/
namespace Sys2Proof.Machine

/-! ### Paths (R482) -/

/-- The CAN port sends Cufel frames (R476, R480). -/
def State.canSends (s : State) : Bool :=
  [2, 4, 5].contains (s.o Obj.CAN_STATE) && !s.can.busOff && s.o Obj.CAN_CLKSRC != 0

/-- The north link takes messages. -/
def State.northTakes (s : State) : Bool := s.o Obj.RG_LSTATE == 3

/-- The path that can take an EVENT or HEARTBEAT now. -/
def State.eventPath (s : State) : Option Path :=
  match s.o Obj.CF_EVT_PATH with
  | 0 => if s.northTakes then some .north else none
  | 1 => if s.canSends then some .can else none
  | _ =>
    if s.northTakes then some .north
    else if s.canSends && (s.o Obj.CAN_STATE == 2 || s.o Obj.CAN_STATE == 4) then some .can else none

/-! ### Events and heartbeats (R469 to R471) -/

/-- The body of an EVENT (R469). -/
def Event.body (e : Event) : List Byte :=
  bytesLE 24 (e.seq * 2 ^ 176 + e.cls * 2 ^ 168 + e.code * 2 ^ 152 + e.xc * 2 ^ 104 + e.nt * 2 ^ 40 + e.objIdx * 2 ^ 24
    + e.objSub * 2 ^ 16 + e.payload.length) ++ e.payload

/-- An unsolicited message. -/
def State.unsolicited (s : State) (mtype tid : Nat) (body : List Byte) : Msg :=
  { mtype := mtype, alive := 0, tid := tid, dst := s.o Obj.CF_EVT_DEST, src := s.o Obj.CF_ADDR, status := 0, resp := false,
    body := body }

/-- An event leaves the queue by a path. -/
def State.eventOut (s : State) (p : Path) (e : Event) (rest : List Event) : State :=
  { s with cufel := { s.cufel with events := rest } }.send p (s.unsolicited 0x10 (e.seq % 256) e.body)

/-- A HEARTBEAT leaves by a path; its TID is not stated (log entry 3). -/
def State.beatOut (s : State) (p : Path) (body : List Byte) : State :=
  { s with cufel := { s.cufel with beat := none } }.drawn.send p (s.unsolicited 0x11 (s.open % 256) body)

/-- In CONFLICT the port sends nothing; an ADDRESS_CONFLICT then goes by the north path (R480). -/
def State.conflictEvent (s : State) : Option Event :=
  if s.o Obj.CAN_STATE = 6 ∧ s.northTakes = true then s.cufel.events.find? fun e => e.code == 0x0601 else none

/-- EVENT_SEND: a waiting HEARTBEAT, else the oldest event, goes on the selected path once it can take it. -/
def State.eventSend (s : State) : State :=
  match s.eventPath with
  | some p =>
    match s.cufel.beat, s.cufel.events with
    | some b, _ => s.beatOut p b
    | none, e :: r => s.eventOut p e r
    | none, [] => s
  | none =>
    match s.conflictEvent with
    | some e => s.eventOut .north e (s.cufel.events.erase e)
    | none => s

/-- The body of a HEARTBEAT (R470). -/
def State.heartbeat (s : State) : List Byte :=
  bytesLE 16 (s.xc * 2 ^ 80 + s.o Obj.PWR_STATE * 2 ^ 72 + s.o Obj.CLK_STATE * 2 ^ 64 + s.cufel.events.length * 2 ^ 48
    + s.o Obj.FLT_FAULTN * 2 ^ 47 + b2n (s.degrNow != 0) * 2 ^ 46 + b2n (!s.cufel.sessions.isEmpty) * 2 ^ 45
    + b2n (s.o Obj.CAN_STATE == 4) * 2 ^ 44 + s.o Obj.CF_UPTIME)

/-- HEARTBEAT_SEND: one that waits goes first, and without a path the HEARTBEAT waits; of several that wait the newest stays (R482;
DESIGN CHOICE, log entry 178). -/
def State.heartbeatSend (s : State) : State :=
  if s.o Obj.CF_HB_PER = 0 then s
  else match s.eventPath with
    | some p =>
      let t := match s.cufel.beat with | some b => s.beatOut p b | none => s
      t.beatOut p s.heartbeat
    | none => { s with cufel := { s.cufel with beat := some s.heartbeat } }

/-! ### Receipt (R459, R460, R462, R473) -/

/-- A host address (R457). -/
def hostAddr (a : Nat) : Bool := decide (9 ≤ a % 16) && decide (a % 16 ≤ 14)

/-- The types of R455 that are requests. -/
def isRequest (t : Nat) : Bool := (decide (1 ≤ t) && decide (t ≤ 8)) || t == 0x11

/-- A message is relayed to the leaf on port k, or discarded (R460). -/
def State.relaySouth (s : State) (k : Nat) (b : List Byte) : State :=
  if s.o (Obj.HUB_PSTATE k) = 3 then
    { s.wrapBy 32 Obj.CF_RELAY_SOUTH 1 with
      cufel := { s.cufel with relay := s.cufel.relay.set k (s.cufel.relay.getD k [] ++ [b]) } }
  else s.bump Obj.CF_RELAY_DROP

/-- A repeat receives the response kept for its source when its TID is that of the response (R462). -/
def State.repeatResponse (s : State) (p : Path) (e : AliveEntry) (tid : Nat) : State :=
  let s := s.bump Obj.CHK_ALIVE_REP
  match e.kept with
  | some m => if m.tid = tid then (s.bump Obj.CF_RESP_CACHED).keepSend p m else s
  | none => s

/-- The alive table after a message has been accepted: the source first, at most 32 sources (R274). -/
def State.aliveAccept (s : State) (p : Path) (src alive node : Nat) : State :=
  let t := s.cufel.table p
  let old := t.find? fun e => e.src == src
  let s := match old with
    | some e => if alive ≠ (e.alive + 1) % 16 then s.bump Obj.CHK_ALIVE_GAP else s
    | none => s
  let e : AliveEntry := { src := src, alive := alive, kept := match old with | some e => e.kept | none => none, node := node }
  { s with cufel := s.cufel.setTable ((e :: t.filter fun x => x.src != src).take 32) p }

/-- A refusal at receipt waits behind the requests before it (R461). -/
def State.refuseMsg (s : State) (p : Path) (m : Msg) (st : Status) (body : List Byte) : State :=
  let r : Msg := { m with dst := m.src, src := s.o Obj.CF_ADDR, status := st.code, resp := true, body := body }
  let e : Queued := { path := p, msg := m, addr := s.o Obj.CF_ADDR, refusal := some r }
  let q := s.cufel.queue ++ [e]
  State.flushRefusals q.length { s with cufel := { s.cufel with queue := q } }

/-- Steps 4 to 8 of R459. -/
def State.cufelAccept (s : State) (p : Path) (node : Nat) (b : List Byte) : State :=
  let m := parseMsg b
  if m.resp || (m.dst != s.o Obj.CF_ADDR && m.dst != 0xFFFF) || !hostAddr m.src then s.bump Obj.CF_RX_MISADDR
  else match (s.cufel.table p).find? fun e => e.src == m.src && e.alive == m.alive with
    | some e => s.repeatResponse p e m.tid
    | none =>
      let s := s.aliveAccept p m.src m.alive node
      if msgVer b ≠ 2 then (s.bump Obj.CF_VER_REFUSED).refuseMsg p m .version (bytesLE 2 (s.o Obj.CF_CUFEL_SET))
      else if !isRequest m.mtype then (s.bump Obj.CF_RX_BAD).refuseMsg p m .unsupported []
      else
        let e : Queued := { path := p, msg := m, addr := s.o Obj.CF_ADDR }
        { s.bump Obj.CF_RX_MSGS with cufel := { s.cufel with queue := s.cufel.queue ++ [e] } }

/-- A message through R459 from step 1. -/
def State.cufelCheck (s : State) (p : Path) (node : Nat) (b : List Byte) : State :=
  if !msgFits b then s.bump Obj.CF_RX_BAD
  else match (if p = .north then s.leafPort (msgDst b) else none) with
    | some k => s.relaySouth k b
    | none =>
      let s := s.check 35 (b.take (16 + msgLen b))
      if !msgCrcOk b then s.bump Obj.CF_RX_BAD else s.cufelAccept p node b

/-- A path's oldest message is the one whose reception completed first on either path (R461). -/
def Cufel.comesNext (c : Cufel) (p : Path) : Bool :=
  match c.order with
  | [] => true
  | o :: _ => o == p

/-- CUFEL_RECEIVE: the supervisor takes the oldest message of a path's buffer, in its turn among those of both paths. -/
def State.cufelReceive (s : State) (p : Path) : State :=
  if !s.serverUp || !s.cufel.comesNext p then s
  else
    let t : State := { s with cufel := { s.cufel with order := s.cufel.order.erase p } }
    match p with
    | .north =>
      match s.north.mailbox with
      | b :: r => ({ t with north := { s.north with mailbox := r } }).cufelCheck .north 0x3F b
      | [] => s
    | .can =>
      match s.can.inbox with
      | (n, b) :: r => ({ t with can := { s.can with inbox := r } }).cufelCheck .can n b
      | [] => s

/-! ### Keys and sessions (R466, R467) -/

/-- A path is locked out. -/
def Cufel.locked (c : Cufel) : Path → Bool
  | .north => c.lockNorth | .can => c.lockCan

/-- Consecutive KEY_REFUSED outcomes of a path. -/
def Cufel.fails (c : Cufel) : Path → Nat
  | .north => c.failsNorth | .can => c.failsCan

/-- A path's count of refused keys and its lock-out replaced. -/
def Cufel.setFails (c : Cufel) (n : Nat) (lock : Bool) : Path → Cufel
  | .north => { c with failsNorth := n, lockNorth := lock }
  | .can => { c with failsCan := n, lockCan := lock }

/-- The challenge of the request's source. -/
def State.challengeOf (s : State) (q : Req) : Option Challenge :=
  s.cufel.challenges.find? fun c => decide (c.path = q.path) && c.src == q.src.toNat

/-- A source's challenge replaced. -/
def State.setChallenge (s : State) (q : Req) (c : Challenge) : State :=
  { s with cufel := { s.cufel with
      challenges := (s.cufel.challenges.filter fun c => !(decide (c.path = q.path) && c.src == q.src.toNat)) ++ [c] } }

/-- A new challenge: an open value that differs from the previous one (log entry 3). -/
def State.newChallenge (s : State) (q : Req) : State × Nat :=
  let v := s.open % 2 ^ 16
  let v := match s.challengeOf q with
    | some c => if c.value = v then (v + 1) % 2 ^ 16 else v
    | none => v
  (s.drawn.setChallenge q { path := q.path, src := q.src.toNat, value := v, key := s.o Obj.CF_KEY, used := false }, v)

/-- A key or an unlock value is judged; either outcome consumes the challenge. -/
def State.tryKey (s : State) (q : Req) (v : Nat) (inTime : Bool) : State × Status :=
  if s.cufel.locked q.path then (s, .lockedOut)
  else
    let right := inTime && match s.challengeOf q with
      | some c => !c.used && v == c.value ^^^ c.key
      | none => false
    let s := match s.challengeOf q with
      | some c => s.setChallenge q { c with used := true }
      | none => s
    if right then ({ s with cufel := s.cufel.setFails 0 false q.path }, .ok)
    else
      let n := s.cufel.fails q.path + 1
      let s := s.bump Obj.CF_KEY_FAIL
      ({ s with cufel := s.cufel.setFails (if n ≥ 3 then 0 else n) (decide (n ≥ 3)) q.path }, .keyRefused)

/-- An unlock (R466). -/
def State.unlock (s : State) (q : Req) (v : Nat) (inTime : Bool) : State × Status :=
  match s.tryKey q v inTime with
  | (t, .ok) =>
    if t.isExpert q then (t, .ok)
    else if t.cufel.sessions.length ≥ 4 then (t, .noResource)
    else ({ t with cufel := { t.cufel with sessions := t.cufel.sessions ++ [{ path := q.path, src := q.src.toNat }] } }, .ok)
  | r => r

/-- The session of a source ends. -/
def State.endSession (s : State) (p : Path) (src : Nat) : State :=
  { s with cufel := { s.cufel with sessions := s.cufel.sessions.filter fun e => !(decide (e.path = p) && e.src == src) } }

/-- A write of CF_UNLOCK, acting for its source. -/
def State.unlockWrite (s : State) (q : Req) (v : Nat) (inTime : Bool) : State :=
  let r := s.unlock q v inTime
  r.1.respWrite q Obj.CF_UNLOCK r.2 s.xeff

/-- A write of CF_LOCK, acting for its source. -/
def State.lockWrite (s : State) (q : Req) (v : Nat) : State :=
  if v = 1 then (s.endSession q.path q.src.toNat).respWrite q Obj.CF_LOCK .ok s.xeff
  else s.respWrite q Obj.CF_LOCK .outOfRange 0

/-- A read of CF_CHALLENGE, acting for its source. -/
def State.challengeRead (s : State) (q : Req) : State :=
  let r := s.newChallenge q
  r.1.respRead q Obj.CF_CHALLENGE 3 (bytesLE 2 r.2)

/-- A FUNCTION_CMD that is judged by level, key and arguments: the response carries FUNC, CMD and RESULT (R464, R467,
R535). -/
def State.functionCmd (s : State) (q : Req) (func cmd key arg : Nat) (expert keyed inTime : Bool) (check : State → Status)
    (effect : State → State × Nat) : State :=
  let answer (s : State) (st : Status) (result : Nat) : State :=
    s.respond q 0x08 st (bytesLE 1 func ++ bytesLE 1 cmd ++ bytesLE 4 result)
  if s.badLength q 8 then answer s .length 0
  else if arg ≠ 0 ∨ (keyed = false ∧ key ≠ 0) then answer s .outOfRange 0
  else if expert && !s.isExpert q then answer s .expertRequired 0
  else
    let r : State × Status := if keyed then s.tryKey q key inTime else (s, .ok)
    match r.2 with
    | .ok =>
      match check r.1 with
      | .ok =>
        let e := effect r.1
        answer e.1 .ok e.2
      | st => answer r.1 st 0
    | st => answer r.1 st 0

/-! ### Cluster id (R29, R458) -/

/-- A write of CF_CLUSTER_ID is judged. -/
def State.clusterCheck (s : State) (v : Nat) : Status :=
  if s.o Obj.CF_ROLE = 1 then .functionRunning else if v > 0xFFF then .outOfRange else .ok

/-- CF_CLUSTER_ID takes effect; a hub passes the new id to its linked leaves, and a leaf only keeps its own stored value. -/
def State.clusterEffect (s : State) (v : Nat) : State :=
  if s.o Obj.CF_ROLE = 1 then s.setO Obj.CF_CLUSTER_ID v
  else
  let old := s.clusterId
  let s := (s.setO Obj.CF_CLUSTER_ID v).setO Obj.CF_ADDR (v * 16 + s.o Obj.CF_ADDR % 16)
  let s : State := if old = 0xFFF ∧ v ≠ 0xFFF then { s with query := { s.query with lastQid := none } } else s
  if s.isHub && old != v then
    (List.range 8).foldl (fun t k => if t.o (Obj.RG_SSTATE k) = 3 then t.sendCaps (.south (portFin k)) else t) s
  else s

/-! ### The commands -/

/-- CUFEL_RECEIVE. -/
def execCufelReceive (p : Path) (s : State) : Host.Outcome State Fault Refusal := .next (s.ifServed (s.cufelReceive p))

/-- HEARTBEAT_REQUEST. -/
def execHeartbeatRequest (q : Req) (s : State) : Host.Outcome State Fault Refusal :=
  .next (s.ifRequest q (if s.badLength q 0 then s.respond q 0x11 .length (List.replicate 16 0) else s.respond q 0x11 .ok s.heartbeat))

/-- HEARTBEAT_SEND. -/
def execHeartbeatSend (s : State) : Host.Outcome State Fault Refusal := .next (s.ifServed s.heartbeatSend)

/-- EVENT_SEND. -/
def execEventSend (s : State) : Host.Outcome State Fault Refusal := .next (s.ifServed s.eventSend)

/-- CF_CHALLENGE_READ. -/
def execCfChallengeRead (q : Req) (s : State) : Host.Outcome State Fault Refusal := .next (s.ifRequest q (s.challengeRead q))

/-- CF_UNLOCK_WRITE: inTime says that 100 ms have not passed since the challenge was read. -/
def execCfUnlockWrite (q : Req) (v : BitVec 16) (inTime : Bool) (s : State) : Host.Outcome State Fault Refusal :=
  .next (s.ifRequest q (s.unlockWrite q v.toNat inTime))

/-- CF_LOCK_WRITE. -/
def execCfLockWrite (q : Req) (v : BitVec 8) (s : State) : Host.Outcome State Fault Refusal := .next (s.ifRequest q (s.lockWrite q v.toNat))

/-- SESSION_TIMEOUT. -/
def execSessionTimeout (p : Path) (src : BitVec 16) (s : State) : Host.Outcome State Fault Refusal :=
  .next (s.ifAwake (s.endSession p src.toNat))

/-- LOCKOUT_EXPIRE. -/
def execLockoutExpire (p : Path) (s : State) : Host.Outcome State Fault Refusal :=
  .next (s.ifAwake { s with cufel := s.cufel.setFails 0 false p })

/-- BLOCK_TRANSFER_TIMEOUT. -/
def execBlockTransferTimeout (p : Path) (src : BitVec 16) (s : State) : Host.Outcome State Fault Refusal :=
  .next (s.ifAwake (if s.cufel.transfers.any fun t => decide (t.path = p) && t.src == src.toNat then
      { s.bump Obj.CF_BLK_ABANDON with
        cufel := { s.cufel with transfers := s.cufel.transfers.filter fun t => !(decide (t.path = p) && t.src == src.toNat) } }
    else s))

/-- CF_CLUSTER_ID_WRITE. -/
def execCfClusterIdWrite (q : Req) (v : BitVec 16) (s : State) : Host.Outcome State Fault Refusal :=
  .next (s.ifRequest q (s.hostWrite q Obj.CF_CLUSTER_ID false (s.clusterCheck v.toNat) (s.pendLive Obj.CF_CLUSTER_ID v.toNat)))

end Sys2Proof.Machine
end

