-- ==== Sys2Proof/Machine/Can.lean ====
section
/-! DEFINITION. The CAN FD port: reassembly, frames sent, keeper election, conflicts and bus-off (R474 to R481). -/
namespace Sys2Proof.Machine

/-! ### Frames (R474, R477, R478) -/

/-- A data length that the device sends. -/
def canLength (n : Nat) : Nat := ([8, 12, 16, 20, 24, 32, 48, 64].find? fun l => decide (n ≤ l)).getD 64

/-- A frame's identifier. -/
def canId (ftype snode dnode mseq seg : Nat) (last : Bool) : Nat :=
  ftype * 2 ^ 25 + snode * 2 ^ 19 + dnode * 2 ^ 13 + mseq * 2 ^ 10 + seg * 2 ^ 7 + b2n last * 2 ^ 6

/-- The frames of a message: identifier and data. -/
def canFrames (ftype snode dnode mseq : Nat) (b : List Byte) : List (Nat × List Byte) :=
  let n := ceilDiv b.length 64
  (List.range n).map fun i =>
    let d := (b.drop (64 * i)).take 64
    (canId ftype snode dnode mseq i (i + 1 == n), d ++ List.replicate (canLength d.length - d.length) 0)

/-- FTYPE of a message of the device. -/
def canType (m : Msg) : Nat :=
  if m.resp then 6 else if m.mtype = 0x10 ∧ bits (fromLE (m.body.take 24)) 175 168 = 0 then 4 else 8

/-- The data rate set exceeds the nominal rate, so frames switch the bit rate (R474, R475). -/
def State.canBrs (s : State) : Bool :=
  decide (2 ≤ s.o Obj.CAN_DBR) || (s.o Obj.CAN_DBR == 1 && decide (s.o Obj.CAN_NBR < 3))

/-- The port is error-passive: a counter has reached 128 (R474; log entry 63). -/
def State.canPassive (s : State) : Bool := decide (128 ≤ s.o Obj.CAN_TEC) || decide (128 ≤ s.o Obj.CAN_REC)

/-- A frame leaves on the bus, which lowers the transmit error counter by 1, to 0 at least (R474; log entry 160). -/
def State.canPut (s : State) (f : Nat × List Byte) : State :=
  { (s.wrapBy 32 Obj.CAN_TX_FRAMES 1).setO Obj.CAN_TEC (s.o Obj.CAN_TEC - 1) with
    out := s.out ++ [.can f.1 s.canBrs s.canPassive f.2] }

/-- Frames leave in order. -/
def State.canOut (s : State) (l : List (Nat × List Byte)) : State := l.foldl State.canPut s

/-- The port goes off the bus: an entry is counted, and the transmit error counter, beyond its 8 bits, reads an open value (R474, R536;
log entry 3). -/
def State.canGoOff (s : State) : State :=
  let t := ((s.bump Obj.CAN_BUSOFF).setO Obj.CAN_TEC (s.open % 256)).drawn.noteEvent 9 0 8 1000000
  { t with can := { t.can with busOff := true } }

/-- A transmit error adds 8 to its counter, and takes the port off the bus beyond 255 (R474; log entry 160). -/
def State.canTxError (s : State) : State :=
  if s.o Obj.CAN_TEC + 8 < 256 then s.setO Obj.CAN_TEC (s.o Obj.CAN_TEC + 8) else s.canGoOff

/-- A frame received without error lowers the receive error counter by 1, and a counter of the error-passive range to an open value
from 119 to 127 (R474; log entries 3 and 160). -/
def State.canRxGood (s : State) : State :=
  if s.o Obj.CAN_REC < 128 then s.setO Obj.CAN_REC (s.o Obj.CAN_REC - 1)
  else (s.setO Obj.CAN_REC (119 + s.open % 9)).drawn

/-- One message leaves; the node of a request's source gets its response, an EVENT or HEARTBEAT goes to CAN_EVT_NODE. -/
def State.canMessage (s : State) (m : Msg) : State :=
  let dnode := if m.resp then ((s.cufel.aliveCan.find? fun e => e.src == m.dst).map (·.node)).getD 0x3F else s.o Obj.CAN_EVT_NODE
  let s := s.check 34 m.headBody
  let s := s.canOut (canFrames (canType m) (s.o Obj.CAN_NODE) dnode s.can.mseq m.bytes)
  { s with can := { s.can with mseq := (s.can.mseq + 1) % 8 } }

/-- The messages that wait leave, when the port sends Cufel frames. -/
def State.canFlush (s : State) : State :=
  if s.canSends then ({ s with cufel := { s.cufel with outCan := [] } }) |> fun t => s.cufel.outCan.foldl State.canMessage t else s

/-- A frame that the port itself sends to every node: claim, heartbeat or beacon. -/
def State.canKeeperFrame (s : State) (ftype : Nat) (data : List Byte) : State :=
  s.canOut [(canId ftype (s.o Obj.CAN_NODE) 0x3F 0 0 false, data)]

/-- Whole seconds since a tick index, by the nominal crossing clock. -/
def State.secondsSince (s : State) (t : Nat) : Nat := (s.tick - t) / s.o Obj.CLK_FX_NOM

/-! ### States (R480) -/

/-- The port has a clock correction (R476). -/
def State.canClocked (s : State) : Bool := s.o Obj.CAN_CLKSRC != 0

/-- A claim begins. -/
def State.canClaim (s : State) : State :=
  { s.setO Obj.CAN_STATE 3 with can := { s.can with claimSent := false, collisions := 0 } }

/-- The port enters MEMBER. -/
def State.canMember (s : State) : State :=
  { s.setO Obj.CAN_STATE 2 with can := { s.can with claimSent := false, collisions := 0 } }

/-- The port without its bus state: complete messages and the counts since reset stay, and no keeper is known. -/
def State.canClear (s : State) : State :=
  { s.setO Obj.CAN_KEEPER 0xFF with
    can := { inbox := s.can.inbox, backoffs := s.can.backoffs, mseq := s.can.mseq } }

/-- The port becomes active: LISTEN, or NOID for a device strapped to node id 0x3F (R477). -/
def State.canListen (s : State) : State := s.canClear.setO Obj.CAN_STATE (if s.o Obj.CAN_NODE = 0x3F then 7 else 1)

/-- CAN_ENABLE takes effect; CONFLICT and NOID are left at a reset only (log entry 62). -/
def State.canEnableEffect (s : State) (v : Nat) : State :=
  let s := s.setO Obj.CAN_ENABLE v
  let st := s.o Obj.CAN_STATE
  if v = 0 then (if st = 6 ∨ st = 7 then s else s.canClear.setO Obj.CAN_STATE 0)
  else if st = 0 then s.canListen
  else s

/-- An address conflict is logged and raises its condition (R480, R550). -/
def State.addressConflict (s : State) : State :=
  (s.stage 0x0601 0 0 (bytesLE 1 (s.o Obj.CAN_NODE) ++ bytesLE 1 (s.o Obj.CAN_STATE))).ariseIf 18

/-- A node that was the keeper is no longer, and knows none (R480). -/
def State.keeperGone (s : State) : State := if s.o Obj.CAN_KEEPER = s.o Obj.CAN_NODE then s.setO Obj.CAN_KEEPER 0xFF else s

/-- A conflict frame has been received. -/
def State.canConflict (s : State) : State :=
  if 2 ≤ s.o Obj.CAN_STATE ∧ s.o Obj.CAN_STATE ≤ 5 then ((s.keeperGone.setO Obj.CAN_CONFLICT 1).setO Obj.CAN_STATE 6).addressConflict else s

/-- The port receives frames: it is on, has a node id and is not off the bus. -/
def State.canHears (s : State) : Bool :=
  decide (1 ≤ s.o Obj.CAN_STATE) && decide (s.o Obj.CAN_STATE ≤ 6) && !s.can.busOff

/-- What every frame received without error does: the counts, and the clock correction from the bus, which eight consecutive
frames whose bit times agree give (R474, R476). -/
def State.canTaken (s : State) (agree : Bool) : State :=
  let s := (s.wrapBy 32 Obj.CAN_RX_FRAMES 1).canRxGood
  let n := if agree then s.can.agree + 1 else 1
  let s : State := { s with can := { s.can with agree := n } }
  if s.o Obj.CAN_CLKSRC = 0 ∧ 8 ≤ n then s.setO Obj.CAN_CLKSRC 1 else s

/-- A frame of the device's kind has been received without error: its sender has been heard (R479). -/
def State.canHeard (s : State) (node : Nat) (agree : Bool) : State :=
  let s := s.canTaken agree
  { s with can := { s.can with heard := (node, s.tick) :: s.can.heard.filter fun e => e.1 != node } }

/-- CAN_NODES: the nodes heard within the last CAN_KEEPER_TO. -/
def State.canNodes (s : State) : Nat :=
  (s.can.heard.filter fun e => !s.ticksCover (s.tick - e.2) (1000 * s.o Obj.CAN_KEEPER_TO + 1)).foldl (fun v e => setBit v e.1 true) 0

/-- The keeper's heartbeat (R479). -/
def State.keeperHb (s : State) : State :=
  s.canKeeperFrame 1 (bytesLE 8 Config.serial.toNat ++ bytesLE 4 (s.secondsSince s.can.since) ++ bytesLE 4 0)

/-- A claim from another node. -/
def State.claimIn (s : State) (node : Nat) : State :=
  let own := s.o Obj.CAN_NODE
  if node = own then s.canConflict
  else match s.o Obj.CAN_STATE with
    | 3 => if node < own then s.canMember else s
    | 4 => if node < own then s.canMember.keeperGone else s.keeperHb
    | _ => s

/-- A keeper heartbeat from another node. -/
def State.keeperIn (s : State) (node : Nat) : State :=
  let own := s.o Obj.CAN_NODE
  if node = own ∧ 2 ≤ s.o Obj.CAN_STATE then s.canConflict
  else
    match s.o Obj.CAN_STATE with
    | 1 => (if s.canClocked then s.canMember else s).setO Obj.CAN_KEEPER node
    | 2 =>
      let s := s.setO Obj.CAN_KEEPER node
      if own < node ∧ s.flag Obj.CAN_KEEPER_EN then s.canClaim else s
    | 3 => (if node < own then s.canMember else s).setO Obj.CAN_KEEPER node
    | 4 => if node < own then s.canMember.setO Obj.CAN_KEEPER node else s
    | 5 =>
      let s := s.setO Obj.CAN_KEEPER node
      if node < own then { s with can := { s.can with lower := true } } else s
    | _ => s

/-- A beacon (R479). -/
def State.beaconIn (s : State) (ms : Nat) : State := (s.setO Obj.CAN_BEACON_MS ms).setO Obj.CAN_BEACON_X s.xc

/-! ### Reassembly (R478) -/

/-- The reassembly of a node is given up. -/
def State.dropReasm (s : State) (node : Nat) : State :=
  { s with can := { s.can with reasm := s.can.reasm.filter fun r => r.node != node } }

/-- A partial message of a node is discarded and counted. -/
def State.loseReasm (s : State) (node : Nat) : State :=
  if s.can.reasm.any fun r => r.node == node then (s.dropReasm node).bump Obj.CAN_RX_DROP else s

/-- A message whose last segment has come: complete, or discarded. -/
def State.canComplete (s : State) (r : Reasm) : State :=
  let s := s.dropReasm r.node
  if ceilDiv (20 + msgLen r.bytes) 64 ≠ r.segs ∨ 8 ≤ s.can.inbox.length then s.bump Obj.CAN_RX_DROP
  else
    { s with can := { s.can with inbox := s.can.inbox ++ [(r.node, r.bytes)] }, cufel := { s.cufel with order := s.cufel.order ++ [.can] } }

/-- A segment for this node. -/
def State.canSegment (s : State) (id : Nat) (data : List Byte) : State :=
  let node := bits id 24 19
  let mseq := bits id 12 10
  let seg := bits id 9 7
  let add (s : State) (r : Reasm) : State :=
    if bit id 6 then s.canComplete r
    else { s.dropReasm node with can := { (s.dropReasm node).can with reasm := (s.dropReasm node).can.reasm ++ [r] } }
  if seg = 0 then add (s.loseReasm node) { node := node, mseq := mseq, segs := 1, bytes := data }
  else match s.can.reasm.find? fun r => r.node == node with
    | some r =>
      if r.mseq = mseq ∧ r.segs = seg then add s { r with segs := seg + 1, bytes := r.bytes ++ data } else s.loseReasm node
    | none => s

/-- An FD frame of the extended format, by its type (R477). -/
def State.canTyped (s : State) (id : Nat) (data : List Byte) (agree : Bool) : State :=
  let node := bits id 24 19
  if !(([0, 1, 2, 4, 6, 8] : List Nat).contains (bits id 28 25)) then (s.canTaken agree).bump Obj.CAN_FOREIGN
  else
    let s := s.canHeard node agree
    match bits id 28 25 with
    | 0 => s.claimIn node
    | 1 => s.keeperIn node
    | 2 => s.beaconIn (fromLE (data.take 6))
    | _ =>
      if node = s.o Obj.CAN_NODE then s.canConflict
      else if bits id 18 13 = s.o Obj.CAN_NODE then s.canSegment id data
      else s

/-- A frame on the bus, by its kind: a foreign one is counted and ignored, and an error raises the receive error counter (R474;
log entry 160). -/
def State.canFrame (s : State) (k : CanKind) (id : Nat) (data : List Byte) (agree : Bool) : State :=
  if !s.canHears then s
  else match k with
    | .fd => s.canTyped id data agree
    | .foreign => (s.canTaken agree).bump Obj.CAN_FOREIGN
    | .error late => s.setO Obj.CAN_REC (satAdd 8 (s.o Obj.CAN_REC) (if late then 8 else 1))

/-! ### Timers (R480) -/

/-- No keeper heartbeat has come for CAN_KEEPER_TO. -/
def State.keeperTimeout (s : State) : State :=
  if (s.o Obj.CAN_STATE = 1 ∧ s.canClocked) ∨ s.o Obj.CAN_STATE = 2 then
    let s := s.setO Obj.CAN_KEEPER 0xFF
    if s.flag Obj.CAN_KEEPER_EN then s.canClaim else s.canMember
  else s

/-- The node's claim has been sent without error. -/
def State.claimSent (s : State) : State :=
  if s.o Obj.CAN_STATE = 3 ∧ s.can.busOff = false then
    let s := s.canKeeperFrame 0 (bytesLE 8 Config.serial.toNat)
    { s with can := { s.can with claimSent := true } }
  else s

/-- 5 ms have passed since the claim with none from a lower node. -/
def State.claimWait (s : State) : State :=
  if s.o Obj.CAN_STATE = 3 ∧ s.can.claimSent then
    let s := ((s.setO Obj.CAN_STATE 4).setO Obj.CAN_KEEPER (s.o Obj.CAN_NODE)).bump Obj.CAN_ELECTIONS
    { s with can := { s.can with since := s.tick } }
  else s

/-- The delay of a backoff in ms: byte r mod 8 of the serial (R480). -/
def State.backoffDelay (s : State) : Nat :=
  let j := s.can.backoffs % 8
  (1 + bits Config.serial.toNat (8 * j + 7) (8 * j)) * 4

/-- A collision within the claim, which is a transmit error; the third one logs the conflict and backs off. -/
def State.claimCollision (s : State) : State :=
  if s.o Obj.CAN_STATE = 3 ∧ s.can.busOff = false then
    let s := (s.bump Obj.CAN_COLL).canTxError
    let n := s.can.collisions + 1
    if n < 3 then { s with can := { s.can with collisions := n } }
    else
      let s := (s.setO Obj.CAN_STATE 5).addressConflict
      { s with can := { s.can with collisions := 0, claimSent := false, lower := false, delay := s.backoffDelay, backoffs := s.can.backoffs + 1 } }
  else s

/-- The backoff ends. -/
def State.backoffEnd (s : State) : State :=
  if s.o Obj.CAN_STATE = 5 then (if s.can.lower then s.canMember else s.canClaim) else s

/-! ### The commands -/

/-- CAN_FRAME_RECEIVE. -/
def execCanFrameReceive (kind : CanKind) (id : BitVec 29) (data : List Byte) (agree : Bool) (s : State) :
    Host.Outcome State Fault Refusal :=
  .next (s.ifAwake ((s.canFrame kind id.toNat data agree).canFlush))

/-- CAN_REASSEMBLY_TIMEOUT. -/
def execCanReassemblyTimeout (node : BitVec 6) (s : State) : Host.Outcome State Fault Refusal := .next (s.ifAwake (s.loseReasm node.toNat))

/-- CAN_CLAIM_RECEIVE. -/
def execCanClaimReceive (node : BitVec 6) (_serial : BitVec 64) (agree : Bool) (s : State) : Host.Outcome State Fault Refusal :=
  .next (s.ifAwake (if s.canHears then ((s.canHeard node.toNat agree).claimIn node.toNat).canFlush else s))

/-- CAN_KEEPER_HB_RECEIVE. -/
def execCanKeeperHbReceive (node : BitVec 6) (_serial : BitVec 64) (_up : BitVec 32) (agree : Bool) (s : State) :
    Host.Outcome State Fault Refusal :=
  .next (s.ifAwake (if s.canHears then ((s.canHeard node.toNat agree).keeperIn node.toNat).canFlush else s))

/-- CAN_BEACON_RECEIVE. -/
def execCanBeaconReceive (node : BitVec 6) (ms : BitVec 48) (_srct : BitVec 8) (agree : Bool) (s : State) :
    Host.Outcome State Fault Refusal :=
  .next (s.ifAwake (if s.canHears then (s.canHeard node.toNat agree).beaconIn ms.toNat else s))

/-- CAN_KEEPER_TIMEOUT. -/
def execCanKeeperTimeout (s : State) : Host.Outcome State Fault Refusal := .next (s.ifAwake s.keeperTimeout.canFlush)

/-- CAN_CLAIM_SENT. -/
def execCanClaimSent (s : State) : Host.Outcome State Fault Refusal := .next (s.ifAwake s.claimSent)

/-- CAN_CLAIM_WAIT_EXPIRE. -/
def execCanClaimWaitExpire (s : State) : Host.Outcome State Fault Refusal := .next (s.ifAwake s.claimWait.canFlush)

/-- CAN_CLAIM_COLLISION. -/
def execCanClaimCollision (s : State) : Host.Outcome State Fault Refusal := .next (s.ifAwake s.claimCollision.canFlush)

/-- CAN_BACKOFF_EXPIRE. -/
def execCanBackoffExpire (s : State) : Host.Outcome State Fault Refusal := .next (s.ifAwake s.backoffEnd.canFlush)

/-- CAN_KEEPER_HB_SEND. -/
def execCanKeeperHbSend (s : State) : Host.Outcome State Fault Refusal :=
  .next (s.ifAwake (if s.o Obj.CAN_STATE = 4 ∧ s.can.busOff = false then s.keeperHb else s))

/-- CAN_BEACON_SEND: network time in ms when NT_STATE is not FREE, otherwise the time since reset (R479). -/
def execCanBeaconSend (s : State) : Host.Outcome State Fault Refusal :=
  .next (s.ifAwake (if s.o Obj.CAN_STATE = 4 ∧ s.can.busOff = false ∧ s.o Obj.CAN_BEACON_PER ≠ 0 then
      let nt := s.o Obj.NT_STATE != 0
      let ms := if nt then s.ntNs / 1000000 else (s.tick - s.power.resetTick) * 1000 / s.o Obj.CLK_FX_NOM
      s.canKeeperFrame 2 (bytesLE 6 ms ++ bytesLE 1 (b2n nt) ++ bytesLE 1 0)
    else s))

/-- CAN_BUS_OFF: transmit errors that no other command reports have taken the counter beyond 255 (log entry 160). -/
def execCanBusOff (s : State) : Host.Outcome State Fault Refusal := .next (s.ifAwake (if s.canHears then s.canGoOff else s))

/-- CAN_BUS_OFF_RECOVERY (R474; the counters restart as in ISO 11898-1, log entry 63). -/
def execCanBusOffRecovery (s : State) : Host.Outcome State Fault Refusal :=
  .next (s.ifAwake (if s.can.busOff then
      State.canFlush { (s.setO Obj.CAN_TEC 0).setO Obj.CAN_REC 0 with can := { s.can with busOff := false } }
    else s))

/-- CAN_ENABLE_WRITE. -/
def execCanEnableWrite (q : Req) (v : BitVec 8) (s : State) : Host.Outcome State Fault Refusal :=
  .next (s.ifRequest q (s.hostWrite q Obj.CAN_ENABLE false (if v.toNat ≤ 1 then .ok else .outOfRange) (s.pendLive Obj.CAN_ENABLE v.toNat)))

end Sys2Proof.Machine
end

