-- ==== Sys2Proof/Machine/Faults.lean ====
section
/-! DEFINITION. The event log and its writer (R551, R553 to R557). -/
namespace Sys2Proof.Machine

/-- The codes marked L in R556. -/
def lifeCodes : List Nat :=
  [0x0101, 0x0103, 0x0202, 0x0203, 0x0204, 0x0205, 0x0301, 0x0302, 0x0303, 0x0306, 0x0307, 0x0308, 0x0406, 0x0407, 0x0408,
   0x0601, 0x0602, 0x0701]

/-- Address of a log slot in the scratchpad (R553). -/
def logAddr (n : Nat) : Nat := 0x5A4000 + 32 * (n % 512)

/-- An entry whose LSEQ lies in FLT_LOG_ACK + 1 to FLT_LOG_ACK + 512 has not been read (R554). -/
def State.unread (s : State) (lseq : Nat) : Bool :=
  let d := (lseq + 2 ^ 16 - s.o Obj.FLT_LOG_ACK) % 2 ^ 16
  decide (1 ≤ d) && decide (d ≤ 512)

/-- The payload of an entry's EVENT (R557). -/
def entryPayload (fold : Nat) (data : List Byte) (unit lseq : Nat) : List Byte :=
  bytesLE 2 fold ++ (data.take 10 ++ List.replicate (10 - data.length) 0) ++ bytesLE 1 unit ++ bytesLE 2 lseq ++ [0]

/-- An entry is written at the next slot, with its EVENT and its lifetime record. -/
def State.logEntry (s : State) (e : Staged) (fold : Nat) : State :=
  let n := s.o Obj.FLT_LOG_NEXT
  let lseq := s.o Obj.FLT_LOG_SEQ
  let old := memWord s.spm (logAddr n) 32
  let s := if bits old 255 240 ≠ 0 ∧ s.unread (bits old 223 208) then s.bump Obj.FLT_LOG_LOST else s
  let s := { s with spm := memWrite s.spm (logAddr n) (logRecord e.code e.cls e.unit lseq e.xc e.nt fold e.data) }
  let s := ((s.setO Obj.FLT_LOG_NEXT ((n + 1) % 512)).wrapBy 16 Obj.FLT_LOG_SEQ 1).wrapBy 32 Obj.FLT_LOG_CNT 1
  let s := (s.setO Obj.FLT_LAST_CODE e.code).setO Obj.FLT_LAST_X e.xc
  let s := if e.cls = 0 ∧ s.o Obj.FLT_FIRST = 0 then s.setO Obj.FLT_FIRST e.code else s
  let s := if lifeCodes.contains e.code then s.lifeWrite e.code e.cls e.unit lseq e.xc e.data else s
  s.event e.cls e.code e.xc e.nt 0 0 (entryPayload fold e.data e.unit lseq)

/-- LOG_ENTRY_WRITE: the oldest staged event is folded or written (R555). -/
def State.logWrite (s : State) : State :=
  match s.log.staging with
  | [] => s
  | e :: r =>
    let mine (f : Fold) : Bool := f.code == e.code && f.unit == e.unit
    let others := s.log.folds.filter fun f => !mine f
    let put (s : State) (tick count : Nat) : State :=
      { s with log := { staging := r, folds := others ++ [{ code := e.code, unit := e.unit, tick := tick, count := count }] } }
    match s.log.folds.find? mine with
    | some f => if s.ticksCover (e.tick - f.tick) 1000 then (put s e.tick 0).logEntry e (clip 65535 f.count) else put s f.tick (f.count + 1)
    | none => (put s e.tick 0).logEntry e 0

/-- FLT_CLEAR takes effect: inactive latched bits clear (R551). -/
def State.fltClear (s : State) : State :=
  let s := s.setO Obj.FLT_LATCHED (s.o Obj.FLT_LATCHED &&& s.o Obj.FLT_ACTIVE)
  (if s.o Obj.FLT_LATCHED = 0 then s.setO Obj.FLT_FIRST 0 else s).refreshFaultN

/-- FLT_LOG_CTRL takes effect: the log is zeroed and starts at slot 0; LSEQ goes on (R554). -/
def State.logZero (s : State) : State := { s with spm := memZero s.spm 0x5A4000 0x4000 }.setO Obj.FLT_LOG_NEXT 0

/-- A write of the value 1 only. -/
def onlyOne (v : Nat) : Status := if v = 1 then .ok else .outOfRange

/-! ### The commands -/

/-- LOG_ENTRY_WRITE. -/
def execLogEntryWrite (s : State) : Host.Outcome State Fault Refusal := .next (s.ifAwake s.logWrite)

/-- FLT_CLEAR_WRITE. -/
def execFltClearWrite (q : Req) (v : BitVec 8) (s : State) : Host.Outcome State Fault Refusal :=
  .next (s.ifRequest q (s.hostWrite q Obj.FLT_CLEAR false (onlyOne v.toNat) (s.pendLive Obj.FLT_CLEAR v.toNat)))

/-- FLT_LOG_ACK_WRITE. -/
def execFltLogAckWrite (q : Req) (v : BitVec 16) (s : State) : Host.Outcome State Fault Refusal :=
  .next (s.ifRequest q (s.hostWrite q Obj.FLT_LOG_ACK false .ok (s.pendLive Obj.FLT_LOG_ACK v.toNat)))

/-- FLT_LOG_ZERO. -/
def execFltLogZero (q : Req) (s : State) : Host.Outcome State Fault Refusal :=
  .next (s.ifRequest q (s.hostWrite q Obj.FLT_LOG_CTRL true .ok (s.pendLive Obj.FLT_LOG_CTRL 1)))

end Sys2Proof.Machine
end

