-- ==== Sys2Proof/Machine/Values.lean ====
section
/-! DEFINITION. What an object accepts: ranges, reserved bits, relations between objects, and the running function of a
HALT object (R17, R444, R481, R488, R493 and the object tables). -/
namespace Sys2Proof.Machine

/-- The value of a host write accepted last, in force or not (R192). -/
def State.latest (s : State) (k : Nat) : Nat := ((s.livePend.reverse.find? fun e => e.1 == k).map (·.2)).getD (s.o k)

/-- Instance of a key in a family of indexes with one subindex. -/
def family (base count sub k : Nat) : Option Nat :=
  if k % 256 = sub ∧ base ≤ k / 256 ∧ k / 256 < base + count then some (k / 256 - base) else none

/-- The key's line in its table: type, least and greatest value. -/
def inRange (d : ObjDesc) (v : Nat) : Bool :=
  let x : Int := if d.type.signed then toSigned d.type.width v else v
  decide (v < 2 ^ d.type.width) && decide (d.lo ≤ x) && decide (x ≤ d.hi)

/-- The rules of the per-channel objects (R58, R84, R119). -/
def channelRule (sub v : Nat) : Bool :=
  match sub with
  | 1 => decide (v < 8)
  | 6 => decide (v < 16)
  | 7 => decide (v < 512)
  | 8 => bits v 14 8 == 0 && decide (5 ≤ bits v 7 0) && decide (bits v 7 0 ≤ 128)
  | _ => true

/-- The direction that a per-lane object belongs to: a write of one of the other direction is refused (R307). -/
def laneRule (i sub : Nat) : Bool :=
  let rx := decide (8 ≤ i) && decide (i ≤ 16)
  if [8, 9, 10].contains sub then !rx
  else if [11, 12, 13, 14, 15, 16, 17, 18, 21, 22, 23].contains sub then rx
  else true

/-- PRE + POST of a lane stay at 16 or below, against the value of the other that was accepted last (R295). -/
def State.emphasisRule (s : State) (i sub v : Nat) : Bool :=
  if sub = 9 then decide (v + s.latest (Obj.LN_FFE_POST i) ≤ 16)
  else if sub = 10 then decide (s.latest (Obj.LN_FFE_PRE i) + v ≤ 16)
  else true

/-- A value as an object keeps it: reserved bits received are ignored and stored 0, bit 0 of CF_EVT_MASK stays 1, and a NM bit
of FLT_MASK stays 0 (R15, R427, R471, R485, R543, R551, R573; the bits of CF_EVT_MASK above CLASS 3: log entry 175). -/
def storedValue (k v : Nat) : Nat :=
  if k = Obj.CF_EVT_MASK then setBit (v % 2 ^ 4) 0 true
  else if k = Obj.FLT_MASK then (v % 2 ^ 20) &&& ((2 ^ 20 - 1) ^^^ nmMask)
  else if k / 256 = 0x1108 then v % 2 ^ 24
  else if (family 0x7040 10 1 k).isSome then v % 2 ^ 12
  else if (family 0x5480 8 3 k).isSome then v % 2 ^ 3
  else v

/-- The rules beyond the range column: gaps in a range, and relations (R70, R192, R421, R457, R481, R497,
R543, R551). -/
def State.valueRule (s : State) (k v : Nat) : Bool :=
  let v := storedValue k v
  let index := k / 256
  let sub := k % 256
  if 0x2000 ≤ index ∧ index < 0x2080 then channelRule sub v
  else if 0x4010 ≤ index ∧ index < 0x4029 then laneRule (index - 0x4010) sub && s.emphasisRule (index - 0x4010) sub v
  else if k = Obj.PRB_CH then decide (v < 128) || v == 0xFF
  else if k = Obj.QRY_BUSY_LEVEL then decide (v < s.latest Obj.QRY_THIN_LEVEL)
  else if k = Obj.QRY_THIN_LEVEL then decide (s.latest Obj.QRY_BUSY_LEVEL < v)
  else if k = Obj.SPM_MARCH_START then v % 8 == 0
  else if k = Obj.SPM_MARCH_LEN then v % 8 == 0 && v != 0
  else if (family 0x5480 8 2 k).isSome then v == 0 || decide (20000 ≤ v)
  else if k = Obj.HK_URG_ENTRY ∨ index = 0x6010 then hkEntryValid (s.o Obj.HK_MUX_MODE) v
  else if k = Obj.CF_EVT_DEST then hostAddr v || v == 0xFFFF
  else if k = Obj.CF_HB_PER then v == 0 || (decide (100 ≤ v) && decide (v ≤ 60000))
  else if k = Obj.CAN_BEACON_PER then v == 0 || decide (10 ≤ v)
  else if k = Obj.CAN_HB_PER then decide (2 * v ≤ s.latest Obj.CAN_KEEPER_TO)
  else if k = Obj.CAN_KEEPER_TO then decide (2 * s.latest Obj.CAN_HB_PER ≤ v)
  else if k = Obj.COMPAT_PROFILE then v == 0 || v == 0x11
  else if (family 0x7040 10 1 k).isSome then decide (1 ≤ bits v 11 8) && decide (bits v 11 8 ≤ 4)
  else if k = Obj.CLK_GATE_REQ then decide (v < 2 ^ 26)
  else true

/-- A value is judged apart from the state of any function; an entry of CF_TLM_LIST must name a readable object (R472). -/
def State.valueCheck (s : State) (k : Nat) (d : ObjDesc) (v : Nat) : Status :=
  if !inRange d v || !s.valueRule k v then .outOfRange
  else if k / 256 = 0x1108 ∧ storedValue k v ≠ 0 then
    match objDesc (storedValue k v) with
    | none => .absentObject
    | some t => if t.type = .domain then .outOfRange else .ok
  else .ok

/-- The function of a HALT object counts as running (R51, R80, R85, R115, R141, R234, R294, R390, R391, R446, R475, R487,
R497). -/
def State.running (s : State) (k : Nat) : Bool :=
  let index := k / 256
  if 0x2000 ≤ index ∧ index < 0x2080 then bit (s.o (objKey index 1)) 0
  else if index = 0x2210 then s.prbRunning
  else if index = 0x2820 then s.o Obj.TDC_RM_STATE == 1
  else if index = 0x2900 then s.o Obj.ASM_STATE == 1 || s.o Obj.ASM_STATE == 2
  else if index = 0x3400 ∨ (0x3410 ≤ index ∧ index < 0x3418) then s.o Obj.HUB_PORT_EN != 0
  else if 0x4010 ≤ index ∧ index < 0x4029 then s.pstate (index - 0x4010) != 2
  else if index = 0x5110 then s.o Obj.SPM_MARCH_STATE == 1
  else if index = 0x5140 then s.scrubBusy
  else if index = 0x6000 ∨ index = 0x6010 then s.hkRunning
  else if index = 0x1110 then s.o Obj.CAN_ENABLE != 0
  else if index = 0x1F10 then s.inService
  else false

end Sys2Proof.Machine
end

