-- ==== Sys2Proof/Machine/Effects.lean ====
section
/-! DEFINITION. What a written value does beside being in force: the judgement of the objects that command a function, and
the effect of a value at its tick (R36, R491 to R493). -/
namespace Sys2Proof.Machine

/-! ### Judgement -/

/-- A write of a control object, or of one whose function judges it, at its execution; every other write passes. -/
def State.commandCheck (s : State) (k v : Nat) : Status :=
  if k = Obj.PRB_CTRL then s.prbCtrlCheck v
  else if k = Obj.TDC_CAL_CTRL then calCtrlCheck v
  else if k = Obj.TDC_RM_CTRL then s.rmCtrlCheck v
  else if k = Obj.ASM_CTRL then s.asmCtrlCheck v
  else if k = Obj.HUB_PORT_EN then s.portEnCheck v
  else if k = Obj.BLD_CTRL then s.bldCtrlCheck v
  else if k = Obj.DRM_CTRL then s.drmCtrlCheck v
  else if k = Obj.SPM_MARCH_CTRL then s.marchCheck v
  else if k = Obj.SCB_CTRL then s.scrubCheck v
  else if k = Obj.HK_CTRL then s.hkCtrlCheck v
  else if k = Obj.HK_URG_ENTRY then (if s.hkUrgent then .functionRunning else .ok)
  else if k = Obj.CF_CLUSTER_ID then s.clusterCheck v
  else if k = Obj.CF_LOCK ∨ k = Obj.FLT_CLEAR ∨ k = Obj.FLT_LOG_CTRL ∨ k = Obj.FRZ_CTRL then onlyOne v
  else match family 0x4010 25 0x03 k with
    | some i => s.pctrlCheck i v
    | none =>
      match family 0x4010 25 0x0F k with
      | some i => s.eyeCheck i v
      | none =>
        match family 0x4010 25 0x14 k with
        | some _ => testModeCheck v
        | none => if (family 0x5480 8 4 k).isSome then alarmCtrlCheck v else s.alarmSettingCheck k

/-! ### Effects at a tick -/

/-- HUB_MODE takes effect: in pass-through mode the bundle is lane 0 alone (R234). -/
def State.hubModeEffect (s : State) (v : Nat) : State :=
  let s := s.setO Obj.HUB_MODE v
  let s : State := if v = 1 ∧ s.isHub then { s with north := { s.north with agreed := s.north.agreed &&& 1 } } else s
  s.follow.passQuit.repartIfFree

/-- A value takes effect as the object keeps it, and as the object's function takes it. -/
def State.liveEffect (s : State) (k v : Nat) : State :=
  let v := storedValue k v
  if k = Obj.PRB_CTRL then s.prbCtrlEffect v
  else if k = Obj.TDC_CAL_ENABLE then s.calEnableEffect v
  else if k = Obj.TDC_CAL_CTRL then s.calCtrlEffect v
  else if k = Obj.TDC_RM_CTRL then s.rmCtrlEffect v
  else if k = Obj.ASM_CTRL then s.asmCtrlEffect v
  else if k = Obj.HUB_PORT_EN then (s.portEnEffect v).follow.repartIfFree
  else if k = Obj.HUB_MODE then s.hubModeEffect v
  else if k = Obj.BLD_CTRL then s.bldCtrlEffect v
  else if k = Obj.LN_UNUSED then (s.setO k v).follow
  else if k = Obj.RG_BUNDLE_REQ then s.bundleReqEffect v
  else if k = Obj.DRM_CTRL then s.drmCtrlEffect v
  else if k = Obj.SPM_MARCH_CTRL then s.marchEffect v
  else if k = Obj.SCB_CTRL then s.scrubEffect v
  else if k = Obj.CLK_GATE_REQ then s.gateEffect v
  else if k = Obj.NT_SET then s.ntSetEffect v
  else if k = Obj.HK_CTRL then s.hkCtrlEffect v
  else if k = Obj.HK_URG_ENTRY then s.hkEntryEffect 63 v
  else if k = Obj.CF_CLUSTER_ID then s.clusterEffect v
  else if k = Obj.CAN_ENABLE then s.canEnableEffect v
  else if k = Obj.PWR_PARK_LINK then (s.setO k v).follow
  else if k = Obj.FLT_MASK then (s.setO k v).refreshFaultN
  else if k = Obj.FLT_CLEAR then s.fltClear
  else if k = Obj.FLT_LOG_CTRL then s.logZero
  else if k = Obj.LB_MAQ_SEL then (s.setO k v).maqSelect v
  else if k = Obj.QRY_BUSY_LEVEL then s.busyLevelEffect v
  else if 0x2000 ≤ k / 256 ∧ k / 256 < 0x2080 ∧ k % 256 = 1 then
    s.feEnableEffect ⟨(k / 256 - 0x2000) % 128, Nat.mod_lt _ (by decide)⟩ v
  else if 0x6010 = k / 256 then s.hkEntryEffect (k % 256 - 1) v
  else match family 0x4010 25 0x03 k with
    | some i => s.pctrlEffect i v
    | none =>
      match family 0x4010 25 0x0F k with
      | some i => s.eyeStart i
      | none =>
        match family 0x5480 8 4 k with
        | some i => s.alarmCtrlEffect i v
        | none => if (family 0x3410 8 0x0A k).isSome then (s.setO k v).follow.passQuit.repartIfFree else s.setO k v

end Sys2Proof.Machine
end

