-- ==== Sys2Proof/Machine/Nvm.lean ====
section
/-! DEFINITION. The configuration banks of the NVM: images, stores, the choice at boot and the loading of a bank (R499 to
R512). -/
namespace Sys2Proof.Machine

/-! ### The stored set and its image (R501 to R503) -/

/-- The keys of the table lines of one index, in ascending order of subindex. -/
def indexKeys (p : ObjDesc → Bool) (i : Nat) : List Nat :=
  ((objPage i).filter fun d => p d && decide (d.index ≤ i) && decide (i < d.index + d.count)).flatMap fun d =>
    (List.range d.subs).map fun n => objKey i (d.sub + n)

/-- The keys of every page, in ascending order. -/
def keysWhere (p : ObjDesc → Bool) : List Nat :=
  [0x10, 0x11, 0x1F, 0x20, 0x21, 0x22, 0x28, 0x29, 0x30, 0x31, 0x34, 0x38, 0x40, 0x44, 0x50, 0x51, 0x54, 0x60, 0x70, 0x78].flatMap
    fun (g : Nat) => (List.range 256).flatMap fun i => indexKeys p (g * 256 + i)

/-- A per-lane object of the other direction, which no write reaches (R307). -/
def offLane (k : Nat) : Bool := decide (0x4010 ≤ k / 256) && decide (k / 256 < 0x4029) && !laneRule (k / 256 - 0x4010) (k % 256)

/-- The stored set in ascending order (R503); an object that no write reaches on its lane is not in it. -/
def storedKeys : List Nat := (keysWhere fun d => d.stored).filter fun k => !offLane k

/-- A record (R502). -/
def recordBytes (k : Nat) (d : ObjDesc) (v : Nat) : List Byte :=
  padTo 4 (keyBytes k ++ bytesLE 1 d.type.tcode ++ bytesLE d.type.bytes v)

/-- The value that a store captures: the pending value of a SHADOW object, else the value in force (R504). -/
def State.storeValue (s : State) (k : Nat) : Nat := ((s.shadowPend.find? fun e => e.1 == k).map (·.2)).getD (s.o k)

/-- The record area of the stored set. -/
def State.storedRecords (s : State) : List Byte :=
  padTo 8 (storedKeys.flatMap fun k => match objDesc k with
    | some d => recordBytes k d (s.storeValue k)
    | none => [])

/-- A bank header (R501). -/
def bankHeader (serial cause rbytes nrec dict step : Nat) : List Byte :=
  bytesLE 32 (serial * 2 ^ 192 + cause * 2 ^ 128 + rbytes * 2 ^ 80 + nrec * 2 ^ 64 + dict * 2 ^ 48 + step * 2 ^ 40 + 2 ^ 32 + 0x43464C53)

/-- An image with this device's header. -/
def ownImage (cause nrec : Nat) (recs : List Byte) : List Byte :=
  bankHeader Config.serial.toNat cause recs.length nrec 0x0200 0x11 ++ recs

/-- A header field of an image. -/
def imageField (b : List Byte) (hi lo : Nat) : Nat := bits (fromLE (b.take 32)) hi lo

/-- An image with another SERIAL and CAUSE in its header (R510, R511). -/
def stampImage (b : List Byte) (cause : Nat) : List Byte :=
  bankHeader Config.serial.toNat cause (imageField b 95 80) (imageField b 79 64) (imageField b 63 48) (imageField b 47 40) ++ b.drop 32

/-- RBYTES is legal (R501). -/
def rbytesOk (n : Nat) : Bool := decide (n ≤ 32712) && n % 8 == 0

/-- Bytes of the value of a record, from its TCODE and its first byte (R465, R502); none for no such type. -/
def recordSize (tcode first : Nat) : Option Nat :=
  match tcode with
  | 1 => some 1 | 2 => some 1 | 3 => some 2 | 4 => some 4 | 5 => some 6 | 6 => some 8 | 7 => some 2 | 8 => some 4
  | 9 => some 4 | 10 => some 8 | 11 => some 16
  | 12 => if 1 ≤ first ∧ first ≤ 64 then some (first + 1) else none
  | _ => none

/-- The next record of an area: key, TCODE, value bytes, and what follows it. -/
def takeRecord (b : List Byte) : Option (Nat × Nat × List Byte × List Byte) :=
  let tcode := (b.getD 3 0).toNat
  match recordSize tcode (b.getD 4 0).toNat with
  | some n =>
    let len := ceilDiv (4 + n) 4 * 4
    if len ≤ b.length then
      some (fromLE (b.take 2) * 256 + (b.getD 2 0).toNat, tcode, (b.drop 4).take n, b.drop len)
    else none
  | none => none

/-- n records in ascending order whose padding is zero, then zeros up to a multiple of 8. -/
def recordsOk : Nat → Option Nat → List Byte → Bool
  | 0, _, b => decide (b.length < 8) && b.all (· == 0)
  | n + 1, last, b =>
    match takeRecord b with
    | some (k, _, v, r) =>
      ((b.take (b.length - r.length)).drop (4 + v.length)).all (· == 0)
        && (match last with | some l => decide (l < k) | none => true) && recordsOk n (some k) r
    | none => false

/-- The bytes form a header and a record area under R501 and R502 (R510); reserved bits of the header are ignored (R15). -/
def imageOk (b : List Byte) : Bool :=
  let rb := imageField b 95 80
  decide (32 ≤ b.length) && b.length == 32 + rb && rbytesOk rb && imageField b 31 0 == 0x43464C53 && imageField b 39 32 == 1
    && decide (imageField b 135 128 ≤ 3)
    && recordsOk (imageField b 79 64) none (b.drop 32)

/-! ### A store (R504, R505) -/

/-- Base address of a bank (R499). -/
def bankBase (b : Nat) : Nat := b * 0x8000

/-- The words of a store in the order of R504. -/
def storeWords (bank gen : Nat) (image : List Byte) : List (Nat × Nat) :=
  let base := bankBase bank
  (base + 0x7FF8, 0) :: (List.range (image.length / 8)).map (fun i => (base + 8 * i, fromLE ((image.drop (8 * i)).take 8)))
    ++ [(base + 0x7FE8, withComplement (crc32c image)), (base + 0x7FF0, withComplement gen), (base + 0x7FF8, commitWord)]

/-- Words written to the NVM. -/
def nvmWords (m : Memory) (l : List (Nat × Nat)) : Memory := l.foldl (fun m w => memPutWord m w.1 8 w.2) m

/-- The first n words of a store are written, and the next one is left torn. -/
def nvmTorn (m : Memory) (l : List (Nat × Nat)) (n torn : Nat) : Memory :=
  let m := nvmWords m (l.take n)
  match l[n]? with
  | some w => memPutWord m w.1 8 torn
  | none => m

/-- The DMA channel reads n words of the NVM staging, from its start (R385): the state, and how many words it reads before an
uncorrectable one halts it. -/
def State.stagingRead (s : State) (n : Nat) (u : List Upset) : State × Option Nat :=
  let r := s.channelRead 4 0x5BC000 (8 * n) u
  (r.1, r.2.map fun a => (a - 0x5BC000) / 8)

/-- The supervisor's NVM staging holds an image (R372). -/
def State.stageImage (s : State) (image : List Byte) : State := { s with spm := memWrite s.spm 0x5BC000 (image.take 0x8000) }

/-- A transfer of NV_IMAGE or NV_PATCH is open: it holds the NVM staging (R372). -/
def State.nvOpen (s : State) : Bool :=
  s.cufel.transfers.any fun t => objKey t.index t.sub == Obj.NV_IMAGE || objKey t.index t.sub == Obj.NV_PATCH

/-- Another source holds the NVM staging. -/
def State.nvOpenElse (s : State) (q : Req) : Bool :=
  s.cufel.transfers.any fun t => !(decide (t.path = q.path) && t.src == q.src.toNat) &&
    (objKey t.index t.sub == Obj.NV_IMAGE || objKey t.index t.sub == Obj.NV_PATCH)

/-- NV_STORES of a bank. -/
def storesKey (bank : Nat) : Nat := if bank = 0 then Obj.NV_STORES_A else Obj.NV_STORES_B

/-- The bank that a store writes (R504). -/
def State.targetBank (s : State) : Nat := if s.o Obj.NV_BANK = 0 then 1 else 0

/-- GEN of a store. -/
def State.nextGen (s : State) : Nat := if s.o Obj.NV_BANK = 0xFF then 1 else (s.o Obj.NV_GEN + 1) % 2 ^ 32

/-- A bank with its generation is in force. -/
def State.bankInForce (s : State) (bank gen : Nat) (image : List Byte) : State :=
  let s := (s.setO Obj.NV_BANK bank).setO Obj.NV_GEN gen
  ((s.setO Obj.NV_IMG_STEP (imageField image 47 40)).setO Obj.NV_IMG_DICT (imageField image 63 48)).setO Obj.NV_IMG_BYTES
    (32 + imageField image 95 80)

/-- Lifetime records of a store: every 64th of a bank, and with the warning at 90,000 (R506, R558). -/
def State.storeRecords (s : State) (bank gen : Nat) : State :=
  let n := s.o (storesKey bank)
  let s := if n % 64 = 0 ∨ n = 90000 then s.lifeOnly 0x0309 bank (bytesLE 4 gen) else s
  if n = 90000 then s.stage 0x0308 1 bank (bytesLE 4 n) else s

/-- A store has committed. -/
def State.storeDone (s : State) (bank gen : Nat) (image : List Byte) (refresh : Bool) : State :=
  let s := (s.bankInForce bank gen image).bump (storesKey bank)
  let s := if refresh then s.bump Obj.NV_REFRESHES else s
  let s := (s.setO Obj.NV_LAST_RESULT 1).storeRecords bank gen
  { s with nv := { s.nv with since := s.o Obj.FLT_LIFE_HOURS } }

/-- A store of R504 with its end; none stands for a store that power loss or reset cut off, which answers nothing. u gives the
errors that its DMA channel meets in the staged image: an uncorrectable word halts it after the words before it (R385). -/
def State.store (s : State) (state : Nat) (image : List Byte) (u : List Upset) (e : StoreEnd) : State × Option Status :=
  let bank := s.targetBank
  let gen := s.nextGen
  let words := storeWords bank gen image
  let n := words.length
  let r := ((s.stageImage image).check 36 image).stagingRead (image.length / 8) u
  let s := r.1
  let failed (m : Memory) (r : Nat) : State × Option Status := ({ s with nvm := m }.setO Obj.NV_LAST_RESULT r, some .failed)
  match r.2 with
  | some k => failed (nvmWords s.nvm (words.take (k + 1))) 3
  | none =>
  match e with
  | .committed => ({ s with nvm := nvmWords s.nvm words }.storeDone bank gen image (state == 2), some .ok)
  | .verify => failed (nvmWords s.nvm (words.take (n - 2))) 2
  | .program k t => failed (nvmTorn s.nvm words (min k.toNat (n - 1)) t.toNat) 4
  | .cut k t => ({ s with nvm := nvmTorn s.nvm words (min k.toNat n) t.toNat }.setO Obj.NV_STATE state, none)

/-- A failed store, or an invalid bank at boot, raises the condition (R550). -/
def State.nvmFault (s : State) (bank : Nat) : State :=
  (s.stage 0x0307 0 bank (bytesLE 1 (s.o Obj.NV_LAST_RESULT) ++ bytesLE 1 (s.o Obj.NV_BOOT_FLAGS))).ariseOnce 17

/-- A store on request answers with a body. -/
def State.storeAnswer (s : State) (q : Req) (mtype : Nat) (body : List Byte) (state : Nat) (image : List Byte) (u : List Upset)
    (e : StoreEnd) : State :=
  match s.store state image u e with
  | (t, some .ok) => t.respond q mtype .ok body
  | (t, some st) => (t.nvmFault t.targetBank).respond q mtype st body
  | (t, none) => t

/-- STORE: an expert message; while a transfer holds the NVM staging it waits, unexecuted (R372). -/
def State.storeRequest (s : State) (q : Req) (u : List Upset) (e : StoreEnd) : State :=
  if s.badLength q 0 then s.respond q 0x05 .length []
  else if !s.isExpert q then s.respond q 0x05 .expertRequired []
  else if s.nvOpen then s
  else s.storeAnswer q 0x05 [] 1 (ownImage 0 storedKeys.length s.storedRecords) u e

/-- The image of the bank in force: header and record area; without one, a header with NREC = 0 (R510). -/
def State.imageNow (s : State) : List Byte :=
  let b := s.o Obj.NV_BANK
  if b = 0xFF then ownImage 0 0 [] else memRead s.nvm (bankBase b) (s.o Obj.NV_IMG_BYTES)

/-- NV_IMAGE is written whole (R510). -/
def State.imageWrite (s : State) (q : Req) (b : List Byte) (u : List Upset) (e : StoreEnd) : State :=
  if !s.isExpert q then s.respond q 0x04 .expertRequired (blockBody Obj.NV_IMAGE 0 0 0)
  else if s.nvOpenElse q then s.respond q 0x04 .noResource (blockBody Obj.NV_IMAGE 0 0 0)
  else if !imageOk b then s.respond q 0x04 .outOfRange (blockBody Obj.NV_IMAGE 0 0 0)
  else match s.store 3 (stampImage b 3) u e with
    | (t, some .ok) => t.respond q 0x04 .ok (blockBody Obj.NV_IMAGE 2 b.length b.length)
    | (t, some st) => (t.nvmFault t.targetBank).respond q 0x04 st (blockBody Obj.NV_IMAGE 0 0 0)
    | (t, none) => t

/-! ### The patch image (R512) -/

/-- Address of the patch image's commit word, the last of its area (DESIGN CHOICE, log entry 82). -/
def patchCommit : Nat := 0x1FFF8

/-- The words that write a patch image: the commit word cleared first and written last, as under R504 (R512). -/
def patchWords (b : List Byte) : List (Nat × Nat) :=
  (patchCommit, 0) :: (wordsAt 0x19000 b).map (fun w => (w.1, w.2.2)) ++ [(patchCommit, commitWord)]

/-- The patch image in the NVM is committed. -/
def State.patchHeld (s : State) : Bool := memWord s.nvm patchCommit 8 == commitWord

/-- The bytes of the patch image. -/
def State.patchImage (s : State) : List Byte := memRead s.nvm 0x19000 s.nv.patch.1

/-- The first n words of a patch write are done and the next one is left torn: the image in the area is the new one once one of
its own words has been written. -/
def State.patchPut (s : State) (b : List Byte) (level n : Nat) (torn : Option Nat) : State :=
  let ws := patchWords b
  let m := match torn with | some t => nvmTorn s.nvm ws n t | none => nvmWords s.nvm (ws.take n)
  { s with nvm := m, nv := { s.nv with patch := if n = 0 then s.nv.patch else (b.length, level) } }

/-- An image that passes its check is written, with its end; none for a write that a power loss cuts off, which answers
nothing. u gives the errors that the DMA channel meets in the staged image (R385). -/
def State.patchStore (s : State) (b : List Byte) (u : List Upset) (level : Nat) (e : StoreEnd) : State × Option Status :=
  let n := (patchWords b).length
  let r := s.stagingRead (ceilDiv b.length 8) u
  match r.2 with
  | some k => (r.1.patchPut b level (k + 1) none, some .failed)
  | none =>
  match e with
  | .committed => (r.1.patchPut b level n none, some .ok)
  | .verify => (r.1.patchPut b level (n - 1) none, some .failed)
  | .program k t => (r.1.patchPut b level (min k.toNat (n - 1)) (some t.toNat), some .failed)
  | .cut k t => (r.1.patchPut b level (min k.toNat n) (some t.toNat), none)

/-- NV_PATCH is written whole: check unit 37 takes the image, and one that fails the check, or does not fit beside the commit
word, is refused with nothing written (R512). -/
def State.patchWrite (s : State) (q : Req) (b : List Byte) (u : List Upset) (patch : Option Nat) (e : StoreEnd) : State :=
  let answer (t : State) (st : Status) : State := t.hostBlockWrite q Obj.NV_PATCH b.length true st t
  if !s.isExpert q then answer s .ok
  else if s.nvOpenElse q then answer s .noResource
  else
    let s := (s.stageImage b).check 37 b
    match patch with
    | some level =>
      if b.length ≤ 0x6FF8 then
        (match s.patchStore b u level e with
         | (t, some st) => answer t st
         | (t, none) => t)
      else answer s .failed
    | none => answer s .failed

/-! ### Refresh (R511) -/

/-- A refresh store of the bank in force. -/
def State.refreshStore (s : State) (u : List Upset) (e : StoreEnd) : State := (s.store 2 (stampImage s.imageNow 2) u e).1

/-- The bank in force has been so for NV_REFRESH_PER powered hours. -/
def State.bankAged (s : State) : Bool := decide (s.nv.since + s.o Obj.NV_REFRESH_PER ≤ s.o Obj.FLT_LIFE_HOURS)

/-- NV_MARGIN_CHECK: a weak or aged bank in force is refreshed (R511); while a transfer holds the NVM staging, the refresh waits
until that has closed (R372). -/
def State.marginCheck (s : State) (weak : Bool) (u : List Upset) (e : StoreEnd) : State :=
  if s.o Obj.NV_BANK = 0xFF then s
  else if weak || s.bankAged then
    (if s.nvOpen then { s with nv := { s.nv with refresh := some (u, e) } } else s.refreshStore u e)
  else s

/-- A refresh store that has waited runs once no transfer holds the NVM staging, between two Cufel messages (R372, R511). -/
def State.refreshTurn (s : State) : State :=
  match s.nv.refresh with
  | some (u, e) => if s.nvOpen || s.cufel.down then s else { s with nv := { s.nv with refresh := none } }.refreshStore u e
  | none => s

/-! ### Boot (R507, R508, R497) -/

/-- A 64-bit word of a bank. -/
def bankWord (m : Memory) (bank off : Nat) : Nat := memWord m (bankBase bank + off) 8

/-- The bank's image by its own RBYTES. -/
def bankImage (m : Memory) (bank : Nat) : List Byte :=
  memRead m (bankBase bank) (32 + imageField (memRead m (bankBase bank) 32) 95 80)

/-- The bank holds MAGIC. -/
def bankMagic (m : Memory) (bank : Nat) : Bool := memWord m (bankBase bank) 4 == 0x43464C53

/-- The bank is committed. -/
def bankCommitted (m : Memory) (bank : Nat) : Bool := bankWord m bank 0x7FF8 == commitWord

/-- valid(b) of R507. -/
def bankValid (m : Memory) (bank : Nat) (ue : Bool) : Bool :=
  let h := memRead m (bankBase bank) 32
  bankCommitted m bank && complementOk (bankWord m bank 0x7FF0) && complementOk (bankWord m bank 0x7FE8) && bankMagic m bank
    && imageField h 39 32 == 1 && rbytesOk (imageField h 95 80)
    && crc32c (bankImage m bank) == bankWord m bank 0x7FE8 % 2 ^ 32 && !ue

/-- GEN of a bank. -/
def bankGen (m : Memory) (bank : Nat) : Nat := bankWord m bank 0x7FF0 % 2 ^ 32

/-- The bank in force: 0 A, 1 B, 0xFF none (R507). -/
def chooseBank (m : Memory) (ueA ueB : Bool) : Nat :=
  match bankValid m 0 ueA, bankValid m 1 ueB with
  | true, true => if bankGen m 1 > bankGen m 0 then 1 else 0
  | true, false => 0
  | false, true => 1
  | false, false => 0xFF

/-- One record is applied as a write exempt from class and running state, or skipped. -/
def State.applyRecord (s : State) (k tcode : Nat) (v : List Byte) (last : Option Nat) (step : Nat) : State :=
  let skip : State := s.setO Obj.NV_SKIPPED (satAdd 16 (s.o Obj.NV_SKIPPED) 1)
  let inOrder := match last with | some l => decide (l < k) | none => true
  match objDesc k with
  | some d =>
    let x := fromLE v
    if !d.stored || offLane k || d.type.tcode != tcode || !inOrder || s.valueCheck k d x != .ok then skip
    else if k = Obj.COMPAT_PROFILE ∧ x = 0 then (s.setOb Obj.NV_BOOT_FLAGS 5 true).setO k step
    else s.liveEffect k x
  | none => skip

/-- The records of a bank are applied in order; a record of no known type ends them, and those left are skipped. -/
def State.applyRecords (s : State) (step : Nat) : Nat → Option Nat → List Byte → State
  | 0, _, _ => s
  | n + 1, last, b =>
    match takeRecord b with
    | some (k, t, v, r) =>
      let top := match last with | some l => max l k | none => k
      (s.applyRecord k t v last step).applyRecords step n (some top) r
    | none => s.setO Obj.NV_SKIPPED (satAdd 16 (s.o Obj.NV_SKIPPED) (n + 1))

/-- NV_BOOT_FLAGS of the two banks. -/
def bootFlags (m : Memory) (ueA ueB : Bool) : Nat :=
  b2n (bankCommitted m 0 && !bankValid m 0 ueA) + 2 * b2n (bankCommitted m 1 && !bankValid m 1 ueB)
    + 4 * b2n (bankMagic m 0 && !bankCommitted m 0) + 8 * b2n (bankMagic m 1 && !bankCommitted m 1)

/-- The bank is chosen and its records applied; an interrupted store shows in NV_LAST_RESULT (R505, R507, R508). The bank is in
force from this boot on (R511; DESIGN CHOICE, log entry 174). -/
def State.bankLoad (s : State) (ueA ueB : Bool) : State :=
  let m := s.nvm
  let b := chooseBank m ueA ueB
  let f := bootFlags m ueA ueB
  let s := s.setO Obj.NV_BOOT_FLAGS f
  let s : State :=
    if b = 0xFF then s
    else
      let image := bankImage m b
      let s := (s.check 36 image).bankInForce b (bankGen m b) image
      let s : State := { s with nv := { s.nv with since := s.o Obj.FLT_LIFE_HOURS } }
      s.applyRecords (imageField image 47 40) (imageField image 79 64) none (image.drop 32)
  let s := s.setO Obj.COMPAT_ACTIVE (if s.o Obj.COMPAT_PROFILE = 0 then 0x11 else s.o Obj.COMPAT_PROFILE)
  let s := if s.o Obj.NV_SKIPPED ≠ 0 then s.setOb Obj.NV_BOOT_FLAGS 4 true else s
  let s := if bit f (if s.targetBank = 0 then 2 else 3) then s.setO Obj.NV_LAST_RESULT 5 else s
  if f % 4 ≠ 0 then s.nvmFault (if bit f 0 then 0 else 1) else s

/-! ### The commands -/

/-- STORE. -/
def execStore (q : Req) (u : List Upset) (e : StoreEnd) (s : State) : Host.Outcome State Fault Refusal :=
  .next (s.ifRequest q (s.storeRequest q u e))

/-- NV_MARGIN_CHECK. -/
def execNvMarginCheck (weak : Bool) (u : List Upset) (e : StoreEnd) (s : State) : Host.Outcome State Fault Refusal :=
  .next (s.ifTask (s.marginCheck weak u e))

/-- NV_IMAGE_WRITE. -/
def execNvImageWrite (q : Req) (image : List Byte) (u : List Upset) (e : StoreEnd) (s : State) : Host.Outcome State Fault Refusal :=
  .next (s.ifRequest q (s.imageWrite q image u e))

/-- NV_PATCH_WRITE. -/
def execNvPatchWrite (q : Req) (image : List Byte) (u : List Upset) (e : PatchEnd) (s : State) :
    Host.Outcome State Fault Refusal :=
  .next (s.ifRequest q (s.patchWrite q image u (e.level.map BitVec.toNat) e.e))

end Sys2Proof.Machine
end

