-- ==== Sys2Proof/Machine/Dictionary.lean ====
section
/-! DEFINITION. The object dictionary as the host reaches it: what a read shows, reads and writes, block transfers, APPLY
and RESTORE_DEFAULTS (R464, R465, R467, R468, R488 to R493, R509). -/
namespace Sys2Proof.Machine

/-! ### What a read shows -/

/-- The next turn marker after the crossing in progress: the count wraps to crossing 0 (R408, R409). -/
def State.nextTurn (s : State) : Nat :=
  let n := (s.xc / s.o Obj.XC_TURN_LEN + 1) * s.o Obj.XC_TURN_LEN
  if n < 2 ^ 48 then n else 0

/-- The newest readable crossing (R156); 0 while the buffer is OFF or no crossing is readable yet (R174; log entry 150). -/
def State.newestReadable (s : State) : Nat := if s.o Obj.LB_STATE = 0 then 0 else s.xc - (s.window + 1)

/-- A crossing is readable: the buffer is not OFF, and one has been closed. -/
def State.anyReadable (s : State) : Bool := s.o Obj.LB_STATE != 0 && decide (s.window + 1 ≤ s.xc)

/-- Crossings from the floor to the newest readable one; 0 when there is none (R174). -/
def State.lbSpan (s : State) : Nat := if s.anyReadable then s.newestReadable + 1 - s.o Obj.LB_FLOOR else 0

/-- The mean slice size in units of 2^-16 bytes, over the newest slices (R174). -/
def State.bytesPerCrossing (s : State) : Nat := if s.lb.sizes.isEmpty then 0 else s.lb.sizes.sum * 65536 / s.lb.sizes.length

/-- The oldest frame held, or the next to be given out (R328). -/
def LinkTx.mark (t : LinkTx) : Nat := match t.held with | f :: _ => f.seq | [] => t.next

/-- Host LUTs that wait for APPLY (R110, R492). -/
def State.lutsWaiting (s : State) : Nat := (allCh.filter fun c => (s.chan c).host.isSome).length

/-- The objects of the hub merger and of its ports, which is off outside the hub role (R26, R247). -/
def hubMergerObject (k : Nat) : Bool := k / 256 == 0x3400 || (decide (0x3410 ≤ k / 256) && decide (k / 256 < 0x3418))

/-- An object of a pass-through link, where no such link exists: outside a hub in pass-through mode (R309, R349). -/
def State.noPass (s : State) (k : Nat) : Bool :=
  decide (0x4431 ≤ k / 256) && decide (k / 256 < 0x4438) && !(s.isHub && s.o Obj.HUB_MODE == 1)

/-- Values that the device computes when they are read; any other object shows its value in force. -/
def State.live (s : State) (k : Nat) : Option Nat :=
  if k = Obj.ASM_WC_FILL then some s.lb.wc.length
  else if k = Obj.LB_LEFF then some s.leff
  else if k = Obj.LB_NEWEST then some s.newestReadable
  else if k = Obj.LB_SPAN then some s.lbSpan
  else if k = Obj.LB_BPC then some s.bytesPerCrossing
  else if k = Obj.QRY_FILL then some s.query.fill
  else if k = Obj.QRY_REFPEND then some s.query.refPend
  else if k = Obj.POOL_FREE then some s.poolFree
  else if k = Obj.CMP_RATEHIST_SEQ then some (s.rateSettle.o Obj.CMP_RATEHIST_SEQ)
  else if k = Obj.LN_SYNTH then some s.lnSynth
  else if k = Obj.RG_TX_NEXT then some s.north.tx.next
  else if k = Obj.RG_TX_MARK then some s.north.tx.mark
  else if k = Obj.RG_TX_HELD then some s.north.tx.held.length
  else if k = Obj.RG_RX_EXP then some s.north.rx.exp
  else if k = Obj.RG_CMD_PEND then some s.sched.length
  else if k = Obj.CLK_GATED then some s.clkGated
  else if k = Obj.CLK_GATE_REQ then some s.gateReq
  else if k = Obj.XC_NEXT_TURN then some s.nextTurn
  else if k = Obj.NT_NOW then some (s.ntNs % 2 ^ 64)
  else if k = Obj.CF_SERIAL then some Config.serial.toNat
  else if k = Obj.CF_SCREEN then some (b2n Config.screenAQ)
  else if k = Obj.CF_EVTQ_FILL then some s.cufel.events.length
  else if k = Obj.CF_SESSIONS then some s.cufel.sessions.length
  else if k = Obj.CF_BLK_OPEN then some s.cufel.transfers.length
  else if k = Obj.CAN_NODES then some s.canNodes
  else if k = Obj.NV_SHADOW_PEND then some (s.shadowPend.length + s.lutsWaiting)
  else if k = Obj.NV_REPAIRS then some s.repairCount
  else if k = Obj.CMP_STATE then some s.cmpState
  else if k = Obj.DRM_HOT then some s.drmHot
  else if k = Obj.PWR_DEGR then some s.degrNow
  else if (s.isHub = false ∧ hubMergerObject k = true) ∨ s.noPass k = true then some (objDefault k)
  else match family 0x2910 8 0x02 k with
    | some g => some (s.groups.get (portFin g)).fifo.length
    | none =>
      match family 0x4010 25 0x06 k with
      | some i => some (s.laneStatus i)
      | none =>
        match family 0x4420 8 0x03 k, family 0x4420 8 0x04 k, family 0x4430 8 0x01 k, family 0x4430 8 0x02 k with
        | some i, _, _, _ => some (s.south.get (portFin i)).tx.mark
        | _, some i, _, _ => some (s.south.get (portFin i)).rx.exp
        | _, _, some j, _ => some (s.pass.get (portFin j)).tx.next
        | _, _, _, some j => some (s.pass.get (portFin j)).tx.mark
        | _, _, _, _ => if offLane k then some 0 else none

/-- The value that a read of a scalar object returns (R17, R489). -/
def State.view (s : State) (k : Nat) (d : ObjDesc) : Nat :=
  if d.acc = .wo then 0
  else match s.live k with
    | some v => v % 2 ^ d.type.width
    | none => s.o k % 2 ^ d.type.width

/-- The identity strings (R484). -/
def identity (k : Nat) : List Byte :=
  let s : String := if k = Obj.CF_DEVICE then "SLF128" else if k = Obj.CF_VENDOR then "Mioton Semiconductor" else "A1"
  s.toList.map fun c => BitVec.ofNat 8 c.toNat

/-- The bytes that a READ returns. -/
def State.readBytes (s : State) (k : Nat) (d : ObjDesc) : List Byte :=
  if d.type = .str then identity k else bytesLE d.type.bytes (s.view k d)

/-- Present level of the quantity that a highest or lowest level tracks (R489). -/
def State.presentLevel (s : State) (k : Nat) : Nat :=
  if k = Obj.QRY_PEAK then s.query.fill
  else if k = Obj.ASM_WC_PEAK then s.lb.wc.length
  else if k = Obj.POOL_MIN then s.poolFree
  else match family 0x2910 8 0x03 k, family 0x3410 8 0x0B k with
    | some g, _ => (s.groups.get (portFin g)).fifo.length
    | _, some p => s.portLevel p
    | none, none => 0

/-- What a read does beside returning the value: an RC object clears, NT_NOW latches NT_FRAC, HK_RESULT is read. -/
def State.afterRead (s : State) (k : Nat) (d : ObjDesc) : State :=
  if d.acc = .rc then s.setO k (s.presentLevel k)
  else if k = Obj.NT_NOW then s.setO Obj.NT_FRAC (s.nt % 2 ^ 32)
  else if k = Obj.HK_RESULT then s.hkMarkRead
  else s

/-- The access that one read makes: the state after it and the bytes. -/
def State.access (s : State) (k : Nat) (d : ObjDesc) : State × List Byte := (s.afterRead k d, s.readBytes k d)

/-! ### READ (R464, R465) -/

/-- READ. -/
def State.readObject (s : State) (q : Req) (body : List Byte) : State :=
  let k := bodyKey body
  let fail (st : Status) : State := s.respond q 0x01 st (keyBytes k ++ [0])
  if body.length ≠ 3 then fail .length
  else match objDesc k with
    | none => fail .absentObject
    | some d =>
      if d.type = .domain then fail .typeMismatch
      else if k = Obj.CF_CHALLENGE then s.challengeRead q
      else
        let r := s.access k d
        r.1.respRead q k d.type.tcode r.2

/-! ### WRITE (R465, R467, R491 to R493) -/

/-- A SHADOW value waits for APPLY; a later one replaces it (R492). -/
def State.putShadow (s : State) (k v : Nat) : State :=
  if s.shadowPend.any fun e => e.1 == k then
    { s with shadowPend := s.shadowPend.map fun e => if e.1 = k then (k, v) else e }
  else { s with shadowPend := s.shadowPend ++ [(k, v)] }

/-- An accepted value goes where its class takes it; a lane test, a new key and a freeze request act at execution (R301,
R466, R559). -/
def State.acceptWrite (s : State) (k : Nat) (d : ObjDesc) (v : Nat) : State :=
  if d.cls = .shadow then s.putShadow k v
  else match family 0x4010 25 0x14 k with
    | some i => s.laneTest i v
    | none =>
      if k = Obj.CF_KEY then s.setO k v
      else if k = Obj.FRZ_CTRL then { s with cufel := { s.cufel with after := some .freeze } }
      else s.pendLive k v

/-- A write is judged: level, value, running function, and the function's own judgement. -/
def State.writeCheck (s : State) (q : Req) (k : Nat) (d : ObjDesc) (v : Nat) : Status :=
  if d.expert && !s.isExpert q then .expertRequired
  else match s.valueCheck k d v with
    | .ok => if d.cls = .halt ∧ s.running k = true then .functionRunning else s.commandCheck k v
    | st => st

/-- WRITE of a value whose form is right. -/
def State.writeValue (s : State) (q : Req) (k : Nat) (d : ObjDesc) (v : Nat) : State :=
  if k = Obj.CF_UNLOCK then s.unlockWrite q v true
  else if k = Obj.CF_LOCK then s.lockWrite q v
  else if k = Obj.CLK_GATE_REQ then s.gateWrite q v
  else match s.writeCheck q k d v with
    | .ok => (s.acceptWrite k d v).respWrite q k .ok (if d.cls = .shadow then 0 else s.xeff)
    | st => s.respWrite q k st 0

/-- WRITE. -/
def State.writeObject (s : State) (q : Req) (body : List Byte) : State :=
  let k := bodyKey body
  let fail (st : Status) : State := s.respWrite q k st 0
  if body.length < 4 then fail .length
  else match objDesc k with
    | none => fail .absentObject
    | some d =>
      if d.acc ≠ .rw ∧ d.acc ≠ .wo then fail .readOnly
      else if d.type = .domain ∨ (body.getD 3 0).toNat ≠ d.type.tcode then fail .typeMismatch
      else if body.length ≠ 4 + d.type.bytes then fail .length
      else s.writeValue q k d (fromLE (body.drop 4))

/-! ### Block transfers (R468) -/

/-- Samples of the probe's copy in the scratchpad. -/
def State.prbCopy (s : State) : List Byte := memRead s.spm 0x5A8000 16384

/-- 16-bit words of a byte string. -/
def words16 (b : List Byte) : List Nat := (List.range (b.length / 2)).map fun i => fromLE ((b.drop (2 * i)).take 2)

/-- The coded probe capture (R78, R264). -/
def codedProbe (b : List Byte) : List Nat := (groups8 (b.length / 16 + 1) ((words16 b).map (· % 1024))).map waveWord

/-- Bytes followed by zeros up to n bytes. -/
def zeroFill (n : Nat) (b : List Byte) : List Byte := b ++ List.replicate (n - b.length) 0

/-- A read of PRB_DATA: the capture, or its coded form. -/
def State.probeRead (s : State) : State × List Byte :=
  if s.flag Obj.PRB_CODED then
    let ws := codedProbe s.prbCopy
    ((s.bump Obj.CMP_FR_JOBS).peak Obj.CMP_FR_SHIFTMAX ((ws.map fun w => bits w 53 51).foldl max 0), ws.flatMap (bytesLE 8))
  else (s, s.prbCopy)

/-- A read of CMP_RATEHIST: the counts, or their codes. -/
def State.rateHistRead (s : State) : State × List Byte :=
  let s := s.rateSettle
  let r := s.rateHist ++ List.replicate (128 - s.rateHist.length) 0
  if s.flag Obj.CMP_RATEHIST_CODED then (s.bump Obj.CMP_FR_JOBS, r.flatMap fun v => bytesLE 2 (countCode v))
  else (s, r.flatMap (bytesLE 4))

/-- A DOMAIN object's bytes as a snapshot takes them; a code where the object refuses the read. A write-only DOMAIN, NV_PATCH,
reads as an object without bytes, TOTAL 0 (R17; DESIGN CHOICE, log entry 152). -/
def State.domainRead (s : State) (k : Nat) : Except Status (State × List Byte) :=
  if k = Obj.PRB_DATA then
    if s.o Obj.PRB_STATE ≠ 5 then .error .functionRunning else .ok s.probeRead
  else if k = Obj.TDC_LUTHIST then .ok (s, zeroFill 8192 (s.calUnit.history.flatMap SwapEntry.bytes))
  else if k = Obj.POOL_OWNERS then
    .ok (s, (List.range 256).map fun b => BitVec.ofNat 8 (((s.query.pool.find? fun e => e.1 == b).map (·.2)).getD 0))
  else if k = Obj.CMP_RATEHIST then .ok s.rateHistRead
  else if k = Obj.CMP_TEST then .ok (s, s.cmp.test)
  else if k = Obj.NT_CAPT then .ok (s, zeroFill 256 (s.capts.flatMap Capture.bytes))
  else if k = Obj.HK_CAL then .ok (s, s.hkCalBytes)
  else if k = Obj.NV_IMAGE then .ok (s, s.imageNow)
  else if k = Obj.NV_LIFELOG then .ok (s, memRead s.nvm 0x14000 16384)
  else if k = Obj.PWR_BOOT_TRACE then .ok (s, s.power.trace.flatMap (bytesLE 4))
  else if k = Obj.FLT_LOG then .ok (s, memRead s.spm 0x5A4000 16384)
  else match family 0x2100 128 1 k, family 0x5010 3 0x0F k with
    | some c, _ => .ok (s, zeroFill 160 ((s.chan ⟨c % 128, Nat.mod_lt _ (by decide)⟩).lut.map (BitVec.ofNat 8)))
    | _, some r =>
      .ok (s, (s.memUnit.ranks.get ⟨r % 3, Nat.mod_lt _ (by decide)⟩).delays ++ bytesLE 1 (s.o (Obj.DRM_DIEMARK r)) ++ List.replicate 26 0)
    | none, none => .ok (s, [])

/-- The open transfer of the request's source. -/
def State.transferOf (s : State) (q : Req) : Option Transfer :=
  s.cufel.transfers.find? fun t => decide (t.path = q.path) && t.src == q.src.toNat

/-- The source's transfer closes. -/
def State.closeTransfer (s : State) (q : Req) : State :=
  { s with cufel := { s.cufel with transfers := s.cufel.transfers.filter fun t => !(decide (t.path = q.path) && t.src == q.src.toNat) } }

/-- The source's transfer opens or goes on. -/
def State.putTransfer (s : State) (q : Req) (t : Transfer) : State :=
  let s := s.closeTransfer q
  { s with cufel := { s.cufel with transfers := s.cufel.transfers ++ [t] } }

/-- A segment that breaks the rules: an open transfer is abandoned and counted. -/
def State.segmentError (s : State) (q : Req) (mtype k : Nat) : State :=
  let s := if (s.transferOf q).isSome then (s.closeTransfer q).bump Obj.CF_BLK_SEGERR else s
  s.respond q mtype .segment (blockBody k 0 0 0)

/-- The lowest staging place that no open read holds (R372). -/
def State.stagingSlot (s : State) : Nat :=
  ((List.range 4).find? fun n => s.cufel.transfers.all fun t => t.write || objKey t.index t.sub == Obj.NV_IMAGE || t.slot != n).getD 3

/-- Where a read's snapshot lies: the NVM staging for NV_IMAGE, else a place of 16 KiB (R372). -/
def snapshotAddr (k n : Nat) : Nat := if k = Obj.NV_IMAGE then 0x5BC000 else 0x5AC000 + 16384 * n

/-- A segment served from the snapshot, which the supervisor's DMA channel reads (R385). -/
def State.readSegment (s : State) (q : Req) (k off : Nat) (u : List Upset) : State :=
  match s.transferOf q with
  | some t =>
    if t.write ∨ objKey t.index t.sub ≠ k then s.respond q 0x03 .segment (blockBody k 0 0 0)
    else if off < t.total ∨ (t.total = 0 ∧ off = 0) then
      let n := min 480 (t.total - off)
      let a := snapshotAddr k t.slot + off
      let r := s.channelRead 4 (a / 8 * 8) (a % 8 + n) u
      if r.2.isSome then (r.1.closeTransfer q).respond q 0x03 .failed (blockBody k 0 0 0)
      else r.1.respond q 0x03 .ok (blockBody k (2 * b2n (off + n == t.total)) off t.total ++ asRead u a ((t.data.drop off).take n))
    else s.segmentError q 0x03 k
  | none => s.respond q 0x03 .segment (blockBody k 0 0 0)

/-- The range of the scratchpad that a snapshot is copied from. -/
def domainSource (k : Nat) : Nat × Nat :=
  if k = Obj.PRB_DATA then (0x5A8000, 16384) else if k = Obj.FLT_LOG then (0x5A4000, 16384) else (0, 0)

/-- A transfer cannot open: four are open, or the NVM staging that it needs is held (R372, R468). -/
def State.transferFull (s : State) (k : Nat) : Bool :=
  decide (4 ≤ s.cufel.transfers.length) || ((k == Obj.NV_IMAGE || k == Obj.NV_PATCH) && s.nvOpen)

/-- A read transfer opens: the whole object is copied, and check unit 37 runs over the copy (R271; log entry 176). -/
def State.openRead (s : State) (q : Req) (k off : Nat) (u : List Upset) : State :=
  let s := s.closeTransfer q
  if s.transferFull k then s.respond q 0x03 .noResource (blockBody k 0 0 0)
  else match s.domainRead k with
    | .error st => s.respond q 0x03 st (blockBody k 0 0 0)
    | .ok (t, b) =>
      let src := domainSource k
      let r := t.channelRead 4 src.1 src.2 u
      if r.2.isSome then r.1.respond q 0x03 .failed (blockBody k 0 0 0)
      else
        let t := r.1.check 37 b
        let n := t.stagingSlot
        let t := t.putTransfer q { path := q.path, src := q.src.toNat, index := k / 256, sub := k % 256, write := false, data := b,
                                   total := b.length, prev := none, slot := n }
        ({ t with spm := memWrite t.spm (snapshotAddr k n) (b.take 0x8000) }).readSegment q k off u

/-- READ_BLOCK: u gives the errors that the supervisor's DMA channel meets (R385); bits 7:3 of SFLAGS are ignored (R15). -/
def State.readBlock (s : State) (q : Req) (body : List Byte) (u : List Upset) : State :=
  let k := bodyKey body
  let f := (body.getD 3 0).toNat
  let off := fromLE ((body.drop 4).take 4)
  let fail (st : Status) : State := s.respond q 0x03 st (blockBody k 0 0 0)
  if body.length ≠ 8 then fail .length
  else match objDesc k with
    | none => fail .absentObject
    | some d =>
      if d.type ≠ .domain then fail .typeMismatch
      else if bit f 2 then
        (if (s.transferOf q).isSome then (s.closeTransfer q).respond q 0x03 .ok (blockBody k 4 0 0) else fail .segment)
      else if bit f 0 then s.openRead q k off u
      else s.readSegment q k off u

/-- The object is written as a whole at the last segment. The bytes of an object other than NV_IMAGE and NV_PATCH lie in the
first place that a read may use, from which the DMA channel takes them (R372, R385; log entry 151). -/
def State.writeWhole (s : State) (q : Req) (k : Nat) (b : List Byte) (u : List Upset) (patch : Option Nat) (e : StoreEnd) : State :=
  if k = Obj.NV_IMAGE then s.imageWrite q b u e
  else if k = Obj.NV_PATCH then s.patchWrite q b u patch e
  else
    let r := s.channelRead 4 (snapshotAddr k s.stagingSlot) b.length u
    if r.2.isSome then r.1.respond q 0x04 .failed (blockBody k 0 0 0)
    else if k = Obj.CMP_TEST then r.1.testWrite q b u
    else match family 0x2100 128 1 k with
      | some c => r.1.hostBlockWrite q k b.length true (hostLutCheck b) (r.1.hostLut ⟨c % 128, Nat.mod_lt _ (by decide)⟩ b)
      | none => r.1.respond q 0x04 .readOnly (blockBody k 0 0 0)

/-- A segment that a write transfer takes: appended, or at LAST the whole, over which check unit 37 runs (R271; log entry
176). -/
def State.writeSegment (s : State) (q : Req) (k : Nat) (t : Transfer) (last : Bool) (off total : Nat) (data : List Byte)
    (u : List Upset) (patch : Option Nat) (e : StoreEnd) : State :=
  if total = t.total ∧ off = t.data.length ∧ off + data.length ≤ total ∧ (last = true → off + data.length = total) then
    let b := t.data ++ data
    if last then ((s.closeTransfer q).check 37 b).writeWhole q k b u patch e
    else (s.putTransfer q { t with data := b, prev := some (off, data.length) }).respond q 0x04 .ok (blockBody k 0 b.length total)
  else if total = t.total ∧ t.prev = some (off, data.length) ∧ last = false then
    s.respond q 0x04 .ok (blockBody k 0 t.data.length total)
  else s.segmentError q 0x04 k

/-- WRITE_BLOCK; bits 7:3 of SFLAGS are ignored (R15). -/
def State.writeBlock (s : State) (q : Req) (body : List Byte) (u : List Upset) (patch : Option Nat) (e : StoreEnd) : State :=
  let k := bodyKey body
  let f := (body.getD 3 0).toNat
  let off := fromLE ((body.drop 4).take 4)
  let total := fromLE ((body.drop 8).take 4)
  let data := body.drop 12
  let fail (st : Status) : State := s.respond q 0x04 st (blockBody k 0 0 0)
  if body.length < 12 ∨ 492 < body.length then fail .length
  else match objDesc k with
    | none => fail .absentObject
    | some d =>
      if d.acc ≠ .rw ∧ d.acc ≠ .wo then fail .readOnly
      else if d.type ≠ .domain then fail .typeMismatch
      else if d.expert && !s.isExpert q then fail .expertRequired
      else if bit f 2 then
        (if (s.transferOf q).isSome then (s.closeTransfer q).respond q 0x04 .ok (blockBody k 4 0 0) else fail .segment)
      else if bit f 0 then
        let s := s.closeTransfer q
        let t : Transfer := { path := q.path, src := q.src.toNat, index := k / 256, sub := k % 256, write := true, data := [],
                              total := total, prev := none }
        if s.transferFull k then s.respond q 0x04 .noResource (blockBody k 0 0 0)
        else (s.putTransfer q t).writeSegment q k t (bit f 1) off total data u patch e
      else match s.transferOf q with
        | some t =>
          if t.write = false ∨ objKey t.index t.sub ≠ k then fail .segment
          else s.writeSegment q k t (bit f 1) off total data u patch e
        | none => fail .segment

/-! ### APPLY (R492) -/

/-- The turn marker at which an APPLY executed now takes effect: the first at least 2 ticks away, under the numbering in
force. -/
def State.applyTurn (s : State) : Nat :=
  let x := s.xc + 2
  let n := ceilDiv x (s.o Obj.XC_TURN_LEN) * s.o Obj.XC_TURN_LEN
  if n < 2 ^ 48 then n
  else if x < 2 ^ 48 then 0
  else ceilDiv (x - 2 ^ 48) (s.o Obj.XC_TURN_LEN) * s.o Obj.XC_TURN_LEN

/-- Every pending value is captured, host-written LUTs among them; what an earlier APPLY captured keeps its marker. -/
def State.apply (s : State) : State :=
  let t := s.tick + 2
  let take (x : Chan) : Chan :=
    match x.host with
    | some p => { x with host := none, hostDue := x.hostDue ++ [{ p with applied := some t }] }
    | none => x
  let a := if s.shadowPend.isEmpty then s.applied else s.applied ++ [(t, s.shadowPend)]
  let s := s.mapChans fun _ x => take x
  { s.setO Obj.NV_APPLY_X s.applyTurn with applied := a, shadowPend := [] }

/-! ### RESTORE_DEFAULTS (R509) -/

/-- A HALT object of the stored set would be refused. -/
def State.restoreBlocked (s : State) : Bool :=
  storedKeys.any fun k => match objDesc k with
    | some d => d.cls = .halt && s.running k
    | none => false

/-- One object of the stored set is written with its default; a leaf shows its hub's cluster id all the same (R458). -/
def State.restoreOne (s : State) (k : Nat) : State :=
  match objDesc k with
    | some d => s.acceptWrite k d (objDefault k)
    | none => s

/-- The default of every object of the stored set is written under its class. -/
def State.restoreValues (s : State) : State := storedKeys.foldl State.restoreOne s

/-- The SCOPE of the request is none of 1 to 3. -/
def State.badScope (s : State) (q : Req) : Bool := (s.queuedBody q).any fun b => !(decide (1 ≤ fromLE b) && decide (fromLE b ≤ 3))

/-- RESTORE_DEFAULTS; a store that has to wait for the NVM staging leaves the request unexecuted (R372). -/
def State.restoreDefaults (s : State) (q : Req) (values image : Bool) (u : List Upset) (e : StoreEnd) : State :=
  if s.badLength q 1 then s.respond q 0x06 .length []
  else if !s.isExpert q then s.respond q 0x06 .expertRequired []
  else if s.badScope q then s.respond q 0x06 .outOfRange []
  else if image && s.nvOpen then s
  else if values && s.restoreBlocked then s.respond q 0x06 .functionRunning []
  else
    let s := if values then s.restoreValues else s
    if image then s.storeAnswer q 0x06 [] 1 (ownImage 1 0 []) u e else s.respond q 0x06 .ok []

/-! ### The commands -/

/-- READ. -/
def execRead (q : Req) (body : List Byte) (s : State) : Host.Outcome State Fault Refusal := .next (s.ifRequest q (s.readObject q body))

/-- WRITE_OBJECT. -/
def execWriteObject (q : Req) (body : List Byte) (s : State) : Host.Outcome State Fault Refusal := .next (s.ifRequest q (s.writeObject q body))

/-- READ_BLOCK. -/
def execReadBlock (q : Req) (body : List Byte) (u : List Upset) (s : State) : Host.Outcome State Fault Refusal :=
  .next (s.ifRequest q (s.readBlock q body u))

/-- WRITE_BLOCK: patch and e say how a whole NV_PATCH or NV_IMAGE write goes. -/
def execWriteBlock (q : Req) (body : List Byte) (u : List Upset) (patch : Option (BitVec 16)) (e : StoreEnd) (s : State) :
    Host.Outcome State Fault Refusal :=
  .next (s.ifRequest q (s.writeBlock q body u (patch.map BitVec.toNat) e))

/-- RESTORE_DEFAULTS_VALUES. -/
def execRestoreDefaultsValues (q : Req) (s : State) : Host.Outcome State Fault Refusal :=
  .next (s.ifRequest q (s.restoreDefaults q true false [] .committed))

/-- RESTORE_DEFAULTS_IMAGE. -/
def execRestoreDefaultsImage (q : Req) (u : List Upset) (e : StoreEnd) (s : State) : Host.Outcome State Fault Refusal :=
  .next (s.ifRequest q (s.restoreDefaults q false true u e))

/-- RESTORE_DEFAULTS_BOTH. -/
def execRestoreDefaultsBoth (q : Req) (u : List Upset) (e : StoreEnd) (s : State) : Host.Outcome State Fault Refusal :=
  .next (s.ifRequest q (s.restoreDefaults q true true u e))

/-- APPLY: XTURN is the crossing of the turn marker. -/
def execApply (q : Req) (s : State) : Host.Outcome State Fault Refusal :=
  .next (s.ifRequest q (if s.badLength q 0 then s.respond q 0x07 .length (bytesLE 6 0)
    else s.apply.respond q 0x07 .ok (bytesLE 6 s.applyTurn)))

end Sys2Proof.Machine
end

