-- ==== Sys2Proof/Machine/Power.lean ====
section
/-! DEFINITION. Feeds, rails, the plinth's latch, RST_N and the resets they cause (R515 to R528, R539). -/
namespace Sys2Proof.Machine

/-! ### The plinth (R518, R519) -/

/-- The plinth loses its contents: every plinth value is zero (R518). -/
def State.plinthGone (s : State) : State :=
  let s := [Obj.RST_CAUSE, Obj.RST_COUNT, Obj.RST_LADDER, Obj.RST_PCYC, Obj.PWR_SUPPLY_EVT].foldl (fun t k => t.setO k 0) s
  { s with plinth := { lost := true } }

/-- Off with VKEEP absent: the plinth has no supply. -/
def State.plinthSupply (s : State) : State :=
  if s.o Obj.PWR_STATE = 0 ∧ s.ob Obj.PWR_FEEDS 3 = false then s.plinthGone else s

/-- VKEEP_LOST. -/
def State.vkeepLost (s : State) : State := ((s.setOb Obj.PWR_FEEDS 3 false).plinthSupply).refreshFaultN

/-! ### Feeds (R515 to R517) -/

/-- A feed is good. -/
def State.feedGood (s : State) (f : Feed) : Bool := s.ob Obj.PWR_FEEDS (feedBit f)

/-- The device draws from feed f. -/
def State.drawFrom (s : State) (f : Feed) : State := s.setOb Obj.PWR_FEEDS 2 (f == Feed.b)

/-- The first feed becomes good: the device starts from the beginning, with KEEP_LOST when the plinth had lost its contents
(R518, R519, R525). -/
def State.powerUp (s : State) (f : Feed) : State :=
  let lost := s.plinth.lost
  let s := s.cold
  let s := (s.setO Obj.RST_CAUSE (if lost then 2 else 1)).bump Obj.RST_COUNT
  let s : State := if lost then { s.setOb Obj.PWR_SUPPLY_EVT 3 true with plinth := { s.plinth with lost := false } } else s
  ({ s with power := { s.power with lostA := false, lostB := false } }.drawFrom f).standing

/-- FEED_GOOD: vkeep is the presence of VKEEP at that moment; the first feed starts the device, and without VKEEP the plinth has
held nothing until then (R515, R518, R588, R591). -/
def State.feedRise (s : State) (f : Feed) (vkeep : Bool) : State :=
  let s := s.setOb Obj.PWR_FEEDS 3 vkeep
  if s.feedGood f then s
  else
    let first := !s.feedGood .a && !s.feedGood .b
    let s := s.setOb Obj.PWR_FEEDS (feedBit f) true
    if s.o Obj.PWR_STATE = 0 ∨ first = true then ((if vkeep then s else s.plinthGone).powerUp f).refreshFaultN
    else
      let p := { s.power with lostA := s.power.lostA && decide (f ≠ Feed.a), lostB := s.power.lostB && decide (f ≠ Feed.b) }
      ({ s with power := p }).settle

/-- The EVENT of a feed (R516, R556). -/
def State.feedEvent (s : State) : State :=
  s.stage 0x0201 1 0 (bytesLE 1 (s.o Obj.PWR_FEEDS) ++ bytesLE 2 (s.o Obj.PWR_SUPPLY_EVT))

/-- A change of feed (R516). -/
def State.feedChange (s : State) (f : Feed) : State := ((s.drawFrom f).bump Obj.PWR_FEED_SW).capture 9

/-- Both feeds are lost: Off; a request for a power cycle is over (R517, R519, R539). -/
def State.powerOff (s : State) (f : Feed) : State :=
  let s := ((s.setOb Obj.PWR_SUPPLY_EVT (feedBit f) true).setOb Obj.PWR_SUPPLY_EVT 2 true)
  let s := if s.ob Obj.RST_PCYC 0 then (s.setOb Obj.PWR_SUPPLY_EVT 5 true).setO Obj.RST_PCYC 0 else s
  let s := s.cold.setO Obj.PWR_STATE 0
  let s := ((s.setOb Obj.PWR_FEEDS 0 false).setOb Obj.PWR_FEEDS 1 false).setOb Obj.PWR_FEEDS 2 false
  ({ s with power := { s.power with lostA := false, lostB := false } }.plinthSupply).refreshFaultN

/-- FEED_LOST, and where the last feed goes, what the loss leaves of an NVM write (R499): the condition arises in every power state but Off (R550; log entry 159). -/
def State.feedFall (s : State) (f : Feed) (cut : Option (Nat × Nat)) : State :=
  let other : Feed := if f = .a then .b else .a
  if !s.feedGood f then s
  else if !s.feedGood other then (match cut with | some c => s.nvCut c.1 c.2 | none => s).powerOff f
  else
    let s := (s.setOb Obj.PWR_FEEDS (feedBit f) false).setOb Obj.PWR_SUPPLY_EVT (feedBit f) true
    let s := if s.ob Obj.PWR_FEEDS 2 == (f == Feed.b) then s.feedChange other else s
    let s : State := { s with power := { s.power with lostA := s.power.lostA || f == Feed.a, lostB := s.power.lostB || f == Feed.b } }
    (s.feedEvent.ariseIf 2).settle

/-- FEED_RETURN: feed A has been good for 10 ms while the device draws from feed B. -/
def State.feedReturn (s : State) : State :=
  if s.feedGood .a && s.feedGood .b && s.ob Obj.PWR_FEEDS 2 && s.flag Obj.PWR_FEED_RET then (s.feedChange .a).feedEvent else s

/-! ### Rails and RST_N (R520, R527) -/

/-- RAIL_UNDERVOLTAGE, while at least one feed is good. -/
def State.railLow (s : State) : State :=
  if (s.feedGood .a || s.feedGood .b) && s.o Obj.PWR_STATE != 0 then (s.setOb Obj.PWR_SUPPLY_EVT 4 true).deviceReset 6 else s

/-- RST_N_ASSERT: the device stays in reset while RST_N is low; without a good feed there is nothing to reset (R591). -/
def State.rstLow (s : State) : State :=
  if s.power.rstN then s
  else
    let s : State := { s with power := { s.power with rstN := true } }
    if s.o Obj.PWR_STATE = 0 ∨ (s.feedGood .a = false ∧ s.feedGood .b = false) then s else s.deviceReset 3

/-- RST_N_RELEASE: the boot starts. -/
def State.rstHigh (s : State) : State := { s with power := { s.power with rstN := false } }

/-! ### Reset and power cycle by command (R528, R535, R539) -/

/-- COMMAND_RESET_EFFECT. -/
def State.commandReset (s : State) : State := if s.cufel.after = some .reset then s.deviceReset 4 else s

/-- The response of a command that takes effect after it has been sent. -/
def State.actAfter (s : State) (a : AfterResp) : State := { s with cufel := { s.cufel with after := some a } }

/-! ### The commands -/

/-- FEED_GOOD. -/
def execFeedGood (f : Feed) (vkeep : Bool) (s : State) : Host.Outcome State Fault Refusal := .next (s.feedRise f vkeep)

/-- FEED_LOST. -/
def execFeedLost (f : FeedLoss) (s : State) : Host.Outcome State Fault Refusal :=
  .next (s.feedFall f.feed (f.cut.map fun c => (c.1.toNat, c.2.toNat)))

/-- FEED_RETURN. -/
def execFeedReturn (s : State) : Host.Outcome State Fault Refusal := .next s.feedReturn

/-- RAIL_UNDERVOLTAGE. -/
def execRailUndervoltage (s : State) : Host.Outcome State Fault Refusal := .next s.railLow

/-- RST_N_ASSERT. -/
def execRstNAssert (s : State) : Host.Outcome State Fault Refusal := .next s.rstLow

/-- RST_N_RELEASE. -/
def execRstNRelease (s : State) : Host.Outcome State Fault Refusal := .next s.rstHigh

/-- VKEEP_LOST. -/
def execVkeepLost (s : State) : Host.Outcome State Fault Refusal := .next s.vkeepLost

/-- RESET_COMMAND. -/
def execResetCommand (q : Req) (key : BitVec 16) (arg : BitVec 32) (inTime : Bool) (s : State) : Host.Outcome State Fault Refusal :=
  .next (s.ifRequest q (s.functionCmd q 0x80 0x10 key.toNat arg.toNat true true inTime (fun _ => .ok) fun t => (t.actAfter .reset, 0)))

/-- COMMAND_RESET_EFFECT. -/
def execCommandResetEffect (s : State) : Host.Outcome State Fault Refusal := .next (s.ifAwake s.commandReset)

/-- PCYC_REQUEST. -/
def execPcycRequest (q : Req) (key : BitVec 16) (arg : BitVec 32) (inTime : Bool) (s : State) : Host.Outcome State Fault Refusal :=
  .next (s.ifRequest q (s.functionCmd q 0x80 0x14 key.toNat arg.toNat true true inTime (fun _ => .ok) fun t => (t.pcycAssert 3 0, 0)))

/-- PCYC_CLEAR. -/
def execPcycClear (q : Req) (key : BitVec 16) (arg : BitVec 32) (s : State) : Host.Outcome State Fault Refusal :=
  .next (s.ifRequest q (s.functionCmd q 0x80 0x15 key.toNat arg.toNat true false true (fun _ => .ok) fun t => (t.pcycRelease, 0)))

end Sys2Proof.Machine
end

