-- ==== Sys2Proof/Machine/Boot.lean ====
section
/-! DEFINITION. The boot steps (R531 to R534), data-ready (R533), parking and unparking (R523, R524), and the straps
(R530). -/
namespace Sys2Proof.Machine

/-! ### Steps (R531) -/

/-- A boot step may complete: the device boots, out of reset (step 1 runs while RST_N is low, R591) and with a clock, the
step is not complete, and those it depends on are. The steps with arithmetic or NVM work of the supervisor wait while it
restarts (R40), and the factory test role starts no data path (R2). -/
def State.stepDue (s : State) (n : Nat) (after : List Nat) : Bool :=
  s.o Obj.PWR_STATE == 1 && !(s.cufel.down && [4, 7, 8].contains n) && (n ≤ 6 || s.o Obj.CF_ROLE != 3) && (n == 1 || !s.power.rstN) && s.o Obj.CLK_STATE != 5 && !s.frz.frozen && !s.ob Obj.PWR_BOOT_STEP n
    && after.all fun m => s.ob Obj.PWR_BOOT_STEP m

/-- Step n is complete at a time in us since the start of the boot. -/
def State.stepDone (s : State) (n us : Nat) : State :=
  { s.setOb Obj.PWR_BOOT_STEP n true with power := { s.power with trace := s.power.trace.set n us } }

/-- Step 3: repairs switched in, the firmware with a patch image that is committed and passes its check, loaded into the
firmware RAM, whose rest is zeroed, and the self-test of the check units (R272, R379, R387, R500, R512). -/
def State.bootFirmware (s : State) (bist : Nat) (patchOk : Bool) (fuse : List Nat) : State :=
  let r := switchIn (fuse ++ s.repairRecords)
  let s := (s.setRepairs r.1).setO Obj.SPM_REPAIR_BAD (clip 255 (r.2 + s.repairsTorn))
  let s := if s.patchHeld then s.check 37 s.patchImage else s
  let s := (s.setO Obj.CF_FW_VER (0x10000 + if s.patchHeld && patchOk then s.nv.patch.2 else 0)).setO Obj.CHK_BIST bist
  let s : State := { s with memUnit := { s.memUnit with fwRam := [], fwLoads := s.memUnit.fwLoads + 1 } }
  let s := if bist = 0 then s else (s.stage 0x0408 0 0 (bytesLE 5 bist)).arise 15
  s.bootCal

/-- Step 6: the boot march leaves zeros; the failing cells are repaired, and the records of the repairs are kept for the NVM
(R380, R381, R387). -/
def State.bootScratchpad (s : State) (first second : List Cell) : State :=
  let p := s.repairsNow
  let q := p.repair first
  let cs := standingCells first second (p.subs q)
  let s := (s.setRepairs q).setO Obj.SPM_DEFECTS (clip 65535 (toleratedWords cs))
  let s : State :=
    { s with spm := [], soiled := [], memUnit := { s.memUnit with fix := [], port := [] }, power := { s.power with newRepairs := p.records q } }
  match failedWords cs with
  | w :: r =>
    ({ s with power := { s.power with bootStop := true } }.stage 0x0306 0 (subOf w) (bytesLE 2 (clip 65535 (r.length + 1)))).arise 7
  | [] => s

/-- The die mark of a stored training copy is applied (R363). -/
def State.applyMark (s : State) (r mark : Nat) : State :=
  if mark < 6 then (s.setO (Obj.DRM_DIEMARK r) mark).ariseIf 3 else s

/-- A rank has passed training: its delays, where they come from, and the zero fill (R361, R387). -/
def State.rankFilled (s : State) (r : Nat) (d : List Byte) (src : Nat) : State :=
  let s := s.setRank r { s.rank r with delays := d }
  ((s.setO (Obj.DRM_TRAIN_SRC r) src).setO (Obj.DRM_RSTATE r) 2).setRankData r []

/-- The stored copy of a rank. -/
def State.storedCopy (s : State) (r : Nat) : Option (List Byte × Nat) := s.trainStored.getD r none

/-- The longest run of passing settings from setting n on, with its first setting; of equal runs the lower (log entry 146). -/
def longestRun (m : Nat) : Nat → Nat → Nat × Nat → Nat × Nat
  | 0, _, best => best
  | n + 1, len, best =>
    let i := 63 - n
    let len := if bit m i then len + 1 else 0
    longestRun m n len (if best.2 < len then (i + 1 - len, len) else best)

/-- The window of a delay under its 64 settings: first setting and length (R362). -/
def windowOfMask (m : BitVec 64) : Nat × Nat := longestRun m.toNat 64 0 (0, 0)

/-- The centre of a window. -/
def centre (w : Nat × Nat) : Nat := w.1 + (w.2 - 1) / 2

/-- The windows of the 37 delays of a sweep. -/
def sweepWindows (passing : List (BitVec 64)) : List (Nat × Nat) := (List.range 37).map fun i => windowOfMask (passing.getD i 0)

/-- A delay works when its window spans 8 steps or more. -/
def delayWorks (w : List (Nat × Nat)) (i : Nat) : Bool := decide (8 ≤ (w.getD i (0, 0)).2)

/-- A lane works with its three delays, a die with its two lanes (R362). -/
def laneWorks (w : List (Nat × Nat)) (l : Nat) : Bool := delayWorks w l && delayWorks w (12 + l) && delayWorks w (24 + l)

/-- The dies that do not work. -/
def sweepFailing (w : List (Nat × Nat)) : Nat :=
  ((List.range 6).filter fun j => !(laneWorks w (2 * j) && laneWorks w (2 * j + 1))).foldl (fun a j => a + 2 ^ j) 0

/-- The delays that a sweep sets; a delay without a window takes an open value (log entry 146). -/
def sweepDelays (w : List (Nat × Nat)) (free : Nat) : List Byte :=
  w.map fun e => if e.2 = 0 then BitVec.ofNat 8 (free % 64) else BitVec.ofNat 8 (centre e)

/-- Training of rank r at boot ends (R362, R363): the state after it; none when a verify is reported that cannot have
passed, so that a sweep is still to come. -/
def State.trainRank (s : State) (r : Nat) (e : TrainEnd) : Option State :=
  let marked := match s.storedCopy r with | some (_, m) => s.applyMark r m | none => s
  match e with
  | .stored failing =>
    match s.storedCopy r with
    | some (d, _) =>
      let j := marked.judgeDies r failing.toNat
      if j.2 && !s.memUnit.sweepNext then some (j.1.rankFilled r d 1) else none
    | none => none
  | .sweep passing =>
    let w := sweepWindows passing
    let t := if sweepFailing w = 0 then s.setO (Obj.DRM_DIEMARK r) 0xFF else marked
    let j := if delayWorks w 36 then t.judgeDies r (sweepFailing w) else (marked, false)
    let u : State := { j.1 with power := { j.1.power with swept := true } }
    if j.2 then some (u.drawn.rankFilled r (sweepDelays w u.open) 2) else some (u.retire r 3)

/-- Step 7: the three ranks (R362 to R364, R387). -/
def State.bootDram (s : State) (a b c : TrainEnd) : Option State := do
  let s ← s.trainRank 0 a
  let s ← s.trainRank 1 b
  let s ← s.trainRank 2 c
  pure { s with memUnit := { s.memUnit with sweepNext := false } }

/-- The boot run of a channel passes its checks (R105, R111). -/
def bootRunOk (h : List Nat × List Nat) : Bool :=
  h.1.length == 160 && h.2.length == 80 && h.1.sum == 2 ^ 16 && h.2.sum == 2 ^ 14 && lutChecks 16 h.1 h.2

/-- The LUTs of a channel after its boot run: computed, or the linear ones; generation 1 (R111, R119). -/
def State.bootLut (s : State) (c : Ch) (h : List Nat × List Nat) : State :=
  let ok := bootRunOk h
  let x := s.chan c
  let lut := if ok then lutOf 16 0 h.1 else linearLut
  let walk := if ok then walkLutOf 14 0 h.2 else linearWalk
  let st := (if ok then tapsOf h.1 else 128) * 256 + b2n (!ok) * 32 + 8 + 4 * b2n x.pending
  ((s.setChan c { x with lut := lut, walk := walk }).setO (Obj.CH_STATUS c) st).setO (Obj.TDC_LUTGEN c) 1

/-- The boot calibration of every channel, with its swap history, whose XSWAP is the crossing in progress, as no turn marker
swaps these LUTs; TDC_STATE is OFF from then until the data-ready tick. A boot calibration that is repeated after a CKIN failure in
Boot adds its entries behind the earlier ones, with the next BATCH numbers (R108, R111, R534; DESIGN CHOICE, log entry 147). -/
def State.bootLuts (s : State) (hists : List (List Nat × List Nat)) : State :=
  let run (c : Ch) : List Nat × List Nat := hists.getD c.val ([], [])
  let s := allCh.foldl (fun t c => t.bootLut c (run c)) s
  let s := (s.historyEntry 2 (allCh.filter fun c => bootRunOk (run c))).historyEntry 3 (allCh.filter fun c => !bootRunOk (run c))
  s.tapsUpdate.setO Obj.TDC_STATE 0

/-- Step 8: TDC calibration, both housekeeping slices, and the builders' self-tests, which a failed check unit of theirs
fails (R111, R245, R272, R441, R446, R534). The constants of a slice that passes take effect at once; a slice that fails is
calibrated again, and the step is complete when both have passed. -/
def State.bootCalibrate (s : State) (hists : List (List Nat × List Nat)) (hk : List (Int × Int)) (ok0 ok1 : Bool) : State × Bool :=
  let r0 := if s.hk.passed.contains 0 then (s, true) else s.hkSliceCal 0 (hk.take 4)
  let r1 := if s.hk.passed.contains 1 then (r0.1, true) else r0.1.hkSliceCal 1 (hk.drop 4)
  if r0.2 && r1.2 then
    let u := (r1.1.bootLuts hists).setO Obj.HK_STATE 1
    let p0 := ok0 && bits (u.o Obj.CHK_BIST) 6 5 == 0
    let p1 := ok1 && bits (u.o Obj.CHK_BIST) 8 7 == 0
    let u : State := { u with power := { u.power with selftest := [p0, p1], bootStop := u.power.bootStop || (!p0 && !p1) },
                              hk := { u.hk with sparePassed := true, passed := [] } }
    (if p0 || p1 then u else (u.builderStart false false).settle, true)
  else
    let u := r1.1
    ({ u with hk := { u.hk with passed := (if r0.2 then [0] else []) ++ (if r1.2 then [1] else []) } }, false)

/-! ### The end of a boot (R531 to R533) -/

/-- The training copy to write after a boot with a sweep, with every rank that is not retired (R363). -/
def State.sweptTrain (s : State) : List (Nat × Nat × Nat) :=
  let copy (r : Nat) : Option (List Byte × Nat) :=
    if s.rstate r = 7 ∨ s.rstate r = 8 then none else some ((s.rank r).delays, s.o (Obj.DRM_DIEMARK r))
  if s.power.swept then s.newTrain ((List.range 3).map copy) else []

/-- What the supervisor writes to the NVM after step 9: the repair records found by the march join those of the repair area, and
after a sweep the training area's other copy is written; while it restarts, that waits (R40, R363, R379, R380, R531). -/
def State.bootWrites (s : State) : State :=
  if s.cufel.down || !s.ob Obj.PWR_BOOT_STEP 9 || (s.power.newRepairs.isEmpty && !s.power.swept) then s
  else
    let s := s.nvWrite (s.newRepairWords s.power.newRepairs ++ s.sweptTrain)
    { s with power := { s.power with newRepairs := [], swept := false } }

/-- The log entry that ends a boot (R508, R556). -/
def State.bootEvent (s : State) : State :=
  s.stage 0x0202 1 0 (bytesLE 1 (s.o Obj.RST_CAUSE) ++ bytesLE 4 (s.o Obj.PWR_BOOT_TIME) ++ bytesLE 1 (s.o Obj.NV_BOOT_FLAGS)
    ++ bytesLE 2 (s.o Obj.NV_SKIPPED))

/-! ### Parked (R523) -/

/-- The latency buffer returns to the condition it has at reset. -/
def State.lbOff (s : State) : State :=
  let l := [Obj.LB_STATE, Obj.LB_RANKMAP, Obj.LB_FLOOR, Obj.LB_CAPFLOOR, Obj.LB_LOSTBELOW, Obj.LB_WPTR, Obj.LB_WTOTAL, Obj.LB_MIGPTR]
  { l.foldl (fun t k => t.setO k (objDefault k)) s with lb := {} }

/-- Ranks on entry into Parked: those that hold data enter self-refresh, and a retired one is read no longer (R360, R367). -/
def State.ranksPark (s : State) : State :=
  (List.range 3).foldl (fun t r =>
    if t.rstate r = 2 ∨ t.rstate r = 3 ∨ t.rstate r = 5 then t.setO (Obj.DRM_RSTATE r) 6
    else if t.rstate r = 7 then t.setO (Obj.DRM_RSTATE r) 8 else t) s

/-- The channels are powered down and the calibration stops; LUTs and generations are kept (R523, R524). -/
def State.tdcPark (s : State) : State :=
  let held := allCh.filter fun c => decide ((s.chan c).cal = .accum ∨ (s.chan c).cal = .compute)
  let s := held.foldl (fun t c => t.calWait c) s
  let s := s.mapChans fun _ x => x.powerDown
  { s.setO Obj.TDC_STATE 0 with calUnit := { s.calUnit with running := false, slots := [] } }

/-- Functions whose nodes are gated in Parked, or that only a device in service runs: front end, assembly, query, hub,
builders and DRAM (R405, R523, R538). -/
def gatedInParked (f : Nat) : Bool := f ≤ 4 || f == 7

/-- The TDC PLL of a parked device is out of lock, and its north link goes on at rate code 3, to which N_TX0 changes through L2 (R280,
R521, R524; DEDUCED, log entry 179). -/
def State.parkClocks (s : State) : State :=
  let s := s.setOb Obj.CLK_PLL_STATUS 0 false
  let t : State := { s with north := { s.north with rate := 3 } }
  if s.north.rate ≠ 3 ∧ s.pstate 0 ≠ 2 then t.laneL2 0 else t

/-- Parked is entered (R523); nodes that are busy stay running, counted as a refused request (R406; log entry 157). -/
def State.enterParked (s : State) : State :=
  let s := (s.ranksPark.lbOff.tdcPark).setO Obj.PWR_STATE 2
  let p := { s.power with parking := none, unparking := false, toDisable := [], reenable := [],
                          reinit := s.power.reinit.filter fun f => !gatedInParked f, verifying := [],
                          deferred := s.power.deferred.filter fun e => !(e.2.1 == 2 && gatedInParked e.1) }
  let s : State := { s with power := p, clk := { s.clk with resume := false } }
  let s := s.parkClocks
  let l := s.refusedNodes parkedNodes
  (({ s with power := { s.power with parkGate := clearBits parkedNodes l } }).noteRefused l).follow

/-- The pool blocks of the answers that the merger's records hold. -/
def State.recBlocks (s : State) : List Nat :=
  s.hub.recs.flatMap fun r => r.pos.flatMap fun p => match p with | .paired a => a.blocks | _ => []

/-- The merger gives up its records: the builder's blocks of its own answers are released, and the port buffers are empty of
paired answers (R205, R220). -/
def State.dropRecs (s : State) : State :=
  let s := s.releaseAll .builder s.recBlocks
  { s with hub := { s.hub with recs := [], ownSkip := 0, ports := s.hub.ports.map fun (p : HubPort) => { p with fill := 0 } } }

/-- Queries still queued are dropped as at a device reset, with every merger record (R211, R523). -/
def State.dropQueries (s : State) : State :=
  let before := s.query.fill
  let s := s.dropRecs
  let pool := s.query.pool.filter fun e => e.2 != agentCode .query
  let s : State := { s with query := { s.query with items := [], lastQid := none, pool := pool },
                            cmp := { s.cmp with liveQ := none } }
  ((List.range 4).foldl (fun t n => t.setCtx n {}) (s.setO Obj.CMP_CTXVALID (s.o Obj.CMP_CTXVALID / 16 * 16))).busyUpdate before

/-- PARK is judged: Run or Degraded, with no re-initialisation and no park under way (R523, R538). -/
def State.parkCheck (s : State) : Status :=
  if s.inRun ∧ s.power.parking = none ∧ s.power.reinit = [] then .ok else .functionRunning

/-- PARK: p is the first tick after execution. -/
def State.park (s : State) : State × Nat :=
  ({ s with power := { s.power with parking := some (s.tick + 1) } }, s.xeff % 2 ^ 32)

/-- The channels whose FE_ENABLE.EN is 1. -/
def State.enabledChans (s : State) : List Ch := allCh.filter fun c : Ch => s.ob (Obj.FE_ENABLE c.val) 0

/-- What a park does at tick p: every enabled channel is disabled, and the assembler stops (R523). -/
def State.parkTick (s : State) : State :=
  if s.power.parking = some s.tick then
    (s.enabledChans.foldl State.disableChan s).asmCtrlEffect 2
  else s

/-- A park has passed tick p. -/
def State.parking (s : State) : Bool := s.power.parking.any fun p => decide (p ≤ s.tick)

/-- The drain is over: assembler IDLE, no query queued, no answer waiting, building or unacknowledged on the north link or on a
pass-through link. -/
def State.drained (s : State) : Bool :=
  s.o Obj.ASM_STATE == 0 && s.query.items.isEmpty && s.hub.recs.isEmpty && s.bld.parts.isEmpty && s.north.answers.isEmpty
    && (s.north.tx.held.all fun f => f.kind != 0)
    && s.pass.toList.all fun p => (p.tx.held.all fun f => f.kind != 0) && p.queue.all fun e => e.1 != 0

/-- PARK_COMPLETE. -/
def State.parkComplete (s : State) : State := if s.parking && s.inRun && s.drained then s.enterParked else s

/-- PARK_TIMEOUT: PWR_PARK_TO has passed since tick p. -/
def State.parkTimeout (s : State) : State := if s.parking then s.dropQueries.enterParked else s

/-- UNPARK is judged (R524). -/
def State.unparkCheck (s : State) : Status :=
  if s.o Obj.PWR_STATE = 2 ∧ s.o Obj.CF_ROLE ≠ 3 then .ok else .functionRunning

/-- UNPARK: nodes are ungated, and lanes and ranks may leave their low-power states; a north link that ran at rate code 3 for Parked
alone exchanges CAPS again (R314, R524; log entry 179). -/
def State.unpark (s : State) : State :=
  let t : State := { s with power := { s.power with unparking := true } }
  (if s.o Obj.RG_LSTATE ≠ 0 ∧ s.capsRate ≠ t.capsRate then t.northDown true else t).follow

/-! ### Data-ready (R533) -/

/-- A serving rank with a marked die holds its condition (R550). -/
def State.dieHolds (s : State) : State :=
  if (List.range 3).any fun r => s.rstate r == 3 && s.o (Obj.DRM_DIEMARK r) != 0xFF then s.ariseIf 3 else s

/-- The builders take ACTIVE and STANDBY when they are still off. -/
def State.buildersReady (s : State) : State :=
  if s.unit 0 = 0 ∧ s.unit 1 = 0 then s.builderStart (s.power.selftest.getD 0 true) (s.power.selftest.getD 1 true) else s

/-- Everything that the data-ready tick starts; ok says which ranks passed. -/
def State.startService (s : State) (ok : Nat → Bool) : State :=
  let s : State := { s with power := { s.power with parking := none, unparking := false }, query := { s.query with lastQid := none } }
  let s := ((s.lbStart ok).asmRun.openNow.dieHolds).setO Obj.PWR_STATE 3
  let s := s.enabledChans.foldl State.enableChan s
  s.buildersReady.calStart.enterRun

/-- Step 9 of a boot may come: steps 4, 6, 7 and 8 are complete, nothing stops the boot, and CKIN is accepted. -/
def State.bootReady (s : State) : Bool :=
  s.stepDue 9 [4, 6, 7, 8] && !s.power.bootStop && s.o Obj.CLK_STATE == 3

/-- An unpark may end: the PLLs are in lock, every rank has left self-refresh, and every lane that is wanted has left L2. -/
def State.unparkReady (s : State) : Bool :=
  s.o Obj.PWR_STATE == 2 && s.power.unparking && s.o Obj.CLK_STATE == 3 && s.ob Obj.CLK_PLL_STATUS 0
    && ((List.range 3).all fun r => s.rstate r != 6 && s.rstate r != 5)
    && (List.range 25).all fun i => s.laneWant i == 2 || s.pstate i != 2

/-- The end of a boot at a time in us: Run, or Parked with PWR_BOOT_PARK. -/
def State.bootEnd (s : State) (us : Nat) : State :=
  let s := (s.stepDone 9 us).setO Obj.PWR_BOOT_TIME us
  let s := if s.flag Obj.PWR_BOOT_PARK then s.enterParked else s.startService fun r => s.rstate r == 2
  s.bootEvent.bootWrites

/-- The factory test role ends its boot after step 4, in Parked (R532). -/
def State.factoryEnd (s : State) : State := if s.o Obj.CF_ROLE = 3 then s.enterParked.bootEvent else s

/-- Step 4: the bank in force, Cufel service and the CAN port (R507, R508, R531, R532). -/
def State.bootConfig (s : State) (ueA ueB : Bool) (us : Nat) : State :=
  let s := (s.bankLoad ueA ueB).stepDone 4 us
  let s := if s.flag Obj.CAN_ENABLE && s.o Obj.CAN_STATE == 0 then s.canListen else s
  s.factoryEnd

/-- BOOT_START: the end of one boot step. -/
def State.bootStep (s : State) (b : BootStep) (us : Nat) : State :=
  match b with
  | .feeds => if s.stepDue 1 [] then s.stepDone 1 us else s
  | .firmware bist patchOk fuse =>
    if s.stepDue 3 [2] then (s.stepDone 3 us).bootFirmware bist.toNat patchOk (fuse.map BitVec.toNat) else s
  | .config ueA ueB => if s.stepDue 4 [3] then s.bootConfig ueA ueB us else s
  | .scratchpad first second =>
    if s.stepDue 6 [3] then (s.stepDone 6 us).bootScratchpad (cellsOf first) (cellsOf second) else s
  | .dram a b c =>
    if s.stepDue 7 [3, 5] then
      (match s.bootDram a b c with | some t => t.stepDone 7 us | none => s)
    else s
  | .calibrate hists hk ok0 ok1 =>
    if s.stepDue 8 [3, 5] then
      let r := s.bootCalibrate hists hk ok0 ok1
      if r.2 then r.1.stepDone 8 us else r.1
    else s

/-! ### Straps (R530) -/

/-- STRAP_CHECK: at the first difference, the flag and the EVENT. -/
def State.strapCheck (s : State) (v : Nat) : State :=
  if (s.o Obj.PWR_STATE == 2 || s.inRun) && !s.power.strapSeen && v != s.o Obj.PWR_STRAPS then
    let s : State := { s.setO Obj.PWR_STRAP_CHG 1 with power := { s.power with strapSeen := true } }
    s.stage 0x0206 1 0 (bytesLE 2 (s.o Obj.PWR_STRAPS) ++ bytesLE 2 v)
  else s

/-! ### The commands -/

/-- BOOT_START: a boot step ends, us after the start of the boot. -/
def execBootStart (b : BootStep) (us : BitVec 32) (s : State) : Host.Outcome State Fault Refusal := .next (s.bootStep b us.toNat)

/-- PARK. -/
def execPark (q : Req) (key : BitVec 16) (arg : BitVec 32) (s : State) : Host.Outcome State Fault Refusal :=
  .next (s.ifRequest q (s.functionCmd q 0x80 0x11 key.toNat arg.toNat true false true State.parkCheck State.park))

/-- UNPARK. -/
def execUnpark (q : Req) (key : BitVec 16) (arg : BitVec 32) (s : State) : Host.Outcome State Fault Refusal :=
  .next (s.ifRequest q (s.functionCmd q 0x80 0x12 key.toNat arg.toNat true false true State.unparkCheck fun t => (t.unpark, 0)))

/-- STRAP_CHECK. -/
def execStrapCheck (straps : BitVec 9) (s : State) : Host.Outcome State Fault Refusal := .next (s.ifAwake (s.strapCheck straps.toNat))

end Sys2Proof.Machine
end

