-- ==== Sys2Proof/Machine/Recovery.lean ====
section
/-! DEFINITION. Re-initialisation, the recovery ladder, the supervisor's restart, and the commands that leave Boot, Parked
or a park (R529, R533, R535 to R538). -/
namespace Sys2Proof.Machine

/-! ### Queries that run again (R536, R545) -/

/-- An entry as it was before it was indexed. -/
def QEntry.fresh (e : QEntry) : QEntry := { q := e.q, thin := e.thin, waited := e.waited, stale := e.stale }

/-- The query of a slot gives back its blocks and its stream. -/
def State.freeSlotWork (s : State) (n : Fin 4) : State :=
  match s.slotEntry n with
  | some e => ((s.releaseAll .query e.blocks).setOb Obj.CMP_CTXVALID n false).setCtx n {}
  | none => s

/-- A query in INDEX, FETCH or PACK returns to QUEUED (R536). -/
def State.requeue (s : State) (n : Fin 4) : State :=
  match s.slotEntry n with
  | some e => if e.st = .index ∨ e.st = .fetch ∨ e.st = .pack then (s.freeSlotWork n).mapSlot n QEntry.fresh else s
  | none => s

/-! ### Re-initialisation (R536) -/

/-- FRONTEND: the channels are disabled at the next tick and enabled at the one after. -/
def State.reinitFront (s : State) (chans : List Ch) : State :=
  { s.reiniting 0 with power := { (s.reiniting 0).power with toDisable := chans.filter fun c : Ch => s.ob (Obj.FE_ENABLE c.val) 0 } }

/-- ASSEMBLY: STOP at the next tick; START follows at the first tick in IDLE. -/
def State.reinitAsm (s : State) : State :=
  match s.o Obj.ASM_STATE with
  | 1 => (s.reiniting 1).pendLive Obj.ASM_CTRL 2
  | 3 => s
  | _ => s.reiniting 1

/-- HUB: every port in UP is taken to DOWN. -/
def State.reinitHub (s : State) : State :=
  (((List.range 8).filter fun k => s.o (Obj.HUB_PSTATE k) == 3).foldl (fun t k => t.southDown k true) s).follow

/-- NORTHLINK: every bundle lane through L2. -/
def State.reinitNorth (s : State) : State :=
  let lanes := (List.range 8).filter fun j => (j == 0 || bit s.north.agreed j) && s.o (Obj.LN_PSTATE j) != 2
  ((lanes.foldl State.laneL2 (s.reiniting 5)).northDown true).follow

/-- SOUTHLINK: the lanes of the ports through L2, and each port from CLOCK. -/
def State.reinitSouth (s : State) (ports : List Nat) : State :=
  let one (t : State) (k : Nat) : State :=
    let t := (t.southDown k true).setPortState k 1
    (t.laneL2 (9 + k)).laneL2 (17 + k)
  ((ports.filter fun k => s.ob Obj.HUB_PORT_EN k).foldl one (s.reiniting 6)).follow

/-- DRAM: a verify of every serving rank, and a spare check of S when it is the spare. -/
def State.reinitDram (s : State) : State :=
  let l := ((List.range 3).filter fun r => s.rstate r == 3) ++ (if s.rstate 2 = 4 then [3] else [])
  if l.isEmpty then s else { s.reiniting 7 with power := { (s.reiniting 7).power with verifying := l } }

/-- HOUSEKEEPING: STOP, the range states reset, both slices to be calibrated again. -/
def State.reinitHk (s : State) : State :=
  let ran := s.o Obj.HK_STATE == 2 || s.o Obj.HK_STATE == 4
  let t := (s.reiniting 8).hkAbandon
  let t := ((List.range 32).foldl (fun t m => t.setO (Obj.HK_RANGE_NOW m) 0) t).setO Obj.HK_RANGE_URG 0
  let t := (t.setO Obj.HK_START_PEND 0).setO Obj.HK_STATE 1
  let n := s.o Obj.HK_SLICE
  { t with hk := { t.hk with stopAfter := false, sparePassed := false, recal := [1 - n, n], restart := ran } }

/-- BUILDERS: a retired unit rejoins, where one can; the copy is the re-initialisation. -/
def State.reinitBuilders (s : State) : State := (s.bldCtrlEffect 2 |>.reiniting 4).copyOver

/-- CAN: the port is taken to OFF and enabled again. -/
def State.reinitCan (s : State) : State := (s.canEnableEffect 0).canEnableEffect (s.o Obj.CAN_ENABLE)

/-- The re-initialisation of function f. The ladder names the channel or port of the fault; a host's acts on every channel
whose last run was rejected, and on every port. -/
def State.reinit (s : State) (f : Nat) (c : Option Ch) : State :=
  match f with
  | 0 => s.reinitFront (match c with | some c => [c] | none => allCh.filter fun c : Ch => s.ob (Obj.CH_STATUS c.val) 4)
  | 1 => s.reinitAsm
  | 2 => (List.finRange 4).foldl State.requeue s
  | 3 => s.reinitHub
  | 4 => s.reinitBuilders
  | 5 => s.reinitNorth
  | 6 => s.reinitSouth (match c with | some c => [c.val % 8] | none => List.range 8)
  | 7 => s.reinitDram
  | 8 => s.reinitHk
  | _ => s.reinitCan

/-- A function is off in the role: the hub's and its south links' in any other role. -/
def State.roleOff (s : State) (f : Nat) : Bool := (f == 3 || f == 6) && !s.isHub

/-- REINIT by the host is judged (R535, R538). -/
def State.reinitCheck (s : State) (f : Nat) : Status :=
  if 9 < f then .outOfRange
  else if s.inRun && s.power.parking.isNone && !s.roleOff f && !s.power.reinit.contains f then .ok else .functionRunning

/-- What a tick does for a FRONTEND re-initialisation: disabled at one tick and enabled at the next, with a RESTART. -/
def State.frontTick (s : State) : State :=
  if !s.power.reinit.contains 0 then s
  else if s.power.reenable.isEmpty then
    let l := s.power.toDisable
    let t := (l.foldl State.disableChan s).calRestart
    let t : State := { t with power := { t.power with toDisable := [], reenable := l } }
    if l.isEmpty then t.reinitOver 0 else t
  else
    let t := (s.power.reenable.filter fun c : Ch => s.ob (Obj.FE_ENABLE c.val) 0).foldl State.enableChan s
    { t.reinitOver 0 with power := { (t.reinitOver 0).power with reenable := [] } }

/-- An ASSEMBLY re-initialisation ends with START at the first tick in IDLE. -/
def State.asmTick (s : State) : State :=
  if s.power.reinit.contains 1 && s.o Obj.ASM_STATE == 0 then (s.asmCtrlEffect 1).reinitOver 1 else s

/-- A link re-initialisation is over once the lanes asked for have left L2. -/
def State.linkTick (s : State) : State :=
  let up (i : Nat) : Bool := s.laneWant i == 2 || s.o (Obj.LN_PSTATE i) != 2
  let s := if s.power.reinit.contains 5 && (List.range 8).all up then s.reinitOver 5 else s
  if s.power.reinit.contains 6 && (List.range 8).all (fun k => up (9 + k) && up (17 + k)) then s.reinitOver 6 else s

/-- The re-initialisations in progress at a tick. -/
def State.reinitTick (s : State) : State := s.frontTick.asmTick.linkTick.copyOver

/-! ### The ladder (R537, R538, R543) -/

/-- A ladder step is recorded: STEP, REC_LAST and the log (R537, R543). -/
def State.ladderNote (s : State) (f step st : Nat) : State :=
  let st := setBits st 11 8 (max (bits st 11 8) step)
  let s := (s.setO (Obj.REC_STATUS f) st).setO Obj.REC_LAST (f * 2 ^ 24 + step * 2 ^ 20)
  s.stage 0x0204 0 f (bytesLE 1 step ++ bytesLE 4 st)

/-- Step 3: the lifetime record is written before the reset, which takes everything else. -/
def State.ladderReset (s : State) (f st : Nat) : State :=
  let st := setBits st 11 8 (max (bits st 11 8) 3)
  let s := s.lifeWrite 0x0204 0 f (s.o Obj.FLT_LOG_SEQ) s.xc (bytesLE 1 3 ++ bytesLE 4 st)
  (s.setO Obj.RST_LADDER (satAdd 8 (s.o Obj.RST_LADDER) 1)).deviceReset 5

/-- Steps 3 and 4 may be taken: in Run or Degraded, while no NVM store runs (R537). -/
def State.ladderFree (s : State) : Bool := s.inRun && s.o Obj.NV_STATE == 0

/-- Steps 3 and 4 and the report of a fault that has none left; outside Run and Degraded, and while a store runs,
the first two wait. -/
def State.ladderHigh (s : State) (f : Nat) (c : Ch) (st : Nat) : State :=
  let most := bits (s.o (Obj.REC_POLICY f)) 11 8
  let three := decide (3 ≤ most) && decide (s.o Obj.RST_LADDER < s.o Obj.REC_RESET_LIMIT)
  let four := decide (4 ≤ most) && s.flag Obj.REC_PCYC_EN
  if (three || four) && !s.ladderFree then
    let s := s.setO (Obj.REC_STATUS f) st
    { s with power := { s.power with deferred := s.power.deferred ++ [(f, 3, c)] } }
  else if three then s.ladderReset f st
  else if four then (s.pcycAssert 1 f).ladderNote f 4 st
  else s.ladderNote f 0 st

/-- Step 2, which waits while a park runs (R538). -/
def State.ladderReinit (s : State) (f : Nat) (c : Ch) : State :=
  if s.power.parking.isSome then { s with power := { s.power with deferred := s.power.deferred ++ [(f, 2, c)] } }
  else s.reinit f (some c)

/-- One step of the ladder for a fault of a function. -/
def State.ladderStep (s : State) (f : Nat) (c : Ch) : State :=
  let p := s.o (Obj.REC_POLICY f)
  let st := s.o (Obj.REC_STATUS f)
  let st := setBits st 31 16 (clip 65535 (bits st 31 16 + 1))
  if bits st 3 0 < bits p 3 0 then s.ladderNote f 1 (st + 1)
  else if 2 ≤ bits p 11 8 ∧ bits st 7 4 < bits p 7 4 then (s.ladderReinit f c).ladderNote f 2 (st + 16)
  else s.ladderHigh f c st

/-! ### The fault conditions (R536) -/

/-- An answer is due that the builders could take: the head of the queue, but for a query that waits for its window. -/
def State.answerDue (s : State) : Bool :=
  s.buildersAccept && match s.query.items with
    | .entry e :: _ => e.thin || e.st != .waiting
    | .run _ _ _ _ :: _ => true
    | [] => false

/-- South port k is enabled and out of UP, while S_RCKk is present. -/
def State.southOut (s : State) (k : Nat) : Bool :=
  s.isHub && s.ob Obj.HUB_PORT_EN k && s.o (Obj.HUB_PSTATE k) != 3 && s.pstate (9 + k) != 2 && !(s.lane (9 + k)).lol

/-- What is out at a tick: an answer that is due, the north link out of UP with N_RX in LOCKED, and the ports. -/
def State.outNow (s : State) : List (Nat × Ch) :=
  (if s.answerDue then [(2, 0)] else []) ++ (if s.o Obj.RG_LSTATE ≠ 3 ∧ s.locked 8 = true then [(5, 0)] else [])
    ++ ((List.range 8).filter s.southOut).map fun k => (6, Fin.ofNat 128 k)

/-- The outages at a tick, each with its start. -/
def State.watchTick (s : State) : State :=
  let start (e : Nat × Ch) : Nat := ((s.watch.outages.find? fun x => (x.1, x.2.1) == e).map (·.2.2)).getD s.tick
  { s with watch := { s.watch with outages := s.outNow.map fun e => (e.1, e.2, start e) } }

/-- The outage after which a function has failed: 1 ms for QUERY, 100 ms for a link. -/
def outageLimit (f : Nat) : Nat := if f = 2 then 1000 else 100000

/-- An outage that has lasted for its limit. -/
def State.overdue (s : State) (f : Nat) (c : Ch) : Bool :=
  s.watch.outages.any fun e => e.1 == f && (decide (e.2.1 = c) || f != 6) && s.ticksCover (s.tick - e.2.2) (outageLimit f)

/-- The condition that a FUNCTION_FAULT answers, and the state without it; a lasting outage counts anew from here on. A channel and a
port are told apart by the operand. -/
def State.faultTaken (s : State) (f : Nat) (c : Ch) : Option State :=
  match s.watch.raised.find? fun e => e.1 == f && (decide (e.2 = c) || f != 0) with
  | some e => some { s with watch := { s.watch with raised := s.watch.raised.erase e } }
  | none =>
    if s.overdue f (Fin.ofNat 128 (c.val % 8)) then
      some { s with watch := { s.watch with
        outages := s.watch.outages.filter fun e => !(e.1 == f && (decide (e.2.1 = Fin.ofNat 128 (c.val % 8)) || f != 6)) } }
    else none

/-- The step for a fault; it waits while the supervisor is unavailable (R40). -/
def State.faultStep (s : State) (f : Nat) (c : Ch) : State :=
  if s.cufel.down then { s with power := { s.power with faults := s.power.faults ++ [(f, c)] } } else s.ladderStep f c

/-- FUNCTION_FAULT: a fault condition that has been met makes the ladder take one step; without one there is no fault. -/
def State.functionFault (s : State) (f : Nat) (c : Ch) : State :=
  match s.faultTaken f c with
  | some t => t.faultStep f c
  | none => s

/-- The fault of a function still holds: its condition as a state, or what its events last left (R536, R537; DEDUCED, log entry
180). -/
def State.faultHolds (s : State) (f : Nat) : Bool :=
  match f with
  | 0 => allCh.any fun c : Ch => s.ob (Obj.CH_STATUS c.val) 4
  | 1 => s.o Obj.ASM_STATE == 1 && decide (32768 < s.lb.wc.length + 6 * s.o Obj.ASM_CAP)
  | 2 => s.overdue 2 0
  | 3 => s.portMissing
  | 4 => s.anyUnit 5
  | 5 => s.o Obj.RG_LSTATE != 3 && s.o (Obj.LN_ASTATE 8) == 4
  | 6 => s.portMissing
  | 7 => s.ob Obj.FLT_ACTIVE 3
  | 8 => s.hk.fails.any (· != 0)
  | _ => s.can.busOff

/-- Run or Degraded is entered: the steps that waited are taken where the fault still holds, once the supervisor is
available. -/
def State.takeDeferred (s : State) : State :=
  if s.ladderFree && !s.cufel.down then
    let l := s.power.deferred.filter fun e => e.2.1 == 3
    let s : State := { s with power := { s.power with deferred := s.power.deferred.filter fun e => e.2.1 != 3 } }
    l.foldl (fun t e => if t.inRun && t.faultHolds e.1 then t.ladderHigh e.1 e.2.2 (t.o (Obj.REC_STATUS e.1)) else t) s
  else s

/-- A park has ended: steps 2 that waited run, but for functions gated by now (R538). -/
def State.afterPark (s : State) : State :=
  if s.o Obj.PWR_STATE = 2 ∧ s.cufel.down = false then
    let l := s.power.deferred.filter fun e => e.2.1 == 2
    let s : State := { s with power := { s.power with deferred := s.power.deferred.filter fun e => e.2.1 != 2 } }
    l.foldl (fun t e => t.reinit e.1 (some e.2.2)) s
  else s

/-- DATA_READY: the end of a boot, or of an unpark. -/
def State.dataReadyTick (s : State) (us : Nat) : State :=
  if s.bootReady then (s.bootEnd us).takeDeferred
  else if s.unparkReady then (s.startService fun r => s.rstate r == 3 || s.rstate r == 4).takeDeferred
  else s

/-- REC_STATUS without its counts towards REC_POLICY. -/
def State.quiet (s : State) (f : Nat) : State := s.setO (Obj.REC_STATUS f) (setBits (s.o (Obj.REC_STATUS f)) 7 0 0)

/-! ### Restart of the supervisor (R208, R252, R463, R529) -/

/-- The supervisor restarts from ROM: 1 uncorrectable trap, 2 other trap, 3 watchdog, 4 command; the firmware RAM is loaded again,
and its rest zeroed (R386, R529). -/
def State.supvRestart (s : State) (cause addr : Nat) : State :=
  let lose (t : List AliveEntry) : List AliveEntry := t.map fun e => { e with kept := none }
  let s := (s.bump Obj.RST_SUPV).setO Obj.RST_SUPV_CAUSE cause
  let c := { s.cufel with sessions := [], transfers := [], tlm := none, down := true,
                          aliveNorth := lose s.cufel.aliveNorth, aliveCan := lose s.cufel.aliveCan }
  let m := { s.memUnit with fwRam := [], fwLoads := s.memUnit.fwLoads + 1 }
  let s := ({ s with cufel := c, memUnit := m }).poolReclaim.dropSupStreams
  let s := if cause = 4 then s else (s.stage 0x0203 0 0 (bytesLE 1 cause ++ bytesLE 4 addr)).ariseOnce 13
  s.settle

/-- SUPERVISOR_TRAP: ue names the uncorrectable word, true for the firmware RAM (R385, R386). -/
def State.supvTrap (s : State) (ue : Option (Bool × Nat)) : State :=
  match ue with
  | some (true, a) => (((s.bump Obj.SPM_FW_UE).stage 0x0305 0 4 (bytesLE 1 1 ++ bytesLE 4 a)).ariseOnce 6).supvRestart 1 a
  | some (false, a) => (s.noteWord 4 a [.word (BitVec.ofNat 23 a) .double 0]).supvRestart 1 a
  | none => s.supvRestart 2 0

/-- The ladder takes the steps that waited for the supervisor, in the order of their faults; a reset that one of them brings
takes the rest. -/
def State.takeFaults (s : State) : State :=
  let l := s.power.faults
  let resets := s.o Obj.RST_COUNT
  l.foldl (fun t e => if t.o Obj.RST_COUNT = resets then t.ladderStep e.1 e.2 else t)
    { s with power := { s.power with faults := [] } }

/-- SUPV_RESTART_DONE: the supervisor's tasks go on: a slice swap that was due (R442), the ladder steps that waited, and the NVM
writes that follow a boot (R40). -/
def State.supvDone (s : State) : State :=
  let s := ({ s with cufel := { s.cufel with down := false } }).settle
  let s := if s.hk.entry.isNone then s.hkSwap else s
  s.takeFaults.takeDeferred.afterPark.bootWrites

/-- A restart that a command asked for follows its response. -/
def State.restartAfter (s : State) : State :=
  if s.cufel.after = some .restart then ({ s with cufel := { s.cufel with after := none } }).supvRestart 4 0 else s

/-! ### The commands -/

/-- DATA_READY. -/
def execDataReady (us : BitVec 32) (s : State) : Host.Outcome State Fault Refusal := .next (s.ifAwake (s.dataReadyTick us.toNat))

/-- PARK_COMPLETE. -/
def execParkComplete (s : State) : Host.Outcome State Fault Refusal := .next (s.ifAwake s.parkComplete.afterPark)

/-- PARK_TIMEOUT. -/
def execParkTimeout (s : State) : Host.Outcome State Fault Refusal := .next (s.ifAwake s.parkTimeout.afterPark)

/-- REINIT. -/
def execReinit (q : Req) (func : BitVec 8) (key : BitVec 16) (arg : BitVec 32) (s : State) : Host.Outcome State Fault Refusal :=
  .next (s.ifRequest q (s.functionCmd q func.toNat 0x01 key.toNat arg.toNat (decide (func.toNat ≤ 9)) false true
    (fun t => t.reinitCheck func.toNat) fun t => (t.reinit func.toNat none, 0)))

/-- REC_CLEAR: CMD 0x02 of a function; a CMD that R535 gives the FUNC no command for is refused. -/
def execRecClear (q : Req) (func cmd : BitVec 8) (key : BitVec 16) (arg : BitVec 32) (s : State) : Host.Outcome State Fault Refusal :=
  .next (s.ifRequest q (s.functionCmd q func.toNat cmd.toNat key.toNat arg.toNat false false true
    (fun _ => if func.toNat ≤ 9 ∧ cmd = 2 then .ok else .outOfRange) fun t => (t.setO (Obj.REC_STATUS func.toNat) 0, 0)))

/-- SUPV_RESTART_CMD. -/
def execSupvRestartCmd (q : Req) (key : BitVec 16) (arg : BitVec 32) (inTime : Bool) (s : State) : Host.Outcome State Fault Refusal :=
  .next (s.ifRequest q ((s.functionCmd q 0x80 0x13 key.toNat arg.toNat true true inTime (fun _ => .ok) fun t => (t.actAfter .restart, 0)).restartAfter))

/-- SUPERVISOR_TRAP. -/
def execSupervisorTrap (ue : Option (Bool × BitVec 23)) (s : State) : Host.Outcome State Fault Refusal :=
  .next (s.ifAwake (s.supvTrap (ue.map fun e => (e.1, e.2.toNat))))

/-- WATCHDOG_EXPIRE. -/
def execWatchdogExpire (s : State) : Host.Outcome State Fault Refusal := .next (s.ifAwake (s.supvRestart 3 0))

/-- SUPV_RESTART_DONE. -/
def execSupvRestartDone (s : State) : Host.Outcome State Fault Refusal := .next (s.ifAwake s.supvDone)

/-- FUNCTION_FAULT: c is the channel of a FRONTEND fault, and modulo 8 the port of a SOUTHLINK fault. -/
def execFunctionFault (f : Fin 10) (c : Ch) (s : State) : Host.Outcome State Fault Refusal := .next (s.ifAwake (s.functionFault f c))

/-- REC_QUIET_EXPIRE. -/
def execRecQuietExpire (f : Fin 10) (s : State) : Host.Outcome State Fault Refusal := .next (s.ifAwake (s.quiet f))

/-- LADDER_WINDOW_EXPIRE. -/
def execLadderWindowExpire (s : State) : Host.Outcome State Fault Refusal := .next (s.ifAwake (s.setO Obj.RST_LADDER 0))

end Sys2Proof.Machine
end

