-- ==== Sys2Proof/Machine/Freeze.lean ====
section
/-! DEFINITION. Thaw, the TAP and the cast chain (R303, R559 to R570). -/
namespace Sys2Proof.Machine

/-! ### Thaw (R570) -/

/-- Step 2: open slices and hits in progress are discarded. -/
def State.thawData (s : State) : State :=
  let open_ := (s.asm.opened.filter fun o => decide (o.kind = .slice)).length
  let hits := (allCh.filter fun c => match (s.chan c).hit with | some h => !h.saturated | none => false)
  let s := (s.setO Obj.FRZ_OPEN_LOST (clip 255 open_)).discardOpen.bumpBy Obj.TDC_HOLDLOST hits.length
  let s := s.mapChans fun _ x => { x with hit := none }
  allCh.foldl State.afterHit s

/-- Step 3: every receiving lane that is not in L2 passes through WAIT, and every link returns through CAPS with RES = 1. -/
def State.thawLanes (s : State) : State :=
  let rx := (List.range 25).filter fun i => isRx i && s.o (Obj.LN_PSTATE i) != 2
  let s := rx.foldl (fun t i => t.laneFall i 1) s
  let s := (List.range 8).foldl (fun t k => if t.o (Obj.RG_SSTATE k) = 0 then t else t.southDown k true) (s.northDown true)
  (rx.foldl State.tryScan s).follow

/-- Step 5: the conversion in progress begins again at its break, and a probe capture that is not complete is dropped. -/
def State.thawMeasure (s : State) : State :=
  let s := match s.hk.entry with
    | some m => s.hkAbandon.hkBegin m
    | none => s
  if 1 ≤ s.o Obj.PRB_STATE ∧ s.o Obj.PRB_STATE ≤ 3 then s.setO Obj.PRB_STATE 0 else s

/-- Step 6: a CAN port that takes part returns to LISTEN. -/
def State.thawCan (s : State) : State :=
  if 1 ≤ s.o Obj.CAN_STATE ∧ s.o Obj.CAN_STATE ≤ 5 then s.canListen else s

/-- Step 8: the capture of the freeze, and the log entry. -/
def State.thawLog (s : State) : State :=
  let l := s.capts ++ [{ src := 10, xc := s.frz.x, nt := s.frz.nt }]
  let s := { s.wrapBy 32 Obj.NT_CAPT_CNT 1 with capts := l.drop (l.length - 16) }
  s.stage 0x0701 1 0 (bytesLE 1 (s.o Obj.FRZ_SRC) ++ bytesLE 4 (s.o Obj.FRZ_LAST_DUR) ++ bytesLE 5 (s.o Obj.FRZ_LAST_X))

/-- The thaw, us after the freeze took hold. -/
def State.thaw (s : State) (us : Nat) : State :=
  let s := ((s.setO Obj.FRZ_LAST_X s.frz.x).setO Obj.FRZ_LAST_DUR us).setO Obj.FRZ_SRC s.frz.held
  let s : State := { s with frz := { s.frz with frozen := false, thawed := true }, time := { s.time with stepNext := true } }
  ((s.setO Obj.XC_STATE 0).thawData.thawLanes.thawMeasure.thawCan).thawLog.refreshFaultN

/-- A source is released; with the last one the device thaws. A freeze without refresh ends at a reset only. -/
def State.freeBy (s : State) (l : List FreezeSource) (us : Nat) : State :=
  if s.frz.frozen && s.frz.noref then s
  else
    let f := l.foldl (fun f x => f.hold false x) s.frz
    let t : State := { s with frz := f }
    if s.frz.frozen && !f.pin && !f.cufel && !f.tap then t.thaw us else t

/-! ### The boundary register and the test instructions (R303, R562, R564) -/

/-- What the instruction register loads at Capture-IR (R562). -/
def irCapture : Nat := 0b00000001

/-- What a TAP instruction shifts out. -/
def State.tdo (s : State) (ir len value : Nat) : State := s.emit (.tdo ir irCapture len value)

/-- A pair of lane or clock balls (R564). -/
inductive PairBall where
  | nTx (j : Fin 8) | nTck | nRx | ckin | sTx (k : Fin 8) | sCko (k : Fin 8) | sRx (k : Fin 8) | sRck (k : Fin 8)
  deriving DecidableEq, Repr

/-- A digital ball (R564). -/
inductive DigitalBall where
  | freeze | rstN | canRx | test | role (n : Fin 2) | addr (n : Fin 6) | faultN | pcycReqN | canTx
  deriving DecidableEq, Repr

/-- A cell of the boundary register: the input of a ball, data or enable of an output ball, the test receiver of a leg, and the
driver of a leg or the enable of an output pair; plus names the leg (R564). -/
inductive BoundaryCell where
  | input (b : DigitalBall) | data (b : DigitalBall) | enable (b : DigitalBall)
  | receiver (p : PairBall) (plus : Bool) | driver (p : PairBall) (plus : Bool) | pairEnable (p : PairBall)
  deriving DecidableEq, Repr

/-- The cells of an output pair: its two drivers, then its enable (R584). -/
def outPair (p : PairBall) : List BoundaryCell := [.driver p true, .driver p false, .pairEnable p]

/-- The cells of an input pair. -/
def inPair (p : PairBall) : List BoundaryCell := [.receiver p true, .receiver p false]

/-- The transmit cells of south port k. -/
def portOut (k : Fin 8) : List BoundaryCell := outPair (.sTx k) ++ outPair (.sCko k)

/-- The receive cells of south port k. -/
def portIn (k : Fin 8) : List BoundaryCell := inPair (.sRx k) ++ inPair (.sRck k)

/-- The boundary register by cell number, the cell nearest TDO first (R584). -/
def boundaryCells : List BoundaryCell :=
  [.input .freeze, .input .rstN, .data .faultN, .enable .faultN, .data .pcycReqN, .enable .pcycReqN, .data .canTx, .enable .canTx,
   .input .canRx, .input .test, .input (.role 0), .input (.role 1), .input (.addr 0), .input (.addr 1), .input (.addr 2),
   .input (.addr 3), .input (.addr 4), .input (.addr 5)]
  ++ portOut 6 ++ portOut 7 ++ inPair .nRx ++ inPair .ckin ++ portIn 6 ++ portIn 7
  ++ (List.finRange 8).flatMap (fun j => outPair (.nTx j)) ++ outPair .nTck
  ++ [0, 1, 2, 3, 4, 5].flatMap portOut ++ [0, 1, 2, 3, 4, 5].flatMap portIn

/-- What the state fixes of a cell at Capture-DR: the levels of FREEZE and RST_N, and for the output balls what their functions
drive: FAULT_N and PCYC_REQ_N are open-drain, CAN_TX is recessive between the port's frames; no other ball's level is state (R527, R539,
R551, R564; DEDUCED, log entry 181). -/
def State.cellHolds (s : State) : BoundaryCell → Option Bool
  | .input .freeze => some s.frz.ball
  | .input .rstN => some !s.power.rstN
  | .data .faultN => some !s.flag Obj.FLT_FAULTN
  | .enable .faultN => some (s.flag Obj.FLT_FAULTN)
  | .data .pcycReqN => some !s.ob Obj.RST_PCYC 0
  | .enable .pcycReqN => some (s.ob Obj.RST_PCYC 0)
  | .data .canTx => some true
  | .enable .canTx => some true
  | _ => none

/-- The boundary register at Capture-DR, with the levels that the balls gave where the state fixes none. -/
def State.captured (s : State) (pins : BitVec 129) : Nat :=
  boundaryCells.zipIdx.foldl (fun v e => match s.cellHolds e.1 with | some b => setBit v e.2 b | none => v) pins.toNat

/-- A cell that drives a ball. -/
def BoundaryCell.drives : BoundaryCell → Bool
  | .input _ | .receiver _ _ => false
  | .data _ | .enable _ | .driver _ _ | .pairEnable _ => true

/-- What the boundary register drives under a test instruction (R303, R564). -/
def drivenCells (b : BitVec 129) : Nat :=
  boundaryCells.zipIdx.foldl (fun v e => if e.1.drives then v else setBit v e.2 false) b.toNat

/-- An instruction is updated; any but a test instruction gives the pins back to the lanes, which exit L2 under R298. -/
def State.tapUpdate (s : State) (ir : Nat) (test : Bool) : State :=
  let was := s.pinTest
  let t : State := { s.setO Obj.FLT_TAP_LAST_IR ir with pinTest := test }
  if was = test ∨ s.frz.frozen = true then t else t.follow

/-- BYPASS: the one-bit register captures 0. -/
def State.bypass (s : State) (ir : Nat) : State := (s.tapUpdate ir false).tdo ir 1 0

/-- A TAP instruction of a powered device; a locked one acts as BYPASS and is counted (R562). -/
def State.tapDo (s : State) (ir : Nat) (locked : Bool) (act : State → State) : State :=
  if s.o Obj.PWR_STATE = 0 then s
  else if locked && s.flag Obj.FLT_TAP_LOCK then (s.bump Obj.FLT_TAP_REFUSED).bypass ir
  else act s

/-- A scan of the boundary register: what was captured goes out, and b comes in, which a test instruction drives at the output
balls. -/
def State.boundaryScan (s : State) (ir : Nat) (test : Bool) (pins b : BitVec 129) : State :=
  let t := (s.tapUpdate ir test).tdo ir 129 (s.captured pins)
  let t : State := { t with frz := { t.frz with boundary := b } }
  if test then t.emit (.pins (drivenCells b)) else t

/-! ### Status and the cast chain (R565 to R569) -/

/-- STATUS (R565). -/
def State.tapStatus (s : State) : Nat :=
  s.o Obj.RST_CAUSE * 2 ^ 8 + b2n s.frz.castUe * 2 ^ 7 + b2n (s.frz.frozen && s.frz.noref) * 2 ^ 6 + b2n s.frz.tap * 2 ^ 5
    + b2n s.frz.cufel * 2 ^ 4 + b2n s.frz.pin * 2 ^ 3 + b2n (s.flag Obj.FLT_FAULTN) * 2 ^ 2 + b2n (s.ob Obj.RST_PCYC 0) * 2
    + b2n s.frz.frozen

/-- FRZ_CAST_LEN. -/
def castLen : Nat := 1130560

/-- The bit at a place of the chain: the header, then what the freeze holds (R567). -/
def castBit (number p : Nat) : Bool := if p < 64 then bit 0xCA57111000114040 p else Config.castBit number p

/-- n bits from place p on. -/
def castBits (number p n : Nat) : List Bool := (List.range n).map fun i => castBit number ((p + i) % castLen)

/-- Bits as a number, the first one as bit 0. -/
def bitsNat : List Bool → Nat
  | [] => 0
  | b :: r => b2n b + 2 * bitsNat r

/-- The check unit's CRC over whole bytes of a bit string, before the final XOR (R568). -/
def castCrc (l : List Bool) : Nat :=
  crcFeed 0xFFFFFFFF ((List.range (l.length / 8)).map fun i => BitVec.ofNat 8 (bitsNat ((l.drop (8 * i)).take 8)))

/-- CAST: one Capture-DR and n shifts. -/
def State.cast (s : State) (n : Nat) : State :=
  if !s.frz.frozen then s.bypass 0x12
  else
    let l := castBits s.frz.number s.frz.pos n
    let rounds := n / castLen
    let s := (s.tapUpdate 0x12 false).tdo 0x12 n (bitsNat l)
    let s := if rounds = 0 then s
      else (s.bumpBy Obj.FRZ_CAST_CIRCS rounds).setO Obj.FRZ_CAST_CRC (castCrc (l.take (rounds * castLen)) ^^^ 0xFFFFFFFF)
    let s := s.setO (Obj.CHK_RUN 38) (castCrc l)
    { s with frz := { s.frz with pos := (s.frz.pos + n) % castLen, bits := n % 2 ^ 32, crc := castCrc l } }

/-- CAST_CRC. -/
def State.castCrcOut (s : State) : State :=
  (s.tapUpdate 0x13 false).tdo 0x13 64 ((s.frz.crc ^^^ 0xFFFFFFFF) * 2 ^ 32 + s.frz.bits)

/-- A scratchpad word whose content the spec leaves open: what units have written of the query staging, the compression contexts
and the event queue, whose layouts it does not give, the supervisor's mailboxes, and what lies beyond the scratchpad (R41, R250,
R372; log entry 15). -/
def State.castOpen (s : State) (a : Nat) : Bool := decide (0x5F0000 ≤ a) || s.openWord a

/-- A 64-bit word that CAST_MEM reads: its value, and true when it is uncorrectable. An open content, and the firmware's own, is
what the freeze holds; a word of the firmware RAM that has gone bad reads as it is (R385, R386; log entries 3 and 15). -/
def State.castWord (s : State) (fw : Bool) (addr : Nat) (u : List Upset) : Nat × Bool :=
  let a := 8 * addr
  let v := if fw || s.castOpen a then (Config.castWord s.frz.number fw s.memUnit.fwLoads addr).toNat else memWord s.spm a 8
  let bad := if fw then memWord s.memUnit.fwRam a 8 else 0
  (v ^^^ bad ^^^ wordErrBits u a, bad != 0 || wordError u a == some true)

/-- The counters of a word read by CAST_MEM (R378, R385, R569). -/
def State.castNote (s : State) (fw : Bool) (addr : Nat) (u : List Upset) (ue : Bool) : State :=
  match (if ue then some true else wordError u (8 * addr)), fw with
  | some true, false => (s.bump Obj.SPM_UE).setO Obj.SPM_UE_ADDR (8 * addr)
  | some true, true => s.bump Obj.SPM_FW_UE
  | some false, false => s.fixWord (8 * addr) u
  | some false, true => s.bump Obj.SPM_FW_CORR
  | none, _ => s

/-- CAST_MEM: Capture-DR gives the result of the read before, and Update-DR reads the word asked for. -/
def State.castMem (s : State) (fw : Bool) (addr : Nat) (u : List Upset) : State :=
  let s := s.tapUpdate 0x14 false
  if !s.frz.frozen then s.tdo 0x14 86 0
  else
    let s := s.tdo 0x14 86 s.frz.memReg
    let w := s.castWord fw addr u
    let s := s.castNote fw addr u w.2
    { s with frz := { s.frz with memReg := b2n w.2 * 2 ^ 85 + b2n fw * 2 ^ 84 + addr * 2 ^ 64 + w.1, castUe := w.2 } }

/-- The code names no instruction of R562: BYPASS. -/
def otherIr (ir : Nat) : Bool := !([0, 1, 2, 3, 4, 8, 0x10, 0x11, 0x12, 0x13, 0x14] : List Nat).contains ir

/-- The TAP's reset: Test-Logic-Reset selects IDCODE; a freeze that it asked for stays (R525, R559). -/
def State.tapReset (s : State) : State :=
  let t := s.tapUpdate 0x02 false
  { t with frz := { t.frz with memReg := 0, castUe := false, bits := 0, crc := 0xFFFFFFFF, boundary := 0 } }

/-! ### The commands -/

/-- FREEZE_PIN_RISE: at once, but while the device is held in reset not before INTOSC reports ready (R559, R598). -/
def execFreezePinRise (s : State) : Host.Outcome State Fault Refusal :=
  .next (if s.o Obj.CLK_STATE = 0 then s.ballAt true else (s.ballAt true).freezeBall)

/-- FREEZE_PIN_FALL: us after the freeze took hold. -/
def execFreezePinFall (us : BitVec 32) (s : State) : Host.Outcome State Fault Refusal :=
  .next ((s.ballAt false).freeBy [.pin] us.toNat)

/-- FRZ_CTRL_FREEZE. -/
def execFrzCtrlFreeze (q : Req) (v : BitVec 8) (s : State) : Host.Outcome State Fault Refusal :=
  .next (s.ifRequest q (s.hostWrite q Obj.FRZ_CTRL true (onlyOne v.toNat) (s.actAfter .freeze)))

/-- FREEZE_TAKE_HOLD. -/
def execFreezeTakeHold (s : State) : Host.Outcome State Fault Refusal :=
  .next (s.ifAwake (if s.cufel.after = some .freeze then ({ s with cufel := { s.cufel with after := none } }).freezeBy .cufel else s))

/-- TAP_EXTEST. -/
def execTapExtest (pins b : BitVec 129) (s : State) : Host.Outcome State Fault Refusal :=
  .next (s.tapDo 0x00 true fun t => t.boundaryScan 0x00 true pins b)

/-- TAP_SAMPLE_PRELOAD. -/
def execTapSamplePreload (pins b : BitVec 129) (s : State) : Host.Outcome State Fault Refusal :=
  .next (s.tapDo 0x01 false fun t => t.boundaryScan 0x01 false pins b)

/-- TAP_IDCODE (R563). -/
def execTapIdcode (s : State) : Host.Outcome State Fault Refusal :=
  .next (s.tapDo 0x02 false fun t => (t.tapUpdate 0x02 false).tdo 0x02 32 0x15128D93)

/-- TAP_EXTEST_PULSE. -/
def execTapExtestPulse (pins b : BitVec 129) (s : State) : Host.Outcome State Fault Refusal :=
  .next (s.tapDo 0x03 true fun t => t.boundaryScan 0x03 true pins b)

/-- TAP_EXTEST_TRAIN. -/
def execTapExtestTrain (pins b : BitVec 129) (s : State) : Host.Outcome State Fault Refusal :=
  .next (s.tapDo 0x04 true fun t => t.boundaryScan 0x04 true pins b)

/-- TAP_STATUS. -/
def execTapStatus (s : State) : Host.Outcome State Fault Refusal :=
  .next (s.tapDo 0x08 false fun t => (t.tapUpdate 0x08 false).tdo 0x08 32 t.tapStatus)

/-- TAP_FREEZE_I. -/
def execTapFreezeI (s : State) : Host.Outcome State Fault Refusal :=
  .next (s.tapDo 0x10 true fun t => (t.bypass 0x10).freezeBy .tap)

/-- TAP_THAW. -/
def execTapThaw (us : BitVec 32) (s : State) : Host.Outcome State Fault Refusal :=
  .next (s.tapDo 0x11 false fun t => (t.bypass 0x11).freeBy [.tap, .cufel] us.toNat)

/-- TAP_CAST. -/
def execTapCast (shifts : BitVec 32) (s : State) : Host.Outcome State Fault Refusal :=
  .next (s.tapDo 0x12 false fun t => t.cast shifts.toNat)

/-- TAP_CAST_CRC. -/
def execTapCastCrc (s : State) : Host.Outcome State Fault Refusal := .next (s.tapDo 0x13 false State.castCrcOut)

/-- TAP_CAST_MEM. -/
def execTapCastMem (fw : Bool) (addr : BitVec 20) (u : List Upset) (s : State) : Host.Outcome State Fault Refusal :=
  .next (s.tapDo 0x14 false fun t => t.castMem fw addr.toNat u)

/-- TAP_BYPASS: a code with an instruction of its own is that instruction's row. -/
def execTapBypass (ir : BitVec 8) (s : State) : Host.Outcome State Fault Refusal :=
  .next (s.tapDo ir.toNat false fun t => if otherIr ir.toNat then t.bypass ir.toNat else t)

/-- TRST_N_ASSERT. -/
def execTrstNAssert (s : State) : Host.Outcome State Fault Refusal :=
  .next (if s.o Obj.PWR_STATE = 0 then s else s.tapReset)

end Sys2Proof.Machine
end

