-- ==== Sys2Proof/Machine/Upset.lean ====
section
/-! DEFINITION. Upsets in protected storage and the comparison of the voted configuration (R545, R546). -/
namespace Sys2Proof.Machine

/-! ### Configuration registers -/

/-- A value that takes effect in hardware and in the supervisor's copy at once (R546). -/
def State.putValue (s : State) (k v : Nat) : State :=
  let s : State := { s with differs := s.differs.filter fun e => e.key != k }
  s.liveEffect k v

/-- A value that the hardware holds, whatever the supervisor's copy says. -/
def State.forceValue (s : State) (k v : Nat) : State :=
  match family 0x4010 25 0x14 k with
  | some i => s.laneTest i v
  | none => if k = Obj.CLK_GATE_REQ then s.setO k v else s.liveEffect k v

/-- Two copies of a register hold a wrong value, and the vote with them. -/
def State.upsetTwo (s : State) (k v : Nat) : State :=
  let v := storedValue k v
  let right := ((s.differs.find? fun e => e.key == k).map (·.right)).getD (s.o k)
  let s : State := { s with differs := (s.differs.filter fun e => e.key != k) ++ [{ key := k, right := right }] }
  s.forceValue k v

/-- A configuration register is struck: every RW object has three voted copies. -/
def State.upsetRegister (s : State) (k : Nat) (two : Option Nat) : State :=
  match objDesc k with
  | some d =>
    if d.acc ≠ .rw ∨ d.type = .domain then s
    else match two with
      | none => s.bump Obj.FLT_TMR_CORR
      | some v => if storedValue k (v % 2 ^ d.type.width) = s.o k then s else s.upsetTwo k (v % 2 ^ d.type.width)
  | none => s

/-- A difference is found: all copies are rewritten, and it is counted and logged; the register group is the object's
index (log entry 64). -/
def State.restoreRegister (s : State) (e : Differs) : State :=
  if s.o e.key ≠ e.right then
    let s := (s.forceValue e.key e.right).bump Obj.FLT_TMR_DOUBLE
    (s.stage 0x0602 0 0 (bytesLE 2 (e.key / 256))).ariseOnce 14
  else s

/-- TMR_COMPARE. -/
def State.tmrCompare (s : State) : State := s.differs.foldl State.restoreRegister { s with differs := [] }

/-! ### The other storage -/

/-- An entry of a LUT is struck (R545). -/
def State.upsetLut (s : State) (c : Ch) (walk : Bool) (p : Nat) : State :=
  if (walk && decide (80 ≤ p)) || s.lutBad c walk p then s
  else { s with lutFix := s.lutFix ++ [{ ch := c, walk := walk, p := p }] }

/-- An entry of a list has its parity spoilt. -/
def spoil (l : List Entry) (n : Nat) : List Entry := l.modify n fun e => { e with bad := true }

/-- The query of a slot runs again from INDEX; one that waits goes on waiting (R194, R545). -/
def State.upsetQuery (s : State) (n : Fin 4) : State :=
  match s.slotEntry n with
  | some e =>
    if e.st = .waiting then s.bump Obj.FLT_PARITY
    else
      let t := (s.bump Obj.FLT_PARITY).freeSlotWork n
      (t.mapSlot n fun x => { x.fresh with slot := some n }).indexQuery n []
  | none => s

/-- STORAGE_UPSET. -/
def State.upset (s : State) (u : Struck) : State :=
  match u with
  | .register idx sub two => s.upsetRegister (objKey idx.toNat sub.toNat) (two.map BitVec.toNat)
  | .lut c walk p => s.upsetLut c walk p
  | .chain c n => s.setChan c { s.chan c with chain := spoil (s.chan c).chain n }
  | .fifo g n => s.setGroup g { s.group g with fifo := spoil (s.group g).fifo n.toNat }
  | .query n => s.upsetQuery n
  | .control => s.bump Obj.FLT_TMR_CORR
  | .corrected => s

/-! ### The commands -/

/-- TMR_COMPARE, a task of the supervisor (R40, R546). -/
def execTmrCompare (s : State) : Host.Outcome State Fault Refusal := .next (s.ifTask s.tmrCompare)

/-- STORAGE_UPSET. -/
def execStorageUpset (u : Struck) (s : State) : Host.Outcome State Fault Refusal := .next (s.ifAwake (s.upset u))

end Sys2Proof.Machine
end

