-- ==== Sys2Proof/Machine/Crossing.lean ====
section
/-! DEFINITION. The tick (R408), what a turn marker brings (R36, R106, R409, R492), alarms (R421) and telemetry (R472). -/
namespace Sys2Proof.Machine

/-! ### Telemetry (R472) -/

/-- The objects that the telemetry list names, with their descriptions. -/
def State.tlmObjects (s : State) : List (Nat × ObjDesc) :=
  (List.range 32).filterMap fun i =>
    let k := s.o (Obj.CF_TLM_LIST i)
    if k = 0 then none else (objDesc k).map fun d => (k, d)

/-- The entries are read in list order, RC objects clearing as in any access; HK_RESULT stays unread, as no host has read it
(R450). -/
def State.tlmRead (s : State) : List (Nat × ObjDesc) → State × List (List Byte)
  | [] => (s, [])
  | (k, d) :: r =>
    let x := if k = Obj.HK_RESULT then (s, s.readBytes k d) else s.access k d
    let y := x.1.tlmRead r
    (y.1, (keyBytes k ++ bytesLE 1 d.type.tcode ++ x.2) :: y.2)

/-- Entries packed into parts of at most 468 bytes, none across two parts. -/
def packParts : List Byte → List (List Byte) → List (List Byte)
  | cur, [] => if cur.isEmpty then [] else [cur]
  | cur, e :: r => if cur.length + e.length ≤ 468 then packParts (cur ++ e) r else cur :: packParts e r

/-- A publication: its parts go to the EVENT queue, the last one marked; CODE is the count of publications. -/
def State.tlmPublish (s : State) : State :=
  match s.cufel.tlm with
  | none => s
  | some (x, nt) =>
    if !s.serverUp then s
    else
      let r := s.tlmRead s.tlmObjects
      let t := r.1.wrapBy 32 Obj.CF_TLM_PUBS 1
      let t : State := { t with cufel := { t.cufel with tlm := none } }
      let parts := packParts [] r.2
      parts.zipIdx.foldl (fun t p =>
        t.event 2 (t.o Obj.CF_TLM_PUBS % 2 ^ 16) x nt 0 (p.2 + 128 * b2n (p.2 + 1 == parts.length)) p.1) t

/-! ### Alarms (R421) -/

/-- The telemetry publication of an alarm starts, or is late behind the one that still runs. -/
def State.tlmStart (s : State) : State :=
  if s.cufel.tlm.isSome then s.bump Obj.CF_TLM_LATE
  else { s with cufel := { s.cufel with tlm := some (s.xc, s.ntNs) } }

/-- Alarm k fires when it is due: its record, then its actions. -/
def State.alarmFire (s : State) (k : Nat) : State :=
  if s.alarmDue k then
    let act := s.o (Obj.NT_AL_ACTION k)
    let s := s.alarmAdvance k
    let s := if bit act 0 then s.hkStart else s
    let s := if bit act 1 then s.tlmStart else s
    if bit act 2 then s.stage 0x0107 1 k (bytesLE 4 (s.o (Obj.NT_AL_FIRED k))) else s
  else s

/-- ALARM_FIRE: alarms that fire at one tick act in ascending k (R421). -/
def State.alarmsTo (s : State) (k : Nat) : State := (List.range (k + 1)).foldl State.alarmFire s

/-! ### The turn marker (R36, R106, R409, R492) -/

/-- The tick is a turn marker, judged by its new number where a RESYNC applies at it. -/
def State.isTurn (s : State) : Bool := s.tickNumber % s.o Obj.XC_TURN_LEN == 0

/-- The captured SHADOW values whose marker this is take effect together. -/
def State.shadowValues (s : State) : State :=
  let due := s.applied.filter fun e => decide (e.1 ≤ s.tick)
  let s : State := { s with applied := s.applied.filter fun e => decide (s.tick < e.1) }
  due.foldl (fun t e => e.2.foldl (fun t x => t.putValue x.1 x.2) t) s

/-- The slice of the crossing that the marker starts has the slice cap now in force (R36, R37, R132). -/
def State.capNow (s : State) : State := s.mapSlice s.tick fun o => { o with cap := s.o Obj.ASM_CAP }

/-- What a turn marker brings: the SHADOW values of an APPLY, then the LUTs that are ready. -/
def State.markerEffects (s : State) : State :=
  let s : State := { s.shadowValues.capNow with lutFix := [] }
  s.lutSwaps.floorUpdate

/-- TURN_MARKER: a tick is judged once, and a turn marker brings its effects. -/
def State.turnMarker (s : State) : State :=
  if s.clk.started && s.clk.marker != some s.tick then
    let t : State := { s with clk := { s.clk with marker := some s.tick } }
    if s.isTurn then t.markerEffects else t
  else s

/-! ### What is due at the tick in progress -/

/-- The commands of this tick that still wait take effect in order of receipt (R336), the alignment form last. -/
def State.runDue : Nat → State → State
  | 0, s => s.resyncApply
  | n + 1, s =>
    match s.due with
    | [] => s.resyncApply
    | c :: _ => State.runDue n (if c.code = 1 then s.tpulseFire else if c.code = 2 then s.turnCheck else s.resyncApply)

/-- The last three steps of R36 at a tick: the SHADOW values and LUT swaps of a turn marker, then the commands of the tick. In
Hold its commands are discarded (R336, R411). -/
def State.syncEffects (s : State) : State :=
  let s := s.turnMarker
  if s.o Obj.PWR_STATE = 4 then s.cmdHoldTick else State.runDue s.due.length s

/-- What the tick in progress brings and no command has run yet happens before the next tick: an accepted time message, the
steps of R36 and the alarms (R36, R336, R409, R417, R421; log entry 161). -/
def State.finishTick (s : State) : State :=
  if s.clk.started then s.servoAll.syncEffects.alarmsTo 7 else s

/-! ### The tick -/

/-- The crossing that the tick starts: 0 at the first tick after INTOSC became ready, else the next one, with the wrap
handled as a RESYNC to 0 (R408, R414). -/
def State.countTick (s : State) : State :=
  let s : State := { s with tick := s.tick + 1 }
  if !s.clk.started then { s.setO Obj.XC_COUNT 0 with clk := { s.clk with started := true } }
  else if s.xc + 1 < 2 ^ 48 then s.setO Obj.XC_COUNT (s.xc + 1)
  else
    let s := (s.setO Obj.XC_COUNT 0).bump Obj.XC_WRAPS
    ((s.lbResync 0).queryResync (2 ^ 48)).setO Obj.XC_STATE 0

/-- The capture of a wrap, once network time stands at the tick (R408, R422). -/
def State.wrapCapture (s : State) (wraps : Bool) : State := if wraps then s.capture 4 else s

/-- An object of class HALT. -/
def isHalt (k : Nat) : Bool := (objDesc k).any fun d => decide (d.cls = .halt)

/-- LIVE and accepted HALT writes take effect in the order of their execution, the HALT values first, since a function that
starts at the tick starts with the new value (R36, R491, R493). -/
def State.liveWrites (s : State) : State :=
  let l := (s.livePend.filter fun e => isHalt e.1) ++ s.livePend.filter fun e => !isHalt e.1
  l.foldl (fun t e => t.putValue e.1 e.2) { s with livePend := [] }

/-- CF_UPTIME counts seconds by the nominal crossing clock, and FLT_LIFE_HOURS powered hours (R558; log entry 8). -/
def State.uptimeTick (s : State) : State :=
  let n := s.power.second + 1
  if s.o Obj.CLK_FX_NOM ≤ n then { (s.bump Obj.CF_UPTIME).hourTick with power := { s.power with second := 0 } }
  else { s with power := { s.power with second := n } }

/-- The first tick after a thaw shows its crossing (R570). -/
def State.thawTick (s : State) : State :=
  if s.frz.thawed then { s.setO Obj.FRZ_RESUME_X s.xc with frz := { s.frz with thawed := false } } else s

/-- Nodes that work has reached leave their gates (R407). -/
def State.workUngates (s : State) : State :=
  if s.o Obj.CLK_GATE_REQ = 0 then s else s.setO Obj.CLK_GATE_REQ s.gateReq

/-- What the tick does before its settings take effect: the word of the crossing that it ends (R144), the count, the end
of a Hold, and network time. -/
def State.tickStart (s : State) (tpSent : Bool) : State :=
  let wraps := s.clk.started && decide (2 ^ 48 ≤ s.xc + 1)
  let s := (s.tpForm s.xc tpSent).countTick
  let s := s.resumeService.takeDeferred
  (s.ntAdvance.wrapCapture wraps).thawTick

/-- What the tick does with its settings in force. -/
def State.tickEnd (s : State) : State :=
  let s := s.creditAdd.openCrossing.floorUpdate
  s.uptimeTick.tlmPublish.canFlush.refreshTurn.workUngates.watchTick

/-- CROSSING_TICK: what the tick in progress still brings comes first, and the slices due close (R32); the settings, the LUTs
and the commands of the new crossing are in force from its tick on, in the order of R36; u gives the errors of
an index-pair read (R376), tpSent that the word leaves at once (R339). -/
def State.crossingTick (s : State) (u : List Upset) (tpSent : Bool) : State :=
  if s.o Obj.CLK_STATE = 0 ∨ s.o Obj.CLK_STATE = 5 then s
  else (((s.finishTick.closeDue u).tickStart tpSent).reinitTick.parkTick.liveWrites.syncEffects).tickEnd

/-! ### The commands -/

/-- CROSSING_TICK. -/
def execCrossingTick (u : List Upset) (tpSent : Bool) (s : State) : Host.Outcome State Fault Refusal := .next (s.ifAwake (s.crossingTick u tpSent))

/-- TURN_MARKER. -/
def execTurnMarker (s : State) : Host.Outcome State Fault Refusal := .next (s.ifAwake s.turnMarker)

/-- ALARM_FIRE. -/
def execAlarmFire (k : Fin 8) (s : State) : Host.Outcome State Fault Refusal := .next (s.ifAwake (s.alarmsTo k))

end Sys2Proof.Machine
end

