-- ==== Sys2Proof/Machine/Receive.lean ====
section
/-! DEFINITION. One received 66-bit block: header and BTYPE (R284, R310), the checks of R311, messages and frames in
progress (R311, R323, R324), block lock and its loss (R289, R290), and the PRBS checker (R302). -/
namespace Sys2Proof.Machine

/-- The BTYPEs that Ragil uses (R310). -/
def knownTypes : List Nat := [0x0F, 0xF0, 0x33, 0xCC, 0x55, 0xAA, 0x3C, 0xC3, 0x5A, 0xA5, 0x66, 0x99, 0x69]

/-- The block types received on N_RX, and on S_RX (R310, R321). -/
def typeReceived (south : Bool) (t : Nat) : Bool :=
  if south then ([0x0F, 0xF0, 0x33, 0xCC, 0x55, 0xAA, 0x3C, 0xC3, 0x69] : List Nat).contains t
  else ([0x0F, 0x33, 0xCC, 0x55, 0xAA, 0x3C, 0xC3, 0x5A, 0xA5, 0x66] : List Nat).contains t

/-- The control blocks that a frame admits between its SOF and its EOF (R323). -/
def inFrame (south : Bool) (t : Nat) : Bool := ([0x0F, 0x69, 0xCC, 0x3C, 0xC3] : List Nat).contains t || (south && t == 0xF0)

/-- The parts of the message that a first block starts (R310, R335). -/
def messageParts (t content : Nat) : Nat :=
  if t = 0x5A then 2 else if t = 0x66 then 3 else if t = 0xA5 ∧ bits content 55 48 = 3 then 2 else 1

/-- A block counted in RG_BLK_ERR. -/
def State.blockError (s : State) : State := s.bump Obj.RG_BLK_ERR

/-- The message in progress of a link's receiver. -/
def State.setMsg (s : State) (l : LinkId) (m : Option (Nat × List Nat)) : State := s.setRx l { s.rx l with msg := m }

/-- The frame in progress of a link's receiver. -/
def State.setFrame (s : State) (l : LinkId) (f : Option RxFrame) : State := s.setRx l { s.rx l with frame := f }

/-- Orders 1 and 2: an open frame is aborted and a message in progress discarded. -/
def State.dropOpen (s : State) (l : LinkId) : State := s.setRx l { s.rx l with msg := none, frame := none }

/-- A data block: part of the open frame, or outside any (order 5). -/
def State.dataBlock (s : State) (l : LinkId) (w : Nat) : State :=
  match (s.rx l).frame with
  | some f => s.setFrame l (some { f with data := f.data ++ [w] })
  | none => s.blockError

/-- A leaf's row with a map other than its one lane takes the south link down (R321). -/
def State.leafRow (s : State) (k content : Nat) : State :=
  if bits content 47 40 = 1 ∨ s.o (Obj.RG_SSTATE k) = 0 then s else (s.southDown k true).follow

/-- A control block with a valid BTYPE, no message being in progress (orders 6 and 7): one that a frame does not take
aborts it. SOF opens a frame and EOF ends it; a first part opens a message; what a complete message or frame does is the
step of its own row (log entry 65). -/
def State.controlBlock (s : State) (i : Nat) (t content : Nat) : State :=
  let l := laneLink i
  let south := i != 8
  let s := if inFrame south t then s else s.setFrame l none
  if !typeReceived south t then s.blockError
  else if t = 0x55 then s.setFrame l (some { sof := content, data := [] })
  else if t = 0xF0 then s.leafRow (i - 9) content
  else if 1 < messageParts t content then s.setMsg l (some (t, [content]))
  else s

/-- A CONT: the next part of the message in progress, or out of place (order 3). -/
def State.contBlock (s : State) (l : LinkId) (content : Nat) : State :=
  match (s.rx l).msg with
  | some (t, ps) =>
    if ps.length + 1 < messageParts t (ps.headD 0) then s.setMsg l (some (t, ps ++ [content])) else s.setMsg l none
  | none => (s.setFrame l none).blockError

/-- A message in progress that the block interrupts (order 4). -/
def State.interrupt (s : State) (l : LinkId) : State :=
  match (s.rx l).msg with
  | some _ => (s.setMsg l none).blockError
  | none => s

/-- A block of a lane in LOCKED through the checks of R311. -/
def State.judgeBlock (s : State) (i h w : Nat) : State :=
  let l := laneLink i
  if h = 1 then (s.interrupt l).dataBlock l w
  else if h = 2 then
    let t := bits w 7 0
    let c := bits w 63 8
    if !knownTypes.contains t then (s.dropOpen l).blockError
    else if t = 0x99 then s.contBlock l c
    else (s.interrupt l).controlBlock i t c
  else s.dropOpen l

/-- RAGIL_BLOCK_RECEIVE: sync header and payload of a block of receiving lane i, as they come on the line. -/
def State.blockReceive (s : State) (i head pay : Nat) : State :=
  if !isRx i || s.pstate i != 0 then s
  else
    let (h, raw) := s.lineIn i head pay
    let (s, w) := if s.astate i = 6 then (s, raw) else s.descramble i raw
    let valid := h == 1 || h == 2
    match s.astate i with
    | 3 => s.huntHeader i valid
    | 4 =>
      let s := (s.lockedHeader i valid).judgeBlock i h w
      if s.astate i = 4 ∧ s.windowBad i = true then s.alignLoss i else s
    | 6 => s.prbsBits i h w
    | _ => s

/-- RAGIL_BLOCK_RECEIVE. -/
def execRagilBlockReceive (i : Lane) (header : BitVec 2) (payload : BitVec 64) (s : State) : Host.Outcome State Fault Refusal :=
  .next (s.ifAwake (s.blockReceive i header.toNat payload.toNat))

end Sys2Proof.Machine
end

