-- ==== Sys2Proof/Machine/Dispatch.lean ====
section
/-! DEFINITION. One arm per command: each calls the command's meaning. -/
namespace Sys2Proof.Machine

/-- The effect of a command on everything but the queue. -/
def exec (i : Instr) (s : State) : Host.Outcome State Fault Refusal :=
  match i with
  | .crossingTick u tpSent => Sys2Proof.Machine.execCrossingTick u tpSent s
  | .turnMarker => Sys2Proof.Machine.execTurnMarker s
  | .timingRise ch k word rearmed => Sys2Proof.Machine.execTimingRise ch k word rearmed s
  | .timingFall ch k word => Sys2Proof.Machine.execTimingFall ch k word s
  | .energyRise ch k tap => Sys2Proof.Machine.execEnergyRise ch k tap s
  | .totSaturate ch => Sys2Proof.Machine.execTotSaturate ch s
  | .grpFifoWrite g => Sys2Proof.Machine.execGrpFifoWrite g s
  | .lossReportArrive => Sys2Proof.Machine.execLossReportArrive s
  | .feOverloadSet ch => Sys2Proof.Machine.execFeOverloadSet ch s
  | .feOverloadClear ch => Sys2Proof.Machine.execFeOverloadClear ch s
  | .channelRelease ch timing energy => Sys2Proof.Machine.execChannelRelease ch timing energy s
  | .cmdTpulse tgt => Sys2Proof.Machine.execCmdTpulse tgt s
  | .tpulseFire => Sys2Proof.Machine.execTpulseFire s
  | .prbArm q => Sys2Proof.Machine.execPrbArm q s
  | .prbAbort q => Sys2Proof.Machine.execPrbAbort q s
  | .prbFillDone k samples => Sys2Proof.Machine.execPrbFillDone k samples s
  | .prbTrigger k samples => Sys2Proof.Machine.execPrbTrigger k samples s
  | .prbPostDone samples => Sys2Proof.Machine.execPrbPostDone samples s
  | .prbCopyDone => Sys2Proof.Machine.execPrbCopyDone s
  | .calRandomEdge ch k word walkTap => Sys2Proof.Machine.execCalRandomEdge ch k word walkTap s
  | .calQuietExpire ch => Sys2Proof.Machine.execCalQuietExpire ch s
  | .calRunComplete ch => Sys2Proof.Machine.execCalRunComplete ch s
  | .lutComputeDone ch => Sys2Proof.Machine.execLutComputeDone ch s
  | .tdcCalRestart q => Sys2Proof.Machine.execTdcCalRestart q s
  | .tdcCalAbort q => Sys2Proof.Machine.execTdcCalAbort q s
  | .tdcLutWrite q ch lut => Sys2Proof.Machine.execTdcLutWrite q ch lut s
  | .tdcRmStart q => Sys2Proof.Machine.execTdcRmStart q s
  | .tdcRmStop q => Sys2Proof.Machine.execTdcRmStop q s
  | .rmGateEnd => Sys2Proof.Machine.execRmGateEnd s
  | .hitCollect cycles ready => Sys2Proof.Machine.execHitCollect cycles ready s
  | .sliceClose u => Sys2Proof.Machine.execSliceClose u s
  | .wcBurstDrain u => Sys2Proof.Machine.execWcBurstDrain u s
  | .asmStart q => Sys2Proof.Machine.execAsmStart q s
  | .asmStop q => Sys2Proof.Machine.execAsmStop q s
  | .spareMapped => Sys2Proof.Machine.execSpareMapped s
  | .migrationCopy u => Sys2Proof.Machine.execMigrationCopy u s
  | .layoutSwitch => Sys2Proof.Machine.execLayoutSwitch s
  | .queryReceive word => Sys2Proof.Machine.execQueryReceive word s
  | .queryStart u => Sys2Proof.Machine.execQueryStart u s
  | .queryWaitEnd u => Sys2Proof.Machine.execQueryWaitEnd u s
  | .sliceFetchDone slot u => Sys2Proof.Machine.execSliceFetchDone slot u s
  | .answerHandoff svc => Sys2Proof.Machine.execAnswerHandoff svc s
  | .poolAllocate agent acts => Sys2Proof.Machine.execPoolAllocate agent acts s
  | .hubPortEnWrite q v => Sys2Proof.Machine.execHubPortEnWrite q v s
  | .leafSubeventArrive k qid bytes bufferBad => Sys2Proof.Machine.execLeafSubeventArrive k qid bytes bufferBad s
  | .mergerTimeout => Sys2Proof.Machine.execMergerTimeout s
  | .leafTpArrive k xlow word late => Sys2Proof.Machine.execLeafTpArrive k xlow word late s
  | .clusterTpDeadline sent => Sys2Proof.Machine.execClusterTpDeadline sent s
  | .partDecision mismatch fa fs u => Sys2Proof.Machine.execPartDecision mismatch fa fs u s
  | .builderSelftestDone unit ok => Sys2Proof.Machine.execBuilderSelftestDone unit ok s
  | .builderCopyDone ok => Sys2Proof.Machine.execBuilderCopyDone ok s
  | .bldSwitch q => Sys2Proof.Machine.execBldSwitch q s
  | .bldRejoin q => Sys2Proof.Machine.execBldRejoin q s
  | .bldDrop q => Sys2Proof.Machine.execBldDrop q s
  | .cmpJobEnd slot u => Sys2Proof.Machine.execCmpJobEnd slot u s
  | .cmpTestWrite q bytes u => Sys2Proof.Machine.execCmpTestWrite q bytes u s
  | .lnPctrlWrite q ix v => Sys2Proof.Machine.execLnPctrlWrite q ix v s
  | .laneL2ExitDone ix => Sys2Proof.Machine.execLaneL2ExitDone ix s
  | .laneL1ExitDone ix => Sys2Proof.Machine.execLaneL1ExitDone ix s
  | .phaseScanDone ix d => Sys2Proof.Machine.execPhaseScanDone ix d s
  | .phaseTrackWindow ix early lateVotes => Sys2Proof.Machine.execPhaseTrackWindow ix early lateVotes s
  | .lnEyeScanStart q ix => Sys2Proof.Machine.execLnEyeScanStart q ix s
  | .marginScanDone ix agree => Sys2Proof.Machine.execMarginScanDone ix agree s
  | .ragilBlockReceive ix header payload => Sys2Proof.Machine.execRagilBlockReceive ix header payload s
  | .huntTimeout ix => Sys2Proof.Machine.execHuntTimeout ix s
  | .losAssert ix => Sys2Proof.Machine.execLosAssert ix s
  | .losClear ix => Sys2Proof.Machine.execLosClear ix s
  | .lolAssert ix synth => Sys2Proof.Machine.execLolAssert ix synth s
  | .txFault ix => Sys2Proof.Machine.execTxFault ix s
  | .lnTestWrite q ix v => Sys2Proof.Machine.execLnTestWrite q ix v s
  | .prbsSync ix reg => Sys2Proof.Machine.execPrbsSync ix reg s
  | .prbsSyncLoss ix => Sys2Proof.Machine.execPrbsSyncLoss ix s
  | .capsSend l => Sys2Proof.Machine.execCapsSend l s
  | .capsReceive l content => Sys2Proof.Machine.execCapsReceive l content s
  | .capsTimeout l => Sys2Proof.Machine.execCapsTimeout l s
  | .statusReceive l content => Sys2Proof.Machine.execStatusReceive l content s
  | .statusSend l => Sys2Proof.Machine.execStatusSend l s
  | .statusMiss => Sys2Proof.Machine.execStatusMiss s
  | .laneJoin j scheduled => Sys2Proof.Machine.execLaneJoin j scheduled s
  | .alignRow l => Sys2Proof.Machine.execAlignRow l s
  | .frameReceive l sof blocks eof => Sys2Proof.Machine.execFrameReceive l sof blocks eof s
  | .nakHoldExpire l => Sys2Proof.Machine.execNakHoldExpire l s
  | .ackSend l => Sys2Proof.Machine.execAckSend l s
  | .ackReceive l content => Sys2Proof.Machine.execAckReceive l content s
  | .nakReceive l content => Sys2Proof.Machine.execNakReceive l content s
  | .replayTimeout l => Sys2Proof.Machine.execReplayTimeout l s
  | .frameSend l u => Sys2Proof.Machine.execFrameSend l u s
  | .repartition => Sys2Proof.Machine.execRepartition s
  | .cmdTurn tgt => Sys2Proof.Machine.execCmdTurn tgt s
  | .turnCheck => Sys2Proof.Machine.execTurnCheck s
  | .cmdResync tgt n0 => Sys2Proof.Machine.execCmdResync tgt n0 s
  | .alignResyncReceive n0 r => Sys2Proof.Machine.execAlignResyncReceive n0 r s
  | .resyncApply => Sys2Proof.Machine.execResyncApply s
  | .cmdReserved code cont => Sys2Proof.Machine.execCmdReserved code cont s
  | .timeReceive word => Sys2Proof.Machine.execTimeReceive word s
  | .ntServoUpdate => Sys2Proof.Machine.execNtServoUpdate s
  | .southRateHunt k => Sys2Proof.Machine.execSouthRateHunt k s
  | .refresh r temp => Sys2Proof.Machine.execRefresh r temp s
  | .rankPowerDown r => Sys2Proof.Machine.execRankPowerDown r s
  | .rankVerifyDone r failing => Sys2Proof.Machine.execRankVerifyDone r failing s
  | .delayTrack r up down failing => Sys2Proof.Machine.execDelayTrack r up down failing s
  | .spareCheck u failing temps => Sys2Proof.Machine.execSpareCheck u failing temps s
  | .drmCtrlRetire q r => Sys2Proof.Machine.execDrmCtrlRetire q r s
  | .drmSweepNextBoot q => Sys2Proof.Machine.execDrmSweepNextBoot q s
  | .spmCorrectionWriteback cycles => Sys2Proof.Machine.execSpmCorrectionWriteback cycles s
  | .marchPreserving q => Sys2Proof.Machine.execMarchPreserving q s
  | .marchDestructive q => Sys2Proof.Machine.execMarchDestructive q s
  | .marchAbort q element words fails u => Sys2Proof.Machine.execMarchAbort q element words fails u s
  | .marchDone fails u => Sys2Proof.Machine.execMarchDone fails u s
  | .scrubStart q => Sys2Proof.Machine.execScrubStart q s
  | .scrubResume q => Sys2Proof.Machine.execScrubResume q s
  | .scrubAbort q next u => Sys2Proof.Machine.execScrubAbort q next u s
  | .scrubHalt address u => Sys2Proof.Machine.execScrubHalt address u s
  | .scrubDone u => Sys2Proof.Machine.execScrubDone u s
  | .fwRamPatrol corr ue => Sys2Proof.Machine.execFwRamPatrol corr ue s
  | .intoscReady straps us => Sys2Proof.Machine.execIntoscReady straps us s
  | .plinthIntoscCount n => Sys2Proof.Machine.execPlinthIntoscCount n s
  | .intoscGap => Sys2Proof.Machine.execIntoscGap s
  | .ckinWindowEnd n => Sys2Proof.Machine.execCkinWindowEnd n s
  | .ckinMissingEdges => Sys2Proof.Machine.execCkinMissingEdges s
  | .pllLossOfLock core => Sys2Proof.Machine.execPllLossOfLock core s
  | .pllLocked us => Sys2Proof.Machine.execPllLocked us s
  | .relockTimeout => Sys2Proof.Machine.execRelockTimeout s
  | .clkGateReqWrite q v => Sys2Proof.Machine.execClkGateReqWrite q v s
  | .leafAlignSend k => Sys2Proof.Machine.execLeafAlignSend k s
  | .ntHoldoverExpire => Sys2Proof.Machine.execNtHoldoverExpire s
  | .ntSetWrite q ns => Sys2Proof.Machine.execNtSetWrite q ns s
  | .alarmFire k => Sys2Proof.Machine.execAlarmFire k s
  | .ntAlArm q k => Sys2Proof.Machine.execNtAlArm q k s
  | .ntAlDisarm q k => Sys2Proof.Machine.execNtAlDisarm q k s
  | .hkStart q => Sys2Proof.Machine.execHkStart q s
  | .hkStop q => Sys2Proof.Machine.execHkStop q s
  | .hkUrgent q => Sys2Proof.Machine.execHkUrgent q s
  | .hkRangeRestart => Sys2Proof.Machine.execHkRangeRestart s
  | .hkConversionEnd x1 x2 refLow clkfb => Sys2Proof.Machine.execHkConversionEnd x1 x2 refLow clkfb s
  | .hkCalDone raw => Sys2Proof.Machine.execHkCalDone raw s
  | .hkResultRead q => Sys2Proof.Machine.execHkResultRead q s
  | .cufelReceive p => Sys2Proof.Machine.execCufelReceive p s
  | .read q body => Sys2Proof.Machine.execRead q body s
  | .writeObject q body => Sys2Proof.Machine.execWriteObject q body s
  | .readBlock q body u => Sys2Proof.Machine.execReadBlock q body u s
  | .writeBlock q body u patch e => Sys2Proof.Machine.execWriteBlock q body u patch e s
  | .store q u e => Sys2Proof.Machine.execStore q u e s
  | .restoreDefaultsValues q => Sys2Proof.Machine.execRestoreDefaultsValues q s
  | .restoreDefaultsImage q u e => Sys2Proof.Machine.execRestoreDefaultsImage q u e s
  | .restoreDefaultsBoth q u e => Sys2Proof.Machine.execRestoreDefaultsBoth q u e s
  | .apply q => Sys2Proof.Machine.execApply q s
  | .heartbeatRequest q => Sys2Proof.Machine.execHeartbeatRequest q s
  | .heartbeatSend => Sys2Proof.Machine.execHeartbeatSend s
  | .eventSend => Sys2Proof.Machine.execEventSend s
  | .cfChallengeRead q => Sys2Proof.Machine.execCfChallengeRead q s
  | .cfUnlockWrite q v inTime => Sys2Proof.Machine.execCfUnlockWrite q v inTime s
  | .cfLockWrite q v => Sys2Proof.Machine.execCfLockWrite q v s
  | .sessionTimeout p src => Sys2Proof.Machine.execSessionTimeout p src s
  | .lockoutExpire p => Sys2Proof.Machine.execLockoutExpire p s
  | .blockTransferTimeout p src => Sys2Proof.Machine.execBlockTransferTimeout p src s
  | .cfClusterIdWrite q v => Sys2Proof.Machine.execCfClusterIdWrite q v s
  | .canFrameReceive kind id data agree => Sys2Proof.Machine.execCanFrameReceive kind id data agree s
  | .canReassemblyTimeout node => Sys2Proof.Machine.execCanReassemblyTimeout node s
  | .canClaimReceive node serial agree => Sys2Proof.Machine.execCanClaimReceive node serial agree s
  | .canKeeperHbReceive node serial up agree => Sys2Proof.Machine.execCanKeeperHbReceive node serial up agree s
  | .canBeaconReceive node ms srct agree => Sys2Proof.Machine.execCanBeaconReceive node ms srct agree s
  | .canKeeperTimeout => Sys2Proof.Machine.execCanKeeperTimeout s
  | .canClaimSent => Sys2Proof.Machine.execCanClaimSent s
  | .canClaimWaitExpire => Sys2Proof.Machine.execCanClaimWaitExpire s
  | .canClaimCollision => Sys2Proof.Machine.execCanClaimCollision s
  | .canBackoffExpire => Sys2Proof.Machine.execCanBackoffExpire s
  | .canKeeperHbSend => Sys2Proof.Machine.execCanKeeperHbSend s
  | .canBeaconSend => Sys2Proof.Machine.execCanBeaconSend s
  | .canBusOff => Sys2Proof.Machine.execCanBusOff s
  | .canBusOffRecovery => Sys2Proof.Machine.execCanBusOffRecovery s
  | .canEnableWrite q v => Sys2Proof.Machine.execCanEnableWrite q v s
  | .nvMarginCheck weak u e => Sys2Proof.Machine.execNvMarginCheck weak u e s
  | .nvImageWrite q image u e => Sys2Proof.Machine.execNvImageWrite q image u e s
  | .nvPatchWrite q image u patch => Sys2Proof.Machine.execNvPatchWrite q image u patch s
  | .feedGood f vkeep => Sys2Proof.Machine.execFeedGood f vkeep s
  | .feedLost f => Sys2Proof.Machine.execFeedLost f s
  | .feedReturn => Sys2Proof.Machine.execFeedReturn s
  | .railUndervoltage => Sys2Proof.Machine.execRailUndervoltage s
  | .rstNAssert => Sys2Proof.Machine.execRstNAssert s
  | .rstNRelease => Sys2Proof.Machine.execRstNRelease s
  | .bootStart b us => Sys2Proof.Machine.execBootStart b us s
  | .dataReady us => Sys2Proof.Machine.execDataReady us s
  | .park q key arg => Sys2Proof.Machine.execPark q key arg s
  | .parkComplete => Sys2Proof.Machine.execParkComplete s
  | .parkTimeout => Sys2Proof.Machine.execParkTimeout s
  | .unpark q key arg => Sys2Proof.Machine.execUnpark q key arg s
  | .reinit q func key arg => Sys2Proof.Machine.execReinit q func key arg s
  | .recClear q func cmd key arg => Sys2Proof.Machine.execRecClear q func cmd key arg s
  | .resetCommand q key arg inTime => Sys2Proof.Machine.execResetCommand q key arg inTime s
  | .commandResetEffect => Sys2Proof.Machine.execCommandResetEffect s
  | .supvRestartCmd q key arg inTime => Sys2Proof.Machine.execSupvRestartCmd q key arg inTime s
  | .pcycRequest q key arg inTime => Sys2Proof.Machine.execPcycRequest q key arg inTime s
  | .pcycClear q key arg => Sys2Proof.Machine.execPcycClear q key arg s
  | .supervisorTrap ue => Sys2Proof.Machine.execSupervisorTrap ue s
  | .watchdogExpire => Sys2Proof.Machine.execWatchdogExpire s
  | .supvRestartDone => Sys2Proof.Machine.execSupvRestartDone s
  | .functionFault f c => Sys2Proof.Machine.execFunctionFault f c s
  | .recQuietExpire f => Sys2Proof.Machine.execRecQuietExpire f s
  | .ladderWindowExpire => Sys2Proof.Machine.execLadderWindowExpire s
  | .strapCheck straps => Sys2Proof.Machine.execStrapCheck straps s
  | .fltClearWrite q v => Sys2Proof.Machine.execFltClearWrite q v s
  | .tmrCompare => Sys2Proof.Machine.execTmrCompare s
  | .logEntryWrite => Sys2Proof.Machine.execLogEntryWrite s
  | .fltLogAckWrite q v => Sys2Proof.Machine.execFltLogAckWrite q v s
  | .fltLogZero q => Sys2Proof.Machine.execFltLogZero q s
  | .lifetimeHours => Sys2Proof.Machine.execLifetimeHours s
  | .freezePinRise => Sys2Proof.Machine.execFreezePinRise s
  | .freezePinFall us => Sys2Proof.Machine.execFreezePinFall us s
  | .frzCtrlFreeze q v => Sys2Proof.Machine.execFrzCtrlFreeze q v s
  | .freezeTakeHold => Sys2Proof.Machine.execFreezeTakeHold s
  | .tapExtest pins b => Sys2Proof.Machine.execTapExtest pins b s
  | .tapSamplePreload pins b => Sys2Proof.Machine.execTapSamplePreload pins b s
  | .tapIdcode => Sys2Proof.Machine.execTapIdcode s
  | .tapExtestPulse pins b => Sys2Proof.Machine.execTapExtestPulse pins b s
  | .tapExtestTrain pins b => Sys2Proof.Machine.execTapExtestTrain pins b s
  | .tapStatus => Sys2Proof.Machine.execTapStatus s
  | .tapFreezeI => Sys2Proof.Machine.execTapFreezeI s
  | .tapThaw us => Sys2Proof.Machine.execTapThaw us s
  | .tapCast shifts => Sys2Proof.Machine.execTapCast shifts s
  | .tapCastCrc => Sys2Proof.Machine.execTapCastCrc s
  | .tapCastMem fw addr u => Sys2Proof.Machine.execTapCastMem fw addr u s
  | .tapBypass ir => Sys2Proof.Machine.execTapBypass ir s
  | .trstNAssert => Sys2Proof.Machine.execTrstNAssert s
  | .lossOfLockClear ix synth => Sys2Proof.Machine.execLossOfLockClear ix synth s
  | .energyFall ch => Sys2Proof.Machine.execEnergyFall ch s
  | .unknownStateExit ch which up => Sys2Proof.Machine.execUnknownStateExit ch which up s
  | .vkeepLost => Sys2Proof.Machine.execVkeepLost s
  | .receiveBufferOverflow ix => Sys2Proof.Machine.execReceiveBufferOverflow ix s
  | .storageUpset u => Sys2Proof.Machine.execStorageUpset u s

end Sys2Proof.Machine
end

