-- ==== Sys2Proof/Machine/Line.lean ====
section
/-! DEFINITION. The block side of the sending lanes: what the links put on them in one block slot (R216, R284, R285, R294, R301,
R317 to R319, R322, R340). -/
namespace Sys2Proof.Machine

/-! ### Blocks (R284, R310) -/

/-- A control block. -/
def controlWord (btype content : Nat) : LineBlock := { head := 2, payload := content * 2 ^ 8 + btype }

/-- IDLE. -/
def idleBlock : LineBlock := controlWord 0x0F 0

/-- The data blocks of a frame. -/
def dataWords (b : List Byte) : List LineBlock :=
  (List.range (ceilDiv b.length 8)).map fun i => { head := 1, payload := fromLE ((b.drop (8 * i)).take 8) }

/-- The blocks of an item: a message's parts follow it as CONT, a frame runs from SOF to EOF (R310, R322). -/
def Sent.blocks : Sent → List LineBlock
  | .block _ t (c :: r) => controlWord t c :: r.map (controlWord 0x99)
  | .frame _ sof data eof => controlWord 0x55 sof :: dataWords data ++ [controlWord 0xAA eof]
  | _ => []

/-! ### The order of items (R216, R315, R340) -/

/-- Place of an item on its link: 0 an ALIGN row; 1 CAPS of a south link, which goes ahead of what is forwarded, 2 a
forwarded query, command or time message; 3 TP; 4 STATUS; 5 ACK or NAK; 6 a frame; 7 CAPS of the north link. -/
def Sent.rank : Sent → Nat
  | .row _ _ _ _ => 0
  | .frame _ _ _ _ => 6
  | .block l t _ =>
    if t = 0x33 then (if southLink l then 1 else 7)
    else if t = 0x69 then 3
    else if t = 0xCC then 4
    else if t = 0x3C ∨ t = 0xC3 then 5
    else 2
  | _ => 8

/-- The oldest waiting item of the first rank that has one. -/
def firstOf (l : List Sent) (ranks : List Nat) : Option Sent := ranks.findSome? fun r => l.find? fun x => x.rank == r

/-- An item starts: its first block leaves, and the rest follow. -/
def Feed66.start (q : Feed66) (x : Sent) : Feed66 × LineBlock :=
  let q := { q with wait := q.wait.erase x }
  match x.blocks with
  | [] => (q, idleBlock)
  | b :: r => (if x.rank = 6 then { q with frame := r } else { q with msg := r }, b)

/-- The block that one stream position takes, and what the link has still to send: the rest of a message in progress; TP,
STATUS, ACK or NAK between the blocks of a frame; the frame in progress, or a new one; CAPS; IDLE (R323, R340). -/
def Feed66.position (q : Feed66) : Feed66 × LineBlock :=
  match q.msg with
  | b :: r => ({ q with msg := r }, b)
  | [] =>
    match firstOf q.wait [1, 2, 3, 4, 5] with
    | some x => q.start x
    | none =>
      match q.frame with
      | b :: r => ({ q with frame := r }, b)
      | [] =>
        match firstOf q.wait [6, 7] with
        | some x => q.start x
        | none => (q, idleBlock)

/-- The blocks that lanes take from a stream in one slot: the lane at position p of n takes stream block k with k mod n = p,
in ascending lane order (R318). -/
def Feed66.stripe : Feed66 → List Nat → Feed66 × List (Nat × LineBlock)
  | q, [] => (q, [])
  | q, i :: r =>
    let x := q.position
    let y := x.1.stripe r
    (y.1, (i, x.2) :: y.2)

/-! ### ALIGN (R319) -/

/-- The ALIGN block of lane i in a row: POS is the lane's place in the map, 0xF outside it. -/
def alignBlock (acnt map kind i : Nat) : LineBlock :=
  let pos := if bit map i then popcount i map else 0xF
  controlWord 0xF0 (acnt * 2 ^ 48 + map * 2 ^ 40 + pos * 2 ^ 36 + kind * 2 ^ 34)

/-- A row takes a slot on every lane given; one of KIND 1 goes out on the lanes that remain in the map, the others idle
(R319, R320). -/
def rowBlocks (lanes : List Nat) (acnt map kind : Nat) : List (Nat × LineBlock) :=
  lanes.map fun i => (i, if kind = 1 ∧ bit map i = false then idleBlock else alignBlock acnt map kind i)

/-- One slot of a link: a row that is due, or stream blocks on the lanes of its map and IDLE on its other lanes. -/
def Feed66.slot (q : Feed66) (lanes map : List Nat) : Feed66 × List (Nat × LineBlock) :=
  match firstOf q.wait [0] with
  | some (.row l acnt m kind) => ({ q with wait := q.wait.erase (.row l acnt m kind) }, rowBlocks lanes acnt m kind)
  | _ =>
    let x := q.stripe (lanes.filter map.contains)
    (x.1, x.2 ++ (lanes.filter fun i => !map.contains i).map fun i => (i, idleBlock))

/-! ### The lanes of a link -/

/-- Lanes of the north bundle that carry blocks (R284, R317). -/
def State.bundleSends (s : State) : List Nat := (List.range 8).filter fun i => s.bundleLane i && s.carries i

/-- The lanes that carry the north link's stream: those of the map in UP, and before UP, when no map is agreed, the lowest
without a fault (DESIGN CHOICE, log entry 156). -/
def State.streamLanes (s : State) : List Nat :=
  if s.o Obj.RG_LSTATE = 3 then s.bundleSends.filter fun i => bit (s.o Obj.RG_LANEMAP) i else (s.bundleSends.filter s.sends).take 1

/-- Every link fills one block slot; a lane in L0 that is out of service carries IDLE and the rows (R284, R317). -/
def State.linkSlots (s : State) : State × List (Nat × LineBlock) :=
  let s := s.takeUp
  let n := s.line.north.slot s.bundleSends s.streamLanes
  let one (q : Feed66) (i : Nat) : Feed66 × List (Nat × LineBlock) :=
    if s.carries i then q.slot [i] (if s.sends i then [i] else []) else (q, [])
  let p (j : Fin 8) : Feed66 × List (Nat × LineBlock) := if s.bundleLane j.val then (s.line.pass.get j, []) else one (s.line.pass.get j) j.val
  let k (k : Fin 8) : Feed66 × List (Nat × LineBlock) := one (s.line.south.get k) (17 + k.val)
  ({ s with line := { s.line with
      north := n.1, pass := Vector.ofFn fun j => (p j).1, south := Vector.ofFn fun j => (k j).1 } },
   n.2 ++ (List.finRange 8).flatMap (fun j => (p j).2) ++ (List.finRange 8).flatMap fun j => (k j).2)

/-! ### The line side of a lane (R284, R285, R294, R298, R301) -/

/-- All 66 bits, inverted under LN_POLINV (R294). -/
def State.lineOut (s : State) (i v : Nat) : Nat := if s.flag (Obj.LN_POLINV i) then v ^^^ (2 ^ 66 - 1) else v

/-- A lane puts a block on its line: the sync header, then the scrambled payload. -/
def State.laneSend (s : State) (i : Nat) (b : LineBlock) : State :=
  let x := throughRegister scrambleBit 64 (s.lane i).scram b.payload
  let s := s.setLane i { s.lane i with scram := x.1 }
  { s with line := { s.line with wire := s.line.wire ++ [(i, s.lineOut i (b.head + 4 * x.2))] } }

/-- One bit of PRBS31, inverted in mode 1 (R301). -/
def prbsBit (inv : Bool) (r : Nat) (_ : Bool) : Nat × Bool :=
  let x := prbsNext r
  ((2 * r + b2n x) % 2 ^ 31, x != inv)

/-- A transmitting lane under test puts 66 bits of the raw sequence on its line. -/
def State.laneTestSend (s : State) (i : Nat) : State :=
  let x := throughRegister (prbsBit (s.o (Obj.LN_TEST i) == 1)) 66 (s.lane i).gen 0
  let s := s.setLane i { s.lane i with gen := x.1 }
  { s with line := { s.line with wire := s.line.wire ++ [(i, s.lineOut i x.2)] } }

/-- Transmitting lanes. -/
def txLanes : List Nat := (List.range 8) ++ (List.range 8).map (17 + ·)

/-- A lane sends a test pattern: in L0, with a fault or without (R298, R301). -/
def State.testSends (s : State) (i : Nat) : Bool := s.pstate i == 0 && s.o (Obj.LN_TEST i) != 0

/-- The block counter of a transmitting lane runs in L0 and L1 (R298). -/
def State.runBlocks (s : State) : State :=
  (txLanes.filter fun i => s.pstate i != 2).foldl (fun t i => t.setLane i { t.lane i with blocks := (t.lane i).blocks + 1 }) s

/-- The links in CAPS go on whose own SEEN = 2 has left in this slot (R314). -/
def State.capsSlot (s : State) : State :=
  let s := s.capsProceed .north
  if s.isHub then (List.finRange 8).foldl (fun t k => t.capsProceed (.south k)) s else s

/-- One block slot passes on every sending lane. -/
def State.blockSlot (s : State) : State :=
  let x := s.linkSlots
  let s : State := { x.1 with line := { x.1.line with wire := [] } }
  let s := x.2.foldl (fun t e => t.laneSend e.1 e.2) s
  ((txLanes.filter s.testSends).foldl State.laneTestSend s).runBlocks.capsSlot

/-- Something is on a line: a transmitting lane is out of L2, or the newest slot still shows what one carried. -/
def State.lineBusy (s : State) : Bool := !s.line.wire.isEmpty || txLanes.any fun i => s.pstate i != 2

/-- What passes while no command comes: one block slot, where a transmitting lane is out of L2; nothing otherwise, and nothing
in a freeze, which stops the clocks. The rates of the links relative to each other are left out (DESIGN CHOICE, log entry 1). -/
def State.idleStep (s : State) : State := if s.awake && s.lineBusy then s.blockSlot else s

end Sys2Proof.Machine
end

