-- ==== Sys2Proof/Machine/Step.lean ====
section
/-! DEFINITION. One step of the block: the command at the front of the queue is carried out; with an empty queue a block slot passes
on the lanes. -/
namespace Sys2Proof.Machine

/-- The command at the front of the queue runs on the state that holds the queue's rest; with an empty queue a
block slot passes on the sending lanes, and a block with no lane out of L2 idles (DESIGN CHOICE, log entry 1). -/
def step (s : State) : Host.Outcome State Fault Refusal :=
  match s.pending with
  | [] => .next s.idleStep
  | c :: r => exec c { s with pending := r }

/-- The state with the command that a word spells at the front of its queue; no row of the table gives bits, so no word
spells a command (log entry 2). -/
def State.withFetchWord (s : State) (nbits w : Nat) : State :=
  match Sys2Proof.decodeTableWord nbits w with
  | some c => { s with pending := c :: s.pending }
  | none => s

end Sys2Proof.Machine
end

