-- ==== Sys2Proof/Safety.lean ====
section
/-! DEFINITION. What counts as a safe step, and the invariant of the stored data, in the terms the statements use. -/
namespace Sys2Proof.Machine

/-- Object store and memories have their canonical forms: addresses rise, and nothing listed reads as if unlisted. -/
def State.wf (s : State) : Bool :=
  canonical objDefault s.obj && Memory.wf s.spm && s.rankMem.toList.all Memory.wf && Memory.wf s.nvm &&
    Memory.wf s.memUnit.fwRam

/-- The command answers a next state, and that state has the property. -/
def Runs (c : Instr) (s : State) (P : State → Prop) : Prop := ∃ t, exec c s = .next t ∧ P t

/-- No object but the listed ones differs from s. -/
def State.keepsObjects (t s : State) (ks : List Nat) : Prop := ∀ k, k ∉ ks → t.o k = s.o k

/-- The scratchpad, the ranks and the NVM hold what they held in s. -/
def State.keepsMemories (t s : State) : Prop := t.spm = s.spm ∧ t.rankMem = s.rankMem ∧ t.nvm = s.nvm

/-- No byte of the scratchpad outside [lo, hi) differs from s. -/
def State.keepsSpmOutside (t s : State) (lo hi : Nat) : Prop := ∀ a, a < lo ∨ hi ≤ a → memGet t.spm a = memGet s.spm a

/-- The messages that a path has been handed. -/
def State.outOf (s : State) : Path → List Msg
  | .north => s.cufel.outNorth | .can => s.cufel.outCan

/-- A response to the request has been handed to the path the request came on (R456, R461). -/
def State.answers (s : State) (q : Req) (mtype : Nat) (st : Status) (body : List Byte) : Prop :=
  ∃ m ∈ s.outOf q.path, m.resp = true ∧ m.mtype = mtype ∧ m.tid = q.tid.toNat ∧ m.dst = q.src.toNat ∧ m.status = st.code ∧ m.body = body

/-- A request has been answered and has done nothing else: the response is out, and only the alive counters and the control
server's own part differ. -/
def State.onlyAnswered (t s : State) (q : Req) (mtype : Nat) (st : Status) (body : List Byte) : Prop :=
  t.answers q mtype st body ∧ t.keepsObjects s [Obj.CHK_ALIVE_TXN, Obj.CHK_ALIVE_TXC] ∧
    { t with obj := s.obj, cufel := s.cufel } = s

/-- A write of object k has been accepted and waits for the next tick (R465, R491). -/
def State.writeWaits (t s : State) (q : Req) (k v : Nat) : Prop :=
  t.livePend = s.livePend ++ [(k, v)] ∧ t.answers q 0x02 .ok (keyBytes k ++ bytesLE 6 ((s.xc + 1) % 2 ^ 48)) ∧
    t.keepsObjects s [Obj.CHK_ALIVE_TXN, Obj.CHK_ALIVE_TXC] ∧
    { t with obj := s.obj, cufel := s.cufel, livePend := s.livePend } = s

/-- A write of object k has been refused: the response names the reason, and nothing waits (R456, R464). -/
def State.writeRefused (t s : State) (q : Req) (k : Nat) (st : Status) : Prop :=
  t.onlyAnswered s q 0x02 st (keyBytes k ++ bytesLE 6 0)

/-- The commands that act while the functional clocks stand: supplies, plinth, INTOSC, boot steps, the FREEZE and TAP pins, and
refresh (R399, R518, R531, R560 to R562). -/
def actsAsleep : Instr → Bool
  | .refresh _ _ | .intoscReady _ _ | .plinthIntoscCount _ | .intoscGap | .feedGood _ _ | .feedLost _ | .feedReturn
  | .railUndervoltage | .rstNAssert | .rstNRelease | .bootStart _ _ | .freezePinRise | .freezePinFall _ | .tapExtest _ _
  | .tapSamplePreload _ _ | .tapIdcode | .tapExtestPulse _ _ | .tapExtestTrain _ _ | .tapStatus | .tapFreezeI | .tapThaw _
  | .tapCast _ | .tapCastCrc | .tapCastMem _ _ _ | .tapBypass _ | .trstNAssert | .vkeepLost => true
  | _ => false

/-- The commands that only the serving supervisor carries out: requests, the receipt of messages, and what it sends unasked
(R461, R463). -/
def needsServer : Instr → Bool
  | .prbArm _ | .prbAbort _ | .tdcCalRestart _ | .tdcCalAbort _ | .tdcLutWrite _ _ _ | .tdcRmStart _ | .tdcRmStop _
  | .asmStart _ | .asmStop _ | .hubPortEnWrite _ _ | .bldSwitch _ | .bldRejoin _ | .bldDrop _ | .cmpTestWrite _ _ _
  | .lnPctrlWrite _ _ _ | .lnEyeScanStart _ _ | .lnTestWrite _ _ _ | .drmCtrlRetire _ _ | .drmSweepNextBoot _
  | .marchPreserving _ | .marchDestructive _ | .marchAbort _ _ _ _ _ | .scrubStart _ | .scrubResume _ | .scrubAbort _ _ _
  | .clkGateReqWrite _ _ | .ntSetWrite _ _ | .ntAlArm _ _ | .ntAlDisarm _ _ | .hkStart _ | .hkStop _ | .hkUrgent _
  | .hkResultRead _ | .cufelReceive _ | .read _ _ | .writeObject _ _ | .readBlock _ _ _ | .writeBlock _ _ _ _ _ | .store _ _ _
  | .restoreDefaultsValues _ | .restoreDefaultsImage _ _ _ | .restoreDefaultsBoth _ _ _ | .apply _ | .heartbeatRequest _
  | .heartbeatSend | .eventSend | .cfChallengeRead _ | .cfUnlockWrite _ _ _ | .cfLockWrite _ _ | .cfClusterIdWrite _ _
  | .canEnableWrite _ _ | .nvImageWrite _ _ _ _ | .nvPatchWrite _ _ _ _ | .park _ _ _ | .unpark _ _ _ | .reinit _ _ _ _
  | .recClear _ _ _ _ _ | .resetCommand _ _ _ _ | .supvRestartCmd _ _ _ _ | .pcycRequest _ _ _ _ | .pcycClear _ _ _
  | .fltClearWrite _ _ | .fltLogAckWrite _ _ | .fltLogZero _ | .frzCtrlFreeze _ _ => true
  | _ => false

/-- The step of a state is safe: it answers a next state. -/
def Safe (s : State) : Prop := ∃ t, step s = .next t

end Sys2Proof.Machine
end

