-- ==== Sys2Proof/Certificates/Slice0/Obligations.lean ====
section
/-! DEFINITION. What is claimed of the model: one proposition for each obligation, with its title and the rules it comes
from. A clause that rests on a choice of the model names the log entry. -/
open Sys2Proof Sys2Proof.Machine

/-- FE_OVL and FE_OVL_SEEN follow the clamps, and leaving reset or Unknown takes a discriminator to its state without an
edge. (R48; R53; R55; R59; R93) -/
def Obligations.OverloadFlagsAndDiscriminatorsFollowTheirNodes : Prop :=
  (∀ (c : Ch) (s : State), s.awake = true →
     Runs (.feOverloadSet c) s (fun t =>
       t.ob Obj.FE_OVL c = true ∧ t.ob Obj.FE_OVL_SEEN c = true ∧
       (∀ d : Ch, d ≠ c → t.ob Obj.FE_OVL d = s.ob Obj.FE_OVL d ∧ t.ob Obj.FE_OVL_SEEN d = s.ob Obj.FE_OVL_SEEN d) ∧
       t.keepsObjects s [Obj.FE_OVL, Obj.FE_OVL_SEEN] ∧ { t with obj := s.obj } = s) ∧
     Runs (.feOverloadClear c) s (fun t =>
       t.ob Obj.FE_OVL c = false ∧
       (∀ d : Ch, d ≠ c → t.ob Obj.FE_OVL d = s.ob Obj.FE_OVL d) ∧
       t.keepsObjects s [Obj.FE_OVL] ∧ { t with obj := s.obj } = s)) ∧
  (∀ (c : Ch) (s : State), s.awake = true →
     (∀ (a b : Band) (r : Nat), (s.chan c).releaseAt = some r →
       (r ≤ s.tick → s.en c = true → Runs (.channelRelease c a b) s (fun t =>
         t.chan c = { s.chan c with timing := if (s.chan c).hit = none then bandState a else .high,
                                    energy := if s.o (Obj.FE_THR_E c) < 240 ∨ b ≠ .above then bandState b else .unknown,
                                    releaseAt := none, closing := false } ∧
         (∀ d, d ≠ c → t.chan d = s.chan d) ∧ { t with chans := s.chans } = s)) ∧
       (s.tick < r → exec (.channelRelease c a b) s = .next s)) ∧
     (∀ up : Bool, (s.chan c).timing = .unknown → Runs (.unknownStateExit c .timing up) s (fun t =>
       t.chan c = { s.chan c with timing := if up then .high else .low } ∧
       (∀ d, d ≠ c → t.chan d = s.chan d) ∧ { t with chans := s.chans } = s)) ∧
     (∀ up : Bool, (s.chan c).energy = .unknown → up = false ∨ s.o (Obj.FE_THR_E c) < 240 → Runs (.unknownStateExit c .energy up) s (fun t =>
       t.chan c = { s.chan c with energy := if up then .high else .low } ∧
       (∀ d, d ≠ c → t.chan d = s.chan d) ∧ { t with chans := s.chans } = s)) ∧
     ((s.chan c).energy = .unknown → 240 ≤ s.o (Obj.FE_THR_E c) → exec (.unknownStateExit c .energy true) s = .next s) ∧
     (∀ (w : Which) (up : Bool), (s.chan c).timing ≠ .unknown → (s.chan c).energy ≠ .unknown →
       exec (.unknownStateExit c w up) s = .next s))

/-- Control writes of probe, calibration, rate meter, assembler, hub, builders and lanes are judged at execution and
wait for the tick. (R79; R80; R109; R116; R141; R491; R465; R213; R234; R242; R244; R248) Rests on log entry 139,
the model's own choice. -/
def Obligations.FrontEndHubAndLaneWritesAreJudged : Prop :=
  (∀ (q : Req) (s : State), s.servedFor q = true →
     (s.o Obj.PRB_STATE = 0 ∨ s.o Obj.PRB_STATE = 5 → Runs (.prbArm q) s (·.writeWaits s q Obj.PRB_CTRL 1)) ∧
     (1 ≤ s.o Obj.PRB_STATE → s.o Obj.PRB_STATE ≤ 4 → Runs (.prbArm q) s (·.writeRefused s q Obj.PRB_CTRL .functionRunning)) ∧
     Runs (.prbAbort q) s (·.writeWaits s q Obj.PRB_CTRL 2) ∧
     Runs (.tdcCalRestart q) s (·.writeWaits s q Obj.TDC_CAL_CTRL 1) ∧
     Runs (.tdcCalAbort q) s (·.writeWaits s q Obj.TDC_CAL_CTRL 2) ∧
     Runs (.tdcRmStart q) s (·.writeWaits s q Obj.TDC_RM_CTRL 1) ∧
     (s.o Obj.TDC_RM_STATE = 1 → Runs (.tdcRmStop q) s (·.writeWaits s q Obj.TDC_RM_CTRL 2)) ∧
     (s.o Obj.TDC_RM_STATE ≠ 1 → Runs (.tdcRmStop q) s (·.writeRefused s q Obj.TDC_RM_CTRL .functionRunning)) ∧
     (s.o Obj.ASM_STATE = 0 → s.o Obj.CF_ROLE ≠ 3 → Runs (.asmStart q) s (·.writeWaits s q Obj.ASM_CTRL 1)) ∧
     (s.o Obj.ASM_STATE ≠ 0 ∨ s.o Obj.CF_ROLE = 3 → Runs (.asmStart q) s (·.writeRefused s q Obj.ASM_CTRL .functionRunning)) ∧
     (s.o Obj.ASM_STATE = 1 → Runs (.asmStop q) s (·.writeWaits s q Obj.ASM_CTRL 2)) ∧
     (s.o Obj.ASM_STATE ≠ 1 → Runs (.asmStop q) s (·.writeRefused s q Obj.ASM_CTRL .functionRunning))) ∧
  (∀ (q : Req) (s : State), s.servedFor q = true →
     (∀ v : BitVec 8, s.o Obj.CF_ROLE = 2 → s.o Obj.HUB_MODE ≠ 1 → Runs (.hubPortEnWrite q v) s (·.writeWaits s q Obj.HUB_PORT_EN v.toNat)) ∧
     (∀ v : BitVec 8, s.o Obj.CF_ROLE = 2 → s.o Obj.HUB_MODE = 1 →
       (s.lanesOk v.toNat = true → Runs (.hubPortEnWrite q v) s (·.writeWaits s q Obj.HUB_PORT_EN v.toNat)) ∧
       (s.lanesOk v.toNat = false → Runs (.hubPortEnWrite q v) s (·.writeRefused s q Obj.HUB_PORT_EN .outOfRange))) ∧
     (∀ v : BitVec 8, s.o Obj.CF_ROLE ≠ 2 → Runs (.hubPortEnWrite q v) s (·.writeRefused s q Obj.HUB_PORT_EN .functionRunning)) ∧
     (s.isExpert q = true →
       (s.lockstep = true → s.switchPending = false → Runs (.bldSwitch q) s (·.writeWaits s q Obj.BLD_CTRL 1)) ∧
       (s.lockstep = false ∨ s.switchPending = true → Runs (.bldSwitch q) s (·.writeRefused s q Obj.BLD_CTRL .functionRunning)) ∧
       ((s.o Obj.BLD_UNIT0 = 1 ∧ s.o Obj.BLD_UNIT1 = 5) ∨ (s.o Obj.BLD_UNIT0 = 5 ∧ s.o Obj.BLD_UNIT1 = 1) → Runs (.bldRejoin q) s (·.writeWaits s q Obj.BLD_CTRL 2)) ∧
       ((s.o Obj.BLD_UNIT0 ≠ 5 ∧ s.o Obj.BLD_UNIT1 ≠ 5) ∨ (s.o Obj.BLD_UNIT0 ≠ 1 ∧ s.o Obj.BLD_UNIT1 ≠ 1) → Runs (.bldRejoin q) s (·.writeRefused s q Obj.BLD_CTRL .functionRunning)) ∧
       (s.o Obj.BLD_UNIT0 = 2 ∨ s.o Obj.BLD_UNIT1 = 2 → Runs (.bldDrop q) s (·.writeWaits s q Obj.BLD_CTRL 3)) ∧
       (s.o Obj.BLD_UNIT0 ≠ 2 → s.o Obj.BLD_UNIT1 ≠ 2 → Runs (.bldDrop q) s (·.writeRefused s q Obj.BLD_CTRL .functionRunning))) ∧
     (s.isExpert q = false →
       Runs (.bldSwitch q) s (·.writeRefused s q Obj.BLD_CTRL .expertRequired) ∧
       Runs (.bldRejoin q) s (·.writeRefused s q Obj.BLD_CTRL .expertRequired) ∧
       Runs (.bldDrop q) s (·.writeRefused s q Obj.BLD_CTRL .expertRequired)) ∧
     (∀ (i : Lane) (v : BitVec 8), s.laneUsed i = true →
       (v.toNat ≤ 2 → Runs (.lnPctrlWrite q i v) s (·.writeWaits s q (Obj.LN_PCTRL i) v.toNat)) ∧
       (2 < v.toNat → Runs (.lnPctrlWrite q i v) s (·.writeRefused s q (Obj.LN_PCTRL i) .outOfRange))) ∧
     (∀ (i : Lane) (v : BitVec 8), s.laneUsed i = false →
       Runs (.lnPctrlWrite q i v) s (·.writeRefused s q (Obj.LN_PCTRL i) .functionRunning)) ∧
     (∀ i : Lane, 8 ≤ i.val → i.val ≤ 16 → s.o (Obj.LN_PSTATE i) = 0 → s.o (Obj.LN_ASTATE i) = 4 ∨ s.o (Obj.LN_ASTATE i) = 6 →
       (s.lane i).scanning = false → Runs (.lnEyeScanStart q i) s (·.writeWaits s q (Obj.LN_EYE_CTRL i) 1)) ∧
     (∀ i : Lane, 8 ≤ i.val → i.val ≤ 16 → s.o (Obj.LN_PSTATE i) ≠ 0 →
       Runs (.lnEyeScanStart q i) s (·.writeRefused s q (Obj.LN_EYE_CTRL i) .functionRunning)) ∧
     (∀ i : Lane, i.val < 8 ∨ 16 < i.val → Runs (.lnEyeScanStart q i) s (·.writeRefused s q (Obj.LN_EYE_CTRL i) .outOfRange)))

/-- Control writes of memories, time, measurement, CAN, faults and freeze are judged at execution, and answered with
their code. (R363; R368; R381; R383; R384; R420; R427; R491; R446; R447; R448; R458) Rests on log entry 158, the
model's own choice. -/
def Obligations.MemoryTimeAndServiceWritesAreJudged : Prop :=
  (∀ (q : Req) (s : State), s.servedFor q = true →
     (∀ r : RankId, s.isExpert q = true →
       (s.o (Obj.DRM_RSTATE r.num) = 3 ∨ s.o (Obj.DRM_RSTATE r.num) = 4 → Runs (.drmCtrlRetire q r) s (·.writeWaits s q Obj.DRM_CTRL (r.num + 1))) ∧
       (s.o (Obj.DRM_RSTATE r.num) ≠ 3 → s.o (Obj.DRM_RSTATE r.num) ≠ 4 →
         Runs (.drmCtrlRetire q r) s (·.writeRefused s q Obj.DRM_CTRL .functionRunning))) ∧
     (s.isExpert q = true → Runs (.drmSweepNextBoot q) s (·.writeWaits s q Obj.DRM_CTRL 0x10)) ∧
     (s.isExpert q = false → Runs (.drmSweepNextBoot q) s (·.writeRefused s q Obj.DRM_CTRL .expertRequired) ∧
       ∀ r : RankId, Runs (.drmCtrlRetire q r) s (·.writeRefused s q Obj.DRM_CTRL .expertRequired)) ∧
     (s.marchRange = false → s.o Obj.SPM_MARCH_STATE ≠ 1 →
       Runs (.marchPreserving q) s (·.writeRefused s q Obj.SPM_MARCH_CTRL .outOfRange) ∧
       (s.o Obj.PWR_STATE = 2 → Runs (.marchDestructive q) s (·.writeRefused s q Obj.SPM_MARCH_CTRL .outOfRange))) ∧
     (s.o Obj.SPM_MARCH_START % 8 = 0 → s.o Obj.SPM_MARCH_LEN % 8 = 0 → s.o Obj.SPM_MARCH_LEN ≠ 0 →
       s.o Obj.SPM_MARCH_START + s.o Obj.SPM_MARCH_LEN ≤ 0x600000 → s.o Obj.SPM_MARCH_STATE ≠ 1 →
       Runs (.marchPreserving q) s (·.writeWaits s q Obj.SPM_MARCH_CTRL 1) ∧
       (s.o Obj.PWR_STATE = 2 → Runs (.marchDestructive q) s (·.writeWaits s q Obj.SPM_MARCH_CTRL 2)) ∧
       (s.o Obj.PWR_STATE ≠ 2 → Runs (.marchDestructive q) s (·.writeRefused s q Obj.SPM_MARCH_CTRL .functionRunning))) ∧
     (s.o Obj.SPM_MARCH_STATE = 1 →
       Runs (.marchPreserving q) s (·.writeRefused s q Obj.SPM_MARCH_CTRL .functionRunning) ∧
       Runs (.marchDestructive q) s (·.writeRefused s q Obj.SPM_MARCH_CTRL .functionRunning)) ∧
     (s.o Obj.SCB_STATE ≠ 1 → s.o Obj.SCB_STATE ≠ 2 → s.o Obj.SCB_TARGET = 3 → s.o Obj.SCB_START % 8 = 0 → s.o Obj.SCB_LEN % 8 = 0 →
       s.o Obj.SCB_START + s.o Obj.SCB_LEN ≤ 0x600000 → Runs (.scrubStart q) s (·.writeWaits s q Obj.SCB_CTRL 1)) ∧
     (s.o Obj.SCB_STATE = 1 → Runs (.scrubStart q) s (·.writeRefused s q Obj.SCB_CTRL .functionRunning)) ∧
     (s.o Obj.SCB_STATE = 2 → Runs (.scrubResume q) s (·.writeWaits s q Obj.SCB_CTRL 2) ∧
       ∀ n u, Runs (.scrubAbort q n u) s (·.writeWaits s q Obj.SCB_CTRL 3)) ∧
     (s.o Obj.SCB_STATE ≠ 2 → Runs (.scrubResume q) s (·.writeRefused s q Obj.SCB_CTRL .functionRunning)) ∧
     (s.o Obj.SCB_STATE ≠ 1 → s.o Obj.SCB_STATE ≠ 2 → ∀ n u, Runs (.scrubAbort q n u) s (·.writeRefused s q Obj.SCB_CTRL .functionRunning)) ∧
     (∀ ns : BitVec 64, s.isExpert q = true → Runs (.ntSetWrite q ns) s (·.writeWaits s q Obj.NT_SET ns.toNat)) ∧
     (∀ ns : BitVec 64, s.isExpert q = false → Runs (.ntSetWrite q ns) s (·.writeRefused s q Obj.NT_SET .expertRequired)) ∧
     (∀ k : Fin 8, Runs (.ntAlArm q k) s (·.writeWaits s q (Obj.NT_AL_CTRL k) 1) ∧ Runs (.ntAlDisarm q k) s (·.writeWaits s q (Obj.NT_AL_CTRL k) 2))) ∧
  (∀ (q : Req) (s : State), s.servedFor q = true →
     (s.o Obj.HK_STATE ≠ 0 → Runs (.hkStart q) s (·.writeWaits s q Obj.HK_CTRL 1)) ∧
     (s.o Obj.HK_STATE = 0 → Runs (.hkStart q) s (·.writeRefused s q Obj.HK_CTRL .functionRunning)) ∧
     (2 ≤ s.o Obj.HK_STATE → Runs (.hkStop q) s (·.writeWaits s q Obj.HK_CTRL 2)) ∧
     (s.o Obj.HK_STATE ≤ 1 → Runs (.hkStop q) s (·.writeRefused s q Obj.HK_CTRL .functionRunning)) ∧
     (s.o Obj.HK_STATE = 1 ∨ s.o Obj.HK_STATE = 2 → hkEntryValid (s.o Obj.HK_MUX_MODE) (s.o Obj.HK_URG_ENTRY) = true →
       Runs (.hkUrgent q) s (·.writeWaits s q Obj.HK_CTRL 3)) ∧
     (s.o Obj.HK_STATE ≠ 1 → s.o Obj.HK_STATE ≠ 2 → Runs (.hkUrgent q) s (·.writeRefused s q Obj.HK_CTRL .functionRunning)) ∧
     (∀ v : BitVec 16, s.o Obj.CF_ROLE ≠ 1 → v.toNat ≤ 0xFFF → Runs (.cfClusterIdWrite q v) s (·.writeWaits s q Obj.CF_CLUSTER_ID v.toNat)) ∧
     (∀ v : BitVec 16, s.o Obj.CF_ROLE ≠ 1 → 0xFFF < v.toNat → Runs (.cfClusterIdWrite q v) s (·.writeRefused s q Obj.CF_CLUSTER_ID .outOfRange)) ∧
     (∀ v : BitVec 16, s.o Obj.CF_ROLE = 1 → Runs (.cfClusterIdWrite q v) s (·.writeRefused s q Obj.CF_CLUSTER_ID .functionRunning)) ∧
     (∀ v : BitVec 8, v.toNat ≤ 1 → Runs (.canEnableWrite q v) s (·.writeWaits s q Obj.CAN_ENABLE v.toNat)) ∧
     (∀ v : BitVec 8, 1 < v.toNat → Runs (.canEnableWrite q v) s (·.writeRefused s q Obj.CAN_ENABLE .outOfRange)) ∧
     Runs (.fltClearWrite q 1) s (·.writeWaits s q Obj.FLT_CLEAR 1) ∧
     (∀ v : BitVec 8, v ≠ 1 → Runs (.fltClearWrite q v) s (·.writeRefused s q Obj.FLT_CLEAR .outOfRange)) ∧
     (∀ v : BitVec 16, Runs (.fltLogAckWrite q v) s (·.writeWaits s q Obj.FLT_LOG_ACK v.toNat)) ∧
     (s.isExpert q = true → Runs (.fltLogZero q) s (·.writeWaits s q Obj.FLT_LOG_CTRL 1)) ∧
     (s.isExpert q = false → Runs (.fltLogZero q) s (·.writeRefused s q Obj.FLT_LOG_CTRL .expertRequired) ∧
       ∀ v, Runs (.frzCtrlFreeze q v) s (·.writeRefused s q Obj.FRZ_CTRL .expertRequired)) ∧
     (s.isExpert q = true → Runs (.frzCtrlFreeze q 1) s (fun t => t.cufel.after = some .freeze ∧
       t.answers q 0x02 .ok (keyBytes Obj.FRZ_CTRL ++ bytesLE 6 ((s.xc + 1) % 2 ^ 48)) ∧
       t.keepsObjects s [Obj.CHK_ALIVE_TXN, Obj.CHK_ALIVE_TXC] ∧ { t with obj := s.obj, cufel := s.cufel } = s)))

/-- The probe goes from FILL over ARMED, POST and COPY to READY, records its trigger position and writes the capture to
the scratchpad. (R74; R75; R76; R77; R79; R81) Rests on log entries 90 and 131, the model's own choices. -/
def Obligations.TheProbeCapturesInOrder : Prop :=
  ∀ s : State, s.awake = true →
    (∀ (k : Fin 32) (l : List (Fin 1024)), s.o Obj.PRB_STATE = 1 → l.length = s.o Obj.PRB_PRE →
      (s.o Obj.PRB_MODE = 0 → Runs (.prbFillDone k l) s (fun t => t.o Obj.PRB_STATE = 2 ∧
        t.keepsObjects s [Obj.PRB_STATE] ∧ { t with obj := s.obj, probe := s.probe } = s)) ∧
      (s.o Obj.PRB_MODE = 1 → s.probe.fire = none → Runs (.prbFillDone k l) s (fun t => t.o Obj.PRB_STATE = 2 ∧
        t.keepsObjects s [Obj.PRB_STATE] ∧ { t with obj := s.obj, probe := s.probe } = s)) ∧
      (∀ p : Nat, s.o Obj.PRB_MODE = 1 → s.probe.fire = some (s.tick, s.xc, p) → 128 * k.val < p →
        Runs (.prbFillDone k l) s (fun t => t.o Obj.PRB_STATE = 3 ∧ t.o Obj.PRB_TCROSS = s.xc ∧ t.o Obj.PRB_TPOS = p / 2 ∧
          t.keepsObjects s [Obj.PRB_STATE, Obj.PRB_TCROSS, Obj.PRB_TPOS] ∧ { t with obj := s.obj, probe := s.probe } = s)) ∧
      (s.o Obj.PRB_MODE = 2 → Runs (.prbFillDone k l) s (fun t => t.o Obj.PRB_STATE = 3 ∧
        t.o Obj.PRB_TCROSS = (if k.val = 0 then (s.xc + 2 ^ 48 - 1) % 2 ^ 48 else s.xc % 2 ^ 48) ∧
        t.o Obj.PRB_TPOS = (if k.val = 0 then 31 else k.val - 1) * 64 ∧
        t.keepsObjects s [Obj.PRB_STATE, Obj.PRB_TCROSS, Obj.PRB_TPOS] ∧ { t with obj := s.obj, probe := s.probe } = s))) ∧
    (∀ (k : Fin 32) (l : List (Fin 1024)), s.o Obj.PRB_STATE ≠ 1 → exec (.prbFillDone k l) s = .next s) ∧
    (∀ (k : Fin 32) (b : Fin 1024), s.o Obj.PRB_STATE = 2 → s.o Obj.PRB_MODE = 0 → 0 < k.val →
      (s.o Obj.PRB_SLOPE = 0 → s.probe.comp = .low → s.probe.last < s.o Obj.PRB_LEVEL → s.o Obj.PRB_LEVEL ≤ b.val →
        Runs (.prbTrigger k [b]) s (fun t => t.o Obj.PRB_STATE = 3 ∧ t.o Obj.PRB_TCROSS = s.xc % 2 ^ 48 ∧
          t.o Obj.PRB_TPOS = (k - 1) * 64 + min 63 (64 * (s.o Obj.PRB_LEVEL - s.probe.last) / (b - s.probe.last)) ∧
          t.keepsObjects s [Obj.PRB_STATE, Obj.PRB_TCROSS, Obj.PRB_TPOS] ∧ { t with obj := s.obj, probe := s.probe } = s)) ∧
      (s.o Obj.PRB_SLOPE = 1 → s.probe.comp = .high → s.o Obj.PRB_LEVEL < s.probe.last → b.val ≤ s.o Obj.PRB_LEVEL →
        Runs (.prbTrigger k [b]) s (fun t => t.o Obj.PRB_STATE = 3 ∧ t.o Obj.PRB_TCROSS = s.xc % 2 ^ 48 ∧
          t.o Obj.PRB_TPOS = (k - 1) * 64 + min 63 (64 * (s.probe.last - s.o Obj.PRB_LEVEL) / (s.probe.last - b)) ∧
          t.keepsObjects s [Obj.PRB_STATE, Obj.PRB_TCROSS, Obj.PRB_TPOS] ∧ { t with obj := s.obj, probe := s.probe } = s))) ∧
    (∀ (k : Fin 32) (l : List (Fin 1024)), s.o Obj.PRB_STATE = 2 → s.o Obj.PRB_MODE = 0 → s.o Obj.PRB_SLOPE = 0 →
      (∀ b ∈ l, b.val < s.o Obj.PRB_LEVEL) →
      Runs (.prbTrigger k l) s (fun t => t.keepsObjects s [] ∧ { t with obj := s.obj, probe := s.probe } = s)) ∧
    (∀ (k : Fin 32) (l : List (Fin 1024)), s.o Obj.PRB_STATE ≠ 2 ∨ s.o Obj.PRB_MODE ≠ 0 → exec (.prbTrigger k l) s = .next s) ∧
    (∀ l : List (Fin 1024), s.o Obj.PRB_STATE = 3 → l.length = 8192 →
      exec (.prbPostDone l) s = .next { s.setO Obj.PRB_STATE 4 with probe := { s.probe with samples := l.map Fin.val } }) ∧
    (∀ l : List (Fin 1024), s.o Obj.PRB_STATE ≠ 3 → exec (.prbPostDone l) s = .next s) ∧
    (s.cufel.down = true → exec .prbCopyDone s = .next s) ∧
    (s.o Obj.PRB_STATE = 4 → s.cufel.down = false → Runs .prbCopyDone s (fun t =>
      t.o Obj.PRB_STATE = 5 ∧ t.o Obj.PRB_CAPTURES = satAdd 32 (s.o Obj.PRB_CAPTURES) 1 ∧
      (∀ a, a < 0x5A8000 ∨ 0x5A8000 + 2 * s.probe.samples.length ≤ a → memGet t.spm a = memGet s.spm a) ∧
      memRead t.spm 0x5A8000 (2 * s.probe.samples.length) =
        (prbWords (s.o Obj.PRB_PRE) s.probe.samples).flatMap (bytesLE 2) ∧
      t.keepsObjects s [Obj.PRB_STATE, Obj.PRB_CAPTURES] ∧ { t with obj := s.obj, spm := s.spm } = s)) ∧
    (s.o Obj.PRB_STATE ≠ 4 → exec .prbCopyDone s = .next s)

/-- A calibration run counts random edges while the channel is quiet, gets the random source, completes, and its LUT
pends or is rejected. (R101; R102; R103; R104; R105; R106) Rests on log entries 132, 162, 164 and 165, the model's
own choices. -/
def Obligations.CalibrationRunsFillAndComplete : Prop :=
  ∀ (c : Ch) (k : Fin 64) (word : BitVec 160) (w : Fin 80) (s : State), s.awake = true →
    ((s.chan c).timing = .high ∨
        s.randomMet c (if k.val < 32 then 32 * s.tick + k else 32 * (s.tick - 1) + (k - 32)) (startTap word.toNat) = true →
      exec (.calRandomEdge c k word none) s = .next s ∧ exec (.calRandomEdge c k word (some w)) s = .next s) ∧
    ((s.chan c).timing ≠ .high →
      s.randomMet c (if k.val < 32 then 32 * s.tick + k else 32 * (s.tick - 1) + (k - 32)) (startTap word.toNat) = false →
      ∀ x ∈ s.slotOf c,
      (x.random = true ∨ x.src = 2 ∨ s.en c = false → x.cmask.testBit (k % 32) = true → startTap word.toNat < 160 → x.count < 2 ^ 20 →
        Runs (.calRandomEdge c k word none) s (fun t =>
          t.slotOf c = some { x with hist := x.hist.modify (startTap word.toNat) (· + 1), count := x.count + 1 } ∧
          t.ob (Obj.CH_STATUS c) 3 = true ∧ t.keepsObjects s [Obj.CH_STATUS c] ∧
          { t with obj := s.obj, calUnit := s.calUnit } = s)) ∧
      (x.cmask.testBit (k % 32) = false → Runs (.calRandomEdge c k word none) s (fun t =>
          t.slotOf c = some x ∧ t.keepsObjects s [Obj.CH_STATUS c] ∧ { t with obj := s.obj, calUnit := s.calUnit } = s)) ∧
      (x.random = false → x.src ≠ 2 → s.en c = true → x.walkCount < 2 ^ 16 → Runs (.calRandomEdge c k word (some w)) s (fun t =>
          t.slotOf c = some { x with walk := x.walk.modify w (· + 1), walkCount := x.walkCount + 1 } ∧
          t.keepsObjects s [Obj.CH_STATUS c] ∧ { t with obj := s.obj, calUnit := s.calUnit } = s))) ∧
    (∀ x ∈ s.slotOf c, x.src = 0 → x.count < 2 ^ 16 → x.startTick + x.quiet ≤ s.tick →
      Runs (.calQuietExpire c) s (fun t => t.slotOf c = some { x with random := true } ∧ t.ob (Obj.CH_STATUS c) 3 = true ∧
        t.keepsObjects s [Obj.CH_STATUS c] ∧ { t with obj := s.obj, calUnit := s.calUnit } = s)) ∧
    (∀ x ∈ s.slotOf c, x.count = 2 ^ 20 → x.walkCount = 2 ^ 16 → (s.chan c).cal = .accum →
      Runs (.calRunComplete c) s (fun t => t.chan c = { s.chan c with cal := .compute } ∧ t.ob (Obj.CH_STATUS c) 1 = false ∧
        (∀ d, d ≠ c → t.chan d = s.chan d) ∧ t.keepsObjects s [Obj.CH_STATUS c] ∧
        { t with obj := s.obj, chans := s.chans } = s)) ∧
    (s.cufel.down = true → exec (.lutComputeDone c) s = .next s) ∧
    (∀ x ∈ s.slotOf c, s.cufel.down = false → (s.chan c).cal = .compute → lutChecks 20 x.hist x.walk = true →
      s.shiftExempt c = true ∨ lutShift (lutOf 20 0 x.hist) (s.chan c).lut ≤ s.o Obj.TDC_CAL_SHIFTLIM →
      Runs (.lutComputeDone c) s (fun t => (t.chan c).cal = .pending ∧
        (t.chan c).pend.map (·.lut) = some (lutOf 20 0 x.hist) ∧
        (t.chan c).pend.map (·.walk) = some (some (walkLutOf 16 0 x.walk)) ∧ t.ob (Obj.CH_STATUS c) 2 = true ∧
        (∀ d, (t.chan d).lut = (s.chan d).lut ∧ (t.chan d).walk = (s.chan d).walk) ∧ t.keepsMemories s ∧
        t.keepsObjects s (allCh.map fun d => Obj.CH_STATUS d))) ∧
    (∀ x ∈ s.slotOf c, s.cufel.down = false → (s.chan c).cal = .compute → lutChecks 20 x.hist x.walk = false →
      Runs (.lutComputeDone c) s (fun t => (t.chan c).pend = (s.chan c).pend ∧
        t.o Obj.TDC_CAL_REJECT = satAdd 32 (s.o Obj.TDC_CAL_REJECT) 1 ∧ t.ob (Obj.CH_STATUS c) 4 = true ∧
        (∀ d, (t.chan d).lut = (s.chan d).lut ∧ (t.chan d).walk = (s.chan d).walk) ∧ t.keepsMemories s ∧
        t.keepsObjects s (Obj.TDC_CAL_REJECT :: allCh.map fun d => Obj.CH_STATUS d))) ∧
    (s.slotOf c = none → exec (.calQuietExpire c) s = .next s ∧ exec (.calRunComplete c) s = .next s ∧ exec (.lutComputeDone c) s = .next s)

/-- A timing rise from Low starts a hit at 128 K plus the fine bin of its tap; on a busy channel it is an orphan. (R54;
R62; R88; R89; R92; R95) Rests on log entries 129, 162 and 163, the model's own choices. -/
def Obligations.ATimingRiseStartsAHitUnlessBusy : Prop :=
  ∀ (c : Ch) (k : Fin 32) (word : BitVec 160) (rearmed : Bool) (s : State), s.awake = true →
    (∀ p : Fin 161, startTap (2 ^ p.val - 1) = p) ∧
    (∀ p : Fin 150, 0 < p.val → startTap (2 ^ p.val - 1 + 7 * 2 ^ (p.val + 5)) = p) ∧
    ((s.chan c).timing = .unknown → Runs (.timingRise c k word rearmed) s (fun t =>
      t.chan c = { s.chan c with timing := .high } ∧ (∀ d, d ≠ c → t.chan d = s.chan d) ∧ { t with chans := s.chans } = s)) ∧
    ((s.chan c).timing = .low → s.o Obj.TDC_STATE = 2 → s.en c = true → (s.chan c).releaseAt = none → (s.chan c).hit = none →
      s.lutFix = [] →
      Runs (.timingRise c k word true) s (fun t =>
        (t.chan c).timing = .high ∧
        (∃ h ∈ (t.chan c).hit, h.tick = s.tick ∧ h.k = k ∧
          h.toa = k * 128 + (if startTap word.toNat = 160 then 0 else (s.chan c).lut.getD (startTap word.toNat) 0) ∧
          h.data = s.dataOn c ∧
          h.minw = s.o (Obj.TDC_MINW c) ∧ h.lut = (s.chan c).lut ∧ h.walk = (s.chan c).walk ∧ h.saturated = false ∧
          h.te = if (s.chan c).energy = .high then some (k.val * 128) else none) ∧
        (t.chan c).chain = (s.chan c).chain ∧ t.fastOr.hits = s.fastOr.hits + b2n (s.fastorOn c) ∧
        t.o Obj.TDC_OVERRUN = (if startTap word.toNat = 160 then satAdd 32 (s.o Obj.TDC_OVERRUN) 1 else s.o Obj.TDC_OVERRUN) ∧
        (startTap word.toNat = 160 → t.ob (Obj.CH_STATUS c) 6 = true) ∧
        (∀ d, d ≠ c → t.chan d = s.chan d) ∧ t.keepsObjects s [Obj.TDC_OVERRUN, Obj.CH_STATUS c] ∧
        { t with obj := s.obj, chans := s.chans, fastOr := s.fastOr, calUnit := s.calUnit } = s)) ∧
    ((s.chan c).timing = .low → s.o Obj.TDC_STATE = 2 → s.en c = true → (s.chan c).releaseAt = none → (s.chan c).hit ≠ none →
      Runs (.timingRise c k word rearmed) s (fun t =>
        (t.chan c).timing = .high ∧ (t.chan c).hit = (s.chan c).hit ∧ (t.chan c).chain = (s.chan c).chain ∧
        t.o (Obj.CH_ORPHAN c) = satAdd 32 (s.o (Obj.CH_ORPHAN c)) 1 ∧
        t.fastOr.hits = s.fastOr.hits + b2n (s.fastorOn c) ∧
        (∀ d, d ≠ c → t.chan d = s.chan d) ∧ t.keepsObjects s [Obj.CH_ORPHAN c] ∧
        { t with obj := s.obj, chans := s.chans, fastOr := s.fastOr } = s))

/-- A timing fall or the guard completes the hit, its record enters the chain; energy edges and saturation mark the hit.
(R92; R93; R94; R95; R97; R121; R54; R53; R56; R96) Rests on log entries 129 and 162, the model's own choices. -/
def Obligations.FallsEnergyEdgesAndSaturationCompleteTheHit : Prop :=
  (∀ (c : Ch) (k : Fin 32) (word : BitVec 160) (s : State), s.awake = true →
     ((s.chan c).timing = .high → s.o Obj.TDC_STATE = 2 → (s.chan c).hit = none → Runs (.timingFall c k word) s (fun t =>
       t.chan c = { s.chan c with timing := .low } ∧ t.o (Obj.CH_ORPHAN c) = satAdd 32 (s.o (Obj.CH_ORPHAN c)) 1 ∧
       (∀ d, d ≠ c → t.chan d = s.chan d) ∧ t.keepsObjects s [Obj.CH_ORPHAN c] ∧ { t with obj := s.obj, chans := s.chans } = s)) ∧
     ((s.chan c).timing = .high → s.o Obj.TDC_STATE = 2 → (s.chan c).closing = false → s.lutFix = [] → (s.chan c).chain.length < 4 →
       ∀ h ∈ (s.chan c).hit, ∀ tap ∈ stopTap word.toNat ((s.chan c).startIn (32 * s.tick + k)), h.saturated = false → h.data = true →
         h.toa + 8 * max 1 (h.minw % 256) ≤ (32 * (s.tick - h.tick) + k) * 128 + h.lut.getD tap 0 →
         (32 * (s.tick - h.tick) + k) * 128 + h.lut.getD tap 0 < h.toa + 8 * 4095 →
         Runs (.timingFall c k word) s (fun t =>
           t.chan c = { s.chan c with timing := .low, hit := none, chain := (s.chan c).chain ++
             [{ word := hitRecord c h.toa (((32 * (s.tick - h.tick) + k) * 128 + h.lut.getD tap 0 - h.toa) / 8) (h.dt h.toa) h.te.isSome
                 false false h.tpulse (s.o (Obj.CH_HITS c)), tag := h.tick % 128 }] } ∧
           t.o (Obj.CH_HITS c) = (s.o (Obj.CH_HITS c) + 1) % 2 ^ 48 ∧
           (∀ d, d ≠ c → t.chan d = s.chan d) ∧ t.keepsObjects s [Obj.CH_HITS c] ∧
           { t with obj := s.obj, chans := s.chans, calUnit := s.calUnit } = s)) ∧
     ((s.chan c).timing = .high → s.o Obj.TDC_STATE = 2 → (s.chan c).closing = false → stopTap word.toNat ((s.chan c).startIn (32 * s.tick + k)) = none →
       ∀ h ∈ (s.chan c).hit, h.saturated = false → h.minw.testBit 15 = true → Runs (.timingFall c k word) s (fun t =>
         t.chan c = { s.chan c with timing := .low, hit := none } ∧ t.o (Obj.CH_NARROW c) = satAdd 32 (s.o (Obj.CH_NARROW c)) 1 ∧
         (∀ d, d ≠ c → t.chan d = s.chan d) ∧ t.keepsObjects s [Obj.CH_NARROW c] ∧
         { t with obj := s.obj, chans := s.chans, calUnit := s.calUnit } = s)) ∧
     ((s.chan c).energy = .high → exec (.energyFall c) s = .next (s.setChan c { s.chan c with energy := .low })) ∧
     ((s.chan c).energy ≠ .high → exec (.energyFall c) s = .next s)) ∧
  (∀ (c : Ch) (k : Fin 32) (tap : Fin 80) (s : State), s.awake = true →
     (240 ≤ s.o (Obj.FE_THR_E c) → exec (.energyRise c k tap) s = .next s) ∧
     (s.o (Obj.FE_THR_E c) < 240 → (s.chan c).energy = .low → s.o Obj.TDC_STATE = 2 → (s.chan c).timing = .high → s.lutFix = [] →
       ∀ h ∈ (s.chan c).hit, h.te = none → h.saturated = false → Runs (.energyRise c k tap) s (fun t =>
         (t.chan c).energy = .high ∧
         (t.chan c).hit = some { h with te := some ((32 * (s.tick - h.tick) + k) * 128 + 2 * h.walk.getD tap 0) } ∧
         (∀ d, d ≠ c → t.chan d = s.chan d) ∧ t.keepsObjects s [] ∧
         { t with chans := s.chans, fastOr := s.fastOr } = s)) ∧
     (s.o (Obj.FE_THR_E c) < 240 → (s.chan c).energy = .low → s.o Obj.TDC_STATE = 2 → (s.chan c).timing ≠ .high → Runs (.energyRise c k tap) s (fun t =>
         (t.chan c).energy = .high ∧ (t.chan c).hit = (s.chan c).hit ∧ (∀ d, d ≠ c → t.chan d = s.chan d) ∧
         { t with chans := s.chans } = s)) ∧
     ((s.chan c).closing = false → (s.chan c).chain.length < 4 →
       ∀ h ∈ (s.chan c).hit, h.saturated = false → h.data = true → h.toa + 32760 < 4096 * (s.tick + 1 - h.tick) →
       Runs (.totSaturate c) s (fun t =>
         t.chan c = { s.chan c with hit := some { h with saturated := true, calTap := none }, chain := (s.chan c).chain ++
           [{ word := hitRecord c h.toa 0xFFF (h.dt h.toa) h.te.isSome true false h.tpulse (s.o (Obj.CH_HITS c)), tag := h.tick % 128 }] } ∧
         t.o (Obj.CH_HITS c) = (s.o (Obj.CH_HITS c) + 1) % 2 ^ 48 ∧
         (∀ d, d ≠ c → t.chan d = s.chan d) ∧ t.keepsObjects s [Obj.CH_HITS c] ∧
         { t with obj := s.obj, chans := s.chans, calUnit := s.calUnit } = s)) ∧
     ((s.chan c).hit = none → exec (.totSaturate c) s = .next s))

/-- The merge serves the next non-empty chain round-robin; the collector stores an entry, or charges its loss to cap,
budget, lateness, no slice or parity. (R124; R125; R126; R127; R129; R130; R131; R545) Rests on log entries 38, 39,
135 and 136, the model's own choices. -/
def Obligations.AnEntryGoesFromChainToFifoToItsSlice : Prop :=
  ∀ (g h : Grp) (n : Fin 8) (s : State), s.awake = true →
    ((s.group g).fifo.length ≥ 16 → exec (.grpFifoWrite g) s = .next (s.bump (Obj.GRP_FULLCYC g))) ∧
    ((s.group g).fifo.length < 16 → (∀ j : Fin 16, (s.chan (chanOf g j)).chain = []) → exec (.grpFifoWrite g) s = .next s) ∧
    (∀ i : Fin 16, (s.group g).fifo.length < 16 →
      (∀ j : Fin 16, (j.val + 15 * ((s.group g).last + 1)) % 16 < (i.val + 15 * ((s.group g).last + 1)) % 16 →
        (s.chan (chanOf g j)).chain = []) →
      ∀ e ∈ (s.chan (chanOf g i)).chain.head?,
      Runs (.grpFifoWrite g) s (fun t =>
        t.group g = { fifo := (s.group g).fifo ++ [e], last := i } ∧
        t.chan (chanOf g i) = { s.chan (chanOf g i) with chain := (s.chan (chanOf g i)).chain.tail } ∧
        (∀ d, d ≠ chanOf g i → t.chan d = s.chan d) ∧ (∀ h, h ≠ g → t.group h = s.group h) ∧
        t.o (Obj.GRP_PEAK g) = max (s.o (Obj.GRP_PEAK g)) ((s.group g).fifo.length + 1) ∧
        ((s.group g).fifo.length + 1 = s.o (Obj.GRP_LEVEL g) →
          t.o (Obj.GRP_LVL_CNT g) = satAdd 32 (s.o (Obj.GRP_LVL_CNT g)) 1 ∧ t.ob Obj.GRP_LVL_FLAG g = true) ∧
        ((s.group g).fifo.length + 1 ≠ s.o (Obj.GRP_LEVEL g) → t.keepsObjects s [Obj.GRP_PEAK g]) ∧
        t.keepsObjects s [Obj.GRP_PEAK g, Obj.GRP_LVL_CNT g, Obj.GRP_LVL_FLAG, Obj.FLT_LOG_LOST] ∧
        { t with obj := s.obj, chans := s.chans, groups := s.groups, log := s.log } = s)) ∧
    exec (.hitCollect n 0) s = .next { s with asm := { s.asm with start := (s.asm.start + n) % 8 } } ∧
    ((g.val + 8 - (s.asm.start + n) % 8) % 8 < (h.val + 8 - (s.asm.start + n) % 8) % 8 →
      Runs (.hitCollect n (1 <<< g.val)) s (fun t =>
        exec (.hitCollect 0 (1 <<< h.val)) t = exec (.hitCollect n (1 <<< g.val ||| 1 <<< h.val)) s)) ∧
    ((s.group g).fifo = [] → exec (.hitCollect n (1 <<< g.val)) s =
      .next { s with asm := { s.asm with start := (s.asm.start + n) % 8 } }) ∧
    (∀ e ∈ (s.group g).fifo.head?, Runs (.hitCollect n (1 <<< g.val)) s (fun t =>
      t.asm.start = (s.asm.start + n) % 8 ∧
      t.group g = { s.group g with fifo := (s.group g).fifo.tail } ∧ (∀ h, h ≠ g → t.group h = s.group h) ∧
      (e.bad = true → t.o Obj.FLT_PARITY = satAdd 32 (s.o Obj.FLT_PARITY) 1 ∧
        t.o (Obj.GRP_LOSS_CHAIN g) = satAdd 32 (s.o (Obj.GRP_LOSS_CHAIN g)) 1 ∧ t.fastOr.ovf = true ∧
        t.asm = { s.asm with start := t.asm.start, reports := s.asm.reports ++ [e.tag] } ∧ t.keepsObjects s [Obj.FLT_PARITY, Obj.GRP_LOSS_CHAIN g]) ∧
      (e.bad = false → s.tagTick e.tag ∈ s.asm.idle → t.o Obj.ASM_NOSLICE = satAdd 32 (s.o Obj.ASM_NOSLICE) 1 ∧
        t.fastOr.ovf = true ∧ t.asm = { s.asm with start := t.asm.start } ∧ t.keepsObjects s [Obj.ASM_NOSLICE]) ∧
      (e.bad = false → s.tagTick e.tag ∉ s.asm.idle → s.openAt (s.tagTick e.tag) = none →
        t.o (Obj.GRP_LATE g) = satAdd 32 (s.o (Obj.GRP_LATE g)) 1 ∧ t.fastOr.ovf = true ∧
        t.asm = { s.asm with start := t.asm.start } ∧
        t.keepsObjects s [Obj.GRP_LATE g]) ∧
      (∀ x ∈ s.openAt (s.tagTick e.tag), e.bad = false → s.tagTick e.tag ∉ s.asm.idle →
        (x.cap ≤ x.recs.length → t.o (Obj.GRP_LOSS_CAP g) = satAdd 32 (s.o (Obj.GRP_LOSS_CAP g)) 1 ∧ t.fastOr.ovf = true ∧
          t.asm = { (s.mapSlice (s.tagTick e.tag) fun y => { y with ncap := y.ncap + 1 }).asm with start := t.asm.start } ∧
          t.keepsObjects s [Obj.GRP_LOSS_CAP g]) ∧
        (x.recs.length < x.cap → s.o Obj.ASM_CREDIT = 0 →
          t.o (Obj.GRP_LOSS_BUDGET g) = satAdd 32 (s.o (Obj.GRP_LOSS_BUDGET g)) 1 ∧ t.fastOr.ovf = true ∧
          t.asm = { (s.mapSlice (s.tagTick e.tag) fun y => { y with nbud := y.nbud + 1 }).asm with start := t.asm.start } ∧
          t.keepsObjects s [Obj.GRP_LOSS_BUDGET g]) ∧
        (x.recs.length < x.cap → 0 < s.o Obj.ASM_CREDIT →
          t.o Obj.ASM_CREDIT = s.o Obj.ASM_CREDIT - 1 ∧ t.fastOr = s.fastOr ∧
          t.asm = { (s.mapSlice (s.tagTick e.tag) fun y => { y with recs := y.recs ++ [e.word] }).asm with start := t.asm.start } ∧
          t.keepsObjects s [Obj.ASM_CREDIT])) ∧
      { t with obj := s.obj, groups := s.groups, asm := s.asm, fastOr := s.fastOr } = s)) ∧
    (s.asm.reports = [] → exec .lossReportArrive s = .next s) ∧
    (∀ tag ∈ s.asm.reports.head?, Runs .lossReportArrive s (fun t =>
      (s.openAt (s.tagTick tag) = none →
        t = { s.bump Obj.ASM_UNREC with asm := { s.asm with reports := s.asm.reports.tail } }) ∧
      (s.openAt (s.tagTick tag) ≠ none →
        t = { s with asm := { (s.mapSlice (s.tagTick tag) fun y => { y with nup := y.nup + 1 }).asm with
                              reports := s.asm.reports.tail } })))

/-- At tick c + W slice c closes with its loss record, moves into the write-combine buffer and gets its index entry;
full granules drain to their rank. (R133; R134; R135; R136; R137; R150; R151; R153; R157; R140; R536) -/
def Obligations.ADueSliceClosesIntoTheBufferAndDrains : Prop :=
  ∀ (x : OpenSlice) (u : List Upset) (p r a : Nat) (s : State), s.awake = true →
    ((s.asm.opened.all fun o => decide (s.tick < o.tick + s.o Obj.ASM_WINDOW)) = true → exec (.sliceClose u) s = .next s) ∧
    (s.asm.opened.find? (fun o => o.tick + s.o Obj.ASM_WINDOW ≤ s.tick) = some x → s.lb.switch ≠ none →
      Runs .layoutSwitch s (fun t => exec (.sliceClose u) s = exec (.sliceClose u) t)) ∧
    (s.asm.opened.find? (fun o => o.tick + s.o Obj.ASM_WINDOW ≤ s.tick) = some x → s.lb.switch = none →
      (x.kind ≠ .slice → Runs (.sliceClose u) s (fun t =>
        t.asm = { s.asm with opened := s.asm.opened.filter fun o => o.tick ≠ x.tick, closedTick := some s.tick } ∧
        memWord t.spm (s.indexAddr x.x) 4 = indexWord (s.o Obj.LB_WPTR) 0 (decide (x.kind = .discarded)) true ∧
        t.o Obj.ASM_STATE = (if s.o Obj.ASM_STATE = 2 ∧ ∀ o ∈ s.asm.opened, o.tick = x.tick ∨ o.kind = .none then 0 else s.o Obj.ASM_STATE) ∧
        (u = [] → t.keepsSpmOutside s (s.indexAddr x.x) (s.indexAddr x.x + 4) ∧ t.keepsObjects s [Obj.ASM_STATE]) ∧
        { t with obj := s.obj, asm := s.asm, spm := s.spm, log := s.log, memUnit := s.memUnit } = s)) ∧
      (x.kind = .slice → s.lb.wc.length + (packRecords x.records).length ≤ 32768 →
        Runs (.sliceClose u) s (fun t =>
          t.o Obj.ASM_SLICES = (s.o Obj.ASM_SLICES + 1) % 2 ^ 48 ∧
          t.asm = { s.asm with opened := s.asm.opened.filter fun o => o.tick ≠ x.tick, closedTick := some s.tick } ∧
          t.lb.wc = s.lb.wc ++ packRecords x.records ∧
          t.o Obj.LB_WPTR = (s.o Obj.LB_WPTR + (packRecords x.records).length) % ringCap s.lbMode ∧
          t.o Obj.LB_WTOTAL = (s.o Obj.LB_WTOTAL + (packRecords x.records).length) % 2 ^ 64 ∧
          memWord t.spm (s.indexAddr x.x) 4 =
            indexWord (s.o Obj.LB_WPTR) x.records.length (decide (0 < x.ncap + x.nbud + x.nup)) false ∧
          (u = [] → t.keepsSpmOutside s (s.indexAddr x.x) (s.indexAddr x.x + 4)) ∧
          t.rankMem = s.rankMem ∧ t.nvm = s.nvm ∧
          (0 < x.ncap + x.nbud + x.nup → t.o Obj.ASM_TRUNC = satAdd 32 (s.o Obj.ASM_TRUNC) 1 ∧ t.o Obj.ASM_LOSSX = x.x) ∧
          { t with obj := s.obj, asm := s.asm, lb := s.lb, spm := s.spm, log := s.log, fastOr := s.fastOr,
                   memUnit := s.memUnit } = s)) ∧
      (x.kind = .slice → 32768 < s.lb.wc.length + (packRecords x.records).length →
        Runs (.sliceClose u) s (fun t =>
          t.o Obj.ASM_SLICES = (s.o Obj.ASM_SLICES + 1) % 2 ^ 48 ∧
          t.lb.wc = s.lb.wc ∧ t.o Obj.LB_WPTR = s.o Obj.LB_WPTR ∧
          t.watch.raised = s.watch.raised ++
            (if ∃ r ∈ s.watch.retiredAt, (s.tick - r) * 1000000 ≤ 20 * s.o Obj.CLK_FX_NOM then [] else [(1, 0)]) ∧
          t.o Obj.ASM_WC_SPILL = satAdd 32 (s.o Obj.ASM_WC_SPILL) x.kept.length ∧ t.o Obj.ASM_WC_SPILLX = x.x ∧
          memWord t.spm (s.indexAddr x.x) 4 = indexWord (s.o Obj.LB_WPTR) 0 true true ∧
          (u = [] → t.keepsSpmOutside s (s.indexAddr x.x) (s.indexAddr x.x + 4)) ∧
          t.rankMem = s.rankMem ∧ t.nvm = s.nvm ∧
          { t with obj := s.obj, asm := s.asm, lb := s.lb, spm := s.spm, log := s.log, fastOr := s.fastOr,
                   memUnit := s.memUnit, watch := { s.watch with raised := t.watch.raised } } =
            { s with watch := { s.watch with raised := t.watch.raised } }))) ∧
    (s.lb.drainHeld = true ∨ s.o Obj.LB_STATE = 5 ∨ s.lb.wc.length < 64 → exec (.wcBurstDrain u) s = .next s) ∧
    (s.place s.wcBase = .nowhere → exec (.wcBurstDrain u) s = .next s) ∧
    (s.place s.wcBase = .rank p r a → s.o (Obj.DRM_RSTATE r) ≠ 3 → exec (.wcBurstDrain u) s = .next s) ∧
    (s.lb.drainHeld = false → s.o Obj.LB_STATE ≠ 5 → 64 ≤ s.lb.wc.length →
      (s.place s.wcBase = .rank p r a → s.o (Obj.DRM_RSTATE r) = 3 → Runs (.wcBurstDrain []) s (fun t =>
        t.rankMem = s.rankMem.set (rankFin r) (memWrite (s.rankData r) a (s.lb.wc.take 64)) ∧
        t.lb = { s.lb with wc := s.lb.wc.drop 64, wcSlices := dropSlices s.lb.wcSlices 64 } ∧
        t.o (Obj.DRM_WRITES r) = (s.o (Obj.DRM_WRITES r) + 1) % 2 ^ 64 ∧ t.keepsObjects s [Obj.DRM_WRITES r] ∧
        { t with obj := s.obj, rankMem := s.rankMem, lb := s.lb, memUnit := s.memUnit } = s)) ∧
      (s.place s.wcBase = .spm a → exec (.wcBurstDrain []) s = .next
        { s with spm := memWrite s.spm a (s.lb.wc.take 64),
                 lb := { s.lb with wc := s.lb.wc.drop 64, wcSlices := dropSlices s.lb.wcSlices 64 } }))

/-- The tick that ends a rate gate latches every channel's count and clears it; a valid LUT from an expert pends for the
next APPLY. (R90; R110; R113; R114; R268; R466; R468) Rests on log entry 134, the model's own choice. -/
def Obligations.AGateEndLatchesTheRatesAndAHostLutPends : Prop :=
  ∀ (c : Ch) (l : List Byte) (q : Req) (s : State),
    (s.awake = true → s.o Obj.TDC_RM_STATE = 1 → s.rmGate + s.o Obj.TDC_RM_GATE ≤ s.tick → s.rateReading = true →
      Runs .rmGateEnd s (fun t =>
        (∀ d : Ch, t.o (Obj.CH_RATE d) = (s.chan d).rmCnt ∧ t.chan d = { s.chan d with rmCnt := 0 }) ∧
        t.o Obj.TDC_RM_SEQ = (s.o Obj.TDC_RM_SEQ + 1) % 2 ^ 32 ∧ t.rateHist = s.rateHist ∧
        t.cmp = { s.cmp with ratePend := some (allCh.map (fun d => (s.chan d).rmCnt), t.o Obj.TDC_RM_SEQ) } ∧
        t.keepsObjects s (Obj.TDC_RM_SEQ :: Obj.TDC_RM_LASTX :: allCh.map fun d => Obj.CH_RATE d) ∧
        { t with obj := s.obj, chans := s.chans, rmGate := s.rmGate, cmp := s.cmp } = s)) ∧
    (s.awake = true → s.o Obj.TDC_RM_STATE = 1 → s.rmGate + s.o Obj.TDC_RM_GATE ≤ s.tick → s.rateReading = false →
      Runs .rmGateEnd s (fun t =>
        (∀ d : Ch, t.o (Obj.CH_RATE d) = (s.chan d).rmCnt ∧ t.chan d = { s.chan d with rmCnt := 0 }) ∧
        t.o Obj.TDC_RM_SEQ = (s.o Obj.TDC_RM_SEQ + 1) % 2 ^ 32 ∧ t.o Obj.CMP_RATEHIST_SEQ = t.o Obj.TDC_RM_SEQ ∧
        t.o Obj.TDC_RM_LASTX = s.xc ∧ t.rmGate = s.rmGate + s.o Obj.TDC_RM_GATE ∧
        t.rateHist = allCh.map (fun d => (s.chan d).rmCnt) ∧
        t.keepsObjects s (Obj.TDC_RM_SEQ :: Obj.TDC_RM_LASTX :: Obj.CMP_RATEHIST_SEQ :: allCh.map fun d => Obj.CH_RATE d) ∧
        t.cmp = { s.cmp with ratePend := none } ∧
        { t with obj := s.obj, chans := s.chans, rmGate := s.rmGate, rateHist := s.rateHist, cmp := s.cmp } = s)) ∧
    (s.awake = true → s.o Obj.TDC_RM_STATE ≠ 1 ∨ s.tick < s.rmGate + s.o Obj.TDC_RM_GATE → exec .rmGateEnd s = .next s) ∧
    (s.servedFor q = true → s.isExpert q = false →
      Runs (.tdcLutWrite q c l) s (·.onlyAnswered s q 0x04 .expertRequired (blockBody (Obj.TDC_LUT c) 0 0 0))) ∧
    (s.servedFor q = true → s.isExpert q = true → l.length ≠ 160 →
      Runs (.tdcLutWrite q c l) s (·.onlyAnswered s q 0x04 .length (blockBody (Obj.TDC_LUT c) 0 0 0))) ∧
    (s.servedFor q = true → s.isExpert q = true → l.length = 160 → lutValid (l.map BitVec.toNat) = false →
      Runs (.tdcLutWrite q c l) s (·.onlyAnswered s q 0x04 .outOfRange (blockBody (Obj.TDC_LUT c) 0 0 0))) ∧
    (s.servedFor q = true → s.isExpert q = true → l.length = 160 → lutValid (l.map BitVec.toNat) = true →
      Runs (.tdcLutWrite q c l) s (fun t =>
        t.answers q 0x04 .ok (blockBody (Obj.TDC_LUT c) 2 160 160) ∧
        t.chan c = { s.chan c with
          pend := none,
          host := some { lut := l.map BitVec.toNat, walk := none, taps := bits (s.o (Obj.CH_STATUS c)) 15 8, src := 1,
                         madeTick := s.tick, applied := none },
          cal := if (s.chan c).cal = .pending then .wait else (s.chan c).cal } ∧
        (∀ d, d ≠ c → t.chan d = s.chan d) ∧ t.ob (Obj.CH_STATUS c) 2 = true ∧
        t.keepsObjects s [Obj.CH_STATUS c, Obj.CHK_ALIVE_TXN, Obj.CHK_ALIVE_TXC] ∧
        { t with obj := s.obj, chans := s.chans, cufel := s.cufel } = s))

/-- S takes the retired rank's place, the migration copies slice by slice down to the floor, and a layout switch starts
the ring again. (R163; R164; R165; R166; R168; R367) Rests on log entry 168, the model's own choice. -/
def Obligations.TheLatencyBufferMigratesAndSwitchesLayout : Prop :=
  ∀ (u : List Upset) (p : PendSwitch) (s : State), s.awake = true →
    (s.o Obj.LB_STATE = 2 → s.o (Obj.DRM_RSTATE 2) = 3 → s.lb.switch = none → s.pos0 = s.lb.migRank ∨ s.pos1 = s.lb.migRank →
      Runs .spareMapped s (fun t =>
        t.o Obj.LB_RANKMAP = (if s.pos0 = s.lb.migRank then 2 else s.pos0) * 16 + (if s.pos1 = s.lb.migRank then 2 else s.pos1) * 4 ∧
        t.lb = { s.lb with drainHeld := false } ∧ { t with obj := s.obj, lb := s.lb, log := s.log } = s)) ∧
    (s.o Obj.LB_STATE ≠ 2 ∨ s.o (Obj.DRM_RSTATE 2) ≠ 3 ∨ s.lb.switch ≠ none → exec .spareMapped s = .next s) ∧
    (s.o Obj.LB_STATE ≠ 2 ∨ s.lb.drainHeld = true → exec (.migrationCopy u) s = .next s) ∧
    (s.o Obj.LB_STATE = 2 → s.lb.drainHeld = false → s.o Obj.LB_MIGPTR = 0 ∨ s.o Obj.LB_MIGPTR ≤ s.o Obj.LB_FLOOR →
      Runs (.migrationCopy u) s (fun t => t.o Obj.LB_STATE = 1 ∧ t.lb = { s.lb with migRank := 3 } ∧
        (s.o (Obj.DRM_RSTATE s.lb.migRank) = 7 → t.o (Obj.DRM_RSTATE s.lb.migRank) = 8) ∧
        { t with obj := s.obj, lb := s.lb, log := s.log } = s)) ∧
    (s.o Obj.LB_STATE = 2 → s.lb.drainHeld = false → s.o Obj.LB_FLOOR < s.o Obj.LB_MIGPTR →
      Runs (.migrationCopy u) s (fun t =>
        t.o Obj.LB_MIGPTR = s.o Obj.LB_MIGPTR - 1 ∧ t.o Obj.LB_STATE = 2 ∧ t.nvm = s.nvm ∧
        t.rankMem = s.rankMem.set 2 (t.rankData 2) ∧
        (s.o Obj.LB_MIGPTR - 1 < s.o Obj.LB_LOSTBELOW ∨ s.migWords (s.o Obj.LB_MIGPTR - 1) = [] →
          t = s.setO Obj.LB_MIGPTR (s.o Obj.LB_MIGPTR - 1)) ∧
        (s.o Obj.LB_LOSTBELOW ≤ s.o Obj.LB_MIGPTR - 1 → ∀ a ∈ (s.migWords (s.o Obj.LB_MIGPTR - 1)).head?,
          ((s.decodedBeat s.lb.migRank a u).1 = .uncorrectable →
            t.o Obj.LB_MIG_LOST = satAdd 32 (s.o Obj.LB_MIG_LOST) 1 ∧ t.o Obj.LB_MIG_COPIED = s.o Obj.LB_MIG_COPIED ∧
            t.rankMem = s.rankMem ∧ t.spm = (s.markLost (s.o Obj.LB_MIGPTR - 1)).spm) ∧
          ((s.decodedBeat s.lb.migRank a u).1 ≠ .uncorrectable → s.migWords (s.o Obj.LB_MIGPTR - 1) = [a] →
            t.o Obj.LB_MIG_COPIED = satAdd 32 (s.o Obj.LB_MIG_COPIED) 1 ∧ t.o Obj.LB_MIG_LOST = s.o Obj.LB_MIG_LOST ∧
            t.rankData 2 = memWrite (s.rankData 2) a (s.decodedBeat s.lb.migRank a u).2 ∧ t.spm = s.spm)))) ∧
    (s.lb.switch = none → exec .layoutSwitch s = .next s) ∧
    (s.lb.switch = some p → s.tick < p.from_ ∨ s.o Obj.LB_STATE = 5 ∨ s.asm.closedTick = some s.tick →
      exec .layoutSwitch s = .next s) ∧
    (s.lb.switch = some p → p.from_ ≤ s.tick → s.o Obj.LB_STATE ≠ 5 → s.asm.closedTick ≠ some s.tick →
      s.switchPlan p.kind = none → exec .layoutSwitch s = .next { s with lb := { s.lb with switch := none } }) ∧
    s.switchPlan .enterMaq = some (4, 3, 3) ∧
    (s.canServe 0 = true → s.canServe 1 = true → s.switchPlan .leaveMaq = some (1, 0, 1)) ∧
    (s.canServe 0 = false → s.canServe 1 = false → s.canServe 2 = false → s.switchPlan .leaveMaq = none) ∧
    (s.lb.switch = some p → p.from_ ≤ s.tick → s.o Obj.LB_STATE ≠ 5 → s.asm.closedTick ≠ some s.tick →
      ∀ m ∈ s.switchPlan p.kind, p.kind ≠ .loss ∨ m.1 ≠ 3 ∨ s.o (Obj.DRM_RSTATE m.2.1) = 3 →
      Runs .layoutSwitch s (fun t =>
        t.o Obj.LB_STATE = m.1 ∧ t.pos0 = m.2.1 ∧ t.pos1 = m.2.2 ∧ t.o Obj.LB_LOSTBELOW = max (s.o Obj.LB_LOSTBELOW) (s.xc - s.o Obj.ASM_WINDOW) ∧
        t.o Obj.LB_WPTR = 0 ∧ t.o Obj.LB_SWITCHES = satAdd 32 (s.o Obj.LB_SWITCHES) 1 ∧
        t.o Obj.LB_DISCARD = satAdd 32 (s.o Obj.LB_DISCARD) s.lb.wcSlices.length ∧
        t.o Obj.ASM_CREDIT_RATE = (if m.1 = 4 then 6 else 12) ∧
        t.lb.wc = [] ∧ t.lb.closed = [] ∧ t.lb.first = none ∧ t.lb.epoch = max s.lb.epoch (s.tick - s.o Obj.ASM_WINDOW) ∧ t.lb.switch = none ∧
        t.lb.drainHeld = false ∧ (∀ r : Fin 3, s.o (Obj.DRM_RSTATE r) = 7 → t.o (Obj.DRM_RSTATE r) = 8) ∧
        { t with obj := s.obj, lb := s.lb, log := s.log } = s))

/-- In undisturbed service a tick starts the next crossing, opens its slice with the caps in force, adds the credit, and
puts the waiting LIVE write in force. (R408; R414; R32; R129; R131; R144; R491; R36) Rests on log entry 161, the
model's own choice. -/
def Obligations.ATickCountsOpensTheNextSliceAndAppliesWrites : Prop :=
  ∀ (c : Ch) (v : Nat) (u : List Upset) (sent : Bool) (s : State), s.awake = true → s.inRun = true → s.clk.resume = false →
    s.power.deferred = [] → s.power.toDisable = [] → s.power.reenable = [] → s.power.parking = none → s.power.reinit = [] →
    s.frz.thawed = false → s.cufel.tlm = none → s.o Obj.CLK_STATE = 3 →
    s.livePend = [] ∨ s.livePend = [(Obj.TDC_MINW c, v)] → s.lb.switch = none →
    s.clk.marker = some s.tick → s.due = [] → s.alignPend = none → (s.time.waiting.all fun m => decide (s.tick ≤ m.tick)) = true →
    (∀ k : Fin 8, s.alarmDue k = false) → s.applied = [] → (∀ x ∈ s.sched, x.tick ≠ s.tick + 1) →
    Runs (.crossingTick u sent) s (fun t =>
      t.tick = s.tick + 1 ∧ t.clk.started = true ∧
      t.xc = (if s.clk.started = true ∧ s.xc + 1 < 2 ^ 48 then s.xc + 1 else 0) ∧
      t.livePend = [] ∧ (s.livePend = [(Obj.TDC_MINW c, v)] → t.o (Obj.TDC_MINW c) = v) ∧
      (s.livePend = [] → t.o (Obj.TDC_MINW c) = s.o (Obj.TDC_MINW c)) ∧
      (s.clk.started = true → 2 ^ 48 - 1 ≤ s.xc → t.o Obj.XC_WRAPS = satAdd 32 (s.o Obj.XC_WRAPS) 1) ∧
      t.fastOr = {} ∧
      (s.o Obj.ASM_STATE = 1 →
        t.asm.opened = (s.asm.opened.filter fun o => decide (s.tick < o.tick + s.o Obj.ASM_WINDOW)) ++ [{ kind := .slice, tick := s.tick + 1, x := t.xc, cap := s.o Obj.ASM_CAP, recs := [], ncap := 0, nbud := 0, nup := 0 }]) ∧
      (s.o Obj.ASM_STATE ≠ 3 →
        t.o Obj.ASM_CREDIT = min (s.o Obj.ASM_CREDIT_DEPTH) (s.o Obj.ASM_CREDIT + s.o Obj.ASM_CREDIT_RATE)))

/-- A turn marker swaps every READY LUT at once, and an alarm pulses once at the first tick whose time has reached it.
(R106; R409; R36; R492; R421; R448) Rests on log entries 133, 161 and 166, the model's own choices. -/
def Obligations.TurnMarkersSwapLutsAndAlarmsFireOnce : Prop :=
  (∀ (c : Ch) (x : Sched) (n v : Nat) (s : State), s.awake = true →
     (s.due = [] → s.alignPend = none → s.tickNumber = s.xc) ∧
     (s.due = [x] → x.code = 3 → s.alignPend = none → s.o Obj.PWR_STATE ≠ 4 → s.tickNumber = x.n0) ∧
     (s.clk.started = false ∨ s.clk.marker = some s.tick → exec .turnMarker s = .next s) ∧
     (s.clk.started = true → s.clk.marker ≠ some s.tick → s.tickNumber % s.o Obj.XC_TURN_LEN ≠ 0 →
       exec .turnMarker s = .next { s with clk := { s.clk with marker := some s.tick } }) ∧
     (s.clk.started = true → s.clk.marker ≠ some s.tick → s.tickNumber % s.o Obj.XC_TURN_LEN = 0 →
       Runs .turnMarker s (fun t =>
         t.clk = { s.clk with marker := some s.tick } ∧ t.lutFix = [] ∧ t.keepsMemories s ∧ t.tick = s.tick ∧
         (s.applied = [(n, [(Obj.TDC_CAL_EXCLE, v)])] →
           (n ≤ s.tick → t.applied = [] ∧ t.o Obj.TDC_CAL_EXCLE = v) ∧
           (s.tick < n → t.applied = s.applied ∧ t.o Obj.TDC_CAL_EXCLE = s.o Obj.TDC_CAL_EXCLE)) ∧
         (s.applied = [] → t.applied = [] ∧ t.xc = s.xc ∧
           (t.chan c).host = (s.chan c).host ∧
           (∀ p ∈ (s.chan c).pend, p.src = 0 → s.swapReady p = true → (s.chan c).hostDue.filter s.swapReady = [] →
             (t.chan c).lut = p.lut ∧ (t.chan c).walk = p.walk.getD (s.chan c).walk ∧ (t.chan c).pend = none ∧
             (t.chan c).hostDue = (s.chan c).hostDue ∧ t.o (Obj.TDC_LUTGEN c) = (s.o (Obj.TDC_LUTGEN c) + 1) % 2 ^ 32) ∧
           (∀ p ∈ ((s.chan c).hostDue.filter s.swapReady).getLast?, p.src = 1 → (s.chan c).pend.filter s.swapReady = none →
             (t.chan c).lut = p.lut ∧ (t.chan c).walk = p.walk.getD (s.chan c).walk ∧
             (t.chan c).hostDue = (s.chan c).hostDue.filter (fun y => p.applied.getD 0 < y.applied.getD 0) ∧
             (t.chan c).pend = (s.chan c).pend ∧ t.o (Obj.TDC_LUTGEN c) = (s.o (Obj.TDC_LUTGEN c) + 1) % 2 ^ 32) ∧
           (∀ a ∈ (s.chan c).pend, ∀ p ∈ ((s.chan c).hostDue.filter s.swapReady).getLast?, a.src = 0 → p.src = 1 → s.swapReady a = true →
             (t.chan c).lut = p.lut ∧ (t.chan c).walk = p.walk.getD (a.walk.getD (s.chan c).walk) ∧ (t.chan c).pend = none ∧
             t.o (Obj.TDC_LUTGEN c) = ((s.o (Obj.TDC_LUTGEN c) + 1) % 2 ^ 32 + 1) % 2 ^ 32) ∧
           ((s.chan c).pend.filter s.swapReady = none → (s.chan c).hostDue.filter s.swapReady = [] →
             (t.chan c).lut = (s.chan c).lut ∧ (t.chan c).walk = (s.chan c).walk ∧ (t.chan c).pend = (s.chan c).pend ∧
             (t.chan c).hostDue = (s.chan c).hostDue ∧ t.o (Obj.TDC_LUTGEN c) = s.o (Obj.TDC_LUTGEN c)))))) ∧
  (∀ (k : Fin 8) (s : State), s.awake = true →
     ((∀ j : Fin 8, j ≤ k → s.o (Obj.NT_AL_STATE j) ≠ 1 ∨ s.nt / 2 ^ 32 < s.o (Obj.NT_AL_TIME j)) → exec (.alarmFire k) s = .next s) ∧
     (∀ j : Fin 8, j < k → (∀ i : Fin 8, i < k → i ≠ j → s.alarmDue i = false) →
       Runs (.alarmFire j) s (fun t => t.alarmDue j = false → exec (.alarmFire k) s = exec (.alarmFire k) t)) ∧
     (s.o (Obj.NT_AL_STATE k) = 1 → s.o (Obj.NT_AL_TIME k) ≤ s.nt / 2 ^ 32 → (∀ j : Fin 8, j < k → s.alarmDue j = false) →
       Runs (.alarmFire k) s (fun t =>
         t.o (Obj.NT_AL_FIRED k) = satAdd 32 (s.o (Obj.NT_AL_FIRED k)) 1 ∧ t.o (Obj.NT_AL_LASTX k) = s.xc ∧
         (s.o (Obj.NT_AL_PERIOD k) = 0 → t.o (Obj.NT_AL_STATE k) = 0 ∧ t.o (Obj.NT_AL_TIME k) = s.o (Obj.NT_AL_TIME k)) ∧
         (s.o (Obj.NT_AL_PERIOD k) ≠ 0 → t.o (Obj.NT_AL_STATE k) = 1 ∧
           t.o (Obj.NT_AL_TIME k) = (s.o (Obj.NT_AL_TIME k) +
             ((s.nt / 2 ^ 32 - s.o (Obj.NT_AL_TIME k)) / s.o (Obj.NT_AL_PERIOD k) + 1) * s.o (Obj.NT_AL_PERIOD k)) % 2 ^ 64) ∧
         t.o (Obj.NT_AL_LATE k) = satAdd 32 (satAdd 32 (s.o (Obj.NT_AL_LATE k))
             (if s.o Obj.CLK_STATE = 1 ∨ s.o Obj.CLK_STATE = 4 ∨
               (∃ m ∈ s.time.step, m.1 = s.tick ∧ m.2 / 2 ^ 32 < s.o (Obj.NT_AL_TIME k)) then 1 else 0))
           (if s.o (Obj.NT_AL_PERIOD k) = 0 then 0 else (s.nt / 2 ^ 32 - s.o (Obj.NT_AL_TIME k)) / s.o (Obj.NT_AL_PERIOD k)) ∧
         (s.o (Obj.NT_AL_ACTION k) % 2 = 1 →
           (s.o Obj.HK_STATE = 0 → t.o Obj.HK_STATE = 0 ∧ t.hk = s.hk) ∧
           (s.o Obj.HK_STATE = 1 → 0 < s.o Obj.HK_SEQ_LEN → s.ob (Obj.HK_ENTRY 0) 63 = true →
             hkEntryValid (s.o Obj.HK_MUX_MODE) (s.o (Obj.HK_ENTRY 0)) = true → t.o Obj.HK_STATE = 2 ∧ t.hk.entry = some 0) ∧
           (2 ≤ s.o Obj.HK_STATE → s.o Obj.HK_START_PEND = 0 → t.o Obj.HK_START_PEND = 1) ∧
           (2 ≤ s.o Obj.HK_STATE → s.o Obj.HK_START_PEND ≠ 0 → t.o Obj.HK_START_PEND = s.o Obj.HK_START_PEND ∧
             t.o Obj.HK_START_MISSED = satAdd 32 (s.o Obj.HK_START_MISSED) 1)) ∧
         (s.o (Obj.NT_AL_ACTION k) % 2 = 0 →
           t.keepsObjects s [Obj.NT_AL_FIRED k, Obj.NT_AL_LASTX k, Obj.NT_AL_STATE k, Obj.NT_AL_TIME k, Obj.NT_AL_LATE k,
                             Obj.CF_TLM_LATE, Obj.FLT_LOG_LOST] ∧
           { t with obj := s.obj, cufel := s.cufel, log := s.log } = s) ∧
         (s.o (Obj.NT_AL_ACTION k) % 8 = 2 → s.cufel.tlm = none → t.cufel.tlm = some (s.xc, s.nt / 2 ^ 32)) ∧
         (s.o (Obj.NT_AL_ACTION k) % 8 = 2 → s.cufel.tlm ≠ none →
           t.cufel = s.cufel ∧ t.o Obj.CF_TLM_LATE = satAdd 32 (s.o Obj.CF_TLM_LATE) 1) ∧
         (s.o (Obj.NT_AL_ACTION k) % 8 = 4 → s.log.staging.length < 16 →
           t.log.staging.map (·.code) = s.log.staging.map (·.code) ++ [0x0107]))))

/-- TPULSE, TURN and RESYNC commands two crossings or more ahead take a scheduler place; late, reserved and surplus ones
are counted. (R335; R336; R216; R411) -/
def Obligations.CommandsEarlyEnoughAreScheduledAndForwarded : Prop :=
  ∀ (g n : BitVec 48) (code : BitVec 8) (cont : Bool) (s : State), s.awake = true →
    (s.o Obj.RG_LSTATE ≠ 3 → exec (.cmdTpulse g) s = .next s ∧ exec (.cmdTurn g) s = .next s ∧
      exec (.cmdResync g n) s = .next s ∧ exec (.cmdReserved code cont) s = .next s) ∧
    (s.o Obj.RG_LSTATE = 3 →
      let l := (g.toNat + 2 ^ 48 - s.xc) % 2 ^ 48
      let sent (t : State) (w : List Nat) : State :=
        { t with out := s.out ++ s.portsUp.map fun k => Sent.block (.south (portFin k)) 0xA5 w }
      let held (c n0 : Nat) (w : List Nat) : State :=
        { sent s w with sched := s.sched ++ [{ code := c, tick := s.tick + l, tgt := g.toNat, n0 := n0 }] }
      (2 ≤ l → l < 2 ^ 23 → s.sched.length < 64 →
        exec (.cmdTpulse g) s = .next (held 1 0 [2 ^ 48 + g.toNat]) ∧
        exec (.cmdTurn g) s = .next (held 2 0 [2 * 2 ^ 48 + g.toNat]) ∧
        (g ≠ BitVec.allOnes 48 →
          exec (.cmdResync g n) s = .next (held 3 n.toNat [3 * 2 ^ 48 + g.toNat, 3 * 2 ^ 48 + n.toNat]))) ∧
      (2 ≤ l → l < 2 ^ 23 → 64 ≤ s.sched.length →
        exec (.cmdTpulse g) s = .next (sent (s.bump Obj.RG_CMD_FULL) [2 ^ 48 + g.toNat]) ∧
        exec (.cmdTurn g) s = .next (sent (s.bump Obj.RG_CMD_FULL) [2 * 2 ^ 48 + g.toNat]) ∧
        (g ≠ BitVec.allOnes 48 → exec (.cmdResync g n) s =
          .next (sent (s.bump Obj.RG_CMD_FULL) [3 * 2 ^ 48 + g.toNat, 3 * 2 ^ 48 + n.toNat]))) ∧
      (l < 2 ∨ 2 ^ 23 ≤ l →
        exec (.cmdTpulse g) s = .next (sent (s.bump Obj.RG_CMD_LATE) [2 ^ 48 + g.toNat]) ∧
        exec (.cmdTurn g) s = .next (sent (s.bump Obj.RG_CMD_LATE) [2 * 2 ^ 48 + g.toNat]) ∧
        (g ≠ BitVec.allOnes 48 → exec (.cmdResync g n) s =
          .next (sent (s.bump Obj.XC_RSY_LATE) [3 * 2 ^ 48 + g.toNat, 3 * 2 ^ 48 + n.toNat]))) ∧
      (code = 0 ∨ 4 ≤ code.toNat ∨ (code = 3 ∧ cont = false) → exec (.cmdReserved code cont) s = .next (s.bump Obj.RG_CMD_BAD)) ∧
      (code = 1 ∨ code = 2 ∨ (code = 3 ∧ cont = true) → exec (.cmdReserved code cont) s = .next s))

/-- A due TPULSE fires the test pulse once and marks its crossing; TURN and RESYNC commands act at their tick and are
taken away. (R64; R76; R336; R65; R66; R67; R348; R410; R411; R412; R171) Rests on log entry 35, the model's own
choice. -/
def Obligations.TestPulsesTurnsAndResyncsActAtTheirTick : Prop :=
  (∀ (c : Ch) (s : State), s.awake = true →
     ((s.sched.find? fun x => x.tick == s.tick).map (·.code) ≠ some 1 ∨ s.o Obj.PWR_STATE = 4 → exec .tpulseFire s = .next s) ∧
     ((s.sched.find? fun x => x.tick == s.tick).map (·.code) = some 1 → s.o Obj.PWR_STATE ≠ 4 →
       Runs .tpulseFire s (fun t =>
         t.sched = s.sched.filter (fun x => ¬(x.code = 1 ∧ x.tick = s.tick)) ∧
         t.o Obj.FE_TP_DUP = satAdd 32 (s.o Obj.FE_TP_DUP) ((s.sched.filter fun x => x.code = 1 ∧ x.tick = s.tick).length - 1) ∧
         t.o Obj.FE_TP_FIRED = satAdd 32 (s.o Obj.FE_TP_FIRED) 1 ∧ t.o Obj.FE_TP_LASTX = s.tickNumber ∧
         t.o Obj.RG_CMD_DONE = satAdd 32 (s.o Obj.RG_CMD_DONE) 1 ∧ t.o Obj.RG_CMD_LASTX = s.tickNumber ∧
         ((t.o Obj.FE_TP_PHASE : Int) - s.o Obj.FE_TP_PHASE - toSigned 16 (s.o Obj.FE_TP_STEP)) % 4096 = 0 ∧
         t.o Obj.FE_TP_PHASE < 4096 ∧
         t.fastOr = { s.fastOr with tpf := true } ∧
         (s.en c = true → s.ob (Obj.FE_TPULSE c) 8 = true →
           (t.chan c).injected.getLast? = some (s.tick * 4096 + s.o Obj.FE_TP_PHASE)) ∧
         (s.en c = false ∨ s.ob (Obj.FE_TPULSE c) 8 = false → (t.chan c).injected.all (fun i => i ∈ (s.chan c).injected) = true) ∧
         { t.chan c with injected := (s.chan c).injected } = s.chan c ∧
         (s.o Obj.PRB_STATE = 2 → s.o Obj.PRB_MODE = 1 →
           t.o Obj.PRB_STATE = 3 ∧ t.o Obj.PRB_TCROSS = s.tickNumber ∧ t.o Obj.PRB_TPOS = s.o Obj.FE_TP_PHASE / 2) ∧
         (s.o Obj.PRB_STATE ≠ 2 ∨ s.o Obj.PRB_MODE ≠ 1 → t.o Obj.PRB_STATE = s.o Obj.PRB_STATE ∧
           t.o Obj.PRB_TCROSS = s.o Obj.PRB_TCROSS ∧ t.o Obj.PRB_TPOS = s.o Obj.PRB_TPOS) ∧
         t.keepsObjects s [Obj.FE_TP_DUP, Obj.FE_TP_FIRED, Obj.FE_TP_LASTX, Obj.FE_TP_PHASE, Obj.RG_CMD_DONE, Obj.RG_CMD_LASTX,
                           Obj.PRB_STATE, Obj.PRB_TCROSS, Obj.PRB_TPOS] ∧
         { t with obj := s.obj, chans := s.chans, sched := s.sched, fastOr := s.fastOr, probe := s.probe } = s))) ∧
  (∀ (x : Sched) (n : BitVec 48) (r : Fin 32) (s : State), s.awake = true →
     (s.o Obj.PWR_STATE = 4 → exec .turnCheck s = .next s ∧ exec .resyncApply s = .next s) ∧
     (s.sched = [] → exec .turnCheck s = .next s ∧ (s.alignPend = none → exec .resyncApply s = .next s)) ∧
     (s.o Obj.PWR_STATE ≠ 4 → s.sched = [x] → x.tick = s.tick →
       (x.code = 2 → x.tgt % s.o Obj.XC_TURN_LEN = 0 → exec .turnCheck s = .next
         { (s.bump Obj.RG_CMD_DONE).setO Obj.RG_CMD_LASTX s.tickNumber with sched := [] }) ∧
       (x.code = 2 → x.tgt % s.o Obj.XC_TURN_LEN ≠ 0 → Runs .turnCheck s (fun t =>
         t.sched = [] ∧ t.o Obj.XC_PHASE_ERR = satAdd 32 (s.o Obj.XC_PHASE_ERR) 1 ∧ t.o Obj.XC_STATE = 0 ∧
         t.ob Obj.FLT_LATCHED 16 = true ∧ t.o Obj.RG_CMD_DONE = satAdd 32 (s.o Obj.RG_CMD_DONE) 1 ∧ t.xc = s.xc ∧
         (2 * (x.tgt % s.o Obj.XC_TURN_LEN) < s.o Obj.XC_TURN_LEN → x.tgt % s.o Obj.XC_TURN_LEN < 2 ^ 31 →
           t.o Obj.XC_PHASE_LAST = x.tgt % s.o Obj.XC_TURN_LEN) ∧
         { t with obj := s.obj, sched := s.sched, log := s.log, capts := s.capts, free := s.free } = s)) ∧
       (x.code = 3 → s.alignPend = none → s.clk.resync.map (·.1) ≠ some s.tick → Runs .resyncApply s (fun t =>
         t.sched = [] ∧ t.xc = x.n0 ∧ t.o Obj.XC_RESYNCS = satAdd 32 (s.o Obj.XC_RESYNCS) 1 ∧ t.o Obj.XC_LAST_RSX = x.n0 ∧
         t.o Obj.XC_LAST_OLD = s.xc ∧ t.o Obj.XC_STATE = 1 ∧ t.o Obj.RG_CMD_DONE = satAdd 32 (s.o Obj.RG_CMD_DONE) 1 ∧
         (x.n0 ≠ s.xc → s.o Obj.LB_STATE ≠ 0 → t.o Obj.LB_LOSTBELOW = x.n0) ∧ t.tick = s.tick ∧ t.keepsMemories s ∧
         t.chans = s.chans))) ∧
     (s.o Obj.PWR_STATE ≠ 4 → s.sched = [] → s.alignPend = some (s.tick, n.toNat) → s.clk.resync.map (·.1) ≠ some s.tick →
       Runs .resyncApply s (fun t =>
         t.alignPend = none ∧ t.xc = n.toNat ∧ t.o Obj.XC_RESYNCS = satAdd 32 (s.o Obj.XC_RESYNCS) 1 ∧
         t.o Obj.XC_LAST_OLD = s.xc ∧ t.o Obj.XC_STATE = 1 ∧ t.o Obj.RG_CMD_DONE = s.o Obj.RG_CMD_DONE)) ∧
     (s.o Obj.PWR_STATE ≠ 4 → s.sched = [x] → x.tick = s.tick → x.code = 3 → ∀ m ∈ s.clk.resync, m.1 = s.tick →
       Runs .resyncApply s (fun t => t.o Obj.XC_LAST_OLD = m.2)) ∧
     (s.o Obj.RG_LSTATE = 3 → Runs (.alignResyncReceive n r) s (fun t =>
         t.alignPend = some (((s.tick : Int) + (s.alignTick r).1 + 32).toNat, n.toNat) ∧
         t.out = s.out ++ s.portsUp.map (fun k => Sent.block (.south (portFin k)) 0xA5 [2 ^ 50 - 1, 3 * 2 ^ 48 + n.toNat]) ∧
         t.keepsObjects s [Obj.XC_ALIGN_RES] ∧ { t with obj := s.obj, out := s.out, alignPend := s.alignPend } = s)) ∧
     (s.o Obj.RG_LSTATE ≠ 3 → exec (.alignResyncReceive n r) s = .next s))

/-- A query is discarded early or unaddressed, else it joins the queue, normal below QRY_THIN_LEVEL, thin above, or a
refusal run at a full queue. (R179; R189; R191; R193; R176; R215; R216; R219; R334; R343) Rests on log entries 47
and 172, the model's own choices. -/
def Obligations.AQueryIsAdmittedThinnedOrRefused : Prop :=
  ∀ (w : BitVec 112) (f l d : Nat) (s : State), s.awake = true →
    (s.o Obj.RG_LSTATE ≠ 3 ∨ s.dataReady = false → exec (.queryReceive w) s = .next (s.bump Obj.RG_RX_EARLY)) ∧
    (s.o Obj.RG_LSTATE = 3 → s.dataReady = true → s.o Obj.CF_ADDR / 16 = 0xFFF →
      exec (.queryReceive w) s = .next (s.bump Obj.QRY_UNADDR)) ∧
    (s.o Obj.RG_LSTATE = 3 → s.dataReady = true → s.o Obj.CF_ADDR / 16 ≠ 0xFFF →
      Runs (.queryReceive w) s (fun t =>
        t.o Obj.QRY_RECEIVED = (s.o Obj.QRY_RECEIVED + 1) % 2 ^ 48 ∧ t.o Obj.QRY_LASTQID = bits (s.queryWord w.toNat) 111 96 ∧
        t.query.lastQid = some (bits (s.queryWord w.toNat) 111 96) ∧
        (∀ p ∈ s.query.lastQid, t.o Obj.QRY_QIDGAP =
          if bits (s.queryWord w.toNat) 111 96 = (p + 1) % 2 ^ 16 then s.o Obj.QRY_QIDGAP else satAdd 32 (s.o Obj.QRY_QIDGAP) 1) ∧
        (s.query.lastQid = none → t.o Obj.QRY_QIDGAP = s.o Obj.QRY_QIDGAP) ∧
        (s.query.fill < 256 →
          t.query.items = s.query.items ++ [QItem.entry { q := s.makeQuery (s.queryWord w.toNat) s.query.fill, thin := decide (s.o Obj.QRY_THIN_LEVEL ≤ s.query.fill) }] ∧
          t.o Obj.QRY_PEAK = max (s.o Obj.QRY_PEAK) (s.query.fill + 1)) ∧
        (256 ≤ s.query.fill → s.query.items.getLast? = some (.run f l d (s.o Obj.CF_ADDR)) → l < 2 ^ 32 - 1 →
          t.query.items = s.query.items.dropLast ++ [QItem.run f (l + 1) d (s.o Obj.CF_ADDR)]) ∧
        (256 ≤ s.query.fill → (s.query.items.getLast?.map fun x => match x with | .entry _ => true | .run _ _ _ _ => false) = some true →
          t.query.items = s.query.items ++ [QItem.run (bits (s.queryWord w.toNat) 111 96) 1 0 (s.o Obj.CF_ADDR)]) ∧
        (s.o Obj.CF_ROLE ≠ 2 → t.out = s.out ∧ t.hub = s.hub) ∧
        (s.o Obj.CF_ROLE = 2 → t.out = s.out ++ s.portsUp.map fun k => Sent.block (.south (portFin k)) 0x5A
          (queryParts (if s.o (Obj.HUB_PKIND k) = 2 then query12 (s.queryWord w.toNat) else s.queryWord w.toNat))) ∧
        (s.o Obj.CF_ROLE = 2 → s.o Obj.HUB_MODE = 0 → s.query.fill < 256 →
          t.hub.recs.take s.hub.recs.length = s.hub.recs ∧ t.hub.recs.length = s.hub.recs.length + 1 ∧
          ∀ r ∈ t.hub.recs.getLast?, r.qid = bits (s.queryWord w.toNat) 111 96 ∧ r.addr = s.o Obj.CF_ADDR ∧ r.at_ 0 = .awaited ∧
            ∀ k : Port, r.at_ (k + 1) = if s.ob Obj.HUB_PORT_EN k = false then .unexpected
              else if s.o (Obj.HUB_PSTATE k) = 3 then .awaited else .closed 1) ∧
        { t with obj := s.obj, query := s.query, out := s.out, hub := s.hub, log := s.log } = s))

/-- The oldest normal query takes the lowest free slot, waits for its window, is indexed with one verdict per crossing,
and fetches in order. (R159; R160; R182; R188; R194; R196; R202; R210) Rests on log entries 43, 95 and 148, the
model's own choices. -/
def Obligations.AQueryTakesASlotWaitsFetchesAndPacks : Prop :=
  ∀ (n : Fin 4) (u : List Upset) (e : QEntry) (w : Win) (s : State), s.awake = true →
    (s.freeSlot = none ∨ findEntry (fun e => e.st = .queued && !e.thin) s.query.items = none →
      exec (.queryStart u) s = .next s) ∧
    (s.freeSlot = some n → findEntry (fun e => e.st = .queued && !e.thin) s.query.items = some e →
      (s.windowReady e = false → Runs (.queryStart u) s (fun t =>
        t.slotEntry n = some { e with slot := some n, st := .waiting, waited := true } ∧
        t.o Obj.QRY_WAITS = satAdd 32 (s.o Obj.QRY_WAITS) 1 ∧ t.keepsObjects s [Obj.QRY_WAITS] ∧
        { t with obj := s.obj, query := s.query } = s)) ∧
      (s.windowReady e = true → Runs (.queryStart u) s (fun t =>
        (∃ x ∈ t.slotEntry n, x.q = e.q ∧ x.waited = e.waited ∧ x.st ≠ .queued ∧ x.st ≠ .waiting ∧
          x.win.map (fun y => (y.x, y.verdict)) =
            if e.q.anchor.isFuture then [] else e.q.crossings.map fun y => (y, s.winVerdict e y u)) ∧
        (e.blocks = [] → t.keepsSpmOutside s 0x400000 0x500000) ∧ t.rankMem = s.rankMem ∧ t.nvm = s.nvm))) ∧
    ((∀ n : Fin 4, ∀ e ∈ s.slotEntry n, e.st ≠ .waiting ∨ s.windowReady e = false) → exec (.queryWaitEnd u) s = .next s) ∧
    ((∀ m : Fin 4, m < n → ∀ e ∈ s.slotEntry m, e.st ≠ .waiting ∨ s.windowReady e = false) →
      s.slotEntry n = some e → e.st = .waiting → s.windowReady e = true →
      Runs (.queryWaitEnd u) s (fun t =>
        (∃ x ∈ t.slotEntry n, x.q = e.q ∧ x.waited = e.waited ∧ x.st ≠ .queued ∧ x.st ≠ .waiting ∧
          x.win.map (fun y => (y.x, y.verdict)) =
            if e.q.anchor.isFuture then [] else e.q.crossings.map fun y => (y, s.winVerdict e y u)) ∧
        (e.blocks = [] → t.keepsSpmOutside s 0x400000 0x500000) ∧ t.rankMem = s.rankMem ∧ t.nvm = s.nvm)) ∧
    (s.slotEntry n = none → exec (.sliceFetchDone n u) s = .next s) ∧
    (s.slotEntry n = some e → e.st ≠ .fetch ∨ e.win.find? (·.toFetch) = none ∨ (s.o Obj.LB_STATE = 5 ∧ s.lb.before ≠ 4) →
      exec (.sliceFetchDone n u) s = .next s) ∧
    (s.slotEntry n = some e → e.st = .fetch → e.win.find? (·.toFetch) = some w → s.fetchStopped = false →
      ∀ v ∈ (match w.verdict with | .stored c _ a => some (c, a) | _ => none),
      Runs (.sliceFetchDone n u) s (fun t =>
        (∃ x ∈ t.slotEntry n, x.q = e.q ∧
          x.win = (({ e with win := mapFetch (fun y => { y with
              verdict := if w.x.toNat < s.o Obj.LB_FLOOR then .expired
                else if w.x.toNat < s.o Obj.LB_LOSTBELOW ∨ (s.fetchSlice w.x.toNat v.2 v.1 u).2.2 = true then .lost
                else w.verdict,
              recs := if w.x.toNat < s.o Obj.LB_FLOOR ∨ w.x.toNat < s.o Obj.LB_LOSTBELOW ∨
                  (s.fetchSlice w.x.toNat v.2 v.1 u).2.2 = true then []
                else (sectionWords (s.fetchSlice w.x.toNat v.2 v.1 u).2.1).take v.1,
              toFetch := false }) e.win }).cutSpan w.x).win) ∧
        (w.x.toNat < s.o Obj.LB_FLOOR ∨ w.x.toNat < s.o Obj.LB_LOSTBELOW →
          t.o Obj.LB_POSTCHK = satAdd 32 (s.o Obj.LB_POSTCHK) 1) ∧
        t.rankMem = s.rankMem ∧ t.nvm = s.nvm))

/-- An allocation gets the lowest free block or waits; owners release and transfer; a coding job ends DONE, OUTFULL or
NOCTX; CMP_TEST codes a section. (R205; R206; R207; R252; R260; R263; R276) Rests on log entry 94, the model's own
choice. -/
def Obligations.BlocksAreAllocatedAndCodedSectionsComplete : Prop :=
  ∀ (n : Fin 4) (b : Nat) (a x y : PoolAgent) (acts : List (PoolAgent × PoolAct)) (f g : PoolAct) (m : BitVec 8) (u : List Upset) (e : QEntry)
    (c : Ctx) (r : List Byte × List Byte × List CodedBlock × List CodedBlock) (q : Req) (l : List Byte) (s : State),
    (s.awake = true → Runs (.poolAllocate a acts) s (fun t => t.rankMem = s.rankMem ∧ t.nvm = s.nvm)) ∧
    (s.awake = true → a ≠ .query → s.freeBlock = none → Runs (.poolAllocate a []) s (fun t =>
      t.query.poolWait = s.query.poolWait.filter (· ≠ a) ++ [a] ∧
      { t with query := { t.query with poolWait := s.query.poolWait } } = s)) ∧
    (s.awake = true → a ≠ .query → s.freeBlock = some b → s.query.poolWait = [] → exec (.poolAllocate a []) s = .next
      ((s.setOwner b (agentCode a)).setO Obj.POOL_MIN (min (s.o Obj.POOL_MIN) (s.setOwner b (agentCode a)).poolFree))) ∧
    (s.awake = true → s.freeBlock = none ∨ (s.query.poolWait = [] ∧ ∀ j : Fin 4, ∀ z ∈ s.slotEntry j, z.need = 0) →
      exec (.poolAllocate .query []) s = .next s) ∧
    (s.awake = true → s.freeBlock = some b → s.query.poolWait = [] → (∀ j : Fin 4, j < n → ∀ z ∈ s.slotEntry j, z.need = 0) →
      s.slotEntry n = some e → e.need = 1 → e.st = .pack → Runs (.poolAllocate .query []) s (fun t =>
        t.owner b = 1 ∧ t.slotEntry n = some { e with blocks := e.blocks ++ [b], need := 0 } ∧
        t.keepsObjects s [Obj.POOL_MIN] ∧ { t with obj := s.obj, query := s.query } = s)) ∧
    (s.awake = true → (agentCode x ≤ agentCode a ∧ ∀ z ∈ s.query.poolWait, agentCode x ≤ agentCode z) →
      s.owner m.toNat = agentCode x → s.blockUsed m.toNat = false →
      exec (.poolAllocate a [(x, .release m)]) s = exec (.poolAllocate a []) (s.setOwner m.toNat 0) ∧
      exec (.poolAllocate a [(x, .transfer m y)]) s = exec (.poolAllocate a []) (s.setOwner m.toNat (agentCode y))) ∧
    (s.awake = true → (agentCode x ≤ agentCode a ∧ ∀ z ∈ s.query.poolWait, agentCode x ≤ agentCode z) →
      s.owner m.toNat ≠ agentCode x →
      exec (.poolAllocate a [(x, .release m)]) s = exec (.poolAllocate a []) (s.bump (if s.owner m.toNat = 0 then Obj.POOL_DOUBLE else Obj.POOL_FOREIGN)) ∧
      exec (.poolAllocate a [(x, .transfer m y)]) s = exec (.poolAllocate a []) (s.bump Obj.POOL_FOREIGN)) ∧
    (s.awake = true → a ≠ .query → agentCode a < agentCode x → s.query.poolWait = [] → s.owner m.toNat = agentCode x →
      s.blockUsed m.toNat = false →
      (s.freeBlock = none → exec (.poolAllocate a [(x, .release m)]) s =
        .next ({ s with query := { s.query with poolWait := [a] } }.setOwner m.toNat 0)) ∧
      (s.freeBlock = some b → exec (.poolAllocate a [(x, .release m)]) s = .next
        (((s.setOwner b (agentCode a)).setO Obj.POOL_MIN (min (s.o Obj.POOL_MIN) (s.setOwner b (agentCode a)).poolFree)).setOwner m.toNat 0))) ∧
    (s.awake = true → x ≠ y → exec (.poolAllocate a [(x, f), (y, g)]) s = exec (.poolAllocate a [(y, g), (x, f)]) s) ∧
    (s.awake = true → s.slotEntry n = none ∨ (s.slotEntry n = some e ∧ (e.st ≠ .pack ∨ e.need ≠ 0)) → exec (.cmpJobEnd n u) s = .next s) ∧
    (s.awake = true → s.slotEntry n = some e → e.st = .pack → e.need = 0 → e.stopped = true → (s.restoreCtx false n u).2 = false →
      Runs (.cmpJobEnd n u) s (fun t =>
      t.o Obj.CMP_NOCTX = satAdd 32 (s.o Obj.CMP_NOCTX) 1 ∧ t.o Obj.CMP_UNCODED = satAdd 32 (s.o Obj.CMP_UNCODED) 1 ∧
      t.ob Obj.CMP_CTXVALID n = false ∧ (∃ x ∈ t.slotEntry n, x.st = .handoff ∧ x.q = e.q) ∧ t.rankMem = s.rankMem ∧ t.nvm = s.nvm)) ∧
    (s.awake = true → s.slotEntry n = some e → e.st = .pack → e.need = 0 → e.stopped = false ∨ (s.restoreCtx false n u).2 = true →
      (if e.stopped then s.ctx n else { live := true }) = c →
      fillSpace e.codeSpace c.held (codeJob c ((sectionWords e.uncoded).drop (c.consumed / 6))) = r →
      (r.2.1 = [] → r.2.2.1 = [] → Runs (.cmpJobEnd n u) s (fun t =>
        t.o Obj.CMP_JOBS = (s.o Obj.CMP_JOBS + 1) % 2 ^ 48 ∧ t.o Obj.CMP_STOPS = s.o Obj.CMP_STOPS ∧
        t.ob Obj.CMP_CTXVALID n = false ∧ (∃ x ∈ t.slotEntry n, x.st = .handoff ∧ x.q = e.q) ∧
        t.rankMem = s.rankMem ∧ t.nvm = s.nvm)) ∧
      (r.2.1 ≠ [] ∨ r.2.2.1 ≠ [] → Runs (.cmpJobEnd n u) s (fun t =>
        t.o Obj.CMP_JOBS = s.o Obj.CMP_JOBS ∧ t.o Obj.CMP_STOPS = satAdd 32 (s.o Obj.CMP_STOPS) 1 ∧
        t.ob Obj.CMP_CTXVALID n = true ∧
        (∃ x ∈ t.slotEntry n, x.st = .pack ∧ x.stopped = true ∧ x.coded = e.coded ++ r.1 ∧ x.q = e.q) ∧
        (t.ctx n).held = r.2.1 ∧ (t.ctx n).consumed = c.consumed + 6 * (r.2.2.2.map (·.entries)).sum ∧
        (t.ctx n).produced = c.produced + r.1.length ∧ t.rankMem = s.rankMem ∧ t.nvm = s.nvm))) ∧
    (s.servedFor q = true → l.length % 6 ≠ 0 ∨ 3072 < l.length → Runs (.cmpTestWrite q l u) s (fun t =>
      t.answers q 0x04 .length (blockBody Obj.CMP_TEST 0 0 0) ∧ t.cmp.test = s.cmp.test ∧ t.query = s.query ∧ t.keepsMemories s)) ∧
    (s.servedFor q = true → l.length % 6 ≠ 0 ∨ 3072 < l.length →
      s.o Obj.CMP_TEST_START ≠ 0 ∨ (s.ctx (s.o Obj.CMP_TEST_CTX)).live = false →
      Runs (.cmpTestWrite q l u) s (·.onlyAnswered s q 0x04 .length (blockBody Obj.CMP_TEST 0 0 0))) ∧
    (s.servedFor q = true → l.length % 6 = 0 → l.length ≤ 3072 → s.o Obj.CMP_TEST_START = 0 → (s.ctx (s.o Obj.CMP_TEST_CTX)).live = false →
      Runs (.cmpTestWrite q l u) s (·.onlyAnswered (s.bump Obj.CMP_NOCTX) q 0x04 .failed (blockBody Obj.CMP_TEST 0 0 0))) ∧
    (s.servedFor q = true → l.length % 6 = 0 → l.length ≤ 3072 → s.o Obj.CMP_TEST_START = 0 → (s.ctx (s.o Obj.CMP_TEST_CTX)).live = true →
      (s.restoreCtx true (s.o Obj.CMP_TEST_CTX) u).2 = false → 4 ≤ s.o Obj.CMP_TEST_CTX → s.o Obj.CMP_TEST_CTX < 16 →
      Runs (.cmpTestWrite q l u) s (fun t => t.answers q 0x04 .failed (blockBody Obj.CMP_TEST 0 0 0) ∧
        t.o Obj.CMP_NOCTX = satAdd 32 (s.o Obj.CMP_NOCTX) 1 ∧ (t.ctx (s.o Obj.CMP_TEST_CTX)).live = false ∧
        t.ob Obj.CMP_CTXVALID (s.o Obj.CMP_TEST_CTX) = false ∧ t.cmp.test = s.cmp.test ∧ t.query = s.query)) ∧
    (s.servedFor q = true → l.length % 6 = 0 → l.length ≤ 3072 → s.o Obj.CMP_TEST_START ≠ 0 → entriesValid 0 false (sectionWords l) = false →
      Runs (.cmpTestWrite q l u) s (·.onlyAnswered s q 0x04 .outOfRange (blockBody Obj.CMP_TEST 0 0 0))) ∧
    (s.servedFor q = true → l.length % 6 = 0 → l.length ≤ 3072 →
      (if s.o Obj.CMP_TEST_START ≠ 0 then { live := true } else s.ctx (s.o Obj.CMP_TEST_CTX)) = c → c.live = true →
      s.o Obj.CMP_TEST_START ≠ 0 ∨ s.cmp.liveS = none ∨ s.cmp.liveS = some (s.o Obj.CMP_TEST_CTX) →
      entriesValid c.due c.lossLast (sectionWords l) = true →
      Runs (.cmpTestWrite q l u) s (fun t =>
        t.answers q 0x04 .ok (blockBody Obj.CMP_TEST 2 l.length l.length) ∧
        t.cmp.test = (codeJob c (sectionWords l)).flatMap (·.bytes) ∧ t.o Obj.CMP_TEST_LEN = t.cmp.test.length ∧
        t.o Obj.CMP_JOBS = (s.o Obj.CMP_JOBS + 1) % 2 ^ 48 ∧ t.keepsMemories s ∧ t.query = s.query ∧ t.chans = s.chans))

/-- The queue's head hands its answer over when it is ready; a hub pairs leaf answers by QID, closes what fails or times
out, and releases in order. (R193; R194; R195; R197; R209; R221; R222; R223; R224; R225) Rests on log entry 59, the
model's own choice. -/
def Obligations.AnswersLeaveInOrderAndTheMergerPairsThem : Prop :=
  ∀ (svc qid : BitVec 16) (k : Port) (e : QEntry) (rest : List QItem) (f l d a : Nat) (b : List Byte) (bad : Bool) (r : MRec)
    (ls rs : List MRec) (s : State), s.awake = true →
    (s.o Obj.BLD_STATE = 0 ∨ s.o Obj.PWR_STATE = 4 ∨ s.north.held = true ∨ s.query.items = [] → exec (.answerHandoff svc) s = .next s) ∧
    (s.query.items = .entry e :: rest → e.thin = false → e.st ≠ .handoff → exec (.answerHandoff svc) s = .next s) ∧
    (s.o Obj.BLD_STATE ≠ 0 → s.o Obj.PWR_STATE ≠ 4 → s.north.held = false → s.query.items = .entry e :: rest → e.thin = true ∨ e.st = .handoff →
      Runs (.answerHandoff svc) s (fun t =>
        t.query.items = rest ∧ t.o Obj.QRY_ANSWERED = (s.o Obj.QRY_ANSWERED + 1) % 2 ^ 48 ∧
        t.o (kindKey e.kind) = satAdd 32 (s.o (kindKey e.kind)) 1 ∧ t.keepsMemories s ∧
        (s.mergeMode = false → t.hub = s.hub ∧ t.bld.parts = s.bld.parts ++
          [{ a := if e.thin then e.thinAnswer else e.answer, first := true, last := true, kind := .subEvent }]) ∧
        (s.mergeMode = true → s.hub.ownSkip = 0 → s.hub.recs = ls ++ r :: rs → (∀ x ∈ ls, x.waits 0 = false) → r.waits 0 = true →
          t.hub.recs = (ls ++ r.put 0 (.paired (if e.thin then e.thinAnswer else e.answer)) :: rs).dropWhile MRec.done ∧
          t.bld.parts = s.bld.parts ++ ((ls ++ r.put 0 (.paired (if e.thin then e.thinAnswer else e.answer)) :: rs).takeWhile
            MRec.done).flatMap s.clusterParts) ∧
        (s.mergeMode = true → s.hub.ownSkip = 0 → (∀ x ∈ s.hub.recs, x.waits 0 = false) → t.hub = s.hub ∧ t.bld.parts = s.bld.parts ++
          [{ a := if e.thin then e.thinAnswer else e.answer, first := true, last := true, kind := .subEvent }]) ∧
        (s.mergeMode = true → 0 < s.hub.ownSkip → t.hub = { s.hub with ownSkip := s.hub.ownSkip - 1 } ∧ t.bld = s.bld))) ∧
    (s.o Obj.BLD_STATE ≠ 0 → s.o Obj.PWR_STATE ≠ 4 → s.north.held = false → s.query.items = .run f l d a :: rest → Runs (.answerHandoff svc) s (fun t =>
        t.query.items = (if d + 1 < l then .run f l (d + 1) a :: rest else rest) ∧
        t.o Obj.QRY_REFUSED = satAdd 32 (s.o Obj.QRY_REFUSED) 1 ∧ t.keepsMemories s ∧
        (s.mergeMode = false → t.hub = s.hub ∧ t.bld.parts = s.bld.parts ++
          [{ a := refusedAnswer ((f + d) % 2 ^ 16) a, first := true, last := true, kind := .subEvent }]) ∧
        (s.mergeMode = true → 0 < s.hub.ownSkip → t.hub = { s.hub with ownSkip := s.hub.ownSkip - 1 } ∧ t.bld = s.bld) ∧
        (s.mergeMode = true → s.hub.ownSkip = 0 → s.hub.recs = ls ++ r :: rs → (∀ x ∈ ls, x.waits 0 = false) → r.waits 0 = true →
          t.hub.recs = (ls ++ r.put 0 (.paired (refusedAnswer ((f + d) % 2 ^ 16) a)) :: rs).dropWhile MRec.done))) ∧
    (s.mergeMode = false ∨ s.o (Obj.HUB_PSTATE k) ≠ 3 → exec (.leafSubeventArrive k qid b bad) s = .next s) ∧
    (s.mergeMode = true → s.o (Obj.HUB_PSTATE k) = 3 →
      (∀ x ∈ (if s.o (Obj.HUB_PKIND k) = 2 then some (qid.toNat, Pos.slf32 b) else if headerOk b = true ∧ lengthOk b.length = true then
          some (headerQid b, .paired { bytes := b, len := b.length }) else none),
        (s.hub.recs = ls ++ r :: rs → (∀ y ∈ ls, y.waits (k + 1) = false ∨ y.qid ≠ x.1) → r.waits (k + 1) = true → r.qid = x.1 →
          Runs (.leafSubeventArrive k qid b false) s (fun t =>
            t.keepsMemories s ∧ t.o (Obj.HUB_BUFPEAK k) = max (s.o (Obj.HUB_BUFPEAK k)) (s.portLevel k + b.length) ∧
            t.hub.recs = ((ls.map fun y => if y.waits (k + 1) then y.put (k + 1) (.closed 2) else y) ++ r.put (k + 1) x.2 :: rs).dropWhile MRec.done ∧
            t.bld.parts = s.bld.parts ++ (((ls.map fun y => if y.waits (k + 1) then y.put (k + 1) (.closed 2) else y) ++
              r.put (k + 1) x.2 :: rs).takeWhile MRec.done).flatMap s.clusterParts ∧
            ((∀ y ∈ ls, y.waits (k + 1) = false) → t.o (Obj.HUB_SKIPPED k) = s.o (Obj.HUB_SKIPPED k)) ∧
            (∀ y ∈ ls.head?, y.waits (k + 1) = true → ls.length = 1 → t.o (Obj.HUB_SKIPPED k) = satAdd 32 (s.o (Obj.HUB_SKIPPED k)) 1))) ∧
        ((∀ y ∈ s.hub.recs, y.waits (k + 1) = false ∨ y.qid ≠ x.1) → exec (.leafSubeventArrive k qid b false) s = .next
          (s.bump (if ((s.port k).newest + 2 ^ 16 - x.1) % 2 ^ 16 < 0x8000 then Obj.HUB_LATE k else Obj.HUB_QIDERR k)))) ∧
      (bad = true ∨ s.o (Obj.HUB_PKIND k) ≠ 2 → bad = true ∨ headerOk b = false ∨ lengthOk b.length = false →
        (s.hub.recs = ls ++ r :: rs → (∀ y ∈ ls, y.waits (k + 1) = false) → r.waits (k + 1) = true →
          Runs (.leafSubeventArrive k qid b bad) s (fun t => t.keepsMemories s ∧
            t.hub.recs = (ls ++ r.put (k + 1) (.closed (if bad then 4 else 3)) :: rs).dropWhile MRec.done ∧
            t.bld.parts = s.bld.parts ++ ((ls ++ r.put (k + 1) (.closed (if bad then 4 else 3)) :: rs).takeWhile MRec.done).flatMap s.clusterParts ∧
            t.o (Obj.HUB_ABSENT k) = satAdd 32 (s.o (Obj.HUB_ABSENT k)) 1 ∧
            (bad = false → t.o (Obj.HUB_MALFORMED k) = satAdd 32 (s.o (Obj.HUB_MALFORMED k)) 1))) ∧
        ((∀ y ∈ s.hub.recs, y.waits (k + 1) = false) → Runs (.leafSubeventArrive k qid b bad) s (fun t =>
          t.keepsMemories s ∧ t.hub.recs = s.hub.recs ∧ t.bld = s.bld ∧ t.o (Obj.HUB_ABSENT k) = s.o (Obj.HUB_ABSENT k) ∧
          t.o (Obj.HUB_MALFORMED k) = if bad then s.o (Obj.HUB_MALFORMED k) else satAdd 32 (s.o (Obj.HUB_MALFORMED k)) 1)))) ∧
    (s.hub.recs = [] ∨ s.o Obj.PWR_STATE = 4 → exec .mergerTimeout s = .next s) ∧
    (s.o Obj.PWR_STATE ≠ 4 → s.hub.recs = r :: rs →
      Runs .mergerTimeout s (fun t => t.keepsMemories s ∧
        t.hub.recs = ({ r with pos := (r.pos.take 9).map (fun x => if x = .awaited then .closed 0 else x) ++ r.pos.drop 9 } :: rs).dropWhile MRec.done ∧
        (r.pos.length = 9 → (∀ x ∈ rs.head?, x.done = false) → t.hub.recs = rs ∧ t.o Obj.HUB_CEVENTS = (s.o Obj.HUB_CEVENTS + 1) % 2 ^ 48) ∧
        (∀ p : Port, t.o (Obj.HUB_TIMEOUTS p) =
          if r.waits (p + 1) then satAdd 32 (s.o (Obj.HUB_TIMEOUTS p)) 1 else s.o (Obj.HUB_TIMEOUTS p)) ∧
        t.hub.ownSkip = s.hub.ownSkip + b2n (r.waits 0) ∧
        t.bld.parts = s.bld.parts ++ (({ r with pos := (r.pos.take 9).map (fun x => if x = .awaited then .closed 0 else x) ++ r.pos.drop 9 } :: rs).takeWhile
          MRec.done).flatMap s.clusterParts))

/-- A hub keeps leaf words that come in time for an awaited crossing, and at the deadline sums them with its own and
marks missing ports. (R62; R143; R146; R237; R413) -/
def Obligations.ClusterPrimitivesAreBuiltAtTheirDeadline : Prop :=
  ∀ (k : Port) (xl : BitVec 6) (w : BitVec 16) (late sent : Bool) (x : TpWait) (xs : List TpWait) (s : State), s.awake = true →
    (s.o Obj.CF_ROLE ≠ 2 ∨ s.o (Obj.HUB_PSTATE k) ≠ 3 ∨ late = true → exec (.leafTpArrive k xl w late) s = .next s) ∧
    (s.o Obj.CF_ROLE = 2 → s.o (Obj.HUB_PSTATE k) = 3 →
      ((∃ y ∈ s.hub.tpWait, y.x = s.resolveXlow xl.toNat) ∨ s.ownCrossing (s.resolveXlow xl.toNat) = true → Runs (.leafTpArrive k xl w false) s (fun t =>
        (t.port k) = { s.port k with tpWrong := 0 } ∧ (∀ j : Port, j ≠ k → t.port j = s.port j) ∧
        t.hub.tpWait = s.hub.tpWait.map (fun y => if y.x = s.resolveXlow xl.toNat then
          (if ∃ e ∈ y.got, e.1 = k.val then y else { y with got := y.got ++ [(k.val, w.toNat)] }) else y) ∧
        { t with hub := s.hub } = s)) ∧
      ((∀ y ∈ s.hub.tpWait, y.x ≠ s.resolveXlow xl.toNat) → s.ownCrossing (s.resolveXlow xl.toNat) = false → Runs (.leafTpArrive k xl w false) s (fun t =>
        (t.port k) = (if 15 ≤ (s.port k).tpWrong then { s.port k with tpWrong := 0, align := some true }
          else { s.port k with tpWrong := (s.port k).tpWrong + 1 }) ∧
        (∀ j : Port, j ≠ k → t.port j = s.port j) ∧ t.hub.tpWait = s.hub.tpWait ∧ { t with hub := s.hub } = s))) ∧
    (s.hub.tpWait = [] → exec (.clusterTpDeadline sent) s = .next s) ∧
    (s.hub.tpWait = x :: xs → Runs (.clusterTpDeadline sent) s (fun t =>
      t.hub = { s.hub with tpWait := xs } ∧ t.o Obj.TP_LASTX = x.x ∧
      t.o Obj.TP_LAST = clusterWord (x.word :: (x.got.filter fun e =>
        e.1 ∈ bitList 8 (s.o Obj.HUB_PORT_EN) && !(e.1 ∈ s.tpMissing x)).map (·.2)) (!(s.tpMissing x).isEmpty) ∧
      (∀ j : Port, s.ob Obj.HUB_PORT_EN j = true → (s.o (Obj.HUB_PSTATE j) ≠ 3 ∨ ∀ e ∈ x.got, e.1 ≠ j.val) →
        t.o (Obj.HUB_TP_LATE j) = satAdd 32 (s.o (Obj.HUB_TP_LATE j)) 1) ∧
      (∀ j : Port, s.ob Obj.HUB_PORT_EN j = false → t.o (Obj.HUB_TP_LATE j) = s.o (Obj.HUB_TP_LATE j)) ∧
      { t with obj := s.obj, hub := s.hub, north := s.north, out := s.out } = s))

/-- Each part is decided and released; a failed check takes its unit out, a failure of the active one switches over, and
a copied unit rejoins. (R239; R241; R242; R243; R244) Rests on log entry 46, the model's own choice. -/
def Obligations.TheBuildersDecidePartByPart : Prop :=
  ∀ (m fa fs ok : Bool) (u : List Upset) (p : Part) (ps : List Part) (n : Fin 2) (s : State), s.awake = true →
    (s.bld.parts = [] ∨ s.o Obj.BLD_STATE = 0 → exec (.partDecision m fa fs u) s = .next s) ∧
    (s.bld.parts = p :: ps → s.o Obj.BLD_STATE ≠ 0 → s.o Obj.BLD_ACTIVE ≤ 1 → s.bld.switch = false →
      Runs (.partDecision m fa fs u) s (fun t =>
        t.bld.parts = ps ∧ t.rankMem = s.rankMem ∧ t.nvm = s.nvm ∧ t.spm = s.spm ∧
        (p.kind = .subEvent → p.first = true → p.a.blocks = [] → s.bld.suspect = false →
          fa = false → m = false → (s.o Obj.BLD_STATE = 1 → fs = false) →
          t.north.answers = s.north.answers ++ [{ bytes := p.a.bytes, len := p.a.bytes.length, blocks := [], blockEnd := 0 }] ∧
          t.north.more = !p.last) ∧
        (s.o Obj.BLD_STATE ≠ 1 → t.o Obj.BLD_ACTIVE = s.o Obj.BLD_ACTIVE ∧ (∀ i, i ≤ 1 → t.unit i = s.unit i) ∧
          (fa = true → t.o (chkfailKey s.activeUnit) = satAdd 32 (s.o (chkfailKey s.activeUnit)) 1)) ∧
        (s.o Obj.BLD_STATE = 1 → fa = false → fs = false → m = false →
          (∀ i, i ≤ 1 → t.unit i = s.unit i) ∧ t.o Obj.BLD_ACTIVE = s.o Obj.BLD_ACTIVE ∧ t.o Obj.BLD_SUSPECT = s.o Obj.BLD_SUSPECT) ∧
        (s.o Obj.BLD_STATE = 1 → fa = false → fs = false → m = true →
          t.o Obj.BLD_MISMATCH = satAdd 32 (s.o Obj.BLD_MISMATCH) 1 ∧
          (s.bld.suspect = false → t.o Obj.BLD_SUSPECT = satAdd 32 (s.o Obj.BLD_SUSPECT) 1) ∧
          (s.recentMismatches < 2 → t.o Obj.BLD_ACTIVE = s.o Obj.BLD_ACTIVE ∧ ∀ i, i ≤ 1 → t.unit i = s.unit i)) ∧
        (s.o Obj.BLD_STATE = 1 → fa = false → fs = true →
          t.o Obj.BLD_ACTIVE = s.o Obj.BLD_ACTIVE ∧
          t.unit (1 - s.o Obj.BLD_ACTIVE) =
            (if s.o Obj.BLD_RETIRE_LIMIT ≤ s.bld.takeouts.getD (1 - s.o Obj.BLD_ACTIVE) 0 + 1 then 5 else 3)) ∧
        (s.o Obj.BLD_STATE = 1 → fa = true → fs = false →
          t.o Obj.BLD_ACTIVE = 1 - s.o Obj.BLD_ACTIVE ∧ t.unit (1 - s.o Obj.BLD_ACTIVE) = 1 ∧
          t.unit (s.o Obj.BLD_ACTIVE) =
            (if s.o Obj.BLD_RETIRE_LIMIT ≤ s.bld.takeouts.getD (s.o Obj.BLD_ACTIVE) 0 + 1 then 5 else 3) ∧
          t.o Obj.BLD_SWITCHES = satAdd 32 (s.o Obj.BLD_SWITCHES) 1 ∧ t.o Obj.BLD_LASTX = s.xc) ∧
        (s.o Obj.BLD_STATE = 1 → fa = true → fs = true →
          t.o Obj.BLD_BOTHFAIL = satAdd 32 (s.o Obj.BLD_BOTHFAIL) 1 ∧ t.ob Obj.FLT_LATCHED 9 = true ∧
          t.o Obj.BLD_ACTIVE = s.o Obj.BLD_ACTIVE ∧ t.unit (s.o Obj.BLD_ACTIVE) = s.unit (s.o Obj.BLD_ACTIVE) ∧
          t.unit (1 - s.o Obj.BLD_ACTIVE) =
            (if s.o Obj.BLD_RETIRE_LIMIT ≤ s.bld.takeouts.getD (1 - s.o Obj.BLD_ACTIVE) 0 + 1 then 5 else 3)))) ∧
    (s.unit n ≠ 3 → exec (.builderSelftestDone n ok) s = .next s) ∧
    (s.unit n = 3 → Runs (.builderSelftestDone n ok) s (fun t => t.unit n = (if ok then 4 else 5) ∧
      t.o Obj.BLD_ACTIVE = s.o Obj.BLD_ACTIVE ∧ { t with obj := s.obj, log := s.log, watch := s.watch } = s)) ∧
    (s.unit (1 - s.o Obj.BLD_ACTIVE) ≠ 4 → exec (.builderCopyDone ok) s = .next s) ∧
    (s.unit (1 - s.o Obj.BLD_ACTIVE) = 4 →
      Runs (.builderCopyDone true) s (fun t => t.unit (1 - s.o Obj.BLD_ACTIVE) = 2 ∧
        t.o Obj.BLD_REJOINS = satAdd 32 (s.o Obj.BLD_REJOINS) 1 ∧
        (s.o Obj.BLD_ACTIVE ≤ 1 → s.unit (s.o Obj.BLD_ACTIVE) = 1 → t.o Obj.BLD_STATE = 1) ∧
        { t with obj := s.obj, log := s.log, power := s.power } = s) ∧
      Runs (.builderCopyDone false) s (fun t => t.unit (1 - s.o Obj.BLD_ACTIVE) =
          (if s.o Obj.BLD_RETIRE_LIMIT ≤ s.bld.takeouts.getD (1 - s.o Obj.BLD_ACTIVE) 0 + 1 then 5 else 3) ∧
        { t with obj := s.obj, log := s.log, bld := s.bld, watch := s.watch, power := s.power } = s))

/-- A receiver in L0 scans its phase, tracks it by votes, falls back from HUNT, measures its eye and takes the PRBS
checker's state. (R286; R287; R288; R289; R290; R301; R302) -/
def Obligations.ReceiversAlignTrackAndScan : Prop :=
  ∀ (i : Lane) (d : Vector (Fin 4097) 16) (m : Fin 16) (e l : Fin 4097) (eye : BitVec 16) (reg : BitVec 31) (s : State), s.awake = true →
    (isRx i = false ∨ s.o (Obj.LN_PSTATE i) ≠ 0 →
      exec (.phaseScanDone i d) s = .next s ∧ exec (.phaseTrackWindow i e l) s = .next s ∧ exec (.huntTimeout i) s = .next s ∧
      exec (.prbsSync i reg) s = .next s) ∧
    (isRx i = true → s.o (Obj.LN_PSTATE i) = 0 →
      (s.o (Obj.LN_ASTATE i) ≠ 2 → exec (.phaseScanDone i d) s = .next s) ∧
      (s.o (Obj.LN_ASTATE i) = 2 → (∀ j : Fin 16, d.get j ≤ d.get m) → (∀ j : Fin 16, j < m → d.get j < d.get m) →
        exec (.phaseScanDone i d) s = .next (((s.setO (Obj.LN_PHASE i) ((m + 8) % 16)).setO (Obj.LN_ASTATE i)
          (if s.o (Obj.LN_TEST i) = 0 then 3 else 6)).setLane i { s.lane i with valid := 0, window := [] })) ∧
      (s.o (Obj.LN_ASTATE i) ∈ [2, 3, 4, 6] →
        (l.val + 512 < e.val → exec (.phaseTrackWindow i e l) s =
          .next ((s.setO (Obj.LN_PHASE i) ((s.o (Obj.LN_PHASE i) + 1) % 16)).bump (Obj.LN_TRK_STEPS i))) ∧
        (e.val + 512 < l.val → exec (.phaseTrackWindow i e l) s =
          .next ((s.setO (Obj.LN_PHASE i) ((s.o (Obj.LN_PHASE i) + 15) % 16)).bump (Obj.LN_TRK_STEPS i)))) ∧
      (e.val ≤ l.val + 512 → l.val ≤ e.val + 512 → exec (.phaseTrackWindow i e l) s = .next s) ∧
      (s.o (Obj.LN_ASTATE i) ∉ [2, 3, 4, 6] → exec (.phaseTrackWindow i e l) s = .next s) ∧
      (s.o (Obj.LN_ASTATE i) = 3 → Runs (.huntTimeout i) s (fun t =>
        t.o (Obj.LN_ASTATE i) = 2 ∧ (t.lane i).window = [] ∧ (t.lane i).valid = 0 ∧ (t.lane i).scanning = false ∧
        t.keepsObjects s [Obj.LN_ASTATE i] ∧ (∀ j : Lane, j ≠ i → t.lane j = s.lane j) ∧
        { t with obj := s.obj, lanes := s.lanes } = s)) ∧
      (s.o (Obj.LN_ASTATE i) ≠ 3 → exec (.huntTimeout i) s = .next s) ∧
      (s.o (Obj.LN_ASTATE i) = 6 → exec (.prbsSync i reg) s =
        .next (s.setLane i { s.lane i with prbsLock := true, prbsReg := reg.toNat })) ∧
      (s.o (Obj.LN_ASTATE i) ≠ 6 → exec (.prbsSync i reg) s = .next s)) ∧
    exec (.prbsSyncLoss i) s = .next (s.setLane i { s.lane i with prbsLock := false }) ∧
    ((s.lane i).scanning = false → exec (.marginScanDone i eye) s = .next s) ∧
    ((s.lane i).scanning = true → Runs (.marginScanDone i eye) s (fun t =>
      (t.lane i) = { s.lane i with scanning := false } ∧
      t.o (Obj.LN_EYEW i) ≤ 16 ∧ (s.o (Obj.LN_PHASE i) < 16 → eye = BitVec.allOnes 16 → t.o (Obj.LN_EYEW i) = 16) ∧
      (bit eye.toNat (s.o (Obj.LN_PHASE i)) = false → t.o (Obj.LN_EYEW i) = 0) ∧
      (s.o (Obj.LN_PHASE i) < 16 → bit eye.toNat (s.o (Obj.LN_PHASE i)) = true → eye ≠ BitVec.allOnes 16 →
        ∃ up down : Fin 15, t.o (Obj.LN_EYEW i) = 1 + up.val + down.val ∧
          (∀ j : Fin 16, j.val ≤ up.val → bit eye.toNat ((s.o (Obj.LN_PHASE i) + j.val) % 16) = true) ∧
          bit eye.toNat ((s.o (Obj.LN_PHASE i) + up.val + 1) % 16) = false ∧
          (∀ j : Fin 16, j.val ≤ down.val → bit eye.toNat ((s.o (Obj.LN_PHASE i) + 16 - j.val) % 16) = true) ∧
          bit eye.toNat ((s.o (Obj.LN_PHASE i) + 15 - down.val) % 16) = false) ∧
      t.keepsObjects s [Obj.LN_EYEW i] ∧ (∀ j : Lane, j ≠ i → t.lane j = s.lane j) ∧
      { t with obj := s.obj, lanes := s.lanes } = s))

/-- Loss of signal or lock, overflow, transmit faults, exits from L1 and L2 and test modes change the lane, and the
links follow. (R283; R285; R289; R290; R291; R292; R298; R300; R301; R314) Rests on log entry 116, the model's own
choice. -/
def Obligations.LaneEventsTakeTheLinksWithThem : Prop :=
  ∀ (i : Lane) (n : Fin 2) (q : Req) (v : BitVec 8) (s : State), s.awake = true →
    (isRx i = true → s.o (Obj.LN_PSTATE i) = 0 → (s.lane i).los = false → Runs (.losAssert i) s (fun t =>
      t = ((((s.bump (Obj.LN_LOS_CNT i)).laneFall i 1).setLane i { (s.lane i) with
        window := [], valid := 0, prbsLock := false, scanning := false, los := true }).follow) ∧
      (i = 8 → s.o Obj.RG_LSTATE = 3 → t.o Obj.RG_LSTATE = 0) ∧ t.keepsMemories s)) ∧
    (isRx i = false ∨ s.o (Obj.LN_PSTATE i) ≠ 0 ∨ (s.lane i).los = true → exec (.losAssert i) s = .next s) ∧
    (isRx i = false → exec (.losClear i) s = .next s) ∧
    (isRx i = true → exec (.losClear i) s = .next ((s.setLane i { s.lane i with los := false }).tryScan i).follow) ∧
    (s.o (Obj.LN_PSTATE i) = 2 ∨ (s.lane i).lol = true → exec (.lolAssert i none) s = .next s.follow) ∧
    (s.o (Obj.LN_PSTATE i) ≠ 2 → (s.lane i).lol = false →
      (isRx i = false → exec (.lolAssert i none) s =
        .next (((s.bump (Obj.LN_LOL_CNT i)).setLane i { s.lane i with lol := true }).follow)) ∧
      (isRx i = true → Runs (.lolAssert i none) s (fun t =>
        t = ((((s.bump (Obj.LN_LOL_CNT i)).setLane i { s.lane i with lol := true }).laneFall i 1).follow) ∧
        (i = 8 → s.o Obj.RG_LSTATE = 3 → t.o Obj.RG_LSTATE = 0)))) ∧
    (s.o Obj.CLK_STATE ≠ 3 → exec (.lolAssert i (some n)) s = .next s) ∧
    (s.o Obj.CLK_STATE = 3 → Runs (.lolAssert i (some n)) s (fun t =>
      t.o Obj.LN_SYNTH_LOL = satAdd 32 (s.o Obj.LN_SYNTH_LOL) 1 ∧ bit t.synthLost n = true ∧ t.keepsMemories s ∧
      (∀ j : Lane, s.servedBy j n = true → s.o (Obj.LN_PSTATE j) ≠ 2 → (s.lane j).lol = false →
        t.o (Obj.LN_LOL_CNT j) = satAdd 32 (s.o (Obj.LN_LOL_CNT j)) 1 ∧ (t.o (Obj.LN_PSTATE j) = 2 ∨ (t.lane j).lol = true)) ∧
      (∀ j : Lane, s.servedBy j n = false → t.o (Obj.LN_LOL_CNT j) = s.o (Obj.LN_LOL_CNT j)) ∧
      (n = 1 → s.o (Obj.LN_PSTATE 8) = 0 → s.laneWant 8 = 0 → (s.lane 8).lol = false → t.o (Obj.LN_ASTATE 8) = 1) ∧
      (n = 1 → s.o (Obj.LN_PSTATE 8) = 0 → (s.lane 8).lol = false → s.o Obj.RG_LSTATE = 3 → t.o Obj.RG_LSTATE = 0))) ∧
    exec (.lossOfLockClear i none) s = .next ((s.setLane i { s.lane i with lol := false }).tryScan i).follow ∧
    Runs (.lossOfLockClear i (some n)) s (fun t => bit t.synthLost n = false ∧ t.keepsMemories s) ∧
    (isRx i = true → s.o (Obj.LN_PSTATE i) = 0 → s.o (Obj.LN_ASTATE i) = 4 → Runs (.receiveBufferOverflow i) s (fun t =>
      t = (((s.bump (Obj.LN_ALIGN_LOSS i)).laneFall i 3).follow) ∧
      (i = 8 → s.o Obj.RG_LSTATE = 3 → t.o Obj.RG_LSTATE = 0))) ∧
    (isRx i = false ∨ s.o (Obj.LN_PSTATE i) ≠ 0 ∨ s.o (Obj.LN_ASTATE i) ≠ 4 → exec (.receiveBufferOverflow i) s = .next s) ∧
    (isRx i = false → s.o (Obj.LN_PSTATE i) = 0 → exec (.txFault i) s =
      .next ((s.setLane i { s.lane i with swing := true }).follow)) ∧
    (isRx i = true ∨ s.o (Obj.LN_PSTATE i) ≠ 0 → exec (.txFault i) s = .next s) ∧
    (s.o (Obj.LN_PSTATE i) ≠ 2 ∨ s.laneWant i = 2 → exec (.laneL2ExitDone i) s = .next s) ∧
    (s.o (Obj.LN_PSTATE i) = 2 → s.laneWant i ≠ 2 → Runs (.laneL2ExitDone i) s (fun t =>
      t = (s.leaveL2 i).follow ∧ (s.leaveL2 i).o (Obj.LN_PSTATE i) = 0 ∧ (s.leaveL2 i).o (Obj.LN_RATE i) = s.rateFor i ∧
      (isRx i = false → (s.leaveL2 i).o (Obj.LN_ASTATE i) = if s.o (Obj.LN_TEST i) = 0 then 2 else 6) ∧
      (isRx i = true → (s.leaveL2 i).o (Obj.LN_ASTATE i) =
        if (s.lane i).los = false ∧ (s.lane i).lol = false then 2 else 1) ∧ t.keepsMemories s)) ∧
    (s.o (Obj.LN_PSTATE i) ≠ 1 ∨ s.laneWant i ≠ 0 → exec (.laneL1ExitDone i) s = .next s) ∧
    (s.o (Obj.LN_PSTATE i) = 1 → s.laneWant i = 0 →
      (isRx i = true → s.o (Obj.LN_ASTATE i) = 5 → s.o (Obj.LN_TEST i) = 0 → exec (.laneL1ExitDone i) s =
        .next (((s.setO (Obj.LN_PSTATE i) 0).setO (Obj.LN_ASTATE i) 4).bump (Obj.LN_LOCKS i)).follow) ∧
      (isRx i = false → exec (.laneL1ExitDone i) s =
        .next ((s.setO (Obj.LN_PSTATE i) 0).setO (Obj.LN_ASTATE i) (if s.o (Obj.LN_TEST i) = 0 then 2 else 6)).follow) ∧
      (isRx i = true → s.o (Obj.LN_ASTATE i) ≠ 5 ∨ s.o (Obj.LN_TEST i) ≠ 0 → exec (.laneL1ExitDone i) s =
        .next (((s.setO (Obj.LN_PSTATE i) 0).setO (Obj.LN_ASTATE i) 1).tryScan i).follow)) ∧
    (s.servedFor q = true → s.isExpert q = false → Runs (.lnTestWrite q i v) s (·.writeRefused s q (Obj.LN_TEST i) .expertRequired)) ∧
    (s.servedFor q = true → s.isExpert q = true → 2 < v.toNat →
      Runs (.lnTestWrite q i v) s (·.writeRefused s q (Obj.LN_TEST i) .outOfRange)) ∧
    (s.servedFor q = true → s.isExpert q = true → v.toNat ≤ 2 → Runs (.lnTestWrite q i v) s (fun t =>
      t.o (Obj.LN_TEST i) = v.toNat ∧ t.answers q 0x02 .ok (keyBytes (Obj.LN_TEST i) ++ bytesLE 6 ((s.xc + 1) % 2 ^ 48)) ∧
      t.keepsMemories s))

/-- CAPS is sent, judged and timed out in the CAPS state, STATUS in UP; lanes join by rows, slots re-partition when
drained, leaves are hunted and aligned. (R312; R313; R314; R317; R319; R320; R330; R337; R342; R343; R413) Rests on
log entries 51, 53 and 155, the model's own choices. -/
def Obligations.CapsStatusAndRowsRunTheLink : Prop :=
  ∀ (j : Fin 8) (k : Port) (l : LinkId) (c : BitVec 56) (a : Agreed) (b sched : Bool) (s : State), s.awake = true →
    (s.linkState l ≠ 1 ∨ l = .pass j → exec (.capsSend l) s = .next s ∧ exec (.capsTimeout l) s = .next s) ∧
    (s.linkState l = 1 → l = .north ∨ l = .south k → Runs (.capsSend l) s (fun t =>
      t.out = s.out ++ [Sent.block l 0x33 [s.capsContent l]] ∧
      t.caps l = { s.caps l with sentTwo := (s.caps l).sentTwo || (s.caps l).seen == 2 } ∧
      { t with out := s.out, north := s.north, south := s.south } = s)) ∧
    (l = .pass j ∨ s.linkState l = 0 ∨ s.linkState l = 2 → exec (.capsReceive l c) s = .next s) ∧
    (s.o Obj.RG_LSTATE = 1 → s.north.caps.partner = none → s.north.caps.seen = 0 → s.north.caps.sentTwo = false →
      Runs (.capsReceive .north c) s (fun t =>
        t.north.caps = { s.north.caps with partner := some c.toNat, seen := 1 } ∧
        t.out = s.out ++ [Sent.block .north 0x33 [s.capsContent .north + 2 ^ 7]] ∧ t.o Obj.RG_LSTATE = 1 ∧
        t.o Obj.RG_NOAGREE = if agree (s.capsContent .north) c.toNat = none then satAdd 32 (s.o Obj.RG_NOAGREE) 1
          else s.o Obj.RG_NOAGREE)) ∧
    (s.o Obj.RG_LSTATE = 1 → s.north.caps.partner = some c.toNat → s.north.caps.seen = 2 → s.north.caps.sentTwo = true →
      bits c.toNat 8 7 = 2 → agree (s.capsContent .north) c.toNat = some a → s.capsWaits .north = true →
      Runs (.capsReceive .north c) s (fun t => t.o Obj.RG_LSTATE = 1 ∧ t.out = s.out ∧ t.keepsObjects s [])) ∧
    (s.o Obj.RG_LSTATE = 1 → s.north.caps.partner = some c.toNat → s.north.caps.seen = 2 → s.north.caps.sentTwo = true →
      bits c.toNat 8 7 = 2 → agree (s.capsContent .north) c.toNat = some a → a.rate ≠ s.north.rate → s.capsWaits .north = false →
      Runs (.capsReceive .north c) s (fun t => t.o Obj.RG_VERSION = a.version ∧ t.o Obj.RG_FEAT = a.feat ∧
        t.o Obj.RG_RATE = a.rate ∧ t.north.rate = a.rate ∧ (s.locked 8 = true → s.laneWant 8 = 0 → t.o Obj.RG_LSTATE = 2) ∧
        t.out = s.out ∧ t.keepsMemories s)) ∧
    (s.o Obj.RG_LSTATE = 1 → Runs (.capsTimeout .north) s (fun t => t.o Obj.RG_LSTATE = 0 ∧
      t.o Obj.RG_CAPS_FAIL = satAdd 32 (s.o Obj.RG_CAPS_FAIL) 1 ∧ (∀ i : Fin 8, s.bundleLane i = true → t.o (Obj.LN_PSTATE i) = 2) ∧ t.keepsMemories s)) ∧
    (s.isUp l = false → exec (.statusSend l) s = .next s) ∧
    (s.isUp l = true → l = .north ∨ l = .pass j → exec (.statusSend l) s =
      .next { s with out := s.out ++ [Sent.block l 0xCC [s.statusContent]] }) ∧
    (s.o (Obj.RG_SSTATE k) = 3 → exec (.statusSend (.south k)) s =
      .next { s with out := s.out ++ [Sent.block (.south k) 0xCC [b2n (s.locked (9 + k)) * 2 ^ 48]] }) ∧
    (l ≠ .north ∨ s.o Obj.RG_LSTATE ≠ 3 → exec (.statusReceive l c) s = .next s) ∧
    (s.o Obj.RG_LSTATE = 3 → exec (.statusReceive .north c) s =
      .next ({ s with north := { s.north with rxlock := some (bits c.toNat 55 48) } }).follow) ∧
    exec .statusMiss s = .next (if s.o Obj.RG_LSTATE = 3 then s.bump Obj.RG_STAT_MISS else s) ∧
    (s.o Obj.RG_LSTATE = 3 → bit s.eligible j = true → s.ob Obj.RG_LANEMAP j = false → Runs (.laneJoin j sched) s (fun t =>
      t.o Obj.RG_LANEMAP = setBit (s.o Obj.RG_LANEMAP) j true ∧
      t.out = s.out ++ [Sent.row .north s.north.acnt (setBit (s.o Obj.RG_LANEMAP) j true) (if sched then 0 else 2)] ∧
      { t with obj := s.obj, out := s.out, north := s.north, log := s.log } = s)) ∧
    (s.o Obj.RG_LSTATE ≠ 3 ∨ bit s.eligible j = false ∨ s.ob Obj.RG_LANEMAP j = true → exec (.laneJoin j sched) s = .next s) ∧
    exec (.alignRow (.south k)) s = .next s ∧
    (s.northSends = false ∨ s.sendsRows = false → exec (.alignRow .north) s = .next s) ∧
    (s.sendsRows = false → exec (.alignRow (.pass j)) s = .next s) ∧
    (s.o Obj.RG_LSTATE = 0 ∨ (s.o Obj.RG_LSTATE = 3 ∧ s.o Obj.RG_VERSION ≠ 1) → s.sendsRows = true) ∧
    (s.northSends = true → s.sendsRows = true → Runs (.alignRow .north) s (fun t =>
      t.out = s.out ++ [Sent.row .north s.north.acnt (s.o Obj.RG_LANEMAP) 0] ∧
      t.north = { s.north with acnt := (s.north.acnt + 1) % 256 } ∧ { t with out := s.out, north := s.north } = s)) ∧
    (bit s.passWanted j = true → s.sends j = true → s.sendsRows = true → Runs (.alignRow (.pass j)) s (fun t =>
      t.out = s.out ++ [Sent.row (.pass j) (s.pass.get j).acnt (2 ^ j.val) 0] ∧ { t with out := s.out, pass := s.pass } = s)) ∧
    (s.repartDue = false ∨ (s.tx .north).held ≠ [] → exec .repartition s = .next s) ∧
    (s.repartDue = true → (s.tx .north).held = [] → exec .repartition s =
      .next { s with north := { s.north with slotPorts := s.portsWanted, slotPass := s.passWanted } }) ∧
    (s.o Obj.CF_ROLE ≠ 2 ∨ s.o (Obj.HUB_PSTATE k) ≠ 1 ∨ s.locked (9 + k) = true → exec (.southRateHunt k) s = .next s) ∧
    (s.o Obj.CF_ROLE = 2 → s.o (Obj.HUB_PSTATE k) = 1 → s.locked (9 + k) = false → exec (.southRateHunt k) s =
      .next (((s.bump (Obj.RG_SHUNT k)).setSouthRate k (if (s.south.get k).rate = 3 then 1 else 3)).laneL2 (9 + k)).follow) ∧
    ((s.port k).align = none ∨ s.o (Obj.HUB_PSTATE k) ≠ 3 → exec (.leafAlignSend k) s = .next s) ∧
    ((s.port k).align = some b → s.o (Obj.HUB_PSTATE k) = 3 → Runs (.leafAlignSend k) s (fun t =>
      t.out = s.out ++ [Sent.block (.south k) 0xA5 [3 * 2 ^ 48 + 2 ^ 48 - 1, 3 * 2 ^ 48 + (s.xc + 32) % 2 ^ 48]] ∧
      t.o Obj.XC_LEAF_ALIGNS = satAdd 32 (s.o Obj.XC_LEAF_ALIGNS) 1 ∧
      t.o Obj.XC_LEAF_REALIGN = (if b then satAdd 32 (s.o Obj.XC_LEAF_REALIGN) 1 else s.o Obj.XC_LEAF_REALIGN) ∧
      t.port k = { s.port k with align := none } ∧ (∀ i : Port, i ≠ k → t.port i = s.port i) ∧
      { t with obj := s.obj, out := s.out, hub := s.hub } = s))

/-- A frame that is whole, correct and next in order is accepted; any other counts and is NAKed with its reason unless a
hold lasts; ACKs follow. (R324; R326; R327; R220; R345; R463; R461) Rests on log entry 124, the model's own choice. -/
def Obligations.FramesAreAcceptedInOrderOrNaked : Prop :=
  ∀ (k : Port) (j : Fin 8) (l : LinkId) (sof e : BitVec 56) (d : List (BitVec 64)) (eof : Option (BitVec 56)) (s : State),
    s.awake = true →
    (l = .pass j ∨ s.isUp l = false → exec (.frameReceive l sof d eof) s = .next s) ∧
    (s.o Obj.RG_LSTATE = 3 →
      (eof = none ∨ d.length ≠ bits sof.toNat 43 38 + 1 → Runs (.frameReceive .north sof d eof) s (fun t =>
        t.o Obj.RG_CRC_ERR = satAdd 32 (s.o Obj.RG_CRC_ERR) 1 ∧ t.north.mailbox = s.north.mailbox ∧
        t.north.rx = { s.north.rx with nakHold := true } ∧
        t.out = (if s.north.rx.nakHold then s.out else s.out ++ [Sent.block .north 0xC3 [s.north.rx.exp * 2 ^ 44 + 2 * 2 ^ 36]]) ∧
        t.keepsObjects s [Obj.RG_CRC_ERR, Obj.RG_NAK_TX, Obj.CHK_RUN 17] ∧
        { t with obj := s.obj, out := s.out, north := s.north } = s)) ∧
      (eof = some e → d.length = bits sof.toNat 43 38 + 1 →
        (bits e.toNat 55 24 ≠ crc32c (frameBytes sof.toNat ((d.map BitVec.toNat).flatMap (bytesLE 8))) →
          Runs (.frameReceive .north sof d eof) s (fun t => t.o Obj.RG_CRC_ERR = satAdd 32 (s.o Obj.RG_CRC_ERR) 1 ∧
            t.north.mailbox = s.north.mailbox ∧ t.north.rx = { s.north.rx with nakHold := true } ∧
            t.out = (if s.north.rx.nakHold then s.out else s.out ++ [Sent.block .north 0xC3 [s.north.rx.exp * 2 ^ 44]]))) ∧
        (bits e.toNat 55 24 = crc32c (frameBytes sof.toNat ((d.map BitVec.toNat).flatMap (bytesLE 8))) →
          bits e.toNat 23 12 = bits sof.toNat 55 44 → bits sof.toNat 37 36 = 1 →
          (bits sof.toNat 55 44 = s.north.rx.exp → s.mailFull .north ((d.map BitVec.toNat).flatMap (bytesLE 8)) = false →
            Runs (.frameReceive .north sof d eof) s (fun t =>
              t.north.mailbox = s.north.mailbox ++ [(d.map BitVec.toNat).flatMap (bytesLE 8)] ∧
              t.north.rx = { s.north.rx with exp := (s.north.rx.exp + 1) % 4096, nakHold := false, ackDue := true } ∧
              t.o Obj.RG_FRAMES_RX = (s.o Obj.RG_FRAMES_RX + 1) % 2 ^ 48 ∧ t.out = s.out ∧
              t.keepsObjects s [Obj.RG_FRAMES_RX, Obj.CHK_RUN 17] ∧ t.cufel = { s.cufel with order := s.cufel.order ++ [.north] } ∧
              { t with obj := s.obj, north := s.north, cufel := s.cufel } = s)) ∧
          (bits sof.toNat 55 44 = s.north.rx.exp → s.mailFull .north ((d.map BitVec.toNat).flatMap (bytesLE 8)) = true →
            Runs (.frameReceive .north sof d eof) s (fun t => t.north.mailbox = s.north.mailbox ∧
              t.north.rx = { s.north.rx with nakHold := true } ∧
              t.out = (if s.north.rx.nakHold then s.out else s.out ++ [Sent.block .north 0xC3 [s.north.rx.exp * 2 ^ 44 + 3 * 2 ^ 36]]))) ∧
          ((s.north.rx.exp + 4096 - bits sof.toNat 55 44) % 4096 ∈ List.range' 1 1024 →
            Runs (.frameReceive .north sof d eof) s (fun t => t.north = { s.north with rx := { s.north.rx with ackDue := true } } ∧
              t.o Obj.RG_DUP_RX = satAdd 32 (s.o Obj.RG_DUP_RX) 1 ∧ t.out = s.out)) ∧
          (1024 < (s.north.rx.exp + 4096 - bits sof.toNat 55 44) % 4096 →
            Runs (.frameReceive .north sof d eof) s (fun t => t.north = { s.north with rx := { s.north.rx with nakHold := true } } ∧
              t.o Obj.RG_SEQ_ERR = satAdd 32 (s.o Obj.RG_SEQ_ERR) 1 ∧
              t.out = (if s.north.rx.nakHold then s.out else s.out ++ [Sent.block .north 0xC3 [s.north.rx.exp * 2 ^ 44 + 2 ^ 36]])))))) ∧
    (s.o (Obj.RG_SSTATE k) = 3 → eof = some e → d.length = bits sof.toNat 43 38 + 1 →
      bits e.toNat 55 24 = crc32c (frameBytes sof.toNat ((d.map BitVec.toNat).flatMap (bytesLE 8))) →
      bits e.toNat 23 12 = bits sof.toNat 55 44 → bits sof.toNat 37 36 = 1 → bits sof.toNat 55 44 = (s.rx (.south k)).exp →
      s.mergeMode = true →
      (s.mailFull (.south k) ((d.map BitVec.toNat).flatMap (bytesLE 8)) = false → Runs (.frameReceive (.south k) sof d eof) s (fun t =>
        (t.rx (.south k)).exp = ((s.rx (.south k)).exp + 1) % 4096 ∧ (t.rx (.south k)).ackDue = true ∧
        t.cufel.relayNorth = s.cufel.relayNorth ++ [(d.map BitVec.toNat).flatMap (bytesLE 8)] ∧
        t.o Obj.CF_RELAY_NORTH = (s.o Obj.CF_RELAY_NORTH + 1) % 2 ^ 32)) ∧
      (s.mailFull (.south k) ((d.map BitVec.toNat).flatMap (bytesLE 8)) = true → Runs (.frameReceive (.south k) sof d eof) s (fun t =>
        t.rx (.south k) = { s.rx (.south k) with nakHold := true } ∧ t.cufel = s.cufel ∧
        t.o (Obj.RG_SCRC_ERR k) = satAdd 32 (s.o (Obj.RG_SCRC_ERR k)) 1 ∧
        t.out = if (s.rx (.south k)).nakHold then s.out else
          s.out ++ [Sent.block (.south k) 0xC3 [(s.rx (.south k)).exp * 2 ^ 44 + 3 * 2 ^ 36]]))) ∧
    (s.cufel.down = true → s.mailFull l ((d.map BitVec.toNat).flatMap (bytesLE 8)) = true) ∧
    exec (.nakHoldExpire l) s = .next (s.setRx l { s.rx l with nakHold := false }) ∧
    (l = .pass j ∨ s.isUp l = false ∨ (s.rx l).ackDue = false ∨ s.bufferFull l = true → exec (.ackSend l) s = .next s) ∧
    (l = .north ∨ l = .south k → s.isUp l = true → (s.rx l).ackDue = true → s.bufferFull l = false →
      Runs (.ackSend l) s (fun t => t.out = s.out ++ [Sent.block l 0x3C [((s.rx l).exp + 4095) % 4096 * 2 ^ 44]] ∧
        t.rx l = { s.rx l with ackDue := false } ∧ { t with out := s.out, north := s.north, south := s.south } = s))

/-- An ACK frees the frames up to its number, a NAK and a replay timeout rewind, and the sender repeats held frames
before it starts new ones. (R325; R328; R329; R331; R332) Rests on log entries 50 and 51, the model's own choices. -/
def Obligations.AcksFreeFramesAndNaksRewind : Prop :=
  ∀ (l : LinkId) (c : BitVec 56) (u : List Upset) (f : Frame) (m : Msg) (r : List Msg) (s : State), s.awake = true →
    (s.isUp l = false → exec (.ackReceive l c) s = .next s ∧ exec (.nakReceive l c) s = .next s ∧
      exec (.replayTimeout l) s = .next s ∧ exec (.frameSend l u) s = .next s) ∧
    (s.o Obj.RG_LSTATE = 3 →
      (s.holds .north (bits c.toNat 55 44) = true → bits c.toNat 43 40 = 0 →
        Runs (.ackReceive .north c) s (fun t =>
          t.north.tx.held = (s.north.tx.held.dropWhile fun g => g.seq ≠ bits c.toNat 55 44).drop 1 ∧
          t.north.tx.next = s.north.tx.next ∧ t.north.tx.stalled = false ∧ t.out = s.out ∧ t.keepsMemories s) ∧
        Runs (.nakReceive .north c) s (fun t =>
          t.north.tx.held.map (·.seq) = (s.north.tx.held.dropWhile fun g => g.seq ≠ bits c.toNat 55 44).map (·.seq) ∧
          t.o Obj.RG_NAK_RX = satAdd 32 (s.o Obj.RG_NAK_RX) 1 ∧ t.out = s.out ∧ t.keepsMemories s ∧
          (s.north.tx.held.all (fun g => g.again.isNone) = true →
            t.north.tx.ptr = bits c.toNat 55 44 ∧ t.o Obj.RG_REWINDS = satAdd 32 (s.o Obj.RG_REWINDS) 1) ∧
          ((∃ g ∈ s.north.tx.held, g.seq = bits c.toNat 55 44 ∧
              ∃ w ∈ g.again, (s.tick - w) * 1000000000 < s.o Obj.RG_NAK_HOLD * s.o Obj.CLK_FX_NOM) →
            t.o Obj.RG_REWINDS = s.o Obj.RG_REWINDS ∧ (s.north.tx.ptr = s.north.tx.next → t.north.tx.ptr = s.north.tx.next)))) ∧
      (s.holds .north (bits c.toNat 55 44) = false → bits c.toNat 43 40 = 0 ∨ 8 ≤ bits c.toNat 43 40 →
        exec (.ackReceive .north c) s = .next (s.bump Obj.RG_ACK_BAD) ∧
        exec (.nakReceive .north c) s = .next ((s.bump Obj.RG_NAK_RX).bump Obj.RG_ACK_BAD)) ∧
      (s.north.tx.held = [] → exec (.replayTimeout .north) s = .next s) ∧
      (s.north.tx.held.head? = some f → Runs (.replayTimeout .north) s (fun t =>
        t.north.tx.ptr = f.seq ∧ t.o Obj.RG_TIMEOUTS = satAdd 32 (s.o Obj.RG_TIMEOUTS) 1 ∧
        t.o Obj.RG_REWINDS = satAdd 32 (s.o Obj.RG_REWINDS) 1 ∧
        t.north.tx.held = s.north.tx.held.map (fun g => { g with again := none }) ∧
        t.keepsObjects s [Obj.RG_TIMEOUTS, Obj.RG_REWINDS] ∧ { t with obj := s.obj, north := s.north } = s)) ∧
      (s.north.tx.ptr ≠ s.north.tx.next → s.north.tx.held.find? (fun g => g.seq == s.north.tx.ptr) = some f →
        crc32c (frameBytes (sofContent f.seq f.ndb f.kind f.first f.last f.qid) (asRead [] f.slot (memRead s.spm f.slot (8 * f.ndb)))) = f.crc →
        Runs (.frameSend .north []) s (fun t =>
          t.out = s.out ++ [Sent.frame .north (sofContent f.seq f.ndb f.kind f.first f.last f.qid) (asRead [] f.slot (memRead s.spm f.slot (8 * f.ndb)))
            (eofContent f.crc f.seq)] ∧
          t.north.tx.held.map (·.seq) = s.north.tx.held.map (·.seq) ∧ t.north.tx.next = s.north.tx.next ∧ t.keepsMemories s)) ∧
      (s.north.tx.ptr ≠ s.north.tx.next → s.north.tx.held.find? (fun g => g.seq == s.north.tx.ptr) = some f →
        crc32c (frameBytes (sofContent f.seq f.ndb f.kind f.first f.last f.qid) (asRead [] f.slot (memRead s.spm f.slot (8 * f.ndb)))) ≠ f.crc →
        Runs (.frameSend .north []) s (fun t => t.o Obj.RG_LSTATE ≠ 3 ∧ t.north.caps.res = false ∧
          t.o Obj.RG_LOSTFR = satAdd 32 (s.o Obj.RG_LOSTFR) 1 ∧ t.keepsMemories s)) ∧
      (s.north.tx.ptr = s.north.tx.next → s.repartDue = false → s.cufel.outNorth = [] → s.cufel.relayNorth = [] →
        s.north.answers = [] → exec (.frameSend .north u) s = .next s) ∧
      (s.north.tx.ptr = s.north.tx.next → s.repartDue = false → s.cufel.outNorth = m :: r → m.bytes.length ≤ s.frameRoom →
        s.north.tx.held.length < s.windowOf .north → Runs (.frameSend .north u) s (fun t =>
          t.cufel = { s.cufel with outNorth := r } ∧
          t.out = s.out ++ [Sent.frame .north (sofContent s.north.tx.next ((padTo 8 m.bytes).length / 8) 1 true true 0) (padTo 8 m.bytes)
            (crc32c (frameBytes (sofContent s.north.tx.next ((padTo 8 m.bytes).length / 8) 1 true true 0) (padTo 8 m.bytes)) * 2 ^ 24
              + s.north.tx.next * 2 ^ 12)] ∧
          t.north.tx.next = (s.north.tx.next + 1) % 4096 ∧ t.north.tx.held.length = s.north.tx.held.length + 1 ∧
          t.spm = memWrite s.spm (0x500000 + 512 * s.slotOfFrame .north s.north.tx.next) (padTo 8 m.bytes) ∧
          t.o Obj.RG_FRAMES_TX = (s.o Obj.RG_FRAMES_TX + 1) % 2 ^ 48 ∧
          { t with obj := s.obj, cufel := s.cufel, out := s.out, north := s.north, spm := s.spm } = s)) ∧
      (s.north.tx.ptr = s.north.tx.next → s.repartDue = false → s.cufel.outNorth = m :: r → m.bytes.length ≤ s.frameRoom →
        s.windowOf .north ≤ s.north.tx.held.length → Runs (.frameSend .north u) s (fun t =>
          t.o Obj.RG_STALLS = (if s.north.tx.stalled then s.o Obj.RG_STALLS else satAdd 32 (s.o Obj.RG_STALLS) 1) ∧
          t.north = { s.north with tx := { s.north.tx with stalled := true } } ∧ { t with obj := s.obj, north := s.north } = s)))

/-- A block is seen only by a receiver in L0: descrambled, it moves HUNT towards lock, enters frame or message in
LOCKED; in PRBS it is compared raw. (R284; R285; R290; R294; R302; R310; R311; R323) -/
def Obligations.ReceivedBlocksAreJudgedInOrder : Prop :=
  ∀ (i : Lane) (b : BitVec 2) (v : BitVec 64) (h x reg raw : Nat) (f : RxFrame) (s : State), s.awake = true →
    (if s.flag (Obj.LN_POLINV i) then (b.toNat ^^^ 3, v.toNat ^^^ (2 ^ 64 - 1)) else (b.toNat, v.toNat)) = (h, raw) →
    throughRegister descrambleBit 64 (s.lane i).descr raw = (reg, x) →
    (isRx i = false ∨ s.o (Obj.LN_PSTATE i) ≠ 0 ∨ s.o (Obj.LN_ASTATE i) ∉ [3, 4, 6] → exec (.ragilBlockReceive i b v) s = .next s) ∧
    (isRx i = true → s.o (Obj.LN_PSTATE i) = 0 → s.o (Obj.LN_ASTATE i) = 3 →
      (h = 0 ∨ h = 3 → exec (.ragilBlockReceive i b v) s = .next (s.setLane i { s.lane i with descr := reg, valid := 0 })) ∧
      (h = 1 ∨ h = 2 → (s.lane i).valid < 63 →
        exec (.ragilBlockReceive i b v) s = .next (s.setLane i { s.lane i with descr := reg, valid := (s.lane i).valid + 1 })) ∧
      (h = 1 ∨ h = 2 → 63 ≤ (s.lane i).valid → exec (.ragilBlockReceive i b v) s =
        .next (((s.setO (Obj.LN_ASTATE i) 4).bump (Obj.LN_LOCKS i)).setLane i { s.lane i with descr := reg, valid := 0, window := [] }).follow)) ∧
    (isRx i = true → s.o (Obj.LN_PSTATE i) = 0 → s.o (Obj.LN_ASTATE i) = 4 → ((s.lane i).window.filter (fun v => !v)).length < 15 →
      (h = 1 → (s.rx (laneLink i)).msg = none → (s.rx (laneLink i)).frame = some f → Runs (.ragilBlockReceive i b v) s (fun t =>
        (t.rx (laneLink i)).frame = some { f with data := f.data ++ [x] } ∧ t.keepsObjects s [] ∧ t.out = s.out ∧
        t.keepsMemories s)) ∧
      (h = 1 → (s.rx (laneLink i)).msg = none → (s.rx (laneLink i)).frame = none → Runs (.ragilBlockReceive i b v) s (fun t =>
        t.o Obj.RG_BLK_ERR = satAdd 32 (s.o Obj.RG_BLK_ERR) 1 ∧ t.rx (laneLink i) = s.rx (laneLink i) ∧
        t.keepsObjects s [Obj.RG_BLK_ERR])) ∧
      (h = 2 → bits x 7 0 = 0x55 → (s.rx (laneLink i)).msg = none → Runs (.ragilBlockReceive i b v) s (fun t =>
        (t.rx (laneLink i)).frame = some { sof := bits x 63 8, data := [] } ∧ t.keepsObjects s [])) ∧
      (h = 2 → knownTypes.contains (bits x 7 0) = false → Runs (.ragilBlockReceive i b v) s (fun t =>
        (t.rx (laneLink i)).frame = none ∧ (t.rx (laneLink i)).msg = none ∧
        t.o Obj.RG_BLK_ERR = satAdd 32 (s.o Obj.RG_BLK_ERR) 1 ∧ t.keepsObjects s [Obj.RG_BLK_ERR])) ∧
      (h = 2 → bits x 7 0 = 0x99 → (s.rx (laneLink i)).msg = none → Runs (.ragilBlockReceive i b v) s (fun t =>
        (t.rx (laneLink i)).frame = none ∧ t.o Obj.RG_BLK_ERR = satAdd 32 (s.o Obj.RG_BLK_ERR) 1)) ∧
      (h = 0 ∨ h = 3 → Runs (.ragilBlockReceive i b v) s (fun t =>
        (t.rx (laneLink i)).frame = none ∧ (t.rx (laneLink i)).msg = none ∧
        t.o (Obj.LN_SH_ERR i) = satAdd 32 (s.o (Obj.LN_SH_ERR i)) 1 ∧ t.keepsObjects s [Obj.LN_SH_ERR i]))) ∧
    (isRx i = true → s.o (Obj.LN_PSTATE i) = 0 → s.o (Obj.LN_ASTATE i) = 6 →
      ((s.lane i).prbsLock = false → exec (.ragilBlockReceive i b v) s = .next s) ∧
      ((s.lane i).prbsLock = true → Runs (.ragilBlockReceive i b v) s (fun t =>
        t.o (Obj.LN_PRBS_BITS i) = satAdd 64 (s.o (Obj.LN_PRBS_BITS i)) 66 ∧
        t.keepsObjects s [Obj.LN_PRBS_BITS i, Obj.LN_PRBS_ERR i] ∧ (∀ j : Lane, j ≠ i → t.lane j = s.lane j) ∧
        { t with obj := s.obj, lanes := s.lanes } = s)))

/-- Ranks are refreshed, verified into service or retired with cause 4, tracked in Run; the spare is checked; the
scratchpad port writes and corrects. (R24; R373; R374; R358; R359; R365; R366; R368; R370; R378; R386; R561) Rests
on log entry 145, the model's own choice. -/
def Obligations.RanksRefreshVerifyTrackAndRetire : Prop :=
  ∀ (r : RankId) (temp : BitVec 16) (f : BitVec 6) (j : Fin 6) (up down : BitVec 12) (n : BitVec 16) (ue : List (BitVec 18 × BitVec 64)) (d g : BitVec 64)
    (x : SpmFix) (xs : List SpmFix) (w : BitVec 20) (i k : Fin 7) (s : State),
    (s.clocked = false ∨ (s.frz.frozen = true ∧ s.frz.noref = true) ∨ s.o Obj.CLK_STATE ≠ 3 ∨
      (s.o (Obj.DRM_RSTATE r.num) ∉ [1, 2, 3, 5, 7] ∧ s.scrubWakes r.num = false) → exec (.refresh r temp) s = .next s) ∧
    (s.clocked = true → s.frz.frozen = false ∨ s.frz.noref = false → s.o Obj.CLK_STATE = 3 →
      s.o (Obj.DRM_RSTATE r.num) ∈ [1, 2, 3, 5, 7] ∨
        (r = .s ∧ s.o (Obj.DRM_RSTATE 2) = 4 ∧ s.o Obj.SCB_TARGET = 2 ∧ s.o Obj.SCB_STATE ∈ [1, 2]) →
      Runs (.refresh r temp) s (fun t => t.o (Obj.DRM_TEMP r.num) = temp.toNat ∧
        t.o (Obj.DRM_REFCNT r.num) = (s.o (Obj.DRM_REFCNT r.num) + 1) % 2 ^ 32 ∧
        (95 < toSigned 16 temp.toNat → t.ob Obj.DRM_HOT r.num = true) ∧
        t.keepsObjects s [Obj.DRM_TEMP r.num, Obj.DRM_REFCNT r.num, Obj.DRM_HOT] ∧
        { t with obj := s.obj, memUnit := s.memUnit } = s)) ∧
    (s.awake = true →
      exec (.rankPowerDown r) s = .next
        (if s.o (Obj.DRM_RSTATE r.num) = 3 ∧ s.o Obj.CLK_STATE = 3 then s.setRank r.num { s.rank r.num with powerDown := true } else s) ∧
      (s.o (Obj.DRM_RSTATE r.num) ∉ [3, 5, 6] ∨ s.o Obj.CLK_STATE ≠ 3 → exec (.rankVerifyDone r f) s = .next s) ∧
      (s.o (Obj.DRM_RSTATE r.num) = 5 → s.o Obj.CLK_STATE = 3 → s.o (Obj.DRM_DIEMARK r.num) = 0xFF →
        (f = 0 ∨ f.toNat = 2 ^ j.val → Runs (.rankVerifyDone r f) s (fun t => t.o (Obj.DRM_RSTATE r.num) = 3 ∧
          t.o (Obj.DRM_DIEMARK r.num) = (if f = 0 then 0xFF else j.val) ∧ t.keepsMemories s ∧ t.lb = s.lb)) ∧
        (2 ≤ popcount 6 f.toNat → Runs (.rankVerifyDone r f) s (fun t => t.o (Obj.DRM_RETIRE r.num) = 4 ∧
          t.o (Obj.DRM_RETIREX r.num) = s.xc ∧ t.o (Obj.DRM_RSTATE r.num) = 8 ∧ t.keepsMemories s))) ∧
      (s.o (Obj.DRM_RSTATE r.num) ≠ 3 ∨ s.inRun = false → exec (.delayTrack r up down f) s = .next s) ∧
      (s.o (Obj.DRM_RSTATE r.num) = 3 → s.inRun = true → s.o (Obj.DRM_DIEMARK r.num) = 0xFF →
        (f = 0 → Runs (.delayTrack r up down f) s (fun t =>
          t.o (Obj.DRM_TRK_STEPS r.num) = satAdd 32 (s.o (Obj.DRM_TRK_STEPS r.num)) (popcount 12 (up.toNat ||| down.toNat)) ∧
          (t.rank r.num).delays = stepDelays (s.rank r.num).delays up.toNat down.toNat ∧
          t.keepsObjects s [Obj.DRM_TRK_STEPS r.num] ∧ { t with obj := s.obj, memUnit := s.memUnit, watch := s.watch } = s)) ∧
        (2 ≤ popcount 6 f.toNat → Runs (.delayTrack r up down f) s (fun t => t.o (Obj.DRM_RETIRE r.num) = 4 ∧
          t.o (Obj.DRM_RETIREX r.num) = s.xc ∧ t.o (Obj.DRM_RSTATE r.num) ∈ [7, 8] ∧ t.keepsMemories s))) ∧
      (s.o (Obj.DRM_RSTATE 2) ≠ 4 ∨ s.o Obj.CLK_STATE ≠ 3 → exec (.spareCheck [] f [temp]) s = .next s) ∧
      (s.o (Obj.DRM_RSTATE 2) = 4 → s.o Obj.CLK_STATE = 3 → s.o (Obj.DRM_DIEMARK 2) = 0xFF →
        (f = 0 → Runs (.spareCheck [] f [temp]) s (fun t => t.o (Obj.DRM_REFCNT 2) = (s.o (Obj.DRM_REFCNT 2) + 1) % 2 ^ 32 ∧
          t.o (Obj.DRM_TEMP 2) = temp.toNat ∧ (t.rank 2).spareNext = ((s.rank 2).spareNext + 1) % 32 ∧
          t.o (Obj.DRM_READS 2) = (s.o (Obj.DRM_READS 2) + 16384) % 2 ^ 64 ∧ t.o (Obj.DRM_RSTATE 2) = 4 ∧ t.keepsMemories s)) ∧
        (2 ≤ popcount 6 f.toNat → Runs (.spareCheck [] f [temp]) s (fun t =>
          t.o (Obj.DRM_RETIRE 2) = 5 ∧ t.o (Obj.DRM_RSTATE 2) = 8 ∧ t.keepsMemories s))) ∧
      Runs (.spmCorrectionWriteback []) s (fun t => t.rankMem = s.rankMem ∧ t.nvm = s.nvm) ∧
      (s.memUnit.port = [] →
        (s.memUnit.fix = [] → exec (.spmCorrectionWriteback []) s = .next s ∧
          (i ∈ [1, 2, 3, 4, 5] → k ∈ [1, 2, 3, 4, 5] → i < k →
            Runs (.spmCorrectionWriteback [[⟨i, w, .write, d, 0⟩, ⟨k, w, .write, g, 0⟩]]) s (fun t =>
              t.o Obj.SPM_WLOST = satAdd 32 (s.o Obj.SPM_WLOST) 1 ∧ t.memUnit.port = [] ∧
              t.spm = memPutWord (memPutWord s.spm (8 * w.toNat) 8 d.toNat) (8 * w.toNat) 8 g.toNat ∧
              t.keepsObjects s [Obj.SPM_WLOST] ∧ t.rankMem = s.rankMem ∧ t.nvm = s.nvm) ∧
            Runs (.spmCorrectionWriteback [[⟨i, w, .read, 0, 0⟩, ⟨k, w, .write, g, 0⟩]]) s (fun t =>
              t.memUnit.portRead = [(i.val, w.toNat, memWord s.spm (8 * w.toNat) 8)] ∧ t.memUnit.port = [] ∧
              t.spm = memPutWord s.spm (8 * w.toNat) 8 g.toNat ∧ t.keepsObjects s []))) ∧
        (s.memUnit.fix = x :: xs → exec (.spmCorrectionWriteback []) s = .next { s with
            memUnit := { s.memUnit with fix := xs },
            spm := if memWord s.spm x.addr 8 = x.seen then memPutWord s.spm x.addr 8 (x.seen ^^^ x.err) else s.spm })) ∧
      (ue = [] → exec (.fwRamPatrol n ue) s = .next (s.bumpBy Obj.SPM_FW_CORR n.toNat)) ∧
      (ue ≠ [] → Runs (.fwRamPatrol n ue) s (fun t => t.o Obj.SPM_FW_CORR = satAdd 32 (s.o Obj.SPM_FW_CORR) n.toNat ∧
        t.o Obj.SPM_FW_UE = satAdd 32 (s.o Obj.SPM_FW_UE) ue.length ∧ t.ob Obj.FLT_LATCHED 6 = true ∧
        t.memUnit = { s.memUnit with fwRam := ue.foldl (fun m e => memPutWord m (e.1.toNat / 8 * 8) 8 e.2.toNat) s.memUnit.fwRam } ∧
        { t with obj := s.obj, log := s.log, memUnit := s.memUnit } = s)))

/-- A march ends PASSED or FAILED with its failing words shown and a destructive range at zero; a scrub pass halts at an
uncorrectable word, or ends. (R381; R382; R383; R384) -/
def Obligations.MarchesAndScrubPassesEnd : Prop :=
  ∀ (fails : List (BitVec 23)) (e : Fin 6) (w : BitVec 20) (q : Req) (a : BitVec 23) (err : BitVec 64) (u : List Upset) (x : BitVec 26)
    (s : State),
    (s.awake = true → s.o Obj.SPM_MARCH_STATE ≠ 1 → exec (.marchDone fails u) s = .next s) ∧
    (s.awake = true → s.o Obj.SPM_MARCH_STATE = 1 → s.memUnit.march.destructive = false → s.memUnit.march.start ≤ a.toNat / 8 * 8 →
      a.toNat / 8 * 8 < s.memUnit.march.start + s.memUnit.march.len →
      Runs (.marchDone fails [.word a .single err]) s (fun t => t.o Obj.SPM_MARCH_STATE = (if fails = [] then 2 else 3) ∧
        t.o Obj.SPM_CORR = satAdd 32 (s.o Obj.SPM_CORR) 1 ∧ t.keepsMemories s) ∧
      Runs (.marchDone fails [.word a .double err]) s (fun t => t.o Obj.SPM_MARCH_STATE = (if fails = [] then 2 else 3) ∧
        t.o Obj.SPM_UE = satAdd 32 (s.o Obj.SPM_UE) 1 ∧ t.ob Obj.FLT_LATCHED 6 = true ∧
        t.keepsSpmOutside s (a.toNat / 8 * 8) (a.toNat / 8 * 8 + 8))) ∧
    (s.awake = true → s.o Obj.SPM_MARCH_STATE = 1 → u = [] ∨ s.memUnit.march.destructive = true → Runs (.marchDone fails u) s (fun t =>
      t.o Obj.SPM_MARCH_STATE = (if fails = [] then 2 else 3) ∧ t.o Obj.SPM_MARCH_FAILS = fails.length ∧
      t.o Obj.SPM_MARCH_FADDR = (fails.map BitVec.toNat).headD 0 ∧
      t.spm = (if s.memUnit.march.destructive then memZero s.spm s.memUnit.march.start s.memUnit.march.len else s.spm) ∧
      (s.memUnit.march.destructive = true → s.memUnit.march.start ≤ x.toNat → x.toNat + 8 ≤ s.memUnit.march.start + s.memUnit.march.len →
        t.openWord x.toNat = false) ∧
      t.keepsObjects s [Obj.SPM_MARCH_STATE, Obj.SPM_MARCH_FAILS, Obj.SPM_MARCH_FADDR] ∧
      { t with obj := s.obj, spm := s.spm, memUnit := s.memUnit, soiled := s.soiled } = s)) ∧
    (s.servedFor q = true → s.o Obj.SPM_MARCH_STATE ≠ 1 →
      Runs (.marchAbort q e w fails u) s (·.writeRefused s q Obj.SPM_MARCH_CTRL .functionRunning)) ∧
    (s.servedFor q = true → s.o Obj.SPM_MARCH_STATE = 1 → u = [] ∨ s.memUnit.march.destructive = true →
      Runs (.marchAbort q e w fails u) s (fun t =>
      t.livePend = s.livePend ++ [(Obj.SPM_MARCH_CTRL, 3)] ∧
      t.answers q 0x02 .ok (keyBytes Obj.SPM_MARCH_CTRL ++ bytesLE 6 ((s.xc + 1) % 2 ^ 48)) ∧
      t.o Obj.SPM_MARCH_FAILS = fails.length ∧ t.o Obj.SPM_MARCH_FADDR = (fails.map BitVec.toNat).headD 0 ∧
      t.keepsObjects s [Obj.SPM_MARCH_FAILS, Obj.SPM_MARCH_FADDR, Obj.CHK_ALIVE_TXN, Obj.CHK_ALIVE_TXC] ∧
      { t with obj := s.obj, cufel := s.cufel, livePend := s.livePend, memUnit := s.memUnit } = s)) ∧
    (s.awake = true → s.o Obj.SCB_STATE ≠ 1 → exec (.scrubHalt x u) s = .next s ∧ exec (.scrubDone u) s = .next s) ∧
    (s.awake = true → s.o Obj.SCB_STATE = 1 → s.o Obj.SCB_TARGET = 3 → s.o Obj.SCB_NEXT ≤ a.toNat / 8 * 8 →
      a.toNat / 8 * 8 < s.o Obj.SCB_START + s.o Obj.SCB_LEN →
      Runs (.scrubHalt (a.setWidth 26) [.word a .double err]) s (fun t =>
        t.o Obj.SCB_STATE = 2 ∧ t.o Obj.SCB_NEXT = a.toNat / 8 * 8 + 8 ∧ t.o Obj.SCB_UE = satAdd 32 (s.o Obj.SCB_UE) 1 ∧
        t.o Obj.SCB_FIRST = (if s.o Obj.SCB_FIRST = 0xFFFFFFFF then a.toNat / 8 * 8 else s.o Obj.SCB_FIRST) ∧
        t.o Obj.SPM_UE = satAdd 32 (s.o Obj.SPM_UE) 1 ∧ t.ob Obj.FLT_LATCHED 6 = true ∧ t.keepsMemories s)) ∧
    (s.awake = true → s.o Obj.SCB_STATE = 1 → s.o Obj.SCB_TARGET = 3 → Runs (.scrubDone []) s (fun t =>
        t.o Obj.SCB_STATE = 3 ∧ t.o Obj.SCB_NEXT = s.o Obj.SCB_START + s.o Obj.SCB_LEN ∧
        t.o Obj.SCB_PASSES = satAdd 32 (s.o Obj.SCB_PASSES) 1 ∧
        t.o Obj.SCB_READ = satAdd 32 (s.o Obj.SCB_READ) ((s.o Obj.SCB_START + s.o Obj.SCB_LEN - s.o Obj.SCB_NEXT) / 8) ∧
        t.o Obj.SCB_UE = s.o Obj.SCB_UE ∧ t.keepsMemories s))

/-- A valid TIME message of the current master is accepted and acts at its turn as a step or a slew; without messages
time goes into holdover. (R416; R417; R418; R419) Rests on log entries 8 and 32, the model's own choices. -/
def Obligations.TimeMessagesSteerNetworkTime : Prop :=
  ∀ (w : BitVec 168) (own : Nat) (m : TimeMsg) (r : List TimeMsg) (a : Nat) (s : State), s.awake = true →
    (s.o Obj.RG_LSTATE ≠ 3 → exec (.timeReceive w) s = .next s) ∧
    (s.o Obj.RG_LSTATE = 3 →
      (s.ownTime (bits w.toNat 135 88) = none ∨ bit w.toNat 143 = false ∨ s.o Obj.XC_STATE ≠ 1 ∨
          (bits w.toNat 167 152, bits w.toNat 151 144) ∈ s.time.seqs →
        Runs (.timeReceive w) s (fun t => t.o Obj.NT_REJECT = satAdd 32 (s.o Obj.NT_REJECT) 1 ∧
          t.o Obj.NT_FOREIGN = (if bits w.toNat 167 152 = s.o Obj.NT_MASTER ∧ s.o Obj.NT_MASTER ≠ 0xFFFF then s.o Obj.NT_FOREIGN
            else satAdd 32 (s.o Obj.NT_FOREIGN) 1) ∧
          t.keepsObjects s [Obj.NT_REJECT, Obj.NT_FOREIGN] ∧ { t with obj := s.obj, out := s.out } = s)) ∧
      (s.ownTime (bits w.toNat 135 88) = some own → bit w.toNat 143 = true → s.o Obj.XC_STATE = 1 →
        (bits w.toNat 167 152, bits w.toNat 151 144) ∉ s.time.seqs → bits w.toNat 167 152 ≠ s.o Obj.NT_MASTER → s.time.changed = none →
        ((∃ c ∈ s.time.cand, c.1 = bits w.toNat 167 152 ∧ bits w.toNat 151 144 = (c.2.1 + 1) % 256 ∧
            ((bits w.toNat 87 24 * 2 ^ 32 + bits w.toNat 23 0 * 2 ^ 8 : Nat) - (own : Int) - c.2.2).natAbs ≤ s.o Obj.NT_STEP_LIMIT * 2 ^ 32) →
          Runs (.timeReceive w) s (fun t => t.o Obj.NT_MASTER = bits w.toNat 167 152 ∧
            t.o Obj.NT_MCHANGES = satAdd 32 (s.o Obj.NT_MCHANGES) 1 ∧ t.o Obj.NT_MSGS = satAdd 32 (s.o Obj.NT_MSGS) 1 ∧
            t.time.cand = [] ∧ t.time.changed = some s.tick ∧ t.nt = s.nt ∧ t.keepsMemories s)) ∧
        ((∀ c ∈ s.time.cand, c.1 ≠ bits w.toNat 167 152 ∨ bits w.toNat 151 144 ≠ (c.2.1 + 1) % 256) →
          Runs (.timeReceive w) s (fun t => t.o Obj.NT_FOREIGN = satAdd 32 (s.o Obj.NT_FOREIGN) 1 ∧
            t.o Obj.NT_REJECT = satAdd 32 (s.o Obj.NT_REJECT) 1 ∧ t.keepsObjects s [Obj.NT_FOREIGN, Obj.NT_REJECT] ∧
            t.time.cand = (bits w.toNat 167 152, bits w.toNat 151 144,
              ((bits w.toNat 87 24 * 2 ^ 32 + bits w.toNat 23 0 * 2 ^ 8 : Nat) - (own : Int))) ::
                s.time.cand.filter (fun c => c.1 != bits w.toNat 167 152) ∧
            { t.time with cand := s.time.cand } = s.time ∧
            { t with obj := s.obj, out := s.out, time := s.time } = s))) ∧
      (s.ownTime (bits w.toNat 135 88) = some own → bit w.toNat 143 = true → s.o Obj.XC_STATE = 1 →
        (bits w.toNat 167 152, bits w.toNat 151 144) ∉ s.time.seqs →
        bits w.toNat 167 152 = s.o Obj.NT_MASTER → s.o Obj.NT_MASTER ≠ 0xFFFF →
        Runs (.timeReceive w) s (fun t => t.o Obj.NT_MSGS = satAdd 32 (s.o Obj.NT_MSGS) 1 ∧ t.keepsObjects s [Obj.NT_MSGS] ∧
          t.time.waiting = s.time.waiting ++ [
            { master := bits w.toNat 167 152, step := bit w.toNat 142 || s.time.stepNext,
              time := bits w.toNat 87 24 * 2 ^ 32 + bits w.toNat 23 0 * 2 ^ 8, own := own, tick := s.tick }] ∧
          t.time.accepted = some s.tick ∧ t.nt = s.nt ∧ { t with obj := s.obj, out := s.out, time := s.time } = s)) ∧
      (s.o Obj.CF_ROLE ≠ 2 → Runs (.timeReceive w) s (·.out = s.out))) ∧
    (s.time.waiting = [] → exec .ntServoUpdate s = .next s) ∧
    (s.time.waiting = m :: r → s.tick ≤ m.tick → exec .ntServoUpdate s = .next s) ∧
    (s.time.waiting = m :: r → m.tick < s.tick → Runs .ntServoUpdate s (fun t =>
      t.time.waiting = r ∧ t.o Obj.NT_STATE = 1 ∧ t.time.prev = some (m.master, m.time) ∧ t.keepsMemories s ∧
      (m.step = true ∨ s.o Obj.NT_STATE = 0 ∨ (s.o Obj.NT_STEP_LIMIT * 2 ^ 32 : Nat) < ((m.time : Int) - m.own).natAbs →
        t.nt = ofSigned 96 ((s.nt : Int) + ((m.time : Int) - m.own)) ∧ t.time.slew = 0 ∧
        t.time.log.head? = s.time.log.head?.map (fun _ => t.nt) ∧
        t.o Obj.NT_STEPS = satAdd 32 (s.o Obj.NT_STEPS) 1 ∧ t.o Obj.NT_RATE = s.o Obj.NT_RATE) ∧
      (m.step = false → s.o Obj.NT_STATE ≠ 0 → ((m.time : Int) - m.own).natAbs ≤ s.o Obj.NT_STEP_LIMIT * 2 ^ 32 →
        t.nt = s.nt ∧ t.time.slew = (m.time : Int) - m.own ∧ t.o Obj.NT_STEPS = s.o Obj.NT_STEPS ∧
        (s.time.prev = none → t.o Obj.NT_RATE = s.o Obj.NT_RATE)))) ∧
    (s.o Obj.NT_STATE ≠ 1 → exec .ntHoldoverExpire s = .next s) ∧
    (s.time.accepted = some a → s.ticksCover (s.tick - a) (1000 * s.o Obj.NT_HOLDOVER) = false → exec .ntHoldoverExpire s = .next s) ∧
    (s.o Obj.NT_STATE = 1 → s.time.accepted = none ∨ (s.time.accepted = some a ∧ s.ticksCover (s.tick - a) (1000 * s.o Obj.NT_HOLDOVER) = true) →
      Runs .ntHoldoverExpire s (fun t => t.o Obj.NT_STATE = 2 ∧ t.nt = s.nt ∧ t.o Obj.NT_RATE = s.o Obj.NT_RATE ∧
        t.time = s.time ∧ t.keepsObjects s [Obj.NT_STATE, Obj.NT_CAPT_CNT] ∧ { t with obj := s.obj, capts := s.capts } = s))

/-- INTOSC_READY samples the straps, the monitor qualifies, tracks and fails CKIN with its cause, and a lock after a
failure resumes at the next tick. (R398; R399; R400; R401; R403; R404; R530; R534; R397; R598) Rests on log entries
20, 21, 28 and 29, the model's own choices. -/
def Obligations.TheMonitorAcceptsTracksAndFailsTheClock : Prop :=
  ∀ (v : BitVec 9) (us : BitVec 32) (n : BitVec 16) (c : BitVec 20) (core : Bool) (s : State),
    (s.o Obj.CLK_STATE ≠ 0 ∨ s.power.rstN = true ∨ s.o Obj.PWR_STATE ≠ 1 → exec (.intoscReady v us) s = .next s) ∧
    (s.o Obj.CLK_STATE = 0 → s.power.rstN = false → s.o Obj.PWR_STATE = 1 →
      s.frz.ball = true → s.o Obj.FRZ_PIN_EN ≠ 0 → s.frz.frozen = false → Runs (.intoscReady v us) s (fun t =>
        t.frz.frozen = true ∧ t.frz.pin = true ∧ t.awake = false ∧ t.o Obj.CLK_STATE = 1 ∧ t.o Obj.PWR_STRAPS = v.toNat ∧
        t.o Obj.FRZ_COUNT = satAdd 32 (s.o Obj.FRZ_COUNT) 1)) ∧
    (s.o Obj.CLK_STATE = 0 → s.power.rstN = false → s.o Obj.PWR_STATE = 1 → s.frz.ball = false ∨ s.o Obj.FRZ_PIN_EN = 0 → Runs (.intoscReady v us) s (fun t =>
      t.o Obj.CLK_STATE = 1 ∧ t.o Obj.PWR_STRAPS = v.toNat ∧
      t.o Obj.CF_ROLE = (if bit v.toNat 8 then 3 else bits v.toNat 7 6) ∧ t.o Obj.CAN_NODE = bits v.toNat 5 0 ∧
      t.ob Obj.PWR_BOOT_STEP 1 = true ∧ t.ob Obj.PWR_BOOT_STEP 2 = true ∧ t.clk = { fx := s.o Obj.CLK_FX_NOM } ∧
      t.keepsObjects s [Obj.CLK_STATE, Obj.PWR_STRAPS, Obj.CF_ROLE, Obj.CAN_NODE, Obj.CF_ADDR, Obj.PWR_BOOT_STEP] ∧
      { t with obj := s.obj, clk := s.clk, power := s.power } = s)) ∧
    (s.o Obj.PWR_STATE = 0 → exec .intoscGap s = .next s ∧ exec (.plinthIntoscCount c) s = .next s) ∧
    (s.o Obj.PWR_STATE ≠ 0 → s.plinth.fault = false → Runs .intoscGap s (fun t => t.plinth.fault = true ∧
      (s.o Obj.CLK_STATE ≠ 1 → s.o Obj.CLK_STATE ≠ 4 → t.o Obj.CLK_INTOSC_FAULTS = satAdd 32 (s.o Obj.CLK_INTOSC_FAULTS) 1 ∧
        t.ob Obj.FLT_ACTIVE 1 = true ∧ t.o Obj.CLK_STATE = s.o Obj.CLK_STATE) ∧
      (s.o Obj.CLK_STATE = 1 ∨ s.o Obj.CLK_STATE = 4 → t.o Obj.CLK_STATE = 5 ∧ t.ob Obj.RST_PCYC 0 = true))) ∧
    (s.o Obj.PWR_STATE ≠ 0 → s.plinth.fault = true → exec .intoscGap s = .next { s with plinth := { s.plinth with good := 0 } }) ∧
    (s.o Obj.PWR_STATE ≠ 0 → s.plinth.fault = false → s.nearEp c.toNat 40 = false → s.o Obj.CLK_STATE ≠ 1 → s.o Obj.CLK_STATE ≠ 4 →
      Runs (.plinthIntoscCount c) s (fun t => t.plinth.fault = true ∧ t.ob Obj.FLT_ACTIVE 1 = true)) ∧
    (s.plinth.fault = false → s.nearEp c.toNat 40 = true → s.ckinAccepted = false → exec (.plinthIntoscCount c) s = .next s) ∧
    (s.o Obj.PWR_STATE ≠ 0 → s.plinth.fault = true → s.plinth.good = 1 → s.plinth.ep.isSome = true → s.nearEp c.toNat 5 = true → s.o Obj.CLK_STATE ≠ 5 →
      Runs (.plinthIntoscCount c) s (fun t => t.plinth.fault = false ∧ t.ob Obj.FLT_ACTIVE 1 = false ∧
        t.keepsObjects s [Obj.FLT_ACTIVE] ∧ { t with obj := s.obj, plinth := s.plinth } = s)) ∧
    (s.awake = true →
      (s.plinth.fault = true → exec (.ckinWindowEnd n) s = .next s) ∧
      (s.plinth.fault = false →
        (s.o Obj.CLK_STATE = 1 ∨ s.o Obj.CLK_STATE = 4 →
          (n = 0 → exec (.ckinWindowEnd n) s =
            .next { s.setO Obj.CLK_MON_LAST 0 with clk := { s.clk with run := [], fx := s.o Obj.CLK_FX_NOM } }) ∧
          (n ≠ 0 → inNominal s.clk.fx n.toNat = false → Runs (.ckinWindowEnd n) s (fun t =>
            t.o Obj.CLK_NOM_MISMATCH = satAdd 32 (s.o Obj.CLK_NOM_MISMATCH) 1 ∧ t.clk.run = [] ∧
            t.o Obj.CLK_STATE = s.o Obj.CLK_STATE)) ∧
          (n ≠ 0 → inNominal s.clk.fx n.toNat = true → s.o Obj.CLK_QUAL ≤ 1 → s.clk.run = [] → Runs (.ckinWindowEnd n) s (fun t =>
            t.o Obj.CLK_STATE = 2 ∧ t.o Obj.CAN_CLKSRC = 2 ∧ t.o Obj.CLK_MON_REF = n.toNat * 65536 ∧ t.clk.run = [] ∧
            t.ob Obj.FLT_ACTIVE 0 = false))) ∧
        (s.o Obj.CLK_STATE = 2 ∨ s.o Obj.CLK_STATE = 3 →
          (nearRef (s.o Obj.CLK_MON_REF) n.toNat 5 = true → Runs (.ckinWindowEnd n) s (fun t =>
            t.o Obj.CLK_MON_LAST = n.toNat ∧ t.keepsObjects s [Obj.CLK_MON_LAST, Obj.CLK_MON_REF, Obj.CLK_INTOSC_MEAS] ∧
            { t with obj := s.obj } = s)) ∧
          (nearRef (s.o Obj.CLK_MON_REF) n.toNat 5 = false → s.o Obj.PWR_STATE = 3 → Runs (.ckinWindowEnd n) s (fun t =>
            t.o Obj.CLK_FAIL_CAUSE = (if s.o Obj.CLK_MON_REF < n.toNat * 65536 then 2 else 3) ∧ t.o Obj.PWR_STATE = 4 ∧
            t.o Obj.CLK_STATE = 4)))) ∧
      (s.o Obj.CLK_STATE ∉ [2, 3] → exec .ckinMissingEdges s = .next s) ∧
      (s.o Obj.CLK_STATE ≠ 3 → exec (.pllLossOfLock core) s = .next s) ∧
      (s.o Obj.CLK_STATE ≠ 2 → exec .relockTimeout s = .next s ∧ exec (.pllLocked us) s = .next s) ∧
      (s.o Obj.CLK_STATE = 3 → s.plinth.fault = false → s.o Obj.PWR_STATE = 3 →
        Runs .ckinMissingEdges s (fun t => t.o Obj.CLK_STATE = 4 ∧ t.o Obj.PWR_STATE = 4 ∧ t.o Obj.CLK_FAIL_CAUSE = 1 ∧
          t.o Obj.CLK_FAILS = satAdd 32 (s.o Obj.CLK_FAILS) 1 ∧ t.o Obj.CLK_LAST_FAILX = s.xc ∧ t.ob Obj.FLT_LATCHED 0 = true ∧
          t.o Obj.XC_STATE = 0 ∧ t.clk.resume = false ∧ t.north.held = true ∧
          t.o Obj.NT_STATE = (if s.o Obj.NT_STATE = 1 then 2 else s.o Obj.NT_STATE) ∧ t.keepsMemories s) ∧
        Runs (.pllLossOfLock core) s (fun t => t.o Obj.CLK_STATE = 4 ∧ t.o Obj.PWR_STATE = 4 ∧
          t.o Obj.CLK_FAIL_CAUSE = (if core then 5 else 4))) ∧
      (s.o Obj.CLK_STATE = 3 → s.plinth.fault = false → s.o Obj.PWR_STATE = 1 →
        Runs .ckinMissingEdges s (fun t => t.o Obj.CLK_STATE = 1 ∧ t.o Obj.PWR_STATE = 1 ∧ t.o Obj.CLK_FAIL_CAUSE = 1 ∧
          t.o Obj.NT_STATE = s.o Obj.NT_STATE ∧ t.ob Obj.PWR_BOOT_STEP 5 = false ∧ t.o Obj.XC_STATE = 0)) ∧
      (s.o Obj.CLK_STATE = 2 → s.plinth.fault = false → s.o Obj.PWR_STATE = 4 →
        Runs .relockTimeout s (fun t => t.o Obj.CLK_STATE = 4 ∧ t.o Obj.PWR_STATE = 4 ∧ t.o Obj.CLK_FAIL_CAUSE = 6)) ∧
      (s.o Obj.CLK_STATE = 3 → s.plinth.fault = true →
        Runs .ckinMissingEdges s (fun t => t.o Obj.CLK_STATE = 5 ∧ t.ob Obj.RST_PCYC 0 = true)) ∧
      (s.o Obj.CLK_STATE = 2 → s.o Obj.PWR_STATE = 4 → Runs (.pllLocked us) s (fun t =>
        t.o Obj.CLK_STATE = 3 ∧ t.o Obj.CLK_PLL_STATUS = 7 ∧ t.clk.resume = true ∧ t.synthLost = 0 ∧ t.keepsMemories s)))

/-- CLK_GATE_REQ needs an expert; nodes that are busy stay ungated, count and turn the answer to FUNCTION_RUNNING, the
others take effect. (R405; R406) Rests on log entry 30, the model's own choice. -/
def Obligations.GateRequestsAreRefusedForBusyNodes : Prop :=
  ∀ (q : Req) (v : BitVec 32) (s : State), s.servedFor q = true →
    (s.isExpert q = false → Runs (.clkGateReqWrite q v) s (·.writeRefused s q Obj.CLK_GATE_REQ .expertRequired)) ∧
    (s.isExpert q = true → 2 ^ 26 ≤ v.toNat → Runs (.clkGateReqWrite q v) s (·.writeRefused s q Obj.CLK_GATE_REQ .outOfRange)) ∧
    (s.isExpert q = true → v.toNat < 2 ^ 26 → (∀ n : Fin 26, bit v.toNat n = true → s.nodeBusy n = false) →
      Runs (.clkGateReqWrite q v) s (·.writeWaits s q Obj.CLK_GATE_REQ v.toNat)) ∧
    (s.isExpert q = true → v.toNat < 2 ^ 26 → (∃ n : Fin 26, bit v.toNat n = true ∧ s.nodeBusy n = true) →
      Runs (.clkGateReqWrite q v) s (fun t =>
        t.answers q 0x02 .functionRunning (keyBytes Obj.CLK_GATE_REQ ++ bytesLE 6 0) ∧
        (∃ w, t.livePend = s.livePend ++ [(Obj.CLK_GATE_REQ, w)] ∧
          ∀ n : Fin 26, bit w n = (bit v.toNat n && !s.nodeBusy n)) ∧
        t.o Obj.CLK_REFUSED = satAdd 32 (s.o Obj.CLK_REFUSED) ((List.range 26).filter fun n => bit v.toNat n && s.nodeBusy n).length ∧
        (∃ n r : Fin 26, t.o Obj.CLK_REFUSED_BY = n.val ∧ s.nodeBusy n = true ∧ n.val ∈ subtree r ∧ bit v.toNat r = true ∧
          ∀ m k : Fin 26, bit v.toNat k = true → s.nodeBusy k = true → m.val ∈ subtree k → s.nodeBusy m = true → n ≤ m) ∧
        t.keepsObjects s [Obj.CLK_REFUSED, Obj.CLK_REFUSED_BY, Obj.CHK_ALIVE_TXN, Obj.CHK_ALIVE_TXC] ∧
        { t with obj := s.obj, cufel := s.cufel, livePend := s.livePend } = s))

/-- A conversion restarts one range lower at most three times, ends in a result word with its code by the slice's
constants, and a bad calibration counts. (R429; R431; R437; R439; R440; R441; R442; R449; R450; R435; R438; R536)
Rests on log entries 3 and 177, the model's own choices. -/
def Obligations.HousekeepingConvertsRangesAndCalibrates : Prop :=
  ∀ (m : Fin 32) (x y X Y : Int) (c : Int × Nat) (k : Nat) (rl fb : Bool) (raw : List (Int × Int)) (q : Req) (s : State),
    (s.awake = true → s.hk.entry = none → exec .hkRangeRestart s = .next s ∧ exec (.hkConversionEnd x y rl fb) s = .next s) ∧
    (s.awake = true → (∀ e ∈ s.hk.entry, s.hk.exc = hkDrive (s.o (hkEntryKey e))) → s.hk.exc = none ∨ s.hk.entry ≠ none →
      Runs (.hkConversionEnd x y rl fb) s (fun t => (∀ e ∈ t.hk.entry, t.hk.exc = hkDrive (t.o (hkEntryKey e))) ∧
        (t.hk.entry = none → t.hk.exc = none))) ∧
    (bits (s.o (Obj.HK_ENTRY m)) 62 60 ∈ [2, 3] → ∃ d ∈ hkDrive (s.o (Obj.HK_ENTRY m)),
      d.out.val = bits (s.o (Obj.HK_ENTRY m)) 51 51 ∧ d.level.val = bits (s.o (Obj.HK_ENTRY m)) 50 49 ∧ d.sine = bit (s.o (Obj.HK_ENTRY m)) 48) ∧
    (bits (s.o (Obj.HK_ENTRY m)) 62 60 ∉ [2, 3] → hkDrive (s.o (Obj.HK_ENTRY m)) = none) ∧
    (s.awake = true → (∀ e ∈ s.hk.entry, s.hk.burn = hkBurn (s.o (hkEntryKey e))) → s.hk.burn = 0 ∨ s.hk.entry ≠ none →
      Runs (.hkConversionEnd x y rl fb) s (fun t => (∀ e ∈ t.hk.entry, t.hk.burn = hkBurn (t.o (hkEntryKey e))) ∧
        (t.hk.entry = none → t.hk.burn = 0))) ∧
    hkBurn (s.o (Obj.HK_ENTRY m)) = (if bits (s.o (Obj.HK_ENTRY m)) 62 60 = 4 then 0 else bits (s.o (Obj.HK_ENTRY m)) 33 32) ∧
    (s.awake = true → s.hk.entry = some m.val →
      s.hk.consts.getD (4 * s.o Obj.HK_SLICE + (if bits (s.o (Obj.HK_ENTRY m)) 36 34 ≤ 3 then bits (s.o (Obj.HK_ENTRY m)) 36 34
        else s.o (Obj.HK_RANGE_NOW m))) (0, 65536) = c →
      2 * (65536 * X - (x - c.1) * c.2).natAbs < 65536 → 2 * (65536 * Y - (y - c.1) * c.2).natAbs < 65536 →
      (bits (s.o (Obj.HK_ENTRY m)) 36 34 ≠ 4 ∨ s.o (Obj.HK_RANGE_NOW m) = 0 ∨ 3 ≤ s.hk.retries → exec .hkRangeRestart s = .next s) ∧
      (bits (s.o (Obj.HK_ENTRY m)) 36 34 = 4 → 0 < s.o (Obj.HK_RANGE_NOW m) → s.hk.retries < 3 →
        Runs .hkRangeRestart s (fun t => t.o (Obj.HK_RANGE_NOW m) = s.o (Obj.HK_RANGE_NOW m) - 1 ∧
          t.o Obj.HK_RANGE_RETRY = satAdd 32 (s.o Obj.HK_RANGE_RETRY) 1 ∧ t.hk = { s.hk with retries := s.hk.retries + 1 } ∧
          t.keepsObjects s [Obj.HK_RANGE_NOW m, Obj.HK_RANGE_RETRY] ∧ { t with obj := s.obj, hk := s.hk } = s)) ∧
      (bit (s.o (Obj.HK_ENTRY m)) 13 = true → bit (s.o (Obj.HK_ENTRY m)) 12 = true → s.hk.repeating = false →
        s.hk.limit < (hkClip X - hkClip Y).natAbs → Runs (.hkConversionEnd x y rl fb) s (fun t =>
          t.o Obj.HK_DIST_CNT = satAdd 32 (s.o Obj.HK_DIST_CNT) 1 ∧ t.hk = { s.hk with repeating := true, retries := 0, onInt := s.onIntosc, limit := s.o Obj.HK_DIST_LIMIT } ∧
          t.keepsObjects s [Obj.HK_DIST_CNT] ∧ { t with obj := s.obj, hk := s.hk } = s)) ∧
      (bit (s.o (Obj.HK_ENTRY m)) 13 = false → bits (s.o (Obj.HK_ENTRY m)) 62 60 = 0 → bits (s.o (Obj.HK_ENTRY m)) 33 32 = 0 →
        bits (s.o (Obj.HK_ENTRY m)) 36 34 ≤ 3 → s.o Obj.HK_STATE = 3 → s.o Obj.HK_RES_EVT = 0 → s.o Obj.HK_START_PEND = 0 →
        Runs (.hkConversionEnd x y rl fb) s (fun t =>
          bits (t.o Obj.HK_RESULT) 19 0 = ofSigned 20 (max (-524287) (min 524287 X)) ∧
          (s.o Obj.HK_SLICE ≤ 1 → bits (t.o Obj.HK_RESULT) 63 48 = (bits (s.o Obj.HK_RESULT) 63 48 + 1) % 2 ^ 16 ∧
            bits (t.o Obj.HK_RESULT) 47 42 = m.val ∧ bits (t.o Obj.HK_RESULT) 41 40 = bits (s.o (Obj.HK_ENTRY m)) 36 34 ∧
            bit (t.o Obj.HK_RESULT) 38 = s.hk.unread ∧ bit (t.o Obj.HK_RESULT) 34 = decide (524287 < X ∨ X < -524287) ∧
            bit (t.o Obj.HK_RESULT) 32 = (s.onIntosc || (fb && s.hk.onInt))) ∧
          t.o Obj.HK_OVERRUNS = (if s.hk.unread then satAdd 32 (s.o Obj.HK_OVERRUNS) 1 else s.o Obj.HK_OVERRUNS) ∧
          t.o Obj.HK_CONV = (s.o Obj.HK_CONV + 1) % 2 ^ 48 ∧ t.o Obj.HK_STATE = 1 ∧ t.hk.unread = true ∧ t.hk.entry = none ∧ t.hk.exc = none ∧
          t.keepsMemories s))) ∧
    (s.awake = true → s.o Obj.HK_STATE = 0 ∨ s.cufel.down = true → exec (.hkCalDone raw) s = .next s) ∧
    (s.awake = true → s.o Obj.HK_STATE ≠ 0 → s.cufel.down = false →
      (raw.length ≠ 4 ∨ raw.all (fun e => hkConstOk e.1 e.2) = false → s.hk.recal.headD (1 - s.o Obj.HK_SLICE) = k →
        Runs (.hkCalDone raw) s (fun t => t.o Obj.HK_CAL_FAIL = satAdd 32 (s.o Obj.HK_CAL_FAIL) 1 ∧
          t.hk = { s.hk with fails := s.hk.fails.set k (s.hk.fails.getD k 0 + 1) } ∧
          t.watch = (if (s.hk.fails.getD k 0 + 1) % 8 = 0 then { s.watch with raised := s.watch.raised ++ [(8, Fin.ofNat 128 k)] } else s.watch) ∧
          t.keepsObjects s [Obj.HK_CAL_FAIL] ∧ { t with obj := s.obj, hk := s.hk, watch := s.watch } = s)) ∧
      (raw.length = 4 → raw.all (fun e => hkConstOk e.1 e.2) = true → s.hk.recal = [] → s.o Obj.HK_SLICE = 0 → s.hk.consts.length = 8 →
        s.hk.entry ≠ none → Runs (.hkCalDone raw) s (fun t => t.hk.sparePassed = true ∧
          t.hk.consts.take 4 = s.hk.consts.take 4 ∧ (t.hk.consts.drop 4).map (·.1) = raw.map (·.1) ∧
          { t with hk := s.hk, free := s.free } = s))) ∧
    (s.servedFor q = true → Runs (.hkResultRead q) s (fun t => t.hk = { s.hk with unread := false } ∧
      t.answers q 0x01 .ok (keyBytes Obj.HK_RESULT ++ bytesLE 1 6 ++ bytesLE 8 (s.o Obj.HK_RESULT)) ∧
      t.keepsObjects s [Obj.CHK_ALIVE_TXN, Obj.CHK_ALIVE_TXC] ∧ { t with obj := s.obj, cufel := s.cufel, hk := s.hk } = s))

/-- A received message is relayed, discarded, answered from its kept response, refused or queued; heartbeats are
answered, and events leave oldest first. (R459; R460; R461; R462; R470; R469; R274; R480; R482) Rests on log entry
178, the model's own choice. -/
def Obligations.ReceivedMessagesAreDiscardedAnsweredOrQueued : Prop :=
  ∀ (b : List Byte) (r : List (List Byte)) (q : Req) (e : Event) (es : List Event) (k : Fin 8) (kept : Msg) (l : List Path) (s : State),
    s.servedFor q = true →
    (s.north.mailbox = [] → exec (.cufelReceive .north) s = .next s) ∧
    (s.can.inbox = [] → exec (.cufelReceive .can) s = .next s) ∧
    (s.cufel.order.head? = some .can → exec (.cufelReceive .north) s = .next s) ∧
    (s.cufel.order.head? = some .north → exec (.cufelReceive .can) s = .next s) ∧
    (s.north.mailbox = b :: r → s.cufel.order = .north :: l →
      (msgFits b = false → Runs (.cufelReceive .north) s (fun t =>
        t.o Obj.CF_RX_BAD = satAdd 32 (s.o Obj.CF_RX_BAD) 1 ∧ t.keepsObjects s [Obj.CF_RX_BAD] ∧
        { t with obj := s.obj } = { s with north := { s.north with mailbox := r }, cufel := { s.cufel with order := l } })) ∧
      (msgFits b = true → s.leafPort (msgDst b) = some k → s.o (Obj.HUB_PSTATE k) = 3 →
        Runs (.cufelReceive .north) s (fun t =>
          t.o Obj.CF_RELAY_SOUTH = (s.o Obj.CF_RELAY_SOUTH + 1) % 2 ^ 32 ∧ t.keepsObjects s [Obj.CF_RELAY_SOUTH] ∧
          t.cufel = { s.cufel with relay := s.cufel.relay.set k (s.cufel.relay.getD k [] ++ [b]), order := l } ∧
          { t with obj := s.obj, cufel := s.cufel } = { s with north := { s.north with mailbox := r } })) ∧
      (msgFits b = true → s.leafPort (msgDst b) = some k → s.o (Obj.HUB_PSTATE k) ≠ 3 →
        Runs (.cufelReceive .north) s (fun t =>
          t.o Obj.CF_RELAY_DROP = satAdd 32 (s.o Obj.CF_RELAY_DROP) 1 ∧ t.keepsObjects s [Obj.CF_RELAY_DROP] ∧
          { t with obj := s.obj } = { s with north := { s.north with mailbox := r }, cufel := { s.cufel with order := l } })) ∧
      (msgFits b = true → s.leafPort (msgDst b) = none →
        (msgCrcOk b = false → Runs (.cufelReceive .north) s (fun t =>
          t.o Obj.CF_RX_BAD = satAdd 32 (s.o Obj.CF_RX_BAD) 1 ∧ t.keepsObjects s [Obj.CF_RX_BAD, Obj.CHK_RUN 35] ∧
          { t with obj := s.obj } = { s with north := { s.north with mailbox := r }, cufel := { s.cufel with order := l } })) ∧
        (msgCrcOk b = true → (parseMsg b).resp = true ∨ ((parseMsg b).dst ≠ s.o Obj.CF_ADDR ∧ (parseMsg b).dst ≠ 0xFFFF) ∨
            hostAddr (parseMsg b).src = false → Runs (.cufelReceive .north) s (fun t =>
          t.o Obj.CF_RX_MISADDR = satAdd 32 (s.o Obj.CF_RX_MISADDR) 1 ∧ t.keepsObjects s [Obj.CF_RX_MISADDR, Obj.CHK_RUN 35] ∧
          { t with obj := s.obj } = { s with north := { s.north with mailbox := r }, cufel := { s.cufel with order := l } })) ∧
        (msgCrcOk b = true → (parseMsg b).resp = false → (parseMsg b).dst = s.o Obj.CF_ADDR ∨ (parseMsg b).dst = 0xFFFF →
            hostAddr (parseMsg b).src = true →
          ((∃ a ∈ s.cufel.aliveNorth, a.src = (parseMsg b).src ∧ a.alive = (parseMsg b).alive) →
            Runs (.cufelReceive .north) s (fun t => t.o Obj.CHK_ALIVE_REP = satAdd 32 (s.o Obj.CHK_ALIVE_REP) 1 ∧
              t.cufel.queue = s.cufel.queue ∧ t.cufel.order = l ∧ t.keepsMemories s ∧
              ((∀ a ∈ s.cufel.aliveNorth, a.src = (parseMsg b).src → a.kept = some kept) → kept.tid = (parseMsg b).tid →
                t.o Obj.CF_RESP_CACHED = satAdd 32 (s.o Obj.CF_RESP_CACHED) 1 ∧
                t.cufel.outNorth = s.cufel.outNorth ++ [{ kept with alive := s.o Obj.CHK_ALIVE_TXN }]))) ∧
          ((∀ a ∈ s.cufel.aliveNorth, a.src = (parseMsg b).src → a.alive ≠ (parseMsg b).alive) → msgVer b = 2 →
            isRequest (parseMsg b).mtype = true → Runs (.cufelReceive .north) s (fun t =>
              t.cufel.queue = s.cufel.queue ++ [{ path := .north, msg := parseMsg b, addr := s.o Obj.CF_ADDR }] ∧
              t.o Obj.CF_RX_MSGS = satAdd 32 (s.o Obj.CF_RX_MSGS) 1 ∧
              (∃ a ∈ t.cufel.aliveNorth, a.src = (parseMsg b).src ∧ a.alive = (parseMsg b).alive) ∧
              t.keepsObjects s [Obj.CF_RX_MSGS, Obj.CHK_RUN 35, Obj.CHK_ALIVE_GAP] ∧
              { t with obj := s.obj, cufel := s.cufel } = { s with north := { s.north with mailbox := r } }))))) ∧
    (s.badLength q 0 = false → Runs (.heartbeatRequest q) s (·.onlyAnswered s q 0x11 .ok s.heartbeat)) ∧
    (s.badLength q 0 = true → Runs (.heartbeatRequest q) s (·.onlyAnswered s q 0x11 .length (List.replicate 16 0))) ∧
    (s.o Obj.CF_HB_PER = 0 → exec .heartbeatSend s = .next s) ∧
    (s.o Obj.CF_HB_PER ≠ 0 → s.eventPath = none → exec .heartbeatSend s =
      .next { s with cufel := { s.cufel with beat := some s.heartbeat } }) ∧
    (s.o Obj.CF_HB_PER ≠ 0 → s.eventPath = some .north → Runs .heartbeatSend s (fun t =>
      (∃ m ∈ t.cufel.outNorth, m.mtype = 0x11 ∧ m.resp = false ∧ m.dst = s.o Obj.CF_EVT_DEST ∧ m.body = s.heartbeat) ∧
      t.cufel.beat = none ∧ t.keepsObjects s [Obj.CHK_ALIVE_TXN] ∧ t.cufel.queue = s.cufel.queue)) ∧
    ((s.cufel.events = [] ∧ s.cufel.beat = none) ∨ (s.eventPath = none ∧ s.o Obj.CAN_STATE ≠ 6) → exec .eventSend s = .next s) ∧
    (s.eventPath = some .north → s.cufel.beat = some b → Runs .eventSend s (fun t => t.cufel.events = s.cufel.events ∧ t.cufel.beat = none ∧
      (∃ m ∈ t.cufel.outNorth, m.mtype = 0x11 ∧ m.resp = false ∧ m.dst = s.o Obj.CF_EVT_DEST ∧ m.body = b))) ∧
    (s.eventPath = none → s.o Obj.CAN_STATE = 6 → s.o Obj.RG_LSTATE = 3 → s.cufel.events = e :: es → e.code = 0x0601 →
      Runs .eventSend s (fun t => t.cufel.events = es ∧
        (∃ m ∈ t.cufel.outNorth, m.mtype = 0x10 ∧ m.resp = false ∧ m.tid = e.seq % 256 ∧ m.body = e.body))) ∧
    (s.cufel.events = e :: es → s.cufel.beat = none → s.eventPath = some .north → Runs .eventSend s (fun t => t.cufel.events = es ∧
      (∃ m ∈ t.cufel.outNorth, m.mtype = 0x10 ∧ m.resp = false ∧ m.tid = e.seq % 256 ∧ m.dst = s.o Obj.CF_EVT_DEST ∧ m.body = e.body) ∧
      t.keepsObjects s [Obj.CHK_ALIVE_TXN] ∧ t.cufel.queue = s.cufel.queue))

/-- A challenge read, then an unlock with challenge XOR key in time opens a session; a wrong one consumes the challenge;
three lock the path out. (R466; R467) Rests on log entries 67 and 68, the model's own choices. -/
def Obligations.SessionsOpenByTheRightUnlock : Prop :=
  ∀ (q : Req) (c : Challenge) (v : BitVec 16) (w : BitVec 8) (inTime : Bool) (p : Path) (src : BitVec 16) (s : State),
    (s.servedFor q = true →
      Runs (.cfChallengeRead q) s (fun t =>
        (∃ d ∈ t.cufel.challenges, d.path = q.path ∧ d.src = q.src.toNat ∧ d.used = false ∧ d.key = s.o Obj.CF_KEY ∧ d.value < 2 ^ 16 ∧
          (∀ d' ∈ s.challengeOf q, d.value ≠ d'.value) ∧
          t.answers q 0x01 .ok (keyBytes Obj.CF_CHALLENGE ++ bytesLE 1 3 ++ bytesLE 2 d.value)) ∧
        t.cufel.sessions = s.cufel.sessions ∧ t.keepsObjects s [Obj.CHK_ALIVE_TXN, Obj.CHK_ALIVE_TXC]) ∧
      (s.cufel.locked q.path = true → Runs (.cfUnlockWrite q v inTime) s (·.writeRefused s q Obj.CF_UNLOCK .lockedOut)) ∧
      (s.cufel.locked q.path = false → s.challengeOf q = some c →
        (inTime = true → c.used = false → v.toNat = c.value ^^^ c.key →
          Runs (.cfUnlockWrite q v inTime) s (fun t => t.cufel.fails q.path = 0 ∧
            (∀ d ∈ t.challengeOf q, d.used = true) ∧ t.keepsObjects s [Obj.CHK_ALIVE_TXN, Obj.CHK_ALIVE_TXC] ∧
            (s.isExpert q = true → t.cufel.sessions = s.cufel.sessions ∧
              t.answers q 0x02 .ok (keyBytes Obj.CF_UNLOCK ++ bytesLE 6 ((s.xc + 1) % 2 ^ 48))) ∧
            (s.isExpert q = false → s.cufel.sessions.length < 4 →
              t.cufel.sessions = s.cufel.sessions ++ [{ path := q.path, src := q.src.toNat }] ∧ t.isExpert q = true ∧
              t.answers q 0x02 .ok (keyBytes Obj.CF_UNLOCK ++ bytesLE 6 ((s.xc + 1) % 2 ^ 48))) ∧
            (s.isExpert q = false → 4 ≤ s.cufel.sessions.length → t.cufel.sessions = s.cufel.sessions ∧
              t.answers q 0x02 .noResource (keyBytes Obj.CF_UNLOCK ++ bytesLE 6 0)))) ∧
        (inTime = false ∨ c.used = true ∨ v.toNat ≠ c.value ^^^ c.key →
          Runs (.cfUnlockWrite q v inTime) s (fun t =>
            t.answers q 0x02 .keyRefused (keyBytes Obj.CF_UNLOCK ++ bytesLE 6 0) ∧
            t.o Obj.CF_KEY_FAIL = satAdd 32 (s.o Obj.CF_KEY_FAIL) 1 ∧ t.cufel.sessions = s.cufel.sessions ∧
            (∀ d ∈ t.challengeOf q, d.used = true) ∧ t.cufel.locked q.path = decide (3 ≤ s.cufel.fails q.path + 1) ∧
            (s.cufel.fails q.path < 2 → t.cufel.fails q.path = s.cufel.fails q.path + 1) ∧
            t.keepsObjects s [Obj.CF_KEY_FAIL, Obj.CHK_ALIVE_TXN, Obj.CHK_ALIVE_TXC]))) ∧
      (w ≠ 1 → Runs (.cfLockWrite q w) s (·.writeRefused s q Obj.CF_LOCK .outOfRange)) ∧
      (w = 1 → Runs (.cfLockWrite q w) s (fun t => t.isExpert q = false ∧
        (∀ x ∈ s.cufel.sessions, x.path ≠ q.path ∨ x.src ≠ q.src.toNat → x ∈ t.cufel.sessions) ∧
        t.answers q 0x02 .ok (keyBytes Obj.CF_LOCK ++ bytesLE 6 ((s.xc + 1) % 2 ^ 48)) ∧
        t.keepsObjects s [Obj.CHK_ALIVE_TXN, Obj.CHK_ALIVE_TXC]))) ∧
    (s.awake = true →
      Runs (.sessionTimeout p src) s (fun t =>
        t.cufel.sessions = s.cufel.sessions.filter (fun x => !(decide (x.path = p) && x.src == src.toNat)) ∧
        { t with cufel := { t.cufel with sessions := s.cufel.sessions } } = s) ∧
      Runs (.lockoutExpire p) s (fun t => t.cufel.locked p = false ∧ t.cufel.fails p = 0 ∧
        t.cufel.sessions = s.cufel.sessions ∧ { t with cufel := s.cufel } = s))

/-- READ answers an object's bytes or why not; WRITE is judged by form, access, type, level, value and running state,
and waits for the tick or for APPLY. (R456; R464; R465; R467; R489; R491; R492; R493) Rests on log entry 60, the
model's own choice. -/
def Obligations.ReadsAndWritesOfObjectsAreJudged : Prop :=
  ∀ (q : Req) (body : List Byte) (d : ObjDesc) (s : State), s.servedFor q = true →
    (body.length ≠ 3 → Runs (.read q body) s (·.onlyAnswered s q 0x01 .length (keyBytes (bodyKey body) ++ [0]))) ∧
    (body.length = 3 → objDesc (bodyKey body) = none →
      Runs (.read q body) s (·.onlyAnswered s q 0x01 .absentObject (keyBytes (bodyKey body) ++ [0]))) ∧
    (body.length = 3 → objDesc (bodyKey body) = some d →
      (d.type = .domain → Runs (.read q body) s (·.onlyAnswered s q 0x01 .typeMismatch (keyBytes (bodyKey body) ++ [0]))) ∧
      (d.type ≠ .domain → bodyKey body ≠ Obj.CF_CHALLENGE →
        Runs (.read q body) s (fun t =>
          t.answers q 0x01 .ok (keyBytes (bodyKey body) ++ bytesLE 1 d.type.tcode ++ s.readBytes (bodyKey body) d) ∧
          (d.type ≠ .str → d.acc = .wo → s.readBytes (bodyKey body) d = bytesLE d.type.bytes 0) ∧
          (d.type ≠ .str → d.acc ≠ .wo → s.live (bodyKey body) = none →
            s.readBytes (bodyKey body) d = bytesLE d.type.bytes (s.o (bodyKey body) % 2 ^ d.type.width)) ∧
          (d.acc = .rc → t.o (bodyKey body) = s.presentLevel (bodyKey body)) ∧
          (d.acc ≠ .rc → bodyKey body ≠ Obj.NT_NOW → bodyKey body ≠ Obj.HK_RESULT →
            { t with obj := s.obj, cufel := s.cufel } = s ∧ t.keepsObjects s [Obj.CHK_ALIVE_TXN, Obj.CHK_ALIVE_TXC]) ∧
          t.keepsMemories s)) ∧
      (d.type ≠ .domain → bodyKey body = Obj.CF_CHALLENGE → exec (.read q body) s = exec (.cfChallengeRead q) s)) ∧
    (body.length < 4 → Runs (.writeObject q body) s (·.writeRefused s q (bodyKey body) .length)) ∧
    (4 ≤ body.length → objDesc (bodyKey body) = none → Runs (.writeObject q body) s (·.writeRefused s q (bodyKey body) .absentObject)) ∧
    (4 ≤ body.length → objDesc (bodyKey body) = some d →
      (d.acc ≠ .rw → d.acc ≠ .wo → Runs (.writeObject q body) s (·.writeRefused s q (bodyKey body) .readOnly)) ∧
      (d.acc = .rw ∨ d.acc = .wo → d.type = .domain ∨ (body.getD 3 0).toNat ≠ d.type.tcode →
        Runs (.writeObject q body) s (·.writeRefused s q (bodyKey body) .typeMismatch)) ∧
      (d.acc = .rw ∨ d.acc = .wo → d.type ≠ .domain → (body.getD 3 0).toNat = d.type.tcode →
        (body.length ≠ 4 + d.type.bytes → Runs (.writeObject q body) s (·.writeRefused s q (bodyKey body) .length)) ∧
        (body.length = 4 + d.type.bytes →
          (bodyKey body = Obj.CF_UNLOCK → exec (.writeObject q body) s = exec (.cfUnlockWrite q (BitVec.ofNat 16 (fromLE (body.drop 4))) true) s) ∧
          (bodyKey body = Obj.CF_LOCK → exec (.writeObject q body) s = exec (.cfLockWrite q (BitVec.ofNat 8 (fromLE (body.drop 4)))) s) ∧
          (bodyKey body = Obj.CLK_GATE_REQ → exec (.writeObject q body) s = exec (.clkGateReqWrite q (BitVec.ofNat 32 (fromLE (body.drop 4)))) s)) ∧
        (body.length = 4 + d.type.bytes → bodyKey body ∉ [Obj.CF_UNLOCK, Obj.CF_LOCK, Obj.CLK_GATE_REQ] →
          (d.expert = true → s.isExpert q = false →
            Runs (.writeObject q body) s (·.writeRefused s q (bodyKey body) .expertRequired)) ∧
          (d.expert = false ∨ s.isExpert q = true →
            (s.valueCheck (bodyKey body) d (fromLE (body.drop 4)) ≠ .ok → Runs (.writeObject q body) s (fun t =>
              t.writeRefused s q (bodyKey body) (s.valueCheck (bodyKey body) d (fromLE (body.drop 4))))) ∧
            (s.valueCheck (bodyKey body) d (fromLE (body.drop 4)) = .ok → d.cls = .halt → s.running (bodyKey body) = true →
              Runs (.writeObject q body) s (·.writeRefused s q (bodyKey body) .functionRunning)) ∧
            (s.writeCheck q (bodyKey body) d (fromLE (body.drop 4)) = .ok →
              (d.cls = .shadow → Runs (.writeObject q body) s (fun t =>
                (bodyKey body, fromLE (body.drop 4)) ∈ t.shadowPend ∧
                (∀ e ∈ s.shadowPend, e.1 ≠ bodyKey body → e ∈ t.shadowPend) ∧
                t.answers q 0x02 .ok (keyBytes (bodyKey body) ++ bytesLE 6 0) ∧
                t.keepsObjects s [Obj.CHK_ALIVE_TXN, Obj.CHK_ALIVE_TXC] ∧
                { t with obj := s.obj, cufel := s.cufel, shadowPend := s.shadowPend } = s)) ∧
              (d.cls ≠ .shadow → family 0x4010 25 0x14 (bodyKey body) = none → bodyKey body ∉ [Obj.CF_KEY, Obj.FRZ_CTRL] →
                Runs (.writeObject q body) s (·.writeWaits s q (bodyKey body) (fromLE (body.drop 4)))) ∧
              (d.cls ≠ .shadow → bodyKey body ∈ [Obj.CF_KEY, Obj.FRZ_CTRL] → Runs (.writeObject q body) s (fun t =>
                t.answers q 0x02 .ok (keyBytes (bodyKey body) ++ bytesLE 6 ((s.xc + 1) % 2 ^ 48)) ∧
                (bodyKey body = Obj.CF_KEY → t.o Obj.CF_KEY = fromLE (body.drop 4)) ∧
                (bodyKey body = Obj.FRZ_CTRL → t.cufel.after = some .freeze) ∧ t.livePend = s.livePend ∧ t.keepsMemories s)))))))

/-- A block read opens a snapshot of the object and serves it by segments; a block write appends segments in order; an
error or a time-out closes the transfer. (R15; R468; R463; R372; R385; R510; R271) Rests on log entries 14, 72 and
176, the model's own choices. -/
def Obligations.BlockTransfersGoSegmentBySegment : Prop :=
  ∀ (q : Req) (body : List Byte) (d : ObjDesc) (x : Transfer) (u : List Upset) (patch : Option (BitVec 16)) (e : StoreEnd) (p : Path) (src : BitVec 16)
    (s : State),
    (s.servedFor q = true →
      Runs (.readBlock q body u) s (fun t => t.rankMem = s.rankMem ∧ t.nvm = s.nvm ∧ t.keepsSpmOutside s 0x5AC000 0x5C4000) ∧
      (body.length ≠ 8 → Runs (.readBlock q body u) s (·.onlyAnswered s q 0x03 .length (blockBody (bodyKey body) 0 0 0))) ∧
      (body.length = 8 → objDesc (bodyKey body) = none →
        Runs (.readBlock q body u) s (·.onlyAnswered s q 0x03 .absentObject (blockBody (bodyKey body) 0 0 0))) ∧
      (body.length = 8 → objDesc (bodyKey body) = some d →
        (d.type ≠ .domain → Runs (.readBlock q body u) s (·.onlyAnswered s q 0x03 .typeMismatch (blockBody (bodyKey body) 0 0 0))) ∧
        (d.type = .domain → bit (body.getD 3 0).toNat 0 = true → bit (body.getD 3 0).toNat 2 = false →
          (4 ≤ (s.closeTransfer q).cufel.transfers.length ∨
              (bodyKey body ∈ [Obj.NV_IMAGE, Obj.NV_PATCH] ∧ (s.closeTransfer q).nvOpen = true) → Runs (.readBlock q body u) s (fun t =>
            t.answers q 0x03 .noResource (blockBody (bodyKey body) 0 0 0) ∧
            t.cufel.transfers = (s.closeTransfer q).cufel.transfers ∧ t.keepsMemories s)) ∧
          ((s.closeTransfer q).cufel.transfers.length < 4 → bodyKey body ∉ [Obj.NV_IMAGE, Obj.NV_PATCH] ∨ (s.closeTransfer q).nvOpen = false →
            (∀ c ∈ (match (s.closeTransfer q).domainRead (bodyKey body) with | .error c => some c | .ok _ => none),
              Runs (.readBlock q body u) s (fun t => t.answers q 0x03 c (blockBody (bodyKey body) 0 0 0) ∧
                t.transferOf q = none ∧ t.keepsMemories s)) ∧
            (∀ r ∈ ((s.closeTransfer q).domainRead (bodyKey body)).toOption,
              (fromLE ((body.drop 4).take 4) = 0 → Runs (.readBlock q body []) s (fun t =>
                (∃ y ∈ t.transferOf q, y.write = false ∧ y.data = r.2 ∧ y.total = r.2.length ∧ objKey y.index y.sub = bodyKey body) ∧
                t.answers q 0x03 .ok (blockBody (bodyKey body) (if r.2.length ≤ 480 then 2 else 0) 0 r.2.length ++ r.2.take 480))) ∧
              (bodyKey body = Obj.NV_IMAGE → r.2 = s.imageNow) ∧
              (bodyKey body = Obj.PRB_DATA → s.o Obj.PRB_STATE = 5 ∧ (s.o Obj.PRB_CODED = 0 → r.2 = memRead s.spm 0x5A8000 16384))))) ∧
        (d.type = .domain → bit (body.getD 3 0).toNat 0 = false → bit (body.getD 3 0).toNat 2 = false →
          (s.transferOf q = none → Runs (.readBlock q body u) s (·.onlyAnswered s q 0x03 .segment (blockBody (bodyKey body) 0 0 0))) ∧
          (s.transferOf q = some x → x.write = true ∨ objKey x.index x.sub ≠ bodyKey body →
            Runs (.readBlock q body u) s (·.onlyAnswered s q 0x03 .segment (blockBody (bodyKey body) 0 0 0)))) ∧
        (d.type = .domain → bit (body.getD 3 0).toNat 0 = false → bit (body.getD 3 0).toNat 2 = false → s.transferOf q = some x →
          x.write = false → objKey x.index x.sub = bodyKey body →
          (fromLE ((body.drop 4).take 4) < x.total → Runs (.readBlock q body []) s (fun t =>
            t.onlyAnswered s q 0x03 .ok (blockBody (bodyKey body)
              (if fromLE ((body.drop 4).take 4) + min 480 (x.total - fromLE ((body.drop 4).take 4)) = x.total then 2 else 0)
              (fromLE ((body.drop 4).take 4)) x.total ++
              (x.data.drop (fromLE ((body.drop 4).take 4))).take (min 480 (x.total - fromLE ((body.drop 4).take 4)))) ∧
            t.transferOf q = some x)) ∧
          (fromLE ((body.drop 4).take 4) < x.total →
            (s.channelRead 4 ((snapshotAddr (bodyKey body) x.slot + fromLE ((body.drop 4).take 4)) / 8 * 8)
              ((snapshotAddr (bodyKey body) x.slot + fromLE ((body.drop 4).take 4)) % 8 + min 480 (x.total - fromLE ((body.drop 4).take 4))) u).2 ≠ none →
            Runs (.readBlock q body u) s (fun t => t.answers q 0x03 .failed (blockBody (bodyKey body) 0 0 0) ∧ t.transferOf q = none ∧
              t.keepsMemories s)) ∧
          (x.total ≤ fromLE ((body.drop 4).take 4) → 0 < x.total → Runs (.readBlock q body u) s (fun t =>
            t.answers q 0x03 .segment (blockBody (bodyKey body) 0 0 0) ∧ t.transferOf q = none ∧
            t.o Obj.CF_BLK_SEGERR = satAdd 32 (s.o Obj.CF_BLK_SEGERR) 1 ∧ t.keepsMemories s))) ∧
        (d.type = .domain → bit (body.getD 3 0).toNat 2 = true →
          (s.transferOf q = none → Runs (.readBlock q body u) s (·.onlyAnswered s q 0x03 .segment (blockBody (bodyKey body) 0 0 0))) ∧
          (s.transferOf q = some x → Runs (.readBlock q body u) s (fun t =>
            t.answers q 0x03 .ok (blockBody (bodyKey body) 4 0 0) ∧ t.transferOf q = none ∧ t.keepsMemories s)))) ∧
      (body.length < 12 ∨ 492 < body.length →
        Runs (.writeBlock q body u patch e) s (·.onlyAnswered s q 0x04 .length (blockBody (bodyKey body) 0 0 0))) ∧
      (12 ≤ body.length → body.length ≤ 492 → objDesc (bodyKey body) = some d → d.acc = .rw ∨ d.acc = .wo → d.type = .domain →
        (d.expert = true → s.isExpert q = false → Runs (.writeBlock q body u patch e) s
          (·.onlyAnswered s q 0x04 .expertRequired (blockBody (bodyKey body) 0 0 0))) ∧
        (d.expert = false ∨ s.isExpert q = true → s.transferOf q = some x → x.write = true → objKey x.index x.sub = bodyKey body →
          (body.getD 3 0).toNat % 8 = 2 → fromLE ((body.drop 8).take 4) = x.total → fromLE ((body.drop 4).take 4) = x.data.length →
          x.data.length + (body.drop 12).length = x.total →
          (bodyKey body = Obj.NV_IMAGE →
            exec (.writeBlock q body u patch e) s =
              exec (.nvImageWrite q (x.data ++ body.drop 12) u e) ((s.closeTransfer q).check 37 (x.data ++ body.drop 12))) ∧
          (bodyKey body = Obj.NV_PATCH →
            exec (.writeBlock q body u patch e) s =
              exec (.nvPatchWrite q (x.data ++ body.drop 12) u ⟨patch, e⟩) ((s.closeTransfer q).check 37 (x.data ++ body.drop 12)))) ∧
        (d.expert = false ∨ s.isExpert q = true → (body.getD 3 0).toNat % 8 = 0 →
          (s.transferOf q = none → Runs (.writeBlock q body u patch e) s
            (·.onlyAnswered s q 0x04 .segment (blockBody (bodyKey body) 0 0 0))) ∧
          (s.transferOf q = some x → x.write = true → objKey x.index x.sub = bodyKey body →
            (fromLE ((body.drop 8).take 4) = x.total → fromLE ((body.drop 4).take 4) = x.data.length →
                x.data.length + (body.drop 12).length ≤ x.total →
              Runs (.writeBlock q body u patch e) s (fun t =>
                t.answers q 0x04 .ok (blockBody (bodyKey body) 0 (x.data ++ body.drop 12).length x.total) ∧
                t.transferOf q = some { x with data := x.data ++ body.drop 12, prev := some (x.data.length, (body.drop 12).length) } ∧
                t.keepsObjects s [Obj.CHK_ALIVE_TXN, Obj.CHK_ALIVE_TXC] ∧ t.keepsMemories s)) ∧
            (fromLE ((body.drop 8).take 4) = x.total → fromLE ((body.drop 4).take 4) ≠ x.data.length →
                x.prev = some (fromLE ((body.drop 4).take 4), (body.drop 12).length) →
              Runs (.writeBlock q body u patch e) s (fun t =>
                t.onlyAnswered s q 0x04 .ok (blockBody (bodyKey body) 0 x.data.length x.total) ∧ t.transferOf q = some x)) ∧
            (fromLE ((body.drop 8).take 4) ≠ x.total → Runs (.writeBlock q body u patch e) s (fun t =>
              t.answers q 0x04 .segment (blockBody (bodyKey body) 0 0 0) ∧ t.transferOf q = none ∧
              t.o Obj.CF_BLK_SEGERR = satAdd 32 (s.o Obj.CF_BLK_SEGERR) 1 ∧ t.keepsMemories s)))))) ∧
    (s.awake = true →
      ((∀ y ∈ s.cufel.transfers, y.path ≠ p ∨ y.src ≠ src.toNat) → exec (.blockTransferTimeout p src) s = .next s) ∧
      ((∃ y ∈ s.cufel.transfers, y.path = p ∧ y.src = src.toNat) → Runs (.blockTransferTimeout p src) s (fun t =>
        (∀ y ∈ t.cufel.transfers, y.path ≠ p ∨ y.src ≠ src.toNat) ∧ t.o Obj.CF_BLK_ABANDON = satAdd 32 (s.o Obj.CF_BLK_ABANDON) 1 ∧
        t.keepsObjects s [Obj.CF_BLK_ABANDON] ∧ { t with obj := s.obj, cufel := s.cufel } = s)))

/-- APPLY captures all pending values for a turn marker at least two ticks away; RESTORE_DEFAULTS needs an expert and no
running HALT function. (R492; R509; R464; R467; R110; R456) Rests on log entries 12, 14 and 74, the model's own
choices. -/
def Obligations.ApplyAndRestoreActOnTheirObjects : Prop :=
  ∀ (q : Req) (u : List Upset) (e : StoreEnd) (s : State), s.servedFor q = true →
    (s.badLength q 0 = true → Runs (.apply q) s (·.onlyAnswered s q 0x07 .length (bytesLE 6 0))) ∧
    (s.badLength q 1 = true → Runs (.restoreDefaultsValues q) s (·.onlyAnswered s q 0x06 .length []) ∧
      Runs (.restoreDefaultsImage q u e) s (·.onlyAnswered s q 0x06 .length []) ∧
      Runs (.restoreDefaultsBoth q u e) s (·.onlyAnswered s q 0x06 .length [])) ∧
    (s.badLength q 1 = false → s.isExpert q = true → (∃ b ∈ s.queuedBody q, fromLE b = 0 ∨ 3 < fromLE b) →
      Runs (.restoreDefaultsValues q) s (·.onlyAnswered s q 0x06 .outOfRange []) ∧
      Runs (.restoreDefaultsImage q u e) s (·.onlyAnswered s q 0x06 .outOfRange []) ∧
      Runs (.restoreDefaultsBoth q u e) s (·.onlyAnswered s q 0x06 .outOfRange [])) ∧
    (s.badLength q 0 = false → Runs (.apply q) s (fun t =>
      t.answers q 0x07 .ok (bytesLE 6 s.applyTurn) ∧ t.o Obj.NV_APPLY_X = s.applyTurn ∧ t.shadowPend = [] ∧
      t.applied = (if s.shadowPend = [] then s.applied else s.applied ++ [(s.tick + 2, s.shadowPend)]) ∧ t.lutsWaiting = 0 ∧
      t.keepsObjects s [Obj.NV_APPLY_X, Obj.CHK_ALIVE_TXN, Obj.CHK_ALIVE_TXC] ∧ t.keepsMemories s ∧
      (s.xc + 2 < 2 ^ 48 - 2 ^ 24 → s.o Obj.XC_TURN_LEN ≠ 0 → s.o Obj.XC_TURN_LEN < 2 ^ 24 →
        s.applyTurn % s.o Obj.XC_TURN_LEN = 0 ∧ s.xc + 2 ≤ s.applyTurn ∧ s.applyTurn < s.xc + 2 + s.o Obj.XC_TURN_LEN) ∧
      (∀ c : Ch, (t.chan c).host = none ∧ (t.chan c).lut = (s.chan c).lut ∧ ((s.chan c).host = none → (t.chan c).hostDue = (s.chan c).hostDue) ∧
        ∀ p ∈ (s.chan c).host, (t.chan c).hostDue = (s.chan c).hostDue ++ [{ p with applied := some (s.tick + 2) }]))) ∧
    (s.badLength q 1 = false → s.isExpert q = false →
      Runs (.restoreDefaultsValues q) s (·.onlyAnswered s q 0x06 .expertRequired []) ∧
      Runs (.restoreDefaultsImage q u e) s (·.onlyAnswered s q 0x06 .expertRequired []) ∧
      Runs (.restoreDefaultsBoth q u e) s (·.onlyAnswered s q 0x06 .expertRequired [])) ∧
    (s.badLength q 1 = false → s.badScope q = false → s.isExpert q = true → s.restoreBlocked = true →
      Runs (.restoreDefaultsValues q) s (·.onlyAnswered s q 0x06 .functionRunning []) ∧
      (s.nvOpen = false → Runs (.restoreDefaultsBoth q u e) s (·.onlyAnswered s q 0x06 .functionRunning []))) ∧
    (s.badLength q 1 = false → s.badScope q = false → s.isExpert q = true → s.nvOpen = true →
      exec (.restoreDefaultsImage q u e) s = .next s ∧ exec (.restoreDefaultsBoth q u e) s = .next s) ∧
    (s.badLength q 1 = false → s.badScope q = false → s.isExpert q = true →
      (s.restoreBlocked = false → Runs (.restoreDefaultsValues q) s (fun t =>
        t.answers q 0x06 .ok [] ∧ t.livePend = (storedKeys.foldl State.restoreOne s).livePend ∧
        t.shadowPend = (storedKeys.foldl State.restoreOne s).shadowPend ∧ t.keepsMemories s)) ∧
      (s.nvOpen = false → Runs (.restoreDefaultsImage q [] .committed) s (fun t =>
        t.answers q 0x06 .ok [] ∧ t.livePend = s.livePend ∧ t.o Obj.NV_BANK = s.targetBank ∧ t.o Obj.NV_GEN = s.nextGen ∧
        t.o Obj.NV_LAST_RESULT = 1 ∧ t.keepsSpmOutside s 0x5BC000 0x5C4000 ∧ t.rankMem = s.rankMem)) ∧
      (s.restoreBlocked = false → s.nvOpen = false → Runs (.restoreDefaultsBoth q [] .committed) s (fun t =>
        t.answers q 0x06 .ok [] ∧ t.livePend = (storedKeys.foldl State.restoreOne s).livePend ∧ t.o Obj.NV_BANK = s.targetBank ∧
        t.o Obj.NV_LAST_RESULT = 1 ∧ t.keepsSpmOutside s 0x5BC000 0x5C4000 ∧ t.rankMem = s.rankMem)))

/-- A store writes the bank not in force and puts it in force only when it commits; a bad image is refused; a weak or
aged bank is refreshed. (R504; R505; R506; R510; R511; R512; R558) Rests on log entries 14, 82 and 84, the model's
own choices. -/
def Obligations.StoresWriteTheOtherBank : Prop :=
  ∀ (q : Req) (n : BitVec 16) (j : BitVec 13) (v : BitVec 64) (img : List Byte) (i : BitVec 5) (u : List Upset) (e : StoreEnd) (weak : Bool) (s : State),
    (s.servedFor q = true →
      (s.badLength q 0 = true → Runs (.store q u e) s (·.onlyAnswered s q 0x05 .length [])) ∧
      (s.isExpert q = false →
        (s.badLength q 0 = false → Runs (.store q u e) s (·.onlyAnswered s q 0x05 .expertRequired [])) ∧
        Runs (.nvImageWrite q img u e) s (·.onlyAnswered s q 0x04 .expertRequired (blockBody Obj.NV_IMAGE 0 0 0)) ∧
        Runs (.nvPatchWrite q img u ⟨some n, e⟩) s (·.onlyAnswered s q 0x04 .expertRequired (blockBody Obj.NV_PATCH 0 0 0))) ∧
      (s.isExpert q = true → s.badLength q 0 = false → s.nvOpen = true → exec (.store q u e) s = .next s) ∧
      (s.isExpert q = true → s.nvOpenElse q = true →
        Runs (.nvImageWrite q img u e) s (·.onlyAnswered s q 0x04 .noResource (blockBody Obj.NV_IMAGE 0 0 0)) ∧
        Runs (.nvPatchWrite q img u ⟨some n, e⟩) s (·.onlyAnswered s q 0x04 .noResource (blockBody Obj.NV_PATCH 0 0 0))) ∧
      (s.isExpert q = true → s.badLength q 0 = false → s.nvOpen = false →
        Runs (.store q [] .committed) s (fun t => t.answers q 0x05 .ok [] ∧ t.o Obj.NV_BANK = s.targetBank ∧ t.o Obj.NV_GEN = s.nextGen ∧
          t.o Obj.NV_LAST_RESULT = 1 ∧ t.o (storesKey s.targetBank) = satAdd 32 (s.o (storesKey s.targetBank)) 1 ∧
          (s.o Obj.NV_BANK ≤ 1 → ∀ a, a / 0x8000 = s.o Obj.NV_BANK → memGet t.nvm a = memGet s.nvm a) ∧ t.keepsSpmOutside s 0x5BC000 0x5C4000 ∧ t.rankMem = s.rankMem) ∧
        Runs (.store q [] .verify) s (fun t => t.answers q 0x05 .failed [] ∧ t.o Obj.NV_BANK = s.o Obj.NV_BANK ∧ t.o Obj.NV_LAST_RESULT = 2 ∧
          t.ob Obj.FLT_LATCHED 17 = true ∧ t.keepsSpmOutside s 0x5BC000 0x5C4000 ∧ t.rankMem = s.rankMem) ∧
        Runs (.store q [.word (BitVec.ofNat 23 (0x5BC000 + i.toNat)) .double v] e) s (fun t => t.answers q 0x05 .failed [] ∧ t.o Obj.NV_BANK = s.o Obj.NV_BANK ∧
          t.o Obj.NV_LAST_RESULT = 3 ∧ t.ob Obj.FLT_LATCHED 17 = true) ∧
        Runs (.store q [] (.program j v)) s (fun t => t.answers q 0x05 .failed [] ∧ t.o Obj.NV_BANK = s.o Obj.NV_BANK ∧
          t.o Obj.NV_LAST_RESULT = 4 ∧ t.ob Obj.FLT_LATCHED 17 = true) ∧
        Runs (.store q [] (.cut j v)) s (fun t => t.cufel = s.cufel ∧ t.keepsObjects s [Obj.NV_STATE, Obj.CHK_RUN 36] ∧
          t.keepsSpmOutside s 0x5BC000 0x5C4000 ∧ t.rankMem = s.rankMem)) ∧
      (s.isExpert q = true → s.nvOpenElse q = false →
        (imageOk img = false → Runs (.nvImageWrite q img u e) s
          (·.onlyAnswered s q 0x04 .outOfRange (blockBody Obj.NV_IMAGE 0 0 0))) ∧
        (imageOk img = true → Runs (.nvImageWrite q img [] .committed) s (fun t =>
          t.answers q 0x04 .ok (blockBody Obj.NV_IMAGE 2 img.length img.length) ∧ t.o Obj.NV_BANK = s.targetBank ∧
          t.o Obj.NV_LAST_RESULT = 1)) ∧
        Runs (.nvPatchWrite q img [] ⟨none, e⟩) s (fun t => t.answers q 0x04 .failed (blockBody Obj.NV_PATCH 0 0 0) ∧ t.keepsSpmOutside s 0x5BC000 0x5C4000 ∧
          t.rankMem = s.rankMem ∧ t.nvm = s.nvm ∧
          t.keepsObjects s [Obj.CHK_RUN 37, Obj.CHK_ALIVE_TXN, Obj.CHK_ALIVE_TXC]) ∧
        (0x6FF8 < img.length → Runs (.nvPatchWrite q img [] ⟨some n, e⟩) s (fun t => t.nvm = s.nvm ∧
          t.answers q 0x04 .failed (blockBody Obj.NV_PATCH 0 0 0))) ∧
        (img.length ≤ 0x6FF8 → 1 ≤ j.toNat → j.toNat < ceilDiv img.length 8 + 1 → Runs (.nvPatchWrite q img [] ⟨some n, .cut j v⟩) s (fun t =>
          t.cufel = s.cufel ∧ t.patchHeld = false ∧ t.keepsObjects s [Obj.CHK_RUN 37] ∧ t.rankMem = s.rankMem)) ∧
        (img.length ≤ 0x6FF8 → Runs (.nvPatchWrite q img [] ⟨some n, .committed⟩) s (fun t =>
          t.answers q 0x04 .ok (blockBody Obj.NV_PATCH 2 img.length img.length) ∧ t.nvm = nvmWords s.nvm (patchWords img) ∧
          t.patchHeld = true ∧ t.nv.patch = (img.length, n.toNat) ∧
          t.keepsObjects s [Obj.CHK_RUN 37, Obj.CHK_ALIVE_TXN, Obj.CHK_ALIVE_TXC] ∧ t.keepsSpmOutside s 0x5BC000 0x5C4000 ∧ t.rankMem = s.rankMem)))) ∧
    (s.cufel.down = true → exec (.nvMarginCheck weak u e) s = .next s) ∧
    (s.awake = true →
      (s.o Obj.NV_BANK = 0xFF ∨ (weak = false ∧ s.o Obj.FLT_LIFE_HOURS < s.nv.since + s.o Obj.NV_REFRESH_PER) →
        exec (.nvMarginCheck weak u e) s = .next s) ∧
      (s.o Obj.NV_BANK ≠ 0xFF → s.nvOpen = true → s.cufel.down = false → exec (.nvMarginCheck true u e) s =
        .next { s with nv := { s.nv with refresh := some (u, e) } }) ∧
      (s.o Obj.NV_BANK ≠ 0xFF → s.nvOpen = false → s.cufel.down = false → Runs (.nvMarginCheck true [] .committed) s (fun t =>
        t.o Obj.NV_BANK = s.targetBank ∧ t.o Obj.NV_REFRESHES = satAdd 32 (s.o Obj.NV_REFRESHES) 1 ∧ t.o Obj.NV_LAST_RESULT = 1 ∧
        t.nv.since = s.o Obj.FLT_LIFE_HOURS ∧ t.cufel = s.cufel)) ∧
      Runs .lifetimeHours s (fun t => t.o Obj.FLT_LIFE_HOURS = max (s.o Obj.FLT_LIFE_HOURS) (satAdd 32 s.nv.hours 24) ∧ t.nv.hours = t.o Obj.FLT_LIFE_HOURS ∧
        t.o Obj.FLT_LIFE_WRITES = satAdd 32 (s.o Obj.FLT_LIFE_WRITES) 1 ∧
        t.o Obj.FLT_LIFE_NEXT = (s.o Obj.FLT_LIFE_NEXT + 1) % 512 ∧
        t.keepsObjects s [Obj.FLT_LIFE_HOURS, Obj.FLT_LIFE_WRITES, Obj.FLT_LIFE_NEXT] ∧ t.spm = s.spm ∧ t.rankMem = s.rankMem))

/-- Nodes claim when no keeper is heard, the lowest stays keeper, collisions back off, and a frame with the node's own
number is a conflict. (R474; R476; R479; R480; R550) Rests on log entries 3, 63 and 160, the model's own choices. -/
def Obligations.TheBusElectsItsKeeper : Prop :=
  ∀ (node : BitVec 6) (ser : BitVec 64) (up : BitVec 32) (ms : BitVec 48) (srct : BitVec 8) (agree : Bool) (s : State), s.awake = true →
    (s.o Obj.CAN_STATE = 2 ∨ (s.o Obj.CAN_STATE = 1 ∧ s.o Obj.CAN_CLKSRC ≠ 0) → Runs .canKeeperTimeout s (fun t =>
      t.o Obj.CAN_KEEPER = 0xFF ∧ t.o Obj.CAN_STATE = (if s.o Obj.CAN_KEEPER_EN = 0 then 2 else 3) ∧ t.can.claimSent = false ∧
      t.keepsObjects s [Obj.CAN_KEEPER, Obj.CAN_STATE, Obj.CHK_RUN 34, Obj.CAN_TX_FRAMES, Obj.CAN_TEC] ∧ t.keepsMemories s)) ∧
    (s.o Obj.CAN_STATE ∉ [1, 2] ∨ (s.o Obj.CAN_STATE = 1 ∧ s.o Obj.CAN_CLKSRC = 0) → s.cufel.outCan = [] →
      Runs .canKeeperTimeout s (fun t => t.keepsObjects s [] ∧ { t with obj := s.obj } = s)) ∧
    (s.o Obj.CAN_STATE ≠ 3 ∨ s.can.busOff = true → exec .canClaimSent s = .next s) ∧
    (s.can.busOff = true → exec .canClaimCollision s = .next s) ∧
    (s.o Obj.CAN_STATE = 3 → s.can.busOff = false → Runs .canClaimSent s (fun t => t.can = { s.can with claimSent := true } ∧
      t.out = s.out ++ [Sent.can (canId 0 (s.o Obj.CAN_NODE) 0x3F 0 0 false) s.canBrs s.canPassive (bytesLE 8 Config.serial.toNat)] ∧
      t.o Obj.CAN_TEC = s.o Obj.CAN_TEC - 1 ∧
      t.o Obj.CAN_TX_FRAMES = (s.o Obj.CAN_TX_FRAMES + 1) % 2 ^ 32 ∧ t.keepsObjects s [Obj.CAN_TX_FRAMES, Obj.CAN_TEC] ∧
      { t with obj := s.obj, out := s.out, can := s.can } = s)) ∧
    (s.o Obj.CAN_STATE = 3 → s.can.claimSent = true → Runs .canClaimWaitExpire s (fun t =>
      t.o Obj.CAN_STATE = 4 ∧ t.o Obj.CAN_KEEPER = s.o Obj.CAN_NODE ∧ t.o Obj.CAN_ELECTIONS = satAdd 32 (s.o Obj.CAN_ELECTIONS) 1 ∧
      t.keepsMemories s)) ∧
    (s.o Obj.CAN_STATE ≠ 3 → s.cufel.outCan = [] → Runs .canClaimWaitExpire s (fun t => t.keepsObjects s [] ∧ { t with obj := s.obj } = s) ∧
      Runs .canClaimCollision s (fun t => t.keepsObjects s [] ∧ { t with obj := s.obj } = s)) ∧
    (s.o Obj.CAN_STATE = 3 → s.can.busOff = false →
      (s.o Obj.CAN_TEC + 8 < 256 → s.cufel.outCan = [] → Runs .canClaimCollision s (fun t =>
        t.o Obj.CAN_TEC = s.o Obj.CAN_TEC + 8 ∧ t.o Obj.CAN_BUSOFF = s.o Obj.CAN_BUSOFF ∧ t.can.busOff = false)) ∧
      (256 ≤ s.o Obj.CAN_TEC + 8 → Runs .canClaimCollision s (fun t => t.can.busOff = true ∧
        t.o Obj.CAN_BUSOFF = satAdd 32 (s.o Obj.CAN_BUSOFF) 1 ∧ t.out = s.out)) ∧
      (s.can.collisions < 2 → Runs .canClaimCollision s (fun t => t.o Obj.CAN_COLL = satAdd 32 (s.o Obj.CAN_COLL) 1 ∧
        t.o Obj.CAN_STATE = 3 ∧ t.can.collisions = s.can.collisions + 1 ∧ t.keepsMemories s)) ∧
      (2 ≤ s.can.collisions → Runs .canClaimCollision s (fun t => t.o Obj.CAN_COLL = satAdd 32 (s.o Obj.CAN_COLL) 1 ∧
        t.o Obj.CAN_STATE = 5 ∧ t.can.collisions = 0 ∧ t.can.delay = s.backoffDelay ∧ t.can.backoffs = s.can.backoffs + 1 ∧
        t.ob Obj.FLT_ACTIVE 18 = true ∧ t.keepsMemories s))) ∧
    (s.o Obj.CAN_STATE = 5 → Runs .canBackoffExpire s (fun t => t.o Obj.CAN_STATE = (if s.can.lower then 2 else 3) ∧ t.keepsMemories s)) ∧
    (s.o Obj.CAN_STATE ≠ 5 → s.cufel.outCan = [] → Runs .canBackoffExpire s (fun t => t.keepsObjects s [] ∧ { t with obj := s.obj } = s)) ∧
    (s.canHears = false → exec (.canClaimReceive node ser agree) s = .next s ∧ exec (.canKeeperHbReceive node ser up agree) s = .next s ∧
      exec (.canBeaconReceive node ms srct agree) s = .next s) ∧
    (s.canHears = true →
      (node.toNat = s.o Obj.CAN_NODE → s.o Obj.CAN_STATE ∈ [2, 3, 4, 5] →
        Runs (.canClaimReceive node ser agree) s (fun t => t.o Obj.CAN_STATE = 6 ∧ t.o Obj.CAN_CONFLICT = 1 ∧
          t.o Obj.CAN_RX_FRAMES = (s.o Obj.CAN_RX_FRAMES + 1) % 2 ^ 32 ∧ t.ob Obj.FLT_ACTIVE 18 = true ∧
          t.o Obj.CAN_KEEPER = (if s.o Obj.CAN_KEEPER = s.o Obj.CAN_NODE then 0xFF else s.o Obj.CAN_KEEPER)) ∧
        Runs (.canKeeperHbReceive node ser up agree) s (fun t => t.o Obj.CAN_STATE = 6 ∧ t.o Obj.CAN_CONFLICT = 1)) ∧
      (node.toNat < s.o Obj.CAN_NODE → s.o Obj.CAN_STATE ∈ [3, 4] →
        Runs (.canClaimReceive node ser agree) s (fun t => t.o Obj.CAN_STATE = 2 ∧
          t.o Obj.CAN_KEEPER = (if s.o Obj.CAN_STATE = 4 ∧ s.o Obj.CAN_KEEPER = s.o Obj.CAN_NODE then 0xFF else s.o Obj.CAN_KEEPER)) ∧
        Runs (.canKeeperHbReceive node ser up agree) s (fun t => t.o Obj.CAN_STATE = 2 ∧ t.o Obj.CAN_KEEPER = node.toNat)) ∧
      (s.o Obj.CAN_NODE < node.toNat → s.o Obj.CAN_STATE = 4 → Runs (.canClaimReceive node ser agree) s (fun t =>
        t.o Obj.CAN_STATE = 4 ∧ (∃ x ∈ t.out, x ∈ (s.canHeard node.toNat agree).keeperHb.out.drop s.out.length))) ∧
      (s.o Obj.CAN_NODE < node.toNat → s.o Obj.CAN_STATE = 2 → Runs (.canKeeperHbReceive node ser up agree) s (fun t =>
        t.o Obj.CAN_KEEPER = node.toNat ∧ t.o Obj.CAN_STATE = (if s.o Obj.CAN_KEEPER_EN = 0 then 2 else 3))) ∧
      Runs (.canBeaconReceive node ms srct agree) s (fun t => t.o Obj.CAN_BEACON_MS = ms.toNat ∧ t.o Obj.CAN_BEACON_X = s.xc ∧
        t.o Obj.CAN_STATE = s.o Obj.CAN_STATE ∧ t.can.agree = (if agree then s.can.agree + 1 else 1) ∧
        (s.o Obj.CAN_REC < 128 → t.o Obj.CAN_REC = s.o Obj.CAN_REC - 1) ∧ (128 ≤ s.o Obj.CAN_REC → 119 ≤ t.o Obj.CAN_REC ∧ t.o Obj.CAN_REC ≤ 127) ∧
        t.keepsObjects s [Obj.CAN_BEACON_MS, Obj.CAN_BEACON_X, Obj.CAN_RX_FRAMES, Obj.CAN_CLKSRC, Obj.CAN_REC] ∧
        { t with obj := s.obj, can := s.can, free := s.free } = s)) ∧
    (s.o Obj.CAN_STATE ≠ 4 ∨ s.can.busOff = true → exec .canKeeperHbSend s = .next s ∧ exec .canBeaconSend s = .next s) ∧
    (s.o Obj.CAN_STATE = 4 → s.can.busOff = false →
      Runs .canKeeperHbSend s (fun t => t.out.length = s.out.length + 1 ∧ t.keepsObjects s [Obj.CAN_TX_FRAMES, Obj.CAN_TEC] ∧
        { t with obj := s.obj, out := s.out } = s) ∧
      (s.o Obj.CAN_BEACON_PER = 0 → exec .canBeaconSend s = .next s) ∧
      (s.o Obj.CAN_BEACON_PER ≠ 0 → s.o Obj.NT_STATE ≠ 0 → Runs .canBeaconSend s (fun t =>
        t.out = s.out ++ [Sent.can (canId 2 (s.o Obj.CAN_NODE) 0x3F 0 0 false) s.canBrs s.canPassive (bytesLE 6 (s.ntNs / 1000000) ++ [1, 0])] ∧
        t.keepsObjects s [Obj.CAN_TX_FRAMES, Obj.CAN_TEC] ∧ { t with obj := s.obj, out := s.out } = s)))

/-- Segments of one node that follow each other become a message, others are dropped and counted; a bus-off port hears
nothing until it recovers. (R474; R476; R477; R478; R463) Rests on log entries 3, 63 and 160, the model's own
choices. -/
def Obligations.CanFramesBecomeMessages : Prop :=
  ∀ (k : CanKind) (agree : Bool) (id : BitVec 29) (data : List Byte) (node : BitVec 6) (r : Reasm) (s : State), s.awake = true → s.cufel.outCan = [] →
    (s.canHears = false → Runs (.canFrameReceive k id data agree) s (fun t => t.keepsObjects s [] ∧ { t with obj := s.obj } = s)) ∧
    (s.canHears = true →
      (k = .fd ∨ k = .foreign → Runs (.canFrameReceive k id data agree) s (fun t => t.o Obj.CAN_RX_FRAMES = (s.o Obj.CAN_RX_FRAMES + 1) % 2 ^ 32 ∧
        t.o Obj.CAN_CLKSRC = (if s.o Obj.CAN_CLKSRC = 0 ∧ agree = true ∧ 7 ≤ s.can.agree then 1 else s.o Obj.CAN_CLKSRC) ∧
        (s.o Obj.CAN_REC < 128 → t.o Obj.CAN_REC = s.o Obj.CAN_REC - 1) ∧
        (128 ≤ s.o Obj.CAN_REC → 119 ≤ t.o Obj.CAN_REC ∧ t.o Obj.CAN_REC ≤ 127))) ∧
      Runs (.canFrameReceive (.error false) id data agree) s (fun t => t.o Obj.CAN_REC = satAdd 8 (s.o Obj.CAN_REC) 1 ∧
        t.keepsObjects s [Obj.CAN_REC] ∧ { t with obj := s.obj } = s) ∧
      Runs (.canFrameReceive (.error true) id data agree) s (fun t => t.o Obj.CAN_REC = satAdd 8 (s.o Obj.CAN_REC) 8 ∧
        t.keepsObjects s [Obj.CAN_REC] ∧ { t with obj := s.obj } = s) ∧
      (k = .foreign ∨ (k = .fd ∧ bits id.toNat 28 25 ∉ [0, 1, 2, 4, 6, 8]) → Runs (.canFrameReceive k id data agree) s (fun t =>
        t.o Obj.CAN_FOREIGN = satAdd 32 (s.o Obj.CAN_FOREIGN) 1 ∧ t.can.reasm = s.can.reasm ∧ t.can.inbox = s.can.inbox ∧
        t.can.heard = s.can.heard ∧ t.keepsObjects s [Obj.CAN_FOREIGN, Obj.CAN_RX_FRAMES, Obj.CAN_CLKSRC, Obj.CAN_REC])) ∧
      (bits id.toNat 28 25 ∈ [0, 1, 2, 4, 6, 8] → Runs (.canFrameReceive .fd id data agree) s (fun t =>
        t.can.heard.head? = some (bits id.toNat 24 19, s.tick))) ∧
      (k = .fd → bits id.toNat 28 25 ∈ [4, 6, 8] →
        (bits id.toNat 24 19 = s.o Obj.CAN_NODE → s.o Obj.CAN_STATE ∈ [2, 3, 4, 5] → Runs (.canFrameReceive k id data agree) s (fun t =>
          t.o Obj.CAN_STATE = 6 ∧ t.o Obj.CAN_CONFLICT = 1)) ∧
        (bits id.toNat 24 19 ≠ s.o Obj.CAN_NODE → bits id.toNat 18 13 ≠ s.o Obj.CAN_NODE →
          Runs (.canFrameReceive k id data agree) s (fun t => t.can.reasm = s.can.reasm ∧ t.can.inbox = s.can.inbox ∧
            t.keepsObjects s [Obj.CAN_RX_FRAMES, Obj.CAN_CLKSRC, Obj.CAN_REC])) ∧
        (bits id.toNat 24 19 ≠ s.o Obj.CAN_NODE → bits id.toNat 18 13 = s.o Obj.CAN_NODE →
          (bits id.toNat 9 7 = 0 → bit id.toNat 6 = false → Runs (.canFrameReceive k id data agree) s (fun t =>
            t.can.reasm = (s.can.reasm.filter fun x => x.node != bits id.toNat 24 19) ++
              [{ node := bits id.toNat 24 19, mseq := bits id.toNat 12 10, segs := 1, bytes := data }] ∧ t.can.inbox = s.can.inbox)) ∧
          (bits id.toNat 9 7 = 0 → bit id.toNat 6 = true → ceilDiv (20 + msgLen data) 64 = 1 → s.can.inbox.length < 8 →
            Runs (.canFrameReceive k id data agree) s (fun t =>
              t.can.inbox = s.can.inbox ++ [(bits id.toNat 24 19, data)] ∧ t.cufel.order = s.cufel.order ++ [.can] ∧ t.keepsMemories s)) ∧
          (bits id.toNat 9 7 = 0 → bit id.toNat 6 = true → 8 ≤ s.can.inbox.length →
              (∀ x ∈ s.can.reasm, x.node ≠ bits id.toNat 24 19) → Runs (.canFrameReceive k id data agree) s (fun t =>
            t.can.inbox = s.can.inbox ∧ t.o Obj.CAN_RX_DROP = satAdd 32 (s.o Obj.CAN_RX_DROP) 1)) ∧
          (bits id.toNat 9 7 ≠ 0 → s.can.reasm.find? (fun x => x.node == bits id.toNat 24 19) = some r →
            (r.mseq = bits id.toNat 12 10 → r.segs = bits id.toNat 9 7 → bit id.toNat 6 = true →
                ceilDiv (20 + msgLen (r.bytes ++ data)) 64 = r.segs + 1 → s.can.inbox.length < 8 →
              Runs (.canFrameReceive k id data agree) s (fun t => t.cufel.order = s.cufel.order ++ [.can] ∧
                t.can.inbox = s.can.inbox ++ [(r.node, r.bytes ++ data)] ∧ (∀ x ∈ t.can.reasm, x.node ≠ r.node))) ∧
            (r.mseq ≠ bits id.toNat 12 10 ∨ r.segs ≠ bits id.toNat 9 7 → Runs (.canFrameReceive k id data agree) s (fun t =>
              t.can.inbox = s.can.inbox ∧ (∀ x ∈ t.can.reasm, x.node ≠ r.node) ∧
              t.o Obj.CAN_RX_DROP = satAdd 32 (s.o Obj.CAN_RX_DROP) 1)))))) ∧
    ((∀ x ∈ s.can.reasm, x.node ≠ node.toNat) → exec (.canReassemblyTimeout node) s = .next s) ∧
    ((∃ x ∈ s.can.reasm, x.node = node.toNat) → Runs (.canReassemblyTimeout node) s (fun t =>
      (∀ x ∈ t.can.reasm, x.node ≠ node.toNat) ∧ t.o Obj.CAN_RX_DROP = satAdd 32 (s.o Obj.CAN_RX_DROP) 1 ∧
      t.keepsObjects s [Obj.CAN_RX_DROP] ∧ { t with obj := s.obj, can := s.can } = s)) ∧
    (s.canHears = false → exec .canBusOff s = .next s) ∧
    (s.canHears = true → Runs .canBusOff s (fun t => t.can.busOff = true ∧ t.canHears = false ∧
      t.o Obj.CAN_BUSOFF = satAdd 32 (s.o Obj.CAN_BUSOFF) 1 ∧ t.o Obj.CAN_TEC < 256 ∧
      t.keepsObjects s [Obj.CAN_BUSOFF, Obj.CAN_TEC] ∧ { t with obj := s.obj, can := s.can, free := s.free, watch := s.watch } = s ∧
      { t.watch with events := [], raised := [] } = { s.watch with events := [], raised := [] })) ∧
    (s.can.busOff = false → exec .canBusOffRecovery s = .next s) ∧
    (s.can.busOff = true → Runs .canBusOffRecovery s (fun t => t.can.busOff = false ∧ t.o Obj.CAN_TEC = 0 ∧ t.o Obj.CAN_REC = 0 ∧
      t.keepsObjects s [Obj.CAN_TEC, Obj.CAN_REC] ∧ { t with obj := s.obj, can := s.can } = s))

/-- A good feed starts a boot from Off, the last lost feed ends in Off, a rail or RST_N resets; the plinth, the NVM and
the supply bits outlast all of them. (R516; R517; R518; R519; R520; R525; R526; R527; R588; R591; R499) Rests on log
entries 6, 18, 19, 127 and 159, the model's own choices. -/
def Obligations.FeedsRailsAndResetPinsResetTheDevice : Prop :=
  ∀ (f : Feed) (vkeep : Bool) (k : BitVec 13) (v : BitVec 64) (s : State),
    (s.feedGood f = true → Runs (.feedGood f vkeep) s (fun t => t.ob Obj.PWR_FEEDS 3 = vkeep ∧ t.feedGood f = true ∧
      t.keepsObjects s [Obj.PWR_FEEDS] ∧ { t with obj := s.obj } = s)) ∧
    (s.feedGood f = false → s.o Obj.PWR_STATE = 0 ∨ (s.feedGood .a = false ∧ s.feedGood .b = false) → Runs (.feedGood f vkeep) s (fun t =>
      t.o Obj.PWR_STATE = 1 ∧ t.o Obj.PWR_BOOT_STEP = 0 ∧ t.o Obj.CLK_STATE = 0 ∧ t.feedGood f = true ∧
      t.ob Obj.PWR_FEEDS 2 = decide (f = .b) ∧ t.o Obj.RST_CAUSE = (if s.plinth.lost = true ∨ vkeep = false then 2 else 1) ∧
      t.o Obj.RST_COUNT = (if vkeep = true then satAdd 32 (s.o Obj.RST_COUNT) 1 else 1) ∧ t.plinth.lost = false ∧
      t.spm = [] ∧ t.nvm = s.nvm ∧ t.pending = s.pending ∧ t.tick = s.tick)) ∧
    (s.feedGood f = false → s.o Obj.PWR_STATE ≠ 0 → s.feedGood (if f = .a then .b else .a) = true → Runs (.feedGood f vkeep) s (fun t =>
      t.feedGood f = true ∧ t.ob Obj.PWR_FEEDS 3 = vkeep ∧ t.o Obj.RST_COUNT = s.o Obj.RST_COUNT ∧
      (s.inRun = false → t.o Obj.PWR_STATE = s.o Obj.PWR_STATE) ∧ (s.inRun = true → t.inRun = true) ∧ t.keepsMemories s)) ∧
    (s.feedGood f = false → exec (.feedLost ⟨f, some (k, v)⟩) s = .next s ∧ exec (.feedLost ⟨f, none⟩) s = .next s) ∧
    (s.feedGood f = true → s.feedGood (if f = .a then .b else .a) = false → Runs (.feedLost ⟨f, none⟩) s (fun t =>
      t.o Obj.PWR_STATE = 0 ∧ t.feedGood .a = false ∧ t.feedGood .b = false ∧
      (s.ob Obj.PWR_FEEDS 3 = true → t.ob Obj.PWR_SUPPLY_EVT (feedBit f) = true ∧ t.ob Obj.PWR_SUPPLY_EVT 2 = true ∧
        t.o Obj.RST_COUNT = s.o Obj.RST_COUNT ∧ t.o Obj.RST_PCYC % 2 = 0 ∧ t.plinth = s.plinth) ∧
      (s.ob Obj.PWR_FEEDS 3 = false → t.plinth.lost = true ∧ t.o Obj.RST_COUNT = 0 ∧ t.o Obj.PWR_SUPPLY_EVT = 0) ∧
      t.spm = [] ∧ t.nvm = s.nvm ∧ t.pending = s.pending)) ∧
    (s.feedGood f = true → s.feedGood (if f = .a then .b else .a) = false →
      (s.nv.wrote.length ≤ k.toNat → Runs (.feedLost ⟨f, some (k, v)⟩) s (fun t => t.nvm = s.nvm ∧ t.o Obj.PWR_STATE = 0)) ∧
      (s.nv.wrote.length = k.toNat + 1 → Runs (.feedLost ⟨f, some (k, v)⟩) s (fun t => t.o Obj.PWR_STATE = 0 ∧ t.spm = [] ∧
        ∃ w ∈ s.nv.wrote.drop k.toNat, t.nvm = memPutWord (memPutWord s.nvm w.1 w.2.1 w.2.2) w.1 w.2.1 v.toNat ∧ w.1 ∈ t.nv.torn))) ∧
    (s.feedGood f = true → s.feedGood (if f = .a then .b else .a) = true → Runs (.feedLost ⟨f, some (k, v)⟩) s (fun t =>
      t.feedGood f = false ∧ t.ob Obj.PWR_SUPPLY_EVT (feedBit f) = true ∧ (s.inService = true → t.ob Obj.FLT_ACTIVE 2 = true) ∧
      t.ob Obj.PWR_FEEDS 2 = decide (f = .a) ∧
      (s.ob Obj.PWR_FEEDS 2 ≠ decide (f = .b) → t.o Obj.PWR_FEED_SW = s.o Obj.PWR_FEED_SW) ∧
      (s.ob Obj.PWR_FEEDS 2 = decide (f = .b) → t.o Obj.PWR_FEED_SW = satAdd 32 (s.o Obj.PWR_FEED_SW) 1) ∧
      t.o Obj.RST_COUNT = s.o Obj.RST_COUNT ∧ t.keepsMemories s)) ∧
    (s.feedGood .a = false ∨ s.feedGood .b = false ∨ s.ob Obj.PWR_FEEDS 2 = false ∨ s.o Obj.PWR_FEED_RET = 0 → exec .feedReturn s = .next s) ∧
    (s.feedGood .a = true → s.feedGood .b = true → s.ob Obj.PWR_FEEDS 2 = true → s.o Obj.PWR_FEED_RET ≠ 0 → Runs .feedReturn s (fun t =>
      t.ob Obj.PWR_FEEDS 2 = false ∧ t.o Obj.PWR_FEED_SW = satAdd 32 (s.o Obj.PWR_FEED_SW) 1 ∧ t.keepsMemories s)) ∧
    ((s.feedGood .a = false ∧ s.feedGood .b = false) ∨ s.o Obj.PWR_STATE = 0 → exec .railUndervoltage s = .next s) ∧
    (s.feedGood .a = true ∨ s.feedGood .b = true → s.o Obj.PWR_STATE ≠ 0 → Runs .railUndervoltage s (fun t =>
      t.o Obj.PWR_STATE = 1 ∧ t.o Obj.RST_CAUSE = 6 ∧ t.o Obj.RST_COUNT = satAdd 32 (s.o Obj.RST_COUNT) 1 ∧
      t.ob Obj.PWR_SUPPLY_EVT 4 = true ∧ t.o Obj.PWR_FEEDS = s.o Obj.PWR_FEEDS ∧ t.spm = [] ∧ t.nvm = s.nvm ∧ t.plinth = s.plinth)) ∧
    (s.power.rstN = true → exec .rstNAssert s = .next s) ∧
    (s.power.rstN = false → s.o Obj.PWR_STATE = 0 ∨ (s.feedGood .a = false ∧ s.feedGood .b = false) → exec .rstNAssert s = .next { s with power := { s.power with rstN := true } }) ∧
    (s.power.rstN = false → s.o Obj.PWR_STATE ≠ 0 → s.feedGood .a = true ∨ s.feedGood .b = true → Runs .rstNAssert s (fun t =>
      t.power.rstN = true ∧ t.clocked = false ∧ t.o Obj.PWR_STATE = 1 ∧ t.o Obj.RST_CAUSE = 3 ∧
      t.o Obj.RST_COUNT = satAdd 32 (s.o Obj.RST_COUNT) 1 ∧ t.o Obj.PWR_FEEDS = s.o Obj.PWR_FEEDS ∧
      t.spm = [] ∧ t.nvm = s.nvm ∧ t.plinth = s.plinth)) ∧
    exec .rstNRelease s = .next { s with power := { s.power with rstN := false } } ∧
    (s.o Obj.PWR_STATE = 0 → Runs .vkeepLost s (fun t => t.ob Obj.PWR_FEEDS 3 = false ∧ t.plinth.lost = true ∧
      t.o Obj.RST_COUNT = 0 ∧ t.o Obj.RST_CAUSE = 0 ∧ t.o Obj.RST_LADDER = 0 ∧ t.o Obj.RST_PCYC = 0 ∧ t.o Obj.PWR_SUPPLY_EVT = 0 ∧
      t.keepsMemories s)) ∧
    (s.o Obj.PWR_STATE ≠ 0 → Runs .vkeepLost s (fun t => t.ob Obj.PWR_FEEDS 3 = false ∧
      t.keepsObjects s [Obj.PWR_FEEDS, Obj.FLT_FAULTN] ∧ { t with obj := s.obj } = s))

/-- Function commands are judged by argument, level, key and state; RESET and RESTART act after the response, PCYC at
once, PARK and UNPARK only from their states. (R523; R524; R528; R529; R535; R538; R539; R464; R467) Rests on log
entries 104 and 114, the model's own choices. -/
def Obligations.FunctionCommandsAreJudged : Prop :=
  ∀ (q : Req) (key : BitVec 16) (arg : BitVec 32) (inTime : Bool) (func cmd : BitVec 8) (c : Challenge) (s : State), s.servedFor q = true →
    (s.badLength q 8 = true →
      Runs (.resetCommand q key arg inTime) s (·.onlyAnswered s q 0x08 .length ([0x80, 0x10] ++ bytesLE 4 0)) ∧
      Runs (.park q key arg) s (·.onlyAnswered s q 0x08 .length ([0x80, 0x11] ++ bytesLE 4 0)) ∧
      Runs (.recClear q func cmd key arg) s (·.onlyAnswered s q 0x08 .length ([func, cmd] ++ bytesLE 4 0))) ∧
    (s.badLength q 8 = false →
    (arg ≠ 0 →
      Runs (.resetCommand q key arg inTime) s (·.onlyAnswered s q 0x08 .outOfRange ([0x80, 0x10] ++ bytesLE 4 0)) ∧
      Runs (.pcycRequest q key arg inTime) s (·.onlyAnswered s q 0x08 .outOfRange ([0x80, 0x14] ++ bytesLE 4 0)) ∧
      Runs (.supvRestartCmd q key arg inTime) s (·.onlyAnswered s q 0x08 .outOfRange ([0x80, 0x13] ++ bytesLE 4 0))) ∧
    (arg ≠ 0 ∨ key ≠ 0 →
      Runs (.park q key arg) s (·.onlyAnswered s q 0x08 .outOfRange ([0x80, 0x11] ++ bytesLE 4 0)) ∧
      Runs (.unpark q key arg) s (·.onlyAnswered s q 0x08 .outOfRange ([0x80, 0x12] ++ bytesLE 4 0)) ∧
      Runs (.pcycClear q key arg) s (·.onlyAnswered s q 0x08 .outOfRange ([0x80, 0x15] ++ bytesLE 4 0)) ∧
      Runs (.reinit q func key arg) s (·.onlyAnswered s q 0x08 .outOfRange ([func, 0x01] ++ bytesLE 4 0)) ∧
      Runs (.recClear q func cmd key arg) s (·.onlyAnswered s q 0x08 .outOfRange ([func, cmd] ++ bytesLE 4 0))) ∧
    (s.isExpert q = false →
      (Runs (.resetCommand q key 0 inTime) s (·.onlyAnswered s q 0x08 .expertRequired ([0x80, 0x10] ++ bytesLE 4 0)) ∧
      Runs (.pcycRequest q key 0 inTime) s (·.onlyAnswered s q 0x08 .expertRequired ([0x80, 0x14] ++ bytesLE 4 0)) ∧
      Runs (.supvRestartCmd q key 0 inTime) s (·.onlyAnswered s q 0x08 .expertRequired ([0x80, 0x13] ++ bytesLE 4 0)) ∧
      Runs (.park q 0 0) s (·.onlyAnswered s q 0x08 .expertRequired ([0x80, 0x11] ++ bytesLE 4 0)) ∧
      Runs (.unpark q 0 0) s (·.onlyAnswered s q 0x08 .expertRequired ([0x80, 0x12] ++ bytesLE 4 0)) ∧
      Runs (.pcycClear q 0 0) s (·.onlyAnswered s q 0x08 .expertRequired ([0x80, 0x15] ++ bytesLE 4 0)) ∧
      (func ≤ 9 → Runs (.reinit q func 0 0) s (·.onlyAnswered s q 0x08 .expertRequired ([func, 0x01] ++ bytesLE 4 0))))) ∧
    (s.isExpert q = true → s.cufel.locked q.path = true →
      Runs (.resetCommand q key 0 inTime) s (·.onlyAnswered s q 0x08 .lockedOut ([0x80, 0x10] ++ bytesLE 4 0)) ∧
      Runs (.supvRestartCmd q key 0 inTime) s (·.onlyAnswered s q 0x08 .lockedOut ([0x80, 0x13] ++ bytesLE 4 0))) ∧
    (s.isExpert q = true → s.cufel.locked q.path = false → s.challengeOf q = some c →
      (inTime = false ∨ c.used = true ∨ key.toNat ≠ c.value ^^^ c.key →
        Runs (.pcycRequest q key 0 inTime) s (fun t => t.answers q 0x08 .keyRefused ([0x80, 0x14] ++ bytesLE 4 0) ∧
          (∀ d ∈ t.challengeOf q, d.used = true) ∧ t.o Obj.CF_KEY_FAIL = satAdd 32 (s.o Obj.CF_KEY_FAIL) 1 ∧
          t.o Obj.RST_PCYC = s.o Obj.RST_PCYC ∧ t.keepsObjects s [Obj.CF_KEY_FAIL, Obj.CHK_ALIVE_TXN, Obj.CHK_ALIVE_TXC])) ∧
      (inTime = true → c.used = false → key.toNat = c.value ^^^ c.key →
        Runs (.resetCommand q key 0 inTime) s (fun t => t.answers q 0x08 .ok ([0x80, 0x10] ++ bytesLE 4 0) ∧
          t.cufel.after = some .reset ∧ t.served = false ∧ t.keepsObjects s [Obj.CHK_ALIVE_TXN, Obj.CHK_ALIVE_TXC]) ∧
        Runs (.pcycRequest q key 0 inTime) s (fun t => t.answers q 0x08 .ok ([0x80, 0x14] ++ bytesLE 4 0) ∧
          t.o Obj.RST_PCYC = 7 ∧ t.ob Obj.FLT_ACTIVE 19 = true ∧ t.keepsMemories s) ∧
        Runs (.supvRestartCmd q key 0 inTime) s (fun t => t.answers q 0x08 .ok ([0x80, 0x13] ++ bytesLE 4 0) ∧
          t.cufel.down = true ∧ t.cufel.sessions = [] ∧ t.cufel.transfers = [] ∧ t.o Obj.RST_SUPV_CAUSE = 4 ∧
          t.o Obj.RST_SUPV = satAdd 32 (s.o Obj.RST_SUPV) 1))) ∧
    (s.isExpert q = true →
      (s.inRun = true → s.power.parking = none → s.power.reinit = [] → Runs (.park q 0 0) s (fun t =>
        t.answers q 0x08 .ok ([0x80, 0x11] ++ bytesLE 4 ((s.xc + 1) % 2 ^ 48 % 2 ^ 32)) ∧ t.power.parking = some (s.tick + 1) ∧
        t.o Obj.PWR_STATE = s.o Obj.PWR_STATE ∧ t.keepsObjects s [Obj.CHK_ALIVE_TXN, Obj.CHK_ALIVE_TXC])) ∧
      (s.inRun = false ∨ s.power.parking ≠ none ∨ s.power.reinit ≠ [] →
        Runs (.park q 0 0) s (·.onlyAnswered s q 0x08 .functionRunning ([0x80, 0x11] ++ bytesLE 4 0))) ∧
      (s.o Obj.PWR_STATE = 2 → s.o Obj.CF_ROLE ≠ 3 → Runs (.unpark q 0 0) s (fun t =>
        t.answers q 0x08 .ok ([0x80, 0x12] ++ bytesLE 4 0) ∧ t.power.unparking = true)) ∧
      (s.o Obj.PWR_STATE ≠ 2 ∨ s.o Obj.CF_ROLE = 3 →
        Runs (.unpark q 0 0) s (·.onlyAnswered s q 0x08 .functionRunning ([0x80, 0x12] ++ bytesLE 4 0))) ∧
      Runs (.pcycClear q 0 0) s (fun t => t.answers q 0x08 .ok ([0x80, 0x15] ++ bytesLE 4 0) ∧ t.o Obj.RST_PCYC = 0 ∧
        t.ob Obj.FLT_ACTIVE 19 = false ∧ t.keepsMemories s) ∧
      (func ≤ 9 → s.reinitCheck func.toNat ≠ .ok →
        Runs (.reinit q func 0 0) s (fun t => t.onlyAnswered s q 0x08 (s.reinitCheck func.toNat) ([func, 0x01] ++ bytesLE 4 0))) ∧
      (func ≤ 9 → s.inRun = true → s.power.parking = none → s.roleOff func.toNat = false → func.toNat ∉ s.power.reinit →
        Runs (.reinit q func 0 0) s (fun t => t.answers q 0x08 .ok ([func, 0x01] ++ bytesLE 4 0) ∧ t.keepsMemories s))) ∧
    (9 < func → Runs (.reinit q func 0 0) s (·.onlyAnswered s q 0x08 .outOfRange ([func, 0x01] ++ bytesLE 4 0))) ∧
    (func ≤ 9 → Runs (.recClear q func 2 0 0) s (fun t => t.o (Obj.REC_STATUS func.toNat) = 0 ∧
      t.answers q 0x08 .ok ([func, 0x02] ++ bytesLE 4 0) ∧
      t.keepsObjects s [Obj.REC_STATUS func.toNat, Obj.CHK_ALIVE_TXN, Obj.CHK_ALIVE_TXC] ∧ t.keepsMemories s)) ∧
    (9 < func ∨ cmd ≠ 2 → Runs (.recClear q func cmd 0 0) s (·.onlyAnswered s q 0x08 .outOfRange ([func, cmd] ++ bytesLE 4 0))))

/-- A boot step completes only in Boot and after the steps it depends on; it sets its bit and its trace word and leaves
what it found. (R531; R532; R272; R362; R363; R379; R380; R381; R507; R111) Rests on log entries 9, 87, 127, 144,
146 and 147, the model's own choices. -/
def Obligations.BootStepsCompleteInOrder : Prop :=
  ∀ (b : BootStep) (us : BitVec 32) (bist : BitVec 39) (patch : Bool) (fuse : List (BitVec 32))
    (x y : List (BitVec 20 × BitVec 72)) (d1 d2 d3 : List (BitVec 64)) (hists : List (List Nat × List Nat)) (hk : List (Int × Int))
    (c : Ch) (s : State),
    (s.o Obj.PWR_STATE ≠ 1 ∨ s.o Obj.CLK_STATE = 5 ∨ s.frz.frozen = true → exec (.bootStart b us) s = .next s) ∧
    (s.power.rstN = true ∨ s.ob Obj.PWR_BOOT_STEP 2 = false ∨ s.ob Obj.PWR_BOOT_STEP 3 = true →
      exec (.bootStart (.firmware bist patch fuse) us) s = .next s) ∧
    (s.cufel.down = true → exec (.bootStart (.config false false) us) s = .next s) ∧
    (s.cufel.down = true ∨ s.o Obj.CF_ROLE = 3 →
      exec (.bootStart (.dram (.sweep d1) (.sweep d2) (.sweep d3)) us) s = .next s ∧
      exec (.bootStart (.calibrate hists hk true true) us) s = .next s) ∧
    (s.ob Obj.PWR_BOOT_STEP 3 = false → exec (.bootStart (.config false false) us) s = .next s ∧
      exec (.bootStart (.scratchpad x y) us) s = .next s) ∧
    (s.ob Obj.PWR_BOOT_STEP 3 = false ∨ s.ob Obj.PWR_BOOT_STEP 5 = false →
      exec (.bootStart (.dram (.sweep d1) (.sweep d2) (.sweep d3)) us) s = .next s ∧
      exec (.bootStart (.calibrate hists hk true true) us) s = .next s) ∧
    (s.o Obj.PWR_STATE = 1 → s.o Obj.CLK_STATE ≠ 5 → s.frz.frozen = false →
      (s.ob Obj.PWR_BOOT_STEP 1 = false → Runs (.bootStart .feeds us) s (fun t =>
        t.ob Obj.PWR_BOOT_STEP 1 = true ∧ t.power.trace = s.power.trace.set 1 us.toNat ∧ t.keepsObjects s [Obj.PWR_BOOT_STEP] ∧
        { t with obj := s.obj, power := s.power } = s)) ∧
      (s.power.rstN = false → s.ob Obj.PWR_BOOT_STEP 2 = true → s.ob Obj.PWR_BOOT_STEP 3 = false →
        Runs (.bootStart (.firmware bist patch fuse) us) s (fun t =>
          t.ob Obj.PWR_BOOT_STEP 3 = true ∧ t.o Obj.CHK_BIST = bist.toNat ∧
          t.repairsNow = (switchIn (fuse.map BitVec.toNat ++ s.repairRecords)).1 ∧
          t.o Obj.SPM_SPARE_ROWS = t.memUnit.rows.length ∧ t.o Obj.SPM_SPARE_COLS = t.memUnit.cols.length ∧
          t.o Obj.SPM_REPAIR_BAD = min 255 ((switchIn (fuse.map BitVec.toNat ++ s.repairRecords)).2 + s.repairsTorn) ∧
          t.o Obj.CF_FW_VER = 0x10000 + (if s.patchHeld = true ∧ patch = true then s.nv.patch.2 else 0) ∧ t.memUnit.fwRam = [] ∧ t.memUnit.fwLoads = s.memUnit.fwLoads + 1 ∧
          (bist ≠ 0 → t.ob Obj.FLT_ACTIVE 15 = true) ∧ t.power.trace = s.power.trace.set 3 us.toNat ∧ t.keepsMemories s)) ∧
      (s.power.rstN = false → s.ob Obj.PWR_BOOT_STEP 3 = true → s.ob Obj.PWR_BOOT_STEP 6 = false →
        Runs (.bootStart (.scratchpad x y) us) s (fun t =>
          t.ob Obj.PWR_BOOT_STEP 6 = true ∧ t.spm = [] ∧ t.rankMem = s.rankMem ∧ t.nvm = s.nvm ∧
          t.repairsNow = s.repairsNow.repair (cellsOf x) ∧ t.power.newRepairs = s.repairsNow.records t.repairsNow ∧
          t.o Obj.SPM_SPARE_ROWS = t.memUnit.rows.length ∧ t.o Obj.SPM_SPARE_COLS = t.memUnit.cols.length ∧
          t.o Obj.SPM_DEFECTS =
            min 65535 (toleratedWords (standingCells (cellsOf x) (cellsOf y) (s.repairsNow.subs t.repairsNow))) ∧
          (failedWords (standingCells (cellsOf x) (cellsOf y) (s.repairsNow.subs t.repairsNow)) = [] →
            t.power.bootStop = s.power.bootStop ∧
            t.keepsObjects s [Obj.PWR_BOOT_STEP, Obj.SPM_SPARE_ROWS, Obj.SPM_SPARE_COLS, Obj.SPM_DEFECTS]) ∧
          (failedWords (standingCells (cellsOf x) (cellsOf y) (s.repairsNow.subs t.repairsNow)) ≠ [] →
            t.power.bootStop = true ∧ t.ob Obj.FLT_ACTIVE 7 = true))) ∧
      (s.power.rstN = false → s.ob Obj.PWR_BOOT_STEP 3 = true → s.ob Obj.PWR_BOOT_STEP 4 = false → s.o Obj.CF_ROLE ≠ 3 → s.cufel.down = false →
        Runs (.bootStart (.config false false) us) s (fun t => t.ob Obj.PWR_BOOT_STEP 4 = true) ∧
        (chooseBank s.nvm false false = 0xFF → Runs (.bootStart (.config false false) us) s (fun t =>
          t.ob Obj.PWR_BOOT_STEP 4 = true ∧ t.o Obj.NV_BANK = s.o Obj.NV_BANK ∧ t.keepsMemories s ∧ t.o Obj.PWR_STATE = 1))) ∧
      (s.power.rstN = false → s.ob Obj.PWR_BOOT_STEP 3 = true → s.ob Obj.PWR_BOOT_STEP 5 = true → s.ob Obj.PWR_BOOT_STEP 7 = false →
        s.cufel.down = false → s.o Obj.CF_ROLE ≠ 3 →
        (∀ d ∈ [d1, d2, d3], sweepFailing (sweepWindows d) = 0 ∧ delayWorks (sweepWindows d) 36 = true) →
        Runs (.bootStart (.dram (.sweep d1) (.sweep d2) (.sweep d3)) us) s (fun t =>
          t.ob Obj.PWR_BOOT_STEP 7 = true ∧ (∀ r ∈ [0, 1, 2], t.o (Obj.DRM_RSTATE r) = 2 ∧ t.o (Obj.DRM_TRAIN_SRC r) = 2 ∧
            t.o (Obj.DRM_DIEMARK r) = 0xFF ∧
            (t.rank r).delays = (sweepWindows ([d1, d2, d3].getD r [])).map fun w => BitVec.ofNat 8 (centre w)) ∧
          t.rankMem = #v[[], [], []] ∧ t.power.swept = true ∧ t.spm = s.spm ∧ t.nvm = s.nvm)) ∧
      (s.power.rstN = false → s.ob Obj.PWR_BOOT_STEP 3 = true → s.ob Obj.PWR_BOOT_STEP 5 = true → s.ob Obj.PWR_BOOT_STEP 8 = false →
        s.cufel.down = false → s.o Obj.CF_ROLE ≠ 3 → s.hk.passed = [] →
        ((s.hkConsts 0 (hk.take 4)).isSome = true → (s.hkConsts 1 (hk.drop 4)).isSome = true →
          Runs (.bootStart (.calibrate hists hk true true) us) s (fun t =>
            t.ob Obj.PWR_BOOT_STEP 8 = true ∧ t.o Obj.HK_STATE = 1 ∧ t.o (Obj.TDC_LUTGEN c) = 1 ∧
            (bootRunOk (hists.getD c ([], [])) = true → (t.chan c).lut = lutOf 16 0 (hists.getD c ([], [])).1) ∧
            (bootRunOk (hists.getD c ([], [])) = false → (t.chan c).lut = linearLut) ∧ t.keepsMemories s)) ∧
        ((s.hkConsts 0 (hk.take 4)).isSome = false → (s.hkConsts 1 (hk.drop 4)).isSome = false →
          Runs (.bootStart (.calibrate hists hk true true) us) s (fun t => t.ob Obj.PWR_BOOT_STEP 8 = false ∧
            t.o Obj.HK_CAL_FAIL = satAdd 32 (satAdd 32 (s.o Obj.HK_CAL_FAIL) 1) 1 ∧ t.keepsObjects s [Obj.HK_CAL_FAIL] ∧
            t.hk.consts = s.hk.consts ∧ t.chans = s.chans ∧ t.keepsMemories s)) ∧
        ((s.hkConsts 0 (hk.take 4)).isSome = true → (s.hkConsts 1 (hk.drop 4)).isSome = false →
          Runs (.bootStart (.calibrate hists hk true true) us) s (fun t => t.ob Obj.PWR_BOOT_STEP 8 = false ∧ t.hk.passed = [0] ∧
            t.o Obj.HK_CAL_FAIL = satAdd 32 (s.o Obj.HK_CAL_FAIL) 1 ∧ t.hk.consts = (hk.take 4).map (fun e => hkConst e.1 e.2 s.open) ++ s.hk.consts.drop 4 ∧ t.chans = s.chans))))

/-- The data-ready tick ends a boot or an unpark, a drained or timed-out park ends in Parked, and a commanded reset
follows its response. (R523; R524; R530; R531; R533; R528; R525; R526; R552) Rests on log entries 103, 104, 113, 157
and 179, the model's own choices. -/
def Obligations.BootsParksAndCommandedResetsEnd : Prop :=
  (∀ (us : BitVec 32) (v : BitVec 9) (s : State), s.awake = true →
     (s.bootReady = false → s.unparkReady = false → exec (.dataReady us) s = .next s) ∧
     (s.bootReady = false → s.ob Obj.CLK_PLL_STATUS 0 = false ∨ s.o Obj.CLK_STATE ≠ 3 ∨ (∃ r ∈ ([0, 1, 2] : List Nat), s.rstate r ∈ [5, 6]) ∨
       (∃ i ∈ List.range 25, s.laneWant i ≠ 2 ∧ s.pstate i = 2) → exec (.dataReady us) s = .next s) ∧
     (s.bootReady = true → s.o Obj.PWR_BOOT_PARK ≠ 0 ∨ s.power.deferred = [] → Runs (.dataReady us) s (fun t =>
       t.ob Obj.PWR_BOOT_STEP 9 = true ∧ t.o Obj.PWR_BOOT_TIME = us.toNat ∧ t.power.trace = s.power.trace.set 9 us.toNat ∧
       (s.o Obj.PWR_BOOT_PARK ≠ 0 → t.o Obj.PWR_STATE = 2) ∧
       (s.o Obj.PWR_BOOT_PARK = 0 → t.inRun = true))) ∧
     (s.unparkReady = true → s.power.deferred = [] → Runs (.dataReady us) s (fun t => t.inRun = true ∧ t.power.unparking = false ∧
       t.spm = s.spm ∧ t.nvm = s.nvm)) ∧
     (s.power.deferred = [] →
       (s.parking = false → s.o Obj.PWR_STATE ≠ 2 → exec .parkComplete s = .next s ∧ exec .parkTimeout s = .next s) ∧
       (s.inRun = true → s.drained = false → exec .parkComplete s = .next s) ∧
       (s.parking = true → s.inRun = true → s.drained = true → Runs .parkComplete s (fun t =>
         t.o Obj.PWR_STATE = 2 ∧ t.power.parking = none ∧ t.power.unparking = false ∧ t.keepsMemories s)) ∧
       (s.parking = true → Runs .parkTimeout s (fun t => t.o Obj.PWR_STATE = 2 ∧ t.power.parking = none ∧ t.query.items = [] ∧
         t.hub.recs = [] ∧ t.keepsMemories s))) ∧
     (s.o Obj.PWR_STATE ∉ [2, 3, 5] ∨ s.power.strapSeen = true ∨ v.toNat = s.o Obj.PWR_STRAPS → exec (.strapCheck v) s = .next s) ∧
     (s.o Obj.PWR_STATE ∈ [2, 3, 5] → s.power.strapSeen = false → v.toNat ≠ s.o Obj.PWR_STRAPS → Runs (.strapCheck v) s (fun t =>
       t.o Obj.PWR_STRAP_CHG = 1 ∧ t.power.strapSeen = true ∧ t.keepsObjects s [Obj.PWR_STRAP_CHG, Obj.FLT_LOG_LOST] ∧
       { t with obj := s.obj, power := s.power, log := s.log } = s))) ∧
  (∀ (s : State), s.awake = true →
     (s.cufel.after ≠ some .reset → exec .commandResetEffect s = .next s) ∧
     (s.cufel.after = some .reset → Runs .commandResetEffect s (fun t =>
       t.o Obj.PWR_STATE = 1 ∧ t.o Obj.RST_CAUSE = 4 ∧ t.o Obj.RST_COUNT = satAdd 32 (s.o Obj.RST_COUNT) 1 ∧
       t.o Obj.RST_LADDER = s.o Obj.RST_LADDER ∧ t.o Obj.RST_PCYC = s.o Obj.RST_PCYC ∧
       t.o Obj.PWR_SUPPLY_EVT = s.o Obj.PWR_SUPPLY_EVT ∧ t.o Obj.PWR_FEEDS = s.o Obj.PWR_FEEDS ∧
       t.plinth = s.plinth ∧ t.nvm = s.nvm ∧ t.spm = [] ∧ t.rankMem = State.reset.rankMem ∧ t.pending = s.pending ∧ t.tick = s.tick ∧
       t.chans = State.reset.chans ∧ t.groups = State.reset.groups ∧ t.query = State.reset.query ∧ t.cufel = State.reset.cufel ∧
       t.sched = [] ∧ t.livePend = [] ∧ t.shadowPend = [] ∧
       t.keepsObjects State.reset [Obj.RST_CAUSE, Obj.RST_COUNT, Obj.RST_LADDER, Obj.RST_PCYC, Obj.PWR_SUPPLY_EVT, Obj.PWR_FEEDS,
         Obj.FLT_LIFE_BAD, Obj.FLT_LIFE_HOURS, Obj.NV_STORES_A, Obj.NV_STORES_B, Obj.NV_REFRESHES, Obj.FLT_LIFE_NEXT,
         Obj.FLT_ACTIVE, Obj.FLT_LATCHED, Obj.FLT_COND_CNT 19, Obj.FLT_COND_CNT 1, Obj.FLT_FAULTN])))

/-- A function's fault takes the next step its policy has left: retry, re-initialisation, reset or power cycle; a
supervisor trap restarts the supervisor. (R529; R536; R537; R538; R543; R463) Rests on log entries 105 and 180, the
model's own choices. -/
def Obligations.TheLadderClimbsItsSteps : Prop :=
  ∀ (f : Fin 10) (c : Ch) (addr : BitVec 23) (s : State), s.awake = true →
    ((∀ e ∈ s.watch.raised, e.1 ≠ f.val) → (∀ e ∈ s.watch.outages, e.1 ≠ f.val) → exec (.functionFault f c) s = .next s) ∧
    ((f.val, c) ∈ s.watch.raised → s.cufel.down = true → Runs (.functionFault f c) s (fun t =>
      t.power = { s.power with faults := s.power.faults ++ [(f.val, c)] } ∧ t.watch.raised.length + 1 = s.watch.raised.length ∧
      { t with power := s.power, watch := s.watch } = s)) ∧
    ((∀ e ∈ s.watch.raised, e.1 ≠ f.val) → s.overdue f (Fin.ofNat 128 (c.val % 8)) = true → s.cufel.down = false →
      bits (s.o (Obj.REC_STATUS f)) 3 0 < bits (s.o (Obj.REC_POLICY f)) 3 0 → Runs (.functionFault f c) s (fun t =>
        bits (t.o (Obj.REC_STATUS f)) 3 0 = bits (s.o (Obj.REC_STATUS f)) 3 0 + 1 ∧ t.overdue f (Fin.ofNat 128 (c.val % 8)) = false)) ∧
    ((f.val, c) ∈ s.watch.raised → s.cufel.down = false → bits (s.o (Obj.REC_STATUS f)) 3 0 < bits (s.o (Obj.REC_POLICY f)) 3 0 → Runs (.functionFault f c) s (fun t =>
      bits (t.o (Obj.REC_STATUS f)) 3 0 = bits (s.o (Obj.REC_STATUS f)) 3 0 + 1 ∧
      bits (t.o (Obj.REC_STATUS f)) 31 16 = min 65535 (bits (s.o (Obj.REC_STATUS f)) 31 16 + 1) ∧
      t.o Obj.REC_LAST = f.val * 2 ^ 24 + 2 ^ 20 ∧ t.keepsObjects s [Obj.REC_STATUS f, Obj.REC_LAST, Obj.FLT_LOG_LOST] ∧
      { t with obj := s.obj, log := s.log, watch := s.watch } = s)) ∧
    ((f.val, c) ∈ s.watch.raised → s.cufel.down = false → bits (s.o (Obj.REC_POLICY f)) 3 0 ≤ bits (s.o (Obj.REC_STATUS f)) 3 0 →
      (2 ≤ bits (s.o (Obj.REC_POLICY f)) 11 8 → bits (s.o (Obj.REC_STATUS f)) 7 4 < bits (s.o (Obj.REC_POLICY f)) 7 4 →
        Runs (.functionFault f c) s (fun t =>
          bits (t.o (Obj.REC_STATUS f)) 7 4 = bits (s.o (Obj.REC_STATUS f)) 7 4 + 1 ∧ t.o Obj.REC_LAST = f.val * 2 ^ 24 + 2 * 2 ^ 20 ∧
          (s.power.parking ≠ none → t.power.deferred = s.power.deferred ++ [(f.val, 2, c)] ∧
            t.keepsObjects s [Obj.REC_STATUS f, Obj.REC_LAST, Obj.FLT_LOG_LOST]) ∧ t.keepsMemories s)) ∧
      (bits (s.o (Obj.REC_POLICY f)) 11 8 < 2 ∨ bits (s.o (Obj.REC_POLICY f)) 7 4 ≤ bits (s.o (Obj.REC_STATUS f)) 7 4 →
        (3 ≤ bits (s.o (Obj.REC_POLICY f)) 11 8 → s.o Obj.RST_LADDER < s.o Obj.REC_RESET_LIMIT → s.inRun = true →
          s.o Obj.NV_STATE = 0 →
          Runs (.functionFault f c) s (fun t => t.o Obj.PWR_STATE = 1 ∧ t.o Obj.RST_CAUSE = 5 ∧
            t.o Obj.RST_LADDER = satAdd 8 (s.o Obj.RST_LADDER) 1 ∧ t.o Obj.RST_COUNT = satAdd 32 (s.o Obj.RST_COUNT) 1 ∧
            t.spm = [])) ∧
        (3 ≤ bits (s.o (Obj.REC_POLICY f)) 11 8 → s.o Obj.RST_LADDER < s.o Obj.REC_RESET_LIMIT →
          s.inRun = false ∨ s.o Obj.NV_STATE ≠ 0 →
          Runs (.functionFault f c) s (fun t => t.power.deferred = s.power.deferred ++ [(f.val, 3, c)] ∧
            t.keepsObjects s [Obj.REC_STATUS f] ∧ { t with obj := s.obj, power := s.power, watch := s.watch } = s)) ∧
        (s.o Obj.REC_RESET_LIMIT ≤ s.o Obj.RST_LADDER → 4 ≤ bits (s.o (Obj.REC_POLICY f)) 11 8 → s.o Obj.REC_PCYC_EN ≠ 0 →
          s.inRun = true → s.o Obj.NV_STATE = 0 → Runs (.functionFault f c) s (fun t => t.o Obj.RST_PCYC = 3 + f.val * 16 ∧
            t.ob Obj.FLT_ACTIVE 19 = true ∧ t.o Obj.REC_LAST = f.val * 2 ^ 24 + 4 * 2 ^ 20 ∧ t.keepsMemories s)) ∧
        (bits (s.o (Obj.REC_POLICY f)) 11 8 < 3 → Runs (.functionFault f c) s (fun t => t.o Obj.REC_LAST = f.val * 2 ^ 24 ∧
          t.keepsObjects s [Obj.REC_STATUS f, Obj.REC_LAST, Obj.FLT_LOG_LOST] ∧ { t with obj := s.obj, log := s.log, watch := s.watch } = s)))) ∧
    Runs (.recQuietExpire f) s (fun t => bits (t.o (Obj.REC_STATUS f)) 7 0 = 0 ∧
      t.o (Obj.REC_STATUS f) / 256 = s.o (Obj.REC_STATUS f) / 256 ∧ t.keepsObjects s [Obj.REC_STATUS f] ∧ { t with obj := s.obj } = s) ∧
    Runs .ladderWindowExpire s (fun t => t.o Obj.RST_LADDER = 0 ∧ t.keepsObjects s [Obj.RST_LADDER] ∧ { t with obj := s.obj } = s) ∧
    Runs .watchdogExpire s (fun t => t.o Obj.RST_SUPV_CAUSE = 3 ∧ t.o Obj.RST_SUPV = satAdd 32 (s.o Obj.RST_SUPV) 1 ∧
      t.served = false ∧ t.cufel.sessions = [] ∧ t.cufel.transfers = [] ∧ t.ob Obj.FLT_LATCHED 13 = true ∧
      t.memUnit.fwRam = [] ∧ t.memUnit.fwLoads = s.memUnit.fwLoads + 1 ∧ t.cufel.queue = s.cufel.queue ∧ t.keepsMemories s) ∧
    Runs (.supervisorTrap none) s (fun t => t.o Obj.RST_SUPV_CAUSE = 2 ∧ t.o Obj.RST_SUPV = satAdd 32 (s.o Obj.RST_SUPV) 1 ∧
      t.served = false ∧ t.ob Obj.FLT_LATCHED 13 = true ∧ t.keepsMemories s) ∧
    Runs (.supervisorTrap (some (true, addr))) s (fun t => t.o Obj.RST_SUPV_CAUSE = 1 ∧
      t.o Obj.SPM_FW_UE = satAdd 32 (s.o Obj.SPM_FW_UE) 1 ∧ t.ob Obj.FLT_LATCHED 6 = true ∧ t.served = false) ∧
    Runs (.supervisorTrap (some (false, addr))) s (fun t => t.o Obj.RST_SUPV_CAUSE = 1 ∧
      t.o Obj.RST_SUPV = satAdd 32 (s.o Obj.RST_SUPV) 1 ∧ t.served = false) ∧
    Runs .supvRestartDone s (fun t => t.power.faults = [] ∧
      (s.power.faults = [] → s.power.deferred = [] → s.power.newRepairs = [] → s.power.swept = false → t.cufel = { s.cufel with down := false } ∧ t.keepsMemories s))

/-- The oldest staged event is written at the next log slot with its EVENT and lifetime record, or folded into one
written less than a second before. (R553; R554; R555; R556; R557) Rests on log entries 8, 84 and 85, the model's own
choices. -/
def Obligations.StagedEventsAreLoggedOrFolded : Prop :=
  ∀ (e : Staged) (r : List Staged) (f : Fold) (s : State), s.awake = true →
    (s.log.staging = [] → exec .logEntryWrite s = .next s) ∧
    (s.log.staging = e :: r →
      (s.log.folds.find? (fun x => x.code == e.code && x.unit == e.unit) = some f →
        s.ticksCover (e.tick - f.tick) 1000 = false → Runs .logEntryWrite s (fun t => t.log.staging = r ∧
          t.log.folds = (s.log.folds.filter fun x => !(x.code == e.code && x.unit == e.unit)) ++
            [{ code := e.code, unit := e.unit, tick := f.tick, count := f.count + 1 }] ∧ { t with log := s.log } = s)) ∧
      (s.log.folds.find? (fun x => x.code == e.code && x.unit == e.unit) = some f →
        s.ticksCover (e.tick - f.tick) 1000 = true → Runs .logEntryWrite s (fun t => t.log.staging = r ∧
          memRead t.spm (logAddr (s.o Obj.FLT_LOG_NEXT)) 32 =
            logRecord e.code e.cls e.unit (s.o Obj.FLT_LOG_SEQ) e.xc e.nt (clip 65535 f.count) e.data ∧
          t.o Obj.FLT_LOG_NEXT = (s.o Obj.FLT_LOG_NEXT + 1) % 512 ∧ t.o Obj.FLT_LAST_CODE = e.code)) ∧
      ((∀ x ∈ s.log.folds, x.code = e.code → x.unit ≠ e.unit) → Runs .logEntryWrite s (fun t => t.log.staging = r ∧
        memRead t.spm (logAddr (s.o Obj.FLT_LOG_NEXT)) 32 =
          logRecord e.code e.cls e.unit (s.o Obj.FLT_LOG_SEQ) e.xc e.nt 0 e.data ∧
        t.keepsSpmOutside s (logAddr (s.o Obj.FLT_LOG_NEXT)) (logAddr (s.o Obj.FLT_LOG_NEXT) + 32) ∧
        t.o Obj.FLT_LOG_NEXT = (s.o Obj.FLT_LOG_NEXT + 1) % 512 ∧ t.o Obj.FLT_LOG_SEQ = (s.o Obj.FLT_LOG_SEQ + 1) % 2 ^ 16 ∧
        t.o Obj.FLT_LOG_CNT = (s.o Obj.FLT_LOG_CNT + 1) % 2 ^ 32 ∧ t.o Obj.FLT_LAST_CODE = e.code ∧ t.o Obj.FLT_LAST_X = e.xc ∧
        t.o Obj.FLT_FIRST = (if e.cls = 0 ∧ s.o Obj.FLT_FIRST = 0 then e.code else s.o Obj.FLT_FIRST) ∧
        (e.code ∉ lifeCodes → t.nvm = s.nvm) ∧
        (e.code ∈ lifeCodes → t.o Obj.FLT_LIFE_NEXT = (s.o Obj.FLT_LIFE_NEXT + 1) % 512) ∧
        (s.cufel.events.length < 64 → e.cls = 0 ∨ s.ob Obj.CF_EVT_MASK e.cls = true →
          t.cufel.events = s.cufel.events ++ [
            { seq := s.o Obj.CF_EVT_SEQ, cls := e.cls, code := e.code, xc := e.xc, nt := e.nt,
              objIdx := 0, objSub := 0, payload := entryPayload 0 e.data e.unit (s.o Obj.FLT_LOG_SEQ) }]) ∧
        (bits (memWord s.spm (logAddr (s.o Obj.FLT_LOG_NEXT)) 32) 255 240 = 0 ∨
          s.unread (bits (memWord s.spm (logAddr (s.o Obj.FLT_LOG_NEXT)) 32) 223 208) = false → t.o Obj.FLT_LOG_LOST = s.o Obj.FLT_LOG_LOST) ∧
        (bits (memWord s.spm (logAddr (s.o Obj.FLT_LOG_NEXT)) 32) 255 240 ≠ 0 →
          s.unread (bits (memWord s.spm (logAddr (s.o Obj.FLT_LOG_NEXT)) 32) 223 208) = true →
          t.o Obj.FLT_LOG_LOST = satAdd 32 (s.o Obj.FLT_LOG_LOST) 1) ∧
        t.rankMem = s.rankMem)))

/-- One struck copy of a register is voted out and counted, two change the vote until the comparison restores it; other
storage is marked or corrected. (R545; R546) Rests on log entries 64, 96, 97 and 98, the model's own choices. -/
def Obligations.UpsetsAreVotedOutOrFound : Prop :=
  ∀ (idx : BitVec 16) (sub : BitVec 8) (v : BitVec 128) (x : Nat) (d : ObjDesc) (c : Ch) (g : Grp) (walk : Bool) (p : Fin 160) (n : Fin 16) (m : BitVec 10)
    (i : Fin 4) (e : QEntry) (s : State), s.awake = true →
    (objDesc (objKey idx.toNat sub.toNat) = none → exec (.storageUpset (.register idx sub none)) s = .next s ∧
      exec (.storageUpset (.register idx sub (some v))) s = .next s) ∧
    (objDesc (objKey idx.toNat sub.toNat) = some d →
      (d.acc ≠ .rw ∨ d.type = .domain → exec (.storageUpset (.register idx sub none)) s = .next s ∧
        exec (.storageUpset (.register idx sub (some v))) s = .next s) ∧
      (d.acc = .rw → d.type ≠ .domain →
        Runs (.storageUpset (.register idx sub none)) s (fun t => t.o Obj.FLT_TMR_CORR = satAdd 32 (s.o Obj.FLT_TMR_CORR) 1 ∧
          t.keepsObjects s [Obj.FLT_TMR_CORR] ∧ { t with obj := s.obj } = s) ∧
        (storedValue (objKey idx.toNat sub.toNat) (v.toNat % 2 ^ d.type.width) = s.o (objKey idx.toNat sub.toNat) →
          exec (.storageUpset (.register idx sub (some v))) s = .next s))) ∧
    (v.toNat % 2 ^ 16 ≠ s.o Obj.CF_HB_PER → s.differs = [] → Runs (.storageUpset (.register 0x1100 0x06 (some v))) s (fun t =>
      t.o Obj.CF_HB_PER = v.toNat % 2 ^ 16 ∧ t.keepsObjects s [Obj.CF_HB_PER] ∧
      t.differs = [{ key := Obj.CF_HB_PER, right := s.o Obj.CF_HB_PER }] ∧
      { t with obj := s.obj, differs := [] } = s)) ∧
    (s.cufel.down = true → exec .tmrCompare s = .next s) ∧
    (s.cufel.down = false → s.differs = [{ key := Obj.CF_HB_PER, right := x }] → s.o Obj.CF_HB_PER ≠ x → Runs .tmrCompare s (fun t =>
      t.o Obj.CF_HB_PER = x ∧ t.o Obj.FLT_TMR_DOUBLE = satAdd 32 (s.o Obj.FLT_TMR_DOUBLE) 1 ∧ t.ob Obj.FLT_LATCHED 14 = true ∧
      t.differs = [] ∧ t.keepsMemories s)) ∧
    (s.lutBad c walk p = false → walk = false ∨ p.val < 80 → exec (.storageUpset (.lut c walk p)) s = .next
      { s with lutFix := s.lutFix ++ [{ ch := c, walk := walk, p := p }] }) ∧
    (s.lutBad c walk p = true ∨ (walk = true ∧ 80 ≤ p.val) → exec (.storageUpset (.lut c walk p)) s = .next s) ∧
    Runs (.storageUpset (.chain c n)) s (fun t => (t.chan c).chain = spoil (s.chan c).chain n ∧
      (∀ d, d ≠ c → t.chan d = s.chan d) ∧ t.chan c = { s.chan c with chain := spoil (s.chan c).chain n } ∧ { t with chans := s.chans } = s) ∧
    Runs (.storageUpset (.fifo g m)) s (fun t => t.group g = { s.group g with fifo := spoil (s.group g).fifo m.toNat } ∧
      (∀ h, h ≠ g → t.group h = s.group h) ∧ { t with groups := s.groups } = s) ∧
    (s.slotEntry i = none → exec (.storageUpset (.query i)) s = .next s) ∧
    (s.slotEntry i = some e → e.st = .waiting → Runs (.storageUpset (.query i)) s (fun t =>
      t.o Obj.FLT_PARITY = satAdd 32 (s.o Obj.FLT_PARITY) 1 ∧ t.keepsObjects s [Obj.FLT_PARITY] ∧ { t with obj := s.obj } = s)) ∧
    (s.slotEntry i = some e → e.st ≠ .waiting → Runs (.storageUpset (.query i)) s (fun t =>
      t.o Obj.FLT_PARITY = satAdd 32 (s.o Obj.FLT_PARITY) 1 ∧ t.nvm = s.nvm)) ∧
    Runs (.storageUpset .control) s (fun t => t.o Obj.FLT_TMR_CORR = satAdd 32 (s.o Obj.FLT_TMR_CORR) 1 ∧
      t.keepsObjects s [Obj.FLT_TMR_CORR] ∧ { t with obj := s.obj } = s) ∧
    exec (.storageUpset .corrected) s = .next s ∧
    (s.differs = [] → exec .tmrCompare s = .next s) ∧
    (s.differs = [{ key := Obj.CF_HB_PER, right := x }] → s.o Obj.CF_HB_PER = x → s.cufel.down = false →
      exec .tmrCompare s = .next { s with differs := [] })

/-- A freeze takes hold by pin, Cufel or TAP, counts once, keeps its sources, and thaws when the last is released unless
refresh was stopped. (R559; R560; R561; R570; R562; R571; R598) Rests on log entries 21, 22 and 23, the model's own
choices. -/
def Obligations.FreezesHoldUntilTheLastSourceReleases : Prop :=
  ∀ (us : BitVec 32) (c : Ch) (s : State),
    (s.o Obj.FRZ_PIN_EN = 0 ∨ s.o Obj.PWR_STATE = 0 ∨ s.o Obj.CLK_STATE = 0 →
      exec .freezePinRise s = .next { s with frz := { s.frz with ball := true } }) ∧
    (s.o Obj.FRZ_PIN_EN ≠ 0 → s.o Obj.PWR_STATE ≠ 0 → s.o Obj.CLK_STATE ≠ 0 →
      (s.frz.frozen = true → exec .freezePinRise s =
        .next { s with frz := { s.frz with ball := true, pin := true, held := setBit s.frz.held 0 true } }) ∧
      (s.frz.frozen = false → Runs .freezePinRise s (fun t => t.frz.frozen = true ∧ t.frz.ball = true ∧ t.frz.pin = true ∧ t.frz.held = 1 ∧ t.awake = false ∧
        t.frz.noref = decide (s.o Obj.FRZ_REFRESH = 0) ∧ t.frz.x = s.xc ∧ t.o Obj.FRZ_COUNT = satAdd 32 (s.o Obj.FRZ_COUNT) 1 ∧
        t.keepsObjects s [Obj.FRZ_COUNT] ∧ { t with obj := s.obj, frz := s.frz } = s))) ∧
    (s.awake = false ∨ s.cufel.after ≠ some .freeze → exec .freezeTakeHold s = .next s) ∧
    (s.awake = true → s.cufel.after = some .freeze → Runs .freezeTakeHold s (fun t => t.frz.frozen = true ∧ t.frz.cufel = true ∧
      t.frz.held = 2 ∧ t.cufel.after = none ∧ t.o Obj.FRZ_COUNT = satAdd 32 (s.o Obj.FRZ_COUNT) 1 ∧
      t.keepsObjects s [Obj.FRZ_COUNT] ∧ { t with obj := s.obj, frz := s.frz, cufel := s.cufel } = s)) ∧
    (s.o Obj.PWR_STATE ≠ 0 → s.o Obj.FLT_TAP_LOCK = 0 → s.frz.frozen = true → Runs .tapFreezeI s (fun t =>
      t.frz.frozen = true ∧ t.frz.tap = true ∧ t.o Obj.FRZ_COUNT = s.o Obj.FRZ_COUNT ∧ t.keepsMemories s)) ∧
    (s.o Obj.PWR_STATE ≠ 0 → s.o Obj.FLT_TAP_LOCK = 0 → s.frz.frozen = false → s.pinTest = false → Runs .tapFreezeI s (fun t =>
      t.frz.frozen = true ∧ t.frz.tap = true ∧ t.frz.held = 4 ∧ t.o Obj.FRZ_COUNT = satAdd 32 (s.o Obj.FRZ_COUNT) 1 ∧
      t.keepsObjects s [Obj.FRZ_COUNT, Obj.FLT_TAP_LAST_IR] ∧ t.keepsMemories s)) ∧
    (s.o Obj.PWR_STATE ≠ 0 → s.o Obj.FLT_TAP_LOCK ≠ 0 → Runs .tapFreezeI s (fun t => t.frz = s.frz ∧
      t.o Obj.FLT_TAP_REFUSED = satAdd 32 (s.o Obj.FLT_TAP_REFUSED) 1 ∧ t.keepsMemories s)) ∧
    (s.frz.frozen = false → exec (.freezePinFall us) s = .next { s with frz := { s.frz with ball := false, pin := false } }) ∧
    (s.frz.frozen = true → s.frz.noref = true → exec (.freezePinFall us) s = .next { s with frz := { s.frz with ball := false } }) ∧
    (s.frz.frozen = true → s.frz.noref = false → s.frz.cufel = true ∨ s.frz.tap = true →
      exec (.freezePinFall us) s = .next { s with frz := { s.frz with ball := false, pin := false } }) ∧
    (s.frz.frozen = true → s.frz.noref = false → s.frz.cufel = false → s.frz.tap = false → Runs (.freezePinFall us) s (fun t =>
      t.frz.frozen = false ∧ t.frz.pin = false ∧ t.o Obj.FRZ_LAST_X = s.frz.x ∧ t.o Obj.FRZ_LAST_DUR = us.toNat ∧
      t.o Obj.FRZ_SRC = s.frz.held ∧ t.o Obj.XC_STATE = 0 ∧ (t.chan c).hit = none ∧ t.keepsMemories s)) ∧
    (s.o Obj.PWR_STATE ≠ 0 → s.frz.frozen = true → s.frz.noref = false → s.frz.pin = false → Runs (.tapThaw us) s (fun t =>
      t.frz.frozen = false ∧ t.frz.tap = false ∧ t.frz.cufel = false ∧ t.o Obj.FRZ_LAST_X = s.frz.x ∧ t.o Obj.FRZ_SRC = s.frz.held ∧
      (t.chan c).hit = none ∧ t.keepsMemories s)) ∧
    (s.o Obj.PWR_STATE ≠ 0 → s.frz.frozen = true → s.frz.noref = false → s.frz.pin = true → Runs (.tapThaw us) s (fun t =>
      t.frz.frozen = true ∧ t.frz.tap = false ∧ t.frz.cufel = false ∧ t.frz.pin = true ∧ t.keepsMemories s))

/-- The TAP answers IDCODE, STATUS, boundary, cast chain and cast memory in any power state but Off; a locked
instruction is BYPASS and counted. (R562; R563; R564; R565; R566; R567; R568; R569; R303) Rests on log entries 15,
24, 27, 123 and 181, the model's own choices. -/
def Obligations.TapInstructionsShiftTheirRegisters : Prop :=
  ∀ (pins b : BitVec 129) (n : BitVec 32) (us : BitVec 32) (ir : BitVec 8) (addr : BitVec 20) (s : State),
    (s.o Obj.PWR_STATE = 0 → exec .tapIdcode s = .next s ∧ exec .tapStatus s = .next s ∧ exec (.tapBypass ir) s = .next s ∧
      exec (.tapExtest pins b) s = .next s ∧ exec (.tapExtestPulse pins b) s = .next s ∧ exec (.tapExtestTrain pins b) s = .next s ∧
      exec (.tapSamplePreload pins b) s = .next s ∧ exec (.tapCast n) s = .next s ∧ exec .tapCastCrc s = .next s ∧
      exec (.tapCastMem false addr []) s = .next s ∧ exec .tapFreezeI s = .next s ∧ exec (.tapThaw us) s = .next s ∧
      exec .trstNAssert s = .next s) ∧
    (s.o Obj.PWR_STATE ≠ 0 → s.frz.frozen = true ∨ s.pinTest = false →
      Runs .tapIdcode s (fun t => t.out = s.out ++ [Sent.tdo 0x02 1 32 0x15128D93] ∧ t.o Obj.FLT_TAP_LAST_IR = 0x02 ∧ t.pinTest = false ∧
        t.keepsObjects s [Obj.FLT_TAP_LAST_IR] ∧ { t with obj := s.obj, out := s.out, pinTest := s.pinTest } = s) ∧
      Runs .tapStatus s (fun t => t.out = s.out ++ [Sent.tdo 0x08 1 32 s.tapStatus] ∧ t.o Obj.FLT_TAP_LAST_IR = 0x08 ∧
        t.keepsObjects s [Obj.FLT_TAP_LAST_IR] ∧ { t with obj := s.obj, out := s.out, pinTest := s.pinTest } = s) ∧
      (ir.toNat ∉ [0, 1, 2, 3, 4, 8, 0x10, 0x11, 0x12, 0x13, 0x14] → Runs (.tapBypass ir) s (fun t =>
        t.out = s.out ++ [Sent.tdo ir.toNat 1 1 0] ∧ t.o Obj.FLT_TAP_LAST_IR = ir.toNat ∧
        t.keepsObjects s [Obj.FLT_TAP_LAST_IR] ∧ { t with obj := s.obj, out := s.out, pinTest := s.pinTest } = s)) ∧
      Runs (.tapSamplePreload pins b) s (fun t => t.out = s.out ++ [Sent.tdo 0x01 1 129 (s.captured pins)] ∧ t.frz = { s.frz with boundary := b } ∧
        t.pinTest = false ∧ t.keepsObjects s [Obj.FLT_TAP_LAST_IR] ∧
        { t with obj := s.obj, out := s.out, pinTest := s.pinTest, frz := s.frz } = s) ∧
      (s.o Obj.FLT_TAP_LOCK ≠ 0 → Runs (.tapExtest pins b) s (fun t => t.out = s.out ++ [Sent.tdo 0x00 1 1 0] ∧
        t.o Obj.FLT_TAP_REFUSED = satAdd 32 (s.o Obj.FLT_TAP_REFUSED) 1 ∧ t.frz = s.frz ∧ t.pinTest = false)) ∧
      (s.frz.frozen = false → Runs (.tapCast n) s (fun t => t.out = s.out ++ [Sent.tdo 0x12 1 1 0] ∧ t.frz = s.frz)) ∧
      Runs .tapCastCrc s (fun t => t.out = s.out ++ [Sent.tdo 0x13 1 64 ((s.frz.crc ^^^ 0xFFFFFFFF) * 2 ^ 32 + s.frz.bits)] ∧ t.frz = s.frz ∧
        t.keepsObjects s [Obj.FLT_TAP_LAST_IR] ∧ { t with obj := s.obj, out := s.out, pinTest := s.pinTest } = s) ∧
      (s.frz.frozen = false → Runs (.tapCastMem false addr []) s (fun t => t.out = s.out ++ [Sent.tdo 0x14 1 86 0] ∧ t.frz = s.frz)) ∧
      Runs .trstNAssert s (fun t => t.o Obj.FLT_TAP_LAST_IR = 0x02 ∧ t.frz.frozen = s.frz.frozen ∧ t.frz.bits = 0 ∧
        t.frz.crc = 0xFFFFFFFF ∧ t.frz.boundary = 0 ∧ t.frz.memReg = 0 ∧ t.pinTest = false ∧ t.out = s.out)) ∧
    (s.o Obj.PWR_STATE ≠ 0 → s.o Obj.FLT_TAP_LOCK = 0 →
      bit (s.captured pins) 0 = s.frz.ball ∧ bit (s.captured pins) 1 = !s.power.rstN ∧
      bit (s.captured pins) 3 = decide (s.o Obj.FLT_FAULTN ≠ 0) ∧ bit (s.captured pins) 9 = bit pins.toNat 9 ∧
      bit (drivenCells b) 2 = bit b.toNat 2 ∧ bit (drivenCells b) 9 = false ∧
      Runs (.tapExtest pins b) s (fun t => t.pinTest = true ∧ t.frz.boundary = b ∧ t.o Obj.FLT_TAP_LAST_IR = 0x00 ∧ t.keepsMemories s ∧
        [Sent.tdo 0x00 1 129 (s.captured pins), Sent.pins (drivenCells b)] ⊆ t.out.drop s.out.length) ∧
      Runs (.tapExtestPulse pins b) s (fun t => t.pinTest = true ∧ t.frz.boundary = b ∧ t.o Obj.FLT_TAP_LAST_IR = 0x03 ∧ t.keepsMemories s ∧
        [Sent.tdo 0x03 1 129 (s.captured pins), Sent.pins (drivenCells b)] ⊆ t.out.drop s.out.length) ∧
      Runs (.tapExtestTrain pins b) s (fun t => t.pinTest = true ∧ t.frz.boundary = b ∧ t.o Obj.FLT_TAP_LAST_IR = 0x04 ∧ t.keepsMemories s ∧
        [Sent.tdo 0x04 1 129 (s.captured pins), Sent.pins (drivenCells b)] ⊆ t.out.drop s.out.length)) ∧
    (s.o Obj.PWR_STATE ≠ 0 → s.frz.frozen = true →
      (n.toNat < castLen → Runs (.tapCast n) s (fun t =>
        t.out = s.out ++ [Sent.tdo 0x12 1 n.toNat (bitsNat (castBits s.frz.number s.frz.pos n.toNat))] ∧
        t.frz.pos = (s.frz.pos + n.toNat) % castLen ∧ t.frz.bits = n.toNat ∧ t.frz.crc = castCrc (castBits s.frz.number s.frz.pos n.toNat) ∧
        t.keepsObjects s [Obj.FLT_TAP_LAST_IR, Obj.CHK_RUN 38] ∧ t.keepsMemories s)) ∧
      (s.castOpen (8 * addr.toNat) = false → Runs (.tapCastMem false addr []) s (fun t =>
        t.out = s.out ++ [Sent.tdo 0x14 1 86 s.frz.memReg] ∧ t.frz.memReg = addr.toNat * 2 ^ 64 + memWord s.spm (8 * addr.toNat) 8 ∧
        t.frz.castUe = false ∧ t.keepsMemories s)) ∧
      (s.castOpen (8 * addr.toNat) = true → Runs (.tapCastMem false addr []) s (fun t => t.frz.castUe = false ∧ t.keepsMemories s ∧
        t.frz.memReg = addr.toNat * 2 ^ 64 + (Config.castWord s.frz.number false s.memUnit.fwLoads addr.toNat).toNat)) ∧
      (memWord s.memUnit.fwRam (8 * addr.toNat) 8 = 0 → Runs (.tapCastMem true addr []) s (fun t =>
        t.out = s.out ++ [Sent.tdo 0x14 1 86 s.frz.memReg] ∧ t.keepsMemories s ∧ t.frz.castUe = false ∧
        t.frz.memReg = 2 ^ 84 + addr.toNat * 2 ^ 64 + (Config.castWord s.frz.number true s.memUnit.fwLoads addr.toNat).toNat)) ∧
      (memWord s.memUnit.fwRam (8 * addr.toNat) 8 ≠ 0 → Runs (.tapCastMem true addr []) s (fun t => t.frz.castUe = true ∧
        t.frz.memReg / 2 ^ 84 = 3 ∧ t.o Obj.SPM_FW_UE = satAdd 32 (s.o Obj.SPM_FW_UE) 1 ∧ t.keepsMemories s)))

/-- A step runs the command at the front of the queue on the state with the queue's rest; on an empty queue a block slot
passes (the model's choice, log entry 1). (R461; R40) Rests on log entry 1, the model's own choice. -/
def Obligations.StepRunsTheCommandAtTheFrontOfTheQueue : Prop :=
  ∀ (c : Instr) (s : State),
    step { s with pending := c :: s.pending } = exec c s ∧ (s.pending = [] → step s = .next s.idleStep) ∧
    (s.pending = [] → s.awake = false ∨ s.lineBusy = false → step s = .next s)

/-- What the links put on their lanes: descrambling undoes scrambling, blocks fill lanes in order, waiting messages
precede frames, and a lane in L1 carries none. (R284; R285; R294; R298; R318; R319; R340) Rests on log entry 1, the
model's own choice. -/
def Obligations.ABlockSlotCarriesTheLinksOntoTheirLanes : Prop :=
  ∀ (i : Fin 25) (k : Fin 8) (r r2 w acnt map kind : Nat) (x : Sent) (b : LineBlock) (l : List LineBlock) (lanes : List Nat) (s : State),
    throughRegister descrambleBit 64 r (throughRegister scrambleBit 64 r w).2 =
      ((throughRegister scrambleBit 64 r w).1, w % 2 ^ 64) ∧
    (throughRegister descrambleBit 64 r2 (throughRegister scrambleBit 64 r w).2).1 = (throughRegister scrambleBit 64 r w).1 ∧
    ({ frame := l } : Feed66).stripe lanes =
      ({ frame := l.drop lanes.length }, lanes.zip (l ++ List.replicate lanes.length idleBlock)) ∧
    (({ wait := [.row .north acnt map kind], frame := l } : Feed66).slot lanes lanes) =
      ({ frame := l }, rowBlocks lanes acnt map kind) ∧
    (x.rank ∈ [1, 2, 3, 4, 5] → x.blocks = [b] → ({ wait := [x], frame := l } : Feed66).position = ({ frame := l }, b)) ∧
    (s.pending = [] → s.awake = true → s.lineBusy = true → step s = .next s.idleStep ∧
      s.idleStep.obj = s.obj ∧ s.idleStep.out = s.out ∧ s.idleStep.keepsMemories s ∧
      (isRx i = true ∨ s.pstate i = 2 → s.idleStep.lane i = s.lane i) ∧
      (isRx i = false → s.pstate i = 1 →
        s.idleStep.lane i = { s.lane i with blocks := (s.lane i).blocks + 1 } ∧ ∀ e ∈ s.idleStep.line.wire, e.1 ≠ i.val) ∧
      (isRx i = false → s.pstate i = 0 → (s.idleStep.lane i).blocks = (s.lane i).blocks + 1) ∧
      (s.sends (17 + k.val) = true → s.line.seen = s.out.length → s.line.south.get k = { frame := b :: l } →
        s.idleStep.line.south.get k = { frame := l } ∧
        (17 + k.val, s.lineOut (17 + k.val) (b.head + 4 * (throughRegister scrambleBit 64 (s.lane (17 + k.val)).scram b.payload).2)) ∈
          s.idleStep.line.wire))

/-- No command ends in a fault or a refusal of the model (where the spec leaves a case open: log entries 11 and 128, the
model's choices). (R19; R456; R459) Rests on log entries 11 and 128, the model's own choices. -/
def Obligations.EveryCommandAnswersANextState : Prop :=
  ∀ (c : Instr) (s : State), (∃ t, exec c s = .next t) ∧ Safe s

/-- After reset every object reads its default, the stored data is canonical, memories list nothing, and nothing waits.
(R490; R525; R45; R521) Rests on log entries 6, 7 and 126, the model's own choices. -/
def Obligations.ResetHoldsEveryDefault : Prop :=
  State.reset.wf = true ∧ (∀ k, State.reset.o k = objDefault k) ∧ State.reset.o Obj.PWR_STATE = 1 ∧ State.reset.o Obj.CLK_STATE = 0 ∧
    State.reset.o Obj.PWR_BOOT_STEP = 0 ∧ State.reset.clocked = false ∧ State.reset.spm = [] ∧ State.reset.nvm = [] ∧
    (∀ r, State.reset.rankMem.get r = []) ∧ State.reset.pending = [] ∧ State.reset.livePend = [] ∧ State.reset.shadowPend = [] ∧
    State.reset.query.items = [] ∧ State.reset.cufel.queue = [] ∧ State.reset.cufel.events = [] ∧ State.reset.log.staging = [] ∧
    State.reset.sched = [] ∧ State.reset.out = []

/-- Every step of every command keeps object store, scratchpad, ranks and NVM in their one canonical form. (R490; R45;
R499) -/
def Obligations.EveryStepKeepsTheStoredDataCanonical : Prop :=
  ∀ s t : State, s.wf = true → step s = .next t → t.wf = true

/-- Without running clocks only supplies, pins, plinth, boot, TAP and refresh act; without a serving supervisor no
request is carried out. (R560; R561; R399; R527; R519; R461; R463; R528; R531) Rests on log entries 11, 20, 22 and
70, the model's own choices. -/
def Obligations.AStoppedOrUnservedDeviceStandsStill : Prop :=
  (∀ (c : Instr) (r : RankId) (temp : BitVec 16) (s : State),
     (s.awake = false → actsAsleep c = false → exec c s = .next s) ∧
     (s.frz.frozen = true → s.frz.noref = true → exec (.refresh r temp) s = .next s)) ∧
  (∀ (c : Instr) (s : State), s.served = false → needsServer c = true → exec c s = .next s)

/-- A coded entry is at most 46 bits long in every set, a block of n entries at most 2 + 6n bytes, and a job at most 6
bytes an entry and 2 a block. (R256; R258; R259; R260) -/
def Obligations.ACodedBlockNeverGrowsByMoreThanItsHeader : Prop :=
  ∀ (c : Ctx) (n w : Nat) (ws : List Nat),
    (n < 4 → (c.bitsOf n w).length ≤ 46) ∧ (codeBlock c ws).bytes.length ≤ 2 + 6 * ws.length ∧
    (codeBlock c ws).entries = ws.length ∧ (codeBlock c ws).set < 4 ∧
    ((codeBlock c ws).set ≠ 3 → blockFits (codeBlock c ws).set c ws = true) ∧
    ((codeJob c ws).flatMap (·.bytes)).length ≤ 6 * ws.length + 2 * ((ws.length + 31) / 32)

/-- An expert's write of NT_SET waits for the tick, which sets NT to that many nanoseconds, counts a step and leaves
NT_STATE; then NT runs at NT_INCR. (R420) -/
def Obligations.NtSetSetsNetworkTimeAtTheNextTick : Prop :=
  ∀ (q : Req) (ns : BitVec 64) (u : List Upset) (sent : Bool) (s : State),
    (s.servedFor q = true → s.isExpert q = false → Runs (.ntSetWrite q ns) s (·.writeRefused s q Obj.NT_SET .expertRequired)) ∧
    (s.servedFor q = true → s.isExpert q = true → Runs (.ntSetWrite q ns) s (·.writeWaits s q Obj.NT_SET ns.toNat)) ∧
    (s.awake = true → s.inRun = true → s.clk.resume = false → s.power.deferred = [] → s.power.toDisable = [] →
      s.power.reenable = [] → s.power.parking = none → s.power.reinit = [] → s.frz.thawed = false → s.cufel.tlm = none →
      s.o Obj.CLK_STATE = 3 → s.clk.marker = some s.tick → s.due = [] → s.alignPend = none →
      (s.time.waiting.all fun m => decide (s.tick ≤ m.tick)) = true → (∀ k : Fin 8, s.alarmDue k = false) → s.applied = [] → (∀ x ∈ s.sched, x.tick ≠ s.tick + 1) →
      (s.livePend = [(Obj.NT_SET, ns.toNat)] → Runs (.crossingTick u sent) s (fun t =>
        t.nt = ns.toNat * 2 ^ 32 ∧ t.o Obj.NT_STEPS = satAdd 32 (s.o Obj.NT_STEPS) 1 ∧ t.o Obj.NT_STATE = s.o Obj.NT_STATE ∧
        t.time.slew = 0)) ∧
      (s.livePend = [] → s.time.slew = 0 → s.o Obj.NT_RATE = 0 → Runs (.crossingTick u sent) s (fun t =>
        t.nt = (s.nt + s.o Obj.NT_INCR) % 2 ^ 96 ∧ t.o Obj.NT_STATE = s.o Obj.NT_STATE)))

/-- HUB_PORT_EN bit k enables south port k of a hub at the tick; in any other role it reads 0x00 and its write is
refused with FUNCTION_RUNNING. (R213) -/
def Obligations.EnabledPortsAreTheHubs : Prop :=
  ∀ (q : Req) (v : BitVec 8) (k : Fin 8) (u : List Upset) (sent : Bool) (s : State),
    (s.servedFor q = true → s.o Obj.CF_ROLE ≠ 2 →
      Runs (.read q (keyBytes Obj.HUB_PORT_EN)) s (fun t => t.answers q 0x01 .ok (keyBytes Obj.HUB_PORT_EN ++ [2, 0])) ∧
      Runs (.hubPortEnWrite q v) s (·.writeRefused s q Obj.HUB_PORT_EN .functionRunning)) ∧
    (s.servedFor q = true → s.o Obj.CF_ROLE = 2 → s.o Obj.HUB_MODE ≠ 1 →
      Runs (.hubPortEnWrite q v) s (·.writeWaits s q Obj.HUB_PORT_EN v.toNat)) ∧
    (s.awake = true → s.inRun = true → s.o Obj.CF_ROLE = 2 → s.clk.resume = false → s.power.deferred = [] → s.power.toDisable = [] →
      s.power.reenable = [] → s.power.parking = none → s.power.reinit = [] → s.frz.thawed = false → s.cufel.tlm = none →
      s.o Obj.CLK_STATE = 3 → s.clk.marker = some s.tick → s.due = [] → s.alignPend = none →
      (s.time.waiting.all fun m => decide (s.tick ≤ m.tick)) = true → (∀ k : Fin 8, s.alarmDue k = false) → s.applied = [] → (∀ x ∈ s.sched, x.tick ≠ s.tick + 1) →
      s.livePend = [(Obj.HUB_PORT_EN, v.toNat)] → Runs (.crossingTick u sent) s (fun t =>
        t.o Obj.HUB_PORT_EN = v.toNat ∧ (bit v.toNat k = true → s.o (Obj.HUB_PSTATE k) = 0 → t.o (Obj.HUB_PSTATE k) = 1) ∧
        (bit v.toNat k = false → s.hub.recs = [] → t.o (Obj.HUB_PSTATE k) = 0)))

/-- A log entry of class 0 or 1 queues an EVENT with its code, crossing and time and a 16-byte payload, unless masked; a
lifetime-only record queues none. (R557) -/
def Obligations.LoggedEntriesAreOfferedAsEvents : Prop :=
  ∀ (e : Staged) (fold code unit : Nat) (data : List Byte) (s : State),
    (entryPayload fold e.data e.unit (s.o Obj.FLT_LOG_SEQ)).length = 16 ∧
    (e.cls = 0 ∨ (e.cls = 1 ∧ s.ob Obj.CF_EVT_MASK 1 = true) → s.cufel.events.length < 64 →
      ∃ x, (s.logEntry e fold).cufel.events = s.cufel.events ++ [x] ∧ x.cls = e.cls ∧ x.code = e.code ∧ x.xc = e.xc ∧ x.nt = e.nt ∧
        x.payload = bytesLE 2 fold ++ (e.data.take 10 ++ List.replicate (10 - e.data.length) 0) ++ bytesLE 1 e.unit ++
          bytesLE 2 (s.o Obj.FLT_LOG_SEQ) ++ [0]) ∧
    (e.cls = 1 → s.ob Obj.CF_EVT_MASK 1 = false → (s.logEntry e fold).cufel.events = s.cufel.events) ∧
    (s.lifeOnly code unit data).cufel = s.cufel ∧
    (s.awake = true → Runs .lifetimeHours s (fun t => t.cufel = s.cufel))
end

