-- ==== Sys2Proof/Laws/Bits.lean ====
section
/-! SUPPORT. Laws of bits: what a bit reads as after a bit has been written. -/
namespace Sys2Proof.Machine

@[simp] theorem bit_setBit_self (v n : Nat) (b : Bool) : bit (setBit v n b) n = b := by
  unfold bit setBit
  split
  · assumption
  · next h => rw [Nat.testBit_xor, Nat.testBit_two_pow_self]; revert h; cases v.testBit n <;> cases b <;> simp

theorem bit_setBit_ne (v : Nat) {n m : Nat} (b : Bool) (h : m ≠ n) : bit (setBit v n b) m = bit v m := by
  unfold bit setBit
  split
  · rfl
  · rw [Nat.testBit_xor, Nat.testBit_two_pow_of_ne h.symm]; simp

theorem bit_setBit (v n m : Nat) (b : Bool) : bit (setBit v n b) m = if m = n then b else bit v m := by
  split
  · next h => subst h; exact bit_setBit_self v _ b
  · next h => exact bit_setBit_ne v b h

/-- A saturating counter that is not full counts. -/
theorem satAdd_of_lt {n v d : Nat} (h : v + d ≤ 2 ^ n - 1) : satAdd n v d = v + d := by
  simp [satAdd, clip, Nat.not_lt.mpr h]

end Sys2Proof.Machine
end

