-- ==== Sys2Proof/Laws/Sparse.lean ====
section
/-! SUPPORT. Laws of the sparse maps: what is read after a write, and the canonical form that every memory operation
keeps. -/
namespace Sys2Proof.Machine

set_option Elab.async false

variable {α : Type}

/-! ### Read after write -/

@[simp] theorem sget_sput_self (d : α) (m : List (Nat × α)) (a : Nat) (v : α) : sget d (sput m a v) a = v := by
  induction m with
  | nil => simp [sput, sget]
  | cons e r ih =>
    obtain ⟨k, w⟩ := e
    simp only [sput]
    split
    · simp [sget]
    · split
      · simp [sget]
      · next h => simp [sget, Ne.symm h, ih]

theorem sget_sput_ne (d : α) (m : List (Nat × α)) {a b : Nat} (v : α) (h : b ≠ a) :
    sget d (sput m a v) b = sget d m b := by
  induction m with
  | nil => simp [sput, sget, Ne.symm h]
  | cons e r ih =>
    obtain ⟨k, w⟩ := e
    simp only [sput]
    split
    · simp [sget, Ne.symm h]
    · split
      · next hk => subst hk; simp [sget, Ne.symm h]
      · simp [sget, ih]

@[simp] theorem sget_filter_self (d : α) (m : List (Nat × α)) (a : Nat) :
    sget d (m.filter fun e => e.1 != a) a = d := by
  induction m with
  | nil => rfl
  | cons e r ih =>
    obtain ⟨k, w⟩ := e
    by_cases h : k = a
    · simp [h]; exact ih
    · simp [h, sget]; exact ih

theorem sget_filter_ne (d : α) (m : List (Nat × α)) {a b : Nat} (h : b ≠ a) :
    sget d (m.filter fun e => e.1 != a) b = sget d m b := by
  induction m with
  | nil => rfl
  | cons e r ih =>
    obtain ⟨k, w⟩ := e
    by_cases hk : k = a
    · subst hk; simp [sget, Ne.symm h]; exact ih
    · have hf : ((k, w) :: r).filter (fun e => e.1 != a) = (k, w) :: r.filter (fun e => e.1 != a) := by simp [hk]
      rw [hf]
      simp only [sget, ih]

@[simp] theorem sget_sset_self [DecidableEq α] (d : α) (m : List (Nat × α)) (a : Nat) (v : α) :
    sget d (sset d m a v) a = v := by
  unfold sset
  split
  · next h => rw [h]; exact sget_filter_self d m a
  · exact sget_sput_self d m a v

theorem sget_sset_ne [DecidableEq α] (d d' : α) (m : List (Nat × α)) {a b : Nat} (v : α) (h : b ≠ a) :
    sget d' (sset d m a v) b = sget d' m b := by
  unfold sset
  split
  · exact sget_filter_ne d' m h
  · exact sget_sput_ne d' m v h

/-! ### The canonical form -/

theorem risesFrom_mono {l l' : Option Nat} {m : List (Nat × α)} (h : risesFrom l m = true)
    (hl : ∀ k, m.head? = some k → ∀ x, l' = some x → x < k.1) : risesFrom l' m = true := by
  cases m with
  | nil => cases l' <;> rfl
  | cons e r =>
    obtain ⟨k, w⟩ := e
    have ht : risesFrom (some k) r = true := by
      cases l <;> simp [risesFrom] at h
      · exact h
      · exact h.2
    cases l' with
    | none => simpa [risesFrom] using ht
    | some x => simp [risesFrom, ht]; exact hl (k, w) rfl x rfl

theorem risesFrom_weaken {l l' : Nat} {m : List (Nat × α)} (h : risesFrom (some l) m = true) (hl : l' ≤ l) :
    risesFrom (some l') m = true := by
  cases m with
  | nil => rfl
  | cons e r =>
    obtain ⟨k, w⟩ := e
    simp [risesFrom] at h ⊢
    exact ⟨by omega, h.2⟩

theorem risesFrom_none {l : Nat} {m : List (Nat × α)} (h : risesFrom (some l) m = true) : risesFrom none m = true := by
  cases m with
  | nil => rfl
  | cons e r => obtain ⟨k, w⟩ := e; simp [risesFrom] at h ⊢; exact h.2

theorem risesFrom_filter (p : Nat × α → Bool) {l : Nat} {m : List (Nat × α)} (h : risesFrom (some l) m = true) :
    risesFrom (some l) (m.filter p) = true := by
  induction m generalizing l with
  | nil => exact h
  | cons e r ih =>
    obtain ⟨k, w⟩ := e
    simp [risesFrom] at h
    by_cases hp : p (k, w) = true
    · simp [hp, risesFrom]; exact ⟨h.1, ih h.2⟩
    · simp [hp]; exact risesFrom_weaken (ih h.2) (by omega)

theorem risesFrom_sput {a : Nat} {v : α} {l : Nat} {m : List (Nat × α)} (h : risesFrom (some l) m = true) (hl : l < a) :
    risesFrom (some l) (sput m a v) = true := by
  induction m generalizing l with
  | nil => simp [sput, risesFrom, hl]
  | cons e r ih =>
    obtain ⟨k, w⟩ := e
    simp [risesFrom] at h
    simp only [sput]
    split
    · next hk => simp [risesFrom, hl, hk, h.2]
    · split
      · next hk => subst hk; simp [risesFrom, hl, h.2]
      · next h1 h2 => simp [risesFrom, h.1]; exact ih h.2 (by omega)

theorem mem_sput {e : Nat × α} {a : Nat} {v : α} {m : List (Nat × α)} (h : e ∈ sput m a v) : e = (a, v) ∨ e ∈ m := by
  induction m with
  | nil => simpa [sput] using h
  | cons x r ih =>
    obtain ⟨k, w⟩ := x
    simp only [sput] at h
    split at h
    · simpa using h
    · split at h
      · simp at h; simp; tauto
      · simp at h; simp
        rcases h with h | h
        · tauto
        · rcases ih h with h | h <;> tauto

/-- Rising addresses, from none or from below a bound. -/
theorem risesFrom_none_iff {e : Nat × α} {r : List (Nat × α)} : risesFrom none (e :: r) = risesFrom (some e.1) r := by
  obtain ⟨k, w⟩ := e; rfl

/-- Writing an address keeps the canonical form. -/
theorem canonical_sset [DecidableEq α] (d : Nat → α) {m : List (Nat × α)} (a : Nat) (v : α) (h : canonical d m = true) :
    canonical d (sset (d a) m a v) = true := by
  simp only [canonical, Bool.and_eq_true, List.all_eq_true] at h ⊢
  obtain ⟨hr, hd⟩ := h
  unfold sset
  split
  · refine ⟨?_, fun e he => hd e (List.mem_filter.mp he).1⟩
    cases m with
    | nil => rfl
    | cons e r =>
      rw [risesFrom_none_iff] at hr
      by_cases hp : (e.1 != a) = true
      · simp [hp, risesFrom_none_iff]; exact risesFrom_filter _ hr
      · simp [hp]; exact risesFrom_none (risesFrom_filter _ hr)
  · next hv =>
    refine ⟨?_, fun e he => ?_⟩
    · cases m with
      | nil => simp [sput, risesFrom]
      | cons e r =>
        obtain ⟨k, w⟩ := e
        rw [risesFrom_none_iff] at hr
        simp only [sput]
        split
        · next hk => simp [risesFrom, hk]; exact hr
        · split
          · next hk => subst hk; exact hr
          · next h1 h2 => exact risesFrom_sput hr (by omega)
    · rcases mem_sput he with rfl | he
      · simpa using hv
      · exact hd e he

/-- Taking entries away keeps the canonical form. -/
theorem canonical_filter [DecidableEq α] (d : Nat → α) (p : Nat × α → Bool) {m : List (Nat × α)} (h : canonical d m = true) :
    canonical d (m.filter p) = true := by
  simp only [canonical, Bool.and_eq_true, List.all_eq_true] at h ⊢
  obtain ⟨hr, hd⟩ := h
  refine ⟨?_, fun e he => hd e (List.mem_filter.mp he).1⟩
  cases m with
  | nil => rfl
  | cons e r =>
    rw [risesFrom_none_iff] at hr
    by_cases hp : p e = true
    · simp [hp, risesFrom_none_iff]; exact risesFrom_filter _ hr
    · simp [hp]; exact risesFrom_none (risesFrom_filter _ hr)

/-! ### Memories -/

@[simp] theorem memGet_memSet_self (m : Memory) (a : Nat) (b : Byte) : memGet (memSet m a b) a = b := sget_sset_self 0 m a b

theorem memGet_memSet_ne (m : Memory) {a c : Nat} (b : Byte) (h : c ≠ a) : memGet (memSet m a b) c = memGet m c :=
  sget_sset_ne 0 0 m b h

@[simp] theorem memWf_nil : Memory.wf [] = true := rfl

theorem memSet_wf {m : Memory} (a : Nat) (b : Byte) (h : m.wf = true) : (memSet m a b).wf = true :=
  canonical_sset (fun _ => 0) a b h

theorem memWrite_wf {m : Memory} (a : Nat) (l : List Byte) (h : m.wf = true) : (memWrite m a l).wf = true := by
  induction l generalizing m a with
  | nil => exact h
  | cons b r ih => exact ih (a + 1) (memSet_wf a b h)

theorem memZero_wf {m : Memory} (a n : Nat) (h : m.wf = true) : (memZero m a n).wf = true := canonical_filter (fun _ => 0) _ h

theorem memPutWord_wf {m : Memory} (a n v : Nat) (h : m.wf = true) : (memPutWord m a n v).wf = true := memWrite_wf a _ h

/-- Writing a byte string leaves every address outside it alone. -/
theorem memGet_memWrite_outside (m : Memory) (a : Nat) (l : List Byte) (c : Nat) (h : c < a ∨ a + l.length ≤ c) :
    memGet (memWrite m a l) c = memGet m c := by
  induction l generalizing m a with
  | nil => rfl
  | cons b r ih =>
    simp only [List.length_cons] at h
    rw [memWrite, ih (memSet m a b) (a + 1) (by omega), memGet_memSet_ne m b (by omega)]

/-- A byte string reads back as it was written. -/
theorem memRead_memWrite (m : Memory) (a : Nat) (l : List Byte) : memRead (memWrite m a l) a l.length = l := by
  induction l generalizing m a with
  | nil => rfl
  | cons b r ih =>
    simp only [List.length_cons, memRead, memWrite]
    rw [memGet_memWrite_outside _ _ _ _ (by omega), memGet_memSet_self, ih]

end Sys2Proof.Machine
end

