-- ==== Sys2Proof/Laws/State.lean ====
section
/-! SUPPORT. The laws of the state's updates: what an object reads as after a write, and which fields an update leaves
as they were. -/
namespace Sys2Proof.Machine

set_option Elab.async false

/-! ### Objects -/

/-- An object reads as the value last written to it. -/
@[simp] theorem State.o_setO_self (s : State) (k v : Nat) : (s.setO k v).o k = v :=
  sget_sset_self (objDefault k) s.obj k v

/-- A write leaves every other object as it was. -/
theorem State.o_setO_ne (s : State) {k j : Nat} (v : Nat) (h : j ≠ k) : (s.setO k v).o j = s.o j :=
  sget_sset_ne (objDefault k) (objDefault j) s.obj v h

/-- An object after a write, by cases. -/
theorem State.o_setO (s : State) (k j v : Nat) : (s.setO k v).o j = if j = k then v else s.o j := by
  split
  · next h => subst h; exact s.o_setO_self _ v
  · next h => exact s.o_setO_ne v h

theorem State.o_bumpBy (s : State) (k j d : Nat) : (s.bumpBy k d).o j = if j = k then satAdd 32 (s.o k) d else s.o j :=
  s.o_setO k j _

theorem State.o_bump (s : State) (k j : Nat) : (s.bump k).o j = if j = k then satAdd 32 (s.o k) 1 else s.o j :=
  s.o_setO k j _

theorem State.o_wrapBy (s : State) (n k j d : Nat) : (s.wrapBy n k d).o j = if j = k then (s.o k + d) % 2 ^ n else s.o j :=
  s.o_setO k j _

theorem State.o_peak (s : State) (k j v : Nat) : (s.peak k v).o j = if j = k then max (s.o k) v else s.o j :=
  s.o_setO k j _

theorem State.o_setOb (s : State) (k j n : Nat) (b : Bool) : (s.setOb k n b).o j = if j = k then setBit (s.o k) n b else s.o j :=
  s.o_setO k j _

/-- States with the same objects read alike. -/
theorem State.o_congr {s t : State} (h : t.obj = s.obj) (k : Nat) : t.o k = s.o k := by simp [State.o, h]

/-! ### The gates -/

theorem State.ifAwake_of {s t : State} (h : s.awake = true) : s.ifAwake t = t := by simp [State.ifAwake, h]

theorem State.ifAwake_not {s t : State} (h : s.awake = false) : s.ifAwake t = s := by simp [State.ifAwake, h]

theorem State.ifServed_of {s t : State} (h : s.served = true) : s.ifServed t = t := by simp [State.ifServed, h]

theorem State.ifServed_not {s t : State} (h : s.served = false) : s.ifServed t = s := by simp [State.ifServed, h]

theorem State.ifRequest_of {s t : State} {q : Req} (h : s.servedFor q = true) : s.ifRequest q t = t := by
  simp [State.ifRequest, h]

theorem State.ifRequest_not {s t : State} {q : Req} (h : s.servedFor q = false) : s.ifRequest q t = s := by
  simp [State.ifRequest, h]

theorem State.ifTask_of {s t : State} (h : s.awake = true) (hd : s.cufel.down = false) : s.ifTask t = t := by
  simp [State.ifTask, h, hd]

/-- A request that is executed now finds the server ready. -/
theorem State.served_of_servedFor {s : State} {q : Req} (h : s.servedFor q = true) : s.served = true := by
  simp [State.servedFor] at h; exact h.1

/-- Where a request is executed the functional clocks run. -/
theorem State.awake_of_served {s : State} (h : s.served = true) : s.awake = true := by
  simp [State.served] at h; exact h.1.1

/-! ### Vectors -/

@[simp] theorem State.chan_setChan_self (s : State) (c : Ch) (x : Chan) : (s.setChan c x).chan c = x := by
  simp [State.chan, State.setChan, Vector.get_eq_getElem]

theorem State.chan_setChan_ne (s : State) {c d : Ch} (x : Chan) (h : d ≠ c) : (s.setChan c x).chan d = s.chan d := by
  have : c.val ≠ d.val := fun e => h (Fin.ext e.symm)
  simp [State.chan, State.setChan, Vector.get_eq_getElem, this]

@[simp] theorem State.group_setGroup_self (s : State) (g : Grp) (x : Group) : (s.setGroup g x).group g = x := by
  simp [State.group, State.setGroup, Vector.get_eq_getElem]

theorem State.group_setGroup_ne (s : State) {g d : Grp} (x : Group) (h : d ≠ g) : (s.setGroup g x).group d = s.group d := by
  have : g.val ≠ d.val := fun e => h (Fin.ext e.symm)
  simp [State.group, State.setGroup, Vector.get_eq_getElem, this]

/-! ### What setO leaves as it was -/

@[simp] theorem State.pending_setO (s : State) (k v : Nat) : (s.setO k v).pending = s.pending := rfl
@[simp] theorem State.free_setO (s : State) (k v : Nat) : (s.setO k v).free = s.free := rfl
@[simp] theorem State.livePend_setO (s : State) (k v : Nat) : (s.setO k v).livePend = s.livePend := rfl
@[simp] theorem State.shadowPend_setO (s : State) (k v : Nat) : (s.setO k v).shadowPend = s.shadowPend := rfl
@[simp] theorem State.applied_setO (s : State) (k v : Nat) : (s.setO k v).applied = s.applied := rfl
@[simp] theorem State.tick_setO (s : State) (k v : Nat) : (s.setO k v).tick = s.tick := rfl
@[simp] theorem State.chans_setO (s : State) (k v : Nat) : (s.setO k v).chans = s.chans := rfl
@[simp] theorem State.fastOr_setO (s : State) (k v : Nat) : (s.setO k v).fastOr = s.fastOr := rfl
@[simp] theorem State.probe_setO (s : State) (k v : Nat) : (s.setO k v).probe = s.probe := rfl
@[simp] theorem State.calUnit_setO (s : State) (k v : Nat) : (s.setO k v).calUnit = s.calUnit := rfl
@[simp] theorem State.rmGate_setO (s : State) (k v : Nat) : (s.setO k v).rmGate = s.rmGate := rfl
@[simp] theorem State.rateHist_setO (s : State) (k v : Nat) : (s.setO k v).rateHist = s.rateHist := rfl
@[simp] theorem State.groups_setO (s : State) (k v : Nat) : (s.setO k v).groups = s.groups := rfl
@[simp] theorem State.asm_setO (s : State) (k v : Nat) : (s.setO k v).asm = s.asm := rfl
@[simp] theorem State.lb_setO (s : State) (k v : Nat) : (s.setO k v).lb = s.lb := rfl
@[simp] theorem State.spm_setO (s : State) (k v : Nat) : (s.setO k v).spm = s.spm := rfl
@[simp] theorem State.soiled_setO (s : State) (k v : Nat) : (s.setO k v).soiled = s.soiled := rfl
@[simp] theorem State.rankMem_setO (s : State) (k v : Nat) : (s.setO k v).rankMem = s.rankMem := rfl
@[simp] theorem State.memUnit_setO (s : State) (k v : Nat) : (s.setO k v).memUnit = s.memUnit := rfl
@[simp] theorem State.watch_setO (s : State) (k v : Nat) : (s.setO k v).watch = s.watch := rfl
@[simp] theorem State.query_setO (s : State) (k v : Nat) : (s.setO k v).query = s.query := rfl
@[simp] theorem State.hub_setO (s : State) (k v : Nat) : (s.setO k v).hub = s.hub := rfl
@[simp] theorem State.bld_setO (s : State) (k v : Nat) : (s.setO k v).bld = s.bld := rfl
@[simp] theorem State.cmp_setO (s : State) (k v : Nat) : (s.setO k v).cmp = s.cmp := rfl
@[simp] theorem State.lanes_setO (s : State) (k v : Nat) : (s.setO k v).lanes = s.lanes := rfl
@[simp] theorem State.synthLost_setO (s : State) (k v : Nat) : (s.setO k v).synthLost = s.synthLost := rfl
@[simp] theorem State.pinTest_setO (s : State) (k v : Nat) : (s.setO k v).pinTest = s.pinTest := rfl
@[simp] theorem State.north_setO (s : State) (k v : Nat) : (s.setO k v).north = s.north := rfl
@[simp] theorem State.south_setO (s : State) (k v : Nat) : (s.setO k v).south = s.south := rfl
@[simp] theorem State.pass_setO (s : State) (k v : Nat) : (s.setO k v).pass = s.pass := rfl
@[simp] theorem State.sched_setO (s : State) (k v : Nat) : (s.setO k v).sched = s.sched := rfl
@[simp] theorem State.alignPend_setO (s : State) (k v : Nat) : (s.setO k v).alignPend = s.alignPend := rfl
@[simp] theorem State.out_setO (s : State) (k v : Nat) : (s.setO k v).out = s.out := rfl
@[simp] theorem State.line_setO (s : State) (k v : Nat) : (s.setO k v).line = s.line := rfl
@[simp] theorem State.clk_setO (s : State) (k v : Nat) : (s.setO k v).clk = s.clk := rfl
@[simp] theorem State.plinth_setO (s : State) (k v : Nat) : (s.setO k v).plinth = s.plinth := rfl
@[simp] theorem State.power_setO (s : State) (k v : Nat) : (s.setO k v).power = s.power := rfl
@[simp] theorem State.nvm_setO (s : State) (k v : Nat) : (s.setO k v).nvm = s.nvm := rfl
@[simp] theorem State.hk_setO (s : State) (k v : Nat) : (s.setO k v).hk = s.hk := rfl
@[simp] theorem State.cufel_setO (s : State) (k v : Nat) : (s.setO k v).cufel = s.cufel := rfl
@[simp] theorem State.can_setO (s : State) (k v : Nat) : (s.setO k v).can = s.can := rfl
@[simp] theorem State.log_setO (s : State) (k v : Nat) : (s.setO k v).log = s.log := rfl
@[simp] theorem State.frz_setO (s : State) (k v : Nat) : (s.setO k v).frz = s.frz := rfl
@[simp] theorem State.nv_setO (s : State) (k v : Nat) : (s.setO k v).nv = s.nv := rfl
@[simp] theorem State.differs_setO (s : State) (k v : Nat) : (s.setO k v).differs = s.differs := rfl
@[simp] theorem State.lutFix_setO (s : State) (k v : Nat) : (s.setO k v).lutFix = s.lutFix := rfl
@[simp] theorem State.nt_setO (s : State) (k v : Nat) : (s.setO k v).nt = s.nt := rfl
@[simp] theorem State.time_setO (s : State) (k v : Nat) : (s.setO k v).time = s.time := rfl
@[simp] theorem State.capts_setO (s : State) (k v : Nat) : (s.setO k v).capts = s.capts := rfl

/-! ### What bumpBy leaves as it was -/

@[simp] theorem State.pending_bumpBy (s : State) (k d : Nat) : (s.bumpBy k d).pending = s.pending := rfl
@[simp] theorem State.free_bumpBy (s : State) (k d : Nat) : (s.bumpBy k d).free = s.free := rfl
@[simp] theorem State.livePend_bumpBy (s : State) (k d : Nat) : (s.bumpBy k d).livePend = s.livePend := rfl
@[simp] theorem State.shadowPend_bumpBy (s : State) (k d : Nat) : (s.bumpBy k d).shadowPend = s.shadowPend := rfl
@[simp] theorem State.applied_bumpBy (s : State) (k d : Nat) : (s.bumpBy k d).applied = s.applied := rfl
@[simp] theorem State.tick_bumpBy (s : State) (k d : Nat) : (s.bumpBy k d).tick = s.tick := rfl
@[simp] theorem State.chans_bumpBy (s : State) (k d : Nat) : (s.bumpBy k d).chans = s.chans := rfl
@[simp] theorem State.fastOr_bumpBy (s : State) (k d : Nat) : (s.bumpBy k d).fastOr = s.fastOr := rfl
@[simp] theorem State.probe_bumpBy (s : State) (k d : Nat) : (s.bumpBy k d).probe = s.probe := rfl
@[simp] theorem State.calUnit_bumpBy (s : State) (k d : Nat) : (s.bumpBy k d).calUnit = s.calUnit := rfl
@[simp] theorem State.rmGate_bumpBy (s : State) (k d : Nat) : (s.bumpBy k d).rmGate = s.rmGate := rfl
@[simp] theorem State.rateHist_bumpBy (s : State) (k d : Nat) : (s.bumpBy k d).rateHist = s.rateHist := rfl
@[simp] theorem State.groups_bumpBy (s : State) (k d : Nat) : (s.bumpBy k d).groups = s.groups := rfl
@[simp] theorem State.asm_bumpBy (s : State) (k d : Nat) : (s.bumpBy k d).asm = s.asm := rfl
@[simp] theorem State.lb_bumpBy (s : State) (k d : Nat) : (s.bumpBy k d).lb = s.lb := rfl
@[simp] theorem State.spm_bumpBy (s : State) (k d : Nat) : (s.bumpBy k d).spm = s.spm := rfl
@[simp] theorem State.soiled_bumpBy (s : State) (k d : Nat) : (s.bumpBy k d).soiled = s.soiled := rfl
@[simp] theorem State.rankMem_bumpBy (s : State) (k d : Nat) : (s.bumpBy k d).rankMem = s.rankMem := rfl
@[simp] theorem State.memUnit_bumpBy (s : State) (k d : Nat) : (s.bumpBy k d).memUnit = s.memUnit := rfl
@[simp] theorem State.watch_bumpBy (s : State) (k d : Nat) : (s.bumpBy k d).watch = s.watch := rfl
@[simp] theorem State.query_bumpBy (s : State) (k d : Nat) : (s.bumpBy k d).query = s.query := rfl
@[simp] theorem State.hub_bumpBy (s : State) (k d : Nat) : (s.bumpBy k d).hub = s.hub := rfl
@[simp] theorem State.bld_bumpBy (s : State) (k d : Nat) : (s.bumpBy k d).bld = s.bld := rfl
@[simp] theorem State.cmp_bumpBy (s : State) (k d : Nat) : (s.bumpBy k d).cmp = s.cmp := rfl
@[simp] theorem State.lanes_bumpBy (s : State) (k d : Nat) : (s.bumpBy k d).lanes = s.lanes := rfl
@[simp] theorem State.synthLost_bumpBy (s : State) (k d : Nat) : (s.bumpBy k d).synthLost = s.synthLost := rfl
@[simp] theorem State.pinTest_bumpBy (s : State) (k d : Nat) : (s.bumpBy k d).pinTest = s.pinTest := rfl
@[simp] theorem State.north_bumpBy (s : State) (k d : Nat) : (s.bumpBy k d).north = s.north := rfl
@[simp] theorem State.south_bumpBy (s : State) (k d : Nat) : (s.bumpBy k d).south = s.south := rfl
@[simp] theorem State.pass_bumpBy (s : State) (k d : Nat) : (s.bumpBy k d).pass = s.pass := rfl
@[simp] theorem State.sched_bumpBy (s : State) (k d : Nat) : (s.bumpBy k d).sched = s.sched := rfl
@[simp] theorem State.alignPend_bumpBy (s : State) (k d : Nat) : (s.bumpBy k d).alignPend = s.alignPend := rfl
@[simp] theorem State.out_bumpBy (s : State) (k d : Nat) : (s.bumpBy k d).out = s.out := rfl
@[simp] theorem State.line_bumpBy (s : State) (k d : Nat) : (s.bumpBy k d).line = s.line := rfl
@[simp] theorem State.clk_bumpBy (s : State) (k d : Nat) : (s.bumpBy k d).clk = s.clk := rfl
@[simp] theorem State.plinth_bumpBy (s : State) (k d : Nat) : (s.bumpBy k d).plinth = s.plinth := rfl
@[simp] theorem State.power_bumpBy (s : State) (k d : Nat) : (s.bumpBy k d).power = s.power := rfl
@[simp] theorem State.nvm_bumpBy (s : State) (k d : Nat) : (s.bumpBy k d).nvm = s.nvm := rfl
@[simp] theorem State.hk_bumpBy (s : State) (k d : Nat) : (s.bumpBy k d).hk = s.hk := rfl
@[simp] theorem State.cufel_bumpBy (s : State) (k d : Nat) : (s.bumpBy k d).cufel = s.cufel := rfl
@[simp] theorem State.can_bumpBy (s : State) (k d : Nat) : (s.bumpBy k d).can = s.can := rfl
@[simp] theorem State.log_bumpBy (s : State) (k d : Nat) : (s.bumpBy k d).log = s.log := rfl
@[simp] theorem State.frz_bumpBy (s : State) (k d : Nat) : (s.bumpBy k d).frz = s.frz := rfl
@[simp] theorem State.nv_bumpBy (s : State) (k d : Nat) : (s.bumpBy k d).nv = s.nv := rfl
@[simp] theorem State.differs_bumpBy (s : State) (k d : Nat) : (s.bumpBy k d).differs = s.differs := rfl
@[simp] theorem State.lutFix_bumpBy (s : State) (k d : Nat) : (s.bumpBy k d).lutFix = s.lutFix := rfl
@[simp] theorem State.nt_bumpBy (s : State) (k d : Nat) : (s.bumpBy k d).nt = s.nt := rfl
@[simp] theorem State.time_bumpBy (s : State) (k d : Nat) : (s.bumpBy k d).time = s.time := rfl
@[simp] theorem State.capts_bumpBy (s : State) (k d : Nat) : (s.bumpBy k d).capts = s.capts := rfl

/-! ### What bump leaves as it was -/

@[simp] theorem State.pending_bump (s : State) (k : Nat) : (s.bump k).pending = s.pending := rfl
@[simp] theorem State.free_bump (s : State) (k : Nat) : (s.bump k).free = s.free := rfl
@[simp] theorem State.livePend_bump (s : State) (k : Nat) : (s.bump k).livePend = s.livePend := rfl
@[simp] theorem State.shadowPend_bump (s : State) (k : Nat) : (s.bump k).shadowPend = s.shadowPend := rfl
@[simp] theorem State.applied_bump (s : State) (k : Nat) : (s.bump k).applied = s.applied := rfl
@[simp] theorem State.tick_bump (s : State) (k : Nat) : (s.bump k).tick = s.tick := rfl
@[simp] theorem State.chans_bump (s : State) (k : Nat) : (s.bump k).chans = s.chans := rfl
@[simp] theorem State.fastOr_bump (s : State) (k : Nat) : (s.bump k).fastOr = s.fastOr := rfl
@[simp] theorem State.probe_bump (s : State) (k : Nat) : (s.bump k).probe = s.probe := rfl
@[simp] theorem State.calUnit_bump (s : State) (k : Nat) : (s.bump k).calUnit = s.calUnit := rfl
@[simp] theorem State.rmGate_bump (s : State) (k : Nat) : (s.bump k).rmGate = s.rmGate := rfl
@[simp] theorem State.rateHist_bump (s : State) (k : Nat) : (s.bump k).rateHist = s.rateHist := rfl
@[simp] theorem State.groups_bump (s : State) (k : Nat) : (s.bump k).groups = s.groups := rfl
@[simp] theorem State.asm_bump (s : State) (k : Nat) : (s.bump k).asm = s.asm := rfl
@[simp] theorem State.lb_bump (s : State) (k : Nat) : (s.bump k).lb = s.lb := rfl
@[simp] theorem State.spm_bump (s : State) (k : Nat) : (s.bump k).spm = s.spm := rfl
@[simp] theorem State.soiled_bump (s : State) (k : Nat) : (s.bump k).soiled = s.soiled := rfl
@[simp] theorem State.rankMem_bump (s : State) (k : Nat) : (s.bump k).rankMem = s.rankMem := rfl
@[simp] theorem State.memUnit_bump (s : State) (k : Nat) : (s.bump k).memUnit = s.memUnit := rfl
@[simp] theorem State.watch_bump (s : State) (k : Nat) : (s.bump k).watch = s.watch := rfl
@[simp] theorem State.query_bump (s : State) (k : Nat) : (s.bump k).query = s.query := rfl
@[simp] theorem State.hub_bump (s : State) (k : Nat) : (s.bump k).hub = s.hub := rfl
@[simp] theorem State.bld_bump (s : State) (k : Nat) : (s.bump k).bld = s.bld := rfl
@[simp] theorem State.cmp_bump (s : State) (k : Nat) : (s.bump k).cmp = s.cmp := rfl
@[simp] theorem State.lanes_bump (s : State) (k : Nat) : (s.bump k).lanes = s.lanes := rfl
@[simp] theorem State.synthLost_bump (s : State) (k : Nat) : (s.bump k).synthLost = s.synthLost := rfl
@[simp] theorem State.pinTest_bump (s : State) (k : Nat) : (s.bump k).pinTest = s.pinTest := rfl
@[simp] theorem State.north_bump (s : State) (k : Nat) : (s.bump k).north = s.north := rfl
@[simp] theorem State.south_bump (s : State) (k : Nat) : (s.bump k).south = s.south := rfl
@[simp] theorem State.pass_bump (s : State) (k : Nat) : (s.bump k).pass = s.pass := rfl
@[simp] theorem State.sched_bump (s : State) (k : Nat) : (s.bump k).sched = s.sched := rfl
@[simp] theorem State.alignPend_bump (s : State) (k : Nat) : (s.bump k).alignPend = s.alignPend := rfl
@[simp] theorem State.out_bump (s : State) (k : Nat) : (s.bump k).out = s.out := rfl
@[simp] theorem State.line_bump (s : State) (k : Nat) : (s.bump k).line = s.line := rfl
@[simp] theorem State.clk_bump (s : State) (k : Nat) : (s.bump k).clk = s.clk := rfl
@[simp] theorem State.plinth_bump (s : State) (k : Nat) : (s.bump k).plinth = s.plinth := rfl
@[simp] theorem State.power_bump (s : State) (k : Nat) : (s.bump k).power = s.power := rfl
@[simp] theorem State.nvm_bump (s : State) (k : Nat) : (s.bump k).nvm = s.nvm := rfl
@[simp] theorem State.hk_bump (s : State) (k : Nat) : (s.bump k).hk = s.hk := rfl
@[simp] theorem State.cufel_bump (s : State) (k : Nat) : (s.bump k).cufel = s.cufel := rfl
@[simp] theorem State.can_bump (s : State) (k : Nat) : (s.bump k).can = s.can := rfl
@[simp] theorem State.log_bump (s : State) (k : Nat) : (s.bump k).log = s.log := rfl
@[simp] theorem State.frz_bump (s : State) (k : Nat) : (s.bump k).frz = s.frz := rfl
@[simp] theorem State.nv_bump (s : State) (k : Nat) : (s.bump k).nv = s.nv := rfl
@[simp] theorem State.differs_bump (s : State) (k : Nat) : (s.bump k).differs = s.differs := rfl
@[simp] theorem State.lutFix_bump (s : State) (k : Nat) : (s.bump k).lutFix = s.lutFix := rfl
@[simp] theorem State.nt_bump (s : State) (k : Nat) : (s.bump k).nt = s.nt := rfl
@[simp] theorem State.time_bump (s : State) (k : Nat) : (s.bump k).time = s.time := rfl
@[simp] theorem State.capts_bump (s : State) (k : Nat) : (s.bump k).capts = s.capts := rfl

/-! ### What wrapBy leaves as it was -/

@[simp] theorem State.pending_wrapBy (s : State) (n k d : Nat) : (s.wrapBy n k d).pending = s.pending := rfl
@[simp] theorem State.free_wrapBy (s : State) (n k d : Nat) : (s.wrapBy n k d).free = s.free := rfl
@[simp] theorem State.livePend_wrapBy (s : State) (n k d : Nat) : (s.wrapBy n k d).livePend = s.livePend := rfl
@[simp] theorem State.shadowPend_wrapBy (s : State) (n k d : Nat) : (s.wrapBy n k d).shadowPend = s.shadowPend := rfl
@[simp] theorem State.applied_wrapBy (s : State) (n k d : Nat) : (s.wrapBy n k d).applied = s.applied := rfl
@[simp] theorem State.tick_wrapBy (s : State) (n k d : Nat) : (s.wrapBy n k d).tick = s.tick := rfl
@[simp] theorem State.chans_wrapBy (s : State) (n k d : Nat) : (s.wrapBy n k d).chans = s.chans := rfl
@[simp] theorem State.fastOr_wrapBy (s : State) (n k d : Nat) : (s.wrapBy n k d).fastOr = s.fastOr := rfl
@[simp] theorem State.probe_wrapBy (s : State) (n k d : Nat) : (s.wrapBy n k d).probe = s.probe := rfl
@[simp] theorem State.calUnit_wrapBy (s : State) (n k d : Nat) : (s.wrapBy n k d).calUnit = s.calUnit := rfl
@[simp] theorem State.rmGate_wrapBy (s : State) (n k d : Nat) : (s.wrapBy n k d).rmGate = s.rmGate := rfl
@[simp] theorem State.rateHist_wrapBy (s : State) (n k d : Nat) : (s.wrapBy n k d).rateHist = s.rateHist := rfl
@[simp] theorem State.groups_wrapBy (s : State) (n k d : Nat) : (s.wrapBy n k d).groups = s.groups := rfl
@[simp] theorem State.asm_wrapBy (s : State) (n k d : Nat) : (s.wrapBy n k d).asm = s.asm := rfl
@[simp] theorem State.lb_wrapBy (s : State) (n k d : Nat) : (s.wrapBy n k d).lb = s.lb := rfl
@[simp] theorem State.spm_wrapBy (s : State) (n k d : Nat) : (s.wrapBy n k d).spm = s.spm := rfl
@[simp] theorem State.soiled_wrapBy (s : State) (n k d : Nat) : (s.wrapBy n k d).soiled = s.soiled := rfl
@[simp] theorem State.rankMem_wrapBy (s : State) (n k d : Nat) : (s.wrapBy n k d).rankMem = s.rankMem := rfl
@[simp] theorem State.memUnit_wrapBy (s : State) (n k d : Nat) : (s.wrapBy n k d).memUnit = s.memUnit := rfl
@[simp] theorem State.watch_wrapBy (s : State) (n k d : Nat) : (s.wrapBy n k d).watch = s.watch := rfl
@[simp] theorem State.query_wrapBy (s : State) (n k d : Nat) : (s.wrapBy n k d).query = s.query := rfl
@[simp] theorem State.hub_wrapBy (s : State) (n k d : Nat) : (s.wrapBy n k d).hub = s.hub := rfl
@[simp] theorem State.bld_wrapBy (s : State) (n k d : Nat) : (s.wrapBy n k d).bld = s.bld := rfl
@[simp] theorem State.cmp_wrapBy (s : State) (n k d : Nat) : (s.wrapBy n k d).cmp = s.cmp := rfl
@[simp] theorem State.lanes_wrapBy (s : State) (n k d : Nat) : (s.wrapBy n k d).lanes = s.lanes := rfl
@[simp] theorem State.synthLost_wrapBy (s : State) (n k d : Nat) : (s.wrapBy n k d).synthLost = s.synthLost := rfl
@[simp] theorem State.pinTest_wrapBy (s : State) (n k d : Nat) : (s.wrapBy n k d).pinTest = s.pinTest := rfl
@[simp] theorem State.north_wrapBy (s : State) (n k d : Nat) : (s.wrapBy n k d).north = s.north := rfl
@[simp] theorem State.south_wrapBy (s : State) (n k d : Nat) : (s.wrapBy n k d).south = s.south := rfl
@[simp] theorem State.pass_wrapBy (s : State) (n k d : Nat) : (s.wrapBy n k d).pass = s.pass := rfl
@[simp] theorem State.sched_wrapBy (s : State) (n k d : Nat) : (s.wrapBy n k d).sched = s.sched := rfl
@[simp] theorem State.alignPend_wrapBy (s : State) (n k d : Nat) : (s.wrapBy n k d).alignPend = s.alignPend := rfl
@[simp] theorem State.out_wrapBy (s : State) (n k d : Nat) : (s.wrapBy n k d).out = s.out := rfl
@[simp] theorem State.line_wrapBy (s : State) (n k d : Nat) : (s.wrapBy n k d).line = s.line := rfl
@[simp] theorem State.clk_wrapBy (s : State) (n k d : Nat) : (s.wrapBy n k d).clk = s.clk := rfl
@[simp] theorem State.plinth_wrapBy (s : State) (n k d : Nat) : (s.wrapBy n k d).plinth = s.plinth := rfl
@[simp] theorem State.power_wrapBy (s : State) (n k d : Nat) : (s.wrapBy n k d).power = s.power := rfl
@[simp] theorem State.nvm_wrapBy (s : State) (n k d : Nat) : (s.wrapBy n k d).nvm = s.nvm := rfl
@[simp] theorem State.hk_wrapBy (s : State) (n k d : Nat) : (s.wrapBy n k d).hk = s.hk := rfl
@[simp] theorem State.cufel_wrapBy (s : State) (n k d : Nat) : (s.wrapBy n k d).cufel = s.cufel := rfl
@[simp] theorem State.can_wrapBy (s : State) (n k d : Nat) : (s.wrapBy n k d).can = s.can := rfl
@[simp] theorem State.log_wrapBy (s : State) (n k d : Nat) : (s.wrapBy n k d).log = s.log := rfl
@[simp] theorem State.frz_wrapBy (s : State) (n k d : Nat) : (s.wrapBy n k d).frz = s.frz := rfl
@[simp] theorem State.nv_wrapBy (s : State) (n k d : Nat) : (s.wrapBy n k d).nv = s.nv := rfl
@[simp] theorem State.differs_wrapBy (s : State) (n k d : Nat) : (s.wrapBy n k d).differs = s.differs := rfl
@[simp] theorem State.lutFix_wrapBy (s : State) (n k d : Nat) : (s.wrapBy n k d).lutFix = s.lutFix := rfl
@[simp] theorem State.nt_wrapBy (s : State) (n k d : Nat) : (s.wrapBy n k d).nt = s.nt := rfl
@[simp] theorem State.time_wrapBy (s : State) (n k d : Nat) : (s.wrapBy n k d).time = s.time := rfl
@[simp] theorem State.capts_wrapBy (s : State) (n k d : Nat) : (s.wrapBy n k d).capts = s.capts := rfl

/-! ### What peak leaves as it was -/

@[simp] theorem State.pending_peak (s : State) (k v : Nat) : (s.peak k v).pending = s.pending := rfl
@[simp] theorem State.free_peak (s : State) (k v : Nat) : (s.peak k v).free = s.free := rfl
@[simp] theorem State.livePend_peak (s : State) (k v : Nat) : (s.peak k v).livePend = s.livePend := rfl
@[simp] theorem State.shadowPend_peak (s : State) (k v : Nat) : (s.peak k v).shadowPend = s.shadowPend := rfl
@[simp] theorem State.applied_peak (s : State) (k v : Nat) : (s.peak k v).applied = s.applied := rfl
@[simp] theorem State.tick_peak (s : State) (k v : Nat) : (s.peak k v).tick = s.tick := rfl
@[simp] theorem State.chans_peak (s : State) (k v : Nat) : (s.peak k v).chans = s.chans := rfl
@[simp] theorem State.fastOr_peak (s : State) (k v : Nat) : (s.peak k v).fastOr = s.fastOr := rfl
@[simp] theorem State.probe_peak (s : State) (k v : Nat) : (s.peak k v).probe = s.probe := rfl
@[simp] theorem State.calUnit_peak (s : State) (k v : Nat) : (s.peak k v).calUnit = s.calUnit := rfl
@[simp] theorem State.rmGate_peak (s : State) (k v : Nat) : (s.peak k v).rmGate = s.rmGate := rfl
@[simp] theorem State.rateHist_peak (s : State) (k v : Nat) : (s.peak k v).rateHist = s.rateHist := rfl
@[simp] theorem State.groups_peak (s : State) (k v : Nat) : (s.peak k v).groups = s.groups := rfl
@[simp] theorem State.asm_peak (s : State) (k v : Nat) : (s.peak k v).asm = s.asm := rfl
@[simp] theorem State.lb_peak (s : State) (k v : Nat) : (s.peak k v).lb = s.lb := rfl
@[simp] theorem State.spm_peak (s : State) (k v : Nat) : (s.peak k v).spm = s.spm := rfl
@[simp] theorem State.soiled_peak (s : State) (k v : Nat) : (s.peak k v).soiled = s.soiled := rfl
@[simp] theorem State.rankMem_peak (s : State) (k v : Nat) : (s.peak k v).rankMem = s.rankMem := rfl
@[simp] theorem State.memUnit_peak (s : State) (k v : Nat) : (s.peak k v).memUnit = s.memUnit := rfl
@[simp] theorem State.watch_peak (s : State) (k v : Nat) : (s.peak k v).watch = s.watch := rfl
@[simp] theorem State.query_peak (s : State) (k v : Nat) : (s.peak k v).query = s.query := rfl
@[simp] theorem State.hub_peak (s : State) (k v : Nat) : (s.peak k v).hub = s.hub := rfl
@[simp] theorem State.bld_peak (s : State) (k v : Nat) : (s.peak k v).bld = s.bld := rfl
@[simp] theorem State.cmp_peak (s : State) (k v : Nat) : (s.peak k v).cmp = s.cmp := rfl
@[simp] theorem State.lanes_peak (s : State) (k v : Nat) : (s.peak k v).lanes = s.lanes := rfl
@[simp] theorem State.synthLost_peak (s : State) (k v : Nat) : (s.peak k v).synthLost = s.synthLost := rfl
@[simp] theorem State.pinTest_peak (s : State) (k v : Nat) : (s.peak k v).pinTest = s.pinTest := rfl
@[simp] theorem State.north_peak (s : State) (k v : Nat) : (s.peak k v).north = s.north := rfl
@[simp] theorem State.south_peak (s : State) (k v : Nat) : (s.peak k v).south = s.south := rfl
@[simp] theorem State.pass_peak (s : State) (k v : Nat) : (s.peak k v).pass = s.pass := rfl
@[simp] theorem State.sched_peak (s : State) (k v : Nat) : (s.peak k v).sched = s.sched := rfl
@[simp] theorem State.alignPend_peak (s : State) (k v : Nat) : (s.peak k v).alignPend = s.alignPend := rfl
@[simp] theorem State.out_peak (s : State) (k v : Nat) : (s.peak k v).out = s.out := rfl
@[simp] theorem State.line_peak (s : State) (k v : Nat) : (s.peak k v).line = s.line := rfl
@[simp] theorem State.clk_peak (s : State) (k v : Nat) : (s.peak k v).clk = s.clk := rfl
@[simp] theorem State.plinth_peak (s : State) (k v : Nat) : (s.peak k v).plinth = s.plinth := rfl
@[simp] theorem State.power_peak (s : State) (k v : Nat) : (s.peak k v).power = s.power := rfl
@[simp] theorem State.nvm_peak (s : State) (k v : Nat) : (s.peak k v).nvm = s.nvm := rfl
@[simp] theorem State.hk_peak (s : State) (k v : Nat) : (s.peak k v).hk = s.hk := rfl
@[simp] theorem State.cufel_peak (s : State) (k v : Nat) : (s.peak k v).cufel = s.cufel := rfl
@[simp] theorem State.can_peak (s : State) (k v : Nat) : (s.peak k v).can = s.can := rfl
@[simp] theorem State.log_peak (s : State) (k v : Nat) : (s.peak k v).log = s.log := rfl
@[simp] theorem State.frz_peak (s : State) (k v : Nat) : (s.peak k v).frz = s.frz := rfl
@[simp] theorem State.nv_peak (s : State) (k v : Nat) : (s.peak k v).nv = s.nv := rfl
@[simp] theorem State.differs_peak (s : State) (k v : Nat) : (s.peak k v).differs = s.differs := rfl
@[simp] theorem State.lutFix_peak (s : State) (k v : Nat) : (s.peak k v).lutFix = s.lutFix := rfl
@[simp] theorem State.nt_peak (s : State) (k v : Nat) : (s.peak k v).nt = s.nt := rfl
@[simp] theorem State.time_peak (s : State) (k v : Nat) : (s.peak k v).time = s.time := rfl
@[simp] theorem State.capts_peak (s : State) (k v : Nat) : (s.peak k v).capts = s.capts := rfl

/-! ### What setOb leaves as it was -/

@[simp] theorem State.pending_setOb (s : State) (k n : Nat) (b : Bool) : (s.setOb k n b).pending = s.pending := rfl
@[simp] theorem State.free_setOb (s : State) (k n : Nat) (b : Bool) : (s.setOb k n b).free = s.free := rfl
@[simp] theorem State.livePend_setOb (s : State) (k n : Nat) (b : Bool) : (s.setOb k n b).livePend = s.livePend := rfl
@[simp] theorem State.shadowPend_setOb (s : State) (k n : Nat) (b : Bool) : (s.setOb k n b).shadowPend = s.shadowPend := rfl
@[simp] theorem State.applied_setOb (s : State) (k n : Nat) (b : Bool) : (s.setOb k n b).applied = s.applied := rfl
@[simp] theorem State.tick_setOb (s : State) (k n : Nat) (b : Bool) : (s.setOb k n b).tick = s.tick := rfl
@[simp] theorem State.chans_setOb (s : State) (k n : Nat) (b : Bool) : (s.setOb k n b).chans = s.chans := rfl
@[simp] theorem State.fastOr_setOb (s : State) (k n : Nat) (b : Bool) : (s.setOb k n b).fastOr = s.fastOr := rfl
@[simp] theorem State.probe_setOb (s : State) (k n : Nat) (b : Bool) : (s.setOb k n b).probe = s.probe := rfl
@[simp] theorem State.calUnit_setOb (s : State) (k n : Nat) (b : Bool) : (s.setOb k n b).calUnit = s.calUnit := rfl
@[simp] theorem State.rmGate_setOb (s : State) (k n : Nat) (b : Bool) : (s.setOb k n b).rmGate = s.rmGate := rfl
@[simp] theorem State.rateHist_setOb (s : State) (k n : Nat) (b : Bool) : (s.setOb k n b).rateHist = s.rateHist := rfl
@[simp] theorem State.groups_setOb (s : State) (k n : Nat) (b : Bool) : (s.setOb k n b).groups = s.groups := rfl
@[simp] theorem State.asm_setOb (s : State) (k n : Nat) (b : Bool) : (s.setOb k n b).asm = s.asm := rfl
@[simp] theorem State.lb_setOb (s : State) (k n : Nat) (b : Bool) : (s.setOb k n b).lb = s.lb := rfl
@[simp] theorem State.spm_setOb (s : State) (k n : Nat) (b : Bool) : (s.setOb k n b).spm = s.spm := rfl
@[simp] theorem State.soiled_setOb (s : State) (k n : Nat) (b : Bool) : (s.setOb k n b).soiled = s.soiled := rfl
@[simp] theorem State.rankMem_setOb (s : State) (k n : Nat) (b : Bool) : (s.setOb k n b).rankMem = s.rankMem := rfl
@[simp] theorem State.memUnit_setOb (s : State) (k n : Nat) (b : Bool) : (s.setOb k n b).memUnit = s.memUnit := rfl
@[simp] theorem State.watch_setOb (s : State) (k n : Nat) (b : Bool) : (s.setOb k n b).watch = s.watch := rfl
@[simp] theorem State.query_setOb (s : State) (k n : Nat) (b : Bool) : (s.setOb k n b).query = s.query := rfl
@[simp] theorem State.hub_setOb (s : State) (k n : Nat) (b : Bool) : (s.setOb k n b).hub = s.hub := rfl
@[simp] theorem State.bld_setOb (s : State) (k n : Nat) (b : Bool) : (s.setOb k n b).bld = s.bld := rfl
@[simp] theorem State.cmp_setOb (s : State) (k n : Nat) (b : Bool) : (s.setOb k n b).cmp = s.cmp := rfl
@[simp] theorem State.lanes_setOb (s : State) (k n : Nat) (b : Bool) : (s.setOb k n b).lanes = s.lanes := rfl
@[simp] theorem State.synthLost_setOb (s : State) (k n : Nat) (b : Bool) : (s.setOb k n b).synthLost = s.synthLost := rfl
@[simp] theorem State.pinTest_setOb (s : State) (k n : Nat) (b : Bool) : (s.setOb k n b).pinTest = s.pinTest := rfl
@[simp] theorem State.north_setOb (s : State) (k n : Nat) (b : Bool) : (s.setOb k n b).north = s.north := rfl
@[simp] theorem State.south_setOb (s : State) (k n : Nat) (b : Bool) : (s.setOb k n b).south = s.south := rfl
@[simp] theorem State.pass_setOb (s : State) (k n : Nat) (b : Bool) : (s.setOb k n b).pass = s.pass := rfl
@[simp] theorem State.sched_setOb (s : State) (k n : Nat) (b : Bool) : (s.setOb k n b).sched = s.sched := rfl
@[simp] theorem State.alignPend_setOb (s : State) (k n : Nat) (b : Bool) : (s.setOb k n b).alignPend = s.alignPend := rfl
@[simp] theorem State.out_setOb (s : State) (k n : Nat) (b : Bool) : (s.setOb k n b).out = s.out := rfl
@[simp] theorem State.line_setOb (s : State) (k n : Nat) (b : Bool) : (s.setOb k n b).line = s.line := rfl
@[simp] theorem State.clk_setOb (s : State) (k n : Nat) (b : Bool) : (s.setOb k n b).clk = s.clk := rfl
@[simp] theorem State.plinth_setOb (s : State) (k n : Nat) (b : Bool) : (s.setOb k n b).plinth = s.plinth := rfl
@[simp] theorem State.power_setOb (s : State) (k n : Nat) (b : Bool) : (s.setOb k n b).power = s.power := rfl
@[simp] theorem State.nvm_setOb (s : State) (k n : Nat) (b : Bool) : (s.setOb k n b).nvm = s.nvm := rfl
@[simp] theorem State.hk_setOb (s : State) (k n : Nat) (b : Bool) : (s.setOb k n b).hk = s.hk := rfl
@[simp] theorem State.cufel_setOb (s : State) (k n : Nat) (b : Bool) : (s.setOb k n b).cufel = s.cufel := rfl
@[simp] theorem State.can_setOb (s : State) (k n : Nat) (b : Bool) : (s.setOb k n b).can = s.can := rfl
@[simp] theorem State.log_setOb (s : State) (k n : Nat) (b : Bool) : (s.setOb k n b).log = s.log := rfl
@[simp] theorem State.frz_setOb (s : State) (k n : Nat) (b : Bool) : (s.setOb k n b).frz = s.frz := rfl
@[simp] theorem State.nv_setOb (s : State) (k n : Nat) (b : Bool) : (s.setOb k n b).nv = s.nv := rfl
@[simp] theorem State.differs_setOb (s : State) (k n : Nat) (b : Bool) : (s.setOb k n b).differs = s.differs := rfl
@[simp] theorem State.lutFix_setOb (s : State) (k n : Nat) (b : Bool) : (s.setOb k n b).lutFix = s.lutFix := rfl
@[simp] theorem State.nt_setOb (s : State) (k n : Nat) (b : Bool) : (s.setOb k n b).nt = s.nt := rfl
@[simp] theorem State.time_setOb (s : State) (k n : Nat) (b : Bool) : (s.setOb k n b).time = s.time := rfl
@[simp] theorem State.capts_setOb (s : State) (k n : Nat) (b : Bool) : (s.setOb k n b).capts = s.capts := rfl

/-! ### What drawn leaves as it was -/

@[simp] theorem State.pending_drawn (s : State) : (s.drawn).pending = s.pending := rfl
@[simp] theorem State.obj_drawn (s : State) : (s.drawn).obj = s.obj := rfl
@[simp] theorem State.livePend_drawn (s : State) : (s.drawn).livePend = s.livePend := rfl
@[simp] theorem State.shadowPend_drawn (s : State) : (s.drawn).shadowPend = s.shadowPend := rfl
@[simp] theorem State.applied_drawn (s : State) : (s.drawn).applied = s.applied := rfl
@[simp] theorem State.tick_drawn (s : State) : (s.drawn).tick = s.tick := rfl
@[simp] theorem State.chans_drawn (s : State) : (s.drawn).chans = s.chans := rfl
@[simp] theorem State.fastOr_drawn (s : State) : (s.drawn).fastOr = s.fastOr := rfl
@[simp] theorem State.probe_drawn (s : State) : (s.drawn).probe = s.probe := rfl
@[simp] theorem State.calUnit_drawn (s : State) : (s.drawn).calUnit = s.calUnit := rfl
@[simp] theorem State.rmGate_drawn (s : State) : (s.drawn).rmGate = s.rmGate := rfl
@[simp] theorem State.rateHist_drawn (s : State) : (s.drawn).rateHist = s.rateHist := rfl
@[simp] theorem State.groups_drawn (s : State) : (s.drawn).groups = s.groups := rfl
@[simp] theorem State.asm_drawn (s : State) : (s.drawn).asm = s.asm := rfl
@[simp] theorem State.lb_drawn (s : State) : (s.drawn).lb = s.lb := rfl
@[simp] theorem State.spm_drawn (s : State) : (s.drawn).spm = s.spm := rfl
@[simp] theorem State.soiled_drawn (s : State) : (s.drawn).soiled = s.soiled := rfl
@[simp] theorem State.rankMem_drawn (s : State) : (s.drawn).rankMem = s.rankMem := rfl
@[simp] theorem State.memUnit_drawn (s : State) : (s.drawn).memUnit = s.memUnit := rfl
@[simp] theorem State.watch_drawn (s : State) : (s.drawn).watch = s.watch := rfl
@[simp] theorem State.query_drawn (s : State) : (s.drawn).query = s.query := rfl
@[simp] theorem State.hub_drawn (s : State) : (s.drawn).hub = s.hub := rfl
@[simp] theorem State.bld_drawn (s : State) : (s.drawn).bld = s.bld := rfl
@[simp] theorem State.cmp_drawn (s : State) : (s.drawn).cmp = s.cmp := rfl
@[simp] theorem State.lanes_drawn (s : State) : (s.drawn).lanes = s.lanes := rfl
@[simp] theorem State.synthLost_drawn (s : State) : (s.drawn).synthLost = s.synthLost := rfl
@[simp] theorem State.pinTest_drawn (s : State) : (s.drawn).pinTest = s.pinTest := rfl
@[simp] theorem State.north_drawn (s : State) : (s.drawn).north = s.north := rfl
@[simp] theorem State.south_drawn (s : State) : (s.drawn).south = s.south := rfl
@[simp] theorem State.pass_drawn (s : State) : (s.drawn).pass = s.pass := rfl
@[simp] theorem State.sched_drawn (s : State) : (s.drawn).sched = s.sched := rfl
@[simp] theorem State.alignPend_drawn (s : State) : (s.drawn).alignPend = s.alignPend := rfl
@[simp] theorem State.out_drawn (s : State) : (s.drawn).out = s.out := rfl
@[simp] theorem State.line_drawn (s : State) : (s.drawn).line = s.line := rfl
@[simp] theorem State.clk_drawn (s : State) : (s.drawn).clk = s.clk := rfl
@[simp] theorem State.plinth_drawn (s : State) : (s.drawn).plinth = s.plinth := rfl
@[simp] theorem State.power_drawn (s : State) : (s.drawn).power = s.power := rfl
@[simp] theorem State.nvm_drawn (s : State) : (s.drawn).nvm = s.nvm := rfl
@[simp] theorem State.hk_drawn (s : State) : (s.drawn).hk = s.hk := rfl
@[simp] theorem State.cufel_drawn (s : State) : (s.drawn).cufel = s.cufel := rfl
@[simp] theorem State.can_drawn (s : State) : (s.drawn).can = s.can := rfl
@[simp] theorem State.log_drawn (s : State) : (s.drawn).log = s.log := rfl
@[simp] theorem State.frz_drawn (s : State) : (s.drawn).frz = s.frz := rfl
@[simp] theorem State.nv_drawn (s : State) : (s.drawn).nv = s.nv := rfl
@[simp] theorem State.differs_drawn (s : State) : (s.drawn).differs = s.differs := rfl
@[simp] theorem State.lutFix_drawn (s : State) : (s.drawn).lutFix = s.lutFix := rfl
@[simp] theorem State.nt_drawn (s : State) : (s.drawn).nt = s.nt := rfl
@[simp] theorem State.time_drawn (s : State) : (s.drawn).time = s.time := rfl
@[simp] theorem State.capts_drawn (s : State) : (s.drawn).capts = s.capts := rfl
@[simp] theorem State.o_drawn (s : State) (j : Nat) : (s.drawn).o j = s.o j := rfl

/-! ### What setChan leaves as it was -/

@[simp] theorem State.pending_setChan (s : State) (c : Ch) (x : Chan) : (s.setChan c x).pending = s.pending := rfl
@[simp] theorem State.free_setChan (s : State) (c : Ch) (x : Chan) : (s.setChan c x).free = s.free := rfl
@[simp] theorem State.obj_setChan (s : State) (c : Ch) (x : Chan) : (s.setChan c x).obj = s.obj := rfl
@[simp] theorem State.livePend_setChan (s : State) (c : Ch) (x : Chan) : (s.setChan c x).livePend = s.livePend := rfl
@[simp] theorem State.shadowPend_setChan (s : State) (c : Ch) (x : Chan) : (s.setChan c x).shadowPend = s.shadowPend := rfl
@[simp] theorem State.applied_setChan (s : State) (c : Ch) (x : Chan) : (s.setChan c x).applied = s.applied := rfl
@[simp] theorem State.tick_setChan (s : State) (c : Ch) (x : Chan) : (s.setChan c x).tick = s.tick := rfl
@[simp] theorem State.fastOr_setChan (s : State) (c : Ch) (x : Chan) : (s.setChan c x).fastOr = s.fastOr := rfl
@[simp] theorem State.probe_setChan (s : State) (c : Ch) (x : Chan) : (s.setChan c x).probe = s.probe := rfl
@[simp] theorem State.calUnit_setChan (s : State) (c : Ch) (x : Chan) : (s.setChan c x).calUnit = s.calUnit := rfl
@[simp] theorem State.rmGate_setChan (s : State) (c : Ch) (x : Chan) : (s.setChan c x).rmGate = s.rmGate := rfl
@[simp] theorem State.rateHist_setChan (s : State) (c : Ch) (x : Chan) : (s.setChan c x).rateHist = s.rateHist := rfl
@[simp] theorem State.groups_setChan (s : State) (c : Ch) (x : Chan) : (s.setChan c x).groups = s.groups := rfl
@[simp] theorem State.asm_setChan (s : State) (c : Ch) (x : Chan) : (s.setChan c x).asm = s.asm := rfl
@[simp] theorem State.lb_setChan (s : State) (c : Ch) (x : Chan) : (s.setChan c x).lb = s.lb := rfl
@[simp] theorem State.spm_setChan (s : State) (c : Ch) (x : Chan) : (s.setChan c x).spm = s.spm := rfl
@[simp] theorem State.soiled_setChan (s : State) (c : Ch) (x : Chan) : (s.setChan c x).soiled = s.soiled := rfl
@[simp] theorem State.rankMem_setChan (s : State) (c : Ch) (x : Chan) : (s.setChan c x).rankMem = s.rankMem := rfl
@[simp] theorem State.memUnit_setChan (s : State) (c : Ch) (x : Chan) : (s.setChan c x).memUnit = s.memUnit := rfl
@[simp] theorem State.watch_setChan (s : State) (c : Ch) (x : Chan) : (s.setChan c x).watch = s.watch := rfl
@[simp] theorem State.query_setChan (s : State) (c : Ch) (x : Chan) : (s.setChan c x).query = s.query := rfl
@[simp] theorem State.hub_setChan (s : State) (c : Ch) (x : Chan) : (s.setChan c x).hub = s.hub := rfl
@[simp] theorem State.bld_setChan (s : State) (c : Ch) (x : Chan) : (s.setChan c x).bld = s.bld := rfl
@[simp] theorem State.cmp_setChan (s : State) (c : Ch) (x : Chan) : (s.setChan c x).cmp = s.cmp := rfl
@[simp] theorem State.lanes_setChan (s : State) (c : Ch) (x : Chan) : (s.setChan c x).lanes = s.lanes := rfl
@[simp] theorem State.synthLost_setChan (s : State) (c : Ch) (x : Chan) : (s.setChan c x).synthLost = s.synthLost := rfl
@[simp] theorem State.pinTest_setChan (s : State) (c : Ch) (x : Chan) : (s.setChan c x).pinTest = s.pinTest := rfl
@[simp] theorem State.north_setChan (s : State) (c : Ch) (x : Chan) : (s.setChan c x).north = s.north := rfl
@[simp] theorem State.south_setChan (s : State) (c : Ch) (x : Chan) : (s.setChan c x).south = s.south := rfl
@[simp] theorem State.pass_setChan (s : State) (c : Ch) (x : Chan) : (s.setChan c x).pass = s.pass := rfl
@[simp] theorem State.sched_setChan (s : State) (c : Ch) (x : Chan) : (s.setChan c x).sched = s.sched := rfl
@[simp] theorem State.alignPend_setChan (s : State) (c : Ch) (x : Chan) : (s.setChan c x).alignPend = s.alignPend := rfl
@[simp] theorem State.out_setChan (s : State) (c : Ch) (x : Chan) : (s.setChan c x).out = s.out := rfl
@[simp] theorem State.line_setChan (s : State) (c : Ch) (x : Chan) : (s.setChan c x).line = s.line := rfl
@[simp] theorem State.clk_setChan (s : State) (c : Ch) (x : Chan) : (s.setChan c x).clk = s.clk := rfl
@[simp] theorem State.plinth_setChan (s : State) (c : Ch) (x : Chan) : (s.setChan c x).plinth = s.plinth := rfl
@[simp] theorem State.power_setChan (s : State) (c : Ch) (x : Chan) : (s.setChan c x).power = s.power := rfl
@[simp] theorem State.nvm_setChan (s : State) (c : Ch) (x : Chan) : (s.setChan c x).nvm = s.nvm := rfl
@[simp] theorem State.hk_setChan (s : State) (c : Ch) (x : Chan) : (s.setChan c x).hk = s.hk := rfl
@[simp] theorem State.cufel_setChan (s : State) (c : Ch) (x : Chan) : (s.setChan c x).cufel = s.cufel := rfl
@[simp] theorem State.can_setChan (s : State) (c : Ch) (x : Chan) : (s.setChan c x).can = s.can := rfl
@[simp] theorem State.log_setChan (s : State) (c : Ch) (x : Chan) : (s.setChan c x).log = s.log := rfl
@[simp] theorem State.frz_setChan (s : State) (c : Ch) (x : Chan) : (s.setChan c x).frz = s.frz := rfl
@[simp] theorem State.nv_setChan (s : State) (c : Ch) (x : Chan) : (s.setChan c x).nv = s.nv := rfl
@[simp] theorem State.differs_setChan (s : State) (c : Ch) (x : Chan) : (s.setChan c x).differs = s.differs := rfl
@[simp] theorem State.lutFix_setChan (s : State) (c : Ch) (x : Chan) : (s.setChan c x).lutFix = s.lutFix := rfl
@[simp] theorem State.nt_setChan (s : State) (c : Ch) (x : Chan) : (s.setChan c x).nt = s.nt := rfl
@[simp] theorem State.time_setChan (s : State) (c : Ch) (x : Chan) : (s.setChan c x).time = s.time := rfl
@[simp] theorem State.capts_setChan (s : State) (c : Ch) (x : Chan) : (s.setChan c x).capts = s.capts := rfl
@[simp] theorem State.o_setChan (s : State) (c : Ch) (x : Chan) (j : Nat) : (s.setChan c x).o j = s.o j := rfl

/-! ### What setGroup leaves as it was -/

@[simp] theorem State.pending_setGroup (s : State) (g : Grp) (x : Group) : (s.setGroup g x).pending = s.pending := rfl
@[simp] theorem State.free_setGroup (s : State) (g : Grp) (x : Group) : (s.setGroup g x).free = s.free := rfl
@[simp] theorem State.obj_setGroup (s : State) (g : Grp) (x : Group) : (s.setGroup g x).obj = s.obj := rfl
@[simp] theorem State.livePend_setGroup (s : State) (g : Grp) (x : Group) : (s.setGroup g x).livePend = s.livePend := rfl
@[simp] theorem State.shadowPend_setGroup (s : State) (g : Grp) (x : Group) : (s.setGroup g x).shadowPend = s.shadowPend := rfl
@[simp] theorem State.applied_setGroup (s : State) (g : Grp) (x : Group) : (s.setGroup g x).applied = s.applied := rfl
@[simp] theorem State.tick_setGroup (s : State) (g : Grp) (x : Group) : (s.setGroup g x).tick = s.tick := rfl
@[simp] theorem State.chans_setGroup (s : State) (g : Grp) (x : Group) : (s.setGroup g x).chans = s.chans := rfl
@[simp] theorem State.fastOr_setGroup (s : State) (g : Grp) (x : Group) : (s.setGroup g x).fastOr = s.fastOr := rfl
@[simp] theorem State.probe_setGroup (s : State) (g : Grp) (x : Group) : (s.setGroup g x).probe = s.probe := rfl
@[simp] theorem State.calUnit_setGroup (s : State) (g : Grp) (x : Group) : (s.setGroup g x).calUnit = s.calUnit := rfl
@[simp] theorem State.rmGate_setGroup (s : State) (g : Grp) (x : Group) : (s.setGroup g x).rmGate = s.rmGate := rfl
@[simp] theorem State.rateHist_setGroup (s : State) (g : Grp) (x : Group) : (s.setGroup g x).rateHist = s.rateHist := rfl
@[simp] theorem State.asm_setGroup (s : State) (g : Grp) (x : Group) : (s.setGroup g x).asm = s.asm := rfl
@[simp] theorem State.lb_setGroup (s : State) (g : Grp) (x : Group) : (s.setGroup g x).lb = s.lb := rfl
@[simp] theorem State.spm_setGroup (s : State) (g : Grp) (x : Group) : (s.setGroup g x).spm = s.spm := rfl
@[simp] theorem State.soiled_setGroup (s : State) (g : Grp) (x : Group) : (s.setGroup g x).soiled = s.soiled := rfl
@[simp] theorem State.rankMem_setGroup (s : State) (g : Grp) (x : Group) : (s.setGroup g x).rankMem = s.rankMem := rfl
@[simp] theorem State.memUnit_setGroup (s : State) (g : Grp) (x : Group) : (s.setGroup g x).memUnit = s.memUnit := rfl
@[simp] theorem State.watch_setGroup (s : State) (g : Grp) (x : Group) : (s.setGroup g x).watch = s.watch := rfl
@[simp] theorem State.query_setGroup (s : State) (g : Grp) (x : Group) : (s.setGroup g x).query = s.query := rfl
@[simp] theorem State.hub_setGroup (s : State) (g : Grp) (x : Group) : (s.setGroup g x).hub = s.hub := rfl
@[simp] theorem State.bld_setGroup (s : State) (g : Grp) (x : Group) : (s.setGroup g x).bld = s.bld := rfl
@[simp] theorem State.cmp_setGroup (s : State) (g : Grp) (x : Group) : (s.setGroup g x).cmp = s.cmp := rfl
@[simp] theorem State.lanes_setGroup (s : State) (g : Grp) (x : Group) : (s.setGroup g x).lanes = s.lanes := rfl
@[simp] theorem State.synthLost_setGroup (s : State) (g : Grp) (x : Group) : (s.setGroup g x).synthLost = s.synthLost := rfl
@[simp] theorem State.pinTest_setGroup (s : State) (g : Grp) (x : Group) : (s.setGroup g x).pinTest = s.pinTest := rfl
@[simp] theorem State.north_setGroup (s : State) (g : Grp) (x : Group) : (s.setGroup g x).north = s.north := rfl
@[simp] theorem State.south_setGroup (s : State) (g : Grp) (x : Group) : (s.setGroup g x).south = s.south := rfl
@[simp] theorem State.pass_setGroup (s : State) (g : Grp) (x : Group) : (s.setGroup g x).pass = s.pass := rfl
@[simp] theorem State.sched_setGroup (s : State) (g : Grp) (x : Group) : (s.setGroup g x).sched = s.sched := rfl
@[simp] theorem State.alignPend_setGroup (s : State) (g : Grp) (x : Group) : (s.setGroup g x).alignPend = s.alignPend := rfl
@[simp] theorem State.out_setGroup (s : State) (g : Grp) (x : Group) : (s.setGroup g x).out = s.out := rfl
@[simp] theorem State.line_setGroup (s : State) (g : Grp) (x : Group) : (s.setGroup g x).line = s.line := rfl
@[simp] theorem State.clk_setGroup (s : State) (g : Grp) (x : Group) : (s.setGroup g x).clk = s.clk := rfl
@[simp] theorem State.plinth_setGroup (s : State) (g : Grp) (x : Group) : (s.setGroup g x).plinth = s.plinth := rfl
@[simp] theorem State.power_setGroup (s : State) (g : Grp) (x : Group) : (s.setGroup g x).power = s.power := rfl
@[simp] theorem State.nvm_setGroup (s : State) (g : Grp) (x : Group) : (s.setGroup g x).nvm = s.nvm := rfl
@[simp] theorem State.hk_setGroup (s : State) (g : Grp) (x : Group) : (s.setGroup g x).hk = s.hk := rfl
@[simp] theorem State.cufel_setGroup (s : State) (g : Grp) (x : Group) : (s.setGroup g x).cufel = s.cufel := rfl
@[simp] theorem State.can_setGroup (s : State) (g : Grp) (x : Group) : (s.setGroup g x).can = s.can := rfl
@[simp] theorem State.log_setGroup (s : State) (g : Grp) (x : Group) : (s.setGroup g x).log = s.log := rfl
@[simp] theorem State.frz_setGroup (s : State) (g : Grp) (x : Group) : (s.setGroup g x).frz = s.frz := rfl
@[simp] theorem State.nv_setGroup (s : State) (g : Grp) (x : Group) : (s.setGroup g x).nv = s.nv := rfl
@[simp] theorem State.differs_setGroup (s : State) (g : Grp) (x : Group) : (s.setGroup g x).differs = s.differs := rfl
@[simp] theorem State.lutFix_setGroup (s : State) (g : Grp) (x : Group) : (s.setGroup g x).lutFix = s.lutFix := rfl
@[simp] theorem State.nt_setGroup (s : State) (g : Grp) (x : Group) : (s.setGroup g x).nt = s.nt := rfl
@[simp] theorem State.time_setGroup (s : State) (g : Grp) (x : Group) : (s.setGroup g x).time = s.time := rfl
@[simp] theorem State.capts_setGroup (s : State) (g : Grp) (x : Group) : (s.setGroup g x).capts = s.capts := rfl
@[simp] theorem State.o_setGroup (s : State) (g : Grp) (x : Group) (j : Nat) : (s.setGroup g x).o j = s.o j := rfl

/-! ### What pendLive leaves as it was -/

@[simp] theorem State.pending_pendLive (s : State) (k v : Nat) : (s.pendLive k v).pending = s.pending := rfl
@[simp] theorem State.free_pendLive (s : State) (k v : Nat) : (s.pendLive k v).free = s.free := rfl
@[simp] theorem State.obj_pendLive (s : State) (k v : Nat) : (s.pendLive k v).obj = s.obj := rfl
@[simp] theorem State.shadowPend_pendLive (s : State) (k v : Nat) : (s.pendLive k v).shadowPend = s.shadowPend := rfl
@[simp] theorem State.applied_pendLive (s : State) (k v : Nat) : (s.pendLive k v).applied = s.applied := rfl
@[simp] theorem State.tick_pendLive (s : State) (k v : Nat) : (s.pendLive k v).tick = s.tick := rfl
@[simp] theorem State.chans_pendLive (s : State) (k v : Nat) : (s.pendLive k v).chans = s.chans := rfl
@[simp] theorem State.fastOr_pendLive (s : State) (k v : Nat) : (s.pendLive k v).fastOr = s.fastOr := rfl
@[simp] theorem State.probe_pendLive (s : State) (k v : Nat) : (s.pendLive k v).probe = s.probe := rfl
@[simp] theorem State.calUnit_pendLive (s : State) (k v : Nat) : (s.pendLive k v).calUnit = s.calUnit := rfl
@[simp] theorem State.rmGate_pendLive (s : State) (k v : Nat) : (s.pendLive k v).rmGate = s.rmGate := rfl
@[simp] theorem State.rateHist_pendLive (s : State) (k v : Nat) : (s.pendLive k v).rateHist = s.rateHist := rfl
@[simp] theorem State.groups_pendLive (s : State) (k v : Nat) : (s.pendLive k v).groups = s.groups := rfl
@[simp] theorem State.asm_pendLive (s : State) (k v : Nat) : (s.pendLive k v).asm = s.asm := rfl
@[simp] theorem State.lb_pendLive (s : State) (k v : Nat) : (s.pendLive k v).lb = s.lb := rfl
@[simp] theorem State.spm_pendLive (s : State) (k v : Nat) : (s.pendLive k v).spm = s.spm := rfl
@[simp] theorem State.soiled_pendLive (s : State) (k v : Nat) : (s.pendLive k v).soiled = s.soiled := rfl
@[simp] theorem State.rankMem_pendLive (s : State) (k v : Nat) : (s.pendLive k v).rankMem = s.rankMem := rfl
@[simp] theorem State.memUnit_pendLive (s : State) (k v : Nat) : (s.pendLive k v).memUnit = s.memUnit := rfl
@[simp] theorem State.watch_pendLive (s : State) (k v : Nat) : (s.pendLive k v).watch = s.watch := rfl
@[simp] theorem State.query_pendLive (s : State) (k v : Nat) : (s.pendLive k v).query = s.query := rfl
@[simp] theorem State.hub_pendLive (s : State) (k v : Nat) : (s.pendLive k v).hub = s.hub := rfl
@[simp] theorem State.bld_pendLive (s : State) (k v : Nat) : (s.pendLive k v).bld = s.bld := rfl
@[simp] theorem State.cmp_pendLive (s : State) (k v : Nat) : (s.pendLive k v).cmp = s.cmp := rfl
@[simp] theorem State.lanes_pendLive (s : State) (k v : Nat) : (s.pendLive k v).lanes = s.lanes := rfl
@[simp] theorem State.synthLost_pendLive (s : State) (k v : Nat) : (s.pendLive k v).synthLost = s.synthLost := rfl
@[simp] theorem State.pinTest_pendLive (s : State) (k v : Nat) : (s.pendLive k v).pinTest = s.pinTest := rfl
@[simp] theorem State.north_pendLive (s : State) (k v : Nat) : (s.pendLive k v).north = s.north := rfl
@[simp] theorem State.south_pendLive (s : State) (k v : Nat) : (s.pendLive k v).south = s.south := rfl
@[simp] theorem State.pass_pendLive (s : State) (k v : Nat) : (s.pendLive k v).pass = s.pass := rfl
@[simp] theorem State.sched_pendLive (s : State) (k v : Nat) : (s.pendLive k v).sched = s.sched := rfl
@[simp] theorem State.alignPend_pendLive (s : State) (k v : Nat) : (s.pendLive k v).alignPend = s.alignPend := rfl
@[simp] theorem State.out_pendLive (s : State) (k v : Nat) : (s.pendLive k v).out = s.out := rfl
@[simp] theorem State.line_pendLive (s : State) (k v : Nat) : (s.pendLive k v).line = s.line := rfl
@[simp] theorem State.clk_pendLive (s : State) (k v : Nat) : (s.pendLive k v).clk = s.clk := rfl
@[simp] theorem State.plinth_pendLive (s : State) (k v : Nat) : (s.pendLive k v).plinth = s.plinth := rfl
@[simp] theorem State.power_pendLive (s : State) (k v : Nat) : (s.pendLive k v).power = s.power := rfl
@[simp] theorem State.nvm_pendLive (s : State) (k v : Nat) : (s.pendLive k v).nvm = s.nvm := rfl
@[simp] theorem State.hk_pendLive (s : State) (k v : Nat) : (s.pendLive k v).hk = s.hk := rfl
@[simp] theorem State.cufel_pendLive (s : State) (k v : Nat) : (s.pendLive k v).cufel = s.cufel := rfl
@[simp] theorem State.can_pendLive (s : State) (k v : Nat) : (s.pendLive k v).can = s.can := rfl
@[simp] theorem State.log_pendLive (s : State) (k v : Nat) : (s.pendLive k v).log = s.log := rfl
@[simp] theorem State.frz_pendLive (s : State) (k v : Nat) : (s.pendLive k v).frz = s.frz := rfl
@[simp] theorem State.nv_pendLive (s : State) (k v : Nat) : (s.pendLive k v).nv = s.nv := rfl
@[simp] theorem State.differs_pendLive (s : State) (k v : Nat) : (s.pendLive k v).differs = s.differs := rfl
@[simp] theorem State.lutFix_pendLive (s : State) (k v : Nat) : (s.pendLive k v).lutFix = s.lutFix := rfl
@[simp] theorem State.nt_pendLive (s : State) (k v : Nat) : (s.pendLive k v).nt = s.nt := rfl
@[simp] theorem State.time_pendLive (s : State) (k v : Nat) : (s.pendLive k v).time = s.time := rfl
@[simp] theorem State.capts_pendLive (s : State) (k v : Nat) : (s.pendLive k v).capts = s.capts := rfl
@[simp] theorem State.o_pendLive (s : State) (k v : Nat) (j : Nat) : (s.pendLive k v).o j = s.o j := rfl

/-! ### What setRank leaves as it was -/

@[simp] theorem State.pending_setRank (s : State) (r : Nat) (x : Rank) : (s.setRank r x).pending = s.pending := rfl
@[simp] theorem State.free_setRank (s : State) (r : Nat) (x : Rank) : (s.setRank r x).free = s.free := rfl
@[simp] theorem State.obj_setRank (s : State) (r : Nat) (x : Rank) : (s.setRank r x).obj = s.obj := rfl
@[simp] theorem State.livePend_setRank (s : State) (r : Nat) (x : Rank) : (s.setRank r x).livePend = s.livePend := rfl
@[simp] theorem State.shadowPend_setRank (s : State) (r : Nat) (x : Rank) : (s.setRank r x).shadowPend = s.shadowPend := rfl
@[simp] theorem State.applied_setRank (s : State) (r : Nat) (x : Rank) : (s.setRank r x).applied = s.applied := rfl
@[simp] theorem State.tick_setRank (s : State) (r : Nat) (x : Rank) : (s.setRank r x).tick = s.tick := rfl
@[simp] theorem State.chans_setRank (s : State) (r : Nat) (x : Rank) : (s.setRank r x).chans = s.chans := rfl
@[simp] theorem State.fastOr_setRank (s : State) (r : Nat) (x : Rank) : (s.setRank r x).fastOr = s.fastOr := rfl
@[simp] theorem State.probe_setRank (s : State) (r : Nat) (x : Rank) : (s.setRank r x).probe = s.probe := rfl
@[simp] theorem State.calUnit_setRank (s : State) (r : Nat) (x : Rank) : (s.setRank r x).calUnit = s.calUnit := rfl
@[simp] theorem State.rmGate_setRank (s : State) (r : Nat) (x : Rank) : (s.setRank r x).rmGate = s.rmGate := rfl
@[simp] theorem State.rateHist_setRank (s : State) (r : Nat) (x : Rank) : (s.setRank r x).rateHist = s.rateHist := rfl
@[simp] theorem State.groups_setRank (s : State) (r : Nat) (x : Rank) : (s.setRank r x).groups = s.groups := rfl
@[simp] theorem State.asm_setRank (s : State) (r : Nat) (x : Rank) : (s.setRank r x).asm = s.asm := rfl
@[simp] theorem State.lb_setRank (s : State) (r : Nat) (x : Rank) : (s.setRank r x).lb = s.lb := rfl
@[simp] theorem State.spm_setRank (s : State) (r : Nat) (x : Rank) : (s.setRank r x).spm = s.spm := rfl
@[simp] theorem State.soiled_setRank (s : State) (r : Nat) (x : Rank) : (s.setRank r x).soiled = s.soiled := rfl
@[simp] theorem State.rankMem_setRank (s : State) (r : Nat) (x : Rank) : (s.setRank r x).rankMem = s.rankMem := rfl
@[simp] theorem State.watch_setRank (s : State) (r : Nat) (x : Rank) : (s.setRank r x).watch = s.watch := rfl
@[simp] theorem State.query_setRank (s : State) (r : Nat) (x : Rank) : (s.setRank r x).query = s.query := rfl
@[simp] theorem State.hub_setRank (s : State) (r : Nat) (x : Rank) : (s.setRank r x).hub = s.hub := rfl
@[simp] theorem State.bld_setRank (s : State) (r : Nat) (x : Rank) : (s.setRank r x).bld = s.bld := rfl
@[simp] theorem State.cmp_setRank (s : State) (r : Nat) (x : Rank) : (s.setRank r x).cmp = s.cmp := rfl
@[simp] theorem State.lanes_setRank (s : State) (r : Nat) (x : Rank) : (s.setRank r x).lanes = s.lanes := rfl
@[simp] theorem State.synthLost_setRank (s : State) (r : Nat) (x : Rank) : (s.setRank r x).synthLost = s.synthLost := rfl
@[simp] theorem State.pinTest_setRank (s : State) (r : Nat) (x : Rank) : (s.setRank r x).pinTest = s.pinTest := rfl
@[simp] theorem State.north_setRank (s : State) (r : Nat) (x : Rank) : (s.setRank r x).north = s.north := rfl
@[simp] theorem State.south_setRank (s : State) (r : Nat) (x : Rank) : (s.setRank r x).south = s.south := rfl
@[simp] theorem State.pass_setRank (s : State) (r : Nat) (x : Rank) : (s.setRank r x).pass = s.pass := rfl
@[simp] theorem State.sched_setRank (s : State) (r : Nat) (x : Rank) : (s.setRank r x).sched = s.sched := rfl
@[simp] theorem State.alignPend_setRank (s : State) (r : Nat) (x : Rank) : (s.setRank r x).alignPend = s.alignPend := rfl
@[simp] theorem State.out_setRank (s : State) (r : Nat) (x : Rank) : (s.setRank r x).out = s.out := rfl
@[simp] theorem State.line_setRank (s : State) (r : Nat) (x : Rank) : (s.setRank r x).line = s.line := rfl
@[simp] theorem State.clk_setRank (s : State) (r : Nat) (x : Rank) : (s.setRank r x).clk = s.clk := rfl
@[simp] theorem State.plinth_setRank (s : State) (r : Nat) (x : Rank) : (s.setRank r x).plinth = s.plinth := rfl
@[simp] theorem State.power_setRank (s : State) (r : Nat) (x : Rank) : (s.setRank r x).power = s.power := rfl
@[simp] theorem State.nvm_setRank (s : State) (r : Nat) (x : Rank) : (s.setRank r x).nvm = s.nvm := rfl
@[simp] theorem State.hk_setRank (s : State) (r : Nat) (x : Rank) : (s.setRank r x).hk = s.hk := rfl
@[simp] theorem State.cufel_setRank (s : State) (r : Nat) (x : Rank) : (s.setRank r x).cufel = s.cufel := rfl
@[simp] theorem State.can_setRank (s : State) (r : Nat) (x : Rank) : (s.setRank r x).can = s.can := rfl
@[simp] theorem State.log_setRank (s : State) (r : Nat) (x : Rank) : (s.setRank r x).log = s.log := rfl
@[simp] theorem State.frz_setRank (s : State) (r : Nat) (x : Rank) : (s.setRank r x).frz = s.frz := rfl
@[simp] theorem State.nv_setRank (s : State) (r : Nat) (x : Rank) : (s.setRank r x).nv = s.nv := rfl
@[simp] theorem State.differs_setRank (s : State) (r : Nat) (x : Rank) : (s.setRank r x).differs = s.differs := rfl
@[simp] theorem State.lutFix_setRank (s : State) (r : Nat) (x : Rank) : (s.setRank r x).lutFix = s.lutFix := rfl
@[simp] theorem State.nt_setRank (s : State) (r : Nat) (x : Rank) : (s.setRank r x).nt = s.nt := rfl
@[simp] theorem State.time_setRank (s : State) (r : Nat) (x : Rank) : (s.setRank r x).time = s.time := rfl
@[simp] theorem State.capts_setRank (s : State) (r : Nat) (x : Rank) : (s.setRank r x).capts = s.capts := rfl
@[simp] theorem State.o_setRank (s : State) (r : Nat) (x : Rank) (j : Nat) : (s.setRank r x).o j = s.o j := rfl

/-! ### What setRankData leaves as it was -/

@[simp] theorem State.pending_setRankData (s : State) (r : Nat) (m : Memory) : (s.setRankData r m).pending = s.pending := rfl
@[simp] theorem State.free_setRankData (s : State) (r : Nat) (m : Memory) : (s.setRankData r m).free = s.free := rfl
@[simp] theorem State.obj_setRankData (s : State) (r : Nat) (m : Memory) : (s.setRankData r m).obj = s.obj := rfl
@[simp] theorem State.livePend_setRankData (s : State) (r : Nat) (m : Memory) : (s.setRankData r m).livePend = s.livePend := rfl
@[simp] theorem State.shadowPend_setRankData (s : State) (r : Nat) (m : Memory) : (s.setRankData r m).shadowPend = s.shadowPend := rfl
@[simp] theorem State.applied_setRankData (s : State) (r : Nat) (m : Memory) : (s.setRankData r m).applied = s.applied := rfl
@[simp] theorem State.tick_setRankData (s : State) (r : Nat) (m : Memory) : (s.setRankData r m).tick = s.tick := rfl
@[simp] theorem State.chans_setRankData (s : State) (r : Nat) (m : Memory) : (s.setRankData r m).chans = s.chans := rfl
@[simp] theorem State.fastOr_setRankData (s : State) (r : Nat) (m : Memory) : (s.setRankData r m).fastOr = s.fastOr := rfl
@[simp] theorem State.probe_setRankData (s : State) (r : Nat) (m : Memory) : (s.setRankData r m).probe = s.probe := rfl
@[simp] theorem State.calUnit_setRankData (s : State) (r : Nat) (m : Memory) : (s.setRankData r m).calUnit = s.calUnit := rfl
@[simp] theorem State.rmGate_setRankData (s : State) (r : Nat) (m : Memory) : (s.setRankData r m).rmGate = s.rmGate := rfl
@[simp] theorem State.rateHist_setRankData (s : State) (r : Nat) (m : Memory) : (s.setRankData r m).rateHist = s.rateHist := rfl
@[simp] theorem State.groups_setRankData (s : State) (r : Nat) (m : Memory) : (s.setRankData r m).groups = s.groups := rfl
@[simp] theorem State.asm_setRankData (s : State) (r : Nat) (m : Memory) : (s.setRankData r m).asm = s.asm := rfl
@[simp] theorem State.lb_setRankData (s : State) (r : Nat) (m : Memory) : (s.setRankData r m).lb = s.lb := rfl
@[simp] theorem State.spm_setRankData (s : State) (r : Nat) (m : Memory) : (s.setRankData r m).spm = s.spm := rfl
@[simp] theorem State.soiled_setRankData (s : State) (r : Nat) (m : Memory) : (s.setRankData r m).soiled = s.soiled := rfl
@[simp] theorem State.memUnit_setRankData (s : State) (r : Nat) (m : Memory) : (s.setRankData r m).memUnit = s.memUnit := rfl
@[simp] theorem State.watch_setRankData (s : State) (r : Nat) (m : Memory) : (s.setRankData r m).watch = s.watch := rfl
@[simp] theorem State.query_setRankData (s : State) (r : Nat) (m : Memory) : (s.setRankData r m).query = s.query := rfl
@[simp] theorem State.hub_setRankData (s : State) (r : Nat) (m : Memory) : (s.setRankData r m).hub = s.hub := rfl
@[simp] theorem State.bld_setRankData (s : State) (r : Nat) (m : Memory) : (s.setRankData r m).bld = s.bld := rfl
@[simp] theorem State.cmp_setRankData (s : State) (r : Nat) (m : Memory) : (s.setRankData r m).cmp = s.cmp := rfl
@[simp] theorem State.lanes_setRankData (s : State) (r : Nat) (m : Memory) : (s.setRankData r m).lanes = s.lanes := rfl
@[simp] theorem State.synthLost_setRankData (s : State) (r : Nat) (m : Memory) : (s.setRankData r m).synthLost = s.synthLost := rfl
@[simp] theorem State.pinTest_setRankData (s : State) (r : Nat) (m : Memory) : (s.setRankData r m).pinTest = s.pinTest := rfl
@[simp] theorem State.north_setRankData (s : State) (r : Nat) (m : Memory) : (s.setRankData r m).north = s.north := rfl
@[simp] theorem State.south_setRankData (s : State) (r : Nat) (m : Memory) : (s.setRankData r m).south = s.south := rfl
@[simp] theorem State.pass_setRankData (s : State) (r : Nat) (m : Memory) : (s.setRankData r m).pass = s.pass := rfl
@[simp] theorem State.sched_setRankData (s : State) (r : Nat) (m : Memory) : (s.setRankData r m).sched = s.sched := rfl
@[simp] theorem State.alignPend_setRankData (s : State) (r : Nat) (m : Memory) : (s.setRankData r m).alignPend = s.alignPend := rfl
@[simp] theorem State.out_setRankData (s : State) (r : Nat) (m : Memory) : (s.setRankData r m).out = s.out := rfl
@[simp] theorem State.line_setRankData (s : State) (r : Nat) (m : Memory) : (s.setRankData r m).line = s.line := rfl
@[simp] theorem State.clk_setRankData (s : State) (r : Nat) (m : Memory) : (s.setRankData r m).clk = s.clk := rfl
@[simp] theorem State.plinth_setRankData (s : State) (r : Nat) (m : Memory) : (s.setRankData r m).plinth = s.plinth := rfl
@[simp] theorem State.power_setRankData (s : State) (r : Nat) (m : Memory) : (s.setRankData r m).power = s.power := rfl
@[simp] theorem State.nvm_setRankData (s : State) (r : Nat) (m : Memory) : (s.setRankData r m).nvm = s.nvm := rfl
@[simp] theorem State.hk_setRankData (s : State) (r : Nat) (m : Memory) : (s.setRankData r m).hk = s.hk := rfl
@[simp] theorem State.cufel_setRankData (s : State) (r : Nat) (m : Memory) : (s.setRankData r m).cufel = s.cufel := rfl
@[simp] theorem State.can_setRankData (s : State) (r : Nat) (m : Memory) : (s.setRankData r m).can = s.can := rfl
@[simp] theorem State.log_setRankData (s : State) (r : Nat) (m : Memory) : (s.setRankData r m).log = s.log := rfl
@[simp] theorem State.frz_setRankData (s : State) (r : Nat) (m : Memory) : (s.setRankData r m).frz = s.frz := rfl
@[simp] theorem State.nv_setRankData (s : State) (r : Nat) (m : Memory) : (s.setRankData r m).nv = s.nv := rfl
@[simp] theorem State.differs_setRankData (s : State) (r : Nat) (m : Memory) : (s.setRankData r m).differs = s.differs := rfl
@[simp] theorem State.lutFix_setRankData (s : State) (r : Nat) (m : Memory) : (s.setRankData r m).lutFix = s.lutFix := rfl
@[simp] theorem State.nt_setRankData (s : State) (r : Nat) (m : Memory) : (s.setRankData r m).nt = s.nt := rfl
@[simp] theorem State.time_setRankData (s : State) (r : Nat) (m : Memory) : (s.setRankData r m).time = s.time := rfl
@[simp] theorem State.capts_setRankData (s : State) (r : Nat) (m : Memory) : (s.setRankData r m).capts = s.capts := rfl
@[simp] theorem State.o_setRankData (s : State) (r : Nat) (m : Memory) (j : Nat) : (s.setRankData r m).o j = s.o j := rfl

/-! ### What setItems leaves as it was -/

@[simp] theorem State.pending_setItems (s : State) (l : List QItem) : (s.setItems l).pending = s.pending := rfl
@[simp] theorem State.free_setItems (s : State) (l : List QItem) : (s.setItems l).free = s.free := rfl
@[simp] theorem State.obj_setItems (s : State) (l : List QItem) : (s.setItems l).obj = s.obj := rfl
@[simp] theorem State.livePend_setItems (s : State) (l : List QItem) : (s.setItems l).livePend = s.livePend := rfl
@[simp] theorem State.shadowPend_setItems (s : State) (l : List QItem) : (s.setItems l).shadowPend = s.shadowPend := rfl
@[simp] theorem State.applied_setItems (s : State) (l : List QItem) : (s.setItems l).applied = s.applied := rfl
@[simp] theorem State.tick_setItems (s : State) (l : List QItem) : (s.setItems l).tick = s.tick := rfl
@[simp] theorem State.chans_setItems (s : State) (l : List QItem) : (s.setItems l).chans = s.chans := rfl
@[simp] theorem State.fastOr_setItems (s : State) (l : List QItem) : (s.setItems l).fastOr = s.fastOr := rfl
@[simp] theorem State.probe_setItems (s : State) (l : List QItem) : (s.setItems l).probe = s.probe := rfl
@[simp] theorem State.calUnit_setItems (s : State) (l : List QItem) : (s.setItems l).calUnit = s.calUnit := rfl
@[simp] theorem State.rmGate_setItems (s : State) (l : List QItem) : (s.setItems l).rmGate = s.rmGate := rfl
@[simp] theorem State.rateHist_setItems (s : State) (l : List QItem) : (s.setItems l).rateHist = s.rateHist := rfl
@[simp] theorem State.groups_setItems (s : State) (l : List QItem) : (s.setItems l).groups = s.groups := rfl
@[simp] theorem State.asm_setItems (s : State) (l : List QItem) : (s.setItems l).asm = s.asm := rfl
@[simp] theorem State.lb_setItems (s : State) (l : List QItem) : (s.setItems l).lb = s.lb := rfl
@[simp] theorem State.spm_setItems (s : State) (l : List QItem) : (s.setItems l).spm = s.spm := rfl
@[simp] theorem State.soiled_setItems (s : State) (l : List QItem) : (s.setItems l).soiled = s.soiled := rfl
@[simp] theorem State.rankMem_setItems (s : State) (l : List QItem) : (s.setItems l).rankMem = s.rankMem := rfl
@[simp] theorem State.memUnit_setItems (s : State) (l : List QItem) : (s.setItems l).memUnit = s.memUnit := rfl
@[simp] theorem State.watch_setItems (s : State) (l : List QItem) : (s.setItems l).watch = s.watch := rfl
@[simp] theorem State.hub_setItems (s : State) (l : List QItem) : (s.setItems l).hub = s.hub := rfl
@[simp] theorem State.bld_setItems (s : State) (l : List QItem) : (s.setItems l).bld = s.bld := rfl
@[simp] theorem State.cmp_setItems (s : State) (l : List QItem) : (s.setItems l).cmp = s.cmp := rfl
@[simp] theorem State.lanes_setItems (s : State) (l : List QItem) : (s.setItems l).lanes = s.lanes := rfl
@[simp] theorem State.synthLost_setItems (s : State) (l : List QItem) : (s.setItems l).synthLost = s.synthLost := rfl
@[simp] theorem State.pinTest_setItems (s : State) (l : List QItem) : (s.setItems l).pinTest = s.pinTest := rfl
@[simp] theorem State.north_setItems (s : State) (l : List QItem) : (s.setItems l).north = s.north := rfl
@[simp] theorem State.south_setItems (s : State) (l : List QItem) : (s.setItems l).south = s.south := rfl
@[simp] theorem State.pass_setItems (s : State) (l : List QItem) : (s.setItems l).pass = s.pass := rfl
@[simp] theorem State.sched_setItems (s : State) (l : List QItem) : (s.setItems l).sched = s.sched := rfl
@[simp] theorem State.alignPend_setItems (s : State) (l : List QItem) : (s.setItems l).alignPend = s.alignPend := rfl
@[simp] theorem State.out_setItems (s : State) (l : List QItem) : (s.setItems l).out = s.out := rfl
@[simp] theorem State.line_setItems (s : State) (l : List QItem) : (s.setItems l).line = s.line := rfl
@[simp] theorem State.clk_setItems (s : State) (l : List QItem) : (s.setItems l).clk = s.clk := rfl
@[simp] theorem State.plinth_setItems (s : State) (l : List QItem) : (s.setItems l).plinth = s.plinth := rfl
@[simp] theorem State.power_setItems (s : State) (l : List QItem) : (s.setItems l).power = s.power := rfl
@[simp] theorem State.nvm_setItems (s : State) (l : List QItem) : (s.setItems l).nvm = s.nvm := rfl
@[simp] theorem State.hk_setItems (s : State) (l : List QItem) : (s.setItems l).hk = s.hk := rfl
@[simp] theorem State.cufel_setItems (s : State) (l : List QItem) : (s.setItems l).cufel = s.cufel := rfl
@[simp] theorem State.can_setItems (s : State) (l : List QItem) : (s.setItems l).can = s.can := rfl
@[simp] theorem State.log_setItems (s : State) (l : List QItem) : (s.setItems l).log = s.log := rfl
@[simp] theorem State.frz_setItems (s : State) (l : List QItem) : (s.setItems l).frz = s.frz := rfl
@[simp] theorem State.nv_setItems (s : State) (l : List QItem) : (s.setItems l).nv = s.nv := rfl
@[simp] theorem State.differs_setItems (s : State) (l : List QItem) : (s.setItems l).differs = s.differs := rfl
@[simp] theorem State.lutFix_setItems (s : State) (l : List QItem) : (s.setItems l).lutFix = s.lutFix := rfl
@[simp] theorem State.nt_setItems (s : State) (l : List QItem) : (s.setItems l).nt = s.nt := rfl
@[simp] theorem State.time_setItems (s : State) (l : List QItem) : (s.setItems l).time = s.time := rfl
@[simp] theorem State.capts_setItems (s : State) (l : List QItem) : (s.setItems l).capts = s.capts := rfl
@[simp] theorem State.o_setItems (s : State) (l : List QItem) (j : Nat) : (s.setItems l).o j = s.o j := rfl

/-! ### What setLane leaves as it was -/

@[simp] theorem State.pending_setLane (s : State) (i : Nat) (x : LaneUnit) : (s.setLane i x).pending = s.pending := rfl
@[simp] theorem State.free_setLane (s : State) (i : Nat) (x : LaneUnit) : (s.setLane i x).free = s.free := rfl
@[simp] theorem State.obj_setLane (s : State) (i : Nat) (x : LaneUnit) : (s.setLane i x).obj = s.obj := rfl
@[simp] theorem State.livePend_setLane (s : State) (i : Nat) (x : LaneUnit) : (s.setLane i x).livePend = s.livePend := rfl
@[simp] theorem State.shadowPend_setLane (s : State) (i : Nat) (x : LaneUnit) : (s.setLane i x).shadowPend = s.shadowPend := rfl
@[simp] theorem State.applied_setLane (s : State) (i : Nat) (x : LaneUnit) : (s.setLane i x).applied = s.applied := rfl
@[simp] theorem State.tick_setLane (s : State) (i : Nat) (x : LaneUnit) : (s.setLane i x).tick = s.tick := rfl
@[simp] theorem State.chans_setLane (s : State) (i : Nat) (x : LaneUnit) : (s.setLane i x).chans = s.chans := rfl
@[simp] theorem State.fastOr_setLane (s : State) (i : Nat) (x : LaneUnit) : (s.setLane i x).fastOr = s.fastOr := rfl
@[simp] theorem State.probe_setLane (s : State) (i : Nat) (x : LaneUnit) : (s.setLane i x).probe = s.probe := rfl
@[simp] theorem State.calUnit_setLane (s : State) (i : Nat) (x : LaneUnit) : (s.setLane i x).calUnit = s.calUnit := rfl
@[simp] theorem State.rmGate_setLane (s : State) (i : Nat) (x : LaneUnit) : (s.setLane i x).rmGate = s.rmGate := rfl
@[simp] theorem State.rateHist_setLane (s : State) (i : Nat) (x : LaneUnit) : (s.setLane i x).rateHist = s.rateHist := rfl
@[simp] theorem State.groups_setLane (s : State) (i : Nat) (x : LaneUnit) : (s.setLane i x).groups = s.groups := rfl
@[simp] theorem State.asm_setLane (s : State) (i : Nat) (x : LaneUnit) : (s.setLane i x).asm = s.asm := rfl
@[simp] theorem State.lb_setLane (s : State) (i : Nat) (x : LaneUnit) : (s.setLane i x).lb = s.lb := rfl
@[simp] theorem State.spm_setLane (s : State) (i : Nat) (x : LaneUnit) : (s.setLane i x).spm = s.spm := rfl
@[simp] theorem State.soiled_setLane (s : State) (i : Nat) (x : LaneUnit) : (s.setLane i x).soiled = s.soiled := rfl
@[simp] theorem State.rankMem_setLane (s : State) (i : Nat) (x : LaneUnit) : (s.setLane i x).rankMem = s.rankMem := rfl
@[simp] theorem State.memUnit_setLane (s : State) (i : Nat) (x : LaneUnit) : (s.setLane i x).memUnit = s.memUnit := rfl
@[simp] theorem State.watch_setLane (s : State) (i : Nat) (x : LaneUnit) : (s.setLane i x).watch = s.watch := rfl
@[simp] theorem State.query_setLane (s : State) (i : Nat) (x : LaneUnit) : (s.setLane i x).query = s.query := rfl
@[simp] theorem State.hub_setLane (s : State) (i : Nat) (x : LaneUnit) : (s.setLane i x).hub = s.hub := rfl
@[simp] theorem State.bld_setLane (s : State) (i : Nat) (x : LaneUnit) : (s.setLane i x).bld = s.bld := rfl
@[simp] theorem State.cmp_setLane (s : State) (i : Nat) (x : LaneUnit) : (s.setLane i x).cmp = s.cmp := rfl
@[simp] theorem State.synthLost_setLane (s : State) (i : Nat) (x : LaneUnit) : (s.setLane i x).synthLost = s.synthLost := rfl
@[simp] theorem State.pinTest_setLane (s : State) (i : Nat) (x : LaneUnit) : (s.setLane i x).pinTest = s.pinTest := rfl
@[simp] theorem State.north_setLane (s : State) (i : Nat) (x : LaneUnit) : (s.setLane i x).north = s.north := rfl
@[simp] theorem State.south_setLane (s : State) (i : Nat) (x : LaneUnit) : (s.setLane i x).south = s.south := rfl
@[simp] theorem State.pass_setLane (s : State) (i : Nat) (x : LaneUnit) : (s.setLane i x).pass = s.pass := rfl
@[simp] theorem State.sched_setLane (s : State) (i : Nat) (x : LaneUnit) : (s.setLane i x).sched = s.sched := rfl
@[simp] theorem State.alignPend_setLane (s : State) (i : Nat) (x : LaneUnit) : (s.setLane i x).alignPend = s.alignPend := rfl
@[simp] theorem State.out_setLane (s : State) (i : Nat) (x : LaneUnit) : (s.setLane i x).out = s.out := rfl
@[simp] theorem State.line_setLane (s : State) (i : Nat) (x : LaneUnit) : (s.setLane i x).line = s.line := rfl
@[simp] theorem State.clk_setLane (s : State) (i : Nat) (x : LaneUnit) : (s.setLane i x).clk = s.clk := rfl
@[simp] theorem State.plinth_setLane (s : State) (i : Nat) (x : LaneUnit) : (s.setLane i x).plinth = s.plinth := rfl
@[simp] theorem State.power_setLane (s : State) (i : Nat) (x : LaneUnit) : (s.setLane i x).power = s.power := rfl
@[simp] theorem State.nvm_setLane (s : State) (i : Nat) (x : LaneUnit) : (s.setLane i x).nvm = s.nvm := rfl
@[simp] theorem State.hk_setLane (s : State) (i : Nat) (x : LaneUnit) : (s.setLane i x).hk = s.hk := rfl
@[simp] theorem State.cufel_setLane (s : State) (i : Nat) (x : LaneUnit) : (s.setLane i x).cufel = s.cufel := rfl
@[simp] theorem State.can_setLane (s : State) (i : Nat) (x : LaneUnit) : (s.setLane i x).can = s.can := rfl
@[simp] theorem State.log_setLane (s : State) (i : Nat) (x : LaneUnit) : (s.setLane i x).log = s.log := rfl
@[simp] theorem State.frz_setLane (s : State) (i : Nat) (x : LaneUnit) : (s.setLane i x).frz = s.frz := rfl
@[simp] theorem State.nv_setLane (s : State) (i : Nat) (x : LaneUnit) : (s.setLane i x).nv = s.nv := rfl
@[simp] theorem State.differs_setLane (s : State) (i : Nat) (x : LaneUnit) : (s.setLane i x).differs = s.differs := rfl
@[simp] theorem State.lutFix_setLane (s : State) (i : Nat) (x : LaneUnit) : (s.setLane i x).lutFix = s.lutFix := rfl
@[simp] theorem State.nt_setLane (s : State) (i : Nat) (x : LaneUnit) : (s.setLane i x).nt = s.nt := rfl
@[simp] theorem State.time_setLane (s : State) (i : Nat) (x : LaneUnit) : (s.setLane i x).time = s.time := rfl
@[simp] theorem State.capts_setLane (s : State) (i : Nat) (x : LaneUnit) : (s.setLane i x).capts = s.capts := rfl
@[simp] theorem State.o_setLane (s : State) (i : Nat) (x : LaneUnit) (j : Nat) : (s.setLane i x).o j = s.o j := rfl

/-! ### What emit leaves as it was -/

@[simp] theorem State.pending_emit (s : State) (x : Sent) : (s.emit x).pending = s.pending := rfl
@[simp] theorem State.free_emit (s : State) (x : Sent) : (s.emit x).free = s.free := rfl
@[simp] theorem State.obj_emit (s : State) (x : Sent) : (s.emit x).obj = s.obj := rfl
@[simp] theorem State.livePend_emit (s : State) (x : Sent) : (s.emit x).livePend = s.livePend := rfl
@[simp] theorem State.shadowPend_emit (s : State) (x : Sent) : (s.emit x).shadowPend = s.shadowPend := rfl
@[simp] theorem State.applied_emit (s : State) (x : Sent) : (s.emit x).applied = s.applied := rfl
@[simp] theorem State.tick_emit (s : State) (x : Sent) : (s.emit x).tick = s.tick := rfl
@[simp] theorem State.chans_emit (s : State) (x : Sent) : (s.emit x).chans = s.chans := rfl
@[simp] theorem State.fastOr_emit (s : State) (x : Sent) : (s.emit x).fastOr = s.fastOr := rfl
@[simp] theorem State.probe_emit (s : State) (x : Sent) : (s.emit x).probe = s.probe := rfl
@[simp] theorem State.calUnit_emit (s : State) (x : Sent) : (s.emit x).calUnit = s.calUnit := rfl
@[simp] theorem State.rmGate_emit (s : State) (x : Sent) : (s.emit x).rmGate = s.rmGate := rfl
@[simp] theorem State.rateHist_emit (s : State) (x : Sent) : (s.emit x).rateHist = s.rateHist := rfl
@[simp] theorem State.groups_emit (s : State) (x : Sent) : (s.emit x).groups = s.groups := rfl
@[simp] theorem State.asm_emit (s : State) (x : Sent) : (s.emit x).asm = s.asm := rfl
@[simp] theorem State.lb_emit (s : State) (x : Sent) : (s.emit x).lb = s.lb := rfl
@[simp] theorem State.spm_emit (s : State) (x : Sent) : (s.emit x).spm = s.spm := rfl
@[simp] theorem State.soiled_emit (s : State) (x : Sent) : (s.emit x).soiled = s.soiled := rfl
@[simp] theorem State.rankMem_emit (s : State) (x : Sent) : (s.emit x).rankMem = s.rankMem := rfl
@[simp] theorem State.memUnit_emit (s : State) (x : Sent) : (s.emit x).memUnit = s.memUnit := rfl
@[simp] theorem State.watch_emit (s : State) (x : Sent) : (s.emit x).watch = s.watch := rfl
@[simp] theorem State.query_emit (s : State) (x : Sent) : (s.emit x).query = s.query := rfl
@[simp] theorem State.hub_emit (s : State) (x : Sent) : (s.emit x).hub = s.hub := rfl
@[simp] theorem State.bld_emit (s : State) (x : Sent) : (s.emit x).bld = s.bld := rfl
@[simp] theorem State.cmp_emit (s : State) (x : Sent) : (s.emit x).cmp = s.cmp := rfl
@[simp] theorem State.lanes_emit (s : State) (x : Sent) : (s.emit x).lanes = s.lanes := rfl
@[simp] theorem State.synthLost_emit (s : State) (x : Sent) : (s.emit x).synthLost = s.synthLost := rfl
@[simp] theorem State.pinTest_emit (s : State) (x : Sent) : (s.emit x).pinTest = s.pinTest := rfl
@[simp] theorem State.north_emit (s : State) (x : Sent) : (s.emit x).north = s.north := rfl
@[simp] theorem State.south_emit (s : State) (x : Sent) : (s.emit x).south = s.south := rfl
@[simp] theorem State.pass_emit (s : State) (x : Sent) : (s.emit x).pass = s.pass := rfl
@[simp] theorem State.sched_emit (s : State) (x : Sent) : (s.emit x).sched = s.sched := rfl
@[simp] theorem State.alignPend_emit (s : State) (x : Sent) : (s.emit x).alignPend = s.alignPend := rfl
@[simp] theorem State.line_emit (s : State) (x : Sent) : (s.emit x).line = s.line := rfl
@[simp] theorem State.clk_emit (s : State) (x : Sent) : (s.emit x).clk = s.clk := rfl
@[simp] theorem State.plinth_emit (s : State) (x : Sent) : (s.emit x).plinth = s.plinth := rfl
@[simp] theorem State.power_emit (s : State) (x : Sent) : (s.emit x).power = s.power := rfl
@[simp] theorem State.nvm_emit (s : State) (x : Sent) : (s.emit x).nvm = s.nvm := rfl
@[simp] theorem State.hk_emit (s : State) (x : Sent) : (s.emit x).hk = s.hk := rfl
@[simp] theorem State.cufel_emit (s : State) (x : Sent) : (s.emit x).cufel = s.cufel := rfl
@[simp] theorem State.can_emit (s : State) (x : Sent) : (s.emit x).can = s.can := rfl
@[simp] theorem State.log_emit (s : State) (x : Sent) : (s.emit x).log = s.log := rfl
@[simp] theorem State.frz_emit (s : State) (x : Sent) : (s.emit x).frz = s.frz := rfl
@[simp] theorem State.nv_emit (s : State) (x : Sent) : (s.emit x).nv = s.nv := rfl
@[simp] theorem State.differs_emit (s : State) (x : Sent) : (s.emit x).differs = s.differs := rfl
@[simp] theorem State.lutFix_emit (s : State) (x : Sent) : (s.emit x).lutFix = s.lutFix := rfl
@[simp] theorem State.nt_emit (s : State) (x : Sent) : (s.emit x).nt = s.nt := rfl
@[simp] theorem State.time_emit (s : State) (x : Sent) : (s.emit x).time = s.time := rfl
@[simp] theorem State.capts_emit (s : State) (x : Sent) : (s.emit x).capts = s.capts := rfl
@[simp] theorem State.o_emit (s : State) (x : Sent) (j : Nat) : (s.emit x).o j = s.o j := rfl

/-! ### What setRecs leaves as it was -/

@[simp] theorem State.pending_setRecs (s : State) (l : List MRec) : (s.setRecs l).pending = s.pending := rfl
@[simp] theorem State.free_setRecs (s : State) (l : List MRec) : (s.setRecs l).free = s.free := rfl
@[simp] theorem State.obj_setRecs (s : State) (l : List MRec) : (s.setRecs l).obj = s.obj := rfl
@[simp] theorem State.livePend_setRecs (s : State) (l : List MRec) : (s.setRecs l).livePend = s.livePend := rfl
@[simp] theorem State.shadowPend_setRecs (s : State) (l : List MRec) : (s.setRecs l).shadowPend = s.shadowPend := rfl
@[simp] theorem State.applied_setRecs (s : State) (l : List MRec) : (s.setRecs l).applied = s.applied := rfl
@[simp] theorem State.tick_setRecs (s : State) (l : List MRec) : (s.setRecs l).tick = s.tick := rfl
@[simp] theorem State.chans_setRecs (s : State) (l : List MRec) : (s.setRecs l).chans = s.chans := rfl
@[simp] theorem State.fastOr_setRecs (s : State) (l : List MRec) : (s.setRecs l).fastOr = s.fastOr := rfl
@[simp] theorem State.probe_setRecs (s : State) (l : List MRec) : (s.setRecs l).probe = s.probe := rfl
@[simp] theorem State.calUnit_setRecs (s : State) (l : List MRec) : (s.setRecs l).calUnit = s.calUnit := rfl
@[simp] theorem State.rmGate_setRecs (s : State) (l : List MRec) : (s.setRecs l).rmGate = s.rmGate := rfl
@[simp] theorem State.rateHist_setRecs (s : State) (l : List MRec) : (s.setRecs l).rateHist = s.rateHist := rfl
@[simp] theorem State.groups_setRecs (s : State) (l : List MRec) : (s.setRecs l).groups = s.groups := rfl
@[simp] theorem State.asm_setRecs (s : State) (l : List MRec) : (s.setRecs l).asm = s.asm := rfl
@[simp] theorem State.lb_setRecs (s : State) (l : List MRec) : (s.setRecs l).lb = s.lb := rfl
@[simp] theorem State.spm_setRecs (s : State) (l : List MRec) : (s.setRecs l).spm = s.spm := rfl
@[simp] theorem State.soiled_setRecs (s : State) (l : List MRec) : (s.setRecs l).soiled = s.soiled := rfl
@[simp] theorem State.rankMem_setRecs (s : State) (l : List MRec) : (s.setRecs l).rankMem = s.rankMem := rfl
@[simp] theorem State.memUnit_setRecs (s : State) (l : List MRec) : (s.setRecs l).memUnit = s.memUnit := rfl
@[simp] theorem State.watch_setRecs (s : State) (l : List MRec) : (s.setRecs l).watch = s.watch := rfl
@[simp] theorem State.query_setRecs (s : State) (l : List MRec) : (s.setRecs l).query = s.query := rfl
@[simp] theorem State.bld_setRecs (s : State) (l : List MRec) : (s.setRecs l).bld = s.bld := rfl
@[simp] theorem State.cmp_setRecs (s : State) (l : List MRec) : (s.setRecs l).cmp = s.cmp := rfl
@[simp] theorem State.lanes_setRecs (s : State) (l : List MRec) : (s.setRecs l).lanes = s.lanes := rfl
@[simp] theorem State.synthLost_setRecs (s : State) (l : List MRec) : (s.setRecs l).synthLost = s.synthLost := rfl
@[simp] theorem State.pinTest_setRecs (s : State) (l : List MRec) : (s.setRecs l).pinTest = s.pinTest := rfl
@[simp] theorem State.north_setRecs (s : State) (l : List MRec) : (s.setRecs l).north = s.north := rfl
@[simp] theorem State.south_setRecs (s : State) (l : List MRec) : (s.setRecs l).south = s.south := rfl
@[simp] theorem State.pass_setRecs (s : State) (l : List MRec) : (s.setRecs l).pass = s.pass := rfl
@[simp] theorem State.sched_setRecs (s : State) (l : List MRec) : (s.setRecs l).sched = s.sched := rfl
@[simp] theorem State.alignPend_setRecs (s : State) (l : List MRec) : (s.setRecs l).alignPend = s.alignPend := rfl
@[simp] theorem State.out_setRecs (s : State) (l : List MRec) : (s.setRecs l).out = s.out := rfl
@[simp] theorem State.line_setRecs (s : State) (l : List MRec) : (s.setRecs l).line = s.line := rfl
@[simp] theorem State.clk_setRecs (s : State) (l : List MRec) : (s.setRecs l).clk = s.clk := rfl
@[simp] theorem State.plinth_setRecs (s : State) (l : List MRec) : (s.setRecs l).plinth = s.plinth := rfl
@[simp] theorem State.power_setRecs (s : State) (l : List MRec) : (s.setRecs l).power = s.power := rfl
@[simp] theorem State.nvm_setRecs (s : State) (l : List MRec) : (s.setRecs l).nvm = s.nvm := rfl
@[simp] theorem State.hk_setRecs (s : State) (l : List MRec) : (s.setRecs l).hk = s.hk := rfl
@[simp] theorem State.cufel_setRecs (s : State) (l : List MRec) : (s.setRecs l).cufel = s.cufel := rfl
@[simp] theorem State.can_setRecs (s : State) (l : List MRec) : (s.setRecs l).can = s.can := rfl
@[simp] theorem State.log_setRecs (s : State) (l : List MRec) : (s.setRecs l).log = s.log := rfl
@[simp] theorem State.frz_setRecs (s : State) (l : List MRec) : (s.setRecs l).frz = s.frz := rfl
@[simp] theorem State.nv_setRecs (s : State) (l : List MRec) : (s.setRecs l).nv = s.nv := rfl
@[simp] theorem State.differs_setRecs (s : State) (l : List MRec) : (s.setRecs l).differs = s.differs := rfl
@[simp] theorem State.lutFix_setRecs (s : State) (l : List MRec) : (s.setRecs l).lutFix = s.lutFix := rfl
@[simp] theorem State.nt_setRecs (s : State) (l : List MRec) : (s.setRecs l).nt = s.nt := rfl
@[simp] theorem State.time_setRecs (s : State) (l : List MRec) : (s.setRecs l).time = s.time := rfl
@[simp] theorem State.capts_setRecs (s : State) (l : List MRec) : (s.setRecs l).capts = s.capts := rfl
@[simp] theorem State.o_setRecs (s : State) (l : List MRec) (j : Nat) : (s.setRecs l).o j = s.o j := rfl

end Sys2Proof.Machine
end

