-- ==== Sys2Proof/Laws/Respond.lean ====
section
/-! SUPPORT. The laws of responses: what answering a request changes, and that its response goes out on its path. -/
namespace Sys2Proof.Machine

set_option Elab.async false

/-! ### What a response leaves as it was -/

@[simp] theorem State.pending_send (s : State) (p : Path) (m : Msg) : (s.send p m).pending = s.pending := by cases p <;> rfl
@[simp] theorem State.free_send (s : State) (p : Path) (m : Msg) : (s.send p m).free = s.free := by cases p <;> rfl
@[simp] theorem State.livePend_send (s : State) (p : Path) (m : Msg) : (s.send p m).livePend = s.livePend := by cases p <;> rfl
@[simp] theorem State.shadowPend_send (s : State) (p : Path) (m : Msg) : (s.send p m).shadowPend = s.shadowPend := by cases p <;> rfl
@[simp] theorem State.applied_send (s : State) (p : Path) (m : Msg) : (s.send p m).applied = s.applied := by cases p <;> rfl
@[simp] theorem State.tick_send (s : State) (p : Path) (m : Msg) : (s.send p m).tick = s.tick := by cases p <;> rfl
@[simp] theorem State.chans_send (s : State) (p : Path) (m : Msg) : (s.send p m).chans = s.chans := by cases p <;> rfl
@[simp] theorem State.fastOr_send (s : State) (p : Path) (m : Msg) : (s.send p m).fastOr = s.fastOr := by cases p <;> rfl
@[simp] theorem State.probe_send (s : State) (p : Path) (m : Msg) : (s.send p m).probe = s.probe := by cases p <;> rfl
@[simp] theorem State.calUnit_send (s : State) (p : Path) (m : Msg) : (s.send p m).calUnit = s.calUnit := by cases p <;> rfl
@[simp] theorem State.rmGate_send (s : State) (p : Path) (m : Msg) : (s.send p m).rmGate = s.rmGate := by cases p <;> rfl
@[simp] theorem State.rateHist_send (s : State) (p : Path) (m : Msg) : (s.send p m).rateHist = s.rateHist := by cases p <;> rfl
@[simp] theorem State.groups_send (s : State) (p : Path) (m : Msg) : (s.send p m).groups = s.groups := by cases p <;> rfl
@[simp] theorem State.asm_send (s : State) (p : Path) (m : Msg) : (s.send p m).asm = s.asm := by cases p <;> rfl
@[simp] theorem State.lb_send (s : State) (p : Path) (m : Msg) : (s.send p m).lb = s.lb := by cases p <;> rfl
@[simp] theorem State.spm_send (s : State) (p : Path) (m : Msg) : (s.send p m).spm = s.spm := by cases p <;> rfl
@[simp] theorem State.soiled_send (s : State) (p : Path) (m : Msg) : (s.send p m).soiled = s.soiled := by cases p <;> rfl
@[simp] theorem State.rankMem_send (s : State) (p : Path) (m : Msg) : (s.send p m).rankMem = s.rankMem := by cases p <;> rfl
@[simp] theorem State.memUnit_send (s : State) (p : Path) (m : Msg) : (s.send p m).memUnit = s.memUnit := by cases p <;> rfl
@[simp] theorem State.watch_send (s : State) (p : Path) (m : Msg) : (s.send p m).watch = s.watch := by cases p <;> rfl
@[simp] theorem State.query_send (s : State) (p : Path) (m : Msg) : (s.send p m).query = s.query := by cases p <;> rfl
@[simp] theorem State.hub_send (s : State) (p : Path) (m : Msg) : (s.send p m).hub = s.hub := by cases p <;> rfl
@[simp] theorem State.bld_send (s : State) (p : Path) (m : Msg) : (s.send p m).bld = s.bld := by cases p <;> rfl
@[simp] theorem State.cmp_send (s : State) (p : Path) (m : Msg) : (s.send p m).cmp = s.cmp := by cases p <;> rfl
@[simp] theorem State.lanes_send (s : State) (p : Path) (m : Msg) : (s.send p m).lanes = s.lanes := by cases p <;> rfl
@[simp] theorem State.synthLost_send (s : State) (p : Path) (m : Msg) : (s.send p m).synthLost = s.synthLost := by cases p <;> rfl
@[simp] theorem State.pinTest_send (s : State) (p : Path) (m : Msg) : (s.send p m).pinTest = s.pinTest := by cases p <;> rfl
@[simp] theorem State.north_send (s : State) (p : Path) (m : Msg) : (s.send p m).north = s.north := by cases p <;> rfl
@[simp] theorem State.south_send (s : State) (p : Path) (m : Msg) : (s.send p m).south = s.south := by cases p <;> rfl
@[simp] theorem State.pass_send (s : State) (p : Path) (m : Msg) : (s.send p m).pass = s.pass := by cases p <;> rfl
@[simp] theorem State.sched_send (s : State) (p : Path) (m : Msg) : (s.send p m).sched = s.sched := by cases p <;> rfl
@[simp] theorem State.alignPend_send (s : State) (p : Path) (m : Msg) : (s.send p m).alignPend = s.alignPend := by cases p <;> rfl
@[simp] theorem State.out_send (s : State) (p : Path) (m : Msg) : (s.send p m).out = s.out := by cases p <;> rfl
@[simp] theorem State.line_send (s : State) (p : Path) (m : Msg) : (s.send p m).line = s.line := by cases p <;> rfl
@[simp] theorem State.clk_send (s : State) (p : Path) (m : Msg) : (s.send p m).clk = s.clk := by cases p <;> rfl
@[simp] theorem State.plinth_send (s : State) (p : Path) (m : Msg) : (s.send p m).plinth = s.plinth := by cases p <;> rfl
@[simp] theorem State.power_send (s : State) (p : Path) (m : Msg) : (s.send p m).power = s.power := by cases p <;> rfl
@[simp] theorem State.nvm_send (s : State) (p : Path) (m : Msg) : (s.send p m).nvm = s.nvm := by cases p <;> rfl
@[simp] theorem State.hk_send (s : State) (p : Path) (m : Msg) : (s.send p m).hk = s.hk := by cases p <;> rfl
@[simp] theorem State.can_send (s : State) (p : Path) (m : Msg) : (s.send p m).can = s.can := by cases p <;> rfl
@[simp] theorem State.log_send (s : State) (p : Path) (m : Msg) : (s.send p m).log = s.log := by cases p <;> rfl
@[simp] theorem State.frz_send (s : State) (p : Path) (m : Msg) : (s.send p m).frz = s.frz := by cases p <;> rfl
@[simp] theorem State.nv_send (s : State) (p : Path) (m : Msg) : (s.send p m).nv = s.nv := by cases p <;> rfl
@[simp] theorem State.differs_send (s : State) (p : Path) (m : Msg) : (s.send p m).differs = s.differs := by cases p <;> rfl
@[simp] theorem State.lutFix_send (s : State) (p : Path) (m : Msg) : (s.send p m).lutFix = s.lutFix := by cases p <;> rfl
@[simp] theorem State.nt_send (s : State) (p : Path) (m : Msg) : (s.send p m).nt = s.nt := by cases p <;> rfl
@[simp] theorem State.time_send (s : State) (p : Path) (m : Msg) : (s.send p m).time = s.time := by cases p <;> rfl
@[simp] theorem State.capts_send (s : State) (p : Path) (m : Msg) : (s.send p m).capts = s.capts := by cases p <;> rfl

@[simp] theorem State.pending_keepSend (s : State) (p : Path) (m : Msg) : (s.keepSend p m).pending = s.pending := by simp [State.keepSend]
@[simp] theorem State.free_keepSend (s : State) (p : Path) (m : Msg) : (s.keepSend p m).free = s.free := by simp [State.keepSend]
@[simp] theorem State.livePend_keepSend (s : State) (p : Path) (m : Msg) : (s.keepSend p m).livePend = s.livePend := by simp [State.keepSend]
@[simp] theorem State.shadowPend_keepSend (s : State) (p : Path) (m : Msg) : (s.keepSend p m).shadowPend = s.shadowPend := by simp [State.keepSend]
@[simp] theorem State.applied_keepSend (s : State) (p : Path) (m : Msg) : (s.keepSend p m).applied = s.applied := by simp [State.keepSend]
@[simp] theorem State.tick_keepSend (s : State) (p : Path) (m : Msg) : (s.keepSend p m).tick = s.tick := by simp [State.keepSend]
@[simp] theorem State.chans_keepSend (s : State) (p : Path) (m : Msg) : (s.keepSend p m).chans = s.chans := by simp [State.keepSend]
@[simp] theorem State.fastOr_keepSend (s : State) (p : Path) (m : Msg) : (s.keepSend p m).fastOr = s.fastOr := by simp [State.keepSend]
@[simp] theorem State.probe_keepSend (s : State) (p : Path) (m : Msg) : (s.keepSend p m).probe = s.probe := by simp [State.keepSend]
@[simp] theorem State.calUnit_keepSend (s : State) (p : Path) (m : Msg) : (s.keepSend p m).calUnit = s.calUnit := by simp [State.keepSend]
@[simp] theorem State.rmGate_keepSend (s : State) (p : Path) (m : Msg) : (s.keepSend p m).rmGate = s.rmGate := by simp [State.keepSend]
@[simp] theorem State.rateHist_keepSend (s : State) (p : Path) (m : Msg) : (s.keepSend p m).rateHist = s.rateHist := by simp [State.keepSend]
@[simp] theorem State.groups_keepSend (s : State) (p : Path) (m : Msg) : (s.keepSend p m).groups = s.groups := by simp [State.keepSend]
@[simp] theorem State.asm_keepSend (s : State) (p : Path) (m : Msg) : (s.keepSend p m).asm = s.asm := by simp [State.keepSend]
@[simp] theorem State.lb_keepSend (s : State) (p : Path) (m : Msg) : (s.keepSend p m).lb = s.lb := by simp [State.keepSend]
@[simp] theorem State.spm_keepSend (s : State) (p : Path) (m : Msg) : (s.keepSend p m).spm = s.spm := by simp [State.keepSend]
@[simp] theorem State.soiled_keepSend (s : State) (p : Path) (m : Msg) : (s.keepSend p m).soiled = s.soiled := by simp [State.keepSend]
@[simp] theorem State.rankMem_keepSend (s : State) (p : Path) (m : Msg) : (s.keepSend p m).rankMem = s.rankMem := by simp [State.keepSend]
@[simp] theorem State.memUnit_keepSend (s : State) (p : Path) (m : Msg) : (s.keepSend p m).memUnit = s.memUnit := by simp [State.keepSend]
@[simp] theorem State.watch_keepSend (s : State) (p : Path) (m : Msg) : (s.keepSend p m).watch = s.watch := by simp [State.keepSend]
@[simp] theorem State.query_keepSend (s : State) (p : Path) (m : Msg) : (s.keepSend p m).query = s.query := by simp [State.keepSend]
@[simp] theorem State.hub_keepSend (s : State) (p : Path) (m : Msg) : (s.keepSend p m).hub = s.hub := by simp [State.keepSend]
@[simp] theorem State.bld_keepSend (s : State) (p : Path) (m : Msg) : (s.keepSend p m).bld = s.bld := by simp [State.keepSend]
@[simp] theorem State.cmp_keepSend (s : State) (p : Path) (m : Msg) : (s.keepSend p m).cmp = s.cmp := by simp [State.keepSend]
@[simp] theorem State.lanes_keepSend (s : State) (p : Path) (m : Msg) : (s.keepSend p m).lanes = s.lanes := by simp [State.keepSend]
@[simp] theorem State.synthLost_keepSend (s : State) (p : Path) (m : Msg) : (s.keepSend p m).synthLost = s.synthLost := by simp [State.keepSend]
@[simp] theorem State.pinTest_keepSend (s : State) (p : Path) (m : Msg) : (s.keepSend p m).pinTest = s.pinTest := by simp [State.keepSend]
@[simp] theorem State.north_keepSend (s : State) (p : Path) (m : Msg) : (s.keepSend p m).north = s.north := by simp [State.keepSend]
@[simp] theorem State.south_keepSend (s : State) (p : Path) (m : Msg) : (s.keepSend p m).south = s.south := by simp [State.keepSend]
@[simp] theorem State.pass_keepSend (s : State) (p : Path) (m : Msg) : (s.keepSend p m).pass = s.pass := by simp [State.keepSend]
@[simp] theorem State.sched_keepSend (s : State) (p : Path) (m : Msg) : (s.keepSend p m).sched = s.sched := by simp [State.keepSend]
@[simp] theorem State.alignPend_keepSend (s : State) (p : Path) (m : Msg) : (s.keepSend p m).alignPend = s.alignPend := by simp [State.keepSend]
@[simp] theorem State.out_keepSend (s : State) (p : Path) (m : Msg) : (s.keepSend p m).out = s.out := by simp [State.keepSend]
@[simp] theorem State.line_keepSend (s : State) (p : Path) (m : Msg) : (s.keepSend p m).line = s.line := by simp [State.keepSend]
@[simp] theorem State.clk_keepSend (s : State) (p : Path) (m : Msg) : (s.keepSend p m).clk = s.clk := by simp [State.keepSend]
@[simp] theorem State.plinth_keepSend (s : State) (p : Path) (m : Msg) : (s.keepSend p m).plinth = s.plinth := by simp [State.keepSend]
@[simp] theorem State.power_keepSend (s : State) (p : Path) (m : Msg) : (s.keepSend p m).power = s.power := by simp [State.keepSend]
@[simp] theorem State.nvm_keepSend (s : State) (p : Path) (m : Msg) : (s.keepSend p m).nvm = s.nvm := by simp [State.keepSend]
@[simp] theorem State.hk_keepSend (s : State) (p : Path) (m : Msg) : (s.keepSend p m).hk = s.hk := by simp [State.keepSend]
@[simp] theorem State.can_keepSend (s : State) (p : Path) (m : Msg) : (s.keepSend p m).can = s.can := by simp [State.keepSend]
@[simp] theorem State.log_keepSend (s : State) (p : Path) (m : Msg) : (s.keepSend p m).log = s.log := by simp [State.keepSend]
@[simp] theorem State.frz_keepSend (s : State) (p : Path) (m : Msg) : (s.keepSend p m).frz = s.frz := by simp [State.keepSend]
@[simp] theorem State.nv_keepSend (s : State) (p : Path) (m : Msg) : (s.keepSend p m).nv = s.nv := by simp [State.keepSend]
@[simp] theorem State.differs_keepSend (s : State) (p : Path) (m : Msg) : (s.keepSend p m).differs = s.differs := by simp [State.keepSend]
@[simp] theorem State.lutFix_keepSend (s : State) (p : Path) (m : Msg) : (s.keepSend p m).lutFix = s.lutFix := by simp [State.keepSend]
@[simp] theorem State.nt_keepSend (s : State) (p : Path) (m : Msg) : (s.keepSend p m).nt = s.nt := by simp [State.keepSend]
@[simp] theorem State.time_keepSend (s : State) (p : Path) (m : Msg) : (s.keepSend p m).time = s.time := by simp [State.keepSend]
@[simp] theorem State.capts_keepSend (s : State) (p : Path) (m : Msg) : (s.keepSend p m).capts = s.capts := by simp [State.keepSend]

@[simp] theorem State.pending_flushRefusals (n : Nat) (s : State) : (State.flushRefusals n s).pending = s.pending := by
  induction n generalizing s with
  | zero => rfl
  | succ n ih =>
    unfold State.flushRefusals
    split
    · split
      · simp [ih]
      · rfl
    · rfl
@[simp] theorem State.free_flushRefusals (n : Nat) (s : State) : (State.flushRefusals n s).free = s.free := by
  induction n generalizing s with
  | zero => rfl
  | succ n ih =>
    unfold State.flushRefusals
    split
    · split
      · simp [ih]
      · rfl
    · rfl
@[simp] theorem State.livePend_flushRefusals (n : Nat) (s : State) : (State.flushRefusals n s).livePend = s.livePend := by
  induction n generalizing s with
  | zero => rfl
  | succ n ih =>
    unfold State.flushRefusals
    split
    · split
      · simp [ih]
      · rfl
    · rfl
@[simp] theorem State.shadowPend_flushRefusals (n : Nat) (s : State) : (State.flushRefusals n s).shadowPend = s.shadowPend := by
  induction n generalizing s with
  | zero => rfl
  | succ n ih =>
    unfold State.flushRefusals
    split
    · split
      · simp [ih]
      · rfl
    · rfl
@[simp] theorem State.applied_flushRefusals (n : Nat) (s : State) : (State.flushRefusals n s).applied = s.applied := by
  induction n generalizing s with
  | zero => rfl
  | succ n ih =>
    unfold State.flushRefusals
    split
    · split
      · simp [ih]
      · rfl
    · rfl
@[simp] theorem State.tick_flushRefusals (n : Nat) (s : State) : (State.flushRefusals n s).tick = s.tick := by
  induction n generalizing s with
  | zero => rfl
  | succ n ih =>
    unfold State.flushRefusals
    split
    · split
      · simp [ih]
      · rfl
    · rfl
@[simp] theorem State.chans_flushRefusals (n : Nat) (s : State) : (State.flushRefusals n s).chans = s.chans := by
  induction n generalizing s with
  | zero => rfl
  | succ n ih =>
    unfold State.flushRefusals
    split
    · split
      · simp [ih]
      · rfl
    · rfl
@[simp] theorem State.fastOr_flushRefusals (n : Nat) (s : State) : (State.flushRefusals n s).fastOr = s.fastOr := by
  induction n generalizing s with
  | zero => rfl
  | succ n ih =>
    unfold State.flushRefusals
    split
    · split
      · simp [ih]
      · rfl
    · rfl
@[simp] theorem State.probe_flushRefusals (n : Nat) (s : State) : (State.flushRefusals n s).probe = s.probe := by
  induction n generalizing s with
  | zero => rfl
  | succ n ih =>
    unfold State.flushRefusals
    split
    · split
      · simp [ih]
      · rfl
    · rfl
@[simp] theorem State.calUnit_flushRefusals (n : Nat) (s : State) : (State.flushRefusals n s).calUnit = s.calUnit := by
  induction n generalizing s with
  | zero => rfl
  | succ n ih =>
    unfold State.flushRefusals
    split
    · split
      · simp [ih]
      · rfl
    · rfl
@[simp] theorem State.rmGate_flushRefusals (n : Nat) (s : State) : (State.flushRefusals n s).rmGate = s.rmGate := by
  induction n generalizing s with
  | zero => rfl
  | succ n ih =>
    unfold State.flushRefusals
    split
    · split
      · simp [ih]
      · rfl
    · rfl
@[simp] theorem State.rateHist_flushRefusals (n : Nat) (s : State) : (State.flushRefusals n s).rateHist = s.rateHist := by
  induction n generalizing s with
  | zero => rfl
  | succ n ih =>
    unfold State.flushRefusals
    split
    · split
      · simp [ih]
      · rfl
    · rfl
@[simp] theorem State.groups_flushRefusals (n : Nat) (s : State) : (State.flushRefusals n s).groups = s.groups := by
  induction n generalizing s with
  | zero => rfl
  | succ n ih =>
    unfold State.flushRefusals
    split
    · split
      · simp [ih]
      · rfl
    · rfl
@[simp] theorem State.asm_flushRefusals (n : Nat) (s : State) : (State.flushRefusals n s).asm = s.asm := by
  induction n generalizing s with
  | zero => rfl
  | succ n ih =>
    unfold State.flushRefusals
    split
    · split
      · simp [ih]
      · rfl
    · rfl
@[simp] theorem State.lb_flushRefusals (n : Nat) (s : State) : (State.flushRefusals n s).lb = s.lb := by
  induction n generalizing s with
  | zero => rfl
  | succ n ih =>
    unfold State.flushRefusals
    split
    · split
      · simp [ih]
      · rfl
    · rfl
@[simp] theorem State.spm_flushRefusals (n : Nat) (s : State) : (State.flushRefusals n s).spm = s.spm := by
  induction n generalizing s with
  | zero => rfl
  | succ n ih =>
    unfold State.flushRefusals
    split
    · split
      · simp [ih]
      · rfl
    · rfl
@[simp] theorem State.soiled_flushRefusals (n : Nat) (s : State) : (State.flushRefusals n s).soiled = s.soiled := by
  induction n generalizing s with
  | zero => rfl
  | succ n ih =>
    unfold State.flushRefusals
    split
    · split
      · simp [ih]
      · rfl
    · rfl
@[simp] theorem State.rankMem_flushRefusals (n : Nat) (s : State) : (State.flushRefusals n s).rankMem = s.rankMem := by
  induction n generalizing s with
  | zero => rfl
  | succ n ih =>
    unfold State.flushRefusals
    split
    · split
      · simp [ih]
      · rfl
    · rfl
@[simp] theorem State.memUnit_flushRefusals (n : Nat) (s : State) : (State.flushRefusals n s).memUnit = s.memUnit := by
  induction n generalizing s with
  | zero => rfl
  | succ n ih =>
    unfold State.flushRefusals
    split
    · split
      · simp [ih]
      · rfl
    · rfl
@[simp] theorem State.watch_flushRefusals (n : Nat) (s : State) : (State.flushRefusals n s).watch = s.watch := by
  induction n generalizing s with
  | zero => rfl
  | succ n ih =>
    unfold State.flushRefusals
    split
    · split
      · simp [ih]
      · rfl
    · rfl
@[simp] theorem State.query_flushRefusals (n : Nat) (s : State) : (State.flushRefusals n s).query = s.query := by
  induction n generalizing s with
  | zero => rfl
  | succ n ih =>
    unfold State.flushRefusals
    split
    · split
      · simp [ih]
      · rfl
    · rfl
@[simp] theorem State.hub_flushRefusals (n : Nat) (s : State) : (State.flushRefusals n s).hub = s.hub := by
  induction n generalizing s with
  | zero => rfl
  | succ n ih =>
    unfold State.flushRefusals
    split
    · split
      · simp [ih]
      · rfl
    · rfl
@[simp] theorem State.bld_flushRefusals (n : Nat) (s : State) : (State.flushRefusals n s).bld = s.bld := by
  induction n generalizing s with
  | zero => rfl
  | succ n ih =>
    unfold State.flushRefusals
    split
    · split
      · simp [ih]
      · rfl
    · rfl
@[simp] theorem State.cmp_flushRefusals (n : Nat) (s : State) : (State.flushRefusals n s).cmp = s.cmp := by
  induction n generalizing s with
  | zero => rfl
  | succ n ih =>
    unfold State.flushRefusals
    split
    · split
      · simp [ih]
      · rfl
    · rfl
@[simp] theorem State.lanes_flushRefusals (n : Nat) (s : State) : (State.flushRefusals n s).lanes = s.lanes := by
  induction n generalizing s with
  | zero => rfl
  | succ n ih =>
    unfold State.flushRefusals
    split
    · split
      · simp [ih]
      · rfl
    · rfl
@[simp] theorem State.synthLost_flushRefusals (n : Nat) (s : State) : (State.flushRefusals n s).synthLost = s.synthLost := by
  induction n generalizing s with
  | zero => rfl
  | succ n ih =>
    unfold State.flushRefusals
    split
    · split
      · simp [ih]
      · rfl
    · rfl
@[simp] theorem State.pinTest_flushRefusals (n : Nat) (s : State) : (State.flushRefusals n s).pinTest = s.pinTest := by
  induction n generalizing s with
  | zero => rfl
  | succ n ih =>
    unfold State.flushRefusals
    split
    · split
      · simp [ih]
      · rfl
    · rfl
@[simp] theorem State.north_flushRefusals (n : Nat) (s : State) : (State.flushRefusals n s).north = s.north := by
  induction n generalizing s with
  | zero => rfl
  | succ n ih =>
    unfold State.flushRefusals
    split
    · split
      · simp [ih]
      · rfl
    · rfl
@[simp] theorem State.south_flushRefusals (n : Nat) (s : State) : (State.flushRefusals n s).south = s.south := by
  induction n generalizing s with
  | zero => rfl
  | succ n ih =>
    unfold State.flushRefusals
    split
    · split
      · simp [ih]
      · rfl
    · rfl
@[simp] theorem State.pass_flushRefusals (n : Nat) (s : State) : (State.flushRefusals n s).pass = s.pass := by
  induction n generalizing s with
  | zero => rfl
  | succ n ih =>
    unfold State.flushRefusals
    split
    · split
      · simp [ih]
      · rfl
    · rfl
@[simp] theorem State.sched_flushRefusals (n : Nat) (s : State) : (State.flushRefusals n s).sched = s.sched := by
  induction n generalizing s with
  | zero => rfl
  | succ n ih =>
    unfold State.flushRefusals
    split
    · split
      · simp [ih]
      · rfl
    · rfl
@[simp] theorem State.alignPend_flushRefusals (n : Nat) (s : State) : (State.flushRefusals n s).alignPend = s.alignPend := by
  induction n generalizing s with
  | zero => rfl
  | succ n ih =>
    unfold State.flushRefusals
    split
    · split
      · simp [ih]
      · rfl
    · rfl
@[simp] theorem State.out_flushRefusals (n : Nat) (s : State) : (State.flushRefusals n s).out = s.out := by
  induction n generalizing s with
  | zero => rfl
  | succ n ih =>
    unfold State.flushRefusals
    split
    · split
      · simp [ih]
      · rfl
    · rfl
@[simp] theorem State.line_flushRefusals (n : Nat) (s : State) : (State.flushRefusals n s).line = s.line := by
  induction n generalizing s with
  | zero => rfl
  | succ n ih =>
    unfold State.flushRefusals
    split
    · split
      · simp [ih]
      · rfl
    · rfl
@[simp] theorem State.clk_flushRefusals (n : Nat) (s : State) : (State.flushRefusals n s).clk = s.clk := by
  induction n generalizing s with
  | zero => rfl
  | succ n ih =>
    unfold State.flushRefusals
    split
    · split
      · simp [ih]
      · rfl
    · rfl
@[simp] theorem State.plinth_flushRefusals (n : Nat) (s : State) : (State.flushRefusals n s).plinth = s.plinth := by
  induction n generalizing s with
  | zero => rfl
  | succ n ih =>
    unfold State.flushRefusals
    split
    · split
      · simp [ih]
      · rfl
    · rfl
@[simp] theorem State.power_flushRefusals (n : Nat) (s : State) : (State.flushRefusals n s).power = s.power := by
  induction n generalizing s with
  | zero => rfl
  | succ n ih =>
    unfold State.flushRefusals
    split
    · split
      · simp [ih]
      · rfl
    · rfl
@[simp] theorem State.nvm_flushRefusals (n : Nat) (s : State) : (State.flushRefusals n s).nvm = s.nvm := by
  induction n generalizing s with
  | zero => rfl
  | succ n ih =>
    unfold State.flushRefusals
    split
    · split
      · simp [ih]
      · rfl
    · rfl
@[simp] theorem State.hk_flushRefusals (n : Nat) (s : State) : (State.flushRefusals n s).hk = s.hk := by
  induction n generalizing s with
  | zero => rfl
  | succ n ih =>
    unfold State.flushRefusals
    split
    · split
      · simp [ih]
      · rfl
    · rfl
@[simp] theorem State.can_flushRefusals (n : Nat) (s : State) : (State.flushRefusals n s).can = s.can := by
  induction n generalizing s with
  | zero => rfl
  | succ n ih =>
    unfold State.flushRefusals
    split
    · split
      · simp [ih]
      · rfl
    · rfl
@[simp] theorem State.log_flushRefusals (n : Nat) (s : State) : (State.flushRefusals n s).log = s.log := by
  induction n generalizing s with
  | zero => rfl
  | succ n ih =>
    unfold State.flushRefusals
    split
    · split
      · simp [ih]
      · rfl
    · rfl
@[simp] theorem State.frz_flushRefusals (n : Nat) (s : State) : (State.flushRefusals n s).frz = s.frz := by
  induction n generalizing s with
  | zero => rfl
  | succ n ih =>
    unfold State.flushRefusals
    split
    · split
      · simp [ih]
      · rfl
    · rfl
@[simp] theorem State.nv_flushRefusals (n : Nat) (s : State) : (State.flushRefusals n s).nv = s.nv := by
  induction n generalizing s with
  | zero => rfl
  | succ n ih =>
    unfold State.flushRefusals
    split
    · split
      · simp [ih]
      · rfl
    · rfl
@[simp] theorem State.differs_flushRefusals (n : Nat) (s : State) : (State.flushRefusals n s).differs = s.differs := by
  induction n generalizing s with
  | zero => rfl
  | succ n ih =>
    unfold State.flushRefusals
    split
    · split
      · simp [ih]
      · rfl
    · rfl
@[simp] theorem State.lutFix_flushRefusals (n : Nat) (s : State) : (State.flushRefusals n s).lutFix = s.lutFix := by
  induction n generalizing s with
  | zero => rfl
  | succ n ih =>
    unfold State.flushRefusals
    split
    · split
      · simp [ih]
      · rfl
    · rfl
@[simp] theorem State.nt_flushRefusals (n : Nat) (s : State) : (State.flushRefusals n s).nt = s.nt := by
  induction n generalizing s with
  | zero => rfl
  | succ n ih =>
    unfold State.flushRefusals
    split
    · split
      · simp [ih]
      · rfl
    · rfl
@[simp] theorem State.time_flushRefusals (n : Nat) (s : State) : (State.flushRefusals n s).time = s.time := by
  induction n generalizing s with
  | zero => rfl
  | succ n ih =>
    unfold State.flushRefusals
    split
    · split
      · simp [ih]
      · rfl
    · rfl
@[simp] theorem State.capts_flushRefusals (n : Nat) (s : State) : (State.flushRefusals n s).capts = s.capts := by
  induction n generalizing s with
  | zero => rfl
  | succ n ih =>
    unfold State.flushRefusals
    split
    · split
      · simp [ih]
      · rfl
    · rfl

@[simp] theorem State.pending_respond (s : State) (q : Req) (m : Nat) (st : Status) (b : List Byte) : (s.respond q m st b).pending = s.pending := by
  simp [State.respond]
@[simp] theorem State.free_respond (s : State) (q : Req) (m : Nat) (st : Status) (b : List Byte) : (s.respond q m st b).free = s.free := by
  simp [State.respond]
@[simp] theorem State.livePend_respond (s : State) (q : Req) (m : Nat) (st : Status) (b : List Byte) : (s.respond q m st b).livePend = s.livePend := by
  simp [State.respond]
@[simp] theorem State.shadowPend_respond (s : State) (q : Req) (m : Nat) (st : Status) (b : List Byte) : (s.respond q m st b).shadowPend = s.shadowPend := by
  simp [State.respond]
@[simp] theorem State.applied_respond (s : State) (q : Req) (m : Nat) (st : Status) (b : List Byte) : (s.respond q m st b).applied = s.applied := by
  simp [State.respond]
@[simp] theorem State.tick_respond (s : State) (q : Req) (m : Nat) (st : Status) (b : List Byte) : (s.respond q m st b).tick = s.tick := by
  simp [State.respond]
@[simp] theorem State.chans_respond (s : State) (q : Req) (m : Nat) (st : Status) (b : List Byte) : (s.respond q m st b).chans = s.chans := by
  simp [State.respond]
@[simp] theorem State.fastOr_respond (s : State) (q : Req) (m : Nat) (st : Status) (b : List Byte) : (s.respond q m st b).fastOr = s.fastOr := by
  simp [State.respond]
@[simp] theorem State.probe_respond (s : State) (q : Req) (m : Nat) (st : Status) (b : List Byte) : (s.respond q m st b).probe = s.probe := by
  simp [State.respond]
@[simp] theorem State.calUnit_respond (s : State) (q : Req) (m : Nat) (st : Status) (b : List Byte) : (s.respond q m st b).calUnit = s.calUnit := by
  simp [State.respond]
@[simp] theorem State.rmGate_respond (s : State) (q : Req) (m : Nat) (st : Status) (b : List Byte) : (s.respond q m st b).rmGate = s.rmGate := by
  simp [State.respond]
@[simp] theorem State.rateHist_respond (s : State) (q : Req) (m : Nat) (st : Status) (b : List Byte) : (s.respond q m st b).rateHist = s.rateHist := by
  simp [State.respond]
@[simp] theorem State.groups_respond (s : State) (q : Req) (m : Nat) (st : Status) (b : List Byte) : (s.respond q m st b).groups = s.groups := by
  simp [State.respond]
@[simp] theorem State.asm_respond (s : State) (q : Req) (m : Nat) (st : Status) (b : List Byte) : (s.respond q m st b).asm = s.asm := by
  simp [State.respond]
@[simp] theorem State.lb_respond (s : State) (q : Req) (m : Nat) (st : Status) (b : List Byte) : (s.respond q m st b).lb = s.lb := by
  simp [State.respond]
@[simp] theorem State.spm_respond (s : State) (q : Req) (m : Nat) (st : Status) (b : List Byte) : (s.respond q m st b).spm = s.spm := by
  simp [State.respond]
@[simp] theorem State.soiled_respond (s : State) (q : Req) (m : Nat) (st : Status) (b : List Byte) : (s.respond q m st b).soiled = s.soiled := by
  simp [State.respond]
@[simp] theorem State.rankMem_respond (s : State) (q : Req) (m : Nat) (st : Status) (b : List Byte) : (s.respond q m st b).rankMem = s.rankMem := by
  simp [State.respond]
@[simp] theorem State.memUnit_respond (s : State) (q : Req) (m : Nat) (st : Status) (b : List Byte) : (s.respond q m st b).memUnit = s.memUnit := by
  simp [State.respond]
@[simp] theorem State.watch_respond (s : State) (q : Req) (m : Nat) (st : Status) (b : List Byte) : (s.respond q m st b).watch = s.watch := by
  simp [State.respond]
@[simp] theorem State.query_respond (s : State) (q : Req) (m : Nat) (st : Status) (b : List Byte) : (s.respond q m st b).query = s.query := by
  simp [State.respond]
@[simp] theorem State.hub_respond (s : State) (q : Req) (m : Nat) (st : Status) (b : List Byte) : (s.respond q m st b).hub = s.hub := by
  simp [State.respond]
@[simp] theorem State.bld_respond (s : State) (q : Req) (m : Nat) (st : Status) (b : List Byte) : (s.respond q m st b).bld = s.bld := by
  simp [State.respond]
@[simp] theorem State.cmp_respond (s : State) (q : Req) (m : Nat) (st : Status) (b : List Byte) : (s.respond q m st b).cmp = s.cmp := by
  simp [State.respond]
@[simp] theorem State.lanes_respond (s : State) (q : Req) (m : Nat) (st : Status) (b : List Byte) : (s.respond q m st b).lanes = s.lanes := by
  simp [State.respond]
@[simp] theorem State.synthLost_respond (s : State) (q : Req) (m : Nat) (st : Status) (b : List Byte) : (s.respond q m st b).synthLost = s.synthLost := by
  simp [State.respond]
@[simp] theorem State.pinTest_respond (s : State) (q : Req) (m : Nat) (st : Status) (b : List Byte) : (s.respond q m st b).pinTest = s.pinTest := by
  simp [State.respond]
@[simp] theorem State.north_respond (s : State) (q : Req) (m : Nat) (st : Status) (b : List Byte) : (s.respond q m st b).north = s.north := by
  simp [State.respond]
@[simp] theorem State.south_respond (s : State) (q : Req) (m : Nat) (st : Status) (b : List Byte) : (s.respond q m st b).south = s.south := by
  simp [State.respond]
@[simp] theorem State.pass_respond (s : State) (q : Req) (m : Nat) (st : Status) (b : List Byte) : (s.respond q m st b).pass = s.pass := by
  simp [State.respond]
@[simp] theorem State.sched_respond (s : State) (q : Req) (m : Nat) (st : Status) (b : List Byte) : (s.respond q m st b).sched = s.sched := by
  simp [State.respond]
@[simp] theorem State.alignPend_respond (s : State) (q : Req) (m : Nat) (st : Status) (b : List Byte) : (s.respond q m st b).alignPend = s.alignPend := by
  simp [State.respond]
@[simp] theorem State.out_respond (s : State) (q : Req) (m : Nat) (st : Status) (b : List Byte) : (s.respond q m st b).out = s.out := by
  simp [State.respond]
@[simp] theorem State.line_respond (s : State) (q : Req) (m : Nat) (st : Status) (b : List Byte) : (s.respond q m st b).line = s.line := by
  simp [State.respond]
@[simp] theorem State.clk_respond (s : State) (q : Req) (m : Nat) (st : Status) (b : List Byte) : (s.respond q m st b).clk = s.clk := by
  simp [State.respond]
@[simp] theorem State.plinth_respond (s : State) (q : Req) (m : Nat) (st : Status) (b : List Byte) : (s.respond q m st b).plinth = s.plinth := by
  simp [State.respond]
@[simp] theorem State.power_respond (s : State) (q : Req) (m : Nat) (st : Status) (b : List Byte) : (s.respond q m st b).power = s.power := by
  simp [State.respond]
@[simp] theorem State.nvm_respond (s : State) (q : Req) (m : Nat) (st : Status) (b : List Byte) : (s.respond q m st b).nvm = s.nvm := by
  simp [State.respond]
@[simp] theorem State.hk_respond (s : State) (q : Req) (m : Nat) (st : Status) (b : List Byte) : (s.respond q m st b).hk = s.hk := by
  simp [State.respond]
@[simp] theorem State.can_respond (s : State) (q : Req) (m : Nat) (st : Status) (b : List Byte) : (s.respond q m st b).can = s.can := by
  simp [State.respond]
@[simp] theorem State.log_respond (s : State) (q : Req) (m : Nat) (st : Status) (b : List Byte) : (s.respond q m st b).log = s.log := by
  simp [State.respond]
@[simp] theorem State.frz_respond (s : State) (q : Req) (m : Nat) (st : Status) (b : List Byte) : (s.respond q m st b).frz = s.frz := by
  simp [State.respond]
@[simp] theorem State.nv_respond (s : State) (q : Req) (m : Nat) (st : Status) (b : List Byte) : (s.respond q m st b).nv = s.nv := by
  simp [State.respond]
@[simp] theorem State.differs_respond (s : State) (q : Req) (m : Nat) (st : Status) (b : List Byte) : (s.respond q m st b).differs = s.differs := by
  simp [State.respond]
@[simp] theorem State.lutFix_respond (s : State) (q : Req) (m : Nat) (st : Status) (b : List Byte) : (s.respond q m st b).lutFix = s.lutFix := by
  simp [State.respond]
@[simp] theorem State.nt_respond (s : State) (q : Req) (m : Nat) (st : Status) (b : List Byte) : (s.respond q m st b).nt = s.nt := by
  simp [State.respond]
@[simp] theorem State.time_respond (s : State) (q : Req) (m : Nat) (st : Status) (b : List Byte) : (s.respond q m st b).time = s.time := by
  simp [State.respond]
@[simp] theorem State.capts_respond (s : State) (q : Req) (m : Nat) (st : Status) (b : List Byte) : (s.respond q m st b).capts = s.capts := by
  simp [State.respond]

@[simp] theorem State.pending_respWrite (s : State) (q : Req) (k : Nat) (st : Status) (x : Nat) : (s.respWrite q k st x).pending = s.pending := by simp [State.respWrite]
@[simp] theorem State.free_respWrite (s : State) (q : Req) (k : Nat) (st : Status) (x : Nat) : (s.respWrite q k st x).free = s.free := by simp [State.respWrite]
@[simp] theorem State.livePend_respWrite (s : State) (q : Req) (k : Nat) (st : Status) (x : Nat) : (s.respWrite q k st x).livePend = s.livePend := by simp [State.respWrite]
@[simp] theorem State.shadowPend_respWrite (s : State) (q : Req) (k : Nat) (st : Status) (x : Nat) : (s.respWrite q k st x).shadowPend = s.shadowPend := by simp [State.respWrite]
@[simp] theorem State.applied_respWrite (s : State) (q : Req) (k : Nat) (st : Status) (x : Nat) : (s.respWrite q k st x).applied = s.applied := by simp [State.respWrite]
@[simp] theorem State.tick_respWrite (s : State) (q : Req) (k : Nat) (st : Status) (x : Nat) : (s.respWrite q k st x).tick = s.tick := by simp [State.respWrite]
@[simp] theorem State.chans_respWrite (s : State) (q : Req) (k : Nat) (st : Status) (x : Nat) : (s.respWrite q k st x).chans = s.chans := by simp [State.respWrite]
@[simp] theorem State.fastOr_respWrite (s : State) (q : Req) (k : Nat) (st : Status) (x : Nat) : (s.respWrite q k st x).fastOr = s.fastOr := by simp [State.respWrite]
@[simp] theorem State.probe_respWrite (s : State) (q : Req) (k : Nat) (st : Status) (x : Nat) : (s.respWrite q k st x).probe = s.probe := by simp [State.respWrite]
@[simp] theorem State.calUnit_respWrite (s : State) (q : Req) (k : Nat) (st : Status) (x : Nat) : (s.respWrite q k st x).calUnit = s.calUnit := by simp [State.respWrite]
@[simp] theorem State.rmGate_respWrite (s : State) (q : Req) (k : Nat) (st : Status) (x : Nat) : (s.respWrite q k st x).rmGate = s.rmGate := by simp [State.respWrite]
@[simp] theorem State.rateHist_respWrite (s : State) (q : Req) (k : Nat) (st : Status) (x : Nat) : (s.respWrite q k st x).rateHist = s.rateHist := by simp [State.respWrite]
@[simp] theorem State.groups_respWrite (s : State) (q : Req) (k : Nat) (st : Status) (x : Nat) : (s.respWrite q k st x).groups = s.groups := by simp [State.respWrite]
@[simp] theorem State.asm_respWrite (s : State) (q : Req) (k : Nat) (st : Status) (x : Nat) : (s.respWrite q k st x).asm = s.asm := by simp [State.respWrite]
@[simp] theorem State.lb_respWrite (s : State) (q : Req) (k : Nat) (st : Status) (x : Nat) : (s.respWrite q k st x).lb = s.lb := by simp [State.respWrite]
@[simp] theorem State.spm_respWrite (s : State) (q : Req) (k : Nat) (st : Status) (x : Nat) : (s.respWrite q k st x).spm = s.spm := by simp [State.respWrite]
@[simp] theorem State.soiled_respWrite (s : State) (q : Req) (k : Nat) (st : Status) (x : Nat) : (s.respWrite q k st x).soiled = s.soiled := by simp [State.respWrite]
@[simp] theorem State.rankMem_respWrite (s : State) (q : Req) (k : Nat) (st : Status) (x : Nat) : (s.respWrite q k st x).rankMem = s.rankMem := by simp [State.respWrite]
@[simp] theorem State.memUnit_respWrite (s : State) (q : Req) (k : Nat) (st : Status) (x : Nat) : (s.respWrite q k st x).memUnit = s.memUnit := by simp [State.respWrite]
@[simp] theorem State.watch_respWrite (s : State) (q : Req) (k : Nat) (st : Status) (x : Nat) : (s.respWrite q k st x).watch = s.watch := by simp [State.respWrite]
@[simp] theorem State.query_respWrite (s : State) (q : Req) (k : Nat) (st : Status) (x : Nat) : (s.respWrite q k st x).query = s.query := by simp [State.respWrite]
@[simp] theorem State.hub_respWrite (s : State) (q : Req) (k : Nat) (st : Status) (x : Nat) : (s.respWrite q k st x).hub = s.hub := by simp [State.respWrite]
@[simp] theorem State.bld_respWrite (s : State) (q : Req) (k : Nat) (st : Status) (x : Nat) : (s.respWrite q k st x).bld = s.bld := by simp [State.respWrite]
@[simp] theorem State.cmp_respWrite (s : State) (q : Req) (k : Nat) (st : Status) (x : Nat) : (s.respWrite q k st x).cmp = s.cmp := by simp [State.respWrite]
@[simp] theorem State.lanes_respWrite (s : State) (q : Req) (k : Nat) (st : Status) (x : Nat) : (s.respWrite q k st x).lanes = s.lanes := by simp [State.respWrite]
@[simp] theorem State.synthLost_respWrite (s : State) (q : Req) (k : Nat) (st : Status) (x : Nat) : (s.respWrite q k st x).synthLost = s.synthLost := by simp [State.respWrite]
@[simp] theorem State.pinTest_respWrite (s : State) (q : Req) (k : Nat) (st : Status) (x : Nat) : (s.respWrite q k st x).pinTest = s.pinTest := by simp [State.respWrite]
@[simp] theorem State.north_respWrite (s : State) (q : Req) (k : Nat) (st : Status) (x : Nat) : (s.respWrite q k st x).north = s.north := by simp [State.respWrite]
@[simp] theorem State.south_respWrite (s : State) (q : Req) (k : Nat) (st : Status) (x : Nat) : (s.respWrite q k st x).south = s.south := by simp [State.respWrite]
@[simp] theorem State.pass_respWrite (s : State) (q : Req) (k : Nat) (st : Status) (x : Nat) : (s.respWrite q k st x).pass = s.pass := by simp [State.respWrite]
@[simp] theorem State.sched_respWrite (s : State) (q : Req) (k : Nat) (st : Status) (x : Nat) : (s.respWrite q k st x).sched = s.sched := by simp [State.respWrite]
@[simp] theorem State.alignPend_respWrite (s : State) (q : Req) (k : Nat) (st : Status) (x : Nat) : (s.respWrite q k st x).alignPend = s.alignPend := by simp [State.respWrite]
@[simp] theorem State.out_respWrite (s : State) (q : Req) (k : Nat) (st : Status) (x : Nat) : (s.respWrite q k st x).out = s.out := by simp [State.respWrite]
@[simp] theorem State.line_respWrite (s : State) (q : Req) (k : Nat) (st : Status) (x : Nat) : (s.respWrite q k st x).line = s.line := by simp [State.respWrite]
@[simp] theorem State.clk_respWrite (s : State) (q : Req) (k : Nat) (st : Status) (x : Nat) : (s.respWrite q k st x).clk = s.clk := by simp [State.respWrite]
@[simp] theorem State.plinth_respWrite (s : State) (q : Req) (k : Nat) (st : Status) (x : Nat) : (s.respWrite q k st x).plinth = s.plinth := by simp [State.respWrite]
@[simp] theorem State.power_respWrite (s : State) (q : Req) (k : Nat) (st : Status) (x : Nat) : (s.respWrite q k st x).power = s.power := by simp [State.respWrite]
@[simp] theorem State.nvm_respWrite (s : State) (q : Req) (k : Nat) (st : Status) (x : Nat) : (s.respWrite q k st x).nvm = s.nvm := by simp [State.respWrite]
@[simp] theorem State.hk_respWrite (s : State) (q : Req) (k : Nat) (st : Status) (x : Nat) : (s.respWrite q k st x).hk = s.hk := by simp [State.respWrite]
@[simp] theorem State.can_respWrite (s : State) (q : Req) (k : Nat) (st : Status) (x : Nat) : (s.respWrite q k st x).can = s.can := by simp [State.respWrite]
@[simp] theorem State.log_respWrite (s : State) (q : Req) (k : Nat) (st : Status) (x : Nat) : (s.respWrite q k st x).log = s.log := by simp [State.respWrite]
@[simp] theorem State.frz_respWrite (s : State) (q : Req) (k : Nat) (st : Status) (x : Nat) : (s.respWrite q k st x).frz = s.frz := by simp [State.respWrite]
@[simp] theorem State.nv_respWrite (s : State) (q : Req) (k : Nat) (st : Status) (x : Nat) : (s.respWrite q k st x).nv = s.nv := by simp [State.respWrite]
@[simp] theorem State.differs_respWrite (s : State) (q : Req) (k : Nat) (st : Status) (x : Nat) : (s.respWrite q k st x).differs = s.differs := by simp [State.respWrite]
@[simp] theorem State.lutFix_respWrite (s : State) (q : Req) (k : Nat) (st : Status) (x : Nat) : (s.respWrite q k st x).lutFix = s.lutFix := by simp [State.respWrite]
@[simp] theorem State.nt_respWrite (s : State) (q : Req) (k : Nat) (st : Status) (x : Nat) : (s.respWrite q k st x).nt = s.nt := by simp [State.respWrite]
@[simp] theorem State.time_respWrite (s : State) (q : Req) (k : Nat) (st : Status) (x : Nat) : (s.respWrite q k st x).time = s.time := by simp [State.respWrite]
@[simp] theorem State.capts_respWrite (s : State) (q : Req) (k : Nat) (st : Status) (x : Nat) : (s.respWrite q k st x).capts = s.capts := by simp [State.respWrite]

@[simp] theorem State.pending_respRead (s : State) (q : Req) (k c : Nat) (v : List Byte) : (s.respRead q k c v).pending = s.pending := by simp [State.respRead]
@[simp] theorem State.free_respRead (s : State) (q : Req) (k c : Nat) (v : List Byte) : (s.respRead q k c v).free = s.free := by simp [State.respRead]
@[simp] theorem State.livePend_respRead (s : State) (q : Req) (k c : Nat) (v : List Byte) : (s.respRead q k c v).livePend = s.livePend := by simp [State.respRead]
@[simp] theorem State.shadowPend_respRead (s : State) (q : Req) (k c : Nat) (v : List Byte) : (s.respRead q k c v).shadowPend = s.shadowPend := by simp [State.respRead]
@[simp] theorem State.applied_respRead (s : State) (q : Req) (k c : Nat) (v : List Byte) : (s.respRead q k c v).applied = s.applied := by simp [State.respRead]
@[simp] theorem State.tick_respRead (s : State) (q : Req) (k c : Nat) (v : List Byte) : (s.respRead q k c v).tick = s.tick := by simp [State.respRead]
@[simp] theorem State.chans_respRead (s : State) (q : Req) (k c : Nat) (v : List Byte) : (s.respRead q k c v).chans = s.chans := by simp [State.respRead]
@[simp] theorem State.fastOr_respRead (s : State) (q : Req) (k c : Nat) (v : List Byte) : (s.respRead q k c v).fastOr = s.fastOr := by simp [State.respRead]
@[simp] theorem State.probe_respRead (s : State) (q : Req) (k c : Nat) (v : List Byte) : (s.respRead q k c v).probe = s.probe := by simp [State.respRead]
@[simp] theorem State.calUnit_respRead (s : State) (q : Req) (k c : Nat) (v : List Byte) : (s.respRead q k c v).calUnit = s.calUnit := by simp [State.respRead]
@[simp] theorem State.rmGate_respRead (s : State) (q : Req) (k c : Nat) (v : List Byte) : (s.respRead q k c v).rmGate = s.rmGate := by simp [State.respRead]
@[simp] theorem State.rateHist_respRead (s : State) (q : Req) (k c : Nat) (v : List Byte) : (s.respRead q k c v).rateHist = s.rateHist := by simp [State.respRead]
@[simp] theorem State.groups_respRead (s : State) (q : Req) (k c : Nat) (v : List Byte) : (s.respRead q k c v).groups = s.groups := by simp [State.respRead]
@[simp] theorem State.asm_respRead (s : State) (q : Req) (k c : Nat) (v : List Byte) : (s.respRead q k c v).asm = s.asm := by simp [State.respRead]
@[simp] theorem State.lb_respRead (s : State) (q : Req) (k c : Nat) (v : List Byte) : (s.respRead q k c v).lb = s.lb := by simp [State.respRead]
@[simp] theorem State.spm_respRead (s : State) (q : Req) (k c : Nat) (v : List Byte) : (s.respRead q k c v).spm = s.spm := by simp [State.respRead]
@[simp] theorem State.soiled_respRead (s : State) (q : Req) (k c : Nat) (v : List Byte) : (s.respRead q k c v).soiled = s.soiled := by simp [State.respRead]
@[simp] theorem State.rankMem_respRead (s : State) (q : Req) (k c : Nat) (v : List Byte) : (s.respRead q k c v).rankMem = s.rankMem := by simp [State.respRead]
@[simp] theorem State.memUnit_respRead (s : State) (q : Req) (k c : Nat) (v : List Byte) : (s.respRead q k c v).memUnit = s.memUnit := by simp [State.respRead]
@[simp] theorem State.watch_respRead (s : State) (q : Req) (k c : Nat) (v : List Byte) : (s.respRead q k c v).watch = s.watch := by simp [State.respRead]
@[simp] theorem State.query_respRead (s : State) (q : Req) (k c : Nat) (v : List Byte) : (s.respRead q k c v).query = s.query := by simp [State.respRead]
@[simp] theorem State.hub_respRead (s : State) (q : Req) (k c : Nat) (v : List Byte) : (s.respRead q k c v).hub = s.hub := by simp [State.respRead]
@[simp] theorem State.bld_respRead (s : State) (q : Req) (k c : Nat) (v : List Byte) : (s.respRead q k c v).bld = s.bld := by simp [State.respRead]
@[simp] theorem State.cmp_respRead (s : State) (q : Req) (k c : Nat) (v : List Byte) : (s.respRead q k c v).cmp = s.cmp := by simp [State.respRead]
@[simp] theorem State.lanes_respRead (s : State) (q : Req) (k c : Nat) (v : List Byte) : (s.respRead q k c v).lanes = s.lanes := by simp [State.respRead]
@[simp] theorem State.synthLost_respRead (s : State) (q : Req) (k c : Nat) (v : List Byte) : (s.respRead q k c v).synthLost = s.synthLost := by simp [State.respRead]
@[simp] theorem State.pinTest_respRead (s : State) (q : Req) (k c : Nat) (v : List Byte) : (s.respRead q k c v).pinTest = s.pinTest := by simp [State.respRead]
@[simp] theorem State.north_respRead (s : State) (q : Req) (k c : Nat) (v : List Byte) : (s.respRead q k c v).north = s.north := by simp [State.respRead]
@[simp] theorem State.south_respRead (s : State) (q : Req) (k c : Nat) (v : List Byte) : (s.respRead q k c v).south = s.south := by simp [State.respRead]
@[simp] theorem State.pass_respRead (s : State) (q : Req) (k c : Nat) (v : List Byte) : (s.respRead q k c v).pass = s.pass := by simp [State.respRead]
@[simp] theorem State.sched_respRead (s : State) (q : Req) (k c : Nat) (v : List Byte) : (s.respRead q k c v).sched = s.sched := by simp [State.respRead]
@[simp] theorem State.alignPend_respRead (s : State) (q : Req) (k c : Nat) (v : List Byte) : (s.respRead q k c v).alignPend = s.alignPend := by simp [State.respRead]
@[simp] theorem State.out_respRead (s : State) (q : Req) (k c : Nat) (v : List Byte) : (s.respRead q k c v).out = s.out := by simp [State.respRead]
@[simp] theorem State.line_respRead (s : State) (q : Req) (k c : Nat) (v : List Byte) : (s.respRead q k c v).line = s.line := by simp [State.respRead]
@[simp] theorem State.clk_respRead (s : State) (q : Req) (k c : Nat) (v : List Byte) : (s.respRead q k c v).clk = s.clk := by simp [State.respRead]
@[simp] theorem State.plinth_respRead (s : State) (q : Req) (k c : Nat) (v : List Byte) : (s.respRead q k c v).plinth = s.plinth := by simp [State.respRead]
@[simp] theorem State.power_respRead (s : State) (q : Req) (k c : Nat) (v : List Byte) : (s.respRead q k c v).power = s.power := by simp [State.respRead]
@[simp] theorem State.nvm_respRead (s : State) (q : Req) (k c : Nat) (v : List Byte) : (s.respRead q k c v).nvm = s.nvm := by simp [State.respRead]
@[simp] theorem State.hk_respRead (s : State) (q : Req) (k c : Nat) (v : List Byte) : (s.respRead q k c v).hk = s.hk := by simp [State.respRead]
@[simp] theorem State.can_respRead (s : State) (q : Req) (k c : Nat) (v : List Byte) : (s.respRead q k c v).can = s.can := by simp [State.respRead]
@[simp] theorem State.log_respRead (s : State) (q : Req) (k c : Nat) (v : List Byte) : (s.respRead q k c v).log = s.log := by simp [State.respRead]
@[simp] theorem State.frz_respRead (s : State) (q : Req) (k c : Nat) (v : List Byte) : (s.respRead q k c v).frz = s.frz := by simp [State.respRead]
@[simp] theorem State.nv_respRead (s : State) (q : Req) (k c : Nat) (v : List Byte) : (s.respRead q k c v).nv = s.nv := by simp [State.respRead]
@[simp] theorem State.differs_respRead (s : State) (q : Req) (k c : Nat) (v : List Byte) : (s.respRead q k c v).differs = s.differs := by simp [State.respRead]
@[simp] theorem State.lutFix_respRead (s : State) (q : Req) (k c : Nat) (v : List Byte) : (s.respRead q k c v).lutFix = s.lutFix := by simp [State.respRead]
@[simp] theorem State.nt_respRead (s : State) (q : Req) (k c : Nat) (v : List Byte) : (s.respRead q k c v).nt = s.nt := by simp [State.respRead]
@[simp] theorem State.time_respRead (s : State) (q : Req) (k c : Nat) (v : List Byte) : (s.respRead q k c v).time = s.time := by simp [State.respRead]
@[simp] theorem State.capts_respRead (s : State) (q : Req) (k c : Nat) (v : List Byte) : (s.respRead q k c v).capts = s.capts := by simp [State.respRead]

/-! ### Objects -/

/-- A message sent changes the alive counter of its path only. -/
theorem State.o_send (s : State) (p : Path) (m : Msg) {k : Nat} (h : k ≠ txAlive p) : (s.send p m).o k = s.o k := by
  have hw : (s.wrapBy 4 (txAlive p) 1).o k = s.o k := by rw [State.o_wrapBy, if_neg h]
  cases p <;> exact hw

theorem State.o_keepSend (s : State) (p : Path) (m : Msg) {k : Nat} (h : k ≠ txAlive p) : (s.keepSend p m).o k = s.o k :=
  State.o_send _ p m h

theorem State.o_flushRefusals (n : Nat) (s : State) {k : Nat} (h : ∀ p, k ≠ txAlive p) : (State.flushRefusals n s).o k = s.o k := by
  induction n generalizing s with
  | zero => rfl
  | succ n ih =>
    unfold State.flushRefusals
    split
    · split
      · rw [ih, State.o_keepSend _ _ _ (h _)]; rfl
      · rfl
    · rfl

/-- A response changes no object but the transmit alive counters. -/
theorem State.o_respond (s : State) (q : Req) (m : Nat) (st : Status) (b : List Byte) {k : Nat} (h : ∀ p, k ≠ txAlive p) :
    (s.respond q m st b).o k = s.o k := by
  unfold State.respond
  rw [State.o_flushRefusals _ _ h, State.o_keepSend _ _ _ (h _)]; rfl

/-- The objects of every request's frame: none but the transmit alive counters change. -/
theorem State.aliveKey {k : Nat} (h : k ≠ Obj.CHK_ALIVE_TXN ∧ k ≠ Obj.CHK_ALIVE_TXC) : ∀ p, k ≠ txAlive p := by
  intro p; cases p
  · exact h.1
  · exact h.2

/-! ### The response itself -/

theorem State.mem_out_send (s : State) (p p' : Path) (m x : Msg) (h : x ∈ s.outOf p') : x ∈ (s.send p m).outOf p' := by
  cases p <;> cases p' <;> simp [State.outOf, State.send] at h ⊢ <;> first | exact h | exact .inl h

theorem State.mem_out_keepSend (s : State) (p p' : Path) (m x : Msg) (h : x ∈ s.outOf p') : x ∈ (s.keepSend p m).outOf p' := by
  refine State.mem_out_send _ p p' m x ?_
  cases p <;> cases p' <;> exact h

theorem State.mem_out_flush (n : Nat) (s : State) (p : Path) (x : Msg) (h : x ∈ s.outOf p) :
    x ∈ (State.flushRefusals n s).outOf p := by
  induction n generalizing s with
  | zero => exact h
  | succ n ih =>
    unfold State.flushRefusals
    split
    · split
      · exact ih _ (State.mem_out_keepSend _ _ _ _ _ (by cases p <;> exact h))
      · exact h
    · exact h

theorem State.sent_out (s : State) (p : Path) (m : Msg) : { m with alive := s.o (txAlive p) } ∈ (s.send p m).outOf p := by
  cases p <;> simp [State.outOf, State.send]

/-- The response to a request goes out on the path the request came on. -/
theorem State.respond_answers (s : State) (q : Req) (m : Nat) (st : Status) (b : List Byte) :
    (s.respond q m st b).answers q m st b := by
  unfold State.respond
  refine ⟨_, State.mem_out_flush _ _ _ _ (State.sent_out _ _ _), ?_⟩
  exact ⟨rfl, rfl, rfl, rfl, rfl, rfl⟩

/-- What a response that changes nothing else comes to. -/
theorem State.respond_only (s : State) (q : Req) (m : Nat) (st : Status) (b : List Byte) : (s.respond q m st b).onlyAnswered s q m st b := by
  refine ⟨State.respond_answers s q m st b, fun k hk => ?_, ?_⟩
  · simp at hk
    exact State.o_respond s q m st b (State.aliveKey hk)
  · simp

/-- A host write that passes its checks and waits for the tick. -/
theorem State.hostWrite_waits (s : State) (q : Req) (k v : Nat) (e : Bool) (h : e = false ∨ s.isExpert q = true) :
    (s.hostWrite q k e .ok (s.pendLive k v)).writeWaits s q k v := by
  have hx : (e && !s.isExpert q) = false := by rcases h with h | h <;> simp [h]
  unfold State.hostWrite
  rw [hx]
  refine ⟨by simp; rfl, State.respond_answers _ q _ _ _, fun j hj => ?_, by simp⟩
  simp at hj
  exact State.o_respond _ q _ _ _ (State.aliveKey hj)

/-- A host write that fails its own check. -/
theorem State.hostWrite_refused (s t : State) (q : Req) (k : Nat) (e : Bool) (st : Status) (h : e = false ∨ s.isExpert q = true)
    (hs : st ≠ .ok) : (s.hostWrite q k e st t).writeRefused s q k st := by
  have hx : (e && !s.isExpert q) = false := by rcases h with h | h <;> simp [h]
  have hw : s.respWrite q k st 0 = s.respond q 0x02 st (keyBytes k ++ bytesLE 6 0) := by simp [State.respWrite, hs]
  unfold State.hostWrite State.writeRefused
  rw [hx]
  cases st <;> first | exact absurd rfl hs | (simp only [Bool.false_eq_true, if_false, hw]; exact State.respond_only _ _ _ _ _)

/-- A host write that only an expert may make, from a source without a session. -/
theorem State.hostWrite_expert (s t : State) (q : Req) (k : Nat) (c : Status) (h : s.isExpert q = false) :
    (s.hostWrite q k true c t).writeRefused s q k .expertRequired := by
  have hw : s.respWrite q k .expertRequired 0 = s.respond q 0x02 .expertRequired (keyBytes k ++ bytesLE 6 0) := by
    simp [State.respWrite]
  unfold State.hostWrite State.writeRefused
  simp only [h, Bool.not_false, Bool.and_self, if_true, hw]
  exact State.respond_only _ _ _ _ _

end Sys2Proof.Machine
end

