-- ==== Sys2Proof/Laws/WfBase.lean ====
section
/-! SUPPORT. The canonical form of the stored data: the steps from which every operation's law is built. -/
namespace Sys2Proof.Machine

set_option Elab.async false

/-- The canonical form of the five stores. -/
def wfParts (obj : List (Nat × Nat)) (spm : Memory) (rankMem : Vector Memory 3) (nvm fwRam : Memory) : Bool :=
  canonical objDefault obj && Memory.wf spm && rankMem.toList.all Memory.wf && Memory.wf nvm && Memory.wf fwRam

/-- A state written out. -/
theorem wf_lit
    (pending : List Instr) (free : Nat) (obj : List (Nat × Nat)) (livePend : List (Nat × Nat)) (shadowPend : List (Nat
    × Nat)) (applied : List (Nat × List (Nat × Nat))) (tick : Nat) (chans : Vector Chan 128) (fastOr : FastOr) (probe
    : Probe) (calUnit : CalUnit) (rmGate : Nat) (rateHist : List Nat) (groups : Vector Group 8) (asm : Asm) (lb : Lb)
    (spm : Memory) (soiled : List (Nat × Nat)) (rankMem : Vector Memory 3) (memUnit : MemUnit) (watch : Watch) (query : QueryUnit) (hub : Hub) (bld : Builders)
    (cmp : Cmp) (lanes : Vector LaneUnit 25) (synthLost : Nat) (pinTest : Bool) (north : North) (south : Vector
    SouthLink 8) (pass : Vector PassLink 8) (sched : List Sched) (alignPend : Option (Nat × Nat)) (out : List Sent)
    (line : Line) (clk : Clock) (plinth : Plinth) (power : Power) (nvm : Memory) (hk : Hk) (cufel : Cufel) (can : Can) (log : Log)
    (frz : Freeze) (nv : NvUnit) (differs : List Differs) (lutFix : List LutFix) (nt : Nat) (time : NetTime) (capts :
    List Capture) :
    State.wf
      (State.mk pending free obj livePend shadowPend applied tick chans fastOr probe calUnit rmGate rateHist groups
        asm lb spm soiled rankMem memUnit watch query hub bld cmp lanes synthLost pinTest north south pass sched alignPend out line
        clk plinth power nvm hk cufel can log frz nv differs lutFix nt time capts) =
      wfParts obj spm rankMem nvm memUnit.fwRam := rfl

/-- The stores of a state. -/
theorem wf_parts {t : State} (h : t.wf = true) : wfParts t.obj t.spm t.rankMem t.nvm t.memUnit.fwRam = true := h

/-- A state that holds the same stored data. -/
theorem wf_of (t : State) {u : State} (h : t.wf = true) (ho : u.obj = t.obj) (hs : u.spm = t.spm) (hr : u.rankMem = t.rankMem)
    (hn : u.nvm = t.nvm) (hf : u.memUnit.fwRam = t.memUnit.fwRam := by rfl) : u.wf = true := by
  simpa [State.wf, ho, hs, hr, hn, hf] using h

/-- A state that differs in its scratchpad. -/
theorem wf_spm (t : State) {u : State} (h : t.wf = true) (hs : u.spm.wf = true) (ho : u.obj = t.obj) (hr : u.rankMem = t.rankMem)
    (hn : u.nvm = t.nvm) (hf : u.memUnit.fwRam = t.memUnit.fwRam := by rfl) : u.wf = true := by
  simp only [State.wf, Bool.and_eq_true, ho, hr, hn, hf] at h ⊢
  exact ⟨⟨⟨⟨h.1.1.1.1, hs⟩, h.1.1.2⟩, h.1.2⟩, h.2⟩

/-- A state that differs in its NVM. -/
theorem wf_nvm (t : State) {u : State} (h : t.wf = true) (hn : u.nvm.wf = true) (ho : u.obj = t.obj) (hs : u.spm = t.spm)
    (hr : u.rankMem = t.rankMem) (hf : u.memUnit.fwRam = t.memUnit.fwRam := by rfl) : u.wf = true := by
  simp only [State.wf, Bool.and_eq_true, ho, hr, hs, hf] at h ⊢
  exact ⟨⟨⟨h.1.1.1, h.1.1.2⟩, hn⟩, h.2⟩

theorem wf_obj_part {s : State} (h : s.wf = true) : canonical objDefault s.obj = true := by
  simp only [State.wf, Bool.and_eq_true] at h; exact h.1.1.1.1

theorem wf_spm_part {s : State} (h : s.wf = true) : s.spm.wf = true := by
  simp only [State.wf, Bool.and_eq_true] at h; exact h.1.1.1.2

theorem wf_rank_part {s : State} (h : s.wf = true) (r : Fin 3) : (s.rankMem.get r).wf = true := by
  simp only [State.wf, Bool.and_eq_true, List.all_eq_true] at h
  exact h.1.1.2 _ (by simp [Vector.get])

theorem wf_nvm_part {s : State} (h : s.wf = true) : s.nvm.wf = true := by
  simp only [State.wf, Bool.and_eq_true] at h; exact h.1.2

theorem wf_fw_part {s : State} (h : s.wf = true) : s.memUnit.fwRam.wf = true := by
  simp only [State.wf, Bool.and_eq_true] at h; exact h.2

/-- A state that differs in the firmware RAM. -/
theorem wf_fw (t : State) {u : State} (h : t.wf = true) (hf : u.memUnit.fwRam.wf = true) (ho : u.obj = t.obj)
    (hs : u.spm = t.spm) (hr : u.rankMem = t.rankMem) (hn : u.nvm = t.nvm) : u.wf = true := by
  simp only [State.wf, Bool.and_eq_true, ho, hr, hs, hn] at h ⊢
  exact ⟨h.1, hf⟩

/-- An object's value is replaced. -/
theorem State.setO_wf (s : State) (k v : Nat) (h : s.wf = true) : (s.setO k v).wf = true := by
  have ho := canonical_sset objDefault k v (wf_obj_part h)
  simp only [State.wf, Bool.and_eq_true] at h ⊢
  exact ⟨⟨⟨⟨ho, h.1.1.1.2⟩, h.1.1.2⟩, h.1.2⟩, h.2⟩

/-- A fold keeps what every one of its steps keeps. -/
theorem foldl_wf {β : Type} {f : State → β → State} {l : List β} {s : State} (h : s.wf = true)
    (hf : ∀ (t : State) (x : β), t.wf = true → (f t x).wf = true) : (l.foldl f s).wf = true := by
  induction l generalizing s with
  | nil => exact h
  | cons x r ih => exact ih (hf s x h)

/-- The state of a pair after a fold. -/
theorem foldl_wf_fst {β γ : Type} {f : State × γ → β → State × γ} {l : List β} {s : State × γ} (h : s.1.wf = true)
    (hf : ∀ (t : State × γ) (x : β), t.1.wf = true → (f t x).1.wf = true) : (l.foldl f s).1.wf = true := by
  induction l generalizing s with
  | nil => exact h
  | cons x r ih => exact ih (hf s x h)

/-- An answer that holds a state. -/
theorem wf_some {α : Type} {x : State × α} (h : x.1.wf = true) : ∀ t, some x = some t → t.1.wf = true := by
  intro t e; cases e; exact h

theorem wf_none {α : Type} : ∀ t : State × α, none = some t → t.1.wf = true := by
  intro t e; cases e

theorem wf_some_state {x : State} (h : x.wf = true) : ∀ t, some x = some t → t.wf = true := by
  intro t e; cases e; exact h

theorem wf_none_state : ∀ t : State, none = some t → t.wf = true := by
  intro t e; cases e

/-- The state of a pair that has been taken apart. -/
theorem wf_fst_eq {α : Type} {p : State × α} {t : State} {a : α} (e : p = (t, a)) (h : p.1.wf = true) : t.wf = true := by
  subst e; exact h

theorem wfParts_memWrite {o : List (Nat × Nat)} {m : Memory} {r : Vector Memory 3} {n f : Memory} (a : Nat) (b : List Byte)
    (h : wfParts o m r n f = true) : wfParts o (memWrite m a b) r n f = true := by
  simp only [wfParts, Bool.and_eq_true] at h ⊢
  exact ⟨⟨⟨⟨h.1.1.1.1, memWrite_wf _ _ h.1.1.1.2⟩, h.1.1.2⟩, h.1.2⟩, h.2⟩

theorem wfParts_memPutWord {o : List (Nat × Nat)} {m : Memory} {r : Vector Memory 3} {n f : Memory} (a k w : Nat)
    (h : wfParts o m r n f = true) : wfParts o (memPutWord m a k w) r n f = true := by
  simp only [wfParts, Bool.and_eq_true] at h ⊢
  exact ⟨⟨⟨⟨h.1.1.1.1, memPutWord_wf _ _ _ h.1.1.1.2⟩, h.1.1.2⟩, h.1.2⟩, h.2⟩

theorem wfParts_memZero {o : List (Nat × Nat)} {m : Memory} {r : Vector Memory 3} {n f : Memory} (a k : Nat)
    (h : wfParts o m r n f = true) : wfParts o (memZero m a k) r n f = true := by
  simp only [wfParts, Bool.and_eq_true] at h ⊢
  exact ⟨⟨⟨⟨h.1.1.1.1, memZero_wf _ _ h.1.1.1.2⟩, h.1.1.2⟩, h.1.2⟩, h.2⟩

theorem wfParts_nvmWrite {o : List (Nat × Nat)} {m : Memory} {r : Vector Memory 3} {n f : Memory} (a : Nat) (b : List Byte)
    (h : wfParts o m r n f = true) : wfParts o m r (memWrite n a b) f = true := by
  simp only [wfParts, Bool.and_eq_true] at h ⊢
  exact ⟨⟨⟨h.1.1.1, h.1.1.2⟩, memWrite_wf _ _ h.1.2⟩, h.2⟩

theorem wfParts_nvmZero {o : List (Nat × Nat)} {m : Memory} {r : Vector Memory 3} {n f : Memory} (a k : Nat)
    (h : wfParts o m r n f = true) : wfParts o m r (memZero n a k) f = true := by
  simp only [wfParts, Bool.and_eq_true] at h ⊢
  exact ⟨⟨⟨h.1.1.1, h.1.1.2⟩, memZero_wf _ _ h.1.2⟩, h.2⟩

theorem wfParts_rank {o : List (Nat × Nat)} {m : Memory} {r : Vector Memory 3} {n f : Memory} (k : Fin 3) {x : Memory}
    (h : wfParts o m r n f = true) (hx : x.wf = true) : wfParts o m (r.set k x) n f = true := by
  simp only [wfParts, Bool.and_eq_true, List.all_eq_true] at h ⊢
  refine ⟨⟨⟨h.1.1.1, ?_⟩, h.1.2⟩, h.2⟩
  intro y hy
  simp only [Vector.toList_set] at hy
  rcases List.mem_or_eq_of_mem_set hy with h' | rfl
  · exact h.1.1.2 _ h'
  · exact hx


/-- A fold over a memory. -/
theorem foldl_memWf {β : Type} {f : Memory → β → Memory} {l : List β} {m : Memory} (h : m.wf = true)
    (hf : ∀ (t : Memory) (x : β), t.wf = true → (f t x).wf = true) : (l.foldl f m).wf = true := by
  induction l generalizing m with
  | nil => exact h
  | cons x r ih => exact ih (hf m x h)

/-- Either branch. -/
theorem ite_wf {c : Prop} [Decidable c] {a b : State} (ha : a.wf = true) (hb : b.wf = true) : (if c then a else b).wf = true := by
  split
  · exact ha
  · exact hb

theorem getD_wf {o : Option State} {d : State} (h : ∀ t, o = some t → t.wf = true) (hd : d.wf = true) : (o.getD d).wf = true := by
  cases o with
  | none => exact hd
  | some t => exact h t rfl

/-- A result that holds a state. -/
theorem wf_ok {ε α : Type} {x : State × α} (h : x.1.wf = true) : ∀ t, (Except.ok x : Except ε (State × α)) = .ok t → t.1.wf = true := by
  intro t e; cases e; exact h

theorem wf_error {ε α : Type} {x : ε} : ∀ t : State × α, Except.error x = .ok t → t.1.wf = true := by
  intro t e; cases e

theorem ite_wf_ok {ε α : Type} {c : Prop} [Decidable c] {a b : Except ε (State × α)} (ha : ∀ t, a = .ok t → t.1.wf = true)
    (hb : ∀ t, b = .ok t → t.1.wf = true) : ∀ t, (if c then a else b) = .ok t → t.1.wf = true := by
  split
  · exact ha
  · exact hb

theorem State.reset_wf : State.reset.wf = true := by decide

end Sys2Proof.Machine
end

