-- ==== Sys2Proof/Laws/WfFront.lean ====
section
/-! SUPPORT. The canonical form of the stored data: what each operation keeps, under
the channel front end, the probe, the converters, their calibration and the rate meter. -/
namespace Sys2Proof.Machine

set_option Elab.async false

/-! ### Ops -/

theorem State.bumpBy_wf (s : State) (k : ℕ) (d : ℕ) (hs : s.wf = true) : (State.bumpBy s k d).wf = true := by
  unfold State.bumpBy
  repeat' first
    | with_reducible assumption | with_reducible apply State.setO_wf

theorem State.bump_wf (s : State) (k : ℕ) (hs : s.wf = true) : (State.bump s k).wf = true := by
  unfold State.bump
  repeat' first
    | with_reducible assumption | with_reducible apply State.bumpBy_wf

theorem State.wrapBy_wf (s : State) (n : ℕ) (k : ℕ) (d : ℕ) (hs : s.wf = true)
    : (State.wrapBy s n k d).wf = true := by
  unfold State.wrapBy
  repeat' first
    | with_reducible assumption | with_reducible apply State.setO_wf

theorem State.peak_wf (s : State) (k : ℕ) (v : ℕ) (hs : s.wf = true) : (State.peak s k v).wf = true := by
  unfold State.peak
  repeat' first
    | with_reducible assumption | with_reducible apply State.setO_wf

theorem State.setOb_wf (s : State) (k : ℕ) (n : ℕ) (b : Bool) (hs : s.wf = true)
    : (State.setOb s k n b).wf = true := by
  unfold State.setOb
  repeat' first
    | with_reducible assumption | with_reducible apply State.setO_wf

theorem State.drawn_wf (s : State) (hs : s.wf = true) : (State.drawn s).wf = true := by
  unfold State.drawn
  repeat' first
    | with_reducible assumption | with_reducible apply foldl_wf | with_reducible apply wfParts_memWrite
    | with_reducible apply wfParts_memPutWord | with_reducible apply wfParts_memZero
    | with_reducible apply wfParts_nvmWrite | with_reducible apply wfParts_nvmZero | split | simp only [wf_lit]
    | with_reducible apply wf_parts

theorem State.raiseFault_wf (s : State) (f : ℕ) (c : Ch) (hs : s.wf = true) : (State.raiseFault s f c).wf = true := by
  unfold State.raiseFault
  dsimp only
  repeat' first
    | with_reducible assumption | with_reducible apply foldl_wf | with_reducible apply wfParts_memWrite
    | with_reducible apply wfParts_memPutWord | with_reducible apply wfParts_memZero
    | with_reducible apply wfParts_nvmWrite | with_reducible apply wfParts_nvmZero | split | simp only [wf_lit]
    | with_reducible apply wf_parts

theorem State.noteEvent_wf (s : State) (f : ℕ) (c : Ch) (n : ℕ) (us : ℕ) (hs : s.wf = true)
    : (State.noteEvent s f c n us).wf = true := by
  unfold State.noteEvent
  dsimp only
  repeat' first
    | with_reducible assumption | with_reducible apply State.raiseFault_wf | with_reducible apply foldl_wf
    | with_reducible apply wfParts_memWrite | with_reducible apply wfParts_memPutWord
    | with_reducible apply wfParts_memZero | with_reducible apply wfParts_nvmWrite
    | with_reducible apply wfParts_nvmZero | split | simp only [wf_lit] | with_reducible apply wf_parts

theorem State.ifAwake_wf (s : State) (t : State) (hs : s.wf = true) (ht : t.wf = true)
    : (State.ifAwake s t).wf = true := by
  unfold State.ifAwake
  repeat' first
    | with_reducible assumption | with_reducible apply foldl_wf | split

theorem State.ifServed_wf (s : State) (t : State) (hs : s.wf = true) (ht : t.wf = true)
    : (State.ifServed s t).wf = true := by
  unfold State.ifServed
  repeat' first
    | with_reducible assumption | with_reducible apply foldl_wf | split

theorem State.ifRequest_wf (s : State) (q : Req) (t : State) (hs : s.wf = true) (ht : t.wf = true)
    : (State.ifRequest s q t).wf = true := by
  unfold State.ifRequest
  repeat' first
    | with_reducible assumption | with_reducible apply foldl_wf | split

theorem State.ifTask_wf (s : State) (t : State) (hs : s.wf = true) (ht : t.wf = true)
    : (State.ifTask s t).wf = true := by
  unfold State.ifTask
  repeat' first
    | with_reducible assumption | with_reducible apply foldl_wf | split

theorem State.setChan_wf (s : State) (c : Ch) (x2 : Chan) (hs : s.wf = true) : (State.setChan s c x2).wf = true := by
  unfold State.setChan
  repeat' first
    | with_reducible assumption | with_reducible apply foldl_wf | with_reducible apply wfParts_memWrite
    | with_reducible apply wfParts_memPutWord | with_reducible apply wfParts_memZero
    | with_reducible apply wfParts_nvmWrite | with_reducible apply wfParts_nvmZero | split | simp only [wf_lit]
    | with_reducible apply wf_parts

theorem State.setGroup_wf (s : State) (g : Grp) (x2 : Group) (hs : s.wf = true)
    : (State.setGroup s g x2).wf = true := by
  unfold State.setGroup
  repeat' first
    | with_reducible assumption | with_reducible apply foldl_wf | with_reducible apply wfParts_memWrite
    | with_reducible apply wfParts_memPutWord | with_reducible apply wfParts_memZero
    | with_reducible apply wfParts_nvmWrite | with_reducible apply wfParts_nvmZero | split | simp only [wf_lit]
    | with_reducible apply wf_parts

theorem State.mapChans_wf (s : State) (f : Ch → Chan → Chan) (hs : s.wf = true) : (State.mapChans s f).wf = true := by
  unfold State.mapChans
  repeat' first
    | with_reducible assumption | with_reducible apply foldl_wf | with_reducible apply wfParts_memWrite
    | with_reducible apply wfParts_memPutWord | with_reducible apply wfParts_memZero
    | with_reducible apply wfParts_nvmWrite | with_reducible apply wfParts_nvmZero | split | simp only [wf_lit]
    | with_reducible apply wf_parts

theorem State.stage_wf (s : State) (code : ℕ) (cls : ℕ) (unit : ℕ) (data : List Byte) (hs : s.wf = true)
    : (State.stage s code cls unit data).wf = true := by
  unfold State.stage
  dsimp only
  repeat' first
    | with_reducible assumption | with_reducible apply State.bump_wf | with_reducible apply foldl_wf
    | with_reducible apply wfParts_memWrite | with_reducible apply wfParts_memPutWord
    | with_reducible apply wfParts_memZero | with_reducible apply wfParts_nvmWrite
    | with_reducible apply wfParts_nvmZero | split | simp only [wf_lit] | with_reducible apply wf_parts

theorem State.refreshFaultN_wf (s : State) (hs : s.wf = true) : (State.refreshFaultN s).wf = true := by
  unfold State.refreshFaultN
  repeat' first
    | with_reducible assumption | with_reducible apply State.setO_wf | with_reducible apply foldl_wf | split

theorem State.arise_wf (s : State) (n : ℕ) (hs : s.wf = true) : (State.arise s n).wf = true := by
  unfold State.arise
  repeat' first
    | with_reducible assumption | with_reducible apply State.bump_wf | with_reducible apply State.setOb_wf
    | with_reducible apply State.refreshFaultN_wf

theorem State.ariseOnce_wf (s : State) (n : ℕ) (hs : s.wf = true) : (State.ariseOnce s n).wf = true := by
  unfold State.ariseOnce
  repeat' first
    | with_reducible assumption | with_reducible apply State.bump_wf | with_reducible apply State.setOb_wf
    | with_reducible apply State.refreshFaultN_wf

theorem State.ceases_wf (s : State) (n : ℕ) (hs : s.wf = true) : (State.ceases s n).wf = true := by
  unfold State.ceases
  repeat' first
    | with_reducible assumption | with_reducible apply State.setOb_wf

theorem State.ariseIf_wf (s : State) (n : ℕ) (hs : s.wf = true) : (State.ariseIf s n).wf = true := by
  unfold State.ariseIf
  repeat' first
    | with_reducible assumption | with_reducible apply State.arise_wf | with_reducible apply foldl_wf | split

theorem State.soil_wf (s : State) (a : ℕ) (n : ℕ) (hs : s.wf = true) : (State.soil s a n).wf = true := by
  unfold State.soil
  repeat' first
    | with_reducible assumption | with_reducible apply foldl_wf | with_reducible apply wfParts_memWrite
    | with_reducible apply wfParts_memPutWord | with_reducible apply wfParts_memZero
    | with_reducible apply wfParts_nvmWrite | with_reducible apply wfParts_nvmZero | split | simp only [wf_lit]
    | with_reducible apply wf_parts

theorem State.unsoil_wf (s : State) (a : ℕ) (n : ℕ) (hs : s.wf = true) : (State.unsoil s a n).wf = true := by
  unfold State.unsoil
  repeat' first
    | with_reducible assumption | with_reducible apply foldl_wf | with_reducible apply wfParts_memWrite
    | with_reducible apply wfParts_memPutWord | with_reducible apply wfParts_memZero
    | with_reducible apply wfParts_nvmWrite | with_reducible apply wfParts_nvmZero | split | simp only [wf_lit]
    | with_reducible apply wf_parts

theorem State.event_wf (s : State) (cls : ℕ) (code : ℕ) (xc : ℕ) (nt : ℕ) (objIdx : ℕ) (objSub : ℕ)
    (payload : List Byte) (hs : s.wf = true)
    : (State.event s cls code xc nt objIdx objSub payload).wf = true := by
  unfold State.event
  dsimp only
  repeat' first
    | with_reducible assumption | with_reducible apply State.bump_wf | with_reducible apply State.wrapBy_wf
    | with_reducible apply State.soil_wf | with_reducible apply foldl_wf | with_reducible apply wfParts_memWrite
    | with_reducible apply wfParts_memPutWord | with_reducible apply wfParts_memZero
    | with_reducible apply wfParts_nvmWrite | with_reducible apply wfParts_nvmZero | split | simp only [wf_lit]
    | with_reducible apply wf_parts

theorem State.recordEvent_wf (s : State) (objIdx : ℕ) (objSub : ℕ) (payload : List Byte) (hs : s.wf = true)
    : (State.recordEvent s objIdx objSub payload).wf = true := by
  unfold State.recordEvent
  repeat' first
    | with_reducible assumption | with_reducible apply State.event_wf

theorem State.ungate_wf (s : State) (n : ℕ) (hs : s.wf = true) : (State.ungate s n).wf = true := by
  unfold State.ungate
  repeat' first
    | with_reducible assumption | with_reducible apply State.setOb_wf

theorem State.send_wf (s : State) (p : Path) (m : Msg) (hs : s.wf = true) : (State.send s p m).wf = true := by
  unfold State.send
  dsimp only
  repeat' first
    | with_reducible assumption | with_reducible apply State.wrapBy_wf | with_reducible apply foldl_wf
    | with_reducible apply wfParts_memWrite | with_reducible apply wfParts_memPutWord
    | with_reducible apply wfParts_memZero | with_reducible apply wfParts_nvmWrite
    | with_reducible apply wfParts_nvmZero | split | simp only [wf_lit] | with_reducible apply wf_parts

theorem State.keepSend_wf (s : State) (p : Path) (m : Msg) (hs : s.wf = true) : (State.keepSend s p m).wf = true := by
  unfold State.keepSend
  dsimp only
  repeat' first
    | with_reducible assumption | with_reducible apply State.send_wf | with_reducible apply foldl_wf
    | with_reducible apply wfParts_memWrite | with_reducible apply wfParts_memPutWord
    | with_reducible apply wfParts_memZero | with_reducible apply wfParts_nvmWrite
    | with_reducible apply wfParts_nvmZero | split | simp only [wf_lit] | with_reducible apply wf_parts

theorem State.flushRefusals_wf (x0 : ℕ) (x1 : State) (hx1 : x1.wf = true)
    : (State.flushRefusals x0 x1).wf = true := by
  induction x0 generalizing x1 with
  | zero => exact hx1
  | succ n ih =>
    unfold State.flushRefusals
    split
    · split
      · exact ih _ (State.keepSend_wf _ _ _ (wf_of x1 hx1 rfl rfl rfl rfl))
      · exact hx1
    · exact hx1

theorem State.respond_wf (s : State) (q : Req) (mtype : ℕ) (st : Status) (body : List Byte) (hs : s.wf = true)
    : (State.respond s q mtype st body).wf = true := by
  unfold State.respond
  dsimp only
  repeat' first
    | with_reducible assumption | with_reducible apply State.keepSend_wf | with_reducible apply State.flushRefusals_wf
    | with_reducible apply foldl_wf | with_reducible apply wfParts_memWrite | with_reducible apply wfParts_memPutWord
    | with_reducible apply wfParts_memZero | with_reducible apply wfParts_nvmWrite
    | with_reducible apply wfParts_nvmZero | split | simp only [wf_lit] | with_reducible apply wf_parts

theorem State.respWrite_wf (s : State) (q : Req) (k : ℕ) (st : Status) (xeff : ℕ) (hs : s.wf = true)
    : (State.respWrite s q k st xeff).wf = true := by
  unfold State.respWrite
  repeat' first
    | with_reducible assumption | with_reducible apply State.respond_wf

theorem State.respRead_wf (s : State) (q : Req) (k : ℕ) (tcode : ℕ) (value : List Byte) (hs : s.wf = true)
    : (State.respRead s q k tcode value).wf = true := by
  unfold State.respRead
  repeat' first
    | with_reducible assumption | with_reducible apply State.respond_wf

theorem State.hostWrite_wf (s : State) (q : Req) (k : ℕ) (expert : Bool) (check : Status) (effect : State)
    (hs : s.wf = true) (heffect : effect.wf = true)
    : (State.hostWrite s q k expert check effect).wf = true := by
  unfold State.hostWrite
  repeat' first
    | with_reducible assumption | with_reducible apply State.respWrite_wf | with_reducible apply foldl_wf | split

theorem State.pendLive_wf (s : State) (k : ℕ) (v : ℕ) (hs : s.wf = true) : (State.pendLive s k v).wf = true := by
  unfold State.pendLive
  repeat' first
    | with_reducible assumption | with_reducible apply foldl_wf | with_reducible apply wfParts_memWrite
    | with_reducible apply wfParts_memPutWord | with_reducible apply wfParts_memZero
    | with_reducible apply wfParts_nvmWrite | with_reducible apply wfParts_nvmZero | split | simp only [wf_lit]
    | with_reducible apply wf_parts

/-! ### FrontEnd -/

theorem State.fastorTiming_wf (s : State) (c : Ch) (hs : s.wf = true) : (State.fastorTiming s c).wf = true := by
  unfold State.fastorTiming
  dsimp only
  repeat' first
    | with_reducible assumption | with_reducible apply foldl_wf | with_reducible apply wfParts_memWrite
    | with_reducible apply wfParts_memPutWord | with_reducible apply wfParts_memZero
    | with_reducible apply wfParts_nvmWrite | with_reducible apply wfParts_nvmZero | split | simp only [wf_lit]
    | with_reducible apply wf_parts

theorem State.fastorEnergy_wf (s : State) (c : Ch) (hs : s.wf = true) : (State.fastorEnergy s c).wf = true := by
  unfold State.fastorEnergy
  dsimp only
  repeat' first
    | with_reducible assumption | with_reducible apply foldl_wf | with_reducible apply wfParts_memWrite
    | with_reducible apply wfParts_memPutWord | with_reducible apply wfParts_memZero
    | with_reducible apply wfParts_nvmWrite | with_reducible apply wfParts_nvmZero | split | simp only [wf_lit]
    | with_reducible apply wf_parts

theorem State.lossOvf_wf (s : State) (hs : s.wf = true) : (State.lossOvf s).wf = true := by
  unfold State.lossOvf
  dsimp only
  repeat' first
    | with_reducible assumption | with_reducible apply foldl_wf | with_reducible apply wfParts_memWrite
    | with_reducible apply wfParts_memPutWord | with_reducible apply wfParts_memZero
    | with_reducible apply wfParts_nvmWrite | with_reducible apply wfParts_nvmZero | split | simp only [wf_lit]
    | with_reducible apply wf_parts

theorem State.meterEdge_wf (s : State) (c : Ch) (src : ℕ) (hs : s.wf = true)
    : (State.meterEdge s c src).wf = true := by
  unfold State.meterEdge
  repeat' first
    | with_reducible assumption | with_reducible apply State.setChan_wf | with_reducible apply foldl_wf | split

theorem State.enableChan_wf (s : State) (c : Ch) (hs : s.wf = true) : (State.enableChan s c).wf = true := by
  unfold State.enableChan
  dsimp only
  repeat' first
    | with_reducible assumption | with_reducible apply State.setChan_wf | with_reducible apply foldl_wf | split

theorem State.disableChan_wf (s : State) (c : Ch) (hs : s.wf = true) : (State.disableChan s c).wf = true := by
  unfold State.disableChan
  dsimp only
  repeat' first
    | with_reducible assumption | with_reducible apply State.setChan_wf | with_reducible apply foldl_wf | split

theorem State.feEnableEffect_wf (s : State) (c : Ch) (v : ℕ) (hs : s.wf = true)
    : (State.feEnableEffect s c v).wf = true := by
  unfold State.feEnableEffect
  dsimp only
  repeat' first
    | with_reducible assumption | with_reducible apply State.enableChan_wf | with_reducible apply State.setO_wf
    | with_reducible apply State.disableChan_wf | with_reducible apply foldl_wf | split

theorem State.afterHit_wf (s : State) (c : Ch) (hs : s.wf = true) : (State.afterHit s c).wf = true := by
  unfold State.afterHit
  dsimp only
  repeat' first
    | with_reducible assumption | with_reducible apply State.setChan_wf | with_reducible apply foldl_wf | split

theorem State.release_wf (s : State) (c : Ch) (t : Band) (e : Band) (hs : s.wf = true)
    : (State.release s c t e).wf = true := by
  unfold State.release
  dsimp only
  repeat' first
    | with_reducible assumption | with_reducible apply State.setChan_wf | with_reducible apply foldl_wf | split

theorem State.unknownExit_wf (s : State) (c : Ch) (w : Which) (up : Bool) (hs : s.wf = true)
    : (State.unknownExit s c w up).wf = true := by
  unfold State.unknownExit
  dsimp only
  repeat' first
    | with_reducible assumption | with_reducible apply State.setChan_wf | with_reducible apply foldl_wf | split

theorem State.overloadSet_wf (s : State) (c : Ch) (hs : s.wf = true) : (State.overloadSet s c).wf = true := by
  unfold State.overloadSet
  repeat' first
    | with_reducible assumption | with_reducible apply State.setOb_wf

theorem State.overloadClear_wf (s : State) (c : Ch) (hs : s.wf = true) : (State.overloadClear s c).wf = true := by
  unfold State.overloadClear
  repeat' first
    | with_reducible assumption | with_reducible apply State.setOb_wf

/-! ### Tdc -/

theorem State.calLive_wf (s : State) (c : Ch) (tap : ℕ) (hs : s.wf = true) : (State.calLive s c tap).wf = true := by
  unfold State.calLive
  dsimp only
  repeat' first
    | with_reducible assumption | with_reducible apply foldl_wf | with_reducible apply wfParts_memWrite
    | with_reducible apply wfParts_memPutWord | with_reducible apply wfParts_memZero
    | with_reducible apply wfParts_nvmWrite | with_reducible apply wfParts_nvmZero | split | simp only [wf_lit]
    | with_reducible apply wf_parts

theorem State.lutRead_wf (s : State) (c : Ch) (walk : Bool) (p : ℕ) (hs : s.wf = true)
    : (State.lutRead s c walk p).wf = true := by
  unfold State.lutRead
  repeat' first
    | with_reducible assumption | with_reducible apply State.bump_wf | with_reducible apply foldl_wf | split

theorem State.startHit_wf (s : State) (c : Ch) (k : ℕ) (tap : ℕ) (hs : s.wf = true)
    : (State.startHit s c k tap).wf = true := by
  unfold State.startHit
  dsimp only
  repeat' first
    | with_reducible assumption | with_reducible apply State.bump_wf | with_reducible apply State.setOb_wf
    | with_reducible apply State.calLive_wf | with_reducible apply State.setChan_wf
    | with_reducible apply State.lutRead_wf | with_reducible apply foldl_wf | split

theorem State.timingRise_wf (s : State) (c : Ch) (k : ℕ) (word : ℕ) (rearmed : Bool) (hs : s.wf = true)
    : (State.timingRise s c k word rearmed).wf = true := by
  unfold State.timingRise
  dsimp only
  repeat' first
    | with_reducible assumption | with_reducible apply State.fastorEnergy_wf | with_reducible apply State.bump_wf
    | with_reducible apply State.setChan_wf | with_reducible apply State.meterEdge_wf
    | with_reducible apply State.startHit_wf | with_reducible apply State.fastorTiming_wf
    | with_reducible apply foldl_wf | split

theorem State.chainPush_wf (s : State) (c : Ch) (e : Entry) (hs : s.wf = true)
    : (State.chainPush s c e).wf = true := by
  unfold State.chainPush
  dsimp only
  repeat' first
    | with_reducible assumption | with_reducible apply State.bump_wf | with_reducible apply State.setChan_wf
    | with_reducible apply State.lossOvf_wf | with_reducible apply foldl_wf | with_reducible apply wfParts_memWrite
    | with_reducible apply wfParts_memPutWord | with_reducible apply wfParts_memZero
    | with_reducible apply wfParts_nvmWrite | with_reducible apply wfParts_nvmZero | split | simp only [wf_lit]
    | with_reducible apply wf_parts

theorem State.passHit_wf (s : State) (c : Ch) (h : Hit) (toa : ℕ) (tot : ℕ) (f7 : Bool) (f6 : Bool)
    (hs : s.wf = true)
    : (State.passHit s c h toa tot f7 f6).wf = true := by
  unfold State.passHit
  dsimp only
  repeat' first
    | with_reducible assumption | with_reducible apply State.chainPush_wf | with_reducible apply State.wrapBy_wf
    | with_reducible apply foldl_wf | split

theorem State.calVerdict_wf (s : State) (c : Ch) (h : Hit) (hs : s.wf = true)
    : (State.calVerdict s c h).wf = true := by
  unfold State.calVerdict
  repeat' first
    | with_reducible assumption | with_reducible apply State.calLive_wf | with_reducible apply foldl_wf | split

theorem State.completeHit_wf (s : State) (c : Ch) (h : Hit) (stop : ℕ) (unresolved : Bool) (hs : s.wf = true)
    : (State.completeHit s c h stop unresolved).wf = true := by
  unfold State.completeHit
  dsimp only
  repeat' first
    | with_reducible assumption | with_reducible apply State.bump_wf | with_reducible apply State.calVerdict_wf
    | with_reducible apply State.passHit_wf | with_reducible apply foldl_wf | split

theorem State.timingFall_wf (s : State) (c : Ch) (k : ℕ) (word : ℕ) (hs : s.wf = true)
    : (State.timingFall s c k word).wf = true := by
  unfold State.timingFall
  dsimp only
  repeat' first
    | with_reducible assumption | with_reducible apply State.bump_wf | with_reducible apply State.afterHit_wf
    | with_reducible apply State.setChan_wf | with_reducible apply State.completeHit_wf
    | with_reducible apply State.lutRead_wf | with_reducible apply foldl_wf | split

theorem State.totSaturate_wf (s : State) (c : Ch) (hs : s.wf = true) : (State.totSaturate s c).wf = true := by
  unfold State.totSaturate
  dsimp only
  repeat' first
    | with_reducible assumption | with_reducible apply State.calVerdict_wf | with_reducible apply State.setChan_wf
    | with_reducible apply State.passHit_wf | with_reducible apply foldl_wf | split

theorem State.energyRise_wf (s : State) (c : Ch) (k : ℕ) (tap : ℕ) (hs : s.wf = true)
    : (State.energyRise s c k tap).wf = true := by
  unfold State.energyRise
  dsimp only
  repeat' first
    | with_reducible assumption | with_reducible apply State.fastorEnergy_wf | with_reducible apply State.setChan_wf
    | with_reducible apply State.meterEdge_wf | with_reducible apply State.lutRead_wf | with_reducible apply foldl_wf
    | split

theorem State.energyFall_wf (s : State) (c : Ch) (hs : s.wf = true) : (State.energyFall s c).wf = true := by
  unfold State.energyFall
  dsimp only
  repeat' first
    | with_reducible assumption | with_reducible apply State.setChan_wf | with_reducible apply foldl_wf | split

theorem State.levelReached_wf (s : State) (g : Grp) (hs : s.wf = true) : (State.levelReached s g).wf = true := by
  unfold State.levelReached
  dsimp only
  repeat' first
    | with_reducible assumption | with_reducible apply State.bump_wf | with_reducible apply State.setOb_wf
    | with_reducible apply State.stage_wf | with_reducible apply foldl_wf | split

theorem State.fifoWrite_wf (s : State) (g : Grp) (hs : s.wf = true) : (State.fifoWrite s g).wf = true := by
  unfold State.fifoWrite
  dsimp only
  repeat' first
    | with_reducible assumption | with_reducible apply State.bump_wf | with_reducible apply State.setGroup_wf
    | with_reducible apply State.setChan_wf | with_reducible apply State.peak_wf
    | with_reducible apply State.levelReached_wf | with_reducible apply foldl_wf | split

/-! ### Probe -/

theorem State.prbCtrlEffect_wf (s : State) (v : ℕ) (hs : s.wf = true) : (State.prbCtrlEffect s v).wf = true := by
  unfold State.prbCtrlEffect
  dsimp only
  repeat' first
    | with_reducible assumption | with_reducible apply State.setO_wf | with_reducible apply foldl_wf
    | with_reducible apply wfParts_memWrite | with_reducible apply wfParts_memPutWord
    | with_reducible apply wfParts_memZero | with_reducible apply wfParts_nvmWrite
    | with_reducible apply wfParts_nvmZero | split | simp only [wf_lit] | with_reducible apply wf_parts

theorem State.prbTriggerAt_wf (s : State) (x1 : ℕ) (pos : ℕ) (hs : s.wf = true)
    : (State.prbTriggerAt s x1 pos).wf = true := by
  unfold State.prbTriggerAt
  repeat' first
    | with_reducible assumption | with_reducible apply State.setO_wf

theorem State.prbTrack_wf (s : State) (samples : List ℕ) (hs : s.wf = true)
    : (State.prbTrack s samples).wf = true := by
  unfold State.prbTrack
  dsimp only
  repeat' first
    | with_reducible assumption | with_reducible apply foldl_wf | with_reducible apply wfParts_memWrite
    | with_reducible apply wfParts_memPutWord | with_reducible apply wfParts_memZero
    | with_reducible apply wfParts_nvmWrite | with_reducible apply wfParts_nvmZero | split | simp only [wf_lit]
    | with_reducible apply wf_parts

theorem State.prbFilled_wf (s : State) (k : ℕ) (hs : s.wf = true) : (State.prbFilled s k).wf = true := by
  unfold State.prbFilled
  repeat' first
    | with_reducible assumption | with_reducible apply State.prbTriggerAt_wf | with_reducible apply State.setO_wf
    | with_reducible apply foldl_wf | split

theorem State.prbFillDone_wf (s : State) (k : ℕ) (samples : List ℕ) (hs : s.wf = true)
    : (State.prbFillDone s k samples).wf = true := by
  unfold State.prbFillDone
  dsimp only
  repeat' first
    | with_reducible assumption | with_reducible apply State.prbTrack_wf | with_reducible apply State.prbTriggerAt_wf
    | with_reducible apply State.setO_wf | with_reducible apply State.prbFilled_wf | with_reducible apply foldl_wf
    | split

theorem State.prbTrigger_wf (s : State) (k : ℕ) (samples : List ℕ) (hs : s.wf = true)
    : (State.prbTrigger s k samples).wf = true := by
  unfold State.prbTrigger
  dsimp only
  repeat' first
    | with_reducible assumption | with_reducible apply State.prbTrack_wf | with_reducible apply State.prbTriggerAt_wf
    | with_reducible apply foldl_wf | split

theorem State.prbOnFire_wf (s : State) (phase : ℕ) (hs : s.wf = true) : (State.prbOnFire s phase).wf = true := by
  unfold State.prbOnFire
  dsimp only
  repeat' first
    | with_reducible assumption | with_reducible apply State.prbTriggerAt_wf | with_reducible apply foldl_wf
    | with_reducible apply wfParts_memWrite | with_reducible apply wfParts_memPutWord
    | with_reducible apply wfParts_memZero | with_reducible apply wfParts_nvmWrite
    | with_reducible apply wfParts_nvmZero | split | simp only [wf_lit] | with_reducible apply wf_parts

theorem State.prbPostDone_wf (s : State) (samples : List ℕ) (hs : s.wf = true)
    : (State.prbPostDone s samples).wf = true := by
  unfold State.prbPostDone
  dsimp only
  repeat' first
    | with_reducible assumption | with_reducible apply State.setO_wf | with_reducible apply foldl_wf
    | with_reducible apply wfParts_memWrite | with_reducible apply wfParts_memPutWord
    | with_reducible apply wfParts_memZero | with_reducible apply wfParts_nvmWrite
    | with_reducible apply wfParts_nvmZero | split | simp only [wf_lit] | with_reducible apply wf_parts

theorem State.prbCopyDone_wf (s : State) (hs : s.wf = true) : (State.prbCopyDone s).wf = true := by
  unfold State.prbCopyDone
  dsimp only
  repeat' first
    | with_reducible assumption | with_reducible apply State.bump_wf | with_reducible apply State.setO_wf
    | with_reducible apply foldl_wf | with_reducible apply wfParts_memWrite | with_reducible apply wfParts_memPutWord
    | with_reducible apply wfParts_memZero | with_reducible apply wfParts_nvmWrite
    | with_reducible apply wfParts_nvmZero | split | simp only [wf_lit] | with_reducible apply wf_parts

theorem State.prbHold_wf (s : State) (hs : s.wf = true) : (State.prbHold s).wf = true := by
  unfold State.prbHold
  repeat' first
    | with_reducible assumption | with_reducible apply State.setO_wf | with_reducible apply foldl_wf | split

/-! ### Calibration -/

theorem State.assignSlot_wf (s : State) (hs : s.wf = true) : (State.assignSlot s).wf = true := by
  unfold State.assignSlot
  dsimp only
  repeat' first
    | with_reducible assumption | with_reducible apply State.setOb_wf | with_reducible apply State.setChan_wf
    | with_reducible apply foldl_wf | with_reducible apply wfParts_memWrite | with_reducible apply wfParts_memPutWord
    | with_reducible apply wfParts_memZero | with_reducible apply wfParts_nvmWrite
    | with_reducible apply wfParts_nvmZero | split | simp only [wf_lit] | with_reducible apply wf_parts

theorem State.assignSlots_wf (s : State) (hs : s.wf = true) : (State.assignSlots s).wf = true := by
  unfold State.assignSlots
  repeat' first
    | with_reducible assumption | with_reducible apply State.assignSlot_wf | with_reducible apply foldl_wf | split
    | simp only [wf_lit] | with_reducible apply wf_parts | with_reducible refine wf_fst_eq ‹_ = _› ?_ | intro _

theorem State.dropSlot_wf (s : State) (c : Ch) (hs : s.wf = true) : (State.dropSlot s c).wf = true := by
  unfold State.dropSlot
  dsimp only
  repeat' first
    | with_reducible assumption | with_reducible apply foldl_wf | with_reducible apply wfParts_memWrite
    | with_reducible apply wfParts_memPutWord | with_reducible apply wfParts_memZero
    | with_reducible apply wfParts_nvmWrite | with_reducible apply wfParts_nvmZero | split | simp only [wf_lit]
    | with_reducible apply wf_parts

theorem State.calWait_wf (s : State) (c : Ch) (hs : s.wf = true) : (State.calWait s c).wf = true := by
  unfold State.calWait
  dsimp only
  repeat' first
    | with_reducible assumption | with_reducible apply State.setOb_wf | with_reducible apply State.setChan_wf
    | with_reducible apply State.dropSlot_wf

theorem State.calRandomEdge_wf (s : State) (c : Ch) (k : ℕ) (word : ℕ) (walkTap : Option ℕ) (hs : s.wf = true)
    : (State.calRandomEdge s c k word walkTap).wf = true := by
  unfold State.calRandomEdge
  dsimp only
  repeat' first
    | with_reducible assumption | with_reducible apply State.setOb_wf | with_reducible apply foldl_wf
    | with_reducible apply wfParts_memWrite | with_reducible apply wfParts_memPutWord
    | with_reducible apply wfParts_memZero | with_reducible apply wfParts_nvmWrite
    | with_reducible apply wfParts_nvmZero | split | simp only [wf_lit] | with_reducible apply wf_parts

theorem State.calQuiet_wf (s : State) (c : Ch) (hs : s.wf = true) : (State.calQuiet s c).wf = true := by
  unfold State.calQuiet
  dsimp only
  repeat' first
    | with_reducible assumption | with_reducible apply State.setOb_wf | with_reducible apply foldl_wf
    | with_reducible apply wfParts_memWrite | with_reducible apply wfParts_memPutWord
    | with_reducible apply wfParts_memZero | with_reducible apply wfParts_nvmWrite
    | with_reducible apply wfParts_nvmZero | split | simp only [wf_lit] | with_reducible apply wf_parts

theorem State.calRunComplete_wf (s : State) (c : Ch) (hs : s.wf = true) : (State.calRunComplete s c).wf = true := by
  unfold State.calRunComplete
  dsimp only
  repeat' first
    | with_reducible assumption | with_reducible apply State.setOb_wf | with_reducible apply State.setChan_wf
    | with_reducible apply foldl_wf | split

theorem State.rejected_wf (s : State) (c : Ch) (hs : s.wf = true) : (State.rejected s c).wf = true := by
  unfold State.rejected
  dsimp only
  repeat' first
    | with_reducible assumption | with_reducible apply State.setChan_wf | with_reducible apply State.raiseFault_wf
    | with_reducible apply foldl_wf | split

theorem State.lutComputeDone_wf (s : State) (c : Ch) (hs : s.wf = true) : (State.lutComputeDone s c).wf = true := by
  unfold State.lutComputeDone
  dsimp only
  repeat' first
    | with_reducible assumption | with_reducible apply State.bump_wf | with_reducible apply State.setOb_wf
    | with_reducible apply State.setChan_wf | with_reducible apply State.rejected_wf
    | with_reducible apply State.assignSlots_wf | with_reducible apply State.dropSlot_wf
    | with_reducible apply foldl_wf | split

theorem State.swapChan_wf (s : State) (c : Ch) (p : PendLut) (hs : s.wf = true)
    : (State.swapChan s c p).wf = true := by
  unfold State.swapChan
  dsimp only
  repeat' first
    | with_reducible assumption | with_reducible apply State.setChan_wf | with_reducible apply State.setO_wf
    | with_reducible apply State.wrapBy_wf

theorem State.tapsUpdate_wf (s : State) (hs : s.wf = true) : (State.tapsUpdate s).wf = true := by
  unfold State.tapsUpdate
  repeat' first
    | with_reducible assumption | with_reducible apply State.setO_wf

theorem State.historyEntry_wf (s : State) (src : ℕ) (chans : List Ch) (hs : s.wf = true)
    : (State.historyEntry s src chans).wf = true := by
  unfold State.historyEntry
  split
  · exact hs
  · extract_lets s1 e h s2
    have h1 : s1.wf = true := State.wrapBy_wf _ _ _ _ hs
    split
    · exact State.recordEvent_wf _ _ _ _ (wf_of s1 h1 rfl rfl rfl rfl)
    · exact wf_of s1 h1 rfl rfl rfl rfl

theorem State.swapAll_wf (s : State) (ready : Ch → Option PendLut) (hs : s.wf = true)
    : (State.swapAll s ready).1.wf = true := by
  unfold State.swapAll
  dsimp only
  repeat' first
    | with_reducible assumption | with_reducible apply State.swapChan_wf | with_reducible apply foldl_wf | split
    | simp only [wf_lit] | with_reducible apply wf_parts | with_reducible refine wf_fst_eq ‹_ = _› ?_ | intro _

theorem State.lutSwaps_wf (s : State) (hs : s.wf = true) : (State.lutSwaps s).wf = true := by
  unfold State.lutSwaps
  dsimp only
  repeat' first
    | with_reducible assumption | with_reducible apply State.tapsUpdate_wf | with_reducible apply State.swapAll_wf
    | with_reducible apply State.setO_wf | with_reducible apply State.historyEntry_wf
    | with_reducible apply State.assignSlots_wf | with_reducible apply foldl_wf | split

theorem State.calRestart_wf (s : State) (hs : s.wf = true) : (State.calRestart s).wf = true := by
  unfold State.calRestart
  dsimp only
  repeat' first
    | with_reducible assumption | with_reducible apply State.calWait_wf | with_reducible apply State.assignSlots_wf
    | with_reducible apply foldl_wf | with_reducible apply wfParts_memWrite | with_reducible apply wfParts_memPutWord
    | with_reducible apply wfParts_memZero | with_reducible apply wfParts_nvmWrite
    | with_reducible apply wfParts_nvmZero | split | simp only [wf_lit] | with_reducible apply wf_parts

theorem State.dropPending_wf (s : State) (hs : s.wf = true) : (State.dropPending s).wf = true := by
  unfold State.dropPending
  dsimp only
  repeat' first
    | with_reducible assumption | with_reducible apply State.setOb_wf | with_reducible apply State.setChan_wf
    | with_reducible apply foldl_wf | split | simp only [wf_lit] | with_reducible apply wf_parts
    | with_reducible refine wf_fst_eq ‹_ = _› ?_ | intro _

theorem State.calCtrlEffect_wf (s : State) (v : ℕ) (hs : s.wf = true) : (State.calCtrlEffect s v).wf = true := by
  unfold State.calCtrlEffect
  repeat' first
    | with_reducible assumption | with_reducible apply State.dropPending_wf | with_reducible apply State.calRestart_wf
    | with_reducible apply foldl_wf | split

theorem State.calEnableEffect_wf (s : State) (v : ℕ) (hs : s.wf = true) : (State.calEnableEffect s v).wf = true := by
  unfold State.calEnableEffect
  dsimp only
  repeat' first
    | with_reducible assumption | with_reducible apply State.setO_wf | with_reducible apply State.calWait_wf
    | with_reducible apply State.assignSlots_wf | with_reducible apply foldl_wf

theorem State.tdcDiscard_wf (s : State) (hs : s.wf = true) : (State.tdcDiscard s).wf = true := by
  unfold State.tdcDiscard
  dsimp only
  repeat' first
    | with_reducible assumption | with_reducible apply State.setOb_wf | with_reducible apply State.bumpBy_wf
    | with_reducible apply State.mapChans_wf | with_reducible apply foldl_wf | with_reducible apply wfParts_memWrite
    | with_reducible apply wfParts_memPutWord | with_reducible apply wfParts_memZero
    | with_reducible apply wfParts_nvmWrite | with_reducible apply wfParts_nvmZero | split | simp only [wf_lit]
    | with_reducible apply wf_parts | with_reducible refine wf_fst_eq ‹_ = _› ?_ | intro _

theorem State.tdcHold_wf (s : State) (hs : s.wf = true) : (State.tdcHold s).wf = true := by
  unfold State.tdcHold
  repeat' first
    | with_reducible assumption | with_reducible apply State.tdcDiscard_wf | with_reducible apply State.setO_wf

theorem State.calStart_wf (s : State) (hs : s.wf = true) : (State.calStart s).wf = true := by
  unfold State.calStart
  dsimp only
  repeat' first
    | with_reducible assumption | with_reducible apply State.setO_wf | with_reducible apply State.assignSlots_wf
    | with_reducible apply foldl_wf | with_reducible apply wfParts_memWrite | with_reducible apply wfParts_memPutWord
    | with_reducible apply wfParts_memZero | with_reducible apply wfParts_nvmWrite
    | with_reducible apply wfParts_nvmZero | split | simp only [wf_lit] | with_reducible apply wf_parts

theorem State.hostLut_wf (s : State) (c : Ch) (l : List Byte) (hs : s.wf = true)
    : (State.hostLut s c l).wf = true := by
  unfold State.hostLut
  dsimp only
  repeat' first
    | with_reducible assumption | with_reducible apply State.setOb_wf | with_reducible apply State.setChan_wf

theorem State.hostBlockWrite_wf (s : State) (q : Req) (k : ℕ) (len : ℕ) (expert : Bool) (check : Status)
    (effect : State) (hs : s.wf = true) (heffect : effect.wf = true)
    : (State.hostBlockWrite s q k len expert check effect).wf = true := by
  unfold State.hostBlockWrite
  repeat' first
    | with_reducible assumption | with_reducible apply State.respond_wf | with_reducible apply foldl_wf | split

/-! ### RateMeter -/

theorem State.rmClear_wf (s : State) (hs : s.wf = true) : (State.rmClear s).wf = true := by
  unfold State.rmClear
  repeat' first
    | with_reducible assumption | with_reducible apply State.mapChans_wf

theorem State.rmCtrlEffect_wf (s : State) (v : ℕ) (hs : s.wf = true) : (State.rmCtrlEffect s v).wf = true := by
  unfold State.rmCtrlEffect
  dsimp only
  repeat' first
    | with_reducible assumption | with_reducible apply State.rmClear_wf | with_reducible apply State.setO_wf
    | with_reducible apply foldl_wf | with_reducible apply wfParts_memWrite | with_reducible apply wfParts_memPutWord
    | with_reducible apply wfParts_memZero | with_reducible apply wfParts_nvmWrite
    | with_reducible apply wfParts_nvmZero | split | simp only [wf_lit] | with_reducible apply wf_parts

theorem State.rateCopy_wf (s : State) (rates : List ℕ) (seq : ℕ) (hs : s.wf = true)
    : (State.rateCopy s rates seq).wf = true := by
  unfold State.rateCopy
  dsimp only
  repeat' first
    | with_reducible assumption | with_reducible apply State.setO_wf | with_reducible apply foldl_wf
    | with_reducible apply wfParts_memWrite | with_reducible apply wfParts_memPutWord
    | with_reducible apply wfParts_memZero | with_reducible apply wfParts_nvmWrite
    | with_reducible apply wfParts_nvmZero | split | simp only [wf_lit] | with_reducible apply wf_parts

theorem State.rateSettle_wf (s : State) (hs : s.wf = true) : (State.rateSettle s).wf = true := by
  unfold State.rateSettle
  repeat' first
    | with_reducible assumption | with_reducible apply State.rateCopy_wf | with_reducible apply foldl_wf | split

theorem State.rmGateEnd_wf (s : State) (hs : s.wf = true) : (State.rmGateEnd s).wf = true := by
  unfold State.rmGateEnd
  dsimp only
  repeat' first
    | with_reducible assumption | with_reducible apply State.rateCopy_wf | with_reducible apply State.setO_wf
    | with_reducible apply State.wrapBy_wf | with_reducible apply State.mapChans_wf | with_reducible apply foldl_wf
    | with_reducible apply wfParts_memWrite | with_reducible apply wfParts_memPutWord
    | with_reducible apply wfParts_memZero | with_reducible apply wfParts_nvmWrite
    | with_reducible apply wfParts_nvmZero | split | simp only [wf_lit] | with_reducible apply wf_parts
    | with_reducible refine wf_fst_eq ‹_ = _› ?_ | intro _

theorem State.rmHold_wf (s : State) (hs : s.wf = true) : (State.rmHold s).wf = true := by
  unfold State.rmHold
  repeat' first
    | with_reducible assumption | with_reducible apply State.setO_wf

end Sys2Proof.Machine
end

