-- ==== Sys2Proof/Laws/WfBuffer.lean ====
section
/-! SUPPORT. The canonical form of the stored data: what each operation keeps, under
the ring, the assembler, the latency buffer, compression and the pool. -/
namespace Sys2Proof.Machine

set_option Elab.async false

/-! ### NvmWords -/

theorem nvPuts_wf (l : List (ℕ × ℕ × ℕ)) (m : Memory) (h : m.wf = true) : (nvPuts l m).1.wf = true := by
  induction l generalizing m with
  | nil => exact h
  | cons w r ih => exact ih _ (memPutWord_wf _ _ _ h)

theorem State.nvWrite_wf (s : State) (l : List (ℕ × ℕ × ℕ)) (hs : s.wf = true) : (State.nvWrite s l).wf = true :=
  wf_nvm s hs (nvPuts_wf _ _ (wf_nvm_part hs)) rfl rfl rfl

theorem State.nvCut_wf (s : State) (k : ℕ) (t : ℕ) (hs : s.wf = true) : (State.nvCut s k t).wf = true := by
  unfold State.nvCut
  split
  · exact hs
  · exact wf_nvm s hs (memPutWord_wf _ _ _ (foldl_memWf (wf_nvm_part hs) fun _ _ ht => memPutWord_wf _ _ _ ht)) rfl rfl rfl

/-! ### Ring -/

theorem State.setLbMode_wf (s : State) (m : ℕ) (hs : s.wf = true) : (State.setLbMode s m).wf = true := by
  unfold State.setLbMode
  dsimp only
  repeat' first
    | with_reducible assumption | with_reducible apply State.setO_wf | with_reducible apply foldl_wf
    | with_reducible apply wfParts_memWrite | with_reducible apply wfParts_memPutWord
    | with_reducible apply wfParts_memZero | with_reducible apply wfParts_nvmWrite
    | with_reducible apply wfParts_nvmZero | split | simp only [wf_lit] | with_reducible apply wf_parts

theorem State.setMap_wf (s : State) (p0 : ℕ) (p1 : ℕ) (spare : Bool) (hs : s.wf = true)
    : (State.setMap s p0 p1 spare).wf = true := by
  unfold State.setMap
  repeat' first
    | with_reducible assumption | with_reducible apply State.setO_wf

theorem State.writeEntry_wf (s : State) (x1 : ℕ) (w : ℕ) (hs : s.wf = true)
    : (State.writeEntry s x1 w).wf = true := by
  unfold State.writeEntry
  repeat' first
    | with_reducible assumption | with_reducible apply foldl_wf | with_reducible apply wfParts_memWrite
    | with_reducible apply wfParts_memPutWord | with_reducible apply wfParts_memZero
    | with_reducible apply wfParts_nvmWrite | with_reducible apply wfParts_nvmZero | split | simp only [wf_lit]
    | with_reducible apply wf_parts

theorem State.markLost_wf (s : State) (x1 : ℕ) (hs : s.wf = true) : (State.markLost s x1).wf = true := by
  unfold State.markLost
  repeat' first
    | with_reducible assumption | with_reducible apply State.writeEntry_wf

theorem State.setRank_wf (s : State) (r : ℕ) (x2 : Rank) (hs : s.wf = true) : (State.setRank s r x2).wf = true := by
  unfold State.setRank
  dsimp only
  repeat' first
    | with_reducible assumption | with_reducible apply foldl_wf | with_reducible apply wfParts_memWrite
    | with_reducible apply wfParts_memPutWord | with_reducible apply wfParts_memZero
    | with_reducible apply wfParts_nvmWrite | with_reducible apply wfParts_nvmZero | split | simp only [wf_lit]
    | with_reducible apply wf_parts

theorem State.setRankData_wf (s : State) (r : ℕ) (m : Memory) (hs : s.wf = true) (hm : m.wf = true) :
    (State.setRankData s r m).wf = true := by
  unfold State.setRankData
  simp only [wf_lit]
  exact wfParts_rank _ hs hm

theorem State.rankData_wf (s : State) (r : ℕ) (hs : s.wf = true) : (State.rankData s r).wf = true := wf_rank_part hs _

theorem State.rollRank_wf (s : State) (r : ℕ) (hs : s.wf = true) : (State.rollRank s r).wf = true := by
  unfold State.rollRank
  dsimp only
  repeat' first
    | with_reducible assumption | with_reducible apply State.setRank_wf | with_reducible apply foldl_wf | split

theorem State.dieCond_wf (s : State) (hs : s.wf = true) : (State.dieCond s).wf = true := by
  unfold State.dieCond
  repeat' first
    | with_reducible assumption | with_reducible apply State.ceases_wf | with_reducible apply foldl_wf | split

theorem State.storeMark_wf (s : State) (r : ℕ) (j : ℕ) (hs : s.wf = true) : (State.storeMark s r j).wf = true := by
  unfold State.storeMark
  repeat' first
    | with_reducible assumption | with_reducible apply State.nvWrite_wf | with_reducible apply foldl_wf | split

theorem State.markDie_wf (s : State) (r : ℕ) (j : ℕ) (corr : ℕ) (hs : s.wf = true)
    : (State.markDie s r j corr).wf = true := by
  unfold State.markDie
  dsimp only
  repeat' first
    | with_reducible assumption | with_reducible apply State.stage_wf | with_reducible apply State.setO_wf
    | with_reducible apply State.ariseIf_wf | with_reducible apply State.storeMark_wf
    | with_reducible apply State.dieCond_wf | with_reducible apply State.raiseFault_wf | with_reducible apply foldl_wf
    | split

theorem State.switchAfterLoss_wf (s : State) (hs : s.wf = true) : (State.switchAfterLoss s).wf = true := by
  unfold State.switchAfterLoss
  dsimp only
  repeat' first
    | with_reducible assumption | with_reducible apply foldl_wf | with_reducible apply wfParts_memWrite
    | with_reducible apply wfParts_memPutWord | with_reducible apply wfParts_memZero
    | with_reducible apply wfParts_nvmWrite | with_reducible apply wfParts_nvmZero | split | simp only [wf_lit]
    | with_reducible apply wf_parts

theorem State.startMigration_wf (s : State) (r : ℕ) (hs : s.wf = true) : (State.startMigration s r).wf = true := by
  unfold State.startMigration
  dsimp only
  repeat' first
    | with_reducible assumption | with_reducible apply State.setO_wf | with_reducible apply State.setMap_wf
    | with_reducible apply State.setLbMode_wf | with_reducible apply foldl_wf | with_reducible apply wfParts_memWrite
    | with_reducible apply wfParts_memPutWord | with_reducible apply wfParts_memZero
    | with_reducible apply wfParts_nvmWrite | with_reducible apply wfParts_nvmZero | split | simp only [wf_lit]
    | with_reducible apply wf_parts

theorem State.lostServing_wf (s : State) (r : ℕ) (hs : s.wf = true) : (State.lostServing s r).wf = true := by
  unfold State.lostServing
  repeat' first
    | with_reducible assumption | with_reducible apply State.switchAfterLoss_wf
    | with_reducible apply State.startMigration_wf | with_reducible apply foldl_wf | split

theorem State.retire_wf (s : State) (r : ℕ) (cause : ℕ) (hs : s.wf = true) : (State.retire s r cause).wf = true := by
  unfold State.retire
  dsimp only
  repeat' first
    | with_reducible assumption | with_reducible apply State.stage_wf | with_reducible apply State.lostServing_wf
    | with_reducible apply State.switchAfterLoss_wf | with_reducible apply State.setO_wf
    | with_reducible apply State.ariseIf_wf | with_reducible apply State.setMap_wf
    | with_reducible apply State.dieCond_wf | with_reducible apply foldl_wf | with_reducible apply wfParts_memWrite
    | with_reducible apply wfParts_memPutWord | with_reducible apply wfParts_memZero
    | with_reducible apply wfParts_nvmWrite | with_reducible apply wfParts_nvmZero | split | simp only [wf_lit]
    | with_reducible apply wf_parts

theorem State.noteBeat_wf (s : State) (r : ℕ) (addr : ℕ) (st : BeatStatus) (hs : s.wf = true)
    : (State.noteBeat s r addr st).wf = true := by
  unfold State.noteBeat
  dsimp only
  repeat' first
    | with_reducible assumption | with_reducible apply State.bump_wf | with_reducible apply State.retire_wf
    | with_reducible apply State.setO_wf | with_reducible apply State.markDie_wf
    | with_reducible apply State.setRank_wf | with_reducible apply State.rollRank_wf | with_reducible apply foldl_wf
    | split

theorem State.readBeat_wf (s : State) (r : ℕ) (addr : ℕ) (u : List Upset) (hs : s.wf = true)
    : (State.readBeat s r addr u).1.wf = true := by
  unfold State.readBeat
  dsimp only
  repeat' first
    | with_reducible assumption | with_reducible apply State.noteBeat_wf

theorem State.wakeRank_wf (s : State) (r : ℕ) (hs : s.wf = true) : (State.wakeRank s r).wf = true := by
  unfold State.wakeRank
  dsimp only
  repeat' first
    | with_reducible assumption | with_reducible apply State.setRank_wf

theorem State.countReads_wf (s : State) (r : ℕ) (n : ℕ) (hs : s.wf = true) : (State.countReads s r n).wf = true := by
  unfold State.countReads
  repeat' first
    | with_reducible assumption | with_reducible apply State.wrapBy_wf | with_reducible apply State.wakeRank_wf

theorem State.countWrites_wf (s : State) (r : ℕ) (n : ℕ) (hs : s.wf = true)
    : (State.countWrites s r n).wf = true := by
  unfold State.countWrites
  repeat' first
    | with_reducible assumption | with_reducible apply State.wrapBy_wf | with_reducible apply State.wakeRank_wf

theorem State.fixWord_wf (s : State) (addr : ℕ) (u : List Upset) (hs : s.wf = true)
    : (State.fixWord s addr u).wf = true := by
  exact wf_of _ (State.bump_wf _ Obj.SPM_CORR hs) rfl rfl rfl rfl

theorem State.noteWord_wf (s : State) (agent : ℕ) (addr : ℕ) (u : List Upset) (hs : s.wf = true)
    : (State.noteWord s agent addr u).wf = true := by
  unfold State.noteWord
  repeat' first
    | with_reducible assumption | with_reducible apply State.bump_wf | with_reducible apply State.stage_wf
    | with_reducible apply State.setO_wf | with_reducible apply State.ariseOnce_wf
    | with_reducible apply State.fixWord_wf | with_reducible apply foldl_wf | split

theorem State.channelRead_wf (s : State) (agent : ℕ) (a : ℕ) (n : ℕ) (u : List Upset) (hs : s.wf = true)
    : (State.channelRead s agent a n u).1.wf = true := by
  unfold State.channelRead
  dsimp only
  repeat' first
    | with_reducible assumption | with_reducible apply State.noteWord_wf | with_reducible apply foldl_wf | split
    | simp only [wf_lit] | with_reducible apply wf_parts | with_reducible refine wf_fst_eq ‹_ = _› ?_ | intro _

theorem State.readSpm_wf (s : State) (agent : ℕ) (addr : ℕ) (n : ℕ) (u : List Upset) (hs : s.wf = true)
    : (State.readSpm s agent addr n u).1.wf = true := by
  unfold State.readSpm
  dsimp only
  repeat' first
    | with_reducible assumption | with_reducible apply State.noteWord_wf | with_reducible apply foldl_wf
    | with_reducible apply wfParts_memWrite | with_reducible apply wfParts_memPutWord
    | with_reducible apply wfParts_memZero | with_reducible apply wfParts_nvmWrite
    | with_reducible apply wfParts_nvmZero | split | simp only [wf_lit] | with_reducible apply wf_parts
    | with_reducible refine wf_fst_eq ‹_ = _› ?_ | intro _

theorem State.fetchWord_wf (s : State) (c : ℕ) (x2 : ℕ) (u : List Upset) (hs : s.wf = true)
    : (State.fetchWord s c x2 u).1.wf = true := by
  unfold State.fetchWord
  repeat' first
    | with_reducible assumption | with_reducible apply State.readSpm_wf | with_reducible apply State.readBeat_wf
    | with_reducible apply foldl_wf | split

theorem State.fetchWords_wf (s : State) (c : ℕ) (x2 : ℕ) (u : List Upset) (x4 : ℕ) (hs : s.wf = true)
    : (State.fetchWords s c x2 u x4).1.wf = true := by
  induction x4 generalizing s x2 with
  | zero =>
    unfold State.fetchWords
    dsimp only
    repeat' first
      | with_reducible apply ih | with_reducible assumption
  | succ n ih =>
    unfold State.fetchWords
    dsimp only
    repeat' first
      | with_reducible apply ih | with_reducible assumption | with_reducible apply State.fetchWord_wf
      | with_reducible apply foldl_wf | split

theorem State.fetchSlice_wf (s : State) (c : ℕ) (x2 : ℕ) (n : ℕ) (u : List Upset) (hs : s.wf = true)
    : (State.fetchSlice s c x2 n u).1.wf = true := by
  unfold State.fetchSlice
  dsimp only
  repeat' first
    | with_reducible assumption | with_reducible apply State.countReads_wf | with_reducible apply State.fetchWords_wf
    | with_reducible apply foldl_wf | split | simp only [wf_lit] | with_reducible apply wf_parts
    | with_reducible refine wf_fst_eq ‹_ = _› ?_ | intro _

/-! ### Flags -/

theorem State.reiniting_wf (s : State) (f : ℕ) (hs : s.wf = true) : (State.reiniting s f).wf = true := by
  unfold State.reiniting
  dsimp only
  repeat' first
    | with_reducible assumption | with_reducible apply foldl_wf | with_reducible apply wfParts_memWrite
    | with_reducible apply wfParts_memPutWord | with_reducible apply wfParts_memZero
    | with_reducible apply wfParts_nvmWrite | with_reducible apply wfParts_nvmZero | split | simp only [wf_lit]
    | with_reducible apply wf_parts

theorem State.reinitOver_wf (s : State) (f : ℕ) (hs : s.wf = true) : (State.reinitOver s f).wf = true := by
  unfold State.reinitOver
  dsimp only
  repeat' first
    | with_reducible assumption | with_reducible apply foldl_wf | with_reducible apply wfParts_memWrite
    | with_reducible apply wfParts_memPutWord | with_reducible apply wfParts_memZero
    | with_reducible apply wfParts_nvmWrite | with_reducible apply wfParts_nvmZero | split | simp only [wf_lit]
    | with_reducible apply wf_parts

theorem State.endIf_wf (s : State) (n : ℕ) (gone : Bool) (hs : s.wf = true) : (State.endIf s n gone).wf = true := by
  unfold State.endIf
  repeat' first
    | with_reducible assumption | with_reducible apply State.ceases_wf | with_reducible apply foldl_wf | split

theorem State.portCond_wf (s : State) (hs : s.wf = true) : (State.portCond s).wf = true := by
  unfold State.portCond
  dsimp only
  repeat' first
    | with_reducible assumption | with_reducible apply State.stage_wf | with_reducible apply State.ariseIf_wf
    | with_reducible apply foldl_wf | split

theorem State.settle_wf (s : State) (hs : s.wf = true) : (State.settle s).wf = true := by
  unfold State.settle
  dsimp only
  repeat' first
    | with_reducible assumption | with_reducible apply State.refreshFaultN_wf | with_reducible apply State.endIf_wf
    | with_reducible apply State.setO_wf | with_reducible apply State.portCond_wf
    | with_reducible apply State.dieCond_wf | with_reducible apply foldl_wf | split

/-! ### Assembly -/

theorem State.capLim_wf (s : State) (hs : s.wf = true) : (State.capLim s).wf = true := by
  unfold State.capLim
  dsimp only
  repeat' first
    | with_reducible assumption | with_reducible apply State.stage_wf | with_reducible apply State.setO_wf
    | with_reducible apply foldl_wf | split

theorem State.floorUpdate_wf (s : State) (hs : s.wf = true) : (State.floorUpdate s).wf = true := by
  unfold State.floorUpdate
  dsimp only
  repeat' first
    | with_reducible assumption | with_reducible apply State.setO_wf | with_reducible apply State.capLim_wf
    | with_reducible apply foldl_wf | with_reducible apply wfParts_memWrite | with_reducible apply wfParts_memPutWord
    | with_reducible apply wfParts_memZero | with_reducible apply wfParts_nvmWrite
    | with_reducible apply wfParts_nvmZero | split | simp only [wf_lit] | with_reducible apply wf_parts

theorem State.wakeSpare_wf (s : State) (p0 : ℕ) (p1 : ℕ) (hs : s.wf = true)
    : (State.wakeSpare s p0 p1).wf = true := by
  unfold State.wakeSpare
  repeat' first
    | with_reducible assumption | with_reducible apply State.setO_wf | with_reducible apply State.setMap_wf
    | with_reducible apply foldl_wf | split

theorem State.releaseRetired_wf (s : State) (hs : s.wf = true) : (State.releaseRetired s).wf = true := by
  unfold State.releaseRetired
  repeat' first
    | with_reducible assumption | with_reducible apply State.setO_wf | with_reducible apply foldl_wf | split
    | simp only [wf_lit] | with_reducible apply wf_parts | with_reducible refine wf_fst_eq ‹_ = _› ?_ | intro _

theorem State.creditMode_wf (s : State) (hs : s.wf = true) : (State.creditMode s).wf = true := by
  unfold State.creditMode
  dsimp only
  repeat' first
    | with_reducible assumption | with_reducible apply State.setO_wf

theorem State.switchTo_wf (s : State) (target : ℕ) (p0 : ℕ) (p1 : ℕ) (noRank : Bool) (hs : s.wf = true)
    : (State.switchTo s target p0 p1 noRank).wf = true := by
  unfold State.switchTo
  dsimp only
  repeat' first
    | with_reducible assumption | with_reducible apply State.floorUpdate_wf | with_reducible apply State.creditMode_wf
    | with_reducible apply State.bump_wf | with_reducible apply State.bumpBy_wf | with_reducible apply State.stage_wf
    | with_reducible apply State.wakeSpare_wf | with_reducible apply State.setO_wf
    | with_reducible apply State.settle_wf | with_reducible apply State.ariseIf_wf
    | with_reducible apply State.setMap_wf | with_reducible apply State.releaseRetired_wf
    | with_reducible apply foldl_wf | with_reducible apply wfParts_memWrite | with_reducible apply wfParts_memPutWord
    | with_reducible apply wfParts_memZero | with_reducible apply wfParts_nvmWrite
    | with_reducible apply wfParts_nvmZero | split | simp only [wf_lit] | with_reducible apply wf_parts

theorem State.layoutSwitch_wf (s : State) (hs : s.wf = true) : (State.layoutSwitch s).wf = true := by
  unfold State.layoutSwitch
  dsimp only
  repeat' first
    | with_reducible assumption | with_reducible apply State.switchTo_wf | with_reducible apply foldl_wf
    | with_reducible apply wfParts_memWrite | with_reducible apply wfParts_memPutWord
    | with_reducible apply wfParts_memZero | with_reducible apply wfParts_nvmWrite
    | with_reducible apply wfParts_nvmZero | split | simp only [wf_lit] | with_reducible apply wf_parts

theorem State.mapSlice_wf (s : State) (t : ℕ) (f : OpenSlice → OpenSlice) (hs : s.wf = true)
    : (State.mapSlice s t f).wf = true := by
  unfold State.mapSlice
  dsimp only
  repeat' first
    | with_reducible assumption | with_reducible apply foldl_wf | with_reducible apply wfParts_memWrite
    | with_reducible apply wfParts_memPutWord | with_reducible apply wfParts_memZero
    | with_reducible apply wfParts_nvmWrite | with_reducible apply wfParts_nvmZero | split | simp only [wf_lit]
    | with_reducible apply wf_parts

theorem State.acceptEntry_wf (s : State) (g : Grp) (o : OpenSlice) (w : ℕ) (hs : s.wf = true)
    : (State.acceptEntry s g o w).wf = true := by
  unfold State.acceptEntry
  repeat' first
    | with_reducible assumption | with_reducible apply State.bump_wf | with_reducible apply State.mapSlice_wf
    | with_reducible apply State.setO_wf | with_reducible apply State.lossOvf_wf | with_reducible apply foldl_wf
    | split

theorem State.parityLoss_wf (s : State) (g : Grp) (tag : ℕ) (hs : s.wf = true)
    : (State.parityLoss s g tag).wf = true := by
  unfold State.parityLoss
  dsimp only
  repeat' first
    | with_reducible assumption | with_reducible apply State.bump_wf | with_reducible apply State.lossOvf_wf
    | with_reducible apply foldl_wf | with_reducible apply wfParts_memWrite | with_reducible apply wfParts_memPutWord
    | with_reducible apply wfParts_memZero | with_reducible apply wfParts_nvmWrite
    | with_reducible apply wfParts_nvmZero | split | simp only [wf_lit] | with_reducible apply wf_parts

theorem State.hitCollect_wf (s : State) (g : Grp) (hs : s.wf = true) : (State.hitCollect s g).wf = true := by
  unfold State.hitCollect
  dsimp only
  repeat' first
    | with_reducible assumption | with_reducible apply State.bump_wf | with_reducible apply State.setGroup_wf
    | with_reducible apply State.parityLoss_wf | with_reducible apply State.lossOvf_wf
    | with_reducible apply State.acceptEntry_wf | with_reducible apply foldl_wf | split

theorem State.collect_wf (s : State) (cycles : ℕ) (ready : ℕ) (hs : s.wf = true)
    : (State.collect s cycles ready).wf = true := by
  unfold State.collect
  dsimp only
  repeat' first
    | with_reducible assumption | with_reducible apply State.hitCollect_wf | with_reducible apply foldl_wf
    | with_reducible apply wfParts_memWrite | with_reducible apply wfParts_memPutWord
    | with_reducible apply wfParts_memZero | with_reducible apply wfParts_nvmWrite
    | with_reducible apply wfParts_nvmZero | split | simp only [wf_lit] | with_reducible apply wf_parts

theorem State.lossReport_wf (s : State) (hs : s.wf = true) : (State.lossReport s).wf = true := by
  unfold State.lossReport
  dsimp only
  repeat' first
    | with_reducible assumption | with_reducible apply State.bump_wf | with_reducible apply State.mapSlice_wf
    | with_reducible apply foldl_wf | with_reducible apply wfParts_memWrite | with_reducible apply wfParts_memPutWord
    | with_reducible apply wfParts_memZero | with_reducible apply wfParts_nvmWrite
    | with_reducible apply wfParts_nvmZero | split | simp only [wf_lit] | with_reducible apply wf_parts

theorem State.countDisplaced_wf (s : State) (o : OpenSlice) (hs : s.wf = true)
    : (State.countDisplaced s o).wf = true := by
  unfold State.countDisplaced
  repeat' first
    | with_reducible assumption | with_reducible apply State.bump_wf | with_reducible apply State.lossOvf_wf
    | with_reducible apply foldl_wf | split

theorem State.countTrunc_wf (s : State) (o : OpenSlice) (hs : s.wf = true) : (State.countTrunc s o).wf = true := by
  unfold State.countTrunc
  dsimp only
  repeat' first
    | with_reducible assumption | with_reducible apply State.bump_wf | with_reducible apply State.stage_wf
    | with_reducible apply State.setO_wf | with_reducible apply foldl_wf | split

theorem State.pairFix_wf (s : State) (x1 : ℕ) (u : List Upset) (hs : s.wf = true)
    : (State.pairFix s x1 u).wf = true := by
  unfold State.pairFix
  dsimp only
  repeat' first
    | with_reducible assumption | with_reducible apply State.readSpm_wf | with_reducible apply State.writeEntry_wf
    | with_reducible apply foldl_wf | split

theorem State.noteClosed_wf (s : State) (o : OpenSlice) (size : ℕ) (hs : s.wf = true)
    : (State.noteClosed s o size).wf = true := by
  unfold State.noteClosed
  dsimp only
  repeat' first
    | with_reducible assumption | with_reducible apply foldl_wf | with_reducible apply wfParts_memWrite
    | with_reducible apply wfParts_memPutWord | with_reducible apply wfParts_memZero
    | with_reducible apply wfParts_nvmWrite | with_reducible apply wfParts_nvmZero | split | simp only [wf_lit]
    | with_reducible apply wf_parts

theorem State.spillFault_wf (s : State) (hs : s.wf = true) : (State.spillFault s).wf = true := by
  unfold State.spillFault
  repeat' first
    | with_reducible assumption | with_reducible apply State.raiseFault_wf | with_reducible apply foldl_wf | split

theorem State.spillSlice_wf (s : State) (o : OpenSlice) (hs : s.wf = true) : (State.spillSlice s o).wf = true := by
  unfold State.spillSlice
  dsimp only
  repeat' first
    | with_reducible assumption | with_reducible apply State.bumpBy_wf | with_reducible apply State.spillFault_wf
    | with_reducible apply State.stage_wf | with_reducible apply State.setO_wf
    | with_reducible apply State.writeEntry_wf | with_reducible apply State.lossOvf_wf
    | with_reducible apply State.noteClosed_wf | with_reducible apply foldl_wf | split

theorem State.storeSlice_wf (s : State) (o : OpenSlice) (hs : s.wf = true) : (State.storeSlice s o).wf = true := by
  unfold State.storeSlice
  dsimp only
  repeat' first
    | with_reducible assumption | with_reducible apply State.setO_wf | with_reducible apply State.writeEntry_wf
    | with_reducible apply State.wrapBy_wf | with_reducible apply State.peak_wf
    | with_reducible apply State.noteClosed_wf | with_reducible apply foldl_wf | with_reducible apply wfParts_memWrite
    | with_reducible apply wfParts_memPutWord | with_reducible apply wfParts_memZero
    | with_reducible apply wfParts_nvmWrite | with_reducible apply wfParts_nvmZero | split | simp only [wf_lit]
    | with_reducible apply wf_parts | with_reducible refine wf_fst_eq ‹_ = _› ?_ | intro _

theorem State.drainDone_wf (s : State) (hs : s.wf = true) : (State.drainDone s).wf = true := by
  unfold State.drainDone
  repeat' first
    | with_reducible assumption | with_reducible apply State.setO_wf | with_reducible apply foldl_wf | split

theorem State.closeSlice_wf (s : State) (o : OpenSlice) (u : List Upset) (hs : s.wf = true)
    : (State.closeSlice s o u).wf = true := by
  unfold State.closeSlice
  dsimp only
  repeat' first
    | with_reducible assumption | with_reducible apply State.floorUpdate_wf
    | with_reducible apply State.countDisplaced_wf | with_reducible apply State.drainDone_wf
    | with_reducible apply State.pairFix_wf | with_reducible apply State.spillSlice_wf
    | with_reducible apply State.wrapBy_wf | with_reducible apply State.countTrunc_wf
    | with_reducible apply State.storeSlice_wf | with_reducible apply foldl_wf | with_reducible apply wfParts_memWrite
    | with_reducible apply wfParts_memPutWord | with_reducible apply wfParts_memZero
    | with_reducible apply wfParts_nvmWrite | with_reducible apply wfParts_nvmZero | split | simp only [wf_lit]
    | with_reducible apply wf_parts

theorem State.emptyEntry_wf (s : State) (o : OpenSlice) (u : List Upset) (hs : s.wf = true)
    : (State.emptyEntry s o u).wf = true := by
  unfold State.emptyEntry
  dsimp only
  repeat' first
    | with_reducible assumption | with_reducible apply State.drainDone_wf | with_reducible apply State.pairFix_wf
    | with_reducible apply State.writeEntry_wf | with_reducible apply foldl_wf | with_reducible apply wfParts_memWrite
    | with_reducible apply wfParts_memPutWord | with_reducible apply wfParts_memZero
    | with_reducible apply wfParts_nvmWrite | with_reducible apply wfParts_nvmZero | split | simp only [wf_lit]
    | with_reducible apply wf_parts

theorem State.closeCrossing_wf (s : State) (o : OpenSlice) (u : List Upset) (hs : s.wf = true)
    : (State.closeCrossing s o u).wf = true := by
  unfold State.closeCrossing
  dsimp only
  repeat' first
    | with_reducible assumption | with_reducible apply State.layoutSwitch_wf
    | with_reducible apply State.closeSlice_wf | with_reducible apply State.emptyEntry_wf
    | with_reducible apply foldl_wf | with_reducible apply wfParts_memWrite | with_reducible apply wfParts_memPutWord
    | with_reducible apply wfParts_memZero | with_reducible apply wfParts_nvmWrite
    | with_reducible apply wfParts_nvmZero | split | simp only [wf_lit] | with_reducible apply wf_parts

theorem State.sliceClose_wf (s : State) (u : List Upset) (hs : s.wf = true) : (State.sliceClose s u).wf = true := by
  unfold State.sliceClose
  repeat' first
    | with_reducible assumption | with_reducible apply State.closeCrossing_wf | with_reducible apply foldl_wf | split

theorem State.closeDue_wf (s : State) (u : List Upset) (hs : s.wf = true) : (State.closeDue s u).wf = true := by
  unfold State.closeDue
  repeat' first
    | with_reducible assumption | with_reducible apply State.closeCrossing_wf | with_reducible apply foldl_wf | split
    | simp only [wf_lit] | with_reducible apply wf_parts | with_reducible refine wf_fst_eq ‹_ = _› ?_ | intro _

theorem State.writeBurst_wf (s : State) (x1 : ℕ) (b : List Byte) (hs : s.wf = true)
    : ∀ t, State.writeBurst s x1 b = some t → t.wf = true := by
  unfold State.writeBurst
  split
  · split
    · exact wf_some_state (State.countWrites_wf _ _ _ (State.setRankData_wf _ _ _ hs (memWrite_wf _ _ (State.rankData_wf _ _ hs))))
    · exact wf_none_state
  · exact wf_some_state (wf_spm s hs (memWrite_wf _ _ (wf_spm_part hs)) rfl rfl rfl)
  · exact wf_none_state

theorem State.drainBurst_wf (s : State) (u : List Upset) (hs : s.wf = true) : (State.drainBurst s u).wf = true := by
  unfold State.drainBurst
  dsimp only
  repeat' first
    | with_reducible assumption | with_reducible apply State.markLost_wf
    | with_reducible refine State.writeBurst_wf _ _ _ ?_ _ ‹_› | with_reducible apply foldl_wf
    | with_reducible apply wfParts_memWrite | with_reducible apply wfParts_memPutWord
    | with_reducible apply wfParts_memZero | with_reducible apply wfParts_nvmWrite
    | with_reducible apply wfParts_nvmZero | split | simp only [wf_lit] | with_reducible apply wf_parts
    | with_reducible refine wf_fst_eq ‹_ = _› ?_ | intro _

theorem State.creditAdd_wf (s : State) (hs : s.wf = true) : (State.creditAdd s).wf = true := by
  unfold State.creditAdd
  repeat' first
    | with_reducible assumption | with_reducible apply State.setO_wf | with_reducible apply foldl_wf | split

theorem State.openCrossing_wf (s : State) (hs : s.wf = true) : (State.openCrossing s).wf = true := by
  unfold State.openCrossing
  dsimp only
  repeat' first
    | with_reducible assumption | with_reducible apply foldl_wf | with_reducible apply wfParts_memWrite
    | with_reducible apply wfParts_memPutWord | with_reducible apply wfParts_memZero
    | with_reducible apply wfParts_nvmWrite | with_reducible apply wfParts_nvmZero | split | simp only [wf_lit]
    | with_reducible apply wf_parts

theorem State.asmRun_wf (s : State) (hs : s.wf = true) : (State.asmRun s).wf = true := by
  unfold State.asmRun
  repeat' first
    | with_reducible assumption | with_reducible apply State.setO_wf

theorem State.openNow_wf (s : State) (hs : s.wf = true) : (State.openNow s).wf = true := by
  unfold State.openNow
  dsimp only
  repeat' first
    | with_reducible assumption | with_reducible apply foldl_wf | with_reducible apply wfParts_memWrite
    | with_reducible apply wfParts_memPutWord | with_reducible apply wfParts_memZero
    | with_reducible apply wfParts_nvmWrite | with_reducible apply wfParts_nvmZero | split | simp only [wf_lit]
    | with_reducible apply wf_parts

theorem State.asmCtrlEffect_wf (s : State) (v : ℕ) (hs : s.wf = true) : (State.asmCtrlEffect s v).wf = true := by
  unfold State.asmCtrlEffect
  dsimp only
  repeat' first
    | with_reducible assumption | with_reducible apply State.drainDone_wf | with_reducible apply State.asmRun_wf
    | with_reducible apply State.setO_wf | with_reducible apply foldl_wf | with_reducible apply wfParts_memWrite
    | with_reducible apply wfParts_memPutWord | with_reducible apply wfParts_memZero
    | with_reducible apply wfParts_nvmWrite | with_reducible apply wfParts_nvmZero | split | simp only [wf_lit]
    | with_reducible apply wf_parts

theorem State.discardOpen_wf (s : State) (hs : s.wf = true) : (State.discardOpen s).wf = true := by
  unfold State.discardOpen
  dsimp only
  repeat' first
    | with_reducible assumption | with_reducible apply State.bumpBy_wf | with_reducible apply State.lossOvf_wf
    | with_reducible apply foldl_wf | with_reducible apply wfParts_memWrite | with_reducible apply wfParts_memPutWord
    | with_reducible apply wfParts_memZero | with_reducible apply wfParts_nvmWrite
    | with_reducible apply wfParts_nvmZero | split | simp only [wf_lit] | with_reducible apply wf_parts

theorem State.asmHold_wf (s : State) (hs : s.wf = true) : (State.asmHold s).wf = true := by
  unfold State.asmHold
  dsimp only
  repeat' first
    | with_reducible assumption | with_reducible apply State.bumpBy_wf | with_reducible apply State.discardOpen_wf
    | with_reducible apply State.setO_wf | with_reducible apply State.mapChans_wf | with_reducible apply foldl_wf
    | with_reducible apply wfParts_memWrite | with_reducible apply wfParts_memPutWord
    | with_reducible apply wfParts_memZero | with_reducible apply wfParts_nvmWrite
    | with_reducible apply wfParts_nvmZero | split | simp only [wf_lit] | with_reducible apply wf_parts

theorem State.asmResume_wf (s : State) (hs : s.wf = true) : (State.asmResume s).wf = true := by
  unfold State.asmResume
  repeat' first
    | with_reducible assumption | with_reducible apply State.setO_wf | with_reducible apply foldl_wf | split

/-! ### Latency -/

theorem State.countCapExp_wf (s : State) (c : ℕ) (hs : s.wf = true) : (State.countCapExp s c).wf = true := by
  unfold State.countCapExp
  repeat' first
    | with_reducible assumption | with_reducible apply State.bump_wf | with_reducible apply foldl_wf | split

theorem State.spareMapped_wf (s : State) (hs : s.wf = true) : (State.spareMapped s).wf = true := by
  unfold State.spareMapped
  dsimp only
  repeat' first
    | with_reducible assumption | with_reducible apply State.settle_wf | with_reducible apply State.setMap_wf
    | with_reducible apply foldl_wf | with_reducible apply wfParts_memWrite | with_reducible apply wfParts_memPutWord
    | with_reducible apply wfParts_memZero | with_reducible apply wfParts_nvmWrite
    | with_reducible apply wfParts_nvmZero | split | simp only [wf_lit] | with_reducible apply wf_parts

theorem State.migrationEnd_wf (s : State) (hs : s.wf = true) : (State.migrationEnd s).wf = true := by
  unfold State.migrationEnd
  dsimp only
  repeat' first
    | with_reducible assumption | with_reducible apply State.stage_wf | with_reducible apply State.setO_wf
    | with_reducible apply State.settle_wf | with_reducible apply foldl_wf | with_reducible apply wfParts_memWrite
    | with_reducible apply wfParts_memPutWord | with_reducible apply wfParts_memZero
    | with_reducible apply wfParts_nvmWrite | with_reducible apply wfParts_nvmZero | split | simp only [wf_lit]
    | with_reducible apply wf_parts

theorem State.migRead_wf (s : State) (u : List Upset) (x2 : List ℕ) (hs : s.wf = true)
    : (State.migRead s u x2).1.wf = true := by
  induction x2 generalizing s with
  | nil =>
    unfold State.migRead
    dsimp only
    repeat' first
      | with_reducible apply ih | with_reducible assumption
  | cons a r ih =>
    unfold State.migRead
    dsimp only
    repeat' first
      | with_reducible apply ih | with_reducible assumption | with_reducible apply State.readBeat_wf
      | with_reducible apply foldl_wf | split

theorem State.migrationCopy_wf (s : State) (u : List Upset) (hs : s.wf = true)
    : (State.migrationCopy s u).wf = true := by
  unfold State.migrationCopy
  dsimp only
  repeat' first
    | with_reducible assumption | with_reducible apply State.countReads_wf | with_reducible apply State.bump_wf
    | with_reducible apply State.setRankData_wf | with_reducible apply State.setO_wf
    | with_reducible apply State.migrationEnd_wf | with_reducible apply State.markLost_wf
    | with_reducible apply State.countWrites_wf | with_reducible apply State.migRead_wf
    | with_reducible apply foldl_wf | with_reducible apply wfParts_memWrite | with_reducible apply wfParts_memPutWord
    | with_reducible apply wfParts_memZero | with_reducible apply wfParts_nvmWrite
    | with_reducible apply wfParts_nvmZero | with_reducible apply memWrite_wf | with_reducible apply State.rankData_wf
    | with_reducible apply memZero_wf | split | simp only [wf_lit] | with_reducible apply wf_parts
    | with_reducible refine wf_fst_eq ‹_ = _› ?_ | intro _

theorem State.maqSelect_wf (s : State) (v : ℕ) (hs : s.wf = true) : (State.maqSelect s v).wf = true := by
  unfold State.maqSelect
  dsimp only
  repeat' first
    | with_reducible assumption | with_reducible apply foldl_wf | with_reducible apply wfParts_memWrite
    | with_reducible apply wfParts_memPutWord | with_reducible apply wfParts_memZero
    | with_reducible apply wfParts_nvmWrite | with_reducible apply wfParts_nvmZero | split | simp only [wf_lit]
    | with_reducible apply wf_parts

theorem State.lbStart_wf (s : State) (ok : ℕ → Bool) (hs : s.wf = true) : (State.lbStart s ok).wf = true := by
  unfold State.lbStart
  dsimp only
  repeat' first
    | with_reducible assumption | with_reducible apply State.creditMode_wf | with_reducible apply State.setO_wf
    | with_reducible apply State.ariseIf_wf | with_reducible apply State.setMap_wf
    | with_reducible apply State.dieCond_wf | with_reducible apply foldl_wf | with_reducible apply wfParts_memWrite
    | with_reducible apply wfParts_memPutWord | with_reducible apply wfParts_memZero
    | with_reducible apply wfParts_nvmWrite | with_reducible apply wfParts_nvmZero | split | simp only [wf_lit]
    | with_reducible apply wf_parts | with_reducible refine wf_fst_eq ‹_ = _› ?_ | intro _

theorem State.lbHold_wf (s : State) (hs : s.wf = true) : (State.lbHold s).wf = true := by
  unfold State.lbHold
  dsimp only
  repeat' first
    | with_reducible assumption | with_reducible apply State.setO_wf | with_reducible apply foldl_wf
    | with_reducible apply wfParts_memWrite | with_reducible apply wfParts_memPutWord
    | with_reducible apply wfParts_memZero | with_reducible apply wfParts_nvmWrite
    | with_reducible apply wfParts_nvmZero | split | simp only [wf_lit] | with_reducible apply wf_parts
    | with_reducible refine wf_fst_eq ‹_ = _› ?_ | intro _

theorem State.lbResume_wf (s : State) (hs : s.wf = true) : (State.lbResume s).wf = true := by
  unfold State.lbResume
  repeat' first
    | with_reducible assumption | with_reducible apply State.setO_wf | with_reducible apply foldl_wf | split

theorem State.lbResync_wf (s : State) (n0 : ℕ) (hs : s.wf = true) : (State.lbResync s n0).wf = true := by
  unfold State.lbResync
  dsimp only
  repeat' first
    | with_reducible assumption | with_reducible apply State.setO_wf | with_reducible apply foldl_wf
    | with_reducible apply wfParts_memWrite | with_reducible apply wfParts_memPutWord
    | with_reducible apply wfParts_memZero | with_reducible apply wfParts_nvmWrite
    | with_reducible apply wfParts_nvmZero | split | simp only [wf_lit] | with_reducible apply wf_parts

/-! ### Crc -/

theorem State.checkOn_wf (s : State) (i : ℕ) (v : ℕ) (l : List Byte) (hs : s.wf = true)
    : (State.checkOn s i v l).wf = true := by
  unfold State.checkOn
  repeat' first
    | with_reducible assumption | with_reducible apply State.setO_wf

theorem State.check_wf (s : State) (i : ℕ) (l : List Byte) (hs : s.wf = true) : (State.check s i l).wf = true := by
  unfold State.check
  repeat' first
    | with_reducible assumption | with_reducible apply State.checkOn_wf

/-! ### Compression -/

theorem State.setCtx_wf (s : State) (n : ℕ) (c : Ctx) (hs : s.wf = true) : (State.setCtx s n c).wf = true := by
  unfold State.setCtx
  dsimp only
  repeat' first
    | with_reducible assumption | with_reducible apply foldl_wf | with_reducible apply wfParts_memWrite
    | with_reducible apply wfParts_memPutWord | with_reducible apply wfParts_memZero
    | with_reducible apply wfParts_nvmWrite | with_reducible apply wfParts_nvmZero | split | simp only [wf_lit]
    | with_reducible apply wf_parts

theorem State.useCtx_wf (s : State) (sup : Bool) (n : ℕ) (hs : s.wf = true) : (State.useCtx s sup n).wf = true := by
  unfold State.useCtx
  dsimp only
  repeat' first
    | with_reducible assumption | with_reducible apply State.bump_wf | with_reducible apply State.soil_wf
    | with_reducible apply foldl_wf | with_reducible apply wfParts_memWrite | with_reducible apply wfParts_memPutWord
    | with_reducible apply wfParts_memZero | with_reducible apply wfParts_nvmWrite
    | with_reducible apply wfParts_nvmZero | split | simp only [wf_lit] | with_reducible apply wf_parts

theorem State.restoreCtx_wf (s : State) (sup : Bool) (n : ℕ) (u : List Upset) (hs : s.wf = true)
    : (State.restoreCtx s sup n u).1.wf = true := by
  unfold State.restoreCtx
  dsimp only
  repeat' first
    | with_reducible assumption | with_reducible apply State.channelRead_wf | with_reducible apply foldl_wf | split

theorem State.countBlocks_wf (s : State) (l : List CodedBlock) (hs : s.wf = true)
    : (State.countBlocks s l).wf = true := by
  unfold State.countBlocks
  repeat' first
    | with_reducible assumption | with_reducible apply State.bump_wf | with_reducible apply State.wrapBy_wf
    | with_reducible apply foldl_wf | split | simp only [wf_lit] | with_reducible apply wf_parts
    | with_reducible refine wf_fst_eq ‹_ = _› ?_ | intro _

theorem State.countOut_wf (s : State) (n : ℕ) (hs : s.wf = true) : (State.countOut s n).wf = true := by
  unfold State.countOut
  repeat' first
    | with_reducible assumption | with_reducible apply State.wrapBy_wf

theorem State.dropSupStreams_wf (s : State) (hs : s.wf = true) : (State.dropSupStreams s).wf = true := by
  unfold State.dropSupStreams
  dsimp only
  repeat' first
    | with_reducible assumption | with_reducible apply State.setO_wf | with_reducible apply State.setCtx_wf
    | with_reducible apply foldl_wf | with_reducible apply wfParts_memWrite | with_reducible apply wfParts_memPutWord
    | with_reducible apply wfParts_memZero | with_reducible apply wfParts_nvmWrite
    | with_reducible apply wfParts_nvmZero | split | simp only [wf_lit] | with_reducible apply wf_parts
    | with_reducible refine wf_fst_eq ‹_ = _› ?_ | intro _

theorem State.testJob_wf (s : State) (b : List Byte) (hs : s.wf = true) : (State.testJob s b).wf = true := by
  unfold State.testJob
  dsimp only
  repeat' first
    | with_reducible assumption | with_reducible apply State.useCtx_wf | with_reducible apply State.countOut_wf
    | with_reducible apply State.ungate_wf | with_reducible apply State.setO_wf
    | with_reducible apply State.countBlocks_wf | with_reducible apply State.wrapBy_wf
    | with_reducible apply State.setCtx_wf | with_reducible apply foldl_wf | with_reducible apply wfParts_memWrite
    | with_reducible apply wfParts_memPutWord | with_reducible apply wfParts_memZero
    | with_reducible apply wfParts_nvmWrite | with_reducible apply wfParts_nvmZero | split | simp only [wf_lit]
    | with_reducible apply wf_parts

theorem State.testNoCtx_wf (s : State) (b : List Byte) (u : List Upset) (hs : s.wf = true)
    : (State.testNoCtx s b u).wf = true := by
  unfold State.testNoCtx
  dsimp only
  repeat' first
    | with_reducible assumption | with_reducible apply State.bump_wf | with_reducible apply State.setOb_wf
    | with_reducible apply State.restoreCtx_wf | with_reducible apply State.setCtx_wf | with_reducible apply foldl_wf
    | split

/-! ### Pool -/

theorem State.setOwner_wf (s : State) (b : ℕ) (o : ℕ) (hs : s.wf = true) : (State.setOwner s b o).wf = true := by
  unfold State.setOwner
  dsimp only
  repeat' first
    | with_reducible assumption | with_reducible apply foldl_wf | with_reducible apply wfParts_memWrite
    | with_reducible apply wfParts_memPutWord | with_reducible apply wfParts_memZero
    | with_reducible apply wfParts_nvmWrite | with_reducible apply wfParts_nvmZero | split | simp only [wf_lit]
    | with_reducible apply wf_parts

theorem State.allocate_wf (s : State) (a : PoolAgent) (hs : s.wf = true) : (State.allocate s a).1.wf = true := by
  unfold State.allocate
  dsimp only
  repeat' first
    | with_reducible assumption | with_reducible apply State.setO_wf | with_reducible apply State.setOwner_wf
    | with_reducible apply foldl_wf | split

theorem State.transfer_wf (s : State) (a : PoolAgent) (to_ : PoolAgent) (b : ℕ) (hs : s.wf = true)
    : (State.transfer s a to_ b).wf = true := by
  unfold State.transfer
  repeat' first
    | with_reducible assumption | with_reducible apply State.bump_wf | with_reducible apply State.setOwner_wf
    | with_reducible apply foldl_wf | split

theorem State.release__wf (s : State) (a : PoolAgent) (b : ℕ) (hs : s.wf = true)
    : (State.release_ s a b).wf = true := by
  unfold State.release_
  repeat' first
    | with_reducible assumption | with_reducible apply State.bump_wf | with_reducible apply State.setOwner_wf
    | with_reducible apply foldl_wf | split

theorem State.transferAll_wf (s : State) (a : PoolAgent) (to_ : PoolAgent) (bs : List ℕ) (hs : s.wf = true)
    : (State.transferAll s a to_ bs).wf = true := by
  unfold State.transferAll
  repeat' first
    | with_reducible assumption | with_reducible apply State.transfer_wf | with_reducible apply foldl_wf | split
    | simp only [wf_lit] | with_reducible apply wf_parts | with_reducible refine wf_fst_eq ‹_ = _› ?_ | intro _

theorem State.releaseAll_wf (s : State) (a : PoolAgent) (bs : List ℕ) (hs : s.wf = true)
    : (State.releaseAll s a bs).wf = true := by
  unfold State.releaseAll
  repeat' first
    | with_reducible assumption | with_reducible apply State.release__wf | with_reducible apply foldl_wf | split
    | simp only [wf_lit] | with_reducible apply wf_parts | with_reducible refine wf_fst_eq ‹_ = _› ?_ | intro _

theorem State.writeBlocks_wf (s : State) (x1 : List ℕ) (x2 : List Byte) (hs : s.wf = true)
    : (State.writeBlocks s x1 x2).wf = true := by
  induction x1 generalizing s x2 with
  | nil =>
    unfold State.writeBlocks
    repeat' first
      | with_reducible apply ih | with_reducible assumption
  | cons a r ih =>
    unfold State.writeBlocks
    repeat' first
      | with_reducible apply ih | with_reducible assumption | with_reducible apply foldl_wf
      | with_reducible apply wfParts_memWrite | with_reducible apply wfParts_memPutWord
      | with_reducible apply wfParts_memZero | with_reducible apply wfParts_nvmWrite
      | with_reducible apply wfParts_nvmZero | split | simp only [wf_lit] | with_reducible apply wf_parts

theorem State.poolReclaim_wf (s : State) (hs : s.wf = true) : (State.poolReclaim s).wf = true := by
  unfold State.poolReclaim
  dsimp only
  repeat' first
    | with_reducible assumption | with_reducible apply State.bumpBy_wf | with_reducible apply State.setOwner_wf
    | with_reducible apply foldl_wf | split | simp only [wf_lit] | with_reducible apply wf_parts
    | with_reducible refine wf_fst_eq ‹_ = _› ?_ | intro _

end Sys2Proof.Machine
end

