-- ==== Sys2Proof/Laws/WfQuery.lean ====
section
/-! SUPPORT. The canonical form of the stored data: what each operation keeps, under
queries, network time, the crossing commands, the builders and the hub merger. -/
namespace Sys2Proof.Machine

set_option Elab.async false

/-! ### Query -/

theorem State.setItems_wf (s : State) (l : List QItem) (hs : s.wf = true) : (State.setItems s l).wf = true := by
  unfold State.setItems
  dsimp only
  repeat' first
    | with_reducible assumption | with_reducible apply foldl_wf | with_reducible apply wfParts_memWrite
    | with_reducible apply wfParts_memPutWord | with_reducible apply wfParts_memZero
    | with_reducible apply wfParts_nvmWrite | with_reducible apply wfParts_nvmZero | split | simp only [wf_lit]
    | with_reducible apply wf_parts

theorem State.busyChange_wf (s : State) (was : Bool) (hs : s.wf = true) : (State.busyChange s was).wf = true := by
  unfold State.busyChange
  dsimp only
  repeat' first
    | with_reducible assumption | with_reducible apply State.stage_wf | with_reducible apply foldl_wf
    | with_reducible apply wfParts_memWrite | with_reducible apply wfParts_memPutWord
    | with_reducible apply wfParts_memZero | with_reducible apply wfParts_nvmWrite
    | with_reducible apply wfParts_nvmZero | split | simp only [wf_lit] | with_reducible apply wf_parts

theorem State.busyUpdate_wf (s : State) (before : ℕ) (hs : s.wf = true) : (State.busyUpdate s before).wf = true := by
  unfold State.busyUpdate
  repeat' first
    | with_reducible assumption | with_reducible apply State.busyChange_wf

theorem State.busyLevelEffect_wf (s : State) (v : ℕ) (hs : s.wf = true) : (State.busyLevelEffect s v).wf = true := by
  unfold State.busyLevelEffect
  repeat' first
    | with_reducible assumption | with_reducible apply State.setO_wf | with_reducible apply State.busyChange_wf

theorem State.checkQid_wf (s : State) (qid : ℕ) (hs : s.wf = true) : (State.checkQid s qid).wf = true := by
  unfold State.checkQid
  dsimp only
  repeat' first
    | with_reducible assumption | with_reducible apply State.bump_wf | with_reducible apply State.setO_wf
    | with_reducible apply foldl_wf | with_reducible apply wfParts_memWrite | with_reducible apply wfParts_memPutWord
    | with_reducible apply wfParts_memZero | with_reducible apply wfParts_nvmWrite
    | with_reducible apply wfParts_nvmZero | split | simp only [wf_lit] | with_reducible apply wf_parts

theorem State.refuse_wf (s : State) (qid : ℕ) (hs : s.wf = true) : (State.refuse s qid).wf = true := by
  unfold State.refuse
  dsimp only
  repeat' first
    | with_reducible assumption | with_reducible apply State.bump_wf | with_reducible apply State.setItems_wf
    | with_reducible apply foldl_wf | split

theorem State.enqueueQuery_wf (s : State) (w : ℕ) (hs : s.wf = true) : (State.enqueueQuery s w).wf = true := by
  unfold State.enqueueQuery
  dsimp only
  repeat' first
    | with_reducible assumption | with_reducible apply State.bump_wf | with_reducible apply State.checkQid_wf
    | with_reducible apply State.busyUpdate_wf | with_reducible apply State.ungate_wf
    | with_reducible apply State.refuse_wf | with_reducible apply State.wrapBy_wf | with_reducible apply State.peak_wf
    | with_reducible apply State.setItems_wf | with_reducible apply foldl_wf | split

theorem State.countIndex_wf (s : State) (u : List Upset) (w : Win) (hs : s.wf = true)
    : (State.countIndex s u w).wf = true := by
  unfold State.countIndex
  dsimp only
  repeat' first
    | with_reducible assumption | with_reducible apply State.countCapExp_wf | with_reducible apply State.noteWord_wf
    | with_reducible apply foldl_wf | split

theorem State.mapSlot_wf (s : State) (n : Fin 4) (f : QEntry → QEntry) (hs : s.wf = true)
    : (State.mapSlot s n f).wf = true := by
  unfold State.mapSlot
  repeat' first
    | with_reducible assumption | with_reducible apply State.setItems_wf

theorem State.reserve_wf (s : State) (n : Fin 4) (x2 : ℕ) (hs : s.wf = true) : (State.reserve s n x2).wf = true := by
  induction x2 generalizing s with
  | zero =>
    unfold State.reserve
    repeat' first
      | with_reducible apply ih | with_reducible assumption
  | succ n ih =>
    unfold State.reserve
    repeat' first
      | with_reducible apply ih | with_reducible assumption | with_reducible apply State.bump_wf
      | with_reducible apply State.mapSlot_wf | with_reducible apply State.allocate_wf | with_reducible apply foldl_wf
      | split | simp only [wf_lit] | with_reducible apply wf_parts | with_reducible refine wf_fst_eq ‹_ = _› ?_

theorem State.finishAnswer_wf (s : State) (n : Fin 4) (e : QEntry) (a : Answer) (hs : s.wf = true)
    : (State.finishAnswer s n e a).wf = true := by
  unfold State.finishAnswer
  dsimp only
  repeat' first
    | with_reducible assumption | with_reducible apply State.writeBlocks_wf | with_reducible apply State.releaseAll_wf
    | with_reducible apply State.mapSlot_wf | with_reducible apply State.check_wf

theorem State.pack_wf (s : State) (n : Fin 4) (hs : s.wf = true) : (State.pack s n).wf = true := by
  unfold State.pack
  dsimp only
  repeat' first
    | with_reducible assumption | with_reducible apply State.mapSlot_wf | with_reducible apply State.finishAnswer_wf
    | with_reducible apply foldl_wf | split

theorem State.afterReserve_wf (s : State) (n : Fin 4) (hs : s.wf = true) : (State.afterReserve s n).wf = true := by
  unfold State.afterReserve
  repeat' first
    | with_reducible assumption | with_reducible apply State.mapSlot_wf | with_reducible apply State.pack_wf
    | with_reducible apply foldl_wf | split

theorem State.indexQuery_wf (s : State) (n : Fin 4) (u : List Upset) (hs : s.wf = true)
    : (State.indexQuery s n u).wf = true := by
  unfold State.indexQuery
  dsimp only
  repeat' first
    | with_reducible assumption | with_reducible apply State.reserve_wf | with_reducible apply State.countIndex_wf
    | with_reducible apply State.mapSlot_wf | with_reducible apply State.afterReserve_wf
    | with_reducible apply foldl_wf | split | simp only [wf_lit] | with_reducible apply wf_parts
    | with_reducible refine wf_fst_eq ‹_ = _› ?_ | intro _

theorem State.queryStart_wf (s : State) (u : List Upset) (hs : s.wf = true) : (State.queryStart s u).wf = true := by
  unfold State.queryStart
  dsimp only
  repeat' first
    | with_reducible assumption | with_reducible apply State.bump_wf | with_reducible apply State.indexQuery_wf
    | with_reducible apply State.mapSlot_wf | with_reducible apply State.setItems_wf | with_reducible apply foldl_wf
    | split

theorem State.waitEnd_wf (s : State) (u : List Upset) (hs : s.wf = true) : (State.waitEnd s u).wf = true := by
  unfold State.waitEnd
  repeat' first
    | with_reducible assumption | with_reducible apply State.indexQuery_wf | with_reducible apply foldl_wf | split

theorem State.fetchDone_wf (s : State) (n : Fin 4) (u : List Upset) (hs : s.wf = true)
    : (State.fetchDone s n u).wf = true := by
  unfold State.fetchDone
  dsimp only
  repeat' first
    | with_reducible assumption | with_reducible apply State.bump_wf | with_reducible apply State.mapSlot_wf
    | with_reducible apply State.settle_wf | with_reducible apply State.noteEvent_wf
    | with_reducible apply State.countCapExp_wf | with_reducible apply State.pack_wf
    | with_reducible apply State.fetchSlice_wf | with_reducible apply State.soil_wf | with_reducible apply foldl_wf
    | split

theorem State.sendUncoded_wf (s : State) (n : Fin 4) (e : QEntry) (hs : s.wf = true)
    : (State.sendUncoded s n e).wf = true := by
  unfold State.sendUncoded
  dsimp only
  repeat' first
    | with_reducible assumption | with_reducible apply State.bump_wf | with_reducible apply State.setOb_wf
    | with_reducible apply State.setCtx_wf | with_reducible apply State.finishAnswer_wf

theorem State.codeSection_wf (s : State) (n : Fin 4) (e : QEntry) (hs : s.wf = true)
    : (State.codeSection s n e).wf = true := by
  unfold State.codeSection
  dsimp only
  repeat' first
    | with_reducible assumption | with_reducible apply State.useCtx_wf | with_reducible apply State.bump_wf
    | with_reducible apply State.setOb_wf | with_reducible apply State.countOut_wf
    | with_reducible apply State.reserve_wf | with_reducible apply State.mapSlot_wf
    | with_reducible apply State.countBlocks_wf | with_reducible apply State.check_wf
    | with_reducible apply State.wrapBy_wf | with_reducible apply State.setCtx_wf
    | with_reducible apply State.finishAnswer_wf | with_reducible apply foldl_wf | split

theorem State.jobEnd_wf (s : State) (n : Fin 4) (u : List Upset) (hs : s.wf = true)
    : (State.jobEnd s n u).wf = true := by
  unfold State.jobEnd
  dsimp only
  repeat' first
    | with_reducible assumption | with_reducible apply State.codeSection_wf | with_reducible apply State.restoreCtx_wf
    | with_reducible apply State.sendUncoded_wf | with_reducible apply foldl_wf | split

theorem State.poolAct_wf (s : State) (e : PoolAgent × PoolAct) (hs : s.wf = true)
    : (State.poolAct s e).wf = true := by
  unfold State.poolAct
  repeat' first
    | with_reducible assumption | with_reducible apply State.release__wf | with_reducible apply State.transfer_wf
    | with_reducible apply foldl_wf | split

theorem State.poolTake_wf (s : State) (a : PoolAgent) (hs : s.wf = true) : (State.poolTake s a).wf = true := by
  unfold State.poolTake
  dsimp only
  repeat' first
    | with_reducible assumption | with_reducible apply State.reserve_wf | with_reducible apply State.afterReserve_wf
    | with_reducible apply State.allocate_wf | with_reducible apply foldl_wf | with_reducible apply wfParts_memWrite
    | with_reducible apply wfParts_memPutWord | with_reducible apply wfParts_memZero
    | with_reducible apply wfParts_nvmWrite | with_reducible apply wfParts_nvmZero | split | simp only [wf_lit]
    | with_reducible apply wf_parts

theorem State.poolTurn_wf (a : PoolAgent) (acts : List (PoolAgent × PoolAct)) (s : State) (g : PoolAgent)
    (hs : s.wf = true)
    : (State.poolTurn a acts s g).wf = true := by
  unfold State.poolTurn
  dsimp only
  repeat' first
    | with_reducible assumption | with_reducible apply State.poolTake_wf | with_reducible apply State.poolAct_wf
    | with_reducible apply foldl_wf | split

theorem State.poolAllocate_wf (s : State) (a : PoolAgent) (acts : List (PoolAgent × PoolAct)) (hs : s.wf = true)
    : (State.poolAllocate s a acts).wf = true := by
  unfold State.poolAllocate
  repeat' first
    | with_reducible assumption | with_reducible apply State.poolTurn_wf | with_reducible apply foldl_wf

theorem State.queryResync_wf (s : State) (t : ℕ) (hs : s.wf = true) : (State.queryResync s t).wf = true := by
  unfold State.queryResync
  dsimp only
  repeat' first
    | with_reducible assumption | with_reducible apply State.setItems_wf

theorem State.testWrite_wf (s : State) (q : Req) (b : List Byte) (u : List Upset) (hs : s.wf = true)
    : (State.testWrite s q b u).wf = true := by
  unfold State.testWrite
  dsimp only
  repeat' first
    | with_reducible assumption | with_reducible apply State.testNoCtx_wf | with_reducible apply State.testJob_wf
    | with_reducible apply State.hostBlockWrite_wf

/-! ### NetTime -/

theorem State.emit_wf (s : State) (x1 : Sent) (hs : s.wf = true) : (State.emit s x1).wf = true := by
  unfold State.emit
  repeat' first
    | with_reducible assumption | with_reducible apply foldl_wf | with_reducible apply wfParts_memWrite
    | with_reducible apply wfParts_memPutWord | with_reducible apply wfParts_memZero
    | with_reducible apply wfParts_nvmWrite | with_reducible apply wfParts_nvmZero | split | simp only [wf_lit]
    | with_reducible apply wf_parts

theorem State.emitBlock_wf (s : State) (l : LinkId) (btype : ℕ) (parts : List ℕ) (hs : s.wf = true)
    : (State.emitBlock s l btype parts).wf = true := by
  unfold State.emitBlock
  repeat' first
    | with_reducible assumption | with_reducible apply State.emit_wf

theorem State.forward_wf (s : State) (p : ℕ → Bool) (btype : ℕ) (parts : List ℕ) (hs : s.wf = true)
    : (State.forward s p btype parts).wf = true := by
  unfold State.forward
  repeat' first
    | with_reducible assumption | with_reducible apply State.emitBlock_wf | with_reducible apply foldl_wf | split
    | simp only [wf_lit] | with_reducible apply wf_parts | with_reducible refine wf_fst_eq ‹_ = _› ?_ | intro _

theorem State.capture_wf (s : State) (src : ℕ) (hs : s.wf = true) : (State.capture s src).wf = true := by
  unfold State.capture
  dsimp only
  repeat' first
    | with_reducible assumption | with_reducible apply State.wrapBy_wf | with_reducible apply foldl_wf
    | with_reducible apply wfParts_memWrite | with_reducible apply wfParts_memPutWord
    | with_reducible apply wfParts_memZero | with_reducible apply wfParts_nvmWrite
    | with_reducible apply wfParts_nvmZero | split | simp only [wf_lit] | with_reducible apply wf_parts

theorem State.moveNt_wf (s : State) (d : ℤ) (hs : s.wf = true) : (State.moveNt s d).wf = true := by
  unfold State.moveNt
  repeat' first
    | with_reducible assumption | with_reducible apply foldl_wf | with_reducible apply wfParts_memWrite
    | with_reducible apply wfParts_memPutWord | with_reducible apply wfParts_memZero
    | with_reducible apply wfParts_nvmWrite | with_reducible apply wfParts_nvmZero | split | simp only [wf_lit]
    | with_reducible apply wf_parts

theorem State.ntAdvance_wf (s : State) (hs : s.wf = true) : (State.ntAdvance s).wf = true := by
  unfold State.ntAdvance
  dsimp only
  repeat' first
    | with_reducible assumption | with_reducible apply State.moveNt_wf | with_reducible apply foldl_wf
    | with_reducible apply wfParts_memWrite | with_reducible apply wfParts_memPutWord
    | with_reducible apply wfParts_memZero | with_reducible apply wfParts_nvmWrite
    | with_reducible apply wfParts_nvmZero | split | simp only [wf_lit] | with_reducible apply wf_parts

theorem State.ntStep_wf (s : State) (d : ℤ) (hs : s.wf = true) : (State.ntStep s d).wf = true := by
  unfold State.ntStep
  dsimp only
  repeat' first
    | with_reducible assumption | with_reducible apply State.moveNt_wf | with_reducible apply State.bump_wf
    | with_reducible apply State.stage_wf | with_reducible apply State.capture_wf | with_reducible apply foldl_wf
    | with_reducible apply wfParts_memWrite | with_reducible apply wfParts_memPutWord
    | with_reducible apply wfParts_memZero | with_reducible apply wfParts_nvmWrite
    | with_reducible apply wfParts_nvmZero | split | simp only [wf_lit] | with_reducible apply wf_parts

theorem State.ntSetEffect_wf (s : State) (ns : ℕ) (hs : s.wf = true) : (State.ntSetEffect s ns).wf = true := by
  unfold State.ntSetEffect
  repeat' first
    | with_reducible assumption | with_reducible apply State.ntStep_wf

theorem State.timeAccept_wf (s : State) (m : TimeMsg) (tseq : ℕ) (hs : s.wf = true)
    : (State.timeAccept s m tseq).wf = true := by
  unfold State.timeAccept
  dsimp only
  repeat' first
    | with_reducible assumption | with_reducible apply State.bump_wf | with_reducible apply foldl_wf
    | with_reducible apply wfParts_memWrite | with_reducible apply wfParts_memPutWord
    | with_reducible apply wfParts_memZero | with_reducible apply wfParts_nvmWrite
    | with_reducible apply wfParts_nvmZero | split | simp only [wf_lit] | with_reducible apply wf_parts

theorem State.masterChange_wf (s : State) (m : ℕ) (hs : s.wf = true) : (State.masterChange s m).wf = true := by
  unfold State.masterChange
  dsimp only
  repeat' first
    | with_reducible assumption | with_reducible apply State.bump_wf | with_reducible apply State.stage_wf
    | with_reducible apply State.setO_wf | with_reducible apply State.capture_wf | with_reducible apply foldl_wf
    | with_reducible apply wfParts_memWrite | with_reducible apply wfParts_memPutWord
    | with_reducible apply wfParts_memZero | with_reducible apply wfParts_nvmWrite
    | with_reducible apply wfParts_nvmZero | split | simp only [wf_lit] | with_reducible apply wf_parts

theorem State.timeForeign_wf (s : State) (m : TimeMsg) (tseq : ℕ) (hs : s.wf = true)
    : (State.timeForeign s m tseq).wf = true := by
  unfold State.timeForeign
  dsimp only
  repeat' first
    | with_reducible assumption | with_reducible apply State.bump_wf | with_reducible apply State.masterChange_wf
    | with_reducible apply State.timeAccept_wf | with_reducible apply foldl_wf | with_reducible apply wfParts_memWrite
    | with_reducible apply wfParts_memPutWord | with_reducible apply wfParts_memZero
    | with_reducible apply wfParts_nvmWrite | with_reducible apply wfParts_nvmZero | split | simp only [wf_lit]
    | with_reducible apply wf_parts

theorem State.timeReject_wf (s : State) (m : ℕ) (hs : s.wf = true) : (State.timeReject s m).wf = true := by
  unfold State.timeReject
  repeat' first
    | with_reducible assumption | with_reducible apply State.bump_wf | with_reducible apply foldl_wf | split

theorem State.timeReceive_wf (s : State) (w : ℕ) (hs : s.wf = true) : (State.timeReceive s w).wf = true := by
  unfold State.timeReceive
  dsimp only
  repeat' first
    | with_reducible assumption | with_reducible apply State.forward_wf | with_reducible apply State.timeAccept_wf
    | with_reducible apply State.timeForeign_wf | with_reducible apply State.timeReject_wf
    | with_reducible apply foldl_wf | split

theorem State.servo_wf (s : State) (m : TimeMsg) (hs : s.wf = true) : (State.servo s m).wf = true := by
  unfold State.servo
  dsimp only
  repeat' first
    | with_reducible assumption | with_reducible apply State.ntStep_wf | with_reducible apply State.setO_wf
    | with_reducible apply State.drawn_wf | with_reducible apply State.capture_wf | with_reducible apply foldl_wf
    | with_reducible apply wfParts_memWrite | with_reducible apply wfParts_memPutWord
    | with_reducible apply wfParts_memZero | with_reducible apply wfParts_nvmWrite
    | with_reducible apply wfParts_nvmZero | split | simp only [wf_lit] | with_reducible apply wf_parts

theorem State.servoUpdate_wf (s : State) (hs : s.wf = true) : (State.servoUpdate s).wf = true := by
  unfold State.servoUpdate
  dsimp only
  repeat' first
    | with_reducible assumption | with_reducible apply State.servo_wf | with_reducible apply foldl_wf
    | with_reducible apply wfParts_memWrite | with_reducible apply wfParts_memPutWord
    | with_reducible apply wfParts_memZero | with_reducible apply wfParts_nvmWrite
    | with_reducible apply wfParts_nvmZero | split | simp only [wf_lit] | with_reducible apply wf_parts

theorem State.servoAll_wf (s : State) (hs : s.wf = true) : (State.servoAll s).wf = true := by
  unfold State.servoAll
  repeat' first
    | with_reducible assumption | with_reducible apply State.servoUpdate_wf | with_reducible apply foldl_wf | split
    | simp only [wf_lit] | with_reducible apply wf_parts | with_reducible refine wf_fst_eq ‹_ = _› ?_ | intro _

theorem State.ntHoldover_wf (s : State) (hs : s.wf = true) : (State.ntHoldover s).wf = true := by
  unfold State.ntHoldover
  repeat' first
    | with_reducible assumption | with_reducible apply State.setO_wf | with_reducible apply State.capture_wf
    | with_reducible apply foldl_wf | split

theorem State.holdoverExpire_wf (s : State) (hs : s.wf = true) : (State.holdoverExpire s).wf = true := by
  unfold State.holdoverExpire
  repeat' first
    | with_reducible assumption | with_reducible apply State.ntHoldover_wf | with_reducible apply foldl_wf | split

theorem State.alarmCtrlEffect_wf (s : State) (k : ℕ) (v : ℕ) (hs : s.wf = true)
    : (State.alarmCtrlEffect s k v).wf = true := by
  unfold State.alarmCtrlEffect
  repeat' first
    | with_reducible assumption | with_reducible apply State.setO_wf | with_reducible apply foldl_wf | split

theorem State.alarmAdvance_wf (s : State) (k : ℕ) (hs : s.wf = true) : (State.alarmAdvance s k).wf = true := by
  unfold State.alarmAdvance
  dsimp only
  repeat' first
    | with_reducible assumption | with_reducible apply State.bump_wf | with_reducible apply State.bumpBy_wf
    | with_reducible apply State.setO_wf | with_reducible apply foldl_wf | split

/-! ### Commands -/

theorem State.schedule_wf (s : State) (code : ℕ) (tgt : ℕ) (n0 : ℕ) (hs : s.wf = true)
    : (State.schedule s code tgt n0).wf = true := by
  unfold State.schedule
  repeat' first
    | with_reducible assumption | with_reducible apply State.bump_wf | with_reducible apply foldl_wf
    | with_reducible apply wfParts_memWrite | with_reducible apply wfParts_memPutWord
    | with_reducible apply wfParts_memZero | with_reducible apply wfParts_nvmWrite
    | with_reducible apply wfParts_nvmZero | split | simp only [wf_lit] | with_reducible apply wf_parts

theorem State.cmdReceive_wf (s : State) (code : ℕ) (tgt : ℕ) (hs : s.wf = true)
    : (State.cmdReceive s code tgt).wf = true := by
  unfold State.cmdReceive
  dsimp only
  repeat' first
    | with_reducible assumption | with_reducible apply State.bump_wf | with_reducible apply State.forward_wf
    | with_reducible apply State.schedule_wf | with_reducible apply foldl_wf | split

theorem State.cmdResync_wf (s : State) (tgt : ℕ) (n0 : ℕ) (hs : s.wf = true)
    : (State.cmdResync s tgt n0).wf = true := by
  unfold State.cmdResync
  dsimp only
  repeat' first
    | with_reducible assumption | with_reducible apply State.bump_wf | with_reducible apply State.forward_wf
    | with_reducible apply State.schedule_wf | with_reducible apply foldl_wf | split

theorem State.cmdReserved_wf (s : State) (code : ℕ) (cont : Bool) (hs : s.wf = true)
    : (State.cmdReserved s code cont).wf = true := by
  unfold State.cmdReserved
  repeat' first
    | with_reducible assumption | with_reducible apply State.bump_wf | with_reducible apply foldl_wf | split

theorem State.alignReceive_wf (s : State) (n0 : ℕ) (r : ℕ) (hs : s.wf = true)
    : (State.alignReceive s n0 r).wf = true := by
  unfold State.alignReceive
  dsimp only
  repeat' first
    | with_reducible assumption | with_reducible apply State.setO_wf | with_reducible apply State.forward_wf
    | with_reducible apply foldl_wf | with_reducible apply wfParts_memWrite | with_reducible apply wfParts_memPutWord
    | with_reducible apply wfParts_memZero | with_reducible apply wfParts_nvmWrite
    | with_reducible apply wfParts_nvmZero | split | simp only [wf_lit] | with_reducible apply wf_parts

theorem State.dropDue_wf (s : State) (code : ℕ) (hs : s.wf = true) : (State.dropDue s code).wf = true := by
  unfold State.dropDue
  repeat' first
    | with_reducible assumption | with_reducible apply foldl_wf | with_reducible apply wfParts_memWrite
    | with_reducible apply wfParts_memPutWord | with_reducible apply wfParts_memZero
    | with_reducible apply wfParts_nvmWrite | with_reducible apply wfParts_nvmZero | split | simp only [wf_lit]
    | with_reducible apply wf_parts

theorem State.dropTpulses_wf (s : State) (hs : s.wf = true) : (State.dropTpulses s).wf = true := by
  unfold State.dropTpulses
  repeat' first
    | with_reducible assumption | with_reducible apply foldl_wf | with_reducible apply wfParts_memWrite
    | with_reducible apply wfParts_memPutWord | with_reducible apply wfParts_memZero
    | with_reducible apply wfParts_nvmWrite | with_reducible apply wfParts_nvmZero | split | simp only [wf_lit]
    | with_reducible apply wf_parts

theorem State.cmdDone_wf (s : State) (hs : s.wf = true) : (State.cmdDone s).wf = true := by
  unfold State.cmdDone
  repeat' first
    | with_reducible assumption | with_reducible apply State.bump_wf | with_reducible apply State.setO_wf

theorem State.inject_wf (s : State) (phase : ℕ) (hs : s.wf = true) : (State.inject s phase).wf = true := by
  unfold State.inject
  dsimp only
  repeat' first
    | with_reducible assumption | with_reducible apply State.mapChans_wf

theorem State.tpulseFire_wf (s : State) (hs : s.wf = true) : (State.tpulseFire s).wf = true := by
  unfold State.tpulseFire
  dsimp only
  repeat' first
    | with_reducible assumption | with_reducible apply State.bump_wf | with_reducible apply State.inject_wf
    | with_reducible apply State.bumpBy_wf | with_reducible apply State.cmdDone_wf
    | with_reducible apply State.setO_wf | with_reducible apply State.dropTpulses_wf
    | with_reducible apply State.prbOnFire_wf | with_reducible apply foldl_wf | with_reducible apply wfParts_memWrite
    | with_reducible apply wfParts_memPutWord | with_reducible apply wfParts_memZero
    | with_reducible apply wfParts_nvmWrite | with_reducible apply wfParts_nvmZero | split | simp only [wf_lit]
    | with_reducible apply wf_parts

theorem State.turnOne_wf (s : State) (tgt : ℕ) (hs : s.wf = true) : (State.turnOne s tgt).wf = true := by
  unfold State.turnOne
  dsimp only
  repeat' first
    | with_reducible assumption | with_reducible apply State.bump_wf | with_reducible apply State.stage_wf
    | with_reducible apply State.cmdDone_wf | with_reducible apply State.setO_wf
    | with_reducible apply State.ariseOnce_wf | with_reducible apply State.drawn_wf
    | with_reducible apply State.capture_wf | with_reducible apply foldl_wf | split

theorem State.turnCheck_wf (s : State) (hs : s.wf = true) : (State.turnCheck s).wf = true := by
  unfold State.turnCheck
  repeat' first
    | with_reducible assumption | with_reducible apply State.turnOne_wf | with_reducible apply State.dropDue_wf
    | with_reducible apply foldl_wf | split | simp only [wf_lit] | with_reducible apply wf_parts
    | with_reducible refine wf_fst_eq ‹_ = _› ?_ | intro _

theorem State.renumber_wf (s : State) (n0 : ℕ) (hs : s.wf = true) : (State.renumber s n0).wf = true := by
  unfold State.renumber
  dsimp only
  repeat' first
    | with_reducible assumption | with_reducible apply State.lbResync_wf | with_reducible apply State.setO_wf
    | with_reducible apply State.queryResync_wf | with_reducible apply foldl_wf
    | with_reducible apply wfParts_memWrite | with_reducible apply wfParts_memPutWord
    | with_reducible apply wfParts_memZero | with_reducible apply wfParts_nvmWrite
    | with_reducible apply wfParts_nvmZero | split | simp only [wf_lit] | with_reducible apply wf_parts

theorem State.alignLeaves_wf (s : State) (byTp : Bool) (ks : List ℕ) (hs : s.wf = true)
    : (State.alignLeaves s byTp ks).wf = true := by
  unfold State.alignLeaves
  dsimp only
  repeat' first
    | with_reducible assumption | with_reducible apply foldl_wf | with_reducible apply wfParts_memWrite
    | with_reducible apply wfParts_memPutWord | with_reducible apply wfParts_memZero
    | with_reducible apply wfParts_nvmWrite | with_reducible apply wfParts_nvmZero | split | simp only [wf_lit]
    | with_reducible apply wf_parts | with_reducible refine wf_fst_eq ‹_ = _› ?_ | intro _

theorem State.resyncOne_wf (s : State) (would : ℕ) (n0 : ℕ) (hs : s.wf = true)
    : (State.resyncOne s would n0).wf = true := by
  unfold State.resyncOne
  dsimp only
  repeat' first
    | with_reducible assumption | with_reducible apply State.bump_wf | with_reducible apply State.setO_wf
    | with_reducible apply State.renumber_wf | with_reducible apply State.alignLeaves_wf
    | with_reducible apply State.capture_wf | with_reducible apply foldl_wf | with_reducible apply wfParts_memWrite
    | with_reducible apply wfParts_memPutWord | with_reducible apply wfParts_memZero
    | with_reducible apply wfParts_nvmWrite | with_reducible apply wfParts_nvmZero | split | simp only [wf_lit]
    | with_reducible apply wf_parts

theorem State.resyncApply_wf (s : State) (hs : s.wf = true) : (State.resyncApply s).wf = true := by
  unfold State.resyncApply
  dsimp only
  repeat' first
    | with_reducible assumption | with_reducible apply State.cmdDone_wf | with_reducible apply State.dropDue_wf
    | with_reducible apply State.resyncOne_wf | with_reducible apply foldl_wf | with_reducible apply wfParts_memWrite
    | with_reducible apply wfParts_memPutWord | with_reducible apply wfParts_memZero
    | with_reducible apply wfParts_nvmWrite | with_reducible apply wfParts_nvmZero | split | simp only [wf_lit]
    | with_reducible apply wf_parts | with_reducible refine wf_fst_eq ‹_ = _› ?_ | intro _

theorem State.cmdHoldTick_wf (s : State) (hs : s.wf = true) : (State.cmdHoldTick s).wf = true := by
  unfold State.cmdHoldTick
  dsimp only
  repeat' first
    | with_reducible assumption | with_reducible apply State.bumpBy_wf | with_reducible apply foldl_wf
    | with_reducible apply wfParts_memWrite | with_reducible apply wfParts_memPutWord
    | with_reducible apply wfParts_memZero | with_reducible apply wfParts_nvmWrite
    | with_reducible apply wfParts_nvmZero | split | simp only [wf_lit] | with_reducible apply wf_parts

theorem State.alignHold_wf (s : State) (hs : s.wf = true) : (State.alignHold s).wf = true := by
  unfold State.alignHold
  dsimp only
  repeat' first
    | with_reducible assumption | with_reducible apply State.bump_wf | with_reducible apply foldl_wf
    | with_reducible apply wfParts_memWrite | with_reducible apply wfParts_memPutWord
    | with_reducible apply wfParts_memZero | with_reducible apply wfParts_nvmWrite
    | with_reducible apply wfParts_nvmZero | split | simp only [wf_lit] | with_reducible apply wf_parts

/-! ### Builder -/

theorem State.pairState_wf (s : State) (hs : s.wf = true) : (State.pairState s).wf = true := by
  unfold State.pairState
  repeat' first
    | with_reducible assumption | with_reducible apply State.setO_wf | with_reducible apply foldl_wf | split

theorem State.unitOut_wf (s : State) (n : ℕ) (st : ℕ) (hs : s.wf = true) : (State.unitOut s n st).wf = true := by
  unfold State.unitOut
  dsimp only
  repeat' first
    | with_reducible assumption | with_reducible apply State.stage_wf | with_reducible apply State.pairState_wf
    | with_reducible apply State.setO_wf | with_reducible apply State.settle_wf
    | with_reducible apply State.ariseIf_wf | with_reducible apply State.raiseFault_wf | with_reducible apply foldl_wf
    | split

theorem State.takeOut_wf (s : State) (n : ℕ) (hs : s.wf = true) : (State.takeOut s n).wf = true := by
  unfold State.takeOut
  dsimp only
  repeat' first
    | with_reducible assumption | with_reducible apply State.unitOut_wf | with_reducible apply foldl_wf
    | with_reducible apply wfParts_memWrite | with_reducible apply wfParts_memPutWord
    | with_reducible apply wfParts_memZero | with_reducible apply wfParts_nvmWrite
    | with_reducible apply wfParts_nvmZero | split | simp only [wf_lit] | with_reducible apply wf_parts

theorem State.switchOver_wf (s : State) (hs : s.wf = true) : (State.switchOver s).wf = true := by
  unfold State.switchOver
  dsimp only
  repeat' first
    | with_reducible assumption | with_reducible apply State.bump_wf | with_reducible apply State.setO_wf

theorem State.takeOutActive_wf (s : State) (hs : s.wf = true) : (State.takeOutActive s).wf = true := by
  unfold State.takeOutActive
  dsimp only
  repeat' first
    | with_reducible assumption | with_reducible apply State.switchOver_wf | with_reducible apply State.takeOut_wf

theorem State.builderRead_wf (s : State) (u : List Upset) (x2 : List ℕ) (x3 : ℕ) (hs : s.wf = true)
    : (State.builderRead s u x2 x3).1.wf = true := by
  induction x2 generalizing s x3 with
  | nil =>
    unfold State.builderRead
    dsimp only
    repeat' first
      | with_reducible apply ih | with_reducible assumption
  | cons a r ih =>
    unfold State.builderRead
    dsimp only
    repeat' first
      | with_reducible apply ih | with_reducible assumption | with_reducible apply State.readSpm_wf

theorem State.partBytes_wf (s : State) (u : List Upset) (a : Answer) (hs : s.wf = true)
    : (State.partBytes s u a).1.wf = true := by
  unfold State.partBytes
  repeat' first
    | with_reducible assumption | with_reducible apply State.builderRead_wf | with_reducible apply foldl_wf | split

theorem State.markSuspect_wf (s : State) (hs : s.wf = true) : (State.markSuspect s).wf = true := by
  unfold State.markSuspect
  dsimp only
  repeat' first
    | with_reducible assumption | with_reducible apply State.bump_wf | with_reducible apply foldl_wf
    | with_reducible apply wfParts_memWrite | with_reducible apply wfParts_memPutWord
    | with_reducible apply wfParts_memZero | with_reducible apply wfParts_nvmWrite
    | with_reducible apply wfParts_nvmZero | split | simp only [wf_lit] | with_reducible apply wf_parts

theorem State.handNorth_wf (s : State) (p : Part) (b : List Byte) (hs : s.wf = true)
    : (State.handNorth s p b).wf = true := by
  unfold State.handNorth
  dsimp only
  repeat' first
    | with_reducible assumption | with_reducible apply foldl_wf | with_reducible apply wfParts_memWrite
    | with_reducible apply wfParts_memPutWord | with_reducible apply wfParts_memZero
    | with_reducible apply wfParts_nvmWrite | with_reducible apply wfParts_nvmZero | split | simp only [wf_lit]
    | with_reducible apply wf_parts

theorem State.unitChecks_wf (s : State) (n : ℕ) (failed : Bool) (b : List Byte) (hs : s.wf = true)
    : (State.unitChecks s n failed b).wf = true := by
  unfold State.unitChecks
  dsimp only
  repeat' first
    | with_reducible assumption | with_reducible apply State.setO_wf | with_reducible apply State.check_wf
    | with_reducible apply State.drawn_wf | with_reducible apply foldl_wf | split

theorem State.releasePart_wf (s : State) (p : Part) (b : List Byte) (hs : s.wf = true)
    : (State.releasePart s p b).wf = true := by
  unfold State.releasePart
  dsimp only
  repeat' first
    | with_reducible assumption | with_reducible apply State.handNorth_wf | with_reducible apply State.transferAll_wf
    | with_reducible apply foldl_wf | with_reducible apply wfParts_memWrite | with_reducible apply wfParts_memPutWord
    | with_reducible apply wfParts_memZero | with_reducible apply wfParts_nvmWrite
    | with_reducible apply wfParts_nvmZero | split | simp only [wf_lit] | with_reducible apply wf_parts

theorem State.countCheck_wf (s : State) (n : ℕ) (f : Bool) (hs : s.wf = true)
    : (State.countCheck s n f).wf = true := by
  unfold State.countCheck
  repeat' first
    | with_reducible assumption | with_reducible apply State.bump_wf | with_reducible apply foldl_wf | split

theorem State.bareMismatch_wf (s : State) (hs : s.wf = true) : (State.bareMismatch s).wf = true := by
  unfold State.bareMismatch
  dsimp only
  repeat' first
    | with_reducible assumption | with_reducible apply State.bump_wf | with_reducible apply State.markSuspect_wf
    | with_reducible apply State.takeOutActive_wf | with_reducible apply foldl_wf
    | with_reducible apply wfParts_memWrite | with_reducible apply wfParts_memPutWord
    | with_reducible apply wfParts_memZero | with_reducible apply wfParts_nvmWrite
    | with_reducible apply wfParts_nvmZero | split | simp only [wf_lit] | with_reducible apply wf_parts

theorem State.pairDecision_wf (s : State) (mismatch : Bool) (fa : Bool) (fs : Bool) (hs : s.wf = true)
    : (State.pairDecision s mismatch fa fs).wf = true := by
  unfold State.pairDecision
  dsimp only
  repeat' first
    | with_reducible assumption | with_reducible apply State.bump_wf | with_reducible apply State.countCheck_wf
    | with_reducible apply State.stage_wf | with_reducible apply State.ariseOnce_wf
    | with_reducible apply State.takeOut_wf | with_reducible apply State.markSuspect_wf
    | with_reducible apply State.bareMismatch_wf | with_reducible apply State.takeOutActive_wf
    | with_reducible apply foldl_wf | split

theorem State.aloneDecision_wf (s : State) (fa : Bool) (hs : s.wf = true) : (State.aloneDecision s fa).wf = true := by
  unfold State.aloneDecision
  repeat' first
    | with_reducible assumption | with_reducible apply State.countCheck_wf | with_reducible apply State.markSuspect_wf
    | with_reducible apply foldl_wf | split

theorem State.forcedSwitch_wf (s : State) (was : ℕ) (hs : s.wf = true) : (State.forcedSwitch s was).wf = true := by
  unfold State.forcedSwitch
  dsimp only
  repeat' first
    | with_reducible assumption | with_reducible apply State.pairState_wf | with_reducible apply State.setO_wf
    | with_reducible apply State.switchOver_wf | with_reducible apply foldl_wf | with_reducible apply wfParts_memWrite
    | with_reducible apply wfParts_memPutWord | with_reducible apply wfParts_memZero
    | with_reducible apply wfParts_nvmWrite | with_reducible apply wfParts_nvmZero | split | simp only [wf_lit]
    | with_reducible apply wf_parts

theorem State.partDecision_wf (s : State) (mismatch : Bool) (fa : Bool) (fs : Bool) (u : List Upset)
    (hs : s.wf = true)
    : (State.partDecision s mismatch fa fs u).wf = true := by
  unfold State.partDecision
  dsimp only
  repeat' first
    | with_reducible assumption | with_reducible apply State.aloneDecision_wf
    | with_reducible apply State.pairDecision_wf | with_reducible apply State.unitChecks_wf
    | with_reducible apply State.settle_wf | with_reducible apply State.releasePart_wf
    | with_reducible apply State.forcedSwitch_wf | with_reducible apply State.partBytes_wf
    | with_reducible apply foldl_wf | with_reducible apply wfParts_memWrite | with_reducible apply wfParts_memPutWord
    | with_reducible apply wfParts_memZero | with_reducible apply wfParts_nvmWrite
    | with_reducible apply wfParts_nvmZero | split | simp only [wf_lit] | with_reducible apply wf_parts

theorem State.selftestDone_wf (s : State) (n : ℕ) (ok : Bool) (hs : s.wf = true)
    : (State.selftestDone s n ok).wf = true := by
  unfold State.selftestDone
  repeat' first
    | with_reducible assumption | with_reducible apply State.pairState_wf | with_reducible apply State.setO_wf
    | with_reducible apply State.settle_wf | with_reducible apply State.unitOut_wf | with_reducible apply foldl_wf
    | split

theorem State.copyChecks_wf (s : State) (src : ℕ) (dst : ℕ) (hs : s.wf = true)
    : (State.copyChecks s src dst).wf = true := by
  unfold State.copyChecks
  repeat' first
    | with_reducible assumption | with_reducible apply State.setO_wf

theorem State.copyOver_wf (s : State) (hs : s.wf = true) : (State.copyOver s).wf = true := by
  unfold State.copyOver
  repeat' first
    | with_reducible assumption | with_reducible apply State.reinitOver_wf | with_reducible apply foldl_wf | split

theorem State.copyDone_wf (s : State) (ok : Bool) (hs : s.wf = true) : (State.copyDone s ok).wf = true := by
  unfold State.copyDone
  dsimp only
  repeat' first
    | with_reducible assumption | with_reducible apply State.bump_wf | with_reducible apply State.countCheck_wf
    | with_reducible apply State.copyOver_wf | with_reducible apply State.pairState_wf
    | with_reducible apply State.setO_wf | with_reducible apply State.settle_wf
    | with_reducible apply State.takeOut_wf | with_reducible apply State.copyChecks_wf | with_reducible apply foldl_wf
    | split

theorem State.bldCtrlEffect_wf (s : State) (v : ℕ) (hs : s.wf = true) : (State.bldCtrlEffect s v).wf = true := by
  unfold State.bldCtrlEffect
  dsimp only
  repeat' first
    | with_reducible assumption | with_reducible apply State.pairState_wf | with_reducible apply State.setO_wf
    | with_reducible apply State.settle_wf | with_reducible apply State.unitOut_wf | with_reducible apply foldl_wf
    | with_reducible apply wfParts_memWrite | with_reducible apply wfParts_memPutWord
    | with_reducible apply wfParts_memZero | with_reducible apply wfParts_nvmWrite
    | with_reducible apply wfParts_nvmZero | split | simp only [wf_lit] | with_reducible apply wf_parts

theorem State.builderStart_wf (s : State) (ok0 : Bool) (ok1 : Bool) (hs : s.wf = true)
    : (State.builderStart s ok0 ok1).wf = true := by
  unfold State.builderStart
  dsimp only
  repeat' first
    | with_reducible assumption | with_reducible apply State.stage_wf | with_reducible apply State.pairState_wf
    | with_reducible apply State.setO_wf | with_reducible apply State.ariseIf_wf
    | with_reducible apply State.raiseFault_wf | with_reducible apply State.unitOut_wf | with_reducible apply foldl_wf
    | split

/-! ### Endpoints -/

theorem State.setTx_wf (s : State) (l : LinkId) (t : LinkTx) (hs : s.wf = true) : (State.setTx s l t).wf = true := by
  unfold State.setTx
  dsimp only
  repeat' first
    | with_reducible assumption | with_reducible apply foldl_wf | with_reducible apply wfParts_memWrite
    | with_reducible apply wfParts_memPutWord | with_reducible apply wfParts_memZero
    | with_reducible apply wfParts_nvmWrite | with_reducible apply wfParts_nvmZero | split | simp only [wf_lit]
    | with_reducible apply wf_parts

theorem State.setRx_wf (s : State) (l : LinkId) (r : LinkRx) (hs : s.wf = true) : (State.setRx s l r).wf = true := by
  unfold State.setRx
  dsimp only
  repeat' first
    | with_reducible assumption | with_reducible apply foldl_wf | with_reducible apply wfParts_memWrite
    | with_reducible apply wfParts_memPutWord | with_reducible apply wfParts_memZero
    | with_reducible apply wfParts_nvmWrite | with_reducible apply wfParts_nvmZero | split | simp only [wf_lit]
    | with_reducible apply wf_parts

theorem State.setCaps_wf (s : State) (l : LinkId) (c : CapsSide) (hs : s.wf = true)
    : (State.setCaps s l c).wf = true := by
  unfold State.setCaps
  dsimp only
  repeat' first
    | with_reducible assumption | with_reducible apply foldl_wf | with_reducible apply wfParts_memWrite
    | with_reducible apply wfParts_memPutWord | with_reducible apply wfParts_memZero
    | with_reducible apply wfParts_nvmWrite | with_reducible apply wfParts_nvmZero | split | simp only [wf_lit]
    | with_reducible apply wf_parts

theorem State.bumpNorth_wf (s : State) (l : LinkId) (k : ℕ) (hs : s.wf = true)
    : (State.bumpNorth s l k).wf = true := by
  unfold State.bumpNorth
  repeat' first
    | with_reducible assumption | with_reducible apply State.bump_wf | with_reducible apply foldl_wf | split

theorem State.setLane_wf (s : State) (i : ℕ) (x2 : LaneUnit) (hs : s.wf = true)
    : (State.setLane s i x2).wf = true := by
  unfold State.setLane
  repeat' first
    | with_reducible assumption | with_reducible apply foldl_wf | with_reducible apply wfParts_memWrite
    | with_reducible apply wfParts_memPutWord | with_reducible apply wfParts_memZero
    | with_reducible apply wfParts_nvmWrite | with_reducible apply wfParts_nvmZero | split | simp only [wf_lit]
    | with_reducible apply wf_parts

theorem State.laneL2_wf (s : State) (i : ℕ) (hs : s.wf = true) : (State.laneL2 s i).wf = true := by
  unfold State.laneL2
  repeat' first
    | with_reducible assumption | with_reducible apply State.setLane_wf | with_reducible apply State.setO_wf

theorem State.releaseFrames_wf (s : State) (fs : List Frame) (hs : s.wf = true)
    : (State.releaseFrames s fs).wf = true := by
  unfold State.releaseFrames
  repeat' first
    | with_reducible assumption | with_reducible apply State.releaseAll_wf

theorem State.takeUp_wf (s : State) (hs : s.wf = true) : (State.takeUp s).wf = true := by
  unfold State.takeUp
  dsimp only
  repeat' first
    | with_reducible assumption | with_reducible apply foldl_wf | with_reducible apply wfParts_memWrite
    | with_reducible apply wfParts_memPutWord | with_reducible apply wfParts_memZero
    | with_reducible apply wfParts_nvmWrite | with_reducible apply wfParts_nvmZero | split | simp only [wf_lit]
    | with_reducible apply wf_parts

theorem State.clearLine_wf (s : State) (l : LinkId) (hs : s.wf = true) : (State.clearLine s l).wf = true := by
  unfold State.clearLine
  dsimp only
  repeat' first
    | with_reducible assumption | with_reducible apply State.takeUp_wf | with_reducible apply foldl_wf
    | with_reducible apply wfParts_memWrite | with_reducible apply wfParts_memPutWord
    | with_reducible apply wfParts_memZero | with_reducible apply wfParts_nvmWrite
    | with_reducible apply wfParts_nvmZero | split | simp only [wf_lit] | with_reducible apply wf_parts

theorem State.linkDown_wf (s : State) (l : LinkId) (keep : Bool) (hs : s.wf = true)
    : (State.linkDown s l keep).wf = true := by
  unfold State.linkDown
  dsimp only
  repeat' first
    | with_reducible assumption | with_reducible apply State.setRx_wf | with_reducible apply State.clearLine_wf
    | with_reducible apply State.setO_wf | with_reducible apply State.setCaps_wf

/-! ### Hub -/

theorem State.setPort_wf (s : State) (k : ℕ) (p : HubPort) (hs : s.wf = true) : (State.setPort s k p).wf = true := by
  unfold State.setPort
  dsimp only
  repeat' first
    | with_reducible assumption | with_reducible apply foldl_wf | with_reducible apply wfParts_memWrite
    | with_reducible apply wfParts_memPutWord | with_reducible apply wfParts_memZero
    | with_reducible apply wfParts_nvmWrite | with_reducible apply wfParts_nvmZero | split | simp only [wf_lit]
    | with_reducible apply wf_parts

theorem State.setPortState_wf (s : State) (k : ℕ) (v : ℕ) (hs : s.wf = true)
    : (State.setPortState s k v).wf = true := by
  unfold State.setPortState
  dsimp only
  repeat' first
    | with_reducible assumption | with_reducible apply State.bump_wf | with_reducible apply State.setOb_wf
    | with_reducible apply State.setO_wf | with_reducible apply foldl_wf | split

theorem State.portFill_wf (s : State) (k : ℕ) (n : ℕ) (hs : s.wf = true) : (State.portFill s k n).wf = true := by
  unfold State.portFill
  dsimp only
  repeat' first
    | with_reducible assumption | with_reducible apply State.setPort_wf | with_reducible apply State.peak_wf

theorem State.setRecs_wf (s : State) (l : List MRec) (hs : s.wf = true) : (State.setRecs s l).wf = true := by
  unfold State.setRecs
  dsimp only
  repeat' first
    | with_reducible assumption | with_reducible apply foldl_wf | with_reducible apply wfParts_memWrite
    | with_reducible apply wfParts_memPutWord | with_reducible apply wfParts_memZero
    | with_reducible apply wfParts_nvmWrite | with_reducible apply wfParts_nvmZero | split | simp only [wf_lit]
    | with_reducible apply wf_parts

theorem State.countAbsent_wf (s : State) (p : ℕ) (hs : s.wf = true) : (State.countAbsent s p).wf = true := by
  unfold State.countAbsent
  repeat' first
    | with_reducible assumption | with_reducible apply State.bump_wf | with_reducible apply foldl_wf | split

theorem State.newRecord_wf (s : State) (q : Query) (comp : Bool) (qid : ℕ) (anchor : ℕ) (hs : s.wf = true)
    : (State.newRecord s q comp qid anchor).wf = true := by
  unfold State.newRecord
  dsimp only
  repeat' first
    | with_reducible assumption | with_reducible apply State.countAbsent_wf | with_reducible apply State.setRecs_wf
    | with_reducible apply foldl_wf | split | simp only [wf_lit] | with_reducible apply wf_parts
    | with_reducible refine wf_fst_eq ‹_ = _› ?_ | intro _

theorem State.freeBuffers_wf (s : State) (r : MRec) (hs : s.wf = true) : (State.freeBuffers s r).wf = true := by
  unfold State.freeBuffers
  repeat' first
    | with_reducible assumption | with_reducible apply State.portFill_wf | with_reducible apply foldl_wf | split
    | simp only [wf_lit] | with_reducible apply wf_parts | with_reducible refine wf_fst_eq ‹_ = _› ?_ | intro _

theorem State.releaseRecs_wf (s : State) (x1 : ℕ) (hs : s.wf = true) : (State.releaseRecs s x1).wf = true := by
  induction x1 generalizing s with
  | zero =>
    unfold State.releaseRecs
    repeat' first
      | with_reducible apply ih | with_reducible assumption
  | succ n ih =>
    unfold State.releaseRecs
    dsimp only
    repeat' first
      | with_reducible apply ih | with_reducible assumption | with_reducible apply State.freeBuffers_wf
      | with_reducible apply State.setRecs_wf | with_reducible apply State.check_wf
      | with_reducible apply State.wrapBy_wf | with_reducible apply foldl_wf | with_reducible apply wfParts_memWrite
      | with_reducible apply wfParts_memPutWord | with_reducible apply wfParts_memZero
      | with_reducible apply wfParts_nvmWrite | with_reducible apply wfParts_nvmZero | split | simp only [wf_lit]
      | with_reducible apply wf_parts

theorem State.releaseReady_wf (s : State) (hs : s.wf = true) : (State.releaseReady s).wf = true := by
  unfold State.releaseReady
  repeat' first
    | with_reducible assumption | with_reducible apply State.releaseRecs_wf

theorem State.closeAt_wf (s : State) (i : ℕ) (p : ℕ) (reason : ℕ) (hs : s.wf = true)
    : (State.closeAt s i p reason).wf = true := by
  unfold State.closeAt
  repeat' first
    | with_reducible assumption | with_reducible apply State.countAbsent_wf | with_reducible apply State.setRecs_wf

theorem State.closePort_wf (s : State) (k : ℕ) (hs : s.wf = true) : (State.closePort s k).wf = true := by
  unfold State.closePort
  repeat' first
    | with_reducible assumption | with_reducible apply State.closeAt_wf | with_reducible apply State.releaseReady_wf
    | with_reducible apply foldl_wf | split | simp only [wf_lit] | with_reducible apply wf_parts
    | with_reducible refine wf_fst_eq ‹_ = _› ?_ | intro _

theorem State.closeOldest_wf (s : State) (k : ℕ) (reason : ℕ) (hs : s.wf = true)
    : (State.closeOldest s k reason).wf = true := by
  unfold State.closeOldest
  repeat' first
    | with_reducible assumption | with_reducible apply State.closeAt_wf | with_reducible apply State.releaseReady_wf
    | with_reducible apply foldl_wf | split

theorem State.loseHeld_wf (s : State) (l : LinkId) (hs : s.wf = true) : (State.loseHeld s l).wf = true := by
  unfold State.loseHeld
  dsimp only
  repeat' first
    | with_reducible assumption | with_reducible apply State.releaseFrames_wf | with_reducible apply State.bumpBy_wf
    | with_reducible apply State.setTx_wf

theorem State.portOff_wf (s : State) (k : ℕ) (hs : s.wf = true) : (State.portOff s k).wf = true := by
  unfold State.portOff
  dsimp only
  repeat' first
    | with_reducible assumption | with_reducible apply State.setPort_wf | with_reducible apply State.linkDown_wf
    | with_reducible apply State.laneL2_wf | with_reducible apply State.setPortState_wf
    | with_reducible apply State.settle_wf | with_reducible apply State.loseHeld_wf | with_reducible apply foldl_wf
    | split

theorem State.pairLeaf_wf (s : State) (k : ℕ) (qid : ℕ) (n : ℕ) (x4 : Pos) (hs : s.wf = true)
    : (State.pairLeaf s k qid n x4).wf = true := by
  unfold State.pairLeaf
  dsimp only
  repeat' first
    | with_reducible assumption | with_reducible apply State.bump_wf | with_reducible apply State.portFill_wf
    | with_reducible apply State.setRecs_wf | with_reducible apply State.portOff_wf
    | with_reducible apply State.closeAt_wf | with_reducible apply State.releaseReady_wf
    | with_reducible apply foldl_wf | split | simp only [wf_lit] | with_reducible apply wf_parts
    | with_reducible refine wf_fst_eq ‹_ = _› ?_ | intro _

theorem State.leafSubevent_wf (s : State) (k : ℕ) (qid : ℕ) (b : List Byte) (bufferBad : Bool) (hs : s.wf = true)
    : (State.leafSubevent s k qid b bufferBad).wf = true := by
  unfold State.leafSubevent
  repeat' first
    | with_reducible assumption | with_reducible apply State.bump_wf | with_reducible apply State.closeOldest_wf
    | with_reducible apply State.pairLeaf_wf | with_reducible apply State.raiseFault_wf
    | with_reducible apply State.portOff_wf | with_reducible apply foldl_wf | split

theorem State.mergerTimeout_wf (s : State) (hs : s.wf = true) : (State.mergerTimeout s).wf = true := by
  unfold State.mergerTimeout
  dsimp only
  repeat' first
    | with_reducible assumption | with_reducible apply State.bump_wf | with_reducible apply State.portOff_wf
    | with_reducible apply State.closeAt_wf | with_reducible apply State.releaseReady_wf
    | with_reducible apply foldl_wf | with_reducible apply wfParts_memWrite | with_reducible apply wfParts_memPutWord
    | with_reducible apply wfParts_memZero | with_reducible apply wfParts_nvmWrite
    | with_reducible apply wfParts_nvmZero | split | simp only [wf_lit] | with_reducible apply wf_parts
    | with_reducible refine wf_fst_eq ‹_ = _› ?_ | intro _

theorem State.forwardQuery_wf (s : State) (w : ℕ) (hs : s.wf = true) : (State.forwardQuery s w).wf = true := by
  unfold State.forwardQuery
  dsimp only
  repeat' first
    | with_reducible assumption | with_reducible apply State.setPort_wf | with_reducible apply State.emitBlock_wf
    | with_reducible apply foldl_wf | split | simp only [wf_lit] | with_reducible apply wf_parts
    | with_reducible refine wf_fst_eq ‹_ = _› ?_ | intro _

theorem State.queryReceive_wf (s : State) (w : ℕ) (hs : s.wf = true) : (State.queryReceive s w).wf = true := by
  unfold State.queryReceive
  dsimp only
  repeat' first
    | with_reducible assumption | with_reducible apply State.bump_wf | with_reducible apply State.newRecord_wf
    | with_reducible apply State.enqueueQuery_wf | with_reducible apply State.forwardQuery_wf
    | with_reducible apply foldl_wf | split

theorem State.ownAnswer_wf (s : State) (a : Answer) (hs : s.wf = true) : (State.ownAnswer s a).wf = true := by
  unfold State.ownAnswer
  dsimp only
  repeat' first
    | with_reducible assumption | with_reducible apply State.setRecs_wf | with_reducible apply State.releaseAll_wf
    | with_reducible apply State.releaseReady_wf | with_reducible apply foldl_wf
    | with_reducible apply wfParts_memWrite | with_reducible apply wfParts_memPutWord
    | with_reducible apply wfParts_memZero | with_reducible apply wfParts_nvmWrite
    | with_reducible apply wfParts_nvmZero | split | simp only [wf_lit] | with_reducible apply wf_parts

theorem State.countAnswer_wf (s : State) (k : ℕ) (hs : s.wf = true) : (State.countAnswer s k).wf = true := by
  unfold State.countAnswer
  repeat' first
    | with_reducible assumption | with_reducible apply State.bump_wf | with_reducible apply State.wrapBy_wf

theorem State.handEntry_wf (s : State) (e : QEntry) (rest : List QItem) (svc : ℕ) (hs : s.wf = true)
    : (State.handEntry s e rest svc).wf = true := by
  unfold State.handEntry
  dsimp only
  repeat' first
    | with_reducible assumption | with_reducible apply State.countAnswer_wf | with_reducible apply State.bump_wf
    | with_reducible apply State.busyUpdate_wf | with_reducible apply State.transferAll_wf
    | with_reducible apply State.ownAnswer_wf | with_reducible apply State.peak_wf
    | with_reducible apply State.setItems_wf | with_reducible apply foldl_wf | split

theorem State.handRun_wf (s : State) (f : ℕ) (len : ℕ) (done : ℕ) (a : ℕ) (rest : List QItem) (hs : s.wf = true)
    : (State.handRun s f len done a rest).wf = true := by
  unfold State.handRun
  dsimp only
  repeat' first
    | with_reducible assumption | with_reducible apply State.countAnswer_wf | with_reducible apply State.ownAnswer_wf
    | with_reducible apply State.setItems_wf

theorem State.answered_wf (s : State) (hs : s.wf = true) : (State.answered s).wf = true := by
  unfold State.answered
  dsimp only
  repeat' first
    | with_reducible assumption | with_reducible apply foldl_wf | with_reducible apply wfParts_memWrite
    | with_reducible apply wfParts_memPutWord | with_reducible apply wfParts_memZero
    | with_reducible apply wfParts_nvmWrite | with_reducible apply wfParts_nvmZero | split | simp only [wf_lit]
    | with_reducible apply wf_parts

theorem State.answerHandoff_wf (s : State) (svc : ℕ) (hs : s.wf = true) : (State.answerHandoff s svc).wf = true := by
  unfold State.answerHandoff
  repeat' first
    | with_reducible assumption | with_reducible apply State.answered_wf | with_reducible apply State.handRun_wf
    | with_reducible apply State.handEntry_wf | with_reducible apply foldl_wf | split

theorem State.portEnEffect_wf (s : State) (v : ℕ) (hs : s.wf = true) : (State.portEnEffect s v).wf = true := by
  unfold State.portEnEffect
  dsimp only
  repeat' first
    | with_reducible assumption | with_reducible apply State.ungate_wf | with_reducible apply State.setPortState_wf
    | with_reducible apply State.setO_wf | with_reducible apply State.settle_wf
    | with_reducible apply State.portOff_wf | with_reducible apply foldl_wf | with_reducible apply wfParts_memWrite
    | with_reducible apply wfParts_memPutWord | with_reducible apply wfParts_memZero
    | with_reducible apply wfParts_nvmWrite | with_reducible apply wfParts_nvmZero | split | simp only [wf_lit]
    | with_reducible apply wf_parts | with_reducible refine wf_fst_eq ‹_ = _› ?_ | intro _

/-! ### Trigger -/

theorem State.tpFlush_wf (s : State) (hs : s.wf = true) : (State.tpFlush s).wf = true := by
  unfold State.tpFlush
  dsimp only
  repeat' first
    | with_reducible assumption | with_reducible apply State.bumpBy_wf | with_reducible apply State.emitBlock_wf
    | with_reducible apply foldl_wf | with_reducible apply wfParts_memWrite | with_reducible apply wfParts_memPutWord
    | with_reducible apply wfParts_memZero | with_reducible apply wfParts_nvmWrite
    | with_reducible apply wfParts_nvmZero | split | simp only [wf_lit] | with_reducible apply wf_parts

theorem State.tpPlace_wf (s : State) (x1 : ℕ) (w : ℕ) (sent : Bool) (hs : s.wf = true)
    : (State.tpPlace s x1 w sent).wf = true := by
  unfold State.tpPlace
  dsimp only
  repeat' first
    | with_reducible assumption | with_reducible apply State.tpFlush_wf | with_reducible apply foldl_wf
    | with_reducible apply wfParts_memWrite | with_reducible apply wfParts_memPutWord
    | with_reducible apply wfParts_memZero | with_reducible apply wfParts_nvmWrite
    | with_reducible apply wfParts_nvmZero | split | simp only [wf_lit] | with_reducible apply wf_parts

theorem State.tpSend_wf (s : State) (x1 : ℕ) (w : ℕ) (sent : Bool) (hs : s.wf = true)
    : (State.tpSend s x1 w sent).wf = true := by
  unfold State.tpSend
  dsimp only
  repeat' first
    | with_reducible assumption | with_reducible apply State.tpPlace_wf | with_reducible apply State.bump_wf
    | with_reducible apply State.setO_wf | with_reducible apply foldl_wf | split

theorem State.tpDropAll_wf (s : State) (hs : s.wf = true) : (State.tpDropAll s).wf = true := by
  unfold State.tpDropAll
  dsimp only
  repeat' first
    | with_reducible assumption | with_reducible apply State.bumpBy_wf | with_reducible apply foldl_wf
    | with_reducible apply wfParts_memWrite | with_reducible apply wfParts_memPutWord
    | with_reducible apply wfParts_memZero | with_reducible apply wfParts_nvmWrite
    | with_reducible apply wfParts_nvmZero | split | simp only [wf_lit] | with_reducible apply wf_parts

theorem State.tpForm_wf (s : State) (x1 : ℕ) (sent : Bool) (hs : s.wf = true)
    : (State.tpForm s x1 sent).wf = true := by
  unfold State.tpForm
  dsimp only
  repeat' first
    | with_reducible assumption | with_reducible apply State.tpSend_wf | with_reducible apply foldl_wf
    | with_reducible apply wfParts_memWrite | with_reducible apply wfParts_memPutWord
    | with_reducible apply wfParts_memZero | with_reducible apply wfParts_nvmWrite
    | with_reducible apply wfParts_nvmZero | split | simp only [wf_lit] | with_reducible apply wf_parts

theorem State.tpMismatch_wf (s : State) (k : ℕ) (hs : s.wf = true) : (State.tpMismatch s k).wf = true := by
  unfold State.tpMismatch
  dsimp only
  repeat' first
    | with_reducible assumption | with_reducible apply State.setPort_wf | with_reducible apply foldl_wf | split

theorem State.leafTp_wf (s : State) (k : ℕ) (xlow : ℕ) (w : ℕ) (late : Bool) (hs : s.wf = true)
    : (State.leafTp s k xlow w late).wf = true := by
  unfold State.leafTp
  dsimp only
  repeat' first
    | with_reducible assumption | with_reducible apply State.setPort_wf | with_reducible apply State.tpMismatch_wf
    | with_reducible apply foldl_wf | with_reducible apply wfParts_memWrite | with_reducible apply wfParts_memPutWord
    | with_reducible apply wfParts_memZero | with_reducible apply wfParts_nvmWrite
    | with_reducible apply wfParts_nvmZero | split | simp only [wf_lit] | with_reducible apply wf_parts

theorem State.tpDeadline_wf (s : State) (sent : Bool) (hs : s.wf = true) : (State.tpDeadline s sent).wf = true := by
  unfold State.tpDeadline
  dsimp only
  repeat' first
    | with_reducible assumption | with_reducible apply State.bump_wf | with_reducible apply State.tpSend_wf
    | with_reducible apply foldl_wf | with_reducible apply wfParts_memWrite | with_reducible apply wfParts_memPutWord
    | with_reducible apply wfParts_memZero | with_reducible apply wfParts_nvmWrite
    | with_reducible apply wfParts_nvmZero | split | simp only [wf_lit] | with_reducible apply wf_parts
    | with_reducible refine wf_fst_eq ‹_ = _› ?_ | intro _

end Sys2Proof.Machine
end

