-- ==== Sys2Proof/Laws/WfLink.lean ====
section
/-! SUPPORT. The canonical form of the stored data: what each operation keeps, under
lanes and links. -/
namespace Sys2Proof.Machine

set_option Elab.async false

/-! ### Link -/

theorem State.passQuit_wf (s : State) (hs : s.wf = true) : (State.passQuit s).wf = true := by
  unfold State.passQuit
  repeat' first
    | with_reducible assumption | with_reducible apply State.clearLine_wf | with_reducible apply State.loseHeld_wf
    | with_reducible apply foldl_wf | split | simp only [wf_lit] | with_reducible apply wf_parts
    | with_reducible refine wf_fst_eq ‹_ = _› ?_ | intro _

theorem State.repartition_wf (s : State) (hs : s.wf = true) : (State.repartition s).wf = true := by
  unfold State.repartition
  dsimp only
  repeat' first
    | with_reducible assumption | with_reducible apply foldl_wf | with_reducible apply wfParts_memWrite
    | with_reducible apply wfParts_memPutWord | with_reducible apply wfParts_memZero
    | with_reducible apply wfParts_nvmWrite | with_reducible apply wfParts_nvmZero | split | simp only [wf_lit]
    | with_reducible apply wf_parts

theorem State.repartIfFree_wf (s : State) (hs : s.wf = true) : (State.repartIfFree s).wf = true := by
  unfold State.repartIfFree
  repeat' first
    | with_reducible assumption | with_reducible apply State.repartition_wf | with_reducible apply foldl_wf | split

theorem State.freeBefore_wf (s : State) (l : LinkId) (n : ℕ) (incl : Bool) (hs : s.wf = true)
    : (State.freeBefore s l n incl).wf = true := by
  unfold State.freeBefore
  dsimp only
  repeat' first
    | with_reducible assumption | with_reducible apply State.releaseFrames_wf | with_reducible apply State.setTx_wf

theorem State.rewind_wf (s : State) (l : LinkId) (n : ℕ) (hs : s.wf = true) : (State.rewind s l n).wf = true := by
  unfold State.rewind
  dsimp only
  repeat' first
    | with_reducible assumption | with_reducible apply State.bump_wf | with_reducible apply State.setTx_wf

theorem State.rewindMark_wf (s : State) (l : LinkId) (hs : s.wf = true) : (State.rewindMark s l).wf = true := by
  unfold State.rewindMark
  repeat' first
    | with_reducible assumption | with_reducible apply State.rewind_wf | with_reducible apply foldl_wf | split

theorem State.restartTx_wf (s : State) (l : LinkId) (hs : s.wf = true) : (State.restartTx s l).wf = true := by
  unfold State.restartTx
  dsimp only
  repeat' first
    | with_reducible assumption | with_reducible apply State.releaseFrames_wf | with_reducible apply State.bumpBy_wf
    | with_reducible apply State.repartIfFree_wf | with_reducible apply State.setTx_wf | with_reducible apply foldl_wf
    | split

theorem State.northDown_wf (s : State) (keep : Bool) (hs : s.wf = true) : (State.northDown s keep).wf = true := by
  unfold State.northDown
  dsimp only
  repeat' first
    | with_reducible assumption | with_reducible apply State.linkDown_wf | with_reducible apply State.stage_wf
    | with_reducible apply State.tpDropAll_wf | with_reducible apply State.setO_wf
    | with_reducible apply State.settle_wf | with_reducible apply State.ariseIf_wf | with_reducible apply foldl_wf
    | with_reducible apply wfParts_memWrite | with_reducible apply wfParts_memPutWord
    | with_reducible apply wfParts_memZero | with_reducible apply wfParts_nvmWrite
    | with_reducible apply wfParts_nvmZero | split | simp only [wf_lit] | with_reducible apply wf_parts

theorem State.southDown_wf (s : State) (k : ℕ) (keep : Bool) (hs : s.wf = true)
    : (State.southDown s k keep).wf = true := by
  unfold State.southDown
  dsimp only
  repeat' first
    | with_reducible assumption | with_reducible apply State.setPort_wf | with_reducible apply State.linkDown_wf
    | with_reducible apply State.stage_wf | with_reducible apply State.setPortState_wf
    | with_reducible apply State.settle_wf | with_reducible apply State.ariseIf_wf
    | with_reducible apply State.noteEvent_wf | with_reducible apply State.closePort_wf
    | with_reducible apply State.portOff_wf | with_reducible apply foldl_wf | split

theorem State.resumeTx_wf (s : State) (l : LinkId) (res : Bool) (exp : ℕ) (hs : s.wf = true)
    : (State.resumeTx s l res exp).wf = true := by
  unfold State.resumeTx
  dsimp only
  repeat' first
    | with_reducible assumption | with_reducible apply State.rewind_wf | with_reducible apply State.restartTx_wf
    | with_reducible apply State.freeBefore_wf | with_reducible apply foldl_wf | split

/-! ### Lanes -/

theorem State.laneL1_wf (s : State) (i : ℕ) (hs : s.wf = true) : (State.laneL1 s i).wf = true := by
  unfold State.laneL1
  dsimp only
  repeat' first
    | with_reducible assumption | with_reducible apply State.setLane_wf | with_reducible apply State.setO_wf

theorem State.tryScan_wf (s : State) (i : ℕ) (hs : s.wf = true) : (State.tryScan s i).wf = true := by
  unfold State.tryScan
  repeat' first
    | with_reducible assumption | with_reducible apply State.setO_wf | with_reducible apply foldl_wf | split

theorem State.laneFollow_wf (s : State) (i : ℕ) (hs : s.wf = true) : (State.laneFollow s i).wf = true := by
  unfold State.laneFollow
  dsimp only
  repeat' first
    | with_reducible assumption | with_reducible apply State.laneL2_wf | with_reducible apply State.laneL1_wf
    | with_reducible apply foldl_wf | split

theorem State.lanesFollow_wf (s : State) (hs : s.wf = true) : (State.lanesFollow s).wf = true := by
  unfold State.lanesFollow
  repeat' first
    | with_reducible assumption | with_reducible apply State.laneFollow_wf | with_reducible apply foldl_wf

theorem State.alignRow_wf (s : State) (kind : ℕ) (hs : s.wf = true) : (State.alignRow s kind).wf = true := by
  unfold State.alignRow
  dsimp only
  repeat' first
    | with_reducible assumption | with_reducible apply State.emit_wf | with_reducible apply foldl_wf
    | with_reducible apply wfParts_memWrite | with_reducible apply wfParts_memPutWord
    | with_reducible apply wfParts_memZero | with_reducible apply wfParts_nvmWrite
    | with_reducible apply wfParts_nvmZero | split | simp only [wf_lit] | with_reducible apply wf_parts

theorem State.bundleEvent_wf (s : State) (lane : ℕ) (cause : ℕ) (hs : s.wf = true)
    : (State.bundleEvent s lane cause).wf = true := by
  unfold State.bundleEvent
  repeat' first
    | with_reducible assumption | with_reducible apply State.stage_wf | with_reducible apply State.ariseIf_wf
    | with_reducible apply foldl_wf | split

theorem State.restripe_wf (s : State) (hs : s.wf = true) : (State.restripe s).wf = true := by
  unfold State.restripe
  dsimp only
  repeat' first
    | with_reducible assumption | with_reducible apply State.bump_wf | with_reducible apply State.alignRow_wf
    | with_reducible apply State.bundleEvent_wf | with_reducible apply State.setO_wf
    | with_reducible apply State.settle_wf | with_reducible apply State.northDown_wf
    | with_reducible apply State.rewindMark_wf | with_reducible apply foldl_wf | with_reducible apply wfParts_memWrite
    | with_reducible apply wfParts_memPutWord | with_reducible apply wfParts_memZero
    | with_reducible apply wfParts_nvmWrite | with_reducible apply wfParts_nvmZero | split | simp only [wf_lit]
    | with_reducible apply wf_parts

theorem State.enterCaps_wf (s : State) (l : LinkId) (hs : s.wf = true) : (State.enterCaps s l).wf = true := by
  unfold State.enterCaps
  repeat' first
    | with_reducible assumption | with_reducible apply State.setO_wf | with_reducible apply State.setCaps_wf

theorem State.northFollow_wf (s : State) (hs : s.wf = true) : (State.northFollow s).wf = true := by
  unfold State.northFollow
  repeat' first
    | with_reducible assumption | with_reducible apply State.enterCaps_wf | with_reducible apply State.northDown_wf
    | with_reducible apply State.restripe_wf | with_reducible apply foldl_wf | split

theorem State.setSouthRate_wf (s : State) (k : ℕ) (r : ℕ) (hs : s.wf = true)
    : (State.setSouthRate s k r).wf = true := by
  unfold State.setSouthRate
  dsimp only
  repeat' first
    | with_reducible assumption | with_reducible apply foldl_wf | with_reducible apply wfParts_memWrite
    | with_reducible apply wfParts_memPutWord | with_reducible apply wfParts_memZero
    | with_reducible apply wfParts_nvmWrite | with_reducible apply wfParts_nvmZero | split | simp only [wf_lit]
    | with_reducible apply wf_parts

theorem State.clockRate_wf (s : State) (k : ℕ) (hs : s.wf = true) : (State.clockRate s k).wf = true := by
  unfold State.clockRate
  repeat' first
    | with_reducible assumption | with_reducible apply State.laneL2_wf | with_reducible apply State.setSouthRate_wf
    | with_reducible apply foldl_wf | split

theorem State.southFollow_wf (s : State) (k : ℕ) (hs : s.wf = true) : (State.southFollow s k).wf = true := by
  unfold State.southFollow
  dsimp only
  repeat' first
    | with_reducible assumption | with_reducible apply State.linkDown_wf | with_reducible apply State.clockRate_wf
    | with_reducible apply State.setPortState_wf | with_reducible apply State.enterCaps_wf
    | with_reducible apply State.southDown_wf | with_reducible apply foldl_wf | split

theorem State.northHand_wf (s : State) (hs : s.wf = true) : (State.northHand s).wf = true := by
  unfold State.northHand
  dsimp only
  repeat' first
    | with_reducible assumption | with_reducible apply foldl_wf | with_reducible apply wfParts_memWrite
    | with_reducible apply wfParts_memPutWord | with_reducible apply wfParts_memZero
    | with_reducible apply wfParts_nvmWrite | with_reducible apply wfParts_nvmZero | split | simp only [wf_lit]
    | with_reducible apply wf_parts

theorem State.follow_wf (s : State) (hs : s.wf = true) : (State.follow s).wf = true := by
  unfold State.follow
  dsimp only
  repeat' first
    | with_reducible assumption | with_reducible apply State.lanesFollow_wf
    | with_reducible apply State.southFollow_wf | with_reducible apply State.northHand_wf
    | with_reducible apply State.settle_wf | with_reducible apply State.northFollow_wf | with_reducible apply foldl_wf
    | split

theorem State.leaveL2_wf (s : State) (i : ℕ) (hs : s.wf = true) : (State.leaveL2 s i).wf = true := by
  unfold State.leaveL2
  dsimp only
  repeat' first
    | with_reducible assumption | with_reducible apply State.setO_wf | with_reducible apply State.enterCaps_wf
    | with_reducible apply State.tryScan_wf | with_reducible apply foldl_wf | split

theorem State.l2ExitDone_wf (s : State) (i : ℕ) (hs : s.wf = true) : (State.l2ExitDone s i).wf = true := by
  unfold State.l2ExitDone
  repeat' first
    | with_reducible assumption | with_reducible apply State.leaveL2_wf | with_reducible apply State.follow_wf
    | with_reducible apply foldl_wf | split

theorem State.l1ExitDone_wf (s : State) (i : ℕ) (hs : s.wf = true) : (State.l1ExitDone s i).wf = true := by
  unfold State.l1ExitDone
  dsimp only
  repeat' first
    | with_reducible assumption | with_reducible apply State.bump_wf | with_reducible apply State.setO_wf
    | with_reducible apply State.follow_wf | with_reducible apply State.tryScan_wf | with_reducible apply foldl_wf
    | split

theorem State.phaseScanDone_wf (s : State) (i : ℕ) (d : List ℕ) (hs : s.wf = true)
    : (State.phaseScanDone s i d).wf = true := by
  unfold State.phaseScanDone
  dsimp only
  repeat' first
    | with_reducible assumption | with_reducible apply State.setLane_wf | with_reducible apply State.setO_wf
    | with_reducible apply foldl_wf | split

theorem State.phaseTrack_wf (s : State) (i : ℕ) (early : ℕ) (late : ℕ) (hs : s.wf = true)
    : (State.phaseTrack s i early late).wf = true := by
  unfold State.phaseTrack
  dsimp only
  repeat' first
    | with_reducible assumption | with_reducible apply State.bump_wf | with_reducible apply State.setO_wf
    | with_reducible apply foldl_wf | split

theorem State.laneFall_wf (s : State) (i : ℕ) (to_ : ℕ) (hs : s.wf = true) : (State.laneFall s i to_).wf = true := by
  unfold State.laneFall
  dsimp only
  repeat' first
    | with_reducible assumption | with_reducible apply State.setLane_wf | with_reducible apply State.setO_wf

theorem State.alignLoss_wf (s : State) (i : ℕ) (hs : s.wf = true) : (State.alignLoss s i).wf = true := by
  unfold State.alignLoss
  repeat' first
    | with_reducible assumption | with_reducible apply State.bump_wf | with_reducible apply State.follow_wf
    | with_reducible apply State.laneFall_wf

theorem State.huntTimeout_wf (s : State) (i : ℕ) (hs : s.wf = true) : (State.huntTimeout s i).wf = true := by
  unfold State.huntTimeout
  repeat' first
    | with_reducible assumption | with_reducible apply State.laneFall_wf | with_reducible apply foldl_wf | split

theorem State.huntHeader_wf (s : State) (i : ℕ) (valid : Bool) (hs : s.wf = true)
    : (State.huntHeader s i valid).wf = true := by
  unfold State.huntHeader
  dsimp only
  repeat' first
    | with_reducible assumption | with_reducible apply State.bump_wf | with_reducible apply State.setLane_wf
    | with_reducible apply State.setO_wf | with_reducible apply State.follow_wf | with_reducible apply foldl_wf
    | split

theorem State.lockedHeader_wf (s : State) (i : ℕ) (valid : Bool) (hs : s.wf = true)
    : (State.lockedHeader s i valid).wf = true := by
  unfold State.lockedHeader
  dsimp only
  repeat' first
    | with_reducible assumption | with_reducible apply State.bump_wf | with_reducible apply State.setLane_wf
    | with_reducible apply foldl_wf | split

theorem State.rxOverflow_wf (s : State) (i : ℕ) (hs : s.wf = true) : (State.rxOverflow s i).wf = true := by
  unfold State.rxOverflow
  repeat' first
    | with_reducible assumption | with_reducible apply State.alignLoss_wf | with_reducible apply foldl_wf | split

theorem State.losAssert_wf (s : State) (i : ℕ) (hs : s.wf = true) : (State.losAssert s i).wf = true := by
  unfold State.losAssert
  dsimp only
  repeat' first
    | with_reducible assumption | with_reducible apply State.bump_wf | with_reducible apply State.setLane_wf
    | with_reducible apply State.follow_wf | with_reducible apply State.laneFall_wf | with_reducible apply foldl_wf
    | split

theorem State.losClear_wf (s : State) (i : ℕ) (hs : s.wf = true) : (State.losClear s i).wf = true := by
  unfold State.losClear
  dsimp only
  repeat' first
    | with_reducible assumption | with_reducible apply State.setLane_wf | with_reducible apply State.follow_wf
    | with_reducible apply State.tryScan_wf | with_reducible apply foldl_wf | split

theorem State.laneLol_wf (s : State) (i : ℕ) (hs : s.wf = true) : (State.laneLol s i).wf = true := by
  unfold State.laneLol
  dsimp only
  repeat' first
    | with_reducible assumption | with_reducible apply State.bump_wf | with_reducible apply State.setLane_wf
    | with_reducible apply State.laneFall_wf | with_reducible apply foldl_wf | split

theorem State.lolAssert_wf (s : State) (i : ℕ) (synth : Option (Fin 2)) (hs : s.wf = true)
    : (State.lolAssert s i synth).wf = true := by
  unfold State.lolAssert
  dsimp only
  repeat' first
    | with_reducible assumption | with_reducible apply State.bump_wf | with_reducible apply State.laneLol_wf
    | with_reducible apply State.follow_wf | with_reducible apply foldl_wf | with_reducible apply wfParts_memWrite
    | with_reducible apply wfParts_memPutWord | with_reducible apply wfParts_memZero
    | with_reducible apply wfParts_nvmWrite | with_reducible apply wfParts_nvmZero | split | simp only [wf_lit]
    | with_reducible apply wf_parts | with_reducible refine wf_fst_eq ‹_ = _› ?_ | intro _

theorem State.laneLolClear_wf (s : State) (i : ℕ) (hs : s.wf = true) : (State.laneLolClear s i).wf = true := by
  unfold State.laneLolClear
  dsimp only
  repeat' first
    | with_reducible assumption | with_reducible apply State.setLane_wf | with_reducible apply State.tryScan_wf

theorem State.lolClear_wf (s : State) (i : ℕ) (synth : Option (Fin 2)) (hs : s.wf = true)
    : (State.lolClear s i synth).wf = true := by
  unfold State.lolClear
  dsimp only
  repeat' first
    | with_reducible assumption | with_reducible apply State.follow_wf | with_reducible apply State.laneLolClear_wf
    | with_reducible apply foldl_wf | with_reducible apply wfParts_memWrite | with_reducible apply wfParts_memPutWord
    | with_reducible apply wfParts_memZero | with_reducible apply wfParts_nvmWrite
    | with_reducible apply wfParts_nvmZero | split | simp only [wf_lit] | with_reducible apply wf_parts
    | with_reducible refine wf_fst_eq ‹_ = _› ?_ | intro _

theorem State.txFaultSet_wf (s : State) (i : ℕ) (hs : s.wf = true) : (State.txFaultSet s i).wf = true := by
  unfold State.txFaultSet
  dsimp only
  repeat' first
    | with_reducible assumption | with_reducible apply State.setLane_wf | with_reducible apply State.follow_wf
    | with_reducible apply foldl_wf | split

theorem State.eyeStart_wf (s : State) (i : ℕ) (hs : s.wf = true) : (State.eyeStart s i).wf = true := by
  unfold State.eyeStart
  dsimp only
  repeat' first
    | with_reducible assumption | with_reducible apply State.setLane_wf | with_reducible apply foldl_wf | split

theorem State.marginDone_wf (s : State) (i : ℕ) (m : ℕ) (hs : s.wf = true) : (State.marginDone s i m).wf = true := by
  unfold State.marginDone
  dsimp only
  repeat' first
    | with_reducible assumption | with_reducible apply State.setLane_wf | with_reducible apply State.setO_wf
    | with_reducible apply foldl_wf | split

theorem State.laneTest_wf (s : State) (i : ℕ) (v : ℕ) (hs : s.wf = true) : (State.laneTest s i v).wf = true := by
  unfold State.laneTest
  dsimp only
  repeat' first
    | with_reducible assumption | with_reducible apply State.setLane_wf | with_reducible apply State.setO_wf
    | with_reducible apply State.follow_wf | with_reducible apply State.tryScan_wf
    | with_reducible apply State.laneFall_wf | with_reducible apply foldl_wf | split

theorem State.prbsSync_wf (s : State) (i : ℕ) (reg : ℕ) (hs : s.wf = true) : (State.prbsSync s i reg).wf = true := by
  unfold State.prbsSync
  dsimp only
  repeat' first
    | with_reducible assumption | with_reducible apply State.setLane_wf | with_reducible apply foldl_wf | split

theorem State.prbsLoss_wf (s : State) (i : ℕ) (hs : s.wf = true) : (State.prbsLoss s i).wf = true := by
  unfold State.prbsLoss
  dsimp only
  repeat' first
    | with_reducible assumption | with_reducible apply State.setLane_wf

theorem State.descramble_wf (s : State) (i : ℕ) (w : ℕ) (hs : s.wf = true)
    : (State.descramble s i w).1.wf = true := by
  unfold State.descramble
  dsimp only
  repeat' first
    | with_reducible assumption | with_reducible apply State.setLane_wf

theorem State.prbsBits_wf (s : State) (i : ℕ) (h : ℕ) (p : ℕ) (hs : s.wf = true)
    : (State.prbsBits s i h p).wf = true := by
  unfold State.prbsBits
  dsimp only
  repeat' first
    | with_reducible assumption | with_reducible apply State.bumpBy_wf | with_reducible apply State.setLane_wf
    | with_reducible apply State.setO_wf | with_reducible apply foldl_wf | split

theorem State.pctrlEffect_wf (s : State) (i : ℕ) (v : ℕ) (hs : s.wf = true)
    : (State.pctrlEffect s i v).wf = true := by
  unfold State.pctrlEffect
  repeat' first
    | with_reducible assumption | with_reducible apply State.setO_wf | with_reducible apply State.follow_wf

theorem State.bundleReqEffect_wf (s : State) (v : ℕ) (hs : s.wf = true) : (State.bundleReqEffect s v).wf = true := by
  unfold State.bundleReqEffect
  dsimp only
  repeat' first
    | with_reducible assumption | with_reducible apply State.setO_wf | with_reducible apply State.follow_wf
    | with_reducible apply foldl_wf | with_reducible apply wfParts_memWrite | with_reducible apply wfParts_memPutWord
    | with_reducible apply wfParts_memZero | with_reducible apply wfParts_nvmWrite
    | with_reducible apply wfParts_nvmZero | split | simp only [wf_lit] | with_reducible apply wf_parts

/-! ### Ragil -/

theorem State.sendCaps_wf (s : State) (l : LinkId) (hs : s.wf = true) : (State.sendCaps s l).wf = true := by
  unfold State.sendCaps
  dsimp only
  repeat' first
    | with_reducible assumption | with_reducible apply State.setCaps_wf | with_reducible apply State.emitBlock_wf

theorem State.takeClid_wf (s : State) (id : ℕ) (hs : s.wf = true) : (State.takeClid s id).wf = true := by
  unfold State.takeClid
  dsimp only
  repeat' first
    | with_reducible assumption | with_reducible apply State.setO_wf | with_reducible apply foldl_wf
    | with_reducible apply wfParts_memWrite | with_reducible apply wfParts_memPutWord
    | with_reducible apply wfParts_memZero | with_reducible apply wfParts_nvmWrite
    | with_reducible apply wfParts_nvmZero | split | simp only [wf_lit] | with_reducible apply wf_parts

theorem State.northAgreed_wf (s : State) (a : Agreed) (hs : s.wf = true) : (State.northAgreed s a).wf = true := by
  unfold State.northAgreed
  dsimp only
  repeat' first
    | with_reducible assumption | with_reducible apply State.setO_wf | with_reducible apply foldl_wf
    | with_reducible apply wfParts_memWrite | with_reducible apply wfParts_memPutWord
    | with_reducible apply wfParts_memZero | with_reducible apply wfParts_nvmWrite
    | with_reducible apply wfParts_nvmZero | split | simp only [wf_lit] | with_reducible apply wf_parts

theorem State.northRate_wf (s : State) (a : Agreed) (hs : s.wf = true) : (State.northRate s a).wf = true := by
  unfold State.northRate
  dsimp only
  repeat' first
    | with_reducible assumption | with_reducible apply State.clearLine_wf | with_reducible apply State.laneL2_wf
    | with_reducible apply State.setO_wf | with_reducible apply State.follow_wf
    | with_reducible apply State.setCaps_wf | with_reducible apply State.northAgreed_wf
    | with_reducible apply foldl_wf | with_reducible apply wfParts_memWrite | with_reducible apply wfParts_memPutWord
    | with_reducible apply wfParts_memZero | with_reducible apply wfParts_nvmWrite
    | with_reducible apply wfParts_nvmZero | split | simp only [wf_lit] | with_reducible apply wf_parts
    | with_reducible refine wf_fst_eq ‹_ = _› ?_ | intro _

theorem State.upReceiver_wf (s : State) (l : LinkId) (hs : s.wf = true) : (State.upReceiver s l).wf = true := by
  unfold State.upReceiver
  dsimp only
  repeat' first
    | with_reducible assumption | with_reducible apply State.setRx_wf | with_reducible apply State.setCaps_wf
    | with_reducible apply foldl_wf | split

theorem State.resumePass_wf (s : State) (res : Bool) (hs : s.wf = true) : (State.resumePass s res).wf = true := by
  unfold State.resumePass
  repeat' first
    | with_reducible assumption | with_reducible apply State.restartTx_wf | with_reducible apply State.rewindMark_wf
    | with_reducible apply foldl_wf | split | simp only [wf_lit] | with_reducible apply wf_parts
    | with_reducible refine wf_fst_eq ‹_ = _› ?_ | intro _

theorem State.northUp_wf (s : State) (a : Agreed) (c : ℕ) (hs : s.wf = true) : (State.northUp s a c).wf = true := by
  unfold State.northUp
  dsimp only
  repeat' first
    | with_reducible assumption | with_reducible apply State.bump_wf | with_reducible apply State.resumePass_wf
    | with_reducible apply State.bundleEvent_wf | with_reducible apply State.setO_wf
    | with_reducible apply State.resumeTx_wf | with_reducible apply State.follow_wf
    | with_reducible apply State.northDown_wf | with_reducible apply State.takeClid_wf
    | with_reducible apply State.upReceiver_wf | with_reducible apply State.northAgreed_wf
    | with_reducible apply foldl_wf | with_reducible apply wfParts_memWrite | with_reducible apply wfParts_memPutWord
    | with_reducible apply wfParts_memZero | with_reducible apply wfParts_nvmWrite
    | with_reducible apply wfParts_nvmZero | split | simp only [wf_lit] | with_reducible apply wf_parts

theorem State.southRate_wf (s : State) (k : ℕ) (a : Agreed) (hs : s.wf = true)
    : (State.southRate s k a).wf = true := by
  unfold State.southRate
  dsimp only
  repeat' first
    | with_reducible assumption | with_reducible apply State.clearLine_wf | with_reducible apply State.laneL2_wf
    | with_reducible apply State.setSouthRate_wf | with_reducible apply State.setO_wf
    | with_reducible apply State.follow_wf | with_reducible apply State.setCaps_wf

theorem State.southUp_wf (s : State) (k : ℕ) (a : Agreed) (c : ℕ) (hs : s.wf = true)
    : (State.southUp s k a c).wf = true := by
  unfold State.southUp
  dsimp only
  repeat' first
    | with_reducible assumption | with_reducible apply State.setPort_wf | with_reducible apply State.setPortState_wf
    | with_reducible apply State.setO_wf | with_reducible apply State.resumeTx_wf
    | with_reducible apply State.follow_wf | with_reducible apply State.upReceiver_wf

theorem State.capsAgreed_wf (s : State) (l : LinkId) (a : Agreed) (c : ℕ) (hs : s.wf = true)
    : (State.capsAgreed s l a c).wf = true := by
  unfold State.capsAgreed
  repeat' first
    | with_reducible assumption | with_reducible apply State.southUp_wf | with_reducible apply State.northUp_wf
    | with_reducible apply State.southRate_wf | with_reducible apply State.northRate_wf
    | with_reducible apply foldl_wf | split

theorem State.capsTaken_wf (s : State) (l : LinkId) (c : ℕ) (hs : s.wf = true)
    : (State.capsTaken s l c).wf = true := by
  unfold State.capsTaken
  dsimp only
  repeat' first
    | with_reducible assumption | with_reducible apply State.setCaps_wf | with_reducible apply State.sendCaps_wf
    | with_reducible apply foldl_wf | split

theorem State.capsMeet_wf (s : State) (l : LinkId) (c : ℕ) (x3 : Option Agreed) (hs : s.wf = true)
    : (State.capsMeet s l c x3).wf = true := by
  unfold State.capsMeet
  repeat' first
    | with_reducible assumption | with_reducible apply State.bumpNorth_wf | with_reducible apply State.capsAgreed_wf
    | with_reducible apply foldl_wf | split

theorem State.capsIn_wf (s : State) (l : LinkId) (c : ℕ) (hs : s.wf = true) : (State.capsIn s l c).wf = true := by
  unfold State.capsIn
  exact State.capsMeet_wf _ _ _ _ (State.capsTaken_wf _ _ _ hs)

theorem State.capsProceed_wf (s : State) (l : LinkId) (hs : s.wf = true) : (State.capsProceed s l).wf = true := by
  unfold State.capsProceed
  split
  · exact hs
  · exact ite_wf (State.capsMeet_wf _ _ _ _ hs) hs

theorem State.capsAgain_wf (s : State) (l : LinkId) (c : ℕ) (hs : s.wf = true)
    : (State.capsAgain s l c).wf = true := by
  unfold State.capsAgain
  dsimp only
  repeat' first
    | with_reducible assumption | with_reducible apply State.setPortState_wf | with_reducible apply State.capsIn_wf
    | with_reducible apply State.follow_wf | with_reducible apply State.enterCaps_wf
    | with_reducible apply State.southDown_wf | with_reducible apply State.northDown_wf
    | with_reducible apply foldl_wf | split

theorem State.capsUp_wf (s : State) (l : LinkId) (c : ℕ) (hs : s.wf = true) : (State.capsUp s l c).wf = true := by
  unfold State.capsUp
  dsimp only
  repeat' first
    | with_reducible assumption | with_reducible apply State.takeClid_wf | with_reducible apply State.setCaps_wf
    | with_reducible apply State.capsAgain_wf | with_reducible apply foldl_wf | split

theorem State.capsReceive_wf (s : State) (l : LinkId) (c : ℕ) (hs : s.wf = true)
    : (State.capsReceive s l c).wf = true := by
  unfold State.capsReceive
  repeat' first
    | with_reducible assumption | with_reducible apply State.capsUp_wf | with_reducible apply State.capsIn_wf
    | with_reducible apply foldl_wf | split

theorem State.capsDue_wf (s : State) (l : LinkId) (hs : s.wf = true) : (State.capsDue s l).wf = true := by
  unfold State.capsDue
  repeat' first
    | with_reducible assumption | with_reducible apply State.sendCaps_wf | with_reducible apply foldl_wf | split

theorem State.capsTimeout_wf (s : State) (l : LinkId) (hs : s.wf = true) : (State.capsTimeout s l).wf = true := by
  unfold State.capsTimeout
  dsimp only
  repeat' first
    | with_reducible assumption | with_reducible apply State.bump_wf | with_reducible apply State.linkDown_wf
    | with_reducible apply State.laneL2_wf | with_reducible apply State.follow_wf
    | with_reducible apply State.northDown_wf | with_reducible apply foldl_wf | split | simp only [wf_lit]
    | with_reducible apply wf_parts | with_reducible refine wf_fst_eq ‹_ = _› ?_ | intro _

theorem State.statusSend_wf (s : State) (l : LinkId) (hs : s.wf = true) : (State.statusSend s l).wf = true := by
  unfold State.statusSend
  repeat' first
    | with_reducible assumption | with_reducible apply State.emitBlock_wf | with_reducible apply foldl_wf | split

theorem State.statusReceive_wf (s : State) (l : LinkId) (c : ℕ) (hs : s.wf = true)
    : (State.statusReceive s l c).wf = true := by
  unfold State.statusReceive
  dsimp only
  repeat' first
    | with_reducible assumption | with_reducible apply State.follow_wf | with_reducible apply foldl_wf
    | with_reducible apply wfParts_memWrite | with_reducible apply wfParts_memPutWord
    | with_reducible apply wfParts_memZero | with_reducible apply wfParts_nvmWrite
    | with_reducible apply wfParts_nvmZero | split | simp only [wf_lit] | with_reducible apply wf_parts

theorem State.laneJoin_wf (s : State) (j : ℕ) (scheduled : Bool) (hs : s.wf = true)
    : (State.laneJoin s j scheduled).wf = true := by
  unfold State.laneJoin
  dsimp only
  repeat' first
    | with_reducible assumption | with_reducible apply State.setOb_wf | with_reducible apply State.alignRow_wf
    | with_reducible apply State.settle_wf | with_reducible apply foldl_wf | with_reducible apply wfParts_memWrite
    | with_reducible apply wfParts_memPutWord | with_reducible apply wfParts_memZero
    | with_reducible apply wfParts_nvmWrite | with_reducible apply wfParts_nvmZero | split | simp only [wf_lit]
    | with_reducible apply wf_parts

theorem State.rowDue_wf (s : State) (l : LinkId) (hs : s.wf = true) : (State.rowDue s l).wf = true := by
  unfold State.rowDue
  dsimp only
  repeat' first
    | with_reducible assumption | with_reducible apply State.alignRow_wf | with_reducible apply State.emit_wf
    | with_reducible apply foldl_wf | with_reducible apply wfParts_memWrite | with_reducible apply wfParts_memPutWord
    | with_reducible apply wfParts_memZero | with_reducible apply wfParts_nvmWrite
    | with_reducible apply wfParts_nvmZero | split | simp only [wf_lit] | with_reducible apply wf_parts

theorem State.nak_wf (s : State) (l : LinkId) (reason : ℕ) (hs : s.wf = true) : (State.nak s l reason).wf = true := by
  unfold State.nak
  dsimp only
  repeat' first
    | with_reducible assumption | with_reducible apply State.setRx_wf | with_reducible apply State.bumpNorth_wf
    | with_reducible apply State.emitBlock_wf | with_reducible apply foldl_wf | split

theorem State.badFrame_wf (s : State) (l : LinkId) (reason : ℕ) (hs : s.wf = true)
    : (State.badFrame s l reason).wf = true := by
  unfold State.badFrame
  repeat' first
    | with_reducible assumption | with_reducible apply State.bump_wf | with_reducible apply State.nak_wf

theorem State.leafFrame_wf (s : State) (k : ℕ) (sof : ℕ) (data : List Byte) (hs : s.wf = true)
    : (State.leafFrame s k sof data).wf = true := by
  unfold State.leafFrame
  dsimp only
  repeat' first
    | with_reducible assumption | with_reducible apply State.setPort_wf | with_reducible apply State.leafSubevent_wf
    | with_reducible apply State.peak_wf | with_reducible apply foldl_wf | with_reducible apply wfParts_memWrite
    | with_reducible apply wfParts_memPutWord | with_reducible apply wfParts_memZero
    | with_reducible apply wfParts_nvmWrite | with_reducible apply wfParts_nvmZero | split | simp only [wf_lit]
    | with_reducible apply wf_parts

theorem State.leafMessage_wf (s : State) (k : ℕ) (data : List Byte) (hs : s.wf = true)
    : (State.leafMessage s k data).wf = true := by
  unfold State.leafMessage
  dsimp only
  repeat' first
    | with_reducible assumption | with_reducible apply State.portFill_wf | with_reducible apply State.wrapBy_wf
    | with_reducible apply foldl_wf | with_reducible apply wfParts_memWrite | with_reducible apply wfParts_memPutWord
    | with_reducible apply wfParts_memZero | with_reducible apply wfParts_nvmWrite
    | with_reducible apply wfParts_nvmZero | split | simp only [wf_lit] | with_reducible apply wf_parts

theorem State.deliver_wf (s : State) (l : LinkId) (sof : ℕ) (data : List Byte) (hs : s.wf = true)
    : (State.deliver s l sof data).wf = true := by
  unfold State.deliver
  dsimp only
  repeat' first
    | with_reducible assumption | with_reducible apply State.leafMessage_wf | with_reducible apply State.leafFrame_wf
    | with_reducible apply foldl_wf | with_reducible apply wfParts_memWrite | with_reducible apply wfParts_memPutWord
    | with_reducible apply wfParts_memZero | with_reducible apply wfParts_nvmWrite
    | with_reducible apply wfParts_nvmZero | split | simp only [wf_lit] | with_reducible apply wf_parts

theorem State.frameInOrder_wf (s : State) (l : LinkId) (sof : ℕ) (data : List Byte) (hs : s.wf = true)
    : (State.frameInOrder s l sof data).wf = true := by
  unfold State.frameInOrder
  dsimp only
  repeat' first
    | with_reducible assumption | with_reducible apply State.setRx_wf | with_reducible apply State.bumpNorth_wf
    | with_reducible apply State.badFrame_wf | with_reducible apply State.wrapBy_wf
    | with_reducible apply State.nak_wf | with_reducible apply State.deliver_wf | with_reducible apply foldl_wf
    | split

theorem State.frameReceive_wf (s : State) (l : LinkId) (sof : ℕ) (blocks : List ℕ) (eof : Option ℕ)
    (hs : s.wf = true)
    : (State.frameReceive s l sof blocks eof).wf = true := by
  unfold State.frameReceive
  dsimp only
  repeat' first
    | with_reducible assumption | with_reducible apply State.frameInOrder_wf | with_reducible apply State.badFrame_wf
    | with_reducible apply State.check_wf | with_reducible apply State.drawn_wf | with_reducible apply foldl_wf
    | split

theorem State.nakHoldEnd_wf (s : State) (l : LinkId) (hs : s.wf = true) : (State.nakHoldEnd s l).wf = true := by
  unfold State.nakHoldEnd
  dsimp only
  repeat' first
    | with_reducible assumption | with_reducible apply State.setRx_wf

theorem State.ackSend_wf (s : State) (l : LinkId) (hs : s.wf = true) : (State.ackSend s l).wf = true := by
  unfold State.ackSend
  dsimp only
  repeat' first
    | with_reducible assumption | with_reducible apply State.setRx_wf | with_reducible apply State.emitBlock_wf
    | with_reducible apply foldl_wf | split

theorem State.ackBad_wf (s : State) (l : LinkId) (hs : s.wf = true) : (State.ackBad s l).wf = true := by
  unfold State.ackBad
  repeat' first
    | with_reducible assumption | with_reducible apply State.bump_wf | with_reducible apply foldl_wf | split

theorem State.ackReceive_wf (s : State) (l : LinkId) (c : ℕ) (hs : s.wf = true)
    : (State.ackReceive s l c).wf = true := by
  unfold State.ackReceive
  dsimp only
  repeat' first
    | with_reducible assumption | with_reducible apply State.repartIfFree_wf | with_reducible apply State.ackBad_wf
    | with_reducible apply State.freeBefore_wf | with_reducible apply foldl_wf | split

theorem State.nakReceive_wf (s : State) (l : LinkId) (c : ℕ) (hs : s.wf = true)
    : (State.nakReceive s l c).wf = true := by
  unfold State.nakReceive
  dsimp only
  repeat' first
    | with_reducible assumption | with_reducible apply State.bumpNorth_wf | with_reducible apply State.ackBad_wf
    | with_reducible apply State.rewind_wf | with_reducible apply State.freeBefore_wf | with_reducible apply foldl_wf
    | split

theorem State.replayTimeout_wf (s : State) (l : LinkId) (hs : s.wf = true) : (State.replayTimeout s l).wf = true := by
  unfold State.replayTimeout
  repeat' first
    | with_reducible assumption | with_reducible apply State.bumpNorth_wf | with_reducible apply State.rewindMark_wf
    | with_reducible apply foldl_wf | split

theorem State.takeNorthMsg_wf (s : State) (hs : s.wf = true)
    : ∀ t, State.takeNorthMsg s = some t → t.1.wf = true := by
  unfold State.takeNorthMsg
  extract_lets own relay
  clear_value own relay
  split
  · exact wf_some (State.check_wf _ _ _ (wf_of s hs rfl rfl rfl rfl))
  · exact wf_some (wf_of s hs rfl rfl rfl rfl)
  · exact wf_none

theorem State.takeAnswer_wf (s : State) (hs : s.wf = true) : ∀ t, State.takeAnswer s = some t → t.1.wf = true := by
  unfold State.takeAnswer
  split
  · exact wf_none
  · extract_lets open_ left n last done carries load
    split
    · exact wf_none
    · refine wf_some ?_
      dsimp only
      split
      · exact wf_of s hs rfl rfl rfl rfl
      · exact wf_of s hs rfl rfl rfl rfl

theorem State.takeLoad_wf (s : State) (l : LinkId) (hs : s.wf = true)
    : ∀ t, State.takeLoad s l = some t → t.1.wf = true := by
  unfold State.takeLoad
  split
  · split
    · exact wf_some (State.takeNorthMsg_wf s hs _ ‹_›)
    · exact State.takeAnswer_wf s hs
  · split
    · exact wf_some (wf_of s hs rfl rfl rfl rfl)
    · exact wf_none
  · extract_lets p
    split
    · exact wf_some (wf_of s hs rfl rfl rfl rfl)
    · exact wf_none

theorem State.countFrame_wf (s : State) (l : LinkId) (hs : s.wf = true) : (State.countFrame s l).wf = true := by
  unfold State.countFrame
  repeat' first
    | with_reducible assumption | with_reducible apply State.wrapBy_wf | with_reducible apply foldl_wf | split

theorem State.sendNew_wf (s : State) (l : LinkId) (d : Load) (hs : s.wf = true)
    : (State.sendNew s l d).wf = true := by
  unfold State.sendNew
  dsimp only
  repeat' first
    | with_reducible assumption | with_reducible apply State.check_wf | with_reducible apply State.countFrame_wf
    | with_reducible apply State.setTx_wf | with_reducible apply State.emit_wf | with_reducible apply foldl_wf
    | with_reducible apply wfParts_memWrite | with_reducible apply wfParts_memPutWord
    | with_reducible apply wfParts_memZero | with_reducible apply wfParts_nvmWrite
    | with_reducible apply wfParts_nvmZero | split | simp only [wf_lit] | with_reducible apply wf_parts

theorem State.stall_wf (s : State) (l : LinkId) (hs : s.wf = true) : (State.stall s l).wf = true := by
  unfold State.stall
  dsimp only
  repeat' first
    | with_reducible assumption | with_reducible apply State.bumpNorth_wf | with_reducible apply State.setTx_wf
    | with_reducible apply foldl_wf | split

theorem State.frameNew_wf (s : State) (l : LinkId) (hs : s.wf = true) : (State.frameNew s l).wf = true := by
  unfold State.frameNew
  extract_lets t
  have ht : t.wf = true := by
    unfold t
    split
    · exact State.repartIfFree_wf _ hs
    · exact hs
  clear_value t
  split
  · exact ht
  · split
    · exact State.stall_wf _ _ ht
    · exact State.sendNew_wf _ _ _ (State.takeLoad_wf t l ht _ ‹_›)

theorem State.resendFails_wf (s : State) (l : LinkId) (hs : s.wf = true) : (State.resendFails s l).wf = true := by
  unfold State.resendFails
  dsimp only
  repeat' first
    | with_reducible assumption | with_reducible apply State.bump_wf | with_reducible apply State.follow_wf
    | with_reducible apply State.southDown_wf | with_reducible apply State.northDown_wf
    | with_reducible apply foldl_wf | split

theorem State.resend_wf (s : State) (l : LinkId) (f : Frame) (u : List Upset) (hs : s.wf = true)
    : (State.resend s l f u).wf = true := by
  unfold State.resend
  dsimp only
  repeat' first
    | with_reducible assumption | with_reducible apply State.readSpm_wf | with_reducible apply State.resendFails_wf
    | with_reducible apply State.check_wf | with_reducible apply State.setTx_wf | with_reducible apply State.emit_wf
    | with_reducible apply foldl_wf | split

theorem State.frameSend_wf (s : State) (l : LinkId) (u : List Upset) (hs : s.wf = true)
    : (State.frameSend s l u).wf = true := by
  unfold State.frameSend
  dsimp only
  repeat' first
    | with_reducible assumption | with_reducible apply State.resend_wf | with_reducible apply State.frameNew_wf
    | with_reducible apply foldl_wf | split

theorem State.rateHunt_wf (s : State) (k : ℕ) (hs : s.wf = true) : (State.rateHunt s k).wf = true := by
  unfold State.rateHunt
  dsimp only
  repeat' first
    | with_reducible assumption | with_reducible apply State.bump_wf | with_reducible apply State.laneL2_wf
    | with_reducible apply State.setSouthRate_wf | with_reducible apply State.follow_wf
    | with_reducible apply foldl_wf | split

theorem State.leafAlign_wf (s : State) (k : ℕ) (hs : s.wf = true) : (State.leafAlign s k).wf = true := by
  unfold State.leafAlign
  dsimp only
  repeat' first
    | with_reducible assumption | with_reducible apply State.bump_wf | with_reducible apply State.setPort_wf
    | with_reducible apply State.emitBlock_wf | with_reducible apply foldl_wf | split

end Sys2Proof.Machine
end

