-- ==== Sys2Proof/Laws/WfMemory.lean ====
section
/-! SUPPORT. The canonical form of the stored data: what each operation keeps, under
the memories, the lifetime log, resets and clocks. -/
namespace Sys2Proof.Machine

set_option Elab.async false

/-! ### Scratchpad -/

theorem State.setRepairs_wf (s : State) (p : Repairs) (hs : s.wf = true) : (State.setRepairs s p).wf = true := by
  unfold State.setRepairs
  dsimp only
  repeat' first
    | with_reducible assumption | with_reducible apply State.setO_wf | with_reducible apply foldl_wf
    | with_reducible apply wfParts_memWrite | with_reducible apply wfParts_memPutWord
    | with_reducible apply wfParts_memZero | with_reducible apply wfParts_nvmWrite
    | with_reducible apply wfParts_nvmZero | split | simp only [wf_lit] | with_reducible apply wf_parts

theorem State.writeBack_wf (s : State) (hs : s.wf = true) : (State.writeBack s).wf = true := by
  unfold State.writeBack
  dsimp only
  repeat' first
    | with_reducible assumption | with_reducible apply foldl_wf | with_reducible apply wfParts_memWrite
    | with_reducible apply wfParts_memPutWord | with_reducible apply wfParts_memZero
    | with_reducible apply wfParts_nvmWrite | with_reducible apply wfParts_nvmZero | split | simp only [wf_lit]
    | with_reducible apply wf_parts

theorem State.portCycle_wf (s : State) (new : List PortReq) (hs : s.wf = true)
    : (State.portCycle s new).wf = true := by
  unfold State.portCycle
  dsimp only
  repeat' first
    | with_reducible assumption | with_reducible apply State.bumpBy_wf | with_reducible apply State.peak_wf
    | with_reducible apply State.writeBack_wf | with_reducible apply foldl_wf | with_reducible apply wfParts_memWrite
    | with_reducible apply wfParts_memPutWord | with_reducible apply wfParts_memZero
    | with_reducible apply wfParts_nvmWrite | with_reducible apply wfParts_nvmZero | split | simp only [wf_lit]
    | with_reducible apply wf_parts

/-! ### Memories -/

theorem State.refreshRate_wf (s : State) (r : ℕ) (t : ℤ) (hs : s.wf = true)
    : (State.refreshRate s r t).wf = true := by
  unfold State.refreshRate
  dsimp only
  repeat' first
    | with_reducible assumption | with_reducible apply State.setOb_wf | with_reducible apply State.setRank_wf
    | with_reducible apply foldl_wf | split

theorem State.refreshOnce_wf (s : State) (r : ℕ) (temp : ℕ) (hs : s.wf = true)
    : (State.refreshOnce s r temp).wf = true := by
  unfold State.refreshOnce
  repeat' first
    | with_reducible assumption | with_reducible apply State.setO_wf | with_reducible apply State.wrapBy_wf
    | with_reducible apply State.refreshRate_wf

theorem State.refresh_wf (s : State) (r : ℕ) (temp : ℕ) (hs : s.wf = true) : (State.refresh s r temp).wf = true := by
  unfold State.refresh
  repeat' first
    | with_reducible assumption | with_reducible apply State.refreshOnce_wf | with_reducible apply foldl_wf | split

theorem State.rankPowerDown_wf (s : State) (r : ℕ) (hs : s.wf = true) : (State.rankPowerDown s r).wf = true := by
  unfold State.rankPowerDown
  dsimp only
  repeat' first
    | with_reducible assumption | with_reducible apply State.setRank_wf | with_reducible apply foldl_wf | split

theorem State.judgeDies_wf (s : State) (r : ℕ) (failing : ℕ) (hs : s.wf = true)
    : (State.judgeDies s r failing).1.wf = true := by
  unfold State.judgeDies
  dsimp only
  repeat' first
    | with_reducible assumption | with_reducible apply State.markDie_wf | with_reducible apply foldl_wf | split

theorem State.verified_wf (s : State) (r : ℕ) (hs : s.wf = true) : (State.verified s r).wf = true := by
  unfold State.verified
  dsimp only
  repeat' first
    | with_reducible assumption | with_reducible apply foldl_wf | with_reducible apply wfParts_memWrite
    | with_reducible apply wfParts_memPutWord | with_reducible apply wfParts_memZero
    | with_reducible apply wfParts_nvmWrite | with_reducible apply wfParts_nvmZero | split | simp only [wf_lit]
    | with_reducible apply wf_parts

theorem State.verifyDone_wf (s : State) (r : ℕ) (failing : ℕ) (hs : s.wf = true)
    : (State.verifyDone s r failing).wf = true := by
  unfold State.verifyDone
  dsimp only
  repeat' first
    | with_reducible assumption | with_reducible apply State.retire_wf | with_reducible apply State.setO_wf
    | with_reducible apply State.settle_wf | with_reducible apply State.verified_wf
    | with_reducible apply State.judgeDies_wf | with_reducible apply foldl_wf | split

theorem State.delayTrack_wf (s : State) (r : ℕ) (up : ℕ) (down : ℕ) (failing : ℕ) (hs : s.wf = true)
    : (State.delayTrack s r up down failing).wf = true := by
  unfold State.delayTrack
  dsimp only
  repeat' first
    | with_reducible assumption | with_reducible apply State.retire_wf | with_reducible apply State.bumpBy_wf
    | with_reducible apply State.settle_wf | with_reducible apply State.noteEvent_wf
    | with_reducible apply State.setRank_wf | with_reducible apply State.judgeDies_wf | with_reducible apply foldl_wf
    | split | simp only [wf_lit] | with_reducible apply wf_parts | with_reducible refine wf_fst_eq ‹_ = _› ?_
    | intro _

theorem State.passBeats_wf (s : State) (r : ℕ) (u : List Upset) (x3 : List ℕ) (x4 : Met) (hs : s.wf = true)
    : (State.passBeats s r u x3 x4).1.wf = true := by
  induction x3 generalizing s x4 with
  | nil => exact hs
  | cons a l ih =>
    unfold State.passBeats
    extract_lets d t
    have ht : t.wf = true := State.noteBeat_wf _ _ _ _ hs
    split
    · exact ih _ _ ht
    · exact ih _ _ ht
    · exact ih _ _ ht

theorem State.passWords_wf (s : State) (u : List Upset) (x2 : List ℕ) (x3 : Met) (hs : s.wf = true)
    : (State.passWords s u x2 x3).1.wf = true := by
  induction x2 generalizing s x3 with
  | nil => exact hs
  | cons a l ih =>
    unfold State.passWords
    extract_lets t
    have ht : t.wf = true := State.noteWord_wf _ _ _ _ hs
    split
    · exact ih _ _ ht
    · exact ih _ _ ht
    · exact ih _ _ ht

theorem State.passOver_wf (s : State) (target : ℕ) (lo : ℕ) (hi : ℕ) (u : List Upset) (hs : s.wf = true)
    : (State.passOver s target lo hi u).1.wf = true := by
  unfold State.passOver
  dsimp only
  repeat' first
    | with_reducible assumption | with_reducible apply State.countReads_wf | with_reducible apply State.passWords_wf
    | with_reducible apply State.passBeats_wf | with_reducible apply State.countWrites_wf
    | with_reducible apply foldl_wf | split

theorem State.spareCheck_wf (s : State) (u : List Upset) (failing : ℕ) (temps : List ℕ) (hs : s.wf = true)
    : (State.spareCheck s u failing temps).wf = true := by
  unfold State.spareCheck
  dsimp only
  repeat' first
    | with_reducible assumption | with_reducible apply State.retire_wf | with_reducible apply State.refreshOnce_wf
    | with_reducible apply State.passOver_wf | with_reducible apply State.ungate_wf
    | with_reducible apply State.settle_wf | with_reducible apply State.verified_wf
    | with_reducible apply State.setRank_wf | with_reducible apply State.judgeDies_wf | with_reducible apply foldl_wf
    | split | simp only [wf_lit] | with_reducible apply wf_parts | with_reducible refine wf_fst_eq ‹_ = _› ?_
    | intro _

theorem State.drmCtrlEffect_wf (s : State) (v : ℕ) (hs : s.wf = true) : (State.drmCtrlEffect s v).wf = true := by
  unfold State.drmCtrlEffect
  dsimp only
  repeat' first
    | with_reducible assumption | with_reducible apply State.retire_wf | with_reducible apply State.settle_wf
    | with_reducible apply foldl_wf | with_reducible apply wfParts_memWrite | with_reducible apply wfParts_memPutWord
    | with_reducible apply wfParts_memZero | with_reducible apply wfParts_nvmWrite
    | with_reducible apply wfParts_nvmZero | split | simp only [wf_lit] | with_reducible apply wf_parts

theorem State.marchClears_wf (s : State) (hs : s.wf = true) : (State.marchClears s).wf = true := by
  unfold State.marchClears
  dsimp only
  repeat' first
    | with_reducible assumption | with_reducible apply State.unsoil_wf

theorem State.marchRead_wf (s : State) (a : ℕ) (n : ℕ) (u : List Upset) (hs : s.wf = true)
    : (State.marchRead s a n u).wf = true := by
  unfold State.marchRead
  dsimp only
  repeat' first
    | with_reducible assumption | with_reducible apply State.noteWord_wf | with_reducible apply foldl_wf
    | with_reducible apply wfParts_memWrite | with_reducible apply wfParts_memPutWord
    | with_reducible apply wfParts_memZero | with_reducible apply wfParts_nvmWrite
    | with_reducible apply wfParts_nvmZero | split | simp only [wf_lit] | with_reducible apply wf_parts
    | with_reducible refine wf_fst_eq ‹_ = _› ?_ | intro _

theorem State.marchFails_wf (s : State) (fails : List ℕ) (hs : s.wf = true)
    : (State.marchFails s fails).wf = true := by
  unfold State.marchFails
  dsimp only
  repeat' first
    | with_reducible assumption | with_reducible apply State.setO_wf | with_reducible apply foldl_wf
    | with_reducible apply wfParts_memWrite | with_reducible apply wfParts_memPutWord
    | with_reducible apply wfParts_memZero | with_reducible apply wfParts_nvmWrite
    | with_reducible apply wfParts_nvmZero | split | simp only [wf_lit] | with_reducible apply wf_parts

theorem fillSpm_wf (m : Memory) (a n : ℕ) (b : Byte) (h : m.wf = true) : (fillSpm m a n b).wf = true := by
  unfold fillSpm
  split
  · exact memZero_wf _ _ h
  · exact memWrite_wf _ _ h

theorem State.marchStopped_wf (s : State) (hs : s.wf = true) : s.marchStopped.wf = true := by
  have hm := wf_spm_part hs
  unfold State.marchStopped
  extract_lets m a n k zero
  have hz : zero.wf = true := memZero_wf _ _ hm
  clear_value zero
  split <;> first | exact hz | exact memZero_wf _ _ hm | exact fillSpm_wf _ _ _ _ hz

theorem State.marchEffect_wf (s : State) (v : ℕ) (hs : s.wf = true) : (State.marchEffect s v).wf = true := by
  unfold State.marchEffect
  refine ite_wf hs (ite_wf (State.setO_wf _ _ _ (ite_wf (wf_spm s hs (State.marchStopped_wf s hs) rfl rfl rfl) hs)) ?_)
  exact State.marchFails_wf _ _ (State.setO_wf _ _ _ (wf_of s hs rfl rfl rfl rfl))

theorem State.marchDone_wf (s : State) (fails : List ℕ) (u : List Upset) (hs : s.wf = true)
    : (State.marchDone s fails u).wf = true := by
  unfold State.marchDone
  refine ite_wf ?_ hs
  have hm : ∀ t : State, t.wf = true → ((t.marchFails fails).setO Obj.SPM_MARCH_STATE (if fails.isEmpty then 2 else 3)).wf = true :=
    fun t ht => State.setO_wf _ _ _ (State.marchFails_wf _ _ ht)
  refine hm _ (ite_wf ?_ (State.marchRead_wf _ _ _ _ hs))
  exact wf_spm (s.unsoil s.memUnit.march.start s.memUnit.march.len) (State.unsoil_wf _ _ _ hs) (memZero_wf _ _ (wf_spm_part hs)) rfl rfl rfl

theorem State.scrubEffect_wf (s : State) (v : ℕ) (hs : s.wf = true) : (State.scrubEffect s v).wf = true := by
  unfold State.scrubEffect
  dsimp only
  repeat' first
    | with_reducible assumption | with_reducible apply State.setO_wf | with_reducible apply foldl_wf | split

theorem State.scrubTo_wf (s : State) (hi : ℕ) (u : List Upset) (hs : s.wf = true)
    : (State.scrubTo s hi u).1.wf = true := by
  unfold State.scrubTo
  dsimp only
  repeat' first
    | with_reducible assumption | with_reducible apply State.bumpBy_wf | with_reducible apply State.passOver_wf
    | with_reducible apply State.setO_wf

theorem State.scrubHalt_wf (s : State) (addr : ℕ) (u : List Upset) (hs : s.wf = true)
    : (State.scrubHalt s addr u).wf = true := by
  unfold State.scrubHalt
  dsimp only
  repeat' first
    | with_reducible assumption | with_reducible apply State.scrubTo_wf | with_reducible apply State.bump_wf
    | with_reducible apply State.setO_wf | with_reducible apply State.settle_wf | with_reducible apply foldl_wf
    | split

theorem State.scrubDone_wf (s : State) (u : List Upset) (hs : s.wf = true) : (State.scrubDone s u).wf = true := by
  unfold State.scrubDone
  dsimp only
  repeat' first
    | with_reducible assumption | with_reducible apply State.scrubTo_wf | with_reducible apply State.bump_wf
    | with_reducible apply State.setO_wf | with_reducible apply State.settle_wf | with_reducible apply foldl_wf
    | split

theorem State.scrubStop_wf (s : State) (next : ℕ) (u : List Upset) (hs : s.wf = true)
    : (State.scrubStop s next u).wf = true := by
  unfold State.scrubStop
  repeat' first
    | with_reducible assumption | with_reducible apply State.scrubTo_wf | with_reducible apply foldl_wf | split

theorem State.fwBad_wf (s : State) (a : ℕ) (err : ℕ) (hs : s.wf = true) : (State.fwBad s a err).wf = true := by
  unfold State.fwBad
  exact State.ariseOnce_wf _ _ (State.stage_wf _ _ _ _ _ (State.bump_wf _ _ (wf_fw s hs (memPutWord_wf _ _ _ (wf_fw_part hs)) rfl rfl rfl rfl)))

/-! ### Life -/

theorem State.lifeWrite_wf (s : State) (code : ℕ) (cls : ℕ) (unit : ℕ) (lseq : ℕ) (xc : ℕ) (data : List Byte)
    (hs : s.wf = true)
    : (State.lifeWrite s code cls unit lseq xc data).wf = true := by
  unfold State.lifeWrite
  dsimp only
  repeat' first
    | with_reducible assumption | with_reducible apply State.bump_wf | with_reducible apply State.setO_wf
    | with_reducible apply State.nvWrite_wf

theorem State.lifeOnly_wf (s : State) (code : ℕ) (unit : ℕ) (data : List Byte) (hs : s.wf = true)
    : (State.lifeOnly s code unit data).wf = true := by
  unfold State.lifeOnly
  repeat' first
    | with_reducible assumption | with_reducible apply State.lifeWrite_wf | with_reducible apply State.drawn_wf

theorem State.lifeScan_wf (s : State) (hs : s.wf = true) : (State.lifeScan s).wf = true := by
  unfold State.lifeScan
  dsimp only
  repeat' first
    | with_reducible assumption | with_reducible apply State.setO_wf | with_reducible apply foldl_wf
    | with_reducible apply wfParts_memWrite | with_reducible apply wfParts_memPutWord
    | with_reducible apply wfParts_memZero | with_reducible apply wfParts_nvmWrite
    | with_reducible apply wfParts_nvmZero | split | simp only [wf_lit] | with_reducible apply wf_parts

theorem State.hourTick_wf (s : State) (hs : s.wf = true) : (State.hourTick s).wf = true := by
  unfold State.hourTick
  dsimp only
  repeat' first
    | with_reducible assumption | with_reducible apply State.bump_wf | with_reducible apply foldl_wf
    | with_reducible apply wfParts_memWrite | with_reducible apply wfParts_memPutWord
    | with_reducible apply wfParts_memZero | with_reducible apply wfParts_nvmWrite
    | with_reducible apply wfParts_nvmZero | split | simp only [wf_lit] | with_reducible apply wf_parts

theorem State.lifeHours_wf (s : State) (hs : s.wf = true) : (State.lifeHours s).wf = true := by
  unfold State.lifeHours
  dsimp only
  repeat' first
    | with_reducible assumption | with_reducible apply State.setO_wf | with_reducible apply State.lifeOnly_wf
    | with_reducible apply foldl_wf | with_reducible apply wfParts_memWrite | with_reducible apply wfParts_memPutWord
    | with_reducible apply wfParts_memZero | with_reducible apply wfParts_nvmWrite
    | with_reducible apply wfParts_nvmZero | split | simp only [wf_lit] | with_reducible apply wf_parts

/-! ### Reset -/

theorem State.pcycAssert_wf (s : State) (cause : ℕ) (func : ℕ) (hs : s.wf = true)
    : (State.pcycAssert s cause func).wf = true := by
  unfold State.pcycAssert
  dsimp only
  repeat' first
    | with_reducible assumption | with_reducible apply State.stage_wf | with_reducible apply State.setO_wf
    | with_reducible apply State.ariseIf_wf

theorem State.pcycRelease_wf (s : State) (hs : s.wf = true) : (State.pcycRelease s).wf = true := by
  unfold State.pcycRelease
  repeat' first
    | with_reducible assumption | with_reducible apply State.ceases_wf | with_reducible apply State.refreshFaultN_wf
    | with_reducible apply State.setO_wf

theorem State.cold_wf (s : State) (hs : s.wf = true) : (State.cold s).wf = true := by
  unfold State.cold
  extract_lets a nv r
  have hr : r.wf = true := wf_nvm State.reset State.reset_wf (wf_nvm_part (s := s) hs) rfl rfl rfl
  exact State.lifeScan_wf _ (foldl_wf hr fun t k ht => State.setO_wf _ _ _ ht)

theorem State.standing_wf (s : State) (hs : s.wf = true) : (State.standing s).wf = true := by
  unfold State.standing
  dsimp only
  repeat' first
    | with_reducible assumption | with_reducible apply State.ariseIf_wf | with_reducible apply foldl_wf | split

theorem State.deviceReset_wf (s : State) (cause : ℕ) (hs : s.wf = true) : (State.deviceReset s cause).wf = true := by
  unfold State.deviceReset
  repeat' first
    | with_reducible assumption | with_reducible apply State.bump_wf | with_reducible apply State.standing_wf
    | with_reducible apply State.setO_wf | with_reducible apply State.cold_wf

theorem State.freezeBy_wf (s : State) (x1 : FreezeSource) (hs : s.wf = true) : (State.freezeBy s x1).wf = true := by
  unfold State.freezeBy
  dsimp only
  repeat' first
    | with_reducible assumption | with_reducible apply State.bump_wf | with_reducible apply foldl_wf
    | with_reducible apply wfParts_memWrite | with_reducible apply wfParts_memPutWord
    | with_reducible apply wfParts_memZero | with_reducible apply wfParts_nvmWrite
    | with_reducible apply wfParts_nvmZero | split | simp only [wf_lit] | with_reducible apply wf_parts

theorem State.ballAt_wf (s : State) (b : Bool) (hs : s.wf = true) : (State.ballAt s b).wf = true := by
  unfold State.ballAt
  dsimp only
  repeat' first
    | with_reducible assumption | with_reducible apply foldl_wf | with_reducible apply wfParts_memWrite
    | with_reducible apply wfParts_memPutWord | with_reducible apply wfParts_memZero
    | with_reducible apply wfParts_nvmWrite | with_reducible apply wfParts_nvmZero | split | simp only [wf_lit]
    | with_reducible apply wf_parts

theorem State.freezeBall_wf (s : State) (hs : s.wf = true) : (State.freezeBall s).wf = true := by
  unfold State.freezeBall
  repeat' first
    | with_reducible assumption | with_reducible apply State.freezeBy_wf | with_reducible apply foldl_wf | split

theorem State.northCheck_wf (s : State) (hs : s.wf = true) : (State.northCheck s).wf = true := by
  unfold State.northCheck
  repeat' first
    | with_reducible assumption | with_reducible apply State.stage_wf | with_reducible apply State.settle_wf
    | with_reducible apply State.ariseIf_wf | with_reducible apply foldl_wf | split

theorem State.enterRun_wf (s : State) (hs : s.wf = true) : (State.enterRun s).wf = true := by
  unfold State.enterRun
  repeat' first
    | with_reducible assumption | with_reducible apply State.northCheck_wf | with_reducible apply State.setO_wf
    | with_reducible apply State.settle_wf

theorem State.resumeService_wf (s : State) (hs : s.wf = true) : (State.resumeService s).wf = true := by
  unfold State.resumeService
  dsimp only
  repeat' first
    | with_reducible assumption | with_reducible apply State.calStart_wf | with_reducible apply State.asmResume_wf
    | with_reducible apply State.lbResume_wf | with_reducible apply State.enterRun_wf | with_reducible apply foldl_wf
    | with_reducible apply wfParts_memWrite | with_reducible apply wfParts_memPutWord
    | with_reducible apply wfParts_memZero | with_reducible apply wfParts_nvmWrite
    | with_reducible apply wfParts_nvmZero | split | simp only [wf_lit] | with_reducible apply wf_parts

/-! ### Clock -/

theorem State.takeStraps_wf (s : State) (v : ℕ) (hs : s.wf = true) : (State.takeStraps s v).wf = true := by
  unfold State.takeStraps
  dsimp only
  repeat' first
    | with_reducible assumption | with_reducible apply State.setO_wf

theorem State.intoscReady_wf (s : State) (straps : ℕ) (us : ℕ) (hs : s.wf = true)
    : (State.intoscReady s straps us).wf = true := by
  unfold State.intoscReady
  dsimp only
  repeat' first
    | with_reducible assumption | with_reducible apply State.freezeBall_wf | with_reducible apply State.setOb_wf
    | with_reducible apply State.takeStraps_wf | with_reducible apply State.setO_wf | with_reducible apply foldl_wf
    | with_reducible apply wfParts_memWrite | with_reducible apply wfParts_memPutWord
    | with_reducible apply wfParts_memZero | with_reducible apply wfParts_nvmWrite
    | with_reducible apply wfParts_nvmZero | split | simp only [wf_lit] | with_reducible apply wf_parts

theorem State.noClock_wf (s : State) (hs : s.wf = true) : (State.noClock s).wf = true := by
  unfold State.noClock
  repeat' first
    | with_reducible assumption | with_reducible apply State.standing_wf | with_reducible apply State.setO_wf
    | with_reducible apply State.pcycAssert_wf | with_reducible apply State.cold_wf

theorem State.intoscFault_wf (s : State) (count : ℕ) (hs : s.wf = true) : (State.intoscFault s count).wf = true := by
  unfold State.intoscFault
  dsimp only
  repeat' first
    | with_reducible assumption | with_reducible apply State.bump_wf | with_reducible apply State.stage_wf
    | with_reducible apply State.ariseIf_wf | with_reducible apply State.noClock_wf
    | with_reducible apply State.capture_wf | with_reducible apply foldl_wf | with_reducible apply wfParts_memWrite
    | with_reducible apply wfParts_memPutWord | with_reducible apply wfParts_memZero
    | with_reducible apply wfParts_nvmWrite | with_reducible apply wfParts_nvmZero | split | simp only [wf_lit]
    | with_reducible apply wf_parts

theorem State.intoscGood_wf (s : State) (hs : s.wf = true) : (State.intoscGood s).wf = true := by
  unfold State.intoscGood
  dsimp only
  repeat' first
    | with_reducible assumption | with_reducible apply State.ceases_wf | with_reducible apply State.deviceReset_wf
    | with_reducible apply foldl_wf | with_reducible apply wfParts_memWrite | with_reducible apply wfParts_memPutWord
    | with_reducible apply wfParts_memZero | with_reducible apply wfParts_nvmWrite
    | with_reducible apply wfParts_nvmZero | split | simp only [wf_lit] | with_reducible apply wf_parts

theorem State.plinthCount_wf (s : State) (n : ℕ) (hs : s.wf = true) : (State.plinthCount s n).wf = true := by
  unfold State.plinthCount
  dsimp only
  repeat' first
    | with_reducible assumption | with_reducible apply State.intoscFault_wf | with_reducible apply State.intoscGood_wf
    | with_reducible apply foldl_wf | with_reducible apply wfParts_memWrite | with_reducible apply wfParts_memPutWord
    | with_reducible apply wfParts_memZero | with_reducible apply wfParts_nvmWrite
    | with_reducible apply wfParts_nvmZero | split | simp only [wf_lit] | with_reducible apply wf_parts

theorem State.bootRestart_wf (s : State) (hs : s.wf = true) : (State.bootRestart s).wf = true := by
  unfold State.bootRestart
  dsimp only
  repeat' first
    | with_reducible assumption | with_reducible apply State.setOb_wf | with_reducible apply State.setO_wf
    | with_reducible apply foldl_wf | split | simp only [wf_lit] | with_reducible apply wf_parts
    | with_reducible refine wf_fst_eq ‹_ = _› ?_ | intro _

theorem State.holdUnits_wf (s : State) (hs : s.wf = true) : (State.holdUnits s).wf = true := by
  unfold State.holdUnits
  dsimp only
  repeat' first
    | with_reducible assumption | with_reducible apply State.lbHold_wf | with_reducible apply State.prbHold_wf
    | with_reducible apply State.alignHold_wf | with_reducible apply State.tdcDiscard_wf
    | with_reducible apply State.tdcHold_wf | with_reducible apply State.rmHold_wf
    | with_reducible apply State.asmHold_wf | with_reducible apply foldl_wf | with_reducible apply wfParts_memWrite
    | with_reducible apply wfParts_memPutWord | with_reducible apply wfParts_memZero
    | with_reducible apply wfParts_nvmWrite | with_reducible apply wfParts_nvmZero | split | simp only [wf_lit]
    | with_reducible apply wf_parts

theorem State.ckinFail_wf (s : State) (cause : ℕ) (hs : s.wf = true) : (State.ckinFail s cause).wf = true := by
  unfold State.ckinFail
  dsimp only
  repeat' first
    | with_reducible assumption | with_reducible apply State.bootRestart_wf | with_reducible apply State.bump_wf
    | with_reducible apply State.holdUnits_wf | with_reducible apply State.stage_wf
    | with_reducible apply State.setO_wf | with_reducible apply State.ariseIf_wf
    | with_reducible apply State.follow_wf | with_reducible apply State.ntHoldover_wf
    | with_reducible apply State.noClock_wf | with_reducible apply State.capture_wf | with_reducible apply foldl_wf
    | with_reducible apply wfParts_memWrite | with_reducible apply wfParts_memPutWord
    | with_reducible apply wfParts_memZero | with_reducible apply wfParts_nvmWrite
    | with_reducible apply wfParts_nvmZero | split | simp only [wf_lit] | with_reducible apply wf_parts

theorem State.setNref_wf (s : State) (r : ℕ) (hs : s.wf = true) : (State.setNref s r).wf = true := by
  unfold State.setNref
  repeat' first
    | with_reducible assumption | with_reducible apply State.setO_wf

theorem State.ckinAccept_wf (s : State) (counts : List ℕ) (hs : s.wf = true)
    : (State.ckinAccept s counts).wf = true := by
  unfold State.ckinAccept
  dsimp only
  repeat' first
    | with_reducible assumption | with_reducible apply State.ceases_wf | with_reducible apply State.refreshFaultN_wf
    | with_reducible apply State.stage_wf | with_reducible apply State.setO_wf | with_reducible apply State.setNref_wf
    | with_reducible apply State.capture_wf | with_reducible apply foldl_wf | with_reducible apply wfParts_memWrite
    | with_reducible apply wfParts_memPutWord | with_reducible apply wfParts_memZero
    | with_reducible apply wfParts_nvmWrite | with_reducible apply wfParts_nvmZero | split | simp only [wf_lit]
    | with_reducible apply wf_parts

theorem State.qualify_wf (s : State) (n : ℕ) (hs : s.wf = true) : (State.qualify s n).wf = true := by
  unfold State.qualify
  dsimp only
  repeat' first
    | with_reducible assumption | with_reducible apply State.bump_wf | with_reducible apply State.ckinAccept_wf
    | with_reducible apply foldl_wf | with_reducible apply wfParts_memWrite | with_reducible apply wfParts_memPutWord
    | with_reducible apply wfParts_memZero | with_reducible apply wfParts_nvmWrite
    | with_reducible apply wfParts_nvmZero | split | simp only [wf_lit] | with_reducible apply wf_parts

theorem State.track_wf (s : State) (n : ℕ) (hs : s.wf = true) : (State.track s n).wf = true := by
  unfold State.track
  dsimp only
  repeat' first
    | with_reducible assumption | with_reducible apply State.ckinFail_wf | with_reducible apply State.setNref_wf
    | with_reducible apply foldl_wf | split

theorem State.windowEnd_wf (s : State) (n : ℕ) (hs : s.wf = true) : (State.windowEnd s n).wf = true := by
  unfold State.windowEnd
  dsimp only
  repeat' first
    | with_reducible assumption | with_reducible apply State.setO_wf | with_reducible apply State.qualify_wf
    | with_reducible apply State.track_wf | with_reducible apply foldl_wf | split

theorem State.missingEdges_wf (s : State) (hs : s.wf = true) : (State.missingEdges s).wf = true := by
  unfold State.missingEdges
  repeat' first
    | with_reducible assumption | with_reducible apply State.ckinFail_wf | with_reducible apply foldl_wf | split

theorem State.pllLoss_wf (s : State) (core : Bool) (hs : s.wf = true) : (State.pllLoss s core).wf = true := by
  unfold State.pllLoss
  repeat' first
    | with_reducible assumption | with_reducible apply State.ckinFail_wf | with_reducible apply foldl_wf | split

theorem State.relockTimeout_wf (s : State) (hs : s.wf = true) : (State.relockTimeout s).wf = true := by
  unfold State.relockTimeout
  repeat' first
    | with_reducible assumption | with_reducible apply State.ckinFail_wf | with_reducible apply foldl_wf | split

theorem State.bootCal_wf (s : State) (hs : s.wf = true) : (State.bootCal s).wf = true := by
  unfold State.bootCal
  repeat' first
    | with_reducible assumption | with_reducible apply State.setO_wf | with_reducible apply foldl_wf | split

theorem State.startTrain_wf (s : State) (hs : s.wf = true) : (State.startTrain s).wf = true := by
  unfold State.startTrain
  repeat' first
    | with_reducible assumption | with_reducible apply State.setO_wf | with_reducible apply foldl_wf | split
    | simp only [wf_lit] | with_reducible apply wf_parts | with_reducible refine wf_fst_eq ‹_ = _› ?_ | intro _

theorem State.pllLocked_wf (s : State) (us : ℕ) (hs : s.wf = true) : (State.pllLocked s us).wf = true := by
  unfold State.pllLocked
  dsimp only
  repeat' first
    | with_reducible assumption | with_reducible apply State.setOb_wf | with_reducible apply State.bootCal_wf
    | with_reducible apply State.setO_wf | with_reducible apply State.follow_wf
    | with_reducible apply State.startTrain_wf | with_reducible apply foldl_wf | with_reducible apply wfParts_memWrite
    | with_reducible apply wfParts_memPutWord | with_reducible apply wfParts_memZero
    | with_reducible apply wfParts_nvmWrite | with_reducible apply wfParts_nvmZero | split | simp only [wf_lit]
    | with_reducible apply wf_parts

theorem State.noteRefused_wf (s : State) (l : List ℕ) (hs : s.wf = true) : (State.noteRefused s l).wf = true := by
  unfold State.noteRefused
  dsimp only
  repeat' first
    | with_reducible assumption | with_reducible apply State.bumpBy_wf | with_reducible apply State.setO_wf
    | with_reducible apply foldl_wf | split

theorem State.gateEffect_wf (s : State) (v : ℕ) (hs : s.wf = true) : (State.gateEffect s v).wf = true := by
  unfold State.gateEffect
  repeat' first
    | with_reducible assumption | with_reducible apply State.setO_wf

theorem State.gateWrite_wf (s : State) (q : Req) (v : ℕ) (hs : s.wf = true) : (State.gateWrite s q v).wf = true := by
  unfold State.gateWrite
  dsimp only
  repeat' first
    | with_reducible assumption | with_reducible apply State.noteRefused_wf | with_reducible apply State.respWrite_wf
    | with_reducible apply State.pendLive_wf | with_reducible apply foldl_wf | split

end Sys2Proof.Machine
end

