-- ==== Sys2Proof/Laws/WfService.lean ====
section
/-! SUPPORT. The canonical form of the stored data: what each operation keeps, under
housekeeping, Cufel, CAN, faults, the NVM and the dictionary. -/
namespace Sys2Proof.Machine

set_option Elab.async false

/-! ### Housekeeping -/

theorem State.hkEntryEffect_wf (s : State) (m : ℕ) (v : ℕ) (hs : s.wf = true)
    : (State.hkEntryEffect s m v).wf = true := by
  unfold State.hkEntryEffect
  repeat' first
    | with_reducible assumption | with_reducible apply State.setO_wf

theorem State.hkBegin_wf (s : State) (m : ℕ) (hs : s.wf = true) : (State.hkBegin s m).wf = true := by
  unfold State.hkBegin
  dsimp only
  repeat' first
    | with_reducible assumption | with_reducible apply State.setO_wf | with_reducible apply foldl_wf
    | with_reducible apply wfParts_memWrite | with_reducible apply wfParts_memPutWord
    | with_reducible apply wfParts_memZero | with_reducible apply wfParts_nvmWrite
    | with_reducible apply wfParts_nvmZero | split | simp only [wf_lit] | with_reducible apply wf_parts

theorem State.hkStill_wf (s : State) (hs : s.wf = true) : (State.hkStill s).wf = true := by
  unfold State.hkStill
  dsimp only
  repeat' first
    | with_reducible assumption | with_reducible apply foldl_wf | with_reducible apply wfParts_memWrite
    | with_reducible apply wfParts_memPutWord | with_reducible apply wfParts_memZero
    | with_reducible apply wfParts_nvmWrite | with_reducible apply wfParts_nvmZero | split | simp only [wf_lit]
    | with_reducible apply wf_parts

theorem State.hkSeek_wf (x0 : ℕ) (x1 : State) (x2 : ℕ) (hx1 : x1.wf = true)
    : (State.hkSeek x0 x1 x2).1.wf = true := by
  induction x0 generalizing x1 x2 with
  | zero => exact hx1
  | succ n ih =>
    unfold State.hkSeek
    split
    · exact hx1
    · split
      · exact ih _ _ hx1
      · split
        · exact hx1
        · exact ih _ _ (State.bump_wf _ _ hx1)

theorem State.hkRun_wf (x0 : ℕ) (x1 : State) (x2 : ℕ) (hx1 : x1.wf = true) : (State.hkRun x0 x1 x2).wf = true := by
  induction x0 generalizing x1 x2 with
  | zero => exact hx1
  | succ n ih =>
    unfold State.hkRun
    extract_lets t
    have ht : t.wf = true := State.setO_wf _ _ _ hx1
    have hk := State.hkSeek_wf 32 t x2 ht
    split
    · exact State.hkBegin_wf _ _ (wf_fst_eq ‹_ = _› hk)
    · have hb := State.bump_wf _ Obj.HK_PASSES (wf_fst_eq ‹_ = _› hk)
      refine ite_wf (ite_wf ?_ (ih _ _ hb)) (ite_wf (ih _ _ (State.setO_wf _ _ _ hb)) (State.hkStill_wf _ (State.setO_wf _ _ _ hb)))
      exact State.hkStill_wf _ (State.drawn_wf _ (State.setO_wf _ _ _ hb))

theorem State.hkPass_wf (s : State) (hs : s.wf = true) : (State.hkPass s).wf = true := by
  unfold State.hkPass
  repeat' first
    | with_reducible assumption | with_reducible apply State.hkRun_wf

theorem State.hkAbandon_wf (s : State) (hs : s.wf = true) : (State.hkAbandon s).wf = true := by
  unfold State.hkAbandon
  repeat' first
    | with_reducible assumption | with_reducible apply State.bump_wf | with_reducible apply State.hkStill_wf
    | with_reducible apply foldl_wf | split

theorem State.hkStart_wf (s : State) (hs : s.wf = true) : (State.hkStart s).wf = true := by
  unfold State.hkStart
  repeat' first
    | with_reducible assumption | with_reducible apply State.bump_wf | with_reducible apply State.hkPass_wf
    | with_reducible apply State.ungate_wf | with_reducible apply State.setO_wf | with_reducible apply foldl_wf
    | split

theorem State.hkSwap_wf (s : State) (hs : s.wf = true) : (State.hkSwap s).wf = true := by
  unfold State.hkSwap
  dsimp only
  repeat' first
    | with_reducible assumption | with_reducible apply State.bump_wf | with_reducible apply State.setO_wf
    | with_reducible apply foldl_wf | with_reducible apply wfParts_memWrite | with_reducible apply wfParts_memPutWord
    | with_reducible apply wfParts_memZero | with_reducible apply wfParts_nvmWrite
    | with_reducible apply wfParts_nvmZero | split | simp only [wf_lit] | with_reducible apply wf_parts

theorem State.hkStop_wf (s : State) (hs : s.wf = true) : (State.hkStop s).wf = true := by
  unfold State.hkStop
  dsimp only
  repeat' first
    | with_reducible assumption | with_reducible apply State.hkAbandon_wf | with_reducible apply State.hkSwap_wf
    | with_reducible apply State.setO_wf | with_reducible apply State.hkStill_wf | with_reducible apply foldl_wf
    | with_reducible apply wfParts_memWrite | with_reducible apply wfParts_memPutWord
    | with_reducible apply wfParts_memZero | with_reducible apply wfParts_nvmWrite
    | with_reducible apply wfParts_nvmZero | split | simp only [wf_lit] | with_reducible apply wf_parts

theorem State.hkUrgentStart_wf (s : State) (hs : s.wf = true) : (State.hkUrgentStart s).wf = true := by
  unfold State.hkUrgentStart
  dsimp only
  repeat' first
    | with_reducible assumption | with_reducible apply State.hkAbandon_wf | with_reducible apply State.ungate_wf
    | with_reducible apply State.setO_wf | with_reducible apply State.hkBegin_wf | with_reducible apply foldl_wf
    | with_reducible apply wfParts_memWrite | with_reducible apply wfParts_memPutWord
    | with_reducible apply wfParts_memZero | with_reducible apply wfParts_nvmWrite
    | with_reducible apply wfParts_nvmZero | split | simp only [wf_lit] | with_reducible apply wf_parts

theorem State.hkCtrlEffect_wf (s : State) (v : ℕ) (hs : s.wf = true) : (State.hkCtrlEffect s v).wf = true := by
  unfold State.hkCtrlEffect
  repeat' first
    | with_reducible assumption | with_reducible apply State.hkUrgentStart_wf | with_reducible apply State.hkStop_wf
    | with_reducible apply State.hkStart_wf | with_reducible apply foldl_wf | split

theorem State.hkMarkRead_wf (s : State) (hs : s.wf = true) : (State.hkMarkRead s).wf = true := by
  unfold State.hkMarkRead
  dsimp only
  repeat' first
    | with_reducible assumption | with_reducible apply foldl_wf | with_reducible apply wfParts_memWrite
    | with_reducible apply wfParts_memPutWord | with_reducible apply wfParts_memZero
    | with_reducible apply wfParts_nvmWrite | with_reducible apply wfParts_nvmZero | split | simp only [wf_lit]
    | with_reducible apply wf_parts

theorem State.hkWrite_wf (s : State) (w : ℕ) (hs : s.wf = true) : (State.hkWrite s w).wf = true := by
  unfold State.hkWrite
  dsimp only
  repeat' first
    | with_reducible assumption | with_reducible apply State.bump_wf | with_reducible apply State.recordEvent_wf
    | with_reducible apply State.setO_wf | with_reducible apply State.hkMarkRead_wf
    | with_reducible apply State.wrapBy_wf | with_reducible apply foldl_wf | with_reducible apply wfParts_memWrite
    | with_reducible apply wfParts_memPutWord | with_reducible apply wfParts_memZero
    | with_reducible apply wfParts_nvmWrite | with_reducible apply wfParts_nvmZero | split | simp only [wf_lit]
    | with_reducible apply wf_parts

theorem State.hkMoveRange_wf (s : State) (m : ℕ) (code : ℤ) (stuck : Bool) (hs : s.wf = true)
    : (State.hkMoveRange s m code stuck).wf = true := by
  unfold State.hkMoveRange
  dsimp only
  repeat' first
    | with_reducible assumption | with_reducible apply State.setO_wf | with_reducible apply foldl_wf | split

theorem State.hkNext_wf (s : State) (m : ℕ) (hs : s.wf = true) : (State.hkNext s m).wf = true := by
  unfold State.hkNext
  dsimp only
  repeat' first
    | with_reducible assumption | with_reducible apply State.hkRun_wf | with_reducible apply State.hkPass_wf
    | with_reducible apply State.hkSwap_wf | with_reducible apply State.setO_wf
    | with_reducible apply State.hkStill_wf | with_reducible apply foldl_wf | with_reducible apply wfParts_memWrite
    | with_reducible apply wfParts_memPutWord | with_reducible apply wfParts_memZero
    | with_reducible apply wfParts_nvmWrite | with_reducible apply wfParts_nvmZero | split | simp only [wf_lit]
    | with_reducible apply wf_parts

theorem State.hkEnd_wf (s : State) (m : ℕ) (raw1 : ℤ) (raw2 : ℤ) (refLow : Bool) (fb : Bool) (hs : s.wf = true)
    : (State.hkEnd s m raw1 raw2 refLow fb).wf = true := by
  unfold State.hkEnd
  dsimp only
  repeat' first
    | with_reducible assumption | with_reducible apply State.bump_wf | with_reducible apply State.hkNext_wf
    | with_reducible apply State.hkWrite_wf | with_reducible apply State.hkMoveRange_wf
    | with_reducible apply State.drawn_wf | with_reducible apply foldl_wf | with_reducible apply wfParts_memWrite
    | with_reducible apply wfParts_memPutWord | with_reducible apply wfParts_memZero
    | with_reducible apply wfParts_nvmWrite | with_reducible apply wfParts_nvmZero | split | simp only [wf_lit]
    | with_reducible apply wf_parts

theorem State.hkConsts_wf (s : State) (slice : ℕ) (raw : List (ℤ × ℤ)) (hs : s.wf = true)
    : ∀ t, State.hkConsts s slice raw = some t → t.wf = true := by
  unfold State.hkConsts
  split
  · extract_lets l
    exact wf_some_state (wf_of s hs rfl rfl rfl rfl)
  · exact wf_none_state

theorem State.hkSliceCal_wf (s : State) (n : ℕ) (raw : List (ℤ × ℤ)) (hs : s.wf = true)
    : (State.hkSliceCal s n raw).1.wf = true := by
  unfold State.hkSliceCal
  dsimp only
  repeat' first
    | with_reducible assumption | with_reducible apply State.bump_wf | with_reducible apply State.raiseFault_wf
    | with_reducible refine State.hkConsts_wf _ _ _ ?_ _ ‹_› | with_reducible apply foldl_wf
    | with_reducible apply wfParts_memWrite | with_reducible apply wfParts_memPutWord
    | with_reducible apply wfParts_memZero | with_reducible apply wfParts_nvmWrite
    | with_reducible apply wfParts_nvmZero | split | simp only [wf_lit] | with_reducible apply wf_parts

theorem State.hkRecal_wf (s : State) (n : ℕ) (rest : List ℕ) (raw : List (ℤ × ℤ)) (hs : s.wf = true)
    : (State.hkRecal s n rest raw).wf = true := by
  unfold State.hkRecal
  dsimp only
  repeat' first
    | with_reducible assumption | with_reducible apply State.hkSliceCal_wf | with_reducible apply State.hkStart_wf
    | with_reducible apply foldl_wf | with_reducible apply wfParts_memWrite | with_reducible apply wfParts_memPutWord
    | with_reducible apply wfParts_memZero | with_reducible apply wfParts_nvmWrite
    | with_reducible apply wfParts_nvmZero | split | simp only [wf_lit] | with_reducible apply wf_parts
    | with_reducible refine wf_fst_eq ‹_ = _› ?_

theorem State.hkCalDone_wf (s : State) (raw : List (ℤ × ℤ)) (hs : s.wf = true)
    : (State.hkCalDone s raw).wf = true := by
  unfold State.hkCalDone
  dsimp only
  repeat' first
    | with_reducible assumption | with_reducible apply State.hkRecal_wf | with_reducible apply State.hkSwap_wf
    | with_reducible apply State.hkSliceCal_wf | with_reducible apply foldl_wf | with_reducible apply wfParts_memWrite
    | with_reducible apply wfParts_memPutWord | with_reducible apply wfParts_memZero
    | with_reducible apply wfParts_nvmWrite | with_reducible apply wfParts_nvmZero | split | simp only [wf_lit]
    | with_reducible apply wf_parts | with_reducible refine wf_fst_eq ‹_ = _› ?_

/-! ### Cufel -/

theorem State.eventOut_wf (s : State) (p : Path) (e : Event) (rest : List Event) (hs : s.wf = true)
    : (State.eventOut s p e rest).wf = true := by
  unfold State.eventOut
  dsimp only
  repeat' first
    | with_reducible assumption | with_reducible apply State.send_wf | with_reducible apply foldl_wf
    | with_reducible apply wfParts_memWrite | with_reducible apply wfParts_memPutWord
    | with_reducible apply wfParts_memZero | with_reducible apply wfParts_nvmWrite
    | with_reducible apply wfParts_nvmZero | split | simp only [wf_lit] | with_reducible apply wf_parts

theorem State.beatOut_wf (s : State) (p : Path) (body : List Byte) (hs : s.wf = true)
    : (State.beatOut s p body).wf = true := by
  unfold State.beatOut
  dsimp only
  repeat' first
    | with_reducible assumption | with_reducible apply State.drawn_wf | with_reducible apply State.send_wf
    | with_reducible apply foldl_wf | with_reducible apply wfParts_memWrite | with_reducible apply wfParts_memPutWord
    | with_reducible apply wfParts_memZero | with_reducible apply wfParts_nvmWrite
    | with_reducible apply wfParts_nvmZero | split | simp only [wf_lit] | with_reducible apply wf_parts

theorem State.eventSend_wf (s : State) (hs : s.wf = true) : (State.eventSend s).wf = true := by
  unfold State.eventSend
  repeat' first
    | with_reducible assumption | with_reducible apply State.eventOut_wf | with_reducible apply State.beatOut_wf
    | with_reducible apply foldl_wf | split

theorem State.heartbeatSend_wf (s : State) (hs : s.wf = true) : (State.heartbeatSend s).wf = true := by
  unfold State.heartbeatSend
  dsimp only
  repeat' first
    | with_reducible assumption | with_reducible apply State.beatOut_wf | with_reducible apply foldl_wf
    | with_reducible apply wfParts_memWrite | with_reducible apply wfParts_memPutWord
    | with_reducible apply wfParts_memZero | with_reducible apply wfParts_nvmWrite
    | with_reducible apply wfParts_nvmZero | split | simp only [wf_lit] | with_reducible apply wf_parts

theorem State.relaySouth_wf (s : State) (k : ℕ) (b : List Byte) (hs : s.wf = true)
    : (State.relaySouth s k b).wf = true := by
  unfold State.relaySouth
  dsimp only
  repeat' first
    | with_reducible assumption | with_reducible apply State.bump_wf | with_reducible apply State.wrapBy_wf
    | with_reducible apply foldl_wf | with_reducible apply wfParts_memWrite | with_reducible apply wfParts_memPutWord
    | with_reducible apply wfParts_memZero | with_reducible apply wfParts_nvmWrite
    | with_reducible apply wfParts_nvmZero | split | simp only [wf_lit] | with_reducible apply wf_parts

theorem State.repeatResponse_wf (s : State) (p : Path) (e : AliveEntry) (tid : ℕ) (hs : s.wf = true)
    : (State.repeatResponse s p e tid).wf = true := by
  unfold State.repeatResponse
  dsimp only
  repeat' first
    | with_reducible assumption | with_reducible apply State.bump_wf | with_reducible apply State.keepSend_wf
    | with_reducible apply foldl_wf | split

theorem State.aliveAccept_wf (s : State) (p : Path) (src : ℕ) (alive : ℕ) (node : ℕ) (hs : s.wf = true)
    : (State.aliveAccept s p src alive node).wf = true := by
  unfold State.aliveAccept
  dsimp only
  repeat' first
    | with_reducible assumption | with_reducible apply State.bump_wf | with_reducible apply foldl_wf
    | with_reducible apply wfParts_memWrite | with_reducible apply wfParts_memPutWord
    | with_reducible apply wfParts_memZero | with_reducible apply wfParts_nvmWrite
    | with_reducible apply wfParts_nvmZero | split | simp only [wf_lit] | with_reducible apply wf_parts

theorem State.refuseMsg_wf (s : State) (p : Path) (m : Msg) (st : Status) (body : List Byte) (hs : s.wf = true)
    : (State.refuseMsg s p m st body).wf = true := by
  unfold State.refuseMsg
  dsimp only
  repeat' first
    | with_reducible assumption | with_reducible apply State.flushRefusals_wf | with_reducible apply foldl_wf
    | with_reducible apply wfParts_memWrite | with_reducible apply wfParts_memPutWord
    | with_reducible apply wfParts_memZero | with_reducible apply wfParts_nvmWrite
    | with_reducible apply wfParts_nvmZero | split | simp only [wf_lit] | with_reducible apply wf_parts

theorem State.cufelAccept_wf (s : State) (p : Path) (node : ℕ) (b : List Byte) (hs : s.wf = true)
    : (State.cufelAccept s p node b).wf = true := by
  unfold State.cufelAccept
  dsimp only
  repeat' first
    | with_reducible assumption | with_reducible apply State.bump_wf | with_reducible apply State.refuseMsg_wf
    | with_reducible apply State.repeatResponse_wf | with_reducible apply State.aliveAccept_wf
    | with_reducible apply foldl_wf | with_reducible apply wfParts_memWrite | with_reducible apply wfParts_memPutWord
    | with_reducible apply wfParts_memZero | with_reducible apply wfParts_nvmWrite
    | with_reducible apply wfParts_nvmZero | split | simp only [wf_lit] | with_reducible apply wf_parts

theorem State.cufelCheck_wf (s : State) (p : Path) (node : ℕ) (b : List Byte) (hs : s.wf = true)
    : (State.cufelCheck s p node b).wf = true := by
  unfold State.cufelCheck
  dsimp only
  repeat' first
    | with_reducible assumption | with_reducible apply State.bump_wf | with_reducible apply State.check_wf
    | with_reducible apply State.relaySouth_wf | with_reducible apply State.cufelAccept_wf
    | with_reducible apply foldl_wf | split

theorem State.cufelReceive_wf (s : State) (p : Path) (hs : s.wf = true) : (State.cufelReceive s p).wf = true := by
  unfold State.cufelReceive
  dsimp only
  repeat' first
    | with_reducible assumption | with_reducible apply State.cufelCheck_wf | with_reducible apply foldl_wf
    | with_reducible apply wfParts_memWrite | with_reducible apply wfParts_memPutWord
    | with_reducible apply wfParts_memZero | with_reducible apply wfParts_nvmWrite
    | with_reducible apply wfParts_nvmZero | split | simp only [wf_lit] | with_reducible apply wf_parts

theorem State.setChallenge_wf (s : State) (q : Req) (c : Challenge) (hs : s.wf = true)
    : (State.setChallenge s q c).wf = true := by
  unfold State.setChallenge
  dsimp only
  repeat' first
    | with_reducible assumption | with_reducible apply foldl_wf | with_reducible apply wfParts_memWrite
    | with_reducible apply wfParts_memPutWord | with_reducible apply wfParts_memZero
    | with_reducible apply wfParts_nvmWrite | with_reducible apply wfParts_nvmZero | split | simp only [wf_lit]
    | with_reducible apply wf_parts

theorem State.newChallenge_wf (s : State) (q : Req) (hs : s.wf = true) : (State.newChallenge s q).1.wf = true := by
  unfold State.newChallenge
  dsimp only
  repeat' first
    | with_reducible assumption | with_reducible apply State.setChallenge_wf | with_reducible apply State.drawn_wf

theorem State.tryKey_wf (s : State) (q : Req) (v : ℕ) (inTime : Bool) (hs : s.wf = true)
    : (State.tryKey s q v inTime).1.wf = true := by
  unfold State.tryKey
  dsimp only
  repeat' first
    | with_reducible assumption | with_reducible apply State.bump_wf | with_reducible apply State.setChallenge_wf
    | with_reducible apply foldl_wf | with_reducible apply wfParts_memWrite | with_reducible apply wfParts_memPutWord
    | with_reducible apply wfParts_memZero | with_reducible apply wfParts_nvmWrite
    | with_reducible apply wfParts_nvmZero | split | simp only [wf_lit] | with_reducible apply wf_parts

theorem State.unlock_wf (s : State) (q : Req) (v : ℕ) (inTime : Bool) (hs : s.wf = true)
    : (State.unlock s q v inTime).1.wf = true := by
  unfold State.unlock
  dsimp only
  repeat' first
    | with_reducible assumption | with_reducible apply State.tryKey_wf | with_reducible apply foldl_wf
    | with_reducible apply wfParts_memWrite | with_reducible apply wfParts_memPutWord
    | with_reducible apply wfParts_memZero | with_reducible apply wfParts_nvmWrite
    | with_reducible apply wfParts_nvmZero | split | simp only [wf_lit] | with_reducible apply wf_parts
    | with_reducible refine wf_fst_eq ‹_ = _› ?_

theorem State.endSession_wf (s : State) (p : Path) (src : ℕ) (hs : s.wf = true)
    : (State.endSession s p src).wf = true := by
  unfold State.endSession
  dsimp only
  repeat' first
    | with_reducible assumption | with_reducible apply foldl_wf | with_reducible apply wfParts_memWrite
    | with_reducible apply wfParts_memPutWord | with_reducible apply wfParts_memZero
    | with_reducible apply wfParts_nvmWrite | with_reducible apply wfParts_nvmZero | split | simp only [wf_lit]
    | with_reducible apply wf_parts

theorem State.unlockWrite_wf (s : State) (q : Req) (v : ℕ) (inTime : Bool) (hs : s.wf = true)
    : (State.unlockWrite s q v inTime).wf = true := by
  unfold State.unlockWrite
  dsimp only
  repeat' first
    | with_reducible assumption | with_reducible apply State.respWrite_wf | with_reducible apply State.unlock_wf

theorem State.lockWrite_wf (s : State) (q : Req) (v : ℕ) (hs : s.wf = true) : (State.lockWrite s q v).wf = true := by
  unfold State.lockWrite
  repeat' first
    | with_reducible assumption | with_reducible apply State.respWrite_wf | with_reducible apply State.endSession_wf
    | with_reducible apply foldl_wf | split

theorem State.challengeRead_wf (s : State) (q : Req) (hs : s.wf = true) : (State.challengeRead s q).wf = true := by
  unfold State.challengeRead
  dsimp only
  repeat' first
    | with_reducible assumption | with_reducible apply State.newChallenge_wf | with_reducible apply State.respRead_wf

theorem State.functionCmd_wf (s : State) (q : Req) (func : ℕ) (cmd : ℕ) (key : ℕ) (arg : ℕ) (expert : Bool)
    (keyed : Bool) (inTime : Bool) (check : State → Status) (effect : State → State × ℕ) (hs : s.wf = true)
    (heffect : ∀ t : State, t.wf = true → (effect t).1.wf = true)
    : (State.functionCmd s q func cmd key arg expert keyed inTime check effect).wf = true := by
  unfold State.functionCmd
  extract_lets answer r
  have ha : ∀ (t : State) (st : Status) (n : ℕ), t.wf = true → (answer t st n).wf = true :=
    fun t st n ht => State.respond_wf _ _ _ _ _ ht
  clear_value answer
  have hr : r.1.wf = true := by
    unfold r
    split
    · exact State.tryKey_wf _ _ _ _ hs
    · exact hs
  clear_value r
  refine ite_wf (ha _ _ _ hs) (ite_wf (ha _ _ _ hs) (ite_wf (ha _ _ _ hs) ?_))
  split
  · split
    · exact ha _ _ _ (heffect _ hr)
    · exact ha _ _ _ hr
  · exact ha _ _ _ hr

theorem State.clusterEffect_wf (s : State) (v : ℕ) (hs : s.wf = true) : (State.clusterEffect s v).wf = true := by
  unfold State.clusterEffect
  dsimp only
  repeat' first
    | with_reducible assumption | with_reducible apply State.setO_wf | with_reducible apply State.sendCaps_wf
    | with_reducible apply foldl_wf | with_reducible apply wfParts_memWrite | with_reducible apply wfParts_memPutWord
    | with_reducible apply wfParts_memZero | with_reducible apply wfParts_nvmWrite
    | with_reducible apply wfParts_nvmZero | split | simp only [wf_lit] | with_reducible apply wf_parts
    | with_reducible refine wf_fst_eq ‹_ = _› ?_ | intro _

/-! ### Can -/

theorem State.canPut_wf (s : State) (f : ℕ × List Byte) (hs : s.wf = true) : (State.canPut s f).wf = true := by
  unfold State.canPut
  dsimp only
  repeat' first
    | with_reducible assumption | with_reducible apply State.setO_wf | with_reducible apply State.wrapBy_wf
    | with_reducible apply foldl_wf | with_reducible apply wfParts_memWrite | with_reducible apply wfParts_memPutWord
    | with_reducible apply wfParts_memZero | with_reducible apply wfParts_nvmWrite
    | with_reducible apply wfParts_nvmZero | split | simp only [wf_lit] | with_reducible apply wf_parts

theorem State.canOut_wf (s : State) (l : List (ℕ × List Byte)) (hs : s.wf = true) : (State.canOut s l).wf = true := by
  unfold State.canOut
  repeat' first
    | with_reducible assumption | with_reducible apply State.canPut_wf | with_reducible apply foldl_wf

theorem State.canGoOff_wf (s : State) (hs : s.wf = true) : (State.canGoOff s).wf = true := by
  unfold State.canGoOff
  dsimp only
  repeat' first
    | with_reducible assumption | with_reducible apply State.bump_wf | with_reducible apply State.setO_wf
    | with_reducible apply State.noteEvent_wf | with_reducible apply State.drawn_wf | with_reducible apply foldl_wf
    | with_reducible apply wfParts_memWrite | with_reducible apply wfParts_memPutWord
    | with_reducible apply wfParts_memZero | with_reducible apply wfParts_nvmWrite
    | with_reducible apply wfParts_nvmZero | split | simp only [wf_lit] | with_reducible apply wf_parts

theorem State.canTxError_wf (s : State) (hs : s.wf = true) : (State.canTxError s).wf = true := by
  unfold State.canTxError
  repeat' first
    | with_reducible assumption | with_reducible apply State.canGoOff_wf | with_reducible apply State.setO_wf
    | with_reducible apply foldl_wf | split

theorem State.canRxGood_wf (s : State) (hs : s.wf = true) : (State.canRxGood s).wf = true := by
  unfold State.canRxGood
  repeat' first
    | with_reducible assumption | with_reducible apply State.setO_wf | with_reducible apply State.drawn_wf
    | with_reducible apply foldl_wf | split

theorem State.canMessage_wf (s : State) (m : Msg) (hs : s.wf = true) : (State.canMessage s m).wf = true := by
  unfold State.canMessage
  dsimp only
  repeat' first
    | with_reducible assumption | with_reducible apply State.check_wf | with_reducible apply State.canOut_wf
    | with_reducible apply foldl_wf | with_reducible apply wfParts_memWrite | with_reducible apply wfParts_memPutWord
    | with_reducible apply wfParts_memZero | with_reducible apply wfParts_nvmWrite
    | with_reducible apply wfParts_nvmZero | split | simp only [wf_lit] | with_reducible apply wf_parts

theorem State.canFlush_wf (s : State) (hs : s.wf = true) : (State.canFlush s).wf = true := by
  unfold State.canFlush
  dsimp only
  repeat' first
    | with_reducible assumption | with_reducible apply State.canMessage_wf | with_reducible apply foldl_wf
    | with_reducible apply wfParts_memWrite | with_reducible apply wfParts_memPutWord
    | with_reducible apply wfParts_memZero | with_reducible apply wfParts_nvmWrite
    | with_reducible apply wfParts_nvmZero | split | simp only [wf_lit] | with_reducible apply wf_parts

theorem State.canKeeperFrame_wf (s : State) (ftype : ℕ) (data : List Byte) (hs : s.wf = true)
    : (State.canKeeperFrame s ftype data).wf = true := by
  unfold State.canKeeperFrame
  repeat' first
    | with_reducible assumption | with_reducible apply State.canOut_wf

theorem State.canClaim_wf (s : State) (hs : s.wf = true) : (State.canClaim s).wf = true := by
  unfold State.canClaim
  dsimp only
  repeat' first
    | with_reducible assumption | with_reducible apply State.setO_wf | with_reducible apply foldl_wf
    | with_reducible apply wfParts_memWrite | with_reducible apply wfParts_memPutWord
    | with_reducible apply wfParts_memZero | with_reducible apply wfParts_nvmWrite
    | with_reducible apply wfParts_nvmZero | split | simp only [wf_lit] | with_reducible apply wf_parts

theorem State.canMember_wf (s : State) (hs : s.wf = true) : (State.canMember s).wf = true := by
  unfold State.canMember
  dsimp only
  repeat' first
    | with_reducible assumption | with_reducible apply State.setO_wf | with_reducible apply foldl_wf
    | with_reducible apply wfParts_memWrite | with_reducible apply wfParts_memPutWord
    | with_reducible apply wfParts_memZero | with_reducible apply wfParts_nvmWrite
    | with_reducible apply wfParts_nvmZero | split | simp only [wf_lit] | with_reducible apply wf_parts

theorem State.canClear_wf (s : State) (hs : s.wf = true) : (State.canClear s).wf = true := by
  unfold State.canClear
  dsimp only
  repeat' first
    | with_reducible assumption | with_reducible apply State.setO_wf | with_reducible apply foldl_wf
    | with_reducible apply wfParts_memWrite | with_reducible apply wfParts_memPutWord
    | with_reducible apply wfParts_memZero | with_reducible apply wfParts_nvmWrite
    | with_reducible apply wfParts_nvmZero | split | simp only [wf_lit] | with_reducible apply wf_parts

theorem State.canListen_wf (s : State) (hs : s.wf = true) : (State.canListen s).wf = true := by
  unfold State.canListen
  repeat' first
    | with_reducible assumption | with_reducible apply State.canClear_wf | with_reducible apply State.setO_wf

theorem State.canEnableEffect_wf (s : State) (v : ℕ) (hs : s.wf = true) : (State.canEnableEffect s v).wf = true := by
  unfold State.canEnableEffect
  dsimp only
  repeat' first
    | with_reducible assumption | with_reducible apply State.canListen_wf | with_reducible apply State.canClear_wf
    | with_reducible apply State.setO_wf | with_reducible apply foldl_wf | split

theorem State.addressConflict_wf (s : State) (hs : s.wf = true) : (State.addressConflict s).wf = true := by
  unfold State.addressConflict
  repeat' first
    | with_reducible assumption | with_reducible apply State.stage_wf | with_reducible apply State.ariseIf_wf

theorem State.keeperGone_wf (s : State) (hs : s.wf = true) : (State.keeperGone s).wf = true := by
  unfold State.keeperGone
  repeat' first
    | with_reducible assumption | with_reducible apply State.setO_wf | with_reducible apply foldl_wf | split

theorem State.canConflict_wf (s : State) (hs : s.wf = true) : (State.canConflict s).wf = true := by
  unfold State.canConflict
  repeat' first
    | with_reducible assumption | with_reducible apply State.keeperGone_wf
    | with_reducible apply State.addressConflict_wf | with_reducible apply State.setO_wf
    | with_reducible apply foldl_wf | split

theorem State.canTaken_wf (s : State) (agree : Bool) (hs : s.wf = true) : (State.canTaken s agree).wf = true := by
  unfold State.canTaken
  dsimp only
  repeat' first
    | with_reducible assumption | with_reducible apply State.setO_wf | with_reducible apply State.canRxGood_wf
    | with_reducible apply State.wrapBy_wf | with_reducible apply foldl_wf | with_reducible apply wfParts_memWrite
    | with_reducible apply wfParts_memPutWord | with_reducible apply wfParts_memZero
    | with_reducible apply wfParts_nvmWrite | with_reducible apply wfParts_nvmZero | split | simp only [wf_lit]
    | with_reducible apply wf_parts

theorem State.canHeard_wf (s : State) (node : ℕ) (agree : Bool) (hs : s.wf = true)
    : (State.canHeard s node agree).wf = true := by
  unfold State.canHeard
  dsimp only
  repeat' first
    | with_reducible assumption | with_reducible apply State.canTaken_wf | with_reducible apply foldl_wf
    | with_reducible apply wfParts_memWrite | with_reducible apply wfParts_memPutWord
    | with_reducible apply wfParts_memZero | with_reducible apply wfParts_nvmWrite
    | with_reducible apply wfParts_nvmZero | split | simp only [wf_lit] | with_reducible apply wf_parts

theorem State.keeperHb_wf (s : State) (hs : s.wf = true) : (State.keeperHb s).wf = true := by
  unfold State.keeperHb
  repeat' first
    | with_reducible assumption | with_reducible apply State.canKeeperFrame_wf

theorem State.claimIn_wf (s : State) (node : ℕ) (hs : s.wf = true) : (State.claimIn s node).wf = true := by
  unfold State.claimIn
  dsimp only
  repeat' first
    | with_reducible assumption | with_reducible apply State.canConflict_wf | with_reducible apply State.keeperGone_wf
    | with_reducible apply State.keeperHb_wf | with_reducible apply State.canMember_wf | with_reducible apply foldl_wf
    | split

theorem State.keeperIn_wf (s : State) (node : ℕ) (hs : s.wf = true) : (State.keeperIn s node).wf = true := by
  unfold State.keeperIn
  dsimp only
  repeat' first
    | with_reducible assumption | with_reducible apply State.canClaim_wf | with_reducible apply State.canConflict_wf
    | with_reducible apply State.setO_wf | with_reducible apply State.canMember_wf | with_reducible apply foldl_wf
    | with_reducible apply wfParts_memWrite | with_reducible apply wfParts_memPutWord
    | with_reducible apply wfParts_memZero | with_reducible apply wfParts_nvmWrite
    | with_reducible apply wfParts_nvmZero | split | simp only [wf_lit] | with_reducible apply wf_parts

theorem State.beaconIn_wf (s : State) (ms : ℕ) (hs : s.wf = true) : (State.beaconIn s ms).wf = true := by
  unfold State.beaconIn
  repeat' first
    | with_reducible assumption | with_reducible apply State.setO_wf

theorem State.dropReasm_wf (s : State) (node : ℕ) (hs : s.wf = true) : (State.dropReasm s node).wf = true := by
  unfold State.dropReasm
  dsimp only
  repeat' first
    | with_reducible assumption | with_reducible apply foldl_wf | with_reducible apply wfParts_memWrite
    | with_reducible apply wfParts_memPutWord | with_reducible apply wfParts_memZero
    | with_reducible apply wfParts_nvmWrite | with_reducible apply wfParts_nvmZero | split | simp only [wf_lit]
    | with_reducible apply wf_parts

theorem State.loseReasm_wf (s : State) (node : ℕ) (hs : s.wf = true) : (State.loseReasm s node).wf = true := by
  unfold State.loseReasm
  repeat' first
    | with_reducible assumption | with_reducible apply State.dropReasm_wf | with_reducible apply State.bump_wf
    | with_reducible apply foldl_wf | split

theorem State.canComplete_wf (s : State) (r : Reasm) (hs : s.wf = true) : (State.canComplete s r).wf = true := by
  unfold State.canComplete
  dsimp only
  repeat' first
    | with_reducible assumption | with_reducible apply State.dropReasm_wf | with_reducible apply State.bump_wf
    | with_reducible apply foldl_wf | with_reducible apply wfParts_memWrite | with_reducible apply wfParts_memPutWord
    | with_reducible apply wfParts_memZero | with_reducible apply wfParts_nvmWrite
    | with_reducible apply wfParts_nvmZero | split | simp only [wf_lit] | with_reducible apply wf_parts

theorem State.canSegment_wf (s : State) (id : ℕ) (data : List Byte) (hs : s.wf = true)
    : (State.canSegment s id data).wf = true := by
  unfold State.canSegment
  dsimp only
  repeat' first
    | with_reducible assumption | with_reducible apply State.dropReasm_wf | with_reducible apply State.loseReasm_wf
    | with_reducible apply State.canComplete_wf | with_reducible apply foldl_wf
    | with_reducible apply wfParts_memWrite | with_reducible apply wfParts_memPutWord
    | with_reducible apply wfParts_memZero | with_reducible apply wfParts_nvmWrite
    | with_reducible apply wfParts_nvmZero | split | simp only [wf_lit] | with_reducible apply wf_parts

theorem State.canTyped_wf (s : State) (id : ℕ) (data : List Byte) (agree : Bool) (hs : s.wf = true)
    : (State.canTyped s id data agree).wf = true := by
  unfold State.canTyped
  dsimp only
  repeat' first
    | with_reducible assumption | with_reducible apply State.canConflict_wf | with_reducible apply State.bump_wf
    | with_reducible apply State.beaconIn_wf | with_reducible apply State.canTaken_wf
    | with_reducible apply State.canHeard_wf | with_reducible apply State.keeperIn_wf
    | with_reducible apply State.claimIn_wf | with_reducible apply State.canSegment_wf | with_reducible apply foldl_wf
    | split

theorem State.canFrame_wf (s : State) (k : CanKind) (id : ℕ) (data : List Byte) (agree : Bool) (hs : s.wf = true)
    : (State.canFrame s k id data agree).wf = true := by
  unfold State.canFrame
  repeat' first
    | with_reducible assumption | with_reducible apply State.bump_wf | with_reducible apply State.canTaken_wf
    | with_reducible apply State.setO_wf | with_reducible apply State.canTyped_wf | with_reducible apply foldl_wf
    | split

theorem State.keeperTimeout_wf (s : State) (hs : s.wf = true) : (State.keeperTimeout s).wf = true := by
  unfold State.keeperTimeout
  dsimp only
  repeat' first
    | with_reducible assumption | with_reducible apply State.canClaim_wf | with_reducible apply State.setO_wf
    | with_reducible apply State.canMember_wf | with_reducible apply foldl_wf | split

theorem State.claimSent_wf (s : State) (hs : s.wf = true) : (State.claimSent s).wf = true := by
  unfold State.claimSent
  dsimp only
  repeat' first
    | with_reducible assumption | with_reducible apply State.canKeeperFrame_wf | with_reducible apply foldl_wf
    | with_reducible apply wfParts_memWrite | with_reducible apply wfParts_memPutWord
    | with_reducible apply wfParts_memZero | with_reducible apply wfParts_nvmWrite
    | with_reducible apply wfParts_nvmZero | split | simp only [wf_lit] | with_reducible apply wf_parts

theorem State.claimWait_wf (s : State) (hs : s.wf = true) : (State.claimWait s).wf = true := by
  unfold State.claimWait
  dsimp only
  repeat' first
    | with_reducible assumption | with_reducible apply State.bump_wf | with_reducible apply State.setO_wf
    | with_reducible apply foldl_wf | with_reducible apply wfParts_memWrite | with_reducible apply wfParts_memPutWord
    | with_reducible apply wfParts_memZero | with_reducible apply wfParts_nvmWrite
    | with_reducible apply wfParts_nvmZero | split | simp only [wf_lit] | with_reducible apply wf_parts

theorem State.claimCollision_wf (s : State) (hs : s.wf = true) : (State.claimCollision s).wf = true := by
  unfold State.claimCollision
  dsimp only
  repeat' first
    | with_reducible assumption | with_reducible apply State.bump_wf | with_reducible apply State.addressConflict_wf
    | with_reducible apply State.setO_wf | with_reducible apply State.canTxError_wf | with_reducible apply foldl_wf
    | with_reducible apply wfParts_memWrite | with_reducible apply wfParts_memPutWord
    | with_reducible apply wfParts_memZero | with_reducible apply wfParts_nvmWrite
    | with_reducible apply wfParts_nvmZero | split | simp only [wf_lit] | with_reducible apply wf_parts

theorem State.backoffEnd_wf (s : State) (hs : s.wf = true) : (State.backoffEnd s).wf = true := by
  unfold State.backoffEnd
  repeat' first
    | with_reducible assumption | with_reducible apply State.canClaim_wf | with_reducible apply State.canMember_wf
    | with_reducible apply foldl_wf | split

/-! ### Faults -/

theorem State.logEntry_wf (s : State) (e : Staged) (fold : ℕ) (hs : s.wf = true)
    : (State.logEntry s e fold).wf = true := by
  unfold State.logEntry
  dsimp only
  repeat' first
    | with_reducible assumption | with_reducible apply State.bump_wf | with_reducible apply State.setO_wf
    | with_reducible apply State.wrapBy_wf | with_reducible apply State.lifeWrite_wf
    | with_reducible apply State.event_wf | with_reducible apply foldl_wf | with_reducible apply wfParts_memWrite
    | with_reducible apply wfParts_memPutWord | with_reducible apply wfParts_memZero
    | with_reducible apply wfParts_nvmWrite | with_reducible apply wfParts_nvmZero | split | simp only [wf_lit]
    | with_reducible apply wf_parts

theorem State.logWrite_wf (s : State) (hs : s.wf = true) : (State.logWrite s).wf = true := by
  unfold State.logWrite
  dsimp only
  repeat' first
    | with_reducible assumption | with_reducible apply State.logEntry_wf | with_reducible apply foldl_wf
    | with_reducible apply wfParts_memWrite | with_reducible apply wfParts_memPutWord
    | with_reducible apply wfParts_memZero | with_reducible apply wfParts_nvmWrite
    | with_reducible apply wfParts_nvmZero | split | simp only [wf_lit] | with_reducible apply wf_parts

theorem State.fltClear_wf (s : State) (hs : s.wf = true) : (State.fltClear s).wf = true := by
  unfold State.fltClear
  dsimp only
  repeat' first
    | with_reducible assumption | with_reducible apply State.refreshFaultN_wf | with_reducible apply State.setO_wf
    | with_reducible apply foldl_wf | split

theorem State.logZero_wf (s : State) (hs : s.wf = true) : (State.logZero s).wf = true := by
  unfold State.logZero
  repeat' first
    | with_reducible assumption | with_reducible apply State.setO_wf | with_reducible apply foldl_wf
    | with_reducible apply wfParts_memWrite | with_reducible apply wfParts_memPutWord
    | with_reducible apply wfParts_memZero | with_reducible apply wfParts_nvmWrite
    | with_reducible apply wfParts_nvmZero | split | simp only [wf_lit] | with_reducible apply wf_parts

/-! ### Effects -/

theorem State.hubModeEffect_wf (s : State) (v : ℕ) (hs : s.wf = true) : (State.hubModeEffect s v).wf = true := by
  unfold State.hubModeEffect
  dsimp only
  repeat' first
    | with_reducible assumption | with_reducible apply State.setO_wf | with_reducible apply State.repartIfFree_wf
    | with_reducible apply State.follow_wf | with_reducible apply State.passQuit_wf | with_reducible apply foldl_wf
    | with_reducible apply wfParts_memWrite | with_reducible apply wfParts_memPutWord
    | with_reducible apply wfParts_memZero | with_reducible apply wfParts_nvmWrite
    | with_reducible apply wfParts_nvmZero | split | simp only [wf_lit] | with_reducible apply wf_parts

theorem State.liveEffect_wf (s : State) (k : ℕ) (v : ℕ) (hs : s.wf = true) : (State.liveEffect s k v).wf = true := by
  have hk : ∀ m w, (s.setO m w).wf = true := fun m w => State.setO_wf _ _ _ hs
  unfold State.liveEffect
  repeat' first
    | with_reducible apply ite_wf | with_reducible exact hk _ _ | with_reducible assumption
    | with_reducible apply State.hubModeEffect_wf | with_reducible apply State.eyeStart_wf
    | with_reducible apply State.portEnEffect_wf | with_reducible apply State.drmCtrlEffect_wf
    | with_reducible apply State.refreshFaultN_wf | with_reducible apply State.calEnableEffect_wf
    | with_reducible apply State.bundleReqEffect_wf | with_reducible apply State.fltClear_wf
    | with_reducible apply State.rmCtrlEffect_wf | with_reducible apply State.ntSetEffect_wf
    | with_reducible apply State.setO_wf | with_reducible apply State.asmCtrlEffect_wf
    | with_reducible apply State.alarmCtrlEffect_wf | with_reducible apply State.repartIfFree_wf
    | with_reducible apply State.scrubEffect_wf | with_reducible apply State.follow_wf
    | with_reducible apply State.marchEffect_wf | with_reducible apply State.hkCtrlEffect_wf
    | with_reducible apply State.calCtrlEffect_wf | with_reducible apply State.passQuit_wf
    | with_reducible apply State.maqSelect_wf | with_reducible apply State.gateEffect_wf
    | with_reducible apply State.clusterEffect_wf | with_reducible apply State.bldCtrlEffect_wf
    | with_reducible apply State.hkEntryEffect_wf | with_reducible apply State.busyLevelEffect_wf
    | with_reducible apply State.canEnableEffect_wf | with_reducible apply State.pctrlEffect_wf
    | with_reducible apply State.feEnableEffect_wf | with_reducible apply State.logZero_wf
    | with_reducible apply State.prbCtrlEffect_wf | split

/-! ### Nvm -/

theorem State.stagingRead_wf (s : State) (n : ℕ) (u : List Upset) (hs : s.wf = true)
    : (State.stagingRead s n u).1.wf = true := by
  unfold State.stagingRead
  dsimp only
  repeat' first
    | with_reducible assumption | with_reducible apply State.channelRead_wf

theorem State.stageImage_wf (s : State) (image : List Byte) (hs : s.wf = true)
    : (State.stageImage s image).wf = true := by
  unfold State.stageImage
  repeat' first
    | with_reducible assumption | with_reducible apply foldl_wf | with_reducible apply wfParts_memWrite
    | with_reducible apply wfParts_memPutWord | with_reducible apply wfParts_memZero
    | with_reducible apply wfParts_nvmWrite | with_reducible apply wfParts_nvmZero | split | simp only [wf_lit]
    | with_reducible apply wf_parts

theorem State.bankInForce_wf (s : State) (bank : ℕ) (gen : ℕ) (image : List Byte) (hs : s.wf = true)
    : (State.bankInForce s bank gen image).wf = true := by
  unfold State.bankInForce
  dsimp only
  repeat' first
    | with_reducible assumption | with_reducible apply State.setO_wf

theorem State.storeRecords_wf (s : State) (bank : ℕ) (gen : ℕ) (hs : s.wf = true)
    : (State.storeRecords s bank gen).wf = true := by
  unfold State.storeRecords
  dsimp only
  repeat' first
    | with_reducible assumption | with_reducible apply State.stage_wf | with_reducible apply State.lifeOnly_wf
    | with_reducible apply foldl_wf | split

theorem State.storeDone_wf (s : State) (bank : ℕ) (gen : ℕ) (image : List Byte) (refresh : Bool) (hs : s.wf = true)
    : (State.storeDone s bank gen image refresh).wf = true := by
  unfold State.storeDone
  dsimp only
  repeat' first
    | with_reducible assumption | with_reducible apply State.bump_wf | with_reducible apply State.bankInForce_wf
    | with_reducible apply State.storeRecords_wf | with_reducible apply State.setO_wf | with_reducible apply foldl_wf
    | with_reducible apply wfParts_memWrite | with_reducible apply wfParts_memPutWord
    | with_reducible apply wfParts_memZero | with_reducible apply wfParts_nvmWrite
    | with_reducible apply wfParts_nvmZero | split | simp only [wf_lit] | with_reducible apply wf_parts

theorem nvmWords_wf (m : Memory) (l : List (ℕ × ℕ)) (h : m.wf = true) : (nvmWords m l).wf = true :=
  foldl_memWf h fun _ _ ht => memPutWord_wf _ _ _ ht

theorem nvmTorn_wf (m : Memory) (l : List (ℕ × ℕ)) (n torn : ℕ) (h : m.wf = true)
    : (nvmTorn m l n torn).wf = true := by
  unfold nvmTorn
  extract_lets t
  have ht : t.wf = true := nvmWords_wf _ _ h
  split
  · exact memPutWord_wf _ _ _ ht
  · exact ht

theorem State.store_wf (s : State) (state : ℕ) (image : List Byte) (u : List Upset) (e : StoreEnd)
    (hs : s.wf = true)
    : (State.store s state image u e).1.wf = true := by
  unfold State.store
  extract_lets bank gen words n r t failed
  have ht : t.wf = true := State.stagingRead_wf _ _ _ (State.check_wf _ _ _ (State.stageImage_wf _ _ hs))
  have hn := wf_nvm_part ht
  have hf : ∀ (m : Memory) (r : ℕ), m.wf = true → (failed m r).1.wf = true :=
    fun m r hm => State.setO_wf _ _ _ (wf_nvm t ht hm rfl rfl rfl)
  clear_value failed
  split
  · exact hf _ _ (nvmWords_wf _ _ hn)
  split
  · exact State.storeDone_wf _ _ _ _ _ (wf_nvm t ht (nvmWords_wf _ _ hn) rfl rfl rfl)
  · exact hf _ _ (nvmWords_wf _ _ hn)
  · exact hf _ _ (nvmTorn_wf _ _ _ _ hn)
  · exact State.setO_wf _ _ _ (wf_nvm t ht (nvmTorn_wf _ _ _ _ hn) rfl rfl rfl)

theorem State.nvmFault_wf (s : State) (bank : ℕ) (hs : s.wf = true) : (State.nvmFault s bank).wf = true := by
  unfold State.nvmFault
  repeat' first
    | with_reducible assumption | with_reducible apply State.stage_wf | with_reducible apply State.ariseOnce_wf

theorem State.storeAnswer_wf (s : State) (q : Req) (mtype : ℕ) (body : List Byte) (state : ℕ)
    (image : List Byte) (u : List Upset) (e : StoreEnd) (hs : s.wf = true)
    : (State.storeAnswer s q mtype body state image u e).wf = true := by
  unfold State.storeAnswer
  repeat' first
    | with_reducible assumption | with_reducible apply State.store_wf | with_reducible apply State.nvmFault_wf
    | with_reducible apply State.respond_wf | with_reducible apply foldl_wf | split | simp only [wf_lit]
    | with_reducible apply wf_parts | with_reducible refine wf_fst_eq ‹_ = _› ?_

theorem State.storeRequest_wf (s : State) (q : Req) (u : List Upset) (e : StoreEnd) (hs : s.wf = true)
    : (State.storeRequest s q u e).wf = true := by
  unfold State.storeRequest
  repeat' first
    | with_reducible assumption | with_reducible apply State.storeAnswer_wf | with_reducible apply State.respond_wf
    | with_reducible apply foldl_wf | split

theorem State.imageWrite_wf (s : State) (q : Req) (b : List Byte) (u : List Upset) (e : StoreEnd) (hs : s.wf = true)
    : (State.imageWrite s q b u e).wf = true := by
  unfold State.imageWrite
  repeat' first
    | with_reducible assumption | with_reducible apply State.store_wf | with_reducible apply State.nvmFault_wf
    | with_reducible apply State.respond_wf | with_reducible apply foldl_wf | split | simp only [wf_lit]
    | with_reducible apply wf_parts | with_reducible refine wf_fst_eq ‹_ = _› ?_

theorem State.patchPut_wf (s : State) (b : List Byte) (level : ℕ) (n : ℕ) (torn : Option ℕ) (hs : s.wf = true)
    : (State.patchPut s b level n torn).wf = true := by
  unfold State.patchPut
  extract_lets ws m nv
  have hm : m.wf = true := by
    unfold m
    split
    · exact nvmTorn_wf _ _ _ _ (wf_nvm_part hs)
    · exact nvmWords_wf _ _ (wf_nvm_part hs)
  exact wf_nvm s hs hm rfl rfl rfl

theorem State.patchStore_wf (s : State) (b : List Byte) (u : List Upset) (level : ℕ) (e : StoreEnd)
    (hs : s.wf = true)
    : (State.patchStore s b u level e).1.wf = true := by
  unfold State.patchStore
  dsimp only
  repeat' first
    | with_reducible assumption | with_reducible apply State.patchPut_wf | with_reducible apply State.stagingRead_wf
    | with_reducible apply foldl_wf | split

theorem State.patchWrite_wf (s : State) (q : Req) (b : List Byte) (u : List Upset) (patch : Option ℕ)
    (e : StoreEnd) (hs : s.wf = true)
    : (State.patchWrite s q b u patch e).wf = true := by
  unfold State.patchWrite
  dsimp only
  repeat' first
    | with_reducible assumption | with_reducible apply State.stageImage_wf | with_reducible apply State.check_wf
    | with_reducible apply State.hostBlockWrite_wf | with_reducible apply State.patchStore_wf
    | with_reducible apply foldl_wf | split | simp only [wf_lit] | with_reducible apply wf_parts
    | with_reducible refine wf_fst_eq ‹_ = _› ?_

theorem State.refreshStore_wf (s : State) (u : List Upset) (e : StoreEnd) (hs : s.wf = true)
    : (State.refreshStore s u e).wf = true := by
  unfold State.refreshStore
  repeat' first
    | with_reducible assumption | with_reducible apply State.store_wf

theorem State.marginCheck_wf (s : State) (weak : Bool) (u : List Upset) (e : StoreEnd) (hs : s.wf = true)
    : (State.marginCheck s weak u e).wf = true := by
  unfold State.marginCheck
  dsimp only
  repeat' first
    | with_reducible assumption | with_reducible apply State.refreshStore_wf | with_reducible apply foldl_wf
    | with_reducible apply wfParts_memWrite | with_reducible apply wfParts_memPutWord
    | with_reducible apply wfParts_memZero | with_reducible apply wfParts_nvmWrite
    | with_reducible apply wfParts_nvmZero | split | simp only [wf_lit] | with_reducible apply wf_parts

theorem State.refreshTurn_wf (s : State) (hs : s.wf = true) : (State.refreshTurn s).wf = true := by
  unfold State.refreshTurn
  dsimp only
  repeat' first
    | with_reducible assumption | with_reducible apply State.refreshStore_wf | with_reducible apply foldl_wf
    | with_reducible apply wfParts_memWrite | with_reducible apply wfParts_memPutWord
    | with_reducible apply wfParts_memZero | with_reducible apply wfParts_nvmWrite
    | with_reducible apply wfParts_nvmZero | split | simp only [wf_lit] | with_reducible apply wf_parts

theorem State.applyRecord_wf (s : State) (k : ℕ) (tcode : ℕ) (v : List Byte) (last : Option ℕ) (step : ℕ)
    (hs : s.wf = true)
    : (State.applyRecord s k tcode v last step).wf = true := by
  unfold State.applyRecord
  dsimp only
  repeat' first
    | with_reducible assumption | with_reducible apply State.setOb_wf | with_reducible apply State.setO_wf
    | with_reducible apply State.liveEffect_wf | with_reducible apply foldl_wf | split

theorem State.applyRecords_wf (s : State) (step : ℕ) (x2 : ℕ) (x3 : Option ℕ) (x4 : List Byte) (hs : s.wf = true)
    : (State.applyRecords s step x2 x3 x4).wf = true := by
  induction x2 generalizing s x3 x4 with
  | zero => exact hs
  | succ n ih =>
    unfold State.applyRecords
    split
    · exact ih _ _ _ (State.applyRecord_wf _ _ _ _ _ _ hs)
    · exact State.setO_wf _ _ _ hs

theorem State.bankLoad_wf (s : State) (ueA : Bool) (ueB : Bool) (hs : s.wf = true)
    : (State.bankLoad s ueA ueB).wf = true := by
  unfold State.bankLoad
  dsimp only
  repeat' first
    | with_reducible assumption | with_reducible apply State.applyRecords_wf | with_reducible apply State.setOb_wf
    | with_reducible apply State.bankInForce_wf | with_reducible apply State.setO_wf
    | with_reducible apply State.check_wf | with_reducible apply State.nvmFault_wf | with_reducible apply foldl_wf
    | with_reducible apply wfParts_memWrite | with_reducible apply wfParts_memPutWord
    | with_reducible apply wfParts_memZero | with_reducible apply wfParts_nvmWrite
    | with_reducible apply wfParts_nvmZero | split | simp only [wf_lit] | with_reducible apply wf_parts

/-! ### Dictionary -/

theorem State.afterRead_wf (s : State) (k : ℕ) (d : ObjDesc) (hs : s.wf = true)
    : (State.afterRead s k d).wf = true := by
  unfold State.afterRead
  repeat' first
    | with_reducible assumption | with_reducible apply State.setO_wf | with_reducible apply State.hkMarkRead_wf
    | with_reducible apply foldl_wf | split

theorem State.access_wf (s : State) (k : ℕ) (d : ObjDesc) (hs : s.wf = true) : (State.access s k d).1.wf = true := by
  unfold State.access
  dsimp only
  repeat' first
    | with_reducible assumption | with_reducible apply State.afterRead_wf

theorem State.readObject_wf (s : State) (q : Req) (body : List Byte) (hs : s.wf = true)
    : (State.readObject s q body).wf = true := by
  unfold State.readObject
  dsimp only
  repeat' first
    | with_reducible assumption | with_reducible apply State.challengeRead_wf | with_reducible apply State.respond_wf
    | with_reducible apply State.access_wf | with_reducible apply State.respRead_wf | with_reducible apply foldl_wf
    | split

theorem State.putShadow_wf (s : State) (k : ℕ) (v : ℕ) (hs : s.wf = true) : (State.putShadow s k v).wf = true := by
  unfold State.putShadow
  repeat' first
    | with_reducible assumption | with_reducible apply foldl_wf | with_reducible apply wfParts_memWrite
    | with_reducible apply wfParts_memPutWord | with_reducible apply wfParts_memZero
    | with_reducible apply wfParts_nvmWrite | with_reducible apply wfParts_nvmZero | split | simp only [wf_lit]
    | with_reducible apply wf_parts

theorem State.acceptWrite_wf (s : State) (k : ℕ) (d : ObjDesc) (v : ℕ) (hs : s.wf = true)
    : (State.acceptWrite s k d v).wf = true := by
  unfold State.acceptWrite
  dsimp only
  repeat' first
    | with_reducible assumption | with_reducible apply State.laneTest_wf | with_reducible apply State.setO_wf
    | with_reducible apply State.pendLive_wf | with_reducible apply State.putShadow_wf | with_reducible apply foldl_wf
    | with_reducible apply wfParts_memWrite | with_reducible apply wfParts_memPutWord
    | with_reducible apply wfParts_memZero | with_reducible apply wfParts_nvmWrite
    | with_reducible apply wfParts_nvmZero | split | simp only [wf_lit] | with_reducible apply wf_parts

theorem State.writeValue_wf (s : State) (q : Req) (k : ℕ) (d : ObjDesc) (v : ℕ) (hs : s.wf = true)
    : (State.writeValue s q k d v).wf = true := by
  unfold State.writeValue
  repeat' first
    | with_reducible assumption | with_reducible apply State.respWrite_wf | with_reducible apply State.gateWrite_wf
    | with_reducible apply State.acceptWrite_wf | with_reducible apply State.lockWrite_wf
    | with_reducible apply State.unlockWrite_wf | with_reducible apply foldl_wf | split

theorem State.writeObject_wf (s : State) (q : Req) (body : List Byte) (hs : s.wf = true)
    : (State.writeObject s q body).wf = true := by
  unfold State.writeObject
  dsimp only
  repeat' first
    | with_reducible assumption | with_reducible apply State.writeValue_wf | with_reducible apply State.respWrite_wf
    | with_reducible apply foldl_wf | split

theorem State.probeRead_wf (s : State) (hs : s.wf = true) : (State.probeRead s).1.wf = true := by
  unfold State.probeRead
  dsimp only
  repeat' first
    | with_reducible assumption | with_reducible apply State.bump_wf | with_reducible apply State.peak_wf
    | with_reducible apply foldl_wf | split

theorem State.rateHistRead_wf (s : State) (hs : s.wf = true) : (State.rateHistRead s).1.wf = true := by
  unfold State.rateHistRead
  dsimp only
  repeat' first
    | with_reducible assumption | with_reducible apply State.rateSettle_wf | with_reducible apply State.bump_wf
    | with_reducible apply foldl_wf | split

theorem State.domainRead_wf (s : State) (k : ℕ) (hs : s.wf = true)
    : ∀ t, State.domainRead s k = .ok t → t.1.wf = true := by
  unfold State.domainRead
  repeat' first
    | with_reducible exact wf_error | with_reducible exact wf_ok (State.probeRead_wf s hs)
    | with_reducible exact wf_ok (State.rateHistRead_wf s hs) | with_reducible exact wf_ok (x := (s, _)) hs
    | with_reducible apply ite_wf_ok | split

theorem State.closeTransfer_wf (s : State) (q : Req) (hs : s.wf = true) : (State.closeTransfer s q).wf = true := by
  unfold State.closeTransfer
  dsimp only
  repeat' first
    | with_reducible assumption | with_reducible apply foldl_wf | with_reducible apply wfParts_memWrite
    | with_reducible apply wfParts_memPutWord | with_reducible apply wfParts_memZero
    | with_reducible apply wfParts_nvmWrite | with_reducible apply wfParts_nvmZero | split | simp only [wf_lit]
    | with_reducible apply wf_parts

theorem State.putTransfer_wf (s : State) (q : Req) (t : Transfer) (hs : s.wf = true)
    : (State.putTransfer s q t).wf = true := by
  unfold State.putTransfer
  dsimp only
  repeat' first
    | with_reducible assumption | with_reducible apply State.closeTransfer_wf | with_reducible apply foldl_wf
    | with_reducible apply wfParts_memWrite | with_reducible apply wfParts_memPutWord
    | with_reducible apply wfParts_memZero | with_reducible apply wfParts_nvmWrite
    | with_reducible apply wfParts_nvmZero | split | simp only [wf_lit] | with_reducible apply wf_parts

theorem State.segmentError_wf (s : State) (q : Req) (mtype : ℕ) (k : ℕ) (hs : s.wf = true)
    : (State.segmentError s q mtype k).wf = true := by
  unfold State.segmentError
  dsimp only
  repeat' first
    | with_reducible assumption | with_reducible apply State.bump_wf | with_reducible apply State.closeTransfer_wf
    | with_reducible apply State.respond_wf | with_reducible apply foldl_wf | split

theorem State.readSegment_wf (s : State) (q : Req) (k : ℕ) (off : ℕ) (u : List Upset) (hs : s.wf = true)
    : (State.readSegment s q k off u).wf = true := by
  unfold State.readSegment
  dsimp only
  repeat' first
    | with_reducible assumption | with_reducible apply State.channelRead_wf
    | with_reducible apply State.segmentError_wf | with_reducible apply State.closeTransfer_wf
    | with_reducible apply State.respond_wf | with_reducible apply foldl_wf | split

theorem State.openRead_wf (s : State) (q : Req) (k : ℕ) (off : ℕ) (u : List Upset) (hs : s.wf = true)
    : (State.openRead s q k off u).wf = true := by
  unfold State.openRead
  dsimp only
  repeat' first
    | with_reducible assumption | with_reducible apply State.channelRead_wf | with_reducible apply State.check_wf
    | with_reducible apply State.readSegment_wf | with_reducible apply State.putTransfer_wf
    | with_reducible apply State.closeTransfer_wf | with_reducible apply State.respond_wf
    | with_reducible refine State.domainRead_wf _ _ ?_ _ ‹_› | with_reducible apply foldl_wf
    | with_reducible apply wfParts_memWrite | with_reducible apply wfParts_memPutWord
    | with_reducible apply wfParts_memZero | with_reducible apply wfParts_nvmWrite
    | with_reducible apply wfParts_nvmZero | split | simp only [wf_lit] | with_reducible apply wf_parts

theorem State.readBlock_wf (s : State) (q : Req) (body : List Byte) (u : List Upset) (hs : s.wf = true)
    : (State.readBlock s q body u).wf = true := by
  unfold State.readBlock
  dsimp only
  repeat' first
    | with_reducible assumption | with_reducible apply State.openRead_wf | with_reducible apply State.readSegment_wf
    | with_reducible apply State.closeTransfer_wf | with_reducible apply State.respond_wf
    | with_reducible apply foldl_wf | split

theorem State.writeWhole_wf (s : State) (q : Req) (k : ℕ) (b : List Byte) (u : List Upset) (patch : Option ℕ)
    (e : StoreEnd) (hs : s.wf = true)
    : (State.writeWhole s q k b u patch e).wf = true := by
  unfold State.writeWhole
  dsimp only
  repeat' first
    | with_reducible assumption | with_reducible apply State.channelRead_wf | with_reducible apply State.imageWrite_wf
    | with_reducible apply State.testWrite_wf | with_reducible apply State.patchWrite_wf
    | with_reducible apply State.respond_wf | with_reducible apply State.hostLut_wf
    | with_reducible apply State.hostBlockWrite_wf | with_reducible apply foldl_wf | split

theorem State.writeSegment_wf (s : State) (q : Req) (k : ℕ) (t : Transfer) (last : Bool) (off : ℕ) (total : ℕ)
    (data : List Byte) (u : List Upset) (patch : Option ℕ) (e : StoreEnd) (hs : s.wf = true)
    : (State.writeSegment s q k t last off total data u patch e).wf = true := by
  unfold State.writeSegment
  dsimp only
  repeat' first
    | with_reducible assumption | with_reducible apply State.check_wf | with_reducible apply State.putTransfer_wf
    | with_reducible apply State.segmentError_wf | with_reducible apply State.closeTransfer_wf
    | with_reducible apply State.respond_wf | with_reducible apply State.writeWhole_wf | with_reducible apply foldl_wf
    | split

theorem State.writeBlock_wf (s : State) (q : Req) (body : List Byte) (u : List Upset) (patch : Option ℕ)
    (e : StoreEnd) (hs : s.wf = true)
    : (State.writeBlock s q body u patch e).wf = true := by
  unfold State.writeBlock
  dsimp only
  repeat' first
    | with_reducible assumption | with_reducible apply State.putTransfer_wf
    | with_reducible apply State.writeSegment_wf | with_reducible apply State.closeTransfer_wf
    | with_reducible apply State.respond_wf | with_reducible apply foldl_wf | split

theorem State.apply_wf (s : State) (hs : s.wf = true) : (State.apply s).wf = true := by
  unfold State.apply
  dsimp only
  repeat' first
    | with_reducible assumption | with_reducible apply State.setO_wf | with_reducible apply State.mapChans_wf
    | with_reducible apply foldl_wf | with_reducible apply wfParts_memWrite | with_reducible apply wfParts_memPutWord
    | with_reducible apply wfParts_memZero | with_reducible apply wfParts_nvmWrite
    | with_reducible apply wfParts_nvmZero | split | simp only [wf_lit] | with_reducible apply wf_parts

theorem State.restoreOne_wf (s : State) (k : ℕ) (hs : s.wf = true) : (State.restoreOne s k).wf = true := by
  unfold State.restoreOne
  repeat' first
    | with_reducible assumption | with_reducible apply State.acceptWrite_wf | with_reducible apply foldl_wf | split

theorem State.restoreValues_wf (s : State) (hs : s.wf = true) : (State.restoreValues s).wf = true := by
  unfold State.restoreValues
  repeat' first
    | with_reducible assumption | with_reducible apply State.restoreOne_wf | with_reducible apply foldl_wf

theorem State.restoreDefaults_wf (s : State) (q : Req) (values : Bool) (image : Bool) (u : List Upset)
    (e : StoreEnd) (hs : s.wf = true)
    : (State.restoreDefaults s q values image u e).wf = true := by
  unfold State.restoreDefaults
  dsimp only
  repeat' first
    | with_reducible assumption | with_reducible apply State.restoreValues_wf
    | with_reducible apply State.storeAnswer_wf | with_reducible apply State.respond_wf
    | with_reducible apply foldl_wf | split

end Sys2Proof.Machine
end

