-- ==== Sys2Proof/Laws/WfPower.lean ====
section
/-! SUPPORT. The canonical form of the stored data: what each operation keeps, under
power, boot, recovery, freeze, upsets, the crossing tick, block reception and the line. -/
namespace Sys2Proof.Machine

set_option Elab.async false

/-! ### Power -/

theorem State.plinthGone_wf (s : State) (hs : s.wf = true) : (State.plinthGone s).wf = true := by
  unfold State.plinthGone
  dsimp only
  repeat' first
    | with_reducible assumption | with_reducible apply State.setO_wf | with_reducible apply foldl_wf
    | with_reducible apply wfParts_memWrite | with_reducible apply wfParts_memPutWord
    | with_reducible apply wfParts_memZero | with_reducible apply wfParts_nvmWrite
    | with_reducible apply wfParts_nvmZero | split | simp only [wf_lit] | with_reducible apply wf_parts
    | with_reducible refine wf_fst_eq ‹_ = _› ?_ | intro _

theorem State.plinthSupply_wf (s : State) (hs : s.wf = true) : (State.plinthSupply s).wf = true := by
  unfold State.plinthSupply
  repeat' first
    | with_reducible assumption | with_reducible apply State.plinthGone_wf | with_reducible apply foldl_wf | split

theorem State.vkeepLost_wf (s : State) (hs : s.wf = true) : (State.vkeepLost s).wf = true := by
  unfold State.vkeepLost
  repeat' first
    | with_reducible assumption | with_reducible apply State.plinthSupply_wf | with_reducible apply State.setOb_wf
    | with_reducible apply State.refreshFaultN_wf

theorem State.drawFrom_wf (s : State) (f : Feed) (hs : s.wf = true) : (State.drawFrom s f).wf = true := by
  unfold State.drawFrom
  repeat' first
    | with_reducible assumption | with_reducible apply State.setOb_wf

theorem State.powerUp_wf (s : State) (f : Feed) (hs : s.wf = true) : (State.powerUp s f).wf = true := by
  unfold State.powerUp
  dsimp only
  repeat' first
    | with_reducible assumption | with_reducible apply State.bump_wf | with_reducible apply State.setOb_wf
    | with_reducible apply State.standing_wf | with_reducible apply State.setO_wf
    | with_reducible apply State.drawFrom_wf | with_reducible apply State.cold_wf | with_reducible apply foldl_wf
    | with_reducible apply wfParts_memWrite | with_reducible apply wfParts_memPutWord
    | with_reducible apply wfParts_memZero | with_reducible apply wfParts_nvmWrite
    | with_reducible apply wfParts_nvmZero | split | simp only [wf_lit] | with_reducible apply wf_parts

theorem State.feedRise_wf (s : State) (f : Feed) (vkeep : Bool) (hs : s.wf = true)
    : (State.feedRise s f vkeep).wf = true := by
  unfold State.feedRise
  dsimp only
  repeat' first
    | with_reducible assumption | with_reducible apply State.setOb_wf | with_reducible apply State.refreshFaultN_wf
    | with_reducible apply State.settle_wf | with_reducible apply State.plinthGone_wf
    | with_reducible apply State.powerUp_wf | with_reducible apply foldl_wf | with_reducible apply wfParts_memWrite
    | with_reducible apply wfParts_memPutWord | with_reducible apply wfParts_memZero
    | with_reducible apply wfParts_nvmWrite | with_reducible apply wfParts_nvmZero | split | simp only [wf_lit]
    | with_reducible apply wf_parts

theorem State.feedEvent_wf (s : State) (hs : s.wf = true) : (State.feedEvent s).wf = true := by
  unfold State.feedEvent
  repeat' first
    | with_reducible assumption | with_reducible apply State.stage_wf

theorem State.feedChange_wf (s : State) (f : Feed) (hs : s.wf = true) : (State.feedChange s f).wf = true := by
  unfold State.feedChange
  repeat' first
    | with_reducible assumption | with_reducible apply State.bump_wf | with_reducible apply State.drawFrom_wf
    | with_reducible apply State.capture_wf

theorem State.powerOff_wf (s : State) (f : Feed) (hs : s.wf = true) : (State.powerOff s f).wf = true := by
  unfold State.powerOff
  dsimp only
  repeat' first
    | with_reducible assumption | with_reducible apply State.plinthSupply_wf | with_reducible apply State.setOb_wf
    | with_reducible apply State.refreshFaultN_wf | with_reducible apply State.setO_wf
    | with_reducible apply State.cold_wf | with_reducible apply foldl_wf | with_reducible apply wfParts_memWrite
    | with_reducible apply wfParts_memPutWord | with_reducible apply wfParts_memZero
    | with_reducible apply wfParts_nvmWrite | with_reducible apply wfParts_nvmZero | split | simp only [wf_lit]
    | with_reducible apply wf_parts

theorem State.feedFall_wf (s : State) (f : Feed) (cut : Option (ℕ × ℕ)) (hs : s.wf = true)
    : (State.feedFall s f cut).wf = true := by
  unfold State.feedFall
  dsimp only
  repeat' first
    | with_reducible assumption | with_reducible apply State.feedEvent_wf | with_reducible apply State.setOb_wf
    | with_reducible apply State.nvCut_wf | with_reducible apply State.powerOff_wf
    | with_reducible apply State.settle_wf | with_reducible apply State.ariseIf_wf
    | with_reducible apply State.feedChange_wf | with_reducible apply foldl_wf | with_reducible apply wfParts_memWrite
    | with_reducible apply wfParts_memPutWord | with_reducible apply wfParts_memZero
    | with_reducible apply wfParts_nvmWrite | with_reducible apply wfParts_nvmZero | split | simp only [wf_lit]
    | with_reducible apply wf_parts

theorem State.feedReturn_wf (s : State) (hs : s.wf = true) : (State.feedReturn s).wf = true := by
  unfold State.feedReturn
  repeat' first
    | with_reducible assumption | with_reducible apply State.feedEvent_wf | with_reducible apply State.feedChange_wf
    | with_reducible apply foldl_wf | split

theorem State.railLow_wf (s : State) (hs : s.wf = true) : (State.railLow s).wf = true := by
  unfold State.railLow
  repeat' first
    | with_reducible assumption | with_reducible apply State.setOb_wf | with_reducible apply State.deviceReset_wf
    | with_reducible apply foldl_wf | split

theorem State.rstLow_wf (s : State) (hs : s.wf = true) : (State.rstLow s).wf = true := by
  unfold State.rstLow
  dsimp only
  repeat' first
    | with_reducible assumption | with_reducible apply State.deviceReset_wf | with_reducible apply foldl_wf
    | with_reducible apply wfParts_memWrite | with_reducible apply wfParts_memPutWord
    | with_reducible apply wfParts_memZero | with_reducible apply wfParts_nvmWrite
    | with_reducible apply wfParts_nvmZero | split | simp only [wf_lit] | with_reducible apply wf_parts

theorem State.rstHigh_wf (s : State) (hs : s.wf = true) : (State.rstHigh s).wf = true := by
  unfold State.rstHigh
  dsimp only
  repeat' first
    | with_reducible assumption | with_reducible apply foldl_wf | with_reducible apply wfParts_memWrite
    | with_reducible apply wfParts_memPutWord | with_reducible apply wfParts_memZero
    | with_reducible apply wfParts_nvmWrite | with_reducible apply wfParts_nvmZero | split | simp only [wf_lit]
    | with_reducible apply wf_parts

theorem State.commandReset_wf (s : State) (hs : s.wf = true) : (State.commandReset s).wf = true := by
  unfold State.commandReset
  repeat' first
    | with_reducible assumption | with_reducible apply State.deviceReset_wf | with_reducible apply foldl_wf | split

theorem State.actAfter_wf (s : State) (a : AfterResp) (hs : s.wf = true) : (State.actAfter s a).wf = true := by
  unfold State.actAfter
  dsimp only
  repeat' first
    | with_reducible assumption | with_reducible apply foldl_wf | with_reducible apply wfParts_memWrite
    | with_reducible apply wfParts_memPutWord | with_reducible apply wfParts_memZero
    | with_reducible apply wfParts_nvmWrite | with_reducible apply wfParts_nvmZero | split | simp only [wf_lit]
    | with_reducible apply wf_parts

/-! ### Boot -/

theorem State.stepDone_wf (s : State) (n : ℕ) (us : ℕ) (hs : s.wf = true) : (State.stepDone s n us).wf = true := by
  unfold State.stepDone
  dsimp only
  repeat' first
    | with_reducible assumption | with_reducible apply State.setOb_wf | with_reducible apply foldl_wf
    | with_reducible apply wfParts_memWrite | with_reducible apply wfParts_memPutWord
    | with_reducible apply wfParts_memZero | with_reducible apply wfParts_nvmWrite
    | with_reducible apply wfParts_nvmZero | split | simp only [wf_lit] | with_reducible apply wf_parts

theorem State.bootFirmware_wf (s : State) (bist : ℕ) (patchOk : Bool) (fuse : List ℕ) (hs : s.wf = true)
    : (State.bootFirmware s bist patchOk fuse).wf = true := by
  unfold State.bootFirmware
  extract_lets r s1 s2 s3 m s4 s5
  have h1 : s1.wf = true := State.setO_wf _ _ _ (State.setRepairs_wf _ _ hs)
  have h2 : s2.wf = true := ite_wf (State.check_wf _ _ _ h1) h1
  have h3 : s3.wf = true := State.setO_wf _ _ _ (State.setO_wf _ _ _ h2)
  clear_value s3
  have h4 : s4.wf = true := wf_fw s3 h3 memWf_nil rfl rfl rfl rfl
  clear_value s4
  exact State.bootCal_wf _ (ite_wf h4 (State.arise_wf _ _ (State.stage_wf _ _ _ _ _ h4)))

theorem State.bootScratchpad_wf (s : State) (first : List Cell) (second : List Cell) (hs : s.wf = true)
    : (State.bootScratchpad s first second).wf = true := by
  unfold State.bootScratchpad
  extract_lets p q cs t a b u
  have ht : t.wf = true := State.setO_wf _ _ _ (State.setRepairs_wf _ _ hs)
  have hu : u.wf = true := wf_spm t ht memWf_nil rfl rfl rfl
  clear_value u
  split
  · exact State.arise_wf _ _ (State.stage_wf _ _ _ _ _ (wf_of u hu rfl rfl rfl rfl))
  · exact hu

theorem State.applyMark_wf (s : State) (r : ℕ) (mark : ℕ) (hs : s.wf = true)
    : (State.applyMark s r mark).wf = true := by
  unfold State.applyMark
  repeat' first
    | with_reducible assumption | with_reducible apply State.setO_wf | with_reducible apply State.ariseIf_wf
    | with_reducible apply foldl_wf | split

theorem State.rankFilled_wf (s : State) (r : ℕ) (d : List Byte) (src : ℕ) (hs : s.wf = true)
    : (State.rankFilled s r d src).wf = true := by
  exact State.setRankData_wf _ _ _ (State.setO_wf _ _ _ (State.setO_wf _ _ _ (State.setRank_wf _ _ _ hs))) memWf_nil

theorem State.trainRank_wf (s : State) (r : ℕ) (e : TrainEnd) (hs : s.wf = true)
    : ∀ t, State.trainRank s r e = some t → t.wf = true := by
  unfold State.trainRank
  extract_lets marked
  have hm : marked.wf = true := by
    unfold marked
    split
    · exact State.applyMark_wf _ _ _ hs
    · exact hs
  clear_value marked
  split
  · split
    · extract_lets j
      split
      · exact wf_some_state (State.rankFilled_wf _ _ _ _ (State.judgeDies_wf _ _ _ hm))
      · exact wf_none_state
    · exact wf_none_state
  · extract_lets w t j a b u
    have ht : t.wf = true := ite_wf (State.setO_wf _ _ _ hs) hm
    have hj : j.1.wf = true := by
      unfold j
      split
      · exact State.judgeDies_wf _ _ _ ht
      · exact hm
    have hu : u.wf = true := wf_of j.1 hj rfl rfl rfl rfl
    clear_value u
    split
    · exact wf_some_state (State.rankFilled_wf _ _ _ _ (State.drawn_wf _ hu))
    · exact wf_some_state (State.retire_wf _ _ _ hu)

theorem State.bootDram_wf (s : State) (a : TrainEnd) (b : TrainEnd) (c : TrainEnd) (hs : s.wf = true)
    : ∀ t, State.bootDram s a b c = some t → t.wf = true := by
  intro t ht
  simp only [State.bootDram, Option.bind_eq_bind, Option.bind_eq_some_iff, Option.pure_def, Option.some.injEq] at ht
  obtain ⟨t1, h1, t2, h2, t3, h3, rfl⟩ := ht
  exact wf_of t3 (State.trainRank_wf _ _ _ (State.trainRank_wf _ _ _ (State.trainRank_wf _ _ _ hs _ h1) _ h2) _ h3) rfl rfl rfl rfl

theorem State.bootLut_wf (s : State) (c : Ch) (h : List ℕ × List ℕ) (hs : s.wf = true)
    : (State.bootLut s c h).wf = true := by
  unfold State.bootLut
  dsimp only
  repeat' first
    | with_reducible assumption | with_reducible apply State.setChan_wf | with_reducible apply State.setO_wf

theorem State.bootLuts_wf (s : State) (hists : List (List ℕ × List ℕ)) (hs : s.wf = true)
    : (State.bootLuts s hists).wf = true := by
  unfold State.bootLuts
  dsimp only
  repeat' first
    | with_reducible assumption | with_reducible apply State.tapsUpdate_wf | with_reducible apply State.setO_wf
    | with_reducible apply State.historyEntry_wf | with_reducible apply State.bootLut_wf
    | with_reducible apply foldl_wf | split | simp only [wf_lit] | with_reducible apply wf_parts
    | with_reducible refine wf_fst_eq ‹_ = _› ?_ | intro _

theorem State.bootCalibrate_wf (s : State) (hists : List (List ℕ × List ℕ)) (hk : List (ℤ × ℤ)) (ok0 : Bool)
    (ok1 : Bool) (hs : s.wf = true)
    : (State.bootCalibrate s hists hk ok0 ok1).1.wf = true := by
  unfold State.bootCalibrate
  extract_lets r0 r1 x p0 p1 pw hk1 y u hk2
  have h0 : r0.1.wf = true := by
    unfold r0
    split
    · exact hs
    · exact State.hkSliceCal_wf _ _ _ hs
  have h1 : r1.1.wf = true := by
    unfold r1
    split
    · exact h0
    · exact State.hkSliceCal_wf _ _ _ h0
  have h2 : u.wf = true := h1
  have hx : x.wf = true := State.setO_wf _ _ _ (State.bootLuts_wf _ _ h1)
  clear_value x
  have hu : y.wf = true := wf_of x hx rfl rfl rfl rfl
  clear_value y u
  split
  · exact ite_wf hu (State.settle_wf _ (State.builderStart_wf _ _ _ hu))
  · exact wf_of u h2 rfl rfl rfl rfl

theorem State.bootWrites_wf (s : State) (hs : s.wf = true) : (State.bootWrites s).wf = true := by
  unfold State.bootWrites
  dsimp only
  repeat' first
    | with_reducible assumption | with_reducible apply State.nvWrite_wf | with_reducible apply foldl_wf
    | with_reducible apply wfParts_memWrite | with_reducible apply wfParts_memPutWord
    | with_reducible apply wfParts_memZero | with_reducible apply wfParts_nvmWrite
    | with_reducible apply wfParts_nvmZero | split | simp only [wf_lit] | with_reducible apply wf_parts

theorem State.bootEvent_wf (s : State) (hs : s.wf = true) : (State.bootEvent s).wf = true := by
  unfold State.bootEvent
  repeat' first
    | with_reducible assumption | with_reducible apply State.stage_wf

theorem State.lbOff_wf (s : State) (hs : s.wf = true) : (State.lbOff s).wf = true := by
  unfold State.lbOff
  dsimp only
  repeat' first
    | with_reducible assumption | with_reducible apply State.setO_wf | with_reducible apply foldl_wf
    | with_reducible apply wfParts_memWrite | with_reducible apply wfParts_memPutWord
    | with_reducible apply wfParts_memZero | with_reducible apply wfParts_nvmWrite
    | with_reducible apply wfParts_nvmZero | split | simp only [wf_lit] | with_reducible apply wf_parts
    | with_reducible refine wf_fst_eq ‹_ = _› ?_ | intro _

theorem State.ranksPark_wf (s : State) (hs : s.wf = true) : (State.ranksPark s).wf = true := by
  unfold State.ranksPark
  repeat' first
    | with_reducible assumption | with_reducible apply State.setO_wf | with_reducible apply foldl_wf | split
    | simp only [wf_lit] | with_reducible apply wf_parts | with_reducible refine wf_fst_eq ‹_ = _› ?_ | intro _

theorem State.tdcPark_wf (s : State) (hs : s.wf = true) : (State.tdcPark s).wf = true := by
  unfold State.tdcPark
  dsimp only
  repeat' first
    | with_reducible assumption | with_reducible apply State.setO_wf | with_reducible apply State.calWait_wf
    | with_reducible apply State.mapChans_wf | with_reducible apply foldl_wf | with_reducible apply wfParts_memWrite
    | with_reducible apply wfParts_memPutWord | with_reducible apply wfParts_memZero
    | with_reducible apply wfParts_nvmWrite | with_reducible apply wfParts_nvmZero | split | simp only [wf_lit]
    | with_reducible apply wf_parts

theorem State.parkClocks_wf (s : State) (hs : s.wf = true) : (State.parkClocks s).wf = true := by
  unfold State.parkClocks
  dsimp only
  repeat' first
    | with_reducible assumption | with_reducible apply State.setOb_wf | with_reducible apply State.laneL2_wf
    | with_reducible apply foldl_wf | with_reducible apply wfParts_memWrite | with_reducible apply wfParts_memPutWord
    | with_reducible apply wfParts_memZero | with_reducible apply wfParts_nvmWrite
    | with_reducible apply wfParts_nvmZero | split | simp only [wf_lit] | with_reducible apply wf_parts

theorem State.enterParked_wf (s : State) (hs : s.wf = true) : (State.enterParked s).wf = true := by
  unfold State.enterParked
  dsimp only
  repeat' first
    | with_reducible assumption | with_reducible apply State.noteRefused_wf | with_reducible apply State.lbOff_wf
    | with_reducible apply State.ranksPark_wf | with_reducible apply State.tdcPark_wf
    | with_reducible apply State.setO_wf | with_reducible apply State.follow_wf
    | with_reducible apply State.parkClocks_wf | with_reducible apply foldl_wf | with_reducible apply wfParts_memWrite
    | with_reducible apply wfParts_memPutWord | with_reducible apply wfParts_memZero
    | with_reducible apply wfParts_nvmWrite | with_reducible apply wfParts_nvmZero | split | simp only [wf_lit]
    | with_reducible apply wf_parts

theorem State.dropRecs_wf (s : State) (hs : s.wf = true) : (State.dropRecs s).wf = true := by
  unfold State.dropRecs
  dsimp only
  repeat' first
    | with_reducible assumption | with_reducible apply State.releaseAll_wf | with_reducible apply foldl_wf
    | with_reducible apply wfParts_memWrite | with_reducible apply wfParts_memPutWord
    | with_reducible apply wfParts_memZero | with_reducible apply wfParts_nvmWrite
    | with_reducible apply wfParts_nvmZero | split | simp only [wf_lit] | with_reducible apply wf_parts

theorem State.dropQueries_wf (s : State) (hs : s.wf = true) : (State.dropQueries s).wf = true := by
  unfold State.dropQueries
  dsimp only
  repeat' first
    | with_reducible assumption | with_reducible apply State.dropRecs_wf | with_reducible apply State.busyUpdate_wf
    | with_reducible apply State.setO_wf | with_reducible apply State.setCtx_wf | with_reducible apply foldl_wf
    | with_reducible apply wfParts_memWrite | with_reducible apply wfParts_memPutWord
    | with_reducible apply wfParts_memZero | with_reducible apply wfParts_nvmWrite
    | with_reducible apply wfParts_nvmZero | split | simp only [wf_lit] | with_reducible apply wf_parts
    | with_reducible refine wf_fst_eq ‹_ = _› ?_ | intro _

theorem State.park_wf (s : State) (hs : s.wf = true) : (State.park s).1.wf = true := by
  unfold State.park
  dsimp only
  repeat' first
    | with_reducible assumption | with_reducible apply foldl_wf | with_reducible apply wfParts_memWrite
    | with_reducible apply wfParts_memPutWord | with_reducible apply wfParts_memZero
    | with_reducible apply wfParts_nvmWrite | with_reducible apply wfParts_nvmZero | split | simp only [wf_lit]
    | with_reducible apply wf_parts

theorem State.parkTick_wf (s : State) (hs : s.wf = true) : (State.parkTick s).wf = true := by
  unfold State.parkTick
  repeat' first
    | with_reducible assumption | with_reducible apply State.asmCtrlEffect_wf
    | with_reducible apply State.disableChan_wf | with_reducible apply foldl_wf | split

theorem State.parkComplete_wf (s : State) (hs : s.wf = true) : (State.parkComplete s).wf = true := by
  unfold State.parkComplete
  repeat' first
    | with_reducible assumption | with_reducible apply State.enterParked_wf | with_reducible apply foldl_wf | split

theorem State.parkTimeout_wf (s : State) (hs : s.wf = true) : (State.parkTimeout s).wf = true := by
  unfold State.parkTimeout
  repeat' first
    | with_reducible assumption | with_reducible apply State.dropQueries_wf
    | with_reducible apply State.enterParked_wf | with_reducible apply foldl_wf | split

theorem State.unpark_wf (s : State) (hs : s.wf = true) : (State.unpark s).wf = true := by
  unfold State.unpark
  dsimp only
  repeat' first
    | with_reducible assumption | with_reducible apply State.follow_wf | with_reducible apply State.northDown_wf
    | with_reducible apply foldl_wf | with_reducible apply wfParts_memWrite | with_reducible apply wfParts_memPutWord
    | with_reducible apply wfParts_memZero | with_reducible apply wfParts_nvmWrite
    | with_reducible apply wfParts_nvmZero | split | simp only [wf_lit] | with_reducible apply wf_parts

theorem State.dieHolds_wf (s : State) (hs : s.wf = true) : (State.dieHolds s).wf = true := by
  unfold State.dieHolds
  repeat' first
    | with_reducible assumption | with_reducible apply State.ariseIf_wf | with_reducible apply foldl_wf | split

theorem State.buildersReady_wf (s : State) (hs : s.wf = true) : (State.buildersReady s).wf = true := by
  unfold State.buildersReady
  repeat' first
    | with_reducible assumption | with_reducible apply State.builderStart_wf | with_reducible apply foldl_wf | split

theorem State.startService_wf (s : State) (ok : ℕ → Bool) (hs : s.wf = true)
    : (State.startService s ok).wf = true := by
  unfold State.startService
  dsimp only
  repeat' first
    | with_reducible assumption | with_reducible apply State.dieHolds_wf | with_reducible apply State.openNow_wf
    | with_reducible apply State.calStart_wf | with_reducible apply State.enableChan_wf
    | with_reducible apply State.asmRun_wf | with_reducible apply State.lbStart_wf
    | with_reducible apply State.setO_wf | with_reducible apply State.buildersReady_wf
    | with_reducible apply State.enterRun_wf | with_reducible apply foldl_wf | with_reducible apply wfParts_memWrite
    | with_reducible apply wfParts_memPutWord | with_reducible apply wfParts_memZero
    | with_reducible apply wfParts_nvmWrite | with_reducible apply wfParts_nvmZero | split | simp only [wf_lit]
    | with_reducible apply wf_parts

theorem State.bootEnd_wf (s : State) (us : ℕ) (hs : s.wf = true) : (State.bootEnd s us).wf = true := by
  unfold State.bootEnd
  dsimp only
  repeat' first
    | with_reducible assumption | with_reducible apply State.stepDone_wf | with_reducible apply State.bootEvent_wf
    | with_reducible apply State.setO_wf | with_reducible apply State.startService_wf
    | with_reducible apply State.enterParked_wf | with_reducible apply State.bootWrites_wf
    | with_reducible apply foldl_wf | split

theorem State.factoryEnd_wf (s : State) (hs : s.wf = true) : (State.factoryEnd s).wf = true := by
  unfold State.factoryEnd
  repeat' first
    | with_reducible assumption | with_reducible apply State.bootEvent_wf | with_reducible apply State.enterParked_wf
    | with_reducible apply foldl_wf | split

theorem State.bootConfig_wf (s : State) (ueA : Bool) (ueB : Bool) (us : ℕ) (hs : s.wf = true)
    : (State.bootConfig s ueA ueB us).wf = true := by
  unfold State.bootConfig
  dsimp only
  repeat' first
    | with_reducible assumption | with_reducible apply State.bankLoad_wf | with_reducible apply State.factoryEnd_wf
    | with_reducible apply State.stepDone_wf | with_reducible apply State.canListen_wf | with_reducible apply foldl_wf
    | split

theorem State.bootStep_wf (s : State) (b : BootStep) (us : ℕ) (hs : s.wf = true)
    : (State.bootStep s b us).wf = true := by
  unfold State.bootStep
  dsimp only
  repeat' first
    | with_reducible assumption | with_reducible apply State.bootScratchpad_wf
    | with_reducible apply State.stepDone_wf | with_reducible apply State.bootConfig_wf
    | with_reducible apply State.bootFirmware_wf | with_reducible apply State.bootCalibrate_wf
    | with_reducible refine State.bootDram_wf _ _ _ _ ?_ _ ‹_› | with_reducible apply foldl_wf | split

theorem State.strapCheck_wf (s : State) (v : ℕ) (hs : s.wf = true) : (State.strapCheck s v).wf = true := by
  unfold State.strapCheck
  dsimp only
  repeat' first
    | with_reducible assumption | with_reducible apply State.stage_wf | with_reducible apply State.setO_wf
    | with_reducible apply foldl_wf | with_reducible apply wfParts_memWrite | with_reducible apply wfParts_memPutWord
    | with_reducible apply wfParts_memZero | with_reducible apply wfParts_nvmWrite
    | with_reducible apply wfParts_nvmZero | split | simp only [wf_lit] | with_reducible apply wf_parts

/-! ### Recovery -/

theorem State.freeSlotWork_wf (s : State) (n : Fin 4) (hs : s.wf = true) : (State.freeSlotWork s n).wf = true := by
  unfold State.freeSlotWork
  repeat' first
    | with_reducible assumption | with_reducible apply State.setOb_wf | with_reducible apply State.releaseAll_wf
    | with_reducible apply State.setCtx_wf | with_reducible apply foldl_wf | split

theorem State.requeue_wf (s : State) (n : Fin 4) (hs : s.wf = true) : (State.requeue s n).wf = true := by
  unfold State.requeue
  repeat' first
    | with_reducible assumption | with_reducible apply State.mapSlot_wf | with_reducible apply State.freeSlotWork_wf
    | with_reducible apply foldl_wf | split

theorem State.reinitFront_wf (s : State) (chans : List Ch) (hs : s.wf = true)
    : (State.reinitFront s chans).wf = true := by
  unfold State.reinitFront
  dsimp only
  repeat' first
    | with_reducible assumption | with_reducible apply State.reiniting_wf | with_reducible apply foldl_wf
    | with_reducible apply wfParts_memWrite | with_reducible apply wfParts_memPutWord
    | with_reducible apply wfParts_memZero | with_reducible apply wfParts_nvmWrite
    | with_reducible apply wfParts_nvmZero | split | simp only [wf_lit] | with_reducible apply wf_parts

theorem State.reinitAsm_wf (s : State) (hs : s.wf = true) : (State.reinitAsm s).wf = true := by
  unfold State.reinitAsm
  repeat' first
    | with_reducible assumption | with_reducible apply State.reiniting_wf | with_reducible apply State.pendLive_wf
    | with_reducible apply foldl_wf | split

theorem State.reinitHub_wf (s : State) (hs : s.wf = true) : (State.reinitHub s).wf = true := by
  unfold State.reinitHub
  repeat' first
    | with_reducible assumption | with_reducible apply State.follow_wf | with_reducible apply State.southDown_wf
    | with_reducible apply foldl_wf | split | simp only [wf_lit] | with_reducible apply wf_parts
    | with_reducible refine wf_fst_eq ‹_ = _› ?_ | intro _

theorem State.reinitNorth_wf (s : State) (hs : s.wf = true) : (State.reinitNorth s).wf = true := by
  unfold State.reinitNorth
  dsimp only
  repeat' first
    | with_reducible assumption | with_reducible apply State.laneL2_wf | with_reducible apply State.reiniting_wf
    | with_reducible apply State.follow_wf | with_reducible apply State.northDown_wf | with_reducible apply foldl_wf

theorem State.reinitSouth_wf (s : State) (ports : List ℕ) (hs : s.wf = true)
    : (State.reinitSouth s ports).wf = true := by
  unfold State.reinitSouth
  dsimp only
  repeat' first
    | with_reducible assumption | with_reducible apply State.laneL2_wf | with_reducible apply State.reiniting_wf
    | with_reducible apply State.setPortState_wf | with_reducible apply State.follow_wf
    | with_reducible apply State.southDown_wf | with_reducible apply foldl_wf | split | simp only [wf_lit]
    | with_reducible apply wf_parts | with_reducible refine wf_fst_eq ‹_ = _› ?_ | intro _

theorem State.reinitDram_wf (s : State) (hs : s.wf = true) : (State.reinitDram s).wf = true := by
  unfold State.reinitDram
  dsimp only
  repeat' first
    | with_reducible assumption | with_reducible apply State.reiniting_wf | with_reducible apply foldl_wf
    | with_reducible apply wfParts_memWrite | with_reducible apply wfParts_memPutWord
    | with_reducible apply wfParts_memZero | with_reducible apply wfParts_nvmWrite
    | with_reducible apply wfParts_nvmZero | split | simp only [wf_lit] | with_reducible apply wf_parts

theorem State.reinitHk_wf (s : State) (hs : s.wf = true) : (State.reinitHk s).wf = true := by
  unfold State.reinitHk
  dsimp only
  repeat' first
    | with_reducible assumption | with_reducible apply State.hkAbandon_wf | with_reducible apply State.reiniting_wf
    | with_reducible apply State.setO_wf | with_reducible apply foldl_wf | with_reducible apply wfParts_memWrite
    | with_reducible apply wfParts_memPutWord | with_reducible apply wfParts_memZero
    | with_reducible apply wfParts_nvmWrite | with_reducible apply wfParts_nvmZero | split | simp only [wf_lit]
    | with_reducible apply wf_parts | with_reducible refine wf_fst_eq ‹_ = _› ?_ | intro _

theorem State.reinitBuilders_wf (s : State) (hs : s.wf = true) : (State.reinitBuilders s).wf = true := by
  unfold State.reinitBuilders
  repeat' first
    | with_reducible assumption | with_reducible apply State.copyOver_wf | with_reducible apply State.reiniting_wf
    | with_reducible apply State.bldCtrlEffect_wf

theorem State.reinitCan_wf (s : State) (hs : s.wf = true) : (State.reinitCan s).wf = true := by
  unfold State.reinitCan
  repeat' first
    | with_reducible assumption | with_reducible apply State.canEnableEffect_wf

theorem State.reinit_wf (s : State) (f : ℕ) (c : Option Ch) (hs : s.wf = true) : (State.reinit s f c).wf = true := by
  unfold State.reinit
  repeat' first
    | with_reducible assumption | with_reducible apply State.reinitDram_wf | with_reducible apply State.reinitHk_wf
    | with_reducible apply State.reinitNorth_wf | with_reducible apply State.reinitBuilders_wf
    | with_reducible apply State.reinitSouth_wf | with_reducible apply State.requeue_wf
    | with_reducible apply State.reinitAsm_wf | with_reducible apply State.reinitCan_wf
    | with_reducible apply State.reinitHub_wf | with_reducible apply State.reinitFront_wf
    | with_reducible apply foldl_wf | split

theorem State.frontTick_wf (s : State) (hs : s.wf = true) : (State.frontTick s).wf = true := by
  unfold State.frontTick
  dsimp only
  repeat' first
    | with_reducible assumption | with_reducible apply State.calRestart_wf | with_reducible apply State.enableChan_wf
    | with_reducible apply State.disableChan_wf | with_reducible apply State.reinitOver_wf
    | with_reducible apply foldl_wf | with_reducible apply wfParts_memWrite | with_reducible apply wfParts_memPutWord
    | with_reducible apply wfParts_memZero | with_reducible apply wfParts_nvmWrite
    | with_reducible apply wfParts_nvmZero | split | simp only [wf_lit] | with_reducible apply wf_parts

theorem State.asmTick_wf (s : State) (hs : s.wf = true) : (State.asmTick s).wf = true := by
  unfold State.asmTick
  repeat' first
    | with_reducible assumption | with_reducible apply State.asmCtrlEffect_wf
    | with_reducible apply State.reinitOver_wf | with_reducible apply foldl_wf | split

theorem State.linkTick_wf (s : State) (hs : s.wf = true) : (State.linkTick s).wf = true := by
  unfold State.linkTick
  dsimp only
  repeat' first
    | with_reducible assumption | with_reducible apply State.reinitOver_wf | with_reducible apply foldl_wf | split

theorem State.reinitTick_wf (s : State) (hs : s.wf = true) : (State.reinitTick s).wf = true := by
  unfold State.reinitTick
  repeat' first
    | with_reducible assumption | with_reducible apply State.asmTick_wf | with_reducible apply State.copyOver_wf
    | with_reducible apply State.frontTick_wf | with_reducible apply State.linkTick_wf

theorem State.ladderNote_wf (s : State) (f : ℕ) (step : ℕ) (st : ℕ) (hs : s.wf = true)
    : (State.ladderNote s f step st).wf = true := by
  unfold State.ladderNote
  dsimp only
  repeat' first
    | with_reducible assumption | with_reducible apply State.stage_wf | with_reducible apply State.setO_wf

theorem State.ladderReset_wf (s : State) (f : ℕ) (st : ℕ) (hs : s.wf = true)
    : (State.ladderReset s f st).wf = true := by
  unfold State.ladderReset
  dsimp only
  repeat' first
    | with_reducible assumption | with_reducible apply State.setO_wf | with_reducible apply State.lifeWrite_wf
    | with_reducible apply State.deviceReset_wf

theorem State.ladderHigh_wf (s : State) (f : ℕ) (c : Ch) (st : ℕ) (hs : s.wf = true)
    : (State.ladderHigh s f c st).wf = true := by
  unfold State.ladderHigh
  dsimp only
  repeat' first
    | with_reducible assumption | with_reducible apply State.setO_wf | with_reducible apply State.ladderNote_wf
    | with_reducible apply State.pcycAssert_wf | with_reducible apply State.ladderReset_wf
    | with_reducible apply foldl_wf | with_reducible apply wfParts_memWrite | with_reducible apply wfParts_memPutWord
    | with_reducible apply wfParts_memZero | with_reducible apply wfParts_nvmWrite
    | with_reducible apply wfParts_nvmZero | split | simp only [wf_lit] | with_reducible apply wf_parts

theorem State.ladderReinit_wf (s : State) (f : ℕ) (c : Ch) (hs : s.wf = true)
    : (State.ladderReinit s f c).wf = true := by
  unfold State.ladderReinit
  dsimp only
  repeat' first
    | with_reducible assumption | with_reducible apply State.reinit_wf | with_reducible apply foldl_wf
    | with_reducible apply wfParts_memWrite | with_reducible apply wfParts_memPutWord
    | with_reducible apply wfParts_memZero | with_reducible apply wfParts_nvmWrite
    | with_reducible apply wfParts_nvmZero | split | simp only [wf_lit] | with_reducible apply wf_parts

theorem State.ladderStep_wf (s : State) (f : ℕ) (c : Ch) (hs : s.wf = true) : (State.ladderStep s f c).wf = true := by
  unfold State.ladderStep
  dsimp only
  repeat' first
    | with_reducible assumption | with_reducible apply State.ladderNote_wf | with_reducible apply State.ladderHigh_wf
    | with_reducible apply State.ladderReinit_wf | with_reducible apply foldl_wf | split

theorem State.watchTick_wf (s : State) (hs : s.wf = true) : (State.watchTick s).wf = true := by
  unfold State.watchTick
  dsimp only
  repeat' first
    | with_reducible assumption | with_reducible apply foldl_wf | with_reducible apply wfParts_memWrite
    | with_reducible apply wfParts_memPutWord | with_reducible apply wfParts_memZero
    | with_reducible apply wfParts_nvmWrite | with_reducible apply wfParts_nvmZero | split | simp only [wf_lit]
    | with_reducible apply wf_parts

theorem State.faultTaken_wf (s : State) (f : ℕ) (c : Ch) (hs : s.wf = true)
    : ∀ t, State.faultTaken s f c = some t → t.wf = true := by
  unfold State.faultTaken
  split
  · exact wf_some_state (wf_of s hs rfl rfl rfl rfl)
  · split
    · exact wf_some_state (wf_of s hs rfl rfl rfl rfl)
    · exact wf_none_state

theorem State.faultStep_wf (s : State) (f : ℕ) (c : Ch) (hs : s.wf = true) : (State.faultStep s f c).wf = true := by
  unfold State.faultStep
  dsimp only
  repeat' first
    | with_reducible assumption | with_reducible apply State.ladderStep_wf | with_reducible apply foldl_wf
    | with_reducible apply wfParts_memWrite | with_reducible apply wfParts_memPutWord
    | with_reducible apply wfParts_memZero | with_reducible apply wfParts_nvmWrite
    | with_reducible apply wfParts_nvmZero | split | simp only [wf_lit] | with_reducible apply wf_parts

theorem State.functionFault_wf (s : State) (f : ℕ) (c : Ch) (hs : s.wf = true)
    : (State.functionFault s f c).wf = true := by
  unfold State.functionFault
  repeat' first
    | with_reducible assumption | with_reducible apply State.faultStep_wf
    | with_reducible refine State.faultTaken_wf _ _ _ ?_ _ ‹_› | with_reducible apply foldl_wf | split

theorem State.takeDeferred_wf (s : State) (hs : s.wf = true) : (State.takeDeferred s).wf = true := by
  unfold State.takeDeferred
  dsimp only
  repeat' first
    | with_reducible assumption | with_reducible apply State.ladderHigh_wf | with_reducible apply foldl_wf
    | with_reducible apply wfParts_memWrite | with_reducible apply wfParts_memPutWord
    | with_reducible apply wfParts_memZero | with_reducible apply wfParts_nvmWrite
    | with_reducible apply wfParts_nvmZero | split | simp only [wf_lit] | with_reducible apply wf_parts
    | with_reducible refine wf_fst_eq ‹_ = _› ?_ | intro _

theorem State.afterPark_wf (s : State) (hs : s.wf = true) : (State.afterPark s).wf = true := by
  unfold State.afterPark
  dsimp only
  repeat' first
    | with_reducible assumption | with_reducible apply State.reinit_wf | with_reducible apply foldl_wf
    | with_reducible apply wfParts_memWrite | with_reducible apply wfParts_memPutWord
    | with_reducible apply wfParts_memZero | with_reducible apply wfParts_nvmWrite
    | with_reducible apply wfParts_nvmZero | split | simp only [wf_lit] | with_reducible apply wf_parts
    | with_reducible refine wf_fst_eq ‹_ = _› ?_ | intro _

theorem State.dataReadyTick_wf (s : State) (us : ℕ) (hs : s.wf = true) : (State.dataReadyTick s us).wf = true := by
  unfold State.dataReadyTick
  repeat' first
    | with_reducible assumption | with_reducible apply State.startService_wf
    | with_reducible apply State.takeDeferred_wf | with_reducible apply State.bootEnd_wf
    | with_reducible apply foldl_wf | split

theorem State.quiet_wf (s : State) (f : ℕ) (hs : s.wf = true) : (State.quiet s f).wf = true := by
  unfold State.quiet
  repeat' first
    | with_reducible assumption | with_reducible apply State.setO_wf

theorem State.supvRestart_wf (s : State) (cause : ℕ) (addr : ℕ) (hs : s.wf = true)
    : (State.supvRestart s cause addr).wf = true := by
  unfold State.supvRestart
  extract_lets lose s1 c0 c m0 m s2 s3
  have h1 : s1.wf = true := State.setO_wf _ _ _ (State.bump_wf _ _ hs)
  clear_value s1
  have h2 : s2.wf = true := State.dropSupStreams_wf _ (State.poolReclaim_wf _ (wf_fw s1 h1 memWf_nil rfl rfl rfl rfl))
  exact State.settle_wf _ (ite_wf h2 (State.ariseOnce_wf _ _ (State.stage_wf _ _ _ _ _ h2)))

theorem State.supvTrap_wf (s : State) (ue : Option (Bool × ℕ)) (hs : s.wf = true)
    : (State.supvTrap s ue).wf = true := by
  unfold State.supvTrap
  repeat' first
    | with_reducible assumption | with_reducible apply State.bump_wf | with_reducible apply State.stage_wf
    | with_reducible apply State.ariseOnce_wf | with_reducible apply State.noteWord_wf
    | with_reducible apply State.supvRestart_wf | with_reducible apply foldl_wf | split

theorem State.takeFaults_wf (s : State) (hs : s.wf = true) : (State.takeFaults s).wf = true := by
  unfold State.takeFaults
  dsimp only
  repeat' first
    | with_reducible assumption | with_reducible apply State.ladderStep_wf | with_reducible apply foldl_wf
    | with_reducible apply wfParts_memWrite | with_reducible apply wfParts_memPutWord
    | with_reducible apply wfParts_memZero | with_reducible apply wfParts_nvmWrite
    | with_reducible apply wfParts_nvmZero | split | simp only [wf_lit] | with_reducible apply wf_parts
    | with_reducible refine wf_fst_eq ‹_ = _› ?_ | intro _

theorem State.supvDone_wf (s : State) (hs : s.wf = true) : (State.supvDone s).wf = true := by
  unfold State.supvDone
  dsimp only
  repeat' first
    | with_reducible assumption | with_reducible apply State.takeFaults_wf | with_reducible apply State.hkSwap_wf
    | with_reducible apply State.afterPark_wf | with_reducible apply State.settle_wf
    | with_reducible apply State.takeDeferred_wf | with_reducible apply State.bootWrites_wf
    | with_reducible apply foldl_wf | with_reducible apply wfParts_memWrite | with_reducible apply wfParts_memPutWord
    | with_reducible apply wfParts_memZero | with_reducible apply wfParts_nvmWrite
    | with_reducible apply wfParts_nvmZero | split | simp only [wf_lit] | with_reducible apply wf_parts

theorem State.restartAfter_wf (s : State) (hs : s.wf = true) : (State.restartAfter s).wf = true := by
  unfold State.restartAfter
  dsimp only
  repeat' first
    | with_reducible assumption | with_reducible apply State.supvRestart_wf | with_reducible apply foldl_wf
    | with_reducible apply wfParts_memWrite | with_reducible apply wfParts_memPutWord
    | with_reducible apply wfParts_memZero | with_reducible apply wfParts_nvmWrite
    | with_reducible apply wfParts_nvmZero | split | simp only [wf_lit] | with_reducible apply wf_parts

/-! ### Freeze -/

theorem State.thawData_wf (s : State) (hs : s.wf = true) : (State.thawData s).wf = true := by
  unfold State.thawData
  dsimp only
  repeat' first
    | with_reducible assumption | with_reducible apply State.bumpBy_wf | with_reducible apply State.afterHit_wf
    | with_reducible apply State.discardOpen_wf | with_reducible apply State.setO_wf
    | with_reducible apply State.mapChans_wf | with_reducible apply foldl_wf

theorem State.thawLanes_wf (s : State) (hs : s.wf = true) : (State.thawLanes s).wf = true := by
  unfold State.thawLanes
  dsimp only
  repeat' first
    | with_reducible assumption | with_reducible apply State.follow_wf | with_reducible apply State.southDown_wf
    | with_reducible apply State.tryScan_wf | with_reducible apply State.northDown_wf
    | with_reducible apply State.laneFall_wf | with_reducible apply foldl_wf | split | simp only [wf_lit]
    | with_reducible apply wf_parts | with_reducible refine wf_fst_eq ‹_ = _› ?_ | intro _

theorem State.thawMeasure_wf (s : State) (hs : s.wf = true) : (State.thawMeasure s).wf = true := by
  unfold State.thawMeasure
  dsimp only
  repeat' first
    | with_reducible assumption | with_reducible apply State.hkAbandon_wf | with_reducible apply State.setO_wf
    | with_reducible apply State.hkBegin_wf | with_reducible apply foldl_wf | split

theorem State.thawCan_wf (s : State) (hs : s.wf = true) : (State.thawCan s).wf = true := by
  unfold State.thawCan
  repeat' first
    | with_reducible assumption | with_reducible apply State.canListen_wf | with_reducible apply foldl_wf | split

theorem State.thawLog_wf (s : State) (hs : s.wf = true) : (State.thawLog s).wf = true := by
  unfold State.thawLog
  dsimp only
  repeat' first
    | with_reducible assumption | with_reducible apply State.stage_wf | with_reducible apply State.wrapBy_wf
    | with_reducible apply foldl_wf | with_reducible apply wfParts_memWrite | with_reducible apply wfParts_memPutWord
    | with_reducible apply wfParts_memZero | with_reducible apply wfParts_nvmWrite
    | with_reducible apply wfParts_nvmZero | split | simp only [wf_lit] | with_reducible apply wf_parts

theorem State.thaw_wf (s : State) (us : ℕ) (hs : s.wf = true) : (State.thaw s us).wf = true := by
  unfold State.thaw
  dsimp only
  repeat' first
    | with_reducible assumption | with_reducible apply State.refreshFaultN_wf | with_reducible apply State.thawCan_wf
    | with_reducible apply State.setO_wf | with_reducible apply State.thawMeasure_wf
    | with_reducible apply State.thawData_wf | with_reducible apply State.thawLanes_wf
    | with_reducible apply State.thawLog_wf | with_reducible apply foldl_wf | with_reducible apply wfParts_memWrite
    | with_reducible apply wfParts_memPutWord | with_reducible apply wfParts_memZero
    | with_reducible apply wfParts_nvmWrite | with_reducible apply wfParts_nvmZero | split | simp only [wf_lit]
    | with_reducible apply wf_parts

theorem State.freeBy_wf (s : State) (l : List FreezeSource) (us : ℕ) (hs : s.wf = true)
    : (State.freeBy s l us).wf = true := by
  unfold State.freeBy
  dsimp only
  repeat' first
    | with_reducible assumption | with_reducible apply State.thaw_wf | with_reducible apply foldl_wf
    | with_reducible apply wfParts_memWrite | with_reducible apply wfParts_memPutWord
    | with_reducible apply wfParts_memZero | with_reducible apply wfParts_nvmWrite
    | with_reducible apply wfParts_nvmZero | split | simp only [wf_lit] | with_reducible apply wf_parts

theorem State.tdo_wf (s : State) (ir : ℕ) (len : ℕ) (value : ℕ) (hs : s.wf = true)
    : (State.tdo s ir len value).wf = true := by
  unfold State.tdo
  repeat' first
    | with_reducible assumption | with_reducible apply State.emit_wf

theorem State.tapUpdate_wf (s : State) (ir : ℕ) (test : Bool) (hs : s.wf = true)
    : (State.tapUpdate s ir test).wf = true := by
  unfold State.tapUpdate
  dsimp only
  repeat' first
    | with_reducible assumption | with_reducible apply State.setO_wf | with_reducible apply State.follow_wf
    | with_reducible apply foldl_wf | with_reducible apply wfParts_memWrite | with_reducible apply wfParts_memPutWord
    | with_reducible apply wfParts_memZero | with_reducible apply wfParts_nvmWrite
    | with_reducible apply wfParts_nvmZero | split | simp only [wf_lit] | with_reducible apply wf_parts

theorem State.bypass_wf (s : State) (ir : ℕ) (hs : s.wf = true) : (State.bypass s ir).wf = true := by
  unfold State.bypass
  repeat' first
    | with_reducible assumption | with_reducible apply State.tdo_wf | with_reducible apply State.tapUpdate_wf

theorem State.tapDo_wf (s : State) (ir : ℕ) (locked : Bool) (act : State → State) (hs : s.wf = true)
    (hact : ∀ t : State, t.wf = true → (act t).wf = true)
    : (State.tapDo s ir locked act).wf = true := by
  unfold State.tapDo
  exact ite_wf hs (ite_wf (State.bypass_wf _ _ (State.bump_wf _ _ hs)) (hact _ hs))

theorem State.boundaryScan_wf (s : State) (ir : ℕ) (test : Bool) (pins : BitVec 129) (b : BitVec 129)
    (hs : s.wf = true)
    : (State.boundaryScan s ir test pins b).wf = true := by
  unfold State.boundaryScan
  dsimp only
  repeat' first
    | with_reducible assumption | with_reducible apply State.tdo_wf | with_reducible apply State.tapUpdate_wf
    | with_reducible apply State.emit_wf | with_reducible apply foldl_wf | with_reducible apply wfParts_memWrite
    | with_reducible apply wfParts_memPutWord | with_reducible apply wfParts_memZero
    | with_reducible apply wfParts_nvmWrite | with_reducible apply wfParts_nvmZero | split | simp only [wf_lit]
    | with_reducible apply wf_parts

theorem State.cast_wf (s : State) (n : ℕ) (hs : s.wf = true) : (State.cast s n).wf = true := by
  unfold State.cast
  dsimp only
  repeat' first
    | with_reducible assumption | with_reducible apply State.bypass_wf | with_reducible apply State.bumpBy_wf
    | with_reducible apply State.tdo_wf | with_reducible apply State.setO_wf | with_reducible apply State.tapUpdate_wf
    | with_reducible apply foldl_wf | with_reducible apply wfParts_memWrite | with_reducible apply wfParts_memPutWord
    | with_reducible apply wfParts_memZero | with_reducible apply wfParts_nvmWrite
    | with_reducible apply wfParts_nvmZero | split | simp only [wf_lit] | with_reducible apply wf_parts

theorem State.castCrcOut_wf (s : State) (hs : s.wf = true) : (State.castCrcOut s).wf = true := by
  unfold State.castCrcOut
  repeat' first
    | with_reducible assumption | with_reducible apply State.tdo_wf | with_reducible apply State.tapUpdate_wf

theorem State.castNote_wf (s : State) (fw : Bool) (addr : ℕ) (u : List Upset) (ue : Bool) (hs : s.wf = true)
    : (State.castNote s fw addr u ue).wf = true := by
  unfold State.castNote
  repeat' first
    | with_reducible assumption | with_reducible apply State.bump_wf | with_reducible apply State.setO_wf
    | with_reducible apply State.fixWord_wf | with_reducible apply foldl_wf | split

theorem State.castMem_wf (s : State) (fw : Bool) (addr : ℕ) (u : List Upset) (hs : s.wf = true)
    : (State.castMem s fw addr u).wf = true := by
  unfold State.castMem
  dsimp only
  repeat' first
    | with_reducible assumption | with_reducible apply State.tdo_wf | with_reducible apply State.castNote_wf
    | with_reducible apply State.tapUpdate_wf | with_reducible apply foldl_wf | with_reducible apply wfParts_memWrite
    | with_reducible apply wfParts_memPutWord | with_reducible apply wfParts_memZero
    | with_reducible apply wfParts_nvmWrite | with_reducible apply wfParts_nvmZero | split | simp only [wf_lit]
    | with_reducible apply wf_parts

theorem State.tapReset_wf (s : State) (hs : s.wf = true) : (State.tapReset s).wf = true := by
  unfold State.tapReset
  dsimp only
  repeat' first
    | with_reducible assumption | with_reducible apply State.tapUpdate_wf | with_reducible apply foldl_wf
    | with_reducible apply wfParts_memWrite | with_reducible apply wfParts_memPutWord
    | with_reducible apply wfParts_memZero | with_reducible apply wfParts_nvmWrite
    | with_reducible apply wfParts_nvmZero | split | simp only [wf_lit] | with_reducible apply wf_parts

/-! ### Upset -/

theorem State.putValue_wf (s : State) (k : ℕ) (v : ℕ) (hs : s.wf = true) : (State.putValue s k v).wf = true := by
  unfold State.putValue
  dsimp only
  repeat' first
    | with_reducible assumption | with_reducible apply State.liveEffect_wf | with_reducible apply foldl_wf
    | with_reducible apply wfParts_memWrite | with_reducible apply wfParts_memPutWord
    | with_reducible apply wfParts_memZero | with_reducible apply wfParts_nvmWrite
    | with_reducible apply wfParts_nvmZero | split | simp only [wf_lit] | with_reducible apply wf_parts

theorem State.forceValue_wf (s : State) (k : ℕ) (v : ℕ) (hs : s.wf = true) : (State.forceValue s k v).wf = true := by
  unfold State.forceValue
  repeat' first
    | with_reducible assumption | with_reducible apply State.laneTest_wf | with_reducible apply State.setO_wf
    | with_reducible apply State.liveEffect_wf | with_reducible apply foldl_wf | split

theorem State.upsetTwo_wf (s : State) (k : ℕ) (v : ℕ) (hs : s.wf = true) : (State.upsetTwo s k v).wf = true := by
  unfold State.upsetTwo
  dsimp only
  repeat' first
    | with_reducible assumption | with_reducible apply State.forceValue_wf | with_reducible apply foldl_wf
    | with_reducible apply wfParts_memWrite | with_reducible apply wfParts_memPutWord
    | with_reducible apply wfParts_memZero | with_reducible apply wfParts_nvmWrite
    | with_reducible apply wfParts_nvmZero | split | simp only [wf_lit] | with_reducible apply wf_parts

theorem State.upsetRegister_wf (s : State) (k : ℕ) (two : Option ℕ) (hs : s.wf = true)
    : (State.upsetRegister s k two).wf = true := by
  unfold State.upsetRegister
  repeat' first
    | with_reducible assumption | with_reducible apply State.bump_wf | with_reducible apply State.upsetTwo_wf
    | with_reducible apply foldl_wf | split

theorem State.restoreRegister_wf (s : State) (e : Differs) (hs : s.wf = true)
    : (State.restoreRegister s e).wf = true := by
  unfold State.restoreRegister
  dsimp only
  repeat' first
    | with_reducible assumption | with_reducible apply State.bump_wf | with_reducible apply State.stage_wf
    | with_reducible apply State.forceValue_wf | with_reducible apply State.ariseOnce_wf
    | with_reducible apply foldl_wf | split

theorem State.tmrCompare_wf (s : State) (hs : s.wf = true) : (State.tmrCompare s).wf = true := by
  unfold State.tmrCompare
  repeat' first
    | with_reducible assumption | with_reducible apply State.restoreRegister_wf | with_reducible apply foldl_wf
    | with_reducible apply wfParts_memWrite | with_reducible apply wfParts_memPutWord
    | with_reducible apply wfParts_memZero | with_reducible apply wfParts_nvmWrite
    | with_reducible apply wfParts_nvmZero | split | simp only [wf_lit] | with_reducible apply wf_parts

theorem State.upsetLut_wf (s : State) (c : Ch) (walk : Bool) (p : ℕ) (hs : s.wf = true)
    : (State.upsetLut s c walk p).wf = true := by
  unfold State.upsetLut
  repeat' first
    | with_reducible assumption | with_reducible apply foldl_wf | with_reducible apply wfParts_memWrite
    | with_reducible apply wfParts_memPutWord | with_reducible apply wfParts_memZero
    | with_reducible apply wfParts_nvmWrite | with_reducible apply wfParts_nvmZero | split | simp only [wf_lit]
    | with_reducible apply wf_parts

theorem State.upsetQuery_wf (s : State) (n : Fin 4) (hs : s.wf = true) : (State.upsetQuery s n).wf = true := by
  unfold State.upsetQuery
  dsimp only
  repeat' first
    | with_reducible assumption | with_reducible apply State.bump_wf | with_reducible apply State.indexQuery_wf
    | with_reducible apply State.mapSlot_wf | with_reducible apply State.freeSlotWork_wf
    | with_reducible apply foldl_wf | split

theorem State.upset_wf (s : State) (u : Struck) (hs : s.wf = true) : (State.upset s u).wf = true := by
  unfold State.upset
  dsimp only
  repeat' first
    | with_reducible assumption | with_reducible apply State.bump_wf | with_reducible apply State.upsetQuery_wf
    | with_reducible apply State.setGroup_wf | with_reducible apply State.setChan_wf
    | with_reducible apply State.upsetLut_wf | with_reducible apply State.upsetRegister_wf
    | with_reducible apply foldl_wf | split

/-! ### Crossing -/

theorem State.tlmRead_wf (s : State) (x1 : List (ℕ × ObjDesc)) (hs : s.wf = true)
    : (State.tlmRead s x1).1.wf = true := by
  induction x1 generalizing s with
  | nil => exact hs
  | cons a l ih =>
    unfold State.tlmRead
    refine ih _ ?_
    split
    · exact hs
    · exact State.access_wf _ _ _ hs

theorem State.tlmPublish_wf (s : State) (hs : s.wf = true) : (State.tlmPublish s).wf = true := by
  unfold State.tlmPublish
  dsimp only
  repeat' first
    | with_reducible assumption | with_reducible apply State.wrapBy_wf | with_reducible apply State.tlmRead_wf
    | with_reducible apply State.event_wf | with_reducible apply foldl_wf | with_reducible apply wfParts_memWrite
    | with_reducible apply wfParts_memPutWord | with_reducible apply wfParts_memZero
    | with_reducible apply wfParts_nvmWrite | with_reducible apply wfParts_nvmZero | split | simp only [wf_lit]
    | with_reducible apply wf_parts | with_reducible refine wf_fst_eq ‹_ = _› ?_ | intro _

theorem State.tlmStart_wf (s : State) (hs : s.wf = true) : (State.tlmStart s).wf = true := by
  unfold State.tlmStart
  dsimp only
  repeat' first
    | with_reducible assumption | with_reducible apply State.bump_wf | with_reducible apply foldl_wf
    | with_reducible apply wfParts_memWrite | with_reducible apply wfParts_memPutWord
    | with_reducible apply wfParts_memZero | with_reducible apply wfParts_nvmWrite
    | with_reducible apply wfParts_nvmZero | split | simp only [wf_lit] | with_reducible apply wf_parts

theorem State.alarmFire_wf (s : State) (k : ℕ) (hs : s.wf = true) : (State.alarmFire s k).wf = true := by
  unfold State.alarmFire
  dsimp only
  repeat' first
    | with_reducible assumption | with_reducible apply State.stage_wf | with_reducible apply State.alarmAdvance_wf
    | with_reducible apply State.tlmStart_wf | with_reducible apply State.hkStart_wf | with_reducible apply foldl_wf
    | split

theorem State.alarmsTo_wf (s : State) (k : ℕ) (hs : s.wf = true) : (State.alarmsTo s k).wf = true := by
  unfold State.alarmsTo
  repeat' first
    | with_reducible assumption | with_reducible apply State.alarmFire_wf | with_reducible apply foldl_wf

theorem State.shadowValues_wf (s : State) (hs : s.wf = true) : (State.shadowValues s).wf = true := by
  unfold State.shadowValues
  dsimp only
  repeat' first
    | with_reducible assumption | with_reducible apply State.putValue_wf | with_reducible apply foldl_wf
    | with_reducible apply wfParts_memWrite | with_reducible apply wfParts_memPutWord
    | with_reducible apply wfParts_memZero | with_reducible apply wfParts_nvmWrite
    | with_reducible apply wfParts_nvmZero | split | simp only [wf_lit] | with_reducible apply wf_parts
    | with_reducible refine wf_fst_eq ‹_ = _› ?_ | intro _

theorem State.capNow_wf (s : State) (hs : s.wf = true) : (State.capNow s).wf = true := by
  unfold State.capNow
  repeat' first
    | with_reducible assumption | with_reducible apply State.mapSlice_wf

theorem State.markerEffects_wf (s : State) (hs : s.wf = true) : (State.markerEffects s).wf = true := by
  unfold State.markerEffects
  dsimp only
  repeat' first
    | with_reducible assumption | with_reducible apply State.floorUpdate_wf | with_reducible apply State.lutSwaps_wf
    | with_reducible apply State.shadowValues_wf | with_reducible apply State.capNow_wf
    | with_reducible apply foldl_wf | with_reducible apply wfParts_memWrite | with_reducible apply wfParts_memPutWord
    | with_reducible apply wfParts_memZero | with_reducible apply wfParts_nvmWrite
    | with_reducible apply wfParts_nvmZero | split | simp only [wf_lit] | with_reducible apply wf_parts

theorem State.turnMarker_wf (s : State) (hs : s.wf = true) : (State.turnMarker s).wf = true := by
  unfold State.turnMarker
  dsimp only
  repeat' first
    | with_reducible assumption | with_reducible apply State.markerEffects_wf | with_reducible apply foldl_wf
    | with_reducible apply wfParts_memWrite | with_reducible apply wfParts_memPutWord
    | with_reducible apply wfParts_memZero | with_reducible apply wfParts_nvmWrite
    | with_reducible apply wfParts_nvmZero | split | simp only [wf_lit] | with_reducible apply wf_parts

theorem State.runDue_wf (x0 : ℕ) (x1 : State) (hx1 : x1.wf = true) : (State.runDue x0 x1).wf = true := by
  induction x0 generalizing x1 with
  | zero => exact State.resyncApply_wf _ hx1
  | succ n ih =>
    unfold State.runDue
    split
    · exact State.resyncApply_wf _ hx1
    · exact ih _ (ite_wf (State.tpulseFire_wf _ hx1) (ite_wf (State.turnCheck_wf _ hx1) (State.resyncApply_wf _ hx1)))

theorem State.syncEffects_wf (s : State) (hs : s.wf = true) : (State.syncEffects s).wf = true := by
  unfold State.syncEffects
  dsimp only
  repeat' first
    | with_reducible assumption | with_reducible apply State.cmdHoldTick_wf | with_reducible apply State.turnMarker_wf
    | with_reducible apply State.runDue_wf | with_reducible apply foldl_wf | split

theorem State.finishTick_wf (s : State) (hs : s.wf = true) : (State.finishTick s).wf = true := by
  unfold State.finishTick
  repeat' first
    | with_reducible assumption | with_reducible apply State.alarmsTo_wf | with_reducible apply State.servoAll_wf
    | with_reducible apply State.syncEffects_wf | with_reducible apply foldl_wf | split

theorem State.countTick_wf (s : State) (hs : s.wf = true) : (State.countTick s).wf = true := by
  unfold State.countTick
  dsimp only
  repeat' first
    | with_reducible assumption | with_reducible apply State.bump_wf | with_reducible apply State.lbResync_wf
    | with_reducible apply State.setO_wf | with_reducible apply State.queryResync_wf | with_reducible apply foldl_wf
    | with_reducible apply wfParts_memWrite | with_reducible apply wfParts_memPutWord
    | with_reducible apply wfParts_memZero | with_reducible apply wfParts_nvmWrite
    | with_reducible apply wfParts_nvmZero | split | simp only [wf_lit] | with_reducible apply wf_parts

theorem State.wrapCapture_wf (s : State) (wraps : Bool) (hs : s.wf = true)
    : (State.wrapCapture s wraps).wf = true := by
  unfold State.wrapCapture
  repeat' first
    | with_reducible assumption | with_reducible apply State.capture_wf | with_reducible apply foldl_wf | split

theorem State.liveWrites_wf (s : State) (hs : s.wf = true) : (State.liveWrites s).wf = true := by
  unfold State.liveWrites
  dsimp only
  repeat' first
    | with_reducible assumption | with_reducible apply State.putValue_wf | with_reducible apply foldl_wf
    | with_reducible apply wfParts_memWrite | with_reducible apply wfParts_memPutWord
    | with_reducible apply wfParts_memZero | with_reducible apply wfParts_nvmWrite
    | with_reducible apply wfParts_nvmZero | split | simp only [wf_lit] | with_reducible apply wf_parts
    | with_reducible refine wf_fst_eq ‹_ = _› ?_ | intro _

theorem State.uptimeTick_wf (s : State) (hs : s.wf = true) : (State.uptimeTick s).wf = true := by
  unfold State.uptimeTick
  dsimp only
  repeat' first
    | with_reducible assumption | with_reducible apply State.bump_wf | with_reducible apply State.hourTick_wf
    | with_reducible apply foldl_wf | with_reducible apply wfParts_memWrite | with_reducible apply wfParts_memPutWord
    | with_reducible apply wfParts_memZero | with_reducible apply wfParts_nvmWrite
    | with_reducible apply wfParts_nvmZero | split | simp only [wf_lit] | with_reducible apply wf_parts

theorem State.thawTick_wf (s : State) (hs : s.wf = true) : (State.thawTick s).wf = true := by
  unfold State.thawTick
  dsimp only
  repeat' first
    | with_reducible assumption | with_reducible apply State.setO_wf | with_reducible apply foldl_wf
    | with_reducible apply wfParts_memWrite | with_reducible apply wfParts_memPutWord
    | with_reducible apply wfParts_memZero | with_reducible apply wfParts_nvmWrite
    | with_reducible apply wfParts_nvmZero | split | simp only [wf_lit] | with_reducible apply wf_parts

theorem State.workUngates_wf (s : State) (hs : s.wf = true) : (State.workUngates s).wf = true := by
  unfold State.workUngates
  repeat' first
    | with_reducible assumption | with_reducible apply State.setO_wf | with_reducible apply foldl_wf | split

theorem State.tickStart_wf (s : State) (tpSent : Bool) (hs : s.wf = true) : (State.tickStart s tpSent).wf = true := by
  unfold State.tickStart
  dsimp only
  repeat' first
    | with_reducible assumption | with_reducible apply State.countTick_wf | with_reducible apply State.thawTick_wf
    | with_reducible apply State.wrapCapture_wf | with_reducible apply State.ntAdvance_wf
    | with_reducible apply State.takeDeferred_wf | with_reducible apply State.resumeService_wf
    | with_reducible apply State.tpForm_wf

theorem State.tickEnd_wf (s : State) (hs : s.wf = true) : (State.tickEnd s).wf = true := by
  unfold State.tickEnd
  dsimp only
  repeat' first
    | with_reducible assumption | with_reducible apply State.canFlush_wf | with_reducible apply State.floorUpdate_wf
    | with_reducible apply State.openCrossing_wf | with_reducible apply State.refreshTurn_wf
    | with_reducible apply State.workUngates_wf | with_reducible apply State.tlmPublish_wf
    | with_reducible apply State.creditAdd_wf | with_reducible apply State.watchTick_wf
    | with_reducible apply State.uptimeTick_wf

theorem State.crossingTick_wf (s : State) (u : List Upset) (tpSent : Bool) (hs : s.wf = true)
    : (State.crossingTick s u tpSent).wf = true := by
  unfold State.crossingTick
  repeat' first
    | with_reducible assumption | with_reducible apply State.tickEnd_wf | with_reducible apply State.tickStart_wf
    | with_reducible apply State.reinitTick_wf | with_reducible apply State.liveWrites_wf
    | with_reducible apply State.finishTick_wf | with_reducible apply State.closeDue_wf
    | with_reducible apply State.syncEffects_wf | with_reducible apply State.parkTick_wf
    | with_reducible apply foldl_wf | split

/-! ### Receive -/

theorem State.blockError_wf (s : State) (hs : s.wf = true) : (State.blockError s).wf = true := by
  unfold State.blockError
  repeat' first
    | with_reducible assumption | with_reducible apply State.bump_wf

theorem State.setMsg_wf (s : State) (l : LinkId) (m : Option (ℕ × List ℕ)) (hs : s.wf = true)
    : (State.setMsg s l m).wf = true := by
  unfold State.setMsg
  dsimp only
  repeat' first
    | with_reducible assumption | with_reducible apply State.setRx_wf

theorem State.setFrame_wf (s : State) (l : LinkId) (f : Option RxFrame) (hs : s.wf = true)
    : (State.setFrame s l f).wf = true := by
  unfold State.setFrame
  dsimp only
  repeat' first
    | with_reducible assumption | with_reducible apply State.setRx_wf

theorem State.dropOpen_wf (s : State) (l : LinkId) (hs : s.wf = true) : (State.dropOpen s l).wf = true := by
  unfold State.dropOpen
  dsimp only
  repeat' first
    | with_reducible assumption | with_reducible apply State.setRx_wf

theorem State.dataBlock_wf (s : State) (l : LinkId) (w : ℕ) (hs : s.wf = true)
    : (State.dataBlock s l w).wf = true := by
  unfold State.dataBlock
  repeat' first
    | with_reducible assumption | with_reducible apply State.setFrame_wf | with_reducible apply State.blockError_wf
    | with_reducible apply foldl_wf | split

theorem State.leafRow_wf (s : State) (k : ℕ) (content : ℕ) (hs : s.wf = true)
    : (State.leafRow s k content).wf = true := by
  unfold State.leafRow
  repeat' first
    | with_reducible assumption | with_reducible apply State.follow_wf | with_reducible apply State.southDown_wf
    | with_reducible apply foldl_wf | split

theorem State.controlBlock_wf (s : State) (i : ℕ) (t : ℕ) (content : ℕ) (hs : s.wf = true)
    : (State.controlBlock s i t content).wf = true := by
  unfold State.controlBlock
  dsimp only
  repeat' first
    | with_reducible assumption | with_reducible apply State.setFrame_wf | with_reducible apply State.leafRow_wf
    | with_reducible apply State.setMsg_wf | with_reducible apply State.blockError_wf | with_reducible apply foldl_wf
    | split

theorem State.contBlock_wf (s : State) (l : LinkId) (content : ℕ) (hs : s.wf = true)
    : (State.contBlock s l content).wf = true := by
  unfold State.contBlock
  repeat' first
    | with_reducible assumption | with_reducible apply State.setFrame_wf | with_reducible apply State.setMsg_wf
    | with_reducible apply State.blockError_wf | with_reducible apply foldl_wf | split

theorem State.interrupt_wf (s : State) (l : LinkId) (hs : s.wf = true) : (State.interrupt s l).wf = true := by
  unfold State.interrupt
  repeat' first
    | with_reducible assumption | with_reducible apply State.setMsg_wf | with_reducible apply State.blockError_wf
    | with_reducible apply foldl_wf | split

theorem State.judgeBlock_wf (s : State) (i : ℕ) (h : ℕ) (w : ℕ) (hs : s.wf = true)
    : (State.judgeBlock s i h w).wf = true := by
  unfold State.judgeBlock
  dsimp only
  repeat' first
    | with_reducible assumption | with_reducible apply State.dataBlock_wf | with_reducible apply State.dropOpen_wf
    | with_reducible apply State.interrupt_wf | with_reducible apply State.contBlock_wf
    | with_reducible apply State.controlBlock_wf | with_reducible apply State.blockError_wf
    | with_reducible apply foldl_wf | split

theorem State.blockReceive_wf (s : State) (i : ℕ) (head : ℕ) (pay : ℕ) (hs : s.wf = true)
    : (State.blockReceive s i head pay).wf = true := by
  unfold State.blockReceive
  dsimp only
  repeat' first
    | with_reducible assumption | with_reducible apply State.prbsBits_wf | with_reducible apply State.descramble_wf
    | with_reducible apply State.judgeBlock_wf | with_reducible apply State.huntHeader_wf
    | with_reducible apply State.alignLoss_wf | with_reducible apply State.lockedHeader_wf
    | with_reducible apply foldl_wf | split

/-! ### Line -/

theorem State.linkSlots_wf (s : State) (hs : s.wf = true) : (State.linkSlots s).1.wf = true := by
  unfold State.linkSlots
  dsimp only
  repeat' first
    | with_reducible assumption | with_reducible apply State.takeUp_wf | with_reducible apply foldl_wf
    | with_reducible apply wfParts_memWrite | with_reducible apply wfParts_memPutWord
    | with_reducible apply wfParts_memZero | with_reducible apply wfParts_nvmWrite
    | with_reducible apply wfParts_nvmZero | split | simp only [wf_lit] | with_reducible apply wf_parts

theorem State.laneSend_wf (s : State) (i : ℕ) (b : LineBlock) (hs : s.wf = true)
    : (State.laneSend s i b).wf = true := by
  unfold State.laneSend
  dsimp only
  repeat' first
    | with_reducible assumption | with_reducible apply State.setLane_wf | with_reducible apply foldl_wf
    | with_reducible apply wfParts_memWrite | with_reducible apply wfParts_memPutWord
    | with_reducible apply wfParts_memZero | with_reducible apply wfParts_nvmWrite
    | with_reducible apply wfParts_nvmZero | split | simp only [wf_lit] | with_reducible apply wf_parts

theorem State.laneTestSend_wf (s : State) (i : ℕ) (hs : s.wf = true) : (State.laneTestSend s i).wf = true := by
  unfold State.laneTestSend
  dsimp only
  repeat' first
    | with_reducible assumption | with_reducible apply State.setLane_wf | with_reducible apply foldl_wf
    | with_reducible apply wfParts_memWrite | with_reducible apply wfParts_memPutWord
    | with_reducible apply wfParts_memZero | with_reducible apply wfParts_nvmWrite
    | with_reducible apply wfParts_nvmZero | split | simp only [wf_lit] | with_reducible apply wf_parts

theorem State.runBlocks_wf (s : State) (hs : s.wf = true) : (State.runBlocks s).wf = true := by
  unfold State.runBlocks
  dsimp only
  repeat' first
    | with_reducible assumption | with_reducible apply State.setLane_wf | with_reducible apply foldl_wf | split
    | simp only [wf_lit] | with_reducible apply wf_parts | with_reducible refine wf_fst_eq ‹_ = _› ?_ | intro _

theorem State.capsSlot_wf (s : State) (hs : s.wf = true) : (State.capsSlot s).wf = true := by
  unfold State.capsSlot
  dsimp only
  repeat' first
    | with_reducible assumption | with_reducible apply State.capsProceed_wf | with_reducible apply foldl_wf | split
    | simp only [wf_lit] | with_reducible apply wf_parts | with_reducible refine wf_fst_eq ‹_ = _› ?_ | intro _

theorem State.blockSlot_wf (s : State) (hs : s.wf = true) : (State.blockSlot s).wf = true := by
  unfold State.blockSlot
  dsimp only
  repeat' first
    | with_reducible assumption | with_reducible apply State.linkSlots_wf | with_reducible apply State.capsSlot_wf
    | with_reducible apply State.runBlocks_wf | with_reducible apply State.laneTestSend_wf
    | with_reducible apply State.laneSend_wf | with_reducible apply foldl_wf | with_reducible apply wfParts_memWrite
    | with_reducible apply wfParts_memPutWord | with_reducible apply wfParts_memZero
    | with_reducible apply wfParts_nvmWrite | with_reducible apply wfParts_nvmZero | split | simp only [wf_lit]
    | with_reducible apply wf_parts | with_reducible refine wf_fst_eq ‹_ = _› ?_ | intro _

theorem State.idleStep_wf (s : State) (hs : s.wf = true) : (State.idleStep s).wf = true := by
  unfold State.idleStep
  repeat' first
    | with_reducible assumption | with_reducible apply State.blockSlot_wf | with_reducible apply foldl_wf | split

end Sys2Proof.Machine
end

