-- ==== Sys2Proof/WellFormed.lean ====
section
/-! DEFINITION. The well-formed commands: those whose operands the outside of the block can send, by the table's row. The
machine gives every command an outcome; a command that is not well formed names something that has a row of its own, or
that does not exist. -/
namespace Sys2Proof

/-- Lane i is a receiving lane (R277). -/
def Lane.receives (i : Lane) : Bool := decide (8 ≤ i.val) && decide (i.val ≤ 16)

/-- A link with a receiver of its own: the north link or a south link (R309). -/
def LinkId.hasReceiver : LinkId → Bool
  | .pass _ => false | _ => true

/-- A link that exists: pass-through links are numbered 1 to 7 (R309). -/
def LinkId.exists_ : LinkId → Bool
  | .pass j => j != 0 | _ => true

/-- A link that sends rows: not a south link (R319). -/
def LinkId.sendsRows : LinkId → Bool
  | .south _ => false
  | .pass j => j != 0
  | .north => true

/-- The lengths of a CAN FD frame's data (R474). -/
def canLengths : List Nat := [0, 1, 2, 3, 4, 5, 6, 7, 8, 12, 16, 20, 24, 32, 48, 64]

/-- The instructions of R562 that have a row of their own. -/
def tapCodes : List (BitVec 8) := [0x00, 0x01, 0x02, 0x03, 0x04, 0x08, 0x10, 0x11, 0x12, 0x13, 0x14]

/-- The FUNCTION_CMDs that have a row of their own (R535): REINIT of a function, and the commands of FUNC 0x80. -/
def ownFunctionRow (func cmd : BitVec 8) : Bool :=
  (cmd == 0x01 && decide (func.toNat ≤ 9)) ||
    (func == 0x80 && ([0x10, 0x11, 0x12, 0x13, 0x14, 0x15] : List (BitVec 8)).contains cmd)

/-- Scratchpad word addresses. -/
def wordAligned (l : List (BitVec 23)) : Bool := l.all fun a => a.toNat % 8 == 0

/-- A boot step's findings have their shape: 37 delays a rank, the histograms of 128 channels, four ranges of two
slices, and words of the scratchpad. -/
def BootStep.wellFormed : BootStep → Bool
  | .dram a b c =>
    [a, b, c].all fun e => match e with | .sweep d => d.length == 37 | _ => true
  | .scratchpad f s => (f ++ s).all fun e => decide (e.1.toNat < 786432)
  | .calibrate h hk _ _ => h.length == 128 && h.all (fun e => e.1.length == 160 && e.2.length == 80) && hk.length == 8
  | _ => true

/-- A struck element exists: a walk LUT has 80 entries, a chain four, a FIFO sixteen. -/
def Struck.wellFormed : Struck → Bool
  | .lut _ walk p => !walk || decide (p.val < 80)
  | .chain _ n => decide (n.val < 4)
  | .fifo _ n => decide (n.toNat < 16)
  | _ => true

/-- A command that the outside of the block can send. -/
def Instr.wellFormed : Instr → Bool
  | .prbPostDone samples => decide (samples.length ≤ 8192)
  | .cmdResync tgt _ => tgt != BitVec.allOnes 48
  | .cmdReserved code cont => !(code == 1 || code == 2 || (code == 3 && cont))
  | .phaseScanDone i _ => i.receives
  | .lnEyeScanStart _ i => i.receives
  | .ragilBlockReceive i _ _ => i.receives
  | .huntTimeout i => i.receives
  | .losAssert i => i.receives
  | .losClear i => i.receives
  | .prbsSync i _ => i.receives
  | .prbsSyncLoss i => i.receives
  | .receiveBufferOverflow i => i.receives
  | .txFault i => !i.receives
  | .capsSend l => l.hasReceiver
  | .capsReceive l _ => l.hasReceiver
  | .capsTimeout l => l.hasReceiver
  | .statusReceive l _ => l.hasReceiver
  | .frameReceive l _ _ _ => l.hasReceiver
  | .nakHoldExpire l => l.hasReceiver
  | .ackSend l => l.hasReceiver
  | .ackReceive l _ => l.hasReceiver
  | .nakReceive l _ => l.hasReceiver
  | .statusSend l => l.exists_
  | .alignRow l => l.sendsRows
  | .replayTimeout l => l.exists_
  | .frameSend l _ => l.exists_
  | .spmCorrectionWriteback cycles => cycles.all fun l => l.all fun r => decide (1 ≤ r.agent.val) && decide (r.word.toNat < 786432)
  | .marchAbort _ _ _ fails _ => wordAligned fails
  | .marchDone fails _ => wordAligned fails
  | .canFrameReceive _ _ data _ => canLengths.contains data.length
  | .recClear _ func cmd _ _ => !ownFunctionRow func cmd
  | .bootStart b _ => b.wellFormed
  | .tapBypass ir => !tapCodes.contains ir
  | .storageUpset u => u.wellFormed
  | _ => true

end Sys2Proof
end

