-- ==== Sys2Proof/Tests/Slice0.lean ====
section
/-! SUPPORT. Tests of the model: the checks of WellFormed, one step of some commands against the spec's worked examples,
and for each statement with hypotheses the concrete states and operands that meet them, clause by clause. -/
namespace Sys2Proof.Tests
open Sys2Proof.Machine

set_option maxRecDepth 20000
set_option Elab.async false
set_option linter.unusedVariables false

/-! ### Ill-formed commands are told apart -/

theorem test_wf_probe_samples : (Instr.prbPostDone (List.replicate 8193 0)).wellFormed = false := by decide +kernel
theorem test_wf_resync_all_ones : (Instr.cmdResync (BitVec.allOnes 48) 3).wellFormed = false := by decide
theorem test_wf_reserved_code : (Instr.cmdReserved 2 false).wellFormed = false ∧ (Instr.cmdReserved 3 false).wellFormed = true := by
  decide
theorem test_wf_receiving_lane : ([.phaseScanDone 7 (Vector.replicate 16 0), .lnEyeScanStart { path := .north, src := 0, tid := 0 } 17,
    .ragilBlockReceive 3 1 0, .huntTimeout 24, .losAssert 0, .losClear 17, .prbsSync 7 5, .prbsSyncLoss 7,
    .receiveBufferOverflow 20, .txFault 8] : List Instr).all (fun c => !c.wellFormed) = true := by decide +kernel
theorem test_wf_receiver : ([.capsSend (.pass 1), .capsReceive (.pass 1) 0, .capsTimeout (.pass 2), .statusReceive (.pass 2) 0,
    .frameReceive (.pass 3) 0 [] none, .nakHoldExpire (.pass 3), .ackSend (.pass 4), .ackReceive (.pass 4) 0,
    .nakReceive (.pass 5) 0] : List Instr).all (fun c => !c.wellFormed) = true := by decide +kernel
theorem test_wf_link_exists : ([.statusSend (.pass 0), .alignRow (.south 2), .alignRow (.pass 0), .replayTimeout (.pass 0),
    .frameSend (.pass 0) []] : List Instr).all (fun c => !c.wellFormed) = true := by decide +kernel
theorem test_wf_march_words : (Instr.marchDone [5] []).wellFormed = false ∧
    (Instr.marchAbort { path := .north, src := 0, tid := 0 } 1 3 [8, 12] []).wellFormed = false := by decide +kernel
theorem test_wf_can_length : (Instr.canFrameReceive .fd 0 (List.replicate 9 0) true).wellFormed = false := by decide +kernel
theorem test_wf_function_row : (Instr.recClear { path := .north, src := 0, tid := 0 } 9 1 0 0).wellFormed = false := by decide +kernel
theorem test_wf_boot_sweep : (Instr.bootStart (.dram (.sweep []) (.stored 0) (.stored 0)) 0).wellFormed = false := by decide +kernel
theorem test_wf_boot_march : (Instr.bootStart (.scratchpad [(0xC0000, 1)] []) 0).wellFormed = false ∧
    (Instr.bootStart (.calibrate [] [] true true) 0).wellFormed = false := by decide +kernel
theorem test_wf_port_agent : (Instr.spmCorrectionWriteback [[{ agent := 0, word := 5, op := .read }]]).wellFormed = false ∧
    (Instr.spmCorrectionWriteback [[{ agent := 3, word := 0xC0000, op := .read }]]).wellFormed = false := by decide
theorem test_wf_tap_code : (Instr.tapBypass 0x12).wellFormed = false ∧ (Instr.tapBypass 0xFF).wellFormed = true := by decide +kernel
theorem test_wf_struck_walk : (Instr.storageUpset (.lut 3 true 80)).wellFormed = false := by decide +kernel

/-! ### Worked examples of the spec -/

/-- The check value of "CRC-32C check units": the CRC of the nine ASCII bytes 123456789. -/
theorem test_crc32c_check_value : crc32c [0x31, 0x32, 0x33, 0x34, 0x35, 0x36, 0x37, 0x38, 0x39] = 0xE3069283 := by decide +kernel

/-- The record of the IN[37] hit ("Decoding one hit"). -/
theorem test_in37_hit_record : hitRecord 37 1003 307 37 true false false false 22 = 0x4A7D62664B16 := by decide

/-- The markers of "The life of one query": OFFS -1, NREC 2, NSTORED 9; and OFFS +1, NREC 1, NSTORED 10. -/
theorem test_query_markers :
    markerOffs 0xFFE004240000 = -1 ∧ markerNrec 0xFFE004240000 = 2 ∧ markerOffs 0x002002280000 = 1 ∧ markerNrec 0x002002280000 = 1 := by
  decide

/-- The anchor of "The life of one query" resolves to the crossing 150,000 before the query's. -/
theorem test_query_anchor : resolveAnchor 0x00123458C280 0x567890 = .past 0x001234567890 := by decide

/-- The coded section of "Coding a one-crossing REGION answer": a marker and hits A, B and C become 20 bytes. -/
theorem test_coded_section :
    (codeJob { live := true } [3 * 2 ^ 25 + 11 * 2 ^ 18, hitRecord 33 980 298 41 true false false false 5,
      hitRecord 37 1003 307 37 true false false false 22, hitRecord 44 1019 276 0xFF false false false false 9]).flatMap (·.bytes) =
      [0x46, 0x00, 0x00, 0x00, 0x06, 0x2D, 0x09, 0xEA, 0x25, 0x75, 0x0A, 0x41, 0x74, 0xD2, 0x65, 0x8E, 0x20, 0x8A, 0x80, 0x48] := by
  decide +kernel

/-- The rate histogram's code of 1,000,000. -/
theorem test_count_code : countCode 1000000 = 0x4F42 := by decide +kernel

/-- The beat of the scrub example: die 3 read 0x0105 and every other die 0; and the two of the marked die. -/
theorem test_beat_decoding :
    decodeBeat 0xFF [0, 0, 0, 0x0105, 0, 0] = (.corrected 3, [0, 0, 0, 0, 0, 0]) ∧
    (decodeBeat 2 [0, 0, 0x0003, 0, 0, 0x0001]).1 = .uncorrectable ∧ (decodeBeat 0xFF [0, 0, 0x0003, 0, 0, 0x0001]).1 = .uncorrectable := by
  decide +kernel

/-! ### The states the witnesses start from -/

/-- Clocks run in Run. -/
def clk : State := (State.reset.setO Obj.PWR_STATE 3).setO Obj.CLK_STATE 3
/-- The supervisor serves. -/
def srv : State := clk.setO Obj.PWR_BOOT_STEP 0x3FE
/-- A request by the north link, and one by CAN. -/
def q0 : Req := { path := .north, src := 0xFF01#16, tid := 5#8 }
def q1 : Req := { path := .can, src := 0x1234#16, tid := 9#8 }
/-- A description for keys that have none. -/
def noDesc : ObjDesc :=
  { index := 0, count := 1, sub := 0, subs := 1, type := .u8, acc := .ro, cls := .live, dflt := 0, lo := 0, hi := 0,
    expert := false, stored := false }

theorem test_clk_awake : clk.awake = true ∧ srv.served = true ∧ State.reset.awake = false := by decide +kernel

/-- An energy rise puts its channel's clamp flag up and nothing else's. -/
theorem test_overload_sets_one_bit : (clk.overloadSet 37).ob Obj.FE_OVL 37 = true ∧ (clk.overloadSet 37).ob Obj.FE_OVL 36 = false := by
  decide +kernel

/-! ### Witnesses of the statements' hypotheses -/

namespace OverloadFlagsFollowTheNode
theorem witness :
    (∃ (s : State), s.awake = true) :=
  ⟨clk, by decide +kernel⟩
end OverloadFlagsFollowTheNode

namespace DiscriminatorsSettleWithoutAnEdge
def U (x : Chan) : State := { clk.setO (Obj.FE_ENABLE 127) 1 with tick := 9 }.setChan 127 x
theorem witness :
    (∃ (c : Ch) (s : State) (r : Nat), s.awake = true ∧ (s.chan c).releaseAt = some r ∧ r ≤ s.tick ∧ s.en c = true ∧ (s.chan c).timing ≠ .unknown ∧ (s.chan c).energy ≠ .unknown) ∧
    (∃ (c : Ch) (s : State) (r : Nat), s.awake = true ∧ (s.chan c).releaseAt = some r ∧ s.tick < r) ∧
    (∃ (c : Ch) (s : State), s.awake = true ∧ (s.chan c).timing = .unknown) ∧
    (∃ (c : Ch) (s : State), s.awake = true ∧ (s.chan c).energy = .unknown ∧ 240 ≤ s.o (Obj.FE_THR_E c)) ∧
    (∃ (c : Ch) (s : State) (up : Bool), s.awake = true ∧ (s.chan c).energy = .unknown ∧ (up = false ∨ s.o (Obj.FE_THR_E c) < 240)) :=
  ⟨⟨127, (U { releaseAt := some 9 }), 9, by decide +kernel⟩,
   ⟨127, (U { releaseAt := some 10, timing := .low, energy := .high }), 10, by decide +kernel⟩,
   ⟨127, (U { timing := .unknown }), by decide +kernel⟩,
   ⟨127, ((U { energy := .unknown }).setO (Obj.FE_THR_E 127) 240), by decide +kernel⟩,
   ⟨127, (U { energy := .unknown }), false, by decide +kernel⟩⟩
end DiscriminatorsSettleWithoutAnEdge

namespace FrontEndControlsWaitForTheTick
theorem witness :
    (∃ (q : Req) (s : State), s.servedFor q = true ∧ (s.o Obj.PRB_STATE = 0 ∨ s.o Obj.PRB_STATE = 5) ∧ s.o Obj.TDC_RM_STATE ≠ 1 ∧ s.o Obj.ASM_STATE = 0 ∧ s.o Obj.CF_ROLE ≠ 3 ∧ s.o Obj.ASM_STATE ≠ 1) ∧
    (∃ (q : Req) (s : State), s.servedFor q = true ∧ 1 ≤ s.o Obj.PRB_STATE ∧ s.o Obj.PRB_STATE ≤ 4 ∧ s.o Obj.TDC_RM_STATE = 1 ∧ (s.o Obj.ASM_STATE ≠ 0 ∨ s.o Obj.CF_ROLE = 3) ∧ s.o Obj.ASM_STATE = 1) :=
  ⟨⟨q0, srv, by decide +kernel⟩,
   ⟨q0, (((srv.setO Obj.PRB_STATE 1).setO Obj.TDC_RM_STATE 1).setO Obj.ASM_STATE 1), by decide +kernel⟩⟩
end FrontEndControlsWaitForTheTick

namespace HubBuilderAndLaneWritesAreJudged
def E : State := { srv with cufel := { srv.cufel with sessions := [{ path := .north, src := q0.src.toNat }] } }
def B (a b : Nat) (s : State) : State := ((s.setO Obj.BLD_UNIT0 a).setO Obj.BLD_UNIT1 b).setO Obj.BLD_STATE 1
def N (p a : Nat) (i : Nat := 8) : State := (srv.setO (Obj.LN_PSTATE i) p).setO (Obj.LN_ASTATE i) a
theorem witness :
    (∃ (q : Req) (s : State) (v : BitVec 8) (i : Lane), s.servedFor q = true ∧ s.o Obj.CF_ROLE = 2 ∧ s.o Obj.HUB_MODE ≠ 1 ∧ s.isExpert q = true ∧ (s.lockstep = false ∨ s.switchPending = true) ∧ ((s.o Obj.BLD_UNIT0 ≠ 5 ∧ s.o Obj.BLD_UNIT1 ≠ 5) ∨ (s.o Obj.BLD_UNIT0 ≠ 1 ∧ s.o Obj.BLD_UNIT1 ≠ 1)) ∧ s.o Obj.BLD_UNIT0 ≠ 2 ∧ s.o Obj.BLD_UNIT1 ≠ 2 ∧ s.laneUsed i = true ∧ 2 < v.toNat ∧ 8 ≤ i.val ∧ i.val ≤ 16 ∧ s.o (Obj.LN_PSTATE i) ≠ 0) ∧
    (∃ (q : Req) (s : State) (v : BitVec 8) (i : Lane), s.servedFor q = true ∧ s.o Obj.CF_ROLE ≠ 2 ∧ s.isExpert q = true ∧ s.lockstep = true ∧ s.switchPending = false ∧ (s.o Obj.BLD_UNIT0 = 2 ∨ s.o Obj.BLD_UNIT1 = 2) ∧ s.laneUsed i = true ∧ v.toNat ≤ 2 ∧ (i.val < 8 ∨ 16 < i.val)) ∧
    (∃ (q : Req) (s : State), s.servedFor q = true ∧ s.isExpert q = true ∧ ((s.o Obj.BLD_UNIT0 = 1 ∧ s.o Obj.BLD_UNIT1 = 5) ∨ (s.o Obj.BLD_UNIT0 = 5 ∧ s.o Obj.BLD_UNIT1 = 1))) ∧
    (∃ (q : Req) (s : State) (v : BitVec 8), s.servedFor q = true ∧ s.o Obj.CF_ROLE = 2 ∧ s.o Obj.HUB_MODE = 1 ∧ s.lanesOk v.toNat = true) ∧
    (∃ (q : Req) (s : State) (v : BitVec 8), s.servedFor q = true ∧ s.o Obj.CF_ROLE = 2 ∧ s.o Obj.HUB_MODE = 1 ∧ s.lanesOk v.toNat = false) ∧
    (∃ (q : Req) (s : State) (i : Lane), s.servedFor q = true ∧ s.isExpert q = false ∧ s.laneUsed i = false) ∧
    (∃ (q : Req) (s : State) (i : Lane), s.servedFor q = true ∧ 8 ≤ i.val ∧ i.val ≤ 16 ∧ s.o (Obj.LN_PSTATE i) = 0 ∧ (s.o (Obj.LN_ASTATE i) = 4 ∨ s.o (Obj.LN_ASTATE i) = 6) ∧ (s.lane i).scanning = false) :=
  ⟨⟨q0, (E.setO Obj.CF_ROLE 2), 255, 8, by decide +kernel⟩,
   ⟨q0, (B 1 2 E), 2, 0, by decide +kernel⟩,
   ⟨q0, (B 1 5 E), by decide +kernel⟩,
   ⟨q0, ((E.setO Obj.CF_ROLE 2).setO Obj.HUB_MODE 1), 0, by decide +kernel⟩,
   ⟨q0, ((E.setO Obj.CF_ROLE 2).setO Obj.HUB_MODE 1), 255, by decide +kernel⟩,
   ⟨q0, (B 2 1 srv), 17, by decide +kernel⟩,
   ⟨q0, (N 0 4), 8, by decide +kernel⟩⟩
end HubBuilderAndLaneWritesAreJudged

namespace MemoryAndServiceWritesAreJudged
def E : State := { srv with cufel := { srv.cufel with sessions := [{ path := .north, src := q0.src.toNat }] } }
def M (s : State) (st : Nat) : State := ((s.setO Obj.SPM_MARCH_START 0x5FFFF8).setO Obj.SPM_MARCH_LEN 8).setO Obj.SPM_MARCH_STATE st
def K (s : State) (st tg : Nat) : State := (((s.setO Obj.SCB_START 0x5FFFF8).setO Obj.SCB_LEN 8).setO Obj.SCB_STATE st).setO Obj.SCB_TARGET tg
theorem witness :
    (∃ (q : Req) (s : State) (r : RankId), s.servedFor q = true ∧ s.isExpert q = true ∧ (s.o (Obj.DRM_RSTATE r.num) = 3 ∨ s.o (Obj.DRM_RSTATE r.num) = 4) ∧ s.o Obj.SPM_MARCH_START % 8 = 0 ∧ s.o Obj.SPM_MARCH_LEN % 8 = 0 ∧ s.o Obj.SPM_MARCH_LEN ≠ 0 ∧ s.o Obj.SPM_MARCH_START + s.o Obj.SPM_MARCH_LEN ≤ 0x600000 ∧ s.o Obj.SPM_MARCH_STATE ≠ 1 ∧ s.o Obj.PWR_STATE ≠ 2 ∧ s.o Obj.SCB_STATE ≠ 1 ∧ s.o Obj.SCB_STATE ≠ 2 ∧ s.o Obj.SCB_TARGET = 3 ∧ s.o Obj.SCB_START % 8 = 0 ∧ s.o Obj.SCB_LEN % 8 = 0 ∧ s.o Obj.SCB_START + s.o Obj.SCB_LEN ≤ 0x600000) ∧
    (∃ (q : Req) (s : State) (r : RankId), s.servedFor q = true ∧ s.isExpert q = true ∧ s.o (Obj.DRM_RSTATE r.num) ≠ 3 ∧ s.o (Obj.DRM_RSTATE r.num) ≠ 4) ∧
    (∃ (q : Req) (s : State), s.servedFor q = true ∧ s.isExpert q = false ∧ s.marchRange = false ∧ s.o Obj.SPM_MARCH_STATE ≠ 1 ∧ s.o Obj.PWR_STATE = 2) ∧
    (∃ (q : Req) (s : State), s.servedFor q = true ∧ s.o Obj.SPM_MARCH_START % 8 = 0 ∧ s.o Obj.SPM_MARCH_LEN % 8 = 0 ∧ s.o Obj.SPM_MARCH_LEN ≠ 0 ∧ s.o Obj.SPM_MARCH_START + s.o Obj.SPM_MARCH_LEN ≤ 0x600000 ∧ s.o Obj.SPM_MARCH_STATE ≠ 1 ∧ s.o Obj.PWR_STATE = 2) ∧
    (∃ (q : Req) (s : State), s.servedFor q = true ∧ s.o Obj.SPM_MARCH_STATE = 1) ∧
    (∃ (q : Req) (s : State), s.servedFor q = true ∧ s.o Obj.SCB_STATE = 1) ∧
    (∃ (q : Req) (s : State), s.servedFor q = true ∧ s.o Obj.SCB_STATE = 2) :=
  ⟨⟨q0, (E.setO (Obj.DRM_RSTATE 2) 4), .s, by decide +kernel⟩,
   ⟨q0, (E.setO (Obj.DRM_RSTATE 1) 6), .b, by decide +kernel⟩,
   ⟨q0, (((M srv 0).setO Obj.SPM_MARCH_LEN 0).setO Obj.PWR_STATE 2), by decide +kernel⟩,
   ⟨q0, ((M srv 2).setO Obj.PWR_STATE 2), by decide +kernel⟩,
   ⟨q0, (M srv 1), by decide +kernel⟩,
   ⟨q0, (K srv 1 3), by decide +kernel⟩,
   ⟨q0, (K srv 2 3), by decide +kernel⟩⟩
end MemoryAndServiceWritesAreJudged

namespace ServiceWritesAreJudged
def E : State := { srv with cufel := { srv.cufel with sessions := [{ path := .north, src := q0.src.toNat }] } }
def H (n : Nat) (s : State := srv) : State := (s.setO Obj.HK_STATE n).setO Obj.HK_URG_ENTRY 0
theorem witness :
    (∃ (q : Req) (s : State) (v : BitVec 16), s.servedFor q = true ∧ s.o Obj.HK_STATE = 0 ∧ s.o Obj.HK_STATE ≤ 1 ∧ s.o Obj.HK_STATE ≠ 1 ∧ s.o Obj.HK_STATE ≠ 2 ∧ s.o Obj.CF_ROLE ≠ 1 ∧ v.toNat ≤ 0xFFF ∧ s.isExpert q = false) ∧
    (∃ (q : Req) (s : State) (v : BitVec 8), s.servedFor q = true ∧ v.toNat ≤ 1 ∧ v ≠ 1) ∧
    (∃ (q : Req) (s : State) (v : BitVec 8), s.servedFor q = true ∧ s.o Obj.HK_STATE ≠ 0 ∧ 2 ≤ s.o Obj.HK_STATE ∧ 1 < v.toNat ∧ s.isExpert q = true) ∧
    (∃ (q : Req) (s : State) (v : BitVec 16), s.servedFor q = true ∧ s.o Obj.CF_ROLE ≠ 1 ∧ 0xFFF < v.toNat) ∧
    (∃ (q : Req) (s : State), s.servedFor q = true ∧ s.o Obj.CF_ROLE = 1) ∧
    (∃ (q : Req) (s : State), s.servedFor q = true ∧ (s.o Obj.HK_STATE = 1 ∨ s.o Obj.HK_STATE = 2) ∧ hkEntryValid (s.o Obj.HK_MUX_MODE) (s.o Obj.HK_URG_ENTRY) = true) :=
  ⟨⟨q0, (H 0), 0, by decide +kernel⟩,
   ⟨q0, (H 0), 0, by decide +kernel⟩,
   ⟨q0, (H 3 E), 0xFFF, by decide +kernel⟩,
   ⟨q0, (H 3 E), 0x1000, by decide +kernel⟩,
   ⟨q0, (srv.setO Obj.CF_ROLE 1), by decide +kernel⟩,
   ⟨q0, ((H 1).setO Obj.HK_URG_ENTRY 0x10000001000000), by decide +kernel⟩⟩
end ServiceWritesAreJudged

namespace TheProbeCapturesInOrder
def A (st md : Nat) : State := (((clk.setO Obj.PRB_STATE st).setO Obj.PRB_MODE md).setO Obj.PRB_LEVEL 512).setO Obj.PRB_PRE 1
def Pb (s : State) (p : Probe) : State := { s with probe := p }
theorem witness :
    (∃ (s : State) (l : List (Fin 1024)), s.awake = true ∧ s.o Obj.PRB_STATE = 1 ∧ l.length = s.o Obj.PRB_PRE ∧ s.o Obj.PRB_MODE = 0 ∧ (s.o Obj.PRB_STATE ≠ 2 ∨ s.o Obj.PRB_MODE ≠ 0)) ∧
    (∃ (s : State) (l : List (Fin 1024)), s.awake = true ∧ s.o Obj.PRB_STATE = 1 ∧ l.length = s.o Obj.PRB_PRE ∧ s.o Obj.PRB_MODE = 1 ∧ s.probe.fire = none) ∧
    (∃ (s : State) (k : Fin 32) (l : List (Fin 1024)) (p : Nat), s.awake = true ∧ s.o Obj.PRB_STATE = 1 ∧ l.length = s.o Obj.PRB_PRE ∧ s.o Obj.PRB_MODE = 1 ∧ s.probe.fire = some (s.tick, s.xc, p) ∧ 128 * k.val < p) ∧
    (∃ (s : State) (l : List (Fin 1024)), s.awake = true ∧ s.o Obj.PRB_STATE = 1 ∧ l.length = s.o Obj.PRB_PRE ∧ s.o Obj.PRB_MODE = 2) ∧
    (∃ (s : State) (k : Fin 32) (l : List (Fin 1024)) (b : Fin 1024), s.awake = true ∧ s.o Obj.PRB_STATE ≠ 1 ∧ s.o Obj.PRB_STATE = 2 ∧ s.o Obj.PRB_MODE = 0 ∧ 0 < k.val ∧ s.o Obj.PRB_SLOPE = 0 ∧ s.probe.comp = .low ∧ s.probe.last < s.o Obj.PRB_LEVEL ∧ s.o Obj.PRB_LEVEL ≤ b.val ∧ (∀ b ∈ l, b.val < s.o Obj.PRB_LEVEL) ∧ s.o Obj.PRB_STATE ≠ 3 ∧ s.o Obj.PRB_STATE ≠ 4) ∧
    (∃ (s : State) (k : Fin 32) (b : Fin 1024), s.awake = true ∧ s.o Obj.PRB_STATE = 2 ∧ s.o Obj.PRB_MODE = 0 ∧ 0 < k.val ∧ s.o Obj.PRB_SLOPE = 1 ∧ s.probe.comp = .high ∧ s.o Obj.PRB_LEVEL < s.probe.last ∧ b.val ≤ s.o Obj.PRB_LEVEL) ∧
    (∃ (s : State) (l : List (Fin 1024)), s.awake = true ∧ s.o Obj.PRB_STATE = 3 ∧ l.length = 8192) ∧
    (∃ (s : State), s.awake = true ∧ s.o Obj.PRB_STATE = 4 ∧ s.cufel.down = false) ∧
    (∃ (s : State), s.awake = true ∧ s.cufel.down = true) :=
  ⟨⟨(A 1 0), [511], by decide +kernel⟩,
   ⟨(A 1 1), [511], by decide +kernel⟩,
   ⟨(Pb (A 1 1) { fire := some (0, 0, 129) }), 1, [511], 129, by decide +kernel⟩,
   ⟨(A 1 2), [511], by decide +kernel⟩,
   ⟨(Pb (A 2 0) { comp := .low, last := 511 }), 1, [511], 512, by decide +kernel⟩,
   ⟨((Pb (A 2 0) { comp := .high, last := 513 }).setO Obj.PRB_SLOPE 1), 1, 512, by decide +kernel⟩,
   ⟨(A 3 0), (List.replicate 8192 1023), by decide +kernel⟩,
   ⟨(A 4 0), by decide +kernel⟩,
   ⟨({ A 4 0 with cufel := { down := true } }), by decide +kernel⟩⟩
end TheProbeCapturesInOrder

namespace CalibrationRunsFillAndComplete
def cs (x : Slot) (k : CalState) (run : Bool) : State := let s : State := { clk with calUnit := { slots := [x], running := run }, tick := 500000000 }; (s.setChan 3 { s.chan 3 with cal := k, lut := linearLut }).setOb Obj.TDC_CAL_ENABLE 7 true
def x0 : Slot := { ch := 3, hist := List.replicate 160 0, walk := List.replicate 80 0, count := 5, walkCount := 0, random := true, startTick := 0 }
def goodHist : List Nat := List.replicate 128 8192 ++ List.replicate 32 0
def x1 : Slot := { ch := 3, hist := goodHist, walk := List.replicate 64 1024 ++ List.replicate 16 0, count := 2^20, walkCount := 2^16, random := false, startTick := 0 }
theorem witness :
    (∃ (c : Ch) (k : Fin 64) (word : BitVec 160) (s : State), s.awake = true ∧ (s.chan c).timing ≠ .high ∧ s.randomMet c (if k.val < 32 then 32 * s.tick + k else 32 * (s.tick - 1) + (k - 32)) (startTap word.toNat) = false ∧ (((s.slotOf c).any fun x => decide ((x.random = true ∨ x.src = 2 ∨ s.en c = false) ∧ (x.cmask.testBit (k % 32) = true) ∧ (startTap word.toNat < 160) ∧ (x.count < 2 ^ 20))) = true) ∧ ((s.slotOf c).any fun x => decide ((x.src = 0) ∧ (x.count < 2 ^ 16) ∧ (x.startTick + x.quiet ≤ s.tick))) = true) ∧
    (∃ (c : Ch) (k : Fin 64) (word : BitVec 160) (s : State), s.awake = true ∧ (s.chan c).timing ≠ .high ∧ s.randomMet c (if k.val < 32 then 32 * s.tick + k else 32 * (s.tick - 1) + (k - 32)) (startTap word.toNat) = false ∧ ((s.slotOf c).any fun x => decide ((x.random = false) ∧ (x.src ≠ 2) ∧ (s.en c = true) ∧ (x.walkCount < 2 ^ 16))) = true) ∧
    (∃ (c : Ch) (k : Fin 64) (word : BitVec 160) (s : State), s.awake = true ∧ (s.chan c).timing ≠ .high ∧ s.randomMet c (if k.val < 32 then 32 * s.tick + k else 32 * (s.tick - 1) + (k - 32)) (startTap word.toNat) = false ∧ ((s.slotOf c).any fun x => decide ((x.cmask.testBit (k % 32) = false))) = true) ∧
    (∃ (c : Ch) (k : Fin 64) (word : BitVec 160) (s : State), s.awake = true ∧ ((s.chan c).timing = .high ∨ s.randomMet c (if k.val < 32 then 32 * s.tick + k else 32 * (s.tick - 1) + (k - 32)) (startTap word.toNat) = true)) ∧
    (∃ (c : Ch) (s : State), s.awake = true ∧ s.slotOf c = none) :=
  ⟨⟨3, 17, 0x1FF, (cs x0 .accum true), by decide +kernel⟩,
   ⟨3, 17, 0x1FF, ((cs { x0 with random := false } .accum true).setO (Obj.FE_ENABLE 3) 7), by decide +kernel⟩,
   ⟨3, 17, 0x1FF, (cs { x0 with cmask := 2^32-1-2^17 } .accum true), by decide +kernel⟩,
   ⟨3, 63, 0x1FF, ((cs x0 .accum true).setChan 3 { lastStart := some (16000000018, 100) }), by decide +kernel⟩,
   ⟨4, (cs x0 .accum true), by decide +kernel⟩⟩
theorem witness_2 :
    (∃ (c : Ch) (s : State), s.awake = true ∧ ((s.slotOf c).any fun x => decide ((x.count = 2 ^ 20) ∧ (x.walkCount = 2 ^ 16) ∧ ((s.chan c).cal = .accum))) = true) ∧
    (∃ (c : Ch) (s : State), s.awake = true ∧ (((s.slotOf c).any fun x => decide ((s.cufel.down = false) ∧ ((s.chan c).cal = .compute) ∧ (lutChecks 20 x.hist x.walk = true) ∧ (s.shiftExempt c = true ∨ lutShift (lutOf 20 0 x.hist) (s.chan c).lut ≤ s.o Obj.TDC_CAL_SHIFTLIM))) = true)) ∧
    (∃ (s : State), s.awake = true ∧ s.cufel.down = true) ∧
    (∃ (c : Ch) (s : State), s.awake = true ∧ ((s.slotOf c).any fun x => decide ((s.cufel.down = false) ∧ ((s.chan c).cal = .compute) ∧ (lutChecks 20 x.hist x.walk = false))) = true) :=
  ⟨⟨3, (cs x1 .accum true), by decide +kernel⟩,
   ⟨3, (cs x1 .compute true), by decide +kernel⟩,
   ⟨({ cs x1 .compute true with cufel := { down := true } }), by decide +kernel⟩,
   ⟨3, ((cs { x1 with hist := List.replicate 160 7000 } .compute false).setO (Obj.CH_STATUS 3) 32), by decide +kernel⟩⟩
end CalibrationRunsFillAndComplete

namespace ATimingRiseStartsAHitUnlessBusy
def ts (f : Chan → Chan) : State := let s := ((clk.setO Obj.TDC_STATE 2).setO (Obj.FE_ENABLE 7) 7); s.setChan 7 (f { s.chan 7 with timing := .low, lut := linearLut, walk := linearWalk })
def h0 : Hit := { tick := 0, k := 3, toa := 400, te := none, tpulse := false, data := true, minw := 0x14, lut := linearLut, walk := linearWalk, calTap := none, saturated := false }
theorem witness :
    (∃ (c : Ch) (word : BitVec 160) (s : State), s.awake = true ∧ (s.chan c).timing = .low ∧ s.o Obj.TDC_STATE = 2 ∧ s.en c = true ∧ (s.chan c).releaseAt = none ∧ (s.chan c).hit = none ∧ s.lutFix = [] ∧ startTap word.toNat = 160) ∧
    (∃ (c : Ch) (s : State), s.awake = true ∧ (s.chan c).timing = .low ∧ s.o Obj.TDC_STATE = 2 ∧ s.en c = true ∧ (s.chan c).releaseAt = none ∧ (s.chan c).hit ≠ none) ∧
    (∃ (c : Ch) (s : State), s.awake = true ∧ (s.chan c).timing = .unknown) ∧
    (∃ (c : Ch) (s : State), s.awake = true ∧ (s.chan c).timing = .low ∧ s.o Obj.TDC_STATE = 2 ∧ s.en c = true ∧ (s.chan c).releaseAt = none ∧ (s.chan c).hit = none ∧ s.lutFix = []) ∧
    (∃ (s : State) (p : Fin 150), s.awake = true ∧ 0 < p.val) :=
  ⟨⟨7, (BitVec.allOnes 160), (ts id), by decide +kernel⟩,
   ⟨7, (ts fun x => { x with hit := some h0 }), by decide +kernel⟩,
   ⟨7, (ts fun x => { x with timing := .unknown }), by decide +kernel⟩,
   ⟨7, (ts id), by decide +kernel⟩,
   ⟨(ts id), 7, by decide +kernel⟩⟩
end ATimingRiseStartsAHitUnlessBusy

namespace AFallCompletesTheHitAndItsRecordEntersTheChain
def ts (f : Chan → Chan) : State := let s : State := { ((clk.setO Obj.TDC_STATE 2).setO (Obj.FE_ENABLE 7) 7).setO (Obj.CH_HITS 7) 77 with tick := 1000 }; s.setChan 7 (f { s.chan 7 with timing := .high, lut := linearLut, walk := linearWalk })
def h0 : Hit := { tick := 1000, k := 3, toa := 400, te := none, tpulse := false, data := true, minw := 0x14, lut := linearLut, walk := linearWalk, calTap := none, saturated := false }
theorem witness :
    (∃ (c : Ch) (s : State), s.awake = true ∧ (s.chan c).timing = .high ∧ s.o Obj.TDC_STATE = 2 ∧ (s.chan c).hit = none ∧ (s.chan c).energy ≠ .high) ∧
    (∃ (c : Ch) (k : Fin 32) (word : BitVec 160) (s : State), s.awake = true ∧ (s.chan c).timing = .high ∧ s.o Obj.TDC_STATE = 2 ∧ (s.chan c).closing = false ∧ stopTap word.toNat ((s.chan c).startIn (32 * s.tick + k)) = none ∧ (((s.chan c).hit).any fun h => decide ((h.saturated = false) ∧ (h.minw.testBit 15 = true))) = true) ∧
    (∃ (c : Ch) (k : Fin 32) (word : BitVec 160) (s : State), s.awake = true ∧ (s.chan c).timing = .high ∧ s.o Obj.TDC_STATE = 2 ∧ (s.chan c).closing = false ∧ s.lutFix = [] ∧ (s.chan c).chain.length < 4 ∧ (((s.chan c).hit).any fun h => decide ((((stopTap word.toNat ((s.chan c).startIn (32 * s.tick + k))).any fun tap => decide ((h.saturated = false) ∧ (h.data = true) ∧ (h.toa + 8 * max 1 (h.minw % 256) ≤ (32 * (s.tick - h.tick) + k) * 128 + h.lut.getD tap 0) ∧ ((32 * (s.tick - h.tick) + k) * 128 + h.lut.getD tap 0 < h.toa + 8 * 4095))) = true))) = true ∧ (s.chan c).energy = .high) :=
  ⟨⟨7, (ts id), by decide +kernel⟩,
   ⟨7, 4, 0, (ts fun x => { x with hit := some { h0 with minw := 0x8014 } }), by decide +kernel⟩,
   ⟨7, 3, 0xFFFF00000, (ts fun x => { x with hit := some { h0 with toa := 483, minw := 1 }, energy := .high }), by decide +kernel⟩⟩
end AFallCompletesTheHitAndItsRecordEntersTheChain

namespace EnergyEdgesAndSaturationMarkTheHit
def ts (f : Chan → Chan) : State := let s : State := { ((clk.setO Obj.TDC_STATE 2).setO (Obj.FE_ENABLE 7) 7).setO (Obj.CH_HITS 7) 77 with tick := 1000 }; s.setChan 7 (f { s.chan 7 with timing := .high, energy := .low, lut := linearLut, walk := linearWalk })
def h0 : Hit := { tick := 1000, k := 3, toa := 400, te := none, tpulse := false, data := true, minw := 0x14, lut := linearLut, walk := linearWalk, calTap := none, saturated := false }
theorem witness :
    (∃ (c : Ch) (s : State), s.awake = true ∧ 240 ≤ s.o (Obj.FE_THR_E c)) ∧
    (∃ (c : Ch) (s : State), s.awake = true ∧ s.o (Obj.FE_THR_E c) < 240 ∧ (s.chan c).energy = .low ∧ s.o Obj.TDC_STATE = 2 ∧ (s.chan c).timing ≠ .high) ∧
    (∃ (c : Ch) (s : State), s.awake = true ∧ s.o (Obj.FE_THR_E c) < 240 ∧ (s.chan c).energy = .low ∧ s.o Obj.TDC_STATE = 2 ∧ (s.chan c).timing = .high ∧ s.lutFix = [] ∧ (((s.chan c).hit).any fun h => decide ((h.te = none) ∧ (h.saturated = false))) = true ∧ (s.chan c).closing = false ∧ (s.chan c).chain.length < 4 ∧ (((s.chan c).hit).any fun h => decide ((h.saturated = false) ∧ (h.data = true) ∧ (h.toa + 32760 < 4096 * (s.tick + 1 - h.tick)))) = true) ∧
    (∃ (c : Ch) (s : State), s.awake = true ∧ (s.chan c).hit = none) :=
  ⟨⟨7, ((ts fun x => { x with hit := some h0 }).setO (Obj.FE_THR_E 7) 240), by decide +kernel⟩,
   ⟨7, (ts fun x => { x with hit := some h0, timing := .low }), by decide +kernel⟩,
   ⟨7, (ts fun x => { x with hit := some { h0 with tick := 990, calTap := some 3 } }), by decide +kernel⟩,
   ⟨7, (ts fun x => { x with hit := none }), by decide +kernel⟩⟩
end EnergyEdgesAndSaturationMarkTheHit

namespace AnEntryGoesFromChainToFifoToItsSlice
def en (w tag : Nat) (b : Bool := false) : Entry := { word := w, tag := tag, bad := b }
def sl (t cap : Nat) (r : List Nat) : OpenSlice := { kind := .slice, tick := t, x := t, cap := cap, recs := r, ncap := 0, nbud := 0, nup := 0 }
def b0 : State := let s := (({ clk with tick := 1000 }.setO Obj.ASM_CREDIT 5).setO (Obj.GRP_LEVEL 2) 2); { s with asm := { opened := [sl 990 2 [1], sl 991 1 [7], sl 1000 9 []], idle := [995], reports := [990 % 128, 3] } }
def fifo (l : List Entry) : State := b0.setGroup 2 { fifo := l, last := 4 }
theorem witness :
    (∃ (g : Grp) (s : State), s.awake = true ∧ (s.group g).fifo.length ≥ 16) ∧
    (∃ (g : Grp) (s : State), s.awake = true ∧ (((s.group g).fifo.head?).any fun e => decide ((e.bad = false) ∧ (s.tagTick e.tag ∈ s.asm.idle))) = true) ∧
    (∃ (g : Grp) (s : State), s.awake = true ∧ (((s.group g).fifo.head?).any fun e => decide ((e.bad = true))) = true) ∧
    (∃ (g : Grp) (s : State), s.awake = true ∧ (s.group g).fifo.length < 16 ∧ (∀ j : Fin 16, (s.chan (chanOf g j)).chain = []) ∧ (s.group g).fifo = [] ∧ ((s.asm.reports.head?).any fun tag => decide ((s.openAt (s.tagTick tag) = none))) = true) ∧
    (∃ (s : State), s.awake = true ∧ s.asm.reports = []) :=
  ⟨⟨2, (fifo (List.replicate 16 (en 1 2))), by decide +kernel⟩,
   ⟨2, (fifo [en 5 (995 % 128)]), by decide +kernel⟩,
   ⟨2, (fifo [en 5 (990 % 128) true]), by decide +kernel⟩,
   ⟨2, { fifo [] with asm := { opened := [sl 990 2 [1]], idle := [995], reports := [995 % 128] } }, by decide +kernel⟩,
   ⟨{ fifo [] with asm := { reports := [] } }, by decide +kernel⟩⟩
theorem witness_2 :
    (∃ (g : Grp) (h : Grp) (n : Fin 8) (s : State) (i : Fin 16), s.awake = true ∧ (s.group g).fifo.length < 16 ∧ (∀ j : Fin 16, (j.val + 15 * ((s.group g).last + 1)) % 16 < (i.val + 15 * ((s.group g).last + 1)) % 16 → (s.chan (chanOf g j)).chain = []) ∧ (((s.chan (chanOf g i)).chain.head?).any fun e => decide (True)) = true ∧ (((s.chan (chanOf g i)).chain.head?).any fun e => decide (((s.group g).fifo.length + 1 = s.o (Obj.GRP_LEVEL g)))) = true ∧ (g.val + 8 - (s.asm.start + n) % 8) % 8 < (h.val + 8 - (s.asm.start + n) % 8) % 8 ∧ (((s.group g).fifo.head?).any fun e => decide (True)) = true ∧ (((s.group g).fifo.head?).any fun e => decide ((e.bad = false) ∧ (s.tagTick e.tag ∉ s.asm.idle) ∧ (s.openAt (s.tagTick e.tag) = none))) = true ∧ ((s.asm.reports.head?).any fun tag => decide (True)) = true ∧ ((s.asm.reports.head?).any fun tag => decide ((s.openAt (s.tagTick tag) ≠ none))) = true) ∧
    (∃ (g : Grp) (s : State) (i : Fin 16), s.awake = true ∧ (s.group g).fifo.length < 16 ∧ (∀ j : Fin 16, (j.val + 15 * ((s.group g).last + 1)) % 16 < (i.val + 15 * ((s.group g).last + 1)) % 16 → (s.chan (chanOf g j)).chain = []) ∧ (((s.chan (chanOf g i)).chain.head?).any fun e => decide (((s.group g).fifo.length + 1 ≠ s.o (Obj.GRP_LEVEL g)))) = true) :=
  ⟨⟨2, 5, 1, (((fifo [en 1 2]).setChan 35 { chain := [en 7 8, en 8 9] }).setChan 38 { chain := [en 70 8] }), 6, by decide +kernel⟩,
   ⟨2, (((fifo [en 1 2, en 2 3]).setChan 35 { chain := [en 7 8, en 8 9] })), 3, by decide +kernel⟩⟩
end AnEntryGoesFromChainToFifoToItsSlice

namespace ADueSliceClosesIntoTheBufferAndDrains
def sl (t cap nc : Nat) (r : List Nat) : OpenSlice := { kind := .slice, tick := t, x := t, cap := cap, recs := r, ncap := nc, nbud := 0, nup := 0 }
def e0 (l : List OpenSlice) (wc : Nat) (st : Nat) : State := let s := (((((({ clk with tick := 1000 }.setO Obj.ASM_STATE 1).setO Obj.ASM_WINDOW 8).setO Obj.LB_STATE st).setO Obj.XC_COUNT 1000).setO Obj.LB_LATENCY 500).setO (Obj.DRM_RSTATE 0) 3); { s.setMap 0 1 true with asm := { opened := l }, lb := { wc := List.replicate wc 5 } }
theorem witness :
    (∃ (x : OpenSlice) (u : List Upset) (s : State), s.awake = true ∧ s.asm.opened.find? (fun o => o.tick + s.o Obj.ASM_WINDOW ≤ s.tick) = some x ∧ s.lb.switch = none ∧ x.kind ≠ .slice ∧ u = []) ∧
    (∃ (x : OpenSlice) (s : State), s.awake = true ∧ s.asm.opened.find? (fun o => o.tick + s.o Obj.ASM_WINDOW ≤ s.tick) = some x ∧ s.lb.switch ≠ none) ∧
    (∃ (x : OpenSlice) (u : List Upset) (s : State), s.awake = true ∧ s.asm.opened.find? (fun o => o.tick + s.o Obj.ASM_WINDOW ≤ s.tick) = some x ∧ s.lb.switch = none ∧ x.kind = .slice ∧ s.lb.wc.length + (packRecords x.records).length ≤ 32768 ∧ u = [] ∧ 0 < x.ncap + x.nbud + x.nup) ∧
    (∃ (x : OpenSlice) (u : List Upset) (s : State), s.awake = true ∧ s.asm.opened.find? (fun o => o.tick + s.o Obj.ASM_WINDOW ≤ s.tick) = some x ∧ s.lb.switch = none ∧ x.kind = .slice ∧ 32768 < s.lb.wc.length + (packRecords x.records).length ∧ u = []) ∧
    (∃ (p : Nat) (r : Nat) (a : Nat) (s : State), s.awake = true ∧ s.place s.wcBase = .rank p r a ∧ s.o (Obj.DRM_RSTATE r) ≠ 3) ∧
    (∃ (s : State), s.awake = true ∧ (s.asm.opened.all fun o => decide (s.tick < o.tick + s.o Obj.ASM_WINDOW)) = true ∧ (s.lb.drainHeld = true ∨ s.o Obj.LB_STATE = 5 ∨ s.lb.wc.length < 64) ∧ s.place s.wcBase = .nowhere) ∧
    (∃ (p : Nat) (r : Nat) (a : Nat) (s : State), s.awake = true ∧ s.lb.drainHeld = false ∧ s.o Obj.LB_STATE ≠ 5 ∧ 64 ≤ s.lb.wc.length ∧ s.place s.wcBase = .rank p r a ∧ s.o (Obj.DRM_RSTATE r) = 3) :=
  ⟨⟨({ sl 992 5 0 [] with kind := .discarded }), [], (e0 [{ sl 992 5 0 [] with kind := .discarded }, sl 993 5 0 []] 80 1), by decide +kernel⟩,
   ⟨(sl 992 5 0 [1,2,3]), { e0 [sl 992 5 0 [1,2,3]] 80 1 with lb := { switch := some { kind := .enterMaq, from_ := 1000 } } }, by decide +kernel⟩,
   ⟨(sl 992 3 4 [1,2,3 * 2^41]), [], (e0 [sl 992 3 4 [1,2,3 * 2^41], sl 993 5 0 []] 80 3), by decide +kernel⟩,
   ⟨(sl 990 3 4 [1,2,3]), [], (e0 [sl 990 3 4 [1,2,3]] 32760 4), by decide +kernel⟩,
   ⟨1, 1, 0, ((e0 [] 64 1).setO Obj.LB_WPTR 128), by decide +kernel⟩,
   ⟨(e0 [] 164 5), by decide +kernel⟩,
   ⟨0, 0, 0, ((e0 [] 64 1).setO Obj.LB_WPTR 64), by decide +kernel⟩⟩
theorem witness_2 :
    (∃ (a : Nat) (s : State), s.awake = true ∧ s.lb.drainHeld = false ∧ s.o Obj.LB_STATE ≠ 5 ∧ 64 ≤ s.lb.wc.length ∧ s.place s.wcBase = .spm a) :=
  ⟨262144, ((e0 [] 64 4).setO Obj.LB_WPTR 64), by decide +kernel⟩
end ADueSliceClosesIntoTheBufferAndDrains

namespace AGateEndLatchesTheRatesAndAHostLutPends
def r0 : State := { ((srv.setO Obj.TDC_RM_STATE 1).setO Obj.TDC_RM_GATE 100) with rmGate := 1000, tick := 1100 }
def r1 : State := (r0.setChan 5 { rmCnt := 77, rmRem := 3 }).setChan 127 { rmCnt := 2^32-1, cal := .pending }
def ex : State := { r1 with cufel := { r1.cufel with sessions := [{ path := .north, src := 0xFF01 }] } }
theorem witness :
    (∃ (q : Req) (s : State), s.awake = true ∧ s.o Obj.TDC_RM_STATE = 1 ∧ s.rmGate + s.o Obj.TDC_RM_GATE ≤ s.tick ∧ s.rateReading = false ∧ s.servedFor q = true ∧ s.isExpert q = false) ∧
    (∃ (s : State), s.awake = true ∧ (s.o Obj.TDC_RM_STATE ≠ 1 ∨ s.tick < s.rmGate + s.o Obj.TDC_RM_GATE)) ∧
    (∃ (s : State), s.awake = true ∧ s.o Obj.TDC_RM_STATE = 1 ∧ s.rmGate + s.o Obj.TDC_RM_GATE ≤ s.tick ∧ s.rateReading = true) ∧
    (∃ (l : List Byte) (q : Req) (s : State), s.servedFor q = true ∧ s.isExpert q = true ∧ l.length ≠ 160) ∧
    (∃ (l : List Byte) (q : Req) (s : State), s.servedFor q = true ∧ s.isExpert q = true ∧ l.length = 160 ∧ lutValid (l.map BitVec.toNat) = true) ∧
    (∃ (l : List Byte) (q : Req) (s : State), s.servedFor q = true ∧ s.isExpert q = true ∧ l.length = 160 ∧ lutValid (l.map BitVec.toNat) = false) :=
  ⟨⟨q0, r1, by decide +kernel⟩,
   ⟨{ r1 with tick := 1099 }, by decide +kernel⟩,
   ⟨{ r1 with cufel := { r1.cufel with transfers := [{ path := .can, src := 3, index := 0x3820, sub := 1, write := false, data := [], total := 5, prev := none }] } }, by decide +kernel⟩,
   ⟨[], q0, ex, by decide +kernel⟩,
   ⟨(linearLut.map (BitVec.ofNat 8)), q0, ex, by decide +kernel⟩,
   ⟨((linearLut.map (BitVec.ofNat 8)).set 3 (0x80#8)), q0, ex, by decide +kernel⟩⟩
end AGateEndLatchesTheRatesAndAHostLutPends

namespace TheLatencyBufferMigratesAndSwitchesLayout
def m0 : State := let s := (((((clk.setO Obj.LB_STATE 2).setO (Obj.DRM_RSTATE 2) 3).setO (Obj.DRM_RSTATE 0) 3).setO (Obj.DRM_RSTATE 1) 7).setO Obj.LB_MIGPTR 41).setO Obj.LB_FLOOR 10; { s.setMap 0 1 false with lb := { migRank := 1, drainHeld := true, wcSlices := [3,4] }, tick := 900 }
def m1 : State := let s := m0.spareMapped; { s with spm := memPutWord s.spm 160 4 (indexWord 64 1 false false), rankMem := s.rankMem.set 1 (memWrite [] 0 [1,2,3,4,5,6,7,8]) }
def sw (k : SwitchKind) (n : Nat := 900) : PendSwitch := { kind := k, from_ := n }
theorem witness :
    (∃ (s : State), s.awake = true ∧ s.o Obj.LB_STATE = 2 ∧ s.o (Obj.DRM_RSTATE 2) = 3 ∧ s.lb.switch = none ∧ (s.pos0 = s.lb.migRank ∨ s.pos1 = s.lb.migRank)) ∧
    (∃ (s : State), s.awake = true ∧ s.o Obj.LB_STATE = 2 ∧ s.lb.drainHeld = false ∧ s.o Obj.LB_FLOOR < s.o Obj.LB_MIGPTR ∧ (s.o Obj.LB_MIGPTR - 1 < s.o Obj.LB_LOSTBELOW ∨ s.migWords (s.o Obj.LB_MIGPTR - 1) = []) ∧ s.o Obj.LB_LOSTBELOW ≤ s.o Obj.LB_MIGPTR - 1 ∧ s.lb.switch = none) ∧
    (∃ (s : State), s.awake = true ∧ s.o Obj.LB_STATE = 2 ∧ s.lb.drainHeld = false ∧ (s.o Obj.LB_MIGPTR = 0 ∨ s.o Obj.LB_MIGPTR ≤ s.o Obj.LB_FLOOR) ∧ s.o (Obj.DRM_RSTATE s.lb.migRank) = 7) ∧
    (∃ (p : PendSwitch) (s : State), s.awake = true ∧ s.lb.switch = some p ∧ (s.tick < p.from_ ∨ s.o Obj.LB_STATE = 5 ∨ s.asm.closedTick = some s.tick)) ∧
    (∃ (p : PendSwitch) (s : State), s.awake = true ∧ (s.o Obj.LB_STATE ≠ 2 ∨ s.o (Obj.DRM_RSTATE 2) ≠ 3 ∨ s.lb.switch ≠ none) ∧ (s.o Obj.LB_STATE ≠ 2 ∨ s.lb.drainHeld = true) ∧ s.lb.switch = some p ∧ p.from_ ≤ s.tick ∧ s.o Obj.LB_STATE ≠ 5 ∧ s.asm.closedTick ≠ some s.tick ∧ s.switchPlan p.kind = none ∧ s.canServe 0 = false ∧ s.canServe 1 = false ∧ s.canServe 2 = false) ∧
    (∃ (p : PendSwitch) (s : State), s.awake = true ∧ s.canServe 0 = true ∧ s.canServe 1 = true ∧ s.lb.switch = some p ∧ p.from_ ≤ s.tick ∧ s.o Obj.LB_STATE ≠ 5 ∧ s.asm.closedTick ≠ some s.tick ∧ (((s.switchPlan p.kind).any fun m => decide ((p.kind ≠ .loss ∨ m.1 ≠ 3 ∨ s.o (Obj.DRM_RSTATE m.2.1) = 3))) = true)) :=
  ⟨⟨m0, by decide +kernel⟩,
   ⟨m1, by decide +kernel⟩,
   ⟨(m1.setO Obj.LB_MIGPTR 10), by decide +kernel⟩,
   ⟨(sw .loss 901), { m1.setO Obj.LB_STATE 1 with lb := { m1.lb with switch := some (sw .loss 901) } }, by decide +kernel⟩,
   ⟨(sw .leaveMaq), { ((m1.setO (Obj.DRM_RSTATE 2) 8).setO (Obj.DRM_RSTATE 0) 8).setO Obj.LB_STATE 4 with lb := { m1.lb with switch := some (sw .leaveMaq) } }, by decide +kernel⟩,
   ⟨(sw .leaveMaq), { (m1.setO (Obj.DRM_RSTATE 1) 3).setO Obj.LB_STATE 4 with lb := { m1.lb with switch := some (sw .leaveMaq) } }, by decide +kernel⟩⟩
end TheLatencyBufferMigratesAndSwitchesLayout

namespace ATickCountsOpensTheNextSliceAndAppliesWrites
def d0 : State := let s := ((((clk.setO Obj.ASM_STATE 1).setO Obj.XC_COUNT 77).setO Obj.ASM_CREDIT 3065).setO Obj.ASM_CREDIT_RATE 12).setO Obj.ASM_CREDIT_DEPTH 3072; { s with clk := { s.clk with started := true, marker := some 900 }, tick := 900 }
def osl (k : SliceKind) (t : Nat) : OpenSlice := { kind := k, tick := t, x := t, cap := 5, recs := [3, 4], ncap := 0, nbud := 1, nup := 0 }
theorem witness :
    (∃ (c : Ch) (v : Nat) (s : State), s.awake = true ∧ s.inRun = true ∧ s.clk.resume = false ∧ s.power.deferred = [] ∧ s.power.toDisable = [] ∧ s.power.reenable = [] ∧ s.power.parking = none ∧ s.power.reinit = [] ∧ s.frz.thawed = false ∧ s.cufel.tlm = none ∧ s.o Obj.CLK_STATE = 3 ∧ (s.livePend = [] ∨ s.livePend = [(Obj.TDC_MINW c, v)]) ∧ s.lb.switch = none ∧ s.clk.marker = some s.tick ∧ s.due = [] ∧ s.alignPend = none ∧ (s.time.waiting.all fun m => decide (s.tick ≤ m.tick)) = true ∧ (∀ k : Fin 8, s.alarmDue k = false) ∧ s.applied = [] ∧ (∀ x ∈ s.sched, x.tick ≠ s.tick + 1) ∧ s.livePend = [(Obj.TDC_MINW c, v)]) ∧
    (∃ (c : Ch) (v : Nat) (s : State), s.awake = true ∧ s.inRun = true ∧ s.clk.resume = false ∧ s.power.deferred = [] ∧ s.power.toDisable = [] ∧ s.power.reenable = [] ∧ s.power.parking = none ∧ s.power.reinit = [] ∧ s.frz.thawed = false ∧ s.cufel.tlm = none ∧ s.o Obj.CLK_STATE = 3 ∧ (s.livePend = [] ∨ s.livePend = [(Obj.TDC_MINW c, v)]) ∧ s.lb.switch = none ∧ s.clk.marker = some s.tick ∧ s.due = [] ∧ s.alignPend = none ∧ (s.time.waiting.all fun m => decide (s.tick ≤ m.tick)) = true ∧ (∀ k : Fin 8, s.alarmDue k = false) ∧ s.applied = [] ∧ (∀ x ∈ s.sched, x.tick ≠ s.tick + 1) ∧ s.livePend = [] ∧ s.clk.started = true ∧ 2 ^ 48 - 1 ≤ s.xc ∧ s.o Obj.ASM_STATE = 1 ∧ s.o Obj.ASM_STATE ≠ 3) :=
  ⟨⟨5, 9, { d0 with livePend := [(Obj.TDC_MINW 5, 9)], fastOr := { hits := 4 } }, by decide +kernel⟩,
   ⟨5, 9, (d0.setO Obj.XC_COUNT (2^48-1)), by decide +kernel⟩⟩
end ATickCountsOpensTheNextSliceAndAppliesWrites

namespace ATurnMarkerSwapsEveryReadyLut
def pl (r : Option Nat) : PendLut := { lut := linearLut, walk := none, taps := 100, src := 0, madeTick := 5, applied := r }
def u0 : State := let s := (clk.setO Obj.XC_TURN_LEN 100).setO Obj.XC_COUNT 300; let s : State := { s with clk := { s.clk with started := true }, tick := 900, lutFix := [{ ch := 3, walk := false, p := 4 }], calUnit := { running := true } }; ((s.setChan 3 { pend := some (pl (some 0)), cal := .pending }).setChan 4 { host := some { pl none with src := 1 } }).setChan 6 { hostDue := [{ pl (some 899) with src := 1 }, { pl (some 900) with src := 1, taps := 9 }, { pl (some 901) with src := 1 }] } |>.setChan 7 { pend := some { pl (some 0) with walk := some [4] }, hostDue := [{ pl (some 899) with src := 1 }] }
def rs : Sched := { code := 3, tick := 900, tgt := 300, n0 := 400 }
theorem witness :
    (∃ (c : Ch) (s : State), s.awake = true ∧ s.due = [] ∧ s.alignPend = none ∧ s.clk.started = true ∧ s.clk.marker ≠ some s.tick ∧ s.tickNumber % s.o Obj.XC_TURN_LEN = 0 ∧ s.applied = [] ∧ (s.chan c).pend.filter s.swapReady = none ∧ (s.chan c).hostDue.filter s.swapReady = []) ∧
    (∃ (n : Nat) (v : Nat) (s : State), s.awake = true ∧ s.clk.started = true ∧ s.clk.marker ≠ some s.tick ∧ s.tickNumber % s.o Obj.XC_TURN_LEN = 0 ∧ s.applied = [(n, [(Obj.TDC_CAL_EXCLE, v)])] ∧ n ≤ s.tick) ∧
    (∃ (n : Nat) (v : Nat) (s : State), s.awake = true ∧ s.clk.started = true ∧ s.clk.marker ≠ some s.tick ∧ s.tickNumber % s.o Obj.XC_TURN_LEN = 0 ∧ s.applied = [(n, [(Obj.TDC_CAL_EXCLE, v)])] ∧ s.tick < n) ∧
    (∃ (x : Sched) (s : State), s.awake = true ∧ s.due = [x] ∧ x.code = 3 ∧ s.alignPend = none ∧ s.o Obj.PWR_STATE ≠ 4) ∧
    (∃ (s : State), s.awake = true ∧ s.clk.started = true ∧ s.clk.marker ≠ some s.tick ∧ s.tickNumber % s.o Obj.XC_TURN_LEN ≠ 0) ∧
    (∃ (s : State), s.awake = true ∧ (s.clk.started = false ∨ s.clk.marker = some s.tick)) :=
  ⟨⟨4, u0, by decide +kernel⟩,
   ⟨900, 1, { u0 with applied := [(900, [(Obj.TDC_CAL_EXCLE, 1)])] }, by decide +kernel⟩,
   ⟨901, 1, { u0 with applied := [(901, [(Obj.TDC_CAL_EXCLE, 1)])] }, by decide +kernel⟩,
   ⟨rs, { u0.setO Obj.XC_COUNT 301 with sched := [rs] }, by decide +kernel⟩,
   ⟨(u0.setO Obj.XC_COUNT 301), by decide +kernel⟩,
   ⟨{ u0 with clk := { u0.clk with marker := some 900 } }, by decide +kernel⟩⟩
end ATurnMarkerSwapsEveryReadyLut

namespace AnAlarmFiresOnceItsTimeIsReached
def al (act per : Nat) : State := let s := ((((clk.setO (Obj.NT_AL_STATE 2) 1).setO (Obj.NT_AL_TIME 2) 50).setO (Obj.NT_AL_PERIOD 2) per).setO (Obj.NT_AL_ACTION 2) act); { s with nt := 93 * 2^32 }
theorem witness :
    (∃ (k : Fin 8) (s : State), s.awake = true ∧ s.o (Obj.NT_AL_STATE k) = 1 ∧ s.o (Obj.NT_AL_TIME k) ≤ s.nt / 2 ^ 32 ∧ (∀ j : Fin 8, j < k → s.alarmDue j = false) ∧ s.o (Obj.NT_AL_PERIOD k) ≠ 0 ∧ s.o (Obj.NT_AL_ACTION k) % 2 = 0 ∧ s.o (Obj.NT_AL_ACTION k) % 8 = 2 ∧ s.cufel.tlm = none) ∧
    (∃ (k : Fin 8) (s : State), s.awake = true ∧ s.o (Obj.NT_AL_STATE k) = 1 ∧ s.o (Obj.NT_AL_TIME k) ≤ s.nt / 2 ^ 32 ∧ (∀ j : Fin 8, j < k → s.alarmDue j = false) ∧ s.o (Obj.NT_AL_ACTION k) % 8 = 2 ∧ s.cufel.tlm ≠ none) ∧
    (∃ (k : Fin 8) (s : State), s.awake = true ∧ s.o (Obj.NT_AL_STATE k) = 1 ∧ s.o (Obj.NT_AL_TIME k) ≤ s.nt / 2 ^ 32 ∧ (∀ j : Fin 8, j < k → s.alarmDue j = false) ∧ s.o (Obj.NT_AL_PERIOD k) = 0 ∧ s.o (Obj.NT_AL_ACTION k) % 8 = 4 ∧ s.log.staging.length < 16) ∧
    (∃ (k : Fin 8) (s : State), s.awake = true ∧ s.o (Obj.NT_AL_STATE k) = 1 ∧ s.o (Obj.NT_AL_TIME k) ≤ s.nt / 2 ^ 32 ∧ (∀ j : Fin 8, j < k → s.alarmDue j = false) ∧ s.o (Obj.NT_AL_ACTION k) % 2 = 1 ∧ s.o Obj.HK_STATE = 0) ∧
    (∃ (k : Fin 8) (s : State), s.awake = true ∧ (∀ j : Fin 8, j ≤ k → s.o (Obj.NT_AL_STATE j) ≠ 1 ∨ s.nt / 2 ^ 32 < s.o (Obj.NT_AL_TIME j))) ∧
    (∃ (k : Fin 8) (s : State), s.awake = true ∧ s.o (Obj.NT_AL_STATE k) = 1 ∧ s.o (Obj.NT_AL_TIME k) ≤ s.nt / 2 ^ 32 ∧ (∀ j : Fin 8, j < k → s.alarmDue j = false) ∧ s.o (Obj.NT_AL_ACTION k) % 2 = 1 ∧ s.o Obj.HK_STATE = 1 ∧ 0 < s.o Obj.HK_SEQ_LEN ∧ s.ob (Obj.HK_ENTRY 0) 63 = true ∧ hkEntryValid (s.o Obj.HK_MUX_MODE) (s.o (Obj.HK_ENTRY 0)) = true) :=
  ⟨⟨2, (al 2 10), by decide +kernel⟩,
   ⟨2, ({ al 2 10 with cufel := { (al 2 10).cufel with tlm := some (3, 4) } }), by decide +kernel⟩,
   ⟨2, (al 4 0), by decide +kernel⟩,
   ⟨2, (al 7 43), by decide +kernel⟩,
   ⟨2, { al 7 43 with nt := 49 * 2^32 }, by decide +kernel⟩,
   ⟨2, (((al 1 0).setO Obj.HK_STATE 1).setO (Obj.HK_ENTRY 0) (2^63 + 2^52 + 2^24)|>.setO Obj.HK_SEQ_LEN 1), by decide +kernel⟩⟩
theorem witness_2 :
    (∃ (k : Fin 8) (s : State), s.awake = true ∧ s.o (Obj.NT_AL_STATE k) = 1 ∧ s.o (Obj.NT_AL_TIME k) ≤ s.nt / 2 ^ 32 ∧ (∀ j : Fin 8, j < k → s.alarmDue j = false) ∧ s.o (Obj.NT_AL_ACTION k) % 2 = 1 ∧ 2 ≤ s.o Obj.HK_STATE ∧ s.o Obj.HK_START_PEND = 0) ∧
    (∃ (k : Fin 8) (s : State), s.awake = true ∧ s.o (Obj.NT_AL_STATE k) = 1 ∧ s.o (Obj.NT_AL_TIME k) ≤ s.nt / 2 ^ 32 ∧ (∀ j : Fin 8, j < k → s.alarmDue j = false) ∧ s.o (Obj.NT_AL_ACTION k) % 2 = 1 ∧ 2 ≤ s.o Obj.HK_STATE ∧ s.o Obj.HK_START_PEND ≠ 0) ∧
    (∃ (k : Fin 8) (s : State) (j : Fin 8), s.awake = true ∧ j < k ∧ (∀ i : Fin 8, i < k → i ≠ j → s.alarmDue i = false)) :=
  ⟨⟨2, ((al 1 0).setO Obj.HK_STATE 2), by decide +kernel⟩,
   ⟨2, (((al 5 0).setO Obj.HK_STATE 4).setO Obj.HK_START_PEND 1), by decide +kernel⟩,
   ⟨2, (al 0 0), 1, by decide +kernel⟩⟩
end AnAlarmFiresOnceItsTimeIsReached

namespace CommandsEarlyEnoughAreScheduledAndForwarded
def c0 : State := { ((clk.setO Obj.RG_LSTATE 3).setO Obj.XC_COUNT (2^48-3)) with tick := 50 }
def hub0 : State := ((c0.setO Obj.CF_ROLE 2).setO (Obj.HUB_PSTATE 2) 3).setO (Obj.HUB_PSTATE 7) 3
theorem witness :
    (∃ (g : BitVec 48) (code : BitVec 8) (cont : Bool) (s : State), s.awake = true ∧ s.o Obj.RG_LSTATE = 3 ∧ 2 ≤ ((g.toNat + 2 ^ 48 - s.xc) % 2 ^ 48) ∧ ((g.toNat + 2 ^ 48 - s.xc) % 2 ^ 48) < 2 ^ 23 ∧ s.sched.length < 64 ∧ g ≠ BitVec.allOnes 48 ∧ (code = 1 ∨ code = 2 ∨ (code = 3 ∧ cont = true))) ∧
    (∃ (g : BitVec 48) (s : State), s.awake = true ∧ s.o Obj.RG_LSTATE = 3 ∧ (((g.toNat + 2 ^ 48 - s.xc) % 2 ^ 48) < 2 ∨ 2 ^ 23 ≤ ((g.toNat + 2 ^ 48 - s.xc) % 2 ^ 48)) ∧ g ≠ BitVec.allOnes 48) ∧
    (∃ (g : BitVec 48) (code : BitVec 8) (cont : Bool) (s : State), s.awake = true ∧ s.o Obj.RG_LSTATE = 3 ∧ 2 ≤ ((g.toNat + 2 ^ 48 - s.xc) % 2 ^ 48) ∧ ((g.toNat + 2 ^ 48 - s.xc) % 2 ^ 48) < 2 ^ 23 ∧ 64 ≤ s.sched.length ∧ g ≠ BitVec.allOnes 48 ∧ (code = 0 ∨ 4 ≤ code.toNat ∨ (code = 3 ∧ cont = false))) ∧
    (∃ (s : State), s.awake = true ∧ s.o Obj.RG_LSTATE ≠ 3) :=
  ⟨⟨5, 1, true, c0, by decide +kernel⟩,
   ⟨(2^48-2), hub0, by decide +kernel⟩,
   ⟨5, 0xFF, true, { hub0 with sched := List.replicate 64 { code := 2, tick := 9, tgt := 9, n0 := 0 } }, by decide +kernel⟩,
   ⟨(hub0.setO Obj.RG_LSTATE 2), by decide +kernel⟩⟩
end CommandsEarlyEnoughAreScheduledAndForwarded

namespace ATestPulseFireInjectsOnceAndMarksItsCrossing
def sc (a b : Nat) : Sched := { code := a, tick := b, tgt := 3, n0 := 7 }
def f0 : State := { (((clk.setO (Obj.FE_ENABLE 4) 1).setO (Obj.FE_TPULSE 4) 0x105).setO Obj.FE_TP_STEP 0xFFF0) with tick := 50, sched := [sc 1 50, sc 2 50, sc 1 50, sc 1 51] }
theorem witness :
    (∃ (c : Ch) (s : State), s.awake = true ∧ (s.sched.find? fun x => x.tick == s.tick).map (·.code) = some 1 ∧ s.o Obj.PWR_STATE ≠ 4 ∧ s.en c = true ∧ s.ob (Obj.FE_TPULSE c) 8 = true ∧ (s.o Obj.PRB_STATE ≠ 2 ∨ s.o Obj.PRB_MODE ≠ 1)) ∧
    (∃ (c : Ch) (s : State), s.awake = true ∧ (s.sched.find? fun x => x.tick == s.tick).map (·.code) = some 1 ∧ s.o Obj.PWR_STATE ≠ 4 ∧ (s.en c = false ∨ s.ob (Obj.FE_TPULSE c) 8 = false)) ∧
    (∃ (s : State), s.awake = true ∧ ((s.sched.find? fun x => x.tick == s.tick).map (·.code) ≠ some 1 ∨ s.o Obj.PWR_STATE = 4)) ∧
    (∃ (s : State), s.awake = true ∧ (s.sched.find? fun x => x.tick == s.tick).map (·.code) = some 1 ∧ s.o Obj.PWR_STATE ≠ 4 ∧ s.o Obj.PRB_STATE = 2 ∧ s.o Obj.PRB_MODE = 1) :=
  ⟨⟨4, f0, by decide +kernel⟩,
   ⟨5, ((f0.setChan 5 { injected := [3, 50 * 4096 - 4] }).setO Obj.FE_TP_PHASE 4095), by decide +kernel⟩,
   ⟨(f0.setO Obj.PWR_STATE 4), by decide +kernel⟩,
   ⟨((f0.setO Obj.PRB_STATE 2).setO Obj.PRB_MODE 1), by decide +kernel⟩⟩
end ATestPulseFireInjectsOnceAndMarksItsCrossing

namespace TurnsAndResyncsActAtTheirTick
def sc (a b g n : Nat) : Sched := { code := a, tick := b, tgt := g, n0 := n }
def f1 (x : Sched) : State := { ((clk.setO Obj.XC_TURN_LEN 100).setO Obj.XC_COUNT 555) with tick := 50, sched := [x] }
theorem witness :
    (∃ (x : Sched) (s : State), s.awake = true ∧ s.o Obj.PWR_STATE ≠ 4 ∧ s.sched = [x] ∧ x.tick = s.tick ∧ x.code = 2 ∧ x.tgt % s.o Obj.XC_TURN_LEN = 0) ∧
    (∃ (x : Sched) (s : State), s.awake = true ∧ s.o Obj.PWR_STATE ≠ 4 ∧ s.sched = [x] ∧ x.tick = s.tick ∧ x.code = 2 ∧ x.tgt % s.o Obj.XC_TURN_LEN ≠ 0 ∧ 2 * (x.tgt % s.o Obj.XC_TURN_LEN) < s.o Obj.XC_TURN_LEN ∧ x.tgt % s.o Obj.XC_TURN_LEN < 2 ^ 31 ∧ s.o Obj.RG_LSTATE ≠ 3) ∧
    (∃ (s : State), s.awake = true ∧ s.o Obj.PWR_STATE = 4) ∧
    (∃ (x : Sched) (s : State), s.awake = true ∧ s.o Obj.PWR_STATE ≠ 4 ∧ s.sched = [x] ∧ x.tick = s.tick ∧ x.code = 3 ∧ s.alignPend = none ∧ s.clk.resync.map (·.1) ≠ some s.tick ∧ x.n0 ≠ s.xc ∧ s.o Obj.LB_STATE ≠ 0) ∧
    (∃ (x : Sched) (s : State), s.awake = true ∧ s.o Obj.PWR_STATE ≠ 4 ∧ s.sched = [x] ∧ x.tick = s.tick ∧ x.code = 3 ∧ ((s.clk.resync).any fun m => decide ((m.1 = s.tick))) = true) ∧
    (∃ (n : BitVec 48) (s : State), s.awake = true ∧ s.sched = [] ∧ s.o Obj.PWR_STATE ≠ 4 ∧ s.alignPend = some (s.tick, n.toNat) ∧ s.clk.resync.map (·.1) ≠ some s.tick ∧ s.o Obj.RG_LSTATE = 3) ∧
    (∃ (s : State), s.awake = true ∧ s.sched = [] ∧ s.alignPend = none) :=
  ⟨⟨(sc 2 50 300 0), (f1 (sc 2 50 300 0)), by decide +kernel⟩,
   ⟨(sc 2 50 349 0), (f1 (sc 2 50 349 0)), by decide +kernel⟩,
   ⟨((f1 (sc 2 50 351 0)).setO Obj.PWR_STATE 4), by decide +kernel⟩,
   ⟨(sc 3 50 555 71), ((f1 (sc 3 50 555 71)).setO Obj.LB_STATE 1), by decide +kernel⟩,
   ⟨(sc 3 50 555 555), { (f1 (sc 3 50 555 555)) with clk := { (f1 (sc 3 50 555 555)).clk with resync := some (50, 7) } }, by decide +kernel⟩,
   ⟨5, { ((f1 (sc 3 50 555 555)).setO Obj.RG_LSTATE 3) with sched := [], alignPend := some (50, 5) }, by decide +kernel⟩,
   ⟨{ f1 (sc 2 50 300 0) with sched := [] }, by decide +kernel⟩⟩
end TurnsAndResyncsActAtTheirTick

namespace AQueryIsAdmittedThinnedOrRefused
def qw : BitVec 112 := BitVec.ofNat 112 (0x1234 * 2^96 + 77 * 2^70 + 3 * 2^65)
def qs : State := { (((clk.setO Obj.RG_LSTATE 3).setO Obj.CF_ADDR 0x123).setO Obj.XC_COUNT 100).setO Obj.QRY_THIN_LEVEL 128 with tick := 50 }
def qh : State := ((((qs.setO Obj.CF_ROLE 2).setO Obj.HUB_PORT_EN 0x85).setO (Obj.HUB_PSTATE 2) 3).setO (Obj.HUB_PSTATE 7) 3).setO (Obj.HUB_PKIND 7) 2
def ent (n : Nat) : QItem := .entry { q := { qid := n, type := 0, anchor := .past 3, before := 0, after := 0, spanlen := 0, hitlim := 0, mask := 0, totcut := 0, comp := false, cntonly := false, qbusy := false, addr := 7 }, thin := false }
theorem witness :
    (∃ (s : State), s.awake = true ∧ s.o Obj.RG_LSTATE = 3 ∧ s.dataReady = true ∧ s.o Obj.CF_ADDR / 16 ≠ 0xFFF ∧ s.query.lastQid = none ∧ s.query.fill < 256 ∧ s.o Obj.CF_ROLE = 2 ∧ s.o Obj.HUB_MODE = 0) ∧
    (∃ (s : State), s.awake = true ∧ (s.o Obj.RG_LSTATE ≠ 3 ∨ s.dataReady = false)) ∧
    (∃ (s : State), s.awake = true ∧ s.o Obj.RG_LSTATE = 3 ∧ s.dataReady = true ∧ s.o Obj.CF_ADDR / 16 = 0xFFF) ∧
    (∃ (s : State), s.awake = true ∧ s.o Obj.RG_LSTATE = 3 ∧ s.dataReady = true ∧ s.o Obj.CF_ADDR / 16 ≠ 0xFFF ∧ 256 ≤ s.query.fill ∧ (s.query.items.getLast?.map fun x => match x with | .entry _ => true | .run _ _ _ _ => false) = some true) ∧
    (∃ (f : Nat) (l : Nat) (d : Nat) (s : State), s.awake = true ∧ s.o Obj.RG_LSTATE = 3 ∧ s.dataReady = true ∧ s.o Obj.CF_ADDR / 16 ≠ 0xFFF ∧ 256 ≤ s.query.fill ∧ s.query.items.getLast? = some (.run f l d (s.o Obj.CF_ADDR)) ∧ l < 2 ^ 32 - 1 ∧ s.o Obj.CF_ROLE ≠ 2) :=
  ⟨⟨qh, by decide +kernel⟩,
   ⟨(qh.setO Obj.RG_LSTATE 1), by decide +kernel⟩,
   ⟨(qh.setO Obj.CF_ADDR 0xFFFF), by decide +kernel⟩,
   ⟨{ qh with query := { items := List.replicate 256 (ent 4), lastQid := some 0x1235 } }, by decide +kernel⟩,
   ⟨3, 4, 1, { qs with query := { items := List.replicate 256 (ent 4) ++ [.run 3 4 1 0x123], lastQid := some 0x1235 } }, by decide +kernel⟩⟩
end AQueryIsAdmittedThinnedOrRefused

namespace AQueryTakesASlotWaitsFetchesAndPacks
def qu (a : Anchor) (ty : Nat) : Query := { qid := 5, type := ty, anchor := a, before := 2, after := 1, spanlen := 3, hitlim := 1, mask := 2^128-1, totcut := 0, comp := false, cntonly := false, qbusy := false, addr := 7 }
def ent (a : Anchor) (ty : Nat := 0) : QEntry := { q := qu a ty, thin := false }
def Q (l : List QEntry) : State := let s := ((((clk.setO Obj.XC_COUNT 1000).setO Obj.ASM_WINDOW 8).setO Obj.LB_STATE 4).setO Obj.LB_FLOOR 900).setO Obj.LB_LOSTBELOW 905; { s with tick := 50, spm := memPutWord (memPutWord (memWrite [] 0x040040 [1,2,3,4,5,6,7,8,9,10,11,12]) (4*906) 4 (indexWord 64 2 false false)) (4*904) 4 (indexWord 64 2 false false), query := { items := l.map .entry } }
def w0 (x : Int) (v : Verdict) (b : Bool) : Win := { x := x, verdict := v, recs := [], toFetch := b }
def fe (x : Int) (ty : Nat) : QEntry := { ent (.past 906) ty with st := .fetch, slot := some 1, blocks := [3], win := [w0 903 .lost false, w0 x (.stored 2 false 64) true, w0 907 (.stored 2 false 64) (ty == 3)] }
def WI : List (List QEntry) := []
theorem witness :
    (∃ (n : Fin 4) (e : QEntry) (s : State), s.awake = true ∧ s.freeSlot = some n ∧ findEntry (fun e => e.st = .queued && !e.thin) s.query.items = some e ∧ s.windowReady e = false) ∧
    (∃ (n : Fin 4) (e : QEntry) (s : State), s.awake = true ∧ s.freeSlot = some n ∧ findEntry (fun e => e.st = .queued && !e.thin) s.query.items = some e ∧ s.windowReady e = true ∧ e.blocks = [] ∧ (∀ n : Fin 4, ∀ e ∈ s.slotEntry n, e.st ≠ .waiting ∨ s.windowReady e = false) ∧ s.slotEntry n = none) ∧
    (∃ (n : Fin 4) (e : QEntry) (s : State), s.awake = true ∧ (s.freeSlot = none ∨ findEntry (fun e => e.st = .queued && !e.thin) s.query.items = none) ∧ (∀ m : Fin 4, m < n → ∀ e ∈ s.slotEntry m, e.st ≠ .waiting ∨ s.windowReady e = false) ∧ s.slotEntry n = some e ∧ e.st = .waiting ∧ s.windowReady e = true ∧ e.blocks = [] ∧ (e.st ≠ .fetch ∨ e.win.find? (·.toFetch) = none ∨ (s.o Obj.LB_STATE = 5 ∧ s.lb.before ≠ 4))) ∧
    (∃ (n : Fin 4) (e : QEntry) (w : Win) (s : State), s.awake = true ∧ s.slotEntry n = some e ∧ e.st = .fetch ∧ e.win.find? (·.toFetch) = some w ∧ s.fetchStopped = false ∧ (((match w.verdict with | .stored c _ a => some (c, a) | _ => none)).any fun v => decide (True)) = true ∧ ((((match w.verdict with | .stored c _ a => some (c, a) | _ => none)).any fun v => decide ((w.x.toNat < s.o Obj.LB_FLOOR ∨ w.x.toNat < s.o Obj.LB_LOSTBELOW))) = true)) :=
  ⟨⟨0, (ent (.past 995)), (Q [ent (.past 995)]), by decide +kernel⟩,
   ⟨0, (ent (.past 990)), (Q [ent (.past 990)]), by decide +kernel⟩,
   ⟨2, { ent (.past 906) with st := .waiting, slot := some 2 }, (Q [{ ent (.past 906) with st := .waiting, slot := some 2 }]), by decide +kernel⟩,
   ⟨1, (fe 904 0), (w0 904 (.stored 2 false 64) true), (Q [fe 904 0]), by decide +kernel⟩⟩
end AQueryTakesASlotWaitsFetchesAndPacks

namespace BlocksAreAllocatedAndCodedSectionsComplete
def qu : Query := { qid := 5, type := 0, anchor := .past 9, before := 0, after := 0, spanlen := 3, hitlim := 1, mask := 2^128-1, totcut := 0, comp := true, cntonly := false, qbusy := false, addr := 7 }
def sec (k : Nat) : List Byte := (List.range k).flatMap fun i => [0, 0, 0, 0, BitVec.ofNat 8 (if i % 2 = 0 then 0 else 77), BitVec.ofNat 8 (32 * (i % 8))]
def pk (need : Nat) (st : QState) (stop : Bool) (k : Nat) : QEntry := { q := qu, thin := false, st := st, slot := some 2, need := need, stopped := stop, blocks := [4], coded := if stop then List.replicate 4060 1 else [], uncoded := sec k }
def near : QEntry := { pk 0 .pack false 60 with coded := List.replicate 4060 1 }
def P (e : QEntry) : State := { srv with query := { items := [.entry e], pool := [(0, 3), (1, 2), (4, 1)] } }
def full : State := { srv with query := { pool := (List.range 256).map fun i => (i, 1) } }
def c1 : Ctx := { live := true, held := [9, 9, 9], consumed := 12, produced := 4000 }
def C (s : State) (n : Nat) (c : Ctx) (live : Option Nat) : State := let s := s.setCtx n c; { s with cmp := { s.cmp with liveQ := live, liveS := live } }
def fsp (e : QEntry) (c : Ctx) : List Byte × List Byte × List CodedBlock × List CodedBlock := fillSpace e.codeSpace c.held (codeJob c ((sectionWords e.uncoded).drop (c.consumed / 6)))
def nl : Ctx := { live := true }
theorem witness :
    (∃ (n : Fin 4) (b : Nat) (a : PoolAgent) (x : PoolAgent) (y : PoolAgent) (m : BitVec 8) (e : QEntry) (q : Req) (l : List Byte) (s : State), s.awake = true ∧ a ≠ .query ∧ s.freeBlock = some b ∧ s.query.poolWait = [] ∧ (∀ j : Fin 4, j < n → ∀ z ∈ s.slotEntry j, z.need = 0) ∧ s.slotEntry n = some e ∧ e.need = 1 ∧ e.st = .pack ∧ (agentCode x ≤ agentCode a ∧ ∀ z ∈ s.query.poolWait, agentCode x ≤ agentCode z) ∧ s.owner m.toNat ≠ agentCode x ∧ x ≠ y ∧ (s.slotEntry n = none ∨ (s.slotEntry n = some e ∧ (e.st ≠ .pack ∨ e.need ≠ 0))) ∧ s.servedFor q = true ∧ (l.length % 6 ≠ 0 ∨ 3072 < l.length) ∧ (s.o Obj.CMP_TEST_START ≠ 0 ∨ (s.ctx (s.o Obj.CMP_TEST_CTX)).live = false)) ∧
    (∃ (a : PoolAgent) (x : PoolAgent) (m : BitVec 8) (c : Ctx) (q : Req) (l : List Byte) (s : State), s.awake = true ∧ a ≠ .query ∧ s.freeBlock = none ∧ (s.freeBlock = none ∨ (s.query.poolWait = [] ∧ ∀ j : Fin 4, ∀ z ∈ s.slotEntry j, z.need = 0)) ∧ (agentCode x ≤ agentCode a ∧ ∀ z ∈ s.query.poolWait, agentCode x ≤ agentCode z) ∧ s.owner m.toNat = agentCode x ∧ s.blockUsed m.toNat = false ∧ s.servedFor q = true ∧ l.length % 6 = 0 ∧ l.length ≤ 3072 ∧ (if s.o Obj.CMP_TEST_START ≠ 0 then { live := true } else s.ctx (s.o Obj.CMP_TEST_CTX)) = c ∧ c.live = true ∧ (s.o Obj.CMP_TEST_START ≠ 0 ∨ s.cmp.liveS = none ∨ s.cmp.liveS = some (s.o Obj.CMP_TEST_CTX)) ∧ entriesValid c.due c.lossLast (sectionWords l) = true) :=
  ⟨⟨2, 2, .replay, .builder, .query, 0, (pk 1 .pack true 2), q0, [1], (P (pk 1 .pack true 2)), by decide +kernel⟩,
   ⟨.builder, .query, 9, nl, q0, [], { full with query := { full.query with poolWait := [.replay, .supervisor] } }, by decide +kernel⟩⟩
theorem witness_2 :
    (∃ (n : Fin 4) (u : List Upset) (e : QEntry) (c : Ctx) (r : List Byte × List Byte × List CodedBlock × List CodedBlock) (s : State), s.awake = true ∧ s.slotEntry n = some e ∧ e.st = .pack ∧ e.need = 0 ∧ (e.stopped = false ∨ (s.restoreCtx false n u).2 = true) ∧ (if e.stopped then s.ctx n else { live := true }) = c ∧ fillSpace e.codeSpace c.held (codeJob c ((sectionWords e.uncoded).drop (c.consumed / 6))) = r ∧ r.2.1 = [] ∧ r.2.2.1 = []) ∧
    (∃ (a : PoolAgent) (x : PoolAgent) (m : BitVec 8) (s : State), s.awake = true ∧ a ≠ .query ∧ agentCode a < agentCode x ∧ s.query.poolWait = [] ∧ s.owner m.toNat = agentCode x ∧ s.blockUsed m.toNat = false ∧ s.freeBlock = none) ∧
    (∃ (b : Nat) (a : PoolAgent) (x : PoolAgent) (m : BitVec 8) (s : State), s.awake = true ∧ a ≠ .query ∧ agentCode a < agentCode x ∧ s.query.poolWait = [] ∧ s.owner m.toNat = agentCode x ∧ s.blockUsed m.toNat = false ∧ s.freeBlock = some b) ∧
    (∃ (n : Fin 4) (u : List Upset) (e : QEntry) (c : Ctx) (r : List Byte × List Byte × List CodedBlock × List CodedBlock) (s : State), s.awake = true ∧ s.slotEntry n = some e ∧ e.st = .pack ∧ e.need = 0 ∧ (e.stopped = false ∨ (s.restoreCtx false n u).2 = true) ∧ (if e.stopped then s.ctx n else { live := true }) = c ∧ fillSpace e.codeSpace c.held (codeJob c ((sectionWords e.uncoded).drop (c.consumed / 6))) = r ∧ (r.2.1 ≠ [] ∨ r.2.2.1 ≠ [])) :=
  ⟨⟨2, [], (pk 0 .pack false 2), nl, (fsp (pk 0 .pack false 2) nl), (P (pk 0 .pack false 2)), by decide +kernel⟩,
   ⟨.builder, .replay, 9, { full with query := { full.query with pool := (List.range 256).map fun i => (i, if i = 9 then 3 else 1) } }, by decide +kernel⟩,
   ⟨2, .builder, .replay, 9, { full with query := { full.query with pool := [(0, 1), (1, 2), (9, 3)] } }, by decide +kernel⟩,
   ⟨2, [], near, nl, (fsp near nl), (P near), by decide +kernel⟩⟩
theorem witness_3 :
    (∃ (n : Fin 4) (u : List Upset) (e : QEntry) (s : State), s.awake = true ∧ s.slotEntry n = some e ∧ e.st = .pack ∧ e.need = 0 ∧ e.stopped = true ∧ (s.restoreCtx false n u).2 = false) ∧
    (∃ (q : Req) (l : List Byte) (s : State), s.servedFor q = true ∧ l.length % 6 = 0 ∧ l.length ≤ 3072 ∧ s.o Obj.CMP_TEST_START ≠ 0 ∧ entriesValid 0 false (sectionWords l) = false) ∧
    (∃ (u : List Upset) (q : Req) (l : List Byte) (s : State), s.servedFor q = true ∧ l.length % 6 = 0 ∧ l.length ≤ 3072 ∧ s.o Obj.CMP_TEST_START = 0 ∧ (s.ctx (s.o Obj.CMP_TEST_CTX)).live = true ∧ (s.restoreCtx true (s.o Obj.CMP_TEST_CTX) u).2 = false ∧ 4 ≤ s.o Obj.CMP_TEST_CTX ∧ s.o Obj.CMP_TEST_CTX < 16) ∧
    (∃ (q : Req) (l : List Byte) (s : State), s.servedFor q = true ∧ l.length % 6 = 0 ∧ l.length ≤ 3072 ∧ s.o Obj.CMP_TEST_START = 0 ∧ (s.ctx (s.o Obj.CMP_TEST_CTX)).live = false) :=
  ⟨⟨2, [.word 0x5A0200 .double 5], (pk 0 .pack true 30), (C (P (pk 0 .pack true 30)) 2 c1 (some 3)), by decide +kernel⟩,
   ⟨q0, [0xFF,0xFF,0xFF,0xFF,0xFF,0xFF], (full.setO Obj.CMP_TEST_START 1), by decide +kernel⟩,
   ⟨[.word 0x5A0708 .double 5], q0, [0,0,0,0,0,0], (C ((full.setO Obj.CMP_TEST_START 0).setO Obj.CMP_TEST_CTX 7) 7 c1 (some 5)), by decide +kernel⟩,
   ⟨q0, [0,0,0,0,0,0], ((full.setO Obj.CMP_TEST_START 0).setO Obj.CMP_TEST_CTX 7), by decide +kernel⟩⟩
end BlocksAreAllocatedAndCodedSectionsComplete

namespace AnswersLeaveInOrderAndTheMergerPairsThem
def qu : Query := { qid := 5, type := 0, anchor := .past 9, before := 0, after := 0, spanlen := 3, hitlim := 1, mask := 2^128-1, totcut := 0, comp := true, cntonly := false, qbusy := false, addr := 7 }
def en (t : Bool) (st : QState) : QEntry := { q := qu, thin := t, st := st, answer := { bytes := [1,2], len := 2 } }
def rc (l : List Pos) : MRec := { qid := 5, anchor := 9, type := 0, filtered := false, addr := 7, pos := l }
def H (it : List QItem) (rs : List MRec) (sk : Nat := 0) : State := let s := (((clk.setO Obj.CF_ROLE 2).setO Obj.BLD_STATE 1).setO (Obj.HUB_PSTATE 2) 3).setO Obj.HUB_PORT_EN 4; { s with query := { items := it }, hub := { recs := rs, ownSkip := sk } }
def sub : List Byte := bytesLE 16 (0xD02 * 2^116 + 5 * 2^88) ++ bytesLE 8 0
def r1 : MRec := rc [.awaited, .unexpected, .unexpected, .awaited, .unexpected, .unexpected, .closed 1, .unexpected, .unexpected]
def r2 : MRec := rc [.closed 0, .unexpected, .unexpected, .awaited, .unexpected, .unexpected, .closed 1, .unexpected, .unexpected]
def rd : MRec := { r2 with pos := r2.pos.set 3 (.closed 1) }
def r6 : MRec := { r2 with qid := 6 }
theorem witness :
    (∃ (e : QEntry) (rest : List QItem) (s : State), s.awake = true ∧ s.query.items = .entry e :: rest ∧ e.thin = false ∧ e.st ≠ .handoff) ∧
    (∃ (qid : BitVec 16) (k : Port) (e : QEntry) (rest : List QItem) (b : List Byte) (r : MRec) (ls : List MRec) (rs : List MRec) (s : State), s.awake = true ∧ s.o Obj.BLD_STATE ≠ 0 ∧ s.o Obj.PWR_STATE ≠ 4 ∧ s.north.held = false ∧ s.query.items = .entry e :: rest ∧ (e.thin = true ∨ e.st = .handoff) ∧ s.mergeMode = true ∧ 0 < s.hub.ownSkip ∧ s.o (Obj.HUB_PSTATE k) = 3 ∧ ((((if s.o (Obj.HUB_PKIND k) = 2 then some (qid.toNat, Pos.slf32 b) else if headerOk b = true ∧ lengthOk b.length = true then some (headerQid b, .paired { bytes := b, len := b.length }) else none)).any fun x => decide ((s.hub.recs = ls ++ r :: rs) ∧ ((∀ y ∈ ls, y.waits (k + 1) = false ∨ y.qid ≠ x.1)) ∧ (r.waits (k + 1) = true) ∧ (r.qid = x.1))) = true) ∧ s.hub.recs = r :: rs) ∧
    (∃ (e : QEntry) (rest : List QItem) (s : State), s.awake = true ∧ s.o Obj.BLD_STATE ≠ 0 ∧ s.o Obj.PWR_STATE ≠ 4 ∧ s.north.held = false ∧ s.query.items = .entry e :: rest ∧ (e.thin = true ∨ e.st = .handoff) ∧ s.mergeMode = false) ∧
    (∃ (k : Port) (rest : List QItem) (f : Nat) (l : Nat) (d : Nat) (a : Nat) (s : State), s.awake = true ∧ s.o Obj.BLD_STATE ≠ 0 ∧ s.o Obj.PWR_STATE ≠ 4 ∧ s.north.held = false ∧ s.query.items = .run f l d a :: rest ∧ s.mergeMode = false ∧ (s.mergeMode = false ∨ s.o (Obj.HUB_PSTATE k) ≠ 3) ∧ (s.hub.recs = [] ∨ s.o Obj.PWR_STATE = 4)) :=
  ⟨⟨(en false .queued), [], (H [.entry (en false .queued)] []), by decide +kernel⟩,
   ⟨0, 2, (en false .handoff), [.run 1 2 3 4], sub, r1, [], [], (H [.entry (en false .handoff), .run 1 2 3 4] [r1] 2), by decide +kernel⟩,
   ⟨(en false .handoff), [], ((H [.entry (en false .handoff)] []).setO Obj.CF_ROLE 1), by decide +kernel⟩,
   ⟨2, [], 5, 2, 1, 9, ((H [.run 5 2 1 9] []).setO Obj.CF_ROLE 1), by decide +kernel⟩⟩
theorem witness_2 :
    (∃ (rest : List QItem) (f : Nat) (l : Nat) (d : Nat) (a : Nat) (s : State), s.awake = true ∧ s.o Obj.BLD_STATE ≠ 0 ∧ s.o Obj.PWR_STATE ≠ 4 ∧ s.north.held = false ∧ s.query.items = .run f l d a :: rest ∧ s.mergeMode = true ∧ 0 < s.hub.ownSkip) ∧
    (∃ (qid : BitVec 16) (k : Port) (b : List Byte) (bad : Bool) (r : MRec) (ls : List MRec) (rs : List MRec) (s : State), s.awake = true ∧ (s.o Obj.BLD_STATE = 0 ∨ s.o Obj.PWR_STATE = 4 ∨ s.north.held = true ∨ s.query.items = []) ∧ s.mergeMode = true ∧ s.o (Obj.HUB_PSTATE k) = 3 ∧ ((((if s.o (Obj.HUB_PKIND k) = 2 then some (qid.toNat, Pos.slf32 b) else if headerOk b = true ∧ lengthOk b.length = true then some (headerQid b, .paired { bytes := b, len := b.length }) else none)).any fun x => decide (((∀ y ∈ s.hub.recs, y.waits (k + 1) = false ∨ y.qid ≠ x.1)))) = true) ∧ (bad = true ∨ s.o (Obj.HUB_PKIND k) ≠ 2) ∧ (bad = true ∨ headerOk b = false ∨ lengthOk b.length = false) ∧ s.hub.recs = ls ++ r :: rs ∧ (∀ y ∈ ls, y.waits (k + 1) = false) ∧ r.waits (k + 1) = true) ∧
    (∃ (k : Port) (b : List Byte) (bad : Bool) (r : MRec) (ls : List MRec) (rs : List MRec) (s : State), s.awake = true ∧ s.mergeMode = true ∧ s.o (Obj.HUB_PSTATE k) = 3 ∧ (bad = true ∨ s.o (Obj.HUB_PKIND k) ≠ 2) ∧ (bad = true ∨ headerOk b = false ∨ lengthOk b.length = false) ∧ s.hub.recs = ls ++ r :: rs ∧ (∀ y ∈ ls, y.waits (k + 1) = false) ∧ r.waits (k + 1) = true ∧ bad = false) :=
  ⟨⟨[], 5, 2, 1, 9, (H [.run 5 2 1 9] [] 3), by decide +kernel⟩,
   ⟨0, 2, sub, true, r6, [], [], (H [] [r6]), by decide +kernel⟩,
   ⟨2, [1,2], false, r1, [rd], [r2], (H [] [rd, r1, r2]), by decide +kernel⟩⟩
theorem witness_3 :
    (∃ (k : Port) (b : List Byte) (bad : Bool) (s : State), s.awake = true ∧ s.mergeMode = true ∧ s.o (Obj.HUB_PSTATE k) = 3 ∧ (bad = true ∨ s.o (Obj.HUB_PKIND k) ≠ 2) ∧ (bad = true ∨ headerOk b = false ∨ lengthOk b.length = false) ∧ (∀ y ∈ s.hub.recs, y.waits (k + 1) = false)) :=
  ⟨2, [1,2], false, (H [] [rd]), by decide +kernel⟩
end AnswersLeaveInOrderAndTheMergerPairsThem

namespace ClusterPrimitivesAreBuiltAtTheirDeadline
def wt (x : Nat) (g : List (Nat × Nat)) : TpWait := { x := x, word := 0x0C40, got := g }
def T (l : List TpWait) : State := let s := (((((clk.setO Obj.CF_ROLE 2).setO (Obj.HUB_PSTATE 2) 3).setO (Obj.HUB_PSTATE 3) 3).setO Obj.HUB_PORT_EN 0x2C).setO Obj.XC_COUNT 1000).setO Obj.RG_LSTATE 3; { s with hub := { s.hub with tpWait := l } }
theorem witness :
    (∃ (k : Port) (xl : BitVec 6) (x : TpWait) (xs : List TpWait) (s : State), s.awake = true ∧ s.o Obj.CF_ROLE = 2 ∧ s.o (Obj.HUB_PSTATE k) = 3 ∧ ((∃ y ∈ s.hub.tpWait, y.x = s.resolveXlow xl.toNat) ∨ s.ownCrossing (s.resolveXlow xl.toNat) = true) ∧ s.hub.tpWait = x :: xs) ∧
    (∃ (k : Port) (xl : BitVec 6) (late : Bool) (s : State), s.awake = true ∧ (s.o Obj.CF_ROLE ≠ 2 ∨ s.o (Obj.HUB_PSTATE k) ≠ 3 ∨ late = true) ∧ s.o Obj.CF_ROLE = 2 ∧ s.o (Obj.HUB_PSTATE k) = 3 ∧ (∀ y ∈ s.hub.tpWait, y.x ≠ s.resolveXlow xl.toNat) ∧ s.ownCrossing (s.resolveXlow xl.toNat) = false ∧ s.hub.tpWait = []) :=
  ⟨⟨2, (1000 % 64 : Nat), (wt 999 []), [wt 1000 []], (T [wt 999 [], wt 1000 []]), by decide +kernel⟩,
   ⟨2, (990 % 64 : Nat), true, ((T []).setPort 2 { tpWrong := 15 }), by decide +kernel⟩⟩
end ClusterPrimitivesAreBuiltAtTheirDeadline

namespace TheBuildersDecidePartByPart
def pt (k : PartKind) : Part := { a := { bytes := [1,2,3,4,5,6,7,8,9,10,11,12,13,14,15,16], len := 16 }, first := true, last := true, kind := k }
def B (st a u0 u1 : Nat) (l : List Part) : State := let s := ((((clk.setO Obj.BLD_STATE st).setO Obj.BLD_ACTIVE a).setO Obj.BLD_UNIT0 u0).setO Obj.BLD_UNIT1 u1).setO Obj.BLD_RETIRE_LIMIT 2; { s with bld := { parts := l, takeouts := [1, 0] } }
theorem witness :
    (∃ (m : Bool) (fa : Bool) (fs : Bool) (p : Part) (ps : List Part) (s : State), s.awake = true ∧ s.bld.parts = p :: ps ∧ s.o Obj.BLD_STATE ≠ 0 ∧ s.o Obj.BLD_ACTIVE ≤ 1 ∧ s.bld.switch = false ∧ p.kind = .subEvent ∧ p.first = true ∧ p.a.blocks = [] ∧ s.bld.suspect = false ∧ fa = false ∧ m = false ∧ (s.o Obj.BLD_STATE = 1 → fs = false) ∧ s.o Obj.BLD_STATE = 1 ∧ fs = false ∧ s.unit (1 - s.o Obj.BLD_ACTIVE) ≠ 4) ∧
    (∃ (m : Bool) (fa : Bool) (fs : Bool) (p : Part) (ps : List Part) (s : State), s.awake = true ∧ s.bld.parts = p :: ps ∧ s.o Obj.BLD_STATE ≠ 0 ∧ s.o Obj.BLD_ACTIVE ≤ 1 ∧ s.bld.switch = false ∧ s.o Obj.BLD_STATE = 1 ∧ fa = false ∧ fs = false ∧ m = true ∧ s.bld.suspect = false) ∧
    (∃ (fa : Bool) (fs : Bool) (p : Part) (ps : List Part) (s : State), s.awake = true ∧ s.bld.parts = p :: ps ∧ s.o Obj.BLD_STATE ≠ 0 ∧ s.o Obj.BLD_ACTIVE ≤ 1 ∧ s.bld.switch = false ∧ s.o Obj.BLD_STATE = 1 ∧ fa = true ∧ fs = false) ∧
    (∃ (fa : Bool) (fs : Bool) (p : Part) (ps : List Part) (s : State), s.awake = true ∧ s.bld.parts = p :: ps ∧ s.o Obj.BLD_STATE ≠ 0 ∧ s.o Obj.BLD_ACTIVE ≤ 1 ∧ s.bld.switch = false ∧ s.o Obj.BLD_STATE = 1 ∧ fa = false ∧ fs = true) ∧
    (∃ (fa : Bool) (fs : Bool) (p : Part) (ps : List Part) (s : State), s.awake = true ∧ s.bld.parts = p :: ps ∧ s.o Obj.BLD_STATE ≠ 0 ∧ s.o Obj.BLD_ACTIVE ≤ 1 ∧ s.bld.switch = false ∧ s.o Obj.BLD_STATE = 1 ∧ fa = true ∧ fs = true) ∧
    (∃ (n : Fin 2) (s : State), s.awake = true ∧ s.unit n = 3) :=
  ⟨⟨false, false, false, (pt .subEvent), [], (B 1 0 1 2 [pt .subEvent]), by decide +kernel⟩,
   ⟨true, false, false, (pt .subEvent), [], (B 1 0 1 2 [pt .subEvent]), by decide +kernel⟩,
   ⟨true, false, (pt .subEvent), [], (B 1 0 1 2 [pt .subEvent]), by decide +kernel⟩,
   ⟨false, true, (pt .subEvent), [], (B 1 0 1 2 [pt .subEvent]), by decide +kernel⟩,
   ⟨true, true, (pt .subEvent), [], (B 1 1 2 1 [pt .subEvent]), by decide +kernel⟩,
   ⟨0, (B 2 1 3 1 [pt .subEvent]), by decide +kernel⟩⟩
theorem witness_2 :
    (∃ (fa : Bool) (p : Part) (ps : List Part) (n : Fin 2) (s : State), s.awake = true ∧ s.bld.parts = p :: ps ∧ s.o Obj.BLD_STATE ≠ 0 ∧ s.o Obj.BLD_ACTIVE ≤ 1 ∧ s.bld.switch = false ∧ s.o Obj.BLD_STATE ≠ 1 ∧ fa = true ∧ s.unit n ≠ 3 ∧ s.unit (1 - s.o Obj.BLD_ACTIVE) = 4 ∧ s.unit (s.o Obj.BLD_ACTIVE) = 1) ∧
    (∃ (s : State), s.awake = true ∧ (s.bld.parts = [] ∨ s.o Obj.BLD_STATE = 0)) :=
  ⟨⟨true, (pt .subEvent), [], 0, (B 3 1 4 1 [pt .subEvent]), by decide +kernel⟩,
   ⟨(B 3 0 1 4 []), by decide +kernel⟩⟩
end TheBuildersDecidePartByPart

namespace ReceiversAlignTrackAndScan
def A (st : Nat) (i : Nat := 9) : State := let s := (clk.setO (Obj.LN_ASTATE i) st).setO (Obj.LN_PSTATE i) 0; s.setLane i { s.lane i with scanning := true }
def dv : Vector (Fin 4097) 16 := (Vector.replicate 16 3).set 5 9 |>.set 11 9
theorem witness :
    (∃ (i : Lane) (d : Vector (Fin 4097) 16) (m : Fin 16) (e : Fin 4097) (l : Fin 4097) (eye : BitVec 16) (s : State), s.awake = true ∧ isRx i = true ∧ s.o (Obj.LN_PSTATE i) = 0 ∧ s.o (Obj.LN_ASTATE i) = 2 ∧ (∀ j : Fin 16, d.get j ≤ d.get m) ∧ (∀ j : Fin 16, j < m → d.get j < d.get m) ∧ s.o (Obj.LN_ASTATE i) ∈ [2, 3, 4, 6] ∧ l.val + 512 < e.val ∧ s.o (Obj.LN_ASTATE i) ≠ 3 ∧ s.o (Obj.LN_ASTATE i) ≠ 6 ∧ (s.lane i).scanning = true ∧ s.o (Obj.LN_PHASE i) < 16 ∧ eye = BitVec.allOnes 16) ∧
    (∃ (i : Lane) (e : Fin 4097) (l : Fin 4097) (eye : BitVec 16) (s : State), s.awake = true ∧ isRx i = true ∧ s.o (Obj.LN_PSTATE i) = 0 ∧ s.o (Obj.LN_ASTATE i) ≠ 2 ∧ s.o (Obj.LN_ASTATE i) ∈ [2, 3, 4, 6] ∧ e.val + 512 < l.val ∧ s.o (Obj.LN_ASTATE i) = 3 ∧ (s.lane i).scanning = true ∧ s.o (Obj.LN_PHASE i) < 16 ∧ bit eye.toNat (s.o (Obj.LN_PHASE i)) = true ∧ eye ≠ BitVec.allOnes 16) ∧
    (∃ (i : Lane) (e : Fin 4097) (l : Fin 4097) (eye : BitVec 16) (s : State), s.awake = true ∧ isRx i = true ∧ s.o (Obj.LN_PSTATE i) = 0 ∧ e.val ≤ l.val + 512 ∧ l.val ≤ e.val + 512 ∧ s.o (Obj.LN_ASTATE i) = 6 ∧ (s.lane i).scanning = true ∧ bit eye.toNat (s.o (Obj.LN_PHASE i)) = false) ∧
    (∃ (i : Lane) (s : State), s.awake = true ∧ isRx i = true ∧ s.o (Obj.LN_PSTATE i) = 0 ∧ s.o (Obj.LN_ASTATE i) ∉ [2, 3, 4, 6]) ∧
    (∃ (i : Lane) (s : State), s.awake = true ∧ (isRx i = false ∨ s.o (Obj.LN_PSTATE i) ≠ 0) ∧ (s.lane i).scanning = false) :=
  ⟨⟨9, dv, 5, 4000, 3000, 0xFFFF, (A 2), by decide +kernel⟩,
   ⟨9, 3000, 4000, 0x0101, ((A 3).setO (Obj.LN_PHASE 9) 8), by decide +kernel⟩,
   ⟨9, 3512, 4000, 0xFFFE, (A 6), by decide +kernel⟩,
   ⟨9, (A 1), by decide +kernel⟩,
   ⟨9, (clk.setO (Obj.LN_ASTATE 9) 2), by decide +kernel⟩⟩
end ReceiversAlignTrackAndScan

namespace LaneEventsTakeTheLinksWithThem
def A (st ps : Nat) (i : Nat := 9) : State := let s := (((srv.setO (Obj.LN_ASTATE i) st).setO (Obj.LN_PSTATE i) ps).setO Obj.CF_ROLE 2).setO Obj.RG_LSTATE 3; s
def ex (s : State) : State := { s with cufel := { s.cufel with sessions := [{ path := .north, src := 0xFF01 }] } }
theorem witness :
    (∃ (i : Lane) (n : Fin 2) (q : Req) (s : State), s.awake = true ∧ isRx i = true ∧ s.o (Obj.LN_PSTATE i) = 0 ∧ (s.lane i).los = false ∧ i = 8 ∧ s.o Obj.RG_LSTATE = 3 ∧ s.o (Obj.LN_PSTATE i) ≠ 2 ∧ (s.lane i).lol = false ∧ s.o Obj.CLK_STATE = 3 ∧ n = 1 ∧ s.o (Obj.LN_PSTATE 8) = 0 ∧ s.laneWant 8 = 0 ∧ (s.lane 8).lol = false ∧ s.o (Obj.LN_ASTATE i) = 4 ∧ (isRx i = true ∨ s.o (Obj.LN_PSTATE i) ≠ 0) ∧ (s.o (Obj.LN_PSTATE i) ≠ 2 ∨ s.laneWant i = 2) ∧ (s.o (Obj.LN_PSTATE i) ≠ 1 ∨ s.laneWant i ≠ 0) ∧ s.servedFor q = true ∧ s.isExpert q = false) ∧
    (∃ (i : Lane) (s : State), s.awake = true ∧ s.o (Obj.LN_PSTATE i) = 1 ∧ s.laneWant i = 0 ∧ isRx i = true ∧ s.o (Obj.LN_ASTATE i) = 5 ∧ s.o (Obj.LN_TEST i) = 0) ∧
    (∃ (i : Lane) (s : State), s.awake = true ∧ s.o (Obj.LN_PSTATE i) = 1 ∧ s.laneWant i = 0 ∧ isRx i = true ∧ (s.o (Obj.LN_ASTATE i) ≠ 5 ∨ s.o (Obj.LN_TEST i) ≠ 0)) ∧
    (∃ (i : Lane) (s : State), s.awake = true ∧ s.o (Obj.LN_PSTATE i) = 2 ∧ s.laneWant i ≠ 2 ∧ isRx i = true) ∧
    (∃ (i : Lane) (s : State), s.awake = true ∧ s.o (Obj.LN_PSTATE i) = 1 ∧ s.laneWant i = 0 ∧ isRx i = false) ∧
    (∃ (i : Lane) (q : Req) (v : BitVec 8) (s : State), s.awake = true ∧ (isRx i = false ∨ s.o (Obj.LN_PSTATE i) ≠ 0 ∨ (s.lane i).los = true) ∧ isRx i = false ∧ (s.o (Obj.LN_PSTATE i) = 2 ∨ (s.lane i).lol = true) ∧ (isRx i = false ∨ s.o (Obj.LN_PSTATE i) ≠ 0 ∨ s.o (Obj.LN_ASTATE i) ≠ 4) ∧ s.o (Obj.LN_PSTATE i) = 2 ∧ s.laneWant i ≠ 2 ∧ s.servedFor q = true ∧ s.isExpert q = true ∧ v.toNat ≤ 2) :=
  ⟨⟨8, 1, q0, (A 4 0 8), by decide +kernel⟩,
   ⟨8, ((A 5 1 8).setO Obj.RG_LSTATE 0), by decide +kernel⟩,
   ⟨8, (((A 5 1 8).setO Obj.RG_LSTATE 0).setO (Obj.LN_TEST 8) 2), by decide +kernel⟩,
   ⟨8, ((A 1 2 8).setO Obj.RG_LSTATE 2), by decide +kernel⟩,
   ⟨0, (ex (A 1 1 0)), by decide +kernel⟩,
   ⟨0, q0, 1, (ex (A 1 2 0)), by decide +kernel⟩⟩
theorem witness_2 :
    (∃ (i : Lane) (q : Req) (v : BitVec 8) (s : State), s.awake = true ∧ s.o (Obj.LN_PSTATE i) ≠ 2 ∧ (s.lane i).lol = false ∧ isRx i = false ∧ s.o (Obj.LN_PSTATE i) = 0 ∧ s.servedFor q = true ∧ s.isExpert q = true ∧ 2 < v.toNat) ∧
    (∃ (s : State), s.awake = true ∧ s.o Obj.CLK_STATE ≠ 3) :=
  ⟨⟨0, q0, 3, (ex (A 2 0 0)), by decide +kernel⟩,
   ⟨(ex ((A 2 0 17).setO Obj.CLK_STATE 4)), by decide +kernel⟩⟩
end LaneEventsTakeTheLinksWithThem

namespace CapsStatusAndRowsRunTheLink
def hb : State := let s := (((clk.setO Obj.CF_ROLE 2).setO (Obj.HUB_PSTATE 2) 3).setO (Obj.HUB_PSTATE 3) 1); s.setPort 2 { align := some true }
def cp : BitVec 56 := BitVec.ofNat 56 (3 * 2^52 + 2^50 + 0xFF * 2^42 + 3 * 2^26 + 7 * 2^22 + 2 * 2^7)
def C1 : State := (((((hb.setO Obj.RG_LSTATE 1).setO (Obj.LN_ASTATE 8) 4).setO (Obj.LN_PSTATE 8) 0).setO Obj.RG_BUNDLE_REQ 0xFF).setO (Obj.LN_PSTATE 0) 0)
def C2 : State := C1.setCaps .north { partner := some cp.toNat, seen := 2, sentTwo := true }
def ag : Agreed := (agree (C2.capsContent .north) cp.toNat).getD ⟨0,0,0,0⟩
theorem witness :
    (∃ (j : Fin 8) (k : Port) (l : LinkId) (c : BitVec 56) (a : Agreed) (b : Bool) (s : State), s.awake = true ∧ s.linkState l = 1 ∧ (l = .north ∨ l = .south k) ∧ s.o Obj.RG_LSTATE = 1 ∧ s.north.caps.partner = some c.toNat ∧ s.north.caps.seen = 2 ∧ s.north.caps.sentTwo = true ∧ bits c.toNat 8 7 = 2 ∧ agree (s.capsContent .north) c.toNat = some a ∧ a.rate ≠ s.north.rate ∧ s.capsWaits .north = false ∧ s.locked 8 = true ∧ s.laneWant 8 = 0 ∧ s.isUp l = false ∧ (l ≠ .north ∨ s.o Obj.RG_LSTATE ≠ 3) ∧ (s.o Obj.RG_LSTATE ≠ 3 ∨ bit s.eligible j = false ∨ s.ob Obj.RG_LANEMAP j = true) ∧ (s.northSends = false ∨ s.sendsRows = false) ∧ s.sendsRows = false ∧ s.repartDue = true ∧ (s.tx .north).held = [] ∧ (s.o Obj.CF_ROLE ≠ 2 ∨ s.o (Obj.HUB_PSTATE k) ≠ 1 ∨ s.locked (9 + k) = true) ∧ (s.port k).align = some b ∧ s.o (Obj.HUB_PSTATE k) = 3) ∧
    (∃ (c : BitVec 56) (a : Agreed) (s : State), s.awake = true ∧ s.o Obj.RG_LSTATE = 1 ∧ s.north.caps.partner = some c.toNat ∧ s.north.caps.seen = 2 ∧ s.north.caps.sentTwo = true ∧ bits c.toNat 8 7 = 2 ∧ agree (s.capsContent .north) c.toNat = some a ∧ s.capsWaits .north = true) ∧
    (∃ (j : Fin 8) (l : LinkId) (s : State), s.awake = true ∧ (s.linkState l ≠ 1 ∨ l = .pass j) ∧ s.isUp l = true ∧ (l = .north ∨ l = .pass j) ∧ s.o Obj.RG_LSTATE = 3 ∧ bit s.eligible j = true ∧ s.ob Obj.RG_LANEMAP j = false ∧ (s.o Obj.RG_LSTATE = 0 ∨ (s.o Obj.RG_LSTATE = 3 ∧ s.o Obj.RG_VERSION ≠ 1)) ∧ s.northSends = true ∧ s.sendsRows = true) :=
  ⟨⟨0, 2, .north, cp, ag, true, C2, by decide +kernel⟩,
   ⟨cp, ag, { C2 with out := [.block .north 0x33 [5]] }, by decide +kernel⟩,
   ⟨0, .north, ({ C2 with north := { C2.north with agreed := 3, rxlock := some 1 } }.setO Obj.RG_LSTATE 3), by decide +kernel⟩⟩
theorem witness_2 :
    (∃ (k : Port) (s : State), s.awake = true ∧ s.o (Obj.RG_SSTATE k) = 3) ∧
    (∃ (j : Fin 8) (k : Port) (l : LinkId) (s : State), s.awake = true ∧ (l = .pass j ∨ s.linkState l = 0 ∨ s.linkState l = 2) ∧ s.o Obj.RG_LSTATE = 1 ∧ s.north.caps.partner = none ∧ s.north.caps.seen = 0 ∧ s.north.caps.sentTwo = false ∧ s.o Obj.CF_ROLE = 2 ∧ s.o (Obj.HUB_PSTATE k) = 1 ∧ s.locked (9 + k) = false ∧ ((s.port k).align = none ∨ s.o (Obj.HUB_PSTATE k) ≠ 3)) ∧
    (∃ (s : State), s.awake = true ∧ (s.repartDue = false ∨ (s.tx .north).held ≠ [])) ∧
    (∃ (j : Fin 8) (s : State), s.awake = true ∧ bit s.passWanted j = true ∧ s.sends j = true ∧ s.sendsRows = true) :=
  ⟨⟨2, ((C1.setO (Obj.RG_SSTATE 2) 3).setO Obj.RG_LSTATE 0), by decide +kernel⟩,
   ⟨0, 3, (.south 3), ({ C1 with north := { C1.north with slotPorts := 8 } }.setO (Obj.RG_SSTATE 3) 2), by decide +kernel⟩,
   ⟨clk, by decide +kernel⟩,
   ⟨5, ((((C1.setO Obj.HUB_MODE 1).setO (Obj.HUB_PT_LANE 2) 5).setO Obj.RG_LSTATE 3).setO (Obj.LN_PSTATE 5) 0), by decide +kernel⟩⟩
end CapsStatusAndRowsRunTheLink

namespace FramesAreAcceptedInOrderOrNaked
def up : State := (srv.setO Obj.RG_LSTATE 3).setO (Obj.RG_SSTATE 2) 3
def dt : List (BitVec 64) := [5, 6]
def sf (seq kind : Nat) : BitVec 56 := BitVec.ofNat 56 (sofContent seq 2 kind true true 0)
def eo (seq kind : Nat) (x : Nat := 0) : BitVec 56 := BitVec.ofNat 56 ((crc32c (frameBytes (sf seq kind).toNat ((dt.map BitVec.toNat).flatMap (bytesLE 8))) ^^^ x) * 2^24 + seq * 2^12)
def U (e : Nat) (h : Bool := false) : State := { up with north := { up.north with rx := { exp := e, nakHold := h, ackDue := h } } }
theorem witness :
    (∃ (sof : BitVec 56) (e : BitVec 56) (d : List (BitVec 64)) (eof : Option (BitVec 56)) (s : State), s.awake = true ∧ s.o Obj.RG_LSTATE = 3 ∧ eof = some e ∧ d.length = bits sof.toNat 43 38 + 1 ∧ bits e.toNat 55 24 = crc32c (frameBytes sof.toNat ((d.map BitVec.toNat).flatMap (bytesLE 8))) ∧ bits e.toNat 23 12 = bits sof.toNat 55 44 ∧ bits sof.toNat 37 36 = 1 ∧ bits sof.toNat 55 44 = s.north.rx.exp ∧ s.mailFull .north ((d.map BitVec.toNat).flatMap (bytesLE 8)) = false) ∧
    (∃ (sof : BitVec 56) (e : BitVec 56) (d : List (BitVec 64)) (eof : Option (BitVec 56)) (s : State), s.awake = true ∧ s.o Obj.RG_LSTATE = 3 ∧ eof = some e ∧ d.length = bits sof.toNat 43 38 + 1 ∧ bits e.toNat 55 24 ≠ crc32c (frameBytes sof.toNat ((d.map BitVec.toNat).flatMap (bytesLE 8)))) ∧
    (∃ (k : Port) (l : LinkId) (sof : BitVec 56) (d : List (BitVec 64)) (eof : Option (BitVec 56)) (s : State), s.awake = true ∧ s.o Obj.RG_LSTATE = 3 ∧ (eof = none ∨ d.length ≠ bits sof.toNat 43 38 + 1) ∧ (l = .north ∨ l = .south k) ∧ s.isUp l = true ∧ (s.rx l).ackDue = true ∧ s.bufferFull l = false) ∧
    (∃ (sof : BitVec 56) (e : BitVec 56) (d : List (BitVec 64)) (eof : Option (BitVec 56)) (s : State), s.awake = true ∧ s.o Obj.RG_LSTATE = 3 ∧ eof = some e ∧ d.length = bits sof.toNat 43 38 + 1 ∧ bits e.toNat 55 24 = crc32c (frameBytes sof.toNat ((d.map BitVec.toNat).flatMap (bytesLE 8))) ∧ bits e.toNat 23 12 = bits sof.toNat 55 44 ∧ bits sof.toNat 37 36 = 1 ∧ 1024 < (s.north.rx.exp + 4096 - bits sof.toNat 55 44) % 4096) :=
  ⟨⟨(sf 7 1), (eo 7 1), dt, (some (eo 7 1)), (U 7), by decide +kernel⟩,
   ⟨(sf 7 1), (eo 7 1 4), dt, (some (eo 7 1 4)), (U 7), by decide +kernel⟩,
   ⟨2, .north, (sf 7 1), dt, none, (U 7 true), by decide +kernel⟩,
   ⟨(sf 7 1), (eo 7 1), dt, (some (eo 7 1)), (U 6), by decide +kernel⟩⟩
theorem witness_2 :
    (∃ (j : Fin 8) (l : LinkId) (sof : BitVec 56) (e : BitVec 56) (d : List (BitVec 64)) (eof : Option (BitVec 56)) (s : State), s.awake = true ∧ (l = .pass j ∨ s.isUp l = false) ∧ s.o Obj.RG_LSTATE = 3 ∧ eof = some e ∧ d.length = bits sof.toNat 43 38 + 1 ∧ bits e.toNat 55 24 = crc32c (frameBytes sof.toNat ((d.map BitVec.toNat).flatMap (bytesLE 8))) ∧ bits e.toNat 23 12 = bits sof.toNat 55 44 ∧ bits sof.toNat 37 36 = 1 ∧ bits sof.toNat 55 44 = s.north.rx.exp ∧ s.mailFull .north ((d.map BitVec.toNat).flatMap (bytesLE 8)) = true ∧ s.cufel.down = true ∧ (l = .pass j ∨ s.isUp l = false ∨ (s.rx l).ackDue = false ∨ s.bufferFull l = true)) ∧
    (∃ (k : Port) (sof : BitVec 56) (e : BitVec 56) (d : List (BitVec 64)) (eof : Option (BitVec 56)) (s : State), s.awake = true ∧ s.o Obj.RG_LSTATE = 3 ∧ eof = some e ∧ d.length = bits sof.toNat 43 38 + 1 ∧ bits e.toNat 55 24 = crc32c (frameBytes sof.toNat ((d.map BitVec.toNat).flatMap (bytesLE 8))) ∧ bits e.toNat 23 12 = bits sof.toNat 55 44 ∧ bits sof.toNat 37 36 = 1 ∧ (s.north.rx.exp + 4096 - bits sof.toNat 55 44) % 4096 ∈ List.range' 1 1024 ∧ s.o (Obj.RG_SSTATE k) = 3 ∧ bits sof.toNat 55 44 = (s.rx (.south k)).exp ∧ s.mergeMode = true ∧ s.mailFull (.south k) ((d.map BitVec.toNat).flatMap (bytesLE 8)) = false) :=
  ⟨⟨1, (.pass 1), (sf 7 1), (eo 7 1), dt, (some (eo 7 1)), { U 7 true with cufel := { up.cufel with down := true } }, by decide +kernel⟩,
   ⟨2, (sf 0 1), (eo 0 1), dt, (some (eo 0 1)), ((U 7 true).setO Obj.CF_ROLE 2), by decide +kernel⟩⟩
theorem witness_3 :
    (∃ (k : Port) (sof : BitVec 56) (e : BitVec 56) (d : List (BitVec 64)) (eof : Option (BitVec 56)) (s : State), s.awake = true ∧ s.o (Obj.RG_SSTATE k) = 3 ∧ eof = some e ∧ d.length = bits sof.toNat 43 38 + 1 ∧ bits e.toNat 55 24 = crc32c (frameBytes sof.toNat ((d.map BitVec.toNat).flatMap (bytesLE 8))) ∧ bits e.toNat 23 12 = bits sof.toNat 55 44 ∧ bits sof.toNat 37 36 = 1 ∧ bits sof.toNat 55 44 = (s.rx (.south k)).exp ∧ s.mergeMode = true ∧ s.mailFull (.south k) ((d.map BitVec.toNat).flatMap (bytesLE 8)) = true) :=
  ⟨2, (sf 0 1), (eo 0 1), dt, (some (eo 0 1)), { (U 7 true).setO Obj.CF_ROLE 2 with cufel := { up.cufel with down := true } }, by decide +kernel⟩
end FramesAreAcceptedInOrderOrNaked

namespace AcksFreeFramesAndNaksRewind
def up : State := (srv.setO Obj.RG_LSTATE 3).setO Obj.RG_WINDOW 1024
def fr (n : Nat) (t : Option Nat := none) : Frame := { seq := n, kind := 1, first := true, last := true, ndb := 1, crc := crc32c (frameBytes (sofContent n 1 1 true true 0) [1,2,3,4,5,6,7,8]), slot := 0x500000, qid := 0, blocks := [4], again := t }
def W (tx : LinkTx) : State := { up with north := { up.north with tx := tx }, spm := memWrite [] 0x500000 [1,2,3,4,5,6,7,8] }
def mg : Msg := { mtype := 1, alive := 0, tid := 3, dst := 4, src := 5, status := 0, resp := true, body := [1] }
theorem witness :
    (∃ (c : BitVec 56) (f : Frame) (s : State), s.awake = true ∧ s.o Obj.RG_LSTATE = 3 ∧ s.holds .north (bits c.toNat 55 44) = true ∧ bits c.toNat 43 40 = 0 ∧ s.north.tx.held.head? = some f) ∧
    (∃ (f : Frame) (s : State), s.awake = true ∧ s.o Obj.RG_LSTATE = 3 ∧ s.north.tx.ptr ≠ s.north.tx.next ∧ s.north.tx.held.find? (fun g => g.seq == s.north.tx.ptr) = some f ∧ crc32c (frameBytes (sofContent f.seq f.ndb f.kind f.first f.last f.qid) (asRead [] f.slot (memRead s.spm f.slot (8 * f.ndb)))) = f.crc) ∧
    (∃ (m : Msg) (r : List Msg) (s : State), s.awake = true ∧ s.o Obj.RG_LSTATE = 3 ∧ s.north.tx.ptr = s.north.tx.next ∧ s.repartDue = false ∧ s.cufel.outNorth = m :: r ∧ m.bytes.length ≤ s.frameRoom ∧ s.north.tx.held.length < s.windowOf .north) ∧
    (∃ (m : Msg) (r : List Msg) (s : State), s.awake = true ∧ s.o Obj.RG_LSTATE = 3 ∧ s.north.tx.ptr = s.north.tx.next ∧ s.repartDue = false ∧ s.cufel.outNorth = m :: r ∧ m.bytes.length ≤ s.frameRoom ∧ s.windowOf .north ≤ s.north.tx.held.length) ∧
    (∃ (f : Frame) (s : State), s.awake = true ∧ s.o Obj.RG_LSTATE = 3 ∧ s.north.tx.ptr ≠ s.north.tx.next ∧ s.north.tx.held.find? (fun g => g.seq == s.north.tx.ptr) = some f ∧ crc32c (frameBytes (sofContent f.seq f.ndb f.kind f.first f.last f.qid) (asRead [] f.slot (memRead s.spm f.slot (8 * f.ndb)))) ≠ f.crc) :=
  ⟨⟨(5 * 2^44 : Nat), (fr 4), (W { next := 7, held := [fr 4, fr 5, fr 6 (some 3)], ptr := 5 }), by decide +kernel⟩,
   ⟨(fr 4), (W { next := 7, held := [fr 4, fr 5, fr 6], ptr := 4 }), by decide +kernel⟩,
   ⟨mg, [mg], { W { next := 7, held := [], ptr := 7 } with cufel := { up.cufel with outNorth := [mg, mg] } }, by decide +kernel⟩,
   ⟨mg, [mg], { (W { next := 7, held := [fr 4], ptr := 7 }).setO Obj.RG_WINDOW 1 with cufel := { up.cufel with outNorth := [mg, mg] } }, by decide +kernel⟩,
   ⟨{ fr 5 with crc := 3 }, (W { next := 7, held := [fr 4, { fr 5 with crc := 3 }, fr 6 (some 0)], ptr := 5 }), by decide +kernel⟩⟩
theorem witness_2 :
    (∃ (l : LinkId) (c : BitVec 56) (s : State), s.awake = true ∧ s.isUp l = false ∧ s.o Obj.RG_LSTATE = 3 ∧ s.holds .north (bits c.toNat 55 44) = false ∧ (bits c.toNat 43 40 = 0 ∨ 8 ≤ bits c.toNat 43 40) ∧ s.north.tx.held = [] ∧ s.north.tx.ptr = s.north.tx.next ∧ s.repartDue = false ∧ s.cufel.outNorth = [] ∧ s.cufel.relayNorth = [] ∧ s.north.answers = []) :=
  ⟨(.south 3), (9 * 2^44 + 9 * 2^40 : Nat), (W { next := 7, held := [], ptr := 7 }), by decide +kernel⟩
end AcksFreeFramesAndNaksRewind

namespace ReceivedBlocksAreJudgedInOrder
def A (st v : Nat) (win : List Bool) (i : Nat := 9) : State := let s := (clk.setO (Obj.LN_ASTATE i) st).setO (Obj.LN_PSTATE i) 0; s.setLane i { s.lane i with valid := v, window := win, prbsLock := true, prbsReg := 5 }
def fr : RxFrame := { sof := 3, data := [4] }
def dx (p : Nat) : Nat × Nat := throughRegister descrambleBit 64 0 p
def v0 (p : Nat) : Nat := (throughRegister scrambleBit 64 0 p).2
theorem witness :
    (∃ (i : Lane) (b : BitVec 2) (v : BitVec 64) (h : Nat) (x : Nat) (reg : Nat) (raw : Nat) (s : State), s.awake = true ∧ (if s.flag (Obj.LN_POLINV i) then (b.toNat ^^^ 3, v.toNat ^^^ (2 ^ 64 - 1)) else (b.toNat, v.toNat)) = (h, raw) ∧ throughRegister descrambleBit 64 (s.lane i).descr raw = (reg, x) ∧ isRx i = true ∧ s.o (Obj.LN_PSTATE i) = 0 ∧ s.o (Obj.LN_ASTATE i) = 3 ∧ (h = 1 ∨ h = 2) ∧ (s.lane i).valid < 63) ∧
    (∃ (i : Lane) (b : BitVec 2) (v : BitVec 64) (h : Nat) (x : Nat) (reg : Nat) (raw : Nat) (s : State), s.awake = true ∧ (if s.flag (Obj.LN_POLINV i) then (b.toNat ^^^ 3, v.toNat ^^^ (2 ^ 64 - 1)) else (b.toNat, v.toNat)) = (h, raw) ∧ throughRegister descrambleBit 64 (s.lane i).descr raw = (reg, x) ∧ isRx i = true ∧ s.o (Obj.LN_PSTATE i) = 0 ∧ s.o (Obj.LN_ASTATE i) = 3 ∧ (h = 1 ∨ h = 2) ∧ 63 ≤ (s.lane i).valid) ∧
    (∃ (i : Lane) (b : BitVec 2) (v : BitVec 64) (h : Nat) (x : Nat) (reg : Nat) (raw : Nat) (s : State), s.awake = true ∧ (if s.flag (Obj.LN_POLINV i) then (b.toNat ^^^ 3, v.toNat ^^^ (2 ^ 64 - 1)) else (b.toNat, v.toNat)) = (h, raw) ∧ throughRegister descrambleBit 64 (s.lane i).descr raw = (reg, x) ∧ isRx i = true ∧ s.o (Obj.LN_PSTATE i) = 0 ∧ s.o (Obj.LN_ASTATE i) = 3 ∧ (h = 0 ∨ h = 3)) :=
  ⟨⟨9, 1, 5, 1, (dx 5).2, (dx 5).1, 5, (A 3 62 []), by decide +kernel⟩,
   ⟨9, 2, 5, 2, (dx 5).2, (dx 5).1, 5, (A 3 63 []), by decide +kernel⟩,
   ⟨9, 3, 5, 3, (dx 5).2, (dx 5).1, 5, (A 3 63 []), by decide +kernel⟩⟩
theorem witness_2 :
    (∃ (i : Lane) (b : BitVec 2) (v : BitVec 64) (h : Nat) (x : Nat) (reg : Nat) (raw : Nat) (s : State), s.awake = true ∧ (if s.flag (Obj.LN_POLINV i) then (b.toNat ^^^ 3, v.toNat ^^^ (2 ^ 64 - 1)) else (b.toNat, v.toNat)) = (h, raw) ∧ throughRegister descrambleBit 64 (s.lane i).descr raw = (reg, x) ∧ isRx i = true ∧ s.o (Obj.LN_PSTATE i) = 0 ∧ s.o (Obj.LN_ASTATE i) = 4 ∧ ((s.lane i).window.filter (fun v => !v)).length < 15 ∧ h = 1 ∧ (s.rx (laneLink i)).msg = none ∧ (s.rx (laneLink i)).frame = none) ∧
    (∃ (i : Lane) (b : BitVec 2) (v : BitVec 64) (h : Nat) (x : Nat) (reg : Nat) (raw : Nat) (f : RxFrame) (s : State), s.awake = true ∧ (if s.flag (Obj.LN_POLINV i) then (b.toNat ^^^ 3, v.toNat ^^^ (2 ^ 64 - 1)) else (b.toNat, v.toNat)) = (h, raw) ∧ throughRegister descrambleBit 64 (s.lane i).descr raw = (reg, x) ∧ isRx i = true ∧ s.o (Obj.LN_PSTATE i) = 0 ∧ s.o (Obj.LN_ASTATE i) = 4 ∧ ((s.lane i).window.filter (fun v => !v)).length < 15 ∧ h = 1 ∧ (s.rx (laneLink i)).msg = none ∧ (s.rx (laneLink i)).frame = some f) :=
  ⟨⟨9, 1, 5, 1, (dx 5).2, (dx 5).1, 5, (A 4 0 (List.replicate 14 false)), by decide +kernel⟩,
   ⟨8, 1, 5, 1, (dx 5).2, (dx 5).1, 5, fr, ((A 4 0 [] 8).setRx .north { frame := some fr }), by decide +kernel⟩⟩
theorem witness_3 :
    (∃ (i : Lane) (b : BitVec 2) (v : BitVec 64) (h : Nat) (x : Nat) (reg : Nat) (raw : Nat) (s : State), s.awake = true ∧ (if s.flag (Obj.LN_POLINV i) then (b.toNat ^^^ 3, v.toNat ^^^ (2 ^ 64 - 1)) else (b.toNat, v.toNat)) = (h, raw) ∧ throughRegister descrambleBit 64 (s.lane i).descr raw = (reg, x) ∧ isRx i = true ∧ s.o (Obj.LN_PSTATE i) = 0 ∧ s.o (Obj.LN_ASTATE i) = 4 ∧ ((s.lane i).window.filter (fun v => !v)).length < 15 ∧ h = 2 ∧ bits x 7 0 = 0x55 ∧ (s.rx (laneLink i)).msg = none) ∧
    (∃ (i : Lane) (b : BitVec 2) (v : BitVec 64) (h : Nat) (x : Nat) (reg : Nat) (raw : Nat) (s : State), s.awake = true ∧ (if s.flag (Obj.LN_POLINV i) then (b.toNat ^^^ 3, v.toNat ^^^ (2 ^ 64 - 1)) else (b.toNat, v.toNat)) = (h, raw) ∧ throughRegister descrambleBit 64 (s.lane i).descr raw = (reg, x) ∧ isRx i = true ∧ s.o (Obj.LN_PSTATE i) = 0 ∧ s.o (Obj.LN_ASTATE i) = 4 ∧ ((s.lane i).window.filter (fun v => !v)).length < 15 ∧ h = 2 ∧ knownTypes.contains (bits x 7 0) = false) ∧
    (∃ (i : Lane) (b : BitVec 2) (v : BitVec 64) (h : Nat) (x : Nat) (reg : Nat) (raw : Nat) (s : State), s.awake = true ∧ (if s.flag (Obj.LN_POLINV i) then (b.toNat ^^^ 3, v.toNat ^^^ (2 ^ 64 - 1)) else (b.toNat, v.toNat)) = (h, raw) ∧ throughRegister descrambleBit 64 (s.lane i).descr raw = (reg, x) ∧ isRx i = true ∧ s.o (Obj.LN_PSTATE i) = 0 ∧ s.o (Obj.LN_ASTATE i) = 4 ∧ ((s.lane i).window.filter (fun v => !v)).length < 15 ∧ h = 2 ∧ bits x 7 0 = 0x99 ∧ (s.rx (laneLink i)).msg = none) :=
  ⟨⟨8, 2, (BitVec.ofNat 64 (v0 0x55)), 2, (dx (v0 0x55)).2, (dx (v0 0x55)).1, (v0 0x55), ((A 4 0 [] 8).setRx .north { frame := some fr }), by decide +kernel⟩,
   ⟨8, 2, (BitVec.ofNat 64 (v0 0x56)), 2, (dx (v0 0x56)).2, (dx (v0 0x56)).1, (v0 0x56), ((A 4 0 [] 8).setRx .north { frame := some fr, msg := some (0x5A, [3]) }), by decide +kernel⟩,
   ⟨8, 2, (BitVec.ofNat 64 (v0 0x99)), 2, (dx (v0 0x99)).2, (dx (v0 0x99)).1, (v0 0x99), ((A 4 0 [] 8).setRx .north { frame := some fr }), by decide +kernel⟩⟩
theorem witness_4 :
    (∃ (i : Lane) (b : BitVec 2) (v : BitVec 64) (h : Nat) (x : Nat) (reg : Nat) (raw : Nat) (s : State), s.awake = true ∧ (if s.flag (Obj.LN_POLINV i) then (b.toNat ^^^ 3, v.toNat ^^^ (2 ^ 64 - 1)) else (b.toNat, v.toNat)) = (h, raw) ∧ throughRegister descrambleBit 64 (s.lane i).descr raw = (reg, x) ∧ isRx i = true ∧ s.o (Obj.LN_PSTATE i) = 0 ∧ s.o (Obj.LN_ASTATE i) = 4 ∧ ((s.lane i).window.filter (fun v => !v)).length < 15 ∧ (h = 0 ∨ h = 3)) ∧
    (∃ (i : Lane) (b : BitVec 2) (v : BitVec 64) (h : Nat) (x : Nat) (reg : Nat) (raw : Nat) (s : State), s.awake = true ∧ (if s.flag (Obj.LN_POLINV i) then (b.toNat ^^^ 3, v.toNat ^^^ (2 ^ 64 - 1)) else (b.toNat, v.toNat)) = (h, raw) ∧ throughRegister descrambleBit 64 (s.lane i).descr raw = (reg, x) ∧ isRx i = true ∧ s.o (Obj.LN_PSTATE i) = 0 ∧ s.o (Obj.LN_ASTATE i) = 6 ∧ (s.lane i).prbsLock = true) ∧
    (∃ (i : Lane) (b : BitVec 2) (v : BitVec 64) (h : Nat) (x : Nat) (reg : Nat) (raw : Nat) (s : State), s.awake = true ∧ (if s.flag (Obj.LN_POLINV i) then (b.toNat ^^^ 3, v.toNat ^^^ (2 ^ 64 - 1)) else (b.toNat, v.toNat)) = (h, raw) ∧ throughRegister descrambleBit 64 (s.lane i).descr raw = (reg, x) ∧ (isRx i = false ∨ s.o (Obj.LN_PSTATE i) ≠ 0 ∨ s.o (Obj.LN_ASTATE i) ∉ [3, 4, 6])) :=
  ⟨⟨8, 3, 0x99, 3, (dx 0x99).2, (dx 0x99).1, 0x99, ((A 4 0 (List.replicate 14 false) 8).setRx .north { frame := some fr }), by decide +kernel⟩,
   ⟨8, 3, 0x99, 3, (dx 0x99).2, (dx 0x99).1, 0x99, (A 6 0 (List.replicate 14 false) 8), by decide +kernel⟩,
   ⟨3, 3, 0x99, 3, (dx 0x99).2, (dx 0x99).1, 0x99, (A 6 0 (List.replicate 14 false) 3), by decide +kernel⟩⟩
theorem witness_5 :
    (∃ (i : Lane) (b : BitVec 2) (v : BitVec 64) (h : Nat) (x : Nat) (reg : Nat) (raw : Nat) (s : State), s.awake = true ∧ (if s.flag (Obj.LN_POLINV i) then (b.toNat ^^^ 3, v.toNat ^^^ (2 ^ 64 - 1)) else (b.toNat, v.toNat)) = (h, raw) ∧ throughRegister descrambleBit 64 (s.lane i).descr raw = (reg, x) ∧ isRx i = true ∧ s.o (Obj.LN_PSTATE i) = 0 ∧ s.o (Obj.LN_ASTATE i) = 6 ∧ (s.lane i).prbsLock = false) :=
  ⟨9, 1, 5, 1, (dx 5).2, (dx 5).1, 5, ((A 6 0 []).setLane 9 { (A 6 0 []).lane 9 with prbsLock := false }), by decide +kernel⟩
end ReceivedBlocksAreJudgedInOrder

namespace RanksRefreshVerifyTrackAndRetire
def fx : SpmFix := { addr := 16, seen := 5, err := 3 }
def M (st : Nat) (r : Nat := 1) : State := (((clk.setO (Obj.DRM_RSTATE r) st).setO Obj.LB_STATE 1).setMap 0 1 true).setO (Obj.DRM_RSTATE 2) (if r = 2 then st else 4)
theorem witness :
    (∃ (r : RankId) (f : BitVec 6) (s : State), s.awake = true ∧ s.o (Obj.DRM_RSTATE r.num) = 3 ∧ s.inRun = true ∧ s.o (Obj.DRM_DIEMARK r.num) = 0xFF ∧ f = 0) ∧
    (∃ (r : RankId) (temp : BitVec 16) (f : BitVec 6) (j : Fin 6) (ue : List (BitVec 18 × BitVec 64)) (i : Fin 7) (k : Fin 7) (s : State), s.clocked = true ∧ (s.frz.frozen = false ∨ s.frz.noref = false) ∧ s.o Obj.CLK_STATE = 3 ∧ (s.o (Obj.DRM_RSTATE r.num) ∈ [1, 2, 3, 5, 7] ∨ (r = .s ∧ s.o (Obj.DRM_RSTATE 2) = 4 ∧ s.o Obj.SCB_TARGET = 2 ∧ s.o Obj.SCB_STATE ∈ [1, 2])) ∧ 95 < toSigned 16 temp.toNat ∧ s.awake = true ∧ s.o (Obj.DRM_RSTATE r.num) = 5 ∧ s.o (Obj.DRM_DIEMARK r.num) = 0xFF ∧ (f = 0 ∨ f.toNat = 2 ^ j.val) ∧ (s.o (Obj.DRM_RSTATE r.num) ≠ 3 ∨ s.inRun = false) ∧ s.o (Obj.DRM_RSTATE 2) = 4 ∧ s.o (Obj.DRM_DIEMARK 2) = 0xFF ∧ f = 0 ∧ s.memUnit.port = [] ∧ s.memUnit.fix = [] ∧ i ∈ [1, 2, 3, 4, 5] ∧ k ∈ [1, 2, 3, 4, 5] ∧ i < k ∧ ue ≠ []) ∧
    (∃ (r : RankId) (f : BitVec 6) (ue : List (BitVec 18 × BitVec 64)) (s : State), s.awake = true ∧ s.o (Obj.DRM_RSTATE r.num) = 5 ∧ s.o Obj.CLK_STATE = 3 ∧ s.o (Obj.DRM_DIEMARK r.num) = 0xFF ∧ 2 ≤ popcount 6 f.toNat ∧ s.o (Obj.DRM_RSTATE 2) = 4 ∧ s.o (Obj.DRM_DIEMARK 2) = 0xFF ∧ ue = []) :=
  ⟨⟨.b, 0, (M 3), by decide +kernel⟩,
   ⟨.b, 0x0060, 0, 3, [(7, 3), (8, 9)], 1, 5, (M 5), by decide +kernel⟩,
   ⟨.b, 0x18, [], (M 5), by decide +kernel⟩⟩
theorem witness_2 :
    (∃ (r : RankId) (s : State), (s.clocked = false ∨ (s.frz.frozen = true ∧ s.frz.noref = true) ∨ s.o Obj.CLK_STATE ≠ 3 ∨ (s.o (Obj.DRM_RSTATE r.num) ∉ [1, 2, 3, 5, 7] ∧ s.scrubWakes r.num = false)) ∧ s.awake = true ∧ (s.o (Obj.DRM_RSTATE r.num) ∉ [3, 5, 6] ∨ s.o Obj.CLK_STATE ≠ 3) ∧ (s.o (Obj.DRM_RSTATE 2) ≠ 4 ∨ s.o Obj.CLK_STATE ≠ 3)) ∧
    (∃ (r : RankId) (f : BitVec 6) (x : SpmFix) (xs : List SpmFix) (s : State), s.awake = true ∧ s.o (Obj.DRM_RSTATE r.num) = 3 ∧ s.inRun = true ∧ s.o (Obj.DRM_DIEMARK r.num) = 0xFF ∧ 2 ≤ popcount 6 f.toNat ∧ s.memUnit.port = [] ∧ s.memUnit.fix = x :: xs) :=
  ⟨⟨.b, ((M 5).setO Obj.CLK_STATE 4), by decide +kernel⟩,
   ⟨.b, 0x18, fx, [fx], (let s := M 3; { s with spm := memPutWord [] 16 8 5, memUnit := { s.memUnit with fix := [fx, fx] } }), by decide +kernel⟩⟩
end RanksRefreshVerifyTrackAndRetire

namespace MarchesAndScrubPassesEnd
def S3 : State := ((((srv.setO Obj.SCB_STATE 1).setO Obj.SCB_TARGET 3).setO Obj.SCB_START 64).setO Obj.SCB_LEN 640).setO Obj.SCB_NEXT 128
theorem witness :
    (∃ (q : Req) (a : BitVec 23) (s : State), s.awake = true ∧ s.o Obj.SPM_MARCH_STATE ≠ 1 ∧ s.servedFor q = true ∧ s.o Obj.SCB_STATE = 1 ∧ s.o Obj.SCB_TARGET = 3 ∧ s.o Obj.SCB_NEXT ≤ a.toNat / 8 * 8 ∧ a.toNat / 8 * 8 < s.o Obj.SCB_START + s.o Obj.SCB_LEN) ∧
    (∃ (q : Req) (u : List Upset) (x : BitVec 26) (s : State), s.awake = true ∧ s.o Obj.SPM_MARCH_STATE = 1 ∧ (u = [] ∨ s.memUnit.march.destructive = true) ∧ s.memUnit.march.destructive = true ∧ s.memUnit.march.start ≤ x.toNat ∧ x.toNat + 8 ≤ s.memUnit.march.start + s.memUnit.march.len ∧ s.servedFor q = true) ∧
    (∃ (a : BitVec 23) (s : State), s.awake = true ∧ s.o Obj.SPM_MARCH_STATE = 1 ∧ s.memUnit.march.destructive = false ∧ s.memUnit.march.start ≤ a.toNat / 8 * 8 ∧ a.toNat / 8 * 8 < s.memUnit.march.start + s.memUnit.march.len) ∧
    (∃ (s : State), s.awake = true ∧ s.o Obj.SCB_STATE ≠ 1) :=
  ⟨⟨q0, 137, (S3.setO Obj.SCB_FIRST 77), by decide +kernel⟩,
   ⟨q1, [], 8, (let s := S3.setO Obj.SPM_MARCH_STATE 1; { s with soiled := [(0, 64)], spm := memWrite [] 8 [1,2,3,4,5,6,7,8,9], memUnit := { s.memUnit with march := { destructive := true, start := 8, len := 8 } } }), by decide +kernel⟩,
   ⟨12, (let s := S3.setO Obj.SPM_MARCH_STATE 1; { s with spm := memWrite [] 8 [1,2,3,4,5,6,7,8,9], memUnit := { s.memUnit with march := { destructive := false, start := 8, len := 8 } } }), by decide +kernel⟩,
   ⟨(S3.setO Obj.SCB_STATE 2), by decide +kernel⟩⟩
end MarchesAndScrubPassesEnd

namespace TimeMessagesSteerNetworkTime
def tm (st : Bool) (t o : Nat) (k : Nat := 9) : TimeMsg := { master := 5, step := st, time := t, own := o, tick := k }
def N (st : Nat) (l : List TimeMsg) : State := let s := ((((clk.setO Obj.RG_LSTATE 3).setO Obj.NT_STATE st).setO Obj.XC_STATE 1).setO Obj.NT_STEP_LIMIT 1000).setO Obj.NT_MASTER 5; { s with time := { s.time with waiting := l, log := [7, 8, 9] }, tick := 50000000, nt := 3 }
def wd (ma xt : Nat) : BitVec 168 := BitVec.ofNat 168 (ma * 2^152 + 1 * 2^144 + 2^143 + xt * 2^88 + 55 * 2^24 + 3)
theorem witness :
    (∃ (w : BitVec 168) (m : TimeMsg) (r : List TimeMsg) (a : Nat) (s : State), s.awake = true ∧ s.o Obj.RG_LSTATE = 3 ∧ (s.ownTime (bits w.toNat 135 88) = none ∨ bit w.toNat 143 = false ∨ s.o Obj.XC_STATE ≠ 1 ∨ (bits w.toNat 167 152, bits w.toNat 151 144) ∈ s.time.seqs) ∧ s.o Obj.CF_ROLE ≠ 2 ∧ s.time.waiting = m :: r ∧ m.tick < s.tick ∧ m.step = false ∧ s.o Obj.NT_STATE ≠ 0 ∧ ((m.time : Int) - m.own).natAbs ≤ s.o Obj.NT_STEP_LIMIT * 2 ^ 32 ∧ s.time.prev = none ∧ s.o Obj.NT_STATE = 1 ∧ (s.time.accepted = none ∨ (s.time.accepted = some a ∧ s.ticksCover (s.tick - a) (1000 * s.o Obj.NT_HOLDOVER) = true))) ∧
    (∃ (w : BitVec 168) (own : Nat) (s : State), s.awake = true ∧ s.o Obj.RG_LSTATE = 3 ∧ s.ownTime (bits w.toNat 135 88) = some own ∧ bit w.toNat 143 = true ∧ s.o Obj.XC_STATE = 1 ∧ (bits w.toNat 167 152, bits w.toNat 151 144) ∉ s.time.seqs ∧ bits w.toNat 167 152 ≠ s.o Obj.NT_MASTER ∧ s.time.changed = none ∧ (∀ c ∈ s.time.cand, c.1 ≠ bits w.toNat 167 152 ∨ bits w.toNat 151 144 ≠ (c.2.1 + 1) % 256)) :=
  ⟨⟨(wd 5 1), (tm false 3 8), [], 0, (N 1 [tm false 3 8]), by decide +kernel⟩,
   ⟨(wd 6 0), 7, (N 1 [tm false 3 8]), by decide +kernel⟩⟩
theorem witness_2 :
    (∃ (w : BitVec 168) (own : Nat) (s : State), s.awake = true ∧ s.o Obj.RG_LSTATE = 3 ∧ s.ownTime (bits w.toNat 135 88) = some own ∧ bit w.toNat 143 = true ∧ s.o Obj.XC_STATE = 1 ∧ (bits w.toNat 167 152, bits w.toNat 151 144) ∉ s.time.seqs ∧ bits w.toNat 167 152 ≠ s.o Obj.NT_MASTER ∧ s.time.changed = none ∧ (∃ c ∈ s.time.cand, c.1 = bits w.toNat 167 152 ∧ bits w.toNat 151 144 = (c.2.1 + 1) % 256 ∧ ((bits w.toNat 87 24 * 2 ^ 32 + bits w.toNat 23 0 * 2 ^ 8 : Nat) - (own : Int) - c.2.2).natAbs ≤ s.o Obj.NT_STEP_LIMIT * 2 ^ 32)) ∧
    (∃ (m : TimeMsg) (r : List TimeMsg) (s : State), s.awake = true ∧ s.time.waiting = m :: r ∧ s.tick ≤ m.tick) ∧
    (∃ (w : BitVec 168) (own : Nat) (m : TimeMsg) (r : List TimeMsg) (s : State), s.awake = true ∧ s.o Obj.RG_LSTATE = 3 ∧ s.ownTime (bits w.toNat 135 88) = some own ∧ bit w.toNat 143 = true ∧ s.o Obj.XC_STATE = 1 ∧ (bits w.toNat 167 152, bits w.toNat 151 144) ∉ s.time.seqs ∧ bits w.toNat 167 152 = s.o Obj.NT_MASTER ∧ s.o Obj.NT_MASTER ≠ 0xFFFF ∧ s.time.waiting = m :: r ∧ m.tick < s.tick ∧ (m.step = true ∨ s.o Obj.NT_STATE = 0 ∨ (s.o Obj.NT_STEP_LIMIT * 2 ^ 32 : Nat) < ((m.time : Int) - m.own).natAbs) ∧ s.o Obj.NT_STATE ≠ 1) ∧
    (∃ (s : State), s.awake = true ∧ s.o Obj.RG_LSTATE ≠ 3 ∧ s.time.waiting = []) ∧
    (∃ (a : Nat) (s : State), s.awake = true ∧ s.time.accepted = some a ∧ s.ticksCover (s.tick - a) (1000 * s.o Obj.NT_HOLDOVER) = false) :=
  ⟨⟨(wd 6 0), 7, (let s := N 1 [tm false 3 8]; { s with time := { s.time with cand := [(7, 0, 3), (6, 0, 55 * 2^32 - 7)] } }), by decide +kernel⟩,
   ⟨(tm false 3 8 50000000), [], (N 1 [tm false 3 8 50000000]), by decide +kernel⟩,
   ⟨(wd 5 0), 7, (tm false 3 8), [], (N 0 [tm false 3 8]), by decide +kernel⟩,
   ⟨((N 1 []).setO Obj.RG_LSTATE 2), by decide +kernel⟩,
   ⟨49999999, { (N 1 []) with time := { (N 1 []).time with accepted := some 49999999 } }, by decide +kernel⟩⟩
end TimeMessagesSteerNetworkTime

namespace TheMonitorAcceptsTracksAndFailsTheClock
def K (c p : Nat) : State := ((clk.setO Obj.CLK_STATE c).setO Obj.PWR_STATE p).setO Obj.CLK_MON_REF (16384 * 65536)
def Kp (f : Bool) (g : Nat) (s : State) : State := { s with plinth := { fault := f, good := g, ep := some 1000 } }
theorem witness :
    (∃ (s : State), s.o Obj.CLK_STATE = 0 ∧ s.power.rstN = false ∧ s.o Obj.PWR_STATE = 1 ∧ (s.frz.ball = false ∨ s.o Obj.FRZ_PIN_EN = 0)) ∧
    (∃ (s : State), s.o Obj.CLK_STATE = 0 ∧ s.power.rstN = false ∧ s.o Obj.PWR_STATE = 1 ∧ s.frz.ball = true ∧ s.o Obj.FRZ_PIN_EN ≠ 0 ∧ s.frz.frozen = false) ∧
    (∃ (s : State), s.o Obj.PWR_STATE = 0) ∧
    (∃ (n : BitVec 16) (s : State), s.awake = true ∧ s.plinth.fault = false ∧ (s.o Obj.CLK_STATE = 1 ∨ s.o Obj.CLK_STATE = 4) ∧ n ≠ 0 ∧ inNominal s.clk.fx n.toNat = false) ∧
    (∃ (n : BitVec 16) (c : BitVec 20) (s : State), s.o Obj.PWR_STATE ≠ 0 ∧ s.plinth.fault = false ∧ s.o Obj.CLK_STATE ≠ 1 ∧ s.o Obj.CLK_STATE ≠ 4 ∧ s.nearEp c.toNat 40 = false ∧ s.awake = true ∧ (s.o Obj.CLK_STATE = 2 ∨ s.o Obj.CLK_STATE = 3) ∧ nearRef (s.o Obj.CLK_MON_REF) n.toNat 5 = true ∧ s.o Obj.CLK_STATE = 3 ∧ s.o Obj.PWR_STATE = 1) ∧
    (∃ (n : BitVec 16) (s : State), s.awake = true ∧ s.plinth.fault = false ∧ (s.o Obj.CLK_STATE = 2 ∨ s.o Obj.CLK_STATE = 3) ∧ nearRef (s.o Obj.CLK_MON_REF) n.toNat 5 = false ∧ s.o Obj.PWR_STATE = 3 ∧ s.o Obj.CLK_STATE = 3) ∧
    (∃ (c : BitVec 20) (s : State), s.o Obj.PWR_STATE ≠ 0 ∧ s.plinth.fault = true ∧ s.plinth.good = 1 ∧ s.plinth.ep.isSome = true ∧ s.nearEp c.toNat 5 = true ∧ s.o Obj.CLK_STATE ≠ 5 ∧ s.awake = true ∧ s.o Obj.CLK_STATE = 2 ∧ s.o Obj.PWR_STATE = 4) ∧
    (∃ (s : State), s.awake = true ∧ s.o Obj.CLK_STATE = 2 ∧ s.plinth.fault = false ∧ s.o Obj.PWR_STATE = 4) ∧
    (∃ (s : State), s.awake = true ∧ s.o Obj.CLK_STATE = 3 ∧ s.plinth.fault = true) :=
  ⟨⟨(K 0 1), by decide +kernel⟩,
   ⟨{ (K 0 1).setO Obj.FRZ_PIN_EN 1 with frz := { ball := true } }, by decide +kernel⟩,
   ⟨(K 0 0), by decide +kernel⟩,
   ⟨16384, (Kp false 0 (K 1 3)), by decide +kernel⟩,
   ⟨16384, 3000, (Kp false 0 ((K 3 1).setO Obj.NT_STATE 1)), by decide +kernel⟩,
   ⟨10000, (Kp false 0 (K 3 3)), by decide +kernel⟩,
   ⟨1010, (Kp true 1 (K 2 4)), by decide +kernel⟩,
   ⟨(Kp false 1 (K 2 4)), by decide +kernel⟩,
   ⟨(Kp true 1 (K 3 4)), by decide +kernel⟩⟩
theorem witness_2 :
    (∃ (n : BitVec 16) (c : BitVec 20) (s : State), (s.o Obj.CLK_STATE ≠ 0 ∨ s.power.rstN = true ∨ s.o Obj.PWR_STATE ≠ 1) ∧ s.o Obj.PWR_STATE ≠ 0 ∧ s.plinth.fault = false ∧ (s.o Obj.CLK_STATE = 1 ∨ s.o Obj.CLK_STATE = 4) ∧ s.nearEp c.toNat 40 = true ∧ s.ckinAccepted = false ∧ s.awake = true ∧ n ≠ 0 ∧ inNominal s.clk.fx n.toNat = true ∧ s.o Obj.CLK_QUAL ≤ 1 ∧ s.clk.run = [] ∧ s.o Obj.CLK_STATE ∉ [2, 3] ∧ s.o Obj.CLK_STATE ≠ 3 ∧ s.o Obj.CLK_STATE ≠ 2) ∧
    (∃ (n : BitVec 16) (s : State), s.awake = true ∧ s.plinth.fault = false ∧ (s.o Obj.CLK_STATE = 1 ∨ s.o Obj.CLK_STATE = 4) ∧ n = 0) :=
  ⟨⟨256, 1010, (Kp false 1 ((K 4 4).setO Obj.CLK_QUAL 1)), by decide +kernel⟩,
   ⟨0, (Kp false 1 (K 1 4)), by decide +kernel⟩⟩
end TheMonitorAcceptsTracksAndFailsTheClock

namespace GateRequestsAreRefusedForBusyNodes
def ex (s : State) : State := { s with cufel := { s.cufel with sessions := [{ path := .north, src := 0xFF01 }] } }
theorem witness :
    (∃ (q : Req) (s : State), s.servedFor q = true ∧ s.isExpert q = false) ∧
    (∃ (q : Req) (v : BitVec 32) (s : State), s.servedFor q = true ∧ s.isExpert q = true ∧ 2 ^ 26 ≤ v.toNat) ∧
    (∃ (q : Req) (v : BitVec 32) (s : State), s.servedFor q = true ∧ s.isExpert q = true ∧ v.toNat < 2 ^ 26 ∧ (∀ n : Fin 26, bit v.toNat n = true → s.nodeBusy n = false)) ∧
    (∃ (q : Req) (v : BitVec 32) (s : State), s.servedFor q = true ∧ s.isExpert q = true ∧ v.toNat < 2 ^ 26 ∧ (∃ n : Fin 26, bit v.toNat n = true ∧ s.nodeBusy n = true)) :=
  ⟨⟨q0, srv, by decide +kernel⟩,
   ⟨q0, 0x5000000, (ex srv), by decide +kernel⟩,
   ⟨q0, 0x100, (ex srv), by decide +kernel⟩,
   ⟨q0, 0x800006, (ex ((srv.setO Obj.CAN_ENABLE 1).setO Obj.HK_STATE 2)), by decide +kernel⟩⟩
end GateRequestsAreRefusedForBusyNodes

namespace HousekeepingConvertsRangesAndCalibrates
def HS (e : Nat) (st : Nat) : State := let s := ((((srv.setO (Obj.HK_ENTRY 3) e).setO Obj.HK_STATE st).setO (Obj.HK_RANGE_NOW 3) 2).setO Obj.HK_RES_EVT 0).setO Obj.HK_RESULT (0xFFFF * 2^48 + 7); { s with hk := { s.hk with entry := some 3, unread := true, retries := 2 } }
def goodRaw : List (Int × Int) := List.replicate 4 (5, 393216 + 5 + 100)
theorem witness :
    (∃ (m : Fin 32) (x : Int) (y : Int) (X : Int) (Y : Int) (c : Int × Nat) (k : Nat) (raw : List (Int × Int)) (s : State), s.awake = true ∧ s.hk.entry = some m.val ∧ s.hk.consts.getD (4 * s.o Obj.HK_SLICE + (if bits (s.o (Obj.HK_ENTRY m)) 36 34 ≤ 3 then bits (s.o (Obj.HK_ENTRY m)) 36 34 else s.o (Obj.HK_RANGE_NOW m))) (0, 65536) = c ∧ 2 * (65536 * X - (x - c.1) * c.2).natAbs < 65536 ∧ 2 * (65536 * Y - (y - c.1) * c.2).natAbs < 65536 ∧ bits (s.o (Obj.HK_ENTRY m)) 36 34 = 4 ∧ 0 < s.o (Obj.HK_RANGE_NOW m) ∧ s.hk.retries < 3 ∧ s.o Obj.HK_STATE ≠ 0 ∧ s.cufel.down = false ∧ (raw.length ≠ 4 ∨ raw.all (fun e => hkConstOk e.1 e.2) = false) ∧ s.hk.recal.headD (1 - s.o Obj.HK_SLICE) = k) :=
  ⟨3, 100, 200, 100, 200, (0, 65536), 1, [], (HS (4 * 2^34) 3), by decide +kernel⟩
theorem witness_2 :
    (∃ (m : Fin 32) (x : Int) (y : Int) (X : Int) (Y : Int) (c : Int × Nat) (raw : List (Int × Int)) (q : Req) (s : State), s.awake = true ∧ (∀ e ∈ s.hk.entry, s.hk.exc = hkDrive (s.o (hkEntryKey e))) ∧ (s.hk.exc = none ∨ s.hk.entry ≠ none) ∧ bits (s.o (Obj.HK_ENTRY m)) 62 60 ∉ [2, 3] ∧ (∀ e ∈ s.hk.entry, s.hk.burn = hkBurn (s.o (hkEntryKey e))) ∧ (s.hk.burn = 0 ∨ s.hk.entry ≠ none) ∧ s.hk.entry = some m.val ∧ s.hk.consts.getD (4 * s.o Obj.HK_SLICE + (if bits (s.o (Obj.HK_ENTRY m)) 36 34 ≤ 3 then bits (s.o (Obj.HK_ENTRY m)) 36 34 else s.o (Obj.HK_RANGE_NOW m))) (0, 65536) = c ∧ 2 * (65536 * X - (x - c.1) * c.2).natAbs < 65536 ∧ 2 * (65536 * Y - (y - c.1) * c.2).natAbs < 65536 ∧ (bits (s.o (Obj.HK_ENTRY m)) 36 34 ≠ 4 ∨ s.o (Obj.HK_RANGE_NOW m) = 0 ∨ 3 ≤ s.hk.retries) ∧ bit (s.o (Obj.HK_ENTRY m)) 13 = false ∧ bits (s.o (Obj.HK_ENTRY m)) 62 60 = 0 ∧ bits (s.o (Obj.HK_ENTRY m)) 33 32 = 0 ∧ bits (s.o (Obj.HK_ENTRY m)) 36 34 ≤ 3 ∧ s.o Obj.HK_STATE = 3 ∧ s.o Obj.HK_RES_EVT = 0 ∧ s.o Obj.HK_START_PEND = 0 ∧ s.o Obj.HK_SLICE ≤ 1 ∧ s.o Obj.HK_STATE ≠ 0 ∧ s.cufel.down = false ∧ raw.length = 4 ∧ raw.all (fun e => hkConstOk e.1 e.2) = true ∧ s.hk.recal = [] ∧ s.o Obj.HK_SLICE = 0 ∧ s.hk.consts.length = 8 ∧ s.hk.entry ≠ none ∧ s.servedFor q = true) :=
  ⟨3, (-100), 200, (-100), 200, (0, 65536), goodRaw, q0, (HS (3 * 2^34) 3), by decide +kernel⟩
theorem witness_3 :
    (∃ (m : Fin 32) (x : Int) (y : Int) (X : Int) (Y : Int) (c : Int × Nat) (s : State), s.awake = true ∧ s.hk.entry = some m.val ∧ s.hk.consts.getD (4 * s.o Obj.HK_SLICE + (if bits (s.o (Obj.HK_ENTRY m)) 36 34 ≤ 3 then bits (s.o (Obj.HK_ENTRY m)) 36 34 else s.o (Obj.HK_RANGE_NOW m))) (0, 65536) = c ∧ 2 * (65536 * X - (x - c.1) * c.2).natAbs < 65536 ∧ 2 * (65536 * Y - (y - c.1) * c.2).natAbs < 65536 ∧ bit (s.o (Obj.HK_ENTRY m)) 13 = true ∧ bit (s.o (Obj.HK_ENTRY m)) 12 = true ∧ s.hk.repeating = false ∧ s.hk.limit < (hkClip X - hkClip Y).natAbs) ∧
    (∃ (m : Fin 32) (s : State), bits (s.o (Obj.HK_ENTRY m)) 62 60 ∈ [2, 3]) ∧
    (∃ (s : State), s.awake = true ∧ s.hk.entry = none) ∧
    (∃ (s : State), s.awake = true ∧ (s.o Obj.HK_STATE = 0 ∨ s.cufel.down = true)) :=
  ⟨⟨3, (-600000), 200000, (-600000), 200000, (0, 65536), (HS (3 * 2^12 + 2^40) 2), by decide +kernel⟩,
   ⟨3, (let s := ((((HS (2^63 + 2^61 + 2^51) 2).setO Obj.HK_SEQ_LEN 5).setO (Obj.HK_ENTRY 4) (2^63 + 3*2^60 + 2^49 + 200*2^37 + 3*2^24)).setO Obj.HK_RES_EVT 1); { s with hk := { s.hk with exc := hkDrive (2^63 + 2^61 + 2^51) } }), by decide +kernel⟩,
   ⟨(let s := HS 0 3; { s with hk := { s.hk with entry := none } }), by decide +kernel⟩,
   ⟨((HS 0 3).setO Obj.HK_STATE 0), by decide +kernel⟩⟩
end HousekeepingConvertsRangesAndCalibrates

namespace ReceivedMessagesAreDiscardedAnsweredOrQueued
def mk (m : Msg) : List Byte := m.bytes
def m0 : Msg := { mtype := 1, alive := 3, tid := 7, dst := srv.o Obj.CF_ADDR, src := 0x123A, status := 0, resp := false, body := [1,2,3] }
def kp : Msg := { m0 with resp := true, dst := m0.src }
def ev : Event := { seq := 300, cls := 1, code := 2, xc := 3, nt := 4, objIdx := 5, objSub := 6, payload := [9] }
def S (b : List Byte) : State := { (srv.setO Obj.CF_HB_PER 5).setO Obj.RG_LSTATE 3 with north := { srv.north with mailbox := [b, [1]] }, cufel := { srv.cufel with order := [.north, .can], events := [ev], aliveNorth := [{ src := 5, alive := 1, kept := none, node := 0 }] } }
def R (b : List Byte) (al : Nat) : State := { S b with cufel := { (S b).cufel with aliveNorth := [{ src := 0x123A, alive := al, kept := some kp, node := 0 }] } }
def H (b : List Byte) (up : Nat) : State := ((S b).setO Obj.CF_ROLE 2).setO (Obj.HUB_PSTATE 2) up
def lf : Msg := { m0 with dst := (H [] 3).clusterId * 16 + 3 }
theorem witness :
    (∃ (q : Req) (s : State), s.servedFor q = true ∧ s.north.mailbox = [] ∧ s.o Obj.CF_HB_PER ≠ 0 ∧ s.eventPath = none ∧ ((s.cufel.events = [] ∧ s.cufel.beat = none) ∨ (s.eventPath = none ∧ s.o Obj.CAN_STATE ≠ 6))) ∧
    (∃ (b : List Byte) (r : List (List Byte)) (q : Req) (e : Event) (es : List Event) (l : List Path) (s : State), s.servedFor q = true ∧ s.can.inbox = [] ∧ s.cufel.order.head? = some .north ∧ s.north.mailbox = b :: r ∧ s.cufel.order = .north :: l ∧ msgFits b = true ∧ s.leafPort (msgDst b) = none ∧ msgCrcOk b = true ∧ (parseMsg b).resp = false ∧ ((parseMsg b).dst = s.o Obj.CF_ADDR ∨ (parseMsg b).dst = 0xFFFF) ∧ hostAddr (parseMsg b).src = true ∧ (∀ a ∈ s.cufel.aliveNorth, a.src = (parseMsg b).src → a.alive ≠ (parseMsg b).alive) ∧ msgVer b = 2 ∧ isRequest (parseMsg b).mtype = true ∧ s.badLength q 0 = false ∧ s.o Obj.CF_HB_PER ≠ 0 ∧ s.eventPath = some .north ∧ s.cufel.events = e :: es ∧ s.cufel.beat = none) ∧
    (∃ (b : List Byte) (r : List (List Byte)) (q : Req) (l : List Path) (s : State), s.servedFor q = true ∧ s.north.mailbox = b :: r ∧ s.cufel.order = .north :: l ∧ msgFits b = true ∧ s.leafPort (msgDst b) = none ∧ msgCrcOk b = true ∧ (parseMsg b).resp = false ∧ ((parseMsg b).dst = s.o Obj.CF_ADDR ∨ (parseMsg b).dst = 0xFFFF) ∧ hostAddr (parseMsg b).src = true ∧ (∃ a ∈ s.cufel.aliveNorth, a.src = (parseMsg b).src ∧ a.alive = (parseMsg b).alive)) :=
  ⟨⟨q0, srv, by decide +kernel⟩,
   ⟨(mk m0), [[1]], q0, ev, [], [.can], (S (mk m0)), by decide +kernel⟩,
   ⟨(mk m0), [[1]], q0, [.can], (R (mk m0) 3), by decide +kernel⟩⟩
theorem witness_2 :
    (∃ (b : List Byte) (r : List (List Byte)) (q : Req) (l : List Path) (s : State), s.servedFor q = true ∧ s.north.mailbox = b :: r ∧ s.cufel.order = .north :: l ∧ msgFits b = true ∧ s.leafPort (msgDst b) = none ∧ msgCrcOk b = true ∧ ((parseMsg b).resp = true ∨ ((parseMsg b).dst ≠ s.o Obj.CF_ADDR ∧ (parseMsg b).dst ≠ 0xFFFF) ∨ hostAddr (parseMsg b).src = false)) ∧
    (∃ (b : List Byte) (r : List (List Byte)) (q : Req) (l : List Path) (s : State), s.servedFor q = true ∧ s.north.mailbox = b :: r ∧ s.cufel.order = .north :: l ∧ msgFits b = true ∧ s.leafPort (msgDst b) = none ∧ msgCrcOk b = false) ∧
    (∃ (b : List Byte) (r : List (List Byte)) (q : Req) (k : Fin 8) (l : List Path) (s : State), s.servedFor q = true ∧ s.north.mailbox = b :: r ∧ s.cufel.order = .north :: l ∧ msgFits b = true ∧ s.leafPort (msgDst b) = some k ∧ s.o (Obj.HUB_PSTATE k) = 3) ∧
    (∃ (b : List Byte) (r : List (List Byte)) (q : Req) (k : Fin 8) (l : List Path) (s : State), s.servedFor q = true ∧ s.north.mailbox = b :: r ∧ s.cufel.order = .north :: l ∧ msgFits b = true ∧ s.leafPort (msgDst b) = some k ∧ s.o (Obj.HUB_PSTATE k) ≠ 3) ∧
    (∃ (q : Req) (e : Event) (es : List Event) (s : State), s.servedFor q = true ∧ s.cufel.order.head? = some .can ∧ s.eventPath = none ∧ s.o Obj.CAN_STATE = 6 ∧ s.o Obj.RG_LSTATE = 3 ∧ s.cufel.events = e :: es ∧ e.code = 0x0601) :=
  ⟨⟨(mk { m0 with src := 1 }), [[1]], q0, [.can], (S (mk { m0 with src := 1 })), by decide +kernel⟩,
   ⟨((mk m0).set 19 0x55), [[1]], q0, [.can], (S ((mk m0).set 19 0x55)), by decide +kernel⟩,
   ⟨(mk lf), [[1]], q0, 2, [.can], (H (mk lf) 3), by decide +kernel⟩,
   ⟨(mk lf), [[1]], q0, 2, [.can], (H (mk lf) 1), by decide +kernel⟩,
   ⟨q0, { ev with code := 0x0601 }, [ev], (let s := ((S [1]).setO Obj.CAN_STATE 6).setO Obj.CF_EVT_PATH 1; { s with cufel := { s.cufel with order := [.can], events := [{ ev with code := 0x0601 }, ev] } }), by decide +kernel⟩⟩
theorem witness_3 :
    (∃ (b : List Byte) (r : List (List Byte)) (q : Req) (l : List Path) (s : State), s.servedFor q = true ∧ s.north.mailbox = b :: r ∧ s.cufel.order = .north :: l ∧ msgFits b = false ∧ s.eventPath = some .north ∧ s.cufel.beat = some b) ∧
    (∃ (q : Req) (s : State), s.servedFor q = true ∧ s.o Obj.CF_HB_PER = 0) ∧
    (∃ (q : Req) (s : State), s.servedFor q = true ∧ s.badLength q 0 = true) :=
  ⟨⟨[1], [[1]], q0, [.can], (let s := S [1]; { s with cufel := { s.cufel with beat := some [1] } }), by decide +kernel⟩,
   ⟨q0, ((S (mk m0)).setO Obj.CF_HB_PER 0), by decide +kernel⟩,
   ⟨q0, (let s := S [1]; { s with cufel := { s.cufel with queue := [{ path := .north, msg := { m0 with tid := 5, src := 0xFF01, mtype := 0x11 }, addr := 3 }] } }), by decide +kernel⟩⟩
end ReceivedMessagesAreDiscardedAnsweredOrQueued

namespace SessionsOpenByTheRightUnlock
def ch (used : Bool := false) : Challenge := { path := .north, src := 0xFF01, value := 0x1234, key := 0x00FF, used := used }
def S (used : Bool) (f : Nat) (n : Nat) (lock : Bool := false) : State := { srv with cufel := { srv.cufel with challenges := [ch used], failsNorth := f, lockNorth := lock, sessions := (List.range n).map fun i => { path := .north, src := 0xFF00 + i * 2 } } }
theorem witness :
    (∃ (q : Req) (c : Challenge) (v : BitVec 16) (w : BitVec 8) (inTime : Bool) (s : State), s.servedFor q = true ∧ s.cufel.locked q.path = false ∧ s.challengeOf q = some c ∧ inTime = true ∧ c.used = false ∧ v.toNat = c.value ^^^ c.key ∧ s.isExpert q = false ∧ s.cufel.sessions.length < 4 ∧ w = 1 ∧ s.awake = true) ∧
    (∃ (q : Req) (c : Challenge) (v : BitVec 16) (w : BitVec 8) (inTime : Bool) (s : State), s.servedFor q = true ∧ s.cufel.locked q.path = false ∧ s.challengeOf q = some c ∧ (inTime = false ∨ c.used = true ∨ v.toNat ≠ c.value ^^^ c.key) ∧ s.cufel.fails q.path < 2 ∧ w ≠ 1) ∧
    (∃ (q : Req) (c : Challenge) (v : BitVec 16) (inTime : Bool) (s : State), s.servedFor q = true ∧ s.cufel.locked q.path = false ∧ s.challengeOf q = some c ∧ inTime = true ∧ c.used = false ∧ v.toNat = c.value ^^^ c.key ∧ s.isExpert q = false ∧ 4 ≤ s.cufel.sessions.length) ∧
    (∃ (q : Req) (s : State), s.servedFor q = true ∧ s.cufel.locked q.path = true) ∧
    (∃ (q : Req) (c : Challenge) (v : BitVec 16) (inTime : Bool) (s : State), s.servedFor q = true ∧ s.cufel.locked q.path = false ∧ s.challengeOf q = some c ∧ inTime = true ∧ c.used = false ∧ v.toNat = c.value ^^^ c.key ∧ s.isExpert q = true) :=
  ⟨⟨q0, (ch), 0x12CB, 1, true, (S false 2 3), by decide +kernel⟩,
   ⟨q0, (ch), 0x12CC, 2, true, (S false 1 4), by decide +kernel⟩,
   ⟨q0, (ch), 0x12CB, true, (S false 1 4), by decide +kernel⟩,
   ⟨q0, (S true 0 4 true), by decide +kernel⟩,
   ⟨q0, (ch), 0x12CB, true, { S false 2 3 with cufel := { (S false 2 3).cufel with sessions := [{ path := .north, src := 0xFF01 }] } }, by decide +kernel⟩⟩
end SessionsOpenByTheRightUnlock

namespace ReadsAndWritesOfObjectsAreJudged
def B (k : Nat) (r : List Byte) : List Byte := keyBytes k ++ r
def x0 : ObjDesc := noDesc
def D (k : Nat) : ObjDesc := (objDesc k).getD x0
def E : State := { srv with cufel := { srv.cufel with sessions := [{ path := .north, src := q0.src.toNat }] }, shadowPend := [(7, 8)] }
theorem witness :
    (∃ (q : Req) (body : List Byte) (d : ObjDesc) (s : State), s.servedFor q = true ∧ body.length = 3 ∧ objDesc (bodyKey body) = some d ∧ d.type ≠ .domain ∧ bodyKey body ≠ Obj.CF_CHALLENGE ∧ d.type ≠ .str ∧ d.acc ≠ .wo ∧ s.live (bodyKey body) = none ∧ d.acc ≠ .rc ∧ bodyKey body ≠ Obj.NT_NOW ∧ bodyKey body ≠ Obj.HK_RESULT ∧ body.length < 4) ∧
    (∃ (q : Req) (body : List Byte) (d : ObjDesc) (s : State), s.servedFor q = true ∧ body.length = 3 ∧ objDesc (bodyKey body) = some d ∧ d.type = .domain) ∧
    (∃ (q : Req) (body : List Byte) (d : ObjDesc) (s : State), s.servedFor q = true ∧ body.length = 3 ∧ objDesc (bodyKey body) = some d ∧ d.type ≠ .domain ∧ bodyKey body ≠ Obj.CF_CHALLENGE ∧ d.acc = .rc) ∧
    (∃ (q : Req) (body : List Byte) (d : ObjDesc) (s : State), s.servedFor q = true ∧ body.length = 3 ∧ objDesc (bodyKey body) = some d ∧ d.type ≠ .domain ∧ bodyKey body ≠ Obj.CF_CHALLENGE ∧ d.type ≠ .str ∧ d.acc = .wo) ∧
    (∃ (q : Req) (body : List Byte) (s : State), s.servedFor q = true ∧ body.length = 3 ∧ objDesc (bodyKey body) = none) ∧
    (∃ (q : Req) (body : List Byte) (s : State), s.servedFor q = true ∧ 4 ≤ body.length ∧ objDesc (bodyKey body) = none) ∧
    (∃ (q : Req) (body : List Byte) (d : ObjDesc) (s : State), s.servedFor q = true ∧ 4 ≤ body.length ∧ objDesc (bodyKey body) = some d ∧ (d.acc = .rw ∨ d.acc = .wo) ∧ (d.type = .domain ∨ (body.getD 3 0).toNat ≠ d.type.tcode)) :=
  ⟨⟨q0, (B Obj.XC_TURN_LEN []), (D Obj.XC_TURN_LEN), srv, by decide +kernel⟩,
   ⟨q0, (B Obj.PRB_DATA []), (D Obj.PRB_DATA), srv, by decide +kernel⟩,
   ⟨q0, (B Obj.FE_OVL_SEEN []), (D Obj.FE_OVL_SEEN), (srv.setO Obj.FE_OVL_SEEN 5), by decide +kernel⟩,
   ⟨q0, (B Obj.CF_KEY []), (D Obj.CF_KEY), (srv.setO Obj.CF_KEY 5), by decide +kernel⟩,
   ⟨q0, (B 0x123456 []), srv, by decide +kernel⟩,
   ⟨q0, (B 0x123456 [1, 2]), srv, by decide +kernel⟩,
   ⟨q0, (B Obj.CF_EVT_MASK [4, 1, 0, 0, 0]), (D Obj.CF_EVT_MASK), srv, by decide +kernel⟩⟩
theorem witness_2 :
    (∃ (q : Req) (body : List Byte) (d : ObjDesc) (s : State), s.servedFor q = true ∧ 4 ≤ body.length ∧ objDesc (bodyKey body) = some d ∧ (d.acc = .rw ∨ d.acc = .wo) ∧ d.type ≠ .domain ∧ (body.getD 3 0).toNat = d.type.tcode ∧ body.length = 4 + d.type.bytes ∧ bodyKey body ∉ [Obj.CF_UNLOCK, Obj.CF_LOCK, Obj.CLK_GATE_REQ] ∧ (d.expert = false ∨ s.isExpert q = true) ∧ s.writeCheck q (bodyKey body) d (fromLE (body.drop 4)) = .ok ∧ d.cls ≠ .shadow ∧ family 0x4010 25 0x14 (bodyKey body) = none ∧ bodyKey body ∉ [Obj.CF_KEY, Obj.FRZ_CTRL]) ∧
    (∃ (q : Req) (body : List Byte) (d : ObjDesc) (s : State), s.servedFor q = true ∧ 4 ≤ body.length ∧ objDesc (bodyKey body) = some d ∧ (d.acc = .rw ∨ d.acc = .wo) ∧ d.type ≠ .domain ∧ (body.getD 3 0).toNat = d.type.tcode ∧ body.length = 4 + d.type.bytes ∧ bodyKey body ∉ [Obj.CF_UNLOCK, Obj.CF_LOCK, Obj.CLK_GATE_REQ] ∧ d.expert = true ∧ s.isExpert q = false) ∧
    (∃ (q : Req) (body : List Byte) (d : ObjDesc) (s : State), s.servedFor q = true ∧ body.length ≠ 3 ∧ 4 ≤ body.length ∧ objDesc (bodyKey body) = some d ∧ (d.acc = .rw ∨ d.acc = .wo) ∧ d.type ≠ .domain ∧ (body.getD 3 0).toNat = d.type.tcode ∧ body.length = 4 + d.type.bytes ∧ bodyKey body ∉ [Obj.CF_UNLOCK, Obj.CF_LOCK, Obj.CLK_GATE_REQ] ∧ (d.expert = false ∨ s.isExpert q = true) ∧ s.writeCheck q (bodyKey body) d (fromLE (body.drop 4)) = .ok ∧ d.cls ≠ .shadow ∧ bodyKey body ∈ [Obj.CF_KEY, Obj.FRZ_CTRL] ∧ bodyKey body = Obj.CF_KEY) :=
  ⟨⟨q0, (B Obj.CF_EVT_MASK (bytesLE 1 (D Obj.CF_EVT_MASK).type.tcode) ++ bytesLE (D Obj.CF_EVT_MASK).type.bytes 1), (D Obj.CF_EVT_MASK), srv, by decide +kernel⟩,
   ⟨q0, (B Obj.CF_KEY [3, 1, 1]), (D Obj.CF_KEY), srv, by decide +kernel⟩,
   ⟨q0, (B Obj.CF_KEY [3, 1, 1]), (D Obj.CF_KEY), E, by decide +kernel⟩⟩
theorem witness_3 :
    (∃ (q : Req) (body : List Byte) (d : ObjDesc) (s : State), s.servedFor q = true ∧ 4 ≤ body.length ∧ objDesc (bodyKey body) = some d ∧ d.acc ≠ .rw ∧ d.acc ≠ .wo) ∧
    (∃ (q : Req) (body : List Byte) (d : ObjDesc) (s : State), s.servedFor q = true ∧ 4 ≤ body.length ∧ objDesc (bodyKey body) = some d ∧ (d.acc = .rw ∨ d.acc = .wo) ∧ d.type ≠ .domain ∧ (body.getD 3 0).toNat = d.type.tcode ∧ body.length = 4 + d.type.bytes ∧ bodyKey body ∉ [Obj.CF_UNLOCK, Obj.CF_LOCK, Obj.CLK_GATE_REQ] ∧ (d.expert = false ∨ s.isExpert q = true) ∧ s.writeCheck q (bodyKey body) d (fromLE (body.drop 4)) = .ok ∧ d.cls = .shadow) ∧
    (∃ (q : Req) (body : List Byte) (d : ObjDesc) (s : State), s.servedFor q = true ∧ 4 ≤ body.length ∧ objDesc (bodyKey body) = some d ∧ (d.acc = .rw ∨ d.acc = .wo) ∧ d.type ≠ .domain ∧ (body.getD 3 0).toNat = d.type.tcode ∧ body.length = 4 + d.type.bytes ∧ bodyKey body ∉ [Obj.CF_UNLOCK, Obj.CF_LOCK, Obj.CLK_GATE_REQ] ∧ (d.expert = false ∨ s.isExpert q = true) ∧ s.valueCheck (bodyKey body) d (fromLE (body.drop 4)) ≠ .ok) ∧
    (∃ (q : Req) (body : List Byte) (d : ObjDesc) (s : State), s.servedFor q = true ∧ body.length = 3 ∧ objDesc (bodyKey body) = some d ∧ d.type ≠ .domain ∧ bodyKey body = Obj.CF_CHALLENGE) ∧
    (∃ (q : Req) (body : List Byte) (d : ObjDesc) (s : State), s.servedFor q = true ∧ 4 ≤ body.length ∧ objDesc (bodyKey body) = some d ∧ (d.acc = .rw ∨ d.acc = .wo) ∧ d.type ≠ .domain ∧ (body.getD 3 0).toNat = d.type.tcode ∧ body.length ≠ 4 + d.type.bytes) :=
  ⟨⟨q1, (B Obj.NV_BANK [1, 1]), (D Obj.NV_BANK), E, by decide +kernel⟩,
   ⟨q0, (B Obj.ASM_CAP (bytesLE 1 (D Obj.ASM_CAP).type.tcode ++ bytesLE 1 33)), (D Obj.ASM_CAP), E, by decide +kernel⟩,
   ⟨q0, (B Obj.ASM_CAP (bytesLE 1 (D Obj.ASM_CAP).type.tcode ++ bytesLE 1 0xFF)), (D Obj.ASM_CAP), E, by decide +kernel⟩,
   ⟨q0, (B Obj.CF_CHALLENGE []), (D Obj.CF_CHALLENGE), srv, by decide +kernel⟩,
   ⟨q0, (B Obj.CF_EVT_MASK (bytesLE 1 (D Obj.CF_EVT_MASK).type.tcode ++ [1, 2])), (D Obj.CF_EVT_MASK), srv, by decide +kernel⟩⟩
theorem witness_4 :
    (∃ (q : Req) (body : List Byte) (d : ObjDesc) (s : State), s.servedFor q = true ∧ 4 ≤ body.length ∧ objDesc (bodyKey body) = some d ∧ (d.acc = .rw ∨ d.acc = .wo) ∧ d.type ≠ .domain ∧ (body.getD 3 0).toNat = d.type.tcode ∧ body.length = 4 + d.type.bytes ∧ bodyKey body = Obj.CF_UNLOCK) ∧
    (∃ (q : Req) (body : List Byte) (d : ObjDesc) (s : State), s.servedFor q = true ∧ 4 ≤ body.length ∧ objDesc (bodyKey body) = some d ∧ (d.acc = .rw ∨ d.acc = .wo) ∧ d.type ≠ .domain ∧ (body.getD 3 0).toNat = d.type.tcode ∧ body.length = 4 + d.type.bytes ∧ bodyKey body = Obj.CF_LOCK) ∧
    (∃ (q : Req) (body : List Byte) (d : ObjDesc) (s : State), s.servedFor q = true ∧ 4 ≤ body.length ∧ objDesc (bodyKey body) = some d ∧ (d.acc = .rw ∨ d.acc = .wo) ∧ d.type ≠ .domain ∧ (body.getD 3 0).toNat = d.type.tcode ∧ body.length = 4 + d.type.bytes ∧ bodyKey body = Obj.CLK_GATE_REQ) ∧
    (∃ (q : Req) (body : List Byte) (d : ObjDesc) (s : State), s.servedFor q = true ∧ 4 ≤ body.length ∧ objDesc (bodyKey body) = some d ∧ (d.acc = .rw ∨ d.acc = .wo) ∧ d.type ≠ .domain ∧ (body.getD 3 0).toNat = d.type.tcode ∧ body.length = 4 + d.type.bytes ∧ bodyKey body ∉ [Obj.CF_UNLOCK, Obj.CF_LOCK, Obj.CLK_GATE_REQ] ∧ (d.expert = false ∨ s.isExpert q = true) ∧ s.writeCheck q (bodyKey body) d (fromLE (body.drop 4)) = .ok ∧ d.cls ≠ .shadow ∧ bodyKey body ∈ [Obj.CF_KEY, Obj.FRZ_CTRL] ∧ bodyKey body = Obj.FRZ_CTRL) :=
  ⟨⟨q0, (B Obj.CF_UNLOCK (bytesLE 1 (D Obj.CF_UNLOCK).type.tcode ++ bytesLE (D Obj.CF_UNLOCK).type.bytes 5)), (D Obj.CF_UNLOCK), srv, by decide +kernel⟩,
   ⟨q0, (B Obj.CF_LOCK (bytesLE 1 (D Obj.CF_LOCK).type.tcode ++ bytesLE (D Obj.CF_LOCK).type.bytes 0)), (D Obj.CF_LOCK), E, by decide +kernel⟩,
   ⟨q0, (B Obj.CLK_GATE_REQ (bytesLE 1 (D Obj.CLK_GATE_REQ).type.tcode ++ bytesLE (D Obj.CLK_GATE_REQ).type.bytes 5)), (D Obj.CLK_GATE_REQ), E, by decide +kernel⟩,
   ⟨q0, (B Obj.FRZ_CTRL (bytesLE 1 (D Obj.FRZ_CTRL).type.tcode ++ bytesLE (D Obj.FRZ_CTRL).type.bytes 1)), (D Obj.FRZ_CTRL), E, by decide +kernel⟩⟩
theorem witness_5 :
    (∃ (q : Req) (body : List Byte) (d : ObjDesc) (s : State), s.servedFor q = true ∧ 4 ≤ body.length ∧ objDesc (bodyKey body) = some d ∧ (d.acc = .rw ∨ d.acc = .wo) ∧ d.type ≠ .domain ∧ (body.getD 3 0).toNat = d.type.tcode ∧ body.length = 4 + d.type.bytes ∧ bodyKey body ∉ [Obj.CF_UNLOCK, Obj.CF_LOCK, Obj.CLK_GATE_REQ] ∧ (d.expert = false ∨ s.isExpert q = true) ∧ s.valueCheck (bodyKey body) d (fromLE (body.drop 4)) = .ok ∧ d.cls = .halt ∧ s.running (bodyKey body) = true) :=
  ⟨q0, (B Obj.CAN_NBR (bytesLE 1 (D Obj.CAN_NBR).type.tcode ++ bytesLE (D Obj.CAN_NBR).type.bytes 1)), (D Obj.CAN_NBR), E, by decide +kernel⟩
end ReadsAndWritesOfObjectsAreJudged

namespace BlockTransfersGoSegmentBySegment
def x0 : ObjDesc := noDesc
def D (k : Nat) : ObjDesc := (objDesc k).getD x0
def RB (k f off : Nat) : List Byte := keyBytes k ++ bytesLE 1 f ++ bytesLE 4 off
def WB (k f off tot : Nat) (b : List Byte) : List Byte := RB k f off ++ bytesLE 4 tot ++ b
def xr : Transfer := { path := .north, src := q0.src.toNat, index := Obj.NV_IMAGE / 256, sub := Obj.NV_IMAGE % 256, write := false, data := List.replicate 500 7, total := 500, prev := none }
def xw : Transfer := { xr with write := true, data := [1,2,3], total := 9, prev := some (1, 2) }
def T (l : List Transfer) : State := { srv with cufel := { srv.cufel with sessions := [{ path := .north, src := q0.src.toNat }], transfers := l } }
theorem witness :
    (∃ (q : Req) (body : List Byte) (d : ObjDesc) (s : State), s.servedFor q = true ∧ body.length = 8 ∧ objDesc (bodyKey body) = some d ∧ d.type = .domain ∧ bit (body.getD 3 0).toNat 0 = true ∧ bit (body.getD 3 0).toNat 2 = false ∧ (s.closeTransfer q).cufel.transfers.length < 4 ∧ (bodyKey body ∉ [Obj.NV_IMAGE, Obj.NV_PATCH] ∨ (s.closeTransfer q).nvOpen = false) ∧ ((((s.closeTransfer q).domainRead (bodyKey body)).toOption).any fun r => decide ((bodyKey body = Obj.NV_IMAGE))) = true) ∧
    (∃ (q : Req) (body : List Byte) (d : ObjDesc) (s : State), s.servedFor q = true ∧ body.length = 8 ∧ objDesc (bodyKey body) = some d ∧ d.type = .domain ∧ bit (body.getD 3 0).toNat 0 = true ∧ bit (body.getD 3 0).toNat 2 = false ∧ (4 ≤ (s.closeTransfer q).cufel.transfers.length ∨ (bodyKey body ∈ [Obj.NV_IMAGE, Obj.NV_PATCH] ∧ (s.closeTransfer q).nvOpen = true))) ∧
    (∃ (q : Req) (body : List Byte) (d : ObjDesc) (x : Transfer) (s : State), s.servedFor q = true ∧ body.length = 8 ∧ objDesc (bodyKey body) = some d ∧ d.type = .domain ∧ bit (body.getD 3 0).toNat 0 = false ∧ bit (body.getD 3 0).toNat 2 = false ∧ s.transferOf q = some x ∧ x.write = false ∧ objKey x.index x.sub = bodyKey body ∧ x.total ≤ fromLE ((body.drop 4).take 4) ∧ 0 < x.total) ∧
    (∃ (q : Req) (body : List Byte) (d : ObjDesc) (x : Transfer) (s : State), s.servedFor q = true ∧ body.length = 8 ∧ objDesc (bodyKey body) = some d ∧ d.type = .domain ∧ bit (body.getD 3 0).toNat 2 = true ∧ s.transferOf q = some x) :=
  ⟨⟨q0, (RB Obj.NV_IMAGE 1 0), (D Obj.NV_IMAGE), (T []), by decide +kernel⟩,
   ⟨q0, (RB Obj.NV_IMAGE 1 0), (D Obj.NV_IMAGE), (T ((List.range 4).map fun i => { xr with src := i })), by decide +kernel⟩,
   ⟨q0, (RB Obj.NV_IMAGE 0 500), (D Obj.NV_IMAGE), xr, (T [xr]), by decide +kernel⟩,
   ⟨q0, (RB Obj.NV_IMAGE 4 500), (D Obj.NV_IMAGE), xr, (T [xr]), by decide +kernel⟩⟩
theorem witness_2 :
    (∃ (q : Req) (body : List Byte) (d : ObjDesc) (x : Transfer) (p : Path) (src : BitVec 16) (s : State), s.servedFor q = true ∧ body.length ≠ 8 ∧ 12 ≤ body.length ∧ body.length ≤ 492 ∧ objDesc (bodyKey body) = some d ∧ (d.acc = .rw ∨ d.acc = .wo) ∧ d.type = .domain ∧ (d.expert = false ∨ s.isExpert q = true) ∧ (body.getD 3 0).toNat % 8 = 0 ∧ s.transferOf q = some x ∧ x.write = true ∧ objKey x.index x.sub = bodyKey body ∧ fromLE ((body.drop 8).take 4) = x.total ∧ fromLE ((body.drop 4).take 4) = x.data.length ∧ x.data.length + (body.drop 12).length ≤ x.total ∧ s.awake = true ∧ (∀ y ∈ s.cufel.transfers, y.path ≠ p ∨ y.src ≠ src.toNat)) ∧
    (∃ (q : Req) (body : List Byte) (d : ObjDesc) (x : Transfer) (s : State), s.servedFor q = true ∧ 12 ≤ body.length ∧ body.length ≤ 492 ∧ objDesc (bodyKey body) = some d ∧ (d.acc = .rw ∨ d.acc = .wo) ∧ d.type = .domain ∧ (d.expert = false ∨ s.isExpert q = true) ∧ (body.getD 3 0).toNat % 8 = 0 ∧ s.transferOf q = some x ∧ x.write = true ∧ objKey x.index x.sub = bodyKey body ∧ fromLE ((body.drop 8).take 4) = x.total ∧ fromLE ((body.drop 4).take 4) ≠ x.data.length ∧ x.prev = some (fromLE ((body.drop 4).take 4), (body.drop 12).length)) :=
  ⟨⟨q0, (WB Obj.NV_IMAGE 0 3 9 [4,5]), (D Obj.NV_IMAGE), xw, .can, 0xFF01, (T [xw]), by decide +kernel⟩,
   ⟨q0, (WB Obj.NV_IMAGE 0 1 9 [4,5]), (D Obj.NV_IMAGE), xw, (T [xw]), by decide +kernel⟩⟩
theorem witness_3 :
    (∃ (q : Req) (body : List Byte) (d : ObjDesc) (x : Transfer) (s : State), s.servedFor q = true ∧ 12 ≤ body.length ∧ body.length ≤ 492 ∧ objDesc (bodyKey body) = some d ∧ (d.acc = .rw ∨ d.acc = .wo) ∧ d.type = .domain ∧ (d.expert = false ∨ s.isExpert q = true) ∧ (body.getD 3 0).toNat % 8 = 0 ∧ s.transferOf q = some x ∧ x.write = true ∧ objKey x.index x.sub = bodyKey body ∧ fromLE ((body.drop 8).take 4) ≠ x.total) ∧
    (∃ (q : Req) (body : List Byte) (d : ObjDesc) (s : State), s.servedFor q = true ∧ 12 ≤ body.length ∧ body.length ≤ 492 ∧ objDesc (bodyKey body) = some d ∧ (d.acc = .rw ∨ d.acc = .wo) ∧ d.type = .domain ∧ (d.expert = false ∨ s.isExpert q = true) ∧ (body.getD 3 0).toNat % 8 = 0 ∧ s.transferOf q = none) ∧
    (∃ (q : Req) (body : List Byte) (d : ObjDesc) (s : State), s.servedFor q = true ∧ 12 ≤ body.length ∧ body.length ≤ 492 ∧ objDesc (bodyKey body) = some d ∧ (d.acc = .rw ∨ d.acc = .wo) ∧ d.type = .domain ∧ d.expert = true ∧ s.isExpert q = false) ∧
    (∃ (q : Req) (body : List Byte) (s : State), s.servedFor q = true ∧ body.length = 8 ∧ objDesc (bodyKey body) = none) ∧
    (∃ (q : Req) (body : List Byte) (d : ObjDesc) (s : State), s.servedFor q = true ∧ body.length = 8 ∧ objDesc (bodyKey body) = some d ∧ d.type ≠ .domain) :=
  ⟨⟨q0, (WB Obj.NV_IMAGE 0 1 8 [4,5]), (D Obj.NV_IMAGE), xw, (T [xw]), by decide +kernel⟩,
   ⟨q0, (WB Obj.NV_IMAGE 0 1 8 [4,5]), (D Obj.NV_IMAGE), (T []), by decide +kernel⟩,
   ⟨q1, (WB Obj.NV_IMAGE 0 1 8 [4,5]), (D Obj.NV_IMAGE), (T []), by decide +kernel⟩,
   ⟨q0, (RB 0x123456 1 0), (T []), by decide +kernel⟩,
   ⟨q0, (RB Obj.XC_TURN_LEN 1 0), (D Obj.XC_TURN_LEN), (T []), by decide +kernel⟩⟩
theorem witness_4 :
    (∃ (q : Req) (body : List Byte) (d : ObjDesc) (x : Transfer) (u : List Upset) (s : State), s.servedFor q = true ∧ body.length = 8 ∧ objDesc (bodyKey body) = some d ∧ d.type = .domain ∧ bit (body.getD 3 0).toNat 0 = false ∧ bit (body.getD 3 0).toNat 2 = false ∧ s.transferOf q = some x ∧ x.write = false ∧ objKey x.index x.sub = bodyKey body ∧ fromLE ((body.drop 4).take 4) < x.total ∧ (s.channelRead 4 ((snapshotAddr (bodyKey body) x.slot + fromLE ((body.drop 4).take 4)) / 8 * 8) ((snapshotAddr (bodyKey body) x.slot + fromLE ((body.drop 4).take 4)) % 8 + min 480 (x.total - fromLE ((body.drop 4).take 4))) u).2 ≠ none) ∧
    (∃ (q : Req) (body : List Byte) (d : ObjDesc) (x : Transfer) (s : State), s.servedFor q = true ∧ body.length = 8 ∧ objDesc (bodyKey body) = some d ∧ d.type = .domain ∧ bit (body.getD 3 0).toNat 0 = false ∧ bit (body.getD 3 0).toNat 2 = false ∧ s.transferOf q = some x ∧ (x.write = true ∨ objKey x.index x.sub ≠ bodyKey body)) ∧
    (∃ (q : Req) (body : List Byte) (d : ObjDesc) (s : State), s.servedFor q = true ∧ body.length = 8 ∧ objDesc (bodyKey body) = some d ∧ d.type = .domain ∧ bit (body.getD 3 0).toNat 2 = true ∧ s.transferOf q = none) ∧
    (∃ (q : Req) (body : List Byte) (d : ObjDesc) (s : State), s.servedFor q = true ∧ body.length = 8 ∧ objDesc (bodyKey body) = some d ∧ d.type = .domain ∧ bit (body.getD 3 0).toNat 0 = false ∧ bit (body.getD 3 0).toNat 2 = false ∧ s.transferOf q = none) :=
  ⟨⟨q0, (RB Obj.NV_IMAGE 0x80 100), (D Obj.NV_IMAGE), xr, [.word 0x5BC100 .double 3], (T [xr]), by decide +kernel⟩,
   ⟨q0, (RB Obj.NV_IMAGE 0x80 100), (D Obj.NV_IMAGE), { xr with write := true }, (T [{ xr with write := true }]), by decide +kernel⟩,
   ⟨q0, (RB Obj.NV_IMAGE 4 100), (D Obj.NV_IMAGE), (T []), by decide +kernel⟩,
   ⟨q0, (RB Obj.NV_IMAGE 0 100), (D Obj.NV_IMAGE), (T []), by decide +kernel⟩⟩
theorem witness_5 :
    (∃ (q : Req) (body : List Byte) (d : ObjDesc) (s : State), s.servedFor q = true ∧ body.length = 8 ∧ objDesc (bodyKey body) = some d ∧ d.type = .domain ∧ bit (body.getD 3 0).toNat 0 = true ∧ bit (body.getD 3 0).toNat 2 = false ∧ (s.closeTransfer q).cufel.transfers.length < 4 ∧ (bodyKey body ∉ [Obj.NV_IMAGE, Obj.NV_PATCH] ∨ (s.closeTransfer q).nvOpen = false) ∧ (((match (s.closeTransfer q).domainRead (bodyKey body) with | .error c => some c | .ok _ => none)).any fun c => decide (True)) = true) ∧
    (∃ (q : Req) (body : List Byte) (d : ObjDesc) (p : Path) (src : BitVec 16) (s : State), s.servedFor q = true ∧ body.length = 8 ∧ objDesc (bodyKey body) = some d ∧ d.type = .domain ∧ bit (body.getD 3 0).toNat 0 = true ∧ bit (body.getD 3 0).toNat 2 = false ∧ (s.closeTransfer q).cufel.transfers.length < 4 ∧ (bodyKey body ∉ [Obj.NV_IMAGE, Obj.NV_PATCH] ∨ (s.closeTransfer q).nvOpen = false) ∧ ((((s.closeTransfer q).domainRead (bodyKey body)).toOption).any fun r => decide ((fromLE ((body.drop 4).take 4) = 0))) = true ∧ ((((s.closeTransfer q).domainRead (bodyKey body)).toOption).any fun r => decide ((bodyKey body = Obj.PRB_DATA))) = true ∧ ((((s.closeTransfer q).domainRead (bodyKey body)).toOption).any fun r => decide ((bodyKey body = Obj.PRB_DATA) ∧ (s.o Obj.PRB_CODED = 0))) = true ∧ (body.length < 12 ∨ 492 < body.length) ∧ s.awake = true ∧ (∃ y ∈ s.cufel.transfers, y.path = p ∧ y.src = src.toNat)) :=
  ⟨⟨q0, (RB Obj.PRB_DATA 1 0), (D Obj.PRB_DATA), (T []), by decide +kernel⟩,
   ⟨q0, (RB Obj.PRB_DATA 1 0), (D Obj.PRB_DATA), .north, 0xFF01, ((T [xr]).setO Obj.PRB_STATE 5), by decide +kernel⟩⟩
theorem witness_6 :
    (∃ (q : Req) (body : List Byte) (d : ObjDesc) (x : Transfer) (s : State), s.servedFor q = true ∧ 12 ≤ body.length ∧ body.length ≤ 492 ∧ objDesc (bodyKey body) = some d ∧ (d.acc = .rw ∨ d.acc = .wo) ∧ d.type = .domain ∧ (d.expert = false ∨ s.isExpert q = true) ∧ s.transferOf q = some x ∧ x.write = true ∧ objKey x.index x.sub = bodyKey body ∧ (body.getD 3 0).toNat % 8 = 2 ∧ fromLE ((body.drop 8).take 4) = x.total ∧ fromLE ((body.drop 4).take 4) = x.data.length ∧ x.data.length + (body.drop 12).length = x.total ∧ bodyKey body = Obj.NV_IMAGE) ∧
    (∃ (q : Req) (body : List Byte) (d : ObjDesc) (x : Transfer) (s : State), s.servedFor q = true ∧ 12 ≤ body.length ∧ body.length ≤ 492 ∧ objDesc (bodyKey body) = some d ∧ (d.acc = .rw ∨ d.acc = .wo) ∧ d.type = .domain ∧ (d.expert = false ∨ s.isExpert q = true) ∧ s.transferOf q = some x ∧ x.write = true ∧ objKey x.index x.sub = bodyKey body ∧ (body.getD 3 0).toNat % 8 = 2 ∧ fromLE ((body.drop 8).take 4) = x.total ∧ fromLE ((body.drop 4).take 4) = x.data.length ∧ x.data.length + (body.drop 12).length = x.total ∧ bodyKey body = Obj.NV_PATCH) :=
  ⟨⟨q0, (WB Obj.NV_IMAGE 2 3 9 [4,5,6,7,8,9]), (D Obj.NV_IMAGE), xw, (T [xw]), by decide +kernel⟩,
   ⟨q0, (WB Obj.NV_PATCH 2 3 9 [4,5,6,7,8,9]), (D Obj.NV_PATCH), { xw with index := Obj.NV_PATCH / 256, sub := Obj.NV_PATCH % 256 }, (T [{ xw with index := Obj.NV_PATCH / 256, sub := Obj.NV_PATCH % 256 }]), by decide +kernel⟩⟩
end BlockTransfersGoSegmentBySegment

namespace ApplyAndRestoreActOnTheirObjects
def E : State := { srv with cufel := { srv.cufel with sessions := [{ path := .north, src := q0.src.toNat }] }, shadowPend := [(7, 8)] }
theorem witness :
    (∃ (q : Req) (s : State), s.servedFor q = true ∧ s.badLength q 0 = false ∧ s.xc + 2 < 2 ^ 48 - 2 ^ 24 ∧ s.o Obj.XC_TURN_LEN ≠ 0 ∧ s.o Obj.XC_TURN_LEN < 2 ^ 24 ∧ s.badLength q 1 = false ∧ s.badScope q = false ∧ s.isExpert q = true ∧ s.restoreBlocked = true ∧ s.nvOpen = false) ∧
    (∃ (q : Req) (s : State), s.servedFor q = true ∧ s.badLength q 1 = false ∧ s.isExpert q = false) ∧
    (∃ (q : Req) (s : State), s.servedFor q = true ∧ s.badLength q 0 = true ∧ s.badLength q 1 = false ∧ s.isExpert q = true ∧ (∃ b ∈ s.queuedBody q, fromLE b = 0 ∨ 3 < fromLE b)) ∧
    (∃ (q : Req) (s : State), s.servedFor q = true ∧ s.badLength q 1 = true) ∧
    (∃ (q : Req) (s : State), s.servedFor q = true ∧ s.badLength q 1 = false ∧ s.badScope q = false ∧ s.isExpert q = true ∧ s.restoreBlocked = false ∧ s.nvOpen = false) ∧
    (∃ (q : Req) (s : State), s.servedFor q = true ∧ s.badLength q 1 = false ∧ s.badScope q = false ∧ s.isExpert q = true ∧ s.nvOpen = true) :=
  ⟨⟨q0, E, by decide +kernel⟩,
   ⟨q1, E, by decide +kernel⟩,
   ⟨q0, { E with cufel := { E.cufel with queue := [{ path := .north, msg := { mtype := 6, alive := 0, tid := 5, dst := 4, src := 0xFF01, status := 0, resp := false, body := [4] }, addr := 3 }] } }, by decide +kernel⟩,
   ⟨q0, { E with cufel := { E.cufel with queue := [{ path := .north, msg := { mtype := 6, alive := 0, tid := 5, dst := 4, src := 0xFF01, status := 0, resp := false, body := [] }, addr := 3 }] } }, by decide +kernel⟩,
   ⟨q0, ((E.setO Obj.PWR_STATE 2).setO Obj.CAN_ENABLE 0), by decide +kernel⟩,
   ⟨q0, { E with cufel := { E.cufel with transfers := [{ path := .north, src := 9, index := Obj.NV_IMAGE / 256, sub := Obj.NV_IMAGE % 256, write := false, data := [], total := 40, prev := none }] } }, by decide +kernel⟩⟩
end ApplyAndRestoreActOnTheirObjects

namespace StoresWriteTheOtherBank
def E (b : Nat) : State := { srv.setO Obj.NV_BANK b with cufel := { srv.cufel with sessions := [{ path := .north, src := q0.src.toNat }] } }
theorem witness :
    (∃ (q : Req) (s : State), s.servedFor q = true ∧ s.isExpert q = false ∧ s.badLength q 0 = false) ∧
    (∃ (q : Req) (img : List Byte) (s : State), s.servedFor q = true ∧ s.isExpert q = true ∧ s.nvOpenElse q = false ∧ imageOk img = true) ∧
    (∃ (q : Req) (s : State), s.servedFor q = true ∧ s.isExpert q = true ∧ s.badLength q 0 = false ∧ s.nvOpen = true ∧ s.nvOpenElse q = true ∧ s.awake = true ∧ s.o Obj.NV_BANK ≠ 0xFF ∧ s.cufel.down = false) ∧
    (∃ (s : State), s.cufel.down = true) ∧
    (∃ (q : Req) (j : BitVec 13) (img : List Byte) (weak : Bool) (s : State), s.servedFor q = true ∧ s.isExpert q = true ∧ s.badLength q 0 = false ∧ s.nvOpen = false ∧ s.nvOpenElse q = false ∧ imageOk img = false ∧ img.length ≤ 0x6FF8 ∧ 1 ≤ j.toNat ∧ j.toNat < ceilDiv img.length 8 + 1 ∧ s.awake = true ∧ (s.o Obj.NV_BANK = 0xFF ∨ (weak = false ∧ s.o Obj.FLT_LIFE_HOURS < s.nv.since + s.o Obj.NV_REFRESH_PER)) ∧ s.o Obj.NV_BANK ≠ 0xFF ∧ s.cufel.down = false) ∧
    (∃ (q : Req) (img : List Byte) (s : State), s.servedFor q = true ∧ s.isExpert q = true ∧ s.nvOpenElse q = false ∧ 0x6FF8 < img.length) ∧
    (∃ (q : Req) (s : State), s.servedFor q = true ∧ s.badLength q 0 = true) :=
  ⟨⟨q1, (E 0), by decide +kernel⟩,
   ⟨q0, (bankHeader 7 0 0 0 0x0200 0x11), (E 1), by decide +kernel⟩,
   ⟨q0, { E 1 with cufel := { (E 1).cufel with transfers := [{ path := .north, src := 9, index := Obj.NV_IMAGE / 256, sub := Obj.NV_IMAGE % 256, write := false, data := [], total := 40, prev := none }] } }, by decide +kernel⟩,
   ⟨{ E 1 with cufel := { (E 1).cufel with down := true } }, by decide +kernel⟩,
   ⟨q0, 1, (List.replicate 16 1), false, (E 1), by decide +kernel⟩,
   ⟨q0, (List.replicate 28665 1), (E 1), by decide +kernel⟩,
   ⟨q0, { E 0xFF with cufel := { (E 0xFF).cufel with queue := [{ path := .north, msg := { mtype := 5, alive := 0, tid := 5, dst := 4, src := 0xFF01, status := 0, resp := false, body := [4] }, addr := 3 }] } }, by decide +kernel⟩⟩
end StoresWriteTheOtherBank

namespace TheBusElectsItsKeeper
def C (st : Nat) (c : Can) (ke : Nat := 1) : State := { ((((srv.setO Obj.CAN_STATE st).setO Obj.CAN_NODE 9).setO Obj.CAN_CLKSRC 1).setO Obj.CAN_KEEPER_EN ke).setO Obj.CAN_BEACON_PER 1 with can := c }
theorem witness :
    (∃ (node : BitVec 6) (s : State), s.awake = true ∧ (s.o Obj.CAN_STATE ∉ [1, 2] ∨ (s.o Obj.CAN_STATE = 1 ∧ s.o Obj.CAN_CLKSRC = 0)) ∧ s.cufel.outCan = [] ∧ s.o Obj.CAN_STATE = 3 ∧ s.can.busOff = false ∧ s.can.claimSent = true ∧ s.o Obj.CAN_TEC + 8 < 256 ∧ 2 ≤ s.can.collisions ∧ s.o Obj.CAN_STATE ≠ 5 ∧ s.canHears = true ∧ node.toNat = s.o Obj.CAN_NODE ∧ s.o Obj.CAN_STATE ∈ [2, 3, 4, 5] ∧ s.o Obj.CAN_REC < 128 ∧ (s.o Obj.CAN_STATE ≠ 4 ∨ s.can.busOff = true)) ∧
    (∃ (node : BitVec 6) (s : State), s.awake = true ∧ s.o Obj.CAN_STATE = 3 ∧ s.can.busOff = false ∧ s.can.collisions < 2 ∧ s.canHears = true ∧ node.toNat < s.o Obj.CAN_NODE ∧ s.o Obj.CAN_STATE ∈ [3, 4]) ∧
    (∃ (node : BitVec 6) (s : State), s.awake = true ∧ (s.o Obj.CAN_STATE ≠ 3 ∨ s.can.busOff = true) ∧ s.o Obj.CAN_STATE ≠ 3 ∧ s.cufel.outCan = [] ∧ s.canHears = true ∧ s.o Obj.CAN_NODE < node.toNat ∧ s.o Obj.CAN_STATE = 4 ∧ s.can.busOff = false ∧ s.o Obj.CAN_BEACON_PER ≠ 0 ∧ s.o Obj.NT_STATE ≠ 0) ∧
    (∃ (node : BitVec 6) (s : State), s.awake = true ∧ (s.o Obj.CAN_STATE = 2 ∨ (s.o Obj.CAN_STATE = 1 ∧ s.o Obj.CAN_CLKSRC ≠ 0)) ∧ s.canHears = true ∧ s.o Obj.CAN_NODE < node.toNat ∧ s.o Obj.CAN_STATE = 2) ∧
    (∃ (s : State), s.awake = true ∧ s.o Obj.CAN_STATE = 5) ∧
    (∃ (s : State), s.awake = true ∧ s.can.busOff = true ∧ s.canHears = false) ∧
    (∃ (s : State), s.awake = true ∧ s.o Obj.CAN_STATE = 4 ∧ s.can.busOff = false ∧ s.o Obj.CAN_BEACON_PER = 0) ∧
    (∃ (s : State), s.awake = true ∧ s.o Obj.CAN_STATE = 3 ∧ s.can.busOff = false ∧ 256 ≤ s.o Obj.CAN_TEC + 8) :=
  ⟨⟨9, (C 3 { claimSent := true, collisions := 2 }), by decide +kernel⟩,
   ⟨8, (C 3 { claimSent := true, collisions := 1 }), by decide +kernel⟩,
   ⟨10, ((C 4 {}).setO Obj.NT_STATE 2), by decide +kernel⟩,
   ⟨10, (C 2 {} 0), by decide +kernel⟩,
   ⟨(C 5 { lower := true }), by decide +kernel⟩,
   ⟨(C 6 { busOff := true }), by decide +kernel⟩,
   ⟨((C 4 {}).setO Obj.CAN_BEACON_PER 0), by decide +kernel⟩,
   ⟨((C 3 {}).setO Obj.CAN_TEC 250), by decide +kernel⟩⟩
theorem witness_2 :
    (∃ (s : State), s.awake = true ∧ s.canHears = true ∧ 128 ≤ s.o Obj.CAN_REC) :=
  ⟨((C 4 {}).setO Obj.CAN_REC 128), by decide +kernel⟩
end TheBusElectsItsKeeper

namespace CanFramesBecomeMessages
def C (st : Nat) (c : Can) (ke : Nat := 1) : State := { ((((srv.setO Obj.CAN_STATE st).setO Obj.CAN_NODE 9).setO Obj.CAN_CLKSRC (ke - 1)).setO Obj.CAN_KEEPER_EN ke).setO Obj.CAN_BEACON_PER 1 with can := c }
def I (ty s d q g : Nat) (l : Bool) : BitVec 29 := BitVec.ofNat 29 (canId ty s d q g l)
def r1 : Reasm := { node := 4, mseq := 3, segs := 1, bytes := { mtype := 1, alive := 0, tid := 0, dst := 0, src := 0, status := 0, resp := false, body := List.replicate 60 1 : Msg }.bytes.take 64 }
theorem witness :
    (∃ (k : CanKind) (id : BitVec 29) (data : List Byte) (node : BitVec 6) (r : Reasm) (s : State), s.awake = true ∧ s.cufel.outCan = [] ∧ s.canHears = true ∧ (k = .fd ∨ k = .foreign) ∧ s.o Obj.CAN_REC < 128 ∧ bits id.toNat 28 25 ∈ [0, 1, 2, 4, 6, 8] ∧ k = .fd ∧ bits id.toNat 28 25 ∈ [4, 6, 8] ∧ bits id.toNat 24 19 ≠ s.o Obj.CAN_NODE ∧ bits id.toNat 18 13 = s.o Obj.CAN_NODE ∧ bits id.toNat 9 7 ≠ 0 ∧ s.can.reasm.find? (fun x => x.node == bits id.toNat 24 19) = some r ∧ r.mseq = bits id.toNat 12 10 ∧ r.segs = bits id.toNat 9 7 ∧ bit id.toNat 6 = true ∧ ceilDiv (20 + msgLen (r.bytes ++ data)) 64 = r.segs + 1 ∧ s.can.inbox.length < 8 ∧ (∃ x ∈ s.can.reasm, x.node = node.toNat) ∧ s.can.busOff = false) ∧
    (∃ (k : CanKind) (id : BitVec 29) (r : Reasm) (s : State), s.awake = true ∧ s.cufel.outCan = [] ∧ s.canHears = true ∧ k = .fd ∧ bits id.toNat 28 25 ∈ [4, 6, 8] ∧ bits id.toNat 24 19 ≠ s.o Obj.CAN_NODE ∧ bits id.toNat 18 13 = s.o Obj.CAN_NODE ∧ bits id.toNat 9 7 ≠ 0 ∧ s.can.reasm.find? (fun x => x.node == bits id.toNat 24 19) = some r ∧ (r.mseq ≠ bits id.toNat 12 10 ∨ r.segs ≠ bits id.toNat 9 7)) ∧
    (∃ (k : CanKind) (id : BitVec 29) (data : List Byte) (s : State), s.awake = true ∧ s.cufel.outCan = [] ∧ s.canHears = true ∧ k = .fd ∧ bits id.toNat 28 25 ∈ [4, 6, 8] ∧ bits id.toNat 24 19 ≠ s.o Obj.CAN_NODE ∧ bits id.toNat 18 13 = s.o Obj.CAN_NODE ∧ bits id.toNat 9 7 = 0 ∧ bit id.toNat 6 = true ∧ ceilDiv (20 + msgLen data) 64 = 1 ∧ s.can.inbox.length < 8) :=
  ⟨⟨.fd, (I 6 4 9 3 1 true), (List.replicate 20 1), 4, r1, (C 2 { reasm := [r1], agree := 7 }), by decide +kernel⟩,
   ⟨.fd, (I 6 4 9 2 1 true), r1, (C 2 { reasm := [r1], agree := 7 }), by decide +kernel⟩,
   ⟨.fd, (I 6 4 9 2 0 true), (List.replicate 20 0), (C 2 { reasm := [r1], agree := 6 }), by decide +kernel⟩⟩
theorem witness_2 :
    (∃ (k : CanKind) (id : BitVec 29) (s : State), s.awake = true ∧ s.cufel.outCan = [] ∧ s.canHears = true ∧ k = .fd ∧ bits id.toNat 28 25 ∈ [4, 6, 8] ∧ bits id.toNat 24 19 ≠ s.o Obj.CAN_NODE ∧ bits id.toNat 18 13 = s.o Obj.CAN_NODE ∧ bits id.toNat 9 7 = 0 ∧ bit id.toNat 6 = true ∧ 8 ≤ s.can.inbox.length ∧ (∀ x ∈ s.can.reasm, x.node ≠ bits id.toNat 24 19)) ∧
    (∃ (node : BitVec 6) (s : State), s.awake = true ∧ s.cufel.outCan = [] ∧ s.canHears = false ∧ (∀ x ∈ s.can.reasm, x.node ≠ node.toNat) ∧ s.can.busOff = true) ∧
    (∃ (k : CanKind) (id : BitVec 29) (s : State), s.awake = true ∧ s.cufel.outCan = [] ∧ s.canHears = true ∧ k = .fd ∧ bits id.toNat 28 25 ∈ [4, 6, 8] ∧ bits id.toNat 24 19 = s.o Obj.CAN_NODE ∧ s.o Obj.CAN_STATE ∈ [2, 3, 4, 5]) ∧
    (∃ (k : CanKind) (id : BitVec 29) (s : State), s.awake = true ∧ s.cufel.outCan = [] ∧ s.canHears = true ∧ k = .fd ∧ bits id.toNat 28 25 ∈ [4, 6, 8] ∧ bits id.toNat 24 19 ≠ s.o Obj.CAN_NODE ∧ bits id.toNat 18 13 ≠ s.o Obj.CAN_NODE) ∧
    (∃ (k : CanKind) (id : BitVec 29) (s : State), s.awake = true ∧ s.cufel.outCan = [] ∧ s.canHears = true ∧ (k = .foreign ∨ (k = .fd ∧ bits id.toNat 28 25 ∉ [0, 1, 2, 4, 6, 8]))) ∧
    (∃ (k : CanKind) (id : BitVec 29) (s : State), s.awake = true ∧ s.cufel.outCan = [] ∧ s.canHears = true ∧ (k = .fd ∨ k = .foreign) ∧ 128 ≤ s.o Obj.CAN_REC ∧ k = .fd ∧ bits id.toNat 28 25 ∈ [4, 6, 8] ∧ bits id.toNat 24 19 ≠ s.o Obj.CAN_NODE ∧ bits id.toNat 18 13 = s.o Obj.CAN_NODE ∧ bits id.toNat 9 7 = 0 ∧ bit id.toNat 6 = false) :=
  ⟨⟨.fd, (I 6 4 9 2 0 true), (C 2 { inbox := List.replicate 8 (1, []), agree := 6 } 2), by decide +kernel⟩,
   ⟨4, (C 2 { busOff := true }), by decide +kernel⟩,
   ⟨.fd, (I 6 9 9 2 0 false), (C 3 { reasm := [r1] }), by decide +kernel⟩,
   ⟨.fd, (I 6 2 8 2 0 false), (C 3 { reasm := [r1] }), by decide +kernel⟩,
   ⟨.fd, (I 5 2 8 2 0 false), (C 3 { reasm := [r1] }), by decide +kernel⟩,
   ⟨.fd, (I 6 2 9 2 0 false), ((C 2 { reasm := [r1], agree := 7 }).setO Obj.CAN_REC 200), by decide +kernel⟩⟩
end CanFramesBecomeMessages

namespace FeedsRailsAndResetPinsResetTheDevice
def P (st fe : Nat) : State := { ((srv.setO Obj.PWR_STATE st).setO Obj.PWR_FEEDS fe).setO Obj.RST_COUNT 7 with nvm := [(3, 4)], spm := [(5, 6)] }
theorem witness :
    (∃ (f : Feed) (s : State), s.feedGood f = false ∧ (s.o Obj.PWR_STATE = 0 ∨ (s.feedGood .a = false ∧ s.feedGood .b = false)) ∧ ((s.feedGood .a = false ∧ s.feedGood .b = false) ∨ s.o Obj.PWR_STATE = 0) ∧ s.power.rstN = false ∧ s.o Obj.PWR_STATE = 0) ∧
    (∃ (f : Feed) (s : State), s.feedGood f = false ∧ s.o Obj.PWR_STATE ≠ 0 ∧ s.feedGood (if f = .a then .b else .a) = true ∧ s.inRun = true) ∧
    (∃ (f : Feed) (s : State), s.feedGood f = true ∧ s.feedGood (if f = .a then .b else .a) = true ∧ s.inService = true ∧ s.ob Obj.PWR_FEEDS 2 = decide (f = .b) ∧ (s.feedGood .a = false ∨ s.feedGood .b = false ∨ s.ob Obj.PWR_FEEDS 2 = false ∨ s.o Obj.PWR_FEED_RET = 0) ∧ (s.feedGood .a = true ∨ s.feedGood .b = true) ∧ s.o Obj.PWR_STATE ≠ 0 ∧ s.power.rstN = false) ∧
    (∃ (f : Feed) (k : BitVec 13) (s : State), s.feedGood f = true ∧ s.feedGood (if f = .a then .b else .a) = false ∧ s.ob Obj.PWR_FEEDS 3 = true ∧ s.nv.wrote.length ≤ k.toNat) ∧
    (∃ (f : Feed) (s : State), s.feedGood f = true ∧ s.feedGood (if f = .a then .b else .a) = true ∧ s.ob Obj.PWR_FEEDS 2 ≠ decide (f = .b) ∧ s.feedGood .a = true ∧ s.feedGood .b = true ∧ s.ob Obj.PWR_FEEDS 2 = true ∧ s.o Obj.PWR_FEED_RET ≠ 0 ∧ s.power.rstN = true) ∧
    (∃ (f : Feed) (k : BitVec 13) (s : State), s.feedGood f = true ∧ s.feedGood (if f = .a then .b else .a) = false ∧ s.ob Obj.PWR_FEEDS 3 = false ∧ s.nv.wrote.length = k.toNat + 1) ∧
    (∃ (f : Feed) (s : State), s.feedGood f = false ∧ s.o Obj.PWR_STATE ≠ 0 ∧ s.feedGood (if f = .a then .b else .a) = true ∧ s.inRun = false) :=
  ⟨⟨.a, (P 0 0), by decide +kernel⟩,
   ⟨.a, (P 3 2), by decide +kernel⟩,
   ⟨.a, (P 3 3), by decide +kernel⟩,
   ⟨.a, 1, (P 3 9), by decide +kernel⟩,
   ⟨.a, { P 3 15 with power := { (P 3 15).power with rstN := true } }, by decide +kernel⟩,
   ⟨.a, 0, { P 3 1 with nv := { (P 3 1).nv with wrote := [(0x18000, 8, 5)] } }, by decide +kernel⟩,
   ⟨.b, (P 1 1), by decide +kernel⟩⟩
end FeedsRailsAndResetPinsResetTheDevice

namespace FunctionCommandsAreJudged
def ch (used : Bool := false) : Challenge := { path := .north, src := 0xFF01, value := 0x1234, key := 0x00FF, used := used }
def S (used : Bool) (lock : Bool := false) : State := { srv with cufel := { srv.cufel with challenges := [ch used], failsNorth := 0, lockNorth := lock, sessions := [{ path := .north, src := 0xFF01 }] } }
theorem witness :
    (∃ (q : Req) (func : BitVec 8) (s : State), s.servedFor q = true ∧ s.badLength q 8 = false ∧ 9 < func) ∧
    (∃ (q : Req) (key : BitVec 16) (arg : BitVec 32) (inTime : Bool) (func : BitVec 8) (cmd : BitVec 8) (c : Challenge) (s : State), s.servedFor q = true ∧ s.badLength q 8 = false ∧ arg ≠ 0 ∧ (arg ≠ 0 ∨ key ≠ 0) ∧ s.isExpert q = true ∧ s.cufel.locked q.path = false ∧ s.challengeOf q = some c ∧ (inTime = false ∨ c.used = true ∨ key.toNat ≠ c.value ^^^ c.key) ∧ s.inRun = true ∧ s.power.parking = none ∧ s.power.reinit = [] ∧ (s.o Obj.PWR_STATE ≠ 2 ∨ s.o Obj.CF_ROLE = 3) ∧ func ≤ 9 ∧ s.roleOff func.toNat = false ∧ func.toNat ∉ s.power.reinit ∧ (9 < func ∨ cmd ≠ 2)) ∧
    (∃ (q : Req) (s : State), s.servedFor q = true ∧ s.badLength q 8 = false ∧ s.isExpert q = true ∧ s.cufel.locked q.path = true) ∧
    (∃ (q : Req) (func : BitVec 8) (s : State), s.servedFor q = true ∧ s.badLength q 8 = false ∧ s.isExpert q = false ∧ func ≤ 9) ∧
    (∃ (q : Req) (key : BitVec 16) (inTime : Bool) (func : BitVec 8) (c : Challenge) (s : State), s.servedFor q = true ∧ s.badLength q 8 = false ∧ s.isExpert q = true ∧ s.cufel.locked q.path = false ∧ s.challengeOf q = some c ∧ inTime = true ∧ c.used = false ∧ key.toNat = c.value ^^^ c.key ∧ (s.inRun = false ∨ s.power.parking ≠ none ∨ s.power.reinit ≠ []) ∧ s.o Obj.PWR_STATE = 2 ∧ s.o Obj.CF_ROLE ≠ 3 ∧ func ≤ 9 ∧ s.reinitCheck func.toNat ≠ .ok) ∧
    (∃ (q : Req) (s : State), s.servedFor q = true ∧ s.badLength q 8 = true) :=
  ⟨⟨q0, 10, (S false), by decide +kernel⟩,
   ⟨q0, 0x12CC, 7, true, 1, 3, (ch true), (S true), by decide +kernel⟩,
   ⟨q0, (S true true), by decide +kernel⟩,
   ⟨q1, 5, (S true true), by decide +kernel⟩,
   ⟨q0, 0x12CB, true, 6, (ch), ((S false).setO Obj.PWR_STATE 2), by decide +kernel⟩,
   ⟨q0, { S false with cufel := { (S false).cufel with queue := [{ path := .north, msg := { mtype := 8, alive := 0, tid := 5, dst := 4, src := 0xFF01, status := 0, resp := false, body := [4] }, addr := 3 }] } }, by decide +kernel⟩⟩
end FunctionCommandsAreJudged

namespace TheCommandedResetFollowsItsResponse
def A : State := { (((srv.setO Obj.RST_COUNT 4).setO Obj.RST_PCYC 7).setO Obj.PWR_FEEDS 9).setO (Obj.FE_ENABLE 4) 1 with cufel := { srv.cufel with after := some .reset }, spm := [(1, 2)], nvm := [(7, 7)], livePend := [(1, 1)] }
theorem witness :
    (∃ (s : State), s.awake = true ∧ s.cufel.after ≠ some .reset) ∧
    (∃ (s : State), s.awake = true ∧ s.cufel.after = some .reset) :=
  ⟨⟨srv, by decide +kernel⟩,
   ⟨A, by decide +kernel⟩⟩
end TheCommandedResetFollowsItsResponse

namespace BootStepsCompleteInOrder
def B (m : Nat) : State := (((State.reset.setO Obj.PWR_STATE 1).setO Obj.CLK_STATE 3).setO Obj.PWR_BOOT_STEP m)
def hg : List (List Nat × List Nat) := [(List.replicate 160 410, List.replicate 80 205)]
def W (m : BitVec 64) : List (BitVec 64) := List.replicate 37 m
theorem witness :
    (∃ (bist : BitVec 39) (s : State), s.ob Obj.PWR_BOOT_STEP 3 = false ∧ (s.ob Obj.PWR_BOOT_STEP 3 = false ∨ s.ob Obj.PWR_BOOT_STEP 5 = false) ∧ s.o Obj.PWR_STATE = 1 ∧ s.o Obj.CLK_STATE ≠ 5 ∧ s.frz.frozen = false ∧ s.power.rstN = false ∧ s.ob Obj.PWR_BOOT_STEP 2 = true ∧ bist ≠ 0) ∧
    (∃ (d1 : List (BitVec 64)) (d2 : List (BitVec 64)) (d3 : List (BitVec 64)) (hk : List (Int × Int)) (s : State), (s.power.rstN = true ∨ s.ob Obj.PWR_BOOT_STEP 2 = false ∨ s.ob Obj.PWR_BOOT_STEP 3 = true) ∧ s.o Obj.PWR_STATE = 1 ∧ s.o Obj.CLK_STATE ≠ 5 ∧ s.frz.frozen = false ∧ s.ob Obj.PWR_BOOT_STEP 1 = false ∧ s.power.rstN = false ∧ s.ob Obj.PWR_BOOT_STEP 3 = true ∧ s.ob Obj.PWR_BOOT_STEP 6 = false ∧ s.ob Obj.PWR_BOOT_STEP 4 = false ∧ s.o Obj.CF_ROLE ≠ 3 ∧ s.cufel.down = false ∧ chooseBank s.nvm false false = 0xFF ∧ s.ob Obj.PWR_BOOT_STEP 5 = true ∧ s.ob Obj.PWR_BOOT_STEP 7 = false ∧ (∀ d ∈ [d1, d2, d3], sweepFailing (sweepWindows d) = 0 ∧ delayWorks (sweepWindows d) 36 = true) ∧ s.ob Obj.PWR_BOOT_STEP 8 = false ∧ s.hk.passed = [] ∧ (s.hkConsts 0 (hk.take 4)).isSome = false ∧ (s.hkConsts 1 (hk.drop 4)).isSome = false) ∧
    (∃ (s : State), (s.o Obj.PWR_STATE ≠ 1 ∨ s.o Obj.CLK_STATE = 5 ∨ s.frz.frozen = true)) :=
  ⟨⟨5, (B 4), by decide +kernel⟩,
   ⟨(W 0xFF00), (W 0xFF0), (W (-1)), [], (B 0x28), by decide +kernel⟩,
   ⟨clk, by decide +kernel⟩⟩
theorem witness_2 :
    (∃ (hists : List (List Nat × List Nat)) (hk : List (Int × Int)) (c : Ch) (s : State), s.o Obj.PWR_STATE = 1 ∧ s.o Obj.CLK_STATE ≠ 5 ∧ s.frz.frozen = false ∧ s.power.rstN = false ∧ s.ob Obj.PWR_BOOT_STEP 3 = true ∧ s.ob Obj.PWR_BOOT_STEP 5 = true ∧ s.ob Obj.PWR_BOOT_STEP 8 = false ∧ s.cufel.down = false ∧ s.o Obj.CF_ROLE ≠ 3 ∧ s.hk.passed = [] ∧ (s.hkConsts 0 (hk.take 4)).isSome = true ∧ (s.hkConsts 1 (hk.drop 4)).isSome = true ∧ bootRunOk (hists.getD c ([], [])) = false) ∧
    (∃ (hists : List (List Nat × List Nat)) (hk : List (Int × Int)) (c : Ch) (s : State), s.o Obj.PWR_STATE = 1 ∧ s.o Obj.CLK_STATE ≠ 5 ∧ s.frz.frozen = false ∧ s.power.rstN = false ∧ s.ob Obj.PWR_BOOT_STEP 3 = true ∧ s.ob Obj.PWR_BOOT_STEP 5 = true ∧ s.ob Obj.PWR_BOOT_STEP 8 = false ∧ s.cufel.down = false ∧ s.o Obj.CF_ROLE ≠ 3 ∧ s.hk.passed = [] ∧ (s.hkConsts 0 (hk.take 4)).isSome = true ∧ (s.hkConsts 1 (hk.drop 4)).isSome = true ∧ bootRunOk (hists.getD c ([], [])) = true) ∧
    (∃ (hk : List (Int × Int)) (s : State), s.o Obj.PWR_STATE = 1 ∧ s.o Obj.CLK_STATE ≠ 5 ∧ s.frz.frozen = false ∧ s.power.rstN = false ∧ s.ob Obj.PWR_BOOT_STEP 3 = true ∧ s.ob Obj.PWR_BOOT_STEP 5 = true ∧ s.ob Obj.PWR_BOOT_STEP 8 = false ∧ s.cufel.down = false ∧ s.o Obj.CF_ROLE ≠ 3 ∧ s.hk.passed = [] ∧ (s.hkConsts 0 (hk.take 4)).isSome = true ∧ (s.hkConsts 1 (hk.drop 4)).isSome = false) ∧
    (∃ (s : State), s.cufel.down = true ∧ (s.cufel.down = true ∨ s.o Obj.CF_ROLE = 3)) :=
  ⟨⟨hg, (List.replicate 8 (0, 393216)), 0, (B 0x28), by decide +kernel⟩,
   ⟨[(List.replicate 128 512 ++ List.replicate 32 0, List.replicate 64 256 ++ List.replicate 16 0)], (List.replicate 8 (5, 393000)), 0, (B 0x28), by decide +kernel⟩,
   ⟨((List.replicate 4 (0, 393216)) ++ (List.replicate 4 (1, 2))), (B 0x28), by decide +kernel⟩,
   ⟨{ B 0x28 with cufel := { (B 0x28).cufel with down := true } }, by decide +kernel⟩⟩
end BootStepsCompleteInOrder

namespace BootEndsInRunOrParked
def B (m : Nat) : State := (((State.reset.setO Obj.PWR_STATE 1).setO Obj.CLK_STATE 3).setO Obj.PWR_BOOT_STEP m)
def R (p : Option Nat) (st : Nat) : State := { srv.setO Obj.PWR_STATE st with power := { srv.power with parking := p }, query := { srv.query with items := [] } }
theorem witness :
    (∃ (s : State), s.awake = true ∧ s.bootReady = true ∧ (s.o Obj.PWR_BOOT_PARK ≠ 0 ∨ s.power.deferred = []) ∧ s.o Obj.PWR_BOOT_PARK = 0 ∧ s.power.deferred = [] ∧ s.parking = false ∧ s.o Obj.PWR_STATE ≠ 2) ∧
    (∃ (s : State), s.awake = true ∧ s.bootReady = true ∧ (s.o Obj.PWR_BOOT_PARK ≠ 0 ∨ s.power.deferred = []) ∧ s.o Obj.PWR_BOOT_PARK ≠ 0) ∧
    (∃ (v : BitVec 9) (s : State), s.awake = true ∧ s.bootReady = false ∧ s.unparkReady = false ∧ (s.ob Obj.CLK_PLL_STATUS 0 = false ∨ s.o Obj.CLK_STATE ≠ 3 ∨ (∃ r ∈ ([0, 1, 2] : List Nat), s.rstate r ∈ [5, 6]) ∨ (∃ i ∈ List.range 25, s.laneWant i ≠ 2 ∧ s.pstate i = 2)) ∧ s.power.deferred = [] ∧ s.parking = true ∧ s.inRun = true ∧ s.drained = true ∧ (s.o Obj.PWR_STATE ∉ [2, 3, 5] ∨ s.power.strapSeen = true ∨ v.toNat = s.o Obj.PWR_STRAPS)) ∧
    (∃ (v : BitVec 9) (s : State), s.awake = true ∧ s.power.deferred = [] ∧ s.inRun = true ∧ s.drained = false ∧ s.o Obj.PWR_STATE ∈ [2, 3, 5] ∧ s.power.strapSeen = false ∧ v.toNat ≠ s.o Obj.PWR_STRAPS) ∧
    (∃ (s : State), s.awake = true ∧ s.unparkReady = true ∧ s.power.deferred = []) :=
  ⟨⟨(B 0x1FE), by decide +kernel⟩,
   ⟨((B 0x1FE).setO Obj.PWR_BOOT_PARK 1), by decide +kernel⟩,
   ⟨0, (R (some 0) 3), by decide +kernel⟩,
   ⟨3, ((R (some 0) 5).setO Obj.ASM_STATE 1), by decide +kernel⟩,
   ⟨{ (((R none 2).setO Obj.CLK_PLL_STATUS 1).setO (Obj.LN_PSTATE 0) 0).setO (Obj.LN_PSTATE 8) 0 with power := { srv.power with unparking := true } }, by decide +kernel⟩⟩
end BootEndsInRunOrParked

namespace TheLadderClimbsItsSteps
def L (st po : Nat) (f : Nat := 4) : State := { (((srv.setO (Obj.REC_STATUS f) st).setO (Obj.REC_POLICY f) po).setO Obj.REC_PCYC_EN 1).setO Obj.REC_RESET_LIMIT 2 with watch := { raised := [(f, 3)] } }
theorem witness :
    (∃ (f : Fin 10) (c : Ch) (s : State), s.awake = true ∧ (f.val, c) ∈ s.watch.raised ∧ s.cufel.down = false ∧ bits (s.o (Obj.REC_STATUS f)) 3 0 < bits (s.o (Obj.REC_POLICY f)) 3 0) ∧
    (∃ (f : Fin 10) (c : Ch) (s : State), s.awake = true ∧ (f.val, c) ∈ s.watch.raised ∧ s.cufel.down = false ∧ bits (s.o (Obj.REC_POLICY f)) 3 0 ≤ bits (s.o (Obj.REC_STATUS f)) 3 0 ∧ 2 ≤ bits (s.o (Obj.REC_POLICY f)) 11 8 ∧ bits (s.o (Obj.REC_STATUS f)) 7 4 < bits (s.o (Obj.REC_POLICY f)) 7 4 ∧ s.power.parking ≠ none ∧ s.power.faults = [] ∧ s.power.deferred = [] ∧ s.power.newRepairs = [] ∧ s.power.swept = false) ∧
    (∃ (f : Fin 10) (c : Ch) (s : State), s.awake = true ∧ (f.val, c) ∈ s.watch.raised ∧ s.cufel.down = false ∧ bits (s.o (Obj.REC_POLICY f)) 3 0 ≤ bits (s.o (Obj.REC_STATUS f)) 3 0 ∧ (bits (s.o (Obj.REC_POLICY f)) 11 8 < 2 ∨ bits (s.o (Obj.REC_POLICY f)) 7 4 ≤ bits (s.o (Obj.REC_STATUS f)) 7 4) ∧ 3 ≤ bits (s.o (Obj.REC_POLICY f)) 11 8 ∧ s.o Obj.RST_LADDER < s.o Obj.REC_RESET_LIMIT ∧ s.inRun = true ∧ s.o Obj.NV_STATE = 0) ∧
    (∃ (f : Fin 10) (c : Ch) (s : State), s.awake = true ∧ (f.val, c) ∈ s.watch.raised ∧ s.cufel.down = false ∧ bits (s.o (Obj.REC_POLICY f)) 3 0 ≤ bits (s.o (Obj.REC_STATUS f)) 3 0 ∧ (bits (s.o (Obj.REC_POLICY f)) 11 8 < 2 ∨ bits (s.o (Obj.REC_POLICY f)) 7 4 ≤ bits (s.o (Obj.REC_STATUS f)) 7 4) ∧ 3 ≤ bits (s.o (Obj.REC_POLICY f)) 11 8 ∧ s.o Obj.RST_LADDER < s.o Obj.REC_RESET_LIMIT ∧ (s.inRun = false ∨ s.o Obj.NV_STATE ≠ 0)) :=
  ⟨⟨4, 3, (L 1 0x0423), by decide +kernel⟩,
   ⟨4, 3, { L 3 0x0423 with power := { srv.power with parking := some 9 } }, by decide +kernel⟩,
   ⟨4, 3, (L 0x23 0x0423), by decide +kernel⟩,
   ⟨4, 3, ((L 0x23 0x0423).setO Obj.PWR_STATE 2), by decide +kernel⟩⟩
theorem witness_2 :
    (∃ (f : Fin 10) (c : Ch) (s : State), s.awake = true ∧ (f.val, c) ∈ s.watch.raised ∧ s.cufel.down = false ∧ bits (s.o (Obj.REC_POLICY f)) 3 0 ≤ bits (s.o (Obj.REC_STATUS f)) 3 0 ∧ (bits (s.o (Obj.REC_POLICY f)) 11 8 < 2 ∨ bits (s.o (Obj.REC_POLICY f)) 7 4 ≤ bits (s.o (Obj.REC_STATUS f)) 7 4) ∧ s.o Obj.REC_RESET_LIMIT ≤ s.o Obj.RST_LADDER ∧ 4 ≤ bits (s.o (Obj.REC_POLICY f)) 11 8 ∧ s.o Obj.REC_PCYC_EN ≠ 0 ∧ s.inRun = true ∧ s.o Obj.NV_STATE = 0) ∧
    (∃ (f : Fin 10) (s : State), s.awake = true ∧ (∀ e ∈ s.watch.raised, e.1 ≠ f.val) ∧ (∀ e ∈ s.watch.outages, e.1 ≠ f.val)) ∧
    (∃ (f : Fin 10) (c : Ch) (s : State), s.awake = true ∧ (∀ e ∈ s.watch.raised, e.1 ≠ f.val) ∧ s.overdue f (Fin.ofNat 128 (c.val % 8)) = true ∧ s.cufel.down = false ∧ bits (s.o (Obj.REC_STATUS f)) 3 0 < bits (s.o (Obj.REC_POLICY f)) 3 0) ∧
    (∃ (f : Fin 10) (c : Ch) (s : State), s.awake = true ∧ (f.val, c) ∈ s.watch.raised ∧ s.cufel.down = false ∧ bits (s.o (Obj.REC_POLICY f)) 3 0 ≤ bits (s.o (Obj.REC_STATUS f)) 3 0 ∧ (bits (s.o (Obj.REC_POLICY f)) 11 8 < 2 ∨ bits (s.o (Obj.REC_POLICY f)) 7 4 ≤ bits (s.o (Obj.REC_STATUS f)) 7 4) ∧ bits (s.o (Obj.REC_POLICY f)) 11 8 < 3) ∧
    (∃ (f : Fin 10) (c : Ch) (s : State), s.awake = true ∧ (f.val, c) ∈ s.watch.raised ∧ s.cufel.down = true) :=
  ⟨⟨4, 3, ((L 0x23 0x0423).setO Obj.RST_LADDER 2), by decide +kernel⟩,
   ⟨4, { L 0x23 0x0423 with watch := {} }, by decide +kernel⟩,
   ⟨2, 3, { L 0 0x0423 2 with tick := 10000000, watch := { outages := [(2, 0, 5)] } }, by decide +kernel⟩,
   ⟨4, 3, (L 0x23 0x0123), by decide +kernel⟩,
   ⟨4, 3, { L 0x23 0x0423 with cufel := { srv.cufel with down := true } }, by decide +kernel⟩⟩
end TheLadderClimbsItsSteps

namespace StagedEventsAreLoggedOrFolded
def e0 : Staged := { code := 0x0301, cls := 0, unit := 3, xc := 9, nt := 10, tick := 100, data := [1, 2] }
def e1 : Staged := { e0 with code := 0x0201, cls := 1, data := [1,2,3,4,5,6,7,8,9,10,11,12] }
def f0 : Fold := { code := 0x0301, unit := 3, tick := 90, count := 2 }
def S (l : List Staged) (fs : List Fold) : State := { srv.setO Obj.FLT_LOG_NEXT 511 with log := { staging := l, folds := fs } }
theorem witness :
    (∃ (s : State), s.awake = true ∧ s.log.staging = []) ∧
    (∃ (e : Staged) (r : List Staged) (f : Fold) (s : State), s.awake = true ∧ s.log.staging = e :: r ∧ s.log.folds.find? (fun x => x.code == e.code && x.unit == e.unit) = some f ∧ s.ticksCover (e.tick - f.tick) 1000 = false) ∧
    (∃ (e : Staged) (r : List Staged) (s : State), s.awake = true ∧ s.log.staging = e :: r ∧ (∀ x ∈ s.log.folds, x.code = e.code → x.unit ≠ e.unit) ∧ e.code ∈ lifeCodes ∧ s.cufel.events.length < 64 ∧ (e.cls = 0 ∨ s.ob Obj.CF_EVT_MASK e.cls = true) ∧ (bits (memWord s.spm (logAddr (s.o Obj.FLT_LOG_NEXT)) 32) 255 240 = 0 ∨ s.unread (bits (memWord s.spm (logAddr (s.o Obj.FLT_LOG_NEXT)) 32) 223 208) = false)) ∧
    (∃ (e : Staged) (r : List Staged) (s : State), s.awake = true ∧ s.log.staging = e :: r ∧ (∀ x ∈ s.log.folds, x.code = e.code → x.unit ≠ e.unit) ∧ e.code ∉ lifeCodes) ∧
    (∃ (e : Staged) (r : List Staged) (f : Fold) (s : State), s.awake = true ∧ s.log.staging = e :: r ∧ s.log.folds.find? (fun x => x.code == e.code && x.unit == e.unit) = some f ∧ s.ticksCover (e.tick - f.tick) 1000 = true) ∧
    (∃ (e : Staged) (r : List Staged) (s : State), s.awake = true ∧ s.log.staging = e :: r ∧ (∀ x ∈ s.log.folds, x.code = e.code → x.unit ≠ e.unit) ∧ bits (memWord s.spm (logAddr (s.o Obj.FLT_LOG_NEXT)) 32) 255 240 ≠ 0 ∧ s.unread (bits (memWord s.spm (logAddr (s.o Obj.FLT_LOG_NEXT)) 32) 223 208) = true) :=
  ⟨⟨(S [] []), by decide +kernel⟩,
   ⟨e0, [e1], f0, (S [e0, e1] [f0]), by decide +kernel⟩,
   ⟨e0, [e1], (S [e0, e1] []), by decide +kernel⟩,
   ⟨e1, [e1], (S [e1, e1] [f0]), by decide +kernel⟩,
   ⟨{ e0 with tick := 10 ^ 15 }, [e1], f0, (S [{ e0 with tick := 10 ^ 15 }, e1] [f0]), by decide +kernel⟩,
   ⟨e0, [e1], { S [e0, e1] [] with spm := memWrite [] (logAddr 511) (logRecord 0x0301 0 3 5 9 10 0 [1]) }, by decide +kernel⟩⟩
end StagedEventsAreLoggedOrFolded

namespace UpsetsAreVotedOutOrFound
def dO : ObjDesc := (objDesc Obj.CF_HB_PER).getD noDesc
def dD : ObjDesc := (objDesc Obj.PRB_DATA).getD noDesc
def en (st : QState) : QEntry := { q := { qid := 5, type := 0, anchor := .past 3, before := 2, after := 1, spanlen := 3, hitlim := 1, mask := 2^128-1, totcut := 0, comp := false, cntonly := false, qbusy := false, addr := 7 }, thin := false, st := st, slot := some 1 }
def S : State := (srv.setChan 3 { srv.chan 3 with chain := [⟨1, 0, false⟩, ⟨2, 0, false⟩] })
theorem witness :
    (∃ (x : Nat) (s : State), s.awake = true ∧ s.cufel.down = false ∧ s.differs = [{ key := Obj.CF_HB_PER, right := x }] ∧ s.o Obj.CF_HB_PER ≠ x) ∧
    (∃ (idx : BitVec 16) (sub : BitVec 8) (c : Ch) (walk : Bool) (p : Fin 160) (i : Fin 4) (e : QEntry) (s : State), s.awake = true ∧ objDesc (objKey idx.toNat sub.toNat) = none ∧ (s.lutBad c walk p = true ∨ (walk = true ∧ 80 ≤ p.val)) ∧ s.slotEntry i = some e ∧ e.st = .waiting) ∧
    (∃ (i : Fin 4) (e : QEntry) (s : State), s.awake = true ∧ s.slotEntry i = some e ∧ e.st ≠ .waiting) ∧
    (∃ (x : Nat) (s : State), s.awake = true ∧ s.differs = [{ key := Obj.CF_HB_PER, right := x }] ∧ s.o Obj.CF_HB_PER = x ∧ s.cufel.down = false) ∧
    (∃ (idx : BitVec 16) (sub : BitVec 8) (d : ObjDesc) (s : State), s.awake = true ∧ objDesc (objKey idx.toNat sub.toNat) = some d ∧ (d.acc ≠ .rw ∨ d.type = .domain)) ∧
    (∃ (idx : BitVec 16) (sub : BitVec 8) (v : BitVec 128) (d : ObjDesc) (s : State), s.awake = true ∧ objDesc (objKey idx.toNat sub.toNat) = some d ∧ d.acc = .rw ∧ d.type ≠ .domain ∧ storedValue (objKey idx.toNat sub.toNat) (v.toNat % 2 ^ d.type.width) = s.o (objKey idx.toNat sub.toNat)) ∧
    (∃ (idx : BitVec 16) (sub : BitVec 8) (v : BitVec 128) (d : ObjDesc) (c : Ch) (walk : Bool) (p : Fin 160) (i : Fin 4) (s : State), s.awake = true ∧ objDesc (objKey idx.toNat sub.toNat) = some d ∧ d.acc = .rw ∧ d.type ≠ .domain ∧ v.toNat % 2 ^ 16 ≠ s.o Obj.CF_HB_PER ∧ s.differs = [] ∧ s.cufel.down = true ∧ s.lutBad c walk p = false ∧ (walk = false ∨ p.val < 80) ∧ s.slotEntry i = none) :=
  ⟨⟨7, { S with differs := [{ key := Obj.CF_HB_PER, right := 7 }] }, by decide +kernel⟩,
   ⟨0x3010, 6, 3, true, 90, 1, (en .waiting), { S with query := { S.query with items := [.entry (en .waiting)] } }, by decide +kernel⟩,
   ⟨1, (en .fetch), { S with query := { S.query with items := [.entry (en .fetch)] } }, by decide +kernel⟩,
   ⟨7, { S.setO Obj.CF_HB_PER 7 with differs := [{ key := Obj.CF_HB_PER, right := 7 }] }, by decide +kernel⟩,
   ⟨0x2210, 11, dD, S, by decide +kernel⟩,
   ⟨0x1100, 6, (S.o Obj.CF_HB_PER : Nat), dO, S, by decide +kernel⟩,
   ⟨0x1100, 6, 5, dO, 3, false, 90, 1, { S with cufel := { S.cufel with down := true } }, by decide +kernel⟩⟩
end UpsetsAreVotedOutOrFound

namespace FreezesHoldUntilTheLastSourceReleases
def F (f : Freeze) : State := { (srv.setO Obj.FRZ_PIN_EN 1) with frz := f, spm := [(3, 4)] }
def hz : State := let s := srv.setO Obj.FRZ_PIN_EN 1; { s with cufel := { s.cufel with after := some .freeze } }
theorem witness :
    (∃ (s : State), s.o Obj.FRZ_PIN_EN ≠ 0 ∧ s.o Obj.PWR_STATE ≠ 0 ∧ s.o Obj.CLK_STATE ≠ 0 ∧ s.frz.frozen = false ∧ s.awake = true ∧ s.cufel.after = some .freeze ∧ s.o Obj.FLT_TAP_LOCK = 0 ∧ s.pinTest = false) ∧
    (∃ (s : State), s.o Obj.PWR_STATE ≠ 0 ∧ s.o Obj.FLT_TAP_LOCK ≠ 0) ∧
    (∃ (s : State), s.o Obj.FRZ_PIN_EN ≠ 0 ∧ s.o Obj.PWR_STATE ≠ 0 ∧ s.o Obj.CLK_STATE ≠ 0 ∧ s.frz.frozen = true ∧ (s.awake = false ∨ s.cufel.after ≠ some .freeze) ∧ s.o Obj.FLT_TAP_LOCK = 0 ∧ s.frz.noref = false ∧ s.frz.cufel = false ∧ s.frz.tap = false ∧ s.frz.pin = true) ∧
    (∃ (s : State), s.frz.frozen = true ∧ s.frz.noref = false ∧ (s.frz.cufel = true ∨ s.frz.tap = true) ∧ s.o Obj.PWR_STATE ≠ 0 ∧ s.frz.pin = false) ∧
    (∃ (s : State), s.frz.frozen = true ∧ s.frz.noref = true) ∧
    (∃ (s : State), (s.o Obj.FRZ_PIN_EN = 0 ∨ s.o Obj.PWR_STATE = 0 ∨ s.o Obj.CLK_STATE = 0)) :=
  ⟨⟨hz, by decide +kernel⟩,
   ⟨((F {}).setO Obj.FLT_TAP_LOCK 1), by decide +kernel⟩,
   ⟨(F { frozen := true, pin := true, x := 9, held := 1 }), by decide +kernel⟩,
   ⟨(F { frozen := true, tap := true, x := 9, held := 4 }), by decide +kernel⟩,
   ⟨(F { frozen := true, pin := true, noref := true, x := 9, held := 4 }), by decide +kernel⟩,
   ⟨(srv.setO Obj.FRZ_PIN_EN 0), by decide +kernel⟩⟩
end FreezesHoldUntilTheLastSourceReleases

namespace TapInstructionsShiftTheirRegisters
def T (fz : Bool) (lk : Nat) (pt : Bool) : State := { srv.setO Obj.FLT_TAP_LOCK lk with frz := { frozen := fz, memReg := 9, boundary := 3 }, spm := memPutWord [] 0x100 8 77, pinTest := pt }
theorem witness :
    (∃ (s : State), s.o Obj.PWR_STATE = 0) ∧
    (∃ (s : State), s.o Obj.PWR_STATE ≠ 0 ∧ (s.frz.frozen = true ∨ s.pinTest = false) ∧ s.frz.frozen = false) ∧
    (∃ (n : BitVec 32) (ir : BitVec 8) (addr : BitVec 20) (s : State), s.o Obj.PWR_STATE ≠ 0 ∧ (s.frz.frozen = true ∨ s.pinTest = false) ∧ ir.toNat ∉ [0, 1, 2, 3, 4, 8, 0x10, 0x11, 0x12, 0x13, 0x14] ∧ s.o Obj.FLT_TAP_LOCK = 0 ∧ s.frz.frozen = true ∧ n.toNat < castLen ∧ s.castOpen (8 * addr.toNat) = false ∧ memWord s.memUnit.fwRam (8 * addr.toNat) 8 = 0) ∧
    (∃ (addr : BitVec 20) (s : State), s.o Obj.PWR_STATE ≠ 0 ∧ (s.frz.frozen = true ∨ s.pinTest = false) ∧ s.o Obj.FLT_TAP_LOCK ≠ 0 ∧ s.frz.frozen = true ∧ s.castOpen (8 * addr.toNat) = true ∧ memWord s.memUnit.fwRam (8 * addr.toNat) 8 ≠ 0) :=
  ⟨⟨(srv.setO Obj.PWR_STATE 0), by decide +kernel⟩,
   ⟨(T false 0 false), by decide +kernel⟩,
   ⟨64, 0x55, 0x20, (T true 0 true), by decide +kernel⟩,
   ⟨0xBFFF0, { T true 1 true with memUnit := { srv.memUnit with fwRam := memPutWord [] (8 * 0xBFFF0) 8 5 } }, by decide +kernel⟩⟩
end TapInstructionsShiftTheirRegisters

namespace StepRunsTheCommandAtTheFrontOfTheQueue
theorem witness :
    (∃ (s : State), s.pending = [] ∧ (s.awake = false ∨ s.lineBusy = false)) :=
  ⟨srv, by decide +kernel⟩
end StepRunsTheCommandAtTheFrontOfTheQueue

namespace ABlockSlotCarriesTheLinksOntoTheirLanes
def lx (p : Nat) (f : Feed66) : State := { (srv.setO (Obj.LN_PSTATE 19) 0).setO (Obj.LN_PSTATE 3) p with pending := [], line := { seen := srv.out.length, south := (Vector.replicate 8 {}).set 2 f } }
theorem witness :
    (∃ (i : Fin 25) (x : Sent) (b : LineBlock) (s : State), x.rank ∈ [1, 2, 3, 4, 5] ∧ x.blocks = [b] ∧ s.pending = [] ∧ s.awake = true ∧ s.lineBusy = true ∧ isRx i = false ∧ s.pstate i = 1) ∧
    (∃ (i : Fin 25) (k : Fin 8) (b : LineBlock) (l : List LineBlock) (s : State), s.pending = [] ∧ s.awake = true ∧ s.lineBusy = true ∧ isRx i = false ∧ s.pstate i = 0 ∧ s.sends (17 + k.val) = true ∧ s.line.seen = s.out.length ∧ s.line.south.get k = { frame := b :: l }) ∧
    (∃ (i : Fin 25) (s : State), s.pending = [] ∧ s.awake = true ∧ s.lineBusy = true ∧ (isRx i = true ∨ s.pstate i = 2)) :=
  ⟨⟨3, (.block (.south 2) 0x69 [5]), ⟨2, 5 * 256 + 0x69⟩, (lx 1 {}), by decide +kernel⟩,
   ⟨3, 2, ⟨1, 77⟩, [⟨1, 5⟩], (lx 0 { frame := [⟨1, 77⟩, ⟨1, 5⟩] }), by decide +kernel⟩,
   ⟨9, ((lx 2 { frame := [⟨2, 77⟩, ⟨1, 5⟩] }).setO (Obj.LN_POLINV 19) 1), by decide +kernel⟩⟩
end ABlockSlotCarriesTheLinksOntoTheirLanes

namespace EveryStepKeepsTheStoredDataCanonical
theorem witness :
    (∃ (s : State) (t : State), s.wf = true ∧ step s = .next t) :=
  ⟨State.reset, State.reset, ⟨by decide +kernel, rfl⟩⟩
end EveryStepKeepsTheStoredDataCanonical

namespace AFrozenOrUnclockedDeviceStandsStill
theorem witness :
    (∃ (c : Instr) (s : State), s.awake = false ∧ actsAsleep c = false ∧ s.frz.frozen = true ∧ s.frz.noref = true) :=
  ⟨(.read q0 [1]), { srv with frz := { frozen := true, noref := true } }, by decide +kernel⟩
end AFrozenOrUnclockedDeviceStandsStill

namespace AnUnservedRequestWaits
theorem witness :
    (∃ (c : Instr) (s : State), s.served = false ∧ needsServer c = true) :=
  ⟨(.read q0 [1]), clk, by decide +kernel⟩
end AnUnservedRequestWaits

namespace ACodedBlockNeverGrowsByMoreThanItsHeader
theorem witness :
    (∃ (c : Ctx) (n : Nat) (ws : List Nat), n < 4 ∧ (codeBlock c ws).set ≠ 3) :=
  ⟨{}, 3, ((List.range 40).map (· * 7000000001)), by decide +kernel⟩
end ACodedBlockNeverGrowsByMoreThanItsHeader

namespace NtSetSetsNetworkTimeAtTheNextTick
def d0 : State := let s := ((((srv.setO Obj.ASM_STATE 1).setO Obj.XC_COUNT 77).setO Obj.ASM_CREDIT 3065).setO Obj.ASM_CREDIT_RATE 12).setO Obj.ASM_CREDIT_DEPTH 3072; { s with clk := { s.clk with started := true, marker := some 900 }, tick := 900, nt := 7 * 2^32 + 5 }
theorem witness :
    (∃ (q : Req) (ns : BitVec 64) (s : State), s.servedFor q = true ∧ s.isExpert q = false ∧ s.awake = true ∧ s.inRun = true ∧ s.clk.resume = false ∧ s.power.deferred = [] ∧ s.power.toDisable = [] ∧ s.power.reenable = [] ∧ s.power.parking = none ∧ s.power.reinit = [] ∧ s.frz.thawed = false ∧ s.cufel.tlm = none ∧ s.o Obj.CLK_STATE = 3 ∧ s.clk.marker = some s.tick ∧ s.due = [] ∧ s.alignPend = none ∧ (s.time.waiting.all fun m => decide (s.tick ≤ m.tick)) = true ∧ (∀ k : Fin 8, s.alarmDue k = false) ∧ s.applied = [] ∧ (∀ x ∈ s.sched, x.tick ≠ s.tick + 1) ∧ s.livePend = [(Obj.NT_SET, ns.toNat)]) ∧
    (∃ (q : Req) (s : State), s.servedFor q = true ∧ s.isExpert q = true ∧ s.awake = true ∧ s.inRun = true ∧ s.clk.resume = false ∧ s.power.deferred = [] ∧ s.power.toDisable = [] ∧ s.power.reenable = [] ∧ s.power.parking = none ∧ s.power.reinit = [] ∧ s.frz.thawed = false ∧ s.cufel.tlm = none ∧ s.o Obj.CLK_STATE = 3 ∧ s.clk.marker = some s.tick ∧ s.due = [] ∧ s.alignPend = none ∧ (s.time.waiting.all fun m => decide (s.tick ≤ m.tick)) = true ∧ (∀ k : Fin 8, s.alarmDue k = false) ∧ s.applied = [] ∧ (∀ x ∈ s.sched, x.tick ≠ s.tick + 1) ∧ s.livePend = [] ∧ s.time.slew = 0 ∧ s.o Obj.NT_RATE = 0) :=
  ⟨⟨q0, 0xFFFFFFFFFFFFFFFF, { d0 with livePend := [(Obj.NT_SET, 0xFFFFFFFFFFFFFFFF)] }, by decide +kernel⟩,
   ⟨q0, { d0 with cufel := { d0.cufel with sessions := [{ path := .north, src := q0.src.toNat }] } }, by decide +kernel⟩⟩
end NtSetSetsNetworkTimeAtTheNextTick

namespace EnabledPortsAreTheHubs
def d0 : State := let s := ((((srv.setO Obj.ASM_STATE 1).setO Obj.XC_COUNT 77).setO Obj.CF_ROLE 2).setO Obj.ASM_CREDIT_RATE 12).setO Obj.ASM_CREDIT_DEPTH 3072; { s with clk := { s.clk with started := true, marker := some 900 }, tick := 900, livePend := [(Obj.HUB_PORT_EN, 5)] }
theorem witness :
    (∃ (q : Req) (v : BitVec 8) (k : Fin 8) (s : State), s.servedFor q = true ∧ s.o Obj.CF_ROLE = 2 ∧ s.o Obj.HUB_MODE ≠ 1 ∧ s.awake = true ∧ s.inRun = true ∧ s.clk.resume = false ∧ s.power.deferred = [] ∧ s.power.toDisable = [] ∧ s.power.reenable = [] ∧ s.power.parking = none ∧ s.power.reinit = [] ∧ s.frz.thawed = false ∧ s.cufel.tlm = none ∧ s.o Obj.CLK_STATE = 3 ∧ s.clk.marker = some s.tick ∧ s.due = [] ∧ s.alignPend = none ∧ (s.time.waiting.all fun m => decide (s.tick ≤ m.tick)) = true ∧ (∀ k : Fin 8, s.alarmDue k = false) ∧ s.applied = [] ∧ (∀ x ∈ s.sched, x.tick ≠ s.tick + 1) ∧ s.livePend = [(Obj.HUB_PORT_EN, v.toNat)] ∧ bit v.toNat k = true ∧ s.o (Obj.HUB_PSTATE k) = 0) ∧
    (∃ (v : BitVec 8) (k : Fin 8) (s : State), s.awake = true ∧ s.inRun = true ∧ s.o Obj.CF_ROLE = 2 ∧ s.clk.resume = false ∧ s.power.deferred = [] ∧ s.power.toDisable = [] ∧ s.power.reenable = [] ∧ s.power.parking = none ∧ s.power.reinit = [] ∧ s.frz.thawed = false ∧ s.cufel.tlm = none ∧ s.o Obj.CLK_STATE = 3 ∧ s.clk.marker = some s.tick ∧ s.due = [] ∧ s.alignPend = none ∧ (s.time.waiting.all fun m => decide (s.tick ≤ m.tick)) = true ∧ (∀ k : Fin 8, s.alarmDue k = false) ∧ s.applied = [] ∧ (∀ x ∈ s.sched, x.tick ≠ s.tick + 1) ∧ s.livePend = [(Obj.HUB_PORT_EN, v.toNat)] ∧ bit v.toNat k = false ∧ s.hub.recs = []) ∧
    (∃ (q : Req) (s : State), s.servedFor q = true ∧ s.o Obj.CF_ROLE ≠ 2) :=
  ⟨⟨q0, 5, 2, d0, by decide +kernel⟩,
   ⟨5, 1, d0, by decide +kernel⟩,
   ⟨q0, (d0.setO Obj.CF_ROLE 1), by decide +kernel⟩⟩
end EnabledPortsAreTheHubs

namespace LoggedEntriesAreOfferedAsEvents
def e0 : Staged := { code := 0x0301, cls := 0, unit := 3, xc := 9, nt := 10, tick := 100, data := [1, 2] }
theorem witness :
    (∃ (e : Staged) (s : State), (e.cls = 0 ∨ (e.cls = 1 ∧ s.ob Obj.CF_EVT_MASK 1 = true)) ∧ s.cufel.events.length < 64 ∧ s.awake = true) ∧
    (∃ (e : Staged) (s : State), e.cls = 1 ∧ s.ob Obj.CF_EVT_MASK 1 = false) :=
  ⟨⟨e0, srv, by decide +kernel⟩,
   ⟨{ e0 with cls := 1 }, (srv.setO Obj.CF_EVT_MASK 1), by decide +kernel⟩⟩
end LoggedEntriesAreOfferedAsEvents

end Sys2Proof.Tests
end

section
/-! SUPPORT. Every command has an outcome: none of them ends in a fault or a refusal. -/
namespace Sys2Proof.Machine

/-- Each command's meaning is a next state, whatever the state it runs in. -/
theorem exec_next (c : Instr) (s : State) : ∃ t, exec c s = .next t := by
  cases c <;> exact ⟨_, rfl⟩

/-- A step answers a next state: the queue's front command does, and an idle block slot does. -/
theorem step_safe (s : State) : Safe s := by
  unfold Safe step
  cases hq : s.pending with
  | nil => exact ⟨_, rfl⟩
  | cons c r => exact exec_next c _

/-- Settles O53: every command's meaning answers a next state, and a step is one command or an idle block slot. -/
theorem everyCommandAnswersANextState : Obligations.EveryCommandAnswersANextState := by
  unfold Obligations.EveryCommandAnswersANextState
  intro c s
  exact ⟨exec_next c s, step_safe s⟩

end Sys2Proof.Machine
end

section
/-! SUPPORT. What a response, an error of the scratchpad and the opening or closing of a block transfer leave as they were. -/
namespace Sys2Proof.Machine

/-! ### The open transfers under a response (R461, R468) -/

@[simp] theorem State.transfers_send (s : State) (p : Path) (m : Msg) : (s.send p m).cufel.transfers = s.cufel.transfers := by
  cases p <;> rfl

@[simp] theorem State.transfers_keepSend (s : State) (p : Path) (m : Msg) :
    (s.keepSend p m).cufel.transfers = s.cufel.transfers := by
  cases p <;> rfl

@[simp] theorem State.transfers_flushRefusals (n : Nat) (s : State) :
    (State.flushRefusals n s).cufel.transfers = s.cufel.transfers := by
  induction n generalizing s with
  | zero => rfl
  | succ n ih =>
    unfold State.flushRefusals
    split
    · split
      · rw [ih, State.transfers_keepSend]
      · rfl
    · rfl

@[simp] theorem State.transfers_respond (s : State) (q : Req) (m : Nat) (st : Status) (b : List Byte) :
    (s.respond q m st b).cufel.transfers = s.cufel.transfers := by
  simp [State.respond]

/-! ### The transfer of a source (R468) -/

/-- States with the same open transfers agree on a source's transfer. -/
theorem State.transferOf_congr {s t : State} (h : t.cufel.transfers = s.cufel.transfers) (q : Req) :
    t.transferOf q = s.transferOf q := by
  simp [State.transferOf, h]

@[simp] theorem State.transferOf_respond (s : State) (q p : Req) (m : Nat) (st : Status) (b : List Byte) :
    (s.respond p m st b).transferOf q = s.transferOf q :=
  State.transferOf_congr (s.transfers_respond p m st b) q

@[simp] theorem State.transferOf_bump (s : State) (q : Req) (k : Nat) : (s.bump k).transferOf q = s.transferOf q := rfl

/-- The transfer of a source carries the source's path and address. -/
theorem State.source_of_transferOf {s : State} {q : Req} {x : Transfer} (h : s.transferOf q = some x) :
    x.path = q.path ∧ x.src = q.src.toNat := by
  simpa using List.find?_some h

@[simp] theorem State.transferOf_closeTransfer (s : State) (q : Req) : (s.closeTransfer q).transferOf q = none := by
  simp +contextual [State.transferOf, State.closeTransfer, List.find?_eq_none, or_iff_not_imp_left]

theorem State.transferOf_putTransfer (s : State) {q : Req} {x : Transfer} (hp : x.path = q.path) (hs : x.src = q.src.toNat) :
    (s.putTransfer q x).transferOf q = some x := by
  have hnone := s.transferOf_closeTransfer q
  simp only [State.transferOf] at hnone
  simp [State.transferOf, State.putTransfer, List.find?_append, hnone, hp, hs]

/-! ### The memories -/

theorem State.keepsMemories_respond {t s : State} (h : t.keepsMemories s) (q : Req) (m : Nat) (st : Status) (b : List Byte) :
    (t.respond q m st b).keepsMemories s := by
  simpa [State.keepsMemories] using h

theorem State.respond_keepsMemories (s : State) (q : Req) (m : Nat) (st : Status) (b : List Byte) :
    (s.respond q m st b).keepsMemories s :=
  State.keepsMemories_respond ⟨rfl, rfl, rfl⟩ q m st b

theorem State.keepsMemories_trans {r t s : State} (h : r.keepsMemories t) (h' : t.keepsMemories s) : r.keepsMemories s :=
  ⟨h.1.trans h'.1, h.2.1.trans h'.2.1, h.2.2.trans h'.2.2⟩

theorem State.closeTransfer_keepsMemories (s : State) (q : Req) : (s.closeTransfer q).keepsMemories s := ⟨rfl, rfl, rfl⟩

theorem State.putTransfer_keepsMemories (s : State) (q : Req) (x : Transfer) : (s.putTransfer q x).keepsMemories s :=
  ⟨rfl, rfl, rfl⟩

/-- An event staged, or lost with the staging queue full, touches no memory. -/
theorem State.stage_keepsMemories (s : State) (code cls unit : Nat) (d : List Byte) :
    (s.stage code cls unit d).keepsMemories s := by
  unfold State.stage
  split <;> exact ⟨rfl, rfl, rfl⟩

theorem State.ariseOnce_keepsMemories (s : State) (n : Nat) : (s.ariseOnce n).keepsMemories s := by
  unfold State.ariseOnce State.refreshFaultN
  split <;> exact ⟨rfl, rfl, rfl⟩

/-- An erroneous word of the scratchpad is counted, reported or queued for its write-back; no byte changes (R378). -/
theorem State.noteWord_keepsMemories (s : State) (agent a : Nat) (u : List Upset) : (s.noteWord agent a u).keepsMemories s := by
  unfold State.noteWord
  split
  · exact ⟨rfl, rfl, rfl⟩
  · exact ⟨rfl, rfl, rfl⟩
  · exact State.keepsMemories_trans (State.ariseOnce_keepsMemories _ _) (State.stage_keepsMemories _ _ _ _ _)

theorem State.noteWords_keepsMemories (agent : Nat) (u : List Upset) (l : List Nat) (s : State) :
    (l.foldl (fun s w => s.noteWord agent w u) s).keepsMemories s := by
  induction l generalizing s with
  | nil => exact ⟨rfl, rfl, rfl⟩
  | cons w l ih => exact State.keepsMemories_trans (ih _) (s.noteWord_keepsMemories agent w u)

theorem State.channelRead_keepsMemories (s : State) (agent a n : Nat) (u : List Upset) :
    (s.channelRead agent a n u).1.keepsMemories s :=
  State.noteWords_keepsMemories agent u _ s

/-- Where no word is in error, a channel reads through. -/
@[simp] theorem State.channelRead_nil (s : State) (agent a n : Nat) : s.channelRead agent a n [] = (s, none) := rfl

@[simp] theorem asRead_nil (a : Nat) (b : List Byte) : asRead [] a b = b := rfl

end Sys2Proof.Machine
end

section
/-! SUPPORT. READ_BLOCK: the answer of each of its cases (R468, R385). -/
namespace Sys2Proof.Machine

variable {s : State} {q : Req} {body : List Byte} {d : ObjDesc} {x : Transfer} {u : List Upset} {k off : Nat}

/-- The fields of a key make up the key. -/
theorem objKey_div_mod (k : Nat) : objKey (k / 256) (k % 256) = k := by
  unfold objKey; omega

/-! ### What a snapshot is taken from -/

theorem State.probeRead_keepsMemories (s : State) : s.probeRead.1.keepsMemories s := by
  unfold State.probeRead
  split <;> exact ⟨rfl, rfl, rfl⟩

theorem State.rateSettle_keepsMemories (s : State) : s.rateSettle.keepsMemories s := by
  unfold State.rateSettle
  split
  · split <;> exact ⟨rfl, rfl, rfl⟩
  · exact ⟨rfl, rfl, rfl⟩

theorem State.rateHistRead_keepsMemories (s : State) : s.rateHistRead.1.keepsMemories s := by
  have h := s.rateSettle_keepsMemories
  unfold State.rateHistRead
  dsimp only
  split <;> exact h

/-- What both branches of a choice keep where they answer, the choice keeps. -/
theorem ok_of_ite {ε α : Type} {P : α → Prop} {c : Prop} [Decidable c] {a b : Except ε α} (ha : ∀ r, a = .ok r → P r)
    (hb : ∀ r, b = .ok r → P r) : ∀ r, (if c then a else b) = .ok r → P r := by
  split
  · exact ha
  · exact hb

theorem ok_of_ok {ε α : Type} {P : α → Prop} {a : α} (h : P a) : ∀ r, (.ok a : Except ε α) = .ok r → P r := by
  rintro _ ⟨⟩
  exact h

/-- Only the probe's coder and the rate histogram take note of a DOMAIN read, and neither in a memory. -/
theorem State.domainRead_keepsMemories (s : State) (k : Nat) : ∀ r, s.domainRead k = .ok r → r.1.keepsMemories s := by
  unfold State.domainRead
  refine ok_of_ite (ok_of_ite (fun _ h => nomatch h) (ok_of_ok s.probeRead_keepsMemories)) ?_
  iterate 2 refine ok_of_ite (ok_of_ok ⟨rfl, rfl, rfl⟩) ?_
  refine ok_of_ite (ok_of_ok s.rateHistRead_keepsMemories) ?_
  iterate 7 refine ok_of_ite (ok_of_ok ⟨rfl, rfl, rfl⟩) ?_
  split <;> exact ok_of_ok ⟨rfl, rfl, rfl⟩

/-- A snapshot of NV_IMAGE is the image of the bank in force (R510). -/
theorem State.domainRead_image {r : State × List Byte} (h : s.domainRead Obj.NV_IMAGE = .ok r) : r.2 = s.imageNow := by
  have himage : s.domainRead Obj.NV_IMAGE = .ok (s, s.imageNow) := rfl
  rw [himage] at h
  cases h
  rfl

/-- An uncoded probe read gives the samples as they lie in the scratchpad (R78). -/
theorem State.probeRead_uncoded (h : s.o Obj.PRB_CODED = 0) : s.probeRead.2 = memRead s.spm 0x5A8000 16384 := by
  simp [State.probeRead, State.flag, h, State.prbCopy]

/-- A snapshot of PRB_DATA is taken in READY only; uncoded, it is the capture (R78). -/
theorem State.domainRead_probe {r : State × List Byte} (h : s.domainRead Obj.PRB_DATA = .ok r) :
    s.o Obj.PRB_STATE = 5 ∧ (s.o Obj.PRB_CODED = 0 → r.2 = memRead s.spm 0x5A8000 16384) := by
  unfold State.domainRead at h
  rw [if_pos rfl] at h
  split at h
  · cases h
  · next hstate =>
    cases h
    exact ⟨not_not.mp hstate, State.probeRead_uncoded⟩

/-! ### Where a snapshot lies (R372) -/

theorem State.stagingSlot_lt (s : State) : s.stagingSlot < 4 := by
  unfold State.stagingSlot
  generalize hf : List.find? _ (List.range 4) = o
  cases o with
  | none => decide
  | some n => simpa using List.mem_of_find?_eq_some hf

/-- A snapshot of at most 32 KiB in one of the four places stays inside the staging. -/
theorem snapshotAddr_range (k : Nat) {n : Nat} (h : n < 4) :
    0x5AC000 ≤ snapshotAddr k n ∧ snapshotAddr k n + 0x8000 ≤ 0x5C4000 := by
  unfold snapshotAddr
  split <;> omega

/-- Nothing of the memories differs from s but bytes of the snapshots' staging. -/
def State.keepsButStaging (t s : State) : Prop := t.rankMem = s.rankMem ∧ t.nvm = s.nvm ∧ t.keepsSpmOutside s 0x5AC000 0x5C4000

theorem State.keepsButStaging_of_keepsMemories {t s : State} (h : t.keepsMemories s) : t.keepsButStaging s :=
  ⟨h.2.1, h.2.2, fun a _ => by rw [h.1]⟩

theorem State.keepsButStaging_trans {r t s : State} (h : r.keepsButStaging t) (h' : t.keepsButStaging s) : r.keepsButStaging s :=
  ⟨h.1.trans h'.1, h.2.1.trans h'.2.1, fun a ha => (h.2.2 a ha).trans (h'.2.2 a ha)⟩

/-- A snapshot is written inside the staging. -/
theorem State.snapshot_keepsButStaging (s : State) (k : Nat) {n : Nat} (hn : n < 4) (b : List Byte) :
    State.keepsButStaging { s with spm := memWrite s.spm (snapshotAddr k n) (b.take 0x8000) } s := by
  obtain ⟨hlo, hhi⟩ := snapshotAddr_range k hn
  have hlen : (b.take 0x8000).length ≤ 0x8000 := List.length_take_le _ _
  refine ⟨rfl, rfl, fun a ha => memGet_memWrite_outside _ _ _ _ ?_⟩
  omega

/-! ### A segment of the snapshot (R385, R468) -/

theorem State.segmentError_keepsMemories (s : State) (q : Req) (m k : Nat) : (s.segmentError q m k).keepsMemories s := by
  unfold State.segmentError
  dsimp only
  split <;> exact State.keepsMemories_respond ⟨rfl, rfl, rfl⟩ q m _ _

/-- Whatever a segment's read comes to, no byte of a memory changes. -/
theorem State.readSegment_keepsMemories (s : State) (q : Req) (k off : Nat) (u : List Upset) :
    (s.readSegment q k off u).keepsMemories s := by
  unfold State.readSegment
  dsimp only
  split
  · split
    · exact s.respond_keepsMemories q _ _ _
    · split
      · have hr (a n : Nat) := s.channelRead_keepsMemories 4 a n u
        split
        · exact State.keepsMemories_respond (State.keepsMemories_trans (State.closeTransfer_keepsMemories _ q) (hr _ _)) q _ _ _
        · exact State.keepsMemories_respond (hr _ _) q _ _ _
      · exact s.segmentError_keepsMemories q _ k
  · exact s.respond_keepsMemories q _ _ _

/-- Without a read of the object under way there is no segment to serve. -/
theorem State.readSegment_of_no_read (h : ∀ x, s.transferOf q = some x → x.write = true ∨ objKey x.index x.sub ≠ k) :
    s.readSegment q k off u = s.respond q 0x03 .segment (blockBody k 0 0 0) := by
  unfold State.readSegment
  split
  · next x hx => rw [if_pos (h x hx)]
  · rfl

/-- A segment without an erroneous word: up to 480 bytes of the snapshot, with LAST where they reach TOTAL. -/
theorem State.readSegment_serves (hx : s.transferOf q = some x) (hw : x.write = false) (hk : objKey x.index x.sub = k)
    (hoff : off < x.total ∨ (x.total = 0 ∧ off = 0)) :
    s.readSegment q k off [] = s.respond q 0x03 .ok
      (blockBody k (if off + min 480 (x.total - off) = x.total then 2 else 0) off x.total ++
        (x.data.drop off).take (min 480 (x.total - off))) := by
  have hflag : 2 * b2n (off + min 480 (x.total - off) == x.total) = if off + min 480 (x.total - off) = x.total then 2 else 0 := by
    simp only [b2n, beq_iff_eq]
    split <;> rfl
  simp [State.readSegment, hx, hw, hk, hoff, hflag]

/-- An uncorrectable word of the staging closes the transfer (R385). -/
theorem State.readSegment_halts (hx : s.transferOf q = some x) (hw : x.write = false) (hk : objKey x.index x.sub = k)
    (hoff : off < x.total)
    (hu : (s.channelRead 4 ((snapshotAddr k x.slot + off) / 8 * 8)
      ((snapshotAddr k x.slot + off) % 8 + min 480 (x.total - off)) u).2 ≠ none) :
    s.readSegment q k off u =
      ((s.channelRead 4 ((snapshotAddr k x.slot + off) / 8 * 8)
        ((snapshotAddr k x.slot + off) % 8 + min 480 (x.total - off)) u).1.closeTransfer q).respond q 0x03 .failed
          (blockBody k 0 0 0) := by
  simp [State.readSegment, hx, hw, hk, hoff, Option.isSome_iff_ne_none.mpr hu]

/-- An OFFSET at or beyond TOTAL breaks the rules. -/
theorem State.readSegment_beyond (hx : s.transferOf q = some x) (hw : x.write = false) (hk : objKey x.index x.sub = k)
    (hoff : x.total ≤ off) (h0 : 0 < x.total) : s.readSegment q k off u = s.segmentError q 0x03 k := by
  have hno : ¬(off < x.total ∨ (x.total = 0 ∧ off = 0)) := by omega
  simp [State.readSegment, hx, hw, hk, hno]

/-! ### A segment that breaks the rules (R468) -/

/-- With a transfer open, the error abandons it and is counted. -/
theorem State.segmentError_abandons (m : Nat) (hx : s.transferOf q = some x) :
    (s.segmentError q m k).answers q m .segment (blockBody k 0 0 0) ∧ (s.segmentError q m k).transferOf q = none ∧
      (s.segmentError q m k).o Obj.CF_BLK_SEGERR = satAdd 32 (s.o Obj.CF_BLK_SEGERR) 1 ∧
      (s.segmentError q m k).keepsMemories s := by
  have hm := s.segmentError_keepsMemories q m k
  have heq : s.segmentError q m k = ((s.closeTransfer q).bump Obj.CF_BLK_SEGERR).respond q m .segment (blockBody k 0 0 0) := by
    simp [State.segmentError, hx]
  rw [heq] at hm ⊢
  refine ⟨State.respond_answers _ q _ _ _, by simp, ?_, hm⟩
  rw [State.o_respond _ q _ _ _ (State.aliveKey (by decide)), State.o_bump, if_pos rfl]
  rfl

/-! ### FIRST: a transfer opens (R271, R372, R468) -/

/-- The read transfer of a source with a snapshot b of object k, in staging place n. -/
def readTransfer (q : Req) (k n : Nat) (b : List Byte) : Transfer :=
  { path := q.path, src := q.src.toNat, index := k / 256, sub := k % 256, write := false, data := b, total := b.length,
    prev := none, slot := n }

/-- The state in which the snapshot b of object k has been taken. -/
def State.openedRead (s : State) (q : Req) (k : Nat) (b : List Byte) : State :=
  let t := s.check 37 b
  let r := t.putTransfer q (readTransfer q k t.stagingSlot b)
  { r with spm := memWrite r.spm (snapshotAddr k t.stagingSlot) (b.take 0x8000) }

theorem State.openedRead_keepsButStaging (s : State) (q : Req) (k : Nat) (b : List Byte) :
    (s.openedRead q k b).keepsButStaging s :=
  State.keepsButStaging_trans (State.snapshot_keepsButStaging _ k (State.stagingSlot_lt _) b)
    (State.keepsButStaging_of_keepsMemories ⟨rfl, rfl, rfl⟩)

/-- The transfer that opens holds the snapshot. -/
theorem State.transferOf_openedRead (s : State) (q : Req) (k : Nat) (b : List Byte) :
    (s.openedRead q k b).transferOf q = some (readTransfer q k (s.check 37 b).stagingSlot b) :=
  State.transferOf_putTransfer (s.check 37 b) rfl rfl

theorem State.openRead_keepsButStaging (s : State) (q : Req) (k off : Nat) (u : List Upset) :
    (s.openRead q k off u).keepsButStaging s := by
  have hclose := State.closeTransfer_keepsMemories s q
  have hanswer : ∀ {t : State} (st : Status), t.keepsMemories (s.closeTransfer q) →
      (t.respond q 0x03 st (blockBody k 0 0 0)).keepsButStaging s := fun st ht =>
    State.keepsButStaging_of_keepsMemories (State.keepsMemories_respond (State.keepsMemories_trans ht hclose) q _ st _)
  unfold State.openRead
  dsimp only
  split
  · exact hanswer _ ⟨rfl, rfl, rfl⟩
  · split
    · exact hanswer _ ⟨rfl, rfl, rfl⟩
    · next t b hread =>
      have ht := State.domainRead_keepsMemories _ k _ hread
      have hr := State.keepsMemories_trans (t.channelRead_keepsMemories 4 (domainSource k).1 (domainSource k).2 u) ht
      split
      · exact hanswer _ hr
      · exact State.keepsButStaging_trans (State.keepsButStaging_of_keepsMemories (State.readSegment_keepsMemories _ q k off u))
          (State.keepsButStaging_trans (State.openedRead_keepsButStaging _ q k b)
            (State.keepsButStaging_of_keepsMemories (State.keepsMemories_trans hr hclose)))

theorem State.openRead_full (h : (s.closeTransfer q).transferFull k = true) :
    s.openRead q k off u = (s.closeTransfer q).respond q 0x03 .noResource (blockBody k 0 0 0) := by
  simp [State.openRead, h]

theorem State.openRead_refused {c : Status} (h : (s.closeTransfer q).transferFull k = false)
    (hread : (s.closeTransfer q).domainRead k = .error c) :
    s.openRead q k off u = (s.closeTransfer q).respond q 0x03 c (blockBody k 0 0 0) := by
  simp [State.openRead, h, hread]

theorem State.openRead_opens {r : State × List Byte} (h : (s.closeTransfer q).transferFull k = false)
    (hread : (s.closeTransfer q).domainRead k = .ok r) :
    s.openRead q k off [] = (r.1.openedRead q k r.2).readSegment q k off [] := by
  simp [State.openRead, h, hread, State.openedRead, readTransfer]

/-- Whether a transfer can open: a place is free, and so is the NVM staging where the object needs it. -/
theorem State.transferFull_iff (s : State) (k : Nat) :
    s.transferFull k = true ↔ 4 ≤ s.cufel.transfers.length ∨ (k ∈ [Obj.NV_IMAGE, Obj.NV_PATCH] ∧ s.nvOpen = true) := by
  simp [State.transferFull]

theorem State.transferFull_eq_false (hn : s.cufel.transfers.length < 4)
    (hk : k ∉ [Obj.NV_IMAGE, Obj.NV_PATCH] ∨ s.nvOpen = false) : s.transferFull k = false := by
  rw [← Bool.not_eq_true, State.transferFull_iff]
  rintro (h | ⟨h, ho⟩)
  · omega
  · rcases hk with hk | hk
    · exact hk h
    · simp [hk] at ho

/-- The first segment starts at offset 0, and is the last when it holds the whole snapshot. -/
theorem State.readSegment_first {n : Nat} {b : List Byte} (hx : s.transferOf q = some (readTransfer q k n b)) :
    s.readSegment q k 0 [] =
      s.respond q 0x03 .ok (blockBody k (if b.length ≤ 480 then 2 else 0) 0 b.length ++ b.take 480) := by
  have hoff : 0 < b.length ∨ (b.length = 0 ∧ 0 = 0) := by omega
  have hflag : min 480 b.length = b.length ↔ b.length ≤ 480 := by omega
  have htake : b.take (min 480 b.length) = b.take 480 := by rw [List.take_eq_take_iff]; omega
  have hserve := State.readSegment_serves hx rfl (objKey_div_mod k) hoff
  simpa only [readTransfer, Nat.zero_add, Nat.sub_zero, List.drop_zero, hflag, htake] using hserve

theorem State.openRead_first {r : State × List Byte} (h : (s.closeTransfer q).transferFull k = false)
    (hread : (s.closeTransfer q).domainRead k = .ok r) :
    (∃ y ∈ (s.openRead q k 0 []).transferOf q,
        y.write = false ∧ y.data = r.2 ∧ y.total = r.2.length ∧ objKey y.index y.sub = k) ∧
      (s.openRead q k 0 []).answers q 0x03 .ok
        (blockBody k (if r.2.length ≤ 480 then 2 else 0) 0 r.2.length ++ r.2.take 480) := by
  have hx := State.transferOf_openedRead r.1 q k r.2
  rw [State.openRead_opens h hread, State.readSegment_first hx]
  exact ⟨⟨_, (State.transferOf_respond _ q q _ _ _).trans hx, rfl, rfl, rfl, objKey_div_mod k⟩, State.respond_answers _ q _ _ _⟩

/-! ### READ_BLOCK by its cases (R468) -/

/-- READ_BLOCK, where a request is executed. -/
theorem readBlock_runs {P : State → Prop} {t : State} (h : s.servedFor q = true) (ht : s.readBlock q body u = t) (hp : P t) :
    Runs (.readBlock q body u) s P :=
  ⟨t, congrArg Host.Outcome.next ((State.ifRequest_of h).trans ht), hp⟩

theorem State.readBlock_length (h : body.length ≠ 8) :
    s.readBlock q body u = s.respond q 0x03 .length (blockBody (bodyKey body) 0 0 0) := by
  simp [State.readBlock, h]

theorem State.readBlock_absent (h : body.length = 8) (hd : objDesc (bodyKey body) = none) :
    s.readBlock q body u = s.respond q 0x03 .absentObject (blockBody (bodyKey body) 0 0 0) := by
  simp [State.readBlock, h, hd]

theorem State.readBlock_typeMismatch (h : body.length = 8) (hd : objDesc (bodyKey body) = some d) (ht : d.type ≠ .domain) :
    s.readBlock q body u = s.respond q 0x03 .typeMismatch (blockBody (bodyKey body) 0 0 0) := by
  simp [State.readBlock, h, hd, ht]

theorem State.readBlock_abort (h : body.length = 8) (hd : objDesc (bodyKey body) = some d) (ht : d.type = .domain)
    (h2 : bit (body.getD 3 0).toNat 2 = true) (hx : s.transferOf q = some x) :
    s.readBlock q body u = (s.closeTransfer q).respond q 0x03 .ok (blockBody (bodyKey body) 4 0 0) := by
  unfold State.readBlock
  simp only [h, hd, ht, h2, hx, ne_eq, not_true_eq_false, if_true, if_false, Option.isSome_some]

theorem State.readBlock_abort_none (h : body.length = 8) (hd : objDesc (bodyKey body) = some d) (ht : d.type = .domain)
    (h2 : bit (body.getD 3 0).toNat 2 = true) (hx : s.transferOf q = none) :
    s.readBlock q body u = s.respond q 0x03 .segment (blockBody (bodyKey body) 0 0 0) := by
  unfold State.readBlock
  simp only [h, hd, ht, h2, hx, ne_eq, not_true_eq_false, if_true, if_false, Option.isSome_none, Bool.false_eq_true]

theorem State.readBlock_first (h : body.length = 8) (hd : objDesc (bodyKey body) = some d) (ht : d.type = .domain)
    (h0 : bit (body.getD 3 0).toNat 0 = true) (h2 : bit (body.getD 3 0).toNat 2 = false) :
    s.readBlock q body u = s.openRead q (bodyKey body) (fromLE ((body.drop 4).take 4)) u := by
  unfold State.readBlock
  simp only [h, hd, ht, h0, h2, ne_eq, not_true_eq_false, if_true, if_false, Bool.false_eq_true]

theorem State.readBlock_next (h : body.length = 8) (hd : objDesc (bodyKey body) = some d) (ht : d.type = .domain)
    (h0 : bit (body.getD 3 0).toNat 0 = false) (h2 : bit (body.getD 3 0).toNat 2 = false) :
    s.readBlock q body u = s.readSegment q (bodyKey body) (fromLE ((body.drop 4).take 4)) u := by
  unfold State.readBlock
  simp only [h, hd, ht, h0, h2, ne_eq, not_true_eq_false, if_false, Bool.false_eq_true]

/-- READ_BLOCK writes no memory but the staging of its snapshots. -/
theorem State.readBlock_keepsButStaging (s : State) (q : Req) (body : List Byte) (u : List Upset) :
    (s.readBlock q body u).keepsButStaging s := by
  have hanswer : ∀ {t : State} (st : Status) (b : List Byte), t.keepsMemories s →
      (t.respond q 0x03 st b).keepsButStaging s := fun st b ht =>
    State.keepsButStaging_of_keepsMemories (State.keepsMemories_respond ht q _ st b)
  unfold State.readBlock
  dsimp only
  split
  · exact hanswer _ _ ⟨rfl, rfl, rfl⟩
  · split
    · exact hanswer _ _ ⟨rfl, rfl, rfl⟩
    · split
      · exact hanswer _ _ ⟨rfl, rfl, rfl⟩
      · split
        · split <;> exact hanswer _ _ ⟨rfl, rfl, rfl⟩
        · split
          · exact s.openRead_keepsButStaging q _ _ u
          · exact State.keepsButStaging_of_keepsMemories (s.readSegment_keepsMemories q _ _ u)

end Sys2Proof.Machine
end

section
/-! SUPPORT. WRITE_BLOCK: the answer of each of its cases (R468, R510). -/
namespace Sys2Proof.Machine

variable {s : State} {q : Req} {body data : List Byte} {d : ObjDesc} {x : Transfer} {u : List Upset} {k off total : Nat}
  {patch : Option Nat} {e : StoreEnd}

/-! ### A segment of a write -/

/-- The last segment makes the object whole; check unit 37 runs over it, and it is written (R271). -/
theorem State.writeSegment_last (ht : total = x.total) (ho : off = x.data.length) (hl : x.data.length + data.length = x.total) :
    s.writeSegment q k x true off total data u patch e =
      ((s.closeTransfer q).check 37 (x.data ++ data)).writeWhole q k (x.data ++ data) u patch e := by
  subst ht ho
  simp [State.writeSegment, hl]

/-- A segment in order before the last is appended. -/
theorem State.writeSegment_append (ht : total = x.total) (ho : off = x.data.length)
    (hl : x.data.length + data.length ≤ x.total) :
    s.writeSegment q k x false off total data u patch e =
      (s.putTransfer q { x with data := x.data ++ data, prev := some (x.data.length, data.length) }).respond q 0x04 .ok
        (blockBody k 0 (x.data ++ data).length x.total) := by
  subst ht ho
  simp [State.writeSegment, hl]

/-- A repeat of the previous segment is answered again. -/
theorem State.writeSegment_repeat (ht : total = x.total) (ho : off ≠ x.data.length) (hp : x.prev = some (off, data.length)) :
    s.writeSegment q k x false off total data u patch e = s.respond q 0x04 .ok (blockBody k 0 x.data.length total) := by
  simp [State.writeSegment, ht, ho, hp]

/-- A TOTAL other than the transfer's breaks the rules. -/
theorem State.writeSegment_wrongTotal {last : Bool} (ht : total ≠ x.total) :
    s.writeSegment q k x last off total data u patch e = s.segmentError q 0x04 k := by
  simp [State.writeSegment, ht]

/-- An appended segment is answered, and the transfer goes on; only alive counters and the server's own part change. -/
theorem State.writeSegment_appends (hx : s.transferOf q = some x) (ht : total = x.total) (ho : off = x.data.length)
    (hl : x.data.length + data.length ≤ x.total) :
    (s.writeSegment q k x false off total data u patch e).answers q 0x04 .ok (blockBody k 0 (x.data ++ data).length x.total) ∧
      (s.writeSegment q k x false off total data u patch e).transferOf q =
        some { x with data := x.data ++ data, prev := some (x.data.length, data.length) } ∧
      (s.writeSegment q k x false off total data u patch e).keepsObjects s [Obj.CHK_ALIVE_TXN, Obj.CHK_ALIVE_TXC] ∧
      (s.writeSegment q k x false off total data u patch e).keepsMemories s := by
  obtain ⟨hpath, hsrc⟩ := State.source_of_transferOf hx
  rw [State.writeSegment_append ht ho hl]
  refine ⟨State.respond_answers _ q _ _ _, ?_, fun j hj => ?_, State.keepsMemories_respond (s.putTransfer_keepsMemories q _) q _ _ _⟩
  · rw [State.transferOf_respond]
    exact State.transferOf_putTransfer s hpath hsrc
  · simp only [List.mem_cons, List.not_mem_nil, or_false, not_or] at hj
    exact State.o_respond _ q _ _ _ (State.aliveKey hj)

/-! ### The whole object (R510, R512) -/

theorem State.writeWhole_image (b : List Byte) (hk : k = Obj.NV_IMAGE) :
    s.writeWhole q k b u patch e = s.imageWrite q b u e := by
  rw [State.writeWhole, if_pos hk]

theorem State.writeWhole_patch (b : List Byte) (hk : k = Obj.NV_PATCH) :
    s.writeWhole q k b u patch e = s.patchWrite q b u patch e := by
  have hne : Obj.NV_PATCH ≠ Obj.NV_IMAGE := by decide
  rw [State.writeWhole, hk, if_neg hne, if_pos rfl]

/-- Whether a request is executed does not hang on the open transfers or on a check unit. -/
theorem State.servedFor_checked (h : s.servedFor q = true) (l : List Byte) :
    ((s.closeTransfer q).check 37 l).servedFor q = true := by
  have ho : ∀ j ∈ [Obj.PWR_STATE, Obj.CLK_STATE, Obj.PWR_BOOT_STEP], ((s.closeTransfer q).check 37 l).o j = s.o j := by
    intro j hj
    refine (s.closeTransfer q).o_setO_ne _ ?_
    fin_cases hj <;> decide
  rw [← h]
  simp only [State.servedFor, State.served, State.awake, State.clocked, State.serverUp, State.ob, ho _ (List.mem_cons_self ..),
    ho Obj.CLK_STATE (by simp), ho Obj.PWR_BOOT_STEP (by simp)]
  rfl

/-! ### WRITE_BLOCK by its cases (R468) -/

/-- A WRITE_BLOCK with a body of a legal length, of a DOMAIN object that a host may write. -/
structure BlockWriteForm (body : List Byte) (d : ObjDesc) : Prop where
  atLeast : 12 ≤ body.length
  atMost : body.length ≤ 492
  desc : objDesc (bodyKey body) = some d
  writable : d.acc = .rw ∨ d.acc = .wo
  domain : d.type = .domain

/-- The source may write an object of this level (R467). -/
def State.hasLevel (s : State) (q : Req) (d : ObjDesc) : Prop := d.expert = false ∨ s.isExpert q = true

theorem writeBlock_exec (h : s.servedFor q = true) (body : List Byte) (u : List Upset) (patch : Option (BitVec 16)) (e : StoreEnd) :
    exec (.writeBlock q body u patch e) s = .next (s.writeBlock q body u (patch.map BitVec.toNat) e) :=
  congrArg Host.Outcome.next (State.ifRequest_of h)

/-- WRITE_BLOCK, where a request is executed. -/
theorem writeBlock_runs {P : State → Prop} {t : State} {patch : Option (BitVec 16)} (h : s.servedFor q = true)
    (ht : s.writeBlock q body u (patch.map BitVec.toNat) e = t) (hp : P t) : Runs (.writeBlock q body u patch e) s P :=
  ⟨t, ht ▸ writeBlock_exec h body u patch e, hp⟩

theorem State.writeBlock_length (h : body.length < 12 ∨ 492 < body.length) :
    s.writeBlock q body u patch e = s.respond q 0x04 .length (blockBody (bodyKey body) 0 0 0) := by
  simp [State.writeBlock, h]

theorem BlockWriteForm.length_ok (hf : BlockWriteForm body d) : ¬(body.length < 12 ∨ 492 < body.length) := by
  have h1 := hf.atLeast
  have h2 := hf.atMost
  omega

theorem BlockWriteForm.not_readOnly (hf : BlockWriteForm body d) : ¬(d.acc ≠ .rw ∧ d.acc ≠ .wo) := by
  rcases hf.writable with h | h <;> simp [h]

theorem State.writeBlock_expert (hf : BlockWriteForm body d) (hd : d.expert = true) (hq : s.isExpert q = false) :
    s.writeBlock q body u patch e = s.respond q 0x04 .expertRequired (blockBody (bodyKey body) 0 0 0) := by
  unfold State.writeBlock
  simp only [hf.length_ok, hf.desc, hf.not_readOnly, hf.domain, hd, hq, if_false, ne_eq, not_true_eq_false, Bool.not_false,
    Bool.and_self, if_true]

/-- Neither FIRST nor ABORT: the segment goes to the source's write of the object. -/
theorem State.writeBlock_goesOn (hf : BlockWriteForm body d) (hl : s.hasLevel q d) (h0 : bit (body.getD 3 0).toNat 0 = false)
    (h2 : bit (body.getD 3 0).toNat 2 = false) (hx : s.transferOf q = some x) (hw : x.write = true)
    (hk : objKey x.index x.sub = bodyKey body) :
    s.writeBlock q body u patch e = s.writeSegment q (bodyKey body) x (bit (body.getD 3 0).toNat 1)
      (fromLE ((body.drop 4).take 4)) (fromLE ((body.drop 8).take 4)) (body.drop 12) u patch e := by
  have hlev : (d.expert && !s.isExpert q) = false := by rcases hl with h | h <;> simp [h]
  unfold State.writeBlock
  simp only [hf.length_ok, hf.desc, hf.not_readOnly, hf.domain, hlev, h0, h2, hx, hw, hk, if_false, ne_eq, not_true_eq_false,
    Bool.false_eq_true, Bool.true_eq_false, or_self]

/-- A last segment: the object is written as the command of the whole object writes it. -/
theorem writeBlock_last {patch : Option (BitVec 16)} (hs : s.servedFor q = true)
    (hgo : s.writeBlock q body u (patch.map BitVec.toNat) e =
      s.writeSegment q k x true off total data u (patch.map BitVec.toNat) e)
    (ht : total = x.total) (ho : off = x.data.length) (hl : x.data.length + data.length = x.total) :
    (k = Obj.NV_IMAGE → exec (.writeBlock q body u patch e) s =
      exec (.nvImageWrite q (x.data ++ data) u e) ((s.closeTransfer q).check 37 (x.data ++ data))) ∧
    (k = Obj.NV_PATCH → exec (.writeBlock q body u patch e) s =
      exec (.nvPatchWrite q (x.data ++ data) u ⟨patch, e⟩) ((s.closeTransfer q).check 37 (x.data ++ data))) := by
  have hserved := State.servedFor_checked hs (x.data ++ data)
  rw [writeBlock_exec hs, hgo, State.writeSegment_last ht ho hl]
  refine ⟨fun hk => ?_, fun hk => ?_⟩
  · rw [State.writeWhole_image _ hk]
    exact congrArg Host.Outcome.next (State.ifRequest_of hserved).symm
  · rw [State.writeWhole_patch _ hk]
    exact congrArg Host.Outcome.next (State.ifRequest_of hserved).symm

/-- Neither FIRST nor ABORT, and no transfer of the source. -/
theorem State.writeBlock_noTransfer (hf : BlockWriteForm body d) (hl : s.hasLevel q d)
    (h0 : bit (body.getD 3 0).toNat 0 = false) (h2 : bit (body.getD 3 0).toNat 2 = false) (hx : s.transferOf q = none) :
    s.writeBlock q body u patch e = s.respond q 0x04 .segment (blockBody (bodyKey body) 0 0 0) := by
  have hlev : (d.expert && !s.isExpert q) = false := by rcases hl with h | h <;> simp [h]
  unfold State.writeBlock
  simp only [hf.length_ok, hf.desc, hf.not_readOnly, hf.domain, hlev, h0, h2, hx, if_false, ne_eq, not_true_eq_false,
    Bool.false_eq_true]

/-- FIRST, LAST and ABORT are the three low bits of SFLAGS (R15). -/
theorem bit_of_mod_eight {f r i : Nat} (h : f % 8 = r) (hi : i < 3) : bit f i = bit r i := by
  have := Nat.testBit_mod_two_pow f 3 i
  simp only [Nat.reducePow, h, hi, decide_true, Bool.true_and] at this
  exact this.symm

/-! ### The time-out of a transfer (R468) -/

theorem blockTransferTimeout_idle {p : Path} {src : BitVec 16} (h : ∀ y ∈ s.cufel.transfers, y.path ≠ p ∨ y.src ≠ src.toNat) :
    exec (.blockTransferTimeout p src) s = .next s := by
  have hno : (s.cufel.transfers.any fun t => decide (t.path = p) && t.src == src.toNat) = false := by
    simpa [List.any_eq_false, imp_iff_not_or] using h
  have hs : s.ifAwake s = s := by simp [State.ifAwake]
  simp only [exec, execBlockTransferTimeout, hno, Bool.false_eq_true, if_false, hs]

/-- The state in which the transfer of a source has timed out. -/
def State.timedOut (s : State) (p : Path) (src : Nat) : State :=
  { s.bump Obj.CF_BLK_ABANDON with
    cufel := { s.cufel with transfers := s.cufel.transfers.filter fun t => !(decide (t.path = p) && t.src == src) } }

theorem blockTransferTimeout_closes {p : Path} {src : BitVec 16} (ha : s.awake = true)
    (h : ∃ y ∈ s.cufel.transfers, y.path = p ∧ y.src = src.toNat) :
    exec (.blockTransferTimeout p src) s = .next (s.timedOut p src.toNat) := by
  have hany : (s.cufel.transfers.any fun t => decide (t.path = p) && t.src == src.toNat) = true := by
    simpa [List.any_eq_true] using h
  simp only [exec, execBlockTransferTimeout, hany, if_true, State.ifAwake_of ha, State.timedOut]

theorem State.timedOut_transfers (s : State) (p : Path) (src : Nat) :
    ∀ y ∈ (s.timedOut p src).cufel.transfers, y.path ≠ p ∨ y.src ≠ src := by
  intro y hy
  simpa [imp_iff_not_or] using (List.mem_filter.mp hy).2

theorem State.timedOut_counts (s : State) (p : Path) (src : Nat) :
    (s.timedOut p src).o Obj.CF_BLK_ABANDON = satAdd 32 (s.o Obj.CF_BLK_ABANDON) 1 :=
  s.o_setO_self Obj.CF_BLK_ABANDON _

theorem State.timedOut_keepsObjects (s : State) (p : Path) (src : Nat) :
    (s.timedOut p src).keepsObjects s [Obj.CF_BLK_ABANDON] := by
  intro k hk
  exact s.o_setO_ne _ (by simpa using hk)

end Sys2Proof.Machine
end

section
/-! SUPPORT. Block transfers, as the statement gives them: reads, writes and the time-out (R468). -/
namespace Sys2Proof.Machine

theorem eq_ok_of_mem_toOption {ε α : Type} {a : Except ε α} {r : α} (h : r ∈ a.toOption) : a = .ok r := by
  cases a with
  | error c => cases h
  | ok r' => cases h; rfl

/-- Settles O37: each clause is one case of READ_BLOCK, of WRITE_BLOCK or of the time-out, which the lemmas above give as an
equation; what remains of it is the law of the response that the case answers with. -/
theorem blockTransfersGoSegmentBySegment : Obligations.BlockTransfersGoSegmentBySegment := by
  unfold Obligations.BlockTransfersGoSegmentBySegment
  intro q body d x u patch e p src s
  have only (m : Nat) (st : Status) (b : List Byte) := s.respond_only q m st b
  have memories (st : Status) (b : List Byte) :=
    State.keepsMemories_respond (s.closeTransfer_keepsMemories q) q 0x03 st b
  refine ⟨fun hs => ⟨?frame, fun h => ?readLength, fun h hd => ?readAbsent, fun h hd => ⟨fun ht => ?readType,
    fun ht h0 h2 => ⟨fun hfull => ?readFull, fun hn hk => ⟨fun c hc => ?readRefused,
      fun r hr => ⟨fun hoff => ?readFirst, ?readImage, ?readProbe⟩⟩⟩,
    fun ht h0 h2 => ⟨fun hx => ?readNone, fun hx hno => ?readOther⟩,
    fun ht h0 h2 hx hw hk => ⟨fun hoff => ?readServes, fun hoff hu => ?readHalts, fun hoff hpos => ?readBeyond⟩,
    fun ht h2 => ⟨fun hx => ?abortNone, fun hx => ?abortOpen⟩⟩,
    fun h => ?writeLength, fun hlo hhi hd ha ht => ?write⟩,
    fun ha => ⟨fun h => blockTransferTimeout_idle h, fun h => ?timeout⟩⟩
  case frame => exact readBlock_runs hs rfl (s.readBlock_keepsButStaging q body u)
  case readLength => exact readBlock_runs hs (State.readBlock_length h) (only _ _ _)
  case readAbsent => exact readBlock_runs hs (State.readBlock_absent h hd) (only _ _ _)
  case readType => exact readBlock_runs hs (State.readBlock_typeMismatch h hd ht) (only _ _ _)
  case readFull =>
    have hfull := (State.transferFull_iff _ _).mpr hfull
    exact readBlock_runs hs ((State.readBlock_first h hd ht h0 h2).trans (State.openRead_full hfull))
      ⟨State.respond_answers _ q _ _ _, State.transfers_respond _ q _ _ _, memories _ _⟩
  case readRefused =>
    have hfree := State.transferFull_eq_false hn hk
    have hread : (s.closeTransfer q).domainRead (bodyKey body) = .error c := by
      split at hc <;> simp_all
    exact readBlock_runs hs ((State.readBlock_first h hd ht h0 h2).trans (State.openRead_refused hfree hread))
      ⟨State.respond_answers _ q _ _ _, by simp, memories _ _⟩
  case readFirst =>
    have hfree := State.transferFull_eq_false hn hk
    exact readBlock_runs hs (State.readBlock_first h hd ht h0 h2)
      (by rw [hoff]; exact State.openRead_first hfree (eq_ok_of_mem_toOption hr))
  case readImage => exact fun hk => State.domainRead_image (s := s.closeTransfer q) (hk ▸ eq_ok_of_mem_toOption hr)
  case readProbe => exact fun hk => State.domainRead_probe (s := s.closeTransfer q) (hk ▸ eq_ok_of_mem_toOption hr)
  case readNone =>
    exact readBlock_runs hs ((State.readBlock_next h hd ht h0 h2).trans
      (State.readSegment_of_no_read fun y hy => by simp [hx] at hy)) (only _ _ _)
  case readOther =>
    exact readBlock_runs hs ((State.readBlock_next h hd ht h0 h2).trans
      (State.readSegment_of_no_read fun y hy => by rw [hx] at hy; cases hy; exact hno)) (only _ _ _)
  case readServes =>
    exact readBlock_runs hs ((State.readBlock_next h hd ht h0 h2).trans (State.readSegment_serves hx hw hk (.inl hoff)))
      ⟨only _ _ _, by rw [State.transferOf_respond, hx]⟩
  case readHalts =>
    have hmem := fun a n => State.keepsMemories_trans (State.closeTransfer_keepsMemories _ q) (s.channelRead_keepsMemories 4 a n u)
    exact readBlock_runs hs ((State.readBlock_next h hd ht h0 h2).trans (State.readSegment_halts hx hw hk hoff hu))
      ⟨State.respond_answers _ q _ _ _, by simp, State.keepsMemories_respond (hmem _ _) q _ _ _⟩
  case readBeyond =>
    exact readBlock_runs hs ((State.readBlock_next h hd ht h0 h2).trans (State.readSegment_beyond hx hw hk hoff hpos))
      (State.segmentError_abandons 0x03 hx)
  case abortNone => exact readBlock_runs hs (State.readBlock_abort_none h hd ht h2 hx) (only _ _ _)
  case abortOpen =>
    exact readBlock_runs hs (State.readBlock_abort h hd ht h2 hx) ⟨State.respond_answers _ q _ _ _, by simp, memories _ _⟩
  case writeLength => exact writeBlock_runs hs (State.writeBlock_length h) (only _ _ _)
  case write =>
    have hf : BlockWriteForm body d := ⟨hlo, hhi, hd, ha, ht⟩
    refine ⟨fun hx hq => writeBlock_runs hs (State.writeBlock_expert hf hx hq) (only _ _ _),
      fun hl hx hw hk hflags htot hoff hlen => ?last, fun hl hflags => ?next⟩
    case last =>
      have hgo := State.writeBlock_goesOn (u := u) (patch := patch.map BitVec.toNat) (e := e) hf hl
        (bit_of_mod_eight hflags (by decide)) (bit_of_mod_eight hflags (by decide)) hx hw hk
      rw [bit_of_mod_eight hflags (by decide)] at hgo
      exact writeBlock_last hs hgo htot hoff hlen
    case next =>
      have h0 : bit (body.getD 3 0).toNat 0 = false := bit_of_mod_eight hflags (by decide)
      have h1 : bit (body.getD 3 0).toNat 1 = false := bit_of_mod_eight hflags (by decide)
      have h2 : bit (body.getD 3 0).toNat 2 = false := bit_of_mod_eight hflags (by decide)
      refine ⟨fun hx => writeBlock_runs hs (State.writeBlock_noTransfer hf hl h0 h2 hx) (only _ _ _), fun hx hw hk => ?_⟩
      have hgo := State.writeBlock_goesOn (u := u) (patch := patch.map BitVec.toNat) (e := e) hf hl h0 h2 hx hw hk
      rw [h1] at hgo
      refine ⟨fun htot hoff hlen => writeBlock_runs hs hgo (State.writeSegment_appends hx htot hoff hlen),
        fun htot hoff hprev => ?again, fun htot => ?wrongTotal⟩
      case again =>
        rw [State.writeSegment_repeat htot hoff hprev, htot] at hgo
        exact writeBlock_runs hs hgo ⟨only _ _ _, by rw [State.transferOf_respond, hx]⟩
      case wrongTotal =>
        exact writeBlock_runs hs (hgo.trans (State.writeSegment_wrongTotal htot)) (State.segmentError_abandons 0x04 hx)
  case timeout =>
    exact ⟨_, blockTransferTimeout_closes ha h, s.timedOut_transfers p src.toNat, s.timedOut_counts p src.toNat,
      s.timedOut_keepsObjects p src.toNat, rfl⟩

end Sys2Proof.Machine
end

section
/-! SUPPORT. The mark that a verify sets on a die goes into the training area of the NVM (R355, R363, R366). -/
namespace Sys2Proof.Machine

/-! ### What the flag computations leave as it was -/

@[simp] theorem State.nvm_stage (s : State) (code cls unit : Nat) (d : List Byte) : (s.stage code cls unit d).nvm = s.nvm :=
  (s.stage_keepsMemories code cls unit d).2.2

@[simp] theorem State.nvm_refreshFaultN (s : State) : s.refreshFaultN.nvm = s.nvm := by
  unfold State.refreshFaultN
  split <;> rfl

@[simp] theorem State.nvm_ariseIf (s : State) (n : Nat) : (s.ariseIf n).nvm = s.nvm := by
  unfold State.ariseIf
  split
  · rfl
  · exact State.nvm_refreshFaultN _

@[simp] theorem State.nvm_dieCond (s : State) : s.dieCond.nvm = s.nvm := by
  unfold State.dieCond
  split <;> rfl

@[simp] theorem State.nvm_endIf (s : State) (n : Nat) (gone : Bool) : (s.endIf n gone).nvm = s.nvm := by
  unfold State.endIf
  split <;> rfl

@[simp] theorem State.nvm_portCond (s : State) : s.portCond.nvm = s.nvm := by
  unfold State.portCond
  split
  · exact (State.nvm_ariseIf _ 12).trans (s.nvm_stage ..)
  · rfl

/-- The flags brought up to date are objects and staged events; the NVM is none of them. -/
@[simp] theorem State.nvm_settle (s : State) : s.settle.nvm = s.nvm := by
  simp only [State.settle, State.nvm_refreshFaultN, State.nvm_dieCond, State.nvm_portCond, State.nvm_endIf]
  split <;> rfl

@[simp] theorem State.nvm_raiseFault (s : State) (f : Nat) (c : Ch) : (s.raiseFault f c).nvm = s.nvm := rfl

/-! ### A mark and the training area (R355) -/

/-- What a mark adds to the training area is a matter of the NVM alone. -/
theorem State.nvm_storeMark_setO (s : State) (r j k v : Nat) : ((s.setO k v).storeMark r j).nvm = (s.storeMark r j).nvm := by
  have hstored : (s.setO k v).trainStored = s.trainStored := by simp only [State.trainStored, State.nvm_setO]
  have hwords : ∀ l, (s.setO k v).newTrain l = s.newTrain l := fun l => by simp only [State.newTrain, State.nvm_setO]
  unfold State.storeMark
  rw [hstored]
  cases s.trainStored.getD r none with
  | none => rfl
  | some e => simp only [State.nvWrite, State.nvm_setO, hwords]

/-- A die that is marked leaves the NVM with its mark in the training area. -/
theorem State.nvm_markDie {s : State} {r : Nat} (j corr : Nat) (hmark : s.o (Obj.DRM_DIEMARK r) = 0xFF) (hlo : 1 ≤ s.rstate r)
    (hhi : s.rstate r ≤ 6) : (s.markDie r j corr).nvm = (s.storeMark r j).nvm := by
  rw [State.markDie, if_pos ⟨hmark, hlo, hhi⟩, State.nvm_dieCond, State.nvm_ariseIf, State.nvm_stage,
    State.nvm_raiseFault]
  exact s.nvm_storeMark_setO r j _ _

/-- The verify of a rank in WAKE that finds one die failing stores that die's mark in the NVM (R366). -/
theorem State.nvm_verifyDone_oneDie {s : State} {r f j : Nat} {l : List Nat} (hclk : s.o Obj.CLK_STATE = 3)
    (hwake : s.o (Obj.DRM_RSTATE r) = 5) (hmark : s.o (Obj.DRM_DIEMARK r) = 0xFF) (hone : popcount 6 f < 2)
    (hdie : bitList 6 f = j :: l) : (s.verifyDone r f).nvm = (s.storeMark r j).nvm := by
  have hstate : s.rstate r = 5 := hwake
  have hjudge : s.judgeDies r f = (s.markDie r j 0, true) := by
    simp [State.judgeDies, State.badDies, hmark, hone, hdie]
  have hrun : s.verifyDone r f = (((s.markDie r j 0).setO (Obj.DRM_RSTATE r) 3).verified r).settle := by
    simp [State.verifyDone, hclk, hstate, hjudge]
  rw [hrun, State.nvm_settle]
  exact State.nvm_markDie j 0 hmark (by omega) (by omega)

/-! ### A rank in WAKE that the training area holds -/

/-- Run, rank A in WAKE with no die marked, and a committed training copy that holds rank A. -/
def trainedWake : State :=
  let s := ((State.reset.setO Obj.PWR_STATE 3).setO Obj.CLK_STATE 3).setO (Obj.DRM_RSTATE 0) 5
  s.nvWrite (s.newTrain [some ([], 0xFF), none, none])

/-- It runs, its stored data has the canonical form, and rank A waits for its verify with no die marked. -/
theorem trainedWake_waits : trainedWake.awake = true ∧ trainedWake.wf = true ∧ trainedWake.o Obj.CLK_STATE = 3 ∧
    trainedWake.o (Obj.DRM_RSTATE 0) = 5 ∧ trainedWake.o (Obj.DRM_DIEMARK 0) = 0xFF := by
  decide +kernel

/-- A mark of die 3 stored for rank A is written into the second training copy, which was empty. -/
theorem trainedWake_storeMark : memGet trainedWake.nvm (trainBase 1 + 37) = 0 ∧
    memGet (trainedWake.storeMark 0 3).nvm (trainBase 1 + 37) = 3 := by
  decide +kernel

/-- Refutes O28: its clause on a verify with one failing die has the memories as they were, but the mark is stored in the NVM
when the training area holds the rank, as R355 asks. -/
theorem not_ranksRefreshVerifyTrackAndRetire : ¬ Obligations.RanksRefreshVerifyTrackAndRetire := by
  unfold Obligations.RanksRefreshVerifyTrackAndRetire
  intro h
  obtain ⟨hawake, -, hclk, hwake, hmark⟩ := trainedWake_waits
  obtain ⟨hbefore, hafter⟩ := trainedWake_storeMark
  obtain ⟨-, -, hrunning⟩ := h .a 0 8 3 0 0 0 [] 0 0 ⟨0, 0, 0⟩ [] 0 0 0 trainedWake
  obtain ⟨-, -, hverify, -⟩ := hrunning hawake
  obtain ⟨hserves, -⟩ := hverify hwake hclk hmark
  obtain ⟨t, ht, -, -, ⟨-, -, hkept⟩, -⟩ := hserves (.inr rfl)
  have ht : trainedWake.verifyDone 0 8 = t := (State.ifAwake_of hawake).symm.trans (Host.Outcome.next.inj ht)
  have hstored : (trainedWake.verifyDone 0 8).nvm = (trainedWake.storeMark 0 3).nvm :=
    State.nvm_verifyDone_oneDie hclk hwake hmark (by decide) (by decide : bitList 6 8 = [3])
  rw [← hstored, ht, hkept, hbefore] at hafter
  exact absurd hafter (by decide)

end Sys2Proof.Machine
end

section
/-! SUPPORT. Host writes of control objects: the check of each, and what its answer comes to (R464, R465, R491). -/
namespace Sys2Proof.Machine

variable {s : State} {q : Req} {c : Instr} {k v : Nat} {e : Bool} {check st : Status}

/-- A host write whose check passes waits for the tick. -/
theorem hostWrite_runs_waits (hs : s.servedFor q = true) (hx : e = false ∨ s.isExpert q = true)
    (hexec : exec c s = .next (s.ifRequest q (s.hostWrite q k e check (s.pendLive k v)))) (hcheck : check = .ok) :
    Runs c s (·.writeWaits s q k v) := by
  subst hcheck
  exact ⟨_, hexec.trans (congrArg _ (State.ifRequest_of hs)), s.hostWrite_waits q k v e hx⟩

/-- A host write whose check fails is refused with the check's code. -/
theorem hostWrite_runs_refused {t : State} (hs : s.servedFor q = true) (hx : e = false ∨ s.isExpert q = true)
    (hexec : exec c s = .next (s.ifRequest q (s.hostWrite q k e check t))) (hcheck : check = st) (hst : st ≠ .ok) :
    Runs c s (·.writeRefused s q k st) := by
  subst hcheck
  exact ⟨_, hexec.trans (congrArg _ (State.ifRequest_of hs)), s.hostWrite_refused t q k e check hx hst⟩

/-- An expert write from a source without a session is refused, whatever its check would say. -/
theorem hostWrite_runs_expert {t : State} (hs : s.servedFor q = true) (hx : s.isExpert q = false)
    (hexec : exec c s = .next (s.ifRequest q (s.hostWrite q k true check t))) :
    Runs c s (·.writeRefused s q k .expertRequired) :=
  ⟨_, hexec.trans (congrArg _ (State.ifRequest_of hs)), s.hostWrite_expert t q k check hx⟩

/-! ### The checks -/

theorem State.prbCtrlCheck_arm_ok (h : s.o Obj.PRB_STATE = 0 ∨ s.o Obj.PRB_STATE = 5) : s.prbCtrlCheck 1 = .ok := by
  rcases h with h | h <;> simp [State.prbCtrlCheck, State.prbRunning, h]

theorem State.prbCtrlCheck_arm_running (hlo : 1 ≤ s.o Obj.PRB_STATE) (hhi : s.o Obj.PRB_STATE ≤ 4) :
    s.prbCtrlCheck 1 = .functionRunning := by
  simp [State.prbCtrlCheck, State.prbRunning, hlo, hhi]

theorem State.asmCtrlCheck_start_ok (h : s.o Obj.ASM_STATE = 0) (hr : s.o Obj.CF_ROLE ≠ 3) : s.asmCtrlCheck 1 = .ok :=
  if_pos ⟨h, hr⟩

theorem State.asmCtrlCheck_start_running (h : s.o Obj.ASM_STATE ≠ 0 ∨ s.o Obj.CF_ROLE = 3) :
    s.asmCtrlCheck 1 = .functionRunning :=
  if_neg (by tauto)

theorem State.isHub_eq_true (h : s.o Obj.CF_ROLE = 2) : s.isHub = true := by simp [State.isHub, h]

theorem State.isHub_eq_false (h : s.o Obj.CF_ROLE ≠ 2) : s.isHub = false := by simp [State.isHub, h]

/-- A hub refuses only what leaves a port of a pass-through hub without a lane of its own (R234). -/
theorem State.portEnCheck_of_hub (h : s.o Obj.CF_ROLE = 2) :
    s.portEnCheck v = if s.o Obj.HUB_MODE = 1 ∧ s.lanesOk v = false then .outOfRange else .ok := by
  simp [State.portEnCheck, State.isHub_eq_true h]

theorem State.portEnCheck_not_hub (h : s.o Obj.CF_ROLE ≠ 2) : s.portEnCheck v = .functionRunning := by
  simp [State.portEnCheck, State.isHub_eq_false h]

theorem State.anyUnit_iff (n : Nat) : s.anyUnit n = true ↔ s.o Obj.BLD_UNIT0 = n ∨ s.o Obj.BLD_UNIT1 = n := by
  simp [State.anyUnit, State.unit, unitKey]

theorem State.anyUnit_eq_false (h0 : s.o Obj.BLD_UNIT0 ≠ v) (h1 : s.o Obj.BLD_UNIT1 ≠ v) : s.anyUnit v = false := by
  simp [State.anyUnit, State.unit, unitKey, h0, h1]

theorem State.bldCtrlCheck_switch_ok (hl : s.lockstep = true) (hp : s.switchPending = false) : s.bldCtrlCheck 1 = .ok := by
  simp [State.bldCtrlCheck, hl, hp]

theorem State.bldCtrlCheck_switch_running (h : s.lockstep = false ∨ s.switchPending = true) :
    s.bldCtrlCheck 1 = .functionRunning := by
  rcases h with h | h <;> simp [State.bldCtrlCheck, h]

/-- REJOIN takes a retired unit beside an active one (R244). -/
theorem State.bldCtrlCheck_rejoin_ok (h5 : s.anyUnit 5 = true) (h1 : s.anyUnit 1 = true) : s.bldCtrlCheck 2 = .ok := by
  simp [State.bldCtrlCheck, h5, h1]

theorem State.bldCtrlCheck_rejoin_running (h : s.anyUnit 5 = false ∨ s.anyUnit 1 = false) :
    s.bldCtrlCheck 2 = .functionRunning := by
  rcases h with h | h <;> simp [State.bldCtrlCheck, h]

theorem State.pctrlCheck_of_used {i : Nat} (h : s.laneUsed i = true) :
    s.pctrlCheck i v = if v ≤ 2 then .ok else .outOfRange := by
  simp [State.pctrlCheck, h]

theorem State.pctrlCheck_not_used {i : Nat} (h : s.laneUsed i = false) : s.pctrlCheck i v = .functionRunning := by
  simp [State.pctrlCheck, h]

theorem isRx_of_range {i : Nat} (hlo : 8 ≤ i) (hhi : i ≤ 16) : isRx i = true := by simp [isRx, hlo, hhi]

/-- A margin scan of a receiving lane starts in L0, in LOCKED or PRBS, with none in progress (R288, R289). -/
theorem State.eyeCheck_of_rx {i : Nat} (h : isRx i = true) :
    s.eyeCheck i 1 = if s.o (Obj.LN_PSTATE i) = 0 ∧ (s.o (Obj.LN_ASTATE i) = 4 ∨ s.o (Obj.LN_ASTATE i) = 6) ∧
      (s.lane i).scanning = false then .ok else .functionRunning := by
  unfold State.eyeCheck
  rw [h]
  rfl

theorem State.eyeCheck_not_rx {i : Nat} (h : i < 8 ∨ 16 < i) : s.eyeCheck i 1 = .outOfRange := by
  have hrx : isRx i = false := by simp [isRx]; omega
  simp [State.eyeCheck, hrx]

end Sys2Proof.Machine
end

section
/-! SUPPORT. The statement on control writes of the front end, the hub, the builders and the lanes. -/
namespace Sys2Proof.Machine

/-- Settles O2: each command is a host write, so each clause is one value of the write's check. -/
theorem frontEndHubAndLaneWritesAreJudged : Obligations.FrontEndHubAndLaneWritesAreJudged := by
  unfold Obligations.FrontEndHubAndLaneWritesAreJudged
  refine ⟨fun q s hs => ?_, fun q s hs => ?_⟩
  · exact ⟨fun h => hostWrite_runs_waits hs (.inl rfl) rfl (State.prbCtrlCheck_arm_ok h),
      fun hlo hhi => hostWrite_runs_refused hs (.inl rfl) rfl (State.prbCtrlCheck_arm_running hlo hhi) (by decide),
      hostWrite_runs_waits hs (.inl rfl) rfl rfl,
      hostWrite_runs_waits hs (.inl rfl) rfl rfl,
      hostWrite_runs_waits hs (.inl rfl) rfl rfl,
      hostWrite_runs_waits hs (.inl rfl) rfl rfl,
      fun h => hostWrite_runs_waits hs (.inl rfl) rfl (if_pos h),
      fun h => hostWrite_runs_refused hs (.inl rfl) rfl (if_neg h) (by decide),
      fun h hr => hostWrite_runs_waits hs (.inl rfl) rfl (State.asmCtrlCheck_start_ok h hr),
      fun h => hostWrite_runs_refused hs (.inl rfl) rfl (State.asmCtrlCheck_start_running h) (by decide),
      fun h => hostWrite_runs_waits hs (.inl rfl) rfl (if_pos h),
      fun h => hostWrite_runs_refused hs (.inl rfl) rfl (if_neg h) (by decide)⟩
  · refine ⟨fun v hhub hmode => ?merge, fun v hhub hmode => ⟨fun hl => ?passOk, fun hl => ?passBad⟩, fun v hrole => ?noHub,
      fun hx => ⟨fun hl hp => ?switchOk, fun h => ?switchBad, fun h => ?rejoinOk, fun h => ?rejoinBad, fun h => ?dropOk,
        fun h0 h1 => ?dropBad⟩,
      fun hx => ⟨hostWrite_runs_expert hs hx rfl, hostWrite_runs_expert hs hx rfl, hostWrite_runs_expert hs hx rfl⟩,
      fun i v hu => ⟨fun hv => ?laneOk, fun hv => ?laneRange⟩, fun i v hu => ?laneUnused,
      fun i hlo hhi hp ha hscan => ?scanOk, fun i hlo hhi hp => ?scanNotL0, fun i hi => ?scanNotRx⟩
    case merge =>
      exact hostWrite_runs_waits hs (.inl rfl) rfl ((State.portEnCheck_of_hub hhub).trans (if_neg fun h => hmode h.1))
    case passOk =>
      exact hostWrite_runs_waits hs (.inl rfl) rfl ((State.portEnCheck_of_hub hhub).trans (if_neg (by simp [hl])))
    case passBad =>
      exact hostWrite_runs_refused hs (.inl rfl) rfl ((State.portEnCheck_of_hub hhub).trans (if_pos ⟨hmode, hl⟩)) (by decide)
    case noHub => exact hostWrite_runs_refused hs (.inl rfl) rfl (State.portEnCheck_not_hub hrole) (by decide)
    case switchOk => exact hostWrite_runs_waits hs (.inr hx) rfl (State.bldCtrlCheck_switch_ok hl hp)
    case switchBad => exact hostWrite_runs_refused hs (.inr hx) rfl (State.bldCtrlCheck_switch_running h) (by decide)
    case rejoinOk =>
      have h5 : s.anyUnit 5 = true := (State.anyUnit_iff 5).mpr (by tauto)
      have h1 : s.anyUnit 1 = true := (State.anyUnit_iff 1).mpr (by tauto)
      exact hostWrite_runs_waits hs (.inr hx) rfl (State.bldCtrlCheck_rejoin_ok h5 h1)
    case rejoinBad =>
      have hnone : s.anyUnit 5 = false ∨ s.anyUnit 1 = false :=
        h.imp (fun h => State.anyUnit_eq_false h.1 h.2) (fun h => State.anyUnit_eq_false h.1 h.2)
      exact hostWrite_runs_refused hs (.inr hx) rfl (State.bldCtrlCheck_rejoin_running hnone) (by decide)
    case dropOk => exact hostWrite_runs_waits hs (.inr hx) rfl (if_pos ((State.anyUnit_iff 2).mpr h))
    case dropBad =>
      exact hostWrite_runs_refused hs (.inr hx) rfl (if_neg (by simp [State.anyUnit_eq_false h0 h1])) (by decide)
    case laneOk => exact hostWrite_runs_waits hs (.inl rfl) rfl ((State.pctrlCheck_of_used hu).trans (if_pos hv))
    case laneRange =>
      exact hostWrite_runs_refused hs (.inl rfl) rfl ((State.pctrlCheck_of_used hu).trans (if_neg (by omega))) (by decide)
    case laneUnused => exact hostWrite_runs_refused hs (.inl rfl) rfl (State.pctrlCheck_not_used hu) (by decide)
    case scanOk =>
      exact hostWrite_runs_waits hs (.inl rfl) rfl
        ((State.eyeCheck_of_rx (isRx_of_range hlo hhi)).trans (if_pos ⟨hp, ha, hscan⟩))
    case scanNotL0 =>
      exact hostWrite_runs_refused hs (.inl rfl) rfl
        ((State.eyeCheck_of_rx (isRx_of_range hlo hhi)).trans (if_neg fun h => hp h.1)) (by decide)
    case scanNotRx => exact hostWrite_runs_refused hs (.inl rfl) rfl (State.eyeCheck_not_rx hi) (by decide)

end Sys2Proof.Machine
end

section
/-! SUPPORT. Frames: which objects a write, a count or a bit leaves as they were, and what a bit of an object reads as. -/
namespace Sys2Proof.Machine

variable {s t : State} {k j : Nat} {ks : List Nat}

/-! ### The objects outside a list -/

theorem State.keepsObjects_refl (s : State) (ks : List Nat) : s.keepsObjects s ks := fun _ _ => rfl

theorem State.keepsObjects_setO (h : t.keepsObjects s ks) (hk : k ∈ ks) (v : Nat) : (t.setO k v).keepsObjects s ks := by
  intro j hj
  have hne : j ≠ k := fun e => hj (e ▸ hk)
  rw [State.o_setO_ne _ _ hne]
  exact h j hj

theorem State.keepsObjects_bump (h : t.keepsObjects s ks) (hk : k ∈ ks) : (t.bump k).keepsObjects s ks :=
  State.keepsObjects_setO h hk _

theorem State.keepsObjects_setOb (h : t.keepsObjects s ks) (hk : k ∈ ks) (n : Nat) (b : Bool) :
    (t.setOb k n b).keepsObjects s ks :=
  State.keepsObjects_setO h hk _

theorem State.keepsObjects_trans {r : State} (h : r.keepsObjects t ks) (h' : t.keepsObjects s ks) : r.keepsObjects s ks :=
  fun j hj => (h j hj).trans (h' j hj)

theorem State.keepsObjects_mono {ks' : List Nat} (h : t.keepsObjects s ks) (hsub : ks ⊆ ks') : t.keepsObjects s ks' :=
  fun j hj => h j fun hmem => hj (hsub hmem)

/-- Nothing but objects differs from s. -/
def State.keepsButObjects (t s : State) : Prop := { t with obj := s.obj } = s

theorem State.keepsButObjects_refl (s : State) : s.keepsButObjects s := by unfold State.keepsButObjects; rfl

theorem State.keepsButObjects_trans {r : State} (h : r.keepsButObjects t) (h' : t.keepsButObjects s) : r.keepsButObjects s := by
  have hr := congrArg (fun v : State => { v with obj := s.obj }) h
  exact hr.trans h'

theorem State.keepsButObjects_setO (h : t.keepsButObjects s) (k v : Nat) : (t.setO k v).keepsButObjects s := h

theorem State.keepsButObjects_bump (h : t.keepsButObjects s) (k : Nat) : (t.bump k).keepsButObjects s := h

/-! ### Counters -/

theorem State.o_bump_self (s : State) (k : Nat) : (s.bump k).o k = satAdd 32 (s.o k) 1 := s.o_setO_self k _

theorem State.o_bump_ne (s : State) (h : j ≠ k) : (s.bump k).o j = s.o j := s.o_setO_ne _ h

/-! ### Bits of objects -/

@[simp] theorem State.ob_setOb_self (s : State) (k n : Nat) (b : Bool) : (s.setOb k n b).ob k n = b := by
  simp [State.ob, State.o_setOb]

theorem State.ob_setOb_ne (s : State) {n m : Nat} (b : Bool) (h : m ≠ n) : (s.setOb k n b).ob k m = s.ob k m := by
  simp [State.ob, State.o_setOb, bit_setBit_ne, h]

theorem State.o_setOb_ne (s : State) (n : Nat) (b : Bool) (h : j ≠ k) : (s.setOb k n b).o j = s.o j := s.o_setO_ne _ h

theorem State.ob_of_o {m : Nat} (h : t.o k = s.o k) : t.ob k m = s.ob k m := congrArg (bit · m) h

end Sys2Proof.Machine
end

section
/-! SUPPORT. The overload flags, and how a discriminator leaves reset and Unknown (R48, R53, R55, R59). -/
namespace Sys2Proof.Machine

/-! ### Overload (R48) -/

theorem State.overloadSet_flags (s : State) (c : Ch) :
    (s.overloadSet c).ob Obj.FE_OVL c = true ∧ (s.overloadSet c).ob Obj.FE_OVL_SEEN c = true := by
  have hne : Obj.FE_OVL ≠ Obj.FE_OVL_SEEN := by decide
  refine ⟨?_, State.ob_setOb_self _ _ _ _⟩
  exact (State.ob_of_o (State.o_setOb_ne _ _ _ hne)).trans (State.ob_setOb_self _ _ _ _)

/-- The overload of one channel leaves the bits of every other channel alone. -/
theorem State.overloadSet_others (s : State) {c d : Ch} (h : d ≠ c) :
    (s.overloadSet c).ob Obj.FE_OVL d = s.ob Obj.FE_OVL d ∧ (s.overloadSet c).ob Obj.FE_OVL_SEEN d = s.ob Obj.FE_OVL_SEEN d := by
  have hne : Obj.FE_OVL ≠ Obj.FE_OVL_SEEN := by decide
  have hbit := Fin.val_ne_of_ne h
  constructor
  · exact (State.ob_of_o (State.o_setOb_ne _ _ _ hne)).trans (State.ob_setOb_ne _ _ hbit)
  · exact (State.ob_setOb_ne _ _ hbit).trans (State.ob_of_o (State.o_setOb_ne _ _ _ hne.symm))

theorem State.overloadSet_keepsObjects (s : State) (c : Ch) :
    (s.overloadSet c).keepsObjects s [Obj.FE_OVL, Obj.FE_OVL_SEEN] :=
  State.keepsObjects_setOb (State.keepsObjects_setOb (State.keepsObjects_refl s _) (by simp) _ _) (by simp) _ _

theorem State.overloadClear_keepsObjects (s : State) (c : Ch) : (s.overloadClear c).keepsObjects s [Obj.FE_OVL] :=
  State.keepsObjects_setOb (State.keepsObjects_refl s _) (by simp) _ _

/-! ### Release and the exit from Unknown (R53, R55, R59) -/

variable {s : State} {c : Ch}

/-- Out of reach, the energy discriminator leaves its release in no state High (R53). -/
theorem State.energyBand_eq (s : State) (c : Ch) (b : Band) :
    s.energyBand c b = if s.o (Obj.FE_THR_E c) < 240 ∨ b ≠ .above then bandState b else .unknown := by
  unfold State.energyBand State.energyFires
  cases b with
  | below => simp [bandState]
  | inside => simp [bandState]
  | above => by_cases h : s.o (Obj.FE_THR_E c) < 240 <;> simp [bandState, h]

/-- The channel as its release leaves it. -/
theorem State.release_due {a b : Band} {r : Nat} (hr : (s.chan c).releaseAt = some r) (hdue : r ≤ s.tick) (hen : s.en c = true) :
    s.release c a b = s.setChan c { s.chan c with
      timing := if (s.chan c).hit = none then bandState a else .high
      energy := if s.o (Obj.FE_THR_E c) < 240 ∨ b ≠ .above then bandState b else .unknown
      releaseAt := none
      closing := false } := by
  have htiming : (if (s.chan c).hit.isSome then Disc.high else bandState a) =
      if (s.chan c).hit = none then bandState a else .high := by
    cases (s.chan c).hit <;> rfl
  simp only [State.release, hr, hdue, hen, and_self, if_true, State.energyBand_eq, htiming]

theorem State.release_early {a b : Band} {r : Nat} (hr : (s.chan c).releaseAt = some r) (hlt : s.tick < r) :
    s.release c a b = s := by
  simp [State.release, hr, Nat.not_le.mpr hlt]

theorem State.unknownExit_timing {up : Bool} (h : (s.chan c).timing = .unknown) :
    s.unknownExit c .timing up = s.setChan c { s.chan c with timing := if up then .high else .low } :=
  if_pos h

theorem State.unknownExit_energy {up : Bool} (h : (s.chan c).energy = .unknown)
    (hup : up = false ∨ s.o (Obj.FE_THR_E c) < 240) :
    s.unknownExit c .energy up = s.setChan c { s.chan c with energy := if up then .high else .low } :=
  if_pos ⟨h, hup.imp_right decide_eq_true⟩

/-- An energy threshold out of reach never gives High (R53). -/
theorem State.unknownExit_outOfReach (hthr : 240 ≤ s.o (Obj.FE_THR_E c)) : s.unknownExit c .energy true = s := by
  simp [State.unknownExit, State.energyFires, Nat.not_lt.mpr hthr]

theorem State.unknownExit_known {w : Which} {up : Bool} (ht : (s.chan c).timing ≠ .unknown)
    (he : (s.chan c).energy ≠ .unknown) : s.unknownExit c w up = s := by
  cases w <;> simp [State.unknownExit, ht, he]

/-- A command that replaces one channel has done nothing else. -/
theorem runs_setChan {i : Instr} {x : Chan} (h : exec i s = .next (s.setChan c x)) :
    Runs i s (fun t => t.chan c = x ∧ (∀ d, d ≠ c → t.chan d = s.chan d) ∧ { t with chans := s.chans } = s) :=
  ⟨_, h, State.chan_setChan_self s c x, fun _ hd => State.chan_setChan_ne s x hd, rfl⟩

/-- What a command of the running clocks does. -/
theorem exec_of_awake {i : Instr} {t r : State} (ha : s.awake = true) (hexec : exec i s = .next (s.ifAwake t)) (ht : t = r) :
    exec i s = .next r :=
  hexec.trans (congrArg _ ((State.ifAwake_of ha).trans ht))

end Sys2Proof.Machine
end

section
/-! SUPPORT. The statement on overload flags and on discriminators that settle without an edge. -/
namespace Sys2Proof.Machine

/-- Settles O1: the overload writes bits of two objects, and each discriminator clause is one channel replaced. -/
theorem overloadFlagsAndDiscriminatorsFollowTheirNodes : Obligations.OverloadFlagsAndDiscriminatorsFollowTheirNodes := by
  unfold Obligations.OverloadFlagsAndDiscriminatorsFollowTheirNodes
  refine ⟨fun c s ha => ⟨?overload, ?overloadEnd⟩, fun c s ha => ⟨fun a b r hr => ⟨fun hdue hen => ?release, fun hlt => ?early⟩,
    fun up h => ?timing, fun up h hup => ?energy, fun _ hthr => ?outOfReach, fun w up ht he => ?known⟩⟩
  case overload =>
    obtain ⟨hovl, hseen⟩ := s.overloadSet_flags c
    exact ⟨_, exec_of_awake ha rfl rfl, hovl, hseen, fun _ hd => s.overloadSet_others hd, s.overloadSet_keepsObjects c, rfl⟩
  case overloadEnd =>
    exact ⟨_, exec_of_awake ha rfl rfl, State.ob_setOb_self _ _ _ _,
      fun _ hd => State.ob_setOb_ne _ _ (Fin.val_ne_of_ne hd), s.overloadClear_keepsObjects c, rfl⟩
  case release => exact runs_setChan (exec_of_awake ha rfl (State.release_due hr hdue hen))
  case early => exact exec_of_awake ha rfl (State.release_early hr hlt)
  case timing => exact runs_setChan (exec_of_awake ha rfl (State.unknownExit_timing h))
  case energy => exact runs_setChan (exec_of_awake ha rfl (State.unknownExit_energy h hup))
  case outOfReach => exact exec_of_awake ha rfl (State.unknownExit_outOfReach hthr)
  case known => exact exec_of_awake ha rfl (State.unknownExit_known ht he)

end Sys2Proof.Machine
end

section
/-! SUPPORT. The probe digitiser: what each of its events makes of the capture in progress (R74 to R79). -/
namespace Sys2Proof.Machine

variable {s : State} {k : Nat} {l : List Nat}

theorem length_bytesLE (n v : Nat) : (bytesLE n v).length = n := by
  induction n generalizing v with
  | zero => rfl
  | succ n ih => simp [bytesLE, ih]

/-- A clipped value is the smaller one. -/
theorem clip_eq_min (m v : Nat) : clip m v = min m v := by
  unfold clip
  split <;> omega

/-- The words of a capture take two bytes each (R77). -/
theorem length_prbWords_bytes (pre : Nat) (l : List Nat) :
    ((prbWords pre l).flatMap (bytesLE 2)).length = 2 * l.length := by
  simp [List.length_flatMap, length_bytesLE, prbWords, Nat.mul_comm]

/-! ### The comparator and the position of a trigger (R74, R76) -/

theorem prbStep_rises {level hyst v : Nat} (h : level ≤ v) : prbStep false level hyst .low v = (.high, true) := by
  simp [prbStep, prbRegion, h]

theorem prbStep_falls {level hyst v : Nat} (h : v ≤ level) : prbStep true level hyst .high v = (.low, true) := by
  have habove : ¬ level + hyst < v := by omega
  simp [prbStep, prbRegion, h, habove]

/-- Below the level a rising-slope comparator makes no edge. -/
theorem prbStep_noEdge {level hyst v : Nat} (c : Disc) (h : v < level) : (prbStep false level hyst c v).2 = false := by
  have hlevel : ¬ level ≤ v := by omega
  by_cases hband : v + hyst < level <;> simp [prbStep, prbRegion, hlevel, hband]

theorem prbSeek_single {slope : Bool} {level hyst last v : Nat} {c : Disc} (h : (prbStep slope level hyst c v).2 = true) :
    prbSeek slope level hyst c last [v] = some (last, v, 0) :=
  if_pos h

theorem prbSeek_below {level hyst last : Nat} {c : Disc} (h : ∀ v ∈ l, v < level) :
    prbSeek false level hyst c last l = none := by
  induction l generalizing c last with
  | nil => rfl
  | cons v r ih =>
    obtain ⟨hv, hr⟩ := List.forall_mem_cons.mp h
    simp [prbSeek, prbStep_noEdge c hv, ih hr]

/-- The fraction on a rising edge, in 1/64 sample (R76). -/
theorem prbFrac_rises {level prev cur : Nat} (hp : prev < level) (hc : level ≤ cur) :
    prbFrac level prev cur = min 63 (64 * (level - prev) / (cur - prev)) := by
  have hnum : ((level : Int) - prev).natAbs = level - prev := by omega
  have hden : ((cur : Int) - prev).natAbs = cur - prev := by omega
  rw [prbFrac, hnum, hden, clip_eq_min]

theorem prbFrac_falls {level prev cur : Nat} (hp : level < prev) (hc : cur ≤ level) :
    prbFrac level prev cur = min 63 (64 * (prev - level) / (prev - cur)) := by
  have hnum : ((level : Int) - prev).natAbs = prev - level := by omega
  have hden : ((cur : Int) - prev).natAbs = prev - cur := by omega
  rw [prbFrac, hnum, hden, clip_eq_min]

/-- The sample before sample k is of the same crossing, unless k is 0 (R71; log entry 131). -/
theorem State.sampleBack_one_crossing (s : State) (hk : k < 32) :
    (s.sampleBack k 1).1 = if k = 0 then (s.xc + 2 ^ 48 - 1) % 2 ^ 48 else s.xc % 2 ^ 48 := by
  have hback : (1 + 31 - k) / 32 = if k = 0 then 1 else 0 := by split <;> omega
  rw [State.sampleBack, hback]
  split
  · rfl
  · rw [Nat.sub_zero, Nat.add_mod_right]

theorem State.sampleBack_one_number (s : State) (hk : k < 32) : (s.sampleBack k 1).2 = if k = 0 then 31 else k - 1 := by
  simp only [State.sampleBack]
  split <;> omega

/-! ### The events of a capture -/

@[simp] theorem State.o_prbTrack (s : State) (l : List Nat) (j : Nat) : (s.prbTrack l).o j = s.o j := rfl

theorem State.prbFillDone_level (h : s.o Obj.PRB_STATE = 1) (hl : l.length = s.o Obj.PRB_PRE) (hm : s.o Obj.PRB_MODE = 0) :
    s.prbFillDone k l = (s.prbTrack l).setO Obj.PRB_STATE 2 := by
  simp [State.prbFillDone, h, hl, hm]

theorem State.prbFillDone_tpulse (h : s.o Obj.PRB_STATE = 1) (hl : l.length = s.o Obj.PRB_PRE) (hm : s.o Obj.PRB_MODE = 1) :
    s.prbFillDone k l = (s.prbTrack l).prbFilled k := by
  simp [State.prbFillDone, h, hl, hm]

theorem State.prbFilled_noFire (h : s.probe.fire = none) : (s.prbTrack l).prbFilled k = (s.prbTrack l).setO Obj.PRB_STATE 2 := by
  have hfire : (s.prbTrack l).probe.fire = none := h
  simp [State.prbFilled, hfire]

/-- A fire of this crossing whose instant lies after the last sample triggers (R75, R76). -/
theorem State.prbFilled_fire {x p : Nat} (h : s.probe.fire = some (s.tick, x, p)) (hp : 128 * k < p) :
    (s.prbTrack l).prbFilled k = (s.prbTrack l).prbTriggerAt x (p / 2) := by
  have hfire : (s.prbTrack l).probe.fire = some (s.tick, x, p) := h
  have hnow : s.tick = (s.prbTrack l).tick ∧ 128 * k < p := ⟨rfl, hp⟩
  simp only [State.prbFilled, hfire, if_pos hnow]

theorem State.prbFillDone_forced (h : s.o Obj.PRB_STATE = 1) (hl : l.length = s.o Obj.PRB_PRE) (hm : s.o Obj.PRB_MODE = 2) :
    s.prbFillDone k l = (s.prbTrack l).prbTriggerAt (s.sampleBack k 1).1 ((s.sampleBack k 1).2 * 64) := by
  have hback : (s.prbTrack l).sampleBack k 1 = s.sampleBack k 1 := rfl
  simp [State.prbFillDone, h, hl, hm, hback]

theorem State.prbFillDone_idle (h : s.o Obj.PRB_STATE ≠ 1) : s.prbFillDone k l = s := if_neg fun hs => h hs.1

/-- An edge at the newest sample triggers a waiting capture (R74, R76). -/
theorem State.prbTrigger_edge {v : Nat} (h : s.o Obj.PRB_STATE = 2) (hm : s.o Obj.PRB_MODE = 0)
    (hedge : (prbStep (s.flag Obj.PRB_SLOPE) (s.o Obj.PRB_LEVEL) (s.o Obj.PRB_HYST) s.probe.comp v).2 = true) :
    s.prbTrigger k [v] = (s.prbTrack [v]).prbTriggerAt (s.sampleBack k 1).1
      ((s.sampleBack k 1).2 * 64 + prbFrac (s.o Obj.PRB_LEVEL) s.probe.last v) := by
  simp [State.prbTrigger, h, hm, prbSeek_single hedge]

theorem State.prbTrigger_below (h : s.o Obj.PRB_STATE = 2) (hm : s.o Obj.PRB_MODE = 0) (hs : s.o Obj.PRB_SLOPE = 0)
    (hl : ∀ v ∈ l, v < s.o Obj.PRB_LEVEL) : s.prbTrigger k l = s.prbTrack l := by
  simp [State.prbTrigger, h, hm, State.flag, hs, prbSeek_below hl]

theorem State.prbTrigger_idle (h : s.o Obj.PRB_STATE ≠ 2 ∨ s.o Obj.PRB_MODE ≠ 0) : s.prbTrigger k l = s :=
  if_neg (by tauto)

theorem State.prbPostDone_copies (h : s.o Obj.PRB_STATE = 3) (hl : l.length = 8192) :
    s.prbPostDone l = { s.setO Obj.PRB_STATE 4 with probe := { s.probe with samples := l } } := by
  rw [State.prbPostDone, if_pos h, List.take_of_length_le hl.le]

theorem State.prbPostDone_idle (h : s.o Obj.PRB_STATE ≠ 3) : s.prbPostDone l = s := if_neg h

/-- The words of the capture that the samples make up (R77). -/
def State.prbBytes (s : State) : List Byte := (prbWords (s.o Obj.PRB_PRE) s.probe.samples).flatMap (bytesLE 2)

theorem State.prbCopyDone_ready (h : s.o Obj.PRB_STATE = 4) :
    s.prbCopyDone = { (s.setO Obj.PRB_STATE 5).bump Obj.PRB_CAPTURES with spm := memWrite s.spm 0x5A8000 s.prbBytes } :=
  if_pos h

theorem State.prbCopyDone_idle (h : s.o Obj.PRB_STATE ≠ 4) : s.prbCopyDone = s := if_neg h

/-- A trigger records its crossing and its position, and POST begins (R76, R79). -/
theorem State.prbTriggerAt_records (s : State) (x pos : Nat) : (s.prbTriggerAt x pos).o Obj.PRB_STATE = 3 ∧
    (s.prbTriggerAt x pos).o Obj.PRB_TCROSS = x ∧ (s.prbTriggerAt x pos).o Obj.PRB_TPOS = pos := by
  refine ⟨State.o_setO_self _ _ _, ?_, ?_⟩
  · simp (disch := decide) only [State.prbTriggerAt, State.o_setO_ne, State.o_setO_self]
  · simp (disch := decide) only [State.prbTriggerAt, State.o_setO_ne, State.o_setO_self]

theorem State.prbTriggerAt_keepsObjects (s : State) (x pos : Nat) :
    (s.prbTriggerAt x pos).keepsObjects s [Obj.PRB_STATE, Obj.PRB_TCROSS, Obj.PRB_TPOS] :=
  State.keepsObjects_setO (State.keepsObjects_setO (State.keepsObjects_setO (State.keepsObjects_refl s _) (by simp) _)
    (by simp) _) (by simp) _

/-! ### What the commands come to -/

variable {i : Instr}

theorem runs_prbArmed (h : exec i s = .next ((s.prbTrack l).setO Obj.PRB_STATE 2)) :
    Runs i s (fun t => t.o Obj.PRB_STATE = 2 ∧ t.keepsObjects s [Obj.PRB_STATE] ∧
      { t with obj := s.obj, probe := s.probe } = s) :=
  ⟨_, h, State.o_setO_self _ _ _, State.keepsObjects_setO (fun _ _ => rfl) (by simp) _, rfl⟩

theorem runs_prbTriggered {x x' pos pos' : Nat} (h : exec i s = .next ((s.prbTrack l).prbTriggerAt x' pos')) (hx : x' = x)
    (hpos : pos' = pos) :
    Runs i s (fun t => t.o Obj.PRB_STATE = 3 ∧ t.o Obj.PRB_TCROSS = x ∧ t.o Obj.PRB_TPOS = pos ∧
      t.keepsObjects s [Obj.PRB_STATE, Obj.PRB_TCROSS, Obj.PRB_TPOS] ∧ { t with obj := s.obj, probe := s.probe } = s) := by
  subst hx hpos
  obtain ⟨hstate, hcross, hpos⟩ := (s.prbTrack l).prbTriggerAt_records x' pos'
  exact ⟨_, h, hstate, hcross, hpos, (s.prbTrack l).prbTriggerAt_keepsObjects x' pos', rfl⟩

end Sys2Proof.Machine
end

section
/-! SUPPORT. The statement on the order of a probe capture. -/
namespace Sys2Proof.Machine

/-- Settles O4: each event of the capture is one of the equations above, and the edge of the comparator fixes the position. -/
theorem theProbeCapturesInOrder : Obligations.TheProbeCapturesInOrder := by
  unfold Obligations.TheProbeCapturesInOrder
  intro s ha
  refine ⟨fun k l hs hl => ?fill, fun k l hs => ?fillIdle, fun k b hs hm hk => ⟨?rising, ?falling⟩,
    fun k l hs hm hslope hb => ?below, fun k l h => ?triggerIdle, fun l hs hl => ?post, fun l hs => ?postIdle,
    fun hd => ?copyWaits, fun hs hd => ?copy, fun hs => ?copyIdle⟩
  case fill =>
    have hlen : (l.map Fin.val).length = s.o Obj.PRB_PRE := by simpa using hl
    refine ⟨fun hm => ?_, fun hm hf => ?_, fun p hm hf hp => ?_, fun hm => ?_⟩
    · exact runs_prbArmed (exec_of_awake ha rfl (State.prbFillDone_level hs hlen hm))
    · exact runs_prbArmed (exec_of_awake ha rfl ((State.prbFillDone_tpulse hs hlen hm).trans (State.prbFilled_noFire hf)))
    · exact runs_prbTriggered
        (exec_of_awake ha rfl ((State.prbFillDone_tpulse hs hlen hm).trans (State.prbFilled_fire hf hp))) rfl rfl
    · exact runs_prbTriggered (exec_of_awake ha rfl (State.prbFillDone_forced hs hlen hm))
        (s.sampleBack_one_crossing k.isLt) (by rw [s.sampleBack_one_number k.isLt])
  case fillIdle => exact exec_of_awake ha rfl (State.prbFillDone_idle hs)
  case rising =>
    intro hslope hc hlast hb
    have hedge := congrArg Prod.snd (prbStep_rises (hyst := s.o Obj.PRB_HYST) hb)
    have hslope : s.flag Obj.PRB_SLOPE = false := by simp [State.flag, hslope]
    refine runs_prbTriggered (exec_of_awake ha rfl (State.prbTrigger_edge hs hm (by rw [hslope, hc]; exact hedge))) ?_ ?_
    · rw [s.sampleBack_one_crossing k.isLt, if_neg hk.ne']
    · rw [s.sampleBack_one_number k.isLt, if_neg hk.ne', prbFrac_rises hlast hb]
  case falling =>
    intro hslope hc hlast hb
    have hedge := congrArg Prod.snd (prbStep_falls (hyst := s.o Obj.PRB_HYST) hb)
    have hslope : s.flag Obj.PRB_SLOPE = true := by simp [State.flag, hslope]
    refine runs_prbTriggered (exec_of_awake ha rfl (State.prbTrigger_edge hs hm (by rw [hslope, hc]; exact hedge))) ?_ ?_
    · rw [s.sampleBack_one_crossing k.isLt, if_neg hk.ne']
    · rw [s.sampleBack_one_number k.isLt, if_neg hk.ne', prbFrac_falls hlast hb]
  case below =>
    have hbelow : ∀ v ∈ l.map Fin.val, v < s.o Obj.PRB_LEVEL := by simpa using hb
    exact ⟨_, exec_of_awake ha rfl (State.prbTrigger_below hs hm hslope hbelow), fun _ _ => rfl, rfl⟩
  case triggerIdle => exact exec_of_awake ha rfl (State.prbTrigger_idle h)
  case post => exact exec_of_awake ha rfl (State.prbPostDone_copies hs (by simpa using hl))
  case postIdle => exact exec_of_awake ha rfl (State.prbPostDone_idle hs)
  case copyWaits =>
    have hwait : s.ifTask s.prbCopyDone = s := by simp [State.ifTask, hd]
    exact congrArg Host.Outcome.next hwait
  case copy =>
    have hcopy := (State.ifTask_of ha hd).trans (State.prbCopyDone_ready hs)
    have hlen : s.prbBytes.length = 2 * s.probe.samples.length := length_prbWords_bytes _ _
    refine ⟨_, congrArg Host.Outcome.next hcopy, ?_, ?_, fun a h => ?_, ?_, ?_, rfl⟩
    · exact (State.o_bump_ne _ (by decide)).trans (State.o_setO_self _ _ _)
    · exact (State.o_bump_self _ _).trans (by rw [State.o_setO_ne _ _ (by decide)])
    · exact memGet_memWrite_outside _ _ _ _ (by rwa [hlen])
    · rw [← hlen]
      exact memRead_memWrite _ _ _
    · exact State.keepsObjects_bump (State.keepsObjects_setO (State.keepsObjects_refl s _) (by simp) _) (by simp)
  case copyIdle =>
    have hidle : s.ifTask s.prbCopyDone = s := by simp [State.ifTask, State.prbCopyDone_idle hs]
    exact congrArg Host.Outcome.next hidle

end Sys2Proof.Machine
end

section
/-! SUPPORT. The position of a start in the delay line (R88, R89). -/
namespace Sys2Proof.Machine

theorem majority_lt {w : Nat} (h : w < 2 ^ 160) : majority w < 2 ^ 160 := by
  have hbelow : (w <<< 1 ||| w &&& 1) % 2 ^ 160 < 2 ^ 160 := Nat.mod_lt _ (by decide)
  exact Nat.or_lt_two_pow (Nat.or_lt_two_pow (Nat.and_lt_two_pow _ hbelow) (lt_of_le_of_lt Nat.and_le_left h))
    (lt_of_le_of_lt Nat.and_le_left hbelow)

theorem log2_le_of_lt {m n : Nat} (h : m < 2 ^ (n + 1)) : m.log2 ≤ n := by
  rcases Nat.eq_zero_or_pos m with rfl | hm
  · exact Nat.zero_le n
  · exact Nat.lt_succ_iff.mp ((Nat.log2_lt hm.ne').mpr h)

/-- The line has 160 taps, so that no run ends above position 160. -/
theorem lowRunEnd_le {m : Nat} (h : m < 2 ^ 160) : lowRunEnd m ≤ 160 := by
  have hlow : lowestOne m ≤ 160 := by
    refine log2_le_of_lt (lt_of_lt_of_le (Nat.xor_lt_two_pow h (lt_of_le_of_lt (Nat.sub_le m 1) h)) ?_)
    exact Nat.pow_le_pow_right (by decide) (by decide)
  have hpow : 2 ^ lowestOne m ≤ 2 ^ 160 := Nat.pow_le_pow_right (by decide) hlow
  have hsum : m + 2 ^ lowestOne m < 2 ^ (160 + 1) := by omega
  exact log2_le_of_lt (Nat.xor_lt_two_pow hsum (by omega))

theorem startTap_le (w : BitVec 160) : startTap w.toNat ≤ 160 := by
  unfold startTap
  split
  · exact Nat.zero_le _
  · exact lowRunEnd_le (majority_lt w.isLt)

/-- The fine bin of a start: an overrun, position 160, has bin 0 (R89, R90). -/
theorem fineOf_startTap (lut : List Nat) (w : BitVec 160) :
    fineOf lut (startTap w.toNat) = if startTap w.toNat = 160 then 0 else lut.getD (startTap w.toNat) 0 := by
  have hle := startTap_le w
  have hover : startTap w.toNat ≥ 160 ↔ startTap w.toNat = 160 := by omega
  simp only [fineOf, hover]

end Sys2Proof.Machine
end

section
/-! SUPPORT. A timing rise from Low: what it counts, and the hit that it starts (R54, R62, R92, R95, R112). -/
namespace Sys2Proof.Machine

variable {s : State} {c : Ch} {k tap : Nat}

/-! ### The fast-OR and the rate meter -/

theorem State.setChan_self (s : State) (c : Ch) : s.setChan c (s.chan c) = s := by
  simp [State.setChan, State.chan, Vector.get_eq_getElem]

theorem State.setChan_setChan (s : State) (c : Ch) (x y : Chan) : (s.setChan c x).setChan c y = s.setChan c y := by
  simp [State.setChan]

theorem State.fastorTiming_of_counts (h : s.counts c = true) :
    s.fastorTiming c = { s with fastOr := { s.fastOr with hits := s.fastOr.hits + b2n (s.fastorOn c) } } := by
  cases hf : s.fastorOn c <;> simp [State.fastorTiming, h, hf, b2n]

theorem State.fastorEnergy_if (s : State) (c : Ch) (p : Prop) [Decidable p] :
    ∃ e, (if p then s.fastorEnergy c else s) = { s with fastOr := { s.fastOr with energy := e } } := by
  unfold State.fastorEnergy
  split
  · split
    · exact ⟨_, rfl⟩
    · exact ⟨s.fastOr.energy, rfl⟩
  · exact ⟨s.fastOr.energy, rfl⟩

/-- A channel whose timing discriminator has gone High at a TDC clock period and tap. -/
def Chan.rise (x : Chan) (at_ : Nat × Nat) : Chan := { x with timing := .high, lastStart := some at_ }

/-- A channel with the remainder and the counter of its rate meter replaced. -/
def Chan.metered (x : Chan) (r n : Nat) : Chan := { x with rmRem := r, rmCnt := n }

/-- The rate meter touches its own remainder and counter alone (R112, R113). -/
theorem State.meterEdge_eq {x : Chan} (hx : s.chan c = x) (src : Nat) :
    ∃ r n, s.meterEdge c src = s.setChan c (x.metered r n) := by
  subst hx
  unfold State.meterEdge Chan.meter
  split
  · split
    · exact ⟨_, _, rfl⟩
    · exact ⟨_, (s.chan c).rmCnt, rfl⟩
  · exact ⟨(s.chan c).rmRem, (s.chan c).rmCnt, (s.setChan_self c).symm⟩

/-- A recognised rise counts in the fast-OR, with an energy edge that stands, and in the rate meter. -/
def State.countRise (s : State) (c : Ch) (k tap : Nat) : State :=
  let u := (s.setChan c ((s.chan c).rise (32 * s.tick + k, tap))).fastorTiming c
  (if (s.chan c).energy = .high then u.fastorEnergy c else u).meterEdge c 0

/-- The state of a counted rise: the fast-OR's energy count e, the meter's remainder r and counter n. -/
def State.risen (s : State) (c : Ch) (k tap e r n : Nat) : State :=
  State.setChan { s with fastOr := { s.fastOr with hits := s.fastOr.hits + b2n (s.fastorOn c), energy := e } } c
    (((s.chan c).rise (32 * s.tick + k, tap)).metered r n)

/-- Edges count on an enabled and released channel, whatever its discriminator does (R59, R60, R112). -/
theorem State.counts_rise (hen : s.en c = true) (hrel : (s.chan c).releaseAt = none) (a : Nat × Nat) :
    (s.setChan c ((s.chan c).rise a)).counts c = true := by
  have hen' : (s.setChan c ((s.chan c).rise a)).en c = true := hen
  rw [State.counts, hen', State.chan_setChan_self]
  simp [Chan.rise, hrel]

theorem State.countRise_eq (hen : s.en c = true) (hrel : (s.chan c).releaseAt = none) (k tap : Nat) :
    ∃ e r n, s.countRise c k tap = s.risen c k tap e r n := by
  have hcounts := State.counts_rise hen hrel (32 * s.tick + k, tap)
  unfold State.countRise
  rw [State.fastorTiming_of_counts hcounts]
  dsimp only
  obtain ⟨e, he⟩ := State.fastorEnergy_if _ c ((s.chan c).energy = .high)
  rw [he]
  obtain ⟨r, n, hm⟩ := State.meterEdge_eq (State.chan_setChan_self { s with fastOr := { s.fastOr with
    hits := s.fastOr.hits + b2n (s.fastorOn c), energy := e } } c ((s.chan c).rise (32 * s.tick + k, tap))) 0
  exact ⟨e, r, n, hm.trans (State.setChan_setChan _ c _ _)⟩

@[simp] theorem State.chan_risen_self (s : State) (c : Ch) (k tap e r n : Nat) :
    (s.risen c k tap e r n).chan c = ((s.chan c).rise (32 * s.tick + k, tap)).metered r n :=
  State.chan_setChan_self _ c _

theorem State.chan_risen_ne {d : Ch} (h : d ≠ c) (k tap e r n : Nat) : (s.risen c k tap e r n).chan d = s.chan d :=
  State.chan_setChan_ne _ _ h

/-! ### The hit -/

/-- A hit as its start records it: in bins of the crossing, with the settings in force (R37, R92, R107). -/
def State.hitAt (s : State) (c : Ch) (k toa : Nat) (tpulse : Bool) (calTap : Option Nat) : Hit :=
  { tick := s.tick, k := k, toa := toa, te := if (s.chan c).energy = .high then some (k * 128) else none, tpulse := tpulse,
    data := s.dataOn c, minw := s.o (Obj.TDC_MINW c), lut := (s.chan c).lut, walk := (s.chan c).walk, calTap := calTap,
    saturated := false }

theorem State.lutBad_nil (h : s.lutFix = []) (walk : Bool) (p : Nat) : s.lutBad c walk p = false := by
  simp [State.lutBad, h]

theorem State.lutTap_nil (h : s.lutFix = []) (walk : Bool) (p : Nat) : s.lutTap c walk p = p := by
  simp [State.lutTap, State.lutBad_nil h]

theorem State.lutRead_nil (h : s.lutFix = []) (walk : Bool) (p : Nat) : s.lutRead c walk p = s := by
  simp [State.lutRead, State.lutBad_nil h]

/-- What an overrun leaves beside its hit: it is counted and flagged (R89, R90). -/
def State.noteOverrun (s : State) (c : Ch) (tap : Nat) : State :=
  if tap ≥ 160 then (s.bump Obj.TDC_OVERRUN).setOb (Obj.CH_STATUS c) 6 true else s

theorem State.chan_noteOverrun (s : State) (c d : Ch) (tap : Nat) : (s.noteOverrun c tap).chan d = s.chan d := by
  unfold State.noteOverrun
  split <;> rfl

theorem State.fastOr_noteOverrun (s : State) (c : Ch) (tap : Nat) : (s.noteOverrun c tap).fastOr = s.fastOr := by
  unfold State.noteOverrun
  split <;> rfl

theorem State.noteOverrun_frame (s : State) (c : Ch) (tap : Nat) : { s.noteOverrun c tap with obj := s.obj } = s := by
  unfold State.noteOverrun
  split <;> rfl

theorem State.noteOverrun_keepsObjects (s : State) (c : Ch) (tap : Nat) :
    (s.noteOverrun c tap).keepsObjects s [Obj.TDC_OVERRUN, Obj.CH_STATUS c] := by
  unfold State.noteOverrun
  split
  · exact State.keepsObjects_setOb (State.keepsObjects_bump (State.keepsObjects_refl s _) (by simp)) (by simp) _ _
  · exact State.keepsObjects_refl s _

theorem State.noteOverrun_counts (s : State) (c : Ch) (tap : Nat) : (s.noteOverrun c tap).o Obj.TDC_OVERRUN =
    if tap ≥ 160 then satAdd 32 (s.o Obj.TDC_OVERRUN) 1 else s.o Obj.TDC_OVERRUN := by
  have hne : Obj.TDC_OVERRUN ≠ Obj.CH_STATUS c := by simp only [Obj.TDC_OVERRUN, Obj.CH_STATUS, objKey]; omega
  unfold State.noteOverrun
  split
  · rw [State.o_setOb_ne _ _ _ hne, State.o_bump_self]
  · rfl

theorem State.noteOverrun_flags (s : State) (c : Ch) (h : tap ≥ 160) : (s.noteOverrun c tap).ob (Obj.CH_STATUS c) 6 = true := by
  rw [State.noteOverrun, if_pos h, State.ob_setOb_self]

/-- Without a struck LUT entry a start is a hit in progress, an overrun noted, and maybe a count of the calibration. -/
theorem State.startHit_eq (h : s.lutFix = []) : ∃ tpulse calTap calUnit, s.startHit c k tap =
    { (s.setChan c { s.chan c with
        hit := some (s.hitAt c k (k * 128 + fineOf (s.chan c).lut tap) tpulse calTap) }).noteOverrun c tap with
      calUnit := calUnit } := by
  have hfix (x : Chan) : (s.setChan c x).lutFix = [] := h
  unfold State.startHit
  rw [State.lutTap_nil h]
  simp only [State.lutRead_nil (hfix _)]
  apply Exists.intro
  apply Exists.intro
  split
  · exact ⟨_, rfl⟩
  · exact ⟨_, rfl⟩

/-! ### The rise -/

/-- The settings that a hit takes are those of its start, whatever the rise has counted. -/
theorem State.hitAt_risen (s : State) (c : Ch) (k tap e r n toa : Nat) (tpulse : Bool) (calTap : Option Nat) :
    (s.risen c k tap e r n).hitAt c k toa tpulse calTap = s.hitAt c k toa tpulse calTap := by
  have hdata : (s.risen c k tap e r n).dataOn c = s.dataOn c := rfl
  have hminw : (s.risen c k tap e r n).o (Obj.TDC_MINW c) = s.o (Obj.TDC_MINW c) := rfl
  have htick : (s.risen c k tap e r n).tick = s.tick := rfl
  simp [State.hitAt, hdata, hminw, htick, Chan.rise, Chan.metered]

theorem State.timingRise_unknown {word : Nat} {rearmed : Bool} (h : (s.chan c).timing = .unknown) :
    s.timingRise c k word rearmed = s.setChan c { s.chan c with timing := .high } := by
  simp [State.timingRise, h]

/-- In RUN, the TDC converts the edges of an enabled and released channel (R59, R61, R100). -/
theorem State.converts_rise (hrun : s.o Obj.TDC_STATE = 2) (hen : s.en c = true) (hrel : (s.chan c).releaseAt = none)
    (a : Nat × Nat) : ((s.setChan c ((s.chan c).rise a)).tdcRuns && (s.setChan c ((s.chan c).rise a)).counts c) = true := by
  have hruns : (s.setChan c ((s.chan c).rise a)).tdcRuns = true := beq_iff_eq.mpr hrun
  rw [hruns, State.counts_rise hen hrel]
  rfl

/-- A rise from Low that is converted is counted; then it is an orphan, starts a hit, or finds the channel not re-armed. -/
theorem State.timingRise_low {word : Nat} {rearmed : Bool} (hlow : (s.chan c).timing = .low) (hrun : s.o Obj.TDC_STATE = 2)
    (hen : s.en c = true) (hrel : (s.chan c).releaseAt = none) :
    s.timingRise c k word rearmed = match (s.chan c).hit with
      | some _ => (s.countRise c k (startTap word)).bump (Obj.CH_ORPHAN c)
      | none => if rearmed then (s.countRise c k (startTap word)).startHit c k (startTap word)
          else s.countRise c k (startTap word) := by
  unfold State.timingRise
  simp only [hlow]
  exact if_pos (State.converts_rise hrun hen hrel (32 * s.tick + k, startTap word))

/-- A rise that is counted starts a hit on an idle channel that has re-armed (R92). -/
theorem State.timingRise_idle {word : Nat} (hlow : (s.chan c).timing = .low) (hrun : s.o Obj.TDC_STATE = 2)
    (hen : s.en c = true) (hrel : (s.chan c).releaseAt = none) (hhit : (s.chan c).hit = none) :
    s.timingRise c k word true = (s.countRise c k (startTap word)).startHit c k (startTap word) := by
  rw [State.timingRise_low hlow hrun hen hrel, hhit]
  rfl

/-- A rise on a channel with a hit in progress is an orphan (R95). -/
theorem State.timingRise_busy {word : Nat} {rearmed : Bool} {h : Hit} (hlow : (s.chan c).timing = .low)
    (hrun : s.o Obj.TDC_STATE = 2) (hen : s.en c = true) (hrel : (s.chan c).releaseAt = none) (hhit : (s.chan c).hit = some h) :
    s.timingRise c k word rearmed = (s.countRise c k (startTap word)).bump (Obj.CH_ORPHAN c) := by
  rw [State.timingRise_low hlow hrun hen hrel, hhit]

/-- A channel with a hit in progress. -/
def Chan.hitting (x : Chan) (h : Hit) : Chan := { x with hit := some h }

/-- The state after a rise that starts a hit: the rise is counted, the hit stands, and an overrun is noted. -/
def State.started (s : State) (c : Ch) (k tap e r n : Nat) (h : Hit) : State :=
  ((s.risen c k tap e r n).setChan c ((((s.chan c).rise (32 * s.tick + k, tap)).metered r n).hitting h)).noteOverrun c tap

theorem State.chan_started_self (s : State) (c : Ch) (k tap e r n : Nat) (h : Hit) : (s.started c k tap e r n h).chan c =
    (((s.chan c).rise (32 * s.tick + k, tap)).metered r n).hitting h :=
  (State.chan_noteOverrun _ c c tap).trans (State.chan_setChan_self _ c _)

theorem State.chan_started_ne {d : Ch} (hd : d ≠ c) (k tap e r n : Nat) (h : Hit) :
    (s.started c k tap e r n h).chan d = s.chan d :=
  ((State.chan_noteOverrun _ c d tap).trans (State.chan_setChan_ne _ _ hd)).trans (State.chan_risen_ne hd ..)

/-- A timing rise touches its channel, the fast-OR and the calibration, and the objects of an overrun. -/
theorem State.started_frame (s : State) (c : Ch) (k tap e r n : Nat) (h : Hit) (u : CalUnit) :
    { s.started c k tap e r n h with calUnit := u, obj := s.obj, chans := s.chans, fastOr := s.fastOr } =
      { s with calUnit := u } :=
  congrArg (fun v : State => { v with calUnit := u, obj := s.obj, chans := s.chans, fastOr := s.fastOr })
    (State.noteOverrun_frame ((s.risen c k tap e r n).setChan c
      ((((s.chan c).rise (32 * s.tick + k, tap)).metered r n).hitting h)) c tap)

theorem State.timingRise_starts {word : Nat} (hlow : (s.chan c).timing = .low) (hrun : s.o Obj.TDC_STATE = 2)
    (hen : s.en c = true) (hrel : (s.chan c).releaseAt = none) (hhit : (s.chan c).hit = none) (hfix : s.lutFix = []) :
    ∃ e r n tpulse calTap calUnit, s.timingRise c k word true =
      { s.started c k (startTap word) e r n
          (s.hitAt c k (k * 128 + fineOf (s.chan c).lut (startTap word)) tpulse calTap) with calUnit := calUnit } := by
  obtain ⟨e, r, n, hcount⟩ := State.countRise_eq hen hrel k (startTap word)
  obtain ⟨tpulse, calTap, calUnit, hstart⟩ :=
    State.startHit_eq (s := s.risen c k (startTap word) e r n) (c := c) (k := k) (tap := startTap word) hfix
  refine ⟨e, r, n, tpulse, calTap, calUnit, ?_⟩
  rw [State.timingRise_idle hlow hrun hen hrel hhit, hcount, hstart, State.hitAt_risen, State.chan_risen_self]
  rfl

end Sys2Proof.Machine
end

section
/-! SUPPORT. The statement on a timing rise. -/
namespace Sys2Proof.Machine

theorem startTap_thermometer : ∀ p : Fin 161, startTap (2 ^ p.val - 1) = p := by decide +kernel

theorem startTap_belowOlderPulse : ∀ p : Fin 150, 0 < p.val → startTap (2 ^ p.val - 1 + 7 * 2 ^ (p.val + 5)) = p := by
  decide +kernel

/-- Settles O6: a rise from Low is counted, and then starts a hit or is an orphan; the delay line's words are evaluated. -/
theorem aTimingRiseStartsAHitUnlessBusy : Obligations.ATimingRiseStartsAHitUnlessBusy := by
  unfold Obligations.ATimingRiseStartsAHitUnlessBusy
  intro c k word rearmed s ha
  refine ⟨startTap_thermometer, startTap_belowOlderPulse, fun h => ?unknown, fun hlow hrun hen hrel hhit hfix => ?starts,
    fun hlow hrun hen hrel hhit => ?orphan⟩
  case unknown => exact runs_setChan (exec_of_awake ha rfl (State.timingRise_unknown h))
  case starts =>
    obtain ⟨e, r, n, tpulse, calTap, calUnit, ht⟩ := State.timingRise_starts (word := word.toNat) (k := k) hlow hrun hen hrel hhit hfix
    have hover : startTap word.toNat ≥ 160 ↔ startTap word.toNat = 160 := by have := startTap_le word; omega
    have hchan := State.chan_started_self s c k (startTap word.toNat) e r n
      (s.hitAt c k (k * 128 + fineOf (s.chan c).lut (startTap word.toNat)) tpulse calTap)
    refine ⟨_, exec_of_awake ha rfl ht, (congrArg Chan.timing hchan :), ⟨_, (congrArg Chan.hit hchan :), rfl, rfl, ?_, rfl, rfl,
      rfl, rfl, rfl, rfl⟩, (congrArg Chan.chain hchan :), ?_, ?_, ?_, ?_, ?_, ?_⟩
    · exact congrArg (k.val * 128 + ·) (fineOf_startTap _ word)
    · exact congrArg FastOr.hits (State.fastOr_noteOverrun _ c _)
    · simp only [← hover]
      exact State.noteOverrun_counts _ c _
    · exact fun h => State.noteOverrun_flags _ c (hover.mpr h)
    · exact fun d hd => State.chan_started_ne hd ..
    · exact State.noteOverrun_keepsObjects _ c _
    · exact State.started_frame s c k _ e r n _ s.calUnit
  case orphan =>
    obtain ⟨h, hhit⟩ := Option.ne_none_iff_exists'.mp hhit
    obtain ⟨e, r, n, hcount⟩ := State.countRise_eq hen hrel k (startTap word.toNat)
    have ht := State.timingRise_busy (word := word.toNat) (k := k) (rearmed := rearmed) hlow hrun hen hrel hhit
    rw [hcount] at ht
    have hchan := State.chan_risen_self s c k (startTap word.toNat) e r n
    exact ⟨_, exec_of_awake ha rfl ht, congrArg Chan.timing hchan, (congrArg Chan.hit hchan :),
      (congrArg Chan.chain hchan :), State.o_bump_self _ _, rfl, fun d hd => State.chan_risen_ne hd .., State.keepsObjects_bump (fun _ _ => rfl) (by simp), rfl⟩

end Sys2Proof.Machine
end

section
/-! SUPPORT. Trigger primitives of a hub: a leaf word's arrival, and what building the cluster's word changes (R143 to R146, R237,
R339, R413). -/
namespace Sys2Proof.Machine

variable {s t r : State} {k j x : Nat} {ks : List Nat}

/-! ### Ports -/

@[simp] theorem portFin_val (k : Port) : portFin k.val = k := Fin.ext (Nat.mod_eq_of_lt k.isLt)

@[simp] theorem State.port_setPort_self (s : State) (k : Nat) (p : HubPort) : (s.setPort k p).port k = p := by
  simp [State.port, State.setPort, Vector.get_eq_getElem]

theorem State.port_setPort_ne (s : State) {k j : Port} (p : HubPort) (h : j ≠ k) :
    (s.setPort k.val p).port j.val = s.port j.val := by
  have hne : k.val ≠ j.val := fun e => h (Fin.ext e.symm)
  simp [State.port, State.setPort, Vector.get_eq_getElem, hne]

/-! ### A leaf word (R237, R413) -/

/-- Only the first word of a port is kept. -/
theorem TpWait.take_eq (y : TpWait) (k w : Nat) :
    y.take k w = if ∃ e ∈ y.got, e.1 = k then y else { y with got := y.got ++ [(k, w)] } := by
  simp only [TpWait.take, List.any_eq_true, beq_iff_eq]

theorem State.leafTp_ignored {xlow w : Nat} {late : Bool}
    (h : s.o Obj.CF_ROLE ≠ 2 ∨ s.o (Obj.HUB_PSTATE k) ≠ 3 ∨ late = true) : s.leafTp k xlow w late = s := by
  refine if_pos ?_
  rcases h with h | h | h
  · simp [State.isHub_eq_false h]
  · simp [h]
  · simp [h]

/-- The word of a port in UP comes in time for an awaited crossing. -/
theorem State.leafTp_awaited {xlow w : Nat} (hhub : s.o Obj.CF_ROLE = 2) (hup : s.o (Obj.HUB_PSTATE k) = 3)
    (h : (∃ y ∈ s.hub.tpWait, y.x = s.resolveXlow xlow) ∨ s.ownCrossing (s.resolveXlow xlow) = true) :
    s.leafTp k xlow w false =
      let u := s.setPort k { s.port k with tpWrong := 0 }
      { u with hub := { u.hub with
        tpWait := s.hub.tpWait.map fun y => if y.x = s.resolveXlow xlow then y.take k w else y } } := by
  have hwait : ((s.hub.tpWait.any fun y => y.x == s.resolveXlow xlow) || s.ownCrossing (s.resolveXlow xlow)) = true := by
    simpa using h
  simp only [State.leafTp, State.isHub_eq_true hhub, hup, hwait, if_true]
  rfl

theorem State.leafTp_unawaited {xlow w : Nat} (hhub : s.o Obj.CF_ROLE = 2) (hup : s.o (Obj.HUB_PSTATE k) = 3)
    (hno : ∀ y ∈ s.hub.tpWait, y.x ≠ s.resolveXlow xlow) (hown : s.ownCrossing (s.resolveXlow xlow) = false) :
    s.leafTp k xlow w false = s.tpMismatch k := by
  have hwait : ((s.hub.tpWait.any fun y => y.x == s.resolveXlow xlow) || s.ownCrossing (s.resolveXlow xlow)) = false := by
    simpa [hown] using hno
  simp only [State.leafTp, State.isHub_eq_true hhub, hup, hwait]
  rfl

/-- The sixteenth mismatch in a row asks for an alignment (R413). -/
theorem State.tpMismatch_eq (s : State) (k : Nat) : s.tpMismatch k =
    s.setPort k (if 15 ≤ (s.port k).tpWrong then { s.port k with tpWrong := 0, align := some true }
      else { s.port k with tpWrong := (s.port k).tpWrong + 1 }) := by
  have hcount : (s.port k).tpWrong + 1 ≥ 16 ↔ 15 ≤ (s.port k).tpWrong := by omega
  simp only [State.tpMismatch, hcount]
  split <;> rfl

/-! ### A count on several objects -/

/-- The counter f k of every k of a list is increased. -/
def State.bumpAll (s : State) (f : Nat → Nat) (l : List Nat) : State := l.foldl (fun s k => s.bump (f k)) s

theorem State.o_bumpAll_of_notMem {f : Nat → Nat} {l : List Nat} (h : ∀ k ∈ l, j ≠ f k) : (s.bumpAll f l).o j = s.o j := by
  induction l generalizing s with
  | nil => rfl
  | cons k l ih =>
    obtain ⟨hk, hl⟩ := List.forall_mem_cons.mp h
    exact (ih hl).trans (s.o_bump_ne hk)

theorem State.o_bumpAll_of_mem {f : Nat → Nat} (hf : f.Injective) {l : List Nat} (hl : l.Nodup) (hk : k ∈ l) :
    (s.bumpAll f l).o (f k) = satAdd 32 (s.o (f k)) 1 := by
  induction l generalizing s with
  | nil => cases hk
  | cons i l ih =>
    obtain ⟨hi, hl⟩ := List.nodup_cons.mp hl
    rcases List.mem_cons.mp hk with rfl | hk
    · exact (State.o_bumpAll_of_notMem fun m hm e => hi ((hf e : k = m) ▸ hm)).trans (s.o_bump_self _)
    · have hne : k ≠ i := fun e => hi (e ▸ hk)
      exact (ih hl hk).trans (by rw [s.o_bump_ne (hf.ne hne)])

/-! ### A word that leaves (R144, R145, R237, R339) -/

/-- Nothing but objects, the waiting block of the north link and what goes out differs from s. -/
def State.keepsButSent (t s : State) : Prop := { t with obj := s.obj, north := s.north, out := s.out } = s

theorem State.keepsButSent_trans (h : r.keepsButSent t) (h' : t.keepsButSent s) : r.keepsButSent s := by
  have hr := congrArg (fun v : State => { v with obj := s.obj, north := s.north, out := s.out }) h
  exact hr.trans h'

theorem State.bumpAll_keepsButSent (s : State) (f : Nat → Nat) (l : List Nat) : (s.bumpAll f l).keepsButSent s := by
  induction l generalizing s with
  | nil => rfl
  | cons k l ih => exact State.keepsButSent_trans (ih (s.bump (f k))) rfl

theorem State.tpFlush_keepsButSent (s : State) : s.tpFlush.keepsButSent s := by
  unfold State.tpFlush
  split <;> rfl

theorem State.tpFlush_keepsObjects (s : State) : s.tpFlush.keepsObjects s [Obj.TP_OVF_CNT, Obj.HUB_TP_ABS] := by
  unfold State.tpFlush
  split
  · exact State.keepsObjects_refl s _
  · exact State.keepsObjects_setO (State.keepsObjects_setO (State.keepsObjects_refl s _) (by simp) _) (by simp) _

/-- A word joins the waiting block, which goes out before it or with it. -/
theorem State.tpPlace_keepsButSent (s : State) (x w : Nat) (sent : Bool) : (s.tpPlace x w sent).keepsButSent s := by
  have hplace (u : State) : State.keepsButSent { u with north := { u.north with tp := (x, w) :: u.north.tp } } u := rfl
  have hroom : (if s.tpJoins x then s else s.tpFlush).keepsButSent s := by
    split
    · rfl
    · exact s.tpFlush_keepsButSent
  unfold State.tpPlace
  dsimp only
  split
  · exact State.keepsButSent_trans (State.tpFlush_keepsButSent _) (State.keepsButSent_trans (hplace _) hroom)
  · exact State.keepsButSent_trans (hplace _) hroom

theorem State.tpPlace_keepsObjects (s : State) (x w : Nat) (sent : Bool) :
    (s.tpPlace x w sent).keepsObjects s [Obj.TP_OVF_CNT, Obj.HUB_TP_ABS] := by
  have hroom : (if s.tpJoins x then s else s.tpFlush).keepsObjects s [Obj.TP_OVF_CNT, Obj.HUB_TP_ABS] := by
    split
    · exact State.keepsObjects_refl s _
    · exact s.tpFlush_keepsObjects
  unfold State.tpPlace
  dsimp only
  split
  · exact State.keepsObjects_trans (State.tpFlush_keepsObjects _) hroom
  · exact hroom

/-- A formed word is shown in TP_LAST and TP_LASTX; beside that only counters of sent and dropped words change. -/
theorem State.tpSend_keepsObjects (s : State) (x w : Nat) (sent : Bool) :
    (s.tpSend x w sent).keepsObjects ((s.setO Obj.TP_LAST w).setO Obj.TP_LASTX x)
      [Obj.TP_DROP, Obj.TP_OVF_CNT, Obj.HUB_TP_ABS] := by
  unfold State.tpSend
  dsimp only
  split
  · exact State.keepsObjects_refl _ _
  · split
    · exact State.keepsObjects_bump (State.keepsObjects_refl _ _) (by simp)
    · exact State.keepsObjects_mono (State.tpPlace_keepsObjects _ x w sent) (by simp)

theorem State.tpSend_keepsButSent (s : State) (x w : Nat) (sent : Bool) : (s.tpSend x w sent).keepsButSent s := by
  have hshow : ((s.setO Obj.TP_LAST w).setO Obj.TP_LASTX x).keepsButSent s := rfl
  unfold State.tpSend
  dsimp only
  split
  · exact hshow
  · split
    · rfl
    · exact State.keepsButSent_trans (State.tpPlace_keepsButSent _ x w sent) hshow

theorem State.tpSend_lastX (s : State) (x w : Nat) (sent : Bool) : (s.tpSend x w sent).o Obj.TP_LASTX = x :=
  (s.tpSend_keepsObjects x w sent _ (by decide)).trans (State.o_setO_self _ _ _)

theorem State.tpSend_last (s : State) (x w : Nat) (sent : Bool) : (s.tpSend x w sent).o Obj.TP_LAST = w :=
  (s.tpSend_keepsObjects x w sent _ (by decide)).trans
    ((State.o_setO_ne _ _ (by decide)).trans (State.o_setO_self _ _ _))

/-! ### The deadline (R146, R237) -/

theorem hubTpLate_injective : Function.Injective Obj.HUB_TP_LATE := by
  intro a b h
  simp only [Obj.HUB_TP_LATE, objKey] at h
  omega

theorem State.tpSend_late (s : State) (x w : Nat) (sent : Bool) (j : Nat) :
    (s.tpSend x w sent).o (Obj.HUB_TP_LATE j) = s.o (Obj.HUB_TP_LATE j) := by
  have hkeys : Obj.HUB_TP_LATE j ∉ [Obj.TP_DROP, Obj.TP_OVF_CNT, Obj.HUB_TP_ABS] ∧ Obj.HUB_TP_LATE j ≠ Obj.TP_LASTX ∧
      Obj.HUB_TP_LATE j ≠ Obj.TP_LAST := by
    simp only [List.mem_cons, List.not_mem_nil, or_false, ne_eq, Obj.HUB_TP_LATE, Obj.TP_DROP, Obj.TP_OVF_CNT, Obj.HUB_TP_ABS, Obj.TP_LASTX,
      Obj.TP_LAST, objKey]
    omega
  obtain ⟨hcounts, hlastX, hlast⟩ := hkeys
  rw [s.tpSend_keepsObjects x w sent _ hcounts, State.o_setO_ne _ _ hlastX, State.o_setO_ne _ _ hlast]

theorem State.nodup_tpMissing (s : State) (y : TpWait) : (s.tpMissing y).Nodup :=
  (List.nodup_range.filter _).filter _

/-- An enabled port is missing where it is not in UP or no word of it has come. -/
theorem State.mem_tpMissing {y : TpWait} {j : Port} : j.val ∈ s.tpMissing y ↔
    s.ob Obj.HUB_PORT_EN j = true ∧ (s.o (Obj.HUB_PSTATE j) ≠ 3 ∨ ∀ e ∈ y.got, e.1 ≠ j.val) := by
  simp [State.tpMissing, bitList, State.ob, or_iff_not_imp_left, and_comm]

/-- The oldest waiting crossing is closed: the missing ports are counted and its word is formed and sent. -/
theorem State.tpDeadline_oldest {y : TpWait} {ys : List TpWait} {sent : Bool} (h : s.hub.tpWait = y :: ys) :
    s.tpDeadline sent =
      (State.bumpAll { s with hub := { s.hub with tpWait := ys } } Obj.HUB_TP_LATE (s.tpMissing y)).tpSend y.x
        (clusterWord (y.word :: (y.got.filter fun e =>
          e.1 ∈ bitList 8 (s.o Obj.HUB_PORT_EN) && !(e.1 ∈ s.tpMissing y)).map (·.2)) (!(s.tpMissing y).isEmpty)) sent := by
  unfold State.tpDeadline
  rw [h]
  rfl

end Sys2Proof.Machine
end

section
/-! SUPPORT. The statement on cluster primitives. -/
namespace Sys2Proof.Machine

/-- Settles O20: a leaf word's arrival is one of three cases, and the deadline counts the missing ports and sends one word. -/
theorem clusterPrimitivesAreBuiltAtTheirDeadline : Obligations.ClusterPrimitivesAreBuiltAtTheirDeadline := by
  unfold Obligations.ClusterPrimitivesAreBuiltAtTheirDeadline
  intro k xl w late sent x xs s ha
  refine ⟨fun h => ?ignored, fun hhub hup => ⟨fun h => ?awaited, fun hno hown => ?mismatch⟩, fun h => ?none, fun h => ?deadline⟩
  case ignored => exact exec_of_awake ha rfl (State.leafTp_ignored h)
  case awaited =>
    refine ⟨_, exec_of_awake ha rfl (State.leafTp_awaited hhub hup h), State.port_setPort_self s k _,
      fun j hj => State.port_setPort_ne s _ hj, ?_, rfl⟩
    simp only [TpWait.take_eq]
  case mismatch =>
    exact ⟨_, exec_of_awake ha rfl ((State.leafTp_unawaited hhub hup hno hown).trans (s.tpMismatch_eq k)),
      State.port_setPort_self s k _, fun j hj => State.port_setPort_ne s _ hj, rfl, rfl⟩
  case none =>
    have hnone : s.tpDeadline sent = s := by simp [State.tpDeadline, h]
    exact exec_of_awake ha rfl hnone
  case deadline =>
    have hframe := fun w => State.keepsButSent_trans (State.tpSend_keepsButSent _ x.x w sent)
      (State.bumpAll_keepsButSent { s with hub := { s.hub with tpWait := xs } } Obj.HUB_TP_LATE (s.tpMissing x))
    refine ⟨_, exec_of_awake ha rfl (State.tpDeadline_oldest h), ?_, State.tpSend_lastX _ _ _ _, State.tpSend_last _ _ _ _,
      fun j hen hmiss => ?_, fun j hen => ?_, ?_⟩
    · exact congrArg State.hub (hframe _)
    · exact (State.tpSend_late _ _ _ _ j).trans
        (State.o_bumpAll_of_mem hubTpLate_injective (s.nodup_tpMissing x) (State.mem_tpMissing.mpr ⟨hen, hmiss⟩))
    · refine (State.tpSend_late _ _ _ _ j).trans (State.o_bumpAll_of_notMem fun m hm e => ?_)
      have hmem : j.val ∈ s.tpMissing x := hubTpLate_injective e ▸ hm
      obtain ⟨hen', -⟩ := State.mem_tpMissing.mp hmem
      exact absurd (hen.symm.trans hen') (by decide)
    · exact congrArg (fun v : State => { v with hub := s.hub }) (hframe _)

end Sys2Proof.Machine
end

section
/-! SUPPORT. The commands of the tick in progress: which of them are due, and what number the tick starts (R336, R409, R414). -/
namespace Sys2Proof.Machine

variable {s t : State} {x : Sched} {n k : Nat}

/-! ### The commands that are due -/

theorem State.first_due (s : State) : (s.sched.find? fun x => x.tick == s.tick) = s.due.head? := List.head?_filter.symm

/-- Commands of a code have their turn where the oldest command of the tick is one of them. -/
theorem State.dueCmds_isEmpty_iff (s : State) (n : Nat) :
    (s.dueCmds n).isEmpty = true ↔ (s.sched.find? fun x => x.tick == s.tick).map (·.code) ≠ some n := by
  rw [State.first_due, State.dueCmds]
  cases s.due with
  | nil => simp
  | cons y l => by_cases h : y.code = n <;> simp [h]

theorem State.due_nil (h : s.sched = []) : s.due = [] := by simp [State.due, h]

theorem State.dueCmds_nil (h : s.sched = []) (n : Nat) : s.dueCmds n = [] := by simp [State.dueCmds, State.due_nil h]

theorem State.dropDue_nil (h : s.sched = []) (n : Nat) : s.dropDue n = s := by
  have hsched : (s.sched.filter fun c => c.tick != s.tick) ++ s.due.dropWhile (fun c => c.code == n) = s.sched := by
    simp [State.due_nil h, h]
  simp only [State.dropDue, hsched]

theorem State.due_single (h : s.sched = [x]) (ht : x.tick = s.tick) : s.due = [x] := by simp [State.due, h, ht]

theorem State.dueCmds_single (h : s.sched = [x]) (ht : x.tick = s.tick) (hc : x.code = n) : s.dueCmds n = [x] := by
  simp [State.dueCmds, State.due_single h ht, hc]

theorem State.dropDue_single (h : s.sched = [x]) (ht : x.tick = s.tick) (hc : x.code = n) :
    s.dropDue n = { s with sched := [] } := by
  have hsched : (s.sched.filter fun c => c.tick != s.tick) ++ s.due.dropWhile (fun c => c.code == n) = [] := by
    simp [State.due_single h ht, h, ht, hc]
  simp only [State.dropDue, hsched]

/-! ### The number that the tick starts -/

/-- The number rests on the power state, the count, the pending alignment and the RESYNCs that are due. -/
theorem State.tickNumber_congr (hp : t.o Obj.PWR_STATE = s.o Obj.PWR_STATE) (hx : t.xc = s.xc) (ht : t.tick = s.tick)
    (ha : t.alignPend = s.alignPend) (hd : (t.due.filter fun c => c.code == 3) = s.due.filter fun c => c.code == 3) :
    t.tickNumber = s.tickNumber := by
  simp only [State.tickNumber, hp, hx, ht, ha, hd]

theorem State.tickNumber_setO (s : State) (v : Nat) (hp : Obj.PWR_STATE ≠ k) (hx : Obj.XC_COUNT ≠ k) :
    (s.setO k v).tickNumber = s.tickNumber :=
  State.tickNumber_congr (s.o_setO_ne v hp) (s.o_setO_ne v hx) rfl rfl rfl

/-- A due command that is no RESYNC has no say in the number. -/
theorem State.tickNumber_withoutSingle (h : s.sched = [x]) (hc : x.code ≠ 3) :
    State.tickNumber { s with sched := [] } = s.tickNumber := by
  refine State.tickNumber_congr rfl rfl rfl rfl ?_
  have hnone : (s.due.filter fun c => c.code == 3) = [] := by
    simp only [State.due, h, List.filter_filter]
    simp [hc]
  rw [hnone]
  rfl

/-! ### A control message forwarded (R216) -/

theorem State.foldl_emitBlock (f : Nat → LinkId) (b : Nat) (parts : List Nat) (l : List Nat) (s : State) :
    l.foldl (fun s k => s.emitBlock (f k) b parts) s = { s with out := s.out ++ l.map fun k => Sent.block (f k) b parts } := by
  induction l generalizing s with
  | nil => simp
  | cons k l ih => rw [List.foldl_cons, ih]; simp [State.emitBlock, State.emit]

/-- A message for every port goes out once on each port in UP. -/
theorem State.forward_all (s : State) (b : Nat) (parts : List Nat) : s.forward (fun _ => true) b parts =
    { s with out := s.out ++ s.portsUp.map fun k => Sent.block (.south (portFin k)) b parts } := by
  rw [State.forward, List.filter_true]
  exact State.foldl_emitBlock (fun k => .south (portFin k)) b parts s.portsUp s

end Sys2Proof.Machine
end

section
/-! SUPPORT. A test-pulse fire: its injections, its counters, and the probe that it triggers (R64 to R68, R76, R336). -/
namespace Sys2Proof.Machine

variable {s : State} {c : Ch}

/-! ### What the fire rests on -/

/-- The TPULSE commands leave the RESYNCs of the tick in the scheduler. -/
theorem State.resyncsDue_dropTpulses (s : State) :
    (s.dropTpulses.due.filter fun c => c.code == 3) = s.due.filter fun c => c.code == 3 := by
  simp only [State.due, State.dropTpulses, List.filter_filter]
  refine List.filter_congr fun c _ => ?_
  by_cases h : c.code = 3
  · simp [h]
  · simp [beq_eq_false_iff_ne.mpr h]

/-- The channels that inject, after the commands have left the scheduler as before. -/
theorem State.armed_dropTpulses (s : State) (c : Ch) (v : Nat) :
    (s.dropTpulses.setO Obj.FE_TP_DUP v).armed c = s.armed c := by
  have hkeys : Obj.FE_ENABLE c ≠ Obj.FE_TP_DUP ∧ Obj.FE_TPULSE c ≠ Obj.FE_TP_DUP := by
    simp only [Obj.FE_ENABLE, Obj.FE_TPULSE, Obj.FE_TP_DUP, objKey]
    omega
  have hready : (s.dropTpulses.setO Obj.FE_TP_DUP v).dataReady = s.dataReady := by
    have hpwr : (s.dropTpulses.setO Obj.FE_TP_DUP v).o Obj.PWR_STATE = s.o Obj.PWR_STATE := State.o_setO_ne _ _ (by decide)
    simp only [State.dataReady, State.inService, State.inRun, hpwr]
    rfl
  have hen : (s.dropTpulses.setO Obj.FE_TP_DUP v).en c = s.en c :=
    congrArg₂ and (State.ob_of_o (State.o_setO_ne _ _ hkeys.1)) hready
  exact congrArg₂ and hen (State.ob_of_o (State.o_setO_ne _ _ hkeys.2))

/-- The probe is triggered by a fire. -/
def State.fireTriggers (s : State) : Bool := decide (s.o Obj.PRB_STATE = 2) && decide (s.o Obj.PRB_MODE = 1)

/-- A fire triggers a capture that waits in TPULSE mode (R75, R76). -/
theorem State.prbOnFire_triggers {p : Nat} (h : s.fireTriggers = true) :
    s.prbOnFire p = s.prbTriggerAt s.tickNumber (p / 2) := by
  simp only [State.fireTriggers, Bool.and_eq_true, decide_eq_true_eq] at h
  simp [State.prbOnFire, h]

/-- A fire that triggers nothing touches the probe's own state alone. -/
theorem State.prbOnFire_waits {p : Nat} (h : s.fireTriggers = false) :
    ∃ probe, s.prbOnFire p = { s with probe := probe } := by
  simp only [State.fireTriggers, Bool.and_eq_false_iff, decide_eq_false_iff_not] at h
  unfold State.prbOnFire
  split
  · next hm =>
    split
    · next hs => exact absurd h (by simp [hm, hs])
    · exact ⟨_, rfl⟩
    · exact ⟨s.probe, rfl⟩
  · exact ⟨s.probe, rfl⟩

theorem State.o_prbOnFire_waits {p : Nat} (h : s.fireTriggers = false) (k : Nat) : (s.prbOnFire p).o k = s.o k := by
  obtain ⟨probe, hp⟩ := State.prbOnFire_waits (p := p) h
  rw [hp]
  rfl

theorem State.prbOnFire_frame (s : State) (p : Nat) : { s.prbOnFire p with obj := s.obj, probe := s.probe } = s := by
  cases h : s.fireTriggers with
  | true => rw [State.prbOnFire_triggers h]; rfl
  | false =>
    obtain ⟨probe, hp⟩ := State.prbOnFire_waits (p := p) h
    rw [hp]

theorem State.prbOnFire_keepsObjects (s : State) (p : Nat) :
    (s.prbOnFire p).keepsObjects s [Obj.PRB_STATE, Obj.PRB_TCROSS, Obj.PRB_TPOS] := by
  cases h : s.fireTriggers with
  | true => exact State.prbOnFire_triggers h ▸ s.prbTriggerAt_keepsObjects _ _
  | false => exact fun k _ => State.o_prbOnFire_waits h k

theorem State.tickNumber_prbTriggerAt (s : State) (x pos : Nat) : (s.prbTriggerAt x pos).tickNumber = s.tickNumber := by
  simp (disch := decide) only [State.prbTriggerAt, State.tickNumber_setO]

theorem State.tickNumber_prbOnFire (s : State) (p : Nat) : (s.prbOnFire p).tickNumber = s.tickNumber := by
  cases h : s.fireTriggers with
  | true => rw [State.prbOnFire_triggers h, State.tickNumber_prbTriggerAt]
  | false =>
    obtain ⟨probe, hp⟩ := State.prbOnFire_waits (p := p) h
    rw [hp]
    rfl

/-- The injections do not rest on what has left the scheduler. -/
theorem State.inject_dropTpulses (s : State) (v p : Nat) : (s.dropTpulses.setO Obj.FE_TP_DUP v).inject p =
    { s.dropTpulses.setO Obj.FE_TP_DUP v with chans := (s.inject p).chans } := by
  simp only [State.inject, State.armed_dropTpulses]
  rfl

/-! ### The stages of a fire -/

/-- The end of a fire, once the probe has met it: its phase, its counts, and the mark of the crossing. -/
def State.fireEnd (s : State) (p : Nat) : State :=
  let s := s.setO Obj.FE_TP_PHASE (ofSigned 12 ((p : Int) + toSigned 16 (s.o Obj.FE_TP_STEP)))
  let s := (s.bump Obj.FE_TP_FIRED).setO Obj.FE_TP_LASTX s.tickNumber
  ({ s with fastOr := { s.fastOr with tpf := true } }).cmdDone

/-- The objects that the end of a fire writes, in a tick that starts number x. -/
def State.fireCounts (s : State) (phase x : Nat) : State :=
  ((((s.setO Obj.FE_TP_PHASE phase).bump Obj.FE_TP_FIRED).setO Obj.FE_TP_LASTX x).bump Obj.RG_CMD_DONE).setO Obj.RG_CMD_LASTX x

theorem State.fireEnd_eq (s : State) (p : Nat) : s.fireEnd p =
    { s.fireCounts (ofSigned 12 ((p : Int) + toSigned 16 (s.o Obj.FE_TP_STEP))) s.tickNumber with
      fastOr := { s.fastOr with tpf := true } } := by
  have hphase (a : Nat) : (s.setO Obj.FE_TP_PHASE a).tickNumber = s.tickNumber :=
    State.tickNumber_setO s a (by decide) (by decide)
  have hfired (w : State) (x : Nat) (f : FastOr) :
      State.tickNumber { (w.bump Obj.FE_TP_FIRED).setO Obj.FE_TP_LASTX x with fastOr := f } = w.tickNumber :=
    (State.tickNumber_setO _ x (by decide) (by decide)).trans (State.tickNumber_setO w _ (by decide) (by decide))
  simp only [State.fireEnd, State.cmdDone, hfired, hphase]
  rfl

theorem State.fireCounts_keepsButObjects (s : State) (phase x : Nat) : (s.fireCounts phase x).keepsButObjects s :=
  State.keepsButObjects_setO (State.keepsButObjects_bump (State.keepsButObjects_setO (State.keepsButObjects_bump
    (State.keepsButObjects_setO s.keepsButObjects_refl _ _) _) _ _) _) _ _

theorem State.fireEnd_obj (s : State) (p : Nat) : (s.fireEnd p).obj =
    (s.fireCounts (ofSigned 12 ((p : Int) + toSigned 16 (s.o Obj.FE_TP_STEP))) s.tickNumber).obj := by
  rw [State.fireEnd_eq]

theorem State.fireEnd_frame (s : State) (p : Nat) : { s.fireEnd p with obj := s.obj } =
    { s with fastOr := { s.fastOr with tpf := true } } := by
  rw [State.fireEnd_eq]
  exact congrArg (fun v : State => { v with fastOr := { s.fastOr with tpf := true } })
    (s.fireCounts_keepsButObjects _ _)

theorem State.fireCounts_keepsObjects (s : State) (phase x : Nat) : (s.fireCounts phase x).keepsObjects s
    [Obj.FE_TP_FIRED, Obj.FE_TP_LASTX, Obj.FE_TP_PHASE, Obj.RG_CMD_DONE, Obj.RG_CMD_LASTX] :=
  State.keepsObjects_setO (State.keepsObjects_bump (State.keepsObjects_setO (State.keepsObjects_bump (State.keepsObjects_setO
    (State.keepsObjects_refl s _) (by simp) _) (by simp)) (by simp) _) (by simp)) (by simp) _

theorem State.fireCounts_records (s : State) (phase x : Nat) :
    (s.fireCounts phase x).o Obj.FE_TP_FIRED = satAdd 32 (s.o Obj.FE_TP_FIRED) 1 ∧
      (s.fireCounts phase x).o Obj.FE_TP_LASTX = x ∧ (s.fireCounts phase x).o Obj.FE_TP_PHASE = phase ∧
      (s.fireCounts phase x).o Obj.RG_CMD_DONE = satAdd 32 (s.o Obj.RG_CMD_DONE) 1 ∧
      (s.fireCounts phase x).o Obj.RG_CMD_LASTX = x := by
  simp (disch := decide) only [State.fireCounts, State.bump, State.bumpBy, State.o_setO_ne, State.o_setO_self, and_self]

/-- The state in which the probe meets the fire: the commands have left the scheduler, and the channels have injected. -/
def State.fireStart (s : State) : State :=
  { s.bumpBy Obj.FE_TP_DUP (s.tpulses.length - 1) with
    sched := s.dropTpulses.sched, chans := (s.inject (s.o Obj.FE_TP_PHASE)).chans }

theorem State.o_fireStart {k : Nat} (s : State) (hk : k ≠ Obj.FE_TP_DUP) : s.fireStart.o k = s.o k := by
  have hobj : s.fireStart.obj = (s.bumpBy Obj.FE_TP_DUP (s.tpulses.length - 1)).obj := rfl
  exact (State.o_congr hobj k).trans (s.o_setO_ne _ hk)

theorem State.tickNumber_fireStart (s : State) : s.fireStart.tickNumber = s.tickNumber :=
  State.tickNumber_congr (s.o_fireStart (by decide)) (s.o_fireStart (by decide)) rfl rfl s.resyncsDue_dropTpulses

theorem State.fireTriggers_fireStart (s : State) : s.fireStart.fireTriggers = s.fireTriggers := by
  simp (disch := decide) only [State.fireTriggers, State.o_fireStart]

/-- The state after the probe has met the fire. -/
def State.fireMet (s : State) : State := s.fireStart.prbOnFire (s.o Obj.FE_TP_PHASE)

theorem State.fireMet_keepsObjects (s : State) :
    s.fireMet.keepsObjects s [Obj.FE_TP_DUP, Obj.PRB_STATE, Obj.PRB_TCROSS, Obj.PRB_TPOS] :=
  State.keepsObjects_trans
    (State.keepsObjects_mono (s.fireStart.prbOnFire_keepsObjects _) (List.subset_cons_self _ _))
    fun _ hk => s.o_fireStart fun e => hk (e ▸ List.mem_cons_self)

theorem State.tickNumber_fireMet (s : State) : s.fireMet.tickNumber = s.tickNumber :=
  (s.fireStart.tickNumber_prbOnFire _).trans s.tickNumber_fireStart

/-- The duplicates are the TPULSE commands of the tick beyond the first (R67). -/
theorem State.fireMet_duplicates (s : State) :
    s.fireMet.o Obj.FE_TP_DUP = satAdd 32 (s.o Obj.FE_TP_DUP) (s.tpulses.length - 1) := by
  have hobj : s.fireStart.obj = (s.bumpBy Obj.FE_TP_DUP (s.tpulses.length - 1)).obj := rfl
  exact (s.fireStart.prbOnFire_keepsObjects _ _ (by decide)).trans ((State.o_congr hobj _).trans (State.o_setO_self _ _ _))

theorem State.tpulseFire_idle (h : (s.sched.find? fun x => x.tick == s.tick).map (·.code) ≠ some 1 ∨ s.o Obj.PWR_STATE = 4) :
    s.tpulseFire = s := by
  rw [← State.dueCmds_isEmpty_iff] at h
  refine if_pos ?_
  rcases h with h | h <;> simp [h]

/-- A TPULSE whose turn it is fires once (R65 to R67, R336). -/
theorem State.tpulseFire_of_turn (hturn : (s.sched.find? fun x => x.tick == s.tick).map (·.code) = some 1)
    (hhold : s.o Obj.PWR_STATE ≠ 4) : s.tpulseFire = s.fireMet.fireEnd (s.o Obj.FE_TP_PHASE) := by
  have hgo : ¬ ((s.dueCmds 1).isEmpty || s.o Obj.PWR_STATE == 4) = true := by
    simp only [Bool.or_eq_true, State.dueCmds_isEmpty_iff, beq_iff_eq]
    tauto
  have hphase : (s.dropTpulses.bumpBy Obj.FE_TP_DUP (s.tpulses.length - 1)).o Obj.FE_TP_PHASE = s.o Obj.FE_TP_PHASE :=
    State.o_setO_ne _ _ (by decide)
  have hstart : (s.dropTpulses.bumpBy Obj.FE_TP_DUP (s.tpulses.length - 1)).inject (s.o Obj.FE_TP_PHASE) = s.fireStart :=
    s.inject_dropTpulses _ _
  rw [State.fireMet, ← hstart, ← hphase]
  exact if_neg hgo

/-! ### The next phase and the injections (R64, R65, R68) -/

/-- A phase of 12 bits moves by the step modulo 4,096. -/
theorem ofSigned_twelve (i : Int) : ((ofSigned 12 i : Int) - i) % 4096 = 0 ∧ ofSigned 12 i < 4096 := by
  have hmod : ofSigned 12 i = (i % 4096).toNat := rfl
  rw [hmod]
  omega

theorem State.chan_mapChans (s : State) (f : Ch → Chan → Chan) (c : Ch) : (s.mapChans f).chan c = f c (s.chan c) := by
  simp [State.mapChans, State.chan, Vector.get_eq_getElem]

theorem State.chan_inject (s : State) (p : Nat) (c : Ch) : (s.inject p).chan c = { s.chan c with
    injected := if s.armed c then
        ((s.chan c).injected.filter fun i => decide (s.tick * 4096 ≤ i + 8192)) ++ [s.tick * 4096 + p]
      else (s.chan c).injected.filter fun i => decide (s.tick * 4096 ≤ i + 8192) } := by
  unfold State.inject
  exact State.chan_mapChans s _ c

/-- An armed channel records the injection as its newest (R64, R68). -/
theorem State.inject_armed {p : Nat} (h : s.armed c = true) :
    ((s.inject p).chan c).injected.getLast? = some (s.tick * 4096 + p) := by
  rw [State.chan_inject, h]
  exact List.getLast?_concat

/-- A channel that is not armed records no injection. -/
theorem State.inject_unarmed {p : Nat} (h : s.armed c = false) :
    ((s.inject p).chan c).injected.all (fun i => i ∈ (s.chan c).injected) = true := by
  rw [State.chan_inject, h]
  simp +contextual

end Sys2Proof.Machine
end

section
/-! SUPPORT. The check of a TURN command: what it counts, and what an error latches (R410, R550). -/
namespace Sys2Proof.Machine

variable {s : State} {x : Sched} {tgt : Nat}

/-! ### Staged events, conditions and captures leave all but their own objects -/

theorem State.stage_keepsObjects (s : State) (code cls unit : Nat) (d : List Byte) :
    (s.stage code cls unit d).keepsObjects s [Obj.FLT_LOG_LOST] := by
  unfold State.stage
  split
  · exact State.keepsObjects_bump (State.keepsObjects_refl s _) (by simp)
  · exact State.keepsObjects_refl s _

theorem State.refreshFaultN_keepsObjects (s : State) : s.refreshFaultN.keepsObjects s [Obj.FLT_FAULTN] := by
  unfold State.refreshFaultN
  split
  · exact State.keepsObjects_refl s _
  · exact State.keepsObjects_setO (State.keepsObjects_refl s _) (by simp) _

theorem State.refreshFaultN_keepsButObjects (s : State) : s.refreshFaultN.keepsButObjects s := by
  unfold State.refreshFaultN
  split
  · exact s.keepsButObjects_refl
  · exact State.keepsButObjects_setO s.keepsButObjects_refl _ _

theorem State.ariseOnce_keepsObjects (s : State) (n : Nat) :
    (s.ariseOnce n).keepsObjects s [Obj.FLT_FAULTN, Obj.FLT_LATCHED, Obj.FLT_COND_CNT n] :=
  State.keepsObjects_trans (State.keepsObjects_mono (State.refreshFaultN_keepsObjects _) (by simp))
    (State.keepsObjects_bump (State.keepsObjects_setOb (State.keepsObjects_refl s _) (by simp) _ _) (by simp))

theorem State.ariseOnce_keepsButObjects (s : State) (n : Nat) : (s.ariseOnce n).keepsButObjects s :=
  State.keepsButObjects_trans (State.refreshFaultN_keepsButObjects _)
    (State.keepsButObjects_bump (State.keepsButObjects_setO s.keepsButObjects_refl _ _) _)

/-- A condition that arises is latched (R550). -/
theorem State.ariseOnce_latches (s : State) (n : Nat) : (s.ariseOnce n).ob Obj.FLT_LATCHED n = true := by
  have hcount : Obj.FLT_LATCHED ≠ Obj.FLT_COND_CNT n := by
    simp only [Obj.FLT_LATCHED, Obj.FLT_COND_CNT, objKey]
    omega
  have hkept : (s.ariseOnce n).o Obj.FLT_LATCHED = (s.setOb Obj.FLT_LATCHED n true).o Obj.FLT_LATCHED :=
    (State.refreshFaultN_keepsObjects _ _ (by decide)).trans (State.o_bump_ne _ hcount)
  exact (State.ob_of_o hkept).trans (State.ob_setOb_self _ _ _ _)

theorem State.capture_keepsObjects (s : State) (src : Nat) : (s.capture src).keepsObjects s [Obj.NT_CAPT_CNT] :=
  State.keepsObjects_setO (State.keepsObjects_refl s _) (by simp) _

theorem State.cmdDone_keepsObjects (s : State) : s.cmdDone.keepsObjects s [Obj.RG_CMD_DONE, Obj.RG_CMD_LASTX] :=
  State.keepsObjects_setO (State.keepsObjects_bump (State.keepsObjects_refl s _) (by simp)) (by simp) _

theorem State.cmdDone_counts (s : State) : s.cmdDone.o Obj.RG_CMD_DONE = satAdd 32 (s.o Obj.RG_CMD_DONE) 1 :=
  (State.o_setO_ne _ _ (by decide)).trans (State.o_bump_self _ _)

/-! ### The check -/

theorem State.turnOne_onPhase (h : tgt % s.o Obj.XC_TURN_LEN = 0) : s.turnOne tgt = s.cmdDone := by
  have hlen : s.cmdDone.o Obj.XC_TURN_LEN = s.o Obj.XC_TURN_LEN := s.cmdDone_keepsObjects _ (by decide)
  rw [← hlen] at h
  exact if_pos h

/-- The count and the residue of a phase error (R410). -/
def State.phaseError (s : State) (tgt : Nat) : State :=
  (s.cmdDone.bump Obj.XC_PHASE_ERR).setO Obj.XC_PHASE_LAST (ofSigned 32 (s.cmdDone.phaseResidue tgt))

/-- A phase error is captured, staged and latched, and leaves the count unconfirmed (R410). -/
def State.reportPhase (s : State) : State :=
  (((s.drawn.capture 12).stage 0x0104 1 0 (bytesLE 4 ((s.drawn.capture 12).o Obj.XC_PHASE_LAST))).ariseOnce 16).setO Obj.XC_STATE 0

theorem State.reportPhase_keepsObjects (s : State) : s.reportPhase.keepsObjects s
    [Obj.XC_STATE, Obj.FLT_FAULTN, Obj.FLT_LATCHED, Obj.FLT_COND_CNT 16, Obj.FLT_LOG_LOST, Obj.NT_CAPT_CNT] := by
  have hcapture : (s.drawn.capture 12).keepsObjects s [Obj.NT_CAPT_CNT] := s.drawn.capture_keepsObjects 12
  have hstage := State.stage_keepsObjects (s.drawn.capture 12) 0x0104 1 0 (bytesLE 4 ((s.drawn.capture 12).o Obj.XC_PHASE_LAST))
  refine State.keepsObjects_setO (State.keepsObjects_trans (State.keepsObjects_mono (State.ariseOnce_keepsObjects _ 16) ?_)
    (State.keepsObjects_trans (State.keepsObjects_mono hstage ?_) (State.keepsObjects_mono hcapture ?_))) (by simp) _ <;> simp

/-- The report leaves all but objects, the log, the captures and the open values as it was. -/
theorem State.reportPhase_frame (s : State) :
    { s.reportPhase with obj := s.obj, log := s.log, capts := s.capts, free := s.free } = s := by
  have hstage (u : State) (code cls unit : Nat) (d : List Byte) :
      { u.stage code cls unit d with obj := u.obj, log := u.log } = u := by
    unfold State.stage
    split <;> rfl
  have harise := State.keepsButObjects_setO (State.ariseOnce_keepsButObjects ((s.drawn.capture 12).stage 0x0104 1 0
    (bytesLE 4 ((s.drawn.capture 12).o Obj.XC_PHASE_LAST))) 16) Obj.XC_STATE 0
  exact (congrArg (fun v : State => { v with obj := s.obj, log := s.log, capts := s.capts, free := s.free }) harise).trans
    (congrArg (fun v : State => { v with obj := s.obj, log := s.log, capts := s.capts, free := s.free })
      (hstage (s.drawn.capture 12) 0x0104 1 0 (bytesLE 4 ((s.drawn.capture 12).o Obj.XC_PHASE_LAST))))

theorem State.reportPhase_latches (s : State) : s.reportPhase.ob Obj.FLT_LATCHED 16 = true :=
  (State.ob_of_o (State.o_setO_ne _ _ (by decide))).trans (State.ariseOnce_latches _ 16)

theorem State.phaseError_keepsObjects (s : State) (tgt : Nat) : (s.phaseError tgt).keepsObjects s
    [Obj.RG_CMD_DONE, Obj.RG_CMD_LASTX, Obj.XC_PHASE_ERR, Obj.XC_PHASE_LAST] :=
  State.keepsObjects_setO (State.keepsObjects_bump (State.keepsObjects_mono s.cmdDone_keepsObjects (by simp)) (by simp))
    (by simp) _

theorem State.phaseError_counts (s : State) (tgt : Nat) :
    (s.phaseError tgt).o Obj.XC_PHASE_ERR = satAdd 32 (s.o Obj.XC_PHASE_ERR) 1 ∧
      (s.phaseError tgt).o Obj.RG_CMD_DONE = satAdd 32 (s.o Obj.RG_CMD_DONE) 1 := by
  constructor
  · rw [State.phaseError, State.o_setO_ne _ _ (by decide), State.o_bump_self, s.cmdDone_keepsObjects _ (by decide)]
  · rw [State.phaseError, State.o_setO_ne _ _ (by decide), State.o_bump_ne _ (by decide), State.cmdDone_counts]

/-- A number of fewer than 32 bits is its own two's complement word. -/
theorem ofSigned_natCast {w r : Nat} (h : r < 2 ^ w) : ofSigned w (r : Int) = r := by
  rw [ofSigned, ← Int.natCast_emod, Int.toNat_natCast, Nat.mod_eq_of_lt h]

/-- Below half a turn, the residue is what the target exceeds the turn by (R410). -/
theorem State.phaseError_residue (hhalf : 2 * (tgt % s.o Obj.XC_TURN_LEN) < s.o Obj.XC_TURN_LEN)
    (hlt : tgt % s.o Obj.XC_TURN_LEN < 2 ^ 31) : (s.phaseError tgt).o Obj.XC_PHASE_LAST = tgt % s.o Obj.XC_TURN_LEN := by
  have hlen : s.cmdDone.o Obj.XC_TURN_LEN = s.o Obj.XC_TURN_LEN := s.cmdDone_keepsObjects _ (by decide)
  have hres : s.cmdDone.phaseResidue tgt = (tgt % s.o Obj.XC_TURN_LEN : Nat) := by
    simp only [State.phaseResidue, hlen]
    exact if_pos (.inl hhalf)
  rw [State.phaseError, State.o_setO_self, hres]
  exact ofSigned_natCast (hlt.trans (by decide))

/-- A TURN command whose target is no turn, from its count to its report (R410). -/
def State.phaseReported (s : State) (tgt : Nat) : State := (s.phaseError tgt).reportPhase

theorem State.o_phaseReported {k : Nat} (s : State) (tgt : Nat)
    (hk : k ∉ [Obj.XC_STATE, Obj.FLT_FAULTN, Obj.FLT_LATCHED, Obj.FLT_COND_CNT 16, Obj.FLT_LOG_LOST, Obj.NT_CAPT_CNT]) :
    (s.phaseReported tgt).o k = (s.phaseError tgt).o k := (s.phaseError tgt).reportPhase_keepsObjects k hk

theorem State.phaseReported_counts (s : State) (tgt : Nat) :
    (s.phaseReported tgt).o Obj.XC_PHASE_ERR = satAdd 32 (s.o Obj.XC_PHASE_ERR) 1 ∧
      (s.phaseReported tgt).o Obj.RG_CMD_DONE = satAdd 32 (s.o Obj.RG_CMD_DONE) 1 := by
  rw [s.o_phaseReported tgt (by decide), s.o_phaseReported tgt (by decide)]
  exact s.phaseError_counts tgt

theorem State.phaseReported_unconfirmed (s : State) (tgt : Nat) : (s.phaseReported tgt).o Obj.XC_STATE = 0 :=
  State.o_setO_self _ _ _

theorem State.phaseReported_xc (s : State) (tgt : Nat) : (s.phaseReported tgt).xc = s.xc :=
  (s.o_phaseReported tgt (by decide)).trans (s.phaseError_keepsObjects tgt _ (by decide))

theorem State.phaseError_keepsButObjects (s : State) (tgt : Nat) : (s.phaseError tgt).keepsButObjects s :=
  State.keepsButObjects_setO (State.keepsButObjects_bump (State.keepsButObjects_setO
    (State.keepsButObjects_bump s.keepsButObjects_refl _) _ _) _) _ _

/-- Nothing but objects, the log, the captures and the open values differs from s. -/
def State.keepsButReport (t s : State) : Prop :=
  { t with obj := s.obj, log := s.log, capts := s.capts, free := s.free } = s

theorem State.keepsButReport_of_objects {t r : State} (h : r.keepsButReport t) (h' : t.keepsButObjects s) :
    r.keepsButReport s := by
  have hr := congrArg (fun v : State => { v with obj := s.obj, log := s.log, capts := s.capts, free := s.free }) h
  have ht := congrArg (fun v : State => { v with log := s.log, capts := s.capts, free := s.free }) h'
  exact hr.trans ht

theorem State.keepsButReport.sched {t : State} (h : t.keepsButReport s) : t.sched = s.sched := (congrArg State.sched h :)

/-- Put back what the scheduler held, the state is the one before its commands left. -/
theorem State.keepsButReport.of_unscheduled {t : State} {l : List Sched} (h : t.keepsButReport { s with sched := l }) :
    { t with obj := s.obj, sched := s.sched, log := s.log, capts := s.capts, free := s.free } = s := by
  have ht := congrArg (fun v : State => { v with sched := s.sched }) h
  exact ht

theorem State.phaseReported_keepsButReport (s : State) (tgt : Nat) : (s.phaseReported tgt).keepsButReport s :=
  State.keepsButReport_of_objects (s.phaseError tgt).reportPhase_frame (s.phaseError_keepsButObjects tgt)

theorem State.turnOne_offPhase (h : tgt % s.o Obj.XC_TURN_LEN ≠ 0) : s.turnOne tgt = s.phaseReported tgt := by
  have hlen : s.cmdDone.o Obj.XC_TURN_LEN = s.o Obj.XC_TURN_LEN := s.cmdDone_keepsObjects _ (by decide)
  rw [← hlen] at h
  exact if_neg h

/-! ### TURN_CHECK -/

theorem State.turnCheck_hold (h : s.o Obj.PWR_STATE = 4) : s.turnCheck = s := if_pos h

theorem State.turnCheck_nil (h : s.sched = []) : s.turnCheck = s := by
  simp [State.turnCheck, State.dueCmds_nil h, State.dropDue_nil h]

theorem State.turnCheck_single (hp : s.o Obj.PWR_STATE ≠ 4) (h : s.sched = [x]) (ht : x.tick = s.tick) (hc : x.code = 2) :
    s.turnCheck = State.turnOne { s with sched := [] } x.tgt := by
  rw [State.turnCheck, if_neg hp, State.dueCmds_single h ht hc, State.dropDue_single h ht hc]
  rfl

end Sys2Proof.Machine
end

section
/-! SUPPORT. RESYNC: what one changes, and what the latency buffer takes from it (R171, R210, R411 to R414). -/
namespace Sys2Proof.Machine

variable {s t r : State} {x : Sched} {w n : Nat}

/-- Nothing but objects, the assembler, the latency buffer, the queries, the hub, the clock and the captures differs from s. -/
def State.keepsButNumbering (t s : State) : Prop :=
  { t with obj := s.obj, asm := s.asm, lb := s.lb, query := s.query, hub := s.hub, clk := s.clk, capts := s.capts } = s

theorem State.keepsButNumbering_trans (h : r.keepsButNumbering t) (h' : t.keepsButNumbering s) : r.keepsButNumbering s := by
  have hr := congrArg (fun v : State => { v with
    obj := s.obj, asm := s.asm, lb := s.lb, query := s.query, hub := s.hub, clk := s.clk, capts := s.capts }) h
  exact hr.trans h'

theorem State.keepsButNumbering_of_objects (h : t.keepsButObjects s) : t.keepsButNumbering s := by
  have ht := congrArg (fun v : State => { v with
    asm := s.asm, lb := s.lb, query := s.query, hub := s.hub, clk := s.clk, capts := s.capts }) h
  exact ht

/-! ### The latency buffer and the leaves -/

theorem State.lbResync_keepsObjects (s : State) (n : Nat) :
    (s.lbResync n).keepsObjects s [Obj.LB_LOSTBELOW, Obj.LB_FLOOR, Obj.LB_CAPFLOOR, Obj.LB_MIGPTR] := by
  have hfloors : (((s.setO Obj.LB_LOSTBELOW n).setO Obj.LB_FLOOR (n + 1 - s.leff)).setO Obj.LB_CAPFLOOR 0).keepsObjects s
      [Obj.LB_LOSTBELOW, Obj.LB_FLOOR, Obj.LB_CAPFLOOR, Obj.LB_MIGPTR] :=
    State.keepsObjects_setO (State.keepsObjects_setO (State.keepsObjects_setO (State.keepsObjects_refl s _) (by simp) _)
      (by simp) _) (by simp) _
  unfold State.lbResync
  split
  · exact State.keepsObjects_refl s _
  · dsimp only
    split
    · exact State.keepsObjects_setO hfloors (by simp) _
    · exact hfloors

theorem State.lbResync_keepsButNumbering (s : State) (n : Nat) : (s.lbResync n).keepsButNumbering s := by
  have hfloors : (((s.setO Obj.LB_LOSTBELOW n).setO Obj.LB_FLOOR (n + 1 - s.leff)).setO Obj.LB_CAPFLOOR 0).keepsButObjects s :=
    State.keepsButObjects_setO (State.keepsButObjects_setO (State.keepsButObjects_setO s.keepsButObjects_refl _ _) _ _) _ _
  have hbuffer (u : State) (lb : Lb) : State.keepsButNumbering { u with lb := lb } u := rfl
  unfold State.lbResync
  split
  · exact State.keepsButNumbering_of_objects s.keepsButObjects_refl
  · refine State.keepsButNumbering_trans (hbuffer _ _) (State.keepsButNumbering_of_objects ?_)
    split
    · exact State.keepsButObjects_setO hfloors _ _
    · exact hfloors

/-- A buffer that serves gives up everything below the new number (R171). -/
theorem State.lbResync_lostBelow (h : s.o Obj.LB_STATE ≠ 0) : (s.lbResync n).o Obj.LB_LOSTBELOW = n := by
  have hfloors : (((s.setO Obj.LB_LOSTBELOW n).setO Obj.LB_FLOOR (n + 1 - s.leff)).setO Obj.LB_CAPFLOOR 0).o Obj.LB_LOSTBELOW
      = n := by
    simp (disch := decide) only [State.o_setO_ne, State.o_setO_self]
  rw [State.lbResync, if_neg h]
  dsimp only
  split
  · exact (State.o_setO_ne _ _ (by decide)).trans hfloors
  · exact hfloors

/-- The alignment of leaves is noted at the hub's ports alone. -/
theorem State.alignLeaves_hub (s : State) (byTp : Bool) (ks : List Nat) :
    ∃ hub, s.alignLeaves byTp ks = { s with hub := hub } := by
  induction ks generalizing s with
  | nil => exact ⟨s.hub, rfl⟩
  | cons k ks ih =>
    obtain ⟨hub, hks⟩ := ih { s with hub := { s.hub with
      ports := s.hub.ports.set (portFin k) { s.hub.ports.get (portFin k) with align := some byTp } } }
    exact ⟨hub, hks⟩

/-! ### A change of numbering -/

/-- The number and the slice just opened take the new number, before the buffers hear of it. -/
def State.recount (s : State) (n : Nat) : State :=
  { s.setO Obj.XC_COUNT n with
    asm := { s.asm with opened := s.asm.opened.map fun o => if o.tick = s.tick then { o with x := n } else o } }

/-- A RESYNC that changes the number, with the leaves that are to be aligned (R171, R210, R411, R413). -/
def State.renumbered (s : State) (n : Nat) : State := (s.renumber n).alignLeaves false s.portsUp

theorem State.renumber_eq (s : State) (n : Nat) :
    s.renumber n = ((s.recount n).lbResync n).queryResync s.xc := rfl

/-- After the latency buffer, a new numbering touches the queries and the hub alone. -/
theorem State.renumbered_eq (s : State) (n : Nat) :
    ∃ query hub, s.renumbered n = { (s.recount n).lbResync n with query := query, hub := hub } := by
  have hquery (u : State) : ∃ query, u.queryResync s.xc = { u with query := query } := ⟨_, rfl⟩
  obtain ⟨query, hq⟩ := hquery ((s.recount n).lbResync n)
  obtain ⟨hub, hh⟩ := State.alignLeaves_hub (s.renumber n) false s.portsUp
  exact ⟨query, hub, hh.trans (by rw [s.renumber_eq, hq])⟩

theorem State.recount_keepsButNumbering (s : State) (n : Nat) : (s.recount n).keepsButNumbering s := rfl

theorem State.renumbered_keepsButNumbering (s : State) (n : Nat) : (s.renumbered n).keepsButNumbering s := by
  obtain ⟨query, hub, h⟩ := s.renumbered_eq n
  rw [h]
  exact State.keepsButNumbering_trans ((s.recount n).lbResync_keepsButNumbering n) (s.recount_keepsButNumbering n)

theorem State.renumbered_keepsObjects (s : State) (n : Nat) : (s.renumbered n).keepsObjects s
    [Obj.XC_COUNT, Obj.LB_LOSTBELOW, Obj.LB_FLOOR, Obj.LB_CAPFLOOR, Obj.LB_MIGPTR] := by
  obtain ⟨query, hub, h⟩ := s.renumbered_eq n
  have hcount : (s.recount n).keepsObjects s
      [Obj.XC_COUNT, Obj.LB_LOSTBELOW, Obj.LB_FLOOR, Obj.LB_CAPFLOOR, Obj.LB_MIGPTR] :=
    State.keepsObjects_setO (State.keepsObjects_refl s _) (by simp) n
  rw [h]
  exact State.keepsObjects_trans (State.keepsObjects_mono ((s.recount n).lbResync_keepsObjects n) (by simp)) hcount

theorem State.renumbered_xc (s : State) (n : Nat) : (s.renumbered n).xc = n := by
  obtain ⟨query, hub, h⟩ := s.renumbered_eq n
  rw [h]
  exact ((s.recount n).lbResync_keepsObjects n _ (by decide)).trans (State.o_setO_self _ _ _)

theorem State.renumbered_lostBelow (h : s.o Obj.LB_STATE ≠ 0) : (s.renumbered n).o Obj.LB_LOSTBELOW = n := by
  obtain ⟨query, hub, hr⟩ := s.renumbered_eq n
  have hstate : (s.recount n).o Obj.LB_STATE = s.o Obj.LB_STATE := State.o_setO_ne _ _ (by decide)
  rw [hr]
  exact State.lbResync_lostBelow (hstate ▸ h)

/-! ### One RESYNC -/

/-- The numbering that a RESYNC to n leaves: it stays where the number stays (R411). -/
def State.numbered (s : State) (n : Nat) : State := if n = s.xc then s else s.renumbered n

theorem State.numbered_keepsButNumbering (s : State) (n : Nat) : (s.numbered n).keepsButNumbering s := by
  unfold State.numbered
  split
  · exact State.keepsButNumbering_of_objects s.keepsButObjects_refl
  · exact s.renumbered_keepsButNumbering n

theorem State.numbered_keepsObjects (s : State) (n : Nat) : (s.numbered n).keepsObjects s
    [Obj.XC_COUNT, Obj.LB_LOSTBELOW, Obj.LB_FLOOR, Obj.LB_CAPFLOOR, Obj.LB_MIGPTR] := by
  unfold State.numbered
  split
  · exact State.keepsObjects_refl s _
  · exact s.renumbered_keepsObjects n

theorem State.numbered_xc (s : State) (n : Nat) : (s.numbered n).xc = n := by
  unfold State.numbered
  split
  · next h => exact h.symm
  · exact s.renumbered_xc n

theorem State.numbered_lostBelow (hn : n ≠ s.xc) (h : s.o Obj.LB_STATE ≠ 0) : (s.numbered n).o Obj.LB_LOSTBELOW = n := by
  rw [State.numbered, if_neg hn]
  exact State.renumbered_lostBelow h

/-- What a RESYNC records of itself: its count, the new number, the old one, and that the number is confirmed (R411, R414). -/
def State.resyncCounts (s : State) (would n : Nat) : State :=
  (((s.bump Obj.XC_RESYNCS).setO Obj.XC_LAST_RSX n).setO Obj.XC_LAST_OLD would).setO Obj.XC_STATE 1

/-- The objects of a RESYNC: the numbering, its own records and the count of time captures. -/
theorem State.resyncOne_obj (s : State) (would n : Nat) :
    (s.resyncOne would n).obj = (((s.numbered n).resyncCounts would n).wrapBy 32 Obj.NT_CAPT_CNT 1).obj := rfl

theorem State.resyncOne_keepsButNumbering (s : State) (would n : Nat) : (s.resyncOne would n).keepsButNumbering s := by
  have hcounts (u : State) : (((u.bump Obj.XC_RESYNCS).setO Obj.XC_LAST_RSX n).setO Obj.XC_LAST_OLD would).keepsButObjects u :=
    State.keepsButObjects_setO (State.keepsButObjects_setO (State.keepsButObjects_bump u.keepsButObjects_refl _) _ _) _ _
  have hclock (u : State) (clk : Clock) : State.keepsButNumbering { u with clk := clk } u := rfl
  have hstate (u : State) : (u.setO Obj.XC_STATE 1).keepsButNumbering u := rfl
  have hcapture (u : State) : (u.capture 3).keepsButNumbering u := rfl
  exact State.keepsButNumbering_trans (hcapture _) (State.keepsButNumbering_trans (hstate _)
    (State.keepsButNumbering_trans (hclock _ _) (State.keepsButNumbering_trans
      (State.keepsButNumbering_of_objects (hcounts _)) (s.numbered_keepsButNumbering n))))

theorem State.resyncCounts_records (s : State) (would n : Nat) :
    (s.resyncCounts would n).o Obj.XC_RESYNCS = satAdd 32 (s.o Obj.XC_RESYNCS) 1 ∧
      (s.resyncCounts would n).o Obj.XC_LAST_RSX = n ∧ (s.resyncCounts would n).o Obj.XC_LAST_OLD = would ∧
      (s.resyncCounts would n).o Obj.XC_STATE = 1 := by
  simp (disch := decide) only [State.resyncCounts, State.bump, State.bumpBy, State.o_setO_ne, State.o_setO_self, and_self]

theorem State.resyncCounts_keepsObjects (s : State) (would n : Nat) : (s.resyncCounts would n).keepsObjects s
    [Obj.XC_RESYNCS, Obj.XC_LAST_RSX, Obj.XC_LAST_OLD, Obj.XC_STATE] :=
  State.keepsObjects_setO (State.keepsObjects_setO (State.keepsObjects_setO (State.keepsObjects_bump
    (State.keepsObjects_refl s _) (by simp)) (by simp) _) (by simp) _) (by simp) _

theorem State.o_resyncOne {k : Nat} (s : State) (would n : Nat) (hk : k ≠ Obj.NT_CAPT_CNT) :
    (s.resyncOne would n).o k = ((s.numbered n).resyncCounts would n).o k :=
  (State.o_congr (s.resyncOne_obj would n) k).trans (State.o_setO_ne _ _ hk)

theorem State.resyncOne_records (s : State) (would n : Nat) :
    (s.resyncOne would n).o Obj.XC_RESYNCS = satAdd 32 (s.o Obj.XC_RESYNCS) 1 ∧
      (s.resyncOne would n).o Obj.XC_LAST_RSX = n ∧ (s.resyncOne would n).o Obj.XC_LAST_OLD = would ∧
      (s.resyncOne would n).o Obj.XC_STATE = 1 := by
  obtain ⟨hcount, hnew, hold, hstate⟩ := (s.numbered n).resyncCounts_records would n
  have hkept : (s.numbered n).o Obj.XC_RESYNCS = s.o Obj.XC_RESYNCS := s.numbered_keepsObjects n _ (by decide)
  simp (disch := decide) only [State.o_resyncOne]
  exact ⟨by rw [hcount, hkept], hnew, hold, hstate⟩

theorem State.resyncOne_xc (s : State) (would n : Nat) : (s.resyncOne would n).xc = n :=
  (s.o_resyncOne would n (by decide)).trans
    (((s.numbered n).resyncCounts_keepsObjects would n _ (by decide)).trans (s.numbered_xc n))

theorem State.resyncOne_lostBelow {would : Nat} (hn : n ≠ s.xc) (h : s.o Obj.LB_STATE ≠ 0) :
    (s.resyncOne would n).o Obj.LB_LOSTBELOW = n :=
  (s.o_resyncOne would n (by decide)).trans
    (((s.numbered n).resyncCounts_keepsObjects would n _ (by decide)).trans (State.numbered_lostBelow hn h))

/-- A RESYNC itself counts no command done (log entry 35). -/
theorem State.resyncOne_done (s : State) (would n : Nat) :
    (s.resyncOne would n).o Obj.RG_CMD_DONE = s.o Obj.RG_CMD_DONE :=
  (s.o_resyncOne would n (by decide)).trans (((s.numbered n).resyncCounts_keepsObjects would n _ (by decide)).trans
    (s.numbered_keepsObjects n _ (by decide)))

end Sys2Proof.Machine
end

section
/-! SUPPORT. RESYNC_APPLY and ALIGN_RESYNC_RECEIVE (R336, R411, R412, R414). -/
namespace Sys2Proof.Machine

variable {s : State} {x : Sched} {n : Nat}

/-! ### The number that the tick would have started (R414) -/

theorem State.wouldStart_of_fresh (h : s.clk.resync.map (·.1) ≠ some s.tick) : s.wouldStart = s.xc := by
  unfold State.wouldStart
  cases hr : s.clk.resync with
  | none => rfl
  | some m =>
    rw [hr] at h
    exact if_neg fun e => h (congrArg some e)

theorem State.wouldStart_of_resync {m : Nat × Nat} (hm : m ∈ s.clk.resync) (ht : m.1 = s.tick) : s.wouldStart = m.2 := by
  rw [State.wouldStart, Option.mem_def.mp hm]
  exact if_pos ht

/-! ### RESYNC_APPLY -/

theorem State.resyncApply_hold (h : s.o Obj.PWR_STATE = 4) : s.resyncApply = s := if_pos h

/-- The alignment form has its turn at its tick, after every RESYNC that is due (R412). -/
def State.applyAlignment (s : State) (would : Nat) : State :=
  match s.alignPend with
  | some (t, n) =>
    if t = s.tick ∧ (s.due.all fun c => c.code != 3) = true then State.resyncOne { s with alignPend := none } would n else s
  | none => s

theorem State.resyncApply_eq (hp : s.o Obj.PWR_STATE ≠ 4) : s.resyncApply =
    ((s.dueCmds 3).foldl (fun t c => (t.resyncOne s.wouldStart c.n0).cmdDone) (s.dropDue 3)).applyAlignment s.wouldStart :=
  if_neg hp

theorem State.applyAlignment_none {would : Nat} (h : s.alignPend = none) : s.applyAlignment would = s := by
  simp only [State.applyAlignment, h]

theorem State.applyAlignment_due {would : Nat} (h : s.alignPend = some (s.tick, n)) (hs : s.sched = []) :
    s.applyAlignment would = State.resyncOne { s with alignPend := none } would n := by
  simp [State.applyAlignment, h, State.due_nil hs]

/-- The old number that a RESYNC has recorded stays the record where the alignment form follows it at the same tick. -/
theorem State.applyAlignment_lastOld {would : Nat} (h : s.o Obj.XC_LAST_OLD = would) :
    (s.applyAlignment would).o Obj.XC_LAST_OLD = would := by
  unfold State.applyAlignment
  split
  · split
    · obtain ⟨_, _, hold, _⟩ := State.resyncOne_records { s with alignPend := none } would ‹Nat›
      exact hold
    · exact h
  · exact h

theorem State.resyncApply_idle (hs : s.sched = []) (ha : s.alignPend = none) : s.resyncApply = s := by
  by_cases hp : s.o Obj.PWR_STATE = 4
  · exact State.resyncApply_hold hp
  · rw [State.resyncApply_eq hp, State.dueCmds_nil hs, State.dropDue_nil hs]
    exact State.applyAlignment_none ha

/-- A scheduled RESYNC that has been applied and counted (R348, R411). -/
def State.resyncDone (s : State) (n : Nat) : State := (State.resyncOne { s with sched := [] } s.wouldStart n).cmdDone

theorem State.resyncApply_single (hp : s.o Obj.PWR_STATE ≠ 4) (hs : s.sched = [x]) (ht : x.tick = s.tick) (hc : x.code = 3) :
    s.resyncApply = (s.resyncDone x.n0).applyAlignment s.wouldStart := by
  rw [State.resyncApply_eq hp, State.dueCmds_single hs ht hc, State.dropDue_single hs ht hc]
  rfl

theorem State.resyncApply_alignment (hp : s.o Obj.PWR_STATE ≠ 4) (hs : s.sched = []) (ha : s.alignPend = some (s.tick, n)) :
    s.resyncApply = State.resyncOne { s with alignPend := none } s.wouldStart n := by
  rw [State.resyncApply_eq hp, State.dueCmds_nil hs, State.dropDue_nil hs]
  exact State.applyAlignment_due ha hs

theorem State.resyncDone_frame (s : State) (n : Nat) :
    (s.resyncDone n).keepsButNumbering { s with sched := [] } :=
  State.keepsButNumbering_trans (State.keepsButNumbering_of_objects
    (State.keepsButObjects_setO (State.keepsButObjects_bump (State.keepsButObjects_refl _) _) _ _))
    (State.resyncOne_keepsButNumbering { s with sched := [] } s.wouldStart n)

/-- What the numbering leaves alone, read off the frame. -/
theorem State.keepsButNumbering.fields {t s : State} (h : t.keepsButNumbering s) :
    t.sched = s.sched ∧ t.alignPend = s.alignPend ∧ t.tick = s.tick ∧ t.chans = s.chans ∧ t.keepsMemories s := by
  unfold State.keepsButNumbering at h
  exact ⟨(congrArg State.sched h :), (congrArg State.alignPend h :), (congrArg State.tick h :), (congrArg State.chans h :),
    (congrArg State.spm h :), (congrArg State.rankMem h :), (congrArg State.nvm h :)⟩

theorem State.o_resyncDone {k : Nat} (s : State) (n : Nat) (hk : k ∉ [Obj.RG_CMD_DONE, Obj.RG_CMD_LASTX]) :
    (s.resyncDone n).o k = (State.resyncOne { s with sched := [] } s.wouldStart n).o k :=
  State.cmdDone_keepsObjects _ k hk

theorem State.resyncDone_records (s : State) (n : Nat) :
    (s.resyncDone n).o Obj.XC_RESYNCS = satAdd 32 (s.o Obj.XC_RESYNCS) 1 ∧ (s.resyncDone n).o Obj.XC_LAST_RSX = n ∧
      (s.resyncDone n).o Obj.XC_LAST_OLD = s.wouldStart ∧ (s.resyncDone n).o Obj.XC_STATE = 1 := by
  simp (disch := decide) only [State.o_resyncDone]
  exact State.resyncOne_records { s with sched := [] } s.wouldStart n

theorem State.resyncDone_xc (s : State) (n : Nat) : (s.resyncDone n).xc = n :=
  (s.o_resyncDone n (by decide)).trans (State.resyncOne_xc _ _ _)

theorem State.resyncDone_done (s : State) (n : Nat) :
    (s.resyncDone n).o Obj.RG_CMD_DONE = satAdd 32 (s.o Obj.RG_CMD_DONE) 1 :=
  (State.cmdDone_counts _).trans (by rw [State.resyncOne_done]; rfl)

theorem State.resyncDone_lostBelow (hn : n ≠ s.xc) (h : s.o Obj.LB_STATE ≠ 0) : (s.resyncDone n).o Obj.LB_LOSTBELOW = n :=
  (s.o_resyncDone n (by decide)).trans (State.resyncOne_lostBelow (s := { s with sched := [] }) hn h)

/-! ### ALIGN_RESYNC_RECEIVE (R335, R412) -/

theorem State.alignReceive_down {r : Nat} (h : s.o Obj.RG_LSTATE ≠ 3) : s.alignReceive n r = s := if_pos h

/-- The alignment form goes on to every port in UP, and its number pends for tick u + 32. -/
theorem State.alignReceive_up {r : Nat} (h : s.o Obj.RG_LSTATE = 3) : s.alignReceive n r =
    { s.setO Obj.XC_ALIGN_RES (ofSigned 32 (clipSigned 32 (s.alignTick r).2)) with
      out := s.out ++ s.portsUp.map fun k => Sent.block (.south (portFin k)) 0xA5 (resyncParts 0xFFFFFFFFFFFF n)
      alignPend := some (((s.tick : Int) + (s.alignTick r).1 + 32).toNat, n) } := by
  have hup : ¬ s.o Obj.RG_LSTATE ≠ 3 := fun hne => hne h
  rw [State.alignReceive, if_neg hup, State.forward_all]
  rfl

theorem resyncParts_alignment (n : Nat) : resyncParts 0xFFFFFFFFFFFF n = [2 ^ 50 - 1, 3 * 2 ^ 48 + n] := rfl

end Sys2Proof.Machine
end

section
/-! SUPPORT. O15: the commands of the trigger stream at their tick. -/
namespace Sys2Proof.Machine

variable {s : State} {x : Sched} {c : Ch} {n : Nat}

/-! ### A fire, from its start to its end -/

/-- The state after a fire. -/
def State.fired (s : State) : State := s.fireMet.fireEnd (s.o Obj.FE_TP_PHASE)

/-- The phase after a fire (R65). -/
def State.nextPhase (s : State) : Nat := ofSigned 12 ((s.o Obj.FE_TP_PHASE : Int) + toSigned 16 (s.o Obj.FE_TP_STEP))

theorem State.nextPhase_moves (s : State) :
    ((s.nextPhase : Int) - s.o Obj.FE_TP_PHASE - toSigned 16 (s.o Obj.FE_TP_STEP)) % 4096 = 0 ∧ s.nextPhase < 4096 := by
  have h := ofSigned_twelve ((s.o Obj.FE_TP_PHASE : Int) + toSigned 16 (s.o Obj.FE_TP_STEP))
  rwa [← Int.sub_sub] at h

theorem State.o_fired (s : State) (k : Nat) : s.fired.o k = (s.fireMet.fireCounts s.nextPhase s.tickNumber).o k := by
  have hstep : s.fireMet.o Obj.FE_TP_STEP = s.o Obj.FE_TP_STEP := s.fireMet_keepsObjects _ (by decide)
  have hobj := s.fireMet.fireEnd_obj (s.o Obj.FE_TP_PHASE)
  rw [s.tickNumber_fireMet, hstep] at hobj
  exact State.o_congr hobj k

theorem State.fired_records (s : State) :
    s.fired.o Obj.FE_TP_FIRED = satAdd 32 (s.o Obj.FE_TP_FIRED) 1 ∧ s.fired.o Obj.FE_TP_LASTX = s.tickNumber ∧
      s.fired.o Obj.FE_TP_PHASE = s.nextPhase ∧ s.fired.o Obj.RG_CMD_DONE = satAdd 32 (s.o Obj.RG_CMD_DONE) 1 ∧
      s.fired.o Obj.RG_CMD_LASTX = s.tickNumber := by
  have h := s.fireMet.fireCounts_records s.nextPhase s.tickNumber
  rwa [s.fireMet_keepsObjects _ (by decide), s.fireMet_keepsObjects _ (by decide), ← s.o_fired, ← s.o_fired, ← s.o_fired,
    ← s.o_fired, ← s.o_fired] at h

/-- The end of a fire leaves the duplicates and the probe's record as the probe has met them. -/
theorem State.o_fired_of_met {k : Nat} (s : State)
    (hk : k ∉ [Obj.FE_TP_FIRED, Obj.FE_TP_LASTX, Obj.FE_TP_PHASE, Obj.RG_CMD_DONE, Obj.RG_CMD_LASTX]) :
    s.fired.o k = s.fireMet.o k := (s.o_fired k).trans (State.fireCounts_keepsObjects _ _ _ k hk)

theorem State.fired_keepsObjects (s : State) : s.fired.keepsObjects s
    [Obj.FE_TP_DUP, Obj.FE_TP_FIRED, Obj.FE_TP_LASTX, Obj.FE_TP_PHASE, Obj.RG_CMD_DONE, Obj.RG_CMD_LASTX,
      Obj.PRB_STATE, Obj.PRB_TCROSS, Obj.PRB_TPOS] := by
  intro k hk
  have hend : k ∉ [Obj.FE_TP_FIRED, Obj.FE_TP_LASTX, Obj.FE_TP_PHASE, Obj.RG_CMD_DONE, Obj.RG_CMD_LASTX] := by
    simp only [List.mem_cons] at hk ⊢
    tauto
  have hmet : k ∉ [Obj.FE_TP_DUP, Obj.PRB_STATE, Obj.PRB_TCROSS, Obj.PRB_TPOS] := by
    simp only [List.mem_cons] at hk ⊢
    tauto
  exact (s.o_fired_of_met hend).trans (s.fireMet_keepsObjects k hmet)

/-- A probe that waits in TPULSE mode is triggered by the fire, at half its phase (R75, R76). -/
theorem State.fired_triggers (h : s.fireTriggers = true) :
    s.fired.o Obj.PRB_STATE = 3 ∧ s.fired.o Obj.PRB_TCROSS = s.tickNumber ∧
      s.fired.o Obj.PRB_TPOS = s.o Obj.FE_TP_PHASE / 2 := by
  have hmet : s.fireMet = s.fireStart.prbTriggerAt s.tickNumber (s.o Obj.FE_TP_PHASE / 2) := by
    rw [State.fireMet, State.prbOnFire_triggers (s.fireTriggers_fireStart.trans h), State.tickNumber_fireStart]
  have hrec := s.fireStart.prbTriggerAt_records s.tickNumber (s.o Obj.FE_TP_PHASE / 2)
  rw [← hmet] at hrec
  simp (disch := decide) only [State.o_fired_of_met]
  exact hrec

/-- Any other probe keeps its record. -/
theorem State.fired_waits (h : s.fireTriggers = false) :
    s.fired.o Obj.PRB_STATE = s.o Obj.PRB_STATE ∧ s.fired.o Obj.PRB_TCROSS = s.o Obj.PRB_TCROSS ∧
      s.fired.o Obj.PRB_TPOS = s.o Obj.PRB_TPOS := by
  have hmet (k : Nat) (hk : k ≠ Obj.FE_TP_DUP) : s.fireMet.o k = s.o k :=
    (State.o_prbOnFire_waits (s.fireTriggers_fireStart.trans h) k).trans (s.o_fireStart hk)
  simp (disch := decide) only [State.o_fired_of_met, hmet, and_self]

/-- Nothing but objects, channels, scheduler, fast-OR and probe differs from s. -/
def State.keepsButFire (t s : State) : Prop :=
  { t with obj := s.obj, chans := s.chans, sched := s.sched, fastOr := s.fastOr, probe := s.probe } = s

theorem State.keepsButFire_trans {t r : State} (h : r.keepsButFire t) (h' : t.keepsButFire s) : r.keepsButFire s := by
  have hr := congrArg (fun v : State => { v with
    obj := s.obj, chans := s.chans, sched := s.sched, fastOr := s.fastOr, probe := s.probe }) h
  exact hr.trans h'

theorem State.fields_of_probeFrame {t : State} (h : { t with obj := s.obj, probe := s.probe } = s) :
    t.sched = s.sched ∧ t.chans = s.chans ∧ t.fastOr = s.fastOr ∧ t.keepsButFire s := by
  have hrest := congrArg (fun v : State => { v with chans := s.chans, sched := s.sched, fastOr := s.fastOr }) h
  exact ⟨(congrArg State.sched h :), (congrArg State.chans h :), (congrArg State.fastOr h :), hrest⟩

theorem State.fields_of_fastOrFrame {t : State} {f : FastOr} (h : { t with obj := s.obj } = { s with fastOr := f }) :
    t.sched = s.sched ∧ t.chans = s.chans ∧ t.fastOr = f ∧ t.keepsButFire s := by
  have hrest := congrArg (fun v : State => { v with
    chans := s.chans, sched := s.sched, fastOr := s.fastOr, probe := s.probe }) h
  exact ⟨(congrArg State.sched h :), (congrArg State.chans h :), (congrArg State.fastOr h :), hrest⟩

theorem State.fireStart_keepsButFire (s : State) : s.fireStart.keepsButFire s := by
  have hfire (u : State) (l : List Sched) (v : Vector Chan 128) : State.keepsButFire { u with sched := l, chans := v } u := rfl
  have hcount (k d : Nat) : (s.bumpBy k d).keepsButFire s := rfl
  exact State.keepsButFire_trans (hfire _ _ _) (hcount _ _)

/-- A fire takes its commands, injects, and marks its crossing; beside the objects and the probe nothing else changes. -/
theorem State.fired_fields (s : State) :
    s.fired.sched = s.dropTpulses.sched ∧ s.fired.chans = (s.inject (s.o Obj.FE_TP_PHASE)).chans ∧
      s.fired.fastOr = { s.fastOr with tpf := true } ∧ s.fired.keepsButFire s := by
  obtain ⟨hsched, hchans, hfast, hkeep⟩ := State.fields_of_probeFrame (s.fireStart.prbOnFire_frame (s.o Obj.FE_TP_PHASE))
  obtain ⟨hsched', hchans', hfast', hkeep'⟩ := State.fields_of_fastOrFrame (s.fireMet.fireEnd_frame (s.o Obj.FE_TP_PHASE))
  refine ⟨hsched'.trans hsched, hchans'.trans hchans, hfast'.trans ?_,
    State.keepsButFire_trans hkeep' (State.keepsButFire_trans hkeep s.fireStart_keepsButFire)⟩
  exact congrArg (fun f : FastOr => { f with tpf := true }) hfast

/-- The scheduler loses exactly the TPULSE commands of the tick (R67). -/
theorem State.dropTpulses_sched (s : State) :
    s.dropTpulses.sched = s.sched.filter fun x => ¬ (x.code = 1 ∧ x.tick = s.tick) :=
  List.filter_congr fun x _ => by simp [Bool.beq_eq_decide_eq]

theorem State.tpulses_eq (s : State) : s.tpulses = s.sched.filter fun x => x.code = 1 ∧ x.tick = s.tick := by
  rw [State.tpulses, State.due, List.filter_filter]
  exact List.filter_congr fun x _ => by simp [Bool.beq_eq_decide_eq]

/-- Settles O15: a fire runs through its start, the probe's and its end; TURN and RESYNC by the one command that is due. -/
theorem testPulsesTurnsAndResyncsActAtTheirTick : Obligations.TestPulsesTurnsAndResyncsActAtTheirTick := by
  refine ⟨fun c s ha => ⟨fun h => ?idle, fun hturn hhold => ?fire⟩, fun x n r s ha =>
    ⟨fun h => ?hold, fun hs => ?none, fun hp hs ht => ⟨fun hc hon => ?turn, fun hc hoff => ?phaseError,
      fun hc hpend hfresh => ?resync⟩, fun hp hs hpend hfresh => ?alignment, fun hp hs ht hc m hm hmt => ?oldNumber,
      fun hup => ?received, fun hdown => ?down⟩⟩
  case idle => exact exec_of_awake ha rfl (State.tpulseFire_idle h)
  case fire =>
    obtain ⟨hfired, hlast, hphase, hdone, hdoneX⟩ := s.fired_records
    obtain ⟨hmoves, hsmall⟩ := s.nextPhase_moves
    obtain ⟨hsched, hchans, hfast, hrest⟩ := s.fired_fields
    have hchan : s.fired.chan c = (s.inject (s.o Obj.FE_TP_PHASE)).chan c := congrArg (Vector.get · c) hchans
    refine ⟨s.fired, exec_of_awake ha rfl (State.tpulseFire_of_turn hturn hhold), ?_, ?_, hfired, hlast, hdone, hdoneX, ?_, ?_,
      hfast, fun hen hon => ?_, fun hoff => ?_, ?_, fun hstate hmode => ?_, fun hno => ?_,
      s.fired_keepsObjects, hrest⟩
    · exact hsched.trans s.dropTpulses_sched
    · rw [← s.tpulses_eq]
      exact (s.o_fired_of_met (by decide)).trans s.fireMet_duplicates
    · rwa [hphase]
    · rwa [hphase]
    · rw [hchan]
      exact State.inject_armed (by simp [State.armed, hen, hon])
    · rw [hchan]
      exact State.inject_unarmed (by rcases hoff with h | h <;> simp [State.armed, h])
    · rw [hchan, State.chan_inject]
    · exact State.fired_triggers (by simp [State.fireTriggers, hstate, hmode])
    · exact State.fired_waits (by rcases hno with h | h <;> simp [State.fireTriggers, h])
  case hold =>
    exact ⟨exec_of_awake ha rfl (State.turnCheck_hold h), exec_of_awake ha rfl (State.resyncApply_hold h)⟩
  case none =>
    exact ⟨exec_of_awake ha rfl (State.turnCheck_nil hs), fun hpend => exec_of_awake ha rfl (State.resyncApply_idle hs hpend)⟩
  case turn =>
    have hturn : s.turnCheck = State.cmdDone { s with sched := [] } :=
      (State.turnCheck_single hp hs ht hc).trans (State.turnOne_onPhase (s := { s with sched := [] }) hon)
    refine exec_of_awake ha rfl (hturn.trans ?_)
    rw [State.cmdDone, State.tickNumber_withoutSingle hs (by omega)]
    rfl
  case phaseError =>
    have hturn := (State.turnCheck_single hp hs ht hc).trans (State.turnOne_offPhase (s := { s with sched := [] }) hoff)
    obtain ⟨herr, hdone⟩ := State.phaseReported_counts { s with sched := [] } x.tgt
    have hkeep := State.phaseReported_keepsButReport { s with sched := [] } x.tgt
    exact ⟨_, exec_of_awake ha rfl hturn, hkeep.sched, herr, State.phaseReported_unconfirmed _ _,
      State.reportPhase_latches _, hdone, State.phaseReported_xc _ _,
      fun hhalf hlt => (State.o_phaseReported _ _ (by decide)).trans (State.phaseError_residue hhalf hlt),
      hkeep.of_unscheduled⟩
  case resync =>
    have happly := (State.resyncApply_single hp hs ht hc)
    obtain ⟨hsched, hpend', htick, hchans, hmem⟩ := (s.resyncDone_frame x.n0).fields
    rw [State.applyAlignment_none (hpend'.trans hpend)] at happly
    obtain ⟨hcount, hnew, hold, hstate⟩ := s.resyncDone_records x.n0
    exact ⟨_, exec_of_awake ha rfl happly, hsched, s.resyncDone_xc x.n0, hcount, hnew,
      hold.trans (State.wouldStart_of_fresh hfresh), hstate, s.resyncDone_done x.n0,
      fun hn hlb => State.resyncDone_lostBelow hn hlb, htick, hmem, hchans⟩
  case alignment =>
    have hframe := State.resyncOne_keepsButNumbering { s with alignPend := none } s.wouldStart n.toNat
    obtain ⟨_, hnone, _, _, _⟩ := hframe.fields
    obtain ⟨hcount, _, hold, hstate⟩ := State.resyncOne_records { s with alignPend := none } s.wouldStart n.toNat
    exact ⟨_, exec_of_awake ha rfl (State.resyncApply_alignment hp hs hpend), hnone, State.resyncOne_xc _ _ _, hcount,
      hold.trans (State.wouldStart_of_fresh hfresh), hstate, State.resyncOne_done _ _ _⟩
  case oldNumber =>
    obtain ⟨_, _, hold, _⟩ := s.resyncDone_records x.n0
    exact ⟨_, exec_of_awake ha rfl (State.resyncApply_single hp hs ht hc),
      (State.applyAlignment_lastOld hold).trans (State.wouldStart_of_resync hm hmt)⟩
  case received =>
    exact ⟨_, exec_of_awake ha rfl (State.alignReceive_up hup), rfl, by rw [resyncParts_alignment],
      State.keepsObjects_setO (State.keepsObjects_refl s _) (by simp) _, rfl⟩
  case down => exact exec_of_awake ha rfl (State.alignReceive_down hdown)

end Sys2Proof.Machine
end

section
/-! SUPPORT. The end of a hit: its record, a fall, the saturation, and the energy edges (R54, R56, R92 to R97, R121). -/
namespace Sys2Proof.Machine

variable {s : State} {c : Ch} {h : Hit} {k word : Nat}

/-! ### The record and the chain (R97, R121, R123) -/

/-- A verdict on a waiting start touches the calibration's histograms alone (R101). -/
theorem State.calVerdict_eq (s : State) (c : Ch) (h : Hit) : ∃ u, s.calVerdict c h = { s with calUnit := u } := by
  unfold State.calVerdict
  split
  · split
    · exact ⟨_, rfl⟩
    · exact ⟨s.calUnit, rfl⟩
  · exact ⟨s.calUnit, rfl⟩

/-- The state once a hit has been counted and its record has joined the chain of its channel. -/
def State.recorded (s : State) (c : Ch) (h : Hit) (tot : Nat) (saturated : Bool) : State :=
  (s.wrapBy 48 (Obj.CH_HITS c) 1).setChan c { s.chan c with chain := (s.chan c).chain ++
    [{ word := hitRecord c h.toa tot (h.dt h.toa) h.te.isSome saturated false h.tpulse (s.o (Obj.CH_HITS c)),
       tag := h.tick % 128 }] }

theorem State.passHit_room {tot : Nat} {saturated : Bool} (hdata : h.data = true) (hroom : (s.chan c).chain.length < 4) :
    s.passHit c h h.toa tot saturated false = s.recorded c h tot saturated := by
  unfold State.passHit
  rw [if_pos hdata]
  exact if_pos hroom

theorem State.chan_recorded_self (s : State) (c : Ch) (h : Hit) (tot : Nat) (saturated : Bool) :
    (s.recorded c h tot saturated).chan c = { s.chan c with chain := (s.chan c).chain ++
      [{ word := hitRecord c h.toa tot (h.dt h.toa) h.te.isSome saturated false h.tpulse (s.o (Obj.CH_HITS c)),
         tag := h.tick % 128 }] } :=
  State.chan_setChan_self _ c _

theorem State.chan_recorded_ne (s : State) {d : Ch} (hd : d ≠ c) (h : Hit) (tot : Nat) (saturated : Bool) :
    (s.recorded c h tot saturated).chan d = s.chan d :=
  State.chan_setChan_ne _ _ hd

/-- A channel that is not closing stays as the end of its hit left it (R60). -/
theorem State.afterHit_open (hopen : (s.chan c).closing = false) : s.afterHit c = s := by simp [State.afterHit, hopen]

/-! ### A fall (R92 to R95) -/

/-- Bounds on the stop time are bounds on the width in units of eight bins (R92, R93). -/
theorem width_bounds {toa stop m : Nat} (hmin : toa + 8 * max 1 m ≤ stop) (hmax : stop < toa + 8 * 4095) :
    ¬(stop - toa) / 8 > 4094 ∧ ¬(stop - toa) / 8 < m ∧ ¬stop < toa + 2 := by omega

theorem State.completeHit_measured {stop : Nat} (hmin : h.toa + 8 * max 1 (h.minw % 256) ≤ stop)
    (hmax : stop < h.toa + 8 * 4095) :
    ∃ u, s.completeHit c h stop false = { s with calUnit := u }.passHit c h h.toa ((stop - h.toa) / 8) false false := by
  obtain ⟨hlong, hnarrow, hshort⟩ := width_bounds hmin hmax
  obtain ⟨u, hu⟩ := s.calVerdict_eq c h
  refine ⟨u, ?_⟩
  unfold State.completeHit
  simp [hlong, hnarrow, hshort, hu]

/-- A stop at the start itself is narrow; with TDC_MINW bit 15 the hit is counted and discarded (R94). -/
theorem State.completeHit_discards {unresolved : Bool} (hdiscard : h.minw.testBit 15 = true) :
    ∃ u, s.completeHit c h h.toa unresolved = { s with calUnit := u }.bump (Obj.CH_NARROW c) := by
  obtain ⟨u, hu⟩ := s.calVerdict_eq c h
  refine ⟨u, ?_⟩
  unfold State.completeHit
  simp [bit, hdiscard, hu]

/-- A channel whose timing discriminator has gone Low and whose hit has ended. -/
def Chan.fallen (x : Chan) : Chan := { x with timing := .low, hit := none }

/-- The record of a hit that has ended joins a channel that is idle. -/
theorem State.chan_recorded_fallen (s : State) (c : Ch) (u : CalUnit) (h : Hit) (tot : Nat) (saturated : Bool) :
    (State.recorded { s.setChan c (s.chan c).fallen with calUnit := u } c h tot saturated).chan c =
      { s.chan c with timing := .low, hit := none, chain := (s.chan c).chain ++
        [{ word := hitRecord c h.toa tot (h.dt h.toa) h.te.isSome saturated false h.tpulse (s.o (Obj.CH_HITS c)),
           tag := h.tick % 128 }] } := by
  have hchan : State.chan { s.setChan c (s.chan c).fallen with calUnit := u } c = (s.chan c).fallen :=
    State.chan_setChan_self s c _
  rw [State.chan_recorded_self, hchan]
  rfl

theorem State.timingFall_orphan (hhigh : (s.chan c).timing = .high) (hrun : s.o Obj.TDC_STATE = 2) (hhit : (s.chan c).hit = none) :
    s.timingFall c k word = (s.setChan c { s.chan c with timing := .low }).bump (Obj.CH_ORPHAN c) := by
  have hruns (x : Chan) : (s.setChan c x).tdcRuns = true := beq_iff_eq.mpr hrun
  simp [State.timingFall, hhigh, hruns, hhit]

/-- A fall ends the hit in progress by the stop that its word shows. -/
theorem State.timingFall_hit (hhigh : (s.chan c).timing = .high) (hrun : s.o Obj.TDC_STATE = 2) (hhit : (s.chan c).hit = some h)
    (hsat : h.saturated = false) : s.timingFall c k word =
      (match stopTap word ((s.chan c).startIn (32 * s.tick + k)) with
        | some p => ((s.setChan c (s.chan c).fallen).lutRead c false p).completeHit c h
            ((32 * (s.tick - h.tick) + k) * 128 + h.lut.getD ((s.setChan c (s.chan c).fallen).lutTap c false p) 0) false
        | none => (s.setChan c (s.chan c).fallen).completeHit c h h.toa
            (decide (32 * (s.tick - h.tick) + k = h.k))).afterHit c := by
  have hruns (x : Chan) : (s.setChan c x).tdcRuns = true := beq_iff_eq.mpr hrun
  unfold State.timingFall
  simp only [hhigh, hruns, hhit, hsat, if_true, Bool.false_eq_true, if_false, State.setChan_setChan]
  rfl

/-- A measured hit is recorded under the tag of its start's tick, and the channel is idle. -/
theorem State.timingFall_measured {tap : Nat} (hhigh : (s.chan c).timing = .high) (hrun : s.o Obj.TDC_STATE = 2)
    (hopen : (s.chan c).closing = false) (hfix : s.lutFix = []) (hroom : (s.chan c).chain.length < 4)
    (hhit : (s.chan c).hit = some h) (htap : stopTap word ((s.chan c).startIn (32 * s.tick + k)) = some tap)
    (hsat : h.saturated = false) (hdata : h.data = true)
    (hmin : h.toa + 8 * max 1 (h.minw % 256) ≤ (32 * (s.tick - h.tick) + k) * 128 + h.lut.getD tap 0)
    (hmax : (32 * (s.tick - h.tick) + k) * 128 + h.lut.getD tap 0 < h.toa + 8 * 4095) :
    ∃ u, s.timingFall c k word = State.recorded { s.setChan c (s.chan c).fallen with calUnit := u } c h
      (((32 * (s.tick - h.tick) + k) * 128 + h.lut.getD tap 0 - h.toa) / 8) false := by
  have hfix' : (s.setChan c (s.chan c).fallen).lutFix = [] := hfix
  obtain ⟨u, hu⟩ := State.completeHit_measured (s := s.setChan c (s.chan c).fallen) (c := c) hmin hmax
  have hchan : State.chan { s.setChan c (s.chan c).fallen with calUnit := u } c = (s.chan c).fallen :=
    State.chan_setChan_self s c _
  refine ⟨u, ?_⟩
  rw [State.timingFall_hit hhigh hrun hhit hsat, htap]
  simp only [State.lutRead_nil hfix', State.lutTap_nil hfix', hu]
  rw [State.passHit_room hdata (by rw [hchan]; exact hroom)]
  refine State.afterHit_open ?_
  rw [State.recorded, State.chan_setChan_self, hchan]
  exact hopen

theorem State.timingFall_discards (hhigh : (s.chan c).timing = .high) (hrun : s.o Obj.TDC_STATE = 2)
    (hopen : (s.chan c).closing = false) (hhit : (s.chan c).hit = some h)
    (hnone : stopTap word ((s.chan c).startIn (32 * s.tick + k)) = none) (hsat : h.saturated = false)
    (hdiscard : h.minw.testBit 15 = true) :
    ∃ u, s.timingFall c k word = State.bump { s.setChan c (s.chan c).fallen with calUnit := u } (Obj.CH_NARROW c) := by
  obtain ⟨u, hu⟩ := State.completeHit_discards (s := s.setChan c (s.chan c).fallen) (c := c) (h := h)
    (unresolved := decide (32 * (s.tick - h.tick) + k = h.k)) hdiscard
  refine ⟨u, ?_⟩
  rw [State.timingFall_hit hhigh hrun hhit hsat, hnone]
  simp only [hu]
  refine State.afterHit_open ?_
  exact (congrArg Chan.closing (State.chan_setChan_self s c (s.chan c).fallen)).trans hopen

/-! ### The saturation (R93) -/

/-- A saturated hit is recorded, and stays with its channel until the real fall. -/
theorem State.totSaturate_due (hopen : (s.chan c).closing = false) (hroom : (s.chan c).chain.length < 4)
    (hhit : (s.chan c).hit = some h) (hsat : h.saturated = false) (hdata : h.data = true)
    (hdue : h.toa + 32760 < 4096 * (s.tick + 1 - h.tick)) :
    ∃ u, s.totSaturate c = (State.recorded { s with calUnit := u } c h 0xFFF true).setChan c
      { (State.recorded { s with calUnit := u } c h 0xFFF true).chan c with
        hit := some { h with saturated := true, calTap := none } } := by
  obtain ⟨u, hu⟩ := s.calVerdict_eq c h
  have hpass : (s.calVerdict c h).passHit c h h.toa 0xFFF true false = State.recorded { s with calUnit := u } c h 0xFFF true := by
    rw [hu]
    exact State.passHit_room hdata hroom
  have hclosing : ((State.recorded { s with calUnit := u } c h 0xFFF true).chan c).closing = false :=
    (congrArg Chan.closing (State.chan_setChan_self _ c _)).trans hopen
  have hsatDue : s.satDue h = true := decide_eq_true hdue
  refine ⟨u, ?_⟩
  simp [State.totSaturate, hhit, hsat, hsatDue, hpass, hclosing]

theorem State.totSaturate_idle (hhit : (s.chan c).hit = none) : s.totSaturate c = s := by simp [State.totSaturate, hhit]

/-! ### Energy edges (R53, R54, R56, R96) -/

theorem State.energyFall_high (h : (s.chan c).energy = .high) : s.energyFall c = s.setChan c { s.chan c with energy := .low } :=
  if_pos h

theorem State.energyFall_else (h : (s.chan c).energy ≠ .high) : s.energyFall c = s := if_neg h

variable {tap : Nat}

theorem State.energyRise_outOfReach (hthr : 240 ≤ s.o (Obj.FE_THR_E c)) : s.energyRise c k tap = s := by
  simp [State.energyRise, State.energyFires, Nat.not_lt.mpr hthr]

/-- A channel whose energy discriminator has gone High. -/
def Chan.energized (x : Chan) : Chan := { x with energy := .high }

/-- The state after a rise of the energy discriminator has been counted in the rate meter: its remainder r and counter n. -/
def State.energyMetered (s : State) (c : Ch) (r n : Nat) : State := s.setChan c ((s.chan c).energized.metered r n)

theorem State.energyMetered_eq (s : State) (c : Ch) :
    ∃ r n, (s.setChan c (s.chan c).energized).meterEdge c 1 = s.energyMetered c r n := by
  obtain ⟨r, n, hm⟩ := State.meterEdge_eq (State.chan_setChan_self s c (s.chan c).energized) 1
  exact ⟨r, n, hm.trans (State.setChan_setChan ..)⟩

/-- The energy time of a rise is given to a hit that has none and has not saturated (R96). -/
def State.timeEnergy (s : State) (c : Ch) (k tap : Nat) (h : Hit) : State :=
  if h.te.isNone && !h.saturated then
    (s.setChan c ((s.chan c).hitting { h with te := some ((32 * (s.tick - h.tick) + k) * 128 +
      2 * h.walk.getD (s.lutTap c true tap) 0) })).lutRead c true tap
  else s

/-- A rise from Low is metered; with the timing discriminator High it is passed to the fast-OR and the walk meter (R56). -/
theorem State.energyRise_low (hthr : s.o (Obj.FE_THR_E c) < 240) (hlow : (s.chan c).energy = .low) (hrun : s.o Obj.TDC_STATE = 2) :
    s.energyRise c k tap =
      let m := (s.setChan c (s.chan c).energized).meterEdge c 1
      if (s.chan c).timing = .high then
        match (s.chan c).hit with | some h => (m.fastorEnergy c).timeEnergy c k tap h | none => m.fastorEnergy c
      else m := by
  have hfires : s.energyFires c = true := decide_eq_true hthr
  have hruns : (s.setChan c (s.chan c).energized).tdcRuns = true := beq_iff_eq.mpr hrun
  unfold State.energyRise
  simp only [hfires, hlow]
  exact if_pos hruns

/-- With the timing discriminator not High a rise is only metered (R56, R112). -/
theorem State.energyRise_alone (hthr : s.o (Obj.FE_THR_E c) < 240) (hlow : (s.chan c).energy = .low)
    (hrun : s.o Obj.TDC_STATE = 2) (htiming : (s.chan c).timing ≠ .high) :
    ∃ r n, s.energyRise c k tap = s.energyMetered c r n := by
  obtain ⟨r, n, hm⟩ := s.energyMetered_eq c
  exact ⟨r, n, (State.energyRise_low hthr hlow hrun).trans ((if_neg htiming).trans hm)⟩

/-- The first rise within a hit gives the hit its energy time (R56, R96). -/
theorem State.energyRise_times (hthr : s.o (Obj.FE_THR_E c) < 240) (hlow : (s.chan c).energy = .low)
    (hrun : s.o Obj.TDC_STATE = 2) (htiming : (s.chan c).timing = .high) (hfix : s.lutFix = [])
    (hhit : (s.chan c).hit = some h) (hte : h.te = none) (hsat : h.saturated = false) :
    ∃ r n f, s.energyRise c k tap = { s with fastOr := f }.setChan c ((((s.chan c).energized).metered r n).hitting
      { h with te := some ((32 * (s.tick - h.tick) + k) * 128 + 2 * h.walk.getD tap 0) }) := by
  obtain ⟨r, n, hm⟩ := s.energyMetered_eq c
  obtain ⟨e, he⟩ := State.fastorEnergy_if (s.energyMetered c r n) c True
  rw [if_pos trivial] at he
  refine ⟨r, n, { s.fastOr with energy := e }, ?_⟩
  rw [State.energyRise_low hthr hlow hrun]
  simp only [hm, if_pos htiming, hhit, he, State.timeEnergy, hte, hsat]
  have hfix' (f : FastOr) : State.lutFix { s.energyMetered c r n with fastOr := f } = [] := hfix
  rw [State.lutTap_nil (hfix' _), State.lutRead_nil (by exact hfix)]
  have hchan (f : FastOr) : State.chan { s.energyMetered c r n with fastOr := f } c = (s.chan c).energized.metered r n :=
    State.chan_setChan_self s c _
  rw [hchan]
  exact State.setChan_setChan { s with fastOr := { s.fastOr with energy := e } } c _ _

end Sys2Proof.Machine
end

section
/-! SUPPORT. The statement on falls, energy edges and saturation. -/
namespace Sys2Proof.Machine

/-- Settles O7: a fall records or discards the hit in progress, and an energy edge or the saturation changes one channel. -/
theorem fallsEnergyEdgesAndSaturationCompleteTheHit : Obligations.FallsEnergyEdgesAndSaturationCompleteTheHit := by
  unfold Obligations.FallsEnergyEdgesAndSaturationCompleteTheHit
  refine ⟨fun c k word s ha => ⟨fun hhigh hrun hhit => ?orphan,
      fun hhigh hrun hopen hfix hroom h hhit tap htap hsat hdata hmin hmax => ?measured,
      fun hhigh hrun hopen hnone h hhit hsat hdiscard => ?narrow,
      fun h => exec_of_awake ha rfl (State.energyFall_high h), fun h => exec_of_awake ha rfl (State.energyFall_else h)⟩,
    fun c k tap s ha => ⟨fun hthr => exec_of_awake ha rfl (State.energyRise_outOfReach hthr),
      fun hthr hlow hrun htiming hfix h hhit hte hsat => ?times, fun hthr hlow hrun htiming => ?alone,
      fun hopen hroom h hhit hsat hdata hdue => ?saturates, fun hhit => exec_of_awake ha rfl (State.totSaturate_idle hhit)⟩⟩
  case orphan =>
    exact ⟨_, exec_of_awake ha rfl (State.timingFall_orphan hhigh hrun hhit), State.chan_setChan_self s c _,
      State.o_bump_self _ _, fun d hd => State.chan_setChan_ne s _ hd, State.keepsObjects_bump (fun _ _ => rfl) (by simp), rfl⟩
  case measured =>
    obtain ⟨u, ht⟩ := State.timingFall_measured hhigh hrun hopen hfix hroom hhit htap hsat hdata hmin hmax
    exact ⟨_, exec_of_awake ha rfl ht, State.chan_recorded_fallen s c u .., State.o_setO_self s _ _,
      fun d hd => (State.chan_recorded_ne _ hd ..).trans (State.chan_setChan_ne s _ hd),
      State.keepsObjects_setO (State.keepsObjects_refl s _) (by simp) _, rfl⟩
  case narrow =>
    obtain ⟨u, ht⟩ := State.timingFall_discards hhigh hrun hopen hhit hnone hsat hdiscard
    exact ⟨_, exec_of_awake ha rfl ht, State.chan_setChan_self s c _, State.o_bump_self _ _,
      fun d hd => State.chan_setChan_ne s _ hd, State.keepsObjects_bump (fun _ _ => rfl) (by simp), rfl⟩
  case times =>
    obtain ⟨r, n, f, ht⟩ := State.energyRise_times (k := k) (tap := tap) hthr hlow hrun htiming hfix hhit hte hsat
    have hchan := State.chan_setChan_self { s with fastOr := f } c ((((s.chan c).energized).metered r n).hitting
      { h with te := some ((32 * (s.tick - h.tick) + k) * 128 + 2 * h.walk.getD tap 0) })
    exact ⟨_, exec_of_awake ha rfl ht, congrArg Chan.energy hchan, congrArg Chan.hit hchan,
      fun d hd => State.chan_setChan_ne { s with fastOr := f } _ hd, fun _ _ => rfl, rfl⟩
  case alone =>
    obtain ⟨r, n, ht⟩ := State.energyRise_alone (k := k) (tap := tap) hthr hlow hrun htiming
    have hchan := State.chan_setChan_self s c ((s.chan c).energized.metered r n)
    exact ⟨_, exec_of_awake ha rfl ht, congrArg Chan.energy hchan, (congrArg Chan.hit hchan :),
      fun d hd => State.chan_setChan_ne s _ hd, rfl⟩
  case saturates =>
    obtain ⟨u, ht⟩ := State.totSaturate_due hopen hroom hhit hsat hdata hdue
    have hchan := State.chan_recorded_self { s with calUnit := u } c h 0xFFF true
    refine ⟨_, exec_of_awake ha rfl ht, (State.chan_setChan_self _ c _).trans (congrArg (Chan.hitting · _) hchan),
      State.o_setO_self s _ _, fun d hd => (State.chan_setChan_ne _ _ hd).trans (State.chan_recorded_ne _ hd ..),
      State.keepsObjects_setO (State.keepsObjects_refl s _) (by simp) _, rfl⟩

end Sys2Proof.Machine
end

section
/-! SUPPORT. The end of a rate gate, and a LUT written by the host (R90, R110, R113, R114, R268, R466). -/
namespace Sys2Proof.Machine

variable {s : State} {c : Ch} {k : Nat}

/-! ### The rates latch (R113, R114) -/

/-- The numbers of the channels, as the statements list them. -/
theorem chKeys_subset (f : Nat → Nat) : (allCh.map fun d : Ch => f d) ⊆ List.map f (do let a ← allCh; pure a.val) := by
  intro k hk
  obtain ⟨d, hd, rfl⟩ := List.mem_map.mp hk
  exact List.mem_map_of_mem (List.mem_flatMap.mpr ⟨d, hd, List.mem_singleton_self _⟩)

theorem chRate_injective : Function.Injective fun c : Ch => Obj.CH_RATE c := by
  intro c d (h : Obj.CH_RATE c = Obj.CH_RATE d)
  simp only [Obj.CH_RATE, objKey] at h
  exact Fin.ext (by omega)

/-- The rate of each listed channel takes its count. -/
def State.latchRates (s : State) (l : List Ch) : State := l.foldl (fun t (c : Ch) => t.setO (Obj.CH_RATE c) (t.chan c).rmCnt) s

theorem State.latchRates_keepsButObjects (s : State) (l : List Ch) : (s.latchRates l).keepsButObjects s := by
  induction l generalizing s with
  | nil => exact s.keepsButObjects_refl
  | cons c l ih => exact State.keepsButObjects_trans (ih (s.setO (Obj.CH_RATE c) (s.chan c).rmCnt)) s.keepsButObjects_refl

theorem State.latchRates_keepsObjects (s : State) (l : List Ch) :
    (s.latchRates l).keepsObjects s (l.map fun c : Ch => Obj.CH_RATE c) := by
  induction l generalizing s with
  | nil => exact State.keepsObjects_refl s _
  | cons c l ih =>
    exact State.keepsObjects_trans (State.keepsObjects_mono (ih (s.setO (Obj.CH_RATE c) (s.chan c).rmCnt)) (by simp))
      (State.keepsObjects_setO (State.keepsObjects_refl s _) (by simp) _)

theorem State.o_latchRates {l : List Ch} (h : c ∈ l) : (s.latchRates l).o (Obj.CH_RATE c) = (s.chan c).rmCnt := by
  induction l generalizing s with
  | nil => cases h
  | cons d l ih =>
    by_cases hc : c ∈ l
    · exact ih (s := s.setO (Obj.CH_RATE d) (s.chan d).rmCnt) hc
    · obtain rfl : c = d := (List.mem_cons.mp h).resolve_right hc
      have hout : Obj.CH_RATE c ∉ l.map fun c : Ch => Obj.CH_RATE c :=
        fun hmem => hc ((List.mem_map_of_injective chRate_injective).mp hmem)
      exact (State.latchRates_keepsObjects (s.setO (Obj.CH_RATE c) (s.chan c).rmCnt) l _ hout).trans (s.o_setO_self _ _)

theorem notMem_rateKeys (h : k < objKey 0x2000 0 ∨ objKey 0x2080 0 ≤ k) : k ∉ allCh.map fun c : Ch => Obj.CH_RATE c := by
  intro hmem
  obtain ⟨c, -, rfl⟩ := List.mem_map.mp hmem
  simp only [Obj.CH_RATE, objKey] at h
  omega

/-- An object that is no channel's reads after the latch as before. -/
theorem State.o_latchRates_other (h : k < objKey 0x2000 0 ∨ objKey 0x2080 0 ≤ k) : (s.latchRates allCh).o k = s.o k :=
  s.latchRates_keepsObjects allCh k (notMem_rateKeys h)

/-! ### The end of a gate -/

/-- What the end of a gate brings once its rates have latched: it is counted, with the crossing it came at, the channels are
v, and the next gate runs. -/
def State.gateClosed (s : State) (v : Vector Chan 128) : State :=
  let t : State := { s with chans := v }
  let u := (t.wrapBy 32 Obj.TDC_RM_SEQ 1).setO Obj.TDC_RM_LASTX t.xc
  { u with rmGate := u.rmGate + u.o Obj.TDC_RM_GATE }

theorem State.gateClosed_keepsObjects (s : State) (v : Vector Chan 128) :
    (s.gateClosed v).keepsObjects s [Obj.TDC_RM_SEQ, Obj.TDC_RM_LASTX] :=
  State.keepsObjects_setO (State.keepsObjects_setO (State.keepsObjects_refl s _) (by simp) _) (by simp) _

theorem State.gateClosed_records (s : State) (v : Vector Chan 128) :
    (s.gateClosed v).o Obj.TDC_RM_SEQ = (s.o Obj.TDC_RM_SEQ + 1) % 2 ^ 32 ∧
    (s.gateClosed v).o Obj.TDC_RM_LASTX = s.xc ∧ (s.gateClosed v).rmGate = s.rmGate + s.o Obj.TDC_RM_GATE := by
  refine ⟨(State.o_setO_ne _ _ (by decide)).trans (State.o_setO_self s _ _), State.o_setO_self _ _ _, ?_⟩
  exact congrArg (s.rmGate + ·) ((State.o_setO_ne _ _ (by decide)).trans (State.o_setO_ne s _ (by decide)))

/-- Every counter of the rate meters is clear. -/
def State.countsCleared (s : State) : State := s.mapChans fun _ x => { x with rmCnt := 0 }

/-- A gate has ended: its rates have latched, the counters are clear, and the next gate runs. -/
def State.gateEnded (t s : State) : Prop :=
  (∀ d : Ch, t.o (Obj.CH_RATE d) = (s.chan d).rmCnt ∧ t.chan d = { s.chan d with rmCnt := 0 }) ∧
    t.o Obj.TDC_RM_SEQ = (s.o Obj.TDC_RM_SEQ + 1) % 2 ^ 32 ∧ t.o Obj.TDC_RM_LASTX = s.xc ∧
    t.rmGate = s.rmGate + s.o Obj.TDC_RM_GATE ∧
    t.keepsObjects s (Obj.TDC_RM_SEQ :: Obj.TDC_RM_LASTX :: allCh.map fun d : Ch => Obj.CH_RATE d) ∧
    { t with obj := s.obj, chans := s.chans, rmGate := s.rmGate } = s

theorem State.gateClosed_ended {l : State} {v : Vector Chan 128} (hv : ∀ d : Ch, v.get d = { s.chan d with rmCnt := 0 })
    (hobj : l.keepsObjects s (allCh.map fun d : Ch => Obj.CH_RATE d))
    (hrate : ∀ d : Ch, l.o (Obj.CH_RATE d) = (s.chan d).rmCnt) (hframe : l.keepsButObjects s) : (l.gateClosed v).gateEnded s := by
  have hother (k : Nat) (h : k < objKey 0x2000 0 ∨ objKey 0x2080 0 ≤ k) : l.o k = s.o k := hobj k (notMem_rateKeys h)
  have hstart : l.rmGate = s.rmGate := (congrArg State.rmGate hframe :)
  obtain ⟨hseq, hlast, hgate⟩ := l.gateClosed_records v
  have hxc : l.xc = s.xc := hother Obj.XC_COUNT (by decide)
  rw [hother _ (by decide)] at hseq
  rw [hother _ (by decide), hstart] at hgate
  refine ⟨fun d => ⟨?_, hv d⟩, hseq, hlast.trans hxc, hgate, ?_, ?_⟩
  · have hkey : Obj.CH_RATE d ∉ [Obj.TDC_RM_SEQ, Obj.TDC_RM_LASTX] := by
      simp [Obj.CH_RATE, Obj.TDC_RM_SEQ, Obj.TDC_RM_LASTX, objKey]
      omega
    exact (l.gateClosed_keepsObjects _ _ hkey).trans (hrate d)
  · intro k hk
    simp only [List.mem_cons, not_or] at hk
    obtain ⟨hkseq, hklast, hkrate⟩ := hk
    exact (l.gateClosed_keepsObjects _ k (by simp [hkseq, hklast])).trans (hobj k hkrate)
  · exact congrArg (fun t : State => { t with chans := s.chans, rmGate := s.rmGate }) hframe

theorem State.gateEnded_latchRates (s : State) :
    ((s.latchRates allCh).gateClosed (s.latchRates allCh).countsCleared.chans).gateEnded s := by
  have hframe := s.latchRates_keepsButObjects allCh
  have hobj := s.latchRates_keepsObjects allCh
  have hrate (d : Ch) : (s.latchRates allCh).o (Obj.CH_RATE d) = (s.chan d).rmCnt := State.o_latchRates (List.mem_finRange d)
  generalize s.latchRates allCh = l at hframe hobj hrate
  have hchans : l.chans = s.chans := (congrArg State.chans hframe :)
  refine State.gateClosed_ended (fun d => (State.chan_mapChans l _ d).trans ?_) hobj hrate hframe
  rw [State.chan, hchans]
  rfl

theorem State.rateReading_of_gateEnded {t : State} (h : t.gateEnded s) : t.rateReading = s.rateReading := by
  obtain ⟨-, -, -, -, -, hframe⟩ := h
  have hcufel : t.cufel = s.cufel := (congrArg State.cufel hframe :)
  rw [State.rateReading, hcufel, State.rateReading]

theorem State.rmGateEnd_idle (h : s.o Obj.TDC_RM_STATE ≠ 1 ∨ s.tick < s.rmGate + s.o Obj.TDC_RM_GATE) : s.rmGateEnd = s :=
  if_neg (by omega)

/-- The rates of a gate that ends during a read of the copy wait for the end of that read, else they are copied (R268). -/
theorem State.rmGateEnd_ends (hrun : s.o Obj.TDC_RM_STATE = 1) (hdue : s.rmGate + s.o Obj.TDC_RM_GATE ≤ s.tick) :
    ∃ t : State, t.gateEnded s ∧ s.rmGateEnd = if s.rateReading then
        { t with cmp := { t.cmp with ratePend := some (allCh.map (fun d => (s.chan d).rmCnt), t.o Obj.TDC_RM_SEQ) } }
      else t.rateCopy (allCh.map fun d => (s.chan d).rmCnt) (t.o Obj.TDC_RM_SEQ) := by
  refine ⟨_, s.gateEnded_latchRates, ?_⟩
  rw [← State.rateReading_of_gateEnded s.gateEnded_latchRates]
  exact if_pos ⟨hrun, hdue⟩

/-! ### A LUT written by the host (R90, R110, R466, R468) -/

variable {q : Req} {l : List Byte} {check : Status} {effect : State} {len : Nat}

theorem State.hostBlockWrite_expert (h : s.isExpert q = false) :
    s.hostBlockWrite q k len true check effect = s.respond q 0x04 .expertRequired (blockBody k 0 0 0) := by
  simp [State.hostBlockWrite, h]

theorem State.hostBlockWrite_refused (h : s.isExpert q = true) (hc : check ≠ .ok) :
    s.hostBlockWrite q k len true check effect = s.respond q 0x04 check (blockBody k 0 0 0) := by
  simp only [State.hostBlockWrite, h, Bool.not_true, Bool.and_false, Bool.false_eq_true, if_false]

theorem State.hostBlockWrite_accepted (h : s.isExpert q = true) :
    s.hostBlockWrite q k len true .ok effect = effect.respond q 0x04 .ok (blockBody k 2 len len) := by
  simp [State.hostBlockWrite, h]

theorem hostLutCheck_length (h : l.length ≠ 160) : hostLutCheck l = .length := if_pos h

theorem hostLutCheck_outOfRange (h : l.length = 160) (hv : lutValid (l.map BitVec.toNat) = false) :
    hostLutCheck l = .outOfRange := by
  simp [hostLutCheck, h, hv]

theorem hostLutCheck_ok (h : l.length = 160) (hv : lutValid (l.map BitVec.toNat) = true) : hostLutCheck l = .ok := by
  simp [hostLutCheck, h, hv]

theorem tdcLutWrite_exec (hs : s.servedFor q = true) (c : Ch) (l : List Byte) : exec (.tdcLutWrite q c l) s =
    .next (s.hostBlockWrite q (Obj.TDC_LUT c) l.length true (hostLutCheck l) (s.hostLut c l)) :=
  congrArg Host.Outcome.next (State.ifRequest_of hs)

theorem tdcLutWrite_refused (hs : s.servedFor q = true) (hq : s.isExpert q = true) (hc : hostLutCheck l ≠ .ok) :
    Runs (.tdcLutWrite q c l) s (·.onlyAnswered s q 0x04 (hostLutCheck l) (blockBody (Obj.TDC_LUT c) 0 0 0)) := by
  refine ⟨_, tdcLutWrite_exec hs c l, ?_⟩
  rw [State.hostBlockWrite_refused hq hc]
  exact State.respond_only ..

/-- What a response leaves of the state it answers from: the objects but the alive counters, and all but the server's part. -/
theorem State.respond_keeps (s : State) (q : Req) (m : Nat) (st : Status) (b : List Byte) :
    (s.respond q m st b).keepsObjects s [Obj.CHK_ALIVE_TXN, Obj.CHK_ALIVE_TXC] ∧
    { s.respond q m st b with obj := s.obj, cufel := s.cufel } = s :=
  (State.respond_only s q m st b).2

/-- The channel as a host LUT leaves it: the LUT pends with the TAPS in force, in the place of a computed one (R110). -/
def State.lutHosted (s : State) (c : Ch) (l : List Byte) : Chan :=
  { s.chan c with
    pend := none
    host := some { lut := l.map BitVec.toNat, walk := none, taps := bits (s.o (Obj.CH_STATUS c)) 15 8, src := 1,
                   madeTick := s.tick, applied := none }
    cal := if (s.chan c).cal = .pending then .wait else (s.chan c).cal }

theorem State.hostLut_eq (s : State) (c : Ch) (l : List Byte) :
    s.hostLut c l = (s.setChan c (s.lutHosted c l)).setOb (Obj.CH_STATUS c) 2 true := rfl

theorem chStatus_notMem_alive (c : Ch) : Obj.CH_STATUS c ∉ [Obj.CHK_ALIVE_TXN, Obj.CHK_ALIVE_TXC] := by
  simp [Obj.CH_STATUS, Obj.CHK_ALIVE_TXN, Obj.CHK_ALIVE_TXC, objKey]
  omega

end Sys2Proof.Machine
end

section
/-! SUPPORT. The statement on the end of a rate gate and on a LUT written by the host. -/
namespace Sys2Proof.Machine

/-- Settles O10: the end of a gate latches by channel, and a host LUT replaces one channel's waiting LUTs. -/
theorem aGateEndLatchesTheRatesAndAHostLutPends : Obligations.AGateEndLatchesTheRatesAndAHostLutPends := by
  unfold Obligations.AGateEndLatchesTheRatesAndAHostLutPends
  intro c l q s
  refine ⟨fun ha hrun hdue hread => ?reading, fun ha hrun hdue hread => ?copied,
    fun ha h => exec_of_awake ha rfl (State.rmGateEnd_idle h), fun hs hq => ?expert, fun hs hq hlen => ?length,
    fun hs hq hlen hval => ?outOfRange, fun hs hq hlen hval => ?accepted⟩
  case reading =>
    obtain ⟨t, ⟨hrates, hseq, -, -, hobj, hframe⟩, ht⟩ := State.rmGateEnd_ends hrun hdue
    rw [hread, if_pos rfl] at ht
    have hcmp : t.cmp = s.cmp := (congrArg State.cmp hframe :)
    refine ⟨_, exec_of_awake ha rfl ht, hrates, hseq, (congrArg State.rateHist hframe :), ?_, ?_, ?_⟩
    · rw [hcmp]
      rfl
    · exact State.keepsObjects_mono hobj (List.cons_subset_cons _ (List.cons_subset_cons _ (chKeys_subset Obj.CH_RATE)))
    · exact congrArg (fun u : State => { u with cmp := s.cmp }) hframe
  case copied =>
    obtain ⟨t, ⟨hrates, hseq, hlast, hgate, hobj, hframe⟩, ht⟩ := State.rmGateEnd_ends hrun hdue
    rw [hread, if_neg Bool.false_ne_true] at ht
    have hcmp : t.cmp = s.cmp := (congrArg State.cmp hframe :)
    have hrate (d : Ch) : Obj.CH_RATE d ≠ Obj.CMP_RATEHIST_SEQ := by
      simp only [Obj.CH_RATE, Obj.CMP_RATEHIST_SEQ, objKey]
      omega
    have hcopySeq : (t.rateCopy (allCh.map fun d => (s.chan d).rmCnt) (t.o Obj.TDC_RM_SEQ)).o Obj.TDC_RM_SEQ = t.o Obj.TDC_RM_SEQ :=
      State.o_setO_ne t _ (by decide)
    refine ⟨_, exec_of_awake ha rfl ht, fun d => ⟨(State.o_setO_ne t _ (hrate d)).trans (hrates d).1, (hrates d).2⟩,
      hcopySeq.trans hseq, (State.o_setO_self t _ _).trans hcopySeq.symm, (State.o_setO_ne t _ (by decide)).trans hlast, hgate,
      rfl, ?_, ?_, ?_⟩
    · exact State.keepsObjects_setO (State.keepsObjects_mono hobj (List.cons_subset_cons _ (List.cons_subset_cons _
        (List.subset_cons_of_subset _ (chKeys_subset Obj.CH_RATE))))) (by simp) _
    · rw [← hcmp]
      rfl
    · exact congrArg (fun u : State => { u with rateHist := s.rateHist, cmp := s.cmp }) hframe
  case expert =>
    refine ⟨_, tdcLutWrite_exec hs c l, ?_⟩
    rw [State.hostBlockWrite_expert hq]
    exact State.respond_only ..
  case length =>
    have hc := hostLutCheck_length hlen
    exact hc ▸ tdcLutWrite_refused (c := c) hs hq (by simp [hc])
  case outOfRange =>
    have hc := hostLutCheck_outOfRange hlen hval
    exact hc ▸ tdcLutWrite_refused (c := c) hs hq (by simp [hc])
  case accepted =>
    obtain ⟨hobj, hframe⟩ := (s.hostLut c l).respond_keeps q 0x04 .ok (blockBody (Obj.TDC_LUT c) 2 160 160)
    have hchan (d : Ch) : ((s.hostLut c l).respond q 0x04 .ok (blockBody (Obj.TDC_LUT c) 2 160 160)).chan d =
        (s.setChan c (s.lutHosted c l)).chan d := 
      congrArg (Vector.get · d) (State.chans_respond ..)
    have ht := tdcLutWrite_exec hs c l
    rw [hostLutCheck_ok hlen hval, hlen, State.hostBlockWrite_accepted hq] at ht
    refine ⟨_, ht, State.respond_answers .., (hchan c).trans (State.chan_setChan_self s c _),
      fun d hd => (hchan d).trans (State.chan_setChan_ne s _ hd), ?_, ?_, ?_⟩
    · exact (State.ob_of_o (hobj _ (chStatus_notMem_alive c))).trans (State.ob_setOb_self _ _ _ _)
    · exact State.keepsObjects_trans (State.keepsObjects_mono hobj (by simp))
        (State.keepsObjects_setOb (State.keepsObjects_refl s _) (by simp) _ _)
    · exact congrArg (fun u : State => { u with obj := s.obj, chans := s.chans }) hframe

end Sys2Proof.Machine
end

section
/-! SUPPORT. Calibration runs: the edges that they count, their random source, and their end (R101 to R104). -/
namespace Sys2Proof.Machine

variable {s t r : State} {c d : Ch} {x : Slot}

/-! ### The slot of a channel -/

theorem State.ch_of_slotOf (h : x ∈ s.slotOf c) : x.ch = c := of_decide_eq_true (List.find?_some h :)

/-- Every slot replaced. -/
def State.mapSlots (s : State) (f : Slot → Slot) : State :=
  { s with calUnit := { s.calUnit with slots := s.calUnit.slots.map f } }

/-- A change that leaves each slot with its channel changes the slot of a channel. -/
theorem State.slotOf_mapSlots {f : Slot → Slot} (hf : ∀ y, (f y).ch = y.ch) (s : State) (c : Ch) :
    (s.mapSlots f).slotOf c = (s.slotOf c).map f := by
  have hsame : (fun y : Slot => decide ((f y).ch = c)) = fun y => decide (y.ch = c) := by simp only [hf]
  exact List.find?_map.trans (congrArg (fun p => Option.map f (List.find? p s.calUnit.slots)) hsame)

/-! ### A random edge (R101 to R104) -/

/-- What a random edge counts in a slot: its tap where it qualifies, and its code of the walk line. -/
def State.countEdge (s : State) (c : Ch) (k tap : Nat) (walk : Option Nat) (x : Slot) : Slot :=
  if x.ch = c then
    let x := if bit x.cmask (k % 32) && s.usesRandom x then x.countStart tap else x
    match walk with
    | some w => x.countWalk w
    | none => x
  else x

theorem Slot.countStart_ch (x : Slot) (tap : Nat) : (x.countStart tap).ch = x.ch := by
  unfold Slot.countStart
  split <;> rfl

theorem Slot.countWalk_ch (x : Slot) (w : Nat) : (x.countWalk w).ch = x.ch := by
  unfold Slot.countWalk
  split <;> rfl

theorem State.countEdge_ch (s : State) (c : Ch) (k tap : Nat) (walk : Option Nat) (x : Slot) :
    (s.countEdge c k tap walk x).ch = x.ch := by
  unfold State.countEdge
  split
  · cases walk with
    | none => dsimp only; split <;> simp only [Slot.countStart_ch]
    | some w => rw [Slot.countWalk_ch]; split <;> simp only [Slot.countStart_ch]
  · rfl

theorem State.calRandomEdge_ignored {k word : Nat} {walk : Option Nat}
    (h : (s.chan c).timing = .high ∨ s.randomMet c (s.edgePeriod k) (startTap word) = true) :
    s.calRandomEdge c k word walk = s :=
  if_pos (by simpa using h)

/-- Nothing but the calibration unit and CH_STATUS of the channel differs from s. -/
def State.keepsButRuns (t s : State) (c : Ch) : Prop :=
  t.keepsObjects s [Obj.CH_STATUS c] ∧ { t with obj := s.obj, calUnit := s.calUnit } = s

theorem State.keepsButRuns_mapSlots (s : State) (c : Ch) (f : Slot → Slot) : (s.mapSlots f).keepsButRuns s c :=
  ⟨fun _ _ => rfl, rfl⟩

theorem State.keepsButRuns.setOb (h : t.keepsButRuns s c) (n : Nat) (b : Bool) :
    (t.setOb (Obj.CH_STATUS c) n b).keepsButRuns s c :=
  ⟨State.keepsObjects_setOb h.1 (by simp) n b, h.2⟩

/-- An edge that reaches the end of the line uncounted by no start is offered to the slots of its channel. -/
theorem State.calRandomEdge_counts {k word : Nat} (walk : Option Nat) (htiming : (s.chan c).timing ≠ .high)
    (hmet : s.randomMet c (s.edgePeriod k) (startTap word) = false) (hx : x ∈ s.slotOf c) :
    ∃ t, s.calRandomEdge c k word walk = t ∧ t.slotOf c = some (s.countEdge c k (startTap word) walk x) ∧
      t.keepsButRuns s c ∧ (s.usesRandom x = true → t.ob (Obj.CH_STATUS c) 3 = true) := by
  have hslot := (State.slotOf_mapSlots (s.countEdge_ch c k (startTap word) walk) s c).trans (congrArg _ hx)
  have hedge : s.calRandomEdge c k word walk =
      if s.calUnit.slots.any fun x => decide (x.ch = c) && s.usesRandom x then
        (s.mapSlots (s.countEdge c k (startTap word) walk)).setOb (Obj.CH_STATUS c) 3 true
      else s.mapSlots (s.countEdge c k (startTap word) walk) :=
    if_neg (by simp [htiming, hmet])
  refine ⟨_, hedge, ?_⟩
  split
  · exact ⟨hslot, (s.keepsButRuns_mapSlots c _).setOb _ _, fun _ => State.ob_setOb_self _ _ _ _⟩
  · next hnone =>
    refine ⟨hslot, s.keepsButRuns_mapSlots c _, fun huses => absurd ?_ hnone⟩
    exact List.any_eq_true.mpr ⟨x, List.mem_of_find?_eq_some hx, by simp [State.ch_of_slotOf hx, huses]⟩

/-- An edge of a qualifying period counts its tap in a run that takes the random source. -/
theorem State.countEdge_counts {k tap : Nat} (hch : x.ch = c) (huses : s.usesRandom x = true)
    (hmask : x.cmask.testBit (k % 32) = true) (htap : tap < 160) (hroom : x.count < 2 ^ 20) :
    s.countEdge c k tap none x = { x with hist := x.hist.modify tap (· + 1), count := x.count + 1 } := by
  have hqual : (bit x.cmask (k % 32) && s.usesRandom x) = true := by simp [bit, hmask, huses]
  rw [State.countEdge, if_pos hch]
  exact (if_pos hqual).trans (if_pos ⟨hroom, htap⟩)

theorem State.countEdge_masked {k tap : Nat} (hmask : x.cmask.testBit (k % 32) = false) :
    s.countEdge c k tap none x = x := by
  simp [State.countEdge, bit, hmask]

/-- A run that takes no random edge in its start histogram counts the walk code alone (R104). -/
theorem State.countEdge_walk {k tap w : Nat} (hch : x.ch = c) (huses : s.usesRandom x = false) (hroom : x.walkCount < 2 ^ 16) :
    s.countEdge c k tap (some w) x = { x with walk := x.walk.modify w (· + 1), walkCount := x.walkCount + 1 } := by
  rw [State.countEdge, if_pos hch, huses, Bool.and_false, if_neg Bool.false_ne_true]
  exact if_pos hroom

theorem State.usesRandom_iff (hch : x.ch = c) : s.usesRandom x = true ↔ x.random = true ∨ x.src = 2 ∨ s.en c = false := by
  simp [State.usesRandom, hch, or_assoc]

/-! ### The random source and the end of a run (R102, R104) -/

/-- A slot of the channel takes the random source. -/
def Slot.takeRandom (c : Ch) (x : Slot) : Slot := if x.ch = c then { x with random := true } else x

theorem Slot.takeRandom_ch (x : Slot) (c : Ch) : (Slot.takeRandom c x).ch = x.ch := by
  unfold Slot.takeRandom
  split <;> rfl

/-- While the supervisor restarts, a task of its waits (R40). -/
theorem State.ifTask_down (h : s.cufel.down = true) : s.ifTask t = s := by simp [State.ifTask, h]

theorem State.calQuiet_expires (hx : x ∈ s.slotOf c) (hsrc : x.src = 0) (hroom : x.count < 2 ^ 16)
    (hquiet : x.startTick + x.quiet ≤ s.tick) :
    s.calQuiet c = (s.setOb (Obj.CH_STATUS c) 3 true).mapSlots (Slot.takeRandom c) := by
  have hx : s.slotOf c = some x := hx
  rw [State.calQuiet, hx]
  exact if_pos ⟨hsrc, hroom, hquiet⟩

theorem State.calQuiet_none (h : s.slotOf c = none) : s.calQuiet c = s := by simp [State.calQuiet, h]

theorem State.calRunComplete_full (hx : x ∈ s.slotOf c) (hcount : x.count = 2 ^ 20) (hwalk : x.walkCount = 2 ^ 16)
    (hcal : (s.chan c).cal = .accum) :
    s.calRunComplete c = (s.setChan c { s.chan c with cal := .compute }).setOb (Obj.CH_STATUS c) 1 false := by
  have hx : s.slotOf c = some x := hx
  rw [State.calRunComplete, hx]
  exact if_pos ⟨hcount, hwalk, hcal⟩

theorem State.calRunComplete_none (h : s.slotOf c = none) : s.calRunComplete c = s := by simp [State.calRunComplete, h]

end Sys2Proof.Machine
end

section
/-! SUPPORT. The schedule of the calibration, and the end of a computation (R105, R106, R108, R536). -/
namespace Sys2Proof.Machine

variable {s t r : State} {c d : Ch} {x : Slot}

theorem chStatus_injective : Function.Injective fun c : Ch => Obj.CH_STATUS c := by
  intro c d (h : Obj.CH_STATUS c = Obj.CH_STATUS d)
  simp only [Obj.CH_STATUS, objKey] at h
  exact Fin.ext (by omega)

/-! ### Free slots take channels (R108) -/

/-- Channels that waited in s may have taken a slot: their runs have begun, and bits 1 and 3 of their CH_STATUS say so. -/
structure State.AssignedFrom (t s : State) : Prop where
  chan (d : Ch) : t.chan d = s.chan d ∨ (s.chan d).cal = .wait ∧ t.chan d = { s.chan d with cal := .accum }
  status (d : Ch) {n : Nat} (h1 : n ≠ 1) (h3 : n ≠ 3) : t.ob (Obj.CH_STATUS d) n = s.ob (Obj.CH_STATUS d) n
  objects : t.keepsObjects s (allCh.map fun d : Ch => Obj.CH_STATUS d)
  frame : { t with obj := s.obj, chans := s.chans, calUnit := s.calUnit } = s

theorem State.AssignedFrom.refl (s : State) : s.AssignedFrom s :=
  ⟨fun _ => .inl rfl, fun _ _ _ _ => rfl, State.keepsObjects_refl s _, rfl⟩

theorem State.AssignedFrom.trans (h : r.AssignedFrom t) (h' : t.AssignedFrom s) : r.AssignedFrom s where
  chan d := by
    rcases h'.chan d with ht | ⟨hwait, ht⟩
    · exact ht ▸ h.chan d
    · rcases h.chan d with hr | ⟨hwait', -⟩
      · exact .inr ⟨hwait, hr.trans ht⟩
      · rw [ht] at hwait'
        cases hwait'
  status d _ h1 h3 := (h.status d h1 h3).trans (h'.status d h1 h3)
  objects := State.keepsObjects_trans h.objects h'.objects
  frame := by
    have hr := congrArg (fun v : State => { v with obj := s.obj, chans := s.chans, calUnit := s.calUnit }) h.frame
    exact hr.trans h'.frame

/-- A slot for channel c. -/
def State.slotted (s : State) (c : Ch) : State :=
  let u := ((s.setChan c { s.chan c with cal := .accum }).setOb (Obj.CH_STATUS c) 1 true).setOb (Obj.CH_STATUS c) 3
    (s.usesRandom (s.newSlot c))
  { u with calUnit := { s.calUnit with slots := s.calUnit.slots ++ [s.newSlot c], next := (c.val + 1) % 128 } }

theorem State.assignSlot_cases (s : State) :
    s.assignSlot = s ∨ ∃ c, s.slotEligible c = true ∧ s.assignSlot = s.slotted c := by
  unfold State.assignSlot
  split
  · split
    · exact .inl rfl
    · next c hc => exact .inr ⟨c, List.find?_some hc, rfl⟩
  · exact .inl rfl

theorem State.slotted_obj (s : State) (c : Ch) : (s.slotted c).obj =
    ((s.setOb (Obj.CH_STATUS c) 1 true).setOb (Obj.CH_STATUS c) 3 (s.usesRandom (s.newSlot c))).obj := rfl

theorem State.slotted_assignedFrom (h : s.slotEligible c = true) : (s.slotted c).AssignedFrom s where
  chan d := by
    have hwait : (s.chan c).cal = .wait := of_decide_eq_true (Bool.and_eq_true_iff.mp h).1
    by_cases hd : d = c
    · subst hd
      exact .inr ⟨hwait, State.chan_setChan_self s d _⟩
    · exact .inl (State.chan_setChan_ne s _ hd)
  status d n h1 h3 := by
    refine (State.ob_of_o (State.o_congr (s.slotted_obj c) _)).trans ?_
    by_cases hd : d = c
    · subst hd
      exact (State.ob_setOb_ne _ _ h3).trans (State.ob_setOb_ne _ _ h1)
    · have hkey : Obj.CH_STATUS d ≠ Obj.CH_STATUS c := fun e => hd (chStatus_injective e)
      exact State.ob_of_o ((State.o_setOb_ne _ _ _ hkey).trans (State.o_setOb_ne _ _ _ hkey))
  objects := by
    have hmem := List.mem_map_of_mem (f := fun d : Ch => Obj.CH_STATUS d) (List.mem_finRange c)
    exact State.keepsObjects_setOb (State.keepsObjects_setOb (State.keepsObjects_refl s _) hmem _ _) hmem _ _
  frame := rfl

theorem State.assignSlot_assignedFrom (s : State) : s.assignSlot.AssignedFrom s := by
  rcases s.assignSlot_cases with h | ⟨c, hc, h⟩
  · exact h.symm ▸ State.AssignedFrom.refl s
  · exact h.symm ▸ State.slotted_assignedFrom hc

theorem State.assignSlots_assignedFrom (s : State) : s.assignSlots.AssignedFrom s := by
  unfold State.assignSlots
  generalize List.range 16 = l
  induction l generalizing s with
  | nil => exact State.AssignedFrom.refl s
  | cons _ l ih => exact (ih s.assignSlot).trans s.assignSlot_assignedFrom

/-- A channel keeps its LUTs when free slots take channels. -/
theorem State.AssignedFrom.luts (h : t.AssignedFrom s) (d : Ch) :
    (t.chan d).lut = (s.chan d).lut ∧ (t.chan d).walk = (s.chan d).walk ∧ (t.chan d).pend = (s.chan d).pend := by
  rcases h.chan d with ht | ⟨-, ht⟩ <;> simp [ht]

theorem State.AssignedFrom.chan_of_busy (h : t.AssignedFrom s) (hbusy : (s.chan d).cal ≠ .wait) : t.chan d = s.chan d :=
  (h.chan d).resolve_right fun hd => hbusy hd.1

theorem State.AssignedFrom.keepsMemories (h : t.AssignedFrom s) : t.keepsMemories s :=
  ⟨(congrArg State.spm h.frame :), (congrArg State.rankMem h.frame :), (congrArg State.nvm h.frame :)⟩

/-! ### The end of a computation (R105, R106, R536) -/

/-- A channel whose computed LUT pends. -/
def Chan.lutPending (y : Chan) (p : PendLut) : Chan := { y with cal := .pending, pend := some p, rejects := 0 }

/-- A channel that waits again, with n rejections in a row. -/
def Chan.lutRejected (y : Chan) (n : Nat) : Chan := { y with cal := .wait, rejects := n }

/-- The LUTs that the supervisor computes from the histograms of a run (R105). -/
def State.computed (s : State) (x : Slot) : PendLut :=
  { lut := lutOf 20 0 x.hist, walk := some (walkLutOf 16 0 x.walk), taps := tapsOf x.hist, src := 0, madeTick := s.tick,
    applied := some 0 }

/-- The channel's slot is free, and the LUTs of its run pend (R105, R106). -/
def State.lutPassed (s : State) (c : Ch) (x : Slot) : State :=
  ((s.dropSlot c).setChan c ((s.chan c).lutPending (s.computed x))).setOb (Obj.CH_STATUS c) 2 true

/-- The channel's slot is free, and its run is rejected and counted (R105, R536). -/
def State.lutRejected (s : State) (c : Ch) : State :=
  ((((s.dropSlot c).setChan c { s.chan c with cal := .wait }).rejected c).bump Obj.TDC_CAL_REJECT).setOb (Obj.CH_STATUS c) 4 true

theorem State.lutComputeDone_eq (hx : x ∈ s.slotOf c) (hcal : (s.chan c).cal = .compute) :
    s.lutComputeDone c = (if lutChecks 20 x.hist x.walk &&
        (s.shiftExempt c || decide (lutShift (lutOf 20 0 x.hist) (s.chan c).lut ≤ s.o Obj.TDC_CAL_SHIFTLIM))
      then s.lutPassed c x else s.lutRejected c).assignSlots := by
  have hx : s.slotOf c = some x := hx
  rw [State.lutComputeDone, hx]
  exact if_pos hcal

theorem State.lutComputeDone_passes (hx : x ∈ s.slotOf c) (hcal : (s.chan c).cal = .compute)
    (hpass : lutChecks 20 x.hist x.walk = true)
    (hshift : s.shiftExempt c = true ∨ lutShift (lutOf 20 0 x.hist) (s.chan c).lut ≤ s.o Obj.TDC_CAL_SHIFTLIM) :
    s.lutComputeDone c = (s.lutPassed c x).assignSlots := by
  have hall : (lutChecks 20 x.hist x.walk &&
      (s.shiftExempt c || decide (lutShift (lutOf 20 0 x.hist) (s.chan c).lut ≤ s.o Obj.TDC_CAL_SHIFTLIM))) = true := by
    rw [hpass, Bool.true_and, Bool.or_eq_true, decide_eq_true_iff]
    exact hshift
  rw [State.lutComputeDone_eq hx hcal, if_pos hall]

theorem State.lutComputeDone_rejects (hx : x ∈ s.slotOf c) (hcal : (s.chan c).cal = .compute)
    (hfail : lutChecks 20 x.hist x.walk = false) : s.lutComputeDone c = (s.lutRejected c).assignSlots := by
  rw [State.lutComputeDone_eq hx hcal, hfail, Bool.false_and, if_neg Bool.false_ne_true]

theorem State.lutComputeDone_none (h : s.slotOf c = none) : s.lutComputeDone c = s := by simp [State.lutComputeDone, h]

/-- A rejection is noted in its channel and, the fourth in a row, for the fault of the front end (R536). -/
theorem State.rejected_eq (s : State) (c : Ch) :
    ∃ n w, s.rejected c = { s.setChan c { s.chan c with rejects := n } with watch := w } := by
  unfold State.rejected
  dsimp only
  split
  · exact ⟨_, s.watch, rfl⟩
  · exact ⟨_, _, rfl⟩

/-- The state of a rejected run: its channel waits, with n rejections in a row. -/
theorem State.lutRejected_eq (s : State) (c : Ch) : ∃ n w, s.lutRejected c =
    State.setOb (State.bump { (s.dropSlot c).setChan c ((s.chan c).lutRejected n) with watch := w }
      Obj.TDC_CAL_REJECT) (Obj.CH_STATUS c) 4 true := by
  obtain ⟨n, w, h⟩ := ((s.dropSlot c).setChan c { s.chan c with cal := .wait }).rejected_eq c
  rw [State.chan_setChan_self, State.setChan_setChan] at h
  exact ⟨n, w, congrArg (fun u : State => (u.bump Obj.TDC_CAL_REJECT).setOb (Obj.CH_STATUS c) 4 true) h⟩

/-- A channel replaced by one of the same LUTs: no channel's LUTs differ. -/
theorem State.setChan_luts {y : Chan} (hlut : y.lut = (s.chan c).lut) (hwalk : y.walk = (s.chan c).walk) (d : Ch) :
    ((s.setChan c y).chan d).lut = (s.chan d).lut ∧ ((s.setChan c y).chan d).walk = (s.chan d).walk := by
  by_cases hd : d = c
  · subst hd
    rw [State.chan_setChan_self]
    exact ⟨hlut, hwalk⟩
  · rw [State.chan_setChan_ne _ _ hd]
    exact ⟨rfl, rfl⟩

theorem chStatus_mem (c : Ch) : Obj.CH_STATUS c ∈ allCh.map fun d : Ch => Obj.CH_STATUS d :=
  List.mem_map_of_mem (f := fun d : Ch => Obj.CH_STATUS d) (List.mem_finRange c)

theorem State.lutPassed_assigned (h : t.AssignedFrom (s.lutPassed c x)) :
    (t.chan c).cal = .pending ∧ (t.chan c).pend.map (·.lut) = some (lutOf 20 0 x.hist) ∧
      (t.chan c).pend.map (·.walk) = some (some (walkLutOf 16 0 x.walk)) ∧ t.ob (Obj.CH_STATUS c) 2 = true ∧
      (∀ d, (t.chan d).lut = (s.chan d).lut ∧ (t.chan d).walk = (s.chan d).walk) ∧ t.keepsMemories s ∧
      t.keepsObjects s (allCh.map fun d : Ch => Obj.CH_STATUS d) := by
  have hself : (s.lutPassed c x).chan c = (s.chan c).lutPending (s.computed x) := State.chan_setChan_self (s.dropSlot c) c _
  have hbusy : ((s.lutPassed c x).chan c).cal ≠ .wait := by
    rw [hself]
    exact CalState.noConfusion
  have hchan := (h.chan_of_busy hbusy).trans hself
  have hmem : t.keepsMemories (s.lutPassed c x) := h.keepsMemories
  refine ⟨congrArg Chan.cal hchan, congrArg (fun y : Chan => y.pend.map (·.lut)) hchan,
    congrArg (fun y : Chan => y.pend.map (·.walk)) hchan, ?_, fun d => ?_, hmem, ?_⟩
  · exact (h.status c (by decide) (by decide)).trans (State.ob_setOb_self _ _ _ _)
  · obtain ⟨hlut, hwalk, -⟩ := h.luts d
    obtain ⟨hlut', hwalk'⟩ := State.setChan_luts (s := s.dropSlot c) (c := c)
      (y := (s.chan c).lutPending (s.computed x)) rfl rfl d
    exact ⟨hlut.trans hlut', hwalk.trans hwalk'⟩
  · exact State.keepsObjects_trans h.objects (State.keepsObjects_setOb (State.keepsObjects_refl s _) (chStatus_mem c) _ _)

theorem State.lutRejected_assigned (h : t.AssignedFrom (s.lutRejected c)) :
    (t.chan c).pend = (s.chan c).pend ∧ t.o Obj.TDC_CAL_REJECT = satAdd 32 (s.o Obj.TDC_CAL_REJECT) 1 ∧
      t.ob (Obj.CH_STATUS c) 4 = true ∧
      (∀ d, (t.chan d).lut = (s.chan d).lut ∧ (t.chan d).walk = (s.chan d).walk) ∧ t.keepsMemories s ∧
      t.keepsObjects s (Obj.TDC_CAL_REJECT :: allCh.map fun d : Ch => Obj.CH_STATUS d) := by
  obtain ⟨n, w, hrej⟩ := s.lutRejected_eq c
  rw [hrej] at h
  have hcount (d : Ch) : Obj.TDC_CAL_REJECT ≠ Obj.CH_STATUS d := by
    simp only [Obj.TDC_CAL_REJECT, Obj.CH_STATUS, objKey]
    omega
  have hout : Obj.TDC_CAL_REJECT ∉ allCh.map fun d : Ch => Obj.CH_STATUS d := by
    intro hmem
    obtain ⟨d, -, hd⟩ := List.mem_map.mp hmem
    exact hcount d hd.symm
  have hself := State.chan_setChan_self (s.dropSlot c) c ((s.chan c).lutRejected n)
  refine ⟨?_, ?_, ?_, fun d => ?_, h.keepsMemories, ?_⟩
  · obtain ⟨-, -, hpend⟩ := h.luts c
    exact hpend.trans (congrArg Chan.pend hself :)
  · exact (h.objects _ hout).trans ((State.o_setOb_ne _ _ _ (hcount c)).trans (State.o_bump_self _ _))
  · exact (h.status c (by decide) (by decide)).trans (State.ob_setOb_self _ _ _ _)
  · obtain ⟨hlut, hwalk, -⟩ := h.luts d
    obtain ⟨hlut', hwalk'⟩ := State.setChan_luts (s := s.dropSlot c) (c := c)
      (y := (s.chan c).lutRejected n) rfl rfl d
    exact ⟨hlut.trans hlut', hwalk.trans hwalk'⟩
  · refine State.keepsObjects_trans (State.keepsObjects_mono h.objects (List.subset_cons_self _ _)) ?_
    exact State.keepsObjects_setOb (State.keepsObjects_bump (State.keepsObjects_refl s _) (by simp))
      (List.mem_cons_of_mem _ (chStatus_mem c)) _ _

end Sys2Proof.Machine
end

section
/-! SUPPORT. The statement on calibration runs. -/
namespace Sys2Proof.Machine

/-- Settles O5: an edge is counted in the slot of its channel, and a computed run ends before free slots take channels. -/
theorem calibrationRunsFillAndComplete : Obligations.CalibrationRunsFillAndComplete := by
  unfold Obligations.CalibrationRunsFillAndComplete
  intro c k word w s ha
  refine ⟨fun h => ⟨exec_of_awake ha rfl (State.calRandomEdge_ignored h), exec_of_awake ha rfl (State.calRandomEdge_ignored h)⟩,
    fun htiming hmet x hx => ⟨fun huses hmask htap hroom => ?counts, fun hmask => ?masked, fun hrandom hsrc hen hroom => ?walk⟩,
    fun x hx hsrc hroom hquiet => ?quiet, fun x hx hcount hwalk hcal => ?complete, fun hdown => ?restarting,
    fun x hx hdown hcal hpass hshift => ?passes, fun x hx hdown hcal hfail => ?rejects, fun hnone => ?none⟩
  case counts =>
    have hch := State.ch_of_slotOf hx
    have huses := (State.usesRandom_iff hch).mpr huses
    obtain ⟨t, ht, hslot, ⟨hobj, hframe⟩, hflag⟩ := State.calRandomEdge_counts none htiming hmet hx
    exact ⟨t, exec_of_awake ha rfl ht, hslot.trans (congrArg some (State.countEdge_counts hch huses hmask htap hroom)),
      hflag huses, hobj, hframe⟩
  case masked =>
    obtain ⟨t, ht, hslot, ⟨hobj, hframe⟩, -⟩ := State.calRandomEdge_counts none htiming hmet hx
    exact ⟨t, exec_of_awake ha rfl ht, hslot.trans (congrArg some (State.countEdge_masked hmask)), hobj, hframe⟩
  case walk =>
    have hch := State.ch_of_slotOf hx
    have huses : s.usesRandom x = false := by
      simp [State.usesRandom, hrandom, hsrc, hch, hen]
    obtain ⟨t, ht, hslot, ⟨hobj, hframe⟩, -⟩ := State.calRandomEdge_counts (some w.val) htiming hmet hx
    exact ⟨t, exec_of_awake ha rfl ht, hslot.trans (congrArg some (State.countEdge_walk hch huses hroom)), hobj, hframe⟩
  case quiet =>
    have hslot := (State.slotOf_mapSlots (fun y => y.takeRandom_ch c) (s.setOb (Obj.CH_STATUS c) 3 true) c).trans (congrArg _ hx)
    rw [Option.map_some, Slot.takeRandom, if_pos (State.ch_of_slotOf hx)] at hslot
    exact ⟨_, exec_of_awake ha rfl (State.calQuiet_expires hx hsrc hroom hquiet), hslot, State.ob_setOb_self _ _ _ _,
      State.keepsObjects_setOb (State.keepsObjects_refl s _) (by simp) _ _, rfl⟩
  case complete =>
    exact ⟨_, exec_of_awake ha rfl (State.calRunComplete_full hx hcount hwalk hcal), State.chan_setChan_self s c _,
      State.ob_setOb_self _ _ _ _, fun d hd => State.chan_setChan_ne s _ hd,
      State.keepsObjects_setOb (State.keepsObjects_refl s _) (by simp) _ _, rfl⟩
  case restarting => exact congrArg Host.Outcome.next (State.ifTask_down hdown)
  case passes =>
    have ht := (State.ifTask_of ha hdown).trans (State.lutComputeDone_passes hx hcal hpass hshift)
    obtain ⟨hpend, hlut, hwalk, hflag, hluts, hmem, hobj⟩ := State.lutPassed_assigned (s.lutPassed c x).assignSlots_assignedFrom
    exact ⟨_, congrArg Host.Outcome.next ht, hpend, hlut, hwalk, hflag, hluts, hmem,
      State.keepsObjects_mono hobj (chKeys_subset Obj.CH_STATUS)⟩
  case rejects =>
    have ht := (State.ifTask_of ha hdown).trans (State.lutComputeDone_rejects hx hcal hfail)
    obtain ⟨hpend, hcount, hflag, hluts, hmem, hobj⟩ := State.lutRejected_assigned (s.lutRejected c).assignSlots_assignedFrom
    exact ⟨_, congrArg Host.Outcome.next ht, hpend, hcount, hflag, hluts, hmem,
      State.keepsObjects_mono hobj (List.cons_subset_cons _ (chKeys_subset Obj.CH_STATUS))⟩
  case none =>
    have hdone : s.ifTask (s.lutComputeDone c) = s := by
      rw [State.lutComputeDone_none hnone, State.ifTask, ite_self]
    exact ⟨exec_of_awake ha rfl (State.calQuiet_none hnone), exec_of_awake ha rfl (State.calRunComplete_none hnone),
      congrArg Host.Outcome.next hdone⟩

end Sys2Proof.Machine
end

section
/-! SUPPORT. What a captured value of FLT_LOG_CTRL does at a turn marker (R409, R492, R554). -/
namespace Sys2Proof.Machine

/-- Run, at a tick whose number is a turn marker's, with a byte in the event log and an APPLY that has captured a value of
FLT_LOG_CTRL. -/
def capturedLogZero : State :=
  { (State.reset.setO Obj.PWR_STATE 3).setO Obj.CLK_STATE 3 with
    clk := { started := true }, applied := [(0, [(Obj.FLT_LOG_CTRL, 1)])], spm := memSet [] 0x5A4000 1 }

/-- It runs, its stored data has the canonical form, and its tick is a turn marker not judged yet. -/
theorem capturedLogZero_turns : capturedLogZero.awake = true ∧ capturedLogZero.wf = true ∧ capturedLogZero.clk.started = true ∧
    capturedLogZero.clk.marker ≠ some capturedLogZero.tick ∧
    capturedLogZero.tickNumber % capturedLogZero.o Obj.XC_TURN_LEN = 0 := by
  decide +kernel

/-- The turn marker puts the captured value in force, and the event log is zeroed. -/
theorem capturedLogZero_turnMarker : memGet capturedLogZero.spm 0x5A4000 = 1 ∧
    memGet capturedLogZero.turnMarker.spm 0x5A4000 = 0 := by
  decide +kernel

/-- Refutes O13: its turn-marker clause keeps the memories whatever values an APPLY has captured. It does not ask that they be of
SHADOW objects, the only ones that enter them in a run of the device (R492); a captured FLT_LOG_CTRL zeroes the event log. -/
theorem not_turnMarkersSwapLutsAndAlarmsFireOnce : ¬ Obligations.TurnMarkersSwapLutsAndAlarmsFireOnce := by
  unfold Obligations.TurnMarkersSwapLutsAndAlarmsFireOnce
  rintro ⟨hmarker, -⟩
  obtain ⟨hawake, -, hstarted, hfresh, hturn⟩ := capturedLogZero_turns
  obtain ⟨hbefore, hafter⟩ := capturedLogZero_turnMarker
  obtain ⟨-, -, -, -, hswaps⟩ := hmarker 0 ⟨0, 0, 0, 0⟩ 0 0 capturedLogZero hawake
  obtain ⟨t, ht, -, -, ⟨hspm, -, -⟩, -⟩ := hswaps hstarted hfresh hturn
  have ht : capturedLogZero.turnMarker = t := (State.ifAwake_of hawake).symm.trans (Host.Outcome.next.inj ht)
  rw [ht, hspm, hbefore] at hafter
  exact absurd hafter (by decide)

end Sys2Proof.Machine
end

section
/-! SUPPORT. The merge of a group's chains into its FIFO (R124, R125, R127). -/
namespace Sys2Proof.Machine

variable {s : State} {g : Grp} {i : Fin 16} {e : Entry}

/-! ### Which channel is served -/

/-- The merge offers nothing where no chain of the group holds an entry. -/
theorem State.mergePick_none (h : ∀ j : Fin 16, (s.chan (chanOf g j)).chain = []) : s.mergePick g = none := by
  have hempty (k : Nat) : (s.chan (chanOf g (k % 16))).chain = [] := h ⟨k % 16, Nat.mod_lt _ (by decide)⟩
  simp [State.mergePick, List.find?_eq_none, hempty]

/-- The merge serves the channel with an entry that follows the one served last before any other with one. -/
theorem State.mergePick_first (hoffers : (s.chan (chanOf g i)).chain ≠ [])
    (hbefore : ∀ j : Fin 16, (j.val + 15 * ((s.group g).last + 1)) % 16 < (i.val + 15 * ((s.group g).last + 1)) % 16 →
      (s.chan (chanOf g j)).chain = []) : s.mergePick g = some i.val := by
  have hi := i.isLt
  rw [State.mergePick, List.find?_map]
  have hfirst : (List.range 16).find? ((fun i => !(s.chan (chanOf g i)).chain.isEmpty) ∘
      fun k => ((s.group g).last + 1 + k) % 16) = some ((i.val + 15 * ((s.group g).last + 1)) % 16) := by
    rw [List.find?_range_eq_some]
    refine ⟨?_, List.mem_range.mpr (Nat.mod_lt _ (by decide)), fun k hk => ?_⟩
    · have hself : ((s.group g).last + 1 + (i.val + 15 * ((s.group g).last + 1)) % 16) % 16 = i.val := by omega
      simpa [hself] using hoffers
    · have hempty := hbefore ⟨((s.group g).last + 1 + k) % 16, Nat.mod_lt _ (by decide)⟩ (by dsimp only; omega)
      simpa using hempty
  rw [hfirst, Option.map_some]
  congr 1
  omega

/-! ### What the FIFO takes -/

theorem State.fifoWrite_full (h : 16 ≤ (s.group g).fifo.length) : s.fifoWrite g = s.bump (Obj.GRP_FULLCYC g) := if_pos h

theorem State.fifoWrite_idle (hroom : (s.group g).fifo.length < 16) (h : ∀ j : Fin 16, (s.chan (chanOf g j)).chain = []) :
    s.fifoWrite g = s := by
  simp [State.fifoWrite, State.mergePick_none h, Nat.not_le.mpr hroom]

/-- The FIFO of group g has taken entry e, the oldest of its channel i. -/
def State.merged (s : State) (g : Grp) (i : Fin 16) (e : Entry) : State :=
  ((s.setChan (chanOf g i) { s.chan (chanOf g i) with chain := (s.chan (chanOf g i)).chain.tail }).setGroup g
    { fifo := (s.group g).fifo ++ [e], last := i }).peak (Obj.GRP_PEAK g) ((s.group g).fifo.length + 1)

theorem State.fifoWrite_merges (hroom : (s.group g).fifo.length < 16)
    (hbefore : ∀ j : Fin 16, (j.val + 15 * ((s.group g).last + 1)) % 16 < (i.val + 15 * ((s.group g).last + 1)) % 16 →
      (s.chan (chanOf g j)).chain = []) (he : e ∈ (s.chan (chanOf g i)).chain.head?) :
    s.fifoWrite g = if (s.group g).fifo.length + 1 = s.o (Obj.GRP_LEVEL g) then (s.merged g i e).levelReached g
      else s.merged g i e := by
  obtain ⟨r, hchain⟩ := List.head?_eq_some_iff.mp he
  have hlevel : (s.merged g i e).o (Obj.GRP_LEVEL g) = s.o (Obj.GRP_LEVEL g) :=
    State.o_setO_ne _ _ (by simp only [Obj.GRP_LEVEL, Obj.GRP_PEAK, objKey]; omega)
  have hpick : s.mergePick g = some i.val := State.mergePick_first (by simp [hchain]) hbefore
  rw [← hlevel, State.fifoWrite, if_neg (Nat.not_le.mpr hroom)]
  simp only [hpick, hchain, State.merged, List.tail_cons]
  rfl

theorem State.merged_keepsObjects (s : State) (g : Grp) (i : Fin 16) (e : Entry) :
    (s.merged g i e).keepsObjects s [Obj.GRP_PEAK g] :=
  State.keepsObjects_setO (fun _ _ => rfl) (by simp) _

theorem State.o_merged_peak (s : State) (g : Grp) (i : Fin 16) (e : Entry) :
    (s.merged g i e).o (Obj.GRP_PEAK g) = max (s.o (Obj.GRP_PEAK g)) ((s.group g).fifo.length + 1) :=
  State.o_setO_self _ _ _

/-- What a merged entry has moved, in states that have the chains and FIFOs of the one it was merged in. -/
theorem State.merged_moves {t : State} (hc : t.chans = (s.merged g i e).chans) (hg : t.groups = (s.merged g i e).groups) :
    t.group g = { fifo := (s.group g).fifo ++ [e], last := i } ∧
    t.chan (chanOf g i) = { s.chan (chanOf g i) with chain := (s.chan (chanOf g i)).chain.tail } ∧
    (∀ d, d ≠ chanOf g i → t.chan d = s.chan d) ∧ (∀ h, h ≠ g → t.group h = s.group h) := by
  have hchan (d : Ch) : t.chan d = (s.merged g i e).chan d := by simp only [State.chan, hc]
  have hgroup (h : Grp) : t.group h = (s.merged g i e).group h := by simp only [State.group, hg]
  exact ⟨(hgroup g).trans (State.group_setGroup_self _ g _), (hchan _).trans (State.chan_setChan_self s _ _),
    fun d hd => (hchan d).trans (State.chan_setChan_ne s _ hd), fun h hh => (hgroup h).trans (State.group_setGroup_ne _ _ hh)⟩

/-! ### The level (R127) -/

theorem grpPeak_notMem (g : Grp) : Obj.GRP_PEAK g ∉ [Obj.GRP_LVL_CNT g, Obj.GRP_LVL_FLAG, Obj.FLT_LOG_LOST] := by
  simp only [List.mem_cons, List.not_mem_nil, or_false, Obj.GRP_PEAK, Obj.GRP_LVL_CNT, Obj.GRP_LVL_FLAG, Obj.FLT_LOG_LOST,
    objKey]
  omega

theorem State.stage_frame (s : State) (code cls unit : Nat) (d : List Byte) :
    { s.stage code cls unit d with obj := s.obj, log := s.log } = s := by
  unfold State.stage
  split <;> rfl

theorem State.levelReached_frame (s : State) (g : Grp) :
    { s.levelReached g with obj := s.obj, log := s.log } = s := by
  unfold State.levelReached
  dsimp only
  split
  · rfl
  · exact (congrArg (fun v : State => { v with obj := s.obj, log := s.log }) (State.stage_frame ..) :)

theorem State.levelReached_objects (s : State) (g : Grp) :
    (s.levelReached g).keepsObjects ((s.bump (Obj.GRP_LVL_CNT g)).setOb Obj.GRP_LVL_FLAG g true) [Obj.FLT_LOG_LOST] := by
  unfold State.levelReached
  dsimp only
  split
  · exact State.keepsObjects_refl _ _
  · exact State.stage_keepsObjects _ _ _ _ _

/-- The objects of a group are apart from those of the device. -/
theorem grpKey_ne {g : Grp} {j k n : Nat} (hk : k = objKey (0x2910 + g) n) (hn : n < 256)
    (hj : j < objKey 0x2910 0 ∨ objKey 0x2918 0 ≤ j) : j ≠ k := by
  unfold objKey at *
  omega

theorem State.levelReached_counts (s : State) (g : Grp) :
    (s.levelReached g).o (Obj.GRP_LVL_CNT g) = satAdd 32 (s.o (Obj.GRP_LVL_CNT g)) 1 ∧
    (s.levelReached g).ob Obj.GRP_LVL_FLAG g = true := by
  have hlost : Obj.FLT_LOG_LOST ≠ Obj.GRP_LVL_CNT g := grpKey_ne rfl (by decide) (by decide)
  have hflag : Obj.GRP_LVL_FLAG ≠ Obj.GRP_LVL_CNT g := grpKey_ne rfl (by decide) (by decide)
  constructor
  · rw [s.levelReached_objects g _ (by simpa using hlost.symm), State.o_setOb_ne _ _ _ hflag.symm, State.o_bump_self]
  · exact (State.ob_of_o (s.levelReached_objects g _ (by decide))).trans (State.ob_setOb_self _ _ _ _)

theorem State.levelReached_keepsObjects (s : State) (g : Grp) :
    (s.levelReached g).keepsObjects s [Obj.GRP_LVL_CNT g, Obj.GRP_LVL_FLAG, Obj.FLT_LOG_LOST] :=
  State.keepsObjects_trans (State.keepsObjects_mono (s.levelReached_objects g) (by simp))
    (State.keepsObjects_setOb (State.keepsObjects_bump (State.keepsObjects_refl s _) (by simp)) (by simp) _ _)

end Sys2Proof.Machine
end

section
/-! SUPPORT. The collector: which groups a core cycle serves, and what becomes of an entry (R126, R129, R130, R545). -/
namespace Sys2Proof.Machine

variable {s t : State} {g h : Grp} {e : Entry} {x : OpenSlice} {w : Nat}

/-! ### The order of a core cycle (R126) -/

theorem collectOrder_none (n : Nat) : ((List.range 8).map fun i => (n + i) % 8).filter (bit 0) = [] := by
  simp [bit]

/-- One group that shows an entry is served alone, from whatever group the cycle starts. -/
theorem collectOrder_single (n g : Fin 8) :
    (((List.range 8).map fun i => (n.val + i) % 8).filter (bit ((1 <<< g.val : Nat) : BitVec 8).toNat)).map portFin = [g] := by
  revert n g
  decide +kernel

/-- Of two groups, the one that comes first from the start group is served first. -/
theorem collectOrder_pair {n g h : Fin 8} (hgh : (g.val + 8 - n) % 8 < (h.val + 8 - n) % 8) :
    (((List.range 8).map fun i => (n.val + i) % 8).filter
      (bit (((1 <<< g.val : Nat) : BitVec 8) ||| ((1 <<< h.val : Nat) : BitVec 8)).toNat)).map portFin = [g, h] := by
  revert n g h
  decide +kernel

/-- The collector's start group has advanced by n core cycles. -/
def State.rotated (s : State) (n : Nat) : State := { s with asm := { s.asm with start := (s.asm.start + n) % 8 } }

theorem State.collect_none (s : State) (n : Nat) : s.collect n 0 = s.rotated n := by
  simp only [State.collect, collectOrder_none]
  rfl

theorem State.collect_single (s : State) (n : Nat) (g : Grp) :
    s.collect n ((1 <<< g.val : Nat) : BitVec 8).toNat = (s.rotated n).hitCollect g := by
  have horder := collectOrder_single ⟨(s.asm.start + n) % 8, Nat.mod_lt _ (by decide)⟩ g
  simp only [State.collect, horder]
  rfl

theorem State.collect_pair {n : Nat}
    (hgh : (g.val + 8 - (s.asm.start + n) % 8) % 8 < (h.val + 8 - (s.asm.start + n) % 8) % 8) :
    s.collect n (((1 <<< g.val : Nat) : BitVec 8) ||| ((1 <<< h.val : Nat) : BitVec 8)).toNat =
      ((s.rotated n).hitCollect g).hitCollect h := by
  have horder := collectOrder_pair (n := ⟨(s.asm.start + n) % 8, Nat.mod_lt _ (by decide)⟩) hgh
  simp only [State.collect, horder]
  rfl

theorem State.rotated_zero (hlt : s.asm.start < 8) : s.rotated 0 = s := by
  simp only [State.rotated, Nat.add_zero, Nat.mod_eq_of_lt hlt]

/-! ### What becomes of the oldest entry of a FIFO (R124, R129, R130, R545) -/

/-- The oldest entry of group g has left its FIFO. -/
def State.popped (s : State) (g : Grp) : State := s.setGroup g { s.group g with fifo := (s.group g).fifo.tail }

theorem State.hitCollect_empty (hempty : (s.group g).fifo = []) : s.hitCollect g = s := by simp [State.hitCollect, hempty]

@[simp] theorem State.tagTick_setGroup (s : State) (g : Grp) (y : Group) (n : Nat) :
    (s.setGroup g y).tagTick n = s.tagTick n := rfl

@[simp] theorem State.openAt_setGroup (s : State) (g : Grp) (y : Group) (n : Nat) :
    (s.setGroup g y).openAt n = s.openAt n := rfl

theorem State.hitCollect_bad (he : e ∈ (s.group g).fifo.head?) (hbad : e.bad = true) :
    s.hitCollect g = (s.popped g).parityLoss g e.tag := by
  obtain ⟨r, hfifo⟩ := List.head?_eq_some_iff.mp he
  simp [State.hitCollect, State.popped, hfifo, hbad]

theorem State.hitCollect_noSlice (he : e ∈ (s.group g).fifo.head?) (hbad : e.bad = false)
    (hidle : s.tagTick e.tag ∈ s.asm.idle) : s.hitCollect g = ((s.popped g).bump Obj.ASM_NOSLICE).lossOvf := by
  obtain ⟨r, hfifo⟩ := List.head?_eq_some_iff.mp he
  simp [State.hitCollect, State.popped, hfifo, hbad, hidle]

theorem State.hitCollect_late (he : e ∈ (s.group g).fifo.head?) (hbad : e.bad = false)
    (hidle : s.tagTick e.tag ∉ s.asm.idle) (hopen : s.openAt (s.tagTick e.tag) = none) :
    s.hitCollect g = ((s.popped g).bump (Obj.GRP_LATE g)).lossOvf := by
  obtain ⟨r, hfifo⟩ := List.head?_eq_some_iff.mp he
  simp [State.hitCollect, State.popped, hfifo, hbad, hidle, hopen]

theorem State.hitCollect_open (he : e ∈ (s.group g).fifo.head?) (hbad : e.bad = false)
    (hidle : s.tagTick e.tag ∉ s.asm.idle) (hopen : x ∈ s.openAt (s.tagTick e.tag)) :
    s.hitCollect g = (s.popped g).acceptEntry g x e.word := by
  obtain ⟨r, hfifo⟩ := List.head?_eq_some_iff.mp he
  simp [State.hitCollect, State.popped, hfifo, hbad, hidle, Option.mem_def.mp hopen]

/-- The open slice of a tick carries that tick. -/
theorem State.tick_of_openAt {n : Nat} (hx : x ∈ s.openAt n) : x.tick = n := by
  have hfound := List.find?_some (Option.mem_def.mp hx)
  simp only [Bool.and_eq_true, decide_eq_true_eq] at hfound
  obtain ⟨⟨htick, -⟩, -⟩ := hfound
  exact htick

/-! ### An entry presented for its open slice (R130) -/

theorem State.acceptEntry_cap (hcap : x.cap ≤ x.recs.length) : s.acceptEntry g x w =
    ((s.mapSlice x.tick fun y => { y with ncap := y.ncap + 1 }).bump (Obj.GRP_LOSS_CAP g)).lossOvf :=
  if_pos hcap

theorem State.acceptEntry_budget (hcap : x.recs.length < x.cap) (hcredit : s.o Obj.ASM_CREDIT = 0) : s.acceptEntry g x w =
    ((s.mapSlice x.tick fun y => { y with nbud := y.nbud + 1 }).bump (Obj.GRP_LOSS_BUDGET g)).lossOvf := by
  rw [State.acceptEntry, if_neg (Nat.not_le.mpr hcap), if_pos hcredit]

theorem State.acceptEntry_stored (hcap : x.recs.length < x.cap) (hcredit : 0 < s.o Obj.ASM_CREDIT) : s.acceptEntry g x w =
    (s.mapSlice x.tick fun y => { y with recs := y.recs ++ [w] }).setO Obj.ASM_CREDIT (s.o Obj.ASM_CREDIT - 1) := by
  rw [State.acceptEntry, if_neg (Nat.not_le.mpr hcap), if_neg hcredit.ne']

/-- A loss counts once, in the counter k of a state with the objects of s, and marks the crossing's fast-OR (R130, R143). -/
theorem State.bump_lossOvf {k : Nat} (hobj : t.obj = s.obj) :
    (t.bump k).lossOvf.o k = satAdd 32 (s.o k) 1 ∧ (t.bump k).lossOvf.fastOr.ovf = true ∧
    (t.bump k).lossOvf.asm = t.asm ∧ (t.bump k).lossOvf.keepsObjects s [k] := by
  have ho (j : Nat) : t.o j = s.o j := State.o_congr hobj j
  refine ⟨(State.o_bump_self t k).trans (by rw [ho]), rfl, rfl, ?_⟩
  exact State.keepsObjects_bump (fun j _ => ho j) (by simp)

/-! ### What an entry leaves as it was -/

/-- The counters of an entry that reaches the collector, and the credit. -/
def entryKeys (g : Grp) : List Nat :=
  [Obj.FLT_PARITY, Obj.GRP_LOSS_CHAIN g, Obj.ASM_NOSLICE, Obj.GRP_LATE g, Obj.GRP_LOSS_CAP g, Obj.GRP_LOSS_BUDGET g,
    Obj.ASM_CREDIT]

/-- Nothing but the counters of an entry of group g, the assembler's slices and reports, and the fast-OR differs from s. -/
structure State.KeepsButEntry (t s : State) (g : Grp) : Prop where
  start : t.asm.start = s.asm.start
  objects : t.keepsObjects s (entryKeys g)
  frame : { t with obj := s.obj, asm := s.asm, fastOr := s.fastOr } = s

theorem State.KeepsButEntry.refl (s : State) (g : Grp) : s.KeepsButEntry s g := ⟨rfl, State.keepsObjects_refl s _, rfl⟩

theorem State.KeepsButEntry.setO {k : Nat} (ht : t.KeepsButEntry s g) (hk : k ∈ entryKeys g) (v : Nat) :
    (t.setO k v).KeepsButEntry s g :=
  ⟨ht.start, State.keepsObjects_setO ht.objects hk v, ht.frame⟩

theorem State.KeepsButEntry.mapSlice (ht : t.KeepsButEntry s g) (n : Nat) (f : OpenSlice → OpenSlice) :
    (t.mapSlice n f).KeepsButEntry s g :=
  ⟨ht.start, ht.objects, ht.frame⟩

theorem State.KeepsButEntry.report (ht : t.KeepsButEntry s g) (l : List Nat) :
    State.KeepsButEntry { t with asm := { t.asm with reports := l } } s g :=
  ⟨ht.start, ht.objects, ht.frame⟩

theorem State.KeepsButEntry.lossOvf (ht : t.KeepsButEntry s g) : t.lossOvf.KeepsButEntry s g :=
  ⟨ht.start, ht.objects, ht.frame⟩

/-- A loss of an entry of group g. -/
theorem State.KeepsButEntry.loses {k : Nat} (ht : t.KeepsButEntry s g) (hk : k ∈ entryKeys g) :
    (t.bump k).lossOvf.KeepsButEntry s g :=
  (ht.setO hk _).lossOvf

theorem State.acceptEntry_keepsButEntry (s : State) (g : Grp) (x : OpenSlice) (w : Nat) :
    (s.acceptEntry g x w).KeepsButEntry s g := by
  have hmapped (f : OpenSlice → OpenSlice) := (State.KeepsButEntry.refl s g).mapSlice x.tick f
  unfold State.acceptEntry
  split
  · exact (hmapped _).loses (by simp [entryKeys])
  · split
    · exact (hmapped _).loses (by simp [entryKeys])
    · exact (hmapped _).setO (by simp [entryKeys]) _

/-- A parity error is counted as such and as a loss of the chain (R545). -/
def State.parityCounted (s : State) (g : Grp) : State := (s.bump Obj.FLT_PARITY).bump (Obj.GRP_LOSS_CHAIN g)

theorem State.parityCounted_keepsObjects (s : State) (g : Grp) :
    (s.parityCounted g).keepsObjects s [Obj.FLT_PARITY, Obj.GRP_LOSS_CHAIN g] :=
  State.keepsObjects_bump (State.keepsObjects_bump (State.keepsObjects_refl s _) (by simp)) (by simp)

theorem State.parityCounted_counts (s : State) (g : Grp) :
    (s.parityCounted g).o Obj.FLT_PARITY = satAdd 32 (s.o Obj.FLT_PARITY) 1 ∧
    (s.parityCounted g).o (Obj.GRP_LOSS_CHAIN g) = satAdd 32 (s.o (Obj.GRP_LOSS_CHAIN g)) 1 := by
  have hne : Obj.FLT_PARITY ≠ Obj.GRP_LOSS_CHAIN g := grpKey_ne rfl (by decide) (by decide)
  constructor
  · exact (State.o_bump_ne _ hne).trans (State.o_bump_self _ _)
  · exact (State.o_bump_self _ _).trans (by rw [State.o_bump_ne _ hne.symm])

theorem State.parityLoss_eq (s : State) (g : Grp) (n : Nat) : s.parityLoss g n =
    { s.parityCounted g with fastOr := { s.fastOr with ovf := true }, asm := { s.asm with reports := s.asm.reports ++ [n] } } :=
  rfl

theorem State.parityLoss_keepsButEntry (s : State) (g : Grp) (n : Nat) : (s.parityLoss g n).KeepsButEntry s g :=
  have hcounted := (State.KeepsButEntry.refl s g).setO (k := Obj.FLT_PARITY) (by simp [entryKeys]) _
  (hcounted.loses (k := Obj.GRP_LOSS_CHAIN g) (by simp [entryKeys])).report _

/-- Whatever becomes of it, an entry leaves its FIFO and moves nothing else but counters, slices, reports and the fast-OR. -/
theorem State.hitCollect_keepsButEntry (he : e ∈ (s.group g).fifo.head?) : (s.hitCollect g).KeepsButEntry (s.popped g) g := by
  by_cases hbad : e.bad = true
  · rw [State.hitCollect_bad he hbad]
    exact State.parityLoss_keepsButEntry _ g _
  · have hgood := Bool.eq_false_iff.mpr hbad
    by_cases hidle : s.tagTick e.tag ∈ s.asm.idle
    · rw [State.hitCollect_noSlice he hgood hidle]
      exact (State.KeepsButEntry.refl _ g).loses (by simp [entryKeys])
    · cases hopen : s.openAt (s.tagTick e.tag) with
      | none =>
        rw [State.hitCollect_late he hgood hidle hopen]
        exact (State.KeepsButEntry.refl _ g).loses (by simp [entryKeys])
      | some x =>
        rw [State.hitCollect_open he hgood hidle hopen]
        exact State.acceptEntry_keepsButEntry _ g x _

/-- What a core cycle that takes an entry of group g changes, whatever becomes of the entry. -/
theorem State.KeepsButEntry.collected {n : Nat} (ht : t.KeepsButEntry ((s.rotated n).popped g) g) :
    t.asm.start = (s.asm.start + n) % 8 ∧ t.group g = { s.group g with fifo := (s.group g).fifo.tail } ∧
    (∀ h, h ≠ g → t.group h = s.group h) ∧
    { t with obj := s.obj, groups := s.groups, asm := s.asm, fastOr := s.fastOr } = s := by
  have hgroup (h : Grp) : t.group h = ((s.rotated n).popped g).group h := (congrArg (State.group · h) ht.frame :)
  exact ⟨ht.start, (hgroup g).trans (State.group_setGroup_self _ g _),
    fun h hh => (hgroup h).trans (State.group_setGroup_ne _ _ hh),
    (congrArg (fun v : State => { v with obj := s.obj, groups := s.groups, asm := s.asm, fastOr := s.fastOr }) ht.frame :)⟩

/-- Whether the clocks run does not hang on what an entry changes. -/
theorem State.KeepsButEntry.awake (ht : t.KeepsButEntry s g) : t.awake = s.awake := by
  have hkey {k : Nat} (hk : k < objKey 0x2900 0 ∨ objKey 0x2918 0 ≤ k) (hp : k ≠ Obj.FLT_PARITY) : t.o k = s.o k := by
    refine ht.objects k ?_
    simp only [entryKeys, List.mem_cons, List.not_mem_nil, or_false, Obj.GRP_LOSS_CHAIN, Obj.ASM_NOSLICE, Obj.GRP_LATE,
      Obj.GRP_LOSS_CAP, Obj.GRP_LOSS_BUDGET, Obj.ASM_CREDIT, objKey] at hk hp ⊢
    omega
  have hpower : t.power = s.power := (congrArg State.power ht.frame :)
  have hfrz : t.frz = s.frz := (congrArg State.frz ht.frame :)
  simp only [State.awake, State.clocked, hkey (k := Obj.PWR_STATE) (by decide) (by decide),
    hkey (k := Obj.CLK_STATE) (by decide) (by decide), hpower, hfrz]

/-- A core cycle that serves one group leaves the clocks and the start group as they were. -/
theorem State.hitCollect_running (s : State) (g : Grp) :
    (s.hitCollect g).awake = s.awake ∧ (s.hitCollect g).asm.start = s.asm.start := by
  cases hfifo : (s.group g).fifo.head? with
  | none => rw [State.hitCollect_empty (List.head?_eq_none_iff.mp hfifo)]; exact ⟨rfl, rfl⟩
  | some e =>
    have hkept := State.hitCollect_keepsButEntry (Option.mem_def.mpr hfifo)
    exact ⟨hkept.awake, hkept.start⟩

/-! ### A loss report (R130, R138) -/

theorem State.lossReport_nil (hnil : s.asm.reports = []) : s.lossReport = s := by simp [State.lossReport, hnil]

/-- The oldest loss report has been taken. -/
def State.reported (s : State) : State := { s with asm := { s.asm with reports := s.asm.reports.tail } }

@[simp] theorem State.tagTick_reported (s : State) (n : Nat) : s.reported.tagTick n = s.tagTick n := rfl

@[simp] theorem State.openAt_reported (s : State) (n : Nat) : s.reported.openAt n = s.openAt n := rfl

theorem State.lossReport_open {tag : Nat} (hr : tag ∈ s.asm.reports.head?) (hopen : s.openAt (s.tagTick tag) ≠ none) :
    s.lossReport = s.reported.mapSlice (s.tagTick tag) fun y => { y with nup := y.nup + 1 } := by
  obtain ⟨l, hl⟩ := List.head?_eq_some_iff.mp hr
  obtain ⟨x, hx⟩ := Option.ne_none_iff_exists'.mp hopen
  have hreported : { s with asm := { s.asm with reports := l } } = s.reported := by simp [State.reported, hl]
  simp [State.lossReport, hl, hreported, hx]

theorem State.lossReport_unrecorded {tag : Nat} (hr : tag ∈ s.asm.reports.head?) (hnone : s.openAt (s.tagTick tag) = none) :
    s.lossReport = s.reported.bump Obj.ASM_UNREC := by
  obtain ⟨l, hl⟩ := List.head?_eq_some_iff.mp hr
  have hreported : { s with asm := { s.asm with reports := l } } = s.reported := by simp [State.reported, hl]
  simp [State.lossReport, hl, hreported, hnone]

end Sys2Proof.Machine
end

section
/-! SUPPORT. The statement on the way of an entry from its chain to its slice. -/
namespace Sys2Proof.Machine

/-- Settles O8: a FIFO takes the entry that the merge picks, a core cycle is one collection after another in its order, and each
fate of an entry is one case of the collection. -/
theorem anEntryGoesFromChainToFifoToItsSlice : Obligations.AnEntryGoesFromChainToFifoToItsSlice := by
  unfold Obligations.AnEntryGoesFromChainToFifoToItsSlice
  intro g h n s ha
  have hcollect (g : Grp) : exec (.hitCollect n (1 <<< g.val)) s = .next ((s.rotated n).hitCollect g) :=
    exec_of_awake ha rfl (s.collect_single n g)
  refine ⟨fun hfull => exec_of_awake ha rfl (State.fifoWrite_full hfull),
    fun hroom hempty => exec_of_awake ha rfl (State.fifoWrite_idle hroom hempty), fun i hroom hbefore e he => ?merges,
    exec_of_awake ha rfl (s.collect_none n), fun hgh => ⟨_, hcollect g, ?order⟩,
    fun hempty => (hcollect g).trans (congrArg _ (State.hitCollect_empty hempty)),
    fun e he => ?collects, fun hnil => exec_of_awake ha rfl (State.lossReport_nil hnil),
    fun tag hr => ⟨_, exec_of_awake ha rfl rfl, fun hnone => State.lossReport_unrecorded hr hnone,
      fun hopen => State.lossReport_open hr hopen⟩⟩
  case merges =>
    have hrun := State.fifoWrite_merges hroom hbefore he
    have hkept := s.merged_keepsObjects g i e
    by_cases hlevel : (s.group g).fifo.length + 1 = s.o (Obj.GRP_LEVEL g)
    · rw [if_pos hlevel] at hrun
      have hframe := (s.merged g i e).levelReached_frame g
      have hobjects := (s.merged g i e).levelReached_keepsObjects g
      obtain ⟨hcount, hflag⟩ := (s.merged g i e).levelReached_counts g
      obtain ⟨hfifo, hchain, hchans, hgroups⟩ :=
        State.merged_moves (congrArg State.chans hframe) (congrArg State.groups hframe)
      rw [hkept _ (by simp [Obj.GRP_LVL_CNT, Obj.GRP_PEAK, objKey])] at hcount
      refine ⟨_, exec_of_awake ha rfl hrun, hfifo, hchain, hchans, hgroups, ?_, fun _ => ⟨hcount, hflag⟩,
        fun hne => absurd hlevel hne, State.keepsObjects_trans (State.keepsObjects_mono hobjects (by simp))
          (State.keepsObjects_mono hkept (by simp)),
        (congrArg (fun v : State => { v with obj := s.obj, chans := s.chans, groups := s.groups }) hframe :)⟩
      rw [hobjects _ (grpPeak_notMem g), State.o_merged_peak]
    · rw [if_neg hlevel] at hrun
      obtain ⟨hfifo, hchain, hchans, hgroups⟩ := State.merged_moves (rfl : (s.merged g i e).chans = _) rfl
      exact ⟨_, exec_of_awake ha rfl hrun, hfifo, hchain, hchans, hgroups, s.o_merged_peak g i e,
        fun heq => absurd heq hlevel, fun _ => hkept, State.keepsObjects_mono hkept (by simp), rfl⟩
  case order =>
    obtain ⟨hawake, hstart⟩ := (s.rotated n).hitCollect_running g
    have hsecond := ((s.rotated n).hitCollect g).collect_single 0 h
    rw [State.rotated_zero (hstart ▸ Nat.mod_lt _ (by decide))] at hsecond
    exact (exec_of_awake (hawake.trans ha) rfl hsecond).trans (exec_of_awake ha rfl (State.collect_pair hgh)).symm
  case collects =>
    obtain ⟨hstart, hgroup, hgroups, hframe⟩ := (State.hitCollect_keepsButEntry (s := s.rotated n) he).collected
    refine ⟨_, hcollect g, hstart, hgroup, hgroups, fun hbad => ?parity, fun hbad hidle => ?noSlice,
      fun hbad hidle hnone => ?late, fun x hx hbad hidle => ⟨fun hcap => ?cap, fun hcap hcredit => ?budget,
        fun hcap hcredit => ?stored⟩, hframe⟩
    case parity =>
      rw [State.hitCollect_bad (s := s.rotated n) he hbad, State.parityLoss_eq]
      obtain ⟨hparity, hchain⟩ := ((s.rotated n).popped g).parityCounted_counts g
      exact ⟨hparity, hchain, rfl, rfl, ((s.rotated n).popped g).parityCounted_keepsObjects g⟩
    case noSlice =>
      rw [State.hitCollect_noSlice (s := s.rotated n) he hbad hidle]
      exact State.bump_lossOvf rfl
    case late =>
      rw [State.hitCollect_late (s := s.rotated n) he hbad hidle hnone]
      exact State.bump_lossOvf rfl
    case cap =>
      rw [State.hitCollect_open (s := s.rotated n) he hbad hidle hx,
        State.acceptEntry_cap (s := (s.rotated n).popped g) hcap, State.tick_of_openAt hx]
      exact State.bump_lossOvf rfl
    case budget =>
      rw [State.hitCollect_open (s := s.rotated n) he hbad hidle hx,
        State.acceptEntry_budget (s := (s.rotated n).popped g) hcap hcredit, State.tick_of_openAt hx]
      exact State.bump_lossOvf rfl
    case stored =>
      rw [State.hitCollect_open (s := s.rotated n) he hbad hidle hx,
        State.acceptEntry_stored (s := (s.rotated n).popped g) hcap hcredit, State.tick_of_openAt hx]
      exact ⟨State.o_setO_self _ _ _, rfl, rfl, State.keepsObjects_setO (fun _ _ => rfl) (by simp) _⟩

end Sys2Proof.Machine
end

section
/-! SUPPORT. A write position past the end of the ring does not fit the index entry of a crossing (R151, R153). -/
namespace Sys2Proof.Machine

/-- A crossing without a slice, ticked at tick 0. -/
def sliceless : OpenSlice := { kind := .none, tick := 0, x := 0, cap := 0, recs := [], ncap := 0, nbud := 0, nup := 0 }

/-- Run, with the write position at 2^26, where the largest ring has ended, and a crossing without a slice that has come to its
closing tick. -/
def writesPastRing : State :=
  { ((State.reset.setO Obj.PWR_STATE 3).setO Obj.CLK_STATE 3).setO Obj.LB_WPTR (2 ^ 26) with
    tick := 1000, asm := { opened := [sliceless] } }

/-- It runs, its stored data has the canonical form, no layout switch waits, and the crossing is due. -/
theorem writesPastRing_due : writesPastRing.awake = true ∧ writesPastRing.wf = true ∧ writesPastRing.lb.switch = none ∧
    writesPastRing.asm.opened.find? (fun o => o.tick + writesPastRing.o Obj.ASM_WINDOW ≤ writesPastRing.tick) =
      some sliceless := by
  decide +kernel

/-- The close writes the low four bytes of the index word: LOST with ADDR 0, and not ADDR 2^26. -/
theorem writesPastRing_sliceClose :
    memWord (writesPastRing.sliceClose []).spm (writesPastRing.indexAddr sliceless.x) 4 = 1 ∧
    indexWord (writesPastRing.o Obj.LB_WPTR) 0 (decide (sliceless.kind = .discarded)) true = 2 ^ 32 + 1 := by
  decide +kernel

/-- Refutes O9: its clauses on a close give the index entry the write position, whatever that is. They do not ask that LB_WPTR be
a ring address, below 2^26 as R151 keeps it; a greater one does not fit the four bytes that the entry has in the scratchpad. -/
theorem not_aDueSliceClosesIntoTheBufferAndDrains : ¬ Obligations.ADueSliceClosesIntoTheBufferAndDrains := by
  unfold Obligations.ADueSliceClosesIntoTheBufferAndDrains
  intro h
  obtain ⟨hawake, -, hswitch, hdue⟩ := writesPastRing_due
  obtain ⟨hwritten, hclaimed⟩ := writesPastRing_sliceClose
  obtain ⟨-, -, hcloses, -⟩ := h sliceless [] 0 0 0 writesPastRing hawake
  obtain ⟨hempty, -⟩ := hcloses hdue hswitch
  obtain ⟨t, ht, -, hentry, -⟩ := hempty (by decide)
  have ht : writesPastRing.sliceClose [] = t := (State.ifAwake_of hawake).symm.trans (Host.Outcome.next.inj ht)
  rw [← ht, hwritten, hclaimed] at hentry
  exact absurd hentry (by decide)

end Sys2Proof.Machine
end

section
/-! SUPPORT. The mark that a fetch or a migration sets on a die goes into the training area of the NVM (R355, R363). -/
namespace Sys2Proof.Machine

/-! ### Ranks that the training area holds -/

/-- The first beat of rank A read with one bit of die 3 wrong. -/
def dieThreeFails : List Upset := [.beat .a 0 (2 ^ 48)]

/-- DUAL with ranks A and B serving, no die marked, a committed training copy that holds rank A, and DRM_DIE_THR at 1, so that one
correction marks a die. -/
def trainedDual : State :=
  (((((trainedWake.setO (Obj.DRM_RSTATE 0) 3).setO (Obj.DRM_RSTATE 1) 3).setO Obj.DRM_DIE_THR 1).setO Obj.LB_STATE 1).setO
    Obj.XC_COUNT 100).setMap 0 1 false

/-! ### A fetch from a serving rank (R202, R355) -/

/-- A window crossing with one record at ring address 0, still to be fetched. -/
def oneRecord (x : Int) : Win := { x := x, verdict := .stored 1 false 0, recs := [], toFetch := true }

/-- A query of crossings 50 and 51 in slot 0, with both still to be fetched. -/
def fetchesTwo : QEntry :=
  { q := { qid := 0, type := 0, anchor := .past 50, before := 0, after := 1, spanlen := 0, hitlim := 0, mask := 2 ^ 128 - 1,
           totcut := 0, comp := false, cntonly := false, qbusy := false, addr := 0 },
    thin := false, st := .fetch, slot := some 0, win := [oneRecord 50, oneRecord 51], blocks := [0] }

/-- DUAL with that query in progress, its block reserved. -/
def fetchesDual : State := { trainedDual with query := { items := [.entry fetchesTwo], pool := [(0, 1)] } }

/-- It runs, its stored data has the canonical form, and the query's next fetch is that of crossing 50. -/
theorem fetchesDual_waits : fetchesDual.awake = true ∧ fetchesDual.wf = true ∧ fetchesDual.slotEntry 0 = some fetchesTwo ∧
    fetchesTwo.win.find? (·.toFetch) = some (oneRecord 50) ∧ fetchesDual.fetchStopped = false := by
  decide +kernel

/-- The fetch meets a correction in die 3 of rank A, and the mark is written into the second training copy, which was empty. -/
theorem fetchesDual_fetchDone : memGet fetchesDual.nvm (trainBase 1 + 37) = 0 ∧
    memGet (fetchesDual.fetchDone 0 dieThreeFails).nvm (trainBase 1 + 37) = 3 := by
  decide +kernel

/-- Refutes O17: its clause on a fetch has the NVM as it was, but a correction that reaches DRM_DIE_THR in a serving rank marks the
die, and the mark is stored in the NVM when the training area holds the rank, as R355 asks. -/
theorem not_aQueryTakesASlotWaitsFetchesAndPacks : ¬ Obligations.AQueryTakesASlotWaitsFetchesAndPacks := by
  unfold Obligations.AQueryTakesASlotWaitsFetchesAndPacks
  intro h
  obtain ⟨hawake, -, hslot, hfirst, hgoes⟩ := fetchesDual_waits
  obtain ⟨hbefore, hafter⟩ := fetchesDual_fetchDone
  obtain ⟨-, -, -, -, -, -, hfetch⟩ := h 0 dieThreeFails fetchesTwo (oneRecord 50) fetchesDual hawake
  obtain ⟨t, ht, -, -, -, hkept⟩ := hfetch hslot rfl hfirst hgoes (1, 0) rfl
  have ht : fetchesDual.fetchDone 0 dieThreeFails = t := (State.ifAwake_of hawake).symm.trans (Host.Outcome.next.inj ht)
  rw [ht, hkept, hbefore] at hafter
  exact absurd hafter (by decide)

/-! ### A migration from a rank that is not RETIRED (R164, R355) -/

/-- MIGRATE with S in rank A's position, where crossing 50 has one record from before S came; rank A is SERVING still. -/
def migratesServing : State :=
  let s := (((trainedDual.setO Obj.LB_STATE 2).setO (Obj.DRM_RSTATE 2) 3).setO Obj.LB_MIGPTR 51).setMap 2 1 false
  { s with spm := memPutWord s.spm 200 4 (indexWord 0 1 false false), lb := { migRank := 0, migFrom := 8 } }

/-- It runs, its stored data has the canonical form, and the next crossing of the migration is above the floor. -/
theorem migratesServing_waits : migratesServing.awake = true ∧ migratesServing.wf = true ∧ migratesServing.o Obj.LB_STATE = 2 ∧
    migratesServing.lb.drainHeld = false ∧ migratesServing.o Obj.LB_FLOOR < migratesServing.o Obj.LB_MIGPTR := by
  decide +kernel

/-- The copy of crossing 50 meets a correction in die 3 of rank A, and the mark is written into the second training copy. -/
theorem migratesServing_migrationCopy : memGet migratesServing.nvm (trainBase 1 + 37) = 0 ∧
    memGet (migratesServing.migrationCopy dieThreeFails).nvm (trainBase 1 + 37) = 3 := by
  decide +kernel

/-- Refutes O11: its clause on a migration step has the NVM as it was, whatever the state of the rank that is read. It does not ask
that this rank be RETIRED, in which R355 lets no die be marked; in any rank that may have a mark, a correction that reaches
DRM_DIE_THR stores it in the NVM. -/
theorem not_theLatencyBufferMigratesAndSwitchesLayout : ¬ Obligations.TheLatencyBufferMigratesAndSwitchesLayout := by
  unfold Obligations.TheLatencyBufferMigratesAndSwitchesLayout
  intro h
  obtain ⟨hawake, -, hmigrate, hdrains, habove⟩ := migratesServing_waits
  obtain ⟨hbefore, hafter⟩ := migratesServing_migrationCopy
  obtain ⟨-, -, -, -, hcopies, -⟩ := h dieThreeFails ⟨.loss, 0⟩ migratesServing hawake
  obtain ⟨t, ht, -, -, hkept, -⟩ := hcopies hmigrate hdrains habove
  have ht : migratesServing.migrationCopy dieThreeFails = t := (State.ifAwake_of hawake).symm.trans (Host.Outcome.next.inj ht)
  rw [ht, hkept, hbefore] at hafter
  exact absurd hafter (by decide)

end Sys2Proof.Machine
end

section
/-! SUPPORT. The receipt of a query: what it counts, where it joins the queue, and what a hub sends on and records (R179, R189, R191,
R193, R215, R216). -/
namespace Sys2Proof.Machine

variable {s t r : State} {w qid fill : Nat}

/-! ### What the queue's own part may change -/

/-- Nothing but objects, the query path and the staged events differs from s. -/
def State.keepsButQueue (t s : State) : Prop := { t with obj := s.obj, query := s.query, log := s.log } = s

theorem State.keepsButQueue_trans (h : r.keepsButQueue t) (h' : t.keepsButQueue s) : r.keepsButQueue s := by
  have hr := congrArg (fun v : State => { v with obj := s.obj, query := s.query, log := s.log }) h
  exact hr.trans h'

theorem State.keepsButQueue_of_objects (h : t.keepsButObjects s) : t.keepsButQueue s := by
  unfold State.keepsButObjects at h
  unfold State.keepsButQueue
  rw [← h]

theorem State.keepsButQueue_setItems (h : t.keepsButQueue s) (l : List QItem) : (t.setItems l).keepsButQueue s := h

theorem State.keepsButQueue_setO (h : t.keepsButQueue s) (k v : Nat) : (t.setO k v).keepsButQueue s := h

/-- What both branches of a choice keep, the choice keeps. -/
theorem State.keepsObjects_ite {a b : State} {c : Prop} [Decidable c] {ks : List Nat} (ha : a.keepsObjects s ks)
    (hb : b.keepsObjects s ks) : (if c then a else b).keepsObjects s ks := by
  split
  · exact ha
  · exact hb

/-! ### BUSY (R192) -/

/-- A change of BUSY is noted in the query path's own mark, or staged as an event. -/
theorem State.busyChange_cases (s : State) (was : Bool) :
    (∃ t, s.busyChange was = { s with query := { s.query with busyClear := t } }) ∨
      ∃ d, s.busyChange was = s.stage 0x0405 1 0 d := by
  unfold State.busyChange
  split
  · exact .inl ⟨_, rfl⟩
  · split
    · split
      · split
        · exact .inr ⟨_, rfl⟩
        · exact .inl ⟨s.query.busyClear, rfl⟩
      · exact .inr ⟨_, rfl⟩
    · exact .inl ⟨s.query.busyClear, rfl⟩

theorem State.busyChange_keepsButQueue (s : State) (was : Bool) : (s.busyChange was).keepsButQueue s := by
  rcases s.busyChange_cases was with ⟨t, h⟩ | ⟨d, h⟩ <;> rw [h]
  · rfl
  · exact congrArg (fun v : State => { v with query := s.query }) (s.stage_frame 0x0405 1 0 d)

theorem State.busyChange_keepsObjects (s : State) (was : Bool) : (s.busyChange was).keepsObjects s [Obj.FLT_LOG_LOST] := by
  rcases s.busyChange_cases was with ⟨t, h⟩ | ⟨d, h⟩ <;> rw [h]
  · exact State.keepsObjects_refl s _
  · exact s.stage_keepsObjects _ _ _ _

theorem State.query_stage_eq (s : State) (code cls unit : Nat) (d : List Byte) : (s.stage code cls unit d).query = s.query :=
  (congrArg State.query (s.stage_frame code cls unit d) :)

theorem State.busyChange_queue (s : State) (was : Bool) :
    (s.busyChange was).query.items = s.query.items ∧ (s.busyChange was).query.lastQid = s.query.lastQid := by
  rcases s.busyChange_cases was with ⟨t, h⟩ | ⟨d, h⟩ <;> rw [h]
  · exact ⟨rfl, rfl⟩
  · rw [State.query_stage_eq]
    exact ⟨rfl, rfl⟩

/-! ### Every addressed query is counted and its QID kept (R179) -/

/-- The state in which a query of this QID has been counted. -/
def State.queryCounted (s : State) (qid : Nat) : State := ((s.checkQid qid).wrapBy 48 Obj.QRY_RECEIVED 1).ungate 2

/-- The objects that a query's count may change. -/
def queryCountKeys : List Nat := [Obj.QRY_QIDGAP, Obj.QRY_LASTQID, Obj.QRY_RECEIVED, Obj.CLK_GATE_REQ]

/-- A gap to the previous QID is counted. -/
def State.gapCounted (s : State) (qid : Nat) : State :=
  if s.query.lastQid.any fun p => decide (qid ≠ (p + 1) % 2 ^ 16) then s.bump Obj.QRY_QIDGAP else s

theorem State.gapCounted_cases (s : State) (qid : Nat) : s.gapCounted qid = s ∨ s.gapCounted qid = s.bump Obj.QRY_QIDGAP := by
  unfold State.gapCounted
  split
  · exact .inr rfl
  · exact .inl rfl

/-- The QID of the newest query is kept. -/
def State.qidKept (s : State) (qid : Nat) : State :=
  { s.setO Obj.QRY_LASTQID qid with query := { s.query with lastQid := some qid } }

theorem State.checkQid_eq (s : State) (qid : Nat) : s.checkQid qid = (s.gapCounted qid).qidKept qid := by
  unfold State.checkQid State.gapCounted
  cases s.query.lastQid with
  | none => rfl
  | some p =>
    by_cases hp : qid = (p + 1) % 2 ^ 16
    · simp only [Option.any_some, if_pos hp, decide_eq_false (not_not.mpr hp), Bool.false_eq_true, if_false]
      rfl
    · simp only [Option.any_some, if_neg hp, decide_eq_true hp, if_true]
      rfl

theorem State.gapCounted_keepsButObjects (s : State) (qid : Nat) : (s.gapCounted qid).keepsButObjects s := by
  rcases s.gapCounted_cases qid with h | h <;> rw [h]
  · exact s.keepsButObjects_refl
  · exact State.keepsButObjects_bump s.keepsButObjects_refl _

theorem State.queryCounted_keepsButQueue (s : State) (qid : Nat) : (s.queryCounted qid).keepsButQueue s := by
  have hgap := s.gapCounted_keepsButObjects qid
  unfold State.queryCounted
  rw [s.checkQid_eq]
  exact congrArg (fun v : State => { v with query := s.query, log := s.log }) hgap

theorem State.queryCounted_query (s : State) (qid : Nat) :
    (s.queryCounted qid).query = { s.query with lastQid := some qid } := by
  unfold State.queryCounted
  rw [s.checkQid_eq]
  rcases s.gapCounted_cases qid with h | h <;> rw [h] <;> rfl

theorem State.queryCounted_keepsObjects (s : State) (qid : Nat) : (s.queryCounted qid).keepsObjects s queryCountKeys := by
  have hgap : (s.gapCounted qid).keepsObjects s queryCountKeys := by
    rcases s.gapCounted_cases qid with h | h <;> rw [h]
    · exact State.keepsObjects_refl s _
    · exact State.keepsObjects_bump (State.keepsObjects_refl s _) (by decide)
  have hqid := State.keepsObjects_setO hgap (k := Obj.QRY_LASTQID) (by decide) qid
  unfold State.queryCounted
  rw [s.checkQid_eq]
  exact State.keepsObjects_setOb (State.keepsObjects_setOb (State.keepsObjects_setO hqid (by decide) _) (by decide) _ _)
    (by decide) _ _

/-- The objects of a counted query are those of three writes and of the armature's node. -/
theorem State.o_queryCounted {k : Nat} (s : State) (qid : Nat) (hk : k ≠ Obj.CLK_GATE_REQ) : (s.queryCounted qid).o k =
    (((s.gapCounted qid).setO Obj.QRY_LASTQID qid).wrapBy 48 Obj.QRY_RECEIVED 1).o k := by
  unfold State.queryCounted
  rw [s.checkQid_eq]
  exact (State.o_setOb_ne _ _ _ hk).trans (State.o_setOb_ne _ _ _ hk)

theorem State.queryCounted_received (s : State) (qid : Nat) :
    (s.queryCounted qid).o Obj.QRY_RECEIVED = (s.o Obj.QRY_RECEIVED + 1) % 2 ^ 48 := by
  rw [s.o_queryCounted qid (by decide), State.o_wrapBy, if_pos rfl, State.o_setO_ne _ _ (by decide)]
  rcases s.gapCounted_cases qid with h | h <;> rw [h]
  rw [State.o_bump_ne _ (by decide)]

theorem State.queryCounted_lastQid (s : State) (qid : Nat) : (s.queryCounted qid).o Obj.QRY_LASTQID = qid := by
  rw [s.o_queryCounted qid (by decide), State.o_wrapBy, if_neg (by decide), State.o_setO_self]

theorem State.queryCounted_gap (s : State) (qid : Nat) :
    (s.queryCounted qid).o Obj.QRY_QIDGAP = (s.gapCounted qid).o Obj.QRY_QIDGAP := by
  rw [s.o_queryCounted qid (by decide), State.o_wrapBy, if_neg (by decide), State.o_setO_ne _ _ (by decide)]

theorem State.o_gapCounted_first (h : s.query.lastQid = none) (k : Nat) : (s.gapCounted qid).o k = s.o k := by
  simp [State.gapCounted, h]

theorem State.gapCounted_next {p : Nat} (h : p ∈ s.query.lastQid) : (s.gapCounted qid).o Obj.QRY_QIDGAP =
    if qid = (p + 1) % 2 ^ 16 then s.o Obj.QRY_QIDGAP else satAdd 32 (s.o Obj.QRY_QIDGAP) 1 := by
  have hp : s.query.lastQid = some p := h
  unfold State.gapCounted
  rw [hp]
  by_cases hnext : qid = (p + 1) % 2 ^ 16
  · rw [if_pos hnext, if_neg (by simp [hnext])]
  · rw [if_neg hnext, if_pos (by simpa using hnext), State.o_bump_self]

/-! ### A refused query (R193) -/

/-- A refused query begins or lengthens a run, or is counted alone beyond a saturated one. -/
theorem State.refuse_cases (s : State) (qid : Nat) : (∃ l, s.refuse qid = s.setItems l) ∨ s.refuse qid = s.bump Obj.QRY_REFSAT := by
  unfold State.refuse
  dsimp only
  split
  · split
    · split
      · exact .inr rfl
      · exact .inl ⟨_, rfl⟩
    · exact .inl ⟨_, rfl⟩
  · exact .inl ⟨_, rfl⟩

theorem State.refuse_lengthens {f l d : Nat} (h : s.query.items.getLast? = some (.run f l d (s.o Obj.CF_ADDR)))
    (hl : l < 2 ^ 32 - 1) :
    s.refuse qid = s.setItems (s.query.items.dropLast ++ [.run f (l + 1) d (s.o Obj.CF_ADDR)]) := by
  have hroom : ¬l ≥ 2 ^ 32 - 1 := Nat.not_le.mpr hl
  simp only [State.refuse, h, if_true, if_neg hroom]

theorem State.refuse_begins {e : QEntry} (h : s.query.items.getLast? = some (.entry e)) :
    s.refuse qid = s.setItems (s.query.items ++ [.run qid 1 0 (s.o Obj.CF_ADDR)]) := by
  simp [State.refuse, h]

/-! ### An admitted query (R181, R191, R263) -/

/-- The objects that count what an admitted query is. -/
def State.kindCounted (s : State) (q : Query) (w : Nat) : State :=
  let t := if q.anchor.isFuture then s.bump Obj.QRY_FUTURE else s
  if bit w 21 && !t.flag Obj.CMP_ENABLE then t.bump Obj.CMP_UNCODED else t

/-- The state in which query q has joined the queue at this fill. -/
def State.admitted (s : State) (q : Query) (w fill : Nat) : State :=
  (((s.kindCounted q w).setItems ((s.kindCounted q w).query.items ++
    [.entry { q := q, thin := decide (s.o Obj.QRY_THIN_LEVEL ≤ fill) }])).peak Obj.QRY_PEAK (fill + 1)).busyUpdate fill

theorem State.kindCounted_keepsButObjects (s : State) (q : Query) (w : Nat) : (s.kindCounted q w).keepsButObjects s := by
  unfold State.kindCounted
  dsimp only
  split <;> split <;> exact s.keepsButObjects_refl

theorem State.kindCounted_keepsObjects (s : State) (q : Query) (w : Nat) :
    (s.kindCounted q w).keepsObjects s [Obj.QRY_FUTURE, Obj.CMP_UNCODED] := by
  have hfuture : (if q.anchor.isFuture then s.bump Obj.QRY_FUTURE else s).keepsObjects s [Obj.QRY_FUTURE, Obj.CMP_UNCODED] :=
    State.keepsObjects_ite (State.keepsObjects_bump (State.keepsObjects_refl s _) (by simp)) (State.keepsObjects_refl s _)
  exact State.keepsObjects_ite (State.keepsObjects_bump hfuture (by simp)) hfuture

theorem State.admitted_keepsButQueue (s : State) (q : Query) (w fill : Nat) : (s.admitted q w fill).keepsButQueue s :=
  State.keepsButQueue_trans (State.busyChange_keepsButQueue _ _) (State.keepsButQueue_setO (State.keepsButQueue_setItems
    (State.keepsButQueue_of_objects (s.kindCounted_keepsButObjects q w)) _) _ _)

theorem State.admitted_keepsObjects (s : State) (q : Query) (w fill : Nat) :
    (s.admitted q w fill).keepsObjects s [Obj.QRY_FUTURE, Obj.CMP_UNCODED, Obj.QRY_PEAK, Obj.FLT_LOG_LOST] :=
  State.keepsObjects_trans (State.keepsObjects_mono (State.busyChange_keepsObjects _ _) (by simp))
    (State.keepsObjects_setO (t := (s.kindCounted q w).setItems _)
      (State.keepsObjects_mono (s.kindCounted_keepsObjects q w) (by simp)) (by simp) _)

theorem State.query_kindCounted (s : State) (q : Query) (w : Nat) : (s.kindCounted q w).query = s.query :=
  (congrArg State.query (s.kindCounted_keepsButObjects q w) :)

theorem State.admitted_items (s : State) (q : Query) (w fill : Nat) : (s.admitted q w fill).query.items =
    s.query.items ++ [.entry { q := q, thin := decide (s.o Obj.QRY_THIN_LEVEL ≤ fill) }] := by
  refine (State.busyChange_queue _ _).1.trans ?_
  rw [← s.query_kindCounted q w]
  rfl

theorem State.admitted_lastQid (s : State) (q : Query) (w fill : Nat) :
    (s.admitted q w fill).query.lastQid = s.query.lastQid := by
  refine (State.busyChange_queue _ _).2.trans ?_
  rw [← s.query_kindCounted q w]
  rfl

theorem State.admitted_peak (s : State) (q : Query) (w fill : Nat) :
    (s.admitted q w fill).o Obj.QRY_PEAK = max (s.o Obj.QRY_PEAK) (fill + 1) := by
  refine (State.busyChange_keepsObjects _ _ _ (by decide)).trans ?_
  rw [State.o_peak, if_pos rfl]
  exact congrArg (max · (fill + 1)) (s.kindCounted_keepsObjects q w _ (by decide))

/-! ### Admission as a whole (R191) -/

theorem State.makeQuery_qid (s : State) (w fill : Nat) : (s.makeQuery w fill).qid = bits w 111 96 := rfl

theorem State.enqueueQuery_admits (h : s.query.fill < 256) : s.enqueueQuery w =
    (s.queryCounted (bits w 111 96)).admitted (s.makeQuery w s.query.fill) w s.query.fill := by
  have hroom : ¬s.query.fill ≥ 256 := Nat.not_le.mpr h
  unfold State.enqueueQuery
  dsimp only
  rw [if_neg hroom, State.makeQuery_qid]
  rfl

theorem State.enqueueQuery_refuses (h : 256 ≤ s.query.fill) :
    s.enqueueQuery w = (s.queryCounted (bits w 111 96)).refuse (bits w 111 96) := by
  unfold State.enqueueQuery
  dsimp only
  rw [if_pos h, State.makeQuery_qid]
  rfl

/-- The objects that a counted query's place in the queue may change. -/
def queryJoinKeys : List Nat := [Obj.QRY_FUTURE, Obj.CMP_UNCODED, Obj.QRY_PEAK, Obj.FLT_LOG_LOST, Obj.QRY_REFSAT]

/-- Admitted or refused, a counted query changes only the queue, its own counters and the staged events. -/
theorem State.enqueueQuery_frame (s : State) (w : Nat) : (s.enqueueQuery w).keepsButQueue s ∧
    (s.enqueueQuery w).keepsObjects (s.queryCounted (bits w 111 96)) queryJoinKeys ∧
    (s.enqueueQuery w).query.lastQid = some (bits w 111 96) := by
  have hcount := s.queryCounted_keepsButQueue (bits w 111 96)
  have hlast := congrArg QueryUnit.lastQid (s.queryCounted_query (bits w 111 96))
  by_cases hfill : s.query.fill < 256
  · rw [State.enqueueQuery_admits hfill]
    exact ⟨State.keepsButQueue_trans (State.admitted_keepsButQueue _ _ _ _) hcount,
      State.keepsObjects_mono (State.admitted_keepsObjects _ _ _ _) (by decide), (State.admitted_lastQid _ _ _ _).trans hlast⟩
  · rw [State.enqueueQuery_refuses (Nat.not_lt.mp hfill)]
    rcases (s.queryCounted (bits w 111 96)).refuse_cases (bits w 111 96) with ⟨l, h⟩ | h <;> rw [h]
    · exact ⟨State.keepsButQueue_setItems hcount l, State.keepsObjects_refl _ _, hlast⟩
    · exact ⟨State.keepsButQueue_setO hcount _ _, State.keepsObjects_bump (State.keepsObjects_refl _ _) (by decide), hlast⟩

/-! ### A hub sends the query on (R216, R232) -/

/-- The word that a port gets: that of Ragil 1.2 for an SLF32. -/
def State.portWord (s : State) (w k : Nat) : Nat := if s.o (Obj.HUB_PKIND k) = 2 then query12 w else w

/-- Blocks have gone out, and the ports are those of v. -/
def State.sentOn (s : State) (o : List Sent) (v : Vector HubPort 8) : State :=
  { s with out := s.out ++ o, hub := { s.hub with ports := v } }

/-- A query goes out on every port in UP, which keep its QID as their newest. -/
theorem State.forwardQuery_eq (s : State) (w : Nat) : ∃ v, s.forwardQuery w =
    s.sentOn (s.portsUp.map fun k => Sent.block (.south (portFin k)) 0x5A (queryParts (s.portWord w k))) v := by
  have hports : ∀ (l : List Nat) (t : State), t.obj = s.obj → ∃ v,
      (l.foldl (fun t k =>
        let t := t.emitBlock (.south (portFin k)) 0x5A (queryParts (if t.o (Obj.HUB_PKIND k) = 2 then query12 w else w))
        t.setPort k { t.port k with newest := bits w 111 96 }) t) = 
          t.sentOn (l.map fun k => Sent.block (.south (portFin k)) 0x5A (queryParts (s.portWord w k))) v := by
    intro l
    induction l with
    | nil => exact fun t _ => ⟨t.hub.ports, by simp [State.sentOn]⟩
    | cons k l ih =>
      intro t ht
      have hword : (if t.o (Obj.HUB_PKIND k) = 2 then query12 w else w) = s.portWord w k := by
        rw [State.o_congr ht, State.portWord]
      obtain ⟨v, hv⟩ := ih ((t.emitBlock (.south (portFin k)) 0x5A (queryParts (s.portWord w k))).setPort k
        { t.port k with newest := bits w 111 96 }) ht
      refine ⟨v, ?_⟩
      rw [List.foldl_cons, hword]
      refine hv.trans ?_
      simp [State.sentOn, State.emitBlock, State.emit, State.setPort]
  exact hports s.portsUp s rfl

theorem State.mem_portsUp {k : Port} (h : s.isHub = true) : k.val ∈ s.portsUp ↔ s.o (Obj.HUB_PSTATE k) = 3 := by
  simp [State.portsUp, h]

/-! ### A merging hub opens a record (R215, R219) -/

/-- The positions of a new record: the device, and each enabled port, which is absent at once where it is not in UP. -/
def State.recordPos (s : State) : List Pos := (List.range 9).map fun p =>
  if p = 0 then Pos.awaited
  else if bit (s.o Obj.HUB_PORT_EN) (p - 1) then (if (p - 1) ∈ s.portsUp then .awaited else .closed 1) else .unexpected

/-- The record of a query. -/
def State.recordOf (s : State) (q : Query) (comp : Bool) (qid anchor : Nat) : MRec :=
  { qid := qid, anchor := anchor, type := q.type,
    filtered := q.type == 1 || q.type == 3 || (q.type == 0 && (q.totcut != 0 || comp || q.cntonly)), addr := q.addr,
    pos := s.recordPos }

/-- The enabled ports that are not in UP. -/
def State.downPorts (s : State) : List Nat := (bitList 8 (s.o Obj.HUB_PORT_EN)).filter fun k => !(k ∈ s.portsUp)

theorem State.newRecord_eq (s : State) (q : Query) (comp : Bool) (qid anchor : Nat) : s.newRecord q comp qid anchor =
    (s.setRecs (s.hub.recs ++ [s.recordOf q comp qid anchor])).bumpAll Obj.HUB_ABSENT s.downPorts := rfl

theorem State.recordOf_at_device (s : State) (q : Query) (comp : Bool) (qid anchor : Nat) :
    (s.recordOf q comp qid anchor).at_ 0 = .awaited := rfl

theorem State.recordOf_at_port (s : State) (hhub : s.isHub = true) (q : Query) (comp : Bool) (qid anchor : Nat) (k : Port) :
    (s.recordOf q comp qid anchor).at_ (k + 1) = if s.ob Obj.HUB_PORT_EN k = false then .unexpected
      else if s.o (Obj.HUB_PSTATE k) = 3 then .awaited else .closed 1 := by
  have hk : k.val + 1 < 9 := by omega
  have hat : (s.recordOf q comp qid anchor).at_ (k + 1) =
      if s.ob Obj.HUB_PORT_EN k then (if k.val ∈ s.portsUp then .awaited else .closed 1) else .unexpected := by
    simp [MRec.at_, State.recordOf, State.recordPos, State.ob, List.getD_eq_getElem?_getD, hk]
    rfl
  simp only [hat, State.mem_portsUp hhub]
  cases s.ob Obj.HUB_PORT_EN k <;> simp

theorem State.bumpAll_keepsButObjects (s : State) (f : Nat → Nat) (l : List Nat) : (s.bumpAll f l).keepsButObjects s := by
  induction l generalizing s with
  | nil => exact s.keepsButObjects_refl
  | cons k l ih => exact State.keepsButObjects_trans (ih (s.bump (f k))) (State.keepsButObjects_bump s.keepsButObjects_refl _)

theorem State.bumpAll_keepsObjects (s : State) (f : Nat → Nat) (l : List Nat) : (s.bumpAll f l).keepsObjects s (l.map f) :=
  fun _ hj => State.o_bumpAll_of_notMem fun _ hk e => hj (e ▸ List.mem_map_of_mem hk)

/-! ### What a hub has done with a query before it is queued -/

/-- Nothing but objects, what goes out and the hub's own part differs from s. -/
def State.keepsButHub (t s : State) : Prop := { t with obj := s.obj, out := s.out, hub := s.hub } = s

/-- The state in which a hub has sent a query on. -/
def State.queryForwarded (s : State) (w : Nat) : State := if s.isHub then s.forwardQuery w else s

/-- The state in which a merging hub has opened the query's record. -/
def State.queryRecorded (s : State) (w : Nat) : State :=
  match s.mergeMode, s.recordNames (s.makeQuery w s.query.fill) with
  | true, some (qid, a) => s.newRecord (s.makeQuery w s.query.fill) (bit w 21) qid a
  | _, _ => s

theorem State.queryReceive_early (h : s.o Obj.RG_LSTATE ≠ 3 ∨ s.dataReady = false) : s.queryReceive w = s.bump Obj.RG_RX_EARLY := by
  simp [State.queryReceive, h]

theorem State.queryReceive_unaddressed (hup : s.o Obj.RG_LSTATE = 3) (hready : s.dataReady = true) (ha : s.o Obj.CF_ADDR / 16 = 0xFFF) :
    s.queryReceive w = s.bump Obj.QRY_UNADDR := by
  simp [State.queryReceive, State.clusterId, hup, hready, ha]

theorem State.queryReceive_addressed (hup : s.o Obj.RG_LSTATE = 3) (hready : s.dataReady = true) (ha : s.o Obj.CF_ADDR / 16 ≠ 0xFFF) :
    s.queryReceive w = ((s.queryForwarded w).queryRecorded w).enqueueQuery w := by
  simp only [State.queryReceive, State.clusterId, hup, hready, ha, ne_eq, not_true_eq_false, Bool.not_true, decide_false,
    Bool.or_self, Bool.false_eq_true, if_false]
  unfold State.queryRecorded State.queryForwarded
  rfl

theorem State.queryForwarded_cases (s : State) (w : Nat) : ∃ o v,
    s.queryForwarded w = s.sentOn o v ∧
      (s.isHub = false → o = [] ∧ v = s.hub.ports) ∧
      (s.isHub = true → o = s.portsUp.map fun k => Sent.block (.south (portFin k)) 0x5A (queryParts (s.portWord w k))) := by
  unfold State.queryForwarded
  cases hhub : s.isHub with
  | false => exact ⟨[], s.hub.ports, by simp [State.sentOn], by simp, by simp⟩
  | true =>
    obtain ⟨v, hv⟩ := s.forwardQuery_eq w
    exact ⟨_, v, hv, by simp, by simp⟩

/-- What is known of a query's state once a hub has sent it on and recorded it. -/
structure State.Announced (t s : State) (w : Nat) : Prop where
  frame : t.keepsButHub s
  keeps : t.keepsObjects s ((List.range 8).map Obj.HUB_ABSENT)
  out_leaf : s.isHub = false → t.out = s.out ∧ t.hub = s.hub
  out_hub : s.isHub = true →
    t.out = s.out ++ s.portsUp.map fun k => Sent.block (.south (portFin k)) 0x5A (queryParts (s.portWord w k))
  recs : s.isHub = true → s.o Obj.HUB_MODE = 0 → s.query.fill < 256 → ∃ x, t.hub.recs = s.hub.recs ++ [x] ∧
    x.qid = bits w 111 96 ∧ x.addr = s.o Obj.CF_ADDR ∧ x.at_ 0 = .awaited ∧ ∀ k : Port, x.at_ (k + 1) =
      if s.ob Obj.HUB_PORT_EN k = false then .unexpected else if s.o (Obj.HUB_PSTATE k) = 3 then .awaited else .closed 1

/-- A record is opened or not; only the records and HUB_ABSENT follow. -/
theorem State.queryRecorded_cases (s : State) (w : Nat) : s.queryRecorded w = s ∨
    ∃ x, s.queryRecorded w = (s.setRecs (s.hub.recs ++ [x])).bumpAll Obj.HUB_ABSENT s.downPorts := by
  unfold State.queryRecorded
  split
  · exact .inr ⟨_, State.newRecord_eq _ _ _ _ _⟩
  · exact .inl rfl

theorem State.queryRecorded_leaf (h : s.isHub = false) : s.queryRecorded w = s := by
  have hmerge : s.mergeMode = false := by simp [State.mergeMode, h]
  simp [State.queryRecorded, hmerge]

theorem State.queryRecorded_opens (hhub : s.isHub = true) (hmode : s.o Obj.HUB_MODE = 0) (hfill : s.query.fill < 256) :
    s.queryRecorded w = (s.setRecs (s.hub.recs ++ [s.recordOf (s.makeQuery w s.query.fill) (bit w 21) (bits w 111 96)
      (s.makeQuery w s.query.fill).anchor.field])).bumpAll Obj.HUB_ABSENT s.downPorts := by
  have hmerge : s.mergeMode = true := by simp [State.mergeMode, hhub, hmode]
  have hnames : s.recordNames (s.makeQuery w s.query.fill) = some (bits w 111 96, (s.makeQuery w s.query.fill).anchor.field) :=
    if_pos hfill
  simp only [State.queryRecorded, hmerge, hnames]
  exact State.newRecord_eq _ _ _ _ _

theorem State.downPorts_subset (s : State) : s.downPorts ⊆ List.range 8 :=
  fun _ hk => List.mem_of_mem_filter (List.mem_of_mem_filter hk)

/-- The record that is opened changes only the hub's part and HUB_ABSENT. -/
theorem State.queryRecorded_frame (s : State) (w : Nat) : (s.queryRecorded w).out = s.out ∧ (s.queryRecorded w).keepsButHub s ∧
    (s.queryRecorded w).keepsObjects s ((List.range 8).map Obj.HUB_ABSENT) := by
  rcases s.queryRecorded_cases w with h | ⟨x, h⟩ <;> rw [h]
  · exact ⟨rfl, rfl, State.keepsObjects_refl s _⟩
  · have hbump := (s.setRecs (s.hub.recs ++ [x])).bumpAll_keepsButObjects Obj.HUB_ABSENT s.downPorts
    refine ⟨(congrArg State.out hbump :), (congrArg (fun v : State => { v with out := s.out, hub := s.hub }) hbump :), ?_⟩
    exact State.keepsObjects_mono (State.bumpAll_keepsObjects (s.setRecs (s.hub.recs ++ [x])) _ _)
      (List.map_subset _ s.downPorts_subset)

theorem State.keepsButHub_trans (h : r.keepsButHub t) (h' : t.keepsButHub s) : r.keepsButHub s := by
  have hr := congrArg (fun v : State => { v with obj := s.obj, out := s.out, hub := s.hub }) h
  exact hr.trans h'

/-- A query is announced before it is queued: sent on, and recorded in merge mode. -/
theorem State.announced (s : State) (w : Nat) : ((s.queryForwarded w).queryRecorded w).Announced s w := by
  obtain ⟨o, v, hr, hleaf, hhub⟩ := s.queryForwarded_cases w
  obtain ⟨hout, hframe, hkeeps⟩ := (s.queryForwarded w).queryRecorded_frame w
  rw [hr] at hout hframe hkeeps ⊢
  refine ⟨State.keepsButHub_trans hframe rfl, hkeeps, fun h => ?_, fun h => ?_, fun h hmode hfill => ?_⟩
  · obtain ⟨rfl, rfl⟩ := hleaf h
    rw [State.queryRecorded_leaf (s := s.sentOn [] s.hub.ports) h]
    exact ⟨List.append_nil _, rfl⟩
  · rw [hout, ← hhub h]
    rfl
  · have hopens := State.queryRecorded_opens (s := s.sentOn o v) (w := w) h hmode hfill
    refine ⟨(s.sentOn o v).recordOf ((s.sentOn o v).makeQuery w s.query.fill) (bit w 21) (bits w 111 96)
      ((s.sentOn o v).makeQuery w s.query.fill).anchor.field, ?_, rfl, rfl, State.recordOf_at_device _ _ _ _ _, fun k => State.recordOf_at_port (s.sentOn o v) h _ _ _ _ k⟩
    rw [hopens]
    exact (congrArg (fun u : State => u.hub.recs) (State.bumpAll_keepsButObjects ((s.sentOn o v).setRecs _) _ _) :)

theorem notMem_absentKeys {k : Nat} (h : k < objKey 0x3410 0 ∨ objKey 0x3418 0 ≤ k) : k ∉ (List.range 8).map Obj.HUB_ABSENT := by
  simp only [List.mem_map, List.mem_range, not_exists, not_and, Obj.HUB_ABSENT, objKey] at h ⊢
  omega

theorem State.Announced.o (h : t.Announced s w) {k : Nat} (hk : k < objKey 0x3410 0 ∨ objKey 0x3418 0 ≤ k) : t.o k = s.o k :=
  h.keeps k (notMem_absentKeys hk)

theorem State.Announced.query (h : t.Announced s w) : t.query = s.query := (congrArg State.query h.frame :)

/-- What a query captures at receipt does not hang on its having been sent on. -/
theorem State.Announced.makeQuery (h : t.Announced s w) (v fill : Nat) : t.makeQuery v fill = s.makeQuery v fill := by
  have hlt : bits v 37 34 < 16 := Nat.mod_lt _ (by decide)
  have hregion : t.o (Obj.QRY_REGION (bits v 37 34)) = s.o (Obj.QRY_REGION (bits v 37 34)) := by
    apply h.o
    simp only [Obj.QRY_REGION, objKey]
    omega
  simp only [State.makeQuery, State.xc, State.flag, hregion, h.o (k := Obj.XC_COUNT) (by decide),
    h.o (k := Obj.CMP_ENABLE) (by decide), h.o (k := Obj.QRY_BUSY_LEVEL) (by decide), h.o (k := Obj.CF_ADDR) (by decide)]

/-- What the receipt of an announced query shows of its count. -/
theorem State.Announced.counted (h : t.Announced s w) :
    (t.enqueueQuery w).o Obj.QRY_RECEIVED = (s.o Obj.QRY_RECEIVED + 1) % 2 ^ 48 ∧
    (t.enqueueQuery w).o Obj.QRY_LASTQID = bits w 111 96 ∧
    (∀ p ∈ s.query.lastQid, (t.enqueueQuery w).o Obj.QRY_QIDGAP =
      if bits w 111 96 = (p + 1) % 2 ^ 16 then s.o Obj.QRY_QIDGAP else satAdd 32 (s.o Obj.QRY_QIDGAP) 1) ∧
    (s.query.lastQid = none → (t.enqueueQuery w).o Obj.QRY_QIDGAP = s.o Obj.QRY_QIDGAP) := by
  obtain ⟨-, hkeeps, -⟩ := t.enqueueQuery_frame w
  have hgap := (hkeeps Obj.QRY_QIDGAP (by decide)).trans (t.queryCounted_gap _)
  refine ⟨(hkeeps _ (by decide)).trans ((t.queryCounted_received _).trans ?_),
    (hkeeps _ (by decide)).trans (t.queryCounted_lastQid _), fun p hp => ?_, fun hnone => ?_⟩
  · rw [h.o (by decide)]
  · rw [hgap, State.gapCounted_next (h.query ▸ hp), h.o (by decide)]
  · rw [hgap, State.o_gapCounted_first (h.query ▸ hnone), h.o (by decide)]

/-- What the receipt of an announced query leaves as it was. -/
theorem State.Announced.receipt_frame (h : t.Announced s w) :
    { t.enqueueQuery w with obj := s.obj, query := s.query, out := s.out, hub := s.hub, log := s.log } = s := by
  obtain ⟨hqueue, -, -⟩ := t.enqueueQuery_frame w
  have hq := congrArg (fun v : State => { v with obj := s.obj, query := s.query, out := s.out, hub := s.hub, log := s.log }) hqueue
  have hh := congrArg (fun v : State => { v with query := s.query, log := s.log }) h.frame
  exact hq.trans hh

end Sys2Proof.Machine
end

section
/-! SUPPORT. The statement on the receipt of queries. -/
namespace Sys2Proof.Machine

/-- Settles O16: a query that is neither early nor unaddressed is announced by a hub and then counted, and joins the queue or the
refusal run at its end. -/
theorem aQueryIsAdmittedThinnedOrRefused : Obligations.AQueryIsAdmittedThinnedOrRefused := by
  unfold Obligations.AQueryIsAdmittedThinnedOrRefused
  intro w f l d s ha
  refine ⟨fun h => exec_of_awake ha rfl (State.queryReceive_early h),
    fun hup hready haddr => exec_of_awake ha rfl (State.queryReceive_unaddressed hup hready haddr), fun hup hready haddr => ?_⟩
  have hexec := exec_of_awake (i := .queryReceive w) ha rfl (State.queryReceive_addressed (w := s.queryWord w.toNat) hup hready haddr)
  have hann := s.announced (s.queryWord w.toNat)
  generalize s.queryWord w.toNat = v at hexec hann ⊢
  generalize (s.queryForwarded v).queryRecorded v = r at hexec hann
  have hquery := hann.query
  have hcf : (r.queryCounted (bits v 111 96)).o Obj.CF_ADDR = s.o Obj.CF_ADDR :=
    (r.queryCounted_keepsObjects _ _ (by decide)).trans (hann.o (by decide))
  have hitems : (r.queryCounted (bits v 111 96)).query.items = s.query.items := by rw [r.queryCounted_query, hquery]
  obtain ⟨hqueue, -, hlast⟩ := r.enqueueQuery_frame v
  have hout : (r.enqueueQuery v).out = r.out ∧ (r.enqueueQuery v).hub = r.hub :=
    ⟨(congrArg State.out hqueue :), (congrArg State.hub hqueue :)⟩
  obtain ⟨hreceived, hqid, hgap, hfirst⟩ := hann.counted
  refine ⟨_, hexec, hreceived, hqid, hlast, hgap, hfirst, fun hroom => ?joins, fun hfull hrun hlen => ?lengthens,
    fun hfull hentry => ?begins, fun hrole => ?leaf, fun hrole => ?hub, fun hrole hmode hroom => ?records, hann.receipt_frame⟩
  case joins =>
    rw [State.enqueueQuery_admits (hquery ▸ hroom), hquery, hann.makeQuery]
    refine ⟨(State.admitted_items _ _ _ _).trans ?_, (State.admitted_peak _ _ _ _).trans ?_⟩
    · rw [hitems, r.queryCounted_keepsObjects _ Obj.QRY_THIN_LEVEL (by decide), hann.o (by decide)]
    · rw [r.queryCounted_keepsObjects _ Obj.QRY_PEAK (by decide), hann.o (by decide)]
  case lengthens =>
    rw [State.enqueueQuery_refuses (hquery ▸ hfull), State.refuse_lengthens (by rw [hitems, hcf]; exact hrun) hlen, hitems, hcf]
    rfl
  case begins =>
    obtain ⟨x, hx, hentry⟩ := Option.map_eq_some_iff.mp hentry
    cases x with
    | run f l d a => exact absurd hentry (by simp)
    | entry e =>
      rw [State.enqueueQuery_refuses (hquery ▸ hfull), State.refuse_begins (by rw [hitems]; exact hx), hitems, hcf]
      rfl
  case leaf =>
    rw [hout.1, hout.2]
    exact hann.out_leaf (State.isHub_eq_false hrole)
  case hub =>
    rw [hout.1]
    exact hann.out_hub (State.isHub_eq_true hrole)
  case records =>
    obtain ⟨x, hrecs, hx⟩ := hann.recs (State.isHub_eq_true hrole) hmode hroom
    rw [hout.2, hrecs]
    refine ⟨by simp, by simp, fun y hy => ?_⟩
    have hy : y = x := by simpa using hy.symm
    exact hy ▸ hx

end Sys2Proof.Machine
end

section
/-! SUPPORT. The event block pool in one core cycle: what each agent's turn does, and in which order (R205, R206, R207). -/
namespace Sys2Proof.Machine

variable {s t r : State} {a x y g : PoolAgent} {acts : List (PoolAgent × PoolAct)} {f : PoolAct} {b : Nat} {n : Fin 4} {e : QEntry}

/-! ### What the pool's operations may change -/

/-- Nothing but objects, the query path and the scratchpad differs from s. -/
def State.keepsButPool (t s : State) : Prop := { t with obj := s.obj, query := s.query, spm := s.spm } = s

theorem State.keepsButPool_trans (h : r.keepsButPool t) (h' : t.keepsButPool s) : r.keepsButPool s := by
  have hr := congrArg (fun v : State => { v with obj := s.obj, query := s.query, spm := s.spm }) h
  exact hr.trans h'

theorem State.keepsButPool_setO (h : t.keepsButPool s) (k v : Nat) : (t.setO k v).keepsButPool s := h

theorem State.keepsButPool_setItems (h : t.keepsButPool s) (l : List QItem) : (t.setItems l).keepsButPool s := h

theorem State.keepsButPool_foldl {β : Type} {step : State → β → State} (h : ∀ u z, (step u z).keepsButPool u) (l : List β) (s : State) :
    (l.foldl step s).keepsButPool s := by
  induction l generalizing s with
  | nil => rfl
  | cons z l ih => exact State.keepsButPool_trans (ih _) (h s z)

theorem State.keepsButPool_ite {u v : State} {c : Prop} [Decidable c] (hu : u.keepsButPool s) (hv : v.keepsButPool s) :
    (if c then u else v).keepsButPool s := by
  split
  · exact hu
  · exact hv

/-- What keeps all but the pool keeps the ranks and the NVM. -/
theorem State.keepsButPool.stores (h : t.keepsButPool s) : t.rankMem = s.rankMem ∧ t.nvm = s.nvm :=
  ⟨(congrArg State.rankMem h :), (congrArg State.nvm h :)⟩

/-! ### Owners and allocations (R205) -/

theorem State.owner_setOwner_self (s : State) (b o : Nat) : (s.setOwner b o).owner b = o := sget_sset_self 0 _ b o

theorem State.owner_setOwner_ne (s : State) {b c : Nat} (o : Nat) (h : c ≠ b) : (s.setOwner b o).owner c = s.owner c :=
  sget_sset_ne 0 0 _ o h

/-- The lowest free block is free. -/
theorem State.owner_of_freeBlock (h : s.freeBlock = some b) : s.owner b = 0 := by
  simpa using List.find?_some h

/-- Block b has become agent a's. -/
def State.taken (s : State) (a : PoolAgent) (b : Nat) : State :=
  (s.setOwner b (agentCode a)).setO Obj.POOL_MIN (min (s.o Obj.POOL_MIN) (s.setOwner b (agentCode a)).poolFree)

theorem State.allocate_none (h : s.freeBlock = none) : s.allocate a = (s, none) := by
  simp only [State.allocate, h]

theorem State.allocate_some (h : s.freeBlock = some b) : s.allocate a = (s.taken a b, some b) := by
  simp only [State.allocate, h]
  rfl

theorem State.allocate_keepsButPool (s : State) (a : PoolAgent) : (s.allocate a).1.keepsButPool s := by
  cases h : s.freeBlock with
  | none => rw [State.allocate_none h]; rfl
  | some b => rw [State.allocate_some h]; rfl

/-! ### Releases and transfers (R205, R206) -/

theorem State.release_keepsButPool (s : State) (a : PoolAgent) (b : Nat) : (s.release_ a b).keepsButPool s :=
  State.keepsButPool_ite rfl (State.keepsButPool_ite rfl rfl)

theorem State.transfer_keepsButPool (s : State) (a x : PoolAgent) (b : Nat) : (s.transfer a x b).keepsButPool s :=
  State.keepsButPool_ite rfl rfl

theorem State.poolAct_keepsButPool (s : State) (z : PoolAgent × PoolAct) : (s.poolAct z).keepsButPool s := by
  unfold State.poolAct
  split
  · exact State.keepsButPool_ite rfl (s.release_keepsButPool _ _)
  · exact State.keepsButPool_ite rfl (s.transfer_keepsButPool _ _ _)

/-- The owner of an unused block releases it. -/
theorem State.poolAct_release {m : BitVec 8} (ho : s.owner m.toNat = agentCode x) (hu : s.blockUsed m.toNat = false) :
    s.poolAct (x, .release m) = s.setOwner m.toNat 0 := by
  simp [State.poolAct, State.release_, ho, hu]

/-- The owner of an unused block transfers it. -/
theorem State.poolAct_transfer {m : BitVec 8} (ho : s.owner m.toNat = agentCode x) (hu : s.blockUsed m.toNat = false) :
    s.poolAct (x, .transfer m y) = s.setOwner m.toNat (agentCode y) := by
  simp [State.poolAct, State.transfer, ho, hu]

/-- A release by another agent only counts. -/
theorem State.poolAct_release_foreign {m : BitVec 8} (ho : s.owner m.toNat ≠ agentCode x) :
    s.poolAct (x, .release m) = s.bump (if s.owner m.toNat = 0 then Obj.POOL_DOUBLE else Obj.POOL_FOREIGN) := by
  by_cases hfree : s.owner m.toNat = 0
  · have hx : 0 ≠ agentCode x := hfree ▸ ho
    simp [State.poolAct, State.release_, hfree, hx]
  · simp [State.poolAct, State.release_, ho, hfree]

/-- A transfer by another agent only counts. -/
theorem State.poolAct_transfer_foreign {m : BitVec 8} (ho : s.owner m.toNat ≠ agentCode x) :
    s.poolAct (x, .transfer m y) = s.bump Obj.POOL_FOREIGN := by
  simp [State.poolAct, State.transfer, ho]

/-! ### The order of a core cycle (R206) -/

/-- The agents in the order of their turns. -/
def poolAgents : List PoolAgent := [.query, .builder, .replay, .supervisor]

theorem State.poolAllocate_eq (s : State) (a : PoolAgent) (acts : List (PoolAgent × PoolAct)) :
    s.poolAllocate a acts = poolAgents.foldl (State.poolTurn a acts) s := rfl

theorem poolAgents_split (x : PoolAgent) : poolAgents =
    (poolAgents.filter fun g => agentCode g < agentCode x) ++ x :: poolAgents.filter fun g => agentCode x < agentCode g := by
  cases x <;> rfl

/-- Between two agents' turns come those of the agents between them. -/
theorem poolAgents_split_two (h : agentCode a < agentCode x) : poolAgents =
    (poolAgents.filter fun g => agentCode g < agentCode a) ++ a ::
      ((poolAgents.filter fun g => agentCode a < agentCode g ∧ agentCode g < agentCode x) ++ x ::
        poolAgents.filter fun g => agentCode x < agentCode g) := by
  revert h
  cases a <;> cases x <;> decide

/-- An agent that asks nothing and has no allocation that can go on does nothing in its turn. -/
theorem State.poolTurn_idle (hacts : ∀ z ∈ acts, z.1 ≠ g) (hne : g ≠ a) (hwait : g ∉ s.query.poolWait ∨ s.freeBlock = none) :
    s.poolTurn a acts g = s := by
  have hnone : acts.filter (fun z => decide (z.1 = g)) = [] := by simpa [List.filter_eq_nil_iff] using hacts
  have hskip : ¬(g = a ∨ (g ∈ s.query.poolWait ∧ s.freeBlock.isSome = true)) := by
    rintro (h | ⟨hmem, hfree⟩)
    · exact hne h
    · rcases hwait with h | h
      · exact h hmem
      · simp [h] at hfree
  simp only [State.poolTurn, hnone, List.foldl_nil, if_neg hskip]

/-- The agent that allocates, and asks nothing else, takes its block in its turn. -/
theorem State.poolTurn_takes (hacts : ∀ z ∈ acts, z.1 ≠ a) : s.poolTurn a acts a = s.poolTake a := by
  have hnone : acts.filter (fun z => decide (z.1 = a)) = [] := by simpa [List.filter_eq_nil_iff] using hacts
  simp only [State.poolTurn, hnone, List.foldl_nil, true_or, if_true]

/-- An agent's turn with its one operation is its turn after that operation. -/
theorem State.poolTurn_acts (s : State) (a x : PoolAgent) (f : PoolAct) :
    s.poolTurn a [(x, f)] x = (s.poolAct (x, f)).poolTurn a [] x := by
  have hown : [(x, f)].filter (fun z => decide (z.1 = x)) = [(x, f)] := by simp
  unfold State.poolTurn
  rw [hown, List.filter_nil]
  rfl

/-- Another agent's operation is nothing in one's own turn. -/
theorem State.poolTurn_others (h : g ≠ x) (s : State) (a : PoolAgent) (f : PoolAct) :
    s.poolTurn a [(x, f)] g = s.poolTurn a [] g := by
  have hnone : [(x, f)].filter (fun z => decide (z.1 = g)) = [] := by simp [h.symm]
  unfold State.poolTurn
  rw [hnone, List.filter_nil]

theorem State.foldl_idle {step : State → PoolAgent → State} {l : List PoolAgent} (h : ∀ g ∈ l, step s g = s) : l.foldl step s = s := by
  induction l with
  | nil => rfl
  | cons g l ih =>
    obtain ⟨hg, hl⟩ := List.forall_mem_cons.mp h
    rw [List.foldl_cons, hg]
    exact ih hl

/-- Where no other agent's allocation can go on, the cycle is the allocation alone. -/
theorem State.poolAllocate_alone (hbefore : ∀ g, g ≠ a → g ∉ s.query.poolWait ∨ s.freeBlock = none)
    (hafter : ∀ g, g ≠ a → g ∉ (s.poolTake a).query.poolWait ∨ (s.poolTake a).freeBlock = none) :
    s.poolAllocate a [] = s.poolTake a := by
  have hne {g : PoolAgent} (h : agentCode g < agentCode a ∨ agentCode a < agentCode g) : g ≠ a := by
    rintro rfl
    omega
  have hfirst : (poolAgents.filter fun g => agentCode g < agentCode a).foldl (State.poolTurn a []) s = s := by
    refine State.foldl_idle fun g hg => ?_
    have hg := hne (.inl (by simpa using (List.mem_filter.mp hg).2))
    exact State.poolTurn_idle (by simp) hg (hbefore g hg)
  have hlast : (poolAgents.filter fun g => agentCode a < agentCode g).foldl (State.poolTurn a []) (s.poolTake a) = s.poolTake a := by
    refine State.foldl_idle fun g hg => ?_
    have hg := hne (.inr (by simpa using (List.mem_filter.mp hg).2))
    exact State.poolTurn_idle (by simp) hg (hafter g hg)
  rw [State.poolAllocate_eq, poolAgents_split a, List.foldl_append, List.foldl_cons, hfirst, State.poolTurn_takes (by simp), hlast]

/-- Where no earlier agent allocates, an agent's operation comes first. -/
theorem State.poolAllocate_acts_first (hx : agentCode x ≤ agentCode a) (hwait : ∀ z ∈ s.query.poolWait, agentCode x ≤ agentCode z)
    (hkeep : (s.poolAct (x, f)).query.poolWait = s.query.poolWait) :
    s.poolAllocate a [(x, f)] = (s.poolAct (x, f)).poolAllocate a [] := by
  have hidle (acts : List (PoolAgent × PoolAct)) (hacts : ∀ z ∈ acts, z.1 = x) (u : State) (hu : u.query.poolWait = s.query.poolWait) :
      (poolAgents.filter fun g => agentCode g < agentCode x).foldl (State.poolTurn a acts) u = u := by
    refine State.foldl_idle fun g hg => ?_
    have hlt : agentCode g < agentCode x := by simpa using (List.mem_filter.mp hg).2
    refine State.poolTurn_idle (fun z hz e => ?_) (fun e => ?_) (.inl fun hmem => ?_)
    · rw [← e, hacts z hz] at hlt
      omega
    · rw [e] at hlt
      omega
    · exact absurd (hwait g (hu ▸ hmem)) (Nat.not_le.mpr hlt)
  have hrest (u : State) : (poolAgents.filter fun g => agentCode x < agentCode g).foldl (State.poolTurn a [(x, f)]) u =
      (poolAgents.filter fun g => agentCode x < agentCode g).foldl (State.poolTurn a []) u := by
    refine List.foldl_ext _ _ _ fun v g hg => State.poolTurn_others (fun e => ?_) v a f
    have hlt : agentCode x < agentCode g := by simpa using (List.mem_filter.mp hg).2
    rw [e] at hlt
    omega
  rw [State.poolAllocate_eq, State.poolAllocate_eq, poolAgents_split x]
  simp only [List.foldl_append, List.foldl_cons]
  rw [hidle _ (by simp) s rfl, hidle _ (by simp) _ hkeep, State.poolTurn_acts, hrest]

/-- A later agent's operation comes after the allocation, where no other agent waits. -/
theorem State.poolAllocate_acts_later (hx : agentCode a < agentCode x) (hbefore : s.query.poolWait = [])
    (htake : ∀ g ∈ (s.poolTake a).query.poolWait, g = a)
    (hact : ∀ g ∈ ((s.poolTake a).poolAct (x, f)).query.poolWait, g = a) :
    s.poolAllocate a [(x, f)] = (s.poolTake a).poolAct (x, f) := by
  have hne {g : PoolAgent} (h : agentCode a < agentCode g) : g ≠ a := by
    rintro rfl
    omega
  have hnotx {g : PoolAgent} (h : agentCode g < agentCode x ∨ agentCode x < agentCode g) : ∀ z ∈ [(x, f)], z.1 ≠ g := by
    rintro z hz rfl
    obtain rfl := List.mem_singleton.mp hz
    exact h.elim (Nat.lt_irrefl _) (Nat.lt_irrefl _)
  rw [State.poolAllocate_eq, poolAgents_split_two hx]
  simp only [List.foldl_append, List.foldl_cons]
  rw [State.foldl_idle (s := s) fun g hg => ?before, State.poolTurn_takes (hnotx (.inl hx)),
    State.foldl_idle (s := s.poolTake a) fun g hg => ?between, State.poolTurn_acts,
    State.poolTurn_idle (by simp) (hne hx) (.inl fun hmem => hne hx (hact x hmem)), State.foldl_idle fun g hg => ?after]
  case before =>
    have hlt : agentCode g < agentCode a := by simpa using (List.mem_filter.mp hg).2
    exact State.poolTurn_idle (hnotx (.inl (hlt.trans hx))) (fun e => by rw [e] at hlt; omega) (.inl (by simp [hbefore]))
  case between =>
    obtain ⟨hlo, hhi⟩ : agentCode a < agentCode g ∧ agentCode g < agentCode x := by simpa using (List.mem_filter.mp hg).2
    exact State.poolTurn_idle (hnotx (.inl hhi)) (hne hlo) (.inl fun hmem => hne hlo (htake g hmem))
  case after =>
    have hlt : agentCode x < agentCode g := by simpa using (List.mem_filter.mp hg).2
    exact State.poolTurn_idle (hnotx (.inr hlt)) (hne (hx.trans hlt)) (.inl fun hmem => hne (hx.trans hlt) (hact g hmem))

/-- The operations of two agents come in the order of their turns, however they are listed. -/
theorem State.poolAllocate_comm {k : PoolAct} (h : x ≠ y) (s : State) (a : PoolAgent) :
    s.poolAllocate a [(x, f), (y, k)] = s.poolAllocate a [(y, k), (x, f)] := by
  have hfilter (g : PoolAgent) : [(x, f), (y, k)].filter (fun z => decide (z.1 = g)) =
      [(y, k), (x, f)].filter (fun z => decide (z.1 = g)) := by
    by_cases hx : x = g
    · have hy : y ≠ g := fun hy => h (hx.trans hy.symm)
      simp [hx, hy]
    · simp [List.filter_cons, hx]
  rw [State.poolAllocate_eq, State.poolAllocate_eq]
  refine List.foldl_ext _ _ _ fun v g _ => ?_
  unfold State.poolTurn
  rw [hfilter]

/-! ### The allocation in an agent's turn (R205) -/

/-- The agents whose allocation waits are replaced. -/
def State.setWait (s : State) (l : List PoolAgent) : State := { s with query := { s.query with poolWait := l } }

theorem State.poolTake_of_ne (ha : a ≠ .query) (s : State) : s.poolTake a = (s.allocate a).1.setWait
    (if (s.allocate a).2.isSome then s.query.poolWait.filter (· ≠ a) else s.query.poolWait.filter (· ≠ a) ++ [a]) := by
  have hfilter : (s.query.poolWait.filter fun x => x != a) = s.query.poolWait.filter (· ≠ a) :=
    List.filter_congr fun x _ => by simp [bne, beq_eq_decide]
  rw [← hfilter]
  cases a with
  | query => exact absurd rfl ha
  | builder | replay | supervisor => rfl

theorem State.poolTake_waits (ha : a ≠ .query) (h : s.freeBlock = none) :
    s.poolTake a = s.setWait (s.query.poolWait.filter (· ≠ a) ++ [a]) := by
  rw [State.poolTake_of_ne ha, State.allocate_none h]
  rfl

theorem State.setWait_nil (h : s.query.poolWait = []) : s.setWait [] = s := by
  rw [State.setWait, ← h]

theorem State.poolTake_takes (ha : a ≠ .query) (h : s.freeBlock = some b) (hwait : s.query.poolWait = []) :
    s.poolTake a = s.taken a b := by
  rw [State.poolTake_of_ne ha, State.allocate_some h, hwait]
  exact State.setWait_nil (s := s.taken a b) hwait

/-! ### The blocks that a query waits for (R207) -/

/-- The first engine slot that has a property. -/
theorem find?_slots {p : Fin 4 → Bool} (hn : p n = true) (hlt : ∀ j < n, p j = false) : (List.finRange 4).find? p = some n := by
  refine List.find?_eq_some_iff_getElem.mpr ⟨hn, n, by simp, by simp, fun j hj => ?_⟩
  simpa using hlt ⟨j, by omega⟩ hj

theorem State.poolTake_query_idle (h : s.freeBlock = none ∨ ∀ j : Fin 4, ∀ z ∈ s.slotEntry j, z.need = 0) :
    s.poolTake .query = s := by
  unfold State.poolTake
  dsimp only
  split
  · next j hj =>
    rcases h with h | h
    · simp [h]
    · have hneed := List.find?_some hj
      cases hz : s.slotEntry j with
      | none => simp [hz] at hneed
      | some z => simp [hz, h j z hz] at hneed
  · rfl

theorem State.poolTake_query_reserves (hfree : s.freeBlock = some b) (hlt : ∀ j < n, ∀ z ∈ s.slotEntry j, z.need = 0)
    (he : s.slotEntry n = some e) (hneed : e.need ≠ 0) : s.poolTake .query = (s.reserve n e.need).afterReserve n := by
  have hfind : ((List.finRange 4).find? fun n => (s.slotEntry n).any fun e => decide (e.need ≠ 0)) = some n := by
    refine find?_slots (by simp [he, hneed]) fun j hj => ?_
    cases hz : s.slotEntry j with
    | none => rfl
    | some z => simp [hlt j hj z hz]
  simp only [State.poolTake, hfind, hfree, he, Option.isSome_some, if_true]

/-! ### The entry of an engine slot -/

theorem findEntry_mapFirst {p : QEntry → Bool} {h : QEntry → QEntry} {l : List QItem} (he : findEntry p l = some e)
    (hp : p (h e) = true) : findEntry p (mapFirst p h l) = some (h e) := by
  induction l with
  | nil => cases he
  | cons z l ih =>
    cases z with
    | run f k d c => simpa [findEntry, mapFirst] using ih he
    | entry z =>
      by_cases hz : p z = true
      · obtain rfl : z = e := by simpa [findEntry, hz] using he
        simp [findEntry, mapFirst, hz, hp]
      · have he' : findEntry p l = some e := by simpa [findEntry, hz] using he
        simpa [findEntry, mapFirst, hz] using ih he'

theorem slot_of_findEntry {l : List QItem} {p : QEntry → Bool} (he : findEntry p l = some e) : p e = true := by
  obtain ⟨z, -, hz⟩ := List.exists_of_findSome?_eq_some he
  cases z with
  | run f k d c => cases hz
  | entry z =>
    by_cases hp : p z = true
    · simp only [hp, if_true, Option.some.injEq] at hz
      exact hz ▸ hp
    · simp [hp] at hz

/-- The entry of a slot that is mapped, with its slot kept. -/
theorem State.slotEntry_mapSlot {h : QEntry → QEntry} (he : s.slotEntry n = some e) (hslot : (h e).slot = e.slot) :
    (s.mapSlot n h).slotEntry n = some (h e) := by
  refine findEntry_mapFirst he ?_
  rw [hslot]
  exact slot_of_findEntry he

theorem State.slotEntry_congr (h : t.query.items = s.query.items) (n : Fin 4) : t.slotEntry n = s.slotEntry n := by
  simp only [State.slotEntry, h]

/-! ### A query's reservation (R207) -/

/-- The entry of a slot has got block b. -/
def State.reserved (s : State) (n : Fin 4) (b : Nat) : State :=
  (s.taken .query b).mapSlot n fun e => { e with blocks := e.blocks ++ [b], need := e.need - 1 }

theorem State.reserve_some {k : Nat} (h : s.freeBlock = some b) : s.reserve n (k + 1) = (s.reserved n b).reserve n k := by
  rw [State.reserve, State.allocate_some h]
  rfl

theorem State.reserve_none {k : Nat} (h : s.freeBlock = none) : s.reserve n (k + 1) = s.bump Obj.POOL_WAITS := by
  rw [State.reserve, State.allocate_none h]

theorem State.reserved_keepsButPool (s : State) (n : Fin 4) (b : Nat) : (s.reserved n b).keepsButPool s := rfl

theorem State.reserved_keepsObjects (s : State) (n : Fin 4) (b : Nat) : (s.reserved n b).keepsObjects s [Obj.POOL_MIN] :=
  State.keepsObjects_setO (t := s.setOwner b (agentCode .query)) (State.keepsObjects_refl s _) (by simp) _

theorem State.slotEntry_reserved (he : s.slotEntry n = some e) (b : Nat) :
    (s.reserved n b).slotEntry n = some { e with blocks := e.blocks ++ [b], need := e.need - 1 } :=
  State.slotEntry_mapSlot (s := s.taken .query b) he rfl

theorem State.reserve_keepsButPool (n : Fin 4) (k : Nat) (s : State) : (s.reserve n k).keepsButPool s := by
  induction k generalizing s with
  | zero => rfl
  | succ k ih =>
    cases h : s.freeBlock with
    | none => rw [State.reserve_none h]; rfl
    | some b => rw [State.reserve_some h]; exact State.keepsButPool_trans (ih _) (s.reserved_keepsButPool n b)

/-- A reservation changes only the pool's counters. -/
theorem State.reserve_keepsObjects (n : Fin 4) (k : Nat) (s : State) :
    (s.reserve n k).keepsObjects s [Obj.POOL_MIN, Obj.POOL_WAITS] := by
  induction k generalizing s with
  | zero => exact State.keepsObjects_refl s _
  | succ k ih =>
    cases h : s.freeBlock with
    | none => rw [State.reserve_none h]; exact State.keepsObjects_bump (State.keepsObjects_refl s _) (by simp)
    | some b =>
      rw [State.reserve_some h]
      exact State.keepsObjects_trans (ih _) (State.keepsObjects_mono (s.reserved_keepsObjects n b) (by simp))

/-- A reserved block changes nothing of an entry but its blocks and its need. -/
theorem State.slotEntry_reserve (k : Nat) {s : State} {e : QEntry} (he : s.slotEntry n = some e) :
    ∃ bs m, (s.reserve n k).slotEntry n = some { e with blocks := bs, need := m } := by
  induction k generalizing s e with
  | zero => exact ⟨_, _, he⟩
  | succ k ih =>
    cases h : s.freeBlock with
    | none => rw [State.reserve_none h]; exact ⟨_, _, he⟩
    | some b =>
      rw [State.reserve_some h]
      obtain ⟨bs, m, h⟩ := ih (State.slotEntry_reserved he b)
      exact ⟨bs, m, h⟩

/-! ### An answer is written into its blocks (R207) -/

theorem State.releaseAll_keepsButPool (s : State) (a : PoolAgent) (l : List Nat) : (s.releaseAll a l).keepsButPool s :=
  State.keepsButPool_foldl (fun u z => u.release_keepsButPool a z) l s

theorem State.release_keepsObjects (s : State) (a : PoolAgent) (b : Nat) :
    (s.release_ a b).keepsObjects s [Obj.POOL_DOUBLE, Obj.POOL_FOREIGN] :=
  State.keepsObjects_ite (State.keepsObjects_refl s _) (State.keepsObjects_ite
    (State.keepsObjects_bump (State.keepsObjects_refl s _) (by simp)) (State.keepsObjects_bump (State.keepsObjects_refl s _) (by simp)))

theorem State.releaseAll_keepsObjects (a : PoolAgent) (l : List Nat) (s : State) :
    (s.releaseAll a l).keepsObjects s [Obj.POOL_DOUBLE, Obj.POOL_FOREIGN] := by
  induction l generalizing s with
  | nil => exact State.keepsObjects_refl s _
  | cons b l ih => exact State.keepsObjects_trans (ih _) (s.release_keepsObjects a b)

theorem State.release_kept (s : State) (a : PoolAgent) (b : Nat) :
    (s.release_ a b).query.items = s.query.items ∧ (s.release_ a b).spm = s.spm := by
  unfold State.release_
  split
  · exact ⟨rfl, rfl⟩
  · split <;> exact ⟨rfl, rfl⟩

theorem State.releaseAll_kept (a : PoolAgent) (l : List Nat) (s : State) :
    (s.releaseAll a l).query.items = s.query.items ∧ (s.releaseAll a l).spm = s.spm := by
  induction l generalizing s with
  | nil => exact ⟨rfl, rfl⟩
  | cons b l ih =>
    obtain ⟨hitems, hspm⟩ := ih (s.release_ a b)
    obtain ⟨hitems', hspm'⟩ := s.release_kept a b
    exact ⟨hitems.trans hitems', hspm.trans hspm'⟩

theorem State.writeBlocks_frame (bs : List Nat) (s : State) (l : List Byte) : { s.writeBlocks bs l with spm := s.spm } = s := by
  induction bs generalizing s l with
  | nil => rfl
  | cons b bs ih =>
    have h := congrArg (fun v : State => { v with spm := s.spm })
      (ih { s with spm := memWrite s.spm (blockAddr b) (l.take 4096) } (l.drop 4096))
    exact h

/-- The state in which an answer's bytes lie in their blocks, the blocks left over are free, and the check unit has run. -/
def State.answerWritten (s : State) (n : Fin 4) (e : QEntry) (c : Answer) : State :=
  ((s.writeBlocks (e.blocks.take (ceilDiv c.len 4096)) c.bytes).releaseAll .query
    (e.blocks.drop (ceilDiv c.len 4096))).check n (c.bytes.take 16 ++ e.uncoded)

theorem State.finishAnswer_eq (s : State) (n : Fin 4) (e : QEntry) (c : Answer) : s.finishAnswer n e c =
    (s.answerWritten n e c).mapSlot n fun z => { z with
      st := .handoff, blocks := e.blocks.take (ceilDiv c.len 4096),
      answer := { c with bytes := [], blocks := e.blocks.take (ceilDiv c.len 4096) }, uncoded := [], coded := [] } := rfl

theorem State.answerWritten_keepsButPool (s : State) (n : Fin 4) (e : QEntry) (c : Answer) :
    (s.answerWritten n e c).keepsButPool s := by
  have hwrite := congrArg (fun v : State => { v with obj := s.obj, query := s.query })
    (State.writeBlocks_frame (e.blocks.take (ceilDiv c.len 4096)) s c.bytes)
  exact State.keepsButPool_trans (State.keepsButPool_setO (State.releaseAll_keepsButPool _ _ _) _ _) hwrite

theorem State.answerWritten_items (s : State) (n : Fin 4) (e : QEntry) (c : Answer) :
    (s.answerWritten n e c).query.items = s.query.items :=
  (State.releaseAll_kept _ _ _).1.trans
    (congrArg (fun v : State => v.query.items) (State.writeBlocks_frame (e.blocks.take (ceilDiv c.len 4096)) s c.bytes) :)

theorem State.answerWritten_keepsObjects (s : State) (n : Fin 4) (e : QEntry) (c : Answer) :
    (s.answerWritten n e c).keepsObjects s [Obj.POOL_DOUBLE, Obj.POOL_FOREIGN, Obj.CHK_RUN n] := by
  have hwrite : (s.writeBlocks (e.blocks.take (ceilDiv c.len 4096)) c.bytes).obj = s.obj :=
    (congrArg State.obj (State.writeBlocks_frame (e.blocks.take (ceilDiv c.len 4096)) s c.bytes) :)
  exact State.keepsObjects_setO (State.keepsObjects_trans
    (State.keepsObjects_mono (State.releaseAll_keepsObjects _ _ _) (by simp)) fun k _ => State.o_congr hwrite k) (by simp) _

/-- A finished answer waits for its handoff (R207). -/
theorem State.finishAnswer_frame (s : State) (n : Fin 4) (e : QEntry) (c : Answer) : (s.finishAnswer n e c).keepsButPool s ∧
    (s.finishAnswer n e c).keepsObjects s [Obj.POOL_DOUBLE, Obj.POOL_FOREIGN, Obj.CHK_RUN n] ∧
    ∀ z, s.slotEntry n = some z → ∃ v ∈ (s.finishAnswer n e c).slotEntry n, v.st = .handoff ∧ v.q = z.q := by
  rw [State.finishAnswer_eq]
  refine ⟨State.keepsButPool_setItems (s.answerWritten_keepsButPool n e c) _, s.answerWritten_keepsObjects n e c, fun z hz => ?_⟩
  have hz' : (s.answerWritten n e c).slotEntry n = some z :=
    (State.slotEntry_congr (s.answerWritten_items n e c) n).trans hz
  exact ⟨_, State.slotEntry_mapSlot hz' rfl, rfl, rfl⟩

theorem State.pack_keepsButPool (s : State) (n : Fin 4) : (s.pack n).keepsButPool s := by
  unfold State.pack
  split
  · rfl
  · exact State.keepsButPool_ite rfl (State.finishAnswer_frame _ _ _ _).1

theorem State.afterReserve_keepsButPool (s : State) (n : Fin 4) : (s.afterReserve n).keepsButPool s := by
  unfold State.afterReserve
  split
  · exact State.keepsButPool_ite (State.keepsButPool_ite rfl (s.pack_keepsButPool n)) rfl
  · rfl

theorem State.poolTake_keepsButPool (s : State) (a : PoolAgent) : (s.poolTake a).keepsButPool s := by
  cases a with
  | query =>
    unfold State.poolTake
    dsimp only
    split
    · refine State.keepsButPool_ite ?_ rfl
      split
      · exact State.keepsButPool_trans (State.afterReserve_keepsButPool _ _) (State.reserve_keepsButPool _ _ _)
      · rfl
    · rfl
  | builder | replay | supervisor => rw [State.poolTake_of_ne (by simp)]; exact s.allocate_keepsButPool _

/-- A core cycle of the pool touches objects, the query path and answers in their blocks only. -/
theorem State.poolAllocate_keepsButPool (s : State) (a : PoolAgent) (acts : List (PoolAgent × PoolAct)) :
    (s.poolAllocate a acts).keepsButPool s := by
  refine State.keepsButPool_foldl (fun u g => ?_) poolAgents s
  have hacts := State.keepsButPool_foldl State.poolAct_keepsButPool (acts.filter fun z => decide (z.1 = g)) u
  exact State.keepsButPool_ite (State.keepsButPool_trans (State.poolTake_keepsButPool _ g) hacts) hacts

/-! ### Whom the operations leave waiting -/

@[simp] theorem State.poolWait_setOwner (s : State) (b o : Nat) : (s.setOwner b o).query.poolWait = s.query.poolWait := rfl

@[simp] theorem State.poolWait_setWait (s : State) (l : List PoolAgent) : (s.setWait l).query.poolWait = l := rfl

@[simp] theorem State.poolWait_taken (s : State) (a : PoolAgent) (b : Nat) : (s.taken a b).query.poolWait = s.query.poolWait := rfl

@[simp] theorem State.poolWait_reserved (s : State) (n : Fin 4) (b : Nat) : (s.reserved n b).query.poolWait = s.query.poolWait := rfl

/-! ### A core cycle by its cases (R205, R206) -/

/-- With no block free, an agent's allocation waits. -/
theorem State.poolAllocate_waits (ha : a ≠ .query) (hfull : s.freeBlock = none) :
    s.poolAllocate a [] = s.setWait (s.query.poolWait.filter (· ≠ a) ++ [a]) := by
  have htake := State.poolTake_waits ha hfull
  exact (State.poolAllocate_alone (fun _ _ => .inr hfull) (fun _ _ => .inr (htake ▸ hfull))).trans htake

/-- An agent's allocation takes the lowest free block. -/
theorem State.poolAllocate_takes (ha : a ≠ .query) (hfree : s.freeBlock = some b) (hwait : s.query.poolWait = []) :
    s.poolAllocate a [] = s.taken a b := by
  have htake := State.poolTake_takes ha hfree hwait
  exact (State.poolAllocate_alone (fun _ _ => .inl (by simp [hwait])) (fun _ _ => .inl (by simp [htake, hwait]))).trans htake

/-- The query engine's turn does nothing with no block free, or with nothing to reserve. -/
theorem State.poolAllocate_query_idle
    (h : s.freeBlock = none ∨ (s.query.poolWait = [] ∧ ∀ j : Fin 4, ∀ z ∈ s.slotEntry j, z.need = 0)) :
    s.poolAllocate .query [] = s := by
  have htake : s.poolTake .query = s := State.poolTake_query_idle (h.imp id (·.2))
  have hrest (g : PoolAgent) : g ∉ s.query.poolWait ∨ s.freeBlock = none := by
    rcases h with h | ⟨h, -⟩
    · exact .inr h
    · exact .inl (by simp [h])
  exact (State.poolAllocate_alone (fun g _ => hrest g) (fun g _ => htake.symm ▸ hrest g)).trans htake

/-- A stopped coding job that waits for one block gets the lowest free one. -/
theorem State.poolAllocate_query_reserves (hfree : s.freeBlock = some b) (hwait : s.query.poolWait = [])
    (hlt : ∀ j < n, ∀ z ∈ s.slotEntry j, z.need = 0) (he : s.slotEntry n = some e) (hneed : e.need = 1) (hst : e.st = .pack) :
    s.poolAllocate .query [] = s.reserved n b := by
  have hafter : (s.reserved n b).afterReserve n = s.reserved n b := by
    have hpack : ¬(e.st = .index ∧ e.need - 1 = 0) := by simp [hst]
    simp only [State.afterReserve, State.slotEntry_reserved he b, if_neg hpack]
  have htake : s.poolTake .query = s.reserved n b := by
    rw [State.poolTake_query_reserves hfree hlt he (by omega), hneed, State.reserve_some hfree]
    exact hafter
  exact (State.poolAllocate_alone (fun _ _ => .inl (by simp [hwait])) (fun _ _ => .inl (by simp [htake, hwait]))).trans htake

/-- Where no earlier agent allocates, the owner of an unused block first releases it. -/
theorem State.poolAllocate_release_first {m : BitVec 8} (hx : agentCode x ≤ agentCode a)
    (hwait : ∀ z ∈ s.query.poolWait, agentCode x ≤ agentCode z) (ho : s.owner m.toNat = agentCode x)
    (hu : s.blockUsed m.toNat = false) : s.poolAllocate a [(x, .release m)] = (s.setOwner m.toNat 0).poolAllocate a [] := by
  have hact := State.poolAct_release ho hu
  rw [State.poolAllocate_acts_first hx hwait (by simp [hact]), hact]

theorem State.poolAllocate_transfer_first {m : BitVec 8} (hx : agentCode x ≤ agentCode a)
    (hwait : ∀ z ∈ s.query.poolWait, agentCode x ≤ agentCode z) (ho : s.owner m.toNat = agentCode x)
    (hu : s.blockUsed m.toNat = false) :
    s.poolAllocate a [(x, .transfer m y)] = (s.setOwner m.toNat (agentCode y)).poolAllocate a [] := by
  have hact := State.poolAct_transfer (y := y) ho hu
  rw [State.poolAllocate_acts_first hx hwait (by simp [hact]), hact]

/-- Another agent's request first counts. -/
theorem State.poolAllocate_release_foreign {m : BitVec 8} (hx : agentCode x ≤ agentCode a)
    (hwait : ∀ z ∈ s.query.poolWait, agentCode x ≤ agentCode z) (ho : s.owner m.toNat ≠ agentCode x) :
    s.poolAllocate a [(x, .release m)] =
      (s.bump (if s.owner m.toNat = 0 then Obj.POOL_DOUBLE else Obj.POOL_FOREIGN)).poolAllocate a [] := by
  have hact := State.poolAct_release_foreign ho
  rw [State.poolAllocate_acts_first hx hwait (by simp [hact]), hact]

theorem State.poolAllocate_transfer_foreign {m : BitVec 8} (hx : agentCode x ≤ agentCode a)
    (hwait : ∀ z ∈ s.query.poolWait, agentCode x ≤ agentCode z) (ho : s.owner m.toNat ≠ agentCode x) :
    s.poolAllocate a [(x, .transfer m y)] = (s.bump Obj.POOL_FOREIGN).poolAllocate a [] := by
  have hact := State.poolAct_transfer_foreign (y := y) ho
  rw [State.poolAllocate_acts_first hx hwait (by simp [hact]), hact]

/-- A block that a later agent releases comes too late for an allocation with none free, which waits. -/
theorem State.poolAllocate_waits_release {m : BitVec 8} (ha : a ≠ .query) (hx : agentCode a < agentCode x)
    (hwait : s.query.poolWait = []) (hfull : s.freeBlock = none) (ho : s.owner m.toNat = agentCode x)
    (hu : s.blockUsed m.toNat = false) : s.poolAllocate a [(x, .release m)] = (s.setWait [a]).setOwner m.toNat 0 := by
  have htake : s.poolTake a = s.setWait [a] := by
    rw [State.poolTake_waits ha hfull, hwait]
    rfl
  have hact : (s.setWait [a]).poolAct (x, .release m) = (s.setWait [a]).setOwner m.toNat 0 := State.poolAct_release ho hu
  rw [State.poolAllocate_acts_later hx hwait (by simp [htake]) (by simp [htake, hact]), htake, hact]

/-- With a block free, the allocation takes it before a later agent's release. -/
theorem State.poolAllocate_takes_release {m : BitVec 8} (ha : a ≠ .query) (hx : agentCode a < agentCode x)
    (hwait : s.query.poolWait = []) (hfree : s.freeBlock = some b) (ho : s.owner m.toNat = agentCode x)
    (hu : s.blockUsed m.toNat = false) : s.poolAllocate a [(x, .release m)] = (s.taken a b).setOwner m.toNat 0 := by
  have htake := State.poolTake_takes ha hfree hwait
  have hne : m.toNat ≠ b := by
    rintro rfl
    have h0 := State.owner_of_freeBlock hfree
    rw [ho] at h0
    cases x <;> cases h0
  have hact : (s.taken a b).poolAct (x, .release m) = (s.taken a b).setOwner m.toNat 0 :=
    State.poolAct_release ((State.owner_setOwner_ne s _ hne).trans ho) hu
  rw [State.poolAllocate_acts_later hx hwait (by simp [htake, hwait]) (by simp [htake, hact, hwait]), htake, hact]

end Sys2Proof.Machine
end

section
/-! SUPPORT. Coding jobs: a context read back, a job's blocks counted, a section that ends DONE, OUTFULL or NOCTX, and the test
stream (R249 to R252, R260, R261, R263, R276, R385). -/
namespace Sys2Proof.Machine

variable {s t r : State} {n : Fin 4} {e : QEntry} {u : List Upset} {q : Req} {l : List Byte} {c : Ctx}

/-! ### Words of the scratchpad in error (R378, R385) -/

/-- Nothing but objects, the words that wait for their write-back and the staged events differs from s. -/
def State.keepsButNoted (t s : State) : Prop := { t with obj := s.obj, memUnit := s.memUnit, log := s.log } = s

theorem State.keepsButNoted_trans (h : r.keepsButNoted t) (h' : t.keepsButNoted s) : r.keepsButNoted s := by
  have hr := congrArg (fun v : State => { v with obj := s.obj, memUnit := s.memUnit, log := s.log }) h
  exact hr.trans h'

theorem State.keepsButNoted_of_objects (h : t.keepsButObjects s) : t.keepsButNoted s := by
  unfold State.keepsButObjects at h
  unfold State.keepsButNoted
  rw [← h]

theorem State.stage_keepsButNoted (s : State) (code cls unit : Nat) (d : List Byte) : (s.stage code cls unit d).keepsButNoted s := by
  unfold State.stage
  split <;> rfl

/-- The objects that a word in error may change. -/
def noteKeys : List Nat :=
  [Obj.SPM_CORR, Obj.SPM_UE, Obj.SPM_UE_ADDR, Obj.FLT_LOG_LOST, Obj.FLT_FAULTN, Obj.FLT_LATCHED, Obj.FLT_COND_CNT 6]

theorem State.noteWord_keepsButNoted (s : State) (agent a : Nat) (u : List Upset) : (s.noteWord agent a u).keepsButNoted s := by
  unfold State.noteWord
  split
  · rfl
  · rfl
  · exact State.keepsButNoted_trans (State.keepsButNoted_of_objects (State.ariseOnce_keepsButObjects _ 6))
      (State.keepsButNoted_trans (State.stage_keepsButNoted _ _ _ _ _) rfl)

theorem State.noteWord_keepsObjects (s : State) (agent a : Nat) (u : List Upset) : (s.noteWord agent a u).keepsObjects s noteKeys := by
  unfold State.noteWord
  split
  · exact State.keepsObjects_refl s _
  · exact State.keepsObjects_bump (State.keepsObjects_refl s _) (by decide)
  · exact State.keepsObjects_trans (State.keepsObjects_mono (State.ariseOnce_keepsObjects _ 6) (by decide))
      (State.keepsObjects_trans (State.keepsObjects_mono (State.stage_keepsObjects _ _ _ _ _) (by decide))
        (State.keepsObjects_setO (State.keepsObjects_bump (State.keepsObjects_refl s _) (by decide)) (by decide) _))

theorem State.channelRead_frame (s : State) (agent a k : Nat) (u : List Upset) :
    (s.channelRead agent a k u).1.keepsButNoted s ∧ (s.channelRead agent a k u).1.keepsObjects s noteKeys := by
  unfold State.channelRead
  dsimp only
  generalize List.takeWhile _ _ ++ _ = ws
  induction ws generalizing s with
  | nil => exact ⟨rfl, State.keepsObjects_refl s _⟩
  | cons w ws ih =>
    obtain ⟨hframe, hkeeps⟩ := ih (s.noteWord agent w u)
    exact ⟨State.keepsButNoted_trans hframe (s.noteWord_keepsButNoted agent w u),
      State.keepsObjects_trans hkeeps (s.noteWord_keepsObjects agent w u)⟩

/-- A context that is read back changes nothing but what its words in error do. -/
theorem State.restoreCtx_frame (s : State) (sup : Bool) (k : Nat) (u : List Upset) :
    (s.restoreCtx sup k u).1.keepsButNoted s ∧ (s.restoreCtx sup k u).1.keepsObjects s noteKeys := by
  unfold State.restoreCtx
  split
  · exact s.channelRead_frame _ _ _ u
  · exact ⟨rfl, State.keepsObjects_refl s _⟩

/-- The context live for the agent needs no reading back. -/
theorem State.restoreCtx_live {sup : Bool} {k : Nat} (h : s.liveCtx sup = none ∨ s.liveCtx sup = some k) :
    s.restoreCtx sup k u = (s, true) := by
  rcases h with h | h <;> simp [State.restoreCtx, h]

/-! ### Contexts -/

@[simp] theorem State.ctx_setCtx_self (s : State) (k : Nat) (c : Ctx) : (s.setCtx k c).ctx k = c := by
  simp [State.ctx, State.setCtx, Vector.get_eq_getElem]

/-- Nothing but objects, the engine's part and the saved contexts differs from s. -/
def State.keepsButCoder (t s : State) : Prop := { t with obj := s.obj, cmp := s.cmp, soiled := s.soiled } = s

theorem State.keepsButCoder_trans (h : r.keepsButCoder t) (h' : t.keepsButCoder s) : r.keepsButCoder s := by
  have hr := congrArg (fun v : State => { v with obj := s.obj, cmp := s.cmp, soiled := s.soiled }) h
  exact hr.trans h'

theorem State.keepsButCoder_setO (h : t.keepsButCoder s) (k v : Nat) : (t.setO k v).keepsButCoder s := h

theorem State.keepsButCoder_setCtx (h : t.keepsButCoder s) (k : Nat) (c : Ctx) : (t.setCtx k c).keepsButCoder s := h

theorem State.soil_keepsButCoder (h : t.keepsButCoder s) (a k : Nat) : (t.soil a k).keepsButCoder s := by
  unfold State.soil
  split <;> exact h

theorem State.obj_soil (s : State) (a k : Nat) : (s.soil a k).obj = s.obj := by
  unfold State.soil
  split <;> rfl

/-- The state in which context m has been saved for context k, where they differ (R250, R251). -/
def State.ctxSaved (s : State) (m : Option Nat) (k : Nat) : State :=
  match m with
  | some m => if m = k then s else (s.bump Obj.CMP_CTXSW).soil (0x5A0000 + 256 * m) 256
  | none => s

theorem State.ctxSaved_frame (s : State) (m : Option Nat) (k : Nat) : (s.ctxSaved m k).keepsButCoder s ∧
    (s.ctxSaved m k).keepsObjects s [Obj.CMP_CTXSW] := by
  have hbump := State.keepsObjects_bump (State.keepsObjects_refl s [Obj.CMP_CTXSW]) (k := Obj.CMP_CTXSW) (by simp)
  unfold State.ctxSaved
  split
  · split
    · exact ⟨rfl, State.keepsObjects_refl s _⟩
    · exact ⟨State.soil_keepsButCoder (t := s.bump Obj.CMP_CTXSW) (s := s) rfl _ _, fun j hj => (State.o_congr (State.obj_soil _ _ _) j).trans (hbump j hj)⟩
  · exact ⟨rfl, State.keepsObjects_refl s _⟩

theorem State.useCtx_frame (s : State) (sup : Bool) (k : Nat) : (s.useCtx sup k).keepsButCoder s ∧
    (s.useCtx sup k).keepsObjects s [Obj.CMP_CTXSW] := by
  obtain ⟨hframe, hkeeps⟩ := s.ctxSaved_frame (if sup then s.cmp.liveS else s.cmp.liveQ) k
  have heq : s.useCtx sup k =
      if sup then { s.ctxSaved (if sup then s.cmp.liveS else s.cmp.liveQ) k with
        cmp := { (s.ctxSaved (if sup then s.cmp.liveS else s.cmp.liveQ) k).cmp with liveS := some k } }
      else { s.ctxSaved (if sup then s.cmp.liveS else s.cmp.liveQ) k with
        cmp := { (s.ctxSaved (if sup then s.cmp.liveS else s.cmp.liveQ) k).cmp with liveQ := some k } } := rfl
  rw [heq]
  generalize s.ctxSaved (if sup then s.cmp.liveS else s.cmp.liveQ) k = v at hframe hkeeps ⊢
  split <;> exact ⟨hframe, hkeeps⟩

/-! ### A job's counters (R260) -/

theorem State.countBlocks_keepsButObjects (l : List CodedBlock) (s : State) : (s.countBlocks l).keepsButObjects s := by
  induction l generalizing s with
  | nil => exact s.keepsButObjects_refl
  | cons b l ih => exact State.keepsButObjects_trans (ih _) (State.keepsButObjects_setO
      (State.keepsButObjects_bump s.keepsButObjects_refl _) _ _)

/-- Formed blocks are counted by their sets and their input. -/
theorem State.o_countBlocks (l : List CodedBlock) (s : State) {k : Nat} (hk : k < Obj.CMP_BLOCKS 0) (hin : k ≠ Obj.CMP_IN_BYTES) :
    (s.countBlocks l).o k = s.o k := by
  induction l generalizing s with
  | nil => rfl
  | cons b l ih =>
    have hne : k ≠ Obj.CMP_BLOCKS b.set := by
      simp only [Obj.CMP_BLOCKS, objKey] at hk ⊢
      omega
    exact (ih _).trans ((State.o_setO_ne _ _ hin).trans (s.o_bump_ne hne))

/-- The state after a job of context k that has formed the blocks bs and written m bytes. -/
def State.jobRun (s : State) (sup : Bool) (k : Nat) (c : Ctx) (bs : List CodedBlock) (m : Nat) : State :=
  (((s.useCtx sup k).setCtx k c).countBlocks bs).countOut m

theorem State.jobRun_keepsButCoder (s : State) (sup : Bool) (k : Nat) (c : Ctx) (bs : List CodedBlock) (m : Nat) :
    (s.jobRun sup k c bs m).keepsButCoder s := by
  have hcount (t : State) (h : t.keepsButCoder s) : (t.countBlocks bs).keepsButCoder s := by
    have hbs := State.countBlocks_keepsButObjects bs t
    unfold State.keepsButObjects at hbs
    unfold State.keepsButCoder at h ⊢
    rw [← hbs] at h
    exact h
  exact State.keepsButCoder_setO (hcount _ (State.keepsButCoder_setCtx (s.useCtx_frame sup k).1 k c)) _ _

theorem State.o_jobRun {k : Nat} (s : State) (sup : Bool) (i : Nat) (c : Ctx) (bs : List CodedBlock) (m : Nat)
    (hk : k < Obj.CMP_BLOCKS 0) (hnot : k ∉ [Obj.CMP_IN_BYTES, Obj.CMP_OUT_BYTES, Obj.CMP_CTXSW]) : (s.jobRun sup i c bs m).o k = s.o k := by
  simp only [List.mem_cons, List.not_mem_nil, or_false, not_or] at hnot
  obtain ⟨hin, hout, hsw⟩ := hnot
  exact (State.o_setO_ne _ _ hout).trans ((State.o_countBlocks bs _ hk hin).trans ((s.useCtx_frame sup i).2 k (by simpa using hsw)))

theorem State.ctx_jobRun (s : State) (sup : Bool) (k : Nat) (c : Ctx) (bs : List CodedBlock) (m : Nat) :
    (s.jobRun sup k c bs m).ctx k = c := by
  have hcmp : (s.jobRun sup k c bs m).cmp = ((s.useCtx sup k).setCtx k c).cmp :=
    (congrArg State.cmp (State.countBlocks_keepsButObjects bs ((s.useCtx sup k).setCtx k c)) :)
  simp only [State.ctx, hcmp]
  exact State.ctx_setCtx_self (s.useCtx sup k) k c

@[simp] theorem State.o_mapSlot (s : State) (n : Fin 4) (f : QEntry → QEntry) (k : Nat) : (s.mapSlot n f).o k = s.o k := rfl

@[simp] theorem State.cmp_mapSlot (s : State) (n : Fin 4) (f : QEntry → QEntry) : (s.mapSlot n f).cmp = s.cmp := rfl

@[simp] theorem State.rankMem_mapSlot (s : State) (n : Fin 4) (f : QEntry → QEntry) : (s.mapSlot n f).rankMem = s.rankMem := rfl

@[simp] theorem State.nvm_mapSlot (s : State) (n : Fin 4) (f : QEntry → QEntry) : (s.mapSlot n f).nvm = s.nvm := rfl

/-! ### A section's job (R249 to R252, R261, R263) -/

theorem State.jobEnd_idle (h : s.slotEntry n = none ∨ (s.slotEntry n = some e ∧ (e.st ≠ .pack ∨ e.need ≠ 0))) : s.jobEnd n u = s := by
  rcases h with h | ⟨h, hno⟩
  · simp [State.jobEnd, h]
  · have hno : ¬(e.st = .pack ∧ e.need = 0) := by tauto
    simp only [State.jobEnd, h, if_neg hno]

/-- The context of a stopped job has been read back. -/
def State.resumed (s : State) (n : Fin 4) (e : QEntry) (u : List Upset) : State × Bool :=
  if e.stopped then s.restoreCtx false n u else (s, true)

theorem State.jobEnd_runs (he : s.slotEntry n = some e) (hst : e.st = .pack) (hneed : e.need = 0) : s.jobEnd n u =
    if (s.resumed n e u).2 then (s.resumed n e u).1.codeSection n e else (s.resumed n e u).1.sendUncoded n e := by
  have hrun : e.st = .pack ∧ e.need = 0 := ⟨hst, hneed⟩
  simp only [State.jobEnd, he, if_pos hrun]
  rfl

theorem State.resumed_frame (s : State) (n : Fin 4) (e : QEntry) (u : List Upset) : (s.resumed n e u).1.keepsButNoted s ∧
    (s.resumed n e u).1.keepsObjects s noteKeys := by
  unfold State.resumed
  split
  · exact s.restoreCtx_frame false n u
  · exact ⟨rfl, State.keepsObjects_refl s _⟩

/-- What is known of a state in which an answer of slot n, of query p, waits for its handoff. -/
structure State.Finished (t s : State) (n : Fin 4) (p : Query) : Prop where
  stores : t.rankMem = s.rankMem ∧ t.nvm = s.nvm
  keeps : t.keepsObjects s [Obj.POOL_DOUBLE, Obj.POOL_FOREIGN, Obj.CHK_RUN n]
  entry : ∃ x ∈ t.slotEntry n, x.st = .handoff ∧ x.q = p

theorem State.finishAnswer_finished (he : s.slotEntry n = some e) (z : QEntry) (a : Answer) :
    (s.finishAnswer n z a).Finished s n e.q := by
  obtain ⟨hframe, hkeeps, hentry⟩ := s.finishAnswer_frame n z a
  exact ⟨hframe.stores, hkeeps, hentry e he⟩

theorem notMem_finishKeys {k : Nat} (hk : k < Obj.CMP_BLOCKS 0) (hlo : objKey 0x3800 0 ≤ k) (n : Fin 4) :
    k ∉ [Obj.POOL_DOUBLE, Obj.POOL_FOREIGN, Obj.CHK_RUN n] := by
  simp only [List.mem_cons, List.not_mem_nil, or_false, Obj.POOL_DOUBLE, Obj.POOL_FOREIGN, Obj.CHK_RUN, Obj.CMP_BLOCKS, objKey] at *
  omega

theorem State.Finished.o {p : Query} (h : t.Finished s n p) {k : Nat} (hk : k < Obj.CMP_BLOCKS 0) (hlo : objKey 0x3800 0 ≤ k) :
    t.o k = s.o k := h.keeps k (notMem_finishKeys hk hlo n)

/-- The state in which a context of slot n has proved lost (R252, R385). -/
def State.ctxLost (s : State) (n : Fin 4) : State :=
  (((s.bump Obj.CMP_NOCTX).bump Obj.CMP_UNCODED).setOb Obj.CMP_CTXVALID n false).setCtx n {}

theorem State.sendUncoded_eq (s : State) (n : Fin 4) (e : QEntry) : s.sendUncoded n e =
    (s.ctxLost n).finishAnswer n e (e.subEventOf e.uncoded e.uncoded false) := rfl

/-- A section whose context is lost is sent uncoded (R252, R263). -/
theorem State.sendUncoded_finished (he : s.slotEntry n = some e) : (s.sendUncoded n e).Finished (s.ctxLost n) n e.q := by
  rw [State.sendUncoded_eq]
  exact State.finishAnswer_finished ((State.slotEntry_congr (s := s) (t := s.ctxLost n) rfl n).trans he) e _

theorem State.o_ctxLost (s : State) (n : Fin 4) (k : Nat) :
    (s.ctxLost n).o k = (((s.bump Obj.CMP_NOCTX).bump Obj.CMP_UNCODED).setOb Obj.CMP_CTXVALID n false).o k := rfl

theorem State.ctxLost_counts (s : State) (n : Fin 4) :
    (s.ctxLost n).o Obj.CMP_NOCTX = satAdd 32 (s.o Obj.CMP_NOCTX) 1 ∧
    (s.ctxLost n).o Obj.CMP_UNCODED = satAdd 32 (s.o Obj.CMP_UNCODED) 1 ∧ (s.ctxLost n).ob Obj.CMP_CTXVALID n = false := by
  refine ⟨?_, ?_, State.ob_setOb_self ((s.bump Obj.CMP_NOCTX).bump Obj.CMP_UNCODED) _ _ _⟩
  · rw [s.o_ctxLost, State.o_setOb_ne _ _ _ (by decide), State.o_bump_ne _ (by decide), State.o_bump_self]
  · rw [s.o_ctxLost, State.o_setOb_ne _ _ _ (by decide), State.o_bump_self, State.o_bump_ne _ (by decide)]

/-! ### A job ends DONE or OUTFULL (R261) -/

/-- What the blocks of a section's stream come to in the space of its answer. -/
def QEntry.jobResult (e : QEntry) (c : Ctx) : List Byte × List Byte × List CodedBlock × List CodedBlock :=
  fillSpace e.codeSpace c.held (codeJob c (Machine.unread e c))

/-- The state after the job of a section with the stream c. -/
def State.sectionRun (s : State) (n : Fin 4) (e : QEntry) (c : Ctx) : State :=
  s.jobRun false n (c.job (Machine.unread e c) (e.jobResult c).2.2.2 (e.jobResult c).1 (e.jobResult c).2.1) (e.jobResult c).2.2.2
    (e.jobResult c).1.length

/-- The state in which a job that ends DONE has been counted, and its stream is over. -/
def State.jobDone (s : State) (n : Fin 4) : State := ((s.wrapBy 48 Obj.CMP_JOBS 1).setOb Obj.CMP_CTXVALID n false).setCtx n {}

theorem State.codeSection_done (hc : s.stream n e = c) (hheld : (e.jobResult c).2.1 = []) (hleft : (e.jobResult c).2.2.1 = []) :
    s.codeSection n e = ((s.sectionRun n e c).jobDone n).finishAnswer n e
      (e.subEventOf e.uncoded (e.coded ++ (e.jobResult c).1) true) := by
  have hdone : ((e.jobResult c).2.1.isEmpty && (e.jobResult c).2.2.1.isEmpty) = true := by simp [hheld, hleft]
  unfold QEntry.jobResult at hdone
  unfold State.codeSection
  rw [hc]
  dsimp only
  rw [if_pos hdone]
  rfl

/-- The state in which a job that ends OUTFULL has been counted, its stream kept, and the check unit stands at the bytes consumed. -/
def State.jobStopped (s : State) (n : Fin 4) (b : List Byte) : State :=
  ((s.bump Obj.CMP_STOPS).setOb Obj.CMP_CTXVALID n true).check n b

theorem State.codeSection_stopped (hc : s.stream n e = c) (hmore : (e.jobResult c).2.1 ≠ [] ∨ (e.jobResult c).2.2.1 ≠ []) :
    ∃ b, s.codeSection n e = (((s.sectionRun n e c).jobStopped n b).mapSlot n fun z =>
      { z with coded := e.coded ++ (e.jobResult c).1, stopped := true, need := 1 }).reserve n 1 := by
  have hmore : ¬((e.jobResult c).2.1.isEmpty && (e.jobResult c).2.2.1.isEmpty) = true := by
    simpa [imp_iff_not_or] using hmore
  unfold QEntry.jobResult at hmore
  unfold State.codeSection
  rw [hc]
  dsimp only
  rw [if_neg hmore]
  exact ⟨_, rfl⟩

theorem State.jobDone_counts (s : State) (n : Fin 4) :
    (s.jobDone n).o Obj.CMP_JOBS = (s.o Obj.CMP_JOBS + 1) % 2 ^ 48 ∧ (s.jobDone n).o Obj.CMP_STOPS = s.o Obj.CMP_STOPS ∧
    (s.jobDone n).ob Obj.CMP_CTXVALID n = false :=
  ⟨(State.o_setOb_ne _ _ _ (by decide)).trans (State.o_setO_self _ _ _),
    (State.o_setOb_ne _ _ _ (by decide)).trans (State.o_setO_ne _ _ (by decide)), State.ob_setOb_self _ _ _ _⟩

theorem State.jobStopped_counts (s : State) (n : Fin 4) (b : List Byte) :
    (s.jobStopped n b).o Obj.CMP_JOBS = s.o Obj.CMP_JOBS ∧
    (s.jobStopped n b).o Obj.CMP_STOPS = satAdd 32 (s.o Obj.CMP_STOPS) 1 ∧ (s.jobStopped n b).ob Obj.CMP_CTXVALID n = true := by
  have hcheck {k : Nat} (hk : k < Obj.CMP_BLOCKS 0) :
      (s.jobStopped n b).o k = ((s.bump Obj.CMP_STOPS).setOb Obj.CMP_CTXVALID n true).o k := by
    refine State.o_setO_ne _ _ ?_
    simp only [Obj.CMP_BLOCKS, Obj.CHK_RUN, objKey] at hk ⊢
    omega
  refine ⟨(hcheck (by decide)).trans ((State.o_setOb_ne _ _ _ (by decide)).trans (State.o_bump_ne _ (by decide))),
    (hcheck (by decide)).trans ((State.o_setOb_ne _ _ _ (by decide)).trans (State.o_bump_self _ _)),
    (State.ob_of_o (hcheck (by decide))).trans (State.ob_setOb_self _ _ _ _)⟩

theorem State.ctx_jobStopped (s : State) (n : Fin 4) (b : List Byte) (k : Nat) : (s.jobStopped n b).ctx k = s.ctx k := rfl

theorem State.ctx_sectionRun (s : State) (n : Fin 4) (e : QEntry) (c : Ctx) : (s.sectionRun n e c).ctx n =
    c.job (Machine.unread e c) (e.jobResult c).2.2.2 (e.jobResult c).1 (e.jobResult c).2.1 :=
  s.ctx_jobRun false n _ _ _

/-- What the blocks of a section's job leave of the state: the query path, the ranks, the NVM, and every other object of the engine. -/
theorem State.sectionRun_keeps (s : State) (n : Fin 4) (e : QEntry) (c : Ctx) : (s.sectionRun n e c).query = s.query ∧
    (s.sectionRun n e c).rankMem = s.rankMem ∧ (s.sectionRun n e c).nvm = s.nvm ∧
    (s.sectionRun n e c).o Obj.CMP_JOBS = s.o Obj.CMP_JOBS ∧ (s.sectionRun n e c).o Obj.CMP_STOPS = s.o Obj.CMP_STOPS := by
  have hframe := s.jobRun_keepsButCoder false n (c.job (Machine.unread e c) (e.jobResult c).2.2.2 (e.jobResult c).1 (e.jobResult c).2.1)
    (e.jobResult c).2.2.2 (e.jobResult c).1.length
  exact ⟨(congrArg State.query hframe :), (congrArg State.rankMem hframe :), (congrArg State.nvm hframe :),
    s.o_jobRun _ _ _ _ _ (by decide) (by decide), s.o_jobRun _ _ _ _ _ (by decide) (by decide)⟩

/-- A section's job that ends DONE is counted, its stream is over, and its answer waits for the handoff. -/
theorem State.codeSection_ends (he : s.slotEntry n = some e) (hc : s.stream n e = c) (hheld : (e.jobResult c).2.1 = [])
    (hleft : (e.jobResult c).2.2.1 = []) :
    (s.codeSection n e).o Obj.CMP_JOBS = (s.o Obj.CMP_JOBS + 1) % 2 ^ 48 ∧ (s.codeSection n e).o Obj.CMP_STOPS = s.o Obj.CMP_STOPS ∧
    (s.codeSection n e).ob Obj.CMP_CTXVALID n = false ∧ (∃ x ∈ (s.codeSection n e).slotEntry n, x.st = .handoff ∧ x.q = e.q) ∧
    (s.codeSection n e).rankMem = s.rankMem ∧ (s.codeSection n e).nvm = s.nvm := by
  obtain ⟨hquery, hrank, hnvm, hjobs, hstops⟩ := s.sectionRun_keeps n e c
  obtain ⟨hdone, hstop, hvalid⟩ := (s.sectionRun n e c).jobDone_counts n
  have he' : ((s.sectionRun n e c).jobDone n).slotEntry n = some e :=
    (State.slotEntry_congr (s := s) (congrArg QueryUnit.items hquery) n).trans he
  have hfin := State.finishAnswer_finished he' e (e.subEventOf e.uncoded (e.coded ++ (e.jobResult c).1) true)
  rw [State.codeSection_done hc hheld hleft]
  exact ⟨(hfin.o (by decide) (by decide)).trans (hdone.trans (by rw [hjobs])), (hfin.o (by decide) (by decide)).trans (hstop.trans hstops),
    (State.ob_of_o (hfin.o (by decide) (by decide))).trans hvalid, hfin.entry, hfin.stores.1.trans hrank, hfin.stores.2.trans hnvm⟩

theorem notMem_reserveKeys {k : Nat} (hlo : objKey 0x3800 0 ≤ k) : k ∉ [Obj.POOL_MIN, Obj.POOL_WAITS] := by
  simp only [List.mem_cons, List.not_mem_nil, or_false, Obj.POOL_MIN, Obj.POOL_WAITS, objKey] at *
  omega

/-- A section's job that ends OUTFULL is counted as stopped, and keeps its stream with the bytes held. -/
theorem State.codeSection_stops (he : s.slotEntry n = some e) (hst : e.st = .pack) (hc : s.stream n e = c)
    (hmore : (e.jobResult c).2.1 ≠ [] ∨ (e.jobResult c).2.2.1 ≠ []) :
    (s.codeSection n e).o Obj.CMP_JOBS = s.o Obj.CMP_JOBS ∧
    (s.codeSection n e).o Obj.CMP_STOPS = satAdd 32 (s.o Obj.CMP_STOPS) 1 ∧ (s.codeSection n e).ob Obj.CMP_CTXVALID n = true ∧
    (∃ x ∈ (s.codeSection n e).slotEntry n,
      x.st = .pack ∧ x.stopped = true ∧ x.coded = e.coded ++ (e.jobResult c).1 ∧ x.q = e.q) ∧
    ((s.codeSection n e).ctx n).held = (e.jobResult c).2.1 ∧
    ((s.codeSection n e).ctx n).consumed = c.consumed + 6 * ((e.jobResult c).2.2.2.map (·.entries)).sum ∧
    ((s.codeSection n e).ctx n).produced = c.produced + (e.jobResult c).1.length ∧
    (s.codeSection n e).rankMem = s.rankMem ∧ (s.codeSection n e).nvm = s.nvm := by
  obtain ⟨b, hb⟩ := State.codeSection_stopped hc hmore
  obtain ⟨hquery, hrank, hnvm, hjobs, hstops⟩ := s.sectionRun_keeps n e c
  obtain ⟨hjob, hstop, hvalid⟩ := (s.sectionRun n e c).jobStopped_counts n b
  have hctx : ((s.sectionRun n e c).jobStopped n b).ctx n =
      c.job (Machine.unread e c) (e.jobResult c).2.2.2 (e.jobResult c).1 (e.jobResult c).2.1 :=
    (State.ctx_jobStopped _ n b n).trans (s.ctx_sectionRun n e c)
  have he' : ((s.sectionRun n e c).jobStopped n b).slotEntry n = some e :=
    (State.slotEntry_congr (s := s) (congrArg QueryUnit.items hquery) n).trans he
  have hmap := State.slotEntry_mapSlot
    (h := fun z => { z with coded := e.coded ++ (e.jobResult c).1, stopped := true, need := 1 }) he' rfl
  rw [hb]
  generalize hv : ((s.sectionRun n e c).jobStopped n b).mapSlot n (fun z =>
      { z with coded := e.coded ++ (e.jobResult c).1, stopped := true, need := 1 }) = v at hmap ⊢
  obtain ⟨bs, m, hentry⟩ := State.slotEntry_reserve 1 hmap
  have hpool := State.reserve_keepsButPool n 1 v
  have hres {k : Nat} (hk : objKey 0x3800 0 ≤ k) : (v.reserve n 1).o k = ((s.sectionRun n e c).jobStopped n b).o k := by
    rw [State.reserve_keepsObjects n 1 v k (notMem_reserveKeys hk), ← hv, State.o_mapSlot]
  have hcmp : (v.reserve n 1).ctx n = ((s.sectionRun n e c).jobStopped n b).ctx n := by
    have hcmp : (v.reserve n 1).cmp = v.cmp := (congrArg State.cmp hpool :)
    rw [State.ctx, hcmp, ← hv, State.cmp_mapSlot]
    rfl
  rw [hcmp, hctx]
  exact ⟨(hres (by decide)).trans (hjob.trans hjobs), (hres (by decide)).trans (hstop.trans (by rw [hstops])),
    (State.ob_of_o (hres (by decide))).trans hvalid, ⟨_, hentry, hst, rfl, rfl, rfl⟩, rfl, rfl, rfl,
    hpool.stores.1.trans (by rw [← hv, State.rankMem_mapSlot]; exact hrank),
    hpool.stores.2.trans (by rw [← hv, State.nvm_mapSlot]; exact hnvm)⟩

/-! ### CMP_JOB_END (R252, R263, R385) -/

/-- What a context read back leaves of the state. -/
theorem State.resumed_keeps (s : State) (n : Fin 4) (e : QEntry) (u : List Upset) :
    (s.resumed n e u).1.query = s.query ∧ (s.resumed n e u).1.cmp = s.cmp ∧
    (s.resumed n e u).1.rankMem = s.rankMem ∧ (s.resumed n e u).1.nvm = s.nvm := by
  obtain ⟨hframe, -⟩ := s.resumed_frame n e u
  exact ⟨(congrArg State.query hframe :), (congrArg State.cmp hframe :), (congrArg State.rankMem hframe :),
    (congrArg State.nvm hframe :)⟩

theorem notMem_noteKeys {k : Nat} (hlo : objKey 0x3800 0 ≤ k) (hhi : k < Obj.CMP_BLOCKS 0) : k ∉ noteKeys := by
  simp only [noteKeys, List.mem_cons, List.not_mem_nil, or_false, Obj.SPM_CORR, Obj.SPM_UE, Obj.SPM_UE_ADDR, Obj.FLT_LOG_LOST,
    Obj.FLT_FAULTN, Obj.FLT_LATCHED, Obj.FLT_COND_CNT, Obj.CMP_BLOCKS, objKey] at *
  omega

theorem State.o_resumed (s : State) (n : Fin 4) (e : QEntry) (u : List Upset) {k : Nat} (hlo : objKey 0x3800 0 ≤ k)
    (hhi : k < Obj.CMP_BLOCKS 0) : (s.resumed n e u).1.o k = s.o k :=
  (s.resumed_frame n e u).2 k (notMem_noteKeys hlo hhi)

theorem State.slotEntry_resumed (s : State) (n : Fin 4) (e : QEntry) (u : List Upset) :
    (s.resumed n e u).1.slotEntry n = s.slotEntry n :=
  State.slotEntry_congr (congrArg QueryUnit.items (s.resumed_keeps n e u).1) n

theorem State.stream_resumed (s : State) (n : Fin 4) (e : QEntry) (u : List Upset) :
    (s.resumed n e u).1.stream n e = s.stream n e := by
  simp only [State.stream, State.ctx, (s.resumed_keeps n e u).2.1]

/-- The stream of a stopped section can be read, or the section has none yet. -/
theorem State.resumed_ok (h : e.stopped = false ∨ (s.restoreCtx false n u).2 = true) : (s.resumed n e u).2 = true := by
  unfold State.resumed
  split
  · next hstop =>
    rcases h with h | h
    · exact absurd (hstop.symm.trans h) (by decide)
    · exact h
  · rfl

theorem State.resumed_lost (hstop : e.stopped = true) (h : (s.restoreCtx false n u).2 = false) : (s.resumed n e u).2 = false := by
  simp only [State.resumed, hstop, if_true, h]

/-! ### The test stream (R276) -/

/-- The stream that a test section goes on with, or a new one. -/
def State.testStream (s : State) : Ctx := if s.flag Obj.CMP_TEST_START then { live := true } else s.ctx (s.o Obj.CMP_TEST_CTX)

/-- A context as it has been read back, or discarded where a word of it is lost (R252, R385). -/
def ctxOrDiscarded (r : State × Bool) (k : Nat) : State :=
  if r.2 then r.1 else (r.1.setCtx k {}).setOb Obj.CMP_CTXVALID k false

/-- The state in which a continued test stream's context has been read back. -/
def State.testRestored (s : State) (u : List Upset) : State :=
  ctxOrDiscarded (if s.flag Obj.CMP_TEST_START || !(s.ctx (s.o Obj.CMP_TEST_CTX)).live then (s, true)
    else s.restoreCtx true (s.o Obj.CMP_TEST_CTX) u) (s.o Obj.CMP_TEST_CTX)

theorem State.testNoCtx_eq (s : State) (l : List Byte) (u : List Upset) : s.testNoCtx l u =
    if (s.testRestored u).testCheck l = .failed then (s.testRestored u).bump Obj.CMP_NOCTX else s.testRestored u := rfl

/-- A new stream needs no context, and without a stream there is none to read back. -/
theorem State.testRestored_fresh (h : s.o Obj.CMP_TEST_START ≠ 0 ∨ (s.ctx (s.o Obj.CMP_TEST_CTX)).live = false) :
    s.testRestored u = s := by
  have hskip : (s.flag Obj.CMP_TEST_START || !(s.ctx (s.o Obj.CMP_TEST_CTX)).live) = true := by
    simpa [State.flag] using h
  simp only [State.testRestored, ctxOrDiscarded, hskip, if_true]

/-- A context that is live for the supervisor needs no reading back. -/
theorem State.testRestored_live (h : s.cmp.liveS = none ∨ s.cmp.liveS = some (s.o Obj.CMP_TEST_CTX)) : s.testRestored u = s := by
  have hlive : s.restoreCtx true (s.o Obj.CMP_TEST_CTX) u = (s, true) := State.restoreCtx_live h
  simp only [State.testRestored, ctxOrDiscarded, hlive, ite_self, if_true]

theorem State.testRestored_lost (hstart : s.o Obj.CMP_TEST_START = 0) (hlive : (s.ctx (s.o Obj.CMP_TEST_CTX)).live = true)
    (hlost : (s.restoreCtx true (s.o Obj.CMP_TEST_CTX) u).2 = false) : s.testRestored u =
      ((s.restoreCtx true (s.o Obj.CMP_TEST_CTX) u).1.setCtx (s.o Obj.CMP_TEST_CTX) {}).setOb Obj.CMP_CTXVALID
        (s.o Obj.CMP_TEST_CTX) false := by
  have hread : (s.flag Obj.CMP_TEST_START || !(s.ctx (s.o Obj.CMP_TEST_CTX)).live) = false := by simp [State.flag, hstart, hlive]
  simp only [State.testRestored, ctxOrDiscarded, hread, Bool.false_eq_true, if_false, hlost]

theorem ctxOrDiscarded_keeps {r : State × Bool} (h : r.1.keepsButNoted s) (k : Nat) : (ctxOrDiscarded r k).cmp.test = s.cmp.test ∧
    (ctxOrDiscarded r k).query = s.query ∧ (ctxOrDiscarded r k).keepsMemories s := by
  have htest : r.1.cmp.test = s.cmp.test := (congrArg (fun v : State => v.cmp.test) h :)
  have hquery : r.1.query = s.query := (congrArg State.query h :)
  have hmem : r.1.keepsMemories s := ⟨(congrArg State.spm h :), (congrArg State.rankMem h :), (congrArg State.nvm h :)⟩
  unfold ctxOrDiscarded
  split <;> exact ⟨htest, hquery, hmem⟩

/-- Reading a test stream's context back leaves the last output, the query path and the memories. -/
theorem State.testRestored_keeps (s : State) (u : List Upset) : (s.testRestored u).cmp.test = s.cmp.test ∧
    (s.testRestored u).query = s.query ∧ (s.testRestored u).keepsMemories s := by
  refine ctxOrDiscarded_keeps ?_ _
  split
  · rfl
  · exact (s.restoreCtx_frame true _ u).1

theorem State.testCheck_length (h : l.length % 6 ≠ 0 ∨ 3072 < l.length) : s.testCheck l = .length := if_pos h

theorem State.testCheck_failed (h6 : l.length % 6 = 0) (hmax : l.length ≤ 3072) (hstart : s.o Obj.CMP_TEST_START = 0)
    (hlive : (s.ctx (s.o Obj.CMP_TEST_CTX)).live = false) : s.testCheck l = .failed := by
  have hlen : ¬(l.length % 6 ≠ 0 ∨ l.length > 3072) := by omega
  simp [State.testCheck, State.flag, hstart, hlive, hlen]

/-- A section of a good length, whose stream is there, is judged by its structure. -/
theorem State.testCheck_structure (h6 : l.length % 6 = 0) (hmax : l.length ≤ 3072) (hlive : s.testStream.live = true) :
    s.testCheck l = if entriesValid s.testStream.due s.testStream.lossLast (sectionWords l) then .ok else .outOfRange := by
  have hlen : ¬(l.length % 6 ≠ 0 ∨ l.length > 3072) := by omega
  unfold State.testCheck State.testStream at *
  by_cases hstart : s.o Obj.CMP_TEST_START = 0 <;> simp_all [State.flag]

theorem State.testCheck_bump (s : State) (l : List Byte) : (s.bump Obj.CMP_NOCTX).testCheck l = s.testCheck l := by
  have hstart : (s.bump Obj.CMP_NOCTX).o Obj.CMP_TEST_START = s.o Obj.CMP_TEST_START := State.o_bump_ne _ (by decide)
  have hctx : (s.bump Obj.CMP_NOCTX).o Obj.CMP_TEST_CTX = s.o Obj.CMP_TEST_CTX := State.o_bump_ne _ (by decide)
  simp only [State.testCheck, State.flag, State.ctx, hstart, hctx, State.cmp_bump]
  rfl

/-! ### CMP_TEST is answered (R276, R468) -/

theorem State.hostBlockWrite_open_refused {k len : Nat} {check : Status} {effect : State} (hc : check ≠ .ok) :
    s.hostBlockWrite q k len false check effect = s.respond q 0x04 check (blockBody k 0 0 0) := by
  cases check <;> simp_all [State.hostBlockWrite]

theorem State.testWrite_refused {st : Status} (hc : (s.testRestored u).testCheck l = st) (hok : st ≠ .ok) (hf : st ≠ .failed) :
    s.testWrite q l u = (s.testRestored u).respond q 0x04 st (blockBody Obj.CMP_TEST 0 0 0) := by
  have hnoctx : s.testNoCtx l u = s.testRestored u := by rw [State.testNoCtx_eq, if_neg (hc ▸ hf)]
  simp only [State.testWrite, hnoctx, hc]
  exact State.hostBlockWrite_open_refused hok

theorem State.testWrite_failed (hc : (s.testRestored u).testCheck l = .failed) :
    s.testWrite q l u = ((s.testRestored u).bump Obj.CMP_NOCTX).respond q 0x04 .failed (blockBody Obj.CMP_TEST 0 0 0) := by
  have hnoctx : s.testNoCtx l u = (s.testRestored u).bump Obj.CMP_NOCTX := by rw [State.testNoCtx_eq, if_pos hc]
  simp only [State.testWrite, hnoctx, State.testCheck_bump, hc]
  exact State.hostBlockWrite_open_refused (by decide)

theorem State.testWrite_ok (hc : (s.testRestored u).testCheck l = .ok) : s.testWrite q l u =
    ((s.testRestored u).testJob l).respond q 0x04 .ok (blockBody Obj.CMP_TEST 2 l.length l.length) := by
  have hnoctx : s.testNoCtx l u = s.testRestored u := by rw [State.testNoCtx_eq, if_neg (by rw [hc]; decide)]
  simp only [State.testWrite, hnoctx, hc]
  rfl

/-! ### A test section is coded as one job (R276) -/

/-- The coded output of a test section. -/
def Ctx.testOut (c : Ctx) (l : List Byte) : List Byte := (codeJob c (sectionWords l)).flatMap (·.bytes)

/-- The state after the blocks of a test section's job. -/
def State.testRun (s : State) (l : List Byte) : State :=
  (s.ungate 2).jobRun true (s.o Obj.CMP_TEST_CTX) (s.testStream.job (sectionWords l) (codeJob s.testStream (sectionWords l))
    (s.testStream.testOut l) []) (codeJob s.testStream (sectionWords l)) (s.testStream.testOut l).length

theorem State.o_ungate (s : State) (i : Nat) {k : Nat} (hk : k ≠ Obj.CLK_GATE_REQ) : (s.ungate i).o k = s.o k :=
  (State.o_setOb_ne _ _ _ hk).trans (State.o_setOb_ne _ _ _ hk)

theorem State.testJob_eq (s : State) (l : List Byte) : s.testJob l =
    { ((s.testRun l).wrapBy 48 Obj.CMP_JOBS 1).setO Obj.CMP_TEST_LEN (s.testStream.testOut l).length with
      cmp := { (s.testRun l).cmp with test := s.testStream.testOut l } } := by
  have hctx : (s.ungate 2).o Obj.CMP_TEST_CTX = s.o Obj.CMP_TEST_CTX := s.o_ungate 2 (by decide)
  have hstart : (s.ungate 2).o Obj.CMP_TEST_START = s.o Obj.CMP_TEST_START := s.o_ungate 2 (by decide)
  simp only [State.testJob, State.flag, hctx, hstart]
  rfl

theorem State.testRun_keepsButCoder (s : State) (l : List Byte) : (s.testRun l).keepsButCoder s :=
  State.keepsButCoder_trans (State.jobRun_keepsButCoder _ _ _ _ _ _) rfl

/-- A coded test section is kept, its length shown, and the job counted. -/
theorem State.testJob_keeps (s : State) (l : List Byte) : (s.testJob l).cmp.test = s.testStream.testOut l ∧
    (s.testJob l).o Obj.CMP_TEST_LEN = (s.testStream.testOut l).length ∧
    (s.testJob l).o Obj.CMP_JOBS = (s.o Obj.CMP_JOBS + 1) % 2 ^ 48 ∧ (s.testJob l).keepsMemories s ∧
    (s.testJob l).query = s.query ∧ (s.testJob l).chans = s.chans := by
  have hframe := s.testRun_keepsButCoder l
  have hjobs : (s.testRun l).o Obj.CMP_JOBS = s.o Obj.CMP_JOBS :=
    (State.o_jobRun _ _ _ _ _ _ (by decide) (by decide)).trans (s.o_ungate 2 (by decide))
  rw [State.testJob_eq]
  refine ⟨rfl, State.o_setO_self _ _ _, ?_, ⟨(congrArg State.spm hframe :), (congrArg State.rankMem hframe :),
    (congrArg State.nvm hframe :)⟩, (congrArg State.query hframe :), (congrArg State.chans hframe :)⟩
  exact (State.o_setO_ne _ _ (by decide)).trans ((State.o_setO_self _ _ _).trans (by rw [hjobs]))

/-! ### What a written test section comes to -/

/-- CMP_TEST, where its request is executed. -/
theorem cmpTestWrite_exec (hs : s.servedFor q = true) (ht : s.testWrite q l u = t) : exec (.cmpTestWrite q l u) s = .next t :=
  congrArg Host.Outcome.next ((State.ifRequest_of hs).trans ht)

/-- A refused section is answered with its code, and writes nothing. -/
theorem State.testWrite_answers {st : Status} (hc : (s.testRestored u).testCheck l = st) (hok : st ≠ .ok) (hf : st ≠ .failed) :
    (s.testWrite q l u).answers q 0x04 st (blockBody Obj.CMP_TEST 0 0 0) ∧ (s.testWrite q l u).cmp.test = s.cmp.test ∧
    (s.testWrite q l u).query = s.query ∧ (s.testWrite q l u).keepsMemories s := by
  obtain ⟨htest, hquery, hmem⟩ := s.testRestored_keeps u
  rw [State.testWrite_refused hc hok hf]
  refine ⟨State.respond_answers _ q _ _ _, ?_, ?_, State.keepsMemories_respond hmem q _ _ _⟩
  · rw [State.cmp_respond, htest]
  · rw [State.query_respond, hquery]

/-- A resume whose context is lost is answered FAILED and counted; the context is discarded (R252, R385). -/
theorem State.testWrite_lost {k : Nat} (hk : s.o Obj.CMP_TEST_CTX = k) (h6 : l.length % 6 = 0) (hmax : l.length ≤ 3072)
    (hstart : s.o Obj.CMP_TEST_START = 0) (hlive : (s.ctx k).live = true) (hlost : (s.restoreCtx true k u).2 = false) :
    (s.testWrite q l u).answers q 0x04 .failed (blockBody Obj.CMP_TEST 0 0 0) ∧
    (s.testWrite q l u).o Obj.CMP_NOCTX = satAdd 32 (s.o Obj.CMP_NOCTX) 1 ∧ ((s.testWrite q l u).ctx k).live = false ∧
    (s.testWrite q l u).ob Obj.CMP_CTXVALID k = false ∧ (s.testWrite q l u).cmp.test = s.cmp.test ∧
    (s.testWrite q l u).query = s.query := by
  subst hk
  obtain ⟨htest, hquery, -⟩ := s.testRestored_keeps u
  have hr := State.testRestored_lost hstart hlive hlost
  obtain ⟨-, hnote⟩ := s.restoreCtx_frame true (s.o Obj.CMP_TEST_CTX) u
  have hobj {j : Nat} (hj : j ∉ noteKeys) (hne : j ≠ Obj.CMP_CTXVALID) : (s.testRestored u).o j = s.o j := by
    rw [hr, State.o_setOb_ne _ _ _ hne]
    exact hnote j hj
  have hctx : (s.testRestored u).ctx (s.o Obj.CMP_TEST_CTX) = {} := by
    rw [hr]
    exact State.ctx_setCtx_self (s.restoreCtx true (s.o Obj.CMP_TEST_CTX) u).1 _ _
  have hvalid : (s.testRestored u).ob Obj.CMP_CTXVALID (s.o Obj.CMP_TEST_CTX) = false := by
    rw [hr]
    exact State.ob_setOb_self _ _ _ _
  have hcheck : (s.testRestored u).testCheck l = .failed := by
    refine State.testCheck_failed h6 hmax ((hobj (by decide) (by decide)).trans hstart) ?_
    rw [hobj (by decide) (by decide), hctx]
  rw [State.testWrite_failed hcheck]
  generalize s.testRestored u = v at htest hquery hobj hctx hvalid ⊢
  refine ⟨State.respond_answers _ q _ _ _, ?_, ?_, ?_, ?_, ?_⟩
  · rw [State.o_respond _ q _ _ _ (State.aliveKey (by decide)), State.o_bump_self, hobj (by decide) (by decide)]
  · rw [State.ctx, State.cmp_respond, State.cmp_bump]
    exact congrArg Ctx.live hctx
  · exact (State.ob_of_o ((State.o_respond _ q _ _ _ (State.aliveKey (by decide))).trans (State.o_bump_ne _ (by decide)))).trans hvalid
  · rw [State.cmp_respond, State.cmp_bump, htest]
  · rw [State.query_respond, State.query_bump, hquery]

/-- A good section is coded and answered OK. -/
theorem State.testWrite_codes (hr : s.testRestored u = s) (hc : s.testCheck l = .ok) (hs : s.testStream = c) :
    (s.testWrite q l u).answers q 0x04 .ok (blockBody Obj.CMP_TEST 2 l.length l.length) ∧
    (s.testWrite q l u).cmp.test = c.testOut l ∧ (s.testWrite q l u).o Obj.CMP_TEST_LEN = (s.testWrite q l u).cmp.test.length ∧
    (s.testWrite q l u).o Obj.CMP_JOBS = (s.o Obj.CMP_JOBS + 1) % 2 ^ 48 ∧ (s.testWrite q l u).keepsMemories s ∧
    (s.testWrite q l u).query = s.query ∧ (s.testWrite q l u).chans = s.chans := by
  subst hs
  obtain ⟨htest, hlen, hjobs, hmem, hquery, hchans⟩ := s.testJob_keeps l
  rw [State.testWrite_ok (by rw [hr, hc]), hr, State.cmp_respond, State.query_respond, State.chans_respond,
    State.o_respond _ q _ _ _ (State.aliveKey (by decide)), State.o_respond _ q _ _ _ (State.aliveKey (by decide))]
  exact ⟨State.respond_answers _ q _ _ _, htest, by rw [hlen, htest], hjobs, State.keepsMemories_respond hmem q _ _ _, hquery, hchans⟩

end Sys2Proof.Machine
end

section
/-! SUPPORT. The statement on pool blocks and coded sections. -/
namespace Sys2Proof.Machine

variable {s t : State} {a : PoolAgent} {acts acts' : List (PoolAgent × PoolAct)} {n : Fin 4} {u : List Upset} {e : QEntry} {c : Ctx}

/-- A cycle of the pool, where the clocks run. -/
theorem poolAllocate_exec (ha : s.awake = true) (ht : s.poolAllocate a acts = t) : exec (.poolAllocate a acts) s = .next t :=
  exec_of_awake ha rfl ht

/-- Two cycles of the pool that come to the same state, each where the clocks run. -/
theorem poolAllocate_exec_congr (ha : s.awake = true) (ha' : t.awake = true) (ht : s.poolAllocate a acts = t.poolAllocate a acts') :
    exec (.poolAllocate a acts) s = exec (.poolAllocate a acts') t :=
  (poolAllocate_exec ha ht).trans (poolAllocate_exec ha' rfl).symm

/-- Whether the clocks run does not hang on a counter of the pool. -/
theorem State.awake_poolCount {k : Nat} (hk : k = Obj.POOL_DOUBLE ∨ k = Obj.POOL_FOREIGN) : (s.bump k).awake = s.awake := by
  have hpwr : (s.bump k).o Obj.PWR_STATE = s.o Obj.PWR_STATE := State.o_bump_ne _ (by rcases hk with rfl | rfl <;> decide)
  have hclk : (s.bump k).o Obj.CLK_STATE = s.o Obj.CLK_STATE := State.o_bump_ne _ (by rcases hk with rfl | rfl <;> decide)
  simp only [State.awake, State.clocked, hpwr, hclk, State.power_bump, State.frz_bump]

/-- A stopped job whose context is lost sends its section uncoded. -/
theorem State.jobEnd_lost (he : s.slotEntry n = some e) (hst : e.st = .pack) (hneed : e.need = 0) (hstop : e.stopped = true)
    (hlost : (s.restoreCtx false n u).2 = false) :
    (s.jobEnd n u).o Obj.CMP_NOCTX = satAdd 32 (s.o Obj.CMP_NOCTX) 1 ∧
    (s.jobEnd n u).o Obj.CMP_UNCODED = satAdd 32 (s.o Obj.CMP_UNCODED) 1 ∧ (s.jobEnd n u).ob Obj.CMP_CTXVALID n = false ∧
    (∃ x ∈ (s.jobEnd n u).slotEntry n, x.st = .handoff ∧ x.q = e.q) ∧
    (s.jobEnd n u).rankMem = s.rankMem ∧ (s.jobEnd n u).nvm = s.nvm := by
  obtain ⟨-, -, hrank, hnvm⟩ := s.resumed_keeps n e u
  obtain ⟨hnoctx, huncoded, hvalid⟩ := (s.resumed n e u).1.ctxLost_counts n
  have hfin := State.sendUncoded_finished ((s.slotEntry_resumed n e u).trans he)
  rw [State.jobEnd_runs he hst hneed, State.resumed_lost hstop hlost]
  exact ⟨(hfin.o (by decide) (by decide)).trans (hnoctx.trans (by rw [s.o_resumed n e u (by decide) (by decide)])),
    (hfin.o (by decide) (by decide)).trans (huncoded.trans (by rw [s.o_resumed n e u (by decide) (by decide)])),
    (State.ob_of_o (hfin.o (by decide) (by decide))).trans hvalid, hfin.entry, hfin.stores.1.trans hrank, hfin.stores.2.trans hnvm⟩

/-- A job whose stream is there codes its section. -/
theorem State.jobEnd_codes (he : s.slotEntry n = some e) (hst : e.st = .pack) (hneed : e.need = 0)
    (hok : e.stopped = false ∨ (s.restoreCtx false n u).2 = true) : s.jobEnd n u = (s.resumed n e u).1.codeSection n e := by
  rw [State.jobEnd_runs he hst hneed, if_pos (State.resumed_ok hok)]

/-- Settles O18: a pool cycle is the turns of its agents, a section's job is coded into its answer's space or sent uncoded, and a test
section is judged before it is coded. -/
theorem blocksAreAllocatedAndCodedSectionsComplete : Obligations.BlocksAreAllocatedAndCodedSectionsComplete := by
  unfold Obligations.BlocksAreAllocatedAndCodedSectionsComplete
  intro n b a x y acts f g m u e c r q l s
  refine ⟨fun ha => ?stores, fun ha hne hfull => ?waits, fun ha hne hfree hwait => ?takes, fun ha h => ?idle,
    fun ha hfree hwait hlt he hneed hst => ?reserves, fun ha ⟨hx, hwait⟩ ho hu => ?owner, fun ha ⟨hx, hwait⟩ ho => ?foreign,
    fun ha hne hlt hwait ho hu => ?later, fun ha hne => ?both, fun ha h => ?noJob, fun ha he hst hneed hstop hlost => ?lost,
    fun ha he hst hneed hok hc hr => ?job, fun hs hlen => ?length, fun hs hlen hfresh => ?lengthOnly,
    fun hs h6 hmax hstart hlive => ?noStream, fun hs h6 hmax hstart hlive hlost _ _ => ?streamLost,
    fun hs h6 hmax hstart hbad => ?malformed, fun hs h6 hmax hc hlive hread hgood => ?coded⟩
  case stores => exact ⟨_, poolAllocate_exec ha rfl, (s.poolAllocate_keepsButPool a acts).stores⟩
  case waits => exact ⟨_, poolAllocate_exec ha (State.poolAllocate_waits hne hfull), rfl, rfl⟩
  case takes => exact poolAllocate_exec ha (State.poolAllocate_takes hne hfree hwait)
  case idle => exact poolAllocate_exec ha (State.poolAllocate_query_idle h)
  case reserves =>
    refine ⟨_, poolAllocate_exec ha (State.poolAllocate_query_reserves hfree hwait hlt he hneed hst),
      State.owner_setOwner_self s b 1, ?_, s.reserved_keepsObjects n b, rfl⟩
    rw [State.slotEntry_reserved he b, hneed]
  case owner =>
    exact ⟨poolAllocate_exec_congr ha ha (State.poolAllocate_release_first hx hwait ho hu),
      poolAllocate_exec_congr ha ha (State.poolAllocate_transfer_first hx hwait ho hu)⟩
  case foreign =>
    have hcount : (s.bump (if s.owner m.toNat = 0 then Obj.POOL_DOUBLE else Obj.POOL_FOREIGN)).awake = s.awake := by
      refine State.awake_poolCount ?_
      split <;> simp
    exact ⟨poolAllocate_exec_congr ha (hcount.trans ha) (State.poolAllocate_release_foreign hx hwait ho),
      poolAllocate_exec_congr ha ((State.awake_poolCount (.inr rfl)).trans ha) (State.poolAllocate_transfer_foreign hx hwait ho)⟩
  case later =>
    exact ⟨fun hfull => poolAllocate_exec ha (State.poolAllocate_waits_release hne hlt hwait hfull ho hu),
      fun hfree => poolAllocate_exec ha (State.poolAllocate_takes_release hne hlt hwait hfree ho hu)⟩
  case both => exact poolAllocate_exec_congr ha ha (State.poolAllocate_comm hne s a)
  case noJob => exact exec_of_awake ha rfl (State.jobEnd_idle h)
  case lost => exact ⟨_, exec_of_awake ha rfl rfl, State.jobEnd_lost he hst hneed hstop hlost⟩
  case job =>
    have hexec := exec_of_awake (i := .cmpJobEnd n u) ha rfl (State.jobEnd_codes he hst hneed hok)
    have he' := (s.slotEntry_resumed n e u).trans he
    have hc' : (s.resumed n e u).1.stream n e = c := (s.stream_resumed n e u).trans hc
    obtain ⟨-, -, hrank, hnvm⟩ := s.resumed_keeps n e u
    have hjobs := s.o_resumed n e u (k := Obj.CMP_JOBS) (by decide) (by decide)
    have hstops := s.o_resumed n e u (k := Obj.CMP_STOPS) (by decide) (by decide)
    subst hr
    refine ⟨fun hheld hleft => ⟨_, hexec, ?_⟩, fun hmore => ⟨_, hexec, ?_⟩⟩
    · rw [← hjobs, ← hstops, ← hrank, ← hnvm]
      exact State.codeSection_ends he' hc' hheld hleft
    · rw [← hjobs, ← hstops, ← hrank, ← hnvm]
      exact State.codeSection_stops he' hst hc' hmore
  case length => exact ⟨_, cmpTestWrite_exec hs rfl, State.testWrite_answers (State.testCheck_length hlen) (by decide) (by decide)⟩
  case lengthOnly =>
    have hr := State.testRestored_fresh (u := u) hfresh
    refine ⟨_, cmpTestWrite_exec hs (State.testWrite_refused (State.testCheck_length hlen) (by decide) (by decide)), ?_⟩
    rw [hr]
    exact State.respond_only s q _ _ _
  case noStream =>
    have hr := State.testRestored_fresh (u := u) (.inr hlive)
    refine ⟨_, cmpTestWrite_exec hs (State.testWrite_failed (by rw [hr]; exact State.testCheck_failed h6 hmax hstart hlive)), ?_⟩
    rw [hr]
    exact State.respond_only _ q _ _ _
  case streamLost => exact ⟨_, cmpTestWrite_exec hs rfl, State.testWrite_lost rfl h6 hmax hstart hlive hlost⟩
  case malformed =>
    have hr := State.testRestored_fresh (u := u) (.inl hstart)
    have hstream : s.testStream = { live := true } := by simp [State.testStream, State.flag, hstart]
    have hcheck : s.testCheck l = .outOfRange := by
      rw [State.testCheck_structure h6 hmax (by rw [hstream]), hstream, hbad]
      rfl
    refine ⟨_, cmpTestWrite_exec hs (State.testWrite_refused (by rw [hr, hcheck]) (by decide) (by decide)), ?_⟩
    rw [hr]
    exact State.respond_only s q _ _ _
  case coded =>
    have hstream : s.testStream = c := by simpa [State.testStream, State.flag] using hc
    have hr : s.testRestored u = s := by
      rcases hread with h | h
      · exact State.testRestored_fresh (.inl h)
      · exact State.testRestored_live h
    have hcheck : s.testCheck l = .ok := by
      rw [State.testCheck_structure h6 hmax (by rw [hstream, hlive]), hstream, hgood]
      rfl
    exact ⟨_, cmpTestWrite_exec hs rfl, State.testWrite_codes hr hcheck hstream⟩

end Sys2Proof.Machine
end

section
/-! SUPPORT. The merger's records: where a query is outstanding, how positions close, and how complete records leave in order
(R219, R221, R225). -/
namespace Sys2Proof.Machine

variable {s t u : State} {r : MRec} {ls rs : List MRec} {p : Nat}

/-! ### Places in a list -/

variable {α : Type} {q : α → Bool}

/-- The first place whose element fulfils q. -/
theorem find?_place {ls rs : List α} {x : α} (hls : ∀ y ∈ ls, q y = false) (hx : q x = true) :
    (List.range (ls ++ x :: rs).length).find? (fun i => (ls ++ x :: rs)[i]?.any q) = some ls.length := by
  rw [List.find?_range_eq_some]
  refine ⟨by simp [hx], by simp, fun j hj => ?_⟩
  simp [List.getElem?_append_left hj, hls _ (List.getElem_mem hj), hj]

theorem filter_places_eq_nil {l : List α} (h : ∀ y ∈ l, q y = false) :
    (List.range l.length).filter (fun i => l[i]?.any q) = [] := by
  rw [List.filter_eq_nil_iff]
  intro i hi
  have hlt := List.mem_range.mp hi
  simp [hlt, h _ (List.getElem_mem hlt)]

theorem modify_at_length (ls rs : List α) (x : α) (f : α → α) : (ls ++ x :: rs).modify ls.length f = ls ++ f x :: rs := by
  induction ls with
  | nil => rfl
  | cons y ls ih => simpa using ih

/-- Changing in turn, of the first m places, those whose element fulfils q changes those elements. -/
theorem foldl_modify_places (q : α → Bool) (f : α → α) (l : List α) (m : Nat) :
    ((List.range m).filter fun i => l[i]?.any q).foldl (fun l i => l.modify i f) l =
      (l.take m).map (fun x => if q x then f x else x) ++ l.drop m := by
  induction m with
  | zero => simp
  | succ m ih =>
    rw [List.range_succ, List.filter_append, List.foldl_append, ih]
    by_cases hm : m < l.length
    case neg =>
      have hle := Nat.le_of_not_lt hm
      simp [List.take_of_length_le hle, List.take_of_length_le (Nat.le_succ_of_le hle), hle, Nat.le_succ_of_le hle]
    case pos =>
      have hlen : ((l.take m).map fun x => if q x then f x else x).length = m := by simp [Nat.le_of_lt hm]
      rw [List.drop_eq_getElem_cons hm, List.take_succ_eq_append_getElem hm, List.map_append, List.append_assoc]
      cases hq : q l[m] with
      | false => simp [hm, hq]
      | true =>
        have hplace := modify_at_length ((l.take m).map fun x => if q x then f x else x) (l.drop (m + 1)) l[m] f
        rw [hlen] at hplace
        have hm' : [m].filter (fun i => l[i]?.any q) = [m] := by simp [hm, hq]
        rw [hm', List.foldl_cons, List.foldl_nil, hplace, List.map_cons, if_pos hq]
        rfl

/-! ### Where a query is outstanding (R219) -/

/-- The places that wait are those whose record does. -/
theorem State.waiting_eq (s : State) (p : Nat) :
    s.waiting p = (List.range s.hub.recs.length).filter fun i => s.hub.recs[i]?.any fun r => r.waits p := by
  unfold State.waiting
  congr 1
  funext i
  cases s.hub.recs[i]? <;> rfl

theorem State.waiting_eq_nil (h : ∀ x ∈ s.hub.recs, x.waits p = false) : s.waiting p = [] := by
  rw [State.waiting_eq]
  exact filter_places_eq_nil h

/-- The oldest record that waits. -/
theorem State.waiting_oldest (hrecs : s.hub.recs = ls ++ r :: rs) (hls : ∀ x ∈ ls, x.waits p = false) (hr : r.waits p = true) :
    ∃ l, s.waiting p = ls.length :: l := by
  rw [← List.head?_eq_some_iff, State.waiting_eq, List.head?_filter, hrecs]
  exact find?_place hls hr

/-- The port's place in the records is that of the oldest record with this QID that waits for it (R221). -/
theorem State.findQid_eq (s : State) (k qid : Nat) : s.findQid k qid =
    (List.range s.hub.recs.length).find? fun i => s.hub.recs[i]?.any fun r => r.waits (k + 1) && r.qid == qid := by
  unfold State.findQid
  rw [State.waiting_eq, List.find?_filter]
  congr 1
  funext i
  cases s.hub.recs[i]? with
  | none => rfl
  | some r => cases r.waits (k + 1) <;> cases h : r.qid == qid <;> simp [h]

theorem State.findQid_oldest {k qid : Nat} (hrecs : s.hub.recs = ls ++ r :: rs)
    (hls : ∀ y ∈ ls, y.waits (k + 1) = false ∨ y.qid ≠ qid) (hr : r.waits (k + 1) = true) (hqid : r.qid = qid) :
    s.findQid k qid = some ls.length := by
  rw [State.findQid_eq, hrecs]
  refine find?_place (fun y hy => ?_) (by simp [hr, hqid])
  rcases hls y hy with h | h <;> simp [h]

theorem State.findQid_none {k qid : Nat} (h : ∀ y ∈ s.hub.recs, y.waits (k + 1) = false ∨ y.qid ≠ qid) : s.findQid k qid = none := by
  rw [State.findQid_eq, List.find?_range_eq_none]
  intro i hi
  rcases h _ (List.getElem_mem hi) with h | h <;> simp [hi, h]

/-! ### What the merger's steps leave (R225) -/

/-- Nothing but objects and what the hub keeps of its records and ports differs from s. -/
def State.keepsButRecords (t s : State) : Prop := { t with obj := s.obj, hub := s.hub } = s

theorem State.keepsButRecords_trans (h : u.keepsButRecords t) (h' : t.keepsButRecords s) : u.keepsButRecords s := by
  have hu := congrArg (fun v : State => { v with obj := s.obj, hub := s.hub }) h
  exact hu.trans h'

theorem State.keepsButRecords_bump (h : t.keepsButRecords s) (k : Nat) : (t.bump k).keepsButRecords s := h

theorem State.keepsButRecords.bld (h : t.keepsButRecords s) : t.bld = s.bld := (congrArg State.bld h :)

theorem State.keepsButRecords.memories (h : t.keepsButRecords s) : t.keepsMemories s :=
  ⟨(congrArg State.spm h :), (congrArg State.rankMem h :), (congrArg State.nvm h :)⟩

theorem State.closeAt_keepsButRecords (s : State) (i p c : Nat) : (s.closeAt i p c).keepsButRecords s := by
  unfold State.closeAt State.countAbsent
  split <;> rfl

theorem State.hub_closeAt (s : State) (i p c : Nat) :
    (s.closeAt i p c).hub = { s.hub with recs := s.hub.recs.modify i fun r => r.put p (.closed c) } := by
  unfold State.closeAt State.countAbsent
  split <;> rfl

theorem State.closeAt_keepsObjects (s : State) (i p c : Nat) : (s.closeAt i p c).keepsObjects s [Obj.HUB_ABSENT (p - 1)] := by
  unfold State.closeAt State.countAbsent
  split
  · exact State.keepsObjects_refl s _
  · exact State.keepsObjects_bump (State.keepsObjects_refl s _) (by simp)

/-! ### Complete records leave in order (R219, R225) -/

theorem hubBufpeak_injective : Function.Injective Obj.HUB_BUFPEAK := by
  intro a b h
  simp only [Obj.HUB_BUFPEAK, objKey] at h
  omega

/-- The objects that the release of a record may change. -/
def releaseKeys : List Nat := Obj.HUB_CEVENTS :: Obj.CHK_RUN 4 :: (List.range 8).map Obj.HUB_BUFPEAK

/-- Nothing but objects and the ports differs from s. -/
def State.keepsButPorts (t s : State) : Prop := { t with obj := s.obj, hub := { t.hub with ports := s.hub.ports } } = s

theorem State.keepsButPorts_trans (h : u.keepsButPorts t) (h' : t.keepsButPorts s) : u.keepsButPorts s := by
  have hu := congrArg (fun v : State => { v with obj := s.obj, hub := { v.hub with ports := s.hub.ports } }) h
  exact hu.trans h'

/-- The bytes that position k + 1 of a released record frees in its port's buffer. -/
def State.freeBuffer (r : MRec) (s : State) (k : Nat) : State :=
  match r.at_ (k + 1) with
  | .paired a => s.portFill k ((s.port k).fill - a.len)
  | .slf32 b => s.portFill k ((s.port k).fill - b.length)
  | _ => s

theorem State.freeBuffers_eq (s : State) (r : MRec) : s.freeBuffers r = (List.range 8).foldl (State.freeBuffer r) s := rfl

/-- A freed position lowers its port's level or leaves all as it was. -/
theorem State.freeBuffer_cases (s : State) (r : MRec) (k : Nat) :
    State.freeBuffer r s k = s ∨ ∃ d, State.freeBuffer r s k = s.portFill k ((s.port k).fill - d) := by
  unfold State.freeBuffer
  split
  · exact .inr ⟨_, rfl⟩
  · exact .inr ⟨_, rfl⟩
  · exact .inl rfl

theorem State.foldl_freeBuffer_keeps (r : MRec) (l : List Nat) (s : State) :
    (l.foldl (State.freeBuffer r) s).keepsButPorts s ∧ (l.foldl (State.freeBuffer r) s).keepsObjects s (l.map Obj.HUB_BUFPEAK) := by
  induction l generalizing s with
  | nil => exact ⟨rfl, State.keepsObjects_refl s _⟩
  | cons k l ih =>
    obtain ⟨hframe, hkeeps⟩ := ih (State.freeBuffer r s k)
    have hstep : (State.freeBuffer r s k).keepsButPorts s ∧ (State.freeBuffer r s k).keepsObjects s [Obj.HUB_BUFPEAK k] := by
      rcases s.freeBuffer_cases r k with h | ⟨d, h⟩ <;> rw [h]
      · exact ⟨rfl, State.keepsObjects_refl s _⟩
      · exact ⟨rfl, State.keepsObjects_setO (t := s.setPort k _) (State.keepsObjects_refl s _) (by simp) _⟩
    exact ⟨State.keepsButPorts_trans hframe hstep.1,
      State.keepsObjects_trans (State.keepsObjects_mono hkeeps (by simp)) (State.keepsObjects_mono hstep.2 (by simp))⟩

/-- What a cluster event holds is a matter of its record and the scratchpad alone. -/
theorem State.clusterParts_congr (h : t.spm = s.spm) : t.clusterParts = s.clusterParts := by
  have hread : t.readBlocks = s.readBlocks := by
    funext bs n
    induction bs generalizing n with
    | nil => rfl
    | cons b bs ih => simp only [State.readBlocks, h, ih]
  have hkind : t.posKind = s.posKind := by
    funext x
    cases x <;> simp only [State.posKind, State.answerBytes, hread]
  have hhead : t.clusterHeader = s.clusterHeader := by
    funext r
    simp only [State.clusterHeader, State.cflags, hkind]
  funext r
  simp only [State.clusterParts, State.clusterCover, hhead]

/-- The state in which a cluster event has been counted, with the records l left. -/
def State.eventCounted (s : State) (l : List MRec) : State := (s.setRecs l).wrapBy 48 Obj.HUB_CEVENTS 1

/-- The state in which the record r has left, with l behind it. -/
def State.recordOut (s : State) (r : MRec) (l : List MRec) : State :=
  ((s.eventCounted l).check 4 ((s.eventCounted l).clusterCover r)).freeBuffers r

theorem State.recordOut_events (s : State) (r : MRec) (l : List MRec) :
    (s.recordOut r l).o Obj.HUB_CEVENTS = (s.o Obj.HUB_CEVENTS + 1) % 2 ^ 48 := by
  have hfree := (State.foldl_freeBuffer_keeps r (List.range 8) ((s.eventCounted l).check 4 ((s.eventCounted l).clusterCover r))).2
    Obj.HUB_CEVENTS (by decide)
  exact hfree.trans ((State.o_setO_ne _ _ (by decide)).trans (State.o_setO_self (s.setRecs l) _ _))

/-- The builders' parts as a record's cluster event leaves them. -/
def State.withCluster (s : State) (r : MRec) : State :=
  { s with bld := { s.bld with parts := s.bld.parts ++ s.clusterParts r } }

theorem State.recordOut_keeps (s : State) (r : MRec) (l : List MRec) :
    (s.recordOut r l).keepsButPorts (s.setRecs l) ∧ (s.recordOut r l).keepsObjects s releaseKeys := by
  obtain ⟨hframe, hkeeps⟩ := State.foldl_freeBuffer_keeps r (List.range 8) ((s.eventCounted l).check 4 ((s.eventCounted l).clusterCover r))
  rw [State.recordOut, State.freeBuffers_eq]
  refine ⟨State.keepsButPorts_trans hframe rfl, State.keepsObjects_trans (State.keepsObjects_mono hkeeps ?_) ?_⟩
  · exact fun k hk => List.mem_cons_of_mem _ (List.mem_cons_of_mem _ hk)
  · exact State.keepsObjects_setO (State.keepsObjects_setO (t := s.setRecs l) (State.keepsObjects_refl s _) (by simp [releaseKeys]) _)
      (by simp [releaseKeys]) _

theorem State.releaseRecs_done {n : Nat} (hrecs : s.hub.recs = r :: rs) (hdone : r.done = true) :
    s.releaseRecs (n + 1) = ((s.recordOut r rs).withCluster r).releaseRecs n := by
  simp only [State.releaseRecs, hrecs, hdone, if_true, State.recordOut, State.eventCounted, State.withCluster]

theorem State.releaseRecs_waits {n : Nat} (h : ∀ r ∈ s.hub.recs.head?, r.done = false) : s.releaseRecs n = s := by
  cases n with
  | zero => rfl
  | succ n =>
    cases hrecs : s.hub.recs with
    | nil => simp only [State.releaseRecs, hrecs]
    | cons r l =>
      have hdone : r.done = false := h r (by simp [hrecs])
      simp only [State.releaseRecs, hrecs, hdone, Bool.false_eq_true, if_false]

/-- Of the records l, the complete ones at the head have passed to the builders, and memories hold what they held in s. -/
structure State.Merged (t s : State) (l : List MRec) : Prop where
  recs : t.hub.recs = l.dropWhile MRec.done
  parts : t.bld.parts = s.bld.parts ++ (l.takeWhile MRec.done).flatMap s.clusterParts
  memories : t.keepsMemories s

/-- Records that change first change nothing of what the release adds to. -/
theorem State.Merged.of_records {l : List MRec} (h : t.Merged u l) (hu : u.keepsButRecords s) : t.Merged s l := by
  refine ⟨h.recs, ?_, State.keepsMemories_trans h.memories hu.memories⟩
  rw [h.parts, hu.bld, State.clusterParts_congr hu.memories.1]

/-- What a release leaves of the rest. -/
structure State.ReleaseKeeps (t s : State) : Prop where
  skip : t.hub.ownSkip = s.hub.ownSkip
  query : t.query = s.query
  keeps : t.keepsObjects s releaseKeys

theorem State.ReleaseKeeps.trans (h : u.ReleaseKeeps t) (h' : t.ReleaseKeeps s) : u.ReleaseKeeps s :=
  ⟨h.skip.trans h'.skip, h.query.trans h'.query, State.keepsObjects_trans h.keeps h'.keeps⟩

/-- A complete record leaves. -/
theorem State.withCluster_recordOut (s : State) (r : MRec) (rs : List MRec) :
    ((s.recordOut r rs).withCluster r).hub.recs = rs ∧
    ((s.recordOut r rs).withCluster r).bld.parts = s.bld.parts ++ s.clusterParts r ∧
    ((s.recordOut r rs).withCluster r).keepsMemories s ∧ ((s.recordOut r rs).withCluster r).ReleaseKeeps s := by
  obtain ⟨hframe, hkeeps⟩ := s.recordOut_keeps r rs
  have hspm : (s.recordOut r rs).spm = s.spm := (congrArg State.spm hframe :)
  have hbld : (s.recordOut r rs).bld = s.bld := (congrArg State.bld hframe :)
  refine ⟨(congrArg (fun v : State => v.hub.recs) hframe :), ?_,
    ⟨hspm, (congrArg State.rankMem hframe :), (congrArg State.nvm hframe :)⟩,
    ⟨(congrArg (fun v : State => v.hub.ownSkip) hframe :), (congrArg State.query hframe :), hkeeps⟩⟩
  simp only [State.withCluster, hbld, State.clusterParts_congr hspm]

/-- With an incomplete record at the head, or none, none goes. -/
theorem dropWhile_done_of_head {l : List MRec} (h : ∀ r ∈ l.head?, r.done = false) :
    l.dropWhile MRec.done = l ∧ l.takeWhile MRec.done = [] := by
  cases l with
  | nil => exact ⟨rfl, rfl⟩
  | cons r l =>
    have hr : r.done = false := h r (by simp)
    simp [hr]

/-- With an incomplete record at the head, or none, nothing leaves. -/
theorem State.releaseRecs_merged_waits (n : Nat) (h : ∀ r ∈ s.hub.recs.head?, r.done = false) :
    (s.releaseRecs n).Merged s s.hub.recs ∧ (s.releaseRecs n).ReleaseKeeps s := by
  have hdrop := dropWhile_done_of_head h
  rw [State.releaseRecs_waits h]
  exact ⟨⟨hdrop.1.symm, by simp [hdrop.2], rfl, rfl, rfl⟩, rfl, rfl, State.keepsObjects_refl s _⟩

theorem State.releaseRecs_merged (n : Nat) (s : State) (hn : s.hub.recs.length ≤ n) :
    (s.releaseRecs n).Merged s s.hub.recs ∧ (s.releaseRecs n).ReleaseKeeps s := by
  induction n generalizing s with
  | zero => exact State.releaseRecs_merged_waits 0 (by simp [List.length_eq_zero_iff.mp (Nat.le_zero.mp hn)])
  | succ n ih =>
    cases hrecs : s.hub.recs with
    | nil => exact hrecs ▸ State.releaseRecs_merged_waits (n + 1) (by simp [hrecs])
    | cons r rs =>
      cases hdone : r.done with
      | false => exact hrecs ▸ State.releaseRecs_merged_waits (n + 1) (by simp [hrecs, hdone])
      | true =>
        obtain ⟨hout, hparts, hmem, hkeeps⟩ := s.withCluster_recordOut r rs
        have hlen : rs.length ≤ n := by simpa [hrecs] using hn
        obtain ⟨⟨hr, hp, hm⟩, hk⟩ := ih ((s.recordOut r rs).withCluster r) (hout.symm ▸ hlen)
        rw [State.releaseRecs_done hrecs hdone]
        refine ⟨⟨?_, ?_, State.keepsMemories_trans hm hmem⟩, hk.trans hkeeps⟩
        · rw [hr, hout, List.dropWhile_cons_of_pos hdone]
        · rw [hp, hparts, hout, List.takeWhile_cons_of_pos hdone, List.flatMap_cons, State.clusterParts_congr hmem.1, List.append_assoc]

theorem State.releaseReady_merged (s : State) : s.releaseReady.Merged s s.hub.recs ∧ s.releaseReady.ReleaseKeeps s :=
  State.releaseRecs_merged _ s (Nat.le_refl _)

/-- A single complete record that leaves is counted once. -/
theorem State.releaseReady_counts (hrecs : s.hub.recs = r :: rs) (hdone : r.done = true) (hrs : ∀ x ∈ rs.head?, x.done = false) :
    s.releaseReady.o Obj.HUB_CEVENTS = (s.o Obj.HUB_CEVENTS + 1) % 2 ^ 48 := by
  have hlen : s.hub.recs.length = rs.length + 1 := by rw [hrecs]; rfl
  have hout := (s.withCluster_recordOut r rs).1
  rw [State.releaseReady, hlen, State.releaseRecs_done hrecs hdone, State.releaseRecs_waits (hout.symm ▸ hrs)]
  exact s.recordOut_events r rs

/-! ### The highest level of a port's buffer (R220) -/

/-- The highest level that a merging hub has seen in port k's buffer is v, and no more is in it now. -/
structure State.PeakHolds (s : State) (k : Port) (v : Nat) : Prop where
  mode : s.mergeMode = true
  peak : s.o (Obj.HUB_BUFPEAK k) = v
  level : s.portLevel k ≤ v

/-- In merge mode nothing is held for relays. -/
theorem State.portLevel_merging (h : s.mergeMode = true) (k : Nat) : s.portLevel k = (s.port k).fill + (s.port k).building.length := by
  have hmode : s.o Obj.HUB_MODE = 0 := by simpa using (Bool.and_eq_true_iff.mp h).2
  simp [State.portLevel, State.passHeld, hmode]

/-- Merge mode is a matter of two objects. -/
theorem State.mergeMode_congr (hrole : t.o Obj.CF_ROLE = s.o Obj.CF_ROLE) (hmode : t.o Obj.HUB_MODE = s.o Obj.HUB_MODE) :
    t.mergeMode = s.mergeMode := by
  simp only [State.mergeMode, State.isHub, hrole, hmode]

/-- What leaves the mode, the port and its highest level alone leaves the highest level valid. -/
theorem State.PeakHolds.congr {k : Port} {v : Nat} (h : s.PeakHolds k v) (hmode : t.mergeMode = s.mergeMode)
    (hpeak : t.o (Obj.HUB_BUFPEAK k) = s.o (Obj.HUB_BUFPEAK k)) (hport : t.port k = s.port k) : t.PeakHolds k v := by
  have htm := hmode.trans h.mode
  refine ⟨htm, hpeak.trans h.peak, ?_⟩
  rw [State.portLevel_merging htm, hport, ← State.portLevel_merging h.mode]
  exact h.level

/-- A port's buffer level touches no object but its own highest level. -/
theorem State.portFill_keepsObjects (s : State) (k n : Nat) : (s.portFill k n).keepsObjects s [Obj.HUB_BUFPEAK k] :=
  State.keepsObjects_setO (t := s.setPort k _) (State.keepsObjects_refl s _) (by simp) _

theorem State.portFill_mode (s : State) (k n : Nat) : (s.portFill k n).mergeMode = s.mergeMode := by
  have hrole : Obj.CF_ROLE ∉ [Obj.HUB_BUFPEAK k] := by simp only [List.mem_singleton, Obj.CF_ROLE, Obj.HUB_BUFPEAK, objKey]; omega
  have hmode : Obj.HUB_MODE ∉ [Obj.HUB_BUFPEAK k] := by simp only [List.mem_singleton, Obj.HUB_MODE, Obj.HUB_BUFPEAK, objKey]; omega
  exact State.mergeMode_congr (s.portFill_keepsObjects k n _ hrole) (s.portFill_keepsObjects k n _ hmode)

theorem State.port_portFill_self (s : State) (k : Port) (n : Nat) : (s.portFill k n).port k = { s.port k with fill := n } :=
  s.port_setPort_self k _

theorem State.port_portFill_ne (s : State) {k j : Port} (n : Nat) (h : k ≠ j) : (s.portFill j n).port k = s.port k :=
  s.port_setPort_ne _ h

/-- A port's buffer with n bytes of paired answers in it. -/
theorem State.PeakHolds.portFill (h : s.mergeMode = true) (k : Port) (n : Nat) :
    (s.portFill k n).PeakHolds k (max (s.o (Obj.HUB_BUFPEAK k)) (n + (s.port k).building.length)) := by
  have hlevel : (s.portFill k n).portLevel k = n + (s.port k).building.length := by
    rw [State.portLevel_merging ((s.portFill_mode k n).trans h), State.port_portFill_self]
  have hset : (s.setPort k { s.port k with fill := n }).portLevel k = n + (s.port k).building.length := by
    rw [State.portLevel_merging (s := s.setPort k _) h, State.port_setPort_self]
  refine ⟨(s.portFill_mode k n).trans h, ?_, hlevel.trans_le (Nat.le_max_right _ _)⟩
  exact (State.o_setO_self (s.setPort k _) _ _).trans (congrArg _ hset)

/-- What is freed in a port's buffer leaves every highest level valid. -/
theorem State.PeakHolds.freeBuffer {k : Port} {v : Nat} (h : s.PeakHolds k v) (r : MRec) (j : Port) :
    (State.freeBuffer r s j).PeakHolds k v := by
  rcases s.freeBuffer_cases r j with heq | ⟨d, heq⟩ <;> rw [heq]
  · exact h
  · by_cases hkj : k = j
    · subst hkj
      have hfill := State.PeakHolds.portFill h.mode k ((s.port k).fill - d)
      have hle := h.level
      rw [State.portLevel_merging h.mode] at hle
      rwa [h.peak, Nat.max_eq_left (by omega)] at hfill
    · have hkey : Obj.HUB_BUFPEAK k ∉ [Obj.HUB_BUFPEAK j] := by
        simpa using fun e => hkj (Fin.ext (hubBufpeak_injective e))
      exact h.congr (s.portFill_mode j _) (s.portFill_keepsObjects j _ _ hkey) (s.port_portFill_ne _ hkj)

theorem State.PeakHolds.foldl_freeBuffer {k : Port} {v : Nat} (r : MRec) {l : List Nat} (hl : ∀ j ∈ l, j < 8) (h : s.PeakHolds k v) :
    (l.foldl (State.freeBuffer r) s).PeakHolds k v := by
  induction l generalizing s with
  | nil => exact h
  | cons j l ih =>
    obtain ⟨hj, hl⟩ := List.forall_mem_cons.mp hl
    exact ih hl (h.freeBuffer r ⟨j, hj⟩)

theorem State.PeakHolds.released {k : Port} {v : Nat} (h : s.PeakHolds k v) (r : MRec) (l : List MRec) :
    ((s.recordOut r l).withCluster r).PeakHolds k v := by
  have hcheck : ((s.eventCounted l).check 4 ((s.eventCounted l).clusterCover r)).PeakHolds k v := by
    have hkeeps : ((s.eventCounted l).check 4 ((s.eventCounted l).clusterCover r)).keepsObjects s [Obj.HUB_CEVENTS, Obj.CHK_RUN 4] :=
      State.keepsObjects_setO (State.keepsObjects_setO (t := s.setRecs l) (State.keepsObjects_refl s _) (by simp) _) (by simp) _
    have hkey : Obj.HUB_BUFPEAK k ∉ [Obj.HUB_CEVENTS, Obj.CHK_RUN 4] := by
      have hk := k.isLt
      simp only [List.mem_cons, List.not_mem_nil, or_false, Obj.HUB_BUFPEAK, Obj.HUB_CEVENTS, Obj.CHK_RUN, objKey]
      omega
    exact h.congr (State.mergeMode_congr (hkeeps _ (by decide)) (hkeeps _ (by decide))) (hkeeps _ hkey) rfl
  have hout := hcheck.foldl_freeBuffer r (l := List.range 8) (fun j hj => List.mem_range.mp hj)
  exact State.PeakHolds.congr (s := s.recordOut r l) hout rfl rfl rfl

theorem State.PeakHolds.releaseRecs {k : Port} {v : Nat} (n : Nat) (h : s.PeakHolds k v) : (s.releaseRecs n).PeakHolds k v := by
  induction n generalizing s with
  | zero => exact h
  | succ n ih =>
    by_cases hwaits : ∀ r ∈ s.hub.recs.head?, r.done = false
    case pos => exact (State.releaseRecs_waits (n := n + 1) hwaits).symm ▸ h
    case neg =>
      simp only [not_forall, Bool.not_eq_false] at hwaits
      obtain ⟨r, hr, hdone⟩ := hwaits
      obtain ⟨rs, hrecs⟩ := List.head?_eq_some_iff.mp hr
      rw [State.releaseRecs_done hrecs hdone]
      exact ih (h.released r rs)

end Sys2Proof.Machine
end

section
/-! SUPPORT. A south port that enters OFF: its link, its lanes and the flags change, the merger's records and counts do not
(R214, R218). -/
namespace Sys2Proof.Machine

variable {s t u : State}

/-- The merger's count of cluster events, and every object of a port but its state. -/
def mergerCount (key : Nat) : Bool :=
  key == Obj.HUB_CEVENTS || (decide (objKey 0x3410 0 ≤ key ∧ key < objKey 0x3418 0) && key % 256 != 1)

theorem mergerCount_above {key : Nat} (h : objKey 0x3418 0 ≤ key) : mergerCount key = false := by
  simp only [objKey] at h
  have hne : key ≠ 0x340006 := by omega
  have hlt : ¬key < 0x341800 := by omega
  simp [mergerCount, Obj.HUB_CEVENTS, objKey, hne, hlt]

/-- A port's object is one of its counts. -/
theorem mergerCount_port (k : Port) {sub : Nat} (hsub : 1 < sub) (hlt : sub < 256) : mergerCount (objKey (0x3410 + k) sub) = true := by
  have hk := k.isLt
  have hlo : 0x341000 ≤ (0x3410 + k.val) * 256 + sub := by omega
  have hhi : (0x3410 + k.val) * 256 + sub < 0x341800 := by omega
  have hmod : sub % 256 ≠ 1 := by omega
  simp [mergerCount, objKey, hlo, hhi, hmod]

theorem notMem_of_mergerCount {ks : List Nat} {key : Nat} (h : ∀ k ∈ ks, mergerCount k = false) (hkey : mergerCount key = true) :
    key ∉ ks :=
  fun hmem => Bool.false_ne_true ((h key hmem).symm.trans hkey)

/-- The merger's records, what the builders hold, the memories and the merger's counts are what they were in s. -/
structure State.KeepsMerger (t s : State) : Prop where
  recs : t.hub.recs = s.hub.recs
  skip : t.hub.ownSkip = s.hub.ownSkip
  bld : t.bld = s.bld
  memories : t.keepsMemories s
  counts : ∀ key, mergerCount key = true → t.o key = s.o key

theorem State.KeepsMerger.refl (s : State) : s.KeepsMerger s := ⟨rfl, rfl, rfl, ⟨rfl, rfl, rfl⟩, fun _ _ => rfl⟩

theorem State.KeepsMerger.trans (h : u.KeepsMerger t) (h' : t.KeepsMerger s) : u.KeepsMerger s :=
  ⟨h.recs.trans h'.recs, h.skip.trans h'.skip, h.bld.trans h'.bld, State.keepsMemories_trans h.memories h'.memories,
    fun key hk => (h.counts key hk).trans (h'.counts key hk)⟩

theorem State.KeepsMerger.setO {k : Nat} (h : t.KeepsMerger s) (hk : mergerCount k = false) (v : Nat) : (t.setO k v).KeepsMerger s :=
  ⟨h.recs, h.skip, h.bld, h.memories, fun key hkey =>
    have hne : key ≠ k := fun e => Bool.false_ne_true (hk.symm.trans ((congrArg mergerCount e).symm.trans hkey))
    (State.o_setO_ne t v hne).trans (h.counts key hkey)⟩

theorem State.KeepsMerger.setOb {k : Nat} (h : t.KeepsMerger s) (hk : mergerCount k = false) (n : Nat) (b : Bool) :
    (t.setOb k n b).KeepsMerger s :=
  h.setO hk _

theorem State.KeepsMerger.ite {c : Prop} [Decidable c] (ht : t.KeepsMerger s) (hu : u.KeepsMerger s) :
    (if c then t else u).KeepsMerger s := by
  split
  · exact ht
  · exact hu

theorem State.KeepsMerger.foldl {β : Type} {step : State → β → State} (h : ∀ v x, (step v x).KeepsMerger v) (l : List β) (s : State) :
    (l.foldl step s).KeepsMerger s := by
  induction l generalizing s with
  | nil => exact .refl s
  | cons x l ih => exact (ih _).trans (h s x)

/-! ### The flags (R522, R550, R551) -/

theorem State.refreshFaultN_keepsMerger (s : State) : s.refreshFaultN.KeepsMerger s :=
  .ite (.refl s) ((State.KeepsMerger.refl s).setO (by decide) _)

theorem State.endIf_keepsMerger (s : State) (n : Nat) (gone : Bool) : (s.endIf n gone).KeepsMerger s :=
  .ite ((State.KeepsMerger.refl s).setO (by decide) _) (.refl s)

theorem State.dieCond_keepsMerger (s : State) : s.dieCond.KeepsMerger s :=
  .ite (.refl s) ((State.KeepsMerger.refl s).setO (by decide) _)

theorem State.ariseIf_keepsMerger (s : State) (n : Nat) : (s.ariseIf n).KeepsMerger s := by
  have hcount : mergerCount (Obj.FLT_COND_CNT n) = false := mergerCount_above (by simp only [Obj.FLT_COND_CNT, objKey]; omega)
  have hset := ((State.KeepsMerger.refl s).setOb (k := Obj.FLT_ACTIVE) (by decide) n true).setOb (k := Obj.FLT_LATCHED) (by decide) n true
  exact .ite (.refl s) ((State.refreshFaultN_keepsMerger _).trans (hset.setO hcount _))

theorem State.stage_keepsMerger (s : State) (code cls unit : Nat) (d : List Byte) : (s.stage code cls unit d).KeepsMerger s :=
  .ite ((State.KeepsMerger.refl s).setO (by decide) _) ⟨rfl, rfl, rfl, ⟨rfl, rfl, rfl⟩, fun _ _ => rfl⟩

theorem State.portCond_keepsMerger (s : State) : s.portCond.KeepsMerger s :=
  .ite ((State.ariseIf_keepsMerger _ 12).trans (s.stage_keepsMerger _ _ _ _)) (.refl s)

theorem State.settle_keepsMerger (s : State) : s.settle.KeepsMerger s := by
  have hrun : (if s.inRun then s.setO Obj.PWR_STATE (if s.degrNow = 0 then 3 else 5) else s).KeepsMerger s :=
    .ite ((State.KeepsMerger.refl s).setO (by decide) _) (.refl s)
  unfold State.settle
  exact (State.refreshFaultN_keepsMerger _).trans <| (State.dieCond_keepsMerger _).trans <| (State.portCond_keepsMerger _).trans <|
    (State.endIf_keepsMerger _ _ _).trans <| (State.endIf_keepsMerger _ _ _).trans <| (State.endIf_keepsMerger _ _ _).trans <|
    (State.endIf_keepsMerger _ _ _).trans <| (State.endIf_keepsMerger _ _ _).trans hrun

/-! ### The link and the lanes of a port (R214, R330) -/

theorem State.linkDown_keepsMerger (s : State) (k : Port) (keep : Bool) : (s.linkDown (.south k) keep).KeepsMerger s := by
  have hkey : mergerCount (Obj.RG_SSTATE k) = false := mergerCount_above (by simp only [Obj.RG_SSTATE, objKey]; omega)
  have hstate := (State.KeepsMerger.refl s).setO hkey 0
  exact ⟨hstate.recs, hstate.skip, hstate.bld, hstate.memories, hstate.counts⟩

theorem State.loseHeld_keepsMerger (s : State) (k : Port) : (s.loseHeld (.south k)).KeepsMerger s := by
  have hkey : mergerCount (Obj.RG_SLOSTFR k) = false := mergerCount_above (by simp only [Obj.RG_SLOSTFR, objKey]; omega)
  have hpool : ∀ key ∈ [Obj.POOL_DOUBLE, Obj.POOL_FOREIGN], mergerCount key = false := by decide
  let l : LinkId := .south k
  let v : State := s.setTx l { s.tx l with held := [], ptr := (s.tx l).next, stalled := false }
  let bs := (s.tx l).held.flatMap (·.blocks)
  have hframe := v.releaseAll_keepsButPool .replay bs
  have hstores := hframe.stores
  have hrelease : (v.releaseAll .replay bs).KeepsMerger s :=
    ⟨(congrArg (fun w : State => w.hub.recs) hframe :), (congrArg (fun w : State => w.hub.ownSkip) hframe :),
      (congrArg State.bld hframe :), ⟨(State.releaseAll_kept .replay bs v).2, hstores.1, hstores.2⟩,
      fun key hk => State.releaseAll_keepsObjects .replay bs v key (notMem_of_mergerCount hpool hk)⟩
  unfold State.loseHeld State.releaseFrames State.bumpBy
  exact hrelease.setO hkey _

theorem State.KeepsMerger.setLane (h : t.KeepsMerger s) (i : Nat) (x : LaneUnit) : (t.setLane i x).KeepsMerger s :=
  ⟨h.recs, h.skip, h.bld, h.memories, h.counts⟩

theorem State.laneL2_keepsMerger (s : State) (i : Nat) : (s.laneL2 i).KeepsMerger s := by
  have hkey (sub : Nat) : mergerCount (objKey (0x4010 + i) sub) = false := mergerCount_above (by simp only [objKey]; omega)
  have hset := (((State.KeepsMerger.refl s).setO (k := Obj.LN_PSTATE i) (hkey 2) 2).setO (k := Obj.LN_ASTATE i) (hkey 4) 0).setO
    (k := Obj.LN_RATE i) (hkey 5) 0xFF
  exact hset.setLane i {}

theorem State.setPortState_off_keepsMerger (s : State) (k : Nat) : (s.setPortState k 0).KeepsMerger s := by
  have hkey : mergerCount (Obj.HUB_PSTATE k) = false := by
    have hne : (0x3410 + k) * 256 ≠ 0x340005 := by omega
    simp [mergerCount, Obj.HUB_PSTATE, Obj.HUB_CEVENTS, objKey, hne]
  have hset := ((State.KeepsMerger.refl s).setO hkey 0).setOb (k := Obj.HUB_PORT_UP) (by decide) k false
  unfold State.setPortState
  rw [if_neg (fun h => absurd h.1 (by decide))]
  exact hset

/-- A port that enters OFF leaves the merger what it holds. -/
theorem State.portOff_keepsMerger (s : State) (k : Nat) : (s.portOff k).KeepsMerger s := by
  unfold State.portOff
  split
  case isFalse => exact .refl s
  case isTrue =>
    have hstate := s.setPortState_off_keepsMerger k
    have hport : ((s.setPortState k 0).setPort k { newest := (s.port k).newest, fill := (s.port k).fill }).KeepsMerger s :=
      ⟨hstate.recs, hstate.skip, hstate.bld, hstate.memories, hstate.counts⟩
    exact (State.settle_keepsMerger _).trans <| (State.laneL2_keepsMerger _ _).trans <| (State.laneL2_keepsMerger _ _).trans <|
      (State.loseHeld_keepsMerger _ _).trans <| (State.linkDown_keepsMerger _ _ _).trans hport

end Sys2Proof.Machine
end

section
/-! SUPPORT. The answer at the queue's head is handed over: counted by its kind, and passed to the builders or the merger
(R189, R194, R195, R197, R224). -/
namespace Sys2Proof.Machine

variable {s t u v : State} {r : MRec} {ls rs : List MRec} {a : Answer} {e : QEntry} {rest : List QItem}

/-! ### The merger takes the device's own answer (R189, R224) -/

/-- The part that a device's answer is to the builders. -/
def ownPart (a : Answer) : Part := { a := a, first := true, last := true, kind := .subEvent }

/-- The state in which an answer has passed to the builders. -/
def State.withAnswer (s : State) (a : Answer) : State := { s with bld := { s.bld with parts := s.bld.parts ++ [ownPart a] } }

/-- The state in which the answer of a query that has left without it has been dropped. -/
def State.lateDropped (s : State) (a : Answer) : State :=
  { s.releaseAll .builder a.blocks with hub := { s.hub with ownSkip := s.hub.ownSkip - 1 } }

theorem State.ownAnswer_leaf (h : s.mergeMode = false) : s.ownAnswer a = s.withAnswer a := by
  simp only [State.ownAnswer, h, Bool.false_eq_true, if_false]
  rfl

theorem State.ownAnswer_skipped (h : s.mergeMode = true) (hskip : 0 < s.hub.ownSkip) : s.ownAnswer a = s.lateDropped a := by
  simp only [State.ownAnswer, h, hskip, if_true]
  rfl

theorem State.ownAnswer_unawaited (h : s.mergeMode = true) (hskip : s.hub.ownSkip = 0) (hrecs : ∀ x ∈ s.hub.recs, x.waits 0 = false) :
    s.ownAnswer a = s.withAnswer a := by
  simp only [State.ownAnswer, h, hskip, Nat.lt_irrefl, State.waiting_eq_nil hrecs, if_true, if_false]
  rfl

theorem State.ownAnswer_paired (h : s.mergeMode = true) (hskip : s.hub.ownSkip = 0) (hrecs : s.hub.recs = ls ++ r :: rs)
    (hls : ∀ x ∈ ls, x.waits 0 = false) (hr : r.waits 0 = true) :
    s.ownAnswer a = (s.setRecs (ls ++ r.put 0 (.paired a) :: rs)).releaseReady := by
  obtain ⟨l, hl⟩ := State.waiting_oldest hrecs hls hr
  simp only [State.ownAnswer, h, hskip, Nat.lt_irrefl, hl, hrecs, modify_at_length, if_true, if_false]

/-- What a hub or a leaf does with an own answer. -/
theorem State.ownAnswer_cases (s : State) (a : Answer) : s.ownAnswer a = s.withAnswer a ∨ s.ownAnswer a = s.lateDropped a ∨
    ∃ l, s.ownAnswer a = (s.setRecs l).releaseReady := by
  by_cases h : s.mergeMode = true
  case neg => exact .inl (State.ownAnswer_leaf (Bool.eq_false_iff.mpr h))
  case pos =>
    by_cases hskip : 0 < s.hub.ownSkip
    case pos => exact .inr (.inl (State.ownAnswer_skipped h hskip))
    case neg =>
      cases hw : s.waiting 0 with
      | nil =>
        refine .inl ?_
        simp only [State.ownAnswer, h, hskip, hw, if_true, if_false]
        rfl
      | cons i l =>
        refine .inr (.inr ⟨s.hub.recs.modify i fun r => r.put 0 (.paired a), ?_⟩)
        simp only [State.ownAnswer, h, hskip, hw, if_true, if_false]

/-- The objects that an own answer may change. -/
def ownKeys : List Nat := [Obj.POOL_DOUBLE, Obj.POOL_FOREIGN] ++ releaseKeys

/-- An own answer leaves the queue, the memories and all objects but the pool's and the merger's alone. -/
theorem State.ownAnswer_keeps (s : State) (a : Answer) : (s.ownAnswer a).keepsMemories s ∧
    (s.ownAnswer a).query.items = s.query.items ∧ (s.ownAnswer a).keepsObjects s ownKeys := by
  rcases s.ownAnswer_cases a with h | h | ⟨l, h⟩ <;> rw [h]
  · exact ⟨⟨rfl, rfl, rfl⟩, rfl, State.keepsObjects_refl s _⟩
  · obtain ⟨hitems, hspm⟩ := State.releaseAll_kept .builder a.blocks s
    obtain ⟨hrank, hnvm⟩ := (s.releaseAll_keepsButPool .builder a.blocks).stores
    exact ⟨⟨hspm, hrank, hnvm⟩, hitems, State.keepsObjects_mono (State.releaseAll_keepsObjects .builder a.blocks s)
      (List.subset_append_left _ _)⟩
  · obtain ⟨hmerged, hkeeps⟩ := (s.setRecs l).releaseReady_merged
    exact ⟨hmerged.memories, congrArg (·.items) hkeeps.query, State.keepsObjects_mono hkeeps.keeps (List.subset_append_right _ _)⟩

/-- The device's answer a has entered t: the builders of a leaf, or the merger of a hub. -/
structure State.AnswerIn (t s : State) (a : Answer) : Prop where
  memories : t.keepsMemories s
  leaf : s.mergeMode = false → t.hub = s.hub ∧ t.bld.parts = s.bld.parts ++ [ownPart a]
  unawaited : s.mergeMode = true → s.hub.ownSkip = 0 → (∀ x ∈ s.hub.recs, x.waits 0 = false) →
    t.hub = s.hub ∧ t.bld.parts = s.bld.parts ++ [ownPart a]
  skipped : s.mergeMode = true → 0 < s.hub.ownSkip → t.hub = { s.hub with ownSkip := s.hub.ownSkip - 1 } ∧ t.bld = s.bld
  paired : ∀ ls r rs, s.mergeMode = true → s.hub.ownSkip = 0 → s.hub.recs = ls ++ r :: rs → (∀ x ∈ ls, x.waits 0 = false) →
    r.waits 0 = true → t.Merged s (ls ++ r.put 0 (.paired a) :: rs)

theorem State.ownAnswer_answerIn (s : State) (a : Answer) : (s.ownAnswer a).AnswerIn s a where
  memories := (s.ownAnswer_keeps a).1
  leaf h := by rw [State.ownAnswer_leaf h]; exact ⟨rfl, rfl⟩
  unawaited h hskip hrecs := by rw [State.ownAnswer_unawaited h hskip hrecs]; exact ⟨rfl, rfl⟩
  skipped h hskip := by
    rw [State.ownAnswer_skipped h hskip]
    exact ⟨rfl, (congrArg State.bld (s.releaseAll_keepsButPool .builder a.blocks) :)⟩
  paired ls r rs h hskip hrecs hls hr := by
    rw [State.ownAnswer_paired h hskip hrecs hls hr]
    exact (State.releaseReady_merged _).1.of_records rfl

/-- The hub, the builders and the memories of t are those of s. -/
structure State.SameHub (t s : State) : Prop where
  hub : t.hub = s.hub
  bld : t.bld = s.bld
  memories : t.keepsMemories s

theorem State.SameHub.of_keepsButQueue (h : t.keepsButQueue s) : t.SameHub s :=
  ⟨(congrArg State.hub h :), (congrArg State.bld h :), (congrArg State.spm h :), (congrArg State.rankMem h :), (congrArg State.nvm h :)⟩

theorem State.Merged.between {l : List MRec} (h : u.Merged v l) (ht : t.SameHub u) (hv : v.SameHub s) : t.Merged s l := by
  refine ⟨ht.hub ▸ h.recs, ?_, State.keepsMemories_trans ht.memories (State.keepsMemories_trans h.memories hv.memories)⟩
  rw [ht.bld, h.parts, hv.bld, State.clusterParts_congr hv.memories.1]

/-- What happens before and after, beside the hub and the builders, takes nothing from an answer. -/
theorem State.AnswerIn.between (h : u.AnswerIn v a) (ht : t.SameHub u) (hv : v.SameHub s) (hmode : v.mergeMode = s.mergeMode) :
    t.AnswerIn s a := by
  obtain ⟨hmem, hleaf, hun, hskip, hpair⟩ := h
  rw [hmode] at hleaf hun hskip hpair
  rw [hv.hub, hv.bld, ← ht.hub, ← ht.bld] at hleaf hun hskip
  rw [hv.hub] at hpair
  exact ⟨State.keepsMemories_trans ht.memories (State.keepsMemories_trans hmem hv.memories), hleaf, hun, hskip,
    fun ls r rs hm h0 hrecs hls hr => (hpair ls r rs hm h0 hrecs hls hr).between ht hv⟩

/-! ### The count by kinds (R195, R197) -/

/-- The counters of the answers' kinds. -/
def kindKeys : List Nat := [Obj.QRY_NORMAL, Obj.QRY_EXPIRED, Obj.QRY_LOST, Obj.QRY_THINNED, Obj.QRY_REFUSED]

theorem kindKey_mem (k : Nat) : kindKey k ∈ kindKeys := by
  unfold kindKey
  split <;> simp [kindKeys]

theorem kindKey_ne_answered (k : Nat) : kindKey k ≠ Obj.QRY_ANSWERED := fun h =>
  absurd (h ▸ kindKey_mem k) (by decide)

theorem State.countAnswer_keepsObjects (s : State) (k : Nat) : (s.countAnswer k).keepsObjects s (Obj.QRY_ANSWERED :: kindKeys) :=
  State.keepsObjects_bump (State.keepsObjects_setO (State.keepsObjects_refl s _) List.mem_cons_self _)
    (List.mem_cons_of_mem _ (kindKey_mem k))

/-- Every answer is counted, and its kind. -/
theorem State.countAnswer_counts (s : State) (k : Nat) : (s.countAnswer k).o Obj.QRY_ANSWERED = (s.o Obj.QRY_ANSWERED + 1) % 2 ^ 48 ∧
    (s.countAnswer k).o (kindKey k) = satAdd 32 (s.o (kindKey k)) 1 := by
  constructor
  · exact (State.o_bump_ne _ (kindKey_ne_answered k).symm).trans (s.o_setO_self _ _)
  · exact (State.o_bump_self _ _).trans (congrArg (satAdd 32 · 1) (s.o_setO_ne _ (kindKey_ne_answered k)))

/-! ### The handoff (R194) -/

/-- The state in which an entry's answer has left the queue. -/
def State.entryTaken (s : State) (e : QEntry) (rest : List QItem) (svc : Nat) : State :=
  let a := if e.thin then e.thinAnswer else e.answer
  let s := (s.setItems rest).transferAll .query .builder a.blocks
  let s := if e.spanCut then s.bump Obj.QRY_SPANCUT else s
  if e.waited then s else s.peak Obj.QRY_SVC_MAX svc

theorem State.handEntry_eq (s : State) (e : QEntry) (rest : List QItem) (svc : Nat) : s.handEntry e rest svc =
    (((s.entryTaken e rest svc).countAnswer e.kind).ownAnswer (if e.thin then e.thinAnswer else e.answer)).busyUpdate s.query.fill := rfl

theorem State.transferAll_kept (s : State) (x y : PoolAgent) (l : List Nat) : (s.transferAll x y l).keepsButQueue s ∧
    (s.transferAll x y l).query.items = s.query.items ∧ (s.transferAll x y l).keepsObjects s [Obj.POOL_FOREIGN] := by
  induction l generalizing s with
  | nil => exact ⟨rfl, rfl, State.keepsObjects_refl s _⟩
  | cons b l ih =>
    obtain ⟨hframe, hitems, hkeeps⟩ := ih (s.transfer x y b)
    have hstep : (s.transfer x y b).keepsButQueue s ∧ (s.transfer x y b).query.items = s.query.items ∧
        (s.transfer x y b).keepsObjects s [Obj.POOL_FOREIGN] := by
      unfold State.transfer
      split
      · exact ⟨rfl, rfl, State.keepsObjects_refl s _⟩
      · exact ⟨rfl, rfl, State.keepsObjects_bump (State.keepsObjects_refl s _) (by simp)⟩
    exact ⟨State.keepsButQueue_trans hframe hstep.1, hitems.trans hstep.2.1, State.keepsObjects_trans hkeeps hstep.2.2⟩

/-- What an entry that leaves the queue changes. -/
structure State.EntryLeft (t s : State) (rest : List QItem) : Prop where
  frame : t.keepsButQueue s
  items : t.query.items = rest
  keeps : t.keepsObjects s [Obj.POOL_FOREIGN, Obj.QRY_SPANCUT, Obj.QRY_SVC_MAX]

theorem State.EntryLeft.setO {k : Nat} (h : t.EntryLeft s rest) (hk : k ∈ [Obj.POOL_FOREIGN, Obj.QRY_SPANCUT, Obj.QRY_SVC_MAX]) (n : Nat) :
    (t.setO k n).EntryLeft s rest :=
  ⟨State.keepsButQueue_setO h.frame k n, h.items, State.keepsObjects_setO h.keeps hk n⟩

theorem State.EntryLeft.spanCounted (h : t.EntryLeft s rest) (c : Bool) :
    (if c then t.bump Obj.QRY_SPANCUT else t).EntryLeft s rest := by
  split
  · exact h.setO (by simp) _
  · exact h

theorem State.EntryLeft.served (h : t.EntryLeft s rest) (c : Bool) (svc : Nat) :
    (if c then t else t.peak Obj.QRY_SVC_MAX svc).EntryLeft s rest := by
  split
  · exact h
  · exact h.setO (by simp) _

theorem State.entryTaken_left (s : State) (e : QEntry) (rest : List QItem) (svc : Nat) :
    (s.entryTaken e rest svc).EntryLeft s rest := by
  obtain ⟨hframe, hitems, hkeeps⟩ := (s.setItems rest).transferAll_kept .query .builder (if e.thin then e.thinAnswer else e.answer).blocks
  have htransfer : ((s.setItems rest).transferAll .query .builder (if e.thin then e.thinAnswer else e.answer).blocks).EntryLeft s rest :=
    ⟨State.keepsButQueue_trans hframe rfl, hitems, State.keepsObjects_mono hkeeps (by simp)⟩
  exact (htransfer.spanCounted _).served _ _

/-- The builders take the answer of the queue's first item. -/
theorem State.answerHandoff_entry {svc : Nat} (hb : s.buildersAccept = true) (hitems : s.query.items = .entry e :: rest)
    (he : e.thin = true ∨ e.st = .handoff) : s.answerHandoff svc = (s.handEntry e rest svc).answered := by
  have hready : (e.thin || e.st == .handoff) = true := by simpa using he
  simp only [State.answerHandoff, hb, Bool.not_true, Bool.false_eq_true, if_false, hitems, hready, if_true]

theorem State.answerHandoff_run {svc f l d b : Nat} (hb : s.buildersAccept = true) (hitems : s.query.items = .run f l d b :: rest) :
    s.answerHandoff svc = (s.handRun f l d b rest).answered := by
  simp only [State.answerHandoff, hb, Bool.not_true, Bool.false_eq_true, if_false, hitems]

theorem State.answerHandoff_unfinished {svc : Nat} (hitems : s.query.items = .entry e :: rest) (hthin : e.thin = false)
    (hst : e.st ≠ .handoff) : s.answerHandoff svc = s := by
  simp [State.answerHandoff, hitems, hthin, hst]

theorem State.answerHandoff_nothing {svc : Nat} (h : s.o Obj.BLD_STATE = 0 ∨ s.o Obj.PWR_STATE = 4 ∨ s.north.held = true ∨ s.query.items = []) :
    s.answerHandoff svc = s := by
  rcases h with h | h | h | h <;> simp [State.answerHandoff, State.buildersAccept, h]

theorem State.buildersAccept_of (hbld : s.o Obj.BLD_STATE ≠ 0) (hpwr : s.o Obj.PWR_STATE ≠ 4) (hheld : s.north.held = false) :
    s.buildersAccept = true := by
  simp [State.buildersAccept, hbld, hpwr, hheld]

/-- An answer has been handed over: the queue holds rest, and the answer a of this kind is counted and passed on. -/
structure State.HandedOver (t s : State) (rest : List QItem) (kind : Nat) (a : Answer) : Prop where
  items : t.query.items = rest
  answered : t.o Obj.QRY_ANSWERED = (s.o Obj.QRY_ANSWERED + 1) % 2 ^ 48
  counted : t.o (kindKey kind) = satAdd 32 (s.o (kindKey kind)) 1
  passed : t.AnswerIn s a

/-- Objects that the queue's flags and an own answer leave alone. -/
theorem notMem_ownKeys : ∀ k ∈ Obj.QRY_ANSWERED :: kindKeys, k ∉ ownKeys ∧ k ∉ [Obj.FLT_LOG_LOST] ∧
    k ∉ [Obj.POOL_FOREIGN, Obj.QRY_SPANCUT, Obj.QRY_SVC_MAX] := by decide

/-- What follows once an item's answer has left the queue. -/
theorem State.EntryLeft.handsOver (hv : v.EntryLeft s rest) (kind : Nat) (a : Answer) :
    ((v.countAnswer kind).ownAnswer a).HandedOver s rest kind a := by
  obtain ⟨hframe, hitems, hkeeps⟩ := hv
  obtain ⟨-, hitems', hown⟩ := (v.countAnswer kind).ownAnswer_keeps a
  obtain ⟨hall, hkind⟩ := v.countAnswer_counts kind
  obtain ⟨hown1, -, hleft1⟩ := notMem_ownKeys Obj.QRY_ANSWERED List.mem_cons_self
  obtain ⟨hown2, -, hleft2⟩ := notMem_ownKeys _ (List.mem_cons_of_mem _ (kindKey_mem kind))
  have hsame : (v.countAnswer kind).SameHub s := .of_keepsButQueue (State.keepsButQueue_setO (State.keepsButQueue_setO hframe _ _) _ _)
  have hmode : (v.countAnswer kind).mergeMode = s.mergeMode :=
    State.mergeMode_congr ((v.countAnswer_keepsObjects kind _ (by decide)).trans (hkeeps _ (by decide)))
      ((v.countAnswer_keepsObjects kind _ (by decide)).trans (hkeeps _ (by decide)))
  refine ⟨hitems'.trans hitems, ?_, ?_, (State.ownAnswer_answerIn _ a).between ⟨rfl, rfl, rfl, rfl, rfl⟩ hsame hmode⟩
  · rw [hown _ hown1, hall, hkeeps _ hleft1]
  · rw [hown _ hown2, hkind, hkeeps _ hleft2]

/-- The flags that follow a handoff change nothing of it. -/
theorem State.HandedOver.busyUpdated {kind : Nat} (h : u.HandedOver s rest kind a) (fill : Nat) :
    (u.busyUpdate fill).HandedOver s rest kind a := by
  have hbusy := u.busyChange_keepsButQueue (decide (fill > u.o Obj.QRY_BUSY_LEVEL))
  have hkeeps := u.busyChange_keepsObjects (decide (fill > u.o Obj.QRY_BUSY_LEVEL))
  obtain ⟨-, hlog1, -⟩ := notMem_ownKeys Obj.QRY_ANSWERED List.mem_cons_self
  obtain ⟨-, hlog2, -⟩ := notMem_ownKeys _ (List.mem_cons_of_mem _ (kindKey_mem kind))
  exact ⟨(u.busyChange_queue _).1.trans h.items, (hkeeps _ hlog1).trans h.answered, (hkeeps _ hlog2).trans h.counted,
    h.passed.between (.of_keepsButQueue hbusy) ⟨rfl, rfl, rfl, rfl, rfl⟩ rfl⟩

theorem State.HandedOver.watched {kind : Nat} (h : u.HandedOver s rest kind a) : u.answered.HandedOver s rest kind a :=
  ⟨h.items, h.answered, h.counted, h.passed.between ⟨rfl, rfl, rfl, rfl, rfl⟩ ⟨rfl, rfl, rfl, rfl, rfl⟩ rfl⟩

theorem State.handEntry_handsOver (s : State) (e : QEntry) (rest : List QItem) (svc : Nat) :
    (s.handEntry e rest svc).answered.HandedOver s rest e.kind (if e.thin then e.thinAnswer else e.answer) := by
  rw [State.handEntry_eq]
  exact (((s.entryTaken_left e rest svc).handsOver _ _).busyUpdated _).watched

theorem State.handRun_handsOver (s : State) (f l d b : Nat) (rest : List QItem) :
    (s.handRun f l d b rest).answered.HandedOver s (if d + 1 < l then .run f l (d + 1) b :: rest else rest) 4
      (refusedAnswer ((f + d) % 2 ^ 16) b) := by
  have hleft : (s.setItems (if d + 1 < l then .run f l (d + 1) b :: rest else rest)).EntryLeft s
      (if d + 1 < l then .run f l (d + 1) b :: rest else rest) := ⟨rfl, rfl, State.keepsObjects_refl s _⟩
  exact (hleft.handsOver 4 _).watched

end Sys2Proof.Machine
end

section
/-! SUPPORT. Leaf answers are paired by their QIDs, and what fails or times out is closed (R221, R222, R223). -/
namespace Sys2Proof.Machine

variable {s t u v : State} {r : MRec} {ls rs : List MRec} {k : Port} {b : List Byte} {x : Pos}

theorem State.Merged.after {l : List MRec} (h : u.Merged s l) (ht : t.KeepsMerger u) : t.Merged s l :=
  ⟨ht.recs.trans h.recs, (congrArg (·.parts) ht.bld).trans h.parts, State.keepsMemories_trans ht.memories h.memories⟩

/-! ### The oldest outstanding query closes (R222) -/

/-- The objects of a port that a release leaves alone. -/
theorem notMem_releaseKeys (k : Port) {sub : Nat} (hsub : sub < 0x0B) : objKey (0x3410 + k) sub ∉ releaseKeys := by
  have hk := k.isLt
  simp only [releaseKeys, List.mem_cons, List.mem_map, List.mem_range, Obj.HUB_CEVENTS, Obj.CHK_RUN, Obj.HUB_BUFPEAK, objKey]
  rintro (h | h | ⟨j, hj, h⟩) <;> omega

theorem State.closeOldest_none {c : Nat} (h : ∀ y ∈ s.hub.recs, y.waits (k + 1) = false) : s.closeOldest k c = s := by
  simp only [State.closeOldest, State.waiting_eq_nil h]

theorem State.closeOldest_eq (c : Nat) (hrecs : s.hub.recs = ls ++ r :: rs) (hls : ∀ y ∈ ls, y.waits (k + 1) = false)
    (hr : r.waits (k + 1) = true) : s.closeOldest k c = (s.closeAt ls.length (k + 1) c).releaseReady := by
  obtain ⟨l, hl⟩ := State.waiting_oldest hrecs hls hr
  simp only [State.closeOldest, hl]

/-- The oldest outstanding query closes with its reason, and is counted. -/
theorem State.closeOldest_closes (c : Nat) (hrecs : s.hub.recs = ls ++ r :: rs) (hls : ∀ y ∈ ls, y.waits (k + 1) = false)
    (hr : r.waits (k + 1) = true) : (s.closeOldest k c).Merged s (ls ++ r.put (k + 1) (.closed c) :: rs) ∧
      (s.closeOldest k c).o (Obj.HUB_ABSENT k) = satAdd 32 (s.o (Obj.HUB_ABSENT k)) 1 ∧
      (s.closeOldest k c).keepsObjects s (Obj.HUB_ABSENT k :: releaseKeys) := by
  obtain ⟨hmerged, hkeeps⟩ := (s.closeAt ls.length (k + 1) c).releaseReady_merged
  have hput : (s.closeAt ls.length (k + 1) c).hub.recs = ls ++ r.put (k + 1) (.closed c) :: rs := by
    rw [State.hub_closeAt, hrecs]
    exact modify_at_length _ _ _ _
  rw [hput] at hmerged
  rw [State.closeOldest_eq c hrecs hls hr]
  refine ⟨hmerged.of_records (s.closeAt_keepsButRecords _ _ _), ?_, ?_⟩
  · exact (hkeeps.keeps _ (notMem_releaseKeys k (by decide))).trans (State.o_setO_self _ _ _)
  · exact State.keepsObjects_trans (State.keepsObjects_mono hkeeps.keeps (List.subset_cons_self _ _))
      (State.keepsObjects_mono (s.closeAt_keepsObjects _ _ _) (by simp))

/-! ### A sub-event that fails (R222; log entry 59) -/

/-- The state in which the failure of a sub-event has been counted or raised. -/
def State.leafFailed (s : State) (k : Port) (bad : Bool) : State :=
  if bad then s.raiseFault 3 (Fin.ofNat 128 k) else s.bump (Obj.HUB_MALFORMED k)

theorem State.leafSubevent_fails {qid : Nat} {bad : Bool} (hm : s.mergeMode = true) (hup : s.o (Obj.HUB_PSTATE k) = 3)
    (hkind : bad = true ∨ s.o (Obj.HUB_PKIND k) ≠ 2) (h : bad = true ∨ headerOk b = false ∨ lengthOk b.length = false) :
    s.leafSubevent k qid b bad = ((s.leafFailed k bad).closeOldest k (if bad then 4 else 3)).portOff k := by
  cases bad with
  | true => simp [State.leafSubevent, State.leafFailed, hm, hup]
  | false =>
    have hk : s.o (Obj.HUB_PKIND k) ≠ 2 := by simpa using hkind
    have hok : (headerOk b && lengthOk b.length) = false := by rcases h with h | h | h <;> simp_all
    simp [State.leafSubevent, State.leafFailed, hm, hup, hk, hok]

theorem State.leafFailed_same (s : State) (k : Port) (bad : Bool) : (s.leafFailed k bad).SameHub s := by
  unfold State.leafFailed
  split <;> exact ⟨rfl, rfl, rfl, rfl, rfl⟩

theorem State.o_leafFailed_malformed (s : State) (k : Port) (bad : Bool) : (s.leafFailed k bad).o (Obj.HUB_MALFORMED k) =
    if bad then s.o (Obj.HUB_MALFORMED k) else satAdd 32 (s.o (Obj.HUB_MALFORMED k)) 1 := by
  unfold State.leafFailed
  cases bad with
  | true => rfl
  | false => exact State.o_bump_self _ _

theorem State.o_leafFailed_absent (s : State) (k : Port) (bad : Bool) :
    (s.leafFailed k bad).o (Obj.HUB_ABSENT k) = s.o (Obj.HUB_ABSENT k) := by
  unfold State.leafFailed
  cases bad with
  | true => rfl
  | false => exact State.o_bump_ne _ (by simp [Obj.HUB_ABSENT, Obj.HUB_MALFORMED, objKey])

/-- A sub-event that fails closes the oldest query outstanding on its port. -/
theorem State.leafFailed_closes (bad : Bool) (hrecs : s.hub.recs = ls ++ r :: rs) (hls : ∀ y ∈ ls, y.waits (k + 1) = false)
    (hr : r.waits (k + 1) = true) {c : Nat} :
    (((s.leafFailed k bad).closeOldest k c).portOff k).Merged s (ls ++ r.put (k + 1) (.closed c) :: rs) ∧
      (((s.leafFailed k bad).closeOldest k c).portOff k).o (Obj.HUB_ABSENT k) = satAdd 32 (s.o (Obj.HUB_ABSENT k)) 1 ∧
      (((s.leafFailed k bad).closeOldest k c).portOff k).o (Obj.HUB_MALFORMED k) = (s.leafFailed k bad).o (Obj.HUB_MALFORMED k) := by
  have hsame := s.leafFailed_same k bad
  have hoff := ((s.leafFailed k bad).closeOldest k c).portOff_keepsMerger k
  obtain ⟨hmerged, habsent, hkeeps⟩ := State.closeOldest_closes (s := s.leafFailed k bad) c (hsame.hub ▸ hrecs) hls hr
  refine ⟨(hmerged.between ⟨rfl, rfl, rfl, rfl, rfl⟩ hsame).after hoff, ?_, ?_⟩
  · refine (hoff.counts (Obj.HUB_ABSENT k) (mergerCount_port k (by decide) (by decide))).trans (habsent.trans ?_)
    rw [s.o_leafFailed_absent]
  · have hne : Obj.HUB_MALFORMED k ≠ Obj.HUB_ABSENT k := by simp [Obj.HUB_ABSENT, Obj.HUB_MALFORMED, objKey]
    refine (hoff.counts (Obj.HUB_MALFORMED k) (mergerCount_port k (by decide) (by decide))).trans ?_
    exact hkeeps _ (List.not_mem_cons_of_ne_of_not_mem hne (notMem_releaseKeys k (by decide)))

/-- With nothing outstanding on its port, a sub-event that fails is counted or raised and no more. -/
theorem State.leafFailed_unawaited (bad : Bool) (h : ∀ y ∈ s.hub.recs, y.waits (k + 1) = false) {c : Nat} :
    (((s.leafFailed k bad).closeOldest k c).portOff k).KeepsMerger (s.leafFailed k bad) := by
  have hsame := s.leafFailed_same k bad
  rw [State.closeOldest_none (hsame.hub ▸ h)]
  exact State.portOff_keepsMerger _ _

/-! ### Pairing by QID (R221) -/

/-- The state in which the queries at these places have been closed on port k as skipped. -/
def State.skipped (s : State) (k : Port) (js : List Nat) : State :=
  js.foldl (fun s j => (s.closeAt j (k + 1) 2).bump (Obj.HUB_SKIPPED k)) s

/-- An answer of n bytes takes its position in the record at place i. -/
def State.takesPlace (s : State) (k : Port) (i n : Nat) (x : Pos) : State :=
  let s := s.portFill k ((s.port k).fill + n)
  s.setRecs (s.hub.recs.modify i fun r => r.put (k + 1) x)

theorem State.takesPlace_keepsButRecords (s : State) (k : Port) (i n : Nat) (x : Pos) : (s.takesPlace k i n x).keepsButRecords s := rfl

/-- The records whose answers come too late once a newer one has come. -/
def closeSkipped (k : Port) (y : MRec) : MRec := if y.waits (k + 1) then y.put (k + 1) (.closed 2) else y

/-- The places of the older records that wait. -/
def State.olderPlaces (s : State) (k : Port) (i : Nat) : List Nat := (s.waiting (k + 1)).filter fun j => decide (j < i)

theorem State.olderPlaces_eq (hrecs : s.hub.recs = ls ++ rs) : s.olderPlaces k ls.length =
    (List.range ls.length).filter fun i => s.hub.recs[i]?.any fun r => r.waits (k + 1) := by
  rw [State.olderPlaces, State.waiting_eq, List.filter_filter, hrecs, List.length_append, List.range_add, List.filter_append]
  have hnone : ((List.range rs.length).map (ls.length + ·)).filter
      (fun i => decide (i < ls.length) && ((ls ++ rs)[i]?.any fun r => r.waits (k + 1))) = [] := by
    rw [List.filter_eq_nil_iff]
    simp
  rw [hnone, List.append_nil]
  refine List.filter_congr fun i hi => ?_
  simp [List.mem_range.mp hi]

theorem State.pairLeaf_found {qid n : Nat} (hfind : s.findQid k qid = some ls.length) :
    s.pairLeaf k qid n x = (((s.skipped k (s.olderPlaces k ls.length)).takesPlace k ls.length n x).releaseReady).portOff k := by
  simp only [State.pairLeaf, hfind]
  rfl

theorem State.pairLeaf_lost {qid n : Nat} (hfind : s.findQid k qid = none) : s.pairLeaf k qid n x =
    s.bump (if ((s.port k).newest + 2 ^ 16 - qid) % 2 ^ 16 < 0x8000 then Obj.HUB_LATE k else Obj.HUB_QIDERR k) := by
  simp only [State.pairLeaf, hfind]
  split <;> rfl

/-- What the skipped closures change. -/
structure State.Skipped (t s : State) (k : Port) (js : List Nat) : Prop where
  hub : t.hub = { s.hub with recs := js.foldl (fun l j => l.modify j fun r => r.put (k + 1) (.closed 2)) s.hub.recs }
  frame : t.keepsButRecords s
  keeps : t.keepsObjects s [Obj.HUB_ABSENT k, Obj.HUB_SKIPPED k]

theorem State.skipped_skips (s : State) (k : Port) (js : List Nat) : (s.skipped k js).Skipped s k js := by
  induction js generalizing s with
  | nil => exact ⟨rfl, rfl, State.keepsObjects_refl s _⟩
  | cons j js ih =>
    obtain ⟨hhub, hframe, hkeeps⟩ := ih ((s.closeAt j (k + 1) 2).bump (Obj.HUB_SKIPPED k))
    have hclose : ((s.closeAt j (k + 1) 2).bump (Obj.HUB_SKIPPED k)).hub =
        { s.hub with recs := s.hub.recs.modify j fun r => r.put (k + 1) (.closed 2) } :=
      (State.hub_bump _ _).trans (s.hub_closeAt j (k + 1) 2)
    refine ⟨?_, State.keepsButRecords_trans hframe (State.keepsButRecords_bump (s.closeAt_keepsButRecords j (k + 1) 2) _), State.keepsObjects_trans hkeeps ?_⟩
    · rw [hclose] at hhub
      exact hhub
    · exact State.keepsObjects_bump (State.keepsObjects_mono (s.closeAt_keepsObjects j (k + 1) 2) (by simp)) (by simp)

theorem State.o_skipped_one (s : State) (k : Port) (j : Nat) :
    (s.skipped k [j]).o (Obj.HUB_SKIPPED k) = satAdd 32 (s.o (Obj.HUB_SKIPPED k)) 1 := by
  have hne : Obj.HUB_SKIPPED k ≠ Obj.HUB_ABSENT k := by simp [Obj.HUB_ABSENT, Obj.HUB_SKIPPED, objKey]
  exact (State.o_bump_self _ _).trans (congrArg (satAdd 32 · 1) (State.o_setO_ne _ _ hne))

/-- Closing the older queries that wait leaves every record in its place. -/
theorem State.skipped_recs (hrecs : s.hub.recs = ls ++ rs) :
    (s.skipped k (s.olderPlaces k ls.length)).hub.recs = ls.map (closeSkipped k) ++ rs := by
  have hrecs' := (congrArg Hub.recs (s.skipped_skips k (s.olderPlaces k ls.length)).hub :)
  rw [hrecs', State.olderPlaces_eq hrecs, foldl_modify_places, hrecs, List.take_left, List.drop_left]
  rfl

/-- An answer that is paired takes its place, and the queries before it close as skipped. -/
structure State.Paired (t s : State) (k : Port) (n : Nat) (l : List MRec) (js : List Nat) : Prop where
  merged : t.Merged s l
  peak : t.o (Obj.HUB_BUFPEAK k) = max (s.o (Obj.HUB_BUFPEAK k)) (s.portLevel k + n)
  skips : t.o (Obj.HUB_SKIPPED k) = (s.skipped k js).o (Obj.HUB_SKIPPED k)

theorem State.Skipped.mergeMode {js : List Nat} (h : t.Skipped s k js) : t.mergeMode = s.mergeMode := by
  have hkey {j : Nat} (hj : j < objKey 0x3410 0) : j ∉ [Obj.HUB_ABSENT k, Obj.HUB_SKIPPED k] := by
    simp only [objKey] at hj
    simp only [List.mem_cons, List.not_mem_nil, or_false, Obj.HUB_ABSENT, Obj.HUB_SKIPPED, objKey]
    omega
  exact State.mergeMode_congr (h.keeps _ (hkey (by decide))) (h.keeps _ (hkey (by decide)))

/-- With the answer's bytes in its buffer, a port has its highest level. -/
theorem State.Skipped.peak {js : List Nat} (h : t.Skipped s k js) (hm : s.mergeMode = true) (n : Nat) :
    (t.portFill k ((t.port k).fill + n)).PeakHolds k (max (s.o (Obj.HUB_BUFPEAK k)) (s.portLevel k + n)) := by
  have hport : t.port k = s.port k := by rw [State.port, h.hub]; rfl
  have hkey : Obj.HUB_BUFPEAK k ∉ [Obj.HUB_ABSENT k, Obj.HUB_SKIPPED k] := by
    simp [Obj.HUB_ABSENT, Obj.HUB_SKIPPED, Obj.HUB_BUFPEAK, objKey]
  have hfill := State.PeakHolds.portFill (h.mergeMode.trans hm) k ((t.port k).fill + n)
  rw [hport] at hfill ⊢
  rwa [h.keeps _ hkey, Nat.add_right_comm, ← State.portLevel_merging hm] at hfill

theorem State.pairLeaf_pairs {qid n : Nat} (hm : s.mergeMode = true) (hrecs : s.hub.recs = ls ++ r :: rs)
    (hls : ∀ y ∈ ls, y.waits (k + 1) = false ∨ y.qid ≠ qid) (hr : r.waits (k + 1) = true) (hqid : r.qid = qid) :
    (s.pairLeaf k qid n x).Paired s k n (ls.map (closeSkipped k) ++ r.put (k + 1) x :: rs) (s.olderPlaces k ls.length) := by
  let js := s.olderPlaces k ls.length
  have hskip := s.skipped_skips k js
  have hskipped : (s.skipped k js).hub.recs = ls.map (closeSkipped k) ++ r :: rs := State.skipped_recs hrecs
  have hplace : ((s.skipped k js).takesPlace k ls.length n x).hub.recs = ls.map (closeSkipped k) ++ r.put (k + 1) x :: rs := by
    have hput := modify_at_length (ls.map (closeSkipped k)) rs r fun r => r.put (k + 1) x
    rw [List.length_map, ← hskipped] at hput
    exact hput
  have hframe : ((s.skipped k js).takesPlace k ls.length n x).keepsButRecords s :=
    State.keepsButRecords_trans ((s.skipped k js).takesPlace_keepsButRecords k ls.length n x) hskip.frame
  have hpeak : ((s.skipped k js).takesPlace k ls.length n x).PeakHolds k (max (s.o (Obj.HUB_BUFPEAK k)) (s.portLevel k + n)) :=
    (hskip.peak hm n).congr rfl rfl rfl
  obtain ⟨hmerged, hkeeps⟩ := ((s.skipped k js).takesPlace k ls.length n x).releaseReady_merged
  have hoff := ((s.skipped k js).takesPlace k ls.length n x).releaseReady.portOff_keepsMerger k
  have hne : Obj.HUB_SKIPPED k ∉ [Obj.HUB_BUFPEAK k] := by simp [Obj.HUB_SKIPPED, Obj.HUB_BUFPEAK, objKey]
  rw [State.pairLeaf_found (State.findQid_oldest hrecs hls hr hqid)]
  rw [hplace] at hmerged
  refine ⟨(hmerged.of_records hframe).after hoff, ?_, ?_⟩
  · exact (hoff.counts (Obj.HUB_BUFPEAK k) (mergerCount_port k (by decide) (by decide))).trans (hpeak.releaseRecs _).peak
  · refine (hoff.counts (Obj.HUB_SKIPPED k) (mergerCount_port k (by decide) (by decide))).trans ?_
    exact (hkeeps.keeps _ (notMem_releaseKeys k (by decide))).trans ((s.skipped k js).portFill_keepsObjects k _ _ hne)

/-- Where no older query waits, none is skipped. -/
theorem State.olderPlaces_none (hrecs : s.hub.recs = ls ++ rs) (h : ∀ y ∈ ls, y.waits (k + 1) = false) :
    s.olderPlaces k ls.length = [] := by
  rw [State.olderPlaces_eq hrecs, List.filter_eq_nil_iff]
  intro i hi
  have hlt := List.mem_range.mp hi
  simp [hrecs, List.getElem?_append_left hlt, hlt, h _ (List.getElem_mem hlt)]

theorem State.olderPlaces_one {y : MRec} (hrecs : s.hub.recs = [y] ++ rs) (h : y.waits (k + 1) = true) :
    s.olderPlaces k [y].length = [0] := by
  rw [State.olderPlaces_eq hrecs]
  simp [hrecs, h]

/-- An answer, with the QID that it is paired by. -/
def State.leafAnswer (s : State) (k : Port) (qid : Nat) (b : List Byte) : Option (Nat × Pos) :=
  if s.o (Obj.HUB_PKIND k) = 2 then some (qid, .slf32 b)
  else if headerOk b = true ∧ lengthOk b.length = true then some (headerQid b, .paired { bytes := b, len := b.length }) else none

theorem State.leafSubevent_pairs {qid : Nat} {y : Nat × Pos} (hm : s.mergeMode = true) (hup : s.o (Obj.HUB_PSTATE k) = 3)
    (hy : y ∈ s.leafAnswer k qid b) : s.leafSubevent k qid b false = s.pairLeaf k y.1 b.length y.2 := by
  unfold State.leafAnswer at hy
  split at hy
  case isTrue hkind =>
    obtain rfl := Option.some.inj hy
    simp [State.leafSubevent, hm, hup, hkind]
  case isFalse hkind =>
    split at hy
    case isTrue hok =>
      obtain rfl := Option.some.inj hy
      simp [State.leafSubevent, hm, hup, hkind, hok]
    case isFalse => cases hy

theorem State.leafSubevent_ignored {qid : Nat} {bad : Bool} (h : s.mergeMode = false ∨ s.o (Obj.HUB_PSTATE k) ≠ 3) :
    s.leafSubevent k qid b bad = s := by
  rcases h with h | h <;> simp [State.leafSubevent, h]

/-! ### The head query times out (R223, R224) -/

/-- The head record's position p closes as TIMEOUT; an own answer that is still to come will be dropped. -/
def State.positionTimedOut (s : State) (p : Nat) : State :=
  let s := s.closeAt 0 p 0
  if p = 0 then { s.bump Obj.HUB_OWNLATE with hub := { s.hub with ownSkip := s.hub.ownSkip + 1 } }
  else s.bump (Obj.HUB_TIMEOUTS (p - 1))

/-- The positions at which a query is outstanding. -/
def MRec.awaitedAt (r : MRec) : List Nat := (List.range 9).filter fun p => r.waits p

theorem State.mergerTimeout_eq (hpwr : s.o Obj.PWR_STATE ≠ 4) (hrecs : s.hub.recs = r :: rs) :
    s.mergerTimeout = (List.range 8).foldl State.portOff (r.awaitedAt.foldl State.positionTimedOut s).releaseReady := by
  simp only [State.mergerTimeout, hrecs, if_neg hpwr]
  rfl

theorem State.mergerTimeout_nothing (h : s.hub.recs = [] ∨ s.o Obj.PWR_STATE = 4) : s.mergerTimeout = s := by
  unfold State.mergerTimeout
  rcases h with h | h
  · rw [h]
  · cases s.hub.recs with
    | nil => rfl
    | cons r rs => exact if_pos h

/-- What the closures of the positions ps change. -/
structure State.TimedOut (t s : State) (r : MRec) (rs : List MRec) (ps : List Nat) : Prop where
  recs : t.hub.recs = { r with pos := ps.foldl (fun l p => l.set p (.closed 0)) r.pos } :: rs
  frame : t.keepsButRecords s
  skip : t.hub.ownSkip = s.hub.ownSkip + ps.count 0
  events : t.o Obj.HUB_CEVENTS = s.o Obj.HUB_CEVENTS
  counts : ∀ p : Port, t.o (Obj.HUB_TIMEOUTS p) =
    if p.val + 1 ∈ ps then satAdd 32 (s.o (Obj.HUB_TIMEOUTS p)) 1 else s.o (Obj.HUB_TIMEOUTS p)

/-- The closure of a position with TIMEOUT counts neither timeouts nor cluster events by itself. -/
theorem State.o_closeAt_timeout (s : State) (p : Nat) {key : Nat} (hkey : key = Obj.HUB_CEVENTS ∨ ∃ q, key = Obj.HUB_TIMEOUTS q) :
    (s.closeAt 0 p 0).o key = s.o key := by
  refine s.closeAt_keepsObjects 0 p 0 key ?_
  rcases hkey with rfl | ⟨q, rfl⟩ <;>
    simp only [List.mem_singleton, Obj.HUB_CEVENTS, Obj.HUB_TIMEOUTS, Obj.HUB_ABSENT, objKey] <;> omega

theorem hubTimeouts_injective : Function.Injective Obj.HUB_TIMEOUTS := by
  intro a b h
  simp only [Obj.HUB_TIMEOUTS, objKey] at h
  omega

theorem hubTimeouts_ne (q : Nat) : Obj.HUB_TIMEOUTS q ≠ Obj.HUB_OWNLATE ∧ Obj.HUB_CEVENTS ≠ Obj.HUB_TIMEOUTS q := by
  simp only [Obj.HUB_TIMEOUTS, Obj.HUB_OWNLATE, Obj.HUB_CEVENTS, objKey]
  omega

theorem State.positionTimedOut_one (hrecs : s.hub.recs = r :: rs) (p : Nat) : (s.positionTimedOut p).TimedOut s r rs [p] := by
  have hclose : (s.closeAt 0 p 0).hub = { s.hub with recs := { r with pos := r.pos.set p (.closed 0) } :: rs } := by
    rw [State.hub_closeAt, hrecs]
    rfl
  have hframe := s.closeAt_keepsButRecords 0 p 0
  have hevents := s.o_closeAt_timeout p (.inl rfl)
  cases p with
  | zero =>
    have heq : s.positionTimedOut 0 = { (s.closeAt 0 0 0).bump Obj.HUB_OWNLATE with
      hub := { (s.closeAt 0 0 0).hub with ownSkip := (s.closeAt 0 0 0).hub.ownSkip + 1 } } := rfl
    rw [heq, hclose]
    refine ⟨rfl, hframe, rfl, (State.o_bump_ne _ (by decide)).trans hevents, fun q => ?_⟩
    rw [if_neg (by simp)]
    exact (State.o_bump_ne _ (hubTimeouts_ne q).1).trans (s.o_closeAt_timeout 0 (.inr ⟨q, rfl⟩))
  | succ p =>
    have heq : s.positionTimedOut (p + 1) = (s.closeAt 0 (p + 1) 0).bump (Obj.HUB_TIMEOUTS p) := rfl
    have hhub := (State.hub_bump (s.closeAt 0 (p + 1) 0) (Obj.HUB_TIMEOUTS p)).trans hclose
    rw [heq]
    refine ⟨(congrArg Hub.recs hhub :), State.keepsButRecords_bump hframe _, (congrArg Hub.ownSkip hhub :),
      (State.o_bump_ne _ (hubTimeouts_ne p).2).trans hevents, fun q => ?_⟩
    have hcount := s.o_closeAt_timeout (p + 1) (.inr ⟨q, rfl⟩)
    by_cases hq : q.val = p
    · rw [if_pos (by simp [hq]), ← hcount, hq]
      exact State.o_bump_self _ _
    · rw [if_neg (by simpa using hq), ← hcount]
      exact State.o_bump_ne _ fun e => hq (hubTimeouts_injective e)

theorem State.positionsTimedOut {ps : List Nat} (hps : ps.Nodup) (hrecs : s.hub.recs = r :: rs) :
    (ps.foldl State.positionTimedOut s).TimedOut s r rs ps := by
  induction ps generalizing s r with
  | nil => exact ⟨hrecs, rfl, rfl, rfl, fun _ => by simp⟩
  | cons p ps ih =>
    obtain ⟨hp, hps⟩ := List.nodup_cons.mp hps
    obtain ⟨hrecs1, hframe1, hskip1, hevents1, hcounts1⟩ := State.positionTimedOut_one hrecs p
    obtain ⟨hrecs2, hframe2, hskip2, hevents2, hcounts2⟩ := ih hps hrecs1
    rw [List.foldl_cons]
    refine ⟨hrecs2, State.keepsButRecords_trans hframe2 hframe1, ?_, hevents2.trans hevents1, fun q => ?_⟩
    · rw [hskip2, hskip1, Nat.add_assoc, ← List.count_append]
      rfl
    · rw [hcounts2, hcounts1]
      by_cases hq : q.val + 1 = p
      · simp [hq, hp]
      · simp [hq]

theorem MRec.waits_eq (r : MRec) (p : Nat) : r.waits p = r.pos[p]?.any fun x => x == .awaited := by
  rw [MRec.waits, MRec.at_, List.getD_eq_getElem?_getD]
  cases r.pos[p]? <;> rfl

/-- Every awaited position closes, and no other changes. -/
theorem MRec.foldl_close (r : MRec) : r.awaitedAt.foldl (fun l p => l.set p (.closed 0)) r.pos =
    (r.pos.take 9).map (fun x => if x = .awaited then .closed 0 else x) ++ r.pos.drop 9 := by
  have hset : (fun (l : List Pos) p => l.set p (.closed 0)) = fun l p => l.modify p fun _ => .closed 0 := by
    funext l p
    exact List.set_eq_modify _ _ _
  have hplaces : r.awaitedAt = (List.range 9).filter fun p => r.pos[p]?.any fun x => x == .awaited := by
    simp only [MRec.awaitedAt, MRec.waits_eq]
  rw [hset, hplaces, foldl_modify_places]
  simp only [beq_iff_eq]

/-- The record with every awaited position closed as TIMEOUT. -/
def MRec.timedOut (r : MRec) : MRec :=
  { r with pos := (r.pos.take 9).map (fun x => if x = .awaited then .closed 0 else x) ++ r.pos.drop 9 }

/-- A record of nine positions that has timed out is complete. -/
theorem MRec.done_timedOut (h : r.pos.length = 9) : r.timedOut.done = true := by
  have hdrop : r.pos.drop 9 = [] := List.drop_eq_nil_of_le h.le
  simp only [MRec.timedOut, MRec.done, hdrop, List.append_nil, List.all_map, List.all_eq_true, Function.comp]
  intro x _
  split <;> simp_all

theorem MRec.count_awaitedAt (r : MRec) : r.awaitedAt.count 0 = b2n (r.waits 0) := by
  cases h : r.waits 0 with
  | true => exact (List.count_filter h).trans (by decide)
  | false => exact List.count_eq_zero.mpr fun hmem => Bool.false_ne_true (h.symm.trans (List.mem_filter.mp hmem).2)

theorem MRec.mem_awaitedAt (r : MRec) (p : Port) : p.val + 1 ∈ r.awaitedAt ↔ r.waits (p + 1) = true := by
  have hp := p.isLt
  simp only [MRec.awaitedAt, List.mem_filter, List.mem_range, and_iff_right_iff_imp]
  omega

/-- The head record has timed out. -/
structure State.HeadTimedOut (t s : State) (r : MRec) (rs : List MRec) : Prop where
  merged : t.Merged s (r.timedOut :: rs)
  single : r.pos.length = 9 → (∀ x ∈ rs.head?, x.done = false) →
    t.hub.recs = rs ∧ t.o Obj.HUB_CEVENTS = (s.o Obj.HUB_CEVENTS + 1) % 2 ^ 48
  counts : ∀ p : Port, t.o (Obj.HUB_TIMEOUTS p) =
    if r.waits (p + 1) then satAdd 32 (s.o (Obj.HUB_TIMEOUTS p)) 1 else s.o (Obj.HUB_TIMEOUTS p)
  skip : t.hub.ownSkip = s.hub.ownSkip + b2n (r.waits 0)

theorem State.mergerTimeout_timesOut (hpwr : s.o Obj.PWR_STATE ≠ 4) (hrecs : s.hub.recs = r :: rs) :
    s.mergerTimeout.HeadTimedOut s r rs := by
  have hout := State.positionsTimedOut (ps := r.awaitedAt) (List.nodup_range.filter _) hrecs
  have hrecs' := hout.recs
  rw [MRec.foldl_close] at hrecs'
  rw [State.mergerTimeout_eq hpwr hrecs]
  generalize r.awaitedAt.foldl State.positionTimedOut s = v at hout hrecs' ⊢
  have hready := v.releaseReady_merged.1
  rw [hrecs'] at hready
  have hkeeps := v.releaseReady_merged.2
  have hoff := State.KeepsMerger.foldl State.portOff_keepsMerger (List.range 8) v.releaseReady
  have hmerged := (hready.of_records hout.frame).after hoff
  refine ⟨hmerged, fun hlen hnext => ⟨?_, ?_⟩, fun p => ?_, ?_⟩
  · rw [hmerged.recs]
    exact (List.dropWhile_cons_of_pos (MRec.done_timedOut hlen)).trans (dropWhile_done_of_head hnext).1
  · rw [hoff.counts _ (by decide), State.releaseReady_counts hrecs' (MRec.done_timedOut hlen) hnext, hout.events]
  · refine (hoff.counts (Obj.HUB_TIMEOUTS p) (mergerCount_port p (by decide) (by decide))).trans ?_
    refine (hkeeps.keeps _ (notMem_releaseKeys p (by decide))).trans ((hout.counts p).trans ?_)
    simp only [MRec.mem_awaitedAt]
  · rw [hoff.skip, hkeeps.skip, hout.skip, MRec.count_awaitedAt]

end Sys2Proof.Machine
end

section
/-! SUPPORT. The statement on the handoff of answers and on the merger. -/
namespace Sys2Proof.Machine

variable {s t : State} {r : MRec} {ls rs : List MRec} {k : Port} {b : List Byte} {qid : BitVec 16} {bad : Bool}

/-- An answer that is paired, in the words of the statement. -/
theorem leafSubeventArrive_pairs {y : Nat × Pos} (ha : s.awake = true) (hm : s.mergeMode = true)
    (hup : s.o (Obj.HUB_PSTATE k) = 3) (hy : y ∈ s.leafAnswer k qid.toNat b) (hrecs : s.hub.recs = ls ++ r :: rs)
    (hls : ∀ z ∈ ls, z.waits (k + 1) = false ∨ z.qid ≠ y.1) (hr : r.waits (k + 1) = true) (hqid : r.qid = y.1) :
    Runs (.leafSubeventArrive k qid b false) s
      (fun t => t.Paired s k b.length (ls.map (closeSkipped k) ++ r.put (k + 1) y.2 :: rs) (s.olderPlaces k ls.length)) :=
  ⟨_, exec_of_awake ha rfl (State.leafSubevent_pairs hm hup hy), State.pairLeaf_pairs hm hrecs hls hr hqid⟩

theorem State.Paired.skipped_none {n : Nat} {l : List MRec} (h : t.Paired s k n l (s.olderPlaces k ls.length))
    (hrecs : s.hub.recs = ls ++ rs) (hls : ∀ y ∈ ls, y.waits (k + 1) = false) : t.o (Obj.HUB_SKIPPED k) = s.o (Obj.HUB_SKIPPED k) := by
  rw [h.skips, State.olderPlaces_none hrecs hls]
  rfl

theorem State.Paired.skipped_one {n : Nat} {l : List MRec} {y : MRec} (h : t.Paired s k n l (s.olderPlaces k ls.length))
    (hrecs : s.hub.recs = ls ++ rs) (hy : y ∈ ls.head?) (hwaits : y.waits (k + 1) = true) (hlen : ls.length = 1) :
    t.o (Obj.HUB_SKIPPED k) = satAdd 32 (s.o (Obj.HUB_SKIPPED k)) 1 := by
  obtain ⟨z, rfl⟩ := List.length_eq_one_iff.mp hlen
  obtain rfl : z = y := Option.some.inj hy
  rw [h.skips, State.olderPlaces_one hrecs hwaits]
  exact s.o_skipped_one k 0

/-- Settles O19: a handoff is an answer that leaves the queue, a count and an answer that enters the builders or the merger;
the merger's clauses are places in the list of its records that close or are filled, before the complete ones at its head
leave; and a port that goes OFF afterwards touches neither. -/
theorem answersLeaveInOrderAndTheMergerPairsThem : Obligations.AnswersLeaveInOrderAndTheMergerPairsThem := by
  unfold Obligations.AnswersLeaveInOrderAndTheMergerPairsThem
  intro svc qid k e rest f l d a b bad r ls rs s ha
  refine ⟨fun h => exec_of_awake ha rfl (State.answerHandoff_nothing h),
    fun hitems hthin hst => exec_of_awake ha rfl (State.answerHandoff_unfinished hitems hthin hst), ?entry, ?run,
    fun h => exec_of_awake ha rfl (State.leafSubevent_ignored h),
    fun hm hup => ⟨fun y hy => ⟨?paired, fun h => ?unawaited⟩, fun hkind h => ⟨?closed, ?counted⟩⟩,
    fun h => exec_of_awake ha rfl (State.mergerTimeout_nothing h), ?timeout⟩
  case entry =>
    intro hbld hpwr hheld hitems he
    obtain ⟨hrest, hall, hkind, hin⟩ := s.handEntry_handsOver e rest svc.toNat
    refine ⟨_, exec_of_awake ha rfl (State.answerHandoff_entry (State.buildersAccept_of hbld hpwr hheld) hitems he), hrest, hall,
      hkind, hin.memories, hin.leaf, fun hm hskip hrecs hls hr => ?_, hin.unawaited, hin.skipped⟩
    obtain ⟨hout, hparts, -⟩ := hin.paired ls r rs hm hskip hrecs hls hr
    exact ⟨hout, hparts⟩
  case run =>
    intro hbld hpwr hheld hitems
    obtain ⟨hrest, -, hkind, hin⟩ := s.handRun_handsOver f l d a rest
    exact ⟨_, exec_of_awake ha rfl (State.answerHandoff_run (State.buildersAccept_of hbld hpwr hheld) hitems), hrest, hkind,
      hin.memories, hin.leaf, hin.skipped, fun hm hskip hrecs hls hr => (hin.paired ls r rs hm hskip hrecs hls hr).recs⟩
  case paired =>
    intro hrecs hls hr hqid
    obtain ⟨t, hrun, hpaired⟩ := leafSubeventArrive_pairs ha hm hup hy hrecs hls hr hqid
    obtain ⟨hout, hparts, hmem⟩ := hpaired.merged
    exact ⟨t, hrun, hmem, hpaired.peak, hout, hparts, hpaired.skipped_none hrecs, fun _ hz => hpaired.skipped_one hrecs hz⟩
  case unawaited =>
    exact exec_of_awake ha rfl ((State.leafSubevent_pairs hm hup hy).trans (State.pairLeaf_lost (State.findQid_none h)))
  case closed =>
    intro hrecs hls hr
    obtain ⟨⟨hout, hparts, hmem⟩, habsent, hmal⟩ := State.leafFailed_closes bad hrecs hls hr (c := if bad then 4 else 3)
    refine ⟨_, exec_of_awake ha rfl (State.leafSubevent_fails hm hup hkind h), hmem, hout, hparts, habsent, fun hbad => ?_⟩
    rw [hmal, State.o_leafFailed_malformed, hbad]
    rfl
  case counted =>
    intro hnone
    have hsame := s.leafFailed_same k bad
    have hkeeps := State.leafFailed_unawaited (c := if bad then 4 else 3) bad hnone
    refine ⟨_, exec_of_awake ha rfl (State.leafSubevent_fails hm hup hkind h),
      State.keepsMemories_trans hkeeps.memories hsame.memories, hkeeps.recs.trans (congrArg Hub.recs hsame.hub),
      hkeeps.bld.trans hsame.bld, ?_, ?_⟩
    · exact (hkeeps.counts (Obj.HUB_ABSENT k) (mergerCount_port k (by decide) (by decide))).trans (s.o_leafFailed_absent k bad)
    · exact (hkeeps.counts (Obj.HUB_MALFORMED k) (mergerCount_port k (by decide) (by decide))).trans (s.o_leafFailed_malformed k bad)
  case timeout =>
    intro hpwr hrecs
    obtain ⟨⟨hout, hparts, hmem⟩, hsingle, hcounts, hskip⟩ := State.mergerTimeout_timesOut hpwr hrecs
    exact ⟨_, exec_of_awake ha rfl rfl, hmem, hout, hsingle, hcounts, hskip, hparts⟩

end Sys2Proof.Machine
end

section
/-! SUPPORT. A south port that is enabled while its receiving lane is aligned (R213, R214, R289). -/
namespace Sys2Proof.Machine

/-- A hub in Run whose port 2 is OFF while its receiving lane, lane 11, stands in L0 and LOCKED; bit 2 of HUB_PORT_EN waits for
the tick. -/
def alignedPortOff : State :=
  let s := ((((State.reset.setO Obj.PWR_STATE 3).setO Obj.CLK_STATE 3).setO Obj.CF_ROLE 2).setO (Obj.LN_PSTATE 11) 0).setO
    (Obj.LN_ASTATE 11) 4
  { s with clk := { s.clk with marker := some s.tick }, livePend := [(Obj.HUB_PORT_EN, 4)] }

/-- Its stored data has the canonical form, it runs, and the port is OFF. -/
theorem alignedPortOff_runs : alignedPortOff.wf = true ∧ alignedPortOff.awake = true ∧ alignedPortOff.inRun = true ∧
    alignedPortOff.o Obj.CF_ROLE = 2 ∧ alignedPortOff.o Obj.CLK_STATE = 3 ∧ alignedPortOff.o (Obj.HUB_PSTATE 2) = 0 ∧
    ∀ k : Fin 8, alignedPortOff.alarmDue k = false := by
  decide +kernel

/-- At the tick the port passes CLOCK and is in LINK, as its lane is aligned already. -/
theorem alignedPortOff_links : (alignedPortOff.crossingTick [] false).o (Obj.HUB_PSTATE 2) = 2 := by
  decide +kernel

/-- Refutes O59: its last clause has an enabled port that was OFF in CLOCK after the tick, but a port whose S_RX lane is aligned
goes on to LINK at the same tick, as R214 asks. -/
theorem not_enabledPortsAreTheHubs : ¬ Obligations.EnabledPortsAreTheHubs := by
  unfold Obligations.EnabledPortsAreTheHubs
  intro h
  obtain ⟨-, hawake, hrun, hrole, hclk, hoff, halarm⟩ := alignedPortOff_runs
  obtain ⟨-, -, htick⟩ := h { path := .north, src := 0, tid := 0 } 4 2 [] false alignedPortOff
  obtain ⟨t, ht, -, hclock, -⟩ := htick hawake hrun hrole rfl rfl rfl rfl rfl rfl rfl rfl hclk rfl rfl rfl rfl halarm rfl
    (fun _ hmem => absurd hmem List.not_mem_nil) rfl
  have hexec : alignedPortOff.crossingTick [] false = t := (State.ifAwake_of hawake).symm.trans (Host.Outcome.next.inj ht)
  have hinclock : t.o (Obj.HUB_PSTATE 2) = 1 := hclock (by decide) hoff
  have hlinks := alignedPortOff_links
  rw [hexec, hinclock] at hlinks
  exact absurd hlinks (by decide)

end Sys2Proof.Machine
end

section
/-! SUPPORT. The pair of builders: what the flags, a unit that leaves and a switch-over change (R241, R242, R244, R245). -/
namespace Sys2Proof.Machine

variable {s t u v : State} {ks ks' : List Nat} {n i st k : Nat}

/-! ### The objects that the pair's rules speak of -/

/-- An object of the builders, or the crossing count. -/
def pairKey (k : Nat) : Bool := k / 256 == 0x3430 || k == Obj.XC_COUNT

/-- Of these objects, at most those of a list differ from s. -/
def State.keepsPair (t s : State) (ks : List Nat) : Prop := ∀ k, pairKey k = true → k ∉ ks → t.o k = s.o k

theorem State.keepsPair.trans (h : u.keepsPair t ks) (h' : t.keepsPair s ks) : u.keepsPair s ks :=
  fun k hk hks => (h k hk hks).trans (h' k hk hks)

theorem State.keepsPair.mono (h : t.keepsPair s ks) (hsub : ks ⊆ ks') : t.keepsPair s ks' :=
  fun k hk hks => h k hk fun hmem => hks (hsub hmem)

theorem State.keepsPair_of_objects (h : t.keepsObjects s ks) (hks : ∀ k ∈ ks, pairKey k = true → k ∈ ks') : t.keepsPair s ks' :=
  fun k hk hnot => h k fun hmem => hnot (hks k hmem hk)

theorem State.keepsPair.setO (h : t.keepsPair s ks) (hk : pairKey k = true → k ∈ ks) (x : Nat) : (t.setO k x).keepsPair s ks :=
  fun j hj hnot => have hne : j ≠ k := fun e => hnot (e ▸ hk (e ▸ hj))
  (State.o_setO_ne t x hne).trans (h j hj hnot)

theorem unitKey_mem (n : Nat) : unitKey n ∈ [Obj.BLD_UNIT0, Obj.BLD_UNIT1] := by
  unfold unitKey
  split <;> simp

theorem chkfailKey_mem (n : Nat) : chkfailKey n ∈ [Obj.BLD_CHKFAIL0, Obj.BLD_CHKFAIL1] := by
  unfold chkfailKey
  split <;> simp

theorem unitKey_of_notMem (hk : k ∉ [Obj.BLD_UNIT0, Obj.BLD_UNIT1]) (n : Nat) : k ≠ unitKey n :=
  fun e => hk (e ▸ unitKey_mem n)

theorem pairKey_unitKey (n : Nat) : pairKey (unitKey n) = true :=
  (by decide : ∀ k ∈ [Obj.BLD_UNIT0, Obj.BLD_UNIT1], pairKey k = true) _ (unitKey_mem n)

theorem unitKey_notMem (hks : ∀ k ∈ [Obj.BLD_UNIT0, Obj.BLD_UNIT1], k ∉ ks) (n : Nat) : unitKey n ∉ ks := hks _ (unitKey_mem n)

theorem unitKey_other (h : n ≤ 1) : unitKey n ≠ unitKey (1 - n) := by
  obtain rfl | rfl := Nat.le_one_iff_eq_zero_or_eq_one.mp h <;> decide

/-- A unit's state is one of the pair's objects. -/
theorem State.keepsPair.unit (h : t.keepsPair s ks) (hks : ∀ k ∈ [Obj.BLD_UNIT0, Obj.BLD_UNIT1], k ∉ ks) (i : Nat) :
    t.unit i = s.unit i :=
  h _ (pairKey_unitKey i) (unitKey_notMem hks i)

/-! ### The flags (R522, R550, R551) -/

/-- Flags have been brought up to date and events staged: the pair is as it was, and no latched condition is forgotten. -/
structure State.Flagged (t s : State) : Prop where
  frame : { t with obj := s.obj, log := s.log } = s
  pair : t.keepsPair s []
  latched : ∀ n, s.ob Obj.FLT_LATCHED n = true → t.ob Obj.FLT_LATCHED n = true

theorem State.Flagged.refl (s : State) : s.Flagged s := ⟨rfl, fun _ _ _ => rfl, fun _ h => h⟩

theorem State.Flagged.trans (h : u.Flagged t) (h' : t.Flagged s) : u.Flagged s :=
  ⟨(congrArg (fun v : State => { v with obj := s.obj, log := s.log }) h.frame).trans h'.frame, h.pair.trans h'.pair,
    fun n hn => h.latched n (h'.latched n hn)⟩

theorem State.Flagged.ite {c : Prop} [Decidable c] (ht : t.Flagged s) (hu : u.Flagged s) : (if c then t else u).Flagged s := by
  split
  · exact ht
  · exact hu

theorem State.Flagged.setO (h : t.Flagged s) (hk : pairKey k = false) (hl : k ≠ Obj.FLT_LATCHED) (x : Nat) : (t.setO k x).Flagged s :=
  ⟨h.frame, h.pair.setO (fun e => absurd (hk.symm.trans e) (by decide)) x,
    fun n hn => (State.ob_of_o (State.o_setO_ne t x hl.symm)).trans (h.latched n hn)⟩

theorem State.Flagged.latch (h : t.Flagged s) (n : Nat) : (t.setOb Obj.FLT_LATCHED n true).Flagged s where
  frame := h.frame
  pair := h.pair.setO (by decide) _
  latched m hm := by
    by_cases hmn : m = n
    · rw [hmn, State.ob_setOb_self]
    · rw [State.ob_setOb_ne _ _ hmn, h.latched m hm]

/-- A condition that arises is counted. -/
theorem State.Flagged.counted (h : t.Flagged s) (n : Nat) : (t.bump (Obj.FLT_COND_CNT n)).Flagged s := by
  have hne : Obj.FLT_COND_CNT n ≠ Obj.FLT_LATCHED ∧ pairKey (Obj.FLT_COND_CNT n) = false := by
    simp only [pairKey, Obj.FLT_COND_CNT, Obj.FLT_LATCHED, Obj.XC_COUNT, objKey, Bool.or_eq_false_iff, beq_eq_false_iff_ne]
    omega
  exact h.setO hne.2 hne.1 _

theorem State.refreshFaultN_flagged (s : State) : s.refreshFaultN.Flagged s :=
  .ite (.refl s) ((State.Flagged.refl s).setO (by decide) (by decide) _)

theorem State.stage_flagged (s : State) (code cls unit : Nat) (d : List Byte) : (s.stage code cls unit d).Flagged s :=
  .ite ((State.Flagged.refl s).setO (by decide) (by decide) _) ⟨rfl, fun _ _ _ => rfl, fun _ h => h⟩

theorem State.ariseOnce_flagged (s : State) (n : Nat) : (s.ariseOnce n).Flagged s :=
  (State.refreshFaultN_flagged _).trans (((State.Flagged.refl s).latch n).counted n)

theorem State.ariseIf_flagged (s : State) (n : Nat) : (s.ariseIf n).Flagged s :=
  .ite (.refl s) ((State.refreshFaultN_flagged _).trans
    ((((State.Flagged.refl s).setO (k := Obj.FLT_ACTIVE) (by decide) (by decide) _).latch n).counted n))

theorem State.endIf_flagged (s : State) (n : Nat) (gone : Bool) : (s.endIf n gone).Flagged s :=
  .ite ((State.Flagged.refl s).setO (by decide) (by decide) _) (.refl s)

theorem State.dieCond_flagged (s : State) : s.dieCond.Flagged s :=
  .ite (.refl s) ((State.Flagged.refl s).setO (by decide) (by decide) _)

theorem State.portCond_flagged (s : State) : s.portCond.Flagged s :=
  .ite ((State.ariseIf_flagged _ 12).trans (s.stage_flagged _ _ _ _)) (.refl s)

theorem State.settle_flagged (s : State) : s.settle.Flagged s := by
  have hrun : (if s.inRun then s.setO Obj.PWR_STATE (if s.degrNow = 0 then 3 else 5) else s).Flagged s :=
    .ite ((State.Flagged.refl s).setO (by decide) (by decide) _) (.refl s)
  unfold State.settle
  exact (State.refreshFaultN_flagged _).trans <| (State.dieCond_flagged _).trans <| (State.portCond_flagged _).trans <|
    (State.endIf_flagged _ _ _).trans <| (State.endIf_flagged _ _ _).trans <| (State.endIf_flagged _ _ _).trans <|
    (State.endIf_flagged _ _ _).trans <| (State.endIf_flagged _ _ _).trans hrun

/-! ### A unit leaves the pair (R244, R245) -/

theorem State.pairState_eq (s : State) : ∃ x, s.pairState = s.setO Obj.BLD_STATE x := by
  unfold State.pairState
  split
  · exact ⟨0, rfl⟩
  · split
    · exact ⟨1, rfl⟩
    · split
      · exact ⟨3, rfl⟩
      · exact ⟨2, rfl⟩

/-- A unit has taken a state, and the pair's state and the flags have followed. -/
structure State.UnitTakes (t s : State) (n st : Nat) : Prop where
  unit : t.unit n = st
  pair : t.keepsPair s [unitKey n, Obj.BLD_STATE]
  latched : ∀ m, s.ob Obj.FLT_LATCHED m = true → t.ob Obj.FLT_LATCHED m = true

/-- The unit's state and BLD_STATE are written before the flags follow. -/
theorem State.unitTakes_of_flagged (hv : v.obj = ((s.setO (unitKey n) st).pairState).obj) (ht : t.Flagged v) : t.UnitTakes s n st := by
  obtain ⟨x, hx⟩ := State.pairState_eq (s.setO (unitKey n) st)
  have ho (k : Nat) : v.o k = ((s.setO (unitKey n) st).setO Obj.BLD_STATE x).o k := (State.o_congr hv k).trans (by rw [hx])
  have hne : unitKey n ≠ Obj.BLD_STATE := (unitKey_of_notMem (by decide) n).symm
  have hlatched : Obj.FLT_LATCHED ≠ unitKey n := unitKey_of_notMem (by decide) n
  refine ⟨?_, fun k hk hnot => ?_, fun m hm => ht.latched m ?_⟩
  · rw [State.unit, ht.pair _ (pairKey_unitKey n) List.not_mem_nil, ho, State.o_setO_ne _ _ hne, State.o_setO_self]
  · rw [List.mem_cons, List.mem_singleton, not_or] at hnot
    rw [ht.pair k hk List.not_mem_nil, ho, State.o_setO_ne _ _ hnot.2, State.o_setO_ne _ _ hnot.1]
  · rw [← hm]
    exact State.ob_of_o ((ho _).trans ((State.o_setO_ne _ _ (by decide)).trans (State.o_setO_ne _ _ hlatched)))

/-- A unit that enters RETIRED is noted as a fault for the ladder (R536). -/
def State.retirementNoted (s : State) (n st : Nat) : State := if st = 5 then s.raiseFault 4 (Fin.ofNat 128 n) else s

theorem State.retirementNoted_frame (s : State) (n st : Nat) :
    (s.retirementNoted n st).obj = s.obj ∧ { s.retirementNoted n st with watch := s.watch } = s := by
  unfold State.retirementNoted
  split
  · exact ⟨rfl, rfl⟩
  · exact ⟨rfl, rfl⟩

theorem State.pairState_keepsButObjects (s : State) : s.pairState.keepsButObjects s := by
  obtain ⟨x, hx⟩ := s.pairState_eq
  rw [hx]
  exact State.keepsButObjects_setO s.keepsButObjects_refl _ x

theorem State.unitOut_flagged (s : State) (n st : Nat) :
    (s.unitOut n st).Flagged (((s.setO (unitKey n) st).pairState).retirementNoted n st) :=
  (State.settle_flagged _).trans ((State.ariseIf_flagged _ 8).trans (State.stage_flagged _ _ _ _ _))

theorem State.unitOut_takes (s : State) (n st : Nat) : (s.unitOut n st).UnitTakes s n st :=
  State.unitTakes_of_flagged (State.retirementNoted_frame _ n st).1 (s.unitOut_flagged n st)

theorem State.unitOut_frame (s : State) (n st : Nat) : { s.unitOut n st with obj := s.obj, log := s.log, watch := s.watch } = s := by
  have hpair := ((s.setO (unitKey n) st).pairState_keepsButObjects)
  have hnoted := (((s.setO (unitKey n) st).pairState).retirementNoted_frame n st).2
  have hflag := (s.unitOut_flagged n st).frame
  generalize s.unitOut n st = t at hflag ⊢
  generalize ((s.setO (unitKey n) st).pairState).retirementNoted n st = w at hnoted hflag
  generalize (s.setO (unitKey n) st).pairState = v at hpair hnoted
  calc { t with obj := s.obj, log := s.log, watch := s.watch }
      = { w with obj := s.obj, log := s.log, watch := s.watch } :=
        congrArg (fun y : State => { y with obj := s.obj, log := s.log, watch := s.watch }) hflag
    _ = { v with obj := s.obj, log := s.log, watch := s.watch } :=
        congrArg (fun y : State => { y with obj := s.obj, log := s.log, watch := s.watch }) hnoted
    _ = s := congrArg (fun y : State => { y with obj := s.obj, log := s.log, watch := s.watch }) hpair

/-- The state with one take-out more of a unit. -/
def State.takeoutCounted (s : State) (n : Nat) : State :=
  { s with bld := { s.bld with takeouts := s.bld.takeouts.set n (s.bld.takeouts.getD n 0 + 1) } }

/-- The state that a take-out leads to: RETIRED at BLD_RETIRE_LIMIT, else OUT (R244). -/
def State.outState (s : State) (n : Nat) : Nat := if s.o Obj.BLD_RETIRE_LIMIT ≤ s.bld.takeouts.getD n 0 + 1 then 5 else 3

/-- Only flags, events, the noted faults and the builders' own records differ from s; the parts and a waiting SWITCH do not. -/
structure State.KeepsParts (t s : State) : Prop where
  frame : { t with obj := s.obj, log := s.log, watch := s.watch, bld := s.bld } = s
  parts : t.bld.parts = s.bld.parts
  switch : t.bld.switch = s.bld.switch

theorem State.KeepsParts.trans (h : u.KeepsParts t) (h' : t.KeepsParts s) : u.KeepsParts s :=
  ⟨(congrArg (fun v : State => { v with obj := s.obj, log := s.log, watch := s.watch, bld := s.bld }) h.frame).trans h'.frame,
    h.parts.trans h'.parts, h.switch.trans h'.switch⟩

theorem State.keepsParts_of_objects (h : t.keepsButObjects s) : t.KeepsParts s :=
  ⟨(congrArg (fun v : State => { v with log := s.log, watch := s.watch, bld := s.bld }) h :),
    (congrArg (fun v : State => v.bld.parts) h :), (congrArg (fun v : State => v.bld.switch) h :)⟩

theorem State.Flagged.keepsParts (h : t.Flagged s) : t.KeepsParts s :=
  ⟨(congrArg (fun v : State => { v with watch := s.watch, bld := s.bld }) h.frame :),
    (congrArg (fun v : State => v.bld.parts) h.frame :), (congrArg (fun v : State => v.bld.switch) h.frame :)⟩

theorem State.KeepsParts.north (h : t.KeepsParts s) : t.north = s.north := (congrArg State.north h.frame :)

theorem State.KeepsParts.memories (h : t.KeepsParts s) : t.keepsMemories s :=
  ⟨(congrArg State.spm h.frame :), (congrArg State.rankMem h.frame :), (congrArg State.nvm h.frame :)⟩

theorem State.takeOut_takes (s : State) (n : Nat) : (s.takeOut n).UnitTakes s n (s.outState n) :=
  have h := (s.takeoutCounted n).unitOut_takes n (s.outState n)
  ⟨h.unit, h.pair, h.latched⟩

theorem State.keepsParts_of_takeoutCounted (h : { t with obj := s.obj, log := s.log, watch := s.watch } = s.takeoutCounted n) :
    t.KeepsParts s :=
  ⟨(congrArg (fun v : State => { v with bld := s.bld }) h :), (congrArg (fun v : State => v.bld.parts) h :),
    (congrArg (fun v : State => v.bld.switch) h :)⟩

theorem State.takeOut_keepsParts (s : State) (n : Nat) : (s.takeOut n).KeepsParts s :=
  State.keepsParts_of_takeoutCounted ((s.takeoutCounted n).unitOut_frame n (s.outState n))

/-! ### The other unit becomes the active one (R242) -/

/-- The objects that a switch-over changes. -/
def switchKeys : List Nat :=
  [Obj.BLD_UNIT0, Obj.BLD_UNIT1, Obj.BLD_STATE, Obj.BLD_ACTIVE, Obj.BLD_SWITCHES, Obj.BLD_LASTX]

/-- The other unit has become the active one, and the unit that served is out. -/
structure State.SwitchedOver (t s : State) : Prop where
  active : t.o Obj.BLD_ACTIVE = 1 - s.o Obj.BLD_ACTIVE
  serves : t.unit (1 - s.o Obj.BLD_ACTIVE) = 1
  out : t.unit (s.o Obj.BLD_ACTIVE) = s.outState (s.o Obj.BLD_ACTIVE)
  switches : t.o Obj.BLD_SWITCHES = satAdd 32 (s.o Obj.BLD_SWITCHES) 1
  lastx : t.o Obj.BLD_LASTX = s.xc

theorem State.switchOver_o (s : State) (k : Nat) : s.switchOver.o k =
    if k = Obj.BLD_LASTX then s.xc else if k = Obj.BLD_SWITCHES then satAdd 32 (s.o Obj.BLD_SWITCHES) 1
    else if k = Obj.BLD_ACTIVE then s.otherUnit else if k = unitKey s.otherUnit then 1 else s.o k := by
  have hxc : Obj.XC_COUNT ≠ unitKey s.otherUnit := unitKey_of_notMem (by decide) _
  have hsw : Obj.BLD_SWITCHES ≠ unitKey s.otherUnit := unitKey_of_notMem (by decide) _
  have hx : ((s.setO (unitKey s.otherUnit) 1).setO Obj.BLD_ACTIVE s.otherUnit).xc = s.xc :=
    (State.o_setO_ne _ _ (by decide)).trans (State.o_setO_ne _ _ hxc)
  have hcount : ((s.setO (unitKey s.otherUnit) 1).setO Obj.BLD_ACTIVE s.otherUnit).o Obj.BLD_SWITCHES = s.o Obj.BLD_SWITCHES :=
    (State.o_setO_ne _ _ (by decide)).trans (State.o_setO_ne _ _ hsw)
  unfold State.switchOver
  dsimp only
  rw [State.o_setO, State.o_bump, hx, hcount, State.o_setO, State.o_setO]

/-- After the take-out, what is neither the unit's state nor BLD_STATE is as the switch-over left it. -/
theorem State.takeOutActive_o (hk : pairKey k = true) (hu : k ≠ unitKey (s.o Obj.BLD_ACTIVE)) (hst : k ≠ Obj.BLD_STATE) :
    s.takeOutActive.o k = s.switchOver.o k :=
  (s.switchOver.takeOut_takes s.activeUnit).pair k hk (by simp [hst, State.activeUnit, hu])

theorem State.outState_switchOver (s : State) (n : Nat) : s.switchOver.outState n = s.outState n := by
  have hlimit : s.switchOver.o Obj.BLD_RETIRE_LIMIT = s.o Obj.BLD_RETIRE_LIMIT := by
    rw [State.switchOver_o, if_neg (by decide), if_neg (by decide), if_neg (by decide), if_neg (unitKey_of_notMem (by decide) _)]
  unfold State.outState
  rw [hlimit]
  rfl

theorem State.takeOutActive_switchedOver (h : s.o Obj.BLD_ACTIVE ≤ 1) : s.takeOutActive.SwitchedOver s where
  active := by
    rw [State.takeOutActive_o (by decide) (unitKey_of_notMem (by decide) _) (by decide), State.switchOver_o]
    rfl
  serves := by
    have hne {k : Nat} (hk : k ∉ [Obj.BLD_UNIT0, Obj.BLD_UNIT1]) : unitKey (1 - s.o Obj.BLD_ACTIVE) ≠ k := (unitKey_of_notMem hk _).symm
    rw [State.unit, State.takeOutActive_o (pairKey_unitKey _) (unitKey_other h).symm (hne (by decide)), State.switchOver_o,
      if_neg (hne (by decide)), if_neg (hne (by decide)), if_neg (hne (by decide))]
    exact if_pos rfl
  out := (s.switchOver.takeOut_takes s.activeUnit).unit.trans (s.outState_switchOver _)
  switches := by
    rw [State.takeOutActive_o (by decide) (unitKey_of_notMem (by decide) _) (by decide), State.switchOver_o]
    rfl
  lastx := by
    rw [State.takeOutActive_o (by decide) (unitKey_of_notMem (by decide) _) (by decide), State.switchOver_o]
    rfl

theorem State.takeOutActive_pair (s : State) : s.takeOutActive.keepsPair s switchKeys := by
  intro k hk hnot
  simp only [switchKeys, List.mem_cons, List.not_mem_nil, or_false, not_or] at hnot
  obtain ⟨h0, h1, hst, hactive, hsw, hx⟩ := hnot
  have hunit (m : Nat) : k ≠ unitKey m := unitKey_of_notMem (by simp [h0, h1]) m
  rw [State.takeOutActive_o hk (hunit _) hst, State.switchOver_o, if_neg hx, if_neg hsw, if_neg hactive, if_neg (hunit _)]

theorem State.takeOutActive_keepsParts (s : State) : s.takeOutActive.KeepsParts s :=
  (State.takeOut_keepsParts _ _).trans (State.keepsParts_of_objects (by unfold State.keepsButObjects; rfl))

end Sys2Proof.Machine
end

section
/-! SUPPORT. A part's checks, the pair's decision, and the part's release (R239, R240, R241, R244). -/
namespace Sys2Proof.Machine

variable {s t v w : State} {p : Part} {ps : List Part} {u : List Upset} {n : Nat} {m fa fs both : Bool} {b : List Byte}

/-! ### The checks of a part (R240) -/

theorem State.noteWords_frame (agent : Nat) (u : List Upset) (l : List Nat) (s : State) :
    (l.foldl (fun s w => s.noteWord agent w u) s).keepsButNoted s ∧ (l.foldl (fun s w => s.noteWord agent w u) s).keepsPair s [] := by
  induction l generalizing s with
  | nil => exact ⟨rfl, fun _ _ _ => rfl⟩
  | cons x l ih =>
    obtain ⟨hframe, hpair⟩ := ih (s.noteWord agent x u)
    exact ⟨State.keepsButNoted_trans hframe (s.noteWord_keepsButNoted agent x u),
      hpair.trans (State.keepsPair_of_objects (s.noteWord_keepsObjects agent x u) (by decide))⟩

theorem State.readSpm_frame (s : State) (agent a n : Nat) (u : List Upset) :
    (s.readSpm agent a n u).1.keepsButNoted s ∧ (s.readSpm agent a n u).1.keepsPair s [] :=
  State.noteWords_frame agent u _ s

theorem State.builderRead_frame (u : List Upset) (bs : List Nat) (n : Nat) (s : State) :
    (s.builderRead u bs n).1.keepsButNoted s ∧ (s.builderRead u bs n).1.keepsPair s [] := by
  induction bs generalizing s n with
  | nil => exact ⟨rfl, fun _ _ _ => rfl⟩
  | cons x bs ih =>
    rw [State.builderRead]
    obtain ⟨hframe, hpair⟩ := s.readSpm_frame 3 (blockAddr x) (min n 4096) u
    generalize s.readSpm 3 (blockAddr x) (min n 4096) u = r at hframe hpair ⊢
    obtain ⟨hframe', hpair'⟩ := ih (n - 4096) r.1
    exact ⟨State.keepsButNoted_trans hframe' hframe, hpair'.trans hpair⟩

theorem State.partBytes_frame (s : State) (u : List Upset) (a : Answer) :
    (s.partBytes u a).1.keepsButNoted s ∧ (s.partBytes u a).1.keepsPair s [] := by
  unfold State.partBytes
  split
  · exact ⟨rfl, fun _ _ _ => rfl⟩
  · exact State.builderRead_frame u a.blocks a.len s

/-- Check units have run: their values, the words that wait for their write-back, events and the open values drawn differ. -/
def State.keepsButChecks (t s : State) : Prop := { t with obj := s.obj, memUnit := s.memUnit, log := s.log, free := s.free } = s

theorem State.keepsButChecks_trans (h : w.keepsButChecks t) (h' : t.keepsButChecks s) : w.keepsButChecks s := by
  have hw := congrArg (fun v : State => { v with obj := s.obj, memUnit := s.memUnit, log := s.log, free := s.free }) h
  exact hw.trans h'

theorem State.keepsButChecks_of_noted (h : t.keepsButNoted s) : t.keepsButChecks s := by
  unfold State.keepsButNoted at h
  unfold State.keepsButChecks
  rw [← h]

theorem pairKey_chkRun (h : n ≤ 8) : pairKey (Obj.CHK_RUN n) = false := by
  simp only [pairKey, Obj.CHK_RUN, Obj.XC_COUNT, objKey, Bool.or_eq_false_iff, beq_eq_false_iff_ne]
  omega

theorem State.keepsPair.chkRun {ks : List Nat} (h : t.keepsPair s ks) (hn : n ≤ 8) (x : Nat) :
    (t.setO (Obj.CHK_RUN n) x).keepsPair s ks :=
  h.setO (fun e => absurd ((pairKey_chkRun hn).symm.trans e) (by decide)) x

theorem State.unitChecks_frame (s : State) (hn : n ≤ 1) (failed : Bool) (b : List Byte) :
    (s.unitChecks n failed b).keepsButChecks s ∧ (s.unitChecks n failed b).keepsPair s [] := by
  have hin : (s.check (5 + 2 * n) b).keepsPair s [] := State.keepsPair.chkRun (fun _ _ _ => rfl) (by omega) _
  unfold State.unitChecks
  cases failed with
  | true => exact ⟨rfl, hin.chkRun (by omega) _⟩
  | false => exact ⟨rfl, hin.chkRun (by omega) _⟩

/-- The oldest part has left what the builders hold. -/
def State.partTaken (s : State) (ps : List Part) : State := { s with bld := { s.bld with parts := ps } }

/-- The oldest part has left, and the check units of the units at work have run over it. -/
def State.partChecked (s : State) (p : Part) (ps : List Part) (fa fs : Bool) (u : List Upset) : State :=
  let x := (s.partTaken ps).partBytes u p.a
  let v := x.1.unitChecks s.activeUnit fa x.2
  if s.lockstep then v.unitChecks (1 - s.activeUnit) fs x.2 else v

/-- The part has left and its checks have run: no more has changed. -/
structure State.Checked (v s : State) (ps : List Part) : Prop where
  frame : v.keepsButChecks (s.partTaken ps)
  pair : v.keepsPair s []

theorem State.partChecked_checked (h : s.o Obj.BLD_ACTIVE ≤ 1) : (s.partChecked p ps fa fs u).Checked s ps := by
  obtain ⟨hframe, hpair⟩ := (s.partTaken ps).partBytes_frame u p.a
  unfold State.partChecked
  dsimp only
  generalize (s.partTaken ps).partBytes u p.a = x at hframe hpair ⊢
  obtain ⟨hframe1, hpair1⟩ := x.1.unitChecks_frame (n := s.activeUnit) h fa x.2
  have hone := State.keepsButChecks_trans hframe1 (State.keepsButChecks_of_noted hframe)
  have hone' : (x.1.unitChecks s.activeUnit fa x.2).keepsPair s [] := hpair1.trans hpair
  split
  · obtain ⟨hframe2, hpair2⟩ := (x.1.unitChecks s.activeUnit fa x.2).unitChecks_frame (n := 1 - s.activeUnit) (by omega) fs x.2
    exact ⟨State.keepsButChecks_trans hframe2 hone, hpair2.trans hone'⟩
  · exact ⟨hone, hone'⟩

theorem State.Checked.bld (h : v.Checked s ps) : v.bld = { s.bld with parts := ps } := (congrArg State.bld h.frame :)

theorem State.Checked.tick (h : v.Checked s ps) : v.tick = s.tick := (congrArg State.tick h.frame :)

theorem State.Checked.north (h : v.Checked s ps) : v.north = s.north := (congrArg State.north h.frame :)

theorem State.Checked.memories (h : v.Checked s ps) : v.keepsMemories s :=
  ⟨(congrArg State.spm h.frame :), (congrArg State.rankMem h.frame :), (congrArg State.nvm h.frame :)⟩

theorem State.Checked.outState (h : v.Checked s ps) (n : Nat) : v.outState n = s.outState n := by
  rw [State.outState, State.outState, h.pair _ (by decide) List.not_mem_nil, h.bld]

theorem State.Checked.recentMismatches (h : v.Checked s ps) : v.recentMismatches = s.recentMismatches := by
  rw [State.recentMismatches, State.recentMismatches, h.bld, h.tick]

/-! ### The mark (R241) -/

theorem State.markSuspect_pair (s : State) : s.markSuspect.keepsPair s [Obj.BLD_SUSPECT] := by
  unfold State.markSuspect
  split
  · exact fun _ _ _ => rfl
  · exact State.keepsPair.setO (fun _ _ _ => rfl) (by simp) _

theorem State.markSuspect_keepsParts (s : State) : s.markSuspect.KeepsParts s := by
  unfold State.markSuspect
  split
  · exact ⟨rfl, rfl, rfl⟩
  · exact ⟨rfl, rfl, rfl⟩

/-- The first mark of an event counts it. -/
theorem State.markSuspect_counts (h : s.bld.suspect = false) : s.markSuspect.o Obj.BLD_SUSPECT = satAdd 32 (s.o Obj.BLD_SUSPECT) 1 := by
  rw [State.markSuspect, h]
  exact State.o_bump_self s _

theorem State.markSuspect_takeouts (s : State) : s.markSuspect.bld.takeouts = s.bld.takeouts := by
  unfold State.markSuspect
  split <;> rfl

/-! ### The decision (R241, R244) -/

/-- The failed checks of both units have been counted. -/
def State.checksCounted (s : State) (fa fs : Bool) : State := (s.countCheck s.activeUnit fa).countCheck s.otherUnit fs

/-- The objects that count failed checks. -/
def chkfailKeys : List Nat := [Obj.BLD_CHKFAIL0, Obj.BLD_CHKFAIL1]

theorem State.countCheck_pair (s : State) (n : Nat) (f : Bool) : (s.countCheck n f).keepsPair s chkfailKeys := by
  cases f with
  | false => exact fun _ _ _ => rfl
  | true => exact State.keepsPair.setO (fun _ _ _ => rfl) (fun _ => chkfailKey_mem n) _

theorem State.countCheck_keepsButObjects (s : State) (n : Nat) (f : Bool) : (s.countCheck n f).keepsButObjects s := by
  cases f <;> exact s.keepsButObjects_refl

theorem State.checksCounted_pair (s : State) (fa fs : Bool) : (s.checksCounted fa fs).keepsPair s chkfailKeys :=
  (State.countCheck_pair _ _ _).trans (State.countCheck_pair _ _ _)

theorem State.checksCounted_keepsButObjects (s : State) (fa fs : Bool) : (s.checksCounted fa fs).keepsButObjects s :=
  State.keepsButObjects_trans (State.countCheck_keepsButObjects _ _ _) (State.countCheck_keepsButObjects _ _ _)

theorem State.outState_checksCounted (s : State) (fa fs : Bool) (n : Nat) : (s.checksCounted fa fs).outState n = s.outState n := by
  have hbld : (s.checksCounted fa fs).bld = s.bld := (congrArg State.bld (s.checksCounted_keepsButObjects fa fs) :)
  rw [State.outState, State.outState, s.checksCounted_pair fa fs _ (by decide) (by decide), hbld]

theorem State.active_checksCounted (s : State) (fa fs : Bool) : (s.checksCounted fa fs).o Obj.BLD_ACTIVE = s.o Obj.BLD_ACTIVE :=
  s.checksCounted_pair fa fs _ (by decide) (by decide)

/-- The tick joins those of the mismatches within 1,024 ticks before it. -/
def State.withMismatch (s : State) : State :=
  { s with bld := { s.bld with mismatches := (s.bld.mismatches.filter fun x => decide (s.tick ≤ x + 1024)) ++ [s.tick] } }

/-- A mismatch with no check failed has been counted, marked and noted. -/
def State.mismatchNoted (s : State) : State := (s.bump Obj.BLD_MISMATCH).markSuspect.withMismatch

theorem State.bareMismatch_eq (s : State) :
    s.bareMismatch = if s.recentMismatches ≥ 2 then s.mismatchNoted.takeOutActive.bump Obj.BLD_FORCED else s.mismatchNoted := by
  have hdef : s.bareMismatch =
      if decide (s.recentMismatches ≥ 2) then s.mismatchNoted.takeOutActive.bump Obj.BLD_FORCED else s.mismatchNoted := rfl
  rw [hdef]
  simp only [decide_eq_true_eq]

theorem State.mismatchNoted_pair (s : State) : s.mismatchNoted.keepsPair s [Obj.BLD_MISMATCH, Obj.BLD_SUSPECT] :=
  have hmark : s.mismatchNoted.keepsPair (s.bump Obj.BLD_MISMATCH) [Obj.BLD_SUSPECT] := (s.bump Obj.BLD_MISMATCH).markSuspect_pair
  (hmark.mono (by simp)).trans (State.keepsPair.setO (fun _ _ _ => rfl) (by simp) _)

theorem State.mismatchNoted_counts (s : State) :
    s.mismatchNoted.o Obj.BLD_MISMATCH = satAdd 32 (s.o Obj.BLD_MISMATCH) 1 ∧
    (s.bld.suspect = false → s.mismatchNoted.o Obj.BLD_SUSPECT = satAdd 32 (s.o Obj.BLD_SUSPECT) 1) := by
  refine ⟨?_, fun h => ?_⟩
  · exact ((s.bump Obj.BLD_MISMATCH).markSuspect_pair _ (by decide) (by decide)).trans (State.o_bump_self s _)
  · exact (State.markSuspect_counts (s := s.bump Obj.BLD_MISMATCH) h).trans (by rw [State.o_bump_ne _ (by decide)])

theorem State.withMismatch_keepsParts (s : State) : s.withMismatch.KeepsParts s := ⟨rfl, rfl, rfl⟩

theorem State.mismatchNoted_keepsParts (s : State) : s.mismatchNoted.KeepsParts s :=
  (State.withMismatch_keepsParts _).trans ((State.markSuspect_keepsParts _).trans
    (State.keepsParts_of_objects (State.keepsButObjects_bump s.keepsButObjects_refl _)))

/-- A third mismatch takes the active unit out; the counts stand all the same. -/
theorem State.bareMismatch_o (s : State) {k : Nat} (hk : k = Obj.BLD_MISMATCH ∨ k = Obj.BLD_SUSPECT) :
    s.bareMismatch.o k = s.mismatchNoted.o k := by
  have hkept := s.mismatchNoted.takeOutActive_pair
  rw [State.bareMismatch_eq]
  split
  · rcases hk with rfl | rfl
    · exact (State.o_bump_ne _ (by decide)).trans (hkept _ (by decide) (by decide))
    · exact (State.o_bump_ne _ (by decide)).trans (hkept _ (by decide) (by decide))
  · rfl

theorem State.bareMismatch_keepsParts (s : State) : s.bareMismatch.KeepsParts s := by
  rw [State.bareMismatch_eq]
  split
  · exact (State.keepsParts_of_objects (State.keepsButObjects_bump (State.keepsButObjects_refl _) _)).trans
      ((State.takeOutActive_keepsParts _).trans s.mismatchNoted_keepsParts)
  · exact s.mismatchNoted_keepsParts

/-- Both units have failed a check: the other one is out, and the event is counted. -/
def State.bothFailed (s : State) : State := (s.markSuspect.takeOut s.otherUnit).bump Obj.BLD_BOTHFAIL

theorem State.pairDecision_both (s : State) (m : Bool) : s.pairDecision m true true =
    ((s.checksCounted true true).bothFailed.stage 0x0407 0 0
      (bytesLE 4 ((s.checksCounted true true).bothFailed.o Obj.BLD_BOTHFAIL))).ariseOnce 9 := rfl

theorem State.pairDecision_keepsParts (s : State) (m fa fs : Bool) : (s.pairDecision m fa fs).KeepsParts s := by
  have hcount := State.keepsParts_of_objects (s.checksCounted_keepsButObjects fa fs)
  match fa, fs with
  | false, false =>
    cases m with
    | false => exact hcount
    | true => exact (State.bareMismatch_keepsParts _).trans hcount
  | true, false => exact (State.takeOutActive_keepsParts _).trans hcount
  | false, true => exact (State.takeOut_keepsParts _ _).trans hcount
  | true, true =>
    have hboth : (s.checksCounted true true).bothFailed.KeepsParts (s.checksCounted true true) :=
      (State.keepsParts_of_objects (State.keepsButObjects_bump (State.keepsButObjects_refl _) _)).trans
        ((State.takeOut_keepsParts _ _).trans (State.markSuspect_keepsParts _))
    rw [State.pairDecision_both]
    exact (State.ariseOnce_flagged _ _).keepsParts.trans ((State.stage_flagged _ _ _ _ _).keepsParts.trans (hboth.trans hcount))

theorem State.aloneDecision_keepsParts (s : State) (fa : Bool) : (s.aloneDecision fa).KeepsParts s := by
  cases fa with
  | false => exact ⟨rfl, rfl, rfl⟩
  | true => exact (State.markSuspect_keepsParts _).trans (State.keepsParts_of_objects (s.countCheck_keepsButObjects _ true))

/-! ### The release (R205, R239) -/

/-- The decision on a part that has been checked. -/
def State.decided (v : State) (both m fa fs : Bool) : State := if both then v.pairDecision m fa fs else v.aloneDecision fa

theorem State.decided_keepsParts (v : State) (both m fa fs : Bool) : (v.decided both m fa fs).KeepsParts v := by
  cases both with
  | true => exact v.pairDecision_keepsParts m fa fs
  | false => exact v.aloneDecision_keepsParts fa

theorem State.handNorth_frame (s : State) (p : Part) (b : List Byte) : { s.handNorth p b with north := s.north, pass := s.pass } = s := by
  unfold State.handNorth
  split <;> rfl

/-- A part has been released: the pair is as it was. -/
structure State.Released (t s : State) : Prop where
  pair : t.keepsPair s []
  latched : ∀ n, s.ob Obj.FLT_LATCHED n = true → t.ob Obj.FLT_LATCHED n = true
  memories : t.keepsMemories s
  parts : t.bld.parts = s.bld.parts

/-- The bytes of a part as it is released: with its mark, where the event carries one. -/
def State.releasedBytes (s : State) (p : Part) (b : List Byte) : List Byte := if s.bld.suspect then markPart p.kind p.a b else b

/-- The part's bytes and blocks have gone north. -/
def State.handedOn (s : State) (p : Part) (b : List Byte) : State :=
  (s.transferAll .builder .replay p.a.blocks).handNorth p (s.releasedBytes p b)

theorem State.handedOn_bld (s : State) (p : Part) (b : List Byte) : (s.handedOn p b).bld = s.bld :=
  (congrArg State.bld (State.handNorth_frame _ p _) :).trans (congrArg State.bld (s.transferAll_kept .builder .replay p.a.blocks).1 :)

/-- The mark ends with the answer, or with the relayed frame. -/
theorem State.releasePart_eq (s : State) (p : Part) (b : List Byte) : ∃ x, s.releasePart p b =
    { s.handedOn p b with bld := { s.bld with suspect := x } } := by
  have hdef : s.releasePart p b = if p.last || p.kind.isRelay then
      { s.handedOn p b with bld := { (s.handedOn p b).bld with suspect := false } } else s.handedOn p b := rfl
  have hbld := s.handedOn_bld p b
  rw [hdef]
  generalize s.handedOn p b = w at hbld ⊢
  rw [← hbld]
  split
  · exact ⟨false, rfl⟩
  · exact ⟨w.bld.suspect, rfl⟩

theorem State.handedOn_keeps (s : State) (p : Part) (b : List Byte) :
    (s.handedOn p b).keepsObjects s [Obj.POOL_FOREIGN] ∧ (s.handedOn p b).keepsMemories s := by
  obtain ⟨hframe, -, hkeeps⟩ := s.transferAll_kept .builder .replay p.a.blocks
  have hnorth := State.handNorth_frame (s.transferAll .builder .replay p.a.blocks) p (s.releasedBytes p b)
  unfold State.handedOn
  generalize s.transferAll .builder .replay p.a.blocks = w at hframe hkeeps hnorth ⊢
  exact ⟨fun k hk => (State.o_congr (congrArg State.obj hnorth :) k).trans (hkeeps k hk),
    State.keepsMemories_trans ⟨(congrArg State.spm hnorth :), (congrArg State.rankMem hnorth :), (congrArg State.nvm hnorth :)⟩
      ⟨(congrArg State.spm hframe :), (congrArg State.rankMem hframe :), (congrArg State.nvm hframe :)⟩⟩

theorem State.releasePart_released (s : State) (p : Part) (b : List Byte) : (s.releasePart p b).Released s := by
  obtain ⟨x, heq⟩ := s.releasePart_eq p b
  obtain ⟨hkeeps, hmem⟩ := s.handedOn_keeps p b
  rw [heq]
  generalize s.handedOn p b = w at hkeeps hmem ⊢
  exact ⟨State.keepsPair_of_objects hkeeps (by decide), fun n hn => (State.ob_of_o (hkeeps _ (by decide))).trans hn, hmem, rfl⟩

theorem State.forcedSwitch_none (h : s.bld.switch = false) (was : Nat) : s.forcedSwitch was = s := by
  simp [State.forcedSwitch, h]

/-- With no SWITCH waiting a released part leaves the pair as the decision left it. -/
theorem State.partReleased (h : s.bld.switch = false) (was : Nat) :
    (((s.releasePart p b).forcedSwitch was).settle).Released s ∧
    (((s.releasePart p b).forcedSwitch was).settle).north = (s.releasePart p b).north := by
  have hswitch : (s.releasePart p b).bld.switch = false := by
    obtain ⟨x, heq⟩ := s.releasePart_eq p b
    rw [heq]
    exact h
  obtain ⟨hpair, hlatched, hmem, hparts⟩ := s.releasePart_released p b
  have hflag := (s.releasePart p b).settle_flagged
  rw [State.forcedSwitch_none hswitch]
  exact ⟨⟨hflag.pair.trans hpair, fun n hn => hflag.latched n (hlatched n hn),
    State.keepsMemories_trans hflag.keepsParts.memories hmem, hflag.keepsParts.parts.trans hparts⟩, hflag.keepsParts.north⟩

/-- A sub-event of its own bytes that carries no mark begins a new answer north. -/
theorem State.releasePart_subEvent (hkind : p.kind = .subEvent) (hfirst : p.first = true) (hblocks : p.a.blocks = [])
    (hsuspect : s.bld.suspect = false) : (s.releasePart p b).north =
      { s.north with answers := s.north.answers ++ [{ bytes := b, len := b.length, blocks := [], blockEnd := 0 }], more := !p.last } := by
  obtain ⟨x, heq⟩ := s.releasePart_eq p b
  have hhanded : s.handedOn p b = s.handNorth p b := by
    rw [State.handedOn, State.releasedBytes, hsuspect, hblocks]
    rfl
  rw [heq, hhanded]
  simp [State.handNorth, hkind, hfirst, hblocks]

end Sys2Proof.Machine
end

section
/-! SUPPORT. What each outcome of a part's checks does to the pair, and the statement (R239, R241 to R245). -/
namespace Sys2Proof.Machine

variable {s t v : State} {p : Part} {ps : List Part} {u : List Upset} {m fa fs ok : Bool} {n k : Nat}

/-! ### The outcomes in lockstep (R241) -/

/-- A mismatch alone counts and marks; it moves no unit before the third within 1,024 ticks. -/
theorem State.pairDecision_mismatch (s : State) :
    (s.pairDecision true false false).o Obj.BLD_MISMATCH = satAdd 32 (s.o Obj.BLD_MISMATCH) 1 ∧
    (s.bld.suspect = false → (s.pairDecision true false false).o Obj.BLD_SUSPECT = satAdd 32 (s.o Obj.BLD_SUSPECT) 1) ∧
    (s.recentMismatches < 2 → (s.pairDecision true false false).keepsPair s [Obj.BLD_MISMATCH, Obj.BLD_SUSPECT]) := by
  have heq : s.pairDecision true false false = s.bareMismatch := rfl
  obtain ⟨hcount, hmark⟩ := s.mismatchNoted_counts
  rw [heq]
  refine ⟨(s.bareMismatch_o (.inl rfl)).trans hcount, fun h => (s.bareMismatch_o (.inr rfl)).trans (hmark h), fun h => ?_⟩
  rw [State.bareMismatch_eq, if_neg (by omega)]
  exact s.mismatchNoted_pair

/-- A failure of the other unit takes that one out. -/
theorem State.pairDecision_other (s : State) (m : Bool) : (s.pairDecision m false true).o Obj.BLD_ACTIVE = s.o Obj.BLD_ACTIVE ∧
    (s.pairDecision m false true).unit (1 - s.o Obj.BLD_ACTIVE) = s.outState (1 - s.o Obj.BLD_ACTIVE) := by
  have hother : (s.checksCounted false true).otherUnit = 1 - s.o Obj.BLD_ACTIVE :=
    congrArg (1 - ·) (s.active_checksCounted false true)
  have heq : s.pairDecision m false true = (s.checksCounted false true).takeOut (1 - s.o Obj.BLD_ACTIVE) := by rw [← hother]; rfl
  obtain ⟨hunit, hpair, -⟩ := (s.checksCounted false true).takeOut_takes (1 - s.o Obj.BLD_ACTIVE)
  rw [heq]
  have hnot : Obj.BLD_ACTIVE ∉ [unitKey (1 - s.o Obj.BLD_ACTIVE), Obj.BLD_STATE] := by
    rw [List.mem_cons, List.mem_singleton, not_or]
    exact ⟨unitKey_of_notMem (by decide) _, by decide⟩
  exact ⟨(hpair _ (by decide) hnot).trans (s.active_checksCounted false true), hunit.trans (s.outState_checksCounted false true _)⟩

/-- A failure of the active unit switches over. -/
theorem State.pairDecision_active (h : s.o Obj.BLD_ACTIVE ≤ 1) (m : Bool) : (s.pairDecision m true false).SwitchedOver s := by
  have hactive := s.active_checksCounted true false
  have hkept {k : Nat} (hk : pairKey k = true) (hnot : k ∉ chkfailKeys) := s.checksCounted_pair true false k hk hnot
  obtain ⟨h1, h2, h3, h4, h5⟩ := State.takeOutActive_switchedOver (hactive.trans_le h)
  rw [hactive] at h1 h2 h3
  exact ⟨h1, h2, h3.trans (s.outState_checksCounted true false _), h4.trans (by rw [hkept (by decide) (by decide)]),
    h5.trans (hkept (by decide) (by decide))⟩

/-- A failure of both units takes the other one out, counts and latches; the active one serves on (log entry 46). -/
theorem State.pairDecision_bothFail (s : State) (m : Bool) :
    (s.pairDecision m true true).o Obj.BLD_BOTHFAIL = satAdd 32 (s.o Obj.BLD_BOTHFAIL) 1 ∧
    (s.pairDecision m true true).ob Obj.FLT_LATCHED 9 = true ∧
    (s.pairDecision m true true).keepsPair s
      ([unitKey (1 - s.o Obj.BLD_ACTIVE), Obj.BLD_STATE, Obj.BLD_SUSPECT, Obj.BLD_BOTHFAIL] ++ chkfailKeys) ∧
    (s.pairDecision m true true).unit (1 - s.o Obj.BLD_ACTIVE) = s.outState (1 - s.o Obj.BLD_ACTIVE) := by
  let w := (s.checksCounted true true).markSuspect
  have hw : w.keepsPair s (Obj.BLD_SUSPECT :: chkfailKeys) :=
    ((s.checksCounted true true).markSuspect_pair.mono (by simp)).trans ((s.checksCounted_pair true true).mono (by simp))
  have hother : (s.checksCounted true true).otherUnit = 1 - s.o Obj.BLD_ACTIVE :=
    congrArg (1 - ·) (s.active_checksCounted true true)
  have hlimit : w.outState (1 - s.o Obj.BLD_ACTIVE) = s.outState (1 - s.o Obj.BLD_ACTIVE) := by
    rw [← s.outState_checksCounted true true]
    unfold State.outState
    rw [State.markSuspect_takeouts, State.markSuspect_pair _ _ (by decide) (by decide)]
  obtain ⟨hunit, hout, -⟩ := w.takeOut_takes (1 - s.o Obj.BLD_ACTIVE)
  have hflag : (s.pairDecision m true true).Flagged (s.checksCounted true true).bothFailed := by
    rw [State.pairDecision_both]
    exact (State.ariseOnce_flagged _ _).trans (State.stage_flagged _ _ _ _ _)
  have hboth : (s.checksCounted true true).bothFailed = (w.takeOut (1 - s.o Obj.BLD_ACTIVE)).bump Obj.BLD_BOTHFAIL := by
    rw [← hother]
    rfl
  rw [hboth] at hflag
  have hcounted : Obj.BLD_BOTHFAIL ∉ [unitKey (1 - s.o Obj.BLD_ACTIVE), Obj.BLD_STATE] := by
    rw [List.mem_cons, List.mem_singleton, not_or]
    exact ⟨unitKey_of_notMem (by decide) _, by decide⟩
  refine ⟨?_, ?_, ?_, ?_⟩
  · rw [hflag.pair _ (by decide) List.not_mem_nil, State.o_bump_self, hout _ (by decide) hcounted, hw _ (by decide) (by decide)]
  · rw [State.pairDecision_both]
    exact State.ariseOnce_latches _ 9
  · refine (hflag.pair.mono (List.nil_subset _)).trans (State.keepsPair.setO ?_ (fun _ => by simp) _)
    exact (hout.mono (by simp)).trans (hw.mono (by simp [chkfailKeys]))
  · exact (hflag.pair _ (pairKey_unitKey _) List.not_mem_nil).trans
      ((State.o_bump_ne _ (unitKey_of_notMem (by decide) _).symm).trans (hunit.trans hlimit))

/-- A unit that serves alone marks the event of a part whose check failed. -/
theorem State.aloneDecision_marks (s : State) (fa : Bool) : (s.aloneDecision fa).keepsPair s (Obj.BLD_SUSPECT :: chkfailKeys) ∧
    (fa = true → (s.aloneDecision fa).o (chkfailKey s.activeUnit) = satAdd 32 (s.o (chkfailKey s.activeUnit)) 1) := by
  cases fa with
  | false => exact ⟨fun _ _ _ => rfl, fun h => absurd h (by decide)⟩
  | true =>
    have hkey : pairKey (chkfailKey s.activeUnit) = true ∧ chkfailKey s.activeUnit ∉ [Obj.BLD_SUSPECT] :=
      (by decide : ∀ k ∈ chkfailKeys, pairKey k = true ∧ k ∉ [Obj.BLD_SUSPECT]) _ (chkfailKey_mem _)
    have hmark := (s.countCheck s.activeUnit true).markSuspect_pair
    exact ⟨(hmark.mono (by simp)).trans ((s.countCheck_pair s.activeUnit true).mono (by simp)),
      fun _ => (hmark _ hkey.1 hkey.2).trans (State.o_bump_self s _)⟩

/-! ### The part leaves (R239) -/

theorem State.partDecision_eq (hparts : s.bld.parts = p :: ps) (hstate : s.o Obj.BLD_STATE ≠ 0) : s.partDecision m fa fs u =
    ((((s.partChecked p ps fa fs u).decided s.lockstep m fa fs).releasePart p
      ((s.partTaken ps).partBytes u p.a).2).forcedSwitch s.activeUnit).settle := by
  unfold State.partDecision
  rw [hparts]
  exact if_neg hstate

theorem State.partDecision_idle (h : s.bld.parts = [] ∨ s.o Obj.BLD_STATE = 0) : s.partDecision m fa fs u = s := by
  unfold State.partDecision
  rcases h with h | h
  · rw [h]
  · split
    · rfl
    · exact if_pos h

/-- With no SWITCH waiting, a part is checked, decided and released. -/
theorem State.partDecision_releases (hparts : s.bld.parts = p :: ps) (hstate : s.o Obj.BLD_STATE ≠ 0)
    (hactive : s.o Obj.BLD_ACTIVE ≤ 1) (hswitch : s.bld.switch = false) :
    ∃ v : State, v.Checked s ps ∧ (s.partDecision m fa fs u).Released (v.decided s.lockstep m fa fs) ∧
      (s.partDecision m fa fs u).north = ((v.decided s.lockstep m fa fs).releasePart p
        ((s.partTaken ps).partBytes u p.a).2).north := by
  have hv : (s.partChecked p ps fa fs u).Checked s ps := State.partChecked_checked hactive
  have hnone : ((s.partChecked p ps fa fs u).decided s.lockstep m fa fs).bld.switch = false := by
    rw [(State.decided_keepsParts _ _ _ _ _).switch, hv.bld]
    exact hswitch
  obtain ⟨hreleased, hnorth⟩ := State.partReleased (p := p)
    (b := ((s.partTaken ps).partBytes u p.a).2) hnone s.activeUnit
  rw [State.partDecision_eq hparts hstate]
  exact ⟨_, hv, hreleased, hnorth⟩

/-- A sub-event whose checks pass goes north as it was handed over. -/
theorem State.partDecision_north (hparts : s.bld.parts = p :: ps) (hstate : s.o Obj.BLD_STATE ≠ 0)
    (hactive : s.o Obj.BLD_ACTIVE ≤ 1) (hswitch : s.bld.switch = false) (hkind : p.kind = .subEvent) (hfirst : p.first = true)
    (hblocks : p.a.blocks = []) (hsuspect : s.bld.suspect = false) (hfs : s.o Obj.BLD_STATE = 1 → fs = false) :
    (s.partDecision false false fs u).north = { s.north with
      answers := s.north.answers ++ [{ bytes := p.a.bytes, len := p.a.bytes.length, blocks := [], blockEnd := 0 }], more := !p.last } := by
  obtain ⟨v, hv, -, hnorth⟩ := State.partDecision_releases (m := false) (fa := false) (fs := fs) (u := u) hparts hstate hactive hswitch
  have hdecided : v.decided s.lockstep false false fs = v := by
    cases hl : s.lockstep with
    | false => rfl
    | true =>
      rw [hfs (by simpa [State.lockstep] using hl)]
      rfl
  have hbytes : ((s.partTaken ps).partBytes u p.a).2 = p.a.bytes := by
    simp [State.partBytes, hblocks]
  have hmark : v.bld.suspect = false := by
    rw [hv.bld]
    exact hsuspect
  rw [hnorth, hdecided, hbytes, State.releasePart_subEvent hkind hfirst hblocks hmark, hv.north]

/-! ### Self-test and copy (R243) -/

theorem State.selftestDone_passed (h : s.unit n = 3) : s.selftestDone n true = ((s.setO (unitKey n) 4).pairState).settle := by
  rw [State.selftestDone, if_pos h, if_pos rfl]

theorem State.selftestDone_failed (h : s.unit n = 3) : s.selftestDone n false = s.unitOut n 5 := by
  rw [State.selftestDone, if_pos h, if_neg Bool.false_ne_true]

theorem State.selftestDone_takes (h : s.unit n = 3) (ok : Bool) : (s.selftestDone n ok).UnitTakes s n (if ok then 4 else 5) ∧
    { s.selftestDone n ok with obj := s.obj, log := s.log, watch := s.watch } = s := by
  cases ok with
  | false =>
    rw [State.selftestDone_failed h]
    exact ⟨s.unitOut_takes n 5, s.unitOut_frame n 5⟩
  | true =>
    rw [State.selftestDone_passed h]
    have hpair := (s.setO (unitKey n) 4).pairState_keepsButObjects
    have hflag := ((s.setO (unitKey n) 4).pairState).settle_flagged
    refine ⟨State.unitTakes_of_flagged rfl hflag, ?_⟩
    have hframe := hflag.frame
    generalize ((s.setO (unitKey n) 4).pairState).settle = t at hframe ⊢
    generalize (s.setO (unitKey n) 4).pairState = v at hframe hpair
    calc { t with obj := s.obj, log := s.log, watch := s.watch }
        = { v with obj := s.obj, log := s.log, watch := s.watch } :=
          congrArg (fun y : State => { y with obj := s.obj, log := s.log, watch := s.watch }) hframe
      _ = s := congrArg (fun y : State => { y with obj := s.obj, log := s.log, watch := s.watch }) hpair

theorem State.copyChecks_pair (s : State) (src : Nat) (hn : n ≤ 1) : (s.copyChecks src n).keepsPair s [] :=
  State.keepsPair.chkRun (State.keepsPair.chkRun (fun _ _ _ => rfl) (by omega) _) (by omega) _

/-- A unit in STANDBY beside the active one is LOCKSTEP. -/
theorem State.pairState_lockstep (hactive : s.o Obj.BLD_ACTIVE ≤ 1) (hserves : s.unit (s.o Obj.BLD_ACTIVE) = 1)
    (hother : s.unit (1 - s.o Obj.BLD_ACTIVE) = 2) : s.pairState.o Obj.BLD_STATE = 1 := by
  have hone : ¬(s.unit 0 ≠ 1 ∧ s.unit 1 ≠ 1) := by
    rintro ⟨h0, h1⟩
    obtain h | h := Nat.le_one_iff_eq_zero_or_eq_one.mp hactive
    · exact h0 (h ▸ hserves)
    · exact h1 (h ▸ hserves)
  have heq : s.pairState = s.setO Obj.BLD_STATE 1 := by
    unfold State.pairState
    rw [if_neg hone]
    exact if_pos hother
  rw [heq, State.o_setO_self]

/-- The other unit stands by with the active one's running values. -/
def State.copied (s : State) : State := (s.copyChecks s.activeUnit s.otherUnit).setO (unitKey s.otherUnit) 2

/-- The pair works in lockstep again, and the rejoin has been counted. -/
def State.rejoined (s : State) : State := s.copied.pairState.bump Obj.BLD_REJOINS

theorem State.copied_pair (s : State) : s.copied.keepsPair s [unitKey (1 - s.o Obj.BLD_ACTIVE)] :=
  State.keepsPair.setO ((s.copyChecks_pair s.activeUnit (Nat.sub_le 1 _)).mono (List.nil_subset _))
    (fun _ => List.mem_singleton_self _) 2

theorem State.copied_keepsButObjects (s : State) : s.copied.keepsButObjects s :=
  State.keepsButObjects_setO (State.keepsButObjects_setO (State.keepsButObjects_setO s.keepsButObjects_refl _ _) _ _) _ _

theorem State.rejoined_keepsButObjects (s : State) : s.rejoined.keepsButObjects s :=
  State.keepsButObjects_bump (State.keepsButObjects_trans s.copied.pairState_keepsButObjects s.copied_keepsButObjects) _

theorem State.rejoined_o (hcount : k ≠ Obj.BLD_REJOINS) (hst : k ≠ Obj.BLD_STATE) : s.rejoined.o k = s.copied.o k := by
  obtain ⟨x, hx⟩ := s.copied.pairState_eq
  rw [State.rejoined, State.o_bump_ne _ hcount, hx, State.o_setO_ne _ _ hst]

theorem State.rejoined_unit (s : State) : s.rejoined.unit (1 - s.o Obj.BLD_ACTIVE) = 2 :=
  (State.rejoined_o (unitKey_of_notMem (by decide) _).symm (unitKey_of_notMem (by decide) _).symm).trans (State.o_setO_self _ _ _)

theorem State.rejoined_counts (s : State) : s.rejoined.o Obj.BLD_REJOINS = satAdd 32 (s.o Obj.BLD_REJOINS) 1 := by
  obtain ⟨x, hx⟩ := s.copied.pairState_eq
  rw [State.rejoined, State.o_bump_self, hx, State.o_setO_ne _ _ (by decide),
    s.copied_pair _ (by decide) (by rw [List.mem_singleton]; exact unitKey_of_notMem (by decide) _)]

theorem State.rejoined_lockstep (hactive : s.o Obj.BLD_ACTIVE ≤ 1) (hserves : s.unit (s.o Obj.BLD_ACTIVE) = 1) :
    s.rejoined.o Obj.BLD_STATE = 1 := by
  have hnow : s.copied.o Obj.BLD_ACTIVE = s.o Obj.BLD_ACTIVE :=
    s.copied_pair _ (by decide) (by rw [List.mem_singleton]; exact unitKey_of_notMem (by decide) _)
  have hserved : s.copied.unit (s.o Obj.BLD_ACTIVE) = 1 :=
    (s.copied_pair _ (pairKey_unitKey _) (by rw [List.mem_singleton]; exact unitKey_other hactive)).trans hserves
  refine (State.o_bump_ne _ (by decide)).trans (State.pairState_lockstep (hnow.trans_le hactive) ?_ ?_)
  · rw [hnow]
    exact hserved
  · rw [hnow]
    exact State.o_setO_self _ _ _

theorem State.copyOver_frame (s : State) : s.copyOver.obj = s.obj ∧ { s.copyOver with power := s.power } = s := by
  unfold State.copyOver
  split
  · exact ⟨rfl, rfl⟩
  · exact ⟨rfl, rfl⟩

theorem State.copyDone_good (h : s.unit (1 - s.o Obj.BLD_ACTIVE) = 4) : s.copyDone true = s.rejoined.settle.copyOver := by
  have hcopy : s.unit s.otherUnit = 4 := h
  unfold State.copyDone
  dsimp only
  rw [if_pos hcopy, if_pos rfl]
  rfl

theorem State.copyDone_bad (h : s.unit (1 - s.o Obj.BLD_ACTIVE) = 4) : s.copyDone false =
    ((s.countCheck (1 - s.o Obj.BLD_ACTIVE) true).takeOut (1 - s.o Obj.BLD_ACTIVE)).copyOver := by
  have hcopy : s.unit s.otherUnit = 4 := h
  unfold State.copyDone
  dsimp only
  rw [if_pos hcopy, if_neg Bool.false_ne_true]
  rfl

theorem State.copyDone_none (h : s.unit (1 - s.o Obj.BLD_ACTIVE) ≠ 4) : s.copyDone ok = s := if_neg h

theorem State.copyDone_rejoins (h : s.unit (1 - s.o Obj.BLD_ACTIVE) = 4) : (s.copyDone true).unit (1 - s.o Obj.BLD_ACTIVE) = 2 ∧
    (s.copyDone true).o Obj.BLD_REJOINS = satAdd 32 (s.o Obj.BLD_REJOINS) 1 ∧
    (s.o Obj.BLD_ACTIVE ≤ 1 → s.unit (s.o Obj.BLD_ACTIVE) = 1 → (s.copyDone true).o Obj.BLD_STATE = 1) ∧
    { s.copyDone true with obj := s.obj, log := s.log, power := s.power } = s := by
  obtain ⟨hobj, hpower⟩ := s.rejoined.settle.copyOver_frame
  obtain ⟨hframe, hpair, -⟩ := s.rejoined.settle_flagged
  have hobjects := s.rejoined_keepsButObjects
  have ho {k : Nat} (hk : pairKey k = true) : s.rejoined.settle.copyOver.o k = s.rejoined.o k :=
    (State.o_congr hobj k).trans (hpair k hk List.not_mem_nil)
  rw [State.copyDone_good h]
  refine ⟨(ho (pairKey_unitKey _)).trans s.rejoined_unit, (ho (by decide)).trans s.rejoined_counts,
    fun hle hserves => (ho (by decide)).trans (State.rejoined_lockstep hle hserves), ?_⟩
  generalize s.rejoined.settle.copyOver = t at hpower ⊢
  generalize s.rejoined.settle = v at hpower hframe
  generalize s.rejoined = w at hframe hobjects
  calc { t with obj := s.obj, log := s.log, power := s.power }
      = { v with obj := s.obj, log := s.log, power := s.power } :=
        congrArg (fun y : State => { y with obj := s.obj, log := s.log, power := s.power }) hpower
    _ = { w with obj := s.obj, log := s.log, power := s.power } :=
        congrArg (fun y : State => { y with obj := s.obj, log := s.log, power := s.power }) hframe
    _ = s := congrArg (fun y : State => { y with obj := s.obj, log := s.log, power := s.power }) hobjects

theorem State.copyDone_fails (h : s.unit (1 - s.o Obj.BLD_ACTIVE) = 4) :
    (s.copyDone false).unit (1 - s.o Obj.BLD_ACTIVE) = s.outState (1 - s.o Obj.BLD_ACTIVE) ∧
    { s.copyDone false with obj := s.obj, log := s.log, bld := s.bld, watch := s.watch, power := s.power } = s := by
  rw [State.copyDone_bad h]
  generalize 1 - s.o Obj.BLD_ACTIVE = n
  have hlimit : (s.countCheck n true).outState n = s.outState n := by
    rw [State.outState, s.countCheck_pair n true _ (by decide) (by decide)]
    rfl
  have hparts := ((s.countCheck n true).takeOut_keepsParts n).trans
    (State.keepsParts_of_objects (s.countCheck_keepsButObjects n true))
  have hout := ((s.countCheck n true).takeOut_takes n).unit.trans hlimit
  generalize (s.countCheck n true).takeOut n = w at hparts hout ⊢
  obtain ⟨hobj, hpower⟩ := w.copyOver_frame
  refine ⟨(State.o_congr hobj _).trans hout, ?_⟩
  generalize w.copyOver = t at hpower ⊢
  calc { t with obj := s.obj, log := s.log, bld := s.bld, watch := s.watch, power := s.power }
      = { w with obj := s.obj, log := s.log, bld := s.bld, watch := s.watch, power := s.power } :=
        congrArg (fun y : State => { y with obj := s.obj, log := s.log, bld := s.bld, watch := s.watch, power := s.power }) hpower
    _ = s := congrArg (fun y : State => { y with power := s.power }) hparts.frame

/-! ### The clauses of the statement on a part -/

theorem State.Checked.o (h : v.Checked s ps) (hk : pairKey k = true) : v.o k = s.o k := h.pair k hk List.not_mem_nil

theorem State.Released.o (h : t.Released v) (hk : pairKey k = true) : t.o k = v.o k := h.pair k hk List.not_mem_nil

theorem State.Released.unit (h : t.Released v) (i : Nat) : t.unit i = v.unit i := h.o (pairKey_unitKey i)

theorem State.decided_alone (h : s.o Obj.BLD_STATE ≠ 1) : v.decided s.lockstep m fa fs = v.aloneDecision fa := by
  have hl : s.lockstep = false := by simp [State.lockstep, h]
  rw [State.decided, hl, if_neg Bool.false_ne_true]

theorem State.decided_lockstep (h : s.o Obj.BLD_STATE = 1) : v.decided s.lockstep m fa fs = v.pairDecision m fa fs := by
  have hl : s.lockstep = true := by simp [State.lockstep, h]
  rw [State.decided, hl, if_pos rfl]

/-- A unit that serves alone moves no unit. -/
theorem State.Released.alone (ht : t.Released (v.aloneDecision fa)) (hv : v.Checked s ps) :
    t.o Obj.BLD_ACTIVE = s.o Obj.BLD_ACTIVE ∧ (∀ i, i ≤ 1 → t.unit i = s.unit i) ∧
    (fa = true → t.o (chkfailKey s.activeUnit) = satAdd 32 (s.o (chkfailKey s.activeUnit)) 1) := by
  obtain ⟨hpair, hcount⟩ := v.aloneDecision_marks fa
  have hactive : v.activeUnit = s.activeUnit := hv.o (by decide)
  have hkey := (by decide : ∀ k ∈ chkfailKeys, pairKey k = true) _ (chkfailKey_mem s.activeUnit)
  rw [hactive, hv.o hkey] at hcount
  exact ⟨(ht.o (by decide)).trans ((hpair _ (by decide) (by decide)).trans (hv.o (by decide))),
    fun i _ => (ht.unit i).trans ((hpair.unit (by decide) i).trans (hv.o (pairKey_unitKey i))),
    fun hfa => (ht.o hkey).trans (hcount hfa)⟩

/-- In lockstep a part with no failure and no mismatch moves no unit. -/
theorem State.Released.quiet (ht : t.Released (v.pairDecision false false false)) (hv : v.Checked s ps) :
    (∀ i, i ≤ 1 → t.unit i = s.unit i) ∧ t.o Obj.BLD_ACTIVE = s.o Obj.BLD_ACTIVE ∧ t.o Obj.BLD_SUSPECT = s.o Obj.BLD_SUSPECT := by
  have hsame {k : Nat} (hk : pairKey k = true) : t.o k = s.o k := (ht.o hk).trans (hv.o hk)
  exact ⟨fun i _ => hsame (pairKey_unitKey i), hsame (by decide), hsame (by decide)⟩

/-- In lockstep a mismatch alone counts, and its first one marks the event. -/
theorem State.Released.mismatch (ht : t.Released (v.pairDecision true false false)) (hv : v.Checked s ps) :
    t.o Obj.BLD_MISMATCH = satAdd 32 (s.o Obj.BLD_MISMATCH) 1 ∧
    (s.bld.suspect = false → t.o Obj.BLD_SUSPECT = satAdd 32 (s.o Obj.BLD_SUSPECT) 1) ∧
    (s.recentMismatches < 2 → t.o Obj.BLD_ACTIVE = s.o Obj.BLD_ACTIVE ∧ ∀ i, i ≤ 1 → t.unit i = s.unit i) := by
  obtain ⟨hcount, hmark, hfew⟩ := v.pairDecision_mismatch
  rw [hv.o (by decide)] at hcount
  rw [hv.o (by decide), hv.bld] at hmark
  rw [hv.recentMismatches] at hfew
  exact ⟨(ht.o (by decide)).trans hcount, fun h => (ht.o (by decide)).trans (hmark h),
    fun h => ⟨(ht.o (by decide)).trans ((hfew h _ (by decide) (by decide)).trans (hv.o (by decide))),
      fun i _ => (ht.unit i).trans (((hfew h).unit (by decide) i).trans (hv.o (pairKey_unitKey i)))⟩⟩

/-- In lockstep a check failed in the other unit alone takes that one out. -/
theorem State.Released.other (ht : t.Released (v.pairDecision m false true)) (hv : v.Checked s ps) :
    t.o Obj.BLD_ACTIVE = s.o Obj.BLD_ACTIVE ∧ t.unit (1 - s.o Obj.BLD_ACTIVE) = s.outState (1 - s.o Obj.BLD_ACTIVE) := by
  obtain ⟨hserves, hout⟩ := v.pairDecision_other m
  rw [hv.o (by decide)] at hserves hout
  exact ⟨(ht.o (by decide)).trans hserves, (ht.unit _).trans (hout.trans (hv.outState _))⟩

/-- In lockstep a check failed in the active unit alone switches over. -/
theorem State.Released.active (ht : t.Released (v.pairDecision m true false)) (hv : v.Checked s ps) (h : s.o Obj.BLD_ACTIVE ≤ 1) :
    t.SwitchedOver s := by
  have hactive : v.o Obj.BLD_ACTIVE = s.o Obj.BLD_ACTIVE := hv.o (by decide)
  obtain ⟨hnow, hserves, hout, hcount, hx⟩ := State.pairDecision_active (hactive.trans_le h) m
  rw [hactive] at hnow hserves hout
  rw [hv.o (by decide)] at hcount
  exact ⟨(ht.o (by decide)).trans hnow, (ht.unit _).trans hserves, (ht.unit _).trans (hout.trans (hv.outState _)),
    (ht.o (by decide)).trans hcount, (ht.o (by decide)).trans (hx.trans (hv.o (by decide)))⟩

/-- In lockstep checks failed in both units leave the active one at work. -/
theorem State.Released.both (ht : t.Released (v.pairDecision m true true)) (hv : v.Checked s ps) (h : s.o Obj.BLD_ACTIVE ≤ 1) :
    t.o Obj.BLD_BOTHFAIL = satAdd 32 (s.o Obj.BLD_BOTHFAIL) 1 ∧ t.ob Obj.FLT_LATCHED 9 = true ∧
    t.o Obj.BLD_ACTIVE = s.o Obj.BLD_ACTIVE ∧ t.unit (s.o Obj.BLD_ACTIVE) = s.unit (s.o Obj.BLD_ACTIVE) ∧
    t.unit (1 - s.o Obj.BLD_ACTIVE) = s.outState (1 - s.o Obj.BLD_ACTIVE) := by
  obtain ⟨hcount, hlatch, hpair, hout⟩ := v.pairDecision_bothFail m
  have hactive : v.o Obj.BLD_ACTIVE = s.o Obj.BLD_ACTIVE := hv.o (by decide)
  rw [hactive] at hpair hout
  rw [hv.o (by decide)] at hcount
  have hstays {k : Nat} (hk : pairKey k = true) (hnot : k ∉ [Obj.BLD_STATE, Obj.BLD_SUSPECT, Obj.BLD_BOTHFAIL] ++ chkfailKeys)
      (hne : k ≠ unitKey (1 - s.o Obj.BLD_ACTIVE)) : t.o k = s.o k :=
    (ht.o hk).trans ((hpair k hk fun hmem => (List.mem_cons.mp hmem).elim hne hnot).trans (hv.o hk))
  exact ⟨(ht.o (by decide)).trans hcount, ht.latched 9 hlatch,
    hstays (by decide) (by decide) (unitKey_of_notMem (by decide) _),
    hstays (pairKey_unitKey _) (unitKey_notMem (by decide) _) (unitKey_other h), (ht.unit _).trans (hout.trans (hv.outState _))⟩

/-! ### The statement -/

/-- Settles O21: a part is checked, decided and released; checks and release leave the pair's objects as they were, so each
clause is what the decision of its case does to them. -/
theorem theBuildersDecidePartByPart : Obligations.TheBuildersDecidePartByPart := by
  unfold Obligations.TheBuildersDecidePartByPart
  intro m fa fs ok u p ps n s ha
  refine ⟨fun h => exec_of_awake ha rfl (State.partDecision_idle h),
    fun hparts hstate hactive hswitch => ⟨_, exec_of_awake ha rfl rfl, ?part⟩,
    fun h => exec_of_awake ha rfl (if_neg h), fun h => ?selftest, fun h => exec_of_awake ha rfl (State.copyDone_none h),
    fun h => ⟨⟨_, exec_of_awake ha rfl rfl, State.copyDone_rejoins h⟩, ⟨_, exec_of_awake ha rfl rfl, State.copyDone_fails h⟩⟩⟩
  case part =>
    obtain ⟨v, hv, ht, -⟩ := State.partDecision_releases (m := m) (fa := fa) (fs := fs) (u := u) hparts hstate hactive hswitch
    have hdecided := v.decided_keepsParts s.lockstep m fa fs
    obtain ⟨hspm, hrank, hnvm⟩ := State.keepsMemories_trans ht.memories (State.keepsMemories_trans hdecided.memories hv.memories)
    have hleft : (s.partDecision m fa fs u).bld.parts = ps := by rw [ht.parts, hdecided.parts, hv.bld]
    refine ⟨hleft, hrank, hnvm, hspm, ?north, fun h => ?alone, ?quiet, ?mismatch, ?other, ?active, ?both⟩
    case north =>
      rintro hkind hfirst hblocks hsuspect rfl rfl hfs
      rw [State.partDecision_north hparts hstate hactive hswitch hkind hfirst hblocks hsuspect hfs]
      exact ⟨rfl, rfl⟩
    case alone =>
      rw [State.decided_alone h] at ht
      exact ht.alone hv
    case quiet =>
      rintro h rfl rfl rfl
      rw [State.decided_lockstep h] at ht
      exact ht.quiet hv
    case mismatch =>
      rintro h rfl rfl rfl
      rw [State.decided_lockstep h] at ht
      exact ht.mismatch hv
    case other =>
      rintro h rfl rfl
      rw [State.decided_lockstep h] at ht
      exact ht.other hv
    case active =>
      rintro h rfl rfl
      rw [State.decided_lockstep h] at ht
      obtain ⟨hnow, hserves, hout, hcount, hx⟩ := ht.active hv hactive
      exact ⟨hnow, hserves, hout, hcount, hx⟩
    case both =>
      rintro h rfl rfl
      rw [State.decided_lockstep h] at ht
      exact ht.both hv hactive
  case selftest =>
    obtain ⟨⟨hunit, hpair, -⟩, hframe⟩ := State.selftestDone_takes h ok
    have hnot : Obj.BLD_ACTIVE ∉ [unitKey n, Obj.BLD_STATE] := by
      rw [List.mem_cons, List.mem_singleton, not_or]
      exact ⟨unitKey_of_notMem (by decide) _, by decide⟩
    exact ⟨_, exec_of_awake ha rfl rfl, hunit, hpair _ (by decide) hnot, hframe⟩

end Sys2Proof.Machine
end

section
/-! SUPPORT. The lengths of what the coder writes: an entry's bits, a block's bytes and a job's bytes, and the statement on them
(R255 to R260). -/
namespace Sys2Proof.Machine

/-! ### Bits -/

@[simp] theorem length_bitsMSB (n v : Nat) : (bitsMSB n v).length = n := by
  induction n with
  | zero => rfl
  | succ n ih => simp [bitsMSB, ih]

/-- No set's fields are wider than those of set 3 (R256). -/
theorem setWidths_le (s : Nat) :
    (setWidths s).1 ≤ 7 ∧ (setWidths s).2.1 ≤ 12 ∧ (setWidths s).2.2.1 ≤ 12 ∧ (setWidths s).2.2.2 ≤ 9 := by
  unfold setWidths
  split <;> decide

/-- A hit's length in a set; the first hit of a stream has CH and TOA in full (R255, R256). -/
theorem length_hitBits (s : Nat) (h : Hist) (w : Nat) :
    (hitBits s h w).length = (if h.first then 19 else (setWidths s).1 + (setWidths s).2.1) +
      (setWidths s).2.2.1 + (setWidths s).2.2.2 + 6 := by
  cases hfirst : h.first <;> simp [hitBits, hfirst] <;> omega

/-- Set 3 is the longest form of every hit. -/
theorem length_hitBits_le (s : Nat) (h : Hist) (w : Nat) : (hitBits s h w).length ≤ 46 := by
  obtain ⟨hch, htoa, ht, hd⟩ := setWidths_le s
  rw [length_hitBits]
  split <;> omega

/-- A marker leaves OFFS out when NEXT is 1 (R257). -/
theorem length_markerBits (h : Hist) (w : Nat) :
    (markerBits h w).length = if markerOffs w = h.poffs + 1 then 19 else 30 := by
  by_cases hnext : markerOffs w = h.poffs + 1 <;> simp [markerBits, hnext]

theorem length_lossBits (w : Nat) : (lossBits w).length = 30 := by simp [lossBits]

/-! ### Entries and blocks -/

/-- The bound of R260 on one entry, whatever its kind and set. -/
theorem Ctx.length_bitsOf_le (c : Ctx) (s w : Nat) : (c.bitsOf s w).length ≤ 46 := by
  unfold Ctx.bitsOf
  cases c.kind with
  | marker =>
    have hlen := length_markerBits c.hist w
    split at hlen <;> simp [hlen]
  | hit => exact length_hitBits_le s c.hist w
  | loss => simp [length_lossBits]

theorem length_blockBits_le (s : Nat) (c : Ctx) (ws : List Nat) : (blockBits s c ws).length ≤ 46 * ws.length := by
  induction ws generalizing c with
  | nil => simp [blockBits]
  | cons w ws ih =>
    have hw := c.length_bitsOf_le s w
    have hws := ih (c.after w)
    simp only [blockBits, List.length_append, List.length_cons]
    omega

/-- Packed bits take no byte beyond the one of their last bit. -/
theorem length_packBits_le (n : Nat) (l : List Bool) : (packBits n l).length ≤ (l.length + 7) / 8 := by
  induction n generalizing l with
  | zero => simp [packBits]
  | succ n ih =>
    cases l with
    | nil => simp [packBits]
    | cons b l =>
      have hrest := ih ((b :: l).drop 8)
      simp only [packBits, List.isEmpty_cons, Bool.false_eq_true, if_false, List.length_cons, List.length_drop] at hrest ⊢
      omega

/-- The 16 bits of the header and 46 an entry fit into 2 + 6n whole bytes, so the padding never adds a byte (R260). -/
theorem length_codeBlock_bytes_le (c : Ctx) (ws : List Nat) : (codeBlock c ws).bytes.length ≤ 2 + 6 * ws.length := by
  have hbits := length_blockBits_le (blockSet c ws) c ws
  refine (length_packBits_le _ _).trans ?_
  rw [List.length_append, length_bitsMSB]
  omega

/-- The choice of R258: a set below the last that holds the block, or the last. -/
theorem blockSet_cases (c : Ctx) (ws : List Nat) :
    (blockSet c ws < 3 ∧ blockFits (blockSet c ws) c ws = true) ∨ blockSet c ws = 3 := by
  unfold blockSet
  cases hfind : (List.range 3).find? fun s => blockFits s c ws with
  | none => exact .inr rfl
  | some s =>
    have hfits := List.find?_some hfind
    exact .inl ⟨List.mem_range.mp (List.mem_of_find?_eq_some hfind), hfits⟩

/-! ### Jobs -/

theorem length_codeBlocks_bytes_le (n : Nat) (c : Ctx) (ws : List Nat) :
    ((codeBlocks n c ws).flatMap (·.bytes)).length ≤ 6 * ws.length + 2 * ((ws.length + 31) / 32) := by
  induction n generalizing c ws with
  | zero => simp [codeBlocks]
  | succ n ih =>
    cases ws with
    | nil => simp [codeBlocks]
    | cons w ws =>
      have hblock := length_codeBlock_bytes_le c ((w :: ws).take 32)
      have hrest := ih (ctxAfter c ((w :: ws).take 32)) ((w :: ws).drop 32)
      rw [List.length_take] at hblock
      rw [List.length_drop] at hrest
      rw [codeBlocks, List.isEmpty_cons, if_neg Bool.false_ne_true, List.flatMap_cons, List.length_append]
      rw [List.length_cons] at hblock hrest ⊢
      omega

/-! ### The statement -/

/-- Settles O57: the lengths of an entry, a block and a job, and the choice of the block's set. -/
theorem aCodedBlockNeverGrowsByMoreThanItsHeader : Obligations.ACodedBlockNeverGrowsByMoreThanItsHeader := by
  unfold Obligations.ACodedBlockNeverGrowsByMoreThanItsHeader
  intro c n w ws
  have hset : (codeBlock c ws).set < 4 ∧ ((codeBlock c ws).set ≠ 3 → blockFits (codeBlock c ws).set c ws = true) := by
    obtain ⟨hlt, hfits⟩ | hlast := blockSet_cases c ws
    · exact ⟨hlt.trans (by decide), fun _ => hfits⟩
    · exact ⟨hlast.trans_lt (by decide), fun hne => absurd hlast hne⟩
  exact ⟨fun _ => c.length_bitsOf_le n w, length_codeBlock_bytes_le c ws, rfl, hset.1, hset.2,
    length_codeBlocks_bytes_le _ c ws⟩

end Sys2Proof.Machine
end

section
/-! SUPPORT. Receiving lanes: the phase scan, its tracking, HUNT, the margin scan and the PRBS checker (R286 to R290, R301, R302). -/
namespace Sys2Proof.Machine

variable {s t : State} {i j : Lane} {m n p k : Nat}

/-! ### One lane of the state -/

theorem laneFin_val (i : Lane) : laneFin i = i := Fin.ext (Nat.mod_eq_of_lt i.isLt)

theorem State.lane_setLane (s : State) (a b : Nat) (x : LaneUnit) :
    (s.setLane a x).lane b = if laneFin b = laneFin a then x else s.lane b := by
  unfold State.lane State.setLane
  split
  case isTrue h => simp [h, Vector.get_eq_getElem]
  case isFalse h =>
    have hne : (laneFin a).val ≠ (laneFin b).val := fun e => h (Fin.ext e.symm)
    simp [Vector.get_eq_getElem, hne]

@[simp] theorem State.lane_setLane_self (s : State) (a : Nat) (x : LaneUnit) : (s.setLane a x).lane a = x := by
  rw [State.lane_setLane, if_pos rfl]

theorem State.lane_setLane_ne (s : State) (x : LaneUnit) (h : j ≠ i) : (s.setLane i x).lane j = s.lane j := by
  rw [State.lane_setLane, laneFin_val, laneFin_val, if_neg h]

/-! ### The most frequent count (R286) -/

/-- The larger of the two counts, the older one of equals. -/
def largerCount (b e : Nat × Nat) : Nat × Nat := if e.1 > b.1 then e else b

theorem foldl_largerCount_of_le {l : List (Nat × Nat)} {b : Nat × Nat} (h : ∀ e ∈ l, e.1 ≤ b.1) : l.foldl largerCount b = b := by
  induction l with
  | nil => rfl
  | cons e l ih =>
    have he : largerCount b e = b := if_neg (Nat.not_lt.mpr (h e (by simp)))
    rw [List.foldl_cons, he]
    exact ih fun x hx => h x (List.mem_cons_of_mem e hx)

/-- From a smaller count on, the fold ends at the place of the first largest one. -/
theorem foldl_largerCount_place (l : List Nat) (n : Nat) (b : Nat × Nat) (k : Nat) (hk : k < l.length) (hb : b.1 < l[k])
    (hbefore : ∀ j (hj : j < k), l[j] < l[k]) (hall : ∀ x ∈ l, x ≤ l[k]) :
    ((l.zipIdx n).foldl largerCount b).2 = n + k := by
  induction l generalizing n b k with
  | nil => exact absurd hk (Nat.not_lt_zero k)
  | cons y l ih =>
    rw [List.zipIdx_cons, List.foldl_cons]
    cases k with
    | zero =>
      have hy : largerCount b (y, n) = (y, n) := if_pos hb
      rw [hy, foldl_largerCount_of_le, Nat.add_zero]
      exact fun e he => hall _ (List.mem_cons_of_mem y (List.fst_mem_of_mem_zipIdx he))
    | succ k =>
      have hy : (largerCount b (y, n)).1 < l[k]'(Nat.lt_of_succ_lt_succ hk) := by
        unfold largerCount
        split
        · exact hbefore 0 (Nat.succ_pos k)
        · exact hb
      rw [ih (n + 1) _ k (Nat.lt_of_succ_lt_succ hk) hy (fun j hj => hbefore (j + 1) (Nat.succ_lt_succ hj))
        fun x hx => hall x (List.mem_cons_of_mem y hx)]
      omega

/-- The place of the largest count is that of the first one which none exceeds. -/
theorem argmax_eq (l : List Nat) (k : Nat) (hk : k < l.length) (hbefore : ∀ j (hj : j < k), l[j] < l[k])
    (hall : ∀ x ∈ l, x ≤ l[k]) : argmax l = k := by
  change ((l.zipIdx 0).foldl largerCount (l.headD 0, 0)).2 = k
  cases k with
  | zero =>
    rw [foldl_largerCount_of_le]
    intro e he
    have hhead : l.headD 0 = l[0] := by cases l with | nil => exact absurd hk (by simp) | cons y l => rfl
    exact hhead ▸ hall _ (List.fst_mem_of_mem_zipIdx he)
  | succ k =>
    have hhead : l.headD 0 < l[k + 1] := by
      cases l with
      | nil => exact absurd hk (by simp)
      | cons y l => exact hbefore 0 (Nat.succ_pos k)
    rw [foldl_largerCount_place l 0 _ (k + 1) hk hhead hbefore hall, Nat.zero_add]

/-- Of sixteen counts, the first that none exceeds is at the place. -/
theorem argmax_counts {d : Vector (Fin 4097) 16} {m : Fin 16} (hall : ∀ j : Fin 16, d.get j ≤ d.get m)
    (hbefore : ∀ j : Fin 16, j < m → d.get j < d.get m) : argmax (d.toList.map Fin.val) = m := by
  have hget (j : Nat) (hj : j < 16) : (d.toList.map Fin.val)[j]'(by simp [hj]) = (d.get ⟨j, hj⟩).val := by
    simp [Vector.get_eq_getElem]
  refine argmax_eq _ m (by simp) (fun j hj => ?_) fun x hx => ?_
  · rw [hget j (by omega), hget m m.isLt]
    exact hbefore ⟨j, by omega⟩ hj
  · obtain ⟨j, hj, rfl⟩ := List.mem_iff_getElem.mp hx
    have hj : j < 16 := by simpa using hj
    rw [hget j hj, hget m m.isLt]
    exact hall ⟨j, hj⟩

/-! ### The phases that agree (R288) -/

/-- The agreeing phases from p on in steps of d, at most n. -/
def phaseRun (m d : Nat) : Nat → Nat → Nat
  | 0, _ => 0
  | n + 1, p => if bit m p then 1 + phaseRun m d n ((p + d) % 16) else 0

theorem runUp_eq (m n p : Nat) : runUp m n p = phaseRun m 1 n p := by
  induction n generalizing p with
  | zero => rfl
  | succ n ih => simp only [runUp, phaseRun, ih]

theorem runDown_eq (m n p : Nat) : runDown m n p = phaseRun m 15 n p := by
  induction n generalizing p with
  | zero => rfl
  | succ n ih => simp only [runDown, phaseRun, ih]

theorem phaseRun_le (m d n p : Nat) : phaseRun m d n p ≤ n := by
  induction n generalizing p with
  | zero => exact Nat.le_refl 0
  | succ n ih =>
    have hn := ih ((p + d) % 16)
    unfold phaseRun
    split <;> omega

/-- A step further and then k steps are k + 1 steps. -/
theorem phase_step (p d k : Nat) : ((p + d) % 16 + d * k) % 16 = (p + d * (k + 1)) % 16 := by
  rw [Nat.mod_add_mod, Nat.mul_add, Nat.mul_one, Nat.add_assoc, Nat.add_comm d]

/-- Every phase of the run agrees. -/
theorem bit_of_lt_phaseRun {d : Nat} (hp : p < 16) (hk : k < phaseRun m d n p) : bit m ((p + d * k) % 16) = true := by
  induction n generalizing p k with
  | zero => exact absurd hk (Nat.not_lt_zero k)
  | succ n ih =>
    unfold phaseRun at hk
    split at hk
    case isFalse => exact absurd hk (Nat.not_lt_zero k)
    case isTrue hbit =>
      cases k with
      | zero => rwa [Nat.mul_zero, Nat.add_zero, Nat.mod_eq_of_lt hp]
      | succ k =>
        rw [← phase_step]
        exact ih (Nat.mod_lt _ (by decide)) (by omega)

/-- A run that ends before its bound ends at a phase that disagrees. -/
theorem bit_phaseRun {d : Nat} (hp : p < 16) (hn : phaseRun m d n p < n) : bit m ((p + d * phaseRun m d n p) % 16) = false := by
  induction n generalizing p with
  | zero => exact absurd hn (Nat.not_lt_zero _)
  | succ n ih =>
    unfold phaseRun at hn ⊢
    split
    case isFalse hbit => rw [Nat.mul_zero, Nat.add_zero, Nat.mod_eq_of_lt hp]; exact Bool.eq_false_iff.mpr hbit
    case isTrue hbit =>
      rw [if_pos hbit] at hn
      rw [Nat.add_comm 1, ← phase_step]
      exact ih (Nat.mod_lt _ (by decide)) (by omega)

theorem eyeWidth_eq (h : bit m p = true) : eyeWidth m p = 1 + phaseRun m 1 15 ((p + 1) % 16) +
    phaseRun m 15 (15 - phaseRun m 1 15 ((p + 1) % 16)) ((p + 15) % 16) := by
  simp only [eyeWidth, h, if_true, runUp_eq, runDown_eq]

theorem eyeWidth_disagrees (h : bit m p = false) : eyeWidth m p = 0 := by simp [eyeWidth, h]

theorem eyeWidth_le (m p : Nat) : eyeWidth m p ≤ 16 := by
  cases h : bit m p with
  | false => rw [eyeWidth_disagrees h]; decide
  | true =>
    have hup := phaseRun_le m 1 15 ((p + 1) % 16)
    have hdown := phaseRun_le m 15 (15 - phaseRun m 1 15 ((p + 1) % 16)) ((p + 15) % 16)
    rw [eyeWidth_eq h]
    omega

variable {eye : BitVec 16}

theorem bit_allOnes (h : p < 16) : bit (BitVec.allOnes 16).toNat p = true := by
  change (BitVec.allOnes 16).getLsbD p = true
  rw [BitVec.getLsbD_allOnes, decide_eq_true h]

theorem eyeWidth_allOnes (h : p < 16) : eyeWidth (BitVec.allOnes 16).toNat p = 16 := by
  have hup : phaseRun (BitVec.allOnes 16).toNat 1 15 ((p + 1) % 16) = 15 := by
    by_contra hne
    have hlt := Nat.lt_of_le_of_ne (phaseRun_le (BitVec.allOnes 16).toNat 1 15 ((p + 1) % 16)) hne
    have hstop := bit_phaseRun (Nat.mod_lt _ (by decide)) hlt
    rw [bit_allOnes (Nat.mod_lt _ (by decide))] at hstop
    exact absurd hstop (by decide)
  rw [eyeWidth_eq (bit_allOnes h), hup]
  rfl

/-- Phases that all agree are all ones. -/
theorem eq_allOnes_of_bits (h : ∀ q < 16, bit eye.toNat q = true) : eye = BitVec.allOnes 16 := by
  refine BitVec.eq_of_getLsbD_eq fun q hq => ?_
  rw [BitVec.getLsbD_allOnes, decide_eq_true hq]
  exact h q hq

/-- Around a phase that agrees, where not all do, the width counts the run upwards and the run downwards, each of which ends at a
phase that disagrees (R288). -/
theorem eyeWidth_runs (hp : p < 16) (hbit : bit eye.toNat p = true) (hne : eye ≠ BitVec.allOnes 16) :
    ∃ up down : Fin 15, eyeWidth eye.toNat p = 1 + up.val + down.val ∧
      (∀ j : Fin 16, j.val ≤ up.val → bit eye.toNat ((p + j.val) % 16) = true) ∧
      bit eye.toNat ((p + up.val + 1) % 16) = false ∧
      (∀ j : Fin 16, j.val ≤ down.val → bit eye.toNat ((p + 16 - j.val) % 16) = true) ∧
      bit eye.toNat ((p + 15 - down.val) % 16) = false := by
  have hwidth := eyeWidth_eq hbit
  generalize hup : phaseRun eye.toNat 1 15 ((p + 1) % 16) = up at hwidth
  generalize hdown : phaseRun eye.toNat 15 (15 - up) ((p + 15) % 16) = down at hwidth
  have hstart (d : Nat) : (p + d) % 16 < 16 := Nat.mod_lt _ (by decide)
  have habove (j : Nat) (hj : j ≤ up) : bit eye.toNat ((p + j) % 16) = true := by
    cases j with
    | zero => rwa [Nat.add_zero, Nat.mod_eq_of_lt hp]
    | succ j =>
      have h := bit_of_lt_phaseRun (d := 1) (hstart 1) (hup.symm ▸ hj)
      rwa [phase_step, Nat.one_mul] at h
  have hlt : up < 15 := by
    refine Nat.lt_of_le_of_ne (hup ▸ phaseRun_le _ _ _ _) fun h15 => hne (eq_allOnes_of_bits fun q hq => ?_)
    have h := habove ((q + 16 - p) % 16) (by omega)
    rwa [show (p + (q + 16 - p) % 16) % 16 = q by omega] at h
  have htop : bit eye.toNat ((p + up + 1) % 16) = false := by
    have h := bit_phaseRun (d := 1) (hstart 1) (hup.symm ▸ hlt)
    rwa [hup, phase_step, Nat.one_mul, ← Nat.add_assoc] at h
  have hbelow (j : Nat) (hj : j ≤ down) : bit eye.toNat ((p + 15 * j) % 16) = true := by
    cases j with
    | zero => rwa [Nat.mul_zero, Nat.add_zero, Nat.mod_eq_of_lt hp]
    | succ j =>
      have h := bit_of_lt_phaseRun (d := 15) (hstart 15) (hdown.symm ▸ hj)
      rwa [phase_step] at h
  have hdownle : down ≤ 15 - up := hdown ▸ phaseRun_le _ _ _ _
  have hdownlt : down < 15 - up := by
    refine Nat.lt_of_le_of_ne hdownle fun hfull => ?_
    have h := hbelow down (Nat.le_refl _)
    rw [show (p + 15 * down) % 16 = (p + up + 1) % 16 by omega, htop] at h
    exact absurd h (by decide)
  have hbottom : bit eye.toNat ((p + 15 - down) % 16) = false := by
    have h := bit_phaseRun (d := 15) (hstart 15) (hdown.symm ▸ hdownlt)
    rwa [hdown, phase_step, show (p + 15 * (down + 1)) % 16 = (p + 15 - down) % 16 by omega] at h
  refine ⟨⟨up, hlt⟩, ⟨down, by omega⟩, hwidth, fun j hj => habove j hj, htop, fun j hj => ?_, hbottom⟩
  have h := hbelow j hj
  rwa [show (p + 15 * j.val) % 16 = (p + 16 - j.val) % 16 by omega] at h

end Sys2Proof.Machine
end

section
/-! SUPPORT. The statement on receivers that align, track and scan (R286 to R290, R301, R302). -/
namespace Sys2Proof.Machine

variable {s : State} {i j : Lane}

/-- Only a receiver in L0 scans, tracks, hunts or takes the checker's state. -/
theorem State.receiver_idle (h : isRx i = false ∨ s.o (Obj.LN_PSTATE i) ≠ 0) (d : List Nat) (e l reg : Nat) :
    s.phaseScanDone i d = s ∧ s.phaseTrack i e l = s ∧ s.huntTimeout i = s ∧ s.prbsSync i reg = s := by
  have hgate : (isRx i && s.pstate i == 0) = false := by
    rcases h with h | h <;> simp [State.pstate, h]
  simp [State.phaseScanDone, State.phaseTrack, State.huntTimeout, State.prbsSync, hgate]

section
variable (hrx : isRx i = true) (hl0 : s.o (Obj.LN_PSTATE i) = 0)
include hrx hl0

theorem State.phaseScanDone_scan (hscan : s.o (Obj.LN_ASTATE i) = 2) (d : List Nat) : s.phaseScanDone i d =
    ((s.setO (Obj.LN_PHASE i) ((argmax d + 8) % 16)).setO (Obj.LN_ASTATE i)
      (if s.o (Obj.LN_TEST i) = 0 then 3 else 6)).setLane i { s.lane i with valid := 0, window := [] } := by
  have htest : (s.setO (Obj.LN_PHASE i) ((argmax d + 8) % 16)).o (Obj.LN_TEST i) = s.o (Obj.LN_TEST i) :=
    s.o_setO_ne _ (by simp only [Obj.LN_TEST, Obj.LN_PHASE, objKey]; omega)
  simp only [State.phaseScanDone, State.pstate, State.astate, hrx, hl0, hscan, htest]
  rfl

theorem State.phaseTrack_eq (e l : Nat) : s.phaseTrack i e l =
    if s.o (Obj.LN_ASTATE i) ∈ [2, 3, 4, 6] then
      if l + 512 < e then (s.setO (Obj.LN_PHASE i) ((s.o (Obj.LN_PHASE i) + 1) % 16)).bump (Obj.LN_TRK_STEPS i)
      else if e + 512 < l then (s.setO (Obj.LN_PHASE i) ((s.o (Obj.LN_PHASE i) + 15) % 16)).bump (Obj.LN_TRK_STEPS i)
      else s
    else s := by
  simp [State.phaseTrack, State.pstate, State.astate, hrx, hl0, or_assoc]

theorem State.huntTimeout_hunt (hhunt : s.o (Obj.LN_ASTATE i) = 3) : s.huntTimeout i = s.laneFall i 2 := by
  simp [State.huntTimeout, State.pstate, State.astate, hrx, hl0, hhunt]

theorem State.prbsSync_prbs (hprbs : s.o (Obj.LN_ASTATE i) = 6) (reg : Nat) :
    s.prbsSync i reg = s.setLane i { s.lane i with prbsLock := true, prbsReg := reg } := by
  simp [State.prbsSync, State.pstate, State.astate, hrx, hl0, hprbs]

end

theorem State.phaseScanDone_other (h : s.o (Obj.LN_ASTATE i) ≠ 2) (d : List Nat) : s.phaseScanDone i d = s := by
  simp [State.phaseScanDone, State.astate, h]

theorem State.huntTimeout_other (h : s.o (Obj.LN_ASTATE i) ≠ 3) : s.huntTimeout i = s := by
  simp [State.huntTimeout, State.astate, h]

theorem State.prbsSync_other (h : s.o (Obj.LN_ASTATE i) ≠ 6) (reg : Nat) : s.prbsSync i reg = s := by
  simp [State.prbsSync, State.astate, h]

theorem State.marginDone_scans (h : (s.lane i).scanning = true) (m : Nat) : s.marginDone i m =
    (s.setO (Obj.LN_EYEW i) (eyeWidth m (s.o (Obj.LN_PHASE i)))).setLane i { s.lane i with scanning := false } :=
  if_pos h

theorem State.marginDone_width (h : (s.lane i).scanning = true) (m : Nat) :
    (s.marginDone i m).o (Obj.LN_EYEW i) = eyeWidth m (s.o (Obj.LN_PHASE i)) := by
  rw [State.marginDone_scans h]
  exact s.o_setO_self _ _

theorem State.marginDone_idle (h : (s.lane i).scanning = false) (m : Nat) : s.marginDone i m = s :=
  if_neg (h ▸ Bool.false_ne_true)

/-- Settles O22: each clause is one case of the lane's alignment, and the eye's width is a run upwards and a run downwards. -/
theorem receiversAlignTrackAndScan : Obligations.ReceiversAlignTrackAndScan := by
  unfold Obligations.ReceiversAlignTrackAndScan
  intro i d m e l eye reg s hawake
  have hrun {c : Instr} {t u : State} (hexec : exec c s = .next (s.ifAwake t)) (ht : t = u) : exec c s = .next u := by
    rw [hexec, State.ifAwake_of hawake, ht]
  refine ⟨fun hidle => ?_, fun hrx hl0 => ⟨fun h => hrun rfl ?_, fun hscan hall hbefore => hrun rfl ?_, fun hin => ⟨fun h => hrun rfl ?_,
    fun h => hrun rfl ?_⟩, fun hel hle => hrun rfl ?_, fun hout => hrun rfl ?_, fun hhunt => ⟨_, hrun rfl rfl, ?_⟩, fun h => hrun rfl ?_,
    fun hprbs => hrun rfl ?_, fun h => hrun rfl ?_⟩, hrun rfl rfl, fun h => hrun rfl ?_, fun h => ⟨_, hrun rfl rfl, ?_⟩⟩
  · obtain ⟨hscan, htrack, hhunt, hsync⟩ := State.receiver_idle hidle (d.toList.map Fin.val) e l reg.toNat
    exact ⟨hrun rfl hscan, hrun rfl htrack, hrun rfl hhunt, hrun rfl hsync⟩
  · exact State.phaseScanDone_other h _
  · rw [State.phaseScanDone_scan hrx hl0 hscan, argmax_counts hall hbefore]
  · rw [State.phaseTrack_eq hrx hl0, if_pos hin, if_pos h]
  · rw [State.phaseTrack_eq hrx hl0, if_pos hin, if_neg (by omega), if_pos h]
  · rw [State.phaseTrack_eq hrx hl0, if_neg (Nat.not_lt.mpr hel), if_neg (Nat.not_lt.mpr hle), ite_self]
  · rw [State.phaseTrack_eq hrx hl0, if_neg hout]
  · rw [State.huntTimeout_hunt hrx hl0 hhunt]
    refine ⟨?_, ?_, ?_, ?_, ?_, fun j hj => State.lane_setLane_ne _ _ hj, rfl⟩
    · exact State.o_setO_self s _ _
    · simp [State.laneFall]
    · simp [State.laneFall]
    · simp [State.laneFall]
    · exact State.keepsObjects_setO (State.keepsObjects_refl s _) (by simp) _
  · exact State.huntTimeout_other h
  · exact State.prbsSync_prbs hrx hl0 hprbs _
  · exact State.prbsSync_other h _
  · exact State.marginDone_idle h _
  · have hwidth := State.marginDone_width h eye.toNat
    refine ⟨?_, hwidth.trans_le (eyeWidth_le _ _), fun hp heye => hwidth.trans (heye ▸ eyeWidth_allOnes hp),
      fun hbit => hwidth.trans (eyeWidth_disagrees hbit), fun hp hbit hne => ?_, ?_⟩
    · rw [State.marginDone_scans h, State.lane_setLane_self]
    · rw [hwidth]
      exact eyeWidth_runs hp hbit hne
    · rw [State.marginDone_scans h]
      exact ⟨State.keepsObjects_setO (State.keepsObjects_refl s _) (by simp) _, fun j hj => State.lane_setLane_ne _ _ hj, rfl⟩

end Sys2Proof.Machine
end

section
/-! SUPPORT. What flags, hub and links leave of the lanes when they follow a change (R214, R218, R289, R299, R314, R320). -/
namespace Sys2Proof.Machine

variable {s t u : State} {l : Bool} {i j k : Nat}

/-! ### What the lanes and the north link's state rest on -/

/-- Objects on which the state of the lanes and of the north link rests beside their own. -/
def laneSources : List Nat := [Obj.CF_ROLE, Obj.CLK_STATE, Obj.PWR_STATE, Obj.PWR_PARK_LINK, Obj.RG_LSTATE]

/-- The objects of the lanes, and the others on which their state rests. -/
def laneSideKey (k : Nat) : Bool := decide (0x400000 ≤ k) && decide (k < 0x410000) || laneSources.contains k

/-- Of these, the ones that change as lanes and links follow: LN_PSTATE, LN_ASTATE and LN_RATE, PWR_STATE and RG_LSTATE. -/
def followedKey (k : Nat) : Bool :=
  decide (0x401000 ≤ k) && decide (k < 0x410000) && [2, 4, 5].contains (k % 256) || [Obj.PWR_STATE, Obj.RG_LSTATE].contains k

theorem laneSideKey_lane {sub : Nat} (hi : i < 25) (hsub : sub < 256) : laneSideKey (objKey (0x4010 + i) sub) = true := by
  have hlo : 0x400000 ≤ objKey (0x4010 + i) sub := by simp only [objKey]; omega
  have hhi : objKey (0x4010 + i) sub < 0x410000 := by simp only [objKey]; omega
  simp [laneSideKey, hlo, hhi]

theorem followedKey_lane {sub : Nat} (hi : i < 25) (hsub : sub < 256) (h : sub ∉ [2, 4, 5]) :
    followedKey (objKey (0x4010 + i) sub) = false := by
  have hmod : objKey (0x4010 + i) sub % 256 = sub := by simp only [objKey]; omega
  have hother : objKey (0x4010 + i) sub ∉ [Obj.PWR_STATE, Obj.RG_LSTATE] := by
    simp only [objKey, Obj.PWR_STATE, Obj.RG_LSTATE, List.mem_cons, List.not_mem_nil, or_false]
    omega
  simp [followedKey, hmod, h, hother]

theorem followedKey_laneState {sub : Nat} (hi : i < 25) (h : sub ∈ [2, 4, 5]) : followedKey (objKey (0x4010 + i) sub) = true := by
  have hsub : sub < 256 := by simp at h; omega
  have hmod : objKey (0x4010 + i) sub % 256 = sub := by simp only [objKey]; omega
  have hlo : 0x401000 ≤ objKey (0x4010 + i) sub := by simp only [objKey]; omega
  have hhi : objKey (0x4010 + i) sub < 0x410000 := by simp only [objKey]; omega
  simp [followedKey, hmod, hlo, hhi]
  exact .inl (by simpa using h)

/-- A lane's object is none of the other sources. -/
theorem lane_notMem_sources {sub : Nat} (hi : i < 25) (hsub : sub < 256) : objKey (0x4010 + i) sub ∉ laneSources := by
  simp only [laneSources, objKey, Obj.CF_ROLE, Obj.CLK_STATE, Obj.PWR_STATE, Obj.PWR_PARK_LINK, Obj.RG_LSTATE, List.mem_cons,
    List.not_mem_nil, or_false]
  omega

theorem laneSideKey_eq_false (hk : k < 0x400000 ∨ 0x410000 ≤ k) (hsource : k ∉ laneSources) : laneSideKey k = false := by
  have hrange : ¬(0x400000 ≤ k ∧ k < 0x410000) := by omega
  simpa [laneSideKey, hsource] using fun hlo hhi => hrange ⟨hlo, hhi⟩

/-- An object of a hub port is none of them. -/
theorem laneSideKey_port {sub : Nat} (hk : k < 8) (hsub : sub < 256) : laneSideKey (objKey (0x3410 + k) sub) = false := by
  refine laneSideKey_eq_false (.inl (by simp only [objKey]; omega)) ?_
  simp only [laneSources, objKey, Obj.CF_ROLE, Obj.CLK_STATE, Obj.PWR_STATE, Obj.PWR_PARK_LINK, Obj.RG_LSTATE, List.mem_cons,
    List.not_mem_nil, or_false]
  omega

/-- An object of a south link is none of them. -/
theorem laneSideKey_south {sub : Nat} (hk : k < 8) (hsub : sub < 256) : laneSideKey (objKey (0x4420 + k) sub) = false := by
  refine laneSideKey_eq_false (.inr (by simp only [objKey]; omega)) ?_
  simp only [laneSources, objKey, Obj.CF_ROLE, Obj.CLK_STATE, Obj.PWR_STATE, Obj.PWR_PARK_LINK, Obj.RG_LSTATE, List.mem_cons,
    List.not_mem_nil, or_false]
  omega

theorem laneSideKey_condCnt (n : Nat) : laneSideKey (Obj.FLT_COND_CNT n) = false := by
  refine laneSideKey_eq_false (.inr (by simp only [Obj.FLT_COND_CNT, objKey]; omega)) ?_
  simp only [laneSources, Obj.FLT_COND_CNT, objKey, Obj.CF_ROLE, Obj.CLK_STATE, Obj.PWR_STATE, Obj.PWR_PARK_LINK, Obj.RG_LSTATE,
    List.mem_cons, List.not_mem_nil, or_false]
  omega

theorem ne_of_laneSideKey (hk : laneSideKey k = false) (hj : laneSideKey j = true) : j ≠ k :=
  fun e => Bool.false_ne_true (hk.symm.trans (e ▸ hj))

/-! ### What lanes and links keep as they follow -/

/-- Outside objects, s has the lanes, the memories, the synthesisers, the pins and the power unit of t. -/
structure State.SameLanes (t s : State) : Prop where
  lanes : t.lanes = s.lanes
  memories : t.keepsMemories s
  synth : t.synthLost = s.synthLost
  test : t.pinTest = s.pinTest
  power : t.power = s.power

theorem State.SameLanes.lane (h : t.SameLanes s) (i : Nat) : t.lane i = s.lane i := congrArg (·.get (laneFin i)) h.lanes

/-- Lanes and links have followed from s: the memories, the synthesisers and the objects that no lane follows with are as they were,
a lane that has lost lock still signals it or is in L2, N_RX is not LOCKED anew, and it stays where it is while it is wanted in L0.
The north link's state may differ where l is true. -/
structure State.Followed (l : Bool) (t s : State) : Prop where
  memories : t.keepsMemories s
  synth : t.synthLost = s.synthLost
  test : t.pinTest = s.pinTest
  power : t.power = s.power
  parked : t.o Obj.PWR_STATE = 2 ↔ s.o Obj.PWR_STATE = 2
  objs : ∀ k, laneSideKey k = true → followedKey k = false → t.o k = s.o k
  lstate : l = false → t.o Obj.RG_LSTATE = s.o Obj.RG_LSTATE
  lost : ∀ j : Lane, s.pstate j = 2 ∨ (s.lane j).lol = true → t.pstate j = 2 ∨ (t.lane j).lol = true
  unlocked : s.locked 8 = false → t.locked 8 = false
  waits : s.pstate 8 = 0 → s.laneWant 8 = 0 → t.pstate 8 = 0 ∧ t.astate 8 = s.astate 8

/-- The objects on which the request for N_RX rests, but PWR_STATE. -/
def rxWantSources : List Nat := [Obj.CF_ROLE, Obj.CLK_STATE, Obj.PWR_PARK_LINK, Obj.LN_PCTRL 8]

/-- What N_RX is asked for rests on the role, the clock, the pins, LN_PCTRL, Parked and PWR_PARK_LINK (R299, R523). -/
theorem State.laneWant_rx_congr (hobj : ∀ k ∈ rxWantSources, t.o k = s.o k) (hparked : t.o Obj.PWR_STATE = 2 ↔ s.o Obj.PWR_STATE = 2)
    (htest : t.pinTest = s.pinTest) (hpower : t.power = s.power) : t.laneWant 8 = s.laneWant 8 := by
  have hrole := hobj Obj.CF_ROLE (by decide)
  have hclk := hobj Obj.CLK_STATE (by decide)
  have hlink := hobj Obj.PWR_PARK_LINK (by decide)
  have hpctrl := hobj (Obj.LN_PCTRL 8) (by decide)
  simp only [State.laneWant, State.laneUsed, State.laneOwner, State.flag, hrole, hclk, hlink, hpctrl, hparked, htest, hpower]
  simp

/-- None of them changes as lanes and links follow. -/
theorem rxWantSources_kept : ∀ k ∈ rxWantSources, laneSideKey k = true ∧ followedKey k = false := by decide

theorem State.Followed.laneWant (h : t.Followed l s) : t.laneWant 8 = s.laneWant 8 :=
  State.laneWant_rx_congr (fun k hk => h.objs k (rxWantSources_kept k hk).1 (rxWantSources_kept k hk).2) h.parked h.test h.power

theorem State.Followed.trans (h : u.Followed l t) (h' : t.Followed l s) : u.Followed l s where
  memories := State.keepsMemories_trans h.memories h'.memories
  synth := h.synth.trans h'.synth
  test := h.test.trans h'.test
  power := h.power.trans h'.power
  parked := h.parked.trans h'.parked
  objs k hk hf := (h.objs k hk hf).trans (h'.objs k hk hf)
  lstate hl := (h.lstate hl).trans (h'.lstate hl)
  lost j hj := h.lost j (h'.lost j hj)
  unlocked hu := h.unlocked (h'.unlocked hu)
  waits hp hw := by
    obtain ⟨hp', ha'⟩ := h'.waits hp hw
    obtain ⟨hp'', ha''⟩ := h.waits hp' (h'.laneWant.trans hw)
    exact ⟨hp'', ha''.trans ha'⟩

/-- Where the lanes and their objects are as they were, only PWR_STATE and RG_LSTATE are to be looked at. -/
theorem State.Followed.of_sameLanes (h : t.SameLanes s) (hparked : t.o Obj.PWR_STATE = 2 ↔ s.o Obj.PWR_STATE = 2)
    (hobj : ∀ k, laneSideKey k = true → k ≠ Obj.PWR_STATE → k ≠ Obj.RG_LSTATE → t.o k = s.o k)
    (hl : l = false → t.o Obj.RG_LSTATE = s.o Obj.RG_LSTATE) : t.Followed l s := by
  have hobjs (k : Nat) (hk : laneSideKey k = true) (hf : followedKey k = false) : t.o k = s.o k := by
    refine hobj k hk (fun e => ?_) fun e => ?_
    · rw [e] at hf; exact absurd hf (by decide)
    · rw [e] at hf; exact absurd hf (by decide)
  have hp (i : Nat) (hi : i < 25) : t.pstate i = s.pstate i :=
    hobj _ (laneSideKey_lane hi (by decide)) (by simp only [Obj.LN_PSTATE, Obj.PWR_STATE, objKey]; omega)
      (by simp only [Obj.LN_PSTATE, Obj.RG_LSTATE, objKey]; omega)
  have ha : t.astate 8 = s.astate 8 := hobj _ (by decide) (by decide) (by decide)
  refine ⟨h.memories, h.synth, h.test, h.power, hparked, hobjs, hl, fun j hj => ?_, fun hu => ?_, fun hp8 _ => ⟨?_, ha⟩⟩
  · rw [hp j j.isLt, h.lane]; exact hj
  · simpa only [State.locked, hp 8 (by decide), ha] using hu
  · rw [hp 8 (by decide)]; exact hp8

theorem State.Followed.of_obj (h : t.SameLanes s) (ho : t.obj = s.obj) : t.Followed l s :=
  .of_sameLanes h (by rw [State.o_congr ho]) (fun k _ _ _ => State.o_congr ho k) fun _ => State.o_congr ho _

theorem State.Followed.refl (s : State) : s.Followed l s := .of_obj ⟨rfl, ⟨rfl, rfl, rfl⟩, rfl, rfl, rfl⟩ rfl

theorem State.Followed.frame (h : t.Followed l s) (hu : u.SameLanes t) (ho : u.obj = t.obj) : u.Followed l s :=
  (State.Followed.of_obj hu ho).trans h

/-- What has followed from s as long as only objects of other parts differ. -/
theorem State.Followed.of_others (h : t.SameLanes s) (hobj : ∀ k, laneSideKey k = true → t.o k = s.o k) : t.Followed l s :=
  .of_sameLanes h (by rw [hobj _ (by decide)]) (fun k hk _ _ => hobj k hk) fun _ => hobj _ (by decide)

theorem State.Followed.write (s : State) (hk : laneSideKey k = false) (v : Nat) : (s.setO k v).Followed l s :=
  .of_others ⟨rfl, ⟨rfl, rfl, rfl⟩, rfl, rfl, rfl⟩ fun _ hj => s.o_setO_ne v (ne_of_laneSideKey hk hj)

theorem State.Followed.setO (h : t.Followed l s) (hk : laneSideKey k = false) (v : Nat) : (t.setO k v).Followed l s :=
  (State.Followed.write t hk v).trans h

theorem State.Followed.bump (h : t.Followed l s) (hk : laneSideKey k = false) : (t.bump k).Followed l s := h.setO hk _

theorem State.Followed.setOb (h : t.Followed l s) (hk : laneSideKey k = false) (n : Nat) (b : Bool) : (t.setOb k n b).Followed l s :=
  h.setO hk _

theorem State.Followed.ite {c : Prop} [Decidable c] (ht : t.Followed l s) (hu : u.Followed l s) :
    (if c then t else u).Followed l s := by
  split
  · exact ht
  · exact hu

theorem State.Followed.foldl {β : Type} {step : State → β → State} {xs : List β} (h : ∀ x ∈ xs, ∀ v, (step v x).Followed l v)
    (s : State) : (xs.foldl step s).Followed l s := by
  induction xs generalizing s with
  | nil => exact .refl s
  | cons x xs ih => exact (ih (fun y hy => h y (List.mem_cons_of_mem x hy)) _).trans (h x (by simp) s)

/-! ### The flags (R522, R550 to R554) -/

theorem State.refreshFaultN_followed (s : State) : s.refreshFaultN.Followed l s := .ite (.refl s) (.write s (by decide) _)

theorem State.endIf_followed (s : State) (n : Nat) (gone : Bool) : (s.endIf n gone).Followed l s :=
  .ite (.write s (by decide) _) (.refl s)

theorem State.dieCond_followed (s : State) : s.dieCond.Followed l s := .ite (.refl s) (.write s (by decide) _)

theorem State.stage_followed (s : State) (code cls unit : Nat) (d : List Byte) : (s.stage code cls unit d).Followed l s :=
  .ite (.write s (by decide) _) (.of_obj ⟨rfl, ⟨rfl, rfl, rfl⟩, rfl, rfl, rfl⟩ rfl)

theorem State.ariseIf_followed (s : State) (n : Nat) : (s.ariseIf n).Followed l s := by
  have hset := ((State.Followed.refl (l := l) s).setOb (k := Obj.FLT_ACTIVE) (by decide) n true).setOb (k := Obj.FLT_LATCHED)
    (by decide) n true
  exact .ite (.refl s) ((State.refreshFaultN_followed _).trans (hset.bump (laneSideKey_condCnt n)))

theorem State.portCond_followed (s : State) : s.portCond.Followed l s :=
  .ite ((State.ariseIf_followed _ 12).trans (s.stage_followed _ _ _ _)) (.refl s)

/-- Run and Degraded change into each other; neither is Parked (R521, R522). -/
theorem State.runState_followed (s : State) :
    (if s.inRun then s.setO Obj.PWR_STATE (if s.degrNow = 0 then 3 else 5) else s).Followed l s := by
  split
  case isFalse => exact .refl s
  case isTrue hrun =>
    have hpark : ¬s.o Obj.PWR_STATE = 2 := by
      intro h
      simp [State.inRun, h] at hrun
    refine .of_sameLanes ⟨rfl, ⟨rfl, rfl, rfl⟩, rfl, rfl, rfl⟩ ?_ (fun k _ hk _ => s.o_setO_ne _ hk) fun _ => s.o_setO_ne _ (by decide)
    rw [State.o_setO_self]
    split <;> simp [hpark]

theorem State.settle_followed (s : State) : s.settle.Followed l s :=
  (State.refreshFaultN_followed _).trans <| (State.dieCond_followed _).trans <| (State.portCond_followed _).trans <|
    (State.endIf_followed _ _ _).trans <| (State.endIf_followed _ _ _).trans <| (State.endIf_followed _ _ _).trans <|
    (State.endIf_followed _ _ _).trans <| (State.endIf_followed _ _ _).trans s.runState_followed

/-! ### The lanes (R289, R298 to R300) -/

/-- A lane that moves to L2, or from L0 to L1 without a change of its lock; N_RX moves only where it is not wanted in L0. -/
theorem State.Followed.of_lane (hi : i < 25) (hwant : i = 8 → s.laneWant 8 ≠ 0)
    (hframe : { t with obj := s.obj, lanes := s.lanes } = s)
    (hobj : t.keepsObjects s [Obj.LN_PSTATE i, Obj.LN_ASTATE i, Obj.LN_RATE i])
    (hlanes : ∀ j : Lane, j.val ≠ i → t.lane j = s.lane j)
    (hmove : t.pstate i = 2 ∨ t.pstate i = 1 ∧ s.pstate i = 0 ∧ (t.lane i).lol = (s.lane i).lol) : t.Followed l s := by
  have hout (k : Nat) (hk : followedKey k = false ∨ k ∈ laneSources) : t.o k = s.o k := by
    refine hobj k fun hmem => ?_
    obtain ⟨sub, hsub, rfl⟩ : ∃ sub ∈ [2, 4, 5], k = objKey (0x4010 + i) sub := by
      simpa [Obj.LN_PSTATE, Obj.LN_ASTATE, Obj.LN_RATE] using hmem
    rcases hk with hk | hk
    · exact absurd ((followedKey_laneState hi hsub).symm.trans hk) (by decide)
    · exact lane_notMem_sources hi (by simp at hsub; omega) hk
  have hother (j : Nat) (sub : Nat) (hj : j ≠ i) (hsub : sub < 256) : t.o (objKey (0x4010 + j) sub) = s.o (objKey (0x4010 + j) sub) := by
    refine hobj _ ?_
    simp only [Obj.LN_PSTATE, Obj.LN_ASTATE, Obj.LN_RATE, objKey, List.mem_cons, List.not_mem_nil, or_false]
    omega
  have hpark := hout Obj.PWR_STATE (.inr (by decide))
  refine ⟨⟨(congrArg State.spm hframe :), (congrArg State.rankMem hframe :), (congrArg State.nvm hframe :)⟩,
    (congrArg State.synthLost hframe :), (congrArg State.pinTest hframe :), (congrArg State.power hframe :), by rw [hpark],
    fun k _ hf => hout k (.inl hf), fun _ => hout _ (.inr (by decide)), fun j hj => ?_, fun hu => ?_, fun hp hw => ?_⟩
  · by_cases hji : j.val = i
    · subst hji
      rcases hmove with h2 | ⟨-, hp, hlol⟩
      · exact .inl h2
      · rw [hlol]
        exact .inr (hj.resolve_left (by rw [hp]; decide))
    · rw [hlanes j hji, State.pstate, Obj.LN_PSTATE, hother j 2 hji (by decide)]
      exact hj
  · by_cases h8 : i = 8
    · subst h8
      have hp : t.pstate 8 ≠ 0 := by rcases hmove with h | ⟨h, -⟩ <;> rw [h] <;> decide
      simp [State.locked, hp]
    · simpa only [State.locked, State.pstate, State.astate, Obj.LN_PSTATE, Obj.LN_ASTATE, hother 8 2 (Ne.symm h8) (by decide),
        hother 8 4 (Ne.symm h8) (by decide)] using hu
  · have h8 : i ≠ 8 := fun h => hwant h hw
    exact ⟨(hother 8 2 h8.symm (by decide)).trans hp, hother 8 4 h8.symm (by decide)⟩

theorem State.lane_setLane_of_ne (s : State) (x : LaneUnit) (hi : i < 25) {j : Lane} (h : j.val ≠ i) :
    (s.setLane i x).lane j = s.lane j := by
  have hne : j ≠ ⟨i, hi⟩ := fun e => h (congrArg Fin.val e)
  exact State.lane_setLane_ne (i := ⟨i, hi⟩) s x hne

theorem State.keepsObjects_setLane {ks : List Nat} (h : t.keepsObjects s ks) (x : LaneUnit) : (t.setLane i x).keepsObjects s ks := h

theorem lnPstate_ne (i : Nat) : Obj.LN_PSTATE i ≠ Obj.LN_RATE i ∧ Obj.LN_PSTATE i ≠ Obj.LN_ASTATE i := by
  simp [Obj.LN_PSTATE, Obj.LN_RATE, Obj.LN_ASTATE, objKey]

theorem State.pstate_laneL2 (s : State) (i : Nat) : (s.laneL2 i).pstate i = 2 := by
  simp only [State.pstate, State.laneL2, State.o_setLane]
  rw [State.o_setO_ne _ _ (lnPstate_ne i).1, State.o_setO_ne _ _ (lnPstate_ne i).2, State.o_setO_self]

theorem State.laneL2_keepsObjects (s : State) (i : Nat) :
    (s.laneL2 i).keepsObjects s [Obj.LN_PSTATE i, Obj.LN_ASTATE i, Obj.LN_RATE i] := by
  unfold State.laneL2
  exact State.keepsObjects_setLane (State.keepsObjects_setO (State.keepsObjects_setO (State.keepsObjects_setO
    (State.keepsObjects_refl s _) (by simp) _) (by simp) _) (by simp) _) _

theorem State.laneL2_followed (s : State) (hi : i < 25) (hwant : i = 8 → s.laneWant 8 ≠ 0) : (s.laneL2 i).Followed l s :=
  .of_lane hi hwant rfl (s.laneL2_keepsObjects i) (fun _ hj => State.lane_setLane_of_ne _ _ hi hj) (.inl (s.pstate_laneL2 i))

theorem State.laneL1_keepsObjects (s : State) (i : Nat) :
    (s.laneL1 i).keepsObjects s [Obj.LN_PSTATE i, Obj.LN_ASTATE i, Obj.LN_RATE i] := by
  unfold State.laneL1
  exact State.keepsObjects_setLane (State.keepsObjects_setO (State.keepsObjects_setO (State.keepsObjects_refl s _) (by simp) _)
    (by simp) _) _

theorem State.laneL1_followed (s : State) (hi : i < 25) (hp : s.pstate i = 0) (hwant : i = 8 → s.laneWant 8 ≠ 0) :
    (s.laneL1 i).Followed l s := by
  refine .of_lane hi hwant rfl (s.laneL1_keepsObjects i) (fun _ hj => State.lane_setLane_of_ne _ _ hi hj) (.inr ⟨?_, hp, ?_⟩)
  · simp only [State.pstate, State.laneL1, State.o_setLane]
    rw [State.o_setO_ne _ _ (lnPstate_ne i).2, State.o_setO_self]
  · unfold State.laneL1
    rw [State.lane_setLane_self]

theorem State.laneFollow_followed (s : State) (hi : i < 25) : (s.laneFollow i).Followed l s := by
  unfold State.laneFollow
  dsimp only
  split
  case isTrue h => exact s.laneL2_followed hi fun h8 => by rw [← h8, h.2]; decide
  case isFalse =>
    split
    case isTrue h => exact s.laneL1_followed hi h.1 fun h8 => by rw [← h8, h.2]; decide
    case isFalse => exact .refl s

theorem State.lanesFollow_followed (s : State) : s.lanesFollow.Followed l s :=
  .foldl (fun _ hi v => v.laneFollow_followed (List.mem_range.mp hi)) s

/-! ### The hub's ports (R214, R218, R220, R225) -/

theorem State.setPortState_followed (s : State) (hk : k < 8) (v : Nat) : (s.setPortState k v).Followed l s := by
  have hset : ((s.setO (Obj.HUB_PSTATE k) v).setOb Obj.HUB_PORT_UP k (v == 3)).Followed l s :=
    (State.Followed.write s (laneSideKey_port hk (by decide)) v).setOb (by decide) k _
  exact .ite (hset.bump (laneSideKey_port hk (by decide))) hset

theorem State.closeAt_followed (s : State) (n reason : Nat) (hk : k < 8) : (s.closeAt n (k + 1) reason).Followed l s := by
  have hframe := s.closeAt_keepsButRecords n (k + 1) reason
  refine .of_others ⟨(congrArg State.lanes hframe :), hframe.memories, (congrArg State.synthLost hframe :),
    (congrArg State.pinTest hframe :), (congrArg State.power hframe :)⟩ fun key hkey => ?_
  refine s.closeAt_keepsObjects n (k + 1) reason key ?_
  have hne : key ≠ Obj.HUB_ABSENT k := ne_of_laneSideKey (laneSideKey_port hk (by decide)) hkey
  simpa using hne

theorem State.recordOut_followed (s : State) (r : MRec) (rs : List MRec) : ((s.recordOut r rs).withCluster r).Followed l s := by
  obtain ⟨hframe, hkeeps⟩ := s.recordOut_keeps r rs
  have hkeys : ∀ k ∈ releaseKeys, laneSideKey k = false := by decide
  exact .of_others ⟨(congrArg State.lanes hframe :),
    ⟨(congrArg State.spm hframe :), (congrArg State.rankMem hframe :), (congrArg State.nvm hframe :)⟩,
    (congrArg State.synthLost hframe :), (congrArg State.pinTest hframe :), (congrArg State.power hframe :)⟩
    fun key hkey => hkeeps key fun hmem => Bool.false_ne_true ((hkeys key hmem).symm.trans hkey)

theorem State.releaseRecs_followed (n : Nat) (s : State) : (s.releaseRecs n).Followed l s := by
  induction n generalizing s with
  | zero => exact .refl s
  | succ n ih =>
    cases hrecs : s.hub.recs with
    | nil => rw [State.releaseRecs_waits (by simp [hrecs])]; exact .refl s
    | cons r rs =>
      cases hdone : r.done with
      | false => rw [State.releaseRecs_waits (by simp [hrecs, hdone])]; exact .refl s
      | true =>
        rw [State.releaseRecs_done hrecs hdone]
        exact (ih _).trans (s.recordOut_followed r rs)

theorem State.closePort_followed (s : State) (hk : k < 8) : (s.closePort k).Followed l s :=
  (State.releaseRecs_followed _ _).trans (.foldl (fun n _ v => v.closeAt_followed n 1 hk) s)

theorem State.noteEvent_followed (s : State) (f : Nat) (c : Ch) (n us : Nat) : (s.noteEvent f c n us).Followed l s :=
  .ite (.of_obj ⟨rfl, ⟨rfl, rfl, rfl⟩, rfl, rfl, rfl⟩ rfl) (.of_obj ⟨rfl, ⟨rfl, rfl, rfl⟩, rfl, rfl, rfl⟩ rfl)

/-! ### The south links (R214, R314, R330, R345) -/

theorem State.linkDown_south_followed (s : State) (k : Port) (keep : Bool) : (s.linkDown (.south k) keep).Followed l s :=
  .of_others ⟨rfl, ⟨rfl, rfl, rfl⟩, rfl, rfl, rfl⟩
    fun _ hj => s.o_setO_ne 0 (ne_of_laneSideKey (laneSideKey_south k.isLt (by decide)) hj)

theorem State.enterCaps_south_followed (s : State) (k : Port) : (s.enterCaps (.south k)).Followed l s :=
  .of_others ⟨rfl, ⟨rfl, rfl, rfl⟩, rfl, rfl, rfl⟩
    fun _ hj => s.o_setO_ne 1 (ne_of_laneSideKey (laneSideKey_south k.isLt (by decide)) hj)

theorem State.loseHeld_south_followed (s : State) (k : Port) : (s.loseHeld (.south k)).Followed l s := by
  let v : State := s.setTx (.south k) { s.tx (.south k) with held := [], ptr := (s.tx (.south k)).next, stalled := false }
  let bs := (s.tx (.south k)).held.flatMap (·.blocks)
  have hframe := v.releaseAll_keepsButPool .replay bs
  have hkeys : ∀ k ∈ [Obj.POOL_DOUBLE, Obj.POOL_FOREIGN], laneSideKey k = false := by decide
  have hrelease : (v.releaseAll .replay bs).Followed l s :=
    .of_others ⟨(congrArg State.lanes hframe :), ⟨(State.releaseAll_kept .replay bs v).2, hframe.stores.1, hframe.stores.2⟩,
      (congrArg State.synthLost hframe :), (congrArg State.pinTest hframe :), (congrArg State.power hframe :)⟩
      fun key hkey => State.releaseAll_keepsObjects .replay bs v key
        fun hmem => Bool.false_ne_true ((hkeys key hmem).symm.trans hkey)
  exact hrelease.setO (laneSideKey_south k.isLt (by decide)) _

theorem State.portOff_followed (s : State) (hk : k < 8) : (s.portOff k).Followed l s := by
  unfold State.portOff
  split
  case isFalse => exact .refl s
  case isTrue =>
    have hport (p : HubPort) : ((s.setPortState k 0).setPort k p).Followed l s :=
      (s.setPortState_followed hk 0).frame ⟨rfl, ⟨rfl, rfl, rfl⟩, rfl, rfl, rfl⟩ rfl
    exact (State.settle_followed _).trans <| (State.laneL2_followed _ (by omega) (by omega)).trans <|
      (State.laneL2_followed _ (by omega) (by omega)).trans <| (State.loseHeld_south_followed _ _).trans <|
      (State.linkDown_south_followed _ _ _).trans (hport _)

/-- A port leaves UP: it is noted, and raises its condition where it is enabled (R536, R550). -/
theorem State.southDown_followed (s : State) (hk : k < 8) (keep : Bool) : (s.southDown k keep).Followed l s := by
  have hdown (p : HubPort) : ((s.linkDown (.south (portFin k)) keep).setPort k p).Followed l s :=
    (s.linkDown_south_followed (portFin k) keep).frame ⟨rfl, ⟨rfl, rfl, rfl⟩, rfl, rfl, rfl⟩ rfl
  have hcond (v : State) : (if v.ob Obj.HUB_PORT_EN k && !v.ob Obj.FLT_ACTIVE 12 then (v.stage 0x0503 0 k (bytesLE 1 4)).ariseIf 12
      else v).Followed l v :=
    .ite ((State.ariseIf_followed _ 12).trans (State.stage_followed _ _ _ _ _)) (.refl v)
  unfold State.southDown
  dsimp only
  split
  · exact (State.settle_followed _).trans <| (State.portOff_followed _ hk).trans <| (State.closePort_followed _ hk).trans <|
      (hcond _).trans <| (State.noteEvent_followed _ _ _ _ _).trans <| (State.setPortState_followed _ hk 4).trans (hdown _)
  · exact (State.portOff_followed _ hk).trans <| (State.setPortState_followed _ hk 1).trans (hdown _)
  · exact hdown _

theorem State.clockRate_followed (s : State) (hk : k < 8) : (s.clockRate k).Followed l s :=
  .ite ((State.laneL2_followed (s.setSouthRate k 3) (by omega) (by omega)).trans
    ((State.Followed.refl s).frame ⟨rfl, ⟨rfl, rfl, rfl⟩, rfl, rfl, rfl⟩ rfl)) (.refl s)

theorem State.southFollow_followed (s : State) (hk : k < 8) : (s.southFollow k).Followed l s := by
  unfold State.southFollow
  dsimp only
  refine .ite (.ite (.refl s) (s.linkDown_south_followed _ true)) (.ite ?_ (.ite (.refl s) (.ite ?_ (.refl s))))
  · have hleaves : (if (s.o (Obj.RG_SSTATE k) = 1 ∨ s.o (Obj.RG_SSTATE k) = 3) ∧ s.sends (17 + k) = false then s.southDown k true
        else s).Followed l s :=
      .ite (s.southDown_followed hk true) (.refl s)
    have hlink (v : State) : (if v.o (Obj.HUB_PSTATE k) = 1 ∨ v.o (Obj.HUB_PSTATE k) = 4 then v.setPortState k 2
        else v).Followed l v :=
      .ite (v.setPortState_followed hk 2) (.refl v)
    exact .ite ((State.enterCaps_south_followed _ _).trans ((hlink _).trans hleaves)) ((hlink _).trans hleaves)
  · exact (State.clockRate_followed _ hk).trans (s.southDown_followed hk true)

/-! ### The north link (R293, R314, R320) -/

theorem State.Followed.linkState (s : State) (v : Nat) : (s.setO Obj.RG_LSTATE v).Followed true s :=
  .of_sameLanes ⟨rfl, ⟨rfl, rfl, rfl⟩, rfl, rfl, rfl⟩ (by rw [State.o_setO_ne _ _ (by decide)]) (fun _ _ _ hl => s.o_setO_ne v hl)
    fun h => absurd h (by decide)

/-- The north link enters DOWN, and the lanes follow nothing but its state. -/
theorem State.northDown_followed (h : s.o Obj.RG_LSTATE ≠ 0) (keep : Bool) :
    (s.northDown keep).Followed l (s.setO Obj.RG_LSTATE 0) := by
  have hdown : (s.linkDown .north keep).Followed l (s.setO Obj.RG_LSTATE 0) :=
    .of_obj ⟨rfl, ⟨rfl, rfl, rfl⟩, rfl, rfl, rfl⟩ rfl
  have hdrop : (s.linkDown .north keep).tpDropAll.Followed l (s.setO Obj.RG_LSTATE 0) :=
    (hdown.setO (k := Obj.TP_DROP) (by decide) _).frame ⟨rfl, ⟨rfl, rfl, rfl⟩, rfl, rfl, rfl⟩ rfl
  have hmap := hdrop.setO (k := Obj.RG_LANEMAP) (by decide) 0
  unfold State.northDown
  rw [if_neg h]
  dsimp only
  split
  · exact (State.settle_followed _).trans <| (State.ariseIf_followed _ 11).trans <| (State.stage_followed _ _ _ _ _).trans <|
      hmap.frame ⟨rfl, ⟨rfl, rfl, rfl⟩, rfl, rfl, rfl⟩ rfl
  · exact (State.settle_followed _).trans (hmap.frame ⟨rfl, ⟨rfl, rfl, rfl⟩, rfl, rfl, rfl⟩ rfl)

theorem State.northDown_followed_open (s : State) (keep : Bool) : (s.northDown keep).Followed true s := by
  by_cases h : s.o Obj.RG_LSTATE = 0
  · unfold State.northDown
    rw [if_pos h]
    exact .refl s
  · exact (State.northDown_followed h keep).trans (.linkState s 0)

theorem State.rewindMark_north_followed (s : State) : (s.rewindMark .north).Followed l s := by
  unfold State.rewindMark
  split
  · exact State.Followed.bump (k := Obj.RG_REWINDS) ((State.Followed.refl s).frame ⟨rfl, ⟨rfl, rfl, rfl⟩, rfl, rfl, rfl⟩ rfl) (by decide)
  · exact .refl s

theorem State.bundleEvent_followed (s : State) (lane cause : Nat) : (s.bundleEvent lane cause).Followed l s :=
  .ite ((State.ariseIf_followed _ 10).trans (s.stage_followed _ _ _ _)) (.refl s)

theorem State.restripe_followed (s : State) : s.restripe.Followed true s := by
  unfold State.restripe
  dsimp only
  have hmap := (State.Followed.write (l := true) s (k := Obj.RG_LANEMAP) (by decide) (s.o Obj.RG_LANEMAP &&& s.eligible)).bump
    (k := Obj.RG_RESTRIPE) (by decide)
  exact .ite (.refl s) <| .ite (s.northDown_followed_open true) <| (State.settle_followed _).trans <|
    (State.bundleEvent_followed _ _ _).trans <| (State.rewindMark_north_followed _).trans <|
    hmap.frame ⟨rfl, ⟨rfl, rfl, rfl⟩, rfl, rfl, rfl⟩ rfl

theorem State.northFollow_followed (s : State) : s.northFollow.Followed true s := by
  unfold State.northFollow
  split
  · exact .ite ((State.Followed.linkState s 1).frame ⟨rfl, ⟨rfl, rfl, rfl⟩, rfl, rfl, rfl⟩ rfl) (.refl s)
  · exact .ite (.refl s) (s.northDown_followed_open true)
  · exact .ite (.refl s) (s.northDown_followed_open true)
  · exact .ite s.restripe_followed (s.northDown_followed_open true)

/-- In UP with N_RX out of LOCKED the link goes DOWN (R314). -/
theorem State.northFollow_down (hup : s.o Obj.RG_LSTATE = 3) (h : s.locked 8 = false) : s.northFollow.o Obj.RG_LSTATE = 0 := by
  have hdown : s.northFollow = s.northDown true := by simp [State.northFollow, hup, h]
  rw [hdown, (State.northDown_followed (l := false) (by rw [hup]; decide) true).lstate rfl, State.o_setO_self]

/-! ### Everything follows -/

/-- The steps of following after the north link's. -/
def State.followSouth (s : State) : State :=
  (if s.isHub then (List.range 8).foldl State.southFollow s else s).lanesFollow.northHand.settle

theorem State.follow_eq (s : State) : s.follow = s.lanesFollow.northFollow.followSouth := rfl

theorem State.northHand_followed (s : State) : s.northHand.Followed l s :=
  .ite ((State.Followed.refl s).frame ⟨rfl, ⟨rfl, rfl, rfl⟩, rfl, rfl, rfl⟩ rfl) (.refl s)

theorem State.followSouth_followed (s : State) : s.followSouth.Followed l s :=
  (State.settle_followed _).trans <| (State.northHand_followed _).trans <| (State.lanesFollow_followed _).trans <|
    .ite (.foldl (fun _ hk v => v.southFollow_followed (List.mem_range.mp hk)) s) (.refl s)

theorem State.follow_followed (s : State) : s.follow.Followed true s :=
  (State.followSouth_followed _).trans (s.lanesFollow.northFollow_followed.trans s.lanesFollow_followed)

/-- With N_RX out of LOCKED a north link in UP is DOWN once all has followed (R314). -/
theorem State.follow_down (hup : s.o Obj.RG_LSTATE = 3) (h : s.locked 8 = false) : s.follow.o Obj.RG_LSTATE = 0 := by
  have hlanes := s.lanesFollow_followed (l := false)
  rw [State.follow_eq, (State.followSouth_followed (l := false) _).lstate rfl]
  exact State.northFollow_down ((hlanes.lstate rfl).trans hup) (hlanes.unlocked h)

end Sys2Proof.Machine
end

section
/-! SUPPORT. Lane events and what they come to before lanes and links follow: falls, losses of lock, exits from L1 and L2, test modes
(R283, R285, R289 to R292, R298, R300, R301). -/
namespace Sys2Proof.Machine

variable {s t : State} {i j n k : Nat}

/-! ### One lane's objects -/

theorem laneKey_ne {sub sub' : Nat} (hsub : sub < 256) (hsub' : sub' < 256) (h : j ≠ i ∨ sub ≠ sub') :
    objKey (0x4010 + j) sub ≠ objKey (0x4010 + i) sub' := by
  simp only [objKey]
  omega

/-- No object of a lane is the north link's state. -/
theorem laneKey_ne_lstate {sub : Nat} (hi : i < 25) (hsub : sub < 256) : objKey (0x4010 + i) sub ≠ Obj.RG_LSTATE :=
  fun e => lane_notMem_sources hi hsub (e ▸ by decide)

theorem State.locked_of_astate (h : s.astate i ≠ 4) : s.locked i = false := by simp [State.locked, h]

theorem State.o_tryScan_ne (s : State) (h : k ≠ Obj.LN_ASTATE i) : (s.tryScan i).o k = s.o k := by
  unfold State.tryScan
  split
  · exact s.o_setO_ne _ h
  · rfl

/-- A receiver in WAIT goes on to SCAN when neither LOS nor LOL stands (R289). -/
theorem State.astate_tryScan (hp : s.pstate i = 0) (ha : s.astate i = 1) :
    (s.tryScan i).astate i = if (s.lane i).los = false ∧ (s.lane i).lol = false then 2 else 1 := by
  unfold State.tryScan
  by_cases hclear : (s.lane i).los = false ∧ (s.lane i).lol = false
  · rw [if_pos ⟨hp, ha, hclear⟩, if_pos hclear, State.astate, State.o_setO_self]
  · rw [if_neg (fun h => hclear h.2.2), if_neg hclear, ha]

theorem State.tryScan_keepsMemories (s : State) (i : Nat) : (s.tryScan i).keepsMemories s := by
  unfold State.tryScan
  split <;> exact ⟨rfl, rfl, rfl⟩

theorem State.follow_keepsMemories (h : t.keepsMemories s) : t.follow.keepsMemories s :=
  State.keepsMemories_trans t.follow_followed.memories h

/-! ### A lane falls out of alignment -/

theorem State.astate_laneFall (s : State) (i v : Nat) : (s.laneFall i v).astate i = v := s.o_setO_self _ v

/-- With N_RX out of LOCKED, a north link in UP goes DOWN (R314). -/
theorem State.laneFall_down {v : Nat} (hv : v ≠ 4) (hi : i = 8) (hup : s.o Obj.RG_LSTATE = 3) (ht : t.obj = (s.laneFall i v).obj) :
    t.follow.o Obj.RG_LSTATE = 0 := by
  subst hi
  refine State.follow_down ?_ (State.locked_of_astate ?_)
  · exact (State.o_congr ht _).trans ((State.o_setO_ne s v (by decide)).trans hup)
  · exact ((State.o_congr ht _).trans (s.astate_laneFall 8 v)).trans_ne hv

/-! ### Loss of lock of one lane (R291) -/

/-- The lane has signalled LOL already, or is in L2. -/
theorem State.laneLol_stands (h : s.pstate i = 2 ∨ (s.lane i).lol = true) : s.laneLol i = s := if_pos h

theorem State.laneLol_tx (hp : s.pstate i ≠ 2) (hl : (s.lane i).lol = false) (htx : isRx i = false) :
    s.laneLol i = (s.bump (Obj.LN_LOL_CNT i)).setLane i { s.lane i with lol := true } := by
  have hfree : ¬(s.pstate i = 2 ∨ (s.lane i).lol = true) := by simp [hp, hl]
  simp only [State.laneLol, if_neg hfree, htx, Bool.false_eq_true, if_false]

theorem State.laneLol_rx (hp : s.pstate i ≠ 2) (hl : (s.lane i).lol = false) (hrx : isRx i = true) :
    s.laneLol i = ((s.bump (Obj.LN_LOL_CNT i)).setLane i { s.lane i with lol := true }).laneFall i 1 := by
  have hfree : ¬(s.pstate i = 2 ∨ (s.lane i).lol = true) := by simp [hp, hl]
  simp only [State.laneLol, if_neg hfree, hrx, if_true]

/-! ### Loss of lock of a synthesiser (R306) -/

/-- What a fold reads in one place stays when no step writes there. -/
theorem foldl_view {α β : Type} {step : State → α → State} (view : State → β) {js : List α}
    (h : ∀ a ∈ js, ∀ v, view (step v a) = view v) (s : State) : view (js.foldl step s) = view s := by
  induction js generalizing s with
  | nil => rfl
  | cons a js ih => exact (ih (fun b hb => h b (List.mem_cons_of_mem a hb)) _).trans (h a (by simp) s)

/-- Where each of the fold's steps writes in a place of its own, the place of one of them reads what that step alone makes of it. -/
theorem foldl_view_own {α β : Type} {step : State → α → State} (view : State → β) {a : α} {js : List α} (hjs : js.Nodup)
    (ha : a ∈ js) (hother : ∀ b ∈ js, b ≠ a → ∀ v, view (step v b) = view v)
    (hown : ∀ v w, view v = view w → view (step v a) = view (step w a))
    (s : State) : view (js.foldl step s) = view (step s a) := by
  obtain ⟨xs, ys, rfl⟩ := List.append_of_mem ha
  have hnot : a ∉ xs ∧ a ∉ ys := by
    have := List.nodup_middle.mp hjs
    simpa using (List.nodup_cons.mp this).1
  rw [List.foldl_append, List.foldl_cons, foldl_view view fun b hb v => hother b (by simp [hb]) (fun e => hnot.2 (e ▸ hb)) v]
  exact hown _ _ (foldl_view view (fun b hb v => hother b (by simp [hb]) (fun e => hnot.1 (e ▸ hb)) v) s)

/-- What a loss of lock reads and writes of a lane: its LOL and alignment, LN_LOL_CNT, LN_ASTATE, LN_PSTATE and LN_RATE. -/
structure LockView where
  unit : LaneUnit
  count : Nat
  align : Nat
  power : Nat
  rate : Nat

/-- The lane as a loss of lock sees it. -/
def State.lockView (s : State) (i : Nat) : LockView :=
  ⟨s.lane i, s.o (Obj.LN_LOL_CNT i), s.astate i, s.pstate i, s.o (Obj.LN_RATE i)⟩

theorem State.lockView_eq : t.lockView i = s.lockView i ↔ t.lane i = s.lane i ∧ t.o (Obj.LN_LOL_CNT i) = s.o (Obj.LN_LOL_CNT i) ∧
    t.astate i = s.astate i ∧ t.pstate i = s.pstate i ∧ t.o (Obj.LN_RATE i) = s.o (Obj.LN_RATE i) :=
  LockView.mk.injEq .. ▸ Iff.rfl

theorem State.laneLol_keepsObjects (s : State) (i : Nat) : (s.laneLol i).keepsObjects s [Obj.LN_LOL_CNT i, Obj.LN_ASTATE i] := by
  have hcount := State.keepsObjects_bump (State.keepsObjects_refl s [Obj.LN_LOL_CNT i, Obj.LN_ASTATE i]) (List.mem_cons_self ..)
  unfold State.laneLol
  dsimp only
  split
  · exact State.keepsObjects_refl s _
  · split
    · exact State.keepsObjects_setO hcount (by simp) _
    · exact hcount

theorem State.laneLol_lane_ne (s : State) (hi : i < 25) {j : Lane} (h : j.val ≠ i) : (s.laneLol i).lane j = s.lane j := by
  unfold State.laneLol State.laneFall
  dsimp only
  split
  · rfl
  · split
    · rw [State.lane_setLane_of_ne _ _ hi h]
      exact State.lane_setLane_of_ne _ _ hi h
    · exact State.lane_setLane_of_ne _ _ hi h

/-- A loss of lock writes nothing in another lane. -/
theorem State.lockView_laneLol_ne (s : State) (hi : i < 25) {j : Lane} (h : j.val ≠ i) : (s.laneLol i).lockView j = s.lockView j := by
  have hkey (sub : Nat) (hsub : sub < 256) : (s.laneLol i).o (objKey (0x4010 + j) sub) = s.o (objKey (0x4010 + j) sub) := by
    refine s.laneLol_keepsObjects i _ ?_
    simpa [Obj.LN_LOL_CNT, Obj.LN_ASTATE] using
      ⟨laneKey_ne hsub (by decide : 0x13 < 256) (.inl h), laneKey_ne hsub (by decide : 4 < 256) (.inl h)⟩
  exact State.lockView_eq.mpr
    ⟨s.laneLol_lane_ne hi h, hkey 0x13 (by decide), hkey 4 (by decide), hkey 2 (by decide), hkey 5 (by decide)⟩

/-- What a loss of lock makes of a lane rests on that lane. -/
theorem State.lockView_laneLol_congr (h : t.lockView i = s.lockView i) : (t.laneLol i).lockView i = (s.laneLol i).lockView i := by
  obtain ⟨hlane, hcount, halign, hpower, hrate⟩ := State.lockView_eq.mp h
  by_cases hstands : s.pstate i = 2 ∨ (s.lane i).lol = true
  · rw [State.laneLol_stands hstands, State.laneLol_stands (by rwa [hpower, hlane]), h]
  · obtain ⟨hp, hl⟩ : s.pstate i ≠ 2 ∧ (s.lane i).lol = false := by simpa using hstands
    have hp' : t.pstate i ≠ 2 := hpower ▸ hp
    have hl' : (t.lane i).lol = false := hlane ▸ hl
    simp only [State.pstate, State.astate] at hpower halign
    cases hrx : isRx i
    · rw [State.laneLol_tx hp hl hrx, State.laneLol_tx hp' hl' hrx]
      simp [State.lockView, State.pstate, State.astate, State.o_bump, hlane, hcount, halign, hpower, hrate]
    · rw [State.laneLol_rx hp hl hrx, State.laneLol_rx hp' hl' hrx]
      simp [State.lockView, State.pstate, State.astate, State.laneFall, State.o_bump, State.o_setO, hlane, hcount, hpower, hrate]

/-- A lane that has not signalled LOL yet, and is out of L2, counts it and signals it. -/
theorem State.laneLol_counts (hp : s.pstate i ≠ 2) (hl : (s.lane i).lol = false) :
    (s.laneLol i).o (Obj.LN_LOL_CNT i) = satAdd 32 (s.o (Obj.LN_LOL_CNT i)) 1 ∧ ((s.laneLol i).lane i).lol = true := by
  cases hrx : isRx i
  · rw [State.laneLol_tx hp hl hrx, State.lane_setLane_self]
    exact ⟨s.o_bump_self _, rfl⟩
  · have hne : Obj.LN_LOL_CNT i ≠ Obj.LN_ASTATE i := by simp [Obj.LN_LOL_CNT, Obj.LN_ASTATE, objKey]
    rw [State.laneLol_rx hp hl hrx]
    simp only [State.laneFall, State.lane_setLane_self, and_true]
    exact (State.o_setO_ne _ _ hne).trans (s.o_bump_self _)

/-- A loss of lock by a synthesiser, as one of the lanes it may serve takes it. -/
def State.servedLol (n : Nat) (s : State) (j : Nat) : State := if s.servedBy j n then s.laneLol j else s

/-- Every lane that the synthesiser serves takes its loss of lock. -/
def State.synthLol (s : State) (n : Nat) : State := (List.range 25).foldl (State.servedLol n) s

theorem State.servedBy_congr (h : t.lockView i = s.lockView i) : t.servedBy i n = s.servedBy i n := by
  obtain ⟨-, -, -, -, hrate⟩ := State.lockView_eq.mp h
  rw [State.servedBy, State.servedBy, hrate]

theorem State.synthLol_view {β : Type} (view : State → β) (h : ∀ i < 25, ∀ v : State, view (v.laneLol i) = view v)
    (s : State) (n : Nat) : view (s.synthLol n) = view s := by
  refine foldl_view view (fun a ha v => ?_) s
  unfold State.servedLol
  split
  · exact h a (List.mem_range.mp ha) v
  · rfl

/-- Each lane that the synthesiser serves loses lock once. -/
theorem State.lockView_synthLol (s : State) (n : Nat) (j : Lane) : (s.synthLol n).lockView j = (s.servedLol n j).lockView j := by
  refine foldl_view_own (·.lockView j) List.nodup_range (List.mem_range.mpr j.isLt) (fun i hi hij v => ?_) (fun v w h => ?_) s
  · unfold State.servedLol
    split
    · exact v.lockView_laneLol_ne (List.mem_range.mp hi) (Ne.symm hij)
    · rfl
  · unfold State.servedLol
    rw [State.servedBy_congr h]
    split
    · exact State.lockView_laneLol_congr h
    · exact h

theorem State.synthLol_counts {j : Lane} (hserved : s.servedBy j n = true) (hp : s.pstate j ≠ 2) (hl : (s.lane j).lol = false) :
    (s.synthLol n).o (Obj.LN_LOL_CNT j) = satAdd 32 (s.o (Obj.LN_LOL_CNT j)) 1 ∧ ((s.synthLol n).lane j).lol = true := by
  have hview := s.lockView_synthLol n j
  rw [State.servedLol, if_pos hserved] at hview
  obtain ⟨hlane, hcount, -⟩ := State.lockView_eq.mp hview
  rw [hlane, hcount]
  exact State.laneLol_counts hp hl

theorem State.synthLol_unserved {j : Lane} (hserved : s.servedBy j n = false) : (s.synthLol n).lockView j = s.lockView j := by
  rw [s.lockView_synthLol n j, State.servedLol, hserved]
  rfl

/-- LPLL1 serves N_RX, which goes to WAIT (R278, R289). -/
theorem State.synthLol_rx (hp : s.pstate 8 = 0) (hl : (s.lane 8).lol = false) :
    (s.synthLol 1).astate 8 = 1 ∧ (s.synthLol 1).pstate 8 = 0 := by
  have hview := s.lockView_synthLol 1 8
  rw [State.servedLol, if_pos (by rfl)] at hview
  obtain ⟨-, -, halign, hpower, -⟩ := State.lockView_eq.mp hview
  refine ⟨halign.trans ?_, hpower.trans ?_⟩
  · exact (congrArg (State.astate · 8) (State.laneLol_rx (by rw [hp]; decide) hl rfl)).trans (State.astate_laneFall _ 8 1)
  · exact (s.laneLol_keepsObjects 8 _ (by decide)).trans hp

/-- Of the objects it writes LN_LOL_CNT and LN_ASTATE of lanes only. -/
theorem State.o_synthLol (s : State) (n : Nat) (h : ∀ i < 25, k ≠ Obj.LN_LOL_CNT i ∧ k ≠ Obj.LN_ASTATE i) :
    (s.synthLol n).o k = s.o k :=
  State.synthLol_view (·.o k) (fun i hi v => v.laneLol_keepsObjects i k (by simpa using h i hi)) s n

theorem State.laneLol_frame (s : State) (i : Nat) : { s.laneLol i with obj := s.obj, lanes := s.lanes } = s := by
  unfold State.laneLol
  dsimp only
  split
  · rfl
  · split <;> rfl

theorem State.synthLol_frame (s : State) (n : Nat) : (s.synthLol n).keepsMemories s ∧ (s.synthLol n).synthLost = s.synthLost ∧
    (s.synthLol n).pinTest = s.pinTest ∧ (s.synthLol n).power = s.power := by
  have hkept {β : Type} (view : State → β) (hview : ∀ (v : State) obj lanes, view { v with obj := obj, lanes := lanes } = view v) :
      view (s.synthLol n) = view s :=
    State.synthLol_view view (fun i _ v => (hview _ _ _).symm.trans (congrArg view (v.laneLol_frame i))) s n
  exact ⟨⟨hkept (·.spm) fun _ _ _ => rfl, hkept (·.rankMem) fun _ _ _ => rfl, hkept (·.nvm) fun _ _ _ => rfl⟩,
    hkept (·.synthLost) fun _ _ _ => rfl, hkept (·.pinTest) fun _ _ _ => rfl, hkept (·.power) fun _ _ _ => rfl⟩

theorem State.laneWant_synthLol (s : State) (n : Nat) : (s.synthLol n).laneWant 8 = s.laneWant 8 := by
  obtain ⟨-, -, htest, hpower⟩ := s.synthLol_frame n
  have hkey : ∀ k ∈ Obj.PWR_STATE :: rxWantSources, ∀ i < 25, k ≠ Obj.LN_LOL_CNT i ∧ k ≠ Obj.LN_ASTATE i := by decide
  refine State.laneWant_rx_congr (fun k hk => s.o_synthLol n (hkey k (List.mem_cons_of_mem _ hk))) ?_ htest hpower
  rw [s.o_synthLol n (hkey _ (List.mem_cons_self ..))]

/-- A synthesiser's loss of lock is counted and marked. -/
def State.markLol (s : State) (n : Nat) : State := { s.bump Obj.LN_SYNTH_LOL with synthLost := setBit s.synthLost n true }

theorem State.lolAssert_synth (n : Fin 2) (h : s.o Obj.CLK_STATE = 3) :
    s.lolAssert i (some n) = ((s.markLol n).synthLol n).follow := by
  unfold State.lolAssert
  dsimp only
  rw [if_neg (by simp [h])]
  rfl

/-- Its mark changes no object but LN_SYNTH_LOL. -/
theorem State.o_markLol (s : State) (n : Nat) (h : k ≠ Obj.LN_SYNTH_LOL) : (s.markLol n).o k = s.o k := s.o_setO_ne _ h

theorem State.lockView_markLol (s : State) (n : Nat) (j : Lane) : (s.markLol n).lockView j = s.lockView j := by
  have hkey (sub : Nat) (hsub : sub < 256) : (s.markLol n).o (objKey (0x4010 + j) sub) = s.o (objKey (0x4010 + j) sub) := by
    refine s.o_markLol n ?_
    simp only [Obj.LN_SYNTH_LOL, objKey]
    omega
  exact State.lockView_eq.mpr ⟨rfl, hkey 0x13 (by decide), hkey 4 (by decide), hkey 2 (by decide), hkey 5 (by decide)⟩

theorem State.laneWant_markLol (s : State) (n : Nat) : (s.markLol n).laneWant 8 = s.laneWant 8 := by
  have hkey : ∀ k ∈ Obj.PWR_STATE :: rxWantSources, k ≠ Obj.LN_SYNTH_LOL := by decide
  refine State.laneWant_rx_congr (fun k hk => s.o_markLol n (hkey k (List.mem_cons_of_mem _ hk))) ?_ rfl rfl
  rw [s.o_markLol n (hkey _ (List.mem_cons_self ..))]

/-! ### A synthesiser locks again -/

theorem State.laneLolClear_kept (s : State) (i : Nat) :
    (s.laneLolClear i).keepsMemories s ∧ (s.laneLolClear i).synthLost = s.synthLost := by
  unfold State.laneLolClear State.tryScan
  split <;> exact ⟨⟨rfl, rfl, rfl⟩, rfl⟩

/-- A synthesiser's lock, as one of the lanes it may serve takes it. -/
def State.servedLolClear (n : Nat) (s : State) (j : Nat) : State := if s.servedBy j n then s.laneLolClear j else s

theorem State.servedLolClear_kept (n : Nat) (s : State) (j : Nat) :
    (State.servedLolClear n s j).keepsMemories s ∧ (State.servedLolClear n s j).synthLost = s.synthLost := by
  unfold State.servedLolClear
  split
  · exact s.laneLolClear_kept j
  · exact ⟨⟨rfl, rfl, rfl⟩, rfl⟩

/-- The synthesiser's mark is gone, and every lane that it serves has lock. -/
def State.synthLolClear (s : State) (n : Nat) : State :=
  (List.range 25).foldl (State.servedLolClear n) { s with synthLost := setBit s.synthLost n false }

theorem State.synthLolClear_kept (s : State) (n : Nat) :
    (s.synthLolClear n).keepsMemories s ∧ (s.synthLolClear n).synthLost = setBit s.synthLost n false := by
  have hfold {β : Type} (view : State → β) (h : ∀ v j, view (State.servedLolClear n v j) = view v) :
      view (s.synthLolClear n) = view { s with synthLost := setBit s.synthLost n false } := foldl_view view (fun j _ v => h v j) _
  have hmem (v : State) (j : Nat) := (State.servedLolClear_kept n v j).1
  exact ⟨⟨hfold (·.spm) fun v j => (hmem v j).1, hfold (·.rankMem) fun v j => (hmem v j).2.1, hfold (·.nvm) fun v j => (hmem v j).2.2⟩,
    hfold (·.synthLost) fun v j => (State.servedLolClear_kept n v j).2⟩

theorem State.lolClear_synth_kept (s : State) (i : Nat) (n : Fin 2) :
    bit (s.lolClear i (some n)).synthLost n = false ∧ (s.lolClear i (some n)).keepsMemories s := by
  have hclear : s.lolClear i (some n) = (s.synthLolClear n).follow := rfl
  obtain ⟨hmem, hlost⟩ := s.synthLolClear_kept n
  rw [hclear, (s.synthLolClear n).follow_followed.synth, hlost]
  exact ⟨bit_setBit_self .., State.follow_keepsMemories hmem⟩

/-! ### Exits from L2 and L1 (R298, R300) -/

/-- A lane that leaves L2, before the link above it enters CAPS. -/
def State.laneOn (s : State) (i : Nat) : State :=
  let s := (s.setO (Obj.LN_PSTATE i) 0).setO (Obj.LN_RATE i) (s.rateFor i)
  if isRx i then (s.setO (Obj.LN_ASTATE i) 1).tryScan i else s.setO (Obj.LN_ASTATE i) (s.txState i)

theorem State.leaveL2_eq (s : State) (i : Nat) :
    s.leaveL2 i = if i = 0 ∧ (s.laneOn i).o Obj.RG_LSTATE = 2 then (s.laneOn i).enterCaps .north else s.laneOn i := rfl

theorem State.laneOn_rx (s : State) (h : isRx i = true) : s.laneOn i =
    (((s.setO (Obj.LN_PSTATE i) 0).setO (Obj.LN_RATE i) (s.rateFor i)).setO (Obj.LN_ASTATE i) 1).tryScan i := if_pos h

theorem State.laneOn_tx (s : State) (h : isRx i = false) : s.laneOn i =
    ((s.setO (Obj.LN_PSTATE i) 0).setO (Obj.LN_RATE i) (s.rateFor i)).setO (Obj.LN_ASTATE i) (s.txState i) := by
  have htest : Obj.LN_TEST i ≠ Obj.LN_RATE i ∧ Obj.LN_TEST i ≠ Obj.LN_PSTATE i := by
    simp [Obj.LN_TEST, Obj.LN_RATE, Obj.LN_PSTATE, objKey]
  simp only [State.laneOn, h, Bool.false_eq_true, if_false, State.txState, State.o_setO_ne _ _ htest.1, State.o_setO_ne _ _ htest.2]

theorem State.o_leaveL2 (s : State) (i : Nat) (h : k ≠ Obj.RG_LSTATE) : (s.leaveL2 i).o k = (s.laneOn i).o k := by
  rw [State.leaveL2_eq]
  split
  · exact State.o_setO_ne (s.laneOn i) 1 h
  · rfl

theorem State.o_laneOn_ne_astate (s : State) (i : Nat) (h : k ≠ Obj.LN_ASTATE i) :
    (s.laneOn i).o k = ((s.setO (Obj.LN_PSTATE i) 0).setO (Obj.LN_RATE i) (s.rateFor i)).o k := by
  cases hrx : isRx i
  · rw [State.laneOn_tx s hrx, State.o_setO_ne _ _ h]
  · rw [State.laneOn_rx s hrx, State.o_tryScan_ne _ h, State.o_setO_ne _ _ h]

theorem State.pstate_leaveL2 (s : State) (hi : i < 25) : (s.leaveL2 i).o (Obj.LN_PSTATE i) = 0 := by
  have hkey : Obj.LN_PSTATE i ≠ Obj.RG_LSTATE := laneKey_ne_lstate hi (by decide)
  rw [State.o_leaveL2 s i hkey, State.o_laneOn_ne_astate s i (lnPstate_ne i).2,
    State.o_setO_ne _ _ (lnPstate_ne i).1, State.o_setO_self]

theorem State.rate_leaveL2 (s : State) (hi : i < 25) : (s.leaveL2 i).o (Obj.LN_RATE i) = s.rateFor i := by
  have hne : Obj.LN_RATE i ≠ Obj.LN_ASTATE i := laneKey_ne (by decide) (by decide) (.inr (by decide))
  have hkey : Obj.LN_RATE i ≠ Obj.RG_LSTATE := laneKey_ne_lstate hi (by decide)
  rw [State.o_leaveL2 s i hkey,
    State.o_laneOn_ne_astate s i hne, State.o_setO_self]

/-- A transmitter sends blocks, or the test mode's pattern (R301). -/
theorem State.astate_leaveL2_tx (s : State) (hi : i < 25) (h : isRx i = false) : (s.leaveL2 i).o (Obj.LN_ASTATE i) = s.txState i := by
  have hkey : Obj.LN_ASTATE i ≠ Obj.RG_LSTATE := laneKey_ne_lstate hi (by decide)
  rw [State.o_leaveL2 s i hkey, State.laneOn_tx s h, State.o_setO_self]

/-- A receiver is in WAIT, or in SCAN already (R289). -/
theorem State.astate_leaveL2_rx (s : State) (hi : i < 25) (h : isRx i = true) :
    (s.leaveL2 i).o (Obj.LN_ASTATE i) = if (s.lane i).los = false ∧ (s.lane i).lol = false then 2 else 1 := by
  have hkey : Obj.LN_ASTATE i ≠ Obj.RG_LSTATE := laneKey_ne_lstate hi (by decide)
  rw [State.o_leaveL2 s i hkey, State.laneOn_rx s h]
  refine State.astate_tryScan ?_ (State.o_setO_self ..)
  rw [State.pstate, State.o_setO_ne _ _ (lnPstate_ne i).2, State.o_setO_ne _ _ (lnPstate_ne i).1, State.o_setO_self]

theorem State.leaveL2_keepsMemories (s : State) (i : Nat) : (s.leaveL2 i).keepsMemories s := by
  have hon : (s.laneOn i).keepsMemories s := by
    cases hrx : isRx i
    · rw [State.laneOn_tx s hrx]
      exact ⟨rfl, rfl, rfl⟩
    · rw [State.laneOn_rx s hrx]
      exact State.tryScan_keepsMemories _ i
  rw [State.leaveL2_eq]
  split
  · exact hon
  · exact hon

theorem State.l1ExitDone_exits (hp : s.pstate i = 1) (hw : s.laneWant i = 0) {t : State}
    (ht : t = if isRx i = false then (s.setO (Obj.LN_PSTATE i) 0).setO (Obj.LN_ASTATE i) (s.txState i)
      else if s.astate i = 5 ∧ s.o (Obj.LN_TEST i) = 0 then ((s.setO (Obj.LN_PSTATE i) 0).setO (Obj.LN_ASTATE i) 4).bump (Obj.LN_LOCKS i)
      else ((s.setO (Obj.LN_PSTATE i) 0).setO (Obj.LN_ASTATE i) 1).tryScan i) : s.l1ExitDone i = t.follow := by
  have ha : Obj.LN_ASTATE i ≠ Obj.LN_PSTATE i := (lnPstate_ne i).2.symm
  have htest : Obj.LN_TEST i ≠ Obj.LN_PSTATE i := laneKey_ne (by decide) (by decide) (.inr (by decide))
  subst ht
  unfold State.l1ExitDone
  dsimp only
  rw [if_pos ⟨hp, hw⟩]
  simp only [State.txState, State.astate, State.o_setO_ne _ _ ha, State.o_setO_ne _ _ htest]
  cases isRx i <;> rfl

/-! ### Test modes (R301) -/

theorem State.o_laneFall_ne (s : State) (v : Nat) (h : k ≠ Obj.LN_ASTATE i) : (s.laneFall i v).o k = s.o k := s.o_setO_ne v h

/-- The lane in its test mode, its pattern from all ones, before it moves. -/
def State.selectTest (s : State) (i v : Nat) : State :=
  let s := s.setO (Obj.LN_TEST i) v
  if v = 0 then s else s.setLane i { s.lane i with gen := 2 ^ 31 - 1 }

theorem State.selectTest_kept (s : State) (i v : Nat) :
    (s.selectTest i v).o (Obj.LN_TEST i) = v ∧ (s.selectTest i v).keepsMemories s := by
  have htest := s.o_setO_self (Obj.LN_TEST i) v
  unfold State.selectTest
  dsimp only
  split
  · exact ⟨htest, rfl, rfl, rfl⟩
  · exact ⟨htest, rfl, rfl, rfl⟩

/-- The lane moves as its test mode and the one before ask. -/
def State.testMove (s : State) (i v was : Nat) : State :=
  if s.pstate i ≠ 0 then s
  else if !isRx i then s.setO (Obj.LN_ASTATE i) (s.txState i)
  else if v = 0 then (if was = 0 then s else (s.laneFall i 1).tryScan i)
  else (s.laneFall i 1).tryScan i

theorem State.laneTest_eq (s : State) (i v : Nat) :
    s.laneTest i v = ((s.selectTest i v).testMove i v (s.o (Obj.LN_TEST i))).follow := rfl

theorem State.testMove_kept (s : State) (i v was : Nat) :
    (s.testMove i v was).o (Obj.LN_TEST i) = s.o (Obj.LN_TEST i) ∧ (s.testMove i v was).keepsMemories s := by
  have hne : Obj.LN_TEST i ≠ Obj.LN_ASTATE i := laneKey_ne (by decide) (by decide) (.inr (by decide))
  have hfall : ((s.laneFall i 1).tryScan i).o (Obj.LN_TEST i) = s.o (Obj.LN_TEST i) ∧ ((s.laneFall i 1).tryScan i).keepsMemories s :=
    ⟨(State.o_tryScan_ne _ hne).trans (State.o_laneFall_ne _ 1 hne), State.tryScan_keepsMemories _ i⟩
  unfold State.testMove
  split
  · exact ⟨rfl, rfl, rfl, rfl⟩
  · split
    · exact ⟨State.o_setO_ne _ _ hne, rfl, rfl, rfl⟩
    · split
      · split
        · exact ⟨rfl, rfl, rfl, rfl⟩
        · exact hfall
      · exact hfall

theorem State.laneTest_kept (s : State) (hi : i < 25) (v : Nat) :
    (s.laneTest i v).o (Obj.LN_TEST i) = v ∧ (s.laneTest i v).keepsMemories s := by
  obtain ⟨htest, hmem⟩ := s.selectTest_kept i v
  obtain ⟨htest', hmem'⟩ := (s.selectTest i v).testMove_kept i v (s.o (Obj.LN_TEST i))
  rw [State.laneTest_eq]
  refine ⟨?_, State.follow_keepsMemories (State.keepsMemories_trans hmem' hmem)⟩
  have hfollow := ((s.selectTest i v).testMove i v (s.o (Obj.LN_TEST i))).follow_followed
  exact (hfollow.objs _ (laneSideKey_lane hi (by decide)) (followedKey_lane hi (by decide) (by decide))).trans (htest'.trans htest)

/-- An accepted host write that acts at once: what it sets stands, and its response has XEFF (R456, R464). -/
theorem State.hostWrite_accepted (s t : State) (q : Req) (k : Nat) (hx : s.isExpert q = true) :
    s.hostWrite q k true .ok t = t.respond q 0x02 .ok (keyBytes k ++ bytesLE 6 ((s.xc + 1) % 2 ^ 48)) := by
  simp [State.hostWrite, hx, State.respWrite, State.xeff]

end Sys2Proof.Machine
end

section
/-! SUPPORT. The statement on lane events. -/
namespace Sys2Proof.Machine

variable {s : State} {i : Lane} {n : Fin 2}

/-- LOS of a receiver in L0 (R291). -/
theorem State.losAssert_acts (hrx : isRx i = true) (hp : s.pstate i = 0) (hlos : (s.lane i).los = false) :
    s.losAssert i = (((s.bump (Obj.LN_LOS_CNT i)).laneFall i 1).setLane i { s.lane i with
      window := [], valid := 0, prbsLock := false, scanning := false, los := true }).follow := by
  have hacts : (isRx i && s.pstate i == 0 && !(s.lane i).los) = true := by simp [hrx, hp, hlos]
  have hunit : (s.bump (Obj.LN_LOS_CNT i)).lane i = s.lane i := rfl
  simp only [State.losAssert, hacts, if_true, State.laneFall, State.lane_setLane_self, hunit]

theorem State.losAssert_idle (h : isRx i = false ∨ s.pstate i ≠ 0 ∨ (s.lane i).los = true) : s.losAssert i = s := by
  refine if_neg ?_
  rcases h with h | h | h <;> simp [h]

/-- The receive buffer's overflow is a loss of alignment (R283, R290). -/
theorem State.rxOverflow_acts (hrx : isRx i = true) (hp : s.pstate i = 0) (ha : s.astate i = 4) : s.rxOverflow i = s.alignLoss i :=
  if_pos (by simp [hrx, hp, ha])

theorem State.rxOverflow_idle (h : isRx i = false ∨ s.pstate i ≠ 0 ∨ s.astate i ≠ 4) : s.rxOverflow i = s := by
  refine if_neg ?_
  rcases h with h | h | h <;> simp [h]

theorem State.txFaultSet_acts (htx : isRx i = false) (hp : s.pstate i = 0) :
    s.txFaultSet i = (s.setLane i { s.lane i with swing := true }).follow :=
  if_pos (by simp [htx, hp])

theorem State.txFaultSet_idle (h : isRx i = true ∨ s.pstate i ≠ 0) : s.txFaultSet i = s := by
  refine if_neg ?_
  rcases h with h | h <;> simp [h]

/-! ### What a synthesiser's loss of lock comes to (R278, R291, R306; log entry 116) -/

/-- The state after a synthesiser's loss of lock. -/
def State.afterLol (s : State) (n : Fin 2) : State := ((s.markLol n).synthLol n).follow

theorem State.afterLol_marks (s : State) (n : Fin 2) : (s.afterLol n).o Obj.LN_SYNTH_LOL = satAdd 32 (s.o Obj.LN_SYNTH_LOL) 1 ∧
    bit (s.afterLol n).synthLost n = true ∧ (s.afterLol n).keepsMemories s := by
  have hkey : ∀ i < 25, Obj.LN_SYNTH_LOL ≠ Obj.LN_LOL_CNT i ∧ Obj.LN_SYNTH_LOL ≠ Obj.LN_ASTATE i := by decide
  have hfollow := ((s.markLol n).synthLol n).follow_followed
  obtain ⟨hmem, hlost, -⟩ := (s.markLol n).synthLol_frame n
  refine ⟨?_, ?_, State.follow_keepsMemories hmem⟩
  · exact (hfollow.objs _ (by decide) (by decide)).trans (((s.markLol n).o_synthLol n hkey).trans (s.o_bump_self _))
  · exact (congrArg (bit · n) (hfollow.synth.trans hlost)).trans (bit_setBit_self ..)

/-- LN_LOL_CNT as lanes and links follow. -/
theorem State.afterLol_count (s : State) (n : Fin 2) (j : Lane) :
    (s.afterLol n).o (Obj.LN_LOL_CNT j) = ((s.markLol n).synthLol n).o (Obj.LN_LOL_CNT j) :=
  ((s.markLol n).synthLol n).follow_followed.objs _ (laneSideKey_lane j.isLt (by decide)) (followedKey_lane j.isLt (by decide) (by decide))

/-- A lane that it serves counts the loss, and signals it unless it is in L2. -/
theorem State.afterLol_served {j : Lane} (hserved : s.servedBy j n = true) (hp : s.pstate j ≠ 2) (hl : (s.lane j).lol = false) :
    (s.afterLol n).o (Obj.LN_LOL_CNT j) = satAdd 32 (s.o (Obj.LN_LOL_CNT j)) 1 ∧
      ((s.afterLol n).pstate j = 2 ∨ ((s.afterLol n).lane j).lol = true) := by
  have hview := s.lockView_markLol n j
  obtain ⟨-, hcount, -, hpower, -⟩ := State.lockView_eq.mp hview
  obtain ⟨hcounts, hlol⟩ := State.synthLol_counts (s := s.markLol n) ((State.servedBy_congr hview).trans hserved) (hpower ▸ hp) hl
  rw [s.afterLol_count, hcounts, hcount]
  exact ⟨rfl, ((s.markLol n).synthLol n).follow_followed.lost j (.inr hlol)⟩

theorem State.afterLol_unserved {j : Lane} (hserved : s.servedBy j n = false) :
    (s.afterLol n).o (Obj.LN_LOL_CNT j) = s.o (Obj.LN_LOL_CNT j) := by
  have hview := s.lockView_markLol n j
  obtain ⟨-, hcount, -⟩ := State.lockView_eq.mp hview
  obtain ⟨-, hkept, -⟩ := State.lockView_eq.mp (State.synthLol_unserved ((State.servedBy_congr hview).trans hserved))
  exact (s.afterLol_count n j).trans (hkept.trans hcount)

/-- N_RX, which LPLL1 serves, is in WAIT before the links follow. -/
theorem State.markLol_rx (hp : s.pstate 8 = 0) (hl : (s.lane 8).lol = false) :
    ((s.markLol 1).synthLol 1).astate 8 = 1 ∧ ((s.markLol 1).synthLol 1).pstate 8 = 0 := by
  obtain ⟨-, -, -, hpower, -⟩ := State.lockView_eq.mp (s.lockView_markLol 1 8)
  exact State.synthLol_rx (hpower.trans hp) hl

theorem State.afterLol_rx_waits (hp : s.pstate 8 = 0) (hw : s.laneWant 8 = 0) (hl : (s.lane 8).lol = false) :
    (s.afterLol 1).astate 8 = 1 := by
  obtain ⟨halign, hpower⟩ := State.markLol_rx hp hl
  have hwant := ((s.markLol 1).laneWant_synthLol 1).trans ((s.laneWant_markLol 1).trans hw)
  exact (((s.markLol 1).synthLol 1).follow_followed.waits hpower hwant).2.trans halign

theorem State.afterLol_down (hp : s.pstate 8 = 0) (hl : (s.lane 8).lol = false) (hup : s.o Obj.RG_LSTATE = 3) :
    (s.afterLol 1).o Obj.RG_LSTATE = 0 := by
  have hkey : ∀ i < 25, Obj.RG_LSTATE ≠ Obj.LN_LOL_CNT i ∧ Obj.RG_LSTATE ≠ Obj.LN_ASTATE i := by decide
  obtain ⟨halign, -⟩ := State.markLol_rx hp hl
  refine State.follow_down ?_ (State.locked_of_astate ?_)
  · exact ((s.markLol 1).o_synthLol 1 hkey).trans ((s.o_markLol 1 (by decide)).trans hup)
  · exact halign.trans_ne (by decide)

/-! ### The statement -/

/-- Settles O23: each event writes one lane, or the lanes one synthesiser serves, and `State.follow` keeps what the clauses read and
takes a north link in UP down once N_RX is not LOCKED. -/
theorem laneEventsTakeTheLinksWithThem : Obligations.LaneEventsTakeTheLinksWithThem := by
  unfold Obligations.LaneEventsTakeTheLinksWithThem
  intro i n q v s hawake
  have hrun {c : Instr} {t u : State} (hexec : exec c s = .next (s.ifAwake t)) (ht : t = u) : exec c s = .next u := by
    rw [hexec, State.ifAwake_of hawake, ht]
  have hserve {c : Instr} {t u : State} (hq : s.servedFor q = true) (hexec : exec c s = .next (s.ifRequest q t)) (ht : t = u) :
      exec c s = .next u := by
    rw [hexec, State.ifRequest_of hq, ht]
  have hcounter {sub : Nat} (hsub : sub < 256) : Obj.RG_LSTATE ≠ objKey (0x4010 + i) sub := (laneKey_ne_lstate i.isLt hsub).symm
  have hat {i : Lane} (h8 : i = 8) : i.val = 8 := congrArg Fin.val h8
  refine ⟨fun hrx hp hlos => ⟨_, hrun rfl (State.losAssert_acts hrx hp hlos), rfl, fun h8 hup => ?_, ?_⟩,
    fun h => hrun rfl (State.losAssert_idle h), fun h => hrun rfl (if_neg (by simp [h])), fun h => hrun rfl (if_pos h),
    fun h => hrun rfl (congrArg State.follow (State.laneLol_stands h)),
    fun hp hl => ⟨fun htx => hrun rfl (congrArg State.follow (State.laneLol_tx hp hl htx)), fun hrx =>
      ⟨_, hrun rfl (congrArg State.follow (State.laneLol_rx hp hl hrx)), rfl, fun h8 hup => ?_⟩⟩,
    fun h => hrun rfl (if_pos h), fun hclk => ⟨s.afterLol n, hrun rfl (State.lolAssert_synth n hclk), ?_⟩, hrun rfl rfl,
    ⟨_, hrun rfl rfl, s.lolClear_synth_kept i n⟩,
    fun hrx hp ha => ⟨_, hrun rfl (State.rxOverflow_acts hrx hp ha), rfl, fun h8 hup => ?_⟩,
    fun h => hrun rfl (State.rxOverflow_idle h),
    fun htx hp => hrun rfl (State.txFaultSet_acts htx hp), fun h => hrun rfl (State.txFaultSet_idle h),
    fun h => hrun rfl (if_neg ?_), fun hp hw => ⟨_, hrun rfl (if_pos ⟨hp, hw⟩), rfl, s.pstate_leaveL2 i.isLt, s.rate_leaveL2 i.isLt,
      fun htx => s.astate_leaveL2_tx i.isLt htx, fun hrx => s.astate_leaveL2_rx i.isLt hrx,
      State.follow_keepsMemories (s.leaveL2_keepsMemories i)⟩,
    fun h => hrun rfl (if_neg ?_), fun hp hw => ⟨fun hrx ha htest => hrun rfl ?_, fun htx => hrun rfl ?_, fun hrx hidle => hrun rfl ?_⟩,
    fun hq hx => hostWrite_runs_expert hq hx rfl,
    fun hq hx hv => hostWrite_runs_refused hq (.inr hx) rfl (if_neg (Nat.not_le.mpr hv)) (by decide),
    fun hq hx hv => ⟨_, hserve hq rfl rfl, ?_⟩⟩
  · exact State.laneFall_down (by decide) (hat h8) ((s.o_bump_ne (hcounter (by decide))).trans hup) rfl
  · exact State.follow_keepsMemories ⟨rfl, rfl, rfl⟩
  · exact State.laneFall_down (by decide) (hat h8) ((s.o_bump_ne (hcounter (by decide))).trans hup) rfl
  · obtain ⟨hcount, hbit, hmem⟩ := s.afterLol_marks n
    refine ⟨hcount, hbit, hmem, fun j => State.afterLol_served, fun j => State.afterLol_unserved, fun h1 hp hw hl => ?_,
      fun h1 hp hl hup => ?_⟩
    · subst h1
      exact State.afterLol_rx_waits hp hw hl
    · subst h1
      exact State.afterLol_down hp hl hup
  · exact State.laneFall_down (by decide) (hat h8) ((s.o_bump_ne (hcounter (by decide))).trans hup) rfl
  · rcases h with h | h
    · exact fun hexit => h hexit.1
    · exact fun hexit => hexit.2 h
  · rcases h with h | h
    · exact fun hexit => h hexit.1
    · exact fun hexit => h hexit.2
  · exact State.l1ExitDone_exits hp hw (by rw [if_neg (by simp [hrx]), if_pos ⟨ha, htest⟩])
  · exact State.l1ExitDone_exits hp hw (by rw [if_pos htx]; rfl)
  · exact State.l1ExitDone_exits hp hw (((if_neg (by simp [hrx])).trans (if_neg (not_and_or.mpr hidle))).symm)
  · obtain ⟨htest, hmem⟩ := s.laneTest_kept i.isLt v.toNat
    have halive : Obj.LN_TEST i ≠ Obj.CHK_ALIVE_TXN ∧ Obj.LN_TEST i ≠ Obj.CHK_ALIVE_TXC := by
      simp only [Obj.LN_TEST, Obj.CHK_ALIVE_TXN, Obj.CHK_ALIVE_TXC, objKey]
      omega
    rw [show testModeCheck v.toNat = .ok from if_pos hv, State.hostWrite_accepted _ _ q _ hx]
    exact ⟨(State.o_respond _ q _ _ _ (State.aliveKey halive)).trans htest, State.respond_answers _ q _ _ _,
      State.keepsMemories_respond hmem q _ _ _⟩

end Sys2Proof.Machine
end

section
/-! SUPPORT. A receiver that does not look at blocks yet takes their bits into its descrambler all the same (R284, R285, R289). -/
namespace Sys2Proof.Machine

/-- Run, with receiving lane 9 in L0 and in SCAN. -/
def scansLane9 : State :=
  (((State.reset.setO Obj.PWR_STATE 3).setO Obj.CLK_STATE 3).setO (Obj.LN_PSTATE 9) 0).setO (Obj.LN_ASTATE 9) 2

/-- A payload of which the last bit alone is 1. -/
def lastBitSet : BitVec 64 := 2 ^ 63

/-- It runs, its stored data has the canonical form, the lane is in SCAN, and its descrambler is empty. -/
theorem scansLane9_runs : scansLane9.awake = true ∧ scansLane9.wf = true ∧ scansLane9.o (Obj.LN_ASTATE (9 : Lane)) = 2 ∧
    (scansLane9.lane (9 : Lane)).descr = 0 := by
  decide +kernel

/-- A block whose last payload bit is 1 leaves that bit in the descrambler. -/
theorem scansLane9_blockReceive :
    ((scansLane9.blockReceive (9 : Lane) (1 : BitVec 2).toNat lastBitSet.toNat).lane (9 : Lane)).descr = 1 := by
  decide +kernel

/-- Refutes O27: its first clause has a block change nothing where the lane is in WAIT or SCAN, but there the descrambler already
takes the bits that are received, as R285 has it; only what it gives is not looked at. -/
theorem not_receivedBlocksAreJudgedInOrder : ¬ Obligations.ReceivedBlocksAreJudgedInOrder := by
  unfold Obligations.ReceivedBlocksAreJudgedInOrder
  intro h
  obtain ⟨hawake, -, hscan, hempty⟩ := scansLane9_runs
  obtain ⟨hignores, -⟩ := h 9 1 lastBitSet _ _ _ _ { sof := 0, data := [] } scansLane9 hawake Prod.mk.eta.symm Prod.mk.eta.symm
  have hexec := hignores (.inr (.inr (hscan ▸ by decide)))
  have hkept := (State.ifAwake_of hawake).symm.trans (Host.Outcome.next.inj hexec)
  have htakes := scansLane9_blockReceive
  rw [hkept, hempty] at htakes
  exact absurd htakes (by decide)

end Sys2Proof.Machine
end

section
/-! SUPPORT. The block slot in which a CAPS with SEEN = 2 leaves takes the north link out of CAPS (R312 to R314, R340). -/
namespace Sys2Proof.Machine

/-- The partner's CAPS: both versions, rate code 1, all lanes and features, SEEN = 2 (R312). -/
def partnerCaps : Nat := 3 * 2 ^ 52 + 2 ^ 50 + 0xFF * 2 ^ 42 + 3 * 2 ^ 26 + 7 * 2 ^ 22 + 2 * 2 ^ 7

/-- The north link in CAPS, its two lanes N_RX and N_TX0 in L0: it has received SEEN = 2, and its own SEEN = 2 waits for the line. -/
def leavesCaps : State :=
  let s := (((State.reset.setO Obj.PWR_STATE 3).setO Obj.CLK_STATE 3).setO (Obj.LN_PSTATE 8) 0).setO (Obj.LN_ASTATE 8) 4
  let s := ((s.setO (Obj.LN_PSTATE 0) 0).setO (Obj.LN_ASTATE 0) 2).setO Obj.RG_LSTATE 1
  let s := s.setCaps .north { partner := some partnerCaps, seen := 2, sentTwo := true }
  { s with line := { north := { wait := [.block .north 0x33 [s.capsContent .north]] } } }

/-- It runs, its stored data has the canonical form, a lane is busy, no command waits, and the link is in CAPS. -/
theorem leavesCaps_runs : leavesCaps.awake = true ∧ leavesCaps.wf = true ∧ leavesCaps.lineBusy = true ∧
    leavesCaps.pending = [] ∧ leavesCaps.o Obj.RG_LSTATE = 1 := by
  decide +kernel

/-- In the slot its CAPS leaves, and with that the link enters RATE. -/
theorem leavesCaps_idleStep : leavesCaps.idleStep.o Obj.RG_LSTATE = 2 := by
  decide +kernel

/-- Refutes O52: it has every object as it was after a block slot, but the slot in which a CAPS with SEEN = 2 leaves takes a link
that has received SEEN = 2 on to RATE or UP, as R314 asks. -/
theorem not_aBlockSlotCarriesTheLinksOntoTheirLanes : ¬ Obligations.ABlockSlotCarriesTheLinksOntoTheirLanes := by
  unfold Obligations.ABlockSlotCarriesTheLinksOntoTheirLanes
  intro h
  obtain ⟨hawake, -, hbusy, hidle, hcaps⟩ := leavesCaps_runs
  obtain ⟨-, -, -, -, -, hslot⟩ := h 0 0 0 0 0 0 0 0 (.row .north 0 0 0) idleBlock [] [] leavesCaps
  obtain ⟨-, hobj, -⟩ := hslot hidle hawake hbusy
  have hkept : leavesCaps.idleStep.o Obj.RG_LSTATE = leavesCaps.o Obj.RG_LSTATE := State.o_congr hobj _
  rw [leavesCaps_idleStep, hcaps] at hkept
  exact absurd hkept (by decide)

end Sys2Proof.Machine
end

section
/-! SUPPORT. TPULSE, TURN and RESYNC commands at their receipt: forwarded, then scheduled or counted (R216, R335, R336, R411). -/
namespace Sys2Proof.Machine

variable {s : State} {code tgt n0 : Nat} {w : List Nat}

/-- A command's blocks have gone out on every port in UP (R216). -/
def State.commandSent (s : State) (w : List Nat) : State :=
  { s with out := s.out ++ s.portsUp.map fun k => Sent.block (.south (portFin k)) 0xA5 w }

/-- What a command at its receipt comes to, late being the counter of one that is not early enough (R336, R411). -/
def State.commandTaken (s : State) (code tgt n0 late : Nat) (w : List Nat) : State :=
  if s.inLead tgt then (s.commandSent w).schedule code tgt n0 else (s.commandSent w).bump late

theorem State.cmdReceive_up (hup : s.o Obj.RG_LSTATE = 3) (code tgt : Nat) :
    s.cmdReceive code tgt = s.commandTaken code tgt 0 Obj.RG_CMD_LATE [code * 2 ^ 48 + tgt] := by
  rw [State.cmdReceive, if_neg (by simp [hup]), State.forward_all]
  rfl

theorem State.cmdResync_up (hup : s.o Obj.RG_LSTATE = 3) (tgt n0 : Nat) :
    s.cmdResync tgt n0 = s.commandTaken 3 tgt n0 Obj.XC_RSY_LATE (resyncParts tgt n0) := by
  rw [State.cmdResync, if_neg (by simp [hup]), State.forward_all]
  rfl

/-- Early enough, and a place free. -/
theorem State.commandTaken_held (hlead : s.inLead tgt = true) (hfree : s.sched.length < 64) (late : Nat) :
    s.commandTaken code tgt n0 late w =
      { s.commandSent w with sched := s.sched ++ [{ code := code, tick := s.tick + s.lead tgt, tgt := tgt, n0 := n0 }] } := by
  rw [State.commandTaken, if_pos hlead]
  exact if_neg (Nat.not_le.mpr hfree)

/-- Early enough, and no place free. -/
theorem State.commandTaken_full (hlead : s.inLead tgt = true) (hfull : 64 ≤ s.sched.length) (late : Nat) :
    s.commandTaken code tgt n0 late w = (s.commandSent w).bump Obj.RG_CMD_FULL := by
  rw [State.commandTaken, if_pos hlead]
  exact if_pos hfull

/-- Not early enough. -/
theorem State.commandTaken_late (hlead : s.inLead tgt = false) (late : Nat) :
    s.commandTaken code tgt n0 late w = (s.commandSent w).bump late := by
  rw [State.commandTaken, hlead]
  rfl

theorem State.cmdReserved_bad {cont : Bool} (hup : s.o Obj.RG_LSTATE = 3) (h : code = 0 ∨ 4 ≤ code ∨ code = 3 ∧ cont = false) :
    s.cmdReserved code cont = s.bump Obj.RG_CMD_BAD := by
  refine if_neg ?_
  rcases h with h | h | ⟨h, hcont⟩
  · simp [hup, h]
  · simp only [hup]; omega
  · simp [hup, h, hcont]

/-- Settles O14: a command is forwarded, and then takes a place, finds none, or is late. -/
theorem commandsEarlyEnoughAreScheduledAndForwarded : Obligations.CommandsEarlyEnoughAreScheduledAndForwarded := by
  unfold Obligations.CommandsEarlyEnoughAreScheduledAndForwarded
  intro g n code cont s hawake
  have hrun {c : Instr} {t u : State} (hexec : exec c s = .next (s.ifAwake t)) (ht : t = u) : exec c s = .next u := by
    rw [hexec, State.ifAwake_of hawake, ht]
  have hresync {u : State} (hg : g ≠ BitVec.allOnes 48) (h : s.cmdResync g.toNat n.toNat = u) :
      exec (.cmdResync g n) s = .next u := hrun rfl ((if_neg hg).trans h)
  refine ⟨fun hdown => ⟨hrun rfl (if_pos hdown), hrun rfl (if_pos hdown), hrun rfl (ite_eq_left_iff.mpr fun _ => if_pos hdown),
    hrun rfl (if_pos (.inl hdown))⟩, fun hup => ?_⟩
  dsimp only
  have hlead : s.inLead g.toNat = true ↔ 2 ≤ s.lead g.toNat ∧ s.lead g.toNat < 2 ^ 23 := by simp [State.inLead]
  refine ⟨fun h2 h23 hfree => ?_, fun h2 h23 hfull => ?_, fun hlate => ?_, fun h => hrun rfl (State.cmdReserved_bad hup ?_),
    fun h => hrun rfl (if_pos ?_)⟩
  · have hin := hlead.mpr ⟨h2, h23⟩
    exact ⟨hrun rfl ((State.cmdReceive_up hup 1 _).trans (State.commandTaken_held hin hfree _)),
      hrun rfl ((State.cmdReceive_up hup 2 _).trans (State.commandTaken_held hin hfree _)),
      fun hg => hresync hg ((State.cmdResync_up hup _ _).trans (State.commandTaken_held hin hfree _))⟩
  · have hin := hlead.mpr ⟨h2, h23⟩
    exact ⟨hrun rfl ((State.cmdReceive_up hup 1 _).trans (State.commandTaken_full hin hfull _)),
      hrun rfl ((State.cmdReceive_up hup 2 _).trans (State.commandTaken_full hin hfull _)),
      fun hg => hresync hg ((State.cmdResync_up hup _ _).trans (State.commandTaken_full hin hfull _))⟩
  · have hout : s.inLead g.toNat = false := Bool.eq_false_iff.mpr fun h => by
      have hboth := hlead.mp h
      simp only [State.lead] at hboth
      omega
    exact ⟨hrun rfl ((State.cmdReceive_up hup 1 _).trans (State.commandTaken_late hout _)),
      hrun rfl ((State.cmdReceive_up hup 2 _).trans (State.commandTaken_late hout _)),
      fun hg => hresync hg ((State.cmdResync_up hup _ _).trans (State.commandTaken_late hout _))⟩
  · rcases h with rfl | h | ⟨rfl, hcont⟩
    · exact .inl rfl
    · exact .inr (.inl h)
    · exact .inr (.inr ⟨rfl, hcont⟩)
  · rcases h with rfl | rfl | ⟨rfl, hcont⟩
    · exact .inr (.inl rfl)
    · exact .inr (.inr (.inl rfl))
    · exact .inr (.inr (.inr ⟨rfl, hcont⟩))

end Sys2Proof.Machine
end

section
/-! SUPPORT. A CAPS timeout while a pass-through lane is in the agreed lane set (R309, R314). -/
namespace Sys2Proof.Machine

theorem State.capsTimeout_runs {s t : State} {l : LinkId} (hawake : s.awake = true) (hexec : exec (.capsTimeout l) s = .next t) :
    t = s.capsTimeout l := by
  have hrun : exec (.capsTimeout l) s = .next (s.ifAwake (s.capsTimeout l)) := rfl
  rw [State.ifAwake_of hawake, hexec] at hrun
  injection hrun

/-- A hub in pass-through mode, its north link in CAPS: N_TX3 is the lane of port 0's leaf and in the agreed lane set, N_RX is LOCKED, and
N_TX3 can send. -/
def agreedPassLane : State :=
  let s := ((State.reset.setO Obj.PWR_STATE 3).setO Obj.CLK_STATE 3).setO Obj.CF_ROLE 2
  let s := ((s.setO Obj.HUB_MODE 1).setO (Obj.HUB_PT_LANE 0) 3).setO Obj.RG_LSTATE 1
  let s := ((s.setO (Obj.LN_PSTATE 8) 0).setO (Obj.LN_ASTATE 8) 4)
  let s := (s.setO (Obj.LN_PSTATE 3) 0).setO (Obj.LN_ASTATE 3) 2
  { s with north := { s.north with agreed := 9 } }

/-- It runs, its stored data has the canonical form, its link is in CAPS, and N_TX3 sends but is no bundle lane. -/
theorem agreedPassLane_runs : agreedPassLane.awake = true ∧ agreedPassLane.wf = true ∧ agreedPassLane.o Obj.RG_LSTATE = 1 ∧
    agreedPassLane.sends 3 = true ∧ agreedPassLane.bundleLane 3 = false := by
  decide +kernel

/-- The timeout takes the link down and N_TX0 to L2, but N_TX3 still sends, so the link enters CAPS at once. -/
theorem agreedPassLane_capsTimeout : (agreedPassLane.capsTimeout .north).o Obj.RG_LSTATE = 1 := by
  decide +kernel

/-- Refutes O24: its clause on a CAPS timeout has the north link in DOWN, but the timeout takes only the bundle's lanes through L2. Where a
pass-through lane is in the agreed lane set, which no hypothesis of the clause excludes, the link finds a lane on which it can send
and leaves DOWN for CAPS in the same step, as R314 asks. -/
theorem not_capsStatusAndRowsRunTheLink : ¬ Obligations.CapsStatusAndRowsRunTheLink := by
  unfold Obligations.CapsStatusAndRowsRunTheLink
  intro h
  obtain ⟨hawake, -, hcaps, -, -⟩ := agreedPassLane_runs
  obtain ⟨-, -, -, -, -, -, htimeout, -⟩ := h 0 0 .north 0 ⟨0, 0, 0, 0⟩ false false agreedPassLane hawake
  obtain ⟨t, hexec, hdown, -⟩ := htimeout hcaps
  have ht := State.capsTimeout_runs hawake hexec
  rw [ht, agreedPassLane_capsTimeout] at hdown
  exact absurd hdown (by decide)

end Sys2Proof.Machine
end

section
/-! SUPPORT. A link's receiver: what a frame at fault comes to, and the keys that its check unit and its counters have (R271, R324,
R326). -/
namespace Sys2Proof.Machine

variable {s t v : State} {l : LinkId} {k i reason : Nat}

/-! ### A link's receiver -/

@[simp] theorem State.rx_setRx_self (s : State) (l : LinkId) (r : LinkRx) : (s.setRx l r).rx l = r := by
  cases l <;> simp [State.rx, State.setRx, Vector.get_eq_getElem]

theorem State.setRx_rx (s : State) (l : LinkId) : s.setRx l (s.rx l) = s := by
  cases l with
  | south k => exact congrArg (fun v => { s with south := v }) (Vector.set_getElem_self k.isLt)
  | _ => rfl

theorem State.isUp_north : s.isUp .north = true ↔ s.o Obj.RG_LSTATE = 3 := by simp [State.isUp]

theorem State.isUp_south {k : Port} : s.isUp (.south k) = true ↔ s.o (Obj.RG_SSTATE k) = 3 := by simp [State.isUp]

/-! ### What a check unit changes (R271) -/

/-- No object of another index than the check units' is one of theirs. -/
theorem ne_chkRun (hi : i < 255) (hk : k / 256 ≠ 0x3830) : k ≠ Obj.CHK_RUN i := by
  rintro rfl
  simp only [Obj.CHK_RUN, objKey] at hk
  omega

theorem notMem_chkRun (hi : i < 255) (hk : k / 256 ≠ 0x3830) : k ∉ [Obj.CHK_RUN i] := by simpa using ne_chkRun hi hk

theorem State.check_keepsObjects (s : State) (i : Nat) (b : List Byte) : (s.check i b).keepsObjects s [Obj.CHK_RUN i] :=
  State.keepsObjects_setO (State.keepsObjects_refl s _) (by simp) _

theorem State.o_check_ne (s : State) (b : List Byte) (hi : i < 255) (hk : k / 256 ≠ 0x3830) : (s.check i b).o k = s.o k :=
  s.check_keepsObjects i b k (notMem_chkRun hi hk)

theorem rxUnit_lt (l : LinkId) : rxUnit l < 255 := by
  cases l with
  | south k => have := k.isLt; simp only [rxUnit]; omega
  | _ => simp [rxUnit]

/-! ### A NAK and a frame at fault (R326) -/

/-- A NAK of the expected frame is out unless the hold lasts, and the hold lasts from now on. -/
structure State.Naked (t s : State) (l : LinkId) (reason : Nat) : Prop where
  objs : t.keepsObjects s [Obj.RG_NAK_TX]
  out : t.out = if (s.rx l).nakHold then s.out
    else s.out ++ [Sent.block l 0xC3 [(s.rx l).exp * 2 ^ 44 + reason * 2 ^ 36]]
  frame : { t with obj := s.obj, out := s.out } = s.setRx l { s.rx l with nakHold := true }

theorem State.bumpNorth_keepsObjects (s : State) (l : LinkId) (k : Nat) : (s.bumpNorth l k).keepsObjects s [k] := by
  unfold State.bumpNorth
  split
  · exact State.keepsObjects_bump (State.keepsObjects_refl s _) (by simp)
  · exact State.keepsObjects_refl s _

theorem State.bumpNorth_keepsButObjects (s : State) (l : LinkId) (k : Nat) : (s.bumpNorth l k).keepsButObjects s := by
  unfold State.bumpNorth
  split <;> rfl

theorem State.nak_naked (s : State) (l : LinkId) (reason : Nat) : (s.nak l reason).Naked s l reason := by
  unfold State.nak
  dsimp only
  split
  case isTrue hold =>
    have hsame : { s.rx l with nakHold := true } = s.rx l := by rw [← hold]
    exact ⟨State.keepsObjects_refl s _, (if_pos hold).symm, (s.setRx_rx l).symm.trans (by rw [hsame])⟩
  case isFalse hold =>
    refine ⟨fun k hk => (State.bumpNorth_keepsObjects _ l _ k hk).trans ?_, ?_, ?_⟩
    · cases l <;> rfl
    · rw [if_neg hold, show _ = _ from congrArg State.out (State.bumpNorth_keepsButObjects _ l _)]
      cases l <;> rfl
    · have hframe := State.bumpNorth_keepsButObjects ((s.emitBlock l 0xC3 [(s.rx l).exp * 2 ^ 44 + reason * 2 ^ 36]).setRx l
        { s.rx l with nakHold := true }) l Obj.RG_NAK_TX
      have hout := congrArg (fun v : State => { v with obj := s.obj, out := s.out }) hframe
      exact hout.trans (by cases l <;> rfl)

/-- The counter of a link's bad frames (R324). -/
def badKey : LinkId → Nat
  | .south k => Obj.RG_SCRC_ERR k
  | _ => Obj.RG_CRC_ERR

theorem State.badFrame_eq (s : State) (l : LinkId) (reason : Nat) : s.badFrame l reason = (s.bump (badKey l)).nak l reason := by
  cases l <;> rfl

/-- A frame has been counted as bad and NAKed with a reason; its check unit may have taken it. -/
structure State.FrameBad (t s : State) (l : LinkId) (reason : Nat) : Prop where
  count : t.o (badKey l) = satAdd 32 (s.o (badKey l)) 1
  objs : t.keepsObjects s [badKey l, Obj.RG_NAK_TX, Obj.CHK_RUN (rxUnit l)]
  out : t.out = if (s.rx l).nakHold then s.out
    else s.out ++ [Sent.block l 0xC3 [(s.rx l).exp * 2 ^ 44 + reason * 2 ^ 36]]
  frame : { t with obj := s.obj, out := s.out } = s.setRx l { s.rx l with nakHold := true }

theorem badKey_ne (l : LinkId) : badKey l ≠ Obj.RG_NAK_TX := by
  cases l with
  | south k => simp only [badKey, Obj.RG_SCRC_ERR, Obj.RG_NAK_TX, objKey]; omega
  | _ => simp [badKey, Obj.RG_CRC_ERR, Obj.RG_NAK_TX, objKey]

theorem badKey_ne_chkRun (l : LinkId) (hi : i < 255) : badKey l ≠ Obj.CHK_RUN i := by
  refine ne_chkRun hi ?_
  cases l with
  | south k => simp only [badKey, Obj.RG_SCRC_ERR, objKey]; omega
  | north => exact (by decide : Obj.RG_CRC_ERR / 256 ≠ 0x3830)
  | pass j => exact (by decide : Obj.RG_CRC_ERR / 256 ≠ 0x3830)

theorem State.rx_of_keepsButObjects (h : v.keepsButObjects s) (l : LinkId) : v.rx l = s.rx l := by
  have hnorth : v.north = s.north := (congrArg State.north h :)
  have hsouth : v.south = s.south := (congrArg State.south h :)
  cases l <;> simp only [State.rx, hnorth, hsouth]

theorem State.badFrame_bad (hobj : v.keepsObjects s [Obj.CHK_RUN (rxUnit l)]) (hframe : v.keepsButObjects s) (reason : Nat) :
    (v.badFrame l reason).FrameBad s l reason := by
  have hnak := (v.bump (badKey l)).nak_naked l reason
  have hrx : (v.bump (badKey l)).rx l = s.rx l := State.rx_of_keepsButObjects hframe l
  have hout : v.out = s.out := (congrArg State.out hframe :)
  rw [State.badFrame_eq]
  refine ⟨?_, fun k hk => ?_, ?_, ?_⟩
  · rw [hnak.objs _ (by simpa using badKey_ne l), State.o_bump_self, hobj _ (by simpa using badKey_ne_chkRun l (rxUnit_lt l))]
  · obtain ⟨hbad, htx, hchk⟩ : k ≠ badKey l ∧ k ≠ Obj.RG_NAK_TX ∧ k ≠ Obj.CHK_RUN (rxUnit l) := by simpa using hk
    rw [hnak.objs k (by simpa using htx), State.o_bump_ne _ hbad, hobj k (by simpa using hchk)]
  · rw [hnak.out, hrx, State.out_bump, hout]
  · have hset := congrArg (fun w : State => { w with obj := s.obj, out := s.out }) hnak.frame
    rw [hrx] at hset
    have hs := congrArg (fun w : State => w.setRx l { s.rx l with nakHold := true }) hframe
    refine hset.trans (Eq.trans ?_ hs)
    cases l <;> simp only [State.setRx, State.bump, State.bumpBy, State.setO, hout]

theorem State.FrameBad.north (h : t.FrameBad s .north reason) :
    t.north = { s.north with rx := { s.north.rx with nakHold := true } } :=
  (congrArg State.north h.frame :)

theorem State.FrameBad.mailbox (h : t.FrameBad s .north reason) : t.north.mailbox = s.north.mailbox :=
  (congrArg North.mailbox h.north :)

theorem State.FrameBad.north_frame (h : t.FrameBad s .north reason) : { t with obj := s.obj, out := s.out, north := s.north } = s :=
  (congrArg (fun w : State => { w with north := s.north }) h.frame :)

theorem State.FrameBad.rx (h : t.FrameBad s l reason) : t.rx l = { s.rx l with nakHold := true } := by
  have hrx : t.rx l = (s.setRx l { s.rx l with nakHold := true }).rx l := by
    rw [← h.frame]
    cases l <;> rfl
  rw [hrx, State.rx_setRx_self]

theorem State.FrameBad.cufel {k : Port} (h : t.FrameBad s (.south k) reason) : t.cufel = s.cufel := (congrArg State.cufel h.frame :)

/-! ### The judgement of a frame (R324) -/

/-- The check unit of the link has taken the frame (R271). -/
def State.frameChecked (s : State) (l : LinkId) (sof : Nat) (blocks : List Nat) : State :=
  s.check (rxUnit l) (frameBytes sof (blocks.flatMap (bytesLE 8)))

theorem State.frameChecked_keepsObjects (s : State) (l : LinkId) (sof : Nat) (blocks : List Nat) :
    (s.frameChecked l sof blocks).keepsObjects s [Obj.CHK_RUN (rxUnit l)] :=
  s.check_keepsObjects _ _

theorem State.frameChecked_keepsButObjects (s : State) (l : LinkId) (sof : Nat) (blocks : List Nat) :
    (s.frameChecked l sof blocks).keepsButObjects s :=
  State.keepsButObjects_setO (State.keepsButObjects_refl s) _ _

variable {sof e : Nat} {blocks : List Nat} {eof : Option Nat}

theorem State.frameReceive_idle {j : Fin 8} (h : l = .pass j ∨ s.isUp l = false) : s.frameReceive l sof blocks eof = s := by
  cases l with
  | pass i => rfl
  | _ => simp [State.frameReceive, h.resolve_left (by simp)]

theorem State.frameChecked_bad (s : State) (l : LinkId) (sof : Nat) (blocks : List Nat) (reason : Nat) :
    ((s.frameChecked l sof blocks).badFrame l reason).FrameBad s l reason :=
  State.badFrame_bad (s.frameChecked_keepsObjects l sof blocks) (s.frameChecked_keepsButObjects l sof blocks) reason

/-- A frame that is aborted, or has another number of blocks than its SOF says. -/
theorem State.frameReceive_notWhole (hl : ∀ j, l ≠ .pass j) (hup : s.isUp l = true)
    (hlen : eof = none ∨ blocks.length ≠ bits sof 43 38 + 1) : (s.frameReceive l sof blocks eof).FrameBad s l 2 := by
  have hjudged : s.frameReceive l sof blocks eof = if eof = none then s.badFrame l 2 else (s.frameChecked l sof blocks).badFrame l 2 := by
    cases l with
    | pass j => exact absurd rfl (hl j)
    | _ =>
      cases eof with
      | none => simp [State.frameReceive, hup]
      | some e => simp [State.frameReceive, State.frameChecked, hup, hlen.resolve_left (by simp)]
  rw [hjudged]
  split
  · exact State.badFrame_bad (State.keepsObjects_refl s _) rfl 2
  · exact s.frameChecked_bad l sof blocks 2

theorem State.frameReceive_wrongCrc (hl : ∀ j, l ≠ .pass j) (hup : s.isUp l = true) (hlen : blocks.length = bits sof 43 38 + 1)
    (hcrc : bits e 55 24 ≠ crc32c (frameBytes sof (blocks.flatMap (bytesLE 8)))) :
    (s.frameReceive l sof blocks (some e)).FrameBad s l 0 := by
  have hjudged : s.frameReceive l sof blocks (some e) = (s.frameChecked l sof blocks).badFrame l 0 := by
    cases l with
    | pass j => exact absurd rfl (hl j)
    | _ => simp [State.frameReceive, State.frameChecked, hup, hlen, hcrc]
  rw [hjudged]
  exact s.frameChecked_bad l sof blocks 0

/-- A whole CUFEL frame with its CRC, whose two sequence numbers agree, is handled by its number. -/
theorem State.frameReceive_right (hl : ∀ j, l ≠ .pass j) (hup : s.isUp l = true) (hlen : blocks.length = bits sof 43 38 + 1)
    (hcrc : bits e 55 24 = crc32c (frameBytes sof (blocks.flatMap (bytesLE 8)))) (hseq : bits e 23 12 = bits sof 55 44)
    (hkind : bits sof 37 36 = 1) :
    s.frameReceive l sof blocks (some e) = (s.frameChecked l sof blocks).frameInOrder l sof (blocks.flatMap (bytesLE 8)) := by
  cases l with
  | pass j => exact absurd rfl (hl j)
  | _ => simp [State.frameReceive, State.frameChecked, hup, hlen, hcrc, hseq, hkind]

/-! ### The mailbox (R326, R460) -/

theorem State.leafPort_lt {dst : Nat} (h : s.leafPort dst = some k) : k < 8 := by
  simp only [State.leafPort, Option.ite_none_right_eq_some, Bool.and_eq_true, decide_eq_true_eq, Option.some.injEq] at h
  omega

/-- What a check unit holds has no say in whether the mailbox takes a frame. -/
theorem State.mailFull_check (s : State) (b : List Byte) (hi : i < 255) (l : LinkId) (data : List Byte) :
    (s.check i b).mailFull l data = s.mailFull l data := by
  have hleaf : (s.check i b).leafPort = s.leafPort := by
    funext dst
    simp only [State.leafPort, State.isHub, State.clusterId, s.o_check_ne b hi (k := Obj.CF_ROLE) (by decide),
      s.o_check_ne b hi (k := Obj.CF_ADDR) (by decide)]
    rfl
  have hwait (k : Nat) : (s.check i b).relayWaiting k = s.relayWaiting k := by
    simp only [State.relayWaiting, hleaf]
    rfl
  have hboot : (s.check i b).ob Obj.PWR_BOOT_STEP 4 = s.ob Obj.PWR_BOOT_STEP 4 := State.ob_of_o (s.o_check_ne b hi (by decide))
  unfold State.mailFull
  rw [hleaf, hboot]
  cases hport : (if southLink l then none else s.leafPort (msgDst data)) with
  | none => rfl
  | some k =>
    have hk : k < 8 := by
      split at hport
      · exact absurd hport (by simp)
      · exact State.leafPort_lt hport
    simp only [hwait, s.o_check_ne b hi (k := Obj.HUB_PSTATE k) (by simp only [Obj.HUB_PSTATE, objKey]; omega)]
    rfl


/-! ### A frame by its sequence number (R326) -/

variable {data : List Byte}

theorem State.mailFull_frameChecked (s : State) (l : LinkId) (sof : Nat) (blocks : List Nat) (data : List Byte) :
    (s.frameChecked l sof blocks).mailFull l data = s.mailFull l data :=
  s.mailFull_check _ (rxUnit_lt l) l data

theorem State.frameInOrder_next (hseq : bits sof 55 44 = (s.rx l).exp) (hfull : s.mailFull l data = false) :
    s.frameInOrder l sof data =
      (let v := s.setRx l { s.rx l with exp := ((s.rx l).exp + 1) % 4096, nakHold := false, ackDue := true }
      (if southLink l then v else v.wrapBy 48 Obj.RG_FRAMES_RX 1).deliver l sof data) := by
  simp [State.frameInOrder, hseq, hfull]

/-- The next frame, with no room for its message. -/
theorem State.frameInOrder_noRoom (hseq : bits sof 55 44 = (s.rx l).exp) (hkind : bits sof 37 36 = 1)
    (hfull : s.mailFull l data = true) : ((s.frameChecked l sof blocks).frameInOrder l sof data).FrameBad s l 3 := by
  have hnext : bits sof 55 44 = ((s.frameChecked l sof blocks).rx l).exp := by
    rw [hseq, State.rx_of_keepsButObjects (s.frameChecked_keepsButObjects l sof blocks)]
  have hjudged : (s.frameChecked l sof blocks).frameInOrder l sof data = (s.frameChecked l sof blocks).badFrame l 3 := by
    simp [State.frameInOrder, hnext, (s.mailFull_frameChecked l sof blocks data).trans hfull, hkind]
  rw [hjudged]
  exact s.frameChecked_bad l sof blocks 3

/-- A message of the back-end has been accepted into the mailbox, the last of those that the supervisor serves (R461). -/
def State.mailTaken (s : State) (data : List Byte) : State :=
  let r := s.north.rx
  let v := s.wrapBy 48 Obj.RG_FRAMES_RX 1
  { v with
    north := { v.north with
      rx := { r with exp := (r.exp + 1) % 4096, nakHold := false, ackDue := true }
      mailbox := v.north.mailbox ++ [data] }
    cufel := { v.cufel with order := v.cufel.order ++ [.north] } }

/-- What the back-end's message changes, its check unit included. -/
structure State.Mailed (t s : State) (data : List Byte) : Prop where
  count : t.o Obj.RG_FRAMES_RX = (s.o Obj.RG_FRAMES_RX + 1) % 2 ^ 48
  objs : t.keepsObjects s [Obj.RG_FRAMES_RX, Obj.CHK_RUN 17]
  mailbox : t.north.mailbox = s.north.mailbox ++ [data]
  rx : t.north.rx = { s.north.rx with exp := (s.north.rx.exp + 1) % 4096, nakHold := false, ackDue := true }
  cufel : t.cufel = { s.cufel with order := s.cufel.order ++ [.north] }
  frame : { t with obj := s.obj, north := s.north, cufel := s.cufel } = s

theorem State.mailTaken_mailed (hobj : v.keepsObjects s [Obj.CHK_RUN 17]) (hframe : v.keepsButObjects s) :
    (v.mailTaken data).Mailed s data where
  count := (v.o_setO_self _ _).trans (by rw [hobj _ (by decide)])
  objs := State.keepsObjects_setO (State.keepsObjects_mono hobj (by simp)) (by simp) _
  mailbox := (congrArg (fun w : State => (w.mailTaken data).north.mailbox) hframe :)
  rx := (congrArg (fun w : State => (w.mailTaken data).north.rx) hframe :)
  cufel := (congrArg (fun w : State => (w.mailTaken data).cufel) hframe :)
  frame := (congrArg (fun w : State => { w with north := s.north, cufel := s.cufel }) hframe :)

theorem State.Mailed.out (h : t.Mailed s data) : t.out = s.out := (congrArg State.out h.frame :)

theorem State.frameInOrder_mailed (hseq : bits sof 55 44 = s.north.rx.exp) (hfull : s.mailFull .north data = false) :
    ((s.frameChecked .north sof blocks).frameInOrder .north sof data).Mailed s data := by
  have hframe := s.frameChecked_keepsButObjects .north sof blocks
  have hobj := s.frameChecked_keepsObjects .north sof blocks
  have hroom := (s.mailFull_frameChecked .north sof blocks data).trans hfull
  generalize s.frameChecked .north sof blocks = v at hframe hobj hroom
  have hnext : bits sof 55 44 = (v.rx .north).exp := by
    rw [State.rx_of_keepsButObjects hframe]
    exact hseq
  rw [State.frameInOrder_next hnext hroom]
  exact State.mailTaken_mailed hobj hframe

/-- A number up to 1,024 behind the expected one. -/
theorem State.frameInOrder_duplicate (h : ((s.rx l).exp + 4096 - bits sof 55 44) % 4096 ∈ List.range' 1 1024) :
    s.frameInOrder l sof data = (s.setRx l { s.rx l with ackDue := true }).bumpNorth l Obj.RG_DUP_RX := by
  rw [List.mem_range'_1] at h
  unfold State.frameInOrder
  dsimp only
  rw [if_neg (by omega), if_pos (by omega)]

/-- Any other number but the expected one. -/
theorem State.frameInOrder_outOfOrder (h : 1024 < ((s.rx l).exp + 4096 - bits sof 55 44) % 4096) :
    s.frameInOrder l sof data = (s.bumpNorth l Obj.RG_SEQ_ERR).nak l 1 := by
  unfold State.frameInOrder
  dsimp only
  rw [if_neg (by omega), if_neg (by omega)]

theorem State.frameInOrder_duplicate_north (h : (s.north.rx.exp + 4096 - bits sof 55 44) % 4096 ∈ List.range' 1 1024) :
    ((s.frameChecked .north sof blocks).frameInOrder .north sof data).north = { s.north with rx := { s.north.rx with ackDue := true } } ∧
    ((s.frameChecked .north sof blocks).frameInOrder .north sof data).o Obj.RG_DUP_RX = satAdd 32 (s.o Obj.RG_DUP_RX) 1 ∧
    ((s.frameChecked .north sof blocks).frameInOrder .north sof data).out = s.out := by
  have hframe := s.frameChecked_keepsButObjects .north sof blocks
  have hobj := s.frameChecked_keepsObjects .north sof blocks
  have hnorth : (s.frameChecked .north sof blocks).north = s.north := (congrArg State.north hframe :)
  generalize s.frameChecked .north sof blocks = v at hframe hobj hnorth
  rw [← hnorth] at h
  rw [State.frameInOrder_duplicate (l := .north) h]
  refine ⟨?_, ?_, (congrArg State.out hframe :)⟩
  · rw [← hnorth]
    rfl
  · rw [← hobj Obj.RG_DUP_RX (by decide)]
    exact State.o_bump_self (v.setRx .north { v.north.rx with ackDue := true }) _

theorem State.frameInOrder_seqError_north (h : 1024 < (s.north.rx.exp + 4096 - bits sof 55 44) % 4096) :
    ((s.frameChecked .north sof blocks).frameInOrder .north sof data).north =
      { s.north with rx := { s.north.rx with nakHold := true } } ∧
    ((s.frameChecked .north sof blocks).frameInOrder .north sof data).o Obj.RG_SEQ_ERR = satAdd 32 (s.o Obj.RG_SEQ_ERR) 1 ∧
    ((s.frameChecked .north sof blocks).frameInOrder .north sof data).out = if s.north.rx.nakHold then s.out
      else s.out ++ [Sent.block .north 0xC3 [s.north.rx.exp * 2 ^ 44 + 2 ^ 36]] := by
  have hframe := s.frameChecked_keepsButObjects .north sof blocks
  have hobj := s.frameChecked_keepsObjects .north sof blocks
  have hnorth : (s.frameChecked .north sof blocks).north = s.north := (congrArg State.north hframe :)
  have hout : (s.frameChecked .north sof blocks).out = s.out := (congrArg State.out hframe :)
  generalize s.frameChecked .north sof blocks = v at hframe hobj hnorth hout
  have hnak := (v.bumpNorth .north Obj.RG_SEQ_ERR).nak_naked .north 1
  rw [← hnorth] at h
  rw [State.frameInOrder_outOfOrder (l := .north) h]
  refine ⟨(congrArg State.north hnak.frame).trans ?_, ?_, hnak.out.trans ?_⟩
  · rw [← hnorth]
    rfl
  · rw [hnak.objs _ (by decide), ← hobj Obj.RG_SEQ_ERR (by decide)]
    exact v.o_bump_self _
  · rw [← hnorth, ← hout, Nat.one_mul]
    rfl

/-- A leaf's message has been accepted, and waits to go north (R460). -/
def State.leafTaken (s : State) (k : Port) (data : List Byte) : State :=
  let r := s.rx (.south k)
  let v := (s.setRx (.south k) { r with exp := (r.exp + 1) % 4096, nakHold := false, ackDue := true }).wrapBy 32 Obj.CF_RELAY_NORTH 1
  { v with cufel := { v.cufel with relayNorth := v.cufel.relayNorth ++ [data] } }

theorem State.frameInOrder_south {k : Port} (hseq : bits sof 55 44 = (s.rx (.south k)).exp)
    (hfull : s.mailFull (.south k) data = false) (hkind : bits sof 37 36 = 1) (hmerge : s.mergeMode = true) :
    s.frameInOrder (.south k) sof data = s.leafTaken k data := by
  let r := s.rx (.south k)
  let v := s.setRx (.south k) { r with exp := (r.exp + 1) % 4096, nakHold := false, ackDue := true }
  have hleaf : v.deliver (.south k) sof data = v.leafMessage k data := by simp [State.deliver, hkind]
  have hmode : (v.wrapBy 32 Obj.CF_RELAY_NORTH 1).mergeMode = true :=
    (State.mergeMode_congr (v.o_setO_ne _ (by decide)) (v.o_setO_ne _ (by decide))).trans hmerge
  exact (State.frameInOrder_next hseq hfull).trans (hleaf.trans (if_pos hmode))

theorem State.frameInOrder_leafTaken {k : Port} (hseq : bits sof 55 44 = (s.rx (.south k)).exp)
    (hfull : s.mailFull (.south k) data = false) (hkind : bits sof 37 36 = 1) (hmerge : s.mergeMode = true) :
    (((s.frameChecked (.south k) sof blocks).frameInOrder (.south k) sof data).rx (.south k)).exp =
      ((s.rx (.south k)).exp + 1) % 4096 ∧
    (((s.frameChecked (.south k) sof blocks).frameInOrder (.south k) sof data).rx (.south k)).ackDue = true ∧
    ((s.frameChecked (.south k) sof blocks).frameInOrder (.south k) sof data).cufel.relayNorth = s.cufel.relayNorth ++ [data] ∧
    ((s.frameChecked (.south k) sof blocks).frameInOrder (.south k) sof data).o Obj.CF_RELAY_NORTH =
      (s.o Obj.CF_RELAY_NORTH + 1) % 2 ^ 32 := by
  have hframe := s.frameChecked_keepsButObjects (.south k) sof blocks
  have hobj (key : Nat) (hkey : key / 256 ≠ 0x3830) : (s.frameChecked (.south k) sof blocks).o key = s.o key :=
    s.frameChecked_keepsObjects (.south k) sof blocks key (notMem_chkRun (rxUnit_lt _) hkey)
  have hroom := (s.mailFull_frameChecked (.south k) sof blocks data).trans hfull
  generalize s.frameChecked (.south k) sof blocks = v at hframe hobj hroom
  have hrx : v.rx (.south k) = s.rx (.south k) := State.rx_of_keepsButObjects hframe _
  have hmode := (State.mergeMode_congr (hobj _ (by decide)) (hobj _ (by decide))).trans hmerge
  have hset := v.rx_setRx_self (.south k)
    { v.rx (.south k) with exp := ((v.rx (.south k)).exp + 1) % 4096, nakHold := false, ackDue := true }
  rw [State.frameInOrder_south (hrx ▸ hseq) hroom hkind hmode]
  refine ⟨(congrArg LinkRx.exp hset).trans (by rw [hrx]), congrArg LinkRx.ackDue hset,
    (congrArg (fun w : State => w.cufel.relayNorth ++ [data]) hframe :), (State.o_setO_self ..).trans ?_⟩
  rw [← hobj Obj.CF_RELAY_NORTH (by decide)]
  rfl

end Sys2Proof.Machine
end

section
/-! SUPPORT. The statement on frames received and acknowledgements sent (R220, R324, R326, R327, R345, R461, R463). -/
namespace Sys2Proof.Machine

variable {s t v : State} {l : LinkId} {k : Port} {sof : Nat} {data : List Byte}

/-! ### An acknowledgement that is due (R220, R327) -/

theorem State.ackSend_due (hl : ∀ j, l ≠ .pass j) (hup : s.isUp l = true) (hdue : (s.rx l).ackDue = true)
    (hroom : s.bufferFull l = false) :
    s.ackSend l = (s.emitBlock l 0x3C [((s.rx l).exp + 4095) % 4096 * 2 ^ 44]).setRx l { s.rx l with ackDue := false } := by
  cases l with
  | pass j => exact absurd rfl (hl j)
  | _ => simp [State.ackSend, hup, hdue, hroom]

theorem State.ackSend_waits {j : Fin 8} (h : l = .pass j ∨ s.isUp l = false ∨ (s.rx l).ackDue = false ∨ s.bufferFull l = true) :
    s.ackSend l = s := by
  cases l with
  | pass j => rfl
  | _ =>
    have hno := h.resolve_left (by simp)
    refine if_neg ?_
    rcases hno with h | h | h <;> simp [h]

/-- Settles O25: a frame at fault is counted and NAKed, one that is right is handled by its number, and an ACK that is due goes out. -/
theorem framesAreAcceptedInOrderOrNaked : Obligations.FramesAreAcceptedInOrderOrNaked := by
  unfold Obligations.FramesAreAcceptedInOrderOrNaked
  intro k j l sof e d eof s hawake
  have hrun {c : Instr} {t u : State} (hexec : exec c s = .next (s.ifAwake t)) (ht : t = u) : exec c s = .next u := by
    rw [hexec, State.ifAwake_of hawake, ht]
  have hlength : (d.map BitVec.toNat).length = d.length := List.length_map ..
  have hnorth (j : Fin 8) : LinkId.north ≠ .pass j := by simp
  have hsouth (j : Fin 8) : LinkId.south k ≠ .pass j := by simp
  refine ⟨fun h => hrun rfl (State.frameReceive_idle h), fun hup => ?_, fun hup heof hlen hcrc hseq hkind hnext hmerge => ?_,
    fun hdown => ?_, hrun rfl rfl, fun h => hrun rfl (State.ackSend_waits h), fun hl hup hdue hroom => ?_⟩
  · have hup : s.isUp .north = true := State.isUp_north.mpr hup
    refine ⟨fun hbad => ?_, fun heof hlen => ⟨fun hcrc => ?_, fun hcrc hseq hkind => ?_⟩⟩
    · have hlen : eof.map BitVec.toNat = none ∨ (d.map BitVec.toNat).length ≠ bits sof.toNat 43 38 + 1 :=
        hbad.imp (by rintro rfl; rfl) (hlength ▸ ·)
      have hfault := State.frameReceive_notWhole hnorth hup hlen
      exact ⟨_, hrun rfl rfl, hfault.count, hfault.mailbox, hfault.rx, hfault.out,
        hfault.objs, hfault.north_frame⟩
    · subst heof
      have hfault := State.frameReceive_wrongCrc hnorth hup (hlength.trans hlen) hcrc
      exact ⟨_, hrun rfl rfl, hfault.count, hfault.mailbox, hfault.rx,
        hfault.out.trans (by simp only [Nat.zero_mul, Nat.add_zero]; rfl)⟩
    · subst heof
      have hright := State.frameReceive_right hnorth hup (hlength.trans hlen) hcrc hseq hkind
      refine ⟨fun hnext hfull => ?_, fun hnext hfull => ?_, fun hbehind => ?_, fun hahead => ?_⟩
      · have hmail := State.frameInOrder_mailed (blocks := d.map BitVec.toNat) hnext hfull
        exact ⟨_, hrun rfl hright, hmail.mailbox, hmail.rx, hmail.count, hmail.out,
          hmail.objs, hmail.cufel, hmail.frame⟩
      · have hfault := State.frameInOrder_noRoom (blocks := d.map BitVec.toNat) hnext hkind hfull
        exact ⟨_, hrun rfl hright, hfault.mailbox, hfault.rx, hfault.out⟩
      · obtain ⟨hlink, hcount, hout⟩ := State.frameInOrder_duplicate_north (blocks := d.map BitVec.toNat) hbehind
        exact ⟨_, hrun rfl hright, hlink, hcount, hout⟩
      · obtain ⟨hlink, hcount, hout⟩ := State.frameInOrder_seqError_north (blocks := d.map BitVec.toNat) hahead
        exact ⟨_, hrun rfl hright, hlink, hcount, hout⟩
  · subst heof
    have hright := State.frameReceive_right hsouth (State.isUp_south.mpr hup) (hlength.trans hlen) hcrc hseq hkind
    refine ⟨fun hfull => ?_, fun hfull => ?_⟩
    · obtain ⟨hexp, hack, hrelay, hcount⟩ := State.frameInOrder_leafTaken (blocks := d.map BitVec.toNat) hnext hfull hkind hmerge
      exact ⟨_, hrun rfl hright, hexp, hack, hrelay, hcount⟩
    · have hfault := State.frameInOrder_noRoom (blocks := d.map BitVec.toNat) hnext hkind hfull
      exact ⟨_, hrun rfl hright, hfault.rx, hfault.cufel, hfault.count, hfault.out⟩
  · simp [State.mailFull, hdown]
  · have hl : ∀ i, l ≠ .pass i := by rcases hl with rfl | rfl <;> simp
    refine ⟨_, hrun rfl (State.ackSend_due hl hup hdue hroom), ?_, State.rx_setRx_self .., ?_⟩
    · cases l <;> rfl
    · cases l with
      | pass i => exact absurd rfl (hl i)
      | _ => rfl

end Sys2Proof.Machine
end

section
/-! SUPPORT. What all that follows a link's way into DOWN leaves of the north link's CAPS side and of its count of lost frames (R316,
R331, R345). -/
namespace Sys2Proof.Machine

variable {s t u : State} {i j k : Nat}

/-! ### What the north link says of its past, and its lost frames -/

/-- The north link's side of the capability exchange and the count of its discarded frames. -/
def State.loss (s : State) : CapsSide × Nat := (s.north.caps, s.o Obj.RG_LOSTFR)

theorem State.loss_of_frame (hcaps : t.north.caps = s.north.caps) (ho : t.o Obj.RG_LOSTFR = s.o Obj.RG_LOSTFR) : t.loss = s.loss :=
  Prod.ext hcaps ho

theorem State.loss_setO (s : State) (hk : Obj.RG_LOSTFR ≠ k) (v : Nat) : (s.setO k v).loss = s.loss :=
  State.loss_of_frame rfl (s.o_setO_ne v hk)

theorem State.loss_ite {c : Prop} [Decidable c] (ht : t.loss = s.loss) (hu : u.loss = s.loss) : (if c then t else u).loss = s.loss := by
  split
  · exact ht
  · exact hu

theorem lostfr_ne_port {sub : Nat} (hk : k < 8) (hsub : sub < 256) : Obj.RG_LOSTFR ≠ objKey (0x3410 + k) sub := by
  simp only [Obj.RG_LOSTFR, objKey]
  omega

theorem lostfr_ne_south {sub : Nat} (hk : k < 8) (hsub : sub < 256) : Obj.RG_LOSTFR ≠ objKey (0x4420 + k) sub := by
  simp only [Obj.RG_LOSTFR, objKey]
  omega

theorem lostfr_ne_lane {sub : Nat} (hi : i < 25) (hsub : sub < 256) : Obj.RG_LOSTFR ≠ objKey (0x4010 + i) sub := by
  simp only [Obj.RG_LOSTFR, objKey]
  omega

theorem lostfr_ne_condCnt (n : Nat) : Obj.RG_LOSTFR ≠ Obj.FLT_COND_CNT n := by
  simp only [Obj.RG_LOSTFR, Obj.FLT_COND_CNT, objKey]
  omega

/-! ### The flags (R522, R550 to R554) -/

theorem State.loss_refreshFaultN (s : State) : s.refreshFaultN.loss = s.loss := State.loss_ite rfl (s.loss_setO (by decide) _)

theorem State.loss_endIf (s : State) (n : Nat) (gone : Bool) : (s.endIf n gone).loss = s.loss :=
  State.loss_ite (s.loss_setO (by decide) _) rfl

theorem State.loss_dieCond (s : State) : s.dieCond.loss = s.loss := State.loss_ite rfl (s.loss_setO (by decide) _)

theorem State.loss_stage (s : State) (code cls unit : Nat) (d : List Byte) : (s.stage code cls unit d).loss = s.loss :=
  State.loss_ite (s.loss_setO (by decide) _) rfl

theorem State.loss_ariseIf (s : State) (n : Nat) : (s.ariseIf n).loss = s.loss := by
  have hset : ((s.setOb Obj.FLT_ACTIVE n true).setOb Obj.FLT_LATCHED n true).loss = s.loss :=
    (State.loss_setO _ (by decide) _).trans (s.loss_setO (by decide) _)
  exact State.loss_ite rfl ((State.loss_refreshFaultN _).trans ((State.loss_setO _ (lostfr_ne_condCnt n) _).trans hset))

theorem State.loss_portCond (s : State) : s.portCond.loss = s.loss :=
  State.loss_ite ((State.loss_ariseIf _ 12).trans (s.loss_stage _ _ _ _)) rfl

theorem State.loss_settle (s : State) : s.settle.loss = s.loss :=
  (State.loss_refreshFaultN _).trans <| (State.loss_dieCond _).trans <| (State.loss_portCond _).trans <|
    (State.loss_endIf _ _ _).trans <| (State.loss_endIf _ _ _).trans <| (State.loss_endIf _ _ _).trans <|
    (State.loss_endIf _ _ _).trans <| (State.loss_endIf _ _ _).trans <| State.loss_ite (s.loss_setO (by decide) _) rfl

/-! ### The lanes (R289, R298 to R300) -/

theorem State.loss_laneL2 (s : State) (hi : i < 25) : (s.laneL2 i).loss = s.loss :=
  State.loss_of_frame rfl (s.laneL2_keepsObjects i _ (by
    simpa only [List.mem_cons, List.not_mem_nil, or_false, not_or] using
      ⟨lostfr_ne_lane hi (by decide), lostfr_ne_lane hi (by decide), lostfr_ne_lane hi (by decide)⟩))

theorem State.loss_laneL1 (s : State) (hi : i < 25) : (s.laneL1 i).loss = s.loss :=
  State.loss_of_frame rfl (s.laneL1_keepsObjects i _ (by
    simpa only [List.mem_cons, List.not_mem_nil, or_false, not_or] using
      ⟨lostfr_ne_lane hi (by decide), lostfr_ne_lane hi (by decide), lostfr_ne_lane hi (by decide)⟩))

theorem State.loss_laneFollow (s : State) (hi : i < 25) : (s.laneFollow i).loss = s.loss :=
  State.loss_ite (s.loss_laneL2 hi) (State.loss_ite (s.loss_laneL1 hi) rfl)

theorem State.loss_lanesFollow (s : State) : s.lanesFollow.loss = s.loss :=
  foldl_view State.loss (fun _ hi v => v.loss_laneFollow (List.mem_range.mp hi)) s

/-! ### The hub's ports (R214, R218, R225) -/

theorem State.loss_setPortState (s : State) (hk : k < 8) (v : Nat) : (s.setPortState k v).loss = s.loss := by
  have hset : ((s.setO (Obj.HUB_PSTATE k) v).setOb Obj.HUB_PORT_UP k (v == 3)).loss = s.loss :=
    (State.loss_setO _ (by decide) _).trans (s.loss_setO (lostfr_ne_port hk (by decide)) v)
  exact State.loss_ite ((State.loss_setO _ (lostfr_ne_port hk (by decide)) _).trans hset) hset

theorem State.loss_closeAt (s : State) (n reason : Nat) (hk : k < 8) : (s.closeAt n (k + 1) reason).loss = s.loss :=
  have hne : Obj.RG_LOSTFR ≠ Obj.HUB_ABSENT k := lostfr_ne_port hk (by decide)
  State.loss_of_frame (congrArg (fun v : State => v.north.caps) (s.closeAt_keepsButRecords n (k + 1) reason) :)
    (s.closeAt_keepsObjects n (k + 1) reason _ (by simpa using hne))

theorem State.loss_recordOut (s : State) (r : MRec) (rs : List MRec) : ((s.recordOut r rs).withCluster r).loss = s.loss := by
  obtain ⟨hframe, hkeeps⟩ := s.recordOut_keeps r rs
  exact State.loss_of_frame (congrArg (fun v : State => v.north.caps) hframe :) (hkeeps _ (by decide))

theorem State.loss_releaseRecs (n : Nat) (s : State) : (s.releaseRecs n).loss = s.loss := by
  induction n generalizing s with
  | zero => rfl
  | succ n ih =>
    cases hrecs : s.hub.recs with
    | nil => rw [State.releaseRecs_waits (by simp [hrecs])]
    | cons r rs =>
      cases hdone : r.done with
      | false => rw [State.releaseRecs_waits (by simp [hrecs, hdone])]
      | true =>
        rw [State.releaseRecs_done hrecs hdone]
        exact (ih _).trans (s.loss_recordOut r rs)

theorem State.loss_closePort (s : State) (hk : k < 8) : (s.closePort k).loss = s.loss :=
  (State.loss_releaseRecs _ _).trans (foldl_view State.loss (fun n _ v => v.loss_closeAt n 1 hk) s)

theorem State.loss_noteEvent (s : State) (f : Nat) (c : Ch) (n us : Nat) : (s.noteEvent f c n us).loss = s.loss :=
  State.loss_ite rfl rfl

/-! ### The south links (R214, R314, R330, R345) -/

theorem State.loss_linkDown_south (s : State) (j : Port) (keep : Bool) : (s.linkDown (.south j) keep).loss = s.loss :=
  State.loss_of_frame rfl (s.o_setO_ne 0 (lostfr_ne_south j.isLt (by decide)))

theorem State.loss_enterCaps_south (s : State) (j : Port) : (s.enterCaps (.south j)).loss = s.loss :=
  State.loss_of_frame rfl (s.o_setO_ne 1 (lostfr_ne_south j.isLt (by decide)))

theorem State.loss_loseHeld_south (s : State) (j : Port) : (s.loseHeld (.south j)).loss = s.loss := by
  have hrelease (v : State) (bs : List Nat) : (v.releaseAll .replay bs).loss = v.loss :=
    State.loss_of_frame (congrArg (fun v : State => v.north.caps) (v.releaseAll_keepsButPool .replay bs) :)
      (State.releaseAll_keepsObjects .replay bs v _ (by decide))
  exact (State.loss_setO _ (lostfr_ne_south j.isLt (by decide)) _).trans (hrelease _ _)

theorem State.loss_portOff (s : State) (hk : k < 8) : (s.portOff k).loss = s.loss := by
  have hport (p : HubPort) : ((s.setPortState k 0).setPort k p).loss = s.loss := s.loss_setPortState hk 0
  exact State.loss_ite ((State.loss_settle _).trans <| (State.loss_laneL2 _ (by omega)).trans <|
    (State.loss_laneL2 _ (by omega)).trans <| (State.loss_loseHeld_south _ _).trans <|
    (State.loss_linkDown_south _ _ _).trans (hport _)) rfl

theorem State.loss_southDown (s : State) (hk : k < 8) (keep : Bool) : (s.southDown k keep).loss = s.loss := by
  have hdown (p : HubPort) : ((s.linkDown (.south (portFin k)) keep).setPort k p).loss = s.loss :=
    s.loss_linkDown_south (portFin k) keep
  have hcond (v : State) : (if v.ob Obj.HUB_PORT_EN k && !v.ob Obj.FLT_ACTIVE 12 then (v.stage 0x0503 0 k (bytesLE 1 4)).ariseIf 12
      else v).loss = v.loss :=
    State.loss_ite ((State.loss_ariseIf _ 12).trans (State.loss_stage _ _ _ _ _)) rfl
  unfold State.southDown
  dsimp only
  split
  · exact (State.loss_settle _).trans <| (State.loss_portOff _ hk).trans <| (State.loss_closePort _ hk).trans <|
      (hcond _).trans <| (State.loss_noteEvent _ _ _ _ _).trans <| (State.loss_setPortState _ hk 4).trans (hdown _)
  · exact (State.loss_portOff _ hk).trans <| (State.loss_setPortState _ hk 1).trans (hdown _)
  · exact hdown _

theorem State.loss_clockRate (s : State) (hk : k < 8) : (s.clockRate k).loss = s.loss :=
  State.loss_ite (State.loss_laneL2 (s.setSouthRate k 3) (by omega)) rfl

theorem State.loss_southFollow (s : State) (hk : k < 8) : (s.southFollow k).loss = s.loss := by
  have hleaves : (if (s.o (Obj.RG_SSTATE k) = 1 ∨ s.o (Obj.RG_SSTATE k) = 3) ∧ s.sends (17 + k) = false then s.southDown k true
      else s).loss = s.loss :=
    State.loss_ite (s.loss_southDown hk true) rfl
  have hlink (v : State) : (if v.o (Obj.HUB_PSTATE k) = 1 ∨ v.o (Obj.HUB_PSTATE k) = 4 then v.setPortState k 2 else v).loss = v.loss :=
    State.loss_ite (v.loss_setPortState hk 2) rfl
  unfold State.southFollow
  dsimp only
  refine State.loss_ite (State.loss_ite rfl (s.loss_linkDown_south _ true)) (State.loss_ite ?_ (State.loss_ite rfl (State.loss_ite ?_ rfl)))
  · exact State.loss_ite ((State.loss_enterCaps_south _ _).trans ((hlink _).trans hleaves)) ((hlink _).trans hleaves)
  · exact (State.loss_clockRate _ hk).trans (s.loss_southDown hk true)

theorem State.loss_northHand (s : State) : s.northHand.loss = s.loss := State.loss_ite rfl rfl

theorem State.loss_followSouth (s : State) : s.followSouth.loss = s.loss :=
  (State.loss_settle _).trans <| (State.loss_northHand _).trans <| (State.loss_lanesFollow _).trans <|
    State.loss_ite (foldl_view State.loss (fun _ hk v => v.loss_southFollow (List.mem_range.mp hk)) s) rfl

/-! ### The north link enters DOWN with its link state given up (R331, R345) -/

/-- The north link's CAPS side starts again, and says that the link's state has been kept only where it is to be. -/
theorem State.loss_northDown (h : s.o Obj.RG_LSTATE ≠ 0) (keep : Bool) :
    (s.northDown keep).loss = ({ res := keep && s.kept .north }, s.o Obj.RG_LOSTFR) := by
  have hdown : (s.linkDown .north keep).loss = ({ res := keep && s.kept .north }, s.o Obj.RG_LOSTFR) :=
    Prod.ext rfl (State.o_setO_ne (j := Obj.RG_LOSTFR) (k := Obj.RG_LSTATE) s 0 (by decide))
  have hmap : ((s.linkDown .north keep).tpDropAll.setO Obj.RG_LANEMAP 0).loss = (s.linkDown .north keep).loss :=
    (State.loss_setO _ (by decide) 0).trans (State.loss_setO (s.linkDown .north keep) (k := Obj.TP_DROP) (by decide) _)
  unfold State.northDown
  rw [if_neg h]
  refine Eq.trans (State.loss_ite ?_ (State.loss_settle _)) (hmap.trans hdown)
  exact (State.loss_settle _).trans <| (State.loss_ariseIf _ 11).trans (State.loss_stage _ _ _ _ _)

/-- A north link in DOWN stays there or enters CAPS, with what it says of its past and its count of lost frames as they were. -/
theorem State.northFollow_ofDown (h : s.o Obj.RG_LSTATE = 0) :
    s.northFollow.o Obj.RG_LSTATE ≠ 3 ∧ s.northFollow.north.caps.res = s.north.caps.res ∧
      s.northFollow.o Obj.RG_LOSTFR = s.o Obj.RG_LOSTFR := by
  have hcaps : (s.enterCaps .north).o Obj.RG_LSTATE = 1 := s.o_setO_self _ 1
  have hlost : (s.enterCaps .north).o Obj.RG_LOSTFR = s.o Obj.RG_LOSTFR :=
    State.o_setO_ne (k := Obj.RG_LSTATE) s 1 (by decide)
  simp only [State.northFollow, h]
  split
  · exact ⟨hcaps ▸ by decide, rfl, hlost⟩
  · exact ⟨h ▸ by decide, rfl, rfl⟩

theorem State.follow_ofDown (h : s.o Obj.RG_LSTATE = 0) :
    s.follow.o Obj.RG_LSTATE ≠ 3 ∧ s.follow.north.caps.res = s.north.caps.res ∧ s.follow.o Obj.RG_LOSTFR = s.o Obj.RG_LOSTFR := by
  have hlanes := s.loss_lanesFollow
  have hstate : s.lanesFollow.o Obj.RG_LSTATE = 0 := ((s.lanesFollow_followed (l := false)).lstate rfl).trans h
  rw [State.follow_eq]
  generalize s.lanesFollow = v at hlanes hstate
  obtain ⟨hleft, hres, hlost⟩ := State.northFollow_ofDown hstate
  generalize v.northFollow = w at hleft hres hlost
  have hsouth := w.loss_followSouth
  have hkept := (w.followSouth_followed (l := false)).lstate rfl
  generalize w.followSouth = x at hsouth hkept
  obtain ⟨hcaps, hcount⟩ := Prod.ext_iff.mp hlanes
  obtain ⟨hsouthCaps, hsouthCount⟩ := Prod.ext_iff.mp hsouth
  exact ⟨hkept.trans_ne hleft, (congrArg CapsSide.res hsouthCaps).trans (hres.trans (congrArg CapsSide.res hcaps)),
    hsouthCount.trans (hlost.trans hcount)⟩

/-- The north link has left UP with its state given up and one frame more lost. -/
structure State.LostNorth (t s : State) : Prop where
  left : t.o Obj.RG_LSTATE ≠ 3
  res : t.north.caps.res = false
  count : t.o Obj.RG_LOSTFR = satAdd 32 (s.o Obj.RG_LOSTFR) 1
  memories : t.keepsMemories s

/-- A resent frame whose slot no longer holds it costs the link its state (R331). -/
theorem State.resendFails_north (hup : s.o Obj.RG_LSTATE ≠ 0) : (s.resendFails .north).LostNorth s := by
  have hbump : (s.bump Obj.RG_LOSTFR).o Obj.RG_LSTATE ≠ 0 := (State.o_bump_ne s (by decide)).trans_ne hup
  have hcount : (s.bump Obj.RG_LOSTFR).o Obj.RG_LOSTFR = satAdd 32 (s.o Obj.RG_LOSTFR) 1 := s.o_setO_self _ _
  have hmem : (s.bump Obj.RG_LOSTFR).keepsMemories s := ⟨rfl, rfl, rfl⟩
  unfold State.resendFails
  change ((s.bump Obj.RG_LOSTFR).northDown false).follow.LostNorth s
  generalize s.bump Obj.RG_LOSTFR = v at hbump hcount hmem
  have hdown := State.northDown_followed (l := false) hbump false
  obtain ⟨hcaps, hlost⟩ := Prod.ext_iff.mp (State.loss_northDown hbump false)
  obtain ⟨hleft, hres, hkept⟩ := State.follow_ofDown ((hdown.lstate rfl).trans (v.o_setO_self _ 0))
  exact ⟨hleft, hres.trans (congrArg CapsSide.res hcaps), hkept.trans (hlost.trans hcount),
    State.keepsMemories_trans (State.follow_keepsMemories hdown.memories) hmem⟩

end Sys2Proof.Machine
end

section
/-! SUPPORT. Acknowledgements received and rewinds: the frames that leave a sender's window, and what the mark and the send pointer come
to (R327, R328, R331). -/
namespace Sys2Proof.Machine

variable {s t u : State} {l : LinkId} {c n : Nat} {f : Frame}

/-! ### Frames leave the window (R328, R332) -/

theorem drop_length_takeWhile_add {α : Type} (p : α → Bool) (l : List α) (k : Nat) :
    l.drop ((l.takeWhile p).length + k) = (l.dropWhile p).drop k := by
  induction l with
  | nil => simp
  | cons x l ih => by_cases hx : p x = true <;> simp [hx, Nat.succ_add, ih]

/-- The frames that a window holds once those before frame n have left, and frame n too where it is included. -/
def LinkTx.after (t : LinkTx) (n : Nat) (incl : Bool) : List Frame := (t.held.dropWhile fun g => g.seq ≠ n).drop (b2n incl)

theorem LinkTx.after_eq (t : LinkTx) (n : Nat) (incl : Bool) :
    t.held.drop ((t.held.takeWhile fun f => f.seq != n).length + b2n incl) = t.after n incl := by
  have hp : (fun f : Frame => f.seq != n) = fun f => decide (f.seq ≠ n) := by
    funext f
    by_cases h : f.seq = n <;> simp [h]
  rw [hp, drop_length_takeWhile_add]
  rfl

/-- Frame n itself has not left where it is not included. -/
theorem LinkTx.mem_after {t : LinkTx} {g : Frame} (hg : g ∈ t.held) (hn : g.seq = n) : g ∈ t.after n false := by
  rw [← List.takeWhile_append_dropWhile (p := fun g : Frame => decide (g.seq ≠ n)) (l := t.held), List.mem_append] at hg
  refine hg.resolve_left fun hbefore => ?_
  have := List.mem_takeWhile_imp hbefore
  simp [hn] at this

theorem LinkTx.mem_of_mem_after {t : LinkTx} {g : Frame} {incl : Bool} (hg : g ∈ t.after n incl) : g ∈ t.held :=
  (List.dropWhile_sublist _).subset (List.mem_of_mem_drop hg)

theorem LinkTx.fixPtr_kept (t : LinkTx) :
    t.fixPtr.held = t.held ∧ t.fixPtr.next = t.next ∧ t.fixPtr.stalled = t.stalled ∧ (t.ptr = t.next → t.fixPtr.ptr = t.next) := by
  unfold LinkTx.fixPtr
  split
  · exact ⟨rfl, rfl, rfl, id⟩
  · refine ⟨rfl, rfl, rfl, fun h => ?_⟩
    cases t.held <;> simp [h]

/-- The window after frames have left it: the state of the rest of the device and of the link is as it was, but for the pool. -/
structure State.FreedNorth (t s : State) (n : Nat) (incl : Bool) : Prop where
  held : t.north.tx.held = s.north.tx.after n incl
  next : t.north.tx.next = s.north.tx.next
  stalled : t.north.tx.stalled = false
  ptr : s.north.tx.ptr = s.north.tx.next → t.north.tx.ptr = s.north.tx.next
  objs : t.keepsObjects s [Obj.POOL_DOUBLE, Obj.POOL_FOREIGN]
  frame : { t with obj := s.obj, query := s.query, north := s.north } = s

theorem State.freeBefore_north (s : State) (n : Nat) (incl : Bool) : (s.freeBefore .north n incl).FreedNorth s n incl := by
  let gone := (s.north.tx.held.takeWhile fun f => f.seq != n).length + b2n incl
  let x : LinkTx := { s.north.tx with held := s.north.tx.held.drop gone, stalled := false }
  have hfree : s.freeBefore .north n incl = (s.setTx .north x.fixPtr).releaseFrames (s.north.tx.held.take gone) := rfl
  have hafter : x.held = s.north.tx.after n incl := LinkTx.after_eq _ _ _
  rw [hfree]
  obtain ⟨hheld, hnext, hstalled, hptr⟩ := x.fixPtr_kept
  generalize s.north.tx.held.take gone = out
  have hpool := (s.setTx .north x.fixPtr).releaseAll_keepsButPool .replay (out.flatMap (·.blocks))
  have hspm := (State.releaseAll_kept .replay (out.flatMap (·.blocks)) (s.setTx .north x.fixPtr)).2
  have hobjs := State.releaseAll_keepsObjects .replay (out.flatMap (·.blocks)) (s.setTx .north x.fixPtr)
  unfold State.releaseFrames
  generalize State.releaseAll _ .replay _ = t at hpool hspm hobjs
  have hnorth : t.north = { s.north with tx := x.fixPtr } := (congrArg State.north hpool :)
  have htx : t.north.tx = x.fixPtr := congrArg North.tx hnorth
  refine ⟨by rw [htx, hheld, hafter], by rw [htx, hnext], by rw [htx, hstalled], fun h => by rw [htx]; exact hptr h, hobjs, ?_⟩
  have hframe := congrArg (fun v : State => { v with obj := s.obj, query := s.query, north := s.north, spm := t.spm }) hpool
  exact hframe.trans (congrArg (fun m => { s with spm := m }) hspm)

theorem State.FreedNorth.memories {incl : Bool} (h : t.FreedNorth s n incl) : t.keepsMemories s :=
  ⟨(congrArg State.spm h.frame :), (congrArg State.rankMem h.frame :), (congrArg State.nvm h.frame :)⟩

/-! ### An ACK (R327, R328) -/

theorem State.ackReceive_down (hup : s.isUp l = false) : s.ackReceive l c = s := by simp [State.ackReceive, hup]

theorem State.ackReceive_held (hup : s.isUp .north = true) (hlink : bits c 43 40 = 0) (hheld : s.holds .north (bits c 55 44) = true) :
    s.ackReceive .north c = (s.freeBefore .north (bits c 55 44) true).repartIfFree := by
  simp [State.ackReceive, hup, ackLink, hlink, hheld]

/-- A north message names no held frame: its link is the north link, which holds none of that number, or a link that does not
exist. -/
theorem ackLink_north (h : bits c 43 40 = 0 ∨ 8 ≤ bits c 43 40) : ackLink .north c = some .north ∨ ackLink .north c = none := by
  rcases h with h | h
  · exact .inl (by simp [ackLink, h])
  · exact .inr (by simp [ackLink, show bits c 43 40 ≠ 0 by omega, h])

theorem State.ackReceive_bad (hup : s.isUp .north = true) (hlink : bits c 43 40 = 0 ∨ 8 ≤ bits c 43 40)
    (hheld : s.holds .north (bits c 55 44) = false) : s.ackReceive .north c = s.bump Obj.RG_ACK_BAD := by
  rcases ackLink_north hlink with h | h <;> simp [State.ackReceive, hup, h, hheld, State.ackBad, southLink]

/-- A re-partition changes the slots and nothing else. -/
theorem State.repartIfFree_kept (s : State) :
    s.repartIfFree.north.tx = s.north.tx ∧ s.repartIfFree.out = s.out ∧ s.repartIfFree.keepsMemories s := by
  unfold State.repartIfFree
  split <;> exact ⟨rfl, rfl, rfl, rfl, rfl⟩

/-! ### A NAK (R331) -/

theorem State.nakReceive_down (hup : s.isUp l = false) : s.nakReceive l c = s := by simp [State.nakReceive, hup]

theorem State.nakReceive_held (hup : s.isUp .north = true) (hlink : bits c 43 40 = 0) (hheld : s.holds .north (bits c 55 44) = true) :
    s.nakReceive .north c =
      if ((s.bump Obj.RG_NAK_RX).freeBefore .north (bits c 55 44) false).againHeld .north (bits c 55 44) then
        (s.bump Obj.RG_NAK_RX).freeBefore .north (bits c 55 44) false
      else ((s.bump Obj.RG_NAK_RX).freeBefore .north (bits c 55 44) false).rewind .north (bits c 55 44) := by
  have hheld' : (s.bump Obj.RG_NAK_RX).holds .north (bits c 55 44) = true := hheld
  simp [State.nakReceive, hup, ackLink, hlink, hheld', State.bumpNorth]

theorem State.nakReceive_bad (hup : s.isUp .north = true) (hlink : bits c 43 40 = 0 ∨ 8 ≤ bits c 43 40)
    (hheld : s.holds .north (bits c 55 44) = false) :
    s.nakReceive .north c = (s.bump Obj.RG_NAK_RX).bump Obj.RG_ACK_BAD := by
  have hheld' : (s.bump Obj.RG_NAK_RX).holds .north (bits c 55 44) = false := hheld
  rcases ackLink_north hlink with h | h <;> simp [State.nakReceive, hup, h, hheld', State.ackBad, southLink, State.bumpNorth]

/-- The frame that a NAK names has been sent again too short a time ago for another rewind. -/
def State.sentAgain (s : State) (n : Nat) : Prop :=
  ∃ g ∈ s.north.tx.held, g.seq = n ∧ ∃ w ∈ g.again, (s.tick - w) * 1000000000 < s.o Obj.RG_NAK_HOLD * s.o Obj.CLK_FX_NOM

theorem State.againHeld_iff : s.againHeld .north n = true ↔ s.sentAgain n := by
  simp only [State.againHeld, State.sentAgain, State.tx, List.any_eq_true, Bool.and_eq_true, beq_iff_eq]
  refine exists_congr fun g => and_congr_right fun _ => and_congr_right fun _ => ?_
  cases g.again <;> simp

theorem State.sentAgain_bump (s : State) (n : Nat) : (s.bump Obj.RG_NAK_RX).sentAgain n ↔ s.sentAgain n := by
  have hhold : (s.bump Obj.RG_NAK_RX).o Obj.RG_NAK_HOLD = s.o Obj.RG_NAK_HOLD := s.o_bump_ne (by decide)
  have hnom : (s.bump Obj.RG_NAK_RX).o Obj.CLK_FX_NOM = s.o Obj.CLK_FX_NOM := s.o_bump_ne (by decide)
  simp only [State.sentAgain, hhold, hnom]
  rfl

/-- It is the same before and after the frames before it have left. -/
theorem State.FreedNorth.sentAgain_iff (h : t.FreedNorth s n false) : t.sentAgain n ↔ s.sentAgain n := by
  have htick : t.tick = s.tick := (congrArg State.tick h.frame :)
  have hhold := h.objs Obj.RG_NAK_HOLD (by decide)
  have hnom := h.objs Obj.CLK_FX_NOM (by decide)
  simp only [State.sentAgain, h.held, htick, hhold, hnom]
  refine exists_congr fun g => ?_
  exact ⟨fun ⟨hg, hrest⟩ => ⟨LinkTx.mem_of_mem_after hg, hrest⟩, fun ⟨hg, hn, hrest⟩ => ⟨LinkTx.mem_after hg hn, hn, hrest⟩⟩

theorem State.not_sentAgain (h : s.north.tx.held.all (fun g => g.again.isNone) = true) : ¬s.sentAgain n := by
  rintro ⟨g, hg, -, w, hw, -⟩
  have hnone := List.all_eq_true.mp h g hg
  rw [Option.isNone_iff_eq_none.mp hnone] at hw
  exact absurd hw (by simp)

/-! ### A rewind (R331) -/

theorem State.rewind_north_seqs (s : State) (n : Nat) :
    (s.rewind .north n).north.tx.held.map (·.seq) = s.north.tx.held.map (·.seq) := by
  change List.map _ (List.map _ s.north.tx.held) = _
  simp

/-- What a NAK of a held frame comes to. -/
structure State.Nakked (t s : State) (n : Nat) : Prop where
  seqs : t.north.tx.held.map (·.seq) = (s.north.tx.after n false).map (·.seq)
  count : t.o Obj.RG_NAK_RX = satAdd 32 (s.o Obj.RG_NAK_RX) 1
  out : t.out = s.out
  memories : t.keepsMemories s
  rewound : ¬s.sentAgain n → t.north.tx.ptr = n ∧ t.o Obj.RG_REWINDS = satAdd 32 (s.o Obj.RG_REWINDS) 1
  kept : s.sentAgain n → t.o Obj.RG_REWINDS = s.o Obj.RG_REWINDS ∧ (s.north.tx.ptr = s.north.tx.next → t.north.tx.ptr = s.north.tx.next)

theorem State.nakReceive_nakked (hup : s.isUp .north = true) (hlink : bits c 43 40 = 0)
    (hheld : s.holds .north (bits c 55 44) = true) : (s.nakReceive .north c).Nakked s (bits c 55 44) := by
  have hfreed := (s.bump Obj.RG_NAK_RX).freeBefore_north (bits c 55 44) false
  have hagain : _ ↔ s.sentAgain (bits c 55 44) := State.againHeld_iff.trans (hfreed.sentAgain_iff.trans (s.sentAgain_bump _))
  rw [State.nakReceive_held hup hlink hheld]
  generalize (s.bump Obj.RG_NAK_RX).freeBefore .north (bits c 55 44) false = t at hfreed hagain
  have hcount : t.o Obj.RG_NAK_RX = satAdd 32 (s.o Obj.RG_NAK_RX) 1 :=
    (hfreed.objs _ (by decide)).trans (s.o_bump_self _)
  have hrewinds : t.o Obj.RG_REWINDS = s.o Obj.RG_REWINDS := (hfreed.objs _ (by decide)).trans (s.o_bump_ne (by decide))
  have hseqs : t.north.tx.held.map (·.seq) = (s.north.tx.after (bits c 55 44) false).map (·.seq) := congrArg _ hfreed.held
  have hout : t.out = s.out := (congrArg State.out hfreed.frame :)
  have hmem : t.keepsMemories s := hfreed.memories
  split
  case isTrue h => exact ⟨hseqs, hcount, hout, hmem, fun hno => absurd (hagain.mp h) hno, fun _ => ⟨hrewinds, hfreed.ptr⟩⟩
  case isFalse h =>
    refine ⟨(t.rewind_north_seqs _).trans hseqs, (State.o_setO_ne _ _ (by decide)).trans hcount, hout, hmem, fun _ => ⟨rfl, ?_⟩,
      fun hyes => absurd (hagain.mpr hyes) h⟩
    exact (State.o_setO_self _ _ _).trans (congrArg (satAdd 32 · 1) hrewinds)

/-! ### A replay timeout (R331) -/

theorem State.replayTimeout_idle (h : s.isUp l = false ∨ (s.tx l).held = []) : s.replayTimeout l = s := by
  rcases h with h | h <;> simp [State.replayTimeout, h]

theorem State.replayTimeout_north (hup : s.isUp .north = true) (hhead : s.north.tx.held.head? = some f) :
    s.replayTimeout .north = (s.bump Obj.RG_TIMEOUTS).rewind .north f.seq := by
  obtain ⟨fs, hheld⟩ := List.head?_eq_some_iff.mp hhead
  simp [State.replayTimeout, hup, State.tx, hheld, State.bumpNorth, State.rewindMark, State.bump, State.bumpBy, State.setO]

end Sys2Proof.Machine
end

section
/-! SUPPORT. Frames sent: one that is held goes out again from its slot, a new one is stored and goes out, and a full window stalls its
sender (R325, R328 to R331). -/
namespace Sys2Proof.Machine

variable {s t v : State} {l : LinkId} {f : Frame} {m : Msg} {r : List Msg} {us : List Upset}

theorem State.frameSend_down (hup : s.isUp l = false) : s.frameSend l us = s := by simp [State.frameSend, hup]

/-! ### A held frame goes out again (R331) -/

/-- The SOF of a held frame. -/
def Frame.sof (f : Frame) : Nat := sofContent f.seq f.ndb f.kind f.first f.last f.qid

/-- What the scratchpad holds in a frame's slot. -/
def State.slotData (s : State) (f : Frame) : List Byte := asRead [] f.slot (memRead s.spm f.slot (8 * f.ndb))

/-- The sender's state once frame f has gone out again at a tick. -/
def LinkTx.resent (t : LinkTx) (f : Frame) (tick : Nat) : LinkTx :=
  { t with
    ptr := match (t.held.dropWhile fun g => g.seq != f.seq).drop 1 with | g :: _ => g.seq | [] => t.next
    held := t.held.map fun g => if g.seq = f.seq then { g with again := some tick } else g }

theorem LinkTx.resent_seqs (t : LinkTx) (f : Frame) (tick : Nat) : (t.resent f tick).held.map (·.seq) = t.held.map (·.seq) := by
  rw [LinkTx.resent, List.map_map]
  refine List.map_congr_left fun g _ => ?_
  dsimp only [Function.comp]
  split <;> rfl

theorem State.readSpm_nil (s : State) (agent a n : Nat) : s.readSpm agent a n [] = (s, memRead s.spm a n, false) := by
  have hnote (ws : List Nat) : ws.foldl (fun s w => s.noteWord agent w []) s = s := foldl_view id (fun _ _ _ => rfl) s
  have herr (ws : List Nat) : (ws.any fun w => wordError [] w == some true) = false := by simp [wordError, wordErr]
  rw [State.readSpm, hnote, herr, asRead_nil]

theorem State.frameSend_held (hup : s.isUp .north = true) (hptr : s.north.tx.ptr ≠ s.north.tx.next)
    (hfind : s.north.tx.held.find? (fun g => g.seq == s.north.tx.ptr) = some f) : s.frameSend .north us = s.resend .north f us := by
  simp [State.frameSend, hup, State.tx, hptr, hfind]

theorem State.resend_whole (hcrc : crc32c (frameBytes f.sof (s.slotData f)) = f.crc) :
    s.resend .north f [] = ((s.check 9 (frameBytes f.sof (s.slotData f))).setTx .north (s.north.tx.resent f s.tick)).emit
      (.frame .north f.sof (s.slotData f) (eofContent f.crc f.seq)) := by
  unfold State.resend
  rw [State.readSpm_nil]
  refine if_neg ?_
  simpa [bne_iff_ne, Frame.sof, State.slotData] using hcrc

theorem State.resend_broken (hcrc : crc32c (frameBytes f.sof (s.slotData f)) ≠ f.crc) :
    s.resend .north f [] = (s.check 9 (frameBytes f.sof (s.slotData f))).resendFails .north := by
  unfold State.resend
  rw [State.readSpm_nil]
  refine if_pos ?_
  simpa [bne_iff_ne, Frame.sof, State.slotData] using hcrc

theorem State.resend_lost (hup : s.isUp .north = true) (hcrc : crc32c (frameBytes f.sof (s.slotData f)) ≠ f.crc) :
    (s.resend .north f []).LostNorth s := by
  have hcheck := s.check_keepsObjects 9 (frameBytes f.sof (s.slotData f))
  have hmem : (s.check 9 (frameBytes f.sof (s.slotData f))).keepsMemories s := ⟨rfl, rfl, rfl⟩
  rw [State.resend_broken hcrc]
  generalize s.check 9 (frameBytes f.sof (s.slotData f)) = v at hcheck hmem
  have hstate : v.o Obj.RG_LSTATE = 3 := (hcheck _ (by decide)).trans (State.isUp_north.mp hup)
  have hlost := State.resendFails_north (s := v) (by rw [hstate]; decide)
  exact ⟨hlost.left, hlost.res, hlost.count.trans (congrArg (satAdd 32 · 1) (hcheck _ (by decide))),
    State.keepsMemories_trans hlost.memories hmem⟩

/-! ### A new frame (R325, R328, R329) -/

theorem State.repartIfFree_notDue (h : s.repartDue = false) : s.repartIfFree = s := by simp [State.repartIfFree, h]

theorem State.frameSend_new (hup : s.isUp .north = true) (hptr : s.north.tx.ptr = s.north.tx.next) (hdue : s.repartDue = false) :
    s.frameSend .north us = match s.takeLoad .north with
      | none => s
      | some (s', d) => if s.windowFull .north then s.stall .north else s'.sendNew .north d := by
  simp only [State.frameSend, hup, State.tx, hptr, if_true, State.frameNew, State.repartIfFree_notDue hdue]
  rfl

theorem State.takeLoad_idle (hown : s.cufel.outNorth = []) (hrelay : s.cufel.relayNorth = []) (hanswers : s.north.answers = []) :
    s.takeLoad .north = none := by
  simp [State.takeLoad, State.takeNorthMsg, hown, hrelay, State.takeAnswer, hanswers]

/-- A Cufel message's frame. -/
def messageLoad (m : Msg) : Load := { kind := 1, first := true, last := true, qid := 0, data := padTo 8 m.bytes, blocks := [] }

/-- The state in which the first of the device's own messages has been taken for a frame, its header checked. -/
def State.messageTaken (s : State) (m : Msg) (r : List Msg) : State :=
  ({ s with cufel := { s.cufel with outNorth := r } }).check 34 m.headBody

theorem State.takeLoad_message (hown : s.cufel.outNorth = m :: r) (hroom : m.bytes.length ≤ s.frameRoom) :
    s.takeLoad .north = some (s.messageTaken m r, messageLoad m) := by
  have hfits : decide (s.frameRoom < m.bytes.length) = false := by simpa using hroom
  simp only [State.takeLoad, State.takeNorthMsg, hown, List.dropWhile_cons, hfits]
  rfl

theorem State.windowFull_north (hdue : s.repartDue = false) :
    s.windowFull .north = decide (s.windowOf .north ≤ s.north.tx.held.length) := by
  simp only [State.windowFull, hdue, Bool.and_false, Bool.false_and, Bool.or_false]
  rfl

/-- The SOF of a new frame of number n. -/
def Load.sof (d : Load) (n : Nat) : Nat := sofContent n (d.data.length / 8) d.kind d.first d.last d.qid

/-- The CRC of a new frame of number n. -/
def Load.crc (d : Load) (n : Nat) : Nat := crc32c (frameBytes (d.sof n) d.data)

/-- The new frame as its sender holds it. -/
def Load.frame (d : Load) (n slot : Nat) : Frame :=
  { seq := n, kind := d.kind, first := d.first, last := d.last, ndb := d.data.length / 8, crc := d.crc n, slot := slot, qid := d.qid,
    blocks := d.blocks, again := none }

/-- A sender that holds one frame more, and goes on behind it. -/
def LinkTx.holding (t : LinkTx) (f : Frame) : LinkTx :=
  { t with next := (t.next + 1) % 4096, ptr := (t.next + 1) % 4096, held := t.held ++ [f], stalled := false }

/-- The address of the slot of the north link's next frame. -/
def State.nextSlot (s : State) : Nat := 0x500000 + 512 * s.slotOfFrame .north s.north.tx.next

theorem State.sendNew_eq (s : State) (d : Load) :
    s.sendNew .north d = (((({ s with spm := memWrite s.spm s.nextSlot d.data } : State).setTx .north
      (s.north.tx.holding (d.frame s.north.tx.next s.nextSlot))).check 9 (frameBytes (d.sof s.north.tx.next) d.data)).wrapBy 48
        Obj.RG_FRAMES_TX 1).emit (.frame .north (d.sof s.north.tx.next) d.data (eofContent (d.crc s.north.tx.next) s.north.tx.next)) :=
  rfl

theorem State.nextSlot_congr (h : v.north = s.north) : v.nextSlot = s.nextSlot := by
  simp only [State.nextSlot, State.slotOfFrame, State.northSlots, State.share, h]

/-- A new frame has gone out on the north link: it is stored, counted and held. -/
structure State.SentNew (t s : State) (d : Load) : Prop where
  out : t.out = s.out ++ [.frame .north (d.sof s.north.tx.next) d.data (eofContent (d.crc s.north.tx.next) s.north.tx.next)]
  next : t.north.tx.next = (s.north.tx.next + 1) % 4096
  held : t.north.tx.held.length = s.north.tx.held.length + 1
  spm : t.spm = memWrite s.spm s.nextSlot d.data
  count : t.o Obj.RG_FRAMES_TX = (s.o Obj.RG_FRAMES_TX + 1) % 2 ^ 48
  frame : { t with obj := s.obj, out := s.out, north := s.north, spm := s.spm } = s

theorem State.sendNew_north (s : State) (d : Load) : (s.sendNew .north d).SentNew s d := by
  rw [State.sendNew_eq]
  have hcheck (u : State) (bytes : List Byte) : (u.check 9 bytes).o Obj.RG_FRAMES_TX = u.o Obj.RG_FRAMES_TX :=
    u.o_check_ne bytes (by decide) (by decide)
  generalize frameBytes (d.sof s.north.tx.next) d.data = bytes
  refine ⟨rfl, rfl, List.length_append, rfl, ?_, rfl⟩
  exact (State.o_setO_self _ _ _).trans (congrArg (fun n => (n + 1) % 2 ^ 48) (hcheck _ _))

/-- What the first of the device's own messages, gone out as a frame, leaves. -/
structure State.SentMessage (t s : State) (m : Msg) (r : List Msg) : Prop where
  cufel : t.cufel = { s.cufel with outNorth := r }
  out : t.out = s.out ++ [.frame .north ((messageLoad m).sof s.north.tx.next) (messageLoad m).data
    (eofContent ((messageLoad m).crc s.north.tx.next) s.north.tx.next)]
  next : t.north.tx.next = (s.north.tx.next + 1) % 4096
  held : t.north.tx.held.length = s.north.tx.held.length + 1
  spm : t.spm = memWrite s.spm s.nextSlot (messageLoad m).data
  count : t.o Obj.RG_FRAMES_TX = (s.o Obj.RG_FRAMES_TX + 1) % 2 ^ 48
  frame : { t with obj := s.obj, cufel := s.cufel, out := s.out, north := s.north, spm := s.spm } = s

theorem State.sendNew_message (s : State) (m : Msg) (r : List Msg) :
    ((s.messageTaken m r).sendNew .north (messageLoad m)).SentMessage s m r := by
  have hcufel : (s.messageTaken m r).cufel = { s.cufel with outNorth := r } := rfl
  have hframe : { s.messageTaken m r with obj := s.obj, cufel := s.cufel } = s := rfl
  have hcount : (s.messageTaken m r).o Obj.RG_FRAMES_TX = s.o Obj.RG_FRAMES_TX :=
    State.o_check_ne (i := 34) _ _ (by decide) (by decide)
  generalize s.messageTaken m r = v at hcufel hframe hcount
  have hsent := v.sendNew_north (messageLoad m)
  generalize v.sendNew .north (messageLoad m) = t at hsent
  have hnorth : v.north = s.north := (congrArg State.north hframe :)
  have hout : v.out = s.out := (congrArg State.out hframe :)
  have hspm : v.spm = s.spm := (congrArg State.spm hframe :)
  have hall := congrArg (fun t : State => { t with obj := s.obj, cufel := s.cufel, out := s.out, north := s.north, spm := s.spm })
    hsent.frame
  refine ⟨(congrArg State.cufel hsent.frame :).trans hcufel, ?_, ?_, ?_, ?_, hsent.count.trans (by rw [hcount]), hall.trans ?_⟩
  · rw [hsent.out, hnorth, hout]
  · rw [hsent.next, hnorth]
  · rw [hsent.held, hnorth]
  · rw [hsent.spm, hspm, State.nextSlot_congr hnorth]
  · exact (congrArg (fun t : State => { t with out := s.out, north := s.north, spm := s.spm }) hframe :)

theorem State.frameSend_message (hup : s.isUp .north = true) (hptr : s.north.tx.ptr = s.north.tx.next) (hdue : s.repartDue = false)
    (hown : s.cufel.outNorth = m :: r) (hroom : m.bytes.length ≤ s.frameRoom) :
    s.frameSend .north us = if s.windowOf .north ≤ s.north.tx.held.length then s.stall .north
      else (s.messageTaken m r).sendNew .north (messageLoad m) := by
  rw [State.frameSend_new hup hptr hdue, State.takeLoad_message hown hroom]
  simp only [State.windowFull_north hdue, decide_eq_true_eq]

/-! ### A stall (R328, R330) -/

theorem State.stall_north (s : State) :
    (s.stall .north).o Obj.RG_STALLS = (if s.north.tx.stalled then s.o Obj.RG_STALLS else satAdd 32 (s.o Obj.RG_STALLS) 1) ∧
      (s.stall .north).north = { s.north with tx := { s.north.tx with stalled := true } } ∧
      { s.stall .north with obj := s.obj, north := s.north } = s := by
  unfold State.stall
  dsimp only [State.tx]
  split
  case isTrue h =>
    have hsame : { s.north.tx with stalled := true } = s.north.tx := by rw [← h]
    exact ⟨rfl, by rw [hsame], rfl⟩
  case isFalse h => exact ⟨State.o_setO_self _ _ _, rfl, rfl⟩

end Sys2Proof.Machine
end

section
/-! SUPPORT. The statement on acknowledgements and on frames sent (R325, R328, R329, R331, R332). -/
namespace Sys2Proof.Machine

/-- Settles O26: each clause is a branch of the sender's four operations; the frames that leave a window are those before the named one,
and a slot that fails its check gives the link's state up. -/
theorem acksFreeFramesAndNaksRewind : Obligations.AcksFreeFramesAndNaksRewind := by
  unfold Obligations.AcksFreeFramesAndNaksRewind
  intro l c us f m r s hawake
  have hrun {i : Instr} {t u : State} (hexec : exec i s = .next (s.ifAwake t)) (ht : t = u) : exec i s = .next u := by
    rw [hexec, State.ifAwake_of hawake, ht]
  refine ⟨fun hdown => ?_, fun hup => ?_⟩
  · exact ⟨hrun rfl (State.ackReceive_down hdown), hrun rfl (State.nakReceive_down hdown),
      hrun rfl (State.replayTimeout_idle (.inl hdown)), hrun rfl (State.frameSend_down hdown)⟩
  have hup : s.isUp .north = true := State.isUp_north.mpr hup
  refine ⟨fun hheld hlink => ⟨?_, ?_⟩, fun hheld hlink => ?_, fun hempty => hrun rfl (State.replayTimeout_idle (.inr hempty)),
    fun hhead => ?_, fun hptr hfind hcrc => ?_, fun hptr hfind hcrc => ?_, fun hptr hdue hown hrelay hanswers => ?_,
    fun hptr hdue hown hroom hwindow => ?_, fun hptr hdue hown hroom hwindow => ?_⟩
  · have hfreed := s.freeBefore_north (bits c.toNat 55 44) true
    obtain ⟨htx, hout, hmem⟩ := (s.freeBefore .north (bits c.toNat 55 44) true).repartIfFree_kept
    refine ⟨_, hrun rfl (State.ackReceive_held hup hlink hheld), ?_, ?_, ?_, ?_, State.keepsMemories_trans hmem hfreed.memories⟩
    · rw [htx]; exact hfreed.held
    · rw [htx]; exact hfreed.next
    · rw [htx]; exact hfreed.stalled
    · exact hout.trans (congrArg State.out hfreed.frame :)
  · have hnak := State.nakReceive_nakked hup hlink hheld
    exact ⟨_, hrun rfl rfl, hnak.seqs, hnak.count, hnak.out, hnak.memories, fun hnone => hnak.rewound (State.not_sentAgain hnone),
      hnak.kept⟩
  · exact ⟨hrun rfl (State.ackReceive_bad hup hlink hheld), hrun rfl (State.nakReceive_bad hup hlink hheld)⟩
  · refine ⟨_, hrun rfl (State.replayTimeout_north hup hhead), rfl, ?_, ?_, rfl, ?_, rfl⟩
    · exact (State.o_setO_ne _ _ (by decide)).trans (s.o_bump_self _)
    · exact (State.o_setO_self _ _ _).trans (congrArg (satAdd 32 · 1) (s.o_bump_ne (by decide)))
    · exact State.keepsObjects_setO (State.keepsObjects_bump (State.keepsObjects_refl s _) (by simp)) (by simp [rewindKey]) _
  · refine ⟨_, hrun rfl ((State.frameSend_held hup hptr hfind).trans (State.resend_whole hcrc)), rfl, ?_, rfl, rfl, rfl, rfl⟩
    exact s.north.tx.resent_seqs f s.tick
  · have hlost := State.resend_lost hup hcrc
    exact ⟨_, hrun rfl (State.frameSend_held hup hptr hfind), hlost.left, hlost.res, hlost.count, hlost.memories⟩
  · refine hrun rfl ?_
    rw [State.frameSend_new hup hptr hdue, State.takeLoad_idle hown hrelay hanswers]
  · have hsend := (State.frameSend_message (us := us) hup hptr hdue hown hroom).trans (if_neg (by omega))
    have hsent := s.sendNew_message m r
    exact ⟨_, hrun rfl hsend, hsent.cufel, hsent.out, hsent.next, hsent.held, hsent.spm, hsent.count, hsent.frame⟩
  · exact ⟨_, hrun rfl ((State.frameSend_message hup hptr hdue hown hroom).trans (if_pos hwindow)), s.stall_north⟩

end Sys2Proof.Machine
end

section
/-! SUPPORT. Every step keeps the stored data canonical: each command's meaning is built of the operations whose laws stand in
Sys2Proof/Laws, and so is an idle block slot. -/
namespace Sys2Proof.Machine

/-- A request to write an object that then waits for the tick. -/
theorem State.pendWrite_wf (s : State) (q : Req) (k v : Nat) (expert : Bool) (check : Status) (hs : s.wf = true) :
    (s.ifRequest q (s.hostWrite q k expert check (s.pendLive k v))).wf = true :=
  s.ifRequest_wf q _ hs (s.hostWrite_wf q k expert check _ hs (s.pendLive_wf k v hs))

/-- A function command that passes its checks and answers no crossing. -/
theorem State.commandAct_wf (s : State) (q : Req) (func cmd key arg : Nat) (expert keyed inTime : Bool) (check : State → Status)
    (act : State → State) (hs : s.wf = true) (hact : ∀ t : State, t.wf = true → (act t).wf = true) :
    (s.functionCmd q func cmd key arg expert keyed inTime check fun t => (act t, 0)).wf = true :=
  s.functionCmd_wf _ _ _ _ _ _ _ _ _ _ hs fun t ht => hact t ht

/-- MARCH_ABORT: what the march has read so far may have corrected words of the scratchpad. -/
theorem State.marchAbort_wf (s : State) (q : Req) (element : Fin 6) (words : BitVec 20) (fails : List (BitVec 23)) (u : List Upset)
    (hs : s.wf = true) : Runs (.marchAbort q element words fails u) s fun t => t.wf = true := by
  refine ⟨_, rfl, s.ifRequest_wf q _ hs (s.hostWrite_wf q _ _ _ _ hs (State.pendLive_wf _ _ _ ?_))⟩
  exact wf_of _ (State.marchFails_wf _ _ (ite_wf hs (s.marchRead_wf _ _ _ hs))) rfl rfl rfl rfl

/-- HK_RANGE_RESTART: only objects change. -/
theorem State.hkRangeRestart_wf (s : State) (hs : s.wf = true) : Runs .hkRangeRestart s fun t => t.wf = true := by
  refine ⟨_, rfl, s.ifAwake_wf _ hs ?_⟩
  split
  · exact ite_wf (wf_of _ (State.bump_wf _ _ (s.setO_wf _ _ hs)) rfl rfl rfl rfl) hs
  · exact hs

/-- HK_CONVERSION_END: with nothing converting nothing changes. -/
theorem State.hkConversionEnd_wf (s : State) (x1 x2 : Int) (refLow clkfb : Bool) (hs : s.wf = true) :
    Runs (.hkConversionEnd x1 x2 refLow clkfb) s fun t => t.wf = true := by
  refine ⟨_, rfl, s.ifAwake_wf _ hs ?_⟩
  split
  · exact s.hkEnd_wf _ _ _ _ _ hs
  · exact hs

/-- Every command keeps the canonical form, by the law of the operation that its row carries out. -/
theorem exec_wf (c : Instr) (s : State) (hs : s.wf = true) : Runs c s fun t => t.wf = true := by
  cases c with
  | crossingTick _ _ => exact ⟨_, rfl, s.ifAwake_wf _ hs (s.crossingTick_wf _ _ hs)⟩
  | turnMarker => exact ⟨_, rfl, s.ifAwake_wf _ hs (s.turnMarker_wf hs)⟩
  | timingRise _ _ _ _ => exact ⟨_, rfl, s.ifAwake_wf _ hs (s.timingRise_wf _ _ _ _ hs)⟩
  | timingFall _ _ _ => exact ⟨_, rfl, s.ifAwake_wf _ hs (s.timingFall_wf _ _ _ hs)⟩
  | energyRise _ _ _ => exact ⟨_, rfl, s.ifAwake_wf _ hs (s.energyRise_wf _ _ _ hs)⟩
  | totSaturate _ => exact ⟨_, rfl, s.ifAwake_wf _ hs (s.totSaturate_wf _ hs)⟩
  | grpFifoWrite _ => exact ⟨_, rfl, s.ifAwake_wf _ hs (s.fifoWrite_wf _ hs)⟩
  | lossReportArrive => exact ⟨_, rfl, s.ifAwake_wf _ hs (s.lossReport_wf hs)⟩
  | feOverloadSet _ => exact ⟨_, rfl, s.ifAwake_wf _ hs (s.overloadSet_wf _ hs)⟩
  | feOverloadClear _ => exact ⟨_, rfl, s.ifAwake_wf _ hs (s.overloadClear_wf _ hs)⟩
  | channelRelease _ _ _ => exact ⟨_, rfl, s.ifAwake_wf _ hs (s.release_wf _ _ _ hs)⟩
  | cmdTpulse _ => exact ⟨_, rfl, s.ifAwake_wf _ hs (s.cmdReceive_wf _ _ hs)⟩
  | tpulseFire => exact ⟨_, rfl, s.ifAwake_wf _ hs (s.tpulseFire_wf hs)⟩
  | prbArm _ => exact ⟨_, rfl, s.pendWrite_wf _ _ _ _ _ hs⟩
  | prbAbort _ => exact ⟨_, rfl, s.pendWrite_wf _ _ _ _ _ hs⟩
  | prbFillDone _ _ => exact ⟨_, rfl, s.ifAwake_wf _ hs (s.prbFillDone_wf _ _ hs)⟩
  | prbTrigger _ _ => exact ⟨_, rfl, s.ifAwake_wf _ hs (s.prbTrigger_wf _ _ hs)⟩
  | prbPostDone _ => exact ⟨_, rfl, s.ifAwake_wf _ hs (s.prbPostDone_wf _ hs)⟩
  | prbCopyDone => exact ⟨_, rfl, s.ifTask_wf _ hs (s.prbCopyDone_wf hs)⟩
  | calRandomEdge _ _ _ _ => exact ⟨_, rfl, s.ifAwake_wf _ hs (s.calRandomEdge_wf _ _ _ _ hs)⟩
  | calQuietExpire _ => exact ⟨_, rfl, s.ifAwake_wf _ hs (s.calQuiet_wf _ hs)⟩
  | calRunComplete _ => exact ⟨_, rfl, s.ifAwake_wf _ hs (s.calRunComplete_wf _ hs)⟩
  | lutComputeDone _ => exact ⟨_, rfl, s.ifTask_wf _ hs (s.lutComputeDone_wf _ hs)⟩
  | tdcCalRestart _ => exact ⟨_, rfl, s.pendWrite_wf _ _ _ _ _ hs⟩
  | tdcCalAbort _ => exact ⟨_, rfl, s.pendWrite_wf _ _ _ _ _ hs⟩
  | tdcLutWrite _ _ _ => exact ⟨_, rfl, s.ifRequest_wf _ _ hs (s.hostBlockWrite_wf _ _ _ _ _ _ hs (s.hostLut_wf _ _ hs))⟩
  | tdcRmStart _ => exact ⟨_, rfl, s.pendWrite_wf _ _ _ _ _ hs⟩
  | tdcRmStop _ => exact ⟨_, rfl, s.pendWrite_wf _ _ _ _ _ hs⟩
  | rmGateEnd => exact ⟨_, rfl, s.ifAwake_wf _ hs (s.rmGateEnd_wf hs)⟩
  | hitCollect _ _ => exact ⟨_, rfl, s.ifAwake_wf _ hs (s.collect_wf _ _ hs)⟩
  | sliceClose _ => exact ⟨_, rfl, s.ifAwake_wf _ hs (s.sliceClose_wf _ hs)⟩
  | wcBurstDrain _ => exact ⟨_, rfl, s.ifAwake_wf _ hs (s.drainBurst_wf _ hs)⟩
  | asmStart _ => exact ⟨_, rfl, s.pendWrite_wf _ _ _ _ _ hs⟩
  | asmStop _ => exact ⟨_, rfl, s.pendWrite_wf _ _ _ _ _ hs⟩
  | spareMapped => exact ⟨_, rfl, s.ifAwake_wf _ hs (s.spareMapped_wf hs)⟩
  | migrationCopy _ => exact ⟨_, rfl, s.ifAwake_wf _ hs (s.migrationCopy_wf _ hs)⟩
  | layoutSwitch => exact ⟨_, rfl, s.ifAwake_wf _ hs (s.layoutSwitch_wf hs)⟩
  | queryReceive _ => exact ⟨_, rfl, s.ifAwake_wf _ hs (s.queryReceive_wf _ hs)⟩
  | queryStart _ => exact ⟨_, rfl, s.ifAwake_wf _ hs (s.queryStart_wf _ hs)⟩
  | queryWaitEnd _ => exact ⟨_, rfl, s.ifAwake_wf _ hs (s.waitEnd_wf _ hs)⟩
  | sliceFetchDone _ _ => exact ⟨_, rfl, s.ifAwake_wf _ hs (s.fetchDone_wf _ _ hs)⟩
  | answerHandoff _ => exact ⟨_, rfl, s.ifAwake_wf _ hs (s.answerHandoff_wf _ hs)⟩
  | poolAllocate _ _ => exact ⟨_, rfl, s.ifAwake_wf _ hs (s.poolAllocate_wf _ _ hs)⟩
  | hubPortEnWrite _ _ => exact ⟨_, rfl, s.pendWrite_wf _ _ _ _ _ hs⟩
  | leafSubeventArrive _ _ _ _ => exact ⟨_, rfl, s.ifAwake_wf _ hs (s.leafSubevent_wf _ _ _ _ hs)⟩
  | mergerTimeout => exact ⟨_, rfl, s.ifAwake_wf _ hs (s.mergerTimeout_wf hs)⟩
  | leafTpArrive _ _ _ _ => exact ⟨_, rfl, s.ifAwake_wf _ hs (s.leafTp_wf _ _ _ _ hs)⟩
  | clusterTpDeadline _ => exact ⟨_, rfl, s.ifAwake_wf _ hs (s.tpDeadline_wf _ hs)⟩
  | partDecision _ _ _ _ => exact ⟨_, rfl, s.ifAwake_wf _ hs (s.partDecision_wf _ _ _ _ hs)⟩
  | builderSelftestDone _ _ => exact ⟨_, rfl, s.ifAwake_wf _ hs (s.selftestDone_wf _ _ hs)⟩
  | builderCopyDone _ => exact ⟨_, rfl, s.ifAwake_wf _ hs (s.copyDone_wf _ hs)⟩
  | bldSwitch _ => exact ⟨_, rfl, s.pendWrite_wf _ _ _ _ _ hs⟩
  | bldRejoin _ => exact ⟨_, rfl, s.pendWrite_wf _ _ _ _ _ hs⟩
  | bldDrop _ => exact ⟨_, rfl, s.pendWrite_wf _ _ _ _ _ hs⟩
  | cmpJobEnd _ _ => exact ⟨_, rfl, s.ifAwake_wf _ hs (s.jobEnd_wf _ _ hs)⟩
  | cmpTestWrite _ _ _ => exact ⟨_, rfl, s.ifRequest_wf _ _ hs (s.testWrite_wf _ _ _ hs)⟩
  | lnPctrlWrite _ _ _ => exact ⟨_, rfl, s.pendWrite_wf _ _ _ _ _ hs⟩
  | laneL2ExitDone _ => exact ⟨_, rfl, s.ifAwake_wf _ hs (s.l2ExitDone_wf _ hs)⟩
  | laneL1ExitDone _ => exact ⟨_, rfl, s.ifAwake_wf _ hs (s.l1ExitDone_wf _ hs)⟩
  | phaseScanDone _ _ => exact ⟨_, rfl, s.ifAwake_wf _ hs (s.phaseScanDone_wf _ _ hs)⟩
  | phaseTrackWindow _ _ _ => exact ⟨_, rfl, s.ifAwake_wf _ hs (s.phaseTrack_wf _ _ _ hs)⟩
  | lnEyeScanStart _ _ => exact ⟨_, rfl, s.pendWrite_wf _ _ _ _ _ hs⟩
  | marginScanDone _ _ => exact ⟨_, rfl, s.ifAwake_wf _ hs (s.marginDone_wf _ _ hs)⟩
  | ragilBlockReceive _ _ _ => exact ⟨_, rfl, s.ifAwake_wf _ hs (s.blockReceive_wf _ _ _ hs)⟩
  | huntTimeout _ => exact ⟨_, rfl, s.ifAwake_wf _ hs (s.huntTimeout_wf _ hs)⟩
  | losAssert _ => exact ⟨_, rfl, s.ifAwake_wf _ hs (s.losAssert_wf _ hs)⟩
  | losClear _ => exact ⟨_, rfl, s.ifAwake_wf _ hs (s.losClear_wf _ hs)⟩
  | lolAssert _ _ => exact ⟨_, rfl, s.ifAwake_wf _ hs (s.lolAssert_wf _ _ hs)⟩
  | txFault _ => exact ⟨_, rfl, s.ifAwake_wf _ hs (s.txFaultSet_wf _ hs)⟩
  | lnTestWrite _ _ _ => exact ⟨_, rfl, s.ifRequest_wf _ _ hs (s.hostWrite_wf _ _ _ _ _ hs (s.laneTest_wf _ _ hs))⟩
  | prbsSync _ _ => exact ⟨_, rfl, s.ifAwake_wf _ hs (s.prbsSync_wf _ _ hs)⟩
  | prbsSyncLoss _ => exact ⟨_, rfl, s.ifAwake_wf _ hs (s.prbsLoss_wf _ hs)⟩
  | capsSend _ => exact ⟨_, rfl, s.ifAwake_wf _ hs (s.capsDue_wf _ hs)⟩
  | capsReceive _ _ => exact ⟨_, rfl, s.ifAwake_wf _ hs (s.capsReceive_wf _ _ hs)⟩
  | capsTimeout _ => exact ⟨_, rfl, s.ifAwake_wf _ hs (s.capsTimeout_wf _ hs)⟩
  | statusReceive _ _ => exact ⟨_, rfl, s.ifAwake_wf _ hs (s.statusReceive_wf _ _ hs)⟩
  | statusSend _ => exact ⟨_, rfl, s.ifAwake_wf _ hs (s.statusSend_wf _ hs)⟩
  | statusMiss => exact ⟨_, rfl, s.ifAwake_wf _ hs (ite_wf (s.bump_wf _ hs) hs)⟩
  | laneJoin _ _ => exact ⟨_, rfl, s.ifAwake_wf _ hs (s.laneJoin_wf _ _ hs)⟩
  | alignRow _ => exact ⟨_, rfl, s.ifAwake_wf _ hs (s.rowDue_wf _ hs)⟩
  | frameReceive _ _ _ _ => exact ⟨_, rfl, s.ifAwake_wf _ hs (s.frameReceive_wf _ _ _ _ hs)⟩
  | nakHoldExpire _ => exact ⟨_, rfl, s.ifAwake_wf _ hs (s.nakHoldEnd_wf _ hs)⟩
  | ackSend _ => exact ⟨_, rfl, s.ifAwake_wf _ hs (s.ackSend_wf _ hs)⟩
  | ackReceive _ _ => exact ⟨_, rfl, s.ifAwake_wf _ hs (s.ackReceive_wf _ _ hs)⟩
  | nakReceive _ _ => exact ⟨_, rfl, s.ifAwake_wf _ hs (s.nakReceive_wf _ _ hs)⟩
  | replayTimeout _ => exact ⟨_, rfl, s.ifAwake_wf _ hs (s.replayTimeout_wf _ hs)⟩
  | frameSend _ _ => exact ⟨_, rfl, s.ifAwake_wf _ hs (s.frameSend_wf _ _ hs)⟩
  | repartition => exact ⟨_, rfl, s.ifAwake_wf _ hs (s.repartIfFree_wf hs)⟩
  | cmdTurn _ => exact ⟨_, rfl, s.ifAwake_wf _ hs (s.cmdReceive_wf _ _ hs)⟩
  | turnCheck => exact ⟨_, rfl, s.ifAwake_wf _ hs (s.turnCheck_wf hs)⟩
  | cmdResync _ _ => exact ⟨_, rfl, s.ifAwake_wf _ hs (ite_wf hs (s.cmdResync_wf _ _ hs))⟩
  | alignResyncReceive _ _ => exact ⟨_, rfl, s.ifAwake_wf _ hs (s.alignReceive_wf _ _ hs)⟩
  | resyncApply => exact ⟨_, rfl, s.ifAwake_wf _ hs (s.resyncApply_wf hs)⟩
  | cmdReserved _ _ => exact ⟨_, rfl, s.ifAwake_wf _ hs (s.cmdReserved_wf _ _ hs)⟩
  | timeReceive _ => exact ⟨_, rfl, s.ifAwake_wf _ hs (s.timeReceive_wf _ hs)⟩
  | ntServoUpdate => exact ⟨_, rfl, s.ifAwake_wf _ hs (s.servoUpdate_wf hs)⟩
  | southRateHunt _ => exact ⟨_, rfl, s.ifAwake_wf _ hs (s.rateHunt_wf _ hs)⟩
  | refresh _ _ => exact ⟨_, rfl, ite_wf (s.refresh_wf _ _ hs) hs⟩
  | rankPowerDown _ => exact ⟨_, rfl, s.ifAwake_wf _ hs (s.rankPowerDown_wf _ hs)⟩
  | rankVerifyDone _ _ => exact ⟨_, rfl, s.ifAwake_wf _ hs (s.verifyDone_wf _ _ hs)⟩
  | delayTrack _ _ _ _ => exact ⟨_, rfl, s.ifAwake_wf _ hs (s.delayTrack_wf _ _ _ _ hs)⟩
  | spareCheck _ _ _ => exact ⟨_, rfl, s.ifAwake_wf _ hs (s.spareCheck_wf _ _ _ hs)⟩
  | drmCtrlRetire _ _ => exact ⟨_, rfl, s.pendWrite_wf _ _ _ _ _ hs⟩
  | drmSweepNextBoot _ => exact ⟨_, rfl, s.pendWrite_wf _ _ _ _ _ hs⟩
  | spmCorrectionWriteback _ => exact ⟨_, rfl, s.ifAwake_wf _ hs (State.portCycle_wf _ _ (foldl_wf hs State.portCycle_wf))⟩
  | marchPreserving _ => exact ⟨_, rfl, s.pendWrite_wf _ _ _ _ _ hs⟩
  | marchDestructive _ => exact ⟨_, rfl, s.pendWrite_wf _ _ _ _ _ hs⟩
  | marchAbort _ _ _ _ _ => exact s.marchAbort_wf _ _ _ _ _ hs
  | marchDone _ _ => exact ⟨_, rfl, s.ifAwake_wf _ hs (s.marchDone_wf _ _ hs)⟩
  | scrubStart _ => exact ⟨_, rfl, s.pendWrite_wf _ _ _ _ _ hs⟩
  | scrubResume _ => exact ⟨_, rfl, s.pendWrite_wf _ _ _ _ _ hs⟩
  | scrubAbort _ _ _ =>
    exact ⟨_, rfl, s.ifRequest_wf _ _ hs (s.hostWrite_wf _ _ _ _ _ hs (State.pendLive_wf _ _ _ (s.scrubStop_wf _ _ hs)))⟩
  | scrubHalt _ _ => exact ⟨_, rfl, s.ifAwake_wf _ hs (s.scrubHalt_wf _ _ hs)⟩
  | scrubDone _ => exact ⟨_, rfl, s.ifAwake_wf _ hs (s.scrubDone_wf _ hs)⟩
  | fwRamPatrol _ _ => exact ⟨_, rfl, s.ifAwake_wf _ hs (foldl_wf (s.bumpBy_wf _ _ hs) fun t _ ht => t.fwBad_wf _ _ ht)⟩
  | intoscReady _ _ => exact ⟨_, rfl, s.intoscReady_wf _ _ hs⟩
  | plinthIntoscCount _ => exact ⟨_, rfl, ite_wf (s.plinthCount_wf _ hs) hs⟩
  | intoscGap => exact ⟨_, rfl, ite_wf (s.intoscFault_wf _ hs) hs⟩
  | ckinWindowEnd _ => exact ⟨_, rfl, s.ifAwake_wf _ hs (s.windowEnd_wf _ hs)⟩
  | ckinMissingEdges => exact ⟨_, rfl, s.ifAwake_wf _ hs (s.missingEdges_wf hs)⟩
  | pllLossOfLock _ => exact ⟨_, rfl, s.ifAwake_wf _ hs (s.pllLoss_wf _ hs)⟩
  | pllLocked _ => exact ⟨_, rfl, s.ifAwake_wf _ hs (s.pllLocked_wf _ hs)⟩
  | relockTimeout => exact ⟨_, rfl, s.ifAwake_wf _ hs (s.relockTimeout_wf hs)⟩
  | clkGateReqWrite _ _ => exact ⟨_, rfl, s.ifRequest_wf _ _ hs (s.gateWrite_wf _ _ hs)⟩
  | leafAlignSend _ => exact ⟨_, rfl, s.ifAwake_wf _ hs (s.leafAlign_wf _ hs)⟩
  | ntHoldoverExpire => exact ⟨_, rfl, s.ifAwake_wf _ hs (s.holdoverExpire_wf hs)⟩
  | ntSetWrite _ _ => exact ⟨_, rfl, s.pendWrite_wf _ _ _ _ _ hs⟩
  | alarmFire _ => exact ⟨_, rfl, s.ifAwake_wf _ hs (s.alarmsTo_wf _ hs)⟩
  | ntAlArm _ _ => exact ⟨_, rfl, s.pendWrite_wf _ _ _ _ _ hs⟩
  | ntAlDisarm _ _ => exact ⟨_, rfl, s.pendWrite_wf _ _ _ _ _ hs⟩
  | hkStart _ => exact ⟨_, rfl, s.pendWrite_wf _ _ _ _ _ hs⟩
  | hkStop _ => exact ⟨_, rfl, s.pendWrite_wf _ _ _ _ _ hs⟩
  | hkUrgent _ => exact ⟨_, rfl, s.pendWrite_wf _ _ _ _ _ hs⟩
  | hkRangeRestart => exact s.hkRangeRestart_wf hs
  | hkConversionEnd _ _ _ _ => exact s.hkConversionEnd_wf _ _ _ _ hs
  | hkCalDone _ => exact ⟨_, rfl, s.ifAwake_wf _ hs (ite_wf hs (s.hkCalDone_wf _ hs))⟩
  | hkResultRead _ => exact ⟨_, rfl, s.ifRequest_wf _ _ hs (State.respRead_wf _ _ _ _ _ (s.hkMarkRead_wf hs))⟩
  | cufelReceive _ => exact ⟨_, rfl, s.ifServed_wf _ hs (s.cufelReceive_wf _ hs)⟩
  | read _ _ => exact ⟨_, rfl, s.ifRequest_wf _ _ hs (s.readObject_wf _ _ hs)⟩
  | writeObject _ _ => exact ⟨_, rfl, s.ifRequest_wf _ _ hs (s.writeObject_wf _ _ hs)⟩
  | readBlock _ _ _ => exact ⟨_, rfl, s.ifRequest_wf _ _ hs (s.readBlock_wf _ _ _ hs)⟩
  | writeBlock _ _ _ _ _ => exact ⟨_, rfl, s.ifRequest_wf _ _ hs (s.writeBlock_wf _ _ _ _ _ hs)⟩
  | store _ _ _ => exact ⟨_, rfl, s.ifRequest_wf _ _ hs (s.storeRequest_wf _ _ _ hs)⟩
  | restoreDefaultsValues _ => exact ⟨_, rfl, s.ifRequest_wf _ _ hs (s.restoreDefaults_wf _ _ _ _ _ hs)⟩
  | restoreDefaultsImage _ _ _ => exact ⟨_, rfl, s.ifRequest_wf _ _ hs (s.restoreDefaults_wf _ _ _ _ _ hs)⟩
  | restoreDefaultsBoth _ _ _ => exact ⟨_, rfl, s.ifRequest_wf _ _ hs (s.restoreDefaults_wf _ _ _ _ _ hs)⟩
  | apply _ =>
    exact ⟨_, rfl, s.ifRequest_wf _ _ hs (ite_wf (s.respond_wf _ _ _ _ hs) (State.respond_wf _ _ _ _ _ (s.apply_wf hs)))⟩
  | heartbeatRequest _ => exact ⟨_, rfl, s.ifRequest_wf _ _ hs (ite_wf (s.respond_wf _ _ _ _ hs) (s.respond_wf _ _ _ _ hs))⟩
  | heartbeatSend => exact ⟨_, rfl, s.ifServed_wf _ hs (s.heartbeatSend_wf hs)⟩
  | eventSend => exact ⟨_, rfl, s.ifServed_wf _ hs (s.eventSend_wf hs)⟩
  | cfChallengeRead _ => exact ⟨_, rfl, s.ifRequest_wf _ _ hs (s.challengeRead_wf _ hs)⟩
  | cfUnlockWrite _ _ _ => exact ⟨_, rfl, s.ifRequest_wf _ _ hs (s.unlockWrite_wf _ _ _ hs)⟩
  | cfLockWrite _ _ => exact ⟨_, rfl, s.ifRequest_wf _ _ hs (s.lockWrite_wf _ _ hs)⟩
  | sessionTimeout _ _ => exact ⟨_, rfl, s.ifAwake_wf _ hs (s.endSession_wf _ _ hs)⟩
  | lockoutExpire _ => exact ⟨_, rfl, s.ifAwake_wf _ hs (wf_of s hs rfl rfl rfl rfl)⟩
  | blockTransferTimeout _ _ => exact ⟨_, rfl, s.ifAwake_wf _ hs (ite_wf (wf_of _ (s.bump_wf _ hs) rfl rfl rfl rfl) hs)⟩
  | cfClusterIdWrite _ _ => exact ⟨_, rfl, s.pendWrite_wf _ _ _ _ _ hs⟩
  | canFrameReceive _ _ _ _ => exact ⟨_, rfl, s.ifAwake_wf _ hs (State.canFlush_wf _ (s.canFrame_wf _ _ _ _ hs))⟩
  | canReassemblyTimeout _ => exact ⟨_, rfl, s.ifAwake_wf _ hs (s.loseReasm_wf _ hs)⟩
  | canClaimReceive _ _ _ =>
    exact ⟨_, rfl, s.ifAwake_wf _ hs (ite_wf (State.canFlush_wf _ (State.claimIn_wf _ _ (s.canHeard_wf _ _ hs))) hs)⟩
  | canKeeperHbReceive _ _ _ _ =>
    exact ⟨_, rfl, s.ifAwake_wf _ hs (ite_wf (State.canFlush_wf _ (State.keeperIn_wf _ _ (s.canHeard_wf _ _ hs))) hs)⟩
  | canBeaconReceive _ _ _ _ => exact ⟨_, rfl, s.ifAwake_wf _ hs (ite_wf (State.beaconIn_wf _ _ (s.canHeard_wf _ _ hs)) hs)⟩
  | canKeeperTimeout => exact ⟨_, rfl, s.ifAwake_wf _ hs (State.canFlush_wf _ (s.keeperTimeout_wf hs))⟩
  | canClaimSent => exact ⟨_, rfl, s.ifAwake_wf _ hs (s.claimSent_wf hs)⟩
  | canClaimWaitExpire => exact ⟨_, rfl, s.ifAwake_wf _ hs (State.canFlush_wf _ (s.claimWait_wf hs))⟩
  | canClaimCollision => exact ⟨_, rfl, s.ifAwake_wf _ hs (State.canFlush_wf _ (s.claimCollision_wf hs))⟩
  | canBackoffExpire => exact ⟨_, rfl, s.ifAwake_wf _ hs (State.canFlush_wf _ (s.backoffEnd_wf hs))⟩
  | canKeeperHbSend => exact ⟨_, rfl, s.ifAwake_wf _ hs (ite_wf (s.keeperHb_wf hs) hs)⟩
  | canBeaconSend => exact ⟨_, rfl, s.ifAwake_wf _ hs (ite_wf (s.canKeeperFrame_wf _ _ hs) hs)⟩
  | canBusOff => exact ⟨_, rfl, s.ifAwake_wf _ hs (ite_wf (s.canGoOff_wf hs) hs)⟩
  | canBusOffRecovery =>
    exact ⟨_, rfl, s.ifAwake_wf _ hs (ite_wf (State.canFlush_wf _ (wf_of ((s.setO Obj.CAN_TEC 0).setO Obj.CAN_REC 0)
      (State.setO_wf _ _ _ (s.setO_wf _ _ hs)) rfl rfl rfl rfl)) hs)⟩
  | canEnableWrite _ _ => exact ⟨_, rfl, s.pendWrite_wf _ _ _ _ _ hs⟩
  | nvMarginCheck _ _ _ => exact ⟨_, rfl, s.ifTask_wf _ hs (s.marginCheck_wf _ _ _ hs)⟩
  | nvImageWrite _ _ _ _ => exact ⟨_, rfl, s.ifRequest_wf _ _ hs (s.imageWrite_wf _ _ _ _ hs)⟩
  | nvPatchWrite _ _ _ _ => exact ⟨_, rfl, s.ifRequest_wf _ _ hs (s.patchWrite_wf _ _ _ _ _ hs)⟩
  | feedGood _ _ => exact ⟨_, rfl, s.feedRise_wf _ _ hs⟩
  | feedLost _ => exact ⟨_, rfl, s.feedFall_wf _ _ hs⟩
  | feedReturn => exact ⟨_, rfl, s.feedReturn_wf hs⟩
  | railUndervoltage => exact ⟨_, rfl, s.railLow_wf hs⟩
  | rstNAssert => exact ⟨_, rfl, s.rstLow_wf hs⟩
  | rstNRelease => exact ⟨_, rfl, s.rstHigh_wf hs⟩
  | bootStart _ _ => exact ⟨_, rfl, s.bootStep_wf _ _ hs⟩
  | dataReady _ => exact ⟨_, rfl, s.ifAwake_wf _ hs (s.dataReadyTick_wf _ hs)⟩
  | park _ _ _ => exact ⟨_, rfl, s.ifRequest_wf _ _ hs (s.functionCmd_wf _ _ _ _ _ _ _ _ _ _ hs fun t ht => t.park_wf ht)⟩
  | parkComplete => exact ⟨_, rfl, s.ifAwake_wf _ hs (State.afterPark_wf _ (s.parkComplete_wf hs))⟩
  | parkTimeout => exact ⟨_, rfl, s.ifAwake_wf _ hs (State.afterPark_wf _ (s.parkTimeout_wf hs))⟩
  | unpark _ _ _ => exact ⟨_, rfl, s.ifRequest_wf _ _ hs (s.commandAct_wf _ _ _ _ _ _ _ _ _ _ hs State.unpark_wf)⟩
  | reinit _ _ _ _ =>
    exact ⟨_, rfl, s.ifRequest_wf _ _ hs (s.commandAct_wf _ _ _ _ _ _ _ _ _ _ hs fun t ht => t.reinit_wf _ _ ht)⟩
  | recClear _ _ _ _ _ =>
    exact ⟨_, rfl, s.ifRequest_wf _ _ hs (s.commandAct_wf _ _ _ _ _ _ _ _ _ _ hs fun t ht => t.setO_wf _ _ ht)⟩
  | resetCommand _ _ _ _ =>
    exact ⟨_, rfl, s.ifRequest_wf _ _ hs (s.commandAct_wf _ _ _ _ _ _ _ _ _ _ hs fun t ht => t.actAfter_wf _ ht)⟩
  | commandResetEffect => exact ⟨_, rfl, s.ifAwake_wf _ hs (s.commandReset_wf hs)⟩
  | supvRestartCmd _ _ _ _ =>
    exact ⟨_, rfl, s.ifRequest_wf _ _ hs (State.restartAfter_wf _ (s.commandAct_wf _ _ _ _ _ _ _ _ _ _ hs fun t ht => t.actAfter_wf _ ht))⟩
  | pcycRequest _ _ _ _ =>
    exact ⟨_, rfl, s.ifRequest_wf _ _ hs (s.commandAct_wf _ _ _ _ _ _ _ _ _ _ hs fun t ht => t.pcycAssert_wf _ _ ht)⟩
  | pcycClear _ _ _ =>
    exact ⟨_, rfl, s.ifRequest_wf _ _ hs (s.commandAct_wf _ _ _ _ _ _ _ _ _ _ hs State.pcycRelease_wf)⟩
  | supervisorTrap _ => exact ⟨_, rfl, s.ifAwake_wf _ hs (s.supvTrap_wf _ hs)⟩
  | watchdogExpire => exact ⟨_, rfl, s.ifAwake_wf _ hs (s.supvRestart_wf _ _ hs)⟩
  | supvRestartDone => exact ⟨_, rfl, s.ifAwake_wf _ hs (s.supvDone_wf hs)⟩
  | functionFault _ _ => exact ⟨_, rfl, s.ifAwake_wf _ hs (s.functionFault_wf _ _ hs)⟩
  | recQuietExpire _ => exact ⟨_, rfl, s.ifAwake_wf _ hs (s.quiet_wf _ hs)⟩
  | ladderWindowExpire => exact ⟨_, rfl, s.ifAwake_wf _ hs (s.setO_wf _ _ hs)⟩
  | strapCheck _ => exact ⟨_, rfl, s.ifAwake_wf _ hs (s.strapCheck_wf _ hs)⟩
  | fltClearWrite _ _ => exact ⟨_, rfl, s.pendWrite_wf _ _ _ _ _ hs⟩
  | tmrCompare => exact ⟨_, rfl, s.ifTask_wf _ hs (s.tmrCompare_wf hs)⟩
  | logEntryWrite => exact ⟨_, rfl, s.ifAwake_wf _ hs (s.logWrite_wf hs)⟩
  | fltLogAckWrite _ _ => exact ⟨_, rfl, s.pendWrite_wf _ _ _ _ _ hs⟩
  | fltLogZero _ => exact ⟨_, rfl, s.pendWrite_wf _ _ _ _ _ hs⟩
  | lifetimeHours => exact ⟨_, rfl, s.ifAwake_wf _ hs (s.lifeHours_wf hs)⟩
  | freezePinRise => exact ⟨_, rfl, ite_wf (s.ballAt_wf _ hs) (State.freezeBall_wf _ (s.ballAt_wf _ hs))⟩
  | freezePinFall _ => exact ⟨_, rfl, State.freeBy_wf _ _ _ (s.ballAt_wf _ hs)⟩
  | frzCtrlFreeze _ _ => exact ⟨_, rfl, s.ifRequest_wf _ _ hs (s.hostWrite_wf _ _ _ _ _ hs (s.actAfter_wf _ hs))⟩
  | freezeTakeHold => exact ⟨_, rfl, s.ifAwake_wf _ hs (ite_wf (State.freezeBy_wf _ _ (wf_of s hs rfl rfl rfl rfl)) hs)⟩
  | tapExtest _ _ => exact ⟨_, rfl, s.tapDo_wf _ _ _ hs fun t ht => t.boundaryScan_wf _ _ _ _ ht⟩
  | tapSamplePreload _ _ => exact ⟨_, rfl, s.tapDo_wf _ _ _ hs fun t ht => t.boundaryScan_wf _ _ _ _ ht⟩
  | tapIdcode => exact ⟨_, rfl, s.tapDo_wf _ _ _ hs fun t ht => State.tdo_wf _ _ _ _ (t.tapUpdate_wf _ _ ht)⟩
  | tapExtestPulse _ _ => exact ⟨_, rfl, s.tapDo_wf _ _ _ hs fun t ht => t.boundaryScan_wf _ _ _ _ ht⟩
  | tapExtestTrain _ _ => exact ⟨_, rfl, s.tapDo_wf _ _ _ hs fun t ht => t.boundaryScan_wf _ _ _ _ ht⟩
  | tapStatus => exact ⟨_, rfl, s.tapDo_wf _ _ _ hs fun t ht => State.tdo_wf _ _ _ _ (t.tapUpdate_wf _ _ ht)⟩
  | tapFreezeI => exact ⟨_, rfl, s.tapDo_wf _ _ _ hs fun t ht => State.freezeBy_wf _ _ (t.bypass_wf _ ht)⟩
  | tapThaw _ => exact ⟨_, rfl, s.tapDo_wf _ _ _ hs fun t ht => State.freeBy_wf _ _ _ (t.bypass_wf _ ht)⟩
  | tapCast _ => exact ⟨_, rfl, s.tapDo_wf _ _ _ hs fun t ht => t.cast_wf _ ht⟩
  | tapCastCrc => exact ⟨_, rfl, s.tapDo_wf _ _ _ hs fun t ht => t.castCrcOut_wf ht⟩
  | tapCastMem _ _ _ => exact ⟨_, rfl, s.tapDo_wf _ _ _ hs fun t ht => t.castMem_wf _ _ _ ht⟩
  | tapBypass _ => exact ⟨_, rfl, s.tapDo_wf _ _ _ hs fun t ht => ite_wf (t.bypass_wf _ ht) ht⟩
  | trstNAssert => exact ⟨_, rfl, ite_wf hs (s.tapReset_wf hs)⟩
  | lossOfLockClear _ _ => exact ⟨_, rfl, s.ifAwake_wf _ hs (s.lolClear_wf _ _ hs)⟩
  | energyFall _ => exact ⟨_, rfl, s.ifAwake_wf _ hs (s.energyFall_wf _ hs)⟩
  | unknownStateExit _ _ _ => exact ⟨_, rfl, s.ifAwake_wf _ hs (s.unknownExit_wf _ _ _ hs)⟩
  | vkeepLost => exact ⟨_, rfl, s.vkeepLost_wf hs⟩
  | receiveBufferOverflow _ => exact ⟨_, rfl, s.ifAwake_wf _ hs (s.rxOverflow_wf _ hs)⟩
  | storageUpset _ => exact ⟨_, rfl, s.ifAwake_wf _ hs (s.upset_wf _ hs)⟩

/-- A command at the front of the queue keeps it, and so does a block slot with an empty queue. -/
theorem step_wf {s t : State} (hs : s.wf = true) (h : step s = .next t) : t.wf = true := by
  unfold step at h
  split at h
  · cases h
    exact s.idleStep_wf hs
  · next c r _ =>
    obtain ⟨u, hu, hwf⟩ := exec_wf c { s with pending := r } hs
    rw [hu] at h
    cases h
    exact hwf

/-- Settles O55: a step is one command or one block slot, and each keeps the canonical form. -/
theorem everyStepKeepsTheStoredDataCanonical : Obligations.EveryStepKeepsTheStoredDataCanonical := by
  unfold Obligations.EveryStepKeepsTheStoredDataCanonical
  intro s t
  exact step_wf

end Sys2Proof.Machine
end

section
/-! SUPPORT. What a step does, what reset holds, and when a command leaves the state as it is. -/
namespace Sys2Proof.Machine

/-! ### A step -/

/-- The command at the front of the queue runs on the state with the queue's rest. -/
theorem step_cons (c : Instr) (s : State) : step { s with pending := c :: s.pending } = exec c s := rfl

/-- With an empty queue a block slot passes. -/
theorem step_nil {s : State} (h : s.pending = []) : step s = .next s.idleStep := by
  unfold step
  rw [h]

/-- No slot passes while the clocks stand, or while no lane sends. -/
theorem State.idleStep_rest {s : State} (h : s.awake = false ∨ s.lineBusy = false) : s.idleStep = s := by
  unfold State.idleStep
  rcases h with h | h <;> simp [h]

/-- Settles O51: a step looks at the front of the queue alone. -/
theorem stepRunsTheCommandAtTheFrontOfTheQueue : Obligations.StepRunsTheCommandAtTheFrontOfTheQueue := by
  unfold Obligations.StepRunsTheCommandAtTheFrontOfTheQueue
  intro c s
  refine ⟨step_cons c s, step_nil, fun h hrest => ?_⟩
  rw [step_nil h, State.idleStep_rest hrest]

/-! ### Reset (R490, R525) -/

/-- Reset lists no object, so each reads its default. -/
theorem State.o_reset (k : Nat) : State.reset.o k = objDefault k := rfl

/-- Settles O54: reset lists no object and no memory byte, and every queue of it is empty. -/
theorem resetHoldsEveryDefault : Obligations.ResetHoldsEveryDefault := by
  unfold Obligations.ResetHoldsEveryDefault
  refine ⟨State.reset_wf, State.o_reset, ?_, ?_, ?_, ?_, rfl, rfl, fun r => ?_, rfl, rfl, rfl, rfl, rfl, rfl, rfl, rfl, rfl⟩
  · rw [State.o_reset]; decide +kernel
  · rw [State.o_reset]; decide +kernel
  · rw [State.o_reset]; decide +kernel
  · decide +kernel
  · simp [State.reset]

/-! ### Without clocks, or without the supervisor (R399, R461, R463, R560) -/

/-- A request is executed only where the supervisor serves. -/
theorem State.servedFor_unserved {s : State} (h : s.served = false) (q : Req) : s.servedFor q = false := by
  simp [State.servedFor, h]

/-- The supervisor serves only where the clocks run. -/
theorem State.served_asleep {s : State} (h : s.awake = false) : s.served = false := by simp [State.served, h]

theorem State.ifTask_not {s t : State} (h : s.awake = false) : s.ifTask t = s := by simp [State.ifTask, h]

/-- A command outside the list of those that act asleep is held by the clocks, by the supervisor, or by its turn. -/
theorem exec_asleep {c : Instr} {s : State} (ha : s.awake = false) (hc : actsAsleep c = false) : exec c s = .next s := by
  have hu : s.served = false := State.served_asleep ha
  cases c
  case crossingTick | turnMarker | timingRise | timingFall | energyRise | totSaturate | grpFifoWrite | lossReportArrive
      | feOverloadSet | feOverloadClear | channelRelease | cmdTpulse | tpulseFire | prbFillDone | prbTrigger
      | prbPostDone | calRandomEdge | calQuietExpire | calRunComplete | rmGateEnd | hitCollect | sliceClose
      | wcBurstDrain | spareMapped | migrationCopy | layoutSwitch | queryReceive | queryStart | queryWaitEnd
      | sliceFetchDone | answerHandoff | poolAllocate | leafSubeventArrive | mergerTimeout | leafTpArrive
      | clusterTpDeadline | partDecision | builderSelftestDone | builderCopyDone | cmpJobEnd | laneL2ExitDone
      | laneL1ExitDone | phaseScanDone | phaseTrackWindow | marginScanDone | ragilBlockReceive | huntTimeout | losAssert
      | losClear | lolAssert | txFault | prbsSync | prbsSyncLoss | capsSend | capsReceive | capsTimeout | statusReceive
      | statusSend | statusMiss | laneJoin | alignRow | frameReceive | nakHoldExpire | ackSend | ackReceive | nakReceive
      | replayTimeout | frameSend | repartition | cmdTurn | turnCheck | cmdResync | alignResyncReceive | resyncApply
      | cmdReserved | timeReceive | ntServoUpdate | southRateHunt | rankPowerDown | rankVerifyDone | delayTrack
      | spareCheck | spmCorrectionWriteback | marchDone | scrubHalt | scrubDone | fwRamPatrol | ckinWindowEnd
      | ckinMissingEdges | pllLossOfLock | pllLocked | relockTimeout | leafAlignSend | ntHoldoverExpire | alarmFire
      | hkRangeRestart | hkConversionEnd | hkCalDone | sessionTimeout | lockoutExpire | blockTransferTimeout
      | canFrameReceive | canReassemblyTimeout | canClaimReceive | canKeeperHbReceive | canBeaconReceive
      | canKeeperTimeout | canClaimSent | canClaimWaitExpire | canClaimCollision | canBackoffExpire | canKeeperHbSend
      | canBeaconSend | canBusOff | canBusOffRecovery | dataReady | parkComplete | parkTimeout | commandResetEffect
      | supervisorTrap | watchdogExpire | supvRestartDone | functionFault | recQuietExpire | ladderWindowExpire
      | strapCheck | logEntryWrite | lifetimeHours | freezeTakeHold | lossOfLockClear | energyFall | unknownStateExit
      | receiveBufferOverflow | storageUpset =>
    exact congrArg Host.Outcome.next (State.ifAwake_not ha)
  case prbCopyDone | lutComputeDone | nvMarginCheck | tmrCompare =>
    exact congrArg Host.Outcome.next (State.ifTask_not ha)
  case cufelReceive | heartbeatSend | eventSend =>
    exact congrArg Host.Outcome.next (State.ifServed_not hu)
  case prbArm | prbAbort | tdcCalRestart | tdcCalAbort | tdcLutWrite | tdcRmStart | tdcRmStop | asmStart | asmStop
      | hubPortEnWrite | bldSwitch | bldRejoin | bldDrop | cmpTestWrite | lnPctrlWrite | lnEyeScanStart | lnTestWrite
      | drmCtrlRetire | drmSweepNextBoot | marchPreserving | marchDestructive | marchAbort | scrubStart | scrubResume
      | scrubAbort | clkGateReqWrite | ntSetWrite | ntAlArm | ntAlDisarm | hkStart | hkStop | hkUrgent | hkResultRead
      | read | writeObject | readBlock | writeBlock | store | restoreDefaultsValues | restoreDefaultsImage
      | restoreDefaultsBoth | apply | heartbeatRequest | cfChallengeRead | cfUnlockWrite | cfLockWrite
      | cfClusterIdWrite | canEnableWrite | nvImageWrite | nvPatchWrite | park | unpark | reinit | recClear
      | resetCommand | supvRestartCmd | pcycRequest | pcycClear | fltClearWrite | fltLogAckWrite | fltLogZero
      | frzCtrlFreeze =>
    exact congrArg Host.Outcome.next (State.ifRequest_not (State.servedFor_unserved hu _))
  all_goals cases hc

/-- A command that needs the server is a request, which waits for its turn, or what the supervisor does by itself. -/
theorem exec_unserved {c : Instr} {s : State} (hu : s.served = false) (hc : needsServer c = true) : exec c s = .next s := by
  cases c
  case cufelReceive | heartbeatSend | eventSend =>
    exact congrArg Host.Outcome.next (State.ifServed_not hu)
  case prbArm | prbAbort | tdcCalRestart | tdcCalAbort | tdcLutWrite | tdcRmStart | tdcRmStop | asmStart | asmStop
      | hubPortEnWrite | bldSwitch | bldRejoin | bldDrop | cmpTestWrite | lnPctrlWrite | lnEyeScanStart | lnTestWrite
      | drmCtrlRetire | drmSweepNextBoot | marchPreserving | marchDestructive | marchAbort | scrubStart | scrubResume
      | scrubAbort | clkGateReqWrite | ntSetWrite | ntAlArm | ntAlDisarm | hkStart | hkStop | hkUrgent | hkResultRead
      | read | writeObject | readBlock | writeBlock | store | restoreDefaultsValues | restoreDefaultsImage
      | restoreDefaultsBoth | apply | heartbeatRequest | cfChallengeRead | cfUnlockWrite | cfLockWrite
      | cfClusterIdWrite | canEnableWrite | nvImageWrite | nvPatchWrite | park | unpark | reinit | recClear
      | resetCommand | supvRestartCmd | pcycRequest | pcycClear | fltClearWrite | fltLogAckWrite | fltLogZero
      | frzCtrlFreeze =>
    exact congrArg Host.Outcome.next (State.ifRequest_not (State.servedFor_unserved hu _))
  all_goals cases hc

/-- In a freeze that stops refresh no refresh takes place. -/
theorem exec_refresh_stopped {s : State} (r : RankId) (temp : BitVec 16) (hf : s.frz.frozen = true) (hn : s.frz.noref = true) :
    exec (.refresh r temp) s = .next s :=
  congrArg Host.Outcome.next (if_neg (by simp [hf, hn]))

/-- Settles O56: by the gate that each command's meaning stands behind. -/
theorem aStoppedOrUnservedDeviceStandsStill : Obligations.AStoppedOrUnservedDeviceStandsStill := by
  unfold Obligations.AStoppedOrUnservedDeviceStandsStill
  exact ⟨fun _ r temp _ => ⟨exec_asleep, exec_refresh_stopped r temp⟩, fun _ _ => exec_unserved⟩

end Sys2Proof.Machine
end

section
/-! SUPPORT. What a response leaves of the control server, and what it comes to when a request does more than wait. -/
namespace Sys2Proof.Machine

variable {s t : State} {q : Req}

/-! ### The control server under a response (R461, R462) -/

/-- The control server but for its traffic: the requests that wait, the messages handed over, and the kept responses. -/
def Cufel.keepsButTraffic (c d : Cufel) : Prop :=
  { c with queue := d.queue, outNorth := d.outNorth, outCan := d.outCan, aliveNorth := d.aliveNorth, aliveCan := d.aliveCan } = d

theorem Cufel.keepsButTraffic_trans {a b c : Cufel} (h : a.keepsButTraffic b) (h' : b.keepsButTraffic c) : a.keepsButTraffic c := by
  unfold Cufel.keepsButTraffic at h h' ⊢
  rw [← h] at h'
  exact h'

theorem State.send_keepsButTraffic (s : State) (p : Path) (m : Msg) : (s.send p m).cufel.keepsButTraffic s.cufel := by
  cases p <;> rfl

theorem State.keepSend_keepsButTraffic (s : State) (p : Path) (m : Msg) : (s.keepSend p m).cufel.keepsButTraffic s.cufel := by
  cases p <;> rfl

theorem State.flushRefusals_keepsButTraffic (n : Nat) (s : State) :
    (State.flushRefusals n s).cufel.keepsButTraffic s.cufel := by
  induction n generalizing s with
  | zero => rfl
  | succ n ih =>
    unfold State.flushRefusals
    split
    · split
      · exact Cufel.keepsButTraffic_trans (ih _) (Cufel.keepsButTraffic_trans (State.keepSend_keepsButTraffic _ _ _) rfl)
      · rfl
    · rfl

/-- A response leaves sessions, keys, transfers, events and what is to follow it as they were. -/
theorem State.respond_keepsButTraffic (s : State) (q : Req) (m : Nat) (st : Status) (b : List Byte) :
    (s.respond q m st b).cufel.keepsButTraffic s.cufel :=
  Cufel.keepsButTraffic_trans (State.flushRefusals_keepsButTraffic _ _)
    (Cufel.keepsButTraffic_trans (State.keepSend_keepsButTraffic _ _ _) rfl)

@[simp] theorem State.after_respond (s : State) (q : Req) (m : Nat) (st : Status) (b : List Byte) :
    (s.respond q m st b).cufel.after = s.cufel.after := (congrArg Cufel.after (s.respond_keepsButTraffic q m st b) :)

@[simp] theorem State.sessions_respond (s : State) (q : Req) (m : Nat) (st : Status) (b : List Byte) :
    (s.respond q m st b).cufel.sessions = s.cufel.sessions := (congrArg Cufel.sessions (s.respond_keepsButTraffic q m st b) :)

@[simp] theorem State.challenges_respond (s : State) (q : Req) (m : Nat) (st : Status) (b : List Byte) :
    (s.respond q m st b).cufel.challenges = s.cufel.challenges := (congrArg Cufel.challenges (s.respond_keepsButTraffic q m st b) :)

@[simp] theorem State.down_respond (s : State) (q : Req) (m : Nat) (st : Status) (b : List Byte) :
    (s.respond q m st b).cufel.down = s.cufel.down := (congrArg Cufel.down (s.respond_keepsButTraffic q m st b) :)

@[simp] theorem State.events_respond (s : State) (q : Req) (m : Nat) (st : Status) (b : List Byte) :
    (s.respond q m st b).cufel.events = s.cufel.events := (congrArg Cufel.events (s.respond_keepsButTraffic q m st b) :)

/-- A request whose turn has come runs. -/
theorem request_runs {c : Instr} {P : State → Prop} (hs : s.servedFor q = true) (hexec : exec c s = .next (s.ifRequest q t))
    (h : P t) : Runs c s P :=
  ⟨t, hexec.trans (congrArg _ (State.ifRequest_of hs)), h⟩

/-- What the clocks run happens while they do. -/
theorem awake_runs {c : Instr} {P : State → Prop} (ha : s.awake = true) (hexec : exec c s = .next (s.ifAwake t)) (h : P t) :
    Runs c s P :=
  ⟨t, hexec.trans (congrArg _ (State.ifAwake_of ha)), h⟩

/-- A task of the supervisor happens while the clocks run and the supervisor does not restart. -/
theorem task_runs {c : Instr} {P : State → Prop} (ha : s.awake = true) (hd : s.cufel.down = false)
    (hexec : exec c s = .next (s.ifTask t)) (h : P t) : Runs c s P :=
  ⟨t, hexec.trans (congrArg _ (State.ifTask_of ha hd)), h⟩

end Sys2Proof.Machine
end

section
/-! SUPPORT. Control writes of memories, time, measurement, CAN, faults and freeze. -/
namespace Sys2Proof.Machine

variable {s : State} {q : Req} {v : Nat}

/-! ### The checks -/

theorem RankId.num_lt (r : RankId) : r.num < 3 := by cases r <;> decide

theorem State.drmCtrlCheck_rank (r : RankId) :
    s.drmCtrlCheck (r.num + 1) = if s.rstate r.num = 3 ∨ s.rstate r.num = 4 then .ok else .functionRunning := by
  cases r <;> rfl

theorem State.marchRange_of (ha : s.o Obj.SPM_MARCH_START % 8 = 0) (hn : s.o Obj.SPM_MARCH_LEN % 8 = 0)
    (hpos : s.o Obj.SPM_MARCH_LEN ≠ 0) (hend : s.o Obj.SPM_MARCH_START + s.o Obj.SPM_MARCH_LEN ≤ 0x600000) :
    s.marchRange = true := by
  simp [State.marchRange, ha, hn, hpos, hend]

theorem State.marchCheck_preserving (h : s.o Obj.SPM_MARCH_STATE ≠ 1) :
    s.marchCheck 1 = if s.marchRange then .ok else .outOfRange := by
  simp [State.marchCheck, h]

theorem State.marchCheck_destructive (h : s.o Obj.SPM_MARCH_STATE ≠ 1) (hp : s.o Obj.PWR_STATE = 2) :
    s.marchCheck 2 = if s.marchRange then .ok else .outOfRange := by
  simp [State.marchCheck, h, hp]

/-- A march runs, or the destructive one is asked for outside Parked (R381). -/
theorem State.marchCheck_running :
    (s.o Obj.SPM_MARCH_STATE = 1 → s.marchCheck 1 = .functionRunning) ∧
    (s.o Obj.SPM_MARCH_STATE = 1 ∨ s.o Obj.PWR_STATE ≠ 2 → s.marchCheck 2 = .functionRunning) := by
  refine ⟨fun h => ?_, fun h => ?_⟩
  · simp [State.marchCheck, h]
  · rcases h with h | h <;> simp [State.marchCheck, h]

theorem State.scrubBusy_iff : s.scrubBusy = true ↔ s.o Obj.SCB_STATE = 1 ∨ s.o Obj.SCB_STATE = 2 := by
  simp [State.scrubBusy]

/-- A pass over whole words of the scratchpad starts while none runs (R383). -/
theorem State.scrubCheck_start (h1 : s.o Obj.SCB_STATE ≠ 1) (h2 : s.o Obj.SCB_STATE ≠ 2) (ht : s.o Obj.SCB_TARGET = 3)
    (ha : s.o Obj.SCB_START % 8 = 0) (hn : s.o Obj.SCB_LEN % 8 = 0) (hend : s.o Obj.SCB_START + s.o Obj.SCB_LEN ≤ 0x600000) :
    s.scrubCheck 1 = .ok := by
  simp [State.scrubCheck, State.scrubBusy, h1, h2, ht, targetUnit, targetSize, ha, hn, hend]

theorem State.scrubCheck_start_busy (h : s.o Obj.SCB_STATE = 1) : s.scrubCheck 1 = .functionRunning := by
  simp [State.scrubCheck, State.scrubBusy_iff.mpr (.inl h)]

theorem State.scrubCheck_abort : s.scrubCheck 3 = if s.scrubBusy then .ok else .functionRunning := rfl

/-- Only a pass that runs has read anything when it is stopped. -/
theorem State.scrubStop_halted (h : s.o Obj.SCB_STATE = 2) (next : Nat) (u : List Upset) : s.scrubStop next u = s :=
  if_neg (by simp [h])

theorem State.hkCtrlCheck_urgent (h : s.o Obj.HK_STATE = 1 ∨ s.o Obj.HK_STATE = 2) :
    s.hkCtrlCheck 3 = if hkEntryValid (s.o Obj.HK_MUX_MODE) (s.o Obj.HK_URG_ENTRY) then .ok else .outOfRange :=
  if_neg (by tauto)

theorem State.clusterCheck_other (h : s.o Obj.CF_ROLE ≠ 1) : s.clusterCheck v = if v > 0xFFF then .outOfRange else .ok := if_neg h

/-- A freeze request is accepted: it acts once its response has gone out (R559). -/
theorem frzCtrlFreeze_runs (hs : s.servedFor q = true) (hx : s.isExpert q = true) :
    Runs (.frzCtrlFreeze q 1) s fun t => t.cufel.after = some .freeze ∧
      t.answers q 0x02 .ok (keyBytes Obj.FRZ_CTRL ++ bytesLE 6 ((s.xc + 1) % 2 ^ 48)) ∧
      t.keepsObjects s [Obj.CHK_ALIVE_TXN, Obj.CHK_ALIVE_TXC] ∧ { t with obj := s.obj, cufel := s.cufel } = s := by
  have hw : s.hostWrite q Obj.FRZ_CTRL true (onlyOne (1 : BitVec 8).toNat) (s.actAfter .freeze) =
      (s.actAfter .freeze).respond q 0x02 .ok (keyBytes Obj.FRZ_CTRL ++ bytesLE 6 ((s.xc + 1) % 2 ^ 48)) := by
    simp [State.hostWrite, hx, onlyOne, State.respWrite, State.xeff]
  refine request_runs hs (t := s.hostWrite q Obj.FRZ_CTRL true _ (s.actAfter .freeze)) rfl ?_
  rw [hw]
  refine ⟨State.after_respond _ _ _ _ _, State.respond_answers _ _ _ _ _, fun k hk => ?_, ?_⟩
  · simp only [List.mem_cons, List.not_mem_nil, or_false, not_or] at hk
    exact State.o_respond _ q _ _ _ (State.aliveKey hk)
  · simp [State.actAfter]

/-! ### The statement -/

/-- Settles O3: each command is a host write, so each clause is one value of the write's check. -/
theorem memoryTimeAndServiceWritesAreJudged : Obligations.MemoryTimeAndServiceWritesAreJudged := by
  unfold Obligations.MemoryTimeAndServiceWritesAreJudged
  refine ⟨fun q s hs => ⟨fun r hx => ⟨fun h => ?retires, fun h3 h4 => ?notServing⟩, fun hx => ?sweep, fun hx => ?notExpert,
      fun hbad hrun => ⟨?preservingRange, fun hp => ?destructiveRange⟩,
      fun ha hn hpos hend hrun => ⟨?preserves, fun hp => ?destroys, fun hp => ?notParked⟩, fun hrun => ⟨?marching, ?marchingToo⟩,
      fun h1 h2 ht ha hn hend => ?scrubs, fun h => ?scrubbing, fun h => ⟨?resumes, fun n u => ?abortsHalted⟩,
      fun h => ?notHalted, fun h1 h2 n u => ?noPass, fun ns hx => ?ntSet, fun ns hx => ?ntSetExpert, fun k => ⟨?arms, ?disarms⟩⟩,
    fun q s hs => ⟨fun h => ?hkStarts, fun h => ?hkOff, fun h => ?hkStops, fun h => ?hkIdle, fun h hv => ?hkUrgent,
      fun h1 h2 => ?hkNotUrgent, fun v hr hv => ?cluster, fun v hr hv => ?clusterRange, fun v hr => ?clusterLeaf,
      fun v hv => ?canEnable, fun v hv => ?canRange, ?fltClear, fun v hv => ?fltClearRange, fun v => ?logAck, fun hx => ?logZero,
      fun hx => ⟨?logExpert, fun v => ?frzExpert⟩, fun hx => ?freezes⟩⟩
  case retires => exact hostWrite_runs_waits hs (.inr hx) rfl (State.drmCtrlCheck_rank r |>.trans (if_pos h))
  case notServing =>
    exact hostWrite_runs_refused hs (.inr hx) rfl (State.drmCtrlCheck_rank r |>.trans (if_neg (by tauto))) (by decide)
  case sweep => exact hostWrite_runs_waits hs (.inr hx) rfl rfl
  case notExpert => exact ⟨hostWrite_runs_expert hs hx rfl, fun r => hostWrite_runs_expert hs hx rfl⟩
  case preservingRange =>
    exact hostWrite_runs_refused hs (.inl rfl) rfl ((State.marchCheck_preserving hrun).trans (if_neg (by simp [hbad]))) (by decide)
  case destructiveRange =>
    exact hostWrite_runs_refused hs (.inl rfl) rfl ((State.marchCheck_destructive hrun hp).trans (if_neg (by simp [hbad]))) (by decide)
  case preserves =>
    exact hostWrite_runs_waits hs (.inl rfl) rfl
      ((State.marchCheck_preserving hrun).trans (if_pos (State.marchRange_of ha hn hpos hend)))
  case destroys =>
    exact hostWrite_runs_waits hs (.inl rfl) rfl
      ((State.marchCheck_destructive hrun hp).trans (if_pos (State.marchRange_of ha hn hpos hend)))
  case notParked => exact hostWrite_runs_refused hs (.inl rfl) rfl (State.marchCheck_running.2 (.inr hp)) (by decide)
  case marching => exact hostWrite_runs_refused hs (.inl rfl) rfl (State.marchCheck_running.1 hrun) (by decide)
  case marchingToo => exact hostWrite_runs_refused hs (.inl rfl) rfl (State.marchCheck_running.2 (.inl hrun)) (by decide)
  case scrubs => exact hostWrite_runs_waits hs (.inl rfl) rfl (State.scrubCheck_start h1 h2 ht ha hn hend)
  case scrubbing => exact hostWrite_runs_refused hs (.inl rfl) rfl (State.scrubCheck_start_busy h) (by decide)
  case resumes => exact hostWrite_runs_waits hs (.inl rfl) rfl (if_pos h)
  case abortsHalted =>
    refine hostWrite_runs_waits hs (.inl rfl) ?_ (State.scrubCheck_abort.trans (if_pos (State.scrubBusy_iff.mpr (.inr h))))
    change Host.Outcome.next (s.ifRequest q (s.hostWrite q _ false _ ((s.scrubStop n.toNat u).pendLive _ 3))) = _
    rw [State.scrubStop_halted h]
  case notHalted => exact hostWrite_runs_refused hs (.inl rfl) rfl (if_neg h) (by decide)
  case noPass =>
    exact hostWrite_runs_refused hs (.inl rfl) rfl (State.scrubCheck_abort.trans (if_neg (by rw [State.scrubBusy_iff]; tauto))) (by decide)
  case ntSet => exact hostWrite_runs_waits hs (.inr hx) rfl rfl
  case ntSetExpert => exact hostWrite_runs_expert hs hx rfl
  case arms => exact hostWrite_runs_waits hs (.inl rfl) rfl rfl
  case disarms => exact hostWrite_runs_waits hs (.inl rfl) rfl rfl
  case hkStarts => exact hostWrite_runs_waits hs (.inl rfl) rfl (if_neg h)
  case hkOff => exact hostWrite_runs_refused hs (.inl rfl) rfl (if_pos h) (by decide)
  case hkStops => exact hostWrite_runs_waits hs (.inl rfl) rfl (if_neg (by omega))
  case hkIdle => exact hostWrite_runs_refused hs (.inl rfl) rfl (if_pos h) (by decide)
  case hkUrgent => exact hostWrite_runs_waits hs (.inl rfl) rfl ((State.hkCtrlCheck_urgent h).trans (if_pos hv))
  case hkNotUrgent => exact hostWrite_runs_refused hs (.inl rfl) rfl (if_pos ⟨h1, h2⟩) (by decide)
  case cluster => exact hostWrite_runs_waits hs (.inl rfl) rfl ((State.clusterCheck_other hr).trans (if_neg (by omega)))
  case clusterRange =>
    exact hostWrite_runs_refused hs (.inl rfl) rfl ((State.clusterCheck_other hr).trans (if_pos hv)) (by decide)
  case clusterLeaf => exact hostWrite_runs_refused hs (.inl rfl) rfl (if_pos hr) (by decide)
  case canEnable => exact hostWrite_runs_waits hs (.inl rfl) rfl (if_pos hv)
  case canRange => exact hostWrite_runs_refused hs (.inl rfl) rfl (if_neg (by omega)) (by decide)
  case fltClear => exact hostWrite_runs_waits hs (.inl rfl) rfl rfl
  case fltClearRange =>
    exact hostWrite_runs_refused hs (.inl rfl) rfl (if_neg fun h => hv (BitVec.eq_of_toNat_eq h)) (by decide)
  case logAck => exact hostWrite_runs_waits hs (.inl rfl) rfl rfl
  case logZero => exact hostWrite_runs_waits hs (.inr hx) rfl rfl
  case logExpert => exact hostWrite_runs_expert hs hx rfl
  case frzExpert => exact hostWrite_runs_expert hs hx rfl
  case freezes => exact frzCtrlFreeze_runs hs hx

end Sys2Proof.Machine
end

section
/-! SUPPORT. A preserving march over a scratchpad whose list has not the canonical form (R45, R382). -/
namespace Sys2Proof.Machine

/-- A device in Run on CKIN with a preserving march over word 0; its scratchpad lists a byte 0 that is zero, which the canonical
form leaves out. -/
def marchOverListedZero : State :=
  let s := ((State.reset.setO Obj.PWR_STATE 3).setO Obj.CLK_STATE 3).setO Obj.SPM_MARCH_STATE 1
  { s with spm := [(0, 0)], memUnit := { s.memUnit with march := { s.memUnit.march with start := 0, len := 8, destructive := false } } }

/-- The march runs, and its end with one single-bit error in word 0 writes the corrected word back in the canonical form, so that
the zero byte is listed no more. -/
theorem marchOverListedZero_drops : marchOverListedZero.awake = true ∧ marchOverListedZero.o Obj.SPM_MARCH_STATE = 1 ∧
    (marchOverListedZero.marchDone [] [.word 0 .single 0]).spm = [] := by
  decide +kernel

/-- Refutes O29: it has a preserving march keep the scratchpad as a list from every state, but from a list without the canonical
form the corrected word is written back in that form, so the list changes while every byte reads as it did. -/
theorem not_marchesAndScrubPassesEnd : ¬ Obligations.MarchesAndScrubPassesEnd := by
  unfold Obligations.MarchesAndScrubPassesEnd
  intro h
  obtain ⟨hawake, hruns, hspm⟩ := marchOverListedZero_drops
  obtain ⟨-, hread, -⟩ := h [] 0 0 { path := .north, src := 0, tid := 0 } 0 0 [] 0 marchOverListedZero
  obtain ⟨⟨t, ht, -, -, hkeeps, -⟩, -⟩ := hread hawake hruns rfl (by decide) (by decide)
  have hend : marchOverListedZero.marchDone [] [.word 0 .single 0] = t := (State.ifAwake_of hawake).symm.trans (Host.Outcome.next.inj ht)
  rw [hend, hkeeps] at hspm
  exact absurd hspm (List.cons_ne_nil _ _)

end Sys2Proof.Machine
end

section
/-! SUPPORT. A tick that is a turn marker with an open slice of that tick: the caps in force (R129, R414). -/
namespace Sys2Proof.Machine

/-- The open slice of the tick to come, with cap 7. -/
def sliceOfTickOne : OpenSlice := { kind := .slice, tick := 1, x := 0, cap := 7, recs := [], ncap := 0, nbud := 0, nup := 0 }

/-- A device in Run on CKIN whose next tick is a turn marker and already has an open slice, whose cap is not ASM_CAP. -/
def capBeforeTurn : State :=
  let s := (((State.reset.setO Obj.PWR_STATE 3).setO Obj.CLK_STATE 3).setO Obj.ASM_STATE 1).setO Obj.XC_COUNT 4095
  { s with clk := { s.clk with started := true, marker := some s.tick }, asm := { s.asm with opened := [sliceOfTickOne] } }

/-- It runs with no alarm due. -/
theorem capBeforeTurn_runs : capBeforeTurn.awake = true ∧ capBeforeTurn.inRun = true ∧ capBeforeTurn.o Obj.CLK_STATE = 3 ∧
    capBeforeTurn.o Obj.ASM_STATE = 1 ∧ capBeforeTurn.o Obj.ASM_CAP = 64 ∧
    capBeforeTurn.asm.opened.filter (fun o => decide (capBeforeTurn.tick < o.tick + capBeforeTurn.o Obj.ASM_WINDOW)) =
      [sliceOfTickOne] ∧ ∀ k : Fin 8, capBeforeTurn.alarmDue k = false := by
  decide +kernel

/-- The turn marker puts ASM_CAP in force on the slice of its own tick. -/
theorem capBeforeTurn_caps : (capBeforeTurn.crossingTick [] false).asm.opened.map OpenSlice.cap = [64, 64] := by
  decide +kernel

/-- Refutes O12: its clause on the assembler has the tick leave the slices that stay open as they are, but a tick that is a turn
marker also puts the caps in force on a slice of that tick that is open already. -/
theorem not_aTickCountsOpensTheNextSliceAndAppliesWrites : ¬ Obligations.ATickCountsOpensTheNextSliceAndAppliesWrites := by
  unfold Obligations.ATickCountsOpensTheNextSliceAndAppliesWrites
  intro h
  obtain ⟨hawake, hrun, hclk, hasm, -, hfilter, halarm⟩ := capBeforeTurn_runs
  obtain ⟨t, ht, -, -, -, -, -, -, -, -, hopened, -⟩ := h 0 0 [] false capBeforeTurn hawake hrun rfl rfl rfl rfl rfl rfl rfl rfl hclk
    (Or.inl rfl) rfl rfl rfl rfl rfl halarm rfl (fun _ hmem => absurd hmem List.not_mem_nil)
  have hcaps := capBeforeTurn_caps
  rw [(State.ifAwake_of hawake).symm.trans (Host.Outcome.next.inj ht), hopened hasm, hfilter] at hcaps
  exact absurd (List.cons.inj hcaps).1 (by decide)

end Sys2Proof.Machine
end

section
/-! SUPPORT. An entry of the event log: its record, its lifetime record and its EVENT (R553 to R558). -/
namespace Sys2Proof.Machine

variable {s t : State} {e : Staged} {fold : Nat}

/-! ### The record and the payload are as long as their rows -/

theorem length_logRecord (code cls unit lseq xc nt fold : Nat) (data : List Byte) :
    (logRecord code cls unit lseq xc nt fold data).length = 32 := by
  simp only [logRecord, List.length_append, List.length_take, List.length_replicate, length_bytesLE]
  omega

theorem length_entryPayload (fold : Nat) (data : List Byte) (unit lseq : Nat) :
    (entryPayload fold data unit lseq).length = 16 := by
  simp only [entryPayload, List.length_append, List.length_take, List.length_replicate, length_bytesLE, List.length_singleton]
  omega

/-! ### An event that is offered (R471) -/

theorem State.event_masked {cls : Nat} (h : cls ≠ 0) (hm : s.ob Obj.CF_EVT_MASK cls = false) (code xc nt i j : Nat) (p : List Byte) :
    s.event cls code xc nt i j p = s := if_pos ⟨h, hm⟩

/-- A class that is not masked queues its event behind the others while there is room. -/
theorem State.events_event {cls : Nat} (h : cls = 0 ∨ s.ob Obj.CF_EVT_MASK cls = true) (hroom : s.cufel.events.length < 64)
    (code xc nt i j : Nat) (p : List Byte) :
    (s.event cls code xc nt i j p).cufel.events = s.cufel.events ++ [
      { seq := s.o Obj.CF_EVT_SEQ, cls := cls, code := code, xc := xc, nt := nt, objIdx := i, objSub := j, payload := p }] := by
  have hpass : ¬(cls ≠ 0 ∧ s.ob Obj.CF_EVT_MASK cls = false) := by
    rintro ⟨hc, hm⟩
    exact h.elim hc fun hset => absurd (hm.symm.trans hset) (by decide)
  have hsoil : ((s.wrapBy 16 Obj.CF_EVT_SEQ 1).soil 0x5C4000 0x8000).cufel = s.cufel := by
    unfold State.soil
    split <;> rfl
  simp only [State.event, if_neg hpass, hsoil, if_pos hroom]

/-- What an event leaves: every object but the event counters, and everything but the event queue and the bytes it makes open. -/
theorem State.event_leaves (s : State) (cls code xc nt i j : Nat) (p : List Byte) :
    (s.event cls code xc nt i j p).keepsObjects s [Obj.CF_EVT_SEQ, Obj.CF_EVT_DROP] ∧
    { s.event cls code xc nt i j p with obj := s.obj, cufel := s.cufel, soiled := s.soiled } = s := by
  unfold State.event
  split
  · exact ⟨State.keepsObjects_refl s _, rfl⟩
  · have hseq : ((s.wrapBy 16 Obj.CF_EVT_SEQ 1).soil 0x5C4000 0x8000).keepsObjects s [Obj.CF_EVT_SEQ, Obj.CF_EVT_DROP] := by
      unfold State.soil
      split <;> exact State.keepsObjects_setO (State.keepsObjects_refl s _) (by simp) _
    have hrest : { (s.wrapBy 16 Obj.CF_EVT_SEQ 1).soil 0x5C4000 0x8000 with obj := s.obj, cufel := s.cufel, soiled := s.soiled } = s := by
      unfold State.soil
      split <;> rfl
    simp only
    split
    · exact ⟨hseq, hrest⟩
    · split
      · exact ⟨State.keepsObjects_bump hseq (by simp), hrest⟩
      · exact ⟨State.keepsObjects_bump hseq (by simp), hrest⟩

/-! ### The lifetime record (R558) -/

theorem State.cufel_lifeWrite (s : State) (code cls unit lseq xc : Nat) (data : List Byte) :
    (s.lifeWrite code cls unit lseq xc data).cufel = s.cufel := rfl

theorem State.cufel_lifeOnly (s : State) (code unit : Nat) (data : List Byte) : (s.lifeOnly code unit data).cufel = s.cufel := rfl

theorem State.lifeWrite_keepsObjects (s : State) (code cls unit lseq xc : Nat) (data : List Byte) :
    (s.lifeWrite code cls unit lseq xc data).keepsObjects s [Obj.FLT_LIFE_NEXT, Obj.FLT_LIFE_WRITES] :=
  State.keepsObjects_bump (State.keepsObjects_setO (fun _ _ => rfl) (by simp) _) (by simp)

theorem State.o_lifeWrite_next (s : State) (code cls unit lseq xc : Nat) (data : List Byte) :
    (s.lifeWrite code cls unit lseq xc data).o Obj.FLT_LIFE_NEXT = (s.o Obj.FLT_LIFE_NEXT + 1) % 512 :=
  (State.o_setO_ne _ _ (by decide)).trans (State.o_setO_self _ _ _)

/-! ### The entry before its EVENT -/

/-- An unread entry in the slot to come counts as lost. -/
def State.slotJudged (s : State) : State :=
  let old := memWord s.spm (logAddr (s.o Obj.FLT_LOG_NEXT)) 32
  if bits old 255 240 ≠ 0 ∧ s.unread (bits old 223 208) then s.bump Obj.FLT_LOG_LOST else s

/-- The scratchpad replaced. -/
def State.withSpm (s : State) (m : Memory) : State := { s with spm := m }

theorem State.o_withSpm (s : State) (m : Memory) (k : Nat) : (s.withSpm m).o k = s.o k := rfl

theorem State.withSpm_keepsButObjects (h : t.keepsButObjects s) (m : Memory) :
    (t.withSpm m).keepsButObjects (s.withSpm m) :=
  congrArg (State.withSpm · m) h


/-- No entry that still is to be read stands in the slot. -/
theorem State.o_slotJudged_read (h : bits (memWord s.spm (logAddr (s.o Obj.FLT_LOG_NEXT)) 32) 255 240 = 0 ∨
    s.unread (bits (memWord s.spm (logAddr (s.o Obj.FLT_LOG_NEXT)) 32) 223 208) = false) :
    s.slotJudged.o Obj.FLT_LOG_LOST = s.o Obj.FLT_LOG_LOST := by
  unfold State.slotJudged
  rw [if_neg]
  rintro ⟨hold, hun⟩
  exact h.elim hold fun hread => absurd (hread.symm.trans hun) (by decide)

theorem State.o_slotJudged_unread (hold : bits (memWord s.spm (logAddr (s.o Obj.FLT_LOG_NEXT)) 32) 255 240 ≠ 0)
    (hun : s.unread (bits (memWord s.spm (logAddr (s.o Obj.FLT_LOG_NEXT)) 32) 223 208) = true) :
    s.slotJudged.o Obj.FLT_LOG_LOST = satAdd 32 (s.o Obj.FLT_LOG_LOST) 1 := by
  unfold State.slotJudged
  rw [if_pos ⟨hold, hun⟩, State.o_bump_self]

/-- The entry in its slot of the ring, with the counters of the log. -/
def State.entryStored (s : State) (e : Staged) (fold : Nat) : State :=
  let n := s.o Obj.FLT_LOG_NEXT
  let r := s.slotJudged
  let r := r.withSpm (memWrite r.spm (logAddr n) (logRecord e.code e.cls e.unit (s.o Obj.FLT_LOG_SEQ) e.xc e.nt fold e.data))
  let r := ((r.setO Obj.FLT_LOG_NEXT ((n + 1) % 512)).wrapBy 16 Obj.FLT_LOG_SEQ 1).wrapBy 32 Obj.FLT_LOG_CNT 1
  (r.setO Obj.FLT_LAST_CODE e.code).setO Obj.FLT_LAST_X e.xc

/-- The entry kept as the first fault, when it is one. -/
def State.firstKept (s : State) (e : Staged) : State :=
  if e.cls = 0 ∧ s.o Obj.FLT_FIRST = 0 then s.setO Obj.FLT_FIRST e.code else s

/-- The entry with its lifetime record, when its code is marked L. -/
def State.entryNoted (s : State) (e : Staged) (fold : Nat) : State :=
  let t := (s.entryStored e fold).firstKept e
  if lifeCodes.contains e.code then t.lifeWrite e.code e.cls e.unit (s.o Obj.FLT_LOG_SEQ) e.xc e.data else t

theorem State.logEntry_eq (s : State) (e : Staged) (fold : Nat) :
    s.logEntry e fold = (s.entryNoted e fold).event e.cls e.code e.xc e.nt 0 0 (entryPayload fold e.data e.unit (s.o Obj.FLT_LOG_SEQ)) :=
  rfl

theorem State.slotJudged_leaves (s : State) :
    s.slotJudged.keepsObjects s [Obj.FLT_LOG_LOST] ∧ s.slotJudged.keepsButObjects s := by
  unfold State.slotJudged
  simp only
  split
  · exact ⟨State.keepsObjects_bump (State.keepsObjects_refl s _) (by simp), rfl⟩
  · exact ⟨State.keepsObjects_refl s _, rfl⟩

theorem State.firstKept_leaves (s : State) (e : Staged) :
    (s.firstKept e).keepsObjects s [Obj.FLT_FIRST] ∧ (s.firstKept e).keepsButObjects s := by
  unfold State.firstKept
  split
  · exact ⟨State.keepsObjects_setO (State.keepsObjects_refl s _) (by simp) _, rfl⟩
  · exact ⟨State.keepsObjects_refl s _, rfl⟩

/-- The objects that the stored entry writes. -/
def logKeys : List Nat := [Obj.FLT_LOG_NEXT, Obj.FLT_LOG_SEQ, Obj.FLT_LOG_CNT, Obj.FLT_LAST_CODE, Obj.FLT_LAST_X]

theorem State.o_entryStored_other (s : State) (e : Staged) (fold : Nat) {k : Nat} (hk : k ∉ logKeys) :
    (s.entryStored e fold).o k = s.slotJudged.o k := by
  simp only [logKeys, List.mem_cons, List.not_mem_nil, or_false, not_or] at hk
  obtain ⟨hnext, hseq, hcnt, hcode, hx⟩ := hk
  simp only [State.entryStored, State.o_setO, State.o_wrapBy, hnext, hseq, hcnt, hcode, hx, if_false, State.o_withSpm]

theorem State.o_entryStored (s : State) (e : Staged) (fold : Nat) :
    (s.entryStored e fold).o Obj.FLT_LOG_NEXT = (s.o Obj.FLT_LOG_NEXT + 1) % 512 ∧
    (s.entryStored e fold).o Obj.FLT_LOG_SEQ = (s.o Obj.FLT_LOG_SEQ + 1) % 2 ^ 16 ∧
    (s.entryStored e fold).o Obj.FLT_LOG_CNT = (s.o Obj.FLT_LOG_CNT + 1) % 2 ^ 32 ∧
    (s.entryStored e fold).o Obj.FLT_LAST_CODE = e.code ∧ (s.entryStored e fold).o Obj.FLT_LAST_X = e.xc := by
  have hseq : s.slotJudged.o Obj.FLT_LOG_SEQ = s.o Obj.FLT_LOG_SEQ := s.slotJudged_leaves.1 _ (by decide)
  have hcnt : s.slotJudged.o Obj.FLT_LOG_CNT = s.o Obj.FLT_LOG_CNT := s.slotJudged_leaves.1 _ (by decide)
  simp +decide [State.entryStored, State.o_setO, State.o_wrapBy, State.o_withSpm, hseq, hcnt]

theorem State.keepsButObjects_wrapBy (h : t.keepsButObjects s) (n k d : Nat) : (t.wrapBy n k d).keepsButObjects s :=
  State.keepsButObjects_setO h k _

/-- But for objects, the entry changes its slot alone. -/
theorem State.entryStored_keeps (s : State) (e : Staged) (fold : Nat) :
    (s.entryStored e fold).keepsButObjects (s.withSpm (memWrite s.spm (logAddr (s.o Obj.FLT_LOG_NEXT))
      (logRecord e.code e.cls e.unit (s.o Obj.FLT_LOG_SEQ) e.xc e.nt fold e.data))) := by
  have hkeeps := s.slotJudged_leaves.2
  have hspm : s.slotJudged.spm = s.spm := (congrArg State.spm hkeeps :)
  simp only [State.entryStored, hspm]
  generalize memWrite s.spm _ _ = m
  have hslot := State.withSpm_keepsButObjects hkeeps m
  exact State.keepsButObjects_setO (State.keepsButObjects_setO (State.keepsButObjects_wrapBy (State.keepsButObjects_wrapBy
    (State.keepsButObjects_setO hslot _ _) _ _ _) _ _ _) _ _) _ _

/-! ### The whole entry -/

/-- What an entry writes before its EVENT goes out. -/
structure EntryWritten (t s : State) (e : Staged) (fold : Nat) : Prop where
  spm : t.spm = memWrite s.spm (logAddr (s.o Obj.FLT_LOG_NEXT))
    (logRecord e.code e.cls e.unit (s.o Obj.FLT_LOG_SEQ) e.xc e.nt fold e.data)
  next : t.o Obj.FLT_LOG_NEXT = (s.o Obj.FLT_LOG_NEXT + 1) % 512
  seq : t.o Obj.FLT_LOG_SEQ = (s.o Obj.FLT_LOG_SEQ + 1) % 2 ^ 16
  cnt : t.o Obj.FLT_LOG_CNT = (s.o Obj.FLT_LOG_CNT + 1) % 2 ^ 32
  lastCode : t.o Obj.FLT_LAST_CODE = e.code
  lastX : t.o Obj.FLT_LAST_X = e.xc
  first : t.o Obj.FLT_FIRST = if e.cls = 0 ∧ s.o Obj.FLT_FIRST = 0 then e.code else s.o Obj.FLT_FIRST
  lost : t.o Obj.FLT_LOG_LOST = s.slotJudged.o Obj.FLT_LOG_LOST
  mask : t.o Obj.CF_EVT_MASK = s.o Obj.CF_EVT_MASK
  evtSeq : t.o Obj.CF_EVT_SEQ = s.o Obj.CF_EVT_SEQ
  cufel : t.cufel = s.cufel
  rank : t.rankMem = s.rankMem
  log : t.log = s.log

/-- The entry as it stands before its lifetime record. -/
def State.entryFirst (s : State) (e : Staged) (fold : Nat) : State := (s.entryStored e fold).firstKept e

theorem State.entryFirst_keeps (s : State) (e : Staged) (fold : Nat) :
    (s.entryFirst e fold).keepsButObjects (s.withSpm (memWrite s.spm (logAddr (s.o Obj.FLT_LOG_NEXT))
      (logRecord e.code e.cls e.unit (s.o Obj.FLT_LOG_SEQ) e.xc e.nt fold e.data))) :=
  State.keepsButObjects_trans ((s.entryStored e fold).firstKept_leaves e).2 (s.entryStored_keeps e fold)

theorem State.o_entryFirst_other (s : State) (e : Staged) (fold : Nat) {k : Nat} (hk : k ∉ Obj.FLT_FIRST :: logKeys) :
    (s.entryFirst e fold).o k = s.slotJudged.o k := by
  rw [List.mem_cons, not_or] at hk
  obtain ⟨hfirst, hlog⟩ := hk
  exact (((s.entryStored e fold).firstKept_leaves e).1 k (by simpa using hfirst)).trans (s.o_entryStored_other e fold hlog)

theorem State.o_entryFirst_same (s : State) (e : Staged) (fold : Nat) {k : Nat} (hk : k ∉ Obj.FLT_LOG_LOST :: Obj.FLT_FIRST :: logKeys) :
    (s.entryFirst e fold).o k = s.o k := by
  rw [List.mem_cons, not_or] at hk
  obtain ⟨hlost, hlog⟩ := hk
  exact (s.o_entryFirst_other e fold hlog).trans (s.slotJudged_leaves.1 k (by simpa using hlost))

theorem State.o_entryFirst_first (s : State) (e : Staged) (fold : Nat) :
    (s.entryFirst e fold).o Obj.FLT_FIRST = if e.cls = 0 ∧ s.o Obj.FLT_FIRST = 0 then e.code else s.o Obj.FLT_FIRST := by
  have hfirst : (s.entryStored e fold).o Obj.FLT_FIRST = s.o Obj.FLT_FIRST :=
    (s.o_entryStored_other e fold (by decide)).trans (s.slotJudged_leaves.1 _ (by decide))
  unfold State.entryFirst State.firstKept
  rw [hfirst]
  split
  · exact State.o_setO_self _ _ _
  · exact hfirst

theorem State.entryFirst_written (s : State) (e : Staged) (fold : Nat) : EntryWritten (s.entryFirst e fold) s e fold := by
  obtain ⟨hnext, hseq, hcnt, hcode, hx⟩ := s.o_entryStored e fold
  have hobj := ((s.entryStored e fold).firstKept_leaves e).1
  have hall := s.entryFirst_keeps e fold
  exact {
    spm := (congrArg State.spm hall :)
    next := (hobj _ (by decide)).trans hnext
    seq := (hobj _ (by decide)).trans hseq
    cnt := (hobj _ (by decide)).trans hcnt
    lastCode := (hobj _ (by decide)).trans hcode
    lastX := (hobj _ (by decide)).trans hx
    first := s.o_entryFirst_first e fold
    lost := s.o_entryFirst_other e fold (by decide)
    mask := s.o_entryFirst_same e fold (by decide)
    evtSeq := s.o_entryFirst_same e fold (by decide)
    cufel := (congrArg State.cufel hall :)
    rank := (congrArg State.rankMem hall :)
    log := (congrArg State.log hall :) }

theorem State.entryNoted_plain (fold : Nat) (h : e.code ∉ lifeCodes) : s.entryNoted e fold = s.entryFirst e fold :=
  if_neg fun hmem => h (List.contains_iff_mem.mp hmem)

theorem State.entryNoted_life (fold : Nat) (h : e.code ∈ lifeCodes) : s.entryNoted e fold =
    (s.entryFirst e fold).lifeWrite e.code e.cls e.unit (s.o Obj.FLT_LOG_SEQ) e.xc e.data :=
  if_pos (List.contains_iff_mem.mpr h)

theorem State.entryNoted_written (s : State) (e : Staged) (fold : Nat) : EntryWritten (s.entryNoted e fold) s e fold := by
  have h := s.entryFirst_written e fold
  by_cases hlife : e.code ∈ lifeCodes
  · rw [State.entryNoted_life fold hlife]
    have hobj := (s.entryFirst e fold).lifeWrite_keepsObjects e.code e.cls e.unit (s.o Obj.FLT_LOG_SEQ) e.xc e.data
    exact { spm := h.spm, cufel := h.cufel, rank := h.rank, log := h.log
            next := (hobj _ (by decide)).trans h.next
            seq := (hobj _ (by decide)).trans h.seq
            cnt := (hobj _ (by decide)).trans h.cnt
            lastCode := (hobj _ (by decide)).trans h.lastCode
            lastX := (hobj _ (by decide)).trans h.lastX
            first := (hobj _ (by decide)).trans h.first
            lost := (hobj _ (by decide)).trans h.lost
            mask := (hobj _ (by decide)).trans h.mask
            evtSeq := (hobj _ (by decide)).trans h.evtSeq }
  · rw [State.entryNoted_plain fold hlife]
    exact h

/-! ### The entry with its EVENT -/

section
variable (s : State) (e : Staged) (fold : Nat)

theorem State.logEntry_leaves : (s.logEntry e fold).keepsObjects (s.entryNoted e fold) [Obj.CF_EVT_SEQ, Obj.CF_EVT_DROP] ∧
    { s.logEntry e fold with
      obj := (s.entryNoted e fold).obj, cufel := (s.entryNoted e fold).cufel, soiled := (s.entryNoted e fold).soiled } =
      s.entryNoted e fold :=
  (s.entryNoted e fold).event_leaves _ _ _ _ _ _ _

/-- The EVENT leaves what the entry wrote, but for the event queue and its counters. -/
structure EntryLogged (t s : State) (e : Staged) (fold : Nat) : Prop where
  record : memRead t.spm (logAddr (s.o Obj.FLT_LOG_NEXT)) 32 =
    logRecord e.code e.cls e.unit (s.o Obj.FLT_LOG_SEQ) e.xc e.nt fold e.data
  outside : t.keepsSpmOutside s (logAddr (s.o Obj.FLT_LOG_NEXT)) (logAddr (s.o Obj.FLT_LOG_NEXT) + 32)
  next : t.o Obj.FLT_LOG_NEXT = (s.o Obj.FLT_LOG_NEXT + 1) % 512
  seq : t.o Obj.FLT_LOG_SEQ = (s.o Obj.FLT_LOG_SEQ + 1) % 2 ^ 16
  cnt : t.o Obj.FLT_LOG_CNT = (s.o Obj.FLT_LOG_CNT + 1) % 2 ^ 32
  lastCode : t.o Obj.FLT_LAST_CODE = e.code
  lastX : t.o Obj.FLT_LAST_X = e.xc
  first : t.o Obj.FLT_FIRST = if e.cls = 0 ∧ s.o Obj.FLT_FIRST = 0 then e.code else s.o Obj.FLT_FIRST
  lost : t.o Obj.FLT_LOG_LOST = s.slotJudged.o Obj.FLT_LOG_LOST
  rank : t.rankMem = s.rankMem
  log : t.log = s.log

theorem State.logEntry_written : EntryLogged (s.logEntry e fold) s e fold := by
  have h := s.entryNoted_written e fold
  obtain ⟨hobj, hrest⟩ := s.logEntry_leaves e fold
  have hspm : (s.logEntry e fold).spm = _ := (congrArg State.spm hrest : _).trans h.spm
  exact {
    record := by
      rw [hspm]
      simpa only [length_logRecord] using memRead_memWrite s.spm (logAddr (s.o Obj.FLT_LOG_NEXT))
        (logRecord e.code e.cls e.unit (s.o Obj.FLT_LOG_SEQ) e.xc e.nt fold e.data)
    outside := fun a ha => by
      rw [hspm, memGet_memWrite_outside _ _ _ _ (by rwa [length_logRecord])]
    next := (hobj _ (by decide)).trans h.next
    seq := (hobj _ (by decide)).trans h.seq
    cnt := (hobj _ (by decide)).trans h.cnt
    lastCode := (hobj _ (by decide)).trans h.lastCode
    lastX := (hobj _ (by decide)).trans h.lastX
    first := (hobj _ (by decide)).trans h.first
    lost := (hobj _ (by decide)).trans h.lost
    rank := (congrArg State.rankMem hrest : _).trans h.rank
    log := (congrArg State.log hrest : _).trans h.log }

theorem State.nvm_logEntry (h : e.code ∉ lifeCodes) : (s.logEntry e fold).nvm = s.nvm := by
  have hkeep : (s.entryFirst e fold).nvm = s.nvm := (congrArg State.nvm (s.entryFirst_keeps e fold) :)
  have hevent : (s.logEntry e fold).nvm = (s.entryNoted e fold).nvm := (congrArg State.nvm (s.logEntry_leaves e fold).2 :)
  rw [hevent, State.entryNoted_plain fold h, hkeep]

theorem State.o_logEntry_lifeNext (h : e.code ∈ lifeCodes) :
    (s.logEntry e fold).o Obj.FLT_LIFE_NEXT = (s.o Obj.FLT_LIFE_NEXT + 1) % 512 := by
  rw [(s.logEntry_leaves e fold).1 _ (by decide), State.entryNoted_life fold h, State.o_lifeWrite_next,
    s.o_entryFirst_same e fold (by decide)]

theorem State.events_logEntry_masked (hcls : e.cls ≠ 0) (hmask : s.ob Obj.CF_EVT_MASK e.cls = false) :
    (s.logEntry e fold).cufel.events = s.cufel.events := by
  have h := s.entryNoted_written e fold
  rw [State.logEntry_eq, State.event_masked hcls ((State.ob_of_o h.mask).trans hmask), h.cufel]

theorem State.events_logEntry (hcls : e.cls = 0 ∨ s.ob Obj.CF_EVT_MASK e.cls = true) (hroom : s.cufel.events.length < 64) :
    (s.logEntry e fold).cufel.events = s.cufel.events ++ [
      { seq := s.o Obj.CF_EVT_SEQ, cls := e.cls, code := e.code, xc := e.xc, nt := e.nt, objIdx := 0, objSub := 0,
        payload := entryPayload fold e.data e.unit (s.o Obj.FLT_LOG_SEQ) }] := by
  have h := s.entryNoted_written e fold
  rw [State.logEntry_eq, State.events_event (hcls.imp_right fun hm => (State.ob_of_o h.mask).trans hm) (h.cufel ▸ hroom),
    h.cufel, h.evtSeq]

/-- Settles O60: an entry's EVENT carries the entry, unless its class is masked; a record for the lifetime log alone leaves the
event queue as it is. -/
theorem loggedEntriesAreOfferedAsEvents : Obligations.LoggedEntriesAreOfferedAsEvents := by
  unfold Obligations.LoggedEntriesAreOfferedAsEvents
  intro e fold code unit data s
  refine ⟨length_entryPayload _ _ _ _, fun hcls hroom => ?_, fun hcls hmask => ?_, s.cufel_lifeOnly code unit data, fun ha => ?_⟩
  · exact ⟨_, s.events_logEntry e fold (hcls.imp_right fun ⟨h, hm⟩ => h ▸ hm) hroom, rfl, rfl, rfl, rfl, rfl⟩
  · exact s.events_logEntry_masked e fold (by omega) (hcls ▸ hmask)
  · exact awake_runs ha rfl rfl
end

/-! ### LOG_ENTRY_WRITE (R555) -/

/-- The oldest staged event taken, with the newest fold of its code and unit. -/
def State.foldPut (s : State) (e : Staged) (r : List Staged) (tick count : Nat) : State :=
  { s with log := { staging := r, folds := (s.log.folds.filter fun f => !(f.code == e.code && f.unit == e.unit)) ++
      [{ code := e.code, unit := e.unit, tick := tick, count := count }] } }

theorem State.logWrite_folded {r : List Staged} {f : Fold} (hst : s.log.staging = e :: r)
    (hf : s.log.folds.find? (fun x => x.code == e.code && x.unit == e.unit) = some f) :
    s.logWrite = if s.ticksCover (e.tick - f.tick) 1000 then (s.foldPut e r e.tick 0).logEntry e (clip 65535 f.count)
      else s.foldPut e r f.tick (f.count + 1) := by
  simp only [State.logWrite, hst, hf]
  rfl

theorem State.logWrite_new {r : List Staged} (hst : s.log.staging = e :: r)
    (hf : s.log.folds.find? (fun x => x.code == e.code && x.unit == e.unit) = none) :
    s.logWrite = (s.foldPut e r e.tick 0).logEntry e 0 := by
  simp only [State.logWrite, hst, hf]
  rfl

/-- Settles O47: a staged event that is not folded goes to its slot with its counters, lifetime record and EVENT. -/
theorem stagedEventsAreLoggedOrFolded : Obligations.StagedEventsAreLoggedOrFolded := by
  unfold Obligations.StagedEventsAreLoggedOrFolded
  intro e r f s ha
  refine ⟨fun h => ?_, fun hst => ⟨fun hf hcov => ?_, fun hf hcov => ?_, fun hnew => ?_⟩⟩
  · exact exec_of_awake ha rfl (by simp only [State.logWrite, h])
  · refine awake_runs ha rfl ?_
    rw [State.logWrite_folded hst hf, hcov]
    exact ⟨rfl, rfl, rfl⟩
  · refine awake_runs ha rfl ?_
    rw [State.logWrite_folded hst hf, hcov]
    have h := State.logEntry_written (s.foldPut e r e.tick 0) e (clip 65535 f.count)
    exact ⟨(congrArg Log.staging h.log :), h.record, h.next, h.lastCode⟩
  · have hnone : s.log.folds.find? (fun x => x.code == e.code && x.unit == e.unit) = none :=
      List.find?_eq_none.mpr fun x hx => by
        simp only [Bool.and_eq_true, beq_iff_eq, not_and]
        exact hnew x hx
    refine awake_runs ha rfl ?_
    rw [State.logWrite_new hst hnone]
    have h := State.logEntry_written (s.foldPut e r e.tick 0) e 0
    exact ⟨(congrArg Log.staging h.log :), h.record, h.outside, h.next, h.seq, h.cnt, h.lastCode, h.lastX, h.first,
      State.nvm_logEntry _ e 0, State.o_logEntry_lifeNext _ e 0, fun hroom hcls => State.events_logEntry _ e 0 hcls hroom,
      fun hread => h.lost.trans (State.o_slotJudged_read hread), fun hold hun => h.lost.trans (State.o_slotJudged_unread hold hun),
      h.rank⟩

end Sys2Proof.Machine
end

section
/-! SUPPORT. What lanes, links, ports and flags leave alone as they follow one another: one frame for all of them. -/
namespace Sys2Proof.Machine

variable {s t u : State} {i j k n : Nat}

/-! ### The objects that they write -/

/-- Objects that following writes as it likes: TP_DROP, the pool's and the hub's, check unit 4's run, lanes and links, FAULT_N, lost
entries and the counts of conditions. -/
def linkPlain (k : Nat) : Bool :=
  decide (0x293000 ≤ k ∧ k < 0x293100) || decide (0x312000 ≤ k ∧ k < 0x312100) || decide (0x340000 ≤ k ∧ k < 0x342000)
    || decide (0x383000 ≤ k ∧ k < 0x383100) || decide (0x400000 ≤ k ∧ k < 0x450000) || decide (0x788000 ≤ k)
    || k == Obj.FLT_FAULTN || k == Obj.FLT_LOG_LOST

/-- Objects that following writes: these, the power state, and the bits of the conditions. -/
def linkKey (k : Nat) : Bool := linkPlain k || k == Obj.PWR_STATE || k == Obj.FLT_LATCHED || k == Obj.FLT_ACTIVE

theorem linkKey_of_plain (h : linkPlain k = true) : linkKey k = true := by simp [linkKey, h]

theorem ne_of_linkPlain (h : linkPlain k = true) (hj : linkPlain j = false) : j ≠ k :=
  fun e => Bool.false_ne_true (hj.symm.trans (e ▸ h))

theorem ne_of_linkKey (h : linkKey k = true) (hj : linkKey j = false) : j ≠ k :=
  fun e => Bool.false_ne_true (hj.symm.trans (e ▸ h))

theorem linkPlain_condCnt (n : Nat) : linkPlain (Obj.FLT_COND_CNT n) = true := by
  have h : 0x788000 ≤ Obj.FLT_COND_CNT n := by simp only [Obj.FLT_COND_CNT, objKey]; omega
  simp [linkPlain, h]

theorem linkPlain_lane {sub : Nat} (hi : i < 25) (hsub : sub < 256) : linkPlain (objKey (0x4010 + i) sub) = true := by
  have h : 0x400000 ≤ objKey (0x4010 + i) sub ∧ objKey (0x4010 + i) sub < 0x450000 := by simp only [objKey]; omega
  simp [linkPlain, h]

theorem linkPlain_port {sub : Nat} (hk : k < 8) (hsub : sub < 256) : linkPlain (objKey (0x3410 + k) sub) = true := by
  have h : 0x340000 ≤ objKey (0x3410 + k) sub ∧ objKey (0x3410 + k) sub < 0x342000 := by simp only [objKey]; omega
  simp [linkPlain, h]

theorem linkPlain_south {sub : Nat} (hk : k < 8) (hsub : sub < 256) : linkPlain (objKey (0x4420 + k) sub) = true := by
  have h : 0x400000 ≤ objKey (0x4420 + k) sub ∧ objKey (0x4420 + k) sub < 0x450000 := by simp only [objKey]; omega
  simp [linkPlain, h]

/-! ### The frame -/

/-- Outside objects, at most the log, the output, the hub, the builders, the pool, the watch, and lanes and links differ from s. -/
def State.keepsButLinks (t s : State) : Prop :=
  { t with obj := s.obj, log := s.log, out := s.out, hub := s.hub, bld := s.bld, query := s.query, watch := s.watch, lanes := s.lanes,
           north := s.north, south := s.south, pass := s.pass, line := s.line } = s

theorem State.keepsButLinks_refl (s : State) : s.keepsButLinks s := rfl

theorem State.keepsButLinks_trans (h : u.keepsButLinks t) (h' : t.keepsButLinks s) : u.keepsButLinks s := by
  unfold State.keepsButLinks at h h' ⊢
  rw [← h] at h'
  exact h'

/-- Lanes, links, ports and flags have followed from s: what is not theirs is as it was, the output only goes on, Run and Degraded stay so and every other
power state stays what it is, no latched condition is lost, and a condition that does not end by itself holds as it did. -/
structure State.LinkFrame (t s : State) : Prop where
  rest : t.keepsButLinks s
  items : t.query.items = s.query.items
  sent : s.out <+: t.out
  objs : ∀ k, linkKey k = false → t.o k = s.o k
  run : t.inRun = s.inRun
  power : s.inRun = false → t.o Obj.PWR_STATE = s.o Obj.PWR_STATE
  latched : ∀ n, s.ob Obj.FLT_LATCHED n = true → t.ob Obj.FLT_LATCHED n = true
  active : ∀ n, n ∉ [2, 3, 8, 10, 11, 12] → t.ob Obj.FLT_ACTIVE n = s.ob Obj.FLT_ACTIVE n

theorem State.LinkFrame.trans (h : u.LinkFrame t) (h' : t.LinkFrame s) : u.LinkFrame s where
  rest := State.keepsButLinks_trans h.rest h'.rest
  items := h.items.trans h'.items
  sent := h'.sent.trans h.sent
  objs k hk := (h.objs k hk).trans (h'.objs k hk)
  run := h.run.trans h'.run
  power hr := (h.power (h'.run.trans hr)).trans (h'.power hr)
  latched n hn := h.latched n (h'.latched n hn)
  active n hn := (h.active n hn).trans (h'.active n hn)

theorem State.inRun_of_o (h : t.o Obj.PWR_STATE = s.o Obj.PWR_STATE) : t.inRun = s.inRun := by simp only [State.inRun, h]

/-- What differs from s in no object but plain ones. -/
theorem State.LinkFrame.of_plain (hrest : t.keepsButLinks s) (hitems : t.query.items = s.query.items)
    (hobj : ∀ k, linkPlain k = false → t.o k = s.o k) (hout : t.out = s.out := by rfl) : t.LinkFrame s where
  rest := hrest
  items := hitems
  sent := hout ▸ List.prefix_rfl
  objs k hk := hobj k (by simp only [linkKey, Bool.or_eq_false_iff] at hk; exact hk.1.1.1)
  run := State.inRun_of_o (hobj _ (by decide))
  power _ := hobj _ (by decide)
  latched n hn := (State.ob_of_o (hobj _ (by decide))).trans hn
  active n _ := State.ob_of_o (hobj _ (by decide))

theorem State.LinkFrame.of_obj (hrest : t.keepsButLinks s) (hitems : t.query.items = s.query.items) (ho : t.obj = s.obj)
    (hout : t.out = s.out := by rfl) : t.LinkFrame s :=
  .of_plain hrest hitems (fun k _ => congrArg (fun l => sget (objDefault k) l k) ho) hout

theorem State.LinkFrame.refl (s : State) : s.LinkFrame s := .of_obj rfl rfl rfl

/-- A unit of the family that no other object belongs to has changed last. -/
theorem State.LinkFrame.frame (h : t.LinkFrame s) (hrest : u.keepsButLinks t) (hitems : u.query.items = t.query.items)
    (ho : u.obj = t.obj) (hout : u.out = t.out := by rfl) : u.LinkFrame s :=
  (State.LinkFrame.of_obj hrest hitems ho hout).trans h

theorem State.LinkFrame.write (s : State) (hk : linkPlain k = true) (v : Nat) : (s.setO k v).LinkFrame s :=
  .of_plain rfl rfl fun _ hj => s.o_setO_ne v (ne_of_linkPlain hk hj)

theorem State.LinkFrame.setO (h : t.LinkFrame s) (hk : linkPlain k = true) (v : Nat) : (t.setO k v).LinkFrame s :=
  (State.LinkFrame.write t hk v).trans h

theorem State.LinkFrame.bump (h : t.LinkFrame s) (hk : linkPlain k = true) : (t.bump k).LinkFrame s := h.setO hk _

theorem State.LinkFrame.setOb (h : t.LinkFrame s) (hk : linkPlain k = true) (n : Nat) (b : Bool) : (t.setOb k n b).LinkFrame s :=
  h.setO hk _

theorem State.LinkFrame.ite {c : Prop} [Decidable c] (ht : t.LinkFrame s) (hu : u.LinkFrame s) : (if c then t else u).LinkFrame s := by
  split
  · exact ht
  · exact hu

theorem State.LinkFrame.foldl {β : Type} {step : State → β → State} {xs : List β} (h : ∀ x ∈ xs, ∀ v, (step v x).LinkFrame v)
    (s : State) : (xs.foldl step s).LinkFrame s := by
  induction xs generalizing s with
  | nil => exact .refl s
  | cons x xs ih => exact (ih (fun y hy => h y (List.mem_cons_of_mem _ hy)) _).trans (h x List.mem_cons_self s)

/-! ### The flags (R522, R550 to R554) -/

/-- A bit of a condition that may end by itself, or any latched bit that rises, is written. -/
theorem State.LinkFrame.write_active (s : State) (h : n ∈ [2, 3, 8, 10, 11, 12]) (b : Bool) : (s.setOb Obj.FLT_ACTIVE n b).LinkFrame s where
  rest := rfl
  items := rfl
  sent := List.prefix_rfl
  objs k hk := s.o_setO_ne _ (ne_of_linkKey (by decide) hk)
  run := State.inRun_of_o (s.o_setO_ne _ (by decide))
  power _ := s.o_setO_ne _ (by decide)
  latched m hm := (State.ob_of_o (s.o_setO_ne _ (by decide))).trans hm
  active m hm := State.ob_setOb_ne s b fun e => hm (e ▸ h)

theorem State.LinkFrame.write_latched (s : State) (n : Nat) : (s.setOb Obj.FLT_LATCHED n true).LinkFrame s where
  rest := rfl
  items := rfl
  sent := List.prefix_rfl
  objs k hk := s.o_setO_ne _ (ne_of_linkKey (by decide) hk)
  run := State.inRun_of_o (s.o_setO_ne _ (by decide))
  power _ := s.o_setO_ne _ (by decide)
  latched m hm := by
    by_cases h : m = n
    · rw [h, State.ob_setOb_self]
    · rw [State.ob_setOb_ne s true h, hm]
  active m _ := State.ob_of_o (s.o_setO_ne _ (by decide))

theorem State.refreshFaultN_linkFrame (s : State) : s.refreshFaultN.LinkFrame s := .ite (.refl s) (.write s (by decide) _)

theorem State.ceases_linkFrame (s : State) (h : n ∈ [2, 3, 8, 10, 11, 12]) : (s.ceases n).LinkFrame s := .write_active s h false

theorem State.endIf_linkFrame (s : State) (h : n ∈ [2, 3, 8, 10, 11, 12]) (gone : Bool) : (s.endIf n gone).LinkFrame s :=
  .ite (s.ceases_linkFrame h) (.refl s)

theorem State.dieCond_linkFrame (s : State) : s.dieCond.LinkFrame s := .ite (.refl s) (s.ceases_linkFrame (by decide))

theorem State.stage_linkFrame (s : State) (code cls unit : Nat) (d : List Byte) : (s.stage code cls unit d).LinkFrame s :=
  .ite (.write s (by decide) _) (.of_obj rfl rfl rfl)

theorem State.arise_linkFrame (s : State) (h : n ∈ [2, 3, 8, 10, 11, 12]) : (s.arise n).LinkFrame s :=
  (State.refreshFaultN_linkFrame _).trans <|
    (((State.LinkFrame.write_latched _ n).trans (.write_active s h true)).bump (linkPlain_condCnt n))

theorem State.ariseIf_linkFrame (s : State) (h : n ∈ [2, 3, 8, 10, 11, 12]) : (s.ariseIf n).LinkFrame s :=
  .ite (.refl s) (s.arise_linkFrame h)

theorem State.portCond_linkFrame (s : State) : s.portCond.LinkFrame s :=
  .ite ((State.ariseIf_linkFrame _ (by decide)).trans (s.stage_linkFrame _ _ _ _)) (.refl s)

/-- Run and Degraded are decided between them alone. -/
theorem State.runState_linkFrame (s : State) :
    (if s.inRun then s.setO Obj.PWR_STATE (if s.degrNow = 0 then 3 else 5) else s).LinkFrame s := by
  split
  case isFalse => exact .refl s
  case isTrue h =>
    exact {
      rest := rfl
      items := rfl
      sent := List.prefix_rfl
      objs := fun k hk => s.o_setO_ne _ (ne_of_linkKey (by decide) hk)
      run := by
        rw [h]
        unfold State.inRun
        rw [State.o_setO_self]
        split <;> rfl
      power := fun hr => absurd (h.symm.trans hr) (by decide)
      latched := fun n hn => (State.ob_of_o (s.o_setO_ne _ (by decide))).trans hn
      active := fun n _ => State.ob_of_o (s.o_setO_ne _ (by decide)) }

theorem State.settle_linkFrame (s : State) : s.settle.LinkFrame s :=
  (State.refreshFaultN_linkFrame _).trans <| (State.dieCond_linkFrame _).trans <| (State.portCond_linkFrame _).trans <|
    (State.endIf_linkFrame _ (by decide) _).trans <| (State.endIf_linkFrame _ (by decide) _).trans <|
    (State.endIf_linkFrame _ (by decide) _).trans <| (State.endIf_linkFrame _ (by decide) _).trans <|
    (State.endIf_linkFrame _ (by decide) _).trans s.runState_linkFrame

/-! ### The lanes (R289, R298 to R300) -/

/-- A lane's change of power state writes plain objects. -/
theorem State.LinkFrame.of_lane (hi : i < 25) (hrest : t.keepsButLinks s) (hitems : t.query.items = s.query.items)
    (h : t.keepsObjects s [Obj.LN_PSTATE i, Obj.LN_ASTATE i, Obj.LN_RATE i]) (hout : t.out = s.out := by rfl) :
    t.LinkFrame s := by
  refine .of_plain hrest hitems (fun j hj => h j ?_) hout
  simp only [List.mem_cons, List.not_mem_nil, or_false, not_or]
  exact ⟨ne_of_linkPlain (linkPlain_lane hi (by decide)) hj, ne_of_linkPlain (linkPlain_lane hi (by decide)) hj,
    ne_of_linkPlain (linkPlain_lane hi (by decide)) hj⟩

theorem State.laneL2_linkFrame (s : State) (hi : i < 25) : (s.laneL2 i).LinkFrame s := .of_lane hi rfl rfl (s.laneL2_keepsObjects i)

theorem State.laneL1_linkFrame (s : State) (hi : i < 25) : (s.laneL1 i).LinkFrame s := .of_lane hi rfl rfl (s.laneL1_keepsObjects i)

theorem State.laneFollow_linkFrame (s : State) (hi : i < 25) : (s.laneFollow i).LinkFrame s :=
  .ite (s.laneL2_linkFrame hi) (.ite (s.laneL1_linkFrame hi) (.refl s))

theorem State.lanesFollow_linkFrame (s : State) : s.lanesFollow.LinkFrame s :=
  .foldl (fun _ hi v => v.laneFollow_linkFrame (List.mem_range.mp hi)) s

theorem State.laneFall_linkFrame (s : State) (hi : i < 25) (v : Nat) : (s.laneFall i v).LinkFrame s :=
  (State.LinkFrame.write s (linkPlain_lane hi (by decide)) v).frame rfl rfl rfl

theorem State.tryScan_linkFrame (s : State) (hi : i < 25) : (s.tryScan i).LinkFrame s :=
  .ite (.write s (linkPlain_lane hi (by decide)) 2) (.refl s)

/-! ### The hub's ports (R214, R218, R225) -/

theorem State.setPortState_linkFrame (s : State) (hk : k < 8) (v : Nat) : (s.setPortState k v).LinkFrame s := by
  have hset : ((s.setO (Obj.HUB_PSTATE k) v).setOb Obj.HUB_PORT_UP k (v == 3)).LinkFrame s :=
    (State.LinkFrame.write s (linkPlain_port hk (by decide)) v).setOb (by decide) k _
  exact .ite (hset.bump (linkPlain_port hk (by decide))) hset

theorem State.keepsButLinks_of_records (h : t.keepsButRecords s) : t.keepsButLinks s :=
  (congrArg (fun v : State => { v with log := s.log, out := s.out, bld := s.bld, query := s.query, watch := s.watch, lanes := s.lanes, north := s.north, south := s.south, pass := s.pass, line := s.line }) h :)

theorem State.closeAt_linkFrame (s : State) (n reason : Nat) (hk : k < 8) : (s.closeAt n (k + 1) reason).LinkFrame s := by
  have hframe := s.closeAt_keepsButRecords n (k + 1) reason
  have hkey : linkPlain (Obj.HUB_ABSENT k) = true := linkPlain_port hk (by decide)
  exact .of_plain (State.keepsButLinks_of_records hframe) (congrArg (fun v : State => v.query.items) hframe :)
    (fun j hj => s.closeAt_keepsObjects n (k + 1) reason j (by simpa using ne_of_linkPlain hkey hj))
    (congrArg State.out hframe :)

theorem State.recordOut_linkFrame (s : State) (r : MRec) (rs : List MRec) : ((s.recordOut r rs).withCluster r).LinkFrame s := by
  obtain ⟨hframe, hkeeps⟩ := s.recordOut_keeps r rs
  have hkeys : ∀ k ∈ releaseKeys, linkPlain k = true := by decide
  have hrest : (s.recordOut r rs).keepsButLinks s :=
    (congrArg (fun v : State => { v with log := s.log, out := s.out, hub := s.hub, bld := s.bld, query := s.query, watch := s.watch, lanes := s.lanes, north := s.north, south := s.south, pass := s.pass, line := s.line }) hframe :)
  exact .of_plain hrest (congrArg (fun v : State => v.query.items) hframe :)
    (fun j hj => hkeeps j fun hmem => Bool.false_ne_true (hj.symm.trans (hkeys j hmem)))
    (congrArg State.out hframe :)

theorem State.releaseRecs_linkFrame (n : Nat) (s : State) : (s.releaseRecs n).LinkFrame s := by
  induction n generalizing s with
  | zero => exact .refl s
  | succ n ih =>
    cases hrecs : s.hub.recs with
    | nil => rw [State.releaseRecs_waits (by simp [hrecs])]; exact .refl s
    | cons r rs =>
      cases hdone : r.done with
      | false => rw [State.releaseRecs_waits (by simp [hrecs, hdone])]; exact .refl s
      | true =>
        rw [State.releaseRecs_done hrecs hdone]
        exact (ih _).trans (s.recordOut_linkFrame r rs)

theorem State.closePort_linkFrame (s : State) (hk : k < 8) : (s.closePort k).LinkFrame s :=
  (State.releaseRecs_linkFrame _ _).trans (.foldl (fun n _ v => v.closeAt_linkFrame n 1 hk) s)

theorem State.noteEvent_linkFrame (s : State) (f : Nat) (c : Ch) (n us : Nat) : (s.noteEvent f c n us).LinkFrame s :=
  .ite (.of_obj rfl rfl rfl) (.of_obj rfl rfl rfl)

/-! ### The south links (R214, R314, R330, R345) -/

theorem State.linkDown_south_linkFrame (s : State) (k : Port) (keep : Bool) : (s.linkDown (.south k) keep).LinkFrame s := by
  have hkey : linkPlain (linkStateKey (.south k)) = true := linkPlain_south k.isLt (by decide)
  have hline (v : State) : (v.clearLine (.south k)).LinkFrame v := .of_obj rfl rfl rfl
  have hrx (v : State) (r : LinkRx) : (v.setRx (.south k) r).LinkFrame v := .of_obj rfl rfl rfl
  have hcaps (v : State) (c : CapsSide) : (v.setCaps (.south k) c).LinkFrame v := .of_obj rfl rfl rfl
  exact (hcaps _ _).trans ((hrx _ _).trans ((hline _).trans (State.LinkFrame.write s hkey 0)))

theorem State.enterCaps_south_linkFrame (s : State) (k : Port) : (s.enterCaps (.south k)).LinkFrame s := by
  have hkey : linkPlain (linkStateKey (.south k)) = true := linkPlain_south k.isLt (by decide)
  have hcaps (v : State) (c : CapsSide) : (v.setCaps (.south k) c).LinkFrame v := .of_obj rfl rfl rfl
  exact (hcaps _ _).trans (State.LinkFrame.write s hkey 1)

theorem State.releaseAll_linkFrame (s : State) (a : PoolAgent) (bs : List Nat) : (s.releaseAll a bs).LinkFrame s := by
  obtain ⟨hitems, hspm⟩ := State.releaseAll_kept a bs s
  have hkeys : ∀ k ∈ [Obj.POOL_DOUBLE, Obj.POOL_FOREIGN], linkPlain k = true := by decide
  have hframe := s.releaseAll_keepsButPool a bs
  have hsent : (s.releaseAll a bs).out = s.out := (congrArg State.out hframe :)
  refine .of_plain ?_ hitems (fun j hj =>
    State.releaseAll_keepsObjects a bs s j fun hmem => Bool.false_ne_true (hj.symm.trans (hkeys j hmem))) hsent
  unfold State.keepsButPool at hframe
  rw [← hspm] at hframe
  exact (congrArg (fun v : State => { v with log := s.log, out := s.out, hub := s.hub, bld := s.bld, watch := s.watch, lanes := s.lanes, north := s.north, south := s.south, pass := s.pass, line := s.line }) hframe :)

theorem State.loseHeld_south_linkFrame (s : State) (k : Port) : (s.loseHeld (.south k)).LinkFrame s := by
  let v : State := s.setTx (.south k) { s.tx (.south k) with held := [], ptr := (s.tx (.south k)).next, stalled := false }
  have hrelease : (v.releaseAll .replay ((s.tx (.south k)).held.flatMap (·.blocks))).LinkFrame s :=
    (v.releaseAll_linkFrame .replay _).trans (.of_obj rfl rfl rfl)
  have hkey : linkPlain (Obj.RG_SLOSTFR k) = true := linkPlain_south k.isLt (by decide)
  exact hrelease.setO hkey _

theorem State.portOff_linkFrame (s : State) (hk : k < 8) : (s.portOff k).LinkFrame s := by
  have hport (p : HubPort) : ((s.setPortState k 0).setPort k p).LinkFrame s := (s.setPortState_linkFrame hk 0).frame rfl rfl rfl
  exact .ite ((State.settle_linkFrame _).trans <| (State.laneL2_linkFrame _ (by omega)).trans <|
    (State.laneL2_linkFrame _ (by omega)).trans <| (State.loseHeld_south_linkFrame _ _).trans <|
    (State.linkDown_south_linkFrame _ _ _).trans (hport _)) (.refl s)

theorem State.southDown_linkFrame (s : State) (hk : k < 8) (keep : Bool) : (s.southDown k keep).LinkFrame s := by
  have hdown (p : HubPort) : ((s.linkDown (.south (portFin k)) keep).setPort k p).LinkFrame s :=
    (s.linkDown_south_linkFrame (portFin k) keep).frame rfl rfl rfl
  have hcond (v : State) : (if v.ob Obj.HUB_PORT_EN k && !v.ob Obj.FLT_ACTIVE 12 then (v.stage 0x0503 0 k (bytesLE 1 4)).ariseIf 12
      else v).LinkFrame v :=
    .ite ((State.ariseIf_linkFrame _ (by decide)).trans (State.stage_linkFrame _ _ _ _ _)) (.refl v)
  unfold State.southDown
  dsimp only
  split
  · exact (State.settle_linkFrame _).trans <| (State.portOff_linkFrame _ hk).trans <| (State.closePort_linkFrame _ hk).trans <|
      (hcond _).trans <| (State.noteEvent_linkFrame _ _ _ _ _).trans <| (State.setPortState_linkFrame _ hk 4).trans (hdown _)
  · exact (State.portOff_linkFrame _ hk).trans <| (State.setPortState_linkFrame _ hk 1).trans (hdown _)
  · exact hdown _

theorem State.clockRate_linkFrame (s : State) (hk : k < 8) : (s.clockRate k).LinkFrame s :=
  .ite ((State.laneL2_linkFrame (s.setSouthRate k 3) (by omega)).trans (.of_obj rfl rfl rfl)) (.refl s)

theorem State.southFollow_linkFrame (s : State) (hk : k < 8) : (s.southFollow k).LinkFrame s := by
  have hleaves : (if (s.o (Obj.RG_SSTATE k) = 1 ∨ s.o (Obj.RG_SSTATE k) = 3) ∧ s.sends (17 + k) = false then s.southDown k true
      else s).LinkFrame s :=
    .ite (s.southDown_linkFrame hk true) (.refl s)
  have hlink (v : State) : (if v.o (Obj.HUB_PSTATE k) = 1 ∨ v.o (Obj.HUB_PSTATE k) = 4 then v.setPortState k 2 else v).LinkFrame v :=
    .ite (v.setPortState_linkFrame hk 2) (.refl v)
  unfold State.southFollow
  dsimp only
  refine .ite (.ite (.refl s) (s.linkDown_south_linkFrame _ true)) (.ite ?_ (.ite (.refl s) (.ite ?_ (.refl s))))
  · exact .ite ((State.enterCaps_south_linkFrame _ _).trans ((hlink _).trans hleaves)) ((hlink _).trans hleaves)
  · exact (State.clockRate_linkFrame _ hk).trans (s.southDown_linkFrame hk true)

/-! ### The north link (R293, R314, R320) -/

theorem State.tpDropAll_linkFrame (s : State) : s.tpDropAll.LinkFrame s :=
  (State.LinkFrame.write s (k := Obj.TP_DROP) (by decide) _).frame rfl rfl rfl

theorem State.linkDown_north_linkFrame (s : State) (keep : Bool) : (s.linkDown .north keep).LinkFrame s :=
  (State.LinkFrame.write s (k := Obj.RG_LSTATE) (by decide) 0).frame rfl rfl rfl

theorem State.northDown_linkFrame (s : State) (keep : Bool) : (s.northDown keep).LinkFrame s := by
  have hmap : ((s.linkDown .north keep).tpDropAll.setO Obj.RG_LANEMAP 0).LinkFrame s :=
    ((State.tpDropAll_linkFrame _).trans (s.linkDown_north_linkFrame keep)).setO (by decide) 0
  unfold State.northDown
  refine .ite (.refl s) ?_
  dsimp only
  exact .ite ((State.settle_linkFrame _).trans <| (State.ariseIf_linkFrame _ (by decide)).trans <|
    (State.stage_linkFrame _ _ _ _ _).trans <| hmap.frame rfl rfl rfl) ((State.settle_linkFrame _).trans (hmap.frame rfl rfl rfl))

theorem State.rewindMark_north_linkFrame (s : State) : (s.rewindMark .north).LinkFrame s := by
  unfold State.rewindMark
  split
  · exact State.LinkFrame.bump (k := Obj.RG_REWINDS) ((State.LinkFrame.refl s).frame rfl rfl rfl) (by decide)
  · exact .refl s

theorem State.bundleEvent_linkFrame (s : State) (lane cause : Nat) : (s.bundleEvent lane cause).LinkFrame s :=
  .ite ((State.ariseIf_linkFrame _ (by decide)).trans (s.stage_linkFrame _ _ _ _)) (.refl s)

theorem State.alignRow_linkFrame (s : State) (kind : Nat) : (s.alignRow kind).LinkFrame s where
  rest := rfl
  items := rfl
  sent := List.prefix_append _ _
  objs _ _ := rfl
  run := rfl
  power _ := rfl
  latched _ h := h
  active _ _ := rfl

theorem State.restripe_linkFrame (s : State) : s.restripe.LinkFrame s := by
  have hmap := (State.LinkFrame.write s (k := Obj.RG_LANEMAP) (by decide) (s.o Obj.RG_LANEMAP &&& s.eligible)).bump
    (k := Obj.RG_RESTRIPE) (by decide)
  unfold State.restripe
  exact .ite (.refl s) <| .ite (s.northDown_linkFrame true) <| (State.settle_linkFrame _).trans <|
    (State.bundleEvent_linkFrame _ _ _).trans <| (State.rewindMark_north_linkFrame _).trans <|
    (State.alignRow_linkFrame _ 1).trans <| hmap.frame rfl rfl rfl

theorem State.northFollow_linkFrame (s : State) : s.northFollow.LinkFrame s := by
  have hcaps : (s.enterCaps .north).LinkFrame s := (State.LinkFrame.write s (k := Obj.RG_LSTATE) (by decide) 1).frame rfl rfl rfl
  unfold State.northFollow
  split
  · exact .ite hcaps (.refl s)
  · exact .ite (.refl s) (s.northDown_linkFrame true)
  · exact .ite (.refl s) (s.northDown_linkFrame true)
  · exact .ite s.restripe_linkFrame (s.northDown_linkFrame true)

/-! ### Everything follows -/

theorem State.northHand_linkFrame (s : State) : s.northHand.LinkFrame s := .ite (.of_obj rfl rfl rfl) (.refl s)

theorem State.follow_linkFrame (s : State) : s.follow.LinkFrame s := by
  have hsouth (v : State) : (if v.isHub then (List.range 8).foldl State.southFollow v else v).LinkFrame v :=
    .ite (.foldl (fun _ hk w => w.southFollow_linkFrame (List.mem_range.mp hk)) v) (.refl v)
  exact (State.settle_linkFrame _).trans <| (State.northHand_linkFrame _).trans <| (State.lanesFollow_linkFrame _).trans <|
    (hsouth _).trans <| (State.northFollow_linkFrame _).trans s.lanesFollow_linkFrame

theorem State.northCheck_linkFrame (s : State) : s.northCheck.LinkFrame s :=
  .ite ((State.settle_linkFrame _).trans <| (State.ariseIf_linkFrame _ (by decide)).trans (s.stage_linkFrame _ _ _ _)) (.refl s)

/-! ### What the frame says of memories and channels -/

theorem State.LinkFrame.memories (h : t.LinkFrame s) : t.keepsMemories s :=
  ⟨(congrArg State.spm h.rest :), (congrArg State.rankMem h.rest :), (congrArg State.nvm h.rest :)⟩

theorem State.LinkFrame.chans (h : t.LinkFrame s) : t.chans = s.chans := (congrArg State.chans h.rest :)

theorem State.LinkFrame.chan (h : t.LinkFrame s) (c : Ch) : t.chan c = s.chan c := congrArg (·.get c) h.chans

theorem State.LinkFrame.clk (h : t.LinkFrame s) : t.clk = s.clk := (congrArg State.clk h.rest :)

theorem State.LinkFrame.frz (h : t.LinkFrame s) : t.frz = s.frz := (congrArg State.frz h.rest :)

theorem State.LinkFrame.powerUnit (h : t.LinkFrame s) : t.power = s.power := (congrArg State.power h.rest :)

theorem State.LinkFrame.cufel (h : t.LinkFrame s) : t.cufel = s.cufel := (congrArg State.cufel h.rest :)

theorem State.LinkFrame.tick (h : t.LinkFrame s) : t.tick = s.tick := (congrArg State.tick h.rest :)

theorem State.LinkFrame.nt (h : t.LinkFrame s) : t.nt = s.nt := (congrArg State.nt h.rest :)

theorem State.LinkFrame.time (h : t.LinkFrame s) : t.time = s.time := (congrArg State.time h.rest :)

theorem State.LinkFrame.xc (h : t.LinkFrame s) : t.xc = s.xc := h.objs _ (by decide)

end Sys2Proof.Machine
end

section
/-! SUPPORT. Freeze and thaw: what takes hold, what a thaw leaves, and who releases it (R559 to R562, R570). -/
namespace Sys2Proof.Machine

variable {s t u : State} {us : Nat}

/-! ### A freeze takes hold -/

theorem State.power_of_awake (h : s.awake = true) : s.o Obj.PWR_STATE ≠ 0 := by
  intro hoff
  simp [State.awake, State.clocked, hoff] at h

theorem State.thawed_of_awake (h : s.awake = true) : s.frz.frozen = false := by
  cases hf : s.frz.frozen
  · rfl
  · simp [State.awake, hf] at h

theorem State.freezeBy_off (x : FreezeSource) (h : s.o Obj.PWR_STATE = 0) : s.freezeBy x = s := if_pos h

/-- A further source only adds itself. -/
theorem State.freezeBy_frozen (x : FreezeSource) (h : s.o Obj.PWR_STATE ≠ 0) (hf : s.frz.frozen = true) :
    s.freezeBy x = { s with frz := { s.frz.hold true x with held := setBit s.frz.held (sourceBit x) true } } := by
  have hheld : (s.frz.hold true x).frozen = true := by cases x <;> exact hf
  simp only [State.freezeBy, if_neg h, hheld, if_true]

/-- What the first source does. -/
structure State.FrozenBy (t s : State) (x : FreezeSource) : Prop where
  frozen : t.frz.frozen = true
  holds : t.frz = { s.frz.hold true x with
    frozen := true, held := 2 ^ sourceBit x, noref := !s.flag Obj.FRZ_REFRESH, x := s.xc, nt := s.ntNs,
    number := s.frz.number + 1, pos := 0 }
  count : t.o Obj.FRZ_COUNT = satAdd 32 (s.o Obj.FRZ_COUNT) 1
  objs : t.keepsObjects s [Obj.FRZ_COUNT]
  rest : { t with obj := s.obj, frz := s.frz } = s

theorem State.freezeBy_first (x : FreezeSource) (h : s.o Obj.PWR_STATE ≠ 0) (hf : s.frz.frozen = false) :
    (s.freezeBy x).FrozenBy s x := by
  have hheld : (s.frz.hold true x).frozen = false := by cases x <;> exact hf
  have hnum : (s.frz.hold true x).number = s.frz.number := by cases x <;> rfl
  simp only [State.freezeBy, if_neg h, hheld, Bool.false_eq_true, if_false, hnum]
  exact ⟨rfl, rfl, State.o_bump_self s _, State.keepsObjects_bump (State.keepsObjects_refl s _) (by simp), rfl⟩

theorem State.awake_frozen (h : t.frz.frozen = true) : t.awake = false := by simp [State.awake, h]

/-! ### What a thaw leaves (R570) -/

/-- The objects that a thaw shows. -/
def thawKeys : List Nat := [Obj.FRZ_LAST_X, Obj.FRZ_LAST_DUR, Obj.FRZ_SRC, Obj.XC_STATE]

/-- A step of the thaw leaves the freeze unit, the memories, and the objects that show the freeze, and starts no hit. -/
structure State.ThawFrame (t s : State) : Prop where
  frz : t.frz = s.frz
  memories : t.keepsMemories s
  objs : ∀ k ∈ thawKeys, t.o k = s.o k
  hits : ∀ c, (s.chan c).hit = none → (t.chan c).hit = none

theorem State.ThawFrame.trans (h : u.ThawFrame t) (h' : t.ThawFrame s) : u.ThawFrame s where
  frz := h.frz.trans h'.frz
  memories := State.keepsMemories_trans h.memories h'.memories
  objs k hk := (h.objs k hk).trans (h'.objs k hk)
  hits c hc := h.hits c (h'.hits c hc)

theorem State.ThawFrame.refl (s : State) : s.ThawFrame s := ⟨rfl, ⟨rfl, rfl, rfl⟩, fun _ _ => rfl, fun _ h => h⟩

/-- Another unit has changed last. -/
theorem State.ThawFrame.frame (h : t.ThawFrame s) (hobj : u.obj = t.obj) (hfrz : u.frz = t.frz) (hmem : u.keepsMemories t)
    (hchans : u.chans = t.chans) : u.ThawFrame s where
  frz := hfrz.trans h.frz
  memories := State.keepsMemories_trans hmem h.memories
  objs k hk := (congrArg (fun l => sget (objDefault k) l k) hobj).trans (h.objs k hk)
  hits c hc := (congrArg (fun v : Vector Chan 128 => (v.get c).hit) hchans).trans (h.hits c hc)

theorem State.ThawFrame.of_links (h : t.LinkFrame s) : t.ThawFrame s where
  frz := h.frz
  memories := h.memories
  objs k hk := h.objs k ((by decide : ∀ k ∈ thawKeys, linkKey k = false) k hk)
  hits c hc := (congrArg Chan.hit (h.chan c)).trans hc

theorem State.ThawFrame.setO {k : Nat} (s : State) (hk : k ∉ thawKeys) (v : Nat) : (s.setO k v).ThawFrame s where
  frz := rfl
  memories := ⟨rfl, rfl, rfl⟩
  objs _ hj := s.o_setO_ne v fun e => hk (e ▸ hj)
  hits _ h := h

theorem State.ThawFrame.ite {c : Prop} [Decidable c] (ht : t.ThawFrame s) (hu : u.ThawFrame s) : (if c then t else u).ThawFrame s := by
  split
  · exact ht
  · exact hu

theorem State.ThawFrame.foldl {β : Type} {step : State → β → State} {xs : List β} (h : ∀ x ∈ xs, ∀ v, (step v x).ThawFrame v)
    (s : State) : (xs.foldl step s).ThawFrame s := by
  induction xs generalizing s with
  | nil => exact .refl s
  | cons x xs ih => exact (ih (fun y hy => h y (List.mem_cons_of_mem _ hy)) _).trans (h x List.mem_cons_self s)

theorem State.ThawFrame.setChan {c : Ch} {x : Chan} (hx : (s.chan c).hit = none → x.hit = none) : (s.setChan c x).ThawFrame s where
  frz := rfl
  memories := ⟨rfl, rfl, rfl⟩
  objs _ _ := rfl
  hits d hd := by
    by_cases h : d = c
    · rw [h, State.chan_setChan_self]
      exact hx (h ▸ hd)
    · rw [State.chan_setChan_ne _ _ h, hd]

theorem State.afterHit_thawFrame (s : State) (c : Ch) : (s.afterHit c).ThawFrame s := by
  unfold State.afterHit
  exact .ite (.ite (.setChan fun h => h) (.setChan fun _ => rfl)) (.refl s)

theorem State.discardOpen_thawFrame (s : State) : s.discardOpen.ThawFrame s := by
  have hloss : (if s.openHits = 0 then s else s.lossOvf).ThawFrame s := .ite (.refl s) ((State.ThawFrame.refl s).frame rfl rfl ⟨rfl, rfl, rfl⟩ rfl)
  have hcount (n : Nat) := (State.ThawFrame.setO (k := Obj.ASM_OPEN_LOST) (if s.openHits = 0 then s else s.lossOvf) (by decide) n).trans hloss
  exact (hcount _).frame rfl rfl ⟨rfl, rfl, rfl⟩ rfl

theorem State.mapChans_eq (s : State) (f : Ch → Chan → Chan) : ∃ x, s.mapChans f = { s with chans := x } := ⟨_, rfl⟩

/-- Step 2 of the thaw leaves no hit in progress. -/
theorem State.thawData_leaves (s : State) : s.thawData.ThawFrame s ∧ ∀ c, (s.thawData.chan c).hit = none := by
  have hlost (n m : Nat) : ((s.setO Obj.FRZ_OPEN_LOST n).discardOpen.bumpBy Obj.TDC_HOLDLOST m).ThawFrame s :=
    (State.ThawFrame.setO _ (by decide) _).trans ((State.discardOpen_thawFrame _).trans (.setO s (by decide) n))
  have hnone (v : State) (c : Ch) : ((v.mapChans fun _ x => { x with hit := none }).chan c).hit = none :=
    congrArg Chan.hit (State.chan_mapChans v _ c)
  have hclear (v : State) : (v.mapChans fun _ x => { x with hit := none }).ThawFrame v := by
    obtain ⟨x, hx⟩ := v.mapChans_eq fun _ x => { x with hit := none }
    have hhits := hnone v
    rw [hx] at hhits ⊢
    exact ⟨rfl, ⟨rfl, rfl, rfl⟩, fun _ _ => rfl, fun c _ => hhits c⟩
  have hafter (v : State) : (allCh.foldl State.afterHit v).ThawFrame v := .foldl (fun c _ w => w.afterHit_thawFrame c) v
  unfold State.thawData
  exact ⟨(hafter _).trans ((hclear _).trans (hlost _ _)), fun c => (hafter _).hits c (hnone _ c)⟩

theorem State.thawLanes_thawFrame (s : State) : s.thawLanes.ThawFrame s := by
  have hrx (v : State) : ∀ i ∈ (List.range 25).filter fun i => isRx i && v.o (Obj.LN_PSTATE i) != 2, i < 25 := fun i hi =>
    List.mem_range.mp (List.mem_filter.mp hi).1
  have hsouth (v : State) : ((List.range 8).foldl (fun t k => if t.o (Obj.RG_SSTATE k) = 0 then t else t.southDown k true) v).LinkFrame v :=
    .foldl (fun k hk w => .ite (.refl w) (w.southDown_linkFrame (List.mem_range.mp hk) true)) v
  exact .of_links <| (State.follow_linkFrame _).trans <| (State.LinkFrame.foldl (fun i hi w => w.tryScan_linkFrame (hrx s i hi)) _).trans <|
    (hsouth _).trans <| (State.northDown_linkFrame _ true).trans (.foldl (fun i hi w => w.laneFall_linkFrame (hrx s i hi) 1) s)

theorem State.hkStill_thawFrame (s : State) : s.hkStill.ThawFrame s := ⟨rfl, ⟨rfl, rfl, rfl⟩, fun _ _ => rfl, fun _ h => h⟩

theorem State.hkAbandon_thawFrame (s : State) : s.hkAbandon.ThawFrame s := by
  unfold State.hkAbandon
  split
  · exact (State.hkStill_thawFrame _).trans (.setO s (by decide) _)
  · exact .refl s

theorem State.hkBegin_thawFrame (s : State) (m : Nat) : (s.hkBegin m).ThawFrame s := by
  exact (State.ThawFrame.setO (k := Obj.HK_SEQ_POS) s (by decide) m).frame rfl rfl ⟨rfl, rfl, rfl⟩ rfl

theorem State.thawMeasure_thawFrame (s : State) : s.thawMeasure.ThawFrame s := by
  have hprobe (v : State) : (if 1 ≤ v.o Obj.PRB_STATE ∧ v.o Obj.PRB_STATE ≤ 3 then v.setO Obj.PRB_STATE 0 else v).ThawFrame v :=
    .ite (.setO v (by decide) 0) (.refl v)
  unfold State.thawMeasure
  split
  · exact (hprobe _).trans ((State.hkBegin_thawFrame _ _).trans s.hkAbandon_thawFrame)
  · exact hprobe s

theorem State.thawCan_thawFrame (s : State) : s.thawCan.ThawFrame s := by
  have hclear : s.canClear.ThawFrame s :=
    (State.ThawFrame.setO (k := Obj.CAN_KEEPER) s (by decide) 0xFF).frame rfl rfl ⟨rfl, rfl, rfl⟩ rfl
  exact .ite ((State.ThawFrame.setO _ (by decide) _).trans hclear) (.refl s)

theorem State.stage_thawFrame (s : State) (code cls unit : Nat) (d : List Byte) : (s.stage code cls unit d).ThawFrame s :=
  .of_links (s.stage_linkFrame code cls unit d)

theorem State.thawLog_thawFrame (s : State) : s.thawLog.ThawFrame s := by
  exact (State.stage_thawFrame _ _ _ _ _).trans
    ((State.ThawFrame.setO (k := Obj.NT_CAPT_CNT) s (by decide) _).frame rfl rfl ⟨rfl, rfl, rfl⟩ rfl)

/-- A thaw shows the freeze that has ended and loses the hits in progress. -/
structure State.Thawed (t s : State) (us : Nat) : Prop where
  frz : t.frz = { s.frz with frozen := false, thawed := true }
  lastX : t.o Obj.FRZ_LAST_X = s.frz.x
  lastDur : t.o Obj.FRZ_LAST_DUR = us
  src : t.o Obj.FRZ_SRC = s.frz.held
  unknown : t.o Obj.XC_STATE = 0
  hits : ∀ c, (t.chan c).hit = none
  memories : t.keepsMemories s

/-- The freeze unit as the thaw leaves it, with the next TIME message to step. -/
def State.unfrozen (s : State) : State :=
  { s with frz := { s.frz with frozen := false, thawed := true }, time := { s.time with stepNext := true } }

theorem State.o_unfrozen (s : State) (k : Nat) : s.unfrozen.o k = s.o k := rfl

/-- What the thaw shows, before its steps. -/
def State.thawShown (s : State) (us : Nat) : State :=
  (((s.setO Obj.FRZ_LAST_X s.frz.x).setO Obj.FRZ_LAST_DUR us).setO Obj.FRZ_SRC s.frz.held).unfrozen.setO Obj.XC_STATE 0

theorem State.thawShown_shows (s : State) (us : Nat) : (s.thawShown us).o Obj.FRZ_LAST_X = s.frz.x ∧
    (s.thawShown us).o Obj.FRZ_LAST_DUR = us ∧ (s.thawShown us).o Obj.FRZ_SRC = s.frz.held ∧ (s.thawShown us).o Obj.XC_STATE = 0 := by
  simp +decide [State.thawShown, State.o_setO, State.o_unfrozen]

theorem State.thaw_eq (s : State) (us : Nat) :
    s.thaw us = ((s.thawShown us).thawData.thawLanes.thawMeasure.thawCan).thawLog.refreshFaultN := rfl

theorem State.thaw_thawed (s : State) (us : Nat) : (s.thaw us).Thawed s us := by
  obtain ⟨hdata, hnone⟩ := (s.thawShown us).thawData_leaves
  have hsteps : (s.thaw us).ThawFrame (s.thawShown us).thawData :=
    (State.ThawFrame.of_links (State.refreshFaultN_linkFrame _)).trans <| (State.thawLog_thawFrame _).trans <|
      (State.thawCan_thawFrame _).trans <| (State.thawMeasure_thawFrame _).trans (State.thawLanes_thawFrame _)
  have hall := hsteps.trans hdata
  obtain ⟨hlastX, hlastDur, hsrc, hunknown⟩ := s.thawShown_shows us
  exact {
    frz := hall.frz
    lastX := (hall.objs _ (by decide)).trans hlastX
    lastDur := (hall.objs _ (by decide)).trans hlastDur
    src := (hall.objs _ (by decide)).trans hsrc
    unknown := (hall.objs _ (by decide)).trans hunknown
    hits := fun c => hsteps.hits c (hnone c)
    memories := hall.memories }

/-! ### The TAP's instruction register (R562) -/

/-- The state in which an instruction has been taken, before the pins go back to the lanes. -/
def State.irTaken (s : State) (ir : Nat) (test : Bool) : State := { s.setO Obj.FLT_TAP_LAST_IR ir with pinTest := test }

theorem State.o_irTaken (s : State) (ir : Nat) (test : Bool) {k : Nat} (hk : k ≠ Obj.FLT_TAP_LAST_IR) :
    (s.irTaken ir test).o k = s.o k := s.o_setO_ne ir hk

theorem State.o_irTaken_ir (s : State) (ir : Nat) (test : Bool) : (s.irTaken ir test).o Obj.FLT_TAP_LAST_IR = ir := s.o_setO_self _ ir

/-- A frozen device moves no lane, and neither does an instruction that leaves the pins where they are. -/
theorem State.tapUpdate_still {test : Bool} (ir : Nat) (h : s.frz.frozen = true ∨ s.pinTest = test) :
    s.tapUpdate ir test = s.irTaken ir test := if_pos h.symm

theorem State.tapUpdate_linkFrame (s : State) (ir : Nat) (test : Bool) : (s.tapUpdate ir test).LinkFrame (s.irTaken ir test) :=
  .ite (.refl _) (State.follow_linkFrame _)

theorem State.tapDo_off {ir : Nat} {locked : Bool} {act : State → State} (h : s.o Obj.PWR_STATE = 0) : s.tapDo ir locked act = s := if_pos h

theorem State.tapDo_acts {ir : Nat} {locked : Bool} {act : State → State} (h : s.o Obj.PWR_STATE ≠ 0)
    (hl : locked = false ∨ s.o Obj.FLT_TAP_LOCK = 0) : s.tapDo ir locked act = act s := by
  have hopen : ¬((locked && s.flag Obj.FLT_TAP_LOCK) = true) := by
    rcases hl with hl | hl <;> simp [hl, State.flag]
  simp only [State.tapDo, if_neg h, if_neg hopen]

theorem State.tapDo_locked {ir : Nat} {act : State → State} (h : s.o Obj.PWR_STATE ≠ 0) (hl : s.o Obj.FLT_TAP_LOCK ≠ 0) :
    s.tapDo ir true act = (s.bump Obj.FLT_TAP_REFUSED).bypass ir := by
  have hset : (true && s.flag Obj.FLT_TAP_LOCK) = true := by simp [State.flag, hl]
  simp only [State.tapDo, if_neg h, if_pos hset]

/-- BYPASS shifts one zero bit out and leaves the rest of the TAP; its frame with the lanes that take their pins back. -/
theorem State.bypass_linkFrame (s : State) (ir : Nat) : (s.bypass ir).LinkFrame (s.irTaken ir false) :=
  (show (s.bypass ir).LinkFrame (s.tapUpdate ir false) from
    ⟨rfl, rfl, List.prefix_append _ _, fun _ _ => rfl, rfl, fun _ => rfl, fun _ h => h, fun _ _ => rfl⟩).trans
    (s.tapUpdate_linkFrame ir false)

theorem State.bypass_still (ir : Nat) (h : s.frz.frozen = true ∨ s.pinTest = false) :
    s.bypass ir = (s.irTaken ir false).tdo ir 1 0 := by
  rw [State.bypass, State.tapUpdate_still ir h]

theorem State.o_tdo (s : State) (ir len v k : Nat) : (s.tdo ir len v).o k = s.o k := rfl

/-! ### A source is released -/

theorem State.freeBy_noref {l : List FreezeSource} (hf : s.frz.frozen = true) (hn : s.frz.noref = true) : s.freeBy l us = s :=
  if_pos (by simp [hf, hn])

/-- The freeze unit with sources released. -/
def Freeze.release (f : Freeze) (l : List FreezeSource) : Freeze := l.foldl (fun f x => f.hold false x) f

theorem State.freeBy_held {l : List FreezeSource} (hn : s.frz.frozen = false ∨ s.frz.noref = false)
    (h : s.frz.frozen = false ∨ (s.frz.release l).pin = true ∨ (s.frz.release l).cufel = true ∨ (s.frz.release l).tap = true) :
    s.freeBy l us = { s with frz := s.frz.release l } := by
  have hrefresh : ¬((s.frz.frozen && s.frz.noref) = true) := by rcases hn with hn | hn <;> simp [hn]
  have hheld : ¬((s.frz.frozen && !(s.frz.release l).pin && !(s.frz.release l).cufel && !(s.frz.release l).tap) = true) := by
    rcases h with h | h | h | h <;> simp [h]
  unfold State.freeBy
  rw [if_neg hrefresh]
  exact if_neg hheld

/-- The last source's release thaws. -/
theorem State.freeBy_last {l : List FreezeSource} (hf : s.frz.frozen = true) (hn : s.frz.noref = false)
    (hp : (s.frz.release l).pin = false) (hc : (s.frz.release l).cufel = false) (ht : (s.frz.release l).tap = false) :
    (s.freeBy l us).Thawed { s with frz := s.frz.release l } us := by
  have hrefresh : ¬((s.frz.frozen && s.frz.noref) = true) := by simp [hn]
  have hfree : (s.frz.frozen && !(s.frz.release l).pin && !(s.frz.release l).cufel && !(s.frz.release l).tap) = true := by
    simp [hf, hp, hc, ht]
  have hthaw : s.freeBy l us = ({ s with frz := s.frz.release l } : State).thaw us := by
    unfold State.freeBy
    rw [if_neg hrefresh]
    exact if_pos hfree
  rw [hthaw]
  exact State.thaw_thawed _ us

/-- TAP_FREEZE_I of an unlocked TAP whose pins stay where they are. -/
theorem State.tapFreezeI_acts (hpwr : s.o Obj.PWR_STATE ≠ 0) (hlock : s.o Obj.FLT_TAP_LOCK = 0)
    (h : s.frz.frozen = true ∨ s.pinTest = false) :
    exec .tapFreezeI s = .next (((s.irTaken 0x10 false).tdo 0x10 1 0).freezeBy .tap) := by
  rw [← State.bypass_still 0x10 h]
  exact congrArg Host.Outcome.next (State.tapDo_acts hpwr (.inr hlock))

theorem State.tapThaw_acts (hpwr : s.o Obj.PWR_STATE ≠ 0) (hf : s.frz.frozen = true) (us : BitVec 32) :
    exec (.tapThaw us) s = .next (((s.irTaken 0x11 false).tdo 0x11 1 0).freeBy [.tap, .cufel] us.toNat) := by
  rw [← State.bypass_still 0x11 (.inl hf)]
  exact congrArg Host.Outcome.next (State.tapDo_acts hpwr (.inl rfl))

theorem noref_flag (s : State) : (!s.flag Obj.FRZ_REFRESH) = decide (s.o Obj.FRZ_REFRESH = 0) := by
  simp [State.flag]

/-! ### The statement -/

/-- With FRZ_PIN_EN the ball that has risen freezes; without it nothing does yet. -/
theorem State.freezeBall_risen (s : State) : (s.ballAt true).freezeBall =
    if s.o Obj.FRZ_PIN_EN = 0 then s.ballAt true else (s.ballAt true).freezeBy .pin := by
  show (if (true && decide (s.o Obj.FRZ_PIN_EN ≠ 0)) = true then (s.ballAt true).freezeBy .pin else s.ballAt true) = _
  by_cases h : s.o Obj.FRZ_PIN_EN = 0 <;> simp [h]

theorem State.freezePinRise_ignored (h : s.o Obj.FRZ_PIN_EN = 0 ∨ s.o Obj.PWR_STATE = 0 ∨ s.o Obj.CLK_STATE = 0) :
    exec .freezePinRise s = .next (s.ballAt true) := by
  refine congrArg Host.Outcome.next (?_ : (if s.o Obj.CLK_STATE = 0 then _ else _) = _)
  rw [State.freezeBall_risen]
  rcases h with h | h | h
  · rw [if_pos h, ite_self]
  · rw [State.freezeBy_off (s := s.ballAt true) .pin h, ite_self, ite_self]
  · rw [if_pos h]

theorem State.freezePinRise_acts (hen : s.o Obj.FRZ_PIN_EN ≠ 0) (hclk : s.o Obj.CLK_STATE ≠ 0) :
    exec .freezePinRise s = .next ((s.ballAt true).freezeBy .pin) := by
  refine congrArg Host.Outcome.next (?_ : (if s.o Obj.CLK_STATE = 0 then _ else _) = _)
  rw [State.freezeBall_risen, if_neg hclk, if_neg hen]

theorem State.freezeTakeHold_acts (ha : s.awake = true) (h : s.cufel.after = some .freeze) :
    exec .freezeTakeHold s = .next (({ s with cufel := { s.cufel with after := none } } : State).freezeBy .cufel) :=
  exec_of_awake ha rfl (if_pos h)

/-- Settles O49: each source adds itself or starts the freeze, and the last one's release thaws. -/
theorem freezesHoldUntilTheLastSourceReleases : Obligations.FreezesHoldUntilTheLastSourceReleases := by
  unfold Obligations.FreezesHoldUntilTheLastSourceReleases
  intro us c s
  refine ⟨fun h => s.freezePinRise_ignored h, fun hen hpwr hclk => ⟨fun hf => ?_, fun hf => ?_⟩, fun h => ?_, fun ha hafter => ?_,
    fun hpwr hlock hf => ?_, fun hpwr hlock hf htest => ?_, fun hpwr hlock => ?_, fun hf => ?_, fun hf hn => ?_, fun hf hn hother => ?_,
    fun hf hn hcufel htap => ?_, fun hpwr hf hn hpin => ?_, fun hpwr hf hn hpin => ?_⟩
  · exact (State.freezePinRise_acts hen hclk).trans (congrArg _ (State.freezeBy_frozen (s := s.ballAt true) .pin hpwr hf))
  · have h := State.freezeBy_first (s := s.ballAt true) .pin hpwr hf
    exact ⟨_, State.freezePinRise_acts hen hclk, h.frozen, congrArg Freeze.ball h.holds, congrArg Freeze.pin h.holds,
      congrArg Freeze.held h.holds, State.awake_frozen h.frozen, (congrArg Freeze.noref h.holds).trans (noref_flag s),
      congrArg Freeze.x h.holds, h.count, h.objs, (congrArg (fun v : State => { v with frz := s.frz }) h.rest :)⟩
  · rcases h with h | h
    · exact congrArg Host.Outcome.next (State.ifAwake_not h)
    · exact congrArg Host.Outcome.next ((congrArg s.ifAwake (if_neg h)).trans (by unfold State.ifAwake; rw [ite_self]))
  · have h := State.freezeBy_first (s := { s with cufel := { s.cufel with after := none } }) .cufel (State.power_of_awake ha)
      (State.thawed_of_awake ha)
    exact ⟨_, State.freezeTakeHold_acts ha hafter, h.frozen, congrArg Freeze.cufel h.holds, congrArg Freeze.held h.holds,
      (congrArg (fun v : State => v.cufel.after) h.rest :), h.count, h.objs,
      (congrArg (fun v : State => { v with cufel := s.cufel }) h.rest :)⟩
  · have hpwr' : ((s.irTaken 0x10 false).tdo 0x10 1 0).o Obj.PWR_STATE ≠ 0 := (s.o_irTaken 0x10 false (by decide)).trans_ne hpwr
    have h := State.freezeBy_frozen .tap hpwr' hf
    exact ⟨_, (State.tapFreezeI_acts hpwr hlock (.inl hf)).trans (congrArg _ h), hf, rfl, s.o_irTaken 0x10 false (by decide), ⟨rfl, rfl, rfl⟩⟩
  · have hpwr' : ((s.irTaken 0x10 false).tdo 0x10 1 0).o Obj.PWR_STATE ≠ 0 := (s.o_irTaken 0x10 false (by decide)).trans_ne hpwr
    have h := State.freezeBy_first .tap hpwr' hf
    exact ⟨_, State.tapFreezeI_acts hpwr hlock (.inr htest), h.frozen, congrArg Freeze.tap h.holds, congrArg Freeze.held h.holds,
      h.count.trans (congrArg (satAdd 32 · 1) (s.o_irTaken 0x10 false (by decide))),
      fun k hk => (h.objs k (fun hmem => hk (by simpa using .inl (by simpa using hmem)))).trans
        (s.o_irTaken 0x10 false fun e => hk (by simp [e])),
      (congrArg State.spm h.rest :), (congrArg State.rankMem h.rest :), (congrArg State.nvm h.rest :)⟩
  · have h := State.bypass_linkFrame (s.bump Obj.FLT_TAP_REFUSED) 0x10
    exact ⟨_, congrArg Host.Outcome.next (State.tapDo_locked hpwr hlock), h.frz,
      (h.objs _ (by decide)).trans ((State.o_irTaken _ _ _ (by decide)).trans (State.o_bump_self s _)), h.memories⟩
  · refine congrArg Host.Outcome.next ((State.freeBy_held (s := s.ballAt false) (.inl hf) (.inl hf)).trans ?_)
    rfl
  · exact congrArg Host.Outcome.next (State.freeBy_noref (s := s.ballAt false) hf hn)
  · exact congrArg Host.Outcome.next (State.freeBy_held (s := s.ballAt false) (.inr hn) (.inr (.inr hother)))
  · have h := State.freeBy_last (s := s.ballAt false) (us := us.toNat) (l := [.pin]) hf hn rfl hcufel htap
    have hfrz := h.frz
    generalize hr : (s.ballAt false).freeBy [.pin] us.toNat = r at h hfrz
    exact ⟨r, congrArg Host.Outcome.next hr, (congrArg Freeze.frozen hfrz :), (congrArg Freeze.pin hfrz :), h.lastX, h.lastDur, h.src,
      h.unknown, h.hits c, h.memories⟩
  · have h := State.freeBy_last (s := (s.irTaken 0x11 false).tdo 0x11 1 0) (us := us.toNat) (l := [.tap, .cufel]) hf hn hpin rfl rfl
    have hfrz := h.frz
    have hexec := State.tapThaw_acts hpwr hf us
    generalize ((s.irTaken 0x11 false).tdo 0x11 1 0).freeBy [.tap, .cufel] us.toNat = r at h hfrz hexec
    exact ⟨r, hexec, (congrArg Freeze.frozen hfrz :), (congrArg Freeze.tap hfrz :), (congrArg Freeze.cufel hfrz :), h.lastX, h.src,
      h.hits c, h.memories⟩
  · have h := State.freeBy_held (s := (s.irTaken 0x11 false).tdo 0x11 1 0) (us := us.toNat) (l := [.tap, .cufel]) (.inr hn)
      (.inr (.inl hpin))
    exact ⟨_, (State.tapThaw_acts hpwr hf us).trans (congrArg _ h), hf, rfl, rfl, hpin, ⟨rfl, rfl, rfl⟩⟩

end Sys2Proof.Machine
end

section
/-! SUPPORT. The TAP's instructions: what they shift, drive and read (R303, R562 to R569). -/
namespace Sys2Proof.Machine

variable {s t : State} {ir i n : Nat}

/-! ### Cells by their number (R564, R584) -/

/-- A cell's bit taken from what a rule gives for it, where it gives one. -/
def cellSet (f : BoundaryCell → Option Bool) (v : Nat) (e : BoundaryCell × Nat) : Nat :=
  match f e.1 with
  | some b => setBit v e.2 b
  | none => v

theorem bit_cellSet_self (f : BoundaryCell → Option Bool) (v : Nat) (x : BoundaryCell) (n : Nat) :
    bit (cellSet f v (x, n)) n = (f x).getD (bit v n) := by
  unfold cellSet
  cases f x <;> simp

theorem bit_cellSet_ne (f : BoundaryCell → Option Bool) (v : Nat) (x : BoundaryCell) (h : i ≠ n) :
    bit (cellSet f v (x, n)) i = bit v i := by
  unfold cellSet
  split
  · exact bit_setBit_ne v _ h
  · rfl

/-- The bit of cell i is the rule's, or what stood there. -/
theorem bit_foldl_cellSet (f : BoundaryCell → Option Bool) (l : List BoundaryCell) (n v i : Nat) (hn : n ≤ i) :
    bit ((l.zipIdx n).foldl (cellSet f) v) i = (l[i - n]?.bind f).getD (bit v i) := by
  induction l generalizing n v with
  | nil => rfl
  | cons x l ih =>
    rw [List.zipIdx_cons, List.foldl_cons]
    by_cases h : i = n
    · subst h
      have hbelow : ∀ (l : List BoundaryCell) (m v : Nat), i < m → bit ((l.zipIdx m).foldl (cellSet f) v) i = bit v i := by
        intro l
        induction l with
        | nil => exact fun _ _ _ => rfl
        | cons y l ih =>
          intro m v hm
          rw [List.zipIdx_cons, List.foldl_cons, ih (m + 1) _ (by omega), bit_cellSet_ne f v y (by omega)]
      rw [hbelow l (i + 1) _ (by omega), bit_cellSet_self]
      simp
    · rw [ih (n + 1) _ (by omega), bit_cellSet_ne f v x h]
      obtain ⟨d, rfl⟩ : ∃ d, i = n + 1 + d := ⟨i - (n + 1), by omega⟩
      have hd : n + 1 + d - n = d + 1 := by omega
      simp [hd]

theorem State.bit_captured (s : State) (pins : BitVec 129) (i : Nat) :
    bit (s.captured pins) i = (boundaryCells[i]?.bind s.cellHolds).getD (bit pins.toNat i) :=
  bit_foldl_cellSet s.cellHolds boundaryCells 0 pins.toNat i (Nat.zero_le i)

/-- What a test instruction gives a cell that drives no ball. -/
def undriven (x : BoundaryCell) : Option Bool := if x.drives then none else some false

theorem bit_drivenCells (b : BitVec 129) (i : Nat) :
    bit (drivenCells b) i = (boundaryCells[i]?.bind undriven).getD (bit b.toNat i) := by
  have hstep : (fun (v : Nat) (e : BoundaryCell × Nat) => if e.1.drives then v else setBit v e.2 false) = cellSet undriven := by
    funext v e
    unfold cellSet undriven
    cases e.1.drives <;> rfl
  unfold drivenCells
  rw [hstep]
  exact bit_foldl_cellSet undriven boundaryCells 0 b.toNat i (Nat.zero_le i)

/-! ### Instructions that shift a register out -/

/-- The state in which an instruction has shifted a register out. -/
def State.shifted (s : State) (ir len v : Nat) : State := (s.irTaken ir false).tdo ir len v

/-- It leaves all but the output and the instruction register. -/
theorem State.shifted_leaves (s : State) (ir len v : Nat) : (s.shifted ir len v).out = s.out ++ [Sent.tdo ir 1 len v] ∧
    (s.shifted ir len v).o Obj.FLT_TAP_LAST_IR = ir ∧ (s.shifted ir len v).keepsObjects s [Obj.FLT_TAP_LAST_IR] ∧
    { s.shifted ir len v with obj := s.obj, out := s.out, pinTest := s.pinTest } = s :=
  ⟨rfl, s.o_irTaken_ir ir false, State.keepsObjects_setO (State.keepsObjects_refl s _) (by simp) ir, rfl⟩

theorem State.tapUpdate_shifted (h : s.frz.frozen = true ∨ s.pinTest = false) (ir len v : Nat) :
    (s.tapUpdate ir false).tdo ir len v = s.shifted ir len v := by rw [State.tapUpdate_still ir h]; rfl

theorem State.bypass_shifted (h : s.frz.frozen = true ∨ s.pinTest = false) (ir : Nat) : s.bypass ir = s.shifted ir 1 0 :=
  State.tapUpdate_shifted h ir 1 0

/-! ### Test instructions (R303, R564) -/

/-- What a test instruction does: the pins are its, the boundary register goes out and in, and the driven cells with it. -/
structure State.TestScanned (t s : State) (ir : Nat) (pins b : BitVec 129) : Prop where
  test : t.pinTest = true
  boundary : t.frz.boundary = b
  lastIr : t.o Obj.FLT_TAP_LAST_IR = ir
  memories : t.keepsMemories s
  sent : [Sent.tdo ir 1 129 (s.captured pins), Sent.pins (drivenCells b)] ⊆ t.out.drop s.out.length

theorem State.boundaryScan_test (s : State) (ir : Nat) (pins b : BitVec 129) : (s.boundaryScan ir true pins b).TestScanned s ir pins b := by
  have h := s.tapUpdate_linkFrame ir true
  obtain ⟨r, hr⟩ := h.sent
  have hout : (s.boundaryScan ir true pins b).out =
      (s.tapUpdate ir true).out ++ [Sent.tdo ir 1 129 (s.captured pins)] ++ [Sent.pins (drivenCells b)] := rfl
  exact {
    test := (congrArg State.pinTest h.rest :)
    boundary := rfl
    lastIr := (h.objs _ (by decide)).trans (s.o_irTaken_ir ir true)
    memories := h.memories
    sent := by
      have hstart : (s.irTaken ir true).out = s.out := rfl
      rw [hout, ← hr, hstart, List.append_assoc, List.append_assoc, List.drop_left]
      simp }

theorem State.testScan_runs {c : Instr} {ir : Nat} {pins b : BitVec 129} (hpwr : s.o Obj.PWR_STATE ≠ 0)
    (hlock : s.o Obj.FLT_TAP_LOCK = 0) (hexec : exec c s = .next (s.tapDo ir true fun t => t.boundaryScan ir true pins b)) :
    Runs c s fun t => t.pinTest = true ∧ t.frz.boundary = b ∧ t.o Obj.FLT_TAP_LAST_IR = ir ∧ t.keepsMemories s ∧
      [Sent.tdo ir 1 129 (s.captured pins), Sent.pins (drivenCells b)] ⊆ t.out.drop s.out.length := by
  have h := s.boundaryScan_test ir pins b
  exact ⟨_, hexec.trans (congrArg _ (State.tapDo_acts hpwr (.inr hlock))), h.test, h.boundary, h.lastIr, h.memories, h.sent⟩

/-! ### CAST (R567, R568) -/

theorem State.cast_frozen (hf : s.frz.frozen = true) (hn : n < castLen) : s.cast n =
    { (s.shifted 0x12 n (bitsNat (castBits s.frz.number s.frz.pos n))).setO (Obj.CHK_RUN 38)
        (castCrc (castBits s.frz.number s.frz.pos n)) with
      frz := { s.frz with pos := (s.frz.pos + n) % castLen, bits := n % 2 ^ 32, crc := castCrc (castBits s.frz.number s.frz.pos n) } } := by
  have hround : n / castLen = 0 := Nat.div_eq_of_lt hn
  unfold State.cast
  rw [if_neg (by simp [hf])]
  simp only [hround, if_true, State.tapUpdate_shifted (.inl hf)]
  rfl

/-! ### CAST_MEM (R569) -/

/-- The result register after a word has been read. -/
def State.wordRead (s : State) (fw ue : Bool) (addr w : Nat) : State :=
  { s with frz := { s.frz with memReg := b2n ue * 2 ^ 85 + b2n fw * 2 ^ 84 + addr * 2 ^ 64 + w, castUe := ue } }

theorem State.castMem_running (hf : s.frz.frozen = false) (htest : s.pinTest = false) (fw : Bool) (addr : Nat) (u : List Upset) :
    s.castMem fw addr u = s.shifted 0x14 86 0 := by
  unfold State.castMem
  rw [State.tapUpdate_still 0x14 (.inr htest)]
  exact if_pos (by simp [State.irTaken, hf])

theorem State.castMem_frozen (hf : s.frz.frozen = true) (fw : Bool) (addr : Nat) (u : List Upset) : s.castMem fw addr u =
    ((s.shifted 0x14 86 s.frz.memReg).castNote fw addr u (s.castWord fw addr u).2).wordRead fw (s.castWord fw addr u).2 addr
      (s.castWord fw addr u).1 := by
  unfold State.castMem
  rw [State.tapUpdate_still 0x14 (.inl hf)]
  exact if_neg (by simp [State.irTaken, hf])

theorem wordErr_nil (a : Nat) : wordErr [] a = none := rfl

/-- A word that no upset strikes reads as it is held; only a word of the firmware RAM may have gone bad before (R386). -/
theorem State.castWord_nil (s : State) (fw : Bool) (addr : Nat) : s.castWord fw addr [] =
    ((if fw || s.castOpen (8 * addr) then (Config.castWord s.frz.number fw s.memUnit.fwLoads addr).toNat else memWord s.spm (8 * addr) 8) ^^^
      (if fw then memWord s.memUnit.fwRam (8 * addr) 8 else 0), (if fw then memWord s.memUnit.fwRam (8 * addr) 8 else 0) != 0) := by
  simp [State.castWord, wordErrBits, wordError, wordErr_nil]

theorem State.castNote_good (s : State) (fw : Bool) (addr : Nat) : s.castNote fw addr [] false = s := rfl

theorem State.castNote_firmware (s : State) (addr : Nat) : s.castNote true addr [] true = s.bump Obj.SPM_FW_UE := rfl

theorem fromLE_lt (l : List Byte) : fromLE l < 256 ^ l.length := by
  induction l with
  | nil => exact Nat.one_pos
  | cons b l ih =>
    have hb := b.isLt
    rw [fromLE, List.length_cons, Nat.pow_succ]
    omega

theorem length_memRead (m : Memory) (a n : Nat) : (memRead m a n).length = n := by
  induction n generalizing a with
  | zero => rfl
  | succ n ih => rw [memRead, List.length_cons, ih]

theorem memWord_lt (m : Memory) (a : Nat) : memWord m a 8 < 2 ^ 64 := by
  have h := fromLE_lt (memRead m a 8)
  rwa [length_memRead] at h

/-- The two highest bits of the result name an uncorrectable word of the firmware RAM. -/
theorem castResult_uncorrectable (addr : BitVec 20) (v : BitVec 64) (w : Nat) (hw : w < 2 ^ 64) :
    (b2n true * 2 ^ 85 + b2n true * 2 ^ 84 + addr.toNat * 2 ^ 64 + (v.toNat ^^^ w)) / 2 ^ 84 = 3 := by
  have haddr := addr.isLt
  have hword : v.toNat ^^^ w < 2 ^ 64 := Nat.xor_lt_two_pow v.isLt hw
  have hb : b2n true = 1 := rfl
  rw [hb]
  omega

/-! ### The statement -/

theorem State.captured_levels (s : State) (pins : BitVec 129) : bit (s.captured pins) 0 = s.frz.ball ∧
    bit (s.captured pins) 1 = !s.power.rstN ∧ bit (s.captured pins) 3 = decide (s.o Obj.FLT_FAULTN ≠ 0) ∧
    bit (s.captured pins) 9 = bit pins.toNat 9 := by
  simp only [State.bit_captured]
  exact ⟨rfl, rfl, rfl, rfl⟩

theorem drivenCells_drives (b : BitVec 129) : bit (drivenCells b) 2 = bit b.toNat 2 ∧ bit (drivenCells b) 9 = false := by
  simp only [bit_drivenCells]
  exact ⟨rfl, rfl⟩

theorem State.trstNAssert_resets (hpwr : s.o Obj.PWR_STATE ≠ 0) (h : s.frz.frozen = true ∨ s.pinTest = false) :
    Runs .trstNAssert s fun t => t.o Obj.FLT_TAP_LAST_IR = 0x02 ∧ t.frz.frozen = s.frz.frozen ∧ t.frz.bits = 0 ∧
      t.frz.crc = 0xFFFFFFFF ∧ t.frz.boundary = 0 ∧ t.frz.memReg = 0 ∧ t.pinTest = false ∧ t.out = s.out := by
  have hreset : exec .trstNAssert s = .next s.tapReset := congrArg Host.Outcome.next (if_neg hpwr)
  unfold State.tapReset at hreset
  rw [State.tapUpdate_still 0x02 h] at hreset
  exact ⟨_, hreset, s.o_irTaken_ir 0x02 false, rfl, rfl, rfl, rfl, rfl, rfl, rfl⟩

/-- An instruction that shifts a register out and does nothing more. -/
theorem State.shifts_runs {c : Instr} {ir len v : Nat} (h : s.frz.frozen = true ∨ s.pinTest = false)
    (hexec : exec c s = .next ((s.tapUpdate ir false).tdo ir len v)) : exec c s = .next (s.shifted ir len v) := by
  rw [hexec, State.tapUpdate_shifted h]

/-- Settles O50: by instruction, in Off, unlocked, locked and frozen. -/
theorem tapInstructionsShiftTheirRegisters : Obligations.TapInstructionsShiftTheirRegisters := by
  unfold Obligations.TapInstructionsShiftTheirRegisters
  intro pins b n us ir addr s
  refine ⟨fun hoff => ?_, fun hpwr h => ?_, fun hpwr hlock => ?_, fun hpwr hf => ?_⟩
  · have hact {i : Nat} {l : Bool} {act : State → State} : Host.Outcome.next (s.tapDo i l act) = (.next s : Host.Outcome State Fault Refusal) :=
      congrArg _ (State.tapDo_off hoff)
    exact ⟨hact, hact, hact, hact, hact, hact, hact, hact, hact, hact, hact, hact, congrArg Host.Outcome.next (if_pos hoff)⟩
  · have hfree {i : Nat} {act : State → State} : Host.Outcome.next (s.tapDo i false act) =
        (.next (act s) : Host.Outcome State Fault Refusal) := congrArg _ (State.tapDo_acts hpwr (.inl rfl))
    refine ⟨?_, ?_, fun hir => ?_, ?_, fun hlock => ?_, fun hrun => ?_, ?_, fun hrun => ?_, State.trstNAssert_resets hpwr h⟩
    · obtain ⟨hout, hir, hobj, hrest⟩ := s.shifted_leaves 0x02 32 0x15128D93
      exact ⟨_, State.shifts_runs h hfree, hout, hir, rfl, hobj, hrest⟩
    · obtain ⟨hout, hir, hobj, hrest⟩ := s.shifted_leaves 0x08 32 s.tapStatus
      exact ⟨_, State.shifts_runs h hfree, hout, hir, hobj, hrest⟩
    · obtain ⟨hout, hlast, hobj, hrest⟩ := s.shifted_leaves ir.toNat 1 0
      have hother : otherIr ir.toNat = true := by simpa [otherIr] using hir
      have hexec : exec (.tapBypass ir) s = .next (s.bypass ir.toNat) := hfree.trans (congrArg _ (if_pos hother))
      exact ⟨_, State.shifts_runs h hexec, hout, hlast, hobj, hrest⟩
    · have hexec : exec (.tapSamplePreload pins b) s = .next (s.boundaryScan 0x01 false pins b) := hfree
      unfold State.boundaryScan at hexec
      rw [State.tapUpdate_still 0x01 h] at hexec
      obtain ⟨hout, -, hobj, -⟩ := s.shifted_leaves 0x01 129 (s.captured pins)
      exact ⟨_, hexec, hout, rfl, rfl, hobj, rfl⟩
    · obtain ⟨hout, -⟩ := (s.bump Obj.FLT_TAP_REFUSED).shifted_leaves 0x00 1 0
      have hexec : exec (.tapExtest pins b) s = .next ((s.bump Obj.FLT_TAP_REFUSED).bypass 0x00) :=
        congrArg Host.Outcome.next (State.tapDo_locked hpwr hlock)
      rw [State.bypass_shifted (s := s.bump Obj.FLT_TAP_REFUSED) h] at hexec
      exact ⟨_, hexec, hout, (State.o_irTaken _ 0x00 false (by decide)).trans (State.o_bump_self s _), rfl, rfl⟩
    · have hexec : exec (.tapCast n) s = .next (s.bypass 0x12) := hfree.trans (congrArg _ (if_pos (by simp [hrun])))
      rw [State.bypass_shifted h] at hexec
      exact ⟨_, hexec, (s.shifted_leaves 0x12 1 0).1, rfl⟩
    · obtain ⟨hout, -, hobj, hrest⟩ := s.shifted_leaves 0x13 64 ((s.frz.crc ^^^ 0xFFFFFFFF) * 2 ^ 32 + s.frz.bits)
      exact ⟨_, State.shifts_runs h hfree, hout, rfl, hobj, hrest⟩
    · have htest : s.pinTest = false := h.resolve_left (by simp [hrun])
      have hexec : exec (.tapCastMem false addr []) s = .next (s.castMem false addr.toNat []) := hfree
      rw [State.castMem_running hrun htest] at hexec
      exact ⟨_, hexec, (s.shifted_leaves 0x14 86 0).1, rfl⟩
  · obtain ⟨hball, hrst, hfault, hin⟩ := s.captured_levels pins
    obtain ⟨hdriven, hnot⟩ := drivenCells_drives b
    exact ⟨hball, hrst, hfault, hin, hdriven, hnot, State.testScan_runs hpwr hlock rfl, State.testScan_runs hpwr hlock rfl,
      State.testScan_runs hpwr hlock rfl⟩
  · have hmem (fw : Bool) : exec (.tapCastMem fw addr []) s = .next (s.castMem fw addr.toNat []) :=
      congrArg Host.Outcome.next (State.tapDo_acts hpwr (.inl rfl))
    simp only [State.castMem_frozen hf, State.castWord_nil] at hmem
    refine ⟨fun hn => ?_, fun hclosed => ?_, fun hopen => ?_, fun hgood => ?_, fun hbad => ?_⟩
    · have hexec : exec (.tapCast n) s = .next (s.cast n.toNat) := congrArg Host.Outcome.next (State.tapDo_acts hpwr (.inl rfl))
      rw [State.cast_frozen hf hn] at hexec
      obtain ⟨hout, -, hobj, -⟩ := s.shifted_leaves 0x12 n.toNat (bitsNat (castBits s.frz.number s.frz.pos n.toNat))
      exact ⟨_, hexec, hout, rfl, Nat.mod_eq_of_lt n.isLt, rfl,
        State.keepsObjects_setO (State.keepsObjects_mono hobj (by simp)) (by simp) _, ⟨rfl, rfl, rfl⟩⟩
    · refine ⟨_, hmem false, rfl, ?_, rfl, ⟨rfl, rfl, rfl⟩⟩
      simp [State.wordRead, hclosed, b2n]
    · refine ⟨_, hmem false, rfl, ⟨rfl, rfl, rfl⟩, ?_⟩
      simp [State.wordRead, hopen, b2n]
    · refine ⟨_, hmem true, ?_⟩
      simp only [hgood, if_true, Bool.true_or, bne_self_eq_false, State.castNote_good]
      refine ⟨rfl, ⟨rfl, rfl, rfl⟩, rfl, ?_⟩
      simp [State.wordRead, b2n]
    · refine ⟨_, hmem true, ?_⟩
      have hue : (memWord s.memUnit.fwRam (8 * addr.toNat) 8 != 0) = true := by simp [hbad]
      simp only [if_true, Bool.true_or, hue, State.castNote_firmware]
      exact ⟨rfl, castResult_uncorrectable addr _ _ (memWord_lt _ _), (State.o_bump_self _ _).trans (congrArg (satAdd 32 · 1)
        (s.o_irTaken 0x14 false (by decide))), ⟨rfl, rfl, rfl⟩⟩

end Sys2Proof.Machine
end

section
/-! SUPPORT. Gate requests: the nodes that are refused, and the lowest busy one below them (R405, R406). -/
namespace Sys2Proof.Machine

variable {s : State} {q : Req} {v n m r : Nat} {l : List Nat}

/-! ### The bits that are cleared -/

theorem bit_clearBits (l : List Nat) (v n : Nat) : bit (clearBits v l) n = (bit v n && !l.contains n) := by
  induction l generalizing v with
  | nil => simp [clearBits]
  | cons k l ih =>
    have h := ih (setBit v k false)
    simp only [clearBits, List.foldl_cons, List.contains_cons] at h ⊢
    rw [h, bit_setBit]
    by_cases hk : n = k
    · simp [hk]
    · have hbeq : (n == k) = false := by simp [hk]
      simp [hk, hbeq]

/-! ### The nodes that are refused -/

theorem State.mem_refusedNodes : n ∈ s.refusedNodes v ↔ n < 26 ∧ bit v n = true ∧ s.nodeBusy n = true := by
  simp [State.refusedNodes, allNodes]

theorem State.bit_clearRefused (s : State) (v : Nat) (hn : n < 26) :
    bit (clearBits v (s.refusedNodes v)) n = (bit v n && !s.nodeBusy n) := by
  rw [bit_clearBits]
  cases hb : bit v n
  · rfl
  · have hmem : (s.refusedNodes v).contains n = s.nodeBusy n := by
      rw [Bool.eq_iff_iff, List.contains_iff_mem, State.mem_refusedNodes]
      simp [hn, hb]
    rw [hmem]

theorem State.refusedNodes_nil (h : ∀ n : Fin 26, bit v n = true → s.nodeBusy n = false) : s.refusedNodes v = [] := by
  refine List.eq_nil_iff_forall_not_mem.mpr fun n hn => ?_
  obtain ⟨hlt, hbit, hbusy⟩ := State.mem_refusedNodes.mp hn
  exact absurd (hbusy.symm.trans (h ⟨n, hlt⟩ hbit)) (by decide)

/-! ### The lowest busy node at or below them (log entry 30) -/

theorem mem_subtree_self (hn : n < 26) : n ∈ subtree n := by
  unfold subtree
  split
  · simp [allNodes, hn]
  · exact List.mem_singleton_self n

theorem lt_of_mem_subtree (hr : r < 26) (h : n ∈ subtree r) : n < 26 := by
  unfold subtree at h
  split at h
  · simpa [allNodes] using (List.mem_filter.mp h).1
  · rwa [List.mem_singleton.mp h]

/-- The busy nodes at or below those refused. -/
def State.busyBelow (s : State) (v : Nat) : List Nat := ((s.refusedNodes v).flatMap subtree).filter s.nodeBusy

theorem State.mem_busyBelow : n ∈ s.busyBelow v ↔ (∃ r, r < 26 ∧ bit v r = true ∧ s.nodeBusy r = true ∧ n ∈ subtree r) ∧ s.nodeBusy n = true := by
  simp only [State.busyBelow, List.mem_filter, List.mem_flatMap, State.mem_refusedNodes, and_assoc]

theorem foldl_min_le (l : List Nat) (a : Nat) : l.foldl min a ≤ a ∧ ∀ x ∈ l, l.foldl min a ≤ x := by
  induction l generalizing a with
  | nil => exact ⟨le_refl a, fun _ h => absurd h List.not_mem_nil⟩
  | cons y l ih =>
    obtain ⟨hstart, hrest⟩ := ih (min a y)
    refine ⟨hstart.trans (Nat.min_le_left a y), fun x hx => ?_⟩
    rcases List.mem_cons.mp hx with rfl | hx
    · exact hstart.trans (Nat.min_le_right a x)
    · exact hrest x hx

theorem foldl_min_mem (l : List Nat) (a : Nat) : l.foldl min a = a ∨ l.foldl min a ∈ l := by
  induction l generalizing a with
  | nil => exact .inl rfl
  | cons y l ih =>
    rcases ih (min a y) with h | h
    · rw [List.foldl_cons, h]
      rcases Nat.le_total a y with hle | hle
      · exact .inl (Nat.min_eq_left hle)
      · rw [Nat.min_eq_right hle]
        exact .inr List.mem_cons_self
    · exact .inr (List.mem_cons_of_mem _ h)

/-- With a node refused, the lowest busy one is found, below every other. -/
theorem State.lowestBusy (h : ∃ n : Fin 26, bit v n = true ∧ s.nodeBusy n = true) :
    ∃ n r : Fin 26, (s.busyBelow v).foldl min 255 = n.val ∧ s.nodeBusy n = true ∧ n.val ∈ subtree r ∧ bit v r = true ∧
      ∀ m k : Fin 26, bit v k = true → s.nodeBusy k = true → m.val ∈ subtree k → s.nodeBusy m = true → n ≤ m := by
  have hle := (foldl_min_le (s.busyBelow v) 255).2
  obtain ⟨k, hbit, hbusy⟩ := h
  have hk : k.val ∈ s.busyBelow v := State.mem_busyBelow.mpr ⟨⟨k, k.isLt, hbit, hbusy, mem_subtree_self k.isLt⟩, hbusy⟩
  have hmem : (s.busyBelow v).foldl min 255 ∈ s.busyBelow v :=
    (foldl_min_mem _ _).resolve_left fun e => by have := hle k hk; omega
  obtain ⟨⟨r, hr, hrbit, -, hsub⟩, hnb⟩ := State.mem_busyBelow.mp hmem
  exact ⟨⟨_, lt_of_mem_subtree hr hsub⟩, ⟨r, hr⟩, rfl, hnb, hsub, hrbit,
    fun m j hj hjb hm hmb => hle m (State.mem_busyBelow.mpr ⟨⟨j, j.isLt, hj, hjb, hm⟩, hmb⟩)⟩

/-! ### The write -/

/-- A request with busy nodes: they are counted and named, and the rest waits. -/
theorem State.gateWrite_busy (hx : s.isExpert q = true) (hv : v < 2 ^ 26) (h : s.refusedNodes v ≠ []) : s.gateWrite q v =
    (((s.bumpBy Obj.CLK_REFUSED (s.refusedNodes v).length).setO Obj.CLK_REFUSED_BY ((s.busyBelow v).foldl min 255)).pendLive
      Obj.CLK_GATE_REQ (clearBits v (s.refusedNodes v))).respWrite q Obj.CLK_GATE_REQ .functionRunning 0 := by
  have hne : (s.refusedNodes v).isEmpty = false := by simpa using h
  simp only [State.gateWrite, hx, hne, State.noteRefused, Bool.not_true, Bool.false_eq_true, if_false, if_neg (Nat.not_le.mpr hv)]
  rfl

theorem State.gateWrite_free (hx : s.isExpert q = true) (hv : v < 2 ^ 26) (h : s.refusedNodes v = []) :
    s.gateWrite q v = s.hostWrite q Obj.CLK_GATE_REQ true .ok (s.pendLive Obj.CLK_GATE_REQ v) := by
  simp only [State.gateWrite, State.hostWrite, hx, h, State.noteRefused, clearBits, Bool.not_true, Bool.and_false, Bool.false_eq_true,
    if_false, if_neg (Nat.not_le.mpr hv), List.isEmpty_nil, if_true, List.foldl_nil]

theorem State.gateWrite_refused (hx : s.isExpert q = true) (hv : 2 ^ 26 ≤ v) :
    s.gateWrite q v = s.hostWrite q Obj.CLK_GATE_REQ true .outOfRange s := by
  simp only [State.gateWrite, State.hostWrite, hx, Bool.not_true, Bool.and_false, Bool.false_eq_true, if_false, if_pos hv]

theorem State.gateWrite_expert (hx : s.isExpert q = false) :
    s.gateWrite q v = s.hostWrite q Obj.CLK_GATE_REQ true .ok s := by
  simp only [State.gateWrite, State.hostWrite, hx, Bool.not_false, Bool.and_true, if_true]

/-- Settles O32: by the level, the range, and whether a requested node is busy. -/
theorem gateRequestsAreRefusedForBusyNodes : Obligations.GateRequestsAreRefusedForBusyNodes := by
  unfold Obligations.GateRequestsAreRefusedForBusyNodes
  intro q v s hs
  have hexec {t : State} (h : s.gateWrite q v.toNat = t) : exec (.clkGateReqWrite q v) s = .next (s.ifRequest q t) := h ▸ rfl
  refine ⟨fun hx => ?_, fun hx hv => ?_, fun hx hv hfree => ?_, fun hx hv hbusy => ?_⟩
  · exact hostWrite_runs_expert hs hx (hexec (State.gateWrite_expert hx))
  · exact hostWrite_runs_refused hs (.inr hx) (hexec (State.gateWrite_refused hx hv)) rfl (by decide)
  · exact hostWrite_runs_waits hs (.inr hx) (hexec (State.gateWrite_free hx hv (State.refusedNodes_nil hfree))) rfl
  · have hne : s.refusedNodes v.toNat ≠ [] := by
      obtain ⟨n, hbit, hb⟩ := hbusy
      exact List.ne_nil_of_mem (State.mem_refusedNodes.mpr ⟨n.isLt, hbit, hb⟩)
    refine request_runs hs (hexec (State.gateWrite_busy hx hv hne)) ?_
    obtain ⟨n, r, hlow, hrest⟩ := State.lowestBusy hbusy
    refine ⟨State.respond_answers _ _ _ _ _, ⟨_, ?_, fun n => s.bit_clearRefused v.toNat n.isLt⟩, ?_, ⟨n, r, ?_, hrest⟩, fun k hk => ?_, ?_⟩
    · simp [State.respWrite, State.pendLive]
    · rw [State.respWrite, State.o_respond _ q _ _ _ (State.aliveKey (by decide))]
      exact (State.o_setO_ne _ _ (by decide)).trans (State.o_setO_self _ _ _)
    · rw [State.respWrite, State.o_respond _ q _ _ _ (State.aliveKey (by decide))]
      exact (State.o_setO_self _ _ _).trans hlow
    · simp only [List.mem_cons, List.not_mem_nil, or_false, not_or] at hk
      obtain ⟨hcount, hby, halive⟩ := hk
      rw [State.respWrite, State.o_respond _ q _ _ _ (State.aliveKey halive)]
      exact (State.o_setO_ne _ _ hby).trans (State.o_setO_ne _ _ hcount)
    · simp [State.respWrite, State.pendLive]

end Sys2Proof.Machine
end

section
/-! SUPPORT. TIME messages, the servo and holdover: what each leaves, and what it comes to (R416 to R419). -/
namespace Sys2Proof.Machine

variable {s t u : State} {m : TimeMsg} {own tseq : Nat}

/-! ### Captures and steps -/

/-- The objects that captures and staged events count in. -/
def captKeys : List Nat := [Obj.NT_CAPT_CNT, Obj.FLT_LOG_LOST]

/-- A capture and a staged event leave the rest. -/
structure State.NotedTime (t s : State) : Prop where
  objs : t.keepsObjects s captKeys
  rest : { t with obj := s.obj, capts := s.capts, log := s.log } = s

theorem State.captureStage_notes (s : State) (src code cls unit : Nat) (d : List Byte) :
    ((s.capture src).stage code cls unit d).NotedTime s where
  objs := State.keepsObjects_trans (State.keepsObjects_mono (State.stage_keepsObjects _ _ _ _ _) (by simp [captKeys]))
    (State.keepsObjects_mono (s.capture_keepsObjects src) (by simp [captKeys]))
  rest := (congrArg (fun v : State => { v with obj := s.obj, capts := s.capts }) ((s.capture src).stage_frame code cls unit d) :)

theorem State.NotedTime.memories (h : t.NotedTime s) : t.keepsMemories s :=
  ⟨(congrArg State.spm h.rest :), (congrArg State.rankMem h.rest :), (congrArg State.nvm h.rest :)⟩

theorem State.NotedTime.time (h : t.NotedTime s) : t.time = s.time := (congrArg State.time h.rest :)

theorem State.NotedTime.nt (h : t.NotedTime s) : t.nt = s.nt := (congrArg State.nt h.rest :)

theorem State.NotedTime.out (h : t.NotedTime s) : t.out = s.out := (congrArg State.out h.rest :)

/-- The log of ticks with the time of the tick in progress replaced. -/
def relogged (log : List Nat) (n : Nat) : List Nat :=
  match log with
  | _ :: r => n :: r
  | [] => []

theorem head?_relogged (log : List Nat) (n : Nat) : (relogged log n).head? = log.head?.map fun _ => n := by cases log <;> rfl

/-- Network time stepped by d, before the step is noted. -/
def State.ntMoved (s : State) (d : Int) : State :=
  { s.bump Obj.NT_STEPS with
    nt := ofSigned 96 ((s.nt : Int) + d)
    time := { s.time with slew := 0, step := some (s.tick, s.nt), log := relogged s.time.log (ofSigned 96 ((s.nt : Int) + d)) } }

theorem State.ntStep_eq (s : State) (d : Int) :
    s.ntStep d = ((s.ntMoved d).capture 5).stage 0x0105 1 0 (bytesLE 8 (ofSigned 64 (d / 2 ^ 32))) := rfl

/-- A step of network time: what changes, and what does not. -/
structure State.TimeStepped (t s : State) (d : Int) : Prop where
  nt : t.nt = ofSigned 96 ((s.nt : Int) + d)
  time : t.time = (s.ntMoved d).time
  steps : t.o Obj.NT_STEPS = satAdd 32 (s.o Obj.NT_STEPS) 1
  objs : t.keepsObjects s (Obj.NT_STEPS :: captKeys)
  memories : t.keepsMemories s

theorem State.ntStep_stepped (s : State) (d : Int) : (s.ntStep d).TimeStepped s d := by
  have h := (s.ntMoved d).captureStage_notes 5 0x0105 1 0 (bytesLE 8 (ofSigned 64 (d / 2 ^ 32)))
  rw [State.ntStep_eq]
  exact {
    nt := h.nt
    time := h.time
    steps := (h.objs _ (by decide)).trans (State.o_bump_self s _)
    objs := fun k hk => by
      rw [List.mem_cons, not_or] at hk
      exact (h.objs k hk.2).trans (State.o_bump_ne s hk.1)
    memories := h.memories }

/-! ### A message is judged (R416, R418) -/

/-- The message of a TIME block, its own time given. -/
def State.timeMsg (s : State) (w own : Nat) : TimeMsg :=
  { master := bits w 167 152, step := bit w 142, time := bits w 87 24 * 2 ^ 32 + bits w 23 0 * 2 ^ 8, own := own, tick := s.tick }

/-- The message is the first of its master and number. -/
def State.timeFresh (s : State) (w : Nat) : Bool := s.time.seqs.all fun e => e != (bits w 167 152, bits w 151 144)

/-- A received TIME block, after it has been forwarded. -/
def State.timeJudged (s : State) (w : Nat) : State :=
  match s.ownTime (bits w 135 88) with
  | some own =>
    if bit w 143 && s.o Obj.XC_STATE == 1 && s.timeFresh w then
      if s.ownMaster (bits w 167 152) then s.timeAccept (s.timeMsg w own) (bits w 151 144)
      else s.timeForeign (s.timeMsg w own) (bits w 151 144)
    else s.timeReject (bits w 167 152)
  | none => s.timeReject (bits w 167 152)

theorem State.timeReceive_down (w : Nat) (h : s.o Obj.RG_LSTATE ≠ 3) : s.timeReceive w = s := if_pos h

theorem State.timeReceive_up (w : Nat) (h : s.o Obj.RG_LSTATE = 3) : s.timeReceive w =
    (s.forward (fun k => s.o (Obj.HUB_PKIND k) == 1) 0x66 [bits w 167 112, bits w 111 56, bits w 55 0]).timeJudged w :=
  if_neg (not_not.mpr h)

theorem State.forward_sends (s : State) (p : Nat → Bool) (b : Nat) (parts : List Nat) :
    ∃ l, s.forward p b parts = { s with out := s.out ++ l } ∧ (s.o Obj.CF_ROLE ≠ 2 → l = []) := by
  refine ⟨_, State.foldl_emitBlock (fun k => .south (portFin k)) b parts _ s, fun h => ?_⟩
  have hleaf : s.isHub = false := by simp [State.isHub, h]
  simp [State.portsUp, hleaf]

/-- The tests of R416 that the master has no part in. -/
theorem State.timeFails (w : Nat) (h : s.ownTime (bits w 135 88) = none ∨ bit w 143 = false ∨ s.o Obj.XC_STATE ≠ 1 ∨
    (bits w 167 152, bits w 151 144) ∈ s.time.seqs) : s.timeJudged w = s.timeReject (bits w 167 152) := by
  unfold State.timeJudged
  split
  next own hown =>
    rcases h with h | h
    · exact absurd (hown.symm.trans h) (by simp)
    · have hfail : ¬((bit w 143 && s.o Obj.XC_STATE == 1 && s.timeFresh w) = true) := by
        rcases h with h | h | h
        · simp [h]
        · simp [h]
        · simp only [State.timeFresh, Bool.and_eq_true, List.all_eq_true, not_and]
          exact fun _ hall => absurd (hall _ h) (by simp)
      exact if_neg hfail
  next => rfl

theorem State.timePasses {w : Nat} (hown : s.ownTime (bits w 135 88) = some own) (hvalid : bit w 143 = true) (hx : s.o Obj.XC_STATE = 1)
    (hseq : (bits w 167 152, bits w 151 144) ∉ s.time.seqs) : s.timeJudged w =
      if s.ownMaster (bits w 167 152) then s.timeAccept (s.timeMsg w own) (bits w 151 144)
      else s.timeForeign (s.timeMsg w own) (bits w 151 144) := by
  have hfresh : s.timeFresh w = true := by
    simp only [State.timeFresh, List.all_eq_true, bne_iff_ne]
    exact fun e he heq => hseq (heq ▸ he)
  simp only [State.timeJudged, hown, hvalid, hx, hfresh, beq_self_eq_true, Bool.and_self, if_true]

theorem State.ownMaster_iff {n : Nat} : s.ownMaster n = true ↔ n = s.o Obj.NT_MASTER ∧ s.o Obj.NT_MASTER ≠ 0xFFFF := by
  simp only [State.ownMaster, Bool.and_eq_true, beq_iff_eq, bne_iff_ne]
  exact ⟨fun ⟨h, hn⟩ => ⟨h, h ▸ hn⟩, fun ⟨h, hn⟩ => ⟨h, h ▸ hn⟩⟩

/-- A rejected message counts, as a foreign one unless it is the master's. -/
theorem State.timeReject_counts (s : State) (n : Nat) : (s.timeReject n).o Obj.NT_REJECT = satAdd 32 (s.o Obj.NT_REJECT) 1 ∧
    (s.timeReject n).o Obj.NT_FOREIGN = (if n = s.o Obj.NT_MASTER ∧ s.o Obj.NT_MASTER ≠ 0xFFFF then s.o Obj.NT_FOREIGN
      else satAdd 32 (s.o Obj.NT_FOREIGN) 1) ∧
    (s.timeReject n).keepsObjects s [Obj.NT_REJECT, Obj.NT_FOREIGN] ∧ { s.timeReject n with obj := s.obj } = s := by
  unfold State.timeReject
  by_cases h : s.ownMaster n = true
  · rw [if_pos h, if_pos (State.ownMaster_iff.mp h)]
    exact ⟨State.o_bump_self s _, State.o_bump_ne s (by decide), State.keepsObjects_bump (State.keepsObjects_refl s _) (by simp), rfl⟩
  · rw [if_neg h, if_neg (fun hn => h (State.ownMaster_iff.mpr hn))]
    exact ⟨(State.o_bump_self _ _).trans (congrArg (satAdd 32 · 1) (State.o_bump_ne s (by decide))),
      (State.o_bump_ne _ (by decide)).trans (State.o_bump_self s _),
      State.keepsObjects_bump (State.keepsObjects_bump (State.keepsObjects_refl s _) (by simp)) (by simp), rfl⟩

/-- The message as it waits. -/
def State.waitingMsg (s : State) (m : TimeMsg) : TimeMsg := { m with step := m.step || s.time.stepNext }

theorem State.timeAccept_counts (s : State) (m : TimeMsg) (tseq : Nat) :
    (s.timeAccept m tseq).o Obj.NT_MSGS = satAdd 32 (s.o Obj.NT_MSGS) 1 ∧ (s.timeAccept m tseq).keepsObjects s [Obj.NT_MSGS] ∧
    (s.timeAccept m tseq).time.waiting = s.time.waiting ++ [s.waitingMsg m] ∧ (s.timeAccept m tseq).time.accepted = some s.tick ∧
    { s.timeAccept m tseq with obj := s.obj, time := s.time } = s :=
  ⟨State.o_bump_self s _, State.keepsObjects_bump (State.keepsObjects_refl s _) (by simp), rfl, rfl, rfl⟩

/-! ### A message of another master (R418) -/

theorem State.masterHeld_none (h : s.time.changed = none) : s.masterHeld = false := by simp only [State.masterHeld, h]

/-- The error follows the candidate's first within the limit. -/
theorem State.secondOf_iff : s.secondOf m tseq = true ↔ ∃ c ∈ s.time.cand, c.1 = m.master ∧ tseq = (c.2.1 + 1) % 256 ∧
    ((m.time : Int) - m.own - c.2.2).natAbs ≤ s.o Obj.NT_STEP_LIMIT * 2 ^ 32 := by
  simp only [State.secondOf, List.any_eq_true, Bool.and_eq_true, beq_iff_eq, decide_eq_true_eq, and_assoc]
  refine exists_congr fun c => and_congr_right fun _ => and_congr_right fun _ => and_congr_right fun _ => ?_
  omega

/-- The new master's state, before the change is noted. -/
def State.masterSet (s : State) (n : Nat) : State :=
  { (s.setO Obj.NT_MASTER n).bump Obj.NT_MCHANGES with time := { s.time with cand := [], changed := some s.tick } }

theorem State.masterChange_eq (s : State) (n : Nat) : s.masterChange n =
    ((s.masterSet n).capture 6).stage 0x0106 1 0 (bytesLE 2 (s.o Obj.NT_MASTER) ++ bytesLE 2 n) := rfl

theorem State.masterChange_notes (s : State) (n : Nat) : (s.masterChange n).NotedTime (s.masterSet n) := by
  rw [State.masterChange_eq]
  exact State.captureStage_notes _ _ _ _ _ _

theorem State.o_masterSet (s : State) (n : Nat) : (s.masterSet n).o Obj.NT_MASTER = n ∧
    (s.masterSet n).o Obj.NT_MCHANGES = satAdd 32 (s.o Obj.NT_MCHANGES) 1 ∧
    (s.masterSet n).keepsObjects s [Obj.NT_MASTER, Obj.NT_MCHANGES] :=
  ⟨(State.o_bump_ne _ (by decide)).trans (s.o_setO_self _ n),
    (State.o_bump_self _ _).trans (congrArg (satAdd 32 · 1) (s.o_setO_ne n (by decide))),
    State.keepsObjects_bump (State.keepsObjects_setO (State.keepsObjects_refl s _) (by simp) n) (by simp)⟩

theorem State.timeForeign_second (hheld : s.masterHeld = false) (h : s.secondOf m tseq = true) :
    s.timeForeign m tseq = (s.masterChange m.master).timeAccept m tseq := by
  simp [State.timeForeign, hheld, h]

/-- The master changes, and the message is accepted. -/
theorem State.changeAccept_counts (s : State) (m : TimeMsg) (tseq : Nat) :
    let t := (s.masterChange m.master).timeAccept m tseq
    t.o Obj.NT_MASTER = m.master ∧ t.o Obj.NT_MCHANGES = satAdd 32 (s.o Obj.NT_MCHANGES) 1 ∧
    t.o Obj.NT_MSGS = satAdd 32 (s.o Obj.NT_MSGS) 1 ∧ t.time.cand = [] ∧ t.time.changed = some s.tick ∧ t.nt = s.nt ∧
    t.keepsMemories s ∧ t.out = s.out := by
  have h := s.masterChange_notes m.master
  obtain ⟨hmaster, hchanges, hkeep⟩ := s.o_masterSet m.master
  obtain ⟨hmsgs, hobjs, -, -, hrest⟩ := (s.masterChange m.master).timeAccept_counts m tseq
  exact ⟨(hobjs _ (by decide)).trans ((h.objs _ (by decide)).trans hmaster),
    (hobjs _ (by decide)).trans ((h.objs _ (by decide)).trans hchanges),
    hmsgs.trans (congrArg (satAdd 32 · 1) ((h.objs _ (by decide)).trans (hkeep _ (by decide)))),
    congrArg NetTime.cand h.time, congrArg NetTime.changed h.time, h.nt, h.memories, h.out⟩

/-- The state in which a foreign message has become its master's first. -/
def State.foreignNoted (s : State) (m : TimeMsg) (tseq : Nat) : State :=
  { (s.bump Obj.NT_FOREIGN).bump Obj.NT_REJECT with
    time := { s.time with cand := (m.master, tseq, (m.time : Int) - m.own) :: s.time.cand.filter fun c => c.1 != m.master } }

theorem State.foreignNoted_counts (s : State) (m : TimeMsg) (tseq : Nat) :
    (s.foreignNoted m tseq).o Obj.NT_FOREIGN = satAdd 32 (s.o Obj.NT_FOREIGN) 1 ∧
    (s.foreignNoted m tseq).o Obj.NT_REJECT = satAdd 32 (s.o Obj.NT_REJECT) 1 ∧
    (s.foreignNoted m tseq).keepsObjects s [Obj.NT_FOREIGN, Obj.NT_REJECT] ∧
    (s.foreignNoted m tseq).time.cand =
      (m.master, tseq, (m.time : Int) - m.own) :: s.time.cand.filter (fun c => c.1 != m.master) ∧
    { (s.foreignNoted m tseq).time with cand := s.time.cand } = s.time ∧
    { s.foreignNoted m tseq with obj := s.obj, time := s.time } = s := by
  have ho (k : Nat) : (s.foreignNoted m tseq).o k = ((s.bump Obj.NT_FOREIGN).bump Obj.NT_REJECT).o k := rfl
  refine ⟨(ho _).trans ((State.o_bump_ne _ (by decide)).trans (State.o_bump_self s _)),
    (ho _).trans ((State.o_bump_self _ _).trans (congrArg (satAdd 32 · 1) (State.o_bump_ne s (by decide)))), fun k hk => ?_, rfl, rfl, by unfold State.foreignNoted; rfl⟩
  exact (ho k).trans (State.keepsObjects_bump (State.keepsObjects_bump (State.keepsObjects_refl s _) (by simp)) (by simp) k hk)

theorem State.timeForeign_first (hheld : s.masterHeld = false) (h : s.secondOf m tseq = false) :
    s.timeForeign m tseq = s.foreignNoted m tseq := by
  simp only [State.timeForeign, hheld, h, Bool.false_eq_true, if_false]
  rfl

theorem State.timeForeign_held (hheld : s.masterHeld = true) :
    s.timeForeign m tseq = (s.bump Obj.NT_FOREIGN).bump Obj.NT_REJECT := by
  simp only [State.timeForeign, hheld, if_true]

/-- Whatever becomes of a message, it puts nothing out. -/
theorem State.out_timeJudged (s : State) (w : Nat) : (s.timeJudged w).out = s.out := by
  have hreject (n : Nat) : (s.timeReject n).out = s.out := (congrArg State.out (s.timeReject_counts n).2.2.2 :)
  have hforeign (m : TimeMsg) (tseq : Nat) : (s.timeForeign m tseq).out = s.out := by
    cases hheld : s.masterHeld
    · cases h : s.secondOf m tseq
      · rw [State.timeForeign_first hheld h]; rfl
      · rw [State.timeForeign_second hheld h]
        obtain ⟨-, -, -, -, -, -, -, hout⟩ := s.changeAccept_counts m tseq
        exact hout
    · rw [State.timeForeign_held hheld]; rfl
  unfold State.timeJudged
  split
  · split
    · split
      · rfl
      · exact hforeign _ _
    · exact hreject _
  · exact hreject _

/-! ### The servo (R417) -/

/-- The message asks for a step, or needs one. -/
def State.stepsBy (s : State) (m : TimeMsg) : Bool :=
  m.step || s.o Obj.NT_STATE == 0 || decide ((s.o Obj.NT_STEP_LIMIT * 2 ^ 32 : Nat) < ((m.time : Int) - m.own).natAbs)

/-- The state with the error shown. -/
def State.errShown (s : State) (m : TimeMsg) : State :=
  s.setO Obj.NT_LAST_ERR (ofSigned 32 (clipSigned 32 (((m.time : Int) - m.own) / 2 ^ 32)))

/-- The rate corrected by the error since the previous message of the same master. -/
def State.rateSet (s : State) (m : TimeMsg) : State :=
  match s.prevTime m with
  | some t =>
    let dt : Int := (m.time : Int) - t
    let r := s.servoRate ((m.time : Int) - m.own) dt
    (if dt = 0 then s.drawn else s).setO Obj.NT_RATE (ofSigned 32 r)
  | none => s

/-- The error steps the time, or corrects the rate and is slewed. -/
def State.errActed (s : State) (m : TimeMsg) : State :=
  if s.stepsBy m then (s.errShown m).ntStep ((m.time : Int) - m.own)
  else
    let t := (s.errShown m).rateSet m
    { t with time := { t.time with slew := (m.time : Int) - m.own } }

/-- The message is the previous one from now on, and time is synchronised. -/
def State.synchronised (s : State) (m : TimeMsg) : State :=
  let s := { s with time := { s.time with prev := some (m.master, m.time) } }
  (if s.o Obj.NT_STATE = 2 then s.capture 8 else s).setO Obj.NT_STATE 1

theorem State.servo_eq (s : State) (m : TimeMsg) : s.servo m = (s.errActed m).synchronised m := by
  have hlim : (s.errShown m).o Obj.NT_STEP_LIMIT = s.o Obj.NT_STEP_LIMIT := s.o_setO_ne _ (by decide)
  have hstate : (s.errShown m).o Obj.NT_STATE = s.o Obj.NT_STATE := s.o_setO_ne _ (by decide)
  have hstep : (m.step || (s.errShown m).o Obj.NT_STATE == 0 ||
      decide ((m.time : Int) - m.own > (s.errShown m).o Obj.NT_STEP_LIMIT * 2 ^ 32) ||
      decide (-((m.time : Int) - m.own) > (s.errShown m).o Obj.NT_STEP_LIMIT * 2 ^ 32)) = s.stepsBy m := by
    rw [hlim, hstate, State.stepsBy, Bool.or_assoc, ← Bool.decide_or]
    congr 2
    rw [eq_iff_iff]
    omega
  unfold State.servo State.errActed State.synchronised
  rw [← hstep]
  rfl

theorem State.synchronised_leaves (s : State) (m : TimeMsg) : (s.synchronised m).o Obj.NT_STATE = 1 ∧
    (s.synchronised m).time = { s.time with prev := some (m.master, m.time) } ∧ (s.synchronised m).nt = s.nt ∧
    (s.synchronised m).keepsMemories s ∧ (s.synchronised m).keepsObjects s [Obj.NT_STATE, Obj.NT_CAPT_CNT] := by
  have hstate (t : State) (ht : t.keepsObjects s [Obj.NT_STATE, Obj.NT_CAPT_CNT]) :
      (t.setO Obj.NT_STATE 1).keepsObjects s [Obj.NT_STATE, Obj.NT_CAPT_CNT] := State.keepsObjects_setO ht (by simp) 1
  refine ⟨State.o_setO_self _ _ _, ?_⟩
  unfold State.synchronised
  dsimp only
  split
  · exact ⟨rfl, rfl, ⟨rfl, rfl, rfl⟩, hstate _ fun k hk => State.capture_keepsObjects _ 8 k fun h => hk (by simpa using .inr (by simpa using h))⟩
  · exact ⟨rfl, rfl, ⟨rfl, rfl, rfl⟩, hstate _ (State.keepsObjects_refl s _)⟩

theorem State.rateSet_leaves (s : State) (m : TimeMsg) : (s.rateSet m).nt = s.nt ∧ (s.rateSet m).time = s.time ∧
    (s.rateSet m).keepsMemories s ∧ (s.rateSet m).keepsObjects s [Obj.NT_RATE] := by
  unfold State.rateSet
  split
  · dsimp only
    split
    · exact ⟨rfl, rfl, ⟨rfl, rfl, rfl⟩, State.keepsObjects_setO (t := s.drawn) (fun _ _ => rfl) (by simp) _⟩
    · exact ⟨rfl, rfl, ⟨rfl, rfl, rfl⟩, State.keepsObjects_setO (State.keepsObjects_refl s _) (by simp) _⟩
  · exact ⟨rfl, rfl, ⟨rfl, rfl, rfl⟩, State.keepsObjects_refl s _⟩

/-- Without a previous message the rate stays. -/
theorem State.rateSet_first (m : TimeMsg) (h : s.time.prev = none) : s.rateSet m = s := by
  simp only [State.rateSet, State.prevTime, h]

theorem State.stepsBy_iff : s.stepsBy m = true ↔
    m.step = true ∨ s.o Obj.NT_STATE = 0 ∨ (s.o Obj.NT_STEP_LIMIT * 2 ^ 32 : Nat) < ((m.time : Int) - m.own).natAbs := by
  simp only [State.stepsBy, Bool.or_eq_true, beq_iff_eq, decide_eq_true_eq, or_assoc]

theorem State.errShown_keepsObjects (s : State) (m : TimeMsg) : (s.errShown m).keepsObjects s [Obj.NT_LAST_ERR] :=
  State.keepsObjects_setO (State.keepsObjects_refl s _) (by simp) _

/-- A message that steps. -/
theorem State.servo_steps (h : s.stepsBy m = true) :
    (s.servo m).nt = ofSigned 96 ((s.nt : Int) + ((m.time : Int) - m.own)) ∧ (s.servo m).time.slew = 0 ∧
    (s.servo m).time.log.head? = s.time.log.head?.map (fun _ => (s.servo m).nt) ∧
    (s.servo m).o Obj.NT_STEPS = satAdd 32 (s.o Obj.NT_STEPS) 1 ∧ (s.servo m).o Obj.NT_RATE = s.o Obj.NT_RATE ∧
    (s.servo m).time.waiting = s.time.waiting ∧ (s.servo m).keepsMemories s := by
  have hact : s.errActed m = (s.errShown m).ntStep ((m.time : Int) - m.own) := if_pos h
  have hstep := (s.errShown m).ntStep_stepped ((m.time : Int) - m.own)
  have hshown := s.errShown_keepsObjects m
  obtain ⟨-, htime, hnt, hmem, hobj⟩ := (s.errActed m).synchronised_leaves m
  rw [State.servo_eq]
  rw [hact] at htime hnt hmem hobj ⊢
  have hnow := hnt.trans hstep.nt
  refine ⟨hnow, ?_, ?_, ?_, ?_, ?_, State.keepsMemories_trans hmem (State.keepsMemories_trans hstep.memories ⟨rfl, rfl, rfl⟩)⟩
  · rw [htime, hstep.time]; rfl
  · rw [hnow, htime, hstep.time]
    exact head?_relogged s.time.log _
  · exact (hobj _ (by decide)).trans (hstep.steps.trans (congrArg (satAdd 32 · 1) (hshown _ (by decide))))
  · exact (hobj _ (by decide)).trans ((hstep.objs _ (by decide)).trans (hshown _ (by decide)))
  · rw [htime, hstep.time]; rfl

/-- A message that slews. -/
theorem State.servo_slews (h : s.stepsBy m = false) :
    (s.servo m).nt = s.nt ∧ (s.servo m).time.slew = (m.time : Int) - m.own ∧
    (s.servo m).o Obj.NT_STEPS = s.o Obj.NT_STEPS ∧ (s.time.prev = none → (s.servo m).o Obj.NT_RATE = s.o Obj.NT_RATE) ∧
    (s.servo m).time.waiting = s.time.waiting ∧ (s.servo m).keepsMemories s := by
  have hact : s.errActed m = { (s.errShown m).rateSet m with
      time := { ((s.errShown m).rateSet m).time with slew := (m.time : Int) - m.own } } := if_neg (by simp [h])
  obtain ⟨hrnt, hrtime, hrmem, hrobj⟩ := (s.errShown m).rateSet_leaves m
  have hshown := s.errShown_keepsObjects m
  obtain ⟨-, htime, hnt, hmem, hobj⟩ := (s.errActed m).synchronised_leaves m
  have hacted (k : Nat) : (s.errActed m).o k = ((s.errShown m).rateSet m).o k := by rw [hact]; rfl
  have hacttime : (s.errActed m).time = { s.time with slew := (m.time : Int) - m.own } := by rw [hact, hrtime]; rfl
  have hactnt : (s.errActed m).nt = s.nt := by rw [hact]; exact hrnt
  have hactmem : (s.errActed m).keepsMemories s := by rw [hact]; exact State.keepsMemories_trans (t := (s.errShown m).rateSet m) ⟨rfl, rfl, rfl⟩ hrmem
  rw [State.servo_eq]
  refine ⟨hnt.trans hactnt, ?_, ?_, fun hprev => ?_, ?_, State.keepsMemories_trans hmem hactmem⟩
  · rw [htime, hacttime]
  · exact (hobj _ (by decide)).trans ((hacted _).trans ((hrobj _ (by decide)).trans (hshown _ (by decide))))
  · have hfirst : (s.errShown m).rateSet m = s.errShown m := State.rateSet_first m hprev
    exact (hobj _ (by decide)).trans ((hacted _).trans ((congrArg (State.o · Obj.NT_RATE) hfirst).trans (hshown _ (by decide))))
  · rw [htime, hacttime]

theorem State.servo_synchronises (s : State) (m : TimeMsg) : (s.servo m).o Obj.NT_STATE = 1 ∧
    (s.servo m).time.prev = some (m.master, m.time) := by
  obtain ⟨hstate, htime, -⟩ := (s.errActed m).synchronised_leaves m
  rw [State.servo_eq]
  exact ⟨hstate, congrArg NetTime.prev htime⟩

/-! ### Holdover (R419) -/

theorem State.ntHoldover_unsynchronised (h : s.o Obj.NT_STATE ≠ 1) : s.ntHoldover = s := if_neg h

theorem State.holdoverExpire_unsynchronised (h : s.o Obj.NT_STATE ≠ 1) : s.holdoverExpire = s := by
  unfold State.holdoverExpire
  split
  · split
    · exact State.ntHoldover_unsynchronised h
    · rfl
  · exact State.ntHoldover_unsynchronised h

theorem State.holdoverExpire_enters {a : Nat} (h : s.o Obj.NT_STATE = 1) (ha : s.time.accepted = none ∨
    (s.time.accepted = some a ∧ s.ticksCover (s.tick - a) (1000 * s.o Obj.NT_HOLDOVER) = true)) :
    s.holdoverExpire = (s.setO Obj.NT_STATE 2).capture 7 := by
  have henter : s.ntHoldover = (s.setO Obj.NT_STATE 2).capture 7 := if_pos h
  rcases ha with ha | ⟨ha, hcov⟩
  · simp only [State.holdoverExpire, ha, henter]
  · simp only [State.holdoverExpire, ha, hcov, if_true, henter]

/-! ### The statement -/

/-- The state with more put out. -/
def State.putOut (s : State) (l : List Sent) : State := { s with out := s.out ++ l }

/-- What a received block comes to, with what has been forwarded put out. -/
theorem State.timeReceive_runs {P : State → Prop} {w : BitVec 168} (ha : s.awake = true) (hup : s.o Obj.RG_LSTATE = 3)
    (h : ∀ l, P ((s.putOut l).timeJudged w.toNat)) : Runs (.timeReceive w) s P := by
  obtain ⟨l, hl, -⟩ := s.forward_sends (fun k => s.o (Obj.HUB_PKIND k) == 1) 0x66
    [bits w.toNat 167 112, bits w.toNat 111 56, bits w.toNat 55 0]
  refine awake_runs ha rfl ?_
  rw [State.timeReceive_up _ hup, hl]
  exact h l

/-- Settles O30: by the tests of a message, its master, and what its error asks for. -/
theorem timeMessagesSteerNetworkTime : Obligations.TimeMessagesSteerNetworkTime := by
  unfold Obligations.TimeMessagesSteerNetworkTime
  intro w own m r a s ha
  refine ⟨fun hdown => exec_of_awake ha rfl (State.timeReceive_down _ hdown), fun hup => ⟨fun hfail => ?_,
    fun hown hvalid hx hseq hother hchanged => ⟨fun hpair => ?_, fun hfirst => ?_⟩, fun hown hvalid hx hseq hmaster hknown => ?_,
    fun hrole => ?_⟩, fun hnone => ?_, fun hwait htick => ?_, fun hwait htick => ?_, fun hstate => ?_, fun hacc hcov => ?_,
    fun hstate hacc => ?_⟩
  · refine State.timeReceive_runs ha hup fun l => ?_
    rw [State.timeFails (s := s.putOut l) _ hfail]
    obtain ⟨hreject, hforeign, hkeep, hrest⟩ := (s.putOut l).timeReject_counts (bits w.toNat 167 152)
    exact ⟨hreject, hforeign, hkeep, (congrArg (fun v : State => { v with out := s.out }) hrest :)⟩
  · refine State.timeReceive_runs ha hup fun l => ?_
    have hown' : (s.putOut l).ownMaster (bits w.toNat 167 152) = false := by
      rw [Bool.eq_false_iff]
      exact fun h => hother (State.ownMaster_iff.mp h).1
    have hyes : (s.putOut l).secondOf ((s.putOut l).timeMsg w.toNat own) (bits w.toNat 151 144) = true := State.secondOf_iff.mpr hpair
    rw [State.timePasses (s := s.putOut l) hown hvalid hx hseq, hown', if_neg (by decide),
      State.timeForeign_second (s := s.putOut l) (State.masterHeld_none hchanged) hyes]
    obtain ⟨hmaster, hchanges, hmsgs, hcand, hset, hnt, hmem, -⟩ :=
      (s.putOut l).changeAccept_counts ((s.putOut l).timeMsg w.toNat own) (bits w.toNat 151 144)
    exact ⟨hmaster, hchanges, hmsgs, hcand, hset, hnt, hmem⟩
  · refine State.timeReceive_runs ha hup fun l => ?_
    have hown' : (s.putOut l).ownMaster (bits w.toNat 167 152) = false := by
      rw [Bool.eq_false_iff]
      exact fun h => hother (State.ownMaster_iff.mp h).1
    have hnot : (s.putOut l).secondOf ((s.putOut l).timeMsg w.toNat own) (bits w.toNat 151 144) = false := by
      rw [Bool.eq_false_iff]
      intro h
      obtain ⟨c, hc, hcm, hcs, -⟩ := State.secondOf_iff.mp h
      exact (hfirst c hc).elim (fun hne => hne hcm) fun hne => hne hcs
    rw [State.timePasses (s := s.putOut l) hown hvalid hx hseq, hown', if_neg (by decide),
      State.timeForeign_first (s := s.putOut l) (State.masterHeld_none hchanged) hnot]
    obtain ⟨hforeign, hreject, hkeep, hcand, hcands, hrest⟩ :=
      (s.putOut l).foreignNoted_counts ((s.putOut l).timeMsg w.toNat own) (bits w.toNat 151 144)
    exact ⟨hforeign, hreject, hkeep, hcand, hcands, (congrArg (fun v : State => { v with out := s.out }) hrest :)⟩
  · refine State.timeReceive_runs ha hup fun l => ?_
    have hown' : (s.putOut l).ownMaster (bits w.toNat 167 152) = true := State.ownMaster_iff.mpr ⟨hmaster, hknown⟩
    rw [State.timePasses (s := s.putOut l) hown hvalid hx hseq, if_pos hown']
    obtain ⟨hmsgs, hkeep, hwaits, hacc, hrest⟩ :=
      (s.putOut l).timeAccept_counts ((s.putOut l).timeMsg w.toNat own) (bits w.toNat 151 144)
    exact ⟨hmsgs, hkeep, hwaits, hacc, rfl, (congrArg (fun v : State => { v with out := s.out }) hrest :)⟩
  · obtain ⟨l, hl, hnone⟩ := s.forward_sends (fun k => s.o (Obj.HUB_PKIND k) == 1) 0x66
      [bits w.toNat 167 112, bits w.toNat 111 56, bits w.toNat 55 0]
    refine awake_runs ha rfl ?_
    rw [State.timeReceive_up _ hup, State.out_timeJudged, hl, hnone hrole]
    exact List.append_nil _
  · exact exec_of_awake ha rfl (by simp only [State.servoUpdate, hnone])
  · exact exec_of_awake ha rfl (by simp only [State.servoUpdate, hwait, if_neg (Nat.not_lt.mpr htick)])
  · have hacts : s.servoUpdate = State.servo { s with time := { s.time with waiting := r } } m := by
      simp only [State.servoUpdate, hwait, if_pos htick]
    generalize hv : ({ s with time := { s.time with waiting := r } } : State) = v at hacts
    have hr : v.time.waiting = r := hv ▸ rfl
    have hkeep : v.nt = s.nt ∧ v.time.prev = s.time.prev ∧ v.time.log = s.time.log ∧ v.obj = s.obj ∧ v.keepsMemories s :=
      hv ▸ ⟨rfl, rfl, rfl, rfl, rfl, rfl, rfl⟩
    obtain ⟨hnt, hprev, hlog, hobj, hmem⟩ := hkeep
    have ho (k : Nat) : v.o k = s.o k := congrArg (fun l => sget (objDefault k) l k) hobj
    refine awake_runs ha rfl ?_
    rw [hacts]
    obtain ⟨hstate, hprev'⟩ := v.servo_synchronises m
    cases hby : v.stepsBy m
    · obtain ⟨hnt', hslew, hsteps, hrate, hwaits, hmem'⟩ := State.servo_slews hby
      refine ⟨hwaits.trans hr, hstate, hprev', State.keepsMemories_trans hmem' hmem, fun h => ?_, fun _ _ _ => ?_⟩
      · rw [← ho, ← ho] at h
        exact absurd (State.stepsBy_iff.mpr h) (by simp [hby])
      · exact ⟨hnt'.trans hnt, hslew, hsteps.trans (ho _), fun h => (hrate (hprev.trans h)).trans (ho _)⟩
    · obtain ⟨hnt', hslew, hhead, hsteps, hrate, hwaits, hmem'⟩ := State.servo_steps hby
      refine ⟨hwaits.trans hr, hstate, hprev', State.keepsMemories_trans hmem' hmem, fun _ => ?_, fun hstep hsync hle => ?_⟩
      · exact ⟨hnt'.trans (by rw [hnt]), hslew, hhead.trans (by rw [hlog]), hsteps.trans (by rw [ho]), hrate.trans (ho _)⟩
      · rw [← ho] at hsync hle
        rcases State.stepsBy_iff.mp hby with h | h | h
        · exact absurd (h.symm.trans hstep) (by decide)
        · exact absurd h hsync
        · omega
  · exact exec_of_awake ha rfl (State.holdoverExpire_unsynchronised hstate)
  · exact exec_of_awake ha rfl (by simp only [State.holdoverExpire, hacc, hcov, Bool.false_eq_true, if_false])
  · refine awake_runs ha rfl ?_
    rw [State.holdoverExpire_enters hstate hacc]
    exact ⟨(State.capture_keepsObjects _ 7 _ (by decide)).trans (State.o_setO_self _ _ _), rfl,
      (State.capture_keepsObjects _ 7 _ (by decide)).trans (State.o_setO_ne _ _ (by decide)), rfl,
      State.keepsObjects_trans (State.keepsObjects_mono (State.capture_keepsObjects _ 7) (by simp))
        (State.keepsObjects_setO (State.keepsObjects_refl s _) (by simp) _), rfl⟩

end Sys2Proof.Machine
end

section
/-! SUPPORT. A lock of the TDC PLL while the device leaves Parked (R403, R524). -/
namespace Sys2Proof.Machine

/-- A parked device on CKIN that is asked to leave Parked, its TDC PLL not yet in lock again. -/
def unparkingOnCkin : State :=
  let s := (State.reset.setO Obj.PWR_STATE 2).setO Obj.CLK_STATE 3
  { s with power := { s.power with unparking := true } }

/-- Its clocks run on CKIN, it has the canonical form, and the lock shows in CLK_PLL_STATUS. -/
theorem unparkingOnCkin_locks : unparkingOnCkin.wf = true ∧ unparkingOnCkin.awake = true ∧ unparkingOnCkin.o Obj.CLK_STATE ≠ 2 ∧
    unparkingOnCkin.o Obj.CLK_PLL_STATUS = 0 ∧ (unparkingOnCkin.pllLocked 0).o Obj.CLK_PLL_STATUS = 7 := by
  decide +kernel

/-- Refutes O31: its clause has a lock outside RELOCK change nothing, but in an unpark the clock stays CKIN, and the TDC PLL that has
been started again shows its lock in CLK_PLL_STATUS, as R524 asks. -/
theorem not_theMonitorAcceptsTracksAndFailsTheClock : ¬ Obligations.TheMonitorAcceptsTracksAndFailsTheClock := by
  unfold Obligations.TheMonitorAcceptsTracksAndFailsTheClock
  intro h
  obtain ⟨-, hawake, hclk, hbefore, hafter⟩ := unparkingOnCkin_locks
  obtain ⟨-, -, -, -, -, -, -, -, -, hclauses⟩ := h 0 0 0 0 false unparkingOnCkin
  obtain ⟨-, -, -, -, hlock, -⟩ := hclauses hawake
  obtain ⟨-, hlocked⟩ := hlock hclk
  have hsame : unparkingOnCkin.pllLocked 0 = unparkingOnCkin := (State.ifAwake_of hawake).symm.trans (Host.Outcome.next.inj hlocked)
  rw [hsame, hbefore] at hafter
  exact absurd hafter (by decide)

end Sys2Proof.Machine
end

section
/-! SUPPORT. Challenges, keys and sessions (R466, R467). -/
namespace Sys2Proof.Machine

variable {s : State} {q : Req} {c : Challenge} {v : Nat} {inTime : Bool}

/-! ### The count of refused keys and the lock-out of a path -/

@[simp] theorem Cufel.fails_setFails (c : Cufel) (n : Nat) (l : Bool) (p : Path) : (c.setFails n l p).fails p = n := by cases p <;> rfl

@[simp] theorem Cufel.locked_setFails (c : Cufel) (n : Nat) (l : Bool) (p : Path) : (c.setFails n l p).locked p = l := by cases p <;> rfl

@[simp] theorem Cufel.sessions_setFails (c : Cufel) (n : Nat) (l : Bool) (p : Path) : (c.setFails n l p).sessions = c.sessions := by
  cases p <;> rfl

@[simp] theorem Cufel.challenges_setFails (c : Cufel) (n : Nat) (l : Bool) (p : Path) :
    (c.setFails n l p).challenges = c.challenges := by
  cases p <;> rfl

theorem Cufel.keepsButTraffic_fails {c d : Cufel} (h : c.keepsButTraffic d) (p : Path) : c.fails p = d.fails p := by
  cases p
  · exact (congrArg Cufel.failsNorth h :)
  · exact (congrArg Cufel.failsCan h :)

theorem Cufel.keepsButTraffic_locked {c d : Cufel} (h : c.keepsButTraffic d) (p : Path) : c.locked p = d.locked p := by
  cases p
  · exact (congrArg Cufel.lockNorth h :)
  · exact (congrArg Cufel.lockCan h :)

@[simp] theorem State.fails_respond (s : State) (q : Req) (m : Nat) (st : Status) (b : List Byte) (p : Path) :
    (s.respond q m st b).cufel.fails p = s.cufel.fails p := Cufel.keepsButTraffic_fails (s.respond_keepsButTraffic q m st b) p

@[simp] theorem State.locked_respond (s : State) (q : Req) (m : Nat) (st : Status) (b : List Byte) (p : Path) :
    (s.respond q m st b).cufel.locked p = s.cufel.locked p := Cufel.keepsButTraffic_locked (s.respond_keepsButTraffic q m st b) p

@[simp] theorem State.challengeOf_respond (s : State) (q q' : Req) (m : Nat) (st : Status) (b : List Byte) :
    (s.respond q m st b).challengeOf q' = s.challengeOf q' := by
  unfold State.challengeOf
  rw [State.challenges_respond]

@[simp] theorem State.isExpert_respond (s : State) (q q' : Req) (m : Nat) (st : Status) (b : List Byte) :
    (s.respond q m st b).isExpert q' = s.isExpert q' := by
  unfold State.isExpert
  rw [State.sessions_respond]

/-! ### Challenges -/

theorem State.challengeOf_source (h : s.challengeOf q = some c) : c.path = q.path ∧ c.src = q.src.toNat := by
  simpa using List.find?_some h

/-- A source has one challenge: the last one set. -/
theorem State.challengeOf_setChallenge (hp : c.path = q.path) (hsrc : c.src = q.src.toNat) :
    (s.setChallenge q c).challengeOf q = some c := by
  unfold State.setChallenge State.challengeOf
  rw [List.find?_append, List.find?_eq_none.mpr fun x hx => ?_]
  · simp [hp, hsrc]
  · have hnot := (List.mem_filter.mp hx).2
    simpa only [Bool.not_eq_true', Bool.not_eq_true] using hnot

/-- A read draws a challenge of 16 bits, another one than before (log entry 3). -/
theorem State.newChallenge_differs (s : State) (q : Req) :
    (s.newChallenge q).2 < 2 ^ 16 ∧ ∀ d ∈ s.challengeOf q, (s.newChallenge q).2 ≠ d.value := by
  unfold State.newChallenge
  cases hc : s.challengeOf q with
  | none => exact ⟨Nat.mod_lt _ (by decide), fun d hd => absurd hd (by simp)⟩
  | some d =>
    have hlt : s.open % 2 ^ 16 < 2 ^ 16 := Nat.mod_lt _ (by decide)
    simp only [Option.mem_def, Option.some.injEq, forall_eq']
    constructor
    · split
      · exact Nat.mod_lt _ (by decide)
      · exact hlt
    · split
      · omega
      · omega

/-- The challenge that a read sets up for its source. -/
theorem State.newChallenge_fst (s : State) (q : Req) : (s.newChallenge q).1 =
    s.drawn.setChallenge q { path := q.path, src := q.src.toNat, value := (s.newChallenge q).2, key := s.o Obj.CF_KEY, used := false } :=
  rfl

/-! ### Keys -/

/-- The source's challenge has been used. -/
def State.consumed (s : State) (q : Req) (c : Challenge) : State := s.setChallenge q { c with used := true }

theorem State.challengeOf_consumed (h : s.challengeOf q = some c) : (s.consumed q c).challengeOf q = some { c with used := true } :=
  State.challengeOf_setChallenge (State.challengeOf_source h).1 (State.challengeOf_source h).2

/-- The state after a right key. -/
def State.keyAccepted (s : State) (q : Req) (c : Challenge) : State :=
  { s.consumed q c with cufel := (s.consumed q c).cufel.setFails 0 false q.path }

/-- The state after a wrong or a late key. -/
def State.keyMissed (s : State) (q : Req) (c : Challenge) : State :=
  { (s.consumed q c).bump Obj.CF_KEY_FAIL with
    cufel := (s.consumed q c).cufel.setFails (if s.cufel.fails q.path + 1 ≥ 3 then 0 else s.cufel.fails q.path + 1)
      (decide (s.cufel.fails q.path + 1 ≥ 3)) q.path }

theorem State.tryKey_locked (h : s.cufel.locked q.path = true) : s.tryKey q v inTime = (s, .lockedOut) := if_pos h

theorem State.tryKey_right (h : s.cufel.locked q.path = false) (hc : s.challengeOf q = some c) (hused : c.used = false)
    (hv : v = c.value ^^^ c.key) : s.tryKey q v true = (s.keyAccepted q c, .ok) := by
  simp [State.tryKey, h, hc, hused, hv, State.keyAccepted, State.consumed]

theorem State.tryKey_wrong (h : s.cufel.locked q.path = false) (hc : s.challengeOf q = some c)
    (hbad : inTime = false ∨ c.used = true ∨ v ≠ c.value ^^^ c.key) : s.tryKey q v inTime = (s.keyMissed q c, .keyRefused) := by
  have hright : (inTime && (!c.used && v == c.value ^^^ c.key)) = false := by
    rcases hbad with h | h | h <;> simp [h]
  have hfails : (s.consumed q c).cufel.fails q.path = s.cufel.fails q.path := by cases q.path <;> rfl
  unfold State.tryKey
  rw [h]
  simp only [hc, hright, Bool.false_eq_true, if_false]
  unfold State.keyMissed
  rw [← hfails]
  rfl

@[simp] theorem State.o_keyAccepted (s : State) (q : Req) (c : Challenge) (k : Nat) : (s.keyAccepted q c).o k = s.o k := rfl

@[simp] theorem State.sessions_keyAccepted (s : State) (q : Req) (c : Challenge) :
    (s.keyAccepted q c).cufel.sessions = s.cufel.sessions := Cufel.sessions_setFails _ _ _ _

@[simp] theorem State.isExpert_keyAccepted (s : State) (q : Req) (c : Challenge) : (s.keyAccepted q c).isExpert q = s.isExpert q := by
  unfold State.isExpert
  rw [State.sessions_keyAccepted]

@[simp] theorem State.fails_keyAccepted (s : State) (q : Req) (c : Challenge) : (s.keyAccepted q c).cufel.fails q.path = 0 :=
  Cufel.fails_setFails _ _ _ _

theorem State.challengeOf_keyAccepted (h : s.challengeOf q = some c) :
    (s.keyAccepted q c).challengeOf q = some { c with used := true } := by
  rw [← State.challengeOf_consumed h]
  exact congrArg (List.find? _) (Cufel.challenges_setFails _ _ _ _)

theorem State.challengeOf_keyMissed (h : s.challengeOf q = some c) :
    (s.keyMissed q c).challengeOf q = some { c with used := true } := by
  rw [← State.challengeOf_consumed h]
  exact congrArg (List.find? _) (Cufel.challenges_setFails _ _ _ _)

@[simp] theorem State.sessions_keyMissed (s : State) (q : Req) (c : Challenge) :
    (s.keyMissed q c).cufel.sessions = s.cufel.sessions := Cufel.sessions_setFails _ _ _ _

/-- A wrong key counts, and nothing else of the object store changes. -/
theorem State.keyMissed_counts (s : State) (q : Req) (c : Challenge) :
    (s.keyMissed q c).o Obj.CF_KEY_FAIL = satAdd 32 (s.o Obj.CF_KEY_FAIL) 1 ∧ (s.keyMissed q c).keepsObjects s [Obj.CF_KEY_FAIL] :=
  ⟨State.o_bump_self _ Obj.CF_KEY_FAIL, State.keepsObjects_bump (t := s.consumed q c) (fun _ _ => rfl) (List.mem_singleton_self _)⟩

/-! ### Unlocking -/

/-- The state after a right unlock value, with the session that it opens. -/
def State.unlocked (s : State) (q : Req) (c : Challenge) : State :=
  if s.isExpert q = true ∨ 4 ≤ s.cufel.sessions.length then s.keyAccepted q c
  else { s.keyAccepted q c with
    cufel := { (s.keyAccepted q c).cufel with sessions := s.cufel.sessions ++ [{ path := q.path, src := q.src.toNat }] } }

theorem State.unlock_right (h : s.cufel.locked q.path = false) (hc : s.challengeOf q = some c) (hused : c.used = false)
    (hv : v = c.value ^^^ c.key) : s.unlock q v true =
      (s.unlocked q c, if s.isExpert q = false ∧ 4 ≤ s.cufel.sessions.length then .noResource else .ok) := by
  unfold State.unlock State.unlocked
  simp only [State.tryKey_right h hc hused hv, State.isExpert_keyAccepted, State.sessions_keyAccepted]
  cases s.isExpert q
  · by_cases hn : 4 ≤ s.cufel.sessions.length
    · simp [hn]
    · simp [hn]
  · simp

theorem State.fails_unlocked (s : State) (q : Req) (c : Challenge) : (s.unlocked q c).cufel.fails q.path = 0 := by
  unfold State.unlocked
  split
  · exact State.fails_keyAccepted s q c
  · rw [← State.fails_keyAccepted s q c]
    cases q.path <;> rfl

theorem State.challengeOf_unlocked (h : s.challengeOf q = some c) :
    (s.unlocked q c).challengeOf q = some { c with used := true } := by
  rw [← State.challengeOf_keyAccepted h]
  unfold State.unlocked
  split <;> rfl

theorem State.o_unlocked (s : State) (q : Req) (c : Challenge) (k : Nat) : (s.unlocked q c).o k = s.o k := by
  unfold State.unlocked
  split <;> rfl

/-- Which sessions are open after a right unlock value. -/
theorem State.sessions_unlocked (s : State) (q : Req) (c : Challenge) : (s.unlocked q c).cufel.sessions =
    if s.isExpert q = true ∨ 4 ≤ s.cufel.sessions.length then s.cufel.sessions
    else s.cufel.sessions ++ [{ path := q.path, src := q.src.toNat }] := by
  unfold State.unlocked
  split
  · exact State.sessions_keyAccepted s q c
  · rfl

theorem State.isExpert_of_mem {s : State} (h : { path := q.path, src := q.src.toNat } ∈ s.cufel.sessions) : s.isExpert q = true :=
  List.any_eq_true.mpr ⟨_, h, by simp⟩

/-! ### The write commands -/

theorem State.unlockWrite_locked (h : s.cufel.locked q.path = true) :
    s.unlockWrite q v inTime = s.respond q 0x02 .lockedOut (keyBytes Obj.CF_UNLOCK ++ bytesLE 6 0) := by
  unfold State.unlockWrite State.unlock
  rw [State.tryKey_locked h]
  rfl

theorem State.unlockWrite_wrong (h : s.cufel.locked q.path = false) (hc : s.challengeOf q = some c)
    (hbad : inTime = false ∨ c.used = true ∨ v ≠ c.value ^^^ c.key) : s.unlockWrite q v inTime =
      (s.keyMissed q c).respond q 0x02 .keyRefused (keyBytes Obj.CF_UNLOCK ++ bytesLE 6 0) := by
  unfold State.unlockWrite State.unlock
  rw [State.tryKey_wrong h hc hbad]
  rfl

/-- Only the response's counters move with it. -/
theorem State.keepsObjects_respond {t : State} {ks : List Nat} (h : t.keepsObjects s ks) (q : Req) (m : Nat) (st : Status) (b : List Byte)
    (hn : Obj.CHK_ALIVE_TXN ∈ ks) (hc : Obj.CHK_ALIVE_TXC ∈ ks) : (t.respond q m st b).keepsObjects s ks := by
  intro k hk
  have halive : k ≠ Obj.CHK_ALIVE_TXN ∧ k ≠ Obj.CHK_ALIVE_TXC := ⟨fun e => hk (e.symm ▸ hn), fun e => hk (e.symm ▸ hc)⟩
  exact (State.o_respond _ q _ _ _ (State.aliveKey halive)).trans (h k hk)

/-- Settles O35: a challenge and a key are judged once each, and the answers follow. -/
theorem sessionsOpenByTheRightUnlock : Obligations.SessionsOpenByTheRightUnlock := by
  unfold Obligations.SessionsOpenByTheRightUnlock
  intro q c v w inTime p src s
  have halive : ∀ {t : State} (m : Nat) (st : Status) (b : List Byte), t.keepsObjects s [Obj.CHK_ALIVE_TXN, Obj.CHK_ALIVE_TXC] →
      (t.respond q m st b).keepsObjects s [Obj.CHK_ALIVE_TXN, Obj.CHK_ALIVE_TXC] :=
    fun m st b h => State.keepsObjects_respond h q m st b (by simp) (by simp)
  refine ⟨fun hs => ⟨?challenge, fun hl => ?locked, fun hl hc => ⟨fun ht hu hv => ?right, fun hbad => ?wrong⟩, fun hw => ?badLock,
    fun hw => ?ends⟩, fun ha => ⟨?timeout, ?lockoutEnds⟩⟩
  case challenge =>
    obtain ⟨hlt, hne⟩ := s.newChallenge_differs q
    refine request_runs hs (t := s.challengeRead q) rfl ⟨⟨{ path := q.path, src := q.src.toNat, value := (s.newChallenge q).2, key := s.o Obj.CF_KEY, used := false }, ?_, rfl, rfl,
      rfl, rfl, hlt, hne, State.respond_answers _ _ _ _ _⟩, ?_, halive _ _ _ fun _ _ => rfl⟩
    · simp [State.challengeRead, State.respRead, State.newChallenge_fst, State.setChallenge]
    · simp [State.challengeRead, State.respRead, State.newChallenge_fst, State.setChallenge]
  case locked =>
    exact request_runs hs (t := s.unlockWrite q v.toNat inTime) rfl (State.unlockWrite_locked hl ▸ State.respond_only _ _ _ _ _)
  case right =>
    subst ht
    refine request_runs hs (t := s.unlockWrite q v.toNat true) rfl ?_
    unfold State.unlockWrite
    rw [State.unlock_right hl hc hu hv]
    unfold State.respWrite
    refine ⟨?_, ?_, halive _ _ _ fun k _ => s.o_unlocked q c k, fun hx => ⟨?_, ?_⟩, fun hx hn => ⟨?_, ?_, ?_⟩, fun hx hn => ⟨?_, ?_⟩⟩
    · rw [State.fails_respond, State.fails_unlocked]
    · rw [State.challengeOf_respond, State.challengeOf_unlocked hc]
      simp
    · simp [State.sessions_unlocked, hx]
    · rw [if_neg (by simp [hx])]
      exact State.respond_answers _ _ _ _ _
    · simp [State.sessions_unlocked, hx, hn]
    · rw [State.isExpert_respond]
      refine State.isExpert_of_mem ?_
      rw [State.sessions_unlocked, if_neg (by simp [hx, hn])]
      exact List.mem_append_right _ (List.mem_singleton_self _)
    · rw [if_neg (by omega)]
      exact State.respond_answers _ _ _ _ _
    · simp [State.sessions_unlocked, hn]
    · rw [if_pos ⟨hx, hn⟩]
      exact State.respond_answers _ _ _ _ _
  case wrong =>
    refine request_runs hs (t := s.unlockWrite q v.toNat inTime) rfl ?_
    rw [State.unlockWrite_wrong hl hc hbad]
    obtain ⟨hcount, hkeep⟩ := s.keyMissed_counts q c
    refine ⟨State.respond_answers _ _ _ _ _, ?_, ?_, ?_, ?_, fun hlt => ?_, ?_⟩
    · rw [State.o_respond _ q _ _ _ (State.aliveKey (by decide)), hcount]
    · simp
    · rw [State.challengeOf_respond, State.challengeOf_keyMissed hc]
      simp
    · rw [State.locked_respond]
      exact Cufel.locked_setFails _ _ _ _
    · rw [State.fails_respond]
      exact (Cufel.fails_setFails _ _ _ _).trans (if_neg (by omega))
    · exact State.keepsObjects_respond (State.keepsObjects_mono hkeep (by simp)) _ _ _ _ (by simp) (by simp)
  case badLock =>
    have hv : w.toNat ≠ 1 := fun h => hw (BitVec.eq_of_toNat_eq h)
    refine request_runs hs (t := s.lockWrite q w.toNat) rfl ?_
    unfold State.lockWrite
    rw [if_neg hv]
    exact State.respond_only _ _ _ _ _
  case ends =>
    subst hw
    refine request_runs hs (t := (s.endSession q.path q.src.toNat).respWrite q Obj.CF_LOCK .ok s.xeff) rfl
      ⟨?_, fun x hx hother => ?_, State.respond_answers _ _ _ _ _, halive _ _ _ fun _ _ => rfl⟩
    · unfold State.respWrite
      rw [State.isExpert_respond]
      simp only [State.isExpert, State.endSession, List.any_filter, List.any_eq_false]
      intro x _
      cases decide (x.path = q.path) <;> cases x.src == q.src.toNat <;> decide
    · simp only [State.respWrite, State.sessions_respond, State.endSession, List.mem_filter]
      refine ⟨hx, ?_⟩
      rcases hother with h | h <;> simp [h]
  case timeout => exact awake_runs ha (t := s.endSession p src.toNat) rfl ⟨rfl, rfl⟩
  case lockoutEnds =>
    exact awake_runs ha (t := { s with cufel := s.cufel.setFails 0 false p }) rfl
      ⟨Cufel.locked_setFails _ _ _ _, Cufel.fails_setFails _ _ _ _, Cufel.sessions_setFails _ _ _ _, rfl⟩

end Sys2Proof.Machine
end

section
/-! SUPPORT. Function commands: the order in which they are judged, and what the accepted ones do (R464, R467, R535 to R539). -/
namespace Sys2Proof.Machine

variable {s t u : State} {q : Req} {c : Challenge} {func cmd key arg : Nat} {expert keyed inTime : Bool} {check : State → Status}
  {effect : State → State × Nat}

/-! ### The order of the checks (R464, R467) -/

/-- The body of a function command's response. -/
def cmdBody (func cmd result : Nat) : List Byte := bytesLE 1 func ++ bytesLE 1 cmd ++ bytesLE 4 result

theorem bytesLE_one_toNat (b : BitVec 8) : bytesLE 1 b.toNat = [b] := by
  simp [bytesLE, BitVec.ofNat_toNat]

theorem cmdBody_toNat (func cmd : BitVec 8) (n : Nat) : cmdBody func.toNat cmd.toNat n = [func, cmd] ++ bytesLE 4 n := by
  unfold cmdBody
  rw [bytesLE_one_toNat, bytesLE_one_toNat]
  rfl

theorem State.functionCmd_length (h : s.badLength q 8 = true) :
    s.functionCmd q func cmd key arg expert keyed inTime check effect = s.respond q 0x08 .length (cmdBody func cmd 0) := if_pos h

theorem State.functionCmd_range (hl : s.badLength q 8 = false) (h : arg ≠ 0 ∨ (keyed = false ∧ key ≠ 0)) :
    s.functionCmd q func cmd key arg expert keyed inTime check effect = s.respond q 0x08 .outOfRange (cmdBody func cmd 0) := by
  unfold State.functionCmd
  rw [if_neg (by simp [hl]), if_pos h]
  rfl

/-- The arguments are in order. -/
theorem State.functionCmd_judged (hl : s.badLength q 8 = false) (hkey : keyed = true ∨ key = 0) :
    s.functionCmd q func cmd key 0 expert keyed inTime check effect =
      if expert && !s.isExpert q then s.respond q 0x08 .expertRequired (cmdBody func cmd 0)
      else
        let r : State × Status := if keyed then s.tryKey q key inTime else (s, .ok)
        match r.2 with
        | .ok =>
          match check r.1 with
          | .ok => (effect r.1).1.respond q 0x08 .ok (cmdBody func cmd (effect r.1).2)
          | st => r.1.respond q 0x08 st (cmdBody func cmd 0)
        | st => r.1.respond q 0x08 st (cmdBody func cmd 0) := by
  unfold State.functionCmd
  rw [if_neg (by simp [hl]), if_neg (by rintro (h | ⟨hf, hk⟩) <;> simp_all)]
  rfl

theorem State.functionCmd_expert (hl : s.badLength q 8 = false) (hkey : keyed = true ∨ key = 0) (hx : s.isExpert q = false) :
    s.functionCmd q func cmd key 0 true keyed inTime check effect = s.respond q 0x08 .expertRequired (cmdBody func cmd 0) := by
  rw [State.functionCmd_judged hl hkey, if_pos (by simp [hx])]

theorem State.functionCmd_locked (hl : s.badLength q 8 = false) (hx : s.isExpert q = true) (h : s.cufel.locked q.path = true) :
    s.functionCmd q func cmd key 0 true true inTime check effect = s.respond q 0x08 .lockedOut (cmdBody func cmd 0) := by
  rw [State.functionCmd_judged hl (.inl rfl), if_neg (by simp [hx])]
  simp only [if_true, State.tryKey_locked h]

theorem State.functionCmd_wrongKey (hl : s.badLength q 8 = false) (hx : s.isExpert q = true) (h : s.cufel.locked q.path = false)
    (hc : s.challengeOf q = some c) (hbad : inTime = false ∨ c.used = true ∨ key ≠ c.value ^^^ c.key) :
    s.functionCmd q func cmd key 0 true true inTime check effect =
      (s.keyMissed q c).respond q 0x08 .keyRefused (cmdBody func cmd 0) := by
  rw [State.functionCmd_judged hl (.inl rfl), if_neg (by simp [hx])]
  simp only [if_true, State.tryKey_wrong h hc hbad]

theorem State.functionCmd_rightKey (hl : s.badLength q 8 = false) (hx : s.isExpert q = true) (h : s.cufel.locked q.path = false)
    (hc : s.challengeOf q = some c) (hused : c.used = false) (hkey : key = c.value ^^^ c.key) :
    s.functionCmd q func cmd key 0 true true true (fun _ => .ok) effect =
      (effect (s.keyAccepted q c)).1.respond q 0x08 .ok (cmdBody func cmd (effect (s.keyAccepted q c)).2) := by
  rw [State.functionCmd_judged hl (.inl rfl), if_neg (by simp [hx])]
  simp only [if_true, State.tryKey_right h hc hused hkey]

/-- A command without a key that its level allows is decided by its own check. -/
theorem State.functionCmd_unkeyed (hl : s.badLength q 8 = false) (hx : expert = true → s.isExpert q = true) :
    s.functionCmd q func cmd 0 0 expert false inTime check effect =
      if check s = .ok then (effect s).1.respond q 0x08 .ok (cmdBody func cmd (effect s).2)
      else s.respond q 0x08 (check s) (cmdBody func cmd 0) := by
  rw [State.functionCmd_judged hl (.inr rfl), if_neg (by cases expert <;> simp_all)]
  simp only [Bool.false_eq_true, if_false]
  cases check s <;> simp

/-! ### The frame of the memories -/

theorem State.keepsMemories_refl (s : State) : s.keepsMemories s := ⟨rfl, rfl, rfl⟩

theorem State.keepsMemories_foldl {β : Type} {step : State → β → State} {xs : List β} (h : ∀ x ∈ xs, ∀ v, (step v x).keepsMemories v)
    (s : State) : (xs.foldl step s).keepsMemories s := by
  induction xs generalizing s with
  | nil => exact State.keepsMemories_refl s
  | cons x xs ih =>
    exact State.keepsMemories_trans (ih (fun y hy => h y (List.mem_cons_of_mem _ hy)) _) (h x List.mem_cons_self s)

theorem State.keepsMemories_ite {p : Prop} [Decidable p] (ht : t.keepsMemories s) (hu : u.keepsMemories s) :
    (if p then t else u).keepsMemories s := by
  split
  · exact ht
  · exact hu

/-- Outside the three memories anything may have changed last. -/
theorem State.keepsMemories_frame (h : t.keepsMemories s) (hspm : u.spm = t.spm) (hrank : u.rankMem = t.rankMem)
    (hnvm : u.nvm = t.nvm) : u.keepsMemories s :=
  State.keepsMemories_trans ⟨hspm, hrank, hnvm⟩ h

/-! ### Re-initialisations leave the memories alone (R536) -/

theorem State.requeue_keepsMemories (s : State) (n : Fin 4) : (s.requeue n).keepsMemories s := by
  have hwork : (s.freeSlotWork n).keepsMemories s := by
    unfold State.freeSlotWork
    split
    · exact State.keepsMemories_frame (s.releaseAll_linkFrame _ _).memories rfl rfl rfl
    · exact State.keepsMemories_refl s
  unfold State.requeue
  split
  · exact State.keepsMemories_ite (State.keepsMemories_frame hwork rfl rfl rfl) (State.keepsMemories_refl s)
  · exact State.keepsMemories_refl s

theorem State.reinitAsm_keepsMemories (s : State) : s.reinitAsm.keepsMemories s := by
  unfold State.reinitAsm
  split <;> exact ⟨rfl, rfl, rfl⟩

theorem State.reinitHub_keepsMemories (s : State) : s.reinitHub.keepsMemories s :=
  ((State.follow_linkFrame _).trans (.foldl (fun _ hk v => v.southDown_linkFrame (List.mem_range.mp (List.mem_filter.mp hk).1) true) s)).memories

theorem State.reinitNorth_keepsMemories (s : State) : s.reinitNorth.keepsMemories s := by
  have hlanes (l : List Nat) (h : ∀ j ∈ l, j < 25) : (l.foldl State.laneL2 (s.reiniting 5)).LinkFrame (s.reiniting 5) :=
    .foldl (fun j hj v => v.laneL2_linkFrame (h j hj)) _
  refine ((State.follow_linkFrame _).trans <| (State.northDown_linkFrame _ true).trans (hlanes _ fun j hj => ?_)).memories
  have := List.mem_range.mp (List.mem_filter.mp hj).1
  omega

/-- One port of a SOUTHLINK re-initialisation. -/
theorem State.reinitPort_linkFrame (s : State) {k : Nat} (hk : k < 8) :
    ((((s.southDown k true).setPortState k 1).laneL2 (9 + k)).laneL2 (17 + k)).LinkFrame s :=
  (State.laneL2_linkFrame _ (by omega)).trans <| (State.laneL2_linkFrame _ (by omega)).trans <|
    (State.setPortState_linkFrame _ hk 1).trans (s.southDown_linkFrame hk true)

theorem State.reinitSouth_keepsMemories (s : State) {ports : List Nat} (h : ∀ k ∈ ports, k < 8) :
    (s.reinitSouth ports).keepsMemories s := by
  unfold State.reinitSouth
  dsimp only
  refine State.keepsMemories_trans (State.follow_linkFrame _).memories ?_
  refine State.keepsMemories_trans (t := s.reiniting 6) (State.keepsMemories_foldl (fun k hk v => ?_) _) ⟨rfl, rfl, rfl⟩
  exact (v.reinitPort_linkFrame (h k (List.mem_filter.mp hk).1)).memories

theorem State.reinitDram_keepsMemories (s : State) : s.reinitDram.keepsMemories s :=
  State.keepsMemories_ite (State.keepsMemories_refl s) ⟨rfl, rfl, rfl⟩

theorem State.hkAbandon_keepsMemories (s : State) : s.hkAbandon.keepsMemories s := by
  unfold State.hkAbandon
  split <;> exact ⟨rfl, rfl, rfl⟩

theorem State.reinitHk_keepsMemories (s : State) : s.reinitHk.keepsMemories s := by
  have hranges (v : State) : ((List.range 32).foldl (fun t m => t.setO (Obj.HK_RANGE_NOW m) 0) v).keepsMemories v := by
    refine State.keepsMemories_foldl (fun m _ t => ?_) v
    exact ⟨rfl, rfl, rfl⟩
  have hstopped : (s.reiniting 8).hkAbandon.keepsMemories s :=
    State.keepsMemories_trans (s.reiniting 8).hkAbandon_keepsMemories ⟨rfl, rfl, rfl⟩
  have hall := State.keepsMemories_trans (hranges _) hstopped
  unfold State.reinitHk
  dsimp only
  generalize (List.range 32).foldl (fun t m => t.setO (Obj.HK_RANGE_NOW m) 0) (s.reiniting 8).hkAbandon = v at hall ⊢
  exact State.keepsMemories_frame hall rfl rfl rfl

theorem State.copyOver_keepsMemories (s : State) : s.copyOver.keepsMemories s :=
  State.keepsMemories_ite (State.keepsMemories_refl s) ⟨rfl, rfl, rfl⟩

theorem State.reinitBuilders_keepsMemories (s : State) : s.reinitBuilders.keepsMemories s := by
  have hpair : ((s.setO (unitKey s.otherUnit) 4).pairState).keepsMemories s := by
    obtain ⟨x, hx⟩ := (s.setO (unitKey s.otherUnit) 4).pairState_eq
    exact hx ▸ ⟨rfl, rfl, rfl⟩
  have hrejoin : (s.bldCtrlEffect 2).keepsMemories s :=
    State.keepsMemories_ite (State.keepsMemories_trans (State.settle_linkFrame _).memories hpair) (State.keepsMemories_refl s)
  exact State.keepsMemories_trans (State.copyOver_keepsMemories _) (State.keepsMemories_frame hrejoin rfl rfl rfl)

theorem State.canEnableEffect_keepsMemories (s : State) (v : Nat) : (s.canEnableEffect v).keepsMemories s :=
  State.keepsMemories_ite (State.keepsMemories_ite ⟨rfl, rfl, rfl⟩ ⟨rfl, rfl, rfl⟩)
    (State.keepsMemories_ite ⟨rfl, rfl, rfl⟩ ⟨rfl, rfl, rfl⟩)

theorem State.reinit_keepsMemories (s : State) (f : Nat) (c : Option Ch) : (s.reinit f c).keepsMemories s := by
  unfold State.reinit
  split
  · exact ⟨rfl, rfl, rfl⟩
  · exact s.reinitAsm_keepsMemories
  · exact State.keepsMemories_foldl (fun n _ v => v.requeue_keepsMemories n) s
  · exact s.reinitHub_keepsMemories
  · exact s.reinitBuilders_keepsMemories
  · exact s.reinitNorth_keepsMemories
  · refine s.reinitSouth_keepsMemories fun k hk => ?_
    cases c with
    | none => exact List.mem_range.mp hk
    | some c => exact List.mem_singleton.mp hk ▸ Nat.mod_lt _ (by decide)
  · exact s.reinitDram_keepsMemories
  · exact s.reinitHk_keepsMemories
  · exact State.keepsMemories_trans (State.canEnableEffect_keepsMemories _ _) (s.canEnableEffect_keepsMemories 0)

/-! ### The supervisor's restart (R208, R252, R463, R529) -/

theorem State.ariseOnce_linkFrame (s : State) (n : Nat) : (s.ariseOnce n).LinkFrame s :=
  (State.refreshFaultN_linkFrame _).trans ((State.LinkFrame.write_latched s n).bump (linkPlain_condCnt n))

theorem State.poolReclaim_linkFrame (s : State) : s.poolReclaim.LinkFrame s := by
  have howners (l : List Nat) : (l.foldl (fun s b => s.setOwner b 0) s).LinkFrame s := by
    refine .foldl (fun b _ v => ?_) s
    exact .of_obj rfl rfl rfl
  exact (State.LinkFrame.write _ (k := Obj.POOL_RECLAIM) (by decide) _).trans (howners _)

/-- Only the compressor changes as the supervisor's streams are dropped. -/
theorem State.dropSupStreams_eq (s : State) : ∃ m, s.dropSupStreams = { s.setO Obj.CMP_CTXVALID (s.o Obj.CMP_CTXVALID % 16) with cmp := m } := by
  have hctx (l : List Nat) (v : State) : ∃ m, l.foldl (fun s i => s.setCtx (4 + i) {}) v = { v with cmp := m } := by
    induction l generalizing v with
    | nil => exact ⟨v.cmp, rfl⟩
    | cons i l ih => exact (ih _).imp fun m hm => hm
  obtain ⟨m, hm⟩ := hctx (List.range 12) s
  unfold State.dropSupStreams
  rw [hm]
  exact ⟨_, rfl⟩

/-- The kept responses of a path are gone. -/
def loseKept (t : List AliveEntry) : List AliveEntry := t.map fun e => { e with kept := none }

/-- The control server as a restart leaves it: down, without sessions, transfers and kept responses. -/
def Cufel.restarted (c : Cufel) : Cufel :=
  { c with sessions := [], transfers := [], tlm := none, down := true, aliveNorth := loseKept c.aliveNorth, aliveCan := loseKept c.aliveCan }

/-- The supervisor has restarted from ROM. -/
structure State.Restarted (t s : State) (cause : Nat) : Prop where
  count : t.o Obj.RST_SUPV = satAdd 32 (s.o Obj.RST_SUPV) 1
  cause : t.o Obj.RST_SUPV_CAUSE = cause
  cufel : t.cufel = s.cufel.restarted
  ram : t.memUnit = { s.memUnit with fwRam := [], fwLoads := s.memUnit.fwLoads + 1 }
  memories : t.keepsMemories s
  latched : ∀ n, s.ob Obj.FLT_LATCHED n = true → t.ob Obj.FLT_LATCHED n = true
  objs : ∀ k, linkKey k = false → k ∉ [Obj.RST_SUPV, Obj.RST_SUPV_CAUSE, Obj.CMP_CTXVALID] → t.o k = s.o k

theorem State.Restarted.follow {cause : Nat} (h : t.Restarted s cause) (hu : u.LinkFrame t) : u.Restarted s cause where
  count := (hu.objs _ (by decide)).trans h.count
  cause := (hu.objs _ (by decide)).trans h.cause
  cufel := hu.cufel.trans h.cufel
  ram := (congrArg State.memUnit hu.rest :).trans h.ram
  memories := State.keepsMemories_trans hu.memories h.memories
  latched n hn := hu.latched n (h.latched n hn)
  objs k hk hne := (hu.objs k hk).trans (h.objs k hk hne)

/-- The restart before its event, its condition and the flags. -/
def State.supvLoses (s : State) (cause : Nat) : State :=
  ({ (s.bump Obj.RST_SUPV).setO Obj.RST_SUPV_CAUSE cause with
      cufel := s.cufel.restarted, memUnit := { s.memUnit with fwRam := [], fwLoads := s.memUnit.fwLoads + 1 } }).poolReclaim.dropSupStreams

theorem State.supvLoses_restarted (s : State) (cause : Nat) : (s.supvLoses cause).Restarted s cause := by
  have hstart : ({ (s.bump Obj.RST_SUPV).setO Obj.RST_SUPV_CAUSE cause with
      cufel := s.cufel.restarted, memUnit := { s.memUnit with fwRam := [], fwLoads := s.memUnit.fwLoads + 1 } } : State).Restarted s cause :=
    { count := (State.o_setO_ne _ _ (by decide)).trans (State.o_bump_self s _)
      cause := State.o_setO_self _ _ _
      cufel := rfl
      ram := rfl
      memories := ⟨rfl, rfl, rfl⟩
      latched := fun n hn =>
        (State.ob_of_o ((State.o_setO_ne _ _ (by decide)).trans (State.o_setO_ne s _ (by decide)))).trans hn
      objs := fun k _ hne => by
        simp only [List.mem_cons, List.not_mem_nil, or_false, not_or] at hne
        obtain ⟨hcount, hcause, -⟩ := hne
        exact (State.o_setO_ne _ _ hcause).trans (State.o_setO_ne s _ hcount) }
  have h := hstart.follow (State.poolReclaim_linkFrame _)
  unfold State.supvLoses
  generalize State.poolReclaim _ = v at h ⊢
  obtain ⟨m, hm⟩ := v.dropSupStreams_eq
  rw [hm]
  exact {
    count := (State.o_setO_ne v _ (by decide)).trans h.count
    cause := (State.o_setO_ne v _ (by decide)).trans h.cause
    cufel := h.cufel
    ram := h.ram
    memories := h.memories
    latched := fun n hn => (State.ob_of_o (State.o_setO_ne v _ (by decide))).trans (h.latched n hn)
    objs := fun k hk hne => (State.o_setO_ne v _ fun e => hne (by simp [e])).trans (h.objs k hk hne) }

theorem State.supvRestart_restarted (s : State) (cause addr : Nat) : (s.supvRestart cause addr).Restarted s cause :=
  ((s.supvLoses_restarted cause).follow
    (.ite (.refl _) ((State.ariseOnce_linkFrame _ 13).trans (State.stage_linkFrame _ 0x0203 0 0 (bytesLE 1 cause ++ bytesLE 4 addr))))).follow
      (State.settle_linkFrame _)

/-- A restart that no command asked for raises condition 13. -/
theorem State.supvRestart_raises (s : State) (addr : Nat) {cause : Nat} (h : cause ≠ 4) :
    (s.supvRestart cause addr).ob Obj.FLT_LATCHED 13 = true := by
  have harises : s.supvRestart cause addr =
      (((s.supvLoses cause).stage 0x0203 0 0 (bytesLE 1 cause ++ bytesLE 4 addr)).ariseOnce 13).settle :=
    congrArg State.settle (if_neg h)
  rw [harises]
  exact (State.settle_linkFrame _).latched 13 (State.ariseOnce_latches _ 13)

theorem State.Restarted.unserved {cause : Nat} (h : t.Restarted s cause) : t.served = false := by
  have hdown : t.serverUp = false := by
    unfold State.serverUp
    rw [h.cufel]
    exact Bool.and_false _
  unfold State.served
  rw [hdown]
  simp

theorem State.Restarted.answers {cause m : Nat} {st : Status} {b : List Byte} (h : t.Restarted s cause) (ha : s.answers q m st b) :
    t.answers q m st b := by
  obtain ⟨x, hx, hrest⟩ := ha
  have hout : t.outOf q.path = s.outOf q.path := by
    cases hp : q.path <;> simp only [State.outOf, h.cufel] <;> rfl
  exact ⟨x, hout ▸ hx, hrest⟩

/-! ### The commands (R464, R528, R529, R535, R538, R539) -/

theorem State.ariseIf_active (s : State) (n : Nat) : (s.ariseIf n).ob Obj.FLT_ACTIVE n = true := by
  unfold State.ariseIf
  split
  · assumption
  · have hcount : Obj.FLT_ACTIVE ≠ Obj.FLT_COND_CNT n := by
      simp only [Obj.FLT_ACTIVE, Obj.FLT_COND_CNT, objKey]
      omega
    have hkept : (s.arise n).o Obj.FLT_ACTIVE = (s.setOb Obj.FLT_ACTIVE n true).o Obj.FLT_ACTIVE :=
      (State.refreshFaultN_keepsObjects _ _ (by decide)).trans ((State.o_bump_ne _ hcount).trans (State.o_setO_ne _ _ (by decide)))
    exact (State.ob_of_o hkept).trans (State.ob_setOb_self _ _ _ _)

theorem State.ariseIf_keepsObjects (s : State) (n : Nat) :
    (s.ariseIf n).keepsObjects s [Obj.FLT_FAULTN, Obj.FLT_ACTIVE, Obj.FLT_LATCHED, Obj.FLT_COND_CNT n] := by
  unfold State.ariseIf
  split
  · exact State.keepsObjects_refl s _
  · exact State.keepsObjects_trans (State.keepsObjects_mono (State.refreshFaultN_keepsObjects _) (by simp))
      (State.keepsObjects_bump (State.keepsObjects_setOb (State.keepsObjects_setOb (State.keepsObjects_refl s _) (by simp) _ _)
        (by simp) _ _) (by simp))

theorem State.Flagged.memories (h : t.Flagged s) : t.keepsMemories s :=
  ⟨(congrArg State.spm h.frame :), (congrArg State.rankMem h.frame :), (congrArg State.nvm h.frame :)⟩

/-- A power cycle that is asked for shows its cause and function, and condition 19. -/
theorem State.pcycAssert_asserts (s : State) (cause func : Nat) : (s.pcycAssert cause func).o Obj.RST_PCYC = 1 + cause * 2 + func * 16 ∧
    (s.pcycAssert cause func).ob Obj.FLT_ACTIVE 19 = true ∧ (s.pcycAssert cause func).keepsMemories s := by
  unfold State.pcycAssert
  refine ⟨?_, ?_, ?_⟩
  · exact (State.stage_keepsObjects _ _ _ _ _ _ (by decide)).trans
      ((State.ariseIf_keepsObjects _ 19 _ (by decide)).trans (State.o_setO_self _ _ _))
  · exact (State.ob_of_o (State.stage_keepsObjects _ _ _ _ _ _ (by decide))).trans (State.ariseIf_active _ 19)
  · exact ((State.stage_flagged _ _ _ _ _).trans (State.ariseIf_flagged _ 19)).memories

theorem State.pcycRelease_releases (s : State) : s.pcycRelease.o Obj.RST_PCYC = 0 ∧ s.pcycRelease.ob Obj.FLT_ACTIVE 19 = false ∧
    s.pcycRelease.keepsMemories s := by
  unfold State.pcycRelease State.ceases
  refine ⟨?_, ?_, ?_⟩
  · exact (State.refreshFaultN_keepsObjects _ _ (by decide)).trans ((State.o_setO_ne _ _ (by decide)).trans (State.o_setO_self _ _ _))
  · exact (State.ob_of_o (State.refreshFaultN_keepsObjects _ _ (by decide))).trans (State.ob_setOb_self _ _ _ _)
  · exact State.keepsMemories_trans (State.refreshFaultN_linkFrame _).memories ⟨rfl, rfl, rfl⟩

theorem State.unparking_unpark (s : State) : s.unpark.power.unparking = true := by
  have hdown (v : State) (p : Prop) [Decidable p] : (if p then v.northDown true else v).LinkFrame v := .ite (v.northDown_linkFrame true) (.refl v)
  unfold State.unpark
  dsimp only
  rw [((State.follow_linkFrame _).trans (hdown _ _)).powerUnit]

/-- A request that is only answered. -/
theorem answered_runs {ci : Instr} {st : Status} {b body : List Byte} {m : Nat} (hs : s.servedFor q = true)
    (hexec : exec ci s = .next (s.ifRequest q t)) (h : t = s.respond q m st b) (hb : b = body) :
    Runs ci s (·.onlyAnswered s q m st body) :=
  request_runs hs hexec (h ▸ hb ▸ State.respond_only s q m st b)

/-- What a refused restart command leaves to follow its response: nothing. -/
theorem State.restartAfter_respond (h : s.cufel.after = none) (m : Nat) (st : Status) (b : List Byte) :
    (s.respond q m st b).restartAfter = s.respond q m st b :=
  if_neg (by rw [State.after_respond, h]; simp)

theorem State.after_of_served (hs : s.servedFor q = true) : s.cufel.after = none := by
  simp only [State.servedFor, State.served, Bool.and_eq_true, Option.isNone_iff_eq_none] at hs
  exact hs.1.2

/-- Nothing follows any more. -/
def State.nothingAfter (s : State) : State := { s with cufel := { s.cufel with after := none } }

theorem State.restartAfter_restarted (h : s.cufel.after = some .restart) : s.restartAfter.Restarted s.nothingAfter 4 := by
  have hrestart : s.restartAfter = s.nothingAfter.supvRestart 4 0 := if_pos h
  rw [hrestart]
  exact s.nothingAfter.supvRestart_restarted 4 0

theorem State.answers_nothingAfter {m : Nat} {st : Status} {b : List Byte} (h : s.answers q m st b) : s.nothingAfter.answers q m st b := by
  obtain ⟨x, hx, hrest⟩ := h
  refine ⟨x, ?_, hrest⟩
  cases hp : q.path <;> rw [hp] at hx <;> exact hx

/-- An accepted restart command restarts the supervisor behind its response. -/
theorem State.restartAfter_restarts (ha : s.cufel.after = some .restart) {b : List Byte} (hb : s.answers q 0x08 .ok b)
    {n : Nat} (hn : s.o Obj.RST_SUPV = n) : s.restartAfter.answers q 0x08 .ok b ∧ s.restartAfter.cufel.down = true ∧
      s.restartAfter.cufel.sessions = [] ∧ s.restartAfter.cufel.transfers = [] ∧ s.restartAfter.o Obj.RST_SUPV_CAUSE = 4 ∧
      s.restartAfter.o Obj.RST_SUPV = satAdd 32 n 1 := by
  have h := State.restartAfter_restarted ha
  subst hn
  exact ⟨h.answers (State.answers_nothingAfter hb), congrArg Cufel.down h.cufel, congrArg Cufel.sessions h.cufel,
    congrArg Cufel.transfers h.cufel, h.cause, h.count⟩

theorem restart_runs {ci : Instr} {P : State → Prop} (hs : s.servedFor q = true) (hexec : exec ci s = .next (s.ifRequest q t.restartAfter))
    (h : t = u) (hP : P u.restartAfter) : Runs ci s P :=
  request_runs hs hexec (h ▸ hP)

/-- A request that acts and is then answered. -/
theorem accepted_runs {ci : Instr} {P : State → Prop} {m : Nat} {st : Status} {b body : List Byte} (hs : s.servedFor q = true)
    (hexec : exec ci s = .next (s.ifRequest q t)) (h : t = u.respond q m st b) (hb : b = body) (hP : P (u.respond q m st body)) :
    Runs ci s P :=
  request_runs hs hexec (h ▸ hb ▸ hP)

theorem State.parkCheck_ok (hr : s.inRun = true) (hp : s.power.parking = none) (hi : s.power.reinit = []) : s.parkCheck = .ok :=
  if_pos ⟨hr, hp, hi⟩

theorem State.reinitCheck_ok {f : Nat} (hf : f ≤ 9) (hr : s.inRun = true) (hp : s.power.parking = none) (ho : s.roleOff f = false)
    (hi : f ∉ s.power.reinit) : s.reinitCheck f = .ok := by
  unfold State.reinitCheck
  rw [if_neg (by omega), if_pos (by simp [hr, hp, ho, hi])]

theorem BitVec.toNat_ne_zero {n : Nat} {v : BitVec n} (h : v ≠ 0) : v.toNat ≠ 0 := fun e => h (BitVec.eq_of_toNat_eq (by simpa using e))

/-- Settles O43: each command is one function command, decided by the first check that it does not pass. -/
theorem functionCommandsAreJudged : Obligations.FunctionCommandsAreJudged := by
  unfold Obligations.FunctionCommandsAreJudged
  intro q key arg inTime func cmd c s hs
  have hbody : ∀ cm : BitVec 8, cmdBody 0x80 cm.toNat 0 = [0x80, cm] ++ bytesLE 4 0 := fun cm => cmdBody_toNat 0x80 cm 0
  have hany : cmdBody func.toNat cmd.toNat 0 = [func, cmd] ++ bytesLE 4 0 := cmdBody_toNat func cmd 0
  have hreinit : cmdBody func.toNat 0x01 0 = [func, 0x01] ++ bytesLE 4 0 := cmdBody_toNat func 1 0
  have hafter := State.after_of_served hs
  refine ⟨fun hlen => ⟨?_, ?_, ?_⟩, fun hlen => ⟨fun harg => ⟨?_, ?_, ?_⟩, fun hbad => ?ranges, fun hx => ?expert,
    fun hx hl => ⟨?_, ?_⟩, fun hx hl hc => ⟨fun hbad => ?wrongKey, fun ht hu hk => ?rightKey⟩, fun hx => ?judged, fun hf => ?_,
    fun hf => ?clears, fun hbad => ?_⟩⟩
  · exact answered_runs hs rfl (State.functionCmd_length hlen) (hbody 0x10)
  · exact answered_runs hs rfl (State.functionCmd_length hlen) (hbody 0x11)
  · exact answered_runs hs rfl (State.functionCmd_length hlen) hany

  · exact answered_runs hs rfl (State.functionCmd_range hlen (.inl (BitVec.toNat_ne_zero harg))) (hbody 0x10)
  · exact answered_runs hs rfl (State.functionCmd_range hlen (.inl (BitVec.toNat_ne_zero harg))) (hbody 0x14)
  · refine answered_runs hs rfl ?_ (hbody 0x13)
    rw [State.functionCmd_range hlen (.inl (BitVec.toNat_ne_zero harg)), State.restartAfter_respond hafter]
    rfl
  case ranges =>
    have hbad' : arg.toNat ≠ 0 ∨ (false = false ∧ key.toNat ≠ 0) :=
      hbad.imp BitVec.toNat_ne_zero fun h => ⟨rfl, BitVec.toNat_ne_zero h⟩
    exact ⟨answered_runs hs rfl (State.functionCmd_range hlen hbad') (hbody 0x11),
      answered_runs hs rfl (State.functionCmd_range hlen hbad') (hbody 0x12),
      answered_runs hs rfl (State.functionCmd_range hlen hbad') (hbody 0x15),
      answered_runs hs rfl (State.functionCmd_range hlen hbad') hreinit,
      answered_runs hs rfl (State.functionCmd_range hlen hbad') hany⟩
  case expert =>
    refine ⟨answered_runs hs rfl (State.functionCmd_expert hlen (.inl rfl) hx) (hbody 0x10),
      answered_runs hs rfl (State.functionCmd_expert hlen (.inl rfl) hx) (hbody 0x14), ?_,
      answered_runs hs rfl (State.functionCmd_expert hlen (.inr rfl) hx) (hbody 0x11),
      answered_runs hs rfl (State.functionCmd_expert hlen (.inr rfl) hx) (hbody 0x12),
      answered_runs hs rfl (State.functionCmd_expert hlen (.inr rfl) hx) (hbody 0x15), fun hf => ?_⟩
    · exact answered_runs hs rfl ((congrArg State.restartAfter (State.functionCmd_expert hlen (.inl rfl) hx)).trans
        (State.restartAfter_respond hafter _ _ _)) (hbody 0x13)
    · refine request_runs hs (t := s.functionCmd q func.toNat 0x01 0 0 (decide (func.toNat ≤ 9)) false true
        (fun t => t.reinitCheck func.toNat) fun t => (t.reinit func.toNat none, 0)) rfl ?_
      rw [decide_eq_true (show func.toNat ≤ 9 from hf), State.functionCmd_expert hlen (.inr rfl) hx, hreinit]
      exact State.respond_only _ _ _ _ _
  · exact answered_runs hs rfl (State.functionCmd_locked hlen hx hl) (hbody 0x10)
  · exact answered_runs hs rfl ((congrArg State.restartAfter (State.functionCmd_locked hlen hx hl)).trans
      (State.restartAfter_respond hafter _ _ _)) (hbody 0x13)
  case wrongKey =>
    obtain ⟨hcount, hkeep⟩ := s.keyMissed_counts q c
    refine accepted_runs hs rfl (State.functionCmd_wrongKey hlen hx hl hc hbad) (hbody 0x14) ⟨State.respond_answers _ _ _ _ _, ?_, ?_, ?_, ?_⟩
    · rw [State.challengeOf_respond, State.challengeOf_keyMissed hc]
      simp
    · rw [State.o_respond _ q _ _ _ (State.aliveKey (by decide)), hcount]
    · rw [State.o_respond _ q _ _ _ (State.aliveKey (by decide)), hkeep _ (by decide)]
    · exact State.keepsObjects_respond (State.keepsObjects_mono hkeep (by simp)) _ _ _ _ (by simp) (by simp)
  case rightKey =>
    subst ht
    refine ⟨?_, ?_, ?_⟩
    · have hact (b : List Byte) : (((s.keyAccepted q c).actAfter .reset).respond q 0x08 .ok b).cufel.after = some .reset :=
        State.after_respond _ _ _ _ _
      refine accepted_runs hs rfl (State.functionCmd_rightKey hlen hx hl hc hu hk) (hbody 0x10)
        ⟨State.respond_answers _ _ _ _ _, hact _, ?_, State.keepsObjects_respond (fun _ _ => rfl) _ _ _ _ (by simp) (by simp)⟩
      unfold State.served
      rw [hact]
      simp
    · obtain ⟨hreq, hcond, hmem⟩ := (s.keyAccepted q c).pcycAssert_asserts 3 0
      refine accepted_runs hs rfl (State.functionCmd_rightKey hlen hx hl hc hu hk) (hbody 0x14)
        ⟨State.respond_answers _ _ _ _ _, ?_, ?_, State.keepsMemories_respond (State.keepsMemories_trans hmem ⟨rfl, rfl, rfl⟩) _ _ _ _⟩
      · exact (State.o_respond _ q _ _ _ (State.aliveKey (by decide))).trans hreq
      · exact (State.ob_of_o (State.o_respond _ q _ _ _ (State.aliveKey (by decide)))).trans hcond
    · refine restart_runs hs rfl (State.functionCmd_rightKey hlen hx hl hc hu hk) ?_
      refine State.restartAfter_restarts (State.after_respond _ _ _ _ _) (hbody 0x13 ▸ State.respond_answers _ _ _ _ _) ?_
      exact State.o_respond _ q _ _ _ (State.aliveKey (by decide))
  case judged =>
    have hlevel : true = true → s.isExpert q = true := fun _ => hx
    refine ⟨fun hr hp hi => ?_, fun hbad => ?_, fun hp hrole => ?_, fun hbad => ?_, ?_, fun hf hbad => ?_, fun hf hr hp ho hi => ?_⟩
    · refine accepted_runs hs rfl ((State.functionCmd_unkeyed hlen hlevel).trans (if_pos (State.parkCheck_ok hr hp hi)))
        (cmdBody_toNat 0x80 0x11 _) ⟨State.respond_answers _ _ _ _ _, ?_, ?_, ?_⟩
      · simp [State.park]
      · exact State.o_respond _ q _ _ _ (State.aliveKey (by decide))
      · exact State.keepsObjects_respond (fun _ _ => rfl) _ _ _ _ (by simp) (by simp)
    · have hcheck : s.parkCheck = .functionRunning := if_neg fun ⟨hr, hp, hi⟩ => by
        rcases hbad with h | h | h
        · exact Bool.false_ne_true (h.symm.trans hr)
        · exact h hp
        · exact h hi
      exact answered_runs hs rfl ((State.functionCmd_unkeyed hlen hlevel).trans (by rw [hcheck]; rfl)) (hbody 0x11)
    · refine accepted_runs hs rfl ((State.functionCmd_unkeyed hlen hlevel).trans (if_pos (if_pos ⟨hp, hrole⟩))) (hbody 0x12)
        ⟨State.respond_answers _ _ _ _ _, ?_⟩
      simpa using s.unparking_unpark
    · have hcheck : s.unparkCheck = .functionRunning := if_neg fun ⟨hp, hrole⟩ => hbad.elim (fun h => h hp) hrole
      exact answered_runs hs rfl ((State.functionCmd_unkeyed hlen hlevel).trans (by rw [hcheck]; rfl)) (hbody 0x12)
    · obtain ⟨hreq, hcond, hmem⟩ := s.pcycRelease_releases
      refine accepted_runs hs rfl ((State.functionCmd_unkeyed hlen hlevel).trans (if_pos rfl)) (hbody 0x15)
        ⟨State.respond_answers _ _ _ _ _, ?_, ?_, State.keepsMemories_respond hmem _ _ _ _⟩
      · exact (State.o_respond _ q _ _ _ (State.aliveKey (by decide))).trans hreq
      · exact (State.ob_of_o (State.o_respond _ q _ _ _ (State.aliveKey (by decide)))).trans hcond
    · exact answered_runs hs rfl ((State.functionCmd_unkeyed hlen fun _ => hx).trans (if_neg hbad)) hreinit
    · exact accepted_runs hs rfl ((State.functionCmd_unkeyed hlen fun _ => hx).trans (if_pos (State.reinitCheck_ok hf hr hp ho hi))) hreinit
        ⟨State.respond_answers _ _ _ _ _, State.keepsMemories_respond (s.reinit_keepsMemories _ _) _ _ _ _⟩
  · have hnot : ¬ func.toNat ≤ 9 := by
      have : 9 < func.toNat := hf
      omega
    have hcheck : s.reinitCheck func.toNat = .outOfRange := if_pos (by omega)
    exact answered_runs hs rfl ((State.functionCmd_unkeyed hlen fun h => absurd (of_decide_eq_true h) hnot).trans
      (by rw [hcheck]; rfl)) hreinit
  case clears =>
    have hstatus : Obj.REC_STATUS func.toNat ≠ Obj.CHK_ALIVE_TXN ∧ Obj.REC_STATUS func.toNat ≠ Obj.CHK_ALIVE_TXC := by
      simp only [Obj.REC_STATUS, Obj.CHK_ALIVE_TXN, Obj.CHK_ALIVE_TXC, objKey]
      omega
    refine accepted_runs hs rfl ((State.functionCmd_unkeyed hlen fun h => absurd h (by decide)).trans (if_pos (if_pos ⟨hf, rfl⟩)))
      (cmdBody_toNat func 2 0) ⟨?_, State.respond_answers _ _ _ _ _, ?_, State.keepsMemories_respond ⟨rfl, rfl, rfl⟩ _ _ _ _⟩
    · exact (State.o_respond _ q _ _ _ (State.aliveKey hstatus)).trans (State.o_setO_self _ _ _)
    · exact State.keepsObjects_respond (State.keepsObjects_setO (State.keepsObjects_refl s _) (by simp) _) _ _ _ _ (by simp) (by simp)
  · have hcheck : ¬ (func.toNat ≤ 9 ∧ cmd = 2) := fun ⟨hf, hc⟩ => hbad.elim (fun (h : 9 < func.toNat) => by omega) fun h => h hc
    exact answered_runs hs rfl ((State.functionCmd_unkeyed hlen (fun h => absurd h (by decide))).trans
      (by rw [if_neg hcheck]; rfl)) hany

end Sys2Proof.Machine
end

section
/-! SUPPORT. A commanded reset while one feed is lost (R526, R550). -/
namespace Sys2Proof.Machine

/-- A device in service that has lost feed A and draws from feed B, with a RESET accepted. -/
def resettingOnFeedB : State :=
  let s := (((State.reset.setO Obj.PWR_STATE 3).setO Obj.CLK_STATE 3).setO Obj.PWR_FEEDS 0b1110).setOb Obj.FLT_ACTIVE 2 true
  { s with power := { s.power with lostA := true }, cufel := { s.cufel with after := some .reset } }

/-- Its clocks run, it has the canonical form, and after the reset condition 2 has been counted. -/
theorem resettingOnFeedB_resets : resettingOnFeedB.wf = true ∧ resettingOnFeedB.awake = true ∧ resettingOnFeedB.cufel.after = some .reset ∧
    (resettingOnFeedB.deviceReset 4).o (Obj.FLT_COND_CNT 2) = 1 ∧ State.reset.o (Obj.FLT_COND_CNT 2) = 0 := by
  decide +kernel

/-- Refutes O45: its clause lists the counts of conditions 1 and 19 among the objects a reset may leave, but not that of condition 2,
which holds and counts anew after the reset while a feed is still lost (R550; log entry 159). -/
theorem not_bootsParksAndCommandedResetsEnd : ¬ Obligations.BootsParksAndCommandedResetsEnd := by
  unfold Obligations.BootsParksAndCommandedResetsEnd
  intro h
  obtain ⟨-, hawake, hafter, hcount, hzero⟩ := resettingOnFeedB_resets
  obtain ⟨-, hreset⟩ := h.2 resettingOnFeedB hawake
  obtain ⟨t, ht, -, -, -, -, -, -, -, -, -, -, -, -, -, -, -, -, -, -, -, -, hkeeps⟩ := hreset hafter
  have hcommand : resettingOnFeedB.commandReset = t := (State.ifAwake_of hawake).symm.trans (Host.Outcome.next.inj ht)
  have hdevice : resettingOnFeedB.commandReset = resettingOnFeedB.deviceReset 4 := if_pos hafter
  have hsame := hkeeps (Obj.FLT_COND_CNT 2) (by decide)
  rw [← hcommand, hdevice, hcount, hzero] at hsame
  exact absurd hsame (by decide)

end Sys2Proof.Machine
end

section
/-! SUPPORT. What a device reset keeps and what it starts from (R518, R519, R525, R526). -/
namespace Sys2Proof.Machine

variable {s t : State} {k cause : Nat}

/-! ### The lifetime log's restoration (R558) -/

/-- The objects that the lifetime log restores. -/
def lifeKeys : List Nat :=
  [Obj.FLT_LIFE_BAD, Obj.FLT_LIFE_HOURS, Obj.NV_STORES_A, Obj.NV_STORES_B, Obj.NV_REFRESHES, Obj.FLT_LIFE_NEXT]

/-- The powered hours that a record restores. -/
def State.withHours (s : State) (h : Nat) : State := { s with nv := { s.nv with hours := h } }

/-- The records that are no use are counted, and the newest whole one is restored. -/
theorem State.lifeScan_restores (s : State) : ∃ bad, s.lifeScan = s.setO Obj.FLT_LIFE_BAD bad ∨ ∃ h a b c n, s.lifeScan =
    ((((((s.setO Obj.FLT_LIFE_BAD bad).withHours h).setO Obj.FLT_LIFE_HOURS h).setO Obj.NV_STORES_A a).setO Obj.NV_STORES_B b).setO
      Obj.NV_REFRESHES c).setO Obj.FLT_LIFE_NEXT n := by
  unfold State.lifeScan
  dsimp only
  split
  · exact ⟨_, .inr ⟨_, _, _, _, _, rfl⟩⟩
  · exact ⟨_, .inl rfl⟩

theorem State.lifeScan_keepsObjects (s : State) : s.lifeScan.keepsObjects s lifeKeys := by
  have hbad (n : Nat) : (s.setO Obj.FLT_LIFE_BAD n).keepsObjects s lifeKeys := State.keepsObjects_setO (State.keepsObjects_refl s _) (by decide) n
  obtain ⟨bad, h | ⟨h, a, b, c, n, hall⟩⟩ := s.lifeScan_restores
  · rw [h]
    exact hbad bad
  · have hhours : ((s.setO Obj.FLT_LIFE_BAD bad).withHours h).keepsObjects s lifeKeys := hbad bad
    rw [hall]
    exact State.keepsObjects_setO (State.keepsObjects_setO (State.keepsObjects_setO (State.keepsObjects_setO (State.keepsObjects_setO
      hhours (by decide) _) (by decide) _) (by decide) _) (by decide) _) (by decide) _

/-- Outside objects only the powered hours are restored. -/
theorem State.lifeScan_eq (s : State) : ∃ l h, s.lifeScan = { s with obj := l, nv := { s.nv with hours := h } } := by
  obtain ⟨bad, h | ⟨h, a, b, c, n, hall⟩⟩ := s.lifeScan_restores
  · exact ⟨_, s.nv.hours, h⟩
  · exact ⟨_, h, hall⟩

/-! ### The reset state (R525, R526) -/

/-- The reset state before the kept objects and the lifetime log. -/
def State.coldBase (s : State) : State :=
  { State.reset with
    pending := s.pending
    free := s.free
    tick := s.tick
    out := s.out
    line := { seen := s.out.length }
    nvm := s.nvm
    plinth := s.plinth
    power := { lostA := s.power.lostA, lostB := s.power.lostB, rstN := s.power.rstN, resetTick := s.tick }
    frz := { number := s.frz.number, ball := s.frz.ball }
    nv := { s.nv with refresh := none, wrote := [] }
    memUnit := { sweepNext := s.memUnit.sweepNext } }

/-- Objects that take their values from another state. -/
theorem State.foldl_setO_from (s : State) (l : List Nat) (v : State) : ∃ ob, l.foldl (fun r k => r.setO k (s.o k)) v = { v with obj := ob } := by
  induction l generalizing v with
  | nil => exact ⟨_, rfl⟩
  | cons j l ih => exact (ih _).imp fun _ h => h

theorem State.o_foldl_setO_from (s : State) (l : List Nat) (v : State) (k : Nat) :
    (l.foldl (fun r k => r.setO k (s.o k)) v).o k = if k ∈ l then s.o k else v.o k := by
  induction l generalizing v with
  | nil => rfl
  | cons j l ih =>
    rw [List.foldl_cons, ih]
    by_cases hl : k ∈ l
    · simp [hl]
    · by_cases hj : k = j
      · simp [hj, State.o_setO_self]
      · simp [hl, hj, State.o_setO_ne]

theorem State.cold_eq (s : State) : ∃ ob h, s.cold = { s.coldBase with obj := ob, nv := { s.coldBase.nv with hours := h } } := by
  obtain ⟨ob, hob⟩ := s.foldl_setO_from keptObjects s.coldBase
  have hcold : s.cold = (keptObjects.foldl (fun r k => r.setO k (s.o k)) s.coldBase).lifeScan := rfl
  rw [hcold, hob]
  obtain ⟨l, h, hl⟩ := State.lifeScan_eq { s.coldBase with obj := ob }
  exact ⟨l, h, hl⟩

/-- The plinth's objects and those of the supplies keep their values. -/
theorem State.o_cold_kept (s : State) (hk : k ∈ keptObjects) : s.cold.o k = s.o k := by
  have hlife : ∀ j ∈ keptObjects, j ∉ lifeKeys := by decide
  have hcold : s.cold = (keptObjects.foldl (fun r k => r.setO k (s.o k)) s.coldBase).lifeScan := rfl
  rw [hcold, State.lifeScan_keepsObjects _ _ (hlife k hk), State.o_foldl_setO_from, if_pos hk]

/-- Every other object that the lifetime log does not restore reads its default. -/
theorem State.o_cold_default (s : State) (hk : k ∉ keptObjects) (hl : k ∉ lifeKeys) : s.cold.o k = State.reset.o k := by
  have hcold : s.cold = (keptObjects.foldl (fun r k => r.setO k (s.o k)) s.coldBase).lifeScan := rfl
  rw [hcold, State.lifeScan_keepsObjects _ _ hl, State.o_foldl_setO_from, if_neg hk]
  rfl

/-- What a reset leaves outside the objects: the plinth, the NVM, the queue, the tick and RST_N; the volatile memories are empty. -/
structure State.ColdFrame (t s : State) : Prop where
  plinth : t.plinth = s.plinth
  nvm : t.nvm = s.nvm
  torn : t.nv.torn = s.nv.torn
  pending : t.pending = s.pending
  tick : t.tick = s.tick
  rstN : t.power.rstN = s.power.rstN
  faults : t.power.faults = []
  spm : t.spm = []

theorem State.cold_frame (s : State) : s.cold.ColdFrame s := by
  obtain ⟨ob, h, hc⟩ := s.cold_eq
  rw [hc]
  exact ⟨rfl, rfl, rfl, rfl, rfl, rfl, rfl, rfl⟩

/-! ### The conditions that outlast it (R526, R550) -/

/-- The objects that a standing condition shows in. -/
def standingKeys : List Nat :=
  [Obj.FLT_FAULTN, Obj.FLT_ACTIVE, Obj.FLT_LATCHED, Obj.FLT_COND_CNT 2, Obj.FLT_COND_CNT 19, Obj.FLT_COND_CNT 1]

theorem State.ariseIf_keepsButObjects (s : State) (n : Nat) : (s.ariseIf n).keepsButObjects s := by
  unfold State.ariseIf
  split
  · exact s.keepsButObjects_refl
  · exact State.keepsButObjects_trans (State.refreshFaultN_keepsButObjects _) (State.keepsButObjects_bump
      (State.keepsButObjects_setO (State.keepsButObjects_setO s.keepsButObjects_refl _ _) _ _) _)

theorem State.standing_keepsObjects (s : State) : s.standing.keepsObjects s standingKeys := by
  have hraise (v : State) (n : Nat) (hn : Obj.FLT_COND_CNT n ∈ standingKeys) (p : Prop) [Decidable p] :
      (if p then v.ariseIf n else v).keepsObjects v standingKeys := by
    split
    · refine State.keepsObjects_mono (v.ariseIf_keepsObjects n) fun k hk => ?_
      simp only [List.mem_cons, List.not_mem_nil, or_false] at hk
      rcases hk with rfl | rfl | rfl | rfl
      · decide
      · decide
      · decide
      · exact hn
    · exact State.keepsObjects_refl v _
  exact State.keepsObjects_trans (hraise _ 1 (by decide) _) (State.keepsObjects_trans (hraise _ 19 (by decide) _) (hraise s 2 (by decide) _))

theorem State.standing_keepsButObjects (s : State) : s.standing.keepsButObjects s := by
  have hraise (v : State) (n : Nat) (p : Prop) [Decidable p] : (if p then v.ariseIf n else v).keepsButObjects v := by
    split
    · exact v.ariseIf_keepsButObjects n
    · exact v.keepsButObjects_refl
  exact State.keepsButObjects_trans (hraise _ 1 _) (State.keepsButObjects_trans (hraise _ 19 _) (hraise s 2 _))

theorem State.ColdFrame.objects (h : t.ColdFrame s) {u : State} (hu : u.keepsButObjects t) : u.ColdFrame s where
  plinth := (congrArg State.plinth hu :).trans h.plinth
  nvm := (congrArg State.nvm hu :).trans h.nvm
  torn := (congrArg (fun v : State => v.nv.torn) hu :).trans h.torn
  pending := (congrArg State.pending hu :).trans h.pending
  tick := (congrArg State.tick hu :).trans h.tick
  rstN := (congrArg (fun v : State => v.power.rstN) hu :).trans h.rstN
  faults := (congrArg (fun v : State => v.power.faults) hu :).trans h.faults
  spm := (congrArg State.spm hu :).trans h.spm

/-! ### A device reset (R525, R528) -/

theorem State.deviceReset_frame (s : State) (cause : Nat) : (s.deviceReset cause).ColdFrame s :=
  s.cold_frame.objects (State.keepsButObjects_trans (State.standing_keepsButObjects _)
    (State.keepsButObjects_bump (State.keepsButObjects_setO s.cold.keepsButObjects_refl _ _) _))

theorem State.deviceReset_causes (s : State) (cause : Nat) : (s.deviceReset cause).o Obj.RST_CAUSE = cause ∧
    (s.deviceReset cause).o Obj.RST_COUNT = satAdd 32 (s.o Obj.RST_COUNT) 1 := by
  unfold State.deviceReset
  constructor
  · rw [State.standing_keepsObjects _ _ (by decide), State.o_bump_ne _ (by decide), State.o_setO_self]
  · rw [State.standing_keepsObjects _ _ (by decide), State.o_bump_self, State.o_setO_ne _ _ (by decide), s.o_cold_kept (by decide)]

theorem State.o_deviceReset (s : State) (cause : Nat) (hk : k ∉ Obj.RST_CAUSE :: Obj.RST_COUNT :: standingKeys) :
    (s.deviceReset cause).o k = s.cold.o k := by
  simp only [List.mem_cons, not_or] at hk
  obtain ⟨hcause, hcount, hstanding⟩ := hk
  unfold State.deviceReset
  rw [State.standing_keepsObjects _ _ (by simpa only [List.mem_cons, not_or] using hstanding), State.o_bump_ne _ hcount,
    State.o_setO_ne _ _ hcause]

theorem State.o_deviceReset_kept (s : State) (cause : Nat) (hk : k ∈ keptObjects) (hne : k ∉ [Obj.RST_CAUSE, Obj.RST_COUNT]) :
    (s.deviceReset cause).o k = s.o k := by
  have hstanding : ∀ j ∈ keptObjects, j ∉ standingKeys := by decide
  simp only [List.mem_cons, List.not_mem_nil, or_false, not_or] at hne
  rw [s.o_deviceReset cause (by simp [hne.1, hne.2, hstanding k hk]), s.o_cold_kept hk]

theorem State.deviceReset_boots (s : State) (cause : Nat) : (s.deviceReset cause).o Obj.PWR_STATE = 1 := by
  rw [s.o_deviceReset cause (by decide), s.o_cold_default (by decide) (by decide)]
  decide

end Sys2Proof.Machine
end

section
/-! SUPPORT. Feeds, rails and RST_N (R515 to R520, R527, R588, R591). -/
namespace Sys2Proof.Machine

variable {s t : State} {f : Feed}

/-! ### The feeds' bits (R515) -/

/-- The other feed. -/
def otherFeed (f : Feed) : Feed := if f = .a then .b else .a

theorem feedBit_ne (f : Feed) : feedBit f ≠ 2 ∧ feedBit f ≠ 3 := by cases f <;> decide

theorem feedBit_other (f : Feed) : feedBit (otherFeed f) ≠ feedBit f := by cases f <;> decide

theorem State.feedGood_of_o (h : t.o Obj.PWR_FEEDS = s.o Obj.PWR_FEEDS) (f : Feed) : t.feedGood f = s.feedGood f := State.ob_of_o h

theorem State.feedGood_setOb (s : State) (f : Feed) {n : Nat} (h : feedBit f ≠ n) (b : Bool) :
    (s.setOb Obj.PWR_FEEDS n b).feedGood f = s.feedGood f := State.ob_setOb_ne s b h

/-- With one feed good that is not the other one, none is good. -/
theorem State.firstFeed_iff (s : State) (h : s.feedGood f = false) :
    (!s.feedGood .a && !s.feedGood .b) = !s.feedGood (otherFeed f) := by
  cases f <;> simp [otherFeed, h]

/-! ### The first feed (R518, R519, R525, R588, R591) -/

/-- A plinth that had lost its contents is noted, and holds again. -/
def State.plinthBack (s : State) (lost : Bool) : State :=
  if lost then { s.setOb Obj.PWR_SUPPLY_EVT 3 true with plinth := { s.plinth with lost := false } } else s

theorem State.o_plinthBack (s : State) (lost : Bool) {k : Nat} (hk : k ≠ Obj.PWR_SUPPLY_EVT) : (s.plinthBack lost).o k = s.o k := by
  cases lost
  · rfl
  · exact State.o_setO_ne s _ hk

theorem State.plinthBack_held {lost : Bool} (h : s.plinth.lost = lost) : (s.plinthBack lost).plinth.lost = false := by
  cases lost
  · exact h
  · rfl

theorem State.plinthBack_eq (s : State) (lost : Bool) : ∃ ob p, s.plinthBack lost = { s with obj := ob, plinth := p } := by
  cases lost <;> exact ⟨_, _, rfl⟩

/-- No feed is missed any more. -/
def State.feedsBack (s : State) : State := { s with power := { s.power with lostA := false, lostB := false } }

/-- The device as the first feed finds it, before its standing conditions. -/
def State.poweredFrom (s : State) (lost : Bool) (f : Feed) : State :=
  ((((s.setO Obj.RST_CAUSE (if lost then 2 else 1)).bump Obj.RST_COUNT).plinthBack lost).feedsBack).drawFrom f

/-- The device as the first feed starts it. -/
def State.poweredUp (s : State) (f : Feed) : State := s.cold.poweredFrom s.plinth.lost f

theorem State.poweredFrom_keeps (s : State) (lost : Bool) (f : Feed) : (s.poweredFrom lost f).spm = s.spm ∧
    (s.poweredFrom lost f).nvm = s.nvm ∧ (s.poweredFrom lost f).pending = s.pending ∧ (s.poweredFrom lost f).tick = s.tick := by
  cases lost <;> exact ⟨rfl, rfl, rfl, rfl⟩

theorem State.poweredFrom_held {lost : Bool} (h : s.plinth.lost = lost) (f : Feed) : (s.poweredFrom lost f).plinth.lost = false :=
  State.plinthBack_held (s := (s.setO Obj.RST_CAUSE (if lost then 2 else 1)).bump Obj.RST_COUNT) h

theorem State.powerUp_eq (s : State) (f : Feed) : s.powerUp f = (s.poweredUp f).standing := by
  unfold State.powerUp State.poweredUp State.poweredFrom
  rfl

theorem State.o_poweredUp (s : State) (f : Feed) {k : Nat} (hk : k ∉ [Obj.RST_CAUSE, Obj.RST_COUNT, Obj.PWR_SUPPLY_EVT, Obj.PWR_FEEDS]) :
    (s.poweredUp f).o k = s.cold.o k := by
  simp only [List.mem_cons, List.not_mem_nil, or_false, not_or] at hk
  obtain ⟨hcause, hcount, hevent, hfeeds⟩ := hk
  calc (s.poweredUp f).o k
    _ = (((s.cold.setO Obj.RST_CAUSE (if s.plinth.lost then 2 else 1)).bump Obj.RST_COUNT).plinthBack s.plinth.lost).o k :=
      State.o_setO_ne _ _ hfeeds
    _ = ((s.cold.setO Obj.RST_CAUSE (if s.plinth.lost then 2 else 1)).bump Obj.RST_COUNT).o k := State.o_plinthBack _ _ hevent
    _ = s.cold.o k := (State.o_bump_ne _ hcount).trans (State.o_setO_ne _ _ hcause)

theorem State.poweredUp_supply (s : State) (f : Feed) : (s.poweredUp f).o Obj.PWR_FEEDS = setBit (s.o Obj.PWR_FEEDS) 2 (f == Feed.b) ∧
    (s.poweredUp f).o Obj.RST_CAUSE = (if s.plinth.lost then 2 else 1) ∧
    (s.poweredUp f).o Obj.RST_COUNT = satAdd 32 (s.o Obj.RST_COUNT) 1 := by
  have hback {k : Nat} (hk : k ≠ Obj.PWR_SUPPLY_EVT) (v : State) : ((v.plinthBack s.plinth.lost).feedsBack).o k = v.o k :=
    State.o_plinthBack v _ hk
  unfold State.poweredUp State.poweredFrom State.drawFrom
  refine ⟨?_, ?_, ?_⟩
  · refine (State.o_setO_self _ _ _).trans (congrArg (setBit · 2 (f == Feed.b)) ?_)
    rw [hback (by decide), State.o_bump_ne _ (by decide), State.o_setO_ne _ _ (by decide), s.o_cold_kept (by decide)]
  · refine (State.o_setO_ne _ _ (by decide)).trans ?_
    rw [hback (by decide), State.o_bump_ne _ (by decide), State.o_setO_self]
  · refine (State.o_setO_ne _ _ (by decide)).trans ?_
    rw [hback (by decide), State.o_bump_self, State.o_setO_ne _ _ (by decide), s.o_cold_kept (by decide)]

/-- The first feed starts the device from the beginning. -/
structure State.PoweredUp (t s : State) (f : Feed) : Prop where
  state : t.o Obj.PWR_STATE = 1
  steps : t.o Obj.PWR_BOOT_STEP = 0
  clock : t.o Obj.CLK_STATE = 0
  feeds : t.o Obj.PWR_FEEDS = setBit (s.o Obj.PWR_FEEDS) 2 (f == Feed.b)
  cause : t.o Obj.RST_CAUSE = if s.plinth.lost then 2 else 1
  count : t.o Obj.RST_COUNT = satAdd 32 (s.o Obj.RST_COUNT) 1
  held : t.plinth.lost = false
  spm : t.spm = []
  nvm : t.nvm = s.nvm
  pending : t.pending = s.pending
  tick : t.tick = s.tick

theorem State.poweredUp_started (s : State) (f : Feed) : (s.poweredUp f).PoweredUp s f := by
  obtain ⟨hfeeds, hcause, hcount⟩ := s.poweredUp_supply f
  have hdefault {k : Nat} (hk : k ∉ [Obj.RST_CAUSE, Obj.RST_COUNT, Obj.PWR_SUPPLY_EVT, Obj.PWR_FEEDS]) (hkept : k ∉ keptObjects)
      (hlife : k ∉ lifeKeys) : (s.poweredUp f).o k = State.reset.o k := (s.o_poweredUp f hk).trans (s.o_cold_default hkept hlife)
  have hcold := s.cold_frame
  obtain ⟨hspm, hnvm, hpending, htick⟩ := s.cold.poweredFrom_keeps s.plinth.lost f
  exact {
    state := (hdefault (by decide) (by decide) (by decide)).trans (by decide)
    steps := (hdefault (by decide) (by decide) (by decide)).trans (by decide)
    clock := (hdefault (by decide) (by decide) (by decide)).trans (by decide)
    feeds := hfeeds, cause := hcause, count := hcount
    held := State.poweredFrom_held (congrArg Plinth.lost hcold.plinth) f
    spm := hspm.trans hcold.spm
    nvm := hnvm.trans hcold.nvm
    pending := hpending.trans hcold.pending
    tick := htick.trans hcold.tick }

theorem State.PoweredUp.objects {u : State} (h : t.PoweredUp s f) (hu : u.keepsButObjects t) (ho : u.keepsObjects t standingKeys) :
    u.PoweredUp s f where
  state := (ho _ (by decide)).trans h.state
  steps := (ho _ (by decide)).trans h.steps
  clock := (ho _ (by decide)).trans h.clock
  feeds := (ho _ (by decide)).trans h.feeds
  cause := (ho _ (by decide)).trans h.cause
  count := (ho _ (by decide)).trans h.count
  held := (congrArg (fun v : State => v.plinth.lost) hu :).trans h.held
  spm := (congrArg State.spm hu :).trans h.spm
  nvm := (congrArg State.nvm hu :).trans h.nvm
  pending := (congrArg State.pending hu :).trans h.pending
  tick := (congrArg State.tick hu :).trans h.tick

theorem State.powerUp_started (s : State) (f : Feed) : ((s.powerUp f).refreshFaultN).PoweredUp s f := by
  rw [State.powerUp_eq]
  have h := (s.poweredUp_started f).objects (State.standing_keepsButObjects _) (State.standing_keepsObjects _)
  exact h.objects (State.refreshFaultN_keepsButObjects _)
    (State.keepsObjects_mono (State.refreshFaultN_keepsObjects _) (by decide))

/-! ### The plinth (R518, R519) -/

theorem State.plinthGone_empty (s : State) : s.plinthGone.keepsObjects s [Obj.RST_CAUSE, Obj.RST_COUNT, Obj.RST_LADDER, Obj.RST_PCYC, Obj.PWR_SUPPLY_EVT] ∧
    (∀ k ∈ [Obj.RST_CAUSE, Obj.RST_COUNT, Obj.RST_LADDER, Obj.RST_PCYC, Obj.PWR_SUPPLY_EVT], s.plinthGone.o k = 0) := by
  have hall (l : List Nat) (v : State) (k : Nat) : (l.foldl (fun t k => t.setO k 0) v).o k = if k ∈ l then 0 else v.o k := by
    induction l generalizing v with
    | nil => rfl
    | cons j l ih =>
      rw [List.foldl_cons, ih]
      by_cases hl : k ∈ l
      · simp [hl]
      · by_cases hj : k = j
        · simp [hj, State.o_setO_self]
        · simp [hl, hj, State.o_setO_ne]
  exact ⟨fun k hk => (hall _ s k).trans (if_neg hk), fun k hk => (hall _ s k).trans (if_pos hk)⟩

/-- Outside objects only the plinth changes. -/
theorem State.plinthGone_eq (s : State) : ∃ ob, s.plinthGone = { s with obj := ob, plinth := { lost := true } } := ⟨_, rfl⟩

theorem State.plinthSupply_held (h : s.o Obj.PWR_STATE ≠ 0 ∨ s.ob Obj.PWR_FEEDS 3 = true) : s.plinthSupply = s :=
  if_neg fun ⟨hoff, hkeep⟩ => h.elim (fun h => h hoff) fun h => Bool.false_ne_true (hkeep.symm.trans h)

theorem State.plinthSupply_gone (h : s.o Obj.PWR_STATE = 0) (hk : s.ob Obj.PWR_FEEDS 3 = false) : s.plinthSupply = s.plinthGone :=
  if_pos ⟨h, hk⟩

/-! ### The last feed (R517, R519, R539) -/

/-- The supply events of the last feed's loss, which ends a request for a power cycle. -/
def State.offNoted (s : State) (f : Feed) : State :=
  let s := ((s.setOb Obj.PWR_SUPPLY_EVT (feedBit f) true).setOb Obj.PWR_SUPPLY_EVT 2 true)
  if s.ob Obj.RST_PCYC 0 then (s.setOb Obj.PWR_SUPPLY_EVT 5 true).setO Obj.RST_PCYC 0 else s

/-- Off, without a feed. -/
def State.offFrom (s : State) : State :=
  ((((s.setO Obj.PWR_STATE 0).setOb Obj.PWR_FEEDS 0 false).setOb Obj.PWR_FEEDS 1 false).setOb Obj.PWR_FEEDS 2 false).feedsBack

theorem State.powerOff_eq (s : State) (f : Feed) : s.powerOff f = ((s.offNoted f).cold.offFrom).plinthSupply.refreshFaultN := by
  unfold State.powerOff State.offNoted State.offFrom State.feedsBack
  dsimp only

theorem State.offNoted_notes (s : State) (f : Feed) : (s.offNoted f).keepsObjects s [Obj.PWR_SUPPLY_EVT, Obj.RST_PCYC] ∧
    (s.offNoted f).keepsButObjects s ∧ (s.offNoted f).ob Obj.PWR_SUPPLY_EVT (feedBit f) = true ∧
    (s.offNoted f).ob Obj.PWR_SUPPLY_EVT 2 = true ∧ (s.offNoted f).o Obj.RST_PCYC % 2 = 0 := by
  have hevents : ((s.setOb Obj.PWR_SUPPLY_EVT (feedBit f) true).setOb Obj.PWR_SUPPLY_EVT 2 true).keepsObjects s [Obj.PWR_SUPPLY_EVT, Obj.RST_PCYC] :=
    State.keepsObjects_setOb (State.keepsObjects_setOb (State.keepsObjects_refl s _) (by simp) _ _) (by simp) _ _
  have hframe : ((s.setOb Obj.PWR_SUPPLY_EVT (feedBit f) true).setOb Obj.PWR_SUPPLY_EVT 2 true).keepsButObjects s :=
    State.keepsButObjects_setO (State.keepsButObjects_setO s.keepsButObjects_refl _ _) _ _
  have hfeed : ((s.setOb Obj.PWR_SUPPLY_EVT (feedBit f) true).setOb Obj.PWR_SUPPLY_EVT 2 true).ob Obj.PWR_SUPPLY_EVT (feedBit f) = true :=
    (State.ob_setOb_ne _ _ (feedBit_ne f).1).trans (State.ob_setOb_self _ _ _ _)
  have hbrown : ((s.setOb Obj.PWR_SUPPLY_EVT (feedBit f) true).setOb Obj.PWR_SUPPLY_EVT 2 true).ob Obj.PWR_SUPPLY_EVT 2 = true :=
    State.ob_setOb_self _ _ _ _
  unfold State.offNoted
  generalize (s.setOb Obj.PWR_SUPPLY_EVT (feedBit f) true).setOb Obj.PWR_SUPPLY_EVT 2 true = v at hevents hframe hfeed hbrown ⊢
  have hbit (n : Nat) (hn : n ≠ 5) : ((v.setOb Obj.PWR_SUPPLY_EVT 5 true).setO Obj.RST_PCYC 0).ob Obj.PWR_SUPPLY_EVT n = v.ob Obj.PWR_SUPPLY_EVT n :=
    (State.ob_of_o (State.o_setO_ne _ _ (by decide))).trans (State.ob_setOb_ne v _ hn)
  dsimp only
  split
  · refine ⟨State.keepsObjects_setO (State.keepsObjects_setOb hevents (by simp) _ _) (by simp) _, hframe, ?_, ?_, ?_⟩
    · exact (hbit _ (by cases f <;> decide)).trans hfeed
    · exact (hbit _ (by decide)).trans hbrown
    · rw [State.o_setO_self]
  · next h =>
    refine ⟨hevents, hframe, hfeed, hbrown, ?_⟩
    simpa [State.ob, bit, Nat.testBit_zero] using h

theorem State.o_feedsBack (s : State) (k : Nat) : s.feedsBack.o k = s.o k := rfl

theorem State.o_offFrom (s : State) {k : Nat} (hk : k ∉ [Obj.PWR_STATE, Obj.PWR_FEEDS]) : s.offFrom.o k = s.o k := by
  simp only [List.mem_cons, List.not_mem_nil, or_false, not_or] at hk
  unfold State.offFrom
  rw [State.o_feedsBack, State.setOb, State.o_setO_ne _ _ hk.2, State.setOb, State.o_setO_ne _ _ hk.2, State.setOb,
    State.o_setO_ne _ _ hk.2, State.o_setO_ne _ _ hk.1]

theorem State.offFrom_state (s : State) : s.offFrom.o Obj.PWR_STATE = 0 := by
  have hne : Obj.PWR_STATE ≠ Obj.PWR_FEEDS := by decide
  unfold State.offFrom
  rw [State.o_feedsBack, State.setOb, State.o_setO_ne _ _ hne, State.setOb, State.o_setO_ne _ _ hne, State.setOb,
    State.o_setO_ne _ _ hne, State.o_setO_self]

/-- Off without a feed: VKEEP's bit stays. -/
theorem State.offFrom_feeds (s : State) : s.offFrom.feedGood .a = false ∧ s.offFrom.feedGood .b = false ∧
    s.offFrom.ob Obj.PWR_FEEDS 3 = s.ob Obj.PWR_FEEDS 3 := by
  have hfeeds (v : State) (b : Nat) : v.feedsBack.ob Obj.PWR_FEEDS b = v.ob Obj.PWR_FEEDS b := rfl
  have hstate : (s.setO Obj.PWR_STATE 0).ob Obj.PWR_FEEDS 3 = s.ob Obj.PWR_FEEDS 3 := State.ob_of_o (State.o_setO_ne _ _ (by decide))
  unfold State.offFrom State.feedGood
  generalize s.setO Obj.PWR_STATE 0 = v at hstate ⊢
  rw [hfeeds, hfeeds, hfeeds]
  refine ⟨?_, ?_, ?_⟩
  · rw [feedBit, State.ob_setOb_ne _ _ (by decide), State.ob_setOb_ne _ _ (by decide), State.ob_setOb_self]
  · rw [feedBit, State.ob_setOb_ne _ _ (by decide), State.ob_setOb_self]
  · rw [State.ob_setOb_ne _ _ (by decide), State.ob_setOb_ne _ _ (by decide), State.ob_setOb_ne _ _ (by decide), hstate]

/-- Off has no part in the memories, the plinth or the queue. -/
theorem State.offFrom_eq (s : State) : ∃ ob p, s.offFrom = { s with obj := ob, power := p } := ⟨_, _, rfl⟩

/-- What the loss of the last feed leaves. -/
structure State.PoweredOff (t s : State) (f : Feed) : Prop where
  state : t.o Obj.PWR_STATE = 0
  feeds : t.feedGood .a = false ∧ t.feedGood .b = false
  kept : s.ob Obj.PWR_FEEDS 3 = true → t.ob Obj.PWR_SUPPLY_EVT (feedBit f) = true ∧ t.ob Obj.PWR_SUPPLY_EVT 2 = true ∧
    t.o Obj.RST_COUNT = s.o Obj.RST_COUNT ∧ t.o Obj.RST_PCYC % 2 = 0 ∧ t.plinth = s.plinth
  lost : s.ob Obj.PWR_FEEDS 3 = false → t.plinth.lost = true ∧ t.o Obj.RST_COUNT = 0 ∧ t.o Obj.PWR_SUPPLY_EVT = 0
  spm : t.spm = []
  nvm : t.nvm = s.nvm
  torn : t.nv.torn = s.nv.torn
  pending : t.pending = s.pending

theorem State.PoweredOff.objects {u : State} (h : t.PoweredOff s f) (hu : u.keepsButObjects t)
    (ho : u.keepsObjects t [Obj.FLT_FAULTN]) : u.PoweredOff s f where
  state := (ho _ (by decide)).trans h.state
  feeds := ⟨(State.feedGood_of_o (ho _ (by decide)) _).trans h.feeds.1, (State.feedGood_of_o (ho _ (by decide)) _).trans h.feeds.2⟩
  kept hk := by
    obtain ⟨hfeed, hbrown, hcount, hpcyc, hplinth⟩ := h.kept hk
    exact ⟨(State.ob_of_o (ho _ (by decide))).trans hfeed, (State.ob_of_o (ho _ (by decide))).trans hbrown,
      (ho _ (by decide)).trans hcount, (congrArg (· % 2) (ho _ (by decide))).trans hpcyc, (congrArg State.plinth hu :).trans hplinth⟩
  lost hk := by
    obtain ⟨hlost, hcount, hevent⟩ := h.lost hk
    exact ⟨(congrArg (fun v : State => v.plinth.lost) hu :).trans hlost, (ho _ (by decide)).trans hcount, (ho _ (by decide)).trans hevent⟩
  spm := (congrArg State.spm hu :).trans h.spm
  nvm := (congrArg State.nvm hu :).trans h.nvm
  torn := (congrArg (fun v : State => v.nv.torn) hu :).trans h.torn
  pending := (congrArg State.pending hu :).trans h.pending

/-- The device in Off with its plinth supplied. -/
theorem State.offFrom_kept (s : State) (f : Feed) (hk : s.ob Obj.PWR_FEEDS 3 = true) :
    ((s.offNoted f).cold.offFrom).PoweredOff s f := by
  obtain ⟨hobjs, hrest, hfeed, hbrown, hpcyc⟩ := s.offNoted_notes f
  generalize s.offNoted f = v at hobjs hrest hfeed hbrown hpcyc ⊢
  obtain ⟨hA, hB, -⟩ := v.cold.offFrom_feeds
  have hcold := v.cold_frame
  have hkept {k : Nat} (hin : k ∈ keptObjects) (hne : k ∉ [Obj.PWR_STATE, Obj.PWR_FEEDS]) : v.cold.offFrom.o k = v.o k :=
    (State.o_offFrom _ hne).trans (v.o_cold_kept hin)
  have hstate := v.cold.offFrom_state
  obtain ⟨ob, p, heq⟩ := v.cold.offFrom_eq
  generalize v.cold.offFrom = w at hA hB hkept hstate heq ⊢
  generalize v.cold = c at hcold heq
  exact {
    state := hstate
    feeds := ⟨hA, hB⟩
    kept := fun _ => ⟨(State.ob_of_o (hkept (by decide) (by decide))).trans hfeed,
      (State.ob_of_o (hkept (by decide) (by decide))).trans hbrown, (hkept (by decide) (by decide)).trans (hobjs _ (by decide)),
      (congrArg (· % 2) (hkept (by decide) (by decide))).trans hpcyc,
      (congrArg State.plinth heq :).trans (hcold.plinth.trans (congrArg State.plinth hrest :))⟩
    lost := fun h => absurd (h.symm.trans hk) (by decide)
    spm := (congrArg State.spm heq :).trans hcold.spm
    nvm := (congrArg State.nvm heq :).trans (hcold.nvm.trans (congrArg State.nvm hrest :))
    torn := (congrArg (fun v : State => v.nv.torn) heq :).trans (hcold.torn.trans (congrArg (fun v : State => v.nv.torn) hrest :))
    pending := (congrArg State.pending heq :).trans (hcold.pending.trans (congrArg State.pending hrest :)) }

/-- The device in Off without VKEEP: the plinth is lost. -/
theorem State.offFrom_lost (s : State) (f : Feed) (hk : s.ob Obj.PWR_FEEDS 3 = false) :
    ((s.offNoted f).cold.offFrom.plinthGone).PoweredOff s f := by
  obtain ⟨-, hrest, -, -, -⟩ := s.offNoted_notes f
  generalize s.offNoted f = v at hrest ⊢
  obtain ⟨hA, hB, -⟩ := v.cold.offFrom_feeds
  have hcold := v.cold_frame
  have hstate := v.cold.offFrom_state
  obtain ⟨ob, p, heq⟩ := v.cold.offFrom_eq
  generalize v.cold.offFrom = w at hA hB hstate heq ⊢
  generalize v.cold = c at hcold heq
  obtain ⟨hkeeps, hzero⟩ := w.plinthGone_empty
  obtain ⟨ob', heq'⟩ := w.plinthGone_eq
  generalize w.plinthGone = x at hkeeps hzero heq' ⊢
  exact {
    state := (hkeeps _ (by decide)).trans hstate
    feeds := ⟨(State.feedGood_of_o (hkeeps _ (by decide)) _).trans hA, (State.feedGood_of_o (hkeeps _ (by decide)) _).trans hB⟩
    kept := fun h => absurd (h.symm.trans hk) (by decide)
    lost := fun _ => ⟨(congrArg (fun v : State => v.plinth.lost) heq' :), hzero _ (by decide), hzero _ (by decide)⟩
    spm := (congrArg State.spm heq' :).trans ((congrArg State.spm heq :).trans hcold.spm)
    nvm := (congrArg State.nvm heq' :).trans ((congrArg State.nvm heq :).trans (hcold.nvm.trans (congrArg State.nvm hrest :)))
    torn := (congrArg (fun v : State => v.nv.torn) heq' :).trans ((congrArg (fun v : State => v.nv.torn) heq :).trans
      (hcold.torn.trans (congrArg (fun v : State => v.nv.torn) hrest :)))
    pending := (congrArg State.pending heq' :).trans ((congrArg State.pending heq :).trans
      (hcold.pending.trans (congrArg State.pending hrest :))) }

theorem State.powerOff_off (s : State) (f : Feed) : (s.powerOff f).PoweredOff s f := by
  have hkeep : (s.offNoted f).cold.offFrom.ob Obj.PWR_FEEDS 3 = s.ob Obj.PWR_FEEDS 3 := by
    obtain ⟨-, -, h⟩ := (s.offNoted f).cold.offFrom_feeds
    rw [h]
    exact (State.ob_of_o ((s.offNoted f).o_cold_kept (by decide))).trans (State.ob_of_o ((s.offNoted_notes f).1 _ (by decide)))
  have hstate := (s.offNoted f).cold.offFrom_state
  rw [State.powerOff_eq]
  cases hk : s.ob Obj.PWR_FEEDS 3
  · rw [State.plinthSupply_gone hstate (hkeep.trans hk)]
    exact (s.offFrom_lost f hk).objects (State.refreshFaultN_keepsButObjects _) (State.refreshFaultN_keepsObjects _)
  · rw [State.plinthSupply_held (.inr (hkeep.trans hk))]
    exact (s.offFrom_kept f hk).objects (State.refreshFaultN_keepsButObjects _) (State.refreshFaultN_keepsObjects _)

/-! ### A cut NVM write (R499) -/

theorem State.nvCut_none {n : Nat} (h : s.nv.wrote.length ≤ n) (v : Nat) : s.nvCut n v = s := by
  unfold State.nvCut
  rw [List.drop_eq_nil_of_le h]

/-- The last word of a write that a loss cuts: neither its old nor its new contents. -/
theorem State.nvCut_last {n : Nat} (h : s.nv.wrote.length = n + 1) (v : Nat) : ∃ w ∈ s.nv.wrote.drop n,
    (s.nvCut n v).nvm = memPutWord (memPutWord s.nvm w.1 w.2.1 w.2.2) w.1 w.2.1 v ∧ w.1 ∈ (s.nvCut n v).nv.torn := by
  obtain ⟨w, hw⟩ : ∃ w, s.nv.wrote.drop n = [w] := List.length_eq_one_iff.mp (by simp [h])
  refine ⟨w, by simp [hw], ?_⟩
  unfold State.nvCut
  rw [hw]
  exact ⟨rfl, List.mem_cons_self⟩

/-! ### A feed beside the other one (R516, R550) -/

/-- Condition 2 holds on while a feed is missed. -/
theorem State.settle_feedMissed (s : State) (h : (s.ob Obj.PWR_FEEDS 0 && s.ob Obj.PWR_FEEDS 1) = false) :
    s.settle.ob Obj.FLT_ACTIVE 2 = s.ob Obj.FLT_ACTIVE 2 := by
  have hend (v : State) (n : Nat) (hn : 2 ≠ n) (gone : Bool) : (v.endIf n gone).ob Obj.FLT_ACTIVE 2 = v.ob Obj.FLT_ACTIVE 2 := by
    unfold State.endIf
    split
    · exact State.ob_setOb_ne v _ hn
    · rfl
  have hport (v : State) : v.portCond.ob Obj.FLT_ACTIVE 2 = v.ob Obj.FLT_ACTIVE 2 := by
    have harise (w : State) : (w.ariseIf 12).ob Obj.FLT_ACTIVE 2 = w.ob Obj.FLT_ACTIVE 2 := by
      unfold State.ariseIf
      split
      · rfl
      · refine (State.ob_of_o ((State.refreshFaultN_keepsObjects _ _ (by decide)).trans ((State.o_bump_ne _ (by decide)).trans
          (State.o_setO_ne _ _ (by decide))))).trans (State.ob_setOb_ne w true (by decide))
    unfold State.portCond
    split
    · exact (harise _).trans (State.ob_of_o (State.stage_keepsObjects _ _ _ _ _ _ (by decide)))
    · rfl
  have hdie (v : State) : v.dieCond.ob Obj.FLT_ACTIVE 2 = v.ob Obj.FLT_ACTIVE 2 := by
    unfold State.dieCond
    split
    · rfl
    · exact State.ob_setOb_ne v _ (by decide)
  have hrun : ∃ v : State, v = (if s.inRun then s.setO Obj.PWR_STATE (if s.degrNow = 0 then 3 else 5) else s) ∧
      v.ob Obj.FLT_ACTIVE 2 = s.ob Obj.FLT_ACTIVE 2 ∧ (v.ob Obj.PWR_FEEDS 0 && v.ob Obj.PWR_FEEDS 1) = false := by
    refine ⟨_, rfl, ?_⟩
    split
    · exact ⟨State.ob_of_o (State.o_setO_ne _ _ (by decide)), by
        rw [State.ob_of_o (State.o_setO_ne _ _ (by decide)), State.ob_of_o (m := 1) (State.o_setO_ne _ _ (by decide)), h]⟩
    · exact ⟨rfl, h⟩
  obtain ⟨v, hv, hactive, hfeeds⟩ := hrun
  have hfirst : v.endIf 2 (v.ob Obj.PWR_FEEDS 0 && v.ob Obj.PWR_FEEDS 1) = v := by
    rw [hfeeds]
    rfl
  unfold State.settle
  rw [← hv]
  dsimp only
  rw [State.ob_of_o (State.refreshFaultN_keepsObjects _ _ (by decide)), hdie, hport, hend _ 12 (by decide), hend _ 11 (by decide),
    hend _ 10 (by decide), hend _ 8 (by decide), hfirst, hactive]

/-- The device changes to feed g (R516). -/
theorem State.feedChange_changes (s : State) (g : Feed) : (s.feedChange g).keepsObjects s [Obj.PWR_FEEDS, Obj.PWR_FEED_SW, Obj.NT_CAPT_CNT] ∧
    (s.feedChange g).o Obj.PWR_FEEDS = setBit (s.o Obj.PWR_FEEDS) 2 (g == Feed.b) ∧
    (s.feedChange g).o Obj.PWR_FEED_SW = satAdd 32 (s.o Obj.PWR_FEED_SW) 1 ∧ (s.feedChange g).keepsMemories s := by
  have hcapture (v : State) : (v.capture 9).keepsMemories v := ⟨rfl, rfl, rfl⟩
  have hcount (v : State) : (v.bump Obj.PWR_FEED_SW).keepsMemories v := ⟨rfl, rfl, rfl⟩
  have hfeed (v : State) : (v.drawFrom g).keepsMemories v := ⟨rfl, rfl, rfl⟩
  have hmem : (s.feedChange g).keepsMemories s :=
    State.keepsMemories_trans (hcapture _) (State.keepsMemories_trans (hcount _) (hfeed s))
  refine ⟨?_, ?_, ?_, hmem⟩
  all_goals unfold State.feedChange State.drawFrom
  · have hdraw : (s.setOb Obj.PWR_FEEDS 2 (g == Feed.b)).keepsObjects s [Obj.PWR_FEEDS, Obj.PWR_FEED_SW, Obj.NT_CAPT_CNT] :=
      State.keepsObjects_setOb (State.keepsObjects_refl s _) (by decide) _ _
    have hswitch := State.keepsObjects_bump hdraw (k := Obj.PWR_FEED_SW) (by decide)
    exact State.keepsObjects_trans (State.keepsObjects_mono (State.capture_keepsObjects _ 9) (by decide)) hswitch
  · exact (State.capture_keepsObjects _ 9 _ (by decide)).trans ((State.o_bump_ne _ (by decide)).trans (State.o_setO_self _ _ _))
  · refine (State.capture_keepsObjects _ 9 _ (by decide)).trans ((State.o_bump_self _ _).trans ?_)
    exact congrArg (satAdd 32 · 1) (State.o_setO_ne _ _ (by decide))

/-- A feed is gone, and the device draws from the other one. -/
def State.feedMissed (s : State) (f : Feed) : State :=
  let s := (s.setOb Obj.PWR_FEEDS (feedBit f) false).setOb Obj.PWR_SUPPLY_EVT (feedBit f) true
  if s.ob Obj.PWR_FEEDS 2 == (f == Feed.b) then s.feedChange (otherFeed f) else s

/-- The power unit remembers the feed that is missed. -/
def State.missNoted (s : State) (f : Feed) : State :=
  { s with power := { s.power with lostA := s.power.lostA || f == Feed.a, lostB := s.power.lostB || f == Feed.b } }

/-- The loss is noted, reported, and holds condition 2. -/
def State.feedReported (s : State) (f : Feed) : State := ((s.missNoted f).feedEvent.ariseIf 2).settle

theorem State.feedFall_other (hf : s.feedGood f = true) (ho : s.feedGood (otherFeed f) = true) (cut : Option (Nat × Nat)) :
    s.feedFall f cut = (s.feedMissed f).feedReported f := by
  unfold State.feedFall
  rw [if_neg (by simp [hf])]
  dsimp only
  rw [if_neg (by rw [show s.feedGood (if f = .a then .b else .a) = true from ho]; simp)]
  rfl

theorem State.feedMissed_misses (s : State) (f : Feed) :
    (s.feedMissed f).keepsObjects s [Obj.PWR_FEEDS, Obj.PWR_SUPPLY_EVT, Obj.PWR_FEED_SW, Obj.NT_CAPT_CNT] ∧ (s.feedMissed f).feedGood f = false ∧
    (s.feedMissed f).ob Obj.PWR_SUPPLY_EVT (feedBit f) = true ∧ (s.feedMissed f).ob Obj.PWR_FEEDS 2 = decide (f = .a) ∧
    (s.feedMissed f).o Obj.PWR_FEED_SW = (if s.ob Obj.PWR_FEEDS 2 = decide (f = .b) then satAdd 32 (s.o Obj.PWR_FEED_SW) 1 else s.o Obj.PWR_FEED_SW) ∧
    (s.feedMissed f).keepsMemories s := by
  have hkeep : ((s.setOb Obj.PWR_FEEDS (feedBit f) false).setOb Obj.PWR_SUPPLY_EVT (feedBit f) true).keepsObjects s
      [Obj.PWR_FEEDS, Obj.PWR_SUPPLY_EVT, Obj.PWR_FEED_SW, Obj.NT_CAPT_CNT] :=
    State.keepsObjects_setOb (State.keepsObjects_setOb (State.keepsObjects_refl s _) (by simp) _ _) (by simp) _ _
  have hfeeds : ((s.setOb Obj.PWR_FEEDS (feedBit f) false).setOb Obj.PWR_SUPPLY_EVT (feedBit f) true).o Obj.PWR_FEEDS =
      (s.setOb Obj.PWR_FEEDS (feedBit f) false).o Obj.PWR_FEEDS := State.o_setO_ne _ _ (by decide)
  have hgone : ((s.setOb Obj.PWR_FEEDS (feedBit f) false).setOb Obj.PWR_SUPPLY_EVT (feedBit f) true).feedGood f = false :=
    (State.ob_of_o hfeeds).trans (State.ob_setOb_self _ _ _ _)
  have hdrew : ((s.setOb Obj.PWR_FEEDS (feedBit f) false).setOb Obj.PWR_SUPPLY_EVT (feedBit f) true).ob Obj.PWR_FEEDS 2 = s.ob Obj.PWR_FEEDS 2 :=
    (State.ob_of_o hfeeds).trans (State.ob_setOb_ne _ _ (feedBit_ne f).1.symm)
  have hevent : ((s.setOb Obj.PWR_FEEDS (feedBit f) false).setOb Obj.PWR_SUPPLY_EVT (feedBit f) true).ob Obj.PWR_SUPPLY_EVT (feedBit f) = true :=
    State.ob_setOb_self _ _ _ _
  have hswitch : ((s.setOb Obj.PWR_FEEDS (feedBit f) false).setOb Obj.PWR_SUPPLY_EVT (feedBit f) true).o Obj.PWR_FEED_SW = s.o Obj.PWR_FEED_SW :=
    (State.o_setO_ne _ _ (by decide)).trans (State.o_setO_ne _ _ (by decide))
  have hmem : ((s.setOb Obj.PWR_FEEDS (feedBit f) false).setOb Obj.PWR_SUPPLY_EVT (feedBit f) true).keepsMemories s := ⟨rfl, rfl, rfl⟩
  have hbeq : (f == Feed.b) = decide (f = .b) := by cases f <;> decide
  unfold State.feedMissed
  generalize (s.setOb Obj.PWR_FEEDS (feedBit f) false).setOb Obj.PWR_SUPPLY_EVT (feedBit f) true = v at *
  dsimp only
  obtain ⟨hckeep, hcfeeds, hcswitch, hcmem⟩ := v.feedChange_changes (otherFeed f)
  split
  · next hdraws =>
    have hdraws' : s.ob Obj.PWR_FEEDS 2 = decide (f = .b) := by
      rw [← hdrew, ← hbeq]
      simpa using hdraws
    rw [if_pos hdraws']
    refine ⟨State.keepsObjects_trans (State.keepsObjects_mono hckeep (by simp)) hkeep, ?_, ?_, ?_, ?_, State.keepsMemories_trans hcmem hmem⟩
    · have hbit := congrArg (bit · (feedBit f)) hcfeeds
      exact (hbit.trans ((bit_setBit _ _ _ _).trans (if_neg (feedBit_ne f).1))).trans hgone
    · exact (State.ob_of_o (hckeep _ (by decide))).trans hevent
    · have hbit := congrArg (bit · 2) hcfeeds
      refine (hbit.trans ((bit_setBit _ _ _ _).trans (if_pos rfl))).trans ?_
      cases f <;> decide
    · rw [hcswitch, hswitch]
  · next hdraws =>
    have hdraws' : s.ob Obj.PWR_FEEDS 2 ≠ decide (f = .b) := by
      rw [← hdrew, ← hbeq]
      simpa using hdraws
    rw [if_neg hdraws']
    refine ⟨hkeep, hgone, hevent, ?_, hswitch, hmem⟩
    rw [hdrew]
    cases f <;> simpa using hdraws'

theorem State.feedReported_reports (s : State) (f : Feed) (hmissed : s.feedGood f = false) :
    (∀ k, linkKey k = false → (s.feedReported f).o k = s.o k) ∧
    (s.feedReported f).ob Obj.FLT_ACTIVE 2 = true ∧ (s.feedReported f).keepsMemories s := by
  have hraised : ((s.missNoted f).feedEvent.ariseIf 2).LinkFrame (s.missNoted f) :=
    (State.ariseIf_linkFrame _ (by decide)).trans (State.stage_linkFrame _ _ _ _ _)
  have hone : (s.ob Obj.PWR_FEEDS 0 && s.ob Obj.PWR_FEEDS 1) = false := by
    cases f
    · exact Bool.and_eq_false_iff.mpr (.inl hmissed)
    · exact Bool.and_eq_false_iff.mpr (.inr hmissed)
  have ho (k : Nat) : (s.missNoted f).o k = s.o k := rfl
  have hmem : (s.missNoted f).keepsMemories s := ⟨rfl, rfl, rfl⟩
  unfold State.feedReported
  generalize s.missNoted f = v at hraised ho hmem ⊢
  refine ⟨fun k hk => ?_, ?_, ?_⟩
  · exact (((State.settle_linkFrame _).trans hraised).objs k hk).trans (ho k)
  · rw [State.settle_feedMissed, State.ariseIf_active]
    rw [State.ob_of_o (hraised.objs _ (by decide)), State.ob_of_o (m := 1) (hraised.objs _ (by decide)), State.ob_of_o (ho _),
      State.ob_of_o (m := 1) (ho _), hone]
  · exact State.keepsMemories_trans ((State.settle_linkFrame _).trans hraised).memories hmem

/-! ### A feed becomes good (R515, R588, R591) -/

/-- The bits of a feed that becomes good, and of VKEEP at that moment. -/
def State.feedShown (s : State) (f : Feed) (vkeep : Bool) : State := (s.setOb Obj.PWR_FEEDS 3 vkeep).setOb Obj.PWR_FEEDS (feedBit f) true

theorem State.feedShown_shows (s : State) (f : Feed) (vkeep : Bool) : (s.feedShown f vkeep).keepsObjects s [Obj.PWR_FEEDS] ∧
    (s.feedShown f vkeep).feedGood f = true ∧ (s.feedShown f vkeep).ob Obj.PWR_FEEDS 3 = vkeep :=
  ⟨State.keepsObjects_setOb (State.keepsObjects_setOb (State.keepsObjects_refl s _) (by simp) _ _) (by simp) _ _, State.ob_setOb_self _ _ _ _,
    (State.ob_setOb_ne _ _ (feedBit_ne f).2.symm).trans (State.ob_setOb_self _ _ _ _)⟩

theorem State.feedRise_good (h : s.feedGood f = true) (vkeep : Bool) : s.feedRise f vkeep = s.setOb Obj.PWR_FEEDS 3 vkeep :=
  if_pos ((s.feedGood_setOb f (feedBit_ne f).2 vkeep).trans h)

theorem State.feedRise_first (h : s.feedGood f = false) (hfirst : s.o Obj.PWR_STATE = 0 ∨ s.feedGood (otherFeed f) = false) (vkeep : Bool) :
    s.feedRise f vkeep = (((if vkeep then s.feedShown f vkeep else (s.feedShown f vkeep).plinthGone).powerUp f).refreshFaultN) := by
  have hg (g : Feed) : (s.setOb Obj.PWR_FEEDS 3 vkeep).feedGood g = s.feedGood g := s.feedGood_setOb g (feedBit_ne g).2 vkeep
  have hstate : ((s.setOb Obj.PWR_FEEDS 3 vkeep).setOb Obj.PWR_FEEDS (feedBit f) true).o Obj.PWR_STATE = s.o Obj.PWR_STATE :=
    (State.o_setO_ne _ _ (by decide)).trans (State.o_setO_ne _ _ (by decide))
  have hcond : s.o Obj.PWR_STATE = 0 ∨ (!s.feedGood .a && !s.feedGood .b) = true :=
    hfirst.imp_right fun ho => by rw [State.firstFeed_iff s h, ho]; rfl
  unfold State.feedRise
  dsimp only
  rw [hg, hg, hg, if_neg (by simp [h]), hstate, if_pos hcond]
  rfl

/-- A feed beside a good one is shown, and the flags follow. -/
theorem State.feedRise_other (h : s.feedGood f = false) (hp : s.o Obj.PWR_STATE ≠ 0) (ho : s.feedGood (otherFeed f) = true) (vkeep : Bool) :
    ∃ p, s.feedRise f vkeep = { s.feedShown f vkeep with power := p }.settle := by
  have hg (g : Feed) : (s.setOb Obj.PWR_FEEDS 3 vkeep).feedGood g = s.feedGood g := s.feedGood_setOb g (feedBit_ne g).2 vkeep
  have hstate : ((s.setOb Obj.PWR_FEEDS 3 vkeep).setOb Obj.PWR_FEEDS (feedBit f) true).o Obj.PWR_STATE = s.o Obj.PWR_STATE :=
    (State.o_setO_ne _ _ (by decide)).trans (State.o_setO_ne _ _ (by decide))
  have hcond : ¬ (s.o Obj.PWR_STATE = 0 ∨ (!s.feedGood .a && !s.feedGood .b) = true) := by
    rw [State.firstFeed_iff s h, ho]
    simpa using hp
  unfold State.feedRise
  dsimp only
  rw [hg, hg, hg, if_neg (by simp [h]), hstate, if_neg hcond]
  exact ⟨_, rfl⟩

end Sys2Proof.Machine
end

section
/-! SUPPORT. The statement about feeds, rails and reset pins. -/
namespace Sys2Proof.Machine

variable {s : State} {f : Feed}

/-- A feed that starts the device. -/
theorem feedGood_starts (h : s.feedGood f = false) (hfirst : s.o Obj.PWR_STATE = 0 ∨ (s.feedGood .a = false ∧ s.feedGood .b = false))
    (vkeep : Bool) : Runs (.feedGood f vkeep) s fun t =>
      t.o Obj.PWR_STATE = 1 ∧ t.o Obj.PWR_BOOT_STEP = 0 ∧ t.o Obj.CLK_STATE = 0 ∧ t.feedGood f = true ∧
      t.ob Obj.PWR_FEEDS 2 = decide (f = .b) ∧ t.o Obj.RST_CAUSE = (if s.plinth.lost = true ∨ vkeep = false then 2 else 1) ∧
      t.o Obj.RST_COUNT = (if vkeep = true then satAdd 32 (s.o Obj.RST_COUNT) 1 else 1) ∧ t.plinth.lost = false ∧
      t.spm = [] ∧ t.nvm = s.nvm ∧ t.pending = s.pending ∧ t.tick = s.tick := by
  have hother : s.o Obj.PWR_STATE = 0 ∨ s.feedGood (otherFeed f) = false := by
    refine hfirst.imp_right fun ⟨ha, hb⟩ => ?_
    cases f
    · exact hb
    · exact ha
  obtain ⟨hshown, hgood, -⟩ := s.feedShown_shows f vkeep
  refine ⟨s.feedRise f vkeep, rfl, ?_⟩
  rw [State.feedRise_first h hother]
  have hbits {v t : State} (hv : v.feedGood f = true) (ht : t.PoweredUp v f) : t.feedGood f = true ∧ t.ob Obj.PWR_FEEDS 2 = decide (f = .b) := by
    have hbit (n : Nat) : t.ob Obj.PWR_FEEDS n = bit (setBit (v.o Obj.PWR_FEEDS) 2 (f == Feed.b)) n := congrArg (bit · n) ht.feeds
    refine ⟨((hbit _).trans ((bit_setBit _ _ _ _).trans (if_neg (feedBit_ne f).1))).trans hv, ?_⟩
    rw [hbit, bit_setBit, if_pos rfl]
    cases f <;> decide
  cases vkeep
  · obtain ⟨hkeeps, hzero⟩ := (s.feedShown f false).plinthGone_empty
    obtain ⟨ob, heq⟩ := (s.feedShown f false).plinthGone_eq
    have ht := (s.feedShown f false).plinthGone.powerUp_started f
    obtain ⟨hf, hdraws⟩ := hbits ((State.feedGood_of_o (hkeeps _ (by decide)) f).trans hgood) ht
    refine ⟨ht.state, ht.steps, ht.clock, hf, hdraws, ?_, ?_, ht.held, ht.spm, ?_, ?_, ?_⟩
    · exact ht.cause.trans (by rw [heq]; simp)
    · exact ht.count.trans (by rw [hzero _ (by decide)]; rfl)
    · exact ht.nvm.trans (congrArg State.nvm heq :)
    · exact ht.pending.trans (congrArg State.pending heq :)
    · exact ht.tick.trans (congrArg State.tick heq :)
  · have ht := (s.feedShown f true).powerUp_started f
    obtain ⟨hf, hdraws⟩ := hbits hgood ht
    refine ⟨ht.state, ht.steps, ht.clock, hf, hdraws, ?_, ?_, ht.held, ht.spm, ht.nvm, ht.pending, ht.tick⟩
    · exact ht.cause.trans (if_congr (by simp [State.feedShown]) rfl rfl)
    · exact ht.count.trans (by rw [hshown _ (by decide)]; rfl)

/-- A reset by a rail or by RST_N. -/
theorem State.deviceReset_restarts (s : State) (cause : Nat) : (s.deviceReset cause).o Obj.PWR_STATE = 1 ∧
    (s.deviceReset cause).o Obj.RST_CAUSE = cause ∧ (s.deviceReset cause).o Obj.RST_COUNT = satAdd 32 (s.o Obj.RST_COUNT) 1 ∧
    (s.deviceReset cause).o Obj.PWR_FEEDS = s.o Obj.PWR_FEEDS ∧ (s.deviceReset cause).spm = [] ∧ (s.deviceReset cause).nvm = s.nvm ∧
    (s.deviceReset cause).plinth = s.plinth := by
  have h := s.deviceReset_frame cause
  obtain ⟨hcause, hcount⟩ := s.deviceReset_causes cause
  exact ⟨s.deviceReset_boots cause, hcause, hcount, s.o_deviceReset_kept cause (by decide) (by decide), h.spm, h.nvm, h.plinth⟩

theorem State.railLow_resets (hf : s.feedGood .a = true ∨ s.feedGood .b = true) (hp : s.o Obj.PWR_STATE ≠ 0) :
    s.railLow = (s.setOb Obj.PWR_SUPPLY_EVT 4 true).deviceReset 6 := by
  have hone : (s.feedGood .a || s.feedGood .b) = true := by simpa using hf
  exact if_pos (by rw [hone]; simpa using hp)

/-- RST_N is low. -/
def State.heldLow (s : State) : State := { s with power := { s.power with rstN := true } }

theorem State.rstLow_idle (hr : s.power.rstN = false) (h : s.o Obj.PWR_STATE = 0 ∨ (s.feedGood .a = false ∧ s.feedGood .b = false)) :
    s.rstLow = s.heldLow := by
  unfold State.rstLow
  rw [if_neg (by simp [hr])]
  exact if_pos h

theorem State.rstLow_resets (hr : s.power.rstN = false) (hp : s.o Obj.PWR_STATE ≠ 0) (hf : s.feedGood .a = true ∨ s.feedGood .b = true) :
    s.rstLow = s.heldLow.deviceReset 3 := by
  unfold State.rstLow
  rw [if_neg (by simp [hr])]
  refine if_neg fun h => h.elim hp fun ⟨ha, hb⟩ => ?_
  rcases hf with hf | hf
  · exact Bool.false_ne_true (ha.symm.trans hf)
  · exact Bool.false_ne_true (hb.symm.trans hf)

theorem State.clocked_of_held (h : s.power.rstN = true) : s.clocked = false := by
  simp [State.clocked, h]

theorem State.vkeepLost_off (h : s.o Obj.PWR_STATE = 0) : s.vkeepLost = (s.setOb Obj.PWR_FEEDS 3 false).plinthGone.refreshFaultN := by
  have hstate : (s.setOb Obj.PWR_FEEDS 3 false).o Obj.PWR_STATE = 0 := (State.o_setO_ne _ _ (by decide)).trans h
  unfold State.vkeepLost
  rw [State.plinthSupply_gone hstate (State.ob_setOb_self _ _ _ _)]

theorem State.vkeepLost_on (h : s.o Obj.PWR_STATE ≠ 0) : s.vkeepLost = (s.setOb Obj.PWR_FEEDS 3 false).refreshFaultN := by
  have hstate : (s.setOb Obj.PWR_FEEDS 3 false).o Obj.PWR_STATE ≠ 0 := fun e => h ((State.o_setO_ne _ _ (by decide)).symm.trans e)
  unfold State.vkeepLost
  rw [State.plinthSupply_held (.inl hstate)]

/-- VKEEP goes in Off, and the plinth with it. -/
theorem vkeepLost_empties (hp : s.o Obj.PWR_STATE = 0) : Runs .vkeepLost s fun t => t.ob Obj.PWR_FEEDS 3 = false ∧ t.plinth.lost = true ∧
    t.o Obj.RST_COUNT = 0 ∧ t.o Obj.RST_CAUSE = 0 ∧ t.o Obj.RST_LADDER = 0 ∧ t.o Obj.RST_PCYC = 0 ∧ t.o Obj.PWR_SUPPLY_EVT = 0 ∧
    t.keepsMemories s := by
  have hshown : (s.setOb Obj.PWR_FEEDS 3 false).ob Obj.PWR_FEEDS 3 = false := State.ob_setOb_self _ _ _ _
  have hmem : (s.setOb Obj.PWR_FEEDS 3 false).keepsMemories s := ⟨rfl, rfl, rfl⟩
  refine ⟨s.vkeepLost, rfl, ?_⟩
  rw [State.vkeepLost_off hp]
  generalize s.setOb Obj.PWR_FEEDS 3 false = v at hshown hmem ⊢
  obtain ⟨hkeeps, hzero⟩ := v.plinthGone_empty
  obtain ⟨ob, heq⟩ := v.plinthGone_eq
  generalize v.plinthGone = w at hkeeps hzero heq ⊢
  have hN := w.refreshFaultN_keepsObjects
  have hmem' : w.keepsMemories v := ⟨(congrArg State.spm heq :), (congrArg State.rankMem heq :), (congrArg State.nvm heq :)⟩
  refine ⟨?_, ?_, (hN _ (by decide)).trans (hzero _ (by decide)), (hN _ (by decide)).trans (hzero _ (by decide)),
    (hN _ (by decide)).trans (hzero _ (by decide)), (hN _ (by decide)).trans (hzero _ (by decide)),
    (hN _ (by decide)).trans (hzero _ (by decide)),
    State.keepsMemories_trans w.refreshFaultN_linkFrame.memories (State.keepsMemories_trans hmem' hmem)⟩
  · exact (State.ob_of_o ((hN _ (by decide)).trans (hkeeps _ (by decide)))).trans hshown
  · exact (congrArg (fun v : State => v.plinth.lost) w.refreshFaultN_keepsButObjects :).trans (congrArg (fun v : State => v.plinth.lost) heq :)

/-- VKEEP goes elsewhere: only its bit shows it. -/
theorem vkeepLost_shows (hp : s.o Obj.PWR_STATE ≠ 0) : Runs .vkeepLost s fun t => t.ob Obj.PWR_FEEDS 3 = false ∧
    t.keepsObjects s [Obj.PWR_FEEDS, Obj.FLT_FAULTN] ∧ { t with obj := s.obj } = s := by
  have hN := State.refreshFaultN_keepsObjects (s.setOb Obj.PWR_FEEDS 3 false)
  refine ⟨s.vkeepLost, rfl, ?_⟩
  rw [State.vkeepLost_on hp]
  have hrest : (s.setOb Obj.PWR_FEEDS 3 false).refreshFaultN.keepsButObjects s :=
    State.keepsButObjects_trans (State.refreshFaultN_keepsButObjects _) (State.keepsButObjects_setO s.keepsButObjects_refl _ _)
  refine ⟨?_, ?_, hrest⟩
  · exact (State.ob_of_o (hN _ (by decide))).trans (State.ob_setOb_self _ _ _ _)
  · exact State.keepsObjects_trans (State.keepsObjects_mono hN (by simp)) (State.keepsObjects_setOb (State.keepsObjects_refl s _) (by simp) _ _)

/-- A second feed becomes good. -/
theorem feedGood_joins (hf : s.feedGood f = false) (hp : s.o Obj.PWR_STATE ≠ 0) (ho : s.feedGood (otherFeed f) = true) (vkeep : Bool) :
    Runs (.feedGood f vkeep) s fun t => t.feedGood f = true ∧ t.ob Obj.PWR_FEEDS 3 = vkeep ∧ t.o Obj.RST_COUNT = s.o Obj.RST_COUNT ∧
      (s.inRun = false → t.o Obj.PWR_STATE = s.o Obj.PWR_STATE) ∧ (s.inRun = true → t.inRun = true) ∧ t.keepsMemories s := by
  obtain ⟨p, heq⟩ := State.feedRise_other hf hp ho vkeep
  obtain ⟨hshown, hgood, hkeep⟩ := s.feedShown_shows f vkeep
  have hpower : ∀ k, ({ s.feedShown f vkeep with power := p } : State).o k = (s.feedShown f vkeep).o k := fun _ => rfl
  have hmem : ({ s.feedShown f vkeep with power := p } : State).keepsMemories s := ⟨rfl, rfl, rfl⟩
  refine ⟨s.feedRise f vkeep, rfl, ?_⟩
  rw [heq]
  generalize ({ s.feedShown f vkeep with power := p } : State) = w at hpower hmem ⊢
  have h := w.settle_linkFrame
  have hrun : w.inRun = s.inRun := State.inRun_of_o ((hpower _).trans (hshown _ (by decide)))
  refine ⟨?_, ?_, ?_, fun hr => ?_, fun hr => ?_, State.keepsMemories_trans h.memories hmem⟩
  · exact (State.feedGood_of_o ((h.objs _ (by decide)).trans (hpower _)) f).trans hgood
  · exact (State.ob_of_o ((h.objs _ (by decide)).trans (hpower _))).trans hkeep
  · exact (h.objs _ (by decide)).trans ((hpower _).trans (hshown _ (by decide)))
  · exact (h.power (hrun.trans hr)).trans ((hpower _).trans (hshown _ (by decide)))
  · exact (h.run.trans hrun).trans hr

/-- One of two good feeds is lost. -/
theorem feedLost_misses (hf : s.feedGood f = true) (ho : s.feedGood (otherFeed f) = true) (k : BitVec 13) (v : BitVec 64) :
    Runs (.feedLost ⟨f, some (k, v)⟩) s fun t =>
      t.feedGood f = false ∧ t.ob Obj.PWR_SUPPLY_EVT (feedBit f) = true ∧ (s.inService = true → t.ob Obj.FLT_ACTIVE 2 = true) ∧
      t.ob Obj.PWR_FEEDS 2 = decide (f = .a) ∧
      (s.ob Obj.PWR_FEEDS 2 ≠ decide (f = .b) → t.o Obj.PWR_FEED_SW = s.o Obj.PWR_FEED_SW) ∧
      (s.ob Obj.PWR_FEEDS 2 = decide (f = .b) → t.o Obj.PWR_FEED_SW = satAdd 32 (s.o Obj.PWR_FEED_SW) 1) ∧
      t.o Obj.RST_COUNT = s.o Obj.RST_COUNT ∧ t.keepsMemories s := by
  obtain ⟨hkeeps, hgone, hevent, hdraws, hswitch, hmem⟩ := s.feedMissed_misses f
  obtain ⟨hobjs, hcond, hmem'⟩ := (s.feedMissed f).feedReported_reports f hgone
  refine ⟨s.feedFall f (some (k.toNat, v.toNat)), rfl, ?_⟩
  rw [State.feedFall_other hf ho]
  refine ⟨?_, ?_, fun _ => hcond, ?_, fun hne => ?_, fun heq => ?_, ?_, State.keepsMemories_trans hmem' hmem⟩
  · exact (State.feedGood_of_o (hobjs _ (by decide)) f).trans hgone
  · exact (State.ob_of_o (hobjs _ (by decide))).trans hevent
  · exact (State.ob_of_o (hobjs _ (by decide))).trans hdraws
  · exact (hobjs _ (by decide)).trans (hswitch.trans (if_neg hne))
  · exact (hobjs _ (by decide)).trans (hswitch.trans (if_pos heq))
  · exact (hobjs _ (by decide)).trans (hkeeps _ (by decide))

/-- Settles O42: by the feeds that are good and the power state. -/
theorem feedsRailsAndResetPinsResetTheDevice : Obligations.FeedsRailsAndResetPinsResetTheDevice := by
  unfold Obligations.FeedsRailsAndResetPinsResetTheDevice
  intro f vkeep k v s
  refine ⟨fun hf => ?shown, fun hf hfirst => feedGood_starts hf hfirst vkeep, fun hf hp ho => feedGood_joins hf hp ho vkeep, fun hf => ⟨?_, ?_⟩,
    fun hf ho => ?lastFeed, fun hf ho => ⟨fun hk => ?cutNone, fun hk => ?cutLast⟩, fun hf ho => feedLost_misses hf ho k v, fun h => ?noReturn,
    fun ha hb hd hr => ?returns, fun h => ?noRail, fun hf hp => ?rail, fun hr => ?_, fun hr h => ?_, fun hr hp hf => ?rstN, rfl,
    fun hp => vkeepLost_empties hp, fun hp => vkeepLost_shows hp⟩
  case shown =>
    refine ⟨s.setOb Obj.PWR_FEEDS 3 vkeep, congrArg _ (State.feedRise_good hf vkeep), State.ob_setOb_self _ _ _ _,
      (s.feedGood_setOb f (feedBit_ne f).2 vkeep).trans hf, State.keepsObjects_setOb (State.keepsObjects_refl s _) (by simp) _ _, rfl⟩
  · exact congrArg Host.Outcome.next (if_pos (by simp [hf]))
  · exact congrArg Host.Outcome.next (if_pos (by simp [hf]))
  case lastFeed =>
    have hoff : s.feedFall f none = s.powerOff f := by
      unfold State.feedFall
      rw [if_neg (by simp [hf])]
      exact if_pos (by simp [ho])
    have h := s.powerOff_off f
    refine ⟨s.feedFall f none, rfl, ?_⟩
    rw [hoff]
    exact ⟨h.state, h.feeds.1, h.feeds.2, h.kept, h.lost, h.spm, h.nvm, h.pending⟩
  case cutNone =>
    have hoff : s.feedFall f (some (k.toNat, v.toNat)) = s.powerOff f := by
      unfold State.feedFall
      rw [if_neg (by simp [hf])]
      exact (if_pos (by simp [ho])).trans (congrArg (·.powerOff f) (State.nvCut_none hk v.toNat))
    have h := s.powerOff_off f
    exact ⟨s.feedFall f (some (k.toNat, v.toNat)), rfl, hoff ▸ h.nvm, hoff ▸ h.state⟩
  case cutLast =>
    have hoff : s.feedFall f (some (k.toNat, v.toNat)) = (s.nvCut k.toNat v.toNat).powerOff f := by
      unfold State.feedFall
      rw [if_neg (by simp [hf])]
      exact if_pos (by simp [ho])
    have h := (s.nvCut k.toNat v.toNat).powerOff_off f
    obtain ⟨w, hw, hword, htorn⟩ := State.nvCut_last hk v.toNat
    exact ⟨s.feedFall f (some (k.toNat, v.toNat)), rfl, hoff ▸ h.state, hoff ▸ h.spm, w, hw, hoff ▸ h.nvm.trans hword,
      hoff ▸ h.torn.symm ▸ htorn⟩
  case noReturn =>
    refine congrArg Host.Outcome.next (if_neg ?_)
    rcases h with h | h | h | h <;> simp [h, State.flag]
  case returns =>
    have hret : s.feedReturn = (s.feedChange .a).feedEvent := if_pos (by simp [ha, hb, hd, hr, State.flag])
    obtain ⟨-, hfeeds, hswitch, hmem⟩ := s.feedChange_changes .a
    have hlog : (s.feedChange .a).feedEvent.LinkFrame (s.feedChange .a) := State.stage_linkFrame _ _ _ _ _
    refine ⟨s.feedReturn, rfl, ?_⟩
    rw [hret]
    refine ⟨?_, (hlog.objs _ (by decide)).trans hswitch, State.keepsMemories_trans hlog.memories hmem⟩
    exact (State.ob_of_o (hlog.objs _ (by decide))).trans
      ((congrArg (bit · 2) hfeeds).trans ((bit_setBit _ _ _ _).trans (if_pos rfl)))
  case noRail =>
    refine congrArg Host.Outcome.next (if_neg ?_)
    rcases h with ⟨ha, hb⟩ | h
    · simp [ha, hb]
    · simp [h]
  case rail =>
    obtain ⟨hstate, hcause, hcount, hfeeds, hspm, hnvm, hplinth⟩ := (s.setOb Obj.PWR_SUPPLY_EVT 4 true).deviceReset_restarts 6
    refine ⟨s.railLow, rfl, ?_⟩
    rw [State.railLow_resets hf hp]
    refine ⟨hstate, hcause, hcount.trans (congrArg (satAdd 32 · 1) (State.o_setO_ne _ _ (by decide))), ?_,
      hfeeds.trans (State.o_setO_ne _ _ (by decide)), hspm, hnvm, hplinth⟩
    exact (State.ob_of_o (State.o_deviceReset_kept _ 6 (by decide) (by decide))).trans (State.ob_setOb_self _ _ _ _)
  · exact congrArg Host.Outcome.next (if_pos hr)
  · exact congrArg Host.Outcome.next (State.rstLow_idle hr h)
  case rstN =>
    obtain ⟨hstate, hcause, hcount, hfeeds, hspm, hnvm, hplinth⟩ := s.heldLow.deviceReset_restarts 3
    have hheld : (s.heldLow.deviceReset 3).power.rstN = true := (s.heldLow.deviceReset_frame 3).rstN
    refine ⟨s.rstLow, rfl, ?_⟩
    rw [State.rstLow_resets hr hp hf]
    exact ⟨hheld, State.clocked_of_held hheld, hstate, hcause, hcount, hfeeds, hspm, hnvm, hplinth⟩

end Sys2Proof.Machine
end

section
/-! SUPPORT. The recovery ladder, step by step (R536, R537, R538, R543). -/
namespace Sys2Proof.Machine

variable {s t u : State} {f : Nat} {c : Ch}

/-! ### The fields of REC_STATUS (R543) -/

/-- A function's status with one more fault counted. -/
def State.countedStatus (s : State) (f : Nat) : Nat :=
  setBits (s.o (Obj.REC_STATUS f)) 31 16 (clip 65535 (bits (s.o (Obj.REC_STATUS f)) 31 16 + 1))

/-- The status with the highest step taken. -/
def steppedStatus (st step : Nat) : Nat := setBits st 11 8 (max (bits st 11 8) step)

theorem bits_counted (v : Nat) : bits (setBits v 31 16 (clip 65535 (bits v 31 16 + 1))) 3 0 = bits v 3 0 ∧
    bits (setBits v 31 16 (clip 65535 (bits v 31 16 + 1))) 7 4 = bits v 7 4 ∧
    bits (setBits v 31 16 (clip 65535 (bits v 31 16 + 1))) 31 16 = min 65535 (bits v 31 16 + 1) := by
  simp only [bits, setBits, clip, Nat.shiftRight_eq_div_pow]
  norm_num
  split <;> omega

theorem bits_steppedStatus (st step : Nat) : bits (steppedStatus st step) 3 0 = bits st 3 0 ∧ bits (steppedStatus st step) 7 4 = bits st 7 4 ∧
    bits (steppedStatus st step) 31 16 = bits st 31 16 := by
  unfold steppedStatus
  generalize max (bits st 11 8) step = m
  simp only [bits, setBits, Nat.shiftRight_eq_div_pow]
  norm_num
  omega

theorem bits_retried {st : Nat} (h : bits st 3 0 < 15) : bits (st + 1) 3 0 = bits st 3 0 + 1 ∧ bits (st + 1) 31 16 = bits st 31 16 := by
  simp only [bits, Nat.shiftRight_eq_div_pow] at h ⊢
  norm_num at h ⊢
  omega

theorem bits_reinited {st : Nat} (h : bits st 7 4 < 15) : bits (st + 16) 7 4 = bits st 7 4 + 1 := by
  simp only [bits, Nat.shiftRight_eq_div_pow] at h ⊢
  norm_num at h ⊢
  omega

theorem bits_quiet (v : Nat) : bits (setBits v 7 0 0) 7 0 = 0 ∧ setBits v 7 0 0 / 256 = v / 256 := by
  simp only [bits, setBits, Nat.shiftRight_eq_div_pow]
  norm_num
  omega

theorem bits_four_lt (v lo : Nat) : bits v (lo + 3) lo ≤ 15 := by
  have : bits v (lo + 3) lo < 2 ^ (lo + 3 + 1 - lo) := Nat.mod_lt _ (by positivity)
  rw [show lo + 3 + 1 - lo = 4 by omega] at this
  omega

theorem recStatus_ne (f : Nat) (hf : f < 10) : linkKey (Obj.REC_STATUS f) = false ∧ Obj.REC_STATUS f ≠ Obj.REC_LAST ∧
    Obj.REC_STATUS f ≠ Obj.FLT_LOG_LOST := by
  interval_cases f <;> decide

/-! ### The record of a step -/

/-- A step is recorded in the status, in REC_LAST and in the log. -/
structure State.StepNoted (t s : State) (f step st : Nat) : Prop where
  status : t.o (Obj.REC_STATUS f) = steppedStatus st step
  last : t.o Obj.REC_LAST = f * 2 ^ 24 + step * 2 ^ 20
  objs : t.keepsObjects s [Obj.REC_STATUS f, Obj.REC_LAST, Obj.FLT_LOG_LOST]
  rest : { t with obj := s.obj, log := s.log } = s

/-- The status and REC_LAST of a step. -/
def State.stepShown (s : State) (f step st : Nat) : State :=
  (s.setO (Obj.REC_STATUS f) (steppedStatus st step)).setO Obj.REC_LAST (f * 2 ^ 24 + step * 2 ^ 20)

theorem State.ladderNote_eq (s : State) (f step st : Nat) :
    s.ladderNote f step st = (s.stepShown f step st).stage 0x0204 0 f (bytesLE 1 step ++ bytesLE 4 (steppedStatus st step)) := by
  unfold State.ladderNote State.stepShown steppedStatus
  dsimp only

theorem State.stepShown_shows (s : State) (hf : f < 10) (step st : Nat) : (s.stepShown f step st).StepNoted s f step st := by
  have hrest : (s.stepShown f step st).keepsButObjects s :=
    State.keepsButObjects_setO (State.keepsButObjects_setO s.keepsButObjects_refl _ _) _ _
  exact {
    status := (State.o_setO_ne _ _ (recStatus_ne f hf).2.1).trans (State.o_setO_self _ _ _)
    last := State.o_setO_self _ _ _
    objs := State.keepsObjects_setO (State.keepsObjects_setO (State.keepsObjects_refl s _) List.mem_cons_self _)
      (List.mem_cons_of_mem _ List.mem_cons_self) _
    rest := (congrArg (fun v : State => { v with log := s.log }) hrest :) }

theorem State.ladderNote_notes (s : State) (hf : f < 10) (step st : Nat) : (s.ladderNote f step st).StepNoted s f step st := by
  obtain ⟨-, -, hlost⟩ := recStatus_ne f hf
  have h := s.stepShown_shows hf step st
  rw [State.ladderNote_eq]
  generalize s.stepShown f step st = v at h ⊢
  have hstage := v.stage_keepsObjects 0x0204 0 f (bytesLE 1 step ++ bytesLE 4 (steppedStatus st step))
  have hframe := v.stage_flagged 0x0204 0 f (bytesLE 1 step ++ bytesLE 4 (steppedStatus st step))
  exact {
    status := (hstage _ (by simpa using hlost)).trans h.status
    last := (hstage _ (by decide)).trans h.last
    objs := State.keepsObjects_trans (State.keepsObjects_mono hstage (by simp)) h.objs
    rest := (congrArg (fun v : State => { v with obj := s.obj, log := s.log }) hframe.frame :).trans h.rest }

/-! ### Which step a fault takes (R537) -/

theorem State.ladderStep_retry (h : bits (s.o (Obj.REC_STATUS f)) 3 0 < bits (s.o (Obj.REC_POLICY f)) 3 0) :
    s.ladderStep f c = s.ladderNote f 1 (s.countedStatus f + 1) := by
  have hcounted : bits (s.countedStatus f) 3 0 = bits (s.o (Obj.REC_STATUS f)) 3 0 := (bits_counted _).1
  exact if_pos (hcounted.trans_lt h)

theorem State.ladderStep_reinit (h : bits (s.o (Obj.REC_POLICY f)) 3 0 ≤ bits (s.o (Obj.REC_STATUS f)) 3 0)
    (hmost : 2 ≤ bits (s.o (Obj.REC_POLICY f)) 11 8) (hleft : bits (s.o (Obj.REC_STATUS f)) 7 4 < bits (s.o (Obj.REC_POLICY f)) 7 4) :
    s.ladderStep f c = (s.ladderReinit f c).ladderNote f 2 (s.countedStatus f + 16) := by
  have hcounted : bits (s.countedStatus f) 3 0 = bits (s.o (Obj.REC_STATUS f)) 3 0 := (bits_counted _).1
  have hsecond : bits (s.countedStatus f) 7 4 = bits (s.o (Obj.REC_STATUS f)) 7 4 := (bits_counted _).2.1
  exact (if_neg (by change ¬ bits (s.countedStatus f) 3 0 < _; omega)).trans
    (if_pos ⟨hmost, by change bits (s.countedStatus f) 7 4 < _; omega⟩)

theorem State.ladderStep_high (h : bits (s.o (Obj.REC_POLICY f)) 3 0 ≤ bits (s.o (Obj.REC_STATUS f)) 3 0)
    (hnot : bits (s.o (Obj.REC_POLICY f)) 11 8 < 2 ∨ bits (s.o (Obj.REC_POLICY f)) 7 4 ≤ bits (s.o (Obj.REC_STATUS f)) 7 4) :
    s.ladderStep f c = s.ladderHigh f c (s.countedStatus f) := by
  have hcounted : bits (s.countedStatus f) 3 0 = bits (s.o (Obj.REC_STATUS f)) 3 0 := (bits_counted _).1
  have hsecond : bits (s.countedStatus f) 7 4 = bits (s.o (Obj.REC_STATUS f)) 7 4 := (bits_counted _).2.1
  exact (if_neg (by change ¬ bits (s.countedStatus f) 3 0 < _; omega)).trans
    (if_neg (by change ¬ (_ ∧ bits (s.countedStatus f) 7 4 < _); omega))

/-! ### Steps 3 and 4 (R537, R539) -/

variable {st : Nat}

/-- Step 3 is allowed. -/
def State.resetAllowed (s : State) (f : Nat) : Bool :=
  decide (3 ≤ bits (s.o (Obj.REC_POLICY f)) 11 8) && decide (s.o Obj.RST_LADDER < s.o Obj.REC_RESET_LIMIT)

/-- Step 4 is allowed. -/
def State.cycleAllowed (s : State) (f : Nat) : Bool := decide (4 ≤ bits (s.o (Obj.REC_POLICY f)) 11 8) && s.flag Obj.REC_PCYC_EN

/-- A step of a function waits. -/
def State.stepWaits (s : State) (f step : Nat) (c : Ch) : State :=
  { s with power := { s.power with deferred := s.power.deferred ++ [(f, step, c)] } }

theorem State.ladderHigh_eq (s : State) (f : Nat) (c : Ch) (st : Nat) : s.ladderHigh f c st =
    if (s.resetAllowed f || s.cycleAllowed f) && !s.ladderFree then (s.setO (Obj.REC_STATUS f) st).stepWaits f 3 c
    else if s.resetAllowed f then s.ladderReset f st
    else if s.cycleAllowed f then (s.pcycAssert 1 f).ladderNote f 4 st
    else s.ladderNote f 0 st := rfl

theorem State.ladderFree_iff : s.ladderFree = true ↔ s.inRun = true ∧ s.o Obj.NV_STATE = 0 := by
  simp [State.ladderFree]

theorem State.resetAllowed_of (h : 3 ≤ bits (s.o (Obj.REC_POLICY f)) 11 8) (hl : s.o Obj.RST_LADDER < s.o Obj.REC_RESET_LIMIT) :
    s.resetAllowed f = true := by
  simp [State.resetAllowed, h, hl]

/-- The lifetime record that a reset by the ladder writes first. -/
def State.resetRecorded (s : State) (f st : Nat) : State :=
  s.lifeWrite 0x0204 0 f (s.o Obj.FLT_LOG_SEQ) s.xc (bytesLE 1 3 ++ bytesLE 4 (steppedStatus st 3))

theorem State.ladderReset_eq (s : State) (f st : Nat) : s.ladderReset f st =
    ((s.resetRecorded f st).setO Obj.RST_LADDER (satAdd 8 ((s.resetRecorded f st).o Obj.RST_LADDER) 1)).deviceReset 5 := by
  unfold State.ladderReset State.resetRecorded steppedStatus
  dsimp only

/-- A reset by the ladder counts as one. -/
theorem State.ladderReset_resets (s : State) (f st : Nat) : (s.ladderReset f st).o Obj.PWR_STATE = 1 ∧
    (s.ladderReset f st).o Obj.RST_CAUSE = 5 ∧ (s.ladderReset f st).o Obj.RST_LADDER = satAdd 8 (s.o Obj.RST_LADDER) 1 ∧
    (s.ladderReset f st).o Obj.RST_COUNT = satAdd 32 (s.o Obj.RST_COUNT) 1 ∧ (s.ladderReset f st).spm = [] ∧
    (s.ladderReset f st).power.faults = [] := by
  have hlife : (s.resetRecorded f st).keepsObjects s [Obj.FLT_LIFE_NEXT, Obj.FLT_LIFE_WRITES] := s.lifeWrite_keepsObjects _ _ _ _ _ _
  rw [State.ladderReset_eq]
  generalize s.resetRecorded f st = v at hlife ⊢
  obtain ⟨hcause, hcount⟩ := (v.setO Obj.RST_LADDER (satAdd 8 (v.o Obj.RST_LADDER) 1)).deviceReset_causes 5
  have hframe := (v.setO Obj.RST_LADDER (satAdd 8 (v.o Obj.RST_LADDER) 1)).deviceReset_frame 5
  refine ⟨State.deviceReset_boots _ 5, hcause, ?_, hcount.trans ?_, hframe.spm, hframe.faults⟩
  · rw [State.o_deviceReset_kept _ 5 (by decide) (by decide), State.o_setO_self, hlife _ (by decide)]
  · rw [State.o_setO_ne _ _ (by decide), hlife _ (by decide)]

/-! ### The steps leave no fault behind (R40, R536) -/

/-- The faults that wait for the supervisor are as they were. -/
def State.keepsFaults (t s : State) : Prop := t.power.faults = s.power.faults

theorem State.LinkFrame.faults (h : t.LinkFrame s) : t.keepsFaults s := congrArg Power.faults h.powerUnit

theorem State.keepsFaults_foldl {β : Type} {step : State → β → State} {xs : List β} (h : ∀ x ∈ xs, ∀ v, (step v x).keepsFaults v)
    (s : State) : (xs.foldl step s).keepsFaults s := by
  induction xs generalizing s with
  | nil => rfl
  | cons x xs ih => exact Eq.trans (ih (fun y hy => h y (List.mem_cons_of_mem _ hy)) _) (h x List.mem_cons_self s)

theorem State.keepsFaults_ite {p : Prop} [Decidable p] (ht : t.keepsFaults s) (hu : u.keepsFaults s) : (if p then t else u).keepsFaults s := by
  split
  · exact ht
  · exact hu

theorem State.requeue_keepsFaults (s : State) (n : Fin 4) : (s.requeue n).keepsFaults s := by
  have hwork : (s.freeSlotWork n).keepsFaults s := by
    unfold State.freeSlotWork
    split
    · exact (s.releaseAll_linkFrame _ _).faults
    · rfl
  unfold State.requeue
  split
  · exact State.keepsFaults_ite hwork rfl
  · rfl

theorem State.hkAbandon_keepsFaults (s : State) : s.hkAbandon.keepsFaults s := by
  unfold State.hkAbandon
  split <;> rfl

theorem State.rangesReset_keepsFaults (l : List Nat) (s : State) : (l.foldl (fun t m => t.setO (Obj.HK_RANGE_NOW m) 0) s).keepsFaults s := by
  induction l generalizing s with
  | nil => rfl
  | cons m l ih => exact ih _

theorem State.reinitHk_keepsFaults (s : State) : s.reinitHk.keepsFaults s := by
  have hstopped : (s.reiniting 8).hkAbandon.keepsFaults s := (s.reiniting 8).hkAbandon_keepsFaults
  have hranges := State.rangesReset_keepsFaults (List.range 32) (s.reiniting 8).hkAbandon
  unfold State.reinitHk
  dsimp only
  generalize (s.reiniting 8).hkAbandon = v at hstopped hranges ⊢
  generalize (List.range 32).foldl (fun t m => t.setO (Obj.HK_RANGE_NOW m) 0) v = w at hranges ⊢
  have h : w.power.faults = s.power.faults := hranges.trans hstopped
  exact h

theorem State.reinitBuilders_keepsFaults (s : State) : s.reinitBuilders.keepsFaults s := by
  have hpair : ((s.setO (unitKey s.otherUnit) 4).pairState).keepsFaults s := by
    obtain ⟨x, hx⟩ := (s.setO (unitKey s.otherUnit) 4).pairState_eq
    exact hx ▸ rfl
  have hrejoin : (s.bldCtrlEffect 2).keepsFaults s :=
    State.keepsFaults_ite ((State.settle_linkFrame _).faults.trans hpair) rfl
  have hcopy (v : State) : v.copyOver.keepsFaults v := State.keepsFaults_ite rfl rfl
  exact (hcopy _).trans hrejoin

theorem State.canEnableEffect_keepsFaults (s : State) (v : Nat) : (s.canEnableEffect v).keepsFaults s := by
  unfold State.canEnableEffect State.canListen State.canClear
  dsimp only
  split
  · split <;> rfl
  · split <;> rfl

theorem State.reinitDram_keepsFaults (s : State) : s.reinitDram.keepsFaults s := by
  exact State.keepsFaults_ite rfl rfl

theorem State.reinitHub_keepsFaults (s : State) : s.reinitHub.keepsFaults s :=
  ((State.follow_linkFrame _).trans (.foldl (fun _ hk v => v.southDown_linkFrame (List.mem_range.mp (List.mem_filter.mp hk).1) true) s)).faults

theorem State.reinitNorth_keepsFaults (s : State) : s.reinitNorth.keepsFaults s := by
  unfold State.reinitNorth
  dsimp only
  refine (State.follow_linkFrame _).faults.trans ((State.northDown_linkFrame _ true).faults.trans ?_)
  refine Eq.trans (b := (s.reiniting 5).power.faults) (State.keepsFaults_foldl (fun j hj v => ?_) _) rfl
  have hlt := List.mem_range.mp (List.mem_filter.mp hj).1
  exact (v.laneL2_linkFrame (by omega)).faults

theorem State.reinitSouth_keepsFaults (s : State) {ports : List Nat} (h : ∀ k ∈ ports, k < 8) : (s.reinitSouth ports).keepsFaults s := by
  unfold State.reinitSouth
  dsimp only
  refine (State.follow_linkFrame _).faults.trans ?_
  refine Eq.trans (b := (s.reiniting 6).power.faults) (State.keepsFaults_foldl (fun k hk v => ?_) _) rfl
  exact (v.reinitPort_linkFrame (h k (List.mem_filter.mp hk).1)).faults

theorem State.reinit_keepsFaults (s : State) (f : Nat) (c : Option Ch) : (s.reinit f c).keepsFaults s := by
  unfold State.reinit
  split
  · rfl
  · unfold State.reinitAsm
    split <;> rfl
  · exact State.keepsFaults_foldl (fun n _ v => v.requeue_keepsFaults n) s
  · exact s.reinitHub_keepsFaults
  · exact s.reinitBuilders_keepsFaults
  · exact s.reinitNorth_keepsFaults
  · refine s.reinitSouth_keepsFaults fun k hk => ?_
    cases c with
    | none => exact List.mem_range.mp hk
    | some c => exact List.mem_singleton.mp hk ▸ Nat.mod_lt _ (by decide)
  · exact s.reinitDram_keepsFaults
  · exact s.reinitHk_keepsFaults
  · exact (State.canEnableEffect_keepsFaults _ _).trans (s.canEnableEffect_keepsFaults 0)

theorem State.ladderNote_keepsFaults (s : State) (f step st : Nat) : (s.ladderNote f step st).keepsFaults s := by
  have hshown : (s.stepShown f step st).keepsButObjects s :=
    State.keepsButObjects_setO (State.keepsButObjects_setO s.keepsButObjects_refl _ _) _ _
  have hfaults : (s.stepShown f step st).power.faults = s.power.faults := (congrArg (fun v : State => v.power.faults) hshown :)
  rw [State.ladderNote_eq]
  exact (State.stage_linkFrame _ _ _ _ _).faults.trans hfaults

theorem State.pcycAssert_keepsFaults (s : State) (cause func : Nat) : (s.pcycAssert cause func).keepsFaults s := by
  have h : (s.pcycAssert cause func).Flagged (s.setO Obj.RST_PCYC (1 + cause * 2 + func * 16)) :=
    (State.stage_flagged _ _ _ _ _).trans (State.ariseIf_flagged _ 19)
  exact (congrArg (fun v : State => v.power.faults) h.frame :)

theorem State.ladderHigh_faults (h : s.power.faults = []) (f : Nat) (c : Ch) (st : Nat) : (s.ladderHigh f c st).power.faults = [] := by
  rw [State.ladderHigh_eq]
  split
  · exact h
  · split
    · obtain ⟨-, -, -, -, -, hf⟩ := s.ladderReset_resets f st
      exact hf
    · split
      · exact (State.ladderNote_keepsFaults _ _ _ _).trans ((s.pcycAssert_keepsFaults 1 f).trans h)
      · exact (s.ladderNote_keepsFaults _ _ _).trans h

theorem State.ladderReinit_keepsFaults (s : State) (f : Nat) (c : Ch) : (s.ladderReinit f c).keepsFaults s :=
  State.keepsFaults_ite rfl (s.reinit_keepsFaults f (some c))

theorem State.ladderStep_faults (h : s.power.faults = []) (f : Nat) (c : Ch) : (s.ladderStep f c).power.faults = [] := by
  unfold State.ladderStep
  dsimp only
  split
  · exact (s.ladderNote_keepsFaults _ _ _).trans h
  · split
    · exact (State.ladderNote_keepsFaults _ _ _ _).trans ((s.ladderReinit_keepsFaults f c).trans h)
    · exact State.ladderHigh_faults h f c _

theorem State.foldl_faults {β : Type} {step : State → β → State} (hstep : ∀ v x, v.power.faults = [] → (step v x).power.faults = [])
    (xs : List β) (h : s.power.faults = []) : (xs.foldl step s).power.faults = [] := by
  induction xs generalizing s with
  | nil => exact h
  | cons x xs ih => exact ih (hstep s x h)

theorem State.takeFaults_faults (s : State) : s.takeFaults.power.faults = [] := by
  refine State.foldl_faults (fun v e hv => ?_) _ rfl
  split
  · exact State.ladderStep_faults hv _ _
  · exact hv

theorem State.takeDeferred_faults (h : s.power.faults = []) : s.takeDeferred.power.faults = [] := by
  unfold State.takeDeferred
  split
  · refine State.foldl_faults (fun v e hv => ?_) _ h
    split
    · exact State.ladderHigh_faults hv _ _ _
    · exact hv
  · exact h

theorem State.afterPark_faults (h : s.power.faults = []) : s.afterPark.power.faults = [] := by
  unfold State.afterPark
  split
  · exact State.foldl_faults (fun v e hv => (v.reinit_keepsFaults _ _).trans hv) _ h
  · exact h

theorem State.bootWrites_keepsFaults (s : State) : s.bootWrites.keepsFaults s := State.keepsFaults_ite rfl rfl

/-! ### The fault that a FUNCTION_FAULT answers (R536) -/

/-- A raised fault has been taken. -/
def State.faultSeen (s : State) (e : Nat × Ch) : State := { s with watch := { s.watch with raised := s.watch.raised.erase e } }

/-- The outages of a function that counts anew. -/
def outageOf (f : Nat) (c : Ch) (e : Nat × Ch × Nat) : Bool := e.1 == f && (decide (e.2.1 = c) || f != 6)

/-- A lasting outage has been taken. -/
def State.outageSeen (s : State) (f : Nat) (c : Ch) : State :=
  { s with watch := { s.watch with outages := s.watch.outages.filter fun e => !outageOf f c e } }

theorem State.faultTaken_raised (h : (f, c) ∈ s.watch.raised) : ∃ e ∈ s.watch.raised, s.faultTaken f c = some (s.faultSeen e) := by
  have hsome : (s.watch.raised.find? fun e => e.1 == f && (decide (e.2 = c) || f != 0)).isSome :=
    List.find?_isSome.mpr ⟨(f, c), h, by simp⟩
  obtain ⟨e, he⟩ := Option.isSome_iff_exists.mp hsome
  refine ⟨e, List.mem_of_find?_eq_some he, ?_⟩
  unfold State.faultTaken
  rw [he]
  rfl

theorem State.find_raised_none (h : ∀ e ∈ s.watch.raised, e.1 ≠ f) :
    (s.watch.raised.find? fun e => e.1 == f && (decide (e.2 = c) || f != 0)) = none := by
  refine List.find?_eq_none.mpr fun e he hp => h e he ?_
  simp only [Bool.and_eq_true, beq_iff_eq] at hp
  exact hp.1

theorem State.faultTaken_overdue (h : ∀ e ∈ s.watch.raised, e.1 ≠ f) (ho : s.overdue f (Fin.ofNat 128 (c.val % 8)) = true) :
    s.faultTaken f c = some (s.outageSeen f (Fin.ofNat 128 (c.val % 8))) := by
  unfold State.faultTaken
  rw [State.find_raised_none h]
  exact if_pos ho

/-- Without an outage of the function nothing is overdue. -/
theorem State.overdue_none (h : ∀ e ∈ s.watch.outages, outageOf f c e = false) : s.overdue f c = false := by
  refine List.any_eq_false.mpr fun e he => ?_
  have := h e he
  unfold outageOf at this
  simp [this]

theorem State.faultTaken_none (h : ∀ e ∈ s.watch.raised, e.1 ≠ f) (ho : ∀ e ∈ s.watch.outages, e.1 ≠ f) : s.faultTaken f c = none := by
  have hnot : s.overdue f (Fin.ofNat 128 (c.val % 8)) = false := State.overdue_none fun e he => by simp [outageOf, ho e he]
  unfold State.faultTaken
  rw [State.find_raised_none h]
  exact if_neg (by rw [hnot]; decide)

/-- A raised fault takes one step of the ladder. -/
theorem State.functionFault_raised (h : (f, c) ∈ s.watch.raised) (hd : s.cufel.down = false) :
    ∃ e, s.functionFault f c = (s.faultSeen e).ladderStep f c := by
  obtain ⟨e, -, he⟩ := State.faultTaken_raised h
  refine ⟨e, ?_⟩
  unfold State.functionFault
  rw [he]
  exact if_neg fun hdown => Bool.false_ne_true (hd.symm.trans hdown)

theorem State.functionFault_waits (h : (f, c) ∈ s.watch.raised) (hd : s.cufel.down = true) : ∃ e ∈ s.watch.raised,
    s.functionFault f c = { s.faultSeen e with power := { s.power with faults := s.power.faults ++ [(f, c)] } } := by
  obtain ⟨e, hmem, he⟩ := State.faultTaken_raised h
  refine ⟨e, hmem, ?_⟩
  unfold State.functionFault
  rw [he]
  exact if_pos hd

/-! ### What each step leaves -/

/-- Step 1: one more retry of the function, one more fault. -/
theorem State.ladderStep_retries (hf : f < 10) (h : bits (s.o (Obj.REC_STATUS f)) 3 0 < bits (s.o (Obj.REC_POLICY f)) 3 0) :
    ∃ st, (s.ladderStep f c).StepNoted s f 1 st ∧ bits ((s.ladderStep f c).o (Obj.REC_STATUS f)) 3 0 = bits (s.o (Obj.REC_STATUS f)) 3 0 + 1 ∧
      bits ((s.ladderStep f c).o (Obj.REC_STATUS f)) 31 16 = min 65535 (bits (s.o (Obj.REC_STATUS f)) 31 16 + 1) := by
  obtain ⟨hlow, -, hcount⟩ := bits_counted (s.o (Obj.REC_STATUS f))
  have hlt : bits (s.countedStatus f) 3 0 < 15 := by
    have hpolicy := bits_four_lt (s.o (Obj.REC_POLICY f)) 0
    change bits (s.o (Obj.REC_POLICY f)) 3 0 ≤ 15 at hpolicy
    change bits (setBits _ 31 16 _) 3 0 < 15
    omega
  obtain ⟨hone, hkeep⟩ := bits_retried hlt
  obtain ⟨hstep, -, hsteps⟩ := bits_steppedStatus (s.countedStatus f + 1) 1
  have hnote := s.ladderNote_notes hf 1 (s.countedStatus f + 1)
  rw [State.ladderStep_retry h]
  refine ⟨_, hnote, ?_, ?_⟩
  · rw [hnote.status, hstep, hone]
    exact congrArg (· + 1) hlow
  · rw [hnote.status, hsteps, hkeep]
    exact hcount

/-- Step 2: one more re-initialisation, which a park makes wait. -/
theorem State.ladderStep_reinits (hf : f < 10) (h : bits (s.o (Obj.REC_POLICY f)) 3 0 ≤ bits (s.o (Obj.REC_STATUS f)) 3 0)
    (hmost : 2 ≤ bits (s.o (Obj.REC_POLICY f)) 11 8) (hleft : bits (s.o (Obj.REC_STATUS f)) 7 4 < bits (s.o (Obj.REC_POLICY f)) 7 4) :
    bits ((s.ladderStep f c).o (Obj.REC_STATUS f)) 7 4 = bits (s.o (Obj.REC_STATUS f)) 7 4 + 1 ∧
    (s.ladderStep f c).o Obj.REC_LAST = f * 2 ^ 24 + 2 * 2 ^ 20 ∧
    (s.power.parking ≠ none → (s.ladderStep f c).power.deferred = s.power.deferred ++ [(f, 2, c)] ∧
      (s.ladderStep f c).keepsObjects s [Obj.REC_STATUS f, Obj.REC_LAST, Obj.FLT_LOG_LOST]) ∧ (s.ladderStep f c).keepsMemories s := by
  obtain ⟨-, hlow, -⟩ := bits_counted (s.o (Obj.REC_STATUS f))
  have hlt : bits (s.countedStatus f) 7 4 < 15 := by
    have hpolicy := bits_four_lt (s.o (Obj.REC_POLICY f)) 4
    change bits (s.o (Obj.REC_POLICY f)) 7 4 ≤ 15 at hpolicy
    change bits (setBits _ 31 16 _) 7 4 < 15
    omega
  obtain ⟨-, hstep, -⟩ := bits_steppedStatus (s.countedStatus f + 16) 2
  have hnote := (s.ladderReinit f c).ladderNote_notes hf 2 (s.countedStatus f + 16)
  have hmem : (s.ladderReinit f c).keepsMemories s := State.keepsMemories_ite ⟨rfl, rfl, rfl⟩ (s.reinit_keepsMemories f (some c))
  have hnotemem : ((s.ladderReinit f c).ladderNote f 2 (s.countedStatus f + 16)).keepsMemories (s.ladderReinit f c) :=
    ⟨(congrArg State.spm hnote.rest :), (congrArg State.rankMem hnote.rest :), (congrArg State.nvm hnote.rest :)⟩
  rw [State.ladderStep_reinit h hmost hleft]
  refine ⟨?_, hnote.last, fun hp => ?_, State.keepsMemories_trans hnotemem hmem⟩
  · rw [hnote.status, hstep, bits_reinited hlt]
    exact congrArg (· + 1) hlow
  · have hwaits : s.ladderReinit f c = s.stepWaits f 2 c := if_pos (Option.isSome_iff_ne_none.mpr hp)
    rw [hwaits] at hnote ⊢
    exact ⟨(congrArg (fun v : State => v.power.deferred) hnote.rest :), State.keepsObjects_trans hnote.objs fun _ _ => rfl⟩

/-- A step that waits for Run or Degraded, or for a store's end. -/
theorem State.ladderHigh_waits (h : s.resetAllowed f = true) (hfree : s.inRun = false ∨ s.o Obj.NV_STATE ≠ 0) :
    s.ladderHigh f c (s.countedStatus f) = (s.setO (Obj.REC_STATUS f) (s.countedStatus f)).stepWaits f 3 c := by
  have hnot : s.ladderFree = false := by
    rw [Bool.eq_false_iff]
    intro hf
    obtain ⟨hrun, hnv⟩ := State.ladderFree_iff.mp hf
    exact hfree.elim (fun h => Bool.false_ne_true (h.symm.trans hrun)) fun h => h hnv
  rw [State.ladderHigh_eq, if_pos (by simp [h, hnot])]

theorem State.stepWaits_waits (s : State) (f st : Nat) (c : Ch) :
    ((s.setO (Obj.REC_STATUS f) st).stepWaits f 3 c).power.deferred = s.power.deferred ++ [(f, 3, c)] ∧
    ((s.setO (Obj.REC_STATUS f) st).stepWaits f 3 c).keepsObjects s [Obj.REC_STATUS f] ∧
    { (s.setO (Obj.REC_STATUS f) st).stepWaits f 3 c with obj := s.obj, power := s.power } = s := by
  have hobj : (s.setO (Obj.REC_STATUS f) st).keepsObjects s [Obj.REC_STATUS f] :=
    State.keepsObjects_setO (State.keepsObjects_refl s _) List.mem_cons_self _
  have hrest : (s.setO (Obj.REC_STATUS f) st).keepsButObjects s := State.keepsButObjects_setO s.keepsButObjects_refl _ _
  generalize s.setO (Obj.REC_STATUS f) st = v at hobj hrest ⊢
  exact ⟨(congrArg (fun w : State => w.power.deferred ++ [(f, 3, c)]) hrest :), hobj,
    (congrArg (fun w : State => { w with power := s.power }) hrest :)⟩

/-- Step 4: the power cycle is asked for, with its function. -/
theorem State.ladderHigh_cycles (hf : f < 10) (hno : s.resetAllowed f = false) (h : s.cycleAllowed f = true) (hfree : s.ladderFree = true) :
    (s.ladderHigh f c (s.countedStatus f)).o Obj.RST_PCYC = 3 + f * 16 ∧ (s.ladderHigh f c (s.countedStatus f)).ob Obj.FLT_ACTIVE 19 = true ∧
    (s.ladderHigh f c (s.countedStatus f)).o Obj.REC_LAST = f * 2 ^ 24 + 4 * 2 ^ 20 ∧
    (s.ladderHigh f c (s.countedStatus f)).keepsMemories s := by
  obtain ⟨hreq, hcond, hmem⟩ := s.pcycAssert_asserts 1 f
  have hnote := (s.pcycAssert 1 f).ladderNote_notes hf 4 (s.countedStatus f)
  have hne : Obj.RST_PCYC ∉ [Obj.REC_STATUS f, Obj.REC_LAST, Obj.FLT_LOG_LOST] ∧
      Obj.FLT_ACTIVE ∉ [Obj.REC_STATUS f, Obj.REC_LAST, Obj.FLT_LOG_LOST] := by
    interval_cases f <;> decide
  rw [State.ladderHigh_eq, if_neg (by simp [hfree]), if_neg (by simp [hno]), if_pos h]
  refine ⟨(hnote.objs _ hne.1).trans (hreq.trans (by omega)), (State.ob_of_o (hnote.objs _ hne.2)).trans hcond, hnote.last, ?_⟩
  exact State.keepsMemories_trans
    ⟨(congrArg State.spm hnote.rest :), (congrArg State.rankMem hnote.rest :), (congrArg State.nvm hnote.rest :)⟩ hmem

/-- With neither allowed the fault is only recorded. -/
theorem State.ladderHigh_records (h : bits (s.o (Obj.REC_POLICY f)) 11 8 < 3) :
    s.ladderHigh f c (s.countedStatus f) = s.ladderNote f 0 (s.countedStatus f) := by
  have hthree : s.resetAllowed f = false := by
    simp only [State.resetAllowed, Bool.and_eq_false_iff, decide_eq_false_iff_not]
    exact .inl (by omega)
  have hfour : s.cycleAllowed f = false := by
    simp only [State.cycleAllowed, Bool.and_eq_false_iff, decide_eq_false_iff_not]
    exact .inl (by omega)
  rw [State.ladderHigh_eq, if_neg (by simp [hthree, hfour]), if_neg (by simp [hthree]), if_neg (by simp [hfour])]

/-! ### The end of a supervisor's restart (R40, R442) -/

theorem State.hkSwap_keeps (s : State) : s.hkSwap.power = s.power ∧ s.hkSwap.cufel = s.cufel ∧ s.hkSwap.keepsMemories s := by
  unfold State.hkSwap
  split
  · exact ⟨rfl, rfl, rfl, rfl, rfl⟩
  · split
    · split <;> exact ⟨rfl, rfl, rfl, rfl, rfl⟩
    · exact ⟨rfl, rfl, rfl, rfl, rfl⟩

/-- The supervisor is back. -/
def State.supvBack (s : State) : State :=
  let s := ({ s with cufel := { s.cufel with down := false } }).settle
  if s.hk.entry.isNone then s.hkSwap else s

theorem State.supvDone_eq (s : State) : s.supvDone = s.supvBack.takeFaults.takeDeferred.afterPark.bootWrites := rfl

theorem State.supvBack_keeps (s : State) : s.supvBack.power = s.power ∧ s.supvBack.cufel = { s.cufel with down := false } ∧
    s.supvBack.keepsMemories s := by
  have hsettle := State.settle_linkFrame { s with cufel := { s.cufel with down := false } }
  have hpower : ({ s with cufel := { s.cufel with down := false } } : State).settle.power = s.power := hsettle.powerUnit
  have hcufel : ({ s with cufel := { s.cufel with down := false } } : State).settle.cufel = { s.cufel with down := false } := hsettle.cufel
  have hmem : ({ s with cufel := { s.cufel with down := false } } : State).settle.keepsMemories s := hsettle.memories
  unfold State.supvBack
  dsimp only
  generalize ({ s with cufel := { s.cufel with down := false } } : State).settle = v at hpower hcufel hmem ⊢
  obtain ⟨hp, hc, hm⟩ := v.hkSwap_keeps
  split
  · exact ⟨hp.trans hpower, hc.trans hcufel, State.keepsMemories_trans hm hmem⟩
  · exact ⟨hpower, hcufel, hmem⟩

theorem State.supvDone_faults (s : State) : s.supvDone.power.faults = [] := by
  rw [State.supvDone_eq]
  exact (State.bootWrites_keepsFaults _).trans (State.afterPark_faults (State.takeDeferred_faults (State.takeFaults_faults _)))

/-- With no step and no write that waits, the supervisor only goes on. -/
theorem State.supvDone_idle (hf : s.power.faults = []) (hd : s.power.deferred = []) (hr : s.power.newRepairs = []) (hs : s.power.swept = false) :
    s.supvDone.cufel = { s.cufel with down := false } ∧ s.supvDone.keepsMemories s := by
  obtain ⟨hpower, hcufel, hmem⟩ := s.supvBack_keeps
  rw [State.supvDone_eq]
  generalize s.supvBack = v at hpower hcufel hmem ⊢
  have hfaults : v.takeFaults = v := by
    unfold State.takeFaults
    rw [show v.power.faults = [] from (congrArg Power.faults hpower).trans hf]
    have : ({ v.power with faults := [] } : Power) = v.power := by
      rw [hpower]
      exact (congrArg (fun l => ({ s.power with faults := l } : Power)) hf.symm)
    exact congrArg (fun p => ({ v with power := p } : State)) this
  have hdeferred : v.power.deferred = [] := (congrArg Power.deferred hpower).trans hd
  have hsame : ({ v.power with deferred := [] } : Power) = v.power := by
    rw [← hdeferred]
  have htake : v.takeDeferred = v := by
    unfold State.takeDeferred
    split
    · rw [hdeferred]
      exact congrArg (fun p => ({ v with power := p } : State)) hsame
    · rfl
  have hpark : v.afterPark = v := by
    unfold State.afterPark
    split
    · rw [hdeferred]
      exact congrArg (fun p => ({ v with power := p } : State)) hsame
    · rfl
  have hwrites : v.bootWrites = v := if_pos (by simp [hpower, hr, hs])
  rw [hfaults, htake, hpark, hwrites]
  exact ⟨hcufel, hmem⟩

/-- Settles O46: by the fault that has been met, and the first step its policy has left. -/
theorem theLadderClimbsItsSteps : Obligations.TheLadderClimbsItsSteps := by
  unfold Obligations.TheLadderClimbsItsSteps
  intro f c addr s ha
  have hf := f.isLt
  have hrest {e : Nat × Ch} {t : State} {step st : Nat} (h : t.StepNoted (s.faultSeen e) f.val step st) :
      { t with obj := s.obj, log := s.log, watch := s.watch } = s :=
    (congrArg (fun w : State => { w with watch := s.watch }) h.rest :)
  refine ⟨fun hno hout => ?none, fun hr hd => ?waits, fun hno ho hd hleft => ?overdue, fun hr hd hleft => ?retry,
    fun hr hd hused => ⟨fun hmost hleft => ?reinit, fun hnot => ⟨fun hm hl hrun hnv => ?reset, fun hm hl hfree => ?resetWaits,
      fun hl hm hen hrun hnv => ?cycle, fun hm => ?records⟩⟩, ?quiet, ?window, ?watchdog, ?trap, ?trapFw, ?trapSpm, ?done⟩
  case none =>
    have hsame : s.functionFault f c = s := by
      unfold State.functionFault
      rw [State.faultTaken_none hno hout]
    exact congrArg Host.Outcome.next ((State.ifAwake_of ha).trans hsame)
  case waits =>
    obtain ⟨e, hmem, heq⟩ := State.functionFault_waits hr hd
    refine awake_runs ha (t := s.functionFault f c) rfl ?_
    rw [heq]
    refine ⟨rfl, ?_, rfl⟩
    have hpos := List.length_pos_of_mem hmem
    have hlen := List.length_erase_of_mem hmem
    change (s.watch.raised.erase e).length + 1 = _
    omega
  case overdue =>
    have heq : s.functionFault f c = (s.outageSeen f (Fin.ofNat 128 (c.val % 8))).ladderStep f c := by
      unfold State.functionFault
      rw [State.faultTaken_overdue hno ho]
      exact if_neg fun hdown => Bool.false_ne_true (hd.symm.trans hdown)
    obtain ⟨st, hnote, hone, -⟩ := State.ladderStep_retries (s := s.outageSeen f (Fin.ofNat 128 (c.val % 8))) (c := c) hf hleft
    refine awake_runs ha (t := s.functionFault f c) rfl ?_
    rw [heq]
    refine ⟨hone, State.overdue_none fun e he => ?_⟩
    rw [show ((s.outageSeen f (Fin.ofNat 128 (c.val % 8))).ladderStep f c).watch.outages =
      (s.outageSeen f (Fin.ofNat 128 (c.val % 8))).watch.outages from (congrArg (fun v : State => v.watch.outages) hnote.rest :)] at he
    simpa using (List.mem_filter.mp he).2
  case retry =>
    obtain ⟨e, heq⟩ := State.functionFault_raised hr hd
    obtain ⟨st, hnote, hone, hcount⟩ := State.ladderStep_retries (s := s.faultSeen e) (c := c) hf hleft
    refine awake_runs ha (t := s.functionFault f c) rfl ?_
    rw [heq]
    exact ⟨hone, hcount, hnote.last.trans (by norm_num), hnote.objs, hrest hnote⟩
  case reinit =>
    obtain ⟨e, heq⟩ := State.functionFault_raised hr hd
    refine awake_runs ha (t := s.functionFault f c) rfl ?_
    rw [heq]
    exact State.ladderStep_reinits (s := s.faultSeen e) (c := c) hf hused hmost hleft
  case reset =>
    obtain ⟨e, heq⟩ := State.functionFault_raised hr hd
    have hallowed : (s.faultSeen e).resetAllowed f = true := State.resetAllowed_of hm hl
    have hfree : (s.faultSeen e).ladderFree = true := State.ladderFree_iff.mpr ⟨hrun, hnv⟩
    obtain ⟨hstate, hcause, hladder, hcount, hspm, -⟩ := (s.faultSeen e).ladderReset_resets f ((s.faultSeen e).countedStatus f)
    refine awake_runs ha (t := s.functionFault f c) rfl ?_
    rw [heq, State.ladderStep_high (s := s.faultSeen e) hused hnot, State.ladderHigh_eq, if_neg (by simp [hfree]), if_pos hallowed]
    exact ⟨hstate, hcause, hladder, hcount, hspm⟩
  case resetWaits =>
    obtain ⟨e, heq⟩ := State.functionFault_raised hr hd
    have hallowed : (s.faultSeen e).resetAllowed f = true := State.resetAllowed_of hm hl
    obtain ⟨hdef, hobj, hkeep⟩ := (s.faultSeen e).stepWaits_waits f ((s.faultSeen e).countedStatus f) c
    refine awake_runs ha (t := s.functionFault f c) rfl ?_
    rw [heq, State.ladderStep_high (s := s.faultSeen e) hused hnot, State.ladderHigh_waits hallowed hfree]
    exact ⟨hdef, hobj, (congrArg (fun w : State => { w with watch := s.watch }) hkeep :)⟩
  case cycle =>
    obtain ⟨e, heq⟩ := State.functionFault_raised hr hd
    have hno : (s.faultSeen e).resetAllowed f = false := by
      have : ¬ s.o Obj.RST_LADDER < s.o Obj.REC_RESET_LIMIT := by omega
      exact Bool.and_eq_false_iff.mpr (.inr (decide_eq_false this))
    have hallowed : (s.faultSeen e).cycleAllowed f = true := Bool.and_eq_true_iff.mpr ⟨decide_eq_true hm, decide_eq_true hen⟩
    refine awake_runs ha (t := s.functionFault f c) rfl ?_
    rw [heq, State.ladderStep_high (s := s.faultSeen e) hused hnot]
    exact State.ladderHigh_cycles hf hno hallowed (State.ladderFree_iff.mpr ⟨hrun, hnv⟩)
  case records =>
    obtain ⟨e, heq⟩ := State.functionFault_raised hr hd
    have hnote := (s.faultSeen e).ladderNote_notes hf 0 ((s.faultSeen e).countedStatus f)
    refine awake_runs ha (t := s.functionFault f c) rfl ?_
    rw [heq, State.ladderStep_high (s := s.faultSeen e) hused hnot, State.ladderHigh_records (s := s.faultSeen e) hm]
    exact ⟨hnote.last.trans (by norm_num), hnote.objs, hrest hnote⟩
  case quiet =>
    obtain ⟨hzero, hrestBits⟩ := bits_quiet (s.o (Obj.REC_STATUS f))
    refine awake_runs ha (t := s.quiet f) rfl ⟨?_, ?_, ?_, ?_⟩
    · rw [State.quiet, State.o_setO_self, hzero]
    · rw [State.quiet, State.o_setO_self, hrestBits]
    · exact State.keepsObjects_setO (State.keepsObjects_refl s _) List.mem_cons_self _
    · exact State.keepsButObjects_setO s.keepsButObjects_refl _ _
  case window =>
    exact awake_runs ha (t := s.setO Obj.RST_LADDER 0) rfl
      ⟨State.o_setO_self _ _ _, State.keepsObjects_setO (State.keepsObjects_refl s _) List.mem_cons_self _, rfl⟩
  case watchdog =>
    have h := s.supvRestart_restarted 3 0
    exact awake_runs ha (t := s.supvRestart 3 0) rfl ⟨h.cause, h.count, h.unserved, congrArg Cufel.sessions h.cufel,
      congrArg Cufel.transfers h.cufel, s.supvRestart_raises 0 (by decide), congrArg MemUnit.fwRam h.ram, congrArg MemUnit.fwLoads h.ram,
      (congrArg Cufel.queue h.cufel :), h.memories⟩
  case trap =>
    have h := s.supvRestart_restarted 2 0
    exact awake_runs ha (t := s.supvRestart 2 0) rfl ⟨h.cause, h.count, h.unserved, s.supvRestart_raises 0 (by decide), h.memories⟩
  case trapFw =>
    have hlog := State.stage_keepsObjects (s.bump Obj.SPM_FW_UE) 0x0305 0 4 (bytesLE 1 1 ++ bytesLE 4 addr.toNat)
    have hcond := State.ariseOnce_keepsObjects ((s.bump Obj.SPM_FW_UE).stage 0x0305 0 4 (bytesLE 1 1 ++ bytesLE 4 addr.toNat)) 6
    have hlatch := State.ariseOnce_latches ((s.bump Obj.SPM_FW_UE).stage 0x0305 0 4 (bytesLE 1 1 ++ bytesLE 4 addr.toNat)) 6
    refine awake_runs ha (t := ((((s.bump Obj.SPM_FW_UE).stage 0x0305 0 4 (bytesLE 1 1 ++ bytesLE 4 addr.toNat)).ariseOnce 6).supvRestart 1 addr.toNat)) rfl ?_
    have hue := (hcond Obj.SPM_FW_UE (by decide)).trans ((hlog _ (by decide)).trans (s.o_bump_self Obj.SPM_FW_UE))
    generalize ((s.bump Obj.SPM_FW_UE).stage 0x0305 0 4 (bytesLE 1 1 ++ bytesLE 4 addr.toNat)).ariseOnce 6 = v at hue hlatch ⊢
    have h := v.supvRestart_restarted 1 addr.toNat
    exact ⟨h.cause, (h.objs _ (by decide) (by decide)).trans hue, h.latched 6 hlatch, h.unserved⟩
  case trapSpm =>
    have hnote := s.noteWord_keepsObjects 4 addr.toNat [.word (BitVec.ofNat 23 addr.toNat) .double 0]
    refine awake_runs ha (t := (s.noteWord 4 addr.toNat [.word (BitVec.ofNat 23 addr.toNat) .double 0]).supvRestart 1 addr.toNat) rfl ?_
    have hsupv := hnote Obj.RST_SUPV (by decide)
    generalize s.noteWord 4 addr.toNat [.word (BitVec.ofNat 23 addr.toNat) .double 0] = v at hsupv ⊢
    have h := v.supvRestart_restarted 1 addr.toNat
    exact ⟨h.cause, h.count.trans (congrArg (satAdd 32 · 1) hsupv), h.unserved⟩
  case done =>
    exact awake_runs ha (t := s.supvDone) rfl ⟨s.supvDone_faults, fun hf hd hr hs => State.supvDone_idle hf hd hr hs⟩

end Sys2Proof.Machine
end

section
/-! SUPPORT. Frames that leave and come in on the CAN port (R474 to R478). -/
namespace Sys2Proof.Machine

variable {s t u : State} {agree : Bool} {node : Nat}

/-! ### Frames that leave (R474, R478) -/

/-- The objects that a message on its way to the bus writes. -/
def canSendKeys : List Nat := [Obj.CHK_RUN 34, Obj.CAN_TX_FRAMES, Obj.CAN_TEC]

/-- Messages have left on the bus: the message sequence number goes on, and so does the output. -/
structure State.CanSent (t s : State) : Prop where
  objs : t.keepsObjects s canSendKeys
  can : ∃ n, t.can = { s.can with mseq := n }
  out : s.out <+: t.out
  rest : { t with obj := s.obj, out := s.out, can := s.can, cufel := s.cufel } = s

theorem State.CanSent.refl (s : State) : s.CanSent s := ⟨State.keepsObjects_refl s _, ⟨s.can.mseq, rfl⟩, List.prefix_rfl, rfl⟩

theorem State.CanSent.trans (h : u.CanSent t) (h' : t.CanSent s) : u.CanSent s where
  objs := State.keepsObjects_trans h.objs h'.objs
  can := by
    obtain ⟨n, hn⟩ := h.can
    obtain ⟨m, hm⟩ := h'.can
    exact ⟨n, by rw [hn, hm]⟩
  out := h'.out.trans h.out
  rest := by
    have hu := h.rest
    have ht := h'.rest
    rw [← hu] at ht
    exact ht

theorem State.canPut_keepsObjects (s : State) (f : Nat × List Byte) : (s.canPut f).keepsObjects s [Obj.CAN_TX_FRAMES, Obj.CAN_TEC] :=
  State.keepsObjects_setO (t := s.wrapBy 32 Obj.CAN_TX_FRAMES 1) (State.keepsObjects_setO (State.keepsObjects_refl s _) (by simp) _) (by simp) _

theorem State.canPut_sent (s : State) (f : Nat × List Byte) : (s.canPut f).CanSent s where
  objs := State.keepsObjects_mono (s.canPut_keepsObjects f) (by decide)
  can := ⟨s.can.mseq, rfl⟩
  out := List.prefix_append _ _
  rest := rfl

theorem State.canOut_sent (l : List (Nat × List Byte)) (s : State) : (s.canOut l).CanSent s := by
  induction l generalizing s with
  | nil => exact .refl s
  | cons f l ih => exact (ih _).trans (s.canPut_sent f)

theorem State.canMessage_sent (s : State) (m : Msg) : (s.canMessage m).CanSent s := by
  have hcheck : (s.check 34 m.headBody).CanSent s :=
    ⟨State.keepsObjects_setO (State.keepsObjects_refl s _) (by decide) _, ⟨s.can.mseq, rfl⟩, List.prefix_rfl, rfl⟩
  have hnext (v : State) : ({ v with can := { v.can with mseq := (v.can.mseq + 1) % 8 } } : State).CanSent v :=
    ⟨fun _ _ => rfl, ⟨_, rfl⟩, List.prefix_rfl, rfl⟩
  unfold State.canMessage
  exact (hnext _).trans ((State.canOut_sent _ _).trans hcheck)

theorem State.canMessages_sent (l : List Msg) (s : State) : (l.foldl State.canMessage s).CanSent s := by
  induction l generalizing s with
  | nil => exact .refl s
  | cons m l ih => exact (ih _).trans (s.canMessage_sent m)

/-- The messages that wait leave, if the port sends. -/
theorem State.canFlush_sent (s : State) : s.canFlush.CanSent s := by
  have hempty : ({ s with cufel := { s.cufel with outCan := [] } } : State).CanSent s := ⟨fun _ _ => rfl, ⟨s.can.mseq, rfl⟩, List.prefix_rfl, rfl⟩
  unfold State.canFlush
  split
  · exact (State.canMessages_sent _ _).trans hempty
  · exact .refl s

/-- Without a message that waits nothing leaves. -/
theorem State.canFlush_empty (h : s.cufel.outCan = []) : s.canFlush = s := by
  have hsame : ({ s.cufel with outCan := [] } : Cufel) = s.cufel := by rw [← h]
  unfold State.canFlush
  split
  · rw [h]
    exact congrArg (fun c => ({ s with cufel := c } : State)) hsame
  · rfl

theorem State.canFlush_silent (h : s.canSends = false) : s.canFlush = s := if_neg (by simp [h])

theorem State.canSends_off (h : s.can.busOff = true) : s.canSends = false := by simp [State.canSends, h]

theorem State.canSends_state (h : s.o Obj.CAN_STATE ∉ [2, 4, 5]) : s.canSends = false := by
  have : ([2, 4, 5] : List Nat).contains (s.o Obj.CAN_STATE) = false := by
    rw [Bool.eq_false_iff]
    exact fun hc => h (List.contains_iff_mem.mp hc)
  simp only [State.canSends, this, Bool.false_and]

theorem State.CanSent.memories (h : t.CanSent s) : t.keepsMemories s :=
  ⟨(congrArg State.spm h.rest :), (congrArg State.rankMem h.rest :), (congrArg State.nvm h.rest :)⟩

theorem State.CanSent.o (h : t.CanSent s) {k : Nat} (hk : k ∉ canSendKeys) : t.o k = s.o k := h.objs k hk

/-! ### Frames that come in (R474, R476, R479) -/

/-- The objects that every frame received without error writes. -/
def canTakeKeys : List Nat := [Obj.CAN_RX_FRAMES, Obj.CAN_CLKSRC, Obj.CAN_REC]

/-- Frames in a row whose bit times agree, with this one. -/
def State.agreeing (s : State) (agree : Bool) : Nat := if agree then s.can.agree + 1 else 1

/-- A frame has been received without error. -/
structure State.CanTaken (t s : State) (agree : Bool) : Prop where
  frames : t.o Obj.CAN_RX_FRAMES = (s.o Obj.CAN_RX_FRAMES + 1) % 2 ^ 32
  clock : t.o Obj.CAN_CLKSRC = if s.o Obj.CAN_CLKSRC = 0 ∧ agree = true ∧ 7 ≤ s.can.agree then 1 else s.o Obj.CAN_CLKSRC
  low : s.o Obj.CAN_REC < 128 → t.o Obj.CAN_REC = s.o Obj.CAN_REC - 1
  high : 128 ≤ s.o Obj.CAN_REC → 119 ≤ t.o Obj.CAN_REC ∧ t.o Obj.CAN_REC ≤ 127
  objs : t.keepsObjects s canTakeKeys
  rest : { t with obj := s.obj, can := s.can, free := s.free } = s

theorem State.canRxGood_good (s : State) : s.canRxGood.keepsObjects s [Obj.CAN_REC] ∧
    (s.o Obj.CAN_REC < 128 → s.canRxGood.o Obj.CAN_REC = s.o Obj.CAN_REC - 1) ∧
    (128 ≤ s.o Obj.CAN_REC → 119 ≤ s.canRxGood.o Obj.CAN_REC ∧ s.canRxGood.o Obj.CAN_REC ≤ 127) ∧ s.canRxGood.can = s.can ∧
    { s.canRxGood with obj := s.obj, free := s.free } = s := by
  have hkeep (v : Nat) : (s.setO Obj.CAN_REC v).keepsObjects s [Obj.CAN_REC] :=
    State.keepsObjects_setO (State.keepsObjects_refl s _) (by simp) v
  unfold State.canRxGood
  split
  · next h => exact ⟨hkeep _, fun _ => State.o_setO_self _ _ _, fun h' => by omega, rfl, rfl⟩
  · next h =>
    have hrec : ((s.setO Obj.CAN_REC (119 + s.open % 9)).drawn).o Obj.CAN_REC = 119 + s.open % 9 := State.o_setO_self _ _ _
    refine ⟨hkeep _, fun h' => absurd h' h, fun _ => ?_, rfl, rfl⟩
    rw [hrec]
    omega

/-- The count of agreeing frames. -/
def State.agreed (s : State) (n : Nat) : State := { s with can := { s.can with agree := n } }

/-- The clock correction from the bus. -/
def State.clockFrom (s : State) (n : Nat) : State := if s.o Obj.CAN_CLKSRC = 0 ∧ 8 ≤ n then s.setO Obj.CAN_CLKSRC 1 else s

theorem State.canTaken_eq (s : State) (agree : Bool) :
    s.canTaken agree = (((s.wrapBy 32 Obj.CAN_RX_FRAMES 1).canRxGood).agreed (s.agreeing agree)).clockFrom (s.agreeing agree) := by
  obtain ⟨-, -, -, hcan, -⟩ := (s.wrapBy 32 Obj.CAN_RX_FRAMES 1).canRxGood_good
  have hagree : (s.wrapBy 32 Obj.CAN_RX_FRAMES 1).canRxGood.agreeing agree = s.agreeing agree := by
    unfold State.agreeing
    rw [hcan]
    rfl
  rw [← hagree]
  rfl

theorem State.eight_le_agreeing : 8 ≤ s.agreeing agree ↔ agree = true ∧ 7 ≤ s.can.agree := by
  unfold State.agreeing
  cases agree
  · simp
  · simp only [if_true, true_and]
    omega

theorem State.canTaken_taken (s : State) (agree : Bool) : (s.canTaken agree).CanTaken s agree := by
  have hrx : (s.wrapBy 32 Obj.CAN_RX_FRAMES 1).keepsObjects s [Obj.CAN_RX_FRAMES] :=
    State.keepsObjects_setO (State.keepsObjects_refl s _) (by simp) _
  have hcount : (s.wrapBy 32 Obj.CAN_RX_FRAMES 1).o Obj.CAN_RX_FRAMES = (s.o Obj.CAN_RX_FRAMES + 1) % 2 ^ 32 := State.o_setO_self _ _ _
  have hfirst : ({ s.wrapBy 32 Obj.CAN_RX_FRAMES 1 with obj := s.obj } : State) = s := rfl
  have hfree : (s.wrapBy 32 Obj.CAN_RX_FRAMES 1).free = s.free := rfl
  rw [State.canTaken_eq]
  generalize s.wrapBy 32 Obj.CAN_RX_FRAMES 1 = v at hrx hcount hfirst hfree ⊢
  obtain ⟨hgood, hlow, hhigh, -, hrest⟩ := v.canRxGood_good
  have hrec : v.o Obj.CAN_REC = s.o Obj.CAN_REC := hrx _ (by decide)
  have hsrc : v.canRxGood.o Obj.CAN_CLKSRC = s.o Obj.CAN_CLKSRC := (hgood _ (by decide)).trans (hrx _ (by decide))
  have hframes := (hgood Obj.CAN_RX_FRAMES (by decide)).trans hcount
  have hkeep : v.canRxGood.keepsObjects s canTakeKeys :=
    State.keepsObjects_trans (State.keepsObjects_mono hgood (by decide)) (State.keepsObjects_mono hrx (by decide))
  have hall : ({ v.canRxGood with obj := s.obj, free := s.free } : State) = s := by
    have h1 : ({ v.canRxGood with obj := s.obj, free := s.free } : State) = { v with obj := s.obj, free := s.free } :=
      congrArg (fun x : State => { x with obj := s.obj, free := s.free }) hrest
    have h2 : ({ v with obj := s.obj, free := s.free } : State) = s := by
      rw [← hfree]
      exact hfirst
    exact h1.trans h2
  rw [hrec] at hlow hhigh
  generalize v.canRxGood = w at hgood hsrc hframes hkeep hall hlow hhigh ⊢
  have hagreed (k : Nat) : (w.agreed (s.agreeing agree)).o k = w.o k := rfl
  have hrest' : ({ w.agreed (s.agreeing agree) with obj := s.obj, can := s.can, free := s.free } : State) = s :=
    (congrArg (fun x : State => { x with can := s.can }) hall :)
  generalize w.agreed (s.agreeing agree) = x at hagreed hrest' ⊢
  unfold State.clockFrom
  rw [hagreed, hsrc]
  have hcond : (s.o Obj.CAN_CLKSRC = 0 ∧ 8 ≤ s.agreeing agree) ↔ (s.o Obj.CAN_CLKSRC = 0 ∧ agree = true ∧ 7 ≤ s.can.agree) := by
    rw [State.eight_le_agreeing]
  split
  · next h =>
    exact {
      frames := (State.o_setO_ne _ _ (by decide)).trans ((hagreed _).trans hframes)
      clock := (State.o_setO_self _ _ _).trans (if_pos (hcond.mp h)).symm
      low := fun hr => (State.o_setO_ne _ _ (by decide)).trans ((hagreed _).trans (hlow hr))
      high := fun hr => by
        rw [State.o_setO_ne _ _ (by decide), hagreed]
        exact hhigh hr
      objs := State.keepsObjects_setO (fun k hk => (hagreed k).trans (hkeep k hk)) (by decide) _
      rest := hrest' }
  · next h =>
    exact {
      frames := (hagreed _).trans hframes
      clock := ((hagreed _).trans hsrc).trans (if_neg fun hc => h (hcond.mpr hc)).symm
      low := fun hr => (hagreed _).trans (hlow hr)
      high := fun hr => by
        rw [hagreed]
        exact hhigh hr
      objs := fun k hk => (hagreed k).trans (hkeep k hk)
      rest := hrest' }

theorem State.canTaken_can (s : State) (agree : Bool) : (s.canTaken agree).can = { s.can with agree := s.agreeing agree } := by
  obtain ⟨-, -, -, hcan, -⟩ := (s.wrapBy 32 Obj.CAN_RX_FRAMES 1).canRxGood_good
  have hagreed : (((s.wrapBy 32 Obj.CAN_RX_FRAMES 1).canRxGood).agreed (s.agreeing agree)).can = { s.can with agree := s.agreeing agree } :=
    congrArg (fun c : Can => { c with agree := s.agreeing agree }) hcan
  rw [State.canTaken_eq]
  generalize ((s.wrapBy 32 Obj.CAN_RX_FRAMES 1).canRxGood).agreed (s.agreeing agree) = v at hagreed ⊢
  unfold State.clockFrom
  split
  · exact hagreed
  · exact hagreed

/-- The nodes heard, with one more. -/
def State.heardWith (s : State) (node : Nat) : List (Nat × Nat) := (node, s.tick) :: s.can.heard.filter fun e => e.1 != node

/-- The port with the nodes heard. -/
def Can.hearing (c : Can) (l : List (Nat × Nat)) : Can := { c with heard := l }

theorem State.canHeard_def (s : State) (node : Nat) (agree : Bool) :
    s.canHeard node agree = { s.canTaken agree with can := (s.canTaken agree).can.hearing ((s.canTaken agree).heardWith node) } := by
  unfold State.canHeard
  generalize s.canTaken agree = v
  rfl

theorem State.canHeard_taken (s : State) (node : Nat) (agree : Bool) : (s.canHeard node agree).CanTaken s agree := by
  have h := s.canTaken_taken agree
  rw [State.canHeard_def]
  generalize s.canTaken agree = v at h ⊢
  exact ⟨h.frames, h.clock, h.low, h.high, h.objs, h.rest⟩

theorem State.canTaken_heardWith (s : State) (node : Nat) (agree : Bool) : (s.canTaken agree).heardWith node = s.heardWith node := by
  have hcan := s.canTaken_can agree
  have htick : (s.canTaken agree).tick = s.tick := (congrArg State.tick (s.canTaken_taken agree).rest :)
  unfold State.heardWith
  rw [hcan, htick]

theorem State.canHeard_can (s : State) (node : Nat) (agree : Bool) :
    (s.canHeard node agree).can = ({ s.can with agree := s.agreeing agree } : Can).hearing (s.heardWith node) := by
  rw [State.canHeard_def, State.canTaken_heardWith, State.canTaken_can]

theorem State.CanTaken.memories (h : t.CanTaken s agree) : t.keepsMemories s :=
  ⟨(congrArg State.spm h.rest :), (congrArg State.rankMem h.rest :), (congrArg State.nvm h.rest :)⟩

end Sys2Proof.Machine
end

section
/-! SUPPORT. What the port does with a frame that it hears (R476 to R480). -/
namespace Sys2Proof.Machine

variable {s t u : State} {agree : Bool} {node id : Nat} {data : List Byte} {k : CanKind} {r : Reasm}

/-! ### Reactions leave what every frame counts (R474, R479) -/

/-- A reaction to a frame leaves the counts that every frame makes, and the nodes heard. -/
structure State.CanReacts (t s : State) : Prop where
  taken : ∀ j ∈ canTakeKeys, t.o j = s.o j
  heard : t.can.heard = s.can.heard

theorem State.CanReacts.refl (s : State) : s.CanReacts s := ⟨fun _ _ => rfl, rfl⟩

theorem State.CanReacts.trans (h : u.CanReacts t) (h' : t.CanReacts s) : u.CanReacts s :=
  ⟨fun j hj => (h.taken j hj).trans (h'.taken j hj), h.heard.trans h'.heard⟩

theorem State.CanReacts.setO (h : t.CanReacts s) {j : Nat} (hj : j ∉ canTakeKeys) (v : Nat) : (t.setO j v).CanReacts s :=
  ⟨fun i hi => (State.o_setO_ne t v fun e : i = j => hj (e ▸ hi)).trans (h.taken i hi), h.heard⟩

theorem State.CanReacts.can (h : t.CanReacts s) (ho : u.obj = t.obj) (hc : u.can.heard = t.can.heard) : u.CanReacts s :=
  ⟨fun j hj => (congrArg (fun l => sget (objDefault j) l j) ho).trans (h.taken j hj), hc.trans h.heard⟩

theorem State.CanSent.reacts (h : t.CanSent s) : t.CanReacts s where
  taken j hj := h.objs j fun hmem => by
    simp only [canTakeKeys, canSendKeys, List.mem_cons, List.not_mem_nil, or_false] at hj hmem
    rcases hj with rfl | rfl | rfl <;> revert hmem <;> decide
  heard := by
    obtain ⟨n, hn⟩ := h.can
    rw [hn]

theorem State.canMember_reacts (s : State) : s.canMember.CanReacts s := ((State.CanReacts.refl s).setO (j := Obj.CAN_STATE) (by decide) 2).can rfl rfl

theorem State.canClaim_reacts (s : State) : s.canClaim.CanReacts s := ((State.CanReacts.refl s).setO (j := Obj.CAN_STATE) (by decide) 3).can rfl rfl

theorem State.keeperGone_reacts (s : State) : s.keeperGone.CanReacts s := by
  unfold State.keeperGone
  split
  · exact (State.CanReacts.refl s).setO (by decide) _
  · exact .refl s

/-- The objects that an address conflict shows in, beside the port's own. -/
def conflictKeys : List Nat := [Obj.FLT_LOG_LOST, Obj.FLT_FAULTN, Obj.FLT_ACTIVE, Obj.FLT_LATCHED, Obj.FLT_COND_CNT 18]

theorem State.addressConflict_keepsObjects (s : State) : s.addressConflict.keepsObjects s conflictKeys :=
  State.keepsObjects_trans (State.keepsObjects_mono (State.ariseIf_keepsObjects _ 18) (by decide))
    (State.keepsObjects_mono (State.stage_keepsObjects s _ _ _ _) (by decide))

theorem State.addressConflict_linkFrame (s : State) : { s.addressConflict with obj := s.obj, log := s.log } = s := by
  have hraise := ((s.stage 0x0601 0 0 (bytesLE 1 (s.o Obj.CAN_NODE) ++ bytesLE 1 (s.o Obj.CAN_STATE))).ariseIf_keepsButObjects 18)
  have hstage := s.stage_frame 0x0601 0 0 (bytesLE 1 (s.o Obj.CAN_NODE) ++ bytesLE 1 (s.o Obj.CAN_STATE))
  exact (congrArg (fun x : State => { x with obj := s.obj, log := s.log }) hraise :).trans hstage

theorem State.addressConflict_reacts (s : State) : s.addressConflict.CanReacts s where
  taken j hj := s.addressConflict_keepsObjects j fun hmem => by
    simp only [canTakeKeys, conflictKeys, List.mem_cons, List.not_mem_nil, or_false] at hj hmem
    rcases hj with rfl | rfl | rfl <;> revert hmem <;> decide
  heard := (congrArg (fun x : State => x.can.heard) s.addressConflict_linkFrame :)

theorem State.canConflict_reacts (s : State) : s.canConflict.CanReacts s := by
  unfold State.canConflict
  split
  · exact (State.addressConflict_reacts _).trans (((State.keeperGone_reacts s).setO (by decide) _).setO (by decide) _)
  · exact .refl s

theorem State.keeperHb_sent (s : State) : s.keeperHb.CanSent s := State.canOut_sent _ _

theorem State.claimIn_reacts (s : State) (node : Nat) : (s.claimIn node).CanReacts s := by
  unfold State.claimIn
  dsimp only
  split
  · exact s.canConflict_reacts
  · split
    · split
      · exact s.canMember_reacts
      · exact .refl s
    · split
      · exact s.canMember.keeperGone_reacts.trans s.canMember_reacts
      · exact s.keeperHb_sent.reacts
    · exact .refl s

theorem State.keeperIn_reacts (s : State) (node : Nat) : (s.keeperIn node).CanReacts s := by
  have hnamed {v : State} (h : v.CanReacts s) : (v.setO Obj.CAN_KEEPER node).CanReacts s := h.setO (by decide) node
  have hmember (c : Prop) [Decidable c] : (if c then s.canMember else s).CanReacts s := by
    split
    · exact s.canMember_reacts
    · exact .refl s
  unfold State.keeperIn
  dsimp only
  split
  · exact s.canConflict_reacts
  · split
    · exact hnamed (hmember _)
    · split
      · exact (State.canClaim_reacts _).trans (hnamed (.refl s))
      · exact hnamed (.refl s)
    · exact hnamed (hmember _)
    · split
      · exact hnamed s.canMember_reacts
      · exact .refl s
    · split
      · exact (hnamed (.refl s)).can rfl rfl
      · exact hnamed (.refl s)
    · exact .refl s

theorem State.beaconIn_reacts (s : State) (ms : Nat) : (s.beaconIn ms).CanReacts s :=
  ((State.CanReacts.refl s).setO (by decide) ms).setO (by decide) s.xc

/-! ### Reassembly (R478) -/

/-- The port without a node's reassembly. -/
def Can.without (c : Can) (node : Nat) : Can := { c with reasm := c.reasm.filter fun x => x.node != node }

theorem State.dropReasm_can (s : State) (node : Nat) : (s.dropReasm node).can = s.can.without node := rfl

theorem State.loseReasm_none (h : ∀ x ∈ s.can.reasm, x.node ≠ node) : s.loseReasm node = s :=
  if_neg (by simpa using h)

theorem State.loseReasm_some (h : ∃ x ∈ s.can.reasm, x.node = node) : s.loseReasm node = (s.dropReasm node).bump Obj.CAN_RX_DROP :=
  if_pos (by simpa using h)

theorem Can.mem_without {c : Can} {x : Reasm} (h : x ∈ (c.without node).reasm) : x.node ≠ node := by
  simpa using List.of_mem_filter h

theorem Can.without_of_none {c : Can} (h : ∀ x ∈ c.reasm, x.node ≠ node) : c.without node = c := by
  have : c.reasm.filter (fun x => x.node != node) = c.reasm := List.filter_eq_self.mpr fun x hx => by simpa using h x hx
  unfold Can.without
  rw [this]

theorem Can.without_without (c : Can) (node : Nat) : (c.without node).without node = c.without node :=
  Can.without_of_none fun _ => Can.mem_without

theorem State.loseReasm_can (s : State) (node : Nat) : (s.loseReasm node).can = s.can.without node := by
  by_cases h : ∃ x ∈ s.can.reasm, x.node = node
  · rw [State.loseReasm_some h]
    rfl
  · have hnone : ∀ x ∈ s.can.reasm, x.node ≠ node := fun x hx e => h ⟨x, hx, e⟩
    rw [State.loseReasm_none hnone, Can.without_of_none hnone]

/-- A reaction that only reassembles: the drop count, the port and the order of complete messages. -/
structure State.Reassembles (t s : State) : Prop where
  objs : t.keepsObjects s [Obj.CAN_RX_DROP]
  heard : t.can.heard = s.can.heard
  rest : { t with obj := s.obj, can := s.can, cufel := { t.cufel with order := s.cufel.order } } = s

theorem State.Reassembles.refl (s : State) : s.Reassembles s := ⟨State.keepsObjects_refl s _, rfl, rfl⟩

theorem State.Reassembles.trans (h : u.Reassembles t) (h' : t.Reassembles s) : u.Reassembles s where
  objs := State.keepsObjects_trans h.objs h'.objs
  heard := h.heard.trans h'.heard
  rest := by
    have hu := h.rest
    have ht := h'.rest
    rw [← hu] at ht
    exact ht

theorem State.bump_reassembles (s : State) : (s.bump Obj.CAN_RX_DROP).Reassembles s :=
  ⟨State.keepsObjects_bump (State.keepsObjects_refl s _) (by simp), rfl, rfl⟩

theorem State.dropReasm_reassembles (s : State) (node : Nat) : (s.dropReasm node).Reassembles s := ⟨fun _ _ => rfl, rfl, rfl⟩

theorem State.loseReasm_reassembles (s : State) (node : Nat) : (s.loseReasm node).Reassembles s := by
  unfold State.loseReasm
  split
  · exact (State.bump_reassembles _).trans (s.dropReasm_reassembles node)
  · exact .refl s

theorem State.canComplete_reassembles (s : State) (r : Reasm) : (s.canComplete r).Reassembles s := by
  have hdrop := s.dropReasm_reassembles r.node
  unfold State.canComplete
  generalize s.dropReasm r.node = v at hdrop ⊢
  dsimp only
  split
  · exact v.bump_reassembles.trans hdrop
  · have hnew : ({ v with can := { v.can with inbox := v.can.inbox ++ [(r.node, r.bytes)] }, cufel := { v.cufel with order := v.cufel.order ++ [.can] } } : State).Reassembles v :=
      ⟨fun _ _ => rfl, rfl, rfl⟩
    exact hnew.trans hdrop

/-- A segment that is not the last goes on with its node's reassembly. -/
def State.opened (s : State) (node : Nat) (r : Reasm) : State :=
  { s.dropReasm node with can := { (s.dropReasm node).can with reasm := (s.dropReasm node).can.reasm ++ [r] } }

theorem State.opened_reassembles (s : State) (node : Nat) (r : Reasm) : (s.opened node r).Reassembles s := ⟨fun _ _ => rfl, rfl, rfl⟩

/-- A reassembly with one more segment. -/
def State.segmentAdded (s : State) (id : Nat) (r : Reasm) : State := if bit id 6 then s.canComplete r else s.opened (bits id 24 19) r

theorem State.segmentAdded_reassembles (s : State) (id : Nat) (r : Reasm) : (s.segmentAdded id r).Reassembles s := by
  unfold State.segmentAdded
  split
  · exact s.canComplete_reassembles r
  · exact s.opened_reassembles _ r

theorem State.canSegment_first (h : bits id 9 7 = 0) : s.canSegment id data = (s.loseReasm (bits id 24 19)).segmentAdded id
    { node := bits id 24 19, mseq := bits id 12 10, segs := 1, bytes := data } := by
  unfold State.canSegment
  dsimp only
  rw [if_pos h]
  rfl

theorem State.canSegment_none (h : bits id 9 7 ≠ 0) (hr : s.can.reasm.find? (fun x => x.node == bits id 24 19) = none) :
    s.canSegment id data = s := by
  unfold State.canSegment
  dsimp only
  rw [if_neg h, hr]

theorem State.canSegment_next (h : bits id 9 7 ≠ 0) (hr : s.can.reasm.find? (fun x => x.node == bits id 24 19) = some r)
    (hm : r.mseq = bits id 12 10) (hs : r.segs = bits id 9 7) :
    s.canSegment id data = s.segmentAdded id { r with segs := bits id 9 7 + 1, bytes := r.bytes ++ data } := by
  unfold State.canSegment
  dsimp only
  rw [if_neg h, hr]
  exact if_pos ⟨hm, hs⟩

theorem State.canSegment_wrong (h : bits id 9 7 ≠ 0) (hr : s.can.reasm.find? (fun x => x.node == bits id 24 19) = some r)
    (hw : r.mseq ≠ bits id 12 10 ∨ r.segs ≠ bits id 9 7) : s.canSegment id data = s.loseReasm (bits id 24 19) := by
  unfold State.canSegment
  dsimp only
  rw [if_neg h, hr]
  exact if_neg fun hc => hw.elim (fun hm => hm hc.1) fun hs => hs hc.2

theorem State.canSegment_reassembles (s : State) (id : Nat) (data : List Byte) : (s.canSegment id data).Reassembles s := by
  by_cases h : bits id 9 7 = 0
  · rw [State.canSegment_first h]
    exact (State.segmentAdded_reassembles _ _ _).trans (s.loseReasm_reassembles _)
  · rcases hr : s.can.reasm.find? (fun x => x.node == bits id 24 19) with _ | r
    · rw [State.canSegment_none h hr]
      exact .refl s
    · by_cases hc : r.mseq = bits id 12 10 ∧ r.segs = bits id 9 7
      · rw [State.canSegment_next h hr hc.1 hc.2]
        exact s.segmentAdded_reassembles _ _
      · rw [State.canSegment_wrong h hr (by tauto)]
        exact s.loseReasm_reassembles _

theorem State.Reassembles.reacts (h : t.Reassembles s) : t.CanReacts s where
  taken j hj := h.objs j fun hmem => by
    simp only [canTakeKeys, List.mem_cons, List.not_mem_nil, or_false] at hj hmem
    rcases hj with rfl | rfl | rfl <;> revert hmem <;> decide
  heard := h.heard

theorem State.Reassembles.memories (h : t.Reassembles s) : t.keepsMemories s :=
  ⟨(congrArg State.spm h.rest :), (congrArg State.rankMem h.rest :), (congrArg State.nvm h.rest :)⟩

theorem State.Reassembles.outCan (h : t.Reassembles s) : t.cufel.outCan = s.cufel.outCan :=
  (congrArg (fun x : State => x.cufel.outCan) h.rest :)

theorem State.canComplete_fits (hlen : ceilDiv (20 + msgLen r.bytes) 64 = r.segs) (hroom : s.can.inbox.length < 8) :
    (s.canComplete r).can = { s.can.without r.node with inbox := s.can.inbox ++ [(r.node, r.bytes)] } ∧
    (s.canComplete r).cufel.order = s.cufel.order ++ [.can] := by
  have hno : ¬ (ceilDiv (20 + msgLen r.bytes) 64 ≠ r.segs ∨ 8 ≤ (s.dropReasm r.node).can.inbox.length) := by
    rintro (h | h)
    · exact h hlen
    · exact absurd hroom (Nat.not_lt.mpr h)
  unfold State.canComplete
  dsimp only
  rw [if_neg hno]
  exact ⟨rfl, rfl⟩

theorem State.canComplete_full (hfull : 8 ≤ s.can.inbox.length) : s.canComplete r = (s.dropReasm r.node).bump Obj.CAN_RX_DROP :=
  if_pos (Or.inr hfull)

/-! ### A frame, by its type (R477) -/

theorem State.canTyped_foreign (h : bits id 28 25 ∉ [0, 1, 2, 4, 6, 8]) :
    s.canTyped id data agree = (s.canTaken agree).bump Obj.CAN_FOREIGN :=
  if_pos (by simpa using h)

/-- What a frame of the device's kind makes the port do once its sender is heard. -/
def State.canReact (s : State) (id : Nat) (data : List Byte) : State :=
  match bits id 28 25 with
  | 0 => s.claimIn (bits id 24 19)
  | 1 => s.keeperIn (bits id 24 19)
  | 2 => s.beaconIn (fromLE (data.take 6))
  | _ =>
    if bits id 24 19 = s.o Obj.CAN_NODE then s.canConflict
    else if bits id 18 13 = s.o Obj.CAN_NODE then s.canSegment id data
    else s

theorem State.canTyped_known (h : bits id 28 25 ∈ [0, 1, 2, 4, 6, 8]) :
    s.canTyped id data agree = (s.canHeard (bits id 24 19) agree).canReact id data := by
  unfold State.canTyped State.canReact
  dsimp only
  have hc : (!(([0, 1, 2, 4, 6, 8] : List Nat).contains (bits id 28 25))) = false := by
    rw [List.contains_iff_mem.mpr h]
    rfl
  rw [hc]
  rfl

theorem State.canReact_message (h : bits id 28 25 ∈ [4, 6, 8]) : s.canReact id data =
    if bits id 24 19 = s.o Obj.CAN_NODE then s.canConflict
    else if bits id 18 13 = s.o Obj.CAN_NODE then s.canSegment id data
    else s := by
  unfold State.canReact
  simp only [List.mem_cons, List.not_mem_nil, or_false] at h
  rcases h with h | h | h <;> simp only [h]

theorem State.canReact_reacts (s : State) (id : Nat) (data : List Byte) : (s.canReact id data).CanReacts s := by
  unfold State.canReact
  split
  · exact s.claimIn_reacts _
  · exact s.keeperIn_reacts _
  · exact s.beaconIn_reacts _
  · split
    · exact s.canConflict_reacts
    · split
      · exact (s.canSegment_reassembles id data).reacts
      · exact .refl s

theorem State.bumpForeign_reacts (s : State) : (s.bump Obj.CAN_FOREIGN).CanReacts s := (State.CanReacts.refl s).setO (by decide) _

theorem State.canFrame_fd (hears : s.canHears = true) : s.canFrame .fd id data agree = s.canTyped id data agree := by
  unfold State.canFrame
  rw [hears]
  rfl

theorem State.canFrame_foreign (hears : s.canHears = true) :
    s.canFrame .foreign id data agree = (s.canTaken agree).bump Obj.CAN_FOREIGN := by
  unfold State.canFrame
  rw [hears]
  rfl

theorem State.canFrame_error (hears : s.canHears = true) (late : Bool) :
    s.canFrame (.error late) id data agree = s.setO Obj.CAN_REC (satAdd 8 (s.o Obj.CAN_REC) (if late then 8 else 1)) := by
  unfold State.canFrame
  rw [hears]
  rfl

theorem State.canFrame_deaf (deaf : s.canHears = false) : s.canFrame k id data agree = s := by
  unfold State.canFrame
  rw [deaf]
  rfl

/-- Every frame that the port hears without error counts, and the port reacts. -/
theorem State.canFrame_taken (hears : s.canHears = true) (hk : k = .fd ∨ k = .foreign) :
    ∃ u, u.CanTaken s agree ∧ (s.canFrame k id data agree).CanReacts u := by
  rcases hk with rfl | rfl
  · rw [State.canFrame_fd hears]
    by_cases h : bits id 28 25 ∈ [0, 1, 2, 4, 6, 8]
    · rw [State.canTyped_known h]
      exact ⟨_, s.canHeard_taken _ agree, State.canReact_reacts _ _ _⟩
    · rw [State.canTyped_foreign h]
      exact ⟨_, s.canTaken_taken agree, State.bumpForeign_reacts _⟩
  · rw [State.canFrame_foreign hears]
    exact ⟨_, s.canTaken_taken agree, State.bumpForeign_reacts _⟩

end Sys2Proof.Machine
end

section
/-! SUPPORT. Segments become messages, and a port that is off the bus recovers (R474, R477, R478). -/
namespace Sys2Proof.Machine

variable {s t u : State} {agree : Bool} {id : Nat} {data : List Byte} {k : CanKind} {r : Reasm}

/-! ### A message frame (R477) -/

theorem State.CanTaken.node (h : t.CanTaken s agree) : t.o Obj.CAN_NODE = s.o Obj.CAN_NODE := h.objs _ (by decide)

theorem State.CanTaken.outCan (h : t.CanTaken s agree) : t.cufel.outCan = s.cufel.outCan :=
  (congrArg (fun x : State => x.cufel.outCan) h.rest :)

theorem State.CanTaken.order (h : t.CanTaken s agree) : t.cufel.order = s.cufel.order :=
  (congrArg (fun x : State => x.cufel.order) h.rest :)

theorem State.canFrame_message (hears : s.canHears = true) (htype : bits id 28 25 ∈ [4, 6, 8]) :
    s.canFrame .fd id data agree =
      if bits id 24 19 = s.o Obj.CAN_NODE then (s.canHeard (bits id 24 19) agree).canConflict
      else if bits id 18 13 = s.o Obj.CAN_NODE then (s.canHeard (bits id 24 19) agree).canSegment id data
      else s.canHeard (bits id 24 19) agree := by
  have hknown : bits id 28 25 ∈ [0, 1, 2, 4, 6, 8] := by
    simp only [List.mem_cons, List.not_mem_nil, or_false] at htype ⊢
    omega
  rw [State.canFrame_fd hears, State.canTyped_known hknown, State.canReact_message htype, (s.canHeard_taken _ agree).node]

/-- A conflict is shown, and a keeper in conflict is none. -/
theorem State.canConflict_conflicts (h : s.o Obj.CAN_STATE ∈ [2, 3, 4, 5]) :
    s.canConflict.o Obj.CAN_STATE = 6 ∧ s.canConflict.o Obj.CAN_CONFLICT = 1 ∧ s.canConflict.ob Obj.FLT_ACTIVE 18 = true ∧
    s.canConflict.o Obj.CAN_KEEPER = if s.o Obj.CAN_KEEPER = s.o Obj.CAN_NODE then 0xFF else s.o Obj.CAN_KEEPER := by
  have hcond : 2 ≤ s.o Obj.CAN_STATE ∧ s.o Obj.CAN_STATE ≤ 5 := by
    simp only [List.mem_cons, List.not_mem_nil, or_false] at h
    omega
  have hgone : s.keeperGone.o Obj.CAN_KEEPER = if s.o Obj.CAN_KEEPER = s.o Obj.CAN_NODE then 0xFF else s.o Obj.CAN_KEEPER := by
    unfold State.keeperGone
    split
    · exact State.o_setO_self _ _ _
    · rfl
  unfold State.canConflict
  rw [if_pos hcond]
  generalize s.keeperGone = v at hgone ⊢
  have hkeep := State.addressConflict_keepsObjects ((v.setO Obj.CAN_CONFLICT 1).setO Obj.CAN_STATE 6)
  exact ⟨(hkeep _ (by decide)).trans (State.o_setO_self _ _ _),
    (hkeep _ (by decide)).trans ((State.o_setO_ne _ _ (by decide)).trans (State.o_setO_self _ _ _)),
    State.ariseIf_active _ 18,
    (hkeep _ (by decide)).trans ((State.o_setO_ne _ _ (by decide)).trans ((State.o_setO_ne _ _ (by decide)).trans hgone))⟩

/-- A port in conflict sends nothing. -/
theorem State.canFlush_conflict (h : s.o Obj.CAN_STATE = 6) : s.canFlush = s :=
  State.canFlush_silent (State.canSends_state (by rw [h]; decide))

/-- The port without the bus's own bookkeeping of frames heard. -/
theorem State.canHeard_reasm (s : State) (node : Nat) (agree : Bool) : (s.canHeard node agree).can.reasm = s.can.reasm ∧
    (s.canHeard node agree).can.inbox = s.can.inbox := by
  rw [State.canHeard_can]
  exact ⟨rfl, rfl⟩

/-! ### Segments (R478) -/

/-- What the reassembly of node n, whose message grows by data, can come to. -/
theorem State.opened_can (s : State) (node : Nat) (r : Reasm) :
    (s.opened node r).can.reasm = (s.can.without node).reasm ++ [r] ∧ (s.opened node r).can.inbox = s.can.inbox := ⟨rfl, rfl⟩

theorem State.segmentAdded_open (h : bit id 6 = false) : s.segmentAdded id r = s.opened (bits id 24 19) r := if_neg (by simp [h])

theorem State.segmentAdded_last (h : bit id 6 = true) : s.segmentAdded id r = s.canComplete r := if_pos h

theorem State.loseReasm_inbox (s : State) (node : Nat) : (s.loseReasm node).can.inbox = s.can.inbox := by
  rw [State.loseReasm_can]
  rfl

theorem State.canSegment_opens (hseg : bits id 9 7 = 0) (hlast : bit id 6 = false) :
    (s.canSegment id data).can.reasm = (s.can.reasm.filter fun x => x.node != bits id 24 19) ++
      [{ node := bits id 24 19, mseq := bits id 12 10, segs := 1, bytes := data }] ∧
    (s.canSegment id data).can.inbox = s.can.inbox := by
  obtain ⟨hreasm, hinbox⟩ := (s.loseReasm (bits id 24 19)).opened_can (bits id 24 19)
    { node := bits id 24 19, mseq := bits id 12 10, segs := 1, bytes := data }
  rw [State.loseReasm_can, Can.without_without] at hreasm
  rw [State.canSegment_first hseg, State.segmentAdded_open hlast]
  exact ⟨hreasm, hinbox.trans (s.loseReasm_inbox _)⟩

theorem State.loseReasm_order (s : State) (node : Nat) : (s.loseReasm node).cufel.order = s.cufel.order := by
  unfold State.loseReasm
  split <;> rfl

theorem State.canSegment_whole (hseg : bits id 9 7 = 0) (hlast : bit id 6 = true) (hlen : ceilDiv (20 + msgLen data) 64 = 1)
    (hroom : s.can.inbox.length < 8) :
    (s.canSegment id data).can.inbox = s.can.inbox ++ [(bits id 24 19, data)] ∧
    (s.canSegment id data).cufel.order = s.cufel.order ++ [.can] := by
  have hinbox : (s.loseReasm (bits id 24 19)).can.inbox = s.can.inbox := s.loseReasm_inbox _
  obtain ⟨hcan, horder⟩ := State.canComplete_fits (s := s.loseReasm (bits id 24 19))
    (r := { node := bits id 24 19, mseq := bits id 12 10, segs := 1, bytes := data }) hlen (by rw [hinbox]; exact hroom)
  rw [State.canSegment_first hseg, State.segmentAdded_last hlast, hcan, horder, hinbox, State.loseReasm_order]
  exact ⟨rfl, rfl⟩

theorem State.canSegment_dropped (hseg : bits id 9 7 = 0) (hlast : bit id 6 = true) (hfull : 8 ≤ s.can.inbox.length)
    (hnone : ∀ x ∈ s.can.reasm, x.node ≠ bits id 24 19) :
    (s.canSegment id data).can.inbox = s.can.inbox ∧
    (s.canSegment id data).o Obj.CAN_RX_DROP = satAdd 32 (s.o Obj.CAN_RX_DROP) 1 := by
  rw [State.canSegment_first hseg, State.loseReasm_none hnone, State.segmentAdded_last hlast, State.canComplete_full hfull]
  exact ⟨rfl, State.o_bump_self _ _⟩

theorem State.node_of_found (h : s.can.reasm.find? (fun x => x.node == bits id 24 19) = some r) : r.node = bits id 24 19 := by
  simpa using List.find?_some h

theorem State.canSegment_ends (hseg : bits id 9 7 ≠ 0) (hr : s.can.reasm.find? (fun x => x.node == bits id 24 19) = some r)
    (hm : r.mseq = bits id 12 10) (hs : r.segs = bits id 9 7) (hlast : bit id 6 = true)
    (hlen : ceilDiv (20 + msgLen (r.bytes ++ data)) 64 = r.segs + 1) (hroom : s.can.inbox.length < 8) :
    (s.canSegment id data).cufel.order = s.cufel.order ++ [.can] ∧
    (s.canSegment id data).can.inbox = s.can.inbox ++ [(r.node, r.bytes ++ data)] ∧
    ∀ x ∈ (s.canSegment id data).can.reasm, x.node ≠ r.node := by
  rw [hs] at hlen
  obtain ⟨hcan, horder⟩ := State.canComplete_fits (s := s) (r := { r with segs := bits id 9 7 + 1, bytes := r.bytes ++ data }) hlen hroom
  rw [State.canSegment_next hseg hr hm hs, State.segmentAdded_last hlast, hcan, horder]
  exact ⟨rfl, rfl, fun x hx => Can.mem_without hx⟩

theorem State.canSegment_breaks (hseg : bits id 9 7 ≠ 0) (hr : s.can.reasm.find? (fun x => x.node == bits id 24 19) = some r)
    (hw : r.mseq ≠ bits id 12 10 ∨ r.segs ≠ bits id 9 7) :
    (s.canSegment id data).can.inbox = s.can.inbox ∧ (∀ x ∈ (s.canSegment id data).can.reasm, x.node ≠ r.node) ∧
    (s.canSegment id data).o Obj.CAN_RX_DROP = satAdd 32 (s.o Obj.CAN_RX_DROP) 1 := by
  have hnode := State.node_of_found hr
  have hcan := s.loseReasm_can (bits id 24 19)
  rw [State.canSegment_wrong hseg hr hw, hcan, hnode]
  refine ⟨rfl, fun x hx => Can.mem_without hx, ?_⟩
  rw [State.loseReasm_some ⟨r, List.mem_of_find?_eq_some hr, hnode⟩]
  exact State.o_bump_self _ _

/-! ### The commands -/

variable {id : BitVec 29}

/-- A frame runs as the port takes it when nothing of it can leave. -/
theorem canFrame_runs {P : State → Prop} (ha : s.awake = true) (hflush : (s.canFrame k id.toNat data agree).canFlush = t) (h : P t) :
    Runs (.canFrameReceive k id data agree) s P := awake_runs ha (congrArg (fun x => Host.Outcome.next (s.ifAwake x)) hflush) h

theorem State.o_foreign (s : State) (agree : Bool) : ((s.canTaken agree).bump Obj.CAN_FOREIGN).o Obj.CAN_FOREIGN = satAdd 32 (s.o Obj.CAN_FOREIGN) 1 :=
  (State.o_bump_self _ _).trans (congrArg (fun v => satAdd 32 v 1) ((s.canTaken_taken agree).objs _ (by decide)))

theorem State.canFlush_foreign (s : State) (agree : Bool) (h : s.cufel.outCan = []) :
    ((s.canTaken agree).bump Obj.CAN_FOREIGN).canFlush = (s.canTaken agree).bump Obj.CAN_FOREIGN :=
  State.canFlush_empty ((s.canTaken_taken agree).outCan.trans h)

/-- What every frame that the port hears without error counts. -/
theorem canFrame_counts (ha : s.awake = true) (hears : s.canHears = true) (hk : k = .fd ∨ k = .foreign) :
    Runs (.canFrameReceive k id data agree) s (fun t => t.o Obj.CAN_RX_FRAMES = (s.o Obj.CAN_RX_FRAMES + 1) % 2 ^ 32 ∧
      t.o Obj.CAN_CLKSRC = (if s.o Obj.CAN_CLKSRC = 0 ∧ agree = true ∧ 7 ≤ s.can.agree then 1 else s.o Obj.CAN_CLKSRC) ∧
      (s.o Obj.CAN_REC < 128 → t.o Obj.CAN_REC = s.o Obj.CAN_REC - 1) ∧
      (128 ≤ s.o Obj.CAN_REC → 119 ≤ t.o Obj.CAN_REC ∧ t.o Obj.CAN_REC ≤ 127)) := by
  obtain ⟨u, htaken, hreacts⟩ := State.canFrame_taken (id := id.toNat) (data := data) (agree := agree) hears hk
  have hall := (State.canFlush_sent (s.canFrame k id.toNat data agree)).reacts.trans hreacts
  have hrec := hall.taken Obj.CAN_REC (by decide)
  exact canFrame_runs ha rfl ⟨(hall.taken _ (by decide)).trans htaken.frames, (hall.taken _ (by decide)).trans htaken.clock,
    fun h => hrec.trans (htaken.low h), fun h => hrec ▸ htaken.high h⟩

theorem canFrame_foreigns (ha : s.awake = true) (hout : s.cufel.outCan = []) (hears : s.canHears = true)
    (hk : k = .foreign ∨ (k = .fd ∧ bits id.toNat 28 25 ∉ [0, 1, 2, 4, 6, 8])) : Runs (.canFrameReceive k id data agree) s (fun t =>
      t.o Obj.CAN_FOREIGN = satAdd 32 (s.o Obj.CAN_FOREIGN) 1 ∧ t.can.reasm = s.can.reasm ∧ t.can.inbox = s.can.inbox ∧
      t.can.heard = s.can.heard ∧ t.keepsObjects s [Obj.CAN_FOREIGN, Obj.CAN_RX_FRAMES, Obj.CAN_CLKSRC, Obj.CAN_REC]) := by
  have hframe : s.canFrame k id.toNat data agree = (s.canTaken agree).bump Obj.CAN_FOREIGN := by
    rcases hk with rfl | ⟨rfl, h⟩
    · exact State.canFrame_foreign hears
    · rw [State.canFrame_fd hears, State.canTyped_foreign h]
  have hcan : ((s.canTaken agree).bump Obj.CAN_FOREIGN).can = { s.can with agree := s.agreeing agree } := s.canTaken_can agree
  refine canFrame_runs ha ((congrArg State.canFlush hframe).trans (s.canFlush_foreign agree hout)) ⟨s.o_foreign agree, ?_, ?_, ?_,
    State.keepsObjects_bump (State.keepsObjects_mono (s.canTaken_taken agree).objs (by decide)) (by simp)⟩
  all_goals rw [hcan]

theorem canFrame_hears (ha : s.awake = true) (hears : s.canHears = true) (hknown : bits id.toNat 28 25 ∈ [0, 1, 2, 4, 6, 8]) :
    Runs (.canFrameReceive .fd id data agree) s (fun t => t.can.heard.head? = some (bits id.toNat 24 19, s.tick)) := by
  have hreacts := ((State.canFlush_sent _).reacts).trans ((s.canHeard (bits id.toNat 24 19) agree).canReact_reacts id.toNat data)
  have hframe := (State.canFrame_fd (agree := agree) (data := data) hears).trans (State.canTyped_known hknown)
  refine canFrame_runs ha (congrArg State.canFlush hframe) ?_
  rw [hreacts.heard, State.canHeard_can]
  rfl

theorem State.canFlush_heard (s : State) (node : Nat) (agree : Bool) (h : s.cufel.outCan = []) :
    (s.canHeard node agree).canFlush = s.canHeard node agree := State.canFlush_empty ((s.canHeard_taken node agree).outCan.trans h)

/-- A segment for this node runs as reassembly takes it. -/
theorem canFrame_segment {P : State → Prop} (ha : s.awake = true) (hout : s.cufel.outCan = []) (hears : s.canHears = true)
    (htype : bits id.toNat 28 25 ∈ [4, 6, 8]) (hown : bits id.toNat 24 19 ≠ s.o Obj.CAN_NODE)
    (hdst : bits id.toNat 18 13 = s.o Obj.CAN_NODE)
    (h : ∀ v : State, v.CanTaken s agree → v.can.reasm = s.can.reasm → v.can.inbox = s.can.inbox → P (v.canSegment id.toNat data)) :
    Runs (.canFrameReceive .fd id data agree) s P := by
  have hframe := (State.canFrame_message (data := data) (agree := agree) hears htype).trans ((if_neg hown).trans (if_pos hdst))
  obtain ⟨hreasm, hinbox⟩ := s.canHeard_reasm (bits id.toNat 24 19) agree
  have htaken := s.canHeard_taken (bits id.toNat 24 19) agree
  refine canFrame_runs ha ((congrArg State.canFlush hframe).trans (State.canFlush_empty ?_)) (h _ htaken hreasm hinbox)
  exact (State.canSegment_reassembles _ _ _).outCan.trans (htaken.outCan.trans hout)

theorem canReassemblyTimeout_stays (ha : s.awake = true) {node : BitVec 6} (h : ∀ x ∈ s.can.reasm, x.node ≠ node.toNat) :
    exec (.canReassemblyTimeout node) s = .next s :=
  congrArg Host.Outcome.next ((State.ifAwake_of ha).trans (State.loseReasm_none h))

theorem canReassemblyTimeout_drops (ha : s.awake = true) {node : BitVec 6} (h : ∃ x ∈ s.can.reasm, x.node = node.toNat) :
    Runs (.canReassemblyTimeout node) s (fun t => (∀ x ∈ t.can.reasm, x.node ≠ node.toNat) ∧
      t.o Obj.CAN_RX_DROP = satAdd 32 (s.o Obj.CAN_RX_DROP) 1 ∧
      t.keepsObjects s [Obj.CAN_RX_DROP] ∧ { t with obj := s.obj, can := s.can } = s) :=
  awake_runs ha (congrArg (fun x => Host.Outcome.next (s.ifAwake x)) (State.loseReasm_some h))
    ⟨fun _ hx => Can.mem_without hx, State.o_bump_self _ _, State.keepsObjects_bump (fun _ _ => rfl) (by simp), rfl⟩

/-- The port goes off the bus: nothing but its own and the watch's entries changes. -/
theorem State.canGoOff_off (s : State) : s.canGoOff.can.busOff = true ∧
    s.canGoOff.o Obj.CAN_BUSOFF = satAdd 32 (s.o Obj.CAN_BUSOFF) 1 ∧ s.canGoOff.o Obj.CAN_TEC < 256 ∧
    s.canGoOff.keepsObjects s [Obj.CAN_BUSOFF, Obj.CAN_TEC] ∧
    { s.canGoOff with obj := s.obj, can := s.can, free := s.free, watch := s.watch } = s ∧
    { s.canGoOff.watch with events := [], raised := [] } = { s.watch with events := [], raised := [] } ∧
    s.canGoOff.can = { s.can with busOff := true } := by
  have hkeep : ((s.bump Obj.CAN_BUSOFF).setO Obj.CAN_TEC (s.open % 256)).keepsObjects s [Obj.CAN_BUSOFF, Obj.CAN_TEC] :=
    State.keepsObjects_setO (State.keepsObjects_bump (State.keepsObjects_refl s _) (by simp)) (by simp) _
  have hcount : ((s.bump Obj.CAN_BUSOFF).setO Obj.CAN_TEC (s.open % 256)).o Obj.CAN_BUSOFF = satAdd 32 (s.o Obj.CAN_BUSOFF) 1 :=
    (State.o_setO_ne _ _ (by decide)).trans (State.o_bump_self _ _)
  have htec : ((s.bump Obj.CAN_BUSOFF).setO Obj.CAN_TEC (s.open % 256)).o Obj.CAN_TEC < 256 := by
    rw [State.o_setO_self]
    exact Nat.mod_lt _ (by decide)
  unfold State.canGoOff State.noteEvent
  dsimp only
  split
  · exact ⟨rfl, hcount, htec, hkeep, rfl, rfl, rfl⟩
  · exact ⟨rfl, hcount, htec, hkeep, rfl, rfl, rfl⟩

theorem State.canHears_off (h : s.can.busOff = true) : s.canHears = false := by simp [State.canHears, h]

theorem canBusOff_runs (ha : s.awake = true) (hears : s.canHears = true) : Runs .canBusOff s (fun t => t.can.busOff = true ∧
    t.canHears = false ∧ t.o Obj.CAN_BUSOFF = satAdd 32 (s.o Obj.CAN_BUSOFF) 1 ∧ t.o Obj.CAN_TEC < 256 ∧
    t.keepsObjects s [Obj.CAN_BUSOFF, Obj.CAN_TEC] ∧ { t with obj := s.obj, can := s.can, free := s.free, watch := s.watch } = s ∧
    { t.watch with events := [], raised := [] } = { s.watch with events := [], raised := [] }) := by
  obtain ⟨hoff, hcount, htec, hkeep, hrest, hwatch, -⟩ := s.canGoOff_off
  exact awake_runs ha (congrArg (fun x => Host.Outcome.next (s.ifAwake x)) (if_pos hears))
    ⟨hoff, State.canHears_off hoff, hcount, htec, hkeep, hrest, hwatch⟩

theorem canBusOffRecovery_runs (ha : s.awake = true) (hout : s.cufel.outCan = []) (hoff : s.can.busOff = true) :
    Runs .canBusOffRecovery s (fun t => t.can.busOff = false ∧ t.o Obj.CAN_TEC = 0 ∧ t.o Obj.CAN_REC = 0 ∧
      t.keepsObjects s [Obj.CAN_TEC, Obj.CAN_REC] ∧ { t with obj := s.obj, can := s.can } = s) := by
  have hkeep : ((s.setO Obj.CAN_TEC 0).setO Obj.CAN_REC 0).keepsObjects s [Obj.CAN_TEC, Obj.CAN_REC] :=
    State.keepsObjects_setO (State.keepsObjects_setO (State.keepsObjects_refl s _) (by simp) _) (by simp) _
  have htec : ((s.setO Obj.CAN_TEC 0).setO Obj.CAN_REC 0).o Obj.CAN_TEC = 0 := (State.o_setO_ne _ _ (by decide)).trans (State.o_setO_self _ _ _)
  have hrec : ((s.setO Obj.CAN_TEC 0).setO Obj.CAN_REC 0).o Obj.CAN_REC = 0 := State.o_setO_self _ _ _
  refine awake_runs ha (congrArg (fun x => Host.Outcome.next (s.ifAwake x)) ((if_pos hoff).trans (State.canFlush_empty hout)))
    ⟨rfl, htec, hrec, hkeep, rfl⟩

/-- Settles O41: a frame counts and is reassembled by its segment, and a port off the bus hears nothing. -/
theorem canFramesBecomeMessages : Obligations.CanFramesBecomeMessages := by
  unfold Obligations.CanFramesBecomeMessages
  intro k agree id data node r s ha hout
  have hsame : ∀ t : State, t = s → t.keepsObjects s [] ∧ { t with obj := s.obj } = s := by
    rintro t rfl
    exact ⟨State.keepsObjects_refl t [], rfl⟩
  refine ⟨fun deaf => canFrame_runs ha ((congrArg State.canFlush (State.canFrame_deaf deaf)).trans (State.canFlush_empty hout)) (hsame s rfl),
    fun hears => ⟨canFrame_counts ha hears, ?_, ?_, canFrame_foreigns ha hout hears, canFrame_hears ha hears, ?_⟩,
    canReassemblyTimeout_stays ha, canReassemblyTimeout_drops ha,
    fun deaf => congrArg Host.Outcome.next ((State.ifAwake_of ha).trans (if_neg (by simp [deaf]))), canBusOff_runs ha,
    fun hon => congrArg Host.Outcome.next ((State.ifAwake_of ha).trans (if_neg (by simp [hon]))), canBusOffRecovery_runs ha hout⟩
  case refine_1 =>
    exact canFrame_runs ha ((congrArg State.canFlush (State.canFrame_error hears false)).trans (State.canFlush_empty hout))
      ⟨State.o_setO_self _ _ _, State.keepsObjects_setO (State.keepsObjects_refl s _) (by simp) _, rfl⟩
  case refine_2 =>
    exact canFrame_runs ha ((congrArg State.canFlush (State.canFrame_error hears true)).trans (State.canFlush_empty hout))
      ⟨State.o_setO_self _ _ _, State.keepsObjects_setO (State.keepsObjects_refl s _) (by simp) _, rfl⟩
  case refine_3 =>
    rintro rfl htype
    have hmessage := State.canFrame_message (data := data) (agree := agree) hears htype
    refine ⟨fun hown hstate => ?_, fun hown hdst => ?_, fun hown hdst => ⟨fun hseg hlast => ?_, fun hseg hlast hlen hroom => ?_,
      fun hseg hlast hfull hnone => ?_, fun hseg hr => ⟨fun hm hs hlast hlen hroom => ?_, fun hw => ?_⟩⟩⟩
    · have hheard : (s.canHeard (bits id.toNat 24 19) agree).o Obj.CAN_STATE ∈ [2, 3, 4, 5] := by
        rw [(s.canHeard_taken _ agree).objs _ (by decide)]
        exact hstate
      obtain ⟨hsix, hconflict, -, -⟩ := State.canConflict_conflicts hheard
      exact canFrame_runs ha ((congrArg State.canFlush (hmessage.trans (if_pos hown))).trans (State.canFlush_conflict hsix)) ⟨hsix, hconflict⟩
    · obtain ⟨hreasm, hinbox⟩ := s.canHeard_reasm (bits id.toNat 24 19) agree
      exact canFrame_runs ha ((congrArg State.canFlush (hmessage.trans ((if_neg hown).trans (if_neg hdst)))).trans
        (s.canFlush_heard _ agree hout)) ⟨hreasm, hinbox, (s.canHeard_taken _ agree).objs⟩
    · refine canFrame_segment ha hout hears htype hown hdst fun v _ hreasm hinbox => ?_
      rw [← hreasm, ← hinbox]
      exact State.canSegment_opens hseg hlast
    · refine canFrame_segment ha hout hears htype hown hdst fun v htaken _ hinbox => ?_
      rw [← hinbox, ← htaken.order]
      obtain ⟨hnew, horder⟩ := State.canSegment_whole (s := v) hseg hlast hlen (by rw [hinbox]; exact hroom)
      exact ⟨hnew, horder, State.keepsMemories_trans (v.canSegment_reassembles _ _).memories htaken.memories⟩
    · refine canFrame_segment ha hout hears htype hown hdst fun v htaken hreasm hinbox => ?_
      rw [← hinbox, ← htaken.objs Obj.CAN_RX_DROP (by decide)]
      exact State.canSegment_dropped hseg hlast (by rw [hinbox]; exact hfull) (by rw [hreasm]; exact hnone)
    · refine canFrame_segment ha hout hears htype hown hdst fun v htaken hreasm hinbox => ?_
      rw [← hinbox, ← htaken.order]
      exact State.canSegment_ends hseg (by rw [hreasm]; exact hr) hm hs hlast hlen (by rw [hinbox]; exact hroom)
    · refine canFrame_segment ha hout hears htype hown hdst fun v htaken hreasm hinbox => ?_
      rw [← hinbox, ← htaken.objs Obj.CAN_RX_DROP (by decide)]
      exact State.canSegment_breaks hseg (by rw [hreasm]; exact hr) hw

end Sys2Proof.Machine
end

section
/-! SUPPORT. The bus elects its keeper: timers, claims, heartbeats and beacons (R479, R480). -/
namespace Sys2Proof.Machine

variable {s t u : State} {agree : Bool} {node : Nat}

/-! ### Entering a state (R480) -/

/-- The port enters MEMBER or CLAIM: a new state, no claim sent, no collision. -/
structure State.Enters (t s : State) (st : Nat) : Prop where
  state : t.o Obj.CAN_STATE = st
  objs : t.keepsObjects s [Obj.CAN_STATE]
  can : t.can = { s.can with claimSent := false, collisions := 0 }
  rest : { t with obj := s.obj, can := s.can } = s

theorem State.keepsStateBut (s : State) (v : Nat) : (s.setO Obj.CAN_STATE v).keepsObjects s [Obj.CAN_STATE] :=
  State.keepsObjects_setO (State.keepsObjects_refl s _) (by simp) v

theorem State.canMember_enters (s : State) : s.canMember.Enters s 2 :=
  ⟨State.o_setO_self s Obj.CAN_STATE 2, State.keepsStateBut s 2, rfl, rfl⟩

theorem State.canClaim_enters (s : State) : s.canClaim.Enters s 3 :=
  ⟨State.o_setO_self s Obj.CAN_STATE 3, State.keepsStateBut s 3, rfl, rfl⟩

theorem State.Enters.memories {st : Nat} (h : t.Enters s st) : t.keepsMemories s :=
  ⟨(congrArg State.spm h.rest :), (congrArg State.rankMem h.rest :), (congrArg State.nvm h.rest :)⟩

theorem State.CanSent.claimSent (h : t.CanSent s) : t.can.claimSent = s.can.claimSent := by
  obtain ⟨n, hn⟩ := h.can
  rw [hn]

/-! ### The keeper's time-out -/

/-- Without a keeper's heartbeat a clocked node claims, or becomes a member. -/
theorem canKeeperTimeout_runs (ha : s.awake = true) (h : s.o Obj.CAN_STATE = 2 ∨ (s.o Obj.CAN_STATE = 1 ∧ s.o Obj.CAN_CLKSRC ≠ 0)) :
    Runs .canKeeperTimeout s (fun t =>
      t.o Obj.CAN_KEEPER = 0xFF ∧ t.o Obj.CAN_STATE = (if s.o Obj.CAN_KEEPER_EN = 0 then 2 else 3) ∧ t.can.claimSent = false ∧
      t.keepsObjects s [Obj.CAN_KEEPER, Obj.CAN_STATE, Obj.CHK_RUN 34, Obj.CAN_TX_FRAMES, Obj.CAN_TEC] ∧ t.keepsMemories s) := by
  have hcond : (s.o Obj.CAN_STATE = 1 ∧ s.canClocked = true) ∨ s.o Obj.CAN_STATE = 2 := by
    rcases h with h | ⟨h, hclk⟩
    · exact .inr h
    · exact .inl ⟨h, by simpa [State.canClocked] using hclk⟩
  have hkeeper : (s.setO Obj.CAN_KEEPER 0xFF).o Obj.CAN_KEEPER = 0xFF := State.o_setO_self _ _ _
  have hkeep : (s.setO Obj.CAN_KEEPER 0xFF).keepsObjects s [Obj.CAN_KEEPER] := State.keepsObjects_setO (State.keepsObjects_refl s _) (by simp) _
  have hmem : (s.setO Obj.CAN_KEEPER 0xFF).keepsMemories s := ⟨rfl, rfl, rfl⟩
  have htimeout : s.keeperTimeout = if (s.setO Obj.CAN_KEEPER 0xFF).flag Obj.CAN_KEEPER_EN then (s.setO Obj.CAN_KEEPER 0xFF).canClaim
      else (s.setO Obj.CAN_KEEPER 0xFF).canMember := if_pos hcond
  generalize s.setO Obj.CAN_KEEPER 0xFF = v at hkeeper hkeep hmem htimeout
  have hen : v.o Obj.CAN_KEEPER_EN = s.o Obj.CAN_KEEPER_EN := hkeep _ (by decide)
  have henter : s.keeperTimeout.Enters v (if s.o Obj.CAN_KEEPER_EN = 0 then 2 else 3) := by
    rw [htimeout, ← hen]
    by_cases hz : v.o Obj.CAN_KEEPER_EN = 0
    · rw [if_neg (by simp [State.flag, hz]), if_pos hz]
      exact v.canMember_enters
    · rw [if_pos (by simp [State.flag, hz]), if_neg hz]
      exact v.canClaim_enters
  have hsent := s.keeperTimeout.canFlush_sent
  refine awake_runs ha rfl ⟨?_, (hsent.o (by decide)).trans henter.state, ?_, ?_,
    State.keepsMemories_trans hsent.memories (State.keepsMemories_trans henter.memories hmem)⟩
  · exact (hsent.o (by decide)).trans ((henter.objs _ (by decide)).trans hkeeper)
  · rw [hsent.claimSent, henter.can]
  · exact State.keepsObjects_trans (State.keepsObjects_mono hsent.objs (by decide))
      (State.keepsObjects_trans (State.keepsObjects_mono henter.objs (by decide)) (State.keepsObjects_mono hkeep (by decide)))

/-- A command after which nothing of the port has changed, and nothing waits. -/
theorem flush_runs_same {c : Instr} (ha : s.awake = true) (hexec : exec c s = .next (s.ifAwake t.canFlush)) (hsame : t = s)
    (hout : s.cufel.outCan = []) : Runs c s (fun t => t.keepsObjects s [] ∧ { t with obj := s.obj } = s) := by
  subst hsame
  exact awake_runs ha (hexec.trans (congrArg (fun x => Host.Outcome.next (t.ifAwake x)) (State.canFlush_empty hout)))
    ⟨State.keepsObjects_refl t [], rfl⟩

theorem State.keeperTimeout_stays (h : s.o Obj.CAN_STATE ∉ [1, 2] ∨ (s.o Obj.CAN_STATE = 1 ∧ s.o Obj.CAN_CLKSRC = 0)) : s.keeperTimeout = s := by
  refine if_neg ?_
  simp only [List.mem_cons, List.not_mem_nil, or_false, not_or] at h
  rcases h with ⟨hone, htwo⟩ | ⟨hone, hclk⟩
  · exact fun hc => hc.elim (fun hx => hone hx.1) htwo
  · rintro (⟨-, hc⟩ | hc)
    · simp [State.canClocked, hclk] at hc
    · omega

/-! ### Claims -/

/-- One frame of the port's own leaves. -/
theorem State.canKeeperFrame_sends (s : State) (ftype : Nat) (data : List Byte) :
    (s.canKeeperFrame ftype data).out = s.out ++ [Sent.can (canId ftype (s.o Obj.CAN_NODE) 0x3F 0 0 false) s.canBrs s.canPassive data] ∧
    (s.canKeeperFrame ftype data).o Obj.CAN_TEC = s.o Obj.CAN_TEC - 1 ∧
    (s.canKeeperFrame ftype data).o Obj.CAN_TX_FRAMES = (s.o Obj.CAN_TX_FRAMES + 1) % 2 ^ 32 ∧
    (s.canKeeperFrame ftype data).keepsObjects s [Obj.CAN_TX_FRAMES, Obj.CAN_TEC] ∧
    { s.canKeeperFrame ftype data with obj := s.obj, out := s.out } = s := by
  have htx : ((s.wrapBy 32 Obj.CAN_TX_FRAMES 1).setO Obj.CAN_TEC (s.o Obj.CAN_TEC - 1)).o Obj.CAN_TX_FRAMES =
      (s.o Obj.CAN_TX_FRAMES + 1) % 2 ^ 32 := (State.o_setO_ne _ _ (by decide)).trans (State.o_setO_self _ _ _)
  exact ⟨rfl, State.o_setO_self (s.wrapBy 32 Obj.CAN_TX_FRAMES 1) _ _, htx, s.canPut_keepsObjects _, rfl⟩

theorem canClaimSent_runs (ha : s.awake = true) (hstate : s.o Obj.CAN_STATE = 3) (hoff : s.can.busOff = false) :
    Runs .canClaimSent s (fun t => t.can = { s.can with claimSent := true } ∧
      t.out = s.out ++ [Sent.can (canId 0 (s.o Obj.CAN_NODE) 0x3F 0 0 false) s.canBrs s.canPassive (bytesLE 8 Config.serial.toNat)] ∧
      t.o Obj.CAN_TEC = s.o Obj.CAN_TEC - 1 ∧
      t.o Obj.CAN_TX_FRAMES = (s.o Obj.CAN_TX_FRAMES + 1) % 2 ^ 32 ∧ t.keepsObjects s [Obj.CAN_TX_FRAMES, Obj.CAN_TEC] ∧
      { t with obj := s.obj, out := s.out, can := s.can } = s) := by
  obtain ⟨hout, htec, htx, hkeep, hrest⟩ := s.canKeeperFrame_sends 0 (bytesLE 8 Config.serial.toNat)
  refine awake_runs ha (congrArg (fun x => Host.Outcome.next (s.ifAwake x)) (if_pos ⟨hstate, hoff⟩)) ?_
  dsimp only
  generalize s.canKeeperFrame 0 (bytesLE 8 Config.serial.toNat) = v at hout htec htx hkeep hrest ⊢
  have hcan : v.can = s.can := (congrArg State.can hrest :)
  exact ⟨by rw [hcan], hout, htec, htx, hkeep, (congrArg (fun x : State => { x with can := s.can }) hrest :)⟩

theorem State.claimSent_stays (h : s.o Obj.CAN_STATE ≠ 3 ∨ s.can.busOff = true) : s.claimSent = s :=
  if_neg fun hc => h.elim (fun hn => hn hc.1) fun ht => Bool.false_ne_true (hc.2.symm.trans ht)

theorem canClaimWait_runs (ha : s.awake = true) (hstate : s.o Obj.CAN_STATE = 3) (hsent : s.can.claimSent = true) :
    Runs .canClaimWaitExpire s (fun t => t.o Obj.CAN_STATE = 4 ∧ t.o Obj.CAN_KEEPER = s.o Obj.CAN_NODE ∧
      t.o Obj.CAN_ELECTIONS = satAdd 32 (s.o Obj.CAN_ELECTIONS) 1 ∧ t.keepsMemories s) := by
  have hst : (((s.setO Obj.CAN_STATE 4).setO Obj.CAN_KEEPER (s.o Obj.CAN_NODE)).bump Obj.CAN_ELECTIONS).o Obj.CAN_STATE = 4 :=
    (State.o_bump_ne _ (by decide)).trans ((State.o_setO_ne _ _ (by decide)).trans (State.o_setO_self _ _ _))
  have hk : (((s.setO Obj.CAN_STATE 4).setO Obj.CAN_KEEPER (s.o Obj.CAN_NODE)).bump Obj.CAN_ELECTIONS).o Obj.CAN_KEEPER = s.o Obj.CAN_NODE :=
    (State.o_bump_ne _ (by decide)).trans (State.o_setO_self _ _ _)
  have he : (((s.setO Obj.CAN_STATE 4).setO Obj.CAN_KEEPER (s.o Obj.CAN_NODE)).bump Obj.CAN_ELECTIONS).o Obj.CAN_ELECTIONS =
      satAdd 32 (s.o Obj.CAN_ELECTIONS) 1 := (State.o_bump_self _ _).trans (congrArg (fun v => satAdd 32 v 1)
        ((State.o_setO_ne _ _ (by decide)).trans (State.o_setO_ne _ _ (by decide))))
  have hm : (((s.setO Obj.CAN_STATE 4).setO Obj.CAN_KEEPER (s.o Obj.CAN_NODE)).bump Obj.CAN_ELECTIONS).keepsMemories s := ⟨rfl, rfl, rfl⟩
  have hwait : s.claimWait = (fun v : State => { v with can := { v.can with since := v.tick } })
      (((s.setO Obj.CAN_STATE 4).setO Obj.CAN_KEEPER (s.o Obj.CAN_NODE)).bump Obj.CAN_ELECTIONS) := if_pos ⟨hstate, hsent⟩
  generalize ((s.setO Obj.CAN_STATE 4).setO Obj.CAN_KEEPER (s.o Obj.CAN_NODE)).bump Obj.CAN_ELECTIONS = v at hst hk he hm hwait
  have hflush := s.claimWait.canFlush_sent
  have hobj {k : Nat} (h : k ∉ canSendKeys) : s.claimWait.canFlush.o k = v.o k := (hflush.o h).trans (by rw [hwait]; rfl)
  exact awake_runs ha rfl ⟨(hobj (by decide)).trans hst, (hobj (by decide)).trans hk, (hobj (by decide)).trans he,
    State.keepsMemories_trans hflush.memories (State.keepsMemories_trans (by rw [hwait]; exact ⟨rfl, rfl, rfl⟩) hm)⟩

theorem State.claimWait_stays (h : s.o Obj.CAN_STATE ≠ 3) : s.claimWait = s := if_neg fun hc => h hc.1

theorem State.claimCollision_stays (h : s.o Obj.CAN_STATE ≠ 3) : s.claimCollision = s := if_neg fun hc => h hc.1

theorem State.claimCollision_off (h : s.can.busOff = true) : s.claimCollision = s :=
  if_neg fun hc => Bool.false_ne_true (hc.2.symm.trans h)

/-! ### Collisions -/

/-- What a transmit error does to the counter and the bus. -/
structure State.TxErred (t s : State) : Prop where
  low : s.o Obj.CAN_TEC + 8 < 256 → t.o Obj.CAN_TEC = s.o Obj.CAN_TEC + 8 ∧ t.o Obj.CAN_BUSOFF = s.o Obj.CAN_BUSOFF ∧ t.can.busOff = s.can.busOff
  high : 256 ≤ s.o Obj.CAN_TEC + 8 → t.can.busOff = true ∧ t.o Obj.CAN_BUSOFF = satAdd 32 (s.o Obj.CAN_BUSOFF) 1
  objs : t.keepsObjects s [Obj.CAN_BUSOFF, Obj.CAN_TEC]
  can : ∃ b, t.can = { s.can with busOff := b }
  rest : { t with obj := s.obj, can := s.can, free := s.free, watch := s.watch } = s

theorem State.canTxError_erred (s : State) : s.canTxError.TxErred s := by
  unfold State.canTxError
  split
  · next h =>
    exact ⟨fun _ => ⟨State.o_setO_self _ _ _, State.o_setO_ne _ _ (by decide), rfl⟩, fun hn => by omega,
      State.keepsObjects_setO (State.keepsObjects_refl s _) (by simp) _, ⟨s.can.busOff, rfl⟩, rfl⟩
  · next h =>
    obtain ⟨hoff, hcount, -, hkeep, hrest, -, hcan⟩ := s.canGoOff_off
    exact ⟨fun hn => absurd hn h, fun _ => ⟨hoff, hcount⟩, hkeep, ⟨true, hcan⟩, hrest⟩

/-- A collision's count and error. -/
def State.collided (s : State) : State := (s.bump Obj.CAN_COLL).canTxError

structure State.Collided (t s : State) : Prop where
  low : s.o Obj.CAN_TEC + 8 < 256 → t.o Obj.CAN_TEC = s.o Obj.CAN_TEC + 8 ∧ t.o Obj.CAN_BUSOFF = s.o Obj.CAN_BUSOFF ∧ t.can.busOff = s.can.busOff
  high : 256 ≤ s.o Obj.CAN_TEC + 8 → t.can.busOff = true ∧ t.o Obj.CAN_BUSOFF = satAdd 32 (s.o Obj.CAN_BUSOFF) 1
  count : t.o Obj.CAN_COLL = satAdd 32 (s.o Obj.CAN_COLL) 1
  state : t.o Obj.CAN_STATE = s.o Obj.CAN_STATE
  can : ∃ b, t.can = { s.can with busOff := b }
  rest : { t with obj := s.obj, can := s.can, free := s.free, watch := s.watch } = s

theorem State.collided_collided (s : State) : s.collided.Collided s := by
  have hkeep : (s.bump Obj.CAN_COLL).keepsObjects s [Obj.CAN_COLL] := State.keepsObjects_bump (State.keepsObjects_refl s _) (by simp)
  have hcount : (s.bump Obj.CAN_COLL).o Obj.CAN_COLL = satAdd 32 (s.o Obj.CAN_COLL) 1 := State.o_bump_self _ _
  have hcan : (s.bump Obj.CAN_COLL).can = s.can := rfl
  have hrest : ({ s.bump Obj.CAN_COLL with obj := s.obj } : State) = s := rfl
  have h := (s.bump Obj.CAN_COLL).canTxError_erred
  unfold State.collided
  generalize s.bump Obj.CAN_COLL = v at hkeep hcount hcan hrest h ⊢
  obtain ⟨hlow, hhigh, hobjs, hport, hall⟩ := h
  rw [hkeep Obj.CAN_TEC (by decide), hkeep Obj.CAN_BUSOFF (by decide), hcan] at hlow
  rw [hkeep Obj.CAN_TEC (by decide), hkeep Obj.CAN_BUSOFF (by decide)] at hhigh
  rw [hcan] at hport
  have hfree : v.free = s.free := (congrArg State.free hrest :)
  have hwatch : v.watch = s.watch := (congrArg State.watch hrest :)
  have h1 : ({ v.canTxError with obj := s.obj, can := s.can, free := s.free, watch := s.watch } : State) = { v with obj := s.obj } := by
    rw [← hcan, ← hfree, ← hwatch]
    exact (congrArg (fun x : State => { x with obj := s.obj }) hall :)
  exact ⟨hlow, hhigh, (hobjs _ (by decide)).trans hcount, (hobjs _ (by decide)).trans (hkeep _ (by decide)), hport, h1.trans hrest⟩

/-- The third collision: the conflict is logged, and the node backs off. -/
def State.backedOff (s : State) : State :=
  let s := (s.setO Obj.CAN_STATE 5).addressConflict
  { s with can := { s.can with collisions := 0, claimSent := false, lower := false, delay := s.backoffDelay, backoffs := s.can.backoffs + 1 } }

/-- The n-th collision of a claim. -/
def State.collision (s : State) (n : Nat) : State := if n < 3 then { s with can := { s.can with collisions := n } } else s.backedOff

theorem State.claimCollision_eq (hstate : s.o Obj.CAN_STATE = 3) (hon : s.can.busOff = false) :
    s.claimCollision = s.collided.collision (s.can.collisions + 1) := by
  obtain ⟨b, hb⟩ := s.collided_collided.can
  have hn : s.collided.can.collisions = s.can.collisions := by rw [hb]
  have h : s.claimCollision = s.collided.collision (s.collided.can.collisions + 1) := if_pos ⟨hstate, hon⟩
  rw [h, hn]

theorem State.backedOff_shows (s : State) : s.backedOff.o Obj.CAN_STATE = 5 ∧ s.backedOff.ob Obj.FLT_ACTIVE 18 = true ∧
    s.backedOff.keepsObjects s (Obj.CAN_STATE :: conflictKeys) ∧ s.backedOff.keepsMemories s ∧ s.backedOff.cufel = s.cufel ∧ s.backedOff.out = s.out ∧
    s.backedOff.can = { s.can with collisions := 0, claimSent := false, lower := false, delay := s.backoffDelay, backoffs := s.can.backoffs + 1 } := by
  have hstate : (s.setO Obj.CAN_STATE 5).o Obj.CAN_STATE = 5 := State.o_setO_self _ _ _
  have hrest := (s.setO Obj.CAN_STATE 5).addressConflict_linkFrame
  have hkeep := (s.setO Obj.CAN_STATE 5).addressConflict_keepsObjects
  have hactive : ((s.setO Obj.CAN_STATE 5).addressConflict).ob Obj.FLT_ACTIVE 18 = true := State.ariseIf_active _ 18
  have hfirst := s.keepsStateBut 5
  have hmem : (s.setO Obj.CAN_STATE 5).keepsMemories s := ⟨rfl, rfl, rfl⟩
  have hcufel : (s.setO Obj.CAN_STATE 5).cufel = s.cufel := rfl
  have hout : (s.setO Obj.CAN_STATE 5).out = s.out := rfl
  have hcan : (s.setO Obj.CAN_STATE 5).can = s.can := rfl
  unfold State.backedOff
  generalize s.setO Obj.CAN_STATE 5 = w at hstate hrest hkeep hactive hfirst hmem hcufel hout hcan ⊢
  have hport : w.addressConflict.can = s.can := Eq.trans (congrArg State.can hrest :) hcan
  have hdelay : w.addressConflict.backoffDelay = s.backoffDelay := by
    unfold State.backoffDelay
    rw [hport]
  have hmem' : w.addressConflict.keepsMemories w := ⟨(congrArg State.spm hrest :), (congrArg State.rankMem hrest :), (congrArg State.nvm hrest :)⟩
  have hall := State.keepsObjects_trans (State.keepsObjects_mono (ks' := Obj.CAN_STATE :: conflictKeys) hkeep (by simp)) (State.keepsObjects_mono hfirst (by simp))
  have hstate' := (hkeep Obj.CAN_STATE (by decide)).trans hstate
  have hcufel' : w.addressConflict.cufel = s.cufel := Eq.trans (congrArg State.cufel hrest :) hcufel
  have hout' : w.addressConflict.out = s.out := Eq.trans (congrArg State.out hrest :) hout
  generalize w.addressConflict = x at hport hdelay hmem' hall hstate' hcufel' hout' hactive ⊢
  dsimp only
  exact ⟨hstate', hactive, hall, State.keepsMemories_trans hmem' hmem, hcufel', hout', by rw [hport, hdelay]⟩

theorem State.collision_keeps (s : State) (n : Nat) : (s.collision n).keepsObjects s (Obj.CAN_STATE :: conflictKeys) ∧
    (s.collision n).keepsMemories s ∧ (s.collision n).cufel = s.cufel ∧ (s.collision n).out = s.out ∧
    (s.collision n).can.busOff = s.can.busOff := by
  unfold State.collision
  split
  · exact ⟨State.keepsObjects_refl s _, ⟨rfl, rfl, rfl⟩, rfl, rfl, rfl⟩
  · obtain ⟨-, -, hobj, hmem, hcufel, hout, hcan⟩ := s.backedOff_shows
    exact ⟨hobj, hmem, hcufel, hout, by rw [hcan]⟩

/-- A claim's collision runs as it is counted. -/
theorem canClaimCollision_runs {P : State → Prop} (ha : s.awake = true) (hstate : s.o Obj.CAN_STATE = 3) (hon : s.can.busOff = false)
    (h : P (s.collided.collision (s.can.collisions + 1)).canFlush) : Runs .canClaimCollision s P :=
  awake_runs ha (congrArg (fun x : State => Host.Outcome.next (s.ifAwake x.canFlush)) (State.claimCollision_eq hstate hon)) h

theorem State.Collided.cufel (h : t.Collided s) : t.cufel = s.cufel := (congrArg State.cufel h.rest :)

theorem State.Collided.memories (h : t.Collided s) : t.keepsMemories s :=
  ⟨(congrArg State.spm h.rest :), (congrArg State.rankMem h.rest :), (congrArg State.nvm h.rest :)⟩

theorem canClaimCollision_low (ha : s.awake = true) (hstate : s.o Obj.CAN_STATE = 3) (hon : s.can.busOff = false)
    (htec : s.o Obj.CAN_TEC + 8 < 256) (hout : s.cufel.outCan = []) : Runs .canClaimCollision s (fun t =>
      t.o Obj.CAN_TEC = s.o Obj.CAN_TEC + 8 ∧ t.o Obj.CAN_BUSOFF = s.o Obj.CAN_BUSOFF ∧ t.can.busOff = false) := by
  have h := s.collided_collided
  obtain ⟨hobj, -, hcufel, -, hoff⟩ := s.collided.collision_keeps (s.can.collisions + 1)
  obtain ⟨hcount, hbus, hport⟩ := h.low htec
  refine canClaimCollision_runs ha hstate hon ?_
  rw [State.canFlush_empty (by rw [hcufel, h.cufel]; exact hout)]
  exact ⟨(hobj _ (by decide)).trans hcount, (hobj _ (by decide)).trans hbus, hoff.trans (hport.trans hon)⟩

theorem canClaimCollision_high (ha : s.awake = true) (hstate : s.o Obj.CAN_STATE = 3) (hon : s.can.busOff = false)
    (htec : 256 ≤ s.o Obj.CAN_TEC + 8) : Runs .canClaimCollision s (fun t =>
      t.can.busOff = true ∧ t.o Obj.CAN_BUSOFF = satAdd 32 (s.o Obj.CAN_BUSOFF) 1 ∧ t.out = s.out) := by
  have h := s.collided_collided
  obtain ⟨hobj, -, -, hout, hoff⟩ := s.collided.collision_keeps (s.can.collisions + 1)
  obtain ⟨hport, hbus⟩ := h.high htec
  refine canClaimCollision_runs ha hstate hon ?_
  rw [State.canFlush_silent (State.canSends_off (hoff.trans hport))]
  exact ⟨hoff.trans hport, (hobj _ (by decide)).trans hbus, hout.trans (congrArg State.out h.rest :)⟩

theorem canClaimCollision_early (ha : s.awake = true) (hstate : s.o Obj.CAN_STATE = 3) (hon : s.can.busOff = false)
    (hfew : s.can.collisions < 2) : Runs .canClaimCollision s (fun t => t.o Obj.CAN_COLL = satAdd 32 (s.o Obj.CAN_COLL) 1 ∧
      t.o Obj.CAN_STATE = 3 ∧ t.can.collisions = s.can.collisions + 1 ∧ t.keepsMemories s) := by
  have h := s.collided_collided
  have hcase : s.collided.collision (s.can.collisions + 1) =
      { s.collided with can := { s.collided.can with collisions := s.can.collisions + 1 } } := if_pos (by omega)
  obtain ⟨hobj, hmem, -, -, -⟩ := s.collided.collision_keeps (s.can.collisions + 1)
  have hthree : (s.collided.collision (s.can.collisions + 1)).o Obj.CAN_STATE = 3 := by
    rw [hcase]
    exact h.state.trans hstate
  refine canClaimCollision_runs ha hstate hon ?_
  rw [State.canFlush_silent (State.canSends_state (by rw [hthree]; decide))]
  exact ⟨(hobj _ (by decide)).trans h.count, hthree, by rw [hcase], State.keepsMemories_trans hmem h.memories⟩

theorem canClaimCollision_third (ha : s.awake = true) (hstate : s.o Obj.CAN_STATE = 3) (hon : s.can.busOff = false)
    (hmany : 2 ≤ s.can.collisions) : Runs .canClaimCollision s (fun t => t.o Obj.CAN_COLL = satAdd 32 (s.o Obj.CAN_COLL) 1 ∧
      t.o Obj.CAN_STATE = 5 ∧ t.can.collisions = 0 ∧ t.can.delay = s.backoffDelay ∧ t.can.backoffs = s.can.backoffs + 1 ∧
      t.ob Obj.FLT_ACTIVE 18 = true ∧ t.keepsMemories s) := by
  have h := s.collided_collided
  obtain ⟨b, hb⟩ := h.can
  have hcase : s.collided.collision (s.can.collisions + 1) = s.collided.backedOff := if_neg (by omega)
  obtain ⟨hfive, hactive, hobj, hmem, -, -, hcan⟩ := s.collided.backedOff_shows
  have hsent := s.collided.backedOff.canFlush_sent
  obtain ⟨n, hn⟩ := hsent.can
  have hdelay : s.collided.backoffDelay = s.backoffDelay := by
    unfold State.backoffDelay
    rw [hb]
  refine canClaimCollision_runs ha hstate hon ?_
  rw [hcase]
  refine ⟨(hsent.o (by decide)).trans ((hobj _ (by decide)).trans h.count), (hsent.o (by decide)).trans hfive, ?_, ?_, ?_,
    (State.ob_of_o (hsent.o (by decide))).trans hactive, State.keepsMemories_trans hsent.memories (State.keepsMemories_trans hmem h.memories)⟩
  · rw [hn, hcan]
  · rw [hn, hcan]
    exact hdelay
  · rw [hn, hcan, hb]

end Sys2Proof.Machine
end

section
/-! SUPPORT. Claims, heartbeats and beacons on the bus (R479, R480). -/
namespace Sys2Proof.Machine

variable {s t u : State} {agree : Bool} {node : BitVec 6} {ser : BitVec 64} {up : BitVec 32} {ms : BitVec 48} {srct : BitVec 8}

theorem canBackoff_runs (ha : s.awake = true) (h : s.o Obj.CAN_STATE = 5) :
    Runs .canBackoffExpire s (fun t => t.o Obj.CAN_STATE = (if s.can.lower then 2 else 3) ∧ t.keepsMemories s) := by
  have hend : s.backoffEnd = if s.can.lower then s.canMember else s.canClaim := if_pos h
  have henter : s.backoffEnd.Enters s (if s.can.lower then 2 else 3) := by
    rw [hend]
    split
    · exact s.canMember_enters
    · exact s.canClaim_enters
  have hsent := s.backoffEnd.canFlush_sent
  exact awake_runs ha rfl ⟨(hsent.o (by decide)).trans henter.state, State.keepsMemories_trans hsent.memories henter.memories⟩

theorem State.backoffEnd_stays (h : s.o Obj.CAN_STATE ≠ 5) : s.backoffEnd = s := if_neg h

/-! ### What a frame of another node does, once it is heard -/

theorem State.CanTaken.out (h : t.CanTaken s agree) : t.out = s.out := (congrArg State.out h.rest :)

theorem State.CanTaken.xc (h : t.CanTaken s agree) : t.xc = s.xc := h.objs _ (by decide)

theorem State.o_heard (s : State) (n : Nat) (agree : Bool) {k : Nat} (hk : k ∉ canTakeKeys) : (s.canHeard n agree).o k = s.o k :=
  (s.canHeard_taken n agree).objs k hk

/-- A claim that is heard. -/
theorem canClaimReceive_runs {P : State → Prop} (ha : s.awake = true) (hears : s.canHears = true)
    (h : P ((s.canHeard node.toNat agree).claimIn node.toNat).canFlush) : Runs (.canClaimReceive node ser agree) s P :=
  awake_runs ha (congrArg (fun x => Host.Outcome.next (s.ifAwake x)) (if_pos hears)) h

/-- A heartbeat that is heard. -/
theorem canKeeperHbReceive_runs {P : State → Prop} (ha : s.awake = true) (hears : s.canHears = true)
    (h : P ((s.canHeard node.toNat agree).keeperIn node.toNat).canFlush) : Runs (.canKeeperHbReceive node ser up agree) s P :=
  awake_runs ha (congrArg (fun x => Host.Outcome.next (s.ifAwake x)) (if_pos hears)) h

theorem State.claimIn_own {n : Nat} (h : n = s.o Obj.CAN_NODE) : s.claimIn n = s.canConflict := if_pos h

theorem State.keeperIn_own {n : Nat} (h : n = s.o Obj.CAN_NODE) (hst : 2 ≤ s.o Obj.CAN_STATE) : s.keeperIn n = s.canConflict := if_pos ⟨h, hst⟩

theorem State.canMember_o (s : State) {k : Nat} (hk : k ≠ Obj.CAN_STATE) : s.canMember.o k = s.o k :=
  s.canMember_enters.objs k (by simpa using hk)

theorem State.keeperGone_o (s : State) {k : Nat} (hk : k ≠ Obj.CAN_KEEPER) : s.keeperGone.o k = s.o k := by
  unfold State.keeperGone
  split
  · exact State.o_setO_ne _ _ hk
  · rfl

theorem State.keeperGone_keeper (s : State) :
    s.keeperGone.o Obj.CAN_KEEPER = if s.o Obj.CAN_KEEPER = s.o Obj.CAN_NODE then 0xFF else s.o Obj.CAN_KEEPER := by
  unfold State.keeperGone
  split
  · exact State.o_setO_self _ _ _
  · rfl

/-- A lower node's claim makes a claimant or keeper a member that no longer names itself the keeper. -/
theorem State.claimIn_lower {n : Nat} (hn : n < s.o Obj.CAN_NODE) (hst : s.o Obj.CAN_STATE ∈ [3, 4]) :
    (s.claimIn n).o Obj.CAN_STATE = 2 ∧ (s.claimIn n).o Obj.CAN_KEEPER =
      if s.o Obj.CAN_STATE = 4 ∧ s.o Obj.CAN_KEEPER = s.o Obj.CAN_NODE then 0xFF else s.o Obj.CAN_KEEPER := by
  have hne : n ≠ s.o Obj.CAN_NODE := Nat.ne_of_lt hn
  simp only [List.mem_cons, List.not_mem_nil, or_false] at hst
  rcases hst with hst | hst
  · have hclaim : s.claimIn n = s.canMember := by
      unfold State.claimIn
      dsimp only
      rw [if_neg hne, hst]
      exact if_pos hn
    rw [hclaim, hst, if_neg (by simp)]
    exact ⟨s.canMember_enters.state, s.canMember_o (by decide)⟩
  · have hclaim : s.claimIn n = s.canMember.keeperGone := by
      unfold State.claimIn
      dsimp only
      rw [if_neg hne, hst]
      exact if_pos hn
    have hkeeper := s.canMember.keeperGone_keeper
    rw [s.canMember_o (by decide), s.canMember_o (by decide)] at hkeeper
    rw [hclaim, hkeeper, hst]
    exact ⟨(s.canMember.keeperGone_o (by decide)).trans s.canMember_enters.state, if_congr (by simp) rfl rfl⟩

/-- A lower keeper's heartbeat makes a claimant or keeper a member that names it. -/
theorem State.keeperIn_lower {n : Nat} (hn : n < s.o Obj.CAN_NODE) (hst : s.o Obj.CAN_STATE ∈ [3, 4]) :
    (s.keeperIn n).o Obj.CAN_STATE = 2 ∧ (s.keeperIn n).o Obj.CAN_KEEPER = n := by
  have hne : ¬ (n = s.o Obj.CAN_NODE ∧ 2 ≤ s.o Obj.CAN_STATE) := fun h => Nat.ne_of_lt hn h.1
  have hmember : s.keeperIn n = s.canMember.setO Obj.CAN_KEEPER n := by
    simp only [List.mem_cons, List.not_mem_nil, or_false] at hst
    unfold State.keeperIn
    dsimp only
    rw [if_neg hne]
    rcases hst with hst | hst
    · rw [hst]
      exact congrArg (fun x => State.setO x Obj.CAN_KEEPER n) (if_pos hn)
    · rw [hst]
      exact if_pos hn
  rw [hmember]
  exact ⟨(State.o_setO_ne _ _ (by decide)).trans s.canMember_enters.state, State.o_setO_self _ _ _⟩

/-- A keeper answers a higher node's claim with its heartbeat. -/
theorem State.claimIn_higher {n : Nat} (hn : s.o Obj.CAN_NODE < n) (hst : s.o Obj.CAN_STATE = 4) : s.claimIn n = s.keeperHb := by
  unfold State.claimIn
  dsimp only
  rw [if_neg (Nat.ne_of_gt hn), hst]
  exact if_neg (Nat.lt_asymm hn)

/-- A member names the keeper that it hears, and claims against a higher one when it may. -/
theorem State.keeperIn_higher {n : Nat} (hn : s.o Obj.CAN_NODE < n) (hst : s.o Obj.CAN_STATE = 2) :
    (s.keeperIn n).o Obj.CAN_KEEPER = n ∧ (s.keeperIn n).o Obj.CAN_STATE = if s.o Obj.CAN_KEEPER_EN = 0 then 2 else 3 := by
  have hne : ¬ (n = s.o Obj.CAN_NODE ∧ 2 ≤ s.o Obj.CAN_STATE) := fun h => Nat.ne_of_gt hn h.1
  have hen : (s.setO Obj.CAN_KEEPER n).o Obj.CAN_KEEPER_EN = s.o Obj.CAN_KEEPER_EN := State.o_setO_ne _ _ (by decide)
  have hself : (s.setO Obj.CAN_KEEPER n).o Obj.CAN_KEEPER = n := State.o_setO_self _ _ _
  have hstate : (s.setO Obj.CAN_KEEPER n).o Obj.CAN_STATE = 2 := (State.o_setO_ne _ _ (by decide)).trans hst
  have hcase : s.keeperIn n = if s.o Obj.CAN_NODE < n ∧ (s.setO Obj.CAN_KEEPER n).flag Obj.CAN_KEEPER_EN then (s.setO Obj.CAN_KEEPER n).canClaim
      else s.setO Obj.CAN_KEEPER n := by
    unfold State.keeperIn
    dsimp only
    rw [if_neg hne]
    simp only [hst]
  rw [hcase]
  generalize s.setO Obj.CAN_KEEPER n = v at hen hself hstate ⊢
  by_cases hz : s.o Obj.CAN_KEEPER_EN = 0
  · rw [if_neg (by simp [State.flag, hen, hz]), if_pos hz]
    exact ⟨hself, hstate⟩
  · rw [if_pos ⟨hn, by simp [State.flag, hen, hz]⟩, if_neg hz]
    exact ⟨(v.canClaim_enters.objs _ (by decide)).trans hself, v.canClaim_enters.state⟩

/-! ### The commands -/

theorem canClaimReceive_conflict (ha : s.awake = true) (hears : s.canHears = true) (hown : node.toNat = s.o Obj.CAN_NODE)
    (hst : s.o Obj.CAN_STATE ∈ [2, 3, 4, 5]) :
    Runs (.canClaimReceive node ser agree) s (fun t => t.o Obj.CAN_STATE = 6 ∧ t.o Obj.CAN_CONFLICT = 1 ∧
      t.o Obj.CAN_RX_FRAMES = (s.o Obj.CAN_RX_FRAMES + 1) % 2 ^ 32 ∧ t.ob Obj.FLT_ACTIVE 18 = true ∧
      t.o Obj.CAN_KEEPER = (if s.o Obj.CAN_KEEPER = s.o Obj.CAN_NODE then 0xFF else s.o Obj.CAN_KEEPER)) ∧
    Runs (.canKeeperHbReceive node ser up agree) s (fun t => t.o Obj.CAN_STATE = 6 ∧ t.o Obj.CAN_CONFLICT = 1) := by
  have htaken := s.canHeard_taken node.toNat agree
  have hstate := htaken.objs Obj.CAN_STATE (by decide)
  have hnode : node.toNat = (s.canHeard node.toNat agree).o Obj.CAN_NODE := hown.trans htaken.node.symm
  obtain ⟨hsix, hconflict, hactive, hkeeper⟩ := State.canConflict_conflicts (s := s.canHeard node.toNat agree) (by rw [hstate]; exact hst)
  rw [htaken.objs Obj.CAN_KEEPER (by decide), htaken.node] at hkeeper
  have htwo : 2 ≤ (s.canHeard node.toNat agree).o Obj.CAN_STATE := by
    rw [hstate]
    simp only [List.mem_cons, List.not_mem_nil, or_false] at hst
    omega
  have hcount := ((State.canConflict_reacts (s.canHeard node.toNat agree)).taken Obj.CAN_RX_FRAMES (by decide)).trans htaken.frames
  refine ⟨canClaimReceive_runs ha hears ?_, canKeeperHbReceive_runs ha hears ?_⟩
  · rw [State.claimIn_own hnode, State.canFlush_conflict hsix]
    exact ⟨hsix, hconflict, hcount, hactive, hkeeper⟩
  · rw [State.keeperIn_own hnode htwo, State.canFlush_conflict hsix]
    exact ⟨hsix, hconflict⟩

theorem canClaimReceive_lower (ha : s.awake = true) (hears : s.canHears = true) (hlow : node.toNat < s.o Obj.CAN_NODE)
    (hst : s.o Obj.CAN_STATE ∈ [3, 4]) :
    Runs (.canClaimReceive node ser agree) s (fun t => t.o Obj.CAN_STATE = 2 ∧
      t.o Obj.CAN_KEEPER = (if s.o Obj.CAN_STATE = 4 ∧ s.o Obj.CAN_KEEPER = s.o Obj.CAN_NODE then 0xFF else s.o Obj.CAN_KEEPER)) ∧
    Runs (.canKeeperHbReceive node ser up agree) s (fun t => t.o Obj.CAN_STATE = 2 ∧ t.o Obj.CAN_KEEPER = node.toNat) := by
  have htaken := s.canHeard_taken node.toNat agree
  have hstate := htaken.objs Obj.CAN_STATE (by decide)
  have hkeeper := htaken.objs Obj.CAN_KEEPER (by decide)
  have hnode := htaken.node
  generalize hv : s.canHeard node.toNat agree = v at hstate hkeeper hnode
  obtain ⟨hc2, hck⟩ := State.claimIn_lower (s := v) (hnode ▸ hlow) (hstate ▸ hst)
  obtain ⟨hk2, hkk⟩ := State.keeperIn_lower (s := v) (hnode ▸ hlow) (hstate ▸ hst)
  rw [hstate, hkeeper, hnode] at hck
  refine ⟨canClaimReceive_runs ha hears ?_, canKeeperHbReceive_runs ha hears ?_⟩
  · rw [hv]
    have hsent := (v.claimIn node.toNat).canFlush_sent
    exact ⟨(hsent.o (by decide)).trans hc2, (hsent.o (by decide)).trans hck⟩
  · rw [hv]
    have hsent := (v.keeperIn node.toNat).canFlush_sent
    exact ⟨(hsent.o (by decide)).trans hk2, (hsent.o (by decide)).trans hkk⟩

theorem canClaimReceive_higher (ha : s.awake = true) (hears : s.canHears = true) (hhigh : s.o Obj.CAN_NODE < node.toNat)
    (hst : s.o Obj.CAN_STATE = 4) : Runs (.canClaimReceive node ser agree) s (fun t =>
      t.o Obj.CAN_STATE = 4 ∧ (∃ x ∈ t.out, x ∈ (s.canHeard node.toNat agree).keeperHb.out.drop s.out.length)) := by
  have htaken := s.canHeard_taken node.toNat agree
  have hout : (s.canHeard node.toNat agree).out = s.out := htaken.out
  have hnode := htaken.node
  have hstate := (htaken.objs Obj.CAN_STATE (by decide)).trans hst
  refine canClaimReceive_runs ha hears ?_
  generalize s.canHeard node.toNat agree = v at hout hnode hstate ⊢
  obtain ⟨hframe, -, -, hkeep, -⟩ := v.canKeeperFrame_sends 1 (bytesLE 8 Config.serial.toNat ++ bytesLE 4 (v.secondsSince v.can.since) ++ bytesLE 4 0)
  rw [State.claimIn_higher (hnode ▸ hhigh) hstate]
  have hsent := v.keeperHb.canFlush_sent
  have hframe' : v.keeperHb.out = s.out ++ _ := hframe.trans (congrArg (· ++ _) hout)
  refine ⟨(hsent.o (by decide)).trans ((hkeep _ (by decide)).trans hstate), _, hsent.out.subset (hframe' ▸ List.mem_append_right _ List.mem_cons_self), ?_⟩
  rw [hframe', List.drop_left]
  exact List.mem_cons_self

theorem canKeeperHbReceive_higher (ha : s.awake = true) (hears : s.canHears = true) (hhigh : s.o Obj.CAN_NODE < node.toNat)
    (hst : s.o Obj.CAN_STATE = 2) : Runs (.canKeeperHbReceive node ser up agree) s (fun t =>
      t.o Obj.CAN_KEEPER = node.toNat ∧ t.o Obj.CAN_STATE = (if s.o Obj.CAN_KEEPER_EN = 0 then 2 else 3)) := by
  have htaken := s.canHeard_taken node.toNat agree
  have hen := htaken.objs Obj.CAN_KEEPER_EN (by decide)
  obtain ⟨hkeeper, hstate⟩ := State.keeperIn_higher (s := s.canHeard node.toNat agree) (n := node.toNat) (by rw [htaken.node]; exact hhigh)
    ((htaken.objs Obj.CAN_STATE (by decide)).trans hst)
  rw [hen] at hstate
  have hsent := ((s.canHeard node.toNat agree).keeperIn node.toNat).canFlush_sent
  exact canKeeperHbReceive_runs ha hears ⟨(hsent.o (by decide)).trans hkeeper, (hsent.o (by decide)).trans hstate⟩

/-- A beacon stores its time and the crossing. -/
theorem canBeaconReceive_runs (ha : s.awake = true) (hears : s.canHears = true) :
    Runs (.canBeaconReceive node ms srct agree) s (fun t => t.o Obj.CAN_BEACON_MS = ms.toNat ∧ t.o Obj.CAN_BEACON_X = s.xc ∧
      t.o Obj.CAN_STATE = s.o Obj.CAN_STATE ∧ t.can.agree = (if agree then s.can.agree + 1 else 1) ∧
      (s.o Obj.CAN_REC < 128 → t.o Obj.CAN_REC = s.o Obj.CAN_REC - 1) ∧ (128 ≤ s.o Obj.CAN_REC → 119 ≤ t.o Obj.CAN_REC ∧ t.o Obj.CAN_REC ≤ 127) ∧
      t.keepsObjects s [Obj.CAN_BEACON_MS, Obj.CAN_BEACON_X, Obj.CAN_RX_FRAMES, Obj.CAN_CLKSRC, Obj.CAN_REC] ∧
      { t with obj := s.obj, can := s.can, free := s.free } = s) := by
  have htaken := s.canHeard_taken node.toNat agree
  have hagree : (s.canHeard node.toNat agree).can.agree = if agree then s.can.agree + 1 else 1 := congrArg Can.agree (s.canHeard_can _ _)
  have hxc : (s.canHeard node.toNat agree).xc = s.xc := htaken.xc
  refine awake_runs ha (congrArg (fun x => Host.Outcome.next (s.ifAwake x)) (if_pos hears)) ?_
  generalize s.canHeard node.toNat agree = v at htaken hagree hxc
  have hkeep : (v.beaconIn ms.toNat).keepsObjects v [Obj.CAN_BEACON_MS, Obj.CAN_BEACON_X] :=
    State.keepsObjects_setO (State.keepsObjects_setO (State.keepsObjects_refl v _) (by simp) _) (by simp) _
  have hms : (v.beaconIn ms.toNat).o Obj.CAN_BEACON_MS = ms.toNat := (State.o_setO_ne _ _ (by decide)).trans (State.o_setO_self _ _ _)
  have hx : (v.beaconIn ms.toNat).o Obj.CAN_BEACON_X = v.xc := State.o_setO_self _ _ _
  have hrec := hkeep Obj.CAN_REC (by decide)
  refine ⟨hms, hx.trans hxc, (hkeep _ (by decide)).trans (htaken.objs _ (by decide)), hagree, fun h => hrec.trans (htaken.low h),
    fun h => ?_, ?_, htaken.rest⟩
  · rw [hrec]
    exact htaken.high h
  · exact State.keepsObjects_trans (State.keepsObjects_mono hkeep (by decide)) (State.keepsObjects_mono htaken.objs (by decide))

/-- The keeper sends its heartbeat, and with a period its beacon. -/
theorem keeperSends_runs (ha : s.awake = true) (hst : s.o Obj.CAN_STATE = 4) (hon : s.can.busOff = false) :
    Runs .canKeeperHbSend s (fun t => t.out.length = s.out.length + 1 ∧ t.keepsObjects s [Obj.CAN_TX_FRAMES, Obj.CAN_TEC] ∧
      { t with obj := s.obj, out := s.out } = s) ∧
    (s.o Obj.CAN_BEACON_PER = 0 → exec .canBeaconSend s = .next s) ∧
    (s.o Obj.CAN_BEACON_PER ≠ 0 → s.o Obj.NT_STATE ≠ 0 → Runs .canBeaconSend s (fun t =>
      t.out = s.out ++ [Sent.can (canId 2 (s.o Obj.CAN_NODE) 0x3F 0 0 false) s.canBrs s.canPassive (bytesLE 6 (s.ntNs / 1000000) ++ [1, 0])] ∧
      t.keepsObjects s [Obj.CAN_TX_FRAMES, Obj.CAN_TEC] ∧ { t with obj := s.obj, out := s.out } = s)) := by
  refine ⟨?_, fun hper => congrArg Host.Outcome.next ((State.ifAwake_of ha).trans (if_neg fun hc => hc.2.2 hper)), fun hper hnt => ?_⟩
  · obtain ⟨hout, -, -, hkeep, hrest⟩ := s.canKeeperFrame_sends 1 (bytesLE 8 Config.serial.toNat ++ bytesLE 4 (s.secondsSince s.can.since) ++ bytesLE 4 0)
    refine awake_runs ha (congrArg (fun x => Host.Outcome.next (s.ifAwake x)) (if_pos ⟨hst, hon⟩)) ⟨?_, hkeep, hrest⟩
    exact (congrArg List.length hout).trans (by simp)
  · have hbytes : bytesLE 6 (s.ntNs / 1000000) ++ bytesLE 1 (b2n (s.o Obj.NT_STATE != 0)) ++ bytesLE 1 0 = bytesLE 6 (s.ntNs / 1000000) ++ [1, 0] := by
      have hne : (s.o Obj.NT_STATE != 0) = true := by simpa using hnt
      rw [hne, List.append_assoc]
      rfl
    obtain ⟨hout, -, -, hkeep, hrest⟩ := s.canKeeperFrame_sends 2 (bytesLE 6 (s.ntNs / 1000000) ++ [1, 0])
    refine awake_runs ha (congrArg (fun x => Host.Outcome.next (s.ifAwake x)) ((if_pos ⟨hst, hon, hper⟩).trans ?_)) ⟨hout, hkeep, hrest⟩
    have hne : (s.o Obj.NT_STATE != 0) = true := by simpa using hnt
    rw [← hbytes]
    simp only [hne, if_true]

/-- Settles O40: each timer and each frame of a claim, heartbeat or beacon takes the node to its state. -/
theorem theBusElectsItsKeeper : Obligations.TheBusElectsItsKeeper := by
  unfold Obligations.TheBusElectsItsKeeper
  intro node ser up ms srct agree s ha
  have hstays {t : State} (h : t = s) : Host.Outcome.next (s.ifAwake t) = (Host.Outcome.next s : Host.Outcome State Fault Refusal) :=
    congrArg Host.Outcome.next ((State.ifAwake_of ha).trans h)
  have hdeaf {t : State} (h : s.canHears = false) : (if s.canHears then t else s) = s := if_neg (by simp [h])
  have hmute {p : Prop} [Decidable p] {t : State} (h : ¬ p) : (if p then t else s) = s := if_neg h
  refine ⟨canKeeperTimeout_runs ha, fun h hout => flush_runs_same ha rfl (State.keeperTimeout_stays h) hout,
    fun h => hstays (State.claimSent_stays h),
    fun h => hstays ((congrArg State.canFlush (State.claimCollision_off h)).trans (State.canFlush_silent (State.canSends_off h))),
    canClaimSent_runs ha, canClaimWait_runs ha,
    fun h hout => ⟨flush_runs_same ha rfl (State.claimWait_stays h) hout, flush_runs_same ha rfl (State.claimCollision_stays h) hout⟩,
    fun hst hon => ⟨canClaimCollision_low ha hst hon, canClaimCollision_high ha hst hon, canClaimCollision_early ha hst hon,
      canClaimCollision_third ha hst hon⟩,
    canBackoff_runs ha, fun h hout => flush_runs_same ha rfl (State.backoffEnd_stays h) hout,
    fun h => ⟨hstays (hdeaf h), hstays (hdeaf h), hstays (hdeaf h)⟩,
    fun hears => ⟨canClaimReceive_conflict ha hears, canClaimReceive_lower ha hears, canClaimReceive_higher ha hears,
      canKeeperHbReceive_higher ha hears, canBeaconReceive_runs ha hears⟩,
    fun h => ⟨hstays (hmute fun hc => ?_), hstays (hmute fun hc => ?_)⟩, keeperSends_runs ha⟩
  · exact h.elim (fun hn => hn hc.1) fun ht => Bool.false_ne_true (hc.2.symm.trans ht)
  · exact h.elim (fun hn => hn hc.1) fun ht => Bool.false_ne_true (hc.2.1.symm.trans ht)

end Sys2Proof.Machine
end

section
/-! SUPPORT. Upsets of voted registers, tables and engine slots, and the comparison that restores them (R545, R546). -/
namespace Sys2Proof.Machine

variable {s t u : State} {k v x : Nat} {d : ObjDesc}

/-! ### Voted registers (R546) -/

theorem upsetRegister_of_none (h : objDesc k = none) (two : Option Nat) : s.upsetRegister k two = s := by
  unfold State.upsetRegister
  rw [h]

/-- An object without voted copies takes no upset. -/
theorem upsetRegister_unvoted (h : objDesc k = some d) (hd : d.acc ≠ .rw ∨ d.type = .domain) (two : Option Nat) : s.upsetRegister k two = s := by
  unfold State.upsetRegister
  rw [h]
  exact if_pos hd

theorem unvoted_elim (hacc : d.acc = .rw) (htype : d.type ≠ .domain) : ¬ (d.acc ≠ .rw ∨ d.type = .domain) :=
  fun h => h.elim (fun hn => hn hacc) htype

/-- One struck copy is voted out and counted. -/
theorem upsetRegister_one (h : objDesc k = some d) (hacc : d.acc = .rw) (htype : d.type ≠ .domain) :
    s.upsetRegister k none = s.bump Obj.FLT_TMR_CORR := by
  unfold State.upsetRegister
  rw [h]
  exact if_neg (unvoted_elim hacc htype)

/-- Two struck copies change the vote only when they hold another value. -/
theorem upsetRegister_two (h : objDesc k = some d) (hacc : d.acc = .rw) (htype : d.type ≠ .domain) (v : Nat) :
    s.upsetRegister k (some v) =
      if storedValue k (v % 2 ^ d.type.width) = s.o k then s else s.upsetTwo k (v % 2 ^ d.type.width) := by
  unfold State.upsetRegister
  rw [h]
  exact if_neg (unvoted_elim hacc htype)

/-! ### A register whose value simply stands -/

theorem storedValue_hbPer (v : Nat) : storedValue Obj.CF_HB_PER v = v := rfl

theorem State.forceValue_hbPer (s : State) (v : Nat) : s.forceValue Obj.CF_HB_PER v = s.setO Obj.CF_HB_PER v := rfl

theorem objDesc_hbPer : ∃ d, objDesc Obj.CF_HB_PER = some d ∧ d.acc = .rw ∧ d.type ≠ .domain ∧ d.type.width = 16 := by
  refine ⟨(objDesc Obj.CF_HB_PER).get (by decide), (Option.some_get _).symm, ?_, ?_, ?_⟩ <;> decide

/-- The difference that an upset of an agreeing CF_HB_PER leaves. -/
theorem State.upsetTwo_hbPer (h : s.differs = []) (v : Nat) : s.upsetTwo Obj.CF_HB_PER v =
    State.setO { s with differs := [{ key := Obj.CF_HB_PER, right := s.o Obj.CF_HB_PER }] } Obj.CF_HB_PER v := by
  unfold State.upsetTwo
  rw [h]
  rfl

theorem hbPer_struck (ha : s.awake = true) {v : BitVec 128} (hne : v.toNat % 2 ^ 16 ≠ s.o Obj.CF_HB_PER) (h : s.differs = []) :
    Runs (.storageUpset (.register 0x1100 0x06 (some v))) s (fun t =>
      t.o Obj.CF_HB_PER = v.toNat % 2 ^ 16 ∧ t.keepsObjects s [Obj.CF_HB_PER] ∧
      t.differs = [{ key := Obj.CF_HB_PER, right := s.o Obj.CF_HB_PER }] ∧
      { t with obj := s.obj, differs := [] } = s) := by
  obtain ⟨d, hd, hacc, htype, hwidth⟩ := objDesc_hbPer
  have hupset : s.upset (.register 0x1100 0x06 (some v)) =
      State.setO { s with differs := [{ key := Obj.CF_HB_PER, right := s.o Obj.CF_HB_PER }] } Obj.CF_HB_PER (v.toNat % 2 ^ 16) := by
    have htwo := upsetRegister_two (s := s) hd hacc htype v.toNat
    rw [hwidth, storedValue_hbPer, if_neg hne, State.upsetTwo_hbPer h] at htwo
    exact htwo
  have hkeep : (State.setO { s with differs := [{ key := Obj.CF_HB_PER, right := s.o Obj.CF_HB_PER }] } Obj.CF_HB_PER (v.toNat % 2 ^ 16)).keepsObjects s
      [Obj.CF_HB_PER] := State.keepsObjects_setO (fun _ _ => rfl) (by simp) _
  exact awake_runs ha (congrArg (fun x => Host.Outcome.next (s.ifAwake x)) hupset)
    ⟨State.o_setO_self _ _ _, hkeep, rfl, congrArg (fun l => ({ s with differs := l } : State)) h.symm⟩

/-! ### The comparison (R546) -/

theorem tmrCompare_same (h : s.differs = []) : s.tmrCompare = s := by
  unfold State.tmrCompare
  rw [h]
  exact congrArg (fun l => ({ s with differs := l } : State)) h.symm

theorem tmrCompare_right (h : s.differs = [{ key := Obj.CF_HB_PER, right := x }]) (hx : s.o Obj.CF_HB_PER = x) :
    s.tmrCompare = { s with differs := [] } := by
  unfold State.tmrCompare
  rw [h]
  exact if_neg fun hne => hne hx

theorem hbPer_restored (ha : s.awake = true) (hdown : s.cufel.down = false) (h : s.differs = [{ key := Obj.CF_HB_PER, right := x }])
    (hx : s.o Obj.CF_HB_PER ≠ x) : Runs .tmrCompare s (fun t =>
      t.o Obj.CF_HB_PER = x ∧ t.o Obj.FLT_TMR_DOUBLE = satAdd 32 (s.o Obj.FLT_TMR_DOUBLE) 1 ∧ t.ob Obj.FLT_LATCHED 14 = true ∧
      t.differs = [] ∧ t.keepsMemories s) := by
  have hrun : s.tmrCompare = ((((({ s with differs := [] } : State).forceValue Obj.CF_HB_PER x).bump Obj.FLT_TMR_DOUBLE).stage 0x0602 0 0
      (bytesLE 2 (Obj.CF_HB_PER / 256))).ariseOnce 14) := by
    unfold State.tmrCompare
    rw [h]
    exact if_pos hx
  have hper : ((({ s with differs := [] } : State).setO Obj.CF_HB_PER x).bump Obj.FLT_TMR_DOUBLE).o Obj.CF_HB_PER = x :=
    (State.o_bump_ne _ (by decide)).trans (State.o_setO_self _ _ _)
  have hcount : ((({ s with differs := [] } : State).setO Obj.CF_HB_PER x).bump Obj.FLT_TMR_DOUBLE).o Obj.FLT_TMR_DOUBLE =
      satAdd 32 (s.o Obj.FLT_TMR_DOUBLE) 1 :=
    (State.o_bump_self _ _).trans (congrArg (fun v => satAdd 32 v 1) (State.o_setO_ne { s with differs := [] } x (by decide)))
  have hmem : ((({ s with differs := [] } : State).setO Obj.CF_HB_PER x).bump Obj.FLT_TMR_DOUBLE).keepsMemories s := ⟨rfl, rfl, rfl⟩
  have hdiff : ((({ s with differs := [] } : State).setO Obj.CF_HB_PER x).bump Obj.FLT_TMR_DOUBLE).differs = [] := rfl
  rw [State.forceValue_hbPer] at hrun
  generalize (({ s with differs := [] } : State).setO Obj.CF_HB_PER x).bump Obj.FLT_TMR_DOUBLE = v at hrun hper hcount hmem hdiff
  have hstage := v.stage_frame 0x0602 0 0 (bytesLE 2 (Obj.CF_HB_PER / 256))
  have hkeep := v.stage_keepsObjects 0x0602 0 0 (bytesLE 2 (Obj.CF_HB_PER / 256))
  have hsmem := v.stage_keepsMemories 0x0602 0 0 (bytesLE 2 (Obj.CF_HB_PER / 256))
  have hsdiff : (v.stage 0x0602 0 0 (bytesLE 2 (Obj.CF_HB_PER / 256))).differs = v.differs := (congrArg State.differs hstage :)
  generalize v.stage 0x0602 0 0 (bytesLE 2 (Obj.CF_HB_PER / 256)) = w at hrun hkeep hsmem hsdiff
  have hrise := w.ariseOnce_keepsObjects 14
  have hrdiff : (w.ariseOnce 14).differs = w.differs := (congrArg State.differs (w.ariseOnce_keepsButObjects 14) :)
  refine task_runs ha hdown (congrArg (fun x => Host.Outcome.next (s.ifTask x)) hrun)
    ⟨(hrise _ (by decide)).trans ((hkeep _ (by decide)).trans hper), (hrise _ (by decide)).trans ((hkeep _ (by decide)).trans hcount),
      State.ariseOnce_latches w 14, hrdiff.trans (hsdiff.trans hdiff),
      State.keepsMemories_trans (w.ariseOnce_keepsMemories 14) (State.keepsMemories_trans hsmem hmem)⟩

/-! ### The query of an engine slot (R545) -/

/-- The parity count and the NVM are as they were. -/
def State.keepsParity (t s : State) : Prop := t.o Obj.FLT_PARITY = s.o Obj.FLT_PARITY ∧ t.nvm = s.nvm

theorem State.keepsParity_refl (s : State) : s.keepsParity s := ⟨rfl, rfl⟩

theorem State.keepsParity_trans (h : u.keepsParity t) (h' : t.keepsParity s) : u.keepsParity s :=
  ⟨h.1.trans h'.1, h.2.trans h'.2⟩

theorem State.keepsParity_of_pool {ks : List Nat} (h : t.keepsButPool s) (ho : t.keepsObjects s ks) (hk : Obj.FLT_PARITY ∉ ks) :
    t.keepsParity s := ⟨ho _ hk, (congrArg State.nvm h :)⟩

theorem State.mapSlot_keepsParity (s : State) (n : Fin 4) (f : QEntry → QEntry) : (s.mapSlot n f).keepsParity s := ⟨rfl, rfl⟩

theorem State.finishAnswer_keepsParity (s : State) (n : Fin 4) (e : QEntry) (a : Answer) : (s.finishAnswer n e a).keepsParity s := by
  obtain ⟨hpool, hobj, -⟩ := s.finishAnswer_frame n e a
  have hother : ∀ n : Fin 4, Obj.FLT_PARITY ∉ [Obj.POOL_DOUBLE, Obj.POOL_FOREIGN, Obj.CHK_RUN n] := by decide
  exact State.keepsParity_of_pool hpool hobj (hother n)

theorem State.pack_keepsParity (s : State) (n : Fin 4) : (s.pack n).keepsParity s := by
  unfold State.pack
  split
  · exact s.keepsParity_refl
  · dsimp only
    split
    · exact s.mapSlot_keepsParity n _
    · exact s.finishAnswer_keepsParity n _ _

theorem State.afterReserve_keepsParity (s : State) (n : Fin 4) : (s.afterReserve n).keepsParity s := by
  unfold State.afterReserve
  split
  · split
    · split
      · exact s.mapSlot_keepsParity n _
      · exact s.pack_keepsParity n
    · exact s.keepsParity_refl
  · exact s.keepsParity_refl

theorem State.countIndex_keepsParity (s : State) (us : List Upset) (w : Win) : (s.countIndex us w).keepsParity s := by
  have hnote : (s.noteWord 2 (s.indexAddr w.x.toNat) us).keepsParity s :=
    ⟨State.noteWord_keepsObjects s _ _ us _ (by decide), (congrArg State.nvm (s.noteWord_keepsButNoted 2 (s.indexAddr w.x.toNat) us) :)⟩
  unfold State.countIndex State.countCapExp
  split
  · exact s.keepsParity_refl
  · dsimp only
    generalize s.noteWord 2 (s.indexAddr w.x.toNat) us = v at hnote ⊢
    split
    · split
      · exact State.keepsParity_trans ⟨State.o_bump_ne _ (by decide), rfl⟩ hnote
      · exact hnote
    · exact hnote

theorem State.countIndexes_keepsParity (us : List Upset) (ws : List Win) (s : State) :
    (ws.foldl (fun s w => s.countIndex us w) s).keepsParity s := by
  induction ws generalizing s with
  | nil => exact s.keepsParity_refl
  | cons w ws ih => exact State.keepsParity_trans (ih _) (s.countIndex_keepsParity us w)

theorem State.indexQuery_keepsParity (s : State) (n : Fin 4) (us : List Upset) : (s.indexQuery n us).keepsParity s := by
  unfold State.indexQuery
  split
  · exact s.keepsParity_refl
  · next e _ =>
    dsimp only
    generalize (if e.q.anchor.isFuture = true then [] else List.map (s.makeWin e us) e.q.crossings) = ws
    have hcount := State.countIndexes_keepsParity us ws s
    generalize ws.foldl (fun s w => s.countIndex us w) s = v at hcount ⊢
    have hmap := v.mapSlot_keepsParity n fun x => { x with st := .index, win := ws, need := blocksFor ws e }
    generalize (v.mapSlot n fun x => { x with st := .index, win := ws, need := blocksFor ws e }) = w at hmap ⊢
    have hreserve : (w.reserve n (blocksFor ws e)).keepsParity w :=
      State.keepsParity_of_pool (State.reserve_keepsButPool _ _ _) (State.reserve_keepsObjects _ _ _) (by decide)
    exact State.keepsParity_trans (State.afterReserve_keepsParity _ n) (State.keepsParity_trans hreserve (State.keepsParity_trans hmap hcount))

theorem State.freeSlotWork_keepsParity (s : State) (n : Fin 4) : (s.freeSlotWork n).keepsParity s := by
  unfold State.freeSlotWork
  split
  · next e _ =>
    have hfree : (s.releaseAll .query e.blocks).keepsParity s :=
      State.keepsParity_of_pool (s.releaseAll_keepsButPool _ _) (State.releaseAll_keepsObjects _ _ s) (by decide)
    generalize s.releaseAll .query e.blocks = v at hfree ⊢
    have hctx : ((v.setOb Obj.CMP_CTXVALID n false).setCtx n {}).keepsParity v := ⟨State.o_setO_ne _ _ (by decide), rfl⟩
    exact State.keepsParity_trans hctx hfree
  · exact s.keepsParity_refl

/-- A query that is not waiting is counted and runs again. -/
theorem State.upsetQuery_runs {n : Fin 4} {e : QEntry} (he : s.slotEntry n = some e) (hst : e.st ≠ .waiting) :
    (s.upsetQuery n).o Obj.FLT_PARITY = satAdd 32 (s.o Obj.FLT_PARITY) 1 ∧ (s.upsetQuery n).nvm = s.nvm := by
  have hcount : (s.bump Obj.FLT_PARITY).o Obj.FLT_PARITY = satAdd 32 (s.o Obj.FLT_PARITY) 1 := State.o_bump_self _ _
  have hnvm : (s.bump Obj.FLT_PARITY).nvm = s.nvm := rfl
  unfold State.upsetQuery
  rw [he]
  dsimp only
  rw [if_neg hst]
  generalize s.bump Obj.FLT_PARITY = v at hcount hnvm ⊢
  obtain ⟨hp, hn⟩ := State.keepsParity_trans (State.indexQuery_keepsParity _ n []) (State.keepsParity_trans
    (State.mapSlot_keepsParity (v.freeSlotWork n) n fun x => { x.fresh with slot := some n }) (v.freeSlotWork_keepsParity n))
  exact ⟨hp.trans hcount, hn.trans hnvm⟩

/-- Settles O48: one struck copy is only counted, two change the vote until the comparison, and other storage is marked. -/
theorem upsetsAreVotedOutOrFound : Obligations.UpsetsAreVotedOutOrFound := by
  unfold Obligations.UpsetsAreVotedOutOrFound
  intro idx sub v x d c g walk p n m i e s ha
  have hstays {u : Struck} (h : s.upset u = s) : exec (.storageUpset u) s = .next s :=
    congrArg Host.Outcome.next ((State.ifAwake_of ha).trans h)
  have hruns {u : Struck} {t : State} {P : State → Prop} (h : s.upset u = t) (hP : P t) : Runs (.storageUpset u) s P :=
    awake_runs ha (congrArg (fun x => Host.Outcome.next (s.ifAwake x)) h) hP
  have hbump (k : Nat) : (s.bump k).o k = satAdd 32 (s.o k) 1 ∧ (s.bump k).keepsObjects s [k] ∧ { s.bump k with obj := s.obj } = s :=
    ⟨State.o_bump_self _ _, State.keepsObjects_bump (State.keepsObjects_refl s _) (by simp), rfl⟩
  have hnone (two : Option (BitVec 128)) (h : objDesc (objKey idx.toNat sub.toNat) = none) :
      exec (.storageUpset (.register idx sub two)) s = .next s := hstays (upsetRegister_of_none h (two.map BitVec.toNat))
  have hunvoted (two : Option (BitVec 128)) (h : objDesc (objKey idx.toNat sub.toNat) = some d) (hd : d.acc ≠ .rw ∨ d.type = .domain) :
      exec (.storageUpset (.register idx sub two)) s = .next s := hstays (upsetRegister_unvoted h hd (two.map BitVec.toNat))
  refine ⟨fun h => ⟨hnone none h, hnone (some v) h⟩,
    fun h => ⟨fun hd => ⟨hunvoted none h hd, hunvoted (some v) h hd⟩,
      fun hacc htype => ⟨hruns (upsetRegister_one h hacc htype) (hbump _),
        fun hv => hstays ((upsetRegister_two h hacc htype _).trans (if_pos hv))⟩⟩,
    hbPer_struck ha, fun hdown => congrArg Host.Outcome.next (if_neg (by simp [hdown])), hbPer_restored ha, ?_, ?_, ?_, ?_, ?_, ?_, ?_,
    hruns rfl (hbump _), hstays rfl, ?_, ?_⟩
  case refine_1 =>
    intro hgood hin
    refine congrArg Host.Outcome.next ((State.ifAwake_of ha).trans (if_neg ?_))
    rcases hin with hw | hp
    · rw [hgood, hw]
      simp
    · simp [hgood, Nat.not_le.mpr hp]
  case refine_2 =>
    intro h
    refine hstays (if_pos ?_)
    rcases h with h | ⟨hw, hp⟩
    · simp [h]
    · simp [hw, hp]
  case refine_3 =>
    exact hruns rfl ⟨congrArg Chan.chain (s.chan_setChan_self c _), fun d hd => s.chan_setChan_ne _ hd, s.chan_setChan_self c _, rfl⟩
  case refine_4 => exact hruns rfl ⟨s.group_setGroup_self g _, fun h hh => s.group_setGroup_ne _ hh, rfl⟩
  case refine_5 =>
    intro h
    refine hstays ?_
    change s.upsetQuery i = s
    unfold State.upsetQuery
    rw [h]
  case refine_6 =>
    intro he hst
    have hwait : s.upset (.query i) = s.bump Obj.FLT_PARITY := by
      change s.upsetQuery i = _
      unfold State.upsetQuery
      rw [he]
      exact if_pos hst
    exact hruns hwait (hbump _)
  case refine_7 => exact fun he hst => hruns rfl (State.upsetQuery_runs he hst)
  case refine_8 =>
    intro h
    refine congrArg Host.Outcome.next ?_
    unfold State.ifTask
    rw [tmrCompare_same h, ite_self]
  case refine_9 => exact fun h hx hdown => congrArg Host.Outcome.next ((State.ifTask_of ha hdown).trans (tmrCompare_right h hx))

end Sys2Proof.Machine
end

section
/-! SUPPORT. Entries, conversions and results of the housekeeping sequencer (R429 to R450). -/
namespace Sys2Proof.Machine

variable {s t u : State} {m : Nat}

/-! ### What follows the entry in progress (R429, R431, R435) -/

/-- The entry in progress, its excitation and burn-out current, and its value are as they were. -/
structure State.HkKept (t s : State) : Prop where
  entry : t.hk.entry = s.hk.entry
  exc : t.hk.exc = s.hk.exc
  burn : t.hk.burn = s.hk.burn
  value : ∀ e ∈ s.hk.entry, t.o (hkEntryKey e) = s.o (hkEntryKey e)

theorem State.HkKept.refl (s : State) : s.HkKept s := ⟨rfl, rfl, rfl, fun _ _ => rfl⟩

theorem State.HkKept.trans (h : u.HkKept t) (h' : t.HkKept s) : u.HkKept s :=
  ⟨h.entry.trans h'.entry, h.exc.trans h'.exc, h.burn.trans h'.burn, fun e he => (h.value e (h'.entry ▸ he)).trans (h'.value e he)⟩

/-- A change of other units and of the unit's other fields. -/
theorem State.HkKept.frame (h : t.HkKept s) (he : u.hk.entry = t.hk.entry) (hx : u.hk.exc = t.hk.exc) (hb : u.hk.burn = t.hk.burn)
    (ho : u.obj = t.obj) : u.HkKept s :=
  State.HkKept.trans ⟨he, hx, hb, fun e _ => congrArg (fun l => sget (objDefault (hkEntryKey e)) l (hkEntryKey e)) ho⟩ h

/-- An object that no entry's value stands in. -/
def hkFree (k : Nat) : Prop := ∀ e, hkEntryKey e ≠ k

theorem hkFree_low {k : Nat} (h : k < objKey 0x6010 1) (hu : k ≠ Obj.HK_URG_ENTRY) : hkFree k := by
  intro e he
  unfold hkEntryKey at he
  split at he
  · exact hu he.symm
  · simp only [Obj.HK_ENTRY, objKey] at he h
    omega

theorem State.HkKept.setO (h : t.HkKept s) {k : Nat} (hk : hkFree k) (v : Nat) : (t.setO k v).HkKept s :=
  State.HkKept.trans (t := t) ⟨rfl, rfl, rfl, fun e _ => State.o_setO_ne t v (hk e)⟩ h

theorem State.HkKept.ite {c : Prop} [Decidable c] (ht : t.HkKept s) (hu : u.HkKept s) : (if c then t else u).HkKept s := by
  split
  · exact ht
  · exact hu

/-- Nothing is being converted. -/
def State.HkIdle (s : State) : Prop := s.hk.entry = none ∧ s.hk.exc = none ∧ s.hk.burn = 0

/-- The entry in progress drives its excitation and burn-out current. -/
def State.HkDriven (s : State) : Prop :=
  ∃ m, s.hk.entry = some m ∧ s.hk.exc = hkDrive (s.o (hkEntryKey m)) ∧ s.hk.burn = hkBurn (s.o (hkEntryKey m))

theorem State.HkKept.idle (h : t.HkKept s) (hs : s.HkIdle) : t.HkIdle :=
  ⟨h.entry.trans hs.1, h.exc.trans hs.2.1, h.burn.trans hs.2.2⟩

theorem State.hkStill_idle (s : State) : s.hkStill.HkIdle := ⟨rfl, rfl, rfl⟩

theorem State.hkBegin_driven (s : State) (m : Nat) : (s.hkBegin m).HkDriven := by
  have hkey : (s.setO Obj.HK_SEQ_POS m).o (hkEntryKey m) = s.o (hkEntryKey m) :=
    State.o_setO_ne s m (hkFree_low (k := Obj.HK_SEQ_POS) (by decide) (by decide) m)
  exact ⟨m, rfl, congrArg hkDrive hkey.symm, congrArg hkBurn hkey.symm⟩

theorem State.hkSeek_kept (n : Nat) (s : State) (m : Nat) : (s.hkSeek n m).1.HkKept s := by
  induction n generalizing s m with
  | zero => exact .refl s
  | succ n ih =>
    unfold State.hkSeek
    split
    · exact .refl s
    · split
      · exact ih s (m + 1)
      · split
        · exact .refl s
        · exact (ih _ (m + 1)).trans ((State.HkKept.refl s).setO (hkFree_low (by decide) (by decide)) _)

/-- A sequence that goes on from rest begins an entry or rests. -/
theorem State.hkRun_moves (n : Nat) (s : State) (m : Nat) (hs : s.HkIdle) : (s.hkRun n m).HkIdle ∨ (s.hkRun n m).HkDriven := by
  induction n generalizing s m with
  | zero => exact .inl hs
  | succ n ih =>
    have hrun : (s.setO Obj.HK_STATE 2).HkKept s := (State.HkKept.refl s).setO (hkFree_low (by decide) (by decide)) 2
    have hseek := ((s.setO Obj.HK_STATE 2).hkSeek_kept 32 m).trans hrun
    unfold State.hkRun
    dsimp only
    generalize (s.setO Obj.HK_STATE 2).hkSeek 32 m = r at hseek ⊢
    obtain ⟨v, o⟩ := r
    cases o with
    | some e => exact .inr (v.hkBegin_driven e)
    | none =>
      have hv := (hseek.setO (hkFree_low (k := Obj.HK_PASSES) (by decide) (by decide)) (satAdd 32 (v.o Obj.HK_PASSES) 1)).idle hs
      dsimp only
      change (v.bump Obj.HK_PASSES).HkIdle at hv
      generalize v.bump Obj.HK_PASSES = w at hv ⊢
      split
      · split
        · exact .inl (State.hkStill_idle _)
        · exact ih w 0 hv
      · split
        · exact ih _ 0 (((State.HkKept.refl w).setO (hkFree_low (by decide) (by decide)) 0).idle hv)
        · exact .inl (State.hkStill_idle _)

theorem State.hkSwap_kept (s : State) : s.hkSwap.HkKept s := by
  unfold State.hkSwap
  split
  · exact .refl s
  · split
    · split
      · exact .refl s
      · exact ((State.HkKept.refl s).setO (hkFree_low (by decide) (by decide)) _).frame rfl rfl rfl rfl
    · exact ((((State.HkKept.refl s).setO (k := Obj.HK_SLICE) (hkFree_low (by decide) (by decide)) _).setO (k := Obj.HK_SWAPS)
        (hkFree_low (by decide) (by decide)) _).frame rfl rfl rfl rfl)

/-- After a result the entry in progress stays, or another follows, or none. -/
theorem State.hkNext_moves (s : State) (m : Nat) : (s.hkNext m).HkKept s ∨ (s.hkNext m).HkIdle ∨ (s.hkNext m).HkDriven := by
  have hstate {v : State} (hv : v.HkIdle) (x : Nat) : (v.setO Obj.HK_STATE x).HkIdle :=
    ((State.HkKept.refl v).setO (hkFree_low (by decide) (by decide)) x).idle hv
  have hpend {v : State} (hv : v.HkIdle) (x : Nat) : (v.setO Obj.HK_START_PEND x).HkIdle :=
    ((State.HkKept.refl v).setO (hkFree_low (by decide) (by decide)) x).idle hv
  unfold State.hkNext
  split
  · exact .inr (State.hkRun_moves 4 _ _ (s.hkStill.hkSwap_kept.idle s.hkStill_idle))
  · dsimp only
    have hidle := (State.hkSwap_kept _).idle (hstate (State.hkStill_idle { s with hk := { s.hk with stopAfter := false } }) 1)
    generalize (State.setO (State.hkStill { s with hk := { s.hk with stopAfter := false } }) Obj.HK_STATE 1).hkSwap = v at hidle ⊢
    split
    · exact .inr (State.hkRun_moves 4 _ 0 (hpend hidle 0))
    · exact .inr (.inl hidle)
  · dsimp only
    have hidle := (State.hkSwap_kept _).idle (hstate (State.hkStill_idle { s with hk := { s.hk with stopAfter := false } })
      (if s.hk.stopAfter then 1 else 2))
    generalize (State.setO (State.hkStill { s with hk := { s.hk with stopAfter := false } }) Obj.HK_STATE
      (if s.hk.stopAfter then 1 else 2)).hkSwap = v at hidle ⊢
    split
    · exact .inr (.inl hidle)
    · exact .inr (State.hkRun_moves 4 _ _ hidle)
  · exact .inl (.refl s)

/-! ### A result (R449, R450) -/

theorem State.recordEvent_kept (s : State) (i j : Nat) (p : List Byte) : (s.recordEvent i j p).HkKept s := by
  unfold State.recordEvent State.event
  split
  · exact .refl s
  · have hseq : ((s.wrapBy 16 Obj.CF_EVT_SEQ 1).soil 0x5C4000 0x8000).HkKept s := by
      unfold State.soil
      exact ((State.HkKept.refl s).setO (hkFree_low (by decide) (by decide)) _).ite
        (((State.HkKept.refl s).setO (k := Obj.CF_EVT_SEQ) (hkFree_low (by decide) (by decide)) _).frame rfl rfl rfl rfl)
    dsimp only
    generalize (s.wrapBy 16 Obj.CF_EVT_SEQ 1).soil 0x5C4000 0x8000 = v at hseq ⊢
    split
    · exact hseq.frame rfl rfl rfl rfl
    · exact hseq.setO (hkFree_low (by decide) (by decide)) _

/-- The result's own marks in the unit. -/
def State.hkShown (s : State) : State := { s with hk := { s.hk with unread := true, served := s.hk.served + 1 } }

/-- The result in its register, with its counts. -/
def State.hkStored (s : State) (w : Nat) : State :=
  (((if s.hk.unread then s.bump Obj.HK_OVERRUNS else s).setO Obj.HK_RESULT w).wrapBy 48 Obj.HK_CONV 1).hkShown

/-- A result that goes to the control server as an event counts as read when it is taken. -/
def State.hkOffered (s : State) (w : Nat) : State :=
  if s.cufel.events.length < (s.recordEvent 0x6000 0x08 (bytesLE 8 w)).cufel.events.length then
    (s.recordEvent 0x6000 0x08 (bytesLE 8 w)).hkMarkRead
  else s.recordEvent 0x6000 0x08 (bytesLE 8 w)

theorem State.hkWrite_eq (s : State) (w : Nat) : s.hkWrite w =
    if (s.hkStored w).flag Obj.HK_RES_EVT && !(s.hkStored w).cufel.down then (s.hkStored w).hkOffered w else s.hkStored w := rfl

theorem State.hkStored_kept (s : State) (w : Nat) : (s.hkStored w).HkKept s := by
  have hover : (if s.hk.unread then s.bump Obj.HK_OVERRUNS else s).HkKept s :=
    ((State.HkKept.refl s).setO (hkFree_low (by decide) (by decide)) _).ite (.refl s)
  unfold State.hkStored
  generalize (if s.hk.unread then s.bump Obj.HK_OVERRUNS else s) = v at hover ⊢
  have hword : ((v.setO Obj.HK_RESULT w).wrapBy 48 Obj.HK_CONV 1).HkKept s :=
    (hover.setO (k := Obj.HK_RESULT) (hkFree_low (by decide) (by decide)) w).setO (hkFree_low (by decide) (by decide)) _
  exact hword.frame rfl rfl rfl rfl

theorem State.hkOffered_kept (s : State) (w : Nat) : (s.hkOffered w).HkKept s := by
  have hevent := s.recordEvent_kept 0x6000 0x08 (bytesLE 8 w)
  have hread : (s.recordEvent 0x6000 0x08 (bytesLE 8 w)).hkMarkRead.HkKept s := hevent.frame rfl rfl rfl rfl
  exact hread.ite hevent

theorem State.hkWrite_kept (s : State) (w : Nat) : (s.hkWrite w).HkKept s := by
  rw [State.hkWrite_eq]
  exact ((State.hkOffered_kept _ w).trans (s.hkStored_kept w)).ite (s.hkStored_kept w)

theorem hkEntryKey_ne_hkRangeKey (m : Nat) : hkEntryKey m ≠ hkRangeKey m := by
  unfold hkEntryKey hkRangeKey
  simp only [Obj.HK_ENTRY, Obj.HK_RANGE_NOW, Obj.HK_RANGE_URG, Obj.HK_URG_ENTRY, objKey]
  split <;> omega

/-- The range state of the entry in progress is not its value. -/
theorem State.hkMoveRange_kept (h : t.HkKept s) (hm : s.hk.entry = some m) (code : Int) (stuck : Bool) : (t.hkMoveRange m code stuck).HkKept s := by
  have hmove (v : Nat) : (t.setO (hkRangeKey m) v).HkKept s := by
    refine State.HkKept.trans (t := t) ⟨rfl, rfl, rfl, fun e he => ?_⟩ h
    obtain rfl : m = e := Option.some.inj ((h.entry.trans hm).symm.trans he)
    exact State.o_setO_ne t v (hkEntryKey_ne_hkRangeKey m)
  unfold State.hkMoveRange
  split
  · exact h
  · exact (hmove _).ite ((hmove _).ite h)

/-- The end of an integration leaves the entry in progress, or moves on. -/
theorem State.hkEnd_moves (hm : s.hk.entry = some m) (x y : Int) (rl fb : Bool) :
    (s.hkEnd m x y rl fb).HkKept s ∨ (s.hkEnd m x y rl fb).HkIdle ∨ (s.hkEnd m x y rl fb).HkDriven := by
  have hfree {v : State} (hv : v.HkKept s) (c : Prop) [Decidable c] : (if c then v.drawn else v).HkKept s :=
    (hv.frame rfl rfl rfl rfl : v.drawn.HkKept s).ite hv
  have hcount {v : State} (hv : v.HkKept s) (c : Prop) [Decidable c] {k : Nat} (hk : hkFree k) : (if c then v.bump k else v).HkKept s :=
    (hv.setO hk _).ite hv
  unfold State.hkEnd
  extract_lets v clkfb mode dchk bo r c raw2 x1 x2 s1 dist s2 src high low low' opn ovl sum odd code s3 s4 w
  have h2 : s2.HkKept s := hcount (hfree (.refl s) _) _ (hkFree_low (by decide) (by decide))
  have h4 : s4.HkKept s := hcount (hfree h2 _) _ (hkFree_low (by decide) (by decide))
  clear_value s2 s4 code w
  split
  · exact .inl (h2.frame rfl rfl rfl rfl)
  · have hmoved := State.hkMoveRange_kept ((s4.hkWrite_kept w).trans h4) hm code (opn || ovl)
    rcases State.hkNext_moves ((s4.hkWrite w).hkMoveRange m code (opn || ovl)) m with h | h
    · exact .inl (h.trans hmoved)
    · exact .inr h

/-- Excitation and burn-out current follow the entry in progress. -/
theorem State.hkEnd_follows {β : Type} (drive : Nat → β) (rest : β) (get : Hk → β)
    (hget : ∀ v : State, v.HkDriven → ∀ e ∈ v.hk.entry, get v.hk = drive (v.o (hkEntryKey e))) (hrest : ∀ v : State, v.HkIdle → get v.hk = rest)
    (hkept : ∀ v : State, v.HkKept s → get v.hk = get s.hk) (hm : s.hk.entry = some m)
    (hs : ∀ e ∈ s.hk.entry, get s.hk = drive (s.o (hkEntryKey e))) (x y : Int) (rl fb : Bool) :
    (∀ e ∈ (s.hkEnd m x y rl fb).hk.entry, get (s.hkEnd m x y rl fb).hk = drive ((s.hkEnd m x y rl fb).o (hkEntryKey e))) ∧
    ((s.hkEnd m x y rl fb).hk.entry = none → get (s.hkEnd m x y rl fb).hk = rest) := by
  rcases State.hkEnd_moves hm x y rl fb with h | h | h
  · refine ⟨fun e he => ?_, fun hnone => ?_⟩
    · rw [hkept _ h, h.value e (h.entry ▸ he)]
      exact hs e (h.entry ▸ he)
    · exact absurd ((h.entry.trans hm).symm.trans hnone) (by simp)
  · refine ⟨fun e he => ?_, fun _ => hrest _ h⟩
    rw [h.1] at he
    exact absurd he (by simp)
  · refine ⟨hget _ h, fun hnone => ?_⟩
    obtain ⟨e, he, -⟩ := h
    exact absurd (he.symm.trans hnone) (by simp)

end Sys2Proof.Machine
end

section
/-! SUPPORT. Restarts, repeats, results and calibrations of the housekeeping unit (R437 to R442, R449, R450). -/
namespace Sys2Proof.Machine

variable {s t u : State} {m : Fin 32} {x y X Y : Int} {c : Int × Nat} {rl fb : Bool} {raw : List (Int × Int)}

theorem hkEntryKey_fin (m : Fin 32) : hkEntryKey m = Obj.HK_ENTRY m := if_neg (by omega)

theorem hkRangeKey_fin (m : Fin 32) : hkRangeKey m = Obj.HK_RANGE_NOW m := if_neg (by omega)

theorem hkConversionEnd_runs {P : State → Prop} (ha : s.awake = true) {e : Nat} (he : s.hk.entry = some e) (h : P (s.hkEnd e x y rl fb)) :
    Runs (.hkConversionEnd x y rl fb) s P := by
  refine awake_runs ha (t := s.hkEnd e x y rl fb) ?_ h
  change execHkConversionEnd x y rl fb s = _
  unfold execHkConversionEnd
  rw [he]

theorem hkConversionEnd_still (ha : s.awake = true) (he : s.hk.entry = none) : exec (.hkConversionEnd x y rl fb) s = .next s := by
  change execHkConversionEnd x y rl fb s = _
  unfold execHkConversionEnd
  rw [he]
  exact congrArg Host.Outcome.next (State.ifAwake_of ha)

/-- What follows the entry keeps following it at the end of a conversion. -/
theorem hkConversionEnd_follows {β : Type} (drive : Nat → β) (rest : β) (get : Hk → β)
    (hget : ∀ v : State, v.HkDriven → ∀ e ∈ v.hk.entry, get v.hk = drive (v.o (hkEntryKey e))) (hrest : ∀ v : State, v.HkIdle → get v.hk = rest)
    (hkept : ∀ v : State, v.HkKept s → get v.hk = get s.hk) (ha : s.awake = true)
    (hs : ∀ e ∈ s.hk.entry, get s.hk = drive (s.o (hkEntryKey e))) (hidle : get s.hk = rest ∨ s.hk.entry ≠ none) :
    Runs (.hkConversionEnd x y rl fb) s (fun t => (∀ e ∈ t.hk.entry, get t.hk = drive (t.o (hkEntryKey e))) ∧
      (t.hk.entry = none → get t.hk = rest)) := by
  cases he : s.hk.entry with
  | none => exact ⟨s, hkConversionEnd_still ha he, hs, fun _ => hidle.resolve_right fun hn => hn he⟩
  | some m => exact hkConversionEnd_runs ha he (State.hkEnd_follows drive rest get hget hrest hkept he hs x y rl fb)

/-! ### Excitation and burn-out current (R429, R431, R435) -/

theorem hkDrive_drives {v : Nat} (h : bits v 62 60 ∈ [2, 3]) : ∃ d ∈ hkDrive v,
    d.out.val = bits v 51 51 ∧ d.level.val = bits v 50 49 ∧ d.sine = bit v 48 := by
  have hmode : bits v 62 60 = 2 ∨ bits v 62 60 = 3 := by simpa using h
  have hout : bits v 51 51 < 2 := Nat.mod_lt _ (by decide)
  have hlevel : bits v 50 49 < 4 := Nat.mod_lt _ (by decide)
  exact ⟨_, if_pos hmode, Nat.mod_eq_of_lt hout, Nat.mod_eq_of_lt hlevel, rfl⟩

theorem hkDrive_none {v : Nat} (h : bits v 62 60 ∉ [2, 3]) : hkDrive v = none := if_neg (by simpa using h)

/-! ### Restarts and repeats (R437, R440) -/

/-- The conversion's entry goes on one range lower. -/
def State.hkRestarted (s : State) (m : Nat) : State :=
  let s := (s.setO (hkRangeKey m) (s.o (hkRangeKey m) - 1)).bump Obj.HK_RANGE_RETRY
  { s with hk := { s.hk with retries := s.hk.retries + 1 } }

theorem hkRangeRestart_still (ha : s.awake = true) (h : ∀ e ∈ s.hk.entry,
    ¬ (bits (s.o (hkEntryKey e)) 36 34 = 4 ∧ 0 < s.o (hkRangeKey e) ∧ s.hk.retries < 3)) : exec .hkRangeRestart s = .next s := by
  change execHkRangeRestart s = _
  unfold execHkRangeRestart
  refine congrArg Host.Outcome.next ((State.ifAwake_of ha).trans ?_)
  cases he : s.hk.entry with
  | none => rfl
  | some e => exact if_neg (h e he)

theorem hkRangeRestart_runs (ha : s.awake = true) (he : s.hk.entry = some m.val) (hauto : bits (s.o (Obj.HK_ENTRY m)) 36 34 = 4)
    (hrange : 0 < s.o (Obj.HK_RANGE_NOW m)) (hfew : s.hk.retries < 3) :
    Runs .hkRangeRestart s (fun t => t.o (Obj.HK_RANGE_NOW m) = s.o (Obj.HK_RANGE_NOW m) - 1 ∧
      t.o Obj.HK_RANGE_RETRY = satAdd 32 (s.o Obj.HK_RANGE_RETRY) 1 ∧ t.hk = { s.hk with retries := s.hk.retries + 1 } ∧
      t.keepsObjects s [Obj.HK_RANGE_NOW m, Obj.HK_RANGE_RETRY] ∧ { t with obj := s.obj, hk := s.hk } = s) := by
  have hexec : exec .hkRangeRestart s = .next (s.ifAwake (s.hkRestarted m)) := by
    change execHkRangeRestart s = _
    unfold execHkRangeRestart
    rw [he]
    refine congrArg (fun v => Host.Outcome.next (s.ifAwake v)) (if_pos ?_)
    rw [hkEntryKey_fin, hkRangeKey_fin]
    exact ⟨hauto, hrange, hfew⟩
  have hne : Obj.HK_RANGE_NOW m ≠ Obj.HK_RANGE_RETRY := by
    simp only [Obj.HK_RANGE_NOW, Obj.HK_RANGE_RETRY, objKey]
    omega
  have hnow : ((s.setO (Obj.HK_RANGE_NOW m) (s.o (Obj.HK_RANGE_NOW m) - 1)).bump Obj.HK_RANGE_RETRY).o (Obj.HK_RANGE_NOW m) =
      s.o (Obj.HK_RANGE_NOW m) - 1 := (State.o_bump_ne _ hne).trans (State.o_setO_self _ _ _)
  have hretry : ((s.setO (Obj.HK_RANGE_NOW m) (s.o (Obj.HK_RANGE_NOW m) - 1)).bump Obj.HK_RANGE_RETRY).o Obj.HK_RANGE_RETRY =
      satAdd 32 (s.o Obj.HK_RANGE_RETRY) 1 := (State.o_bump_self _ _).trans (congrArg (fun v => satAdd 32 v 1) (State.o_setO_ne _ _ hne.symm))
  have hkeep : ((s.setO (Obj.HK_RANGE_NOW m) (s.o (Obj.HK_RANGE_NOW m) - 1)).bump Obj.HK_RANGE_RETRY).keepsObjects s
      [Obj.HK_RANGE_NOW m, Obj.HK_RANGE_RETRY] :=
    State.keepsObjects_bump (State.keepsObjects_setO (State.keepsObjects_refl s _) (by simp) _) (by simp)
  have hrest : (State.keepsButObjects ((s.setO (Obj.HK_RANGE_NOW m) (s.o (Obj.HK_RANGE_NOW m) - 1)).bump Obj.HK_RANGE_RETRY) s) :=
    State.keepsButObjects_bump (State.keepsButObjects_setO s.keepsButObjects_refl _ _) _
  refine awake_runs ha hexec ?_
  unfold State.hkRestarted
  rw [hkRangeKey_fin]
  generalize (s.setO (Obj.HK_RANGE_NOW m) (s.o (Obj.HK_RANGE_NOW m) - 1)).bump Obj.HK_RANGE_RETRY = v at hnow hretry hkeep hrest ⊢
  have hhk : v.hk = s.hk := (congrArg State.hk hrest :)
  dsimp only
  exact ⟨hnow, hretry, by rw [hhk], hkeep, (congrArg (fun z : State => { z with hk := s.hk }) hrest :)⟩

/-! ### The code of a count (R438, R439) -/

/-- A count nearer to X than half a code under its constants is X, and not half-way between two codes. -/
theorem hkCode_near (h : 2 * (65536 * X - (x - c.1) * c.2).natAbs < 65536) (up : Nat) : hkCode c x up = X ∧ hkHalf c x = false := by
  unfold hkCode hkHalf
  generalize (x - c.1) * (c.2 : Int) = p at h ⊢
  have hne : p % 65536 ≠ 32768 := by omega
  refine ⟨?_, by simpa using hne⟩
  dsimp only
  rw [if_neg hne]
  omega

theorem State.hkRange_fin (s : State) (m : Fin 32) : s.hkRange m =
    if bits (s.o (Obj.HK_ENTRY m)) 36 34 ≤ 3 then bits (s.o (Obj.HK_ENTRY m)) 36 34 else s.o (Obj.HK_RANGE_NOW m) := by
  unfold State.hkRange
  rw [hkEntryKey_fin, hkRangeKey_fin]

/-- A disturbed first conversion is counted and repeated. -/
def State.hkRepeated (s : State) : State :=
  let s := s.bump Obj.HK_DIST_CNT
  { s with hk := { s.hk with repeating := true, retries := 0, onInt := s.onIntosc, limit := s.o Obj.HK_DIST_LIMIT } }

theorem State.hkEnd_repeats (hc : s.hkServing (s.hkRange m) = c)
    (hx : 2 * (65536 * X - (x - c.1) * c.2).natAbs < 65536) (hy : 2 * (65536 * Y - (y - c.1) * c.2).natAbs < 65536)
    (hcheck : bit (s.o (Obj.HK_ENTRY m)) 13 = true) (hrep : bit (s.o (Obj.HK_ENTRY m)) 12 = true) (hfirst : s.hk.repeating = false)
    (hlim : s.hk.limit < (hkClip X - hkClip Y).natAbs) : s.hkEnd m x y rl fb = s.hkRepeated := by
  unfold State.hkEnd
  extract_lets v clkfb mode dchk bo r c' raw2 x1 x2 s1 dist s2 src
  have hv : v = s.o (Obj.HK_ENTRY m) := congrArg s.o (hkEntryKey_fin m)
  have hdchk : dchk = true := (congrArg (fun z => bit z 13) hv).trans hcheck
  have hraw : raw2 = y := if_pos hdchk
  have hc' : c' = c := hc
  obtain ⟨hX, hnx⟩ := hkCode_near hx s.open
  have hx1 : x1 = X := (congrArg (fun z => hkCode z x s.open) hc').trans hX
  obtain ⟨hY, hny⟩ := hkCode_near hy (if raw2 = x then s.open else s.open / 2)
  have hx2 : x2 = Y := by
    change hkCode c' raw2 _ = Y
    rw [hc', hraw] at *
    exact hY
  have hs1 : s1 = s := if_neg (by rw [hc', hraw, hnx, hny]; simp)
  have hdist : dist = true := by
    change (dchk && decide ((hkClip x1 - hkClip x2).natAbs > s1.hk.limit)) = true
    rw [hdchk, hx1, hx2, hs1]
    simpa using hlim
  have hs2 : s2 = s.bump Obj.HK_DIST_CNT := (if_pos hdist).trans (congrArg (State.bump · Obj.HK_DIST_CNT) hs1)
  refine (if_pos (by rw [hdist, hv, hrep, hs2]; exact congrArg (fun b => !b) hfirst)).trans ?_
  simp only [src, hs2]
  rfl

/-! ### Results (R449, R450) -/

/-- A signed value's bits. -/
theorem ofSigned_lt (i : Int) : ofSigned 20 i < 2 ^ 20 := by
  unfold ofSigned
  omega

theorem b2n_le (b : Bool) : b2n b ≤ 1 := by cases b <;> decide

/-- A bit of a sum of one place's bit, higher places and lower ones. -/
theorem bit_place {n hi lo : Nat} (b : Bool) (hlo : lo < 2 ^ n) : bit (hi * 2 ^ (n + 1) + b2n b * 2 ^ n + lo) n = b := by
  have hdiv : (hi * 2 ^ (n + 1) + b2n b * 2 ^ n + lo) / 2 ^ n = 2 * hi + b2n b := by
    rw [show hi * 2 ^ (n + 1) + b2n b * 2 ^ n + lo = lo + 2 ^ n * (2 * hi + b2n b) by ring, Nat.add_mul_div_left _ _ (by positivity),
      Nat.div_eq_of_lt hlo, Nat.zero_add]
  unfold bit
  rw [Nat.testBit_eq_decide_div_mod_eq, hdiv]
  cases b <;> simp [b2n]

/-- The fields of a result word. -/
theorem hkWord_fields {seq entry range slice code : Nat} (overrun dist rep opn ovl ranged fb : Bool) (hseq : seq < 2 ^ 16)
    (hentry : entry < 64) (hrange : range < 4) (hslice : slice ≤ 1) (hcode : code < 2 ^ 20) :
    bits (hkWord seq entry range slice code overrun dist rep opn ovl ranged fb) 63 48 = seq ∧
    bits (hkWord seq entry range slice code overrun dist rep opn ovl ranged fb) 47 42 = entry ∧
    bits (hkWord seq entry range slice code overrun dist rep opn ovl ranged fb) 41 40 = range ∧
    bit (hkWord seq entry range slice code overrun dist rep opn ovl ranged fb) 38 = overrun ∧
    bit (hkWord seq entry range slice code overrun dist rep opn ovl ranged fb) 34 = ovl ∧
    bit (hkWord seq entry range slice code overrun dist rep opn ovl ranged fb) 32 = fb := by
  have h1 := b2n_le overrun
  have h2 := b2n_le dist
  have h3 := b2n_le rep
  have h4 := b2n_le opn
  have h5 := b2n_le ovl
  have h6 := b2n_le ranged
  have h7 := b2n_le fb
  have h38 := bit_place (n := 38) (hi := seq * 2 ^ 9 + entry * 2 ^ 3 + range * 2 + slice)
    (lo := b2n dist * 2 ^ 37 + b2n rep * 2 ^ 36 + b2n opn * 2 ^ 35 + b2n ovl * 2 ^ 34 + b2n ranged * 2 ^ 33 + b2n fb * 2 ^ 32 + code) overrun (by omega)
  have h34 := bit_place (n := 34) (hi := seq * 2 ^ 13 + entry * 2 ^ 7 + range * 2 ^ 5 + slice * 2 ^ 4 + b2n overrun * 2 ^ 3 + b2n dist * 2 ^ 2 +
    b2n rep * 2 + b2n opn) (lo := b2n ranged * 2 ^ 33 + b2n fb * 2 ^ 32 + code) ovl (by omega)
  have h32 := bit_place (n := 32) (hi := seq * 2 ^ 15 + entry * 2 ^ 9 + range * 2 ^ 7 + slice * 2 ^ 6 + b2n overrun * 2 ^ 5 + b2n dist * 2 ^ 4 +
    b2n rep * 2 ^ 3 + b2n opn * 2 ^ 2 + b2n ovl * 2 + b2n ranged) (lo := code) fb (by omega)
  refine ⟨?_, ?_, ?_, ?_, ?_, ?_⟩
  · simp only [bits, hkWord, Nat.shiftRight_eq_div_pow]
    omega
  · simp only [bits, hkWord, Nat.shiftRight_eq_div_pow]
    omega
  · simp only [bits, hkWord, Nat.shiftRight_eq_div_pow]
    omega
  · refine Eq.trans (congrArg (fun z => bit z 38) ?_) h38
    unfold hkWord
    omega
  · refine Eq.trans (congrArg (fun z => bit z 34) ?_) h34
    unfold hkWord
    omega
  · refine Eq.trans (congrArg (fun z => bit z 32) ?_) h32
    unfold hkWord
    omega

theorem hkWord_code {seq entry range slice code : Nat} (overrun dist rep opn ovl ranged fb : Bool) (hcode : code < 2 ^ 20) :
    bits (hkWord seq entry range slice code overrun dist rep opn ovl ranged fb) 19 0 = code := by
  simp only [bits, hkWord, Nat.shiftRight_eq_div_pow]
  omega

/-- The word of a plain voltage result. -/
def State.hkPlainWord (s : State) (m : Nat) (X : Int) (fb : Bool) : Nat :=
  hkWord ((bits (s.o Obj.HK_RESULT) 63 48 + 1) % 2 ^ 16) m (s.hkRange m) (s.o Obj.HK_SLICE) (ofSigned 20 (max (-524287) (min 524287 X)))
    s.hk.unread false s.hk.repeating false (decide (524287 < X ∨ X < -524287)) (s.hk.retries != 0) (s.onIntosc || (fb && s.hk.onInt))

theorem hkClip_eq (X : Int) : hkClip X = max (-524287) (min 524287 X) := by
  unfold hkClip
  split <;> [skip; split] <;> omega

/-- The end of a plain voltage conversion stores its word and moves on. -/
theorem State.hkEnd_plain (hc : s.hkServing (s.hkRange m) = c) (hx : 2 * (65536 * X - (x - c.1) * c.2).natAbs < 65536)
    (hcheck : bit (s.o (Obj.HK_ENTRY m)) 13 = false) (hmode : bits (s.o (Obj.HK_ENTRY m)) 62 60 = 0)
    (hbo : bits (s.o (Obj.HK_ENTRY m)) 33 32 = 0) (hfixed : bits (s.o (Obj.HK_ENTRY m)) 36 34 ≤ 3) :
    ∃ code stuck, s.hkEnd m x y rl fb = ((s.hkWrite (s.hkPlainWord m X fb)).hkMoveRange m code stuck).hkNext m := by
  unfold State.hkEnd
  extract_lets v clkfb mode dchk bo r c' raw2 x1 x2 s1 dist s2 src high low low' opn ovl sum odd code s3 s4 w
  have hv : v = s.o (Obj.HK_ENTRY m) := congrArg s.o (hkEntryKey_fin m)
  have hdchk : dchk = false := (congrArg (fun z => bit z 13) hv).trans hcheck
  have hraw : raw2 = x := if_neg (by simp [hdchk])
  have hc' : c' = c := hc
  obtain ⟨hX, hnx⟩ := hkCode_near hx s.open
  have hx1 : x1 = X := (congrArg (fun z => hkCode z x s.open) hc').trans hX
  have hx2 : x2 = X := by
    obtain ⟨hX', -⟩ := hkCode_near hx (if raw2 = x then s.open else s.open / 2)
    change hkCode c' raw2 _ = X
    rw [hc', hraw] at *
    exact hX'
  have hs1 : s1 = s := if_neg (by rw [hc', hraw, hnx]; simp)
  have hdist : dist = false := by
    change (dchk && _) = false
    rw [hdchk, Bool.false_and]
  have hs2 : s2 = s := (if_neg (by simp [hdist])).trans hs1
  have hhigh : high = decide (524287 < X) := by
    change (decide (x1 > 524287) || decide (x2 > 524287)) = _
    rw [hx1, hx2, Bool.or_self]
  have hlow : low = decide (X < -524287) := by
    change (decide (x1 < -524287) || decide (x2 < -524287)) = _
    rw [hx1, hx2, Bool.or_self]
  have hopn : opn = false := by
    have hm0 : mode = 0 := (congrArg (fun z => bits z 62 60) hv).trans hmode
    have hb0 : bo = false := by
      change (hkBurn v != 0) = false
      have : hkBurn v = 0 := by
        rw [hv]
        unfold hkBurn
        rw [if_neg (by omega), hbo]
      rw [this]
      rfl
    change ((rl && (mode == 2 || mode == 3)) || high && bo && _) = false
    rw [hm0, hb0]
    simp
  have hovl : ovl = decide (524287 < X ∨ X < -524287) := by
    have hf : (bits v 36 34 != 4) = true := by
      rw [hv]
      simpa using Nat.ne_of_lt (Nat.lt_succ_of_le hfixed)
    change (!opn && (high || low) && (r == 0 || bits v 36 34 != 4)) = _
    rw [hopn, hf, hhigh, hlow]
    simp
  have hodd : ¬ odd := by
    rintro ⟨h, -⟩
    change (hkClip x1 + hkClip x2) % 2 = 1 at h
    rw [hx1, hx2] at h
    omega
  have hcode : code = max (-524287) (min 524287 X) := by
    have hsum : sum = hkClip X + hkClip X := by
      change hkClip x1 + hkClip x2 = _
      rw [hx1, hx2]
    rw [← hkClip_eq]
    change (if (opn || ovl && high) = true then (524287 : Int) else if ovl = true then -524287 else if odd then _ else sum / 2) = _
    rw [if_neg hodd, hopn, hovl, hhigh, hsum]
    unfold hkClip
    by_cases h1 : 524287 < X
    · simp [h1]
    · by_cases h2 : X < -524287
      · simp [h1, h2]
      · simp only [h1, h2, if_false]
        simp
        omega
  have hs3 : s3 = s := (if_neg hodd).trans hs2
  have hs4 : s4 = s := (if_neg (by simp [hopn])).trans hs3
  have hw : w = s.hkPlainWord m X fb := by
    change hkWord ((bits (s4.o Obj.HK_RESULT) 63 48 + 1) % 2 ^ 16) m r (s4.o Obj.HK_SLICE) (ofSigned 20 code)
      s4.hk.unread dist s4.hk.repeating opn ovl (s4.hk.retries != 0) clkfb = _
    rw [hs4, hcode, hdist, hopn, hovl]
    rfl
  refine ⟨code, opn || ovl, (if_neg (by simp [hdist])).trans ?_⟩
  rw [hs4, hw]

/-- The objects that a result's storing writes. -/
def hkResultKeys : List Nat := [Obj.HK_OVERRUNS, Obj.HK_RESULT, Obj.HK_CONV]

theorem State.hkStored_stores (s : State) (w : Nat) : (s.hkStored w).o Obj.HK_RESULT = w ∧
    (s.hkStored w).o Obj.HK_OVERRUNS = (if s.hk.unread then satAdd 32 (s.o Obj.HK_OVERRUNS) 1 else s.o Obj.HK_OVERRUNS) ∧
    (s.hkStored w).o Obj.HK_CONV = (s.o Obj.HK_CONV + 1) % 2 ^ 48 ∧ (s.hkStored w).hk.unread = true ∧
    (s.hkStored w).keepsObjects s hkResultKeys ∧ (s.hkStored w).keepsMemories s := by
  have hover : (if s.hk.unread then s.bump Obj.HK_OVERRUNS else s).o Obj.HK_OVERRUNS =
      (if s.hk.unread then satAdd 32 (s.o Obj.HK_OVERRUNS) 1 else s.o Obj.HK_OVERRUNS) := by
    split
    · exact State.o_bump_self _ _
    · rfl
  have hkeep : (if s.hk.unread then s.bump Obj.HK_OVERRUNS else s).keepsObjects s [Obj.HK_OVERRUNS] :=
    State.keepsObjects_ite (State.keepsObjects_bump (State.keepsObjects_refl s _) (by simp)) (State.keepsObjects_refl s _)
  have hmem : (if s.hk.unread then s.bump Obj.HK_OVERRUNS else s).keepsMemories s := by
    split <;> exact ⟨rfl, rfl, rfl⟩
  unfold State.hkStored
  generalize (if s.hk.unread then s.bump Obj.HK_OVERRUNS else s) = v at hover hkeep hmem ⊢
  have hres : ((v.setO Obj.HK_RESULT w).wrapBy 48 Obj.HK_CONV 1).o Obj.HK_RESULT = w := (State.o_setO_ne _ _ (by decide)).trans (State.o_setO_self _ _ _)
  have hov : ((v.setO Obj.HK_RESULT w).wrapBy 48 Obj.HK_CONV 1).o Obj.HK_OVERRUNS = v.o Obj.HK_OVERRUNS :=
    (State.o_setO_ne _ _ (by decide)).trans (State.o_setO_ne _ _ (by decide))
  have hold : (v.setO Obj.HK_RESULT w).o Obj.HK_CONV = s.o Obj.HK_CONV := (State.o_setO_ne _ _ (by decide)).trans (hkeep _ (by decide))
  have hconv : ((v.setO Obj.HK_RESULT w).wrapBy 48 Obj.HK_CONV 1).o Obj.HK_CONV = (s.o Obj.HK_CONV + 1) % 2 ^ 48 := by
    rw [← hold]
    exact State.o_setO_self _ _ _
  have hobj : ((v.setO Obj.HK_RESULT w).wrapBy 48 Obj.HK_CONV 1).keepsObjects s hkResultKeys :=
    State.keepsObjects_setO (State.keepsObjects_setO (State.keepsObjects_mono hkeep (by decide)) (by decide) _) (by decide) _
  exact ⟨hres, hov.trans hover, hconv, rfl, hobj, hmem⟩

theorem State.hkSwap_leaves (s : State) : s.hkSwap.keepsObjects s [Obj.HK_SWAP_DEFER, Obj.HK_SLICE, Obj.HK_SWAPS] ∧
    s.hkSwap.hk.unread = s.hk.unread ∧ s.hkSwap.keepsMemories s := by
  unfold State.hkSwap
  split
  · exact ⟨State.keepsObjects_refl s _, rfl, rfl, rfl, rfl⟩
  · split
    · split
      · exact ⟨State.keepsObjects_refl s _, rfl, rfl, rfl, rfl⟩
      · have hbump : (s.bump Obj.HK_SWAP_DEFER).keepsObjects s [Obj.HK_SWAP_DEFER, Obj.HK_SLICE, Obj.HK_SWAPS] :=
          State.keepsObjects_bump (State.keepsObjects_refl s _) (by simp)
        exact ⟨hbump, rfl, rfl, rfl, rfl⟩
    · have hswap : ((s.setO Obj.HK_SLICE (1 - s.o Obj.HK_SLICE)).bump Obj.HK_SWAPS).keepsObjects s [Obj.HK_SWAP_DEFER, Obj.HK_SLICE, Obj.HK_SWAPS] :=
        State.keepsObjects_bump (State.keepsObjects_setO (State.keepsObjects_refl s _) (by simp) _) (by simp)
      exact ⟨hswap, rfl, rfl, rfl, rfl⟩

/-- The unit at rest after an urgent conversion. -/
def State.hkResting (s : State) : State := State.setO (State.hkStill { s with hk := { s.hk with stopAfter := false } }) Obj.HK_STATE 1

/-- After an urgent conversion outside a sequence the unit rests. -/
theorem State.hkNext_urgent {n : Nat} (hstate : s.o Obj.HK_STATE = 3) (hpend : s.o Obj.HK_START_PEND = 0) :
    (s.hkNext n).HkIdle ∧ (s.hkNext n).o Obj.HK_STATE = 1 ∧ (s.hkNext n).hk.unread = s.hk.unread ∧ (s.hkNext n).keepsMemories s ∧
    (s.hkNext n).keepsObjects s [Obj.HK_STATE, Obj.HK_SWAP_DEFER, Obj.HK_SLICE, Obj.HK_SWAPS] := by
  have hidle : s.hkResting.HkIdle := ⟨rfl, rfl, rfl⟩
  have hone : s.hkResting.o Obj.HK_STATE = 1 :=
    State.o_setO_self _ _ _
  have hkeep : s.hkResting.keepsObjects s [Obj.HK_STATE] :=
    State.keepsObjects_setO (fun _ _ => rfl) (by simp) _
  have hread : s.hkResting.hk.unread = s.hk.unread := rfl
  have hmem : s.hkResting.keepsMemories s := ⟨rfl, rfl, rfl⟩
  have hnext : s.hkNext n = if s.hkResting.hkSwap.flag Obj.HK_START_PEND then (s.hkResting.hkSwap.setO Obj.HK_START_PEND 0).hkPass
      else s.hkResting.hkSwap := by
    unfold State.hkNext
    rw [hstate]
    rfl
  rw [hnext]
  generalize s.hkResting = v at hidle hone hkeep hread hmem ⊢
  obtain ⟨hobj, hunread, hsmem⟩ := v.hkSwap_leaves
  have hflag : v.hkSwap.flag Obj.HK_START_PEND = false := by
    unfold State.flag
    rw [hobj _ (by decide), hkeep _ (by decide), hpend]
    rfl
  rw [if_neg (by simp [hflag])]
  exact ⟨v.hkSwap_kept.idle hidle, (hobj _ (by decide)).trans hone, hunread.trans hread, State.keepsMemories_trans hsmem hmem,
    State.keepsObjects_trans (State.keepsObjects_mono hobj (by simp)) (State.keepsObjects_mono hkeep (by simp))⟩

/-- A plain voltage result is stored, counted and unread, and the unit rests. -/
theorem hkConversionEnd_plain (ha : s.awake = true) (he : s.hk.entry = some m.val) (hc : s.hkServing (s.hkRange m) = c)
    (hx : 2 * (65536 * X - (x - c.1) * c.2).natAbs < 65536)
    (hcheck : bit (s.o (Obj.HK_ENTRY m)) 13 = false) (hmode : bits (s.o (Obj.HK_ENTRY m)) 62 60 = 0)
    (hbo : bits (s.o (Obj.HK_ENTRY m)) 33 32 = 0) (hfixed : bits (s.o (Obj.HK_ENTRY m)) 36 34 ≤ 3)
    (hstate : s.o Obj.HK_STATE = 3) (hevt : s.o Obj.HK_RES_EVT = 0) (hpend : s.o Obj.HK_START_PEND = 0) :
    Runs (.hkConversionEnd x y rl fb) s (fun t =>
      bits (t.o Obj.HK_RESULT) 19 0 = ofSigned 20 (max (-524287) (min 524287 X)) ∧
      (s.o Obj.HK_SLICE ≤ 1 → bits (t.o Obj.HK_RESULT) 63 48 = (bits (s.o Obj.HK_RESULT) 63 48 + 1) % 2 ^ 16 ∧
        bits (t.o Obj.HK_RESULT) 47 42 = m.val ∧ bits (t.o Obj.HK_RESULT) 41 40 = bits (s.o (Obj.HK_ENTRY m)) 36 34 ∧
        bit (t.o Obj.HK_RESULT) 38 = s.hk.unread ∧ bit (t.o Obj.HK_RESULT) 34 = decide (524287 < X ∨ X < -524287) ∧
        bit (t.o Obj.HK_RESULT) 32 = (s.onIntosc || (fb && s.hk.onInt))) ∧
      t.o Obj.HK_OVERRUNS = (if s.hk.unread then satAdd 32 (s.o Obj.HK_OVERRUNS) 1 else s.o Obj.HK_OVERRUNS) ∧
      t.o Obj.HK_CONV = (s.o Obj.HK_CONV + 1) % 2 ^ 48 ∧ t.o Obj.HK_STATE = 1 ∧ t.hk.unread = true ∧ t.hk.entry = none ∧ t.hk.exc = none ∧
      t.keepsMemories s) := by
  obtain ⟨code, stuck, hend⟩ := State.hkEnd_plain (y := y) (rl := rl) (fb := fb) hc hx hcheck hmode hbo hfixed
  obtain ⟨hres, hover, hconv, hread, hobj, hmem⟩ := s.hkStored_stores (s.hkPlainWord m X fb)
  have hwrite : s.hkWrite (s.hkPlainWord m X fb) = s.hkStored (s.hkPlainWord m X fb) := by
    rw [State.hkWrite_eq]
    refine if_neg ?_
    unfold State.flag
    rw [hobj _ (by decide), hevt]
    simp
  have hvalue : (s.hkStored (s.hkPlainWord m X fb)).o (Obj.HK_ENTRY m) = s.o (Obj.HK_ENTRY m) := by
    rw [← hkEntryKey_fin]
    exact (s.hkStored_kept _).value m.val he
  have hmove : (s.hkStored (s.hkPlainWord m X fb)).hkMoveRange m code stuck = s.hkStored (s.hkPlainWord m X fb) := by
    refine if_pos ?_
    rw [hkEntryKey_fin, hvalue]
    omega
  obtain ⟨hidle, hone, hunread, hnmem, hnext⟩ := State.hkNext_urgent (s := s.hkStored (s.hkPlainWord m X fb)) (n := m)
    ((hobj _ (by decide)).trans hstate) ((hobj _ (by decide)).trans hpend)
  refine hkConversionEnd_runs ha he ?_
  rw [hend, hwrite, hmove, hnext Obj.HK_RESULT (by decide), hnext Obj.HK_OVERRUNS (by decide), hnext Obj.HK_CONV (by decide), hres]
  have hrange : s.hkRange m = bits (s.o (Obj.HK_ENTRY m)) 36 34 := (s.hkRange_fin m).trans (if_pos hfixed)
  refine ⟨hkWord_code _ _ _ _ _ _ _ (ofSigned_lt _), fun hslice => ?_, hover, hconv, hone, hunread.trans hread, hidle.1, hidle.2.1,
    State.keepsMemories_trans hnmem hmem⟩
  have hfields := hkWord_fields (seq := (bits (s.o Obj.HK_RESULT) 63 48 + 1) % 2 ^ 16) (entry := m) (range := s.hkRange m)
    (slice := s.o Obj.HK_SLICE) (code := ofSigned 20 (max (-524287) (min 524287 X))) s.hk.unread false s.hk.repeating false
    (decide (524287 < X ∨ X < -524287)) (s.hk.retries != 0) (s.onIntosc || (fb && s.hk.onInt)) (Nat.mod_lt _ (by decide)) (by omega)
    (by omega) hslice (ofSigned_lt _)
  rw [← hrange]
  exact hfields

/-- A disturbed first conversion runs again. -/
theorem hkConversionEnd_repeats (ha : s.awake = true) (he : s.hk.entry = some m.val) (hend : s.hkEnd m x y rl fb = s.hkRepeated) :
    Runs (.hkConversionEnd x y rl fb) s (fun t => t.o Obj.HK_DIST_CNT = satAdd 32 (s.o Obj.HK_DIST_CNT) 1 ∧
      t.hk = { s.hk with repeating := true, retries := 0, onInt := s.onIntosc, limit := s.o Obj.HK_DIST_LIMIT } ∧
      t.keepsObjects s [Obj.HK_DIST_CNT] ∧ { t with obj := s.obj, hk := s.hk } = s) := by
  have hcount : (s.bump Obj.HK_DIST_CNT).o Obj.HK_DIST_CNT = satAdd 32 (s.o Obj.HK_DIST_CNT) 1 := State.o_bump_self _ _
  have hkeep : (s.bump Obj.HK_DIST_CNT).keepsObjects s [Obj.HK_DIST_CNT] := State.keepsObjects_bump (State.keepsObjects_refl s _) (by simp)
  have hint : (s.bump Obj.HK_DIST_CNT).onIntosc = s.onIntosc := by
    unfold State.onIntosc
    rw [hkeep _ (by decide)]
  have hlim : (s.bump Obj.HK_DIST_CNT).o Obj.HK_DIST_LIMIT = s.o Obj.HK_DIST_LIMIT := hkeep _ (by decide)
  refine hkConversionEnd_runs ha he ?_
  rw [hend, ← hint, ← hlim]
  exact ⟨hcount, rfl, hkeep, rfl⟩

end Sys2Proof.Machine
end

section
/-! SUPPORT. The calibration of the spare slice, and the result as the host reads it (R441, R442, R450, R536). -/
namespace Sys2Proof.Machine

variable {s t u : State} {raw : List (Int × Int)} {n k : Nat}

/-- A slice's failed calibration, counted; every eighth in a row is a fault of the unit. -/
def State.hkFailed (s : State) (n : Nat) : State :=
  let t : State := { s.bump Obj.HK_CAL_FAIL with hk := { s.hk with fails := s.hk.fails.set n (s.hk.fails.getD n 0 + 1) } }
  if (s.hk.fails.getD n 0 + 1) % 8 = 0 then t.raiseFault 8 (Fin.ofNat 128 n) else t

theorem hkSliceCal_bad (h : raw.length ≠ 4 ∨ raw.all (fun e => hkConstOk e.1 e.2) = false) (n : Nat) :
    s.hkSliceCal n raw = (s.hkFailed n, false) := by
  have hnone : s.hkConsts n raw = none := if_neg fun hc => h.elim (fun hl => hl hc.1) fun ha => Bool.false_ne_true (ha.symm.trans hc.2)
  unfold State.hkSliceCal
  rw [hnone]
  rfl

theorem State.hkFailed_fails (s : State) (n : Nat) : (s.hkFailed n).o Obj.HK_CAL_FAIL = satAdd 32 (s.o Obj.HK_CAL_FAIL) 1 ∧
    (s.hkFailed n).hk = { s.hk with fails := s.hk.fails.set n (s.hk.fails.getD n 0 + 1) } ∧
    (s.hkFailed n).watch = (if (s.hk.fails.getD n 0 + 1) % 8 = 0 then { s.watch with raised := s.watch.raised ++ [(8, Fin.ofNat 128 n)] } else s.watch) ∧
    (s.hkFailed n).keepsObjects s [Obj.HK_CAL_FAIL] ∧ { s.hkFailed n with obj := s.obj, hk := s.hk, watch := s.watch } = s := by
  have hcount : (s.bump Obj.HK_CAL_FAIL).o Obj.HK_CAL_FAIL = satAdd 32 (s.o Obj.HK_CAL_FAIL) 1 := State.o_bump_self _ _
  have hkeep : (s.bump Obj.HK_CAL_FAIL).keepsObjects s [Obj.HK_CAL_FAIL] := State.keepsObjects_bump (State.keepsObjects_refl s _) (by simp)
  unfold State.hkFailed
  dsimp only
  split
  · exact ⟨hcount, rfl, rfl, hkeep, rfl⟩
  · exact ⟨hcount, rfl, rfl, hkeep, rfl⟩

/-- A failed calibration of the slice that is due only counts. -/
theorem State.hkCalDone_bad (h : raw.length ≠ 4 ∨ raw.all (fun e => hkConstOk e.1 e.2) = false)
    (hk : s.hk.recal.headD (1 - s.o Obj.HK_SLICE) = k) : s.hkCalDone raw = s.hkFailed k := by
  unfold State.hkCalDone
  cases hr : s.hk.recal with
  | nil =>
    rw [hr] at hk
    dsimp only
    rw [hkSliceCal_bad h, ← hk]
    rfl
  | cons n r =>
    rw [hr] at hk
    dsimp only
    unfold State.hkRecal
    rw [hkSliceCal_bad h, ← hk]
    rfl

theorem hkCalDone_runs {P : State → Prop} (ha : s.awake = true) (hon : s.o Obj.HK_STATE ≠ 0) (hup : s.cufel.down = false) (h : P (s.hkCalDone raw)) :
    Runs (.hkCalDone raw) s P :=
  awake_runs ha (congrArg (fun v => Host.Outcome.next (s.ifAwake v)) (if_neg (by simp [hon, hup]))) h

/-- The spare's constants are the calibration's, and the serving slice's stay. -/
def State.hkSparePassed (s : State) (raw : List (Int × Int)) : State :=
  { s.drawn with hk := { s.hk with consts := s.hk.consts.take 4 ++ raw.map fun e => hkConst e.1 e.2 s.open, fails := s.hk.fails.set 1 0, sparePassed := true } }

theorem State.hkCalDone_good (hlen : raw.length = 4) (hall : raw.all (fun e => hkConstOk e.1 e.2) = true) (hrecal : s.hk.recal = [])
    (hslice : s.o Obj.HK_SLICE = 0) (hentry : s.hk.entry ≠ none) : s.hkCalDone raw = s.hkSparePassed raw := by
  have hcal : s.hkSliceCal 1 raw = ({ s.drawn with hk := { s.hk with consts := s.hk.consts.take 4 ++ raw.map fun e => hkConst e.1 e.2 s.open, fails := s.hk.fails.set 1 0 } }, true) := by
    have hsome : s.hkConsts 1 raw = some { s.drawn with hk := { s.hk with consts := s.hk.consts.take 4 ++ raw.map fun e => hkConst e.1 e.2 s.open } } :=
      if_pos ⟨hlen, hall⟩
    unfold State.hkSliceCal
    rw [hsome]
  unfold State.hkCalDone
  rw [hrecal, hslice]
  dsimp only
  rw [hcal]
  dsimp only
  exact if_neg (by simpa using hentry)

/-- The constants of a passing calibration. -/
theorem hkSparePassed_consts (hlen : s.hk.consts.length = 8) : (s.hkSparePassed raw).hk.consts.take 4 = s.hk.consts.take 4 ∧
    ((s.hkSparePassed raw).hk.consts.drop 4).map (·.1) = raw.map (·.1) := by
  have hfour : (s.hk.consts.take 4).length = 4 := by
    rw [List.length_take, hlen]
    rfl
  refine ⟨List.take_left' hfour, ?_⟩
  have hdrop : (s.hkSparePassed raw).hk.consts.drop 4 = raw.map fun e => hkConst e.1 e.2 s.open := List.drop_left' hfour
  rw [hdrop, List.map_map]
  rfl

/-- The result is answered, and counts as read. -/
theorem hkResultRead_runs {q : Req} (hs : s.servedFor q = true) : Runs (.hkResultRead q) s (fun t => t.hk = { s.hk with unread := false } ∧
    t.answers q 0x01 .ok (keyBytes Obj.HK_RESULT ++ bytesLE 1 6 ++ bytesLE 8 (s.o Obj.HK_RESULT)) ∧
    t.keepsObjects s [Obj.CHK_ALIVE_TXN, Obj.CHK_ALIVE_TXC] ∧ { t with obj := s.obj, cufel := s.cufel, hk := s.hk } = s) := by
  refine request_runs (t := s.hkMarkRead.respond q 0x01 .ok (keyBytes Obj.HK_RESULT ++ bytesLE 1 6 ++ bytesLE 8 (s.o Obj.HK_RESULT))) hs rfl ?_
  have hread : s.hkMarkRead.hk = { s.hk with unread := false } := rfl
  have hkept : s.hkMarkRead.keepsObjects s [Obj.CHK_ALIVE_TXN, Obj.CHK_ALIVE_TXC] := fun _ _ => rfl
  have hobj : s.hkMarkRead.obj = s.obj := rfl
  have hcufel : s.hkMarkRead.cufel = s.cufel := rfl
  have hmarked : ({ s.hkMarkRead with hk := s.hk } : State) = s := rfl
  obtain ⟨hans, hobjs, hrest⟩ := s.hkMarkRead.respond_only q 0x01 .ok (keyBytes Obj.HK_RESULT ++ bytesLE 1 6 ++ bytesLE 8 (s.o Obj.HK_RESULT))
  generalize s.hkMarkRead = v at hread hkept hobj hcufel hmarked hans hobjs hrest ⊢
  generalize v.respond q 0x01 .ok (keyBytes Obj.HK_RESULT ++ bytesLE 1 6 ++ bytesLE 8 (s.o Obj.HK_RESULT)) = w at hans hobjs hrest ⊢
  rw [hobj, hcufel] at hrest
  exact ⟨(congrArg State.hk hrest :).trans hread, hans, State.keepsObjects_trans hobjs hkept,
    (congrArg (fun z : State => { z with hk := s.hk }) hrest :).trans hmarked⟩

/-- Settles O33: restarts, repeats, results and calibrations, by the end of a conversion's cases. -/
theorem housekeepingConvertsRangesAndCalibrates : Obligations.HousekeepingConvertsRangesAndCalibrates := by
  unfold Obligations.HousekeepingConvertsRangesAndCalibrates
  intro m x y X Y c k rl fb raw q s
  have hexc (v : State) (hv : v.HkDriven) : ∀ e ∈ v.hk.entry, v.hk.exc = hkDrive (v.o (hkEntryKey e)) := by
    obtain ⟨e, he, hx, -⟩ := hv
    intro e' he'
    obtain rfl : e = e' := Option.some.inj (he.symm.trans he')
    exact hx
  have hburn (v : State) (hv : v.HkDriven) : ∀ e ∈ v.hk.entry, v.hk.burn = hkBurn (v.o (hkEntryKey e)) := by
    obtain ⟨e, he, -, hb⟩ := hv
    intro e' he'
    obtain rfl : e = e' := Option.some.inj (he.symm.trans he')
    exact hb
  refine ⟨fun ha he => ⟨hkRangeRestart_still ha fun e hmem => ?_, hkConversionEnd_still ha he⟩,
    hkConversionEnd_follows hkDrive none Hk.exc hexc (fun v hv => hv.2.1) (fun v hv => hv.exc),
    hkDrive_drives, hkDrive_none,
    hkConversionEnd_follows hkBurn 0 Hk.burn hburn (fun v hv => hv.2.2) (fun v hv => hv.burn), rfl,
    fun ha he hc hx hy => ⟨fun h => hkRangeRestart_still ha fun e hmem => ?_, hkRangeRestart_runs ha he, fun hcheck hrep hfirst hlim => ?_,
      fun hcheck hmode hbo hfixed hstate hevt hpend => ?_⟩,
    fun ha h => congrArg Host.Outcome.next ((State.ifAwake_of ha).trans (if_pos h)),
    fun ha hon hup => ⟨fun hbad hk => ?_, fun hlen hall hrecal hslice hconsts hentry => ?_⟩, hkResultRead_runs⟩
  · rw [he] at hmem
    exact absurd hmem (by simp)
  · obtain rfl : m.val = e := Option.some.inj (he.symm.trans hmem)
    rw [hkEntryKey_fin, hkRangeKey_fin]
    rintro ⟨h1, h2, h3⟩
    omega
  · have hserve : s.hkServing (s.hkRange m) = c := by
      rw [s.hkRange_fin m]
      exact hc
    exact hkConversionEnd_repeats ha he (State.hkEnd_repeats hserve hx hy hcheck hrep hfirst hlim)
  · have hserve : s.hkServing (s.hkRange m) = c := by
      rw [s.hkRange_fin m]
      exact hc
    exact hkConversionEnd_plain ha he hserve hx hcheck hmode hbo hfixed hstate hevt hpend
  · refine hkCalDone_runs ha hon hup ?_
    rw [State.hkCalDone_bad hbad hk]
    exact s.hkFailed_fails k
  · refine hkCalDone_runs ha hon hup ?_
    rw [State.hkCalDone_good hlen hall hrecal hslice hentry]
    obtain ⟨htake, hdrop⟩ := hkSparePassed_consts (raw := raw) hconsts
    exact ⟨rfl, htake, hdrop, rfl⟩

end Sys2Proof.Machine
end

section
/-! SUPPORT. Messages that the control server receives, and what it sends unasked (R459 to R462, R469, R470, R482). -/
namespace Sys2Proof.Machine

variable {s t u : State} {b : List Byte} {r : List (List Byte)} {l : List Path} {k : Nat} {q : Req} {e : Event} {es : List Event}

theorem served_of_servedFor (h : s.servedFor q = true) : s.served = true := by
  unfold State.servedFor at h
  exact (Bool.and_eq_true_iff.mp h).1

theorem serverUp_of_servedFor (h : s.servedFor q = true) : s.serverUp = true := by
  have hs := served_of_servedFor h
  unfold State.served at hs
  exact (Bool.and_eq_true_iff.mp (Bool.and_eq_true_iff.mp hs).1).2

theorem ifServed_of (h : s.servedFor q = true) : s.ifServed t = t := if_pos (served_of_servedFor h)

/-- What the supervisor does while it serves. -/
theorem served_runs {c : Instr} {P : State → Prop} (hs : s.servedFor q = true) (hexec : exec c s = .next (s.ifServed t)) (h : P t) :
    Runs c s P := ⟨t, hexec.trans (congrArg _ (ifServed_of hs)), h⟩

theorem served_stays {c : Instr} (hs : s.servedFor q = true) (hexec : exec c s = .next (s.ifServed t)) (h : t = s) : exec c s = .next s :=
  hexec.trans (congrArg _ ((ifServed_of hs).trans h))

/-! ### The message whose turn it is (R461) -/

/-- The oldest message of the north path is taken. -/
def State.tookNorth (s : State) (r : List (List Byte)) (l : List Path) : State :=
  { s with north := { s.north with mailbox := r }, cufel := { s.cufel with order := l } }

theorem State.cufelReceive_north (hup : s.serverUp = true) (hbox : s.north.mailbox = b :: r) (horder : s.cufel.order = .north :: l) :
    s.cufelReceive .north = (s.tookNorth r l).cufelCheck .north 0x3F b := by
  have hnext : s.cufel.comesNext .north = true := by
    unfold Cufel.comesNext
    rw [horder]
    rfl
  have herase : s.cufel.order.erase .north = l := by
    rw [horder]
    exact List.erase_cons_head ..
  unfold State.cufelReceive
  rw [hup, hnext, herase, hbox]
  rfl

theorem State.cufelReceive_north_empty (h : s.north.mailbox = []) : s.cufelReceive .north = s := by
  unfold State.cufelReceive
  split
  · rfl
  · rw [h]

theorem State.cufelReceive_can_empty (h : s.can.inbox = []) : s.cufelReceive .can = s := by
  unfold State.cufelReceive
  split
  · rfl
  · rw [h]

/-- A path whose oldest message is not the first of both paths waits. -/
theorem State.cufelReceive_waits {p o : Path} (h : s.cufel.order.head? = some o) (hne : o ≠ p) : s.cufelReceive p = s := by
  obtain ⟨l, hl⟩ := List.head?_eq_some_iff.mp h
  have hnext : s.cufel.comesNext p = false := by
    unfold Cufel.comesNext
    rw [hl]
    simpa using hne
  unfold State.cufelReceive
  rw [hnext]
  simp

/-! ### The checks (R459, R460) -/

theorem State.cufelCheck_short (h : msgFits b = false) : s.cufelCheck .north 0x3F b = s.bump Obj.CF_RX_BAD := by
  unfold State.cufelCheck
  rw [h]
  rfl

theorem State.cufelCheck_leaf (h : msgFits b = true) (hk : s.leafPort (msgDst b) = some k) :
    s.cufelCheck .north 0x3F b = s.relaySouth k b := by
  unfold State.cufelCheck
  rw [h, if_pos rfl, hk]
  rfl

/-- The message's check unit has run. -/
def State.messageChecked (s : State) (b : List Byte) : State := s.check 35 (b.take (16 + msgLen b))

theorem State.cufelCheck_own (h : msgFits b = true) (hk : s.leafPort (msgDst b) = none) : s.cufelCheck .north 0x3F b =
    if msgCrcOk b = false then (s.messageChecked b).bump Obj.CF_RX_BAD else (s.messageChecked b).cufelAccept .north 0x3F b := by
  unfold State.cufelCheck
  rw [h, if_pos rfl, hk]
  cases msgCrcOk b <;> rfl

theorem State.messageChecked_keeps (s : State) (b : List Byte) : (s.messageChecked b).keepsObjects s [Obj.CHK_RUN 35] ∧
    { s.messageChecked b with obj := s.obj } = s := ⟨s.check_keepsObjects 35 _, rfl⟩

/-- A count of the message, once its check unit has run. -/
theorem State.checked_counts (s : State) (b : List Byte) {j : Nat} (hj : j ≠ Obj.CHK_RUN 35) :
    ((s.messageChecked b).bump j).o j = satAdd 32 (s.o j) 1 ∧ ((s.messageChecked b).bump j).keepsObjects s [j, Obj.CHK_RUN 35] ∧
    { (s.messageChecked b).bump j with obj := s.obj } = s := by
  have hkeep := s.check_keepsObjects 35 (b.take (16 + msgLen b))
  refine ⟨(State.o_bump_self _ _).trans (congrArg (fun v => satAdd 32 v 1) (hkeep j (by simpa using hj))), ?_, rfl⟩
  exact State.keepsObjects_bump (State.keepsObjects_mono hkeep (by simp)) (by simp)

/-- A message that is not for this node or not from a host. -/
def State.misaddressed (s : State) (b : List Byte) : Prop :=
  (parseMsg b).resp = true ∨ ((parseMsg b).dst ≠ s.o Obj.CF_ADDR ∧ (parseMsg b).dst ≠ 0xFFFF) ∨ hostAddr (parseMsg b).src = false

theorem State.cufelAccept_misaddressed (h : s.misaddressed b) : s.cufelAccept .north 0x3F b = s.bump Obj.CF_RX_MISADDR := by
  refine if_pos ?_
  rcases h with h | ⟨h, h'⟩ | h
  · simp [h]
  · simp [h, h']
  · simp [h]

/-- A message for this node from a host. -/
def State.addressed (s : State) (b : List Byte) : Prop :=
  (parseMsg b).resp = false ∧ ((parseMsg b).dst = s.o Obj.CF_ADDR ∨ (parseMsg b).dst = 0xFFFF) ∧ hostAddr (parseMsg b).src = true

theorem addressed_elim (h : s.addressed b) :
    ((parseMsg b).resp || ((parseMsg b).dst != s.o Obj.CF_ADDR && (parseMsg b).dst != 0xFFFF) || !hostAddr (parseMsg b).src) = false := by
  obtain ⟨hresp, hdst, hsrc⟩ := h
  rw [hresp, hsrc]
  rcases hdst with h | h <;> simp [h]

/-- The source's accepted message with the same alive count. -/
def State.repeated (s : State) (b : List Byte) : Option AliveEntry :=
  s.cufel.aliveNorth.find? fun e => e.src == (parseMsg b).src && e.alive == (parseMsg b).alive

theorem State.cufelAccept_repeat {a : AliveEntry} (h : s.addressed b) (ha : s.repeated b = some a) :
    s.cufelAccept .north 0x3F b = s.repeatResponse .north a (parseMsg b).tid := by
  have hcond := addressed_elim h
  have ha' : ((s.cufel.table .north).find? fun e => e.src == (parseMsg b).src && e.alive == (parseMsg b).alive) = some a := ha
  unfold State.cufelAccept
  dsimp only
  rw [hcond, ha']
  rfl

theorem State.cufelAccept_request (h : s.addressed b) (hnew : s.repeated b = none) (hver : msgVer b = 2) (hreq : isRequest (parseMsg b).mtype = true) :
    s.cufelAccept .north 0x3F b =
      (fun v : State => { v.bump Obj.CF_RX_MSGS with
        cufel := { v.cufel with queue := v.cufel.queue ++ [{ path := .north, msg := parseMsg b, addr := v.o Obj.CF_ADDR }] } })
      (s.aliveAccept .north (parseMsg b).src (parseMsg b).alive 0x3F) := by
  have hcond := addressed_elim h
  have hnew' : ((s.cufel.table .north).find? fun e => e.src == (parseMsg b).src && e.alive == (parseMsg b).alive) = none := hnew
  unfold State.cufelAccept
  dsimp only
  rw [hcond, hnew', hreq, hver]
  rfl

/-! ### The alive table (R274, R462) -/

/-- A message that leaves on the north path. -/
theorem State.send_north (s : State) (m : Msg) : (s.send .north m).keepsObjects s [Obj.CHK_ALIVE_TXN] ∧
    (s.send .north m).cufel = { s.cufel with outNorth := s.cufel.outNorth ++ [{ m with alive := s.o Obj.CHK_ALIVE_TXN }] } ∧
    { s.send .north m with obj := s.obj, cufel := s.cufel } = s :=
  ⟨State.keepsObjects_setO (t := s) (k := Obj.CHK_ALIVE_TXN) (State.keepsObjects_refl s _) (by simp) _, rfl, rfl⟩

/-- A response that is kept for its source leaves on the north path. -/
theorem State.keepSend_north (s : State) (m : Msg) : (s.keepSend .north m).keepsObjects s [Obj.CHK_ALIVE_TXN] ∧
    (s.keepSend .north m).cufel.outNorth = s.cufel.outNorth ++ [{ m with alive := s.o Obj.CHK_ALIVE_TXN }] ∧
    (s.keepSend .north m).cufel.queue = s.cufel.queue ∧ (s.keepSend .north m).cufel.order = s.cufel.order ∧
    (s.keepSend .north m).keepsMemories s := by
  obtain ⟨hobj, hcufel, hrest⟩ := State.send_north { s with cufel := (s.cufel.setTable
    ((s.cufel.table .north).map fun e => if e.src = m.dst then { e with kept := some m } else e) .north) } m
  unfold State.keepSend
  dsimp only
  rw [hcufel]
  exact ⟨hobj, rfl, rfl, rfl, (congrArg State.spm hrest :), (congrArg State.rankMem hrest :), (congrArg State.nvm hrest :)⟩

/-- A repeat is counted, and gets the response kept for its source when the TID agrees. -/
theorem State.repeatResponse_repeats (s : State) (a : AliveEntry) (tid : Nat) :
    (s.repeatResponse .north a tid).o Obj.CHK_ALIVE_REP = satAdd 32 (s.o Obj.CHK_ALIVE_REP) 1 ∧
    (s.repeatResponse .north a tid).cufel.queue = s.cufel.queue ∧ (s.repeatResponse .north a tid).cufel.order = s.cufel.order ∧
    (s.repeatResponse .north a tid).keepsMemories s ∧
    (∀ m, a.kept = some m → m.tid = tid → (s.repeatResponse .north a tid).o Obj.CF_RESP_CACHED = satAdd 32 (s.o Obj.CF_RESP_CACHED) 1 ∧
      (s.repeatResponse .north a tid).cufel.outNorth = s.cufel.outNorth ++ [{ m with alive := s.o Obj.CHK_ALIVE_TXN }]) := by
  have hcount : (s.bump Obj.CHK_ALIVE_REP).o Obj.CHK_ALIVE_REP = satAdd 32 (s.o Obj.CHK_ALIVE_REP) 1 := State.o_bump_self _ _
  have hkeep : (s.bump Obj.CHK_ALIVE_REP).keepsObjects s [Obj.CHK_ALIVE_REP] := State.keepsObjects_bump (State.keepsObjects_refl s _) (by simp)
  have hcufel : (s.bump Obj.CHK_ALIVE_REP).cufel = s.cufel := rfl
  have hmem : (s.bump Obj.CHK_ALIVE_REP).keepsMemories s := ⟨rfl, rfl, rfl⟩
  unfold State.repeatResponse
  dsimp only
  generalize s.bump Obj.CHK_ALIVE_REP = v at hcount hkeep hcufel hmem ⊢
  cases hk : a.kept with
  | none =>
    dsimp only
    exact ⟨hcount, congrArg Cufel.queue hcufel, congrArg Cufel.order hcufel, hmem, fun m hm => by simp at hm⟩
  | some m =>
    dsimp only
    split
    · next htid =>
      have hcached : (v.bump Obj.CF_RESP_CACHED).o Obj.CF_RESP_CACHED = satAdd 32 (s.o Obj.CF_RESP_CACHED) 1 :=
        (State.o_bump_self _ _).trans (congrArg (fun x => satAdd 32 x 1) (hkeep _ (by decide)))
      have hcached' : (v.bump Obj.CF_RESP_CACHED).keepsObjects v [Obj.CF_RESP_CACHED] := State.keepsObjects_bump (State.keepsObjects_refl v _) (by simp)
      have hcufel' : (v.bump Obj.CF_RESP_CACHED).cufel = s.cufel := hcufel
      have hmem' : (v.bump Obj.CF_RESP_CACHED).keepsMemories s := hmem
      generalize v.bump Obj.CF_RESP_CACHED = w at hcached hcached' hcufel' hmem' ⊢
      obtain ⟨hobj, hout, hqueue, horder, hsmem⟩ := w.keepSend_north m
      rw [hcufel'] at hout hqueue horder
      refine ⟨(hobj _ (by decide)).trans ((hcached' _ (by decide)).trans hcount), hqueue, horder, State.keepsMemories_trans hsmem hmem', fun m' hm' _ => ?_⟩
      obtain rfl := Option.some.inj hm'
      refine ⟨(hobj _ (by decide)).trans hcached, ?_⟩
      rw [hout, hcached' _ (by decide), hkeep _ (by decide)]
    · next htid =>
      refine ⟨hcount, congrArg Cufel.queue hcufel, congrArg Cufel.order hcufel, hmem, fun m' hm' ht => ?_⟩
      obtain rfl := Option.some.inj hm'
      exact absurd ht htid

/-- The source stands first in the table, with its alive count; a gap is counted. -/
theorem State.aliveAccept_accepts (s : State) (src alive node : Nat) :
    (∃ a ∈ (s.aliveAccept .north src alive node).cufel.aliveNorth, a.src = src ∧ a.alive = alive) ∧
    (s.aliveAccept .north src alive node).keepsObjects s [Obj.CHK_ALIVE_GAP] ∧
    (s.aliveAccept .north src alive node).cufel.queue = s.cufel.queue ∧
    { s.aliveAccept .north src alive node with obj := s.obj, cufel := s.cufel } = s := by
  unfold State.aliveAccept
  dsimp only
  cases (s.cufel.table .north).find? fun e => e.src == src with
  | none => exact ⟨⟨_, List.mem_cons_self, rfl, rfl⟩, fun _ _ => rfl, rfl, rfl⟩
  | some old =>
    dsimp only
    have hgap : (if alive ≠ (old.alive + 1) % 16 then s.bump Obj.CHK_ALIVE_GAP else s).keepsObjects s [Obj.CHK_ALIVE_GAP] :=
      State.keepsObjects_ite (State.keepsObjects_bump (State.keepsObjects_refl s _) (by simp)) (State.keepsObjects_refl s _)
    have hrest : (if alive ≠ (old.alive + 1) % 16 then s.bump Obj.CHK_ALIVE_GAP else s).keepsButObjects s := by
      split
      · exact State.keepsButObjects_bump s.keepsButObjects_refl _
      · exact s.keepsButObjects_refl
    generalize (if alive ≠ (old.alive + 1) % 16 then s.bump Obj.CHK_ALIVE_GAP else s) = v at hgap hrest ⊢
    have hcufel : v.cufel = s.cufel := (congrArg State.cufel hrest :)
    exact ⟨⟨_, List.mem_cons_self, rfl, rfl⟩, hgap, (congrArg Cufel.queue hcufel :),
      (congrArg (fun z : State => { z with cufel := s.cufel }) hrest :)⟩

end Sys2Proof.Machine
end

section
/-! SUPPORT. Each outcome of a receipt, and the events and heartbeats that leave unasked (R459 to R462, R469, R470, R482). -/
namespace Sys2Proof.Machine

variable {s t u : State} {b : List Byte} {r : List (List Byte)} {l : List Path} {q : Req} {e : Event} {es : List Event}

/-! ### The outcomes of a receipt -/

/-- A message of the north path whose turn it is goes through its checks. -/
theorem cufelReceive_runs {P : State → Prop} (hs : s.servedFor q = true) (hbox : s.north.mailbox = b :: r) (horder : s.cufel.order = .north :: l)
    (h : P ((s.tookNorth r l).cufelCheck .north 0x3F b)) : Runs (.cufelReceive .north) s P :=
  served_runs hs (congrArg (fun v => Host.Outcome.next (s.ifServed v)) (State.cufelReceive_north (serverUp_of_servedFor hs) hbox horder)) h

/-- The objects are the ones before the message was taken. -/
theorem State.o_tookNorth (s : State) (r : List (List Byte)) (l : List Path) (k : Nat) : (s.tookNorth r l).o k = s.o k := rfl

theorem receive_short (hs : s.servedFor q = true) (hbox : s.north.mailbox = b :: r) (horder : s.cufel.order = .north :: l) (hfit : msgFits b = false) :
    Runs (.cufelReceive .north) s (fun t => t.o Obj.CF_RX_BAD = satAdd 32 (s.o Obj.CF_RX_BAD) 1 ∧ t.keepsObjects s [Obj.CF_RX_BAD] ∧
      { t with obj := s.obj } = { s with north := { s.north with mailbox := r }, cufel := { s.cufel with order := l } }) := by
  refine cufelReceive_runs hs hbox horder ?_
  rw [State.cufelCheck_short hfit]
  have hkeep : ((s.tookNorth r l).bump Obj.CF_RX_BAD).keepsObjects s [Obj.CF_RX_BAD] := State.keepsObjects_bump (t := s.tookNorth r l) (fun _ _ => rfl) (by simp)
  exact ⟨State.o_bump_self (s.tookNorth r l) _, hkeep, rfl⟩

theorem receive_relayed {k : Fin 8} (hs : s.servedFor q = true) (hbox : s.north.mailbox = b :: r) (horder : s.cufel.order = .north :: l)
    (hfit : msgFits b = true) (hk : s.leafPort (msgDst b) = some k.val) (hup : s.o (Obj.HUB_PSTATE k) = 3) :
    Runs (.cufelReceive .north) s (fun t =>
      t.o Obj.CF_RELAY_SOUTH = (s.o Obj.CF_RELAY_SOUTH + 1) % 2 ^ 32 ∧ t.keepsObjects s [Obj.CF_RELAY_SOUTH] ∧
      t.cufel = { s.cufel with relay := s.cufel.relay.set k (s.cufel.relay.getD k [] ++ [b]), order := l } ∧
      { t with obj := s.obj, cufel := s.cufel } = { s with north := { s.north with mailbox := r } }) := by
  refine cufelReceive_runs hs hbox horder ?_
  have hleaf : (s.tookNorth r l).leafPort (msgDst b) = some k.val := hk
  have hstate : (s.tookNorth r l).o (Obj.HUB_PSTATE k) = 3 := hup
  have hkeep : ((s.tookNorth r l).wrapBy 32 Obj.CF_RELAY_SOUTH 1).keepsObjects s [Obj.CF_RELAY_SOUTH] :=
    State.keepsObjects_setO (t := s.tookNorth r l) (fun _ _ => rfl) (by simp) _
  rw [State.cufelCheck_leaf hfit hleaf]
  unfold State.relaySouth
  rw [if_pos hstate]
  exact ⟨State.o_setO_self (s.tookNorth r l) _ _, hkeep, rfl, rfl⟩

theorem receive_unrelayed {k : Fin 8} (hs : s.servedFor q = true) (hbox : s.north.mailbox = b :: r) (horder : s.cufel.order = .north :: l)
    (hfit : msgFits b = true) (hk : s.leafPort (msgDst b) = some k.val) (hdown : s.o (Obj.HUB_PSTATE k) ≠ 3) :
    Runs (.cufelReceive .north) s (fun t => t.o Obj.CF_RELAY_DROP = satAdd 32 (s.o Obj.CF_RELAY_DROP) 1 ∧ t.keepsObjects s [Obj.CF_RELAY_DROP] ∧
      { t with obj := s.obj } = { s with north := { s.north with mailbox := r }, cufel := { s.cufel with order := l } }) := by
  refine cufelReceive_runs hs hbox horder ?_
  have hleaf : (s.tookNorth r l).leafPort (msgDst b) = some k.val := hk
  have hstate : ¬ (s.tookNorth r l).o (Obj.HUB_PSTATE k) = 3 := hdown
  have hkeep : ((s.tookNorth r l).bump Obj.CF_RELAY_DROP).keepsObjects s [Obj.CF_RELAY_DROP] := State.keepsObjects_bump (t := s.tookNorth r l) (fun _ _ => rfl) (by simp)
  rw [State.cufelCheck_leaf hfit hleaf]
  unfold State.relaySouth
  rw [if_neg hstate]
  exact ⟨State.o_bump_self (s.tookNorth r l) _, hkeep, rfl⟩

/-- A message for this node, once its check unit has run. -/
theorem receive_own {P : State → Prop} (hs : s.servedFor q = true) (hbox : s.north.mailbox = b :: r) (horder : s.cufel.order = .north :: l)
    (hfit : msgFits b = true) (hk : s.leafPort (msgDst b) = none)
    (h : P (if msgCrcOk b = false then ((s.tookNorth r l).messageChecked b).bump Obj.CF_RX_BAD
      else ((s.tookNorth r l).messageChecked b).cufelAccept .north 0x3F b)) : Runs (.cufelReceive .north) s P := by
  have hleaf : (s.tookNorth r l).leafPort (msgDst b) = none := hk
  refine cufelReceive_runs hs hbox horder ?_
  rw [State.cufelCheck_own hfit hleaf]
  exact h

/-- A count is all that the message does. -/
theorem State.tookNorth_counts (s : State) (r : List (List Byte)) (l : List Path) (b : List Byte) {j : Nat} (hj : j ≠ Obj.CHK_RUN 35) :
    (((s.tookNorth r l).messageChecked b).bump j).o j = satAdd 32 (s.o j) 1 ∧
    (((s.tookNorth r l).messageChecked b).bump j).keepsObjects s [j, Obj.CHK_RUN 35] ∧
    { ((s.tookNorth r l).messageChecked b).bump j with obj := s.obj } =
      { s with north := { s.north with mailbox := r }, cufel := { s.cufel with order := l } } := by
  obtain ⟨hcount, hkeep, -⟩ := (s.tookNorth r l).checked_counts b hj
  exact ⟨hcount, hkeep, rfl⟩

theorem State.checked_addr (s : State) (b : List Byte) : (s.messageChecked b).o Obj.CF_ADDR = s.o Obj.CF_ADDR :=
  (s.messageChecked_keeps b).1 _ (by decide)

theorem receive_misaddressed (hs : s.servedFor q = true) (hbox : s.north.mailbox = b :: r) (horder : s.cufel.order = .north :: l)
    (hfit : msgFits b = true) (hk : s.leafPort (msgDst b) = none) (hcrc : msgCrcOk b = true) (h : s.misaddressed b) :
    Runs (.cufelReceive .north) s (fun t =>
      t.o Obj.CF_RX_MISADDR = satAdd 32 (s.o Obj.CF_RX_MISADDR) 1 ∧ t.keepsObjects s [Obj.CF_RX_MISADDR, Obj.CHK_RUN 35] ∧
      { t with obj := s.obj } = { s with north := { s.north with mailbox := r }, cufel := { s.cufel with order := l } }) := by
  have hmis : ((s.tookNorth r l).messageChecked b).misaddressed b := by
    unfold State.misaddressed
    rw [State.checked_addr]
    exact h
  refine receive_own hs hbox horder hfit hk ?_
  rw [if_neg (by simp [hcrc]), State.cufelAccept_misaddressed hmis]
  exact s.tookNorth_counts r l b (by decide)

theorem State.checked_addressed (h : s.addressed b) (r : List (List Byte)) (l : List Path) : ((s.tookNorth r l).messageChecked b).addressed b := by
  unfold State.addressed
  rw [State.checked_addr]
  exact h

/-- The found entry is one of the source's with the same alive count. -/
theorem State.repeated_some (h : ∃ a ∈ s.cufel.aliveNorth, a.src = (parseMsg b).src ∧ a.alive = (parseMsg b).alive) :
    ∃ a, s.repeated b = some a ∧ a ∈ s.cufel.aliveNorth ∧ a.src = (parseMsg b).src := by
  obtain ⟨a, ha, hsrc, halive⟩ := h
  have hsome : (s.repeated b).isSome = true := List.find?_isSome.mpr ⟨a, ha, by simp [hsrc, halive]⟩
  obtain ⟨x, hx⟩ := Option.isSome_iff_exists.mp hsome
  have hp := List.find?_some hx
  simp only [Bool.and_eq_true, beq_iff_eq] at hp
  exact ⟨x, hx, List.mem_of_find?_eq_some hx, hp.1⟩

theorem State.repeated_none (h : ∀ a ∈ s.cufel.aliveNorth, a.src = (parseMsg b).src → a.alive ≠ (parseMsg b).alive) : s.repeated b = none := by
  refine List.find?_eq_none.mpr fun a ha => ?_
  simp only [Bool.and_eq_true, beq_iff_eq, not_and]
  exact h a ha

theorem receive_repeat {kept : Msg} (hs : s.servedFor q = true) (hbox : s.north.mailbox = b :: r) (horder : s.cufel.order = .north :: l)
    (hfit : msgFits b = true) (hk : s.leafPort (msgDst b) = none) (hcrc : msgCrcOk b = true) (haddr : s.addressed b)
    (h : ∃ a ∈ s.cufel.aliveNorth, a.src = (parseMsg b).src ∧ a.alive = (parseMsg b).alive) :
    Runs (.cufelReceive .north) s (fun t => t.o Obj.CHK_ALIVE_REP = satAdd 32 (s.o Obj.CHK_ALIVE_REP) 1 ∧
      t.cufel.queue = s.cufel.queue ∧ t.cufel.order = l ∧ t.keepsMemories s ∧
      ((∀ a ∈ s.cufel.aliveNorth, a.src = (parseMsg b).src → a.kept = some kept) → kept.tid = (parseMsg b).tid →
        t.o Obj.CF_RESP_CACHED = satAdd 32 (s.o Obj.CF_RESP_CACHED) 1 ∧
        t.cufel.outNorth = s.cufel.outNorth ++ [{ kept with alive := s.o Obj.CHK_ALIVE_TXN }])) := by
  obtain ⟨a, ha, hmem, hsrc⟩ := State.repeated_some h
  have haddr' := State.checked_addressed haddr r l
  have hkeep : ((s.tookNorth r l).messageChecked b).keepsObjects s [Obj.CHK_RUN 35] := (State.messageChecked_keeps (s.tookNorth r l) b).1
  have hrep : ((s.tookNorth r l).messageChecked b).repeated b = some a := ha
  have hcufel : ((s.tookNorth r l).messageChecked b).cufel = { s.cufel with order := l } := rfl
  have hmems : ((s.tookNorth r l).messageChecked b).keepsMemories s := ⟨rfl, rfl, rfl⟩
  refine receive_own hs hbox horder hfit hk ?_
  rw [if_neg (by simp [hcrc])]
  generalize (s.tookNorth r l).messageChecked b = v at haddr' hkeep hrep hcufel hmems ⊢
  obtain ⟨hcount, hqueue, ho, hvm, hcached⟩ := v.repeatResponse_repeats a (parseMsg b).tid
  rw [State.cufelAccept_repeat haddr' hrep]
  rw [hcufel] at hqueue ho hcached
  rw [hkeep _ (by decide)] at hcount hcached
  rw [hkeep _ (by decide)] at hcached
  exact ⟨hcount, hqueue, ho, State.keepsMemories_trans hvm hmems, fun hall htid => hcached kept (hall a hmem hsrc) htid⟩

theorem receive_request (hs : s.servedFor q = true) (hbox : s.north.mailbox = b :: r) (horder : s.cufel.order = .north :: l)
    (hfit : msgFits b = true) (hk : s.leafPort (msgDst b) = none) (hcrc : msgCrcOk b = true) (haddr : s.addressed b)
    (h : ∀ a ∈ s.cufel.aliveNorth, a.src = (parseMsg b).src → a.alive ≠ (parseMsg b).alive) (hver : msgVer b = 2)
    (hreq : isRequest (parseMsg b).mtype = true) : Runs (.cufelReceive .north) s (fun t =>
      t.cufel.queue = s.cufel.queue ++ [{ path := .north, msg := parseMsg b, addr := s.o Obj.CF_ADDR }] ∧
      t.o Obj.CF_RX_MSGS = satAdd 32 (s.o Obj.CF_RX_MSGS) 1 ∧
      (∃ a ∈ t.cufel.aliveNorth, a.src = (parseMsg b).src ∧ a.alive = (parseMsg b).alive) ∧
      t.keepsObjects s [Obj.CF_RX_MSGS, Obj.CHK_RUN 35, Obj.CHK_ALIVE_GAP] ∧
      { t with obj := s.obj, cufel := s.cufel } = { s with north := { s.north with mailbox := r } }) := by
  have haddr' := State.checked_addressed haddr r l
  have hkeep : ((s.tookNorth r l).messageChecked b).keepsObjects s [Obj.CHK_RUN 35] := (State.messageChecked_keeps (s.tookNorth r l) b).1
  have hrep : ((s.tookNorth r l).messageChecked b).repeated b = none := State.repeated_none (s := s) h
  have hcufel : ((s.tookNorth r l).messageChecked b).cufel.queue = s.cufel.queue := rfl
  have hrest : ({ (s.tookNorth r l).messageChecked b with obj := s.obj, cufel := s.cufel } : State) = { s with north := { s.north with mailbox := r } } := rfl
  refine receive_own hs hbox horder hfit hk ?_
  rw [if_neg (by simp [hcrc])]
  generalize (s.tookNorth r l).messageChecked b = v at haddr' hkeep hrep hcufel hrest ⊢
  rw [State.cufelAccept_request haddr' hrep hver hreq]
  obtain ⟨hin, hobj, hqueue, hall⟩ := v.aliveAccept_accepts (parseMsg b).src (parseMsg b).alive 0x3F
  generalize v.aliveAccept .north (parseMsg b).src (parseMsg b).alive 0x3F = w at hin hobj hqueue hall ⊢
  have haddrs : w.o Obj.CF_ADDR = s.o Obj.CF_ADDR := (hobj _ (by decide)).trans (hkeep _ (by decide))
  have hcount : (w.bump Obj.CF_RX_MSGS).o Obj.CF_RX_MSGS = satAdd 32 (s.o Obj.CF_RX_MSGS) 1 :=
    (State.o_bump_self _ _).trans (congrArg (fun x => satAdd 32 x 1) ((hobj _ (by decide)).trans (hkeep _ (by decide))))
  have hobjs : (w.bump Obj.CF_RX_MSGS).keepsObjects s [Obj.CF_RX_MSGS, Obj.CHK_RUN 35, Obj.CHK_ALIVE_GAP] :=
    State.keepsObjects_bump (State.keepsObjects_trans (State.keepsObjects_mono hobj (by simp)) (State.keepsObjects_mono hkeep (by simp))) (by simp)
  dsimp only
  rw [haddrs, hqueue, hcufel]
  refine ⟨rfl, hcount, hin, hobjs, ?_⟩
  have hw := congrArg (fun z : State => { z with obj := s.obj, cufel := s.cufel }) hall
  exact Eq.trans hw hrest

/-! ### Events and heartbeats (R469, R470, R480, R482) -/

/-- A HEARTBEAT leaves on the north path. -/
theorem State.beatOut_north (s : State) (body : List Byte) :
    (∃ m ∈ (s.beatOut .north body).cufel.outNorth, m.mtype = 0x11 ∧ m.resp = false ∧ m.dst = s.o Obj.CF_EVT_DEST ∧ m.body = body) ∧
    (s.beatOut .north body).cufel.beat = none ∧ (s.beatOut .north body).keepsObjects s [Obj.CHK_ALIVE_TXN] ∧
    (s.beatOut .north body).cufel.queue = s.cufel.queue ∧ (s.beatOut .north body).cufel.events = s.cufel.events := by
  have hkeep : (s.beatOut .north body).keepsObjects s [Obj.CHK_ALIVE_TXN] :=
    State.keepsObjects_setO (t := ({ s with cufel := { s.cufel with beat := none } } : State).drawn) (k := Obj.CHK_ALIVE_TXN) (fun _ _ => rfl) (by simp) _
  exact ⟨⟨_, List.mem_append_right _ List.mem_cons_self, rfl, rfl, rfl, rfl⟩, rfl, hkeep, rfl, rfl⟩

/-- An EVENT leaves on the north path. -/
theorem State.eventOut_north (s : State) (e : Event) (es : List Event) : (s.eventOut .north e es).cufel.events = es ∧
    (∃ m ∈ (s.eventOut .north e es).cufel.outNorth, m.mtype = 0x10 ∧ m.resp = false ∧ m.tid = e.seq % 256 ∧ m.dst = s.o Obj.CF_EVT_DEST ∧ m.body = e.body) ∧
    (s.eventOut .north e es).keepsObjects s [Obj.CHK_ALIVE_TXN] ∧ (s.eventOut .north e es).cufel.queue = s.cufel.queue := by
  have hkeep : (s.eventOut .north e es).keepsObjects s [Obj.CHK_ALIVE_TXN] :=
    State.keepsObjects_setO (t := { s with cufel := { s.cufel with events := es } }) (k := Obj.CHK_ALIVE_TXN) (fun _ _ => rfl) (by simp) _
  exact ⟨rfl, ⟨_, List.mem_append_right _ List.mem_cons_self, rfl, rfl, rfl, rfl, rfl⟩, hkeep, rfl⟩

theorem State.heartbeatSend_north (hper : s.o Obj.CF_HB_PER ≠ 0) (hpath : s.eventPath = some .north) :
    ∃ v : State, s.heartbeatSend = v.beatOut .north s.heartbeat ∧ v.keepsObjects s [Obj.CHK_ALIVE_TXN] ∧ v.cufel.queue = s.cufel.queue := by
  unfold State.heartbeatSend
  rw [if_neg hper, hpath]
  cases s.cufel.beat with
  | none => exact ⟨s, rfl, State.keepsObjects_refl s _, rfl⟩
  | some b =>
    obtain ⟨-, -, hkeep, hqueue, -⟩ := s.beatOut_north b
    exact ⟨_, rfl, hkeep, hqueue⟩

theorem heartbeatSend_runs (hs : s.servedFor q = true) (hper : s.o Obj.CF_HB_PER ≠ 0) (hpath : s.eventPath = some .north) :
    Runs .heartbeatSend s (fun t =>
      (∃ m ∈ t.cufel.outNorth, m.mtype = 0x11 ∧ m.resp = false ∧ m.dst = s.o Obj.CF_EVT_DEST ∧ m.body = s.heartbeat) ∧
      t.cufel.beat = none ∧ t.keepsObjects s [Obj.CHK_ALIVE_TXN] ∧ t.cufel.queue = s.cufel.queue) := by
  obtain ⟨v, hsend, hkeep, hqueue⟩ := State.heartbeatSend_north hper hpath
  obtain ⟨hout, hbeat, hobj, hq, -⟩ := v.beatOut_north s.heartbeat
  rw [hkeep _ (by decide)] at hout
  exact served_runs hs (congrArg (fun z => Host.Outcome.next (s.ifServed z)) hsend)
    ⟨hout, hbeat, State.keepsObjects_trans hobj hkeep, hq.trans hqueue⟩

theorem State.eventSend_stays (h : (s.cufel.events = [] ∧ s.cufel.beat = none) ∨ (s.eventPath = none ∧ s.o Obj.CAN_STATE ≠ 6)) : s.eventSend = s := by
  unfold State.eventSend
  rcases h with ⟨hev, hbeat⟩ | ⟨hpath, hstate⟩
  · have hnone : s.conflictEvent = none := by
      unfold State.conflictEvent
      rw [hev]
      split <;> rfl
    rw [hbeat, hev, hnone]
    split <;> rfl
  · have hnone : s.conflictEvent = none := if_neg fun hc => hstate hc.1
    rw [hpath, hnone]

theorem State.eventSend_conflict (hpath : s.eventPath = none) (hstate : s.o Obj.CAN_STATE = 6) (hup : s.o Obj.RG_LSTATE = 3)
    (hev : s.cufel.events = e :: es) (hcode : e.code = 0x0601) : s.eventSend = s.eventOut .north e es := by
  have hsome : s.conflictEvent = some e := by
    unfold State.conflictEvent
    rw [if_pos ⟨hstate, by simp [State.northTakes, hup]⟩, hev]
    exact List.find?_cons_of_pos (by simpa using hcode)
  unfold State.eventSend
  rw [hpath, hsome, hev]
  dsimp only
  rw [List.erase_cons_head]

theorem eventSend_runs {P : State → Prop} (hs : s.servedFor q = true) (hsend : s.eventSend = t) (h : P t) : Runs .eventSend s P :=
  served_runs hs (congrArg (fun z => Host.Outcome.next (s.ifServed z)) hsend) h

/-- Settles O34: a message ends at its first failing check or joins the queue, and what waits to leave goes oldest first. -/
theorem receivedMessagesAreDiscardedAnsweredOrQueued : Obligations.ReceivedMessagesAreDiscardedAnsweredOrQueued := by
  unfold Obligations.ReceivedMessagesAreDiscardedAnsweredOrQueued
  intro b r q e es k kept l s hs
  refine ⟨fun h => served_stays hs rfl (State.cufelReceive_north_empty h), fun h => served_stays hs rfl (State.cufelReceive_can_empty h),
    fun h => served_stays hs rfl (State.cufelReceive_waits h (by decide)), fun h => served_stays hs rfl (State.cufelReceive_waits h (by decide)),
    fun hbox horder => ⟨receive_short hs hbox horder, receive_relayed hs hbox horder, receive_unrelayed hs hbox horder,
      fun hfit hk => ⟨fun hcrc => receive_own hs hbox horder hfit hk ?_, fun hcrc h => receive_misaddressed hs hbox horder hfit hk hcrc h,
        fun hcrc hresp hdst hsrc => ⟨fun h => receive_repeat hs hbox horder hfit hk hcrc ⟨hresp, hdst, hsrc⟩ h,
          fun h hver hreq => receive_request hs hbox horder hfit hk hcrc ⟨hresp, hdst, hsrc⟩ h hver hreq⟩⟩⟩,
    fun h => request_runs hs (congrArg (fun z => Host.Outcome.next (s.ifRequest q z)) (if_neg (by simp [h]))) (s.respond_only _ _ _ _),
    fun h => request_runs hs (congrArg (fun z => Host.Outcome.next (s.ifRequest q z)) (if_pos h)) (s.respond_only _ _ _ _),
    fun h => served_stays hs rfl (if_pos h), fun hper hpath => ?_, heartbeatSend_runs hs,
    fun h => served_stays hs rfl (State.eventSend_stays h), fun hpath hbeat => ?_, fun hpath hstate hup hev hcode => ?_,
    fun hev hbeat hpath => ?_⟩
  · rw [if_pos hcrc]
    exact s.tookNorth_counts r l b (by decide)
  · have hsend : s.heartbeatSend = { s with cufel := { s.cufel with beat := some s.heartbeat } } := by
      unfold State.heartbeatSend
      rw [if_neg hper, hpath]
    exact congrArg Host.Outcome.next ((ifServed_of hs).trans hsend)
  · have hsend : s.eventSend = s.beatOut .north b := by
      unfold State.eventSend
      rw [hpath, hbeat]
    obtain ⟨hout, hnone, -, -, hevents⟩ := s.beatOut_north b
    exact eventSend_runs hs hsend ⟨hevents, hnone, hout⟩
  · obtain ⟨hevents, ⟨m, hm, htype, hresp, htid, -, hbody⟩, -, -⟩ := s.eventOut_north e es
    exact eventSend_runs hs (State.eventSend_conflict hpath hstate hup hev hcode) ⟨hevents, m, hm, htype, hresp, htid, hbody⟩
  · have hsend : s.eventSend = s.eventOut .north e es := by
      unfold State.eventSend
      rw [hpath, hbeat, hev]
    exact eventSend_runs hs hsend (s.eventOut_north e es)

end Sys2Proof.Machine
end

section
/-! SUPPORT. Reads and writes of objects, by their form, access, value and class (R464, R465, R489 to R493). -/
namespace Sys2Proof.Machine

variable {s t u : State} {q : Req} {body : List Byte} {d : ObjDesc} {k v : Nat}

/-! ### Reads (R464, R465, R489) -/

theorem read_runs {P : State → Prop} (hs : s.servedFor q = true) (hread : s.readObject q body = t) (h : P t) : Runs (.read q body) s P :=
  request_runs hs (congrArg (fun z => Host.Outcome.next (s.ifRequest q z)) hread) h

/-- A read that names no readable object is answered with its reason. -/
theorem State.readObject_length (h : body.length ≠ 3) :
    s.readObject q body = s.respond q 0x01 .length (keyBytes (bodyKey body) ++ [0]) := if_pos h

theorem State.readObject_absent (h : body.length = 3) (hd : objDesc (bodyKey body) = none) :
    s.readObject q body = s.respond q 0x01 .absentObject (keyBytes (bodyKey body) ++ [0]) := by
  unfold State.readObject
  dsimp only
  rw [if_neg (not_not.mpr h), hd]

theorem State.readObject_domain (h : body.length = 3) (hd : objDesc (bodyKey body) = some d) (ht : d.type = .domain) :
    s.readObject q body = s.respond q 0x01 .typeMismatch (keyBytes (bodyKey body) ++ [0]) := by
  unfold State.readObject
  dsimp only
  rw [if_neg (not_not.mpr h), hd]
  exact if_pos ht

theorem State.readObject_challenge (h : body.length = 3) (hd : objDesc (bodyKey body) = some d) (ht : d.type ≠ .domain)
    (hk : bodyKey body = Obj.CF_CHALLENGE) : s.readObject q body = s.challengeRead q := by
  unfold State.readObject
  dsimp only
  rw [if_neg (not_not.mpr h), hd]
  exact (if_neg ht).trans (if_pos hk)

theorem State.readObject_value (h : body.length = 3) (hd : objDesc (bodyKey body) = some d) (ht : d.type ≠ .domain)
    (hk : bodyKey body ≠ Obj.CF_CHALLENGE) : s.readObject q body =
      (s.afterRead (bodyKey body) d).respond q 0x01 .ok (keyBytes (bodyKey body) ++ bytesLE 1 d.type.tcode ++ s.readBytes (bodyKey body) d) := by
  unfold State.readObject
  dsimp only
  rw [if_neg (not_not.mpr h), hd]
  exact (if_neg ht).trans (if_neg hk)

theorem State.readBytes_writeOnly (ht : d.type ≠ .str) (ha : d.acc = .wo) : s.readBytes k d = bytesLE d.type.bytes 0 := by
  unfold State.readBytes State.view
  rw [if_neg ht, if_pos ha]

/-- An object that the device does not compute reads as its value in force. -/
theorem State.readBytes_stands (ht : d.type ≠ .str) (ha : d.acc ≠ .wo) (hl : s.live k = none) :
    s.readBytes k d = bytesLE d.type.bytes (s.o k % 2 ^ d.type.width) := by
  unfold State.readBytes State.view
  rw [if_neg ht, if_neg ha, hl]

/-- The alive counters that a response counts are not cleared on reading. -/
theorem alive_not_cleared (hd : objDesc k = some d) (ha : d.acc = .rc) : k ≠ Obj.CHK_ALIVE_TXN ∧ k ≠ Obj.CHK_ALIVE_TXC := by
  have hn : ∀ e ∈ objDesc Obj.CHK_ALIVE_TXN, e.acc ≠ .rc := by decide
  have hc : ∀ e ∈ objDesc Obj.CHK_ALIVE_TXC, e.acc ≠ .rc := by decide
  refine ⟨?_, ?_⟩
  · rintro rfl
    exact hn d hd ha
  · rintro rfl
    exact hc d hd ha

theorem State.afterRead_clears (ha : d.acc = .rc) : s.afterRead k d = s.setO k (s.presentLevel k) := if_pos ha

theorem State.afterRead_same (ha : d.acc ≠ .rc) (hn : k ≠ Obj.NT_NOW) (hr : k ≠ Obj.HK_RESULT) : s.afterRead k d = s :=
  (if_neg ha).trans ((if_neg hn).trans (if_neg hr))

theorem State.afterRead_keepsMemories (s : State) (k : Nat) (d : ObjDesc) : (s.afterRead k d).keepsMemories s := by
  unfold State.afterRead
  split
  · exact ⟨rfl, rfl, rfl⟩
  · split
    · exact ⟨rfl, rfl, rfl⟩
    · split <;> exact ⟨rfl, rfl, rfl⟩

/-! ### Writes that are refused (R464, R491, R493) -/

theorem write_runs {P : State → Prop} (hs : s.servedFor q = true) (hwrite : s.writeObject q body = t) (h : P t) :
    Runs (.writeObject q body) s P := request_runs hs (congrArg (fun z => Host.Outcome.next (s.ifRequest q z)) hwrite) h

theorem State.respWrite_refused {st : Status} (hst : st ≠ .ok) (x : Nat) : (s.respWrite q k st x).writeRefused s q k st := by
  have h : s.respWrite q k st x = s.respond q 0x02 st (keyBytes k ++ bytesLE 6 0) := by
    unfold State.respWrite
    rw [if_neg hst]
  rw [h]
  exact s.respond_only q 0x02 st _

/-- A write that is refused with a status. -/
theorem write_refused {st : Status} (hs : s.servedFor q = true) (hst : st ≠ .ok) (h : s.writeObject q body = s.respWrite q (bodyKey body) st 0) :
    Runs (.writeObject q body) s (·.writeRefused s q (bodyKey body) st) := write_runs hs h (State.respWrite_refused hst 0)

theorem State.writeObject_short (h : body.length < 4) : s.writeObject q body = s.respWrite q (bodyKey body) .length 0 := if_pos h

theorem State.writeObject_absent (h : 4 ≤ body.length) (hd : objDesc (bodyKey body) = none) :
    s.writeObject q body = s.respWrite q (bodyKey body) .absentObject 0 := by
  unfold State.writeObject
  dsimp only
  rw [if_neg (Nat.not_lt.mpr h), hd]

/-- The write of an object, judged by its access, its type code and its length. -/
theorem State.writeObject_some (h : 4 ≤ body.length) (hd : objDesc (bodyKey body) = some d) : s.writeObject q body =
    if d.acc ≠ .rw ∧ d.acc ≠ .wo then s.respWrite q (bodyKey body) .readOnly 0
    else if d.type = .domain ∨ (body.getD 3 0).toNat ≠ d.type.tcode then s.respWrite q (bodyKey body) .typeMismatch 0
    else if body.length ≠ 4 + d.type.bytes then s.respWrite q (bodyKey body) .length 0
    else s.writeValue q (bodyKey body) d (fromLE (body.drop 4)) := by
  unfold State.writeObject
  dsimp only
  rw [if_neg (Nat.not_lt.mpr h), hd]

/-- A write of the right form. -/
theorem State.writeObject_value (hd : objDesc (bodyKey body) = some d) (ha : d.acc = .rw ∨ d.acc = .wo) (ht : d.type ≠ .domain)
    (hc : (body.getD 3 0).toNat = d.type.tcode) (hl : body.length = 4 + d.type.bytes) :
    s.writeObject q body = s.writeValue q (bodyKey body) d (fromLE (body.drop 4)) := by
  rw [State.writeObject_some (by omega) hd, if_neg fun h => ha.elim h.1 h.2, if_neg fun h => h.elim ht fun hn => hn hc, if_neg (not_not.mpr hl)]

theorem value_lt (hl : body.length = 4 + d.type.bytes) : fromLE (body.drop 4) < 256 ^ d.type.bytes := by
  have h := fromLE_lt (body.drop 4)
  rw [List.length_drop, hl, Nat.add_sub_cancel_left] at h
  exact h

theorem objDesc_unlock : ∀ e ∈ objDesc Obj.CF_UNLOCK, e.type.bytes = 2 := by decide

theorem objDesc_lock : ∀ e ∈ objDesc Obj.CF_LOCK, e.type.bytes = 1 := by decide

theorem objDesc_gateReq : ∀ e ∈ objDesc Obj.CLK_GATE_REQ, e.type.bytes = 4 := by decide

/-! ### The judgement of a value (R467, R491, R493) -/

theorem State.writeValue_judged (hk : k ∉ [Obj.CF_UNLOCK, Obj.CF_LOCK, Obj.CLK_GATE_REQ]) : s.writeValue q k d v =
    match s.writeCheck q k d v with
    | .ok => (s.acceptWrite k d v).respWrite q k .ok (if d.cls = .shadow then 0 else s.xeff)
    | st => s.respWrite q k st 0 := by
  simp only [List.mem_cons, List.not_mem_nil, or_false, not_or] at hk
  unfold State.writeValue
  rw [if_neg hk.1, if_neg hk.2.1, if_neg hk.2.2] <;> rfl

theorem State.writeValue_refused {st : Status} (hk : k ∉ [Obj.CF_UNLOCK, Obj.CF_LOCK, Obj.CLK_GATE_REQ]) (hc : s.writeCheck q k d v = st)
    (hst : st ≠ .ok) : s.writeValue q k d v = s.respWrite q k st 0 := by
  rw [State.writeValue_judged hk, hc]
  cases st
  case ok => exact absurd rfl hst
  all_goals rfl

theorem State.writeValue_accepted (hk : k ∉ [Obj.CF_UNLOCK, Obj.CF_LOCK, Obj.CLK_GATE_REQ]) (hc : s.writeCheck q k d v = .ok) :
    s.writeValue q k d v = (s.acceptWrite k d v).respond q 0x02 .ok (keyBytes k ++ bytesLE 6 (if d.cls = .shadow then 0 else s.xeff)) := by
  rw [State.writeValue_judged hk, hc]
  rfl

theorem State.writeCheck_level (he : d.expert = true) (hq : s.isExpert q = false) : s.writeCheck q k d v = .expertRequired :=
  if_pos (by simp [he, hq])

theorem State.writeCheck_value (hq : d.expert = false ∨ s.isExpert q = true) (hv : s.valueCheck k d v ≠ .ok) :
    s.writeCheck q k d v = s.valueCheck k d v := by
  unfold State.writeCheck
  rw [if_neg (by rcases hq with h | h <;> simp [h])]
  split
  · next h => exact absurd h hv
  · rfl

theorem State.writeCheck_running (hq : d.expert = false ∨ s.isExpert q = true) (hv : s.valueCheck k d v = .ok) (hc : d.cls = .halt)
    (hr : s.running k = true) : s.writeCheck q k d v = .functionRunning := by
  unfold State.writeCheck
  rw [if_neg (by rcases hq with h | h <;> simp [h]), hv]
  exact if_pos ⟨hc, hr⟩

/-! ### Where an accepted value goes (R491, R492) -/

theorem State.putShadow_puts (s : State) (k v : Nat) : (k, v) ∈ (s.putShadow k v).shadowPend ∧
    (∀ e ∈ s.shadowPend, e.1 ≠ k → e ∈ (s.putShadow k v).shadowPend) ∧ { s.putShadow k v with shadowPend := s.shadowPend } = s ∧
    (s.putShadow k v).obj = s.obj ∧ (s.putShadow k v).cufel = s.cufel := by
  unfold State.putShadow
  split
  · next h =>
    obtain ⟨e, he, hk⟩ := List.any_eq_true.mp h
    have hk' : e.1 = k := by simpa using hk
    refine ⟨List.mem_map.mpr ⟨e, he, if_pos hk'⟩, fun x hx hne => List.mem_map.mpr ⟨x, hx, if_neg hne⟩, rfl, rfl, rfl⟩
  · exact ⟨List.mem_append_right _ List.mem_cons_self, fun e he _ => List.mem_append_left _ he, rfl, rfl, rfl⟩

theorem write_shadow (hs : s.servedFor q = true) (hobj : s.writeObject q body = s.writeValue q k d v)
    (hk : k ∉ [Obj.CF_UNLOCK, Obj.CF_LOCK, Obj.CLK_GATE_REQ]) (hc : s.writeCheck q k d v = .ok) (hd : d.cls = .shadow) :
    Runs (.writeObject q body) s (fun t => (k, v) ∈ t.shadowPend ∧ (∀ e ∈ s.shadowPend, e.1 ≠ k → e ∈ t.shadowPend) ∧
      t.answers q 0x02 .ok (keyBytes k ++ bytesLE 6 0) ∧ t.keepsObjects s [Obj.CHK_ALIVE_TXN, Obj.CHK_ALIVE_TXC] ∧
      { t with obj := s.obj, cufel := s.cufel, shadowPend := s.shadowPend } = s) := by
  have haccept : s.acceptWrite k d v = s.putShadow k v := if_pos hd
  have hwrite := hobj.trans (State.writeValue_accepted hk hc)
  rw [haccept, if_pos hd] at hwrite
  obtain ⟨hnew, hold, hrest, hob, hcufel⟩ := s.putShadow_puts k v
  refine write_runs hs hwrite ?_
  generalize s.putShadow k v = w at hnew hold hrest hob hcufel ⊢
  obtain ⟨hans, hkeep, hresp⟩ := w.respond_only q 0x02 .ok (keyBytes k ++ bytesLE 6 0)
  generalize w.respond q 0x02 .ok (keyBytes k ++ bytesLE 6 0) = x at hans hkeep hresp ⊢
  have hpend : x.shadowPend = w.shadowPend := (congrArg State.shadowPend hresp :)
  rw [hob, hcufel] at hresp
  rw [hpend]
  exact ⟨hnew, hold, hans, State.keepsObjects_trans hkeep fun j _ => congrArg (fun l => sget (objDefault j) l j) hob,
    (congrArg (fun z : State => { z with shadowPend := s.shadowPend }) hresp :).trans hrest⟩

theorem write_waits (hs : s.servedFor q = true) (hobj : s.writeObject q body = s.writeValue q k d v)
    (hk : k ∉ [Obj.CF_UNLOCK, Obj.CF_LOCK, Obj.CLK_GATE_REQ]) (hc : s.writeCheck q k d v = .ok) (hd : d.cls ≠ .shadow)
    (hlane : family 0x4010 25 0x14 k = none) (hnow : k ∉ [Obj.CF_KEY, Obj.FRZ_CTRL]) :
    Runs (.writeObject q body) s (·.writeWaits s q k v) := by
  have haccept : s.acceptWrite k d v = s.pendLive k v := by
    simp only [List.mem_cons, List.not_mem_nil, or_false, not_or] at hnow
    unfold State.acceptWrite
    rw [if_neg hd, hlane]
    exact (if_neg hnow.1).trans (if_neg hnow.2)
  have hwrite := hobj.trans (State.writeValue_accepted hk hc)
  rw [haccept, if_neg hd] at hwrite
  refine write_runs hs hwrite ?_
  obtain ⟨hans, hkeep, hresp⟩ := (s.pendLive k v).respond_only q 0x02 .ok (keyBytes k ++ bytesLE 6 s.xeff)
  have hpended : (s.pendLive k v).livePend = s.livePend ++ [(k, v)] := rfl
  have hobj : (s.pendLive k v).obj = s.obj := rfl
  have hcufel : (s.pendLive k v).cufel = s.cufel := rfl
  have hrest : ({ s.pendLive k v with livePend := s.livePend } : State) = s := rfl
  generalize s.pendLive k v = w at hans hkeep hresp hpended hobj hcufel hrest ⊢
  generalize w.respond q 0x02 .ok (keyBytes k ++ bytesLE 6 s.xeff) = x at hans hkeep hresp ⊢
  have hpend : x.livePend = w.livePend := (congrArg State.livePend hresp :)
  rw [hobj, hcufel] at hresp
  exact ⟨hpend.trans hpended, hans, State.keepsObjects_trans hkeep fun j _ => congrArg (fun l => sget (objDefault j) l j) hobj,
    (congrArg (fun z : State => { z with livePend := s.livePend }) hresp :).trans hrest⟩

theorem State.acceptWrite_key (hd : d.cls ≠ .shadow) : s.acceptWrite Obj.CF_KEY d v = s.setO Obj.CF_KEY v := if_neg hd

theorem State.acceptWrite_freeze (hd : d.cls ≠ .shadow) :
    s.acceptWrite Obj.FRZ_CTRL d v = { s with cufel := { s.cufel with after := some .freeze } } := if_neg hd

/-- A new key is in force at once, and a freeze is asked for at once. -/
theorem write_now (hs : s.servedFor q = true) (hobj : s.writeObject q body = s.writeValue q k d v)
    (hk : k ∈ [Obj.CF_KEY, Obj.FRZ_CTRL]) (hc : s.writeCheck q k d v = .ok) (hd : d.cls ≠ .shadow) :
    Runs (.writeObject q body) s (fun t => t.answers q 0x02 .ok (keyBytes k ++ bytesLE 6 ((s.xc + 1) % 2 ^ 48)) ∧
      (k = Obj.CF_KEY → t.o Obj.CF_KEY = v) ∧ (k = Obj.FRZ_CTRL → t.cufel.after = some .freeze) ∧ t.livePend = s.livePend ∧ t.keepsMemories s) := by
  simp only [List.mem_cons, List.not_mem_nil, or_false] at hk
  have hown : k ∉ [Obj.CF_UNLOCK, Obj.CF_LOCK, Obj.CLK_GATE_REQ] := by rcases hk with rfl | rfl <;> decide
  have hwrite := hobj.trans (State.writeValue_accepted hown hc)
  rw [if_neg hd] at hwrite
  refine write_runs hs hwrite ?_
  refine ⟨State.respond_answers _ _ _ _ _, ?_, ?_, ?_, ?_⟩
  · rintro rfl
    rw [State.acceptWrite_key hd]
    exact (State.o_respond _ q _ _ _ (State.aliveKey (by decide))).trans (State.o_setO_self _ _ _)
  · rintro rfl
    rw [State.acceptWrite_freeze hd, State.after_respond]
  · have hlive : (s.acceptWrite k d v).livePend = s.livePend := by
      rcases hk with rfl | rfl
      · rw [State.acceptWrite_key hd]
        rfl
      · rw [State.acceptWrite_freeze hd]
    rw [State.livePend_respond, hlive]
  · have hmem : (s.acceptWrite k d v).keepsMemories s := by
      rcases hk with rfl | rfl
      · rw [State.acceptWrite_key hd]
        exact ⟨rfl, rfl, rfl⟩
      · rw [State.acceptWrite_freeze hd]
        exact ⟨rfl, rfl, rfl⟩
    exact State.keepsMemories_respond hmem q _ _ _

/-- Settles O36: a read by its object's kind, a write by the first check it fails, or where its class takes it. -/
theorem readsAndWritesOfObjectsAreJudged : Obligations.ReadsAndWritesOfObjectsAreJudged := by
  unfold Obligations.ReadsAndWritesOfObjectsAreJudged
  intro q body d s hs
  refine ⟨fun h => read_runs hs (State.readObject_length h) (s.respond_only _ _ _ _),
    fun h hd => read_runs hs (State.readObject_absent h hd) (s.respond_only _ _ _ _),
    fun h hd => ⟨fun ht => read_runs hs (State.readObject_domain h hd ht) (s.respond_only _ _ _ _), fun ht hk => ?_,
      fun ht hk => congrArg (fun z => Host.Outcome.next (s.ifRequest q z)) (State.readObject_challenge h hd ht hk)⟩,
    fun h => write_refused hs (by decide) (State.writeObject_short h), fun h hd => write_refused hs (by decide) (State.writeObject_absent h hd),
    fun h hd => ⟨fun hrw hwo => ?_, fun ha hbad => ?_, fun ha ht hc => ⟨fun hl => ?_, fun hl => ?_, fun hl hk => ?_⟩⟩⟩
  · refine read_runs hs (State.readObject_value h hd ht hk) ⟨State.respond_answers _ _ _ _ _, State.readBytes_writeOnly,
      State.readBytes_stands, fun ha => ?_, fun ha hn hr => ?_, State.keepsMemories_respond (s.afterRead_keepsMemories _ d) q _ _ _⟩
    · rw [State.afterRead_clears ha]
      exact (State.o_respond _ q _ _ _ (State.aliveKey (alive_not_cleared hd ha))).trans (State.o_setO_self _ _ _)
    · rw [State.afterRead_same ha hn hr]
      obtain ⟨-, hkeep, hrest⟩ := s.respond_only q 0x01 .ok (keyBytes (bodyKey body) ++ bytesLE 1 d.type.tcode ++ s.readBytes (bodyKey body) d)
      exact ⟨hrest, hkeep⟩
  · exact write_refused hs (by decide) ((State.writeObject_some h hd).trans (if_pos ⟨hrw, hwo⟩))
  · exact write_refused hs (by decide) ((State.writeObject_some h hd).trans ((if_neg fun hn => ha.elim hn.1 hn.2).trans (if_pos hbad)))
  · exact write_refused hs (by decide) ((State.writeObject_some h hd).trans ((if_neg fun hn => ha.elim hn.1 hn.2).trans
      ((if_neg fun hn => hn.elim ht fun hm => hm hc).trans (if_pos hl))))
  · have hvalue := State.writeObject_value (s := s) (q := q) hd ha ht hc hl
    have hlt := value_lt hl
    refine ⟨fun hk => ?_, fun hk => ?_, fun hk => ?_⟩
    · have hbytes := objDesc_unlock d (hk ▸ hd)
      rw [hbytes] at hlt
      have hrun : s.writeObject q body = s.unlockWrite q (BitVec.ofNat 16 (fromLE (body.drop 4))).toNat true := by
        rw [hvalue, BitVec.toNat_ofNat, Nat.mod_eq_of_lt (show fromLE (body.drop 4) < 2 ^ 16 from hlt)]
        exact if_pos hk
      exact congrArg (fun z => Host.Outcome.next (s.ifRequest q z)) hrun
    · have hbytes := objDesc_lock d (hk ▸ hd)
      rw [hbytes] at hlt
      have hrun : s.writeObject q body = s.lockWrite q (BitVec.ofNat 8 (fromLE (body.drop 4))).toNat := by
        rw [hvalue, BitVec.toNat_ofNat, Nat.mod_eq_of_lt (show fromLE (body.drop 4) < 2 ^ 8 from hlt)]
        exact (if_neg (by rw [hk]; decide)).trans (if_pos hk)
      exact congrArg (fun z => Host.Outcome.next (s.ifRequest q z)) hrun
    · have hbytes := objDesc_gateReq d (hk ▸ hd)
      rw [hbytes] at hlt
      have hrun : s.writeObject q body = s.gateWrite q (BitVec.ofNat 32 (fromLE (body.drop 4))).toNat := by
        rw [hvalue, BitVec.toNat_ofNat, Nat.mod_eq_of_lt (show fromLE (body.drop 4) < 2 ^ 32 from hlt)]
        exact (if_neg (by rw [hk]; decide)).trans ((if_neg (by rw [hk]; decide)).trans (if_pos hk))
      exact congrArg (fun z => Host.Outcome.next (s.ifRequest q z)) hrun
  · have hvalue := State.writeObject_value (s := s) (q := q) hd ha ht hc hl
    refine ⟨fun he hq => write_refused hs (by decide) (hvalue.trans (State.writeValue_refused hk (State.writeCheck_level he hq) (by decide))),
      fun hq => ⟨fun hv => write_refused hs hv (hvalue.trans (State.writeValue_refused hk (State.writeCheck_value hq hv) hv)),
        fun hv hcls hr => write_refused hs (by decide) (hvalue.trans (State.writeValue_refused hk (State.writeCheck_running hq hv hcls hr) (by decide))),
        fun hok => ⟨write_shadow hs hvalue hk hok, write_waits hs hvalue hk hok, fun hcls hnow => write_now hs hvalue hnow hok hcls⟩⟩⟩

end Sys2Proof.Machine
end

section
/-! SUPPORT. The ends of a store: the words it writes, the bank it puts in force, its failures and a cut (R504 to R506). -/
namespace Sys2Proof.Machine

variable {s t r : State} {q : Req} {u : List Upset} {e : StoreEnd} {img : List Byte}

/-! ### What a store may change -/

/-- Nothing but objects, the NVM and its bookkeeping, the staged log entries and the choices of open values differs from s. -/
def State.StoreFrame (t s : State) : Prop :=
  { t with obj := s.obj, nvm := s.nvm, nv := s.nv, log := s.log, free := s.free } = s

theorem State.StoreFrame.trans (h : r.StoreFrame t) (h' : t.StoreFrame s) : r.StoreFrame s :=
  (congrArg (fun z : State => { z with obj := s.obj, nvm := s.nvm, nv := s.nv, log := s.log, free := s.free }) h :).trans h'

theorem State.stage_storeFrame (s : State) (code cls unit : Nat) (d : List Byte) : (s.stage code cls unit d).StoreFrame s := by
  unfold State.stage
  split <;> rfl

theorem State.lifeOnly_storeFrame (s : State) (code unit : Nat) (d : List Byte) : (s.lifeOnly code unit d).StoreFrame s := rfl

theorem State.StoreFrame.of_objects (h : t.keepsButObjects s) : t.StoreFrame s := by
  unfold State.keepsButObjects at h
  unfold State.StoreFrame
  rw [← h]

/-- The objects that a committed store may change. -/
def storeKeys : List Nat :=
  [Obj.NV_BANK, Obj.NV_GEN, Obj.NV_IMG_STEP, Obj.NV_IMG_DICT, Obj.NV_IMG_BYTES, Obj.NV_STORES_A, Obj.NV_STORES_B, Obj.NV_REFRESHES,
    Obj.NV_LAST_RESULT, Obj.FLT_LIFE_NEXT, Obj.FLT_LIFE_WRITES, Obj.FLT_LOG_LOST]

/-- The objects that a lifetime record or a staged event of a store may change. -/
def storeRecordKeys : List Nat := [Obj.FLT_LIFE_NEXT, Obj.FLT_LIFE_WRITES, Obj.FLT_LOG_LOST]

/-- The objects of the bank in force. -/
def bankKeys : List Nat := [Obj.NV_BANK, Obj.NV_GEN, Obj.NV_IMG_STEP, Obj.NV_IMG_DICT, Obj.NV_IMG_BYTES]

theorem storesKey_mem (bank : Nat) : storesKey bank ∈ [Obj.NV_STORES_A, Obj.NV_STORES_B] := by
  unfold storesKey
  split <;> decide

/-! ### The records of a store (R506, R558) -/

theorem State.lifeOnly_keepsObjects (s : State) (code unit : Nat) (d : List Byte) :
    (s.lifeOnly code unit d).keepsObjects s [Obj.FLT_LIFE_NEXT, Obj.FLT_LIFE_WRITES] := fun k hk =>
  (s.drawn.lifeWrite_keepsObjects code 1 unit _ _ d k hk).trans rfl

/-- A state that a store's records lead to: either one, both or none of them. -/
theorem State.storeRecords_leaves (s : State) (bank gen : Nat) :
    (s.storeRecords bank gen).keepsObjects s storeRecordKeys ∧ (s.storeRecords bank gen).StoreFrame s := by
  have hlife : ∀ c : Prop, [Decidable c] → ∀ d : List Byte,
      (if c then s.lifeOnly 0x0309 bank d else s).keepsObjects s storeRecordKeys ∧ (if c then s.lifeOnly 0x0309 bank d else s).StoreFrame s := by
    intro c _ d
    split
    · exact ⟨State.keepsObjects_mono (s.lifeOnly_keepsObjects _ _ _) (by decide), s.lifeOnly_storeFrame _ _ _⟩
    · exact ⟨State.keepsObjects_refl s _, rfl⟩
  obtain ⟨hobj, hframe⟩ := hlife (s.o (storesKey bank) % 64 = 0 ∨ s.o (storesKey bank) = 90000) (bytesLE 4 gen)
  unfold State.storeRecords
  extract_lets n t
  split
  · exact ⟨State.keepsObjects_trans (State.keepsObjects_mono (t.stage_keepsObjects _ _ _ _) (by decide)) hobj,
      (t.stage_storeFrame _ _ _ _).trans hframe⟩
  · exact ⟨hobj, hframe⟩

/-- Words put into the NVM leave the bytes outside them. -/
theorem memGet_nvPuts (a : Nat) : ∀ (l : List (Nat × Nat × Nat)) (m : Memory), (∀ w ∈ l, a < w.1 ∨ w.1 + w.2.1 ≤ a) →
    memGet (nvPuts l m).1 a = memGet m a
  | [], _, _ => rfl
  | w :: l, m, h => by
    have hrest := memGet_nvPuts a l (memPutWord m w.1 w.2.1 w.2.2) fun x hx => h x (List.mem_cons_of_mem _ hx)
    have hw := h w List.mem_cons_self
    exact hrest.trans (memGet_memWrite_outside _ _ _ _ (by rw [length_bytesLE]; exact hw))

/-- The lifetime log lies above 0x14000 (R558). -/
theorem lifeWords_above {n : Nat} {b : List Byte} {w : Nat × Nat × Nat} (h : w ∈ lifeWords (lifeAddr n) b) : 0x14000 ≤ w.1 := by
  rcases List.mem_cons.mp h with rfl | h
  · simp only [lifeAddr]
    omega
  · obtain ⟨i, -, rfl⟩ := List.mem_map.mp h
    simp only [lifeAddr]
    omega

theorem State.nvm_lifeOnly (s : State) (code unit : Nat) (d : List Byte) {a : Nat} (ha : a < 0x14000) :
    memGet (s.lifeOnly code unit d).nvm a = memGet s.nvm a :=
  memGet_nvPuts a _ s.nvm fun _ hw => Or.inl (lt_of_lt_of_le ha (lifeWords_above hw))

theorem State.nvm_storeRecords (s : State) (bank gen : Nat) {a : Nat} (ha : a < 0x14000) :
    memGet (s.storeRecords bank gen).nvm a = memGet s.nvm a := by
  have hlife : ∀ c : Prop, [Decidable c] → ∀ d : List Byte,
      memGet (if c then s.lifeOnly 0x0309 bank d else s).nvm a = memGet s.nvm a := by
    intro c _ d
    split
    · exact s.nvm_lifeOnly _ _ _ ha
    · rfl
  have hdone := hlife (s.o (storesKey bank) % 64 = 0 ∨ s.o (storesKey bank) = 90000) (bytesLE 4 gen)
  unfold State.storeRecords
  extract_lets n t
  split
  · rw [State.nvm_stage]
    exact hdone
  · exact hdone

/-! ### A committed store -/

/-- The objects of a bank in force and the count of the store, before its records. -/
def State.storeCounted (s : State) (bank gen : Nat) (image : List Byte) (refresh : Bool) : State :=
  let s := (s.bankInForce bank gen image).bump (storesKey bank)
  let s := if refresh then s.bump Obj.NV_REFRESHES else s
  s.setO Obj.NV_LAST_RESULT 1

theorem State.storeDone_eq (s : State) (bank gen : Nat) (refresh : Bool) : s.storeDone bank gen img refresh =
    { (s.storeCounted bank gen img refresh).storeRecords bank gen with
      nv := { ((s.storeCounted bank gen img refresh).storeRecords bank gen).nv with
        since := ((s.storeCounted bank gen img refresh).storeRecords bank gen).o Obj.FLT_LIFE_HOURS } } := rfl

theorem State.storeCounted_frame (s : State) (bank gen : Nat) (refresh : Bool) :
    (s.storeCounted bank gen img refresh).keepsButObjects s := by
  have hbank := State.keepsButObjects_setO (State.keepsButObjects_setO s.keepsButObjects_refl Obj.NV_BANK bank) Obj.NV_GEN gen
  have himage := State.keepsButObjects_setO (State.keepsButObjects_setO hbank Obj.NV_IMG_STEP (imageField img 47 40))
    Obj.NV_IMG_DICT (imageField img 63 48)
  have hcount : ((s.bankInForce bank gen img).bump (storesKey bank)).keepsButObjects s :=
    State.keepsButObjects_bump (State.keepsButObjects_setO himage Obj.NV_IMG_BYTES (32 + imageField img 95 80)) _
  unfold State.storeCounted
  cases refresh
  · exact State.keepsButObjects_setO hcount _ _
  · exact State.keepsButObjects_setO (State.keepsButObjects_bump hcount _) _ _

theorem State.bankInForce_keepsObjects (s : State) (bank gen : Nat) : (s.bankInForce bank gen img).keepsObjects s bankKeys := by
  have hbank := State.keepsObjects_setO (State.keepsObjects_refl s bankKeys) (k := Obj.NV_BANK) (by decide) bank
  have hgen := State.keepsObjects_setO hbank (k := Obj.NV_GEN) (by decide) gen
  have hstep := State.keepsObjects_setO hgen (k := Obj.NV_IMG_STEP) (by decide) (imageField img 47 40)
  have hdict := State.keepsObjects_setO hstep (k := Obj.NV_IMG_DICT) (by decide) (imageField img 63 48)
  exact State.keepsObjects_setO hdict (k := Obj.NV_IMG_BYTES) (by decide) (32 + imageField img 95 80)

theorem State.o_bankInForce (s : State) (bank gen : Nat) :
    (s.bankInForce bank gen img).o Obj.NV_BANK = bank ∧ (s.bankInForce bank gen img).o Obj.NV_GEN = gen := by
  constructor
  · simp only [State.bankInForce, State.o_setO_ne _ _ (show Obj.NV_BANK ≠ Obj.NV_IMG_BYTES by decide),
      State.o_setO_ne _ _ (show Obj.NV_BANK ≠ Obj.NV_IMG_DICT by decide),
      State.o_setO_ne _ _ (show Obj.NV_BANK ≠ Obj.NV_IMG_STEP by decide),
      State.o_setO_ne _ _ (show Obj.NV_BANK ≠ Obj.NV_GEN by decide), State.o_setO_self]
  · simp only [State.bankInForce, State.o_setO_ne _ _ (show Obj.NV_GEN ≠ Obj.NV_IMG_BYTES by decide),
      State.o_setO_ne _ _ (show Obj.NV_GEN ≠ Obj.NV_IMG_DICT by decide),
      State.o_setO_ne _ _ (show Obj.NV_GEN ≠ Obj.NV_IMG_STEP by decide), State.o_setO_self]

/-- The counters leave what is none of them. -/
theorem State.o_storeCounted_ne (s : State) (bank gen : Nat) (refresh : Bool) {k : Nat}
    (hk : k ∉ [Obj.NV_STORES_A, Obj.NV_STORES_B, Obj.NV_REFRESHES, Obj.NV_LAST_RESULT]) :
    (s.storeCounted bank gen img refresh).o k = (s.bankInForce bank gen img).o k := by
  have hstores : k ≠ storesKey bank := fun h => hk (h ▸ List.mem_append_left [Obj.NV_REFRESHES, Obj.NV_LAST_RESULT] (storesKey_mem bank))
  have hbump : ((s.bankInForce bank gen img).bump (storesKey bank)).o k = (s.bankInForce bank gen img).o k := State.o_bump_ne _ hstores
  have hrefresh : k ≠ Obj.NV_REFRESHES := fun h => hk (by simp [h])
  have hresult : k ≠ Obj.NV_LAST_RESULT := fun h => hk (by simp [h])
  unfold State.storeCounted
  cases refresh
  · exact (State.o_setO_ne _ _ hresult).trans hbump
  · exact (State.o_setO_ne _ _ hresult).trans ((State.o_bump_ne _ hrefresh).trans hbump)

theorem State.o_storeCounted_stores (s : State) (bank gen : Nat) (refresh : Bool) :
    (s.storeCounted bank gen img refresh).o (storesKey bank) = satAdd 32 (s.o (storesKey bank)) 1 := by
  have hne : ∀ k ∈ [Obj.NV_STORES_A, Obj.NV_STORES_B], k ∉ bankKeys ∧ k ≠ Obj.NV_REFRESHES ∧ k ≠ Obj.NV_LAST_RESULT := by
    decide
  obtain ⟨hkept, hrefresh, hresult⟩ := hne _ (storesKey_mem bank)
  have hbump : ((s.bankInForce bank gen img).bump (storesKey bank)).o (storesKey bank) = satAdd 32 (s.o (storesKey bank)) 1 := by
    rw [State.o_bump_self, s.bankInForce_keepsObjects bank gen _ hkept]
  unfold State.storeCounted
  cases refresh
  · exact (State.o_setO_ne _ _ hresult).trans hbump
  · exact (State.o_setO_ne _ _ hresult).trans ((State.o_bump_ne _ hrefresh).trans hbump)

/-- The records of the store leave what is none of theirs. -/
theorem State.o_storeDone_counted (s : State) (bank gen : Nat) (refresh : Bool) {k : Nat} (hk : k ∉ storeRecordKeys) :
    (s.storeDone bank gen img refresh).o k = (s.storeCounted bank gen img refresh).o k := by
  rw [State.storeDone_eq]
  exact ((s.storeCounted bank gen img refresh).storeRecords_leaves bank gen).1 k hk

/-- A store that has committed puts the bank with its generation in force, counts, and shows result 1 (R504). -/
theorem State.o_storeDone (s : State) (bank gen : Nat) (refresh : Bool) :
    (s.storeDone bank gen img refresh).o Obj.NV_BANK = bank ∧ (s.storeDone bank gen img refresh).o Obj.NV_GEN = gen ∧
    (s.storeDone bank gen img refresh).o Obj.NV_LAST_RESULT = 1 ∧
    (s.storeDone bank gen img refresh).o (storesKey bank) = satAdd 32 (s.o (storesKey bank)) 1 := by
  have hstores : ∀ k ∈ [Obj.NV_STORES_A, Obj.NV_STORES_B], k ∉ storeRecordKeys := by decide
  obtain ⟨hbank, hgen⟩ := s.o_bankInForce (img := img) bank gen
  exact ⟨(s.o_storeDone_counted bank gen refresh (by decide)).trans ((s.o_storeCounted_ne bank gen refresh (by decide)).trans hbank),
    (s.o_storeDone_counted bank gen refresh (by decide)).trans ((s.o_storeCounted_ne bank gen refresh (by decide)).trans hgen),
    (s.o_storeDone_counted bank gen refresh (by decide)).trans (State.o_setO_self _ _ _),
    (s.o_storeDone_counted bank gen refresh (hstores _ (storesKey_mem bank))).trans (s.o_storeCounted_stores bank gen refresh)⟩

theorem State.storeCounted_refreshes (s : State) (bank gen : Nat) :
    (s.storeCounted bank gen img true).o Obj.NV_REFRESHES = satAdd 32 (s.o Obj.NV_REFRESHES) 1 := by
  have hstores : ∀ k ∈ [Obj.NV_STORES_A, Obj.NV_STORES_B], Obj.NV_REFRESHES ≠ k := by decide
  have hkept : ((s.bankInForce bank gen img).bump (storesKey bank)).o Obj.NV_REFRESHES = s.o Obj.NV_REFRESHES :=
    (State.o_bump_ne _ (hstores _ (storesKey_mem bank))).trans (s.bankInForce_keepsObjects bank gen _ (by decide))
  unfold State.storeCounted
  refine (State.o_setO_ne _ _ (by decide)).trans ((State.o_bump_self _ _).trans ?_)
  rw [hkept]

theorem State.storeDone_refreshes (s : State) (bank gen : Nat) :
    (s.storeDone bank gen img true).o Obj.NV_REFRESHES = satAdd 32 (s.o Obj.NV_REFRESHES) 1 :=
  (s.o_storeDone_counted bank gen true (by decide)).trans (s.storeCounted_refreshes bank gen)

/-- A bank counts as in force from the powered hours at its store (R511). -/
theorem State.storeDone_since (s : State) (bank gen : Nat) (refresh : Bool) :
    (s.storeDone bank gen img refresh).nv.since = s.o Obj.FLT_LIFE_HOURS := by
  rw [State.storeDone_eq]
  exact (((s.storeCounted bank gen img refresh).storeRecords_leaves bank gen).1 _ (by decide)).trans
    ((s.o_storeCounted_ne bank gen refresh (by decide)).trans (s.bankInForce_keepsObjects bank gen _ (by decide)))

theorem State.storeDone_storeFrame (s : State) (bank gen : Nat) (refresh : Bool) :
    (s.storeDone bank gen img refresh).StoreFrame s := by
  have hrecords := ((s.storeCounted bank gen img refresh).storeRecords_leaves bank gen).2
  exact State.StoreFrame.trans hrecords (.of_objects (s.storeCounted_frame bank gen refresh))

theorem State.nvm_storeDone (s : State) (bank gen : Nat) (refresh : Bool) {a : Nat} (ha : a < 0x14000) :
    memGet (s.storeDone bank gen img refresh).nvm a = memGet s.nvm a := by
  have hcounted : (s.storeCounted bank gen img refresh).nvm = s.nvm :=
    (congrArg State.nvm (s.storeCounted_frame (img := img) bank gen refresh) :)
  rw [State.storeDone_eq]
  exact ((s.storeCounted bank gen img refresh).nvm_storeRecords bank gen ha).trans (congrArg (memGet · a) hcounted)

end Sys2Proof.Machine
end

section
/-! SUPPORT. The image of the stored set fits its bank (R501 to R503). -/
namespace Sys2Proof.Machine

variable {s : State} {d : ObjDesc} {k : Nat} {p : ObjDesc → Bool}

/-! ### Records -/

theorem length_padTo (n : Nat) (hn : 0 < n) (l : List Byte) : (padTo n l).length = ceilDiv l.length n * n := by
  have hceil : l.length ≤ ceilDiv l.length n * n := by
    unfold ceilDiv
    have hdiv := Nat.div_add_mod (l.length + n - 1) n
    have hmod := Nat.mod_lt (l.length + n - 1) hn
    rw [Nat.mul_comm]
    omega
  simp only [padTo, List.length_append, List.length_replicate]
  omega

/-- No type of an object takes more than 16 bytes (R16). -/
theorem OType.bytes_le : ∀ t : OType, t.bytes ≤ 16
  | .bool | .u8 | .u16 | .u32 | .u48 | .u64 | .i16 | .i32 | .q16 | .q32 | .bits128 | .str | .domain => by decide

theorem length_recordBytes_le (k : Nat) (d : ObjDesc) (v : Nat) : (recordBytes k d v).length ≤ 20 := by
  have hbytes := OType.bytes_le d.type
  have hlen : (keyBytes k ++ bytesLE 1 d.type.tcode ++ bytesLE d.type.bytes v).length = 4 + d.type.bytes := by
    simp only [keyBytes, List.length_append, length_bytesLE]
  rw [recordBytes, length_padTo 4 (by decide), hlen]
  unfold ceilDiv
  omega

/-- The record of an object of the stored set. -/
def State.storedRecord (s : State) (k : Nat) : List Byte :=
  match objDesc k with
  | some d => recordBytes k d (s.storeValue k)
  | none => []

theorem State.storedRecords_eq (s : State) : s.storedRecords = padTo 8 (storedKeys.flatMap s.storedRecord) := rfl

theorem State.length_storedRecord_le (s : State) (k : Nat) : (s.storedRecord k).length ≤ 20 := by
  unfold State.storedRecord
  cases objDesc k with
  | none => exact Nat.zero_le _
  | some d => exact length_recordBytes_le k d _

/-! ### The number of keys -/

theorem objPage_offset (g : Nat) {i : Nat} (hi : i < 256) : objPage (g * 256 + i) = objPage (g * 256) := by
  unfold objPage
  rw [show (g * 256 + i) / 256 = g * 256 / 256 by omega]

/-- The keys that a table line has at an index. -/
def lineKeys (p : ObjDesc → Bool) (i : Nat) (d : ObjDesc) : Nat :=
  if p d = true ∧ d.index ≤ i ∧ i < d.index + d.count then d.subs else 0

/-- The keys of a table line at all its indexes. -/
def lineTotal (p : ObjDesc → Bool) (d : ObjDesc) : Nat := if p d then d.count * d.subs else 0

theorem length_indexKeys (p : ObjDesc → Bool) (i : Nat) : (indexKeys p i).length = ((objPage i).map (lineKeys p i)).sum := by
  unfold indexKeys
  generalize objPage i = l
  induction l with
  | nil => rfl
  | cons d l ih =>
    simp only [List.map_cons, List.sum_cons, List.filter_cons, lineKeys, ← ih]
    by_cases hd : p d = true ∧ d.index ≤ i ∧ i < d.index + d.count
    · simp [hd]
    · have hno : (p d && decide (d.index ≤ i) && decide (i < d.index + d.count)) = false := by
        simpa [Bool.and_eq_false_iff, imp_iff_not_or, or_assoc] using hd
      simp [hno, if_neg hd]

/-- A line covers no more indexes of a page than it has. -/
theorem sum_lineKeys_le (p : ObjDesc → Bool) (g : Nat) (d : ObjDesc) :
    ((List.range 256).map fun i => lineKeys p (g * 256 + i) d).sum ≤ lineTotal p d := by
  have hsum : ((List.range 256).map fun i => lineKeys p (g * 256 + i) d).sum = ∑ i ∈ Finset.range 256, lineKeys p (g * 256 + i) d :=
    rfl
  rw [hsum]
  unfold lineKeys lineTotal
  by_cases hp : p d = true
  · rw [if_pos hp, ← Finset.sum_filter, Finset.sum_const, smul_eq_mul]
    refine Nat.mul_le_mul_right _ ?_
    have hcard : (Finset.Ico d.index (d.index + d.count)).card = d.count := (Nat.card_Ico _ _).trans (Nat.add_sub_cancel_left _ _)
    refine (Finset.card_le_card_of_injOn (fun i => g * 256 + i) (fun i hi => ?_)
      fun i _ j _ hij => Nat.add_left_cancel hij).trans (le_of_eq hcard)
    obtain ⟨-, -, hlow, hhigh⟩ := Finset.mem_filter.mp hi
    exact Finset.mem_coe.mpr (Finset.mem_Ico.mpr ⟨hlow, hhigh⟩)
  · simp [hp]

theorem sum_map_swap (l : List ObjDesc) (f : Nat → ObjDesc → Nat) (r : List Nat) :
    (r.map fun i => (l.map (f i)).sum).sum = (l.map fun d => (r.map fun i => f i d).sum).sum := by
  induction l with
  | nil => simp
  | cons d l ih => simp only [List.map_cons, List.sum_cons, List.sum_map_add, ih]

/-- A page has no more keys than its lines. -/
theorem length_pageKeys_le (p : ObjDesc → Bool) (g : Nat) :
    ((List.range 256).flatMap fun i => indexKeys p (g * 256 + i)).length ≤ ((objPage (g * 256)).map (lineTotal p)).sum := by
  have hpage : ((List.range 256).map fun i => (indexKeys p (g * 256 + i)).length) =
      (List.range 256).map fun i => ((objPage (g * 256)).map (lineKeys p (g * 256 + i))).sum :=
    List.map_congr_left fun i hi => by rw [length_indexKeys, objPage_offset g (List.mem_range.mp hi)]
  rw [List.length_flatMap, hpage, sum_map_swap]
  exact List.sum_le_sum fun d _ => sum_lineKeys_le p g d

/-- The pages of the object dictionary. -/
def objPages : List Nat :=
  [0x10, 0x11, 0x1F, 0x20, 0x21, 0x22, 0x28, 0x29, 0x30, 0x31, 0x34, 0x38, 0x40, 0x44, 0x50, 0x51, 0x54, 0x60, 0x70, 0x78]

/-- The stored set has at most 1361 objects. -/
theorem length_storedKeys_le : storedKeys.length ≤ 1361 := by
  have htotal : (objPages.map fun g => ((objPage (g * 256)).map (lineTotal fun d => d.stored)).sum).sum ≤ 1361 := by decide +kernel
  have hkeys : (keysWhere fun d => d.stored).length ≤
      (objPages.map fun g => ((objPage (g * 256)).map (lineTotal fun d => d.stored)).sum).sum := by
    unfold keysWhere
    rw [List.length_flatMap]
    exact List.sum_le_sum fun g _ => length_pageKeys_le _ g
  exact (List.length_filter_le _ _).trans (hkeys.trans htotal)

/-! ### The image -/

theorem State.length_flatMap_storedRecord_le (s : State) (l : List Nat) : (l.flatMap s.storedRecord).length ≤ l.length * 20 := by
  rw [List.length_flatMap]
  calc (l.map fun k => (s.storedRecord k).length).sum
      ≤ (l.map fun _ => 20).sum := List.sum_le_sum fun k _ => s.length_storedRecord_le k
    _ = l.length * 20 := by simp

/-- The records of the stored set take at most 27,224 bytes. -/
theorem State.length_storedRecords_le (s : State) : s.storedRecords.length ≤ 27224 := by
  have hkeys := length_storedKeys_le
  rw [State.storedRecords_eq, length_padTo 8 (by decide)]
  generalize storedKeys = l at hkeys ⊢
  have hlen := s.length_flatMap_storedRecord_le l
  unfold ceilDiv
  omega

theorem length_ownImage (cause n : Nat) (l : List Byte) : (ownImage cause n l).length = 32 + l.length := by
  simp only [ownImage, bankHeader, List.length_append, length_bytesLE]

/-- The image of a store fits its bank. -/
theorem State.length_storeImage_le (s : State) (cause n : Nat) : (ownImage cause n s.storedRecords).length ≤ 0x8000 := by
  have hrecords := s.length_storedRecords_le
  rw [length_ownImage]
  omega

end Sys2Proof.Machine
end

section
/-! SUPPORT. A store with its answer: committed, failed, halted at an uncorrectable word, cut off (R385, R504, R505, R550). -/
namespace Sys2Proof.Machine

variable {s t r : State} {q : Req} {u : List Upset} {e : StoreEnd} {img : List Byte}

/-! ### The staged image -/

/-- The image lies in the NVM staging and check unit 36 has run over it. -/
def State.staged (s : State) (img : List Byte) : State := (s.stageImage img).check 36 img

/-- The NVM replaced. -/
def State.withNvm (s : State) (m : Memory) : State := { s with nvm := m }

theorem State.o_staged (s : State) (img : List Byte) {k : Nat} (hk : k / 256 ≠ 0x3830) : (s.staged img).o k = s.o k :=
  (s.stageImage img).o_check_ne img (by decide) hk

theorem State.stageImage_spm (s : State) (img : List Byte) : (s.stageImage img).keepsSpmOutside s 0x5BC000 0x5C4000 := by
  intro a ha
  refine memGet_memWrite_outside s.spm 0x5BC000 (img.take 0x8000) a ?_
  have hlen := List.length_take_le 0x8000 img
  omega

/-- What a store leaves of the state besides its own objects and memories: the scratchpad outside the staging, the ranks, the
service's state and what waits. -/
structure State.StoreLeaves (t s : State) : Prop where
  spm : t.keepsSpmOutside s 0x5BC000 0x5C4000
  rankMem : t.rankMem = s.rankMem
  cufel : t.cufel = s.cufel
  livePend : t.livePend = s.livePend

theorem State.StoreLeaves.of_frame (h : t.StoreFrame (s.staged img)) : t.StoreLeaves s where
  spm a ha := (congrArg (fun z : State => memGet z.spm a) h :).trans (s.stageImage_spm img a ha)
  rankMem := (congrArg State.rankMem h :)
  cufel := (congrArg State.cufel h :)
  livePend := (congrArg State.livePend h :)

/-! ### A store that commits -/

/-- The state after a committed store. -/
def State.stored (s : State) (img : List Byte) (refresh : Bool) : State :=
  ((s.staged img).withNvm (nvmWords s.nvm (storeWords s.targetBank s.nextGen img))).storeDone s.targetBank s.nextGen img refresh

theorem State.store_committed (s : State) (n : Nat) (img : List Byte) :
    s.store n img [] .committed = (s.stored img (n == 2), some .ok) := rfl

theorem State.stored_leaves (s : State) (img : List Byte) (refresh : Bool) : (s.stored img refresh).StoreLeaves s := by
  have hframe := ((s.staged img).withNvm (nvmWords s.nvm (storeWords s.targetBank s.nextGen img))).storeDone_storeFrame
    (img := img) s.targetBank s.nextGen refresh
  exact .of_frame (hframe.trans rfl)

theorem State.o_stored (s : State) (img : List Byte) (refresh : Bool) :
    (s.stored img refresh).o Obj.NV_BANK = s.targetBank ∧ (s.stored img refresh).o Obj.NV_GEN = s.nextGen ∧
    (s.stored img refresh).o Obj.NV_LAST_RESULT = 1 ∧
    (s.stored img refresh).o (storesKey s.targetBank) = satAdd 32 (s.o (storesKey s.targetBank)) 1 := by
  obtain ⟨hbank, hgen, hresult, hstores⟩ := ((s.staged img).withNvm
    (nvmWords s.nvm (storeWords s.targetBank s.nextGen img))).o_storeDone (img := img) s.targetBank s.nextGen refresh
  have hkey : ∀ k ∈ [Obj.NV_STORES_A, Obj.NV_STORES_B], k / 256 ≠ 0x3830 := by decide
  exact ⟨hbank, hgen, hresult, hstores.trans (congrArg (satAdd 32 · 1) (s.o_staged img (hkey _ (storesKey_mem _))))⟩

/-- A committed store is answered OK. -/
theorem State.storeAnswer_committed (s : State) (q : Req) (m : Nat) (body : List Byte) (n : Nat) (img : List Byte) :
    s.storeAnswer q m body n img [] .committed = (s.stored img (n == 2)).respond q m .ok body := by
  unfold State.storeAnswer
  rw [State.store_committed]

theorem State.o_respond_nv (t : State) (q : Req) (m : Nat) (st : Status) (body : List Byte) {k : Nat}
    (hk : k ≠ Obj.CHK_ALIVE_TXN ∧ k ≠ Obj.CHK_ALIVE_TXC) : (t.respond q m st body).o k = t.o k :=
  State.o_respond _ q _ _ _ (State.aliveKey hk)

theorem State.keepsSpmOutside_respond {lo hi : Nat} (h : t.keepsSpmOutside s lo hi) (q : Req) (m : Nat) (st : Status)
    (body : List Byte) : (t.respond q m st body).keepsSpmOutside s lo hi := by
  intro a ha
  rw [State.spm_respond]
  exact h a ha

/-- What the answer to a committed store shows. -/
theorem State.stored_answered (s : State) (q : Req) (m : Nat) (body : List Byte) (n : Nat) (img : List Byte) :
    (s.storeAnswer q m body n img [] .committed).answers q m .ok body ∧
    (s.storeAnswer q m body n img [] .committed).o Obj.NV_BANK = s.targetBank ∧
    (s.storeAnswer q m body n img [] .committed).o Obj.NV_GEN = s.nextGen ∧
    (s.storeAnswer q m body n img [] .committed).o Obj.NV_LAST_RESULT = 1 ∧
    (s.storeAnswer q m body n img [] .committed).o (storesKey s.targetBank) = satAdd 32 (s.o (storesKey s.targetBank)) 1 ∧
    (s.storeAnswer q m body n img [] .committed).keepsSpmOutside s 0x5BC000 0x5C4000 ∧
    (s.storeAnswer q m body n img [] .committed).rankMem = s.rankMem ∧
    (s.storeAnswer q m body n img [] .committed).livePend = s.livePend := by
  obtain ⟨hbank, hgen, hresult, hstores⟩ := s.o_stored img (n == 2)
  have hleaves := s.stored_leaves img (n == 2)
  have hkey : ∀ k ∈ [Obj.NV_STORES_A, Obj.NV_STORES_B], k ≠ Obj.CHK_ALIVE_TXN ∧ k ≠ Obj.CHK_ALIVE_TXC := by decide
  rw [State.storeAnswer_committed]
  refine ⟨State.respond_answers _ _ _ _ _, ?_, ?_, ?_, ?_, State.keepsSpmOutside_respond hleaves.spm _ _ _ _, ?_, ?_⟩
  · exact (State.o_respond_nv _ _ _ _ _ (by decide)).trans hbank
  · exact (State.o_respond_nv _ _ _ _ _ (by decide)).trans hgen
  · exact (State.o_respond_nv _ _ _ _ _ (by decide)).trans hresult
  · exact (State.o_respond_nv _ _ _ _ _ (hkey _ (storesKey_mem _))).trans hstores
  · exact (State.rankMem_respond _ _ _ _ _).trans hleaves.rankMem
  · exact (State.livePend_respond _ _ _ _ _).trans hleaves.livePend

/-! ### The bank in force keeps its bytes (R504) -/

/-- The words of a store lie in its bank. -/
theorem storeWords_inside {bank gen : Nat} (hlen : img.length ≤ 0x8000) {w : Nat × Nat} (h : w ∈ storeWords bank gen img) :
    bankBase bank ≤ w.1 ∧ w.1 + 8 ≤ bankBase bank + 0x8000 := by
  simp only [storeWords, List.mem_append, List.mem_cons, List.mem_map, List.mem_range, List.not_mem_nil, or_false] at h
  obtain (rfl | ⟨i, hi, rfl⟩) | rfl | rfl | rfl := h
  all_goals simp only
  all_goals omega

theorem memGet_nvmWords (a : Nat) : ∀ (l : List (Nat × Nat)) (m : Memory), (∀ w ∈ l, a < w.1 ∨ w.1 + 8 ≤ a) →
    memGet (nvmWords m l) a = memGet m a
  | [], _, _ => rfl
  | w :: l, m, h => by
    have hrest := memGet_nvmWords a l (memPutWord m w.1 8 w.2) fun x hx => h x (List.mem_cons_of_mem _ hx)
    have hw := h w List.mem_cons_self
    exact hrest.trans (memGet_memWrite_outside _ _ _ _ (by rw [length_bytesLE]; exact hw))

/-- A committed store leaves every byte of the bank in force before it. -/
theorem State.nvm_stored (s : State) (refresh : Bool) (hlen : img.length ≤ 0x8000) (hbank : s.o Obj.NV_BANK ≤ 1) {a : Nat}
    (ha : a / 0x8000 = s.o Obj.NV_BANK) : memGet (s.stored img refresh).nvm a = memGet s.nvm a := by
  have hbase : bankBase s.targetBank = if s.o Obj.NV_BANK = 0 then 0x8000 else 0 := by
    unfold State.targetBank bankBase
    split <;> rfl
  have hwords : memGet (nvmWords s.nvm (storeWords s.targetBank s.nextGen img)) a = memGet s.nvm a := by
    refine memGet_nvmWords a _ _ fun w hw => ?_
    obtain ⟨hlow, hhigh⟩ := storeWords_inside hlen hw
    rw [hbase] at hlow hhigh
    by_cases hzero : s.o Obj.NV_BANK = 0
    · rw [if_pos hzero] at hlow
      omega
    · rw [if_neg hzero] at hhigh
      omega
  exact (((s.staged img).withNvm (nvmWords s.nvm (storeWords s.targetBank s.nextGen img))).nvm_storeDone _ _ _ (by omega)).trans hwords

end Sys2Proof.Machine
end

section
/-! SUPPORT. A store that fails, meets an uncorrectable word, or is cut off (R385, R504, R505, R550). -/
namespace Sys2Proof.Machine

variable {s t r : State} {q : Req} {u : List Upset} {e : StoreEnd} {img : List Byte}

/-! ### The fault of a store (R550) -/

theorem State.nvmFault_leaves (s : State) (bank : Nat) :
    (s.nvmFault bank).keepsObjects s [Obj.FLT_LOG_LOST, Obj.FLT_FAULTN, Obj.FLT_LATCHED, Obj.FLT_COND_CNT 17] ∧
    (s.nvmFault bank).StoreFrame s ∧ (s.nvmFault bank).ob Obj.FLT_LATCHED 17 = true := by
  refine ⟨?_, ?_, State.ariseOnce_latches _ 17⟩
  · exact State.keepsObjects_trans (State.keepsObjects_mono (State.ariseOnce_keepsObjects _ 17) (by decide))
      (State.keepsObjects_mono (s.stage_keepsObjects _ _ _ _) (by decide))
  · exact State.StoreFrame.trans (.of_objects (State.ariseOnce_keepsButObjects _ 17)) (s.stage_storeFrame _ _ _ _)

/-- The answer to a store that has failed in t with result n. -/
def State.failedAnswer (t : State) (q : Req) (m : Nat) (body : List Byte) (n : Nat) : State :=
  ((t.setO Obj.NV_LAST_RESULT n).nvmFault (t.setO Obj.NV_LAST_RESULT n).targetBank).respond q m .failed body

/-- A store that fails keeps the bank in force, shows why, latches condition 17 and is answered FAILED. -/
theorem State.failedAnswer_shows (t : State) (q : Req) (m : Nat) (body : List Byte) (n : Nat) :
    (t.failedAnswer q m body n).answers q m .failed body ∧ (t.failedAnswer q m body n).o Obj.NV_BANK = t.o Obj.NV_BANK ∧
    (t.failedAnswer q m body n).o Obj.NV_LAST_RESULT = n ∧ (t.failedAnswer q m body n).ob Obj.FLT_LATCHED 17 = true ∧
    (t.failedAnswer q m body n).spm = t.spm ∧ (t.failedAnswer q m body n).rankMem = t.rankMem := by
  obtain ⟨hobj, hframe, hlatched⟩ := (t.setO Obj.NV_LAST_RESULT n).nvmFault_leaves (t.setO Obj.NV_LAST_RESULT n).targetBank
  refine ⟨State.respond_answers _ _ _ _ _, ?_, ?_, ?_, ?_, ?_⟩
  · exact (State.o_respond_nv _ _ _ _ _ (by decide)).trans ((hobj _ (by decide)).trans (State.o_setO_ne _ _ (by decide)))
  · exact (State.o_respond_nv _ _ _ _ _ (by decide)).trans ((hobj _ (by decide)).trans (State.o_setO_self _ _ _))
  · exact (State.ob_of_o (State.o_respond_nv _ _ _ _ _ (by decide))).trans hlatched
  · exact (State.spm_respond _ _ _ _ _).trans (congrArg State.spm hframe :)
  · exact (State.rankMem_respond _ _ _ _ _).trans (congrArg State.rankMem hframe :)

/-! ### How a store fails (R385, R505) -/

theorem State.storeAnswer_verify (s : State) (q : Req) (m : Nat) (body : List Byte) (n : Nat) (img : List Byte) :
    ∃ words, s.storeAnswer q m body n img [] .verify = ((s.staged img).withNvm words).failedAnswer q m body 2 := ⟨_, rfl⟩

theorem State.storeAnswer_program (s : State) (q : Req) (m : Nat) (body : List Byte) (n : Nat) (img : List Byte) (j : BitVec 13)
    (v : BitVec 64) : ∃ words, s.storeAnswer q m body n img [] (.program j v) =
      ((s.staged img).withNvm words).failedAnswer q m body 4 := ⟨_, rfl⟩

/-- The state in which an uncorrectable word of the staged image has halted the DMA channel after k words. -/
def State.storeHalted (s : State) (img : List Byte) (u : List Upset) (k : Nat) : State :=
  ((s.staged img).stagingRead (img.length / 8) u).1.withNvm (nvmWords ((s.staged img).stagingRead (img.length / 8) u).1.nvm
    ((storeWords s.targetBank s.nextGen img).take (k + 1)))

theorem State.storeAnswer_uncorrectable {k : Nat} (h : ((s.staged img).stagingRead (img.length / 8) u).2 = some k) (q : Req) (m : Nat)
    (body : List Byte) (n : Nat) : s.storeAnswer q m body n img u e = (s.storeHalted img u k).failedAnswer q m body 3 := by
  have hstore : s.store n img u e = ((s.storeHalted img u k).setO Obj.NV_LAST_RESULT 3, some .failed) := by
    unfold State.store
    extract_lets bank gen words len x t failed
    have hx : x.2 = some k := h
    rw [hx]
    rfl
  unfold State.storeAnswer
  rw [hstore]
  rfl

/-- A double error in one of the first four words of the staging halts the channel there. -/
theorem State.stagingRead_double (t : State) (i : BitVec 5) (v : BitVec 64) {n : Nat} (hn : 4 ≤ n) :
    ∃ k, (t.stagingRead n [.word (BitVec.ofNat 23 (0x5BC000 + i.toNat)) .double v]).2 = some k := by
  have haddr : (BitVec.ofNat 23 (0x5BC000 + i.toNat)).toNat = 0x5BC000 + i.toNat := by
    have hi := i.isLt
    rw [BitVec.toNat_ofNat, Nat.mod_eq_of_lt (by omega)]
  have hin : 0x5BC000 ≤ (0x5BC000 + i.toNat) / 8 * 8 ∧ (0x5BC000 + i.toNat) / 8 * 8 < 0x5BC000 + 8 * n := by
    have hi := i.isLt
    omega
  have hnamed : namedIn [.word (BitVec.ofNat 23 (0x5BC000 + i.toNat)) .double v] 0x5BC000 (8 * n) =
      [(0x5BC000 + i.toNat) / 8 * 8] := by
    simp [namedIn, wordsNamed, haddr, hin, ascending, putAsc]
  have herror : wordError [.word (BitVec.ofNat 23 (0x5BC000 + i.toNat)) .double v] ((0x5BC000 + i.toNat) / 8 * 8) = some true := by
    simp [wordError, wordErr, haddr]
  refine ⟨((0x5BC000 + i.toNat) / 8 * 8 - 0x5BC000) / 8, ?_⟩
  simp [State.stagingRead, State.channelRead, hnamed, herror]

theorem State.o_storeHalted_bank (s : State) (img : List Byte) (u : List Upset) (k : Nat) :
    (s.storeHalted img u k).o Obj.NV_BANK = s.o Obj.NV_BANK :=
  (((s.staged img).channelRead_frame 4 0x5BC000 (8 * (img.length / 8)) u).2 Obj.NV_BANK (by decide)).trans
    (s.o_staged img (by decide))

/-! ### A store that is cut off answers nothing (R504) -/

theorem State.storeAnswer_cut (s : State) (q : Req) (m : Nat) (body : List Byte) (n : Nat) (img : List Byte) (j : BitVec 13)
    (v : BitVec 64) : ∃ words, s.storeAnswer q m body n img [] (.cut j v) = ((s.staged img).withNvm words).setO Obj.NV_STATE n := ⟨_, rfl⟩

theorem State.staged_keepsObjects (s : State) (img : List Byte) : (s.staged img).keepsObjects s [Obj.CHK_RUN 36] :=
  (s.stageImage img).check_keepsObjects 36 img

end Sys2Proof.Machine
end

section
/-! SUPPORT. Images, patches and refreshes written whole, and the powered hours (R510 to R512, R558). -/
namespace Sys2Proof.Machine

variable {s t r : State} {q : Req} {u : List Upset} {e : StoreEnd} {img : List Byte}

/-! ### STORE (R372, R504) -/

theorem store_runs {P : State → Prop} (hs : s.servedFor q = true) (h : P (s.storeRequest q u e)) : Runs (.store q u e) s P :=
  request_runs hs rfl h

theorem State.storeRequest_length (h : s.badLength q 0 = true) : s.storeRequest q u e = s.respond q 0x05 .length [] := by
  simp [State.storeRequest, h]

theorem State.storeRequest_refused (h : s.badLength q 0 = false) (hx : s.isExpert q = false) :
    s.storeRequest q u e = s.respond q 0x05 .expertRequired [] := by
  simp [State.storeRequest, h, hx]

theorem State.storeRequest_waits (h : s.badLength q 0 = false) (hx : s.isExpert q = true) (hopen : s.nvOpen = true) :
    s.storeRequest q u e = s := by
  simp [State.storeRequest, h, hx, hopen]

/-- The image of a STORE (R502 to R504). -/
def State.storeImage (s : State) : List Byte := ownImage 0 storedKeys.length s.storedRecords

theorem State.storeRequest_stores (h : s.badLength q 0 = false) (hx : s.isExpert q = true) (hopen : s.nvOpen = false) :
    s.storeRequest q u e = s.storeAnswer q 0x05 [] 1 s.storeImage u e := by
  simp [State.storeRequest, h, hx, hopen, State.storeImage]

/-! ### NV_IMAGE (R510) -/

theorem imageWrite_runs {P : State → Prop} (hs : s.servedFor q = true) (h : P (s.imageWrite q img u e)) :
    Runs (.nvImageWrite q img u e) s P :=
  request_runs hs rfl h

theorem State.imageWrite_level (hx : s.isExpert q = false) :
    s.imageWrite q img u e = s.respond q 0x04 .expertRequired (blockBody Obj.NV_IMAGE 0 0 0) := by
  simp [State.imageWrite, hx]

theorem State.imageWrite_busy (hx : s.isExpert q = true) (hopen : s.nvOpenElse q = true) :
    s.imageWrite q img u e = s.respond q 0x04 .noResource (blockBody Obj.NV_IMAGE 0 0 0) := by
  simp [State.imageWrite, hx, hopen]

theorem State.imageWrite_malformed (hx : s.isExpert q = true) (hopen : s.nvOpenElse q = false) (hi : imageOk img = false) :
    s.imageWrite q img u e = s.respond q 0x04 .outOfRange (blockBody Obj.NV_IMAGE 0 0 0) := by
  simp [State.imageWrite, hx, hopen, hi]

theorem State.imageWrite_committed (hx : s.isExpert q = true) (hopen : s.nvOpenElse q = false) (hi : imageOk img = true) :
    s.imageWrite q img [] .committed =
      (s.stored (stampImage img 3) false).respond q 0x04 .ok (blockBody Obj.NV_IMAGE 2 img.length img.length) := by
  simp [State.imageWrite, hx, hopen, hi, State.store_committed]

/-! ### NV_PATCH (R512) -/

theorem patchWrite_runs {P : State → Prop} {patch : Option (BitVec 16)} (hs : s.servedFor q = true)
    (h : P (s.patchWrite q img u (patch.map BitVec.toNat) e)) : Runs (.nvPatchWrite q img u ⟨patch, e⟩) s P :=
  request_runs hs rfl h

/-- The patch image lies in the NVM staging and check unit 37 has run over it. -/
def State.patchStaged (s : State) (img : List Byte) : State := (s.stageImage img).check 37 img

theorem State.patchStaged_keepsObjects (s : State) (img : List Byte) : (s.patchStaged img).keepsObjects s [Obj.CHK_RUN 37] :=
  (s.stageImage img).check_keepsObjects 37 img

theorem State.isExpert_patchStaged (s : State) (img : List Byte) (q : Req) : (s.patchStaged img).isExpert q = s.isExpert q := rfl

theorem State.patchWrite_level {patch : Option Nat} (hx : s.isExpert q = false) :
    s.patchWrite q img u patch e = s.respond q 0x04 .expertRequired (blockBody Obj.NV_PATCH 0 0 0) := by
  simp [State.patchWrite, State.hostBlockWrite, hx]

theorem State.patchWrite_busy {patch : Option Nat} (hx : s.isExpert q = true) (hopen : s.nvOpenElse q = true) :
    s.patchWrite q img u patch e = s.respond q 0x04 .noResource (blockBody Obj.NV_PATCH 0 0 0) := by
  simp [State.patchWrite, State.hostBlockWrite, hx, hopen]

/-- An image that fails its check, or does not fit, is refused. -/
theorem State.patchWrite_fails {patch : Option Nat} (hx : s.isExpert q = true) (hopen : s.nvOpenElse q = false)
    (hfail : patch = none ∨ 0x6FF8 < img.length) :
    s.patchWrite q img u patch e = (s.patchStaged img).respond q 0x04 .failed (blockBody Obj.NV_PATCH 0 0 0) := by
  have hstaged : ((s.stageImage img).check 37 img).isExpert q = true := hx
  have hanswer : ((s.stageImage img).check 37 img).hostBlockWrite q Obj.NV_PATCH img.length true .failed
      ((s.stageImage img).check 37 img) = (s.patchStaged img).respond q 0x04 .failed (blockBody Obj.NV_PATCH 0 0 0) := by
    simp [State.hostBlockWrite, hstaged, State.patchStaged]
  unfold State.patchWrite
  cases patch with
  | none => simpa [hx, hopen] using hanswer
  | some level =>
    have hlong : ¬ img.length ≤ 0x6FF8 := by
      rcases hfail with h | h
      · exact absurd h (by simp)
      · omega
    simpa [hx, hopen, hlong] using hanswer

theorem State.patchWrite_put {level : Nat} (hx : s.isExpert q = true) (hopen : s.nvOpenElse q = false) (hlen : img.length ≤ 0x6FF8) :
    s.patchWrite q img u (some level) e = match (s.patchStaged img).patchStore img u level e with
      | (t, some st) => t.hostBlockWrite q Obj.NV_PATCH img.length true st t
      | (t, none) => t := by
  unfold State.patchWrite State.patchStaged
  simp only [hx, hopen, hlen, Bool.not_true, Bool.false_eq_true, if_true, if_false] <;> rfl

theorem State.patchWrite_committed {level : Nat} (hx : s.isExpert q = true) (hopen : s.nvOpenElse q = false)
    (hlen : img.length ≤ 0x6FF8) : s.patchWrite q img [] (some level) .committed =
      ((s.patchStaged img).patchPut img level (patchWords img).length none).respond q 0x04 .ok
        (blockBody Obj.NV_PATCH 2 img.length img.length) := by
  have hstore : (s.patchStaged img).patchStore img [] level .committed =
      ((s.patchStaged img).patchPut img level (patchWords img).length none, some .ok) := rfl
  have hput : ((s.patchStaged img).patchPut img level (patchWords img).length none).isExpert q = true := hx
  rw [State.patchWrite_put hx hopen hlen, hstore]
  simp [State.hostBlockWrite, hput]

theorem State.patchWrite_cut {level : Nat} (hx : s.isExpert q = true) (hopen : s.nvOpenElse q = false) (hlen : img.length ≤ 0x6FF8)
    (j : BitVec 13) (v : BitVec 64) : s.patchWrite q img [] (some level) (.cut j v) =
      (s.patchStaged img).patchPut img level (min j.toNat (patchWords img).length) (some v.toNat) := by
  rw [State.patchWrite_put hx hopen hlen]
  rfl

/-- The words of a patch image: its commit word cleared, the image's words, and the commit word. -/
theorem length_patchWords (img : List Byte) : (patchWords img).length = ceilDiv img.length 8 + 2 := by
  simp [patchWords, wordsAt]

/-- The image's words lie below the commit word. -/
theorem patchWords_below (hlen : img.length ≤ 0x6FF8) {i : Nat} (hi : i < ceilDiv img.length 8) :
    ∃ w, (patchWords img)[i + 1]? = some w ∧ w.1 + 8 ≤ patchCommit := by
  refine ⟨(0x19000 + 8 * i, fromLE ((img.drop (8 * i)).take 8)), ?_, ?_⟩
  · simp only [patchWords, wordsAt, List.cons_append, List.getElem?_cons_succ, List.map_map]
    rw [List.getElem?_append_left (by simpa using hi)]
    simp [hi]
  · unfold ceilDiv at hi
    simp only [patchCommit]
    omega

theorem bytes_zero : bytesLE 8 0 = [0, 0, 0, 0, 0, 0, 0, 0] := by decide

theorem memWord_put (m : Memory) (a v : Nat) : memWord (memPutWord m a 8 v) a 8 = fromLE (bytesLE 8 v) := by
  have hread := memRead_memWrite m a (bytesLE 8 v)
  rw [length_bytesLE] at hread
  exact congrArg fromLE hread

theorem memRead_congr {m m' : Memory} : ∀ (n a : Nat), (∀ c, a ≤ c → c < a + n → memGet m c = memGet m' c) →
    memRead m a n = memRead m' a n
  | 0, _, _ => rfl
  | n + 1, a, h => by
    rw [memRead, memRead, h a le_rfl (by omega), memRead_congr n (a + 1) fun c hlow hhigh => h c (by omega) (by omega)]

/-- Words below the commit word leave it. -/
theorem memWord_nvmWords_below : ∀ (l : List (Nat × Nat)) (m : Memory), (∀ w ∈ l, w.1 + 8 ≤ patchCommit) →
    memWord (nvmWords m l) patchCommit 8 = memWord m patchCommit 8 := by
  intro l m h
  refine congrArg fromLE (memRead_congr 8 patchCommit fun c hlow _ => memGet_nvmWords c l m fun w hw => Or.inr ?_)
  exact (h w hw).trans hlow

theorem State.patchPut_leaves (t : State) (b : List Byte) (level n : Nat) (torn : Option Nat) :
    (t.patchPut b level n torn).keepsObjects t [] ∧ (t.patchPut b level n torn).spm = t.spm ∧
    (t.patchPut b level n torn).rankMem = t.rankMem := ⟨fun _ _ => rfl, rfl, rfl⟩

theorem State.patchPut_patch (t : State) (b : List Byte) (level : Nat) {n : Nat} (hn : n ≠ 0) (torn : Option Nat) :
    (t.patchPut b level n torn).nv.patch = (b.length, level) := by
  simp [State.patchPut, hn]

/-- A patch image whose write is cut off after its first word and before its last is not committed (R512). -/
theorem State.patchPut_cut (t : State) (level : Nat) (hlen : img.length ≤ 0x6FF8) {j : Nat} (hlow : 1 ≤ j)
    (hhigh : j < ceilDiv img.length 8 + 1) (v : Nat) : (t.patchPut img level j (some v)).patchHeld = false := by
  obtain ⟨i, rfl⟩ : ∃ i, j = i + 1 := ⟨j - 1, by omega⟩
  obtain ⟨w, hw, hbelow⟩ := patchWords_below hlen (i := i) (by omega)
  have htake : (patchWords img).take (i + 1) = (patchCommit, 0) :: (patchWords img).tail.take i := rfl
  have hrest : ∀ x ∈ (patchWords img).tail.take i, x.1 + 8 ≤ patchCommit := by
    intro x hx
    obtain ⟨n, hn, rfl⟩ := List.mem_iff_getElem.mp hx
    rw [List.length_take] at hn
    obtain ⟨y, hy, hyb⟩ := patchWords_below hlen (i := n) (by omega)
    rw [List.getElem_take, List.getElem_tail]
    rw [List.getElem?_eq_some_iff] at hy
    obtain ⟨hny, rfl⟩ := hy
    exact hyb
  have hcleared : memWord (nvmWords t.nvm ((patchWords img).take (i + 1))) patchCommit 8 = 0 := by
    rw [htake]
    refine (memWord_nvmWords_below ((patchWords img).tail.take i) (memPutWord t.nvm patchCommit 8 0) hrest).trans ?_
    rw [memWord_put, bytes_zero]
    decide
  have htorn : memWord (nvmTorn t.nvm (patchWords img) (i + 1) v) patchCommit 8 = 0 := by
    have hput : nvmTorn t.nvm (patchWords img) (i + 1) v =
        nvmWords (nvmWords t.nvm ((patchWords img).take (i + 1))) [(w.1, v)] := by
      unfold nvmTorn
      rw [hw]
      rfl
    rw [hput, memWord_nvmWords_below [(w.1, v)] _ (by simpa using hbelow), hcleared]
  have hheld : (t.patchPut img level (i + 1) (some v)).patchHeld = (memWord (nvmTorn t.nvm (patchWords img) (i + 1) v) patchCommit 8 == commitWord) := rfl
  rw [hheld, htorn]
  decide

/-- A patch image whose last word is written is committed. -/
theorem patchWords_commits (m : Memory) (img : List Byte) : memWord (nvmWords m (patchWords img)) patchCommit 8 = commitWord := by
  have hlast : nvmWords m (patchWords img) = memPutWord (nvmWords m (patchWords img).dropLast) patchCommit 8 commitWord := by
    unfold patchWords nvmWords
    rw [List.dropLast_concat, List.foldl_append]
    rfl
  rw [hlast, memWord_put]
  decide

/-! ### The refresh of the bank in force (R372, R511) -/

theorem execNvMarginCheck_down {weak : Bool} (hd : s.cufel.down = true) : exec (.nvMarginCheck weak u e) s = .next s := by
  have htask : s.ifTask (s.marginCheck weak u e) = s := by simp [State.ifTask, hd]
  exact congrArg Host.Outcome.next htask

/-- A check that changes nothing in the serving device leaves it. -/
theorem execNvMarginCheck_same {weak : Bool} (h : s.marginCheck weak u e = s) : exec (.nvMarginCheck weak u e) s = .next s := by
  have htask : s.ifTask (s.marginCheck weak u e) = s := by
    rw [h]
    unfold State.ifTask
    split <;> rfl
  exact congrArg Host.Outcome.next htask

theorem State.marginCheck_sound {weak : Bool}
    (h : s.o Obj.NV_BANK = 0xFF ∨ (weak = false ∧ s.o Obj.FLT_LIFE_HOURS < s.nv.since + s.o Obj.NV_REFRESH_PER)) :
    s.marginCheck weak u e = s := by
  unfold State.marginCheck
  rcases h with hnone | ⟨hweak, hyoung⟩
  · rw [if_pos hnone]
  · have haged : s.bankAged = false := decide_eq_false (Nat.not_le.mpr hyoung)
    simp [hweak, haged]

theorem State.marginCheck_waits (hbank : s.o Obj.NV_BANK ≠ 0xFF) (hopen : s.nvOpen = true) :
    s.marginCheck true u e = { s with nv := { s.nv with refresh := some (u, e) } } := by
  simp [State.marginCheck, hbank, hopen]

theorem State.marginCheck_refreshes (hbank : s.o Obj.NV_BANK ≠ 0xFF) (hopen : s.nvOpen = false) :
    s.marginCheck true [] .committed = s.stored (stampImage s.imageNow 2) true := by
  simp [State.marginCheck, hbank, hopen, State.refreshStore, State.store_committed]

theorem State.stored_refreshes (s : State) (img : List Byte) :
    (s.stored img true).o Obj.NV_REFRESHES = satAdd 32 (s.o Obj.NV_REFRESHES) 1 :=
  (((s.staged img).withNvm (nvmWords s.nvm (storeWords s.targetBank s.nextGen img))).storeDone_refreshes _ _).trans
    (congrArg (satAdd 32 · 1) (s.o_staged img (by decide)))

theorem State.stored_since (s : State) (img : List Byte) (refresh : Bool) :
    (s.stored img refresh).nv.since = s.o Obj.FLT_LIFE_HOURS :=
  (((s.staged img).withNvm (nvmWords s.nvm (storeWords s.targetBank s.nextGen img))).storeDone_since _ _ _).trans
    (s.o_staged img (by decide))

/-! ### The powered hours (R558) -/

theorem State.o_lifeWrite_writes (s : State) (code cls unit lseq xc : Nat) (data : List Byte) :
    (s.lifeWrite code cls unit lseq xc data).o Obj.FLT_LIFE_WRITES = satAdd 32 (s.o Obj.FLT_LIFE_WRITES) 1 :=
  (State.o_bump_self _ _).trans (congrArg (satAdd 32 · 1) (State.o_setO_ne _ _ (by decide)))

/-- The powered hours have reached n. -/
def State.hoursAt (s : State) (n : Nat) : State := { s.setO Obj.FLT_LIFE_HOURS n with nv := { s.nv with hours := n } }

theorem State.lifeHours_eq (s : State) : s.lifeHours = (s.hoursAt (max (s.o Obj.FLT_LIFE_HOURS) (satAdd 32 s.nv.hours 24))).lifeOnly 0x0207 0
    (bytesLE 4 ((s.hoursAt (max (s.o Obj.FLT_LIFE_HOURS) (satAdd 32 s.nv.hours 24))).o Obj.FLT_LIFE_HOURS)) := rfl

/-- The lifetime record of the powered hours. -/
theorem State.lifeHours_records (s : State) :
    s.lifeHours.o Obj.FLT_LIFE_HOURS = max (s.o Obj.FLT_LIFE_HOURS) (satAdd 32 s.nv.hours 24) ∧
    s.lifeHours.nv.hours = s.lifeHours.o Obj.FLT_LIFE_HOURS ∧
    s.lifeHours.o Obj.FLT_LIFE_WRITES = satAdd 32 (s.o Obj.FLT_LIFE_WRITES) 1 ∧
    s.lifeHours.o Obj.FLT_LIFE_NEXT = (s.o Obj.FLT_LIFE_NEXT + 1) % 512 ∧
    s.lifeHours.keepsObjects s [Obj.FLT_LIFE_HOURS, Obj.FLT_LIFE_WRITES, Obj.FLT_LIFE_NEXT] ∧ s.lifeHours.spm = s.spm ∧
    s.lifeHours.rankMem = s.rankMem := by
  rw [State.lifeHours_eq]
  generalize max (s.o Obj.FLT_LIFE_HOURS) (satAdd 32 s.nv.hours 24) = n
  have hset : (s.hoursAt n).keepsObjects s [Obj.FLT_LIFE_HOURS, Obj.FLT_LIFE_WRITES, Obj.FLT_LIFE_NEXT] :=
    State.keepsObjects_setO (State.keepsObjects_refl s _) (by decide) n
  have hhours : (s.hoursAt n).o Obj.FLT_LIFE_HOURS = n := State.o_setO_self _ _ _
  generalize bytesLE 4 _ = d
  have hlife := (s.hoursAt n).lifeOnly_keepsObjects 0x0207 0 d
  have hshown : ((s.hoursAt n).lifeOnly 0x0207 0 d).o Obj.FLT_LIFE_HOURS = n := (hlife _ (by decide)).trans hhours
  refine ⟨hshown, hshown.symm, ?_, ?_, State.keepsObjects_trans (State.keepsObjects_mono hlife (by decide)) hset, rfl, rfl⟩
  · exact ((s.hoursAt n).drawn.o_lifeWrite_writes _ _ _ _ _ _).trans (congrArg (satAdd 32 · 1) (State.o_setO_ne _ _ (by decide)))
  · exact ((s.hoursAt n).drawn.o_lifeWrite_next _ _ _ _ _ _).trans
      (congrArg (fun i => (i + 1) % 512) (State.o_setO_ne _ _ (by decide)))

/-! ### The obligation -/

/-- An image has at least its header, and fits its bank. -/
theorem State.length_storeImage (s : State) : 32 ≤ s.storeImage.length ∧ s.storeImage.length ≤ 0x8000 := by
  unfold State.storeImage
  generalize storedKeys.length = n
  refine ⟨?_, s.length_storeImage_le 0 n⟩
  rw [length_ownImage]
  exact Nat.le_add_right _ _

/-- The staged image with other words in the NVM leaves the scratchpad outside the staging, the bank in force and the ranks. -/
theorem State.staged_leaves (s : State) (img : List Byte) (m : Memory) :
    ((s.staged img).withNvm m).keepsSpmOutside s 0x5BC000 0x5C4000 ∧ ((s.staged img).withNvm m).rankMem = s.rankMem ∧
    ((s.staged img).withNvm m).o Obj.NV_BANK = s.o Obj.NV_BANK ∧ ((s.staged img).withNvm m).keepsObjects s [Obj.CHK_RUN 36] ∧
    ((s.staged img).withNvm m).cufel = s.cufel :=
  ⟨s.stageImage_spm img, rfl, s.o_staged img (by decide), s.staged_keepsObjects img, rfl⟩

theorem State.setO_leaves (t : State) (k v : Nat) :
    (t.setO k v).spm = t.spm ∧ (t.setO k v).rankMem = t.rankMem ∧ (t.setO k v).cufel = t.cufel := ⟨rfl, rfl, rfl⟩

/-- STORE by an expert while no transfer holds the staging: each of its ends. -/
theorem store_ends (hs : s.servedFor q = true) (hx : s.isExpert q = true) (h : s.badLength q 0 = false) (hopen : s.nvOpen = false)
    (i : BitVec 5) (j : BitVec 13) (v : BitVec 64) :
    Runs (.store q [] .committed) s (fun t => t.answers q 0x05 .ok [] ∧ t.o Obj.NV_BANK = s.targetBank ∧ t.o Obj.NV_GEN = s.nextGen ∧
      t.o Obj.NV_LAST_RESULT = 1 ∧ t.o (storesKey s.targetBank) = satAdd 32 (s.o (storesKey s.targetBank)) 1 ∧
      (s.o Obj.NV_BANK ≤ 1 → ∀ a, a / 0x8000 = s.o Obj.NV_BANK → memGet t.nvm a = memGet s.nvm a) ∧
      t.keepsSpmOutside s 0x5BC000 0x5C4000 ∧ t.rankMem = s.rankMem) ∧
    Runs (.store q [] .verify) s (fun t => t.answers q 0x05 .failed [] ∧ t.o Obj.NV_BANK = s.o Obj.NV_BANK ∧ t.o Obj.NV_LAST_RESULT = 2 ∧
      t.ob Obj.FLT_LATCHED 17 = true ∧ t.keepsSpmOutside s 0x5BC000 0x5C4000 ∧ t.rankMem = s.rankMem) ∧
    Runs (.store q [.word (BitVec.ofNat 23 (0x5BC000 + i.toNat)) .double v] e) s (fun t => t.answers q 0x05 .failed [] ∧
      t.o Obj.NV_BANK = s.o Obj.NV_BANK ∧ t.o Obj.NV_LAST_RESULT = 3 ∧ t.ob Obj.FLT_LATCHED 17 = true) ∧
    Runs (.store q [] (.program j v)) s (fun t => t.answers q 0x05 .failed [] ∧ t.o Obj.NV_BANK = s.o Obj.NV_BANK ∧
      t.o Obj.NV_LAST_RESULT = 4 ∧ t.ob Obj.FLT_LATCHED 17 = true) ∧
    Runs (.store q [] (.cut j v)) s (fun t => t.cufel = s.cufel ∧ t.keepsObjects s [Obj.NV_STATE, Obj.CHK_RUN 36] ∧
      t.keepsSpmOutside s 0x5BC000 0x5C4000 ∧ t.rankMem = s.rankMem) := by
  have hruns {u : List Upset} {e : StoreEnd} {P : State → Prop} (hp : P (s.storeAnswer q 0x05 [] 1 s.storeImage u e)) :
      Runs (.store q u e) s P := store_runs hs (State.storeRequest_stores h hx hopen ▸ hp)
  obtain ⟨hheader, hfits⟩ := s.length_storeImage
  generalize s.storeImage = img at hruns hheader hfits
  refine ⟨hruns ?_, hruns ?_, hruns ?_, hruns ?_, hruns ?_⟩
  · obtain ⟨hans, hin, hgen, hresult, hstores, hspm, hrank, -⟩ := s.stored_answered q 0x05 [] 1 img
    refine ⟨hans, hin, hgen, hresult, hstores, fun hforce a ha => ?_, hspm, hrank⟩
    rw [State.storeAnswer_committed, State.nvm_respond]
    exact s.nvm_stored _ hfits hforce ha
  · obtain ⟨words, hwords⟩ := s.storeAnswer_verify q 0x05 [] 1 img
    obtain ⟨hout, hranks, hbank, -, -⟩ := s.staged_leaves img words
    obtain ⟨hans, hin, hresult, hlatched, hspm, hrank⟩ := ((s.staged img).withNvm words).failedAnswer_shows q 0x05 [] 2
    rw [hwords]
    exact ⟨hans, hin.trans hbank, hresult, hlatched, fun a ha => (congrArg (memGet · a) hspm).trans (hout a ha), hrank.trans hranks⟩
  · obtain ⟨k, hk⟩ := (s.staged img).stagingRead_double i v (n := img.length / 8) (by omega)
    rw [State.storeAnswer_uncorrectable hk]
    obtain ⟨hans, hin, hresult, hlatched, -, -⟩ := State.failedAnswer_shows
      (s.storeHalted img [.word (BitVec.ofNat 23 (0x5BC000 + i.toNat)) .double v] k) q 0x05 [] 3
    exact ⟨hans, hin.trans (s.o_storeHalted_bank _ _ _), hresult, hlatched⟩
  · obtain ⟨words, hwords⟩ := s.storeAnswer_program q 0x05 [] 1 img j v
    obtain ⟨-, -, hbank, -, -⟩ := s.staged_leaves img words
    obtain ⟨hans, hin, hresult, hlatched, -, -⟩ := ((s.staged img).withNvm words).failedAnswer_shows q 0x05 [] 4
    rw [hwords]
    exact ⟨hans, hin.trans hbank, hresult, hlatched⟩
  · obtain ⟨words, hwords⟩ := s.storeAnswer_cut q 0x05 [] 1 img j v
    obtain ⟨hout, hranks, -, hkept, hcufel⟩ := s.staged_leaves img words
    obtain ⟨hspm, hrank, hservice⟩ := ((s.staged img).withNvm words).setO_leaves Obj.NV_STATE 1
    have hstate := State.keepsObjects_setO (State.keepsObjects_mono (ks' := [Obj.NV_STATE, Obj.CHK_RUN 36]) hkept (by decide))
      (k := Obj.NV_STATE) (by decide) 1
    rw [hwords]
    exact ⟨hservice.trans hcufel, hstate, fun a ha => (congrArg (memGet · a) hspm).trans (hout a ha), hrank.trans hranks⟩

/-- NV_PATCH by an expert while no other transfer holds the staging: refused, cut off, committed. -/
theorem patch_ends (hs : s.servedFor q = true) (hx : s.isExpert q = true) (hopen : s.nvOpenElse q = false) (n : BitVec 16)
    (j : BitVec 13) (v : BitVec 64) :
    Runs (.nvPatchWrite q img [] ⟨none, e⟩) s (fun t => t.answers q 0x04 .failed (blockBody Obj.NV_PATCH 0 0 0) ∧
      t.keepsSpmOutside s 0x5BC000 0x5C4000 ∧ t.rankMem = s.rankMem ∧ t.nvm = s.nvm ∧
      t.keepsObjects s [Obj.CHK_RUN 37, Obj.CHK_ALIVE_TXN, Obj.CHK_ALIVE_TXC]) ∧
    (0x6FF8 < img.length → Runs (.nvPatchWrite q img [] ⟨some n, e⟩) s (fun t => t.nvm = s.nvm ∧
      t.answers q 0x04 .failed (blockBody Obj.NV_PATCH 0 0 0))) ∧
    (img.length ≤ 0x6FF8 → 1 ≤ j.toNat → j.toNat < ceilDiv img.length 8 + 1 → Runs (.nvPatchWrite q img [] ⟨some n, .cut j v⟩) s (fun t =>
      t.cufel = s.cufel ∧ t.patchHeld = false ∧ t.keepsObjects s [Obj.CHK_RUN 37] ∧ t.rankMem = s.rankMem)) ∧
    (img.length ≤ 0x6FF8 → Runs (.nvPatchWrite q img [] ⟨some n, .committed⟩) s (fun t =>
      t.answers q 0x04 .ok (blockBody Obj.NV_PATCH 2 img.length img.length) ∧ t.nvm = nvmWords s.nvm (patchWords img) ∧
      t.patchHeld = true ∧ t.nv.patch = (img.length, n.toNat) ∧
      t.keepsObjects s [Obj.CHK_RUN 37, Obj.CHK_ALIVE_TXN, Obj.CHK_ALIVE_TXC] ∧ t.keepsSpmOutside s 0x5BC000 0x5C4000 ∧
      t.rankMem = s.rankMem)) := by
  have hstaged : (s.patchStaged img).keepsObjects s [Obj.CHK_RUN 37, Obj.CHK_ALIVE_TXN, Obj.CHK_ALIVE_TXC] :=
    State.keepsObjects_mono (s.patchStaged_keepsObjects img) (by decide)
  have hspm : (s.patchStaged img).keepsSpmOutside s 0x5BC000 0x5C4000 := s.stageImage_spm img
  refine ⟨patchWrite_runs hs ?_, fun hlong => patchWrite_runs hs ?_, fun hlen hlow hhigh => patchWrite_runs hs ?_,
    fun hlen => patchWrite_runs hs ?_⟩
  · rw [Option.map_none, State.patchWrite_fails hx hopen (Or.inl rfl)]
    exact ⟨State.respond_answers _ _ _ _ _, State.keepsSpmOutside_respond hspm _ _ _ _, State.rankMem_respond _ _ _ _ _,
      State.nvm_respond _ _ _ _ _, State.keepsObjects_respond hstaged _ _ _ _ (by decide) (by decide)⟩
  · rw [Option.map_some, State.patchWrite_fails hx hopen (Or.inr hlong)]
    exact ⟨State.nvm_respond _ _ _ _ _, State.respond_answers _ _ _ _ _⟩
  · have hmin : min j.toNat (patchWords img).length = j.toNat := by
      rw [length_patchWords]
      omega
    rw [Option.map_some, State.patchWrite_cut hx hopen hlen, hmin]
    exact ⟨rfl, State.patchPut_cut _ _ hlen hlow hhigh _, s.patchStaged_keepsObjects img, rfl⟩
  · rw [Option.map_some, State.patchWrite_committed hx hopen hlen]
    have hwords : nvmWords s.nvm ((patchWords img).take (patchWords img).length) = nvmWords s.nvm (patchWords img) :=
      congrArg (nvmWords s.nvm) List.take_length
    have hnvm : ((s.patchStaged img).patchPut img n.toNat (patchWords img).length none).nvm = nvmWords s.nvm (patchWords img) := hwords
    have hpatch : ((s.patchStaged img).patchPut img n.toNat (patchWords img).length none).nv.patch = (img.length, n.toNat) :=
      State.patchPut_patch _ _ _ (by rw [length_patchWords]; omega) _
    have hkept : ((s.patchStaged img).patchPut img n.toNat (patchWords img).length none).keepsObjects s
        [Obj.CHK_RUN 37, Obj.CHK_ALIVE_TXN, Obj.CHK_ALIVE_TXC] :=
      State.keepsObjects_trans (State.keepsObjects_mono ((s.patchStaged img).patchPut_leaves _ _ _ _).1 (List.nil_subset _)) hstaged
    have hout : ((s.patchStaged img).patchPut img n.toNat (patchWords img).length none).keepsSpmOutside s 0x5BC000 0x5C4000 := fun a ha =>
      (congrArg (memGet · a) ((s.patchStaged img).patchPut_leaves _ _ _ _).2.1).trans (hspm a ha)
    refine ⟨State.respond_answers _ _ _ _ _, (State.nvm_respond _ _ _ _ _).trans hnvm, ?_, ?_,
      State.keepsObjects_respond hkept _ _ _ _ (by decide) (by decide), State.keepsSpmOutside_respond hout _ _ _ _,
      (State.rankMem_respond _ _ _ _ _).trans (State.patchPut_leaves _ _ _ _ _).2.2⟩
    · rw [State.patchHeld, State.nvm_respond, hnvm, patchWords_commits]
      exact beq_self_eq_true _
    · rw [State.nv_respond]
      exact hpatch

/-- Settles O39: each end of a store is an equation of its state, and the words of R504 lie in the bank that is not in force. -/
theorem storesWriteTheOtherBank : Obligations.StoresWriteTheOtherBank := by
  unfold Obligations.StoresWriteTheOtherBank
  intro q n j v img i u e weak s
  refine ⟨fun hs => ⟨fun hlen => store_runs hs ?_, fun hx => ⟨fun hlen => store_runs hs ?_, imageWrite_runs hs ?_, patchWrite_runs hs ?_⟩,
    fun hx hlen hopen => ?_, fun hx hopen => ⟨imageWrite_runs hs ?_, patchWrite_runs hs ?_⟩,
    fun hx hlen hopen => store_ends hs hx hlen hopen i j v, fun hx hopen => ⟨fun hi => imageWrite_runs hs ?_,
      fun hi => imageWrite_runs hs ?_, patch_ends hs hx hopen n j v⟩⟩, execNvMarginCheck_down, fun ha =>
    ⟨fun h => execNvMarginCheck_same (State.marginCheck_sound h), fun hbank hopen hd => ?_, fun hbank hopen hd => task_runs ha hd rfl ?_,
      awake_runs ha rfl s.lifeHours_records⟩⟩
  · rw [State.storeRequest_length hlen]
    exact State.respond_only _ _ _ _ _
  · rw [State.storeRequest_refused hlen hx]
    exact State.respond_only _ _ _ _ _
  · rw [State.imageWrite_level hx]
    exact State.respond_only _ _ _ _ _
  · rw [State.patchWrite_level hx]
    exact State.respond_only _ _ _ _ _
  · exact congrArg Host.Outcome.next ((State.ifRequest_of hs).trans (State.storeRequest_waits hlen hx hopen))
  · rw [State.imageWrite_busy hx hopen]
    exact State.respond_only _ _ _ _ _
  · rw [State.patchWrite_busy hx hopen]
    exact State.respond_only _ _ _ _ _
  · rw [State.imageWrite_malformed hx hopen hi]
    exact State.respond_only _ _ _ _ _
  · rw [State.imageWrite_committed hx hopen hi]
    obtain ⟨hin, -, hresult, -⟩ := s.o_stored (stampImage img 3) false
    exact ⟨State.respond_answers _ _ _ _ _, (State.o_respond_nv _ _ _ _ _ (by decide)).trans hin,
      (State.o_respond_nv _ _ _ _ _ (by decide)).trans hresult⟩
  · exact congrArg Host.Outcome.next ((State.ifTask_of ha hd).trans (State.marginCheck_waits hbank hopen))
  · rw [State.marginCheck_refreshes hbank hopen]
    obtain ⟨hin, -, hresult, -⟩ := s.o_stored (stampImage s.imageNow 2) true
    exact ⟨hin, s.stored_refreshes _, hresult, s.stored_since _ _, (s.stored_leaves _ _).cufel⟩

end Sys2Proof.Machine
end

section
/-! SUPPORT. APPLY captures what is pending, and RESTORE_DEFAULTS writes the defaults or stores them (R492, R509). -/
namespace Sys2Proof.Machine

variable {s t : State} {q : Req} {u : List Upset} {e : StoreEnd}

/-! ### APPLY (R110, R492) -/

theorem apply_runs {P : State → Prop} (hs : s.servedFor q = true)
    (h : P (if s.badLength q 0 then s.respond q 0x07 .length (bytesLE 6 0) else s.apply.respond q 0x07 .ok (bytesLE 6 s.applyTurn))) :
    Runs (.apply q) s P :=
  request_runs hs rfl h

/-- A channel's host-written LUT joins those that are due. -/
def Chan.captured (x : Chan) (tick : Nat) : Chan :=
  match x.host with
  | some p => { x with host := none, hostDue := x.hostDue ++ [{ p with applied := some tick }] }
  | none => x

/-- Every host-written LUT is due. -/
def State.lutsCaptured (s : State) : State := s.mapChans fun _ x => x.captured (s.tick + 2)

/-- The values that wait join those that an earlier APPLY captured. -/
def State.valuesCaptured (s : State) : List (Nat × List (Nat × Nat)) :=
  if s.shadowPend.isEmpty then s.applied else s.applied ++ [(s.tick + 2, s.shadowPend)]

/-- The state with the captured values, for the turn marker x. -/
def State.withCaptured (t : State) (x : Nat) (a : List (Nat × List (Nat × Nat))) : State :=
  { t.setO Obj.NV_APPLY_X x with applied := a, shadowPend := [] }

theorem State.apply_eq (s : State) : s.apply = s.lutsCaptured.withCaptured s.applyTurn s.valuesCaptured := by
  obtain ⟨x, hx⟩ := s.mapChans_eq fun _ x => x.captured (s.tick + 2)
  unfold State.apply
  extract_lets t take a v
  have hv : v = s.lutsCaptured := rfl
  clear_value v
  have hturn : v.applyTurn = s.applyTurn := by
    rw [hv, State.lutsCaptured, hx]
    rfl
  subst hv
  rw [← hturn]
  rfl

theorem State.withCaptured_shows (t : State) (x : Nat) (a : List (Nat × List (Nat × Nat))) :
    (t.withCaptured x a).o Obj.NV_APPLY_X = x ∧ (t.withCaptured x a).shadowPend = [] ∧ (t.withCaptured x a).applied = a ∧
    (t.withCaptured x a).chans = t.chans ∧ (t.withCaptured x a).keepsObjects t [Obj.NV_APPLY_X] ∧
    (t.withCaptured x a).keepsMemories t :=
  ⟨State.o_setO_self _ _ _, rfl, rfl, rfl, State.keepsObjects_setO (State.keepsObjects_refl t _) (by decide) _, rfl, rfl, rfl⟩

theorem State.lutsCaptured_leaves (s : State) : s.lutsCaptured.obj = s.obj ∧ s.lutsCaptured.keepsMemories s := by
  obtain ⟨x, hx⟩ := s.mapChans_eq fun _ x => x.captured (s.tick + 2)
  rw [State.lutsCaptured, hx]
  exact ⟨rfl, rfl, rfl, rfl⟩

theorem State.chan_apply (s : State) (c : Ch) : s.apply.chan c = (s.chan c).captured (s.tick + 2) := by
  obtain ⟨-, -, -, hchans, -, -⟩ := s.lutsCaptured.withCaptured_shows s.applyTurn s.valuesCaptured
  rw [State.apply_eq, State.chan, hchans]
  exact s.chan_mapChans (fun _ x => x.captured (s.tick + 2)) c

theorem Chan.captured_shows (x : Chan) (tick : Nat) : (x.captured tick).host = none ∧ (x.captured tick).lut = x.lut ∧
    (x.host = none → (x.captured tick).hostDue = x.hostDue) ∧
    ∀ p ∈ x.host, (x.captured tick).hostDue = x.hostDue ++ [{ p with applied := some tick }] := by
  unfold Chan.captured
  cases hhost : x.host with
  | none => exact ⟨hhost, rfl, fun _ => rfl, fun p hp => absurd hp (by simp)⟩
  | some p =>
    refine ⟨rfl, rfl, fun h => absurd h (by simp), fun p' hp => ?_⟩
    rw [Option.mem_some_iff.mp hp]

/-- What APPLY changes besides the channels' host-written LUTs. -/
theorem State.apply_shows (s : State) : s.apply.o Obj.NV_APPLY_X = s.applyTurn ∧ s.apply.shadowPend = [] ∧
    s.apply.applied = (if s.shadowPend = [] then s.applied else s.applied ++ [(s.tick + 2, s.shadowPend)]) ∧
    s.apply.keepsObjects s [Obj.NV_APPLY_X] ∧ s.apply.keepsMemories s := by
  obtain ⟨hturn, hpend, happlied, -, hkept, hmem⟩ := s.lutsCaptured.withCaptured_shows s.applyTurn s.valuesCaptured
  obtain ⟨hobj, hluts⟩ := s.lutsCaptured_leaves
  rw [State.apply_eq]
  refine ⟨hturn, hpend, happlied.trans ?_, fun k hk => (hkept k hk).trans (congrArg (fun l => sget (objDefault k) l k) hobj),
    State.keepsMemories_trans hmem hluts⟩
  unfold State.valuesCaptured
  exact if_congr List.isEmpty_iff rfl rfl

/-- The turn marker of APPLY is the first at least two crossings away, where the count does not wrap. -/
theorem State.applyTurn_first (hx : s.xc + 2 < 2 ^ 48 - 2 ^ 24) (hpos : s.o Obj.XC_TURN_LEN ≠ 0) (hlen : s.o Obj.XC_TURN_LEN < 2 ^ 24) :
    s.applyTurn % s.o Obj.XC_TURN_LEN = 0 ∧ s.xc + 2 ≤ s.applyTurn ∧ s.applyTurn < s.xc + 2 + s.o Obj.XC_TURN_LEN := by
  have hdiv : s.xc + 2 + s.o Obj.XC_TURN_LEN - 1 = s.o Obj.XC_TURN_LEN * ceilDiv (s.xc + 2) (s.o Obj.XC_TURN_LEN) +
      (s.xc + 2 + s.o Obj.XC_TURN_LEN - 1) % s.o Obj.XC_TURN_LEN := (Nat.div_add_mod _ _).symm
  have hmod := Nat.mod_lt (s.xc + 2 + s.o Obj.XC_TURN_LEN - 1) (Nat.pos_of_ne_zero hpos)
  have hturn : s.applyTurn = s.o Obj.XC_TURN_LEN * ceilDiv (s.xc + 2) (s.o Obj.XC_TURN_LEN) := by
    have hcomm := Nat.mul_comm (s.o Obj.XC_TURN_LEN) (ceilDiv (s.xc + 2) (s.o Obj.XC_TURN_LEN))
    rw [hcomm] at hdiv ⊢
    exact if_pos (by omega)
  rw [hturn]
  exact ⟨Nat.mul_mod_right _ _, by omega, by omega⟩

theorem State.lutsWaiting_none (h : ∀ c, (t.chan c).host = none) : t.lutsWaiting = 0 := by
  simp [State.lutsWaiting, h]

/-- APPLY with its answer. -/
theorem apply_captures (hs : s.servedFor q = true) (hlen : s.badLength q 0 = false) : Runs (.apply q) s (fun t =>
    t.answers q 0x07 .ok (bytesLE 6 s.applyTurn) ∧ t.o Obj.NV_APPLY_X = s.applyTurn ∧ t.shadowPend = [] ∧
    t.applied = (if s.shadowPend = [] then s.applied else s.applied ++ [(s.tick + 2, s.shadowPend)]) ∧ t.lutsWaiting = 0 ∧
    t.keepsObjects s [Obj.NV_APPLY_X, Obj.CHK_ALIVE_TXN, Obj.CHK_ALIVE_TXC] ∧ t.keepsMemories s ∧
    (s.xc + 2 < 2 ^ 48 - 2 ^ 24 → s.o Obj.XC_TURN_LEN ≠ 0 → s.o Obj.XC_TURN_LEN < 2 ^ 24 →
      s.applyTurn % s.o Obj.XC_TURN_LEN = 0 ∧ s.xc + 2 ≤ s.applyTurn ∧ s.applyTurn < s.xc + 2 + s.o Obj.XC_TURN_LEN) ∧
    (∀ c : Ch, (t.chan c).host = none ∧ (t.chan c).lut = (s.chan c).lut ∧
      ((s.chan c).host = none → (t.chan c).hostDue = (s.chan c).hostDue) ∧
      ∀ p ∈ (s.chan c).host, (t.chan c).hostDue = (s.chan c).hostDue ++ [{ p with applied := some (s.tick + 2) }])) := by
  obtain ⟨hturn, hpend, happlied, hkept, hmem⟩ := s.apply_shows
  have hchan (c : Ch) : (s.apply.respond q 0x07 .ok (bytesLE 6 s.applyTurn)).chan c = (s.chan c).captured (s.tick + 2) := by
    rw [State.chan, State.chans_respond]
    exact s.chan_apply c
  refine apply_runs hs ?_
  rw [if_neg (by simp [hlen])]
  refine ⟨State.respond_answers _ _ _ _ _, (State.o_respond_nv _ _ _ _ _ (by decide)).trans hturn, ?_, ?_, ?_, ?_,
    State.keepsMemories_respond hmem _ _ _ _, State.applyTurn_first, fun c => ?_⟩
  · rw [State.shadowPend_respond, hpend]
  · rw [State.applied_respond, happlied]
  · refine State.lutsWaiting_none fun c => ?_
    rw [hchan]
    exact (Chan.captured_shows _ _).1
  · exact State.keepsObjects_respond (State.keepsObjects_mono hkept (by decide)) _ _ _ _ (by decide) (by decide)
  · rw [hchan]
    exact Chan.captured_shows _ _

/-! ### RESTORE_DEFAULTS is judged (R372, R456, R464, R467, R509) -/

/-- The three scopes of RESTORE_DEFAULTS are one request with two choices. -/
theorem restore_runs {P : State → Prop} (hs : s.servedFor q = true) (h : ∀ values image u e, P (s.restoreDefaults q values image u e)) :
    Runs (.restoreDefaultsValues q) s P ∧ Runs (.restoreDefaultsImage q u e) s P ∧ Runs (.restoreDefaultsBoth q u e) s P :=
  ⟨request_runs hs rfl (h true false [] .committed), request_runs hs rfl (h false true u e), request_runs hs rfl (h true true u e)⟩

theorem State.restoreDefaults_length {values image : Bool} (h : s.badLength q 1 = true) :
    s.restoreDefaults q values image u e = s.respond q 0x06 .length [] := by
  simp [State.restoreDefaults, h]

theorem State.restoreDefaults_level {values image : Bool} (h : s.badLength q 1 = false) (hx : s.isExpert q = false) :
    s.restoreDefaults q values image u e = s.respond q 0x06 .expertRequired [] := by
  simp [State.restoreDefaults, h, hx]

theorem State.restoreDefaults_scope {values image : Bool} (h : s.badLength q 1 = false) (hx : s.isExpert q = true)
    (hb : s.badScope q = true) : s.restoreDefaults q values image u e = s.respond q 0x06 .outOfRange [] := by
  simp [State.restoreDefaults, h, hx, hb]

theorem State.restoreDefaults_waits {values : Bool} (h : s.badLength q 1 = false) (hx : s.isExpert q = true)
    (hb : s.badScope q = false) (hopen : s.nvOpen = true) : s.restoreDefaults q values true u e = s := by
  simp [State.restoreDefaults, h, hx, hb, hopen]

theorem State.restoreDefaults_running {image : Bool} (h : s.badLength q 1 = false) (hx : s.isExpert q = true)
    (hb : s.badScope q = false) (himg : (image && s.nvOpen) = false) (hr : s.restoreBlocked = true) :
    s.restoreDefaults q true image u e = s.respond q 0x06 .functionRunning [] := by
  simp only [State.restoreDefaults, h, hx, hb, himg, hr, Bool.not_true, Bool.false_eq_true, if_false, Bool.and_self, if_true]

/-- What an accepted RESTORE_DEFAULTS does. -/
theorem State.restoreDefaults_acts {values image : Bool} (h : s.badLength q 1 = false) (hx : s.isExpert q = true)
    (hb : s.badScope q = false) (himg : (image && s.nvOpen) = false) (hr : (values && s.restoreBlocked) = false) :
    s.restoreDefaults q values image u e =
      if image then (if values then s.restoreValues else s).storeAnswer q 0x06 [] 1 (ownImage 1 0 []) u e
      else (if values then s.restoreValues else s).respond q 0x06 .ok [] := by
  simp only [State.restoreDefaults, h, hx, hb, himg, hr, Bool.not_true, Bool.false_eq_true, if_false]

theorem State.badScope_of_mem {b : List Byte} (hb : b ∈ s.queuedBody q) (h : fromLE b = 0 ∨ 3 < fromLE b) : s.badScope q = true := by
  unfold State.badScope
  rw [Option.mem_def.mp hb]
  simp only [Option.any_some, Bool.not_eq_true', Bool.and_eq_false_iff, decide_eq_false_iff_not]
  omega

/-! ### The defaults are written under their classes (R509) -/

theorem State.o_laneTest_bank (s : State) {i : Nat} (hi : i < 25) (v : Nat) : (s.laneTest i v).o Obj.NV_BANK = s.o Obj.NV_BANK := by
  have hstate : Obj.NV_BANK ≠ Obj.LN_ASTATE i := ne_of_linkPlain (linkPlain_lane hi (by decide)) (by decide)
  have htest : Obj.NV_BANK ≠ Obj.LN_TEST i := by
    simp only [Obj.NV_BANK, Obj.LN_TEST, objKey]
    omega
  have hselect : (s.selectTest i v).o Obj.NV_BANK = s.o Obj.NV_BANK := by
    have hset : (s.setO (Obj.LN_TEST i) v).o Obj.NV_BANK = s.o Obj.NV_BANK := State.o_setO_ne _ _ htest
    unfold State.selectTest
    dsimp only
    split <;> exact hset
  have hmove (w : State) (was : Nat) : (w.testMove i v was).o Obj.NV_BANK = w.o Obj.NV_BANK := by
    have hfall : ((w.laneFall i 1).tryScan i).o Obj.NV_BANK = w.o Obj.NV_BANK :=
      (State.o_tryScan_ne _ hstate).trans (State.o_laneFall_ne _ 1 hstate)
    unfold State.testMove
    split
    · rfl
    · split
      · exact State.o_setO_ne _ _ hstate
      · split
        · split
          · rfl
          · exact hfall
        · exact hfall
  rw [State.laneTest_eq]
  exact ((State.follow_linkFrame _).objs _ (by decide)).trans ((hmove _ _).trans hselect)

theorem family_lt {base count sub k i : Nat} (h : family base count sub k = some i) : i < count := by
  unfold family at h
  split at h
  · next hin =>
    have hi := Option.some.inj h
    omega
  · cases h

theorem State.putShadow_leaves (s : State) (k v : Nat) : (s.putShadow k v).keepsMemories s ∧ (s.putShadow k v).obj = s.obj := by
  unfold State.putShadow
  split <;> exact ⟨⟨rfl, rfl, rfl⟩, rfl⟩

/-- A value that its object accepts leaves the memories, and the bank in force. -/
theorem State.acceptWrite_leaves (s : State) (k : Nat) (d : ObjDesc) (v : Nat) :
    (s.acceptWrite k d v).keepsMemories s ∧ (s.acceptWrite k d v).o Obj.NV_BANK = s.o Obj.NV_BANK := by
  unfold State.acceptWrite
  split
  · obtain ⟨hmem, hobj⟩ := s.putShadow_leaves k v
    exact ⟨hmem, congrArg (fun l => sget (objDefault Obj.NV_BANK) l Obj.NV_BANK) hobj⟩
  · split
    · next i hi => exact ⟨(s.laneTest_kept (family_lt hi) v).2, s.o_laneTest_bank (family_lt hi) v⟩
    · split
      · next hkey => exact ⟨⟨rfl, rfl, rfl⟩, State.o_setO_ne _ _ (hkey ▸ by decide)⟩
      · split <;> exact ⟨⟨rfl, rfl, rfl⟩, rfl⟩

theorem State.restoreOne_leaves (s : State) (k : Nat) :
    (s.restoreOne k).keepsMemories s ∧ (s.restoreOne k).o Obj.NV_BANK = s.o Obj.NV_BANK := by
  unfold State.restoreOne
  split
  · exact s.acceptWrite_leaves k _ _
  · exact ⟨⟨rfl, rfl, rfl⟩, rfl⟩

theorem State.foldl_restoreOne_leaves (ks : List Nat) (s : State) :
    (ks.foldl State.restoreOne s).keepsMemories s ∧ (ks.foldl State.restoreOne s).o Obj.NV_BANK = s.o Obj.NV_BANK := by
  induction ks generalizing s with
  | nil => exact ⟨⟨rfl, rfl, rfl⟩, rfl⟩
  | cons k ks ih =>
    obtain ⟨hmem, hbank⟩ := ih (s.restoreOne k)
    obtain ⟨hmem', hbank'⟩ := s.restoreOne_leaves k
    exact ⟨State.keepsMemories_trans hmem hmem', hbank.trans hbank'⟩

/-- RESTORE_DEFAULTS of the values. -/
theorem State.restore_values (h : s.badLength q 1 = false) (hb : s.badScope q = false) (hx : s.isExpert q = true)
    (hr : s.restoreBlocked = false) :
    (s.restoreDefaults q true false u e).answers q 0x06 .ok [] ∧
    (s.restoreDefaults q true false u e).livePend = (storedKeys.foldl State.restoreOne s).livePend ∧
    (s.restoreDefaults q true false u e).shadowPend = (storedKeys.foldl State.restoreOne s).shadowPend ∧
    (s.restoreDefaults q true false u e).keepsMemories s := by
  rw [State.restoreDefaults_acts h hx hb rfl (by simp [hr]), if_neg Bool.false_ne_true, if_pos rfl]
  unfold State.restoreValues
  generalize storedKeys = ks
  exact ⟨State.respond_answers _ _ _ _ _, State.livePend_respond _ _ _ _ _, State.shadowPend_respond _ _ _ _ _,
    State.keepsMemories_respond (State.foldl_restoreOne_leaves ks s).1 _ _ _ _⟩

/-- RESTORE_DEFAULTS of the image. -/
theorem State.restore_image (h : s.badLength q 1 = false) (hb : s.badScope q = false) (hx : s.isExpert q = true)
    (hopen : s.nvOpen = false) : s.restoreDefaults q false true [] .committed =
      s.storeAnswer q 0x06 [] 1 (ownImage 1 0 []) [] .committed := by
  rw [State.restoreDefaults_acts h hx hb (by simp [hopen]) rfl, if_pos rfl, if_neg Bool.false_ne_true]

/-- RESTORE_DEFAULTS of both. -/
theorem State.restore_both (h : s.badLength q 1 = false) (hb : s.badScope q = false) (hx : s.isExpert q = true)
    (hr : s.restoreBlocked = false) (hopen : s.nvOpen = false) :
    (s.restoreDefaults q true true [] .committed).answers q 0x06 .ok [] ∧
    (s.restoreDefaults q true true [] .committed).livePend = (storedKeys.foldl State.restoreOne s).livePend ∧
    (s.restoreDefaults q true true [] .committed).o Obj.NV_BANK = s.targetBank ∧
    (s.restoreDefaults q true true [] .committed).o Obj.NV_LAST_RESULT = 1 ∧
    (s.restoreDefaults q true true [] .committed).keepsSpmOutside s 0x5BC000 0x5C4000 ∧
    (s.restoreDefaults q true true [] .committed).rankMem = s.rankMem := by
  rw [State.restoreDefaults_acts h hx hb (by simp [hopen]) (by simp [hr]), if_pos rfl, if_pos rfl]
  unfold State.restoreValues
  generalize storedKeys = ks
  obtain ⟨⟨hspm, hrank, -⟩, hbank⟩ := State.foldl_restoreOne_leaves ks s
  have htarget : (ks.foldl State.restoreOne s).targetBank = s.targetBank := by
    unfold State.targetBank
    rw [hbank]
  obtain ⟨hans, hin, -, hresult, -, hout, hranks, hlive⟩ := (ks.foldl State.restoreOne s).stored_answered q 0x06 [] 1 (ownImage 1 0 [])
  exact ⟨hans, hlive, hin.trans htarget, hresult, fun a ha => (hout a ha).trans (congrArg (memGet · a) hspm), hranks.trans hrank⟩

/-- Settles O38: APPLY captures all that waits, and RESTORE_DEFAULTS is judged before it writes the defaults or stores their image. -/
theorem applyAndRestoreActOnTheirObjects : Obligations.ApplyAndRestoreActOnTheirObjects := by
  unfold Obligations.ApplyAndRestoreActOnTheirObjects
  intro q u e s hs
  refine ⟨fun h => apply_runs hs ?_, fun h => restore_runs hs fun values image u e => ?_,
    fun h hx ⟨b, hb, hscope⟩ => restore_runs hs fun values image u e => ?_, apply_captures hs,
    fun h hx => restore_runs hs fun values image u e => ?_, fun h hb hx hr => ⟨request_runs hs rfl ?_, fun hopen => request_runs hs rfl ?_⟩,
    fun h hb hx hopen => ⟨?_, ?_⟩, fun h hb hx => ⟨fun hr => request_runs hs rfl (State.restore_values h hb hx hr),
      fun hopen => request_runs hs rfl ?_, fun hr hopen => request_runs hs rfl (State.restore_both h hb hx hr hopen)⟩⟩
  · rw [if_pos h]
    exact State.respond_only _ _ _ _ _
  · rw [State.restoreDefaults_length h]
    exact State.respond_only _ _ _ _ _
  · rw [State.restoreDefaults_scope h hx (State.badScope_of_mem hb hscope)]
    exact State.respond_only _ _ _ _ _
  · rw [State.restoreDefaults_level h hx]
    exact State.respond_only _ _ _ _ _
  · rw [State.restoreDefaults_running h hx hb rfl hr]
    exact State.respond_only _ _ _ _ _
  · rw [State.restoreDefaults_running h hx hb (by simp [hopen]) hr]
    exact State.respond_only _ _ _ _ _
  · exact congrArg Host.Outcome.next ((State.ifRequest_of hs).trans (State.restoreDefaults_waits h hx hb hopen))
  · exact congrArg Host.Outcome.next ((State.ifRequest_of hs).trans (State.restoreDefaults_waits h hx hb hopen))
  · rw [State.restore_image h hb hx hopen]
    obtain ⟨hans, hin, hgen, hresult, -, hout, hranks, hlive⟩ := s.stored_answered q 0x06 [] 1 (ownImage 1 0 [])
    exact ⟨hans, hlive, hin, hgen, hresult, hout, hranks⟩

end Sys2Proof.Machine
end

section
/-! SUPPORT. The gate of a boot step, and the steps of the firmware and the scratchpad (R272, R379, R380, R512, R531). -/
namespace Sys2Proof.Machine

variable {s t : State} {n us : Nat} {after : List Nat} {b : BootStep}

/-! ### The gate (R2, R40, R531, R591) -/

theorem bootStart_runs {us : BitVec 32} {P : State → Prop} (h : P (s.bootStep b us.toNat)) : Runs (.bootStart b us) s P := ⟨_, rfl, h⟩

theorem execBootStart_same {us : BitVec 32} (h : s.bootStep b us.toNat = s) : exec (.bootStart b us) s = .next s :=
  congrArg Host.Outcome.next h

/-- What every step needs: the device boots with a clock, and no freeze holds. -/
theorem stepDue_stopped (h : s.o Obj.PWR_STATE ≠ 1 ∨ s.o Obj.CLK_STATE = 5 ∨ s.frz.frozen = true) : s.stepDue n after = false := by
  rcases h with h | h | h <;> simp [State.stepDue, h]

/-- A step that is complete, or for which RST_N is low, is not due. -/
theorem stepDue_over (hn : n ≠ 1) (h : s.power.rstN = true ∨ s.ob Obj.PWR_BOOT_STEP n = true) : s.stepDue n after = false := by
  rcases h with h | h <;> simp [State.stepDue, h, hn]

/-- A step that depends on one that is not complete is not due. -/
theorem stepDue_early {m : Nat} (hm : m ∈ after) (h : s.ob Obj.PWR_BOOT_STEP m = false) : s.stepDue n after = false := by
  have hall : after.all (fun m => s.ob Obj.PWR_BOOT_STEP m) = false := List.all_eq_false.mpr ⟨m, hm, by simp [h]⟩
  simp [State.stepDue, hall]

/-- A step with work of the supervisor waits while it restarts. -/
theorem stepDue_down (hn : [4, 7, 8].contains n = true) (h : s.cufel.down = true) : s.stepDue n after = false := by
  simp only [State.stepDue, h, hn, Bool.and_self, Bool.not_true, Bool.and_false, Bool.false_and]

/-- The factory test role starts no data path. -/
theorem stepDue_factory (hn : 6 < n) (h : s.o Obj.CF_ROLE = 3) : s.stepDue n after = false := by
  have hlate : ¬ n ≤ 6 := by omega
  simp [State.stepDue, h, hlate]

/-- A device that boots with a clock and no freeze. -/
structure State.Boots (s : State) : Prop where
  power : s.o Obj.PWR_STATE = 1
  clock : s.o Obj.CLK_STATE ≠ 5
  thawed : s.frz.frozen = false

theorem State.Boots.stepDue (h : s.Boots) (hrst : n = 1 ∨ s.power.rstN = false) (hopen : s.ob Obj.PWR_BOOT_STEP n = false)
    (hserves : [4, 7, 8].contains n = false ∨ s.cufel.down = false) (hrole : n ≤ 6 ∨ s.o Obj.CF_ROLE ≠ 3)
    (hafter : after.all (fun m => s.ob Obj.PWR_BOOT_STEP m) = true) : s.stepDue n after = true := by
  have hup : (s.cufel.down && [4, 7, 8].contains n) = false := by
    rcases hserves with hs | hs <;> simp only [hs, Bool.and_false, Bool.false_and]
  have hpath : (decide (n ≤ 6) || s.o Obj.CF_ROLE != 3) = true := by
    rcases hrole with hr | hr <;> simp [hr]
  have hpin : (n == 1 || !s.power.rstN) = true := by
    rcases hrst with hr | hr <;> simp [hr]
  unfold State.stepDue
  rw [hup, hpath, hpin, hafter, hopen, h.thawed, h.power]
  simp [h.clock]

/-- A step that completes sets its bit and its trace word, and nothing else. -/
theorem State.stepDone_shows (s : State) (n us : Nat) : (s.stepDone n us).ob Obj.PWR_BOOT_STEP n = true ∧
    (s.stepDone n us).power = { s.power with trace := s.power.trace.set n us } ∧
    (s.stepDone n us).keepsObjects s [Obj.PWR_BOOT_STEP] ∧ { s.stepDone n us with obj := s.obj, power := s.power } = s :=
  ⟨State.ob_setOb_self s _ _ _, rfl, State.keepsObjects_setO (State.keepsObjects_refl s _) (by decide) _, rfl⟩

/-! ### Conditions of a boot (R550) -/

/-- The objects of a condition that arises, with the event before it. -/
def condKeys (n : Nat) : List Nat := [Obj.FLT_LOG_LOST, Obj.FLT_FAULTN, Obj.FLT_ACTIVE, Obj.FLT_LATCHED, Obj.FLT_COND_CNT n]

/-- A condition that arises behind its event. -/
def State.condNoted (s : State) (code unit : Nat) (d : List Byte) (n : Nat) : State := (s.stage code 0 unit d).arise n

theorem State.arise_keepsObjects (s : State) (n : Nat) :
    (s.arise n).keepsObjects s [Obj.FLT_FAULTN, Obj.FLT_ACTIVE, Obj.FLT_LATCHED, Obj.FLT_COND_CNT n] :=
  State.keepsObjects_trans (State.keepsObjects_mono (State.refreshFaultN_keepsObjects _) (by simp))
    (State.keepsObjects_bump (State.keepsObjects_setOb (State.keepsObjects_setOb (State.keepsObjects_refl s _) (by simp) _ _)
      (by simp) _ _) (by simp))

theorem State.arise_keepsButObjects (s : State) (n : Nat) : (s.arise n).keepsButObjects s :=
  State.keepsButObjects_trans (State.refreshFaultN_keepsButObjects _) (State.keepsButObjects_bump
    (State.keepsButObjects_setO (State.keepsButObjects_setO s.keepsButObjects_refl _ _) _ _) _)

theorem State.arise_active (s : State) (n : Nat) : (s.arise n).ob Obj.FLT_ACTIVE n = true := by
  have hcount : Obj.FLT_ACTIVE ≠ Obj.FLT_COND_CNT n := by
    simp only [Obj.FLT_ACTIVE, Obj.FLT_COND_CNT, objKey]
    omega
  have hkept : (s.arise n).o Obj.FLT_ACTIVE = (s.setOb Obj.FLT_ACTIVE n true).o Obj.FLT_ACTIVE :=
    (State.refreshFaultN_keepsObjects _ _ (by decide)).trans ((State.o_bump_ne _ hcount).trans (State.o_setO_ne _ _ (by decide)))
  exact (State.ob_of_o hkept).trans (State.ob_setOb_self _ _ _ _)

/-- Only objects and the staged log entries differ from s. -/
def State.keepsButLog (t s : State) : Prop := { t with obj := s.obj, log := s.log } = s

theorem State.condNoted_shows (s : State) (code unit : Nat) (d : List Byte) (n : Nat) :
    (s.condNoted code unit d n).ob Obj.FLT_ACTIVE n = true ∧ (s.condNoted code unit d n).keepsObjects s (condKeys n) ∧
    (s.condNoted code unit d n).keepsButLog s := by
  have harise := State.keepsObjects_mono ((s.stage code 0 unit d).arise_keepsObjects n)
    (show _ ⊆ condKeys n from fun _ h => List.mem_cons_of_mem _ h)
  have hstage := State.keepsObjects_mono (s.stage_keepsObjects code 0 unit d) (show _ ⊆ condKeys n by simp [condKeys])
  refine ⟨State.arise_active _ n, State.keepsObjects_trans harise hstage, ?_⟩
  exact (congrArg (fun z : State => { z with obj := s.obj, log := s.log }) ((s.stage code 0 unit d).arise_keepsButObjects n) :).trans
    (s.stage_frame code 0 unit d)

/-! ### Step 3: repairs, firmware, check units (R272, R379, R500, R512) -/

theorem State.setRepairs_shows (s : State) (p : Repairs) : (s.setRepairs p).memUnit = { s.memUnit with rows := p.rows, cols := p.cols } ∧
    (s.setRepairs p).o Obj.SPM_SPARE_ROWS = p.rows.length ∧ (s.setRepairs p).o Obj.SPM_SPARE_COLS = p.cols.length ∧
    (s.setRepairs p).keepsObjects s [Obj.SPM_SPARE_ROWS, Obj.SPM_SPARE_COLS] ∧
    { s.setRepairs p with obj := s.obj, memUnit := s.memUnit } = s :=
  ⟨rfl, (State.o_setO_ne _ _ (by decide)).trans (State.o_setO_self _ _ _), State.o_setO_self _ _ _,
    State.keepsObjects_setO (State.keepsObjects_setO (fun _ _ => rfl) (by decide) _) (by decide) _, rfl⟩

/-- The repairs are switched in, and the records that were ignored or torn counted. -/
def State.repairsLoaded (s : State) (fuse : List Nat) : State :=
  (s.setRepairs (switchIn (fuse ++ s.repairRecords)).1).setO Obj.SPM_REPAIR_BAD
    (clip 255 ((switchIn (fuse ++ s.repairRecords)).2 + s.repairsTorn))

/-- The firmware's version, and the check units' self-test. -/
def State.versionShown (s : State) (bist : Nat) (patchOk : Bool) : State :=
  ((if s.patchHeld then s.check 37 s.patchImage else s).setO Obj.CF_FW_VER
    (0x10000 + if s.patchHeld && patchOk then s.nv.patch.2 else 0)).setO Obj.CHK_BIST bist

/-- The firmware RAM is loaded. -/
def State.ramLoaded (s : State) : State := { s with memUnit := { s.memUnit with fwRam := [], fwLoads := s.memUnit.fwLoads + 1 } }

/-- Failed check units hold condition 15. -/
def State.bistNoted (s : State) (bist : Nat) : State := if bist = 0 then s else s.condNoted 0x0408 0 (bytesLE 5 bist) 15

theorem State.bootFirmware_eq (s : State) (bist : Nat) (patchOk : Bool) (fuse : List Nat) :
    s.bootFirmware bist patchOk fuse = (((s.repairsLoaded fuse).versionShown bist patchOk).ramLoaded.bistNoted bist).bootCal := by
  have hnv (c : Prop) [Decidable c] (v : State) (l : List Byte) : (if c then v.check 37 l else v).patchHeld = v.patchHeld ∧
      (if c then v.check 37 l else v).nv = v.nv := by
    split <;> exact ⟨rfl, rfl⟩
  unfold State.bootFirmware
  extract_lets r v w x y z
  have hv : v = s.repairsLoaded fuse := rfl
  clear_value v
  subst hv
  have hw := hnv ((s.repairsLoaded fuse).patchHeld = true) (s.repairsLoaded fuse) (s.repairsLoaded fuse).patchImage
  have hx : x = (s.repairsLoaded fuse).versionShown bist patchOk := by
    show (w.setO Obj.CF_FW_VER (0x10000 + if w.patchHeld && patchOk then w.nv.patch.2 else 0)).setO Obj.CHK_BIST bist = _
    rw [show w.patchHeld = _ from hw.1, show w.nv = _ from hw.2]
    rfl
  clear_value x
  subst hx
  have hz : z = ((s.repairsLoaded fuse).versionShown bist patchOk).ramLoaded := rfl
  clear_value z
  subst hz
  rfl

theorem State.bootCal_leaves (s : State) : s.bootCal.keepsObjects s [Obj.TDC_STATE] ∧ s.bootCal.keepsButObjects s := by
  unfold State.bootCal
  split
  · exact ⟨State.keepsObjects_setO (State.keepsObjects_refl s _) (by decide) 1, State.keepsButObjects_setO s.keepsButObjects_refl _ _⟩
  · exact ⟨State.keepsObjects_refl s _, s.keepsButObjects_refl⟩

theorem State.bistNoted_leaves (s : State) (bist : Nat) :
    (s.bistNoted bist).keepsObjects s (condKeys 15) ∧ (s.bistNoted bist).keepsButLog s := by
  unfold State.bistNoted
  split
  · exact ⟨State.keepsObjects_refl s _, rfl⟩
  · exact (s.condNoted_shows _ _ _ 15).2

theorem State.repairsLoaded_shows (s : State) (fuse : List Nat) :
    (s.repairsLoaded fuse).memUnit = { s.memUnit with rows := (switchIn (fuse ++ s.repairRecords)).1.rows, cols := (switchIn (fuse ++ s.repairRecords)).1.cols } ∧
    (s.repairsLoaded fuse).o Obj.SPM_SPARE_ROWS = (switchIn (fuse ++ s.repairRecords)).1.rows.length ∧
    (s.repairsLoaded fuse).o Obj.SPM_SPARE_COLS = (switchIn (fuse ++ s.repairRecords)).1.cols.length ∧
    (s.repairsLoaded fuse).o Obj.SPM_REPAIR_BAD = clip 255 ((switchIn (fuse ++ s.repairRecords)).2 + s.repairsTorn) ∧
    (s.repairsLoaded fuse).keepsObjects s [Obj.SPM_SPARE_ROWS, Obj.SPM_SPARE_COLS, Obj.SPM_REPAIR_BAD] ∧
    { s.repairsLoaded fuse with obj := s.obj, memUnit := s.memUnit } = s := by
  obtain ⟨hunit, hrows, hcols, hkeep, hframe⟩ := s.setRepairs_shows (switchIn (fuse ++ s.repairRecords)).1
  refine ⟨hunit, (State.o_setO_ne _ _ (by decide)).trans hrows, (State.o_setO_ne _ _ (by decide)).trans hcols, State.o_setO_self _ _ _,
    State.keepsObjects_setO (State.keepsObjects_mono hkeep (by decide)) (by decide) _, ?_⟩
  exact hframe

/-- The objects that the version and the self-test show in. -/
def versionKeys : List Nat := [Obj.CHK_RUN 37, Obj.CF_FW_VER, Obj.CHK_BIST]

theorem State.versionShown_shows (s : State) (bist : Nat) (patchOk : Bool) :
    (s.versionShown bist patchOk).o Obj.CF_FW_VER = 0x10000 + (if s.patchHeld = true ∧ patchOk = true then s.nv.patch.2 else 0) ∧
    (s.versionShown bist patchOk).o Obj.CHK_BIST = bist ∧ (s.versionShown bist patchOk).keepsObjects s versionKeys ∧
    (s.versionShown bist patchOk).keepsButObjects s := by
  have hcheck : (if s.patchHeld then s.check 37 s.patchImage else s).keepsObjects s versionKeys ∧
      (if s.patchHeld then s.check 37 s.patchImage else s).keepsButObjects s := by
    split
    · exact ⟨State.keepsObjects_mono (s.check_keepsObjects _ _) (by decide), State.keepsButObjects_setO s.keepsButObjects_refl _ _⟩
    · exact ⟨State.keepsObjects_refl s _, s.keepsButObjects_refl⟩
  have hver : (0x10000 + if (s.patchHeld && patchOk) = true then s.nv.patch.2 else 0) =
      0x10000 + (if s.patchHeld = true ∧ patchOk = true then s.nv.patch.2 else 0) := by
    simp only [Bool.and_eq_true]
  refine ⟨(State.o_setO_ne _ _ (by decide)).trans ((State.o_setO_self _ _ _).trans hver), State.o_setO_self _ _ _, ?_, ?_⟩
  · exact State.keepsObjects_setO (State.keepsObjects_setO hcheck.1 (by decide) _) (by decide) _
  · exact State.keepsButObjects_setO (State.keepsButObjects_setO hcheck.2 _ _) _ _

/-- Step 3 leaves what it found (R272, R379, R512). -/
theorem State.bootFirmware_shows (s : State) (bist : Nat) (patchOk : Bool) (fuse : List Nat) :
    (s.bootFirmware bist patchOk fuse).o Obj.CHK_BIST = bist ∧
    (s.bootFirmware bist patchOk fuse).repairsNow = (switchIn (fuse ++ s.repairRecords)).1 ∧
    (s.bootFirmware bist patchOk fuse).o Obj.SPM_SPARE_ROWS = (s.bootFirmware bist patchOk fuse).memUnit.rows.length ∧
    (s.bootFirmware bist patchOk fuse).o Obj.SPM_SPARE_COLS = (s.bootFirmware bist patchOk fuse).memUnit.cols.length ∧
    (s.bootFirmware bist patchOk fuse).o Obj.SPM_REPAIR_BAD = min 255 ((switchIn (fuse ++ s.repairRecords)).2 + s.repairsTorn) ∧
    (s.bootFirmware bist patchOk fuse).o Obj.CF_FW_VER = 0x10000 + (if s.patchHeld = true ∧ patchOk = true then s.nv.patch.2 else 0) ∧
    (s.bootFirmware bist patchOk fuse).memUnit.fwRam = [] ∧
    (s.bootFirmware bist patchOk fuse).memUnit.fwLoads = s.memUnit.fwLoads + 1 ∧
    (bist ≠ 0 → (s.bootFirmware bist patchOk fuse).ob Obj.FLT_ACTIVE 15 = true) ∧
    (s.bootFirmware bist patchOk fuse).power = s.power ∧ (s.bootFirmware bist patchOk fuse).keepsMemories s ∧
    (s.bootFirmware bist patchOk fuse).o Obj.PWR_BOOT_STEP = s.o Obj.PWR_BOOT_STEP := by
  rw [State.bootFirmware_eq]
  obtain ⟨haunit, harows, hacols, habad, hakeep, haframe⟩ := s.repairsLoaded_shows fuse
  generalize s.repairsLoaded fuse = a at haunit harows hacols habad hakeep haframe ⊢
  have hheld : a.patchHeld = s.patchHeld := (congrArg State.patchHeld haframe :)
  have hpatch : a.nv = s.nv := (congrArg State.nv haframe :)
  obtain ⟨hbver, hbbist, hbkeep, hbframe⟩ := a.versionShown_shows bist patchOk
  rw [hheld, hpatch] at hbver
  generalize a.versionShown bist patchOk = v at hbver hbbist hbkeep hbframe ⊢
  have hvunit : v.ramLoaded.memUnit = { v.memUnit with fwRam := [], fwLoads := v.memUnit.fwLoads + 1 } := rfl
  have hvkeep : v.ramLoaded.keepsObjects v [] := fun _ _ => rfl
  have hvframe : { v.ramLoaded with memUnit := v.memUnit } = v := rfl
  have hactive : bist ≠ 0 → (v.ramLoaded.bistNoted bist).ob Obj.FLT_ACTIVE 15 = true := fun hbist => by
    rw [State.bistNoted, if_neg hbist]
    exact (v.ramLoaded.condNoted_shows _ _ _ 15).1
  obtain ⟨hdkeep, hdframe⟩ := v.ramLoaded.bistNoted_leaves bist
  generalize v.ramLoaded = c at hvunit hvkeep hvframe hactive hdkeep hdframe ⊢
  generalize c.bistNoted bist = d at hactive hdkeep hdframe ⊢
  obtain ⟨hekeep, heframe⟩ := d.bootCal_leaves
  generalize d.bootCal = e at hekeep heframe ⊢
  have hlate {k : Nat} (hk : k ∉ condKeys 15 ++ [Obj.TDC_STATE]) : e.o k = v.o k := by
    rw [List.mem_append, not_or] at hk
    exact (hekeep k hk.2).trans ((hdkeep k hk.1).trans (hvkeep k List.not_mem_nil))
  have hearly {k : Nat} (hk : k ∉ condKeys 15 ++ [Obj.TDC_STATE]) (hk' : k ∉ versionKeys) : e.o k = a.o k :=
    (hlate hk).trans (hbkeep k hk')
  have hunit : e.memUnit = { a.memUnit with fwRam := [], fwLoads := a.memUnit.fwLoads + 1 } := by
    have hed : e.memUnit = d.memUnit := (congrArg State.memUnit heframe :)
    have hdc : d.memUnit = c.memUnit := (congrArg State.memUnit hdframe :)
    have hva : v.memUnit = a.memUnit := (congrArg State.memUnit hbframe :)
    rw [hed, hdc, hvunit, hva]
  have hpower : e.power = s.power :=
    (congrArg State.power heframe :).trans ((congrArg State.power hdframe :).trans ((congrArg State.power hvframe :).trans
      ((congrArg State.power hbframe :).trans (congrArg State.power haframe :))))
  have hspm : e.spm = s.spm :=
    (congrArg State.spm heframe :).trans ((congrArg State.spm hdframe :).trans ((congrArg State.spm hvframe :).trans
      ((congrArg State.spm hbframe :).trans (congrArg State.spm haframe :))))
  have hranks : e.rankMem = s.rankMem :=
    (congrArg State.rankMem heframe :).trans ((congrArg State.rankMem hdframe :).trans ((congrArg State.rankMem hvframe :).trans
      ((congrArg State.rankMem hbframe :).trans (congrArg State.rankMem haframe :))))
  have hnvm : e.nvm = s.nvm :=
    (congrArg State.nvm heframe :).trans ((congrArg State.nvm hdframe :).trans ((congrArg State.nvm hvframe :).trans
      ((congrArg State.nvm hbframe :).trans (congrArg State.nvm haframe :))))
  refine ⟨(hlate (by decide)).trans hbbist, ?_, ?_, ?_, ?_, (hlate (by decide)).trans hbver, ?_, ?_, fun hbist => ?_, hpower,
    ⟨hspm, hranks, hnvm⟩, (hearly (by decide) (by decide)).trans (hakeep _ (by decide))⟩
  · unfold State.repairsNow
    rw [hunit, haunit]
  · rw [hearly (by decide) (by decide), harows, hunit, haunit]
  · rw [hearly (by decide) (by decide), hacols, hunit, haunit]
  · rw [hearly (by decide) (by decide), habad, clip_eq_min]
  · rw [hunit]
  · rw [hunit, haunit]
  · exact (State.ob_of_o (hekeep _ (by decide))).trans (hactive hbist)

/-! ### Step 6: the march and its repairs (R380, R381, R387) -/

/-- The cells that still fail with the repairs of the first march in place. -/
def State.cellsLeft (s : State) (first second : List Cell) : List Cell :=
  standingCells first second (s.repairsNow.subs (s.repairsNow.repair first))

/-- The scratchpad is zero, with the repairs of the march in place and their records kept. -/
def State.marched (s : State) (first second : List Cell) : State :=
  let t := (s.setRepairs (s.repairsNow.repair first)).setO Obj.SPM_DEFECTS (clip 65535 (toleratedWords (s.cellsLeft first second)))
  { t with spm := [], soiled := [], memUnit := { t.memUnit with fix := [], port := [] },
           power := { t.power with newRepairs := s.repairsNow.records (s.repairsNow.repair first) } }

/-- Words with more than one cell left stop the boot with condition 7. -/
def State.bootStopped (s : State) (w n : Nat) : State :=
  { s with power := { s.power with bootStop := true } }.condNoted 0x0306 (subOf w) (bytesLE 2 (clip 65535 n)) 7

theorem State.bootScratchpad_eq (s : State) (first second : List Cell) : s.bootScratchpad first second =
    match failedWords (s.cellsLeft first second) with
    | w :: r => (s.marched first second).bootStopped w (r.length + 1)
    | [] => s.marched first second := by
  unfold State.bootScratchpad
  rfl

theorem State.marched_shows (s : State) (first second : List Cell) : (s.marched first second).spm = [] ∧
    (s.marched first second).rankMem = s.rankMem ∧ (s.marched first second).nvm = s.nvm ∧
    (s.marched first second).repairsNow = s.repairsNow.repair first ∧
    (s.marched first second).power = { s.power with newRepairs := s.repairsNow.records (s.repairsNow.repair first) } ∧
    (s.marched first second).o Obj.SPM_SPARE_ROWS = (s.marched first second).memUnit.rows.length ∧
    (s.marched first second).o Obj.SPM_SPARE_COLS = (s.marched first second).memUnit.cols.length ∧
    (s.marched first second).o Obj.SPM_DEFECTS = min 65535 (toleratedWords (s.cellsLeft first second)) ∧
    (s.marched first second).keepsObjects s [Obj.SPM_SPARE_ROWS, Obj.SPM_SPARE_COLS, Obj.SPM_DEFECTS] := by
  obtain ⟨hunit, hrows, hcols, hkeep, hframe⟩ := s.setRepairs_shows (s.repairsNow.repair first)
  unfold State.marched
  generalize s.repairsNow.repair first = p at hunit hrows hcols hkeep hframe ⊢
  generalize s.setRepairs p = t at hunit hrows hcols hkeep hframe ⊢
  have hpower : t.power = s.power := (congrArg State.power hframe :)
  refine ⟨rfl, (congrArg State.rankMem hframe :), (congrArg State.nvm hframe :), ?_, ?_, ?_, ?_, ?_, ?_⟩
  · show (⟨t.memUnit.rows, t.memUnit.cols⟩ : Repairs) = p
    rw [hunit]
  · rw [← hpower]
    rfl
  · show (t.setO _ _).o _ = t.memUnit.rows.length
    rw [State.o_setO_ne _ _ (by decide), hrows, hunit]
  · show (t.setO _ _).o _ = t.memUnit.cols.length
    rw [State.o_setO_ne _ _ (by decide), hcols, hunit]
  · show (t.setO _ _).o _ = _
    rw [State.o_setO_self, clip_eq_min]
  · exact fun k hk => State.keepsObjects_setO (State.keepsObjects_mono hkeep (by decide)) (by decide) _ k hk

theorem State.bootStopped_shows (s : State) (w n : Nat) : (s.bootStopped w n).power = { s.power with bootStop := true } ∧
    (s.bootStopped w n).ob Obj.FLT_ACTIVE 7 = true ∧ (s.bootStopped w n).keepsObjects s (condKeys 7) ∧
    (s.bootStopped w n).memUnit = s.memUnit ∧ (s.bootStopped w n).keepsMemories s := by
  obtain ⟨hactive, hkeep, hframe⟩ := { s with power := { s.power with bootStop := true } : State }.condNoted_shows 0x0306 (subOf w)
    (bytesLE 2 (clip 65535 n)) 7
  exact ⟨(congrArg State.power hframe :), hactive, hkeep, (congrArg State.memUnit hframe :), (congrArg State.spm hframe :),
    (congrArg State.rankMem hframe :), (congrArg State.nvm hframe :)⟩

/-- Step 6 leaves what it found (R380). -/
theorem State.bootScratchpad_shows (s : State) (first second : List Cell) : (s.bootScratchpad first second).spm = [] ∧
    (s.bootScratchpad first second).rankMem = s.rankMem ∧ (s.bootScratchpad first second).nvm = s.nvm ∧
    (s.bootScratchpad first second).repairsNow = s.repairsNow.repair first ∧
    (s.bootScratchpad first second).power.newRepairs = s.repairsNow.records (s.repairsNow.repair first) ∧
    (s.bootScratchpad first second).o Obj.SPM_SPARE_ROWS = (s.bootScratchpad first second).memUnit.rows.length ∧
    (s.bootScratchpad first second).o Obj.SPM_SPARE_COLS = (s.bootScratchpad first second).memUnit.cols.length ∧
    (s.bootScratchpad first second).o Obj.SPM_DEFECTS = min 65535 (toleratedWords (s.cellsLeft first second)) ∧
    (failedWords (s.cellsLeft first second) = [] → (s.bootScratchpad first second).power.bootStop = s.power.bootStop ∧
      (s.bootScratchpad first second).keepsObjects s [Obj.SPM_SPARE_ROWS, Obj.SPM_SPARE_COLS, Obj.SPM_DEFECTS]) ∧
    (failedWords (s.cellsLeft first second) ≠ [] → (s.bootScratchpad first second).power.bootStop = true ∧
      (s.bootScratchpad first second).ob Obj.FLT_ACTIVE 7 = true) ∧
    (s.bootScratchpad first second).o Obj.PWR_BOOT_STEP = s.o Obj.PWR_BOOT_STEP := by
  obtain ⟨hspm, hranks, hnvm, hnow, hpower, hrows, hcols, hdefects, hkeep⟩ := s.marched_shows first second
  rw [State.bootScratchpad_eq]
  generalize s.marched first second = m at hspm hranks hnvm hnow hpower hrows hcols hdefects hkeep ⊢
  cases hfailed : failedWords (s.cellsLeft first second) with
  | nil =>
    exact ⟨hspm, hranks, hnvm, hnow, by rw [hpower], hrows, hcols, hdefects, fun _ => ⟨by rw [hpower], hkeep⟩, fun h => absurd rfl h,
      hkeep _ (by decide)⟩
  | cons w r =>
    dsimp only
    obtain ⟨hstop, hactive, hkeep', hunit, hspm', hranks', hnvm'⟩ := m.bootStopped_shows w (r.length + 1)
    generalize m.bootStopped w (r.length + 1) = t at hstop hactive hkeep' hunit hspm' hranks' hnvm' ⊢
    refine ⟨hspm'.trans hspm, hranks'.trans hranks, hnvm'.trans hnvm, ?_, by rw [hstop, hpower], ?_, ?_,
      (hkeep' _ (by decide)).trans hdefects, fun h => absurd h (List.cons_ne_nil _ _), fun _ => ⟨by rw [hstop], hactive⟩,
      (hkeep' _ (by decide)).trans (hkeep _ (by decide))⟩
    · exact (congrArg (fun u : MemUnit => (⟨u.rows, u.cols⟩ : Repairs)) hunit).trans hnow
    · rw [hkeep' _ (by decide), hrows, hunit]
    · rw [hkeep' _ (by decide), hcols, hunit]

end Sys2Proof.Machine
end

section
/-! SUPPORT. The step of the configuration: the bank in force, the CAN port, and the factory role's early end (R507, R508, R531, R532). -/
namespace Sys2Proof.Machine

variable {s t r : State}

/-! ### Parked leaves the boot steps (R523) -/

/-- The boot steps stand as in s. -/
def State.StepsKept (t s : State) : Prop := t.o Obj.PWR_BOOT_STEP = s.o Obj.PWR_BOOT_STEP

theorem State.StepsKept.trans (h : r.StepsKept t) (h' : t.StepsKept s) : r.StepsKept s := Eq.trans h h'

theorem State.StepsKept.foldl {β : Type} {step : State → β → State} (h : ∀ v x, (step v x).StepsKept v) (xs : List β) (s : State) :
    (xs.foldl step s).StepsKept s := by
  induction xs generalizing s with
  | nil => exact rfl
  | cons x xs ih => exact (ih _).trans (h s x)

theorem State.setO_stepsKept (s : State) {k : Nat} (hk : Obj.PWR_BOOT_STEP ≠ k) (v : Nat) : (s.setO k v).StepsKept s :=
  State.o_setO_ne _ _ hk

theorem State.ranksPark_stepsKept (s : State) : s.ranksPark.StepsKept s := by
  refine State.StepsKept.foldl (fun v r => ?_) _ s
  have hne : Obj.PWR_BOOT_STEP ≠ Obj.DRM_RSTATE r := by
    simp only [Obj.PWR_BOOT_STEP, Obj.DRM_RSTATE, objKey]
    omega
  split
  · exact v.setO_stepsKept hne _
  · split
    · exact v.setO_stepsKept hne _
    · rfl

theorem State.lbOff_stepsKept (s : State) : s.lbOff.StepsKept s := by
  refine (fun (keys : List Nat) (hkeys : Obj.PWR_BOOT_STEP ∉ keys) => ?_ : ∀ keys : List Nat, Obj.PWR_BOOT_STEP ∉ keys →
    (keys.foldl (fun t k => t.setO k (objDefault k)) s).StepsKept s)
    [Obj.LB_STATE, Obj.LB_RANKMAP, Obj.LB_FLOOR, Obj.LB_CAPFLOOR, Obj.LB_LOSTBELOW, Obj.LB_WPTR, Obj.LB_WTOTAL, Obj.LB_MIGPTR] (by decide)
  induction keys generalizing s with
  | nil => rfl
  | cons k keys ih =>
    rw [List.mem_cons, not_or] at hkeys
    exact (ih _ hkeys.2).trans (s.setO_stepsKept hkeys.1 _)

theorem State.tdcPark_stepsKept (s : State) : s.tdcPark.StepsKept s := by
  have hwait (v : State) (c : Ch) : (v.calWait c).StepsKept v := by
    have hne : Obj.PWR_BOOT_STEP ≠ Obj.CH_STATUS c := by
      simp only [Obj.PWR_BOOT_STEP, Obj.CH_STATUS, objKey]
      omega
    exact State.o_setO_ne _ _ hne
  have hpower (v : State) : (v.mapChans fun _ x => x.powerDown).StepsKept v := by
    obtain ⟨x, hx⟩ := v.mapChans_eq fun _ x => x.powerDown
    rw [hx]
    rfl
  unfold State.tdcPark
  extract_lets held v w
  have hw : w.StepsKept s := (hpower v).trans (State.StepsKept.foldl hwait held s)
  clear_value w
  exact (w.setO_stepsKept (k := Obj.TDC_STATE) (by decide) 0).trans hw

theorem State.parkClocks_stepsKept (s : State) : s.parkClocks.StepsKept s := by
  have hpll : (s.setOb Obj.CLK_PLL_STATUS 0 false).StepsKept s := s.setO_stepsKept (by decide) _
  unfold State.parkClocks
  extract_lets v north w
  have hw : w.StepsKept s := hpll
  split
  · exact State.StepsKept.trans ((w.laneL2_linkFrame (i := 0) (by decide)).objs Obj.PWR_BOOT_STEP (by decide)) hw
  · exact hw

theorem State.noteRefused_stepsKept (s : State) (l : List Nat) : (s.noteRefused l).StepsKept s := by
  unfold State.noteRefused
  split
  · rfl
  · exact (State.setO_stepsKept _ (by decide) _).trans (s.setO_stepsKept (by decide) _)

theorem State.enterParked_stepsKept (s : State) : s.enterParked.StepsKept s := by
  have hoff : ((s.ranksPark.lbOff.tdcPark).setO Obj.PWR_STATE 2).StepsKept s :=
    (State.setO_stepsKept _ (by decide) 2).trans (s.ranksPark.lbOff.tdcPark_stepsKept.trans
      (s.ranksPark.lbOff_stepsKept.trans s.ranksPark_stepsKept))
  unfold State.enterParked
  extract_lets v power p clk w x l y
  have hv : v.StepsKept s := hoff
  clear_value v
  have hw : w.StepsKept s := hv
  have hx : x.StepsKept s := w.parkClocks_stepsKept.trans hw
  have hy (z : State) (hz : z.StepsKept s) : (z.noteRefused l).follow.StepsKept s :=
    State.StepsKept.trans ((State.follow_linkFrame (z.noteRefused l)).objs Obj.PWR_BOOT_STEP (by decide))
      ((z.noteRefused_stepsKept l).trans hz)
  clear_value x l
  exact hy _ hx

/-! ### Step 4 (R507, R508, R532) -/

theorem State.canListen_leaves (s : State) : s.canListen.keepsObjects s [Obj.CAN_KEEPER, Obj.CAN_STATE] ∧ s.canListen.keepsMemories s := by
  have hclear : s.canClear.keepsObjects s [Obj.CAN_KEEPER, Obj.CAN_STATE] :=
    State.keepsObjects_setO (t := s) (State.keepsObjects_refl s _) (k := Obj.CAN_KEEPER) (by decide) 0xFF
  exact ⟨State.keepsObjects_setO hclear (k := Obj.CAN_STATE) (by decide) _, rfl, rfl, rfl⟩

/-- The state before the factory role's end. -/
def State.configured (s : State) (ueA ueB : Bool) (us : Nat) : State :=
  let s := (s.bankLoad ueA ueB).stepDone 4 us
  if s.flag Obj.CAN_ENABLE && s.o Obj.CAN_STATE == 0 then s.canListen else s

theorem State.bootConfig_eq (s : State) (ueA ueB : Bool) (us : Nat) : s.bootConfig ueA ueB us = (s.configured ueA ueB us).factoryEnd := rfl

theorem State.configured_leaves (s : State) (ueA ueB : Bool) (us : Nat) : (s.configured ueA ueB us).keepsObjects ((s.bankLoad ueA ueB).stepDone 4 us)
    [Obj.CAN_KEEPER, Obj.CAN_STATE] ∧ (s.configured ueA ueB us).keepsMemories ((s.bankLoad ueA ueB).stepDone 4 us) := by
  unfold State.configured
  dsimp only
  generalize (s.bankLoad ueA ueB).stepDone 4 us = v
  split
  · exact v.canListen_leaves
  · exact ⟨State.keepsObjects_refl v _, rfl, rfl, rfl⟩

theorem State.factoryEnd_stepsKept (s : State) : s.factoryEnd.StepsKept s := by
  unfold State.factoryEnd
  split
  · exact State.StepsKept.trans (State.stage_keepsObjects _ _ _ _ _ _ (by decide)) s.enterParked_stepsKept
  · rfl

/-- Step 4 completes. -/
theorem State.bootConfig_step (s : State) (ueA ueB : Bool) (us : Nat) : (s.bootConfig ueA ueB us).ob Obj.PWR_BOOT_STEP 4 = true := by
  rw [State.bootConfig_eq, State.ob_of_o (State.factoryEnd_stepsKept _),
    State.ob_of_o ((s.configured_leaves ueA ueB us).1 _ (by decide))]
  exact ((s.bankLoad ueA ueB).stepDone_shows 4 us).1

/-- The objects that step 4 may change without a valid bank. -/
def noBankKeys : List Nat :=
  [Obj.NV_BOOT_FLAGS, Obj.COMPAT_ACTIVE, Obj.NV_LAST_RESULT, Obj.FLT_LOG_LOST, Obj.FLT_FAULTN, Obj.FLT_LATCHED, Obj.FLT_COND_CNT 17]

/-- Without a valid bank, step 4 loads none. -/
theorem State.bankLoad_none (s : State) {ueA ueB : Bool} (h : chooseBank s.nvm ueA ueB = 0xFF) :
    (s.bankLoad ueA ueB).keepsObjects s noBankKeys ∧ (s.bankLoad ueA ueB).keepsMemories s := by
  have hstep {v : State} {k : Nat} (hv : v.keepsObjects s noBankKeys ∧ v.keepsMemories s) (hk : k ∈ noBankKeys) (n : Nat) :
      (v.setO k n).keepsObjects s noBankKeys ∧ (v.setO k n).keepsMemories s := ⟨State.keepsObjects_setO hv.1 hk n, hv.2⟩
  have hcond {v w : State} {p : Prop} [Decidable p] (hv : v.keepsObjects s noBankKeys ∧ v.keepsMemories s)
      (hw : w.keepsObjects s noBankKeys ∧ w.keepsMemories s) :
      (if p then v else w).keepsObjects s noBankKeys ∧ (if p then v else w).keepsMemories s := by
    split
    · exact hv
    · exact hw
  have hfault {v : State} (n : Nat) (hv : v.keepsObjects s noBankKeys ∧ v.keepsMemories s) :
      (v.nvmFault n).keepsObjects s noBankKeys ∧ (v.nvmFault n).keepsMemories s := by
    refine ⟨State.keepsObjects_trans (State.keepsObjects_mono (v.nvmFault_leaves n).1 (by decide)) hv.1, ?_⟩
    exact State.keepsMemories_trans (State.ariseOnce_keepsMemories _ 17) (State.keepsMemories_trans (v.stage_keepsMemories _ _ _ _) hv.2)
  unfold State.bankLoad
  extract_lets m b f v image i1 nv i2 w x y z
  have hv : v.keepsObjects s noBankKeys ∧ v.keepsMemories s :=
    hstep ⟨State.keepsObjects_refl s _, rfl, rfl, rfl⟩ (by decide) f
  have hw : w = v := if_pos h
  have hw' : w.keepsObjects s noBankKeys ∧ w.keepsMemories s := hw.symm ▸ hv
  have hx : x.keepsObjects s noBankKeys ∧ x.keepsMemories s := hstep hw' (by decide) _
  have hy : y.keepsObjects s noBankKeys ∧ y.keepsMemories s := hcond (hstep hx (by decide) _) hx
  have hz : z.keepsObjects s noBankKeys ∧ z.keepsMemories s := hcond (hstep hy (by decide) 5) hy
  exact hcond (hfault _ hz) hz

/-- The objects that the step may change without a valid bank, with its bit and the CAN port's. -/
def configKeys : List Nat := noBankKeys ++ [Obj.PWR_BOOT_STEP, Obj.CAN_KEEPER, Obj.CAN_STATE]

theorem State.configured_none (s : State) {ueA ueB : Bool} (h : chooseBank s.nvm ueA ueB = 0xFF) (us : Nat) :
    (s.configured ueA ueB us).keepsObjects s configKeys ∧ (s.configured ueA ueB us).keepsMemories s := by
  obtain ⟨hload, hloadMem⟩ := s.bankLoad_none h
  obtain ⟨hconf, hconfMem⟩ := s.configured_leaves ueA ueB us
  generalize s.configured ueA ueB us = v at hconf hconfMem ⊢
  generalize s.bankLoad ueA ueB = w at hload hloadMem hconf hconfMem
  obtain ⟨-, -, hdone, hdoneFrame⟩ := w.stepDone_shows 4 us
  have hmem : (w.stepDone 4 us).keepsMemories w :=
    ⟨(congrArg State.spm hdoneFrame :), (congrArg State.rankMem hdoneFrame :), (congrArg State.nvm hdoneFrame :)⟩
  refine ⟨?_, State.keepsMemories_trans hconfMem (State.keepsMemories_trans hmem hloadMem)⟩
  have hbit := State.keepsObjects_mono (ks' := configKeys) hdone (by decide)
  have hport := State.keepsObjects_mono (ks' := configKeys) hconf (by decide)
  have hbank := State.keepsObjects_mono (ks' := configKeys) hload (by decide)
  exact State.keepsObjects_trans hport (State.keepsObjects_trans hbit hbank)

/-- Step 4 without a valid bank leaves the bank in force, the memories and the boot. -/
theorem State.bootConfig_none (s : State) {ueA ueB : Bool} (h : chooseBank s.nvm ueA ueB = 0xFF) (hrole : s.o Obj.CF_ROLE ≠ 3) (us : Nat) :
    (s.bootConfig ueA ueB us).o Obj.NV_BANK = s.o Obj.NV_BANK ∧ (s.bootConfig ueA ueB us).keepsMemories s ∧
    (s.bootConfig ueA ueB us).o Obj.PWR_STATE = s.o Obj.PWR_STATE := by
  obtain ⟨hkept, hmem⟩ := s.configured_none h us
  have hpath : (s.configured ueA ueB us).o Obj.CF_ROLE ≠ 3 := by
    rw [hkept _ (by decide)]
    exact hrole
  have hend : (s.configured ueA ueB us).factoryEnd = s.configured ueA ueB us := if_neg hpath
  rw [State.bootConfig_eq, hend]
  exact ⟨hkept _ (by decide), hmem, hkept _ (by decide)⟩

end Sys2Proof.Machine
end

section
/-! SUPPORT. The training of the ranks by a sweep at boot (R361 to R363, R387). -/
namespace Sys2Proof.Machine

variable {s t r : State} {d : List (BitVec 64)} {w : List (Nat × Nat)}

/-! ### A sweep in which every delay works -/

theorem le_foldl_pow (l : List Nat) (a : Nat) : a ≤ l.foldl (fun a j => a + 2 ^ j) a := by
  induction l generalizing a with
  | nil => exact le_rfl
  | cons j l ih => exact (Nat.le_add_right a (2 ^ j)).trans (ih _)

theorem foldl_pow_eq_zero {l : List Nat} (h : l.foldl (fun a j => a + 2 ^ j) 0 = 0) : l = [] := by
  cases l with
  | nil => rfl
  | cons j l =>
    have hle := le_foldl_pow l (0 + 2 ^ j)
    have hpos := Nat.two_pow_pos j
    rw [List.foldl_cons] at h
    omega

/-- No die fails when each lane works with its three delays. -/
theorem delayWorks_of_sweep (h : sweepFailing w = 0) {i : Nat} (hi : i < 36) : delayWorks w i = true := by
  have hdies : ∀ j < 6, laneWorks w (2 * j) = true ∧ laneWorks w (2 * j + 1) = true := by
    intro j hj
    have hnone := List.filter_eq_nil_iff.mp (foldl_pow_eq_zero h) j (List.mem_range.mpr hj)
    simpa using hnone
  have hlane : ∀ l < 12, laneWorks w l = true := by
    intro l hl
    obtain ⟨heven, hodd⟩ := hdies (l / 2) (by omega)
    rcases Nat.mod_two_eq_zero_or_one l with hpar | hpar
    · rwa [show 2 * (l / 2) = l by omega] at heven
    · rwa [show 2 * (l / 2) + 1 = l by omega] at hodd
  have hthree := hlane (i % 12) (Nat.mod_lt _ (by decide))
  simp only [laneWorks, Bool.and_eq_true] at hthree
  obtain ⟨⟨hcommand, hread⟩, hwrite⟩ := hthree
  have hcases : i = i % 12 ∨ i = 12 + i % 12 ∨ i = 24 + i % 12 := by omega
  rcases hcases with hc | hc | hc
  · rw [hc]; exact hcommand
  · rw [hc]; exact hread
  · rw [hc]; exact hwrite

theorem length_sweepWindows (d : List (BitVec 64)) : (sweepWindows d).length = 37 := by simp [sweepWindows]

/-- Every delay of a good sweep takes the centre of its window. -/
theorem sweepDelays_centre (hf : sweepFailing (sweepWindows d) = 0) (hc : delayWorks (sweepWindows d) 36 = true) (free : Nat) :
    sweepDelays (sweepWindows d) free = (sweepWindows d).map fun e => BitVec.ofNat 8 (centre e) := by
  refine List.map_congr_left fun e he => ?_
  obtain ⟨i, hi, rfl⟩ := List.mem_iff_getElem.mp he
  have hlen := length_sweepWindows d
  have hworks : delayWorks (sweepWindows d) i = true := by
    rcases Nat.lt_or_ge i 36 with hlow | hhigh
    · exact delayWorks_of_sweep hf hlow
    · rw [show i = 36 by omega]
      exact hc
  have hspan : 8 ≤ ((sweepWindows d)[i]).2 := by
    have h := of_decide_eq_true hworks
    rwa [List.getD_eq_getElem _ _ hi] at h
  exact if_neg (by omega)

/-! ### A rank that is trained -/

/-- Rank r is trained by a sweep that found no fault. -/
def State.sweptRank (s : State) (r : Nat) (d : List (BitVec 64)) : State :=
  let u : State := { s.setO (Obj.DRM_DIEMARK r) 0xFF with power := { s.power with swept := true } }
  u.drawn.rankFilled r ((sweepWindows d).map fun e => BitVec.ofNat 8 (centre e)) 2

theorem State.judgeDies_none (h : s.o (Obj.DRM_DIEMARK n) = 0xFF) : s.judgeDies n 0 = (s, true) := by
  have hbad : s.badDies n 0 = 0 := if_neg (by omega)
  unfold State.judgeDies
  dsimp only
  rw [hbad]
  rfl

theorem State.trainRank_good (s : State) (n : Nat) (hf : sweepFailing (sweepWindows d) = 0)
    (hc : delayWorks (sweepWindows d) 36 = true) : s.trainRank n (.sweep d) = some (s.sweptRank n d) := by
  have hjudge := State.judgeDies_none (s := s.setO (Obj.DRM_DIEMARK n) 0xFF) (n := n) (State.o_setO_self _ _ _)
  unfold State.trainRank
  dsimp only
  rw [hf, hc, if_pos rfl, if_pos rfl, hjudge]
  simp only [if_true, sweepDelays_centre hf hc]
  rfl

/-- The objects of a rank's training. -/
def trainKeys (n : Nat) : List Nat := [Obj.DRM_DIEMARK n, Obj.DRM_TRAIN_SRC n, Obj.DRM_RSTATE n]

theorem State.sweptRank_shows (s : State) {n : Nat} (hn : n < 3) (d : List (BitVec 64)) :
    (s.sweptRank n d).o (Obj.DRM_RSTATE n) = 2 ∧ (s.sweptRank n d).o (Obj.DRM_TRAIN_SRC n) = 2 ∧
    (s.sweptRank n d).o (Obj.DRM_DIEMARK n) = 0xFF ∧ (s.sweptRank n d).keepsObjects s (trainKeys n) ∧
    ((s.sweptRank n d).rank n).delays = (sweepWindows d).map (fun e => BitVec.ofNat 8 (centre e)) ∧
    (∀ m, m < 3 → m ≠ n → (s.sweptRank n d).rank m = s.rank m) ∧
    (s.sweptRank n d).rankMem = s.rankMem.set (rankFin n) [] ∧ (s.sweptRank n d).power = { s.power with swept := true } ∧
    (s.sweptRank n d).spm = s.spm ∧ (s.sweptRank n d).nvm = s.nvm := by
  have hsrc : Obj.DRM_TRAIN_SRC n ≠ Obj.DRM_RSTATE n := by simp [Obj.DRM_TRAIN_SRC, Obj.DRM_RSTATE, objKey]
  have hmark : Obj.DRM_DIEMARK n ≠ Obj.DRM_TRAIN_SRC n := by simp [Obj.DRM_DIEMARK, Obj.DRM_TRAIN_SRC, objKey]
  have hmark' : Obj.DRM_DIEMARK n ≠ Obj.DRM_RSTATE n := by simp [Obj.DRM_DIEMARK, Obj.DRM_RSTATE, objKey]
  have hobj (k : Nat) : (s.sweptRank n d).o k =
      (((s.setO (Obj.DRM_DIEMARK n) 0xFF).setO (Obj.DRM_TRAIN_SRC n) 2).setO (Obj.DRM_RSTATE n) 2).o k := rfl
  refine ⟨?_, ?_, ?_, ?_, ?_, fun m hm hne => ?_, rfl, rfl, rfl, rfl⟩
  · rw [hobj, State.o_setO_self]
  · rw [hobj, State.o_setO_ne _ _ hsrc, State.o_setO_self]
  · rw [hobj, State.o_setO_ne _ _ hmark', State.o_setO_ne _ _ hmark, State.o_setO_self]
  · have hset := State.keepsObjects_setO (State.keepsObjects_refl s (trainKeys n)) (k := Obj.DRM_DIEMARK n) (by simp [trainKeys]) 0xFF
    have htrain := State.keepsObjects_setO hset (k := Obj.DRM_TRAIN_SRC n) (by simp [trainKeys]) 2
    have hrank := State.keepsObjects_setO htrain (k := Obj.DRM_RSTATE n) (by simp [trainKeys]) 2
    exact fun k hk => (hobj k).trans (hrank k hk)
  · simp [State.sweptRank, State.rankFilled, State.rank, State.setRank, State.setRankData, Vector.get_eq_getElem, State.setO]
  · have hfin : (rankFin n).val ≠ (rankFin m).val := by
      simp only [rankFin]
      omega
    simp [State.sweptRank, State.rankFilled, State.rank, State.setRank, State.setRankData, Vector.get_eq_getElem, State.setO, State.drawn, hfin]

/-! ### Step 7 (R362 to R364) -/

/-- The three ranks trained by sweeps that found no fault. -/
def State.threeSwept (s : State) (a b c : List (BitVec 64)) : State :=
  { ((s.sweptRank 0 a).sweptRank 1 b).sweptRank 2 c with
    memUnit := { (((s.sweptRank 0 a).sweptRank 1 b).sweptRank 2 c).memUnit with sweepNext := false } }

/-- A sweep that finds every die and the command delay working. -/
def goodSweep (d : List (BitVec 64)) : Prop := sweepFailing (sweepWindows d) = 0 ∧ delayWorks (sweepWindows d) 36 = true

theorem State.bootDram_good (s : State) {a b c : List (BitVec 64)} (ha : goodSweep a) (hb : goodSweep b) (hc : goodSweep c) :
    s.bootDram (.sweep a) (.sweep b) (.sweep c) = some (s.threeSwept a b c) := by
  unfold State.bootDram
  rw [s.trainRank_good 0 ha.1 ha.2, Option.bind_eq_bind, Option.bind_some, State.trainRank_good _ 1 hb.1 hb.2,
    Option.bind_some, State.trainRank_good _ 2 hc.1 hc.2]
  rfl

/-- Step 7 after three good sweeps: empty trained ranks, each delay at the centre of its window. -/
theorem State.threeSwept_shows (s : State) (a b c : List (BitVec 64)) :
    (∀ n ∈ [0, 1, 2], (s.threeSwept a b c).o (Obj.DRM_RSTATE n) = 2 ∧ (s.threeSwept a b c).o (Obj.DRM_TRAIN_SRC n) = 2 ∧
      (s.threeSwept a b c).o (Obj.DRM_DIEMARK n) = 0xFF ∧ ((s.threeSwept a b c).rank n).delays =
        (sweepWindows ([a, b, c].getD n [])).map fun e => BitVec.ofNat 8 (centre e)) ∧
    (s.threeSwept a b c).rankMem = #v[[], [], []] ∧ (s.threeSwept a b c).power = { s.power with swept := true } ∧
    (s.threeSwept a b c).spm = s.spm ∧ (s.threeSwept a b c).nvm = s.nvm := by
  have hobj (k : Nat) : (s.threeSwept a b c).o k = (((s.sweptRank 0 a).sweptRank 1 b).sweptRank 2 c).o k := rfl
  have hrank (n : Nat) : (s.threeSwept a b c).rank n = (((s.sweptRank 0 a).sweptRank 1 b).sweptRank 2 c).rank n := rfl
  have hrest : (s.threeSwept a b c).rankMem = (((s.sweptRank 0 a).sweptRank 1 b).sweptRank 2 c).rankMem ∧
      (s.threeSwept a b c).power = (((s.sweptRank 0 a).sweptRank 1 b).sweptRank 2 c).power ∧
      (s.threeSwept a b c).spm = (((s.sweptRank 0 a).sweptRank 1 b).sweptRank 2 c).spm ∧
      (s.threeSwept a b c).nvm = (((s.sweptRank 0 a).sweptRank 1 b).sweptRank 2 c).nvm := ⟨rfl, rfl, rfl, rfl⟩
  generalize s.threeSwept a b c = t at hobj hrank hrest ⊢
  obtain ⟨hst0, hsrc0, hmark0, -, hdel0, -, hmem0, hpow0, hspm0, hnvm0⟩ := s.sweptRank_shows (n := 0) (by decide) a
  generalize s.sweptRank 0 a = x at hst0 hsrc0 hmark0 hdel0 hmem0 hpow0 hspm0 hnvm0 hobj hrank hrest
  obtain ⟨hst1, hsrc1, hmark1, hkeep1, hdel1, hother1, hmem1, hpow1, hspm1, hnvm1⟩ := x.sweptRank_shows (n := 1) (by decide) b
  generalize x.sweptRank 1 b = y at hst1 hsrc1 hmark1 hkeep1 hdel1 hother1 hmem1 hpow1 hspm1 hnvm1 hobj hrank hrest
  obtain ⟨hst2, hsrc2, hmark2, hkeep2, hdel2, hother2, hmem2, hpow2, hspm2, hnvm2⟩ := y.sweptRank_shows (n := 2) (by decide) c
  generalize y.sweptRank 2 c = z at hst2 hsrc2 hmark2 hkeep2 hdel2 hother2 hmem2 hpow2 hspm2 hnvm2 hobj hrank hrest
  have hfirst {k : Nat} (h1 : k ∉ trainKeys 1) (h2 : k ∉ trainKeys 2) : t.o k = x.o k :=
    (hobj k).trans ((hkeep2 k h2).trans (hkeep1 k h1))
  have hsecond {k : Nat} (h2 : k ∉ trainKeys 2) : t.o k = y.o k := (hobj k).trans (hkeep2 k h2)
  obtain ⟨hmem, hpow, hspm, hnvm⟩ := hrest
  refine ⟨fun n hn => ?_, ?_, ?_, hspm.trans (hspm2.trans (hspm1.trans hspm0)), hnvm.trans (hnvm2.trans (hnvm1.trans hnvm0))⟩
  · simp only [List.mem_cons, List.not_mem_nil, or_false] at hn
    rcases hn with rfl | rfl | rfl
    · exact ⟨(hfirst (by decide) (by decide)).trans hst0, (hfirst (by decide) (by decide)).trans hsrc0,
        (hfirst (by decide) (by decide)).trans hmark0, by
          rw [hrank, hother2 0 (by decide) (by decide), hother1 0 (by decide) (by decide)]; exact hdel0⟩
    · exact ⟨(hsecond (by decide)).trans hst1, (hsecond (by decide)).trans hsrc1, (hsecond (by decide)).trans hmark1, by
          rw [hrank, hother2 1 (by decide) (by decide)]; exact hdel1⟩
    · exact ⟨(hobj _).trans hst2, (hobj _).trans hsrc2, (hobj _).trans hmark2, by rw [hrank]; exact hdel2⟩
  · rw [hmem, hmem2, hmem1, hmem0]
    refine Vector.ext fun i hi => ?_
    have hcases : i = 0 ∨ i = 1 ∨ i = 2 := by omega
    rcases hcases with rfl | rfl | rfl <;> simp [rankFin]
  · rw [hpow, hpow2, hpow1, hpow0]

end Sys2Proof.Machine
end

section
/-! SUPPORT. The boot calibration: channels, housekeeping slices and builders (R105, R111, R245, R272, R441, R446, R534). -/
namespace Sys2Proof.Machine

variable {s t r : State} {c d : Ch} {raw : List (Int × Int)}

/-! ### A slice's calibration (R441) -/

/-- A slice's raw values pass. -/
def rawPasses (raw : List (Int × Int)) : Prop := raw.length = 4 ∧ raw.all (fun e => hkConstOk e.1 e.2) = true

theorem hkConsts_isSome (s : State) (n : Nat) (raw : List (Int × Int)) : (s.hkConsts n raw).isSome = true ↔ rawPasses raw := by
  unfold State.hkConsts rawPasses
  split
  · next h => exact iff_of_true rfl h
  · next h => exact iff_of_false Bool.false_ne_true h

theorem hkConsts_isNone {n : Nat} (h : (s.hkConsts n raw).isSome = false) :
    raw.length ≠ 4 ∨ raw.all (fun e => hkConstOk e.1 e.2) = false := by
  have hno : ¬ rawPasses raw := fun hp => by
    rw [(hkConsts_isSome s n raw).mpr hp] at h
    cases h
  unfold rawPasses at hno
  rw [not_and_or, Bool.not_eq_true] at hno
  exact hno

/-- The constants of a slice that passed. -/
def State.slicePassed (s : State) (n : Nat) (raw : List (Int × Int)) : State :=
  { s.drawn with hk := { s.hk with
      consts := if n = 0 then raw.map (fun e => hkConst e.1 e.2 s.open) ++ s.hk.consts.drop 4
        else s.hk.consts.take 4 ++ raw.map (fun e => hkConst e.1 e.2 s.open)
      fails := s.hk.fails.set n 0 } }

theorem hkSliceCal_good (h : rawPasses raw) (n : Nat) : s.hkSliceCal n raw = (s.slicePassed n raw, true) := by
  have hsome : s.hkConsts n raw = some { s.drawn with hk := { s.hk with
      consts := if n = 0 then raw.map (fun e => hkConst e.1 e.2 s.open) ++ s.hk.consts.drop 4
        else s.hk.consts.take 4 ++ raw.map (fun e => hkConst e.1 e.2 s.open) } } := if_pos h
  unfold State.hkSliceCal
  rw [hsome]
  rfl

theorem State.slicePassed_leaves (s : State) (n : Nat) (raw : List (Int × Int)) :
    { s.slicePassed n raw with hk := s.hk, free := s.free } = s := rfl

/-! ### The channels (R105, R108, R111, R119) -/

/-- The LUT of a channel after its boot run. -/
def bootLutOf (h : List Nat × List Nat) : List Nat := if bootRunOk h then lutOf 16 0 h.1 else linearLut

/-- Channel c has its boot LUT, of generation 1. -/
def State.bootedLut (s : State) (c : Ch) (h : List Nat × List Nat) : Prop :=
  s.o (Obj.TDC_LUTGEN c) = 1 ∧ (s.chan c).lut = bootLutOf h

theorem lutGen_ne_status (c d : Ch) : Obj.TDC_LUTGEN c ≠ Obj.CH_STATUS d := by
  simp only [Obj.TDC_LUTGEN, Obj.CH_STATUS, objKey]
  omega

theorem lutGen_ne {c d : Ch} (h : c ≠ d) : Obj.TDC_LUTGEN c ≠ Obj.TDC_LUTGEN d := by
  have hval : c.val ≠ d.val := fun e => h (Fin.ext e)
  simp only [Obj.TDC_LUTGEN, objKey]
  omega

/-- A channel's LUT generation is none of a few other objects. -/
theorem lutGen_notMem {ks : List Nat} (h : ∀ k ∈ ks, k / 256 < 0x2000 ∨ 0x2080 ≤ k / 256) (c : Ch) : Obj.TDC_LUTGEN c ∉ ks := by
  intro hmem
  have hc := c.isLt
  have hk := h _ hmem
  simp only [Obj.TDC_LUTGEN, objKey] at hk
  omega

/-- A state whose objects outside a few keys, channels and memories are those of s. -/
structure State.LutsKept (t s : State) (ks : List Nat) : Prop where
  objs : t.keepsObjects s ks
  chans : t.chans = s.chans
  memories : t.keepsMemories s

theorem State.LutsKept.trans {ks : List Nat} (h : r.LutsKept t ks) (h' : t.LutsKept s ks) : r.LutsKept s ks :=
  ⟨State.keepsObjects_trans h.objs h'.objs, h.chans.trans h'.chans, State.keepsMemories_trans h.memories h'.memories⟩

theorem State.LutsKept.setO {ks : List Nat} (s : State) {k : Nat} (hk : k ∈ ks) (v : Nat) : (s.setO k v).LutsKept s ks :=
  ⟨State.keepsObjects_setO (State.keepsObjects_refl s _) hk v, rfl, rfl, rfl, rfl⟩

theorem State.LutsKept.booted {ks : List Nat} {h : List Nat × List Nat} (hkept : t.LutsKept s ks)
    (hks : ∀ k ∈ ks, k / 256 < 0x2000 ∨ 0x2080 ≤ k / 256) (hs : s.bootedLut c h) : t.bootedLut c h :=
  ⟨(hkept.objs _ (lutGen_notMem hks c)).trans hs.1, (congrArg (fun l => (l.get c).lut) hkept.chans :).trans hs.2⟩

theorem State.bootLut_self (s : State) (c : Ch) (h : List Nat × List Nat) : (s.bootLut c h).bootedLut c h := by
  refine ⟨State.o_setO_self _ _ _, ?_⟩
  exact congrArg Chan.lut (s.chan_setChan_self c _)

theorem State.bootLut_other (s : State) (hne : c ≠ d) (h h' : List Nat × List Nat) (hs : s.bootedLut c h) :
    (s.bootLut d h').bootedLut c h := by
  refine ⟨?_, (congrArg Chan.lut (s.chan_setChan_ne _ hne) :).trans hs.2⟩
  exact (State.o_setO_ne _ _ (lutGen_ne hne)).trans ((State.o_setO_ne _ _ (lutGen_ne_status c d)).trans hs.1)

/-- After the boot runs of the channels in l, each of them has its LUT. -/
theorem State.foldl_bootLut (run : Ch → List Nat × List Nat) (c : Ch) : ∀ (l : List Ch) (s : State), c ∈ l ∨ s.bootedLut c (run c) →
    (l.foldl (fun t c => t.bootLut c (run c)) s).bootedLut c (run c)
  | [], _, h => h.resolve_left List.not_mem_nil
  | d :: l, s, h => by
    refine State.foldl_bootLut run c l (s.bootLut d (run d)) ?_
    by_cases hcd : c = d
    · exact .inr (hcd ▸ s.bootLut_self c (run c))
    · exact h.imp (fun hmem => (List.mem_cons.mp hmem).resolve_left hcd) (s.bootLut_other hcd _ _)

theorem State.foldl_bootLut_memories (run : Ch → List Nat × List Nat) : ∀ (l : List Ch) (s : State),
    (l.foldl (fun t c => t.bootLut c (run c)) s).keepsMemories s
  | [], _ => ⟨rfl, rfl, rfl⟩
  | _ :: l, _ => State.keepsMemories_trans (State.foldl_bootLut_memories run l _) ⟨rfl, rfl, rfl⟩

/-- The objects of the swap history and the channels' common state. -/
def calKeys : List Nat :=
  [Obj.TDC_CAL_BATCHES, Obj.CF_EVT_SEQ, Obj.CF_EVT_DROP, Obj.TDC_TAPS_MIN, Obj.TDC_TAPS_MAX, Obj.TDC_STATE, Obj.HK_STATE]

theorem State.historyEntry_kept (s : State) (src : Nat) (l : List Ch) : (s.historyEntry src l).LutsKept s calKeys := by
  unfold State.historyEntry
  split
  · exact ⟨State.keepsObjects_refl s _, rfl, rfl, rfl, rfl⟩
  · have hwrap : (s.wrapBy 32 Obj.TDC_CAL_BATCHES 1).LutsKept s calKeys :=
      ⟨State.keepsObjects_setO (State.keepsObjects_refl s _) (by decide) _, rfl, rfl, rfl, rfl⟩
    generalize s.wrapBy 32 Obj.TDC_CAL_BATCHES 1 = v at hwrap
    extract_lets v' e h unit w
    clear_value unit
    have hw : w.LutsKept s calKeys := ⟨hwrap.objs, hwrap.chans, hwrap.memories⟩
    clear_value w
    split
    · obtain ⟨hobj, hframe⟩ := w.event_leaves 3 0 w.xc w.ntNs 0x2810 0x0C e.bytes
      refine State.LutsKept.trans ⟨State.keepsObjects_mono hobj (by decide), ?_, ?_, ?_, ?_⟩ hw
      · exact (congrArg State.chans hframe :)
      · exact (congrArg State.spm hframe :)
      · exact (congrArg State.rankMem hframe :)
      · exact (congrArg State.nvm hframe :)
    · exact hw

theorem calKeys_other : ∀ k ∈ calKeys, k / 256 < 0x2000 ∨ 0x2080 ≤ k / 256 := by decide

/-- The boot calibration leaves every channel its LUT of generation 1. -/
theorem State.bootLuts_booted (s : State) (hists : List (List Nat × List Nat)) (c : Ch) :
    (s.bootLuts hists).bootedLut c (hists.getD c ([], [])) ∧ (s.bootLuts hists).keepsMemories s := by
  unfold State.bootLuts
  extract_lets run v w
  have hv : v.bootedLut c (run c) := State.foldl_bootLut run c allCh s (.inl (List.mem_finRange c))
  have hvmem : v.keepsMemories s := State.foldl_bootLut_memories run allCh s
  clear_value v
  have hw : w.LutsKept v calKeys := (State.historyEntry_kept _ 3 _).trans (v.historyEntry_kept 2 _)
  clear_value w
  have htaps : w.tapsUpdate.LutsKept w calKeys := (State.LutsKept.setO _ (by decide) _).trans (.setO w (by decide) _)
  have hend := ((State.LutsKept.setO w.tapsUpdate (k := Obj.TDC_STATE) (ks := calKeys) (by decide) 0).trans htaps).trans hw
  exact ⟨hend.booted calKeys_other hv, State.keepsMemories_trans hend.memories hvmem⟩

/-! ### The builders (R245, R272) -/

/-- The objects of builders that both fail. -/
def builderFailKeys : List Nat := [Obj.BLD_UNIT0, Obj.BLD_UNIT1, Obj.BLD_STATE] ++ condKeys 9

/-- Both builders fail their self-test. -/
theorem State.builderStart_failed (s : State) : (s.builderStart false false).LutsKept s builderFailKeys := by
  obtain ⟨x, hx⟩ := ((s.setO Obj.BLD_UNIT0 5).setO Obj.BLD_UNIT1 5).pairState_eq
  have hunits : ((s.setO Obj.BLD_UNIT0 5).setO Obj.BLD_UNIT1 5).pairState.LutsKept s builderFailKeys := by
    rw [hx]
    exact ((State.LutsKept.setO _ (by decide) _).trans (.setO _ (by decide) _)).trans (.setO s (by decide) _)
  generalize hv : ((s.setO Obj.BLD_UNIT0 5).setO Obj.BLD_UNIT1 5).pairState = v at hunits
  have hstart : s.builderStart false false =
      (((v.raiseFault 4 0).raiseFault 4 1).stage 0x0407 0 0 (bytesLE 4 (v.o Obj.BLD_BOTHFAIL))).ariseIf 9 := by
    rw [← hv]
    rfl
  rw [hstart]
  have hraised : ((v.raiseFault 4 0).raiseFault 4 1).LutsKept v builderFailKeys := ⟨State.keepsObjects_refl v _, rfl, rfl, rfl, rfl⟩
  generalize (v.raiseFault 4 0).raiseFault 4 1 = w at hraised
  refine State.LutsKept.trans ?_ (hraised.trans hunits)
  have hframe := w.stage_frame 0x0407 0 0 (bytesLE 4 (v.o Obj.BLD_BOTHFAIL))
  have hkeep := w.stage_keepsObjects 0x0407 0 0 (bytesLE 4 (v.o Obj.BLD_BOTHFAIL))
  generalize w.stage 0x0407 0 0 (bytesLE 4 (v.o Obj.BLD_BOTHFAIL)) = z at hframe hkeep
  have harise := z.ariseIf_keepsButObjects 9
  exact ⟨State.keepsObjects_trans (State.keepsObjects_mono (z.ariseIf_keepsObjects 9) (by decide)) (State.keepsObjects_mono hkeep (by decide)),
    (congrArg State.chans harise :).trans (congrArg State.chans hframe :), (congrArg State.spm harise :).trans (congrArg State.spm hframe :),
    (congrArg State.rankMem harise :).trans (congrArg State.rankMem hframe :), (congrArg State.nvm harise :).trans (congrArg State.nvm hframe :)⟩

/-! ### Step 8 (R111, R245, R272, R441, R446) -/

/-- The self-tests of the builders and the passing slices are noted. -/
def State.selftested (s : State) (p0 p1 : Bool) : State :=
  { s with power := { s.power with selftest := [p0, p1], bootStop := s.power.bootStop || (!p0 && !p1) },
           hk := { s.hk with sparePassed := true, passed := [] } }

/-- The slices that passed are noted while one is still to pass. -/
def State.slicesNoted (s : State) (a b : Bool) : State :=
  { s with hk := { s.hk with passed := (if a then [0] else []) ++ (if b then [1] else []) } }

/-- The end of the step with both slices passed, and the builders' self-tests. -/
def State.calibrationDone (s : State) (p0 p1 : Bool) : State :=
  if p0 || p1 then s.selftested p0 p1 else ((s.selftested p0 p1).builderStart false false).settle

/-- The step by the ends of its two slices. -/
theorem State.bootCalibrate_of {v w : State} {a b : Bool} (hists : List (List Nat × List Nat)) {hk : List (Int × Int)}
    (h : s.hk.passed = []) (h0 : s.hkSliceCal 0 (hk.take 4) = (v, a)) (h1 : v.hkSliceCal 1 (hk.drop 4) = (w, b)) :
    s.bootCalibrate hists hk true true = if a && b then
        (((w.bootLuts hists).setO Obj.HK_STATE 1).calibrationDone
          (bits (((w.bootLuts hists).setO Obj.HK_STATE 1).o Obj.CHK_BIST) 6 5 == 0)
          (bits (((w.bootLuts hists).setO Obj.HK_STATE 1).o Obj.CHK_BIST) 8 7 == 0), true)
      else (w.slicesNoted a b, false) := by
  have hopen (n : Nat) : s.hk.passed.contains n = false := by
    rw [h]
    rfl
  have hfirst : (if s.hk.passed.contains 0 then (s, true) else s.hkSliceCal 0 (hk.take 4)) = (v, a) := by
    rw [hopen, if_neg Bool.false_ne_true, h0]
  have hsecond : (if s.hk.passed.contains 1 then (v, true) else v.hkSliceCal 1 (hk.drop 4)) = (w, b) := by
    rw [hopen, if_neg Bool.false_ne_true, h1]
  unfold State.bootCalibrate
  rw [hfirst]
  extract_lets r0 r1
  have hr1 : r1 = (w, b) := hsecond
  clear_value r1
  subst hr1
  rfl

/-- No lane, link or flag writes a channel's LUT generation. -/
theorem linkKey_lutGen (c : Ch) : linkKey (Obj.TDC_LUTGEN c) = false := by
  have hkey : 0x200000 ≤ Obj.TDC_LUTGEN c ∧ Obj.TDC_LUTGEN c < 0x208000 := by
    have hc := c.isLt
    simp only [Obj.TDC_LUTGEN, objKey]
    omega
  generalize Obj.TDC_LUTGEN c = k at hkey
  refine Bool.not_eq_true _ ▸ fun hlink => ?_
  simp only [linkKey, linkPlain, Bool.or_eq_true, decide_eq_true_eq, beq_iff_eq, Obj.FLT_FAULTN, Obj.FLT_LOG_LOST, Obj.PWR_STATE,
    Obj.FLT_LATCHED, Obj.FLT_ACTIVE, objKey] at hlink
  omega

/-- What a calibrated device shows: the housekeeping ready, and a channel's LUT of generation 1. -/
structure State.Calibrated (t s : State) (c : Ch) (h : List Nat × List Nat) : Prop where
  housekeeping : t.o Obj.HK_STATE = 1
  booted : t.bootedLut c h
  memories : t.keepsMemories s

theorem State.Calibrated.settle {h : List Nat × List Nat} (ht : t.Calibrated s c h) : t.settle.Calibrated s c h := by
  have hframe := t.settle_linkFrame
  exact ⟨(hframe.objs _ (by decide)).trans ht.housekeeping, ⟨(hframe.objs _ (linkKey_lutGen c)).trans ht.booted.1,
    (congrArg (fun l => (l.get c).lut) hframe.chans :).trans ht.booted.2⟩, State.keepsMemories_trans hframe.memories ht.memories⟩

theorem State.Calibrated.of_lutsKept {ks : List Nat} {h : List Nat × List Nat} (hv : r.LutsKept t ks) (hhk : Obj.HK_STATE ∉ ks)
    (hks : ∀ k ∈ ks, k / 256 < 0x2000 ∨ 0x2080 ≤ k / 256) (ht : t.Calibrated s c h) : r.Calibrated s c h :=
  ⟨(hv.objs _ hhk).trans ht.housekeeping, hv.booted hks ht.booted, State.keepsMemories_trans hv.memories ht.memories⟩

theorem State.Calibrated.done {h : List Nat × List Nat} (ht : t.Calibrated s c h) (p0 p1 : Bool) :
    (t.calibrationDone p0 p1).Calibrated s c h := by
  have hself : (t.selftested p0 p1).Calibrated s c h := ⟨ht.housekeeping, ht.booted, ht.memories⟩
  unfold State.calibrationDone
  split
  · exact hself
  · exact State.Calibrated.settle (.of_lutsKept (State.builderStart_failed _) (by decide) (by decide) hself)

theorem State.Calibrated.stepDone {h : List Nat × List Nat} (ht : t.Calibrated s c h) (us : Nat) :
    (t.stepDone 8 us).Calibrated s c h :=
  have hkept : (t.stepDone 8 us).LutsKept t [Obj.PWR_BOOT_STEP] := ⟨(t.stepDone_shows 8 us).2.2.1, rfl, rfl, rfl, rfl⟩
  .of_lutsKept hkept (by decide) (by decide) ht

/-- The LUTs and the housekeeping are ready. -/
theorem State.bootLuts_calibrated (s : State) (hists : List (List Nat × List Nat)) (c : Ch) :
    ((s.bootLuts hists).setO Obj.HK_STATE 1).Calibrated s c (hists.getD c ([], [])) := by
  obtain ⟨hluts, hmem⟩ := s.bootLuts_booted hists c
  generalize s.bootLuts hists = v at hluts hmem
  have hkept : (v.setO Obj.HK_STATE 1).LutsKept v [Obj.HK_STATE] := .setO v (by decide) 1
  exact ⟨State.o_setO_self _ _ _, hkept.booted (by decide) hluts, State.keepsMemories_trans hkept.memories hmem⟩

/-! ### A slice that does not pass (R441) -/

/-- Both slices have failed: each counts, and nothing else is shown. -/
theorem State.slicesFailed (s : State) : let t := ((s.hkFailed 0).hkFailed 1).slicesNoted false false
    t.o Obj.HK_CAL_FAIL = satAdd 32 (satAdd 32 (s.o Obj.HK_CAL_FAIL) 1) 1 ∧ t.keepsObjects s [Obj.HK_CAL_FAIL] ∧
    t.hk.consts = s.hk.consts ∧ t.chans = s.chans ∧ t.keepsMemories s := by
  obtain ⟨hcount, hhk, -, hkeep, hframe⟩ := s.hkFailed_fails 0
  generalize s.hkFailed 0 = v at hcount hhk hkeep hframe ⊢
  obtain ⟨hcount', hhk', -, hkeep', hframe'⟩ := v.hkFailed_fails 1
  generalize v.hkFailed 1 = w at hcount' hhk' hkeep' hframe' ⊢
  refine ⟨?_, State.keepsObjects_trans (t := w) (fun _ _ => rfl) (State.keepsObjects_trans hkeep' hkeep), ?_, ?_, ?_, ?_, ?_⟩
  · exact hcount'.trans (congrArg (satAdd 32 · 1) hcount)
  · show w.hk.consts = _
    rw [hhk', hhk]
  · exact (congrArg State.chans hframe' :).trans (congrArg State.chans hframe :)
  · exact (congrArg State.spm hframe' :).trans (congrArg State.spm hframe :)
  · exact (congrArg State.rankMem hframe' :).trans (congrArg State.rankMem hframe :)
  · exact (congrArg State.nvm hframe' :).trans (congrArg State.nvm hframe :)

/-- Slice 0 has passed and slice 1 failed: the constants of slice 0 are in force, and the step stays due. -/
theorem State.sliceOneFailed (s : State) (raw : List (Int × Int)) : let t := ((s.slicePassed 0 raw).hkFailed 1).slicesNoted true false
    t.hk.passed = [0] ∧ t.o Obj.HK_CAL_FAIL = satAdd 32 (s.o Obj.HK_CAL_FAIL) 1 ∧
    t.hk.consts = raw.map (fun e => hkConst e.1 e.2 s.open) ++ s.hk.consts.drop 4 ∧ t.chans = s.chans ∧
    t.keepsObjects s [Obj.HK_CAL_FAIL] := by
  have hconsts : (s.slicePassed 0 raw).hk.consts = raw.map (fun e => hkConst e.1 e.2 s.open) ++ s.hk.consts.drop 4 := rfl
  have hobj : (s.slicePassed 0 raw).keepsObjects s [Obj.HK_CAL_FAIL] := fun _ _ => rfl
  have hfail : (s.slicePassed 0 raw).o Obj.HK_CAL_FAIL = s.o Obj.HK_CAL_FAIL := rfl
  have hchans : (s.slicePassed 0 raw).chans = s.chans := rfl
  generalize s.slicePassed 0 raw = v at hconsts hobj hfail hchans ⊢
  obtain ⟨hcount, hhk, -, hkeep, hframe⟩ := v.hkFailed_fails 1
  generalize v.hkFailed 1 = w at hcount hhk hkeep hframe ⊢
  refine ⟨rfl, hcount.trans (congrArg (satAdd 32 · 1) hfail), ?_, (congrArg State.chans hframe :).trans hchans,
    State.keepsObjects_trans (t := w) (fun _ _ => rfl) (State.keepsObjects_trans hkeep hobj)⟩
  show w.hk.consts = _
  rw [hhk]
  exact hconsts

end Sys2Proof.Machine
end

section
/-! SUPPORT. The statement on the boot steps. -/
namespace Sys2Proof.Machine

variable {s : State} {us : BitVec 32}

/-! ### A step that is due (R531) -/

theorem State.Boots.feeds (h : s.Boots) (hopen : s.ob Obj.PWR_BOOT_STEP 1 = false) : s.bootStep .feeds us.toNat = s.stepDone 1 us.toNat :=
  if_pos (h.stepDue (.inl rfl) hopen (.inl rfl) (.inl (by decide)) rfl)

theorem State.Boots.firmware (h : s.Boots) (hrst : s.power.rstN = false) (hprev : s.ob Obj.PWR_BOOT_STEP 2 = true)
    (hopen : s.ob Obj.PWR_BOOT_STEP 3 = false) (bist : BitVec 39) (patch : Bool) (fuse : List (BitVec 32)) :
    s.bootStep (.firmware bist patch fuse) us.toNat =
      (s.stepDone 3 us.toNat).bootFirmware bist.toNat patch (fuse.map BitVec.toNat) :=
  if_pos (h.stepDue (.inr hrst) hopen (.inl rfl) (.inl (by decide)) (by simp [hprev]))

theorem State.Boots.scratchpad (h : s.Boots) (hrst : s.power.rstN = false) (hprev : s.ob Obj.PWR_BOOT_STEP 3 = true)
    (hopen : s.ob Obj.PWR_BOOT_STEP 6 = false) (x y : List (BitVec 20 × BitVec 72)) :
    s.bootStep (.scratchpad x y) us.toNat = (s.stepDone 6 us.toNat).bootScratchpad (cellsOf x) (cellsOf y) :=
  if_pos (h.stepDue (.inr hrst) hopen (.inl rfl) (.inl (by decide)) (by simp [hprev]))

theorem State.Boots.config (h : s.Boots) (hrst : s.power.rstN = false) (hprev : s.ob Obj.PWR_BOOT_STEP 3 = true)
    (hopen : s.ob Obj.PWR_BOOT_STEP 4 = false) (hup : s.cufel.down = false) (ueA ueB : Bool) :
    s.bootStep (.config ueA ueB) us.toNat = s.bootConfig ueA ueB us.toNat :=
  if_pos (h.stepDue (.inr hrst) hopen (.inr hup) (.inl (by decide)) (by simp [hprev]))

theorem State.Boots.dram (h : s.Boots) (hrst : s.power.rstN = false) (hprev : s.ob Obj.PWR_BOOT_STEP 3 = true)
    (hlocked : s.ob Obj.PWR_BOOT_STEP 5 = true) (hopen : s.ob Obj.PWR_BOOT_STEP 7 = false) (hup : s.cufel.down = false)
    (hrole : s.o Obj.CF_ROLE ≠ 3) {a b c : List (BitVec 64)} (ha : goodSweep a) (hb : goodSweep b) (hc : goodSweep c) :
    s.bootStep (.dram (.sweep a) (.sweep b) (.sweep c)) us.toNat = (s.threeSwept a b c).stepDone 7 us.toNat := by
  have hdue : s.stepDue 7 [3, 5] = true := h.stepDue (.inr hrst) hopen (.inr hup) (.inr hrole) (by simp [hprev, hlocked])
  unfold State.bootStep
  dsimp only
  rw [if_pos hdue, s.bootDram_good ha hb hc]

theorem State.Boots.calibrate (h : s.Boots) (hrst : s.power.rstN = false) (hprev : s.ob Obj.PWR_BOOT_STEP 3 = true)
    (hlocked : s.ob Obj.PWR_BOOT_STEP 5 = true) (hopen : s.ob Obj.PWR_BOOT_STEP 8 = false) (hup : s.cufel.down = false)
    (hrole : s.o Obj.CF_ROLE ≠ 3) {hists : List (List Nat × List Nat)} {hk : List (Int × Int)} {t : State} {b : Bool}
    (hr : s.bootCalibrate hists hk true true = (t, b)) :
    s.bootStep (.calibrate hists hk true true) us.toNat = if b then t.stepDone 8 us.toNat else t := by
  have hdue : s.stepDue 8 [3, 5] = true := h.stepDue (.inr hrst) hopen (.inr hup) (.inr hrole) (by simp [hprev, hlocked])
  unfold State.bootStep
  dsimp only
  rw [if_pos hdue, hr]

/-! ### A step that is not due -/

theorem bootStep_waits {n : Nat} {after : List Nat} {t : State} (h : s.stepDue n after = false) :
    (if s.stepDue n after = true then t else s) = s := if_neg (by simp [h])

/-- While the device does not boot, or without a clock, or frozen, no step completes. -/
theorem bootStep_stopped (b : BootStep) (h : s.o Obj.PWR_STATE ≠ 1 ∨ s.o Obj.CLK_STATE = 5 ∨ s.frz.frozen = true) :
    s.bootStep b us.toNat = s := by
  cases b <;> exact bootStep_waits (stepDue_stopped h)

/-! ### The obligation -/

/-- Step 3 and its answer (R272, R379, R512). -/
theorem State.firmware_completes (s : State) (us : Nat) (bist : BitVec 39) (patch : Bool) (fuse : List Nat) :
    let t := (s.stepDone 3 us).bootFirmware bist.toNat patch fuse
    t.ob Obj.PWR_BOOT_STEP 3 = true ∧ t.o Obj.CHK_BIST = bist.toNat ∧ t.repairsNow = (switchIn (fuse ++ s.repairRecords)).1 ∧
    t.o Obj.SPM_SPARE_ROWS = t.memUnit.rows.length ∧ t.o Obj.SPM_SPARE_COLS = t.memUnit.cols.length ∧
    t.o Obj.SPM_REPAIR_BAD = min 255 ((switchIn (fuse ++ s.repairRecords)).2 + s.repairsTorn) ∧
    t.o Obj.CF_FW_VER = 0x10000 + (if s.patchHeld = true ∧ patch = true then s.nv.patch.2 else 0) ∧ t.memUnit.fwRam = [] ∧
    t.memUnit.fwLoads = s.memUnit.fwLoads + 1 ∧ (bist ≠ 0 → t.ob Obj.FLT_ACTIVE 15 = true) ∧
    t.power.trace = s.power.trace.set 3 us ∧ t.keepsMemories s := by
  have hrecords : (s.stepDone 3 us).repairRecords = s.repairRecords := rfl
  have htorn : (s.stepDone 3 us).repairsTorn = s.repairsTorn := rfl
  have hheld : (s.stepDone 3 us).patchHeld = s.patchHeld := rfl
  have hnv : (s.stepDone 3 us).nv = s.nv := rfl
  have hunit : (s.stepDone 3 us).memUnit = s.memUnit := rfl
  have hmem : (s.stepDone 3 us).keepsMemories s := ⟨rfl, rfl, rfl⟩
  obtain ⟨hbit, htrace, -, -⟩ := s.stepDone_shows 3 us
  generalize s.stepDone 3 us = v at hrecords htorn hheld hnv hunit hmem hbit htrace
  obtain ⟨hbist, hnow, hrows, hcols, hbad, hver, hram, hloads, hactive, hpower, hmem', hsteps⟩ := v.bootFirmware_shows bist.toNat patch fuse
  rw [hrecords] at hnow
  rw [hrecords, htorn] at hbad
  rw [hheld, hnv] at hver
  rw [hunit] at hloads
  refine ⟨(State.ob_of_o hsteps).trans hbit, hbist, hnow, hrows, hcols, hbad, hver, hram, hloads, fun hne => hactive fun hzero => ?_, ?_,
    State.keepsMemories_trans hmem' hmem⟩
  · exact hne (BitVec.eq_of_toNat_eq hzero)
  · rw [hpower, htrace]

/-- Step 6 and what it leaves (R380). -/
theorem State.scratchpad_completes (s : State) (us : Nat) (first second : List Cell) :
    let t := (s.stepDone 6 us).bootScratchpad first second
    t.ob Obj.PWR_BOOT_STEP 6 = true ∧ t.spm = [] ∧ t.rankMem = s.rankMem ∧ t.nvm = s.nvm ∧
    t.repairsNow = s.repairsNow.repair first ∧ t.power.newRepairs = s.repairsNow.records t.repairsNow ∧
    t.o Obj.SPM_SPARE_ROWS = t.memUnit.rows.length ∧ t.o Obj.SPM_SPARE_COLS = t.memUnit.cols.length ∧
    t.o Obj.SPM_DEFECTS = min 65535 (toleratedWords (standingCells first second (s.repairsNow.subs t.repairsNow))) ∧
    (failedWords (standingCells first second (s.repairsNow.subs t.repairsNow)) = [] → t.power.bootStop = s.power.bootStop ∧
      t.keepsObjects s [Obj.PWR_BOOT_STEP, Obj.SPM_SPARE_ROWS, Obj.SPM_SPARE_COLS, Obj.SPM_DEFECTS]) ∧
    (failedWords (standingCells first second (s.repairsNow.subs t.repairsNow)) ≠ [] →
      t.power.bootStop = true ∧ t.ob Obj.FLT_ACTIVE 7 = true) := by
  have hnow : (s.stepDone 6 us).repairsNow = s.repairsNow := rfl
  have hmem : (s.stepDone 6 us).rankMem = s.rankMem ∧ (s.stepDone 6 us).nvm = s.nvm := ⟨rfl, rfl⟩
  obtain ⟨hbit, hpower, hkept, -⟩ := s.stepDone_shows 6 us
  generalize s.stepDone 6 us = v at hnow hmem hbit hpower hkept
  obtain ⟨hspm, hranks, hnvm, hrepaired, hnew, hrows, hcols, hdefects, hgood, hbad, hsteps⟩ := v.bootScratchpad_shows first second
  have hcells : v.cellsLeft first second = standingCells first second (s.repairsNow.subs (s.repairsNow.repair first)) := by
    rw [State.cellsLeft, hnow]
  rw [hnow] at hrepaired hnew
  rw [hcells] at hdefects hgood hbad
  dsimp only
  rw [hrepaired]
  refine ⟨(State.ob_of_o hsteps).trans hbit, hspm, hranks.trans hmem.1, hnvm.trans hmem.2, rfl, hnew, hrows, hcols, hdefects,
    fun hnone => ?_, hbad⟩
  obtain ⟨hstop, hobjs⟩ := hgood hnone
  exact ⟨by rw [hstop, hpower], State.keepsObjects_trans (State.keepsObjects_mono hobjs (by decide)) (State.keepsObjects_mono hkept (by decide))⟩

/-- Step 7 after three good sweeps (R362). -/
theorem State.dram_completes (s : State) (us : Nat) (a b c : List (BitVec 64)) : let t := (s.threeSwept a b c).stepDone 7 us
    t.ob Obj.PWR_BOOT_STEP 7 = true ∧ (∀ r ∈ [0, 1, 2], t.o (Obj.DRM_RSTATE r) = 2 ∧ t.o (Obj.DRM_TRAIN_SRC r) = 2 ∧
      t.o (Obj.DRM_DIEMARK r) = 0xFF ∧
      (t.rank r).delays = (sweepWindows ([a, b, c].getD r [])).map fun w => BitVec.ofNat 8 (centre w)) ∧
    t.rankMem = #v[[], [], []] ∧ t.power.swept = true ∧ t.spm = s.spm ∧ t.nvm = s.nvm := by
  obtain ⟨hranks, hmem, hpower, hspm, hnvm⟩ := s.threeSwept_shows a b c
  generalize s.threeSwept a b c = v at hranks hmem hpower hspm hnvm
  obtain ⟨hbit, hpower', hkept, -⟩ := v.stepDone_shows 7 us
  have hrest : (v.stepDone 7 us).memUnit = v.memUnit ∧ (v.stepDone 7 us).rankMem = v.rankMem ∧ (v.stepDone 7 us).spm = v.spm ∧
      (v.stepDone 7 us).nvm = v.nvm := ⟨rfl, rfl, rfl, rfl⟩
  dsimp only
  generalize v.stepDone 7 us = t at hbit hpower' hkept hrest ⊢
  obtain ⟨hunit, hrm, hsp, hnv⟩ := hrest
  refine ⟨hbit, fun r hr => ?_, hrm.trans hmem, by rw [hpower', hpower], hsp.trans hspm, hnv.trans hnvm⟩
  obtain ⟨hstate, hsrc, hmark, hdelays⟩ := hranks r hr
  have hsame : t.rank r = v.rank r := by
    unfold State.rank
    rw [hunit]
  have hkeys : ∀ n ∈ [0, 1, 2], Obj.DRM_RSTATE n ∉ [Obj.PWR_BOOT_STEP] ∧ Obj.DRM_TRAIN_SRC n ∉ [Obj.PWR_BOOT_STEP] ∧
      Obj.DRM_DIEMARK n ∉ [Obj.PWR_BOOT_STEP] := by decide
  obtain ⟨h1, h2, h3⟩ := hkeys r hr
  exact ⟨(hkept _ h1).trans hstate, (hkept _ h2).trans hsrc, (hkept _ h3).trans hmark, by rw [hsame, hdelays]⟩

/-- Step 8 by the ends of the two slices (R441, R446). -/
theorem State.Boots.calibrates (h : s.Boots) (hrst : s.power.rstN = false) (hprev : s.ob Obj.PWR_BOOT_STEP 3 = true)
    (hlocked : s.ob Obj.PWR_BOOT_STEP 5 = true) (hopen : s.ob Obj.PWR_BOOT_STEP 8 = false) (hup : s.cufel.down = false)
    (hrole : s.o Obj.CF_ROLE ≠ 3) (hpassed : s.hk.passed = []) (hists : List (List Nat × List Nat)) (hk : List (Int × Int)) (c : Ch) :
    ((s.hkConsts 0 (hk.take 4)).isSome = true → (s.hkConsts 1 (hk.drop 4)).isSome = true →
      Runs (.bootStart (.calibrate hists hk true true) us) s (fun t =>
        t.ob Obj.PWR_BOOT_STEP 8 = true ∧ t.o Obj.HK_STATE = 1 ∧ t.o (Obj.TDC_LUTGEN c) = 1 ∧
        (bootRunOk (hists.getD c ([], [])) = true → (t.chan c).lut = lutOf 16 0 (hists.getD c ([], [])).1) ∧
        (bootRunOk (hists.getD c ([], [])) = false → (t.chan c).lut = linearLut) ∧ t.keepsMemories s)) ∧
    ((s.hkConsts 0 (hk.take 4)).isSome = false → (s.hkConsts 1 (hk.drop 4)).isSome = false →
      Runs (.bootStart (.calibrate hists hk true true) us) s (fun t => t.ob Obj.PWR_BOOT_STEP 8 = false ∧
        t.o Obj.HK_CAL_FAIL = satAdd 32 (satAdd 32 (s.o Obj.HK_CAL_FAIL) 1) 1 ∧ t.keepsObjects s [Obj.HK_CAL_FAIL] ∧
        t.hk.consts = s.hk.consts ∧ t.chans = s.chans ∧ t.keepsMemories s)) ∧
    ((s.hkConsts 0 (hk.take 4)).isSome = true → (s.hkConsts 1 (hk.drop 4)).isSome = false →
      Runs (.bootStart (.calibrate hists hk true true) us) s (fun t => t.ob Obj.PWR_BOOT_STEP 8 = false ∧ t.hk.passed = [0] ∧
        t.o Obj.HK_CAL_FAIL = satAdd 32 (s.o Obj.HK_CAL_FAIL) 1 ∧
        t.hk.consts = (hk.take 4).map (fun e => hkConst e.1 e.2 s.open) ++ s.hk.consts.drop 4 ∧ t.chans = s.chans)) := by
  refine ⟨fun h0 h1 => bootStart_runs ?_, fun h0 h1 => bootStart_runs ?_, fun h0 h1 => bootStart_runs ?_⟩
  · have hend := State.bootCalibrate_of hists hpassed (hkSliceCal_good ((hkConsts_isSome _ _ _).mp h0) 0)
      (hkSliceCal_good ((hkConsts_isSome _ _ _).mp h1) 1)
    have hslices : ((s.slicePassed 0 (hk.take 4)).slicePassed 1 (hk.drop 4)).keepsMemories s := ⟨rfl, rfl, rfl⟩
    rw [h.calibrate hrst hprev hlocked hopen hup hrole hend, if_pos rfl]
    generalize (s.slicePassed 0 (hk.take 4)).slicePassed 1 (hk.drop 4) = v at hslices
    have hready := (v.bootLuts_calibrated hists c).done
      (bits (((v.bootLuts hists).setO Obj.HK_STATE 1).o Obj.CHK_BIST) 6 5 == 0)
      (bits (((v.bootLuts hists).setO Obj.HK_STATE 1).o Obj.CHK_BIST) 8 7 == 0)
    generalize State.calibrationDone _ _ _ = w at hready
    obtain ⟨hstate, ⟨hgen, hlut⟩, hmem⟩ := hready.stepDone us.toNat
    refine ⟨(w.stepDone_shows 8 us.toNat).1, hstate, hgen, fun hok => ?_, fun hbad => ?_, State.keepsMemories_trans hmem hslices⟩
    · rw [hlut, bootLutOf, if_pos hok]
    · rw [hlut, bootLutOf, if_neg (ne_true_of_eq_false hbad)]
  · have hend := State.bootCalibrate_of hists hpassed (hkSliceCal_bad (hkConsts_isNone h0) 0) (hkSliceCal_bad (hkConsts_isNone h1) 1)
    obtain ⟨hcount, hkeep, hconsts, hchans, hmem⟩ := s.slicesFailed
    rw [h.calibrate hrst hprev hlocked hopen hup hrole hend, if_neg Bool.false_ne_true]
    exact ⟨(State.ob_of_o (hkeep _ (by decide))).trans hopen, hcount, hkeep, hconsts, hchans, hmem⟩
  · have hend := State.bootCalibrate_of hists hpassed (hkSliceCal_good ((hkConsts_isSome _ _ _).mp h0) 0)
      (hkSliceCal_bad (hkConsts_isNone h1) 1)
    obtain ⟨hone, hcount, hconsts, hchans, hkeep⟩ := s.sliceOneFailed (hk.take 4)
    rw [h.calibrate hrst hprev hlocked hopen hup hrole hend, if_neg Bool.false_ne_true]
    exact ⟨(State.ob_of_o (hkeep _ (by decide))).trans hopen, hone, hcount, hconsts, hchans⟩

/-- Settles O44: one gate judges every boot step, and each step's end is followed through what it writes. -/
theorem bootStepsCompleteInOrder : Obligations.BootStepsCompleteInOrder := by
  unfold Obligations.BootStepsCompleteInOrder
  intro b us bist patch fuse x y d1 d2 d3 hists hk c s
  refine ⟨fun h => execBootStart_same (bootStep_stopped b h), fun h => ?_, fun h => ?_, fun h => ?_, fun h => ?_, fun h => ?_,
    fun hpower hclock hthaw => ?_⟩
  · refine execBootStart_same (bootStep_waits ?_)
    rcases h with hrst | hprev | hdone
    · exact stepDue_over (by decide) (.inl hrst)
    · exact stepDue_early (m := 2) (by decide) hprev
    · exact stepDue_over (by decide) (.inr hdone)
  · exact execBootStart_same (bootStep_waits (stepDue_down rfl h))
  · rcases h with hdown | hrole
    · exact ⟨execBootStart_same (bootStep_waits (stepDue_down rfl hdown)), execBootStart_same (bootStep_waits (stepDue_down rfl hdown))⟩
    · exact ⟨execBootStart_same (bootStep_waits (stepDue_factory (by decide) hrole)),
        execBootStart_same (bootStep_waits (stepDue_factory (by decide) hrole))⟩
  · exact ⟨execBootStart_same (bootStep_waits (stepDue_early (m := 3) (by decide) h)),
      execBootStart_same (bootStep_waits (stepDue_early (m := 3) (by decide) h))⟩
  · rcases h with hprev | hlock
    · exact ⟨execBootStart_same (bootStep_waits (stepDue_early (m := 3) (by decide) hprev)),
        execBootStart_same (bootStep_waits (stepDue_early (m := 3) (by decide) hprev))⟩
    · exact ⟨execBootStart_same (bootStep_waits (stepDue_early (m := 5) (by decide) hlock)),
        execBootStart_same (bootStep_waits (stepDue_early (m := 5) (by decide) hlock))⟩
  · have hboots : s.Boots := ⟨hpower, hclock, hthaw⟩
    refine ⟨fun hopen => bootStart_runs ?_, fun hrst hprev hopen => bootStart_runs ?_, fun hrst hprev hopen => bootStart_runs ?_,
      fun hrst hprev hopen hrole hup => ⟨bootStart_runs ?_, fun hnone => bootStart_runs ?_⟩,
      fun hrst hprev hlocked hopen hup hrole hgood => bootStart_runs ?_,
      fun hrst hprev hlocked hopen hup hrole hpassed => hboots.calibrates hrst hprev hlocked hopen hup hrole hpassed hists hk c⟩
    · rw [hboots.feeds hopen]
      obtain ⟨hbit, htrace, hkeep, hframe⟩ := s.stepDone_shows 1 us.toNat
      exact ⟨hbit, congrArg Power.trace htrace, hkeep, hframe⟩
    · rw [hboots.firmware hrst hprev hopen]
      exact s.firmware_completes us.toNat bist patch (fuse.map BitVec.toNat)
    · rw [hboots.scratchpad hrst hprev hopen]
      exact s.scratchpad_completes us.toNat (cellsOf x) (cellsOf y)
    · rw [hboots.config hrst hprev hopen hup]
      exact s.bootConfig_step false false us.toNat
    · rw [hboots.config hrst hprev hopen hup]
      obtain ⟨hbank, hmem, hstate⟩ := s.bootConfig_none hnone hrole us.toNat
      exact ⟨s.bootConfig_step false false us.toNat, hbank, hmem, hstate.trans hpower⟩
    · rw [hboots.dram hrst hprev hlocked hopen hup hrole (hgood d1 (by simp)) (hgood d2 (by simp)) (hgood d3 (by simp))]
      exact s.dram_completes us.toNat d1 d2 d3

end Sys2Proof.Machine
end

section
/-! SUPPORT. What a tick leaves alone on its way: network time, its servo's objects, and what still waits for the tick (R36, R415). -/
namespace Sys2Proof.Machine

variable {s t u : State} {k : Nat} {ks : List Nat}

/-! ### The frame -/

/-- The objects that network time advances by, and shows its state and its steps in. -/
def ntKeys : List Nat := [Obj.NT_STATE, Obj.NT_STEPS, Obj.NT_INCR, Obj.NT_RATE]

theorem notMem_ntKeys (h : k / 256 ≠ 0x5440) : k ∉ ntKeys := fun hmem =>
  h ((by decide : ∀ j ∈ ntKeys, j / 256 = 0x5440) k hmem)

/-- Network time with its servo, and what waits for the tick or would act at it. -/
structure TickPart where
  nt : Nat
  time : NetTime
  live : List (Nat × Nat)
  sched : List Sched
  tick : Nat
  align : Option (Nat × Nat)
  applied : List (Nat × List (Nat × Nat))
  tlm : Option (Nat × Nat)
  resume : Bool
  deferred : List (Nat × Nat × Ch)
  parking : Option Nat
  reinit : List Nat

def State.tickPart (s : State) : TickPart :=
  { nt := s.nt, time := s.time, live := s.livePend, sched := s.sched, tick := s.tick, align := s.alignPend, applied := s.applied,
    tlm := s.cufel.tlm, resume := s.clk.resume, deferred := s.power.deferred, parking := s.power.parking, reinit := s.power.reinit }

/-- Network time, its objects, and what waits for the tick are as in s. -/
structure State.TickFrame (t s : State) : Prop where
  part : t.tickPart = s.tickPart
  objs : ∀ k ∈ ntKeys, t.o k = s.o k

theorem State.TickFrame.refl (s : State) : s.TickFrame s := ⟨rfl, fun _ _ => rfl⟩

theorem State.TickFrame.trans (h : u.TickFrame t) (h' : t.TickFrame s) : u.TickFrame s :=
  ⟨h.part.trans h'.part, fun k hk => (h.objs k hk).trans (h'.objs k hk)⟩

theorem State.TickFrame.setO (h : t.TickFrame s) (hk : k ∉ ntKeys) (v : Nat) : (t.setO k v).TickFrame s :=
  ⟨h.part, fun j hj => (t.o_setO_ne v fun e : j = k => hk (e ▸ hj)).trans (h.objs j hj)⟩

theorem State.TickFrame.bump (h : t.TickFrame s) (hk : k ∉ ntKeys) : (t.bump k).TickFrame s := h.setO hk _

/-- What differs in neither the part nor the objects. -/
theorem State.TickFrame.frame (h : t.TickFrame s) (hpart : u.tickPart = t.tickPart) (hobj : u.obj = t.obj) : u.TickFrame s :=
  ⟨hpart.trans h.part, fun k hk => (State.o_congr hobj k).trans (h.objs k hk)⟩

theorem State.TickFrame.of_keeps (hpart : t.tickPart = s.tickPart) (hobj : t.keepsObjects s ks) (hks : ∀ k ∈ ntKeys, k ∉ ks) :
    t.TickFrame s := ⟨hpart, fun k hk => hobj k (hks k hk)⟩

theorem State.TickFrame.of_objects (hframe : t.keepsButObjects s) (hobj : t.keepsObjects s ks) (hks : ∀ k ∈ ntKeys, k ∉ ks) :
    t.TickFrame s := .of_keeps (congrArg State.tickPart hframe :) hobj hks

theorem State.TickFrame.of_links (h : t.LinkFrame s) : t.TickFrame s where
  part := (congrArg State.tickPart h.rest :)
  objs k hk := h.objs k ((by decide : ∀ k ∈ ntKeys, linkKey k = false) k hk)

theorem State.TickFrame.ite {c : Prop} [Decidable c] (ht : t.TickFrame s) (hu : u.TickFrame s) :
    (if c then t else u).TickFrame s := by
  split
  · exact ht
  · exact hu

theorem State.TickFrame.foldl {β : Type} {step : State → β → State} {xs : List β} (h : ∀ x ∈ xs, ∀ v, (step v x).TickFrame v)
    (s : State) : (xs.foldl step s).TickFrame s := by
  induction xs generalizing s with
  | nil => exact .refl s
  | cons x xs ih => exact (ih (fun y hy => h y (List.mem_cons_of_mem _ hy)) _).trans (h x List.mem_cons_self s)

/-! ### Records and conditions -/

theorem State.stage_tickFrame (s : State) (code cls unit : Nat) (d : List Byte) : (s.stage code cls unit d).TickFrame s :=
  .of_keeps (congrArg State.tickPart (s.stage_frame code cls unit d) :) (s.stage_keepsObjects code cls unit d) (by decide)

theorem State.event_tickFrame (s : State) (cls code xc nt i j : Nat) (p : List Byte) : (s.event cls code xc nt i j p).TickFrame s := by
  have htlm : (s.event cls code xc nt i j p).cufel.tlm = s.cufel.tlm := by
    have hsoil : ((s.wrapBy 16 Obj.CF_EVT_SEQ 1).soil 0x5C4000 0x8000).cufel = s.cufel := by
      unfold State.soil
      split <;> rfl
    unfold State.event
    split
    · rfl
    · extract_lets e v w
      have hw : w.cufel.tlm = s.cufel.tlm := congrArg Cufel.tlm hsoil
      clear_value w
      split
      · exact hw
      · split <;> exact hw
  obtain ⟨hobj, hframe⟩ := s.event_leaves cls code xc nt i j p
  refine .of_keeps ?_ hobj (by decide)
  generalize s.event cls code xc nt i j p = v at htlm hframe ⊢
  have hpart := (congrArg State.tickPart hframe :)
  simp only [State.tickPart, TickPart.mk.injEq] at hpart ⊢
  simp only [htlm, hpart, and_self]

theorem condCnt_notMem_ntKeys (n : Nat) : Obj.FLT_COND_CNT n ∉ ntKeys :=
  notMem_ntKeys (by simp only [Obj.FLT_COND_CNT, objKey]; omega)

theorem State.ariseIf_tickFrame (s : State) (n : Nat) : (s.ariseIf n).TickFrame s := by
  refine .of_objects (s.ariseIf_keepsButObjects n) (s.ariseIf_keepsObjects n) fun k hk hmem => ?_
  simp only [List.mem_cons, List.not_mem_nil, or_false] at hmem
  rcases hmem with rfl | rfl | rfl | rfl
  · exact absurd hk (by decide)
  · exact absurd hk (by decide)
  · exact absurd hk (by decide)
  · exact condCnt_notMem_ntKeys n hk

theorem State.settle_tickFrame (s : State) : s.settle.TickFrame s := .of_links s.settle_linkFrame

theorem State.noteWord_tickFrame (s : State) (agent a : Nat) (u : List Upset) : (s.noteWord agent a u).TickFrame s :=
  .of_keeps (congrArg State.tickPart (s.noteWord_keepsButNoted agent a u) :) (s.noteWord_keepsObjects agent a u) (by decide)

theorem State.readSpm_tickFrame (s : State) (agent a n : Nat) (u : List Upset) : (s.readSpm agent a n u).1.TickFrame s :=
  .foldl (fun _ _ v => v.noteWord_tickFrame agent _ u) s

/-! ### The floors and the layout (R157, R158, R166) -/

theorem State.capLim_tickFrame (s : State) : s.capLim.TickFrame s := by
  unfold State.capLim
  split
  · exact .ite ((State.stage_tickFrame _ _ _ _ _).trans ((State.TickFrame.refl s).setO (by decide) _)) ((State.TickFrame.refl s).setO (by decide) _)
  · exact .refl s

theorem State.floorUpdate_tickFrame (s : State) : s.floorUpdate.TickFrame s := by
  unfold State.floorUpdate
  split
  · exact .refl s
  · exact ((s.capLim_tickFrame.setO (k := Obj.LB_CAPFLOOR) (by decide) _).setO (k := Obj.LB_FLOOR) (by decide) _).frame rfl rfl

theorem State.wakeSpare_tickFrame (s : State) (p0 p1 : Nat) : (s.wakeSpare p0 p1).TickFrame s := by
  unfold State.wakeSpare
  exact .ite (((State.TickFrame.refl s).setO (k := Obj.DRM_RSTATE 2) (by decide) 5).setO (k := Obj.LB_RANKMAP) (by decide) _) (.refl s)

theorem State.releaseRetired_tickFrame (s : State) : s.releaseRetired.TickFrame s := by
  refine .foldl (fun r _ v => .ite ((State.TickFrame.refl v).setO (notMem_ntKeys ?_) 8) (.refl v)) s
  have hr : r < 3 := List.mem_range.mp ‹_›
  simp only [Obj.DRM_RSTATE, objKey]
  omega

theorem State.creditMode_tickFrame (s : State) : s.creditMode.TickFrame s :=
  ((State.TickFrame.refl s).setO (k := Obj.ASM_CREDIT_RATE) (by decide) _).setO (k := Obj.ASM_CREDIT_DEPTH) (by decide) _
    |>.setO (k := Obj.ASM_CREDIT) (by decide) _

theorem State.switchTo_tickFrame (s : State) (target p0 p1 : Nat) (noRank : Bool) : (s.switchTo target p0 p1 noRank).TickFrame s := by
  unfold State.switchTo
  extract_lets old a b c lb inner d e
  have ha : a.TickFrame s := s.wakeSpare_tickFrame p0 p1
  have hb : b.TickFrame s := ((ha.setO (k := Obj.LB_LOSTBELOW) (by decide) _).bump (k := Obj.LB_SWITCHES) (by decide)).setO
    (k := Obj.LB_DISCARD) (by decide) _
  have hc : c.TickFrame s := ((hb.setO (k := Obj.LB_WPTR) (by decide) _).setO (k := Obj.LB_STATE) (by decide) _).setO
    (k := Obj.LB_RANKMAP) (by decide) _
  clear_value c inner
  have hlb : ({ c with lb := inner } : State).TickFrame s := ⟨hc.part, hc.objs⟩
  have hd : d.TickFrame s := (State.creditMode_tickFrame _).trans ((State.releaseRetired_tickFrame _).trans hlb)
  have he : e.TickFrame s := (d.stage_tickFrame _ _ _ _).trans hd
  exact (State.floorUpdate_tickFrame _).trans ((State.settle_tickFrame _).trans (.ite ((e.ariseIf_tickFrame 5).trans he) he))

theorem State.layoutSwitch_tickFrame (s : State) : s.layoutSwitch.TickFrame s := by
  unfold State.layoutSwitch
  split
  · exact .refl s
  · refine .ite ?_ (.refl s)
    split
    · exact (State.TickFrame.refl s).frame rfl rfl
    · exact .ite (.refl s) (s.switchTo_tickFrame _ _ _ _)

/-! ### A slice closes (R133 to R137) -/

theorem groupKey_notMem_ntKeys (w : Nat) : Obj.GRP_LOSS_CAP (recordGroup w) ∉ ntKeys ∧ Obj.GRP_ACCEPTED (recordGroup w) ∉ ntKeys := by
  have hg : recordGroup w < 8 := Nat.mod_lt _ (by decide)
  constructor <;> refine notMem_ntKeys ?_
  · simp only [Obj.GRP_LOSS_CAP, objKey]
    omega
  · simp only [Obj.GRP_ACCEPTED, objKey]
    omega

theorem State.countDisplaced_tickFrame (s : State) (o : OpenSlice) : (s.countDisplaced o).TickFrame s := by
  unfold State.countDisplaced
  split
  · exact ((State.TickFrame.refl s).bump (groupKey_notMem_ntKeys _).1).frame rfl rfl
  · exact .refl s

theorem State.countTrunc_tickFrame (s : State) (o : OpenSlice) : (s.countTrunc o).TickFrame s := by
  have hcount : ((s.bump Obj.ASM_TRUNC).setO Obj.ASM_LOSSX o.x).TickFrame s :=
    ((State.TickFrame.refl s).bump (by decide)).setO (by decide) _
  unfold State.countTrunc
  exact .ite (.ite ((State.stage_tickFrame _ _ _ _ _).trans hcount) hcount) (.refl s)

theorem State.writeEntry_tickFrame (s : State) (x w : Nat) : (s.writeEntry x w).TickFrame s := (State.TickFrame.refl s).frame rfl rfl

theorem State.pairFix_tickFrame (s : State) (x : Nat) (u : List Upset) : (s.pairFix x u).TickFrame s := by
  have hread := s.readSpm_tickFrame 1 (s.indexAddr x) 8 u
  unfold State.pairFix
  exact .ite (.ite ((State.writeEntry_tickFrame _ _ _).trans hread) ((State.writeEntry_tickFrame _ _ _).trans hread)) (.refl s)

theorem State.spillFault_tickFrame (s : State) : s.spillFault.TickFrame s := .ite (.refl s) ((State.TickFrame.refl s).frame rfl rfl)

theorem State.spillSlice_tickFrame (s : State) (o : OpenSlice) : (s.spillSlice o).TickFrame s := by
  unfold State.spillSlice
  extract_lets n a b c d e
  have ha : a.TickFrame s := s.spillFault_tickFrame
  have hb : b.TickFrame s := (ha.frame (u := a.noteClosed o 0) rfl rfl).setO (k := Obj.ASM_WC_SPILL) (by decide) _
  have hd : d.TickFrame s := (State.stage_tickFrame _ _ _ _ _).trans (hb.setO (k := Obj.ASM_WC_SPILLX) (by decide) _)
  have he : e.TickFrame s := .ite (hd.frame rfl rfl) hd
  exact (e.writeEntry_tickFrame _ _).trans he

theorem State.storeSlice_tickFrame (s : State) (o : OpenSlice) : (s.storeSlice o).TickFrame s := by
  unfold State.storeSlice
  extract_lets b p a lb inner c d e
  have hkept : a.TickFrame (s.noteClosed o b.length) :=
    .foldl (fun w _ v => (State.TickFrame.refl v).setO (groupKey_notMem_ntKeys w).2 _) _
  have ha : a.TickFrame s := hkept.trans ((State.TickFrame.refl s).frame rfl rfl)
  have hd : d.TickFrame s := (ha.frame (u := c) rfl rfl).setO (k := Obj.ASM_WC_PEAK) (by decide) _
  have he : e.TickFrame s := (hd.setO (k := Obj.LB_WPTR) (by decide) _).setO (k := Obj.LB_WTOTAL) (by decide) _
  exact (e.writeEntry_tickFrame _ _).trans he

theorem State.drainDone_tickFrame (s : State) : s.drainDone.TickFrame s :=
  .ite ((State.TickFrame.refl s).setO (by decide) 0) (.refl s)

/-- The slices that stay open are the assembler's own. -/
theorem State.opened_tickFrame (s : State) (asm : Asm) : ({ s with asm := asm } : State).TickFrame s := ⟨rfl, fun _ _ => rfl⟩

theorem State.closeSlice_tickFrame (s : State) (o : OpenSlice) (u : List Upset) : (s.closeSlice o u).TickFrame s := by
  unfold State.closeSlice
  extract_lets asm a b c d
  have ha : a.TickFrame s := s.opened_tickFrame _
  have hb : b.TickFrame s := (State.countTrunc_tickFrame _ o).trans
    (((a.countDisplaced_tickFrame o).trans ha).setO (k := Obj.ASM_SLICES) (by decide) _)
  have hc : c.TickFrame s := (b.pairFix_tickFrame _ u).trans hb
  have hd : d.TickFrame s := .ite ((c.spillSlice_tickFrame o).trans hc) ((c.storeSlice_tickFrame o).trans hc)
  exact (State.floorUpdate_tickFrame _).trans (d.drainDone_tickFrame.trans hd)

theorem State.emptyEntry_tickFrame (s : State) (o : OpenSlice) (u : List Upset) : (s.emptyEntry o u).TickFrame s := by
  unfold State.emptyEntry
  extract_lets asm a
  have ha : a.TickFrame s := s.opened_tickFrame _
  exact (State.drainDone_tickFrame _).trans ((State.writeEntry_tickFrame _ _ _).trans ((a.pairFix_tickFrame _ u).trans ha))

theorem State.closeCrossing_tickFrame (s : State) (o : OpenSlice) (u : List Upset) : (s.closeCrossing o u).TickFrame s := by
  unfold State.closeCrossing
  extract_lets a asm b
  have hb : b.TickFrame s := (a.opened_tickFrame _).trans s.layoutSwitch_tickFrame
  exact .ite ((b.closeSlice_tickFrame o u).trans hb) ((b.emptyEntry_tickFrame o u).trans hb)

theorem State.closeDue_tickFrame (s : State) (u : List Upset) : (s.closeDue u).TickFrame s :=
  .foldl (fun o _ v => v.closeCrossing_tickFrame o u) s

end Sys2Proof.Machine
end

section
/-! SUPPORT. The steps of a tick, each with what it leaves alone of network time (R36, R408, R415). -/
namespace Sys2Proof.Machine

variable {s t u : State} {c : Ch}

/-! ### What the tick in progress still brings (R36, R336, R417, R421) -/

/-- Nothing of the tick in progress is still due: no message, command, alignment or alarm, and its marker has been judged. -/
structure State.TickIdle (s : State) : Prop where
  marker : s.clk.marker = some s.tick
  due : s.due = []
  align : s.alignPend = none
  waiting : (s.time.waiting.all fun m => decide (s.tick ≤ m.tick)) = true
  alarms : ∀ k : Fin 8, s.alarmDue k = false

theorem State.servoUpdate_idle (h : (s.time.waiting.all fun m => decide (s.tick ≤ m.tick)) = true) : s.servoUpdate = s := by
  unfold State.servoUpdate
  split
  next m r hm =>
    rw [hm, List.all_cons, Bool.and_eq_true, decide_eq_true_iff] at h
    exact if_neg (Nat.not_lt.mpr h.1)
  next => rfl

theorem foldl_fixed {α β : Type} {f : α → β → α} {a : α} {l : List β} (h : ∀ x ∈ l, f a x = a) : l.foldl f a = a := by
  induction l with
  | nil => rfl
  | cons x l ih => rw [List.foldl_cons, h x List.mem_cons_self, ih fun y hy => h y (List.mem_cons_of_mem _ hy)]

theorem State.servoAll_idle (h : (s.time.waiting.all fun m => decide (s.tick ≤ m.tick)) = true) : s.servoAll = s :=
  foldl_fixed fun _ _ => State.servoUpdate_idle h

theorem State.alarmsTo_idle (h : ∀ k : Fin 8, s.alarmDue k = false) : s.alarmsTo 7 = s :=
  foldl_fixed fun k hk => if_neg (by rw [h ⟨k, List.mem_range.mp hk⟩]; decide)

theorem State.dropDue_idle (h : s.due = []) (code : Nat) : s.dropDue code = s := by
  have hsched : (s.sched.filter fun c => c.tick != s.tick) = s.sched :=
    List.filter_eq_self.mpr fun c hc => by
      have hne := List.filter_eq_nil_iff.mp h c hc
      simpa using hne
  unfold State.dropDue
  rw [hsched, h, List.dropWhile_nil, List.append_nil]

theorem State.resyncApply_noneDue (hdue : s.due = []) (halign : s.alignPend = none) : s.resyncApply = s := by
  unfold State.resyncApply
  split
  · rfl
  · simp only [State.dueCmds, hdue, List.takeWhile_nil, List.foldl_nil, State.dropDue_idle hdue, halign]

theorem State.runDue_idle (hdue : s.due = []) (halign : s.alignPend = none) : State.runDue s.due.length s = s := by
  rw [hdue]
  exact State.resyncApply_noneDue hdue halign

theorem State.finishTick_idle (h : s.TickIdle) (hrun : s.inRun = true) : s.finishTick = s := by
  have hturn : s.turnMarker = s := by simp [State.turnMarker, h.marker]
  have hhold : s.o Obj.PWR_STATE ≠ 4 := fun hp => by simp [State.inRun, hp] at hrun
  unfold State.finishTick
  split
  · rw [State.servoAll_idle h.waiting]
    unfold State.syncEffects
    rw [hturn, if_neg hhold, State.runDue_idle h.due h.align, State.alarmsTo_idle h.alarms]
  · rfl

/-! ### The start of the tick (R144, R408, R414) -/

theorem State.tpPlace_tickFrame (s : State) (x w : Nat) (sent : Bool) : (s.tpPlace x w sent).TickFrame s :=
  .of_keeps (congrArg State.tickPart (s.tpPlace_keepsButSent x w sent) :) (s.tpPlace_keepsObjects x w sent) (by decide)

theorem State.tpSend_tickFrame (s : State) (x w : Nat) (sent : Bool) : (s.tpSend x w sent).TickFrame s := by
  have hshow : ((s.setO Obj.TP_LAST w).setO Obj.TP_LASTX x).TickFrame s :=
    ((State.TickFrame.refl s).setO (by decide) _).setO (by decide) _
  unfold State.tpSend
  exact .ite hshow (.ite (hshow.bump (by decide)) ((State.tpPlace_tickFrame _ x w sent).trans hshow))

theorem State.tpForm_tickFrame (s : State) (x : Nat) (sent : Bool) : (s.tpForm x sent).TickFrame s := by
  unfold State.tpForm
  extract_lets w v
  have hv : v.TickFrame s := (State.TickFrame.refl s).frame rfl rfl
  exact .ite hv (.ite (hv.frame rfl rfl) ((v.tpSend_tickFrame x w sent).trans hv))

theorem State.lbResync_tickFrame (s : State) (n : Nat) : (s.lbResync n).TickFrame s := by
  unfold State.lbResync
  split
  · exact .refl s
  · extract_lets a b
    have ha : a.TickFrame s := (((State.TickFrame.refl s).setO (k := Obj.LB_LOSTBELOW) (by decide) _).setO (k := Obj.LB_FLOOR) (by decide) _).setO
      (k := Obj.LB_CAPFLOOR) (by decide) _
    have hb : b.TickFrame s := .ite (ha.setO (by decide) _) ha
    exact hb.frame rfl rfl

/-- The tick that the count starts from. -/
def State.nextTick (s : State) : State := { s with tick := s.tick + 1 }

theorem State.nextTick_tickFrame (h : t.TickFrame s) : t.nextTick.TickFrame s.nextTick where
  part := by
    have hp := h.part
    simp only [State.tickPart, TickPart.mk.injEq] at hp
    obtain ⟨hnt, htime, hlive, hsched, htick, halign, happlied, htlm, hresume, hdeferred, hparking, hreinit⟩ := hp
    simp only [State.tickPart, State.nextTick, hnt, htime, hlive, hsched, htick, halign, happlied, htlm, hresume, hdeferred, hparking,
      hreinit]
  objs := h.objs

theorem State.countTick_tickFrame (s : State) : s.countTick.TickFrame s.nextTick := by
  have hcount (n : Nat) : (s.nextTick.setO Obj.XC_COUNT n).TickFrame s.nextTick := (State.TickFrame.refl _).setO (by decide) _
  have hwraps := ((hcount 0).bump (k := Obj.XC_WRAPS) (by decide))
  have hlb := (State.lbResync_tickFrame _ 0).trans hwraps
  have hquery (v : State) (n : Nat) (hv : v.TickFrame s.nextTick) : (v.queryResync n).TickFrame s.nextTick := ⟨hv.part, hv.objs⟩
  unfold State.countTick
  refine .ite ((hcount 0).frame rfl rfl) (.ite (hcount _) ?_)
  exact (hquery _ (2 ^ 48) hlb).setO (by decide) _

theorem State.resumeService_idle (h : s.clk.resume = false) : s.resumeService = s := if_neg (by simp [h])

theorem State.takeDeferred_tickFrame (h : s.power.deferred = []) : s.takeDeferred.TickFrame s := by
  unfold State.takeDeferred
  split
  · rw [h]
    refine ⟨?_, fun _ _ => rfl⟩
    simp only [State.tickPart, List.filter_nil, List.foldl_nil, h]
  · exact .refl s

theorem State.capture_tickFrame (s : State) (src : Nat) : (s.capture src).TickFrame s :=
  ((State.TickFrame.refl s).setO (k := Obj.NT_CAPT_CNT) (by decide) _).frame rfl rfl

theorem State.wrapCapture_tickFrame (s : State) (wraps : Bool) : (s.wrapCapture wraps).TickFrame s :=
  .ite (s.capture_tickFrame 4) (.refl s)

theorem State.thawTick_tickFrame (s : State) : s.thawTick.TickFrame s := by
  unfold State.thawTick
  exact .ite (((State.TickFrame.refl s).setO (k := Obj.FRZ_RESUME_X) (by decide) _).frame rfl rfl) (.refl s)

/-- The state before network time advances. -/
def State.tickCounted (s : State) (sent : Bool) : State := ((s.tpForm s.xc sent).countTick).resumeService.takeDeferred

theorem State.tickCounted_tickFrame (sent : Bool) (hresume : s.clk.resume = false) (hdeferred : s.power.deferred = []) :
    (s.tickCounted sent).TickFrame s.nextTick := by
  have hcount : (s.tpForm s.xc sent).countTick.TickFrame s.nextTick :=
    (State.countTick_tickFrame _).trans (State.nextTick_tickFrame (s.tpForm_tickFrame s.xc sent))
  have hr : (s.tpForm s.xc sent).countTick.clk.resume = false := (congrArg TickPart.resume hcount.part :).trans hresume
  have hd : (s.tpForm s.xc sent).countTick.power.deferred = [] := (congrArg TickPart.deferred hcount.part :).trans hdeferred
  unfold State.tickCounted
  rw [State.resumeService_idle hr]
  exact (State.takeDeferred_tickFrame hd).trans hcount

/-- The first half of a tick is the advance of network time, from a state that differs in nothing of it. -/
theorem State.tickStart_advances (sent : Bool) (hresume : s.clk.resume = false) (hdeferred : s.power.deferred = []) :
    ∃ v : State, v.TickFrame s.nextTick ∧ (s.tickStart sent).TickFrame v.ntAdvance :=
  ⟨s.tickCounted sent, State.tickCounted_tickFrame sent hresume hdeferred,
    (State.thawTick_tickFrame _).trans (State.wrapCapture_tickFrame _ _)⟩

/-! ### Settings in force (R36, R493, R523, R538) -/

theorem State.reinitOver_tickFrame (h : s.power.reinit = []) (f : Nat) : (s.reinitOver f).TickFrame s := by
  refine ⟨?_, fun _ _ => rfl⟩
  simp only [State.tickPart, State.reinitOver, h, List.filter_nil]

theorem State.reinitTick_tickFrame (h : s.power.reinit = []) : s.reinitTick.TickFrame s := by
  have hfront : s.frontTick = s := by simp [State.frontTick, h]
  have hasm : s.asmTick = s := by simp [State.asmTick, h]
  have hlink : s.linkTick = s := by simp [State.linkTick, h]
  unfold State.reinitTick
  rw [hfront, hasm, hlink]
  exact .ite (.refl s) (State.reinitOver_tickFrame h 4)

theorem State.parkTick_idle (h : s.power.parking = none) : s.parkTick = s := if_neg (by simp [h])

theorem State.liveWrites_none (h : s.livePend = []) : s.liveWrites = s := by
  have hempty : ({ s with livePend := [] } : State) = s := by rw [← h]
  unfold State.liveWrites
  rw [h, hempty]
  rfl

theorem State.liveEffect_ntSet (s : State) (v : Nat) : s.liveEffect Obj.NT_SET v = s.ntSetEffect v := rfl

/-- A write of NT_SET that waits alone is put in force. -/
theorem State.liveWrites_ntSet {v : Nat} (h : s.livePend = [(Obj.NT_SET, v)]) :
    ∃ differs, s.liveWrites = ({ s with livePend := [], differs := differs } : State).ntSetEffect v := by
  refine ⟨s.differs.filter fun e => e.key != Obj.NT_SET, ?_⟩
  have hlive : isHalt Obj.NT_SET = false := by decide
  have hlist : (([(Obj.NT_SET, v)].filter fun e => isHalt e.1) ++ [(Obj.NT_SET, v)].filter fun e => !isHalt e.1) = [(Obj.NT_SET, v)] := by
    simp [hlive]
  unfold State.liveWrites
  rw [h, hlist]
  exact State.liveEffect_ntSet _ v

/-! ### The turn marker (R106, R107, R409, R492) -/

theorem channelKey_notMem_ntKeys (c : Ch) : Obj.CH_STATUS c ∉ ntKeys ∧ Obj.TDC_LUTGEN c ∉ ntKeys := by
  have hc := c.isLt
  constructor <;> refine notMem_ntKeys ?_
  · simp only [Obj.CH_STATUS, objKey]
    omega
  · simp only [Obj.TDC_LUTGEN, objKey]
    omega

theorem State.swapChan_tickFrame (s : State) (c : Ch) (p : PendLut) : (s.swapChan c p).TickFrame s := by
  unfold State.swapChan
  extract_lets ch x v st st'
  have hv : v.TickFrame s := ⟨rfl, fun _ _ => rfl⟩
  exact (hv.setO (channelKey_notMem_ntKeys c).1 _).setO (channelKey_notMem_ntKeys c).2 _

theorem State.swapAll_tickFrame (s : State) (ready : Ch → Option PendLut) : (s.swapAll ready).1.TickFrame s := by
  refine .foldl (fun c _ v => ?_) s
  split
  · exact v.swapChan_tickFrame _ _
  · exact .refl v

theorem State.tapsUpdate_tickFrame (s : State) : s.tapsUpdate.TickFrame s :=
  ((State.TickFrame.refl s).setO (by decide) _).setO (by decide) _

theorem State.historyEntry_tickFrame (s : State) (src : Nat) (l : List Ch) : (s.historyEntry src l).TickFrame s := by
  unfold State.historyEntry
  split
  · exact .refl s
  · have hwrap : (s.wrapBy 32 Obj.TDC_CAL_BATCHES 1).TickFrame s := (State.TickFrame.refl s).setO (by decide) _
    generalize s.wrapBy 32 Obj.TDC_CAL_BATCHES 1 = v at hwrap
    extract_lets v' e h unit w
    clear_value unit
    have hw : w.TickFrame s := ⟨hwrap.part, hwrap.objs⟩
    clear_value w
    exact .ite ((w.event_tickFrame _ _ _ _ _ _ _).trans hw) hw

theorem State.assignSlots_tickFrame (s : State) : s.assignSlots.TickFrame s := by
  have h := s.assignSlots_assignedFrom
  refine .of_keeps (congrArg State.tickPart h.frame :) h.objects fun k hk hmem => ?_
  obtain ⟨c, -, rfl⟩ := List.mem_map.mp hmem
  exact (channelKey_notMem_ntKeys c).1 hk

theorem State.lutSwaps_tickFrame (s : State) : s.lutSwaps.TickFrame s := by
  have hcal := s.swapAll_tickFrame s.readyCal
  unfold State.lutSwaps
  generalize s.swapAll s.readyCal = cal at hcal
  dsimp only
  have hhost := (cal.1.swapAll_tickFrame cal.1.readyHost).trans hcal
  generalize cal.1.swapAll cal.1.readyHost = host at hhost
  have htaps := (State.tapsUpdate_tickFrame _).trans (hhost.setO (k := Obj.TDC_CAL_MAXSHIFT) (by decide) (clip 255 (max cal.2.2 host.2.2)))
  exact .ite (.refl s) ((State.assignSlots_tickFrame _).trans ((State.historyEntry_tickFrame _ 1 _).trans
    ((State.historyEntry_tickFrame _ 0 _).trans htaps)))

/-- With nothing captured by APPLY, no SHADOW value comes in force. -/
theorem State.shadowValues_none (h : s.applied = []) : s.shadowValues = s := by
  have hempty : ({ s with applied := [] } : State) = s := by rw [← h]
  unfold State.shadowValues
  rw [h]
  exact hempty

theorem State.markerEffects_tickFrame (h : s.applied = []) : s.markerEffects.TickFrame s := by
  have hcap : ({ s.capNow with lutFix := [] } : State).TickFrame s := ⟨rfl, fun _ _ => rfl⟩
  unfold State.markerEffects
  rw [State.shadowValues_none h]
  exact (State.floorUpdate_tickFrame _).trans ((State.lutSwaps_tickFrame _).trans hcap)

theorem State.turnMarker_tickFrame (h : s.applied = []) : s.turnMarker.TickFrame s := by
  have hmark : ({ s with clk := { s.clk with marker := some s.tick } } : State).TickFrame s := ⟨rfl, fun _ _ => rfl⟩
  unfold State.turnMarker
  split
  · refine .ite (State.TickFrame.trans (State.markerEffects_tickFrame ?_) hmark) hmark
    exact h
  · exact .refl s

theorem State.cmdHoldTick_tickFrame (s : State) : s.cmdHoldTick.TickFrame { s with sched := s.sched.filter fun c => decide (s.tick < c.tick) } := by
  unfold State.cmdHoldTick
  extract_lets due n
  have hlate := ((State.TickFrame.refl s).setO (k := Obj.XC_RSY_LATE) (by decide) (satAdd 32 (s.o Obj.XC_RSY_LATE) n)).setO
    (k := Obj.RG_CMD_LATE) (by decide) (satAdd 32 ((s.bumpBy Obj.XC_RSY_LATE n).o Obj.RG_CMD_LATE) (due.length - n))
  exact ⟨rfl, hlate.objs⟩

/-- Without a SHADOW value captured, and without a command or an alignment for the tick, its last steps leave network time; in Hold
old commands are discarded. -/
theorem State.syncEffects_tickFrame (happlied : s.applied = []) (hsched : ∀ x ∈ s.sched, x.tick ≠ s.tick) (halign : s.alignPend = none) :
    ∃ sched, s.syncEffects.TickFrame { s with sched := sched } := by
  have hturn := State.turnMarker_tickFrame happlied
  unfold State.syncEffects
  generalize s.turnMarker = t at hturn
  dsimp only
  have htick : t.tick = s.tick := (congrArg TickPart.tick hturn.part :)
  have hts : t.sched = s.sched := (congrArg TickPart.sched hturn.part :)
  have hta : t.alignPend = none := (congrArg TickPart.align hturn.part :).trans halign
  split
  · refine ⟨t.sched.filter fun c => decide (t.tick < c.tick), t.cmdHoldTick_tickFrame.trans ⟨?_, hturn.objs⟩⟩
    exact congrArg (fun p : TickPart => { p with sched := t.sched.filter fun c => decide (t.tick < c.tick) }) hturn.part
  · have hdue : t.due = [] := by
      unfold State.due
      rw [hts, htick]
      exact List.filter_eq_nil_iff.mpr fun x hx => by simpa using hsched x hx
    rw [State.runDue_idle hdue hta]
    exact ⟨s.sched, hturn⟩

end Sys2Proof.Machine
end

section
/-! SUPPORT. The end of a tick, and network time over a whole tick (R36, R415, R420). -/
namespace Sys2Proof.Machine

variable {s t : State} {q : Req}

/-! ### The NVM's refresh (R504, R511) -/

theorem State.storeCounted_tickFrame (s : State) (bank gen : Nat) (img : List Byte) (refresh : Bool) :
    (s.storeCounted bank gen img refresh).TickFrame s := by
  have hbank : (s.bankInForce bank gen img).TickFrame s :=
    .of_keeps rfl (s.bankInForce_keepsObjects bank gen) (by decide)
  have hkey : storesKey bank ∉ ntKeys := (by decide : ∀ k ∈ [Obj.NV_STORES_A, Obj.NV_STORES_B], k ∉ ntKeys) _ (storesKey_mem bank)
  have hcount := hbank.bump hkey
  unfold State.storeCounted
  exact State.TickFrame.setO (.ite (hcount.bump (by decide)) hcount) (by decide) 1

theorem State.storeDone_tickFrame (s : State) (bank gen : Nat) (img : List Byte) (refresh : Bool) :
    (s.storeDone bank gen img refresh).TickFrame s where
  part := (congrArg State.tickPart (s.storeDone_storeFrame bank gen refresh) :)
  objs k hk := (s.o_storeDone_counted bank gen refresh ((by decide : ∀ k ∈ ntKeys, k ∉ storeRecordKeys) k hk)).trans
    ((s.storeCounted_tickFrame bank gen img refresh).objs k hk)

theorem State.stagingRead_tickFrame (s : State) (n : Nat) (u : List Upset) : (s.stagingRead n u).1.TickFrame s := by
  obtain ⟨hframe, hobj⟩ := s.channelRead_frame 4 0x5BC000 (8 * n) u
  exact .of_keeps (congrArg State.tickPart hframe :) hobj (by decide)

theorem State.store_tickFrame (s : State) (n : Nat) (img : List Byte) (u : List Upset) (e : StoreEnd) :
    (s.store n img u e).1.TickFrame s := by
  have hread : ((s.staged img).stagingRead (img.length / 8) u).1.TickFrame s :=
    (State.stagingRead_tickFrame _ _ u).trans (.of_keeps rfl (s.staged_keepsObjects img) (by decide))
  have hnvm (v : State) (m : Memory) : ({ v with nvm := m } : State).TickFrame v := ⟨rfl, fun _ _ => rfl⟩
  unfold State.store
  extract_lets bank gen words n r v failed
  have hv : v.TickFrame s := hread
  have hfailed (m : Memory) (x : Nat) : (failed m x).1.TickFrame s := ((hnvm v m).trans hv).setO (by decide) x
  clear_value v failed
  split
  · exact hfailed _ _
  · split
    · exact (State.storeDone_tickFrame _ _ _ _ _).trans ((hnvm v _).trans hv)
    · exact hfailed _ _
    · exact hfailed _ _
    · exact ((hnvm v _).trans hv).setO (by decide) _

theorem State.refreshTurn_tickFrame (s : State) : s.refreshTurn.TickFrame s := by
  have hdone : ({ s with nv := { s.nv with refresh := none } } : State).TickFrame s := ⟨rfl, fun _ _ => rfl⟩
  unfold State.refreshTurn
  split
  · exact .ite (.refl s) ((State.store_tickFrame _ _ _ _ _).trans hdone)
  · exact .refl s

/-! ### The end of the tick (R129, R144, R407, R477) -/

theorem State.creditAdd_tickFrame (s : State) : s.creditAdd.TickFrame s := .ite (.refl s) ((State.TickFrame.refl s).setO (by decide) _)

theorem State.openCrossing_tickFrame (s : State) : s.openCrossing.TickFrame s := s.opened_tickFrame _

theorem State.hourTick_tickFrame (s : State) : s.hourTick.TickFrame s := by
  unfold State.hourTick
  exact .ite ⟨rfl, fun _ _ => rfl⟩ (((State.TickFrame.refl s).bump (k := Obj.FLT_LIFE_HOURS) (by decide)).frame rfl rfl)

theorem State.uptimeTick_tickFrame (s : State) : s.uptimeTick.TickFrame s := by
  have hsecond (v : State) (n : Nat) : ({ v with power := { v.power with second := n } } : State).TickFrame v := ⟨rfl, fun _ _ => rfl⟩
  have hup := (State.hourTick_tickFrame _).trans ((State.TickFrame.refl s).bump (k := Obj.CF_UPTIME) (by decide))
  have hpower : (s.bump Obj.CF_UPTIME).hourTick.power = s.power := by
    unfold State.hourTick
    split <;> rfl
  have hfull : ({ (s.bump Obj.CF_UPTIME).hourTick with power := { s.power with second := 0 } } : State).TickFrame s := by
    rw [← hpower]
    exact (hsecond _ 0).trans hup
  exact .ite hfull (hsecond s _)

theorem State.canMessage_tlm (s : State) (m : Msg) : (s.canMessage m).cufel = s.cufel := by
  have hout (l : List (Nat × List Byte)) (v : State) : (v.canOut l).cufel = v.cufel := by
    induction l generalizing v with
    | nil => rfl
    | cons f l ih => exact ih _
  exact hout _ _

theorem State.canFlush_tickFrame (s : State) : s.canFlush.TickFrame s := by
  have hsent := s.canFlush_sent
  have htlm : s.canFlush.cufel.tlm = s.cufel.tlm := by
    have hmessages (l : List Msg) (v : State) : (l.foldl State.canMessage v).cufel = v.cufel := by
      induction l generalizing v with
      | nil => rfl
      | cons m l ih => exact (ih _).trans (v.canMessage_tlm m)
    unfold State.canFlush
    split
    · exact (congrArg Cufel.tlm (hmessages s.cufel.outCan { s with cufel := { s.cufel with outCan := [] } }) :)
    · rfl
  generalize s.canFlush = t at hsent htlm
  refine .of_keeps ?_ hsent.objs (by decide)
  have hpart := (congrArg State.tickPart hsent.rest :)
  simp only [State.tickPart, TickPart.mk.injEq] at hpart ⊢
  simp only [htlm, hpart, and_self]

theorem State.workUngates_tickFrame (s : State) : s.workUngates.TickFrame s := .ite (.refl s) ((State.TickFrame.refl s).setO (by decide) _)

theorem State.watchTick_tickFrame (s : State) : s.watchTick.TickFrame s := ⟨rfl, fun _ _ => rfl⟩

theorem State.tlmPublish_none (h : s.cufel.tlm = none) : s.tlmPublish = s := by
  unfold State.tlmPublish
  rw [h]

theorem State.tickEnd_tickFrame (h : s.cufel.tlm = none) : s.tickEnd.TickFrame s := by
  have hopened : s.creditAdd.openCrossing.floorUpdate.uptimeTick.TickFrame s :=
    (State.uptimeTick_tickFrame _).trans ((State.floorUpdate_tickFrame _).trans
      ((State.openCrossing_tickFrame _).trans s.creditAdd_tickFrame))
  change State.TickFrame (s.creditAdd.openCrossing.floorUpdate.uptimeTick.tlmPublish.canFlush.refreshTurn.workUngates.watchTick) s
  generalize s.creditAdd.openCrossing.floorUpdate.uptimeTick = t at hopened
  have htlm : t.cufel.tlm = none := (congrArg TickPart.tlm hopened.part :).trans h
  rw [State.tlmPublish_none htlm]
  exact (State.watchTick_tickFrame _).trans ((State.workUngates_tickFrame _).trans ((State.refreshTurn_tickFrame _).trans
    (t.canFlush_tickFrame.trans hopened)))

/-! ### Network time over a tick (R415, R420) -/

theorem State.ntAdvance_eq (s : State) : ∃ nt time, s.ntAdvance = { s with nt := nt, time := time } := ⟨_, _, rfl⟩

/-- Without a slew there is no correction. -/
theorem State.corr_zero (h : s.time.slew = 0) : s.corr = 0 := by
  have hlim : (0 : Int) ≤ (s.o Obj.NT_SLEW * s.o Obj.NT_INCR / 1000000000 : Nat) := Int.natCast_nonneg _
  unfold State.corr
  rw [h]
  dsimp only
  omega

theorem ofSigned_nat (w n : Nat) : ofSigned w (n : Int) = n % 2 ^ w := by
  unfold ofSigned
  rw [← Int.natCast_emod, Int.toNat_natCast]

/-- Without a rate correction and a slew, network time advances by NT_INCR (R415). -/
theorem State.ntAdvance_incr (hslew : s.time.slew = 0) (hrate : s.o Obj.NT_RATE = 0) :
    s.ntAdvance.nt = (s.nt + s.o Obj.NT_INCR) % 2 ^ 96 := by
  have hadvance : (s.o Obj.NT_INCR : Int) + s.o Obj.NT_INCR * s.ntRate / 2 ^ 32 + s.corr = s.o Obj.NT_INCR := by
    have hzero : s.ntRate = 0 := by
      unfold State.ntRate
      rw [hrate]
      rfl
    rw [State.corr_zero hslew, hzero]
    simp
  have hnt : s.ntAdvance.nt = ofSigned 96 ((s.nt : Int) + (s.o Obj.NT_INCR + s.o Obj.NT_INCR * s.ntRate / 2 ^ 32 + s.corr)) := rfl
  rw [hnt, hadvance, ← Int.natCast_add, ofSigned_nat]

/-- Nothing but a setting waits for the tick: no resumption, ladder step, park, re-initialisation, APPLY, publication, command or
alignment. -/
structure State.TickClear (s : State) : Prop where
  resume : s.clk.resume = false
  deferred : s.power.deferred = []
  parking : s.power.parking = none
  reinit : s.power.reinit = []
  tlm : s.cufel.tlm = none
  applied : s.applied = []
  sched : ∀ x ∈ s.sched, x.tick ≠ s.tick + 1
  align : s.alignPend = none

/-- Up to the settings, a tick only advances network time. -/
theorem State.crossingTick_eq (u : List Upset) (sent : Bool) (hclk : s.o Obj.CLK_STATE = 3) (hrun : s.inRun = true)
    (hidle : s.TickIdle) (hclear : s.TickClear) : ∃ v w : State, v.TickFrame s.nextTick ∧ w.TickFrame v.ntAdvance ∧
      s.crossingTick u sent = w.liveWrites.syncEffects.tickEnd := by
  have hclose := s.closeDue_tickFrame u
  have htick : s.crossingTick u sent =
      (((s.finishTick.closeDue u).tickStart sent).reinitTick.parkTick.liveWrites.syncEffects).tickEnd := if_neg (by omega)
  rw [State.finishTick_idle hidle hrun] at htick
  generalize s.closeDue u = c at hclose htick
  obtain ⟨v, hv, hstart⟩ := State.tickStart_advances (s := c) sent ((congrArg TickPart.resume hclose.part :).trans hclear.resume)
    ((congrArg TickPart.deferred hclose.part :).trans hclear.deferred)
  have hvs : v.TickFrame s.nextTick := hv.trans (State.nextTick_tickFrame hclose)
  generalize c.tickStart sent = a at hstart htick
  have hreinit : a.power.reinit = [] := (congrArg TickPart.reinit (hstart.part.trans rfl) :).trans
    ((congrArg TickPart.reinit hvs.part :).trans hclear.reinit)
  have hover := State.reinitTick_tickFrame hreinit
  generalize a.reinitTick = b at hover htick
  have hpark : b.power.parking = none := (congrArg TickPart.parking (hover.trans hstart).part :).trans
    ((congrArg TickPart.parking hvs.part :).trans hclear.parking)
  rw [State.parkTick_idle hpark] at htick
  exact ⟨v, b, hvs, hover.trans hstart, htick⟩

/-- Network time and its objects are as in s. -/
structure State.KeepsTime (t s : State) : Prop where
  nt : t.nt = s.nt
  time : t.time = s.time
  objs : ∀ k ∈ ntKeys, t.o k = s.o k

theorem State.KeepsTime.of_tick (h : t.TickFrame s) : t.KeepsTime s :=
  ⟨(congrArg TickPart.nt h.part :), (congrArg TickPart.time h.part :), h.objs⟩

/-- After the settings, nothing touches network time. -/
theorem State.tickEnd_keepsTime (happlied : s.applied = []) (hsched : ∀ x ∈ s.sched, x.tick ≠ s.tick) (halign : s.alignPend = none)
    (htlm : s.cufel.tlm = none) : s.syncEffects.tickEnd.KeepsTime s := by
  obtain ⟨sched, hsync⟩ := State.syncEffects_tickFrame happlied hsched halign
  generalize s.syncEffects = t at hsync
  have hnone : t.cufel.tlm = none := (congrArg TickPart.tlm hsync.part :).trans htlm
  have h := State.KeepsTime.of_tick ((State.tickEnd_tickFrame hnone).trans hsync)
  exact ⟨h.nt, h.time, h.objs⟩

/-- A step, before it is captured and logged, is all that a step does to network time. -/
theorem State.ntStep_tickFrame (s : State) (d : Int) : (s.ntStep d).TickFrame (s.ntMoved d) := by
  rw [State.ntStep_eq]
  exact (State.stage_tickFrame _ _ _ _ _).trans (State.capture_tickFrame _ 5)

/-- The part of a tick that a setting leaves to its end. -/
theorem State.tickEnd_keepsTime_of_part {v w l : State} (hclear : s.TickClear) (hv : v.TickFrame s.nextTick) (hw : w.TickFrame v.ntAdvance)
    (happlied : l.applied = w.applied) (hsched : l.sched = w.sched) (htick : l.tick = w.tick) (halign : l.alignPend = w.alignPend)
    (htlm : l.cufel.tlm = w.cufel.tlm) : l.syncEffects.tickEnd.KeepsTime l := by
  obtain ⟨nt, time, hnt⟩ := v.ntAdvance_eq
  rw [hnt] at hw
  refine State.tickEnd_keepsTime (happlied.trans ?_) ?_ (halign.trans ?_) (htlm.trans ?_)
  · exact (congrArg TickPart.applied hw.part :).trans ((congrArg TickPart.applied hv.part :).trans hclear.applied)
  · have hs : l.sched = s.sched := hsched.trans ((congrArg TickPart.sched hw.part :).trans (congrArg TickPart.sched hv.part :))
    have ht : l.tick = s.tick + 1 := htick.trans ((congrArg TickPart.tick hw.part :).trans (congrArg TickPart.tick hv.part :))
    rw [hs, ht]
    exact hclear.sched
  · exact (congrArg TickPart.align hw.part :).trans ((congrArg TickPart.align hv.part :).trans hclear.align)
  · exact (congrArg TickPart.tlm hw.part :).trans ((congrArg TickPart.tlm hv.part :).trans hclear.tlm)

/-- Network time set to n nanoseconds is n nanoseconds with a zero fraction (R420). -/
theorem ofSigned_ntSet (n : BitVec 64) (nt : Nat) :
    ofSigned 96 ((nt : Int) + ((n.toNat * 2 ^ 32 : Nat) - (nt : Int))) = n.toNat * 2 ^ 32 := by
  have hn := n.isLt
  have hset : (nt : Int) + ((n.toNat * 2 ^ 32 : Nat) - (nt : Int)) = (n.toNat * 2 ^ 32 : Nat) := by omega
  rw [hset, ofSigned_natCast (by omega)]

theorem State.crossingTick_setsTime {n : BitVec 64} (u : List Upset) (sent : Bool) (hclk : s.o Obj.CLK_STATE = 3) (hrun : s.inRun = true)
    (hidle : s.TickIdle) (hclear : s.TickClear) (hlive : s.livePend = [(Obj.NT_SET, n.toNat)]) :
    (s.crossingTick u sent).nt = n.toNat * 2 ^ 32 ∧ (s.crossingTick u sent).o Obj.NT_STEPS = satAdd 32 (s.o Obj.NT_STEPS) 1 ∧
    (s.crossingTick u sent).o Obj.NT_STATE = s.o Obj.NT_STATE ∧ (s.crossingTick u sent).time.slew = 0 := by
  obtain ⟨v, w, hv, hw, htick⟩ := State.crossingTick_eq u sent hclk hrun hidle hclear
  have hpend : w.livePend = [(Obj.NT_SET, n.toNat)] := (congrArg TickPart.live hw.part :).trans
    ((congrArg TickPart.live hv.part :).trans hlive)
  have hobj : ∀ k ∈ ntKeys, w.o k = s.o k := fun k hk => (hw.objs k hk).trans (hv.objs k hk)
  obtain ⟨differs, hset⟩ := State.liveWrites_ntSet hpend
  generalize hw' : ({ w with livePend := [], differs := differs } : State) = w' at hset
  have hobj' : ∀ k ∈ ntKeys, w'.o k = s.o k := fun k hk => hw' ▸ hobj k hk
  have hstep : w.liveWrites.TickFrame (w'.ntMoved ((n.toNat * 2 ^ 32 : Nat) - (w'.nt : Int))) := by
    rw [hset]
    exact w'.ntStep_tickFrame _
  have hkeeps : w.liveWrites.syncEffects.tickEnd.KeepsTime w.liveWrites :=
    State.tickEnd_keepsTime_of_part hclear hv hw ((congrArg TickPart.applied hstep.part :).trans (by rw [← hw']; rfl))
      ((congrArg TickPart.sched hstep.part :).trans (by rw [← hw']; rfl)) ((congrArg TickPart.tick hstep.part :).trans (by rw [← hw']; rfl))
      ((congrArg TickPart.align hstep.part :).trans (by rw [← hw']; rfl)) ((congrArg TickPart.tlm hstep.part :).trans (by rw [← hw']; rfl))
  have hsteps : (w'.ntMoved ((n.toNat * 2 ^ 32 : Nat) - (w'.nt : Int))).o Obj.NT_STEPS = satAdd 32 (s.o Obj.NT_STEPS) 1 :=
    (w'.o_bump_self Obj.NT_STEPS).trans (by rw [hobj' _ (by decide)])
  have hstate : (w'.ntMoved ((n.toNat * 2 ^ 32 : Nat) - (w'.nt : Int))).o Obj.NT_STATE = s.o Obj.NT_STATE :=
    (w'.o_bump_ne (by decide)).trans (hobj' _ (by decide))
  rw [htick]
  refine ⟨hkeeps.nt.trans ((congrArg TickPart.nt hstep.part :).trans (ofSigned_ntSet n w'.nt)), ?_, ?_, ?_⟩
  · exact (hkeeps.objs _ (by decide)).trans ((hstep.objs _ (by decide)).trans hsteps)
  · exact (hkeeps.objs _ (by decide)).trans ((hstep.objs _ (by decide)).trans hstate)
  · exact congrArg NetTime.slew (hkeeps.time.trans (congrArg TickPart.time hstep.part :))

/-- Without a setting, a tick advances network time and leaves its state. -/
theorem State.crossingTick_advances (u : List Upset) (sent : Bool) (hclk : s.o Obj.CLK_STATE = 3) (hrun : s.inRun = true)
    (hidle : s.TickIdle) (hclear : s.TickClear) (hlive : s.livePend = []) (hslew : s.time.slew = 0) (hrate : s.o Obj.NT_RATE = 0) :
    (s.crossingTick u sent).nt = (s.nt + s.o Obj.NT_INCR) % 2 ^ 96 ∧ (s.crossingTick u sent).o Obj.NT_STATE = s.o Obj.NT_STATE := by
  obtain ⟨v, w, hv, hw, htick⟩ := State.crossingTick_eq u sent hclk hrun hidle hclear
  have hpend : w.livePend = [] := (congrArg TickPart.live hw.part :).trans ((congrArg TickPart.live hv.part :).trans hlive)
  have hkeeps := State.tickEnd_keepsTime_of_part (l := w) hclear hv hw rfl rfl rfl rfl rfl
  have hadvance : v.ntAdvance.nt = (v.nt + v.o Obj.NT_INCR) % 2 ^ 96 :=
    State.ntAdvance_incr ((congrArg (fun p : TickPart => p.time.slew) hv.part :).trans hslew) ((hv.objs _ (by decide)).trans hrate)
  have hnt : v.nt = s.nt := (congrArg TickPart.nt hv.part :)
  have hincr : v.o Obj.NT_INCR = s.o Obj.NT_INCR := hv.objs _ (by decide)
  rw [hnt, hincr] at hadvance
  rw [htick, State.liveWrites_none hpend]
  exact ⟨hkeeps.nt.trans ((congrArg TickPart.nt hw.part :).trans hadvance),
    (hkeeps.objs _ (by decide)).trans ((hw.objs _ (by decide)).trans (hv.objs _ (by decide)))⟩

/-- Settles O58: nothing on the way of an undisturbed tick touches network time but its advance and the NT_SET that waits. -/
theorem ntSetSetsNetworkTimeAtTheNextTick : Obligations.NtSetSetsNetworkTimeAtTheNextTick := by
  unfold Obligations.NtSetSetsNetworkTimeAtTheNextTick
  intro q ns u sent s
  refine ⟨fun hs hx => hostWrite_runs_expert hs hx rfl, fun hs hx => hostWrite_runs_waits hs (.inr hx) rfl rfl, ?_⟩
  intro hawake hrun hresume hdeferred _ _ hparking hreinit _ htlm hclk hmarker hdue halign hwaiting halarms happlied hsched
  have hidle : s.TickIdle := ⟨hmarker, hdue, halign, hwaiting, halarms⟩
  have hclear : s.TickClear := ⟨hresume, hdeferred, hparking, hreinit, htlm, happlied, hsched, halign⟩
  exact ⟨fun hlive => awake_runs hawake rfl (State.crossingTick_setsTime u sent hclk hrun hidle hclear hlive),
    fun hlive hslew hrate => awake_runs hawake rfl (State.crossingTick_advances u sent hclk hrun hidle hclear hlive hslew hrate)⟩

end Sys2Proof.Machine
end
